-- ==== Sys2Proof/Word.lean ====
section
/-! DEFINITION. Word.lean: the word types of the model. -/

namespace Sys2Proof

/-- A byte of a structure, a packet or a memory. -/
abbrev Byte := BitVec 8

/-- A 32-bit word of a structure or a descriptor. -/
abbrev Word := BitVec 32

/-- A register's contents: 32-bit registers stand in the low half. -/
abbrev DWord := BitVec 64

/-- A sparse table: values by number, the numbers rising, an absent number standing for the table's default. -/
abbrev Tbl (α : Type) := List (Nat × α)

end Sys2Proof
end

