-- ==== Sys2Proof/Syntax.lean ====
section
/-! DEFINITION. Syntax.lean: the commands of the block (one constructor of `Instr` for each row of the table of operations and
events) and the types of their operands. An operand carries what comes from outside the block: the data of a register
access, the bits of a packet, what host memory returned, the instant that the time base showed, a sensor's reading. -/

namespace Sys2Proof

/-- A port: root port `n`, or downstream port `p` of hub `dev` (R95, R98: hub ports use the same states). -/
inductive PortId where
  | root (n : Nat)
  | hub (dev p : Nat)
  deriving DecidableEq, Repr

/-- One end of a link: the upstream end at a port, or the downstream end at upstream port `up` of device `dev`. -/
inductive LinkEndId where
  | port (p : PortId)
  | dev (dev up : Nat)
  deriving DecidableEq, Repr

/-- How wide a register read is (Table 16.2): the whole of a 64-bit register (or a word pair), one full half, or narrow. -/
inductive ReadWidth where
  | full
  | low
  | high
  | narrow
  deriving DecidableEq, Repr

/-- An error that the PCIe endpoint reports by AER (R416): correctable or not, its bit in the status register, and of an uncorrectable one the
header and PASID prefix of the TLP. -/
structure TlpError where
  uncorr : Bool
  bit : Nat
  header : List Byte
  prefix_ : List Byte
  deriving DecidableEq, Repr

/-- The FRAME payload (Table 2.6). `correction` is in 1/256 ns. -/
structure FrameBody where
  frameNo : Nat
  sec : Nat
  ns : Nat
  holdover : Bool
  stepped : Bool
  qclass : Nat
  flagsRsvd : Bool
  frate : Nat
  correction : Int
  utcOfs : Nat
  deriving DecidableEq, Repr

/-- A packet as a link layer holds it (Table 3.4), its LSEQ apart. -/
structure Pkt where
  pid : Nat
  up : Bool
  route : Nat
  tag : Nat
  dir : Nat
  epnum : Nat
  devaddr : Nat
  pflags : Nat
  payload : List Byte
  deriving DecidableEq, Repr

/-- A packet as it stands on the link: sixteen header bytes, payload, trailer, and whether the FEC marked a byte of it
errored (R76). -/
structure RawPkt where
  header : List Byte
  payload : List Byte
  trailer : Word
  errored : Bool
  deriving DecidableEq, Repr

/-- What a receiver takes from the line (R70–R75): code groups at Rate 1, bit 9 first on the line; at Rate 5 the sync headers and 64-bit blocks
of whole codewords. -/
inductive RxLine where
  | groups (g : List Nat)
  | blocks (b : List (Nat × Nat))
  deriving DecidableEq, Repr

/-- The fields of a LINKCTL payload (Table 3.7). -/
structure Linkctl where
  typ : Nat
  seq : Nat
  arg : Nat
  frameNo : Nat
  deriving DecidableEq, Repr

/-- What a bus transfer puts on a link. -/
inductive BusPkt where
  | frame (lseq : Nat) (f : FrameBody)
  | txn (lseq : Nat) (p : Pkt)
  | delayReq (seq lastMean : Nat)
  | delayResp (seq t2 t3 : Nat)
  | linkctl (l : Linkctl)
  | idle (trainRate : Nat)
  | quiet
  /-- A forwarded copy that turned out bad, ended with a poisoned trailer (R89). -/
  | poisoned (lseq : Nat) (p : Pkt)
  deriving DecidableEq, Repr

/-- What a read of host memory gave: the bytes, or a failure on the host link after the mover's retries (R322). -/
inductive HostRead where
  | ok (bytes : List Byte)
  | failed
  deriving DecidableEq, Repr

/-- What the reads of the context table in host memory gave (R156), by host address: the 8 bytes of a directory entry, or the 64 bytes of a slot
of a leaf page. An address that is not listed could not be read. -/
structure CtxHost where
  mem : List (Nat × HostRead)
  deriving DecidableEq, Repr

/-- What ENUMERATE sets for one endpoint that a device's records list (step 6 of Table 4.14) beyond what the records say: the spec names no
source of these fields (log entry 94). `slow`, `intExp` and `phase` are also those of its periodic entry. -/
structure EnumEp where
  owner : Nat
  base : Nat
  size : Nat
  ring : Nat
  retry : Nat
  rtt : Nat
  nyLimit : Nat
  intExp : Nat
  phase : Nat
  slow : Bool
  link : Nat
  deriving DecidableEq, Repr

/-- A piece of the mover's work whose host read or flushing read failed (R321, R322): a read of a software channel's descriptor or data, its flushing
read; on an engine channel the read of a ring entry, a record, data of a transfer descriptor or its write-back, the write-back of a command, a
context fetch, a spill read. -/
inductive HostWork where
  | channel (n : Nat)
  | flush (n : Nat)
  | ringEntry (r : Nat)
  | record (r : Nat)
  | tdData (r idx : Nat)
  | tdWriteback (r idx : Nat)
  | cmdWriteback (r : Nat)
  | context (eph : Nat)
  | spill (n : Nat)
  deriving DecidableEq, Repr


/-- A firmware slot of the flash (R452): whether MAGIC, PUBKEY, SIG and DIGEST check, its header's versions, and the first 24 bytes of DIGEST. -/
structure FwSlot where
  valid : Bool
  major : Nat
  minor : Nat
  svn : Nat
  keySlot : Nat
  digest : List Byte
  deriving DecidableEq, Repr

/-- What the OTP holds: the rollback floor, the revoked key slots, the two locks, the debug key hash, the serial number. -/
structure Otp where
  floor : Nat
  revoked : Nat
  secureLock : Bool
  debugDisable : Bool
  dbgKey : List Byte
  serial : List Byte
  deriving DecidableEq, Repr

/-- What a cold start finds (Table 15.1): ember region 0 checks; the OTP, none where its ECC check fails; the two firmware slots; BIST finds
every fault repairable; arrays in which it used a spare row; root ports that fail the loopback test, bit n. -/
structure StartIn where
  region0 : Bool
  otp : Option Otp
  a : FwSlot
  b : FwSlot
  bist : Bool
  rows : List Nat
  loopFail : Nat
  deriving DecidableEq, Repr

/-- Where an SRAM error stands: a physical bank of the buffer pool, or a row of another array. -/
inductive SramPlace where
  | bank (b : Nat)
  | row (array row : Nat)
  deriving DecidableEq, Repr

/-- The buffer-pool data that an uncorrectable word belongs to (Table 13.4). Mover data is MOVER_DESC_DONE's. -/
inductive EccHit where
  | free
  | td (ring idx : Nat)
  | command (ring idx : Nat)
  | block (eph bseq : Nat)
  deriving DecidableEq, Repr

/-- A root port at Rate 5 as measured over one second (Table 15.3): eye width in 0.001 UI and height in mV, corrected codewords, whether
any was uncorrectable. -/
structure EyeIn where
  port : Nat
  width : Nat
  height : Nat
  corr : Nat
  uncorr : Bool
  deriving DecidableEq, Repr

/-- A command of the block: one constructor for each row of the table of operations and events, in its order. -/
inductive Instr where
  /-- FRAME_TICK (R48): the time base reaches a tick instant and a new frame starts. -/
  | frameTick (corr : List Int) (behind tTx : Nat) (h : CtxHost)
  /-- HAND_DEADLINE (R23): the 3 us deadline before a tick expires, and work not yet composed does not enter that hand. -/
  | handDeadline (cuts : List (Nat × Nat))
  /-- GUARD_BAND_START (R247): the guard band begins, and composed CONTROL or BULK transactions not yet started return to the head of their lists. -/
  | guardBandStart (t : Nat)
  /-- PPS_IN_EDGE (R43): an active PPS_IN edge is accepted or rejected against the predicted second, and the offset is measured. -/
  | ppsInEdge (rising : Bool) (t : Nat)
  /-- PPS_IN_LOST (R43): 2 s pass without an accepted PPS_IN edge, and PPS_IN is lost. -/
  | ppsInLost
  /-- REF_IN_LOST (R43): 1 us passes after the last REF_IN edge, and REF_IN is lost. -/
  | refInLost
  /-- REF_IN_VALID (R43): 10 ms of REF_IN edges within 50 ppm pass, and REF_IN becomes valid. -/
  | refInValid
  /-- IRIG_FRAME_RECEIVE (R44): A full IRIG_IN frame is decoded, and its time of year is held for its on-time mark. -/
  | irigFrameReceive (good : Bool) (year : Option Nat) (secOfYear : Nat)
  /-- IRIG_IN_LOST (R43): IRIG_IN is lost after two bad frames or 2 s without a frame. -/
  | irigInLost
  /-- PTM_DIALOGUE_DONE (R43): A PTM dialogue with the host completes or fails, updating TIM_PTM_HOST and TIM_PTM_LOCAL. -/
  | ptmDialogueDone (ok : Bool) (hostSec hostNs loc : Nat)
  /-- ERR_EST_GROWTH (R42): each second of holdover, TIM_ERR_EST grows by the configured growth and the class follows it. -/
  | errEstGrowth
  /-- STEP_GO (R46): the manager writes TIM_CTL.STEP_GO to apply a pending step. -/
  | stepGo (t : Nat)
  /-- FRAME_EN_WRITE (R51): TIM_CTL.FRAME_EN is set or cleared, taking effect at the next second boundary or tick. -/
  | frameEnWrite (en : Bool)
  /-- TIM_NOW_READ (R66): A read of TIM_NOW samples the time base and, for a low-half read, holds the high half. -/
  | timNowRead (w : ReadWidth) (t : Nat)
  /-- TIM_FRAME_NO_READ (R66): A read of TIM_FRAME_NO holds TIM_FRAME_START of the same frame. -/
  | timFrameNoRead (w : ReadWidth)
  /-- TIM_PTM_HOST_READ (R66): A read of TIM_PTM_HOST holds TIM_PTM_LOCAL of the same dialogue. -/
  | timPtmHostRead (w : ReadWidth)
  /-- TIM_LABEL_WRITE (R44): A write of TIM_LABEL arms the label for the next accepted phase mark, or is compared once a label exists. -/
  | timLabelWrite (w : ReadWidth) (data t be : Nat)
  /-- TIM_EVT_READ (R468): A full-width read of TIM_EVT clears its RC bits and updates TIM_EVT_SHADOW. -/
  | timEvtRead (both : Bool)
  /-- FRAME_RECEIVE (R56): A hub or module receives a FRAME, derives the tick instant and corrects its clock. -/
  | frameReceive (d up : Nat) (payload : List Byte) (tRx : Int) (tTx : List Int) (t1 : Int)
  /-- DELAY_REQ_RECEIVE (R57): the upstream end stamps a DELAY_REQ, answers DELAY_RESP and stores LAST_MEAN. -/
  | delayReqReceive (p : PortId) (payload : List Byte) (t2 t3 : Nat)
  /-- DELAY_RESP_RECEIVE (R58): the requester computes mean and d_down from a DELAY_RESP and accepts or rejects the result. -/
  | delayRespReceive (d up : Nat) (payload : List Byte) (t4 : Int)
  /-- DELAY_REQ_ABANDON (R58): A DELAY_REQ without a DELAY_RESP within 40 us is abandoned. -/
  | delayReqAbandon (d up : Nat)
  /-- SYNC_LOST (R61): after 16 frames without an accepted FRAME a hub or module stops being synchronised. -/
  | syncLost (d : Nat)
  /-- SYNC_GAIN (R72): A Rate 1 receiver gains sync after three aligned IDLE sets. -/
  | syncGain (l : LinkEndId) (groups : List Nat)
  /-- SYNC_LOSS (R72): A Rate 1 receiver loses sync after four invalid code groups in 16, and treats the link as down. -/
  | syncLoss (l : LinkEndId) (groups : List Nat) (t : Nat)
  /-- CODEWORD_LOCK (R75): A Rate 5 receiver gains codeword lock after four good codewords. -/
  | codewordLock (l : LinkEndId) (blocks : List (Nat × Nat))
  /-- CODEWORD_LOCK_LOSS (R75): A Rate 5 receiver loses codeword lock on bad sync headers or uncorrectable codewords. -/
  | codewordLockLoss (l : LinkEndId) (blocks : List (Nat × Nat)) (t : Nat)
  /-- PACKET_RECEIVE (R83): A receiver takes a packet and applies the receive checks, delivering, discarding or asking for a retry. -/
  | packetReceive (l : LinkEndId) (line : RxLine) (begun t : Nat)
  /-- LINKCTL_ACK_RECEIVE (R86): A sender receives LINKCTL ACK and frees acknowledged packets from its replay buffer. -/
  | linkctlAckReceive (l : LinkEndId) (seq : Nat)
  /-- LINKCTL_RETRY_RECEIVE (R86): A sender receives LINKCTL RETRY and replays from the LSEQ named. -/
  | linkctlRetryReceive (l : LinkEndId) (seq t : Nat) (tTx : Int)
  /-- REPLAY_TIMEOUT (R86): the oldest unacknowledged packet has no ACK for 20 us and the sender replays. -/
  | replayTimeout (l : Option LinkEndId) (t : Nat) (tTx : Int)
  /-- CAPS_RECEIVE (R94): an end receives CAPS, records the peer's capabilities and brings the link up. -/
  | capsReceive (l : LinkEndId) (seq arg t : Nat) (t1 tTx : Int)
  /-- CAPS_REPEAT (R93): CAPS is repeated every 10 us until the peer's CAPS with SEEN arrives. -/
  | capsRepeat (l : LinkEndId) (t : Nat)
  /-- RATE_REQ_RECEIVE (R108): the downstream end receives RATE_REQ and answers RATE_ACK. -/
  | rateReqReceive (d up arg frameNo : Nat)
  /-- RATE_ACK_RECEIVE (R108): the upstream end receives RATE_ACK for a pending rate change. -/
  | rateAckReceive (p : PortId) (arg frameNo : Nat)
  /-- RATE_REQ_REPEAT (R93): RATE_REQ is repeated every 5 us until RATE_ACK or the guard band before the switch frame. -/
  | rateReqRepeat (p : PortId)
  /-- LINKCTL_RESET_RECEIVE (R102): A device or hub receives RESET, resets its function, propagates it and echoes. -/
  | linkctlResetReceive (d up t : Nat)
  /-- RESET_ECHO_RECEIVE (R99): the RESET echo arrives and a RESETTING port becomes ENABLED. -/
  | resetEchoReceive (p : PortId) (t : Nat)
  /-- LINKCTL_SUSPEND_RECEIVE (R103): A hub receives SUSPEND, propagates it and echoes once its ports have echoed or 10 ms pass. -/
  | linkctlSuspendReceive (d up t : Nat)
  /-- SUSPEND_ECHO_RECEIVE (R103): the SUSPEND echo arrives, and both ends go to electrical idle at the next tick. -/
  | suspendEchoReceive (p : PortId) (t : Nat)
  /-- LINKCTL_RESUME_RECEIVE (R104): the downstream end receives RESUME, echoes once the link is up, and a hub resumes ports suspended by propagation. -/
  | linkctlResumeReceive (d up t : Nat)
  /-- RESUME_ECHO_RECEIVE (R104): the RESUME echo arrives and a RESUMING port becomes ENABLED. -/
  | resumeEchoReceive (p : PortId) (t : Nat)
  /-- LINKCTL_WAKE_RECEIVE (R105): the upstream end receives WAKE and starts a resume, recording the wake. -/
  | linkctlWakeReceive (p : PortId) (t : Nat)
  /-- LINKCTL_CMD_REPEAT (R93): RESET, SUSPEND, RESUME or WAKE is repeated every 100 us until echoed or answered. -/
  | linkctlCmdRepeat (l : LinkEndId) (t : Nat)
  /-- SIGNAL_DETECT (R99): signal is detected on a port in DISCONNECTED or SUSPENDED and the port begins training. -/
  | signalDetect (p : PortId) (t : Nat)
  /-- CONNECT_DEBOUNCE_DONE (R99): the link has been up with valid CAPS for 10 ms and the port moves to RESETTING and sends RESET. -/
  | connectDebounceDone (p : PortId) (t : Nat)
  /-- TRAINING_TIMEOUT (R99): no link within 1 ms of training, and the port returns to DISCONNECTED. -/
  | trainingTimeout (p : PortId)
  /-- RESET_ECHO_TIMEOUT (R99): no RESET echo within 10 ms, and the port moves to DISCONNECTED. -/
  | resetEchoTimeout (p : PortId) (t : Nat)
  /-- RETRAIN_TIMEOUT (R99): A RETRAINING port gets no link within 2 ms and moves to DISCONNECTED. -/
  | retrainTimeout (p : PortId)
  /-- RESUME_TIMEOUT (R99): A RESUMING port gets no link within 10 ms and moves to DISCONNECTED. -/
  | resumeTimeout (p : PortId)
  /-- SUSPEND_ECHO_TIMEOUT (R103): no SUSPEND echo within 10 ms, and the port moves to RETRAINING. -/
  | suspendEchoTimeout (p : PortId) (t : Nat)
  /-- LINK_LOST (R99): the link of an ENABLED port goes down and the port enters RETRAINING or ERROR. -/
  | linkLost (p : PortId) (t : Nat)
  /-- RATE_LOCK (R99): lock is gained at the new rate and the port returns to ENABLED with RATE_CHG. -/
  | rateLock (l : LinkEndId) (t : Nat) (tTx : Int)
  /-- RATE_LOCK_TIMEOUT (R99): no lock within 20 us of the switch, and both ends return to the old rate. -/
  | rateLockTimeout (l : LinkEndId) (t : Nat)
  /-- PORT_ENABLE (R99): PRT_CTLn.ENABLE is written, moving the port to DISCONNECTED or DISABLED. -/
  | portEnable (n : Nat) (en rwake : Bool) (t : Nat)
  /-- PORT_CLEAR_ERROR (R107): PRT_CTLn.CLEAR_ERROR moves a port in ERROR to DISCONNECTED. -/
  | portClearError (n t : Nat)
  /-- PORT_RETRAIN (R107): PRT_CTLn.RETRAIN takes the link down and moves the port to RETRAINING. -/
  | portRetrain (n t : Nat)
  /-- PORT_RESUME (R107): PRT_CTLn.RESUME starts a resume of a suspended port. -/
  | portResume (n t : Nat)
  /-- PORT_SUSPEND (R103): PRT_CTLn.SUSPEND suspends a port's tree, refused while it has committed periodic entries. -/
  | portSuspend (n t : Nat)
  /-- PORT_RESET (R102): PRT_CTLn.RESET sends RESET and resets the port's subtree. -/
  | portReset (n t : Nat)
  /-- PRT_CHG_READ (R468): A full-width read of PRT_CHGn clears its change bits and updates its shadow. -/
  | prtChgRead (n : Nat) (both : Bool)
  /-- XCVR_IDENTIFY (R112): 300 ms after presence is accepted, the transceiver's identity pages are read and it is identified and rated. -/
  | xcvrIdentify (n : Nat)
  /-- XCVR_DIAG_READ (R112): once per second per cage the transceiver diagnostics are read for the health monitor. -/
  | xcvrDiagRead (n : Nat) (data : List Byte)
  /-- SIDEBAND_SCAN (R113): every 10 us the module sideband chain is scanned, loading inputs and shifting out TX_DISABLE. -/
  | sidebandScan (bits : Nat)
  /-- MOD_ABS_CHANGE (R114): A change of MOD_ABS is accepted after 1,000 equal scans. -/
  | modAbsChange (n : Nat)
  /-- LOS_TX_FAULT_ACCEPT (R114): A change of LOS or TX_FAULT is accepted after three equal scans. -/
  | losTxFaultAccept (n : Nat)
  /-- MSC_FAULT (R114): A CHAIN bit reads 1 in two scans, or 16 good scans follow a fault, and the chain fault is set or cleared. -/
  | mscFault
  /-- GET_PORT_STATUS (R117): A hub returns a downstream port's status and clears its change word. -/
  | getPortStatus (d : Nat)
  /-- SET_PORT_FEATURE (R116): A hub sets a feature of a downstream port, such as ENABLE, RESET, SUSPEND or RATE5. -/
  | setPortFeature (d t : Nat)
  /-- CLEAR_PORT_FEATURE (R116): A hub clears a feature of a downstream port, resuming it or moving it to Rate 1. -/
  | clearPortFeature (d t : Nat)
  /-- TRANSACTION_START (R218): the port engine starts a composed transaction's request packets at its slot. -/
  | transactionStart (n tag t : Nat)
  /-- ANSWER_RECEIVE (R129): the controller acts on an answer to a transaction: stores data, acknowledges, flips toggles or halts. -/
  | answerReceive (n : Nat) (p : Pkt) (poisoned : Bool) (t tEnd : Nat)
  /-- ANSWER_TIMEOUT (R128): T_wait passes with no answer and the controller decides there is none. -/
  | answerTimeout (n tag t : Nat)
  /-- CALL_IN_RECEIVE (R126): A module answers a CALL_IN with DATA, NAK or STALL. -/
  | callInReceive (d : Nat) (p : Pkt)
  /-- CALL_OUT_RECEIVE (R132): A module takes a CALL_OUT and its DATA and answers ACK, NAK, NOTYET or STALL. -/
  | callOutReceive (d : Nat) (p data : Pkt) (room after : Bool)
  /-- COMMAND_RECEIVE (R131): A module checks a COMMAND, executes it or arms it, and answers with its echo or STALL. -/
  | commandReceive (d : Nat) (p data : Pkt) (tHold tExec : Nat)
  /-- EXEC_AT_EXECUTE (R131): the module's clock reaches EXEC_AT and an armed command executes. -/
  | execAtExecute (d ep : Nat)
  /-- PING_RECEIVE (R134): A module answers a PING with ACK when ready or NAK when not. -/
  | pingReceive (d : Nat) (p : Pkt) (room : Bool)
  /-- SETUP_RECEIVE (R137): A device takes a SETUP, abandoning any control transfer in progress on endpoint 0. -/
  | setupReceive (d : Nat) (p : Pkt)
  /-- CONTROL_TRANSFER_TIMEOUT (R137): A control transfer not complete 50 ms after its SETUP completes NO_RESPONSE. -/
  | controlTransferTimeout (eph : Nat)
  /-- GET_STATUS (R138): the standard request returns the device state or an endpoint's halt bit. -/
  | getStatus (d : Nat)
  /-- CLEAR_HALT (R138): the standard request clears an endpoint's halt and resets its toggle, acted on by the controller. -/
  | clearHalt (d : Nat)
  /-- RESET_ENDPOINT (R138): the standard request clears the halt, resets the toggle and discards the endpoint's held data. -/
  | resetEndpoint (d : Nat)
  /-- SET_ADDRESS (R138): the standard request gives the device its address after the status stage. -/
  | setAddress (d : Nat)
  /-- GET_RECORD (R138): the standard request returns an identity, endpoint or calibration record. -/
  | getRecord (d : Nat)
  /-- GET_CONFIGURATION (R138): the standard request returns whether the device is configured. -/
  | getConfiguration (d : Nat)
  /-- SET_CONFIGURATION (R138): the standard request configures or unconfigures the device and moves its contexts. -/
  | setConfiguration (d : Nat)
  /-- SET_REMOTE_WAKE (R138): the standard request enables or disables remote wake. -/
  | setRemoteWake (d : Nat)
  /-- SET_LINK_ASYM (R144): the standard request gives the device the asymmetry A of its upstream link. -/
  | setLinkAsym (d : Nat)
  /-- CONTEXT_FETCH_DONE (R155): A context fetch from host memory completes or fails, releasing or completing the waiting transfers. -/
  | contextFetchDone (eph : Nat) (h : CtxHost)
  /-- DOORBELL (R170): A doorbell write is checked and moves a ring's TAIL, or is rejected. -/
  | doorbell (slice : Option Nat) (j db : Nat)
  /-- MRING_ENABLE (R173): SCH_MRINGn_CTL.ENABLE set samples the geometry and activates the manager ring or refuses. -/
  | mringEnable (n : Nat)
  /-- MRING_DISABLE (R173): SCH_MRINGn_CTL.ENABLE cleared makes the manager ring UNUSED at the next entry boundary. -/
  | mringDisable (n : Nat)
  /-- TD_TAKE (R177): the controller takes a handed TD from its ring, checks it and makes it a dealer entry. -/
  | tdTake (r : Nat) (tds bufs : List HostRead) (spillOk : Bool)
  /-- TD_WRITEBACK (R182): after its data is confirmed, a completed TD is written back and OWN is cleared in ring order. -/
  | tdWriteback (r idx : Nat)
  /-- CMD_WRITEBACK (R193): A completed command is written back in two steps, followed by CMD_COMPLETE when due. -/
  | cmdWriteback (r : Nat) (st : List StartIn)
  /-- HOST_TRANSPORT_START (R26): the mover starts host transport of a completed periodic transaction's data within 2 us. -/
  | hostTransportStart (r idx : Nat)
  /-- RESERVED_OPCODE (R196): A command with a reserved opcode completes BOUNDS and is audited when issued by a tenant. -/
  | reservedOpcode (r : Nat) (d : HostRead)
  /-- RING_CREATE (R197): the command creates an allotted ring with its geometry and makes it ACTIVE. -/
  | ringCreate (r : Nat) (d : HostRead)
  /-- RING_STOP (R197): the command stops a ring from taking further entries. -/
  | ringStop (r : Nat) (d : HostRead)
  /-- RING_START (R197): the command resumes a STOPPED or ERROR ring at HEAD. -/
  | ringStart (r : Nat) (d : HostRead)
  /-- RING_DESTROY (R197): the command cancels a stopped ring's untaken entries and makes it UNUSED. -/
  | ringDestroy (r : Nat) (d : HostRead) (imgs : List HostRead)
  /-- RING_QUERY (R197): the command returns a ring's state, HEAD and TAIL. -/
  | ringQuery (r : Nat) (d : HostRead)
  /-- EP_INSTALL (R197): the command reads, checks and installs an endpoint context. -/
  | epInstall (r : Nat) (d img : HostRead) (h : CtxHost)
  /-- EP_REMOVE (R197): the command cancels an endpoint's pending TDs, writes the context back and disables it. -/
  | epRemove (r : Nat) (d : HostRead) (h : CtxHost)
  /-- EP_STOP (R197): the command moves a RUNNING or HALTED context to STOPPED. -/
  | epStop (r : Nat) (d : HostRead) (h : CtxHost)
  /-- EP_START (R197): the command returns a STOPPED context to its former state. -/
  | epStart (r : Nat) (d : HostRead) (h : CtxHost)
  /-- EP_RESET (R135): the command sends CLEAR_HALT for the owner and returns the context to RUNNING on success. -/
  | epReset (r : Nat) (d : HostRead) (h : CtxHost)
  /-- EP_FLUSH (R197): the command writes a cached context back to the context table. -/
  | epFlush (r : Nat) (d : HostRead) (h : CtxHost)
  /-- EP_QUERY (R197): the command returns context bytes 32-39. -/
  | epQuery (r : Nat) (d : HostRead) (h : CtxHost)
  /-- SUBTREE_GONE (R197): the command moves every context matching a route prefix to GONE. -/
  | subtreeGone (r : Nat) (d : HostRead) (others : Nat)
  /-- TD_CANCEL (R197): the command cancels TDs of a ring from an index that have started no bus activity. -/
  | tdCancel (r : Nat) (d : HostRead) (imgs : List HostRead)
  /-- ENUMERATE (R197): the command has firmware carry out enumeration steps 2-7 for one device. -/
  | enumerate (r : Nat) (d : HostRead) (h : CtxHost) (eps : List EnumEp)
  /-- XCVR_READ (R197): the command writes a transceiver identity page to host memory. -/
  | xcvrRead (r : Nat) (d : HostRead)
  /-- PORT_RATE (R197): the command runs a rate change of a root port and completes at RATE_CHG or refusal. -/
  | portRate (r : Nat) (d : HostRead)
  /-- APPLY_ADVICE (R197): the command carries out a firmware policy advice, or cancels it when overtaken. -/
  | applyAdvice (r : Nat) (d : HostRead) (t : Nat)
  /-- SCHED_BATCH (R212): the command submits a batch of schedule changes for admission. -/
  | schedBatch (r : Nat) (d list : HostRead)
  /-- BATCH_ADMITTED (R213): A batch's contexts are pinned after their fetches and its staged tables are built. -/
  | batchAdmitted (h : CtxHost)
  /-- SCHED_RESERVE (R209): the command sets a slice's reservation on a tree after re-admission. -/
  | schedReserve (r : Nat) (d : HostRead)
  /-- SCHED_QUERY (R222): the command writes per-phase occupancy or usage to host memory. -/
  | schedQuery (r : Nat) (d : HostRead)
  /-- SCHED_CLEAR (R222): the command removes every entry of the named ports as a batch. -/
  | schedClear (r : Nat) (d : HostRead)
  /-- DELAY_RELEASE (R235): an entry's time key passes and it is released from the delay list. -/
  | delayRelease (t : Nat)
  /-- NOTYET_TIMEOUT (R237): NY_LIMIT frames pass with PINGs answered NAK and the transfer completes NOTYET_TIMEOUT. -/
  | notyetTimeout (eph : Nat)
  /-- SPILL_RETURN (R253): spilled entries return to the ready queue in take order once the slice has room. -/
  | spillReturn (n : Nat) (ok : Bool)
  /-- SPILL_ENABLE (R254): SCH_SPILL_BASE.ENABLE set samples the spill area, and cleared stops spilling. -/
  | spillEnable (en : Bool)
  /-- SCH_DCNT_VAL_WRITE (R232): the manager writes a dependence counter, releasing its waiters when zero. -/
  | schDcntValWrite (v : Nat)
  /-- SCH_ADM_EVT_READ (R468): A full-width read of SCH_ADM_EVT clears it and updates its shadow. -/
  | schAdmEvtRead (both : Bool)
  /-- SAMPLE_BLOCK_FORM (R262): A module forms a sample block, increments BSEQ and drops its oldest kept block when full. -/
  | sampleBlockForm (d ep stamp : Nat) (body : List Byte)
  /-- GATHER_DEADLINE (R273): A set's deadline tick passes and the set is resolved and emitted. -/
  | gatherDeadline (g : Nat)
  /-- STREAM_RECORD_WRITE (R266): A SET, BLOCK or CODED record is written to its STREAM ring once it has room. -/
  | streamRecordWrite (ring : Nat)
  /-- CODER_BLOCK_CODE (R291): CODE_DELAY frames after its last input, a closed coder block is coded. -/
  | coderBlockCode (k : Nat)
  /-- CODER_LATE_RAW (R291): A block not coded within CODE_DELAY + 2 frames is emitted raw with LATE. -/
  | coderLateRaw (k : Nat)
  /-- GATHER_CREATE (R270): the command creates a gather group from its descriptor. -/
  | gatherCreate (r : Nat) (d img : HostRead) (h : CtxHost)
  /-- GATHER_DESTROY (R281): the command emits a group's open sets FORCED and removes the group. -/
  | gatherDestroy (r : Nat) (d : HostRead)
  /-- GATHER_QUERY (R296): the command returns a group's open sets and last set index. -/
  | gatherQuery (r : Nat) (d : HostRead)
  /-- CODER_ATTACH (R283): the command attaches a coder stream to a CYCLIC endpoint. -/
  | coderAttach (r : Nat) (d img : HostRead) (h : CtxHost)
  /-- CODER_DETACH (R296): the command closes a stream's blocks with DETACH and detaches it. -/
  | coderDetach (r : Nat) (d : HostRead)
  /-- CODER_QUERY (R296): the command returns a stream's backlog and last span. -/
  | coderQuery (r : Nat) (d : HostRead)
  /-- GTH_EVT_READ (R468): A full-width read of GTH_EVT clears it and updates its shadow. -/
  | gthEvtRead (both : Bool)
  /-- CDR_EVT_READ (R468): A full-width read of CDR_EVT clears it and updates its shadow. -/
  | cdrEvtRead (both : Bool)
  /-- MOV_GO (R308): MOV_CTLn.GO checks and starts a software channel or restarts a halted descriptor. -/
  | movGo (n v : Nat)
  /-- MOV_STOP (R325): MOV_CTLn.STOP stops a channel at its next descriptor boundary. `same`: in the cycle in which its descriptor failed (Table 9.7). -/
  | movStop (n v : Nat) (same : Bool)
  /-- MOV_SWCH_WRITE (R298): A write of MOV_GCFG.SWCH is refused or starts draining the engine channels. -/
  | movSwchWrite (v : Nat)
  /-- SWCH_APPLY (R298): once engine channels have drained, the new channel split and mapping are applied. -/
  | swchApply
  /-- MOVER_DESC_DONE (R315): A mover descriptor's flushing read returns and it is written back, giving credit and fetching the next. `desc`, `src` and `dst`
  are what the host returned of the descriptor and the data, and of a region in the buffer pool `failed` is an uncorrectable word (R323); `ecc` is the
  offset of one among the data; `fence`: the fence of the slice falls in the same cycle (Table 9.7). -/
  | moverDescDone (n : Nat) (desc src dst : HostRead) (ecc : Option Nat) (fence : Bool)
  /-- REQ_LINE_REQUEST (R317): A request line signals a staged burst, and a REQ-paced channel moves it. -/
  | reqLineRequest (line : Nat) (data : List Byte) (src dst : HostRead)
  /-- HOST_READ_FAIL (R321): A host read or flushing read fails, and the mover waits to retry or completes HOST_ERROR. -/
  | hostReadFail (w : HostWork) (attempt : Nat) (desc src dst : HostRead) (tlp : Option TlpError) (t : Nat)
  /-- MOVER_RETRY (R321): the retry wait expires and the mover repeats the failed read or the descriptor's writes. -/
  | moverRetry (w : HostWork) (t : Nat)
  /-- MOVER_DRY_BOUNDARY (R326): A DRY channel reaches its descriptor boundary and completes SLICE_RESET. -/
  | moverDryBoundary (n : Nat)
  /-- MOV_STS_READ (R468): A full-width read of MOV_STSn clears its RC bits and updates its shadow. -/
  | movStsRead (n : Nat) (both : Bool)
  /-- MOV_GEVT_READ (R468): A full-width read of MOV_GEVT clears it and updates its shadow. -/
  | movGevtRead (both : Bool)
  /-- SLICE_ENABLE (R331): the command checks a slice's sampled binding and bounds and makes it ACTIVE. -/
  | sliceEnable (r : Nat) (d : HostRead)
  /-- SLICE_DISABLE (R352): the command runs a reset of an empty slice and leaves it FREE. -/
  | sliceDisable (r : Nat) (d : HostRead) (others : Nat)
  /-- SLICE_RING_ALLOT (R334): the command allots a ring to a slice at a doorbell index. -/
  | sliceRingAllot (r : Nat) (d : HostRead)
  /-- SLICE_RING_RECLAIM (R334): the command returns an UNUSED ring to the unallotted rings. -/
  | sliceRingReclaim (r : Nat) (d : HostRead)
  /-- SLICE_SHARE (R334): the command sets a slice's bulk weight and group on a tree. -/
  | sliceShare (r : Nat) (d : HostRead)
  /-- SLICE_RESET (R343): the command fences a slice and discards its work, contexts' data and rings. -/
  | sliceReset (r : Nat) (d : HostRead)
  /-- SLICE_RESET_DONE (R343): once DRY channels reach their boundaries the fence lifts and the reset completes. -/
  | sliceResetDone (n : Nat)
  /-- SLICE_FREEZE (R346): the command moves an ACTIVE slice to FREEZING at the next frame boundary. -/
  | sliceFreeze (r : Nat) (d : HostRead)
  /-- SLICE_FROZEN (R346): A FREEZING slice becomes quiet and FROZEN, and its cached contexts are written back. -/
  | sliceFrozen (n : Nat) (h : CtxHost)
  /-- SLICE_THAW (R347): the command returns a FROZEN slice to ACTIVE and releases held work in order. -/
  | sliceThaw (r : Nat) (d : HostRead)
  /-- SLICE_SAVE (R348): the command writes a frozen slice's image, parking it for migration when asked. -/
  | sliceSave (r : Nat) (d : HostRead) (others : List (List Byte))
  /-- SLICE_RESTORE (R349): the command builds a FROZEN slice from an image into a FREE slice. -/
  | sliceRestore (r : Nat) (d img : HostRead) (tds : List (List HostRead × List HostRead)) (cuts : List (Nat × List Nat)) (h : CtxHost)
  /-- SLICE_QUERY (R352): the command reports what a slice holds. -/
  | sliceQuery (r : Nat) (d : HostRead) (others : Nat)
  /-- MBM_POST (R339): the manager posts a message to a slice's downward mailbox. -/
  | mbmPost (n v : Nat)
  /-- MBT_POST (R339): the tenant posts a message to its upward mailbox. -/
  | mbtPost (n v : Nat)
  /-- MBM_POP (R339): the manager removes the oldest message of the upward mailbox. -/
  | mbmPop (n v : Nat)
  /-- MBT_POP (R339): the tenant removes the oldest message of the downward mailbox. -/
  | mbtPop (n v : Nat)
  /-- MBM_EVT_READ (R468): A full-width read of MBM_EVTs clears it and updates its shadow. -/
  | mbmEvtRead (n : Nat) (both : Bool)
  /-- MBT_EVT_READ (R468): A full-width read of MBT_EVT clears it and updates its shadow. -/
  | mbtEvtRead (n : Nat) (both : Bool)
  /-- SLT_EVT_READ (R468): A full-width read of SLT_EVT clears it and updates its shadow. -/
  | sltEvtRead (n : Nat) (both : Bool)
  /-- SOURCE_LINE_CHANGE (R356): an interrupt source's input line changes and its PEND bit is set by its sense. -/
  | sourceLineChange (x : Nat) (level : Bool) (t : Nat)
  /-- ICU_PSET (R356): A write to ICU_PSETk sets PEND of the sources named. -/
  | icuPset (k mask : Nat) (fw : Bool) (t : Nat)
  /-- ICU_PCLR (R356): A write to ICU_PCLRk clears PEND of the sources named. -/
  | icuPclr (k mask : Nat) (fw : Bool) (t : Nat)
  /-- ICU_ESET (R356): A write to ICU_ESETk sets EN of the sources named. -/
  | icuEset (k mask : Nat) (fw : Bool) (t : Nat)
  /-- ICU_ECLR (R356): A write to ICU_ECLRk clears EN of the sources named. -/
  | icuEclr (k mask : Nat) (fw : Bool) (t : Nat)
  /-- SLI_PSET (R356): A tenant write to SLI_PSET sets PEND of its slice sources. -/
  | sliPset (n mask t : Nat)
  /-- SLI_PCLR (R356): A tenant write to SLI_PCLR clears PEND of its slice sources. -/
  | sliPclr (n mask t : Nat)
  /-- SLI_ESET (R356): A tenant write to SLI_ESET sets EN of its slice sources. -/
  | sliEset (n mask t : Nat)
  /-- SLI_ECLR (R356): A tenant write to SLI_ECLR clears EN of its slice sources. -/
  | sliEclr (n mask t : Nat)
  /-- ICU_SRCCFG_WRITE (R375): A write to ICU_SRCCFG configures the selected source or is refused. -/
  | icuSrccfgWrite (fw : Option Nat) (v t : Nat)
  /-- ICU_CLAIM (R361): A core's full-width read of ICU_CLAIMn claims a source or returns the spurious number. -/
  | icuClaim (n t : Nat)
  /-- ICU_DONE (R362): A core's write to ICU_DONEn ends a handler and recomputes its running priority. -/
  | icuDone (n x t : Nat)
  /-- CORE_RETURN (R364): A core runs its handler exit sequence and reloads its saved registers. -/
  | coreReturn (n t : Nat)
  /-- CORE_WAIT (R421): A core executes WAIT and stops fetching until an offer. -/
  | coreWait (n mode t : Nat)
  /-- VECTOR_MODERATION_TIMEOUT (R370): TIME_US passes since a vector's first unannounced request and its message falls due. -/
  | vectorModerationTimeout (e t : Nat)
  /-- SLI_IDLE_WRITE (R371): the tenant sets the idle hint of a slice vector. -/
  | sliIdleWrite (n mask t : Nat)
  /-- ICU_VSTS_WRITE (R371): the manager sets the idle hint of a vector through ICU_VSTS. -/
  | icuVstsWrite (v t : Nat)
  /-- MSIX_UNMASK (R372): A vector's mask is cleared and its held message is sent. -/
  | msixUnmask (e : Option Nat) (en fm : Bool) (t : Nat)
  /-- TWIN_ENABLE (R376): TWN_CFG.ENABLE is set, sampling the twin registers and starting the twin link. -/
  | twinEnable (v : Nat)
  /-- TWIN_LINK_UP (R377): lane lock is gained and a BEAT is received, bringing the twin link up. -/
  | twinLinkUp
  /-- BEAT_RECEIVE (R380): A BEAT is received, link delay and offset are computed and the pair state decided. -/
  | beatReceive (m : List Byte) (t : Nat)
  /-- BEAT_MISSED (R378): A BEAT is not received by the tick plus 5 us and is counted missed. -/
  | beatMissed (t : Nat)
  /-- SHADOW_RECEIVE (R387): the standby applies SHADOW records and marks the tree WARM on END. -/
  | shadowReceive (m : List Byte) (h : CtxHost)
  /-- MIRROR_RECEIVE (R390): the standby applies a MIRROR record and answers MCONF. -/
  | mirrorReceive (m : List Byte)
  /-- MCONF_RECEIVE (R389): the owner receives MCONF and may start the covered COMMAND or ACK the covered event. -/
  | mconfReceive (m : List Byte) (t : Nat)
  /-- MCONF_LATE (R388): an MCONF is 100 us late and the owner takes the twin link down. -/
  | mconfLate (t : Nat)
  /-- HANDOVER_SEND (R392): an owned tree's root port has been out of ENABLED for two ticks and HANDOVER is sent. -/
  | handoverSend (n : Nat)
  /-- HANDOVER_RECEIVE (R391): HANDOVER is received and the tree is claimed at once or at S. -/
  | handoverReceive (m : List Byte) (t : Nat)
  /-- TOKEN_QUERY (R383): A dual-upstream hub answers TOKEN_QUERY with TOKEN_STATE. -/
  | tokenQuery (d up : Nat)
  /-- TOKEN_CLAIM (R384): A dual-upstream hub grants or denies a token claim. -/
  | tokenClaim (d up epoch : Nat) (forced : Bool) (frameNo : Nat)
  /-- TOKEN_RELEASE (R384): A dual-upstream hub records the holder's release for switch frame S. -/
  | tokenRelease (d up epoch frameNo : Nat)
  /-- TOKEN_MSG_REPEAT (R383): TOKEN_QUERY, TOKEN_CLAIM or TOKEN_RELEASE is repeated until answered or its limit. -/
  | tokenMsgRepeat (n : Nat) (release : Bool) (t : Nat)
  /-- TOKEN_STATE_RECEIVE (R385): the controller learns from TOKEN_STATE whether it holds the token and starts or stops. -/
  | tokenStateReceive (n arg t : Nat)
  /-- TOKEN_GRANT_RECEIVE (R393): on TOKEN_GRANT the tree becomes OWNER from the first frame of ownership. -/
  | tokenGrantReceive (n arg frameNo t : Nat)
  /-- TOKEN_DENY_RECEIVE (R393): on TOKEN_DENY the tree stays as it was and DENIED is reported. -/
  | tokenDenyReceive (n arg : Nat)
  /-- TOKEN_LOST_RECEIVE (R385): on TOKEN_LOST the controller stops composing, completes pending TDs and makes its contexts shadows. -/
  | tokenLostReceive (n arg : Nat)
  /-- TWIN_CLAIM (R398): the command claims the tokens of the named shared trees without force. -/
  | twinClaim (r : Nat) (d : HostRead) (t : Nat)
  /-- TWIN_FORCE (R398): the command claims the tokens of the named shared trees with FORCED. -/
  | twinForce (r : Nat) (d : HostRead) (t : Nat)
  /-- TWIN_RELEASE (R398): the command hands the named trees to the partner at frame S. -/
  | twinRelease (r : Nat) (d : HostRead) (t : Nat)
  /-- TWIN_QUERY (R398): the command returns a shared tree's token holder and epoch. -/
  | twinQuery (r : Nat) (d : HostRead)
  /-- TWN_EVT_READ (R468): A full-width read of TWN_EVT clears it and updates its shadow. -/
  | twnEvtRead (both : Bool)
  /-- PWR_REQUEST (R418): A write that makes the PWR_REQ pair match takes a power-state request. -/
  | pwrRequest (v vn : Option Nat) (t : Nat)
  /-- CONSENT_DONE (R422): every participant has consented or refused within 10 us. -/
  | consentDone (pcieOk : Bool) (t : Nat)
  /-- DEALER_STOPPED (R423): the dealer has stopped and abort point 3 is passed. -/
  | dealerStopped (h : CtxHost) (t : Nat)
  /-- PORTS_STOPPED (R423): the port engines have stopped and abort point 4 is passed. -/
  | portsStopped (t : Nat)
  /-- MOVER_TWIN_STOPPED (R423): the mover and then the twin link have stopped and abort point 5 is passed. -/
  | moverTwinStopped (t : Nat)
  /-- PCIE_STOPPED (R423): the PCIe endpoint has reached L1.2 or L2/L3 Ready and abort point 6 is passed. -/
  | pcieStopped (t : Nat)
  /-- WAKE_N_INPUT (R429): WAKE_N is held low long enough and wakes the controller. -/
  | wakeNInput (t : Nat)
  /-- WAKE_SENSE_TRIP (R430): the WAKE_SENSE comparator trips, waking the controller or setting PWR_EVT.SENSE. -/
  | wakeSenseTrip (v lasted t : Nat)
  /-- PCIE_WAKE (R429): the link exits L1, or PERST_N is released in DEEP, waking the controller. -/
  | pcieWake (t : Nat)
  /-- TWIN_SIGNAL_WAKE (R429): signal is detected on TW_RXP/N[0] and wakes the controller. -/
  | twinSignalWake (t : Nat)
  /-- RESTORE_STEP (R432): A restore delay elapses and the next block of the exit restarts. -/
  | restoreStep (bad : Nat) (digestOk good : Bool) (st : List StartIn) (t : Nat)
  /-- PWR_SENSE_WRITE (R430): A write to PWR_SENSE configures and re-arms the comparator. -/
  | pwrSenseWrite (v : Nat)
  /-- PWR_EVT_READ (R468): A full-width read of PWR_EVT clears it and updates its shadow. -/
  | pwrEvtRead (both : Bool)
  /-- POR_RELEASE (R438): POR is released and a cold start runs. -/
  | porRelease (st : List StartIn)
  /-- START_READY (R439): firmware declares the start complete, setting READY and clearing FAILS. -/
  | startReady (t : Nat)
  /-- START_WATCHDOG (R439): the 2 s start watchdog expires without READY. -/
  | startWatchdog (st : List StartIn)
  /-- FLR (R441): A function-level reset suspends ports, writes ember memory and runs a warm start. -/
  | flr (silent bad : Nat) (digestOk : Bool) (st : List StartIn) (t : Nat)
  /-- MONITOR_SAMPLE (R444): every second the health monitor measures aging, life, margins and ports. -/
  | monitorSample (osc rails : List Nat) (eyes : List EyeIn) (t : Nat)
  /-- THERMAL_SAMPLE (R444): every 1 ms the thermal sensors are read against the WATCH and trip thresholds. -/
  | thermalSample (temps : List Int) (t : Nat)
  /-- TRIP_COMPARATOR_SAMPLE (R448): every second during a held trip the always-on comparator is sampled to allow wakes. -/
  | tripComparatorSample (below : Bool)
  /-- SRAM_CORRECTED (R444): A corrected SRAM error is counted and may trigger RETIRE or row repair. -/
  | sramCorrected (p : SramPlace) (t : Nat)
  /-- SRAM_UNCORRECTABLE (R408): an uncorrectable SRAM error completes the affected data INTEGRITY and is reported. -/
  | sramUncorrectable (b : Nat) (x : EccHit) (t : Nat)
  /-- SUPPLY_EXCURSION (R444): A rail outside 5% for 10 us or more is counted. -/
  | supplyExcursion (rail mv : Nat)
  /-- RETIRE_COPY_DONE (R446): the copy of a failing bank to a spare ends and the remap awaits the frame boundary. -/
  | retireCopyDone (uncorr : Bool)
  /-- HEALTH_RECORD_WRITE (R445): every hour the flash health record is written. -/
  | healthRecordWrite
  /-- POLICY_POWER_IDLE (R31): 16,384 frames pass with no periodic entry or ring work and the POWER policy requests SLEEP. -/
  | policyPowerIdle
  /-- HLT_RECORD (R451): the command writes the health record to host memory. -/
  | hltRecord (r : Nat) (d : HostRead)
  /-- HLT_POOL_SHRINK (R446): the command runs a pool reduction for the named bank. -/
  | hltPoolShrink (r : Nat) (d : HostRead)
  /-- PORT_EYE (R461): the command runs an eye scan or loopback capture on a port. -/
  | portEye (r : Nat) (d : HostRead) (points : Nat)
  /-- FW_STAGE (R453): the command copies and verifies an image into the idle slot. -/
  | fwStage (r : Nat) (d : HostRead)
  /-- FW_ACTIVATE (R453): the command makes the staged slot TRIAL, optionally restarting. -/
  | fwActivate (r : Nat) (d : HostRead)
  /-- FW_COMMIT (R453): the command commits the running TRIAL slot, optionally raising FLOOR. -/
  | fwCommit (r : Nat) (d : HostRead)
  /-- FW_QUERY (R461): the command returns firmware slot and version state. -/
  | fwQuery (r : Nat) (d : HostRead)
  /-- ZEROIZE (R458): the command clears every array and register and makes a cold start. -/
  | zeroize (r : Nat) (d : HostRead) (st : List StartIn)
  /-- DEBUG_RESPONSE (R454): A debugger's signed response to a challenge is granted or refused. -/
  | debugResponse (level : Nat) (key sig : Bool)
  /-- SEC_DBG_ALLOW_WRITE (R454): A write of SEC_DBG_ALLOW sets the debug level and ends a higher grant. -/
  | secDbgAllowWrite (v : Nat)
  /-- HLT_EVT_READ (R468): A full-width read of HLT_EVT clears it and updates its shadow. -/
  | hltEvtRead (both : Bool)
  /-- SEC_EVT_READ (R468): A full-width read of SEC_EVT clears it and updates its shadow. -/
  | secEvtRead (both : Bool)
  /-- REGISTER_WRITE (R465): A write to a register without a row of its own is applied or dropped by width. -/
  | registerWrite (bar ofs : Nat) (dws : List (Nat × Nat)) (t : Nat)
  /-- ALIAS_WRITE (R470): A write to a bit-alias word changes one bit of the aliased register. -/
  | aliasWrite (bar ofs be data t : Nat)
  /-- IND_DATA_READ (R474): A read of IND_DATA reads the indirect word and may advance WORD. -/
  | indDataRead (narrow wide : Bool)
  /-- IND_DATA_WRITE (R474): A write of IND_DATA starts a write of the indirect word. -/
  | indDataWrite (be data : Nat)
  /-- IND_ACCESS_DONE (R474): an indirect access completes within 1.2 us and BUSY clears. -/
  | indAccessDone
  /-- GCTL_ACCESS_ERR_READ (R468): A full-width read of GCTL_ACCESS_ERR clears it and updates its shadow. -/
  | gctlAccessErrRead (wide : Bool)
  /-- PERST_N_ASSERT (R480): PERST_N low resets every block except the power controller, unless in DEEP or OFF. -/
  | perstNAssert
  /-- PERST_N_RELEASE (R480): PERST_N release after such a reset starts a cold start. -/
  | perstNRelease (st : List StartIn) (t : Nat)
  /-- PWR_GOOD_LOW (R484): PWR_GOOD low for 10 us releases the rails and forces a cold start, or invalidates the image in DEEP. -/
  | pwrGoodLow (st : List StartIn)
  /-- VAON_LOSS (R491): VAON leaves its range, causing POR and loss of ember memory. -/
  | vaonLoss
  /-- PCIE_TLP_ERROR (R416): A TLP received in error is dropped or answered Unsupported Request and logged in AER. -/
  | pcieTlpError (e : TlpError) (answered : Bool)
  /-- IRIG_ON_TIME_MARK (R40): the on-time mark of an IRIG_IN frame arrives and serves as the phase mark of the IRIG row, measuring the offset and counting toward lock. -/
  | irigOnTimeMark (t : Nat)
  /-- TWIN_LINK_DOWN (R380): the twin link loses lane lock or exhausts its replays and goes down, so the pair becomes DOWN and every standby tree goes COLD. -/
  | twinLinkDown
  /-- TWIN_ACK_RECEIVE (R377): A twin-link ACK message arrives and frees the acknowledged messages from the 64 KiB replay buffer. -/
  | twinAckReceive (m : List Byte)
  /-- TWIN_RETRY_RECEIVE (R377): A twin-link RETRY message arrives and the sender replays its unacknowledged messages from the LSEQ named. -/
  | twinRetryReceive (m : List Byte)
  /-- LOCAL_TICK (R384): A hub or module's own clock reaches a local tick instant, at which a hub changes token holder for a granted FRAME_NO and a link end switches rate at frame S. -/
  | localTick (d n t : Nat)
  /-- HOLDER_FRAME_MISSED (R382): 5 us pass after a dual-upstream hub's local tick with no FRAME accepted on the holder's port, and the hub counts a missed FRAME for token grants. -/
  | holderFrameMissed (d : Nat)
  /-- PCIE_STOP_TIMEOUT (R422): L1.2 is not reached within 1 ms for SLEEP, or L2/L3 Ready within 100 ms for DEEP or OFF, and the PCIe endpoint makes a late refusal. -/
  | pcieStopTimeout (t : Nat)
  /-- MOVER_STOP_TIMEOUT (R422): A mover descriptor that started after consent is not complete within 100 us, and the mover makes a late refusal of the entry. -/
  | moverStopTimeout (t : Nat)
  /-- FW_STAGE_DONE (R453): the staging copy and verification of a firmware image ends up to 10 s after FW_STAGE, marking the slot valid or empty and completing the command. -/
  | fwStageDone (length : Nat) (img : Option FwSlot)
  /-- IDENTITY_BUS_READ_DONE (R112): A two-wire read of a transceiver page on an identity bus ends, or fails after three attempts, so the transceiver is identified and rated or the page is delivered. -/
  | identityBusReadDone (n page : Nat) (data : HostRead)
  deriving DecidableEq, Repr

end Sys2Proof
end

