-- ==== Sys2Proof/Machine/Tables.lean ====
section
/-! DEFINITION. Machine/Tables.lean: the plain operations on sparse tables, bit fields, bytes and the serial (wrapping)
arithmetic that the chapters use. -/

namespace Sys2Proof

/-- The value that a table lists for `k`. -/
def Tbl.find {α : Type} : Tbl α → Nat → Option α
  | [], _ => none
  | (k', v) :: r, k => if k' = k then some v else Tbl.find r k

/-- The value of `k`, with `d` for an unlisted number. -/
def Tbl.get {α : Type} (d : α) (t : Tbl α) (k : Nat) : α := (Tbl.find t k).getD d

/-- The table with `v` at `k`. -/
def Tbl.put {α : Type} : Tbl α → Nat → α → Tbl α
  | [], k, v => [(k, v)]
  | (k', v') :: r, k, v =>
    if k' = k then (k, v) :: r
    else if k < k' then (k, v) :: (k', v') :: r
    else (k', v') :: Tbl.put r k v

/-- The table without `k`. -/
def Tbl.del {α : Type} : Tbl α → Nat → Tbl α
  | [], _ => []
  | (k', v') :: r, k => if k' = k then Tbl.del r k else (k', v') :: Tbl.del r k

/-- The table with `f` applied to the value at `k` (`d` where unlisted). -/
def Tbl.upd {α : Type} (d : α) (t : Tbl α) (k : Nat) (f : α → α) : Tbl α := Tbl.put t k (f (Tbl.get d t k))

/-- The table with `f` applied to every listed value. -/
def Tbl.mapv {α : Type} (t : Tbl α) (f : Nat → α → α) : Tbl α := t.map fun e => (e.1, f e.1 e.2)

/-- The field `hi:lo` of a word (R8: both ends included). -/
def field (w : DWord) (hi lo : Nat) : Nat := (w >>> lo).toNat % 2 ^ (hi + 1 - lo)

/-- The mask of the field `hi:lo`. -/
def fieldMask (hi lo : Nat) : DWord := BitVec.ofNat 64 ((2 ^ (hi + 1 - lo) - 1) * 2 ^ lo)

/-- The word with the field `hi:lo` set to `v`, cut to the field's width. -/
def setField (w : DWord) (hi lo v : Nat) : DWord :=
  (w &&& ~~~ fieldMask hi lo) ||| BitVec.ofNat 64 ((v % 2 ^ (hi + 1 - lo)) * 2 ^ lo)

/-- The field `hi:lo` of a number. -/
def nfield (w hi lo : Nat) : Nat := (w / 2 ^ lo) % 2 ^ (hi + 1 - lo)

/-- A number from bytes, least significant first (R9, R70). -/
def leNat : List Byte → Nat
  | [] => 0
  | b :: r => b.toNat + 256 * leNat r

/-- The `n` bytes of a number, least significant first. -/
def leBytes : Nat → Nat → List Byte
  | 0, _ => []
  | n + 1, v => BitVec.ofNat 8 v :: leBytes n (v / 256)

/-- The bytes from `o`, `n` of them. -/
def slice (o n : Nat) (bs : List Byte) : List Byte := (bs.drop o).take n

/-- `a + b` at most `m`: a counter that saturates. -/
def satAdd (m a b : Nat) : Nat := min m (a + b)

/-- Frame numbers compare by serial arithmetic (R49): `a` is later than `b`. -/
def later32 (a b : Nat) : Bool :=
  let d := (a + 2 ^ 32 - b % 2 ^ 32) % 2 ^ 32
  decide (1 ≤ d ∧ d ≤ 2 ^ 31 - 1)

/-- `x` rounded up to a multiple of 8 (R176). -/
def roundup8 (x : Nat) : Nat := (x + 7) / 8 * 8

/-- One byte into the reflected CRC-32C of R82. -/
def crcStep (c : Word) : Nat → Word
  | 0 => c
  | n + 1 => crcStep (if c.getLsbD 0 then (c >>> 1) ^^^ 0x82F63B78#32 else c >>> 1) n

/-- The register of the CRC-32C after the bytes, from a start value. -/
def crcRun : Word → List Byte → Word
  | c, [] => c
  | c, b :: r => crcRun (crcStep (c ^^^ b.zeroExtend 32) 8) r

/-- CRC-32C (R82): reflected, initial value and final XOR all ones. -/
def crc32c (bs : List Byte) : Word := ~~~ (crcRun 0xFFFFFFFF#32 bs)

/-- A number of `n` bits read as a signed one. -/
def signedOf (n v : Nat) : Int := if v % 2 ^ n < 2 ^ (n - 1) then ((v % 2 ^ n : Nat) : Int) else ((v % 2 ^ n : Nat) : Int) - (2 ^ n : Nat)

/-- An integer as `n` bits, two's complement. -/
def toBits (n : Nat) (i : Int) : Nat := (i % ((2 ^ n : Nat) : Int)).toNat

/-- An integer saturated to `n` bits, two's complement. -/
def satBits (n : Nat) (i : Int) : Nat :=
  toBits n (max (-((2 ^ (n - 1) : Nat) : Int)) (min (((2 ^ (n - 1) : Nat) : Int) - 1) i))

/-- `1` for true: a flag as a bit. -/
def bit (b : Bool) : Nat := if b then 1 else 0

/-- The first `n` numbers. -/
def upto (n : Nat) : List Nat := List.range n

end Sys2Proof
end

