-- ==== Sys2Proof/Machine/Memory.lean ====
section
/-! DEFINITION. Machine/Memory.lean: an addressed RAM of the block (the buffer pool and ember memory, R17) as a list of
address and byte pairs in one canonical form: addresses strictly rising, and no byte equal to what an unlisted address reads
as, which is 0 (log entry 3). -/

namespace Sys2Proof.Machine

/-- A RAM: its cells that do not read 0. -/
abbrev Memory := List Host.Cell

/-- The byte at an address. -/
def Memory.read : Memory → Nat → Byte
  | [], _ => 0
  | (a', b) :: r, a => if a' = a then b else Memory.read r a

/-- The RAM without the cell of an address. -/
def Memory.erase : Memory → Nat → Memory
  | [], _ => []
  | (a', b) :: r, a => if a' = a then r else (a', b) :: Memory.erase r a

/-- The RAM with a nonzero byte at an address. -/
def Memory.insert : Memory → Nat → Byte → Memory
  | [], a, b => [(a, b)]
  | (a', b') :: r, a, b =>
    if a' = a then (a, b) :: r
    else if a < a' then (a, b) :: (a', b') :: r
    else (a', b') :: Memory.insert r a b

/-- The RAM with the byte at an address written. -/
def Memory.write (m : Memory) (a : Nat) (b : Byte) : Memory :=
  if b = 0 then Memory.erase m a else Memory.insert m a b

/-- Bytes written from an address on, in an area of `n` bytes at `base` that wraps (a pocket, R158). -/
def Memory.writeRing (m : Memory) (base n : Nat) : Nat → List Byte → Memory
  | _, [] => m
  | o, b :: r => Memory.writeRing (Memory.write m (base + o % n) b) base n (o + 1) r

/-- Bytes written at rising addresses. -/
def Memory.writeAll (m : Memory) : Nat → List Byte → Memory
  | _, [] => m
  | a, b :: r => Memory.writeAll (Memory.write m a b) (a + 1) r

/-- `k` bytes read from an area that wraps. -/
def Memory.readRing (m : Memory) (base n o : Nat) : Nat → List Byte
  | 0 => []
  | k + 1 => Memory.read m (base + o % n) :: Memory.readRing m base n (o + 1) k

/-- `k` bytes read at rising addresses. -/
def Memory.readAll (m : Memory) (a : Nat) : Nat → List Byte
  | 0 => []
  | k + 1 => Memory.read m a :: Memory.readAll m (a + 1) k

/-- The addresses rise strictly from a bound on, and no byte is 0. -/
def Memory.wfFrom : Nat → Memory → Bool
  | _, [] => true
  | lo, (a, b) :: r => decide (lo ≤ a) && decide (b ≠ 0) && Memory.wfFrom (a + 1) r

/-- The canonical form. -/
def Memory.wf (m : Memory) : Bool := Memory.wfFrom 0 m

end Sys2Proof.Machine
end

