-- ==== Sys2Proof/Config.lean ====
section
/-! DEFINITION. Config.lean: the free values, which the spec leaves open. Each is an opaque constant applied to a number the
step draws from the state (`State.free`), so that nothing can be proved of its value. What a part fixes and the spec does not give is an
opaque constant as well. -/

namespace Sys2Proof.Config

/-- A value the spec leaves open, by the number drawn. -/
opaque freeNat : Nat → Nat

/-- By how many parts per million the time base's frequency source is off at an instant (R45 bounds what slew and this error add up to). -/
opaque sourcePpm : Nat → Nat

/-- Spare rows of an SRAM array other than the buffer pool (R444 speaks of them and does not give their number). -/
opaque spareRows : Nat → Nat

end Sys2Proof.Config
end

