-- ==== Sys2Proof/Machine/Reg.lean ====
section
/-! DEFINITION. Machine/Reg.lean: the names of the registers of Table 16.12 (R476), and for each its BAR, offset, instances,
width, reset value and the access codes of its fields (R10), as the register tables of the chapters give them. -/

namespace Sys2Proof.Machine

/-- A register of the controller by its name in Table 16.12 (R476), without the instance letter. The rings' doorbells
of BAR2 are `RING_DB`, the MSI-X table and PBA (Table 16.1) are `MSIX_…`, and `PWR_MODE` is the supervisor's own. -/
inductive Reg where
  | GCTL_ID | GCTL_CAPS | GCTL_ACCESS_ERR | GCTL_ACCESS_ADDR | GCTL_ACCESS_ERR_SHADOW | GCTL_POLICY 
  | GCTL_POLICY_N | GCTL_POLICY_STS | TIM_CTL | TIM_FRATE | TIM_FRATE_N | TIM_STS | TIM_EVT | TIM_EVT_SHADOW 
  | TIM_NOW | TIM_FRAME_NO | TIM_FRAME_START | TIM_UTC | TIM_IRIG_OFS | TIM_LABEL | TIM_DISC | TIM_STEP_THR 
  | TIM_OFFSET | TIM_ERR_EST | TIM_HOLD | TIM_FRATE_ACT | TIM_PTM_HOST | TIM_PTM_LOCAL | SCH_CAP | SCH_CAP_N 
  | SCH_CAP_NS | SCH_ADM_STS | SCH_ADM_EVT | SCH_ADM_EVT_SHADOW | SCH_LAST_SWITCH | SCH_BACKOFF | SCH_PINGGAP 
  | SCH_QUOTA | SCH_SPILL_BASE | SCH_SPILL_SIZE | SCH_SPILL_STS | SCH_QSTS | SCH_DSTS | SCH_DYN_CNT 
  | SCH_NAK_CNT | SCH_DCNT_SEL | SCH_DCNT_VAL | SCH_TRACE_CTL | SCH_TRACE_PORTS | SCH_TRACE_EPH 
  | SCH_TRACE_MASK | SCH_AMAX | SCH_AMAX_N | SCH_OCC | SCH_RESSUM | SCH_GW | SCH_MRING_GEO | SCH_MRING_GEO_N 
  | SCH_MRING_DB | SCH_MRING_STS | SCH_MRING_CTL | SCH_CTXDIR | SCH_CTXDIR_N | SCH_CTXSTS | SCH_CTXCACHED 
  | SCH_CTXCNT | SCH_XERR | PRT_CFG | PRT_CFG_N | PRT_CTL | PRT_STS | PRT_CHG | PRT_CHG_SHADOW | PRT_LERR 
  | PRT_RETRY | PRT_FEC | MOV_SRC | MOV_DST | MOV_CNT | MOV_CTL | MOV_STS | MOV_STS_SHADOW | MOV_DPTR 
  | MOV_CRC | MOV_MISOFS | MOV_BIND | MOV_BIND_N | MOV_GCFG | MOV_GERR | MOV_GEVT | MOV_GEVT_SHADOW 
  | MOV_REQSEL | MOV_REQDROP | ICU_PSET | ICU_PCLR | ICU_ESET | ICU_ECLR | ICU_ACT | ICU_SRCSEL | ICU_SRCCFG 
  | ICU_PRIGROUP | ICU_CORESTS | ICU_CMOD | ICU_MRVEC | ICU_ERR | ICU_VSEL | ICU_VMOD | ICU_VSTS | SLC_PASID 
  | SLC_PASID_N | SLC_WIN | SLC_WIN_N | SLC_HBASE | SLC_HBASE_N | SLC_HLIM | SLC_HLIM_N | SLC_CNTR 
  | SLC_CNTR_N | SLC_STS | SLC_ERR | PWR_REQ | PWR_REQ_N | PWR_STS | PWR_EVT | PWR_EVT_SHADOW | PWR_WAKE_EN 
  | PWR_SENSE | PWR_WAKE | PWR_LAT | PWR_RSEL | PWR_RCNT | HLT_STS | HLT_EVT | HLT_EVT_SHADOW | HLT_START 
  | HLT_POOL | HLT_RETIRED | HLT_PORTRET | HLT_SEL | HLT_OBJ | SEC_STS | SEC_EVT | SEC_EVT_SHADOW 
  | SEC_DBG_ALLOW | SEC_DBG_ALLOW_N | SEC_AUDIT | TWN_CFG | TWN_CFG_N | TWN_GEN | TWN_GEN_N | TWN_STS 
  | TWN_EVT | TWN_EVT_SHADOW | TWN_OFFSET | TWN_DLY | TWN_CNT | TWN_OWNED | TWN_WARM | TWN_PMAP | TWN_PMAP_N 
  | GTH_STS | GTH_EVT | GTH_EVT_SHADOW | GTH_MEMB | GTH_CNT | GTH_DROP | CDR_STS | CDR_BACKLOG | CDR_EVT 
  | CDR_EVT_SHADOW | CDR_CNT | CDR_FLG | IND_ADDR | IND_DATA | MSIX_ADDR | MSIX_DATA | MSIX_CTL | MSIX_PBA 
  | MBM_DATA | MBM_RECV | MBM_POST | MBM_POP | MBM_STS | MBM_EVT | MBM_EVT_SHADOW | RING_DB | MBT_DATA 
  | MBT_RECV | MBT_POST | MBT_POP | MBT_STS | MBT_EVT | MBT_EVT_SHADOW | MBT_CTL | SLI_PSET | SLI_PCLR 
  | SLI_ESET | SLI_ECLR | SLI_ROUTE | SLI_IDLE | SLI_MOD | SLI_VSTS | SLT_EVT | SLT_EVT_SHADOW | SLT_STS 
  | SLT_ID | SLT_HBASE | SLT_HLIM | SLT_WIN | SLT_CNTR | SLT_RING | TIM_PDLY | TIM_TRIM | ICU_CLAIM 
  | ICU_DONE | PWR_MODE 
  deriving DecidableEq, Repr

/-- What the register tables give of a register. `bar` is 0 for BAR0, 1 for a slice page of BAR2, 2 for a word of the
indirect pair's CLK_TIME domain (Table 16.6) and 3 for a space private to the cores. Instance `i` lies at
`base + stride * (i / sub) + stride2 * (i % sub)`. `reset` is the reset value. The masks are the bits that software
stores (RW, RWP), that act when written 1 (WO, SET, CLR) and that a full-width read clears (RC); all others are RO.
`used` are the bits of its fields: every other one is reserved (R11). -/
structure RegInfo where
  bar : Nat
  base : Nat
  stride : Nat
  sub : Nat
  stride2 : Nat
  count : Nat
  width : Nat
  reset : Nat
  rw : Nat
  act : Nat
  rc : Nat
  used : Nat
  deriving DecidableEq, Repr

/-- The register tables, one row for each register. `GCTL_CAPS`, `GCTL_POLICY` and `GCTL_POLICY_N` are the LN-6400 values here; R28 and R475
give the other variants' (`State.reset`). -/
def Reg.info : Reg → RegInfo
  | .GCTL_ID => ⟨0, 0x0, 0x0, 1, 0, 1, 32, 0x64000100, 0x0, 0x0, 0x0, 0xffffff00⟩
  | .GCTL_CAPS => ⟨0, 0x8, 0x0, 1, 0, 1, 64, 0x800040001004003, 0x0, 0x0, 0x0, 0xffffffffffffff03⟩
  | .GCTL_ACCESS_ERR => ⟨0, 0x10, 0x0, 1, 0, 1, 32, 0x0, 0x0, 0x0, 0xfcffffff, 0xfcffffff⟩
  | .GCTL_ACCESS_ADDR => ⟨0, 0x14, 0x0, 1, 0, 1, 32, 0x0, 0x0, 0x0, 0x0, 0xffffffff⟩
  | .GCTL_ACCESS_ERR_SHADOW => ⟨0, 0x18, 0x0, 1, 0, 1, 32, 0x0, 0x0, 0x0, 0x0, 0xfcffffff⟩
  | .GCTL_POLICY => ⟨0, 0x100, 0x0, 1, 0, 1, 32, 0x1aa, 0x3ff, 0x0, 0x0, 0x3ff⟩
  | .GCTL_POLICY_N => ⟨0, 0x104, 0x0, 1, 0, 1, 32, 0xfffffe55, 0xffffffff, 0x0, 0x0, 0xffffffff⟩
  | .GCTL_POLICY_STS => ⟨0, 0x108, 0x0, 1, 0, 1, 32, 0x0, 0x0, 0x0, 0x0, 0xffff001f⟩
  | .TIM_CTL => ⟨0, 0x1000, 0x0, 1, 0, 1, 32, 0x0, 0x73d, 0x800, 0x0, 0xf3d⟩
  | .TIM_FRATE => ⟨0, 0x1004, 0x0, 1, 0, 1, 32, 0x3840, 0x1ffff, 0x0, 0x0, 0x1ffff⟩
  | .TIM_FRATE_N => ⟨0, 0x1008, 0x0, 1, 0, 1, 32, 0xffffc7bf, 0xffffffff, 0x0, 0x0, 0xffffffff⟩
  | .TIM_STS => ⟨0, 0x100c, 0x0, 1, 0, 1, 32, 0x7, 0x0, 0x0, 0x0, 0x3ef0f7⟩
  | .TIM_EVT => ⟨0, 0x1010, 0x0, 1, 0, 1, 32, 0x0, 0x0, 0x0, 0x3ff, 0x3ff⟩
  | .TIM_EVT_SHADOW => ⟨0, 0x1014, 0x0, 1, 0, 1, 32, 0x0, 0x0, 0x0, 0x0, 0x3ff⟩
  | .TIM_NOW => ⟨0, 0x1018, 0x0, 1, 0, 1, 64, 0x0, 0x0, 0x0, 0x0, 0xffffffffffffffff⟩
  | .TIM_FRAME_NO => ⟨0, 0x1020, 0x0, 1, 0, 1, 32, 0x0, 0x0, 0x0, 0x0, 0xffffffff⟩
  | .TIM_FRAME_START => ⟨0, 0x1028, 0x0, 1, 0, 1, 64, 0x0, 0x0, 0x0, 0x0, 0xffffffffffffffff⟩
  | .TIM_UTC => ⟨0, 0x1030, 0x0, 1, 0, 1, 32, 0x0, 0xffff, 0x0, 0x0, 0xffff⟩
  | .TIM_IRIG_OFS => ⟨0, 0x1034, 0x0, 1, 0, 1, 32, 0x0, 0xffffffff, 0x0, 0x0, 0xffffffff⟩
  | .TIM_LABEL => ⟨0, 0x1038, 0x0, 1, 0, 1, 64, 0x0, 0xffffffffffffffff, 0x0, 0x0, 0xffffffffffffffff⟩
  | .TIM_DISC => ⟨0, 0x1040, 0x0, 1, 0, 1, 32, 0x32, 0xff, 0x0, 0x0, 0xff⟩
  | .TIM_STEP_THR => ⟨0, 0x1044, 0x0, 1, 0, 1, 32, 0x186a0, 0xffffffff, 0x0, 0x0, 0xffffffff⟩
  | .TIM_OFFSET => ⟨0, 0x1048, 0x0, 1, 0, 1, 32, 0x0, 0x0, 0x0, 0x0, 0xffffffff⟩
  | .TIM_ERR_EST => ⟨0, 0x104c, 0x0, 1, 0, 1, 32, 0xffffffff, 0x0, 0x0, 0x0, 0xffffffff⟩
  | .TIM_HOLD => ⟨0, 0x1050, 0x0, 1, 0, 1, 32, 0x3200fa, 0xffffffff, 0x0, 0x0, 0xffffffff⟩
  | .TIM_FRATE_ACT => ⟨0, 0x1054, 0x0, 1, 0, 1, 32, 0x3840, 0x0, 0x0, 0x0, 0x1ffff⟩
  | .TIM_PTM_HOST => ⟨0, 0x1058, 0x0, 1, 0, 1, 64, 0x0, 0x0, 0x0, 0x0, 0xffffffffffffffff⟩
  | .TIM_PTM_LOCAL => ⟨0, 0x1060, 0x0, 1, 0, 1, 64, 0x0, 0x0, 0x0, 0x0, 0xffffffffffffffff⟩
  | .SCH_CAP => ⟨0, 0x2000, 0x0, 1, 0, 1, 32, 0x55, 0x7f, 0x0, 0x0, 0x7f⟩
  | .SCH_CAP_N => ⟨0, 0x2004, 0x0, 1, 0, 1, 32, 0xffffffaa, 0xffffffff, 0x0, 0x0, 0xffffffff⟩
  | .SCH_CAP_NS => ⟨0, 0x2008, 0x0, 1, 0, 1, 32, 0xdfef, 0x0, 0x0, 0x0, 0xfffff⟩
  | .SCH_ADM_STS => ⟨0, 0x200c, 0x0, 1, 0, 1, 32, 0x0, 0x0, 0x0, 0x0, 0xffffffff⟩
  | .SCH_ADM_EVT => ⟨0, 0x2010, 0x0, 1, 0, 1, 32, 0x0, 0x0, 0x0, 0x3f, 0x3f⟩
  | .SCH_ADM_EVT_SHADOW => ⟨0, 0x2014, 0x0, 1, 0, 1, 32, 0x0, 0x0, 0x0, 0x0, 0x3f⟩
  | .SCH_LAST_SWITCH => ⟨0, 0x2018, 0x0, 1, 0, 1, 32, 0x0, 0x0, 0x0, 0x0, 0xffffffff⟩
  | .SCH_BACKOFF => ⟨0, 0x2020, 0x0, 1, 0, 1, 32, 0x3e807d0, 0xffffffff, 0x0, 0x0, 0xffffffff⟩
  | .SCH_PINGGAP => ⟨0, 0x2024, 0x0, 1, 0, 1, 32, 0x2710, 0xfffff, 0x0, 0x0, 0xfffff⟩
  | .SCH_QUOTA => ⟨0, 0x2028, 0x0, 1, 0, 1, 32, 0x100, 0x1ffff, 0x0, 0x0, 0x1ffff⟩
  | .SCH_SPILL_BASE => ⟨0, 0x2030, 0x0, 1, 0, 1, 64, 0x0, 0xfffffffffffff001, 0x0, 0x0, 0xfffffffffffff001⟩
  | .SCH_SPILL_SIZE => ⟨0, 0x2038, 0x0, 1, 0, 1, 32, 0x0, 0xfffff, 0x0, 0x0, 0xfffff⟩
  | .SCH_SPILL_STS => ⟨0, 0x203c, 0x0, 1, 0, 1, 32, 0x0, 0x0, 0x0, 0x0, 0xc00fffff⟩
  | .SCH_QSTS => ⟨0, 0x2040, 0x0, 1, 0, 1, 32, 0x0, 0x0, 0x0, 0x0, 0x1ffff⟩
  | .SCH_DSTS => ⟨0, 0x2044, 0x0, 1, 0, 1, 32, 0x0, 0x0, 0x0, 0x0, 0xffff⟩
  | .SCH_DYN_CNT => ⟨0, 0x2048, 0x0, 1, 0, 1, 32, 0x0, 0xffffffff, 0x0, 0x0, 0xffffffff⟩
  | .SCH_NAK_CNT => ⟨0, 0x204c, 0x0, 1, 0, 1, 32, 0x0, 0xffffffff, 0x0, 0x0, 0xffffffff⟩
  | .SCH_DCNT_SEL => ⟨0, 0x2050, 0x0, 1, 0, 1, 32, 0x0, 0xffff, 0x0, 0x0, 0xffff⟩
  | .SCH_DCNT_VAL => ⟨0, 0x2054, 0x0, 1, 0, 1, 32, 0x0, 0xffff, 0x0, 0x0, 0xffff⟩
  | .SCH_TRACE_CTL => ⟨0, 0x2060, 0x0, 1, 0, 1, 32, 0x0, 0x83ff07fe, 0x0, 0x0, 0x83ff07fe⟩
  | .SCH_TRACE_PORTS => ⟨0, 0x2068, 0x0, 1, 0, 1, 64, 0xffffffffffffffff, 0xffffffffffffffff, 0x0, 0x0, 0xffffffffffffffff⟩
  | .SCH_TRACE_EPH => ⟨0, 0x2070, 0x0, 1, 0, 1, 32, 0x0, 0x1ffffff, 0x0, 0x0, 0x1ffffff⟩
  | .SCH_TRACE_MASK => ⟨0, 0x2074, 0x0, 1, 0, 1, 32, 0x0, 0x1ffffff, 0x0, 0x0, 0x1ffffff⟩
  | .SCH_AMAX => ⟨0, 0x2400, 0x10, 1, 0, 64, 32, 0x2710, 0xfffff, 0x0, 0x0, 0xfffff⟩
  | .SCH_AMAX_N => ⟨0, 0x2404, 0x10, 1, 0, 64, 32, 0xffffd8ef, 0xffffffff, 0x0, 0x0, 0xffffffff⟩
  | .SCH_OCC => ⟨0, 0x2408, 0x10, 1, 0, 64, 32, 0x0, 0x0, 0x0, 0x0, 0x3fffffff⟩
  | .SCH_RESSUM => ⟨0, 0x240c, 0x10, 1, 0, 64, 32, 0x0, 0x0, 0x0, 0x0, 0xfffff⟩
  | .SCH_GW => ⟨0, 0x2800, 0x20, 8, 4, 512, 32, 0x1010101, 0xffffffff, 0x0, 0x0, 0xffffffff⟩
  | .SCH_MRING_GEO => ⟨0, 0x3e00, 0x40, 1, 0, 4, 64, 0x0, 0xffffffffffffffff, 0x0, 0x0, 0xffffffffffffffff⟩
  | .SCH_MRING_GEO_N => ⟨0, 0x3e08, 0x40, 1, 0, 4, 64, 0xffffffffffffffff, 0xffffffffffffffff, 0x0, 0x0, 0xffffffffffffffff⟩
  | .SCH_MRING_DB => ⟨0, 0x3e10, 0x40, 1, 0, 4, 64, 0x0, 0x0, 0xffffffffffffffff, 0x0, 0xffffffffffffffff⟩
  | .SCH_MRING_STS => ⟨0, 0x3e18, 0x40, 1, 0, 4, 64, 0x0, 0x0, 0x0, 0x0, 0xf3ffffffffff⟩
  | .SCH_MRING_CTL => ⟨0, 0x3e20, 0x40, 1, 0, 4, 32, 0x0, 0x1, 0x0, 0x0, 0x1⟩
  | .SCH_CTXDIR => ⟨0, 0x3f00, 0x0, 1, 0, 1, 64, 0x0, 0xfffffffffffff001, 0x0, 0x0, 0xfffffffffffff001⟩
  | .SCH_CTXDIR_N => ⟨0, 0x3f08, 0x0, 1, 0, 1, 64, 0xffffffffffffffff, 0xffffffffffffffff, 0x0, 0x0, 0xffffffffffffffff⟩
  | .SCH_CTXSTS => ⟨0, 0x3f10, 0x0, 1, 0, 1, 32, 0x0, 0x0, 0x0, 0x0, 0x1ffff⟩
  | .SCH_CTXCACHED => ⟨0, 0x3f14, 0x0, 1, 0, 1, 32, 0x0, 0x0, 0x0, 0x0, 0x1ffff⟩
  | .SCH_CTXCNT => ⟨0, 0x3f18, 0x0, 1, 0, 1, 32, 0x0, 0xffffffff, 0x0, 0x0, 0xffffffff⟩
  | .SCH_XERR => ⟨0, 0x3f1c, 0x0, 1, 0, 1, 32, 0x0, 0xffffffff, 0x0, 0x0, 0xffffffff⟩
  | .PRT_CFG => ⟨0, 0x4000, 0x40, 1, 0, 64, 32, 0x0, 0x91, 0x0, 0x0, 0x91⟩
  | .PRT_CFG_N => ⟨0, 0x4004, 0x40, 1, 0, 64, 32, 0xffffffff, 0xffffffff, 0x0, 0x0, 0xffffffff⟩
  | .PRT_CTL => ⟨0, 0x4008, 0x40, 1, 0, 64, 32, 0x0, 0x3, 0xf8, 0x0, 0xfb⟩
  | .PRT_STS => ⟨0, 0x400c, 0x40, 1, 0, 64, 32, 0x0, 0x0, 0x0, 0x0, 0xfffcff1f⟩
  | .PRT_CHG => ⟨0, 0x4010, 0x40, 1, 0, 64, 32, 0x0, 0x0, 0x0, 0xfff, 0xfff⟩
  | .PRT_CHG_SHADOW => ⟨0, 0x4014, 0x40, 1, 0, 64, 32, 0x0, 0x0, 0x0, 0x0, 0xfff⟩
  | .PRT_LERR => ⟨0, 0x4018, 0x40, 1, 0, 64, 32, 0x0, 0xffffffff, 0x0, 0x0, 0xffffffff⟩
  | .PRT_RETRY => ⟨0, 0x401c, 0x40, 1, 0, 64, 32, 0x0, 0xffffffff, 0x0, 0x0, 0xffffffff⟩
  | .PRT_FEC => ⟨0, 0x4020, 0x40, 1, 0, 64, 32, 0x0, 0xffffffff, 0x0, 0x0, 0xffffffff⟩
  | .MOV_SRC => ⟨0, 0x6000, 0x40, 1, 0, 64, 64, 0x0, 0xffffffffffffffff, 0x0, 0x0, 0xffffffffffffffff⟩
  | .MOV_DST => ⟨0, 0x6008, 0x40, 1, 0, 64, 64, 0x0, 0xffffffffffffffff, 0x0, 0x0, 0xffffffffffffffff⟩
  | .MOV_CNT => ⟨0, 0x6010, 0x40, 1, 0, 64, 32, 0x0, 0xffffffff, 0x0, 0x0, 0xffffffff⟩
  | .MOV_CTL => ⟨0, 0x6014, 0x40, 1, 0, 64, 32, 0x6000, 0xdffffff, 0xc0000000, 0x0, 0xcdffffff⟩
  | .MOV_STS => ⟨0, 0x6018, 0x40, 1, 0, 64, 32, 0x0, 0x0, 0x0, 0x3f, 0xfff0ff3f⟩
  | .MOV_STS_SHADOW => ⟨0, 0x601c, 0x40, 1, 0, 64, 32, 0x0, 0x0, 0x0, 0x0, 0xfff0ff3f⟩
  | .MOV_DPTR => ⟨0, 0x6020, 0x40, 1, 0, 64, 64, 0x0, 0xffffffffffffffff, 0x0, 0x0, 0xffffffffffffffff⟩
  | .MOV_CRC => ⟨0, 0x6028, 0x40, 1, 0, 64, 32, 0x0, 0x0, 0x0, 0x0, 0xffffffff⟩
  | .MOV_MISOFS => ⟨0, 0x602c, 0x40, 1, 0, 64, 32, 0x0, 0x0, 0x0, 0x0, 0xffffffff⟩
  | .MOV_BIND => ⟨0, 0x6030, 0x40, 1, 0, 64, 32, 0x0, 0x800000ff, 0x0, 0x0, 0x800000ff⟩
  | .MOV_BIND_N => ⟨0, 0x6034, 0x40, 1, 0, 64, 32, 0xffffffff, 0xffffffff, 0x0, 0x0, 0xffffffff⟩
  | .MOV_GCFG => ⟨0, 0x7000, 0x0, 1, 0, 1, 32, 0x310, 0x73f, 0x0, 0x0, 0x73f⟩
  | .MOV_GERR => ⟨0, 0x7004, 0x0, 1, 0, 1, 32, 0x0, 0xffffffff, 0x0, 0x0, 0xffffffff⟩
  | .MOV_GEVT => ⟨0, 0x7008, 0x0, 1, 0, 1, 32, 0x0, 0x0, 0x0, 0x3, 0x3⟩
  | .MOV_GEVT_SHADOW => ⟨0, 0x700c, 0x0, 1, 0, 1, 32, 0x0, 0x0, 0x0, 0x0, 0x3⟩
  | .MOV_REQSEL => ⟨0, 0x7010, 0x0, 1, 0, 1, 32, 0x0, 0x7f, 0x0, 0x0, 0x7f⟩
  | .MOV_REQDROP => ⟨0, 0x7014, 0x0, 1, 0, 1, 32, 0x0, 0xffff, 0x0, 0x0, 0xffff⟩
  | .ICU_PSET => ⟨0, 0x8000, 0x4, 1, 0, 64, 32, 0x0, 0x0, 0xffffffff, 0x0, 0xffffffff⟩
  | .ICU_PCLR => ⟨0, 0x8100, 0x4, 1, 0, 64, 32, 0x0, 0x0, 0xffffffff, 0x0, 0xffffffff⟩
  | .ICU_ESET => ⟨0, 0x8200, 0x4, 1, 0, 64, 32, 0x0, 0x0, 0xffffffff, 0x0, 0xffffffff⟩
  | .ICU_ECLR => ⟨0, 0x8300, 0x4, 1, 0, 64, 32, 0x0, 0x0, 0xffffffff, 0x0, 0xffffffff⟩
  | .ICU_ACT => ⟨0, 0x8400, 0x4, 1, 0, 64, 32, 0x0, 0x0, 0x0, 0x0, 0xffffffff⟩
  | .ICU_SRCSEL => ⟨0, 0x8800, 0x0, 1, 0, 1, 32, 0x0, 0x7ff, 0x0, 0x0, 0x7ff⟩
  | .ICU_SRCCFG => ⟨0, 0x8804, 0x0, 1, 0, 1, 32, 0x80, 0xfdfff8ff, 0x0, 0x0, 0xfdfff8ff⟩
  | .ICU_PRIGROUP => ⟨0, 0x8808, 0x0, 1, 0, 1, 32, 0x0, 0x7, 0x0, 0x0, 0x7⟩
  | .ICU_CORESTS => ⟨0, 0x8810, 0x4, 1, 0, 4, 32, 0x100, 0xe00, 0x0, 0x0, 0xc7ff0fff⟩
  | .ICU_CMOD => ⟨0, 0x8820, 0x4, 1, 0, 4, 32, 0x1, 0xff00, 0x0, 0x0, 0x3ffffff⟩
  | .ICU_MRVEC => ⟨0, 0x8830, 0x4, 1, 0, 3, 32, 0x0, 0x800007ff, 0x0, 0x0, 0x800007ff⟩
  | .ICU_ERR => ⟨0, 0x883c, 0x0, 1, 0, 1, 32, 0x0, 0xffffffff, 0x0, 0x0, 0xffffffff⟩
  | .ICU_VSEL => ⟨0, 0x8840, 0x0, 1, 0, 1, 32, 0x0, 0x7ff, 0x0, 0x0, 0x7ff⟩
  | .ICU_VMOD => ⟨0, 0x8844, 0x0, 1, 0, 1, 32, 0x1, 0x3ff00ff, 0x0, 0x0, 0x3ff00ff⟩
  | .ICU_VSTS => ⟨0, 0x8848, 0x0, 1, 0, 1, 32, 0x0, 0x0, 0x80000000, 0x0, 0xc00000ff⟩
  | .SLC_PASID => ⟨0, 0xa000, 0x40, 1, 0, 256, 32, 0x0, 0xfffff, 0x0, 0x0, 0xfffff⟩
  | .SLC_PASID_N => ⟨0, 0xa004, 0x40, 1, 0, 256, 32, 0xffffffff, 0xffffffff, 0x0, 0x0, 0xffffffff⟩
  | .SLC_WIN => ⟨0, 0xa008, 0x40, 1, 0, 256, 32, 0x0, 0x1ff01ff, 0x0, 0x0, 0x1ff01ff⟩
  | .SLC_WIN_N => ⟨0, 0xa00c, 0x40, 1, 0, 256, 32, 0xffffffff, 0xffffffff, 0x0, 0x0, 0xffffffff⟩
  | .SLC_HBASE => ⟨0, 0xa010, 0x40, 1, 0, 256, 64, 0x0, 0xfffffffffffff000, 0x0, 0x0, 0xfffffffffffff000⟩
  | .SLC_HBASE_N => ⟨0, 0xa018, 0x40, 1, 0, 256, 64, 0xffffffffffffffff, 0xffffffffffffffff, 0x0, 0x0, 0xffffffffffffffff⟩
  | .SLC_HLIM => ⟨0, 0xa020, 0x40, 1, 0, 256, 64, 0x0, 0xfffffffffffff000, 0x0, 0x0, 0xfffffffffffff000⟩
  | .SLC_HLIM_N => ⟨0, 0xa028, 0x40, 1, 0, 256, 64, 0xffffffffffffffff, 0xffffffffffffffff, 0x0, 0x0, 0xffffffffffffffff⟩
  | .SLC_CNTR => ⟨0, 0xa030, 0x40, 1, 0, 256, 32, 0x0, 0xffffffff, 0x0, 0x0, 0xffffffff⟩
  | .SLC_CNTR_N => ⟨0, 0xa034, 0x40, 1, 0, 256, 32, 0xffffffff, 0xffffffff, 0x0, 0x0, 0xffffffff⟩
  | .SLC_STS => ⟨0, 0xa038, 0x40, 1, 0, 256, 32, 0x0, 0x0, 0x0, 0x0, 0xff07ffff⟩
  | .SLC_ERR => ⟨0, 0xa03c, 0x40, 1, 0, 256, 32, 0x0, 0xffffffff, 0x0, 0x0, 0xffffffff⟩
  | .PWR_REQ => ⟨0, 0xe000, 0x0, 1, 0, 1, 32, 0x0, 0x7, 0x0, 0x0, 0x7⟩
  | .PWR_REQ_N => ⟨0, 0xe004, 0x0, 1, 0, 1, 32, 0xffffffff, 0xffffffff, 0x0, 0x0, 0xffffffff⟩
  | .PWR_STS => ⟨0, 0xe008, 0x0, 1, 0, 1, 32, 0x0, 0x0, 0x0, 0x0, 0xfffe07ff⟩
  | .PWR_EVT => ⟨0, 0xe00c, 0x0, 1, 0, 1, 32, 0x0, 0x0, 0x0, 0xff, 0xff⟩
  | .PWR_EVT_SHADOW => ⟨0, 0xe010, 0x0, 1, 0, 1, 32, 0x0, 0x0, 0x0, 0x0, 0xff⟩
  | .PWR_WAKE_EN => ⟨0, 0xe014, 0x0, 1, 0, 1, 32, 0x9, 0x1f, 0x0, 0x0, 0x1f⟩
  | .PWR_SENSE => ⟨0, 0xe018, 0x0, 1, 0, 1, 32, 0x0, 0xc00700ff, 0x0, 0x0, 0xe00700ff⟩
  | .PWR_WAKE => ⟨0, 0xe01c, 0x0, 1, 0, 1, 32, 0x0, 0x0, 0x0, 0x0, 0xfff03f3f⟩
  | .PWR_LAT => ⟨0, 0xe020, 0x0, 1, 0, 1, 32, 0x0, 0x0, 0x0, 0x0, 0xffffffff⟩
  | .PWR_RSEL => ⟨0, 0xe024, 0x0, 1, 0, 1, 32, 0x0, 0xff, 0x0, 0x0, 0xff⟩
  | .PWR_RCNT => ⟨0, 0xe028, 0x0, 1, 0, 1, 32, 0x0, 0xffffffff, 0x0, 0x0, 0xffffffff⟩
  | .HLT_STS => ⟨0, 0xe800, 0x0, 1, 0, 1, 32, 0x0, 0x0, 0x0, 0x0, 0xe0003fff⟩
  | .HLT_EVT => ⟨0, 0xe804, 0x0, 1, 0, 1, 32, 0x0, 0x0, 0x0, 0xff, 0xff⟩
  | .HLT_EVT_SHADOW => ⟨0, 0xe808, 0x0, 1, 0, 1, 32, 0x0, 0x0, 0x0, 0x0, 0xff⟩
  | .HLT_START => ⟨0, 0xe80c, 0x0, 1, 0, 1, 32, 0x0, 0x0, 0x0, 0x0, 0xff00ffff⟩
  | .HLT_POOL => ⟨0, 0xe810, 0x0, 1, 0, 1, 32, 0x1800002, 0x0, 0x0, 0x0, 0x1ff0003⟩
  | .HLT_RETIRED => ⟨0, 0xe818, 0x0, 1, 0, 1, 64, 0x0, 0x0, 0x0, 0x0, 0xffffffffffffffff⟩
  | .HLT_PORTRET => ⟨0, 0xe820, 0x0, 1, 0, 1, 64, 0x0, 0x0, 0x0, 0x0, 0xffffffffffffffff⟩
  | .HLT_SEL => ⟨0, 0xe828, 0x0, 1, 0, 1, 32, 0x0, 0x7ff, 0x0, 0x0, 0x7ff⟩
  | .HLT_OBJ => ⟨0, 0xe830, 0x0, 1, 0, 1, 64, 0x0, 0x0, 0x0, 0x0, 0xffffffffffffffff⟩
  | .SEC_STS => ⟨0, 0xf000, 0x0, 1, 0, 1, 32, 0x0, 0x0, 0x0, 0x0, 0xffffff80⟩
  | .SEC_EVT => ⟨0, 0xf004, 0x0, 1, 0, 1, 32, 0x0, 0x0, 0x0, 0xf, 0xf⟩
  | .SEC_EVT_SHADOW => ⟨0, 0xf008, 0x0, 1, 0, 1, 32, 0x0, 0x0, 0x0, 0x0, 0xf⟩
  | .SEC_DBG_ALLOW => ⟨0, 0xf010, 0x0, 1, 0, 1, 32, 0x0, 0x3, 0x0, 0x0, 0x3⟩
  | .SEC_DBG_ALLOW_N => ⟨0, 0xf014, 0x0, 1, 0, 1, 32, 0xffffffff, 0xffffffff, 0x0, 0x0, 0xffffffff⟩
  | .SEC_AUDIT => ⟨0, 0xf018, 0x0, 1, 0, 1, 32, 0x0, 0xffff0000, 0x0, 0x0, 0xffff01ff⟩
  | .TWN_CFG => ⟨0, 0xf800, 0x0, 1, 0, 1, 32, 0x0, 0x1ffff, 0x0, 0x0, 0x1ffff⟩
  | .TWN_CFG_N => ⟨0, 0xf804, 0x0, 1, 0, 1, 32, 0xffffffff, 0xffffffff, 0x0, 0x0, 0xffffffff⟩
  | .TWN_GEN => ⟨0, 0xf808, 0x0, 1, 0, 1, 32, 0x0, 0xffffffff, 0x0, 0x0, 0xffffffff⟩
  | .TWN_GEN_N => ⟨0, 0xf80c, 0x0, 1, 0, 1, 32, 0xffffffff, 0xffffffff, 0x0, 0x0, 0xffffffff⟩
  | .TWN_STS => ⟨0, 0xf810, 0x0, 1, 0, 1, 32, 0x0, 0x0, 0x0, 0x0, 0xffffff07⟩
  | .TWN_EVT => ⟨0, 0xf814, 0x0, 1, 0, 1, 32, 0x0, 0x0, 0x0, 0xff, 0xff⟩
  | .TWN_EVT_SHADOW => ⟨0, 0xf818, 0x0, 1, 0, 1, 32, 0x0, 0x0, 0x0, 0x0, 0xff⟩
  | .TWN_OFFSET => ⟨0, 0xf81c, 0x0, 1, 0, 1, 32, 0x0, 0x0, 0x0, 0x0, 0xffffffff⟩
  | .TWN_DLY => ⟨0, 0xf820, 0x0, 1, 0, 1, 32, 0x0, 0x0, 0x0, 0x0, 0xffffffff⟩
  | .TWN_CNT => ⟨0, 0xf824, 0x0, 1, 0, 1, 32, 0x0, 0xffffffff, 0x0, 0x0, 0xffffffff⟩
  | .TWN_OWNED => ⟨0, 0xf828, 0x0, 1, 0, 1, 64, 0x0, 0x0, 0x0, 0x0, 0xffffffffffffffff⟩
  | .TWN_WARM => ⟨0, 0xf830, 0x0, 1, 0, 1, 64, 0x0, 0x0, 0x0, 0x0, 0xffffffffffffffff⟩
  | .TWN_PMAP => ⟨0, 0xfa00, 0x8, 1, 0, 64, 32, 0x0, 0x8000003f, 0x0, 0x0, 0x8000003f⟩
  | .TWN_PMAP_N => ⟨0, 0xfa04, 0x8, 1, 0, 64, 32, 0xffffffff, 0xffffffff, 0x0, 0x0, 0xffffffff⟩
  | .GTH_STS => ⟨0, 0x10000, 0x0, 1, 0, 1, 32, 0x0, 0x0, 0x0, 0x0, 0xfff01ff⟩
  | .GTH_EVT => ⟨0, 0x10004, 0x0, 1, 0, 1, 32, 0x0, 0x0, 0x0, 0x1f, 0x1f⟩
  | .GTH_EVT_SHADOW => ⟨0, 0x10008, 0x0, 1, 0, 1, 32, 0x0, 0x0, 0x0, 0x0, 0x1f⟩
  | .GTH_MEMB => ⟨0, 0x1000c, 0x0, 1, 0, 1, 32, 0x0, 0x0, 0x0, 0x0, 0x3fff⟩
  | .GTH_CNT => ⟨0, 0x11000, 0x8, 1, 0, 256, 32, 0x0, 0xffffffff, 0x0, 0x0, 0xffffffff⟩
  | .GTH_DROP => ⟨0, 0x11004, 0x8, 1, 0, 256, 32, 0x0, 0xffffffff, 0x0, 0x0, 0xffffffff⟩
  | .CDR_STS => ⟨0, 0x14000, 0x0, 1, 0, 1, 32, 0x0, 0x0, 0x0, 0x0, 0xff007f⟩
  | .CDR_BACKLOG => ⟨0, 0x14004, 0x0, 1, 0, 1, 32, 0x0, 0x0, 0x0, 0x0, 0xffffffff⟩
  | .CDR_EVT => ⟨0, 0x14008, 0x0, 1, 0, 1, 32, 0x0, 0x0, 0x0, 0x7, 0x7⟩
  | .CDR_EVT_SHADOW => ⟨0, 0x1400c, 0x0, 1, 0, 1, 32, 0x0, 0x0, 0x0, 0x0, 0x7⟩
  | .CDR_CNT => ⟨0, 0x15000, 0x10, 1, 0, 64, 32, 0x0, 0xffffffff, 0x0, 0x0, 0xffffffff⟩
  | .CDR_FLG => ⟨0, 0x15004, 0x10, 1, 0, 64, 32, 0x0, 0xffffffff, 0x0, 0x0, 0xffffffff⟩
  | .IND_ADDR => ⟨0, 0x18000, 0x0, 1, 0, 1, 32, 0x0, 0xfffffffd, 0x0, 0x0, 0xffffffff⟩
  | .IND_DATA => ⟨0, 0x18004, 0x0, 1, 0, 1, 32, 0x0, 0xffffffff, 0x0, 0x0, 0xffffffff⟩
  | .MSIX_ADDR => ⟨0, 0x20000, 0x10, 1, 0, 2048, 64, 0x0, 0xffffffffffffffff, 0x0, 0x0, 0xffffffffffffffff⟩
  | .MSIX_DATA => ⟨0, 0x20008, 0x10, 1, 0, 2048, 32, 0x0, 0xffffffff, 0x0, 0x0, 0xffffffff⟩
  | .MSIX_CTL => ⟨0, 0x2000c, 0x10, 1, 0, 2048, 32, 0x1, 0x1, 0x0, 0x0, 0x1⟩
  | .MSIX_PBA => ⟨0, 0x28000, 0x8, 1, 0, 32, 64, 0x0, 0x0, 0x0, 0x0, 0xffffffffffffffff⟩
  | .MBM_DATA => ⟨0, 0x30000, 0x100, 16, 4, 4096, 32, 0x0, 0x0, 0xffffffff, 0x0, 0xffffffff⟩
  | .MBM_RECV => ⟨0, 0x30040, 0x100, 16, 4, 4096, 32, 0x0, 0x0, 0x0, 0x0, 0xffffffff⟩
  | .MBM_POST => ⟨0, 0x30080, 0x100, 1, 0, 256, 32, 0x0, 0x0, 0x7f, 0x0, 0x7f⟩
  | .MBM_POP => ⟨0, 0x30084, 0x100, 1, 0, 256, 32, 0x0, 0x0, 0x1, 0x0, 0x1⟩
  | .MBM_STS => ⟨0, 0x30088, 0x100, 1, 0, 256, 32, 0x0, 0x0, 0x0, 0x0, 0x1ff3f7f⟩
  | .MBM_EVT => ⟨0, 0x3008c, 0x100, 1, 0, 256, 32, 0x0, 0x0, 0x0, 0xf, 0xf⟩
  | .MBM_EVT_SHADOW => ⟨0, 0x30090, 0x100, 1, 0, 256, 32, 0x0, 0x0, 0x0, 0x0, 0xf⟩
  | .RING_DB => ⟨1, 0x0, 0x10000, 64, 8, 16384, 64, 0x0, 0x0, 0xfffff, 0x0, 0xfffff⟩
  | .MBT_DATA => ⟨1, 0x1000, 0x10000, 16, 4, 4096, 32, 0x0, 0x0, 0xffffffff, 0x0, 0xffffffff⟩
  | .MBT_RECV => ⟨1, 0x1040, 0x10000, 16, 4, 4096, 32, 0x0, 0x0, 0x0, 0x0, 0xffffffff⟩
  | .MBT_POST => ⟨1, 0x1080, 0x10000, 1, 0, 256, 32, 0x0, 0x0, 0x7f, 0x0, 0x7f⟩
  | .MBT_POP => ⟨1, 0x1084, 0x10000, 1, 0, 256, 32, 0x0, 0x0, 0x1, 0x0, 0x1⟩
  | .MBT_STS => ⟨1, 0x1088, 0x10000, 1, 0, 256, 32, 0x0, 0x0, 0x0, 0x0, 0x1ff3f7f⟩
  | .MBT_EVT => ⟨1, 0x108c, 0x10000, 1, 0, 256, 32, 0x0, 0x0, 0x0, 0xf, 0xf⟩
  | .MBT_EVT_SHADOW => ⟨1, 0x1090, 0x10000, 1, 0, 256, 32, 0x0, 0x0, 0x0, 0x0, 0xf⟩
  | .MBT_CTL => ⟨1, 0x1094, 0x10000, 1, 0, 256, 32, 0x0, 0x800003ff, 0x0, 0x0, 0x800003ff⟩
  | .SLI_PSET => ⟨1, 0x2000, 0x10000, 1, 0, 256, 32, 0x0, 0x0, 0x3, 0x0, 0x3⟩
  | .SLI_PCLR => ⟨1, 0x2004, 0x10000, 1, 0, 256, 32, 0x0, 0x0, 0x3, 0x0, 0x3⟩
  | .SLI_ESET => ⟨1, 0x2008, 0x10000, 1, 0, 256, 32, 0x0, 0x0, 0x3, 0x0, 0x3⟩
  | .SLI_ECLR => ⟨1, 0x200c, 0x10000, 1, 0, 256, 32, 0x0, 0x0, 0x3, 0x0, 0x3⟩
  | .SLI_ROUTE => ⟨1, 0x2010, 0x10000, 1, 0, 256, 32, 0x0, 0x77, 0x0, 0x0, 0x77⟩
  | .SLI_IDLE => ⟨1, 0x2014, 0x10000, 1, 0, 256, 32, 0x0, 0x0, 0xff, 0x0, 0xff⟩
  | .SLI_MOD => ⟨1, 0x2020, 0x10000, 8, 4, 2048, 32, 0x1, 0x3ff00ff, 0x0, 0x0, 0x3ff00ff⟩
  | .SLI_VSTS => ⟨1, 0x2040, 0x10000, 8, 4, 2048, 32, 0x0, 0x0, 0x80000000, 0x0, 0xc00000ff⟩
  | .SLT_EVT => ⟨1, 0x3000, 0x10000, 1, 0, 256, 32, 0x0, 0x0, 0x0, 0xf, 0xf⟩
  | .SLT_EVT_SHADOW => ⟨1, 0x3004, 0x10000, 1, 0, 256, 32, 0x0, 0x0, 0x0, 0x0, 0xf⟩
  | .SLT_STS => ⟨1, 0x3008, 0x10000, 1, 0, 256, 32, 0x0, 0x0, 0x0, 0x0, 0xff07ffff⟩
  | .SLT_ID => ⟨1, 0x8000, 0x10000, 1, 0, 256, 32, 0x0, 0x0, 0x0, 0x0, 0xfffffff⟩
  | .SLT_HBASE => ⟨1, 0x8008, 0x10000, 1, 0, 256, 64, 0x0, 0x0, 0x0, 0x0, 0xffffffffffffffff⟩
  | .SLT_HLIM => ⟨1, 0x8010, 0x10000, 1, 0, 256, 64, 0x0, 0x0, 0x0, 0x0, 0xffffffffffffffff⟩
  | .SLT_WIN => ⟨1, 0x8018, 0x10000, 1, 0, 256, 32, 0x0, 0x0, 0x0, 0x0, 0xffffffff⟩
  | .SLT_CNTR => ⟨1, 0x801c, 0x10000, 1, 0, 256, 32, 0x0, 0x0, 0x0, 0x0, 0xffffffff⟩
  | .SLT_RING => ⟨1, 0x8100, 0x10000, 64, 4, 16384, 32, 0x0, 0x0, 0x0, 0x0, 0x800003ff⟩
  | .TIM_PDLY => ⟨2, 0x0, 0x1, 1, 0, 64, 32, 0xffffffff, 0x0, 0x0, 0x0, 0xffffffff⟩
  | .TIM_TRIM => ⟨2, 0x40, 0x1, 1, 0, 64, 32, 0x0, 0xffff, 0x0, 0x0, 0xffff⟩
  | .ICU_CLAIM => ⟨3, 0x0, 0x0, 1, 0, 4, 32, 0x7ff, 0x0, 0x0, 0x0, 0x7ff⟩
  | .ICU_DONE => ⟨3, 0x4, 0x0, 1, 0, 4, 32, 0x0, 0x0, 0xffffffff, 0x0, 0xffffffff⟩
  | .PWR_MODE => ⟨3, 0x10000, 0x0, 1, 0, 1, 32, 0x0, 0x7, 0x0, 0x0, 0x7⟩

/-- Registers 0 to 39 in the order of BAR and offset. -/
def Reg.all0 : List Reg :=
  [.GCTL_ID, .GCTL_CAPS, .GCTL_ACCESS_ERR, .GCTL_ACCESS_ADDR, .GCTL_ACCESS_ERR_SHADOW, .GCTL_POLICY, .GCTL_POLICY_N, .GCTL_POLICY_STS, .TIM_CTL, .TIM_FRATE, .TIM_FRATE_N, .TIM_STS, .TIM_EVT, .TIM_EVT_SHADOW, .TIM_NOW, .TIM_FRAME_NO, .TIM_FRAME_START, .TIM_UTC, .TIM_IRIG_OFS, .TIM_LABEL,
   .TIM_DISC, .TIM_STEP_THR, .TIM_OFFSET, .TIM_ERR_EST, .TIM_HOLD, .TIM_FRATE_ACT, .TIM_PTM_HOST, .TIM_PTM_LOCAL, .SCH_CAP, .SCH_CAP_N, .SCH_CAP_NS, .SCH_ADM_STS, .SCH_ADM_EVT, .SCH_ADM_EVT_SHADOW, .SCH_LAST_SWITCH, .SCH_BACKOFF, .SCH_PINGGAP, .SCH_QUOTA, .SCH_SPILL_BASE, .SCH_SPILL_SIZE]

/-- Registers 40 to 79 in the order of BAR and offset. -/
def Reg.all1 : List Reg :=
  [.SCH_SPILL_STS, .SCH_QSTS, .SCH_DSTS, .SCH_DYN_CNT, .SCH_NAK_CNT, .SCH_DCNT_SEL, .SCH_DCNT_VAL, .SCH_TRACE_CTL, .SCH_TRACE_PORTS, .SCH_TRACE_EPH, .SCH_TRACE_MASK, .SCH_AMAX, .SCH_AMAX_N, .SCH_OCC, .SCH_RESSUM, .SCH_GW, .SCH_MRING_GEO, .SCH_MRING_GEO_N, .SCH_MRING_DB, .SCH_MRING_STS,
   .SCH_MRING_CTL, .SCH_CTXDIR, .SCH_CTXDIR_N, .SCH_CTXSTS, .SCH_CTXCACHED, .SCH_CTXCNT, .SCH_XERR, .PRT_CFG, .PRT_CFG_N, .PRT_CTL, .PRT_STS, .PRT_CHG, .PRT_CHG_SHADOW, .PRT_LERR, .PRT_RETRY, .PRT_FEC, .MOV_SRC, .MOV_DST, .MOV_CNT, .MOV_CTL]

/-- Registers 80 to 119 in the order of BAR and offset. -/
def Reg.all2 : List Reg :=
  [.MOV_STS, .MOV_STS_SHADOW, .MOV_DPTR, .MOV_CRC, .MOV_MISOFS, .MOV_BIND, .MOV_BIND_N, .MOV_GCFG, .MOV_GERR, .MOV_GEVT, .MOV_GEVT_SHADOW, .MOV_REQSEL, .MOV_REQDROP, .ICU_PSET, .ICU_PCLR, .ICU_ESET, .ICU_ECLR, .ICU_ACT, .ICU_SRCSEL, .ICU_SRCCFG,
   .ICU_PRIGROUP, .ICU_CORESTS, .ICU_CMOD, .ICU_MRVEC, .ICU_ERR, .ICU_VSEL, .ICU_VMOD, .ICU_VSTS, .SLC_PASID, .SLC_PASID_N, .SLC_WIN, .SLC_WIN_N, .SLC_HBASE, .SLC_HBASE_N, .SLC_HLIM, .SLC_HLIM_N, .SLC_CNTR, .SLC_CNTR_N, .SLC_STS, .SLC_ERR]

/-- Registers 120 to 159 in the order of BAR and offset. -/
def Reg.all3 : List Reg :=
  [.PWR_REQ, .PWR_REQ_N, .PWR_STS, .PWR_EVT, .PWR_EVT_SHADOW, .PWR_WAKE_EN, .PWR_SENSE, .PWR_WAKE, .PWR_LAT, .PWR_RSEL, .PWR_RCNT, .HLT_STS, .HLT_EVT, .HLT_EVT_SHADOW, .HLT_START, .HLT_POOL, .HLT_RETIRED, .HLT_PORTRET, .HLT_SEL, .HLT_OBJ,
   .SEC_STS, .SEC_EVT, .SEC_EVT_SHADOW, .SEC_DBG_ALLOW, .SEC_DBG_ALLOW_N, .SEC_AUDIT, .TWN_CFG, .TWN_CFG_N, .TWN_GEN, .TWN_GEN_N, .TWN_STS, .TWN_EVT, .TWN_EVT_SHADOW, .TWN_OFFSET, .TWN_DLY, .TWN_CNT, .TWN_OWNED, .TWN_WARM, .TWN_PMAP, .TWN_PMAP_N]

/-- Registers 160 to 199 in the order of BAR and offset. -/
def Reg.all4 : List Reg :=
  [.GTH_STS, .GTH_EVT, .GTH_EVT_SHADOW, .GTH_MEMB, .GTH_CNT, .GTH_DROP, .CDR_STS, .CDR_BACKLOG, .CDR_EVT, .CDR_EVT_SHADOW, .CDR_CNT, .CDR_FLG, .IND_ADDR, .IND_DATA, .MSIX_ADDR, .MSIX_DATA, .MSIX_CTL, .MSIX_PBA, .MBM_DATA, .MBM_RECV,
   .MBM_POST, .MBM_POP, .MBM_STS, .MBM_EVT, .MBM_EVT_SHADOW, .RING_DB, .MBT_DATA, .MBT_RECV, .MBT_POST, .MBT_POP, .MBT_STS, .MBT_EVT, .MBT_EVT_SHADOW, .MBT_CTL, .SLI_PSET, .SLI_PCLR, .SLI_ESET, .SLI_ECLR, .SLI_ROUTE, .SLI_IDLE]

/-- Registers 200 to 215 in the order of BAR and offset. -/
def Reg.all5 : List Reg :=
  [.SLI_MOD, .SLI_VSTS, .SLT_EVT, .SLT_EVT_SHADOW, .SLT_STS, .SLT_ID, .SLT_HBASE, .SLT_HLIM, .SLT_WIN, .SLT_CNTR, .SLT_RING, .TIM_PDLY, .TIM_TRIM, .ICU_CLAIM, .ICU_DONE, .PWR_MODE]

/-- Every register, in the order of BAR and offset. -/
def Reg.all : List Reg := Reg.all0 ++ Reg.all1 ++ Reg.all2 ++ Reg.all3 ++ Reg.all4 ++ Reg.all5

/-- The number that stands for a register in the key of the register file. -/
def Reg.num (r : Reg) : Nat := r.ctorIdx

/-- The bits of a register that are not reserved (R11). -/
def Reg.bits (r : Reg) : BitVec 64 := BitVec.ofNat 64 r.info.used

/-- Those of the register that a number stands for. -/
def regBits (n : Nat) : BitVec 64 := match Reg.all.find? fun r => r.num == n with
  | some r => r.bits
  | none => 0

/-- A field of a register: bits `hi` to `lo`, as its register table numbers them. -/
structure Fld where
  reg : Reg
  hi : Nat
  lo : Nat
  deriving DecidableEq, Repr

def Fld.GCTL_ID_DEVICE : Fld := ⟨.GCTL_ID, 31, 16⟩
def Fld.GCTL_ID_STEP : Fld := ⟨.GCTL_ID, 15, 8⟩
def Fld.GCTL_CAPS_ICU_SRC : Fld := ⟨.GCTL_CAPS, 63, 48⟩
def Fld.GCTL_CAPS_RINGS : Fld := ⟨.GCTL_CAPS, 47, 32⟩
def Fld.GCTL_CAPS_SLICES : Fld := ⟨.GCTL_CAPS, 31, 16⟩
def Fld.GCTL_CAPS_PORTS : Fld := ⟨.GCTL_CAPS, 15, 8⟩
def Fld.GCTL_CAPS_TWIN : Fld := ⟨.GCTL_CAPS, 1, 1⟩
def Fld.GCTL_CAPS_CODER : Fld := ⟨.GCTL_CAPS, 0, 0⟩
def Fld.GCTL_ACCESS_ERR_VALID : Fld := ⟨.GCTL_ACCESS_ERR, 31, 31⟩
def Fld.GCTL_ACCESS_ERR_MORE : Fld := ⟨.GCTL_ACCESS_ERR, 30, 30⟩
def Fld.GCTL_ACCESS_ERR_KIND : Fld := ⟨.GCTL_ACCESS_ERR, 29, 27⟩
def Fld.GCTL_ACCESS_ERR_BAR : Fld := ⟨.GCTL_ACCESS_ERR, 26, 26⟩
def Fld.GCTL_ACCESS_ERR_LAST_BE : Fld := ⟨.GCTL_ACCESS_ERR, 23, 20⟩
def Fld.GCTL_ACCESS_ERR_FIRST_BE : Fld := ⟨.GCTL_ACCESS_ERR, 19, 16⟩
def Fld.GCTL_ACCESS_ERR_COUNT : Fld := ⟨.GCTL_ACCESS_ERR, 15, 0⟩
def Fld.GCTL_ACCESS_ADDR_DOMAIN : Fld := ⟨.GCTL_ACCESS_ADDR, 31, 24⟩
def Fld.GCTL_ACCESS_ADDR_OFFSET : Fld := ⟨.GCTL_ACCESS_ADDR, 23, 0⟩
def Fld.GCTL_POLICY_POWER : Fld := ⟨.GCTL_POLICY, 9, 8⟩
def Fld.GCTL_POLICY_TAKEOVER : Fld := ⟨.GCTL_POLICY, 7, 6⟩
def Fld.GCTL_POLICY_RETIRE : Fld := ⟨.GCTL_POLICY, 5, 4⟩
def Fld.GCTL_POLICY_THROTTLE : Fld := ⟨.GCTL_POLICY, 3, 2⟩
def Fld.GCTL_POLICY_RATE : Fld := ⟨.GCTL_POLICY, 1, 0⟩
def Fld.GCTL_POLICY_STS_ACTION_COUNT : Fld := ⟨.GCTL_POLICY_STS, 31, 16⟩
def Fld.GCTL_POLICY_STS_POWER_ACTIVE : Fld := ⟨.GCTL_POLICY_STS, 4, 4⟩
def Fld.GCTL_POLICY_STS_TAKEOVER_ACTIVE : Fld := ⟨.GCTL_POLICY_STS, 3, 3⟩
def Fld.GCTL_POLICY_STS_RETIRE_ACTIVE : Fld := ⟨.GCTL_POLICY_STS, 2, 2⟩
def Fld.GCTL_POLICY_STS_THROTTLE_ACTIVE : Fld := ⟨.GCTL_POLICY_STS, 1, 1⟩
def Fld.GCTL_POLICY_STS_RATE_ACTIVE : Fld := ⟨.GCTL_POLICY_STS, 0, 0⟩
def Fld.TIM_CTL_STEP_GO : Fld := ⟨.TIM_CTL, 11, 11⟩
def Fld.TIM_CTL_AUTOSTEP : Fld := ⟨.TIM_CTL, 10, 10⟩
def Fld.TIM_CTL_PPS_OUT_EN : Fld := ⟨.TIM_CTL, 9, 9⟩
def Fld.TIM_CTL_PPS_EDGE : Fld := ⟨.TIM_CTL, 8, 8⟩
def Fld.TIM_CTL_PTM_EN : Fld := ⟨.TIM_CTL, 5, 5⟩
def Fld.TIM_CTL_IRIG_EN : Fld := ⟨.TIM_CTL, 4, 4⟩
def Fld.TIM_CTL_PPS_EN : Fld := ⟨.TIM_CTL, 3, 3⟩
def Fld.TIM_CTL_REF_EN : Fld := ⟨.TIM_CTL, 2, 2⟩
def Fld.TIM_CTL_FRAME_EN : Fld := ⟨.TIM_CTL, 0, 0⟩
def Fld.TIM_FRATE_FRATE : Fld := ⟨.TIM_FRATE, 16, 0⟩
def Fld.TIM_STS_PHASE_SRC : Fld := ⟨.TIM_STS, 21, 20⟩
def Fld.TIM_STS_FREQ_SRC : Fld := ⟨.TIM_STS, 19, 17⟩
def Fld.TIM_STS_FRATE_PEND : Fld := ⟨.TIM_STS, 15, 15⟩
def Fld.TIM_STS_STEP_PENDING : Fld := ⟨.TIM_STS, 14, 14⟩
def Fld.TIM_STS_LABEL_VALID : Fld := ⟨.TIM_STS, 13, 13⟩
def Fld.TIM_STS_HOLDOVER : Fld := ⟨.TIM_STS, 12, 12⟩
def Fld.TIM_STS_PTM_OK : Fld := ⟨.TIM_STS, 7, 7⟩
def Fld.TIM_STS_IRIG_OK : Fld := ⟨.TIM_STS, 6, 6⟩
def Fld.TIM_STS_PPS_OK : Fld := ⟨.TIM_STS, 5, 5⟩
def Fld.TIM_STS_REF_OK : Fld := ⟨.TIM_STS, 4, 4⟩
def Fld.TIM_STS_QCLASS : Fld := ⟨.TIM_STS, 2, 0⟩
def Fld.TIM_EVT_FRATE_REFUSED : Fld := ⟨.TIM_EVT, 9, 9⟩
def Fld.TIM_EVT_FRATE_APPLIED : Fld := ⟨.TIM_EVT, 8, 8⟩
def Fld.TIM_EVT_LABEL_MISMATCH : Fld := ⟨.TIM_EVT, 7, 7⟩
def Fld.TIM_EVT_STEP_DONE : Fld := ⟨.TIM_EVT, 6, 6⟩
def Fld.TIM_EVT_STEP_PENDING_SET : Fld := ⟨.TIM_EVT, 5, 5⟩
def Fld.TIM_EVT_PTM_LOST : Fld := ⟨.TIM_EVT, 4, 4⟩
def Fld.TIM_EVT_IRIG_LOST : Fld := ⟨.TIM_EVT, 3, 3⟩
def Fld.TIM_EVT_PPS_LOST : Fld := ⟨.TIM_EVT, 2, 2⟩
def Fld.TIM_EVT_REF_LOST : Fld := ⟨.TIM_EVT, 1, 1⟩
def Fld.TIM_EVT_QCLASS_CHANGED : Fld := ⟨.TIM_EVT, 0, 0⟩
def Fld.TIM_NOW_NOW : Fld := ⟨.TIM_NOW, 63, 0⟩
def Fld.TIM_FRAME_NO_FRAME_NO : Fld := ⟨.TIM_FRAME_NO, 31, 0⟩
def Fld.TIM_FRAME_START_START : Fld := ⟨.TIM_FRAME_START, 63, 0⟩
def Fld.TIM_UTC_UTC_OFS : Fld := ⟨.TIM_UTC, 15, 0⟩
def Fld.TIM_IRIG_OFS_IRIG_OFS : Fld := ⟨.TIM_IRIG_OFS, 31, 0⟩
def Fld.TIM_LABEL_LABEL : Fld := ⟨.TIM_LABEL, 63, 0⟩
def Fld.TIM_DISC_SLEW_PPM : Fld := ⟨.TIM_DISC, 7, 0⟩
def Fld.TIM_STEP_THR_STEP_THR : Fld := ⟨.TIM_STEP_THR, 31, 0⟩
def Fld.TIM_OFFSET_OFFSET : Fld := ⟨.TIM_OFFSET, 31, 0⟩
def Fld.TIM_ERR_EST_ERR_EST : Fld := ⟨.TIM_ERR_EST, 31, 0⟩
def Fld.TIM_HOLD_GROWTH_NOREF : Fld := ⟨.TIM_HOLD, 31, 16⟩
def Fld.TIM_HOLD_GROWTH_REF : Fld := ⟨.TIM_HOLD, 15, 0⟩
def Fld.TIM_FRATE_ACT_FRATE_ACT : Fld := ⟨.TIM_FRATE_ACT, 16, 0⟩
def Fld.TIM_PTM_HOST_HOST : Fld := ⟨.TIM_PTM_HOST, 63, 0⟩
def Fld.TIM_PTM_LOCAL_LOCAL : Fld := ⟨.TIM_PTM_LOCAL, 63, 0⟩
def Fld.SCH_CAP_PCT : Fld := ⟨.SCH_CAP, 6, 0⟩
def Fld.SCH_CAP_NS_CAP_NS : Fld := ⟨.SCH_CAP_NS, 19, 0⟩
def Fld.SCH_ADM_STS_ADMITTING : Fld := ⟨.SCH_ADM_STS, 31, 31⟩
def Fld.SCH_ADM_STS_COMMITTING : Fld := ⟨.SCH_ADM_STS, 30, 30⟩
def Fld.SCH_ADM_STS_NEXT_TREE : Fld := ⟨.SCH_ADM_STS, 29, 24⟩
def Fld.SCH_ADM_STS_LATE_CNT : Fld := ⟨.SCH_ADM_STS, 23, 15⟩
def Fld.SCH_ADM_STS_ENTRIES : Fld := ⟨.SCH_ADM_STS, 14, 0⟩
def Fld.SCH_ADM_EVT_INTEGRITY : Fld := ⟨.SCH_ADM_EVT, 5, 5⟩
def Fld.SCH_ADM_EVT_COMMIT_DONE : Fld := ⟨.SCH_ADM_EVT, 4, 4⟩
def Fld.SCH_ADM_EVT_RECHECK_REFUSED : Fld := ⟨.SCH_ADM_EVT, 3, 3⟩
def Fld.SCH_ADM_EVT_BATCH_REFUSED : Fld := ⟨.SCH_ADM_EVT, 2, 2⟩
def Fld.SCH_ADM_EVT_AMAX_REFUSED : Fld := ⟨.SCH_ADM_EVT, 1, 1⟩
def Fld.SCH_ADM_EVT_CAP_REFUSED : Fld := ⟨.SCH_ADM_EVT, 0, 0⟩
def Fld.SCH_LAST_SWITCH_FRAME : Fld := ⟨.SCH_LAST_SWITCH, 31, 0⟩
def Fld.SCH_BACKOFF_CAP_US : Fld := ⟨.SCH_BACKOFF, 31, 16⟩
def Fld.SCH_BACKOFF_BASE_NS : Fld := ⟨.SCH_BACKOFF, 15, 0⟩
def Fld.SCH_PINGGAP_GAP_NS : Fld := ⟨.SCH_PINGGAP, 19, 0⟩
def Fld.SCH_QUOTA_QUOTA : Fld := ⟨.SCH_QUOTA, 16, 0⟩
def Fld.SCH_SPILL_BASE_BASE : Fld := ⟨.SCH_SPILL_BASE, 63, 12⟩
def Fld.SCH_SPILL_BASE_ENABLE : Fld := ⟨.SCH_SPILL_BASE, 0, 0⟩
def Fld.SCH_SPILL_SIZE_BLOCKS : Fld := ⟨.SCH_SPILL_SIZE, 19, 0⟩
def Fld.SCH_SPILL_STS_FULL : Fld := ⟨.SCH_SPILL_STS, 31, 31⟩
def Fld.SCH_SPILL_STS_ERR : Fld := ⟨.SCH_SPILL_STS, 30, 30⟩
def Fld.SCH_SPILL_STS_USED : Fld := ⟨.SCH_SPILL_STS, 19, 0⟩
def Fld.SCH_QSTS_ENTRIES : Fld := ⟨.SCH_QSTS, 16, 0⟩
def Fld.SCH_DSTS_DELAYED : Fld := ⟨.SCH_DSTS, 15, 0⟩
def Fld.SCH_DYN_CNT_ROLLED : Fld := ⟨.SCH_DYN_CNT, 31, 22⟩
def Fld.SCH_DYN_CNT_RETURNED : Fld := ⟨.SCH_DYN_CNT, 21, 11⟩
def Fld.SCH_DYN_CNT_UNDERFLOW : Fld := ⟨.SCH_DYN_CNT, 10, 0⟩
def Fld.SCH_NAK_CNT_NAKS : Fld := ⟨.SCH_NAK_CNT, 31, 16⟩
def Fld.SCH_NAK_CNT_PING_NAKS : Fld := ⟨.SCH_NAK_CNT, 15, 0⟩
def Fld.SCH_DCNT_SEL_INDEX : Fld := ⟨.SCH_DCNT_SEL, 15, 0⟩
def Fld.SCH_DCNT_VAL_VALUE : Fld := ⟨.SCH_DCNT_VAL, 15, 0⟩
def Fld.SCH_TRACE_CTL_EN : Fld := ⟨.SCH_TRACE_CTL, 31, 31⟩
def Fld.SCH_TRACE_CTL_EPH_EN : Fld := ⟨.SCH_TRACE_CTL, 25, 25⟩
def Fld.SCH_TRACE_CTL_SLICE_EN : Fld := ⟨.SCH_TRACE_CTL, 24, 24⟩
def Fld.SCH_TRACE_CTL_SLICE : Fld := ⟨.SCH_TRACE_CTL, 23, 16⟩
def Fld.SCH_TRACE_CTL_KINDS : Fld := ⟨.SCH_TRACE_CTL, 10, 1⟩
def Fld.SCH_TRACE_PORTS_PORTS : Fld := ⟨.SCH_TRACE_PORTS, 63, 0⟩
def Fld.SCH_TRACE_EPH_EPH : Fld := ⟨.SCH_TRACE_EPH, 24, 0⟩
def Fld.SCH_TRACE_MASK_MASK : Fld := ⟨.SCH_TRACE_MASK, 24, 0⟩
def Fld.SCH_AMAX_AMAX : Fld := ⟨.SCH_AMAX, 19, 0⟩
def Fld.SCH_OCC_PHASE : Fld := ⟨.SCH_OCC, 29, 20⟩
def Fld.SCH_OCC_WMAX : Fld := ⟨.SCH_OCC, 19, 0⟩
def Fld.SCH_RESSUM_RES_SUM : Fld := ⟨.SCH_RESSUM, 19, 0⟩
def Fld.SCH_GW_GW3 : Fld := ⟨.SCH_GW, 31, 24⟩
def Fld.SCH_GW_GW2 : Fld := ⟨.SCH_GW, 23, 16⟩
def Fld.SCH_GW_GW1 : Fld := ⟨.SCH_GW, 15, 8⟩
def Fld.SCH_GW_GW0 : Fld := ⟨.SCH_GW, 7, 0⟩
def Fld.SCH_MRING_GEO_BASE : Fld := ⟨.SCH_MRING_GEO, 63, 12⟩
def Fld.SCH_MRING_GEO_TYPE : Fld := ⟨.SCH_MRING_GEO, 11, 10⟩
def Fld.SCH_MRING_GEO_K : Fld := ⟨.SCH_MRING_GEO, 9, 5⟩
def Fld.SCH_MRING_GEO_E : Fld := ⟨.SCH_MRING_GEO, 4, 0⟩
def Fld.SCH_MRING_DB_TAIL : Fld := ⟨.SCH_MRING_DB, 19, 0⟩
def Fld.SCH_MRING_STS_REASON : Fld := ⟨.SCH_MRING_STS, 47, 44⟩
def Fld.SCH_MRING_STS_STATE : Fld := ⟨.SCH_MRING_STS, 41, 40⟩
def Fld.SCH_MRING_STS_TAIL : Fld := ⟨.SCH_MRING_STS, 39, 20⟩
def Fld.SCH_MRING_STS_HEAD : Fld := ⟨.SCH_MRING_STS, 19, 0⟩
def Fld.SCH_MRING_CTL_ENABLE : Fld := ⟨.SCH_MRING_CTL, 0, 0⟩
def Fld.SCH_CTXDIR_BASE : Fld := ⟨.SCH_CTXDIR, 63, 12⟩
def Fld.SCH_CTXDIR_VALID : Fld := ⟨.SCH_CTXDIR, 0, 0⟩
def Fld.SCH_CTXSTS_RESIDENT : Fld := ⟨.SCH_CTXSTS, 16, 0⟩
def Fld.SCH_CTXCACHED_CACHED : Fld := ⟨.SCH_CTXCACHED, 16, 0⟩
def Fld.SCH_CTXCNT_MISSES : Fld := ⟨.SCH_CTXCNT, 31, 16⟩
def Fld.SCH_CTXCNT_FETCH_ERR : Fld := ⟨.SCH_CTXCNT, 15, 0⟩
def Fld.SCH_XERR_UNSOLICITED : Fld := ⟨.SCH_XERR, 31, 16⟩
def Fld.SCH_XERR_DUPLICATES : Fld := ⟨.SCH_XERR, 15, 0⟩
def Fld.PRT_CFG_TXDIS_FORCE : Fld := ⟨.PRT_CFG, 7, 7⟩
def Fld.PRT_CFG_CAGE : Fld := ⟨.PRT_CFG, 4, 4⟩
def Fld.PRT_CFG_RATE5_EN : Fld := ⟨.PRT_CFG, 0, 0⟩
def Fld.PRT_CTL_CLEAR_ERROR : Fld := ⟨.PRT_CTL, 7, 7⟩
def Fld.PRT_CTL_RETRAIN : Fld := ⟨.PRT_CTL, 6, 6⟩
def Fld.PRT_CTL_RESUME : Fld := ⟨.PRT_CTL, 5, 5⟩
def Fld.PRT_CTL_SUSPEND : Fld := ⟨.PRT_CTL, 4, 4⟩
def Fld.PRT_CTL_RESET : Fld := ⟨.PRT_CTL, 3, 3⟩
def Fld.PRT_CTL_RWAKE_EN : Fld := ⟨.PRT_CTL, 1, 1⟩
def Fld.PRT_CTL_ENABLE : Fld := ⟨.PRT_CTL, 0, 0⟩
def Fld.PRT_STS_MSC_FAULT : Fld := ⟨.PRT_STS, 31, 31⟩
def Fld.PRT_STS_TX_FAULT : Fld := ⟨.PRT_STS, 30, 30⟩
def Fld.PRT_STS_LOS : Fld := ⟨.PRT_STS, 29, 29⟩
def Fld.PRT_STS_XCVR_PRESENT : Fld := ⟨.PRT_STS, 28, 28⟩
def Fld.PRT_STS_XCVR_RATED : Fld := ⟨.PRT_STS, 27, 27⟩
def Fld.PRT_STS_CAL_OK : Fld := ⟨.PRT_STS, 26, 26⟩
def Fld.PRT_STS_REFUSE_WHY : Fld := ⟨.PRT_STS, 25, 24⟩
def Fld.PRT_STS_COLLIDED : Fld := ⟨.PRT_STS, 23, 23⟩
def Fld.PRT_STS_WAKE_SEEN : Fld := ⟨.PRT_STS, 22, 22⟩
def Fld.PRT_STS_PEER_RWAKE : Fld := ⟨.PRT_STS, 21, 21⟩
def Fld.PRT_STS_PEER_DUAL_UP : Fld := ⟨.PRT_STS, 20, 20⟩
def Fld.PRT_STS_PEER_RATE5 : Fld := ⟨.PRT_STS, 19, 19⟩
def Fld.PRT_STS_PEER_HUB : Fld := ⟨.PRT_STS, 18, 18⟩
def Fld.PRT_STS_RETRAINS : Fld := ⟨.PRT_STS, 15, 8⟩
def Fld.PRT_STS_RATE : Fld := ⟨.PRT_STS, 4, 4⟩
def Fld.PRT_STS_STATE : Fld := ⟨.PRT_STS, 3, 0⟩
def Fld.PRT_CHG_RETRAIN : Fld := ⟨.PRT_CHG, 11, 11⟩
def Fld.PRT_CHG_CMD_REFUSED : Fld := ⟨.PRT_CHG, 10, 10⟩
def Fld.PRT_CHG_XCVR : Fld := ⟨.PRT_CHG, 9, 9⟩
def Fld.PRT_CHG_ERROR : Fld := ⟨.PRT_CHG, 8, 8⟩
def Fld.PRT_CHG_RATE_REFUSED : Fld := ⟨.PRT_CHG, 7, 7⟩
def Fld.PRT_CHG_RATE_CHG : Fld := ⟨.PRT_CHG, 6, 6⟩
def Fld.PRT_CHG_WAKE : Fld := ⟨.PRT_CHG, 5, 5⟩
def Fld.PRT_CHG_RESUME_DONE : Fld := ⟨.PRT_CHG, 4, 4⟩
def Fld.PRT_CHG_SUSPEND_DONE : Fld := ⟨.PRT_CHG, 3, 3⟩
def Fld.PRT_CHG_RESET_DONE : Fld := ⟨.PRT_CHG, 2, 2⟩
def Fld.PRT_CHG_DISCONNECT : Fld := ⟨.PRT_CHG, 1, 1⟩
def Fld.PRT_CHG_CONNECT : Fld := ⟨.PRT_CHG, 0, 0⟩
def Fld.PRT_LERR_CRC_ERR : Fld := ⟨.PRT_LERR, 31, 16⟩
def Fld.PRT_LERR_HDR_ERR : Fld := ⟨.PRT_LERR, 15, 0⟩
def Fld.PRT_RETRY_REPLAYS : Fld := ⟨.PRT_RETRY, 31, 16⟩
def Fld.PRT_RETRY_POISONED : Fld := ⟨.PRT_RETRY, 15, 0⟩
def Fld.PRT_FEC_UNCORR : Fld := ⟨.PRT_FEC, 31, 16⟩
def Fld.PRT_FEC_CORR_CW : Fld := ⟨.PRT_FEC, 15, 0⟩
def Fld.MOV_SRC_SRC : Fld := ⟨.MOV_SRC, 63, 0⟩
def Fld.MOV_DST_DST : Fld := ⟨.MOV_DST, 63, 0⟩
def Fld.MOV_CNT_CNT : Fld := ⟨.MOV_CNT, 31, 0⟩
def Fld.MOV_CTL_GO : Fld := ⟨.MOV_CTL, 31, 31⟩
def Fld.MOV_CTL_STOP : Fld := ⟨.MOV_CTL, 30, 30⟩
def Fld.MOV_CTL_DESC_SP : Fld := ⟨.MOV_CTL, 27, 26⟩
def Fld.MOV_CTL_PSEL : Fld := ⟨.MOV_CTL, 24, 18⟩
def Fld.MOV_CTL_PACE : Fld := ⟨.MOV_CTL, 17, 16⟩
def Fld.MOV_CTL_RETRY : Fld := ⟨.MOV_CTL, 15, 13⟩
def Fld.MOV_CTL_BURST : Fld := ⟨.MOV_CTL, 12, 10⟩
def Fld.MOV_CTL_DST_SP : Fld := ⟨.MOV_CTL, 9, 8⟩
def Fld.MOV_CTL_SRC_SP : Fld := ⟨.MOV_CTL, 7, 6⟩
def Fld.MOV_CTL_DST_MODE : Fld := ⟨.MOV_CTL, 5, 5⟩
def Fld.MOV_CTL_SRC_MODE : Fld := ⟨.MOV_CTL, 4, 4⟩
def Fld.MOV_CTL_OP : Fld := ⟨.MOV_CTL, 3, 2⟩
def Fld.MOV_CTL_CLASS : Fld := ⟨.MOV_CTL, 1, 1⟩
def Fld.MOV_CTL_DESC : Fld := ⟨.MOV_CTL, 0, 0⟩
def Fld.MOV_STS_STATUS : Fld := ⟨.MOV_STS, 31, 24⟩
def Fld.MOV_STS_STATE : Fld := ⟨.MOV_STS, 23, 21⟩
def Fld.MOV_STS_ENGINE : Fld := ⟨.MOV_STS, 20, 20⟩
def Fld.MOV_STS_CREDITS : Fld := ⟨.MOV_STS, 15, 8⟩
def Fld.MOV_STS_ERR : Fld := ⟨.MOV_STS, 5, 5⟩
def Fld.MOV_STS_EMPTY : Fld := ⟨.MOV_STS, 4, 4⟩
def Fld.MOV_STS_MISMATCH : Fld := ⟨.MOV_STS, 3, 3⟩
def Fld.MOV_STS_STOPPED : Fld := ⟨.MOV_STS, 2, 2⟩
def Fld.MOV_STS_HALT : Fld := ⟨.MOV_STS, 1, 1⟩
def Fld.MOV_STS_DONE : Fld := ⟨.MOV_STS, 0, 0⟩
def Fld.MOV_DPTR_DPTR : Fld := ⟨.MOV_DPTR, 63, 5⟩
def Fld.MOV_CRC_CRC : Fld := ⟨.MOV_CRC, 31, 0⟩
def Fld.MOV_MISOFS_MISOFS : Fld := ⟨.MOV_MISOFS, 31, 0⟩
def Fld.MOV_BIND_SLICE_EN : Fld := ⟨.MOV_BIND, 31, 31⟩
def Fld.MOV_BIND_SLICE : Fld := ⟨.MOV_BIND, 7, 0⟩
def Fld.MOV_GCFG_ENG_RETRY : Fld := ⟨.MOV_GCFG, 10, 8⟩
def Fld.MOV_GCFG_SWCH : Fld := ⟨.MOV_GCFG, 5, 0⟩
def Fld.MOV_GERR_RETRIES : Fld := ⟨.MOV_GERR, 31, 16⟩
def Fld.MOV_GERR_HOST_ERRORS : Fld := ⟨.MOV_GERR, 15, 0⟩
def Fld.MOV_GEVT_CFG_REFUSED : Fld := ⟨.MOV_GEVT, 1, 1⟩
def Fld.MOV_GEVT_BUSY_WRITE : Fld := ⟨.MOV_GEVT, 0, 0⟩
def Fld.MOV_REQSEL_LINE : Fld := ⟨.MOV_REQSEL, 6, 0⟩
def Fld.MOV_REQDROP_DROPPED : Fld := ⟨.MOV_REQDROP, 15, 0⟩
def Fld.ICU_PSET_PEND : Fld := ⟨.ICU_PSET, 31, 0⟩
def Fld.ICU_PCLR_PEND : Fld := ⟨.ICU_PCLR, 31, 0⟩
def Fld.ICU_ESET_EN : Fld := ⟨.ICU_ESET, 31, 0⟩
def Fld.ICU_ECLR_EN : Fld := ⟨.ICU_ECLR, 31, 0⟩
def Fld.ICU_ACT_ACT : Fld := ⟨.ICU_ACT, 31, 0⟩
def Fld.ICU_SRCSEL_SOURCE : Fld := ⟨.ICU_SRCSEL, 10, 0⟩
def Fld.ICU_SRCCFG_TMODE : Fld := ⟨.ICU_SRCCFG, 31, 30⟩
def Fld.ICU_SRCCFG_CORES : Fld := ⟨.ICU_SRCCFG, 29, 26⟩
def Fld.ICU_SRCCFG_VECTOR : Fld := ⟨.ICU_SRCCFG, 24, 14⟩
def Fld.ICU_SRCCFG_SENSE : Fld := ⟨.ICU_SRCCFG, 13, 11⟩
def Fld.ICU_SRCCFG_PRIO : Fld := ⟨.ICU_SRCCFG, 7, 0⟩
def Fld.ICU_PRIGROUP_G : Fld := ⟨.ICU_PRIGROUP, 2, 0⟩
def Fld.ICU_CORESTS_WAIT : Fld := ⟨.ICU_CORESTS, 31, 31⟩
def Fld.ICU_CORESTS_OFFER : Fld := ⟨.ICU_CORESTS, 30, 30⟩
def Fld.ICU_CORESTS_NUM : Fld := ⟨.ICU_CORESTS, 26, 16⟩
def Fld.ICU_CORESTS_BAD_DONE : Fld := ⟨.ICU_CORESTS, 11, 9⟩
def Fld.ICU_CORESTS_RP : Fld := ⟨.ICU_CORESTS, 8, 0⟩
def Fld.ICU_CMOD_TIME_US : Fld := ⟨.ICU_CMOD, 25, 16⟩
def Fld.ICU_CMOD_SPUR : Fld := ⟨.ICU_CMOD, 15, 8⟩
def Fld.ICU_CMOD_CNT : Fld := ⟨.ICU_CMOD, 7, 0⟩
def Fld.ICU_MRVEC_EN : Fld := ⟨.ICU_MRVEC, 31, 31⟩
def Fld.ICU_MRVEC_VECTOR : Fld := ⟨.ICU_MRVEC, 10, 0⟩
def Fld.ICU_ERR_VEC_CONFLICT : Fld := ⟨.ICU_ERR, 31, 16⟩
def Fld.ICU_ERR_CFG_REFUSED : Fld := ⟨.ICU_ERR, 15, 8⟩
def Fld.ICU_ERR_MSIX_OFF : Fld := ⟨.ICU_ERR, 7, 0⟩
def Fld.ICU_VSEL_VECTOR : Fld := ⟨.ICU_VSEL, 10, 0⟩
def Fld.ICU_VMOD_TIME_US : Fld := ⟨.ICU_VMOD, 25, 16⟩
def Fld.ICU_VMOD_CNT : Fld := ⟨.ICU_VMOD, 7, 0⟩
def Fld.ICU_VSTS_IDLE : Fld := ⟨.ICU_VSTS, 31, 31⟩
def Fld.ICU_VSTS_HELD : Fld := ⟨.ICU_VSTS, 30, 30⟩
def Fld.ICU_VSTS_REQS : Fld := ⟨.ICU_VSTS, 7, 0⟩
def Fld.SLC_PASID_PASID : Fld := ⟨.SLC_PASID, 19, 0⟩
def Fld.SLC_WIN_BASE : Fld := ⟨.SLC_WIN, 24, 16⟩
def Fld.SLC_WIN_SIZE : Fld := ⟨.SLC_WIN, 8, 0⟩
def Fld.SLC_HBASE_BASE : Fld := ⟨.SLC_HBASE, 63, 12⟩
def Fld.SLC_HLIM_LIMIT : Fld := ⟨.SLC_HLIM, 63, 12⟩
def Fld.SLC_CNTR_CBASE : Fld := ⟨.SLC_CNTR, 31, 16⟩
def Fld.SLC_CNTR_CCOUNT : Fld := ⟨.SLC_CNTR, 15, 0⟩
def Fld.SLC_STS_PARKED : Fld := ⟨.SLC_STS, 31, 31⟩
def Fld.SLC_STS_RINGS : Fld := ⟨.SLC_STS, 30, 24⟩
def Fld.SLC_STS_STATE : Fld := ⟨.SLC_STS, 18, 16⟩
def Fld.SLC_STS_DB_IGNORED : Fld := ⟨.SLC_STS, 15, 0⟩
def Fld.SLC_ERR_TENANT_BOUNDS : Fld := ⟨.SLC_ERR, 31, 16⟩
def Fld.SLC_ERR_MBX_REFUSED : Fld := ⟨.SLC_ERR, 15, 0⟩
def Fld.PWR_REQ_TARGET : Fld := ⟨.PWR_REQ, 2, 0⟩
def Fld.PWR_STS_STATE : Fld := ⟨.PWR_STS, 31, 29⟩
def Fld.PWR_STS_TARGET : Fld := ⟨.PWR_STS, 28, 26⟩
def Fld.PWR_STS_ENTERING : Fld := ⟨.PWR_STS, 25, 25⟩
def Fld.PWR_STS_EXITING : Fld := ⟨.PWR_STS, 24, 24⟩
def Fld.PWR_STS_QVALID : Fld := ⟨.PWR_STS, 23, 23⟩
def Fld.PWR_STS_QTARGET : Fld := ⟨.PWR_STS, 22, 20⟩
def Fld.PWR_STS_APOINT : Fld := ⟨.PWR_STS, 19, 17⟩
def Fld.PWR_STS_MODE : Fld := ⟨.PWR_STS, 10, 8⟩
def Fld.PWR_STS_LAST_REFUSER : Fld := ⟨.PWR_STS, 7, 0⟩
def Fld.PWR_EVT_REQ_INVALID : Fld := ⟨.PWR_EVT, 7, 7⟩
def Fld.PWR_EVT_EMBER_FAIL : Fld := ⟨.PWR_EVT, 6, 6⟩
def Fld.PWR_EVT_SENSE : Fld := ⟨.PWR_EVT, 5, 5⟩
def Fld.PWR_EVT_SUPERSEDED : Fld := ⟨.PWR_EVT, 4, 4⟩
def Fld.PWR_EVT_ABORTED : Fld := ⟨.PWR_EVT, 3, 3⟩
def Fld.PWR_EVT_LATE : Fld := ⟨.PWR_EVT, 2, 2⟩
def Fld.PWR_EVT_REFUSED : Fld := ⟨.PWR_EVT, 1, 1⟩
def Fld.PWR_EVT_WOKEN : Fld := ⟨.PWR_EVT, 0, 0⟩
def Fld.PWR_WAKE_EN_TWIN : Fld := ⟨.PWR_WAKE_EN, 4, 4⟩
def Fld.PWR_WAKE_EN_PCIE : Fld := ⟨.PWR_WAKE_EN, 3, 3⟩
def Fld.PWR_WAKE_EN_TREE : Fld := ⟨.PWR_WAKE_EN, 2, 2⟩
def Fld.PWR_WAKE_EN_SENSE : Fld := ⟨.PWR_WAKE_EN, 1, 1⟩
def Fld.PWR_WAKE_EN_WAKE_N : Fld := ⟨.PWR_WAKE_EN, 0, 0⟩
def Fld.PWR_SENSE_EN : Fld := ⟨.PWR_SENSE, 31, 31⟩
def Fld.PWR_SENSE_DIR : Fld := ⟨.PWR_SENSE, 30, 30⟩
def Fld.PWR_SENSE_OUT : Fld := ⟨.PWR_SENSE, 29, 29⟩
def Fld.PWR_SENSE_HYST : Fld := ⟨.PWR_SENSE, 18, 16⟩
def Fld.PWR_SENSE_THR : Fld := ⟨.PWR_SENSE, 7, 0⟩
def Fld.PWR_WAKE_CAUSE : Fld := ⟨.PWR_WAKE, 31, 24⟩
def Fld.PWR_WAKE_FROM : Fld := ⟨.PWR_WAKE, 23, 21⟩
def Fld.PWR_WAKE_COLLIDED : Fld := ⟨.PWR_WAKE, 20, 20⟩
def Fld.PWR_WAKE_SEEN : Fld := ⟨.PWR_WAKE, 13, 8⟩
def Fld.PWR_WAKE_PORT : Fld := ⟨.PWR_WAKE, 5, 0⟩
def Fld.PWR_LAT_LAT_NS : Fld := ⟨.PWR_LAT, 31, 0⟩
def Fld.PWR_RSEL_ID : Fld := ⟨.PWR_RSEL, 7, 0⟩
def Fld.PWR_RCNT_EARLY : Fld := ⟨.PWR_RCNT, 31, 16⟩
def Fld.PWR_RCNT_LATE : Fld := ⟨.PWR_RCNT, 15, 8⟩
def Fld.PWR_RCNT_ABORTS : Fld := ⟨.PWR_RCNT, 7, 0⟩
def Fld.HLT_STS_STATE : Fld := ⟨.HLT_STS, 31, 30⟩
def Fld.HLT_STS_SERVICE : Fld := ⟨.HLT_STS, 29, 29⟩
def Fld.HLT_STS_REASONS : Fld := ⟨.HLT_STS, 13, 0⟩
def Fld.HLT_EVT_PORT_RETIRED : Fld := ⟨.HLT_EVT, 7, 7⟩
def Fld.HLT_EVT_REPAIR : Fld := ⟨.HLT_EVT, 6, 6⟩
def Fld.HLT_EVT_SUPPLY : Fld := ⟨.HLT_EVT, 5, 5⟩
def Fld.HLT_EVT_THERMAL : Fld := ⟨.HLT_EVT, 4, 4⟩
def Fld.HLT_EVT_MARGIN : Fld := ⟨.HLT_EVT, 3, 3⟩
def Fld.HLT_EVT_POOL_REDUCED : Fld := ⟨.HLT_EVT, 2, 2⟩
def Fld.HLT_EVT_RETIRED : Fld := ⟨.HLT_EVT, 1, 1⟩
def Fld.HLT_EVT_STATE_CHG : Fld := ⟨.HLT_EVT, 0, 0⟩
def Fld.HLT_START_READY : Fld := ⟨.HLT_START, 31, 31⟩
def Fld.HLT_START_KIND : Fld := ⟨.HLT_START, 30, 28⟩
def Fld.HLT_START_SLOT : Fld := ⟨.HLT_START, 27, 27⟩
def Fld.HLT_START_TRIAL : Fld := ⟨.HLT_START, 26, 26⟩
def Fld.HLT_START_FAILS : Fld := ⟨.HLT_START, 25, 24⟩
def Fld.HLT_START_STARTS : Fld := ⟨.HLT_START, 15, 0⟩
def Fld.HLT_POOL_ACTIVE : Fld := ⟨.HLT_POOL, 24, 16⟩
def Fld.HLT_POOL_SPARES : Fld := ⟨.HLT_POOL, 1, 0⟩
def Fld.HLT_RETIRED_BANKS : Fld := ⟨.HLT_RETIRED, 63, 0⟩
def Fld.HLT_PORTRET_PORTS : Fld := ⟨.HLT_PORTRET, 63, 0⟩
def Fld.HLT_SEL_KIND : Fld := ⟨.HLT_SEL, 10, 8⟩
def Fld.HLT_SEL_INDEX : Fld := ⟨.HLT_SEL, 7, 0⟩
def Fld.HLT_OBJ_OBJ : Fld := ⟨.HLT_OBJ, 63, 0⟩
def Fld.SEC_STS_FLOOR : Fld := ⟨.SEC_STS, 31, 24⟩
def Fld.SEC_STS_SVN : Fld := ⟨.SEC_STS, 23, 16⟩
def Fld.SEC_STS_REVOKED : Fld := ⟨.SEC_STS, 15, 12⟩
def Fld.SEC_STS_SECURE_LOCK : Fld := ⟨.SEC_STS, 11, 11⟩
def Fld.SEC_STS_DEBUG_DISABLE : Fld := ⟨.SEC_STS, 10, 10⟩
def Fld.SEC_STS_DBG_LOCKED : Fld := ⟨.SEC_STS, 9, 9⟩
def Fld.SEC_STS_DBG_LEVEL : Fld := ⟨.SEC_STS, 8, 7⟩
def Fld.SEC_EVT_AUDIT_FULL : Fld := ⟨.SEC_EVT, 3, 3⟩
def Fld.SEC_EVT_DEBUG : Fld := ⟨.SEC_EVT, 2, 2⟩
def Fld.SEC_EVT_FW : Fld := ⟨.SEC_EVT, 1, 1⟩
def Fld.SEC_EVT_TRIAL_FAIL : Fld := ⟨.SEC_EVT, 0, 0⟩
def Fld.SEC_DBG_ALLOW_LEVEL : Fld := ⟨.SEC_DBG_ALLOW, 1, 0⟩
def Fld.SEC_AUDIT_LOST : Fld := ⟨.SEC_AUDIT, 31, 16⟩
def Fld.SEC_AUDIT_HELD : Fld := ⟨.SEC_AUDIT, 8, 0⟩
def Fld.TWN_CFG_ENABLE : Fld := ⟨.TWN_CFG, 16, 16⟩
def Fld.TWN_CFG_PAIR_ID : Fld := ⟨.TWN_CFG, 15, 0⟩
def Fld.TWN_GEN_GEN : Fld := ⟨.TWN_GEN, 31, 0⟩
def Fld.TWN_STS_PAIR : Fld := ⟨.TWN_STS, 31, 30⟩
def Fld.TWN_STS_LINK_UP : Fld := ⟨.TWN_STS, 29, 29⟩
def Fld.TWN_STS_TIME_FLAG : Fld := ⟨.TWN_STS, 28, 28⟩
def Fld.TWN_STS_MINOR_DIFF : Fld := ⟨.TWN_STS, 27, 27⟩
def Fld.TWN_STS_REFUSE_WHY : Fld := ⟨.TWN_STS, 26, 24⟩
def Fld.TWN_STS_PEER_MAJOR : Fld := ⟨.TWN_STS, 23, 16⟩
def Fld.TWN_STS_PEER_MINOR : Fld := ⟨.TWN_STS, 15, 8⟩
def Fld.TWN_STS_PEER_QCLASS : Fld := ⟨.TWN_STS, 2, 0⟩
def Fld.TWN_EVT_BEAT_MISSED : Fld := ⟨.TWN_EVT, 7, 7⟩
def Fld.TWN_EVT_COLD : Fld := ⟨.TWN_EVT, 6, 6⟩
def Fld.TWN_EVT_DENIED : Fld := ⟨.TWN_EVT, 5, 5⟩
def Fld.TWN_EVT_TOKEN_LOST : Fld := ⟨.TWN_EVT, 4, 4⟩
def Fld.TWN_EVT_TAKEOVER : Fld := ⟨.TWN_EVT, 3, 3⟩
def Fld.TWN_EVT_TIME_DISAGREE : Fld := ⟨.TWN_EVT, 2, 2⟩
def Fld.TWN_EVT_CONFIG_MISMATCH : Fld := ⟨.TWN_EVT, 1, 1⟩
def Fld.TWN_EVT_PAIR_CHANGED : Fld := ⟨.TWN_EVT, 0, 0⟩
def Fld.TWN_OFFSET_OFFSET : Fld := ⟨.TWN_OFFSET, 31, 0⟩
def Fld.TWN_DLY_MCONF_MAX : Fld := ⟨.TWN_DLY, 31, 16⟩
def Fld.TWN_DLY_DELAY : Fld := ⟨.TWN_DLY, 15, 0⟩
def Fld.TWN_CNT_BEAT_MISSED : Fld := ⟨.TWN_CNT, 31, 16⟩
def Fld.TWN_CNT_DENIED : Fld := ⟨.TWN_CNT, 15, 8⟩
def Fld.TWN_CNT_SHADOW_MISS : Fld := ⟨.TWN_CNT, 7, 0⟩
def Fld.TWN_OWNED_OWNED : Fld := ⟨.TWN_OWNED, 63, 0⟩
def Fld.TWN_WARM_WARM : Fld := ⟨.TWN_WARM, 63, 0⟩
def Fld.TWN_PMAP_VALID : Fld := ⟨.TWN_PMAP, 31, 31⟩
def Fld.TWN_PMAP_PARTNER : Fld := ⟨.TWN_PMAP, 5, 0⟩
def Fld.GTH_STS_OPEN : Fld := ⟨.GTH_STS, 27, 16⟩
def Fld.GTH_STS_GROUPS : Fld := ⟨.GTH_STS, 8, 0⟩
def Fld.GTH_EVT_UNGROUPED : Fld := ⟨.GTH_EVT, 4, 4⟩
def Fld.GTH_EVT_FORCED : Fld := ⟨.GTH_EVT, 3, 3⟩
def Fld.GTH_EVT_DUPLICATE : Fld := ⟨.GTH_EVT, 2, 2⟩
def Fld.GTH_EVT_UNMATCHED : Fld := ⟨.GTH_EVT, 1, 1⟩
def Fld.GTH_EVT_LATE : Fld := ⟨.GTH_EVT, 0, 0⟩
def Fld.GTH_MEMB_MEMBERS : Fld := ⟨.GTH_MEMB, 13, 0⟩
def Fld.GTH_CNT_SETS : Fld := ⟨.GTH_CNT, 31, 16⟩
def Fld.GTH_CNT_INCOMPLETE : Fld := ⟨.GTH_CNT, 15, 0⟩
def Fld.GTH_DROP_LATE : Fld := ⟨.GTH_DROP, 31, 24⟩
def Fld.GTH_DROP_UNMATCHED : Fld := ⟨.GTH_DROP, 23, 16⟩
def Fld.GTH_DROP_DUPLICATE : Fld := ⟨.GTH_DROP, 15, 8⟩
def Fld.GTH_DROP_SEPARATE : Fld := ⟨.GTH_DROP, 7, 0⟩
def Fld.CDR_STS_CHANNELS : Fld := ⟨.CDR_STS, 23, 16⟩
def Fld.CDR_STS_STREAMS : Fld := ⟨.CDR_STS, 6, 0⟩
def Fld.CDR_BACKLOG_SAMPLES : Fld := ⟨.CDR_BACKLOG, 31, 0⟩
def Fld.CDR_EVT_TRIG_LATE : Fld := ⟨.CDR_EVT, 2, 2⟩
def Fld.CDR_EVT_GAP : Fld := ⟨.CDR_EVT, 1, 1⟩
def Fld.CDR_EVT_RAW_LATE : Fld := ⟨.CDR_EVT, 0, 0⟩
def Fld.CDR_CNT_BLOCKS : Fld := ⟨.CDR_CNT, 31, 0⟩
def Fld.CDR_FLG_RAW : Fld := ⟨.CDR_FLG, 31, 24⟩
def Fld.CDR_FLG_FORCED_LL : Fld := ⟨.CDR_FLG, 23, 16⟩
def Fld.CDR_FLG_GAPS : Fld := ⟨.CDR_FLG, 15, 8⟩
def Fld.CDR_FLG_TRIG_LATE : Fld := ⟨.CDR_FLG, 7, 0⟩
def Fld.IND_ADDR_DOMAIN : Fld := ⟨.IND_ADDR, 31, 24⟩
def Fld.IND_ADDR_WORD : Fld := ⟨.IND_ADDR, 23, 2⟩
def Fld.IND_ADDR_BUSY : Fld := ⟨.IND_ADDR, 1, 1⟩
def Fld.IND_ADDR_INC : Fld := ⟨.IND_ADDR, 0, 0⟩
def Fld.IND_DATA_DATA : Fld := ⟨.IND_DATA, 31, 0⟩
def Fld.MSIX_ADDR_ADDR : Fld := ⟨.MSIX_ADDR, 63, 0⟩
def Fld.MSIX_DATA_DATA : Fld := ⟨.MSIX_DATA, 31, 0⟩
def Fld.MSIX_CTL_MASK : Fld := ⟨.MSIX_CTL, 0, 0⟩
def Fld.MSIX_PBA_PBA : Fld := ⟨.MSIX_PBA, 63, 0⟩
def Fld.MBM_DATA_DATA : Fld := ⟨.MBM_DATA, 31, 0⟩
def Fld.MBM_RECV_RECV : Fld := ⟨.MBM_RECV, 31, 0⟩
def Fld.MBM_POST_LEN : Fld := ⟨.MBM_POST, 6, 0⟩
def Fld.MBM_POP_POP : Fld := ⟨.MBM_POP, 0, 0⟩
def Fld.MBM_STS_OUT_FREE : Fld := ⟨.MBM_STS, 24, 16⟩
def Fld.MBM_STS_IN_COUNT : Fld := ⟨.MBM_STS, 13, 8⟩
def Fld.MBM_STS_IN_LEN : Fld := ⟨.MBM_STS, 6, 0⟩
def Fld.MBM_EVT_POST_REFUSED : Fld := ⟨.MBM_EVT, 3, 3⟩
def Fld.MBM_EVT_SPACE : Fld := ⟨.MBM_EVT, 2, 2⟩
def Fld.MBM_EVT_IN : Fld := ⟨.MBM_EVT, 1, 1⟩
def Fld.MBM_EVT_RESET : Fld := ⟨.MBM_EVT, 0, 0⟩
def Fld.RING_DB_TAIL : Fld := ⟨.RING_DB, 19, 0⟩
def Fld.MBT_DATA_DATA : Fld := ⟨.MBT_DATA, 31, 0⟩
def Fld.MBT_RECV_RECV : Fld := ⟨.MBT_RECV, 31, 0⟩
def Fld.MBT_POST_LEN : Fld := ⟨.MBT_POST, 6, 0⟩
def Fld.MBT_POP_POP : Fld := ⟨.MBT_POP, 0, 0⟩
def Fld.MBT_STS_OUT_FREE : Fld := ⟨.MBT_STS, 24, 16⟩
def Fld.MBT_STS_IN_COUNT : Fld := ⟨.MBT_STS, 13, 8⟩
def Fld.MBT_STS_IN_LEN : Fld := ⟨.MBT_STS, 6, 0⟩
def Fld.MBT_EVT_POST_REFUSED : Fld := ⟨.MBT_EVT, 3, 3⟩
def Fld.MBT_EVT_SPACE : Fld := ⟨.MBT_EVT, 2, 2⟩
def Fld.MBT_EVT_IN : Fld := ⟨.MBT_EVT, 1, 1⟩
def Fld.MBT_EVT_RESET : Fld := ⟨.MBT_EVT, 0, 0⟩
def Fld.MBT_CTL_EN : Fld := ⟨.MBT_CTL, 31, 31⟩
def Fld.MBT_CTL_RING : Fld := ⟨.MBT_CTL, 9, 0⟩
def Fld.SLI_PSET_PEND : Fld := ⟨.SLI_PSET, 1, 0⟩
def Fld.SLI_PCLR_PEND : Fld := ⟨.SLI_PCLR, 1, 0⟩
def Fld.SLI_ESET_EN : Fld := ⟨.SLI_ESET, 1, 0⟩
def Fld.SLI_ECLR_EN : Fld := ⟨.SLI_ECLR, 1, 0⟩
def Fld.SLI_ROUTE_STS_VEC : Fld := ⟨.SLI_ROUTE, 6, 4⟩
def Fld.SLI_ROUTE_MBX_VEC : Fld := ⟨.SLI_ROUTE, 2, 0⟩
def Fld.SLI_IDLE_IDLE : Fld := ⟨.SLI_IDLE, 7, 0⟩
def Fld.SLI_MOD_TIME_US : Fld := ⟨.SLI_MOD, 25, 16⟩
def Fld.SLI_MOD_CNT : Fld := ⟨.SLI_MOD, 7, 0⟩
def Fld.SLI_VSTS_IDLE : Fld := ⟨.SLI_VSTS, 31, 31⟩
def Fld.SLI_VSTS_HELD : Fld := ⟨.SLI_VSTS, 30, 30⟩
def Fld.SLI_VSTS_REQS : Fld := ⟨.SLI_VSTS, 7, 0⟩
def Fld.SLT_EVT_WINDOW : Fld := ⟨.SLT_EVT, 3, 3⟩
def Fld.SLT_EVT_THAWED : Fld := ⟨.SLT_EVT, 2, 2⟩
def Fld.SLT_EVT_RESET : Fld := ⟨.SLT_EVT, 1, 1⟩
def Fld.SLT_EVT_DB_IGNORED : Fld := ⟨.SLT_EVT, 0, 0⟩
def Fld.SLT_STS_PARKED : Fld := ⟨.SLT_STS, 31, 31⟩
def Fld.SLT_STS_RINGS : Fld := ⟨.SLT_STS, 30, 24⟩
def Fld.SLT_STS_STATE : Fld := ⟨.SLT_STS, 18, 16⟩
def Fld.SLT_STS_DB_IGNORED : Fld := ⟨.SLT_STS, 15, 0⟩
def Fld.SLT_ID_PASID : Fld := ⟨.SLT_ID, 27, 8⟩
def Fld.SLT_ID_SLICE : Fld := ⟨.SLT_ID, 7, 0⟩
def Fld.SLT_HBASE_VALUE : Fld := ⟨.SLT_HBASE, 63, 0⟩
def Fld.SLT_HLIM_VALUE : Fld := ⟨.SLT_HLIM, 63, 0⟩
def Fld.SLT_WIN_VALUE : Fld := ⟨.SLT_WIN, 31, 0⟩
def Fld.SLT_CNTR_VALUE : Fld := ⟨.SLT_CNTR, 31, 0⟩
def Fld.SLT_RING_VALID : Fld := ⟨.SLT_RING, 31, 31⟩
def Fld.SLT_RING_RING : Fld := ⟨.SLT_RING, 9, 0⟩
def Fld.TIM_PDLY_MEAN : Fld := ⟨.TIM_PDLY, 31, 0⟩
def Fld.TIM_TRIM_TRIM : Fld := ⟨.TIM_TRIM, 15, 0⟩
def Fld.ICU_CLAIM_NUM : Fld := ⟨.ICU_CLAIM, 10, 0⟩
def Fld.ICU_DONE_NUM : Fld := ⟨.ICU_DONE, 10, 0⟩
def Fld.PWR_MODE_MODE : Fld := ⟨.PWR_MODE, 2, 0⟩

end Sys2Proof.Machine
end

