-- ==== Sys2Proof/Machine/Types.lean ====
section
/-! DEFINITION. Machine/Types.lean: the state of each block of Table 1.1 beside its registers, as plain data. Each field
cites the rule that gives it. -/

namespace Sys2Proof.Machine

/-! ### Time base (chapter 02) -/

/-- The row of Table 2.2 in use. -/
inductive TimeRow where
  | refPps
  | pps
  | irig
  | ptm
  | held
  | never
  deriving DecidableEq, Repr

/-- The time base beside the TIM registers. -/
structure TimeBase where
  /-- The instant of the last command that named one, ns TAI (R36). -/
  now : Nat
  /-- Tick instant of the frame in progress (R48; after a step, of the step tick in the new time, R47). -/
  tickAt : Nat
  /-- Number of the frame in progress (R49). -/
  frameNo : Nat
  /-- FRAMEs are being sent (R51). -/
  framesOn : Bool
  /-- Locked row (R40), and a lock since LABEL_VALID last became 1. -/
  locked : Bool
  everLocked : Bool
  /-- Consecutive accepted phase marks within and outside the class error (R40). -/
  marksIn : Nat
  marksOut : Nat
  /-- A time input was ever valid (Table 2.2, last two rows). -/
  everValid : Bool
  /-- Offsets of the consecutive rejected PPS_IN edges, newest first, and their count (R43). -/
  rejected : List Int
  ppsRejects : Nat
  /-- Consecutive bad IRIG frames, consecutive failed PTM dialogues (R43). -/
  irigBad : Nat
  ptmBad : Nat
  /-- The decoded IRIG time, TAI seconds, held for its on-time mark (R44). -/
  irigLabel : Option Nat
  /-- TIM_LABEL as armed for the next accepted phase mark (R44). -/
  labelArmed : Option Nat
  /-- The pending step, ns to add to the time base, the whole seconds by which a label disagreed in it, and the instant at which the step was
  decided (R46, R47). -/
  stepOfs : Option Int
  stepSec : Int
  stepAt : Option Nat
  /-- The frame in progress is the first after a step (R47). -/
  stepped : Bool
  /-- Error bound in ps, behind TIM_ERR_EST (R42). -/
  errPs : Nat
  /-- What a slew has still to add to the time base, in 10^-6 ns (R45). -/
  slewFs : Int
  /-- A request for a frame rate waits for its judging tick; an accepted one waits for the second boundary (R50). -/
  frateReq : Bool
  frateAcc : Option Nat
  /-- Held halves (R66). -/
  nowHigh : Nat
  heldStart : Nat
  heldLocal : Nat
  /-- PTM_LOCAL behind TIM_PTM_LOCAL. -/
  ptmLocal : Nat
  /-- Values of TIM_CTL, TIM_DISC, TIM_STEP_THR and TIM_HOLD in effect (R67). -/
  effCtl : DWord
  effDisc : DWord
  effThr : DWord
  effHold : DWord
  /-- TIM_TRIMn in effect (R67). -/
  effTrim : Tbl Nat
  /-- PPS_OUT is high, until this instant (R52). -/
  ppsHighUntil : Option Nat
  /-- QCLASS at the tick that started the frame (R65). -/
  tickClass : Nat
  deriving DecidableEq, Repr

/-! ### Policies (chapter 01) -/

/-- Advice given, for APPLY_ADVICE (R30, R197). -/
structure Advice where
  id : Nat
  policy : Nat
  code : Nat
  object : Nat
  deriving DecidableEq, Repr

/-- The adaptive policies (Table 1.10). -/
structure Policy where
  /-- GCTL_POLICY as it last passed its check and took effect at a frame boundary (R29, R32). -/
  inForce : DWord
  /-- The pair was found unequal and reported (R29). -/
  reported : Bool
  /-- Last frame in which a policy changed each port's rate (R31). -/
  rateLast : Tbl Nat
  /-- Bulk share in eighths (1–8) and frames since the backlog fell under one eighth (R31). -/
  share : Nat
  calm : Nat
  /-- THROTTLE_FLOOR was reported since the share last rose. -/
  floorSaid : Bool
  /-- Advice given and not overtaken, and the next ADVICE_ID. -/
  advice : List Advice
  nextAdvice : Nat
  deriving DecidableEq, Repr

/-! ### Links and ports (chapter 03) -/

/-- An entry of the byte stream that a receiver takes from the line: a byte as corrected and as it stood on the line, marked errored or
not (R76); a control code group by its byte; an invalid code group (R71). -/
inductive RxSym where
  | byte (b onLine : Byte) (errored : Bool)
  | ctl (k : Byte)
  | invalid
  deriving DecidableEq, Repr

/-- A packet kept in a replay buffer with its LSEQ and the bytes it occupies (R87). -/
structure Kept where
  lseq : Nat
  pkt : BusPkt
  bytes : Nat
  /-- Of a FRAME: what its departure crossing is added to for CORRECTION (R53, R55, R91), 1/256 ns. -/
  base : Int
  deriving DecidableEq, Repr

/-- The state of one end of a link (R84–R94). -/
structure LinkEnd where
  /-- The link is up (R94), and its rate: 0 for Rate 1, 1 for Rate 5. -/
  up : Bool
  rate : Nat
  /-- Rate 1 sync (R72) and Rate 5 codeword lock (R75). -/
  sync : Bool
  cwLock : Bool
  /-- The receiver's running disparity (true: positive), the last 58 bits of its scrambled line, and the byte stream from the SOP at which
  it stands (R71, R75, R77). -/
  rxRd : Bool
  rxHist : Nat
  rx : List RxSym
  /-- The packet at the front of that stream has passed checks 1–3, and its place upstream is taken (R97). -/
  ticket : Bool
  /-- Next LSEQ to send, next expected. -/
  txSeq : Nat
  rxSeq : Nat
  /-- The replay buffer, oldest first (R87). -/
  replay : List Kept
  /-- Sequenced packets that wait for room in the replay buffer (R87). -/
  queue : List Pkt
  /-- Packets that wait for the FRAME of the tick at hand (R90). -/
  held : List Kept
  /-- A rate change of the downstream end: target, switch frame, NOW (R108). -/
  ratePend : Option (Nat × Nat × Bool)
  /-- LSEQ from which consecutive replays started, and their count (R88). -/
  replayFrom : Nat
  replayCnt : Nat
  /-- Last RETRY sent: expected value and instant (R86). -/
  retryVal : Option Nat
  retryAt : Nat
  /-- CAPS sent with SEEN; CAPS received with SEEN; own FRESH; peer's CAPS argument (R94). -/
  seenSent : Bool
  seenRecv : Bool
  fresh : Bool
  peerCaps : Option Nat
  /-- Rate 5 is not requested again until the next training (R94). -/
  noRate5 : Bool
  /-- Instants of the last echo sent and received, by LINKCTL TYPE (R93). -/
  echoSent : Tbl Nat
  echoRecv : Tbl Nat
  /-- LINKCTL commands sent and not yet echoed (Table 3.8). -/
  waiting : List Linkctl
  /-- Start of a WAKE that is being repeated (Table 3.8: at most 10 ms). -/
  wakeAt : Option Nat
  /-- Errors a hub or module counts: header, CRC, poisoned, discarded (Tables 3.6, R96). -/
  hdrErr : Nat
  crcErr : Nat
  poisoned : Nat
  discarded : Nat
  deriving DecidableEq, Repr

/-- A rate change of a link (Table 3.13): its target and its switch frame S, NOW, whether RATE_REQ left and RATE_ACK came, whether it waits
for the end of a batch (R221), and whether the RATE policy asked for it. -/
structure RateChange where
  target : Nat
  sFrame : Nat
  now : Bool
  reqSent : Bool
  acked : Bool
  deferred : Bool
  byPolicy : Bool
  deriving DecidableEq, Repr

/-- Progress of a SUSPEND (R103). -/
inductive SuspStep where
  | none
  | accepted
  | sent
  | echoed
  deriving DecidableEq, Repr

/-- What a port holds beside PRT_STSn and PRT_CHGn (R98–R110). -/
structure Port where
  /-- A RESET was asked for that waits for its turn (Tables 3.11 and 3.13). -/
  resetPending : Bool
  /-- The RESET or SUSPEND under way was propagated by the hub (R102, R103). -/
  prop : Bool
  /-- The RESET under way belongs to a connect (Table 3.11). -/
  connecting : Bool
  /-- Why it is RESUMING: false host, true wake (Table 3.12). -/
  forWake : Bool
  /-- How far a SUSPEND has come (R103). -/
  susp : SuspStep
  /-- WAKE arrived while a SUSPEND awaits its echo (Table 3.12). -/
  wakeHeld : Bool
  /-- The suspension was propagated by the hub: its resume resumes the port (R103, R104). -/
  suspByProp : Bool
  /-- A training answers a remote wake (R105). -/
  wakeTraining : Bool
  /-- The link ran at Rate 5 when it was suspended (R104, step 2). -/
  rate5Before : Bool
  /-- The rate change under way (Table 3.13). -/
  rateChg : Option RateChange
  /-- A move to Rate 5 while the port is not ENABLED, with NOW = 1 (R94); and a rate asked for that waits for the change under way: a written RATE5_EN
  (its frame left 0), or at a hub port the RATE5 feature with its switch frame (R110). -/
  rateNow : Option RateChange
  cfgWant : Option (Nat × Nat)
  /-- The rate before the switch under way, to which a failed one goes back (Table 3.13). -/
  oldRate : Nat
  /-- Frame up to which hands stay empty and no FRAME is sent (Table 3.13). -/
  emptyTo : Option Nat
  /-- Instants of the last entries to RETRAINING (third within 1 s goes to ERROR). -/
  retrains : List Nat
  /-- PRT_CFGn as it last checked (R118), and the mismatch reported. -/
  cfg : DWord
  cfgReported : Bool
  /-- The RATE policy moved the port to Rate 1, and no manager command has asked for Rate 5 since (R31). -/
  byRate : Bool
  /-- Features of a hub port (R116). -/
  rate5Feature : Bool
  remoteWake : Bool
  /-- LAST_MEAN of a hub port (Table 3.16); root ports have TIM_PDLYn. -/
  lastMean : Nat
  /-- Identification of the transceiver ended (R112), pages being read. -/
  identDone : Bool
  reading : Bool
  /-- A page read that a command XCVR_READ waits for: page number. -/
  xcvrRead : Option Nat
  /-- The calibration block as read (R60). -/
  cal : List Byte
  deriving DecidableEq, Repr

/-- A cage's inputs on the sideband chain: accepted and raw values with equal-scan counts (R113, R114). -/
structure Cage where
  modAbs : Bool
  modAbsRun : Nat
  los : Bool
  losRun : Nat
  txFault : Bool
  txFaultRun : Nat
  deriving DecidableEq, Repr

/-- The module sideband chain (R113, R114). -/
structure Sideband where
  cages : Tbl Cage
  chainBad : Nat
  chainGood : Nat
  fault : Bool
  /-- TX_DISABLE outputs as last shifted out, bit c for cage c. -/
  txDisable : DWord
  deriving DecidableEq, Repr

/-! ### Hubs and modules (chapters 02, 03, 04, 12) -/

/-- The command a module has armed or executed on a COMMAND endpoint (R131). -/
structure ModCmd where
  execAt : Nat
  payload : List Byte
  deriving DecidableEq, Repr

/-- A kept sample block of a CYCLIC endpoint (R262). -/
structure ModBlock where
  stamp : Nat
  bseq : Nat
  bytes : List Byte
  deriving DecidableEq, Repr

/-- A queued event at a module (Table 4.3). -/
structure ModEvent where
  stamp : Nat
  bytes : List Byte
  deriving DecidableEq, Repr

/-- An endpoint of a hub or module. -/
structure DevEp where
  /-- Class, largest packet, BURST, toggle, halted (R133, R142). -/
  cls : Nat
  mps : Nat
  burst : Nat
  toggle : Nat
  halted : Bool
  /-- Room for OUT data; after NOTYET the endpoint wants PING (R134). -/
  ready : Bool
  notyet : Bool
  /-- IN data held (BULK, one packet each). -/
  dataIn : List (List Byte)
  /-- OUT data stored. -/
  dataOut : List (List Byte)
  /-- Of an EVENT endpoint: its queue (Table 4.3). Of a CYCLIC endpoint: kept blocks and the next BSEQ (R262). -/
  events : List ModEvent
  blocks : List ModBlock
  bseq : Nat
  /-- CALL_INs of the frame in progress, and the blocks given in it that were not acknowledged, by TAG, for a repeated one (R132). -/
  sentFrame : Option Nat
  calls : Nat
  sent : List (Nat × ModBlock)
  /-- Toggle of the last executed command, its stored echo and that it was late, the armed commands (R131). -/
  lastToggle : Option Nat
  echo : Option (List Byte)
  echoLate : Bool
  armed : List ModCmd
  deriving DecidableEq, Repr

/-- The control transfer in progress on a device's endpoint 0 (R137). -/
structure DevCtl where
  setup : List Byte
  /-- 0 data stage, 1 status stage, 2 the status stage is over. -/
  stage : Nat
  /-- Bytes of the data stage moved; the bytes that the last DATA of an IN stage carried. -/
  done : Nat
  sent : Nat
  data : List Byte
  /-- The request was carried out. -/
  ready : Bool
  /-- PID (the toggle) of the last accepted DATA of an OUT stage: a repetition of it is answered again (R132). -/
  lastOut : Option Nat
  deriving DecidableEq, Repr

/-- The delay of an upstream link as its downstream end measures it (R57–R59), in 1/256 ns. -/
structure Delay where
  /-- A of the link (R144). -/
  asym : Int
  /-- The last accepted mean, and the consecutive rejected results. -/
  mean : Option Int
  rejects : List Int
  /-- SEQ of the last request; t1 of the one outstanding; repeat it after the next accepted FRAME. -/
  reqSeq : Nat
  reqT1 : Option Int
  reqAgain : Bool
  deriving DecidableEq, Repr

/-- The token of a dual-upstream hub (R382–R384). -/
structure HubToken where
  holder : Option Nat
  epoch : Nat
  /-- A grant that takes effect at this frame: claimant and FRAME_NO. -/
  pendingHolder : Option (Nat × Nat)
  /-- FRAME_NO of the holder's TOKEN_RELEASE. -/
  releaseAt : Option Nat
  /-- The upstream port to which the current EPOCH was granted, with the FRAME_NO of the grant. -/
  granted : Option (Nat × Nat)
  missed : Nat
  gotFrame : Bool
  /-- Transactions forwarded and not yet answered: the upstream port they came from, and their header bytes 8–10. -/
  asked : List (Nat × Nat)
  deriving DecidableEq, Repr

/-- A hub or module as the rules that bind it describe it. -/
structure Device where
  /-- 1 module, 2 hub, 3 dual-upstream hub (Table 4.11). -/
  kind : Nat
  /-- Root port of its tree, its route, its tier. -/
  port : Nat
  route : Nat
  tier : Nat
  nports : Nat
  /-- Its address, and one that takes effect after the status stage (R138). -/
  addr : Nat
  pendingAddr : Option Nat
  /-- Its state (Table 4.10). -/
  st : Nat
  /-- Its endpoints, by address, and the control transfer on endpoint 0 (R137). -/
  eps : Tbl DevEp
  ctl : Option DevCtl
  /-- Its identity records and calibration blocks, by what GET_RECORD names (R138, R143). -/
  records : Tbl (List Byte)
  /-- Feature REMOTE_WAKE (Table 4.9). -/
  remoteWake : Bool
  /-- Its upstream links' delays, by upstream port. -/
  delays : Tbl Delay
  /-- What its clock has added to its oscillator, and the slew that it works off, 1/256 ns (R56). -/
  clk : Int
  slew : Int
  /-- Its own time when the slew was last worked off. -/
  slewAt : Int
  /-- Synchronised (R61); local ticks since the last FRAME that counted (R61). -/
  synced : Bool
  frameMiss : Nat
  /-- FRAME_NO of the last FRAME accepted, and the FRAMEs discarded as bad (R54). -/
  lastFrame : Option Nat
  badFrames : Nat
  /-- Its upstream link is suspended (R103). -/
  suspended : Bool
  /-- Instant of the oldest change that the hub's bitmap reports (R121). -/
  chgAt : Option Nat
  /-- Ports that echoed RESET or SUSPEND so far are those no longer `waiting` on their link ends; this is the pending echo: type and upstream port. -/
  owesEcho : Option (Nat × Nat)
  /-- Packets from its downstream ports on their way upstream, in the order in which their headers passed checks 1–3; none where the packet
  has not passed the rest yet (R97). -/
  upq : List (Nat × Option Pkt)
  /-- Of a dual-upstream hub: the ownership token (R382). -/
  token : HubToken
  deriving DecidableEq, Repr

/-! ### Endpoint contexts and pockets (chapter 04) -/

/-- An endpoint context (Table 4.15): the key words with their complements, the controller's word 32–35 and the rest. -/
structure Ctx where
  key0 : Nat
  key0n : Nat
  key1 : Nat
  key1n : Nat
  key2 : Nat
  key2n : Nat
  w32 : Nat
  wrPtr : Nat
  rdPtr : Nat
  rtt : Nat
  nyLimit : Nat
  overrun : Nat
  link : Nat
  priv : Nat
  deriving DecidableEq, Repr

/-- An event landed in a pocket (R126, R227), with the time-quality class of the frame in which its transaction completed (R65). -/
structure PktEvent where
  stamp : Nat
  bytes : List Byte
  more : Bool
  qclass : Nat
  deriving DecidableEq, Repr

/-- A CYCLIC block landed in a pocket (R264). -/
structure Block where
  eph : Nat
  stamp : Nat
  bseq : Nat
  bytes : List Byte
  qclass : Nat
  frame : Nat
  deriving DecidableEq, Repr

/-- A slot of the context cache: the context, and the bookkeeping held outside the context and the pocket (R158). -/
structure CtxSlot where
  ctx : Ctx
  /-- Bytes of the pocket in use. -/
  used : Nat
  /-- Events and sample blocks that landed in the pocket, oldest first (R126, R264). -/
  events : List PktEvent
  blocks : List Block
  /-- The state left by EP_STOP (Table 4.17). -/
  leftState : Nat
  /-- Failed R152: treated as HALTED until installed again; and its INTEGRITY event was written (R411). -/
  bad : Bool
  /-- An overrun was reported since the last ENDPOINT event (R188); its event waits for the thaw of the slice (R347). -/
  overrunSaid : Bool
  overrunOwed : Bool := false
  /-- An answer of the transfer arrived poisoned (R130); consecutive duplicates in the transaction (Table 4.5). -/
  poisonSeen : Bool
  dups : Nat
  /-- Place in the order of use (R155). -/
  lru : Nat
  /-- Address of the directory that it came from (R162); none where it was installed while there was no table. -/
  table : Option Nat
  /-- Changed since the last SHADOW records, and a transaction ran since then (R387). -/
  dirty : Bool
  ran : Bool
  deriving DecidableEq, Repr

/-- A change of many contexts at once, which reaches contexts that are in host memory when they are next fetched (log entry 10). -/
inductive CtxEvent where
  /-- R150 and SUBTREE_GONE: the port's contexts whose route matches in tier fields 1 to `depth`. -/
  | gone (port route depth : Nat)
  /-- R148. -/
  | reset (port route depth : Nat)
  /-- SET_CONFIGURATION completed OK (Table 4.17). -/
  | config (port addr : Nat) (on : Bool)
  /-- Step 5 of a slice reset (R343). -/
  | stop (owner : Nat)
  /-- The contexts of a tree become shadows, or cease to be (R385, R393). -/
  | shadow (port : Nat) (on : Bool)
  /-- CLEAR_HALT or RESET_ENDPOINT completed OK for an endpoint (R133, Table 4.17). -/
  | clear (eph : Nat)
  /-- The pool ends at so many units of 64 KiB (R336). -/
  | cut (units : Nat)
  deriving DecidableEq, Repr

/-- The context manager beside the SCH_CTX registers. -/
structure CtxMgr where
  /-- Held copy of SCH_CTXDIR and its complement (R162). -/
  dir : DWord
  dirN : DWord
  unequal : Bool
  reported : Bool
  /-- Fetches under way (R155), by EPH. -/
  fetching : List Nat
  /-- Order of use (R155). -/
  clock : Nat
  /-- Changes of many contexts so far, each with whether ENDPOINT events report it (R188), and how many of them had happened when a context was
  written back, by EPH. -/
  events : List (CtxEvent × Bool)
  left : Tbl Nat
  /-- What the controller keeps beside the contexts that it evicted: pocket contents and failed checks (R152, R158), by EPH. -/
  away : Tbl CtxSlot
  /-- Identity records that ENUMERATE read (R146), by port and ROUTE (key 2^35 × port + ROUTE). -/
  known : Tbl (List Byte)
  /-- The state that a STOPPED context in host memory left (Table 4.17), by EPH. -/
  stopped : Tbl Nat
  deriving DecidableEq, Repr

/-- Kinds of transaction (Table 4.4). -/
inductive TxnKind where
  | callIn
  | callOut
  | command
  | setup
  | ping
  deriving DecidableEq, Repr

/-- A transaction in flight on a root port (R123). -/
structure Txn where
  port : Nat
  tag : Nat
  eph : Nat
  kind : TxnKind
  toggle : Nat
  /-- Data sent with it. -/
  data : List Byte
  /-- The dealer entry it serves, if any. -/
  entry : Option Nat
  /-- 1 for the first attempt. -/
  attempt : Nat
  /-- The frame of its hand. -/
  frame : Nat
  /-- The slice was reset while it was on the wire: its data and status are discarded (Table 10.8, step 4). -/
  cut : Bool
  /-- The departure crossing of the last byte sent of it so far, in tenths of a ns (R128). -/
  depart : Option Nat := none
  deriving DecidableEq, Repr

/-! ### Rings, descriptors and commands (chapter 05) -/

/-- A ring (R163–R172). -/
structure Ring where
  /-- Table 5.4. -/
  st : Nat
  /-- Geometry word and the held complement (Table 5.3, R412). -/
  geo : DWord
  geoN : DWord
  head : Nat
  tail : Nat
  /-- PHASE of the records it writes (R167), and the reason of its last entry to ERROR (Table 5.17). -/
  phase : Bool
  reason : Nat
  /-- Owning slice and doorbell index; manager rings 0–3 have none. -/
  slice : Option Nat
  dbIdx : Nat
  evtRing : Nat
  vector : Nat
  /-- Records kept while there is no room, and those lost (R191). -/
  kept : List (List Byte)
  lost : Nat
  /-- The instants at which the kept ones arose (R347). -/
  keptAt : List Nat := []
  /-- Indices of entries handed over and not yet taken that TD_CANCEL named: they complete CANCELLED when they are taken (R197). -/
  cancelled : List Nat
  /-- Entries handed over and not yet taken, by doorbell: how many, and the doorbell's number (R224). -/
  bells : List (Nat × Nat)
  /-- The TD at HEAD needs a frame key, and every place of the delay lists was in use when it was to be taken (R239). -/
  nbStuck : Bool := false
  deriving DecidableEq, Repr

/-- A transfer descriptor as read (Table 5.11). -/
structure Td where
  bytes : List Byte
  deriving DecidableEq, Repr

/-- The completion of a TD (R181, R182). -/
structure Done where
  status : Nat
  len : Nat
  late : Bool
  ts : Option Nat
  qclass : Nat
  more : Bool
  deriving DecidableEq, Repr

/-- Where a dealer entry stands (R225–R227). -/
inductive EntrySt where
  | waiting
  | ready
  | running
  | done
  | ended
  deriving DecidableEq, Repr

/-- A key of the delay lists (R235). -/
inductive DelayKey where
  | time (t : Nat)
  | frame (n : Nat)
  deriving DecidableEq, Repr

/-- A TD taken from a ring, or a chain of them: a dealer entry until it ends (R223), kept until OWN of its last TD is
cleared (R184). -/
structure Entry where
  id : Nat
  slice : Nat
  ring : Nat
  /-- Ring indices and images of the TDs of the chain. -/
  tds : List (Nat × Td)
  /-- Number of the doorbell that handed it over (R224). -/
  bell : Nat
  /-- Checks 4 to 8 of Table 5.14 wait for its context (R155); the host read of its buffer failed. -/
  needCtx : Bool
  hostFail : Bool
  /-- It passed Table 5.14: it is a dealer entry (R223). -/
  isEntry : Bool
  /-- A control transfer the controller runs on an owner's behalf (R227): the command's ring and index. -/
  forCmd : Option (Nat × Nat)
  eph : Nat
  kind : Nat
  flow : Nat
  len : Nat
  st : EntrySt
  /-- Condition 2 was met (R231: readiness given is not taken back). -/
  waitMet : Bool
  /-- Counter incremented (R229). -/
  counted : Bool
  /-- The instant at which its received data last landed (R347). -/
  landed : Nat := 0
  delay : Option DelayKey
  nakRun : Nat
  nyFrom : Option Nat
  spilled : Bool
  /-- Bus activity has started (R197). -/
  started : Bool
  /-- Data in the pocket for OUT and COMMAND; data received for IN. -/
  data : List Byte
  /-- Bytes moved on the bus. -/
  moved : Nat
  /-- Control transfer: 0 SETUP, 1 data, 2 status; the SETUP bytes. -/
  stage : Nat
  setup : List Byte
  /-- Timestamp and class of the last completed transaction (R64, R65); MORE and LATE as last answered. -/
  ts : Option Nat
  qc : Nat
  more : Bool
  late : Bool
  done : Option Done
  /-- Bytes of `data` written to host memory so far (R182, R183). -/
  hostOut : Nat
  /-- Write-back step 1 made. -/
  step1 : Bool
  /-- Bytes sent from the pocket that have been put there (R159, R160). -/
  loaded : Nat := 0
  /-- Its place in the order in which entries went on the delay lists (R235). -/
  delayNo : Nat := 0
  deriving DecidableEq, Repr

/-- A command taken from a COMMAND ring, in progress or completed (R193, R194). -/
structure CmdRec where
  ring : Nat
  idx : Nat
  slice : Option Nat
  op : Nat
  bytes : List Byte
  status : Option Nat
  result : Nat
  /-- A step counter of a command that takes several commands of the block to complete. -/
  stage : Nat
  /-- A number the command holds on to. -/
  arg : Nat
  /-- ENUMERATE: the context table as the host holds it, what step 6 sets, and the records read. -/
  host : CtxHost := ⟨[]⟩
  eps : List EnumEp := []
  recs : List (List Byte) := []
  deriving DecidableEq, Repr

/-! ### Periodic schedule (chapter 06) -/

/-- A periodic entry as it is stored (Table 6.1): bytes 0–7 and their complement. -/
structure SchedEnt where
  word : DWord
  wordN : DWord
  reported : Bool
  deriving DecidableEq, Repr

/-- What a batch is made of: a change list, SCHED_CLEAR's mask (R222), or the withdrawal of a reset slice (R345). -/
inductive BatchKind where
  | list
  | clear (mask : Nat)
  | withdraw (slice : Nat)
  /-- The periodic entries of a restored slice (R349): its command has completed. -/
  | restore (slice : Nat)
  deriving DecidableEq, Repr

/-- A batch being admitted or committed (R210–R216). -/
structure Batch where
  kind : BatchKind
  /-- The command: ring and index; none for a withdrawal. Its slice, for a tenant's. -/
  cmd : Option (Nat × Nat)
  slice : Option Nat
  /-- Change entries: bytes 0–7 and 8–15. -/
  changes : List (DWord × DWord)
  /-- COMMIT_FRAME, with ARG1.AT. -/
  at_ : Option Nat
  /-- F, and the byte time of each root port, when admission started (R211, check 9). -/
  frate : Nat
  rates : Tbl Nat
  admitted : Bool
  /-- Once admitted: staged tables of the touched trees, atomic or staged, C, and the trees still to switch. -/
  staged : Tbl (List SchedEnt)
  atomic : Bool
  commitAt : Nat
  toSwitch : List Nat
  deriving DecidableEq, Repr

/-- A re-check that waits for a frame boundary (Table 6.9). -/
inductive Recheck where
  | reserve (ring idx port slice res : Nat)
  | rate (port : Nat)
  deriving DecidableEq, Repr

/-- The schedule block beside its registers. -/
structure Sched where
  /-- Active tables by tree. -/
  active : Tbl (List SchedEnt)
  /-- RES(s, t), key 256 t + s (R209). -/
  res : Tbl Nat
  batch : Option Batch
  /-- Batches taken and waiting for their admission, oldest first (R211). -/
  queue : List Batch
  rechecks : List Recheck
  /-- PCT and AMAX in force (R221), with the mismatch reported. -/
  pct : Nat
  capReported : Bool
  amax : Tbl Nat
  amaxReported : List Nat
  /-- SCH_CAP, and the SCH_AMAXn, that were written and not yet judged (R221). -/
  pctPend : Bool
  amaxPend : List Nat
  /-- A change that fell due during a batch waits for the next frame boundary, and the next batch with it (R221). -/
  held : Bool := false
  deriving DecidableEq, Repr

/-- One transaction of a hand (R217). `s` is S in tenths of a ns, `a` is A in ns. -/
structure HandItem where
  cls : Nat
  eph : Nat
  kind : TxnKind
  entry : Option Nat
  s : Nat
  a : Nat
  cost : Nat
  slice : Nat
  retry : Bool
  started : Bool
  lateFill : Bool
  /-- The group charged (R247), the data bytes planned, and for a retry the TAG that it may not take (R123). -/
  group : Nat := 0
  plan : Nat := 0
  avoid : Option Nat := none
  deriving DecidableEq, Repr

/-- The hand of a tree for one frame (R217), with the counts of work that missed it (Table 7.5). -/
structure Hand where
  frame : Nat
  items : List HandItem
  complete : Bool
  /-- W of the composed periodic part, ns. -/
  wns : Nat
  deadline : Bool
  guard : Bool
  cmdMoved : Nat
  evtMoved : Nat
  cycMissed : Nat
  /-- Start of the last transaction started plus its S, in tenths of a ns from the tick, and its A (R218); for none, F0 and 0. -/
  nextAt : Nat
  lastA : Nat
  deriving DecidableEq, Repr

/-! ### Dealer (chapter 07) -/

/-- Deficits and turns of one tree (R243). -/
structure Drr where
  gcur : Nat
  gnew : Bool
  gd : Tbl Int
  sd : Tbl Int
  scur : Tbl Nat
  snew : Tbl Bool
  deriving DecidableEq, Repr

/-- A place on a ready list (R227): list (0 COMMAND, 1 CONTROL, 2 BULK), tree, slice, entry. -/
structure Listed where
  list : Nat
  tree : Nat
  slice : Nat
  entry : Nat
  deriving DecidableEq, Repr

/-- The dealer beside its registers. -/
structure Dealer where
  nextId : Nat
  lists : List Listed
  /-- Dependence counters that are not 0 (R228). -/
  counters : Tbl Nat
  drr : Tbl Drr
  /-- Hands being composed (for the frame after the one in progress) and running, by tree. -/
  next : Tbl Hand
  run : Tbl Hand
  /-- EVENT polls to be made once in the next open hand (Table 7.4), by tree. -/
  extraPolls : Tbl (List Nat)
  /-- Bulk weight and group in force, and pending at the next tick; key 256 t + s; weights packed w + 256 g. -/
  share : Tbl Nat
  sharePend : Tbl Nat
  gw : Tbl Nat
  quota : Nat
  /-- Spill: area in use, and its blocks, as sampled (R254). -/
  spillOn : Bool
  spillBase : DWord
  spillBlocks : Nat
  /-- SEQ of the next trace record (R192). -/
  traceSeq : Nat
  /-- Number of the last doorbell (R224). -/
  bellSeq : Nat
  /-- TAG of the last transaction of each endpoint, by EPH: a retry takes another (R123). -/
  lastTag : Tbl Nat
  /-- Number of the last place taken on the delay lists (R235). -/
  delaySeq : Nat
  deriving DecidableEq, Repr

/-! ### Slices and mailboxes (chapter 10) -/

/-- One way of a mailbox: messages, oldest first, and the staging area of its sender (R339). -/
structure Mailbox where
  msgs : List (List Byte)
  staging : Tbl Word
  deriving DecidableEq, Repr

/-- A slice beside its SLC registers (R328–R353). The state is SLC_STSs.STATE. -/
structure Slice where
  /-- Binding and bounds in use, with the complement held (R330, R332). -/
  pasid : Nat
  hbase : DWord
  hbaseN : DWord
  hlim : DWord
  hlimN : DWord
  win : DWord
  winN : DWord
  cntr : DWord
  cntrN : DWord
  /-- The pair in use failed its check and is reloaded at the next frame boundary (R332). -/
  reload : Bool
  boundsSaid : Bool
  /-- The SLC_WIN pair was written and is not yet judged (R335); found unequal since it was written, it has been reported. -/
  winPend : Bool
  winSaid : Bool
  /-- Mailboxes: `down` manager to tenant, `upw` tenant to manager (R339). -/
  down : Mailbox
  upw : Mailbox
  /-- Waiting for a frame boundary: SLICE_FREEZE and SLICE_THAW, by the command's index on ring 0 (R346, R347). -/
  freezeCmd : Option Nat
  thawCmd : Option Nat
  /-- A reset under way: the command's index on ring 0, whether it is SLICE_DISABLE, the entries discarded (R343, R352). -/
  resetFor : Option Nat
  disabling : Bool
  discarded : Nat
  /-- Parked from this frame (R350). -/
  parkAt : Option Nat
  /-- A save with MIGRATE that waits for its frame: the command's index on ring 0, and the contexts that are in host memory only. -/
  saving : Option (Nat × List (List Byte))
  /-- A thaw under way (R347), and its instant: the write-backs that were held, of entries and of commands, and the entries whose data was. -/
  releasing : Bool := false
  relAt : Nat := 0
  relWb : List Nat := []
  relCmd : List (Nat × Nat) := []
  relHost : List Nat := []
  deriving DecidableEq, Repr

/-! ### Interrupt controller (chapter 11) -/

/-- An interrupt source (R356–R361). -/
structure Source where
  line : Bool
  pend : Bool
  en : Bool
  act : Bool
  prio : Nat
  tmode : Nat
  cores : Nat
  vector : Nat
  sense : Nat
  /-- Priority at the claim and the core it is active on (R361). -/
  claimPrio : Nat
  onCore : Nat
  /-- The instant of the last edge that set PEND, and of the last write at the SET address (R357). -/
  hwAt : Option Nat := none
  swAt : Option Nat := none
  deriving DecidableEq, Repr

/-- What a supervisor core does about interrupts (R360–R364). -/
inductive CoreSt where
  | idle
  | switching
  | handling
  | exiting
  deriving DecidableEq, Repr

/-- A supervisor core beside ICU_CORESTSn and ICU_CMODn. `depth` is the number of register sets in its save area; `since` is the instant at
which it began to store or to reload its registers (R360, R364); `held` is the instant from which an offer to it is held by its moderation (R370). -/
structure Core where
  st : CoreSt
  depth : Nat
  since : Nat
  held : Option Nat := none
  deriving DecidableEq, Repr

/-- An MSI-X vector (R367–R372); the instants of its last request and of the last write of its idle hint (R374). -/
structure Vector where
  cnt : Nat
  timeUs : Nat
  reqs : Nat
  first : Nat
  idle : Bool
  held : Bool
  addr : DWord
  data : DWord
  mask : Bool
  pba : Bool
  reqAt : Option Nat := none
  idleAt : Option Nat := none
  deriving DecidableEq, Repr

/-- The interrupt controller. -/
structure Icu where
  sources : Tbl Source
  cores : Tbl Core
  lastCore : Nat
  vectors : Tbl Vector
  /-- MSI-X Enable and Function Mask of the PCIe function (R372). -/
  msixEn : Bool
  fmask : Bool
  deriving DecidableEq, Repr

/-! ### Power controller and ember memory (chapter 14) -/

/-- What ember memory retains through DEEP (Table 14.7). -/
structure Ember where
  /-- Regions 1 to 6: the registers written at the entry, by their key. -/
  regs : Tbl DWord
  /-- Region 1: the time base at entry. -/
  tim : Option TimeBase
  /-- Region 2: link state of the root ports, and the ports beside their registers. -/
  links : Tbl LinkEnd
  ports : Tbl Port
  /-- Region 6: the sources' configurations. -/
  srcs : Tbl Source
  /-- Region 7, reserved for firmware: bytes by offset. -/
  fw : List Host.Cell
  /-- Region 0: a supply failure is recorded (R484). -/
  supplyFail : Bool
  deriving DecidableEq, Repr

/-- The power controller beside the PWR registers. -/
structure Power where
  /-- The entry that runs, or the queued request, was asked for by the POWER policy (R420). -/
  byPolicy : Bool
  qByPolicy : Bool
  /-- A request was taken and the cores have not all executed WAIT yet (Table 14.3, step 1). -/
  requested : Bool
  /-- SLEEP was entered for the POWER policy, and its POLICY_ACTION is still to be written, once records can be. -/
  polOwed : Bool := false
  /-- An abort waits for the next abort point: the identifier (R426). -/
  abortBy : Option Nat
  /-- A wake seen after abort point 6: identifier, SEEN bit, port (R426). -/
  wakeLater : Option (Nat × Nat × Nat)
  /-- Rows of Table 14.6 still to run in this exit or rollback; the exit is a rollback. -/
  rows : List Nat
  rollback : Bool
  /-- POWER events that wait for the mover (R437). -/
  events : List (List Byte)
  /-- Ports that the entry suspended. -/
  suspended : List Nat
  /-- Instant of the wake, and of the entry into the state (R433, R436). -/
  wakeAt : Nat
  entryAt : Nat
  /-- CLK_AON and the PLLs: rails released. -/
  railsOff : Bool
  /-- PERST_N is low and holds the controller in reset (R480); the retained firmware image is invalid (R484). -/
  perst : Bool
  imageBad : Bool
  ember : Ember
  deriving DecidableEq, Repr

/-! ### Twin pairs (chapter 12) -/

/-- A twin message: its kind and payload (Tables 12.1, 12.2). -/
structure TwinMsg where
  kind : Nat
  payload : List Byte
  deriving DecidableEq, Repr

/-- A sequenced twin message in the replay buffer (R377). -/
structure TwinKept where
  lseq : Nat
  msg : TwinMsg
  deriving DecidableEq, Repr

/-- A stored intent (R390): toggle, EXEC_AT, payload with its complement. -/
structure Intent where
  toggle : Nat
  execAt : Nat
  data : List Byte
  deriving DecidableEq, Repr

/-- What a controller holds about the token of a shared tree (R383–R393). -/
structure TwinTree where
  epoch : Nat
  holder : Nat
  you : Bool
  /-- EPOCH and HOLDER were reported by the hub. -/
  known : Bool
  /-- The token message being repeated (Table 12.5) and the instant of its first sending. -/
  msg : Option Linkctl
  msgAt : Nat
  /-- A claim waits for TOKEN_STATE: forced, FRAME_NO. -/
  claim : Option (Bool × Nat)
  /-- The claim belongs to the TAKEOVER policy or to a hand-over (R391). -/
  byPolicy : Bool
  /-- First frame of ownership, while it lies ahead (R393). -/
  ownFrom : Option Nat
  /-- Ticks since the root port left ENABLED (R392); HANDOVER was sent for this loss. -/
  outTicks : Nat
  handed : Bool
  /-- Nothing is composed for the tree (R385, R392); it is composed no more from this frame (R398). -/
  silent : Bool
  releaseAt : Option Nat
  /-- The partner's hand-over of the tree at S (Table 12.8). -/
  takeAt : Option Nat
  /-- The full shadow set is owed at the end of the frame (R387). -/
  full : Bool
  /-- The command that waits for the claim; the first frame of ownership lies no earlier than this instant (R393). -/
  cmd : Option (Nat × Nat)
  notBefore : Nat
  /-- The tree was WARM when it was taken (R394). -/
  wasWarm : Bool
  /-- TWIN_CLAIM or TWIN_FORCE (true) that waits for the claim in progress to complete, and its command (R33). -/
  queued : Option (Bool × Nat × Nat) := none
  /-- The TOKEN_RELEASE being repeated until S (Table 12.5); the grant of the token named a frame S (R393). -/
  rel : Option Linkctl := none
  atS : Bool := false
  deriving DecidableEq, Repr

/-- The twin link and the pair beside the TWN registers. -/
structure Twin where
  /-- TWN_CFG, TWN_GEN and TWN_PMAPn as sampled (partner's port by local port, VALID = 1 only). -/
  enabled : Bool
  pairId : Nat
  gen : Nat
  pmap : Tbl Nat
  /-- Link retry (R377, R84–R88). -/
  txSeq : Nat
  rxSeq : Nat
  replay : List TwinKept
  queue : List TwinMsg
  replayFrom : Nat
  replayCnt : Nat
  retryVal : Option Nat
  retryAt : Nat
  /-- A pair state decided and not yet taken: state, REFUSE_WHY (R380). -/
  pairNext : Option (Nat × Nat)
  minorSaid : Bool
  /-- Consecutive missed BEATs (Table 12.8). -/
  missed : Nat
  /-- T_TX and the reception instant of the last one received (R379). -/
  peerGen : Nat
  peerTx : Nat
  peerRx : Nat
  peerOwned : Nat
  peerWarm : Nat
  /-- The partner's last BEAT shows that it has received one (R377). -/
  peerHeard : Bool := false
  peerFlag : Bool
  /-- Consecutive BEATs with an offset above 500 ns, below 400 ns (Table 12.9a). -/
  offHigh : Nat
  offLow : Nat
  /-- MIRROR records (R388): next MSEQ to send, how many are confirmed, those sent with their instants; next MSEQ to apply. -/
  mseqTx : Nat
  confirmed : Nat
  mirrored : Tbl Nat
  mseqRx : Nat
  /-- MSEQ of the CMD_INTENT of each COMMAND endpoint that is in a hand, by EPH. -/
  intentSeq : Tbl Nat
  /-- EVENT data that waits for its MCONF (R389): EPH, MSEQ, tag, packet. -/
  heldEvents : Tbl (Nat × Pkt)
  /-- Intents stored here, by local EPH, and those sent and not yet resolved (R390, R394). -/
  intents : Tbl Intent
  resolving : Tbl Intent
  /-- DIRTY of the last two SHADOW records of each handle: bit 0 the newer (R394). -/
  dirtyBits : Tbl Nat
  /-- Handles that a full shadow named (R387): the others take a cold start. -/
  shadowed : List Nat
  /-- Endpoints that take a CLEAR_HALT before their first transaction (R394). -/
  toClear : List Nat
  /-- BSEQ of the last block stored of each CYCLIC endpoint (Table 12.6). -/
  lastBseq : Tbl Nat
  trees : Tbl TwinTree
  deriving DecidableEq, Repr

/-! ### Sample gather and the waveform coder (chapter 08) -/

/-- A stream record that waits to be written (R265, R267, R277, R293): what its header says, its body in parts that are padded to
8 bytes each, and the pocket space that it holds. -/
structure SRec where
  kind : Nat
  ring : Nat
  time : Nat
  qclass : Nat
  tail : List Byte
  body : List (List Byte)
  holds : List Block
  /-- A SET record and the BLOCK records of its SEPARATE members: their group and grid instant; the set holds its slot until all of them
  are written (R278). -/
  set : Option (Nat × Int)
  /-- The slice that owns the data of a BLOCK record, where the ring must be its own (R264). -/
  owner : Option Nat
  /-- A CODED record: its stream, and the CSEQ of its span. -/
  span : Option (Nat × Nat)
  /-- The instant at which its data landed (R347). -/
  landed : Nat := 0
  deriving DecidableEq, Repr

/-- A set that is open (R273): its grid instant, timestamp, deadline frame, and the blocks that joined, by member. -/
structure OpenSet where
  j : Int
  t : Int
  frame : Nat
  dlFrame : Nat
  blocks : Tbl Block
  deriving DecidableEq, Repr

/-- A gather group (Table 8.7). -/
structure Group where
  srate : Nat
  gofs : Nat
  window : Nat
  deadline : Nat
  ring : Nat
  members : List (Nat × Int)
  /-- Open sets in T order; every grid instant up to `upTo` is resolved; the emitted sets with their members that had a block. -/
  sets : List OpenSet
  upTo : Option Int
  emitted : List (Int × List Nat)
  /-- The GATHER_DESTROYs that wait for the records: ring and index. -/
  destroy : List (Nat × Nat)
  deriving DecidableEq, Repr

/-- A sample instant of a coder stream: its instant in 1/256 ns and the sample of each channel. -/
structure Sampled where
  at_ : Int
  xs : List Int
  deriving DecidableEq, Repr

/-- The coder blocks of all channels of one stream over one span of samples (R284). -/
structure Span where
  cseq : Nat
  samples : List Sampled
  gap : Bool
  detach : Bool
  frame : Nat
  qclass : Nat
  deriving DecidableEq, Repr

/-- A coder stream (Table 8.13). -/
structure CoderStream where
  eph : Nat
  ring : Nat
  wcode : Nat
  ch : Nat
  q : Nat
  period : Nat
  peakThr : Nat
  preUs : Nat
  postUs : Nat
  delay : Nat
  triggers : List Nat
  /-- Instants of the last 16 trigger events. -/
  instants : List Nat
  lastBseq : Option Nat
  cur : Option Span
  closed : List Span
  nextCseq : Nat
  lastCseq : Option Nat
  /-- Intervals of the spans coded so far (R291). -/
  coded : List (Int × Int)
  /-- The CODER_DETACHs that wait for the records: ring and index. -/
  detach : List (Nat × Nat)
  deriving DecidableEq, Repr

/-- The sample path beside the GTH and CDR registers. -/
structure Sample where
  /-- Records that wait for their ring, oldest first (R280). -/
  queue : List SRec
  groups : Tbl Group
  streams : Tbl CoderStream
  /-- Endpoints whose blocks were discarded under R159 since their last BLOCK record. -/
  overrun : List Nat
  /-- What each STREAM ring owes at the next tick: WHAT, group or stream, count (R269). -/
  notes : Tbl (List (Nat × Nat × Nat))
  /-- When each endpoint had a committed periodic entry: the tick instants of its first frame and of the frame of its withdrawal (R274). -/
  ran : Tbl (List (Nat × Option Nat))
  /-- Blocks that must open a set and wait for a slot, oldest first (R278). -/
  waiting : List Block
  deriving DecidableEq, Repr

/-! ### Mover (chapter 09) -/

/-- A software channel's run beside its registers (R308–R327). MOV_STSn.STATE is its state. -/
structure Chan where
  /-- MOV_CTLn as accepted at GO. -/
  ctl : Nat
  /-- The slice that it is bound to (R301). -/
  slice : Option Nat
  /-- SRC, DST and CNT of the register run. -/
  src : Nat
  dst : Nat
  cnt : Nat
  /-- Bytes of a REQ-paced descriptor moved so far, the descriptor that they belong to, the state of its CRC, and its first mismatch. -/
  moved : Nat
  desc : Option (List Byte)
  crc : Word
  mis : Option Nat
  /-- Failed attempts of the read in progress, and the wait before the next (R321). -/
  attempt : Nat
  retryAt : Option Nat
  /-- The last host address written for the descriptor, to which the flushing read goes (R320). -/
  wrote : Option Nat
  /-- The descriptor that the channel stands at, as read, with its address: a restart does not read it again (R315, R324). -/
  redo : Option (Nat × List Byte)
  /-- Of an engine channel: the piece of work in progress, while a read of it is retried (R299, R300, R321). -/
  work : Option HostWork
  deriving DecidableEq, Repr

/-- The mover beside the MOV registers. -/
structure Mover where
  chans : Tbl Chan
  /-- Bursts that wait at each request line, at most eight, and how many a line dropped (R317, R318). -/
  lines : Tbl (List (List Byte))
  drops : Tbl Nat
  /-- A change of SWCH that waits for the engine channels (R298). -/
  swch : Option Nat
  deriving DecidableEq, Repr
/-! ### Health and security (chapter 15) -/

/-- The audit log (R456, R457): SEQ of the next record, the CRC of the last record written, and the records that wait on chip,
oldest first, their CHAIN still to be filled in. SEC_AUDIT.LOST counts those lost. -/
structure Audit where
  seq : Nat
  chain : Nat
  held : List (List Byte)
  deriving DecidableEq, Repr

/-- What the health monitor counts of a physical bank (R444): instants of the corrected words of the last hour, corrected and
uncorrectable words in all. -/
structure BankInfo where
  hour : List Nat
  corr : Nat
  uncorr : Nat
  deriving DecidableEq, Repr

/-- What it measures of a root port at Rate 5 (R444): eye in 0.001 UI and mV, corrected codewords of the last second, consecutive seconds
with uncorrectable ones, and whether the margin was crossed at the last sample. -/
structure PortEye where
  width : Nat
  height : Nat
  corrS : Nat
  uncorrRun : Nat
  /-- The FEC threshold, and the margin threshold, stand crossed. -/
  badFec : Bool
  badEye : Bool
  deriving DecidableEq, Repr

/-- A retirement, or a reduction (`shrink`), of a bank that waits: for a command, or for the policy; `said`: its deferral was reported (R35). -/
structure RetireWait where
  bank : Nat
  shrink : Bool
  cmd : Option (Nat × Nat)
  said : Bool
  deriving DecidableEq, Repr

/-- A retirement or a pool reduction under way (R446): the failing bank, the bank that takes its contents, the logical bank; whether the copy
has ended, whether a word was uncorrectable; for a reduction, `shrink`. -/
structure Retire where
  bank : Nat
  dest : Nat
  logical : Nat
  copied : Bool
  uncorr : Bool
  shrink : Bool
  cmd : Option (Nat × Nat)
  deriving DecidableEq, Repr

/-- Health, start and security beside the HLT and SEC registers (chapter 15). -/
structure Health where
  banks : Tbl BankInfo
  /-- Physical bank of each logical one, where it is not the same number; the number of logical banks. -/
  map : Tbl Nat
  logical : Nat
  retire : Option Retire
  /-- Banks whose retirement or reduction waits: bank, reduction, and the command (R446, R460, R35). -/
  waiting : List RetireWait
  /-- Of other arrays: spare rows used, and corrected words by row (key 65536 array + row). -/
  rowsUsed : Tbl Nat
  rowHits : Tbl Nat
  /-- Slowdown of each ring oscillator, 0.01%; each sensor's reading and highest reading; each rail's mV and excursions. -/
  osc : Tbl Nat
  sensors : Tbl (Int × Int)
  /-- The highest reading of the second in progress (R445). -/
  secMax : Option Int
  rails : Tbl (Nat × Nat)
  eyes : Tbl PortEye
  /-- Life used in units of 10^-9 equivalent seconds; seconds in each range of TEMP_H (Table 15.4). -/
  life : Nat
  tempS : Tbl Nat
  trips : Nat
  cold : Nat
  /-- REPLACE was reached (R449). -/
  replace : Bool
  /-- Ports moved to Rate 1 by RATE, bit n. -/
  r1 : Nat
  /-- Diagnostics of the transceivers by port, bytes 96–105 of page 0xA2 as last read (R112). -/
  diags : Tbl (List Byte)
  /-- The flash: slots, COMMITTED, TRIAL, the health record. -/
  slots : Tbl FwSlot
  committed : Nat
  trial : Option Nat
  record : List Byte
  /-- A slot staged since the last start; a FW_STAGE under way: the command and the slot. -/
  staged : Option Nat
  staging : Option ((Nat × Nat) × Nat)
  /-- The index of the FW_ACTIVATE whose completion, once written, is followed by a cold start (R453). -/
  restart : Option Nat
  /-- Refused responses; the debug key hash. -/
  refused : Nat
  dbgKey : List Byte
  /-- The OTP: the device serial number. -/
  serial : List Byte
  /-- A start is under way and its watchdog armed (R439). -/
  starting : Bool
  /-- A thermal trip is held; consecutive samples of the comparator below 110 °C (R448). -/
  tripHeld : Bool
  /-- The sensor of a trip that is still to be reported, and its reading (R448). -/
  tripSensor : Option (Nat × Nat)
  tripLow : Nat
  deriving DecidableEq, Repr

/-- The advanced error reporting of the PCIe function (R416): status bits by their place in the PCIe registers, the header of the first
unmasked error, and whether one is recorded. -/
structure Aer where
  corr : Nat
  uncorr : Nat
  header : List Byte
  prefix_ : List Byte
  first : Option Nat
  deriving DecidableEq, Repr

/-! ### What the block sends out -/

/-- What leaves the block, in the order in which it leaves: the state keeps it so that the ordering promises (R400) can be
stated. -/
inductive Output where
  /-- A packet, LINKCTL or line state on a link, at the rate of the end that sends it: 0 Rate 1, 1 Rate 5. -/
  | send (link : LinkEndId) (rate : Nat) (p : BusPkt)
  /-- A packet that a link end accepted and passed on (check 6 of Table 3.6). -/
  | deliver (link : LinkEndId) (p : Pkt)
  /-- A LINKCTL that a link end accepted, as its fields read (Table 3.7). -/
  | control (link : LinkEndId) (c : Linkctl)
  /-- A write on identity bus `bus`: the 7-bit address and the bytes (R111). -/
  | idbWrite (bus addr : Nat) (bytes : List Byte)
  /-- A read of n bytes on it, from byte `first`. -/
  | idbRead (bus addr first n : Nat)
  /-- MSC_LD pulses and MSC_DO carries these bits, the first one first (R113). -/
  | msc (bits : List Bool)
  /-- A write to host memory under a PASID (0: none). -/
  | hostWrite (pasid addr : Nat) (bytes : List Byte)
  /-- A flushing read, to the last host address written, that returned: every write before it is visible (R320). -/
  | flush (pasid addr : Nat)
  /-- An MSI-X message (R370). -/
  | msix (entry : Nat) (addr data : DWord)
  /-- The data of a register read. -/
  | readData (w : DWord)
  /-- A completion with Unsupported Request status (R416). -/
  | unsupported
  /-- A pin's new level. -/
  | pin (name : String) (level : Bool)
  /-- PPS_OUT's new level, and the instant of the time base at which it takes it (R52). -/
  | ppsOut (level : Bool) (at_ : Nat)
  /-- A message on the twin link (R377). -/
  | twin (kind lseq : Nat) (payload : List Byte)
  /-- A device's action: a COMMAND executed at this instant (R131). -/
  | executed (dev ep : Nat) (at_ : Nat) (payload : List Byte)
  deriving DecidableEq, Repr

end Sys2Proof.Machine
end

