-- ==== Sys2Proof/Machine/Init.lean ====
section
/-! DEFINITION. Machine/Init.lean: what each block holds right after reset, and what an unlisted number of each table stands
for. Where the spec gives no reset value the value is the model's and has an entry in the assumption log. -/

namespace Sys2Proof.Machine

/-- The time base at reset: free-running from 0, class 7 (TIM_NOW, TIM_STS and TIM_ERR_EST reset values; log entry 4 for the rest). -/
def TimeBase.init : TimeBase where
  now := 0
  tickAt := 0
  frameNo := 0
  framesOn := false
  locked := false
  everLocked := false
  marksIn := 0
  marksOut := 0
  everValid := false
  rejected := []
  ppsRejects := 0
  irigBad := 0
  ptmBad := 0
  irigLabel := none
  labelArmed := none
  stepOfs := none
  stepSec := 0
  stepAt := none
  stepped := false
  errPs := 4294967295000
  slewFs := 0
  frateReq := false
  frateAcc := none
  nowHigh := 0
  heldStart := 0
  heldLocal := 0
  ptmLocal := 0
  effCtl := 0
  effDisc := 0x32
  effThr := 0x186A0
  effHold := 0x3200FA
  effTrim := []
  ppsHighUntil := none
  tickClass := 7

/-- The policies at reset: unthrottled, nothing pending, GCTL_POLICY's reset value in force. -/
def Policy.init (pol : DWord) : Policy where
  inForce := pol
  reported := false
  rateLast := []
  share := 8
  calm := 0
  advice := []
  nextAdvice := 0
  floorSaid := false

/-- A link end that holds no link state: it reports FRESH (R94). -/
def LinkEnd.init : LinkEnd where
  up := false
  rate := 0
  sync := false
  cwLock := false
  rxRd := false
  rxHist := 0
  rx := []
  ticket := false
  txSeq := 0
  rxSeq := 0
  replay := []
  queue := []
  held := []
  ratePend := none
  replayFrom := 0
  replayCnt := 0
  retryVal := none
  retryAt := 0
  seenSent := false
  seenRecv := false
  fresh := true
  peerCaps := none
  noRate5 := false
  echoSent := []
  echoRecv := []
  waiting := []
  wakeAt := none
  hdrErr := 0
  crcErr := 0
  poisoned := 0
  discarded := 0

/-- A port beside its registers, at reset. -/
def Port.init : Port where
  resetPending := false
  prop := false
  connecting := false
  forWake := false
  susp := .none
  wakeHeld := false
  suspByProp := false
  wakeTraining := false
  rate5Before := false
  rateChg := none
  rateNow := none
  cfgWant := none
  byRate := false
  oldRate := 0
  emptyTo := none
  retrains := []
  cfg := 0
  cfgReported := false
  rate5Feature := false
  remoteWake := false
  lastMean := 0xFFFFFFFF
  identDone := false
  reading := false
  xcvrRead := none
  cal := []

/-- A cage before its first scans: no transceiver accepted as present. -/
def Cage.init : Cage where
  modAbs := true
  modAbsRun := 0
  los := false
  losRun := 0
  txFault := false
  txFaultRun := 0

/-- The sideband chain at reset: every TX_DISABLE asserted, since every port is DISABLED (R114). -/
def Sideband.init : Sideband where
  cages := []
  chainBad := 0
  chainGood := 0
  fault := false
  txDisable := 0xFFFFFFFFFFFFFFFF

/-- An endpoint that a device does not list. -/
def DevEp.init : DevEp where
  cls := 0
  mps := 64
  burst := 0
  toggle := 0
  halted := false
  ready := true
  notyet := false
  dataIn := []
  dataOut := []
  events := []
  blocks := []
  bseq := 0
  sentFrame := none
  calls := 0
  sent := []
  lastToggle := none
  echo := none
  echoLate := false
  armed := []

/-- A link whose delay was not measured. -/
def Delay.init : Delay where
  asym := 0
  mean := none
  rejects := []
  reqSeq := 0
  reqT1 := none
  reqAgain := false

/-- The token of a dual-upstream hub at power-up: held by no controller (R382). -/
def HubToken.init : HubToken where
  holder := none
  epoch := 0
  pendingHolder := none
  releaseAt := none
  granted := none
  missed := 0
  gotFrame := false
  asked := []

/-- A device at power-up: DEFAULT, address 0, not synchronised (R139, R61). -/
def Device.init : Device where
  kind := 1
  port := 0
  route := 0
  tier := 0
  nports := 0
  addr := 0
  pendingAddr := none
  st := 0
  eps := []
  ctl := none
  records := []
  remoteWake := false
  delays := []
  clk := 0
  slew := 0
  slewAt := 0
  synced := false
  frameMiss := 0
  lastFrame := none
  badFrames := 0
  suspended := false
  chgAt := none
  owesEcho := none
  upq := []
  token := HubToken.init

/-- The all-zero context of an empty slot (R155): DISABLED. -/
def Ctx.zero : Ctx := ⟨0, 0, 0, 0, 0, 0, 0, 0, 0, 0, 0, 0, 0, 0⟩

/-- A slot of the context cache around a context just fetched or installed. -/
def CtxSlot.of (c : Ctx) (lru : Nat) : CtxSlot where
  ctx := c
  used := 0
  events := []
  blocks := []
  leftState := 2
  bad := false
  overrunSaid := false
  poisonSeen := false
  dups := 0
  lru := lru
  table := none
  dirty := false
  ran := false

/-- The context manager at reset: the held copy is that of the reset pair (R162). -/
def CtxMgr.init : CtxMgr where
  dir := 0
  dirN := 0xFFFFFFFFFFFFFFFF
  unequal := false
  reported := false
  fetching := []
  clock := 0
  events := []
  left := []
  away := []
  known := []
  stopped := []

/-- A ring that is UNUSED and unallotted (R163, Table 5.4). -/
def Ring.init : Ring where
  st := 0
  geo := 0
  geoN := 0xFFFFFFFFFFFFFFFF
  head := 0
  tail := 0
  phase := true
  reason := 0
  slice := none
  dbIdx := 0
  evtRing := 0
  vector := 0
  kept := []
  lost := 0
  cancelled := []
  bells := []

/-- The schedule at reset: no entry, every reservation 0, PCT 85 (R209, SCH_CAP). -/
def Sched.init : Sched where
  active := []
  res := []
  batch := none
  queue := []
  rechecks := []
  pct := 85
  capReported := false
  amax := []
  amaxReported := []
  pctPend := false
  amaxPend := []
  held := false

/-- The deficits of a tree at reset. -/
def Drr.init : Drr where
  gcur := 0
  gnew := true
  gd := []
  sd := []
  scur := []
  snew := []

/-- An empty hand for a frame. -/
def Hand.empty (frame : Nat) : Hand where
  frame := frame
  items := []
  complete := false
  wns := 0
  deadline := false
  guard := false
  cmdMoved := 0
  evtMoved := 0
  cycMissed := 0
  nextAt := 0
  lastA := 0

/-- The dealer at reset: no entry, counters 0, quota 256 (SCH_QUOTA). -/
def Dealer.init : Dealer where
  nextId := 0
  lists := []
  counters := []
  drr := []
  next := []
  run := []
  extraPolls := []
  share := []
  sharePend := []
  gw := []
  quota := 256
  spillOn := false
  spillBase := 0
  spillBlocks := 0
  traceSeq := 0
  bellSeq := 0
  lastTag := []
  delaySeq := 0

/-- An empty mailbox (R339). -/
def Mailbox.init : Mailbox := ⟨[], []⟩

/-- A slice that is FREE. -/
def Slice.init : Slice where
  pasid := 0
  hbase := 0
  hbaseN := 0xFFFFFFFFFFFFFFFF
  hlim := 0
  hlimN := 0xFFFFFFFFFFFFFFFF
  win := 0
  winN := 0xFFFFFFFFFFFFFFFF
  cntr := 0
  cntrN := 0xFFFFFFFFFFFFFFFF
  reload := false
  boundsSaid := false
  winPend := false
  winSaid := false
  down := Mailbox.init
  upw := Mailbox.init
  freezeCmd := none
  thawCmd := none
  resetFor := none
  disabling := false
  discarded := 0
  parkAt := none
  saving := none

/-- A source at reset (ICU_SRCCFG: priority 0x80, all else 0). -/
def Source.init : Source where
  line := false
  pend := false
  en := false
  act := false
  prio := 0x80
  tmode := 0
  cores := 0
  vector := 0
  sense := 0
  claimPrio := 0x100
  onCore := 0

/-- A core at reset. -/
def Core.init : Core := ⟨.idle, 0, 0, none⟩

/-- A vector at reset: CNT 1, TIME_US 0; the table entry masked (PCIe Base Specification). -/
def Vector.init : Vector where
  cnt := 1
  timeUs := 0
  reqs := 0
  first := 0
  idle := false
  held := false
  addr := 0
  data := 0
  mask := true
  pba := false

/-- The ICU at reset. -/
def Icu.init : Icu := ⟨[], [], 3, [], false, false⟩

/-- Ember memory that holds nothing. -/
def Ember.init : Ember := ⟨[], none, [], [], [], [], false⟩

/-- The power controller at reset: RUN, nothing requested. -/
def Power.init : Power where
  byPolicy := false
  qByPolicy := false
  requested := false
  abortBy := none
  wakeLater := none
  rows := []
  rollback := false
  events := []
  suspended := []
  wakeAt := 0
  entryAt := 0
  railsOff := false
  perst := false
  imageBad := false
  ember := Ember.init

/-- A shared tree of whose token nothing is known. -/
def TwinTree.init : TwinTree where
  epoch := 0
  holder := 2
  you := false
  known := false
  msg := none
  msgAt := 0
  claim := none
  byPolicy := false
  ownFrom := none
  outTicks := 0
  handed := false
  silent := false
  releaseAt := none
  takeAt := none
  full := false
  cmd := none
  notBefore := 0
  wasWarm := false

/-- The twin link at reset: not enabled. -/
def Twin.init : Twin where
  enabled := false
  pairId := 0
  gen := 0
  pmap := []
  txSeq := 0
  rxSeq := 0
  replay := []
  queue := []
  replayFrom := 0
  replayCnt := 0
  retryVal := none
  retryAt := 0
  pairNext := none
  minorSaid := false
  missed := 0
  peerGen := 0
  peerTx := 0
  peerRx := 0
  peerOwned := 0
  peerWarm := 0
  peerFlag := false
  offHigh := 0
  offLow := 0
  mseqTx := 0
  confirmed := 0
  mirrored := []
  mseqRx := 0
  intentSeq := []
  heldEvents := []
  intents := []
  resolving := []
  dirtyBits := []
  shadowed := []
  toClear := []
  lastBseq := []
  trees := []

/-- The sample path at reset: no group, no stream. -/
def Sample.init : Sample where
  queue := []
  groups := []
  streams := []
  overrun := []
  notes := []
  ran := []
  waiting := []

/-- A channel that never ran. -/
def Chan.init : Chan := ⟨0, none, 0, 0, 0, 0, none, 0xFFFFFFFF, none, 0, none, none, none, none⟩

/-- The mover at reset. -/
def Mover.init : Mover := ⟨[], [], [], none⟩

/-- The audit log at reset: empty. -/
def Audit.init : Audit where
  seq := 0
  chain := 0
  held := []

/-- A slot that is empty. -/
def FwSlot.init : FwSlot := ⟨false, 0, 0, 0, 0, []⟩

/-- A bank without errors. -/
def BankInfo.init : BankInfo := ⟨[], 0, 0⟩

/-- A port that was not measured. -/
def PortEye.init : PortEye := ⟨0, 0, 0, 0, false, false⟩

/-- Health, start and security at reset: a cold start under way, no finding (R438). -/
def Health.init : Health where
  banks := []
  map := []
  logical := 48
  retire := none
  waiting := []
  rowsUsed := []
  rowHits := []
  osc := []
  sensors := []
  secMax := none
  rails := []
  eyes := []
  life := 0
  tempS := []
  trips := 0
  cold := 0
  replace := false
  r1 := 0
  diags := []
  slots := []
  committed := 0
  trial := none
  record := []
  staged := none
  staging := none
  restart := none
  refused := 0
  dbgKey := []
  serial := []
  starting := true
  tripHeld := false
  tripSensor := none
  tripLow := 0

/-- No error logged. -/
def Aer.init : Aer := ⟨0, 0, [], [], none⟩

end Sys2Proof.Machine
end

