-- ==== Sys2Proof/Machine/State.lean ====
section
/-! DEFINITION. Machine/State.lean: the state of the controller and of the hubs and modules that work with it, the reasons
for which a step can stop, and the state after reset. -/

namespace Sys2Proof.Machine

/-- The reasons for which a command ends in a fault. No command of this block raises one: every row of the table has an
effect that the spec gives. -/
inductive Fault where
  /-- Never raised; the block has no fault that stops it. Safe. -/
  | none
  deriving DecidableEq, Repr

/-- The reasons for which a command is refused. -/
inductive Refusal where
  /-- The command has no meaning in the model yet (raised by exec's own arms only). Safe: nothing is claimed of it. -/
  | notModelled (mnemonic : String)
  deriving DecidableEq, Repr

/-- The state. -/
structure State where
  /-- The commands that wait, first in first out (the model's own field, log entry 68). -/
  pending : List Instr
  /-- What has left the block, oldest first (the model's own field, log entry 68). -/
  out : List Output
  /-- How many free values have been drawn (the model's own field, log entry 2). -/
  free : Nat
  /-- The registers: key `Reg.num r + 256 * instance`, absent at the reset value (R476). -/
  regs : Tbl DWord
  /-- The time base beside the TIM registers (R36–R67). -/
  tim : TimeBase
  /-- The adaptive policies (R27–R35). -/
  pol : Policy
  /-- Ports beside their registers, by `PortId.code` (R98–R110). -/
  ports : Tbl Port
  /-- Link ends, by `LinkEndId.code` (R84–R94). -/
  links : Tbl LinkEnd
  /-- The module sideband chain (R113, R114). -/
  side : Sideband
  /-- Hubs and modules on the trees (R115–R143); the environment puts them there. -/
  devs : Tbl Device
  /-- The context cache, by EPH (R155). -/
  ctxs : Tbl CtxSlot
  /-- The context manager (R152–R162). -/
  cmgr : CtxMgr
  /-- Transactions in flight (R123). -/
  txns : List Txn
  /-- The rings (R163–R173). -/
  rings : Tbl Ring
  /-- TDs taken and not yet handed back, in take order (R184, R223). -/
  entries : List Entry
  /-- Commands taken and not yet handed back, in take order (R193, R194). -/
  cmds : List CmdRec
  /-- Schedules, reservations and admission (R199–R222). -/
  sched : Sched
  /-- The dealer: ready lists, hands, counters, delay lists, spill (R223–R259). -/
  deal : Dealer
  /-- Slices and their mailboxes (R328–R353). -/
  slices : Tbl Slice
  /-- The interrupt controller: sources, cores, vectors (R354–R375). -/
  icu : Icu
  /-- The buffer pool (R17): bytes by offset, absent reads 0 (log entry 3). -/
  pool : List Host.Cell
  /-- Power states and their transitions (R417–R437). -/
  pwr : Power
  /-- The twin link and the pair (R376–R399). -/
  twin : Twin
  /-- Sample gather and waveform coder (R260–R296). -/
  smp : Sample
  /-- The audit log (R456, R457). -/
  audit : Audit
  /-- The mover (R297–R327). -/
  mov : Mover
  /-- Start, health and security (R438–R461). -/
  hlt : Health
  /-- AER status and masks of the PCIe endpoint (R416). -/
  aer : Aer
  /-- Data of a write of IND_DATA that is not applied yet (R474). -/
  ind : Option Nat
  deriving DecidableEq, Repr

/-- The three variants of Table 0.1. -/
inductive Variant where
  | ln6400
  | ln6432
  | ln6416
  deriving DecidableEq, Repr

/-- GCTL_CAPS of a variant (R475). -/
def Variant.caps : Variant → DWord
  | .ln6400 => 0x0800040001004003
  | .ln6432 => 0x0200020000402001
  | .ln6416 => 0x0200010000101000

/-- GCTL_POLICY's reset value of a variant (R28). -/
def Variant.policy : Variant → DWord
  | .ln6400 => 0x1AA
  | .ln6432 => 0x12A
  | .ln6416 => 0x12A

/-- GCTL_POLICY_N's reset value of a variant (R28). -/
def Variant.policyN : Variant → DWord
  | .ln6400 => 0xFFFFFE55
  | .ln6432 => 0xFFFFFED5
  | .ln6416 => 0xFFFFFED5

/-- The key of a register's instance in the register file. -/
def regKey (r : Reg) (i : Nat) : Nat := r.num + 256 * i

/-- The registers whose reset value depends on the variant (R28, R475), listed with it. -/
def resetRegs (v : Variant) : Tbl DWord :=
  [(regKey .GCTL_CAPS 0, v.caps), (regKey .GCTL_POLICY 0, v.policy), (regKey .GCTL_POLICY_N 0, v.policyN)]

/-- A variant right after reset. -/
def State.resetOf (v : Variant) : State where
  pending := []
  out := []
  free := 0
  regs := resetRegs v
  tim := TimeBase.init
  pol := Policy.init v.policy
  ports := []
  links := []
  side := Sideband.init
  devs := []
  ctxs := []
  cmgr := CtxMgr.init
  txns := []
  rings := []
  entries := []
  cmds := []
  sched := Sched.init
  deal := Dealer.init
  slices := []
  icu := Icu.init
  pool := []
  pwr := Power.init
  twin := Twin.init
  smp := Sample.init
  audit := Audit.init
  mov := Mover.init
  hlt := Health.init
  aer := Aer.init
  ind := none

/-- The machine right after reset: the largest configuration, LN-6400 (R1; the choice of the variant is log entry 1). -/
def State.reset : State := State.resetOf .ln6400

end Sys2Proof.Machine
end

