-- ==== Sys2Proof/Machine/Ops.lean ====
section
/-! DEFINITION. Machine/Ops.lean: the named operations on the state that the meanings share: registers and their fields,
tables of ports, links, devices and rings, outputs, records and events on rings, and vector requests. -/

namespace Sys2Proof.Machine

/-! ### Registers -/

/-- Reset value of an instance of a register: its table's, but for MOV_STSn, whose ENGINE bit is 1 for the engine channels
that the reset value of MOV_GCFG.SWCH leaves (channels 0 to 47). -/
def regReset (r : Reg) (i : Nat) : DWord :=
  if r = .MOV_STS then (if i < 48 then 0x100000 else 0) else BitVec.ofNat 64 r.info.reset

/-! ### The time base runs on (R45) -/

/-- SLEW_PPM as it acts (Table 2.24). -/
def TimeBase.slewPpm (b : TimeBase) : Nat := max 1 (min 100 (field b.effDisc 7 0))

/-- How fast a slew acts, in parts per million: the slew limit, and no more than what the error of the frequency source leaves of the 100 ppm by which
CLK_TIME may depart from nominal (R45; log entry 81). -/
def TimeBase.slewRate (b : TimeBase) : Nat := min b.slewPpm (100 - Config.sourcePpm b.now)

/-- An offset that is worked off toward 0 by at most `w`. -/
def workOff (x : Int) (w : Nat) : Int := if x = 0 then 0 else if 0 < x then max 0 (x - w) else min 0 (x + w)

/-- The time base at an instant: what a slew has removed by then is removed. -/
def TimeBase.runTo (b : TimeBase) (t : Nat) : TimeBase := { b with now := t, slewFs := workOff b.slewFs ((t - b.now) * b.slewRate) }

namespace State

/-- The stored value of a register. -/
def rd (s : State) (r : Reg) (i : Nat) : DWord := Tbl.get (regReset r i) s.regs (regKey r i)

/-- A register written whole: its reserved bits stay zero (R11). -/
def wr (s : State) (r : Reg) (i : Nat) (v : DWord) : State := { s with regs := Tbl.put s.regs (regKey r i) (v &&& r.bits) }

/-- A field of an instance. -/
def fgetN (s : State) (f : Fld) (i : Nat) : Nat := field (s.rd f.reg i) f.hi f.lo

/-- A field of a register that has one instance. -/
def fget (s : State) (f : Fld) : Nat := s.fgetN f 0

/-- A flag of an instance. -/
def flagN (s : State) (f : Fld) (i : Nat) : Bool := s.fgetN f i != 0

/-- A flag. -/
def flag (s : State) (f : Fld) : Bool := s.fgetN f 0 != 0

/-- A field of an instance set. -/
def fsetN (s : State) (f : Fld) (i v : Nat) : State := s.wr f.reg i (setField (s.rd f.reg i) f.hi f.lo v)

/-- A field set. -/
def fset (s : State) (f : Fld) (v : Nat) : State := s.fsetN f 0 v

/-- A counter field of an instance raised by `k`; it saturates at all ones. -/
def countN (s : State) (f : Fld) (i k : Nat) : State :=
  s.fsetN f i (satAdd (2 ^ (f.hi + 1 - f.lo) - 1) (s.fgetN f i) k)

/-- A counter field raised by 1. -/
def count (s : State) (f : Fld) : State := s.countN f 0 1

/-- An event bit of an instance set. -/
def raiseN (s : State) (f : Fld) (i : Nat) : State := s.fsetN f i 1

/-- An event bit set. -/
def raise (s : State) (f : Fld) : State := s.raiseN f 0

/-- A pair of a register and its complement matches over `w` bits (R471). -/
def pairOk (s : State) (r rn : Reg) (i w : Nat) : Bool :=
  (s.rd rn i).toNat == 2 ^ w - 1 - (s.rd r i).toNat % 2 ^ w

/-! ### Fused resources (R2, R3) -/

def nPorts (s : State) : Nat := s.fget .GCTL_CAPS_PORTS
def nSlices (s : State) : Nat := s.fget .GCTL_CAPS_SLICES
def nRings (s : State) : Nat := s.fget .GCTL_CAPS_RINGS
def nSources (s : State) : Nat := s.fget .GCTL_CAPS_ICU_SRC
def hasCoder (s : State) : Bool := s.flag .GCTL_CAPS_CODER
def hasTwin (s : State) : Bool := s.flag .GCTL_CAPS_TWIN

/-- The start is complete (R439): host accesses beyond the GCTL, HLT and SEC blocks act. -/
def ready (s : State) : Bool := s.flag .HLT_START_READY

/-- The controller is in SAFE (R443). -/
def inSafe (s : State) : Bool := s.fget .HLT_START_KIND == 3

/-! ### Outputs and free values -/

/-- Something leaves the block. -/
def emit (s : State) (o : Output) : State := { s with out := s.out ++ [o] }

/-- Several things leave the block, in order. -/
def emits (s : State) (os : List Output) : State := { s with out := s.out ++ os }

/-- The free value that the next draw gives. -/
def freeValue (s : State) : Nat := Config.freeNat s.free

/-- One free value drawn. -/
def draw (s : State) : State := { s with free := s.free + 1 }

/-- A read answered with data. -/
def answer (s : State) (w : DWord) : State := s.emit (.readData w)

/-- A full-width read of a register with RC fields (R468): it returns the register, the shadow takes the value returned and the RC
fields clear. With `both` the request is 64 bits wide and also returns the shadow as it was before (R467). -/
def clearingRead (s : State) (r sh : Reg) (i : Nat) (both : Bool) : State :=
  let v := s.rd r i
  let s1 := if both then (s.answer v).answer (s.rd sh i) else s.answer v
  (s1.wr sh i v).wr r i (v &&& ~~~ BitVec.ofNat 64 r.info.rc)

/-! ### The start (R439) -/

/-- A host write outside the GCTL, HLT and SEC blocks, which is ignored until the start is complete (R439). -/
def whenReady (s : State) (o : Host.Outcome State Fault Refusal) : Host.Outcome State Fault Refusal := if s.ready then o else .next s

/-- A host read there, which returns zero until then. -/
def readReady (s : State) (o : Host.Outcome State Fault Refusal) : Host.Outcome State Fault Refusal :=
  if s.ready then o else .next (s.answer 0)

end State

/-! ### Ports, link ends, devices, rings, slices, contexts -/

end Sys2Proof.Machine

namespace Sys2Proof

/-- The number of a port: root ports first; the registers of a hub port, which are the hub's own (Table 3.16), use it as their instance. -/
def PortId.code : PortId → Nat
  | .root n => n
  | .hub d p => 64 + 32 * d + p

/-- The number of a link end. -/
def LinkEndId.code : LinkEndId → Nat
  | .port p => 2 * PortId.code p
  | .dev d up => 2 * (2 * d + up) + 1

end Sys2Proof

namespace Sys2Proof.Machine

namespace State

def port (s : State) (p : PortId) : Port := Tbl.get Port.init s.ports p.code
def onPort (s : State) (p : PortId) (f : Port → Port) : State := { s with ports := Tbl.upd Port.init s.ports p.code f }
def link (s : State) (l : LinkEndId) : LinkEnd := Tbl.get LinkEnd.init s.links l.code
def onLink (s : State) (l : LinkEndId) (f : LinkEnd → LinkEnd) : State := { s with links := Tbl.upd LinkEnd.init s.links l.code f }
def dev (s : State) (d : Nat) : Device := Tbl.get Device.init s.devs d

/-- The device that stands on a tree under a route. -/
def devOn (s : State) (port route : Nat) : Option Nat := (s.devs.find? fun x => x.2.port == port && x.2.route == route).map Prod.fst
def onDev (s : State) (d : Nat) (f : Device → Device) : State := { s with devs := Tbl.upd Device.init s.devs d f }
def ring (s : State) (r : Nat) : Ring := Tbl.get Ring.init s.rings r
def onRing (s : State) (r : Nat) (f : Ring → Ring) : State := { s with rings := Tbl.upd Ring.init s.rings r f }
def slice (s : State) (n : Nat) : Slice := Tbl.get Slice.init s.slices n
def onSlice (s : State) (n : Nat) (f : Slice → Slice) : State := { s with slices := Tbl.upd Slice.init s.slices n f }
def vector (s : State) (e : Nat) : Vector := Tbl.get Vector.init s.icu.vectors e
def onVector (s : State) (e : Nat) (f : Vector → Vector) : State :=
  { s with icu := { s.icu with vectors := Tbl.upd Vector.init s.icu.vectors e f } }
def ctx? (s : State) (eph : Nat) : Option CtxSlot := Tbl.find s.ctxs eph
def onCtx (s : State) (eph : Nat) (f : CtxSlot → CtxSlot) : State :=
  match Tbl.find s.ctxs eph with
  | some c => { s with ctxs := Tbl.put s.ctxs eph (f c) }
  | none => s
def onTim (s : State) (f : TimeBase → TimeBase) : State := { s with tim := f s.tim }
def onPol (s : State) (f : Policy → Policy) : State := { s with pol := f s.pol }
def onSched (s : State) (f : Sched → Sched) : State := { s with sched := f s.sched }
def onDeal (s : State) (f : Dealer → Dealer) : State := { s with deal := f s.deal }
def onHlt (s : State) (f : Health → Health) : State := { s with hlt := f s.hlt }
def onIcu (s : State) (f : Icu → Icu) : State := { s with icu := f s.icu }
def onCmgr (s : State) (f : CtxMgr → CtxMgr) : State := { s with cmgr := f s.cmgr }

/-- A command named the instant at which it happened: the time base has run on to it. -/
def at_ (s : State) (t : Nat) : State := s.onTim fun b => b.runTo t

/-- SLC_STSs.STATE (Table 10.1): 0 FREE, 1 ACTIVE, 2 FREEZING, 3 FROZEN, 4 RESETTING, 5 RESTORING. -/
def sliceState (s : State) (n : Nat) : Nat := s.fgetN .SLC_STS_STATE n

/-- The slice's host traffic is held: FREEZING or FROZEN (R346). -/
def sliceHeld (s : State) (n : Nat) : Bool := s.sliceState n == 2 || s.sliceState n == 3

/-! ### Vectors (R367–R373) -/

/-- A due message of a vector: not sent while MSI-X is off (R372), held while its slice is FREEZING or FROZEN (R373), pending while masked (R372), sent
otherwise (R370). -/
def vecDue (s : State) (e : Nat) : State :=
  if !s.icu.msixEn then s
  else if decide (e / 8 < s.nSlices) && s.sliceHeld (e / 8) then s.onVector e fun v => { v with held := true }
  else if (s.vector e).mask || s.icu.fmask then s.onVector e fun v => { v with held := true, pba := true }
  else (s.emit (.msix e (s.vector e).addr (s.vector e).data)).onVector e
    fun v => { v with reqs := 0, idle := false, held := false, pba := false }

/-- A message that falls due by itself, when its time has passed or its mask is gone: a write of IDLE in the same cycle wins (R374). -/
def vecLapse (s : State) (e : Nat) : State :=
  let v := s.vector e
  if v.idle && v.idleAt == some s.tim.now then (s.vecDue e).onVector e fun x => { x with idle := true } else s.vecDue e

/-- The idle hint of an entry is written 1 (R371): a request of the same cycle is taken after the write (R374). -/
def idleHint (s : State) (e : Nat) : State :=
  let v := s.vector e
  let s1 := s.onVector e fun x => { x with idle := true, idleAt := some s.tim.now }
  if 0 < v.reqs ∧ v.reqAt = some s.tim.now ∧ v.held = false then s1.vecDue e else s1

/-- A request to a vector (R370–R372). -/
def vecRequest (s : State) (e : Nat) : State :=
  if s.icu.msixEn then
    let s1 := s.onVector e fun v => { v with
      reqs := satAdd 255 v.reqs 1, first := if v.reqs = 0 then s.tim.now else v.first, reqAt := some s.tim.now }
    let v := s1.vector e
    if v.idle || decide (max 1 v.cnt ≤ v.reqs) || v.timeUs == 0 then s1.vecDue e else s1
  else s.count .ICU_ERR_MSIX_OFF

/-- A request that the manager routes to an entry: refused to an entry of a present slice that is not FREE (R367). -/
def vecRequestMgr (s : State) (e : Nat) : State :=
  if decide (e / 8 < s.nSlices) && s.sliceState (e / 8) != 0 then s.count .ICU_ERR_VEC_CONFLICT else s.vecRequest e

/-- The request that a record on an event ring makes (R368). -/
def ringRequest (s : State) (r : Nat) : State :=
  match (s.ring r).slice with
  | some n =>
    if s.sliceState n == 0 || s.sliceState n == 4 then s else s.vecRequest (8 * n + (s.ring r).vector)
  | none => if 1 ≤ r ∧ r ≤ 3 ∧ s.flagN .ICU_MRVEC_EN (r - 1) then s.vecRequestMgr (s.fgetN .ICU_MRVEC_VECTOR (r - 1)) else s

end State

/-! ### Rings -/

/-- Table 5.1 and Table 5.2: the type of a ring (0 SUBMIT, 1 COMMAND, 2 EVENT, 3 STREAM, 4 trace or audit). -/
def Ring.type (r : Ring) (n : Nat) : Nat :=
  if n = 0 then 1 else if n = 1 then 2 else if n = 2 ∨ n = 3 then 4 else field r.geo 11 10

def Ring.base (r : Ring) : Nat := field r.geo 63 12 * 4096
def Ring.k (r : Ring) : Nat := field r.geo 9 5
def Ring.size (r : Ring) : Nat := 2 ^ r.k

/-- Bytes of one entry (Tables 5.1 and 5.2). -/
def Ring.entryBytes (r : Ring) (n : Nat) : Nat :=
  match r.type n with
  | 0 => 32
  | 1 => 32
  | 2 => 16
  | 3 => 2 ^ field r.geo 4 0
  | _ => 64

/-- The geometry held checks against its complement (R412). -/
def Ring.geoOk (r : Ring) : Bool := r.geoN == ~~~ r.geo

/-- Host address of entry `i`. -/
def Ring.addr (r : Ring) (n i : Nat) : Nat := r.base + i * r.entryBytes n

/-- Room for one more record (R166). -/
def Ring.room (r : Ring) : Bool := (r.head + 1) % r.size != r.tail

/-- HEAD past one entry; PHASE flips when HEAD wraps (R167). -/
def Ring.advance (r : Ring) : Ring :=
  let h := (r.head + 1) % r.size
  { r with head := h, phase := if h = 0 then !r.phase else r.phase }

/-- The address of the flushing read after a write: of the 8-byte word that holds the last byte written (R320; DEDUCED from Table 9.8, log entry 41). -/
def lastWord (a n : Nat) : Nat := (a + n - 1) / 8 * 8

/-- A host write and the flushing read that confirms it (R320). -/
def confirmed (p a : Nat) (b : List Byte) : List Output := [.hostWrite p a b, .flush p (lastWord a b.length)]

/-- OWNER of a context (Table 4.15). -/
def Ctx.owner (c : Ctx) : Nat := nfield c.key1 47 40

/-- MOV_CTLn.PSEL and PACE (Table 9.12). -/
def ctlPsel (c : Nat) : Nat := nfield c 24 18
def ctlPace (c : Nat) : Nat := nfield c 17 16

/-- A record with its PHASE bit: bit 15 of bytes 2–3 of an event record, bit 7 of byte 1 of a trace, audit or stream record
(Tables 5.17, 5.19; stream records place it by their own header). -/
def withPhase (typ : Nat) (ph : Bool) (b : List Byte) : List Byte :=
  let o := if typ = 2 then 3 else 1
  b.take o ++ ((b.drop o).take 1).map (fun x => if ph then x ||| 0x80 else x &&& 0x7F) ++ b.drop (o + 1)

namespace State

/-! ### Mover channels (R297–R300, R312, R316) -/

def onMov (s : State) (f : Mover → Mover) : State := { s with mov := f s.mov }
def chan (s : State) (n : Nat) : Chan := Tbl.get Chan.init s.mov.chans n
def onChan (s : State) (n : Nat) (f : Chan → Chan) : State := s.onMov fun m => { m with chans := Tbl.upd Chan.init m.chans n f }

/-- MOV_STSn.STATE (Table 9.4): 0 IDLE, 1 ARMED, 2 RUNNING, 3 STOPPING, 4 HALTED, 5 DRY. -/
def chanSt (s : State) (n : Nat) : Nat := s.fgetN .MOV_STS_STATE n
def chanTo (s : State) (n st : Nat) : State := s.fsetN .MOV_STS_STATE n st

/-- A software channel (R297). -/
def software (s : State) (n : Nat) : Bool := decide (n < 64) && !s.flagN .MOV_STS_ENGINE n

/-- The mover takes no new work: from its stop in an entry until its row of Table 14.6 (R422, R432). -/
def moverStopped (s : State) : Bool :=
  (decide (2 ≤ s.fget .PWR_STS_STATE) && !s.flag .PWR_STS_EXITING) || (s.flag .PWR_STS_ENTERING && decide (4 ≤ s.fget .PWR_STS_APOINT)) || s.pwr.rows.contains 7

/-- A channel starts nothing: the slice that it works for is FREEZING or FROZEN (R346), or the mover is stopped. -/
def chanHeld (s : State) (n : Nat) : Bool :=
  s.moverStopped ||
    (match (s.chan n).slice with
     | some x => s.sliceHeld x
     | none => false)

/-- E, the number of engine channels (R297, R300). -/
def engines (s : State) : Nat := 64 - min 32 (s.fget .MOV_GCFG_SWCH)

/-- The engine channel that a piece of host work goes on: a ring's r mod E, a context's or the spill traffic's s mod E (R300). A context that is not
cached is fetched for the slice of the TDs that wait for it. -/
def engineOf (s : State) : HostWork → Nat
  | .channel n | .flush n => n
  | .ringEntry r | .record r | .tdData r _ | .tdWriteback r _ | .cmdWriteback r => r % s.engines
  | .context eph => (match s.ctx? eph with
      | some k => k.ctx.owner
      | none => ((s.entries.find? fun e => e.eph == eph).map Entry.slice).getD 0) % s.engines
  | .spill n => n % s.engines

/-- The engine channel of a piece of work takes it up or goes on with it: no other piece of it waits for a retry, it waits for none itself, and no change
of SWCH holds new work back (R298, R300, R321). -/
def engineFree (s : State) (w : HostWork) : Bool :=
  let k := s.chan (s.engineOf w)
  if k.work == some w then k.retryAt.isNone && s.chanSt (s.engineOf w) != 5 else k.work.isNone && s.mov.swch.isNone

/-- One OK completion on channel `n` is a credit to the channels that it paces; an ARMED one starts with it (R316), but while its slice's host traffic
is held. -/
def giveCredit (s : State) (n : Nat) : State :=
  (s.mov.chans.map Prod.fst).foldl (fun s m =>
    let c := (s.chan m).ctl
    if ctlPace c = 2 ∧ ctlPsel c = n ∧ s.software m ∧ s.chanSt m ≠ 0 then
      (if s.chanSt m = 1 ∧ s.chanHeld m = false then s.chanTo m 2 else s.countN .MOV_STS_CREDITS m 1)
    else s) s

/-- A descriptor of an engine channel completed OK (R300, R316): its STATUS shows so, and the channels that it paces have a credit. -/
def engineDone (s : State) (n : Nat) : State :=
  (if s.fgetN .MOV_STS_STATUS n = 0 then s else s.fsetN .MOV_STS_STATUS n 0).giveCredit n

/-- The piece of work that a channel was retrying is over; `k` descriptors of its engine channel completed OK. -/
def engineEnd (s : State) (w : HostWork) (k : Nat) : State :=
  let n := s.engineOf w
  let s1 := if (s.chan n).work = some w then (s.onChan n fun _ => Chan.init).chanTo n 0 else s
  (upto k).foldl (fun s _ => s.engineDone n) s1

/-- The PASID that a ring's host traffic carries (R333; manager rings carry none). -/
def ringPasid (s : State) (r : Nat) : Nat :=
  match (s.ring r).slice with
  | some n => (s.slice n).pasid
  | none => 0

/-- Nothing is written for the ring now: it is not ACTIVE, has no room, or its slice is held, fenced or still releases what a freeze held (R168, R191, R346,
R347). -/
def ringBlocked (s : State) (r : Nat) : Bool :=
  (s.ring r).st != 1 || !(s.ring r).room ||
    (match (s.ring r).slice with
     | some n => s.sliceHeld n || s.sliceState n == 4 || (s.slice n).releasing
     | none => false)

/-- The ring enters ERROR for a reason (R168, Table 5.17). -/
def ringError (s : State) (r reason : Nat) : State := s.onRing r fun g => { g with st := 3, reason := reason }

/-- One record written at HEAD, as one write; the flushing read that confirms it; then the request to its vector (R167, R369). A flushing read that
fails stands before it, as HOST_READ_FAIL of the record at HEAD: the write is made here only where it is confirmed (log entry 41). -/
def writeRecord (s : State) (r : Nat) (b : List Byte) : State :=
  let g := s.ring r
  let s1 := s.emits (confirmed (s.ringPasid r) (g.addr r g.head) (withPhase (g.type r) g.phase b))
  ((s1.onRing r Ring.advance).engineDone (s.engineOf (.record r))).ringRequest r

/-- A record that its EVENT ring does not take now is kept, up to 64, and else lost; one for a ring that is UNUSED is lost (R173, R191). -/
def keepRecord (s : State) (r : Nat) (b : List Byte) : State :=
  s.onRing r fun g =>
    if g.st ≠ 0 ∧ g.lost = 0 ∧ g.kept.length < 64 then { g with kept := g.kept ++ [b], keptAt := g.keptAt ++ [s.tim.now] }
    else { g with lost := g.lost + 1 }

/-- An EVENT ring takes a record now: it is not blocked, and none waits before it (R191). -/
def eventOpen (s : State) (r : Nat) : Bool := !s.ringBlocked r && (s.ring r).kept.isEmpty && (s.ring r).lost == 0

end State

/-- An event record (Table 5.17), PHASE 0. -/
def eventBytes (typ status ring info0 info1 : Nat) : List Byte :=
  leBytes 1 typ ++ leBytes 1 status ++ leBytes 2 (ring % 1024) ++ leBytes 4 info0 ++ leBytes 8 info1

namespace State

/-- The INTEGRITY record of a ring's geometry (R410, R411): object 4, the ring, and the slice that holds it. -/
def geoRecord (s : State) (r : Nat) : List Byte := eventBytes 0x08 0x0E r (4 * 2 ^ 24 + r % 1024) ((s.ring r).slice.getD 0)

/-- The held geometry of a ring fails its check: ERROR without a RING_ERROR event and REASON 0 (R412), and an INTEGRITY event on ring 1 (R410).
Where ring 1's own geometry fails then, it enters ERROR too and keeps both records. -/
def geoFail (s : State) (r : Nat) : State :=
  let b := s.geoRecord r
  let s1 := s.ringError r 0
  if s1.eventOpen 1 then
    if (s1.ring 1).geoOk then s1.writeRecord 1 b else ((s1.ringError 1 0).keepRecord 1 b).keepRecord 1 (s.geoRecord 1)
  else s1.keepRecord 1 b

/-- One record written on a ring that takes one; its geometry is checked at each write (Table 13.6). -/
def putRecord (s : State) (r : Nat) (b : List Byte) : State := if (s.ring r).geoOk then s.writeRecord r b else s.geoFail r

/-- A record for an EVENT ring: written when there is room and none waits before it, else kept (up to 64), else lost (R191). -/
def eventRecord (s : State) (r : Nat) (b : List Byte) : State :=
  if s.eventOpen r then if (s.ring r).geoOk then s.writeRecord r b else (s.geoFail r).keepRecord r b
  else s.keepRecord r b

/-- Kept records written while there is room, oldest first (R191); the fuel is their number. -/
def flushKept (s : State) (r : Nat) : Nat → State
  | 0 => s
  | n + 1 =>
    if s.ringBlocked r then s
    else if !(s.ring r).geoOk then s.geoFail r
    else
      match (s.ring r).kept with
      | b :: rest => flushKept ((s.onRing r fun g => { g with kept := rest, keptAt := g.keptAt.drop 1 }).putRecord r b) r n
      | [] => s

/-- Kept records that arose by an instant, written oldest first while there is room as a thaw releases them (R347); the fuel is their number. -/
def releaseKept (s : State) (r t : Nat) : Nat → State
  | 0 => s
  | n + 1 =>
    match (s.ring r).kept, (s.ring r).keptAt with
    | b :: rest, u :: us =>
      if t < u ∨ (s.ring r).st ≠ 1 ∨ (s.ring r).room = false then s
      else if !(s.ring r).geoOk then s.geoFail r
      else releaseKept ((s.onRing r fun g => { g with kept := rest, keptAt := us }).putRecord r b) r t n
    | _, _ => s

/-- Room returned on an EVENT ring: kept records, then one EVENTS_LOST record that carries the count (R191). -/
def ringRoom (s : State) (r : Nat) : State :=
  let s1 := s.flushKept r 64
  if (s1.ring r).kept.isEmpty && decide (0 < (s1.ring r).lost) && !s1.ringBlocked r then
    (s1.onRing r fun g => { g with lost := 0 }).putRecord r (eventBytes 0x05 0 r (s1.ring r).lost 0)
  else s1

/-- An event on a ring (Table 5.18). -/
def event (s : State) (r typ status about info0 info1 : Nat) : State := s.eventRecord r (eventBytes typ status about info0 info1)

/-- An event on the manager event ring. -/
def event1 (s : State) (typ status about info0 info1 : Nat) : State := s.event 1 typ status about info0 info1

/-- An INTEGRITY event (R411): object, INFO0[23:0], ring, slice and EPH concerned. -/
def integrity (s : State) (obj info ring slice eph : Nat) : State :=
  s.event1 0x08 0x0E ring (obj * 2 ^ 24 + info) (eph * 2 ^ 32 + slice)

/-- A RING_ERROR event (R188, R190): on ring 1, and on the event ring of the ring concerned while that is ACTIVE. STATUS is 0 for every reason, HOST_ERROR
included: the reason stands in INFO0 (DESIGN CHOICE, log entry 79). -/
def ringErrorEvent (s : State) (r reason idx info1 : Nat) : State :=
  let s1 := s.event1 0x04 0 r (reason * 2 ^ 28 + idx) info1
  let g := s.ring r
  if 4 ≤ r ∧ (g.type r ≠ 2) ∧ (s.ring g.evtRing).st = 1 ∧ 4 ≤ g.evtRing then s1.event g.evtRing 0x04 0 r (reason * 2 ^ 28 + idx) info1
  else s1

/-- The ring goes to ERROR with a RING_ERROR event; an UNUSED ring stays UNUSED (R168). -/
def failRing (s : State) (r reason idx info1 : Nat) : State :=
  if (s.ring r).st = 0 then s else (s.ringError r reason).ringErrorEvent r reason idx info1

/-- A register pair that was found unequal (R471): one INTEGRITY event with object 1 and the register's BAR0 offset. -/
def integrityReg (s : State) (ofs : Nat) : State := s.integrity 1 ofs 0 0 0

/-! ### Access errors (R473) -/

/-- A first error is recorded with its kind, BAR, byte enables and offset; a further one sets MORE and counts. -/
def accessError (s : State) (kind bar be domain ofs : Nat) : State :=
  if s.flag .GCTL_ACCESS_ERR_VALID then (s.raise .GCTL_ACCESS_ERR_MORE).count .GCTL_ACCESS_ERR_COUNT
  else
    ((((((s.raise .GCTL_ACCESS_ERR_VALID).fset .GCTL_ACCESS_ERR_KIND kind).fset .GCTL_ACCESS_ERR_BAR bar).fset
      .GCTL_ACCESS_ERR_FIRST_BE be).fset .GCTL_ACCESS_ERR_LAST_BE (be / 16)).fset .GCTL_ACCESS_ERR_COUNT 1).wr
      .GCTL_ACCESS_ADDR 0 (BitVec.ofNat 64 (domain % 256 * 2 ^ 24 + ofs % 2 ^ 24))

/-- The set byte enables of a request lie side by side (Table 16.2). -/
def contiguous (be : Nat) : Bool := (upto 8).any fun a => (upto 9).any fun n => n != 0 && be == (2 ^ n - 1) * 2 ^ a

/-- A write with a byte enable clear: dropped and logged as NARROW or SPARSE; with no byte enabled, not logged (Table 16.2). -/
def narrowWrite (s : State) (bar be ofs : Nat) : State :=
  if be = 0 then s else s.accessError (if contiguous be then 1 else 2) bar be 0 ofs

/-! ### Frames -/

/-- Frame rate in force (R50). -/
def frate (s : State) : Nat := s.fget .TIM_FRATE_ACT_FRATE_ACT

/-- Nominal frame length, floor (R48). -/
def frameLen (s : State) : Nat := 1000000000 / s.frate

/-- Number of the frame in progress (R49). -/
def frameNo (s : State) : Nat := s.tim.frameNo

/-- Time-quality class (R40). -/
def qclass (s : State) : Nat := s.fget .TIM_STS_QCLASS

end State

end Sys2Proof.Machine
end

