-- ==== Sys2Proof/Machine/Operands.lean ====
section
/-! DEFINITION. Machine/Operands.lean: the fields of the words and records that commands act on: endpoint handles, endpoint
contexts, transfer and command descriptors, packet headers, and the SETUP payload. -/

namespace Sys2Proof.Machine

/-- A number with its field `hi:lo` set. -/
def nset (w hi lo v : Nat) : Nat := w - nfield w hi lo * 2 ^ lo + v % 2 ^ (hi + 1 - lo) * 2 ^ lo

/-! ### Endpoint handles: port [24:19], device address [18:7], direction [6], endpoint [5:0] -/

def Eph.port (e : Nat) : Nat := nfield e 24 19
def Eph.addr (e : Nat) : Nat := nfield e 18 7
def Eph.dir (e : Nat) : Nat := nfield e 6 6
def Eph.ep (e : Nat) : Nat := nfield e 5 0
def Eph.mk (port addr dir ep : Nat) : Nat := port % 64 * 2 ^ 19 + addr % 4096 * 2 ^ 7 + dir % 2 * 64 + ep % 64

/-! ### Endpoint contexts (Table 4.15) -/

def Ctx.eph (c : Ctx) : Nat := nfield c.key0 24 0
def Ctx.cls (c : Ctx) : Nat := nfield c.key0 31 29
def Ctx.mps (c : Ctx) : Nat := 2 ^ (nfield c.key0 28 25 + 3)
def Ctx.tier (c : Ctx) : Nat := nfield c.key1 37 35
def Ctx.route (c : Ctx) : Nat := nfield c.key1 34 0
def Ctx.base (c : Ctx) : Nat := nfield c.key2 31 19 * 4096
def Ctx.size (c : Ctx) : Nat := nfield c.key2 18 10 * 4096
def Ctx.ring (c : Ctx) : Nat := nfield c.key2 9 0
def Ctx.state (c : Ctx) : Nat := nfield c.w32 31 28
def Ctx.toggle (c : Ctx) : Nat := nfield c.w32 27 27
def Ctx.pingNeeded (c : Ctx) : Bool := nfield c.w32 26 26 == 1
def Ctx.resident (c : Ctx) : Bool := nfield c.w32 25 25 == 1
def Ctx.shadow (c : Ctx) : Bool := nfield c.w32 24 24 == 1
def Ctx.retryLim (c : Ctx) : Nat := nfield c.w32 23 21
def Ctx.errCnt (c : Ctx) : Nat := nfield c.w32 20 18
def Ctx.intExp (c : Ctx) : Nat := nfield c.w32 17 14
def Ctx.burst (c : Ctx) : Nat := nfield c.w32 13 10
def Ctx.phase (c : Ctx) : Nat := nfield c.w32 9 0
def Ctx.setState (c : Ctx) (v : Nat) : Ctx := { c with w32 := nset c.w32 31 28 v }
def Ctx.setToggle (c : Ctx) (v : Nat) : Ctx := { c with w32 := nset c.w32 27 27 v }
def Ctx.setPing (c : Ctx) (v : Bool) : Ctx := { c with w32 := nset c.w32 26 26 (bit v) }
def Ctx.setResident (c : Ctx) (v : Bool) : Ctx := { c with w32 := nset c.w32 25 25 (bit v) }
def Ctx.setShadow (c : Ctx) (v : Bool) : Ctx := { c with w32 := nset c.w32 24 24 (bit v) }
def Ctx.setErrCnt (c : Ctx) (v : Nat) : Ctx := { c with w32 := nset c.w32 20 18 (min 7 v) }

/-- The pair checks of the key words (R152). -/
def Ctx.keysOk (c : Ctx) : Bool :=
  c.key0n == 2 ^ 32 - 1 - c.key0 % 2 ^ 32 && c.key1n == 2 ^ 64 - 1 - c.key1 % 2 ^ 64 && c.key2n == 2 ^ 32 - 1 - c.key2 % 2 ^ 32

/-- A context from its 64 bytes. -/
def Ctx.ofBytes (b : List Byte) : Ctx where
  key0 := leNat (slice 0 4 b)
  key0n := leNat (slice 4 4 b)
  key1 := leNat (slice 8 8 b)
  key1n := leNat (slice 16 8 b)
  key2 := leNat (slice 24 4 b)
  key2n := leNat (slice 28 4 b)
  w32 := leNat (slice 32 4 b)
  wrPtr := leNat (slice 36 4 b)
  rdPtr := leNat (slice 40 4 b)
  rtt := leNat (slice 44 4 b)
  nyLimit := leNat (slice 48 4 b)
  overrun := leNat (slice 52 4 b)
  link := leNat (slice 56 4 b)
  priv := leNat (slice 60 4 b)

/-- The 64 bytes of a context. -/
def Ctx.toBytes (c : Ctx) : List Byte :=
  leBytes 4 c.key0 ++ leBytes 4 c.key0n ++ leBytes 8 c.key1 ++ leBytes 8 c.key1n ++ leBytes 4 c.key2 ++ leBytes 4 c.key2n ++
  leBytes 4 c.w32 ++ leBytes 4 c.wrPtr ++ leBytes 4 c.rdPtr ++ leBytes 4 c.rtt ++ leBytes 4 c.nyLimit ++ leBytes 4 c.overrun ++
  leBytes 4 c.link ++ leBytes 4 c.priv

/-- CLASS and MPS as Table 4.1 allows them for the handle's endpoint and direction. -/
def Ctx.classOk (c : Ctx) : Bool :=
  let m := c.mps
  let ep := Eph.ep c.eph
  let dir := Eph.dir c.eph
  match c.cls with
  | 0 => ep == 0 && dir == 0 && decide (64 ≤ m ∧ m ≤ 4096)
  | 1 => ep != 0 && dir == 0 && m == 128
  | 2 => ep != 0 && dir == 1 && decide (8 ≤ m ∧ m ≤ 2048)
  | 3 => ep != 0 && dir == 1 && decide (8 ≤ m ∧ m ≤ 2048)
  | 4 => ep != 0 && decide (8 ≤ m ∧ m ≤ 4096)
  | _ => false

/-! ### Transfer descriptors (Table 5.11) -/

def Td.dw (t : Td) (i : Nat) : Nat := leNat (slice (4 * i) 4 t.bytes)
def Td.own (t : Td) : Bool := nfield (t.dw 0) 31 31 == 1
def Td.typ (t : Td) : Nat := nfield (t.dw 0) 30 27
def Td.kind (t : Td) : Nat := nfield (t.dw 0) 29 27
def Td.nb (t : Td) : Bool := nfield (t.dw 0) 30 30 == 1
def Td.ioc (t : Td) : Bool := nfield (t.dw 0) 26 26 == 1
def Td.chn (t : Td) : Bool := nfield (t.dw 0) 25 25 == 1
def Td.eph (t : Td) : Nat := nfield (t.dw 0) 24 0
def Td.len (t : Td) : Nat := t.dw 1
def Td.buf (t : Td) : Nat := leNat (slice 8 8 t.bytes)
def Td.waitIdx (t : Td) : Nat := nfield (t.dw 4) 31 16
def Td.doneIdx (t : Td) : Nat := nfield (t.dw 4) 15 0
def Td.waitEn (t : Td) : Bool := nfield (t.dw 5) 31 31 == 1
def Td.doneEn (t : Td) : Bool := nfield (t.dw 5) 30 30 == 1
def Td.doneMode (t : Td) : Nat := nfield (t.dw 5) 29 28
def Td.flow (t : Td) : Nat := nfield (t.dw 5) 27 16
def Td.tag (t : Td) : Nat := nfield (t.dw 5) 15 0
def Td.nbFrame (t : Td) : Nat := t.dw 6
def Td.execOfs (t : Td) : Nat := t.dw 7

/-! ### Command descriptors (Table 5.20) -/

/-- A field of a descriptor's first word. -/
def cmdDw0 (b : List Byte) : Nat := leNat (slice 0 4 b)
def cmdOwn (b : List Byte) : Bool := nfield (cmdDw0 b) 31 31 == 1
def cmdIoc (b : List Byte) : Bool := nfield (cmdDw0 b) 30 30 == 1
def cmdOp (b : List Byte) : Nat := nfield (cmdDw0 b) 23 16
def cmdOpN (b : List Byte) : Nat := nfield (cmdDw0 b) 15 8
def cmdArg0 (b : List Byte) : Nat := leNat (slice 8 8 b)
def cmdArg1 (b : List Byte) : Nat := leNat (slice 16 8 b)
def cmdArg2 (b : List Byte) : Nat := leNat (slice 24 8 b)

/-- The bits outside a list of fields are zero. -/
def onlyFields (v : Nat) : List (Nat × Nat) → Bool
  | [] => v == 0
  | (hi, lo) :: r => onlyFields (v - nfield v hi lo * 2 ^ lo) r

end Sys2Proof.Machine

namespace Sys2Proof

/-! ### Packets (Table 3.4, Table 3.5) -/

/-- The 16 header bytes of a packet with a link sequence number. -/
def Pkt.header (p : Pkt) (lseq : Nat) : List Byte :=
  leBytes 1 (p.pid % 16 + 16 * (15 - p.pid % 16)) ++ leBytes 2 (lseq % 4096 + bit p.up * 2 ^ 13) ++ leBytes 5 (p.route % 2 ^ 35) ++
  leBytes 3 (p.devaddr % 4096 + p.epnum % 64 * 2 ^ 12 + p.dir % 2 * 2 ^ 18 + p.tag % 16 * 2 ^ 19) ++
  leBytes 2 p.payload.length ++ leBytes 2 (0x1FFF - p.payload.length % 0x2000) ++ leBytes 1 p.pflags

/-- The trailer of a packet (R82). -/
def Pkt.trailer (p : Pkt) (lseq : Nat) : Word := crc32c (p.header lseq ++ p.payload)

/-- A packet as it stands on the link. -/
def Pkt.raw (p : Pkt) (lseq : Nat) : RawPkt := ⟨p.header lseq, p.payload, p.trailer lseq, false⟩

/-- The fields of a received header. -/
def RawPkt.pid (r : RawPkt) : Nat := leNat (slice 0 1 r.header) % 16
def RawPkt.pidN (r : RawPkt) : Nat := leNat (slice 0 1 r.header) / 16
def RawPkt.w1 (r : RawPkt) : Nat := leNat (slice 1 2 r.header)
def RawPkt.lseq (r : RawPkt) : Nat := r.w1 % 4096
def RawPkt.up (r : RawPkt) : Bool := nfield r.w1 13 13 == 1
def RawPkt.w3 (r : RawPkt) : Nat := leNat (slice 3 5 r.header)
def RawPkt.w8 (r : RawPkt) : Nat := leNat (slice 8 3 r.header)
def RawPkt.len (r : RawPkt) : Nat := leNat (slice 11 2 r.header)
def RawPkt.lenN (r : RawPkt) : Nat := leNat (slice 13 2 r.header)
def RawPkt.pflags (r : RawPkt) : Nat := leNat (slice 15 1 r.header)

/-- The packet that a received one carries. -/
def RawPkt.pkt (r : RawPkt) : Pkt where
  pid := r.pid
  up := r.up
  route := r.w3 % 2 ^ 35
  tag := nfield r.w8 22 19
  dir := nfield r.w8 18 18
  epnum := nfield r.w8 17 12
  devaddr := nfield r.w8 11 0
  pflags := r.pflags
  payload := r.payload

/-- PFLAGS of a DATA packet (Table 4.2). -/
def Pkt.timed (p : Pkt) : Bool := nfield p.pflags 0 0 == 1
def Pkt.compl (p : Pkt) : Bool := nfield p.pflags 1 1 == 1
def Pkt.late (p : Pkt) : Bool := nfield p.pflags 2 2 == 1
def Pkt.more (p : Pkt) : Bool := nfield p.pflags 3 3 == 1

/-- The time field of a timed payload, and the data after it (Table 4.3). -/
def Pkt.stamp (p : Pkt) : Nat := leNat (p.payload.take 8)
def Pkt.data (p : Pkt) : List Byte := if p.timed then p.payload.drop 8 else p.payload

end Sys2Proof

namespace Sys2Proof.Machine

/-! ### SETUP payload (Table 4.8) -/

def setupReq (b : List Byte) : Nat := leNat (slice 0 1 b)
def setupIn (b : List Byte) : Bool := nfield (leNat (slice 1 1 b)) 7 7 == 1
def setupValue (b : List Byte) : Nat := leNat (slice 2 2 b)
def setupIndex (b : List Byte) : Nat := leNat (slice 4 2 b)
def setupLen (b : List Byte) : Nat := leNat (slice 6 2 b)
/-- The status stage is an IN transaction: the data stage is OUT or absent (R137). -/
def statusIn (setup : List Byte) : Bool := !setupIn setup || setupLen setup == 0
/-- A SETUP payload from its fields. -/
def setupBytes (req : Nat) (inn : Bool) (value index len : Nat) : List Byte :=
  leBytes 1 req ++ leBytes 1 (128 * bit inn) ++ leBytes 2 value ++ leBytes 2 index ++ leBytes 2 len

/-- An endpoint named by EPADDR = EPNUM + 128 × DIR. -/
def epAddr (ep dir : Nat) : Nat := ep + 128 * dir

/-- Each byte of the second half is the complement of its partner in the first (R125, R180). -/
def complPair (b : List Byte) : Bool :=
  let p := b.length / 2
  b.length == 2 * p && b.drop p == (b.take p).map (~~~ ·)

end Sys2Proof.Machine
end

