-- ==== Sys2Proof/Machine/Flags.lean ====
section
/-! DEFINITION. Machine/Flags.lean: completion status codes (Table 13.8, Table 13.9), the status word of a completed transfer
descriptor, and the event types (Table 5.18). -/

namespace Sys2Proof.Machine

/-! ### Completion status codes (R413) -/

def stOk : Nat := 0x00
def stShort : Nat := 0x01
def stStall : Nat := 0x02
def stBabble : Nat := 0x03
def stNoResponse : Nat := 0x04
def stCrcFail : Nat := 0x05
def stToggle : Nat := 0x06
def stNotyet : Nat := 0x07
def stBusReset : Nat := 0x08
def stDisconnected : Nat := 0x09
def stCancelled : Nat := 0x0A
def stSliceReset : Nat := 0x0B
def stMisaligned : Nat := 0x0C
def stBounds : Nat := 0x0D
def stIntegrity : Nat := 0x0E
def stAbsent : Nat := 0x0F
def stDeadline : Nat := 0x10
def stLength : Nat := 0x11
def stOverbooked : Nat := 0x12
def stHostError : Nat := 0x13
def stFwBusy : Nat := 0xB0
def stFwFailed : Nat := 0xB1

/-- The statuses after which a transfer has no timestamp although transactions completed (R182). -/
def untimed (st : Nat) : Bool := st == stStall || st == stBabble || st == stToggle

/-- The status word (Table 5.15). -/
def Done.word (d : Done) (tag : Nat) : Nat :=
  tag % 2 ^ 16 + bit d.more * 2 ^ 18 + (if d.ts.isSome then d.qclass % 8 * 2 ^ 19 else 2 ^ 22) + bit d.late * 2 ^ 23 +
  d.status % 256 * 2 ^ 24

/-! ### Event types (Table 5.18) -/

def evTd : Nat := 0x01
def evCmd : Nat := 0x02
def evPort : Nat := 0x03
def evPolicyAction : Nat := 0x06
def evPolicyAdvice : Nat := 0x07
def evEndpoint : Nat := 0x09
def evDeviceFail : Nat := 0x0A
def evRolled : Nat := 0x10
def evSpill : Nat := 0x11
def evCommit : Nat := 0x12
def evAdmission : Nat := 0x13
def evMailbox : Nat := 0x14
def evSlice : Nat := 0x15
def evStream : Nat := 0x16
def evHealth : Nat := 0x17
def evPower : Nat := 0x18
def evTwin : Nat := 0x19

end Sys2Proof.Machine
end

