-- ==== Sys2Proof/Machine/IcuBase.lean ====
section
/-! DEFINITION. Machine/IcuBase.lean: interrupt sources and their lines (R354–R358), their requests to vectors (R367–R369), and the offers to the
supervisor cores (R359–R366). -/

namespace Sys2Proof.Machine

namespace State

def source (s : State) (x : Nat) : Source := Tbl.get Source.init s.icu.sources x
def onSource (s : State) (x : Nat) (f : Source → Source) : State :=
  s.onIcu fun i => { i with sources := Tbl.upd Source.init i.sources x f }
def core (s : State) (n : Nat) : Core := Tbl.get Core.init s.icu.cores n
def onCore (s : State) (n : Nat) (f : Core → Core) : State := s.onIcu fun i => { i with cores := Tbl.upd Core.init i.cores n f }

/-- A slice whose source this is (Table 11.1). -/
def sliceSource (s : State) (x : Nat) : Option Nat :=
  if 256 ≤ x ∧ x < 256 + 2 * s.nSlices ∧ x < s.nSources then some ((x - 256) / 2) else none

/-- The condition of Table 11.1 behind a source's line; a firmware-internal source has the line that its unit drives. -/
def lineOf (s : State) (x : Nat) : Bool :=
  if s.nSources ≤ x then false
  else if x < 64 then decide (x < s.nPorts) && s.rd .PRT_CHG x != 0
  else if x < 128 then
    let n := x - 64
    !s.flagN .MOV_STS_ENGINE n && (s.flagN .MOV_STS_DONE n || s.flagN .MOV_STS_HALT n || s.flagN .MOV_STS_MISMATCH n)
  else if x = 128 then s.rd .TIM_EVT 0 != 0
  else if x = 129 then s.rd .SCH_ADM_EVT 0 != 0
  else if x = 130 then s.rd .GTH_EVT 0 != 0
  else if x = 131 then s.hasCoder && s.rd .CDR_EVT 0 != 0
  else if x = 132 then s.rd .MOV_GEVT 0 != 0
  else if x = 133 then (upto s.nSlices).any fun n => s.rd .MBM_EVT n != 0
  else if x = 134 then s.flag .GCTL_ACCESS_ERR_VALID
  else if x = 135 then s.rd .PWR_EVT 0 != 0
  else if x = 136 then s.rd .HLT_EVT 0 != 0
  else if x = 137 then s.rd .SEC_EVT 0 != 0
  else if x = 138 then s.hasTwin && s.rd .TWN_EVT 0 != 0
  else if 192 ≤ x ∧ x < 256 then (s.source x).line
  else match s.sliceSource x with
    | some n => if x % 2 = 0 then s.rd .MBT_EVT n != 0 else s.rd .SLT_EVT n != 0
    | none => false

/-- SENSE in use: 0 for a slice source (R375). -/
def senseOf (s : State) (x : Nat) : Nat := if (s.sliceSource x).isSome then 0 else (s.source x).sense

/-- The line is at the active level of a level sense. -/
def levelActive (s : State) (x : Nat) : Bool := (s.senseOf x == 0 && s.lineOf x) || (s.senseOf x == 1 && !s.lineOf x)

/-! ### Requests to vectors (R368) -/

/-- One request of a source with a vector target; it clears an edge source's PEND, which stays while MSI-X is off (R372). The slice sources target their own
slice's vectors. -/
def sourceRequest (s : State) (x : Nat) : State :=
  match s.sliceSource x with
  | some n =>
    if s.sliceState n == 0 || s.sliceState n == 4 then s
    else s.vecRequest (8 * n + (if x % 2 = 0 then s.fgetN .SLI_ROUTE_MBX_VEC n else s.fgetN .SLI_ROUTE_STS_VEC n))
  | none =>
    if (s.source x).tmode = 2 then
      (if 2 ≤ s.senseOf x ∧ s.icu.msixEn = true then s.onSource x fun o => { o with pend := false } else s).vecRequestMgr (s.source x).vector
    else s

/-- PEND set; a request where PEND and EN become 1 together. No source 0x7FF is ever raised (R354). -/
def setPend (s : State) (x : Nat) : State :=
  let o := s.source x
  let s1 := s.onSource x fun o => { o with pend := true }
  if x = 0x7FF then s else if o.en && !o.pend then s1.sourceRequest x else s1

/-- A level source whose line is active is pending while it is not active on a core. -/
def levelPend (s : State) (x : Nat) : State := if s.levelActive x && !(s.source x).act then s.setPend x else s

/-- After a clearing read of a register that feeds a source's line: a further request of a level source whose line is still active (R368). -/
def lineReread (s : State) (x : Nat) : State := if (s.source x).en && s.levelActive x then s.sourceRequest x else s

/-- A clearing read of an event register that feeds a source (R468, R368). -/
def eventRead (s : State) (r sh : Reg) (i : Nat) (both : Bool) (x : Nat) : State := (s.clearingRead r sh i both).lineReread x

/-! ### Offers to cores (R358–R366) -/

/-- The group field of a priority; 0x100 is the lowest of all. -/
def prioGroup (s : State) (p : Nat) : Nat := p / 2 ^ s.fget .ICU_PRIGROUP_G

/-- The source offered to a core. -/
def offered (s : State) (n : Nat) : Option Nat :=
  if s.flagN .ICU_CORESTS_OFFER n then some (s.fgetN .ICU_CORESTS_NUM n) else none

/-- A source may be delivered to cores now. -/
def eligible (s : State) (x : Nat) : Bool :=
  let o := s.source x
  o.pend && o.en && !o.act && o.tmode == 1 && decide (x < s.nSources)

/-- RP(n) from the sources active on a core (R360). -/
def runningPrio (s : State) (n : Nat) : Nat :=
  (s.icu.sources.filter fun y => y.2.act && y.2.onCore == n).foldl (fun m y => min m y.2.claimPrio) 0x100

/-- A source could interrupt what runs on a core. -/
def mayOffer (s : State) (x n : Nat) : Bool :=
  nfield (s.source x).cores n n == 1 && decide (s.prioGroup (s.source x).prio < s.prioGroup (s.fgetN .ICU_CORESTS_RP n)) 

/-- The most urgent of a list: by group field, sub-priority and source number, which is by priority and number. -/
def mostUrgent (s : State) (l : List Nat) : Option Nat :=
  l.foldl (fun m x => match m with
    | some y => if (s.source x).prio < (s.source y).prio ∨ ((s.source x).prio = (s.source y).prio ∧ x < y) then some x else m
    | none => some x) none

/-- Eligible sources offered to no core. -/
def unoffered (s : State) : List Nat :=
  (s.icu.sources.map Prod.fst).filter fun x => s.eligible x && (upto 4).all fun n => s.offered n != some x

/-- Where a core stands at an instant: the 30 ns of a switch window or of an exit sequence pass by themselves. -/
def coreNow (s : State) (n : Nat) : Core :=
  let c := s.core n
  match c.st with
  | .switching => if c.since + 30 < s.tim.now then { c with st := .handling } else c
  | .exiting =>
    if c.since + 30 < s.tim.now then { c with depth := c.depth - 1, st := if 1 < c.depth then .handling else .idle } else c
  | _ => c

/-- A source is offered to a core: by a full entry, or by exit hand-off, which leaves the save area as it is (R360, R364). The core leaves WAIT, and the controller IDLE
(R421). -/
def offer (s : State) (x n : Nat) : State :=
  let c := s.coreNow n
  let c1 : Core := if c.st = .exiting then { c with st := .handling, held := none } else { st := .switching, depth := c.depth + 1, since := s.tim.now }
  let s0 := if s.fget .PWR_STS_STATE = 1 then s.fset .PWR_STS_STATE 0 else s
  ((((s0.fsetN .ICU_CORESTS_OFFER n 1).fsetN .ICU_CORESTS_NUM n x).fsetN .ICU_CORESTS_WAIT n 0).onCore n fun _ => c1).onIcu fun i =>
    { i with lastCore := n }

/-- The sources that could be offered to a core: the requests that its moderation counts (R370). -/
def offerable (s : State) (n : Nat) : List Nat := s.unoffered.filter fun x => s.mayOffer x n

/-- TIME_US and CNT of ICU_CMODn hold offers to the core back (R370). -/
def moderated (s : State) (n : Nat) : Bool := decide (0 < s.fgetN .ICU_CMOD_TIME_US n) && decide (1 < s.fgetN .ICU_CMOD_CNT n)

/-- An offer to a core is due: it is not moderated, CNT sources could be offered, TIME_US has passed since the first of them, or the core is in WAIT
(R370, R371). -/
def coreDue (s : State) (n : Nat) : Bool :=
  !s.moderated n || decide (s.fgetN .ICU_CMOD_CNT n ≤ (s.offerable n).length) || s.flagN .ICU_CORESTS_WAIT n ||
    (match (s.core n).held with
     | some u => decide (u + s.fgetN .ICU_CMOD_TIME_US n * 1000 ≤ s.tim.now)
     | none => false)

/-- The instant from which a moderated core's offer waits (R370). -/
def noteHeld (s : State) (n : Nat) : State :=
  if s.moderated n then
    s.onCore n fun c => { c with held :=
      if (s.offered n).isSome || (s.offerable n).isEmpty then none else some (c.held.getD s.tim.now) }
  else s

/-- The core with the least urgent RP among those that may take a source, have no offer and are due one; ties go to the first after the one last
picked. -/
def pickCore (s : State) (x : Nat) : Option Nat :=
  let order := (upto 4).map fun i => (s.icu.lastCore + 1 + i) % 4
  (order.filter fun n => (s.offered n).isNone && s.mayOffer x n && s.coreDue n).foldl (fun m n => match m with
    | some k => if s.fgetN .ICU_CORESTS_RP k < s.fgetN .ICU_CORESTS_RP n then some n else m
    | none => some n) none

/-- A core in the switch window of an offer that a source overtakes: it is more urgent by its group field (R363). -/
def overtaken (s : State) (x : Nat) : Option Nat :=
  (upto 4).find? fun n => (s.coreNow n).st == .switching && s.mayOffer x n && (match s.offered n with
    | some y => decide (s.prioGroup (s.source x).prio < s.prioGroup (s.source y).prio)
    | none => false)

/-- Sources offered until no more can be; the fuel bounds the number of offers. -/
def offerAll (s : State) : Nat → State
  | 0 => s
  | k + 1 =>
    let l := s.unoffered
    match s.mostUrgent (l.filter fun x => (s.pickCore x).isSome) with
    | some x =>
      match s.pickCore x with
      | some n => (s.offer x n).offerAll k
      | none => s
    | none =>
      match s.mostUrgent (l.filter fun x => (s.overtaken x).isSome) with
      | some x =>
        match s.overtaken x with
        | some n => (s.fsetN .ICU_CORESTS_NUM n x).offerAll k
        | none => s
      | none => s

/-- Offers are held pending: an entry, a low-power state or an exit is on (R421). -/
def offersHeld (s : State) : Bool := decide (2 ≤ s.fget .PWR_STS_STATE) || s.flag .PWR_STS_ENTERING || s.flag .PWR_STS_EXITING

/-- After any change of the sources. -/
def icuSettle (s : State) : State :=
  if s.offersHeld then s else ((upto 4).foldl noteHeld s).offerAll (4 * s.icu.sources.length + 4)

end State

end Sys2Proof.Machine
end

