-- ==== Sys2Proof/Machine/TimeBase.lean ====
section
/-! DEFINITION. Machine/TimeBase.lean: the time base and the frame tick (chapter 02): discipline, classes, labels, steps, the
instants and numbers of frames, and the reads and writes of the TIM registers that have a row of their own. -/

namespace Sys2Proof.Machine

/-! ### Tick instants and frame numbers (R48, R49) -/

def second : Nat := 1000000000

/-- Offset of tick `k` into the second. -/
def tickOfs (f k : Nat) : Nat := k * second / f

/-- The last tick instant at or before `t`, as second and index. -/
def tickIndex (f t : Nat) : Nat × Nat :=
  let ns := t % second
  let k := ns * f / second
  (t / second, if k + 1 < f ∧ tickOfs f (k + 1) ≤ ns then k + 1 else k)

/-- The instant of a tick. -/
def tickTime (f : Nat) (p : Nat × Nat) : Nat := p.1 * second + tickOfs f p.2

/-- The tick after a tick. -/
def tickNext (f : Nat) (p : Nat × Nat) : Nat × Nat := if p.2 + 1 < f then (p.1, p.2 + 1) else (p.1 + 1, 0)

/-- The first tick instant after `t`. -/
def tickAfter (f t : Nat) : Nat := tickTime f (tickNext f (tickIndex f t))

/-- The first tick instant at or after `t`. -/
def tickFrom (f t : Nat) : Nat := if tickTime f (tickIndex f t) = t then t else tickAfter f t

/-- The number of the frame that starts at tick instant `t` (R49). -/
def frameNumber (f t : Nat) : Nat := ((tickIndex f t).1 * f + (tickIndex f t).2) % 2 ^ 32

/-- One nominal frame, rounded up to a whole nanosecond. -/
def nominalFrame (f : Nat) : Nat := (second + f - 1) / f

/-! ### Rows and classes (R39, R40) -/

/-- Half width of the class error while locked, ns. -/
def TimeRow.limit : TimeRow → Nat
  | .refPps => 15
  | .pps => 15
  | .irig => 200
  | .ptm => 50
  | .held => 0
  | .never => 0

/-- The class that a locked row gives. -/
def TimeRow.cls : TimeRow → Nat
  | .refPps => 0
  | .pps => 1
  | .irig => 2
  | .ptm => 4
  | .held => 7
  | .never => 7

/-- TIM_STS.PHASE_SRC of a row. -/
def TimeRow.phaseSrc : TimeRow → Nat
  | .refPps => 1
  | .pps => 1
  | .irig => 2
  | .ptm => 3
  | .held => 0
  | .never => 0

namespace State

/-- A bit of TIM_CTL in effect (R67). -/
def ctlBit (s : State) (b : Nat) : Bool := field s.tim.effCtl b b != 0

/-- REF_IN is enabled and valid. -/
def refIn (s : State) : Bool := s.ctlBit 2 && s.flag .TIM_STS_REF_OK

/-- The first row of Table 2.2 whose inputs are enabled and valid. -/
def timeRow (s : State) : TimeRow :=
  if s.ctlBit 3 && s.flag .TIM_STS_PPS_OK then (if s.refIn then .refPps else .pps)
  else if s.ctlBit 4 && s.flag .TIM_STS_IRIG_OK then .irig
  else if s.ctlBit 5 && s.flag .TIM_STS_PTM_OK then .ptm
  else if s.tim.everValid then .held
  else .never

/-- TIM_STS.FREQ_SRC (Table 2.2, Table 2.16). -/
def freqSrc (s : State) : Nat :=
  match s.timeRow with
  | .refPps => 1
  | .pps => 2
  | .irig => if s.refIn then 1 else 3
  | .ptm => 4
  | .held => if s.refIn then 1 else 0
  | .never => if s.refIn then 1 else 0

/-- The class of Table 2.3. -/
def timeClass (s : State) : Nat :=
  let e := s.fget .TIM_ERR_EST_ERR_EST
  if !s.flag .TIM_STS_LABEL_VALID then 7
  else if s.tim.locked && s.timeRow.phaseSrc != 0 then s.timeRow.cls
  else if !s.tim.everLocked then 7
  else if e ≤ 1000 then 3
  else if e ≤ 10000 then 5
  else if e ≤ 1000000 then 6
  else 7

/-- PPS_OUT may be driven: PPS_OUT_EN is 1 and the class is not 7 (R52). -/
def ppsDriven (s : State) : Bool := s.ctlBit 9 && s.qclass != 7

/-- PPS_OUT falls where its 100,000,000 ns end by the instant `t` (R52). -/
def ppsFall (s : State) (t : Nat) : State :=
  match s.tim.ppsHighUntil with
  | some u => if u ≤ t then (s.emit (.ppsOut false u)).onTim fun b => { b with ppsHighUntil := none } else s
  | none => s

/-- PPS_OUT is held low while it may not be driven (R52); a pulse that was over by now fell at its own end. -/
def ppsOutHold (s : State) : State :=
  let s0 := s.ppsFall s.tim.now
  if s0.tim.ppsHighUntil.isSome && !s.ppsDriven then (s0.emit (.ppsOut false s.tim.now)).onTim fun b => { b with ppsHighUntil := none }
  else s0

/-- PPS_OUT rises at the second `t` of the time base, and stays high for 100,000,000 ns (R52). -/
def ppsRise (s : State) (t : Nat) : State :=
  if s.ppsDriven then (s.emit (.ppsOut true t)).onTim fun b => { b with ppsHighUntil := some (t + 100000000) } else s

/-- The time base was stepped by `d`: PPS_OUT stays high for the rest of its time, and rises where the step ends on a second (R52). -/
def ppsStep (s : State) (d : Int) : State :=
  let s0 := s.ppsFall ((s.tim.now : Int) - d).toNat
  let s1 := s0.onTim fun b => { b with ppsHighUntil := b.ppsHighUntil.map fun u => ((u : Int) + d).toNat }
  if s1.tim.now % second = 0 then s1.ppsRise s1.tim.now else s1

/-- The row in use judged again after a change of an input, of the controls or of the offset: a row whose phase input changed
is not locked; holdover when no input is left; the class follows (R40, R42). -/
def retune (s : State) : State :=
  let p := s.timeRow.phaseSrc
  let s1 := if s.fget .TIM_STS_PHASE_SRC = p then s
    else s.onTim fun b => { b with locked := false, marksIn := 0, marksOut := 0, everValid := b.everValid || p != 0 }
  let s2 := if s1.tim.locked && s1.flag .TIM_STS_LABEL_VALID then s1.onTim fun b => { b with everLocked := true } else s1
  let s3 := ((s2.fset .TIM_STS_PHASE_SRC p).fset .TIM_STS_FREQ_SRC s2.freqSrc).fset .TIM_STS_HOLDOVER (bit (s2.timeRow == .held))
  let c := s3.timeClass
  (if c = s3.qclass then s3 else (s3.fset .TIM_STS_QCLASS c).raise .TIM_EVT_QCLASS_CHANGED).ppsOutHold

/-- TIM_CTL, TIM_DISC, TIM_STEP_THR and TIM_HOLD take effect (R67). A pending step with AUTOSTEP is decided (R46). -/
def loadEff (s : State) : State :=
  s.onTim fun b => { b with
    effCtl := s.rd .TIM_CTL 0, effDisc := s.rd .TIM_DISC 0, effThr := s.rd .TIM_STEP_THR 0, effHold := s.rd .TIM_HOLD 0
    stepAt := if b.stepOfs.isSome && b.stepAt.isNone && s.flag .TIM_CTL_AUTOSTEP then some b.now else b.stepAt }

/-- STEP_THR as it acts (Table 2.25). -/
def stepThr (s : State) : Nat := max 1000 (field s.tim.effThr 31 0)

/-! ### Slew, step and phase marks (R43–R47) -/

/-- A step made while FRAME_EN is 0: the time base moves at once, the ticks follow the new time (R46, R495). -/
def stepNow (s : State) (d : Int) : State :=
  let now := ((s.tim.now : Int) + d).toNat
  let p := tickIndex s.frate now
  (((s.onTim fun b => { b with
    now := now, tickAt := tickTime s.frate p, frameNo := frameNumber s.frate now, stepOfs := none, stepAt := none, stepSec := 0,
    stepped := false }).fset .TIM_STS_STEP_PENDING 0).raise .TIM_EVT_STEP_DONE).ppsStep d

/-- A slew that removes an offset of the time base (R45); it takes the place of the one under way, whose rest the offset holds. -/
def slewOff (s : State) (off : Int) : State := s.onTim fun b => { b with slewFs := -off * 1000000 }

/-- A step by `d` becomes pending, decided at once under AUTOSTEP; the time base keeps its phase, and the slew under way goes on (R46). -/
def stepPend (s : State) (d sec : Int) : State :=
  let s1 := s.onTim fun b => { b with
    stepOfs := some d, stepSec := sec, stepAt := if b.stepAt.isNone && s.ctlBit 10 then some b.now else b.stepAt }
  if s.flag .TIM_STS_STEP_PENDING then s1 else (s1.fset .TIM_STS_STEP_PENDING 1).raise .TIM_EVT_STEP_PENDING_SET

/-- The step for an offset of `sub` ns and `sec` whole seconds. Seconds by which a label disagreed are stepped and a phase within the threshold is slewed
as before; another offset is stepped whole, less what the slew under way, which tracks the old phase, still has to add (R46; log entry 8). -/
def stepFor (s : State) (sub sec : Int) (mismatch : Bool) : State :=
  if mismatch && decide (sub.natAbs ≤ s.stepThr) then (s.slewOff sub).stepPend (-(sec * second)) sec
  else s.stepPend (-(sub + sec * second) - s.tim.slewFs / 1000000) sec

/-- A mark while a step is pending: the slew goes on tracking the old phase, from which the mark lies away by what the step will not remove; a mark
further away than the threshold renews the step. A label that disagreed stands until the step (R46; log entry 8). -/
def trackOld (s : State) (sub sec : Int) : State :=
  let sec' := if sec = 0 then s.tim.stepSec else sec
  let off := sub + sec' * second
  let rest := off + s.tim.stepOfs.getD 0
  if rest.natAbs ≤ s.stepThr then s.slewOff rest else s.stepFor sub sec' (sec' != 0)

/-- An offset (time base minus source) of `sub` ns and `sec` whole seconds corrected (R45, R46): by a step while FRAME_EN is 0; else, above the threshold
or on a label mismatch, a step becomes pending, and an offset up to the threshold is slewed. -/
def correct (s : State) (sub sec : Int) (mismatch : Bool) : State :=
  let off := sub + sec * second
  if !s.flag .TIM_CTL_FRAME_EN then
    let s1 := s.slewOff 0
    if off = 0 then (s1.onTim fun b => { b with stepOfs := none, stepAt := none, stepSec := 0 }).fset .TIM_STS_STEP_PENDING 0 else s1.stepNow (-off)
  else if s.flag .TIM_STS_STEP_PENDING then s.trackOld sub sec
  else if mismatch || decide (s.stepThr < off.natAbs) then s.stepFor sub sec mismatch
  else s.slewOff off

/-- TIM_ERR_EST from the bound kept in ps, rounded down to whole nanoseconds (DESIGN CHOICE, log entry 15: the growth of R42 is given in ps and the
register in ns, and no rule states the rounding). -/
def errShow (s : State) : State := s.fset .TIM_ERR_EST_ERR_EST (min 0xFFFFFFFF (s.tim.errPs / 1000))

/-- Lock counting of one accepted mark of the row in use (R40). -/
def lockCount (s : State) (off : Int) : State :=
  s.onTim fun b =>
    if off.natAbs ≤ s.timeRow.limit then
      { b with marksIn := b.marksIn + 1, marksOut := 0, locked := b.locked || decide (3 ≤ b.marksIn + 1) }
    else { b with marksIn := 0, marksOut := b.marksOut + 1, locked := b.locked && decide (b.marksOut + 1 < 3) }

/-- An accepted phase mark at which the time base shows second `sec` plus `sub` ns, with the label `lab` of the source, if any
(R40, R44–R46, R67). A label is formed at acquisition, in the IRIG_IN row from IRIG_IN only (Table 2.2); later the labels of the source and of
TIM_LABEL are compared. -/
def phaseMark (s : State) (sec : Nat) (sub : Int) (lab : Option Nat) : State :=
  let s1 := s.loadEff
  let first := if lab.isSome || s1.fget .TIM_STS_PHASE_SRC == 2 then lab else s1.tim.labelArmed
  let valid := s1.flag .TIM_STS_LABEL_VALID
  let labels := lab.toList ++ s1.tim.labelArmed.toList
  let d : Int := match (if valid then labels.find? (· != sec) else first) with
    | some l => (sec : Int) - l
    | none => 0
  let off := sub + d * second
  let mism := valid && d != 0
  let s2 := if valid ∨ first.isNone then s1.onTim fun b => { b with labelArmed := none }
    else (s1.fset .TIM_STS_LABEL_VALID 1).onTim fun b => { b with everLocked := false, labelArmed := none }
  let s3 := if mism then s2.raise .TIM_EVT_LABEL_MISMATCH else s2
  let s4 := (s3.fset .TIM_OFFSET_OFFSET (satBits 32 off)).onTim fun b => { b with errPs := off.natAbs * 1000 }
  ((s4.correct sub d mism).lockCount off).errShow.retune

end State

/-- The second nearest to `t`. -/
def nearSec (t : Nat) : Nat := (t + second / 2) / second

/-- How far past its nearest second `t` is. -/
def pastSec (t : Nat) : Int := (t : Int) - (nearSec t * second : Nat)

/-- How far apart two phases of a second are, over the wrap at half a second. -/
def phaseDist (a b : Int) : Nat := min ((a - b) % (second : Nat)).toNat (second - ((a - b) % (second : Nat)).toNat)

/-- The phases of three rejected edges agree to within 1 us (R43). -/
def agree (l : List Int) : Bool := l.all fun a => l.all fun b => decide (phaseDist a b ≤ 1000)

/-- A PPS_IN edge at time-base instant `t`, rising or falling; TIM_CTL.PPS_EDGE chooses the active one (R41). An active edge is accepted within 1 us of the
second that the time base predicts; another is rejected and counted, and the third of three rejected edges that agree is a new phase (R43; log entry 7). -/
def execPpsInEdge (rising : Bool) (t : Nat) (s : State) : Host.Outcome State Fault Refusal :=
  let s00 := s.at_ t
  let sub := pastSec t
  let rej := (sub :: s00.tim.rejected).take 3
  let out := decide (1000 < sub.natAbs)
  let s0 := if out then s00.onTim fun b => { b with ppsRejects := b.ppsRejects + 1 } else s00
  if rising == s00.ctlBit 8 then .next s00
  else if out && !(rej.length == 3 && agree rej) then .next (s0.onTim fun b => { b with rejected := rej })
  else
    let s1 := ((s0.onTim fun b => { b with rejected := [] }).fset .TIM_STS_PPS_OK 1).retune
    if s1.fget .TIM_STS_PHASE_SRC = 1 then
      let lab := if s1.ctlBit 4 && s1.flag .TIM_STS_IRIG_OK then s1.tim.irigLabel else none
      .next ((s1.onTim fun b => { b with irigLabel := none }).phaseMark (nearSec t) sub lab)
    else .next s1

/-- PPS_IN is lost (R43); at the loss of the phase input, holdover (R42). -/
def execPpsInLost (s : State) : Host.Outcome State Fault Refusal :=
  if s.flag .TIM_STS_PPS_OK then .next (((s.fset .TIM_STS_PPS_OK 0).raise .TIM_EVT_PPS_LOST).retune) else .next s

/-- REF_IN is lost (R43). -/
def execRefInLost (s : State) : Host.Outcome State Fault Refusal :=
  if s.flag .TIM_STS_REF_OK then .next (((s.fset .TIM_STS_REF_OK 0).raise .TIM_EVT_REF_LOST).retune) else .next s

/-- REF_IN becomes valid (R43). -/
def execRefInValid (s : State) : Host.Outcome State Fault Refusal := .next ((s.fset .TIM_STS_REF_OK 1).retune)

/-- Loss of IRIG_IN (R43). -/
def State.irigLost (s : State) : State :=
  if s.flag .TIM_STS_IRIG_OK then
    (((s.fset .TIM_STS_IRIG_OK 0).raise .TIM_EVT_IRIG_LOST).onTim fun b => { b with irigLabel := none }).retune
  else s

/-- Seconds from 1970-01-01 to the start of a year of the Gregorian calendar. -/
def yearStart (y : Nat) : Nat :=
  ((y - 1970) * 365 + ((y - 1) / 4 - 1969 / 4) + 1969 / 100 + (y - 1) / 400 - (y - 1) / 100 - 1969 / 400) * 86400

/-- TAI from an IRIG time (R44): minus TIM_IRIG_OFS plus UTC_OFS. -/
def State.irigTai (s : State) (irig : Nat) : Int :=
  (irig : Int) - signedOf 32 (s.fget .TIM_IRIG_OFS_IRIG_OFS) + signedOf 16 (s.fget .TIM_UTC_UTC_OFS)

/-- The candidate closer to `x`. -/
def closer (x : Int) (a b : Int) : Int := if (b - x).natAbs < (a - x).natAbs then b else a

/-- The label of a decoded frame: with a year of two digits (1970–2069, log entry 6), or without one the year that puts the
time closest to TIM_LABEL; none while TIM_LABEL is 0 (R44). -/
def State.irigLabelOf (s : State) (year : Option Nat) (secOfYear : Nat) : Option Nat :=
  match year with
  | some y => some (s.irigTai (yearStart (if y % 100 < 70 then 2000 + y % 100 else 1900 + y % 100) + secOfYear)).toNat
  | none =>
    let l := s.fget .TIM_LABEL_LABEL
    if l = 0 then none
    else
      let y := 1970 + l / 31556952
      some (((upto 3).map fun i => s.irigTai (yearStart (y + i - 1) + secOfYear)).foldl (closer l)
        (s.irigTai (yearStart y + secOfYear))).toNat

/-- A full IRIG_IN frame (R43, R44). `good`: its position identifiers check; the time of year is that of the on-time mark for
which it is held. -/
def execIrigFrameReceive (good : Bool) (year : Option Nat) (secOfYear : Nat) (s : State) : Host.Outcome State Fault Refusal :=
  if good then
    .next ((((s.onTim fun b => { b with irigBad := 0 }).onTim fun b =>
      { b with irigLabel := s.irigLabelOf year secOfYear }).fset .TIM_STS_IRIG_OK 1).retune)
  else
    let s1 := s.onTim fun b => { b with irigBad := b.irigBad + 1 }
    if 2 ≤ s1.tim.irigBad then .next s1.irigLost else .next s1

/-- IRIG_IN is lost (R43). -/
def execIrigInLost (s : State) : Host.Outcome State Fault Refusal := .next s.irigLost

/-- The IRIG_IN on-time mark at time-base instant `t` (R40, R44): a phase mark while the row in use takes its phase from it. -/
def execIrigOnTimeMark (t : Nat) (s : State) : Host.Outcome State Fault Refusal :=
  let s0 := s.at_ t
  if s0.fget .TIM_STS_PHASE_SRC = 2 then
    .next ((s0.onTim fun b => { b with irigLabel := none }).phaseMark (nearSec t) (pastSec t) s0.tim.irigLabel)
  else .next s0

/-- A PTM dialogue that completed with the host's time and the time base at the same instant, or failed (R43). A 1588 value that
R37 rejects counts as a failed dialogue (log entry 9). -/
def execPtmDialogueDone (ok : Bool) (hostSec hostNs loc : Nat) (s : State) : Host.Outcome State Fault Refusal :=
  if ok && decide (hostNs < second) && decide (hostSec < 18446744073) then
    let host := hostSec * second + hostNs
    let s1 := ((((s.at_ loc).onTim fun b => { b with ptmBad := 0, ptmLocal := loc }).fset .TIM_PTM_HOST_HOST host).fset
      .TIM_STS_PTM_OK 1).retune
    if s1.fget .TIM_STS_PHASE_SRC = 3 then
      let off := (loc : Int) - host
      let d := (off + (second / 2 : Nat)) / (second : Nat)
      .next (s1.phaseMark ((hostSec : Int) + d).toNat (off - d * second) (some hostSec))
    else .next s1
  else
    let s1 := s.onTim fun b => { b with ptmBad := b.ptmBad + 1 }
    if decide (3 ≤ s1.tim.ptmBad) && s1.flag .TIM_STS_PTM_OK then
      .next (((s1.fset .TIM_STS_PTM_OK 0).raise .TIM_EVT_PTM_LOST).retune)
    else .next s1

/-- One second of holdover: the error bound grows by TIM_HOLD (R42). -/
def execErrEstGrowth (s : State) : Host.Outcome State Fault Refusal :=
  if s.flag .TIM_STS_HOLDOVER then
    .next ((s.onTim fun b => { b with
      errPs := min 4294967295000 (b.errPs + (if s.refIn then field b.effHold 15 0 else field b.effHold 31 16 * 1000)) }).errShow.retune)
  else .next s

/-- A step that was decided is made at once while FRAME_EN is 0 (R495). -/
def State.stepIfOff (s : State) : State :=
  if s.tim.stepAt.isSome && !s.flag .TIM_CTL_FRAME_EN then
    match s.tim.stepOfs with
    | some d => s.stepNow d
    | none => s
  else s

/-- STEP_GO: a pending step is decided at time-base instant `t` (R46), and made at once while FRAME_EN is 0 (R495); ignored while STEP_PENDING is 0
(Table 2.13). -/
def execStepGo (t : Nat) (s : State) : Host.Outcome State Fault Refusal :=
  s.whenReady (
    let s0 := s.at_ t
    if s0.flag .TIM_STS_STEP_PENDING && s0.tim.stepAt.isNone then .next (s0.onTim fun b => { b with stepAt := some t }).stepIfOff else .next s0)

/-- TIM_CTL.FRAME_EN is written; it takes effect at a tick (R51). -/
def execFrameEnWrite (en : Bool) (s : State) : Host.Outcome State Fault Refusal :=
  s.whenReady (.next (s.fset .TIM_CTL_FRAME_EN (bit en)))

/-! ### The tick (R47–R52) -/

namespace State

/-- A periodic entry is committed on some tree, or a staged commit is in progress (R50). -/
def periodicBusy (s : State) : Bool :=
  s.sched.active.any (fun t => !t.2.isEmpty) || (match s.sched.batch with
    | some b => b.admitted
    | none => false)

/-- The instant of the next tick. -/
def nextTick (s : State) : Nat :=
  if s.tim.stepped then tickFrom s.frate (s.tim.tickAt + nominalFrame s.frate) else tickAfter s.frate s.tim.tickAt

/-- The step that is applied at the tick `t` (R47): the first one at least a nominal frame, rounded up to a whole nanosecond, after the decision; a step that
is decided at a tick with a frame of the shorter length behind it so waits one tick longer (DESIGN CHOICE, log entry 107). While FRAME_EN is 0 a step waits
for no tick (R495). -/
def stepDue (s : State) (t : Nat) : Option Int :=
  match s.tim.stepAt with
  | some d => if d + nominalFrame s.frate ≤ t ∧ s.flag .TIM_CTL_FRAME_EN = true then s.tim.stepOfs else none
  | none => none

/-- The frame rate from the tick `t` on (R50). -/
def rateFrom (s : State) (t : Nat) : Nat :=
  if t % second = 0 && (s.stepDue t).isNone then s.tim.frateAcc.getD s.frate else s.frate

/-- The number of the frame that starts at the next tick (R47, R49, R50). -/
def nextNumber (s : State) : Nat :=
  let t := s.nextTick
  match s.stepDue t with
  | some d => (frameNumber s.frate (tickFrom s.frate (((t : Int) + d).toNat + nominalFrame s.frate)) + 2 ^ 32 - 1) % 2 ^ 32
  | none => frameNumber (s.rateFrom t) t

/-- The judging tick's checks of a pending frame-rate request (R50). -/
def frateJudge (s : State) : State :=
  if s.tim.frateReq then
    let f := s.fget .TIM_FRATE_FRATE
    let s1 := s.onTim fun b => { b with frateReq := false }
    if !s.pairOk .TIM_FRATE .TIM_FRATE_N 0 32 then
      ((s1.raise .TIM_EVT_FRATE_REFUSED).integrityReg 0x1004).fset .TIM_STS_FRATE_PEND (bit s1.tim.frateAcc.isSome)
    else if f < 2000 ∨ 100000 < f ∨ s.periodicBusy then
      (s1.raise .TIM_EVT_FRATE_REFUSED).fset .TIM_STS_FRATE_PEND (bit s1.tim.frateAcc.isSome)
    else (s1.onTim fun b => { b with frateAcc := some f }).fset .TIM_STS_FRATE_PEND 1
  else s

/-- A write of TIM_FRATE or TIM_FRATE_N: a request for the next judging tick (R50). -/
def frateWritten (s : State) : State :=
  let f := s.fget .TIM_FRATE_FRATE
  (s.onTim fun b => { b with frateReq := true }).fset .TIM_STS_FRATE_PEND
    (bit (s.tim.frateAcc.isSome || (s.pairOk .TIM_FRATE .TIM_FRATE_N 0 32 && decide (2000 ≤ f) && decide (f ≤ 100000))))

/-- The frame that ends at the tick `t` holds the start of a second of the time base, the tick itself included. Only the frame after a step holds one
between its ends. -/
def holdsSecond (s : State) (t : Nat) : Bool := decide (s.tim.tickAt / second < t / second)

/-- The time base's part of a tick: the step or the new rate, the frame's number, FRAME_EN, the registers that take effect,
the judging tick, and PPS_OUT. -/
def timTick (s : State) : State :=
  let t := s.nextTick
  let n := s.nextNumber
  let sec := s.holdsSecond t
  let sT := (s.at_ t).ppsFall t
  let s1 := match s.stepDue t with
    | some d =>
      let t' := ((t : Int) + d).toNat
      ((sT.onTim fun b => { b with
        now := t', tickAt := t', frameNo := n, stepOfs := none, stepAt := none, stepSec := 0, stepped := true }).fset
        .TIM_STS_STEP_PENDING 0).raise .TIM_EVT_STEP_DONE
    | none =>
      let s0 := sT.onTim fun b => { b with tickAt := t, frameNo := n, stepped := false }
      match (if t % second = 0 then s.tim.frateAcc else none) with
      | some f =>
        (((s0.onTim fun b => { b with frateAcc := none }).fset .TIM_FRATE_ACT_FRATE_ACT f).raise .TIM_EVT_FRATE_APPLIED).fset
          .TIM_STS_FRATE_PEND (bit s.tim.frateReq)
      | none => s0
  let en := s1.flag .TIM_CTL_FRAME_EN
  let s2 := s1.onTim fun b => { b with framesOn := en && (b.framesOn || sec) }
  let s3 := if sec then s2.loadEff.retune.ppsRise (t / second * second) else s2
  let s4 := match s.stepDue t with
    | some d => s3.ppsStep d
    | none => s3.stepIfOff
  let s5 := s4.onTim fun b => { b with tickClass := s4.qclass }
  if s5.nextTick % second = 0 then s5.frateJudge else s5

end State

/-! ### Reads and writes of TIM registers (R66, R44, R468) -/

/-- A read of TIM_NOW at time-base instant `t`. -/
def execTimNowRead (w : ReadWidth) (t : Nat) (s : State) : Host.Outcome State Fault Refusal :=
  s.readReady (
    let s0 := s.at_ t
    match w with
    | .full => .next (s0.answer (BitVec.ofNat 64 t))
    | .low => .next ((s0.onTim fun b => { b with nowHigh := t / 2 ^ 32 % 2 ^ 32 }).answer (BitVec.ofNat 64 (t % 2 ^ 32)))
    | .high => .next (s0.answer (BitVec.ofNat 64 s0.tim.nowHigh))
    | .narrow => .next (s0.answer (BitVec.ofNat 64 t)))

/-- A read of TIM_FRAME_NO; a full-width one holds TIM_FRAME_START of the same frame. Its upper word, 0x1024, reads zero. -/
def execTimFrameNoRead (w : ReadWidth) (s : State) : Host.Outcome State Fault Refusal :=
  s.readReady (
    let n := BitVec.ofNat 64 s.frameNo
    match w with
    | .full => .next ((s.onTim fun b => { b with heldStart := b.tickAt }).answer n)
    | .low => .next ((s.onTim fun b => { b with heldStart := b.tickAt }).answer n)
    | .high => .next (s.answer 0)
    | .narrow => .next (s.answer n))

/-- A read of TIM_PTM_HOST; one that covers its low half in full width holds TIM_PTM_LOCAL of the same dialogue. -/
def execTimPtmHostRead (w : ReadWidth) (s : State) : Host.Outcome State Fault Refusal :=
  s.readReady (
    let h := s.fget .TIM_PTM_HOST_HOST
    match w with
    | .full => .next ((s.onTim fun b => { b with heldLocal := b.ptmLocal }).answer (BitVec.ofNat 64 h))
    | .low => .next ((s.onTim fun b => { b with heldLocal := b.ptmLocal }).answer (BitVec.ofNat 64 (h % 2 ^ 32)))
    | .high => .next (s.answer (BitVec.ofNat 64 (h / 2 ^ 32)))
    | .narrow => .next (s.answer (BitVec.ofNat 64 h)))

/-- A label written at time-base instant `t` is armed for the next accepted phase mark (R44, Table 2.23). A label of zero arms nothing. -/
def State.labelArm (s : State) (t : Nat) : State :=
  let l := s.fget .TIM_LABEL_LABEL
  (s.at_ t).onTim fun b => { b with labelArmed := if l = 0 then none else some l }

/-- A write of TIM_LABEL: a 64-bit write or one of the upper half arms it; a narrow one is dropped (Table 2.23, R465, R466). -/
def execTimLabelWrite (w : ReadWidth) (data t be : Nat) (s : State) : Host.Outcome State Fault Refusal :=
  s.whenReady (
    match w with
    | .full => .next ((s.fset .TIM_LABEL_LABEL data).labelArm t)
    | .low => .next (s.wr .TIM_LABEL 0 (setField (s.rd .TIM_LABEL 0) 31 0 data))
    | .high => .next ((s.wr .TIM_LABEL 0 (setField (s.rd .TIM_LABEL 0) 63 32 data)).labelArm t)
    | .narrow => .next (s.narrowWrite 0 be 0x1038))

/-- A full-width read of TIM_EVT (R468). -/
def execTimEvtRead (both : Bool) (s : State) : Host.Outcome State Fault Refusal :=
  s.readReady (.next (s.eventRead .TIM_EVT .TIM_EVT_SHADOW 0 both 128))

end Sys2Proof.Machine
end

