-- ==== Sys2Proof/Machine/SampleBase.lean ====
section
/-! DEFINITION. Machine/SampleBase.lean: the gather groups and coder streams in the state, BLOCK records, the emission of sets (R271–R275, R277),
and what a member or a coded endpoint that leaves RUNNING changes (R273, R284). -/

namespace Sys2Proof.Machine

/-- The fields of LINK (Table 8.3). -/
def Ctx.mode (c : Ctx) : Nat := nfield c.link 31 30
def Ctx.group (c : Ctx) : Nat := nfield c.link 15 8
def Ctx.member (c : Ctx) : Nat := nfield c.link 7 0

namespace State


def onSmp (s : State) (f : Sample → Sample) : State := { s with smp := f s.smp }
def group (s : State) (g : Nat) : Option Group := Tbl.find s.smp.groups g
def onGroup (s : State) (g : Nat) (f : Group → Group) : State :=
  match Tbl.find s.smp.groups g with
  | some x => s.onSmp fun m => { m with groups := Tbl.put m.groups g (f x) }
  | none => s
def coder (s : State) (k : Nat) : Option CoderStream := Tbl.find s.smp.streams k
def onCoder (s : State) (k : Nat) (f : CoderStream → CoderStream) : State :=
  match Tbl.find s.smp.streams k with
  | some x => s.onSmp fun m => { m with streams := Tbl.put m.streams k (f x) }
  | none => s

/-- The span of a stream closes; one without samples is not emitted, but a gap before its first sample counts and shows as any other (R292; log
entry 109). -/
def closeSpan (s : State) (k : Nat) (gap detach : Bool) : State :=
  match s.coder k with
  | some c =>
    match c.cur with
    | some p =>
      if p.samples.isEmpty then s.onCoder k fun c => { c with cur := none }
      else
        let s1 := s.onCoder k fun c => { c with
          cur := none, closed := c.closed ++ [{ p with gap := gap, detach := detach, cseq := c.nextCseq }],
          nextCseq := (c.nextCseq + 1) % 2 ^ 32 }
        if gap then (s1.countN .CDR_FLG_GAPS k c.ch).raise .CDR_EVT_GAP else s1
    | none => if gap then (s.countN .CDR_FLG_GAPS k c.ch).raise .CDR_EVT_GAP else s
  | none => s

/-! ### BLOCK records (R264, R267) -/

/-- A record for a STREAM ring, behind those that wait. -/
def pushRec (s : State) (r : SRec) : State := s.onSmp fun m => { m with queue := m.queue ++ [{ r with landed := s.tim.now }] }

/-- Bytes 16–31 of a BLOCK record (Table 8.5). -/
def blockTail (eph grp flags len idx frame : Nat) : List Byte :=
  leBytes 4 eph ++ leBytes 1 grp ++ leBytes 1 flags ++ leBytes 2 len ++ leBytes 4 idx ++ leBytes 4 frame

/-- A BLOCK record of a block for a ring; `set` names the set whose SEPARATE member it is. OVERRUN is decided where the record is made, in the order of the
blocks, and not when it is written (DESIGN CHOICE, log entry 109). -/
def pushBlock (s : State) (b : Block) (ring grp flags idx : Nat) (set : Option (Nat × Int)) : State :=
  let lost := s.smp.overrun.contains b.eph
  (s.pushRec { kind := 2, ring := ring, time := b.stamp, qclass := b.qclass,
               tail := blockTail b.eph grp (flags + bit lost * 4) b.bytes.length idx b.frame, body := [b.bytes], holds := [b],
               set := set, owner := (s.ctx? b.eph).map fun k => k.ctx.owner, span := none }).onSmp fun m => { m with overrun := m.overrun.filter fun e => e != b.eph }

/-! ### Sets (R271–R278) -/

/-- Open-set slots held: open sets and emitted sets whose records wait (R278). -/
def openSlots (s : State) : Nat :=
  ((s.smp.groups.map fun g => g.2.sets.length).foldl (· + ·) 0) + (s.smp.queue.filterMap SRec.set).eraseDups.length

end State

/-! ### The grid (R271, R272) -/

/-- The instant G(j) (R271). -/
def gridTime (srate : Nat) (j : Int) : Int := j / srate * 1000000000 + j % srate * 1000000000 / srate

/-- The index of the nearest grid instant of a STAMP and its distance (R272). -/
def Group.nearest (g : Group) (exp : Int) (x : Nat) : Int × Nat :=
  let y : Int := (x : Int) - exp - g.gofs
  let s := y.fdiv 1000000000
  let k := (y - s * 1000000000) * g.srate / 1000000000
  let lo := s * 1000000000 + k * 1000000000 / g.srate
  let hi := s * 1000000000 + (k + 1) * 1000000000 / g.srate
  if y - lo ≤ hi - y then (s * g.srate + k, (y - lo).natAbs) else (s * g.srate + k + 1, (hi - y).natAbs)

/-- T of a grid instant. -/
def Group.setTime (g : Group) (j : Int) : Int := gridTime g.srate j + g.gofs

/-- The exact offset of a member's block (R272). -/
def OpenSet.ofs (o : OpenSet) (b : Block) : Int := (b.stamp : Int) - o.t

/-- PRESENT, or SEPARATE (R275). -/
def OpenSet.near (o : OpenSet) (b : Block) : Bool := decide (-32767 ≤ o.ofs b ∧ o.ofs b ≤ 32767)

namespace State

/-- f(T), the number of the frame in progress at an instant (R271); 2^32 seconds are a whole number of counts. -/
def frameAt (s : State) (t : Int) : Nat := frameNumber s.frate (t + 2 ^ 32 * 1000000000).toNat

/-- The endpoint had a committed periodic entry in the tables that its tree ran in the frame in progress at `t` (R274). -/
def ranAt (s : State) (eph : Nat) (t : Int) : Bool :=
  let tick := tickTime s.frate (tickIndex s.frate t.toNat)
  (Tbl.get [] s.smp.ran eph).any fun x => decide (x.1 ≤ tick) && x.2.all fun e => decide (tick < e)

/-- The member is scheduled for a set (R274). -/
def scheduled (s : State) (o : OpenSet) (eph : Nat) : Bool :=
  s.ranAt eph o.t && (match (s.ctx? eph).or (Tbl.find s.cmgr.away eph) with
    | some k => k.ctx.state == 2 && !k.bad
    | none => false)

/-- The member's state in a set, as Table 8.10 codes it. -/
def memberState (s : State) (g : Group) (o : OpenSet) (m : Nat) : Nat :=
  match Tbl.find o.blocks m with
  | some b => if o.near b then 0 else 3
  | none => if s.scheduled o (g.members.getD m (0, 0)).1 then 1 else 2

/-- Every member is present, SEPARATE or not scheduled (R273). -/
def setComplete (s : State) (g : Group) (o : OpenSet) : Bool := (upto g.members.length).all fun m => s.memberState g o m != 1

/-- The set's deadline tick has passed. -/
def setOver (s : State) (o : OpenSet) : Bool := !later32 o.dlFrame s.frameNo

/-- A set is emitted (R273, R275, R277): its SET record, then the BLOCK records of its SEPARATE members, in member order. -/
def emitSet (s : State) (id : Nat) (g : Group) (o : OpenSet) (forced : Bool) : State :=
  let ms := (upto g.members.length).map fun m => (s.memberState g o m, Tbl.find o.blocks m)
  let entry (x : Nat × Option Block) : List Byte := match x with
    | (0, some b) => leBytes 2 (toBits 16 (o.ofs b)) ++ leBytes 1 (leNat (Sys2Proof.slice 3 1 b.bytes) % 4) ++ leBytes 1 0 ++
        leBytes 2 b.bytes.length ++ leBytes 2 0
    | (st, _) => leBytes 2 0 ++ leBytes 1 (st * 64) ++ leBytes 5 0
  let present := ms.filterMap fun x => if x.1 = 0 then x.2 else none
  let sep := ms.filterMap fun x => if x.1 = 3 then x.2 else none
  let whole := ms.all fun x => x.1 != 1
  let qc := (present.map Block.qclass).foldl max 0
  let s1 := s.pushRec { kind := 1, ring := g.ring, time := toBits 64 o.t, qclass := qc,
                        tail := leBytes 4 (toBits 32 o.j) ++ leBytes 1 id ++ leBytes 1 (bit (!sep.isEmpty) * 4 + bit forced * 2 + bit whole) ++
                          leBytes 2 g.members.length ++ leBytes 4 o.dlFrame ++ leBytes 4 0,
                        body := ms.map entry ++ present.map Block.bytes, holds := present, set := some (id, o.j), owner := none, span := none }
  let s2 := sep.foldl (fun s b => s.pushBlock b g.ring id 1 (toBits 32 o.j) (some (id, o.j))) s1
  let s3 := (s2.fsetN .GTH_CNT_SETS id (s.fgetN .GTH_CNT_SETS id + 1)).countN .GTH_DROP_SEPARATE id sep.length
  let s4 := if whole then s3 else s3.countN .GTH_CNT_INCOMPLETE id 1
  s4.onGroup id fun g => { g with
    sets := g.sets.filter fun x => x.j != o.j, upTo := some (max o.j (g.upTo.getD o.j)),
    emitted := g.emitted ++ [(o.j, o.blocks.map Prod.fst)] }

/-- The sets of a group that can be emitted, in T order: complete or past their deadline tick, while every earlier instant is
resolved; the fuel is the number of open sets. An instant between two sets that has none is resolved by its own deadline tick. -/
def emitDue (s : State) (id : Nat) : Nat → State
  | 0 => s
  | n + 1 =>
    match s.group id with
    | some g =>
      match g.sets with
      | o :: _ =>
        let before := g.upTo.any (fun u => decide (o.j - 1 ≤ u)) ||
          !later32 ((s.frameAt (g.setTime (o.j - 1)) + g.deadline) % 2 ^ 32) s.frameNo
        if s.setOver o || (before && s.setComplete g o) then emitDue (s.emitSet id g o false) id n else s
      | [] => s
    | none => s

/-- Every set of a group that can be emitted is. -/
def emitSets (s : State) (id : Nat) : State :=
  match s.group id with
  | some g => s.emitDue id g.sets.length
  | none => s

/-! ### A context leaves RUNNING -/

/-- The sets of every group that has the endpoint as a member are judged again (R273, R274). -/
def memberLeft (s : State) (eph : Nat) : State :=
  s.smp.groups.foldl (fun s g => if g.2.members.any (fun m => m.1 == eph) then s.emitSets g.1 else s) s

/-- The sets of every group are judged again: a tree switched (R274). -/
def emitAll (s : State) : State := s.smp.groups.foldl (fun s g => s.emitSets g.1) s

/-- The coder streams of an endpoint close their spans when its context leaves RUNNING (R284), and the sets that waited for it are judged again. -/
def coderStop (s : State) (eph : Nat) : State :=
  (s.smp.streams.foldl (fun s x => if x.2.eph = eph then s.closeSpan x.1 false true else s) s).memberLeft eph

end State

end Sys2Proof.Machine
end

