-- ==== Sys2Proof/Machine/Entries.lean ====
section
/-! DEFINITION. Machine/Entries.lean: what the chapters share about endpoint contexts, pockets and dealer entries: checks of a
context, its state changes with their ENDPOINT events, completing an entry, readiness, and the changes of a whole subtree. -/

namespace Sys2Proof.Machine

/-! ### Host bounds, windows and pockets (R152, R158, R159, R330, R332) -/

/-- The pairs that a slice holds match (R332). -/
def Slice.pairsOk (x : Slice) : Bool := x.hbaseN == ~~~ x.hbase && x.hlimN == ~~~ x.hlim && x.winN == ~~~ x.win &&
  x.cntrN == ~~~ x.cntr

/-- A host range lies in the slice's bounds; a range of size 0 is not checked. -/
def Slice.inHost (x : Slice) (addr len : Nat) : Bool :=
  len == 0 || (decide (field x.hbase 63 12 * 4096 ≤ addr) && decide (addr + len ≤ field x.hlim 63 12 * 4096 + 4096))

/-- A pocket lies in the slice's window. -/
def Slice.inWindow (x : Slice) (base size : Nat) : Bool :=
  decide (field x.win 24 16 * 65536 ≤ base) && decide (base + size ≤ (field x.win 24 16 + field x.win 8 0) * 65536)

namespace State

/-- The bounds check of a host range for a slice (none: the manager, which has no bounds): the status, OK, BOUNDS or INTEGRITY. -/
def hostStatus (s : State) (n : Option Nat) (addr len : Nat) : Nat :=
  match n with
  | none => stOk
  | some k => if len = 0 then stOk else if (s.slice k).pairsOk then (if (s.slice k).inHost addr len then stOk else stBounds) else stIntegrity

/-- A bounds check met an unequal pair: one INTEGRITY event with object 5, and a reload at the next boundary (R332). -/
def boundsBroken (s : State) (n : Option Nat) (st : Nat) : State :=
  match n with
  | some k =>
    if st = stIntegrity then
      let s1 := s.onSlice k fun x => { x with reload := true, boundsSaid := true }
      if (s.slice k).boundsSaid then s1 else s1.integrity 5 0 0 k 0
    else s
  | none => s

/-- The held window of a slice is unequal to its complement (R332). -/
def winBroken (s : State) (n : Nat) : Bool := (s.slice n).winN != ~~~ (s.slice n).win

/-- The checks of R152 on a context found under a handle. -/
def ctxOk (s : State) (eph : Nat) (c : Ctx) : Bool :=
  c.keysOk && c.eph == eph && c.classOk && decide (c.owner < s.nSlices) && (s.slice c.owner).inWindow c.base c.size &&
  (s.ring c.ring).slice == some c.owner && decide (c.state ≤ 5)

/-- A context that fails a check of R152 is treated as HALTED until installed again, and is reported once (R411). -/
def ctxFail (s : State) (eph : Nat) : State :=
  match s.ctx? eph with
  | some k => if k.bad then s else ((s.onCtx eph fun k => { k with bad := true }).integrity 2 0 0 k.ctx.owner eph).coderStop eph
  | none => s

/-- A context used: it becomes the most recently used (R155). -/
def ctxTouch (s : State) (eph : Nat) : State :=
  (s.onCtx eph fun k => { k with lru := s.cmgr.clock }).onCmgr fun m => { m with clock := m.clock + 1 }

/-- Data written into a pocket at its write offset; the bytes count as used (R158). -/
def pocketPut (s : State) (eph : Nat) (b : List Byte) : State :=
  match s.ctx? eph with
  | some k =>
    let c := k.ctx
    { s with pool := Memory.writeRing s.pool c.base c.size c.wrPtr b }.onCtx eph fun k =>
      { k with ctx := { k.ctx with wrPtr := (c.wrPtr + b.length) % c.size % 2 ^ 20 }, used := k.used + b.length }
  | none => s

/-- A slot changed in the cache, or what is kept beside a context that was evicted (R158). -/
def onPocket (s : State) (eph : Nat) (f : CtxSlot → CtxSlot) : State :=
  if (s.ctx? eph).isSome then s.onCtx eph f
  else match Tbl.find s.cmgr.away eph with
    | some k => s.onCmgr fun m => { m with away := Tbl.put m.away eph (f k) }
    | none => s

/-- Bytes of a pocket given back at its read offset. -/
def pocketFree (s : State) (eph n : Nat) : State :=
  s.onPocket eph fun k => { k with ctx := { k.ctx with rdPtr := (k.ctx.rdPtr + n) % k.ctx.size % 2 ^ 20 }, used := k.used - n }

/-- The held copy of SCH_CTXDIR: OK where it lets a fetch be made, BOUNDS for VALID = 0, INTEGRITY for an unequal pair (R155, R162). -/
def dirStatus (s : State) : Nat :=
  if s.cmgr.dirN ≠ ~~~ s.cmgr.dir then stIntegrity else if field s.cmgr.dir 0 0 = 0 then stBounds else stOk

/-- A miss that makes no fetch: an unequal held pair is reported, VALID = 0 counts as a failed fetch. -/
def dirFail (s : State) (st : Nat) : State :=
  if st = stBounds then s.count .SCH_CTXCNT_FETCH_ERR else if st = stIntegrity then s.integrityReg 0x3F00 else s

/-- The fetch of a context starts, and counts as a miss (R155); one that is under way already serves (log entry 95). -/
def fetchStart (s : State) (eph : Nat) : State :=
  if s.cmgr.fetching.contains eph then s
  else (s.count .SCH_CTXCNT_MISSES).onCmgr fun m => { m with fetching := m.fetching ++ [eph] }

end State

/-- Room for `n` more bytes (R159; the STAMP of a timed packet is bookkeeping held outside the pocket, log entry 11). -/
def CtxSlot.room (k : CtxSlot) (n : Nat) : Bool := decide (k.used + n ≤ k.ctx.size)

namespace State

/-! ### Context states (Table 4.17) and ENDPOINT events (R188) -/

/-- The ENDPOINT event of a context: on its RING when that is an EVENT ring, else on ring 1. -/
def endpointEvent (s : State) (eph status : Nat) : State :=
  match s.ctx? eph with
  | some k =>
    let r := k.ctx.ring
    let target := if decide (4 ≤ r) && (s.ring r).st != 0 && (s.ring r).type r == 2 then r else 1
    (s.event target evEndpoint status r eph (k.ctx.state * 2 ^ 32 + k.ctx.overrun)).onCtx eph fun k => { k with overrunSaid := false }
  | none => s

/-- A context moves to a state; entering STOPPED it remembers the one it left. A coder stream of it closes its blocks when it leaves
RUNNING (R284). -/
def ctxMove (s : State) (eph st : Nat) : State :=
  let s1 := s.onCtx eph fun k =>
    { k with ctx := k.ctx.setState st, leftState := if st = 4 then k.ctx.state else k.leftState, dirty := true }
  if st = 2 then s1 else s1.coderStop eph

/-- A change of state with its ENDPOINT event; nothing where the state stays. -/
def ctxChange (s : State) (eph st status : Nat) : State :=
  match s.ctx? eph with
  | some k => if k.ctx.state = st then s else (s.ctxMove eph st).endpointEvent eph status
  | none => s

/-- A halt under Table 4.5 or R130: endpoint 0 never halts (R129). A STOPPED context, whose transaction was still on the wire, is HALTED
once it is started again. -/
def ctxHalt (s : State) (eph status : Nat) : State :=
  if Eph.ep eph = 0 then s
  else match s.ctx? eph with
    | some k =>
      if k.ctx.state = 2 then s.ctxChange eph 3 status
      else if k.ctx.state = 4 then s.onCtx eph fun k => { k with leftState := 3 } else s
    | none => s

/-! ### Trace records (R192, R257, R258) -/

/-- A trace record under the filters of R257; it is written when ring 2 has room and discarded otherwise, its SEQ spent. The
port filter is not applied to SPILL and HOLD. A control transfer of the controller's own has no TD: RING and INDEX are zero. -/
def trace (s : State) (kind frame : Nat) (port sl eph : Option Nat) (cls status ring idx a b c : Nat) : State :=
  let portOk := kind == 8 || kind == 10 || (match port with
    | some p => nfield (s.fget .SCH_TRACE_PORTS_PORTS) p p == 1
    | none => false)
  let sliceOk := !s.flag .SCH_TRACE_CTL_SLICE_EN || sl == some (s.fget .SCH_TRACE_CTL_SLICE)
  let ephOk := !s.flag .SCH_TRACE_CTL_EPH_EN || (match eph with
    | some e =>
      (BitVec.ofNat 25 e ^^^ BitVec.ofNat 25 (s.fget .SCH_TRACE_EPH_EPH)) &&& BitVec.ofNat 25 (s.fget .SCH_TRACE_MASK_MASK) == 0
    | none => false)
  if s.flag .SCH_TRACE_CTL_EN && nfield (s.fget .SCH_TRACE_CTL_KINDS) (kind - 1) (kind - 1) == 1 && portOk && sliceOk && ephOk then
    let rec_ := leBytes 4 kind ++ leBytes 4 s.deal.traceSeq ++ leBytes 8 s.tim.now ++ leBytes 4 frame ++ leBytes 1 (port.getD 0) ++
      leBytes 1 cls ++ leBytes 1 (sl.getD 0) ++ leBytes 1 status ++ leBytes 4 (eph.getD 0) ++
      leBytes 4 (if ring < 1024 then idx + ring * 2 ^ 20 else 0) ++
      leBytes 8 a ++ leBytes 8 b ++ leBytes 8 c ++ leBytes 8 0
    let s1 := s.onDeal fun d => { d with traceSeq := (d.traceSeq + 1) % 2 ^ 32 }
    if (s1.ring 2).st = 1 ∧ (s1.ring 2).room then s1.putRecord 2 rec_ else s1
  else s

/-! ### Entries -/

/-- The entry with a number. -/
def entry? (s : State) (id : Nat) : Option Entry := s.entries.find? (fun e => e.id == id)

/-- An entry changed. -/
def onEntry (s : State) (id : Nat) (f : Entry → Entry) : State :=
  { s with entries := s.entries.map fun e => if e.id = id then f e else e }

/-- The class of the context behind a handle; 0 where none is cached. -/
def classOf (s : State) (eph : Nat) : Nat :=
  match s.ctx? eph with
  | some k => k.ctx.cls
  | none => 0

/-- A trace record about an entry. -/
def traceEntry (s : State) (kind : Nat) (e : Entry) (status a b c : Nat) : State :=
  s.trace kind s.frameNo (some (Eph.port e.eph)) (some e.slice) (some e.eph) (s.classOf e.eph) status e.ring
    (match e.tds with
     | (i, _) :: _ => i
     | [] => 0) a b c

/-- An entry leaves the ready lists. -/
def unlist (s : State) (id : Nat) : State := s.onDeal fun d => { d with lists := d.lists.filter fun l => l.entry != id }

/-- The transactions that satisfy a condition are abandoned: later answers to them are unsolicited (R130, R148). -/
def abandon (s : State) (p : Txn → Bool) : State := { s with txns := s.txns.filter fun t => !p t }

end State

/-- The bytes that an entry sends: OUT data, an OUT data stage, or a COMMAND's payload with its complement. -/
def Entry.outBytes (e : Entry) : List Byte :=
  match e.kind with
  | 0 => if Eph.dir e.eph = 0 then e.data else []
  | 1 => if setupIn e.setup then [] else e.data
  | 4 => []
  | _ => e.data

/-- A later portion of what the entry sends could not be read, and every byte before it was sent (R160, R322). -/
def Entry.readFailed (e : Entry) : Bool := e.hostFail && decide (e.kind ≤ 1) && e.started && e.loaded == e.moved

/-- What leaves the pocket with the end of an entry on the bus: what it put there and did not send, a COMMAND whole; what it received stays for the
mover, but firmware takes at once what it asked for. -/
def Entry.held (e : Entry) : Nat :=
  if e.kind = 0 ∨ e.kind = 1 then (if !e.outBytes.isEmpty then e.loaded - e.moved else if e.forCmd.isSome then e.data.length else 0) else e.loaded

/-- The completion of an entry with a status, from what it did so far (R182). -/
def Entry.doneWith (e : Entry) (status : Nat) : Done where
  status := status
  len := e.moved
  late := e.late
  ts := if untimed status then none else e.ts
  qclass := e.qc
  more := e.more

namespace State

/-- Its transactions that have not started leave the hands; later slots move earlier (R217, Table 7.6). -/
def offHand (s : State) (id : Nat) : State :=
  let cut (l : Tbl Hand) : Tbl Hand := l.map fun x => (x.1, { x.2 with items := x.2.items.filter fun i => i.started || i.entry != some id })
  s.onDeal fun d => { d with next := cut d.next, run := cut d.run }

/-- What an entry put into the pocket to send and did not send is discarded; whether answers of it arrived poisoned is forgotten (R130). -/
def leavePocket (s : State) (e : Entry) : State :=
  (if e.held = 0 then s else s.pocketFree e.eph e.held).onCtx e.eph fun k => if e.started then { k with poisonSeen := false } else k

/-- An entry completes on the bus side: it leaves its lists and the hands, its transactions are abandoned, and its completion waits for the
write-back. -/
def finish (s : State) (id status : Nat) : State :=
  let s1 := match s.entry? id with
    | some e => if e.done.isNone then s.leavePocket e else s
    | none => s
  (((s1.onEntry id fun e => if e.done.isSome then e else
    { e with st := .done, delay := none, done := some (e.doneWith status) }).unlist id).offHand id).abandon fun t => t.entry == some id

/-- Every pending entry that satisfies a condition completes with a status, in the order taken (R148, R150). -/
def finishWhere (s : State) (p : Entry → Bool) (status : Nat) : State :=
  (s.entries.filter fun e => p e && e.done.isNone).foldl (fun s e => s.finish e.id status) s

/-! ### Readiness (Table 7.1, R225–R227) -/

/-- The slice has no earlier doorbell's descriptor left untaken on its SUBMIT rings, and none whose context is still being fetched
(R225 condition 2). -/
def handedTaken (s : State) (sl bell : Nat) : Bool :=
  (s.rings.all fun r => r.2.slice != some sl || r.2.type r.1 != 0 || r.2.bells.all fun b => decide (bell ≤ b.2) || b.1 == 0) &&
  s.entries.all fun e => !e.needCtx || e.slice != sl || decide (bell ≤ e.bell)

/-- An entry that has not ended, is a dealer entry or may still become one, and comes before another. -/
def holds (o e : Entry) : Bool := decide (o.id < e.id) && (o.isEntry || o.needCtx) && o.st != .ended

/-- No earlier entry of the same ring waits for OWN to be cleared (R184). -/
def ringFront (s : State) (e : Entry) : Bool := s.entries.all fun o => o.ring != e.ring || o.forCmd.isSome || decide (e.id ≤ o.id)

/-- Conditions 2 to 5 of Table 7.1. Condition 1 is the frame key of a delay list (R238). -/
def entryFree (s : State) (e : Entry) : Bool :=
  let td := e.tds.head?.map Prod.snd
  let wait := e.waitMet || (match td with
    | some t => !t.waitEn || (Tbl.get 0 s.deal.counters t.waitIdx == 0 && s.handedTaken e.slice e.bell)
    | none => true)
  let flow := e.flow == 0 || s.entries.all fun o => !(holds o e) || o.slice != e.slice || o.flow != e.flow
  let endp := e.kind == 4 || s.entries.all fun o => !(holds o e) || o.eph != e.eph || o.kind == 4
  wait && flow && endp && e.delay.isNone

/-- The list that a ready entry joins: 0 COMMAND, 1 CONTROL, 2 BULK; an EVENT transfer joins none (R227). -/
def listOf (s : State) (e : Entry) : Option Nat :=
  match s.classOf e.eph with
  | 0 => some 1
  | 1 => some 0
  | 4 => some 2
  | _ => none

/-- The slice whose list it is: the owner of the context (R227). -/
def listSlice (s : State) (e : Entry) : Nat :=
  match s.ctx? e.eph with
  | some k => k.ctx.owner
  | none => e.slice

/-- The next portion of what an entry sends moves into its pocket, as far as there is room: whole packets, or the rest (R159, R160). -/
def load (s : State) (id : Nat) : State :=
  match s.entry? id with
  | none => s
  | some e => match s.ctx? e.eph with
    | none => s
    | some k =>
      let left := e.outBytes.drop e.loaded
      let room := k.ctx.size - k.used
      let n := if left.length ≤ room ∧ e.hostFail = false then left.length else min room left.length / k.ctx.mps * k.ctx.mps
      if n = 0 then s else (s.pocketPut e.eph (left.take n)).onEntry id fun e => { e with loaded := e.loaded + n }

/-- An entry joins its list at the tail, or at the head; what it sends is in the pocket first. -/
def enlist (s : State) (e : Entry) (head : Bool) (why : Nat) : State :=
  let s1 := (s.load e.id).onEntry e.id fun e => { e with st := .ready, waitMet := true }
  match s.listOf e with
  | some l =>
    let x : Listed := ⟨l, Eph.port e.eph, s.listSlice e, e.id⟩
    (s1.onDeal fun d => { d with lists := if head then x :: d.lists else d.lists ++ [x] }).traceEntry 5 e 0 0 why 0
  | none => s1

/-- An entry of a BULK IN transfer of length 0 completes OK at once (Table 4.19). -/
def emptyIn (s : State) (e : Entry) : Bool := e.kind == 0 && s.classOf e.eph == 4 && Eph.dir e.eph == 1 && e.len == 0

/-- An entry whose context is not in the cache waits for its fetch, or completes where none can be made (R155). -/
def wantCtx (s : State) (e : Entry) : State :=
  if s.sliceState e.slice != 1 || s.cmgr.fetching.contains e.eph then s
  else if s.dirStatus = stOk then s.fetchStart e.eph
  else ((s.count .SCH_CTXCNT_MISSES).dirFail s.dirStatus).finish e.id s.dirStatus

/-- An earlier entry of the same endpoint has not completed on the bus: the completions of R226 are made in take order. -/
def earlierOpen (s : State) (e : Entry) : Bool :=
  s.entries.any fun o => decide (o.id < e.id) && o.eph == e.eph && o.kind != 4 && o.done.isNone && (o.isEntry || o.needCtx)

/-- A context that leaves RUNNING holds an entry of it that is in a hand (R226, Table 7.6): it waits again. -/
def holdBack (s : State) (e : Entry) : State :=
  let s1 := s.offHand e.id
  if e.st = .running then s1.onEntry e.id fun e => { e with st := .waiting } else s1

/-- One entry judged that no transaction in flight serves: completed where its context's state says so (R226), held, or made ready where every
condition holds. A NOP completes when its wait is over and it has reached the head of ring order (R184). -/
def judge (s : State) (why id : Nat) : State :=
  match s.entry? id with
  | none => s
  | some e =>
    if e.done.isSome || !e.isEntry || e.needCtx || e.spilled || s.txns.any (fun t => t.entry == some id) then s
    else if e.kind == 4 then
      (if e.st == .waiting && s.entryFree e && s.ringFront e then (s.onEntry id fun e => { e with waitMet := true }).finish id stOk else s)
    else match s.ctx? e.eph with
      | none => s.wantCtx e
      | some k =>
        if k.bad then s.holdBack e
        else match k.ctx.state with
          | 0 => if s.earlierOpen e then s.holdBack e else s.finish id stBounds
          | 1 => if s.earlierOpen e then s.holdBack e else s.finish id stBusReset
          | 2 =>
            if e.st == .waiting && s.entryFree e then (if s.emptyIn e then s.finish id stOk else s.enlist e false why) else s
          | 5 => if s.earlierOpen e then s.holdBack e else s.finish id stDisconnected
          | _ => s.holdBack e

/-- Every entry judged in take order; entries that become ready together join in that order (R227). `why` is the last
condition met, for the trace. -/
def refreshWaiting (s : State) (why : Entry → Nat) : State := s.entries.foldl (fun s e => s.judge (why e) e.id) s

/-! ### EVENT transfers (R176, R227) -/

/-- The oldest ready TRANSFER entry of an EVENT endpoint takes the oldest event in the pocket. -/
def eventTake1 (s : State) (eph : Nat) : State :=
  match s.ctx? eph with
  | some k =>
    match k.events, s.entries.find? (fun e => e.eph == eph && e.st == .ready && e.done.isNone && e.kind == 0) with
    | ev :: rest, some e =>
      if k.ctx.cls = 3 then
        let s1 := s.onCtx eph fun k => { k with events := rest }
        let s2 := s1.onEntry e.id fun e => { e with
          data := ev.bytes, moved := ev.bytes.length, landed := s.tim.now, ts := some ev.stamp, qc := ev.qclass, more := ev.more, started := true }
        s2.finish e.id (if ev.bytes.length = k.ctx.mps then stOk else stShort)
      else s
    | _, _ => s
  | none => s

/-- Readiness judged again, then EVENT transfers that are ready take events. -/
def refreshBy (s : State) (why : Entry → Nat) : State :=
  let s1 := s.refreshWaiting why
  ((s1.entries.filter fun e => e.st == .ready && e.kind == 0).map Entry.eph).foldl eventTake1 s1

/-- The same, with one reason for all. -/
def refresh (s : State) (why : Nat) : State := s.refreshBy fun _ => why

/-! ### The release at a thaw (R347) -/

/-- The TD's data goes to its buffer: an IN transfer, or a control transfer whose data stage is IN; the buffer of a COMMAND is never written (R180). -/
def inbound (e : Entry) : Bool :=
  match e.kind with
  | 0 => Eph.dir e.eph == 1
  | 1 => setupIn e.setup
  | _ => false

/-- All received data of an entry that goes to its buffers is there. -/
def transported (e : Entry) : Bool := !inbound e || decide (e.data.length ≤ e.hostOut)

/-- Write-backs that a thaw releases first are still to be made. -/
def wbOwed (s : State) (n : Nat) : Bool :=
  let x := s.slice n
  s.entries.any (fun e => x.relWb.contains e.id && !e.step1) || s.cmds.any fun c => x.relCmd.contains (c.ring, c.idx)

/-- Of the entries whose data a freeze held and that is not in host memory yet: when the data landed that landed first. -/
def hostOwed (s : State) (n : Nat) : Option Nat :=
  ((s.entries.filter fun e => (s.slice n).relHost.contains e.id && !transported e).map Entry.landed).min?

/-- A write-back of the slice has its turn: while a thaw releases what was held, those that were held come first. -/
def writeTurn (s : State) (n : Nat) (heldOne : Bool) : Bool := !(s.slice n).releasing || heldOne || !s.wbOwed n

/-! ### Changes of many contexts (R147–R150, Table 4.17) -/

end State

/-- A context of a port whose route matches in tier fields 1 to `depth` (R147, R197). -/
def Ctx.inSubtree (c : Ctx) (port route depth : Nat) : Bool :=
  Eph.port c.eph == port && c.route % 2 ^ (5 * depth) == route % 2 ^ (5 * depth)

/-- What a change of many contexts makes of one. -/
def CtxEvent.apply (v : CtxEvent) (c : Ctx) : Ctx :=
  match v with
  | .gone p r d => if c.inSubtree p r d && c.state != 0 then c.setState 5 else c
  | .reset p r d => if c.inSubtree p r d && c.state != 0 then ((c.setState 1).setToggle 0).setPing false else c
  | .config p a on =>
    if Eph.port c.eph == p && Eph.addr c.eph == a && Eph.ep c.eph != 0 then
      (if on then (if c.state = 1 then (c.setState 2).setToggle 0 else c.setToggle 0)
       else if c.state = 2 ∨ c.state = 3 ∨ c.state = 4 then (c.setState 1).setToggle 0 else c.setToggle 0)
    else c
  | .stop n => if c.owner == n && (c.state == 2 || c.state == 3) then c.setState 4 else c
  | .shadow p on => if Eph.port c.eph == p then c.setShadow on else c
  | .cut u => if c.state != 0 && decide (u * 65536 < c.base + c.size) then c.setState 3 else c
  | .clear e => if c.eph == e then (let c1 := (c.setToggle 0).setErrCnt 0; if c1.state = 3 then c1.setState 2 else c1) else c

/-- A port reset that reaches a context (R147, R148). -/
def CtxEvent.resets (v : CtxEvent) (c : Ctx) : Bool :=
  match v with
  | .reset p r d => c.inSubtree p r d && c.state != 0
  | .cut u => c.state != 0 && decide (u * 65536 < c.base + c.size)
  | _ => false

namespace State

/-- Received bytes of completed transfers of an endpoint that are still to be transported. -/
def untransported (s : State) (eph : Nat) : Nat :=
  ((s.entries.filter fun e => e.eph == eph && e.done.isSome && e.outBytes.isEmpty && e.forCmd.isNone).map fun e => e.data.length - e.hostOut).foldl
    (· + ·) 0

/-- The pocket keeps what belongs to a completed transfer; the rest is discarded (R148): RD_PTR passes all of it, or WR_PTR goes back to where
what is kept ends (log entry 24). -/
def pocketDrop (s : State) (eph : Nat) : State :=
  let n := s.untransported eph
  s.onCtx eph fun k =>
    let c := if n = 0 then { k.ctx with rdPtr := k.ctx.wrPtr } else { k.ctx with wrPtr := (k.ctx.rdPtr + n) % k.ctx.size % 2 ^ 20 }
    { k with ctx := c, events := [], blocks := [], used := n, poisonSeen := false, dups := 0 }

/-- One cached context is changed, with an ENDPOINT event where its state changes, unless `quiet`. -/
def ctxApply (s : State) (eph : Nat) (v : CtxEvent) (quiet : Bool) : State :=
  match s.ctx? eph with
  | none => s
  | some k =>
    let s0 := if v.resets k.ctx then s.pocketDrop eph else s
    let s1 := s0.onCtx eph fun k => { k with
      ctx := v.apply k.ctx, dirty := k.dirty || v.apply k.ctx != k.ctx,
      dups := if v = .clear eph then 0 else k.dups,
      leftState := if (v.apply k.ctx).state = 4 ∧ k.ctx.state ≠ 4 then k.ctx.state else k.leftState }
    if (v.apply k.ctx).state = k.ctx.state then s1
    else
      let s2 := if (v.apply k.ctx).state = 2 then s1 else s1.coderStop eph
      if quiet then s2 else s2.endpointEvent eph 0

/-- A change of many contexts: on each cached one, with an ENDPOINT event where the state changes, unless an endpoint command makes
it (R188); recorded for those in host memory (log entry 10). -/
def ctxAll (s : State) (v : CtxEvent) (quiet : Bool := false) : State :=
  (s.ctxs.foldl (fun s x => s.ctxApply x.1 v quiet) s).onCmgr fun m => { m with events := m.events ++ [(v, quiet)] }

/-- The cached contexts of a subtree. -/
def subtreeEphs (s : State) (port route depth : Nat) : List Nat :=
  (s.ctxs.filter fun x => x.2.ctx.inSubtree port route depth).map Prod.fst

/-- The controller's side of a port reset of a subtree (R148): transactions abandoned, pending transfers complete BUS_RESET in
order, contexts to DEFAULT. -/
def busReset (s : State) (port route depth : Nat) : State :=
  let l := s.subtreeEphs port route depth
  let s1 := s.abandon fun t => l.contains t.eph
  let s2 := s1.finishWhere (fun e => l.contains e.eph && e.kind != 4) stBusReset
  (s2.ctxAll (.reset port route depth)).refresh 0

/-- The contexts of a port or subtree move to GONE; pending transfers complete DISCONNECTED in order (R150). -/
def subtreeGone (s : State) (port route depth : Nat) (quiet : Bool := false) : State :=
  let l := s.subtreeEphs port route depth
  let s1 := s.abandon fun t => l.contains t.eph
  let s2 := s1.finishWhere (fun e => l.contains e.eph && e.kind != 4) stDisconnected
  (s2.ctxAll (.gone port route depth) quiet).refresh 0

end State

end Sys2Proof.Machine
end

