-- ==== Sys2Proof/Machine/PowerBase.lean ====
section
/-! DEFINITION. Machine/PowerBase.lean: what other blocks do to the power controller: a wake, a late refusal, an abort, a POWER
event (chapter 14). -/

namespace Sys2Proof.Machine.State

def onPwr (s : State) (f : Power → Power) : State := { s with pwr := f s.pwr }

/-- PWR_STS.STATE (Table 14.1). -/
def pwrState (s : State) : Nat := s.fget .PWR_STS_STATE

/-- The mover runs: POWER events can be written (R437). -/
def moverRuns (s : State) : Bool :=
  decide (s.pwrState ≤ 1) && (s.pwr.rollback || decide (s.fget .PWR_STS_APOINT < 5)) && !s.pwr.rows.contains 7

/-- A POWER event (R437), held until the mover runs. -/
def powerEvent (s : State) (what id left target lat : Nat) : State :=
  let b := eventBytes evPower 0 0 (what * 2 ^ 28 + id * 2 ^ 16 + s.fget .PWR_STS_APOINT * 256 + left * 8 + target)
    (lat * 2 ^ 32 + s.frameNo)
  if s.moverRuns then s.eventRecord 1 b else s.onPwr fun p => { p with events := p.events ++ [b] }

/-- Held POWER events, once the mover runs. -/
def powerFlush (s : State) : State :=
  if s.moverRuns then (s.pwr.events.foldl (fun s b => s.eventRecord 1 b) s).onPwr fun p => { p with events := [] } else s

/-- A POLICY_ACTION (TYPE 0x06) or POLICY_ADVICE (0x07) event (R30, R414). -/
def policyEvent (s : State) (typ policy code object adv : Nat) : State :=
  s.event1 typ 0 0 (object * 2 ^ 16 + code * 256 + policy) (adv * 2 ^ 32 + s.frameNo)

/-- A policy reports an outcome that took no action (a refusal, a deferral, a withdrawal). -/
def policyReport (s : State) (policy code object : Nat) : State := s.policyEvent evPolicyAction policy code object 0

/-- A policy action taken: the event and ACTION_COUNT, which wraps (R30, Table 1.11). -/
def policyAction (s : State) (policy code object : Nat) : State :=
  (s.policyReport policy code object).fset .GCTL_POLICY_STS_ACTION_COUNT (s.fget .GCTL_POLICY_STS_ACTION_COUNT + 1)

/-- The mode of a policy in force (R28): 0 OFF, 1 ADVISE, 2 AUTO; the reserved encoding acts as ADVISE, and there is no TAKEOVER without the
twin link. Policies: 0 RATE, 1 THROTTLE, 2 RETIRE, 3 TAKEOVER, 4 POWER. -/
def policyMode (s : State) (p : Nat) : Nat :=
  if p = 3 && !s.hasTwin then 0
  else match field s.pol.inForce (2 * p + 1) (2 * p) with
    | 0 => 0
    | 2 => 2
    | _ => 1

/-- Firmware reads the GCTL_POLICY pair at a decision point: one INTEGRITY event for a mismatch (R29). -/
def policyRead (s : State) : State :=
  if s.pairOk .GCTL_POLICY .GCTL_POLICY_N 0 32 then s.onPol fun p => { p with reported := false }
  else if s.pol.reported then s
  else (s.integrityReg 0x0100).onPol fun p => { p with reported := true }

/-- Advice (R30): what the policy would have done is reported each time. The identifiers count up and wrap. -/
def advise (s : State) (policy code object : Nat) : State :=
  let id := s.pol.nextAdvice % 65536
  (s.policyEvent evPolicyAdvice policy code object id).onPol fun p => { p with
    advice := (p.advice.filter fun a => a.id != id) ++ [⟨id, policy, code, object⟩], nextAdvice := p.nextAdvice + 1 }

/-- A manager command about an object overtakes the advice that concerns it (R197). -/
def overtake (s : State) (policy object : Nat) : State :=
  s.onPol fun p => { p with advice := p.advice.filter fun a => !(a.policy == policy && a.object == object) }

/-- The rows of Table 14.6 for the blocks that an entry has begun to stop, by the last abort point passed (R425). -/
def stoppedRows (apoint : Nat) : List Nat :=
  if apoint ≤ 1 then [] else if apoint = 2 then [9] else if apoint = 3 then [8, 9] else if apoint = 4 then [6, 7, 8, 9]
  else [5, 6, 7, 8, 9]

/-- The entry ends, a POWER action with it (R34), and the blocks begun to stop behind abort point `k` restart, in reverse order. -/
def rollback (s : State) (k : Nat) : State :=
  let rows := stoppedRows k
  let s1 := (((s.fset .PWR_STS_ENTERING 0).fset .PWR_STS_EXITING (bit (!rows.isEmpty))).fset .PWR_STS_TARGET 0).onPwr fun p =>
    { p with rows := rows, rollback := true, abortBy := none, requested := false, byPolicy := false }
  if rows.isEmpty then s1.fset .PWR_STS_APOINT 0 else s1

/-- The SEEN bit of a wake's identifier (Table 14.17). -/
def seenBit (id : Nat) : Nat :=
  if id = 0x11 then 0 else if id = 0x12 then 1 else if id = 0x14 then 3 else if id = 0x13 then 4 else if id = 0x10 then 5 else 2

/-- A late refusal by a participant (R425): counted, reported, and rolled back. A wake that waited for the abort point is recorded in SEEN
(Table 14.8). -/
def lateRefusal (s : State) (id : Nat) : State :=
  if s.flag .PWR_STS_ENTERING && decide (2 ≤ s.fget .PWR_STS_APOINT) then
    let s1 := ((s.countN .PWR_RCNT_LATE id 1).fset .PWR_STS_LAST_REFUSER id).raise .PWR_EVT_LATE
    let s1 := match s.pwr.abortBy with
      | some a => s1.fset .PWR_WAKE_SEEN (2 ^ seenBit a)
      | none => s1
    let s2 := if s.pwr.byPolicy then s1.policyReport 4 0xA1 id else s1
    (s2.powerEvent 3 id 0 (s.fget .PWR_STS_TARGET) 0).rollback (s.fget .PWR_STS_APOINT)
  else s

/-- The exit rows of the state left (Table 14.6). -/
def exitRows (left : Nat) : List Nat := if left = 2 then [2, 5, 6, 7, 8, 9] else [1, 2, 3, 4, 5, 6, 7, 8, 9]

/-- A wake is taken from SLEEP, DEEP or OFF: the cause, the state left, the sources seen (R431). From OFF the start is a cold one. -/
def startExit (s : State) (id seen port : Nat) : State :=
  let left := s.pwrState
  let s := if id = 0x13 then s else if left = 2 then s.emit (.pin "CLKREQ_N" false) else if left = 3 then s.emit (.pin "PE_WAKE_N" false) else s
  (((((((s.fset .PWR_WAKE_CAUSE id).fset .PWR_WAKE_FROM left).fset .PWR_WAKE_COLLIDED 0).fset .PWR_WAKE_SEEN (2 ^ seen)).fset
    .PWR_WAKE_PORT port).fset .PWR_STS_EXITING 1).fset .PWR_STS_TARGET 0).onPwr fun p =>
      { p with rows := exitRows left, rollback := false, wakeAt := s.tim.now, wakeLater := none }

/-- How the causes of a wake rank that are taken in one cycle (R431). -/
def wakeRank (id : Nat) : Nat :=
  if id = 0x11 then 0 else if id = 0x12 then 1 else if id = 0x14 then 0x80 else if id = 0x13 then 0x81 else if id = 0x10 then 0x82 else id

/-- A wake source that is enabled was taken: identifier, SEEN bit, and the port of a tree wake (R426, R429, R431). While a thermal trip is held none
is (R448). -/
def wake (s : State) (id seen port : Nat) : State :=
  if s.hlt.tripHeld then s
  else if s.flag .PWR_STS_ENTERING then
    if s.fget .PWR_STS_APOINT = 6 then
      (if s.pwr.wakeLater.isSome then s else s.onPwr fun p => { p with wakeLater := some (id, seen, port) })
    else if s.pwr.abortBy.isSome then s
    else s.onPwr fun p => { p with abortBy := some id }
  else if s.flag .PWR_STS_EXITING then
    let old := s.fget .PWR_WAKE_SEEN
    let s0 := s.fset .PWR_WAKE_SEEN (nset old seen seen 1)
    let s1 := if s.pwr.wakeAt = s.tim.now ∧ wakeRank id < wakeRank (s.fget .PWR_WAKE_CAUSE) ∧ s.pwr.rollback = false then s0.fset .PWR_WAKE_CAUSE id else s0
    if s.pwr.rollback then s1
    else if seen = 2 then
      let s2 := if nfield old 2 2 = 1 then s1.fset .PWR_WAKE_PORT (min port (s.fget .PWR_WAKE_PORT)) else s1.fset .PWR_WAKE_PORT port
      let c := s.fget .PWR_WAKE_CAUSE
      if c = 0x13 ∨ c = 0x10 then (s2.fset .PWR_WAKE_CAUSE id).fset .PWR_WAKE_COLLIDED 1 else s2
    else s1
  else if 2 ≤ s.pwrState then s.startExit id seen port
  else s

/-- A root port accepted a remote wake (R105): a tree wake, while PWR_WAKE_EN.TREE is 1; only in SLEEP or a transition. -/
def treeWake (s : State) (n : Nat) : State := if s.flag .PWR_WAKE_EN_TREE then s.wake (0x40 + n) 2 n else s

end Sys2Proof.Machine.State
end

