-- ==== Sys2Proof/Machine/Coding.lean ====
section
/-! DEFINITION. Machine/Coding.lean: what the line carries (R70–R77): 8b/10b code groups with their running disparity and the control
sequences of Table 3.2, the Reed–Solomon codewords of Rate 5 in scrambled blocks, and the byte stream in which a receiver hunts for
packets. -/

namespace Sys2Proof.Machine

/-! ### 8b/10b (R70, R71). The spec names the code and not its tables: these are the standard ones (PRESUMED, log entry 82). A code
group is a number whose bit 9 is its bit `a`, the first on the line. -/

/-- The 5b/6b code of D.0 to D.31 for negative running disparity, bits abcdei. -/
def sixNeg : List Nat :=
  [0b100111, 0b011101, 0b101101, 0b110001, 0b110101, 0b101001, 0b011001, 0b111000,
   0b111001, 0b100101, 0b010101, 0b110100, 0b001101, 0b101100, 0b011100, 0b010111] ++
  [0b011011, 0b100011, 0b010011, 0b110010, 0b001011, 0b101010, 0b011010, 0b111010,
   0b110011, 0b100110, 0b010110, 0b110110, 0b001110, 0b101110, 0b011110, 0b101011]

/-- The 3b/4b code of D.x.0 to D.x.7 for negative running disparity, bits fghj; the last is the primary D.x.P7. -/
def fourNeg : List Nat := [0b1011, 0b1001, 0b0101, 0b1100, 0b1101, 0b1010, 0b0110, 0b1110]

/-- The ones among the low `n` bits of a number. -/
def ones : Nat → Nat → Nat
  | 0, _ => 0
  | n + 1, v => v % 2 + ones n (v / 2)

/-- The running disparity (true: positive) after a sub-block of `n` bits: its own where its ones and zeros differ, or where it is one of
the balanced sub-blocks that count as positive (`p`) or negative (`m`). -/
def afterSub (n p m : Nat) (rd : Bool) (v : Nat) : Bool :=
  if n < 2 * ones n v ∨ v = p then true
  else if 2 * ones n v < n ∨ v = m then false
  else rd

/-- The running disparity after a code group, valid or not. -/
def afterGroup (rd : Bool) (g : Nat) : Bool :=
  afterSub 4 0b0011 0b1100 (afterSub 6 0b000111 0b111000 rd (g / 16 % 64)) (g % 16)

/-- A sub-block for a running disparity: the one for negative disparity, complemented for positive where it is not balanced or `flip`. -/
def subFor (n flip : Nat) (rd : Bool) (v : Nat) : Nat := if rd && (2 * ones n v != n || v == flip) then 2 ^ n - 1 - v else v

/-- The 3b/4b part of a data code group: D.x.A7 in place of D.x.P7 where five equal bits would stand in a row. -/
def fourOf (rd : Bool) (x y : Nat) : Nat :=
  if y = 7 ∧ (if rd then [11, 13, 14] else [17, 18, 20]).contains x then subFor 4 0b1100 rd 0b0111
  else subFor 4 0b1100 rd (fourNeg.getD y 0)

/-- The data code group of a byte. -/
def dataGroup (rd : Bool) (b : Byte) : Nat :=
  let x := b.toNat % 32
  let six := subFor 6 0b111000 rd (sixNeg.getD x 0)
  six * 16 + fourOf (afterSub 6 0b000111 0b111000 rd six) x (b.toNat / 32)

/-- /K28.5/ and /K27.7/, the only control code groups that are sent (Table 3.2), by the byte that names them; 0 is no code group. -/
def ctlGroup (rd : Bool) (k : Byte) : Nat :=
  if k = 0xBC#8 then (if rd then 0b1100000101 else 0b0011111010)
  else if k = 0xFB#8 then (if rd then 0b0010010111 else 0b1101101000)
  else 0

/-- What a received code group stands for. Any other control code group and any with a disparity error is invalid (R71). -/
def groupSym (rd : Bool) (g : Nat) : RxSym :=
  if g = ctlGroup rd 0xBC#8 then .ctl 0xBC#8
  else if g = ctlGroup rd 0xFB#8 then .ctl 0xFB#8
  else
    match (upto 32).find? fun x => subFor 6 0b111000 rd (sixNeg.getD x 0) == g / 16 with
    | none => .invalid
    | some x =>
      match (upto 8).find? fun y => dataGroup rd (BitVec.ofNat 8 (32 * y + x)) == g with
      | some y => .byte (BitVec.ofNat 8 (32 * y + x)) (BitVec.ofNat 8 (32 * y + x)) false
      | none => .invalid

/-- Code groups in order, each with the running disparity that stands before it (R71), and the disparity after them. -/
def groupSyms (rd : Bool) : List Nat → List RxSym × Bool
  | [] => ([], rd)
  | g :: r =>
    let rest := groupSyms (afterGroup rd g) r
    (groupSym rd g :: rest.1, rest.2)

/-- One thing that the line carries at Rate 1: a control code group by its byte, or a data byte. -/
def lineGroup (rd : Bool) : RxSym → Nat
  | .ctl k => ctlGroup rd k
  | .byte b _ _ => dataGroup rd b
  | .invalid => 0

/-- What a sender puts on the line, as code groups. -/
def lineGroups (rd : Bool) : List RxSym → List Nat
  | [] => []
  | x :: r => lineGroup rd x :: lineGroups (afterGroup rd (lineGroup rd x)) r

/-- A data byte on the line. -/
def RxSym.data (b : Byte) : RxSym := .byte b b false

/-- The IDLE set /K28.5/ /D16.2/ and the SOP /K27.7/ /D21.5/ (Table 3.2). -/
def idle1 : List RxSym := [.ctl 0xBC#8, .data 0x50#8]
def sop1 : List RxSym := [.ctl 0xFB#8, .data 0xB5#8]

/-- A Rate 1 receiver gains sync: three IDLE sets in a row end the code groups, aligned on the comma (R72). The disparity at the first is
read off its comma. Gives the disparity after them. -/
def syncGained (gs : List Nat) : Option Bool :=
  let last := gs.drop (gs.length - 6)
  let rd := last.headD 0 == ctlGroup true 0xBC#8
  let r := groupSyms rd last
  if 6 ≤ gs.length ∧ r.1 = idle1 ++ idle1 ++ idle1 then some r.2 else none

/-- A Rate 1 receiver loses sync: four invalid code groups within sixteen in a row (R72). -/
def syncMissed (rd : Bool) (gs : List Nat) : Bool :=
  let bad := (groupSyms rd gs).1.map fun x => x == RxSym.invalid
  (upto gs.length).any fun i => decide (4 ≤ (((bad.drop i).take 16).filter id).length)

/-! ### GF(2^10) and RS(192,180) (R73) -/

/-- α times an element: the field polynomial is x^10 + x^3 + 1. -/
def gfX (a : Nat) : Nat := if 512 ≤ a then (2 * a - 1024) ^^^ 9 else 2 * a

/-- A product in GF(2^10), over `n` bits of the second factor. -/
def gfMulN : Nat → Nat → Nat → Nat
  | 0, _, _ => 0
  | n + 1, a, b => (if b % 2 = 1 then a else 0) ^^^ gfMulN n (gfX a) (b / 2)

/-- A product in GF(2^10). -/
def gfMul (a b : Nat) : Nat := gfMulN 10 a b

/-- α to a power. -/
def gfAlpha : Nat → Nat
  | 0 => 1
  | n + 1 => gfX (gfAlpha n)

/-- A power by squaring, over `n` bits of the exponent. -/
def gfPowN : Nat → Nat → Nat → Nat
  | 0, _, _ => 1
  | n + 1, a, e => gfMul (if e % 2 = 1 then a else 1) (gfPowN n (gfMul a a) (e / 2))

/-- The inverse of an element: its 1,022nd power. -/
def gfInv (a : Nat) : Nat := gfPowN 10 a 1022

/-- A polynomial at a point; the coefficients from the constant up. -/
def gfEval (p : List Nat) (x : Nat) : Nat := p.foldr (fun c acc => c ^^^ gfMul acc x) 0

/-- The sum of two polynomials. -/
def gfAdd : List Nat → List Nat → List Nat
  | [], q => q
  | p, [] => p
  | a :: p, b :: q => (a ^^^ b) :: gfAdd p q

/-- The product of two polynomials. -/
def gfPolyMul : List Nat → List Nat → List Nat
  | [], _ => []
  | a :: p, q => gfAdd (q.map (gfMul a)) (0 :: gfPolyMul p q)

/-- The generator g(x) = (x − α^0) … (x − α^11), from the constant up. -/
def rsGen : List Nat := (upto 12).foldl (fun g i => gfPolyMul [gfAlpha i, 1] g) [1]

/-- One message symbol into the register of the division by g(x); the register's first entry is the coefficient of x^11. -/
def rsStep (gen reg : List Nat) (m : Nat) : List Nat :=
  let f := m ^^^ reg.headD 0
  gfAdd (reg.tail ++ [0]) (gen.map (gfMul f))

/-- The parity symbols of 180 message symbols, the coefficients of x^11 down to x^0 (R74). -/
def rsParity (msg : List Nat) : List Nat :=
  msg.foldl (rsStep (rsGen.take 12).reverse) (List.replicate 12 0)

/-- The codeword of 180 message symbols: systematic, the message first (R73, R74). -/
def rsEncode (msg : List Nat) : List Nat := msg ++ rsParity msg

/-- The syndromes of 192 received symbols, at α^0 to α^11. -/
def rsSyndromes (r : List Nat) : List Nat := (upto 12).map fun i => r.foldl (fun acc c => gfMul acc (gfAlpha i) ^^^ c) 0

/-- What the search for the error locator holds: the locator, the one before its length last changed, that length, the steps since, and
the discrepancy then. -/
structure RsLoc where
  cur : List Nat
  prev : List Nat
  len : Nat
  gap : Nat
  disc : Nat
  deriving DecidableEq, Repr

/-- One more syndrome: the shortest recurrence that gives them all (Berlekamp and Massey). -/
def RsLoc.step (syn : List Nat) (l : RsLoc) (n : Nat) : RsLoc :=
  let d := (upto (l.len + 1)).foldl (fun acc i => acc ^^^ gfMul (l.cur.getD i 0) (syn.getD (n - i) 0)) 0
  if d = 0 then { l with gap := l.gap + 1 }
  else
    let next := gfAdd l.cur (List.replicate l.gap 0 ++ l.prev.map (gfMul (gfMul d (gfInv l.disc))))
    if 2 * l.len ≤ n then ⟨next, l.cur, n + 1 - l.len, 1, d⟩ else { l with cur := next, gap := l.gap + 1 }

/-- The error locator of the syndromes. -/
def rsLocator (syn : List Nat) : RsLoc := (upto 12).foldl (RsLoc.step syn) ⟨[1], [1], 0, 1, 1⟩

/-- The odd coefficients of a polynomial on their own: its derivative at a point, times the point. -/
def gfOdd : Bool → List Nat → List Nat
  | _, [] => []
  | o, c :: r => (if o then c else 0) :: gfOdd (!o) r

/-- The error at the coefficient of x^p, where the locator has a root there. -/
def rsError (loc eva : List Nat) (p : Nat) : Nat :=
  let xi := gfInv (gfAlpha p)
  if gfEval loc xi = 0 then gfMul (gfEval eva xi) (gfInv (gfEval (gfOdd false loc) xi)) else 0

/-- 192 received symbols with up to six symbol errors corrected, and how many there were; none where they are uncorrectable (R73, R76). -/
def rsDecode (r : List Nat) : Option (List Nat × Nat) :=
  let syn := rsSyndromes r
  if syn.all (· == 0) then some (r, 0)
  else
    let l := rsLocator syn
    let eva := (gfPolyMul syn l.cur).take 12
    let err := (upto 192).map fun j => rsError l.cur eva (191 - j)
    let fixed := gfAdd r err
    let n := (err.filter (· != 0)).length
    if l.len ≤ 6 ∧ n = l.len ∧ (rsSyndromes fixed).all (· == 0) then some (fixed, n) else none

/-! ### Messages, symbols and blocks (R74) -/

/-- A number cut into `n` parts of `w` bits, the low bits first. -/
def bitParts (w : Nat) : Nat → Nat → List Nat
  | 0, _ => []
  | n + 1, v => v % 2 ^ w :: bitParts w n (v / 2 ^ w)

/-- Parts of `w` bits put together, the first in the low bits. -/
def joined (w : Nat) : List Nat → Nat
  | [] => 0
  | a :: r => a % 2 ^ w + 2 ^ w * joined w r

/-- The 180 symbols of a message of 225 bytes, each byte and each symbol from its bit 0. -/
def msgSymbols (m : List Byte) : List Nat := bitParts 10 180 (leNat m)

/-- The message of 180 symbols. -/
def symbolBytes (s : List Nat) : List Byte := leBytes 225 (joined 10 s)

/-- The 30 blocks of 64 bits of a codeword. -/
def symbolBlocks (s : List Nat) : List Nat := bitParts 64 30 (joined 10 s)

/-- The 192 symbols of 30 blocks. -/
def blockSymbols (b : List Nat) : List Nat := bitParts 10 192 (joined 64 b)

/-! ### Scrambler and sync headers (R75) -/

/-- `n` bits, the low one first, through the scrambler 1 + x^39 + x^58: `h` holds the last 58 bits on the line, the latest in bit 57. Gives
the bits and the history after them. -/
def scrambleN : Nat → Nat → Nat → Nat × Nat
  | 0, h, _ => (0, h)
  | n + 1, h, d =>
    let s := (d + h / 2 ^ 19 + h) % 2
    let r := scrambleN n (h / 2 + 2 ^ 57 * s) (d / 2)
    (s + 2 * r.1, r.2)

/-- The same bits as received: the history takes what stood on the line. -/
def descrambleN : Nat → Nat → Nat → Nat × Nat
  | 0, h, _ => (0, h)
  | n + 1, h, s =>
    let d := (s + h / 2 ^ 19 + h) % 2
    let r := descrambleN n (h / 2 + 2 ^ 57 * (s % 2)) (s / 2)
    (d + 2 * r.1, r.2)

/-- Blocks through a scrambler, with the history after them. -/
def throughScrambler (f : Nat → Nat → Nat × Nat) (h : Nat) : List Nat → List Nat × Nat
  | [] => ([], h)
  | b :: r =>
    let x := f h b
    let rest := throughScrambler f x.2 r
    (x.1 :: rest.1, rest.2)

/-- The sync header of block `i` of a codeword; its left bit is sent first. -/
def syncHeader (i : Nat) : Nat := if i % 30 = 0 then 0b10 else 0b01

/-- A message of 225 bytes on the line, and the scrambler's history after it. -/
def codewordBlocks (h : Nat) (m : List Byte) : List (Nat × Nat) × Nat :=
  let x := throughScrambler (scrambleN 64) h (symbolBlocks (rsEncode (msgSymbols m)))
  (x.1.mapIdx fun i b => (syncHeader i, b), x.2)

/-- A byte stream cut into messages; what is over waits for the message that it begins. -/
def messages : Nat → List Byte → List (List Byte)
  | 0, _ => []
  | n + 1, b => b.take 225 :: messages n (b.drop 225)

/-- Messages on the line, one after another. -/
def streamBlocks (h : Nat) : List (List Byte) → List (Nat × Nat)
  | [] => []
  | m :: r =>
    let x := codewordBlocks h m
    x.1 ++ streamBlocks x.2 r

/-- The blocks of each codeword, in turn; those of one that is not complete are left out. -/
def cutCodewords : Nat → List (Nat × Nat) → List (List (Nat × Nat))
  | 0, _ => []
  | n + 1, b => b.take 30 :: cutCodewords n (b.drop 30)

/-- What a codeword gave: its message bytes, each as corrected and as it stood on the line, marked errored where the codeword is
uncorrectable (R76), and the symbols corrected, none where it is uncorrectable. -/
def codewordSyms (h : Nat) (blocks : List Nat) : (List RxSym × Option Nat) × Nat :=
  let x := throughScrambler (descrambleN 64) h blocks
  let r := blockSymbols x.1
  let raw := symbolBytes (r.take 180)
  match rsDecode r with
  | some (c, n) => (((symbolBytes (c.take 180)).zipWith (fun b w => .byte b w false) raw, some n), x.2)
  | none => ((raw.map fun b => .byte b b true, none), x.2)

/-- Codewords in order, with the scrambler's history after them. -/
def codewordsSyms (h : Nat) : List (List (Nat × Nat)) → List (List RxSym × Option Nat) × Nat
  | [] => ([], h)
  | c :: r =>
    let x := codewordSyms h (c.map Prod.snd)
    let rest := codewordsSyms x.2 r
    (x.1 :: rest.1, rest.2)

/-- Headers that are not those of their place in a codeword; the first block begins one. -/
def badHeaders (b : List (Nat × Nat)) : List Bool := b.mapIdx fun i x => x.1 != syncHeader i

/-- A Rate 5 receiver gains lock: the headers of the last four codewords are right (R75). Gives the scrambler's history after them. -/
def lockGained (b : List (Nat × Nat)) : Option Nat :=
  if 120 ≤ b.length ∧ b.length % 30 = 0 ∧ (badHeaders (b.drop (b.length - 120))).all (! ·) then
    some (throughScrambler (descrambleN 64) 0 ((b.drop (b.length - 120)).map Prod.snd)).2
  else none

/-- A Rate 5 receiver loses lock: sixteen wrong headers within 64 blocks, or eight uncorrectable codewords within 64 (R75). -/
def lockMissed (h : Nat) (b : List (Nat × Nat)) : Bool :=
  let bad := badHeaders b
  let fail := (codewordsSyms h (cutCodewords (b.length / 30) b)).1.map fun c => c.2.isNone
  ((upto bad.length).any fun i => decide (16 ≤ (((bad.drop i).take 64).filter id).length)) ||
    (upto fail.length).any fun i => decide (8 ≤ (((fail.drop i).take 64).filter id).length)

/-! ### Framing (R77) -/

/-- Two things on the line that start a packet: the SOP of the rate. -/
def isSop (rate : Nat) (a b : RxSym) : Bool :=
  match a, b with
  | .ctl k, .byte x _ _ => rate == 0 && k == 0xFB#8 && x == 0xB5#8
  | .byte k _ _, .byte x _ _ => rate != 0 && k == 0xFB#8 && x == 0x04#8
  | _, _ => false

/-- The stream from the next SOP on; without one, its last entry, which may begin one. -/
def huntSop (rate : Nat) : List RxSym → List RxSym
  | [] => []
  | [a] => [a]
  | a :: b :: r => if isSop rate a b then a :: b :: r else huntSop rate (b :: r)

/-- The stream stands at a SOP. -/
def atSop (rate : Nat) : List RxSym → Bool
  | a :: b :: _ => isSop rate a b
  | _ => false

/-- The byte that an entry of the stream gives, as corrected and as it stood on the line. A code group that is no byte has none, and its
place is marked. -/
def RxSym.value : RxSym → Byte
  | .byte b _ _ => b
  | _ => 0

def RxSym.onLine : RxSym → Byte
  | .byte _ w _ => w
  | _ => 0

/-- An entry whose byte cannot be trusted: marked errored, or no byte. -/
def RxSym.bad : RxSym → Bool
  | .byte _ _ e => e
  | _ => true

/-- An entry that is no byte. -/
def RxSym.noByte : RxSym → Bool
  | .byte _ _ _ => false
  | _ => true

/-- What a sender puts on the line for the bytes of a packet: SOP, the bytes, and two byte times of idle (R77). -/
def framed (rate : Nat) (bytes : List Byte) : List RxSym :=
  if rate = 0 then sop1 ++ bytes.map RxSym.data ++ idle1
  else [.data 0xFB#8, .data 0x04#8] ++ bytes.map RxSym.data ++ [.data 0x07#8, .data 0x07#8]

end Sys2Proof.Machine
end

