-- ==== Sys2Proof/Machine/Wire.lean ====
section
/-! DEFINITION. Machine/Wire.lean: the bytes of what a link carries: fine timestamps (Table 2.1), the payloads of FRAME, DELAY_REQ,
DELAY_RESP and LINKCTL (Tables 2.6 to 2.8, 3.7), and every packet with its header and trailer (R80, R82). Fine times are in 1/256 ns. -/

namespace Sys2Proof

/-- The 12 bytes of a fine timestamp (Table 2.1). -/
def fineBytes (x : Nat) : List Byte :=
  leBytes 6 (x / 256000000000) ++ leBytes 4 (x / 256 % 1000000000) ++ leBytes 1 (x % 256) ++ leBytes 1 0

/-- The fine time that 12 bytes give. -/
def fineOf (b : List Byte) : Nat :=
  (leNat (slice 0 6 b) * 1000000000 + leNat (slice 6 4 b)) * 256 + leNat (slice 10 1 b)

/-- A fine time as a whole-nanosecond timestamp of a hub or module: to the nearest, half a nanosecond up (R38). -/
def roundNs (x : Nat) : Nat := (x + 128) / 256

/-- The 32 bytes of a FRAME's payload (Table 2.6). -/
def FrameBody.toBytes (f : FrameBody) : List Byte :=
  leBytes 4 f.frameNo ++ leBytes 6 f.sec ++ leBytes 4 f.ns ++
  leBytes 1 (f.qclass % 8 + 8 * bit f.stepped + 16 * bit f.holdover + 32 * bit f.flagsRsvd) ++ leBytes 1 0 ++
  leBytes 4 f.frate ++ leBytes 4 (toBits 32 f.correction) ++ leBytes 2 f.utcOfs ++ leBytes 6 0

/-- The fields of a FRAME's payload. -/
def FrameBody.ofBytes (b : List Byte) : FrameBody where
  frameNo := leNat (slice 0 4 b)
  sec := leNat (slice 4 6 b)
  ns := leNat (slice 10 4 b)
  holdover := nfield (leNat (slice 14 1 b)) 4 4 == 1
  stepped := nfield (leNat (slice 14 1 b)) 3 3 == 1
  qclass := nfield (leNat (slice 14 1 b)) 2 0
  flagsRsvd := nfield (leNat (slice 14 1 b)) 7 5 != 0
  frate := leNat (slice 16 4 b)
  correction := signedOf 32 (leNat (slice 20 4 b))
  utcOfs := leNat (slice 24 2 b)

/-- The 16 bytes of a DELAY_REQ's payload (Table 2.7), and the fields read from them. -/
def delayReqBytes (seq lastMean : Nat) : List Byte := leBytes 2 seq ++ leBytes 2 0 ++ leBytes 4 lastMean ++ leBytes 8 0
def delayReqSeq (b : List Byte) : Nat := leNat (slice 0 2 b)
def delayReqMean (b : List Byte) : Nat := leNat (slice 4 4 b)

/-- The 32 bytes of a DELAY_RESP's payload (Table 2.8), and the fields read from them. -/
def delayRespBytes (seq t2 t3 : Nat) : List Byte := leBytes 2 seq ++ leBytes 2 0 ++ fineBytes t2 ++ fineBytes t3 ++ leBytes 4 0
def delayRespSeq (b : List Byte) : Nat := leNat (slice 0 2 b)
def delayRespT2 (b : List Byte) : Nat := fineOf (slice 4 12 b)
def delayRespT3 (b : List Byte) : Nat := fineOf (slice 16 12 b)

/-- The 16 bytes of a LINKCTL's payload (Table 3.7). -/
def Linkctl.toBytes (l : Linkctl) : List Byte :=
  leBytes 1 l.typ ++ leBytes 1 (255 - l.typ % 256) ++ leBytes 2 (l.seq % 4096) ++ leBytes 4 l.arg ++ leBytes 4 l.frameNo ++ leBytes 4 0

/-- The fields of a LINKCTL's payload. -/
def Linkctl.ofBytes (b : List Byte) : Linkctl where
  typ := leNat (slice 0 1 b)
  seq := nfield (leNat (slice 2 2 b)) 11 0
  arg := leNat (slice 4 4 b)
  frameNo := leNat (slice 8 4 b)

/-- The packet that carries a payload and no transaction: FRAME and the unsequenced packets, every other header field zero (R80). -/
def plainPkt (pid : Nat) (up : Bool) (payload : List Byte) : Pkt := ⟨pid, up, 0, 0, 0, 0, 0, 0, payload⟩

/-- The packet and the LSEQ with which it goes out in a direction; none where the line carries no packet. -/
def BusPkt.pkt (up : Bool) : BusPkt → Option (Nat × Pkt)
  | .frame n f => some (n, plainPkt 5 up f.toBytes)
  | .txn n p => some (n, p)
  | .delayReq seq m => some (0, plainPkt 12 up (delayReqBytes seq m))
  | .delayResp seq t2 t3 => some (0, plainPkt 13 up (delayRespBytes seq t2 t3))
  | .linkctl l => some (0, plainPkt 14 up l.toBytes)
  | .idle _ => none
  | .quiet => none
  | .poisoned n p => some (n, p)

/-- The trailer of a packet as sent: complemented where it is poisoned (R82). -/
def BusPkt.poison : BusPkt → Bool
  | .poisoned _ _ => true
  | _ => false

/-- The packet as it stands on the link. -/
def BusPkt.raw (up : Bool) (b : BusPkt) : Option RawPkt :=
  (b.pkt up).map fun x => { x.2.raw x.1 with trailer := if b.poison then ~~~ x.2.trailer x.1 else x.2.trailer x.1 }

/-- Its bytes in the order sent: header, payload, trailer little-endian (R70, R82). -/
def RawPkt.bytes (r : RawPkt) : List Byte := r.header ++ r.payload ++ leBytes 4 r.trailer.toNat

/-- The LEN of a packet on the link. -/
def BusPkt.len (b : BusPkt) : Nat :=
  match b.pkt false with
  | some x => x.2.payload.length
  | none => 0

/-- Whether an end sends upstream. -/
def LinkEndId.sendsUp : LinkEndId → Bool
  | .port _ => false
  | .dev _ _ => true

end Sys2Proof

namespace Sys2Proof.Machine

/-! ### Calibration and asymmetry (R59, R60, R144), in 1/256 ns -/

/-- A calibration block checks (R60). -/
def calOk (c : List Byte) : Bool :=
  c.length == 16 && leNat (slice 0 2 c) == 0x5354 && leNat (slice 12 4 c) == (crc32c (c.take 12)).toNat

/-- ASYM of a calibration block (Table 2.10), per km; 0 where the block is missing or does not check. -/
def calAsym (c : List Byte) : Int := if calOk c then signedOf 16 (leNat (slice 6 2 c)) else 0

/-- The medium's asymmetry ASYM × L, where a mean delay at 4.9 ns per metre gives the length L (R60). -/
def mediumAsym (asym mean : Int) : Int := asym * mean / (256 * 4900)

/-- The residuals of an identity record (Table 4.11): UP_TX, UP_RX, DN_TX, DN_RX, at bytes 36 to 43. -/
def residual (rec_ : List Byte) (i : Nat) : Int := signedOf 16 (leNat (slice (36 + 2 * i) 2 rec_))

/-- A of a link (R144): the downstream-direction delay minus the upstream-direction one. `up` and `dn` are the identity records of its two ends, a root
port's being empty; `calUp` and `calDn` the calibration blocks of their transceivers. The medium's part is taken from the upstream end's block, and from
the other one where that is missing. -/
def linkAsym (up dn calUp calDn : List Byte) (mean : Int) : Int :=
  let medium := if calOk calUp then mediumAsym (calAsym calUp) mean else -mediumAsym (calAsym calDn) mean
  medium + (residual up 2 + residual dn 1) - (residual dn 0 + residual up 3)

/-! ### The twin link (R376, R377) -/

/-- A message of the twin link: its header (Table 12.1), payload and CRC-32C. -/
def twinMsg (kind lseq : Nat) (p : List Byte) : List Byte :=
  let b := leBytes 1 kind ++ leBytes 1 (255 - kind % 256) ++ leBytes 2 (lseq % 4096) ++ leBytes 2 p.length ++ leBytes 2 0 ++ p
  b ++ leBytes 4 (crc32c b).toNat

/-- A kind of Table 12.2 and the LEN that it has. -/
def twinLenOk (kind len : Nat) : Bool :=
  match kind with
  | 0x01 => len == 4
  | 0x02 => len == 4
  | 0x10 => len == 64
  | 0x11 => len % 16 == 0 && decide (16 ≤ len ∧ len ≤ 4096)
  | 0x12 => decide (24 ≤ len ∧ len ≤ 4096)
  | 0x13 => len == 8
  | 0x14 => len == 16
  | _ => false

/-- The kinds that carry no sequence number (Table 12.2). -/
def twinLoose (kind : Nat) : Bool := kind == 1 || kind == 2

/-- What a received message is: its kind, LSEQ and payload; or a header error, or a CRC error (Table 3.6). -/
inductive TwinRead where
  | msg (kind lseq : Nat) (payload : List Byte)
  | header
  | crc (kind : Nat)
  deriving DecidableEq, Repr

/-- The receive checks of the twin link, in the order of Table 3.6 (R377). -/
def twinRead (m : List Byte) : TwinRead :=
  let kind := leNat (slice 0 1 m)
  let w := leNat (slice 2 2 m)
  let len := leNat (slice 4 2 m)
  if leNat (slice 1 1 m) ≠ 255 - kind ∨ m.length ≠ len + 12 ∨ twinLenOk kind len = false then .header
  else if 4096 ≤ w ∨ leNat (slice 6 2 m) ≠ 0 ∨ (twinLoose kind = true ∧ w ≠ 0) then .header
  else if leNat (m.drop (8 + len)) ≠ (crc32c (m.take (8 + len))).toNat then .crc kind
  else .msg kind w (slice 8 len m)

/-- The byte stream of what left on the twin link. -/
def twinStream (out : List Output) : List Byte :=
  (out.filterMap fun o => match o with
    | .twin kind lseq p => some (twinMsg kind lseq p)
    | _ => none).flatten

/-- The bytes of lane `k`: the stream is striped over the four lanes byte by byte. -/
def twinLane (k : Nat) (b : List Byte) : List Byte := ((b.drop k).zipIdx.filter fun x => x.2 % 4 == 0).map Prod.fst

/-- Whole blocks of eight bytes, each least significant byte first. -/
def wholeBlocks : Nat → List Byte → List Nat
  | 0, _ => []
  | n + 1, b => if b.length < 8 then [] else leNat (b.take 8) :: wholeBlocks n (b.drop 8)

/-- The blocks of lane `k`, as far as its bytes fill them: the sync header, which is that of a block that begins no codeword, and 64 scrambled bits (R75
without the Reed–Solomon code; log entry 103). -/
def State.twinBlocks (s : State) (k : Nat) : List (Nat × Nat) :=
  let b := twinLane k (twinStream s.out)
  (throughScrambler (scrambleN 64) 0 (wholeBlocks b.length b)).1.map fun x => (syncHeader 1, x)

/-- The bytes that a receiver takes from the blocks of one lane. -/
def laneBytes (l : List (Nat × Nat)) : List Byte := ((throughScrambler (descrambleN 64) 0 (l.map Prod.snd)).1.map (leBytes 8)).flatten

/-- The byte stream that a receiver takes from the blocks of the four lanes, their skew removed: the messages of the receive commands stand in it one
after another (R376, R377). -/
def twinReceived (lanes : List (List (Nat × Nat))) : List Byte :=
  let b := lanes.map laneBytes
  let n := (b.map List.length).foldl min (b.headD []).length
  (upto (4 * n)).map fun i => (b.getD (i % 4) []).getD (i / 4) 0

/-! ### The line of a link end -/

/-- What an end has put on the line for the packets that it sent at a rate, in order (R77). -/
def sentOn (rate : Nat) (l : LinkEndId) (out : List Output) : List RxSym :=
  (out.filterMap fun o => match o with
    | .send k r p => if k = l ∧ r = rate then (p.raw l.sendsUp).map fun x => framed rate x.bytes else none
    | _ => none).flatten

/-- The code groups of an end at Rate 1, its running disparity negative at first (R71; log entry 82). -/
def State.lineGroups (s : State) (l : LinkEndId) : List Nat := Machine.lineGroups false (sentOn 0 l s.out)

/-- The blocks of an end at Rate 5, as far as they fill codewords (R74, R75; log entry 82). -/
def State.lineBlocks (s : State) (l : LinkEndId) : List (Nat × Nat) :=
  let b := (sentOn 1 l s.out).map RxSym.value
  streamBlocks 0 (messages (b.length / 225) b)

end Sys2Proof.Machine
end

