-- ==== Sys2Proof/Machine/Link.lean ====
section
/-! DEFINITION. Machine/Link.lean: link ends (R83–R94): sequenced sending, replay, acknowledgement, the CAPS exchange, and the
LINKCTL messages that are repeated. -/

namespace Sys2Proof.Machine

/-! ### Replay buffers (R84, R87) -/

/-- Bytes of the replay buffer of an end: 16 KiB at a root port, at least 8 KiB elsewhere. -/
def replayRoom (l : LinkEndId) : Nat :=
  match l with
  | .port (.root _) => 16384
  | _ => 8192

/-- Bytes that packets other than FRAME leave free: 64 at a root port. -/
def frameReserve (l : LinkEndId) : Nat :=
  match l with
  | .port (.root _) => 64
  | _ => 0

/-- Bytes of a replay buffer in use. -/
def LinkEnd.used (e : LinkEnd) : Nat := (e.replay.map Kept.bytes).foldl (· + ·) 0

/-- A packet of a size may be sent now. -/
def LinkEnd.fits (e : LinkEnd) (room bytes : Nat) : Bool := decide (e.used + bytes ≤ room) && decide (e.replay.length < 2047)

/-- One LINKCTL message. -/
def linkctl (typ seq arg frameNo : Nat) : BusPkt := .linkctl ⟨typ, seq % 4096, arg, frameNo⟩

/-- A receiver holds what its rate needs: sync at Rate 1, codeword lock at Rate 5. Without it the link counts as down (R72, R75). -/
def LinkEnd.rxOk (e : LinkEnd) : Bool := if e.rate = 0 then e.sync else e.cwLock

/-- An end switches to a rate: what the receiver held at another rate is gone. -/
def LinkEnd.toRate (e : LinkEnd) (r : Nat) : LinkEnd :=
  if e.rate = r then e else { e with rate := r, sync := false, cwLock := false, rx := [], ticket := false }

/-- A packet that takes an LSEQ, and a FRAME, among those kept. -/
def Kept.seq (k : Kept) : Bool :=
  match k.pkt with
  | .frame _ _ => true
  | .txn _ _ => true
  | _ => false

def Kept.isFrame (k : Kept) : Bool :=
  match k.pkt with
  | .frame _ _ => true
  | _ => false

/-- Bytes of payload that a kept packet takes onto the line: a CALL_OUT goes with the DATA behind it, which has 24 byte times of framing of its own (R122). -/
def Kept.span (k : Kept) (r : List Kept) : Nat :=
  match k.pkt, r with
  | .txn _ p, q :: _ => if p.pid = 2 then k.pkt.len + 24 + q.pkt.len else k.pkt.len
  | _, _ => k.pkt.len

/-- A packet as it goes out at a departure crossing: a FRAME with the CORRECTION of this transmission (R91), a DELAY_RESP with its T3 (R57). -/
def Kept.sent (k : Kept) (x : Int) : BusPkt :=
  match k.pkt with
  | .frame n f => .frame n { f with correction := k.base + x }
  | .delayResp q t2 _ => .delayResp q t2 x.toNat
  | p => p

namespace State

/-! ### What leaves, and when (R77, R90) -/

/-- Byte time of a link in tenths of a nanosecond (Table 3.1). -/
def byteTenths (s : State) (l : LinkEndId) : Nat := if (s.link l).rate = 1 then 16 else 80

/-- The transmitter of a root port is in electrical idle by TXDIS_FORCE (Table 3.17). -/
def txForced (s : State) (l : LinkEndId) : Bool :=
  match l with
  | .port (.root n) => field (s.port (.root n)).cfg 7 7 != 0
  | _ => false

/-- The end belongs to a root port that is absent: it drives its transmitter to no level and takes nothing from its receiver (R6). -/
def absentEnd (s : State) (l : LinkEndId) : Bool :=
  match l with
  | .port (.root n) => decide (s.nPorts ≤ n)
  | _ => false

/-- Something goes onto a link, unless its transmitter is idle or absent. -/
def putOn (s : State) (l : LinkEndId) (p : BusPkt) : State :=
  if s.txForced l || s.absentEnd l then s else s.emit (.send l (s.link l).rate p)

/-- The end knows the tick instant: the controller always, a device while it is synchronised. -/
def knowsTick (s : State) (l : LinkEndId) : Bool :=
  match l with
  | .port (.root _) => true
  | .port (.hub d _) => (s.dev d).synced
  | .dev d _ => (s.dev d).synced

/-- A packet of LEN `len` that starts `off` byte times from now would not end 100 ns before the tick (R90). -/
def tickHold (s : State) (l : LinkEndId) (len off : Nat) : Bool :=
  s.knowsTick l && decide (s.tim.now < s.nextTick) &&
    decide (s.nextTick * 10 < s.tim.now * 10 + (off + len + 22) * s.byteTenths l + 1000)

/-- What a root port adds to a departure that it measures at its ball, and takes off a reception: TIM_TRIMn, the board's delay from there to the
reference plane (R53, Table 2.31). -/
def trimOf (s : State) (l : LinkEndId) : Int :=
  match l with
  | .port (.root n) => signedOf 16 (Tbl.get 0 s.tim.effTrim n)
  | _ => 0

/-- A departure crossing at the reference plane. -/
def atPlane (s : State) (l : LinkEndId) (x : Int) : Int := x + s.trimOf l

/-- A kept packet waits for the FRAME: R90 does not let it go `off` byte times from now, with the DATA behind it where it is a CALL_OUT (R122); and what is
sequenced waits behind what is. -/
def waitsFrame (s : State) (l : LinkEndId) (off : Nat) (k : Kept) (r : List Kept) : Bool :=
  (k.seq && (s.link l).held.any Kept.seq) || (!k.isFrame && s.tickHold l (k.span r) off)

/-- Kept packets leave back to back, the first `off` byte times after the crossing `x`; one that has to waits for the FRAME. -/
def launch (s : State) (l : LinkEndId) (x : Int) : Nat → List Kept → State
  | _, [] => s
  | off, k :: r =>
    if s.waitsFrame l off k r then launch (s.onLink l fun e => { e with held := e.held ++ [k] }) l x off r
    else launch (s.putOn l (k.sent (s.atPlane l (x + (off * s.byteTenths l * 256 / 10 : Nat))))) l x (off + k.pkt.len + 24) r

/-- The byte times from now after which the line is free again behind them. -/
def launched (s : State) (l : LinkEndId) : Nat → List Kept → Nat
  | off, [] => off
  | off, k :: r =>
    if s.waitsFrame l off k r then launched (s.onLink l fun e => { e with held := e.held ++ [k] }) l off r
    else launched s l (off + k.pkt.len + 24) r

/-- An unsequenced packet leaves, its crossing at `x`. -/
def sendOne (s : State) (l : LinkEndId) (p : BusPkt) (x : Int) : State := s.launch l x 0 [⟨0, p, 0, 0⟩]

/-- A new sequenced packet leaves an end: it takes the next LSEQ and stays in the replay buffer. -/
def push (s : State) (l : LinkEndId) (bytes : Nat) (base : Int) (p : Nat → BusPkt) : State :=
  let n := (s.link l).txSeq
  (s.putOn l (p n)).onLink l fun e => { e with txSeq := (n + 1) % 4096, replay := e.replay ++ [⟨n, p n, bytes, base⟩] }

/-- A packet of a transaction leaves a root port: its last byte crosses LEN + 22 byte times after its first, which follows two idle bytes behind those sent
before it (R77, R128). -/
def departed (s : State) (l : LinkEndId) (p : Pkt) : State :=
  match l with
  | .port (.root n) => { s with txns := s.txns.map fun x =>
      if x.port = n ∧ x.tag = p.tag then { x with depart := some (max ((x.depart.map (· + 2 * s.byteTenths l)).getD 0) (s.tim.now * 10) +
        (p.payload.length + 22) * s.byteTenths l) } else x }
  | _ => s

/-- One packet of the queue leaves. -/
def pushPkt (s : State) (l : LinkEndId) (p : Pkt) : State :=
  ((s.onLink l fun e => { e with queue := e.queue.drop 1 }).push l (p.payload.length + 20) 0 fun n => .txn n p).departed l p

/-- What leaves together from the front of a queue: a CALL_OUT with the DATA behind it (R122), or one packet. -/
def unitOf : List Pkt → List Pkt
  | [] => []
  | p :: r => if p.pid = 2 then (match r with
      | q :: _ => [p, q]
      | [] => []) else [p]

/-- Packets that waited leave while they fit (R87) and end in time before the tick (R90), the first of them `off` byte times from now; the fuel is their
number. -/
def drainQueue (s : State) (l : LinkEndId) (off : Nat) : Nat → State
  | 0 => s
  | n + 1 =>
    let u := unitOf (s.link l).queue
    let len := (u.map fun p => p.payload.length).foldl (· + ·) 0
    if !u.isEmpty && (s.link l).up && (s.link l).fits (replayRoom l - frameReserve l) (len + 20 * u.length) &&
        decide ((s.link l).replay.length + u.length ≤ 2047) && !(s.link l).held.any Kept.seq &&
        !s.tickHold l len (off + 24 * (u.length - 1)) then
      drainQueue (u.foldl (fun s p => s.pushPkt l p) s) l (off + len + 24 * u.length) n
    else s

/-- Everything that may leave now, from `off` byte times on. -/
def drainFrom (s : State) (l : LinkEndId) (off : Nat) : State := s.drainQueue l off (s.link l).queue.length

/-- Everything that may leave now. -/
def drain (s : State) (l : LinkEndId) : State := s.drainFrom l 0

/-- Kept packets leave, `off` byte times after the crossing `x`, and what may leave behind them. -/
def launchAll (s : State) (l : LinkEndId) (x : Int) (off : Nat) (ks : List Kept) : State :=
  (s.launch l x off ks).drainFrom l (s.launched l off ks)

/-- Sequenced packets other than FRAME, after those that wait (R85). -/
def sendPkts (s : State) (l : LinkEndId) (ps : List Pkt) : State := (s.onLink l fun e => { e with queue := e.queue ++ ps }).drain l

/-- One of them. -/
def sendPkt (s : State) (l : LinkEndId) (p : Pkt) : State := s.sendPkts l [p]

/-- A FRAME (52 bytes) at a departure crossing, ahead of what waits (R90). It is not sent where the replay buffer has no room for it (R87; log
entry 84). -/
def sendFrame (s : State) (l : LinkEndId) (f : FrameBody) (base x : Int) : State :=
  if (s.link l).fits (replayRoom l) 52 then s.push l 52 base fun n => .frame n { f with correction := base + s.atPlane l x } else s

/-- What waited for the FRAME leaves after it, `off` byte times after the crossing `x`. -/
def release (s : State) (l : LinkEndId) (x : Int) (off : Nat) : State :=
  (s.onLink l fun e => { e with held := [] }).launchAll l x off (s.link l).held

/-- A LINKCTL on a link. -/
def sendCtl (s : State) (l : LinkEndId) (typ seq arg frameNo : Nat) : State := s.sendOne l (linkctl typ seq arg frameNo) 0

end State

/-! ### Acknowledgement and replay (R86, R88, R91) -/

/-- The kept packets from an LSEQ on. -/
def Kept.from (n : Nat) : List Kept → List Kept
  | [] => []
  | k :: r => if k.lseq = n then k :: r else Kept.from n r

/-- The kept packets after an LSEQ; all of them where it is not among them. -/
def Kept.after (n : Nat) (l : List Kept) : List Kept :=
  match Kept.from n l with
  | _ :: r => r
  | [] => l

namespace State

/-- An ACK frees what it covers; one that moves forward sets the replay count to zero (R88). -/
def ackKept (s : State) (l : LinkEndId) (seq : Nat) : State :=
  let kept := Kept.after seq (s.link l).replay
  if kept.length < (s.link l).replay.length then
    (s.onLink l fun e => { e with replay := kept, replayCnt := 0 }).drain l
  else s

/-- What still waits of an earlier replay gives way to the new one. -/
def dropReplay (s : State) (l : LinkEndId) : State := s.onLink l fun e => { e with held := e.held.filter fun k => !k.seq }

/-- The packets from an LSEQ on are sent again, in order, before anything new, the first at the crossing `tTx`. -/
def resend (s : State) (l : LinkEndId) (seq : Nat) (tTx : Int) : State :=
  (s.dropReplay l).launchAll l tTx 0 (Kept.from seq (s.link l).replay)

/-- The whole replay buffer is sent again. -/
def resendAll (s : State) (l : LinkEndId) (tTx : Int) : State := (s.dropReplay l).launchAll l tTx 0 (s.link l).replay

/-- A replay started by a root port is counted (Table 3.23). -/
def countReplay (s : State) (l : LinkEndId) : State :=
  match l with
  | .port (.root n) => s.countN .PRT_RETRY_REPLAYS n 1
  | _ => s

/-- A ninth replay from the same LSEQ would be needed without the ACK having moved forward (R88). -/
def replaysOut (s : State) (l : LinkEndId) (seq : Nat) : Bool :=
  let e := s.link l
  decide (8 ≤ e.replayCnt) && e.replayFrom == seq

/-- A counted replay. -/
def replay (s : State) (l : LinkEndId) (seq : Nat) (tTx : Int) : State :=
  if (Kept.from seq (s.link l).replay).isEmpty then s
  else ((s.onLink l fun e => { e with
    replayCnt := if e.replayFrom = seq ∧ 0 < e.replayCnt then e.replayCnt + 1 else 1, replayFrom := seq }).countReplay l).resend l seq tTx

/-! ### Upstream links of a device -/

/-- The delay measurement of an upstream link. -/
def delay (s : State) (d up : Nat) : Delay := Tbl.get Delay.init (s.dev d).delays up

/-- It is changed. -/
def onDelay (s : State) (d up : Nat) (f : Delay → Delay) : State :=
  s.onDev d fun v => { v with delays := Tbl.upd Delay.init v.delays up f }

/-- The upstream port that a device serves: the token holder's for a dual-upstream hub (R382). -/
def upOf (s : State) (d : Nat) : Option Nat := if (s.dev d).kind = 3 then (s.dev d).token.holder else some 0

/-- What a hub takes from an upstream port it acts on: not where another upstream holds the token (R382). -/
def actsFrom (s : State) (d up : Nat) : Bool :=
  (s.dev d).kind != 3 || (s.dev d).token.holder.all fun h => h == up

/-- A packet that a device originates or forwards upstream. -/
def sendUp (s : State) (d : Nat) (p : Pkt) : State :=
  match s.upOf d with
  | some up => s.sendPkt (.dev d up) p
  | none => s.onLink (.dev d 0) fun e => { e with discarded := e.discarded + 1 }

/-- The guard band, the last 2,000 ns before the tick (R208), as an end knows it. -/
def inGuard (s : State) (l : LinkEndId) : Bool := s.knowsTick l && decide (s.tim.now < s.nextTick) && decide (s.nextTick ≤ s.tim.now + 2000)

/-- DELAY_REQ leaves on an upstream link, its crossing at `t1` in the device's own time (R57). None is sent in the guard band: it follows the
next FRAME. -/
def sendDelayReq (s : State) (d up : Nat) (t1 : Int) : State :=
  let m := s.delay d up
  let seq := (m.reqSeq + 1) % 2 ^ 16
  if s.inGuard (.dev d up) then s.onDelay d up fun m => { m with reqAgain := true }
  else (s.sendOne (.dev d up) (.delayReq seq (match m.mean with
    | some x => x.toNat % 2 ^ 32
    | none => 2 ^ 32 - 1)) t1).onDelay d up fun m => { m with reqSeq := seq, reqT1 := some t1, reqAgain := false }

/-! ### The order upstream (R97) -/

/-- The packet of a port whose header came first among those still open is there now. -/
def upFill (q : Nat) (p : Pkt) : List (Nat × Option Pkt) → List (Nat × Option Pkt)
  | [] => [(q, some p)]
  | x :: r => if x.1 = q ∧ x.2 = none then (q, some p) :: r else x :: upFill q p r

/-- It is gone. -/
def upDrop (q : Nat) : List (Nat × Option Pkt) → List (Nat × Option Pkt)
  | [] => []
  | x :: r => if x.1 = q ∧ x.2 = none then r else x :: upDrop q r

/-- Packets leave upstream as long as the one whose header came first is there; the fuel is their number. -/
def upFlush (s : State) (d : Nat) : Nat → State
  | 0 => s
  | n + 1 =>
    match (s.dev d).upq with
    | (_, some p) :: r => upFlush ((s.onDev d fun v => { v with upq := r }).sendUp d p) d n
    | _ => s

/-- The packets of a hub upstream, changed. -/
def onUpq (s : State) (d : Nat) (f : List (Nat × Option Pkt) → List (Nat × Option Pkt)) : State :=
  let s1 := s.onDev d fun v => { v with upq := f v.upq }
  s1.upFlush d (s1.dev d).upq.length

/-- The place that an end's packet took upstream is given up. -/
def dropTicket (s : State) (l : LinkEndId) : State :=
  match l with
  | .port (.hub d q) => if (s.link l).ticket then (s.onUpq d (upDrop q)).onLink l fun e => { e with ticket := false } else s
  | _ => s

/-! ### CAPS (R94) -/

/-- The capabilities that an end reports (Table 3.9), SEEN and FRESH apart: a root port at tier 0, a hub port with its hub's
tier, or a device as its identity record describes it. -/
def capsOf (s : State) (l : LinkEndId) : Nat :=
  match l with
  | .port (.root n) => 2 ^ 8 + bit (s.flagN .PRT_CTL_RWAKE_EN n) * 8 + 1
  | .port (.hub d p) =>
    (s.dev d).tier % 8 * 2 ^ 24 + (s.dev d).nports % 256 * 2 ^ 16 + 2 ^ 8 + bit (s.port (.hub d p)).remoteWake * 8 +
      bit ((s.dev d).kind == 3) * 4 + 2 + nfield (leNat (Sys2Proof.slice 32 1 (Tbl.get [] (s.dev d).records 0))) 3 3
  | .dev d _ =>
    let v := s.dev d
    let b := leNat (Sys2Proof.slice 32 1 (Tbl.get [] v.records 0))
    (if v.kind = 1 then 0 else v.tier % 8 * 2 ^ 24 + v.nports % 256 * 2 ^ 16) + 2 ^ 8 + nfield b 2 2 * 8 + bit (v.kind == 3) * 4 +
      bit (v.kind != 1) * 2 + nfield b 3 3

/-- CAPS leaves an end, with SEEN once the peer's CAPS was received. -/
def sendCaps (s : State) (l : LinkEndId) : State :=
  let e := s.link l
  let seen := e.peerCaps.isSome
  (s.sendCtl l 3 e.rxSeq (bit seen * 2 ^ 31 + bit e.fresh * 2 ^ 30 + s.capsOf l) 0).onLink l
    fun e => { e with seenSent := e.seenSent || seen }

/-- An end treats the link as down; what it holds of the link stays. The first delay that it measures on a later link is accepted as it is, and
a device whose link this was is no longer synchronised (R58, R61); its link trains at Rate 1 again (R69). -/
def endDown (s : State) (l : LinkEndId) : State :=
  let s1 := (s.dropTicket l).onLink l fun e => { e with
    up := false, seenSent := false, seenRecv := false, peerCaps := none, waiting := [], ratePend := none, rx := [], held := [] }
  match l with
  | .port _ => s1
  | .dev d up => ((s1.onLink l fun e => e.toRate 0).onDelay d up fun m => { m with mean := none, rejects := [], reqT1 := none }).onDev d fun v =>
      { v with synced := v.synced && v.kind == 3 && v.token.holder != some up }

/-- An end trains at a rate, with a new exchange of CAPS; what it holds of the link stays (R69, R94). -/
def trainAt (s : State) (l : LinkEndId) (r : Nat) : State :=
  ((s.endDown l).onLink l fun e => { e.toRate r with noRate5 := false }).sendCaps l

/-- An end trains at Rate 1 (R69). -/
def train (s : State) (l : LinkEndId) : State := s.trainAt l 0

/-- An end abandons the link's state: it reports FRESH from now on (R94). The counts of errors and the receiver stay. -/
def endFresh (s : State) (l : LinkEndId) : State :=
  (s.dropTicket l).onLink l fun e => { LinkEnd.init with
    hdrErr := e.hdrErr, crcErr := e.crcErr, poisoned := e.poisoned, discarded := e.discarded,
    sync := e.sync && e.rate == 0, rxRd := e.rxRd, rxHist := e.rxHist }

/-- The link of an end is up (R94): LSEQ restarts where either end is fresh, else the end replays from the peer's SEQ. That replay counts neither
among those of R88 nor in REPLAYS, and the count of R88 goes on over the retrain (log entry 85). -/
def endUp (s : State) (l : LinkEndId) (peerSeq peerArg : Nat) (tTx : Int) : State :=
  let e := s.link l
  if e.fresh || nfield peerArg 30 30 == 1 then
    (s.onLink l fun e => { e with up := true, fresh := false, txSeq := 0, rxSeq := 0, replay := [], replayCnt := 0 }).drain l
  else (s.onLink l fun e => { e with up := true }).resend l peerSeq tTx

/-! ### Commands that are repeated until echoed (R93) -/

/-- RESET, SUSPEND, RESUME or WAKE starts on a link at an instant: sent now, or at a later repeat where the echo of the previous
one of its type is less than 1 ms old. -/
def startCtl (s : State) (l : LinkEndId) (typ t : Nat) : State :=
  let s1 := s.onLink l fun e => { e with
    waiting := e.waiting.filter (fun c => c.typ != typ) ++ [⟨typ, 0, 0, 0⟩], wakeAt := if typ = 9 then some t else e.wakeAt }
  match Tbl.find (s.link l).echoRecv typ with
  | some e => if t < e + 1000000 then s1 else s1.sendCtl l typ 0 0 0
  | none => s1.sendCtl l typ 0 0 0

/-- It is repeated no more. -/
def stopCtl (s : State) (l : LinkEndId) (typ : Nat) : State :=
  s.onLink l fun e => { e with waiting := e.waiting.filter fun c => c.typ != typ }

/-- An echo of a command arrives at an end that waits for it. -/
def awaits (s : State) (l : LinkEndId) (typ : Nat) : Bool := (s.link l).waiting.any fun c => c.typ == typ

/-- The echo is taken. -/
def echoTaken (s : State) (l : LinkEndId) (typ t : Nat) : State :=
  (s.stopCtl l typ).onLink l fun e => { e with echoRecv := Tbl.put e.echoRecv typ t }

/-- The downstream end has echoed one of its type less than 500 us ago: this one is a repeat. -/
def isRepeat (s : State) (l : LinkEndId) (typ t : Nat) : Bool :=
  match Tbl.find (s.link l).echoSent typ with
  | some e => decide (t ≤ e + 500000)
  | none => false

/-- A downstream end echoes. A repeat is echoed again and leaves the instant of the first echo. -/
def echo (s : State) (l : LinkEndId) (typ t : Nat) (again : Bool) : State :=
  let s1 := s.sendCtl l typ 0 0 0
  if again then s1 else s1.onLink l fun e => { e with echoSent := Tbl.put e.echoSent typ t }

end State

end Sys2Proof.Machine
end

