-- ==== Sys2Proof/Machine/TwinBase.lean ====
section
/-! DEFINITION. Machine/TwinBase.lean: what the dealer and the ports need of the twin pair (chapter 12): which trees are shared
and who runs them, and the messages that leave on the twin link. -/

namespace Sys2Proof.Machine.State

def onTwin (s : State) (f : Twin → Twin) : State := { s with twin := f s.twin }
def tree (s : State) (n : Nat) : TwinTree := Tbl.get TwinTree.init s.twin.trees n
def onTree (s : State) (n : Nat) (f : TwinTree → TwinTree) : State :=
  s.onTwin fun w => { w with trees := Tbl.upd TwinTree.init w.trees n f }

/-- A shared tree (R381). -/
def shared (s : State) (n : Nat) : Bool := (Tbl.find s.twin.pmap n).isSome && s.flagN .PRT_STS_PEER_DUAL_UP n

/-- TWN_OWNED and TWN_WARM, bit n. -/
def owns (s : State) (n : Nat) : Bool := nfield (s.fget .TWN_OWNED_OWNED) n n == 1
def warm (s : State) (n : Nat) : Bool := nfield (s.fget .TWN_WARM_WARM) n n == 1

/-- The pair is PAIRED. -/
def paired (s : State) : Bool := s.fget .TWN_STS_PAIR == 3

/-- The controller runs the hand of a frame on a tree: the tree is not shared, or it is owned in that frame (R384–R386, R392, R393, R398). -/
def treeRuns (s : State) (n frame : Nat) : Bool :=
  !s.shared n || (s.owns n && !(s.tree n).silent &&
    (match (s.tree n).ownFrom with
     | some f => !later32 f frame
     | none => true) &&
    (match (s.tree n).releaseAt with
     | some f => later32 f frame
     | none => true))

/-- Nothing is composed for the tree: it was handed over, lost or released (R385, R392, R398). -/
def treeSilent (s : State) (n frame : Nat) : Bool := s.shared n && s.owns n && !s.treeRuns n frame && (s.tree n).ownFrom.isNone

/-- R148 applies to a RESET that the controller sends on a root port: not while it does not hold the token of its tree (R385). -/
def resetsTree (s : State) (n : Nat) : Bool := !s.shared n || s.owns n

end State

/-- The partner's handle of a handle of this side, and back: the port replaced, the other fields kept (R381). -/
def ephPort (eph port : Nat) : Nat := eph % 2 ^ 19 + port % 64 * 2 ^ 19

/-- The CRC-32C and header bytes that a message adds to its payload (R377). -/
def TwinMsg.bytes (m : TwinMsg) : Nat := m.payload.length + 12

namespace State

/-- Bytes in the twin replay buffer. -/
def twinUsed (s : State) : Nat := (s.twin.replay.map fun k => k.msg.bytes).foldl (· + ·) 0

/-- Waiting messages leave while the replay buffer of 64 KiB and the sequence numbers have room (R377, R87); the fuel is their
number. -/
def twinDrain (s : State) : Nat → State
  | 0 => s
  | k + 1 =>
    match s.twin.queue with
    | [] => s
    | m :: rest =>
      if s.twinUsed + m.bytes ≤ 65536 ∧ s.twin.replay.length < 2047 then
        twinDrain ((s.emit (.twin m.kind s.twin.txSeq m.payload)).onTwin fun w => { w with
          queue := rest, replay := w.replay ++ [⟨w.txSeq, m⟩], txSeq := (w.txSeq + 1) % 4096 }) k
      else s

/-- A sequenced message for the partner, while the twin link runs (R376, R377). -/
def twinSend (s : State) (kind : Nat) (payload : List Byte) : State :=
  if s.twin.enabled then
    let s1 := s.onTwin fun w => { w with queue := w.queue ++ [⟨kind, payload⟩] }
    s1.twinDrain s1.twin.queue.length
  else s

/-- A TWIN event (R399). -/
def twinEvent (s : State) (what code port high : Nat) : State :=
  s.event1 evTwin 0 0 (what * 2 ^ 28 + code % 16 * 2 ^ 24 + port % 64) (high % 2 ^ 32 * 2 ^ 32 + s.frameNo)

/-! ### Mirroring (R388, R389) -/

/-- An endpoint is mirrored: the pair is PAIRED, this side owns the tree, and the partner's BEAT shows it WARM there. -/
def mirrored (s : State) (eph : Nat) : Bool :=
  s.paired && s.owns (Eph.port eph) && (match Tbl.find s.twin.pmap (Eph.port eph) with
    | some q => nfield s.twin.peerWarm q q == 1
    | none => false)

/-- A MIRROR record sent (Table 12.7). -/
def mirrorSend (s : State) (mkind eph toggle status time : Nat) (late : Bool) (data : List Byte) : State :=
  let n := s.twin.mseqTx
  (s.twinSend 0x12 (leBytes 1 mkind ++ leBytes 1 (bit late * 2 + toggle % 2) ++ leBytes 2 data.length ++ leBytes 4 (eph % 2 ^ 25) ++
    leBytes 4 n ++ leBytes 1 status ++ leBytes 3 0 ++ leBytes 8 time ++ data)).onTwin fun w => { w with
      mseqTx := (n + 1) % 2 ^ 32, mirrored := Tbl.put w.mirrored n s.tim.now }

/-- CMD_INTENT of a composed COMMAND (R389). -/
def mirrorIntent (s : State) (eph toggle execAt : Nat) (data : List Byte) : State :=
  if s.mirrored eph then
    let n := s.twin.mseqTx
    (s.mirrorSend 1 eph toggle 0 execAt false data).onTwin fun w => { w with intentSeq := Tbl.put w.intentSeq eph n }
  else s.onTwin fun w => { w with intentSeq := Tbl.del w.intentSeq eph }

/-- The MCONF that covers the CMD_INTENT of an endpoint has arrived, or none is awaited. -/
def intentConfirmed (s : State) (eph : Nat) : Bool :=
  !s.mirrored eph || (match Tbl.find s.twin.intentSeq eph with
    | some n => later32 s.twin.confirmed n
    | none => true)

/-- CMD_DONE when a COMMAND completes, whatever its status (R389). -/
def mirrorDone (s : State) (eph toggle status stamp : Nat) (late : Bool) : State :=
  let s1 := if s.mirrored eph then s.mirrorSend 2 eph toggle status stamp late [] else s
  s1.onTwin fun w => { w with intentSeq := Tbl.del w.intentSeq eph }

end Sys2Proof.Machine.State
end

