-- ==== Sys2Proof/Machine/Port.lean ====
section
/-! DEFINITION. Machine/Port.lean: the states of root ports and hub ports (Tables 3.10 to 3.13), the commands of PRT_CTLn, and
what goes with a transition: change bits, contexts that go, echoes that a hub owes. -/

namespace Sys2Proof.Machine

/-- A change bit of PRT_CHGn as a mask. -/
def Fld.mask (f : Fld) : Nat := 2 ^ f.lo

/-- A change of a port waits for its RATE_ACK. -/
def RateChange.unacked (c : RateChange) : Bool := c.reqSent && !c.acked

namespace State

/-- A tree became shared, or is shared no more: on a shared tree that the controller does not own every context is a shadow (R381, R386). -/
def sharedShown (s : State) (n : Nat) (was : Bool) : State :=
  if s.shared n && !was && !s.owns n then s.ctxAll (.shadow n true)
  else if !s.shared n && was then s.ctxAll (.shadow n false)
  else s

/-- PRT_STSn.STATE of a port (Table 3.10). -/
def portState (s : State) (p : PortId) : Nat := s.fgetN .PRT_STS_STATE p.code

/-- PRT_STSn.STATE set. -/
def putState (s : State) (p : PortId) (st : Nat) : State := s.fsetN .PRT_STS_STATE p.code st

/-- Change bits are set: for a root port with one PORT_CHANGE event (R100); a hub notes when its bitmap first changed (R121). -/
def change (s : State) (p : PortId) (bits : List Fld) : State :=
  if bits.isEmpty then s
  else
    let s1 := bits.foldl (fun s f => s.raiseN f p.code) s
    match p with
    | .root n => s1.event1 evPort 0 0 n ((s1.rd .PRT_STS n).toNat % 2 ^ 32 * 2 ^ 32 + (bits.map Fld.mask).foldl (· + ·) 0)
    | .hub d _ => s1.onDev d fun v => { v with chgAt := match v.chgAt with
      | some t => some t
      | none => some s.tim.now }

/-- A command in a state in which it is not valid (R107). -/
def refuseCmd (s : State) (p : PortId) : State := s.change p [.PRT_CHG_CMD_REFUSED]

/-- A port shows a rate in PRT_STSn. -/
def showRate (s : State) (p : PortId) : State := s.fsetN .PRT_STS_RATE p.code (s.link (.port p)).rate

/-- Commands of a ring that wait for something in the block complete with a status and a RESULT. -/
def cmdsDone (s : State) (p : CmdRec → Bool) (status result : Nat) : State :=
  { s with cmds := s.cmds.map fun c => if p c && c.status.isNone then { c with status := some status, result := if c.op = 0x23 then 0 else result } else c }

/-- The PORT_RATE or APPLY_ADVICE command that waits for a port's rate change completes; the RESULT of PORT_RATE is the switch frame (R197). -/
def rateCmd (s : State) (p : PortId) (status result : Nat) : State :=
  s.cmdsDone (fun c => (c.op == 0x22 || c.op == 0x23) && c.stage == 1 && c.arg == p.code) status result

/-- The status of PORT_RATE for a REFUSE_WHY (R197). -/
def whyStatus (why : Nat) : Nat := if why = 1 then stBounds else if why = 2 then stOverbooked else stNoResponse

/-- A rate change of a port is dropped (R106, R108, R109): REFUSE_WHY, and the bits to set with those of the transition. -/
def rateDrop (s : State) (p : PortId) (why : Nat) : State :=
  ((s.fsetN .PRT_STS_REFUSE_WHY p.code why).onPort p fun x => { x with rateChg := none }).rateCmd p (whyStatus why) 0

/-- A rate change dropped where the port's state stays. -/
def rateRefuse (s : State) (p : PortId) (why : Nat) : State := (s.rateDrop p why).change p [.PRT_CHG_RATE_REFUSED]

/-- States in which a port has a link (R150). -/
def hasLink (st : Nat) : Bool := decide (3 ≤ st ∧ st ≤ 8)

/-- A port has a link, or one that is up while the port is still TRAINING. -/
def linked (s : State) (p : PortId) : Bool := hasLink (s.portState p) || (s.portState p == 2 && (s.link (.port p)).up)

/-- The rate of a port's link, or the one to which it moves while it comes up (R94). -/
def rateNext (s : State) (p : PortId) : Nat :=
  match (s.port p).rateNow with
  | some c => c.target
  | none => (s.link (.port p)).rate

/-- A change of the RATE policy that waits for a commit gives way to a manager command on the port: withdrawn and reported (R33). -/
def rateWithdraw (s : State) (p : PortId) : State :=
  match p, (s.port p).rateChg with
  | .root n, some c =>
    if c.byPolicy && c.deferred then
      ((s.policyReport 0 0xA8 n).onPort p fun x => { x with rateChg := none }).onSched fun m => { m with
        rechecks := m.rechecks.filter fun y => y != .rate n }
    else s
  | _, _ => s

/-! ### What a hub owes (R102, R103) -/

/-- The external ports of a hub. -/
def hubPorts (s : State) (d : Nat) : List PortId := ((upto (s.dev d).nports).map fun i => PortId.hub d (i + 1))

/-- A hub echoes once none of the ports to which it passed a RESET or SUSPEND is still out. -/
def hubSettle (s : State) (d t : Nat) : State :=
  match (s.dev d).owesEcho with
  | some (typ, up) =>
    if (s.hubPorts d).any fun p => (s.port p).prop then s
    else
      let s1 := (s.onDev d fun v => { v with owesEcho := none, suspended := typ == 7 }).echo (.dev d up) typ t false
      if typ = 7 then s1.endDown (.dev d up) else s1
  | none => s

/-- A RESET (6) or SUSPEND (7) that a hub passed on is still out at the port. -/
def propOut (s : State) (p : PortId) (typ : Nat) : Bool :=
  match p with
  | .hub d _ => (s.port p).prop && (s.dev d).owesEcho.any fun x => x.1 == typ
  | .root _ => false

/-- A port moves to DISABLED, DISCONNECTED or ERROR: its end abandons the link's state, commands under way are abandoned
(R106), and from a state with a link every context of a root port moves to GONE (R150). A hub waits for the port no longer (R102, R103). -/
def leave (s : State) (p : PortId) (st : Nat) (bits : List Fld) : State :=
  let old := s.portState p
  let s1 := (((s.putState p st).endFresh (.port p)).showRate p).onPort p fun x => { x with
    resetPending := false, prop := false, connecting := false, susp := .none, wakeHeld := false, suspByProp := false,
    wakeTraining := false, rateChg := none, rateNow := none, cfgWant := none, emptyTo := none }
  let s2 := (s1.change p bits).rateCmd p stNoResponse 0
  match p with
  | .root n => if hasLink old then s2.subtreeGone n 0 0 else s2
  | .hub d _ => if (s.port p).prop then s2.hubSettle d s.tim.now else s2

/-- A port loses its device: DISCONNECTED, or, where a hub resets it by propagation, DISABLED (R102). -/
def disconnect (s : State) (p : PortId) (bits : List Fld) : State := if s.propOut p 6 then s.leave p 0 [] else s.leave p 1 bits

/-- RESET is sent (R101, R102); a root port's reset subtree is its whole tree, and the controller's side of the bus reset
follows (R148), unless the controller does not hold the token of the tree (R385). -/
def enterResetting (s : State) (p : PortId) (t : Nat) (connect : Bool) : State :=
  let s1 := (((s.putState p 3).onPort p fun x => { x with resetPending := false, connecting := connect, susp := .none }).stopCtl
    (.port p) 7).startCtl (.port p) 6 t
  match p with
  | .root n => if s.resetsTree n then s1.busReset n 0 0 else s1
  | .hub _ _ => s1

/-- An event that enters RETRAINING: the third within 1 s enters ERROR at once (Table 3.11). The port retrains at a rate: Rate 1 (R69), or after a
failed rate switch the old one. -/
def toRetrain (s : State) (p : PortId) (rate t : Nat) (bits : List Fld) : State :=
  let recent := (s.port p).retrains.filter fun x => decide (t ≤ x + second)
  let s1 := (s.countN .PRT_STS_RETRAINS p.code 1).onPort p fun x => { x with
    retrains := t :: recent, susp := .none, rateNow := none, rate5Before := (s.link (.port p)).rate == 1 }
  if 2 ≤ recent.length then
    (s1.leave p 9 (.PRT_CHG_RETRAIN :: .PRT_CHG_ERROR :: bits.filter fun f => f != .PRT_CHG_RETRAIN))
  else (((s1.putState p 5).trainAt (.port p) rate).showRate p).change p bits

/-- A participant of a power entry loses what it consented with (R425). -/
def portLate (s : State) (p : PortId) : State :=
  match p with
  | .root n => s.lateRefusal (0x40 + n)
  | .hub _ _ => s

/-- The port went down while ENABLED. -/
def linkFell (s : State) (p : PortId) (t : Nat) : State := (s.toRetrain p 0 t [.PRT_CHG_RETRAIN]).portLate p

/-! ### Rate 5 (R69, R94) -/

/-- The upstream end allows Rate 5 (R69); a root port that RATE moved to Rate 1 does so again after a manager command (R31). -/
def allows5 (s : State) (p : PortId) : Bool :=
  match p with
  | .root _ => field (s.port p).cfg 0 0 != 0 && !(s.port p).byRate
  | .hub _ _ => (s.port p).rate5Feature

/-- A transceiver that is not rated for Rate 5 stands in the way (R69, R112); a copper port has none. The spec gives a hub no register for the
transceivers of its links: what it knows of them is in the RATE5 capability that it reports (log entry 86). -/
def unrated (s : State) (p : PortId) : Bool := field (s.port p).cfg 4 4 != 0 && !s.flagN .PRT_STS_XCVR_RATED p.code

/-- Both ends of a port's link report RATE5 in their CAPS (R69, Table 3.9). -/
def bothRate5 (s : State) (p : PortId) : Bool := s.capsOf (.port p) % 2 == 1 && s.flagN .PRT_STS_PEER_RATE5 p.code

/-- A link that came up at Rate 1 moves on to Rate 5 before it is used; out of a suspend only where it ran at Rate 5 before (R104). -/
def moves5 (s : State) (p : PortId) : Bool :=
  let e := s.link (.port p)
  e.rate == 0 && !e.noRate5 && s.allows5 p && s.bothRate5 p && !s.unrated p && (s.portState p != 7 || (s.port p).rate5Before)

/-- RATE_REQ of a change: the one with NOW, or the one that waits for its switch frame. -/
def sendRateReq (s : State) (p : PortId) (now : Bool) : State :=
  match if now then (s.port p).rateNow else (s.port p).rateChg with
  | some c => (s.sendCtl (.port p) 4 0 (c.target + 2 * bit c.now) c.sFrame).onPort p fun x =>
      if now then { x with rateNow := some { c with reqSent := true } } else { x with rateChg := some { c with reqSent := true } }
  | none => s

/-- The link is up and has its rate (Table 3.11). -/
def portUp (s : State) (p : PortId) (t : Nat) : State :=
  let fresh := match (s.link (.port p)).peerCaps with
    | some a => nfield a 30 30 == 1
    | none => false
  match s.portState p with
  | 5 =>
    if fresh then s.disconnect p [.PRT_CHG_DISCONNECT]
    else if (s.port p).resetPending then s.enterResetting p t false
    else s.putState p 4
  | 7 => if (s.port p).resetPending then s.enterResetting p t false else s.startCtl (.port p) 8 t
  | _ => s

/-- A link came up at Rate 1: it moves to Rate 5 first where R69 has it so (R94). -/
def portLinked (s : State) (p : PortId) (t : Nat) : State :=
  if s.moves5 p && s.portState p != 6 then
    (s.onPort p fun x => { x with rateNow := some ⟨1, 0, true, false, false, false, false⟩ }).sendRateReq p true
  else s.portUp p t

/-- k of R108: the smallest number of frames whose nominal length totals at least 20 us. -/
def switchFrames (s : State) : Nat := (20000 * s.frate + 999999999) / 1000000000

/-- The switch frame of a rate change (Table 3.13, step 3): an ENABLED port whose peer acknowledged switches and trains at the new
rate, and sends no FRAME in the k frames; otherwise the change is dropped (Table 3.12). -/
def rateSwitch (s : State) (p : PortId) : State :=
  match (s.port p).rateChg with
  | some c =>
    if s.portState p = 4 ∧ c.acked then
      let old := (s.link (.port p)).rate
      ((((s.putState p 8).onPort p fun x => { x with
        oldRate := old, emptyTo := some ((c.sFrame + s.switchFrames) % 2 ^ 32) }).onLink (.port p) fun e =>
          { e.toRate c.target with up := false, seenSent := false, seenRecv := false, peerCaps := none })).sendCaps (.port p)
    else s.rateRefuse p 3
  | none => s

/-- The k frames of a rate change are over (Table 3.13, step 5). -/
def emptyOver (s : State) (p : PortId) (frame : Nat) : State :=
  if (s.port p).emptyTo.any fun f => !later32 f frame then s.onPort p fun x => { x with emptyTo := none } else s

/-- A port in SUSPENDED starts to resume (R104): for the host or for a wake. -/
def startResume (s : State) (p : PortId) (forWake : Bool) : State :=
  (s.putState p 7).onPort p fun x => { x with forWake := forWake, wakeTraining := false, wakeHeld := false }

/-- A host resume: the port leaves electrical idle and trains. -/
def hostResume (s : State) (p : PortId) : State := (s.startResume p false).train (.port p)

/-! ### Accepted wakes (R105, R106) -/

/-- A wake accepted at a port: WAKE_SEEN, CHG.WAKE and, at a root port, the tree wake; with the other change bits of the
transition. -/
def acceptWake (s : State) (p : PortId) (bits : List Fld) : State :=
  let s1 := (s.raiseN .PRT_STS_WAKE_SEEN p.code).change p (.PRT_CHG_WAKE :: bits)
  match p with
  | .root n => s1.treeWake n
  | .hub _ _ => s1

/-- A SUSPENDED port resumes for a wake: once the link is up it sends RESUME. -/
def wakeResume (s : State) (p : PortId) (t : Nat) : State :=
  let s1 := (s.startResume p true).acceptWake p []
  if (s1.link (.port p)).up then s1.portLinked p t else s1.train (.port p)

/-! ### Commands of a port (R107, R116) -/

/-- RESET (Tables 3.11 and 3.12): refused in a state in which it is not valid. A rate change under way is dropped. -/
def portReset (s0 : State) (p : PortId) (t : Nat) : State :=
  let st := s0.portState p
  let s := if decide (4 ≤ st ∧ st ≤ 8) then s0.rateWithdraw p else s0
  if st = 4 then s.enterResetting p t false
  else if st = 5 ∨ st = 6 ∨ st = 7 then
    let s1 := (if (s.port p).rateChg.isSome then s.rateRefuse p 3 else s).onPort p fun x => { x with resetPending := true }
    if st = 6 then s1.hostResume p
    else if st = 7 ∧ (s1.link (.port p)).up ∧ (s1.port p).rateNow.isNone then (s1.stopCtl (.port p) 8).enterResetting p t false
    else s1
  else if st = 8 then
    let s1 := s.rateDrop p 3
    (s1.onPort p fun x => { x with resetPending := true }).toRetrain p (s.port p).oldRate t [.PRT_CHG_RATE_REFUSED]
  else s.refuseCmd p

/-- The hand of a tree that runs has finished: nothing of it is unstarted, and no transaction is in flight. -/
def handDone (s : State) (n : Nat) : Bool :=
  (s.txns.all fun x => x.port != n) && (match Tbl.find s.deal.run n with
    | some h => h.items.all HandItem.started
    | none => true)

/-- An accepted SUSPEND of a root port is sent (R103). -/
def suspendSend (s : State) (n t : Nat) : State :=
  if (s.port (.root n)).susp = .accepted ∧ s.portState (.root n) = 4 then
    (s.startCtl (.port (.root n)) 7 t).onPort (.root n) fun x => { x with susp := .sent }
  else s

/-- It is, once the hand has finished (R103, step 2). -/
def suspendTry (s : State) (n t : Nat) : State := if s.handDone n then s.suspendSend n t else s

/-- SUSPEND: refused while the port's tree has a committed periodic entry (R103). A hub port sends it at once; a root port when
the current hand has finished. -/
def portSuspend (s : State) (p : PortId) (t : Nat) : State :=
  let periodic := match p with
    | .root n => !(Tbl.get [] s.sched.active n).isEmpty
    | .hub _ _ => false
  if s.portState p != 4 || periodic then s.refuseCmd p
  else if (s.port p).susp != .none then s
  else
    let s1 := (s.rateWithdraw p).onPort p fun x => { x with susp := .accepted, wakeHeld := false }
    match p with
    | .root n => s1.suspendTry n t
    | .hub _ _ => (s1.startCtl (.port p) 7 t).onPort p fun x => { x with susp := .sent }

/-- RESUME (Table 3.12). -/
def portResume (s : State) (p : PortId) : State :=
  let st := s.portState p
  if st = 6 then (s.rateWithdraw p).hostResume p
  else if st = 7 then (if (s.port p).forWake then s.raiseN .PRT_STS_COLLIDED p.code else s)
  else s.refuseCmd p

/-- RETRAIN: the link is taken down. -/
def portRetrain (s : State) (p : PortId) (t : Nat) : State :=
  if s.portState p = 4 then (s.rateWithdraw p).linkFell p t else s.refuseCmd p

/-- CLEAR_ERROR. -/
def portClearError (s : State) (p : PortId) : State := if s.portState p = 9 then s.putState p 1 else s.refuseCmd p

/-- ENABLE written (Table 3.11): a change to 1 restarts RETRAINS; a 0 ends the latched TX_FAULT (R114). -/
def portEnable (s : State) (p : PortId) (on : Bool) : State :=
  let was := s.portState p != 0
  if on then (if was then s else (s.fsetN .PRT_STS_RETRAINS p.code 0).putState p 1)
  else
    let st := s.portState p
    let bits : List Fld := if st = 4 ∨ st = 5 ∨ st = 6 ∨ st = 7 ∨ st = 8 then [.PRT_CHG_DISCONNECT] else []
    ((if was then (s.rateWithdraw p).leave p 0 bits else s).fsetN .PRT_STS_TX_FAULT p.code 0)

/-- A write of PRT_CTLn (R107): ENABLE and RWAKE_EN take the values written, and one command bit acts, in the order CLEAR_ERROR,
RESET, RESUME, SUSPEND, RETRAIN. Writes for an absent port are dropped (R3). -/
def portCtl (s : State) (n data t : Nat) : State :=
  if n < s.nPorts then
    let p := PortId.root n
    let s1 := (((s.at_ t).fsetN .PRT_CTL_RWAKE_EN n (nfield data 1 1)).fsetN .PRT_CTL_ENABLE n (nfield data 0 0)).portEnable p
      (nfield data 0 0 == 1)
    if nfield data 7 7 = 1 then s1.portClearError p
    else if nfield data 3 3 = 1 then s1.portReset p t
    else if nfield data 5 5 = 1 then s1.portResume p
    else if nfield data 4 4 = 1 then s1.portSuspend p t
    else if nfield data 6 6 = 1 then s1.portRetrain p t
    else s1
  else s

/-! ### Rates of hub ports (R110, R116) -/

/-- A rate change of an ENABLED hub port in frame S (R110): dropped where the transceiver or an end does not allow it (R109). One that is under way and
not acknowledged gives way; behind an acknowledged one it waits, with its S. -/
def hubRate (s : State) (p : PortId) (target frame : Nat) : State :=
  if (s.port p).rateChg.any fun c => c.acked then s.onPort p fun x => { x with cfgWant := some (target, frame) }
  else
    let s0 := s.onPort p fun x => { x with cfgWant := none }
    let s1 := if (s.port p).rateChg.isSome then s0.rateRefuse p 3 else s0
    if s1.portState p ≠ 4 ∨ (s1.link (.port p)).rate = target then s1
    else if target = 1 ∧ s1.unrated p then s1.rateRefuse p 1
    else if target = 1 ∧ ¬ s1.bothRate5 p then s1.rateRefuse p 3
    else s1.onPort p fun x => { x with rateChg := some ⟨target, frame, false, false, false, false, false⟩ }

/-- RATE5 set or cleared on a hub port. On a port that has a link and is not ENABLED, TRAINING with the link up included, the request is refused; one that
has no link yet keeps the feature for its next training (R69, R116; log entry 91). -/
def rate5Set (s : State) (p : PortId) (on : Bool) (frame : Nat) : State :=
  if s.linked p && s.portState p != 4 then s.refuseCmd p
  else (s.onPort p fun x => { x with rate5Feature := on }).hubRate p (bit on) frame

/-- A link ends up suspended: both ends in electrical idle, link state kept; COLLIDED and WAKE_SEEN cleared (R106). -/
def enterSuspended (s : State) (p : PortId) (t : Nat) : State :=
  let held := (s.port p).wakeHeld
  let s1 := (((s.putState p 6).endDown (.port p)).fsetN .PRT_STS_COLLIDED p.code 0).fsetN .PRT_STS_WAKE_SEEN p.code 0
  let s2 := (s1.onPort p fun x => { x with
    susp := .none, wakeHeld := false, suspByProp := x.prop, prop := false, rate5Before := (s.link (.port p)).rate == 1 }).change p
      [.PRT_CHG_SUSPEND_DONE]
  if held then s2.wakeResume p t else s2

end State

/-! ### Rows: commands of PRT_CTLn -/

/-- PRT_CTLn.ENABLE written, with RWAKE_EN in the same write. -/
def execPortEnable (n : Nat) (en rwake : Bool) (t : Nat) (s : State) : Host.Outcome State Fault Refusal :=
  s.whenReady (.next (s.portCtl n (bit en + 2 * bit rwake) t))

/-- The value to which ENABLE and RWAKE_EN stay when a command is written beside them. -/
def State.ctlKept (s : State) (n : Nat) : Nat := s.fgetN .PRT_CTL_ENABLE n + 2 * s.fgetN .PRT_CTL_RWAKE_EN n

/-- PRT_CTLn.CLEAR_ERROR. -/
def execPortClearError (n t : Nat) (s : State) : Host.Outcome State Fault Refusal :=
  s.whenReady (.next (s.portCtl n (128 + s.ctlKept n) t))

/-- PRT_CTLn.RESET. -/
def execPortReset (n t : Nat) (s : State) : Host.Outcome State Fault Refusal :=
  s.whenReady (.next (s.portCtl n (8 + s.ctlKept n) t))

/-- PRT_CTLn.RESUME. -/
def execPortResume (n t : Nat) (s : State) : Host.Outcome State Fault Refusal :=
  s.whenReady (.next (s.portCtl n (32 + s.ctlKept n) t))

/-- PRT_CTLn.SUSPEND. -/
def execPortSuspend (n t : Nat) (s : State) : Host.Outcome State Fault Refusal :=
  s.whenReady (.next (s.portCtl n (16 + s.ctlKept n) t))

/-- PRT_CTLn.RETRAIN. -/
def execPortRetrain (n t : Nat) (s : State) : Host.Outcome State Fault Refusal :=
  s.whenReady (.next (s.portCtl n (64 + s.ctlKept n) t))

/-- A full-width read of PRT_CHGn (R468). -/
def execPrtChgRead (n : Nat) (both : Bool) (s : State) : Host.Outcome State Fault Refusal :=
  s.readReady (if n < s.nPorts then .next (s.eventRead .PRT_CHG .PRT_CHG_SHADOW n both n) else .next (s.answer 0))

/-! ### Rows: connects and losses -/

/-- Signal on a port (Table 3.11): a DISCONNECTED port trains, with a cage once a transceiver is present and identified and
without TX_FAULT; a SUSPENDED port answers a remote wake's training only where wake is enabled (R105). -/
def State.signalSeen (s0 : State) (p : PortId) : State :=
  let x := s0.port p
  let cageOk := field x.cfg 4 4 == 0 ||
    (s0.flagN .PRT_STS_XCVR_PRESENT p.code && x.identDone && !s0.flagN .PRT_STS_TX_FAULT p.code)
  let wakeOk : Bool := match p with
    | .root n => s0.flagN .PRT_CTL_RWAKE_EN n
    | .hub _ _ => x.remoteWake
  if s0.portState p = 1 ∧ cageOk then (s0.putState p 2).train (.port p)
  else if s0.portState p = 6 ∧ wakeOk ∧ ¬ x.wakeTraining then (s0.onPort p fun x => { x with wakeTraining := true }).train (.port p)
  else s0

/-- SIGNAL_DETECT: on a port with a cage LOS = 0 is the detection, and while LOS is 1 there is none (R114). -/
def execSignalDetect (p : PortId) (t : Nat) (s : State) : Host.Outcome State Fault Refusal :=
  let s0 := s.at_ t
  if field (s0.port p).cfg 4 4 != 0 && s0.flagN .PRT_STS_LOS p.code then .next s0 else .next (s0.signalSeen p)

/-- The link has been up with valid CAPS for 10 ms: RESET is sent (R101). -/
def execConnectDebounceDone (p : PortId) (t : Nat) (s : State) : Host.Outcome State Fault Refusal :=
  let s0 := s.at_ t
  if s0.portState p = 2 ∧ (s0.link (.port p)).up ∧ (s0.port p).rateNow.isNone then .next (s0.enterResetting p t true) else .next s0

/-- No link within 1 ms of training. -/
def execTrainingTimeout (p : PortId) (s : State) : Host.Outcome State Fault Refusal :=
  if s.portState p = 2 ∧ ¬ (s.link (.port p)).up then .next (s.disconnect p []) else .next s

/-- No RESET echo within 10 ms: DISCONNECTED; a port that a hub resets by propagation is DISABLED, whatever its state (R102). -/
def execResetEchoTimeout (p : PortId) (t : Nat) (s : State) : Host.Outcome State Fault Refusal :=
  let s0 := s.at_ t
  if s0.portState p = 3 ∨ s0.propOut p 6 then .next (s0.disconnect p [.PRT_CHG_DISCONNECT]) else .next s0

/-- No link within 2 ms of RETRAINING. -/
def execRetrainTimeout (p : PortId) (s : State) : Host.Outcome State Fault Refusal :=
  if s.portState p = 5 ∧ ¬ (s.link (.port p)).up then .next (s.disconnect p [.PRT_CHG_DISCONNECT]) else .next s

/-- No link within 10 ms of RESUMING. -/
def execResumeTimeout (p : PortId) (s : State) : Host.Outcome State Fault Refusal :=
  if s.portState p = 7 ∧ ¬ (s.link (.port p)).up then .next (s.disconnect p [.PRT_CHG_DISCONNECT]) else .next s

/-- A port no longer counts among those to which its hub passed something on. -/
def State.propOver (s : State) (p : PortId) (t : Nat) : State :=
  let s1 := s.onPort p fun x => { x with prop := false }
  match p with
  | .hub d _ => s1.hubSettle d t
  | .root _ => s1

/-- A SUSPEND was sent and is not echoed within 10 ms (R103): RETRAINING. A hub that passed it on echoes without the port (Table 3.8), also where the
port's link has fallen since. -/
def execSuspendEchoTimeout (p : PortId) (t : Nat) (s : State) : Host.Outcome State Fault Refusal :=
  let s0 := s.at_ t
  if s0.portState p = 4 ∧ (s0.port p).susp = .sent then
    let prop := (s0.port p).prop
    let s1 := ((s0.stopCtl (.port p) 7).onPort p fun x => { x with prop := false }).linkFell p t
    .next (if prop then s1.propOver p t else s1)
  else if s0.propOut p 7 then .next (s0.propOver p t)
  else .next s0

/-- What an end does when its link goes down (R72, R75, R88, Table 3.11). -/
def State.endLost (s : State) (l : LinkEndId) (t : Nat) : State :=
  match l with
  | .port p =>
    match s.portState p with
    | 4 => s.linkFell p t
    | 2 => s.disconnect p []
    | 8 => s
    | _ => s.endDown l
  | .dev _ _ => s.endDown l

/-- The link of a port goes down. -/
def execLinkLost (p : PortId) (t : Nat) (s : State) : Host.Outcome State Fault Refusal := .next ((s.at_ t).endLost (.port p) t)

/-! ### Rows: receivers (R72, R75) -/

/-- A Rate 1 receiver gains sync where the code groups it took end in three IDLE sets. -/
def execSyncGain (l : LinkEndId) (groups : List Nat) (s : State) : Host.Outcome State Fault Refusal :=
  match syncGained groups with
  | some rd => .next (if (s.link l).rate = 0 ∧ s.absentEnd l = false then s.onLink l fun e => { e with sync := true, rxRd := rd, rx := [] } else s)
  | none => .next s

/-- A Rate 1 receiver loses sync where four code groups of sixteen in a row are invalid: the link counts as down. -/
def execSyncLoss (l : LinkEndId) (groups : List Nat) (t : Nat) (s : State) : Host.Outcome State Fault Refusal :=
  let s0 := s.at_ t
  if (s0.link l).rate = 0 ∧ (s0.link l).sync ∧ syncMissed (s0.link l).rxRd groups then
    .next ((s0.onLink l fun e => { e with sync := false }).endLost l t)
  else .next s0

/-- A Rate 5 receiver gains codeword lock where the blocks it took end in four codewords with right sync headers. -/
def execCodewordLock (l : LinkEndId) (blocks : List (Nat × Nat)) (s : State) : Host.Outcome State Fault Refusal :=
  match lockGained blocks with
  | some h => .next (if (s.link l).rate = 0 ∨ s.absentEnd l = true then s else s.onLink l fun e => { e with cwLock := true, rxHist := h, rx := [] })
  | none => .next s

/-- A Rate 5 receiver loses codeword lock on wrong sync headers or uncorrectable codewords: the link counts as down. -/
def execCodewordLockLoss (l : LinkEndId) (blocks : List (Nat × Nat)) (t : Nat) (s : State) : Host.Outcome State Fault Refusal :=
  let s0 := s.at_ t
  if (s0.link l).rate ≠ 0 ∧ (s0.link l).cwLock ∧ lockMissed (s0.link l).rxHist blocks then
    .next ((s0.onLink l fun e => { e with cwLock := false }).endLost l t)
  else .next s0

/-! ### Rows: the end of a rate switch (Table 3.13, R94) -/

/-- The RATE policy moved a root port to Rate 1 (R31, Table 13.9). -/
def State.rateMoved (s : State) (p : PortId) (c : RateChange) : State :=
  match p with
  | .root n =>
    if c.byPolicy then
      (((s.policyAction 0 0x80 n).onPol fun m => { m with rateLast := Tbl.put m.rateLast n s.frameNo }).onHlt fun h =>
        { h with r1 := nset h.r1 n n 1 }).onPort p fun x => { x with byRate := true }
    else if c.target = 1 then (s.onHlt fun h => { h with r1 := nset h.r1 n n 0 }).onPort p fun x => { x with byRate := false }
    else s
  | .hub _ _ => s

/-- Lock at the new rate, which a receiver that has none yet does not bring: a port in RATE_SWITCH is ENABLED again with RATE_CHG; a port that
moved to Rate 5 while it came up goes on. The downstream end keeps the new rate. -/
def execRateLock (l : LinkEndId) (t : Nat) (tTx : Int) (s : State) : Host.Outcome State Fault Refusal :=
  let s0 := s.at_ t
  if !(s0.link l).rxOk then .next s0
  else match l with
  | .port p =>
    if s0.portState p = 8 then
      match (s0.port p).rateChg with
      | some c =>
        let s1 := (((s0.putState p 4).onPort p fun x => { x with rateChg := none }).onLink l fun e => { e with up := true }).showRate p
        let s2 := s1.change p [.PRT_CHG_RATE_CHG]
        .next (((s2.resendAll l tTx).rateCmd p stOk c.sFrame).rateMoved p c)
      | none => .next s0
    else if (s0.port p).rateNow.any RateChange.acked then
      .next (((s0.onPort p fun x => { x with rateNow := none }).showRate p).portUp p t)
    else .next s0
  | .dev _ _ => .next (s0.onLink l fun e => { e with ratePend := none, up := e.up || e.ratePend.isSome })

/-- No lock within 20 us: both ends go back to the old rate; a port in RATE_SWITCH retrains. -/
def execRateLockTimeout (l : LinkEndId) (t : Nat) (s : State) : Host.Outcome State Fault Refusal :=
  let s0 := s.at_ t
  match l with
  | .port p =>
    if s0.portState p = 8 then .next ((s0.rateDrop p 3).toRetrain p (s0.port p).oldRate t [.PRT_CHG_RATE_REFUSED])
    else if (s0.port p).rateNow.any RateChange.acked then
      let s1 := ((s0.onLink l fun e => { e.toRate 0 with noRate5 := true }).onPort p fun x => { x with rateNow := none }).fsetN
        .PRT_STS_REFUSE_WHY p.code 3
      .next (((s1.change p [.PRT_CHG_RATE_REFUSED]).showRate p).portUp p t)
    else .next s0
  | .dev _ _ => .next (s0.onLink l fun e => match e.ratePend with
      | some (r, _, _) => { e.toRate (1 - r) with ratePend := none }
      | none => e)

end Sys2Proof.Machine
end

