-- ==== Sys2Proof/Machine/Hand.lean ====
section
/-! DEFINITION. Machine/Hand.lean: the dealer's hands (chapters 06 and 07): periodic items in their order, the deficit round-robin
over CONTROL and BULK, late fill, and work that misses its hand. -/

namespace Sys2Proof.Machine

/-! ### Periodic entries (Table 6.1, R199–R204) -/

def schedEph (w : DWord) : Nat := field w 24 0
def schedSlow (w : DWord) : Bool := field w 29 29 == 1
def schedExp (w : DWord) : Nat := field w 59 56
def schedBurst (w : DWord) : Nat := field w 55 52
def schedPhase (w : DWord) : Nat := field w 41 32

/-- The entry runs in a frame (R200). -/
def schedDue (w : DWord) (frame : Nat) : Bool := frame % 2 ^ schedExp w == schedPhase w

/-- The stored pair matches (R201). -/
def SchedEnt.ok (e : SchedEnt) : Bool := e.wordN == ~~~ e.word

/-- An item of a class inserted by turnaround, then handle, smaller first, after its equals (R217). -/
def sortIn (x : HandItem) : List HandItem → List HandItem
  | [] => [x]
  | y :: r =>
    if x.cls < y.cls ∨ (x.cls = y.cls ∧ (x.a < y.a ∨ (x.a = y.a ∧ x.eph < y.eph))) then x :: y :: r else y :: sortIn x r

/-- Items in composition order. -/
def sortItems (l : List HandItem) : List HandItem := l.foldl (fun acc x => sortIn x acc) []

/-- L_rx before the closing packet, in ns (R204). -/
def rxNs : Nat := 400

/-- The wire time of a sequence of slots, in tenths of a ns (R205), before the last turnaround, with the last A. -/
def slotsEnd (f0 : Nat) (l : List HandItem) : Nat × Option Nat :=
  l.foldl (fun w x => (w.1 + (match w.2 with
    | some a => (a - x.a) * 10
    | none => 0) + x.s, some x.a)) (f0, none)

/-- W in whole ns (R205). -/
def occupancy (f0 : Nat) (l : List HandItem) : Nat :=
  match slotsEnd f0 l with
  | (w, some a) => (w + (a + rxNs) * 10 + 9) / 10
  | (w, none) => (w + 9) / 10

namespace State

/-- The switch frame of a tree of the batch in commit (R215): C, or C plus the tree's place in a staged batch. -/
def switchFrame (b : Batch) (n : Nat) : Nat :=
  (b.commitAt + (if b.atomic then 0 else (b.staged.takeWhile fun x => x.1 != n).length)) % 2 ^ 32

/-- The entries of a tree that run in a frame: those of the staged copy from its switch frame on (R216). -/
def tableFor (s : State) (n frame : Nat) : List SchedEnt :=
  match s.sched.batch with
  | some b => if b.toSwitch.contains n && !later32 (switchFrame b n) frame then Tbl.get [] b.staged n else Tbl.get [] s.sched.active n
  | none => Tbl.get [] s.sched.active n

/-- Tenths of a ns per byte on a root port (R204). -/
def byteTime (s : State) (n : Nat) : Nat := if (s.link (.port (.root n))).rate = 1 then 16 else 80

/-- F0 in tenths of a ns. -/
def frameTime (s : State) (n : Nat) : Nat := 56 * s.byteTime n

/-- The class-independent slot of a periodic transaction (Table 6.2), in tenths of a ns, at a byte time of the root port. -/
def slotAt (byte : Nat) (slow : Bool) (cls mps : Nat) : Nat :=
  (if cls = 1 then 368 else mps + 80) * (if slow then 80 else byte)

/-- A of an endpoint (R204). -/
def turnaround (c : Ctx) : Nat := c.rtt + 1100

/-- Length of the frame that starts at a tick, ns. -/
def frameSpan (s : State) (tick : Nat) : Nat := tickAfter s.frate tick - tick

/-- The test of R219: a transaction that starts `o` tenths of a ns after the tick ends before the guard band of a frame of `span` ns. -/
def fits (o slot a span : Nat) : Bool := decide (o + slot + (a + rxNs) * 10 + 20000 ≤ span * 10)

/-! ### Which work may be composed -/

/-- Hands of the tree stay empty in a frame of a rate change (Table 3.13). -/
def rateEmpty (s : State) (n frame : Nat) : Bool :=
  (match (s.port (.root n)).rateChg with
   | some c => !c.deferred && !later32 c.sFrame frame && later32 ((c.sFrame + s.switchFrames) % 2 ^ 32) frame
   | none => false) ||
  (match (s.port (.root n)).emptyTo with
   | some f => later32 f frame
   | none => false)

/-- The dealer composes for the tree (R103, R220, R385), in a rate switch too: the hands of its frames stay empty, and what falls due in them is dealt
with as for any hand (Table 3.13). -/
def composes (s : State) (n frame : Nat) : Bool :=
  (s.portState (.root n) == 4 || s.portState (.root n) == 8) && (s.port (.root n)).susp == .none && !s.treeSilent n frame && s.pwrState != 2 &&
  !(s.flag .PWR_STS_ENTERING && decide (2 ≤ s.fget .PWR_STS_APOINT)) && !s.pwr.rows.contains 9

/-- The context of a handle in the cache passes its checks; one that fails them is not used and is reported (R152). Where the window that it is held against is
itself unequal to its complement, the use is refused and the window reported (R332). -/
def useCtx (s : State) (eph : Nat) : State :=
  match s.ctx? eph with
  | some k =>
    if k.bad then s
    else if s.winBroken k.ctx.owner then s.boundsBroken (some k.ctx.owner) stIntegrity
    else if s.ctxOk eph k.ctx then s else s.ctxFail eph
  | none => s

/-- The same before a transfer of the endpoint is composed or goes on: one that fails completes the oldest ready transfer INTEGRITY (R152). -/
def useFor (s : State) (eph : Nat) : State :=
  let s1 := s.useCtx eph
  let fails (k : Option CtxSlot) : Bool := k.any CtxSlot.bad
  if (fails (s1.ctx? eph) && !fails (s.ctx? eph)) || (s.ctx? eph).any (fun k => !k.bad && s.winBroken k.ctx.owner) then
    match s1.entries.find? (fun x => x.eph == eph && x.st == .ready && x.done.isNone) with
    | some x => s1.finish x.id stIntegrity
    | none => s1
  else s1

/-- A context from which transactions run: RUNNING, sound, not a shadow. -/
def runs (s : State) (eph : Nat) : Bool :=
  match s.ctx? eph with
  | some k => !k.bad && k.ctx.state == 2 && !k.ctx.shadow && !s.winBroken k.ctx.owner
  | none => false

/-- The slice's COMMAND, CONTROL and BULK work is composed: it is ACTIVE (R343, R346, R350). -/
def sliceRuns (s : State) (n : Nat) : Bool :=
  s.sliceState n == 1 && (match (s.slice n).parkAt with
    | some f => later32 f s.frameNo
    | none => true)

/-- The slice is parked in a frame (R350). -/
def parked (s : State) (n frame : Nat) : Bool :=
  match (s.slice n).parkAt with
  | some f => !later32 f frame
  | none => false

/-- The entry's first TD allows a frame (condition 1 of Table 7.1, R179). -/
def frameOk (e : Entry) (frame : Nat) : Bool :=
  match e.tds.head?.map Prod.snd with
  | some t =>
    if t.kind = 3 then t.nbFrame == frame || t.nbFrame == (frame + 1) % 2 ^ 32
    else !t.nb || !later32 t.nbFrame frame
  | none => true

/-- A COMMAND_AT that a frame comes too late for: it has missed its hands (R179). -/
def frameDead (e : Entry) (frame : Nat) : Bool :=
  match e.tds.head?.map Prod.snd with
  | some t => t.kind == 3 && !frameOk e frame
  | none => false

/-- The endpoint waits for a CLEAR_HALT that the take-over asks for (R394); the transfer that carries it goes ahead. -/
def awaitsClear (s : State) (e : Entry) : Bool := s.twin.toClear.contains e.eph && e.forCmd.isNone

end State

/-! ### The next transaction of a CONTROL or BULK entry (R137, R242) -/

/-- Bytes still to move in the data stage of a control transfer, or of a BULK transfer. -/
def Entry.left (e : Entry) (cls : Nat) : Nat := (if cls = 0 then setupLen e.setup else e.len) - e.moved

/-- The data stage, or the status stage, of a control transfer runs IN. -/
def Entry.stageIn (e : Entry) : Bool := if e.stage = 1 then setupIn e.setup else statusIn e.setup

/-- An OUT data stage is over and its status stage runs IN: a NOTYET to the last packet still asks for a PING (R237). -/
def Entry.afterOut (e : Entry) : Bool := e.stage == 2 && statusIn e.setup && decide (0 < setupLen e.setup)

/-- The kind of the next transaction behind `ahead` bytes that are composed already, and the data bytes that it is planned to carry. -/
def Entry.next (e : Entry) (c : Ctx) (ahead : Nat) : TxnKind × Nat :=
  let plan := min c.mps (e.left c.cls - ahead)
  if c.cls = 0 then
    (if e.stage = 0 then (.setup, 8)
     else if e.stageIn && !(c.pingNeeded && e.afterOut) then (.callIn, if e.stage = 1 then plan else 0)
     else if c.pingNeeded then (.ping, 0)
     else (.callOut, if e.stage = 1 then plan else 0))
  else if Eph.dir e.eph = 1 then (.callIn, plan)
  else if c.pingNeeded then (.ping, 0)
  else (.callOut, plan)

/-- The bytes of a transaction's packets in both directions (R242). -/
def txnCost (kind : TxnKind) (plan : Nat) : Nat :=
  match kind with
  | .ping => 48
  | .setup => 48 + plan
  | _ => 72 + plan

/-- Data bytes that the unstarted transactions of an entry are planned to carry. -/
def Hand.ahead (h : Hand) (id : Nat) : Nat :=
  ((h.items.filter fun i => !i.started && i.entry == some id).map HandItem.plan).foldl (· + ·) 0

namespace State

/-- Data bytes of an entry that its transaction in flight and the hands other than that of `frame` carry already. -/
def aheadOf (s : State) (e : Entry) (frame : Option Nat) : Nat :=
  let hands := [Tbl.find s.deal.run (Eph.port e.eph), Tbl.find s.deal.next (Eph.port e.eph)].filterMap id
  let planned := ((hands.filter fun h => frame != some h.frame).map fun h => h.ahead e.id).foldl (· + ·) 0
  planned + ((s.txns.filter fun t => t.entry == some e.id).map fun t => match t.kind, s.ctx? e.eph with
    | .callIn, some k => min k.ctx.mps (e.left k.ctx.cls)
    | _, _ => t.data.length).foldl (· + ·) 0

/-- An entry may be composed for a frame; its pocket has room for IN data, or holds what it sends (R159). -/
def canCompose (s : State) (e : Entry) (frame ahead : Nat) : Bool :=
  e.st == .ready && e.done.isNone && s.runs e.eph && s.sliceRuns (s.listSlice e) && frameOk e frame && !s.awaitsClear e &&
  (match s.ctx? e.eph with
   | some k =>
     let x := e.next k.ctx ahead
     (ahead == 0 || decide (0 < x.2)) &&
     (match x.1 with
      | .callIn => x.2 == 0 || k.room (ahead + k.ctx.mps)
      | .callOut => x.2 == 0 || decide (e.moved + ahead + x.2 ≤ e.loaded)
      | _ => true)
   | none => false)

end State

/-! ### The deficit round-robin (R241–R244) -/

/-- A slice with BULK work: its group and weight, and the next transaction of its head entry. -/
structure Cand where
  slice : Nat
  group : Nat
  weight : Nat
  cost : Nat
  entry : Nat
  deriving DecidableEq, Repr

/-- The next of some numbers after one, ascending, wrapping. -/
def nextNum (l : List Nat) (x : Nat) : Nat :=
  match (l.filter fun y => decide (x < y)).min? with
  | some y => y
  | none => (l.min?).getD x

/-- peek_slice of R243. A slice that `scur` names but that is another group's now is passed over, its deficit kept (R248). -/
def peekSlice (l : List Cand) (mine : Nat → Bool) (g : Nat) (d : Drr) : Nat → Option (Cand × Drr)
  | 0 => none
  | n + 1 =>
    let sl := Tbl.get 0 d.scur g
    let fresh := Tbl.get true d.snew g
    let w := match l.find? (fun c => c.slice == sl) with
      | some c => c.weight
      | none => 0
    let d1 := if fresh then { d with sd := Tbl.upd 0 d.sd sl (· + (w * 256 : Nat)), snew := Tbl.put d.snew g false } else d
    match l.find? (fun c => c.slice == sl) with
    | some c =>
      if (c.cost : Int) ≤ Tbl.get 0 d1.sd sl then some (c, d1)
      else peekSlice l mine g { d1 with scur := Tbl.put d1.scur g (nextNum (l.map Cand.slice) sl), snew := Tbl.put d1.snew g true } n
    | none =>
      peekSlice l mine g { d1 with
        sd := if mine sl then Tbl.put d1.sd sl 0 else d1.sd, scur := Tbl.put d1.scur g (nextNum (l.map Cand.slice) sl), snew := Tbl.put d1.snew g true } n

/-- pick of R243, without the charge: it falls when the transaction is composed (R242). -/
def pick (l : List Cand) (gw : Nat → Nat) (groupOf : Nat → Nat) (fuel : Nat) (d : Drr) : Nat → Option (Cand × Drr)
  | 0 => none
  | n + 1 =>
    if l.isEmpty then none
    else
      let g := d.gcur
      let d1 := if d.gnew then { d with gd := Tbl.upd 0 d.gd g (· + (gw g * 256 : Nat)), gnew := false } else d
      let lg := l.filter fun c => c.group == g
      let move (d : Drr) : Drr := { d with gcur := nextNum (l.map Cand.group) g, gnew := true }
      if lg.isEmpty then pick l gw groupOf fuel (move { d1 with gd := Tbl.put d1.gd g 0 }) n
      else match peekSlice lg (fun sl => groupOf sl == g) g d1 fuel with
        | some (c, d2) => if (c.cost : Int) ≤ Tbl.get 0 d2.gd g then some (c, d2) else pick l gw groupOf fuel (move d2) n
        | none => none

/-- A transaction charged to its slice and group, or credited back (R243, R247). -/
def Drr.charge (d : Drr) (slice group : Nat) (cost : Int) : Drr :=
  { d with gd := Tbl.upd 0 d.gd group (· - cost), sd := Tbl.upd 0 d.sd slice (· - cost) }

/-- Enough turns for any pick: each gives at least 256 of credit. -/
def Drr.turns (d : Drr) : Nat :=
  1000000 + (d.gd.map fun x => x.2.natAbs).foldl (· + ·) 0 + (d.sd.map fun x => x.2.natAbs).foldl (· + ·) 0

namespace State

/-- Weight and group of a slice on a tree in force (R241). -/
def weightOf (s : State) (n sl : Nat) : Nat := max 1 (Tbl.get 1 s.deal.share (256 * n + sl) % 256)
def groupOf (s : State) (n sl : Nat) : Nat := Tbl.get 1 s.deal.share (256 * n + sl) / 256 % 32
/-- Group weight in force; 0 acts as 1. -/
def groupWeight (s : State) (n g : Nat) : Nat := max 1 (Tbl.get 1 s.deal.gw (32 * n + g))

def drr (s : State) (n : Nat) : Drr := Tbl.get Drr.init s.deal.drr n
def onDrr (s : State) (n : Nat) (f : Drr → Drr) : State := s.onDeal fun d => { d with drr := Tbl.upd Drr.init d.drr n f }

/-- Data bytes of an entry that are composed already, with those of the hand being made. -/
def aheadIn (s : State) (h : Hand) (e : Entry) : Nat := s.aheadOf e (some h.frame) + h.ahead e.id

/-- The entries of a list of a tree that may be composed into a hand, in list order. -/
def listed (s : State) (list n : Nat) (h : Hand) : List Entry :=
  (s.deal.lists.filter fun l => l.list == list && l.tree == n).filterMap fun l =>
    match s.entry? l.entry with
    | some e => if s.canCompose e h.frame (s.aheadIn h e) then some e else none
    | none => none

/-- The slices with BULK work on a tree: the first entry of each list that may be composed. -/
def candidates (s : State) (n : Nat) (h : Hand) : List Cand :=
  let l := s.listed 2 n h
  ((upto s.nSlices).filterMap fun sl => (l.find? fun e => s.listSlice e == sl).map fun e => (sl, e)).filterMap fun x =>
    (s.ctx? x.2.eph).map fun k =>
      let y := x.2.next k.ctx (s.aheadIn h x.2)
      ⟨x.1, s.groupOf n x.1, s.weightOf n x.1, txnCost y.1 y.2, x.2.id⟩

/-- The item of an entry's next transaction. -/
def itemOf (s : State) (n : Nat) (h : Hand) (e : Entry) (late : Bool) : Option HandItem :=
  (s.ctx? e.eph).map fun k =>
    let x := e.next k.ctx (s.aheadIn h e)
    { cls := if k.ctx.cls = 0 then 5 else 6, eph := e.eph, kind := x.1, entry := some e.id, s := txnCost x.1 x.2 * s.byteTime n,
      a := turnaround k.ctx, cost := txnCost x.1 x.2, slice := s.listSlice e, retry := false, started := false, lateFill := late,
      group := s.groupOf n (s.listSlice e), plan := x.2 }

/-- An entry composed into a hand leaves its list until its transaction is over. -/
def composed (s : State) (id : Nat) : State := (s.onEntry id fun e => { e with st := .running }).unlist id

/-- A CONTROL or BULK entry composed into a hand. A BULK entry with data still to transfer beyond what is composed moves to the tail of its list
(R243; log entry 96). -/
def composedItem (s : State) (h : Hand) (x : HandItem) : State :=
  match x.entry.bind s.entry? with
  | none => s
  | some e =>
    if x.cls = 6 ∧ x.kind ≠ .ping ∧ s.aheadIn h e + x.plan < e.left 4 then
      s.onDeal fun d => { d with lists := d.lists.filter (fun l => l.entry != e.id) ++ d.lists.filter fun l => l.entry == e.id }
    else s.composed e.id

def handNext (s : State) (n : Nat) : Option Hand := Tbl.find s.deal.next n
def handRun (s : State) (n : Nat) : Option Hand := Tbl.find s.deal.run n
def onRun (s : State) (n : Nat) (f : Hand → Hand) : State :=
  match s.handRun n with
  | some h => s.onDeal fun d => { d with run := Tbl.put d.run n (f h) }
  | none => s

/-- The instant, in tenths of a ns after the tick, at which a further transaction of turnaround `a` would start behind the unstarted
items of a hand (R218). -/
def nextStart (h : Hand) (from_ a : Nat) : Nat :=
  let w := (h.items.filter fun x => !x.started).foldl
    (fun (w : Nat × Nat) x => (w.1 + (w.2 - x.a) * 10 + x.s, x.a)) (max h.nextAt from_, h.lastA)
  w.1 + (w.2 - a) * 10

/-- The next CONTROL or BULK transaction of a tree: for CONTROL in the order of readiness, one for each entry and endpoint 0 of the
hand (R244), the composed hand and its late fill counted apart (R246; DESIGN CHOICE, log entry 110); then by R243. With it the deficits after the turns taken and before the charge. -/
def nextBulk (s : State) (n : Nat) (h : Hand) (late : Bool) : Option (HandItem × Drr) :=
  let used := (h.items.filter fun x => x.cls == 5 && (late == x.lateFill)).map HandItem.eph
  match (s.listed 1 n h).find? (fun e => !used.contains e.eph) with
  | some e => (s.itemOf n h e late).map fun x => (x, s.drr n)
  | none =>
    let d := s.drr n
    match pick (s.candidates n h) (s.groupWeight n) (s.groupOf n) d.turns d d.turns with
    | some (c, d1) =>
      match s.entry? c.entry with
      | some e => (s.itemOf n h e late).map fun x => (x, d1)
      | none => none
    | none => none

/-- CONTROL and BULK transactions added to a hand while they pass the test of R219 at their predicted start; the fuel bounds their
number. With `room`, no more than so many unstarted ones stand in the hand (R245, R246). -/
def fill (s : State) (n span from_ : Nat) (late : Bool) (room : Option Nat) (h : Hand) : Nat → State × Hand
  | 0 => (s, h)
  | k + 1 =>
    let full : Bool := match room with
      | some r => decide (r ≤ (h.items.filter fun x => !x.started && decide (5 ≤ x.cls)).length)
      | none => false
    if full then (s, h)
    else match s.nextBulk n h late with
      | none => (s, h)
      | some (x, d) =>
        let s1 := s.useCtx x.eph
        if !s1.runs x.eph then
          (match x.entry with
           | some id => fill (s1.finish id stIntegrity) n span from_ late room h k
           | none => (s1, h))
        else if fits (nextStart h from_ x.a) x.s x.a span then
          fill ((s1.onDrr n fun _ => d.charge x.slice x.group x.cost).composedItem h x) n span from_ late room { h with items := h.items ++ [x] } k
        else (s1.onDrr n fun _ => d, h)

/-! ### The periodic part (R201, R202, R217) -/

/-- The periodic items of one entry of the schedule that runs in the frame: its context is resident and sound. An entry whose pair
fails is not composed, and is reported once, in either copy of the tables that holds it (R201). -/
def periodicOf (s : State) (n frame idx : Nat) (e : SchedEnt) : State × List HandItem :=
  if !schedDue e.word frame then (s, [])
  else if !e.ok then
    if e.reported then (s, [])
    else
      let said (l : Tbl (List SchedEnt)) : Tbl (List SchedEnt) := l.map fun x => (x.1, x.2.map fun o =>
        if x.1 = n ∧ o.word = e.word ∧ o.wordN = e.wordN then { o with reported := true } else o)
      let s1 := s.onSched fun c => { c with active := said c.active, batch := c.batch.map fun b => { b with staged := said b.staged } }
      ((s1.integrity 3 (n * 2 ^ 18 + idx) 0 0 0).raise .SCH_ADM_EVT_INTEGRITY, [])
  else
    let eph := schedEph e.word
    let s1 := s.useFor eph
    match s1.ctx? eph with
    | none => (s1, [])
    | some k =>
      let c := k.ctx
      let mk (kind : TxnKind) (entry : Option Nat) : HandItem :=
        { cls := c.cls - 1, eph := eph, kind := kind, entry := entry, s := slotAt (s.byteTime n) (schedSlow e.word) c.cls c.mps,
          a := turnaround c, cost := 0, slice := c.owner, retry := false, started := false, lateFill := false }
      if k.bad || c.state != 2 || !c.resident || s1.parked c.owner frame then (s1, [])
      else if c.cls = 1 then
        match (s1.listed 0 n (Hand.empty frame)).find? (fun x => x.eph == eph) with
        | some x => (s1, [mk .command (some x.id)])
        | none => (s1, [])
      else if c.cls = 2 then (s1, List.replicate (schedBurst e.word + 1) (mk .callIn none))
      else if c.cls = 3 ∧ k.room c.mps then (s1, [mk .callIn none])
      else (s1, [])

/-- The periodic items of a tree's active entries from an index on. -/
def periodicAll (s : State) (n frame : Nat) : Nat → List SchedEnt → State × List HandItem
  | _, [] => (s, [])
  | i, e :: r =>
    let (s1, l) := s.periodicOf n frame i e
    let (s2, m) := periodicAll s1 n frame (i + 1) r
    (s2, l ++ m)

/-- EVENT polls that missed their hand, made once after the CYCLIC retries (Table 7.4); one that is due anyway serves both, and none is made for a parked
slice (R350). -/
def owedPolls (s : State) (n frame : Nat) (l : List HandItem) : State × List HandItem :=
  let due := Tbl.get [] s.deal.extraPolls n
  let s1 := due.foldl useFor s
  (s1, due.filterMap fun eph =>
    match s1.ctx? eph with
    | some k =>
      if !k.bad && k.ctx.state == 2 && k.room k.ctx.mps && !s1.parked k.ctx.owner frame && !l.any (fun x => x.eph == eph) then
        some { cls := 4, eph := eph, kind := .callIn, entry := none,
               s := slotAt (s.byteTime n) ((Tbl.get [] s.sched.active n).any fun e => schedEph e.word == eph && schedSlow e.word) 3 k.ctx.mps,
               a := turnaround k.ctx, cost := 0, slice := k.ctx.owner, retry := false, started := false, lateFill := false }
      else none
    | none => none)

/-! ### EXEC_AT (R179) -/

/-- START(N): the tick instant of the next frame numbered N. -/
def startOf (s : State) (frame : Nat) : Nat :=
  let f := s.frate
  let p := tickIndex f s.tim.tickAt
  let base := p.1 * f + p.2
  let i := ((base : Int) + signedOf 32 ((frame + 2 ^ 32 - base % 2 ^ 32) % 2 ^ 32)).toNat
  tickTime f (i / f, i % f)

/-- EXEC_AT of a COMMAND entry: 0 for COMMAND. -/
def execAt (s : State) (e : Entry) : Nat :=
  match e.tds.head?.map Prod.snd with
  | some t => if t.kind = 3 then s.startOf t.nbFrame + t.execOfs else 0
  | none => 0

/-! ### Work that misses its hand (R249, Table 7.4) -/

/-- A composed entry returns to the head of its list. -/
def toHead (s : State) (id : Nat) : State :=
  match s.entry? id with
  | some e => if e.done.isNone then (s.unlist id).enlist e true 0 else s
  | none => s

/-- An item that can still run: its entry has not completed; of a periodic one the context is RUNNING. Removed ones leave later slots earlier. -/
def alive (s : State) (x : HandItem) : Bool :=
  match x.entry with
  | some id => (match s.entry? id with
    | some e => e.done.isNone
    | none => false)
  | none => s.runs x.eph

/-- The next frame, from one still to be composed on, in which an endpoint's entry runs. -/
def nextRun (s : State) (n eph from_ : Nat) : Nat :=
  match (s.tableFor n from_).find? (fun e => schedEph e.word == eph) with
  | some e => match (upto 1024).find? (fun i => schedDue e.word ((from_ + i) % 2 ^ 32)) with
    | some i => (from_ + i) % 2 ^ 32
    | none => from_
  | none => from_

/-- The first hand of a tree still to be composed. -/
def openFrame (s : State) (n : Nat) : Nat := if (s.handNext n).isSome then (s.frameNo + 2) % 2 ^ 32 else (s.frameNo + 1) % 2 ^ 32

/-- Ring and index of the TD that an item serves; zeros where it serves none (Table 7.8). -/
def itemTd (s : State) (x : HandItem) : Nat × Nat :=
  match x.entry.bind s.entry? with
  | some e => (e.ring, (e.tds.head?.map Prod.fst).getD 0)
  | none => (0, 0)

/-- One item that missed its hand: what becomes of it, by class; `why` is 1 for the deadline and 2 for the guard band. -/
def missItem (s : State) (n why : Nat) (h : Hand) (x : HandItem) : State × Hand :=
  let tr (s : State) (to_ : Nat) : State :=
    s.trace 7 h.frame (some n) (some x.slice) (some x.eph) (s.classOf x.eph) 0 (s.itemTd x).1 (s.itemTd x).2 0 why to_
  if x.cls = 1 then (s, { h with cycMissed := h.cycMissed + 1 })
  else if x.cls = 3 then (s, h)
  else if x.cls = 0 ∨ (x.cls = 4 ∧ x.kind = .command) then
    match x.entry with
    | some id =>
      let to_ := s.nextRun n x.eph (s.openFrame n)
      let s1 := if why = 1 then s else s.toHead id
      if (s.entry? id).any fun e => frameDead e to_ then (s1, h)
      else ((tr s1 to_).count .SCH_DYN_CNT_ROLLED, { h with cmdMoved := h.cmdMoved + 1 })
    | none => (s, h)
  else
    let standing := match s.handNext n with
      | some g => g.items.any fun y => y.eph == x.eph
      | none => false
    let s1 := if standing then s
      else s.onDeal fun d => { d with extraPolls := Tbl.upd [] d.extraPolls n fun l => if l.contains x.eph then l else l ++ [x.eph] }
    ((tr s1 (if standing then (s.frameNo + 1) % 2 ^ 32 else s.openFrame n)).count .SCH_DYN_CNT_ROLLED, { h with evtMoved := h.evtMoved + 1 })

/-- Several items. -/
def missItems (s : State) (n why : Nat) (h : Hand) (l : List HandItem) : State × Hand :=
  l.foldl (fun w x => w.1.missItem n why w.2 x) (s, h)

/-- COMMAND_AT work of a tree that has reached neither of its hands completes DEADLINE_MISSED (R179). -/
def deadCommands (s : State) (n frame : Nat) : State :=
  s.finishWhere (fun e => Eph.port e.eph == n && (e.st == .waiting || e.st == .ready) && e.isEntry &&
    (match e.tds.head?.map Prod.snd with
     | some t => t.kind == 3 && !later32 t.nbFrame frame
     | none => false)) stDeadline

/-! ### Composing (R23, R217) -/

/-- The COMMANDs of a hand leave their lists; the payload pair is checked again (R180), and the intent is mirrored (R389). -/
def takeCommands (s : State) (h : Hand) : State × Hand :=
  h.items.foldl (fun w x =>
    match x.kind, x.entry with
    | .command, some id =>
      match w.1.entry? id with
      | some e =>
        if complPair e.data then
          let tg := match w.1.ctx? e.eph with
            | some k => k.ctx.toggle
            | none => 0
          ((w.1.composed id).mirrorIntent e.eph tg (w.1.execAt e) e.data, { w.2 with items := w.2.items ++ [x] })
        else (w.1.finish id stIntegrity, w.2)
      | none => w
    | _, _ => (w.1, { w.2 with items := w.2.items ++ [x] })) (s, { h with items := [] })

/-- The HAND trace record of a complete hand. -/
def traceHand (s : State) (n tick : Nat) (h : Hand) : State :=
  let cnt (p : HandItem → Bool) : Nat := min 65535 (h.items.filter p).length
  s.trace 1 h.frame (some n) none none 0 0 0 0
    (cnt (·.cls == 0) * 2 ^ 48 + cnt (·.cls == 1) * 2 ^ 32 + cnt (fun x => x.cls == 2 || x.cls == 4) * 2 ^ 16 + cnt (fun x => decide (5 ≤ x.cls)))
    (tick - s.tim.now) h.wns

/-- More CONTROL and BULK transactions than any hand has: one of 24 bytes takes at least 38 ns. -/
def bulkFuel (s : State) : Nat := s.entries.length + 20000

/-- The hand of a tree for the next frame. `some k`: the lane composed only the first k periodic items in time (R23); what it did not compose moves to the
hands after this one (R249). Entries of
classes other than CYCLIC that fall due in an empty frame of a rate change move to the next hand. -/
def composeTree (s : State) (n frame tick : Nat) (cut : Option Nat) : State :=
  let h0 := { Hand.empty frame with complete := true, nextAt := s.frameTime n }
  if !s.composes n frame then (s.onDeal fun d => { d with next := Tbl.put d.next n h0 }).deadCommands n frame
  else
    let (s1, l0) := s.periodicAll n frame 0 (s.tableFor n frame)
    let l1 := sortItems l0
    let (s1, l2) := s1.owedPolls n frame l1
    let l := l1 ++ l2
    let s2 := s1.onDeal fun d => { d with extraPolls := Tbl.del d.extraPolls n }
    let empty := s.rateEmpty n frame
    let k := if empty then 0 else cut.getD l.length
    let (s3, h1) := s2.takeCommands { h0 with items := l.take k }
    let h2 := { h1 with wns := occupancy (s.frameTime n) h1.items }
    let (s4, h3) := (s3.onDeal fun d => { d with next := Tbl.put d.next n h2 }).missItems n 1 h2 (l.drop k)
    let h4 := { h3 with deadline := !empty && decide (k < l.length) }
    let (s5, h5) := if empty || decide (k < l.length) then (s4, h4)
      else s4.fill n (s.frameSpan tick) 0 false none h4 s4.bulkFuel
    ((s5.onDeal fun d => { d with next := Tbl.put d.next n h5 }).traceHand n tick h5).deadCommands n frame

/-- Places of the delay lists sorted by key, then in the order in which they were taken (R235). -/
def keyIn (x : Nat × Nat × Nat) : List (Nat × Nat × Nat) → List (Nat × Nat × Nat)
  | [] => [x]
  | y :: r => if x.1 < y.1 ∨ (x.1 = y.1 ∧ x.2.1 < y.2.1) then x :: y :: r else y :: keyIn x r

/-- Entries leave the delay lists in the order of their places: key, number and entry. -/
def releaseAll (s : State) (l : List (Nat × Nat × Nat)) : State :=
  (l.foldl (fun l x => keyIn x l) []).foldl (fun s x => (s.onEntry x.2.2 fun e => { e with delay := none }).judge 4 x.2.2) s

/-- Entries held for a frame are released when the dealer starts composing its hand, those of earlier frames first (R235, R238). -/
def releaseFrames (s : State) (frame : Nat) : State :=
  let due := s.entries.filterMap fun e => match e.delay with
    | some (.frame n) => if later32 n frame then none else some ((n + 2 ^ 31 + 2 ^ 32 - frame) % 2 ^ 32, e.delayNo, e.id)
    | _ => none
  if due.isEmpty then s else (s.releaseAll due).refresh 4

/-- Every hand for the next frame that is not composed yet. -/
def composeAll (s : State) (cuts : List (Nat × Nat)) : State :=
  let frame := s.nextNumber
  let tick := s.nextTick
  let todo := (upto s.nPorts).filter fun n => (s.handNext n).isNone
  todo.foldl (fun s n => s.composeTree n frame tick (Tbl.find cuts n)) (s.releaseFrames frame)

/-! ### The guard band (R219, R247) -/

/-- Composed CONTROL and BULK transactions that have not started return to the head of their lists in their order, with their cost;
unstarted periodic ones have missed their hand. -/
def guardTree (s : State) (n : Nat) : State :=
  match s.handRun n with
  | none => s
  | some h =>
    let back := h.items.filter fun x => !x.started && decide (5 ≤ x.cls) && s.alive x
    let per := h.items.filter fun x => !x.started && decide (x.cls ≤ 4) && x.cls != 3 && s.alive x
    let s1 := back.reverse.foldl (fun s x =>
      let s0 := (s.onDrr n fun d => d.charge x.slice x.group (-(x.cost : Int))).count .SCH_DYN_CNT_RETURNED
      let s1 := s0.trace 7 h.frame (some n) (some x.slice) (some x.eph) (s.classOf x.eph) 0 (s.itemTd x).1 (s.itemTd x).2 0 2 0
      match x.entry with
      | some id => s1.toHead id
      | none => s1) s
    let first := (per.filter fun x => !x.retry && decide (x.cls ≤ 2)).length
    let s2 := s1.countN .SCH_ADM_STS_LATE_CNT 0 first
    let (s3, h1) := s2.missItems n 2 h per
    s3.onDeal fun d => { d with run := Tbl.put d.run n { h1 with
      items := h.items.filter (·.started), guard := h.guard || !per.isEmpty } }

/-- The ROLLED event of a hand that ended (R250). -/
def rolledEvent (s : State) (n : Nat) : State :=
  match s.handRun n with
  | none => s
  | some h =>
    if h.cmdMoved + h.evtMoved + h.cycMissed = 0 ∧ !h.deadline ∧ !h.guard then s
    else s.event1 evRolled 0 0 (bit h.deadline * 2 ^ 31 + bit h.guard * 2 ^ 30 + min 255 h.cmdMoved * 2 ^ 22 + min 255 h.evtMoved * 2 ^ 14 +
      min 255 h.cycMissed * 2 ^ 6 + n) h.frame

end State

end Sys2Proof.Machine
end

