-- ==== Sys2Proof/Machine/Coder.lean ====
section
/-! DEFINITION. Machine/Coder.lean: the coding of one channel's block of 256 samples (R285–R290), on plain lists. -/

namespace Sys2Proof.Machine

/-- Sample width in bits of a WIDTH code (Table 8.1). -/
def widthBits (w : Nat) : Nat := 16 + 8 * w

/-- A value limited to W bits (R287). -/
def clampTo (w : Nat) (x : Int) : Int := max (-((2 ^ (w - 1) : Nat) : Int)) (min (((2 ^ (w - 1) : Nat) : Int) - 1) x)

/-- The prediction from the reconstructed samples, newest first (R287). -/
def predict (order : Nat) : List Int → Int
  | a :: b :: c :: _ => if order = 0 then 0 else if order = 1 then a else if order = 2 then 2 * a - b else 3 * a - 3 * b + c
  | a :: b :: [] => if order = 0 then 0 else if order = 1 then a else 2 * a - b
  | a :: [] => if order = 0 then 0 else a
  | [] => 0

/-- Zigzag of a coded integer (R286). -/
def zigzag (m : Int) : Nat := if 0 ≤ m then (2 * m).toNat else (-2 * m - 1).toNat

/-- The values v of the samples from index `i` on, for an order (R287): `hist` holds the reconstructed samples, newest first.
Warm-up samples give none. `ll` tells whether a partition is coded without loss. -/
def codeValues (w q order : Nat) (ll : Nat → Bool) : Nat → List Int → List Int → List (Nat × Nat)
  | _, _, [] => []
  | i, hist, x :: r =>
    if i < order then codeValues w q order ll (i + 1) (x :: hist) r
    else
      let p := predict order hist
      let e := x - p
      if q = 0 ∨ ll (i / 32) then (i / 32, zigzag e) :: codeValues w q order ll (i + 1) (x :: hist) r
      else
        let m := (e + (2 ^ (q - 1) : Nat)) / ((2 ^ q : Nat) : Int)
        (i / 32, zigzag m) :: codeValues w q order ll (i + 1) (clampTo w (p + m * (2 ^ q : Nat)) :: hist) r

/-- Bits of the codes of a partition with parameter `k`. -/
def riceBits (k : Nat) (vs : List Nat) : Nat := vs.foldl (fun a v => a + v / 2 ^ k + 1 + k) 0

/-- The parameter from 0 to 31 with the fewest bits, the smaller on a tie (R289). -/
def riceBest (vs : List Nat) : Nat × Nat :=
  (upto 32).foldl (fun (a : Nat × Nat) k => if riceBits k vs < a.2 then (k, riceBits k vs) else a) (0, riceBits 0 vs)

/-- A number as `n` bits, most significant first. -/
def msbBits (n v : Nat) : List Bool := (upto n).map fun i => (v / 2 ^ (n - 1 - i)) % 2 == 1

/-- The code of a value (R286). -/
def riceCode (k v : Nat) : List Bool := List.replicate (v / 2 ^ k) false ++ true :: msbBits k (v % 2 ^ k)

/-- Bits packed from bit 7 down, padded with zeros to a whole byte; the fuel is the number of bits. -/
def packBits : Nat → List Bool → List Byte
  | 0, _ => []
  | _, [] => []
  | n + 1, b =>
    let x := b.take 8
    BitVec.ofNat 8 ((x ++ List.replicate (8 - x.length) false).foldl (fun a b => 2 * a + bit b) 0) :: packBits n (b.drop 8)

/-- The bits of a block for an order: warm-up samples, then each partition's parameter and codes (R286, R289). -/
def orderBits (w q order : Nat) (ll : Nat → Bool) (xs : List Int) : List Bool :=
  let vs := codeValues w q order ll 0 [] xs
  ((xs.take order).map fun x => msbBits w (toBits w x)).flatten ++
    ((upto 8).map fun p =>
      let v := (vs.filter fun y => y.1 == p).map Prod.snd
      let k := (riceBest v).1
      msbBits 5 k ++ (v.map (riceCode k)).flatten).flatten

/-- The size in bits of a block for an order. -/
def orderSize (w q order : Nat) (ll : Nat → Bool) (xs : List Int) : Nat :=
  let vs := codeValues w q order ll 0 [] xs
  order * w + ((upto 8).map fun p => 5 + (riceBest ((vs.filter fun y => y.1 == p).map Prod.snd)).2).foldl (· + ·) 0

/-- The order with the fewest bits, the smaller on a tie (R289). -/
def bestOrder (w q : Nat) (ll : Nat → Bool) (xs : List Int) : Nat × Nat :=
  (upto 4).foldl (fun (a : Nat × Nat) o => let n := orderSize w q o ll xs; if n < a.2 then (o, n) else a) (0, orderSize w q 0 ll xs)

/-- A map of eight partitions as a byte. -/
def mapByte (f : Nat → Bool) : Nat := ((upto 8).map fun p => bit (f p) * 2 ^ p).foldl (· + ·) 0

/-- The block emitted raw (R290). -/
def rawBlock (wcode q tg pk : Nat) (xs : List Int) : List Byte :=
  let w := widthBits wcode
  let n := 8 + 32 * w
  leBytes 1 (4 + wcode) ++ leBytes 1 q ++ leBytes 1 0xFF ++ leBytes 1 tg ++ leBytes 2 n ++ leBytes 1 pk ++ leBytes 1 0 ++
    (xs.map fun x => leBytes (w / 8) (toBits w x)).flatten

/-- The coded block of 256 samples (R285–R290): with the partitions that hold a peak and that lie in a trigger window. -/
def codeBlock (wcode q : Nat) (pk tg : Nat → Bool) (xs : List Int) : List Byte × Bool :=
  let w := widthBits wcode
  let ll (p : Nat) : Bool := q == 0 || pk p || tg p
  let o := bestOrder w q ll xs
  let n := 8 + (o.2 + 7) / 8
  if 32 * w ≤ n then (rawBlock wcode q (mapByte tg) (mapByte pk) xs, true)
  else
    let b := orderBits w q o.1 ll xs
    (leBytes 1 (o.1 * 8 + wcode) ++ leBytes 1 q ++ leBytes 1 (mapByte ll) ++ leBytes 1 (mapByte tg) ++ leBytes 2 n ++
      leBytes 1 (mapByte pk) ++ leBytes 1 0 ++ packBits b.length b, false)

end Sys2Proof.Machine
end

