-- ==== Sys2Proof/Machine/Sample.lean ====
section
/-! DEFINITION. Machine/Sample.lean: sample blocks on their way to the host (chapter 08): the three paths, gather groups, the
coder's input and output, and stream records. -/

namespace Sys2Proof.Machine

/-- A part of a record's body with its pad to 8 bytes. -/
def SRec.length (r : SRec) : Nat := 32 + (r.body.map fun b => roundup8 b.length).foldl (· + ·) 0

namespace State

/-! ### Records (R265–R269) -/

/-- Something to report for a STREAM ring at the next tick (Table 8.6). -/
def note (s : State) (ring what id n : Nat) : State :=
  let add (l : List (Nat × Nat × Nat)) : List (Nat × Nat × Nat) :=
    if l.any (fun x => x.1 == what && x.2.1 == id) then
      l.map (fun x => if x.1 = what ∧ x.2.1 = id then (what, id, x.2.2 + n) else x)
    else l ++ [(what, id, n)]
  s.onSmp fun m => { m with notes := Tbl.upd [] m.notes ring add }

/-- The pocket space of a block is released. -/
def blockFree (s : State) (b : Block) : State :=
  match (s.ctx? b.eph).or (Tbl.find s.cmgr.away b.eph) with
  | some k => if k.blocks.contains b then (s.onPocket b.eph fun k => { k with blocks := k.blocks.erase b }).pocketFree b.eph b.bytes.length else s
  | none => s

/-- An ACTIVE STREAM ring. -/
def streamRing (s : State) (r : Nat) : Bool := decide (4 ≤ r) && (s.ring r).st == 1 && (s.ring r).type r == 3

/-- Free entries of a ring (R166). -/
def freeEntries (s : State) (r : Nat) : Nat := ((s.ring r).tail + (s.ring r).size - (s.ring r).head - 1) % (s.ring r).size

/-- Pad bytes, which the spec leaves undefined. -/
def padBytes (s : State) : Nat → State × List Byte
  | 0 => (s, [])
  | n + 1 =>
    let (s1, l) := padBytes s.draw n
    (s1, BitVec.ofNat 8 s.freeValue :: l)

/-- A record's body, each part padded (R265, R267, R277). -/
def padBody (s : State) : List (List Byte) → State × List Byte
  | [] => (s, [])
  | b :: r =>
    let (s1, p) := s.padBytes (roundup8 b.length - b.length)
    let (s2, l) := padBody s1 r
    (s2, b ++ p ++ l)

/-- Bytes written from an entry of a ring on, wrapping past the last entry (R265). -/
def ringWrite (s : State) (r ofs : Nat) (b : List Byte) : State :=
  let g := s.ring r
  let room := g.size * g.entryBytes r - ofs
  let s1 := s.emit (.hostWrite (s.ringPasid r) (g.base + ofs) (b.take room))
  if b.length ≤ room then s1 else s1.emit (.hostWrite (s.ringPasid r) g.base (b.drop room))

/-- HEAD advanced by several entries (R167, R265). -/
def advanceBy (s : State) (r : Nat) : Nat → State
  | 0 => s
  | n + 1 => advanceBy (s.onRing r Ring.advance) r n

/-- A waiting record is written when its ring is an ACTIVE STREAM ring of a slice that is not held and has room for it: the rest
first, then the first 16 bytes; the flushing read releases the pocket space (R265, R266). -/
def writeRec (s : State) (r : SRec) : State :=
  let g := s.ring r.ring
  let eb := g.entryBytes r.ring
  let ents := (r.length + eb - 1) / eb
  let (s1, body) := s.padBody r.body
  let ofs := g.head * eb
  let first := leBytes 1 r.kind ++ leBytes 1 (r.qclass % 8 + bit g.phase * 128) ++ leBytes 2 ents ++ leBytes 4 r.length ++ leBytes 8 r.time
  let s2 := (((s1.ringWrite r.ring (ofs + 16) (r.tail ++ body)).ringWrite r.ring ofs first).emit (.flush (s.ringPasid r.ring) (lastWord (g.base + ofs) 16))).advanceBy r.ring ents
  let s2 := s2.engineDone (s.engineOf (.record r.ring))
  (r.holds.foldl blockFree s2).note r.ring 1 0 1

/-- The oldest record of a ring can be written now; while a thaw releases what was held, after the held write-backs and the data that landed before it
(R347). -/
def recReady (s : State) (r : SRec) : Bool :=
  s.streamRing r.ring && (s.ring r.ring).geoOk && r.owner.all (fun n => (s.ring r.ring).slice == some n) && !(match (s.ring r.ring).slice with
    | some n => s.sliceHeld n || s.sliceState n == 4 || ((s.slice n).releasing && (s.wbOwed n || (s.hostOwed n).any (· ≤ r.landed)))
    | none => false) &&
  decide ((r.length + (s.ring r.ring).entryBytes r.ring - 1) / (s.ring r.ring).entryBytes r.ring ≤ s.freeEntries r.ring)

/-! ### BLOCK records (R264) -/

/-- A block whose group or stream does not exist goes to the context's own ring (R264). -/
def pushUngrouped (s : State) (c : Ctx) (b : Block) : State :=
  (s.pushBlock b c.ring c.group 2 0 none).raise .GTH_EVT_UNGROUPED

/-! ### Gather (R271–R281) -/

/-- The open set with the earliest deadline tick, over all groups. -/
def earliestSet (s : State) : Option (Nat × Group × OpenSet) :=
  (s.smp.groups.filterMap fun x => x.2.sets.head?.map fun o => (x.1, x.2, o)).foldl (fun a x => match a with
    | some y => if later32 y.2.2.dlFrame x.2.2.dlFrame then some x else a
    | none => some x) none

/-- A block that joins no set is discarded and counted (R276). -/
def dropBlock (s : State) (b : Block) (id : Nat) (g : Group) (cnt evt : Fld) : State :=
  (((s.blockFree b).countN cnt id 1).raise evt).note g.ring 2 id 1

/-- A set put into the open sets of a group, in T order. -/
def insertSet (o : OpenSet) : List OpenSet → List OpenSet
  | [] => [o]
  | x :: r => if o.j < x.j then o :: x :: r else x :: insertSet o r

/-- The earliest open set is emitted, with FORCED = 1, where there is one (R278). -/
def forceSet (s : State) : State :=
  match s.earliestSet with
  | some (i, h, o) => ((s.emitSet i h o true).raise .GTH_EVT_FORCED).emitSets i
  | none => s

/-- A block that must open a set while every slot is held: the earliest set is forced, and the block waits in its pocket for the slot, which that set keeps
until its records are written (R278). One forces no set while another waits for the same instant (log entry 109). -/
def waitSlot (s : State) (b : Block) (said : Bool) : State :=
  (if said then s else s.forceSet).onSmp fun m => { m with waiting := m.waiting ++ [b] }

/-- A member's block goes to its group (R272–R278): the deadlines are applied first (R279). -/
def gatherBlock (s : State) (id m : Nat) (b : Block) : State :=
  let s0 := s.emitSets id
  match s0.group id with
  | none => s0
  | some g =>
    match g.nearest (g.members.getD m (0, 0)).2 b.stamp with
    | (j, dist) =>
      if g.window < dist then s0.dropBlock b id g .GTH_DROP_UNMATCHED .GTH_EVT_UNMATCHED
      else match g.sets.find? (fun o => o.j == j) with
        | some o =>
          if (Tbl.find o.blocks m).isSome then s0.dropBlock b id g .GTH_DROP_DUPLICATE .GTH_EVT_DUPLICATE
          else (s0.onGroup id fun g => { g with
            sets := g.sets.map fun x => if x.j = j then { x with blocks := Tbl.put x.blocks m b } else x }).emitSets id
        | none =>
          if g.emitted.any (fun x => x.1 == j && x.2.contains m) then s0.dropBlock b id g .GTH_DROP_DUPLICATE .GTH_EVT_DUPLICATE
          else
            let t := g.setTime j
            let f := s.frameAt t
            let dl := (f + g.deadline) % 2 ^ 32
            if g.upTo.any (fun u => decide (j ≤ u)) || !later32 dl s.frameNo then s0.dropBlock b id g .GTH_DROP_LATE .GTH_EVT_LATE
            else if 2048 ≤ s0.openSlots then
              s0.waitSlot b (s0.smp.waiting.any fun w => g.members.any fun x => x.1 == w.eph && (g.nearest x.2 w.stamp).1 == j)
            else (s0.onGroup id fun g => { g with sets := insertSet ⟨j, t, f, dl, [(m, b)]⟩ g.sets }).emitSets id

/-! ### The coder's input (R284) and triggers (R288) -/

/-- One sample instant appended to the span; a span of 256 closes. -/
def addSample (s : State) (k frame qc : Nat) (x : Sampled) : State :=
  let s1 := s.onCoder k fun c => { c with cur := some (match c.cur with
    | some p => { p with samples := p.samples ++ [x], frame := frame, qclass := max p.qclass qc }
    | none => ⟨0, [x], false, false, frame, qc⟩) }
  match (s1.coder k).bind CoderStream.cur with
  | some p => if 256 ≤ p.samples.length then s1.closeSpan k false false else s1
  | none => s1

/-- The samples of a block (R261). -/
def blockSamples (c : CoderStream) (b : Block) : List Sampled :=
  let w := widthBits c.wcode / 8
  (upto ((b.bytes.length - 4) / (c.ch * w))).map fun i =>
    ⟨(b.stamp * 256 + i * c.period : Nat), (upto c.ch).map fun j =>
      signedOf (8 * w) (leNat (Sys2Proof.slice (4 + (i * c.ch + j) * w) w b.bytes))⟩

/-- DATA_LEN of a CYCLIC endpoint, as its device's endpoint records give it (R260, Table 4.13), where such a device stands on the tree. -/
def dataLen (s : State) (eph : Nat) : Option Nat :=
  (s.devs.find? fun x => x.2.port == Eph.port eph && x.2.addr == Eph.addr eph).bind fun x =>
    ((upto 4).flatMap fun r => (upto 16).map fun i => Sys2Proof.slice (8 + 12 * i) 12 (Tbl.get [] x.2.records (r + 1))).findSome? fun e =>
      if e.length = 12 ∧ leNat (e.take 1) = 128 + Eph.ep eph ∧ leNat (Sys2Proof.slice 1 1 e) / 32 = 2 then some (leNat (Sys2Proof.slice 4 2 e)) else none

/-- A block goes to its coder stream: copied out of the pocket and appended; a BSEQ gap, or a length that breaks R263, closes the span
early: the length is DATA_LEN, and where no record gives it, 4 bytes and a whole number of sample instants. -/
def coderBlock (s : State) (k : Nat) (b : Block) : State :=
  match s.coder k with
  | none => s
  | some c =>
    let s1 := s.blockFree b
    let unit := c.ch * (widthBits c.wcode / 8)
    if b.bytes.length ≤ 4 ∨ (b.bytes.length - 4) % unit ≠ 0 ∨ (s.dataLen b.eph).any (· != b.bytes.length) = true then
      ((s1.closeSpan k true false).countN .CDR_FLG_GAPS k 1).raise .CDR_EVT_GAP
    else
      let gap := match c.lastBseq with
        | some n => b.bseq != (n + 1) % 65536
        | none => false
      let s2 := (if gap then s1.closeSpan k true false else s1).onCoder k fun c => { c with lastBseq := some b.bseq }
      (blockSamples c b).foldl (fun s x => s.addSample k b.frame b.qclass x) s2

/-- The trigger window of an instant meets an interval of coder samples, in 1/256 ns (R288). -/
def inWindow (c : CoderStream) (t : Nat) (i : Int × Int) : Bool :=
  decide (((t : Int) - (c.preUs * 1000 : Nat)) * 256 ≤ i.2) && decide (i.1 ≤ ((t : Int) + (c.postUs * 1000 : Nat)) * 256)

/-- An EVENT of an endpoint landed with its STAMP: it triggers the streams that name the endpoint; a block already coded stays (R288,
R291). -/
def triggerLand (s : State) (eph stamp : Nat) : State :=
  s.smp.streams.foldl (fun s x =>
    if x.2.triggers.contains eph then
      let s1 := s.onCoder x.1 fun c => { c with instants := (stamp :: c.instants).take 16 }
      if x.2.coded.any fun i => inWindow x.2 stamp i then
        ((s1.countN .CDR_FLG_TRIG_LATE x.1 1).raise .CDR_EVT_TRIG_LATE).note x.2.ring 4 x.1 1
      else s1
    else s) s

/-! ### Coding (R285–R293) -/

/-- A span filled to 256 samples with copies of its last (R284). -/
def spanFilled (p : Span) : List Sampled :=
  match p.samples.getLast? with
  | some x => p.samples ++ List.replicate (256 - p.samples.length) x
  | none => []

/-- The CODED records of a stream's oldest closed span, in channel order (R293); `late` emits it raw (R291). -/
def codeSpan (s : State) (k : Nat) (late : Bool) : State :=
  match s.coder k with
  | none => s
  | some c =>
    match c.closed with
    | [] => s
    | p :: rest =>
      let xs := spanFilled p
      let at_ (i : Nat) : Int := (xs[i]?.map Sampled.at_).getD 0
      let tg (i : Nat) : Bool := c.instants.any fun t => inWindow c t (at_ (32 * i), at_ (32 * i + 31))
      let t0 := at_ 0
      let one (s : State) (ch : Nat) : State :=
        let v := xs.map fun x => x.xs.getD ch 0
        let pk (i : Nat) : Bool := ((v.drop (32 * i)).take 32).any fun x => decide (c.peakThr ≤ x.natAbs)
        let cb := if late then (rawBlock c.wcode c.q (mapByte tg) (mapByte pk) v, true) else codeBlock c.wcode c.q pk tg v
        let forcedLl := if c.q = 0 ∨ cb.2 then 0 else ((upto 8).filter fun i => pk i || tg i).length
        let s1 := s.pushRec { kind := 3, ring := c.ring, time := (t0 / 256).toNat, qclass := p.qclass,
                              tail := leBytes 4 c.eph ++ leBytes 1 ch ++ leBytes 1 (bit p.detach * 4 + bit late * 2 + bit p.gap) ++
                                leBytes 2 p.samples.length ++ leBytes 1 (t0 % 256).toNat ++ leBytes 1 k ++ leBytes 2 0 ++ leBytes 4 p.cseq,
                              body := [cb.1], holds := [], set := none, owner := none, span := some (k, p.cseq) }
        let s2 := (s1.countN .CDR_FLG_FORCED_LL k forcedLl).countN .CDR_FLG_RAW k (bit cb.2)
        s2.fsetN .CDR_CNT_BLOCKS k (s2.fgetN .CDR_CNT_BLOCKS k + 1)
      let s1 := (upto c.ch).foldl one s
      let s2 := s1.onCoder k fun c => { c with closed := rest, coded := c.coded ++ [(t0, at_ 255)] }
      if late then (s2.raise .CDR_EVT_RAW_LATE).note c.ring 3 k c.ch else s2

/-! ### Landing (R159, R264) -/

/-- A block takes the path that LINK gives it. -/
def routeBlock (s : State) (c : Ctx) (b : Block) : State :=
  match c.mode with
  | 1 =>
    match s.group c.group with
    | some g => if c.member < g.members.length ∧ g.destroy.isEmpty then s.gatherBlock c.group c.member b else s.pushUngrouped c b
    | none => s.pushUngrouped c b
  | 2 =>
    match s.coder (c.member % 64) with
    | some x => if x.detach.isEmpty then s.coderBlock (c.member % 64) b else s.pushUngrouped c b
    | none => s.pushUngrouped c b
  | _ => s.pushBlock b c.ring 0 0 0 none

/-- A CYCLIC block that the controller acknowledged: stored in the pocket and routed, or discarded and counted in OVERRUN where a
further MPS of data finds no room (R159); the first overrun since the last ENDPOINT event writes one (R188), while the slice is FREEZING or FROZEN at its
thaw (R347). -/
def blockLand (s : State) (b : Block) : State :=
  match s.ctx? b.eph with
  | none => s
  | some k =>
    if k.room k.ctx.mps then
      let s1 := (s.pocketPut b.eph b.bytes).onCtx b.eph fun k => { k with blocks := k.blocks ++ [b] }
      (s1.onTwin fun w => { w with lastBseq := Tbl.put w.lastBseq b.eph b.bseq }).routeBlock k.ctx b
    else
      let s1 := (s.onCtx b.eph fun k => { k with
        ctx := { k.ctx with overrun := satAdd (2 ^ 32 - 1) k.ctx.overrun 1 }, overrunSaid := true }).onSmp fun m => { m with
          overrun := if m.overrun.contains b.eph then m.overrun else m.overrun ++ [b.eph] }
      if k.overrunSaid then s1
      else if s.sliceHeld k.ctx.owner then s1.onCtx b.eph fun k => { k with overrunOwed := true }
      else (s1.endpointEvent b.eph 0).onCtx b.eph fun k => { k with overrunSaid := true }

/-- Commands in progress, by ring and index, complete. -/
def endCmds (s : State) (l : List (Nat × Nat)) (status result : Nat) : State :=
  { s with cmds := s.cmds.map fun c =>
      if l.contains (c.ring, c.idx) && c.status.isNone then { c with status := some status, result := result } else c }

/-- Stream records and commands that waited for them: GATHER_DESTROY and CODER_DETACH complete once their records are written. -/
def sampleDone (s : State) : State :=
  let s1 := s.smp.groups.foldl (fun s x =>
    if x.2.destroy.isEmpty || (s.smp.queue.any fun q => q.set.map Prod.fst == some x.1) then s
    else
      let (s0, last) := match x.2.upTo with
        | some j => (s, toBits 32 j)
        | none => (s.draw, s.freeValue % 2 ^ 32)
      (s0.onSmp fun m => { m with groups := Tbl.del m.groups x.1 }).endCmds x.2.destroy stOk last) s
  s1.smp.streams.foldl (fun s x =>
    if x.2.detach.isEmpty || !x.2.closed.isEmpty || (s.smp.queue.any fun q => q.span.map Prod.fst == some x.1) then s
    else
      let (s0, last) := match x.2.lastCseq with
        | some n => (s, n)
        | none => (s.draw, s.freeValue % 2 ^ 32)
      (s0.onSmp fun m => { m with streams := Tbl.del m.streams x.1 }).endCmds x.2.detach stOk last) s1

/-- Blocks that waited for a slot take one while there are any, in their order (R278); each follows the path that LINK now gives it. -/
def slotsFreed (s : State) : State :=
  (s.smp.waiting.foldl (fun (w : State × List Block) b =>
    match (w.1.ctx? b.eph).or (Tbl.find w.1.cmgr.away b.eph) with
    | some k =>
      if !k.blocks.contains b then w
      else if 2048 ≤ w.1.openSlots then (w.1, w.2 ++ [b])
      else (w.1.routeBlock k.ctx b, w.2)
    | none => w) (s.onSmp fun m => { m with waiting := [] }, [])) |> fun w => w.1.onSmp fun m => { m with waiting := w.2 ++ m.waiting }

/-- STREAM events of the frame just ended, in WHAT order on each ring (R269). -/
def streamEvents (s : State) (frame : Nat) : State :=
  let s1 := s.smp.notes.foldl (fun s x =>
    let what (w : Nat) : List (Nat × Nat × Nat) := x.2.filter fun y => y.1 == w
    ((what 1 ++ what 2 ++ what 3 ++ what 4).foldl (fun s y =>
      s.event (s.ring x.1).evtRing evStream 0 x.1 (y.1 * 2 ^ 28 + (if y.1 = 1 then 0 else y.2.1 % 256) * 2 ^ 20 + (s.ring x.1).head)
        (y.2.2 * 2 ^ 32 + frame)) s)) s
  s1.onSmp fun m => { m with notes := [] }

end State

/-! ### Rows -/

/-- The deadline tick of a set of a group has passed: the sets that can be emitted are (R273). -/
def execGatherDeadline (g : Nat) (s : State) : Host.Outcome State Fault Refusal := .next (s.emitSets g)

namespace State

/-- What a thaw still holds goes on (R347): once the held write-backs are made, the records that arose before the data still to be transported; once that
is in host memory and the stream records held that have room are written, the rest of them, the ENDPOINT events of pockets that overran, and new
entries are taken again. -/
def releaseStep (s : State) (n : Nat) : State :=
  if !(s.slice n).releasing || s.wbOwed n then s
  else
    let rs := (s.rings.filter fun x => x.2.slice == some n && x.2.st == 1 && x.2.type x.1 == 2).map Prod.fst
    match s.hostOwed n with
    | some t => rs.foldl (fun s r => s.releaseKept r t 64) s
    | none =>
      if s.smp.queue.any fun r => (s.ring r.ring).slice == some n && decide (r.landed ≤ (s.slice n).relAt) && s.recReady r then
        rs.foldl (fun s r => s.releaseKept r (s.slice n).relAt 64) s
      else
        let s1 := s.onSlice n fun x => { x with releasing := false, relWb := [], relCmd := [], relHost := [] }
        let s2 := rs.foldl (fun s r => s.ringRoom r) s1
        let owed := (s2.ctxs.filter fun x => x.2.ctx.owner == n && x.2.overrunOwed).map Prod.fst
        (owed.foldl (fun s e => (s.endpointEvent e 0).onCtx e fun k => { k with overrunSaid := true, overrunOwed := false }) s2).refresh 0

/-- The same for the slice of a ring. -/
def releaseOf (s : State) (r : Nat) : State :=
  match (s.ring r).slice with
  | some n => s.releaseStep n
  | none => s

end State

/-- The oldest record that waits for a ring is written once the ring has room (R265, R266, R280). A block of a slice that the ring no longer belongs to stays
in its pocket, and holds back no other's (R264). -/
def execStreamRecordWrite (ring : Nat) (s : State) : Host.Outcome State Fault Refusal :=
  match s.smp.queue.find? (fun r => r.ring == ring && r.owner.all fun n => (s.ring ring).slice == some n) with
  | some r =>
    if s.streamRing ring && !(s.ring ring).geoOk then .next (s.geoFail ring)
    else if s.recReady r then
      let s1 := (s.writeRec r).onSmp fun m => { m with queue := m.queue.erase r }
      let s2 := match r.span with
        | some x => if s1.smp.queue.any (fun q => q.span == some x) then s1 else s1.onCoder x.1 fun y => { y with lastCseq := some x.2 }
        | none => s1
      .next (s2.sampleDone.slotsFreed.releaseOf ring)
    else .next s
  | none => .next s

/-- The oldest closed span of a stream is coded, at the first tick at least CODE_DELAY frames after its last input landed; past the tick CODE_DELAY + 2
frames after it, it is emitted raw (R291). -/
def execCoderBlockCode (k : Nat) (s : State) : Host.Outcome State Fault Refusal :=
  match (s.coder k).bind fun c => c.closed.head?.map fun p => (c, p) with
  | some (c, p) =>
    if !later32 ((p.frame + c.delay) % 2 ^ 32) s.frameNo then .next (s.codeSpan k (!later32 ((p.frame + c.delay + 2) % 2 ^ 32) s.frameNo)) else .next s
  | none => .next s

/-- A span not coded by the tick CODE_DELAY + 2 frames after its last input is emitted raw (R291). -/
def execCoderLateRaw (k : Nat) (s : State) : Host.Outcome State Fault Refusal :=
  match (s.coder k).bind fun c => c.closed.head?.map fun p => (c, p) with
  | some (c, p) => if !later32 ((p.frame + c.delay + 2) % 2 ^ 32) s.frameNo then .next (s.codeSpan k true) else .next s
  | none => .next s

/-- A full-width read of GTH_EVT (R468). -/
def execGthEvtRead (both : Bool) (s : State) : Host.Outcome State Fault Refusal :=
  s.readReady (.next (s.eventRead .GTH_EVT .GTH_EVT_SHADOW 0 both 130))

/-- A full-width read of CDR_EVT (R468). -/
def execCdrEvtRead (both : Bool) (s : State) : Host.Outcome State Fault Refusal :=
  s.readReady (.next (s.eventRead .CDR_EVT .CDR_EVT_SHADOW 0 both 131))

end Sys2Proof.Machine
end

