-- ==== Sys2Proof/Machine/Txn.lean ====
section
/-! DEFINITION. Machine/Txn.lean: transactions on a root port (chapter 04): their start, the controller's action on each answer
(Table 4.5), retries (R130, R240), backoff (R236, R237), and the ends of transfers. -/

namespace Sys2Proof.Machine

/-- PIDs of Table 3.5. -/
def pidCallIn : Nat := 1
def pidCallOut : Nat := 2
def pidSetup : Nat := 3
def pidPing : Nat := 4
def pidAck : Nat := 8
def pidNak : Nat := 9
def pidNotyet : Nat := 10
def pidStall : Nat := 11

namespace State

/-! ### Start (R122–R125, R218, R219) -/

/-- An EVENT of an endpoint waits for its MCONF, its transaction not ended (R389). -/
def eventHeld (s : State) (eph : Nat) : Bool := (Tbl.find s.twin.heldEvents eph).isSome

/-- A TAG that a transaction on an endpoint of root port `n` may take (R123): not in flight on the port, nor waiting for its ACK, and for a retry not
that of the attempt given up. -/
def tagOk (s : State) (n tag eph : Nat) (retry : Bool) (avoid : Option Nat) : Bool :=
  decide (tag < 16) && (s.txns.all fun x => x.port != n || x.tag != tag) && (s.twin.heldEvents.all fun x => Eph.port x.1 != n || x.2.1 % 16 != tag) &&
    avoid != some tag && !(retry && avoid.isNone && Tbl.get 16 s.deal.lastTag eph == tag)

/-- A downstream packet of a transaction on an endpoint. -/
def ctxPkt (c : Ctx) (tag pid dir pflags : Nat) (payload : List Byte) : Pkt :=
  ⟨pid, false, c.route, tag, dir, Eph.ep c.eph, Eph.addr c.eph, pflags, payload⟩

/-- The direction field of a transaction: that of the handle, and IN for a CALL_IN on endpoint 0. -/
def callDir (c : Ctx) (kind : TxnKind) : Nat := if Eph.ep c.eph = 0 then (if kind = .callIn then 1 else 0) else Eph.dir c.eph

/-- The packets of a transaction leave on its root port (Table 4.4); the DATA of a COMMAND is timed and paired. -/
def sendTxn (s : State) (x : Txn) (c : Ctx) (execAt : Nat) : State :=
  let l := LinkEndId.port (.root x.port)
  let d := callDir c x.kind
  match x.kind with
  | .callIn => s.sendPkt l (ctxPkt c x.tag pidCallIn d c.cls [])
  | .ping => s.sendPkt l (ctxPkt c x.tag pidPing d c.cls [])
  | .setup => s.sendPkt l (ctxPkt c x.tag pidSetup d c.cls x.data)
  | .callOut => s.sendPkts l [ctxPkt c x.tag pidCallOut d c.cls [], ctxPkt c x.tag (6 + x.toggle % 2) d 0 x.data]
  | .command =>
    s.sendPkts l [ctxPkt c x.tag pidCallOut d c.cls [], ctxPkt c x.tag (6 + x.toggle % 2) d 3 (leBytes 8 execAt ++ x.data)]

/-- The data that an entry's next transaction carries. -/
def outData (e : Entry) (c : Ctx) (kind : TxnKind) : List Byte :=
  match kind with
  | .setup => e.setup
  | .command => e.data
  | .callOut => if c.cls = 0 ∧ e.stage = 2 then [] else (e.data.drop e.moved).take (min c.mps (e.left c.cls))
  | _ => []

/-- The stored intent that an item without an entry carries (R394). -/
def itemIntent (s : State) (x : HandItem) : Option Intent :=
  if x.kind = .command ∧ x.entry.isNone then Tbl.find s.twin.resolving x.eph else none

/-- Attempts made on an endpoint's transaction so far, with this one. -/
def attemptOf (s : State) (k : CtxSlot) (x : HandItem) : Nat :=
  if x.cls = 3 then 2
  else match x.entry.bind s.entry? with
    | some e => if e.started then k.ctx.errCnt + 1 else 1
    | none => k.ctx.errCnt + 1

/-- The cost of a transaction that starts, under R242, for its trace record: that of a periodic one or of a retry is made here, since nothing is charged for
it when it is composed (log entry 110). -/
def startCost (x : HandItem) (c : Ctx) (data : List Byte) : Nat :=
  if x.cost ≠ 0 then x.cost
  else match x.kind with
    | .command => 104 + 2 * data.length
    | .callOut => 72 + data.length
    | .callIn => 72 + c.mps
    | .setup => 48 + data.length
    | .ping => 48

/-- An item starts at `t` (R218): it gets a tag, its packets leave, and the START trace record is made. -/
def startItem (s : State) (n t o : Nat) (h : Hand) (x : HandItem) (k : CtxSlot) (tag : Nat) : State :=
  let c := k.ctx
  let e := x.entry.bind s.entry?
  let int_ := s.itemIntent x
  let toggle := match int_ with
    | some i => i.toggle
    | none => if c.cls = 2 then 0 else c.toggle
  let data := match int_, e with
    | some i, _ => i.data
    | none, some e => outData e c x.kind
    | none, none => []
  let ex := match int_, e with
    | some i, _ => i.execAt
    | none, some e => s.execAt e
    | none, none => 0
  let tx : Txn := { port := n, tag, eph := x.eph, kind := x.kind, toggle, data, entry := x.entry, attempt := s.attemptOf k x, frame := h.frame, cut := false }
  let s1 := { s with txns := s.txns ++ [tx] }.onDeal fun d => { d with lastTag := Tbl.put d.lastTag x.eph tag }
  let s2 := match x.entry with
    | some id => s1.onEntry id fun e => { e with started := true }
    | none => s1
  let s3 := ((s2.ctxTouch x.eph).onCtx x.eph fun k => { k with ran := true }).onRun n fun h => { h with nextAt := o + x.s, lastA := x.a }
  let s4 := s3.sendTxn tx c ex
  let (ring, idx) := s.itemTd x
  s4.trace 2 h.frame (some n) (some x.slice) (some x.eph) c.cls 0 ring idx t (bit x.lateFill * 2 ^ 20 + tag * 2 ^ 16 + tx.attempt)
    (startCost x c data)

/-- Items of a hand that can no longer run are removed; the later slots move earlier (R217, R251). -/
def pruneItems (s : State) (l : List HandItem) : List HandItem := l.filter fun x => s.alive x && s.runs x.eph

/-- An IN transaction has room for a packet in its pocket now; a CYCLIC one needs none (R159). An EVENT endpoint whose last event waits for its MCONF is
not polled (R127). -/
def roomNow (s : State) (x : HandItem) : Bool :=
  match x.kind, s.ctx? x.eph with
  | .callIn, some k => k.ctx.cls == 2 || ((k.room k.ctx.mps || (k.ctx.cls == 0 && x.plan == 0)) && !s.eventHeld x.eph)
  | _, _ => true

/-- A transaction of the endpoint is in flight (R127): for CYCLIC, as many as its interval's blocks. -/
def busy (s : State) (x : HandItem) : Bool :=
  let inFlight := (s.txns.filter fun t => t.eph == x.eph).length
  match s.ctx? x.eph with
  | some k => if k.ctx.cls = 2 then decide (k.ctx.burst + 1 ≤ inFlight) else decide (1 ≤ inFlight)
  | none => true

/-- TRANSACTION_START on a root port at `t`: late fill, then the first unstarted item starts if its slot has come, the port can carry it
and it ends before the guard band; a periodic one that would not has missed its hand (R218, R219, R246, R249). -/
def startNext (s : State) (n tag t : Nat) : State :=
  match s.handRun n with
  | none => s
  | some h0 =>
    if s.portState (.root n) != 4 || !(s.link (.port (.root n))).up || !s.treeRuns n h0.frame || (s.port (.root n)).susp == .sent then s
    else
      let o := (t - s.tim.tickAt) * 10
      let span := s.frameSpan s.tim.tickAt
      let idle := !s.composes n h0.frame || s.rateEmpty n h0.frame
      let (s1, h1) := if idle then (s, h0) else s.fill n span o true (some 4) h0 8
      let started := h1.items.filter (·.started)
      match s1.pruneItems (h1.items.filter fun x => !x.started) with
      | [] => s1.onRun n fun _ => { h1 with items := started }
      | x :: rest =>
        let keep := s1.onRun n fun _ => { h1 with items := started ++ x :: rest }
        if o < h1.nextAt + (h1.lastA - x.a) * 10 ∨ s1.busy x then keep
        else if !s1.roomNow x then
          let s2 := s1.onRun n fun _ => { h1 with items := started ++ rest }
          (match x.entry with
           | some id => s2.toHead id
           | none => s2)
        else if !fits o x.s x.a span then
          (if 5 ≤ x.cls then keep
           else if x.cls = 3 then s1.onRun n fun _ => { h1 with items := started ++ rest }
           else
             let s2 := if x.retry || x.cls == 4 then s1 else s1.countN .SCH_ADM_STS_LATE_CNT 0 1
             let (s3, h2) := s2.missItem n 2 { h1 with items := started ++ rest, guard := true } x
             s3.onRun n fun _ => h2)
        else if x.kind = .command ∧ ¬ s1.intentConfirmed x.eph then
          let (s2, h2) := s1.missItem n 2 { h1 with items := started ++ rest } x
          s2.onRun n fun _ => h2
        else match s1.ctx? x.eph with
          | some k =>
            if s1.tagOk n tag x.eph (s1.attemptOf k x != 1) x.avoid then
              (s1.onRun n fun _ => { h1 with items := started ++ { x with started := true } :: rest }).startItem n t o h1 x k tag
            else keep
          | none => keep

/-! ### Ends of transfers -/

/-- The context's counters of failed attempts and duplicates start again; for EVENT so does whether an answer arrived poisoned, which is counted over
consecutive polls, where it otherwise holds for a transfer (R130). -/
def ctxCalm (s : State) (eph : Nat) : State :=
  s.onCtx eph fun k => { k with ctx := k.ctx.setErrCnt 0, poisonSeen := k.poisonSeen && k.ctx.cls != 3, dups := 0 }

/-- An endpoint's toggle flips. -/
def flip (s : State) (eph : Nat) : State :=
  s.onCtx eph fun k => { k with ctx := k.ctx.setToggle (1 - k.ctx.toggle), dirty := true }

/-- The poll's outcome completes the oldest TRANSFER that waits on the EVENT endpoint (R130). -/
def eventOutcome (s : State) (eph status : Nat) : State :=
  match s.entries.find? (fun e => e.eph == eph && e.done.isNone && e.kind == 0 && e.st == .ready) with
  | some e => s.finish e.id status
  | none => s

/-- The outcome of a stored intent, for which no TD stands (R394). -/
def intentDone (s : State) (eph status stamp : Nat) : State :=
  if (Tbl.find s.twin.resolving eph).isSome then
    (s.event1 evTwin status 0 (9 * 2 ^ 28 + eph % 2 ^ 25) stamp).onTwin fun w => { w with resolving := Tbl.del w.resolving eph }
  else s

/-- A transaction's transfer completes with a status. -/
def txnDone (s : State) (x : Txn) (status stamp : Nat) (late : Bool) : State :=
  let s1 := (s.ctxCalm x.eph).onCtx x.eph fun k => { k with poisonSeen := false }
  let s2 := if x.kind = .command then s1.mirrorDone x.eph x.toggle status stamp late else s1
  match x.entry with
  | some id => s2.finish id status
  | none => if x.kind = .command then s2.intentDone x.eph status stamp else if s.classOf x.eph = 3 then s2.eventOutcome x.eph status else s2

/-- A halt with a status (R129): the transfer completes and the context halts; on endpoint 0 only the transfer ends. -/
def txnHalt (s : State) (x : Txn) (status : Nat) : State := (s.txnDone x status 0 false).ctxHalt x.eph status

/-! ### Continuing a transfer -/

/-- The entry goes back to its list: the tail after a transaction with data still to transfer, the head for a retry (R240, R243). It keeps the place
that it has, and needs none while all that is left is composed. -/
def again (s0 : State) (x : Txn) (head : Bool) : State :=
  match x.entry.bind s0.entry? with
  | some e =>
    let s := s0.load e.id
    if e.done.isSome then s
    else if (s.entry? e.id).any Entry.readFailed then (s.finish e.id stHostError).refresh 0
    else match s.ctx? e.eph with
      | some k =>
        let all := k.ctx.cls = 4 ∧ 0 < s.aheadOf e none ∧ e.left 4 ≤ s.aheadOf e none
        if k.ctx.state ≠ 2 then ((s.unlist e.id).onEntry e.id fun e => { e with st := .waiting }).judge 0 e.id
        else if !head ∧ (all ∨ s.deal.lists.any fun l => l.entry == e.id) then s
        else (s.unlist e.id).enlist e head 0
      | none => s
  | none => s0

/-- Places of the delay lists in use (R235). -/
def delayed (s : State) : Nat := (s.entries.filter fun e => e.delay.isSome).length

/-- An entry goes on the delay list with a time key, what is composed of it leaving the hands; with every place in use it joins the tail of its list at once (R239). -/
def delayEntry (s : State) (x : Txn) (key why : Nat) : State :=
  if 32768 ≤ s.delayed then
    match x.entry.bind s.entry? with
    | some e => if e.done.isSome || !s.runs e.eph then s.again x false else (s.unlist e.id).enlist e false 0
    | none => s
  else match x.entry.bind s.entry? with
    | some e =>
      if e.done.isSome then s
      else ((((s.unlist e.id).offHand e.id).onDeal fun d => { d with delaySeq := d.delaySeq + 1 }).onEntry e.id fun e =>
        { e with st := .waiting, delay := some (.time key), delayNo := s.deal.delaySeq }).traceEntry 4 e 0 key (e.nakRun % 256 * 256 + why) 0
    | none => s

/-- NAK of a CONTROL or BULK transaction at `t`: the exponential backoff (R236). -/
def nakBackoff (s : State) (x : Txn) (t : Nat) : State :=
  let s1 := s.count .SCH_NAK_CNT_NAKS
  match x.entry.bind s.entry? with
  | some e =>
    let k := e.nakRun + 1
    let base := max 100 (s.fget .SCH_BACKOFF_BASE_NS)
    let cap := max 1 (s.fget .SCH_BACKOFF_CAP_US) * 1000
    let wait := if 40 ≤ k then cap else min (base * 2 ^ (k - 1)) cap
    (s1.onEntry e.id fun e => { e with nakRun := k }).delayEntry x (t + wait) 1
  | none => s1

/-- The PING interval (R237, Table 7.11). -/
def pingGap (s : State) : Nat := max 1000 (min 1000000 (s.fget .SCH_PINGGAP_GAP_NS))

/-- A transaction completed: its timestamp and class are the transfer's last (R64, R65, R182). -/
def stamped (s : State) (x : Txn) (ts : Nat) : State :=
  match x.entry with
  | some id => s.onEntry id fun e => { e with ts := some ts, qc := s.tim.tickClass, nakRun := 0 }
  | none => s

/-- ACK of accepted IN DATA (Table 4.4). -/
def ackIn (s : State) (x : Txn) (c : Ctx) : State :=
  s.sendPkt (.port (.root x.port)) (ctxPkt c x.tag pidAck (callDir c x.kind) 0 [])

/-- What the controller does to its contexts when a standard request completes OK (Table 4.9, Table 4.17); without ENDPOINT events
where an endpoint command runs it (R188). -/
def actedOn (s : State) (eph : Nat) (setup : List Byte) (quiet : Bool) : State :=
  let port := Eph.port eph
  let addr := Eph.addr eph
  let target := Eph.mk port addr (setupIndex setup / 128 % 2) (setupIndex setup % 64)
  let clear (s : State) : State :=
    if (s.ctx? target).isSome then (s.ctxApply target (.clear target) quiet).refresh 0
    else s.onCmgr fun m => { m with events := m.events ++ [(.clear target, quiet)] }
  match setupReq setup with
  | 0x01 => clear s
  | 0x02 => clear s
  | 0x09 => (s.ctxAll (.config port addr (setupValue setup == 1))).refresh 0
  | _ => s

/-- The status stage of a control transfer completed: OK, or SHORT where the data stage was short of LENGTH (Table 4.19); a request that
is acted on takes effect. -/
def controlOk (s : State) (x : Txn) (e : Entry) : State :=
  let short := setupIn e.setup && decide (e.moved < setupLen e.setup)
  let s1 := s.txnDone x (if short then stShort else stOk) 0 false
  if short then s1 else s1.actedOn e.eph e.setup e.forCmd.isSome

/-- The control transfer moves to a stage: the data and status stages start with DATA1 (Table 4.7). -/
def toStage (s : State) (x : Txn) (id st : Nat) : State :=
  ((s.onEntry id fun e => { e with stage := st }).onCtx x.eph fun k => { k with ctx := k.ctx.setToggle 1, dirty := true }).again x false

/-- IN DATA with the expected toggle and an allowed length (Table 4.5). Data that finds no room in the pocket is not acknowledged, but for a CYCLIC block
(R126). -/
def acceptIn (s : State) (x : Txn) (k : CtxSlot) (p : Pkt) (tEnd : Nat) : State :=
  let c := k.ctx
  let d := p.data
  let s0 := (s.ackIn x c).ctxCalm x.eph
  if c.cls ≠ 2 ∧ !d.isEmpty ∧ !k.room d.length then s.again x true
  else if c.cls = 2 then
    if x.cut then s0 else s0.blockLand ⟨x.eph, p.stamp, leNat (d.take 2), d, s.tim.tickClass, s.frameNo⟩
  else if c.cls = 3 ∧ x.cut = true then s0.flip x.eph
  else if c.cls = 3 then
    let s1 := (s0.flip x.eph).pocketPut x.eph d
    let s2 := s1.onCtx x.eph fun k => { k with events := k.events ++ [⟨p.stamp, d, p.more, s.tim.tickClass⟩] }
    (s2.triggerLand x.eph p.stamp).refresh 0
  else match x.entry.bind s.entry? with
    | none => s0.flip x.eph
    | some e =>
      let s1 := (s0.flip x.eph).stamped x tEnd
      if c.cls = 0 ∧ e.stage = 2 then s1.controlOk x e
      else
        let s2 := (s1.pocketPut x.eph d).onEntry e.id fun e => { e with data := e.data ++ d, moved := e.moved + d.length, landed := s1.tim.now }
        let last_ := decide (d.length < c.mps) || decide (e.left c.cls ≤ d.length)
        if !last_ then s2.again x false
        else if c.cls = 0 then s2.toStage x e.id 2
        else s2.txnDone x (if e.moved + d.length = e.len then stOk else stShort) 0 false

/-- IN DATA is longer than R120 or the transfer allows, or lacks TIMED where Table 4.3 requires it. -/
def inBad (s : State) (x : Txn) (c : Ctx) (p : Pkt) : Bool :=
  let n := p.data.length
  if c.cls = 2 ∨ c.cls = 3 then !p.timed || decide (c.mps < n)
  else match x.entry.bind s.entry? with
    | some e => decide (c.mps < n) || (if c.cls = 0 ∧ e.stage = 2 then decide (0 < n) else decide (e.left c.cls < n))
    | none => decide (c.mps < n)

/-- EVENT DATA of a mirrored endpoint: the record goes to the partner, and the ACK waits for the MCONF (R389). -/
def holdEvent (s : State) (x : Txn) (p : Pkt) : State :=
  let n := s.twin.mseqTx
  (s.mirrorSend 3 x.eph x.toggle 0 p.stamp false p.data).onTwin fun w => { w with heldEvents := Tbl.put w.heldEvents x.eph (n * 16 + x.tag, p) }

/-- An answer to a CALL_IN. -/
def answerIn (s : State) (x : Txn) (k : CtxSlot) (p : Pkt) (t tEnd : Nat) : State :=
  let c := k.ctx
  if p.pid = 6 ∨ p.pid = 7 then
    if p.pid = 6 + x.toggle % 2 then
      (if s.inBad x c p then s.txnHalt x stBabble
       else if c.cls = 3 ∧ s.mirrored x.eph ∧ x.cut = false then s.holdEvent x p
       else s.acceptIn x k p tEnd)
    else
      let s0 := match x.entry with
        | some id => s.onEntry id fun e => { e with nakRun := 0 }
        | none => s
      let s1 := (s0.ackIn x c).count .SCH_XERR_DUPLICATES
      if k.dups = 0 then
        ({ s1 with txns := s1.txns ++ [{ x with depart := none }] }.onCtx x.eph fun k => { k with dups := 1 }).sendPkt (.port (.root x.port))
          (ctxPkt c x.tag pidCallIn (callDir c x.kind) c.cls [])
      else s1.txnHalt x stToggle
  else if p.pid = pidNak then
    (if c.cls = 2 ∨ c.cls = 3 then s.ctxCalm x.eph else (s.ctxCalm x.eph).nakBackoff x t)
  else s.txnHalt x stBabble

/-- The data of a CALL_OUT was accepted: the toggle flips, and the next packet follows, after a PING where the answer was NOTYET. -/
def acceptOut (s : State) (x : Txn) (k : CtxSlot) (t tEnd : Nat) (notyet : Bool) : State :=
  match x.entry.bind s.entry? with
  | none =>
    let s1 := (s.ctxCalm x.eph).flip x.eph
    if notyet then s1.onCtx x.eph fun k => { k with ctx := k.ctx.setPing true, dirty := true } else s1
  | some e =>
    let c := k.ctx
    let s1 := ((((s.ctxCalm x.eph).flip x.eph).stamped x tEnd).pocketFree x.eph x.data.length).onEntry e.id fun e =>
      { e with moved := e.moved + x.data.length }
    let s2 := if notyet then s1.onCtx x.eph fun k => { k with ctx := k.ctx.setPing true, dirty := true } else s1
    if c.cls = 0 ∧ e.stage = 2 then s2.controlOk x e
    else if e.left c.cls ≤ x.data.length then
      (if c.cls = 0 then
        (let s3 := (s2.onEntry e.id fun e => { e with stage := 2 }).onCtx x.eph fun k => { k with ctx := k.ctx.setToggle 1, dirty := true }
         if notyet then s3.delayEntry x (t + s.pingGap) 2 else s3.again x false)
       else s2.txnDone x stOk 0 false)
    else if notyet then s2.delayEntry x (t + s.pingGap) 2
    else s2.again x false

/-- An answer to a CALL_OUT. -/
def answerOut (s : State) (x : Txn) (k : CtxSlot) (p : Pkt) (t tEnd : Nat) : State :=
  if p.pid = pidAck then s.acceptOut x k t tEnd false
  else if p.pid = pidNotyet then s.acceptOut x k t tEnd true
  else if p.pid = pidNak then (s.ctxCalm x.eph).nakBackoff x t
  else s.txnHalt x stBabble

/-- The echo of a COMMAND (R131, R180); one that differs is reported (R410, Table 13.6). -/
def answerCommand (s : State) (x : Txn) (k : CtxSlot) (p : Pkt) : State :=
  if p.pid = 6 + x.toggle % 2 then
    let st := if p.timed then some p.stamp else none
    let s1 := (((s.ackIn x k.ctx).ctxCalm x.eph).flip x.eph)
    let s2 := match x.entry with
      | some id => s1.onEntry id fun e => { e with ts := st, qc := s.tim.tickClass, late := p.late }
      | none => s1
    if p.timed && p.compl && p.data == x.data then
      let s3 := match x.entry with
        | some id => s2.onEntry id fun e => { e with moved := e.len }
        | none => s2
      s3.txnDone x stOk p.stamp p.late
    else
      let s3 := match x.entry.bind s2.entry? with
        | some e => s2.integrity 6 ((e.tds.head?.map Prod.fst).getD 0) e.ring e.slice 0
        | none => s2
      (s3.txnDone x stIntegrity (st.getD 0) p.late).ctxHalt x.eph stIntegrity
  else s.txnHalt x stBabble

/-- The answer to a SETUP; a port reset that the SETUP carries takes effect when the hub ACKs it (R149). The TIER of a hub's context is its
hub tier (R95): 1 on a root port. -/
def answerSetup (s : State) (x : Txn) (k : CtxSlot) (p : Pkt) (t tEnd : Nat) : State :=
  if p.pid = pidAck then
    let s0 := s.ctxCalm x.eph
    let s1 := match x.entry.bind s.entry? with
      | some e => (s0.stamped x tEnd).toStage x e.id (if setupLen e.setup = 0 then 2 else 1)
      | none => s0.onCtx x.eph fun k => { k with ctx := k.ctx.setToggle 1, dirty := true }
    if setupReq x.data = 0x41 ∧ setupValue x.data = 1 ∧ k.ctx.tier ≠ 0 then
      let above := 5 * (k.ctx.tier - 1)
      s1.busReset x.port (k.ctx.route % 2 ^ above + setupIndex x.data % 32 * 2 ^ above) k.ctx.tier
    else s1
  else if p.pid = pidNak then (s.ctxCalm x.eph).nakBackoff x t
  else s.txnHalt x stBabble

/-- The answer to a PING (R134, R237). -/
def answerPing (s : State) (x : Txn) (p : Pkt) (t : Nat) : State :=
  match x.entry.bind s.entry? with
  | none => if p.pid = pidAck then (s.ctxCalm x.eph).onCtx x.eph fun k => { k with ctx := k.ctx.setPing false, dirty := true } else s
  | some e =>
    if p.pid = pidAck then
      (((s.ctxCalm x.eph).onEntry e.id fun e => { e with nyFrom := none, nakRun := 0 }).onCtx x.eph fun k =>
        { k with ctx := k.ctx.setPing false, dirty := true }).again x false
    else if p.pid = pidNak then
      (((s.ctxCalm x.eph).count .SCH_NAK_CNT_PING_NAKS).onEntry e.id fun e => { e with nyFrom := some (e.nyFrom.getD x.frame) }).delayEntry x
        (t + s.pingGap) 2
    else s.txnHalt x stBabble

/-- A transaction's outcome falls on a context that is no longer RUNNING: what waited behind it is judged now, in take order (R226). -/
def afterOutcome (s : State) (eph : Nat) : State := if s.runs eph then s else s.refresh 0

/-- The controller acts on an answer to a transaction that is in flight no more (Table 4.5). -/
def takeAnswer (s : State) (x : Txn) (p : Pkt) (t tEnd : Nat) : State :=
  let s0 := s.useCtx x.eph
  match s0.ctx? x.eph with
  | none => s0
  | some k =>
    if k.bad then s0.txnDone x stIntegrity 0 false
    else if p.pid = pidStall then s0.txnHalt x (if p.pflags % 16 = 4 then stIntegrity else stStall)
    else match x.kind with
      | .callIn => s0.answerIn x k p t tEnd
      | .callOut => s0.answerOut x k p t tEnd
      | .command => s0.answerCommand x k p
      | .setup => s0.answerSetup x k p t tEnd
      | .ping => s0.answerPing x p t

/-- The trace record of an answer, late ones marked by bit 4, or of the end of T_wait. -/
def traceAnswer (s : State) (x : Txn) (t pid : Nat) : State :=
  let (sl, ring, idx) := match x.entry.bind s.entry? with
    | some e => (some e.slice, e.ring, (e.tds.head?.map Prod.fst).getD 0)
    | none => ((s.ctx? x.eph).map fun k => k.ctx.owner, 0, 0)
  s.trace 3 x.frame (some x.port) sl (some x.eph) (s.classOf x.eph) 0 ring idx t pid 0

/-! ### No answer (R128, R130, R240) -/

/-- The rate of the upstream link of an endpoint's device (R128): the root link where its route is empty, else that of the device's own upstream end; 1
where no such device stands on the tree (log entry 97). -/
def ownRate (s : State) (n route : Nat) : Nat :=
  if route = 0 then (s.link (.port (.root n))).rate
  else match s.devOn n route with
    | some d => (s.link (.dev d ((s.upOf d).getD 0))).rate
    | none => 1

/-- T_wait in ns (R128): L_rx and T_ans of Table 3.3 at the rate of the endpoint's own upstream link. -/
def waitNs (s : State) (n : Nat) (c : Ctx) : Nat := c.rtt + (if s.ownRate n c.route = 0 then 40 else 400) + 500 + 200

/-- An instant, in tenths of a ns, lies at or after T_wait of a transaction whose packets have left. -/
def waited (s : State) (x : Txn) (t10 : Nat) : Bool :=
  match x.depart, s.ctx? x.eph with
  | some d, some k => decide (d + s.waitNs x.port k.ctx * 10 ≤ t10)
  | _, _ => false

/-- The item of a retry in the running hand: after the CYCLIC retries, ahead of any CONTROL or BULK (Table 7.2, R217). -/
def retryItem (s : State) (x : Txn) (k : CtxSlot) (cls : Nat) : HandItem :=
  let n := x.port
  let slow := (Tbl.get [] s.sched.active n).any fun e => schedEph e.word == x.eph && schedSlow e.word
  { cls := cls, eph := x.eph, kind := x.kind, entry := x.entry, s := slotAt (s.byteTime n) slow k.ctx.cls k.ctx.mps, a := turnaround k.ctx,
    cost := 0, slice := k.ctx.owner, retry := true, started := false, lateFill := false,
    avoid := if cls = 3 then some x.tag else none }

/-- An item put before the first unstarted one of a later class. -/
def insertItem (x : HandItem) : List HandItem → List HandItem
  | [] => [x]
  | y :: r => if !y.started && decide (x.cls < y.cls) then x :: y :: r else y :: insertItem x r

/-- A retry joins the running hand where it passes the test of R219 there. -/
def retryFits (s : State) (x : Txn) (i : HandItem) : Bool :=
  match s.handRun x.port with
  | some h => h.frame == x.frame &&
      fits (nextStart { h with items := h.items.filter fun y => decide (y.cls ≤ i.cls) } ((s.tim.now - s.tim.tickAt) * 10) i.a) i.s i.a
        (s.frameSpan s.tim.tickAt)
  | none => false

/-- There is no answer: a retry with the same toggle, or the end after RETRY_LIM + 1 attempts. -/
def noAnswer (s0 : State) (x : Txn) : State :=
  let s := s0.useCtx x.eph
  match s.ctx? x.eph with
  | none => s
  | some k =>
    let c := k.ctx
    if k.bad then s.txnDone x stIntegrity 0 false
    else if c.cls = 2 then
      (let i := s.retryItem x k 3
       if x.attempt = 1 && s.retryFits x i then s.onRun x.port fun h => { h with items := insertItem i h.items } else s)
    else
      let failed (s : State) : State := s.onCtx x.eph fun k => { k with ctx := k.ctx.setErrCnt (min 7 x.attempt) }
      let s1 := failed s
      if c.retryLim + 1 ≤ x.attempt then
        let st := if k.poisonSeen then stCrcFail else stNoResponse
        let s2 := if c.cls = 3 then s1.txnDone x st 0 false else failed (s1.txnDone x st 0 false)
        if c.cls = 1 ∨ c.cls = 4 then s2.ctxHalt x.eph st else s2
      else if c.cls = 3 then s1
      else if c.cls = 1 then
        let i := s1.retryItem x k 4
        if s1.retryFits x i then s1.onRun x.port fun h => { h with items := insertItem i h.items }
        else match x.entry with
          | some id => s1.toHead id
          | none => s1
      else s1.again x true

end State

end Sys2Proof.Machine
end

