-- ==== Sys2Proof/Machine/CmdBase.lean ====
section
/-! DEFINITION. Machine/CmdBase.lean: the audit log (R456, R457), and what every command of a COMMAND ring has in common (R193–R196):
taking it, its first checks, its completion. -/

namespace Sys2Proof.Machine

/-! ### Audit log -/

namespace State

def onAudit (s : State) (f : Audit → Audit) : State := { s with audit := f s.audit }

/-- Ring 3 takes a record now. -/
def auditOpen (s : State) : Bool := (s.ring 3).st == 1 && (s.ring 3).room

/-- A record written on ring 3, with CHAIN: the CRC-32C of the record written before it, its PHASE taken as zero. -/
def auditWrite (s : State) (b : List Byte) : State :=
  let r := b.take 60 ++ leBytes 4 s.audit.chain
  (s.onAudit fun a => { a with chain := (crc32c r).toNat }).putRecord 3 r

/-- An audit record (Table 15.7), produced now; it waits on chip while ring 3 takes none, and is lost when 256 wait. -/
def auditRecord (s : State) (kind role sl status info : Nat) (detail : List Byte) : State :=
  let b := leBytes 1 kind ++ leBytes 3 0 ++ leBytes 4 s.audit.seq ++ leBytes 8 s.tim.now ++ leBytes 1 role ++ leBytes 1 sl ++
    leBytes 1 status ++ leBytes 1 0 ++ leBytes 4 info ++ (detail ++ List.replicate 32 0).take 32 ++ leBytes 4 0 ++ leBytes 4 0
  let s1 := s.onAudit fun a => { a with seq := (a.seq + 1) % 2 ^ 32 }
  if s.auditOpen && s.audit.held.isEmpty && s.fget .SEC_AUDIT_LOST == 0 then s1.auditWrite b
  else if s.audit.held.length < 256 then
    let s2 := s1.onAudit fun a => { a with held := a.held ++ [b] }
    if s.audit.held.length = 255 then s2.raise .SEC_EVT_AUDIT_FULL else s2
  else s1.count .SEC_AUDIT_LOST

/-- Waiting records written while ring 3 has room; the fuel is their number. -/
def auditDrain (s : State) : Nat → State
  | 0 => s
  | n + 1 =>
    match s.audit.held with
    | b :: rest => if s.auditOpen then auditDrain ((s.onAudit fun a => { a with held := rest }).auditWrite b) n else s
    | [] => s

/-- Room returned on ring 3: a LOST record with the count first, then the waiting ones (R457). -/
def auditFlush (s : State) : State :=
  if s.auditOpen then
    let lost := s.fget .SEC_AUDIT_LOST
    let s1 := if lost = 0 then s
      else ((s.fset .SEC_AUDIT_LOST 0).onAudit fun a => { a with seq := (a.seq + 1) % 2 ^ 32 }).auditWrite
        (leBytes 1 0x0A ++ leBytes 3 0 ++ leBytes 4 s.audit.seq ++ leBytes 8 s.tim.now ++ leBytes 4 0 ++ leBytes 4 lost ++
          List.replicate 40 0)
    s1.auditDrain 256
  else s

end State

/-! ### Errors of the PCIe link (R416) -/

namespace State

/-- A correctable error of the PCIe endpoint. -/
def aerCorr (s : State) (b : Nat) : State := { s with aer := { s.aer with corr := nset s.aer.corr b b 1 } }

/-- An uncorrectable error; the first that is unmasked leaves its header. `quiet`: it is reported as an advisory error, or masked. -/
def aerUncorr (s : State) (b : Nat) (header prefix_ : List Byte) (quiet : Bool) : State :=
  let a := { s.aer with uncorr := nset s.aer.uncorr b b 1 }
  { s with aer := if quiet || a.first.isSome then a else { a with first := some b, header := header, prefix_ := prefix_ } }

end State

/-! ### What an opcode may be given (Tables 5.21, 5.22, 6.11, 8.16, 10.13, 12.11, 15.10) -/

/-- The opcodes that the manager alone issues. -/
def cmdManagerOnly (op : Nat) : Bool :=
  [0x10, 0x11, 0x15, 0x17, 0x20, 0x21, 0x22, 0x23, 0x31, 0x33, 0x70, 0x71, 0x72, 0x74, 0x75, 0x76, 0x77, 0x7C].contains op ||
  decide (0x40 ≤ op ∧ op ≤ 0x4A) || decide (0x60 ≤ op ∧ op ≤ 0x63)

/-- The opcodes that the manager and tenants issue. -/
def cmdShared (op : Nat) : Bool :=
  [0x12, 0x13, 0x14, 0x16, 0x18, 0x30, 0x32].contains op || decide (1 ≤ op ∧ op ≤ 5) || decide (0x58 ≤ op ∧ op ≤ 0x5D)

/-- Every other opcode is reserved (R196). -/
def cmdReserved (op : Nat) : Bool := !cmdManagerOnly op && !cmdShared op

/-- The commands that are carried out in SAFE (R443). -/
def cmdSafe (op : Nat) : Bool := [0x70, 0x74, 0x75, 0x77, 0x7C].contains op

/-- The fields that a command's arguments may use. -/
def cmdFields (op : Nat) : List (Nat × Nat) × List (Nat × Nat) × List (Nat × Nat) :=
  match op with
  | 0x01 => ([(63, 0)], [(63, 0)], [(36, 34), (33, 24), (23, 16), (9, 0)])
  | 0x02 | 0x03 | 0x04 | 0x05 => ([(9, 0)], [], [])
  | 0x10 => ([(63, 0)], [(24, 0)], [])
  | 0x11 | 0x12 | 0x13 | 0x14 | 0x15 | 0x16 => ([], [(24, 0)], [])
  | 0x17 => ([(37, 35), (34, 0)], [(5, 0)], [])
  | 0x18 => ([(39, 20), (9, 0)], [], [])
  | 0x20 => ([(40, 6), (5, 0)], [(11, 0)], [(63, 0)])
  | 0x21 => ([(8, 8), (5, 0)], [], [(63, 0)])
  | 0x22 => ([(8, 8), (5, 0)], [], [])
  | 0x23 => ([(15, 0)], [], [])
  | 0x30 => ([(63, 0)], [(45, 45), (44, 32), (31, 0)], [])
  | 0x31 => ([(13, 8), (7, 0)], [(19, 0)], [(63, 0)])
  | 0x32 => ([(16, 16), (13, 8), (7, 0)], [(63, 0)], [])
  | 0x33 => ([(63, 0)], [], [])
  | 0x40 | 0x41 | 0x45 | 0x46 | 0x47 | 0x4A => ([(7, 0)], [], [])
  | 0x42 => ([(9, 0)], [(13, 8), (7, 0)], [])
  | 0x43 => ([(9, 0)], [], [])
  | 0x44 => ([(13, 8), (7, 0)], [(12, 8), (7, 0)], [])
  | 0x48 | 0x49 => ([(63, 0)], [(32, 32), (31, 0)], [(7, 0)])
  | 0x58 => ([(63, 0)], [(7, 0)], [])
  | 0x59 | 0x5A => ([], [(7, 0)], [])
  | 0x5B => ([(63, 0)], [(5, 0)], [])
  | 0x5C | 0x5D => ([], [(5, 0)], [])
  | 0x60 | 0x61 => ([(63, 0)], [], [])
  | 0x62 => ([(63, 0)], [(31, 0)], [])
  | 0x63 => ([(5, 0)], [], [])
  | 0x70 => ([], [], [(63, 0)])
  | 0x71 => ([(5, 0)], [], [])
  | 0x72 => ([(8, 8), (5, 0)], [], [])
  | 0x74 => ([(63, 0)], [(31, 0)], [])
  | 0x75 | 0x76 => ([(0, 0)], [], [])
  | 0x7C => ([(63, 0)], [(63, 0)], [])
  | _ => ([], [], [])

/-- The host address among the arguments, and its alignment, where the argument's table states one. -/
def cmdAddress (op : Nat) (b : List Byte) : Option (Nat × Nat) :=
  match op with
  | 0x10 => some (cmdArg0 b, 64)
  | 0x20 | 0x21 | 0x70 => some (cmdArg2 b, 8)
  | 0x30 | 0x58 | 0x5B => some (cmdArg0 b, 8)
  | 0x32 => some (cmdArg1 b, 8)
  | 0x48 | 0x49 | 0x74 => some (cmdArg0 b, 4096)
  | _ => none

/-- What a command names, for R194: rings (0), endpoints (1), ports (2) and slices (3). -/
def cmdNames (op : Nat) (b : List Byte) : List (Nat × Nat) :=
  let a0 := cmdArg0 b
  let a1 := cmdArg1 b
  let a2 := cmdArg2 b
  match op with
  | 0x01 => [(0, nfield a2 9 0), (0, nfield a2 33 24), (3, nfield a2 23 16)]
  | 0x02 | 0x03 | 0x04 | 0x05 | 0x18 => [(0, nfield a0 9 0)]
  | 0x10 | 0x11 | 0x12 | 0x13 | 0x14 | 0x15 | 0x16 => [(1, nfield a1 24 0)]
  | 0x17 => [(2, nfield a1 5 0)]
  | 0x20 | 0x21 | 0x22 | 0x72 | 0x63 => [(2, nfield a0 5 0)]
  | 0x31 | 0x32 | 0x44 => [(2, nfield a0 13 8), (3, nfield a0 7 0)]
  | 0x33 | 0x60 | 0x61 | 0x62 => ((upto 64).filter fun p => nfield a0 p p == 1).map fun p => (2, p)
  | 0x40 | 0x41 | 0x45 | 0x46 | 0x47 | 0x4A => [(3, nfield a0 7 0)]
  | 0x42 => [(0, nfield a0 9 0), (3, nfield a1 7 0)]
  | 0x43 => [(0, nfield a0 9 0)]
  | 0x48 | 0x49 => [(3, nfield a2 7 0)]
  | _ => []

namespace State

/-! ### Taking and completing -/

/-- The command in progress at an index of a ring. -/
def cmd? (s : State) (r i : Nat) : Option CmdRec := s.cmds.find? fun c => c.ring == r && c.idx == i && c.status.isNone

/-- A command in progress changed. -/
def onCmd (s : State) (r i : Nat) (f : CmdRec → CmdRec) : State :=
  { s with cmds := s.cmds.map fun c => if c.ring = r ∧ c.idx = i ∧ c.status.isNone then f c else c }

/-- A command completes: its status and RESULT wait for the write-back. APPLY_ADVICE has no RESULT (Table 5.22). -/
def cmdDone (s : State) (r i status result : Nat) : State :=
  s.onCmd r i fun c => { c with status := some status, result := if c.op = 0x23 then 0 else result % 2 ^ 64 }

/-- PASID of a command's host traffic. -/
def cmdPasid (s : State) (c : CmdRec) : Nat :=
  match c.slice with
  | some n => (s.slice n).pasid
  | none => 0

/-- A tenant's command that R195 refuses is counted and recorded in the audit log. -/
def tenantNote (s : State) (c : CmdRec) : State :=
  match c.slice with
  | some n =>
    (s.countN .SLC_ERR_TENANT_BOUNDS n 1).auditRecord 0x05 1 n stBounds c.op (leBytes 4 c.ring ++ leBytes 4 c.idx)
  | none => s

/-- A tenant's command refused under R195: BOUNDS with no effect, counted and audited. -/
def cmdForeign (s : State) (c : CmdRec) : State := (s.cmdDone c.ring c.idx stBounds 0).tenantNote c

/-- Entries are taken from a ring: it is ACTIVE with entries handed over, its slice is ACTIVE, the dealer runs and the ring's engine channel takes the read
up (R168, R298, R343, R346, R423). -/
def takes (s : State) (r typ : Nat) : Bool :=
  (s.ring r).st == 1 && (s.ring r).type r == typ && (s.ring r).head != (s.ring r).tail &&
  (match (s.ring r).slice with
   | some n => s.sliceState n == 1 && !(s.slice n).releasing
   | none => decide (r < 4)) &&
  s.pwrState != 2 && !(s.flag .PWR_STS_ENTERING && decide (3 ≤ s.fget .PWR_STS_APOINT)) && !s.pwr.rows.contains 9 && s.engineFree (.ringEntry r)

/-- HEAD past `n` taken entries, each read a descriptor of the ring's engine channel; the doorbells that handed them over are used up in order
(R171, R224, R300). -/
def passHead (s : State) (r n : Nat) : State :=
  let rec use (n : Nat) : List (Nat × Nat) → List (Nat × Nat)
    | [] => []
    | (k, b) :: l => if k ≤ n then use (n - k) l else (k - n, b) :: l
  (s.onRing r fun g => { g with head := (g.head + n) % g.size, bells := use n g.bells }).engineEnd (.ringEntry r) n

/-- The endpoints that a batch still in progress names for a command: those of its change list (R222). -/
def batchNames (s : State) (c : CmdRec) : List (Nat × Nat) :=
  ((s.sched.batch.toList ++ s.sched.queue).filter fun b => b.cmd == some (c.ring, c.idx)).flatMap fun b =>
    b.changes.map fun w => (1, schedEph w.1)

/-- R194: an earlier command of the ring that has not completed names the same thing, or 16 run already. `names` is what the command names in
the descriptor or list that its argument points at. -/
def cmdWaits (s : State) (r op : Nat) (b : List Byte) (names : List (Nat × Nat)) : Bool :=
  let run := s.cmds.filter fun c => c.ring == r && c.status.isNone
  decide (16 ≤ run.length) || run.any fun c => (cmdNames c.op c.bytes ++ s.batchNames c).any fun x => (cmdNames op b ++ names).any fun y =>
    x == y || (x.1 == 1 && y.1 == 2 && Eph.port x.2 == y.2) || (x.1 == 2 && y.1 == 1 && x.2 == Eph.port y.2)

/-- The checks of every command, in their order (R193, R195, R196); then its own meaning. -/
def cmdChecked (s : State) (c : CmdRec) (body : CmdRec → State → State) : State :=
  let b := c.bytes
  let done (st : Nat) : State := s.cmdDone c.ring c.idx st 0
  let (f0, f1, f2) := cmdFields c.op
  if cmdOpN b ≠ 255 - c.op then done stIntegrity
  else if s.inSafe && !cmdSafe c.op then done stAbsent
  else if cmdReserved c.op || (cmdManagerOnly c.op && c.slice.isSome) then s.cmdForeign c
  else if nfield (cmdDw0 b) 29 24 ≠ 0 ∨ nfield (cmdDw0 b) 7 0 ≠ 0 ∨ leNat (Sys2Proof.slice 4 4 b) ≠ 0 then done stBounds
  else if !(onlyFields (cmdArg0 b) f0 && onlyFields (cmdArg1 b) f1 && onlyFields (cmdArg2 b) f2) then done stBounds
  else match cmdAddress c.op b with
    | some (a, n) => if a % n ≠ 0 then done stMisaligned else body c s
    | none => body c s

/-- A command with an opcode of its row is taken from a COMMAND ring: the descriptor as the host read returned it (R171, R172), its
checks, and its meaning. It is not taken while it must wait (R194) or its opcode is another row's. -/
def withCmd (s : State) (r : Nat) (d : HostRead) (ops : Nat → Bool) (body : CmdRec → State → State) (names : List (Nat × Nat) := []) : State :=
  let g := s.ring r
  if !s.takes r 1 then s
  else if !g.geoOk then s.geoFail r
  else match d with
    | .failed => (s.engineEnd (.ringEntry r) 0).failRing r 4 g.head 0
    | .ok b =>
      let op := cmdOp b
      if b.length ≠ 32 ∨ !ops op then s
      else if !cmdOwn b then s.failRing r 3 g.head 0
      else if s.cmdWaits r op b names then s
      else
        let c : CmdRec := { ring := r, idx := g.head, slice := g.slice, op := op, bytes := b, status := none, result := 0, stage := 0, arg := 0 }
        ({ s.passHead r 1 with cmds := s.cmds ++ [c] }).cmdChecked c body

/-- Everything that a command names of another slice is refused under R195: the slice concerned is the tenant's own. -/
def cmdOwns (c : CmdRec) (n : Option Nat) : Bool := c.slice.isNone || n == c.slice

/-- The slice is FREEZING, FROZEN or RESTORING: commands that would change what it holds complete BOUNDS (R329). -/
def sliceFixed (s : State) (n : Nat) : Bool := s.sliceHeld n || s.sliceState n == 5

end State

/-- RESERVED_OPCODE: a command whose opcode no row has (R195, R196). -/
def execReservedOpcode (r : Nat) (d : HostRead) (s : State) : Host.Outcome State Fault Refusal :=
  .next (s.withCmd r d cmdReserved fun _ s => s)

/-! ### Write-back (R193, R184) -/

namespace State

/-- A ring that is being destroyed and has handed back all that was taken or cancelled becomes UNUSED, and the command completes. -/
def destroyed (s : State) (n : Nat) : State :=
  match s.cmds.find? (fun c => c.op == 0x04 && c.stage == 1 && c.status.isNone && nfield (cmdArg0 c.bytes) 9 0 == n) with
  | some c =>
    if s.entries.any (fun e => e.ring == n && e.forCmd.isNone) || s.cmds.any (fun k => k.ring == n) then s
    else
      let s1 := s.onRing n fun g => { Ring.init with slice := g.slice, dbIdx := g.dbIdx }
      s1.cmdDone c.ring c.idx stOk ((s.ring n).tail * 2 ^ 20 + (s.ring n).head)
  | none => s

/-- A completed command is written back in two steps; CMD_COMPLETE follows where due. -/
def cmdWrite (s : State) (c : CmdRec) (st result : Nat) : State :=
  let r := c.ring
  let a := (s.ring r).addr r c.idx
  let p := s.cmdPasid c
  let b := c.bytes
  let body := leBytes 4 (st * 2 ^ 24) ++ Sys2Proof.slice 8 16 b ++ leBytes 8 result
  let s1 := (s.emits (confirmed p (a + 4) body ++ confirmed p a (leBytes 4 (cmdDw0 b % 2 ^ 31)))).engineEnd (.cmdWriteback r) 2
  let s2 := { s1 with cmds := s1.cmds.eraseP fun x => x.ring == r && x.idx == c.idx }
  if cmdIoc b || st != stOk then
    (s2.event (if r = 0 then 1 else (s.ring r).evtRing) evCmd st r (c.op * 2 ^ 24 + c.idx) result).destroyed r
  else s2.destroyed r

/-- The oldest command of a ring, once completed, is written back. -/
def cmdWriteback (s : State) (r : Nat) : State :=
  match s.cmds.find? (fun c => c.ring == r) with
  | some c =>
    match c.status with
    | some st =>
      let held : Bool := match c.slice with
        | some n => s.sliceState n != 1 || !s.writeTurn n ((s.slice n).relCmd.contains (c.ring, c.idx))
        | none => false
      if held || !s.engineFree (.cmdWriteback r) then s else s.cmdWrite c st c.result
    | none => s
  | none => s

end State

end Sys2Proof.Machine
end

