-- ==== Sys2Proof/Machine/Context.lean ====
section
/-! DEFINITION. Machine/Context.lean: the context cache over the context table in host memory (R155–R157, R162): fetching, eviction,
write-back, pinning. -/

namespace Sys2Proof.Machine

/-- Slots of the context cache, and how many of them may be pinned (R19). -/
def ctxSlots : Nat := 98304
def pinSlots : Nat := 65536

/-- Contexts pinned as resident, shadows included (SCH_CTXSTS). -/
def State.pinned (s : State) : Nat := (s.ctxs.filter fun x => x.2.ctx.resident).length

namespace State

/-! ### The table in host memory (R156, Table 4.18) -/

/-- The read of some bytes at a host address. -/
def tableBytes (h : CtxHost) (a n : Nat) : Option (List Byte) :=
  match h.mem.find? fun x => x.1 == a with
  | some (_, .ok b) => if b.length = n then some b else none
  | _ => none

/-- Address of the directory entry of a handle: EPH[24:6] in the directory. -/
def dirEntryAddr (table eph : Nat) : Nat := table + 8 * (eph / 64 % 524288)

/-- A slot of the table: its host address; a directory entry with VALID = 0; or an entry that could not be read. -/
inductive SlotAt where
  | at_ (addr : Nat)
  | absent
  | failed
  deriving DecidableEq, Repr

/-- Where a handle's slot lies: PAGE of its directory entry, and EPH[5:0] in the page. -/
def slotAt? (h : CtxHost) (table eph : Nat) : SlotAt :=
  match tableBytes h (dirEntryAddr table eph) 8 with
  | some b =>
    if leNat b % 2 = 0 then .absent else .at_ (nfield (leNat b) 63 12 * 4096 + eph % 64 * 64)
  | none => .failed

/-- The table in force: the directory that the held copy of SCH_CTXDIR names. -/
def tableNow (s : State) : Nat := field s.cmgr.dir 63 12 * 4096

/-- The host address that a cached context is written back to: a slot of the table that it came from (R162). -/
def homeAddr (s : State) (h : CtxHost) (eph : Nat) (k : CtxSlot) : Option Nat :=
  match slotAt? h (k.table.getD s.tableNow) eph with
  | .at_ a => some a
  | _ => none

/-- The contexts that lie in the table in force and are not cached, as far as the reads reach: the slots that are not zeros. -/
def stored (s : State) (h : CtxHost) : List (Nat × Ctx) :=
  h.mem.flatMap fun x =>
    let d := (x.1 - s.tableNow) / 8
    if x.1 < s.tableNow ∨ x.1 ≠ s.tableNow + 8 * d ∨ 524288 ≤ d then []
    else match slotAt? h s.tableNow (64 * d) with
      | .at_ a => (upto 64).filterMap fun j =>
          match tableBytes h (a + 64 * j) 64 with
          | some b => if (s.ctx? (64 * d + j)).isNone && !b.all (· == 0) then some (64 * d + j, Ctx.ofBytes b) else none
          | none => none
      | _ => []

/-- A cached context written to the context table, without a PASID (R156, R157). -/
def ctxOut (s : State) (a : Nat) (k : CtxSlot) : State := s.emits (confirmed 0 a k.ctx.toBytes)

/-- A context may be evicted: not pinned, with no transaction in flight (R155). A mover transfer is one command of the block, so none is in progress
between two; data that waits in the pocket does not hold its context (log entry 98). -/
def evictable (s : State) (x : Nat × CtxSlot) : Bool := !x.2.ctx.resident && s.txns.all fun t => t.eph != x.1

/-- A context leaves the cache; what changes many contexts from now on reaches it when it is fetched again (log entry 10), and what the controller
keeps beside it stays (R152, R158). -/
def ctxDrop (s : State) (eph : Nat) : State :=
  match s.ctx? eph with
  | some k =>
    { s with ctxs := Tbl.del s.ctxs eph }.onCmgr fun m => { m with
      left := Tbl.put m.left eph m.events.length,
      away := Tbl.put m.away eph k,
      stopped := if k.ctx.state = 4 then Tbl.put m.stopped eph k.leftState else Tbl.del m.stopped eph }
  | none => s

/-- A context is gone for good, or another is installed under its handle: nothing is kept of it. -/
def ctxForget (s : State) (eph : Nat) : State :=
  s.onCmgr fun m => { m with left := Tbl.del m.left eph, stopped := Tbl.del m.stopped eph, away := Tbl.del m.away eph }

/-- Room for one more context: with every slot in use the least recently used one that may go is written back and evicted; while there is
no table none is evicted (R157). -/
def ctxRoom (s : State) (h : CtxHost) : State × Bool :=
  if s.ctxs.length < ctxSlots then (s, true)
  else if field s.cmgr.dir 0 0 = 0 then (s, false)
  else match (s.ctxs.filter s.evictable).foldl (fun (m : Option (Nat × CtxSlot)) x => match m with
      | some y => if x.2.lru < y.2.lru then some x else m
      | none => some x) none with
    | some (e, k) =>
      match s.homeAddr h e k with
      | some a => ((s.ctxOut a k).ctxDrop e, true)
      | none => (s, false)
    | none => (s, false)

/-- A context put into the cache, with what the controller kept beside it. -/
def ctxIn (s : State) (eph : Nat) (c : Ctx) : State :=
  let old := (Tbl.find s.cmgr.away eph).getD (CtxSlot.of c s.cmgr.clock)
  { s with ctxs := Tbl.put s.ctxs eph { old with
      ctx := { c with rdPtr := old.ctx.rdPtr }, lru := s.cmgr.clock, leftState := Tbl.get 2 s.cmgr.stopped eph, table := if field s.cmgr.dir 0 0 = 0 then none else some s.tableNow } }.onCmgr
    fun m => { m with clock := m.clock + 1, away := Tbl.del m.away eph }

/-- What changed many contexts since a context was evicted reaches it, in order (R188). -/
def ctxCatchUp (s : State) (eph : Nat) : State :=
  let since := (Tbl.find s.cmgr.left eph).getD s.cmgr.events.length
  (s.cmgr.events.drop since).foldl (fun s v => s.ctxApply eph v.1 v.2) s

/-- A context of host memory with the changes of many contexts that it has still to receive (R188). -/
def caughtUp (s : State) (eph : Nat) (c : Ctx) : Ctx :=
  (s.cmgr.events.drop ((Tbl.find s.cmgr.left eph).getD s.cmgr.events.length)).foldl (fun c v => v.1.apply c) c

/-- The image that a fetch returned lands: OK with the context in the cache, or the outcome of R152. A slot of zeros is a DISABLED context, and
nothing is cached. Where no cached context may go, the fetch ends as one that fails on the host link (DESIGN CHOICE, log entry 31). -/
def ctxImage (s : State) (h : CtxHost) (eph : Nat) (b : List Byte) : State × Nat :=
  if b.all (· == 0) then (s, stBounds)
  else match s.ctxRoom h with
    | (s1, true) =>
      let s2 := s1.ctxIn eph (Ctx.ofBytes b)
      if s2.winBroken (Ctx.ofBytes b).owner && (Ctx.ofBytes b).keysOk then (s2.boundsBroken (some (Ctx.ofBytes b).owner) stIntegrity, stIntegrity)
      else if s2.ctxOk eph (Ctx.ofBytes b) then (s2.ctxCatchUp eph, stOk) else ((s2.ctxFail eph).count .SCH_CTXCNT_FETCH_ERR, stIntegrity)
    | (s1, false) => (s1.count .SCH_CTXCNT_FETCH_ERR, stHostError)

/-- A fetch made: the directory entry, then the slot (R155, R156). -/
def ctxLand (s : State) (h : CtxHost) (eph : Nat) : State × Nat :=
  match slotAt? h s.tableNow eph with
  | .absent => (s.count .SCH_CTXCNT_FETCH_ERR, stBounds)
  | .failed => (s.count .SCH_CTXCNT_FETCH_ERR, stHostError)
  | .at_ a =>
    match tableBytes h a 64 with
    | some b => s.ctxImage h eph b
    | none => (s.count .SCH_CTXCNT_FETCH_ERR, stHostError)

/-- A command's context: in the cache, or fetched for it. -/
def ctxGet (s : State) (h : CtxHost) (eph : Nat) : State × Nat :=
  if (s.ctx? eph).isSome then (s.ctxTouch eph, stOk)
  else
    let s1 := s.count .SCH_CTXCNT_MISSES
    if s.dirStatus ≠ stOk then (s1.dirFail s.dirStatus, s.dirStatus) else s1.ctxLand h eph

/-- A cached context written back (EP_FLUSH, a freeze, EP_REMOVE): OK, or HOST_ERROR where its page cannot be reached; nothing is written
while there is no table (R157). -/
def ctxFlush (s : State) (h : CtxHost) (eph : Nat) : State × Nat :=
  match s.ctx? eph with
  | some k =>
    if field s.cmgr.dir 0 0 = 0 then (s, stOk)
    else match s.homeAddr h eph k with
      | some a => (s.ctxOut a k, stOk)
      | none => (s, stHostError)
  | none => (s, stOk)

/-- A context pinned or released (R155, R213, R216). -/
def ctxPin (s : State) (eph : Nat) (on : Bool) : State := s.onCtx eph fun k => { k with ctx := k.ctx.setResident on }

end State

end Sys2Proof.Machine
end

