-- ==== Sys2Proof/Machine/Tds.lean ====
section
/-! DEFINITION. Machine/Tds.lean: transfer descriptors (chapter 05): the checks of Table 5.14, taking, spilling (R252–R256), context fetches,
host transport, write-back (R182–R186), and the end of an entry (R223, R230). -/

namespace Sys2Proof.Machine

/-! ### Checks 1 to 3 (Table 5.14) -/

/-- TYPE is not reserved (Table 5.12). -/
def Td.typeOk (t : Td) : Bool := t.typ ≤ 4 || (8 ≤ t.typ && t.typ ≤ 10)

/-- Check 1 on one TD. -/
def Td.check1 (t : Td) : Bool :=
  t.typeOk && decide (t.doneMode ≤ 1) && (t.kind != 4 || t.eph == 0) && (t.kind == 3 || t.execOfs == 0)

/-- The rules of a chain (R186). -/
def chainOk (tds : List Td) : Bool :=
  match tds with
  | [] => false
  | [_] => true
  | a :: rest =>
    (a.typ == 0 || a.typ == 8) && rest.all (fun t => t.typ == 0 && t.eph == a.eph && t.flow == a.flow && !t.waitEn) &&
    tds.dropLast.all (fun t => !t.doneEn && t.len % 8 == 0) && !(tds.getLast?.map Td.chn).getD false &&
    decide ((tds.map Td.len).foldl (· + ·) 0 ≤ 0xFFFFFFFF)

/-- Bytes of the host buffer of a TD (Table 5.13). -/
def Td.bufLen (t : Td) : Nat := if t.kind = 4 then 0 else if t.kind = 2 ∨ t.kind = 3 then roundup8 (2 * t.len) else roundup8 t.len

/-- Bytes that the controller reads of it: OUT data, the pair of a COMMAND, the SETUP and an OUT data stage. -/
def Td.readLen (t : Td) (b : List Byte) : Nat :=
  match t.kind with
  | 0 => if Eph.dir t.eph = 0 then t.len else 0
  | 1 => if setupIn (b.take 8) then 8 else max 8 t.len
  | 2 => 2 * t.len
  | 3 => 2 * t.len
  | _ => 0

/-- What the reads of one buffer gave, portion by portion, up to the first that failed; and that none failed (R160; log entry 108). -/
def Td.fetched (t : Td) (r : HostRead) : List Byte × Bool :=
  match r with
  | .ok b => (b.take (t.readLen b), decide (t.readLen b ≤ b.length))
  | .failed => ([], t.readLen [] == 0)

/-- The buffers of a chain put together, up to the first read that failed. -/
def fetchedAll : List Td → List HostRead → List Byte × Bool
  | [], _ => ([], true)
  | t :: ts, rs =>
    match t.fetched (rs.headD .failed) with
    | (a, true) => (a ++ (fetchedAll ts rs.tail).1, (fetchedAll ts rs.tail).2)
    | (a, false) => (a, false)

/-- The TDs at the head of a ring, from their images: the chain so far, the TD that stops it (offset and RING_ERROR reason), and whether
the chain is whole. `n` entries are handed over and 64 is the longest chain. -/
def chainScan : Nat → Nat → List HostRead → List Td × Option (Nat × Nat) × Bool
  | 0, _, _ => ([], none, false)
  | _ + 1, _, [] => ([], none, false)
  | _ + 1, i, .failed :: _ => ([], some (i, 4), false)
  | n + 1, i, .ok b :: rest =>
    let t : Td := ⟨b⟩
    if b.length ≠ 32 then ([], none, false)
    else if !t.own then ([], some (i, 3), false)
    else if !t.chn ∨ i = 63 then ([t], none, true)
    else
      let (l, e, w) := chainScan n (i + 1) rest
      (t :: l, e, w)

namespace State

/-! ### Checks 4 to 8 -/

/-- A counter index lies in the slice's range (R334). -/
def inCounters (s : State) (n i : Nat) : Bool :=
  let w := (s.slice n).cntr
  decide (field w 31 16 ≤ i ∧ i < field w 31 16 + field w 15 0)

/-- The counters that a chain names are the slice's. -/
def countersOk (s : State) (n : Nat) (tds : List Td) : Bool :=
  tds.all fun t => (!t.waitEn || s.inCounters n t.waitIdx) && (!t.doneEn || s.inCounters n t.doneIdx)

/-- The status of the counters that a chain names: the slice's pair is checked where it names one (R332). -/
def countersStatus (s : State) (n : Nat) (tds : List Td) : Nat :=
  if tds.any (fun t => t.waitEn || t.doneEn) && !(s.slice n).pairsOk then stIntegrity else if s.countersOk n tds then stOk else stBounds

/-- The kind is allowed for a class (Table 5.13). -/
def kindOk (kind cls : Nat) (eph : Nat) : Bool :=
  match kind with
  | 0 => cls == 3 || cls == 4
  | 1 => cls == 0 && Eph.ep eph == 0 && Eph.dir eph == 0
  | 2 => cls == 1
  | 3 => cls == 1
  | _ => false

/-- The first host range of a chain that is refused, by its status (check 6). -/
def buffersStatus (s : State) (n : Nat) (tds : List Td) : Nat :=
  ((tds.map fun t => s.hostStatus (some n) t.buf t.bufLen).find? (· != stOk)).getD stOk

/-- Check 5: the length; for CONTROL with the SETUP's host range, and its read. -/
def lengthStatus (s : State) (n : Nat) (e : Entry) (mps : Nat) : Nat :=
  match e.kind with
  | 0 => if s.classOf e.eph = 3 ∧ e.len ≠ mps then stLength else stOk
  | 1 =>
    let b := (e.tds.head?.map fun x => x.2.buf).getD 0
    let st := s.hostStatus (some n) b 8
    if st ≠ stOk then st
    else if e.setup.length ≠ 8 then stHostError
    else if e.len ≠ 8 + setupLen e.setup then stLength else stOk
  | 4 => if e.len = 0 then stOk else stLength
  | _ => if 1 ≤ e.len ∧ e.len ≤ 64 then stOk else stLength

/-- The status of a transfer for a context's state (check 7, Table 4.16). -/
def stateStatus (st : Nat) : Nat := if st = 0 then stBounds else if st = 1 then stBusReset else if st = 5 then stDisconnected else stOk

/-- The first portion of what an entry sends could not be read whole, or a COMMAND's pair (R160): it ends without bus activity. -/
def firstFails (e : Entry) (c : Ctx) : Bool :=
  e.hostFail && (decide (2 ≤ e.kind) ||
    (let total := if e.kind = 1 then e.len - 8 else e.len
     decide (e.data.length < (if total ≤ c.size then total else c.size / c.mps * c.mps))))

/-- Checks 4 to 8 of an entry whose context is in the cache, or of a NOP: the status, OK where all pass. -/
def lateStatus (s : State) (e : Entry) : Nat :=
  let tds := e.tds.map Prod.snd
  if e.kind = 4 then
    (if s.countersStatus e.slice tds ≠ stOk then s.countersStatus e.slice tds else s.lengthStatus e.slice e 0)
  else if Eph.addr e.eph = 4095 then stBounds
  else match s.ctx? e.eph with
    | none => stBounds
    | some k =>
      if k.ctx.owner ≠ e.slice ∨ !kindOk e.kind k.ctx.cls e.eph then stBounds
      else if s.countersStatus e.slice tds ≠ stOk then s.countersStatus e.slice tds
      else if s.lengthStatus e.slice e k.ctx.mps ≠ stOk then s.lengthStatus e.slice e k.ctx.mps
      else if s.buffersStatus e.slice tds ≠ stOk then s.buffersStatus e.slice tds
      else if !k.bad ∧ stateStatus k.ctx.state ≠ stOk then stateStatus k.ctx.state
      else if firstFails e k.ctx then stHostError
      else if (e.kind = 2 ∨ e.kind = 3) ∧ !complPair e.data then stIntegrity
      else stOk

/-- The entry's last TD's counter: index and DONE_MODE, where it has one. -/
def doneOf (e : Entry) : Option (Nat × Nat) :=
  match e.tds.getLast? with
  | some (_, t) => if t.doneEn then some (t.doneIdx, t.doneMode) else none
  | none => none

/-- An entry that failed a check completes with its status and no bytes; a pair that did not check is reported (R332, R411). -/
def refuseEntry (s : State) (e : Entry) (st : Nat) : State :=
  let s1 := s.finish e.id st
  if st = stIntegrity then
    if (e.kind = 2 ∨ e.kind = 3) ∧ s.buffersStatus e.slice (e.tds.map Prod.snd) = stOk then
      s1.integrity 6 ((e.tds.head?.map Prod.fst).getD 0) e.ring e.slice 0
    else s1.boundsBroken (some e.slice) stIntegrity
  else s1

/-- Checks 4 to 8, and the counter that the TD would increment: it is not taken as an entry with that counter at its end (R229). -/
def entryStatus (s : State) (e : Entry) : Nat :=
  let st := s.lateStatus e
  if st ≠ stOk then st
  else match doneOf e with
    | some (i, _) => if 65535 ≤ Tbl.get 0 s.deal.counters i then stBounds else stOk
    | none => stOk

/-- Checks 4 to 8 made; an entry that passes them is a dealer entry and its counter goes up (R223, R229). -/
def admitEntry (s : State) (id : Nat) : State :=
  match s.entry? id with
  | none => s
  | some e =>
    let s1 := s.onEntry id fun e => { e with needCtx := false }
    let st := s.entryStatus e
    if st ≠ stOk then s1.refuseEntry e st
    else match doneOf e with
      | some (i, _) =>
        (s1.onEntry id fun e => { e with isEntry := true, counted := true }).onDeal fun d => { d with counters := Tbl.upd 0 d.counters i (· + 1) }
      | none => s1.onEntry id fun e => { e with isEntry := true }

/-! ### Spilling (R252–R256) -/

/-- Entries of a slice in the spill area, and in all. -/
def spilledOf (s : State) (n : Nat) : Nat := (s.entries.filter fun e => e.spilled && e.slice == n).length
def spilledAll (s : State) : Nat := (s.entries.filter fun e => e.spilled).length

/-- Entries in the ready queue: of a slice, and in all. -/
def onChip (s : State) (p : Entry → Bool) : Nat := (s.entries.filter fun e => p e && (e.isEntry || e.needCtx) && !e.spilled && e.st != .ended).length

/-- The spill area holds 255 entries in each block. -/
def spillLimit (s : State) : Nat := s.deal.spillBlocks * 255

/-- Blocks in use. -/
def spillUsed (s : State) : Nat := (s.spilledAll + 254) / 255

/-- A SPILL event (Table 7.7). -/
def spillEvent (s : State) (what n count status : Nat) : State :=
  s.event1 evSpill status 0 (what * 2 ^ 29 + n) (count * 2 ^ 32 + s.frameNo)

/-- A TD of the slice that is taken now must spill. -/
def mustSpill (s : State) (n : Nat) : Bool :=
  decide (s.deal.quota ≤ s.onChip fun e => e.slice == n) || decide (65536 ≤ s.onChip fun _ => true) || decide (0 < s.spilledOf n)

/-- Spilling is possible (R255): a place is left that no TD whose context is fetched may need. -/
def canSpill (s : State) : Bool :=
  s.deal.spillOn && !s.flag .SCH_SPILL_STS_ERR && decide (s.spilledAll + s.onChip (fun e => e.needCtx) < s.spillLimit)

/-- A spill write failed: no further TD of the slice is taken. -/
def spillFailed (s : State) (n : Nat) : State := (s.raise .SCH_SPILL_STS_ERR).spillEvent 5 n (s.spilledOf n) stHostError

/-- An entry is in the spill area, its write, to a place of the area that is the controller's own affair, confirmed (R254): address and contents are free
values. -/
def spillEntry (s : State) (id n : Nat) : State :=
  let base := field s.deal.spillBase 63 12 * 4096
  let s0 := ((s.draw.draw).emits (confirmed 0 (base + s.freeValue % (4096 * s.deal.spillBlocks) / 8 * 8) (leBytes 16 s.draw.freeValue))).engineDone
    (s.engineOf (.spill n))
  let s1 := s0.onEntry id fun e => { e with spilled := true }
  let s2 := if s.spilledOf n = 0 then s1.spillEvent 1 n 1 0 else s1
  let s3 := if s1.spilledAll = s.spillLimit then s2.spillEvent 3 0 s1.spillUsed 0 else s2
  match s3.entry? id with
  | some e => s3.traceEntry 8 e 0 (s1.spilledOf n) 1 0
  | none => s3

/-! ### Taking (R171, R177, R178, R224) -/

/-- No other ACTIVE SUBMIT ring of the slice holds TDs of an earlier doorbell (R224), but for one that R239 holds: it does not affect the others. -/
def takeOrder (s : State) (r : Nat) : Bool :=
  match (s.ring r).bells.find? (fun b => b.1 != 0) with
  | some b => s.rings.all fun x => x.1 == r || x.2.slice != (s.ring r).slice || x.2.st != 1 || x.2.type x.1 != 0 ||
      (x.2.nbStuck && decide (32768 ≤ s.delayed)) || x.2.bells.all fun c => c.1 == 0 || decide (b.2 ≤ c.2)
  | none => true

/-- The TD must be held for a frame (R178): NB_FRAME is later than the frame of the next open hand. -/
def nbHeld (s : State) (t : Td) : Bool := t.nb && later32 t.nbFrame (s.openFrame (Eph.port t.eph))

/-- A TD or chain becomes an entry record. -/
def newEntry (s : State) (r : Nat) (tds : List (Nat × Td)) (bufs : List HostRead) : Entry :=
  let t := (tds.head?.map Prod.snd).getD ⟨[]⟩
  let got := fetchedAll (tds.map Prod.snd) bufs
  let raw := got.1
  { id := s.deal.nextId, slice := ((s.ring r).slice).getD 0, ring := r, tds := tds,
    bell := (((s.ring r).bells.find? fun b => b.1 != 0).map Prod.snd).getD 0, needCtx := false, hostFail := !got.2, isEntry := false,
    forCmd := none, eph := t.eph, kind := t.kind, flow := t.flow, len := (tds.map fun x => x.2.len).foldl (· + ·) 0, st := .waiting,
    waitMet := false, counted := false, delay := if s.nbHeld t then some (.frame t.nbFrame) else none, nakRun := 0, nyFrom := none,
    spilled := false, started := false, data := if t.kind = 1 then raw.drop 8 else if t.kind = 0 ∧ Eph.dir t.eph = 1 then [] else raw, moved := 0, stage := 0,
    setup := if t.kind = 1 then (match bufs.headD .failed with
      | .ok b => b.take 8
      | .failed => []) else [], ts := none, qc := 0, more := false, late := false, done := none,
    hostOut := 0, step1 := false }

/-- Checks 1 to 3: the status. -/
def earlyStatus (s : State) (tds : List Td) : Nat :=
  if !(tds.all Td.check1 && chainOk tds) then stBounds
  else if tds.any fun t => t.kind != 4 && decide (s.nPorts ≤ Eph.port t.eph) then stAbsent
  else if tds.any fun t => t.buf % 8 != 0 then stMisaligned else stOk

/-- The entry is recorded, HEAD passes its TDs. -/
def addEntry (s : State) (e : Entry) : State :=
  let s1 := (s.passHead e.ring e.tds.length).onRing e.ring fun g => { g with nbStuck := false }
  { s1 with entries := s1.entries ++ [{ e with delayNo := s.deal.delaySeq }] }.onDeal fun d =>
    { d with nextId := d.nextId + 1, delaySeq := if e.delay.isSome then d.delaySeq + 1 else d.delaySeq }

/-- A TD that TD_CANCEL named completes CANCELLED when it is taken: it adds nothing to a counter and takes nothing from one (R197,
Table 7.6). -/
def takeCancelled (s : State) (e : Entry) : State :=
  let s1 := (s.addEntry e).onRing e.ring fun g => { g with cancelled := g.cancelled.filter fun i => !(e.tds.any fun t => t.1 == i) }
  (s1.finish e.id stCancelled).traceEntry 6 e stCancelled 0 0 0

/-- A TD or chain is taken: the checks of Table 5.14, the context (fetched where it is not cached), spilling of one that passes them (R223), the delay
list. A further TD for an endpoint whose fetch is under way counts no further miss (log entry 95). -/
def takeEntry (s0 : State) (e : Entry) (spillOk : Bool) : State :=
  let early := s0.earlyStatus (e.tds.map Prod.snd)
  let known := e.kind == 4 || Eph.addr e.eph == 4095 || (s0.ctx? e.eph).isSome
  let s := if early = stOk ∧ known ∧ e.kind ≠ 4 then (s0.useCtx e.eph).ctxTouch e.eph else s0
  let may := early == stOk && (!known || s.entryStatus e == stOk)
  let spill := may && s.mustSpill e.slice
  if s.mustSpill e.slice && !s.canSpill then s
  else if may && e.delay.isSome && decide (32768 ≤ s.delayed) then s.onRing e.ring fun g => { g with nbStuck := true }
  else if spill && known && !spillOk then s.spillFailed e.slice
  else
    let s1 := s.addEntry e
    if early ≠ stOk then (s1.finish e.id early).refresh 0
    else
      let s2 := match e.delay with
        | some (.frame n) => if may then s1.traceEntry 4 e 0 n 3 0 else s1
        | _ => s1
      let s3 :=
        if known then (let s3 := s2.admitEntry e.id; if spill then s3.spillEntry e.id e.slice else s3)
        else if s.dirStatus ≠ stOk then ((s2.count .SCH_CTXCNT_MISSES).dirFail s.dirStatus).finish e.id s.dirStatus
        else (s2.fetchStart e.eph).onEntry e.id fun e => { e with needCtx := true }
      s3.refresh 0

/-- TD_TAKE: the TD or chain at HEAD of a SUBMIT ring. `tds` are the ring entries from HEAD on as the host read returned them, `bufs` the
reads of their buffers; `spillOk`: a spill write that this TD needs is confirmed. -/
def tdTake (s : State) (r : Nat) (tds bufs : List HostRead) (spillOk : Bool) : State :=
  let g := s.ring r
  let cut := g.cancelled.contains g.head
  if !(s.takes r 0 || (cut && (g.st == 2 || g.st == 3) && g.head != g.tail && (match g.slice with
      | some n => s.sliceState n == 1
      | none => false))) then s
  else if !g.geoOk then s.geoFail r
  else if !s.takeOrder r then s
  else
    let n := (g.tail + g.size - g.head) % g.size
    match chainScan n 0 tds with
    | (_, some (i, why), _) => (s.engineEnd (.ringEntry r) 0).failRing r why ((g.head + i) % g.size) 0
    | (_, none, false) => s
    | (l, none, true) =>
      let idx := (upto l.length).map fun i => (g.head + i) % g.size
      let e := s.newEntry r (idx.zip l) bufs
      if cut then s.takeCancelled e else s.takeEntry e spillOk

end State

/-- TD_TAKE. -/
def execTdTake (r : Nat) (tds bufs : List HostRead) (spillOk : Bool) (s : State) : Host.Outcome State Fault Refusal :=
  .next (s.tdTake r tds bufs spillOk)

/-! ### Context fetches (R155, R404) -/

namespace State

/-- The context of a completed transfer that was evicted cannot be fetched again: what it received stays untransported, and it completes with the fetch's
status (R155, log entry 98). -/
def transportLost (s : State) (e : Entry) (st : Nat) : State :=
  (s.onEntry e.id fun e => { e with
    data := e.data.take e.hostOut, done := e.done.map fun d => { d with status := st, len := e.hostOut } }).pocketFree e.eph (e.data.length - e.hostOut)

end State

/-- A TD whose context has come is checked and becomes an entry, in the spill area where it must (R252). Where spilling has become impossible meanwhile, it is
not taken on chip past those before it: it waits as it did for its context (R253, R255). -/
def State.admitFetched (s : State) (e : Entry) : State :=
  let rest : State := { s with entries := s.entries.filter fun o => o.id != e.id }
  let s1 := s.admitEntry e.id
  if !((s1.entry? e.id).any fun e => e.isEntry) || !rest.mustSpill e.slice then s1
  else if rest.canSpill then s1.spillEntry e.id e.slice
  else s

/-- The TDs whose contexts have come and that waited for a place are admitted, in take order. -/
def State.admitWaiting (s : State) : State :=
  s.entries.foldl (fun s e => if e.needCtx && (s.ctx? e.eph).isSome && !s.cmgr.fetching.contains e.eph then s.admitFetched e else s) s

/-- A context fetch ended: the transfers that wait for the context complete, or those not yet checked are checked and become entries, in take
order. -/
def State.fetchDone (s : State) (eph : Nat) (h : CtxHost) : State :=
  if !s.cmgr.fetching.contains eph then s
  else
    let s0 := s.onCmgr fun m => { m with fetching := m.fetching.filter (· != eph) }
    let waiting := s.entries.filter fun e => (e.needCtx || e.isEntry) && e.kind != 4 && e.eph == eph && e.done.isNone
    let (s1, st) := if s.dirStatus ≠ stOk then (s0.dirFail s.dirStatus, s.dirStatus)
      else if (s0.ctx? eph).isSome then (s0, stOk) else s0.ctxLand h eph
    let owed := if st = stOk then [] else s.entries.filter fun e => e.eph == eph && e.done.isSome && !State.transported e && e.forCmd.isNone
    let s2 := waiting.foldl (fun s e =>
      if st ≠ stOk then (s.onEntry e.id fun e => { e with needCtx := false }).finish e.id st
      else if e.needCtx then s.admitFetched e else s) (owed.foldl (fun s e => s.transportLost e st) s1)
    s2.refresh 0

/-- CONTEXT_FETCH_DONE. -/
def execContextFetchDone (eph : Nat) (h : CtxHost) (s : State) : Host.Outcome State Fault Refusal :=
  let t := (s.engineEnd (.context eph) 0).fetchDone eph h
  .next (if !s.engineFree (.context eph) then s else if (t.ctx? eph).isSome && (s.ctx? eph).isNone then t.engineDone (s.engineOf (.context eph)) else t)

/-! ### Host transport (R183, R26) -/

/-- Each TD's own count of bytes of a TRANSFER (R186); of a chain that begins with another kind, which moved none, the first shows all. -/
def shares : List Td → Nat → List Nat
  | [], _ => []
  | t :: ts, n => min t.len n :: shares ts (n - t.len)

namespace State

/-- The entry of a ring whose first TD has an index. -/
def entryAt (s : State) (r idx : Nat) : Option Entry :=
  s.entries.find? fun e => e.ring == r && e.forCmd.isNone && (e.tds.head?.map Prod.fst) == some idx

/-- The flushing read that confirms the data that an entry brought to its buffers, where it brought any (R182, R320). -/
def dataFlush (s : State) (e : Entry) : List Output :=
  match ((e.tds.map Prod.snd).zip (shares (e.tds.map Prod.snd) (if e.kind = 1 then 8 + e.hostOut else e.hostOut))).reverse.find? fun x => x.2 != 0 with
  | some (t, n) => if inbound e && decide (0 < e.hostOut) then [.flush (s.ringPasid e.ring) (lastWord t.buf n)] else []
  | none => []

/-- Data written to the buffers of a chain, from byte `o` of the transfer on. -/
def bufferWrites (pasid : Nat) : List Td → Nat → List Byte → List Output
  | [], _, _ => []
  | t :: ts, o, b =>
    if t.len ≤ o then bufferWrites pasid ts (o - t.len) b
    else
      let n := t.len - o
      let here := b.take n
      (if here.isEmpty then [] else [.hostWrite pasid (t.buf + o) here]) ++ bufferWrites pasid ts 0 (b.drop n)

/-- The received data of an entry that is not in host memory yet is written to its buffers, and its place in the pocket is free (R160,
R183); a context that was evicted meanwhile is fetched first (R155). The data stage of a control transfer lies behind the SETUP. -/
def transport (s : State) (e : Entry) : State :=
  let fresh := e.data.drop e.hostOut
  if !inbound e || fresh.isEmpty || e.forCmd.isSome then s
  else if (s.ctx? e.eph).isNone then (if s.dirStatus = stOk then s.fetchStart e.eph else s.transportLost e s.dirStatus)
  else
    let p := (s.slice e.slice).pasid
    let o := if e.kind = 1 then 8 + e.hostOut else e.hostOut
    let w := bufferWrites p (e.tds.map Prod.snd) o fresh
    let s0 := (s.emits w).engineEnd (.tdData e.ring ((e.tds.head?.map Prod.fst).getD 0)) w.length
    let s1 := s0.onEntry e.id fun e => { e with hostOut := e.data.length }
    (s1.pocketFree e.eph fresh.length).refresh 0

/-- The mover works for a slice: it is not FREEZING, FROZEN or RESETTING (R343, R346). -/
def moverFor (s : State) (n : Nat) : Bool := s.sliceState n == 1

/-- An entry's data has its turn: while a thaw releases what was held, after the held write-backs, and in the order in which data and records
landed (R347). -/
def hostTurn (s : State) (e : Entry) : Bool :=
  !(s.slice e.slice).releasing ||
  (!s.wbOwed e.slice && (s.hostOwed e.slice).all (fun t => (s.slice e.slice).relHost.contains e.id && decide (e.landed ≤ t)) &&
    !(s.smp.queue.any fun r => (s.ring r.ring).slice == some e.slice && decide (r.landed < e.landed) && s.recReady r))

end State

/-- HOST_TRANSPORT_START: the data of a TD leaves its pocket for host memory. -/
def execHostTransportStart (r idx : Nat) (s : State) : Host.Outcome State Fault Refusal :=
  match s.entryAt r idx with
  | some e => .next (if s.moverFor e.slice && s.hostTurn e && s.engineFree (.tdData r idx) then (s.transport e).releaseStep e.slice else s)
  | none => .next s

/-! ### Write-back (R181–R186, R223, R230) -/

namespace State

/-- The first step of the write-back of one TD: bytes 4–31. -/
def step1Bytes (t : Td) (n : Nat) (d : Done) : List Byte :=
  leBytes 4 n ++ Sys2Proof.slice 8 12 t.bytes ++ leBytes 4 (d.word t.tag) ++ leBytes 8 (d.ts.getD 0)

/-- The counter of an ended entry (R230), with the HOLD record where it stays. -/
def doneCount (s : State) (e : Entry) (status : Nat) : State :=
  match doneOf e with
  | some (i, mode) =>
    let v := Tbl.get 0 s.deal.counters i
    if !e.counted then s
    else if mode = 1 ∨ status = stOk then
      (if v = 0 then s.count .SCH_DYN_CNT_UNDERFLOW
       else s.onDeal fun d => { d with counters := if v = 1 then Tbl.del d.counters i else Tbl.put d.counters i (v - 1) })
    else s.traceEntry 10 e status i v 0
  | none => s

/-- An entry ends when step 1 is confirmed: its counter, then what waited on it (R223, R230, R231, R233, R234). -/
def endEntry (s : State) (e : Entry) (status : Nat) : State :=
  ((s.onEntry e.id fun e => { e with st := .ended, step1 := true }).doneCount e status).refreshBy fun o =>
    if o.eph = e.eph then 3 else if o.flow = e.flow ∧ o.slice = e.slice ∧ e.flow ≠ 0 then 2 else 1

/-- Step 2 of a chain: OWN cleared in each TD (R182), then TD_COMPLETE where due (R185). -/
def step2 (s : State) (e : Entry) (d : Done) : State :=
  let g := s.ring e.ring
  let p := s.ringPasid e.ring
  let s1 := s.emits (e.tds.map fun x => .hostWrite p (g.addr e.ring x.1) (leBytes 4 (x.2.dw 0 % 2 ^ 31)))
  let s2 := (s1.emit (.flush p (lastWord (g.addr e.ring ((e.tds.getLast?.map Prod.fst).getD 0)) 4))).engineDone (s.engineOf (.record e.ring))
  let s3 := e.tds.foldl (fun s x =>
    if x.2.ioc || d.status != stOk then s.event g.evtRing evTd d.status e.ring x.1 (d.ts.getD 0) else s) s2
  { s3 with entries := s3.entries.filter fun o => o.id != e.id }

/-- OWN cleared in ring order: while the oldest entry of the ring has had its first step (R184). The fuel is the number of entries. -/
def clearOwn (s : State) (r : Nat) : Nat → State
  | 0 => s
  | n + 1 =>
    match s.entries.find? (fun e => e.ring == r && e.forCmd.isNone) with
    | some e =>
      match e.done with
      | some d => if e.step1 then clearOwn (s.step2 e d) r n else s
      | none => s
    | none => s

/-- TD_WRITEBACK of an entry that completed and whose data is in host memory. A spilled entry has first come back. -/
def tdWriteback (s : State) (e : Entry) (d : Done) : State :=
  let g := s.ring e.ring
  let p := s.ringPasid e.ring
  let tds := e.tds.map Prod.snd
  let counts := if e.kind = 0 then shares tds d.len else d.len :: tds.tail.map fun _ => 0
  let s1 := s.emits (s.dataFlush e)
  let s2 := s1.emits ((e.tds.zip counts).map fun x => .hostWrite p (g.addr e.ring x.1.1 + 4) (step1Bytes x.1.2 x.2 d))
  let s3 := ((s2.emit (.flush p (lastWord (g.addr e.ring ((e.tds.getLast?.map Prod.fst).getD 0) + 4) 28))).engineEnd
    (.tdWriteback e.ring ((e.tds.head?.map Prod.fst).getD 0)) 1).endEntry e d.status
  ((s3.clearOwn e.ring s3.entries.length).destroyed e.ring).refresh 1

end State

/-- TD_WRITEBACK. -/
def execTdWriteback (r idx : Nat) (s : State) : Host.Outcome State Fault Refusal :=
  match s.entryAt r idx with
  | some e =>
    match e.done with
    | some d => .next (if !e.step1 && !e.spilled && s.moverFor e.slice && State.transported e && s.engineFree (.tdWriteback r idx) &&
        s.writeTurn e.slice ((s.slice e.slice).relWb.contains e.id) then (s.tdWriteback e d).releaseStep e.slice else s)
    | none => .next s
  | none => .next s

end Sys2Proof.Machine
end

