-- ==== Sys2Proof/Machine/Internal.lean ====
section
/-! DEFINITION. Machine/Internal.lean: the control transfers that the controller runs on an owner's behalf (R135, R146, R227, R394), what
follows their completion, and the commands of the port engine that end a transaction or a control transfer. -/

namespace Sys2Proof.Machine

/-! ### Identity and endpoint records (R140–R142, R260) -/

/-- A byte and its complement. -/
def byteN (a b : Nat) : Bool := a + b == 255

/-- SAMPLE_FMT and DATA_LEN of a CYCLIC entry (R260). -/
def sampleFmtOk (e : List Byte) (mps dataLen : Nat) : Bool :=
  let w := leNat (slice 6 1 e) / 64
  let step := (leNat (slice 6 1 e) % 64 + 1) * (w + 2)
  decide (w ≤ 2) && leNat (slice 7 1 e) == 0 && decide (0 < leNat (slice 8 4 e)) && decide (4 + step ≤ dataLen ∧ dataLen ≤ mps) &&
  (dataLen - 4) % step == 0

/-- An entry of an endpoint record (Table 4.13, Table 4.1). One of CLASS 0, which belongs to endpoint 0, is not accepted (log entry 104). -/
def recordEntryOk (e : List Byte) : Bool :=
  let b0 := leNat (slice 0 1 e)
  let b1 := leNat (slice 1 1 e)
  let mps := 2 ^ (b1 % 16 + 3)
  let dir := b0 / 128
  let cls := b1 / 32
  byteN b1 (leNat (slice 2 1 e)) && decide (cls ≤ 4) &&
  (match cls with
   | 0 => false
   | 1 => dir == 0 && mps == 128
   | 2 => dir == 1 && decide (8 ≤ mps ∧ mps ≤ 2048) && sampleFmtOk e mps (leNat (slice 4 2 e))
   | 3 => dir == 1 && decide (8 ≤ mps ∧ mps ≤ 2048)
   | _ => decide (8 ≤ mps ∧ mps ≤ 4096))

/-- A record is valid (R142): record 0, or an endpoint record. -/
def recordOk (n : Nat) (b : List Byte) : Bool :=
  b.length == 256 && leNat (slice 252 4 b) == (crc32c (b.take 252)).toNat &&
  (if n = 0 then
    leNat (slice 0 1 b) == 1 && byteN (leNat (slice 1 1 b)) (leNat (slice 2 1 b)) &&
    leNat (slice 4 2 b) + leNat (slice 6 2 b) == 65535 && leNat (slice 8 2 b) + leNat (slice 10 2 b) == 65535
   else
    leNat (slice 0 1 b) == 2 && decide (leNat (slice 2 1 b) ≤ 16) &&
    (upto (leNat (slice 2 1 b))).all fun i => recordEntryOk (slice (8 + 12 * i) 12 b))

/-- The fields that the controller maintains start from zero (R151, Table 4.17). -/
def Ctx.fresh (c : Ctx) : Ctx :=
  { (((((c.setToggle 0).setPing false).setResident false).setShadow false).setErrCnt 0) with wrPtr := 0, rdPtr := 0, overrun := 0, priv := 0 }

/-- The tier that a route reaches: its fields before the first zero. -/
def routeTier (route : Nat) : Nat := ((upto 7).takeWhile fun i => route / 32 ^ i % 32 != 0).length

namespace State

/-- A context installed: its state is that of the image, and it is a shadow where the tree is the partner's (R154, R385). -/
def ctxInstall (s : State) (eph : Nat) (x : Ctx) : State :=
  let standby := s.shared (Eph.port eph) && !s.owns (Eph.port eph)
  (((s.ctxForget eph).ctxIn eph (x.fresh.setShadow standby)).onCtx eph fun k => { k with dirty := true })

/-! ### Starting a control transfer -/

/-- The ring number that marks an entry of the controller's own: no ring has it. -/
def noRing : Nat := 1024

/-- A control transfer on a cached endpoint 0 for a command, at the tail of the CONTROL list of the slice that owns the context (R227). -/
def startControl (s : State) (eph : Nat) (setup data : List Byte) (cmd : Nat × Nat) : State :=
  let owner := match s.ctx? eph with
    | some k => k.ctx.owner
    | none => 0
  let e : Entry :=
    { id := s.deal.nextId, slice := owner, ring := noRing, tds := [], bell := s.deal.bellSeq, needCtx := false, hostFail := false,
      isEntry := true, forCmd := some cmd, eph := eph, kind := 1, flow := 0, len := 8 + setupLen setup, st := .waiting, waitMet := false,
      counted := false, delay := none, nakRun := 0, nyFrom := none, spilled := false, started := false, data := data, moved := 0, stage := 0,
      setup := setup, ts := none, qc := 0, more := false, late := false, done := none, hostOut := 0, step1 := false }
  ({ s with entries := s.entries ++ [e] }.onDeal fun d => { d with nextId := d.nextId + 1 }).refresh 0

/-- The command index that stands for a CLEAR_HALT of a take-over (R394); the ring part is `noRing`, the index is the handle. -/
def startClear (s : State) (eph : Nat) : State :=
  s.startControl (eph / 128 * 128) (setupBytes 0x01 false 0 (epAddr (Eph.ep eph) (Eph.dir eph)) 0) [] (noRing, eph)

/-! ### ENUMERATE (R146, R197): stages 0 GET_RECORD(0), 1 SET_ADDRESS, 2 to 5 endpoint records, 6 calibration block, 7 SET_LINK_ASYM,
8 SET_CONFIGURATION. Between the last two, stage 9 is step 6 of Table 4.14, made at the next frame boundary, and stage 10 waits for its batch. -/

/-- Record 0 as read; its EP_RECORDS and CAGE. -/
def enumIdentity (c : CmdRec) : List Byte := (c.recs.find? fun b => b.length == 256).getD []
def enumRecords (c : CmdRec) : Nat := min 4 (leNat (Sys2Proof.slice 3 1 (enumIdentity c)))
def enumCage (c : CmdRec) : Bool := nfield (leNat (Sys2Proof.slice 32 1 (enumIdentity c))) 1 1 == 1

/-- PORT and ROUTE of the device. -/
def enumPort (c : CmdRec) : Nat := nfield (cmdArg0 c.bytes) 5 0
def enumRoute (c : CmdRec) : Nat := nfield (cmdArg0 c.bytes) 40 6

/-- What firmware knows of the hub above a device (R143, R144): its identity record, as ENUMERATE read it or the hub holds it, the calibration block of the
cage of the port that the route names, and that port's LAST_MEAN (log entry 94). -/
def hubAbove (s : State) (port route : Nat) : List Byte × List Byte × Nat :=
  let t := routeTier route
  let up := route % 32 ^ (t - 1)
  let f := route / 32 ^ (t - 1) % 32
  let id := Tbl.find s.cmgr.known (2 ^ 35 * port + up)
  match s.devOn port up with
  | some d => (id.getD (Tbl.get [] (s.dev d).records 0), Tbl.get [] (s.dev d).records (0x20 + f), (s.port (.hub d f)).lastMean)
  | none => (id.getD [], [], 2 ^ 32 - 1)

/-- A of the device's link (R144). The upstream end is the root port, with its transceiver's block and TIM_PDLYn, or a hub's port. What is missing counts
as zero (R59). -/
def enumAsym (s : State) (c : CmdRec) : Int :=
  let p := enumPort c
  let cal := (c.recs.find? fun b => b.length == 16).getD []
  let x := if routeTier (enumRoute c) = 0 then ([], (s.port (.root p)).cal, s.fgetN .TIM_PDLY_MEAN p) else s.hubAbove p (enumRoute c)
  linkAsym x.1 (enumIdentity c) x.2.1 cal (if x.2.2 = 2 ^ 32 - 1 then 0 else x.2.2)

/-- The SETUP and data of a stage. -/
def enumRequest (s : State) (c : CmdRec) (stage : Nat) : List Byte × List Byte :=
  match stage with
  | 0 => (setupBytes 0x06 true 0 0 256, [])
  | 1 => (setupBytes 0x05 false (nfield (cmdArg1 c.bytes) 11 0) 0 0, [])
  | 6 => (setupBytes 0x06 true 0x20 0 16, [])
  | 7 => (setupBytes 0x0B false 0 0 4, leBytes 4 (toBits 32 (s.enumAsym c)))
  | 8 => (setupBytes 0x09 false 1 0 0, [])
  | k => (setupBytes 0x06 true (k - 1) 0 256, [])

/-- The next stage after one: endpoint records that do not exist and a calibration block without a cage are passed over. -/
def enumNext (c : CmdRec) (stage : Nat) : Nat :=
  let n := if stage = 7 then 9 else stage + 1
  if 2 ≤ n ∧ n ≤ 5 ∧ enumRecords c < n - 1 then (if enumCage c then 6 else 7) else if n = 6 ∧ !enumCage c then 7 else n

/-- A stage starts; a context that is not in the cache ends the command BOUNDS. -/
def enumStage (s : State) (c : CmdRec) (stage : Nat) : State :=
  let p := nfield (cmdArg0 c.bytes) 5 0
  let eph := Eph.mk p (if stage ≤ 1 then 0 else nfield (cmdArg1 c.bytes) 11 0) 0 0
  if (s.ctx? eph).isNone then s.cmdDone c.ring c.idx stBounds c.result
  else
    let (setup, data) := s.enumRequest c stage
    (s.onCmd c.ring c.idx fun c => { c with stage := stage }).startControl eph setup data (c.ring, c.idx)

/-- The codes other than OK that R198 lets ENUMERATE complete with: those named in R193 to R197, those of a control transfer, and HOST_ERROR. -/
def enumCodes : List Nat :=
  [stIntegrity, stBounds, stMisaligned, stAbsent, stLength, stShort, stStall, stBabble, stNoResponse, stCrcFail, stToggle, stNotyet, stBusReset,
    stDisconnected, stCancelled, stHostError]

/-- The endpoint-0 context of the device's new address (log entry 94): one that stands is used; else, and where it is DISABLED (Table 4.17), that of the
default context, with the address, the MPS of the identity record, and RUNNING. False where no slot of the cache is free for it. -/
def enumContext (s : State) (c : CmdRec) : State × Bool :=
  let p := enumPort c
  let eph := Eph.mk p (nfield (cmdArg1 c.bytes) 11 0) 0 0
  let stands := (s.ctx? eph).any fun k => k.bad || k.ctx.state != 0
  match stands, s.ctx? (Eph.mk p 0 0 0) with
  | true, _ => (s, true)
  | false, some k =>
    match if (s.ctx? eph).isSome then (s, true) else s.ctxRoom c.host with
    | (s1, true) =>
      let key := nset (nset (nset k.ctx.key0 31 29 0) 28 25 (leNat (Sys2Proof.slice 33 1 (enumIdentity c)) % 16)) 24 0 eph
      (s1.ctxInstall eph ({ k.ctx with key0 := key, key0n := 2 ^ 32 - 1 - key }.setState 2), true)
    | (s1, false) => (s1, false)
  | false, none => (s, false)

/-- A stage completed OK with its data. An invalid record ends the command, with DEVICE_FAIL; the spec names no status for it, so it is a free one of those
that R198 allows. A calibration block that does not check counts as missing (R60, R143). With no slot of the cache free for the endpoint-0 context
the command ends OVERBOOKED, as EP_INSTALL does under R157; the spec names no status for ENUMERATE there (DESIGN CHOICE, log entry 94). -/
def enumDone (s : State) (c : CmdRec) (data : List Byte) : State :=
  let p := enumPort c
  let a := nfield (cmdArg1 c.bytes) 11 0
  let buf := cmdArg2 c.bytes
  let next (s : State) (c : CmdRec) : State := s.enumStage c (enumNext c c.stage)
  let record (n : Nat) : State :=
    if recordOk n data then
      let c1 := { c with
        result := c.result + 1 + (if n = 0 then nfield (leNat (Sys2Proof.slice 32 1 data)) 0 0 * 512 else 0), recs := c.recs ++ [data] }
      let s1 := (s.emits (confirmed 0 (buf + 256 * n) data)).onCmd c.ring c.idx fun _ => c1
      if n = 0 then
        match (s1.onCmgr fun m => { m with known := Tbl.put m.known (2 ^ 35 * p + enumRoute c) data }).enumContext c1 with
        | (s2, true) => next s2 c1
        | (s2, false) => s2.cmdDone c.ring c.idx stOverbooked c1.result
      else next s1 c1
    else
      ((s.event1 evDeviceFail 0 0 ((if n = 0 then 0 else a) * 64 + p) n).draw).cmdDone c.ring c.idx
        (enumCodes.getD (s.freeValue % enumCodes.length) stIntegrity) c.result
  match c.stage with
  | 0 => record 0
  | 1 => next s c
  | 6 =>
    if calOk data then
      let c1 := { c with result := c.result + 256, recs := c.recs ++ [data] }
      next ((s.emits (confirmed 0 (buf + 1280) data)).onCmd c.ring c.idx fun _ => c1) c1
    else next s c
  | 7 => s.onCmd c.ring c.idx fun c => { c with stage := enumNext c 7 }
  | 8 => s.cmdDone c.ring c.idx stOk c.result
  | k => record (k - 1)

/-! ### After a control transfer of the controller's own -/

/-- What follows one that ended. -/
def internalEnd (s : State) (e : Entry) (d : Done) : State :=
  match e.forCmd with
  | none => s
  | some (r, i) =>
    let s1 := { s.endEntry e d.status with entries := (s.endEntry e d.status).entries.filter fun o => o.id != e.id }
    if r = noRing then
      let s2 := s1.onTwin fun w => { w with toClear := w.toClear.filter (· != i) }
      (if d.status = stOk then s2 else s2.ctxHalt i d.status).refresh 0
    else match s1.cmd? r i with
      | none => s1
      | some c =>
        if c.op = 0x14 then s1.cmdDone r i d.status 0
        else if d.status = stOk then s1.enumDone c e.data else s1.cmdDone r i d.status c.result

/-- EP_REMOVE of an endpoint without a transaction in flight: its pending TDs complete CANCELLED in order, the context is written back and
is DISABLED. Stage 1 waits for the transaction in flight; `arg` is the host address of its slot plus 1, or 0 where it cannot be reached. -/
def removeEnd (s : State) (c : CmdRec) : State :=
  let eph := nfield (cmdArg1 c.bytes) 24 0
  if s.txns.any fun t => t.eph == eph then s
  else
    let s1 := s.finishWhere (fun e => e.eph == eph && e.kind != 4) stCancelled
    let s2 := (s1.coderStop eph)
    match s2.ctx? eph with
    | none => s2.cmdDone c.ring c.idx stBounds 0
    | some k =>
      let drop (s : State) : State := (({ s with ctxs := Tbl.del s.ctxs eph }.ctxForget eph).onCmgr fun m =>
        { m with left := Tbl.put m.left eph m.events.length }).memberLeft eph
      if field s2.cmgr.dir 0 0 = 0 then ((drop s2).cmdDone c.ring c.idx stOk 0).refresh 0
      else if c.arg = 0 then s2.cmdDone c.ring c.idx stHostError 0
      else (drop (s2.ctxOut (c.arg - 1) { k with ctx := k.ctx.setState 0 })).cmdDone c.ring c.idx stOk 0

/-- The commands that wait for a transaction or a control transfer go on; the fuel is the number of entries that may end. -/
def settle (s : State) : Nat → State
  | 0 => s
  | n + 1 =>
    match s.entries.find? (fun e => e.forCmd.isSome && e.done.isSome) with
    | some e =>
      match e.done with
      | some d => settle (s.internalEnd e d) n
      | none => s
    | none => (s.cmds.filter fun c => c.op == 0x11 && c.stage == 1 && c.status.isNone).foldl removeEnd s

/-- All of them. -/
def settled (s : State) : State := s.settle (s.entries.length + 1)

end State

/-! ### Commands of the port engine -/

/-- TRANSACTION_START: root port `n` at `t`. R123 leaves open which free TAG is taken: it is the operand `tag`, and with one that is not free
nothing starts. -/
def execTransactionStart (n tag t : Nat) (s : State) : Host.Outcome State Fault Refusal :=
  .next ((((s.at_ t).startNext n tag t).settled).suspendTry n t)

/-- ANSWER_RECEIVE: an answer arrived on a root port at `t`, its last symbol at `tEnd`. One that no transaction holds the TAG of is discarded and
counted; a poisoned one is noted and discarded (R129, R130). One whose first header symbol crossed after T_wait is late: the controller decided at T_wait
that there is none, and what comes later is unsolicited (R128). -/
def execAnswerReceive (n : Nat) (p : Pkt) (poisoned : Bool) (t tEnd : Nat) (s : State) : Host.Outcome State Fault Refusal :=
  let s0 := s.at_ tEnd
  match s0.txns.find? (fun x => x.port == n && x.tag == p.tag) with
  | none => .next (s0.count .SCH_XERR_UNSOLICITED)
  | some x =>
    if s0.waited x (t * 10) then
      .next ((((({ s0 with txns := s0.txns.filter fun y => !(y.port == n && y.tag == p.tag) }.traceAnswer x t (16 + p.pid)).noAnswer x).count
        .SCH_XERR_UNSOLICITED).afterOutcome x.eph).settled.suspendTry n tEnd)
    else if poisoned then .next (s0.onCtx x.eph fun k => { k with poisonSeen := true })
    else
      let s1 := { s0 with txns := s0.txns.filter fun y => !(y.port == n && y.tag == p.tag) }
      .next (((((s1.traceAnswer x t p.pid).takeAnswer x p t tEnd).afterOutcome x.eph).settled).suspendTry n tEnd)

/-- ANSWER_TIMEOUT: T_wait of a transaction passed without an answer (R128); before it nothing is decided. -/
def execAnswerTimeout (n tag t : Nat) (s : State) : Host.Outcome State Fault Refusal :=
  let s0 := s.at_ t
  match s0.txns.find? (fun x => x.port == n && x.tag == tag) with
  | none => .next s0
  | some x =>
    if !s0.waited x (t * 10) then .next s0
    else
    let s1 := { s0 with txns := s0.txns.filter fun y => !(y.port == n && y.tag == tag) }
    .next (((((s1.traceAnswer x 0 0).noAnswer x).afterOutcome x.eph).settled).suspendTry n t)

/-- CONTROL_TRANSFER_TIMEOUT: the control transfer in progress on an endpoint 0 is not complete 50 ms after its SETUP (R137). -/
def execControlTransferTimeout (eph : Nat) (s : State) : Host.Outcome State Fault Refusal :=
  match s.entries.find? (fun e => e.eph == eph && e.kind == 1 && e.started && e.done.isNone) with
  | some e => .next (((s.finish e.id stNoResponse).refresh 0).settled)
  | none => .next s

end Sys2Proof.Machine
end

