-- ==== Sys2Proof/Machine/Rings.lean ====
section
/-! DEFINITION. Machine/Rings.lean: doorbells (R169–R171), the manager rings (R173), and the commands that act on rings and on the TDs handed
over on them (R197). -/

namespace Sys2Proof.Machine

namespace State

/-! ### Doorbells -/

/-- A doorbell that is ignored and counted (R170, R338). -/
def dbIgnored (s : State) (n : Nat) : State := (s.countN .SLC_STS_DB_IGNORED n 1).raiseN .SLT_EVT_DB_IGNORED n

/-- Room came back on a producer ring: what waited for it is written (R191, R457). A STREAM ring's records go out by their own row. -/
def roomBack (s : State) (r : Nat) : State :=
  match (s.ring r).type r with
  | 2 => s.ringRoom r
  | 4 => if r = 3 then s.auditFlush else s
  | _ => s

/-- The check of R170 on a ring in use, and the new TAIL. -/
def ringBell (s : State) (r db : Nat) : State :=
  let g := s.ring r
  let tail := db % 2 ^ 20
  if g.st = 0 ∨ g.st = 3 then s
  else if db / 2 ^ 20 ≠ 0 ∨ g.size ≤ tail then s.ringErrorEvent r 1 g.tail db
  else
    let d := (tail + g.size - g.tail) % g.size
    let consumer := g.type r ≤ 1
    let room := if consumer then (g.head + 2 * g.size - 1 - g.tail) % g.size else (g.head + g.size - g.tail) % g.size
    if room < d then s.failRing r 2 g.tail db
    else if d = 0 then s
    else if consumer then
      (s.onDeal fun x => { x with bellSeq := x.bellSeq + 1 }).onRing r fun g =>
        { g with tail := tail, bells := g.bells ++ [(d, s.deal.bellSeq + 1)] }
    else (s.onRing r fun g => { g with tail := tail }).roomBack r

/-- The ring that a slice holds at a doorbell index. -/
def ringAt (s : State) (n j : Nat) : Option Nat :=
  (s.rings.find? fun x => x.2.slice == some n && x.2.dbIdx == j).map Prod.fst

end State

/-- DOORBELL: on manager ring `j`, or at index `j` of a slice's page. A FREE slice's page ignores writes (R337). -/
def execDoorbell (slice : Option Nat) (j db : Nat) (s : State) : Host.Outcome State Fault Refusal :=
  (if s.inSafe && slice.isNone && j != 2 then id else s.whenReady) (
    match slice with
    | none => .next (if j < 4 then s.ringBell j db else s)
    | some n =>
      if s.nSlices ≤ n ∨ s.sliceState n = 0 ∨ 64 ≤ j then .next s
      else match s.ringAt n j with
        | some r => .next (if s.sliceState n = 4 ∨ (s.ring r).st = 0 then s.dbIgnored n else s.ringBell r db)
        | none => .next (s.dbIgnored n))

/-! ### Manager rings (R173) -/

/-- MRING_ENABLE: SCH_MRINGn_CTL.ENABLE goes from 0 to 1. A refused ring reads ENABLE = 0. -/
def execMringEnable (n : Nat) (s : State) : Host.Outcome State Fault Refusal :=
  (if s.inSafe && n != 2 then id else s.whenReady) (
    let geo := s.rd .SCH_MRING_GEO n
    if 4 ≤ n ∨ s.flagN .SCH_MRING_CTL_ENABLE n then .next s
    else if s.rd .SCH_MRING_GEO_N n ≠ ~~~ geo then .next (if (s.ring 1).st = 1 then s.integrity 4 n n 0 0 else s)
    else if field geo 9 5 < 4 ∨ 20 < field geo 9 5 then
      .next (if (s.ring 1).st = 1 then s.ringErrorEvent n 6 0 geo.toNat else s)
    else
      let s1 := (s.fsetN .SCH_MRING_CTL_ENABLE n 1).onRing n fun g =>
        { g with st := 1, geo := geo, geoN := ~~~ geo, head := 0, tail := 0, phase := true, bells := [], cancelled := [] }
      .next (s1.roomBack n))

/-- MRING_DISABLE: ENABLE written 0. Records that were due for the ring are counted as lost. -/
def execMringDisable (n : Nat) (s : State) : Host.Outcome State Fault Refusal :=
  (if s.inSafe && n != 2 then id else s.whenReady) (
    if 4 ≤ n then .next s
    else .next ((s.fsetN .SCH_MRING_CTL_ENABLE n 0).onRing n fun g =>
      { g with st := 0, lost := g.lost + g.kept.length, kept := [], bells := [], cancelled := [] }))

/-! ### RING_ commands (R197) -/

namespace State

/-- A command that acts on an allotted ring: the ring is present, no manager ring, the tenant's own and not the issuing ring, and its slice is
not held (R5, R195, R197, R329). -/
def onAllotted (s : State) (c : CmdRec) (n : Nat) (fixed : Bool) (body : State → State) : State :=
  if s.nRings ≤ n then s.cmdDone c.ring c.idx stAbsent 0
  else if c.slice.isSome ∧ ((s.ring n).slice ≠ c.slice ∨ n = c.ring) then s.cmdForeign c
  else if n < 4 ∨ (fixed ∧ (((s.ring n).slice.map s.sliceFixed).getD false = true)) then s.cmdDone c.ring c.idx stBounds 0
  else body s

/-- RING_QUERY's RESULT. -/
def ringResult (s : State) (n : Nat) : Nat := (s.ring n).st * 2 ^ 40 + (s.ring n).tail * 2 ^ 20 + (s.ring n).head

/-- Checks 2 to 6 of RING_CREATE, in their order. -/
def createStatus (s : State) (b : List Byte) : Nat :=
  let geo := cmdArg0 b
  let n := nfield (cmdArg2 b) 9 0
  let sl := nfield (cmdArg2 b) 23 16
  let typ := nfield geo 11 10
  let k := nfield geo 9 5
  let e := nfield geo 4 0
  let bytes := 2 ^ k * (if typ = 3 then 2 ^ e else if typ = 2 then 16 else 32)
  let er := nfield (cmdArg2 b) 33 24
  let evt := s.ring er
  if cmdArg1 b ≠ 2 ^ 64 - 1 - geo then stIntegrity
  else if (s.ring n).slice ≠ some sl ∨ (s.ring n).st ≠ 0 then stBounds
  else if k < 4 ∨ 20 < k ∨ (if typ = 3 then decide (e < 6 ∨ 16 < e ∨ 32 < k + e) else e != 0) then stLength
  else if s.hostStatus (some sl) (nfield geo 63 12 * 4096) bytes ≠ stOk then s.hostStatus (some sl) (nfield geo 63 12 * 4096) bytes
  else if typ ≠ 2 ∧ (evt.slice ≠ some sl ∨ evt.st ≠ 1 ∨ evt.type er ≠ 2) then stBounds
  else stOk

/-- RING_CREATE. An absent slice or event ring comes first (R5). Unequal arguments complete it INTEGRITY without an INTEGRITY event (R410, the list behind Table 13.6; log entry 106). -/
def ringCreate (c : CmdRec) (s : State) : State :=
  let b := c.bytes
  let geo := BitVec.ofNat 64 (cmdArg0 b)
  let a2 := cmdArg2 b
  let n := nfield a2 9 0
  let sl := nfield a2 23 16
  let er := nfield a2 33 24
  if s.nSlices ≤ sl ∨ (field geo 11 10 ≠ 2 ∧ s.nRings ≤ er) then s.cmdDone c.ring c.idx stAbsent 0
  else if c.slice.isSome ∧ (c.slice ≠ some sl ∨ (field geo 11 10 ≠ 2 ∧ ((s.ring er).slice ≠ c.slice ∨ er = c.ring))) then s.cmdForeign c
  else
    let st := s.createStatus b
    if st ≠ stOk then
      let s1 := s.cmdDone c.ring c.idx st 0
      if cmdArg1 b = 2 ^ 64 - 1 - cmdArg0 b then s1.boundsBroken (some sl) st else s1
    else
      (s.onRing n fun g => { Ring.init with
        st := 1, geo := geo, geoN := ~~~ geo, phase := true, slice := g.slice, dbIdx := g.dbIdx,
        evtRing := if field geo 11 10 = 2 then 0 else er, vector := nfield a2 36 34 }).cmdDone c.ring c.idx stOk 0

/-- RING_START. An EVT_RING that was destroyed and has since been created again as an EVENT ring of the slice serves: the check is on the ring as it stands
(DESIGN CHOICE, log entry 109). -/
def ringStart (c : CmdRec) (s : State) : State :=
  let n := nfield (cmdArg0 c.bytes) 9 0
  let g := s.ring n
  let done (s : State) (st : Nat) : State := s.cmdDone c.ring c.idx st (if st = stOk then s.ringResult n else 0)
  if g.st ≠ 2 ∧ g.st ≠ 3 then done s stBounds
  else if !g.geoOk then done (s.ringError n 0) stIntegrity
  else
    let e := s.ring g.evtRing
    if g.type n ≠ 2 ∧ (e.st = 0 ∨ e.slice ≠ g.slice ∨ e.type g.evtRing ≠ 2) then
      done (s.event1 0x04 0 n (5 * 2 ^ 28) 0) stBounds
    else done ((s.onRing n fun g => { g with st := 1 }).roomBack n) stOk

/-- A command handed over and not taken becomes one that completed CANCELLED. -/
def cancelCmd (s : State) (n : Nat) (b : List Byte) : State :=
  let g := s.ring n
  let c : CmdRec := { ring := n, idx := g.head, slice := g.slice, op := cmdOp b, bytes := b, status := some stCancelled, result := 0, stage := 0, arg := 0 }
  { s.passHead n 1 with cmds := s.cmds ++ [c] }

/-- A TD handed over and not taken becomes one that completed CANCELLED. -/
def cancelTd (s : State) (n : Nat) (b : List Byte) : State := s.takeCancelled (s.newEntry n [((s.ring n).head, ⟨b⟩)] [])

/-- What is handed over on a ring and not taken completes CANCELLED in ring order; `imgs` are the entries from HEAD on, as read. -/
def cancelHanded (s : State) (n : Nat) : List HostRead → State
  | [] => s
  | .failed :: _ => s.failRing n 4 (s.ring n).head 0
  | .ok b :: rest => if (s.ring n).type n = 1 then (s.cancelCmd n b).cancelHanded n rest else (s.cancelTd n b).cancelHanded n rest

/-- Entries handed over and not taken. -/
def handed (s : State) (n : Nat) : Nat := ((s.ring n).tail + (s.ring n).size - (s.ring n).head) % (s.ring n).size

/-- An ACTIVE ring, a gather group or a coder stream names the ring. -/
def ringNamed (s : State) (n : Nat) : Bool :=
  (s.rings.any fun x => x.2.st == 1 && x.2.type x.1 != 2 && decide (4 ≤ x.1) && x.2.evtRing == n) || (s.smp.groups.any fun x => x.2.ring == n) ||
  s.smp.streams.any fun x => x.2.ring == n

/-- RING_DESTROY. A read of a handed entry that fails ends the command HOST_ERROR, with that entry and those behind it untouched (R172). -/
def ringDestroy (imgs : List HostRead) (c : CmdRec) (s : State) : State :=
  let n := nfield (cmdArg0 c.bytes) 9 0
  let g := s.ring n
  if (g.st ≠ 2 ∧ g.st ≠ 3) ∨ s.ringNamed n then s.cmdDone c.ring c.idx stBounds 0
  else if g.type n ≤ 1 then
    let l : List HostRead := (imgs ++ List.replicate (s.handed n) HostRead.failed).take (s.handed n)
    let s1 := s.cancelHanded n l
    if s1.handed n ≠ 0 then s1.cmdDone c.ring c.idx stHostError 0
    else (s1.onCmd c.ring c.idx fun k => { k with stage := 1 }).destroyed n
  else (s.onCmd c.ring c.idx fun k => { k with stage := 1 }).destroyed n

/-! ### TD_CANCEL (R197, Table 7.6) -/

/-- The offset from FROM of an index is below the number of entries from FROM up to TAIL − 1. -/
def inCancel (g : Ring) (from_ i : Nat) : Bool :=
  decide ((i + g.size - from_) % g.size < (g.tail + g.size - from_) % g.size)

/-- The untaken TDs that are cancelled: a chain whose first TD lies in the range, whole. `i` is the offset from HEAD of the TD looked at; `open_` is
what holds of the chain that it continues and how many TDs of that stand before it: after 64 the next TD starts a new chain (R186). -/
def cutList (g : Ring) (from_ : Nat) : List Td → Nat → Option (Bool × Nat) → List Nat
  | [], _, _ => []
  | t :: r, i, open_ =>
    let x := (g.head + i) % g.size
    let (cut, n) := open_.getD (inCancel g from_ x, 0)
    (if cut then [x] else []) ++ cutList g from_ r (i + 1) (if t.chn && n < 63 then some (cut, n + 1) else none)

/-- TD_CANCEL. -/
def tdCancel (imgs : List HostRead) (c : CmdRec) (s : State) : State :=
  let n := nfield (cmdArg0 c.bytes) 9 0
  let from_ := nfield (cmdArg0 c.bytes) 39 20
  let g := s.ring n
  if g.st = 0 ∨ g.type n ≠ 0 ∨ g.size ≤ from_ then s.cmdDone c.ring c.idx stBounds 0
  else
    let l : List HostRead := (imgs ++ List.replicate (s.handed n) HostRead.failed).take (s.handed n)
    match l.findIdx? (· == .failed) with
    | some i => (s.failRing n 4 ((g.head + i) % g.size) 0).cmdDone c.ring c.idx stHostError 0
    | none =>
      let tds : List Td := l.map fun x => match x with
        | .ok b => ⟨b⟩
        | .failed => ⟨[]⟩
      let cut := (cutList g from_ tds 0 none).filter fun i => !g.cancelled.contains i
      let taken := s.entries.filter fun e => e.ring == n && e.forCmd.isNone && !e.started && e.done.isNone && e.st != .ended &&
        (match e.tds.head? with
         | some (i, _) => inCancel g from_ i
         | none => false)
      let s1 := s.onRing n fun g => { g with cancelled := g.cancelled ++ cut }
      let any (e : Entry) : Bool := e.counted && (doneOf e).any fun x => x.2 == 1
      let s2 := taken.foldl (fun s e => (s.finish e.id stCancelled).traceEntry 6 e stCancelled 0 (2 * bit (any e)) 0) s1
      (s2.cmdDone c.ring c.idx stOk (cut.length + (taken.map fun e => e.tds.length).foldl (· + ·) 0)).refresh 0

end State

/-- RING_CREATE. -/
def execRingCreate (r : Nat) (d : HostRead) (s : State) : Host.Outcome State Fault Refusal :=
  .next (s.withCmd r d (· == 0x01) fun c s => s.onAllotted c (nfield (cmdArg2 c.bytes) 9 0) true (State.ringCreate c))

/-- RING_STOP. -/
def execRingStop (r : Nat) (d : HostRead) (s : State) : Host.Outcome State Fault Refusal :=
  .next (s.withCmd r d (· == 0x02) fun c s =>
    let n := nfield (cmdArg0 c.bytes) 9 0
    s.onAllotted c n true fun s =>
      let s1 := s.onRing n fun g => if g.st = 1 then { g with st := 2 } else g
      if (s.ring n).st = 0 then s1.cmdDone c.ring c.idx stBounds 0 else s1.cmdDone c.ring c.idx stOk (s1.ringResult n))

/-- RING_START. -/
def execRingStart (r : Nat) (d : HostRead) (s : State) : Host.Outcome State Fault Refusal :=
  .next (s.withCmd r d (· == 0x03) fun c s => s.onAllotted c (nfield (cmdArg0 c.bytes) 9 0) true (State.ringStart c))

/-- RING_DESTROY: `imgs` are the entries handed over and not taken, as read. -/
def execRingDestroy (r : Nat) (d : HostRead) (imgs : List HostRead) (s : State) : Host.Outcome State Fault Refusal :=
  .next (s.withCmd r d (· == 0x04) fun c s => s.onAllotted c (nfield (cmdArg0 c.bytes) 9 0) true (State.ringDestroy imgs c))

/-- RING_QUERY. -/
def execRingQuery (r : Nat) (d : HostRead) (s : State) : Host.Outcome State Fault Refusal :=
  .next (s.withCmd r d (· == 0x05) fun c s =>
    let n := nfield (cmdArg0 c.bytes) 9 0
    s.onAllotted c n false fun s => s.cmdDone c.ring c.idx stOk (s.ringResult n))

/-- TD_CANCEL: `imgs` are the entries handed over and not taken, as read. -/
def execTdCancel (r : Nat) (d : HostRead) (imgs : List HostRead) (s : State) : Host.Outcome State Fault Refusal :=
  .next (s.withCmd r d (· == 0x18) fun c s => s.onAllotted c (nfield (cmdArg0 c.bytes) 9 0) true (State.tdCancel imgs c))

end Sys2Proof.Machine
end

