-- ==== Sys2Proof/Machine/Xcvr.lean ====
section
/-! DEFINITION. Machine/Xcvr.lean: transceivers: the identity buses (R111, R112) and the module sideband chain (R113, R114). -/

namespace Sys2Proof.Machine

namespace State

def cage (s : State) (c : Nat) : Cage := Tbl.get Cage.init s.side.cages c
def onSide (s : State) (f : Sideband → Sideband) : State := { s with side := f s.side }

/-! ### Identity buses (R111) -/

/-- The lines of bus `k` are released: no port of the part is on it. -/
def idbReleased (s : State) (k : Nat) : Bool := decide (s.nPorts ≤ 16 * k)

/-- The switch of the bus of port `n` leads to its cage, channel n mod 16. -/
def idbSelect (s : State) (n : Nat) : State :=
  if s.idbReleased (n / 16) then s else s.emit (.idbWrite (n / 16) 0x70 [BitVec.ofNat 8 (0x10 + n % 16)])

/-- Every channel of it is deselected. -/
def idbDeselect (s : State) (n : Nat) : State := if s.idbReleased (n / 16) then s else s.emit (.idbWrite (n / 16) 0x70 [0x00])

/-- Bytes of page 0xA0 (0) or 0xA2 (1) of the selected cage are read, `bytes` of them from byte `first` (R112). -/
def idbRead (s : State) (n page first bytes : Nat) : State :=
  if s.idbReleased (n / 16) then s else s.emit (.idbRead (n / 16) (0x50 + page) first bytes)

/-- TX_DISABLE of a port (R114). -/
def txDisabled (s : State) (n : Nat) : Bool :=
  let st := s.fgetN .PRT_STS_STATE n
  decide (s.nPorts ≤ n) || st == 0 || st == 9 || field (s.port (.root n)).cfg 4 4 == 0 || field (s.port (.root n)).cfg 7 7 != 0 ||
    s.flagN .PRT_STS_TX_FAULT n

/-- All TX_DISABLE outputs. -/
def txDisableWord (s : State) : DWord := BitVec.ofNat 64 (((upto 64).map fun n => if s.txDisabled n then 2 ^ n else 0).foldl (· + ·) 0)

end State

/-- A cage after one good scan: equal scans counted, the run restarting where the bit changed. -/
def Cage.scan (c : Cage) (modAbs los txFault : Bool) : Cage where
  modAbs := modAbs
  modAbsRun := if modAbs = c.modAbs then min 1000 (c.modAbsRun + 1) else 1
  los := los
  losRun := if los = c.los then min 3 (c.losRun + 1) else 1
  txFault := txFault
  txFaultRun := if txFault = c.txFault then min 3 (c.txFaultRun + 1) else 1

/-- The 256 bits of MSC_DO as they are sent, bit 255 first: TX_DISABLE of cage c at bit 4c, 0 elsewhere (R113, Table 3.14). -/
def mscBits (tx : DWord) : List Bool := (upto 256).map fun i => (255 - i) % 4 == 0 && tx.getLsbD ((255 - i) / 4)

/-- What a scan finds: bit `b` of `bits` arrived on edge `b` (Table 3.14). A scan with a CHAIN bit of 1, whichever it is, counts as bad; while
MSC_FAULT is 1, and already in the first bad scan, inputs and outputs are held (log entry 90). -/
def State.scanned (s : State) (bits : Nat) : State :=
  if (upto 64).any fun c => nfield bits (4 * c + 3) (4 * c + 3) == 1 then
    s.onSide fun x => { x with chainBad := min 2 (x.chainBad + 1), chainGood := 0 }
  else
    let s1 := s.onSide fun x => { x with chainBad := 0, chainGood := min 16 (x.chainGood + 1) }
    if s1.side.fault then s1
    else s1.onSide fun x => { x with
      txDisable := s1.txDisableWord
      cages := (upto 64).map fun c => (c, (s1.cage c).scan (nfield bits (4 * c) (4 * c) == 1)
        (nfield bits (4 * c + 1) (4 * c + 1) == 1) (nfield bits (4 * c + 2) (4 * c + 2) == 1)) }

/-- One scan of the chain: MSC_LD pulses, and the outputs are shifted out while the inputs come in (R113). -/
def execSidebandScan (bits : Nat) (s : State) : Host.Outcome State Fault Refusal :=
  let s1 := s.scanned bits
  .next (s1.emit (.msc (mscBits s1.side.txDisable)))

/-- The transceiver of a port goes, or faults: any state but DISABLED moves to DISCONNECTED with XCVR (Table 3.11). -/
def State.xcvrGone (s : State) (n : Nat) : State :=
  let p := PortId.root n
  let st := s.portState p
  if st = 0 ∨ field (s.port p).cfg 4 4 = 0 then s.change p [.PRT_CHG_XCVR]
  else s.disconnect p (if hasLink st ∨ (s.link (.port p)).up then [.PRT_CHG_DISCONNECT, .PRT_CHG_XCVR] else [.PRT_CHG_XCVR])

/-- A change of MOD_ABS after 1,000 equal scans is accepted: presence, or removal, which also ends a latched TX_FAULT (R114). -/
def execModAbsChange (n : Nat) (s : State) : Host.Outcome State Fault Refusal :=
  let c := s.cage n
  if n < s.nPorts ∧ 1000 ≤ c.modAbsRun ∧ s.flagN .PRT_STS_XCVR_PRESENT n = c.modAbs then
    let s1 := (s.fsetN .PRT_STS_XCVR_PRESENT n (bit (!c.modAbs))).onPort (.root n) fun x => { x with identDone := false, reading := false }
    if c.modAbs then
      .next ((((s1.fsetN .PRT_STS_TX_FAULT n 0).fsetN .PRT_STS_XCVR_RATED n 0).fsetN .PRT_STS_CAL_OK n 0).xcvrGone n)
    else .next (s1.change (.root n) [.PRT_CHG_XCVR])
  else .next s

/-- LOS as three equal scans have it; on a port with a cage LOS = 0 is the detection of a signal (R114). -/
def State.losAccept (s : State) (n : Nat) (los : Bool) : State :=
  let s1 := s.fsetN .PRT_STS_LOS n (bit los)
  if !los && field (s.port (.root n)).cfg 4 4 != 0 then s1.signalSeen (.root n) else s1

/-- A change of LOS or TX_FAULT after three equal scans is accepted; TX_FAULT is latched (R114). -/
def execLosTxFaultAccept (n : Nat) (s : State) : Host.Outcome State Fault Refusal :=
  let c := s.cage n
  if n < s.nPorts then
    let s1 := if 3 ≤ c.losRun then s.losAccept n c.los else s
    if 3 ≤ c.txFaultRun ∧ c.txFault ∧ s1.flagN .PRT_STS_TX_FAULT n = false then
      .next ((s1.fsetN .PRT_STS_TX_FAULT n 1).xcvrGone n)
    else .next s1
  else .next s

/-- MSC_FAULT on every port, with XCVR on every present one; or its end after 16 good scans (R114). -/
def execMscFault (s : State) : Host.Outcome State Fault Refusal :=
  if 2 ≤ s.side.chainBad ∧ ¬ s.side.fault then
    let s1 := s.onSide fun x => { x with fault := true }
    .next ((upto s1.nPorts).foldl (fun s n => (s.fsetN .PRT_STS_MSC_FAULT n 1).change (.root n) [.PRT_CHG_XCVR]) s1)
  else if 16 ≤ s.side.chainGood ∧ s.side.fault then
    let s1 := s.onSide fun x => { x with fault := false }
    .next ((upto s1.nPorts).foldl (fun s n => s.fsetN .PRT_STS_MSC_FAULT n 0) s1)
  else .next s

/-! ### Identification (R112) -/

/-- Identification starts 300 ms after presence was accepted: the cage's channel is selected and page 0xA0 read. -/
def execXcvrIdentify (n : Nat) (s : State) : Host.Outcome State Fault Refusal :=
  if decide (n < s.nPorts) && s.flagN .PRT_STS_XCVR_PRESENT n && field (s.port (.root n)).cfg 4 4 != 0 &&
      !(s.port (.root n)).identDone then
    .next ((((s.onPort (.root n) fun x => { x with reading := true }).idbSelect n).idbRead n 0 0 128))
  else .next s

/-- Bytes 0–127 of page 0xA0 identify a transceiver. -/
def identOk (b : List Byte) : Bool :=
  (b.head?.map BitVec.toNat) == some 3 &&
  (b.drop 63).head?.map BitVec.toNat == some (((b.take 63).map BitVec.toNat).foldl (· + ·) 0 % 256)

/-- Page 0xA0 is read: identified, rated, calibration block (R60, R112). Identification ends, after page 0xA2 where byte 92 says that there is one; for it
the channel is selected again, as another cage of the bus may have been served meanwhile. -/
def State.identify (s : State) (n : Nat) (b : List Byte) : State :=
  let ok := identOk b
  let more := nfield (leNat (Sys2Proof.slice 92 1 b)) 6 6 == 1
  let rate := leNat (Sys2Proof.slice 12 1 b)
  let cal := Sys2Proof.slice 96 16 b
  let s1 := ((s.fsetN .PRT_STS_XCVR_RATED n (bit (ok && decide (55 ≤ rate)))).fsetN .PRT_STS_CAL_OK n (bit (ok && calOk cal))).onPort
    (.root n) fun x => { x with identDone := !more, reading := more, cal := cal }
  if more then (s1.idbSelect n).idbRead n 1 0 128 else (s1.idbDeselect n).change (.root n) [.PRT_CHG_XCVR]

/-- The diagnostics of a cage, which pass to the health monitor (R112). -/
def State.diagTake (s : State) (n : Nat) (b : List Byte) : State := s.onHlt fun h => { h with diags := Tbl.put h.diags n b }

/-- Page 0xA2 is read, and identification ends: with its diagnostics, or, where it does not answer, unidentified and not rated (R112). -/
def State.identify2 (s : State) (n : Nat) (data : HostRead) : State :=
  let s1 := match data with
    | .ok b => (s.onPort (.root n) fun x => { x with identDone := true, reading := false }).diagTake n (Sys2Proof.slice 96 10 b)
    | .failed => ((s.fsetN .PRT_STS_XCVR_RATED n 0).fsetN .PRT_STS_CAL_OK n 0).onPort (.root n) fun x => { x with
        identDone := true, reading := false, cal := [] }
  (s1.idbDeselect n).change (.root n) [.PRT_CHG_XCVR]

/-- A read on an identity bus ends with the page's bytes, or fails after three attempts (R112). Page 0xA0 identifies the
transceiver while its identification runs; a page that XCVR_READ waits for is written to its buffer (R197). -/
def execIdentityBusReadDone (n page : Nat) (data : HostRead) (s : State) : Host.Outcome State Fault Refusal :=
  let b : List Byte := match data with
    | .ok b => b
    | .failed => []
  let s1 := if (s.port (.root n)).reading && page == 0 then s.identify n b
    else if (s.port (.root n)).reading && page == 1 then s.identify2 n data
    else s
  if (s1.port (.root n)).xcvrRead = some page then
    let s2 := (s1.onPort (.root n) fun x => { x with xcvrRead := none }).idbDeselect n
    let mine : CmdRec → Bool := fun c => c.op == 0x21 && c.arg == n && c.status.isNone
    match data with
    | .ok b =>
      .next (((s2.cmds.filter mine).foldl (fun s c =>
        s.emits (confirmed (match c.slice with
          | some k => (s.slice k).pasid
          | none => 0) (cmdArg2 c.bytes) (b.take 256))) s2).cmdsDone mine stOk 256)
    | .failed => .next (s2.cmdsDone mine stNoResponse 0)
  else .next s1

/-- The diagnostics of a cage, bytes 96–105 of page 0xA2, as read once per second (R112). -/
def execXcvrDiagRead (n : Nat) (data : List Byte) (s : State) : Host.Outcome State Fault Refusal :=
  if decide (n < s.nPorts) && field (s.port (.root n)).cfg 4 4 != 0 && s.flagN .PRT_STS_XCVR_PRESENT n then
    .next ((((s.idbSelect n).idbRead n 1 96 10).idbDeselect n).diagTake n (data.take 10))
  else .next s

end Sys2Proof.Machine
end

