-- ==== Sys2Proof/Machine/Endpoints.lean ====
section
/-! DEFINITION. Machine/Endpoints.lean: the commands that act on endpoints (R135, R197), SUBTREE_GONE, and the start of ENUMERATE and of
XCVR_READ. -/

namespace Sys2Proof.Machine

/-- Pocket size under R158. -/
def Ctx.sizeOk (c : Ctx) : Bool :=
  decide (4096 ≤ c.size ∧ c.size ≤ 1048576 ∧ 2 * c.mps ≤ c.size) && (c.cls != 2 || decide (2 * (c.burst + 1) * c.mps ≤ c.size))

/-- LINK under R264: reserved MODE, bits that are not zero, a class that has no sample path. -/
def Ctx.linkOk (c : Ctx) : Bool :=
  c.link == 0 ||
    (c.cls == 2 && nfield c.link 29 16 == 0 &&
      (match nfield c.link 31 30 with
       | 0 => false
       | 1 => true
       | 2 => nfield c.link 15 8 == 0 && nfield c.link 7 6 == 0
       | _ => false))

namespace State

/-- An endpoint has a committed periodic entry. -/
def committed (s : State) (eph : Nat) : Bool := (Tbl.get [] s.sched.active (Eph.port eph)).any fun e => schedEph e.word == eph

/-- A command on an endpoint: its port is present, its context is in the cache or fetched, it is the tenant's own, and its slice is not held
(R5, R161, R195, R329). -/
def onEndpoint (s : State) (h : CtxHost) (c : CmdRec) (fixed : Bool) (body : Nat → CtxSlot → State → State) : State :=
  let eph := nfield (cmdArg1 c.bytes) 24 0
  let done (s : State) (st : Nat) : State := s.cmdDone c.ring c.idx st 0
  if s.nPorts ≤ Eph.port eph then done s stAbsent
  else if Eph.addr eph = 4095 then done s stBounds
  else
    let (s1, st) := s.ctxGet h eph
    if st ≠ stOk then done s1 st
    else match s1.ctx? eph with
      | none => done s1 stBounds
      | some k =>
        if c.slice.isSome ∧ c.slice ≠ some k.ctx.owner then s1.cmdForeign c
        else if fixed ∧ s1.sliceFixed k.ctx.owner = true then done s1 stBounds
        else body eph k s1

/-- The state of a context as it is treated (R152). -/
def stateOf (k : CtxSlot) : Nat := if k.bad then 3 else k.ctx.state

/-! ### EP_INSTALL -/

/-- An image names a slice, a ring or a coder that is absent (R5, R264). -/
def imageAbsent (s : State) (c : Ctx) : Bool :=
  c.keysOk && (decide (s.nSlices ≤ c.owner ∨ s.nRings ≤ c.ring) || (c.cls == 2 && c.linkOk && nfield c.link 31 30 == 2 && !s.hasCoder))

/-- The checks of an image that is installed for a handle, in their order. -/
def installStatus (s : State) (eph : Nat) (c : Ctx) : Nat :=
  if !c.keysOk then stIntegrity
  else if s.imageAbsent c then stAbsent
  else if c.eph ≠ eph ∨ !c.classOk ∨ s.sliceFixed c.owner = true ∨ (c.state ≠ 1 ∧ c.state ≠ 2) then stBounds
  else if !c.sizeOk then stLength
  else if !(s.slice c.owner).pairsOk then stIntegrity
  else if !(s.slice c.owner).inWindow c.base c.size ∨ (s.ring c.ring).slice ≠ some c.owner ∨ !c.linkOk then stBounds
  else stOk

/-- An image installed for a handle whose context is DISABLED or absent: its status. -/
def installImage (s : State) (h : CtxHost) (eph : Nat) (x : Ctx) : State × Nat :=
  let st := s.installStatus eph x
  if st ≠ stOk then
    (if st ≠ stIntegrity then s else if x.keysOk then s.boundsBroken (some x.owner) st else s.integrity 2 0 0 x.owner eph, st)
  else
    let (s1, ok) := if (s.ctx? eph).isSome then (s, true) else s.ctxRoom h
    if ok then (s1.ctxInstall eph x, stOk)
    else (s1, if field s1.cmgr.dir 0 0 = 0 ∨ (s1.ctxs.filter s1.evictable).isEmpty then stOverbooked else stHostError)

/-- A handle's context may be installed: it is DISABLED or absent. Else the status. -/
def installable (s : State) (h : CtxHost) (eph : Nat) : State × Nat :=
  let (s1, st) := s.ctxGet h eph
  match s1.ctx? eph with
  | some k => (s1, if st = stOk ∧ k.bad = false ∧ k.ctx.state = 0 then stOk else stBounds)
  | none => (s1, if st = stBounds then stOk else st)

/-- Both together; what is absent is found before any fetch (R5). -/
def installNew (s : State) (h : CtxHost) (eph : Nat) (x : Ctx) : State × Nat :=
  if s.imageAbsent x then (s, stAbsent)
  else match s.installable h eph with
  | (s1, st) => if st = stOk then s1.installImage h eph x else (s1, st)

end State

/-- EP_INSTALL: `img` is the context image as read. -/
def execEpInstall (r : Nat) (d img : HostRead) (h : CtxHost) (s : State) : Host.Outcome State Fault Refusal :=
  .next (s.withCmd r d (· == 0x10) fun c s =>
    let eph := nfield (cmdArg1 c.bytes) 24 0
    let done (s : State) (st : Nat) : State := s.cmdDone c.ring c.idx st 0
    if s.nPorts ≤ Eph.port eph then done s stAbsent
    else if Eph.addr eph = 4095 then done s stBounds
    else match img with
      | .ok b =>
        let (s1, st) := s.installNew h eph (Ctx.ofBytes b)
        done s1 st
      | .failed =>
        let (s1, st) := s.installable h eph
        done s1 (if st = stOk then stHostError else st))

/-- EP_REMOVE. -/
def execEpRemove (r : Nat) (d : HostRead) (h : CtxHost) (s : State) : Host.Outcome State Fault Refusal :=
  .next (s.withCmd r d (· == 0x11) fun c s => s.onEndpoint h c true fun eph k s =>
    if s.committed eph ∨ (k.ctx.state = 0 ∧ k.bad = false) then s.cmdDone c.ring c.idx stBounds 0
    else
      (s.onCmd c.ring c.idx fun x => { x with stage := 1, arg := ((s.homeAddr h eph k).map fun a => a + 1).getD 0 }).settled)

/-- EP_STOP (Table 4.17). -/
def execEpStop (r : Nat) (d : HostRead) (h : CtxHost) (s : State) : Host.Outcome State Fault Refusal :=
  .next (s.withCmd r d (· == 0x12) fun c s => s.onEndpoint h c true fun eph k s =>
    if State.stateOf k = 2 ∨ State.stateOf k = 3 then
      let s1 := (s.ctxMove eph 4).onCtx eph fun x => { x with leftState := State.stateOf k }
      (s1.cmdDone c.ring c.idx stOk 0).refresh 0
    else s.cmdDone c.ring c.idx stBounds 0)

/-- EP_START: the state before the stop. -/
def execEpStart (r : Nat) (d : HostRead) (h : CtxHost) (s : State) : Host.Outcome State Fault Refusal :=
  .next (s.withCmd r d (· == 0x13) fun c s => s.onEndpoint h c true fun eph k s =>
    if k.ctx.state = 4 then ((s.ctxMove eph k.leftState).cmdDone c.ring c.idx stOk 0).refresh 0
    else s.cmdDone c.ring c.idx stBounds 0)

/-- EP_RESET: CLEAR_HALT on the device's endpoint 0 (R135). -/
def execEpReset (r : Nat) (d : HostRead) (h : CtxHost) (s : State) : Host.Outcome State Fault Refusal :=
  .next (s.withCmd r d (· == 0x14) fun c s => s.onEndpoint h c true fun eph _ s =>
    let (s1, st) := s.ctxGet h (eph / 128 * 128)
    if st ≠ stOk then s1.cmdDone c.ring c.idx st 0
    else (s1.startControl (eph / 128 * 128) (setupBytes 0x01 false 0 (epAddr (Eph.ep eph) (Eph.dir eph)) 0) [] (c.ring, c.idx)).settled)

/-- EP_FLUSH. -/
def execEpFlush (r : Nat) (d : HostRead) (h : CtxHost) (s : State) : Host.Outcome State Fault Refusal :=
  .next (s.withCmd r d (· == 0x15) fun c s => s.onEndpoint h c true fun eph _ s =>
    let (s1, st) := s.ctxFlush h eph
    s1.cmdDone c.ring c.idx st 0)

/-- EP_QUERY. -/
def execEpQuery (r : Nat) (d : HostRead) (h : CtxHost) (s : State) : Host.Outcome State Fault Refusal :=
  .next (s.withCmd r d (· == 0x16) fun c s => s.onEndpoint h c false fun _ k s =>
    s.cmdDone c.ring c.idx stOk (k.ctx.w32 + k.ctx.wrPtr * 2 ^ 32))

/-- SUBTREE_GONE: `others` is the number of matching contexts that are in host memory only. -/
def execSubtreeGone (r : Nat) (d : HostRead) (others : Nat) (s : State) : Host.Outcome State Fault Refusal :=
  .next (s.withCmd r d (· == 0x17) fun c s =>
    let port := nfield (cmdArg1 c.bytes) 5 0
    let depth := nfield (cmdArg0 c.bytes) 37 35
    let route := nfield (cmdArg0 c.bytes) 34 0
    if s.nPorts ≤ port then s.cmdDone c.ring c.idx stAbsent 0
    else
      let moved := (s.ctxs.filter fun x => x.2.ctx.inSubtree port route depth && x.2.ctx.state != 0 && x.2.ctx.state != 5).length
      ((s.subtreeGone port route depth true).cmdDone c.ring c.idx stOk (moved + others)).settled)

/-- ENUMERATE, step 2 of Table 4.14: the default context takes the device's route; step 3 starts. `eps` is what step 6 sets beyond the records. -/
def execEnumerate (r : Nat) (d : HostRead) (h : CtxHost) (eps : List EnumEp) (s : State) : Host.Outcome State Fault Refusal :=
  .next (s.withCmd r d (· == 0x20) fun c s =>
    let port := nfield (cmdArg0 c.bytes) 5 0
    let route := nfield (cmdArg0 c.bytes) 40 6
    let a := nfield (cmdArg1 c.bytes) 11 0
    let eph := Eph.mk port 0 0 0
    if s.nPorts ≤ port then s.cmdDone c.ring c.idx stAbsent 0
    else if a = 4095 then s.cmdDone c.ring c.idx stBounds 0
    else
      let (s1, st) := s.ctxGet h eph
      if st ≠ stOk then s1.cmdDone c.ring c.idx st 0
      else
        let s2 := (s1.ctxGet h (Eph.mk port a 0 0)).1
        let s3 := s2.onCtx eph fun k =>
          let key := nset (nset k.ctx.key1 34 0 route) 37 35 (routeTier route)
          { k with ctx := { k.ctx with key1 := key, key1n := 2 ^ 64 - 1 - key }, dirty := true }
        let c1 := { c with host := h, eps := eps }
        ((s3.onCmd c.ring c.idx fun _ => c1).enumStage c1 0).settled)

/-- XCVR_READ: the read of the page starts (R112). -/
def execXcvrRead (r : Nat) (d : HostRead) (s : State) : Host.Outcome State Fault Refusal :=
  .next (s.withCmd r d (· == 0x21) fun c s =>
    let n := nfield (cmdArg0 c.bytes) 5 0
    if s.nPorts ≤ n then s.cmdDone c.ring c.idx stAbsent 0
    else if field (s.port (.root n)).cfg 4 4 = 0 then s.cmdDone c.ring c.idx stBounds 0
    else if s.flagN .PRT_STS_XCVR_PRESENT n = false then s.cmdDone c.ring c.idx stNoResponse 0
    else
      let page := nfield (cmdArg0 c.bytes) 8 8
      (((s.onPort (.root n) fun x => { x with xcvrRead := some page }).idbSelect n).idbRead n page 0 256).onCmd c.ring c.idx fun x =>
        { x with stage := 1, arg := n })

end Sys2Proof.Machine
end

