-- ==== Sys2Proof/Machine/Admission.lean ====
section
/-! DEFINITION. Machine/Admission.lean: the periodic schedule (chapter 06): occupancy and usage, the admission of batches, their commit,
re-admission, the schedule commands, and rate changes of root ports as they are asked for (R108, R109). -/

namespace Sys2Proof.Machine

/-! ### Occupancy and usage (R203–R209) -/

/-- A refusal: what Table 6.6 and RESULT say of it. -/
structure AdmFail where
  status : Nat
  reason : Nat
  port : Nat
  slice : Nat
  phi : Nat
  value : Nat
  limit : Int
  deriving DecidableEq, Repr

namespace State

/-- The transactions of an entry in one run, at a byte time of its root port. -/
def admItems (s : State) (byte : Nat) (e : SchedEnt) : List HandItem :=
  let eph := schedEph e.word
  match s.ctx? eph with
  | some k =>
    let c := k.ctx
    let x : HandItem :=
      { cls := c.cls - 1, eph := eph, kind := .callIn, entry := none, s := slotAt byte (schedSlow e.word) c.cls c.mps, a := turnaround c,
        cost := 0, slice := c.owner, retry := false, started := false, lateFill := false }
    List.replicate (if c.cls = 2 then schedBurst e.word + 1 else 1) x
  | none => []

/-- The transactions due in a phase, in composition order. -/
def phaseItems (s : State) (byte : Nat) (l : List SchedEnt) (phi : Nat) : List HandItem :=
  sortItems ((l.filter fun e => schedDue e.word phi).flatMap (s.admItems byte))

/-- The phases after which a table repeats. -/
def periodOf (l : List SchedEnt) : Nat := 2 ^ (l.map fun e => schedExp e.word).foldl max 0

/-- W in ns (R205). -/
def wNs (s : State) (byte : Nat) (l : List SchedEnt) (phi : Nat) : Nat := occupancy (56 * byte) (s.phaseItems byte l phi)

/-- U of a slice in ns (R206). -/
def uNs (s : State) (byte : Nat) (l : List SchedEnt) (n phi : Nat) : Nat :=
  ((((s.phaseItems byte l phi).filter fun x => x.slice == n).map HandItem.s).foldl (· + ·) 0 + 9) / 10

/-- CAP at a frame rate (R208), and the one in force. -/
def capAt (s : State) (f : Nat) : Nat := (1000000000 / f - 2000) * s.sched.pct / 100
def capNs (s : State) : Nat := s.capAt s.frate

def amaxOf (s : State) (n : Nat) : Nat := Tbl.get 10000 s.sched.amax n
def resOf (s : State) (n t : Nat) : Nat := Tbl.get 0 s.sched.res (256 * t + n)
def resSum (s : State) (t : Nat) : Nat := ((upto s.nSlices).map fun n => s.resOf n t).foldl (· + ·) 0

/-- OVH in tenths of a ns (R209). -/
def ovh10 (s : State) (byte t : Nat) : Nat := 56 * byte + 30 * s.amaxOf t + 4000

/-- The slices that own entries of a table, rising. -/
def ownersOf (s : State) (l : List SchedEnt) : List Nat :=
  let own := l.filterMap fun e => (s.ctx? (schedEph e.word)).map fun k => k.ctx.owner
  (upto s.nSlices).filter fun n => own.contains n

/-! ### The capacity checks (Table 6.5) -/

/-- AMAX for an entry. -/
def amaxFail (s : State) (t eph : Nat) : Option AdmFail :=
  match s.ctx? eph with
  | some k => if s.amaxOf t < turnaround k.ctx then some ⟨stOverbooked, 5, t, 0, 0, turnaround k.ctx, s.amaxOf t⟩ else none
  | none => none

/-- SLICE_RES of one slice on a tree. -/
def resFail (s : State) (byte t n : Nat) (l : List SchedEnt) : Option AdmFail :=
  (upto (periodOf l)).findSome? fun phi =>
    let u := s.uNs byte l n phi
    if s.resOf n t < u then some ⟨stOverbooked, 6, t, n, phi, u, s.resOf n t⟩ else none

/-- SLICE_RES of every slice on a tree. -/
def resFails (s : State) (byte t : Nat) (l : List SchedEnt) : Option AdmFail := (s.ownersOf l).findSome? fun n => s.resFail byte t n l

/-- TREE_CAP under a cap, on a tree that has an entry. -/
def capFail (s : State) (cap byte t : Nat) (l : List SchedEnt) : Option AdmFail :=
  if l.isEmpty then none
  else (upto (periodOf l)).findSome? fun phi =>
    let w := s.wNs byte l phi
    if cap < w then some ⟨stOverbooked, 7, t, 0, phi, w, cap⟩ else none

/-- TREE_CAP as it stands. -/
def treeFail (s : State) (byte t : Nat) (l : List SchedEnt) : Option AdmFail := s.capFail s.capNs byte t l

/-- RESERVE_SUM on a tree with a reservation above 0. -/
def sumFail (s : State) (byte t : Nat) : Option AdmFail :=
  let lim : Int := (s.capNs * 10 : Nat) - (s.ovh10 byte t : Int)
  if s.resSum t ≠ 0 ∧ lim < (s.resSum t * 10 : Nat) then some ⟨stOverbooked, 8, t, 0, 0, s.resSum t, lim / 10⟩ else none

/-- The ADMISSION event of a refusal (Table 6.6), and its bit of SCH_ADM_EVT. -/
def admRefuse (s : State) (f : AdmFail) (ring recheck : Nat) (bit_ : Fld) : State :=
  let port := if 5 ≤ f.reason ∧ f.reason ≤ 8 then f.port else 0
  let info0 := f.reason * 2 ^ 28 + recheck * 2 ^ 27 + (if f.reason = 6 then f.slice else 0) * 2 ^ 16 +
    (if f.reason = 6 ∨ f.reason = 7 then f.phi else 0) * 2 ^ 6 + port
  (s.event1 evAdmission f.status ring info0 (f.value % 2 ^ 32 * 2 ^ 32 + toBits 32 f.limit)).raise bit_

end State

/-- RESULT of a refused batch (Table 6.11). -/
def AdmFail.result (f : AdmFail) : Nat :=
  f.reason * 2 ^ 60 + (if 5 ≤ f.reason ∧ f.reason ≤ 8 then f.port else 0) * 2 ^ 48 + (if f.reason = 6 ∨ f.reason = 7 then f.phi else 0) * 2 ^ 32 +
    f.value % 2 ^ 32

/-! ### Admission of a batch (R210–R215) -/

/-- OP of a change entry: 0 ADD, 1 REMOVE, 2 MODIFY. -/
def changeOp (w : DWord) : Nat := field w 31 30

/-- Checks 1 and 2 of Table 6.4. -/
def changeStatus (w wn : DWord) : Nat :=
  if wn ≠ ~~~ w then stIntegrity
  else if changeOp w = 3 ∨ field w 28 25 ≠ 0 ∨ field w 63 60 ≠ 0 ∨ field w 51 42 ≠ 0 ∨
      (changeOp w = 1 ∧ (schedExp w ≠ 0 ∨ schedBurst w ≠ 0 ∨ schedPhase w ≠ 0)) then stBounds
  else stOk

/-- A table with a change made to it. -/
def changeTable (l : List SchedEnt) (w : DWord) : List SchedEnt :=
  match changeOp w with
  | 0 => l ++ [⟨w, ~~~ w, false⟩]
  | 1 => l.filter fun e => schedEph e.word != schedEph w
  | _ => l.map fun e => if schedEph e.word = schedEph w then ⟨w, ~~~ w, false⟩ else e

namespace State

/-- An endpoint has a committed periodic entry in the tables as they stand. -/
def inTable (s : State) (eph : Nat) : Bool := s.committed eph

/-- A root port goes to another rate by an accepted change and has not switched yet: a batch admitted now would be admitted at the old rate, and the
change would fall due during it (R209, R221; log entry 99). -/
def switching (s : State) : Bool :=
  (upto s.nPorts).any fun n => (s.port (.root n)).rateChg.any fun c => !c.deferred && c.target != (s.link (.port (.root n))).rate

/-- The byte time at which a re-check judges a root port: of Rate 1 where an accepted change to it has still to switch (R209, R221). -/
def byteSoon (s : State) (n : Nat) : Nat :=
  if (s.port (.root n)).rateChg.any fun c => !c.deferred && c.target == 0 then 80 else s.byteTime n

/-- The next batch starts its admission when none is admitted or committed (R211), no change that fell due meanwhile waits for its check (R221), and no
root port is about to switch its rate. SCHED_CLEAR and a slice's withdrawal name the entries that the tables now hold. -/
def startBatch (s : State) : State :=
  match s.sched.batch, s.sched.queue with
  | none, b :: rest =>
    if s.sched.held || s.switching then s else
    let removal (e : SchedEnt) : DWord × DWord :=
      let w : DWord := BitVec.ofNat 64 (2 ^ 30 + schedEph e.word)
      (w, ~~~ w)
    let all := (upto s.nPorts).flatMap fun n => (Tbl.get [] s.sched.active n).map fun e => (n, e)
    let changes := match b.kind with
      | .list => b.changes
      | .restore _ => b.changes
      | .clear m => (all.filter fun x => nfield m x.1 x.1 == 1).map fun x => removal x.2
      | .withdraw k => (all.filter fun x => (s.ctx? (schedEph x.2.word)).any fun c => c.ctx.owner == k).map fun x => removal x.2
    s.onSched fun c => { c with
      batch := some { b with changes := changes, frate := s.frate, rates := (upto s.nPorts).map fun n => (n, s.byteTime n) }, queue := rest }
  | _, _ => s

/-- A batch joins the queue. -/
def queueBatch (s : State) (kind : BatchKind) (cmd : Option (Nat × Nat)) (slice : Option Nat) (changes : List (DWord × DWord))
    (when_ : Option Nat) : State :=
  (s.onSched fun c => { c with queue := c.queue ++ [
    { kind := kind, cmd := cmd, slice := slice, changes := changes, at_ := when_, frate := 0, rates := [], admitted := false, staged := [],
      atomic := true, commitAt := 0, toSwitch := [] }] }).startBatch

/-- Checks 3 to 7 of Table 6.4 on one change, the context fetched where it is not cached: status and reason. -/
def changeCheck (s : State) (h : CtxHost) (b : Batch) (seen : List Nat) (w : DWord) : State × Nat × Nat :=
  let eph := schedEph w
  if s.nPorts ≤ Eph.port eph then (s, stAbsent, 1)
  else
    let (s1, st) := s.ctxGet h eph
    if st ≠ stOk then (s1, st, 1)
    else match s1.ctx? eph with
      | none => (s1, stBounds, 1)
      | some k =>
        let c := k.ctx
        let foreign : Bool := b.slice.isSome && b.slice != some c.owner
        let s2 := match b.cmd with
          | some (r, i) => if foreign then (match s1.cmd? r i with
            | some c => s1.tenantNote c
            | none => s1) else s1
          | none => s1
        if !(1 ≤ stateOf k ∧ stateOf k ≤ 4) ∨ !(1 ≤ c.cls ∧ c.cls ≤ 3) ∨ foreign ∨ (b.cmd.isSome ∧ s1.sliceFixed c.owner = true) then (s2, stBounds, 1)
        else if 10 < schedExp w ∨ 2 ^ schedExp w ≤ schedPhase w ∨ (schedBurst w ≠ 0 ∧ c.cls ≠ 2) then (s2, stBounds, 1)
        else if seen.contains eph ∨ (changeOp w == 0) == s1.inTable eph then (s2, stBounds, 1)
        else if changeOp w ≠ 1 ∧ (c.rtt < 600 * c.tier ∨ (c.cls = 2 ∧ c.size < 2 * (schedBurst w + 1) * c.mps)) then (s2, stLength, 2)
        else (s2, stOk, 0)

/-- Table 6.4 over the list, in order; the first failure. -/
def changesCheck (s : State) (h : CtxHost) (b : Batch) : Nat → List Nat → List (DWord × DWord) → State × Option AdmFail
  | _, _, [] => (s, none)
  | i, seen, (w, wn) :: rest =>
    if changeStatus w wn ≠ stOk then (s, some ⟨changeStatus w wn, 1, 0, 0, 0, i, 0⟩)
    else
      let (s1, st, why) := s.changeCheck h b seen w
      if st ≠ stOk then (s1, some ⟨st, why, 0, 0, 0, i, 0⟩) else changesCheck s1 h b (i + 1) (seen ++ [schedEph w]) rest

/-- The tables of the touched trees after a batch, by port. -/
def stagedOf (s : State) (l : List (DWord × DWord)) : Tbl (List SchedEnt) :=
  l.foldl (fun t x =>
    let n := Eph.port (schedEph x.1)
    Tbl.put t n (changeTable ((Tbl.find t n).getD (Tbl.get [] s.sched.active n)) x.1)) []

/-- Table 6.5 on a batch, in order, with the CAP and the rates in force when its admission started (R211). -/
def capacityFail (s : State) (b : Batch) (staged : Tbl (List SchedEnt)) : Option AdmFail :=
  let rate (t : Nat) : Nat := Tbl.get 80 b.rates t
  let other := ((s.sched.active.filter fun x => (Tbl.find staged x.1).isNone).map fun x => x.2.length).foldl (· + ·) 0
  let total := other + (staged.map fun x => x.2.length).foldl (· + ·) 0
  let adds := b.changes.filter fun x => changeOp x.1 == 0 && (s.ctx? (schedEph x.1)).any fun k => !k.ctx.resident
  let pins := s.pinned + adds.length
  let due := b.changes.filter fun x => changeOp x.1 != 1
  if 16384 < total then some ⟨stOverbooked, 3, 0, 0, 0, total, 16384⟩
  else if pinSlots < pins then some ⟨stOverbooked, 4, 0, 0, 0, pins, pinSlots⟩
  else
    ((staged.findSome? fun x => (due.filter fun y => Eph.port (schedEph y.1) == x.1).findSome? fun y => s.amaxFail x.1 (schedEph y.1)).or
      (staged.findSome? fun x => s.resFails (rate x.1) x.1 x.2)).or
      (staged.findSome? fun x => s.capFail (s.capAt b.frate) (rate x.1) x.1 x.2)

/-- The command of a batch that ended. An ENUMERATE goes on with step 7 of Table 4.14. -/
def batchDone (s : State) (r i status result : Nat) : State :=
  match s.cmd? r i with
  | some c =>
    if c.op ≠ 0x20 then s.cmdDone r i status result
    else if status = stOk then s.enumStage c 8 else s.cmdDone r i status c.result
  | none => s

/-- A batch ends: the command completes, and the next one starts, after the checks that wait (R221). -/
def endBatch (s : State) (b : Batch) (status result : Nat) : State :=
  let s1 := match b.cmd, b.kind with
    | _, .restore _ => s
    | some (r, i), _ => s.batchDone r i status result
    | none, _ => s
  (s1.onSched fun c => { c with
    batch := none, held := c.pctPend || !c.amaxPend.isEmpty || !c.rechecks.isEmpty }).startBatch

/-- A batch is refused: nothing changes but what R214 reports. -/
def refuseBatch (s : State) (b : Batch) (f : AdmFail) : State :=
  (s.admRefuse f ((b.cmd.map Prod.fst).getD 0) 0 .SCH_ADM_EVT_BATCH_REFUSED).endBatch b f.status f.result

/-- C of a batch whose admission ends now (R215): the frame after next, or a later COMMIT_FRAME; none where that is too far away. -/
def commitFrame (s : State) (b : Batch) : Option Nat :=
  let c := (s.frameNo + 2) % 2 ^ 32
  match b.at_ with
  | some f => if later32 f c then (if (f + 2 ^ 32 - s.frameNo) % 2 ^ 32 ≤ 65536 then some f else none) else some c
  | none => some c

/-- Check 9 of Table 6.5. -/
def frateFail (s : State) (f : Nat) : Option AdmFail :=
  if s.frate ≠ f ∨ s.tim.frateAcc.isSome then some ⟨stOverbooked, 9, 0, 0, 0, (s.tim.frateAcc).getD s.frate, f⟩ else none

/-- The admission of the batch in progress ends. Of a COMMIT_FRAME too far away Table 6.6 names no VALUE, as no entry is concerned: it is 0; and a batch that
touches no tree, a SCHED_CLEAR of trees without entries, completes OK with RESULT 0 and switches none (DESIGN CHOICE, log entry 110). -/
def admitBatch (s : State) (h : CtxHost) (b : Batch) : State :=
  let (s1, f1) := s.changesCheck h b 0 [] b.changes
  let staged := s1.stagedOf b.changes
  let f2 := f1.or (s1.capacityFail b staged)
  let f3 := f2.or (s1.frateFail b.frate)
  match f3, s1.commitFrame b with
  | some f, _ => s1.refuseBatch b f
  | none, none => s1.refuseBatch b ⟨stBounds, 1, 0, 0, 0, 0, 0⟩
  | none, some c =>
    if staged.isEmpty then s1.endBatch b stOk 0
    else
      let s2 := (b.changes.filter fun x => changeOp x.1 == 0).foldl (fun s x => s.ctxPin (schedEph x.1) true) s1
      s2.onSched fun m => { m with batch := some { b with
        admitted := true, staged := staged, atomic := staged.length == 1 || decide (b.changes.length ≤ 512), commitAt := c,
        toSwitch := staged.map Prod.fst } }

/-! ### Commit (R216) -/

/-- In the frame before a tree's switch, INT_EXP, BURST and PHASE of its added and modified entries go into their contexts. -/
def writePhases (s : State) (b : Batch) (n : Nat) : State :=
  (b.changes.filter fun x => changeOp x.1 != 1 && Eph.port (schedEph x.1) == n).foldl (fun s x =>
    s.onCtx (schedEph x.1) fun k => { k with
      ctx := { k.ctx with w32 := nset (nset (nset k.ctx.w32 17 14 (schedExp x.1)) 13 10 (schedBurst x.1)) 9 0 (schedPhase x.1) }, dirty := true }) s

/-- A tree switches at its frame: the staged table becomes its active one, removed entries are unpinned, and SCHED_COMMIT is written. -/
def switchTree (s : State) (b : Batch) (n : Nat) : State :=
  let new := Tbl.get [] b.staged n
  let ct := switchFrame b n
  let mine := b.changes.filter fun x => Eph.port (schedEph x.1) == n
  let s1 := mine.foldl (fun s x =>
    let eph := schedEph x.1
    match changeOp x.1 with
    | 0 => s.onSmp fun m => { m with ran := Tbl.upd [] m.ran eph (· ++ [(s.startOf ct, none)]) }
    | 1 =>
      let closed (l : List (Nat × Option Nat)) := l.map fun y => if y.2.isNone then (y.1, some (s.startOf ct)) else y
      (s.ctxPin eph false).onSmp fun m => { m with ran := Tbl.upd [] m.ran eph closed }
    | _ => s) s
  let last := b.toSwitch.getLast? == some n
  let (ring, idx) := b.cmd.getD (0, 0xFFFFF)
  (s1.onSched fun c => { c with
    active := Tbl.put c.active n new, batch := some { b with toSwitch := b.toSwitch.filter (· != n) } }).emitAll.event1 evCommit 0 ring
      (bit last * 2 ^ 31 + bit (!b.atomic) * 2 ^ 30 + idx * 2 ^ 6 + n) (new.length * 2 ^ 32 + ct)

/-- The trees of the batch in commit that switch at a tick; the fuel is their number. After the last one the batch is done. -/
def switchTrees (s : State) (frame : Nat) : Nat → State
  | 0 => s
  | k + 1 =>
    match s.sched.batch with
    | some b =>
      match b.admitted, b.toSwitch with
      | true, n :: rest =>
        if later32 (switchFrame b n) frame then s
        else
          let s1 := s.switchTree b n
          if rest.isEmpty then
            ((s1.wr .SCH_LAST_SWITCH 0 (BitVec.ofNat 64 (switchFrame b n))).raise .SCH_ADM_EVT_COMMIT_DONE).endBatch b stOk
              (switchFrame b n * 2 ^ 32 + b.commitAt)
          else s1.switchTrees frame k
      | _, _ => s
    | none => s

/-- The schedule at the tick that starts a frame: contexts of the trees that switch in the next frame, then the switches. -/
def schedTick (s : State) (frame : Nat) : State :=
  match s.sched.batch with
  | some b =>
    if b.admitted then
      let s1 := (b.toSwitch.filter fun n => !later32 (switchFrame b n) ((frame + 1) % 2 ^ 32)).foldl (fun s n => s.writePhases b n) s
      s1.switchTrees frame 64
    else s
  | none => s

/-! ### Rate changes of root ports (R108, R109, R221) -/

/-- The checks of Table 6.9 for a root port that goes to Rate 1. -/
def rate1Fail (s : State) (n : Nat) : Option AdmFail :=
  let l := Tbl.get [] s.sched.active n
  ((s.resFails 80 n l).or (s.treeFail 80 n l)).or (s.sumFail 80 n)

/-- A rate change of a root port is judged (step 1 of Table 3.13): accepted in the frame in progress it has S two frames later. -/
def rateAccept (s : State) (n target : Nat) (byPolicy : Bool) : State :=
  let p := PortId.root n
  if !s.linked p then s.rateRefuse p 3
  else if target = 1 ∧ s.unrated p = true then s.rateRefuse p 1
  else if target = 1 ∧ ¬ s.bothRate5 p then s.rateRefuse p 3
  else match (if target = 0 then s.rate1Fail n else none) with
    | some f =>
      let s1 := (s.rateRefuse p 2).admRefuse f 0 1 .SCH_ADM_EVT_RECHECK_REFUSED
      if byPolicy then s1.policyReport 0 0x81 n else s1
    | none => s.onPort p fun x => { x with rateChg := some ⟨target, (s.frameNo + 2) % 2 ^ 32, false, false, false, false, byPolicy⟩ }

/-- A rate change is asked for: it waits while a batch is admitted or committed (R109, R221). -/
def rateRequest (s : State) (n target : Nat) (byPolicy : Bool) : State :=
  if s.sched.batch.isSome then
    (s.onPort (.root n) fun x => { x with rateChg := some ⟨target, 0, false, false, false, true, byPolicy⟩ }).onSched fun c =>
      { c with rechecks := c.rechecks ++ [.rate n] }
  else s.rateAccept n target byPolicy

/-- A change of the RATE policy on a port less than 65,536 frames ago holds another one back (R31). -/
def rateHeld (s : State) (n : Nat) : Bool :=
  match Tbl.find s.pol.rateLast n with
  | some f => decide ((s.frameNo + 2 ^ 32 - f) % 2 ^ 32 < 65536)
  | none => false

/-- ADVISE: what RATE would have done is reported; within the hold it would have done nothing (R30, R31). -/
def rateAdvise (s : State) (n : Nat) : State :=
  if s.rateHeld n then s else s.advise 0 (if (s.rate1Fail n).isSome then 0x81 else 0x80) n

/-- The RATE policy decides about a root port at Rate 5 whose margin or error count crossed its threshold (R31, R35). DESIGN CHOICE (log entry 100): a
trigger that arises while a power-state entry is in progress is dropped; R34 says only that no action starts then. -/
def ratePolicy (s0 : State) (n : Nat) : State :=
  let s := s0.policyRead
  if s.portState (.root n) ≠ 4 ∨ (s.link (.port (.root n))).rate ≠ 1 ∨ (s.port (.root n)).rateChg.isSome then s
  else match s.policyMode 0 with
    | 0 => s
    | 2 =>
      if s.flag .PWR_STS_ENTERING then s
      else if s.rateHeld n then s.policyReport 0 0x82 n
      else if s.sched.batch.isSome then (s.policyReport 0 0xA9 n).rateRequest n 0 true
      else s.rateAccept n 0 true
    | _ => s.rateAdvise n

/-- PORT_RATE, once it may act (R109, R197, R33): a policy's change that waits is withdrawn, one that has begun is waited for. -/
def portRate (s : State) (c : CmdRec) : State :=
  let n := nfield (cmdArg0 c.bytes) 5 0
  let target := nfield (cmdArg0 c.bytes) 8 8
  let go (s : State) : State :=
    if s.portState (.root n) = 4 ∧ (s.link (.port (.root n))).rate = target then s.cmdDone c.ring c.idx stOk s.frameNo
    else (s.onCmd c.ring c.idx fun x => { x with stage := 1, arg := (PortId.root n).code }).rateRequest n target false
  match (s.port (.root n)).rateChg with
  | none => go (s.overtake 0 n)
  | some x =>
    if x.byPolicy ∧ x.deferred then go ((s.rateWithdraw (.root n)).overtake 0 n)
    else if x.byPolicy then s.onCmd c.ring c.idx fun x => { x with stage := 2 }
    else s.cmdDone c.ring c.idx stNoResponse 0

/-- PORT_RATE commands that waited for a policy's change. -/
def portRateTick (s : State) : State :=
  (s.cmds.filter fun c => c.op == 0x22 && c.stage == 2 && c.status.isNone).foldl portRate s

/-! ### Re-admission at a frame boundary (R221) -/

/-- SCH_CAP as it stands is judged. -/
def recheckCap (s : State) : State :=
  if !s.sched.pctPend then s
  else if !s.pairOk .SCH_CAP .SCH_CAP_N 0 32 then
    (if s.sched.capReported then s else (s.integrityReg 0x2000).onSched fun c => { c with capReported := true })
  else
    let v := min 85 (s.fget .SCH_CAP_PCT)
    let s1 := s.onSched fun c => { c with pctPend := false, capReported := false }
    let s2 := s1.onSched fun c => { c with pct := v }
    if s.sched.pct ≤ v then s2
    else match ((upto s.nPorts).findSome? fun t => s2.treeFail (s2.byteSoon t) t (Tbl.get [] s2.sched.active t)).or
        ((upto s.nPorts).findSome? fun t => s2.sumFail (s2.byteSoon t) t) with
      | some f => s1.admRefuse f 0 1 .SCH_ADM_EVT_CAP_REFUSED
      | none => s2

/-- SCH_AMAXn as it stands is judged. -/
def recheckAmax (s : State) (t : Nat) : State :=
  if !s.pairOk .SCH_AMAX .SCH_AMAX_N t 32 then
    (if s.sched.amaxReported.contains t then s
     else (s.integrityReg (0x2400 + 0x10 * t)).onSched fun c => { c with amaxReported := c.amaxReported ++ [t] })
  else
    let v := min 500000 (max 1000 (s.fgetN .SCH_AMAX_AMAX t))
    let s1 := s.onSched fun c => { c with amaxPend := c.amaxPend.filter (· != t), amaxReported := c.amaxReported.filter (· != t) }
    let s2 := s1.onSched fun c => { c with amax := Tbl.put c.amax t v }
    if v = s.amaxOf t then s1
    else match ((Tbl.get [] s2.sched.active t).findSome? fun e => s2.amaxFail t (schedEph e.word)).or (s2.sumFail (s2.byteSoon t) t) with
      | some f => s1.admRefuse f 0 1 .SCH_ADM_EVT_AMAX_REFUSED
      | none => s2

/-- A policy's deferred change has its turn: the mode of the policy decides now (R30, R32); during a power entry it goes on waiting (R34). -/
def rateTurn (s0 : State) (n : Nat) (c : RateChange) : State :=
  if s0.flag .PWR_STS_ENTERING then s0.onSched fun m => { m with rechecks := m.rechecks ++ [.rate n] }
  else
    let s := s0.policyRead
    let free := s.onPort (.root n) fun x => { x with rateChg := none }
    match s.policyMode 0 with
    | 0 => free
    | 2 => free.rateAccept n c.target true
    | _ => free.rateAdvise n

/-- One SCHED_RESERVE or deferred rate change. -/
def recheckOne (s : State) (x : Recheck) : State :=
  match x with
  | .reserve r i t n res =>
    let old := s.resOf n t
    let s1 := s.onSched fun c => { c with res := Tbl.put c.res (256 * t + n) res }
    match (s1.resFail (s1.byteSoon t) t n (Tbl.get [] s1.sched.active t)).or (s1.sumFail (s1.byteSoon t) t) with
    | some f => (s.admRefuse f r 1 .SCH_ADM_EVT_BATCH_REFUSED).cmdDone r i stOverbooked old
    | none => s1.cmdDone r i stOk old
  | .rate n =>
    match (s.port (.root n)).rateChg with
    | some c =>
      let free := s.onPort (.root n) fun x => { x with rateChg := none }
      if !c.deferred then s
      else if c.byPolicy then s.rateTurn n c
      else free.rateAccept n c.target false
    | none => s

/-- Re-admission at a tick, never during a batch. -/
def recheckTick (s : State) : State :=
  if s.sched.batch.isSome then s
  else
    let s1 := s.recheckCap
    let s2 := s1.sched.amaxPend.foldl recheckAmax s1
    let s3 := s2.sched.rechecks.foldl recheckOne (s2.onSched fun c => { c with rechecks := [] })
    (s3.onSched fun c => { c with held := false }).startBatch

end State

/-! ### ENUMERATE, step 6 of Table 4.14 (R146, R154) -/

/-- The entries of the endpoint records that ENUMERATE read, in order (Table 4.12). -/
def enumEntries (c : CmdRec) : List (List Byte) :=
  ((c.recs.filter fun b => b.length == 256).drop 1).flatMap fun b =>
    (upto (min 16 (leNat (slice 2 1 b)))).map fun i => slice (8 + 12 * i) 12 b

/-- The handle of an entry (Table 4.13) at the address that was assigned. -/
def enumEph (c : CmdRec) (e : List Byte) : Nat :=
  let b0 := leNat (slice 0 1 e)
  Eph.mk (State.enumPort c) (nfield (cmdArg1 c.bytes) 11 0) (b0 / 128) b0

/-- The context of an entry, in DEFAULT: CLASS, MPS and BURST of the record, the device's route, and what the manager gave for it (log entry 94). -/
def enumImage (c : CmdRec) (e : List Byte) (x : EnumEp) : Ctx :=
  let b1 := leNat (slice 1 1 e)
  let k0 := b1 / 32 * 2 ^ 29 + b1 % 16 * 2 ^ 25 + enumEph c e
  let k1 := x.owner % 256 * 2 ^ 40 + routeTier (State.enumRoute c) * 2 ^ 35 + State.enumRoute c
  let k2 := x.base % 8192 * 2 ^ 19 + x.size % 512 * 2 ^ 10 + x.ring % 1024
  { key0 := k0, key0n := 2 ^ 32 - 1 - k0, key1 := k1, key1n := 2 ^ 64 - 1 - k1, key2 := k2, key2n := 2 ^ 32 - 1 - k2
    w32 := 2 ^ 28 + x.retry % 8 * 2 ^ 21 + x.intExp % 16 * 2 ^ 14 + leNat (slice 3 1 e) / 16 * 2 ^ 10 + x.phase % 1024
    wrPtr := 0, rdPtr := 0, rtt := x.rtt, nyLimit := x.nyLimit, overrun := 0, link := x.link, priv := 0 }

/-- The ADD entry of a periodic endpoint. -/
def enumAdd (c : CmdRec) (e : List Byte) (x : EnumEp) : DWord × DWord :=
  let w : DWord := BitVec.ofNat 64 (x.intExp % 16 * 2 ^ 56 + leNat (slice 3 1 e) / 16 * 2 ^ 52 + x.phase % 1024 * 2 ^ 32 + bit x.slow * 2 ^ 29 + enumEph c e)
  (w, ~~~ w)

namespace State

/-- Contexts installed in order; the first that cannot be ends with its status. -/
def enumInstall (s : State) (c : CmdRec) (l : List (List Byte × EnumEp)) : State × Nat :=
  l.foldl (fun r x => if r.2 = stOk then r.1.installNew c.host (enumEph c x.1) (enumImage c x.1 x.2) else r) (s, stOk)

/-- Step 6 of one ENUMERATE: the contexts, then the periodic entries as one batch, where there are any. -/
def enumAdmit (s : State) (c : CmdRec) : State :=
  let l := (enumEntries c).zip c.eps
  match s.enumInstall c l with
  | (s1, st) =>
    if st ≠ stOk then s1.cmdDone c.ring c.idx st c.result
    else
      match (l.filter fun x => decide (1 ≤ leNat (Sys2Proof.slice 1 1 x.1) / 32 ∧ leNat (Sys2Proof.slice 1 1 x.1) / 32 ≤ 3)).map fun x => enumAdd c x.1 x.2 with
      | [] => s1.enumStage c 8
      | adds => (s1.onCmd c.ring c.idx fun c => { c with stage := 10 }).queueBatch .list (some (c.ring, c.idx)) none adds none

/-- Step 6 of every ENUMERATE that has come to it, at a frame boundary. -/
def enumTick (s : State) : State := (s.cmds.filter fun c => c.op == 0x20 && c.stage == 9 && c.status.isNone).foldl enumAdmit s

end State

/-! ### Schedule commands (R222) -/

/-- The endpoints that a change list as read names. -/
def batchListNames : HostRead → List (Nat × Nat)
  | .ok b => (upto (b.length / 16)).map fun i => (1, leNat (slice (16 * i) 4 b) % 2 ^ 25)
  | .failed => []

/-- SCHED_BATCH: `list` is the change list as read. -/
def execSchedBatch (r : Nat) (d list : HostRead) (s : State) : Host.Outcome State Fault Refusal :=
  .next (s.withCmd r d (· == 0x30) (fun c s =>
    let count := nfield (cmdArg1 c.bytes) 44 32
    let done (st : Nat) : State := s.cmdDone c.ring c.idx st 0
    let st := s.hostStatus c.slice (cmdArg0 c.bytes) (16 * count)
    if count = 0 ∨ 4096 < count then done stLength
    else if st ≠ stOk then (done st).boundsBroken c.slice st
    else match list with
      | .failed => done stHostError
      | .ok b =>
        let word (o : Nat) : DWord := BitVec.ofNat 64 (leNat (slice o 8 b))
        s.queueBatch .list (some (c.ring, c.idx)) c.slice ((upto count).map fun i => (word (16 * i), word (16 * i + 8)))
          (if nfield (cmdArg1 c.bytes) 45 45 = 1 then some (cmdArg1 c.bytes % 2 ^ 32) else none)) (batchListNames list))

/-- BATCH_ADMITTED: the admission in progress ends; `h` is what the context fetches found. -/
def execBatchAdmitted (h : CtxHost) (s : State) : Host.Outcome State Fault Refusal :=
  match s.sched.batch with
  | some b => .next (if b.admitted then s else s.admitBatch h b)
  | none => .next s

/-- SCHED_RESERVE: judged at the next frame boundary that R221 allows. -/
def execSchedReserve (r : Nat) (d : HostRead) (s : State) : Host.Outcome State Fault Refusal :=
  .next (s.withCmd r d (· == 0x31) fun c s =>
    let t := nfield (cmdArg0 c.bytes) 13 8
    let n := nfield (cmdArg0 c.bytes) 7 0
    if cmdArg2 c.bytes ≠ 2 ^ 64 - 1 - cmdArg1 c.bytes then s.cmdDone c.ring c.idx stIntegrity 0
    else if s.nPorts ≤ t ∨ s.nSlices ≤ n then s.cmdDone c.ring c.idx stAbsent 0
    else s.onSched fun m => { m with rechecks := m.rechecks ++ [.reserve c.ring c.idx t n (cmdArg1 c.bytes)] })

/-- SCHED_QUERY. -/
def execSchedQuery (r : Nat) (d : HostRead) (s : State) : Host.Outcome State Fault Refusal :=
  .next (s.withCmd r d (· == 0x32) fun c s =>
    let tree := nfield (cmdArg0 c.bytes) 16 16 == 1
    let t := nfield (cmdArg0 c.bytes) 13 8
    let n := nfield (cmdArg0 c.bytes) 7 0
    let buf := cmdArg1 c.bytes
    let st := s.hostStatus c.slice buf 4096
    if c.slice.isSome ∧ (tree ∨ c.slice ≠ some n) then
      (if c.slice ≠ some n ∧ tree = false then s.cmdForeign c else s.cmdDone c.ring c.idx stBounds 0)
    else if s.nPorts ≤ t ∨ (tree = false ∧ s.nSlices ≤ n) then s.cmdDone c.ring c.idx stAbsent 0
    else if st ≠ stOk then (s.cmdDone c.ring c.idx st 0).boundsBroken c.slice st
    else
      let l := Tbl.get [] s.sched.active t
      let per := (upto (State.periodOf l)).map fun phi => if tree then s.wNs (s.byteTime t) l phi else s.uNs (s.byteTime t) l n phi
      let vals := (upto 1024).map fun phi => per.getD (phi % State.periodOf l) 0
      let m := vals.foldl max 0
      let top := if tree then s.capNs else s.resOf n t
      let p := s.cmdPasid c
      (s.emits (confirmed p buf (vals.flatMap (leBytes 4)))).cmdDone c.ring c.idx stOk
        (top % 2 ^ 20 * 2 ^ 32 + (vals.findIdx (· == m)) * 2 ^ 20 + m % 2 ^ 20))

/-- SCHED_CLEAR. -/
def execSchedClear (r : Nat) (d : HostRead) (s : State) : Host.Outcome State Fault Refusal :=
  .next (s.withCmd r d (· == 0x33) fun c s =>
    let m := cmdArg0 c.bytes
    if 2 ^ s.nPorts ≤ m then s.cmdDone c.ring c.idx stAbsent 0
    else if m = 0 then s.cmdDone c.ring c.idx stOk 0
    else s.queueBatch (.clear m) (some (c.ring, c.idx)) none [] none)

/-- PORT_RATE (R109, R197). A port that has the rate already, or has a change in progress, changes nothing. -/
def execPortRate (r : Nat) (d : HostRead) (s : State) : Host.Outcome State Fault Refusal :=
  .next (s.withCmd r d (· == 0x22) fun c s =>
    if s.nPorts ≤ nfield (cmdArg0 c.bytes) 5 0 then s.cmdDone c.ring c.idx stAbsent 0 else s.portRate c)

end Sys2Proof.Machine
end

