-- ==== Sys2Proof/Machine/Dealer.lean ====
section
/-! DEFINITION. Machine/Dealer.lean: the rest of the dealer's dynamics (chapter 07): release from the delay lists, NOTYET's limit, the return of
spilled entries, the spill area's enable, and the manager's writes of dependence counters. -/

namespace Sys2Proof.Machine

namespace State

/-- The time key of an entry on a delay list. -/
def timeKey (e : Entry) : Option Nat :=
  match e.delay with
  | some (.time t) => some t
  | _ => none

/-- Every entry whose time key has passed leaves the delay lists, in key order (R235). -/
def releaseDue (s : State) (t : Nat) : State :=
  s.releaseAll (s.entries.filterMap fun e => (timeKey e).bind fun k => if k ≤ t ∧ e.done.isNone then some (k, e.delayNo, e.id) else none)

/-- The oldest spilled entry of a slice. -/
def oldestSpilled (s : State) (n : Nat) : Option Entry := s.entries.find? fun e => e.spilled && e.slice == n

/-- Spilled entries of a slice return in take order while it has room; the fuel is their number. -/
def spillBack (s : State) (n : Nat) : Nat → State
  | 0 => s
  | k + 1 =>
    match s.oldestSpilled n with
    | none => s
    | some e =>
      if s.deal.quota ≤ (s.onChip fun e => e.slice == n) ∨ 65536 ≤ (s.onChip fun _ => true) then s
      else
        let full := s.spilledAll == s.spillLimit
        let s1 := s.onEntry e.id fun e => { e with spilled := false }
        let s2 := s1.traceEntry 8 e 0 (s1.spilledOf n) 0 0
        let s3 := if s1.spilledOf n = 0 then s2.spillEvent 2 n 0 0 else s2
        let s4 := if full then s3.spillEvent 4 0 s1.spillUsed 0 else s3
        (s4.judge 5 e.id).spillBack n k

/-- A spill read failed: every spilled entry of the slice completes HOST_ERROR in take order, and its spill area is empty (R255). -/
def spillLost (s : State) (n : Nat) : State :=
  let l := s.entries.filter fun e => e.spilled && e.slice == n
  let full := s.spilledAll == s.spillLimit && !l.isEmpty
  let s1 := l.foldl (fun s e => (s.onEntry e.id fun e => { e with spilled := false, needCtx := false }).finish e.id stHostError)
    (s.spillEvent 5 n l.length stHostError)
  let s2 := if l.isEmpty then s1 else s1.spillEvent 2 n 0 0
  (if full then s2.spillEvent 4 0 s2.spillUsed 0 else s2).refresh 0

/-- SCH_SPILL_BASE.ENABLE (R254, R255): set, the area is sampled and ERR is clear; cleared, spilling stops at once. -/
def spillEnable (s : State) (en : Bool) : State :=
  let s1 := s.fset .SCH_SPILL_BASE_ENABLE (bit en)
  if en ∧ s.deal.spillOn = false then
    (s1.fset .SCH_SPILL_STS_ERR 0).onDeal fun d => { d with
      spillOn := true, spillBase := s.rd .SCH_SPILL_BASE 0, spillBlocks := s.fget .SCH_SPILL_SIZE_BLOCKS }
  else s1.onDeal fun d => { d with spillOn := en }

/-- The counter that SCH_DCNT_SEL selects is written; at 0 its waiters are released (R231, R232). -/
def counterWrite (s : State) (v : Nat) : State :=
  let i := s.fget .SCH_DCNT_SEL_INDEX
  let w := v % 65536
  (s.onDeal fun d => { d with counters := if w = 0 then Tbl.del d.counters i else Tbl.put d.counters i w }).refresh 1

end State

/-- DELAY_RELEASE at `t`. -/
def execDelayRelease (t : Nat) (s : State) : Host.Outcome State Fault Refusal := .next ((((s.at_ t).releaseDue t).refresh 4).settled)

/-- NOTYET_TIMEOUT: at the first tick at which NY_LIMIT frames have passed without a PING answered ACK (R134, R237). -/
def execNotyetTimeout (eph : Nat) (s : State) : Host.Outcome State Fault Refusal :=
  match s.entries.find? (fun e => e.eph == eph && e.nyFrom.isSome && e.done.isNone), s.ctx? eph with
  | some e, some k =>
    let lim := k.ctx.nyLimit % 65536
    if lim ≠ 0 ∧ lim ≤ (s.frameNo + 2 ^ 32 - (e.nyFrom.getD 0)) % 2 ^ 32 then .next (((s.finish e.id stNotyet).refresh 0).settled) else .next s
  | _, _ => .next s

/-- SPILL_RETURN for slice `n`; `ok`: the spill read succeeds. -/
def execSpillReturn (n : Nat) (ok : Bool) (s : State) : Host.Outcome State Fault Refusal :=
  if !s.engineFree (.spill n) then .next s
  else if ok then .next (((((s.engineEnd (.spill n) 1).spillBack n s.entries.length).admitWaiting).refresh 5).settled)
  else .next (((s.engineEnd (.spill n) 0).spillLost n).settled)

/-- SPILL_ENABLE. -/
def execSpillEnable (en : Bool) (s : State) : Host.Outcome State Fault Refusal :=
  s.whenReady (.next ((s.spillEnable en).admitWaiting.refresh 5))

/-- SCH_DCNT_VAL_WRITE. -/
def execSchDcntValWrite (v : Nat) (s : State) : Host.Outcome State Fault Refusal :=
  s.whenReady (.next (s.counterWrite v))

/-- A full-width read of SCH_ADM_EVT (R468). -/
def execSchAdmEvtRead (both : Bool) (s : State) : Host.Outcome State Fault Refusal :=
  s.readReady (.next (s.eventRead .SCH_ADM_EVT .SCH_ADM_EVT_SHADOW 0 both 129))

end Sys2Proof.Machine
end

