-- ==== Sys2Proof/Machine/DevBase.lean ====
section
/-! DEFINITION. Machine/DevBase.lean: what hubs and modules hold behind their endpoints: endpoints in their default state, the
answers they send, and what the controller's ACK does (R132, R137). -/

namespace Sys2Proof.Machine

/-- A device endpoint in its default state: as its record describes it, with nothing held. -/
def DevEp.toDefault (e : DevEp) : DevEp := { DevEp.init with cls := e.cls, mps := e.mps, burst := e.burst }

/-- The toggle of an endpoint is resynchronised: DATA0, and a stored echo is forgotten (R133, R394). -/
def DevEp.resync (e : DevEp) : DevEp := { e with toggle := 0, lastToggle := none, echo := none, echoLate := false }

/-- A device reset by a bus reset: address 0, DEFAULT (R102, R139); every toggle DATA0 (Table 4.7). -/
def Device.busReset (v : Device) : Device :=
  { v with addr := 0, pendingAddr := none, st := 0, eps := Tbl.mapv v.eps fun _ e => e.toDefault, ctl := none, remoteWake := false }

/-- The key of a device endpoint: EPADDR (Table 4.8); endpoint 0 has one for both directions. -/
def epKey (ep dir : Nat) : Nat := if ep = 0 then 0 else epAddr ep dir

/-- An endpoint of a device; endpoint 0 always exists. -/
def Device.ep? (v : Device) (ep dir : Nat) : Option DevEp :=
  if ep = 0 then some (Tbl.get DevEp.init v.eps 0)
  else match Tbl.find v.eps (epKey ep dir) with
    | some e => some e
    | none => if v.kind ≠ 1 ∧ ep = 1 ∧ dir = 1 then some { DevEp.init with cls := 3, mps := 8 } else none

/-- MPS of endpoint 0: 64 before the address is set, then EP0_MPS of the identity record (R121). -/
def Device.mps0 (v : Device) : Nat :=
  if v.addr = 0 then 64 else 2 ^ (nfield (leNat (Sys2Proof.slice 33 1 (Tbl.get [] v.records 0))) 3 0 + 3)

/-- The calibration block of a transceiver in one of its cages does not check (R59): records 0x20 to 0x3F. -/
def Device.uncal (v : Device) : Bool := v.records.any fun r => decide (0x20 ≤ r.1 ∧ r.1 < 0x40) && !calOk r.2

/-- A record as the device returns it: the identity record with UNCAL set where a source of asymmetry is missing (R59, Table 4.11), its CRC made
over it. -/
def Device.record (v : Device) (n : Nat) : List Byte :=
  let b := Tbl.get [] v.records n
  if n = 0 ∧ v.uncal = true then
    let x := nset (leNat (Sys2Proof.slice 32 1 b)) 0 0 1
    let c := b.take 32 ++ leBytes 1 x ++ Sys2Proof.slice 33 219 b
    c ++ leBytes 4 (crc32c c).toNat
  else b

namespace State

/-- An endpoint of a device changed. -/
def onEp (s : State) (d ep dir : Nat) (f : DevEp → DevEp) : State :=
  s.onDev d fun v => { v with eps := Tbl.put v.eps (epKey ep dir) (f ((v.ep? ep dir).getD DevEp.init)) }

/-- The control transfer of a device changed. -/
def onCtl (s : State) (d : Nat) (f : DevCtl → DevCtl) : State :=
  s.onDev d fun v => { v with ctl := match v.ctl with
    | some c => some (f c)
    | none => none }

/-- A device answers a transaction: the fields of the call, its own route, upstream (R97). -/
def answerUp (s : State) (d : Nat) (call : Pkt) (pid pflags : Nat) (payload : List Byte) : State :=
  s.sendUp d ⟨pid, true, (s.dev d).route, call.tag, call.dir, call.epnum, call.devaddr, pflags, payload⟩

/-- STALL with its WHY (Table 4.2). -/
def stallUp (s : State) (d : Nat) (call : Pkt) (why : Nat) : State := s.answerUp d call 11 why []

/-- A device takes packets to its address (R96). -/
def addressed (s : State) (d : Nat) (p : Pkt) : Bool := p.devaddr == (s.dev d).addr

/-- The status stage of a device's control transfer is over: SET_ADDRESS takes effect (Table 4.9). -/
def ctlDone (s : State) (d : Nat) : State :=
  s.onDev d fun v =>
    let v1 := match v.pendingAddr with
      | some a => { v with addr := a, st := max 1 v.st, pendingAddr := none }
      | none => v
    { v1 with ctl := match v1.ctl with
      | some c => some { c with stage := 2 }
      | none => none }

/-- Ports of a hub with a nonzero change word, as the bitmap of R115. Bit 0, for the hub function itself, stays 0: the spec names no change of the
function that sets it (log entry 92). -/
def hubBitmap (s : State) (d : Nat) : Nat :=
  ((upto (s.dev d).nports).map fun i => if s.rd .PRT_CHG (PortId.hub d (i + 1)).code = 0 then 0 else 2 ^ (i + 1)).foldl (· + ·) 0

/-- The controller's ACK of IN DATA at a device: the toggle flips and what was sent is released (R132); on endpoint 0 the control
transfer moves on (R137). -/
def devAck (s : State) (d : Nat) (p : Pkt) : State :=
  if p.pid ≠ 8 ∨ !s.addressed d p then s
  else if p.epnum = 0 then
    match (s.dev d).ctl with
    | some c =>
      if c.stage = 0 ∧ setupIn c.setup then
        let n := c.done + c.sent
        let over_ := decide (setupLen c.setup ≤ n) || decide (c.sent < (s.dev d).mps0)
        (s.onCtl d fun c => { c with done := n, sent := 0, stage := if over_ then 1 else 0 }).onEp d 0 0 fun e =>
          { e with toggle := if over_ then 1 else 1 - e.toggle }
      else if c.stage = 1 ∧ statusIn c.setup ∧ c.ready then s.ctlDone d
      else s
    | none => s
  else match (s.dev d).ep? p.epnum p.dir with
    | some e =>
      if e.cls = 2 then s.onEp d p.epnum p.dir fun e => { e with sent := e.sent.filter fun x => x.1 != p.tag }
      else if e.cls = 3 then s.onEp d p.epnum p.dir fun e => { e with toggle := 1 - e.toggle, events := e.events.tail }
      else if e.cls = 4 ∧ p.dir = 1 then s.onEp d p.epnum p.dir fun e => { e with toggle := 1 - e.toggle, dataIn := e.dataIn.tail }
      else s
    | none => s

end State

end Sys2Proof.Machine
end

