-- ==== Sys2Proof/Machine/LinkRx.lean ====
section
/-! DEFINITION. Machine/LinkRx.lean: what link ends receive: the checks of Table 3.6, link retry, the LINKCTL messages of
Table 3.8, and forwarding by hubs. -/

namespace Sys2Proof.Machine

/-! ### Receive checks (R80, R81, R83, R92) -/

/-- LEN as Table 3.5 fixes it; none where it does not. -/
def pidLen (pid : Nat) : Option Nat :=
  match pid with
  | 4 => some 0
  | 5 => some 32
  | 8 => some 0
  | 9 => some 0
  | 10 => some 0
  | 11 => some 0
  | 12 => some 16
  | 13 => some 32
  | 14 => some 16
  | _ => none

/-- Sequenced packets (Table 3.5). -/
def pidSeq (pid : Nat) : Bool := decide (1 ≤ pid ∧ pid ≤ 11)

/-- LINKCTL types that are defined (Table 3.8, Table 12.5). -/
def linkctlType (t : Nat) : Bool := decide (1 ≤ t ∧ t ≤ 9) || decide (0x10 ≤ t ∧ t ≤ 0x16)

/-- The PFLAGS bits that a PID may carry (Table 4.2). -/
def pflagsOk (pid f : Nat) : Bool :=
  match pid with
  | 6 => decide (f < 16)
  | 7 => decide (f < 16)
  | 11 => decide (f < 16)
  | 8 => f == 0
  | 9 => f == 0
  | 10 => f == 0
  | _ => decide (f < 8)

/-- Check 1: PID_N is the complement of PID, and PID is not 0x0 or 0xF. -/
def checkPid (r : RawPkt) : Bool := [r.header.length == 16, r.pidN == 15 - r.pid, r.pid != 0, r.pid != 15].all id

/-- Check 2: LEN and LEN_N, and LEN as the PID fixes it. -/
def checkLen (r : RawPkt) : Bool :=
  r.len < 0x2000 ∧ r.lenN = 0x1FFF - r.len ∧ r.len ≤ 4096 ∧ (pidLen r.pid).getD r.len = r.len

/-- Check 3: reserved bits, which take in the fields that a FRAME or an unsequenced packet leaves zero, and the direction of travel. -/
def checkReserved (r : RawPkt) (up : Bool) : Bool :=
  let reserved := [nfield r.w1 15 14, nfield r.w1 12 12, nfield r.w3 39 35, nfield r.w8 23 23]
  let plain := if r.pid = 5 ∨ 12 ≤ r.pid then [r.w8, r.w3, r.pflags] else []
  let unsequenced := if 12 ≤ r.pid then [r.lseq] else []
  r.up == up && pflagsOk r.pid r.pflags && (reserved ++ plain ++ unsequenced).all (· == 0)

/-- Checks 1 to 3 on a header, at an end at which packets travel upstream or downstream. -/
def headOk (r : RawPkt) (up : Bool) : Bool := checkPid r && checkLen r && checkReserved r up

/-- A LINKCTL has a defined type, and TYPE_N is its complement; otherwise it counts as a header error (R92). -/
def linkctlOk (r : RawPkt) : Bool :=
  let typ := leNat (slice 0 1 r.payload)
  r.pid != 14 || (linkctlType typ && leNat (slice 1 1 r.payload) == 255 - typ)

/-- A whole packet passes checks 1 to 3. -/
def headerOk (r : RawPkt) (up : Bool) : Bool := headOk r up && r.payload.length == r.len && linkctlOk r

/-- The trailer as the bytes have it. -/
def rawCrc (r : RawPkt) : Word := crc32c (r.header ++ r.payload)

namespace State

/-- A header error is counted. -/
def countHeader (s : State) (l : LinkEndId) : State :=
  match l with
  | .port (.root n) => s.countN .PRT_LERR_HDR_ERR n 1
  | _ => s.onLink l fun e => { e with hdrErr := e.hdrErr + 1 }

/-- A CRC error is counted. -/
def countCrc (s : State) (l : LinkEndId) : State :=
  match l with
  | .port (.root n) => s.countN .PRT_LERR_CRC_ERR n 1
  | _ => s.onLink l fun e => { e with crcErr := e.crcErr + 1 }

/-- A poisoned packet is counted. -/
def countPoisoned (s : State) (l : LinkEndId) : State :=
  match l with
  | .port (.root n) => s.countN .PRT_RETRY_POISONED n 1
  | _ => s.onLink l fun e => { e with poisoned := e.poisoned + 1 }

/-- Corrected and uncorrectable codewords are counted (R76): `c` gives of each the symbols corrected. -/
def countFec (s : State) (l : LinkEndId) (c : List (Option Nat)) : State :=
  match l with
  | .port (.root n) =>
    (s.countN .PRT_FEC_CORR_CW n (c.filter fun x => x.any (0 < ·)).length).countN .PRT_FEC_UNCORR n (c.filter Option.isNone).length
  | _ => s

/-- The byte stream goes on: between packets the receiver hunts for the next SOP (R77). -/
def rxOn (s : State) (l : LinkEndId) (x : List RxSym) : State :=
  s.onLink l fun e => { e with rx := if atSop e.rate e.rx then e.rx ++ x else huntSop e.rate (e.rx ++ x) }

/-- What a receiver takes from the line at its rate: code groups in sync, codewords in lock (R71–R76). -/
def takeLine (s : State) (l : LinkEndId) (line : RxLine) : State :=
  let e := s.link l
  if !e.rxOk || s.absentEnd l then s
  else match line with
  | .groups g =>
    let r := groupSyms e.rxRd g
    if e.rate = 0 then (s.onLink l fun e => { e with rxRd := r.2 }).rxOn l r.1 else s
  | .blocks b =>
    let r := codewordsSyms e.rxHist (cutCodewords (b.length / 30) b)
    if e.rate = 0 then s
    else ((s.onLink l fun e => { e with rxHist := r.2 }).countFec l (r.1.map Prod.snd)).rxOn l (r.1.map Prod.fst).flatten

/-- `n` entries of the stream are over, and the receiver hunts for the next SOP. -/
def rxOver (s : State) (l : LinkEndId) (n : Nat) : State :=
  s.onLink l fun e => { e with rx := huntSop e.rate (e.rx.drop n) }

/-- A RETRY naming the expected LSEQ, at most once per 5 us for the same value (R86). -/
def sendRetry (s : State) (l : LinkEndId) (t : Nat) : State :=
  let e := s.link l
  if e.retryVal = some e.rxSeq ∧ t < e.retryAt + 5000 then s
  else (s.sendCtl l 2 e.rxSeq 0 0).onLink l fun e => { e with retryVal := some e.rxSeq, retryAt := t }

/-- An ACK naming the last accepted LSEQ. -/
def sendAck (s : State) (l : LinkEndId) : State := s.sendCtl l 1 ((s.link l).rxSeq + 4095) 0 0

/-! ### Hubs (R89, R96, R97, R382) -/

/-- A packet that a hub discards is counted. -/
def hubDiscard (s : State) (l : LinkEndId) : State := s.onLink l fun e => { e with discarded := e.discarded + 1 }

/-- Where a hub sends a packet on: none where it is its own, or where it is discarded. -/
def hubTarget (s : State) (l : LinkEndId) (p : Pkt) : Option LinkEndId :=
  match l with
  | .dev d _ =>
    let h := (s.dev d).tier
    let v := nfield p.route (5 * h - 1) (5 * h - 5)
    if (s.dev d).kind = 1 ∨ p.pid = 5 ∨ 12 ≤ p.pid ∨ v = 0 then none
    else if s.portState (.hub d v) = 4 then some (.port (.hub d v)) else none
  | .port (.hub d _) =>
    if 12 ≤ p.pid then none
    else match s.upOf d with
      | some up => some (.dev d up)
      | none => none
  | .port (.root _) => none

/-- A packet for the hub's own function, which an end takes in: fields above the hub's own are zero (R96). -/
def hubOwn (s : State) (d : Nat) (p : Pkt) : Bool :=
  let h := (s.dev d).tier
  nfield p.route (5 * h - 1) (5 * h - 5) == 0 && p.route / 2 ^ (5 * h) == 0

/-- Header bytes 8–10 as a number. -/
def pktKey (p : Pkt) : Nat := p.devaddr % 4096 + p.epnum % 64 * 2 ^ 12 + p.dir % 2 * 2 ^ 18 + p.tag % 16 * 2 ^ 19

/-- An accepted packet is handed to what stands behind the link end: a LINKCTL as its fields read. -/
def deliver (s : State) (l : LinkEndId) (p : Pkt) : State :=
  s.emit (if p.pid = 14 then .control l (Linkctl.ofBytes p.payload) else .deliver l p)

/-- A packet that a downstream end accepted. A dual-upstream hub notes which upstream asked: of two transactions that the answer's header cannot tell
apart, the later one (log entry 114). -/
def acceptDown (s : State) (d up : Nat) (p : Pkt) : State :=
  let l := LinkEndId.dev d up
  if (s.dev d).kind = 1 ∨ p.pid = 5 ∨ 12 ≤ p.pid then (s.deliver l p).devAck d p
  else if (s.dev d).kind = 3 ∧ (s.dev d).token.holder ≠ some up then s.hubDiscard l
  else
    let s1 := if (s.dev d).kind = 3 ∧ p.pid ≤ 4 then
        s.onDev d fun v => { v with token := { v.token with asked := (v.token.asked.filter fun a => a.2 != pktKey p) ++ [(up, pktKey p)] } } else s
    if s.hubOwn d p then (s1.deliver l p).devAck d p
    else match s.hubTarget l p with
      | some o => s1.sendPkt o p
      | none => s1.hubDiscard l

/-- The header of a hub port's packet has passed checks 1–3: its place among those that go upstream is fixed (R97). -/
def openTicket (s : State) (l : LinkEndId) (r : RawPkt) : State :=
  match l with
  | .port (.hub d q) =>
    if 12 ≤ r.pid ∨ (s.link l).ticket then s
    else (s.onDev d fun v => { v with upq := v.upq ++ [(q, none)] }).onLink l fun e => { e with ticket := true }
  | _ => s

/-- A packet that goes upstream takes the place that its header has. -/
def upDone (s : State) (d q : Nat) (k : Pkt) : State :=
  (s.onLink (.port (.hub d q)) fun e => { e with ticket := false }).onUpq d (upFill q k)

/-- A packet that a hub port accepted from below. A dual-upstream hub discards the answer to a transaction of an upstream that
has lost the token since. -/
def acceptUp (s : State) (d p : Nat) (k : Pkt) : State :=
  let l := LinkEndId.port (.hub d p)
  if 12 ≤ k.pid then s.deliver l k
  else if (s.dev d).kind = 3 then
    let from_ := (s.dev d).token.asked.find? fun a => a.2 == pktKey k
    let s1 := s.onDev d fun v => { v with token := { v.token with asked := v.token.asked.filter fun a => a.2 != pktKey k } }
    if from_.all fun a => some a.1 == (s.dev d).token.holder then s1.upDone d p k else (s1.dropTicket l).hubDiscard l
  else s.upDone d p k

/-- An accepted packet goes on (check 6). -/
def accept (s : State) (l : LinkEndId) (p : Pkt) : State :=
  match l with
  | .dev d up => s.acceptDown d up p
  | .port (.hub d q) => s.acceptUp d q p
  | .port (.root _) => s.deliver l p

/-- The copy that a hub had begun to forward, of the first `begun` bytes as they stood on the line (`w`): where the packet `r` is not accepted (check 4 or 5,
or the link is down), or the FEC corrected one of those bytes, it ends with a poisoned trailer on the link that the ROUTE as read then names, and takes the LSEQ that the next packet
carries there (R89). -/
def poisonCopy (s : State) (l : LinkEndId) (r w : RawPkt) (up : Bool) (begun : Nat) : State :=
  let bad := r.errored || r.trailer != rawCrc r || (pidSeq r.pid && (r.lseq != (s.link l).rxSeq || !(s.link l).up)) || (w.header ++ w.payload).take begun != (r.header ++ r.payload).take begun
  match s.hubTarget l w.pkt with
  | some o => if decide (0 < begun) && bad && headOk w up then s.putOn o (.poisoned (s.link o).txSeq w.pkt) else s
  | none => s

/-- Checks 5 and 6 of a packet whose bytes check. An LSEQ exactly 2,048 away is taken as an earlier one (log entry 83). -/
def checkSeq (s : State) (l : LinkEndId) (r : RawPkt) (t : Nat) : State :=
  if !pidSeq r.pid then s.accept l r.pkt
  else
    let d := (r.lseq + 4096 - (s.link l).rxSeq) % 4096
    if d = 0 then
      ((s.onLink l fun e => { e with rxSeq := (e.rxSeq + 1) % 4096, retryVal := none }).sendAck l).accept l r.pkt
    else if d < 2048 then (s.dropTicket l).sendRetry l t
    else (s.dropTicket l).sendAck l

/-- A whole packet (Table 3.6), `r` as corrected and `w` as it stood on the line. Sequenced packets are taken only while the link is up. -/
def checkPacket (s : State) (l : LinkEndId) (r w : RawPkt) (up : Bool) (begun t : Nat) : State :=
  if !linkctlOk r then s.countHeader l
  else if pidSeq r.pid && !(s.link l).up then (s.poisonCopy l r w up begun).dropTicket l
  else
    let s1 := s.poisonCopy l r w up begun
    if !r.errored && r.trailer == ~~~ rawCrc r then (s1.countPoisoned l).dropTicket l
    else if r.errored || r.trailer != rawCrc r then
      let s2 := (s1.countCrc l).dropTicket l
      if pidSeq r.pid then s2.sendRetry l t else s2
    else s1.checkSeq l r t

/-- The packet at the front of the byte stream, as far as it has come: its header once that is there, the whole once LEN says so. After a header error
the hunt for the next SOP goes on behind the header. -/
def takePacket (s : State) (l : LinkEndId) (begun t : Nat) : State :=
  let up := match l with
    | .port _ => true
    | .dev _ _ => false
  let x := (s.link l).rx
  let h := (x.drop 2).take 16
  let head : RawPkt := ⟨h.map RxSym.value, [], 0, false⟩
  if !atSop (s.link l).rate x || h.length != 16 then s
  else if h.any RxSym.noByte || !headOk head up then (s.countHeader l).rxOver l 18
  else
    let s1 := s.openTicket l head
    let n := head.len
    let p := (x.drop 18).take n
    let c := (x.drop (18 + n)).take 4
    if c.length != 4 then s1
    else
      let err := (h ++ p ++ c).any RxSym.bad
      let raw : (RxSym → Byte) → RawPkt := fun f => ⟨h.map f, p.map f, BitVec.ofNat 32 (leNat (c.map f)), err⟩
      (s1.checkPacket l (raw RxSym.value) (raw RxSym.onLine) up begun t).rxOver l (22 + n)

end State

/-- A receiver takes what the line brought, and the packet at the front of the byte stream as far as it has come (R77, R83). `begun`: how many bytes of
it a hub has forwarded already. -/
def execPacketReceive (l : LinkEndId) (line : RxLine) (begun t : Nat) (s : State) : Host.Outcome State Fault Refusal :=
  .next (((s.at_ t).takeLine l line).takePacket l begun t)

/-- LINKCTL ACK (R86, R88). -/
def execLinkctlAckReceive (l : LinkEndId) (seq : Nat) (s : State) : Host.Outcome State Fault Refusal :=
  .next (if (s.link l).up then s.ackKept l seq else s)

/-- A replay from an LSEQ, or the link counts as down where a ninth would be needed (R88). -/
def State.replayOrDown (s : State) (l : LinkEndId) (seq t : Nat) (tTx : Int) : State :=
  if s.replaysOut l seq then s.endLost l t else s.replay l seq tTx

/-- LINKCTL RETRY (R86). -/
def execLinkctlRetryReceive (l : LinkEndId) (seq t : Nat) (tTx : Int) (s : State) : Host.Outcome State Fault Refusal :=
  let s0 := s.at_ t
  .next (if (s0.link l).up then s0.replayOrDown l seq t tTx else s0)

/-- The oldest unacknowledged packet of an end has had no ACK for 20 us (R86). -/
def State.replayTimeout (s : State) (l : LinkEndId) (t : Nat) (tTx : Int) : State :=
  match (s.link l).replay with
  | k :: _ => if (s.link l).up then s.replayOrDown l k.lseq t tTx else s
  | [] => s

/-! ### CAPS (R94, R95, R105) -/

/-- A CAPS argument with the protocol version of this manual and no reserved bit. -/
def capsOk (arg : Nat) : Bool := nfield arg 15 8 == 1 && nfield arg 29 27 == 0 && nfield arg 7 4 == 0

namespace State

/-- A port shows its peer's capabilities; the tree of a root port may be shared from now on, or no more (R381). -/
def showPeer (s : State) (p : PortId) (arg : Nat) : State :=
  let s1 := (((s.fsetN .PRT_STS_PEER_RWAKE p.code (nfield arg 3 3)).fsetN .PRT_STS_PEER_DUAL_UP p.code (nfield arg 2 2)).fsetN
    .PRT_STS_PEER_HUB p.code (nfield arg 1 1)).fsetN .PRT_STS_PEER_RATE5 p.code (nfield arg 0 0)
  match p with
  | .root n => s1.sharedShown n (s.shared n)
  | .hub _ _ => s1

/-- A valid CAPS at an end: recorded and answered, and the link is up once both ends have seen each other's. -/
def takeCaps (s : State) (l : LinkEndId) (seq arg : Nat) (tTx : Int) : State :=
  let s1 := s.onLink l fun e => { e with peerCaps := some arg, seenRecv := e.seenRecv || nfield arg 31 31 == 1 }
  let s2 := if nfield arg 31 31 = 0 ∨ ¬ (s1.link l).seenSent then s1.sendCaps l else s1
  let e := s2.link l
  if !e.up && e.seenSent && e.seenRecv then s2.endUp l seq arg tTx else s2

/-- CAPS at a port. -/
def portCaps (s : State) (p : PortId) (seq arg t : Nat) (tTx : Int) : State :=
  let st := s.portState p
  let open_ := st == 2 || st == 5 || st == 7 || (st == 6 && (s.port p).wakeTraining)
  let deepHub := match p with
    | .hub d _ => (s.dev d).tier == 7 && nfield arg 1 1 == 1
    | .root _ => false
  if open_ then
    if !capsOk arg then (if st = 2 then s.leave p 9 [.PRT_CHG_ERROR] else s)
    else if deepHub then (s.showPeer p arg).leave p 9 [.PRT_CHG_ERROR]
    else
      let was := (s.link (.port p)).up
      let s1 := (s.showPeer p arg).takeCaps (.port p) seq arg tTx
      if !was && (s1.link (.port p)).up then s1.portLinked p t else s1
  else if decide (3 ≤ st ∧ st ≤ 8) && st != 6 && capsOk arg && nfield arg 31 31 == 0 then s.sendCaps (.port p)
  else s

/-- CAPS at a hub or module: it learns its tier; once the link is up it measures the delay (R57), and sends WAKE where it trained
for one (R105), a dual-upstream hub on the holder's port only (R382). -/
def devCaps (s : State) (d up seq arg t : Nat) (t1 tTx : Int) : State :=
  let l := LinkEndId.dev d up
  if !capsOk arg then s
  else
    let s0 := if (s.link l).up && nfield arg 31 31 == 0 then s.endLost l t else s
    let s1 := s0.onDev d fun v => { v with tier := nfield arg 26 24 + (if v.kind = 1 then 0 else 1) }
    let s2 := s1.takeCaps l seq arg tTx
    if !(s0.link l).up && (s2.link l).up then
      let s3 := s2.sendDelayReq d up t1
      if (s3.link l).wakeAt.isSome && (s3.dev d).suspended && s3.upOf d == some up then s3.startCtl l 9 t else s3
    else s2

end State

/-- LINKCTL CAPS. `t1`: the crossing of the DELAY_REQ that a downstream end sends once the link is up, in its own time; `tTx`: the crossing at which
a replay starts. A receiver without sync or lock treats the link as down, and takes none (R72, R75). -/
def execCapsReceive (l : LinkEndId) (seq arg t : Nat) (t1 tTx : Int) (s : State) : Host.Outcome State Fault Refusal :=
  if !(s.link l).rxOk then .next (s.at_ t)
  else match l with
  | .port p => .next ((s.at_ t).portCaps p seq arg t tTx)
  | .dev d up => .next ((s.at_ t).devCaps d up seq arg t t1 tTx)

/-- CAPS is repeated until the peer's CAPS with SEEN arrives. A suspended device with remote wake enabled starts training so,
and stops after 10 ms without an answer (R105). It does not try again before the next SUSPEND or RESUME (log entry 87). A dual-upstream hub wakes on
the holder's port only (R382). -/
def execCapsRepeat (l : LinkEndId) (t : Nat) (s : State) : Host.Outcome State Fault Refusal :=
  let s0 := s.at_ t
  if (s0.link l).seenRecv then .next s0
  else match l with
    | .port p =>
      let st := s0.portState p
      if st = 2 ∨ st = 5 ∨ st = 7 ∨ st = 8 ∨ (st = 6 ∧ (s0.port p).wakeTraining) then .next (s0.sendCaps l) else .next s0
    | .dev d up =>
      if (s0.dev d).suspended && (s0.link l).peerCaps.isNone && s0.actsFrom d up then
        if s0.upOf d != some up then .next s0
        else match (s0.link l).wakeAt with
        | some w => if t ≤ w + 10000000 then .next (s0.sendCaps l) else .next s0
        | none =>
          if (s0.dev d).remoteWake then .next ((s0.onLink l fun e => { e with wakeAt := some t }).sendCaps l) else .next s0
      else .next (s0.sendCaps l)

/-! ### Rate change messages (Table 3.13, R94) -/

/-- RATE_REQ at the downstream end: answered with RATE_ACK, its ARG and FRAME_NO copied. With NOW both ends switch after it. -/
def execRateReqReceive (d up arg frameNo : Nat) (s : State) : Host.Outcome State Fault Refusal :=
  let l := LinkEndId.dev d up
  let target := nfield arg 0 0
  let now := nfield arg 1 1 == 1
  .next ((s.sendCtl l 5 0 arg frameNo).onLink l fun e => { (if now then e.toRate target else e) with ratePend := some (target, frameNo, now) })

/-- RATE_ACK at the upstream end of a pending change. With NOW the end switches now. -/
def execRateAckReceive (p : PortId) (arg frameNo : Nat) (s : State) : Host.Outcome State Fault Refusal :=
  let mine : RateChange → Bool := fun c => c.reqSent && nfield arg 0 0 == c.target && frameNo == c.sFrame
  if nfield arg 1 1 = 1 then
    match (s.port p).rateNow with
    | some c =>
      if mine c && !c.acked then
        .next ((s.onPort p fun x => { x with rateNow := some { c with acked := true } }).onLink (.port p) fun e => e.toRate c.target)
      else .next s
    | none => .next s
  else
    match (s.port p).rateChg with
    | some c => .next (if mine c then s.onPort p fun x => { x with rateChg := some { c with acked := true } } else s)
    | none => .next s

/-- RATE_REQ is repeated until RATE_ACK, and that of a change with a switch frame in the guard band before it no more (Table 3.8). -/
def execRateReqRepeat (p : PortId) (s : State) : Host.Outcome State Fault Refusal :=
  let s1 := if (s.port p).rateNow.any RateChange.unacked then s.sendRateReq p true else s
  .next (if (s1.port p).rateChg.any RateChange.unacked && !s1.inGuard (.port p) then s1.sendRateReq p false else s1)

/-! ### RESET (R102) -/

namespace State

/-- A hub passes SUSPEND on to an ENABLED port. -/
def passSuspend (t : Nat) (s : State) (p : PortId) : State :=
  if s.portState p = 4 then (s.onPort p fun x => { x with prop := true, susp := .sent }).startCtl (.port p) 7 t else s

/-- A hub passes RESET on to a port that has a link: at once where it is ENABLED, else as a RESET command acts there (Table 3.11). Any other port is
DISABLED at once (R102; log entry 88). -/
def passReset (t : Nat) (s : State) (p : PortId) : State :=
  let st := s.portState p
  if st = 3 then s.onPort p fun x => { x with prop := true }
  else if hasLink st then (s.portReset p t).onPort p fun x => { x with prop := true }
  else if st = 0 then s
  else s.leave p 0 []

/-- A hub passes RESET (type 6) or SUSPEND (7) on to its ports, and owes the echo until they have answered. -/
def hubPass (s : State) (d up typ t : Nat) : State :=
  let s1 := (s.hubPorts d).foldl (if typ = 6 then passReset t else passSuspend t) s
  (s1.onDev d fun v => { v with owesEcho := some (typ, up) }).hubSettle d t

/-- A RESET, SUSPEND or RESUME from an upstream that a dual-upstream hub does not act on: echoed (R382). -/
def echoOnly (s : State) (d up typ t : Nat) : State := s.echo (.dev d up) typ t false

end State

/-- LINKCTL RESET at a downstream end: a repeat is echoed again; else the function is reset, a hub passes it on, and the echo
follows. A dual-upstream hub's token stays with its holder (R382). -/
def execLinkctlResetReceive (d up t : Nat) (s : State) : Host.Outcome State Fault Refusal :=
  let s0 := s.at_ t
  let l := LinkEndId.dev d up
  if s0.isRepeat l 6 t then .next (s0.echo l 6 t true)
  else if !s0.actsFrom d up then .next (s0.echoOnly d up 6 t)
  else if (s0.dev d).owesEcho = some (6, up) then .next s0
  else
    let s1 := s0.onDev d Device.busReset
    if (s1.dev d).kind = 1 then .next (s1.echo l 6 t false) else .next (s1.hubPass d up 6 t)

/-- The RESET echo: the port is ENABLED (CONNECT after a connect, RESET_DONE otherwise); a port that a hub resets by propagation
is DISABLED (R102). -/
def execResetEchoReceive (p : PortId) (t : Nat) (s : State) : Host.Outcome State Fault Refusal :=
  let s0 := s.at_ t
  if s0.portState p = 3 ∧ s0.awaits (.port p) 6 then
    let s1 := s0.echoTaken (.port p) 6 t
    if s1.propOut p 6 then .next (s1.leave p 0 [])
    else
      let bit_ : Fld := if (s1.port p).connecting then .PRT_CHG_CONNECT else .PRT_CHG_RESET_DONE
      .next (((s1.putState p 4).onPort p fun x => { x with connecting := false }).change p [bit_])
  else .next s0

/-! ### SUSPEND and RESUME (R103, R104) -/

/-- LINKCTL SUSPEND at a downstream end: a module echoes; a hub passes it on and echoes once its ports have. -/
def execLinkctlSuspendReceive (d up t : Nat) (s : State) : Host.Outcome State Fault Refusal :=
  let s0 := s.at_ t
  let l := LinkEndId.dev d up
  if s0.isRepeat l 7 t then .next (s0.echo l 7 t true)
  else if !s0.actsFrom d up then .next (s0.echoOnly d up 7 t)
  else if (s0.dev d).owesEcho = some (7, up) then .next s0
  else if (s0.dev d).kind = 1 then
    .next ((((s0.onDev d fun v => { v with suspended := true }).onLink l fun e => { e with wakeAt := none }).echo l 7 t false).endDown l)
  else .next ((s0.onLink l fun e => { e with wakeAt := none }).hubPass d up 7 t)

/-- The SUSPEND echo: both ends go to electrical idle. -/
def execSuspendEchoReceive (p : PortId) (t : Nat) (s : State) : Host.Outcome State Fault Refusal :=
  let s0 := s.at_ t
  if s0.portState p = 4 ∧ (s0.port p).susp = .sent ∧ s0.awaits (.port p) 7 then
    let prop := (s0.port p).prop
    let s1 := (s0.echoTaken (.port p) 7 t).enterSuspended p t
    match p with
    | .hub d _ => .next (if prop then s1.hubSettle d t else s1)
    | .root n =>
      if !s1.flag .PWR_STS_ENTERING && s1.pwrState ≤ 1 && s1.pwr.suspended.contains n && s1.portState p == 6 then
        .next ((s1.hostResume p).onPwr fun w => { w with suspended := w.suspended.filter (· != n) })
      else .next s1
  else .next s0

/-- LINKCTL RESUME at a downstream end: it ends a WAKE, is echoed, and a hub resumes the ports that it suspended by propagation
and the port that woke it (R105). -/
def execLinkctlResumeReceive (d up t : Nat) (s : State) : Host.Outcome State Fault Refusal :=
  let s0 := s.at_ t
  let l := LinkEndId.dev d up
  if s0.isRepeat l 8 t then .next (s0.echo l 8 t true)
  else if !s0.actsFrom d up then .next (s0.echoOnly d up 8 t)
  else
    let s1 := (((s0.stopCtl l 9).onLink l fun e => { e with wakeAt := none }).onDev d fun v => { v with suspended := false }).echo l 8 t false
    .next (((s1.hubPorts d).filter fun p => s1.portState p == 6).foldl (fun s p =>
      if (s.port p).wakeHeld then (s.onPort p fun x => { x with wakeHeld := false }).wakeResume p t
      else if (s.port p).suspByProp then s.hostResume p else s) s1)

/-- The RESUME echo: the port is ENABLED. -/
def execResumeEchoReceive (p : PortId) (t : Nat) (s : State) : Host.Outcome State Fault Refusal :=
  let s0 := s.at_ t
  if s0.portState p = 7 ∧ s0.awaits (.port p) 8 then
    let s1 := (s0.echoTaken (.port p) 8 t).putState p 4
    .next ((s1.onPort p fun x => { x with forWake := false, suspByProp := false }).change p [.PRT_CHG_RESUME_DONE])
  else .next s0

/-! ### WAKE (R105, R106) -/

/-- WAKE at an upstream end. From SUSPENDED the port resumes; while a host resume runs, the host resume wins and the wake is
recorded; while a SUSPEND awaits its echo, it is held. A hub whose own upstream link is suspended wakes that first, whether or not its own remote
wake is enabled (log entry 89), and resumes the port once it is resumed itself; until then a repeated WAKE changes nothing. -/
def execLinkctlWakeReceive (p : PortId) (t : Nat) (s : State) : Host.Outcome State Fault Refusal :=
  let s0 := s.at_ t
  let st := s0.portState p
  if st = 6 ∧ (s0.port p).wakeTraining then
    match p with
    | .hub d _ =>
      match s0.upOf d with
      | some up =>
        if !(s0.dev d).suspended then .next (s0.wakeResume p t)
        else
          let s1 := s0.onPort p fun x => { x with wakeHeld := true }
          if (s1.link (.dev d up)).up || (s1.link (.dev d up)).wakeAt.isSome then .next s1
          else .next ((s1.onLink (.dev d up) fun e => { e with wakeAt := some t }).sendCaps (.dev d up))
      | none => .next s0
    | .root _ => .next (s0.wakeResume p t)
  else if st = 7 then
    if (s0.port p).forWake ∨ s0.flagN .PRT_STS_WAKE_SEEN p.code then .next s0
    else .next ((s0.raiseN .PRT_STS_COLLIDED p.code).acceptWake p [])
  else if st = 4 ∧ (s0.port p).susp = .sent then .next (s0.onPort p fun x => { x with wakeHeld := true })
  else .next s0

/-- RESET, SUSPEND, RESUME and WAKE that wait for an answer are repeated (Table 3.8); one that had to wait for 1 ms after the
previous echo is sent now (R93). WAKE stops after 10 ms. -/
def execLinkctlCmdRepeat (l : LinkEndId) (t : Nat) (s : State) : Host.Outcome State Fault Refusal :=
  let s0 := s.at_ t
  .next ((s0.link l).waiting.foldl (fun s c =>
    let early := match Tbl.find (s.link l).echoRecv c.typ with
      | some e => decide (t < e + 1000000)
      | none => false
    let tooLong := c.typ == 9 && (s.link l).wakeAt.all fun w => decide (w + 10000000 < t)
    if early then s else if tooLong then s.stopCtl l 9 else s.sendCtl l c.typ 0 0 0) s0)

end Sys2Proof.Machine
end

