-- ==== Sys2Proof/Machine/Sync.lean ====
section
/-! DEFINITION. Machine/Sync.lean: how hubs and modules keep the controller's time (R53–R61): FRAMEs received and forwarded, and
the delay of upstream links. Times of a device are in its own time, in 1/256 ns. -/

namespace Sys2Proof.Machine

/-- d_down of an upstream link (R58), halves rounded down. -/
def Delay.down (m : Delay) : Option Int :=
  match m.mean with
  | some x => some (x + m.asym / 2)
  | none => none

/-- START_SEC and START_NS of a FRAME, in 1/256 ns. -/
def frameStart (f : FrameBody) : Int := ((f.sec * second + f.ns) * 256 : Nat)

/-- A FRAME that must be discarded and counted (R54): three bits give only the eight classes of Table 2.3, which every device represents. -/
def frameBad (f : FrameBody) : Bool := f.flagsRsvd || decide (7 < f.qclass)

/-- What a device has slewed by `t`, in its own time: at most 100 ppm of the time since (R56). -/
def Device.slewTo (v : Device) (t : Int) : Device :=
  let rest := workOff v.slew ((t - v.slewAt).toNat / 10000)
  { v with clk := v.clk + (v.slew - rest), slew := rest, slewAt := t }

namespace State

/-- The clock set from a FRAME received at `tRx`: a step where STEPPED is 1 or the device is not synchronised, else a slew (R56). -/
def setClock (s : State) (d : Nat) (f : FrameBody) (tRx off : Int) : State :=
  s.onDev d fun v0 =>
    let v := v0.slewTo tRx
    let v1 := if f.stepped || !v.synced then { v with clk := v.clk + off, slew := 0 } else { v with slew := off }
    { v1 with synced := true, frameMiss := 0, lastFrame := some f.frameNo,
              token := { v1.token with gotFrame := true, missed := 0 } }

/-- A hub forwards a FRAME on every enabled downstream port, ahead of any packet not yet started; the departure crossings are in
`tTx` (R55). -/
def forwardFrame (s : State) (d : Nat) (f : FrameBody) (down tRx : Int) (tTx : List Int) : State :=
  (((s.hubPorts d).filter fun p => s.portState p == 4 && (s.port p).emptyTo.all fun n => !later32 n f.frameNo).zip tTx).foldl (fun s x =>
    s.sendFrame (.port x.1) f (f.correction + down - tRx) x.2) s

/-- What waited for the FRAME at a device leaves: on the upstream link that brought it, and downstream behind the copies (R90). -/
def frameCame (s : State) (d up : Nat) (tRx : Int) : State :=
  (s.hubPorts d).foldl (fun s p => s.release (.port p) tRx 56) (s.release (.dev d up) tRx 56)

end State

/-- The payload of a FRAME received by a hub or module (R55, R56, R61, R91): one that is not later than every FRAME applied has no effect on time,
nor has one from an upstream that does not hold the token (R382). `tRx` is the reception crossing, `tTx` the departure crossings
of a hub's copies, `t1` that of the DELAY_REQ which follows it. -/
def execFrameReceive (d up : Nat) (payload : List Byte) (tRx : Int) (tTx : List Int) (t1 : Int) (s : State) :
    Host.Outcome State Fault Refusal :=
  let f := FrameBody.ofBytes payload
  if frameBad f then .next (s.onDev d fun v => { v with badFrames := v.badFrames + 1 })
  else if s.upOf d != some up || (s.dev d).lastFrame.any fun n => !later32 f.frameNo n then .next (s.frameCame d up tRx)
  else
    let again := f.frameNo % 256 == 0 || (s.delay d up).reqAgain
    let s1 := match (s.delay d up).down with
      | some down =>
        let s1 := s.setClock d f tRx (frameStart f - (tRx - f.correction - down))
        if (s.dev d).kind = 1 then s1 else s1.forwardFrame d f down tRx tTx
      | none => s
    let s2 := s1.frameCame d up tRx
    .next (if again then s2.sendDelayReq d up t1 else s2)

/-- A DELAY_REQ at an upstream end: answered with its crossing and the answer's own (R57); LAST_MEAN is kept, and a delay above
10 us puts the port in ERROR (R79). An absent port receives none (R6). -/
def execDelayReqReceive (p : PortId) (payload : List Byte) (t2 t3 : Nat) (s : State) : Host.Outcome State Fault Refusal :=
  if s.absentEnd (.port p) then .next s else
  let lastMean := delayReqMean payload
  let s1 := s.sendOne (.port p) (.delayResp (delayReqSeq payload) (t2 - s.trimOf (.port p)).toNat t3) t3
  let s2 := match p with
    | .root n => s1.fsetN .TIM_PDLY_MEAN n lastMean
    | .hub _ _ => s1.onPort p fun x => { x with lastMean := lastMean % 2 ^ 32 }
  let st := s2.portState p
  if lastMean % 2 ^ 32 ≠ 2 ^ 32 - 1 ∧ 2560000 < lastMean % 2 ^ 32 ∧ (st = 4 ∨ st = 5) then .next (s2.leave p 9 [.PRT_CHG_ERROR])
  else .next s2

/-- Two results lie within 5 ns. -/
def near5 (a b : Int) : Bool := decide ((a - b).natAbs ≤ 1280)

/-- A DELAY_RESP (R58): the mean from the four crossings, accepted or rejected. -/
def execDelayRespReceive (d up : Nat) (payload : List Byte) (t4 : Int) (s : State) : Host.Outcome State Fault Refusal :=
  let m := s.delay d up
  let seq := delayRespSeq payload
  let t2 : Int := delayRespT2 payload
  let t3 : Int := delayRespT3 payload
  match m.reqT1 with
  | some t1 =>
    if seq ≠ m.reqSeq then .next s
    else
      let mean := ((t4 - t1) - (t3 - t2)) / 2
      let rej := (mean :: m.rejects).take 3
      let fits := m.mean.all fun x => near5 mean x
      let third := rej.length == 3 && rej.all fun a => rej.all fun b => near5 a b
      if t4 - t1 ≤ 10240000 ∧ 0 ≤ mean ∧ (fits ∨ third) then
        .next (s.onDelay d up fun m => { m with mean := some mean, rejects := [], reqT1 := none })
      else .next (s.onDelay d up fun m => { m with rejects := rej, reqT1 := none })
  | none => .next s

/-- A DELAY_REQ without an answer within 40 us is abandoned, and repeated after the next accepted FRAME (R58). -/
def execDelayReqAbandon (d up : Nat) (s : State) : Host.Outcome State Fault Refusal :=
  if (s.delay d up).reqT1.isSome then .next (s.onDelay d up fun m => { m with reqT1 := none, reqAgain := true }) else .next s

/-- After 16 frames without an accepted FRAME the device stops being synchronised (R61). -/
def execSyncLost (d : Nat) (s : State) : Host.Outcome State Fault Refusal :=
  .next (if 16 ≤ (s.dev d).frameMiss then s.onDev d fun v => { v with synced := false } else s)

end Sys2Proof.Machine
end

