-- ==== Sys2Proof/Machine/Device.lean ====
section
/-! DEFINITION. Machine/Device.lean: how hubs and modules answer transactions (R126–R139), the requests of Tables 4.9 and 3.15,
and the sample blocks and COMMANDs of modules (R131, R262). -/

namespace Sys2Proof.Machine

namespace State

/-- WHY of a STALL that an endpoint other than 0 gives before its class is considered, in the order of R139 and Table 4.2; none
where the call may be served. -/
def epStall (s : State) (d : Nat) (p : Pkt) : Option Nat :=
  if (s.dev d).st ≠ 2 then some 3
  else match (s.dev d).ep? p.epnum p.dir with
    | some e => if e.cls ≠ p.pflags % 8 then some 3 else if e.halted then some 0 else none
    | none => some 3

/-- The DATA packet of a toggle. -/
def dataPid (toggle : Nat) : Nat := 6 + toggle % 2

/-- A CALL_IN on endpoint 0: the next piece of an IN data stage, the IN status stage, NAK while the request is not carried out, or
STALL where it is no stage of a control transfer in progress (R137). -/
def ctlIn (s : State) (d : Nat) (p : Pkt) : State :=
  match (s.dev d).ctl with
  | some c =>
    if c.stage = 0 ∧ setupIn c.setup then
      if c.ready then
        let b := Sys2Proof.slice c.done (min (s.dev d).mps0 (setupLen c.setup - c.done)) c.data
        (s.onCtl d fun c => { c with sent := b.length }).answerUp d p (dataPid (Tbl.get DevEp.init (s.dev d).eps 0).toggle) 0 b
      else s.answerUp d p 9 0 []
    else if c.stage = 1 ∧ statusIn c.setup then
      (if c.ready then s.answerUp d p 7 0 [] else s.answerUp d p 9 0 [])
    else s.stallUp d p 2
  | none => s.stallUp d p 2

/-- A CALL_OUT on endpoint 0 (R137). A repeated last packet of the data stage and a repeated status stage are duplicates and acknowledged (R132). -/
def ctlOut (s : State) (d : Nat) (p data : Pkt) (room after : Bool) : State :=
  let tog := (Tbl.get DevEp.init (s.dev d).eps 0).toggle
  match (s.dev d).ctl with
  | some c =>
    if c.stage = 0 ∧ ¬ setupIn c.setup then
      if data.pid ≠ dataPid tog then s.answerUp d p 8 0 []
      else if room then
        let b := c.data ++ data.payload
        let over_ := decide (setupLen c.setup ≤ b.length)
        ((s.onCtl d fun c => { c with data := b, done := b.length, stage := if over_ then 1 else 0, lastOut := some data.pid }).onEp d 0 0 fun e =>
          { e with toggle := if over_ then 1 else 1 - tog, notyet := !after }).answerUp d p (if after then 8 else 10) 0 []
      else s.answerUp d p 9 0 []
    else if ¬ statusIn c.setup ∧ data.payload.isEmpty ∧ data.pid = 7 ∧ c.stage ≠ 0 then
      (if c.stage = 1 then s.ctlDone d else s).answerUp d p 8 0 []
    else if c.stage = 1 ∧ c.lastOut = some data.pid then s.answerUp d p 8 0 []
    else s.stallUp d p 2
  | none => s.stallUp d p 2

/-- A CALL_IN on a CYCLIC endpoint (R262): the oldest block kept, in a frame's BURST + 1 calls; a further call of the same frame is
a repeated one and gets the block that the controller has not acknowledged, the oldest where there are several (R132); NAK where there is none or
the module is not synchronised (R61). -/
def cyclicIn (s : State) (d : Nat) (p : Pkt) (e : DevEp) : State :=
  let v := s.dev d
  let same := e.sentFrame == v.lastFrame && v.lastFrame.isSome
  let calls := if same then e.calls + 1 else 1
  let given := if same then e.sent else []
  let (next, kept, blocks) := if !v.synced then (none, [], e.blocks)
    else if calls ≤ e.burst + 1 then (e.blocks.head?, given, e.blocks.tail)
    else (given.head?.map Prod.snd, given.tail, e.blocks)
  let s1 := s.onEp d p.epnum p.dir fun e => { e with
    sentFrame := v.lastFrame, calls := calls, blocks := blocks, sent := kept ++ next.toList.map fun b => (p.tag, b) }
  match next with
  | some b => s1.answerUp d p 6 1 (leBytes 8 b.stamp ++ leBytes 2 b.bseq ++ b.bytes)
  | none => s1.answerUp d p 9 0 []

/-- A CALL_IN on an EVENT endpoint: the oldest event, with MORE where others wait behind it; a hub's endpoint 1 gives its bitmap
stamped with the oldest change (R115, R121). -/
def eventIn (s : State) (d : Nat) (p : Pkt) (e : DevEp) : State :=
  let v := s.dev d
  if !v.synced then s.answerUp d p 9 0 []
  else if v.kind ≠ 1 ∧ p.epnum = 1 then
    (if s.hubBitmap d = 0 then s.answerUp d p 9 0 []
     else s.answerUp d p (dataPid e.toggle) 1 (leBytes 8 (v.chgAt.getD 0) ++ leBytes 4 (s.hubBitmap d)))
  else match e.events with
    | x :: rest => s.answerUp d p (dataPid e.toggle) (1 + 8 * bit (!rest.isEmpty)) (leBytes 8 x.stamp ++ x.bytes)
    | [] => s.answerUp d p 9 0 []

end State

/-- A CALL_IN at a hub or module (Table 4.4). -/
def execCallInReceive (d : Nat) (p : Pkt) (s : State) : Host.Outcome State Fault Refusal :=
  if !s.addressed d p then .next s
  else if p.epnum = 0 then .next (if p.pflags % 8 = 0 then s.ctlIn d p else s.stallUp d p 3)
  else match s.epStall d p, (s.dev d).ep? p.epnum p.dir with
    | some why, _ => .next (s.stallUp d p why)
    | none, some e =>
      if e.cls = 2 then .next (s.cyclicIn d p e)
      else if e.cls = 3 then .next (s.eventIn d p e)
      else .next (match e.dataIn with
        | b :: _ => s.answerUp d p (State.dataPid e.toggle) 0 b
        | [] => s.answerUp d p 9 0 [])
    | none, none => .next (s.stallUp d p 3)

/-- A CALL_OUT with its DATA at a hub or module (R132, R134). `room`: there is room for this packet; `after`: and for one more. -/
def execCallOutReceive (d : Nat) (p data : Pkt) (room after : Bool) (s : State) : Host.Outcome State Fault Refusal :=
  if !s.addressed d p then .next s
  else if p.epnum = 0 then .next (if p.pflags % 8 = 0 then s.ctlOut d p data room after else s.stallUp d p 3)
  else match s.epStall d p, (s.dev d).ep? p.epnum p.dir with
    | some why, _ => .next (s.stallUp d p why)
    | none, some e =>
      if e.cls ≠ 4 then .next s
      else if data.pid ≠ State.dataPid e.toggle then .next (s.answerUp d p 8 0 [])
      else if room then
        .next ((s.onEp d p.epnum p.dir fun e => { e with
          toggle := 1 - e.toggle, dataOut := e.dataOut ++ [data.payload], ready := after, notyet := !after }).answerUp d p
            (if after then 8 else 10) 0 [])
      else .next ((s.onEp d p.epnum p.dir fun e => { e with ready := false }).answerUp d p 9 0 [])
    | none, none => .next (s.stallUp d p 3)

/-- PING (R134): ACK when there is room, NAK when not. On endpoint 0 it is for an OUT data stage, its last packet included when that was answered NOTYET
(log entry 101). -/
def execPingReceive (d : Nat) (p : Pkt) (room : Bool) (s : State) : Host.Outcome State Fault Refusal :=
  if !s.addressed d p then .next s
  else if p.epnum = 0 then
    match (s.dev d).ctl with
    | some c => .next (if p.pflags % 8 ≠ 0 then s.stallUp d p 3
        else if ¬ setupIn c.setup ∧ (c.stage = 0 ∨ (c.stage = 1 ∧ c.lastOut.isSome ∧ (Tbl.get DevEp.init (s.dev d).eps 0).notyet)) then s.answerUp d p (if room then 8 else 9) 0 [] else s.stallUp d p 2)
    | none => .next (s.stallUp d p (if p.pflags % 8 = 0 then 2 else 3))
  else match s.epStall d p with
    | some why => .next (s.stallUp d p why)
    | none => .next ((s.onEp d p.epnum p.dir fun e => { e with ready := room, notyet := e.notyet && !room }).answerUp d p
        (if room then 8 else 9) 0 [])

/-! ### COMMAND (R131) -/

/-- EXEC_HORIZON of a device (R140). -/
def State.execHorizon (s : State) (d : Nat) : Nat := leNat (Sys2Proof.slice 44 4 (Tbl.get [] (s.dev d).records 0))

/-- A COMMAND and its DATA at a module: `tHold` is the instant at which the module holds the checked packet, `tExec` the fine time at which
it executes one that is due at once, which its STAMP gives to the nearest nanosecond (R38). -/
def execCommandReceive (d : Nat) (p data : Pkt) (tHold tExec : Nat) (s : State) : Host.Outcome State Fault Refusal :=
  if !s.addressed d p then .next s
  else match s.epStall d p, (s.dev d).ep? p.epnum p.dir with
    | some why, _ => .next (s.stallUp d p why)
    | none, some e =>
      let body := data.payload.drop 8
      let execAt := leNat (data.payload.take 8)
      let payload := body.take (body.length / 2)
      if e.cls ≠ 1 then .next s
      else if !complPair body then .next (s.stallUp d p 4)
      else match (if e.lastToggle = some (data.pid % 2) then e.echo else none) with
        | some x => .next (s.answerUp d p data.pid (3 + 4 * bit e.echoLate) x)
        | none =>
          if !(s.dev d).synced then .next (s.stallUp d p 1)
          else if tHold + s.execHorizon d < execAt then .next (s.stallUp d p 5)
          else
            let now := execAt == 0 || decide (execAt < tHold)
            let late := decide (execAt ≠ 0) && decide (execAt < tHold)
            let x := leBytes 8 (if now then roundNs tExec else execAt) ++ body
            let s1 := s.onEp d p.epnum p.dir fun e => { e with
              lastToggle := some (data.pid % 2), echo := some x, echoLate := late
              armed := if now then e.armed else e.armed ++ [⟨execAt, payload⟩] }
            let s2 := if now then s1.emit (.executed d p.epnum (roundNs tExec) payload) else s1
            .next (s2.answerUp d p data.pid (3 + 4 * bit late) x)
    | none, none => .next (s.stallUp d p 3)

/-- Of armed commands the one with the earliest EXEC_AT, the first of those armed for the same instant, and the others. -/
def firstArmed : List ModCmd → Option (ModCmd × List ModCmd)
  | [] => none
  | c :: r =>
    match firstArmed r with
    | some (x, rest) => if x.execAt < c.execAt then some (x, c :: rest) else some (c, r)
    | none => some (c, r)

/-- The module's clock reaches EXEC_AT: the armed command executes, of several the one that is due first. -/
def execExecAtExecute (d ep : Nat) (s : State) : Host.Outcome State Fault Refusal :=
  match (s.dev d).ep? ep 0 with
  | some e =>
    match firstArmed e.armed with
    | some (c, rest) => .next ((s.onEp d ep 0 fun e => { e with armed := rest }).emit (.executed d ep c.execAt c.payload))
    | none => .next s
  | none => .next s

/-! ### Sample blocks (R262) -/

/-- A module forms a block: BSEQ advances, and at most the newest BURST + 1 blocks not delivered are kept. `stamp` is the fine time of its first
sample, which its STAMP gives to the nearest nanosecond (R38); `body` is the block after its BSEQ. -/
def execSampleBlockForm (d ep stamp : Nat) (body : List Byte) (s : State) : Host.Outcome State Fault Refusal :=
  match (s.dev d).ep? ep 1 with
  | some e =>
    if e.cls = 2 then
      let n := (e.bseq + 1) % 65536
      let l := e.blocks ++ [⟨roundNs stamp, n, body⟩]
      .next (s.onEp d ep 1 fun e => { e with bseq := n, blocks := l.drop (l.length - (e.burst + 1)) })
    else .next s
  | none => .next s

/-! ### SETUP and the standard requests (R136–R139) -/

/-- The endpoint that an EPADDR names exists. -/
def Device.hasEp (v : Device) (a : Nat) : Bool := (v.ep? (a % 64) (a / 128 % 2)).isSome

/-- A request that the device supports: not a reserved code, a value, port, feature, record or endpoint that it does not have
(R116, R138). -/
def Device.supports (v : Device) (b : List Byte) : Bool :=
  let val := setupValue b
  let idx := setupIndex b
  let portOk := v.kind != 1 && decide (1 ≤ idx ∧ idx ≤ v.nports)
  match setupReq b with
  | 0x00 => idx == 0 || v.hasEp idx
  | 0x01 => v.hasEp idx
  | 0x02 => v.hasEp idx
  | 0x05 => decide (1 ≤ val ∧ val ≤ 4094)
  | 0x06 => (Tbl.find v.records val).isSome
  | 0x08 => true
  | 0x09 => decide (val ≤ 1)
  | 0x0A => decide (val ≤ 1)
  | 0x0B => true
  | 0x40 => portOk
  | 0x41 => portOk && decide (val ≤ 6)
  | 0x42 => portOk && (val == 0 || val == 2 || val == 3 || val == 4)
  | _ => false

/-- SETUP at a hub or module: it abandons any control transfer in progress; the data and status stages start with DATA1
(Table 4.7). A request that is not supported is answered STALL, and so is a SETUP to another endpoint, in every device state (R139 names it for
CONFIGURED; log entry 93). -/
def execSetupReceive (d : Nat) (p : Pkt) (s : State) : Host.Outcome State Fault Refusal :=
  if !s.addressed d p then .next s
  else if p.epnum ≠ 0 ∨ p.pflags % 8 ≠ 0 then .next (s.stallUp d p 3)
  else if (s.dev d).supports p.payload then
    .next (((s.onDev d fun v => { v with
      pendingAddr := none
      ctl := some ⟨p.payload, if setupLen p.payload = 0 then 1 else 0, 0, 0, [], false, none⟩ }).onEp d 0 0 fun e =>
        { e with toggle := 1 }).answerUp d p 8 0 [])
  else .next ((s.onDev d fun v => { v with ctl := none }).stallUp d p 2)

/-- The request that a device has to carry out now: one of a code, whose OUT data, if any, has arrived. -/
def State.request (s : State) (d req : Nat) : Option DevCtl :=
  match (s.dev d).ctl with
  | some c => if setupReq c.setup = req ∧ ¬ c.ready ∧ (c.stage = 1 ∨ setupIn c.setup) then some c else none
  | none => none

/-- A request carried out, with the data of its IN stage. -/
def State.carried (s : State) (d : Nat) (b : List Byte) : State := s.onCtl d fun c => { c with ready := true, data := c.data ++ b }

/-- GET_STATUS (0x00). -/
def execGetStatus (d : Nat) (s : State) : Host.Outcome State Fault Refusal :=
  match s.request d 0x00 with
  | some c =>
    let i := setupIndex c.setup
    let v := if i = 0 then (s.dev d).st else bit (((s.dev d).ep? (i % 64) (i / 128 % 2)).any DevEp.halted)
    .next (s.carried d (leBytes 4 v))
  | none => .next s

/-- CLEAR_HALT (0x01): data held is kept. -/
def execClearHalt (d : Nat) (s : State) : Host.Outcome State Fault Refusal :=
  match s.request d 0x01 with
  | some c =>
    let i := setupIndex c.setup
    .next ((s.onEp d (i % 64) (i / 128 % 2) fun e => if i % 64 = 0 then e else { e.resync with halted := false }).carried d [])
  | none => .next s

/-- RESET_ENDPOINT (0x02): data held for the endpoint is discarded. -/
def execResetEndpoint (d : Nat) (s : State) : Host.Outcome State Fault Refusal :=
  match s.request d 0x02 with
  | some c =>
    let i := setupIndex c.setup
    .next ((s.onEp d (i % 64) (i / 128 % 2) fun e => if i % 64 = 0 then e else { e.resync with
      halted := false, dataIn := [], dataOut := [], events := [], blocks := [], sent := [] }).carried d [])
  | none => .next s

/-- SET_ADDRESS (0x05): the address applies after the status stage. -/
def execSetAddress (d : Nat) (s : State) : Host.Outcome State Fault Refusal :=
  match s.request d 0x05 with
  | some c => .next ((s.onDev d fun v => { v with pendingAddr := some (setupValue c.setup) }).carried d [])
  | none => .next s

/-- GET_RECORD (0x06). -/
def execGetRecord (d : Nat) (s : State) : Host.Outcome State Fault Refusal :=
  match s.request d 0x06 with
  | some c => .next (s.carried d ((s.dev d).record (setupValue c.setup)))
  | none => .next s

/-- GET_CONFIGURATION (0x08). -/
def execGetConfiguration (d : Nat) (s : State) : Host.Outcome State Fault Refusal :=
  match s.request d 0x08 with
  | some _ => .next (s.carried d (leBytes 4 (bit ((s.dev d).st == 2))))
  | none => .next s

/-- SET_CONFIGURATION (0x09): every toggle but endpoint 0's is DATA0 (Table 4.7). With VALUE 1 a device at address 0 is CONFIGURED as well: R139 names
no other answer (log entry 93). -/
def execSetConfiguration (d : Nat) (s : State) : Host.Outcome State Fault Refusal :=
  match s.request d 0x09 with
  | some c =>
    .next ((s.onDev d fun v => { v with
      st := if setupValue c.setup = 1 then 2 else if v.addr = 0 then 0 else 1
      eps := Tbl.mapv v.eps fun k e => if k = 0 then e else e.resync }).carried d [])
  | none => .next s

/-- SET_REMOTE_WAKE (0x0A). -/
def execSetRemoteWake (d : Nat) (s : State) : Host.Outcome State Fault Refusal :=
  match s.request d 0x0A with
  | some c => .next ((s.onDev d fun v => { v with remoteWake := setupValue c.setup == 1 }).carried d [])
  | none => .next s

/-- SET_LINK_ASYM (0x0B): A of the upstream link that the device serves (R144). -/
def execSetLinkAsym (d : Nat) (s : State) : Host.Outcome State Fault Refusal :=
  match s.request d 0x0B with
  | some c => .next ((s.onDelay d ((s.upOf d).getD 0) fun m => { m with asym := signedOf 32 (leNat (c.data.take 4)) }).carried d [])
  | none => .next s

/-! ### Hub requests (R110, R116, R117) -/

/-- GET_PORT_STATUS (0x40): Table 3.16; the change word is cleared by the read. -/
def execGetPortStatus (d : Nat) (s : State) : Host.Outcome State Fault Refusal :=
  match s.request d 0x40 with
  | some c =>
    let p := PortId.hub d (setupIndex c.setup)
    let b := leBytes 4 (s.rd .PRT_STS p.code).toNat ++ leBytes 4 (s.rd .PRT_CHG p.code).toNat ++ leBytes 4 (s.port p).lastMean ++ leBytes 4 0
    let s1 := s.wr .PRT_CHG p.code 0
    .next ((if s1.hubBitmap d = 0 then s1.onDev d fun v => { v with chgAt := none } else s1).carried d b)
  | none => .next s

/-- SET_PORT_FEATURE (0x41). -/
def execSetPortFeature (d t : Nat) (s : State) : Host.Outcome State Fault Refusal :=
  let s0 := s.at_ t
  match s0.request d 0x41 with
  | some c =>
    let p := PortId.hub d (setupIndex c.setup)
    let s1 := match setupValue c.setup with
      | 0 => s0.portEnable p true
      | 1 => s0.portReset p t
      | 2 => s0.portSuspend p t
      | 3 => s0.rate5Set p true (leNat (c.data.take 4))
      | 4 => s0.onPort p fun x => { x with remoteWake := true }
      | 5 => s0.portRetrain p t
      | _ => s0.portClearError p
    .next (s1.carried d [])
  | none => .next s0

/-- CLEAR_PORT_FEATURE (0x42). -/
def execClearPortFeature (d t : Nat) (s : State) : Host.Outcome State Fault Refusal :=
  let s0 := s.at_ t
  match s0.request d 0x42 with
  | some c =>
    let p := PortId.hub d (setupIndex c.setup)
    let s1 := match setupValue c.setup with
      | 0 => s0.portEnable p false
      | 2 => s0.portResume p
      | 3 => s0.rate5Set p false (leNat (c.data.take 4))
      | _ => s0.onPort p fun x => { x with remoteWake := false }
    .next (s1.carried d [])
  | none => .next s0

end Sys2Proof.Machine
end

