-- ==== Sys2Proof/Machine/Mover.lean ====
section
/-! DEFINITION. Machine/Mover.lean: the mover (chapter 09): checks at GO and at each descriptor (Table 9.3), the operations (Table 9.2), pacing,
stopping, dry mode, the split into software and engine channels, and host errors. -/

namespace Sys2Proof.Machine

/-! ### MOV_CTLn (Table 9.12) -/

def ctlDescSp (c : Nat) : Nat := nfield c 27 26
def ctlRetry (c : Nat) : Nat := nfield c 15 13
def ctlBurst (c : Nat) : Nat := 64 * 2 ^ nfield c 12 10
def ctlDstSp (c : Nat) : Nat := nfield c 9 8
def ctlSrcSp (c : Nat) : Nat := nfield c 7 6
def ctlDstFix (c : Nat) : Bool := nfield c 5 5 == 1
def ctlSrcFix (c : Nat) : Bool := nfield c 4 4 == 1
def ctlOp (c : Nat) : Nat := nfield c 3 2
def ctlStream (c : Nat) : Bool := nfield c 1 1 == 1
def ctlDesc (c : Nat) : Bool := nfield c 0 0 == 1
/-- The operation reads SRC as an address: COPY and COMPARE (Table 9.2). -/
def ctlReadsSrc (c : Nat) : Bool := ctlOp c == 0 || ctlOp c == 2
/-- The operation writes DST: COPY and FILL. -/
def ctlWrites (c : Nat) : Bool := ctlOp c ≤ 1

/-- The request lines of Table 9.6. -/
def reqLine (x : Nat) : Bool := decide (x ≤ 68)

namespace State

/-- MOV_STSn.STATUS. -/
def chanStatus (s : State) (n st : Nat) : State := s.fsetN .MOV_STS_STATUS n st

/-- The slice a channel is bound to by its registers (R301). -/
def bound (s : State) (n : Nat) : Option Nat := if s.flagN .MOV_BIND_SLICE_EN n then some (s.fgetN .MOV_BIND_SLICE n) else none

/-- PASID of a software channel's host requests. -/
def chanPasid (s : State) (n : Nat) : Nat :=
  match (s.chan n).slice with
  | some k => (s.slice k).pasid
  | none => 0

/-- Bytes of the buffer pool in use (Table 9.1). -/
def poolBytes (s : State) : Nat := s.fget .HLT_POOL_ACTIVE * 65536

/-! ### Checks (Table 9.3) -/

/-- Check 2 on a MOV_CTLn for channel `n`. -/
def ctlOk (s : State) (n c src : Nat) : Bool :=
  nfield c 29 28 == 0 && nfield c 25 25 == 0 && decide (ctlDescSp c ≤ 1) && decide (ctlDstSp c ≤ 1) && nfield c 12 10 != 7 &&
  (!ctlStream c || ctlOp c == 0) && (!ctlReadsSrc c || ctlSrcSp c != 3) &&
  (ctlPace c != 2 || (decide (ctlPsel c < 64) && ctlPsel c != n)) &&
  (ctlPace c != 3 || (reqLine (ctlPsel c) && !s.flag .TIM_CTL_FRAME_EN)) &&
  (!ctlReadsSrc c || ctlSrcSp c != 2 || (ctlSrcFix c && ctlPace c == 3 && (ctlDesc c || src == ctlPsel c * 4096))) &&
  (match s.bound n with
   | some k => decide (k < s.nSlices)
   | none => true)

/-- The range rule of one region (Table 9.1): the status. In FIXED mode the region is one burst. -/
def regionStatus (s : State) (bind : Option Nat) (sp line addr len : Nat) : Nat :=
  if len = 0 then stOk
  else match sp with
    | 0 => if 2 ^ 64 < addr + len then stBounds else s.hostStatus bind addr len
    | 1 =>
      if s.poolBytes < addr + len then stBounds
      else match bind with
        | some k => if !(s.slice k).pairsOk then stIntegrity else if (s.slice k).inWindow addr len then stOk else stBounds
        | none => stOk
    | 2 => if addr = line * 4096 then stOk else stBounds
    | _ => stBounds

/-- Checks 5 and 6 of a descriptor that moves data. -/
def descStatus (s : State) (bind : Option Nat) (c src dst cnt : Nat) : Nat :=
  let len (fix : Bool) : Nat := if fix then min (ctlBurst c) cnt else cnt
  if (ctlReadsSrc c ∧ src % 8 ≠ 0) ∨ dst % 8 ≠ 0 ∨ cnt % 8 ≠ 0 then stMisaligned
  else
    let a := if ctlReadsSrc c then s.regionStatus bind (ctlSrcSp c) (ctlPsel c) src (len (ctlSrcFix c)) else stOk
    if a ≠ stOk then a else s.regionStatus bind (ctlDstSp c) 0 dst (len (ctlDstFix c))

/-! ### Moving data (R304–R307, R319) -/

end State

/-- Bytes up to the next 4 KiB boundary of a host address. -/
def toPage (sp a : Nat) : Nat := if sp = 0 then 4096 - a % 4096 else 4096

/-- The address of byte `o` of a descriptor at the start of a burst. -/
def movAddr (a : Nat) (fix : Bool) (o : Nat) : Nat := if fix then a else a + o

/-- Length of the burst that starts at byte `o`. -/
def burstLen (c src dst cnt o : Nat) : Nat :=
  min (min (ctlBurst c) (cnt - o))
    (min (if ctlReadsSrc c then toPage (ctlSrcSp c) (movAddr src (ctlSrcFix c) o) else 4096) (toPage (ctlDstSp c) (movAddr dst (ctlDstFix c) o)))

/-- The first 8-byte word in which two runs of bytes differ: its offset. The fuel is the number of words. -/
def mismatchAt : Nat → Nat → List Byte → List Byte → Option Nat
  | 0, _, _, _ => none
  | k + 1, o, a, b => if a.take 8 = b.take 8 then mismatchAt k (o + 8) (a.drop 8) (b.drop 8) else some o

/-- The 64-bit constant repeated, little-endian. -/
def constBytes (v : Nat) : Nat → List Byte
  | 0 => []
  | k + 1 => leBytes 8 v ++ constBytes v k

namespace State

/-- What a burst reads at an address: from the pool, or of what the host returned. -/
def burstRead (s : State) (sp addr len : Nat) (host : List Byte) : List Byte :=
  if sp = 1 then Memory.readAll s.pool addr len else (host ++ List.replicate len 0).take len

/-- One burst of a descriptor: `src` and `dst` are the bytes that the host returned for it. The CRC goes on; a mismatch ends the work. The last host address
written is kept for the flushing read (R320). -/
def burst (s : State) (n c src dst o len : Nat) (hs hd : List Byte) : State :=
  let k := s.chan n
  let da := movAddr dst (ctlDstFix c) o
  let data := if ctlReadsSrc c then s.burstRead (ctlSrcSp c) (movAddr src (ctlSrcFix c) o) len hs else constBytes src (len / 8)
  let s1 := s.onChan n fun k => { k with moved := o + len, crc := crcRun k.crc data }
  if ctlWrites c then
    (if ctlDstSp c = 0 then (s1.onChan n fun k => { k with wrote := some (lastWord da len) }).emit (.hostWrite (s.chanPasid n) da data)
     else { s1 with pool := Memory.writeAll s1.pool da data })
  else match mismatchAt (len / 8) o data (s.burstRead (ctlDstSp c) da len hd) with
    | some m => if k.mis.isNone then s1.onChan n fun k => { k with mis := some m, moved := m } else s1
    | none => s1

/-- All bursts of a descriptor from byte `o` on, up to an uncorrectable word of the pool (R323): the burst that holds it is not made. The fuel
is the number of 8-byte words. -/
def bursts (s : State) (n c src dst cnt : Nat) (ecc : Option Nat) : Nat → Nat → List Byte → List Byte → State
  | 0, _, _, _ => s
  | f + 1, o, hs, hd =>
    if cnt ≤ o ∨ (s.chan n).mis.isSome then s
    else
      let len := burstLen c src dst cnt o
      if len = 0 ∨ (ecc.map fun e => decide (e < o + len)).getD false then s
      else (s.burst n c src dst o len hs hd).bursts n c src dst cnt ecc f (o + len) (hs.drop len) (hd.drop len)

/-! ### The end of a descriptor -/

/-- A channel waits for its pace, or starts at once (R316). While its slice's host traffic is held it waits for the thaw (R346). -/
def paceNext (s : State) (n : Nat) : State :=
  let c := (s.chan n).ctl
  if s.chanHeld n then s.chanTo n 1
  else if ctlPace c = 0 then s.chanTo n 2
  else if ctlPace c = 2 ∧ s.fgetN .MOV_STS_CREDITS n ≠ 0 then
    (s.fsetN .MOV_STS_CREDITS n (s.fgetN .MOV_STS_CREDITS n - 1)).chanTo n 2
  else s.chanTo n 1

/-- A descriptor at an address written back in its two steps (R315); a LINK takes the second only. `drop`: a write to host memory is not made, since the
PASID is fenced or the host no longer answers (R322, Table 9.7). -/
def descBack (s : State) (n : Nat) (img : List Byte) (link drop : Bool) (status actual mis result : Nat) : State :=
  let a := (s.rd .MOV_DPTR n).toNat
  let b1 := leBytes 4 actual ++ Sys2Proof.slice 8 16 img ++ leBytes 4 (status * 2 ^ 24 + mis * 2 ^ 23) ++ leBytes 4 result
  let b2 := leBytes 4 (leNat (img.take 4) % 2 ^ 31)
  let put (s : State) (a : Nat) (b : List Byte) : State :=
    if ctlDescSp (s.chan n).ctl = 1 then { s with pool := Memory.writeAll s.pool a b }
    else if drop then s else s.emit (.hostWrite (s.chanPasid n) a b)
  put (if link then s else put s (a + 4) b1) a b2

/-- What follows a descriptor that completed (R312, R313, R325): the status, whether its OK ends the run, whether it has IOC. A STOPPING channel shows STOPPED,
and DONE beside it where the run ended. A HALTED one keeps the descriptor at which it stands (R324). -/
def chanNext (s : State) (n status : Nat) (stop ioc : Bool) : State :=
  let s0 := (s.chanStatus n status).onChan n fun k => { k with desc := none, attempt := 0, retryAt := none }
  let s1 := if ioc then s0.raiseN .MOV_STS_DONE n else s0
  if status ≠ stOk then ((s1.raiseN .MOV_STS_ERR n).raiseN .MOV_STS_HALT n).chanTo n 4
  else
    let s2 := s1.onChan n fun k => { k with moved := 0, crc := 0xFFFFFFFF#32, mis := none, wrote := none, redo := none }
    let s3 := if stop then s2.raiseN .MOV_STS_DONE n else s2
    (if s.chanSt n = 3 then (s3.raiseN .MOV_STS_STOPPED n).chanTo n 0
     else if stop then s3.chanTo n 0
     else s3.paceNext n).giveCredit n

/-- MOV_SRCn, MOV_DSTn and MOV_CNTn of a channel whose descriptor has moved `done` bytes (Tables 9.9 to 9.11). -/
def chanShow (s : State) (n done : Nat) : State :=
  let k := s.chan n
  let adv (a : Nat) (fix : Bool) : DWord := BitVec.ofNat 64 (if fix then a else a + done)
  ((s.wr .MOV_CNT n (BitVec.ofNat 64 (k.cnt - done))).wr .MOV_SRC n (if ctlReadsSrc k.ctl then adv k.src (ctlSrcFix k.ctl) else BitVec.ofNat 64 k.src)).wr
    .MOV_DST n (adv k.dst (ctlDstFix k.ctl))

/-- A descriptor that moved data ends with a status: the flushing read to the last host address written (R320), where it returns, the results, the
write-back, and what follows. `img` is the descriptor of a run in descriptor mode. -/
def descEnd (s : State) (n status : Nat) (img : Option (List Byte)) (returns drop : Bool) : State :=
  let k := s.chan n
  let c := k.ctl
  let actual := k.moved
  let crc := if k.cnt = 0 then 0 else (~~~ k.crc).toNat
  let result := if ctlStream c then crc else if 2 ≤ ctlOp c then k.mis.getD 0 else 0
  let s1 := match k.wrote with
    | some a => if returns then s.emit (.flush (s.chanPasid n) a) else s
    | none => s
  let s2 := if ctlStream c then s1.wr .MOV_CRC n (BitVec.ofNat 64 crc) else s1
  let s3 := if 2 ≤ ctlOp c then
      (if k.mis.isSome then s2.raiseN .MOV_STS_MISMATCH n else s2).wr .MOV_MISOFS n (BitVec.ofNat 64 (k.mis.getD 0))
    else s2
  let s4 := s3.chanShow n (if status = stOk then actual else 0)
  match img with
  | some b =>
    let w := leNat (b.take 4)
    let s5 := s4.descBack n b false drop status actual (bit k.mis.isSome) result
    (if status = stOk then s5.wr .MOV_DPTR n (s5.rd .MOV_DPTR n + 32) else s5).chanNext n status (nfield w 28 28 == 1) (nfield w 30 30 == 1)
  | none => s4.chanNext n status true false

/-- The channel takes up a descriptor's values. -/
def descStart (s : State) (n src dst cnt : Nat) (img : Option (List Byte)) : State :=
  (((s.onChan n fun k => { k with
    src := src, dst := dst, cnt := cnt, moved := 0, desc := img, crc := 0xFFFFFFFF#32, mis := none, wrote := none }).wr .MOV_SRC n (BitVec.ofNat 64 src)).wr .MOV_DST n (BitVec.ofNat 64 dst)).wr .MOV_CNT n (BitVec.ofNat 64 cnt)

/-- A descriptor refused by check 4, 5 or 6 (R310). -/
def descRefused (s : State) (n status : Nat) (b : List Byte) : State :=
  let w := leNat (b.take 4)
  ((s.descBack n b false false status 0 0 0).boundsBroken (s.chan n).slice status).chanNext n status (nfield w 28 28 == 1) (nfield w 30 30 == 1)

/-- A descriptor read at MOV_DPTRn (R313–R315): the state after it, and whether data is to be moved for it. -/
def descRead (s0 : State) (n : Nat) (b : List Byte) : State × Bool :=
  let s := s0.onChan n fun k => { k with redo := some ((s0.rd .MOV_DPTR n).toNat, b) }
  let k := s.chan n
  let w := leNat (b.take 4)
  let cnt := leNat (Sys2Proof.slice 4 4 b)
  let src := leNat (Sys2Proof.slice 8 8 b)
  let dst := leNat (Sys2Proof.slice 16 8 b)
  if nfield w 31 31 = 0 then
    (((s0.raiseN .MOV_STS_EMPTY n).chanTo n 0).onChan n fun k => { k with attempt := 0, retryAt := none, redo := none }, false)
  else if w % 2 ^ 28 ≠ 0 ∨ leNat (Sys2Proof.slice 24 4 b) % 2 ^ 23 ≠ 0 then (s.descRefused n stBounds b, false)
  else if nfield w 29 29 = 1 then
    (if src % 32 ≠ 0 then s.descRefused n stMisaligned b
     else ((s.descBack n b true false 0 0 0 0).wr .MOV_DPTR n (BitVec.ofNat 64 src)).chanNext n stOk (nfield w 28 28 == 1) (nfield w 30 30 == 1), false)
  else
    let st := s.descStatus k.slice k.ctl src dst cnt
    if st ≠ stOk then (s.descRefused n st b, false) else (s.descStart n src dst cnt (some b), true)

/-- The 32 bytes at MOV_DPTRn: those held of the descriptor that a HALTED channel restarts (R324), else from the pool or as the host returned them; or the
status of a descriptor outside the channel's ranges, or of one that an uncorrectable word of the pool holds (`h` failed, R323). -/
def descImage (s : State) (n : Nat) (h : HostRead) : Option (List Byte) ⊕ Nat :=
  let a := (s.rd .MOV_DPTR n).toNat
  let st := s.regionStatus (s.chan n).slice (ctlDescSp (s.chan n).ctl) 0 a 32
  match (s.chan n).redo.filter (·.1 == a) with
  | some (_, b) => .inl (some b)
  | none =>
    if st ≠ stOk then .inr st
    else if ctlDescSp (s.chan n).ctl = 1 then (if h = .failed then .inr stIntegrity else .inl (some (Memory.readAll s.pool a 32)))
    else match h with
      | .ok b => .inl (if b.length = 32 then some b else none)
      | .failed => .inl none

/-- A channel that has its descriptor's values may move its data; in descriptor mode the descriptor is read first where the channel does not hold it. -/
def chanTake (s : State) (n : Nat) (desc : HostRead) : State × Bool :=
  let k := s.chan n
  if ctlDesc k.ctl && k.desc.isNone then
    (match s.descImage n desc with
     | .inr st => ((s.boundsBroken k.slice st).chanNext n st false false, false)
     | .inl none => (s, false)
     | .inl (some b) => s.descRead n b)
  else (s, true)

/-- What the host returned for a region: `none` where it is read from the host and nothing came. -/
def hostBytes (reads : Bool) (sp len : Nat) (h : HostRead) : Option (List Byte) :=
  if !reads || sp != 0 then some []
  else match h with
    | .ok b => if len ≤ b.length then some b else none
    | .failed => none

/-- The data of the descriptor that a channel holds is moved, and the descriptor completes. -/
def moveAll (s : State) (n : Nat) (src dst : HostRead) (ecc : Option Nat) (drop : Bool) : State :=
  let k := s.chan n
  let c := k.ctl
  match hostBytes (ctlReadsSrc c) (ctlSrcSp c) k.cnt src, hostBytes (!ctlWrites c) (ctlDstSp c) k.cnt dst with
  | some a, some b =>
    let poolRead := (ctlReadsSrc c && ctlSrcSp c == 1) || (!ctlWrites c && ctlDstSp c == 1)
    let e := if poolRead then ecc.filter (decide <| · < k.cnt) else none
    let s1 := s.bursts n c k.src k.dst k.cnt e (k.cnt / 8) 0 a b
    let cut := e.isSome && (s1.chan n).mis.isNone
    s1.descEnd n (if cut then stIntegrity else stOk) k.desc true drop
  | _, _ => s

/-- The channel that serves a line: its descriptor needs a burst, or has still to be read. Of several that name the line the lowest-numbered one takes
the request (DESIGN CHOICE, log entry 111). -/
def lineChan (s : State) (line : Nat) : Option Nat :=
  (upto 64).find? fun n =>
    let k := s.chan n
    s.software n && ctlPace k.ctl == 3 && ctlPsel k.ctl == line && !s.chanHeld n && k.retryAt.isNone &&
    (s.chanSt n == 1 || s.chanSt n == 2 || s.chanSt n == 3) && ((ctlDesc k.ctl && k.desc.isNone) || decide (k.moved < k.cnt)) && k.mis.isNone

/-- One burst of a REQ channel for one request: `data` is the staged burst, `src` and `dst` what host reads for it returned; for a region in the pool,
failed: an uncorrectable word (R323). A staged burst longer than the channel's own leaves its rest unmoved (DESIGN CHOICE, log entry 111). -/
def reqBurst (s : State) (n : Nat) (data : List Byte) (src dst : HostRead) : State :=
  let k := s.chan n
  let c := k.ctl
  if (ctlReadsSrc c ∧ ctlSrcSp c = 1 ∧ src = .failed) ∨ (ctlWrites c = false ∧ ctlDstSp c = 1 ∧ dst = .failed) then
    s.descEnd n stIntegrity k.desc true false
  else
  let staged := ctlReadsSrc c && ctlSrcSp c == 2
  let len0 := burstLen c k.src k.dst k.cnt k.moved
  let len := if staged then min len0 (data.length / 8 * 8) else len0
  match hostBytes (ctlReadsSrc c) (ctlSrcSp c) len src, hostBytes (!ctlWrites c) (ctlDstSp c) len dst with
  | some a, some b =>
    let s1 := s.burst n c k.src k.dst k.moved len (if staged then data else a) b
    s1.chanShow n (s1.chan n).moved
  | _, _ => s

/-- The channel that serves a line takes the oldest request, its pace event (Table 9.4), and moves a burst for it once its descriptor has been read; a channel
that reads the staged bursts takes all that wait. The fuel is their greatest number. -/
def serveLine (s0 : State) (line : Nat) (src dst : HostRead) : Nat → State
  | 0 => s0
  | f + 1 =>
    match s0.lineChan line, Tbl.get [] s0.mov.lines line with
    | some n, b :: rest =>
      let s := if s0.chanSt n = 1 then s0.chanTo n 2 else s0
      let s1 := s.reqBurst n b src dst
      if (ctlDesc (s.chan n).ctl ∧ (s.chan n).desc.isNone) ∨ ((s1.chan n).moved = (s.chan n).moved ∧ (s1.chan n).mis.isNone ∧ s1.chanSt n = s.chanSt n) then s
      else
        let s2 := s1.onMov fun m => { m with lines := Tbl.put m.lines line rest }
        let c := (s.chan n).ctl
        if ctlSrcSp c = 2 ∧ ctlWrites c ∧ ctlReadsSrc c then s2.serveLine line src dst f else s2
    | _, _ => s0

/-- MOVER_DESC_DONE: a RUNNING or STOPPING channel's descriptor is read where it is not yet, its data moved, and it completes. A REQ channel
completes what its requests have moved, or serves those that wait; an ARMED one starts where a request waits. `fence`: the fence of the slice's PASID
falls in the same cycle (Table 9.7): the completion is applied, its write-back is dropped, and the channel is IDLE. -/
def descDone (s0 : State) (n : Nat) (desc src dst : HostRead) (ecc : Option Nat) (fence : Bool) : State :=
  let c := (s0.chan n).ctl
  let req := ctlPace c == 3
  let s := if req && s0.chanSt n == 1 && !(Tbl.get [] s0.mov.lines (ctlPsel c)).isEmpty then s0.chanTo n 2 else s0
  let fenced := fence && (s.chan n).slice.isSome
  let finish (s : State) : State :=
    let k := s.chan n
    if req then
      (if k.moved = k.cnt ∨ k.mis.isSome then s.descEnd n stOk k.desc true fenced else s.serveLine (ctlPsel k.ctl) src dst 8)
    else s.moveAll n src dst ecc fenced
  if !s0.software n || (req && s0.chanHeld n) || (s0.chan n).retryAt.isSome || !(s.chanSt n == 2 || s.chanSt n == 3) then s0
  else
    let (s1, more) := s.chanTake n desc
    let s2 := if more then finish s1 else s1
    if fenced ∧ (s2.chanSt n = 1 ∨ s2.chanSt n = 2) ∧ (s2.chan n).desc.isNone ∧ more = true then s2.chanTo n 0 else s2

end State

/-- MOVER_DESC_DONE. -/
def execMoverDescDone (n : Nat) (desc src dst : HostRead) (ecc : Option Nat) (fence : Bool) (s : State) : Host.Outcome State Fault Refusal :=
  .next (s.descDone n desc src dst ecc fence)

/-! ### GO and STOP (R308–R311, R325) -/

namespace State

/-- The RW fields of MOV_CTLn stored. -/
def ctlStore (s : State) (n v : Nat) : State := s.wr .MOV_CTL n (BitVec.ofNat 64 v &&& BitVec.ofNat 64 Reg.MOV_CTL.info.rw)

/-- The status of the checks at GO (Table 9.3). -/
def goStatus (s : State) (n c : Nat) : Nat :=
  if s.pairOk .MOV_BIND .MOV_BIND_N n 32 = false then stIntegrity
  else if s.ctlOk n c (s.rd .MOV_SRC n).toNat = false then stBounds
  else if ctlDesc c then (if (s.rd .MOV_DPTR n).toNat % 32 = 0 then stOk else stMisaligned)
  else s.descStatus (s.bound n) c (s.rd .MOV_SRC n).toNat (s.rd .MOV_DST n).toNat (s.rd .MOV_CNT n).toNat

/-- GO on an IDLE or HALTED software channel. While the slice it is bound to is RESETTING its PASID is fenced, and the channel is DRY at once (R326). -/
def movGo (s : State) (n v : Nat) : State :=
  let s0 := s.ctlStore n v
  let c := v % 2 ^ 30
  let st := s.goStatus n c
  if st ≠ stOk then
    let s1 := s0.chanStatus n st
    if s.pairOk .MOV_BIND .MOV_BIND_N n 32 = false then s1.integrityReg (0x6030 + 0x40 * n) else s1.boundsBroken (s.bound n) st
  else
    let s1 := (s0.fsetN .MOV_STS_CREDITS n 0).onChan n fun k => { Chan.init with
      ctl := c, slice := s.bound n, redo := if s.chanSt n = 4 then k.redo else none }
    let s2 := if ctlDesc c then s1 else s1.descStart n (s.rd .MOV_SRC n).toNat (s.rd .MOV_DST n).toNat (s.rd .MOV_CNT n).toNat none
    if (s.bound n).any (fun x => s.sliceState x == 4) then s2.chanTo n 5 else s2.paceNext n

/-- STOP, by the state of the channel (Table 9.4). `same`: it is written in the cycle in which the descriptor failed, and stops what the error halted
(Table 9.7, second row). -/
def movStop (s : State) (n : Nat) (same : Bool) : State :=
  match s.chanSt n with
  | 1 => (s.raiseN .MOV_STS_STOPPED n).chanTo n 0
  | 2 => s.chanTo n 3
  | 4 => (if same then s.raiseN .MOV_STS_STOPPED n else s).chanTo n 0
  | _ => s

/-- A write of MOV_CTLn with STOP, GO or both; on a busy channel only STOP is acted on (R311). -/
def ctlWrite (s : State) (n v : Nat) (same : Bool) : State :=
  if !s.software n then s
  else if s.chanSt n = 0 ∨ s.chanSt n = 4 then
    (if nfield v 30 30 = 1 then (s.ctlStore n v).movStop n same else if nfield v 31 31 = 1 then s.movGo n v else s.ctlStore n v)
  else
    let s1 := s.raise .MOV_GEVT_BUSY_WRITE
    if nfield v 30 30 = 1 then s1.movStop n same else s1

end State

/-- MOV_GO: a write `v` of MOV_CTLn with GO = 1. -/
def execMovGo (n v : Nat) (s : State) : Host.Outcome State Fault Refusal :=
  s.whenReady (.next (s.ctlWrite n (nset v 31 31 1) false))

/-- MOV_STOP: a write `v` of MOV_CTLn with STOP = 1; `same`: in the cycle in which the channel's descriptor failed. -/
def execMovStop (n v : Nat) (same : Bool) (s : State) : Host.Outcome State Fault Refusal :=
  s.whenReady (.next (s.ctlWrite n (nset v 30 30 1) same))

/-! ### Request lines (R317, R318) -/

namespace State

/-- A request on a line: it joins those outstanding, or its data is dropped; then the channel that serves the line takes the oldest. -/
def lineRequest (s : State) (line : Nat) (data : List Byte) (src dst : HostRead) : State :=
  if !reqLine line || (decide (line < 64) && decide (s.nPorts ≤ line)) then s
  else
    let q := Tbl.get [] s.mov.lines line
    let s1 := if q.length < 8 then s.onMov fun m => { m with lines := Tbl.put m.lines line (q ++ [data]) }
      else s.onMov fun m => { m with drops := Tbl.upd 0 m.drops line fun d => min 0xFFFF (d + 1) }
    s1.serveLine line src dst 8

/-- At the second boundary at which frames start, every REQ channel is treated as if STOP had been written (R318). -/
def stopReq (s : State) : State :=
  (upto 64).foldl (fun s n => if s.software n ∧ ctlPace (s.chan n).ctl = 3 then s.movStop n false else s) s

/-- At a frame tick the ARMED channels with PACE = TICK start one descriptor each; none while no frames run (R316, R495). -/
def tickChannels (s : State) : State :=
  if !s.tim.framesOn then s
  else (upto 64).foldl (fun s n => if s.software n ∧ ctlPace (s.chan n).ctl = 1 ∧ s.chanSt n = 1 ∧ s.chanHeld n = false then s.chanTo n 2 else s) s

/-- The thaw of a slice: its ARMED channels that wait for nothing more start (R346, R347). -/
def thawChannels (s : State) (x : Nat) : State :=
  (upto 64).foldl (fun s n =>
    if s.software n ∧ (s.chan n).slice = some x ∧ s.chanSt n = 1 then s.paceNext n else s) s

/-- The mover runs again: its ARMED channels that wait for nothing more start (R432). -/
def moverResume (s : State) : State :=
  (upto 64).foldl (fun s n => if s.software n ∧ s.chanHeld n = false ∧ s.chanSt n = 1 then s.paceNext n else s) s

end State

/-- REQ_LINE_REQUEST. -/
def execReqLineRequest (line : Nat) (data : List Byte) (src dst : HostRead) (s : State) : Host.Outcome State Fault Refusal :=
  .next (s.lineRequest line data src dst)

/-! ### The channel split (R298) -/

namespace State

/-- Channels 64 − SWCH to 63 are software channels (R297). -/
def isSoft (swch n : Nat) : Bool := decide (64 ≤ n + swch ∧ n < 64)

/-- A write of MOV_GCFG: ENG_RETRY at once; SWCH is refused, or waits until the engine channels have drained. A second accepted write takes the place of one
that waits (DESIGN CHOICE, log entry 111). -/
def gcfgWrite (s : State) (v : Nat) : State :=
  let new := min 32 (nfield v 5 0)
  let old := min 32 (s.fget .MOV_GCFG_SWCH)
  let s1 := s.fset .MOV_GCFG_ENG_RETRY (nfield v 10 8)
  let busy := (upto 64).any fun n => (isSoft old n || isSoft new n) && s.chanSt n != 0
  if s.flag .TIM_CTL_FRAME_EN || busy then s1.raise .MOV_GEVT_CFG_REFUSED
  else s1.onMov fun m => { m with swch := some (nfield v 5 0) }

/-- MOV_STSn.ENGINE as a value of SWCH makes it (R297). -/
def engineShown (s : State) (v : Nat) : State := (upto 64).foldl (fun s n => s.fsetN .MOV_STS_ENGINE n (bit (!isSoft (min 32 v) n))) s

/-- The engine channels have drained: the new split and the new mapping, and new work is handed out again (R298, step 3). While one of them has a piece of
work in progress nothing is applied: it first completes under the old mapping. Every piece that has ended was confirmed by its flushing read. -/
def swchApply (s : State) : State :=
  match s.mov.swch with
  | some v =>
    if s.mov.chans.any fun x => x.2.work.isSome then s
    else ((s.fset .MOV_GCFG_SWCH v).onMov fun m => { m with swch := none }).engineShown v
  | none => s

end State

/-- MOV_SWCH_WRITE: a write `v` of MOV_GCFG. -/
def execMovSwchWrite (v : Nat) (s : State) : Host.Outcome State Fault Refusal :=
  s.whenReady (.next (s.gcfgWrite v))

/-- SWCH_APPLY. -/
def execSwchApply (s : State) : Host.Outcome State Fault Refusal := .next s.swchApply

/-! ### Host errors and retry (R321, R322) -/

namespace State

/-- The host bytes that a region's reads gave before one failed. -/
def gaveBytes (reads : Bool) (sp : Nat) (h : HostRead) : Option (List Byte) :=
  if !reads || sp != 0 then none
  else match h with
    | .ok b => some b
    | .failed => some []

/-- The bursts of a channel's descriptor for which the host had given the data, and those alone; for a REQ channel they were made at their requests. -/
def movedBefore (s : State) (n : Nat) (src dst : HostRead) : State :=
  let k := s.chan n
  let c := k.ctl
  if ctlPace c = 3 then s
  else
    let a := gaveBytes (ctlReadsSrc c) (ctlSrcSp c) src
    let b := gaveBytes (!ctlWrites c) (ctlDstSp c) dst
    let given := min ((a.map List.length).getD k.cnt) ((b.map List.length).getD k.cnt)
    s.bursts n c k.src k.dst k.cnt (some given) (k.cnt / 8) 0 (a.getD []) (b.getD [])

/-- The attempts of a software channel's read are used up: its descriptor completes HOST_ERROR with what it had moved, written back where the host still
answers (`desc`), and the channel halts (R322). `flush`: the read was the flushing read. -/
def chanHostError (s : State) (n : Nat) (flush : Bool) (desc src dst : HostRead) : State :=
  let (s1, more) := s.chanTake n desc
  let s2 := s1.count .MOV_GERR_HOST_ERRORS
  if more then
    let s3 := s2.movedBefore n src dst
    s3.descEnd n stHostError (s3.chan n).desc (!flush) (desc == .failed)
  else if s1.chanSt n = s.chanSt n then s2.chanNext n stHostError false false else s1

/-- A failed attempt of a software channel's flushing read: every host write of the descriptor has been made by then, and is made again before the next
(R321). The descriptor stands at its start again. -/
def flushAgain (s : State) (n : Nat) (desc src dst : HostRead) : State :=
  let (s1, more) := s.chanTake n desc
  if more ∧ ctlPace (s1.chan n).ctl ≠ 3 then
    (s1.movedBefore n src dst).onChan n fun k => { k with moved := 0, crc := 0xFFFFFFFF#32, mis := none, wrote := none }
  else s1

/-- An engine channel's piece of work ends under the rule of the block that asked for it (R322). -/
def workFailed (s : State) (w : HostWork) : State :=
  match w with
  | .channel _ | .flush _ => s
  | .ringEntry r | .record r => s.failRing r 4 (s.ring r).head 0
  | .tdData r idx =>
    (match s.entryAt r idx with
     | some e =>
       match e.done with
       | some d => s.onEntry e.id fun e => { e with done := some { d with status := stHostError }, hostOut := e.data.length }
       | none => ((s.finish e.id stHostError).onEntry e.id fun e => { e with hostOut := e.data.length }).refresh 0
     | none => s)
  | .tdWriteback r idx =>
    (match s.entryAt r idx with
     | some e =>
       match e.done with
       | some d =>
         let s1 := (s.failRing r 4 idx 0).endEntry e d.status
         let s2 := { s1 with entries := s1.entries.filter fun o => o.id != e.id }
         ((s2.clearOwn r s2.entries.length).destroyed r).refresh 1
       | none => s
     | none => s)
  | .cmdWriteback r =>
    (match s.cmds.find? (fun c => c.ring == r) with
     | some c => if c.status.isSome then { s.failRing r 4 c.idx 0 with cmds := s.cmds.eraseP fun c => c.ring == r }.destroyed r else s
     | none => s)
  | .context eph => s.fetchDone eph ⟨[]⟩
  | .spill n => s.spillLost n

/-- The slice for which a piece of engine work is done (R300, R301, R326). -/
def workSlice (s : State) : HostWork → Option Nat
  | .channel n | .flush n => (s.chan n).slice
  | .ringEntry r | .record r | .tdData r _ | .tdWriteback r _ | .cmdWriteback r => (s.ring r).slice
  | .context eph => match s.ctx? eph with
    | some k => some k.ctx.owner
    | none => (s.entries.find? fun e => e.eph == eph).map Entry.slice
  | .spill n => some n

/-- Source, destination and count of a piece of engine work, as far as the spec gives them. -/
def workDesc (s : State) : HostWork → Option Nat × Option Nat × Option Nat
  | .channel _ | .flush _ => (none, none, none)
  | .ringEntry r => (some ((s.ring r).addr r (s.ring r).head), none, some ((s.ring r).entryBytes r))
  | .record r => (none, some ((s.ring r).addr r (s.ring r).head), some ((s.ring r).entryBytes r))
  | .tdData r idx => match s.entryAt r idx with
    | some e =>
      let t := (e.tds.head?.map Prod.snd).getD ⟨[]⟩
      if inbound e then (none, some t.buf, some t.len) else (some t.buf, none, some t.len)
    | none => (none, none, none)
  | .tdWriteback r idx => (none, some ((s.ring r).addr r idx + 4), some 28)
  | .cmdWriteback r => (none, some ((s.ring r).addr r (((s.cmds.find? fun c => c.ring == r).map CmdRec.idx).getD 0) + 4), some 28)
  | .context eph => (some (dirEntryAddr s.tableNow eph), none, some 8)
  | .spill _ => (none, none, none)

/-- The registers of an engine channel show the descriptor in progress (R299); what the spec does not state of it is a free value (log entry 112). -/
def engineShow (s : State) (n : Nat) (w : HostWork) : State :=
  let (src, dst, cnt) := s.workDesc w
  let v (x : Option Nat) (s : State) : DWord := BitVec.ofNat 64 (x.getD s.freeValue)
  let bind := match s.workSlice w with
    | some x => 2 ^ 31 + x
    | none => 0
  let s1 := ((s.wr .MOV_SRC n (v src s)).wr .MOV_DST n (v dst s.draw)).wr .MOV_CNT n (v cnt s.draw.draw)
  (((s1.fsetN .MOV_CTL_RETRY n (s.fget .MOV_GCFG_ENG_RETRY)).wr .MOV_BIND n (BitVec.ofNat 64 bind)).wr .MOV_BIND_N n
    (BitVec.ofNat 64 (2 ^ 32 - 1 - bind))).draw.draw.draw

/-- Attempt `a` is the next one of a read of channel `n`, or the first one of another read (R321: the attempts are counted per read). -/
def nextAttempt (s : State) (n a : Nat) : Bool := (s.chan n).retryAt.isNone && (a == 1 || a == (s.chan n).attempt + 1)

/-- Attempt number `a` of a read of a software channel failed: a wait of 2^(a − 1) µs, or the end of the descriptor. -/
def chanReadFail (s : State) (n a : Nat) (flush : Bool) (desc src dst : HostRead) (t : Nat) : State :=
  if !s.software n || !(s.chanSt n == 2 || s.chanSt n == 3) || !s.nextAttempt n a then s
  else if a ≤ ctlRetry (s.chan n).ctl then
    (if flush then s.flushAgain n desc src dst else s).onChan n fun k => { k with attempt := a, retryAt := some (t + 2 ^ (a - 1) * 1000) }
  else s.chanHostError n flush desc src dst

/-- The same on an engine channel, which shows the piece of work while it is retried (R299, R312). -/
def engineReadFail (s : State) (w : HostWork) (a t : Nat) : State :=
  let n := s.engineOf w
  let k := s.chan n
  if (k.work.isSome && k.work != some w) || s.chanSt n == 5 || !s.nextAttempt n a then s
  else if a ≤ s.fget .MOV_GCFG_ENG_RETRY then
    ((s.engineShow n w).onChan n fun k => { k with
      work := some w, slice := s.workSlice w, attempt := a, retryAt := some (t + 2 ^ (a - 1) * 1000) }).chanTo n 2
  else
    let s1 := (s.onChan n fun _ => Chan.init).chanTo n 0
    (((s1.chanStatus n stHostError).raiseN .MOV_STS_ERR n).count .MOV_GERR_HOST_ERRORS).workFailed w

/-- Attempt number `a` of a read failed. -/
def readFail (s : State) (w : HostWork) (a : Nat) (desc src dst : HostRead) (t : Nat) : State :=
  match w with
  | .channel n => s.chanReadFail n a false desc src dst t
  | .flush n => s.chanReadFail n a true desc src dst t
  | w => s.engineReadFail w a t

/-- The wait before the next attempt is over; a record's next attempt is the one of the command that writes it (log entry 41). -/
def moverRetry (s : State) (w : HostWork) (t : Nat) : State :=
  let n := s.engineOf w
  let k := s.chan n
  let mine : Bool := match w with
    | .channel n | .flush n => s.software n && (s.chanSt n == 2 || s.chanSt n == 3)
    | w => k.work == some w && s.chanSt n == 2
  if mine && k.retryAt.any (· ≤ t) then
    let s1 := (s.onChan n fun k => { k with retryAt := none }).count .MOV_GERR_RETRIES
    match w with
    | .record _ => (s1.onChan n fun k => { k with work := none }).chanTo n 0
    | _ => s1
  else s

/-! ### Dry mode (R326) -/

/-- The fence of a slice's PASID: the channels that work for it enter DRY, the software channels bound to it and the engine channels on its work. -/
def fenceChannels (s : State) (x : Nat) : State :=
  (upto 64).foldl (fun s n =>
    if (s.chan n).slice = some x ∧ 1 ≤ s.chanSt n ∧ s.chanSt n ≤ 3 then
      (s.onChan n fun k => { k with retryAt := none, attempt := 0 }).chanTo n 5
    else s) s

/-- A channel of a slice is still in DRY. -/
def dryOf (s : State) (x : Nat) : Bool := (upto 64).any fun n => (s.chan n).slice == some x && s.chanSt n == 5

/-- A DRY channel's descriptor boundary: the descriptor completes SLICE_RESET. A software channel is IDLE and stays bound; an engine channel takes its next
work. -/
def dryBoundary (s : State) (n : Nat) : State :=
  if s.chanSt n = 5 then
    (((s.chanStatus n stSliceReset).raiseN .MOV_STS_ERR n).chanTo n 0).onChan n fun k =>
      if s.software n then { k with desc := none, redo := none, moved := 0, wrote := none } else Chan.init
  else s

end State

/-- A completion timeout or a poisoned completion, logged (R416): as an advisory error while attempts are left. -/
def State.readError (s : State) (w : HostWork) (attempt : Nat) (tlp : Option TlpError) : State :=
  let left : Bool := match w with
    | .channel n | .flush n => decide (attempt ≤ ctlRetry (s.chan n).ctl)
    | _ => decide (attempt ≤ s.fget .MOV_GCFG_ENG_RETRY)
  match tlp with
  | some e => if left then (s.aerUncorr e.bit e.header e.prefix_ true).aerCorr 13 else s.aerUncorr e.bit e.header e.prefix_ false
  | none => s

/-- HOST_READ_FAIL: attempt `attempt` of a read failed at `t`. For a software channel `desc` is its descriptor where the host still answers, `src` and `dst`
what the reads of data before the failed one gave; `tlp` is none for a completion with Unsupported Request or Completer Abort. -/
def execHostReadFail (w : HostWork) (attempt : Nat) (desc src dst : HostRead) (tlp : Option TlpError) (t : Nat) (s : State) :
    Host.Outcome State Fault Refusal :=
  .next (((s.at_ t).readError w attempt tlp).readFail w attempt desc src dst t)

/-- MOVER_RETRY. -/
def execMoverRetry (w : HostWork) (t : Nat) (s : State) : Host.Outcome State Fault Refusal := .next ((s.at_ t).moverRetry w t)

/-- MOVER_DRY_BOUNDARY. -/
def execMoverDryBoundary (n : Nat) (s : State) : Host.Outcome State Fault Refusal := .next (s.dryBoundary n)

/-! ### Clearing reads (R468) -/

/-- MOV_STS_READ. -/
def execMovStsRead (n : Nat) (both : Bool) (s : State) : Host.Outcome State Fault Refusal :=
  s.readReady (.next (s.eventRead .MOV_STS .MOV_STS_SHADOW n both (64 + n)))

/-- MOV_GEVT_READ. -/
def execMovGevtRead (both : Bool) (s : State) : Host.Outcome State Fault Refusal :=
  s.readReady (.next (s.eventRead .MOV_GEVT .MOV_GEVT_SHADOW 0 both 132))

end Sys2Proof.Machine
end

