-- ==== Sys2Proof/Machine/Twin.lean ====
section
/-! DEFINITION. Machine/Twin.lean: the twin link and its messages (R376–R380), the ownership token as the controller sees it (R381–R385,
R391–R393), shadowing and mirroring (R386–R390), and the twin commands (R398). -/

namespace Sys2Proof.Machine

/-! ### The twin link (R377) -/

namespace State

def linkUp (s : State) : Bool := s.flag .TWN_STS_LINK_UP

/-- ACK of the last accepted LSEQ. -/
def twinAck (s : State) : State := s.emit (.twin 1 0 (leBytes 4 ((s.twin.rxSeq + 4095) % 4096)))

/-- RETRY naming the expected LSEQ, at most once per 5 us for the same value (R86). -/
def twinRetry (s : State) : State :=
  if s.twin.retryVal = some s.twin.rxSeq ∧ s.tim.now < s.twin.retryAt + 5000 then s
  else (s.emit (.twin 2 0 (leBytes 4 s.twin.rxSeq))).onTwin fun w => { w with retryVal := some w.rxSeq, retryAt := s.tim.now }

/-- A sequenced message accepted. -/
def twinAccept (s : State) (lseq : Nat) : State :=
  (s.onTwin fun w => { w with rxSeq := (lseq + 1) % 4096, retryVal := none }).twinAck

/-- A sequenced message with its LSEQ (R85, R86): it is acted on where it is the expected one; an older one is acknowledged again, a later one
asks for a replay. While the link is down only a BEAT is taken, and it sets the number expected next. -/
def twinSeq (s : State) (lseq : Nat) (beat : Bool) (body : State → State) : State :=
  if !s.linkUp then (if beat then body (s.twinAccept lseq) else s)
  else if lseq = s.twin.rxSeq then body (s.twinAccept lseq)
  else if (s.twin.rxSeq + 4096 - lseq) % 4096 ≤ 2048 then s.twinAck
  else s.twinRetry

/-- A message of a kind arrived, `m` its bytes (R377, Table 3.6): one with a header error is discarded; a sequenced one with a CRC error asks for a
replay; `body` acts on the payload of one that checks. -/
def twinTake (s : State) (kind : Nat) (m : List Byte) (body : List Byte → State → State) : State :=
  if !s.twin.enabled then s
  else match twinRead m with
    | .header => s
    | .crc k => if s.linkUp && !twinLoose k then s.twinRetry else s
    | .msg k lseq p => if k = kind then s.twinSeq lseq (kind == 0x10) (body p) else s

/-- An ACK or RETRY arrived: `body` acts on the LSEQ that it names. -/
def twinLoosely (s : State) (kind : Nat) (m : List Byte) (body : Nat → State → State) : State :=
  match twinRead m with
  | .msg k _ p => if k = kind && s.twin.enabled then body (leNat p % 4096) s else s
  | _ => s

/-- The link goes down: nothing is kept for replay, the numbers start again from 0, events that wait for an MCONF are discarded, and the
pair is DOWN from the next tick on (R380, R389). -/
def twinDown (s : State) : State :=
  if s.linkUp then
    (s.fset .TWN_STS_LINK_UP 0).onTwin fun w => { w with
      txSeq := 0, rxSeq := 0, replay := [], queue := [], replayCnt := 0, replayFrom := 0, retryVal := none, heldEvents := [],
      pairNext := some (0, 0), peerRx := 0, peerTx := 0, peerHeard := false }
  else s

/-! ### The token (R383, R384, R391, R393) -/

/-- A TOKEN_QUERY or TOKEN_CLAIM of the controller, remembered for its repetition. -/
def tokenSend (s : State) (n typ arg frame t : Nat) : State :=
  (s.sendCtl (.port (.root n)) typ 0 arg frame).onTree n fun k => { k with msg := some ⟨typ, 0, arg, frame⟩, msgAt := t }

/-- TOKEN_RELEASE of the controller, which is repeated until S beside them. -/
def tokenRelease (s : State) (n frame : Nat) : State :=
  let e := (s.tree n).epoch
  (s.sendCtl (.port (.root n)) 0x15 0 e frame).onTree n fun k => { k with rel := some ⟨0x15, 0, e, frame⟩, releaseAt := some frame }

def tokenQuery (s : State) (n t : Nat) : State := s.tokenSend n 0x10 0 0 t

/-- TOKEN_CLAIM for the next EPOCH. -/
def tokenClaim (s : State) (n : Nat) (forced : Bool) (frame t : Nat) : State :=
  s.tokenSend n 0x12 (((s.tree n).epoch + 1) % 65536 + bit forced * 2 ^ 18) frame t

/-- A claim starts: at once where EPOCH is known, after a TOKEN_QUERY otherwise. -/
def claimTree (s : State) (n : Nat) (forced : Bool) (frame : Nat) (byPolicy : Bool) (cmd : Option (Nat × Nat)) (notBefore t : Nat) : State :=
  let s1 := s.onTree n fun k => { k with byPolicy := byPolicy, cmd := cmd, notBefore := notBefore, claim := some (forced, frame) }
  if (s.tree n).known then s1.tokenClaim n forced frame t else s1.tokenQuery n t

/-- A claim ended, granted or not: the command that waits for it goes on; the last port of its mask completes it (R398). -/
def claimOver (s : State) (n : Nat) (granted : Bool) : State :=
  let k := s.tree n
  let s1 := s.onTree n fun k => { k with claim := none, byPolicy := false, cmd := none, notBefore := 0 }
  match k.cmd with
  | none => s1
  | some (r, i) =>
    let s2 := s1.onCmd r i fun c => { c with stage := nset c.stage n n 0, arg := if granted then nset c.arg n n 1 else c.arg }
    match s2.cmd? r i with
    | some c =>
      if c.stage ≠ 0 then s2
      else if c.op = 0x23 ∧ ¬ granted then s2.cmdDone r i stCancelled 0
      else s2.cmdDone r i stOk (if c.op = 0x23 then 0 else c.arg)
    | none => s2

/-- The tree becomes OWNER (R393): the first frame of ownership is the first one, at or after any FRAME_NO, whose tick lies at least 1 us
after the grant, and no earlier than `notBefore`. -/
def takeTree (s : State) (n frame t : Nat) : State :=
  if s.owns n then s.onTree n fun k => { k with silent := false, handed := false, outTicks := 0 }
  else
    let first := frameNumber s.frate (tickFrom s.frate (max (t + 1000) (s.tree n).notBefore))
    let f := if frame ≠ 0 ∧ later32 frame first then frame else first
    let wasWarm := s.warm n
    let s1 := ((s.fset .TWN_OWNED_OWNED (nset (s.fget .TWN_OWNED_OWNED) n n 1)).fset .TWN_WARM_WARM (nset (s.fget .TWN_WARM_WARM) n n 0)).onTree n
      fun k => { k with ownFrom := some f, wasWarm := wasWarm, outTicks := 0, handed := false, silent := false, releaseAt := none, takeAt := none,
                        full := true, rel := none, atS := frame != 0 }
    (s1.raise .TWN_EVT_TAKEOVER).twinEvent 5 0 n 0

/-- A standby tree becomes COLD (R399): its shadow is no longer vouched for. -/
def coldTree (s : State) (n : Nat) : State :=
  (((s.fset .TWN_WARM_WARM (nset (s.fget .TWN_WARM_WARM) n n 0)).raise .TWN_EVT_COLD).twinEvent 8 0 n 0).onTwin fun w => { w with
    shadowed := w.shadowed.filter fun e => Eph.port e != n }

/-- The token is lost (R385): nothing is composed, the pending TDs of the tree complete DISCONNECTED in submission order, its contexts
become shadows, and the tree is COLD; HANDOVER_DONE where it was handed over or released. -/
def loseTree (s : State) (n : Nat) : State :=
  let k := s.tree n
  let s1 := s.abandon fun x => x.port == n
  let s2 := s1.finishWhere (fun e => Eph.port e.eph == n && e.kind != 4) stDisconnected
  let s3 := (s2.ctxAll (.shadow n true)).onTwin fun w => { w with
    heldEvents := w.heldEvents.filter fun x => Eph.port x.1 != n, intentSeq := w.intentSeq.filter fun x => Eph.port x.1 != n,
    resolving := w.resolving.filter fun x => Eph.port x.1 != n, intents := w.intents.filter fun x => Eph.port x.1 != n,
    toClear := w.toClear.filter fun e => Eph.port e != n, dirtyBits := w.dirtyBits.filter fun x => Eph.port x.1 != n }
  let s4 := (s3.fset .TWN_OWNED_OWNED (nset (s3.fget .TWN_OWNED_OWNED) n n 0)).onTree n fun t => { t with
    you := false, msg := none, rel := none, ownFrom := none, outTicks := 0, handed := false, silent := false, releaseAt := none, full := false }
  let s5 := ((s4.raise .TWN_EVT_TOKEN_LOST).twinEvent 6 0 n 0).coldTree n
  (if k.handed ∨ k.releaseAt.isSome then s5.twinEvent 10 0 n 0 else s5).settled

/-- A trigger of the TAKEOVER policy (R391, Table 13.9). -/
def takeoverTrigger (s0 : State) (n notBefore t : Nat) : State :=
  let s := s0.policyRead
  let ok := s.warm n && s.paired && !s.owns n
  match s.policyMode 3 with
  | 0 => s
  | 2 =>
    if !ok then s.advise 3 0x9A n
    else if s.flag .PWR_STS_ENTERING || (s.tree n).claim.isSome then s
    else s.claimTree n false 0 true none notBefore t
  | _ => s.advise 3 (if ok then 0x98 else 0x9A) n

/-- The shared trees. -/
def sharedTrees (s : State) : List Nat := (upto s.nPorts).filter s.shared

/-- The local port that a partner's port is mapped to. -/
def fromPartner (s : State) (q : Nat) : Option Nat := (s.twin.pmap.find? fun x => x.2 == q).map Prod.fst

/-! ### Pair state (R380) -/

/-- A decided pair state is taken at a tick. Leaving PAIRED every standby tree is COLD; entering it MSEQ starts from 0 and the owner owes
the full shadow. -/
def pairTick (s : State) : State :=
  match s.twin.pairNext with
  | none => s
  | some (st, why) =>
    let s0 := s.onTwin fun w => { w with pairNext := none }
    let old := s.fget .TWN_STS_PAIR
    if old = st ∧ s.fget .TWN_STS_REFUSE_WHY = why then s0
    else
      let s1 := (((s0.fset .TWN_STS_PAIR st).fset .TWN_STS_REFUSE_WHY why).raise .TWN_EVT_PAIR_CHANGED).twinEvent 1 st 0 0
      let s2 := if st = 2 ∧ old ≠ 2 then (s1.raise .TWN_EVT_CONFIG_MISMATCH).twinEvent 2 st 0 s.twin.peerGen else s1
      let s3 := if old = 3 then
          ((s2.sharedTrees.filter s2.warm).foldl coldTree s2).onTwin fun w => { w with heldEvents := [], intentSeq := [], mirrored := [] }
        else s2
      if st = 3 then
        let s4 := s3.onTwin fun w => { w with mseqTx := 0, mseqRx := 0, confirmed := 0, mirrored := [], intentSeq := [], dirtyBits := [] }
        (s4.sharedTrees.filter s4.owns).foldl (fun s n => s.onTree n fun k => { k with full := true }) s4
      else s3

/-! ### BEAT (R378, R379) -/

/-- Firmware versions of the running slot. -/
def fwSlot (s : State) : FwSlot := Tbl.get FwSlot.init s.hlt.slots (s.fget .HLT_START_SLOT)

/-- The BEAT of the frame in progress, its T_TX as the time base shows it at the departure crossing (Table 12.3). -/
def beatSend (s : State) (tTx : Nat) : State :=
  if !s.twin.enabled then s
  else
    let w := s.twin
    let p := leBytes 4 s.frameNo ++ leBytes 4 w.gen ++ leBytes 1 s.fwSlot.major ++ leBytes 1 s.fwSlot.minor ++
      leBytes 1 (s.fget .TWN_STS_TIME_FLAG * 32 + s.fget .HLT_STS_STATE * 8 + s.qclass) ++ leBytes 1 0 ++ leBytes 4 w.pairId ++ leBytes 8 tTx ++
      leBytes 8 w.peerTx ++ leBytes 8 w.peerRx ++ leBytes 8 (s.fget .TWN_OWNED_OWNED) ++ leBytes 8 (s.fget .TWN_WARM_WARM) ++ leBytes 8 0
    let s1 := if s.linkUp then s else s.onTwin fun w => { w with replay := [], queue := [] }
    s1.twinSend 0x10 p

/-- Delay and offset of the link (R379), once the partner has received a BEAT. -/
def beatTimes (s : State) (t1 t2 t3 t4 : Nat) : State :=
  if t2 = 0 then s
  else
    let d : Int := (((t4 : Int) - t1) - ((t3 : Int) - t2)) / 2
    let o : Int := (((t2 : Int) - t1) - ((t4 : Int) - t3)) / 2
    (s.fset .TWN_DLY_DELAY (min 65535 d.toNat)).fset .TWN_OFFSET_OFFSET (satBits 32 o)

/-- TIME_FLAG (R396): three consecutive BEATs above 500 ns set it on the side with the higher QCLASS, on both where they are equal; three
below 400 ns clear it. -/
def beatFlag (s : State) (peerQ : Nat) (peerFlag : Bool) : State :=
  let o := (signedOf 32 (s.fget .TWN_OFFSET_OFFSET)).natAbs
  let s1 := s.onTwin fun w => { w with
    offHigh := if 500 < o then min 3 (w.offHigh + 1) else 0, offLow := if o < 400 then min 3 (w.offLow + 1) else 0, peerFlag := peerFlag }
  let mine := s1.flag .TWN_STS_TIME_FLAG
  let sets := decide (3 ≤ s1.twin.offHigh) && decide (peerQ ≤ s.qclass)
  let s2 := if sets then s1.fset .TWN_STS_TIME_FLAG 1 else if 3 ≤ s1.twin.offLow then s1.fset .TWN_STS_TIME_FLAG 0 else s1
  if (sets && !mine) || (peerFlag && !s.twin.peerFlag) then
    (s2.raise .TWN_EVT_TIME_DISAGREE).twinEvent 4 0 0 (s.fget .TWN_OFFSET_OFFSET)
  else s2

/-- The pair state that a BEAT calls for (Table 12.4). -/
def beatPair (s : State) (pairId major minor gen : Nat) : State :=
  let next : Nat × Nat :=
    if !s.linkUp then (0, 0)
    else if pairId ≠ s.twin.pairId then (1, 1)
    else if major ≠ s.fwSlot.major then (1, 2)
    else if gen ≠ s.twin.gen then (2, 0)
    else (3, 0)
  let diff := next.1 == 3 && minor != s.fwSlot.minor
  let s1 := (s.fset .TWN_STS_MINOR_DIFF (bit diff)).onTwin fun w => { w with pairNext := some next, minorSaid := diff, peerGen := gen }
  if diff && !s.twin.minorSaid then s1.twinEvent 3 next.1 0 0 else s1

/-- A BEAT accepted (R379, R380, R396). -/
def beatTaken (s : State) (p : List Byte) (t : Nat) : State :=
  let g (o n : Nat) : Nat := leNat (Sys2Proof.slice o n p)
  let flags := g 10 1
  let owned := g 40 8
  let warm := g 48 8
  let s1 := ((s.fset .TWN_STS_PEER_MAJOR (g 8 1)).fset .TWN_STS_PEER_MINOR (g 9 1)).fset .TWN_STS_PEER_QCLASS (flags % 8)
  let lost := s1.sharedTrees.filter fun n => s1.owns n && (match Tbl.find s.twin.pmap n with
    | some q => nfield s.twin.peerWarm q q == 1 && nfield warm q q == 0
    | none => false)
  let s2 := lost.foldl (fun s n => s.onTree n fun k => { k with full := true }) s1
  let s3 := s2.onTwin fun w => { w with peerTx := g 16 8, peerRx := t, missed := 0, peerOwned := owned, peerWarm := warm, peerHeard := g 32 8 != 0 }
  let s4 := ((s3.beatTimes (g 24 8) (g 32 8) (g 16 8) t).beatFlag (flags % 8) (nfield flags 5 5 == 1)).beatPair (g 12 4) (g 8 1) (g 9 1) (g 4 4)
  (s4.sharedTrees.filter fun n => s4.owns n && (s4.tree n).msg.isNone && (match Tbl.find s.twin.pmap n with
    | some q => nfield owned q q == 1
    | none => false)).foldl (fun s n => s.tokenQuery n t) s4

/-! ### Shadowing (R386, R387) -/

/-- One SHADOW record (Table 12.6) applied to the shadow context of the mapped handle. -/
def shadowRecord (s : State) (h : CtxHost) (b : List Byte) : State :=
  let w0 := leNat (Sys2Proof.slice 0 4 b)
  if leNat (Sys2Proof.slice 12 4 b) ≠ 2 ^ 32 - 1 - w0 then
    (s.count .TWN_CNT_SHADOW_MISS).onTwin fun w => { w with shadowed := w.shadowed.filter fun e => (s.fromPartner (Eph.port w0)).map (ephPort (w0 % 2 ^ 25)) != some e }
  else match s.fromPartner (Eph.port w0) with
    | none => s
    | some n =>
      if !s.shared n || s.owns n then s
      else
        let eph := ephPort (w0 % 2 ^ 25) n
        let b4 := leNat (Sys2Proof.slice 4 1 b)
        let (s1, st) := s.ctxGet h eph
        let sh : Bool := match s1.ctx? eph with
          | some k => k.ctx.shadow
          | none => false
        let s2 := if st = stOk ∧ sh then
            let s2 := s1.ctxChange eph (b4 / 16) 0
            let s3 := s2.onCtx eph fun k => { k with
              ctx := ((k.ctx.setToggle (nfield b4 3 3)).setPing (nfield b4 2 2 == 1)).setErrCnt (leNat (Sys2Proof.slice 5 1 b) % 8) }
            s3.onTwin fun w => { w with
              lastBseq := Tbl.put w.lastBseq eph (leNat (Sys2Proof.slice 6 2 b)),
              dirtyBits := Tbl.put w.dirtyBits eph (Tbl.get 0 w.dirtyBits eph % 2 * 2 + nfield b4 1 1),
              shadowed := if w.shadowed.contains eph then w.shadowed else eph :: w.shadowed }
          else s1.count .TWN_CNT_SHADOW_MISS
        if nfield b4 0 0 = 1 then s2.fset .TWN_WARM_WARM (nset (s2.fget .TWN_WARM_WARM) n n 1) else s2

/-- The records of a SHADOW message; the fuel is their greatest number. -/
def shadowRecords (s : State) (h : CtxHost) : Nat → List Byte → State
  | 0, _ => s
  | k + 1, b => if b.length < 16 then s else (s.shadowRecord h (b.take 16)).shadowRecords h k (b.drop 16)

/-- The SHADOW record of a context. -/
def shadowBytes (s : State) (eph : Nat) (c : Ctx) (ran last : Bool) : List Byte :=
  leBytes 4 (eph % 2 ^ 25) ++
  leBytes 1 (c.state * 16 + c.toggle * 8 + bit c.pingNeeded * 4 + bit (ran && (c.cls == 0 || c.cls == 4)) * 2 + bit last) ++ leBytes 1 c.errCnt ++
  leBytes 2 (if c.cls = 2 then Tbl.get 0 s.twin.lastBseq eph else 0) ++ leBytes 4 s.frameNo ++ leBytes 4 (2 ^ 32 - 1 - eph % 2 ^ 25)

/-- Records in messages of at most 256. -/
def shadowMsgs (s : State) : Nat → List (List Byte) → State
  | 0, _ => s
  | k + 1, l => if l.isEmpty then s else (s.twinSend 0x11 (l.take 256).flatten).shadowMsgs k (l.drop 256)

/-- The SHADOW records of an owned shared tree at the end of a frame: of the contexts that changed, or of all with END, those in host memory
as `h` gives them. -/
def shadowTree (s : State) (h : CtxHost) (n : Nat) : State :=
  let full := (s.tree n).full
  let mine := s.ctxs.filter fun x => Eph.port x.1 == n && (full || x.2.dirty || x.2.ran || Tbl.get 0 s.twin.dirtyBits x.1 % 2 == 1)
  let cached := mine.map fun x => (x.1, x.2.ctx, x.2.ran)
  let stored := if full then ((s.stored h).filter fun x => Eph.port x.1 == n).map fun x => (x.1, x.2, false) else []
  let all := cached ++ stored
  let recs := all.mapIdx fun i x => s.shadowBytes x.1 x.2.1 x.2.2 (full && i + 1 == all.length)
  let recs := if full ∧ recs.isEmpty then [s.shadowBytes (n * 2 ^ 19) (Ctx.ofBytes []) false true] else recs
  let s1 := s.shadowMsgs (recs.length + 1) recs
  let s2 := mine.foldl (fun s x => (s.onCtx x.1 fun k => { k with dirty := false, ran := false }).onTwin fun w => { w with
    dirtyBits := Tbl.put w.dirtyBits x.1 (bit (x.2.ran && (x.2.ctx.cls == 0 || x.2.ctx.cls == 4))) }) s1
  s2.onTree n fun k => { k with full := false }

/-- The end of a frame on the twin link: the owner's SHADOW records, while PAIRED. -/
def shadowTick (s : State) (h : CtxHost) : State :=
  if s.paired then (s.sharedTrees.filter fun n => s.owns n && (s.tree n).ownFrom.isNone).foldl (fun s n => s.shadowTree h n) s else s

/-! ### Mirroring at the standby and its confirmation (R388–R390) -/

/-- One MIRROR record applied. -/
def mirrorApply (s : State) (p : List Byte) : State :=
  let kind := leNat (Sys2Proof.slice 0 1 p)
  let toggle := leNat (Sys2Proof.slice 1 1 p) % 2
  let len := leNat (Sys2Proof.slice 2 2 p)
  let time := leNat (Sys2Proof.slice 16 8 p)
  let data := Sys2Proof.slice 24 len p
  match s.fromPartner (Eph.port (leNat (Sys2Proof.slice 4 4 p))) with
  | none => s
  | some n =>
    let eph := ephPort (leNat (Sys2Proof.slice 4 4 p) % 2 ^ 25) n
    match s.ctx? eph with
    | none => s
    | some k =>
      if !k.ctx.shadow then s
      else match kind with
        | 1 => s.onTwin fun w => { w with intents := Tbl.put w.intents eph ⟨toggle, time, data⟩ }
        | 2 => (s.onCtx eph fun k => { k with ctx := k.ctx.setToggle (1 - toggle) }).onTwin fun w => { w with intents := Tbl.del w.intents eph }
        | 3 =>
          if toggle ≠ k.ctx.toggle then s
          else
            let s1 := s.onCtx eph fun k => { k with ctx := k.ctx.setToggle (1 - toggle) }
            if k.room data.length then
              ((s1.pocketPut eph data).onCtx eph fun k => { k with events := k.events ++ [⟨time, data, false, s.tim.tickClass⟩] }).refresh 0
            else s1.onCtx eph fun k => { k with ctx := { k.ctx with overrun := satAdd (2 ^ 32 - 1) k.ctx.overrun 1 } }
        | _ => s

/-- EVENT data whose MCONF arrived is accepted and acknowledged (R389). -/
def heldAccept (s : State) (eph : Nat) (n : Nat) (p : Pkt) : State :=
  let s1 := s.onTwin fun w => { w with heldEvents := Tbl.del w.heldEvents eph }
  match s1.ctx? eph with
  | some k =>
    if k.bad || k.ctx.state != 2 || p.pid != 6 + k.ctx.toggle then s1
    else s1.acceptIn { port := Eph.port eph, tag := n % 16, eph := eph, kind := .callIn, toggle := k.ctx.toggle, data := [], entry := none, attempt := 1,
                       frame := s.frameNo, cut := false } k p s.tim.now
  | none => s1

/-- An MCONF (R388, R389). -/
def mconfTaken (s : State) (m t : Nat) : State :=
  let covered := s.twin.mirrored.filter fun x => !later32 x.1 m
  let longest := covered.foldl (fun a x => max a (t - x.2)) (s.fget .TWN_DLY_MCONF_MAX)
  let s1 := (s.fset .TWN_DLY_MCONF_MAX (min 65535 longest)).onTwin fun w => { w with
    confirmed := (m + 1) % 2 ^ 32, mirrored := w.mirrored.filter fun x => later32 x.1 m }
  (s1.twin.heldEvents.filter fun x => !later32 (x.2.1 / 16) m).foldl (fun s x => s.heldAccept x.1 x.2.1 x.2.2) s1

/-- Events without their MCONF at the guard band: no ACK, the data discarded, the toggle kept (R389). -/
def heldDrop (s : State) : State := s.onTwin fun w => { w with heldEvents := [] }

/-! ### Loss of the root port of an owned tree (R392) -/

/-- At a tick: how long the root port of each owned shared tree has been out of ENABLED for other than a suspend; one that came back after
a HANDOVER asks for the token. -/
def outTick (s : State) (t : Nat) : State :=
  (s.sharedTrees.filter s.owns).foldl (fun s n =>
    let st := s.portState (.root n)
    let k := s.tree n
    if st = 4 ∧ k.handed then (if k.msg.isSome then s else s.tokenQuery n t)
    else if st = 4 ∨ st = 6 ∨ st = 7 then s.onTree n fun k => { k with outTicks := 0 }
    else s.onTree n fun k => { k with outTicks := min 2 (k.outTicks + 1) }) s

/-! ### The first frame of ownership (R393, R394) -/

/-- The endpoints of a taken tree that need a CLEAR_HALT before their first transaction: of a WARM tree those whose shadow was dirty or was
never sent, of a COLD one all that have a toggle; `h` gives the contexts that are in host memory only. -/
def takeoverClears (s : State) (h : CtxHost) (n : Nat) : List Nat :=
  ((s.ctxs.map (fun x => (x.1, x.2.ctx)) ++ s.stored h).filter fun x =>
    let c := x.2
    Eph.port x.1 == n && (c.state == 2 || c.state == 3) &&
    (if (s.tree n).wasWarm then
      (c.cls == 0 || c.cls == 1 || c.cls == 4) && (Tbl.get 0 s.twin.dirtyBits x.1 != 0 || !s.twin.shadowed.contains x.1)
     else c.cls == 1 || c.cls == 3 || c.cls == 4)).map Prod.fst

/-- A tree starts to be run at the tick of a frame. -/
def ownsFrom (s : State) (n frame : Nat) : Bool :=
  s.owns n && (match (s.tree n).ownFrom with
    | some f => !later32 f frame
    | none => false)

/-- It does: the contexts are shadows no more, the stored intents are to be resolved, and the CLEAR_HALTs start. -/
def ownStart (s : State) (h : CtxHost) (n : Nat) : State :=
  let clears := s.takeoverClears h n
  let mine := s.twin.intents.filter fun x => Eph.port x.1 == n
  let s1 := (s.ctxAll (.shadow n false)).onTwin fun w => { w with
    intents := w.intents.filter fun x => Eph.port x.1 != n, resolving := mine ++ w.resolving, toClear := w.toClear ++ clears }
  let s2 := (clears.map fun e => e / 128 * 128).foldl (fun s e => (s.ctxGet h e).1) s1
  let s3 := clears.foldl startClear s2
  (s3.onTwin fun w => { w with
    shadowed := w.shadowed.filter (fun e => Eph.port e != n), dirtyBits := w.dirtyBits.filter fun x => Eph.port x.1 != n }).onTree n fun k =>
      { k with ownFrom := none }

end State

/-! ### Commands of the twin link -/

/-- TWN_CFG written: a change of ENABLE from 0 to 1 samples TWN_CFG, TWN_GEN and TWN_PMAPn; a pair found unequal leaves the link down. -/
def State.twinCfgWrite (s : State) (v : Nat) : State :=
  if !s.hasTwin then s
  else
    let old := s.flag .TWN_CFG_ENABLE
    let s1 := s.wr .TWN_CFG 0 (BitVec.ofNat 64 (nfield v 16 16 * 65536 + v % 65536))
    if !old && s1.flag .TWN_CFG_ENABLE then
      let bad : Option Nat := if !s1.pairOk .TWN_CFG .TWN_CFG_N 0 32 then some 0xF800
        else if !s1.pairOk .TWN_GEN .TWN_GEN_N 0 32 then some 0xF808
        else ((upto s.nPorts).find? fun n => !s1.pairOk .TWN_PMAP .TWN_PMAP_N n 32).map fun n => 0xFA00 + 8 * n
      match bad with
      | some o => s1.integrityReg o
      | none =>
        let s2 := s1.onTwin fun w => { w with
          enabled := true, pairId := v % 65536, gen := s1.fget .TWN_GEN_GEN,
          pmap := (upto s.nPorts).filterMap fun n =>
            if s1.fgetN .TWN_PMAP_VALID n = 1 then some (n, s1.fgetN .TWN_PMAP_PARTNER n) else none }
        (upto s.nPorts).foldl (fun x n => x.sharedShown n (s.shared n)) s2
    else if old && !s1.flag .TWN_CFG_ENABLE then s1.twinDown.onTwin fun w => { w with
      enabled := false, replay := [], queue := [], peerRx := 0, peerTx := 0, peerHeard := false }
    else s1

/-- TWIN_ENABLE: a write of TWN_CFG. -/
def execTwinEnable (v : Nat) (s : State) : Host.Outcome State Fault Refusal :=
  s.whenReady (.next (s.twinCfgWrite v))

/-- TWIN_LINK_UP: lane lock, after each end has received a BEAT, the partner as its own shows (R377). -/
def execTwinLinkUp (s : State) : Host.Outcome State Fault Refusal :=
  .next (if s.twin.enabled ∧ s.twin.peerRx ≠ 0 ∧ s.twin.peerHeard = true then s.fset .TWN_STS_LINK_UP 1 else s)

/-- TWIN_LINK_DOWN. -/
def execTwinLinkDown (s : State) : Host.Outcome State Fault Refusal := .next s.twinDown

/-- Messages up to an LSEQ are freed (R85). -/
def State.twinFreed (s : State) (lseq : Nat) : State :=
  if s.twin.replay.any fun k => k.lseq == lseq then
    let s1 := s.onTwin fun w => { w with replay := (w.replay.dropWhile fun k => k.lseq != lseq).drop 1, replayCnt := 0 }
    s1.twinDrain s1.twin.queue.length
  else s

/-- The messages from an LSEQ on are sent again; the link goes down after 8 replays from the same one (R88). -/
def State.twinReplay (s : State) (lseq : Nat) : State :=
  if !s.linkUp then s
  else if 8 ≤ s.twin.replayCnt ∧ s.twin.replayFrom = lseq then s.twinDown
  else
    let l := s.twin.replay.dropWhile fun k => k.lseq != lseq
    (s.emits (l.map fun k => .twin k.msg.kind k.lseq k.msg.payload)).onTwin fun w => { w with
      replayFrom := lseq, replayCnt := if w.replayFrom = lseq then w.replayCnt + 1 else 1 }

/-- TWIN_ACK_RECEIVE: `m` is the message. -/
def execTwinAckReceive (m : List Byte) (s : State) : Host.Outcome State Fault Refusal :=
  .next (s.twinLoosely 1 m fun lseq s => s.twinFreed lseq)

/-- TWIN_RETRY_RECEIVE. -/
def execTwinRetryReceive (m : List Byte) (s : State) : Host.Outcome State Fault Refusal :=
  .next (s.twinLoosely 2 m fun lseq s => s.twinReplay lseq)

/-- REPLAY_TIMEOUT: the oldest unacknowledged packet of a link end, or without one the oldest message on the twin link, has had no ACK for 20 us
(R86, R377). -/
def execReplayTimeout (l : Option LinkEndId) (t : Nat) (tTx : Int) (s : State) : Host.Outcome State Fault Refusal :=
  let s0 := s.at_ t
  .next (match l, s0.twin.replay with
    | some l, _ => s0.replayTimeout l t tTx
    | none, k :: _ => s0.twinReplay k.lseq
    | none, [] => s0)

/-- BEAT_RECEIVE: message `m`, its reception crossing at `t`. -/
def execBeatReceive (m : List Byte) (t : Nat) (s : State) : Host.Outcome State Fault Refusal :=
  .next ((s.at_ t).twinTake 0x10 m fun p s => s.beatTaken p t)

/-- BEAT_MISSED (R378); after the second in succession the TAKEOVER triggers of the trees that the partner owned (R391, R393). -/
def execBeatMissed (t : Nat) (s : State) : Host.Outcome State Fault Refusal :=
  if !s.twin.enabled then .next s
  else
    let s1 := ((((s.at_ t).count .TWN_CNT_BEAT_MISSED).raise .TWN_EVT_BEAT_MISSED)).onTwin fun w => { w with missed := w.missed + 1 }
    if s1.twin.missed = 2 then
      .next ((s1.sharedTrees.filter fun n => !s1.owns n && (match Tbl.find s1.twin.pmap n with
        | some q => nfield s1.twin.peerOwned q q == 1
        | none => false)).foldl (fun s n => s.takeoverTrigger n (s.tim.tickAt + 30000) t) s1)
    else .next s1

/-- SHADOW_RECEIVE: acted on while PAIRED. -/
def execShadowReceive (m : List Byte) (h : CtxHost) (s : State) : Host.Outcome State Fault Refusal :=
  .next (s.twinTake 0x11 m fun p s => if s.paired then s.shadowRecords h 256 p else s)

/-- MIRROR_RECEIVE: records are applied in MSEQ order and confirmed. -/
def execMirrorReceive (m : List Byte) (s : State) : Host.Outcome State Fault Refusal :=
  .next (s.twinTake 0x12 m fun p s =>
    let n := leNat (slice 8 4 p)
    if s.paired && n == s.twin.mseqRx then
      ((s.mirrorApply p).onTwin fun w => { w with mseqRx := (n + 1) % 2 ^ 32 }).twinSend 0x13 (leBytes 4 n ++ leBytes 4 0)
    else s)

/-- MCONF_RECEIVE. -/
def execMconfReceive (m : List Byte) (t : Nat) (s : State) : Host.Outcome State Fault Refusal :=
  .next (((s.at_ t).twinTake 0x13 m fun p s => if s.paired then s.mconfTaken (leNat (p.take 4)) t else s).settled)

/-- MCONF_LATE: a record sent 100 us ago or earlier has none (R388). -/
def execMconfLate (t : Nat) (s : State) : Host.Outcome State Fault Refusal :=
  .next (if s.twin.mirrored.any fun x => decide (x.2 + 100000 ≤ t) then (s.at_ t).twinDown else s.at_ t)

/-- HANDOVER_SEND: once for each loss, while PAIRED; nothing is composed for the tree from now on (R392). -/
def execHandoverSend (n : Nat) (s : State) : Host.Outcome State Fault Refusal :=
  match Tbl.find s.twin.pmap n with
  | some q =>
    if s.paired && s.shared n && s.owns n && !(s.tree n).handed && decide (2 ≤ (s.tree n).outTicks) then
      .next ((s.twinSend 0x14 (leBytes 8 (2 ^ q) ++ leBytes 8 0)).onTree n fun k => { k with handed := true, silent := true })
    else .next s
  | none => .next s

/-- HANDOVER_RECEIVE (Table 12.8): S = 0 triggers the TAKEOVER policy, another S claims the WARM trees named from that frame on. The twin
link, as a participant of a power entry, refuses late (R425). -/
def execHandoverReceive (m : List Byte) (t : Nat) (s : State) : Host.Outcome State Fault Refusal :=
  .next ((s.at_ t).twinTake 0x14 m fun p s =>
    let mask := leNat (p.take 8)
    let sw := leNat (slice 8 4 p)
    let mine := s.sharedTrees.filter fun n => nfield mask n n == 1 && !s.owns n
    let s0 := if mine.isEmpty then s else s.lateRefusal 0x03
    mine.foldl (fun s n =>
      if sw = 0 then s.takeoverTrigger n 0 t
      else if s.warm n then (s.claimTree n false sw false none 0 t).onTree n fun k => { k with takeAt := some sw }
      else s) s0)

/-- TOKEN_MSG_REPEAT: the outstanding TOKEN_RELEASE of a tree, or its query or claim, is sent again, or lapses: a query or claim after 100 us, a release
at S. -/
def execTokenMsgRepeat (n : Nat) (release : Bool) (t : Nat) (s : State) : Host.Outcome State Fault Refusal :=
  let s0 := s.at_ t
  match (if release then (s0.tree n).rel else (s0.tree n).msg) with
  | some m =>
    let drop (s : State) : State := s.onTree n fun k => { k with msg := none }
    if release then
      .next (if later32 m.frameNo s0.frameNo then s0.sendCtl (.port (.root n)) m.typ 0 m.arg m.frameNo else s0.onTree n fun k => { k with rel := none })
    else if t ≤ (s0.tree n).msgAt + 100000 then .next (s0.sendCtl (.port (.root n)) m.typ 0 m.arg m.frameNo)
    else .next (if (s0.tree n).claim.isSome then (drop s0).claimOver n false else drop s0)
  | none => .next s0

/-- TOKEN_STATE_RECEIVE (R385, R393): EPOCH and HOLDER are known from now on; a claim that waited for them is sent. YOU = 0 between a grant that named a
frame S and the first frame of ownership takes nothing back: the hub changes holder only at S (log entry 114). -/
def execTokenStateReceive (n arg t : Nat) (s : State) : Host.Outcome State Fault Refusal :=
  let s0 := s.at_ t
  if !s0.shared n then .next s0
  else
    let you := nfield arg 19 19 == 1
    let query : Bool := match (s0.tree n).msg with
      | some m => m.typ == 0x10
      | none => false
    let s1 := s0.onTree n fun k => { k with
      epoch := arg % 65536, holder := nfield arg 17 16, you := you, known := true, msg := if query then none else k.msg }
    let s2 := if you then s1.takeTree n 0 t else if s1.owns n && ((s1.tree n).ownFrom.isNone || !(s1.tree n).atS) then s1.loseTree n else s1
    match (s2.tree n).claim, query with
    | some (forced, f), true => .next (if you then (s2.claimOver n true) else s2.tokenClaim n forced f t)
    | _, _ => .next s2

/-- TOKEN_GRANT_RECEIVE: the tree becomes OWNER (R393). A grant of no outstanding claim changes nothing. -/
def execTokenGrantReceive (n arg frameNo t : Nat) (s : State) : Host.Outcome State Fault Refusal :=
  let s0 := s.at_ t
  match (s0.tree n).msg with
  | some m =>
    if m.typ = 0x12 ∧ m.arg % 65536 = arg % 65536 then
      let pol := (s0.tree n).byPolicy
      let s1 := (s0.onTree n fun k => { k with epoch := arg % 65536, you := true, known := true, msg := none }).takeTree n frameNo t
      .next ((if pol then s1.policyAction 3 0x98 n else s1).claimOver n true)
    else .next s0
  | none => .next s0

/-- TOKEN_DENY_RECEIVE: the tree stays as it was, and DENIED is reported (R393). -/
def execTokenDenyReceive (n arg : Nat) (s : State) : Host.Outcome State Fault Refusal :=
  match (s.tree n).msg with
  | some m =>
    if m.typ = 0x12 then
      let pol := (s.tree n).byPolicy
      let s1 := s.onTree n fun k => { k with epoch := arg % 65536, known := true, msg := none }
      let s2 := ((s1.raise .TWN_EVT_DENIED).count .TWN_CNT_DENIED).twinEvent 7 (nfield arg 23 20) n 0
      .next ((if pol then s2.policyReport 3 0x99 n else s2).claimOver n false)
    else .next s
  | none => .next s

/-- TOKEN_LOST_RECEIVE (R385). -/
def execTokenLostReceive (n arg : Nat) (s : State) : Host.Outcome State Fault Refusal :=
  let s1 := s.onTree n fun k => { k with epoch := arg % 65536, known := true, you := false }
  .next (if s1.owns n then s1.loseTree n else s1)

/-! ### Twin commands (R398) -/

namespace State

/-- A mask of a twin command that names only shared trees. -/
def maskShared (s : State) (m : Nat) : Bool := (upto 64).all fun n => nfield m n n == 0 || (decide (n < s.nPorts) && s.shared n)

/-- TWIN_CLAIM or TWIN_FORCE on one tree: the claim starts, or waits for one that is in progress (R33). -/
def claimFor (s : State) (forced : Bool) (cmd : Nat × Nat) (t n : Nat) : State :=
  let s1 := s.overtake 3 n
  if (s1.tree n).claim.isSome then s1.onTree n fun k => { k with queued := some (forced, cmd) }
  else s1.claimTree n forced 0 false (some cmd) 0 t

/-- The claims that waited, at a frame boundary. -/
def claimsTick (s : State) : State :=
  s.sharedTrees.foldl (fun s n => match (s.tree n).queued, (s.tree n).claim with
    | some (forced, cmd), none => (s.onTree n fun k => { k with queued := none }).claimTree n forced 0 false (some cmd) 0 s.tim.tickAt
    | _, _ => s) s

/-- TWIN_CLAIM and TWIN_FORCE. -/
def claimCmd (s : State) (forced : Bool) (t : Nat) (c : CmdRec) : State :=
  let m := cmdArg0 c.bytes
  if !s.hasTwin then s.cmdDone c.ring c.idx stAbsent 0
  else if !s.maskShared m then s.cmdDone c.ring c.idx stBounds 0
  else if m = 0 then s.cmdDone c.ring c.idx stOk 0
  else ((upto 64).filter fun n => nfield m n n == 1).foldl
    (State.claimFor · forced (c.ring, c.idx) t ·) (s.onCmd c.ring c.idx fun c => { c with stage := m })

/-- TWIN_RELEASE. -/
def releaseCmd (s : State) (c : CmdRec) : State :=
  let m := cmdArg0 c.bytes
  let sw := cmdArg1 c.bytes % 2 ^ 32
  let ports := (upto 64).filter fun n => nfield m n n == 1
  let ok (n : Nat) : Bool := s.owns n && (match Tbl.find s.twin.pmap n with
    | some q => nfield s.twin.peerWarm q q == 1
    | none => false)
  if !s.hasTwin then s.cmdDone c.ring c.idx stAbsent 0
  else if !s.maskShared m || !s.paired || !ports.all ok || !later32 sw ((s.frameNo + 3) % 2 ^ 32) || sw == 0 then
    s.cmdDone c.ring c.idx stBounds 0
  else
    let s1 := ports.foldl (fun s n => s.tokenRelease n sw) s
    let mask := ports.foldl (fun a n => match Tbl.find s.twin.pmap n with
      | some q => nset a q q 1
      | none => a) 0
    (if ports.isEmpty then s1 else s1.twinSend 0x14 (leBytes 8 mask ++ leBytes 4 sw ++ leBytes 4 0)).cmdDone c.ring c.idx stOk sw

end State

/-- TWIN_CLAIM. -/
def execTwinClaim (r : Nat) (d : HostRead) (t : Nat) (s : State) : Host.Outcome State Fault Refusal :=
  .next ((s.at_ t).withCmd r d (· == 0x60) fun c s => s.claimCmd false t c)

/-- TWIN_FORCE. -/
def execTwinForce (r : Nat) (d : HostRead) (t : Nat) (s : State) : Host.Outcome State Fault Refusal :=
  .next ((s.at_ t).withCmd r d (· == 0x61) fun c s => s.claimCmd true t c)

/-- TWIN_RELEASE. -/
def execTwinRelease (r : Nat) (d : HostRead) (t : Nat) (s : State) : Host.Outcome State Fault Refusal :=
  .next ((s.at_ t).withCmd r d (· == 0x62) fun c s => s.releaseCmd c)

/-- TWIN_QUERY: what the controller holds of the token. -/
def execTwinQuery (r : Nat) (d : HostRead) (s : State) : Host.Outcome State Fault Refusal :=
  .next (s.withCmd r d (· == 0x63) fun c s =>
    let n := cmdArg0 c.bytes % 64
    if !s.hasTwin || decide (s.nPorts ≤ n) then s.cmdDone c.ring c.idx stAbsent 0
    else if !s.shared n then s.cmdDone c.ring c.idx stBounds 0
    else s.cmdDone c.ring c.idx stOk (bit (s.tree n).you * 2 ^ 19 + (s.tree n).holder % 4 * 2 ^ 16 + (s.tree n).epoch % 65536))

/-- A clearing read of TWN_EVT. -/
def execTwnEvtRead (both : Bool) (s : State) : Host.Outcome State Fault Refusal :=
  s.readReady (.next (s.eventRead .TWN_EVT .TWN_EVT_SHADOW 0 both 138))

end Sys2Proof.Machine
end

