-- ==== Sys2Proof/Machine/Mailbox.lean ====
section
/-! DEFINITION. Machine/Mailbox.lean: the two mailboxes of a slice (R339–R342) and the clearing reads of the slice page (R468). -/

namespace Sys2Proof.Machine

/-- Bytes of messages in a mailbox. -/
def Mailbox.bytes (m : Mailbox) : Nat := (m.msgs.map List.length).foldl (· + ·) 0

/-- The first bytes of a staging area. -/
def Mailbox.staged (m : Mailbox) (n : Nat) : List Byte := ((upto 16).flatMap fun i => leBytes 4 (Tbl.get 0 m.staging i).toNat).take n

namespace State

/-- A MAILBOX event (R342): on ring 1, or on the ring that MBT_CTL names while it is an ACTIVE EVENT ring of the slice. -/
def mbxEvent (s : State) (n : Nat) (tenant : Bool) (what len : Nat) : State :=
  let info0 := what * 2 ^ 28 + len * 256 + n
  if tenant then
    let r := s.fgetN .MBT_CTL_RING n
    if s.flagN .MBT_CTL_EN n ∧ 4 ≤ r ∧ (s.ring r).slice = some n ∧ (s.ring r).st = 1 ∧ (s.ring r).type r = 2 then
      s.event r evMailbox 0 r info0 s.frameNo
    else s
  else s.event1 evMailbox 0 1 info0 s.frameNo

/-- The mailboxes of a slice work: it is present and neither FREE nor RESETTING (R341). -/
def mbxWorks (s : State) (n : Nat) : Bool := decide (n < s.nSlices) && s.sliceState n != 0 && s.sliceState n != 4

/-- A post (R339, R340): `tenant` is the sender. In RESETTING it is refused; the page and the mailboxes of a FREE slice ignore it. -/
def mbxPost (s : State) (n : Nat) (tenant : Bool) (v : Nat) : State :=
  if s.nSlices ≤ n ∨ s.sliceState n = 0 then s
  else
    let len := v % 128
    let box := if tenant then (s.slice n).upw else (s.slice n).down
    if !s.mbxWorks n || len % 8 != 0 || decide (len < 8 ∨ 64 < len) || decide (256 < box.bytes + len) then
      ((s.countN .SLC_ERR_MBX_REFUSED n 1).raiseN (if tenant then .MBT_EVT_POST_REFUSED else .MBM_EVT_POST_REFUSED) n).mbxEvent n tenant 3 0
    else
      let new : Mailbox := { box with msgs := box.msgs ++ [box.staged len] }
      let s1 := s.onSlice n fun x => if tenant then { x with upw := new } else { x with down := new }
      (s1.raiseN (if tenant then .MBM_EVT_IN else .MBT_EVT_IN) n).mbxEvent n (!tenant) 1 len

/-- A POP (R339, R340): `tenant` is the receiver. -/
def mbxPop (s : State) (n : Nat) (tenant : Bool) (v : Nat) : State :=
  let box := if tenant then (s.slice n).down else (s.slice n).upw
  if !s.mbxWorks n || v % 2 == 0 then s
  else match box.msgs with
    | [] => s
    | _ :: r =>
      let s1 := s.onSlice n fun x => if tenant then { x with down := { box with msgs := r } } else { x with upw := { box with msgs := r } }
      (s1.raiseN (if tenant then .MBM_EVT_SPACE else .MBT_EVT_SPACE) n).mbxEvent n (!tenant) 2 0

/-- Both mailboxes emptied by a slice reset; the staging areas stay (R341). -/
def mbxReset (s : State) (n : Nat) : State :=
  let s1 := s.onSlice n fun x => { x with down := { x.down with msgs := [] }, upw := { x.upw with msgs := [] } }
  (((s1.raiseN .MBM_EVT_RESET n).raiseN .MBT_EVT_RESET n).mbxEvent n false 4 0).mbxEvent n true 4 0

/-- A register of a slice's page is read while the slice is FREE or absent: zero, and nothing changes (R337). -/
def pageClosed (s : State) (n : Nat) : Bool := decide (s.nSlices ≤ n) || s.sliceState n == 0

end State

/-- MBM_POST: POST of slice `n`'s manager side is written. -/
def execMbmPost (n v : Nat) (s : State) : Host.Outcome State Fault Refusal :=
  s.whenReady (.next (s.mbxPost n false v))

/-- MBT_POST. -/
def execMbtPost (n v : Nat) (s : State) : Host.Outcome State Fault Refusal :=
  s.whenReady (.next (s.mbxPost n true v))

/-- MBM_POP. -/
def execMbmPop (n v : Nat) (s : State) : Host.Outcome State Fault Refusal :=
  s.whenReady (.next (s.mbxPop n false v))

/-- MBT_POP. -/
def execMbtPop (n v : Nat) (s : State) : Host.Outcome State Fault Refusal :=
  s.whenReady (.next (s.mbxPop n true v))

/-- A clearing read of MBM_EVTs; it feeds source 133. -/
def execMbmEvtRead (n : Nat) (both : Bool) (s : State) : Host.Outcome State Fault Refusal :=
  s.readReady (.next (if s.nSlices ≤ n then s.answer 0 else s.eventRead .MBM_EVT .MBM_EVT_SHADOW n both 133))

/-- A clearing read of MBT_EVT; it feeds the slice's mailbox source. -/
def execMbtEvtRead (n : Nat) (both : Bool) (s : State) : Host.Outcome State Fault Refusal :=
  s.readReady (.next (if s.pageClosed n then s.answer 0 else s.eventRead .MBT_EVT .MBT_EVT_SHADOW n both (256 + 2 * n)))

/-- A clearing read of SLT_EVT; it feeds the slice's status source. -/
def execSltEvtRead (n : Nat) (both : Bool) (s : State) : Host.Outcome State Fault Refusal :=
  s.readReady (.next (if s.pageClosed n then s.answer 0 else s.eventRead .SLT_EVT .SLT_EVT_SHADOW n both (257 + 2 * n)))

end Sys2Proof.Machine
end

