-- ==== Sys2Proof/Machine/Slices.lean ====
section
/-! DEFINITION. Machine/Slices.lean: the slices' life (R328–R338), reset (R343–R345), freeze and thaw (R346, R347), and the slice commands but for
the images (R352). -/

namespace Sys2Proof.Machine

namespace State

def toSlice (s : State) (n st : Nat) : State := s.fsetN .SLC_STS_STATE n st

/-- A SLICE event (R353). -/
def sliceEvent (s : State) (n what status hi : Nat) : State :=
  s.event1 evSlice status 0 (what * 2 ^ 28 + n) (hi % 2 ^ 32 * 2 ^ 32 + s.frameNo)

/-- The audit record of a slice change (Table 15.7): 1 enabled, 2 reset, 3 disabled, 4 restored. -/
def sliceAudit (s : State) (n what : Nat) : State := s.auditRecord 0x0B 0 n 0 what (leBytes 4 (s.slice n).pasid)

/-- Present slices other than `n` that are not FREE. -/
def otherSlices (s : State) (n : Nat) : List Nat := (upto s.nSlices).filter fun m => m != n && s.sliceState m != 0

/-- The active pool in units of 64 KiB (R331, R446). -/
def poolUnits (s : State) : Nat := 8 * s.hlt.logical

/-- Two ranges of `a` units at `x` and `b` units at `y` meet. -/
def meet (x a y b : Nat) : Bool := a != 0 && b != 0 && decide (x < y + b) && decide (y < x + a)

/-- Check 4 of R331 on a window word. -/
def windowOk (s : State) (n : Nat) (w : DWord) : Bool :=
  decide (field w 24 16 + field w 8 0 ≤ s.poolUnits) &&
  (s.otherSlices n).all fun m => !meet (field w 24 16) (field w 8 0) (field (s.slice m).win 24 16) (field (s.slice m).win 8 0)

/-- The SLC pairs of a slice match (check 1 of R331). -/
def slcPairs (s : State) (n : Nat) : Bool :=
  s.pairOk .SLC_PASID .SLC_PASID_N n 32 && s.pairOk .SLC_WIN .SLC_WIN_N n 32 && s.pairOk .SLC_HBASE .SLC_HBASE_N n 64 &&
  s.pairOk .SLC_HLIM .SLC_HLIM_N n 64 && s.pairOk .SLC_CNTR .SLC_CNTR_N n 32

/-- The checks of R331 in their order. -/
def bindStatus (s : State) (n : Nat) : Nat :=
  let pasid := s.fgetN .SLC_PASID_PASID n
  let cbase := s.fgetN .SLC_CNTR_CBASE n
  let cnt := s.fgetN .SLC_CNTR_CCOUNT n
  if !s.slcPairs n then stIntegrity
  else if pasid = 0 ∨ (s.otherSlices n).any (fun m => (s.slice m).pasid == pasid) = true then stBounds
  else if s.fgetN .SLC_HLIM_LIMIT n < s.fgetN .SLC_HBASE_BASE n then stBounds
  else if !s.windowOk n (s.rd .SLC_WIN n) then stBounds
  else if 65536 < cbase + cnt ∨ (s.otherSlices n).any (fun m => meet cbase cnt (field (s.slice m).cntr 31 16) (field (s.slice m).cntr 15 0)) = true
    then stBounds
  else stOk

/-- Reservations, weights and groups of a slice as after SLICE_ENABLE (R334). -/
def sharesCleared (s : State) (n : Nat) : State :=
  let own (k : Nat) : Bool := k % 256 == n
  (s.onSched fun c => { c with res := c.res.filter fun x => !own x.1 }).onDeal fun d => { d with
    share := d.share.filter (fun x => !own x.1), sharePend := d.sharePend.filter (fun x => !own x.1) }

/-- The binding is sampled (R330); page, with the tenant's staging area, vectors and mailboxes start empty, and the page registers have their reset values
(R331, R373). The manager's staging area is no part of the page. -/
def bindSlice (s : State) (n : Nat) : State :=
  let hb := s.rd .SLC_HBASE n
  let hl := s.rd .SLC_HLIM n
  let w := s.rd .SLC_WIN n
  let s1 := s.onSlice n fun x => { Slice.init with
    pasid := s.fgetN .SLC_PASID_PASID n, hbase := hb, hbaseN := ~~~ hb, hlim := hl, hlimN := ~~~ hl, win := w, winN := ~~~ w,
    cntr := s.rd .SLC_CNTR n, cntrN := ~~~ s.rd .SLC_CNTR n, down := ⟨[], x.down.staging⟩ }
  let s2 := ((((((s1.wr .SLT_EVT n 0).wr .SLT_EVT_SHADOW n 0).wr .MBT_EVT n 0).wr .MBT_EVT_SHADOW n 0).wr .MBM_EVT n 0).wr .MBT_CTL n 0).wr
    .SLI_ROUTE n 0
  let s3 := (upto 8).foldl (fun s v => s.onVector (8 * n + v) fun x => { x with
    cnt := 1, timeUs := 0, reqs := 0, idle := false, held := false, pba := false }) s2
  let s4 := [256 + 2 * n, 257 + 2 * n].foldl (fun s x => s.onSource x fun o => { o with pend := false, en := false, act := false }) s3
  (s4.fsetN .SLC_STS_DB_IGNORED n 0).sharesCleared n

/-- The context of a handle belongs to a slice. -/
def ownedBy (s : State) (n eph : Nat) : Bool :=
  match s.ctx? eph with
  | some k => k.ctx.owner == n
  | none => false

/-- The cached contexts of a slice. -/
def ctxsOf (s : State) (n : Nat) : List (Nat × CtxSlot) := s.ctxs.filter fun x => x.2.ctx.owner == n && x.2.ctx.state != 0

/-- A ring of the slice. -/
def ringOf (s : State) (n r : Nat) : Bool := (s.ring r).slice == some n

/-! ### Reset (Table 10.8) -/

/-- A manager command in progress names the slice or its endpoints. -/
def namesSlice (s : State) (n : Nat) (c : CmdRec) : Bool :=
  c.ring == 0 && c.status.isNone && (cmdNames c.op c.bytes).any fun x =>
    (x.1 == 3 && x.2 == n) || (x.1 == 1 && s.ownedBy n x.2) || (x.1 == 0 && s.ringOf n x.2)

/-- Step 3: dealer entries are discarded without write-back, a context fetched for them alone is not cached (Table 13.5), commands of the slice's rings end,
manager commands complete SLICE_RESET. -/
def resetWork (s : State) (n : Nat) (self : Nat) : State :=
  let gone := s.entries.filter fun e => e.slice == n
  let spill := gone.any Entry.spilled
  let full := spill && s.spilledAll == s.spillLimit
  let ids := gone.map Entry.id
  let keep (l : List HandItem) : List HandItem := l.filter fun x => x.started || !(x.entry.any ids.contains)
  let hands (t : Tbl Hand) : Tbl Hand := t.map fun x => (x.1, { x.2 with items := keep x.2.items })
  let s1 := gone.foldl (fun s e => match e.forCmd with
    | some (r, i) => if r = noRing then s.onTwin fun w => { w with toClear := w.toClear.filter (· != i) } else s.cmdDone r i stSliceReset 0
    | none => s) s
  let s2 := { s1 with entries := s1.entries.filter fun e => e.slice != n }.onDeal fun d => { d with
    lists := d.lists.filter fun l => !ids.contains l.entry, next := hands d.next, run := hands d.run }
  let s3 := if spill then s2.spillEvent 2 n 0 0 else s2
  let s4 := if full then s3.spillEvent 4 0 s3.spillUsed 0 else s3
  let s5 := ({ s4 with cmds := s4.cmds.filter fun c => c.slice != some n }).onCmgr fun m => { m with
    fetching := m.fetching.filter fun x => !(gone.any fun e => e.eph == x) || s4.entries.any fun e => e.eph == x }
  s5.cmdsDone (fun c => c.idx != self && s.namesSlice n c) stSliceReset 0

/-- Step 4: what is on the wire completes on the bus only. -/
def resetWire (s : State) (n : Nat) : State :=
  let cut (x : Txn) : Txn := if s.ownedBy n x.eph then { x with cut := true } else x
  { s with txns := s.txns.map cut }.onTwin fun w => { w with
    heldEvents := w.heldEvents.filter fun x => !s.ownedBy n x.1, resolving := w.resolving.filter fun x => !s.ownedBy n x.1 }

/-- Batches that wait or are being admitted for the slice, or name its endpoints, end. -/
def resetBatches (s : State) (n : Nat) : State :=
  let hits (b : Batch) : Bool := b.slice == some n || (b.kind == .list && b.cmd.isSome && b.changes.any fun x => s.ownedBy n (schedEph x.1))
  let ended := (s.sched.queue.filter hits) ++ (match s.sched.batch with
    | some b => if !b.admitted && hits b then [b] else []
    | none => [])
  let s1 := ended.foldl (fun s b => match b.cmd with
    | some (r, i) => s.cmdDone r i stSliceReset 0
    | none => s) s
  (s1.onSched fun c => { c with
    queue := c.queue.filter (fun b => !hits b), batch := c.batch.filter fun b => b.admitted || !hits b }).startBatch

/-- Step 5: RUNNING and HALTED contexts are STOPPED, pocket data is discarded, and the removal of the periodic entries is queued. -/
def resetContexts (s : State) (n : Nat) : State :=
  let s1 := (s.ctxAll (.stop n) true)
  let empty (k : CtxSlot) : CtxSlot :=
    { k with ctx := { k.ctx with wrPtr := k.ctx.rdPtr }, used := 0, events := [], blocks := [], poisonSeen := false, dups := 0 }
  let s2 := { s1 with ctxs := s1.ctxs.map fun (x : Nat × CtxSlot) => if x.2.ctx.owner = n then (x.1, empty x.2) else x }
  s2.queueBatch (.withdraw n) none none [] none

/-- Step 6: rings, counters, groups, streams, stream records and mailboxes. A manager's GATHER_DESTROY or CODER_DETACH in progress on one of them completes
SLICE_RESET, as in step 3 (R343). -/
def resetRings (s : State) (n : Nat) : State :=
  let cb := field (s.slice n).cntr 31 16
  let cc := field (s.slice n).cntr 15 0
  let unused (g : Ring) : Ring := { Ring.init with slice := g.slice, dbIdx := g.dbIdx }
  let s1 := { s with rings := s.rings.map fun (x : Nat × Ring) => if x.2.slice = some n then (x.1, unused x.2) else x }.onDeal fun d => { d with counters := d.counters.filter fun x => decide (x.1 < cb ∨ cb + cc ≤ x.1) }
  let ends := ((s.smp.groups.filter fun x => s.ringOf n x.2.ring).flatMap fun x => x.2.destroy) ++
    (s.smp.streams.filter fun x => s.ringOf n x.2.ring).flatMap fun x => x.2.detach
  let s2 := (s1.endCmds ends stSliceReset 0).onSmp fun m => { m with
    queue := m.queue.filter (fun r => !s.ringOf n r.ring), groups := m.groups.filter (fun x => !s.ringOf n x.2.ring),
    streams := m.streams.filter (fun x => !s.ringOf n x.2.ring), overrun := m.overrun.filter (fun e => !s.ownedBy n e),
    notes := m.notes.filter fun x => !s.ringOf n x.1 }
  s2.mbxReset n

/-- Steps 1 to 6, for SLICE_RESET and SLICE_DISABLE. -/
def resetStart (s : State) (n : Nat) (c : CmdRec) (disabling : Bool) : State :=
  let count := (s.entries.filter fun e => e.slice == n && e.forCmd.isNone && e.st != .ended).length
  let s1 := ((s.toSlice n 4).fsetN .SLC_STS_PARKED n 0).onSlice n fun x => { x with
    resetFor := some c.idx, disabling := disabling, discarded := count, freezeCmd := none, thawCmd := none, saving := none,
    parkAt := none, releasing := false, relWb := [], relCmd := [], relHost := [] }
  let s2 := s1.fenceChannels n
  let s3 := [256 + 2 * n, 257 + 2 * n].foldl (fun s x =>
    (s.onSource x fun o => { o with pend := false, en := false, act := false }).levelPend x) s2
  let s4 := (upto 8).foldl (fun s v => s.onVector (8 * n + v) fun x => { x with reqs := 0, idle := false, held := false, pba := false }) s3
  ((((s4.resetWork n c.idx).resetWire n).resetBatches n).resetContexts n).resetRings n

/-- Step 7: once no channel is DRY the fence is lifted (R343, R352). -/
def resetDone (s : State) (n : Nat) : State :=
  match (s.slice n).resetFor with
  | some idx =>
    if s.sliceState n ≠ 4 ∨ s.dryOf n = true then s
    else
      let x := s.slice n
      let s1 := s.onSlice n fun x => { x with resetFor := none, disabling := false, discarded := 0 }
      if x.disabling then
        let s2 := (((s1.sharesCleared n).sliceEvent n 10 0 0).sliceAudit n 3).toSlice n 0
        (s2.onSlice n fun x => { Slice.init with down := ⟨[], x.down.staging⟩, upw := ⟨[], x.upw.staging⟩ }).cmdDone 0 idx stOk 0
      else
        ((((s1.toSlice n 1).raiseN .SLT_EVT_RESET n).sliceEvent n 2 0 0).sliceAudit n 2).cmdDone 0 idx stOk x.discarded
  | none => s

/-! ### Freeze and thaw at a frame boundary (R346, R347) -/

/-- Composed COMMAND, CONTROL and BULK transactions of the slice that have not started return to the head of their lists. -/
def unhand (s : State) (n : Nat) : State :=
  (upto s.nPorts).foldl (fun s t =>
    let mine (x : HandItem) : Bool := !x.started && x.slice == n && x.entry.isSome
    let back := ((s.handRun t).map (·.items)).getD [] ++ ((s.handNext t).map (·.items)).getD []
    let cut (l : Tbl Hand) : Tbl Hand := match Tbl.find l t with
      | some h => Tbl.put l t { h with items := h.items.filter fun x => !mine x }
      | none => l
    let s1 := s.onDeal fun d => { d with run := cut d.run, next := cut d.next }
    (back.filter mine).reverse.foldl (fun s x =>
      let s1 := if 5 ≤ x.cls then s.onDrr t fun d => d.charge x.slice x.group (-(x.cost : Int)) else s
      match x.entry with
      | some id => s1.toHead id
      | none => s1) s1) s

/-- SLICE_FREEZE takes effect at a boundary. A read of engine work for the slice that waits for a retry is given up, and made again after the thaw (log entry
112). -/
def freezeTick (s : State) (n : Nat) : State :=
  if (s.slice n).freezeCmd.isSome ∧ s.sliceState n = 1 then
    let s1 := (upto 64).foldl (fun s m =>
      if (s.chan m).work.isSome ∧ (s.chan m).slice = some n then (s.onChan m fun _ => Chan.init).chanTo m 0 else s) s
    ((s1.toSlice n 2).onSlice n fun x => { x with releasing := false, relWb := [], relCmd := [], relHost := [] }).unhand n
  else s

/-- The slice is quiet: no COMMAND, CONTROL or BULK transaction of it on the wire, and no mover descriptor for it in progress. A descriptor that waits for
requests between two bursts makes no access, and does not hold the slice (log entry 112). -/
def sliceQuiet (s : State) (n : Nat) : Bool :=
  (s.txns.all fun x => !s.ownedBy n x.eph || (s.classOf x.eph == 2 || s.classOf x.eph == 3)) &&
  (upto 64).all fun m => (s.chan m).slice != some n || !(s.chanSt m == 2 || s.chanSt m == 3) || ctlPace (s.chan m).ctl == 3

/-- A quiet slice is FROZEN; its cached contexts are written back and stay cached. -/
def frozen (s : State) (h : CtxHost) (n : Nat) : State :=
  match (s.slice n).freezeCmd with
  | some idx =>
    if s.sliceState n = 2 ∧ s.sliceQuiet n = true then
      let s1 := (s.ctxsOf n).foldl (fun s x => (s.ctxFlush h x.1).1) s
      ((((s1.toSlice n 3).onSlice n fun x => { x with freezeCmd := none }).sliceEvent n 3 0 0)).cmdDone 0 idx stOk 0
    else s
  | none => s

/-- A FROZEN slice is served again: its held messages go out, its channels start, and what else was held is released in the order of R347. -/
def thawTick (s : State) (n : Nat) : State :=
  match (s.slice n).thawCmd with
  | some idx =>
    let mine := s.entries.filter fun e => e.slice == n && e.forCmd.isNone
    let s1 := ((s.toSlice n 1).fsetN .SLC_STS_PARKED n 0).onSlice n fun x => { x with
      thawCmd := none, parkAt := none, releasing := true, relAt := s.tim.now,
      relWb := (mine.filter fun e => e.done.isSome && transported e && !e.step1).map Entry.id,
      relCmd := (s.cmds.filter fun c => c.slice == some n && c.status.isSome).map fun c => (c.ring, c.idx),
      relHost := (mine.filter fun e => !transported e).map Entry.id }
    let s2 := s1.thawChannels n
    let s3 := (upto 8).foldl (fun s v => if (s.vector (8 * n + v)).held then s.vecDue (8 * n + v) else s) s2
    ((((s3.raiseN .SLT_EVT_THAWED n).sliceEvent n 4 0 0).cmdDone 0 idx stOk 0).refresh 0).releaseStep n
  | none => s

/-! ### Window and bounds at a frame boundary (R332, R335, R336) -/

/-- A window word cut to a pool that ends at `units` of 64 KiB (R336). -/
def cutWindow (units : Nat) (w : DWord) : DWord :=
  if units < field w 24 16 + field w 8 0 then
    let base := min units (field w 24 16)
    setField (setField w 24 16 base) 8 0 (units - base)
  else w

/-- The pair in use is reloaded where the register pairs match; a window that the pool was cut short of stays within it (R332, R336). -/
def reloadTick (s : State) (n : Nat) : State :=
  if (s.slice n).reload ∧ s.slcPairs n = true ∧ s.sliceState n ≠ 0 then
    let hb := s.rd .SLC_HBASE n
    let hl := s.rd .SLC_HLIM n
    let w := cutWindow s.poolUnits (s.rd .SLC_WIN n)
    let c := s.rd .SLC_CNTR n
    s.onSlice n fun x => { x with
      hbase := hb, hbaseN := ~~~ hb, hlim := hl, hlimN := ~~~ hl, win := w, winN := ~~~ w, cntr := c, cntrN := ~~~ c, reload := false, boundsSaid := false }
  else s

/-- The installed contexts of a slice: cached ones, and those of host memory that `h` names. -/
def pocketsOf (s : State) (h : CtxHost) (n : Nat) : List (Nat × Nat) :=
  (s.ctxsOf n).map (fun x => (x.2.ctx.base, x.2.ctx.size)) ++ ((s.stored h).filter fun x => x.2.owner == n && x.2.state != 0).map fun x => (x.2.base, x.2.size)

/-- A SLC_WINs pair that was written while the slice was ACTIVE or FROZEN is judged at the first boundary at which it matches, in whatever state but FREE the
slice is by then (R335, Table 10.12). -/
def windowTick (s : State) (h : CtxHost) (n : Nat) : State :=
  if !(s.slice n).winPend || s.sliceState n == 0 then s
  else if !s.pairOk .SLC_WIN .SLC_WIN_N n 32 then
    (if (s.slice n).winSaid then s else (s.integrity 5 0 0 n 0).onSlice n fun x => { x with winSaid := true })
  else
    let w := s.rd .SLC_WIN n
    let new := { s.slice n with win := w, winN := ~~~ w, winPend := false }
    if s.windowOk n w && (s.pocketsOf h n).all fun p => new.inWindow p.1 p.2 then
      ((s.onSlice n fun _ => new).raiseN .SLT_EVT_WINDOW n).sliceEvent n 7 0 w.toNat
    else (s.onSlice n fun x => { x with winPend := false }).sliceEvent n 8 stBounds w.toNat

/-- The pool ends at `units` of 64 KiB from now on (R336): windows are cut, contexts whose pockets reach past the end are HALTED and lose their
data, and the slices are told. Those in host memory, which `h` gives, are fetched for it. -/
def poolCut (s0 : State) (h : CtxHost) (units : Nat) : State :=
  let past (c : Ctx) : Bool := c.state != 0 && decide (units * 65536 < c.base + c.size)
  let s := (s0.stored h).foldl (fun s x => if past x.2 then (s.ctxLand h x.1).1 else s) s0
  let cut := (upto s.nSlices).filter fun n => s.sliceState n != 0 && decide (units < field (s.slice n).win 24 16 + field (s.slice n).win 8 0)
  let s1 := cut.foldl (fun s n =>
    let w' := cutWindow units (s.slice n).win
    s.onSlice n fun x => { x with win := w', winN := ~~~ w' }) s
  let hit := s1.ctxs.filter fun x => past x.2.ctx
  let s2 := hit.foldl (fun s x => s.onCtx x.1 fun k => { k with used := 0, ctx := { k.ctx with wrPtr := k.ctx.rdPtr } }) (s1.ctxAll (.cut units))
  cut.foldl (fun s n => (s.raiseN .SLT_EVT_WINDOW n).sliceEvent n 9 0 (s.rd .SLC_WIN n).toNat) s2

/-! ### Commands (R352) -/

/-- A command that names slice ARG0[7:0], which is present. -/
def onSliceCmd (s : State) (c : CmdRec) (body : Nat → State → State) : State :=
  let n := cmdArg0 c.bytes % 256
  if s.nSlices ≤ n then s.cmdDone c.ring c.idx stAbsent 0 else body n s

/-- The same, with the slice in one of some states. -/
def inState (s : State) (c : CmdRec) (states : List Nat) (body : Nat → State → State) : State :=
  s.onSliceCmd c fun n s => if states.contains (s.sliceState n) then body n s else s.cmdDone c.ring c.idx stBounds 0

end State

/-- SLICE_ENABLE. -/
def execSliceEnable (r : Nat) (d : HostRead) (s : State) : Host.Outcome State Fault Refusal :=
  .next (s.withCmd r d (· == 0x40) fun c s => s.inState c [0] fun n s =>
    let st := s.bindStatus n
    if st = stIntegrity then (s.integrity 5 0 0 n 0).cmdDone c.ring c.idx st 0
    else if st ≠ stOk then s.cmdDone c.ring c.idx st 0
    else ((((s.bindSlice n).toSlice n 1).sliceEvent n 1 0 0).sliceAudit n 1).cmdDone c.ring c.idx stOk 0)

/-- SLICE_DISABLE: `others` is how many contexts of the slice are in host memory only. -/
def execSliceDisable (r : Nat) (d : HostRead) (others : Nat) (s : State) : Host.Outcome State Fault Refusal :=
  .next (s.withCmd r d (· == 0x41) fun c s => s.inState c [1, 3] fun n s =>
    if others ≠ 0 ∨ !(s.ctxsOf n).isEmpty ∨ s.rings.any (fun x => x.2.slice == some n) ∨ s.smp.groups.any (fun x => s.ringOf n x.2.ring) ∨
        s.smp.streams.any (fun x => s.ringOf n x.2.ring) then s.cmdDone c.ring c.idx stBounds 0
    else s.resetStart n c true)

/-- SLICE_RING_ALLOT. -/
def execSliceRingAllot (r : Nat) (d : HostRead) (s : State) : Host.Outcome State Fault Refusal :=
  .next (s.withCmd r d (· == 0x42) fun c s =>
    let g := cmdArg0 c.bytes % 1024
    let n := cmdArg1 c.bytes % 256
    let j := nfield (cmdArg1 c.bytes) 13 8
    if s.nRings ≤ g ∨ s.nSlices ≤ n then s.cmdDone c.ring c.idx stAbsent 0
    else if g < 4 ∨ (s.ring g).slice.isSome ∨ s.sliceState n = 0 ∨ (s.ringAt n j).isSome then s.cmdDone c.ring c.idx stBounds 0
    else (s.onRing g fun x => { x with slice := some n, dbIdx := j }).cmdDone c.ring c.idx stOk 0)

/-- SLICE_RING_RECLAIM. -/
def execSliceRingReclaim (r : Nat) (d : HostRead) (s : State) : Host.Outcome State Fault Refusal :=
  .next (s.withCmd r d (· == 0x43) fun c s =>
    let g := cmdArg0 c.bytes % 1024
    if s.nRings ≤ g then s.cmdDone c.ring c.idx stAbsent 0
    else match (s.ring g).slice with
      | some n =>
        if g < 4 ∨ (s.ring g).st ≠ 0 then s.cmdDone c.ring c.idx stBounds 0
        else (s.onRing g fun _ => Ring.init).cmdDone c.ring c.idx stOk ((s.ring g).dbIdx * 256 + n)
      | none => s.cmdDone c.ring c.idx stBounds 0)

/-- SLICE_SHARE: weight and group of a slice on a tree, from the next tick on (R248, R334). -/
def execSliceShare (r : Nat) (d : HostRead) (s : State) : Host.Outcome State Fault Refusal :=
  .next (s.withCmd r d (· == 0x44) fun c s =>
    let t := nfield (cmdArg0 c.bytes) 13 8
    let n := cmdArg0 c.bytes % 256
    let w := cmdArg1 c.bytes % 256
    let g := nfield (cmdArg1 c.bytes) 12 8
    let key := 256 * t + n
    let old := (Tbl.find s.deal.sharePend key).getD (Tbl.get 1 s.deal.share key)
    if s.nPorts ≤ t ∨ s.nSlices ≤ n then s.cmdDone c.ring c.idx stAbsent 0
    else if w = 0 ∨ s.sliceState n = 0 then s.cmdDone c.ring c.idx stBounds 0
    else (s.onDeal fun x => { x with sharePend := Tbl.put x.sharePend key (w + 256 * g) }).cmdDone c.ring c.idx stOk old)

/-- SLICE_RESET. -/
def execSliceReset (r : Nat) (d : HostRead) (s : State) : Host.Outcome State Fault Refusal :=
  .next (s.withCmd r d (· == 0x45) fun c s => s.inState c [1, 2, 3] fun n s => s.resetStart n c false)

/-- SLICE_RESET_DONE. -/
def execSliceResetDone (n : Nat) (s : State) : Host.Outcome State Fault Refusal := .next (s.resetDone n)

/-- SLICE_FREEZE. -/
def execSliceFreeze (r : Nat) (d : HostRead) (s : State) : Host.Outcome State Fault Refusal :=
  .next (s.withCmd r d (· == 0x46) fun c s => s.inState c [1] fun n s => s.onSlice n fun x => { x with freezeCmd := some c.idx })

/-- SLICE_FROZEN: the slice is quiet; `h` gives the pages of the context table. -/
def execSliceFrozen (n : Nat) (h : CtxHost) (s : State) : Host.Outcome State Fault Refusal := .next (s.frozen h n)

/-- SLICE_THAW. -/
def execSliceThaw (r : Nat) (d : HostRead) (s : State) : Host.Outcome State Fault Refusal :=
  .next (s.withCmd r d (· == 0x47) fun c s => s.inState c [3] fun n s => s.onSlice n fun x => { x with thawCmd := some c.idx })

/-- SLICE_QUERY: `others` is how many contexts of the slice are in host memory only. -/
def execSliceQuery (r : Nat) (d : HostRead) (others : Nat) (s : State) : Host.Outcome State Fault Refusal :=
  .next (s.withCmd r d (· == 0x4A) fun c s => s.onSliceCmd c fun n s =>
    let rings := (s.rings.filter fun x => x.2.slice == some n).length
    let ents := (s.entries.filter fun e => e.slice == n && e.forCmd.isNone && e.st != .ended).length
    s.cmdDone c.ring c.idx stOk ((((s.ctxsOf n).length + others) % 2 ^ 25) * 2 ^ 32 + rings % 128 * 2 ^ 24 + min 0x1FFFF ents))

end Sys2Proof.Machine
end

