-- ==== Sys2Proof/Machine/Images.lean ====
section
/-! DEFINITION. Machine/Images.lean: the image of a slice (Tables 10.9, 10.10), SLICE_SAVE and SLICE_RESTORE (R348–R350). -/

namespace Sys2Proof.Machine

def zeros (n : Nat) : List Byte := List.replicate n 0

/-- Bytes padded with zeros to a length, or to a multiple of 8. -/
def padTo (n : Nat) (b : List Byte) : List Byte := b ++ zeros (n - b.length)
def pad8 (b : List Byte) : List Byte := b ++ zeros ((8 - b.length % 8) % 8)

namespace State

/-! ### Saving -/

/-- The RINGS section: 32 bytes for each doorbell index. -/
def imageRings (s : State) (n : Nat) : List Byte :=
  (upto 64).flatMap fun j => match s.ringAt n j with
    | none => zeros 32
    | some r =>
      let g := s.ring r
      let ev := if g.type r = 2 ∨ (s.ring g.evtRing).slice ≠ some n then 0xFF else (s.ring g.evtRing).dbIdx
      leBytes 8 g.geo.toNat ++ leBytes 4 g.head ++ leBytes 4 g.tail ++ leBytes 2 r ++ leBytes 1 g.st ++ leBytes 1 (bit g.phase) ++ leBytes 1 ev ++
        leBytes 1 g.vector ++ zeros 10

/-- An entry record. -/
def imageEntry (s : State) (e : Entry) : List Byte :=
  let td := (e.tds.head?).getD (0, ⟨[]⟩)
  let inbound := match s.classOf e.eph with
    | 0 => setupIn e.setup
    | 1 => false
    | _ => Eph.dir e.eph == 1
  let w0 := (s.ring e.ring).dbIdx * 2 ^ 20 + td.1
  match e.done with
  | some d => leBytes 4 (2 ^ 31 + w0) ++ leBytes 4 d.len ++ leBytes 8 (d.ts.getD 0) ++ leBytes 4 (d.word td.2.tag) ++ leBytes 4 0
  | none => leBytes 4 w0 ++ leBytes 4 (if inbound then e.hostOut else e.moved) ++ leBytes 16 0

/-- The entries of a slice that an image holds. -/
def imageEntries (s : State) (n : Nat) : List Entry := s.entries.filter fun e => e.slice == n && e.forCmd.isNone

/-- The bytes of a pocket that an image holds: events that are not in host memory, with their STAMPs, those of completed transfers first, or received bytes
that are not in host memory. -/
def imagePocket (s : State) (k : CtxSlot) : List Byte :=
  match k.ctx.cls with
  | 3 =>
    ((s.entries.filter fun e => e.eph == k.ctx.eph && e.forCmd.isNone && !transported e).flatMap fun e =>
      leBytes 8 (e.ts.getD 0) ++ e.data.drop e.hostOut) ++ k.events.flatMap fun e => leBytes 8 e.stamp ++ e.bytes
  | 1 => []
  | 2 => []
  | _ => (s.entries.filter fun e => e.eph == k.ctx.eph && e.forCmd.isNone &&
      (if k.ctx.cls = 0 then setupIn e.setup else Eph.dir e.eph == 1)).flatMap fun e => e.data.drop e.hostOut

/-- SLOW of the committed entry of a handle. -/
def slowOf (s : State) (eph : Nat) : Bool := (Tbl.get [] s.sched.active (Eph.port eph)).any fun e => schedEph e.word == eph && schedSlow e.word

/-- The image of a slice; `others` are the contexts in host memory only. With it the length of its fixed part. -/
def image (s : State) (n : Nat) (others : List (List Byte)) (migrate : Bool) (frame : Nat) : List Byte × Nat :=
  let x := s.slice n
  let res := leBytes 4 x.pasid ++ leBytes 4 (2 ^ 32 - 1 - x.pasid) ++ leBytes 4 x.win.toNat ++ leBytes 4 x.winN.toNat ++
    leBytes 8 x.hbase.toNat ++ leBytes 8 x.hbaseN.toNat ++ leBytes 8 x.hlim.toNat ++ leBytes 8 x.hlimN.toNat ++ leBytes 4 x.cntr.toNat ++
    leBytes 4 x.cntrN.toNat
  let trees := (upto 64).flatMap fun t => leBytes 4 (s.resOf n t) ++ leBytes 1 (s.weightOf t n) ++ leBytes 1 (s.groupOf t n) ++ leBytes 2 0
  let box (m : Mailbox) := padTo 256 m.msgs.flatten
  let lens (m : Mailbox) := (m.msgs.take 32).flatMap (fun b => leBytes 1 b.length) |> padTo 32
  let cnts := pad8 ((upto (field x.cntr 15 0)).flatMap fun i => leBytes 2 (Tbl.get 0 s.deal.counters (field x.cntr 31 16 + i)))
  let ents := (s.imageEntries n).flatMap s.imageEntry
  let data := ((s.ctxsOf n).filterMap fun k =>
    let b := s.imagePocket k.2
    if b.isEmpty then none else some (leBytes 4 k.1 ++ leBytes 4 b.length ++ pad8 b)).flatten
  let mine := others.filter fun b => (Ctx.ofBytes b).owner == n && (Ctx.ofBytes b).state != 0
  let ctxs := ((s.ctxsOf n).flatMap fun k => ({ k.2.ctx with priv := bit (s.slowOf k.1) } : Ctx).toBytes) ++
    mine.flatMap fun b => ({ s.caughtUp (Ctx.ofBytes b).eph (Ctx.ofBytes b) with priv := bit (s.slowOf (Ctx.ofBytes b).eph) } : Ctx).toBytes
  let oEnt := 0x1000 + cnts.length
  let oData := oEnt + ents.length
  let oCtx := oData + data.length
  let len := oCtx + ctxs.length
  let head := leBytes 4 1 ++ leBytes 4 len ++ leBytes 4 (ctxs.length / 64) ++ leBytes 1 n ++ leBytes 1 (bit migrate) ++
    leBytes 2 (s.imageEntries n).length ++ leBytes 4 frame ++ leBytes 4 0 ++ leBytes 8 s.tim.now ++ res ++ leBytes 8 0 ++ leBytes 4 0x1000 ++
    leBytes 4 oEnt ++ leBytes 4 oData ++ leBytes 4 oCtx ++ zeros 140
  let body := trees ++ box x.down ++ box x.upw ++ lens x.down ++ lens x.upw ++ zeros 0x2C0 ++ s.imageRings n ++ cnts ++ ents ++ data ++ ctxs
  (head ++ leBytes 4 (crc32c (head ++ zeros 4 ++ body)).toNat ++ body, oCtx)

/-- The image written for a command, or why not (R348). -/
def saveImage (s : State) (n : Nat) (others : List (List Byte)) (migrate : Bool) (frame idx : Nat) (b : List Byte) : State :=
  let done (s : State) (st res : Nat) : State := s.cmdDone 0 idx st res
  let (img, fixed) := s.image n others migrate frame
  if 262144 < fixed ∨ 4096 < (s.imageEntries n).length then done s stOverbooked 0
  else if cmdArg1 b % 2 ^ 32 < img.length then done s stLength 0
  else
    let fs := if migrate then frame else 0
    done ((s.emits (confirmed 0 (cmdArg0 b) img)).sliceEvent n 5 0 fs) stOk (fs * 2 ^ 32 + img.length)

/-- The endpoints of a slice allow a migration (R350): each lies below a dual-upstream hub that serves no other slice. -/
def mayMigrate (s : State) (n : Nat) (others : List (List Byte)) : Bool :=
  let all := (s.ctxs.filter fun x => x.2.ctx.state != 0).map (fun x => (x.1, x.2.ctx.owner)) ++
    (others.filter fun b => (Ctx.ofBytes b).state != 0).map fun b => ((Ctx.ofBytes b).eph, (Ctx.ofBytes b).owner)
  all.all fun x => x.2 != n ||
    (s.flagN .PRT_STS_PEER_DUAL_UP (Eph.port x.1) && all.all fun y => Eph.port y.1 != Eph.port x.1 || y.2 == n)

/-- SLICE_SAVE of a FROZEN slice. With MIGRATE the slice is parked from F_s, the frame after next, and its image waits for that. -/
def sliceSave (s : State) (c : CmdRec) (others : List (List Byte)) : State :=
  let n := cmdArg2 c.bytes % 256
  let migrate := nfield (cmdArg1 c.bytes) 32 32 == 1
  let done (st : Nat) : State := s.cmdDone c.ring c.idx st 0
  if s.nSlices ≤ n ∨ (migrate ∧ s.hasTwin = false) then done stAbsent
  else if s.sliceState n ≠ 3 then done stBounds
  else if !migrate then s.saveImage n others false s.frameNo c.idx c.bytes
  else if !s.mayMigrate n others then done stBounds
  else
    let (img, fixed) := s.image n others true s.frameNo
    if 262144 < fixed ∨ 4096 < (s.imageEntries n).length then done stOverbooked
    else if cmdArg1 c.bytes % 2 ^ 32 < img.length then done stLength
    else (s.onCmd c.ring c.idx fun x => { x with arg := (s.frameNo + 2) % 2 ^ 32 }).onSlice n fun x => { x with
      parkAt := some ((s.frameNo + 2) % 2 ^ 32), saving := some (c.idx, others) }

/-- A parked slice: PARKED shows from F_s on, and the image of a migration is written once its last transaction has completed. -/
def saveTick (s : State) (frame n : Nat) : State :=
  match (s.slice n).parkAt with
  | none => s
  | some f =>
    if later32 f frame then s
    else
      let s1 := s.fsetN .SLC_STS_PARKED n 1
      match (s.slice n).saving with
      | some (idx, others) =>
        if s1.txns.any fun x => s1.ownedBy n x.eph then s1
        else match s1.cmd? 0 idx with
          | some c => (s1.onSlice n fun x => { x with saving := none }).saveImage n others true c.arg idx c.bytes
          | none => s1.onSlice n fun x => { x with saving := none }
      | none => s1

/-! ### Restoring (R349) -/

/-- FORMAT, LENGTH, CRC and the RESOURCES pairs. -/
def imageOk (b : List Byte) : Bool :=
  let g (o n : Nat) : Nat := leNat (Sys2Proof.slice o n b)
  let pair (o n : Nat) : Bool := g (o + n) n == 2 ^ (8 * n) - 1 - g o n
  g 0 4 == 1 && g 4 4 == b.length && decide (0x1000 ≤ b.length) &&
  g 252 4 == (crc32c (b.take 252 ++ zeros 4 ++ b.drop 256)).toNat &&
  pair 32 4 && pair 40 4 && pair 48 8 && pair 64 8 && pair 80 4

/-- The ring of the target for a doorbell index of the image, and for a ring number of the source. -/
def imageRing (b : List Byte) (j : Nat) : List Byte := Sys2Proof.slice (0x800 + 32 * j) 32 b
def indexUsed (b : List Byte) (j : Nat) : Bool := !(imageRing b j).all (· == 0)
def targetRing (s : State) (b : List Byte) (n r : Nat) : Option Nat :=
  ((upto 64).find? fun j => indexUsed b j && leNat (Sys2Proof.slice 16 2 (imageRing b j)) == r).bind fun j => s.ringAt n j

/-- Check 3 of R349. -/
def imageFits (s : State) (b : List Byte) (n : Nat) : Bool :=
  let g (o k : Nat) : Nat := leNat (Sys2Proof.slice o k b)
  (s.rd .SLC_CNTR n).toNat == g 80 4 &&
  decide (s.fgetN .SLC_HBASE_BASE n ≤ g 48 8 / 4096 ∧ g 64 8 / 4096 ≤ s.fgetN .SLC_HLIM_LIMIT n) &&
  decide (g 40 4 % 512 ≤ s.fgetN .SLC_WIN_SIZE n) &&
  (upto 64).all fun j => !indexUsed b j || (match s.ringAt n j with
    | some r => (s.ring r).st == 0
    | none => false)

/-- The local handle of an image's handle: on a migration its port is the one that reaches the same hub (R350, R381). -/
def localEph (s : State) (migrate : Bool) (eph : Nat) : Nat :=
  if migrate then (match s.fromPartner (Eph.port eph) with
    | some p => ephPort eph p
    | none => eph)
  else eph

/-- An image's context relocated to its target. -/
def relocate (s : State) (b : List Byte) (n : Nat) (migrate : Bool) (c : Ctx) : Ctx :=
  let key0 := nset c.key0 24 0 (s.localEph migrate c.eph)
  let key1 := nset c.key1 47 40 n
  let base := nfield c.key2 31 19 + (s.fgetN .SLC_WIN_BASE n) * 16 - (leNat (Sys2Proof.slice 40 4 b) / 65536 % 512) * 16
  let key2 := nset (nset c.key2 31 19 base) 9 0 ((s.targetRing b n c.ring).getD 0)
  { c with key0 := key0, key0n := 2 ^ 32 - 1 - key0 % 2 ^ 32, key1 := key1, key1n := 2 ^ 64 - 1 - key1 % 2 ^ 64, key2 := key2,
           key2n := 2 ^ 32 - 1 - key2 % 2 ^ 32 }

/-- Check 4 on one context: its relocated form and a status; a port or coder that is absent comes before any fetch (R5). -/
def contextFits (s : State) (h : CtxHost) (b : List Byte) (n : Nat) (migrate : Bool) (c : Ctx) : State × Ctx × Nat :=
  let c' := s.relocate b n migrate c
  if c.keysOk ∧ (s.nPorts ≤ Eph.port c'.eph ∨ s.imageAbsent c' = true) then (s, c', stAbsent)
  else
  let (s1, _) := s.ctxGet h c'.eph
  let free : Bool := match s1.ctx? c'.eph with
    | some k => k.ctx.state == 0 || k.ctx.shadow
    | none => true
  (s1, c', if !c.keysOk then stIntegrity else if !s1.ctxOk c'.eph c' || !free then stBounds else stOk)

/-- Every context. -/
def contextsFit (s : State) (h : CtxHost) (b : List Byte) (n : Nat) (migrate : Bool) : List Ctx → State × List Ctx × Nat
  | [] => (s, [], stOk)
  | c :: r =>
    let (s1, c', st) := s.contextFits h b n migrate c
    if st ≠ stOk then (s1, [], st)
    else
      let (s2, l, st2) := s1.contextsFit h b n migrate r
      (s2, c' :: l, st2)

/-- The events of a pocket; the image does not say how its bytes divide, `lens` does, nor their time-quality class: they take `q`. -/
def imageEvents (q : Nat) : List Nat → List Byte → List PktEvent
  | [], b => if b.length ≤ 8 then [] else [⟨leNat (b.take 8), b.drop 8, false, q⟩]
  | n :: r, b => if b.length ≤ 8 then [] else ⟨leNat (b.take 8), (b.drop 8).take n, false, q⟩ :: imageEvents q r (b.drop (8 + n))

/-- The pocket records of the DATA section; the fuel is its length. -/
def dataRecords : Nat → List Byte → List (Nat × List Byte)
  | 0, _ => []
  | k + 1, b =>
    if b.length < 8 then []
    else
      let n := leNat (Sys2Proof.slice 4 4 b)
      (leNat (b.take 4), Sys2Proof.slice 8 n b) :: dataRecords k (b.drop (8 + n + (8 - n % 8) % 8))

/-- A relocated context installed with what its pocket holds. A shadow that it replaces keeps its place in the cache. -/
def restoreCtx (s : State) (h : CtxHost) (c : Ctx) (bytes : List Byte) (lens : List Nat) : State :=
  let old := s.ctx? c.eph
  let pinned : Bool := match old with
    | some k => k.ctx.resident
    | none => false
  let standby := s.shared (Eph.port c.eph) && !s.owns (Eph.port c.eph)
  let evs := if c.cls = 3 then imageEvents s.tim.tickClass lens bytes else []
  let c1 := { (c.setResident pinned).setShadow standby with rdPtr := 0, wrPtr := bytes.length % c.size % 2 ^ 20, priv := 0 }
  let s1 := if old.isSome then s else (s.ctxRoom h).1
  let s2 := ((s1.ctxForget c.eph).ctxIn c.eph c1).onCtx c.eph fun k => { k with
    events := evs, used := if c.cls = 3 then (evs.map fun e => e.bytes.length).foldl (· + ·) 0 else bytes.length, dirty := true }
  { s2 with pool := Memory.writeRing s2.pool c.base c.size 0 bytes }

/-- The rings of the image. -/
def restoreRings (s : State) (b : List Byte) (n : Nat) : State :=
  (upto 64).foldl (fun s j =>
    match indexUsed b j, s.ringAt n j with
    | true, some r =>
      let w := imageRing b j
      let g (o k : Nat) : Nat := leNat (Sys2Proof.slice o k w)
      let geo : DWord := BitVec.ofNat 64 (g 0 8)
      let head := g 8 4
      let tail := g 12 4
      let size := 2 ^ field geo 9 5
      let bells := if head = tail then [] else [((tail + size - head) % size, s.deal.bellSeq + 1)]
      (s.onRing r fun x => { x with
        geo := geo, geoN := ~~~ geo, head := head, tail := tail, st := g 18 1, phase := g 19 1 == 1, vector := g 21 1,
        evtRing := (s.ringAt n (g 20 1)).getD 0, bells := bells }).onDeal fun d => { d with bellSeq := d.bellSeq + 1 }
    | _, _ => s) s

/-- The event of an EVENT pocket that a completed transfer had taken when the image was made: the one with the record's STAMP and COUNT. It is the transfer's,
and no unread one, but its bytes stay in the pocket until they are transported. -/
def restoreTaken (s : State) (eph : Nat) (w : List Byte) : State × List Byte :=
  let hit (e : PktEvent) : Bool := nfield (leNat (w.take 4)) 31 31 == 1 && e.stamp == leNat (Sys2Proof.slice 8 8 w) &&
    e.bytes.length == leNat (Sys2Proof.slice 4 4 w)
  match (s.ctx? eph).bind fun k => k.events.find? hit with
  | some e => (s.onCtx eph fun k => { k with events := k.events.eraseP hit }, e.bytes)
  | none => (s, [])

/-- One entry record; `imgs` and `bufs` are its TDs and their buffers as read again, `rest` what its pocket held. -/
def restoreEntry (s : State) (n : Nat) (w : List Byte) (imgs bufs : List HostRead) (rest : List Byte) : State :=
  let g (o k : Nat) : Nat := leNat (Sys2Proof.slice o k w)
  match s.ringAt n (nfield (g 0 4) 25 20) with
  | none => s
  | some r =>
    let size := (s.ring r).size
    let tds := imgs.filterMap fun x => match x with
      | .ok b => some (Td.mk b)
      | .failed => none
    let e := s.newEntry r (tds.mapIdx fun i t => ((nfield (g 0 4) 19 0 + i) % size, t)) bufs
    let st := g 16 4
    let cnt := g 4 4
    let done : Option Done := if nfield (g 0 4) 31 31 = 1 then
        some ⟨st / 2 ^ 24, cnt, nfield st 23 23 == 1, if nfield st 22 22 = 1 then none else some (g 8 8), nfield st 21 19, nfield st 18 18 == 1⟩
      else none
    let inbound := Eph.dir e.eph == 1 || (e.kind == 1 && setupIn e.setup)
    let data := if inbound then zeros (cnt - (if done.isSome then rest.length else 0)) ++ rest else e.data
    let hostOut := if inbound then data.length - rest.length else 0
    let e1 := { e with
      isEntry := true, st := if done.isSome then .done else .waiting, delay := none, done := done, data := data, hostOut := hostOut,
      moved := if inbound then data.length else cnt, counted := (doneOf e).isSome, started := decide (0 < cnt) }
    { s with entries := s.entries ++ [e1] }.onDeal fun d => { d with nextId := d.nextId + 1 }

/-- Every entry record, in take order. Bytes of a pocket belong to the entry of its endpoint that is not DONE, else to its last one. -/
def restoreEntries (s : State) (b : List Byte) (n : Nat) (migrate : Bool) (tds : List (List HostRead × List HostRead))
    (data : List (Nat × List Byte)) : State :=
  let cnt := leNat (Sys2Proof.slice 14 2 b)
  let ofs := leNat (Sys2Proof.slice 100 4 b)
  let s1 := (upto cnt).foldl (fun s i =>
    let x := (tds.drop i).head?.getD ([], [])
    let eph := match x.1.head? with
      | some (.ok t) => s.localEph migrate (Td.mk t).eph
      | _ => 0
    let w := Sys2Proof.slice (ofs + 24 * i) 24 b
    let later := (upto cnt).any fun k => decide (i < k) && (match ((tds.drop k).head?.getD ([], [])).1.head? with
      | some (.ok t) => s.localEph migrate (Td.mk t).eph == eph
      | _ => false)
    let notDone := nfield (leNat (w.take 4)) 31 31 == 0
    let got := s.entries.any fun e => e.eph == eph && e.slice == n && e.done.isNone
    let rest := if (notDone && !got) || (!later && !got) then ((data.find? fun d => s.localEph migrate d.1 == eph).map Prod.snd).getD [] else []
    let (s, rest) := if s.classOf eph == 3 then s.restoreTaken eph w else (s, rest)
    s.restoreEntry n w x.1 x.2 rest) s
  { s1 with entries := s1.entries.map fun e => if e.slice = n then { e with eph := s1.localEph migrate e.eph } else e }

/-- Counters, reservations, weights and mailboxes of the image. -/
def restoreShares (s : State) (b : List Byte) (n : Nat) : State :=
  let g (o k : Nat) : Nat := leNat (Sys2Proof.slice o k b)
  let cb := field (s.slice n).cntr 31 16
  let s1 := (upto (field (s.slice n).cntr 15 0)).foldl (fun s i =>
    let v := g (g 96 4 + 2 * i) 2
    if v = 0 then s else s.onDeal fun d => { d with counters := Tbl.put d.counters (cb + i) v }) s
  let s2 := (upto s.nPorts).foldl (fun s t =>
    let o := 0x100 + 8 * t
    (s.onSched fun c => { c with res := Tbl.put c.res (256 * t + n) (g o 4) }).onDeal fun d => { d with
      share := Tbl.put d.share (256 * t + n) (g (o + 4) 1 + 256 * (g (o + 5) 1 % 32)) }) s1
  let msgs (o l : Nat) : List (List Byte) :=
    ((((upto 32).map fun i => g (l + i) 1).takeWhile (· != 0)).foldl (fun (w : Nat × List (List Byte)) k =>
      (w.1 + k, w.2 ++ [Sys2Proof.slice (o + w.1) k b])) (0, [])).2
  s2.onSlice n fun x => { x with down := { x.down with msgs := msgs 0x300 0x500 }, upw := { x.upw with msgs := msgs 0x400 0x520 } }

/-- The change that a resident context of an image asks of the periodic tables (check 5). -/
def restoreChange (s : State) (c : Ctx) : DWord × DWord :=
  let w : DWord := BitVec.ofNat 64 (c.eph + nfield c.priv 0 0 * 2 ^ 29 + (if s.inTable c.eph then 2 else 0) * 2 ^ 30 + c.phase * 2 ^ 32 +
    c.burst * 2 ^ 52 + c.intExp * 2 ^ 56)
  (w, ~~~ w)

/-- SLICE_RESTORE: its periodic entries are admitted as one batch under R212, and its reservations keep the third invariant of R209 (log entry 110).
`img` is the image as read, `tds` the TDs and buffers of its entry records, `cuts` the lengths of its events by handle,
`h` what the fetches of the contexts found. -/
def sliceRestore (s : State) (c : CmdRec) (img : HostRead) (tds : List (List HostRead × List HostRead)) (cuts : List (Nat × List Nat))
    (h : CtxHost) : State :=
  let n := cmdArg2 c.bytes % 256
  let migrate := nfield (cmdArg1 c.bytes) 32 32 == 1
  let fail (s : State) (st : Nat) : State := s.cmdDone c.ring c.idx st 0
  if s.nSlices ≤ n ∨ (migrate ∧ s.hasTwin = false) then fail s stAbsent
  else if s.sliceState n ≠ 0 then fail s stBounds
  else if s.bindStatus n = stIntegrity then fail (s.integrity 5 0 0 n 0) stIntegrity
  else if s.bindStatus n ≠ stOk then fail s (s.bindStatus n)
  else match img with
    | .failed => fail s stHostError
    | .ok all =>
      let b := all.take (leNat (Sys2Proof.slice 4 4 all))
      if !imageOk b || decide (cmdArg1 c.bytes % 2 ^ 32 < b.length) then fail s stIntegrity
      else if !s.imageFits b n then fail s stBounds
      else
        let g (o k : Nat) : Nat := leNat (Sys2Proof.slice o k b)
        let src := (upto (g 8 4)).map fun i => Ctx.ofBytes (Sys2Proof.slice (g 108 4 + 64 * i) 64 b)
        let s1 := s.bindSlice n
        let (s2, ctxs, st) := s1.contextsFit h b n migrate src
        if st ≠ stOk then fail s st
        else
          let data := dataRecords b.length (Sys2Proof.slice (g 104 4) (g 108 4 - g 104 4) b)
          let bytesOf (c : Ctx) : List Byte := ((data.find? fun d => s.localEph migrate d.1 == c.eph).map Prod.snd).getD []
          let s3 := (ctxs.foldl (fun s c => s.restoreCtx h c (bytesOf c)
            (((cuts.find? fun x => s.localEph migrate x.1 == c.eph).map Prod.snd).getD [])) s2).restoreShares b n
          let changes := (ctxs.filter Ctx.resident).map s3.restoreChange
          let bat : Batch :=
            { kind := .restore n, cmd := some (c.ring, c.idx), slice := none, changes := changes,
              at_ := if migrate then some ((g 16 4 + 2) % 2 ^ 32) else none, frate := s.frate,
              rates := (upto s.nPorts).map fun p => (p, s.byteTime p), admitted := false, staged := [], atomic := true, commitAt := 0, toSwitch := [] }
          let (s3, f1) := s3.changesCheck h bat 0 [] changes
          let staged := s3.stagedOf changes
          let f2 := if changes.isEmpty then none else (f1.or (s3.capacityFail bat staged)).or (s3.frateFail bat.frate)
          let f3 := f2.or ((upto s.nPorts).findSome? fun t => s3.sumFail (s3.byteSoon t) t)
          let refuse (f : AdmFail) : State := (s.admRefuse f c.ring 0 .SCH_ADM_EVT_BATCH_REFUSED).cmdDone c.ring c.idx f.status f.result
          match f3, s3.commitFrame bat with
          | some f, _ => refuse f
          | none, none => refuse ⟨stBounds, 1, 0, 0, 0, 0, 0⟩
          | none, some cf =>
            let s4 := ((s3.restoreRings b n).restoreEntries b n migrate tds data)
            let s5 := if changes.isEmpty then s4
              else
                let s5 := changes.foldl (fun s x => s.ctxPin (schedEph x.1) true) s4
                s5.onSched fun m => { m with batch := some { bat with
                  admitted := true, staged := staged, atomic := staged.length == 1 || decide (changes.length ≤ 512), commitAt := cf,
                  toSwitch := staged.map Prod.fst } }
            let hubs := if migrate then s5.sharedTrees.filter fun p => ctxs.any fun c => Eph.port c.eph == p else []
            let s6 := hubs.foldl (fun s p => s.claimTree p true cf false none 0 s.tim.now) s5
            (((s6.toSlice n 3).sliceEvent n 6 0 0).sliceAudit n 4).cmdDone c.ring c.idx stOk ctxs.length

end State

/-- SLICE_SAVE: `others` are the installed contexts that are in host memory only. -/
def execSliceSave (r : Nat) (d : HostRead) (others : List (List Byte)) (s : State) : Host.Outcome State Fault Refusal :=
  .next (s.withCmd r d (· == 0x48) fun c s => s.sliceSave c others)

/-- SLICE_RESTORE; its own batch is admitted with it, so it waits for its turn: while a batch is admitted or committed, or waits (R211), and while a change
that fell due has still to be checked or a root port to switch (R221). -/
def execSliceRestore (r : Nat) (d img : HostRead) (tds : List (List HostRead × List HostRead)) (cuts : List (Nat × List Nat)) (h : CtxHost)
    (s : State) : Host.Outcome State Fault Refusal :=
  .next (if s.sched.batch.isSome || !s.sched.queue.isEmpty || s.sched.held || s.switching then s else s.withCmd r d (· == 0x49) fun c s => s.sliceRestore c img tds cuts h)

end Sys2Proof.Machine
end

