-- ==== Sys2Proof/Machine/Gather.lean ====
section
/-! DEFINITION. Machine/Gather.lean: the gather and coder commands (R270, R281, R283, R296). -/

namespace Sys2Proof.Machine

namespace State

/-- A command that names an existing group (or stream) whose ring its issuer owns, in a slice that may change. -/
def onSampleRing (s : State) (c : CmdRec) (ring : Option Nat) (fixed : Bool) (body : State → State) : State :=
  match ring with
  | none => s.cmdDone c.ring c.idx stBounds 0
  | some r =>
    let owner := (s.ring r).slice
    if !cmdOwns c owner || (fixed && owner.any s.sliceFixed) then s.cmdDone c.ring c.idx stBounds 0 else body s

/-- The members of a group descriptor (Table 8.7). -/
def gatherMembers (b : List Byte) : List (Nat × Int) :=
  (upto (leNat (Sys2Proof.slice 12 2 b))).map fun m =>
    (leNat (Sys2Proof.slice (16 + 8 * m) 4 b), signedOf 32 (leNat (Sys2Proof.slice (20 + 8 * m) 4 b)))

/-- What checks 4 and 5 of Table 8.8 find: their statuses, the largest MPS, and that a member is another slice's endpoint (R195). -/
structure MemberFind where
  found : Nat
  fits : Nat
  mps : Nat
  foreign : Bool
  deriving DecidableEq, Repr

/-- Checks 4 and 5 of Table 8.8 on one member. -/
def memberStatus (s : State) (h : CtxHost) (ring g m deadline eph : Nat) : State × MemberFind :=
  let (s1, st) := s.ctxGet h eph
  match st, s1.ctx? eph with
  | 0, some k =>
    let c := k.ctx
    let other := (s.ring ring).slice != some c.owner
    if k.bad || c.cls != 2 || other || c.mode != 1 || c.group != g || c.member != m then (s1, ⟨stBounds, stOk, 0, other⟩)
    else (s1, ⟨stOk, if c.size < (deadline + 2) * (c.burst + 1) * c.mps then stLength else stOk, c.mps, false⟩)
  | _, _ => (s1, ⟨stBounds, stOk, 0, false⟩)

/-- Every member: the first failure of check 4, the first of check 5, and the largest MPS. -/
def memberStatuses (s : State) (h : CtxHost) (ring g deadline : Nat) : Nat → List (Nat × Int) → State × MemberFind
  | _, [] => (s, ⟨stOk, stOk, 0, false⟩)
  | m, x :: r =>
    let (s1, a) := s.memberStatus h ring g m deadline x.1
    let (s2, b) := s1.memberStatuses h ring g deadline (m + 1) r
    (s2, ⟨if a.found ≠ stOk then a.found else b.found, if a.fits ≠ stOk then a.fits else b.fits, max a.mps b.mps, a.foreign || b.foreign⟩)

/-- A handle's port is absent (R5). -/
def ephAbsent (s : State) (eph : Nat) : Bool := decide (s.nPorts ≤ Eph.port eph)

/-- Every number of a list occurs once. -/
def distinct : List Nat → Bool
  | [] => true
  | x :: r => !r.contains x && distinct r

/-- GATHER_CREATE: `img` is the descriptor as read (Table 8.8, in its order). -/
def gatherCreate (s : State) (h : CtxHost) (img : HostRead) (c : CmdRec) : State :=
  let id := cmdArg1 c.bytes % 256
  let done (s : State) (st : Nat) : State := s.cmdDone c.ring c.idx st 0
  let st0 := s.hostStatus c.slice (cmdArg0 c.bytes) 16
  if (s.group id).isSome then done s stBounds
  else if st0 ≠ stOk then (done s st0).boundsBroken c.slice st0
  else match img with
  | .failed => done s stHostError
  | .ok b =>
    let g (o n : Nat) : Nat := leNat (Sys2Proof.slice o n b)
    let srate := g 0 4
    let gofs := g 4 4
    let window := g 8 2
    let deadline := g 10 1
    let n := g 12 2
    let ring := g 14 2 % 1024
    let ms := gatherMembers b
    let st := s.hostStatus c.slice (cmdArg0 c.bytes) (16 + 8 * n)
    let owner := (s.ring ring).slice
    let used : Bool := (s.smp.groups.any fun x => x.2.ring == ring) || s.smp.streams.any fun x => x.2.ring == ring
    if g 11 1 ≠ 0 ∨ g 14 2 ≠ ring ∨ ms.any (fun m => decide (2 ^ 25 ≤ m.1)) = true then done s stBounds
    else if st ≠ stOk then (done s st).boundsBroken c.slice st
    else if decide (s.nRings ≤ ring) || ms.any fun m => s.ephAbsent m.1 then done s stAbsent
    else if !cmdOwns c owner || (c.slice.isSome && ring == c.ring) then s.cmdForeign c
    else if !s.streamRing ring || used || owner.any s.sliceFixed then done s stBounds
    else if !(decide (1 ≤ srate ∧ srate ≤ 1000000) && decide (gofs < 1000000000 / srate) && decide (window ≤ 1000) &&
        decide (1 ≤ deadline ∧ deadline ≤ 64) && decide (1 ≤ n ∧ n ≤ 256) && decide (2 * window < 1000000000 / srate)) then done s stLength
    else
      let (s1, x) := s.memberStatuses h ring id deadline 0 ms
      let bytes := (s.ring ring).size * (s.ring ring).entryBytes ring
      if c.slice.isSome && x.foreign then s1.cmdForeign c
      else if x.found ≠ stOk ∨ distinct (ms.map Prod.fst) = false then done s1 stBounds
      else if x.fits ≠ stOk ∨ bytes < 2 * (32 + 8 * n + n * x.mps) then done s1 stLength
      else if 256 ≤ s1.smp.groups.length ∨ 8192 < (s1.smp.groups.map fun x => x.2.members.length).foldl (· + ·) 0 + n then done s1 stOverbooked
      else
        let new : Group := ⟨srate, gofs, window, deadline, ring, ms, [], none, [], []⟩
        done (s1.onSmp fun m => { m with groups := Tbl.put m.groups id new }) stOk

/-- GATHER_DESTROY: every open set is emitted in T order with FORCED = 1; the command completes with their records (R281). -/
def gatherDestroy (s : State) (c : CmdRec) : State :=
  let id := cmdArg1 c.bytes % 256
  s.onSampleRing c ((s.group id).map Group.ring) true fun s =>
    let sets := ((s.group id).map Group.sets).getD []
    let s1 := sets.foldl (fun s o => match s.group id with
      | some g => s.emitSet id g o true
      | none => s) s
    (s1.onGroup id fun g => { g with destroy := g.destroy ++ [(c.ring, c.idx)] }).sampleDone.slotsFreed

/-- GATHER_QUERY. -/
def gatherQuery (s : State) (c : CmdRec) : State :=
  let id := cmdArg1 c.bytes % 256
  s.onSampleRing c ((s.group id).map Group.ring) false fun s => match s.group id with
    | some g =>
      let (s1, last) := match g.upTo with
        | some j => (s, toBits 32 j)
        | none => (s.draw, s.freeValue % 2 ^ 32)
      s1.cmdDone c.ring c.idx stOk (g.sets.length % 4096 * 2 ^ 32 + last)
    | none => s

/-- Every trigger of a stream names an EVENT endpoint of an owner; and one names another slice's endpoint (R195). -/
def triggerOk (s : State) (h : CtxHost) (owner : Nat) : List Nat → State × Bool × Bool
  | [] => (s, true, false)
  | e :: r =>
    let (s1, st) := s.ctxGet h e
    let (ok, other) : Bool × Bool := match st, s1.ctx? e with
      | 0, some k => (!k.bad && k.ctx.cls == 3 && k.ctx.owner == owner, k.ctx.owner != owner)
      | _, _ => (false, false)
    let (s2, rest, others) := s1.triggerOk h owner r
    (s2, ok && rest, other || others)

/-- CODER_ATTACH: `img` is the descriptor as read (Table 8.13). -/
def coderAttach (s : State) (h : CtxHost) (img : HostRead) (c : CmdRec) : State :=
  let k := cmdArg1 c.bytes % 64
  let done (s : State) (st : Nat) : State := s.cmdDone c.ring c.idx st 0
  let st := s.hostStatus c.slice (cmdArg0 c.bytes) 48
  if !s.hasCoder then done s stAbsent
  else if st ≠ stOk then (done s st).boundsBroken c.slice st
  else match img with
    | .failed => done s stHostError
    | .ok b =>
      let g (o n : Nat) : Nat := leNat (Sys2Proof.slice o n b)
      let eph := g 0 4
      let ring := g 4 2
      let trig := (upto 4).map fun i => g (24 + 4 * i) 4
      let tephs := (trig.filter fun t => 2 ^ 31 ≤ t).map fun t => t % 2 ^ 25
      let ch := g 6 1 % 64 + 1
      if 2 ^ 25 ≤ eph ∨ 1024 ≤ ring ∨ 16 ≤ g 7 1 ∨ g 21 3 ≠ 0 ∨ g 40 8 ≠ 0 ∨ trig.any (fun t => nfield t 30 25 != 0) = true ∨ (s.coder k).isSome
        then done s stBounds
      else if s.ephAbsent eph || decide (s.nRings ≤ ring) || tephs.any s.ephAbsent then done s stAbsent
      else
        let (s1, st1) := s.ctxGet h eph
        match st1, s1.ctx? eph with
        | 0, some x =>
          let o := x.ctx.owner
          if !cmdOwns c (some o) then s1.cmdForeign c
          else if x.bad || x.ctx.cls != 2 || x.ctx.mode != 2 || x.ctx.link % 64 != k || s1.sliceFixed o then done s1 stBounds
          else
            let (s2, ok, other) := s1.triggerOk h o tephs
            if c.slice.isSome && (other || (s2.ring ring).slice != some o || ring == c.ring) then s2.cmdForeign c
            else if !s2.streamRing ring || (s2.ring ring).slice != some o || (s2.smp.groups.any fun y => y.2.ring == ring) || !ok then done s2 stBounds
            else if g 6 1 / 64 = 3 ∨ 12 < g 7 1 ∨ g 20 1 = 0 ∨ 64 < g 20 1 ∨ g 8 4 = 0 then done s2 stLength
            else if 128 < (s2.smp.streams.map fun y => y.2.ch).foldl (· + ·) 0 + ch then done s2 stOverbooked
            else
              let new : CoderStream :=
                ⟨eph, ring, g 6 1 / 64, ch, g 7 1, g 8 4, g 12 4, g 16 2, g 18 2, g 20 1, tephs, [], none, none, [], 0, none, [], []⟩
              done (s2.onSmp fun m => { m with streams := Tbl.put m.streams k new }) stOk
        | _, _ => done s1 stBounds

/-- CODER_DETACH: the blocks in progress close with DETACH = 1; the command completes with their records. -/
def coderDetach (s : State) (c : CmdRec) : State :=
  let k := cmdArg1 c.bytes % 64
  if !s.hasCoder then s.cmdDone c.ring c.idx stAbsent 0
  else s.onSampleRing c ((s.coder k).map CoderStream.ring) true fun s =>
    ((s.closeSpan k false true).onCoder k fun x => { x with detach := x.detach ++ [(c.ring, c.idx)] }).sampleDone

/-- CODER_QUERY. -/
def coderQuery (s : State) (c : CmdRec) : State :=
  let k := cmdArg1 c.bytes % 64
  if !s.hasCoder then s.cmdDone c.ring c.idx stAbsent 0
  else s.onSampleRing c ((s.coder k).map CoderStream.ring) false fun s => match s.coder k with
    | some x =>
      let (s1, last) := match x.lastCseq with
        | some n => (s, n % 2 ^ 32)
        | none => (s.draw, s.freeValue % 2 ^ 32)
      s1.cmdDone c.ring c.idx stOk (x.closed.length * x.ch % 65536 * 2 ^ 32 + last)
    | none => s

end State

/-- What a group descriptor (Table 8.7) or a stream descriptor (Table 8.13) names: its ring and its endpoints (R194). -/
def gatherNames : HostRead → List (Nat × Nat)
  | .ok b => (0, leNat (Sys2Proof.slice 14 2 b) % 1024) :: (State.gatherMembers b).map fun m => (1, m.1)
  | .failed => []
def coderNames : HostRead → List (Nat × Nat)
  | .ok b =>
    (0, leNat (Sys2Proof.slice 4 2 b)) :: (1, leNat (Sys2Proof.slice 0 4 b)) ::
      (((upto 4).map fun i => leNat (Sys2Proof.slice (24 + 4 * i) 4 b)).filter fun t => 2 ^ 31 ≤ t).map fun t => (1, t % 2 ^ 25)
  | .failed => []

/-- GATHER_CREATE. -/
def execGatherCreate (r : Nat) (d img : HostRead) (h : CtxHost) (s : State) : Host.Outcome State Fault Refusal :=
  .next (s.withCmd r d (· == 0x58) (fun c s => s.gatherCreate h img c) (gatherNames img))

/-- GATHER_DESTROY. -/
def execGatherDestroy (r : Nat) (d : HostRead) (s : State) : Host.Outcome State Fault Refusal :=
  .next (s.withCmd r d (· == 0x59) fun c s => s.gatherDestroy c)

/-- GATHER_QUERY. -/
def execGatherQuery (r : Nat) (d : HostRead) (s : State) : Host.Outcome State Fault Refusal :=
  .next (s.withCmd r d (· == 0x5A) fun c s => s.gatherQuery c)

/-- CODER_ATTACH. -/
def execCoderAttach (r : Nat) (d img : HostRead) (h : CtxHost) (s : State) : Host.Outcome State Fault Refusal :=
  .next (s.withCmd r d (· == 0x5B) (fun c s => s.coderAttach h img c) (coderNames img))

/-- CODER_DETACH. -/
def execCoderDetach (r : Nat) (d : HostRead) (s : State) : Host.Outcome State Fault Refusal :=
  .next (s.withCmd r d (· == 0x5C) fun c s => s.coderDetach c)

/-- CODER_QUERY. -/
def execCoderQuery (r : Nat) (d : HostRead) (s : State) : Host.Outcome State Fault Refusal :=
  .next (s.withCmd r d (· == 0x5D) fun c s => s.coderQuery c)

end Sys2Proof.Machine
end

