-- ==== Sys2Proof/Machine/Start.lean ====
section
/-! DEFINITION. Machine/Start.lean: the health state and its record (R444–R451), ember memory (R433, R434), and the starts: cold (R438,
R439, R442, R443, R447) and warm (R440). -/

namespace Sys2Proof.Machine

/-- Nominal voltage of the six rails, mV: VDD_CORE, VDD_SRAM, VDDA_SD, VDDH_SD, VDD_PCIE, VDD_IO (Table 17.3). -/
def railNominal : List Nat := [750, 850, 900, 1200, 800, 1800]

/-- A rail lies outside ±5% of its nominal voltage. -/
def railOut (r mv : Nat) : Bool :=
  let n := railNominal.getD r 0
  decide (20 * (if mv < n then n - mv else mv - n) > n)

/-- Rated life, 175,200 h at 85 °C, in 10^-9 s (R445). -/
def ratedLife : Nat := 175200 * 3600 * 1000000000

/-- 2^(k/10), k = 0 to 9, in 10^-9. -/
def pow2tenth : List Nat :=
  [1000000000, 1071773463, 1148698355, 1231144413, 1319507911, 1414213562, 1515716567, 1624504793, 1741101127, 1866065983]

/-- The life that one second at a temperature uses, 10^-9 s: 2^((T − 85) / 10) s, T not below 55 °C. -/
def lifeStep (t : Int) : Nat :=
  let d := ((max t 55) - 55).toNat
  pow2tenth.getD (d % 10) 0 * 2 ^ (d / 10) / 8

/-- The range of TEMP_H of a temperature (Table 15.4). -/
def tempRange (t : Int) : Nat := if t < 85 then 0 else min 5 (1 + (t - 85).toNat / 10)

namespace State

/-! ### Health state and record -/

/-- Spare banks used. -/
def sparesUsed (s : State) : Nat := 2 - s.fget .HLT_POOL_SPARES

/-- HLT_STS.REASONS as the findings of Table 15.3 and R443 give them now. -/
def findings (s : State) : Nat :=
  let h := s.hlt
  let rows (a : Nat × Nat) (k : Nat) : Bool := decide (0 < a.2) && decide (k * Config.spareRows a.1 ≤ 2 * a.2)
  let bits : List Bool :=
    [h.osc.any (fun x => decide (300 ≤ x.2)), h.osc.any (fun x => decide (500 ≤ x.2)), decide (1 ≤ s.sparesUsed), decide (2 ≤ s.sparesUsed),
     h.rowsUsed.any (rows · 1), h.rowsUsed.any (rows · 2), decide (4 * ratedLife ≤ 5 * h.life), decide (ratedLife ≤ h.life),
     h.sensors.any (fun x => decide (115 ≤ x.2.1)), h.rails.any (fun x => railOut x.1 x.2.1), h.r1 != 0, s.fget .HLT_PORTRET_PORTS != 0,
     decide (h.logical < 48), s.fget .HLT_START_KIND == 3]
  ((upto 14).map fun i => 2 ^ i * bit (bits.getD i false)).foldl (· + ·) 0

/-- The health state that the findings give: 0 GOOD, 1 WATCH, 2 REPLACE, 3 SAFE. REPLACE is never left but for SAFE (R449). -/
def healthOf (s : State) (reasons : Nat) : Nat :=
  if nfield reasons 13 13 = 1 then 3
  else if s.hlt.replace || [1, 3, 5, 7].any (fun b => nfield reasons b b == 1) then 2
  else if reasons % 2 ^ 12 ≠ 0 then 1 else 0

/-- The health record (Table 15.4). -/
def recordBytes (s : State) : List Byte :=
  let h := s.hlt
  let b := leBytes 4 1 ++ leBytes 1 (s.fget .HLT_STS_STATE) ++ leBytes 3 0 ++ leBytes 4 (h.life / 3600000000000) ++
    ((upto 6).map fun i => leBytes 4 (Tbl.get 0 h.tempS i / 3600)).flatten ++ leBytes 2 ((h.osc.map Prod.snd).foldl max 0) ++
    leBytes 1 h.logical ++ leBytes 1 (s.fget .HLT_POOL_SPARES) ++ leBytes 8 (s.fget .HLT_RETIRED_BANKS) ++ leBytes 8 h.r1 ++
    leBytes 8 (s.fget .HLT_PORTRET_PORTS) ++ leBytes 4 h.trips ++ leBytes 4 h.cold ++ List.replicate 180 0
  b ++ leBytes 4 (crc32c b).toNat

/-- The flash health record written. -/
def recordWrite (s : State) : State :=
  let b := s.recordBytes
  s.onHlt fun h => { h with record := b }

/-- A HEALTH event (R450). Where no value crossed a threshold, INFO1's upper half is a free value (log entry 2). -/
def healthEvent (s : State) (what object : Nat) (value : Option Nat) : State :=
  let v := value.getD s.freeValue
  s.draw.event1 evHealth 0 0 (what * 2 ^ 28 + s.fget .HLT_STS_STATE * 2 ^ 26 + object) (v % 2 ^ 32 * 2 ^ 32 + s.frameNo)

/-- The health state judged again (R449): a change asserts or releases SERVICE_N, writes the record, a STATE event and an audit record. -/
def healthEval (s : State) : State :=
  let r := s.findings
  let old := s.fget .HLT_STS_STATE
  let new := s.healthOf r
  let s1 := s.fset .HLT_STS_REASONS r
  if new = old then s1
  else
    let low := decide (2 ≤ new)
    let s2 := ((s1.fset .HLT_STS_STATE new).fset .HLT_STS_SERVICE (bit low)).onHlt fun h => { h with replace := h.replace || new == 2 }
    let s3 := if s.flag .HLT_STS_SERVICE = low then s2 else s2.emit (.pin "SERVICE_N" (!low))
    ((s3.recordWrite.raise .HLT_EVT_STATE_CHG).healthEvent 1 0 none).auditRecord 0x09 2 0 0 (old + 256 * new) (leBytes 4 r)

/-! ### What a start keeps -/

/-- The variant that the fuses make (R2). -/
def variant (s : State) : Variant := if s.nPorts = 64 then .ln6400 else if s.nPorts = 32 then .ln6432 else .ln6416

/-- The registers of ports; those of hub ports are the hubs' own. -/
def portRegs : List Reg := [.PRT_CFG, .PRT_CFG_N, .PRT_CTL, .PRT_STS, .PRT_CHG, .PRT_CHG_SHADOW, .PRT_LERR, .PRT_RETRY, .PRT_FEC]

/-- The health monitor after a start: the flash, what is built into the arrays, and the trips stay. -/
def hltKept (h : Health) : Health :=
  { Health.init with
    map := h.map, logical := h.logical, rowsUsed := h.rowsUsed, life := h.life, tempS := h.tempS, trips := h.trips, cold := h.cold,
    replace := h.replace, committed := h.committed, trial := h.trial, record := h.record, dbgKey := h.dbgKey, serial := h.serial,
    tripHeld := h.tripHeld, tripLow := h.tripLow, tripSensor := h.tripSensor, starting := false, refused := h.refused
    slots := match h.staging with
      | some (_, n) => Tbl.put h.slots n FwSlot.init
      | none => h.slots }

/-- PPS_OUT, where it is high, is low from now (Table 17.11); a pulse that was over by now fell at its own end (R52). -/
def ppsLow (s : State) : List Output := s.tim.ppsHighUntil.toList.map fun u => .ppsOut false (min u s.tim.now)

/-- The controller with every register but those listed at its reset value and every array empty; the hubs and modules, and their ends of the
links, stay as they are. PPS_OUT is low from then (Table 17.11). -/
def startBase (s : State) (keep : List Reg) : State :=
  let b := State.resetOf s.variant
  let nums := keep.map Reg.num
  let hub := portRegs.map Reg.num
  let kept := s.regs.filter fun x => nums.contains (x.1 % 256) || (decide (64 ≤ x.1 / 256) && hub.contains (x.1 % 256))
  { b with
    pending := s.pending, out := s.out ++ s.ppsLow, free := s.free, devs := s.devs
    regs := b.regs.foldl (fun t x => Tbl.put t x.1 x.2) kept
    ports := s.ports.filter fun x => decide (64 ≤ x.1)
    links := s.links.filter fun x => decide (128 ≤ x.1) || x.1 % 2 == 1
    hlt := hltKept s.hlt }

/-! ### Cold start (R438, R442, R443, R452) -/

/-- A slot that the kindling ROM accepts (R452). -/
def slotOk (s : State) (n : Nat) : Bool :=
  let x := Tbl.get FwSlot.init s.hlt.slots n
  x.valid && nfield (s.fget .SEC_STS_REVOKED) x.keySlot x.keySlot == 0 && decide (s.fget .SEC_STS_FLOOR ≤ x.svn)

/-- SERVICE_N is released, where it was asserted (Table 17.11). -/
def serviceUp (s : State) (was : Bool) : State := if was then s.emit (.pin "SERVICE_N" true) else s

/-- What every cold start begins with: registers and arrays cleared, FAILS and STARTS from ember region 0 where it checks, the life count from
the flash record. -/
def coldBase (s : State) (region0 : Bool) : State :=
  let fails := if region0 then s.fget .HLT_START_FAILS else 0
  let starts := if region0 then s.fget .HLT_START_STARTS else 0
  let off := s.pwrState == 4 && s.flag .PWR_STS_EXITING
  let s1 := s.startBase ([.HLT_POOL, .HLT_RETIRED, .SEC_STS] ++ (if off then [.PWR_WAKE] else []))
  let s2 := ((s1.fset .HLT_START_FAILS fails).fset .HLT_START_STARTS (min 65535 (starts + 1))).fset .SEC_STS_DBG_LOCKED 0
  let s3 := (s2.fset .SEC_STS_DBG_LEVEL 0).fset .SEC_STS_SVN 0
  let r := s.hlt.record
  let hours (i : Nat) : Nat := leNat (Sys2Proof.slice (8 + 4 * i) 4 r)
  let s4 := s3.onHlt fun h => { h with
    refused := 0, tripHeld := false, cold := (h.cold + 1) % 2 ^ 32, life := hours 0 * 3600000000000
    tempS := (upto 6).map fun i => (i, hours (i + 1) * 3600) }
  let s5 := { s4 with pwr := { Power.init with ember := if region0 then s.pwr.ember else { s.pwr.ember with supplyFail := false } } }
  s5.serviceUp (s.flag .HLT_STS_SERVICE)

/-- Fuses and OTP loaded: a fuse once blown stays so. -/
def otpLoad (s : State) (o : Otp) : State :=
  ((((s.fset .SEC_STS_FLOOR (max o.floor (s.fget .SEC_STS_FLOOR))).fset .SEC_STS_REVOKED
    (Nat.lor o.revoked (s.fget .SEC_STS_REVOKED))).fset .SEC_STS_SECURE_LOCK (bit (o.secureLock || s.flag .SEC_STS_SECURE_LOCK))).fset
    .SEC_STS_DEBUG_DISABLE (bit (o.debugDisable || s.flag .SEC_STS_DEBUG_DISABLE))).onHlt fun h => { h with
      dbgKey := o.dbgKey, serial := o.serial }

/-- The slot that the ROM takes: TRIAL where there is one; else COMMITTED, and if that fails the other. The flag says that it is TRIAL. -/
def pickSlot (s : State) : Option (Nat × Bool) :=
  match s.hlt.trial with
  | some t => if s.slotOk t then some (t, true) else none
  | none =>
    let c := s.hlt.committed
    if s.slotOk c then some (c, false) else if s.slotOk (1 - c) then some (1 - c, false) else none

/-- Row repairs made by BIST. -/
def bistRows (s : State) (l : List Nat) : State :=
  l.foldl (fun s a => (s.onHlt fun h => { h with rowsUsed := Tbl.upd 0 h.rowsUsed a (· + 1) }).raise .HLT_EVT_REPAIR) s

/-- Root ports that fail their loopback test are retired (R447). -/
def loopback (s : State) (mask : Nat) : State :=
  (upto s.nPorts).foldl (fun s n =>
    if nfield mask n n = 1 then
      ((s.fset .HLT_PORTRET_PORTS (nset (s.fget .HLT_PORTRET_PORTS) n n 1)).raise .HLT_EVT_PORT_RETIRED).healthEvent 6 n none
    else s) s

/-- Steps 2 to 6 of Table 15.1 from what the start finds: whether they passed, and whether a TRIAL slot was taken. -/
def coldSteps (s : State) (i : StartIn) : State × Bool × Bool :=
  match i.otp with
  | none => (s, false, false)
  | some o =>
    let s1 := (s.otpLoad o).onHlt fun h => { h with slots := [(0, i.a), (1, i.b)] }
    match s1.pickSlot with
    | none => (s1, false, s1.hlt.trial.isSome)
    | some (n, t) =>
      let s2 := ((s1.fset .HLT_START_SLOT n).fset .HLT_START_TRIAL (bit t)).fset .SEC_STS_SVN (Tbl.get FwSlot.init s1.hlt.slots n).svn
      if i.bist then (((s2.bistRows i.rows).loopback i.loopFail).onHlt fun h => { h with starting := true }, true, t)
      else (s2, false, t)

/-- A cold start failed (R442): FAILS, and a TRIAL slot that was taken loses TRIAL. -/
def coldFailed (s : State) (trial : Bool) : State :=
  (s.countN .HLT_START_FAILS 0 1).onHlt fun h => { h with starting := false, trial := if trial then none else h.trial }

/-- SAFE (R443). -/
def enterSafe (s : State) : State :=
  let s1 := ((s.fset .HLT_START_KIND 3).fset .HLT_START_READY 0).onHlt fun h => { h with starting := false }
  s1.healthEval.auditRecord 0x08 4 0 0 (s.fget .HLT_START_FAILS) []

/-- Cold starts one after the other, each with what it finds, until one passes, SAFE is entered, or the list ends. `lost` says that a
TRIAL slot failed before. -/
def coldStarts (s : State) (lost : Bool) : List StartIn → State
  | [] => if lost then s.raise .SEC_EVT_TRIAL_FAIL else s
  | i :: rest =>
    let s1 := s.coldBase i.region0
    let s2 := if lost then s1.raise .SEC_EVT_TRIAL_FAIL else s1
    if s2.fget .HLT_START_FAILS = 3 then s2.enterSafe
    else
      let (s3, ok, t) := s2.coldSteps i
      if ok then s3 else coldStarts (s3.coldFailed t) (lost || t) rest

/-- Cold starts whose first one finds ember region 0 failing its CRC where `bad`: that start writes the region again (R434, R442). -/
def firstRegion0 (bad : Bool) (l : List StartIn) : List StartIn :=
  match l with
  | i :: rest => { i with region0 := i.region0 && !bad } :: rest
  | [] => []

/-! ### Ember memory (Table 14.7) -/

/-- The registers of each region. -/
def emberRegs (k : Nat) : List Reg :=
  match k with
  | 1 => [.GCTL_POLICY, .GCTL_POLICY_N, .TIM_CTL, .TIM_FRATE, .TIM_FRATE_N, .TIM_UTC, .TIM_IRIG_OFS, .TIM_LABEL, .TIM_DISC, .TIM_STEP_THR,
          .TIM_HOLD, .TIM_TRIM, .TIM_FRATE_ACT]
  | 2 => [.PRT_CFG, .PRT_CFG_N, .PRT_CTL]
  | 4 => [.TWN_CFG, .TWN_CFG_N, .TWN_GEN, .TWN_GEN_N, .TWN_PMAP, .TWN_PMAP_N]
  | 5 => [.SCH_CTXDIR, .SCH_CTXDIR_N, .SCH_CAP, .SCH_CAP_N, .SCH_AMAX, .SCH_AMAX_N, .SCH_BACKOFF, .SCH_PINGGAP, .SCH_QUOTA,
          .SCH_SPILL_BASE, .SCH_SPILL_SIZE, .SCH_GW]
  | 6 => [.MOV_GCFG, .ICU_PRIGROUP, .ICU_MRVEC, .PWR_WAKE_EN, .PWR_SENSE]
  | _ => []

/-- The registers of a region, of root ports only. -/
def emberOf (s : State) (k : Nat) : Tbl DWord :=
  let nums := (emberRegs k).map Reg.num
  s.regs.filter fun x => nums.contains (x.1 % 256) && (k != 2 || decide (x.1 / 256 < 64))

/-- Ember memory written (step 13 of Table 14.3). PRT_STSn and TIM_STS give region 2 its states and region 1 the time-base state. -/
def emberSave (s : State) : State :=
  let sts := [Reg.PRT_STS.num, Reg.TIM_STS.num]
  let regs := (([1, 2, 4, 5, 6].map s.emberOf).flatten ++ s.regs.filter fun x => sts.contains (x.1 % 256) && decide (x.1 / 256 < 64)).foldl
    (fun t x => Tbl.put t x.1 x.2) []
  let e : Ember := { s.pwr.ember with
    regs := regs, tim := some s.tim, links := s.links.filter (fun x => decide (x.1 < 128) && x.1 % 2 == 0),
    ports := s.ports.filter (fun x => decide (x.1 < 64)), srcs := s.icu.sources.filter fun x => decide (x.1 < 192) }
  s.onPwr fun p => { p with ember := e }

/-- The time base after DEEP or an FLR (R433), every hold zero (R66): its state of the entry at the instant `t` that the count of CLK_AON gives; frames restart at the
next TAI second. In DEEP the bound of the error grows by 20,000 ns for each second. -/
def timResume (s : State) (b : TimeBase) (sts : DWord) (deep : Bool) (t : Nat) : State :=
  let p := tickIndex s.frate t
  let grown := if deep then (t - b.now) * 20 / 1000 else 0
  let s1 := s.onTim fun _ => { b with
    now := t, tickAt := tickTime s.frate p, frameNo := frameNumber s.frate t, framesOn := false, locked := false, marksIn := 0, marksOut := 0
    stepOfs := none, stepSec := 0, stepAt := none, stepped := false, nowHigh := 0, heldStart := 0, heldLocal := 0, slewFs := 0, errPs := b.errPs + grown, ppsHighUntil := none }
  ((s1.fset .TIM_STS_LABEL_VALID (field sts Fld.TIM_STS_LABEL_VALID.hi Fld.TIM_STS_LABEL_VALID.lo)).errShow).retune

/-- A root port as region 2 restores it: its state where that stands without a link or is SUSPENDED, else DISCONNECTED with its change bit. -/
def portRestore (s : State) (n : Nat) : State :=
  let e := s.pwr.ember
  let sts := Tbl.get (regReset .PRT_STS n) e.regs (regKey .PRT_STS n)
  let st := field sts Fld.PRT_STS_STATE.hi Fld.PRT_STS_STATE.lo
  let old := Tbl.get Port.init e.ports n
  let k := Tbl.get LinkEnd.init e.links (LinkEndId.code (.port (.root n)))
  let s1 := s.onPort (.root n) fun x => { x with cfg := old.cfg }
  if st = 6 then
    let s2 := (s1.onLink (.port (.root n)) fun l => { l with rate := k.rate, txSeq := k.txSeq, rxSeq := k.rxSeq, fresh := false }).onPort (.root n)
      fun x => { x with rate5Before := old.rate5Before }
    (s2.putState (.root n) 6).showRate (.root n)
  else if st = 0 ∨ st = 1 ∨ st = 9 then s1.putState (.root n) st
  else (s1.putState (.root n) 1).change (.root n) [.PRT_CHG_DISCONNECT]

/-- The sources' configurations of region 6; a level source whose line is active is pending (R356). -/
def srcRestore (s : State) (l : Tbl Source) : State :=
  l.foldl (fun s x => (s.onSource x.1 fun o => { o with
    prio := x.2.prio, tmode := x.2.tmode, cores := x.2.cores, vector := x.2.vector, sense := x.2.sense, en := x.2.en }).levelPend x.1) s

/-- One region restored. -/
def regionRestore (s : State) (k : Nat) (deep : Bool) (t : Nat) : State :=
  let e := s.pwr.ember
  let nums := (emberRegs k).map Reg.num
  let s1 := { s with regs := (e.regs.filter fun x => nums.contains (x.1 % 256)).foldl (fun m x => Tbl.put m x.1 (x.2 &&& regBits (x.1 % 256))) s.regs }
  match k with
  | 1 => match e.tim with
    | some b => s1.timResume b (Tbl.get (regReset .TIM_STS 0) e.regs (regKey .TIM_STS 0)) deep t
    | none => s1
  | 2 => (upto s.nPorts).foldl portRestore s1
  | 5 => s1.onSched fun c => { c with pctPend := true, amaxPend := upto s.nPorts }
  | 6 => (s1.srcRestore e.srcs).engineShown (s1.fget .MOV_GCFG_SWCH)
  | _ => s1

/-- Ember restored (R434): a region in `bad` failed its CRC; its registers keep their reset values and an event names it. -/
def emberRestore (s : State) (bad : Nat) (deep : Bool) (t : Nat) : State :=
  [1, 2, 3, 4, 5, 6, 7].foldl (fun s k =>
    if nfield bad k k = 1 then
      let s1 := if k = 6 then (s.wr .PWR_WAKE_EN 0 (regReset .PWR_WAKE_EN 0)).wr .PWR_SENSE 0 (regReset .PWR_SENSE 0) else s
      (s1.raise .PWR_EVT_EMBER_FAIL).powerEvent 6 0 (s.fget .PWR_WAKE_FROM) 0 k
    else s.regionRestore k deep t) s

/-- The registers that a warm start finds as they are: the power controller's, the start's, and what the flash and the fuses give. -/
def warmKeep : List Reg :=
  [.HLT_START, .HLT_POOL, .HLT_RETIRED, .HLT_PORTRET, .SEC_STS, .PWR_STS, .PWR_WAKE, .PWR_WAKE_EN, .PWR_SENSE, .PWR_MODE]

/-- The controller as DEEP or an FLR leaves it before a warm start: ember, the power controller and the advanced error reporting stay; a debug grant
ends, since SEC_DBG_ALLOW is 0 again; READY is 0. -/
def warmBase (s : State) : State :=
  let s1 := s.startBase warmKeep
  (({ s1 with pwr := s.pwr, aer := s.aer }.fset .SEC_STS_DBG_LEVEL 0).fset .HLT_START_READY 0).onHlt fun h => { h with starting := true }

/-- Rails released in an order, by the numbers of their enables (R483). -/
def railsLow (s : State) (l : List Nat) : State :=
  (s.emits (l.map fun k => .pin ("PWR_EN" ++ toString k) false)).onPwr fun p => { p with railsOff := true }

/-- The power controller as an entry leaves it: nothing more to do but to wait for a wake. -/
def entryOver (s : State) (st : Nat) : State :=
  (((s.fset .PWR_STS_STATE st).fset .PWR_STS_ENTERING 0).fset .PWR_STS_EXITING 0).onPwr fun p => { p with
    requested := false, abortBy := none, rows := [], rollback := false, entryAt := s.tim.now }

/-- DEEP (step 13 of Table 14.3): ember memory is written, the other arrays and registers lose what they hold, the rails go. -/
def deepEnter (s : State) : State :=
  let s1 := (s.entryOver 3).emberSave.warmBase
  (s1.onHlt fun h => { h with starting := false }).railsLow [3, 2, 0]

/-- OFF: everything but the flash and the fuses is lost. -/
def offEnter (s : State) : State :=
  let s1 := s.startBase [.SEC_STS, .HLT_POOL, .HLT_RETIRED]
  (((s1.fset .SEC_STS_DBG_LOCKED 0).fset .SEC_STS_DBG_LEVEL 0).entryOver 4 |>.railsLow [3, 2, 1, 0]).serviceUp (s.flag .HLT_STS_SERVICE)

/-- SLEEP: the clocks are gated; nothing is lost. -/
def sleepEnter (s : State) : State :=
  let s1 := s.entryOver 2
  if s.pwr.byPolicy then
    (s1.fset .GCTL_POLICY_STS_ACTION_COUNT (s.fget .GCTL_POLICY_STS_ACTION_COUNT + 1)).onPwr fun p => { p with byPolicy := false, polOwed := true }
  else s1

/-- An uncorrectable thermal trip (R448): DEEP without consent; a copy under way is abandoned. -/
def thermalTrip (s : State) (sensor : Nat) (t : Int) : State :=
  let s1 := s.onHlt fun h => { h with trips := (h.trips + 1) % 2 ^ 32, tripHeld := true, tripLow := 0, tripSensor := some (sensor, (t + 256).toNat % 256) }
  ((s1.fset .PWR_STS_QVALID 0).onPwr fun p => { p with byPolicy := false, qByPolicy := false, polOwed := false, wakeLater := none, suspended := [] }).deepEnter

/-- The warm start's own part (R440): the regions restored, its kind shown; the twin link comes up again with its samples. -/
def warmStart (s : State) (kind bad t : Nat) : State := (s.emberRestore bad (kind == 1) t).fset .HLT_START_KIND kind

/-- The twin link starts again from its restored registers: ENABLE counts as changed to 1. -/
def twinRestart (s : State) : State :=
  if s.flag .TWN_CFG_ENABLE && !s.twin.enabled then (s.fset .TWN_CFG_ENABLE 0).twinCfgWrite (s.rd .TWN_CFG 0).toNat else s

/-- The ports that an entry or an FLR suspended resume (R104). -/
def portsResume (s : State) : State :=
  (s.pwr.suspended.foldl (fun s n => if s.portState (.root n) = 6 then s.hostResume (.root n) else s) s).onPwr fun p => { p with suspended := [] }

end State

end Sys2Proof.Machine
end

