-- ==== Sys2Proof/Machine/Health.lean ====
section
/-! DEFINITION. Machine/Health.lean: the health monitor's measurements (R444, R445, R448), retirement and pool reduction (R446), the starts' rows
(R438–R443), firmware update (R453), debug (R454), zeroization (R458) and the health and security commands (R461). -/

namespace Sys2Proof.Machine

namespace State

/-! ### Retirement and pool reduction (R446) -/

/-- The physical bank of a logical one, and back. -/
def physOf (s : State) (l : Nat) : Nat := Tbl.get l s.hlt.map l
def logicalOf (s : State) (b : Nat) : Option Nat := (upto s.hlt.logical).find? fun l => s.physOf l == b

/-- The free spares, lowest first. -/
def sparesFree (s : State) : List Nat := [48, 49].filter fun b =>
  nfield (s.fget .HLT_RETIRED_BANKS) b b == 0 && (s.logicalOf b).isNone && !(s.hlt.retire.any fun r => r.dest == b)

def bankInfo (s : State) (b : Nat) : BankInfo := Tbl.get BankInfo.init s.hlt.banks b
def onBank (s : State) (b : Nat) (f : BankInfo → BankInfo) : State := s.onHlt fun h => { h with banks := Tbl.upd BankInfo.init h.banks b f }

/-- A staged schedule commit is in progress (R35). -/
def committing (s : State) : Bool := s.sched.batch.any fun b => b.admitted

/-- The command behind a retirement or reduction completes. -/
def retireCmd (s : State) (cmd : Option (Nat × Nat)) (status result : Nat) : State :=
  match cmd with
  | some (r, i) => s.cmdDone r i status result
  | none => s

/-- A retirement begins (steps 1 to 3): a spare takes the writes of the failing bank, and the copy runs. -/
def startRetire (s : State) (b : Nat) (cmd : Option (Nat × Nat)) : State :=
  match s.logicalOf b, s.sparesFree with
  | some l, d :: _ =>
    let r : Retire := ⟨b, d, l, false, decide (0 < (s.bankInfo b).uncorr), false, cmd⟩
    s.onHlt fun h => { h with retire := some r }
  | some _, [] => (if cmd.isNone then s.policyReport 2 0x91 b else s).retireCmd cmd stCancelled 0
  | none, _ => s.retireCmd cmd stCancelled 0

/-- A pool reduction begins: the failing logical bank takes the bank of the top one; a policy's that would leave fewer than 32 is reported. -/
def startShrink (s : State) (b : Nat) (cmd : Option (Nat × Nat)) : State :=
  match s.logicalOf b with
  | some l =>
    if s.hlt.logical ≤ 32 then (if cmd.isNone then s.policyReport 2 0x91 b else s).retireCmd cmd stBounds 0
    else
      let top := s.hlt.logical - 1
      let r : Retire := ⟨b, s.physOf top, l, l == top, true, true, cmd⟩
      s.onHlt fun h => { h with retire := some r }
  | none => s.retireCmd cmd stBounds 0

/-- What waits first begins. -/
def retireBegin (s : State) (w : RetireWait) : State :=
  let s1 := s.onHlt fun h => { h with waiting := h.waiting.tail }
  if w.shrink then s1.startShrink w.bank w.cmd else s1.startRetire w.bank w.cmd

/-- A policy's retirement or reduction that has its turn: the mode of the policy decides now (R30, R32); none begins during a power entry (R34). -/
def retirePolicyTurn (s0 : State) (w : RetireWait) : State :=
  if s0.flag .PWR_STS_ENTERING then s0
  else
    let s := s0.policyRead
    let drop := s.onHlt fun h => { h with waiting := h.waiting.tail }
    match s.policyMode 2 with
    | 0 => drop
    | 2 => s.retireBegin w
    | _ => drop.advise 2 (if w.shrink then 0x91 else 0x90) w.bank

/-- Retirements and reductions that wait begin, one bank at a time; a reduction waits for a staged commit, and a policy's is reported as DEFERRED
while it does (R35). -/
def retireNext (s : State) : State :=
  match s.hlt.retire, s.hlt.waiting with
  | none, w :: rest =>
    if w.shrink && s.committing then
      if w.cmd.isNone && !w.said then (s.policyReport 2 0xA9 w.bank).onHlt fun h => { h with waiting := { w with said := true } :: rest } else s
    else if w.cmd.isNone then s.retirePolicyTurn w
    else s.retireBegin w
  | _, _ => s

/-- Something for a bank waits or is under way. -/
def retiring (s : State) (b : Nat) : Bool := (s.hlt.retire.any fun r => r.bank == b) || s.hlt.waiting.any fun w => w.bank == b

/-- A retirement or a reduction waits for its turn. -/
def retireWait (s : State) (b : Nat) (shrink : Bool) (cmd : Option (Nat × Nat)) : State :=
  (s.onHlt fun h => { h with waiting := h.waiting ++ [⟨b, shrink, cmd, false⟩] }).retireNext

/-- The RETIRE policy decides about a bank that triggered it (R31, R446). -/
def retirePolicy (s0 : State) (b : Nat) : State :=
  let s := s0.policyRead
  let held := (s.hlt.waiting.filter fun w => !w.shrink).length
  if (s.logicalOf b).isNone || s.retiring b then s
  else
    let spare := decide (held < s.sparesFree.length)
    let bad := decide (0 < (s.bankInfo b).uncorr)
    match s.policyMode 2 with
    | 0 => s
    | 2 =>
      if spare then s.retireWait b false none
      else if bad && decide (32 < s.hlt.logical) then s.retireWait b true none
      else s.policyReport 2 0x91 b
    | _ => s.advise 2 (if spare then 0x90 else 0x91) b

/-- The spare banks left, shown. -/
def sparesShow (s : State) : State :=
  let n := ([48, 49].filter fun b => nfield (s.fget .HLT_RETIRED_BANKS) b b == 0 && (s.logicalOf b).isNone).length
  s.fset .HLT_POOL_SPARES n

/-- Step 4, at a frame boundary: a copied bank is remapped, or the pool ends one bank earlier (R336, R407). -/
def retireTick (s : State) (h : CtxHost) : State :=
  match s.hlt.retire with
  | some r =>
    if r.copied then
      let s1 := (s.onHlt fun h => { h with retire := none }).fset .HLT_RETIRED_BANKS (nset (s.fget .HLT_RETIRED_BANKS) r.bank r.bank 1)
      if r.shrink then
        let top := s.hlt.logical - 1
        let s2 := s1.onHlt fun h => { h with
          map := Tbl.del (if r.logical = top then h.map else Tbl.put h.map r.logical r.dest) top, logical := top }
        let s3 := (({ s2 with pool := s2.pool.filter fun c => decide (c.1 < top * 2 ^ 19) }.fset .HLT_POOL_ACTIVE (8 * top)).poolCut h (8 * top)).raise
          .HLT_EVT_POOL_REDUCED
        let s4 := s3.healthEvent 4 r.bank none
        let s5 := if r.cmd.isNone then s4.policyAction 2 0x91 r.bank else s4
        ((s5.overtake 2 r.bank).recordWrite.healthEval.retireCmd r.cmd stOk (8 * top)).retireNext
      else
        let s2 := (s1.onHlt fun h => { h with map := Tbl.put h.map r.logical r.dest }).sparesShow
        let s3 := ((s2.raise .HLT_EVT_RETIRED).healthEvent 2 r.bank none).policyAction 2 (if r.uncorr then 0x92 else 0x90) r.bank
        ((s3.overtake 2 r.bank).recordWrite.healthEval.retireCmd r.cmd stOk 0).retireNext
    else s
  | none => s.retireNext

/-! ### SRAM errors (R408, R444) -/

/-- A corrected word of a bank: the sixty-fourth in one hour triggers RETIRE. -/
def bankCorrected (s : State) (b t : Nat) : State :=
  let old := (s.bankInfo b).hour.filter fun x => decide (t < x + 3600 * second)
  let s1 := s.onBank b fun i => { i with hour := old ++ [t], corr := min 65535 (i.corr + 1) }
  if old.length = 63 then s1.retirePolicy b else s1

/-- A corrected word of a row of another array: sixteen have firmware repair the row, while a spare row is left. -/
def rowCorrected (s : State) (a r : Nat) : State :=
  let k := 65536 * a + r % 65536
  let n := Tbl.get 0 s.hlt.rowHits k + 1
  let used := Tbl.get 0 s.hlt.rowsUsed a
  if n < 16 ∨ Config.spareRows a ≤ used then s.onHlt fun h => { h with rowHits := Tbl.put h.rowHits k n }
  else
    let s1 := s.onHlt fun h => { h with rowHits := Tbl.put h.rowHits k 0, rowsUsed := Tbl.put h.rowsUsed a (used + 1) }
    (s1.raise .HLT_EVT_REPAIR).healthEvent 5 a (some n)

/-- A block whose words are uncorrectable is discarded with no record; its set has no member, its coder stream closes early (Table 13.4). -/
def blockLost (s : State) (eph bseq : Nat) : State :=
  let hit (b : Block) : Bool := b.eph == eph && b.bseq == bseq
  let own (r : SRec) : Bool := r.kind == 2 && r.holds.any hit
  let s1 := (s.smp.queue.filter own).foldl (fun s r => r.holds.foldl blockFree s) s
  let s1 := (s1.smp.waiting.filter hit).foldl blockFree s1
  let s2 := s1.onSmp fun m => { m with queue := m.queue.filter (fun r => !own r), waiting := m.waiting.filter fun b => !hit b }
  let s3 := s2.smp.groups.foldl (fun s g => g.2.sets.foldl (fun s o => (o.blocks.filter fun x => hit x.2).foldl (fun s x => s.blockFree x.2) s) s) s2
  let cut (o : OpenSet) : OpenSet := { o with blocks := o.blocks.filter fun x => !hit x.2 }
  let s4 := s3.smp.groups.foldl (fun s g => s.onGroup g.1 fun x => { x with sets := x.sets.map cut }) s3
  s4.smp.streams.foldl (fun s x => if x.2.eph = eph then s.closeSpan x.1 true false else s) s4

/-- A transfer whose data is uncorrectable completes INTEGRITY, with nothing more sent or written. -/
def dataLost (s : State) (ring idx : Nat) : State :=
  match s.entryAt ring idx with
  | some e =>
    match e.done with
    | some d =>
      if e.hostOut < e.data.length then
        s.onEntry e.id fun e => { e with done := some { d with status := stIntegrity }, hostOut := e.data.length }
      else s
    | none => (s.finish e.id stIntegrity).refresh 0
  | none => s

/-- Table 13.4. -/
def eccHit (s : State) (x : EccHit) : State :=
  match x with
  | .free => s
  | .td r i => s.dataLost r i
  | .command r i =>
    match s.entryAt r i with
    | some e => (s.dataLost r i).integrity 6 i r e.slice 0
    | none => s
  | .block e b => s.blockLost e b

/-- An uncorrectable word of a bank. -/
def bankUncorrectable (s : State) (b : Nat) (x : EccHit) : State :=
  let n := (s.bankInfo b).uncorr + 1
  let s1 := (s.onBank b fun i => { i with uncorr := min 65535 n }).onHlt fun h => { h with
    retire := h.retire.map fun r => if r.bank = b then { r with uncorr := true } else r }
  let s2 := ((s1.raise .HLT_EVT_RETIRED).healthEvent 3 b (some n)).eccHit x
  s2.retirePolicy b

/-! ### Measurements (Table 15.3) -/

/-- A root port at Rate 5 as measured: crossing the FEC threshold or the margin threshold triggers RATE (R31). -/
def eyeSample (s : State) (x : EyeIn) : State :=
  if decide (s.nPorts ≤ x.port) || (s.link (.port (.root x.port))).rate != 1 then
    s.onHlt fun h => { h with eyes := Tbl.del h.eyes x.port }
  else
    let old := Tbl.get PortEye.init s.hlt.eyes x.port
    let run := if x.uncorr then old.uncorrRun + 1 else 0
    let fec : Option Nat := if 2778 ≤ x.corr then some x.corr else if 3 ≤ run then some run else none
    let eye : Option Nat := if x.width < 200 then some x.width else if x.height < 30 then some x.height else none
    let k : PortEye := ⟨x.width, x.height, x.corr, run, fec.isSome, eye.isSome⟩
    let s1 := s.onHlt fun h => { h with eyes := Tbl.put h.eyes x.port k }
    let new := (if old.badFec then [] else fec.toList) ++ (if old.badEye then [] else eye.toList)
    if new.isEmpty then s1 else (new.foldl (fun s v => (s.raise .HLT_EVT_MARGIN).healthEvent 7 x.port (some v)) s1).ratePolicy x.port

/-- Life used grows by one second at the second's highest reading; its thresholds are reported as they are crossed (R445). -/
def lifeSample (s : State) : State :=
  let t := s.hlt.secMax.getD ((s.hlt.sensors.map fun x => x.2.1).foldl max 55)
  let old := s.hlt.life
  let new := old + lifeStep t
  let s1 := s.onHlt fun h => { h with life := new, secMax := none, tempS := Tbl.upd 0 h.tempS (tempRange t) (· + 1) }
  if (5 * old < 4 * ratedLife ∧ 4 * ratedLife ≤ 5 * new) ∨ (old < ratedLife ∧ ratedLife ≤ new) then
    s1.healthEvent 10 0 (some (new / 3600000000000))
  else s1

/-- The health monitor's second. -/
def monitorSample (s : State) (osc rails : List Nat) (eyes : List EyeIn) : State :=
  let s1 := s.onHlt fun h => { h with
    osc := ((upto 16).zip osc), rails := ((upto 6).zip rails).foldl (fun t x => Tbl.upd (0, 0) t x.1 fun y => (x.2, y.2)) h.rails }
  (eyes.foldl eyeSample s1.lifeSample).healthEval

/-- The sensors' millisecond. -/
def thermalSample (s : State) (temps : List Int) : State :=
  let l := (upto 8).zip temps
  let hot := l.any fun x => decide (115 ≤ x.2) && decide ((Tbl.get ((0 : Int), 0) s.hlt.sensors x.1).1 < 115)
  let top := (l.map Prod.snd).foldl max (s.hlt.secMax.getD (-128))
  let s1 := s.onHlt fun h => { h with
    sensors := l.foldl (fun t x => Tbl.put t x.1 (x.2, match Tbl.find h.sensors x.1 with
      | some y => max y.2 x.2
      | none => x.2)) h.sensors
    secMax := some top }
  let s2 := (if hot then s1.raise .HLT_EVT_THERMAL else s1).healthEval
  match l.find? fun x => decide (140 ≤ x.2) with
  | some x => (s2.raise .HLT_EVT_THERMAL).thermalTrip x.1 x.2
  | none => s2

end State

/-! ### Rows: measurements -/

/-- MONITOR_SAMPLE: slowdowns of the ring oscillators in 0.01%, the rails in mV, the root ports at Rate 5. -/
def execMonitorSample (osc rails : List Nat) (eyes : List EyeIn) (t : Nat) (s : State) : Host.Outcome State Fault Refusal :=
  .next (if s.pwrState ≤ 2 then (s.at_ t).monitorSample osc rails eyes else s)

/-- THERMAL_SAMPLE: the eight sensors, °C; they are not powered in DEEP and OFF. -/
def execThermalSample (temps : List Int) (t : Nat) (s : State) : Host.Outcome State Fault Refusal :=
  .next (if s.pwrState ≤ 2 then (s.at_ t).thermalSample temps else s)

/-- TRIP_COMPARATOR_SAMPLE: whether the junction reads below 110 °C; the second such sample in a row lets wakes through. -/
def execTripComparatorSample (below : Bool) (s : State) : Host.Outcome State Fault Refusal :=
  .next (if s.hlt.tripHeld then s.onHlt fun h =>
      if below then { h with tripLow := h.tripLow + 1, tripHeld := h.tripLow == 0 } else { h with tripLow := 0 } else s)

/-- SRAM_CORRECTED. AER shows a Corrected Internal Error (R415). -/
def execSramCorrected (p : SramPlace) (t : Nat) (s : State) : Host.Outcome State Fault Refusal :=
  match p with
  | .bank b => .next (if b < 50 then (((s.at_ t).bankCorrected b t).healthEval).aerCorr 14 else s)
  | .row a r => .next ((((s.at_ t).rowCorrected a r).healthEval).aerCorr 14)

/-- SRAM_UNCORRECTABLE in a physical bank, and the data that the word belongs to. AER shows an Uncorrectable Internal Error (R415). -/
def execSramUncorrectable (b : Nat) (x : EccHit) (t : Nat) (s : State) : Host.Outcome State Fault Refusal :=
  .next (if b < 50 then (((s.at_ t).bankUncorrectable b x).healthEval).aerUncorr 22 [] [] true else s)

/-- SUPPLY_EXCURSION: rail 0 to 5 stood at a voltage outside ±5% for 10 µs or more. -/
def execSupplyExcursion (rail mv : Nat) (s : State) : Host.Outcome State Fault Refusal :=
  if rail < 6 ∧ railOut rail mv = true then
    let s1 := s.onHlt fun h => { h with rails := Tbl.upd (0, 0) h.rails rail fun x => (mv, min 65535 (x.2 + 1)) }
    .next (((s1.raise .HLT_EVT_SUPPLY).healthEvent 9 rail (some mv)).healthEval)
  else .next s

/-- RETIRE_COPY_DONE: the copy to a spare, or of a reduction, ended; a word of it was uncorrectable or not. -/
def execRetireCopyDone (uncorr : Bool) (s : State) : Host.Outcome State Fault Refusal :=
  .next (s.onHlt fun h => { h with retire := h.retire.map fun r => { r with copied := true, uncorr := r.uncorr || uncorr } })

/-- HEALTH_RECORD_WRITE. -/
def execHealthRecordWrite (s : State) : Host.Outcome State Fault Refusal := .next s.recordWrite

/-- HLT_EVT_READ. -/
def execHltEvtRead (both : Bool) (s : State) : Host.Outcome State Fault Refusal := .next (s.eventRead .HLT_EVT .HLT_EVT_SHADOW 0 both 136)

/-- SEC_EVT_READ. -/
def execSecEvtRead (both : Bool) (s : State) : Host.Outcome State Fault Refusal := .next (s.eventRead .SEC_EVT .SEC_EVT_SHADOW 0 both 137)

/-! ### Rows: starts -/

/-- POR_RELEASE: the rails rise and cold starts run, each with what it finds. -/
def execPorRelease (st : List StartIn) (s : State) : Host.Outcome State Fault Refusal :=
  .next ((s.emits ([0, 1, 2, 3].map fun k => .pin ("PWR_EN" ++ toString k) true)).coldStarts false st)

/-- START_READY: firmware declares the start complete. A trip that is to be reported is. -/
def execStartReady (t : Nat) (s : State) : Host.Outcome State Fault Refusal :=
  if s.hlt.starting ∧ s.pwrState ≤ 1 then
    let kind := s.fget .HLT_START_KIND
    let slot := s.fget .HLT_START_SLOT
    let x := Tbl.get FwSlot.init s.hlt.slots slot
    let fails := s.fget .HLT_START_FAILS
    let s1 := ((s.at_ t).fset .HLT_START_READY 1).onHlt fun h => { h with starting := false, tripSensor := none }
    let s2 := (if kind = 0 then s1.fset .HLT_START_FAILS 0 else s1).healthEval
    let s3 := (s2.auditRecord 0x01 2 0 0 (kind + 256 * slot) ([x.major, x.minor, x.svn, s.fget .SEC_STS_FLOOR, fails].map fun v =>
      BitVec.ofNat 8 v)).healthEvent 11 kind none
    .next (match s.hlt.tripSensor with
      | some (n, v) => (s3.raise .HLT_EVT_THERMAL).healthEvent 8 n (some v)
      | none => s3)
  else .next s

/-- START_WATCHDOG: 2 s of a cold start without READY. -/
def execStartWatchdog (st : List StartIn) (s : State) : Host.Outcome State Fault Refusal :=
  if s.hlt.starting ∧ s.fget .HLT_START_KIND = 0 then
    let t := s.flag .HLT_START_TRIAL
    .next ((s.coldFailed t).coldStarts t st)
  else .next s

/-- What an FLR does before its warm start (R441): every ENABLED root port is suspended; one in `silent` does not echo within 10 ms. -/
def State.flrSuspend (s : State) (silent t : Nat) : State :=
  (upto s.nPorts).foldl (fun s n =>
    if s.portState (.root n) = 4 then
      let s1 := s.startCtl (.port (.root n)) 7 t
      if nfield silent n n = 1 then s1.toRetrain (.root n) 0 t [.PRT_CHG_RETRAIN]
      else (s1.enterSuspended (.root n) t).onPwr fun p => { p with suspended := p.suspended ++ [n] }
    else s) (s.onPwr fun p => { p with suspended := [] })

/-- FLR: the ports are suspended, ember memory is written, and a warm start follows; where the retained image does not match its digest or region 0
fails, cold starts. Bit k of `bad`: region k fails its CRC. -/
def execFlr (silent bad : Nat) (digestOk : Bool) (st : List StartIn) (t : Nat) (s : State) : Host.Outcome State Fault Refusal :=
  if 3 ≤ s.pwrState then .next s
  else
    let s1 := ((s.at_ t).flrSuspend silent t).emberSave.warmBase
    let s2 := s1.entryOver 0
    if digestOk ∧ nfield bad 0 0 = 0 then .next ((s2.warmStart 2 bad t).twinRestart.portsResume) else .next (s2.coldStarts false (State.firstRegion0 (nfield bad 0 0 == 1) st))

/-! ### Rows: health commands -/

/-- HLT_RECORD. -/
def execHltRecord (r : Nat) (d : HostRead) (s : State) : Host.Outcome State Fault Refusal :=
  .next (s.withCmd r d (· == 0x70) fun c s =>
    (s.emits (confirmed (s.cmdPasid c) (cmdArg2 c.bytes) s.recordBytes)).cmdDone c.ring c.idx stOk 0)

/-- HLT_POOL_SHRINK: R33 withdraws a policy's reduction of the bank that waits. -/
def execHltPoolShrink (r : Nat) (d : HostRead) (s : State) : Host.Outcome State Fault Refusal :=
  .next (s.withCmd r d (· == 0x71) fun c s =>
    let b := nfield (cmdArg0 c.bytes) 5 0
    if (s.bankInfo b).uncorr = 0 ∨ s.hlt.logical ≤ 32 ∨ (s.logicalOf b).isNone = true then s.cmdDone c.ring c.idx stBounds 0
    else
      let mine (w : RetireWait) : Bool := w.bank == b && w.cmd.isNone
      let s1 := (if s.hlt.waiting.any mine then s.policyReport 2 0xA8 b else s).onHlt fun h => { h with
        waiting := h.waiting.filter fun w => !mine w }
      (s1.overtake 2 b).retireWait b true (some (c.ring, c.idx)))

/-- PORT_EYE: a scan of a port whose link is up, or a loopback capture on a DISABLED port; the points go out on the port's request line. -/
def execPortEye (r : Nat) (d : HostRead) (points : Nat) (s : State) : Host.Outcome State Fault Refusal :=
  .next (s.withCmd r d (· == 0x72) fun c s =>
    let n := nfield (cmdArg0 c.bytes) 5 0
    let capture := nfield (cmdArg0 c.bytes) 8 8 == 1
    if s.nPorts ≤ n then s.cmdDone c.ring c.idx stAbsent 0
    else if s.flag .TIM_CTL_FRAME_EN || (if capture then s.portState (.root n) != 0 else !(s.link (.port (.root n))).up) then
      s.cmdDone c.ring c.idx stBounds 0
    else s.cmdDone c.ring c.idx stOk (if capture then points else 4096))

/-! ### Rows: firmware update (R453) -/

/-- The slot that is not running. -/
def State.idleSlot (s : State) : Nat := 1 - s.fget .HLT_START_SLOT

/-- A firmware command: FW_BUSY while a slot is staged; while the audit buffer is full those that change a slot complete OVERBOOKED (R457). -/
def State.fwCmd (s : State) (c : CmdRec) (body : State → State) : State :=
  if s.hlt.staging.isSome then (s.cmdDone c.ring c.idx stFwBusy 0).raise .SEC_EVT_FW
  else if c.op ≠ 0x77 ∧ s.audit.held.length = 256 then (s.cmdDone c.ring c.idx stOverbooked 0).raise .SEC_EVT_FW
  else body s

/-- A firmware command completes. -/
def State.fwDone (s : State) (c : CmdRec) (status result : Nat) : State := (s.cmdDone c.ring c.idx status result).raise .SEC_EVT_FW

/-- Header bytes 4–7 and the first 24 bytes of DIGEST. -/
def fwDetail (x : FwSlot) : List Byte :=
  [x.major, x.minor, x.svn, x.keySlot].map (fun v => BitVec.ofNat 8 v) ++ (x.digest ++ List.replicate 24 0).take 24

/-- FW_STAGE: the copy into the slot that is not running begins. -/
def execFwStage (r : Nat) (d : HostRead) (s : State) : Host.Outcome State Fault Refusal :=
  .next (s.withCmd r d (· == 0x74) fun c s => s.fwCmd c fun s =>
    let slot := s.idleSlot
    s.onHlt fun h => { h with staging := some ((c.ring, c.idx), slot), staged := if h.staged = some slot then none else h.staged })

/-- FW_STAGE_DONE: the header's LENGTH and what the checks of R452 found of the image; none where host memory failed. A slot that fails is
left empty. -/
def execFwStageDone (length : Nat) (img : Option FwSlot) (s : State) : Host.Outcome State Fault Refusal :=
  match s.hlt.staging with
  | some ((r, i), slot) =>
    match s.cmd? r i with
    | some c =>
      let x := img.getD FwSlot.init
      let st := if img.isNone then stHostError
        else if length = 0 ∨ 1048064 < length ∨ nfield (cmdArg1 c.bytes) 31 0 < 512 + length then stLength
        else if !x.valid then stIntegrity
        else if nfield (s.fget .SEC_STS_REVOKED) x.keySlot x.keySlot = 1 ∨ x.svn < s.fget .SEC_STS_FLOOR then stBounds
        else stOk
      let s1 := s.onHlt fun h => { h with
        staging := none, slots := Tbl.put h.slots slot (if st = stOk then x else FwSlot.init), staged := if st = stOk then some slot else h.staged }
      .next ((s1.fwDone c st slot).auditRecord 0x02 0 0 st slot (fwDetail x))
    | none => .next s
  | none => .next s

/-- FW_ACTIVATE: the staged slot becomes TRIAL; with RESTART a cold start follows the completion. In SAFE it sets FAILS to 0. -/
def execFwActivate (r : Nat) (d : HostRead) (s : State) : Host.Outcome State Fault Refusal :=
  .next (s.withCmd r d (· == 0x75) fun c s => s.fwCmd c fun s =>
    match s.hlt.staged with
    | none => s.fwDone c stBounds 0
    | some slot =>
      let s1 := s.onHlt fun h => { h with
        trial := some slot, restart := if nfield (cmdArg0 c.bytes) 0 0 = 1 then some c.idx else h.restart }
      let s2 := if s1.inSafe then s1.fset .HLT_START_FAILS 0 else s1
      (s2.fwDone c stOk slot).auditRecord 0x03 0 0 stOk slot (fwDetail (Tbl.get FwSlot.init s.hlt.slots slot)))

/-- FW_COMMIT: the running TRIAL slot becomes COMMITTED; with RAISE FLOOR rises to its SVN. -/
def execFwCommit (r : Nat) (d : HostRead) (s : State) : Host.Outcome State Fault Refusal :=
  .next (s.withCmd r d (· == 0x76) fun c s => s.fwCmd c fun s =>
    let floor := s.fget .SEC_STS_FLOOR
    if s.flag .HLT_START_TRIAL = false then s.fwDone c stBounds 0
    else
      let slot := s.fget .HLT_START_SLOT
      let new := if nfield (cmdArg0 c.bytes) 0 0 = 1 then max floor (s.fget .SEC_STS_SVN) else floor
      let s1 := ((s.onHlt fun h => { h with committed := slot, trial := none }).fset .HLT_START_TRIAL 0).fset .SEC_STS_FLOOR new
      (s1.fwDone c stOk new).auditRecord 0x04 0 0 stOk slot [BitVec.ofNat 8 floor, BitVec.ofNat 8 new])

/-- FW_QUERY (Table 15.10). -/
def execFwQuery (r : Nat) (d : HostRead) (s : State) : Host.Outcome State Fault Refusal :=
  .next (s.withCmd r d (· == 0x77) fun c s => s.fwCmd c fun s =>
    let x := Tbl.get FwSlot.init s.hlt.slots (s.fget .HLT_START_SLOT)
    s.fwDone c stOk (s.fget .SEC_STS_FLOOR * 2 ^ 56 + s.fget .SEC_STS_SVN * 2 ^ 48 + x.major % 256 * 2 ^ 40 + x.minor % 256 * 2 ^ 32 +
      4 * bit s.hlt.trial.isSome + 2 * bit (s.slotOk 1) + s.fget .HLT_START_SLOT))

/-- CMD_WRITEBACK; the completion of a FW_ACTIVATE with RESTART, once written, is followed by cold starts (R453). -/
def execCmdWriteback (r : Nat) (st : List StartIn) (s : State) : Host.Outcome State Fault Refusal :=
  let s1 := (s.cmdWriteback r).releaseOf r
  match s.hlt.restart with
  | some i => .next (if r = 0 ∧ (s1.cmds.all fun c => c.ring != 0 || c.idx != i) = true then s1.coldStarts false st else s1)
  | none => .next s1

/-- ZEROIZE (R458): the audit record and its own completion are written, everything is cleared, ember memory too, and a cold start follows. -/
def execZeroize (r : Nat) (d : HostRead) (st : List StartIn) (s : State) : Host.Outcome State Fault Refusal :=
  .next (s.withCmd r d (· == 0x7C) fun c s =>
    if cmdArg0 c.bytes ≠ 0x7A65 ∨ cmdArg1 c.bytes ≠ 2 ^ 64 - 1 - 0x7A65 then s.cmdDone c.ring c.idx stIntegrity 0
    else
      let s1 := (s.auditRecord 0x07 0 0 stOk 0 (leBytes 4 s.frameNo)).cmdWrite c stOk 0
      let s2 := (s1.wr .HLT_START 0 0).onPwr fun p => { p with ember := Ember.init }
      s2.coldStarts false st)

/-! ### Rows: debug (R454) -/

/-- An audit record about debug: the level, and 0 challenge, 1 grant, 2 refusal, 3 end. Its STATUS is left open. -/
def State.debugAudit (s : State) (level what : Nat) : State :=
  s.draw.auditRecord 0x06 3 0 (s.freeValue % 256) (level % 256 + 256 * what) (s.hlt.dbgKey.take 16)

/-- A grant for a level may be given. -/
def State.debugAllowed (s : State) (level : Nat) : Bool :=
  !s.flag .SEC_STS_DEBUG_DISABLE && s.pairOk .SEC_DBG_ALLOW .SEC_DBG_ALLOW_N 0 32 && decide (1 ≤ level ∧ level ≤ 2) &&
  decide (level ≤ min 2 (s.fget .SEC_DBG_ALLOW_LEVEL)) && (level != 2 || (upto s.nSlices).all fun n => s.sliceState n == 0)

/-- DEBUG_RESPONSE: the challenge, and the response with the level asked; whether the key's hash and the signature check. -/
def execDebugResponse (level : Nat) (key sig : Bool) (s : State) : Host.Outcome State Fault Refusal :=
  let full := s.audit.held.length == 256
  let s1 := s.debugAudit level 0
  if !full && !s1.flag .SEC_STS_DBG_LOCKED && key && sig && s1.debugAllowed level then
    .next (((s1.fset .SEC_STS_DBG_LEVEL level).raise .SEC_EVT_DEBUG).debugAudit level 1)
  else
    let s2 := (s1.raise .SEC_EVT_DEBUG).debugAudit level 2
    if full then .next s2
    else
      let s3 := s2.onHlt fun h => { h with refused := min 3 (h.refused + 1) }
      .next (if 3 ≤ s3.hlt.refused then s3.fset .SEC_STS_DBG_LOCKED 1 else s3)

/-- SEC_DBG_ALLOW_WRITE: a level below the one granted ends the grant. -/
def execSecDbgAllowWrite (v : Nat) (s : State) : Host.Outcome State Fault Refusal :=
  let s1 := s.fset .SEC_DBG_ALLOW_LEVEL (v % 4)
  let old := s.fget .SEC_STS_DBG_LEVEL
  .next (if min 2 (v % 4) < old then ((s1.fset .SEC_STS_DBG_LEVEL 0).raise .SEC_EVT_DEBUG).debugAudit old 3 else s1)

end Sys2Proof.Machine
end

