-- ==== Sys2Proof/Machine/Icu.lean ====
section
/-! DEFINITION. Machine/Icu.lean: the interrupt controller's commands (chapter 11). -/

namespace Sys2Proof.Machine

namespace State

/-- A source's line moved: the selected edge sets PEND, an active level sets it while the source is not active (R356). -/
def lineChange (s : State) (x : Nat) (level : Bool) : State :=
  if s.nSources ≤ x then s
  else
    let old := (s.source x).line
    let s0 := if 192 ≤ x ∧ x < 256 then s.onSource x fun o => { o with line := level } else s
    let new := s0.lineOf x
    let s1 := s0.onSource x fun o => { o with line := new }
    let edge : Bool := match s.senseOf x with
      | 2 => !old && new
      | 3 => old && !new
      | 4 => old != new
      | _ => false
    if edge then (s1.onSource x fun o => { o with hwAt := some s.tim.now }).setPend x else s1.levelPend x

/-- A write of ones at the SET address of PEND. -/
def pset (s : State) (x : Nat) : State := (s.onSource x fun o => { o with swAt := some s.tim.now }).setPend x

/-- A write of ones at the CLR address of PEND: a level source whose line is still active is set again, and an edge of the same cycle leaves PEND 1
(R356, R357). -/
def pclr (s : State) (x : Nat) : State :=
  (s.onSource x fun o => { o with pend := o.pend && o.hwAt == some s.tim.now }).levelPend x

/-- A write of ones at the SET address of EN: a request where PEND is 1 already. -/
def eset (s : State) (x : Nat) : State :=
  let o := s.source x
  let s1 := s.onSource x fun o => { o with en := true }
  if o.pend && !o.en then s1.sourceRequest x else s1

/-- A write of ones at the CLR address of EN. -/
def eclr (s : State) (x : Nat) : State := s.onSource x fun o => { o with en := false }

/-- The sources that a write to word `k` names: those present, and the firmware-internal ones only for firmware (R375). -/
def named (s : State) (k mask : Nat) (fw : Bool) : List Nat :=
  ((upto 32).filter fun i => nfield mask i i == 1).filterMap fun i =>
    let x := 32 * k + i
    if x < s.nSources ∧ (fw = true ∨ x < 192 ∨ 256 ≤ x) then some x else none

/-- A write to one of the four arrays. -/
def srcArray (s : State) (k mask : Nat) (fw : Bool) (f : State → Nat → State) : State := ((s.named k mask fw).foldl f s).icuSettle

/-- A tenant's write: bit 0 the mailbox source, bit 1 the status source; a FREE slice's page ignores writes (R337). -/
def sliArray (s : State) (n mask : Nat) (f : State → Nat → State) : State :=
  if s.nSlices ≤ n ∨ s.sliceState n = 0 then s
  else (((upto 2).filter fun i => nfield mask i i == 1).foldl (fun s i => f s (256 + 2 * n + i)) s).icuSettle

/-- ICU_SRCCFG written for a source (R375): by the manager for the selected one, by firmware for 192 to 255. -/
def srccfg (s : State) (fw : Option Nat) (v : Nat) : State :=
  let x := fw.getD (s.fget .ICU_SRCSEL_SOURCE)
  let tmode := nfield v 31 30
  let sense := nfield v 13 11
  let mine : Bool := decide (192 ≤ x ∧ x < 256)
  if s.nSources ≤ x ∨ (mine ≠ fw.isSome) then s
  else if tmode = 3 ∨ 4 < sense ∨ (tmode = 1 ∧ mine = false) then s.count .ICU_ERR_CFG_REFUSED
  else
    let own := (s.sliceSource x).isSome
    let s1 := s.onSource x fun o => { o with
      tmode := if own then o.tmode else tmode, cores := nfield v 29 26, vector := if own then o.vector else nfield v 24 14,
      sense := if own then o.sense else sense, prio := v % 256 }
    (s1.levelPend x).icuSettle

/-- What core `n` claims: the committed source in the small configurations, the most urgent one now in the largest (R365, R366). -/
def claimed (s : State) (n : Nat) : Option Nat :=
  if s.nSources = 2048 then
    s.mostUrgent ((s.icu.sources.map Prod.fst).filter fun x => s.eligible x && s.mayOffer x n &&
      (upto 4).all fun k => k == n || s.offered k != some x)
  else s.offered n

/-- A core's claim (R361); a write at the SET address in the same cycle leaves PEND 1 (R357). -/
def claim (s : State) (n : Nat) : State :=
  let s0 := s.fsetN .ICU_CORESTS_OFFER n 0
  match s.claimed n with
  | some x =>
    let s1 := s0.onSource x fun o => { o with act := true, pend := o.swAt == some s.tim.now, claimPrio := o.prio, onCore := n }
    (((s1.onCore n fun _ => { s.coreNow n with st := .handling }).fsetN .ICU_CORESTS_RP n (s1.runningPrio n)).answer (BitVec.ofNat 64 x)).icuSettle
  | none => ((s0.countN .ICU_CMOD_SPUR n 1).answer 0x7FF).icuSettle

/-- A handler ends (R362). -/
def handlerDone (s : State) (n x : Nat) : State :=
  let o := s.source x
  if x < s.nSources ∧ o.act = true ∧ o.onCore = n then
    let s1 := s.onSource x fun o => { o with act := false }
    ((s1.fsetN .ICU_CORESTS_RP n (s1.runningPrio n)).levelPend x).icuSettle
  else s.countN .ICU_CORESTS_BAD_DONE n 1

/-- A message held for a mask that is gone (R372). -/
def unheld (s : State) (e : Nat) : State := if (s.vector e).pba then s.vecLapse e else s

end State

/-- SOURCE_LINE_CHANGE: source `x`, at `t`. The level is that of Table 11.1; `level` is used for the firmware-internal sources. -/
def execSourceLineChange (x : Nat) (level : Bool) (t : Nat) (s : State) : Host.Outcome State Fault Refusal :=
  .next (((s.at_ t).lineChange x level).icuSettle)

/-- ICU_PSETk. -/
def execIcuPset (k mask : Nat) (fw : Bool) (t : Nat) (s : State) : Host.Outcome State Fault Refusal :=
  (if fw then id else s.whenReady) (.next ((s.at_ t).srcArray k mask fw State.pset))

/-- ICU_PCLRk. -/
def execIcuPclr (k mask : Nat) (fw : Bool) (t : Nat) (s : State) : Host.Outcome State Fault Refusal :=
  (if fw then id else s.whenReady) (.next ((s.at_ t).srcArray k mask fw State.pclr))

/-- ICU_ESETk. -/
def execIcuEset (k mask : Nat) (fw : Bool) (t : Nat) (s : State) : Host.Outcome State Fault Refusal :=
  (if fw then id else s.whenReady) (.next ((s.at_ t).srcArray k mask fw State.eset))

/-- ICU_ECLRk. -/
def execIcuEclr (k mask : Nat) (fw : Bool) (t : Nat) (s : State) : Host.Outcome State Fault Refusal :=
  (if fw then id else s.whenReady) (.next ((s.at_ t).srcArray k mask fw State.eclr))

/-- SLI_PSET. -/
def execSliPset (n mask t : Nat) (s : State) : Host.Outcome State Fault Refusal :=
  s.whenReady (.next ((s.at_ t).sliArray n mask State.pset))

/-- SLI_PCLR. -/
def execSliPclr (n mask t : Nat) (s : State) : Host.Outcome State Fault Refusal :=
  s.whenReady (.next ((s.at_ t).sliArray n mask State.pclr))

/-- SLI_ESET. -/
def execSliEset (n mask t : Nat) (s : State) : Host.Outcome State Fault Refusal :=
  s.whenReady (.next ((s.at_ t).sliArray n mask State.eset))

/-- SLI_ECLR. -/
def execSliEclr (n mask t : Nat) (s : State) : Host.Outcome State Fault Refusal :=
  s.whenReady (.next ((s.at_ t).sliArray n mask State.eclr))

/-- ICU_SRCCFG_WRITE: the manager's write for the source that ICU_SRCSEL selects, or firmware's for one of its own. -/
def execIcuSrccfgWrite (fw : Option Nat) (v t : Nat) (s : State) : Host.Outcome State Fault Refusal :=
  (if fw.isSome then id else s.whenReady) (.next ((s.at_ t).srccfg fw v))

/-- ICU_CLAIM: a full-width read of ICU_CLAIMn. -/
def execIcuClaim (n t : Nat) (s : State) : Host.Outcome State Fault Refusal := .next (if n < 4 then (s.at_ t).claim n else s)

/-- ICU_DONE. -/
def execIcuDone (n x t : Nat) (s : State) : Host.Outcome State Fault Refusal := .next (if n < 4 then (s.at_ t).handlerDone n x else s)

/-- CORE_RETURN: the exit sequence starts; a source that can be offered during its reload takes the core by hand-off (R364). -/
def execCoreReturn (n t : Nat) (s : State) : Host.Outcome State Fault Refusal :=
  let s0 := s.at_ t
  .next (if n < 4 ∧ 0 < (s0.coreNow n).depth then
    (s0.onCore n fun _ => { s0.coreNow n with st := .exiting, since := t }).icuSettle else s0)

/-- VECTOR_MODERATION_TIMEOUT of MSI-X entry `e`, at `t`. -/
def execVectorModerationTimeout (e t : Nat) (s : State) : Host.Outcome State Fault Refusal :=
  let s0 := s.at_ t
  let v := s0.vector e
  .next (if s0.icu.msixEn = true ∧ 0 < v.reqs ∧ v.held = false ∧ v.first + v.timeUs * 1000 ≤ t then s0.vecLapse e else s0)

/-- SLI_IDLE_WRITE at `t` (R371). -/
def execSliIdleWrite (n mask t : Nat) (s : State) : Host.Outcome State Fault Refusal :=
  s.whenReady (
    .next (if s.nSlices ≤ n ∨ s.sliceState n = 0 then s.at_ t
      else ((upto 8).filter fun v => nfield mask v v == 1).foldl (fun s v => s.idleHint (8 * n + v)) (s.at_ t)))

/-- ICU_VSTS_WRITE at `t`: bit 31 sets the idle hint of the entry that ICU_VSEL selects. -/
def execIcuVstsWrite (v t : Nat) (s : State) : Host.Outcome State Fault Refusal :=
  s.whenReady (.next (if nfield v 31 31 = 1 then (s.at_ t).idleHint (s.fget .ICU_VSEL_VECTOR) else s.at_ t))

/-- MSIX_UNMASK: the Mask bit of an entry is cleared; without an entry, MSI-X Enable and Function Mask of the function become `en` and `fm` (R372). -/
def execMsixUnmask (e : Option Nat) (en fm : Bool) (t : Nat) (s : State) : Host.Outcome State Fault Refusal :=
  (if e.isSome then s.whenReady else id) (
    let s0 := s.at_ t
    match e with
    | some e => .next ((s0.onVector e fun v => { v with mask := false }).unheld e)
    | none =>
      let s1 := s0.onIcu fun i => { i with msixEn := en, fmask := fm }
      .next ((s1.icu.vectors.map Prod.fst).foldl State.unheld s1))

end Sys2Proof.Machine
end

