-- ==== Sys2Proof/Machine/Power.lean ====
section
/-! DEFINITION. Machine/Power.lean: the power controller (chapter 14): requests, consent, entry and its abort points, wakes, and the exit by
the rows of Table 14.6; and the pins of chapter 17. -/

namespace Sys2Proof.Machine

namespace State

/-! ### Requests (R418–R420) -/

/-- A transition is running: from a request's taking until RUN or the low-power state is reached. -/
def moving (s : State) : Bool := s.pwr.requested || s.flag .PWR_STS_ENTERING || s.flag .PWR_STS_EXITING

/-- A request that can start now: firmware sets PWR_MODE and the cores execute WAIT (step 1 of Table 14.3). -/
def startEntry (s : State) (target : Nat) (byPolicy : Bool) : State :=
  (((s.fset .PWR_STS_TARGET target).fset .PWR_MODE_MODE target).fset .PWR_STS_MODE target).onPwr fun p => { p with
    requested := true, byPolicy := byPolicy, abortBy := none }

/-- A request that waits; the one it replaces is discarded and reported (R419). A policy's does not wait behind a manager's (R420). -/
def queueRequest (s : State) (target : Nat) (byPolicy : Bool) : State :=
  let q := s.flag .PWR_STS_QVALID
  if byPolicy && ((q && !s.pwr.qByPolicy) || !s.pwr.byPolicy) then s
  else
    let s1 := if q then (s.raise .PWR_EVT_SUPERSEDED).powerEvent 5 0 s.pwrState (s.fget .PWR_STS_QTARGET) 0 else s
    ((s1.fset .PWR_STS_QVALID 1).fset .PWR_STS_QTARGET target).onPwr fun p => { p with qByPolicy := byPolicy }

/-- A request is taken. -/
def takeRequest (s : State) (target : Nat) (byPolicy : Bool) : State :=
  if s.inSafe then s
  else if target = 1 ∨ 5 ≤ target then (s.raise .PWR_EVT_REQ_INVALID).powerEvent 7 0 s.pwrState target 0
  else if s.moving then
    if target = 0 then
      let s1 := s.fset .PWR_STS_QVALID 0
      if s.flag .PWR_STS_EXITING || s.pwr.abortBy.isSome then s1 else s1.onPwr fun p => { p with abortBy := some 0x10 }
    else s.queueRequest target byPolicy
  else if s.pwrState = 2 then
    let s1 := s.wake 0x13 4 0
    if target = 0 ∨ target = 2 then s1 else s1.queueRequest target byPolicy
  else if target = 0 then s
  else s.startEntry target byPolicy

/-- The queued request, once the controller is in RUN. -/
def takeQueued (s : State) : State :=
  if s.flag .PWR_STS_QVALID then
    let t := s.fget .PWR_STS_QTARGET
    let s1 := s.fset .PWR_STS_QVALID 0
    if t = 0 then s1 else s1.startEntry t s.pwr.qByPolicy
  else s

/-- The cores leave WAIT, PWR_MODE is RUN again, and held offers are made. -/
def coresRun (s : State) : State :=
  let s1 := (upto 4).foldl (fun s n => s.fsetN .ICU_CORESTS_WAIT n 0) s
  ((s1.fset .PWR_MODE_MODE 0).fset .PWR_STS_MODE 0).icuSettle

/-! ### Entry (R421–R426) -/

/-- An abort point is passed: a RUN request or a wake seen by then aborts the entry there; the blocks stopped before it restart. -/
def abortPoint (s : State) (k : Nat) (go : State → State) : State :=
  let s1 := s.fset .PWR_STS_APOINT k
  match s.pwr.abortBy with
  | some id =>
    let s2 := ((s1.countN .PWR_RCNT_ABORTS id 1).fset .PWR_STS_LAST_REFUSER id).raise .PWR_EVT_ABORTED
    let s3 := if s.pwr.byPolicy then s2.policyReport 4 0xA1 id else s2
    let s4 := (s3.powerEvent 4 id 0 (s.fget .PWR_STS_TARGET) 0).rollback (k - 1)
    if s4.flag .PWR_STS_EXITING then s4 else s4.coresRun.powerFlush.takeQueued
  | none => go s1

/-- The dealer refuses (Table 14.2). -/
def dealerRefuses (s : State) (target : Nat) : Bool :=
  s.periodicBusy || s.sched.batch.isSome || !s.sched.queue.isEmpty || s.entries.any (fun e => e.isEntry && e.st != .ended) ||
    (decide (3 ≤ target) && (upto s.nSlices).any fun n => s.sliceState n != 0)

/-- A port engine refuses. -/
def portRefuses (s : State) (n : Nat) : Bool :=
  !([0, 1, 4, 6, 9].contains (s.portState (.root n))) || !(Tbl.get [] s.sched.active n).isEmpty

/-- The mover refuses: a channel is not IDLE, or a write-back or record is waiting. -/
def moverRefuses (s : State) : Bool :=
  (upto 64).any (fun n => s.chanSt n != 0) || s.rings.any (fun x => !x.2.kept.isEmpty) || s.entries.any (fun e => e.done.isSome) || s.cmds.any (fun c => c.status.isSome) ||
    !s.smp.queue.isEmpty

/-- The twin link refuses (R397). -/
def twinRefuses (s : State) : Bool := s.flag .TWN_CFG_ENABLE && s.linkUp && !s.sharedTrees.isEmpty

/-- A policy action other than POWER is in progress (R34). -/
def firmwareRefuses (s : State) : Bool :=
  (upto s.nPorts).any (fun n => (s.port (.root n)).rateChg.any fun c => c.byPolicy && !c.deferred) || (s.hlt.retire.any fun r => r.cmd.isNone) ||
    s.twin.trees.any fun x => x.2.byPolicy

/-- The identifiers that refuse, lowest first (Table 14.4); what the PCIe endpoint finds is the environment's. -/
def refusers (s : State) (pcieOk : Bool) : List Nat :=
  let t := s.fget .PWR_STS_TARGET
  (if s.dealerRefuses t then [1] else []) ++ (if s.moverRefuses then [2] else []) ++ (if s.twinRefuses then [3] else []) ++
    (if pcieOk then [] else [4]) ++ (if s.firmwareRefuses then [5] else []) ++ ((upto s.nPorts).filter s.portRefuses).map (0x40 + ·)

/-- An early refusal (R424): nothing was stopped, the controller stays in RUN. -/
def refuseEarly (s : State) (ids : List Nat) : State :=
  let low := ids.headD 0
  let s1 := ids.foldl (fun s i => s.countN .PWR_RCNT_EARLY i 1) s
  let s2 := ((s1.fset .PWR_STS_LAST_REFUSER low).raise .PWR_EVT_REFUSED).powerEvent 2 low 0 (s.fget .PWR_STS_TARGET) 0
  let s3 := if s.pwr.byPolicy then s2.policyReport 4 0xA1 low else s2
  let s4 := (((s3.fset .PWR_STS_ENTERING 0).fset .PWR_STS_APOINT 0).fset .PWR_STS_TARGET 0).onPwr fun p => { p with byPolicy := false, abortBy := none }
  s4.coresRun.takeQueued

/-- The port engines' stop action: ENABLED ports are suspended, or, for OFF, every port moves to DISABLED. -/
def portsStop (s : State) : State :=
  let t := s.tim.now
  (upto s.nPorts).foldl (fun s n =>
    if s.fget .PWR_STS_TARGET = 4 then (if s.portState (.root n) = 0 then s else s.leave (.root n) 0 [])
    else if s.portState (.root n) = 4 then
      ((s.startCtl (.port (.root n)) 7 t).onPort (.root n) fun x => { x with susp := .sent, wakeHeld := false }).onPwr fun p =>
        { p with suspended := p.suspended ++ [n] }
    else s) (s.onPwr fun p => { p with suspended := [] })

/-- After an entry a queued request or a wake seen after abort point 6 is a wake at once (R426, R435); OFF takes WAKE_N alone. -/
def afterEntry (s : State) : State :=
  if s.pwrState = 4 then
    match s.pwr.wakeLater with
    | some (id, seen, port) => if id = 0x11 then s.startExit id seen port else s
    | none => s
  else if s.flag .PWR_STS_QVALID then
    let s1 := s.startExit 0x10 5 0
    if s.fget .PWR_STS_QTARGET = 0 then s1.fset .PWR_STS_QVALID 0 else s1
  else match s.pwr.wakeLater with
    | some (id, seen, port) => s.startExit id seen port
    | none => s

/-- The last scan before step 13 of an entry to DEEP or OFF drives TX_DISABLE = 1 on every cage (R486). -/
def lastScan (s : State) : State := s.emit (.msc (mscBits 0xFFFFFFFFFFFFFFFF))

/-- Step 13: the target state is reached. -/
def enterTarget (s : State) : State :=
  match s.fget .PWR_STS_TARGET with
  | 2 => s.sleepEnter.afterEntry
  | 3 => s.lastScan.deepEnter.afterEntry
  | _ => (({ s.lastScan.offEnter with pwr := { s.lastScan.offEnter.pwr with wakeLater := s.pwr.wakeLater } } : State)).afterEntry

/-! ### Exit (R431–R433) -/

/-- RUN is reached when the dealer step starts: WOKEN, the latency, the queued request; after a rollback only the latter. -/
def reachRun (s : State) : State :=
  let roll := s.pwr.rollback
  let left := s.fget .PWR_WAKE_FROM
  let ns := s.tim.now - s.pwr.wakeAt
  let s1 := if roll then s
    else if s.pwr.polOwed then s.policyReport 4 0xA0 0 else s
  let s2 := if roll then s1
    else (((s1.fset .PWR_STS_STATE 0).raise .PWR_EVT_WOKEN).fset .PWR_LAT_LAT_NS (min 0xFFFFFFFF ns)).powerEvent 1
      (s.fget .PWR_WAKE_CAUSE) left 0 (ns / 1000)
  let s3 := (((s2.fset .PWR_STS_EXITING 0).fset .PWR_STS_APOINT 0).fset .PWR_STS_TARGET 0).onPwr fun p => { p with rollback := false, polOwed := false }
  s3.coresRun.powerFlush.takeQueued

/-- One row of Table 14.6. `bad`: bit k for an ember region k that fails; `digestOk`: the retained image matches. -/
def restoreRow (s : State) (row bad : Nat) (digestOk good : Bool) (st : List StartIn) (t : Nat) : State :=
  match row with
  | 1 =>
    let s1 := (s.emits ([0, 2, 3].map fun k => .pin ("PWR_EN" ++ toString k) true)).onPwr fun p => { p with railsOff := false }
    if good then s1 else ((s1.railsLow [3, 2, 1, 0]).countN .PWR_RCNT_LATE 6 1).coldStarts false st
  | 4 =>
    if nfield bad 0 0 = 1 then
      (((s.raise .PWR_EVT_EMBER_FAIL).powerEvent 6 0 (s.fget .PWR_WAKE_FROM) 0 0)).coldStarts false (firstRegion0 true st)
    else if s.pwr.imageBad || !digestOk then s.coldStarts false st
    else s.onHlt (fun h => { h with starting := true }) |>.warmStart 1 bad t
  | 5 => if s.pwr.rollback then s else s.emits [.pin "CLKREQ_N" true, .pin "PE_WAKE_N" true]
  | 6 => if s.pwr.rollback then (s.fset .TWN_STS_LINK_UP 0) else s.twinRestart
  | 7 => s.moverResume
  | 8 => s.portsResume
  | 9 => s.reachRun
  | _ => s

end State

/-! ### Rows -/

/-- PWR_REQUEST: PWR_REQ, PWR_REQ_N or both are written; a pair left matching is a request. -/
def execPwrRequest (v vn : Option Nat) (t : Nat) (s : State) : Host.Outcome State Fault Refusal :=
  s.whenReady (
    let s0 := s.at_ t
    let s1 := match v with
      | some x => s0.wr .PWR_REQ 0 (BitVec.ofNat 64 (x % 8))
      | none => s0
    let s2 := match vn with
      | some x => s1.wr .PWR_REQ_N 0 (BitVec.ofNat 64 (x % 2 ^ 32))
      | none => s1
    .next (if (v.isSome || vn.isSome) && s2.pairOk .PWR_REQ .PWR_REQ_N 0 32 then s2.takeRequest (s2.fget .PWR_REQ_TARGET) false else s2))

/-- CORE_WAIT: a core executes WAIT with PWR_MODE as firmware holds it. The fourth one makes the controller IDLE, or starts the entry that was
requested. -/
def execCoreWait (n mode t : Nat) (s : State) : Host.Outcome State Fault Refusal :=
  if 4 ≤ n ∨ s.offersHeld = true ∨ 5 ≤ mode then .next s
  else
    let s1 := (((s.at_ t).fsetN .ICU_CORESTS_WAIT n 1).fset .PWR_MODE_MODE mode).fset .PWR_STS_MODE mode
    if (upto 4).all fun k => s1.flagN .ICU_CORESTS_WAIT k then
      if mode = 1 then .next (s1.fset .PWR_STS_STATE 1)
      else if 2 ≤ mode ∧ s1.pwr.requested = true ∧ mode = s1.fget .PWR_STS_TARGET then
        .next (((s1.fset .PWR_STS_ENTERING 1).onPwr fun p => { p with requested := false }).abortPoint 1 id)
      else .next s1
    else .next s1

/-- CONSENT_DONE: every participant has answered; whether the PCIe endpoint consents. -/
def execConsentDone (pcieOk : Bool) (t : Nat) (s : State) : Host.Outcome State Fault Refusal :=
  if s.flag .PWR_STS_ENTERING ∧ s.fget .PWR_STS_APOINT = 1 then
    let s0 := s.at_ t
    let l := s0.refusers pcieOk
    .next (if l.isEmpty then s0.abortPoint 2 id else s0.refuseEarly l)
  else .next s

/-- DEALER_STOPPED: the last hand is over; for DEEP every cached context is written back, and a write-back that fails is a late refusal. The port
engines stop next. -/
def execDealerStopped (h : CtxHost) (t : Nat) (s : State) : Host.Outcome State Fault Refusal :=
  if s.flag .PWR_STS_ENTERING ∧ s.fget .PWR_STS_APOINT = 2 ∧ s.txns.isEmpty = true then
    let s0 := s.at_ t
    let r := if s0.fget .PWR_STS_TARGET = 3 then
        (s0.ctxs.map Prod.fst).foldl (fun (a : State × Bool) e => let (s1, st) := a.1.ctxFlush h e; (s1, a.2 && st == stOk)) (s0, true)
      else (s0, true)
    .next (if r.2 then r.1.abortPoint 3 State.portsStop else r.1.lateRefusal 1)
  else .next s

/-- PORTS_STOPPED: no port that the entry suspends is still waiting for its echo. -/
def execPortsStopped (t : Nat) (s : State) : Host.Outcome State Fault Refusal :=
  if s.flag .PWR_STS_ENTERING ∧ s.fget .PWR_STS_APOINT = 3 then
    if (upto s.nPorts).all fun n => [0, 1, 6, 9].contains (s.portState (.root n)) then .next ((s.at_ t).abortPoint 4 id) else .next s
  else .next s

/-- MOVER_TWIN_STOPPED: the mover took no new work; the twin link goes down with its last BEAT sent, unless R397 would refuse again. -/
def execMoverTwinStopped (t : Nat) (s : State) : Host.Outcome State Fault Refusal :=
  if s.flag .PWR_STS_ENTERING ∧ s.fget .PWR_STS_APOINT = 4 then
    let s0 := s.at_ t
    .next (if s0.twinRefuses then s0.lateRefusal 3 else if s0.moverRefuses then s0 else s0.abortPoint 5 fun s =>
      if s.linkUp then (s.beatSend t).twinDown else s)
  else .next s

/-- MOVER_STOP_TIMEOUT: a descriptor that started after consent is not complete within 100 µs. -/
def execMoverStopTimeout (t : Nat) (s : State) : Host.Outcome State Fault Refusal :=
  .next (if s.flag .PWR_STS_ENTERING ∧ s.fget .PWR_STS_APOINT = 4 then (s.at_ t).lateRefusal 2 else s)

/-- PCIE_STOPPED: L1.2, or L2/L3 Ready, is reached; abort point 6, then the final step. -/
def execPcieStopped (t : Nat) (s : State) : Host.Outcome State Fault Refusal :=
  .next (if s.flag .PWR_STS_ENTERING ∧ s.fget .PWR_STS_APOINT = 5 then (s.at_ t).abortPoint 6 State.enterTarget else s)

/-- PCIE_STOP_TIMEOUT. -/
def execPcieStopTimeout (t : Nat) (s : State) : Host.Outcome State Fault Refusal :=
  .next (if s.flag .PWR_STS_ENTERING ∧ s.fget .PWR_STS_APOINT = 5 then (s.at_ t).lateRefusal 4 else s)

/-- WAKE_N_INPUT: held low long enough (Table 14.5). In OFF it cannot be disabled; the cold start that follows is POR_RELEASE. -/
def execWakeNInput (t : Nat) (s : State) : Host.Outcome State Fault Refusal :=
  .next (if s.pwrState = 4 ∨ s.flag .PWR_WAKE_EN_WAKE_N = true then (s.at_ t).wake 0x11 0 0 else s)

/-- WAKE_SENSE_TRIP: the input stood at a voltage (0.1 mV) for a time (ns). The comparator trips, or re-arms past its hysteresis; a crossing of under
two CLK_AON periods is ignored (R430, R489). -/
def execWakeSenseTrip (v lasted t : Nat) (s : State) : Host.Outcome State Fault Refusal :=
  if s.flag .PWR_SENSE_EN = false ∨ lasted * 32768 < 2 * 1000000000 then .next s
  else
    let vt := 1000 + 40 * min 250 (s.fget .PWR_SENSE_THR)
    let vh := 80 * (s.fget .PWR_SENSE_HYST + 1)
    let down := s.flag .PWR_SENSE_DIR
    let s0 := s.at_ t
    if s.flag .PWR_SENSE_OUT then
      .next (if (if down then decide (vt + vh < v) else decide (v + vh < vt)) then s0.fset .PWR_SENSE_OUT 0 else s0)
    else if (if down then decide (v < vt) else decide (vt < v)) then
      let s1 := s0.fset .PWR_SENSE_OUT 1
      .next (if s1.pwrState ≤ 1 && !s1.flag .PWR_STS_ENTERING && !s1.flag .PWR_STS_EXITING then s1.raise .PWR_EVT_SENSE
        else if s1.flag .PWR_WAKE_EN_SENSE then s1.wake 0x12 1 0 else s1)
    else .next s0

/-- PCIE_WAKE: in SLEEP an exit of the link from L1, always; in DEEP PERST_N is released, while enabled. -/
def execPcieWake (t : Nat) (s : State) : Host.Outcome State Fault Refusal :=
  .next (if s.pwrState = 2 ∨ s.flag .PWR_WAKE_EN_PCIE = true then (if s.pwrState = 4 then s else (s.at_ t).wake 0x13 4 0) else s)

/-- TWIN_SIGNAL_WAKE. -/
def execTwinSignalWake (t : Nat) (s : State) : Host.Outcome State Fault Refusal :=
  .next (if s.hasTwin ∧ s.flag .PWR_WAKE_EN_TWIN = true ∧ s.pwrState ≠ 4 then (s.at_ t).wake 0x14 3 0 else s)

/-- RESTORE_STEP: the next row of the exit or rollback runs. -/
def execRestoreStep (bad : Nat) (digestOk good : Bool) (st : List StartIn) (t : Nat) (s : State) : Host.Outcome State Fault Refusal :=
  match s.pwr.rows with
  | row :: rest => .next (((s.at_ t).onPwr fun p => { p with rows := rest }).restoreRow row bad digestOk good st t)
  | [] => .next s

/-- PWR_SENSE_WRITE: the comparator is re-armed (R430). -/
def execPwrSenseWrite (v : Nat) (s : State) : Host.Outcome State Fault Refusal :=
  s.whenReady (.next (s.wr .PWR_SENSE 0 (BitVec.ofNat 64 v &&& BitVec.ofNat 64 Reg.PWR_SENSE.info.rw)))

/-- PWR_EVT_READ. -/
def execPwrEvtRead (both : Bool) (s : State) : Host.Outcome State Fault Refusal :=
  s.readReady (.next (s.eventRead .PWR_EVT .PWR_EVT_SHADOW 0 both 135))

/-! ### Rows: pins (R480, R484, R491) -/

/-- PERST_N_ASSERT: without effect in DEEP, OFF and after abort point 6 of an entry to them; else every block but the power controller and ember
memory goes to its reset state, and an entry under way is abandoned. In an exit from DEEP before its PCIe row the exit completes without the link. -/
def execPerstNAssert (s : State) : Host.Outcome State Fault Refusal :=
  if (3 ≤ s.pwrState ∧ s.flag .PWR_STS_EXITING = false) ∨
     (s.flag .PWR_STS_ENTERING = true ∧ s.fget .PWR_STS_APOINT = 6 ∧ 3 ≤ s.fget .PWR_STS_TARGET) then .next s
  else
    let keep : List Reg := [.HLT_START, .HLT_POOL, .HLT_RETIRED, .SEC_STS, .PWR_REQ, .PWR_REQ_N, .PWR_STS, .PWR_EVT, .PWR_EVT_SHADOW, .PWR_WAKE_EN,
      .PWR_SENSE, .PWR_WAKE, .PWR_LAT, .PWR_RSEL, .PWR_RCNT, .PWR_MODE]
    let s1 := (({ s.startBase keep with pwr := s.pwr }.fset .HLT_START_READY 0).onPwr fun p => { p with perst := true }).serviceUp
      (s.flag .HLT_STS_SERVICE)
    .next (if s.flag .PWR_STS_EXITING && !s.pwr.rollback then s1
      else ((s1.entryOver 0).fset .PWR_STS_APOINT 0).onPwr fun p => { p with byPolicy := false })

/-- PERST_N_RELEASE: after a reset by PERST_N a cold start runs; in DEEP the release is the host's wake (PCIE_WAKE). -/
def execPerstNRelease (st : List StartIn) (t : Nat) (s : State) : Host.Outcome State Fault Refusal :=
  if s.pwr.perst then .next ((s.onPwr fun p => { p with perst := false }).coldStarts false st)
  else if s.pwrState = 3 then execPcieWake t s
  else .next s

/-- PWR_GOOD_LOW for 10 µs (R484): ignored while enables are released; in RUN, IDLE and SLEEP the rails are released, ember region 0 records the
failure and a cold start follows; in DEEP the retained image is invalid; in a cold start it is a failed start. -/
def execPwrGoodLow (st : List StartIn) (s : State) : Host.Outcome State Fault Refusal :=
  if s.pwrState = 3 then .next (if s.flag .PWR_STS_EXITING then s else s.onPwr fun p => { p with imageBad := true })
  else if s.pwrState = 4 then .next s
  else
    let s1 := (s.railsLow [3, 2, 1, 0]).onPwr fun p => { p with ember := { p.ember with supplyFail := true } }
    .next ((if s.hlt.starting ∧ s.fget .HLT_START_KIND = 0 then s1.coldFailed (s.flag .HLT_START_TRIAL) else s1).coldStarts
      (s.hlt.starting && s.fget .HLT_START_KIND == 0 && s.flag .HLT_START_TRIAL) st)

/-- VAON_LOSS: everything unpowered; ember memory is lost, and with it FAILS and STARTS. POR_RELEASE follows when VAON is back. -/
def execVaonLoss (s : State) : Host.Outcome State Fault Refusal :=
  .next ((s.offEnter.onHlt fun h => { h with tripHeld := false, tripSensor := none }).onPwr fun p => { p with ember := Ember.init, perst := false })

end Sys2Proof.Machine
end

