-- ==== Sys2Proof/Machine/Tick.lean ====
section
/-! DEFINITION. Machine/Tick.lean: the frame tick (R48) and what takes effect at it, the deadline of the hands and the guard band before it,
the policies THROTTLE and POWER, and APPLY_ADVICE. -/

namespace Sys2Proof.Machine

namespace State

/-! ### Weights, groups and quota (R248, Tables 7.12, 7.26) -/

/-- A deficit rescaled, rounding toward zero. -/
def rescale (d : Int) (old new : Nat) : Int := Int.tdiv (d * new) old

/-- A signed number as 64 bits of a trace record. -/
def word64 (d : Int) : Nat := (d % (2 ^ 64 : Int)).toNat

/-- The SHARE trace record of a rescaled deficit. -/
def traceShare (s : State) (t : Nat) (sl : Option Nat) (a : Nat) (d d' : Int) : State :=
  s.trace 9 s.frameNo (some t) sl none 0 0 0 0 a (word64 d) (word64 d')

/-- One weight and group that SLICE_SHARE left for this tick; `x` is its key and value. -/
def shareApply (s : State) (x : Nat × Nat) : State :=
  let t := x.1 / 256
  let n := x.1 % 256
  let old := s.weightOf t n
  let s1 := s.onDeal fun d => { d with share := Tbl.put d.share x.1 x.2 }
  let new := s1.weightOf t n
  if old = new then s1
  else
    let d := Tbl.get 0 (s.drr t).sd n
    let d' := rescale d old new
    (s1.onDrr t fun r => { r with sd := Tbl.put r.sd n d' }).traceShare t (some n) (s1.groupOf t n * 2 ^ 16 + old * 256 + new) d d'

/-- The group weight of a group of a tree as SCH_GW holds it. -/
def groupApply (s : State) (t g : Nat) : State :=
  let old := s.groupWeight t g
  let w := field (s.rd .SCH_GW (8 * t + g / 4)) (8 * (g % 4) + 7) (8 * (g % 4))
  let s1 := s.onDeal fun d => { d with gw := Tbl.put d.gw (32 * t + g) w }
  let new := s1.groupWeight t g
  if old = new then s1
  else
    let d := Tbl.get 0 (s.drr t).gd g
    let d' := rescale d old new
    (s1.onDrr t fun r => { r with gd := Tbl.put r.gd g d' }).traceShare t none (2 ^ 24 + g * 2 ^ 16 + old * 256 + new) d d'

/-- The written SCH_GWn_j, by instance. -/
def gwRegs (s : State) : List Nat := s.regs.filterMap fun x => if x.1 % 256 = Reg.SCH_GW.num then some (x.1 / 256) else none

/-- Weights, groups, group weights and the quota take effect. -/
def shareTick (s : State) : State :=
  let s1 := (s.deal.sharePend.foldl shareApply s).onDeal fun d => { d with sharePend := [] }
  let s2 := s1.gwRegs.foldl (fun s i => (upto 4).foldl (fun s b => s.groupApply (i / 8) (4 * (i % 8) + b)) s) s1
  s2.onDeal fun d => { d with quota := max 1 (min 65536 (s.fget .SCH_QUOTA_QUOTA)) }

/-! ### Hands (R217, R386, R394) -/

/-- The item that sends a stored intent (R394). -/
def intentItem (s : State) (n eph : Nat) : Option HandItem :=
  (s.ctx? eph).map fun k =>
    { cls := 0, eph := eph, kind := .command, entry := none
      s := slotAt (s.byteTime n) ((Tbl.get [] s.sched.active n).any fun e => schedEph e.word == eph && schedSlow e.word) 1 k.ctx.mps
      a := turnaround k.ctx, cost := 0, slice := k.ctx.owner, retry := false, started := false, lateFill := false }

/-- The intents of a tree that this frame's hand sends: in the first frame of ownership all, later those that missed their hand, in the frames
in which their periodic entry runs. -/
def intentItems (s : State) (n frame : Nat) (first : Bool) : List HandItem :=
  (s.twin.resolving.filter fun x => Eph.port x.1 == n && (s.txns.all fun t => t.eph != x.1) &&
    (first || (s.tableFor n frame).any fun e => schedEph e.word == x.1 && schedDue e.word frame)).filterMap fun x => s.intentItem n x.1

/-- The hand of a tree for the frame that starts: run, or discarded where the controller does not run the tree. -/
def handTake (s : State) (n : Nat) (first : Bool) : State :=
  let frame := s.frameNo
  let h := (s.handNext n).getD { Hand.empty frame with nextAt := s.frameTime n }
  let s1 := s.onDeal fun d => { d with next := Tbl.del d.next n }
  if s.treeRuns n frame then
    s1.onDeal fun d => { d with run := Tbl.put d.run n { h with items := s.intentItems n frame first ++ h.items } }
  else
    let back := (h.items.filterMap HandItem.entry).reverse.foldl toHead s1
    back.onDeal fun d => { d with run := Tbl.put d.run n { h with items := [] } }

/-- A tree at the tick: its first frame of ownership (R393, R394), and its hand. -/
def treeTick (h : CtxHost) (s : State) (n : Nat) : State :=
  if s.ownsFrom n s.frameNo then (s.ownStart h n).handTake n true else s.handTake n false

/-! ### Root ports (R51, R53, R108, R118) -/

/-- A written PRT_CFGn takes effect; a change of RATE5_EN of a port that has a link starts a rate change (R109), once one that is under way is over. It
overtakes what an earlier change left waiting, and withdraws a policy's change that waits (R33). -/
def cfgTick (s : State) (n : Nat) : State :=
  let p := PortId.root n
  if s.pairOk .PRT_CFG .PRT_CFG_N n 32 then
    let v := s.rd .PRT_CFG n
    let old := (s.port p).cfg
    let s1 := s.onPort p fun x => { x with cfg := v, cfgReported := false }
    let want := field v 0 0
    if want = field old 0 0 then s1
    else
      let s2 := (s1.rateWithdraw p).onPort p fun x => { x with cfgWant := none, byRate := x.byRate && want == 0 }
      if !s2.linked p then s2
      else if (s2.port p).rateChg.isSome then s2.onPort p fun x => { x with cfgWant := some (want, 0) }
      else if s2.rateNext p ≠ want then s2.rateRequest n want false
      else s2
  else if (s.port p).cfgReported then s
  else (s.integrityReg (0x4000 + 0x40 * n)).onPort p fun x => { x with cfgReported := true }

/-- A rate change at the tick of a frame: RATE_REQ in frame S − 1, the switch at S (Table 3.13). A link that already has the rate is left as it is. A
written RATE5_EN that waited is acted on now. -/
def rateTick (s0 : State) (n : Nat) : State :=
  let p := PortId.root n
  let s := s0.emptyOver p s0.frameNo
  match (s.port p).rateChg with
  | some c =>
    if c.deferred || s.portState p == 8 then s
    else if s.portState p == 4 && (s.link (.port p)).rate == c.target then (s.onPort p fun x => { x with rateChg := none }).rateCmd p stOk s.frameNo
    else if !later32 c.sFrame s.frameNo then s.rateSwitch p
    else if !later32 c.sFrame ((s.frameNo + 1) % 2 ^ 32) && !c.reqSent && s.portState p == 4 then s.sendRateReq p false
    else s
  | none =>
    match (s.port p).cfgWant with
    | some (w, _) =>
      let s1 := s.onPort p fun x => { x with cfgWant := none }
      if (s.link (.port p)).rate ≠ w then s1.rateRequest n w false else s1
    | none => s

/-- FRAME is sent on a root port in this frame (R51, Table 3.10): its k frames of a rate change are over. -/
def sendsFrame (s : State) (n : Nat) : Bool :=
  s.ready && s.tim.framesOn && s.portState (.root n) == 4 && (s.link (.port (.root n))).up &&
  (match (s.port (.root n)).emptyTo with
   | some f => !later32 f s.frameNo
   | none => true)

/-- The FRAME of a root port (Table 2.6); `stepped` also in the first frame of ownership (R393). -/
def frameBody (s : State) (owned : Bool) : FrameBody where
  frameNo := s.frameNo
  sec := s.tim.tickAt / second
  ns := s.tim.tickAt % second
  holdover := s.flag .TIM_STS_HOLDOVER
  stepped := s.tim.stepped || owned
  qclass := s.tim.tickClass
  flagsRsvd := false
  frate := s.frate
  correction := 0
  utcOfs := s.fget .TIM_UTC_UTC_OFS

/-- TIM_TRIMn takes effect at the tick (R67). -/
def trimTick (s : State) : State :=
  let trims : Tbl Nat := (upto 64).filterMap fun n =>
    let v := s.fgetN .TIM_TRIM_TRIM n
    if v = 0 then none else some (n, v)
  s.onTim fun b => { b with effTrim := trims }

/-- FRAME sent, with its CORRECTION (R53): `corr` is the departure that the port measured at its ball, in 1/256 ns after the tick. What waited for it
follows, where the port sends none at the tick (R90). -/
def frameSend (s : State) (owned : List Nat) (corr : List Int) (n : Nat) : State :=
  let l := LinkEndId.port (.root n)
  let tick : Int := ((s.tim.tickAt * 256 : Nat) : Int)
  if s.sendsFrame n then (s.sendFrame l (s.frameBody (owned.contains n)) (-tick) (tick + corr.getD n 0)).release l (tick + corr.getD n 0) 56
  else s.release l tick 0

/-! ### The context table (R162) -/

/-- SCH_CTXDIR is loaded into the held copy; a pair unequal at two boundaries in a row is reported. -/
def dirTick (s : State) : State :=
  if s.pairOk .SCH_CTXDIR .SCH_CTXDIR_N 0 64 then
    let v := s.rd .SCH_CTXDIR 0
    s.onCmgr fun m => { m with
      unequal := false, reported := false, dir := v, dirN := if m.dir = v then m.dirN else ~~~ v }
  else if s.cmgr.unequal && !s.cmgr.reported then (s.integrityReg 0x3F00).onCmgr fun m => { m with reported := true }
  else s.onCmgr fun m => { m with unequal := true }

/-! ### Policies (R29–R34) -/

/-- GCTL_POLICY takes effect (R32), with its audit record; a rate change of a policy is forgotten 65,536 frames later (R31). -/
def policyTick (s : State) : State :=
  let v := s.rd .GCTL_POLICY 0
  let s1 := s.onPol fun p => { p with rateLast := p.rateLast.filter fun x => decide ((s.frameNo + 2 ^ 32 - x.2) % 2 ^ 32 < 65536) }
  if s.pairOk .GCTL_POLICY .GCTL_POLICY_N 0 32 && v != s.pol.inForce then
    (s1.onPol fun p => { p with inForce := v }).auditRecord 0x0C 0 0 0 v.toNat []
  else s1

/-- The bulk share set to so many eighths. -/
def shareSet (s : State) (v : Nat) : State :=
  s.onPol fun p => { p with share := v, calm := 0, floorSaid := false, advice := p.advice.filter fun a => a.policy != 1 }

/-- Bulk work may take a share lower by one eighth (R31). -/
def throttleLower (s0 : State) : State :=
  let s := s0.policyRead
  let v := s.pol.share
  match s.policyMode 1 with
  | 0 => s
  | 2 =>
    if s.flag .PWR_STS_ENTERING then s
    else if 1 < v then (s.shareSet (v - 1)).policyAction 1 0x88 (v - 1)
    else if s.pol.floorSaid then s
    else (s.policyReport 1 0x89 1).onPol fun p => { p with floorSaid := true }
  | _ => if 1 < v then s.advise 1 0x88 (v - 1) else s

/-- THROTTLE at a tick: `behind` is how far periodic host transport is behind, in ns (Table 1.10). -/
def throttleTick (s : State) (behind : Nat) : State :=
  let len := s.frameLen
  if len < 2 * behind then (s.onPol fun p => { p with calm := 0 }).throttleLower
  else if len ≤ 8 * behind ∨ 8 ≤ s.pol.share then s.onPol fun p => { p with calm := 0 }
  else if s.pol.calm + 1 < 64 then s.onPol fun p => { p with calm := p.calm + 1 }
  else (s.shareSet (s.pol.share + 1)).policyAction 1 0x8A (s.pol.share + 1)

/-! ### Slices (R332, R335, R346–R350) -/

/-- A slice at a frame boundary. -/
def sliceTick (h : CtxHost) (s : State) (n : Nat) : State :=
  (((((s.reloadTick n).windowTick h n).freezeTick n).thawTick n).saveTick s.frameNo n).releaseStep n

/-! ### The tick -/

/-- The end of a frame: hands still to be composed are, work that did not start has missed its hand, and the frame's reports go out. -/
def frameEnd (s : State) (h : CtxHost) : State :=
  let s1 := s.composeAll []
  let s2 := (upto s.nPorts).foldl guardTree s1
  let s3 := ((upto s.nPorts).foldl rolledEvent s2).streamEvents s.frameNo
  s3.shadowTick h

/-- What takes effect at a frame boundary, once the frame's number is known; a pool reduction comes before a window change (R336). -/
def boundary (s : State) (h : CtxHost) : State :=
  let ports := upto s.nPorts
  let s1 := (ports.foldl cfgTick s.policyTick.trimTick).dirTick.shareTick
  let s2 := ((s1.recheckTick.portRateTick).enumTick.schedTick s.frameNo)
  ((upto s.nSlices).foldl (sliceTick h) (s2.retireTick h)).claimsTick

/-- The frame starts: the trees' hands, rates and FRAMEs, the channels of the mover, the twin link. -/
def frameStart (s : State) (h : CtxHost) (corr : List Int) (tTx : Nat) (started : Bool) : State :=
  let ports := upto s.nPorts
  let owned := ports.filter fun n => s.ownsFrom n s.frameNo
  let s1 := (ports.foldl rateTick s).startBatch
  let s2 := ports.foldl (fun s n => s.frameSend owned corr n) s1
  let s3 := ports.foldl (treeTick h) s2
  let s4 := (if started then s3.stopReq else s3).tickChannels
  ((s4.pairTick).beatSend tTx).outTick s4.tim.tickAt

/-- A frame tick. -/
def frameTick (s : State) (corr : List Int) (behind tTx : Nat) (h : CtxHost) : State :=
  let s1 := (s.frameEnd h).timTick
  let s2 := s1.boundary h
  ((s2.frameStart h corr tTx (s1.tim.framesOn && !s.tim.framesOn)).throttleTick behind).settled

/-- A rate change whose RATE_REQ has no RATE_ACK as the guard band begins is dropped (Table 3.13). -/
def guardRate (s : State) (p : PortId) : State :=
  if (s.port p).rateChg.any RateChange.unacked && s.portState p == 4 then s.rateRefuse p 3 else s

/-- A root port as the guard band begins: composed work goes back (R247), an accepted SUSPEND is sent (R103), and a rate change without RATE_ACK
is dropped. -/
def guardPort (t : Nat) (s : State) (n : Nat) : State := ((s.guardTree n).suspendSend n t).guardRate (.root n)

/-- The ports of every hub, of those that know the tick (R110). -/
def guardHubs (s : State) : State :=
  s.devs.foldl (fun s d => if (s.dev d.1).synced then (s.hubPorts d.1).foldl guardRate s else s) s

end State

/-- FRAME_TICK: `corr` are the measured CORRECTIONs by port, `behind` how far periodic host transport is behind, `tTx` the departure of the BEAT,
`h` what the context table holds. -/
def execFrameTick (corr : List Int) (behind tTx : Nat) (h : CtxHost) (s : State) : Host.Outcome State Fault Refusal :=
  .next (s.frameTick corr behind tTx h)

/-- HAND_DEADLINE: the hands of the next frame are complete 3 us before its tick; `cuts` are the trees whose lane composed only so many
periodic items in time (R23). -/
def execHandDeadline (cuts : List (Nat × Nat)) (s : State) : Host.Outcome State Fault Refusal :=
  .next (((s.at_ (s.nextTick - 3000)).composeAll cuts).settled)

/-- GUARD_BAND_START at `t`. -/
def execGuardBandStart (t : Nat) (s : State) : Host.Outcome State Fault Refusal :=
  .next (((upto s.nPorts).foldl (State.guardPort t) (s.at_ t)).guardHubs.heldDrop)

/-! ### APPLY_ADVICE and the POWER policy (R30, R31, R197) -/

namespace State

/-- Advice carried out for a manager command; advice that a later state has overtaken completes CANCELLED. -/
def applyAdvice (s : State) (c : CmdRec) (a : Advice) (t : Nat) : State :=
  let cmd := (c.ring, c.idx)
  let cancelled : State := s.cmdDone c.ring c.idx stCancelled 0
  let n := a.object
  if a.policy = 0 then
    (if s.portState (.root n) ≠ 4 ∨ (s.link (.port (.root n))).rate ≠ 1 ∨ (s.port (.root n)).rateChg.isSome then cancelled
     else (s.onCmd c.ring c.idx fun x => { x with stage := 1, arg := (PortId.root n).code }).rateRequest n 0 false)
  else if a.policy = 1 then (if n + 1 = s.pol.share then (s.shareSet n).cmdDone c.ring c.idx stOk 0 else cancelled)
  else if a.policy = 2 then
    (if (s.logicalOf n).isNone ∨ s.retiring n = true then cancelled
     else if a.code = 0x90 then (if s.sparesFree.isEmpty then cancelled else s.retireWait n false (some cmd))
     else if (s.bankInfo n).uncorr = 0 ∨ s.hlt.logical ≤ 32 then cancelled
     else s.retireWait n true (some cmd))
  else if a.policy = 3 then
    (if a.code ≠ 0x98 ∨ s.warm n = false ∨ s.paired = false ∨ s.owns n = true ∨ (s.tree n).claim.isSome then cancelled
     else (s.onCmd c.ring c.idx fun x => { x with stage := 2 ^ n, arg := 2 ^ 64 }).claimTree n false 0 false (some cmd) 0 t)
  else if s.pwrState = 0 ∧ s.moving = false then (s.takeRequest 2 false).cmdDone c.ring c.idx stOk 0
  else cancelled

end State

/-- APPLY_ADVICE at `t`: an identifier that was never given completes BOUNDS. -/
def execApplyAdvice (r : Nat) (d : HostRead) (t : Nat) (s : State) : Host.Outcome State Fault Refusal :=
  .next ((s.at_ t).withCmd r d (· == 0x23) fun c s =>
    let id := cmdArg0 c.bytes % 65536
    match s.pol.advice.find? fun a => a.id == id with
    | some a => (s.onPol fun p => { p with advice := p.advice.filter fun b => b.id != id }).applyAdvice c a t
    | none => s.cmdDone c.ring c.idx (if id < s.pol.nextAdvice then stCancelled else stBounds) 0)

/-- No committed periodic entry on any tree and no work on any ring: none taken, and none handed over. -/
def State.powerIdle (s : State) : Bool :=
  s.sched.active.all (fun t => t.2.isEmpty) && s.entries.isEmpty && s.cmds.isEmpty && s.smp.queue.isEmpty &&
    s.rings.all fun x => x.2.st == 0 || decide (2 ≤ x.2.type x.1) || x.2.head == x.2.tail

/-- POLICY_POWER_IDLE: 16,384 frames passed so, the trigger of the POWER policy (Table 1.10); while an entry is in progress it does not act
(R34). -/
def execPolicyPowerIdle (s0 : State) : Host.Outcome State Fault Refusal :=
  let s := s0.policyRead
  if !s0.powerIdle then .next s0
  else match s.policyMode 4 with
  | 0 => .next s
  | 2 => if s.pwrState = 0 ∧ s.moving = false then .next (s.takeRequest 2 true) else .next s
  | _ => .next (s.advise 4 0xA0 0)

end Sys2Proof.Machine
end

