-- ==== Sys2Proof/Machine/Regs.lean ====
section
/-! DEFINITION. Machine/Regs.lean: the register interface (chapter 16): which register an offset names, writes by width (Table 16.2), what a
write of each register does, the bit alias (R470), the indirect pair (R474), and the errors of the PCIe link (R416). -/

namespace Sys2Proof.Machine

/-- The instance of a register, and its DW, at an offset of its BAR. -/
def RegInfo.hit (i : RegInfo) (o : Nat) : Option (Nat × Nat) :=
  let d := o - i.base
  let a := if i.stride = 0 then 0 else d / i.stride
  let r := d - a * i.stride
  let j := if i.stride2 = 0 then 0 else r / i.stride2
  let k := r - j * i.stride2
  if i.base ≤ o ∧ j < i.sub ∧ k < i.width / 8 ∧ a * i.sub + j < i.count then some (a * i.sub + j, k / 4) else none

/-- The register at an offset: `space` as in `RegInfo.bar`. -/
def regAt (space o : Nat) : Option (Reg × Nat × Nat) :=
  Reg.all.findSome? fun r => if r.info.bar = space then (r.info.hit o).map fun x => (r, x.1, x.2) else none

/-- BAR0 or BAR2 as a space of the register tables. -/
def barSpace (bar : Nat) : Nat := if bar = 0 then 0 else 1

/-- The bit alias of BAR0 (R470). -/
def inAlias (o : Nat) : Bool := decide (0x80000 ≤ o ∧ o < 0x100000)

/-- The bit alias of a slice's page (Table 10.2), by the offset in the page. -/
def inPageAlias (p : Nat) : Bool := decide (0x4000 ≤ p ∧ p < 0x6000)

/-- Offsets that Table 10.2 lists. -/
def pageListed (p : Nat) : Bool :=
  decide (p < 0x200) || decide (0x1000 ≤ p ∧ p < 0x1100) || decide (0x2000 ≤ p ∧ p < 0x2100) || decide (0x3000 ≤ p ∧ p < 0x300C) || inPageAlias p ||
  decide (0x8000 ≤ p ∧ p < 0x8200)

/-- The aliased word and bit of an alias word of a space. -/
def aliased (bar o : Nat) : Nat × Nat :=
  if bar = 0 then ((o - 0x80000) / 128 * 4, (o - 0x80000) % 128 / 4)
  else
    let p := o % 0x10000 - 0x4000
    (o / 0x10000 * 0x10000 + 0x2000 + p / 32 / 4 * 4, p / 32 % 4 * 8 + p % 32 / 4)

/-- The set byte enables of a request lie side by side. -/
def sideBySide (l : List Bool) : Bool := ((l.dropWhile not).dropWhile id).all not

/-- The byte enables of a request, in the order of its bytes. -/
def enables (dws : List (Nat × Nat)) : List Bool := dws.flatMap fun d => (upto 4).map fun i => nfield d.1 i i == 1

/-- First-DW and last-DW byte enables of a request as GCTL_ACCESS_ERR records them. -/
def errorBe : List (Nat × Nat) → Nat
  | [] => 0
  | [d] => d.1 % 16
  | d :: l => d.1 % 16 + 16 * ((l.getLastD d).1 % 16)

namespace State

/-- An offset of BAR0 that belongs to an absent port, source, slice or unit (R4); ICU_SRCCFG belongs to the source that ICU_SRCSEL names. -/
def absentOfs (s : State) (o : Nat) : Bool :=
  let in_ (a b : Nat) : Bool := decide (a ≤ o ∧ o < b)
  (in_ 0x2400 0x2800 && decide (s.nPorts ≤ (o - 0x2400) / 16)) || (in_ 0x2800 0x3000 && decide (s.nPorts ≤ (o - 0x2800) / 32)) ||
  (in_ 0x4000 0x5000 && decide (s.nPorts ≤ (o - 0x4000) / 64)) || (in_ 0x8000 0x8500 && decide (s.nSources ≤ 8 * (o % 0x100))) ||
  (in_ 0xA000 0xE000 && decide (s.nSlices ≤ (o - 0xA000) / 64)) || (in_ 0xF800 0x10000 && !s.hasTwin) ||
  (in_ 0xFA00 0xFC00 && decide (s.nPorts ≤ (o - 0xFA00) / 8)) || (in_ 0x14000 0x18000 && !s.hasCoder) ||
  (in_ 0x30000 0x40000 && decide (s.nSlices ≤ (o - 0x30000) / 256)) ||
  (in_ 0x8804 0x8808 && decide (s.nSources ≤ s.fget .ICU_SRCSEL_SOURCE))

/-- An instance of a register that reads as zero: of something absent (R4), or on the page of a FREE slice (R337). -/
def regShut (s : State) (r : Reg) (i : Nat) : Bool :=
  let x := r.info
  match x.bar with
  | 0 => s.absentOfs (x.base + x.stride * (i / x.sub) + x.stride2 * (i % x.sub))
  | 1 => s.pageClosed (i / x.sub)
  | _ => decide (x.count = 64 ∧ s.nPorts ≤ i)

/-- A DW whose writes are never logged: R4, R337, and the PBA. -/
def exempt (s : State) (bar o : Nat) : Bool :=
  if bar = 0 then
    s.absentOfs o || (inAlias o && s.absentOfs (aliased 0 o).1) || decide (0x28000 ≤ o ∧ o < 0x28100)
  else decide (s.nSlices ≤ o / 0x10000) || !pageListed (o % 0x10000)

/-- A reserved offset of BAR0, whose writes are logged as UNMAPPED (R463). -/
def unmapped (s : State) (bar o : Nat) : Bool := decide (bar = 0) && !inAlias o && !s.exempt 0 o && (regAt 0 o).isNone

/-- The access acts: after the start, or to the GCTL, HLT and SEC blocks (R439); in SAFE, to the manager rings 0, 1 and 3 (R443). -/
def accessOpen (s : State) (bar o : Nat) : Bool :=
  let w := if bar = 0 ∧ inAlias o then (aliased 0 o).1 else o
  s.ready || (decide (bar = 0) && (decide (w < 0x1000) || decide (0xE800 ≤ w ∧ w < 0xF800) ||
    (s.inSafe && decide (0x3E00 ≤ w ∧ w < 0x3F00 ∧ (w - 0x3E00) / 64 ≠ 2))))

/-! ### What a write of a register does -/

/-- The bits of a register that a write stores. -/
def storedBits (s : State) (r : Reg) : DWord :=
  if r = .GCTL_POLICY ∧ s.hasTwin = false then 0x33F else BitVec.ofNat 64 r.info.rw

/-- The RW and RWP bits under the mask take the data. -/
def store (s : State) (r : Reg) (i mask data : Nat) : State :=
  let m := BitVec.ofNat 64 mask &&& s.storedBits r
  s.wr r i ((s.rd r i &&& ~~~m) ||| (BitVec.ofNat 64 data &&& m))

/-- The bits under a mask of a value replaced. -/
def merged (old mask data : Nat) : Nat :=
  let m := BitVec.ofNat 64 mask
  ((BitVec.ofNat 64 old &&& ~~~m) ||| (BitVec.ofNat 64 data &&& m)).toNat

/-- The next state of a meaning. -/
def after (s : State) (o : Host.Outcome State Fault Refusal) : State :=
  match o with
  | .next t => t
  | _ => s

/-- A write of a channel's SRC, DST, CNT, DPTR or BIND: it takes effect on an IDLE or HALTED software channel, and sets BUSY_WRITE on a busy one
(R311). -/
def chanStore (s : State) (r : Reg) (n mask data : Nat) : State :=
  if !s.software n then s
  else if s.chanSt n = 0 ∨ s.chanSt n = 4 then s.store r n mask data
  else s.raise .MOV_GEVT_BUSY_WRITE

/-- A moderation pair written (Table 11.13). -/
def modWrite (s : State) (e mask data : Nat) : State :=
  let v := s.vector e
  let w := merged (v.timeUs * 65536 + v.cnt) mask data
  s.onVector e fun v => { v with cnt := nfield w 7 0, timeUs := nfield w 25 16 }

/-- The idle hint of an entry set (R371). -/
def idleSet (s : State) (e data : Nat) : State := if nfield data 31 31 = 1 then s.idleHint e else s

/-- A word of a mailbox's staging area written (R339); the mailboxes of a FREE slice ignore it. -/
def stage (s : State) (tenant : Bool) (i data : Nat) : State :=
  if s.sliceState (i / 16) = 0 then s
  else s.onSlice (i / 16) fun x =>
    let put (m : Mailbox) : Mailbox := { m with staging := Tbl.put m.staging (i % 16) (BitVec.ofNat 32 data) }
    if tenant then { x with upw := put x.upw } else { x with down := put x.down }

/-- A write of IND_DATA (R474). -/
def indWrite (s : State) (data : Nat) : State := { (s.fset .IND_ADDR_BUSY 1) with ind := some (data % 2 ^ 32) }

/-- The indirect pair is busy: the write is dropped and logged. -/
def indBusy (s : State) (be : Nat) : State :=
  s.accessError 4 0 be (s.fget .IND_ADDR_DOMAIN) ((s.rd .IND_ADDR 0).toNat % 2 ^ 24)

/-- The bits under `mask` of an instance of a register are written at `t`. A write of ICU_PRIGROUP preempts no running handler by itself: the offers are
compared anew, under the new G, at the next change of the sources (R374, Table 11.2). -/
def regWrite (s : State) (r : Reg) (i mask data t : Nat) : State :=
  let w := (BitVec.ofNat 64 data &&& BitVec.ofNat 64 mask).toNat
  match r with
  | .TIM_CTL =>
    let s1 := s.store r i mask data
    if nfield w 11 11 = 1 then s1.after (execStepGo t s1) else s1
  | .TIM_FRATE | .TIM_FRATE_N => (s.store r i mask data).frateWritten
  | .TIM_LABEL => if nfield mask 63 32 = 2 ^ 32 - 1 then (s.store r i mask data).labelArm t else s.store r i mask data
  | .SCH_CAP | .SCH_CAP_N => (s.store r i mask data).onSched fun c => { c with pctPend := true, capReported := false }
  | .SCH_AMAX | .SCH_AMAX_N => (s.store r i mask data).onSched fun c => { c with
      amaxPend := c.amaxPend.filter (· != i) ++ [i], amaxReported := c.amaxReported.filter (· != i) }
  | .SCH_CTXDIR | .SCH_CTXDIR_N => (s.store r i mask data).onCmgr fun m => { m with reported := false }
  | .GCTL_POLICY | .GCTL_POLICY_N => (s.store r i mask data).onPol fun p => { p with reported := false }
  | .PRT_CFG | .PRT_CFG_N => (s.store r i mask data).onPort (.root i) fun p => { p with cfgReported := false }
  | .SCH_SPILL_BASE => (s.store r i mask data).spillEnable ((s.store r i mask data).flag .SCH_SPILL_BASE_ENABLE)
  | .SCH_DCNT_VAL => (s.counterWrite (merged (Tbl.get 0 s.deal.counters (s.fget .SCH_DCNT_SEL_INDEX)) mask data)).settled
  | .SCH_MRING_CTL =>
    if nfield mask 0 0 = 0 then s else if nfield w 0 0 = 1 then s.after (execMringEnable i s) else s.after (execMringDisable i s)
  | .SCH_MRING_DB => if mask = 2 ^ 64 - 1 then s.after (execDoorbell none i data s) else s
  | .RING_DB => if mask = 2 ^ 64 - 1 then s.after (execDoorbell (some (i / 64)) (i % 64) data s) else s
  | .PRT_CTL => s.portCtl i data t
  | .MOV_SRC | .MOV_DST | .MOV_CNT | .MOV_DPTR | .MOV_BIND | .MOV_BIND_N => s.chanStore r i mask data
  | .MOV_CTL => s.ctlWrite i data false
  | .MOV_GCFG => s.gcfgWrite data
  | .MOV_REQDROP => if !reqLine (s.fget .MOV_REQSEL_LINE) then s else s.onMov fun m => { m with drops := Tbl.put m.drops (s.fget .MOV_REQSEL_LINE) (data % 65536) }
  | .ICU_PSET => s.srcArray i w false State.pset
  | .ICU_PCLR => s.srcArray i w false State.pclr
  | .ICU_ESET => s.srcArray i w false State.eset
  | .ICU_ECLR => s.srcArray i w false State.eclr
  | .ICU_SRCCFG => s.srccfg none data
  | .ICU_VMOD => s.modWrite (s.fget .ICU_VSEL_VECTOR) mask data
  | .ICU_VSTS => s.idleSet (s.fget .ICU_VSEL_VECTOR) w
  | .SLI_PSET => s.sliArray i w State.pset
  | .SLI_PCLR => s.sliArray i w State.pclr
  | .SLI_ESET => s.sliArray i w State.eset
  | .SLI_ECLR => s.sliArray i w State.eclr
  | .SLI_IDLE => s.after (execSliIdleWrite i w t s)
  | .SLI_MOD => s.modWrite i mask data
  | .SLI_VSTS => s.idleSet i w
  | .SLC_WIN | .SLC_WIN_N => (s.store r i mask data).onSlice i fun x => { x with winPend := true, winSaid := false }
  | .PWR_REQ => s.after (execPwrRequest (some data) none t s)
  | .PWR_REQ_N => s.after (execPwrRequest none (some data) t s)
  | .PWR_RCNT => s.store r (s.fget .PWR_RSEL_ID) mask data
  | .SEC_DBG_ALLOW => s.after (execSecDbgAllowWrite data s)
  | .TWN_CFG => s.twinCfgWrite data
  | .MSIX_ADDR => s.onVector i fun v => { v with addr := BitVec.ofNat 64 (merged v.addr.toNat mask data) }
  | .MSIX_DATA => s.onVector i fun v => { v with data := BitVec.ofNat 64 (merged v.data.toNat mask data) }
  | .MSIX_CTL =>
    let on := nfield data 0 0 == 1
    let s1 := s.onVector i fun v => { v with mask := on }
    if on then s1 else s1.unheld i
  | .MBM_DATA => s.stage false i data
  | .MBT_DATA => s.stage true i data
  | .MBM_POST => s.mbxPost i false data
  | .MBT_POST => s.mbxPost i true data
  | .MBM_POP => s.mbxPop i false data
  | .MBT_POP => s.mbxPop i true data
  | .IND_ADDR => if s.flag .IND_ADDR_BUSY then s.indBusy 15 else s.store r i mask data
  | .IND_DATA => if s.flag .IND_ADDR_BUSY then s.indBusy 15 else s.indWrite data
  | _ => s.store r i mask data

/-- A write of one bit through its alias (R470); a doorbell's bits and bits that software cannot write ignore it. -/
def aliasBit (s : State) (bar o data t : Nat) : State :=
  let (word, b) := aliased bar o
  match regAt (barSpace bar) word with
  | some (r, i, k) =>
    let n := 32 * k + b
    if (bar = 0 ∧ s.absentOfs word = true) ∨ nfield (r.info.rw ||| r.info.act) n n = 0 then s
    else if nfield r.info.act n n = 1 ∧ data % 2 = 0 then s
    else s.regWrite r i (2 ^ n) (data % 2 * 2 ^ n) t
  | none => s

/-- A slice's page ignores the write: the slice is absent or FREE (R4, R337). -/
def pageShut (s : State) (bar o : Nat) : Bool := decide (bar ≠ 0) && s.pageClosed (o / 0x10000)

/-- One DW applied by itself. -/
def dwWrite (s : State) (bar o data t : Nat) : State :=
  if s.pageShut bar o || (decide (bar = 0) && s.absentOfs o) then s
  else if (decide (bar = 0) && inAlias o) || (decide (bar ≠ 0) && inPageAlias (o % 0x10000)) then s.aliasBit bar o data t
  else match regAt (barSpace bar) o with
    | some (r, i, k) => s.regWrite r i ((2 ^ 32 - 1) * 2 ^ (32 * k)) (data % 2 ^ 32 * 2 ^ (32 * k)) t
    | none => s

/-- Two DWs in one cycle: a 64-bit register as one access (R466), else the lower and then the upper one. PWR_REQ and PWR_REQ_N are judged once
(R418), and a busy indirect pair is logged once. -/
def pairWrite (s : State) (bar o lo hi t : Nat) : State :=
  if s.pageShut bar o || (decide (bar = 0) && s.absentOfs o) then s
  else match regAt (barSpace bar) o with
    | some (r, i, k) =>
      if k = 0 ∧ r.info.width = 64 then s.regWrite r i (2 ^ 64 - 1) (lo % 2 ^ 32 + hi % 2 ^ 32 * 2 ^ 32) t
      else if r = .PWR_REQ then s.after (execPwrRequest (some lo) (some hi) t s)
      else if r = .IND_ADDR ∧ s.flag .IND_ADDR_BUSY = true then s.indBusy 0xFF
      else (s.dwWrite bar o lo t).dwWrite bar (o + 4) hi t
    | none => (s.dwWrite bar o lo t).dwWrite bar (o + 4) hi t

/-- The DWs of a long request: a single one up to an aligned pair, then pairs; the fuel is their number. -/
def dwsWrite (s : State) (bar o : Nat) (l : List Nat) (t : Nat) : Nat → State
  | 0 => s
  | n + 1 =>
    match l with
    | [] => s
    | [a] => s.dwWrite bar o a t
    | a :: b :: r =>
      if o % 8 = 4 then (s.dwWrite bar o a t).dwsWrite bar (o + 4) (b :: r) t n
      else (s.pairWrite bar o a b t).dwsWrite bar (o + 8) r t n

/-- The offset of a doorbell (R169). -/
def isDoorbell (bar o : Nat) : Bool :=
  match regAt (barSpace bar) o with
  | some (r, _, _) => r == .SCH_MRING_DB || r == .RING_DB
  | none => false

/-- A write request by its width (Table 16.2): the byte enables and the data of each DW, from offset `o` on. -/
def reqWrite (s : State) (bar o : Nat) (dws : List (Nat × Nat)) (t : Nat) : State :=
  let n := dws.length
  let ofs := (upto n).map fun i => o + 4 * i
  let be := errorBe dws
  let datas := dws.map Prod.snd
  if !s.accessOpen bar o then s
  else if dws.all (fun d => d.1 % 16 == 0) && decide (n ≤ 1) then s
  else if dws.any (fun d => d.1 % 16 != 15) then
    if ofs.all (s.exempt bar) then s
    else s.accessError (if sideBySide (enables dws) then 1 else 2) (bit (bar != 0)) be 0 o
  else if n = 1 ∧ isDoorbell bar o = true then
    if s.exempt bar o then s else s.accessError 1 (bit (bar != 0)) be 0 o
  else
    let s1 := match datas with
      | [a] => s.dwWrite bar o a t
      | [a, b] => s.pairWrite bar o a b t
      | l => s.dwsWrite bar o l t n
    if ofs.any (s.unmapped bar) then s1.accessError 3 0 be 0 o else s1

/-! ### The indirect pair (R474) -/

/-- The word that IND_ADDR names (Table 16.6). -/
def indWord (s : State) : Option (Reg × Nat) :=
  if s.fget .IND_ADDR_DOMAIN = 1 then (regAt 2 (s.fget .IND_ADDR_WORD)).map fun x => (x.1, x.2.1) else none

/-- WORD advances under INC, and wraps. -/
def indAdvance (s : State) : State :=
  if s.flag .IND_ADDR_INC then s.fset .IND_ADDR_WORD ((s.fget .IND_ADDR_WORD + 1) % 2 ^ 22) else s

/-- An access to an unmapped word. -/
def indUnmapped (s : State) : State :=
  if s.indWord.isSome then s else s.accessError 5 0 15 (s.fget .IND_ADDR_DOMAIN) ((s.rd .IND_ADDR 0).toNat % 2 ^ 24)

/-- What the word reads; that of an absent port reads zero (R4). -/
def indValue (s : State) : DWord :=
  match s.indWord with
  | some (r, n) => if n < s.nPorts then s.rd r n else 0
  | none => 0

end State

/-! ### Rows -/

/-- REGISTER_WRITE: a write request at an offset of BAR0 or BAR2 (`bar` 0 or 2), its DWs with their byte enables, at time-base instant `t`. -/
def execRegisterWrite (bar ofs : Nat) (dws : List (Nat × Nat)) (t : Nat) (s : State) : Host.Outcome State Fault Refusal :=
  .next ((s.at_ t).reqWrite bar (ofs / 4 * 4) dws t)

/-- ALIAS_WRITE: a write of one alias word. -/
def execAliasWrite (bar ofs be data t : Nat) (s : State) : Host.Outcome State Fault Refusal :=
  .next (if (bar = 0 ∧ inAlias ofs = true) ∨ (bar ≠ 0 ∧ inPageAlias (ofs % 0x10000) = true) then (s.at_ t).reqWrite bar (ofs / 4 * 4) [(be, data)] t
    else s)

/-- IND_DATA_READ: of full width with INC it advances WORD; `wide`: a 64-bit read, which returns IND_ADDR too. While BUSY = 1 the read waits. -/
def execIndDataRead (narrow wide : Bool) (s : State) : Host.Outcome State Fault Refusal :=
  s.readReady (.next (
    if s.flag .IND_ADDR_BUSY then s
    else
      let s1 := (if wide then s.answer (s.rd .IND_ADDR 0) else s).answer s.indValue
      let s2 := s1.indUnmapped
      (if narrow then s2 else s2.indAdvance).fset .IND_ADDR_BUSY 1))

/-- IND_DATA_WRITE: byte enables and data of a write of one DW. -/
def execIndDataWrite (be data : Nat) (s : State) : Host.Outcome State Fault Refusal :=
  s.whenReady (.next (
    if be % 16 ≠ 15 then s.narrowWrite 0 (be % 16) 0x18004
    else if s.flag .IND_ADDR_BUSY then s.indBusy 15
    else s.indWrite data))

/-- IND_ACCESS_DONE: the access completes, BUSY clears, a write is applied to its word, and WORD advances. -/
def execIndAccessDone (s : State) : Host.Outcome State Fault Refusal :=
  .next (
    if !s.flag .IND_ADDR_BUSY then s
    else
      let s1 := s.fset .IND_ADDR_BUSY 0
      match s.ind with
      | some d =>
        let s2 := match s1.indWord with
          | some (r, n) => if n < s1.nPorts then s1.store r n (2 ^ 32 - 1) d else s1
          | none => s1.indUnmapped
        { s2.indAdvance with ind := none }
      | none => s1)

/-- GCTL_ACCESS_ERR_READ: a full-width read of GCTL_ACCESS_ERR; `wide`: with GCTL_ACCESS_ADDR. -/
def execGctlAccessErrRead (wide : Bool) (s : State) : Host.Outcome State Fault Refusal :=
  let s1 := s.eventRead .GCTL_ACCESS_ERR .GCTL_ACCESS_ERR_SHADOW 0 false 134
  .next (if wide then s1.answer (s.rd .GCTL_ACCESS_ADDR 0) else s1)

/-- The AER bits that the endpoint supports (R416). -/
def aerKnown (e : TlpError) : Bool :=
  if e.uncorr then [4, 12, 13, 14, 16, 17, 18, 20, 22].contains e.bit else [0, 6, 7, 8, 12, 13, 14].contains e.bit

/-- PCIE_TLP_ERROR: the TLP is dropped, or, where it asks for a completion that is Unsupported Request, answered so; AER logs it (R416). -/
def execPcieTlpError (e : TlpError) (answered : Bool) (s : State) : Host.Outcome State Fault Refusal :=
  let s1 := if answered && e.uncorr && e.bit == 20 then s.emit .unsupported else s
  .next (if !aerKnown e then s1 else if e.uncorr then s1.aerUncorr e.bit e.header e.prefix_ (e.bit == 22) else s1.aerCorr e.bit)

/-! ### What a read shows -/

namespace State

/-- Sum of bits of a list of sources that hold a property, as a word of an ICU array. -/
def srcWord (s : State) (k : Nat) (p : Source → Bool) : Nat :=
  ((upto 32).map fun j => bit (decide (32 * k + j < s.nSources) && p (s.source (32 * k + j))) * 2 ^ j).foldl (· + ·) 0

/-- The two sources of a slice. -/
def sliWord (s : State) (n : Nat) (p : Source → Bool) : Nat := bit (p (s.source (256 + 2 * n))) + 2 * bit (p (s.source (257 + 2 * n)))

/-- ICU_SRCCFG of a source; the fields of a slice source read back as R375 says. -/
def srcCfg (s : State) (x : Nat) : Nat :=
  let o := s.source x
  let vec := match s.sliceSource x with
    | some n => 8 * n + (if x % 2 = 0 then s.fgetN .SLI_ROUTE_MBX_VEC n else s.fgetN .SLI_ROUTE_STS_VEC n)
    | none => o.vector
  (if (s.sliceSource x).isSome then 2 else o.tmode) * 2 ^ 30 + o.cores * 2 ^ 26 + vec * 2 ^ 14 + s.senseOf x * 2 ^ 11 + o.prio

/-- A vector's status (Table 11.14). -/
def vecSts (s : State) (e : Nat) : Nat := bit (s.vector e).idle * 2 ^ 31 + bit (s.vector e).held * 2 ^ 30 + (s.vector e).reqs

/-- A ring's status (Table 5.9). -/
def ringSts (s : State) (n : Nat) : Nat :=
  (s.ring n).reason * 2 ^ 44 + (s.ring n).st * 2 ^ 40 + (s.ring n).tail * 2 ^ 20 + (s.ring n).head

/-- A side of a slice's mailboxes (Table 10.5). -/
def mbxSts (out_ in_ : Mailbox) : Nat :=
  (256 - out_.bytes) * 65536 + in_.msgs.length * 256 + ((in_.msgs.head?.map List.length).getD 0)

/-- A word of the oldest message. -/
def mbxRecv (m : Mailbox) (i : Nat) : Nat := leNat (Sys2Proof.slice (4 * i) 4 (m.msgs.headD []))

/-- SLC_STSs with the rings that the slice holds. -/
def slcSts (s : State) (n : Nat) : Nat :=
  nset (s.rd .SLC_STS n).toNat 30 24 (s.rings.filter fun x => x.2.slice == some n).length

/-- HLT_OBJ (Table 15.17). -/
def hltObj (s : State) (kind i : Nat) : Nat :=
  let h := s.hlt
  match kind with
  | 1 =>
    let b := Tbl.get ⟨[], 0, 0⟩ h.banks i
    b.hour.length * 2 ^ 32 + min 65535 b.uncorr * 65536 + min 65535 b.corr
  | 2 =>
    let e := Tbl.get PortEye.init h.eyes i
    e.width % 65536 * 2 ^ 48 + e.height % 65536 * 2 ^ 32 + e.corrS % 2 ^ 32
  | 3 =>
    let x := Tbl.get (0, 0) h.sensors i
    toBits 8 x.2 * 256 + toBits 8 x.1
  | 4 => Tbl.get 0 h.osc i % 65536
  | 5 => min 65535 (Tbl.get (0, 0) h.rails i).2 * 65536 + (Tbl.get (0, 0) h.rails i).1 % 65536
  | 6 => h.life / 3600000000000 % 2 ^ 32
  | _ => 0

/-- SCH_OCCn (Table 6.20). -/
def occWord (s : State) (n : Nat) : Nat :=
  let l := Tbl.get [] s.sched.active n
  if l.isEmpty then 0
  else
    let m := (upto (periodOf l)).foldl (fun (m : Nat × Nat) phi =>
      let w := s.wNs (s.byteTime n) l phi
      if m.2 < w then (phi, w) else m) (0, 0)
    m.1 * 2 ^ 20 + min (2 ^ 20 - 1) m.2

/-- SCH_ADM_STS (Table 6.15). -/
def admSts (s : State) : Nat :=
  let c := s.sched
  let adm : Bool := c.batch.any fun b => !b.admitted
  let com : Bool := c.batch.any fun b => b.admitted
  bit adm * 2 ^ 31 + bit com * 2 ^ 30 + ((c.batch.bind fun b => b.toSwitch.head?).getD 0) * 2 ^ 24 + s.fget .SCH_ADM_STS_LATE_CNT * 2 ^ 15 +
    (c.active.map fun x => x.2.length).foldl (· + ·) 0

/-- GCTL_POLICY_STS (Table 1.11). -/
def policySts (s : State) : Nat :=
  let rate : Bool := (upto s.nPorts).any fun n => (s.port (.root n)).rateChg.any fun c => c.byPolicy && !c.deferred
  let take : Bool := s.twin.trees.any fun x => x.2.byPolicy
  s.fget .GCTL_POLICY_STS_ACTION_COUNT * 65536 + 16 * bit s.pwr.byPolicy + 8 * bit take + 4 * bit (s.hlt.retire.any fun r => r.cmd.isNone) +
    2 * bit (decide (s.pol.share < 8)) + bit rate

/-- What a read of a present register shows, without side effect: the stored value, or, for what the register reports of the rest of the state, that. -/
def regShows (s : State) (r : Reg) (i : Nat) : DWord :=
  let n64 (x : Nat) : DWord := BitVec.ofNat 64 x
  let sl := s.slice i
  match r with
  | .GCTL_POLICY_STS => n64 s.policySts
  | .TIM_NOW => n64 s.tim.now
  | .TIM_FRAME_NO => n64 s.frameNo
  | .TIM_FRAME_START => n64 s.tim.heldStart
  | .TIM_PTM_LOCAL => n64 s.tim.heldLocal
  | .SCH_CAP_NS => n64 s.capNs
  | .SCH_ADM_STS => n64 s.admSts
  | .SCH_SPILL_STS =>
    n64 (bit (decide (0 < s.deal.spillBlocks ∧ s.spillUsed = s.deal.spillBlocks)) * 2 ^ 31 + s.fget .SCH_SPILL_STS_ERR * 2 ^ 30 + s.spillUsed)
  | .SCH_QSTS => n64 (s.onChip fun _ => true)
  | .SCH_DSTS => n64 (s.entries.filter fun e => e.delay.isSome).length
  | .SCH_DCNT_VAL => n64 (Tbl.get 0 s.deal.counters (s.fget .SCH_DCNT_SEL_INDEX))
  | .SCH_OCC => n64 (s.occWord i)
  | .SCH_RESSUM => n64 (s.resSum i)
  | .SCH_MRING_STS => n64 (s.ringSts i)
  | .SCH_CTXSTS => n64 s.pinned
  | .SCH_CTXCACHED => n64 s.ctxs.length
  | .MOV_REQDROP => n64 (Tbl.get 0 s.mov.drops (s.fget .MOV_REQSEL_LINE))
  | .ICU_PSET | .ICU_PCLR => n64 (s.srcWord i Source.pend)
  | .ICU_ESET | .ICU_ECLR => n64 (s.srcWord i Source.en)
  | .ICU_ACT => n64 (s.srcWord i Source.act)
  | .ICU_CLAIM => n64 ((s.claimed i).getD 0x7FF)
  | .ICU_SRCCFG => n64 (s.srcCfg (s.fget .ICU_SRCSEL_SOURCE))
  | .ICU_VMOD => n64 ((s.vector (s.fget .ICU_VSEL_VECTOR)).timeUs * 65536 + (s.vector (s.fget .ICU_VSEL_VECTOR)).cnt)
  | .ICU_VSTS => n64 (s.vecSts (s.fget .ICU_VSEL_VECTOR))
  | .SLI_PSET | .SLI_PCLR => n64 (s.sliWord i Source.pend)
  | .SLI_ESET | .SLI_ECLR => n64 (s.sliWord i Source.en)
  | .SLI_IDLE => n64 (((upto 8).map fun v => bit (s.vector (8 * i + v)).idle * 2 ^ v).foldl (· + ·) 0)
  | .SLI_MOD => n64 ((s.vector i).timeUs * 65536 + (s.vector i).cnt)
  | .SLI_VSTS => n64 (s.vecSts i)
  | .SLC_STS | .SLT_STS => n64 (s.slcSts i)
  | .SLT_ID => n64 (sl.pasid * 256 + i)
  | .SLT_HBASE => sl.hbase
  | .SLT_HLIM => sl.hlim
  | .SLT_WIN => sl.win
  | .SLT_CNTR => sl.cntr
  | .SLT_RING =>
    match s.rings.find? fun x => x.2.slice == some (i / 64) && x.2.dbIdx == i % 64 with
    | some x => n64 (2 ^ 31 + x.1)
    | none => 0
  | .PWR_RCNT => s.rd r (s.fget .PWR_RSEL_ID)
  | .HLT_OBJ => n64 (s.hltObj (s.fget .HLT_SEL_KIND) (s.fget .HLT_SEL_INDEX))
  | .SEC_AUDIT => n64 (s.fget .SEC_AUDIT_LOST * 65536 + s.audit.held.length)
  | .GTH_STS => n64 (s.openSlots * 65536 + s.smp.groups.length)
  | .GTH_MEMB => n64 ((s.smp.groups.map fun x => x.2.members.length).foldl (· + ·) 0)
  | .CDR_STS => n64 ((s.smp.streams.map fun x => x.2.ch).foldl (· + ·) 0 * 65536 + s.smp.streams.length)
  | .CDR_BACKLOG =>
    n64 ((s.smp.streams.map fun x => (x.2.closed.map fun p => p.samples.length * x.2.ch).foldl (· + ·) 0).foldl (· + ·) 0)
  | .MSIX_ADDR => (s.vector i).addr
  | .MSIX_DATA => (s.vector i).data
  | .MSIX_CTL => n64 (bit (s.vector i).mask)
  | .MSIX_PBA => n64 (((upto 64).map fun j => bit (s.vector (64 * i + j)).pba * 2 ^ j).foldl (· + ·) 0)
  | .MBM_RECV => n64 (mbxRecv (s.slice (i / 16)).upw (i % 16))
  | .MBT_RECV => n64 (mbxRecv (s.slice (i / 16)).down (i % 16))
  | .MBM_STS => n64 (mbxSts sl.down sl.upw)
  | .MBT_STS => n64 (mbxSts sl.upw sl.down)
  | .RING_DB | .SCH_MRING_DB | .MBM_DATA | .MBT_DATA | .MBM_POST | .MBT_POST | .MBM_POP | .MBT_POP => 0
  | .IND_DATA => s.indValue
  | _ => s.rd r i

/-- What a read of a register shows, without side effect. -/
def regView (s : State) (r : Reg) (i : Nat) : DWord := if s.regShut r i then 0 else s.regShows r i

end State

end Sys2Proof.Machine
end

