-- ==== Sys2Proof/Machine/Token.lean ====
section
/-! DEFINITION. Machine/Token.lean: the local tick of hubs and modules, and the ownership token of dual-upstream hubs
(R381–R384). -/

namespace Sys2Proof.Machine

/-- HOLDER of a token (R383). -/
def holderCode (h : Option Nat) : Nat :=
  match h with
  | some u => u % 2
  | none => 2

namespace State

/-- TOKEN_STATE on an upstream port. -/
def sendTokenState (s : State) (d up : Nat) : State :=
  let k := (s.dev d).token
  s.sendCtl (.dev d up) 0x11 0 (k.epoch + holderCode k.holder * 2 ^ 16 + bit (k.holder == some up) * 2 ^ 19) 0

/-- The token of a hub changed. -/
def onToken (s : State) (d : Nat) (f : HubToken → HubToken) : State := s.onDev d fun v => { v with token := f v.token }

/-- The holder changes: TOKEN_LOST to the former one, TOKEN_STATE on both upstream ports (R382, R384). -/
def changeHolder (s : State) (d up : Nat) : State :=
  let old := (s.dev d).token.holder
  let s1 := s.onToken d fun k => { k with holder := some up, pendingHolder := none, releaseAt := none, missed := 0, gotFrame := false }
  if old = some up then s1
  else
    let s2 := match old with
      | some o => s1.sendCtl (.dev d o) 0x16 0 (s1.dev d).token.epoch 0
      | none => s1
    (s2.sendTokenState d 0).sendTokenState d 1

/-- The holder is gone: its link is down, or its last two FRAMEs were missed. -/
def holderSilent (s : State) (d h : Nat) : Bool := !(s.link (.dev d h)).up || decide (2 ≤ (s.dev d).token.missed)

end State

/-- TOKEN_QUERY at a dual-upstream hub. -/
def execTokenQuery (d up : Nat) (s : State) : Host.Outcome State Fault Refusal :=
  if (s.dev d).kind = 3 then .next (s.sendTokenState d up) else .next s

/-- TOKEN_CLAIM at a dual-upstream hub (R384). EPOCH advances with the grant; a claim that names a frame the holder has not
released is denied for that, any other for the active holder. A repeated claim of the port that was granted the EPOCH is granted again as it was, for the
frame of the first grant (log entry 114). -/
def execTokenClaim (d up epoch : Nat) (forced : Bool) (frameNo : Nat) (s : State) : Host.Outcome State Fault Refusal :=
  let k := (s.dev d).token
  let l := LinkEndId.dev d up
  if (s.dev d).kind ≠ 3 then .next s
  else if epoch = k.epoch ∧ k.granted.map Prod.fst = some up then .next (s.sendCtl l 0x13 0 epoch ((k.granted.map Prod.snd).getD 0))
  else if epoch ≠ (k.epoch + 1) % 65536 then .next (s.sendCtl l 0x14 0 (k.epoch + 1 * 2 ^ 20) 0)
  else
    let free := match k.holder with
      | none => true
      | some h => h == up || s.holderSilent d h || forced || (frameNo != 0 && k.releaseAt == some frameNo)
    if free then
      let s1 := (s.onToken d fun k => { k with epoch := epoch, granted := some (up, frameNo) }).sendCtl l 0x13 0 epoch frameNo
      .next (if frameNo = 0 then s1.changeHolder d up else s1.onToken d fun k => { k with pendingHolder := some (up, frameNo) })
    else .next (s.sendCtl l 0x14 0 (k.epoch + (if frameNo = 0 then 2 else 3) * 2 ^ 20) 0)

/-- TOKEN_RELEASE from the holder: the switch frame is recorded. -/
def execTokenRelease (d up epoch frameNo : Nat) (s : State) : Host.Outcome State Fault Refusal :=
  let k := (s.dev d).token
  if (s.dev d).kind = 3 ∧ k.holder = some up ∧ epoch = k.epoch ∧ frameNo ≠ 0 then
    .next (s.onToken d fun k => { k with releaseAt := some frameNo })
  else .next s

/-- 5 us after a hub's local tick no FRAME was accepted on the holder's port: counted as missed (R382). -/
def execHolderFrameMissed (d : Nat) (s : State) : Host.Outcome State Fault Refusal :=
  let k := (s.dev d).token
  if (s.dev d).kind = 3 ∧ k.holder.isSome ∧ ¬ k.gotFrame then .next (s.onToken d fun k => { k with missed := k.missed + 1 })
  else .next s

namespace State

/-- A feature that was cleared or set while a change was under way is acted on once that is over, in the frame S that came with it (R110). -/
def hubRateWaits (s : State) (p : PortId) : State :=
  match (s.port p).rateChg, (s.port p).cfgWant with
  | none, some (w, f) => s.hubRate p w f
  | _, _ => s

/-- A hub port's part of the rate changes of its link at the local tick of frame `n` (R108, R110). -/
def hubRateTick (n : Nat) (s0 : State) (p : PortId) : State :=
  let s := (s0.emptyOver p n).hubRateWaits p
  match (s.port p).rateChg with
  | some c =>
    if s.portState p = 8 then s
    else if c.sFrame = (n + 1) % 2 ^ 32 then (if s.portState p = 4 then s.sendRateReq p false else s)
    else if c.sFrame = n ∨ later32 n c.sFrame then s.rateSwitch p
    else s
  | none => s

/-- A downstream end's part: it switches at its own tick S, and trains. -/
def devRateTick (s : State) (n : Nat) (l : LinkEndId) : State :=
  match (s.link l).ratePend with
  | some (r, f, now) =>
    if !now && f == n then
      (s.onLink l fun e => { e.toRate r with up := false, seenSent := false, seenRecv := false, peerCaps := none }).sendCaps l
    else s
  | none => s

end State

/-- A hub or module's own clock reaches the tick of frame `n`: a granted token changes hands, rates switch, and the frame counts as
one without a FRAME until it is accepted (R61). -/
def execLocalTick (d n t : Nat) (s : State) : Host.Outcome State Fault Refusal :=
  let s0 := (s.at_ t).onDev d fun v => { v with frameMiss := v.frameMiss + 1, token := { v.token with gotFrame := false } }
  let s1 := match (s0.dev d).token.pendingHolder with
    | some (up, f) => if f = n then s0.changeHolder d up else s0
    | none => s0
  let s2 := (s1.devRateTick n (.dev d 0)).devRateTick n (.dev d 1)
  .next ((s2.hubPorts d).foldl (State.hubRateTick n) s2)

end Sys2Proof.Machine
end

