-- ==== Sys2Proof/Machine/Dispatch.lean ====
section
/-! DEFINITION. Machine/Dispatch.lean: one arm for each command, each a direct call of its meaning. -/

namespace Sys2Proof.Machine

def exec (i : Instr) (s : State) : Host.Outcome State Fault Refusal :=
  match i with
  | .frameTick corr behind tTx h => Sys2Proof.Machine.execFrameTick corr behind tTx h s
  | .handDeadline cuts => Sys2Proof.Machine.execHandDeadline cuts s
  | .guardBandStart t => Sys2Proof.Machine.execGuardBandStart t s
  | .ppsInEdge rising t => Sys2Proof.Machine.execPpsInEdge rising t s
  | .ppsInLost => Sys2Proof.Machine.execPpsInLost s
  | .refInLost => Sys2Proof.Machine.execRefInLost s
  | .refInValid => Sys2Proof.Machine.execRefInValid s
  | .irigFrameReceive good year secOfYear => Sys2Proof.Machine.execIrigFrameReceive good year secOfYear s
  | .irigInLost => Sys2Proof.Machine.execIrigInLost s
  | .ptmDialogueDone ok hostSec hostNs loc => Sys2Proof.Machine.execPtmDialogueDone ok hostSec hostNs loc s
  | .errEstGrowth => Sys2Proof.Machine.execErrEstGrowth s
  | .stepGo t => Sys2Proof.Machine.execStepGo t s
  | .frameEnWrite en => Sys2Proof.Machine.execFrameEnWrite en s
  | .timNowRead w t => Sys2Proof.Machine.execTimNowRead w t s
  | .timFrameNoRead w => Sys2Proof.Machine.execTimFrameNoRead w s
  | .timPtmHostRead w => Sys2Proof.Machine.execTimPtmHostRead w s
  | .timLabelWrite w data t be => Sys2Proof.Machine.execTimLabelWrite w data t be s
  | .timEvtRead both => Sys2Proof.Machine.execTimEvtRead both s
  | .frameReceive d up payload tRx tTx t1 => Sys2Proof.Machine.execFrameReceive d up payload tRx tTx t1 s
  | .delayReqReceive p payload t2 t3 => Sys2Proof.Machine.execDelayReqReceive p payload t2 t3 s
  | .delayRespReceive d up payload t4 => Sys2Proof.Machine.execDelayRespReceive d up payload t4 s
  | .delayReqAbandon d up => Sys2Proof.Machine.execDelayReqAbandon d up s
  | .syncLost d => Sys2Proof.Machine.execSyncLost d s
  | .syncGain l groups => Sys2Proof.Machine.execSyncGain l groups s
  | .syncLoss l groups t => Sys2Proof.Machine.execSyncLoss l groups t s
  | .codewordLock l blocks => Sys2Proof.Machine.execCodewordLock l blocks s
  | .codewordLockLoss l blocks t => Sys2Proof.Machine.execCodewordLockLoss l blocks t s
  | .packetReceive l line begun t => Sys2Proof.Machine.execPacketReceive l line begun t s
  | .linkctlAckReceive l seq => Sys2Proof.Machine.execLinkctlAckReceive l seq s
  | .linkctlRetryReceive l seq t tTx => Sys2Proof.Machine.execLinkctlRetryReceive l seq t tTx s
  | .replayTimeout l t tTx => Sys2Proof.Machine.execReplayTimeout l t tTx s
  | .capsReceive l seq arg t t1 tTx => Sys2Proof.Machine.execCapsReceive l seq arg t t1 tTx s
  | .capsRepeat l t => Sys2Proof.Machine.execCapsRepeat l t s
  | .rateReqReceive d up arg frameNo => Sys2Proof.Machine.execRateReqReceive d up arg frameNo s
  | .rateAckReceive p arg frameNo => Sys2Proof.Machine.execRateAckReceive p arg frameNo s
  | .rateReqRepeat p => Sys2Proof.Machine.execRateReqRepeat p s
  | .linkctlResetReceive d up t => Sys2Proof.Machine.execLinkctlResetReceive d up t s
  | .resetEchoReceive p t => Sys2Proof.Machine.execResetEchoReceive p t s
  | .linkctlSuspendReceive d up t => Sys2Proof.Machine.execLinkctlSuspendReceive d up t s
  | .suspendEchoReceive p t => Sys2Proof.Machine.execSuspendEchoReceive p t s
  | .linkctlResumeReceive d up t => Sys2Proof.Machine.execLinkctlResumeReceive d up t s
  | .resumeEchoReceive p t => Sys2Proof.Machine.execResumeEchoReceive p t s
  | .linkctlWakeReceive p t => Sys2Proof.Machine.execLinkctlWakeReceive p t s
  | .linkctlCmdRepeat l t => Sys2Proof.Machine.execLinkctlCmdRepeat l t s
  | .signalDetect p t => Sys2Proof.Machine.execSignalDetect p t s
  | .connectDebounceDone p t => Sys2Proof.Machine.execConnectDebounceDone p t s
  | .trainingTimeout p => Sys2Proof.Machine.execTrainingTimeout p s
  | .resetEchoTimeout p t => Sys2Proof.Machine.execResetEchoTimeout p t s
  | .retrainTimeout p => Sys2Proof.Machine.execRetrainTimeout p s
  | .resumeTimeout p => Sys2Proof.Machine.execResumeTimeout p s
  | .suspendEchoTimeout p t => Sys2Proof.Machine.execSuspendEchoTimeout p t s
  | .linkLost p t => Sys2Proof.Machine.execLinkLost p t s
  | .rateLock l t tTx => Sys2Proof.Machine.execRateLock l t tTx s
  | .rateLockTimeout l t => Sys2Proof.Machine.execRateLockTimeout l t s
  | .portEnable n en rwake t => Sys2Proof.Machine.execPortEnable n en rwake t s
  | .portClearError n t => Sys2Proof.Machine.execPortClearError n t s
  | .portRetrain n t => Sys2Proof.Machine.execPortRetrain n t s
  | .portResume n t => Sys2Proof.Machine.execPortResume n t s
  | .portSuspend n t => Sys2Proof.Machine.execPortSuspend n t s
  | .portReset n t => Sys2Proof.Machine.execPortReset n t s
  | .prtChgRead n both => Sys2Proof.Machine.execPrtChgRead n both s
  | .xcvrIdentify n => Sys2Proof.Machine.execXcvrIdentify n s
  | .xcvrDiagRead n data => Sys2Proof.Machine.execXcvrDiagRead n data s
  | .sidebandScan bits => Sys2Proof.Machine.execSidebandScan bits s
  | .modAbsChange n => Sys2Proof.Machine.execModAbsChange n s
  | .losTxFaultAccept n => Sys2Proof.Machine.execLosTxFaultAccept n s
  | .mscFault => Sys2Proof.Machine.execMscFault s
  | .getPortStatus d => Sys2Proof.Machine.execGetPortStatus d s
  | .setPortFeature d t => Sys2Proof.Machine.execSetPortFeature d t s
  | .clearPortFeature d t => Sys2Proof.Machine.execClearPortFeature d t s
  | .transactionStart n tag t => Sys2Proof.Machine.execTransactionStart n tag t s
  | .answerReceive n p poisoned t tEnd => Sys2Proof.Machine.execAnswerReceive n p poisoned t tEnd s
  | .answerTimeout n tag t => Sys2Proof.Machine.execAnswerTimeout n tag t s
  | .callInReceive d p => Sys2Proof.Machine.execCallInReceive d p s
  | .callOutReceive d p data room after => Sys2Proof.Machine.execCallOutReceive d p data room after s
  | .commandReceive d p data tHold tExec => Sys2Proof.Machine.execCommandReceive d p data tHold tExec s
  | .execAtExecute d ep => Sys2Proof.Machine.execExecAtExecute d ep s
  | .pingReceive d p room => Sys2Proof.Machine.execPingReceive d p room s
  | .setupReceive d p => Sys2Proof.Machine.execSetupReceive d p s
  | .controlTransferTimeout eph => Sys2Proof.Machine.execControlTransferTimeout eph s
  | .getStatus d => Sys2Proof.Machine.execGetStatus d s
  | .clearHalt d => Sys2Proof.Machine.execClearHalt d s
  | .resetEndpoint d => Sys2Proof.Machine.execResetEndpoint d s
  | .setAddress d => Sys2Proof.Machine.execSetAddress d s
  | .getRecord d => Sys2Proof.Machine.execGetRecord d s
  | .getConfiguration d => Sys2Proof.Machine.execGetConfiguration d s
  | .setConfiguration d => Sys2Proof.Machine.execSetConfiguration d s
  | .setRemoteWake d => Sys2Proof.Machine.execSetRemoteWake d s
  | .setLinkAsym d => Sys2Proof.Machine.execSetLinkAsym d s
  | .contextFetchDone eph h => Sys2Proof.Machine.execContextFetchDone eph h s
  | .doorbell slice j db => Sys2Proof.Machine.execDoorbell slice j db s
  | .mringEnable n => Sys2Proof.Machine.execMringEnable n s
  | .mringDisable n => Sys2Proof.Machine.execMringDisable n s
  | .tdTake r tds bufs spillOk => Sys2Proof.Machine.execTdTake r tds bufs spillOk s
  | .tdWriteback r idx => Sys2Proof.Machine.execTdWriteback r idx s
  | .cmdWriteback r st => Sys2Proof.Machine.execCmdWriteback r st s
  | .hostTransportStart r idx => Sys2Proof.Machine.execHostTransportStart r idx s
  | .reservedOpcode r d => Sys2Proof.Machine.execReservedOpcode r d s
  | .ringCreate r d => Sys2Proof.Machine.execRingCreate r d s
  | .ringStop r d => Sys2Proof.Machine.execRingStop r d s
  | .ringStart r d => Sys2Proof.Machine.execRingStart r d s
  | .ringDestroy r d imgs => Sys2Proof.Machine.execRingDestroy r d imgs s
  | .ringQuery r d => Sys2Proof.Machine.execRingQuery r d s
  | .epInstall r d img h => Sys2Proof.Machine.execEpInstall r d img h s
  | .epRemove r d h => Sys2Proof.Machine.execEpRemove r d h s
  | .epStop r d h => Sys2Proof.Machine.execEpStop r d h s
  | .epStart r d h => Sys2Proof.Machine.execEpStart r d h s
  | .epReset r d h => Sys2Proof.Machine.execEpReset r d h s
  | .epFlush r d h => Sys2Proof.Machine.execEpFlush r d h s
  | .epQuery r d h => Sys2Proof.Machine.execEpQuery r d h s
  | .subtreeGone r d others => Sys2Proof.Machine.execSubtreeGone r d others s
  | .tdCancel r d imgs => Sys2Proof.Machine.execTdCancel r d imgs s
  | .enumerate r d h eps => Sys2Proof.Machine.execEnumerate r d h eps s
  | .xcvrRead r d => Sys2Proof.Machine.execXcvrRead r d s
  | .portRate r d => Sys2Proof.Machine.execPortRate r d s
  | .applyAdvice r d t => Sys2Proof.Machine.execApplyAdvice r d t s
  | .schedBatch r d list => Sys2Proof.Machine.execSchedBatch r d list s
  | .batchAdmitted h => Sys2Proof.Machine.execBatchAdmitted h s
  | .schedReserve r d => Sys2Proof.Machine.execSchedReserve r d s
  | .schedQuery r d => Sys2Proof.Machine.execSchedQuery r d s
  | .schedClear r d => Sys2Proof.Machine.execSchedClear r d s
  | .delayRelease t => Sys2Proof.Machine.execDelayRelease t s
  | .notyetTimeout eph => Sys2Proof.Machine.execNotyetTimeout eph s
  | .spillReturn n ok => Sys2Proof.Machine.execSpillReturn n ok s
  | .spillEnable en => Sys2Proof.Machine.execSpillEnable en s
  | .schDcntValWrite v => Sys2Proof.Machine.execSchDcntValWrite v s
  | .schAdmEvtRead both => Sys2Proof.Machine.execSchAdmEvtRead both s
  | .sampleBlockForm d ep stamp body => Sys2Proof.Machine.execSampleBlockForm d ep stamp body s
  | .gatherDeadline g => Sys2Proof.Machine.execGatherDeadline g s
  | .streamRecordWrite ring => Sys2Proof.Machine.execStreamRecordWrite ring s
  | .coderBlockCode k => Sys2Proof.Machine.execCoderBlockCode k s
  | .coderLateRaw k => Sys2Proof.Machine.execCoderLateRaw k s
  | .gatherCreate r d img h => Sys2Proof.Machine.execGatherCreate r d img h s
  | .gatherDestroy r d => Sys2Proof.Machine.execGatherDestroy r d s
  | .gatherQuery r d => Sys2Proof.Machine.execGatherQuery r d s
  | .coderAttach r d img h => Sys2Proof.Machine.execCoderAttach r d img h s
  | .coderDetach r d => Sys2Proof.Machine.execCoderDetach r d s
  | .coderQuery r d => Sys2Proof.Machine.execCoderQuery r d s
  | .gthEvtRead both => Sys2Proof.Machine.execGthEvtRead both s
  | .cdrEvtRead both => Sys2Proof.Machine.execCdrEvtRead both s
  | .movGo n v => Sys2Proof.Machine.execMovGo n v s
  | .movStop n v same => Sys2Proof.Machine.execMovStop n v same s
  | .movSwchWrite v => Sys2Proof.Machine.execMovSwchWrite v s
  | .swchApply => Sys2Proof.Machine.execSwchApply s
  | .moverDescDone n desc src dst ecc fence => Sys2Proof.Machine.execMoverDescDone n desc src dst ecc fence s
  | .reqLineRequest line data src dst => Sys2Proof.Machine.execReqLineRequest line data src dst s
  | .hostReadFail w attempt desc src dst tlp t => Sys2Proof.Machine.execHostReadFail w attempt desc src dst tlp t s
  | .moverRetry w t => Sys2Proof.Machine.execMoverRetry w t s
  | .moverDryBoundary n => Sys2Proof.Machine.execMoverDryBoundary n s
  | .movStsRead n both => Sys2Proof.Machine.execMovStsRead n both s
  | .movGevtRead both => Sys2Proof.Machine.execMovGevtRead both s
  | .sliceEnable r d => Sys2Proof.Machine.execSliceEnable r d s
  | .sliceDisable r d others => Sys2Proof.Machine.execSliceDisable r d others s
  | .sliceRingAllot r d => Sys2Proof.Machine.execSliceRingAllot r d s
  | .sliceRingReclaim r d => Sys2Proof.Machine.execSliceRingReclaim r d s
  | .sliceShare r d => Sys2Proof.Machine.execSliceShare r d s
  | .sliceReset r d => Sys2Proof.Machine.execSliceReset r d s
  | .sliceResetDone n => Sys2Proof.Machine.execSliceResetDone n s
  | .sliceFreeze r d => Sys2Proof.Machine.execSliceFreeze r d s
  | .sliceFrozen n h => Sys2Proof.Machine.execSliceFrozen n h s
  | .sliceThaw r d => Sys2Proof.Machine.execSliceThaw r d s
  | .sliceSave r d others => Sys2Proof.Machine.execSliceSave r d others s
  | .sliceRestore r d img tds cuts h => Sys2Proof.Machine.execSliceRestore r d img tds cuts h s
  | .sliceQuery r d others => Sys2Proof.Machine.execSliceQuery r d others s
  | .mbmPost n v => Sys2Proof.Machine.execMbmPost n v s
  | .mbtPost n v => Sys2Proof.Machine.execMbtPost n v s
  | .mbmPop n v => Sys2Proof.Machine.execMbmPop n v s
  | .mbtPop n v => Sys2Proof.Machine.execMbtPop n v s
  | .mbmEvtRead n both => Sys2Proof.Machine.execMbmEvtRead n both s
  | .mbtEvtRead n both => Sys2Proof.Machine.execMbtEvtRead n both s
  | .sltEvtRead n both => Sys2Proof.Machine.execSltEvtRead n both s
  | .sourceLineChange x level t => Sys2Proof.Machine.execSourceLineChange x level t s
  | .icuPset k mask fw t => Sys2Proof.Machine.execIcuPset k mask fw t s
  | .icuPclr k mask fw t => Sys2Proof.Machine.execIcuPclr k mask fw t s
  | .icuEset k mask fw t => Sys2Proof.Machine.execIcuEset k mask fw t s
  | .icuEclr k mask fw t => Sys2Proof.Machine.execIcuEclr k mask fw t s
  | .sliPset n mask t => Sys2Proof.Machine.execSliPset n mask t s
  | .sliPclr n mask t => Sys2Proof.Machine.execSliPclr n mask t s
  | .sliEset n mask t => Sys2Proof.Machine.execSliEset n mask t s
  | .sliEclr n mask t => Sys2Proof.Machine.execSliEclr n mask t s
  | .icuSrccfgWrite fw v t => Sys2Proof.Machine.execIcuSrccfgWrite fw v t s
  | .icuClaim n t => Sys2Proof.Machine.execIcuClaim n t s
  | .icuDone n x t => Sys2Proof.Machine.execIcuDone n x t s
  | .coreReturn n t => Sys2Proof.Machine.execCoreReturn n t s
  | .coreWait n mode t => Sys2Proof.Machine.execCoreWait n mode t s
  | .vectorModerationTimeout e t => Sys2Proof.Machine.execVectorModerationTimeout e t s
  | .sliIdleWrite n mask t => Sys2Proof.Machine.execSliIdleWrite n mask t s
  | .icuVstsWrite v t => Sys2Proof.Machine.execIcuVstsWrite v t s
  | .msixUnmask e en fm t => Sys2Proof.Machine.execMsixUnmask e en fm t s
  | .twinEnable v => Sys2Proof.Machine.execTwinEnable v s
  | .twinLinkUp => Sys2Proof.Machine.execTwinLinkUp s
  | .beatReceive m t => Sys2Proof.Machine.execBeatReceive m t s
  | .beatMissed t => Sys2Proof.Machine.execBeatMissed t s
  | .shadowReceive m h => Sys2Proof.Machine.execShadowReceive m h s
  | .mirrorReceive m => Sys2Proof.Machine.execMirrorReceive m s
  | .mconfReceive m t => Sys2Proof.Machine.execMconfReceive m t s
  | .mconfLate t => Sys2Proof.Machine.execMconfLate t s
  | .handoverSend n => Sys2Proof.Machine.execHandoverSend n s
  | .handoverReceive m t => Sys2Proof.Machine.execHandoverReceive m t s
  | .tokenQuery d up => Sys2Proof.Machine.execTokenQuery d up s
  | .tokenClaim d up epoch forced frameNo => Sys2Proof.Machine.execTokenClaim d up epoch forced frameNo s
  | .tokenRelease d up epoch frameNo => Sys2Proof.Machine.execTokenRelease d up epoch frameNo s
  | .tokenMsgRepeat n release t => Sys2Proof.Machine.execTokenMsgRepeat n release t s
  | .tokenStateReceive n arg t => Sys2Proof.Machine.execTokenStateReceive n arg t s
  | .tokenGrantReceive n arg frameNo t => Sys2Proof.Machine.execTokenGrantReceive n arg frameNo t s
  | .tokenDenyReceive n arg => Sys2Proof.Machine.execTokenDenyReceive n arg s
  | .tokenLostReceive n arg => Sys2Proof.Machine.execTokenLostReceive n arg s
  | .twinClaim r d t => Sys2Proof.Machine.execTwinClaim r d t s
  | .twinForce r d t => Sys2Proof.Machine.execTwinForce r d t s
  | .twinRelease r d t => Sys2Proof.Machine.execTwinRelease r d t s
  | .twinQuery r d => Sys2Proof.Machine.execTwinQuery r d s
  | .twnEvtRead both => Sys2Proof.Machine.execTwnEvtRead both s
  | .pwrRequest v vn t => Sys2Proof.Machine.execPwrRequest v vn t s
  | .consentDone pcieOk t => Sys2Proof.Machine.execConsentDone pcieOk t s
  | .dealerStopped h t => Sys2Proof.Machine.execDealerStopped h t s
  | .portsStopped t => Sys2Proof.Machine.execPortsStopped t s
  | .moverTwinStopped t => Sys2Proof.Machine.execMoverTwinStopped t s
  | .pcieStopped t => Sys2Proof.Machine.execPcieStopped t s
  | .wakeNInput t => Sys2Proof.Machine.execWakeNInput t s
  | .wakeSenseTrip v lasted t => Sys2Proof.Machine.execWakeSenseTrip v lasted t s
  | .pcieWake t => Sys2Proof.Machine.execPcieWake t s
  | .twinSignalWake t => Sys2Proof.Machine.execTwinSignalWake t s
  | .restoreStep bad digestOk good st t => Sys2Proof.Machine.execRestoreStep bad digestOk good st t s
  | .pwrSenseWrite v => Sys2Proof.Machine.execPwrSenseWrite v s
  | .pwrEvtRead both => Sys2Proof.Machine.execPwrEvtRead both s
  | .porRelease st => Sys2Proof.Machine.execPorRelease st s
  | .startReady t => Sys2Proof.Machine.execStartReady t s
  | .startWatchdog st => Sys2Proof.Machine.execStartWatchdog st s
  | .flr silent bad digestOk st t => Sys2Proof.Machine.execFlr silent bad digestOk st t s
  | .monitorSample osc rails eyes t => Sys2Proof.Machine.execMonitorSample osc rails eyes t s
  | .thermalSample temps t => Sys2Proof.Machine.execThermalSample temps t s
  | .tripComparatorSample below => Sys2Proof.Machine.execTripComparatorSample below s
  | .sramCorrected p t => Sys2Proof.Machine.execSramCorrected p t s
  | .sramUncorrectable b x t => Sys2Proof.Machine.execSramUncorrectable b x t s
  | .supplyExcursion rail mv => Sys2Proof.Machine.execSupplyExcursion rail mv s
  | .retireCopyDone uncorr => Sys2Proof.Machine.execRetireCopyDone uncorr s
  | .healthRecordWrite => Sys2Proof.Machine.execHealthRecordWrite s
  | .policyPowerIdle => Sys2Proof.Machine.execPolicyPowerIdle s
  | .hltRecord r d => Sys2Proof.Machine.execHltRecord r d s
  | .hltPoolShrink r d => Sys2Proof.Machine.execHltPoolShrink r d s
  | .portEye r d points => Sys2Proof.Machine.execPortEye r d points s
  | .fwStage r d => Sys2Proof.Machine.execFwStage r d s
  | .fwActivate r d => Sys2Proof.Machine.execFwActivate r d s
  | .fwCommit r d => Sys2Proof.Machine.execFwCommit r d s
  | .fwQuery r d => Sys2Proof.Machine.execFwQuery r d s
  | .zeroize r d st => Sys2Proof.Machine.execZeroize r d st s
  | .debugResponse level key sig => Sys2Proof.Machine.execDebugResponse level key sig s
  | .secDbgAllowWrite v => Sys2Proof.Machine.execSecDbgAllowWrite v s
  | .hltEvtRead both => Sys2Proof.Machine.execHltEvtRead both s
  | .secEvtRead both => Sys2Proof.Machine.execSecEvtRead both s
  | .registerWrite bar ofs dws t => Sys2Proof.Machine.execRegisterWrite bar ofs dws t s
  | .aliasWrite bar ofs be data t => Sys2Proof.Machine.execAliasWrite bar ofs be data t s
  | .indDataRead narrow wide => Sys2Proof.Machine.execIndDataRead narrow wide s
  | .indDataWrite be data => Sys2Proof.Machine.execIndDataWrite be data s
  | .indAccessDone => Sys2Proof.Machine.execIndAccessDone s
  | .gctlAccessErrRead wide => Sys2Proof.Machine.execGctlAccessErrRead wide s
  | .perstNAssert => Sys2Proof.Machine.execPerstNAssert s
  | .perstNRelease st t => Sys2Proof.Machine.execPerstNRelease st t s
  | .pwrGoodLow st => Sys2Proof.Machine.execPwrGoodLow st s
  | .vaonLoss => Sys2Proof.Machine.execVaonLoss s
  | .pcieTlpError e answered => Sys2Proof.Machine.execPcieTlpError e answered s
  | .irigOnTimeMark t => Sys2Proof.Machine.execIrigOnTimeMark t s
  | .twinLinkDown => Sys2Proof.Machine.execTwinLinkDown s
  | .twinAckReceive m => Sys2Proof.Machine.execTwinAckReceive m s
  | .twinRetryReceive m => Sys2Proof.Machine.execTwinRetryReceive m s
  | .localTick d n t => Sys2Proof.Machine.execLocalTick d n t s
  | .holderFrameMissed d => Sys2Proof.Machine.execHolderFrameMissed d s
  | .pcieStopTimeout t => Sys2Proof.Machine.execPcieStopTimeout t s
  | .moverStopTimeout t => Sys2Proof.Machine.execMoverStopTimeout t s
  | .fwStageDone length img => Sys2Proof.Machine.execFwStageDone length img s
  | .identityBusReadDone n page data => Sys2Proof.Machine.execIdentityBusReadDone n page data s

end Sys2Proof.Machine
end

