-- ==== Sys2Proof/WellFormed.lean ====
section
/-! DEFINITION. WellFormed.lean: which commands are well formed: every operand lies in the range that the spec gives what it names. The
meanings are total: an operand out of range names nothing, and they say what happens then. -/

namespace Sys2Proof

/-- Root ports are 0 to 63 (Table 0.1); a hub has at most 31 downstream ports, numbered from 1 (tier fields of 5 bits, R96). -/
def PortId.wf : PortId → Bool
  | .root n => decide (n < 64)
  | .hub _ p => decide (0 < p ∧ p < 32)

/-- A device has one upstream port, or two (R382). -/
def LinkEndId.wf : LinkEndId → Bool
  | .port p => p.wf
  | .dev _ up => decide (up < 2)

/-- Field widths of a packet header (Table 3.4). -/
def Pkt.wf (p : Pkt) : Bool :=
  decide (p.pid < 16) && decide (p.route < 2 ^ 35) && decide (p.tag < 16) && decide (p.dir < 2) && decide (p.epnum < 64) &&
    decide (p.devaddr < 4096) && decide (p.pflags < 256) && decide (p.payload.length < 65536)

/-- What stands on the line: code groups of ten bits; sync headers of two bits and blocks of 64. -/
def blocksWf (b : List (Nat × Nat)) : Bool := b.length % 30 == 0 && b.all fun x => decide (x.1 < 4) && decide (x.2 < 2 ^ 64)
def groupsWf (g : List Nat) : Bool := g.all fun x => decide (x < 1024)

def RxLine.wf : RxLine → Bool
  | .groups g => groupsWf g
  | .blocks b => blocksWf b

/-- Field widths of a FRAME (Table 2.6). -/
def FrameBody.wf (f : FrameBody) : Bool :=
  decide (f.frameNo < 2 ^ 32) && decide (f.sec < 2 ^ 48) && decide (f.ns < 2 ^ 32) && decide (f.qclass < 8) && decide (f.frate < 2 ^ 32) &&
    decide (f.utcOfs < 65536)

/-- A host read that succeeded returned this many bytes. -/
def HostRead.len (n : Nat) : HostRead → Bool
  | .ok b => b.length == n
  | .failed => true

/-- Field widths of an endpoint context and of a periodic entry (Tables 4.15, 6.1). -/
def EnumEp.wf (e : EnumEp) : Bool :=
  [(e.owner, 8), (e.base, 13), (e.size, 9), (e.ring, 10), (e.retry, 3), (e.rtt, 20), (e.nyLimit, 16), (e.intExp, 4), (e.phase, 10), (e.link, 32)].all
    fun x => decide (x.1 < 2 ^ x.2)

/-- A command is well formed. -/
def Instr.wf : Instr → Bool
  | .frameTick _ _ _ _ => true
  | .handDeadline _ => true
  | .guardBandStart _ => true
  | .ppsInEdge _ _ => true
  | .ppsInLost => true
  | .refInLost => true
  | .refInValid => true
  | .irigFrameReceive _ _ _ => true
  | .irigInLost => true
  | .ptmDialogueDone _ _ _ _ => true
  | .errEstGrowth => true
  | .stepGo _ => true
  | .frameEnWrite _ => true
  | .timNowRead _ _ => true
  | .timFrameNoRead _ => true
  | .timPtmHostRead _ => true
  | .timLabelWrite _ data _ be => decide (data < 2 ^ 64) && decide (be < 256)
  | .timEvtRead _ => true
  | .frameReceive _ up b _ _ _ => decide (up < 2) && b.length == 32
  | .delayReqReceive p b _ _ => p.wf && b.length == 16
  | .delayRespReceive _ up b _ => decide (up < 2) && b.length == 32
  | .delayReqAbandon _ up => decide (up < 2)
  | .syncLost _ => true
  | .syncGain l g => l.wf && groupsWf g
  | .syncLoss l g _ => l.wf && groupsWf g
  | .codewordLock l b => l.wf && blocksWf b
  | .codewordLockLoss l b _ => l.wf && blocksWf b
  | .packetReceive l x _ _ => l.wf && x.wf
  | .linkctlAckReceive l seq => l.wf && decide (seq < 4096)
  | .linkctlRetryReceive l seq _ _ => l.wf && decide (seq < 4096)
  | .replayTimeout l _ _ => l.all LinkEndId.wf
  | .capsReceive l seq arg _ _ _ => l.wf && decide (seq < 65536) && decide (arg < 2 ^ 32)
  | .capsRepeat l _ => l.wf
  | .rateReqReceive _ up arg frameNo => decide (up < 2) && decide (arg < 2 ^ 32) && decide (frameNo < 2 ^ 32)
  | .rateAckReceive p arg frameNo => p.wf && decide (arg < 2 ^ 32) && decide (frameNo < 2 ^ 32)
  | .rateReqRepeat p => p.wf
  | .linkctlResetReceive _ up _ => decide (up < 2)
  | .resetEchoReceive p _ => p.wf
  | .linkctlSuspendReceive _ up _ => decide (up < 2)
  | .suspendEchoReceive p _ => p.wf
  | .linkctlResumeReceive _ up _ => decide (up < 2)
  | .resumeEchoReceive p _ => p.wf
  | .linkctlWakeReceive p _ => p.wf
  | .linkctlCmdRepeat l _ => l.wf
  | .signalDetect p _ => p.wf
  | .connectDebounceDone p _ => p.wf
  | .trainingTimeout p => p.wf
  | .resetEchoTimeout p _ => p.wf
  | .retrainTimeout p => p.wf
  | .resumeTimeout p => p.wf
  | .suspendEchoTimeout p _ => p.wf
  | .linkLost p _ => p.wf
  | .rateLock l _ _ => l.wf
  | .rateLockTimeout l _ => l.wf
  | .portEnable n _ _ _ => decide (n < 64)
  | .portClearError n _ => decide (n < 64)
  | .portRetrain n _ => decide (n < 64)
  | .portResume n _ => decide (n < 64)
  | .portSuspend n _ => decide (n < 64)
  | .portReset n _ => decide (n < 64)
  | .prtChgRead n _ => decide (n < 64)
  | .xcvrIdentify n => decide (n < 64)
  | .xcvrDiagRead n _ => decide (n < 64)
  | .sidebandScan _ => true
  | .modAbsChange n => decide (n < 64)
  | .losTxFaultAccept n => decide (n < 64)
  | .mscFault => true
  | .getPortStatus _ => true
  | .setPortFeature _ _ => true
  | .clearPortFeature _ _ => true
  | .transactionStart n tag _ => decide (n < 64) && decide (tag < 16)
  | .answerReceive n p _ _ _ => decide (n < 64) && p.wf
  | .answerTimeout n tag _ => decide (n < 64) && decide (tag < 16)
  | .callInReceive _ p => p.wf
  | .callOutReceive _ p data _ _ => p.wf && data.wf
  | .commandReceive _ p data _ _ => p.wf && data.wf
  | .execAtExecute _ ep => decide (ep < 64)
  | .pingReceive _ p _ => p.wf
  | .setupReceive _ p => p.wf
  | .controlTransferTimeout eph => decide (eph < 2 ^ 25)
  | .getStatus _ => true
  | .clearHalt _ => true
  | .resetEndpoint _ => true
  | .setAddress _ => true
  | .getRecord _ => true
  | .getConfiguration _ => true
  | .setConfiguration _ => true
  | .setRemoteWake _ => true
  | .setLinkAsym _ => true
  | .contextFetchDone eph _ => decide (eph < 2 ^ 25)
  | .doorbell slice j db => slice.all (fun y => decide (y < 256)) && decide (j < 64) && decide (db < 2 ^ 64)
  | .mringEnable n => decide (n < 4)
  | .mringDisable n => decide (n < 4)
  | .tdTake r _ _ _ => decide (r < 1024)
  | .tdWriteback r idx => decide (r < 1024) && decide (idx < 2 ^ 20)
  | .cmdWriteback r _ => decide (r < 1024)
  | .hostTransportStart r idx => decide (r < 1024) && decide (idx < 2 ^ 20)
  | .reservedOpcode r d => decide (r < 1024) && d.len 32
  | .ringCreate r d => decide (r < 1024) && d.len 32
  | .ringStop r d => decide (r < 1024) && d.len 32
  | .ringStart r d => decide (r < 1024) && d.len 32
  | .ringDestroy r d _ => decide (r < 1024) && d.len 32
  | .ringQuery r d => decide (r < 1024) && d.len 32
  | .epInstall r d _ _ => decide (r < 1024) && d.len 32
  | .epRemove r d _ => decide (r < 1024) && d.len 32
  | .epStop r d _ => decide (r < 1024) && d.len 32
  | .epStart r d _ => decide (r < 1024) && d.len 32
  | .epReset r d _ => decide (r < 1024) && d.len 32
  | .epFlush r d _ => decide (r < 1024) && d.len 32
  | .epQuery r d _ => decide (r < 1024) && d.len 32
  | .subtreeGone r d _ => decide (r < 1024) && d.len 32
  | .tdCancel r d _ => decide (r < 1024) && d.len 32
  | .enumerate r d _ eps => decide (r < 1024) && d.len 32 && eps.all EnumEp.wf
  | .xcvrRead r d => decide (r < 1024) && d.len 32
  | .portRate r d => decide (r < 1024) && d.len 32
  | .applyAdvice r d _ => decide (r < 1024) && d.len 32
  | .schedBatch r d _ => decide (r < 1024) && d.len 32
  | .batchAdmitted _ => true
  | .schedReserve r d => decide (r < 1024) && d.len 32
  | .schedQuery r d => decide (r < 1024) && d.len 32
  | .schedClear r d => decide (r < 1024) && d.len 32
  | .delayRelease _ => true
  | .notyetTimeout eph => decide (eph < 2 ^ 25)
  | .spillReturn n _ => decide (n < 256)
  | .spillEnable _ => true
  | .schDcntValWrite v => decide (v < 2 ^ 32)
  | .schAdmEvtRead _ => true
  | .sampleBlockForm _ ep _ _ => decide (ep < 64)
  | .gatherDeadline g => decide (g < 256)
  | .streamRecordWrite ring => decide (ring < 1024)
  | .coderBlockCode k => decide (k < 64)
  | .coderLateRaw k => decide (k < 64)
  | .gatherCreate r d _ _ => decide (r < 1024) && d.len 32
  | .gatherDestroy r d => decide (r < 1024) && d.len 32
  | .gatherQuery r d => decide (r < 1024) && d.len 32
  | .coderAttach r d _ _ => decide (r < 1024) && d.len 32
  | .coderDetach r d => decide (r < 1024) && d.len 32
  | .coderQuery r d => decide (r < 1024) && d.len 32
  | .gthEvtRead _ => true
  | .cdrEvtRead _ => true
  | .movGo n v => decide (n < 64) && decide (v < 2 ^ 32)
  | .movStop n v _ => decide (n < 64) && decide (v < 2 ^ 32)
  | .movSwchWrite v => decide (v < 2 ^ 32)
  | .swchApply => true
  | .moverDescDone n _ _ _ _ _ => decide (n < 64)
  | .reqLineRequest line _ _ _ => decide (line < 128)
  | .hostReadFail _ _ _ _ _ _ _ => true
  | .moverRetry _ _ => true
  | .moverDryBoundary n => decide (n < 64)
  | .movStsRead n _ => decide (n < 64)
  | .movGevtRead _ => true
  | .sliceEnable r d => decide (r < 1024) && d.len 32
  | .sliceDisable r d _ => decide (r < 1024) && d.len 32
  | .sliceRingAllot r d => decide (r < 1024) && d.len 32
  | .sliceRingReclaim r d => decide (r < 1024) && d.len 32
  | .sliceShare r d => decide (r < 1024) && d.len 32
  | .sliceReset r d => decide (r < 1024) && d.len 32
  | .sliceResetDone n => decide (n < 256)
  | .sliceFreeze r d => decide (r < 1024) && d.len 32
  | .sliceFrozen n _ => decide (n < 256)
  | .sliceThaw r d => decide (r < 1024) && d.len 32
  | .sliceSave r d _ => decide (r < 1024) && d.len 32
  | .sliceRestore r d _ _ _ _ => decide (r < 1024) && d.len 32
  | .sliceQuery r d _ => decide (r < 1024) && d.len 32
  | .mbmPost n v => decide (n < 256) && decide (v < 2 ^ 32)
  | .mbtPost n v => decide (n < 256) && decide (v < 2 ^ 32)
  | .mbmPop n v => decide (n < 256) && decide (v < 2 ^ 32)
  | .mbtPop n v => decide (n < 256) && decide (v < 2 ^ 32)
  | .mbmEvtRead n _ => decide (n < 256)
  | .mbtEvtRead n _ => decide (n < 256)
  | .sltEvtRead n _ => decide (n < 256)
  | .sourceLineChange x _ _ => decide (x < 2048)
  | .icuPset k mask _ _ => decide (k < 64) && decide (mask < 2 ^ 32)
  | .icuPclr k mask _ _ => decide (k < 64) && decide (mask < 2 ^ 32)
  | .icuEset k mask _ _ => decide (k < 64) && decide (mask < 2 ^ 32)
  | .icuEclr k mask _ _ => decide (k < 64) && decide (mask < 2 ^ 32)
  | .sliPset n mask _ => decide (n < 256) && decide (mask < 2 ^ 32)
  | .sliPclr n mask _ => decide (n < 256) && decide (mask < 2 ^ 32)
  | .sliEset n mask _ => decide (n < 256) && decide (mask < 2 ^ 32)
  | .sliEclr n mask _ => decide (n < 256) && decide (mask < 2 ^ 32)
  | .icuSrccfgWrite fw v _ => fw.all (fun y => decide (y < 2048)) && decide (v < 2 ^ 32)
  | .icuClaim n _ => decide (n < 4)
  | .icuDone n x _ => decide (n < 4) && decide (x < 2048)
  | .coreReturn n _ => decide (n < 4)
  | .coreWait n mode _ => decide (n < 4) && decide (mode < 8)
  | .vectorModerationTimeout e _ => decide (e < 2048)
  | .sliIdleWrite n mask _ => decide (n < 256) && decide (mask < 2 ^ 32)
  | .icuVstsWrite v _ => decide (v < 2 ^ 32)
  | .msixUnmask e _ _ _ => e.all (fun y => decide (y < 2048))
  | .twinEnable v => decide (v < 2 ^ 32)
  | .twinLinkUp => true
  | .beatReceive m _ => decide (m.length ≤ 4108)
  | .beatMissed _ => true
  | .shadowReceive m _ => decide (m.length ≤ 4108)
  | .mirrorReceive m => decide (m.length ≤ 4108)
  | .mconfReceive m _ => decide (m.length ≤ 4108)
  | .mconfLate _ => true
  | .handoverSend n => decide (n < 64)
  | .handoverReceive m _ => decide (m.length ≤ 4108)
  | .tokenQuery _ up => decide (up < 2)
  | .tokenClaim _ up epoch _ frameNo => decide (up < 2) && decide (epoch < 65536) && decide (frameNo < 2 ^ 32)
  | .tokenRelease _ up epoch frameNo => decide (up < 2) && decide (epoch < 65536) && decide (frameNo < 2 ^ 32)
  | .tokenMsgRepeat n _ _ => decide (n < 64)
  | .tokenStateReceive n arg _ => decide (n < 64) && decide (arg < 2 ^ 32)
  | .tokenGrantReceive n arg frameNo _ => decide (n < 64) && decide (arg < 2 ^ 32) && decide (frameNo < 2 ^ 32)
  | .tokenDenyReceive n arg => decide (n < 64) && decide (arg < 2 ^ 32)
  | .tokenLostReceive n arg => decide (n < 64) && decide (arg < 2 ^ 32)
  | .twinClaim r d _ => decide (r < 1024) && d.len 32
  | .twinForce r d _ => decide (r < 1024) && d.len 32
  | .twinRelease r d _ => decide (r < 1024) && d.len 32
  | .twinQuery r d => decide (r < 1024) && d.len 32
  | .twnEvtRead _ => true
  | .pwrRequest v vn _ => v.all (fun y => decide (y < 2 ^ 32)) && vn.all (fun y => decide (y < 2 ^ 32))
  | .consentDone _ _ => true
  | .dealerStopped _ _ => true
  | .portsStopped _ => true
  | .moverTwinStopped _ => true
  | .pcieStopped _ => true
  | .wakeNInput _ => true
  | .wakeSenseTrip _ _ _ => true
  | .pcieWake _ => true
  | .twinSignalWake _ => true
  | .restoreStep _ _ _ _ _ => true
  | .pwrSenseWrite v => decide (v < 2 ^ 32)
  | .pwrEvtRead _ => true
  | .porRelease _ => true
  | .startReady _ => true
  | .startWatchdog _ => true
  | .flr _ _ _ _ _ => true
  | .monitorSample _ _ _ _ => true
  | .thermalSample _ _ => true
  | .tripComparatorSample _ => true
  | .sramCorrected _ _ => true
  | .sramUncorrectable b _ _ => decide (b < 64)
  | .supplyExcursion rail _ => decide (rail < 256)
  | .retireCopyDone _ => true
  | .healthRecordWrite => true
  | .policyPowerIdle => true
  | .hltRecord r d => decide (r < 1024) && d.len 32
  | .hltPoolShrink r d => decide (r < 1024) && d.len 32
  | .portEye r d _ => decide (r < 1024) && d.len 32
  | .fwStage r d => decide (r < 1024) && d.len 32
  | .fwActivate r d => decide (r < 1024) && d.len 32
  | .fwCommit r d => decide (r < 1024) && d.len 32
  | .fwQuery r d => decide (r < 1024) && d.len 32
  | .zeroize r d _ => decide (r < 1024) && d.len 32
  | .debugResponse _ _ _ => true
  | .secDbgAllowWrite v => decide (v < 2 ^ 32)
  | .hltEvtRead _ => true
  | .secEvtRead _ => true
  | .registerWrite bar ofs dws _ => (bar == 0 || bar == 2) && (ofs % 4 == 0) && dws.all (fun y => decide (y.1 < 16) && decide (y.2 < 2 ^ 32))
  | .aliasWrite bar ofs be data _ => (bar == 0 || bar == 2) && (ofs % 4 == 0) && decide (be < 16) && decide (data < 2 ^ 32)
  | .indDataRead _ _ => true
  | .indDataWrite be data => decide (be < 16) && decide (data < 2 ^ 32)
  | .indAccessDone => true
  | .gctlAccessErrRead _ => true
  | .perstNAssert => true
  | .perstNRelease _ _ => true
  | .pwrGoodLow _ => true
  | .vaonLoss => true
  | .pcieTlpError _ _ => true
  | .irigOnTimeMark _ => true
  | .twinLinkDown => true
  | .twinAckReceive m => decide (m.length ≤ 4108)
  | .twinRetryReceive m => decide (m.length ≤ 4108)
  | .localTick _ _ _ => true
  | .holderFrameMissed _ => true
  | .pcieStopTimeout _ => true
  | .moverStopTimeout _ => true
  | .fwStageDone _ _ => true
  | .identityBusReadDone n _ _ => decide (n < 64)

end Sys2Proof
end

