-- ==== Sys2Proof/Safety.lean ====
section
/-! DEFINITION. Safety.lean: what counts as a safe state and a safe step, in the terms that the statements use. -/

namespace Sys2Proof.Machine

/-- No register of a register file holds a bit of a reserved field (R11). -/
def RegTab (t : Tbl DWord) : Prop := ∀ x ∈ t, x.2 &&& ~~~ regBits (x.1 % 256) = 0

/-- The state's own form: the buffer pool's list of bytes is in its one canonical form (R17; log entry 3), and the reserved fields of every
register hold zero (R11). -/
structure State.Inv (s : State) : Prop where
  pool : Memory.wf s.pool = true
  regs : RegTab s.regs

/-- A field that its register table gives: within the word, and over no reserved bit. -/
def Fld.ok (f : Fld) : Bool := decide (f.lo ≤ f.hi) && decide (f.hi < 64) && decide (fieldMask f.hi f.lo &&& ~~~ f.reg.bits = 0)

/-- Two fields that share no bit: of different registers, or apart in the same one. -/
def Fld.apart (f g : Fld) : Bool := decide (g.reg ≠ f.reg) || (f.ok && g.ok && (decide (g.hi < f.lo) || decide (f.hi < g.lo)))

/-- A step that neither faults nor refuses. -/
def Steps (s t : State) : Prop := step s = .next t

/-- A part of the state: each field of `State` but the queue, with every register of the register file (all its instances) a part of its own. -/
inductive Part where
  | out | free | tim | pol | ports | links | side | devs | ctxs | cmgr | txns | rings | entries | cmds
  | sched | deal | slices | icu | pool | pwr | twin | smp | audit | mov | hlt | aer | ind
  | reg (r : Reg)
  deriving DecidableEq, Repr

/-- Two states hold the same in a part. -/
def Part.same (s t : State) : Part → Prop
  | .out => t.out = s.out
  | .free => t.free = s.free
  | .tim => t.tim = s.tim
  | .pol => t.pol = s.pol
  | .ports => t.ports = s.ports
  | .links => t.links = s.links
  | .side => t.side = s.side
  | .devs => t.devs = s.devs
  | .ctxs => t.ctxs = s.ctxs
  | .cmgr => t.cmgr = s.cmgr
  | .txns => t.txns = s.txns
  | .rings => t.rings = s.rings
  | .entries => t.entries = s.entries
  | .cmds => t.cmds = s.cmds
  | .sched => t.sched = s.sched
  | .deal => t.deal = s.deal
  | .slices => t.slices = s.slices
  | .icu => t.icu = s.icu
  | .pool => t.pool = s.pool
  | .pwr => t.pwr = s.pwr
  | .twin => t.twin = s.twin
  | .smp => t.smp = s.smp
  | .audit => t.audit = s.audit
  | .mov => t.mov = s.mov
  | .hlt => t.hlt = s.hlt
  | .aer => t.aer = s.aer
  | .ind => t.ind = s.ind
  | .reg r => ∀ i, t.rd r i = s.rd r i

/-- Every register. -/
def Part.regs : List Part := Reg.all.map Part.reg

/-- Every part. -/
def Part.all : List Part :=
  [.out, .free, .tim, .pol, .ports, .links, .side, .devs, .ctxs, .cmgr, .txns, .rings, .entries, .cmds, .sched, .deal,
   .slices, .icu, .pool, .pwr, .twin, .smp, .audit, .mov, .hlt, .aer, .ind] ++ Part.regs

/-- The parts of the state that a command may write, as the chapters say what each command of the table acts on; every other part is out of its
reach. -/
def parts : Instr → List Part
  | .tripComparatorSample .. | .retireCopyDone .. | .healthRecordWrite .. => [.hlt]
  | .delayRespReceive .. | .delayReqAbandon .. | .syncLost .. | .getStatus .. | .clearHalt .. | .resetEndpoint .. | .setAddress .. | .getRecord ..
  | .getConfiguration .. | .setConfiguration .. | .setRemoteWake .. | .setLinkAsym .. | .sampleBlockForm .. | .tokenRelease ..
  | .holderFrameMissed ..
 => [.devs]
  | .syncGain .. | .codewordLock .. => [.links]
  | .timNowRead .. | .timFrameNoRead .. | .timPtmHostRead .. => [.out, .tim]
  | .pcieTlpError .. => [.out, .aer]
  | .sidebandScan .. => [.out, .side]
  | .execAtExecute .. => [.out, .devs]
  | .handoverSend .. | .twinAckReceive .. => [.out, .twin]
  | .rateReqReceive .. | .tokenQuery .. => [.out, .links]
  | .xcvrIdentify .. => [.out, .ports]
  | .frameEnWrite .. => [.reg .TIM_CTL]
  | .twinLinkUp .. => [.reg .TWN_STS]
  | .rateAckReceive .. => [.ports, .links]
  | .pwrSenseWrite .. => [.reg .PWR_SENSE]
  | .vectorModerationTimeout .. | .sliIdleWrite .. | .icuVstsWrite .. | .msixUnmask .. => [.out, .tim, .icu]
  | .capsRepeat .. | .linkctlCmdRepeat .. => [.out, .tim, .links]
  | .xcvrDiagRead .. => [.out, .ports, .hlt]
  | .linkctlAckReceive .. => [.out, .links, .txns]
  | .moverDryBoundary .. => [.mov, .reg .MOV_STS]
  | .tokenClaim .. => [.out, .links, .devs]
  | .rateReqRepeat .. => [.out, .ports, .links]
  | .getPortStatus .. => [.devs, .reg .PRT_CHG]
  | .twinLinkDown .. => [.twin, .reg .TWN_STS]
  | .frameReceive .. | .callInReceive .. | .callOutReceive .. | .commandReceive .. | .pingReceive .. | .setupReceive ..
 => [.out, .links, .devs, .txns]
  | .mconfLate .. => [.tim, .twin, .reg .TWN_STS]
  | .twinRetryReceive .. => [.out, .twin, .reg .TWN_STS]
  | .mringDisable .. => [.rings, .reg .SCH_MRING_CTL]
  | .gatherDeadline .. => [.smp, .reg .GTH_CNT, .reg .GTH_DROP]
  | .swchApply .. => [.mov, .reg .MOV_STS, .reg .MOV_GCFG]
  | .movSwchWrite .. => [.mov, .reg .MOV_GCFG, .reg .MOV_GEVT]
  | .tokenMsgRepeat .. => [.out, .tim, .links, .txns, .cmds, .twin]
  | .ppsInLost .. | .refInLost .. | .refInValid .. | .irigFrameReceive .. | .irigInLost .. | .stepGo .. => [.out, .tim, .reg .TIM_STS, .reg .TIM_EVT]
  | .moverRetry .. => [.tim, .mov, .reg .MOV_STS, .reg .MOV_GERR]
  | .icuEclr .. | .sliEclr .. | .coreReturn .. => [.tim, .icu, .reg .ICU_CORESTS, .reg .PWR_STS]
  | .wakeNInput .. | .pcieWake .. | .twinSignalWake .. => [.out, .tim, .pwr, .reg .PWR_STS, .reg .PWR_WAKE]
  | .coderBlockCode .. | .coderLateRaw .. => [.smp, .reg .CDR_EVT, .reg .CDR_CNT, .reg .CDR_FLG]
  | .signalDetect .. => [.out, .tim, .ports, .links, .devs, .txns, .reg .PRT_STS]
  | .errEstGrowth .. => [.out, .tim, .reg .TIM_STS, .reg .TIM_EVT, .reg .TIM_ERR_EST]
  | .timEvtRead .. => [.out, .icu, .reg .TIM_EVT, .reg .TIM_EVT_SHADOW, .reg .ICU_ERR]
  | .prtChgRead .. => [.out, .icu, .reg .PRT_CHG, .reg .PRT_CHG_SHADOW, .reg .ICU_ERR]
  | .gthEvtRead .. => [.out, .icu, .reg .ICU_ERR, .reg .GTH_EVT, .reg .GTH_EVT_SHADOW]
  | .cdrEvtRead .. => [.out, .icu, .reg .ICU_ERR, .reg .CDR_EVT, .reg .CDR_EVT_SHADOW]
  | .movStsRead .. => [.out, .icu, .reg .MOV_STS, .reg .MOV_STS_SHADOW, .reg .ICU_ERR]
  | .mbmEvtRead .. => [.out, .icu, .reg .ICU_ERR, .reg .MBM_EVT, .reg .MBM_EVT_SHADOW]
  | .mbtEvtRead .. => [.out, .icu, .reg .ICU_ERR, .reg .MBT_EVT, .reg .MBT_EVT_SHADOW]
  | .sltEvtRead .. => [.out, .icu, .reg .ICU_ERR, .reg .SLT_EVT, .reg .SLT_EVT_SHADOW]
  | .twnEvtRead .. => [.out, .icu, .reg .ICU_ERR, .reg .TWN_EVT, .reg .TWN_EVT_SHADOW]
  | .pwrEvtRead .. => [.out, .icu, .reg .ICU_ERR, .reg .PWR_EVT, .reg .PWR_EVT_SHADOW]
  | .hltEvtRead .. => [.out, .icu, .reg .ICU_ERR, .reg .HLT_EVT, .reg .HLT_EVT_SHADOW]
  | .secEvtRead .. => [.out, .icu, .reg .ICU_ERR, .reg .SEC_EVT, .reg .SEC_EVT_SHADOW]
  | .movGevtRead .. => [.out, .icu, .reg .MOV_GEVT, .reg .MOV_GEVT_SHADOW, .reg .ICU_ERR]
  | .sourceLineChange .. | .icuPset .. | .icuPclr .. | .icuEset .. | .sliPset .. | .sliPclr .. | .sliEset .. | .icuSrccfgWrite .. | .icuDone ..
 => [.out, .tim, .icu, .reg .ICU_CORESTS, .reg .ICU_ERR, .reg .PWR_STS]
  | .icuClaim .. => [.out, .tim, .icu, .reg .ICU_CORESTS, .reg .ICU_CMOD, .reg .PWR_STS]
  | .indDataRead .. => [.out, .reg .GCTL_ACCESS_ERR, .reg .GCTL_ACCESS_ADDR, .reg .IND_ADDR]
  | .indDataWrite .. => [.ind, .reg .GCTL_ACCESS_ERR, .reg .GCTL_ACCESS_ADDR, .reg .IND_ADDR]
  | .timLabelWrite .. => [.tim, .reg .GCTL_ACCESS_ERR, .reg .GCTL_ACCESS_ADDR, .reg .TIM_LABEL]
  | .schAdmEvtRead .. => [.out, .icu, .reg .SCH_ADM_EVT, .reg .SCH_ADM_EVT_SHADOW, .reg .ICU_ERR]
  | .ppsInEdge .. | .irigOnTimeMark .. => [.out, .tim, .reg .TIM_STS, .reg .TIM_EVT, .reg .TIM_OFFSET, .reg .TIM_ERR_EST]
  | .gctlAccessErrRead .. => [.out, .icu, .reg .GCTL_ACCESS_ERR, .reg .GCTL_ACCESS_ERR_SHADOW, .reg .ICU_ERR]
  | .sliceFrozen .. => [.out, .rings, .cmds, .slices, .icu, .reg .MOV_STS, .reg .ICU_ERR, .reg .SLC_STS]
  | .wakeSenseTrip .. => [.out, .tim, .pwr, .reg .PWR_STS, .reg .PWR_EVT, .reg .PWR_SENSE, .reg .PWR_WAKE]
  | .packetReceive .. => [.out, .tim, .links, .devs, .txns, .reg .PRT_LERR, .reg .PRT_RETRY, .reg .PRT_FEC]
  | .mbmPop .. | .mbtPop .. => [.out, .rings, .slices, .icu, .reg .MOV_STS, .reg .ICU_ERR, .reg .MBM_EVT, .reg .MBT_EVT]
  | .mscFault .. => [.out, .side, .devs, .rings, .icu, .reg .PRT_STS, .reg .PRT_CHG, .reg .MOV_STS, .reg .ICU_ERR]
  | .tokenDenyReceive .. => [.out, .rings, .cmds, .icu, .twin, .reg .MOV_STS, .reg .ICU_ERR, .reg .TWN_EVT, .reg .TWN_CNT]
  | .mringEnable .. => [.out, .rings, .icu, .audit, .reg .SCH_MRING_CTL, .reg .MOV_STS, .reg .ICU_ERR, .reg .SEC_AUDIT]
  | .ptmDialogueDone .. => [.out, .tim, .reg .TIM_STS, .reg .TIM_EVT, .reg .TIM_OFFSET, .reg .TIM_ERR_EST, .reg .TIM_PTM_HOST]
  | .fwStageDone .. => [.out, .rings, .cmds, .icu, .audit, .hlt, .reg .MOV_STS, .reg .ICU_ERR, .reg .SEC_EVT, .reg .SEC_AUDIT]
  | .mbmPost .. | .mbtPost .. => [.out, .rings, .slices, .icu, .reg .MOV_STS, .reg .ICU_ERR, .reg .SLC_ERR, .reg .MBM_EVT, .reg .MBT_EVT]
  | .beatMissed .. => [.out, .tim, .pol, .links, .rings, .icu, .twin, .reg .MOV_STS, .reg .ICU_ERR, .reg .TWN_EVT, .reg .TWN_CNT]
  | .identityBusReadDone .. => [.out, .ports, .devs, .rings, .cmds, .icu, .hlt, .reg .PRT_STS, .reg .PRT_CHG, .reg .MOV_STS, .reg .ICU_ERR]
  | .resumeEchoReceive .. => [.out, .tim, .ports, .links, .devs, .rings, .icu, .reg .PRT_STS, .reg .PRT_CHG, .reg .MOV_STS, .reg .ICU_ERR]
  | .doorbell .. => [.out, .rings, .deal, .icu, .audit, .reg .MOV_STS, .reg .ICU_ERR, .reg .SLC_STS, .reg .SEC_AUDIT, .reg .SLT_EVT]
  | .schDcntValWrite .. => [.out, .ctxs, .cmgr, .txns, .rings, .entries, .deal, .icu, .pool, .reg .SCH_CTXCNT, .reg .MOV_STS, .reg .ICU_ERR]
  | .localTick .. => [.out, .tim, .ports, .links, .devs, .rings, .cmds, .icu, .reg .PRT_STS, .reg .PRT_CHG, .reg .MOV_STS, .reg .ICU_ERR]
  | .reservedOpcode .. | .ringStop .. | .ringStart .. | .ringQuery .. | .sliceRingAllot .. | .sliceRingReclaim .. | .sliceQuery .. | .twinQuery ..
  | .hltRecord .. | .portEye .. | .fwQuery ..
 => [.out, .rings, .cmds, .icu, .audit, .mov, .reg .MOV_STS, .reg .ICU_ERR, .reg .SLC_ERR, .reg .SEC_EVT, .reg .SEC_AUDIT]
  | .debugResponse .. => [.out, .free, .rings, .icu, .audit, .hlt, .reg .MOV_STS, .reg .ICU_ERR, .reg .SEC_STS, .reg .SEC_EVT, .reg .SEC_AUDIT]
  | .mirrorReceive .. => [.out, .ctxs, .cmgr, .txns, .rings, .entries, .deal, .icu, .pool, .twin, .reg .SCH_CTXCNT, .reg .MOV_STS, .reg .ICU_ERR]
  | .policyPowerIdle ..
 => [.out, .pol, .rings, .icu, .pwr, .reg .MOV_STS, .reg .ICU_ERR, .reg .PWR_STS, .reg .PWR_EVT, .reg .PWR_WAKE, .reg .PWR_MODE]
  | .fwStage .. => [.out, .rings, .cmds, .icu, .audit, .mov, .hlt, .reg .MOV_STS, .reg .ICU_ERR, .reg .SLC_ERR, .reg .SEC_EVT, .reg .SEC_AUDIT]
  | .pcieStopTimeout .. | .moverStopTimeout ..
 => [.out, .tim, .rings, .icu, .pwr, .reg .MOV_STS, .reg .ICU_ERR, .reg .PWR_STS, .reg .PWR_EVT, .reg .PWR_WAKE, .reg .PWR_RCNT]
  | .gatherQuery .. | .coderQuery ..
 => [.out, .free, .rings, .cmds, .icu, .audit, .mov, .reg .MOV_STS, .reg .ICU_ERR, .reg .SLC_ERR, .reg .SEC_EVT, .reg .SEC_AUDIT]
  | .sliceShare .. => [.out, .rings, .cmds, .deal, .icu, .audit, .mov, .reg .MOV_STS, .reg .ICU_ERR, .reg .SLC_ERR, .reg .SEC_EVT, .reg .SEC_AUDIT]
  | .xcvrRead .. => [.out, .ports, .rings, .cmds, .icu, .audit, .mov, .reg .MOV_STS, .reg .ICU_ERR, .reg .SLC_ERR, .reg .SEC_EVT, .reg .SEC_AUDIT]
  | .schedReserve .. | .schedClear ..
 => [.out, .rings, .cmds, .sched, .icu, .audit, .mov, .reg .MOV_STS, .reg .ICU_ERR, .reg .SLC_ERR, .reg .SEC_EVT, .reg .SEC_AUDIT]
  | .ringCreate .. | .schedQuery .. | .sliceFreeze .. | .sliceThaw .. | .sliceSave ..
 => [.out, .rings, .cmds, .slices, .icu, .audit, .mov, .reg .MOV_STS, .reg .ICU_ERR, .reg .SLC_ERR, .reg .SEC_EVT, .reg .SEC_AUDIT]
  | .hostTransportStart ..
 => [.out, .ctxs, .cmgr, .txns, .rings, .entries, .deal, .slices, .icu, .pool, .mov, .reg .SCH_CTXCNT, .reg .MOV_STS, .reg .ICU_ERR]
  | .reqLineRequest ..
 => [.out, .pool, .mov, .reg .MOV_SRC, .reg .MOV_DST, .reg .MOV_CNT, .reg .MOV_STS, .reg .MOV_DPTR, .reg .MOV_CRC, .reg .MOV_MISOFS]
  | .hltPoolShrink ..
 => [.out, .pol, .rings, .cmds, .icu, .audit, .mov, .hlt, .reg .MOV_STS, .reg .ICU_ERR, .reg .SLC_ERR, .reg .SEC_EVT, .reg .SEC_AUDIT]
  | .supplyExcursion ..
 => [.out, .free, .rings, .icu, .audit, .hlt, .reg .MOV_STS, .reg .ICU_ERR, .reg .HLT_STS, .reg .HLT_EVT, .reg .SEC_EVT, .reg .SEC_AUDIT]
  | .secDbgAllowWrite ..
 => [.out, .free, .rings, .icu, .audit, .reg .MOV_STS, .reg .ICU_ERR, .reg .SEC_STS, .reg .SEC_EVT, .reg .SEC_DBG_ALLOW, .reg .SEC_AUDIT]
  | .beatReceive ..
 => [.out, .tim, .links, .rings, .icu, .twin, .reg .MOV_STS, .reg .ICU_ERR, .reg .TWN_STS, .reg .TWN_EVT, .reg .TWN_OFFSET, .reg .TWN_DLY]
  | .schedBatch ..
 => [.out, .rings, .cmds, .sched, .slices, .icu, .audit, .mov, .reg .MOV_STS, .reg .ICU_ERR, .reg .SLC_ERR, .reg .SEC_EVT, .reg .SEC_AUDIT]
  | .twinRelease ..
 => [.out, .tim, .links, .rings, .cmds, .icu, .twin, .audit, .mov, .reg .MOV_STS, .reg .ICU_ERR, .reg .SLC_ERR, .reg .SEC_EVT, .reg .SEC_AUDIT]
  | .movGo .. | .movStop ..
 => [.out, .rings, .slices, .icu, .mov, .reg .MOV_SRC, .reg .MOV_DST, .reg .MOV_CNT, .reg .MOV_CTL, .reg .MOV_STS, .reg .MOV_GEVT, .reg .ICU_ERR]
  | .tokenGrantReceive ..
 => [.out, .tim, .rings, .cmds, .icu, .twin, .reg .GCTL_POLICY_STS, .reg .MOV_STS, .reg .ICU_ERR, .reg .TWN_EVT, .reg .TWN_OWNED, .reg .TWN_WARM]
  | .fwActivate ..
 => [.out, .rings, .cmds, .icu, .audit, .mov, .hlt, .reg .MOV_STS, .reg .ICU_ERR, .reg .SLC_ERR, .reg .HLT_START, .reg .SEC_EVT, .reg .SEC_AUDIT]
  | .coreWait .. | .consentDone .. | .portsStopped ..
 => [.out, .tim, .rings, .icu, .pwr, .reg .MOV_STS, .reg .ICU_CORESTS, .reg .ICU_ERR, .reg .PWR_STS, .reg .PWR_EVT, .reg .PWR_RCNT, .reg .PWR_MODE]
  | .handoverReceive ..
 => [.out, .tim, .pol, .links, .rings, .icu, .pwr, .twin, .reg .MOV_STS, .reg .ICU_ERR, .reg .PWR_STS, .reg .PWR_EVT, .reg .PWR_WAKE, .reg
   .PWR_RCNT]
  | .twinClaim .. | .twinForce ..
 => [.out, .tim, .pol, .links, .rings, .cmds, .icu, .twin, .audit, .mov, .reg .MOV_STS, .reg .ICU_ERR, .reg .SLC_ERR, .reg .SEC_EVT, .reg
   .SEC_AUDIT]
  | .sliceResetDone ..
 => [.out, .rings, .cmds, .sched, .deal, .slices, .icu, .audit, .reg .MOV_STS, .reg .ICU_ERR, .reg .SLC_STS, .reg .SEC_EVT, .reg .SEC_AUDIT, .reg
   .SLT_EVT]
  | .tdWriteback ..
 => [.out, .ctxs, .cmgr, .txns, .rings, .entries, .cmds, .deal, .slices, .icu, .pool, .mov, .reg .SCH_DYN_CNT, .reg .SCH_CTXCNT, .reg .MOV_STS, .reg
   .ICU_ERR]
  | .ringDestroy ..
 => [.out, .ctxs, .cmgr, .txns, .rings, .entries, .cmds, .deal, .icu, .audit, .mov, .reg .MOV_STS, .reg .ICU_ERR, .reg .SLC_ERR, .reg .SEC_EVT, .reg
   .SEC_AUDIT]
  | .pwrRequest ..
 => [.out, .tim, .rings, .icu, .pwr, .reg .MOV_STS, .reg .ICU_ERR, .reg .PWR_REQ, .reg .PWR_REQ_N, .reg .PWR_STS, .reg .PWR_EVT, .reg .PWR_WAKE,
   .reg .PWR_MODE]
  | .startReady ..
 => [.out, .free, .tim, .rings, .icu, .audit, .hlt, .reg .MOV_STS, .reg .ICU_ERR, .reg .HLT_STS, .reg .HLT_EVT, .reg .HLT_START, .reg .SEC_EVT, .reg
   .SEC_AUDIT]
  | .fwCommit ..
 => [.out, .rings, .cmds, .icu, .audit, .mov, .hlt, .reg .MOV_STS, .reg .ICU_ERR, .reg .SLC_ERR, .reg .HLT_START, .reg .SEC_STS, .reg .SEC_EVT, .reg
   .SEC_AUDIT]
  | .sramCorrected ..
 => [.out, .free, .tim, .pol, .rings, .cmds, .icu, .audit, .hlt, .aer, .reg .MOV_STS, .reg .ICU_ERR, .reg .HLT_STS, .reg .HLT_EVT, .reg .SEC_EVT,
   .reg .SEC_AUDIT]
  | .coderDetach ..
 => [.out, .free, .rings, .cmds, .icu, .smp, .audit, .mov, .reg .MOV_STS, .reg .ICU_ERR, .reg .SLC_ERR, .reg .SEC_EVT, .reg .SEC_AUDIT, .reg
   .CDR_EVT, .reg .CDR_FLG]
  | .moverDescDone ..
 => [.out, .rings, .slices, .icu, .pool, .mov, .reg .MOV_SRC, .reg .MOV_DST, .reg .MOV_CNT, .reg .MOV_STS, .reg .MOV_DPTR, .reg .MOV_CRC, .reg
   .MOV_MISOFS, .reg .ICU_ERR]
  | .twinEnable ..
 => [.out, .ctxs, .cmgr, .rings, .icu, .twin, .smp, .reg .MOV_STS, .reg .ICU_ERR, .reg .TWN_CFG, .reg .TWN_STS, .reg .GTH_CNT, .reg .GTH_DROP, .reg
   .CDR_EVT, .reg .CDR_FLG]
  | .spillEnable ..
 => [.out, .free, .ctxs, .cmgr, .txns, .rings, .entries, .deal, .slices, .icu, .pool, .reg .SCH_SPILL_BASE, .reg .SCH_SPILL_STS, .reg .SCH_CTXCNT,
   .reg .MOV_STS, .reg .ICU_ERR]
  | .tdCancel ..
 => [.out, .ctxs, .cmgr, .txns, .rings, .entries, .cmds, .deal, .icu, .pool, .audit, .mov, .reg .SCH_CTXCNT, .reg .MOV_STS, .reg .ICU_ERR, .reg
   .SLC_ERR, .reg .SEC_EVT, .reg .SEC_AUDIT]
  | .moverTwinStopped ..
 => [.out, .tim, .rings, .icu, .pwr, .twin, .reg .MOV_STS, .reg .ICU_CORESTS, .reg .ICU_ERR, .reg .PWR_STS, .reg .PWR_EVT, .reg .PWR_WAKE, .reg
   .PWR_RCNT, .reg .TWN_STS, .reg .PWR_MODE]
  | .guardBandStart ..
 => [.out, .tim, .ports, .links, .devs, .ctxs, .rings, .entries, .cmds, .deal, .icu, .pool, .twin, .reg .SCH_ADM_STS, .reg .SCH_DYN_CNT, .reg
   .PRT_STS, .reg .PRT_CHG, .reg .MOV_STS, .reg .ICU_ERR]
  | .portRate ..
 => [.out, .pol, .ports, .devs, .rings, .cmds, .sched, .icu, .audit, .mov, .reg .SCH_ADM_EVT, .reg .PRT_STS, .reg .PRT_CHG, .reg .MOV_STS, .reg
   .ICU_ERR, .reg .SLC_ERR, .reg .SEC_EVT, .reg .SEC_AUDIT]
  | .shadowReceive ..
 => [.out, .ctxs, .cmgr, .rings, .slices, .icu, .twin, .smp, .reg .SCH_CTXCNT, .reg .MOV_STS, .reg .ICU_ERR, .reg .TWN_CNT, .reg .TWN_WARM, .reg
   .GTH_CNT, .reg .GTH_DROP, .reg .CDR_EVT, .reg .CDR_FLG]
  | .contextFetchDone ..
 => [.out, .free, .ctxs, .cmgr, .txns, .rings, .entries, .deal, .slices, .icu, .pool, .smp, .mov, .reg .SCH_CTXCNT, .reg .MOV_STS, .reg .ICU_ERR,
   .reg .GTH_CNT, .reg .GTH_DROP, .reg .CDR_EVT, .reg .CDR_FLG]
  | .connectDebounceDone ..
 => [.out, .tim, .ports, .links, .ctxs, .cmgr, .txns, .rings, .entries, .deal, .icu, .pool, .smp, .reg .SCH_CTXCNT, .reg .PRT_STS, .reg .MOV_STS,
   .reg .ICU_ERR, .reg .GTH_CNT, .reg .GTH_DROP, .reg .CDR_EVT, .reg .CDR_FLG]
  | .streamRecordWrite ..
 => [.out, .free, .ctxs, .cmgr, .txns, .rings, .entries, .cmds, .deal, .slices, .icu, .pool, .smp, .reg .SCH_CTXCNT, .reg .MOV_STS, .reg .ICU_ERR,
   .reg .GTH_EVT, .reg .GTH_CNT, .reg .GTH_DROP, .reg .CDR_EVT, .reg .CDR_FLG]
  | .controlTransferTimeout .. | .notyetTimeout ..
 => [.out, .free, .ctxs, .cmgr, .txns, .rings, .entries, .cmds, .deal, .icu, .pool, .twin, .smp, .reg .SCH_DYN_CNT, .reg .SCH_CTXCNT, .reg .MOV_STS,
   .reg .ICU_ERR, .reg .GTH_CNT, .reg .GTH_DROP, .reg .CDR_EVT, .reg .CDR_FLG]
  | .gatherDestroy ..
 => [.out, .free, .ctxs, .cmgr, .rings, .cmds, .icu, .smp, .audit, .mov, .reg .MOV_STS, .reg .ICU_ERR, .reg .SLC_ERR, .reg .SEC_EVT, .reg
   .SEC_AUDIT, .reg .GTH_EVT, .reg .GTH_CNT, .reg .GTH_DROP, .reg .CDR_EVT, .reg .CDR_FLG]
  | .tdTake ..
 => [.out, .free, .ctxs, .cmgr, .txns, .rings, .entries, .deal, .slices, .icu, .pool, .smp, .mov, .reg .SCH_SPILL_STS, .reg .SCH_CTXCNT, .reg
   .MOV_STS, .reg .ICU_ERR, .reg .GTH_CNT, .reg .GTH_DROP, .reg .CDR_EVT, .reg .CDR_FLG]
  | .monitorSample ..
 => [.out, .free, .tim, .pol, .ports, .devs, .rings, .cmds, .sched, .icu, .audit, .hlt, .reg .SCH_ADM_EVT, .reg .PRT_STS, .reg .PRT_CHG, .reg
   .MOV_STS, .reg .ICU_ERR, .reg .HLT_STS, .reg .HLT_EVT, .reg .SEC_EVT, .reg .SEC_AUDIT]
  | .trainingTimeout ..
 => [.out, .ports, .links, .devs, .ctxs, .cmgr, .txns, .rings, .entries, .cmds, .deal, .icu, .pool, .smp, .reg .SCH_CTXCNT, .reg .PRT_STS, .reg
   .MOV_STS, .reg .ICU_ERR, .reg .GTH_CNT, .reg .GTH_DROP, .reg .CDR_EVT, .reg .CDR_FLG]
  | .epInstall .. | .epFlush .. | .epQuery .. | .gatherCreate .. | .coderAttach ..
 => [.out, .ctxs, .cmgr, .rings, .cmds, .slices, .icu, .smp, .audit, .mov, .reg .SCH_CTXCNT, .reg .MOV_STS, .reg .ICU_ERR, .reg .SLC_ERR, .reg
   .SEC_EVT, .reg .SEC_AUDIT, .reg .GTH_CNT, .reg .GTH_DROP, .reg .CDR_EVT, .reg .CDR_FLG]
  | .delayRelease ..
 => [.out, .free, .tim, .ctxs, .cmgr, .txns, .rings, .entries, .cmds, .deal, .icu, .pool, .twin, .smp, .reg .SCH_DYN_CNT, .reg .SCH_CTXCNT, .reg
   .MOV_STS, .reg .ICU_ERR, .reg .GTH_CNT, .reg .GTH_DROP, .reg .CDR_EVT, .reg .CDR_FLG]
  | .spillReturn ..
 => [.out, .free, .ctxs, .cmgr, .txns, .rings, .entries, .cmds, .deal, .slices, .icu, .pool, .twin, .smp, .mov, .reg .SCH_DYN_CNT, .reg .SCH_CTXCNT,
   .reg .MOV_STS, .reg .ICU_ERR, .reg .GTH_CNT, .reg .GTH_DROP, .reg .CDR_EVT, .reg .CDR_FLG]
  | .retrainTimeout .. | .resumeTimeout .. | .modAbsChange .. | .losTxFaultAccept ..
 => [.out, .ports, .links, .devs, .ctxs, .cmgr, .txns, .rings, .entries, .cmds, .deal, .icu, .pool, .smp, .reg .SCH_CTXCNT, .reg .PRT_STS, .reg
   .PRT_CHG, .reg .MOV_STS, .reg .ICU_ERR, .reg .GTH_CNT, .reg .GTH_DROP, .reg .CDR_EVT, .reg .CDR_FLG]
  | .resetEchoReceive .. | .resetEchoTimeout .. | .rateLockTimeout ..
 => [.out, .tim, .ports, .links, .devs, .ctxs, .cmgr, .txns, .rings, .entries, .cmds, .deal, .icu, .pool, .smp, .reg .SCH_CTXCNT, .reg .PRT_STS,
   .reg .PRT_CHG, .reg .MOV_STS, .reg .ICU_ERR, .reg .GTH_CNT, .reg .GTH_DROP, .reg .CDR_EVT, .reg .CDR_FLG]
  | .answerTimeout ..
 => [.out, .free, .tim, .ports, .links, .ctxs, .cmgr, .txns, .rings, .entries, .cmds, .deal, .slices, .icu, .pool, .twin, .smp, .reg .SCH_DYN_CNT,
   .reg .SCH_CTXCNT, .reg .MOV_STS, .reg .ICU_ERR, .reg .GTH_CNT, .reg .GTH_DROP, .reg .CDR_EVT, .reg .CDR_FLG]
  | .linkctlResetReceive .. | .linkctlSuspendReceive .. | .clearPortFeature ..
 => [.out, .tim, .ports, .links, .devs, .ctxs, .cmgr, .txns, .rings, .entries, .cmds, .sched, .deal, .icu, .pool, .smp, .reg .SCH_CTXCNT, .reg
   .PRT_STS, .reg .PRT_CHG, .reg .MOV_STS, .reg .ICU_ERR, .reg .GTH_CNT, .reg .GTH_DROP, .reg .CDR_EVT, .reg .CDR_FLG]
  | .delayReqReceive ..
 => [.out, .ports, .links, .devs, .ctxs, .cmgr, .txns, .rings, .entries, .cmds, .deal, .icu, .pool, .smp, .reg .SCH_CTXCNT, .reg .PRT_STS, .reg
   .PRT_CHG, .reg .MOV_STS, .reg .ICU_ERR, .reg .GTH_CNT, .reg .GTH_DROP, .reg .CDR_EVT, .reg .CDR_FLG, .reg .TIM_PDLY]
  | .epStop .. | .epStart ..
 => [.out, .ctxs, .cmgr, .txns, .rings, .entries, .cmds, .deal, .slices, .icu, .pool, .smp, .audit, .mov, .reg .SCH_CTXCNT, .reg .MOV_STS, .reg
   .ICU_ERR, .reg .SLC_ERR, .reg .SEC_EVT, .reg .SEC_AUDIT, .reg .GTH_CNT, .reg .GTH_DROP, .reg .CDR_EVT, .reg .CDR_FLG]
  | .sramUncorrectable ..
 => [.out, .free, .tim, .pol, .ctxs, .cmgr, .txns, .rings, .entries, .cmds, .deal, .icu, .pool, .smp, .audit, .hlt, .aer, .reg .SCH_CTXCNT, .reg
   .MOV_STS, .reg .ICU_ERR, .reg .HLT_STS, .reg .HLT_EVT, .reg .SEC_EVT, .reg .SEC_AUDIT, .reg .CDR_EVT, .reg .CDR_FLG]
  | .handDeadline ..
 => [.out, .free, .tim, .ctxs, .cmgr, .txns, .rings, .entries, .cmds, .sched, .deal, .slices, .icu, .pool, .twin, .smp, .reg .SCH_ADM_EVT, .reg
   .SCH_DYN_CNT, .reg .SCH_CTXCNT, .reg .MOV_STS, .reg .ICU_ERR, .reg .GTH_CNT, .reg .GTH_DROP, .reg .CDR_EVT, .reg .CDR_FLG]
  | .mconfReceive ..
 => [.out, .free, .tim, .links, .ctxs, .cmgr, .txns, .rings, .entries, .cmds, .deal, .icu, .pool, .twin, .smp, .reg .SCH_DYN_CNT, .reg .SCH_CTXCNT,
   .reg .MOV_STS, .reg .ICU_ERR, .reg .TWN_DLY, .reg .GTH_EVT, .reg .GTH_CNT, .reg .GTH_DROP, .reg .CDR_EVT, .reg .CDR_FLG]
  | .tokenLostReceive ..
 => [.out, .free, .ctxs, .cmgr, .txns, .rings, .entries, .cmds, .deal, .icu, .pool, .twin, .smp, .reg .SCH_DYN_CNT, .reg .SCH_CTXCNT, .reg .MOV_STS,
   .reg .ICU_ERR, .reg .TWN_EVT, .reg .TWN_OWNED, .reg .TWN_WARM, .reg .GTH_CNT, .reg .GTH_DROP, .reg .CDR_EVT, .reg .CDR_FLG]
  | .transactionStart ..
 => [.out, .free, .tim, .ports, .links, .ctxs, .cmgr, .txns, .rings, .entries, .cmds, .deal, .slices, .icu, .pool, .twin, .smp, .reg .SCH_ADM_STS,
   .reg .SCH_DYN_CNT, .reg .SCH_CTXCNT, .reg .MOV_STS, .reg .ICU_ERR, .reg .GTH_CNT, .reg .GTH_DROP, .reg .CDR_EVT, .reg .CDR_FLG]
  | .batchAdmitted ..
 => [.out, .ctxs, .cmgr, .txns, .rings, .entries, .cmds, .sched, .deal, .slices, .icu, .pool, .smp, .audit, .reg .SCH_ADM_EVT, .reg .SCH_CTXCNT,
   .reg .MOV_STS, .reg .ICU_ERR, .reg .SLC_ERR, .reg .SEC_EVT, .reg .SEC_AUDIT, .reg .GTH_CNT, .reg .GTH_DROP, .reg .CDR_EVT, .reg .CDR_FLG]
  | .sliceEnable ..
 => [.out, .rings, .cmds, .sched, .deal, .slices, .icu, .audit, .mov, .reg .MOV_STS, .reg .ICU_ERR, .reg .SLC_STS, .reg .SLC_ERR, .reg .SEC_EVT,
   .reg .SEC_AUDIT, .reg .MBM_EVT, .reg .MBT_EVT, .reg .MBT_EVT_SHADOW, .reg .MBT_CTL, .reg .SLI_ROUTE, .reg .SLT_EVT, .reg .SLT_EVT_SHADOW]
  | .rateLock ..
 => [.out, .tim, .pol, .ports, .links, .devs, .ctxs, .cmgr, .txns, .rings, .entries, .cmds, .deal, .icu, .pool, .smp, .hlt, .reg .GCTL_POLICY_STS,
   .reg .SCH_CTXCNT, .reg .PRT_STS, .reg .PRT_CHG, .reg .MOV_STS, .reg .ICU_ERR, .reg .GTH_CNT, .reg .GTH_DROP, .reg .CDR_EVT, .reg .CDR_FLG]
  | .subtreeGone ..
 => [.out, .free, .ctxs, .cmgr, .txns, .rings, .entries, .cmds, .deal, .icu, .pool, .twin, .smp, .audit, .mov, .reg .SCH_DYN_CNT, .reg .SCH_CTXCNT,
   .reg .MOV_STS, .reg .ICU_ERR, .reg .SLC_ERR, .reg .SEC_EVT, .reg .SEC_AUDIT, .reg .GTH_CNT, .reg .GTH_DROP, .reg .CDR_EVT, .reg .CDR_FLG]
  | .tokenStateReceive ..
 => [.out, .free, .tim, .links, .ctxs, .cmgr, .txns, .rings, .entries, .cmds, .deal, .icu, .pool, .twin, .smp, .reg .SCH_DYN_CNT, .reg .SCH_CTXCNT,
   .reg .MOV_STS, .reg .ICU_ERR, .reg .TWN_EVT, .reg .TWN_OWNED, .reg .TWN_WARM, .reg .GTH_CNT, .reg .GTH_DROP, .reg .CDR_EVT, .reg .CDR_FLG]
  | .suspendEchoReceive .. | .linkctlResumeReceive .. | .linkctlWakeReceive ..
 => [.out, .tim, .ports, .links, .devs, .ctxs, .cmgr, .txns, .rings, .entries, .cmds, .deal, .icu, .pool, .pwr, .smp, .reg .SCH_CTXCNT, .reg
   .PRT_STS, .reg .PRT_CHG, .reg .MOV_STS, .reg .ICU_ERR, .reg .PWR_STS, .reg .PWR_WAKE, .reg .GTH_CNT, .reg .GTH_DROP, .reg .CDR_EVT, .reg .CDR_FLG]
  | .epRemove .. | .epReset .. | .enumerate ..
 => [.out, .free, .ctxs, .cmgr, .txns, .rings, .entries, .cmds, .deal, .slices, .icu, .pool, .twin, .smp, .audit, .mov, .reg .SCH_DYN_CNT, .reg
   .SCH_CTXCNT, .reg .MOV_STS, .reg .ICU_ERR, .reg .SLC_ERR, .reg .SEC_EVT, .reg .SEC_AUDIT, .reg .GTH_CNT, .reg .GTH_DROP, .reg .CDR_EVT, .reg
   .CDR_FLG]
  | .applyAdvice ..
 => [.out, .tim, .pol, .ports, .links, .devs, .rings, .cmds, .sched, .icu, .pwr, .twin, .audit, .mov, .hlt, .reg .SCH_ADM_EVT, .reg .PRT_STS, .reg
   .PRT_CHG, .reg .MOV_STS, .reg .ICU_ERR, .reg .SLC_ERR, .reg .PWR_STS, .reg .PWR_EVT, .reg .PWR_WAKE, .reg .SEC_EVT, .reg .SEC_AUDIT, .reg
   .PWR_MODE]
  | .sliceDisable .. | .sliceReset ..
 => [.out, .ctxs, .cmgr, .txns, .rings, .entries, .cmds, .sched, .deal, .slices, .icu, .twin, .smp, .audit, .mov, .reg .MOV_STS, .reg .ICU_ERR, .reg
   .SLC_STS, .reg .SLC_ERR, .reg .SEC_EVT, .reg .SEC_AUDIT, .reg .GTH_CNT, .reg .GTH_DROP, .reg .CDR_EVT, .reg .CDR_FLG, .reg .MBM_EVT, .reg .MBT_EVT]
  | .answerReceive ..
 => [.out, .free, .tim, .ports, .links, .ctxs, .cmgr, .txns, .rings, .entries, .cmds, .deal, .slices, .icu, .pool, .twin, .smp, .reg .SCH_DYN_CNT,
   .reg .SCH_NAK_CNT, .reg .SCH_CTXCNT, .reg .SCH_XERR, .reg .MOV_STS, .reg .ICU_ERR, .reg .GTH_EVT, .reg .GTH_CNT, .reg .GTH_DROP, .reg .CDR_EVT,
   .reg .CDR_FLG]
  | .syncLoss .. | .codewordLockLoss .. | .capsReceive .. | .suspendEchoTimeout .. | .linkLost ..
 => [.out, .tim, .ports, .links, .devs, .ctxs, .cmgr, .txns, .rings, .entries, .cmds, .deal, .icu, .pool, .pwr, .smp, .reg .SCH_CTXCNT, .reg
   .PRT_STS, .reg .PRT_CHG, .reg .MOV_STS, .reg .ICU_ERR, .reg .PWR_STS, .reg .PWR_EVT, .reg .PWR_WAKE, .reg .PWR_RCNT, .reg .GTH_CNT, .reg .GTH_DROP,
   .reg .CDR_EVT, .reg .CDR_FLG]
  | .setPortFeature ..
 => [.out, .tim, .ports, .links, .devs, .ctxs, .cmgr, .txns, .rings, .entries, .cmds, .sched, .deal, .icu, .pool, .pwr, .smp, .reg .SCH_CTXCNT, .reg
   .PRT_STS, .reg .PRT_CHG, .reg .MOV_STS, .reg .ICU_ERR, .reg .PWR_STS, .reg .PWR_EVT, .reg .PWR_WAKE, .reg .PWR_RCNT, .reg .GTH_CNT, .reg .GTH_DROP,
   .reg .CDR_EVT, .reg .CDR_FLG]
  | .linkctlRetryReceive ..
 => [.out, .tim, .ports, .links, .devs, .ctxs, .cmgr, .txns, .rings, .entries, .cmds, .deal, .icu, .pool, .pwr, .smp, .reg .SCH_CTXCNT, .reg
   .PRT_STS, .reg .PRT_CHG, .reg .PRT_RETRY, .reg .MOV_STS, .reg .ICU_ERR, .reg .PWR_STS, .reg .PWR_EVT, .reg .PWR_WAKE, .reg .PWR_RCNT, .reg
   .GTH_CNT, .reg .GTH_DROP, .reg .CDR_EVT, .reg .CDR_FLG]
  | .dealerStopped ..
 => [.out, .tim, .ports, .links, .devs, .ctxs, .cmgr, .txns, .rings, .entries, .cmds, .deal, .icu, .pool, .pwr, .smp, .reg .SCH_CTXCNT, .reg
   .PRT_STS, .reg .MOV_STS, .reg .ICU_CORESTS, .reg .ICU_ERR, .reg .PWR_STS, .reg .PWR_EVT, .reg .PWR_WAKE, .reg .PWR_RCNT, .reg .GTH_CNT, .reg
   .GTH_DROP, .reg .CDR_EVT, .reg .CDR_FLG, .reg .PWR_MODE]
  | .portEnable .. | .portClearError .. | .portRetrain .. | .portResume .. | .portSuspend .. | .portReset ..
 => [.out, .tim, .ports, .links, .devs, .ctxs, .cmgr, .txns, .rings, .entries, .cmds, .sched, .deal, .icu, .pool, .pwr, .smp, .reg .SCH_CTXCNT, .reg
   .PRT_CTL, .reg .PRT_STS, .reg .PRT_CHG, .reg .MOV_STS, .reg .ICU_ERR, .reg .PWR_STS, .reg .PWR_EVT, .reg .PWR_WAKE, .reg .PWR_RCNT, .reg .GTH_CNT,
   .reg .GTH_DROP, .reg .CDR_EVT, .reg .CDR_FLG]
  | .replayTimeout ..
 => [.out, .tim, .ports, .links, .devs, .ctxs, .cmgr, .txns, .rings, .entries, .cmds, .deal, .icu, .pool, .pwr, .twin, .smp, .reg .SCH_CTXCNT, .reg
   .PRT_STS, .reg .PRT_CHG, .reg .PRT_RETRY, .reg .MOV_STS, .reg .ICU_ERR, .reg .PWR_STS, .reg .PWR_EVT, .reg .PWR_WAKE, .reg .PWR_RCNT, .reg
   .TWN_STS, .reg .GTH_CNT, .reg .GTH_DROP, .reg .CDR_EVT, .reg .CDR_FLG]
  | .hostReadFail ..
 => [.out, .free, .tim, .ctxs, .cmgr, .txns, .rings, .entries, .cmds, .deal, .slices, .icu, .pool, .smp, .mov, .aer, .reg .SCH_DYN_CNT, .reg
   .SCH_CTXCNT, .reg .MOV_SRC, .reg .MOV_DST, .reg .MOV_CNT, .reg .MOV_CTL, .reg .MOV_STS, .reg .MOV_DPTR, .reg .MOV_CRC, .reg .MOV_MISOFS, .reg
   .MOV_BIND, .reg .MOV_BIND_N, .reg .MOV_GERR, .reg .ICU_ERR, .reg .GTH_CNT, .reg .GTH_DROP, .reg .CDR_EVT, .reg .CDR_FLG]
  | .sliceRestore ..
 => [.out, .links, .ctxs, .cmgr, .rings, .entries, .cmds, .sched, .deal, .slices, .icu, .pool, .twin, .smp, .audit, .mov, .reg .SCH_ADM_EVT, .reg
   .SCH_CTXCNT, .reg .MOV_STS, .reg .ICU_ERR, .reg .SLC_STS, .reg .SLC_ERR, .reg .SEC_EVT, .reg .SEC_AUDIT, .reg .GTH_CNT, .reg .GTH_DROP, .reg
   .CDR_EVT, .reg .CDR_FLG, .reg .MBM_EVT, .reg .MBT_EVT, .reg .MBT_EVT_SHADOW, .reg .MBT_CTL, .reg .SLI_ROUTE, .reg .SLT_EVT, .reg .SLT_EVT_SHADOW]
  | .frameTick ..
 => [.out, .free, .tim, .pol, .ports, .links, .devs, .ctxs, .cmgr, .txns, .rings, .entries, .cmds, .sched, .deal, .slices, .icu, .pool, .twin, .smp,
   .audit, .mov, .hlt, .reg .GCTL_POLICY_STS, .reg .TIM_STS, .reg .TIM_EVT, .reg .TIM_FRATE_ACT, .reg .SCH_ADM_STS, .reg .SCH_ADM_EVT, .reg
   .SCH_LAST_SWITCH, .reg .SCH_DYN_CNT, .reg .SCH_CTXCNT, .reg .PRT_STS, .reg .PRT_CHG, .reg .MOV_STS, .reg .ICU_ERR, .reg .SLC_STS, .reg .HLT_STS,
   .reg .HLT_EVT, .reg .HLT_POOL, .reg .HLT_RETIRED, .reg .SEC_EVT, .reg .SEC_AUDIT, .reg .TWN_STS, .reg .TWN_EVT, .reg .TWN_WARM, .reg .GTH_CNT, .reg
   .GTH_DROP, .reg .CDR_EVT, .reg .CDR_FLG, .reg .SLT_EVT]
  | .indAccessDone .. => [.ind] ++ Part.regs
  | .registerWrite .. | .aliasWrite ..
 => [.out, .free, .tim, .pol, .ports, .links, .devs, .ctxs, .cmgr, .txns, .rings, .entries, .cmds, .sched, .deal, .slices, .icu, .pool, .pwr, .twin,
   .smp, .audit, .mov, .ind] ++ Part.regs
  | .cmdWriteback .. | .pcieStopped .. | .restoreStep .. | .porRelease .. | .startWatchdog .. | .flr .. | .thermalSample .. | .zeroize ..
  | .perstNAssert .. | .perstNRelease .. | .pwrGoodLow .. | .vaonLoss ..
 => Part.all

end Sys2Proof.Machine
end

