-- ==== Sys2Proof/Frame.lean ====
section
/-! DEFINITION. Frame.lean: the words in which the statements say that a command leaves everything but a named piece of the state as before. -/

namespace Sys2Proof.Machine

/-- Every field that shares no bit with those of `l` reads as before, in every instance of its register. -/
def OnlyFields (l : List Fld) (s t : State) : Prop := ∀ g i, (∀ f ∈ l, f.apart g = true) → t.fgetN g i = s.fgetN g i

/-- The queue and every part but those of `l` are as before. -/
def OnlyParts (l : List Part) (s t : State) : Prop := t.pending = s.pending ∧ ∀ p, p ∉ l → p.same s t

/-- Every link end but one is as before. -/
def OnlyLink (l : LinkEndId) (s t : State) : Prop := ∀ k, k.code ≠ l.code → t.link k = s.link k

/-- Every port but one is as before. -/
def OnlyPort (p : PortId) (s t : State) : Prop := ∀ q, q.code ≠ p.code → t.port q = s.port q

/-- Every device but one is as before. -/
def OnlyDev (d : Nat) (s t : State) : Prop := ∀ e, e ≠ d → t.dev e = s.dev e

/-- Every ring but one is as before. -/
def OnlyRing (r : Nat) (s t : State) : Prop := ∀ q, q ≠ r → t.ring q = s.ring q

/-- `exec i s` ANSWERS A NEXT STATE, in which the queue and every part outside the command's reach is as before, and of which `Q` holds. -/
def Answers (i : Instr) (s : State) (Q : State → Prop) : Prop := ∃ t, exec i s = .next t ∧ OnlyParts (parts i) s t ∧ Q t

/-- TIM_STS names the row of Table 2.2 that is in use: its phase source, and holdover when no phase input is left (R39, R42). -/
def RowInUse (t : State) : Prop :=
  t.fget .TIM_STS_PHASE_SRC = t.timeRow.phaseSrc ∧ t.fget .TIM_STS_HOLDOVER = bit (t.timeRow == .held)

/-- The packet with which a device answers a call: the call's fields, the device's route, upstream (R97). -/
def State.answerPkt (s : State) (d : Nat) (call : Pkt) (pid pflags : Nat) (b : List Byte) : Pkt :=
  ⟨pid, true, (s.dev d).route, call.tag, call.dir, call.epnum, call.devaddr, pflags, b⟩

/-- An end is none of an absent port, its transmitter is not idle, nothing waits there for the next FRAME, and a packet of LEN `n` that starts now
ends early enough before the tick (R90). -/
def FreeToSend (l : LinkEndId) (n : Nat) (s : State) : Prop :=
  (s.link l).held = [] ∧ s.txForced l = false ∧ s.absentEnd l = false ∧ s.tickHold l n 0 = false

/-- The header of sixteen bytes that stands at the front of an end's byte stream, behind its SOP (R77). -/
def State.frontHead (s : State) (l : LinkEndId) : List RxSym := ((s.link l).rx.drop 2).take 16

/-- The packet at the front of the byte stream as its header gives its length. -/
def State.front (s : State) (l : LinkEndId) : RawPkt :=
  let n := RawPkt.len ⟨(s.frontHead l).map RxSym.value, [], 0, false⟩
  let p := ((s.link l).rx.drop 18).take n
  let c := ((s.link l).rx.drop (18 + n)).take 4
  ⟨(s.frontHead l).map RxSym.value, p.map RxSym.value, BitVec.ofNat 32 (leNat (c.map RxSym.value)), (s.frontHead l ++ p ++ c).any RxSym.bad⟩

/-- A whole header has come. -/
def HeaderCame (l : LinkEndId) (s : State) : Prop := atSop (s.link l).rate (s.link l).rx = true ∧ (s.frontHead l).length = 16

/-- A whole packet has come, of which every byte of the header is a data byte. -/
def PacketCame (l : LinkEndId) (r : RawPkt) (s : State) : Prop :=
  HeaderCame l s ∧ (s.frontHead l).any RxSym.noByte = false ∧ s.front l = r ∧ 22 + r.len ≤ (s.link l).rx.length

/-- Kept packets on a link back to back, the first `off` byte times after the crossing `x` (R77, R91). -/
def State.outs (s : State) (l : LinkEndId) (x : Int) : Nat → List Kept → List Output
  | _, [] => []
  | off, k :: r => .send l (s.link l).rate (k.sent (s.atPlane l (x + (off * s.byteTenths l * 256 / 10 : Nat)))) :: outs s l x (off + k.pkt.len + 24) r

/-- The bytes of a link that they take. -/
def keptSpan (r : List Kept) : Nat := (r.map fun k => k.pkt.len + 24).foldl (· + ·) 0

/-- A device's upstream link is up with nothing kept and nothing waiting, and the tick far enough away for the longest packet, so that a packet leaves at
once (R87, R90). -/
def ClearUp (d up : Nat) (s : State) : Prop :=
  s.upOf d = some up ∧ (s.link (.dev d up)).up = true ∧ (s.link (.dev d up)).queue = [] ∧ (s.link (.dev d up)).replay = [] ∧
  FreeToSend (.dev d up) 4096 s

/-- What left the block are `o`, then one packet on a device's upstream link, with the link's next LSEQ (R84). -/
def SentUp (d up : Nat) (o : List Output) (p : Pkt) (s t : State) : Prop :=
  t.out = s.out ++ o ++ [.send (.dev d up) (s.link (.dev d up)).rate (.txn (s.link (.dev d up)).txSeq p)] ∧
  (t.link (.dev d up)).txSeq = ((s.link (.dev d up)).txSeq + 1) % 4096 ∧ OnlyLink (.dev d up) s t

/-- A call to an endpoint other than 0 that a configured device may serve: its address, an endpoint that it has, of the class that the call names,
not halted (R96, R139). -/
def Serves (d : Nat) (p : Pkt) (e : DevEp) (s : State) : Prop :=
  p.devaddr = (s.dev d).addr ∧ p.epnum ≠ 0 ∧ (s.dev d).st = 2 ∧ (s.dev d).ep? p.epnum p.dir = some e ∧ e.cls = p.pflags % 8 ∧ e.halted = false

/-! ### Commands of a COMMAND ring -/

/-- What a descriptor that an engine channel completes may change beside its own effect (R300, R316): the STATUS and STATE of that channel, and the state and the
credits of the channels that it paces. -/
def engineFields : List Fld := [.MOV_STS_STATUS, .MOV_STS_STATE, .MOV_STS_CREDITS]

/-- The descriptor `b` at HEAD of ring `r` is taken now, and it passes the checks that every command of opcode `op` goes through (R193–R196); it
names what its fields do, and `names` (R194). -/
def Accepted (r op : Nat) (b : List Byte) (s : State) (names : List (Nat × Nat) := []) : Prop :=
  s.takes r 1 = true ∧ (s.ring r).geoOk = true ∧ b.length = 32 ∧ cmdOp b = op ∧ cmdOwn b = true ∧ s.cmdWaits r op b names = false ∧
  cmdOpN b = 255 - op ∧ (s.inSafe = true → cmdSafe op = true) ∧ cmdReserved op = false ∧
  (cmdManagerOnly op = true → (s.ring r).slice = none) ∧
  nfield (cmdDw0 b) 29 24 = 0 ∧ nfield (cmdDw0 b) 7 0 = 0 ∧ leNat (slice 4 4 b) = 0 ∧
  onlyFields (cmdArg0 b) (cmdFields op).1 = true ∧ onlyFields (cmdArg1 b) (cmdFields op).2.1 = true ∧
  onlyFields (cmdArg2 b) (cmdFields op).2.2 = true ∧ ∀ a n, cmdAddress op b = some (a, n) → a % n = 0

/-- HEAD of the ring has passed the descriptor; its command has a status and a RESULT that wait for the write-back (R193). -/
def Completes (r : Nat) (b : List Byte) (status result : Nat) (s t : State) : Prop :=
  (t.ring r).head = ((s.ring r).head + 1) % (s.ring r).size ∧
  ∃ c ∈ t.cmds, c.ring = r ∧ c.idx = (s.ring r).head ∧ c.op = cmdOp b ∧ c.bytes = b ∧ c.status = some status ∧ c.result = result % 2 ^ 64

/-- HEAD of the ring has passed the descriptor; its command is in progress. -/
def InProgress (r : Nat) (b : List Byte) (s t : State) : Prop :=
  (t.ring r).head = ((s.ring r).head + 1) % (s.ring r).size ∧
  ∃ c ∈ t.cmds, c.ring = r ∧ c.idx = (s.ring r).head ∧ c.op = cmdOp b ∧ c.bytes = b ∧ c.status = none

/-- Every command of another ring, or of another place of this ring, is as it was. -/
def CmdsKept (r : Nat) (s t : State) : Prop := ∀ k ∈ s.cmds, (k.ring ≠ r ∨ k.idx ≠ (s.ring r).head) → k ∈ t.cmds

/-- An issuer on ring `r` may act on the allotted ring `n`: it is the issuer's own, and its slice may change (R195, R197, R329). -/
def RingFor (r n : Nat) (s : State) : Prop :=
  4 ≤ n ∧ n < s.nRings ∧ n ≠ r ∧ ((s.ring r).slice = none ∨ (s.ring n).slice = (s.ring r).slice) ∧
  ∀ k, (s.ring n).slice = some k → s.sliceFixed k = false

/-- The command names an endpoint of a present port whose context is cached; it is the issuer's own, and its slice may change (R161, R195, R329). -/
def EpFor (r : Nat) (b : List Byte) (eph : Nat) (k : CtxSlot) (s : State) : Prop :=
  eph = nfield (cmdArg1 b) 24 0 ∧ Eph.port eph < s.nPorts ∧ Eph.addr eph ≠ 4095 ∧ s.ctx? eph = some k ∧
  ((s.ring r).slice = none ∨ (s.ring r).slice = some k.ctx.owner) ∧ s.sliceFixed k.ctx.owner = false

/-- The controller runs no control transfer of its own, and no EP_REMOVE waits: nothing follows from the end of a transaction but what the rule
says. -/
def Quiet (s : State) : Prop :=
  (∀ e ∈ s.entries, e.forCmd = none) ∧ ∀ c ∈ s.cmds, c.op = 0x11 → c.stage = 1 → c.status ≠ none

/-- The state of a cached context (Table 4.16). -/
def State.ctxSt (s : State) (eph : Nat) : Option Nat := (s.ctx? eph).map fun k => k.ctx.state

/-- The entry of a number has completed with a status (R181). -/
def EndsWith (e : Entry) (status : Nat) (t : State) : Prop := ∃ e' ∈ t.entries, e'.id = e.id ∧ e'.ring = e.ring ∧ e'.done = some (e.doneWith status)

/-- The full-width read of a register with RC fields (R467, R468): its value is returned, the shadow takes it, and the RC fields clear; a request of
64 bits also returns the shadow as it was. -/
def Cleared (r sh : Reg) (i : Nat) (both : Bool) (s t : State) : Prop :=
  t.rd r i = s.rd r i &&& ~~~ BitVec.ofNat 64 r.info.rc &&& r.bits ∧ t.rd sh i = s.rd r i &&& sh.bits ∧
  (∀ k, k ≠ i → t.rd r k = s.rd r k ∧ t.rd sh k = s.rd sh k) ∧
  s.out ++ (if both then [.readData (s.rd r i), .readData (s.rd sh i)] else [.readData (s.rd r i)]) <+: t.out

/-- Every source but those of a list is as before. -/
def OnlySources (l : List Nat) (s t : State) : Prop := ∀ x, x ∉ l → t.source x = s.source x

/-- The twin link takes the message of a kind that it expects (R377): it is up and enabled, the bytes check, and the LSEQ is the next one. Its payload
is `p`. -/
def TwinTakes (kind : Nat) (m p : List Byte) (s : State) : Prop :=
  s.twin.enabled = true ∧ s.linkUp = true ∧ twinRead m = .msg kind s.twin.rxSeq p

/-- Every tree but one is as before. -/
def OnlyTree (n : Nat) (s t : State) : Prop := ∀ m, m ≠ n → t.tree m = s.tree m

/-- A command in progress on ring 0 completes with a status and a RESULT. -/
def CmdEnds (c : CmdRec) (status result : Nat) (t : State) : Prop := { c with status := some status, result := result % 2 ^ 64 } ∈ t.cmds

/-- An entry to a low-power state stands at an abort point, and nothing aborts it (R423, R425). -/
def EntryAt (k : Nat) (s : State) : Prop := s.flag .PWR_STS_ENTERING = true ∧ s.fget .PWR_STS_APOINT = k ∧ s.pwr.abortBy = none

/-- A wake was taken from the state left (R431). -/
def Woken (cause seen port : Nat) (s t : State) : Prop :=
  t.fget .PWR_WAKE_CAUSE = cause ∧ t.fget .PWR_WAKE_FROM = s.pwrState ∧ t.fget .PWR_WAKE_COLLIDED = 0 ∧ t.fget .PWR_WAKE_SEEN = 2 ^ seen ∧
  t.fget .PWR_WAKE_PORT = port ∧ t.flag .PWR_STS_EXITING = true ∧ t.fget .PWR_STS_TARGET = 0

/-- Nothing moves: the controller stands in a state with no request, entry or exit, and no thermal trip is held. -/
def Rests (s : State) : Prop :=
  s.pwr.requested = false ∧ s.flag .PWR_STS_ENTERING = false ∧ s.flag .PWR_STS_EXITING = false ∧ s.hlt.tripHeld = false

/-- The register file lists each register's instance once, by rising key. -/
def Ordered (s : State) : Prop := s.regs.Pairwise fun a b => a.1 < b.1

/-! ### Starts and health -/

/-- A cold start that finds `i` passes from slot A, the COMMITTED one (R438, R442, R452): the OTP is read, the slot checks, and BIST finds nothing that
cannot be repaired. -/
def StartPasses (i : StartIn) (o : Otp) (s : State) : Prop :=
  i.otp = some o ∧ s.hlt.trial = none ∧ s.hlt.committed = 0 ∧ i.a.valid = true ∧
  nfield (Nat.lor o.revoked (s.fget .SEC_STS_REVOKED)) i.a.keySlot i.a.keySlot = 0 ∧ max o.floor (s.fget .SEC_STS_FLOOR) ≤ i.a.svn ∧
  i.bist = true ∧ i.loopFail = 0 ∧ (i.region0 = true → s.fget .HLT_START_FAILS ≠ 3)

/-- A cold start has passed from slot A and waits for READY: every array is empty, FAILS and STARTS are those of ember region 0 where it checks. -/
def ColdStarted (i : StartIn) (o : Otp) (s t : State) : Prop :=
  t.hlt.starting = true ∧ t.ready = false ∧ t.fget .HLT_START_KIND = 0 ∧ t.fget .HLT_START_SLOT = 0 ∧ t.flag .HLT_START_TRIAL = false ∧
  t.fget .HLT_START_FAILS = (if i.region0 then s.fget .HLT_START_FAILS else 0) ∧
  t.fget .HLT_START_STARTS = min 65535 ((if i.region0 then s.fget .HLT_START_STARTS else 0) + 1) ∧
  t.fget .SEC_STS_FLOOR = max o.floor (s.fget .SEC_STS_FLOOR) % 256 ∧ t.fget .SEC_STS_SVN = i.a.svn % 256 ∧ t.pwrState = 0 ∧
  t.rings = [] ∧ t.ctxs = [] ∧ t.entries = [] ∧ t.cmds = [] ∧ t.txns = [] ∧ t.pool = [] ∧ t.devs = s.devs

/-- HLT_STS shows what the findings give (R449, Table 15.3). -/
def Judged (t : State) : Prop := t.fget .HLT_STS_REASONS = t.findings ∧ t.fget .HLT_STS_STATE = t.healthOf t.findings

/-- Registers of which a write is nothing but a store: no rule gives it a further effect at once. -/
def plainRegs : List Reg :=
  [.TIM_UTC, .TIM_IRIG_OFS, .TIM_DISC, .TIM_STEP_THR, .TIM_HOLD, .SCH_BACKOFF, .SCH_PINGGAP, .SCH_QUOTA, .SCH_SPILL_SIZE, .SCH_GW, .SCH_DYN_CNT,
   .SCH_NAK_CNT, .SCH_TRACE_EPH, .SCH_TRACE_MASK, .MOV_REQSEL, .ICU_SRCSEL, .ICU_MRVEC, .ICU_VSEL, .SLC_PASID, .SLC_PASID_N, .SLC_CNTR, .SLC_CNTR_N,
   .PWR_WAKE_EN, .PWR_RSEL, .HLT_SEL, .TWN_GEN, .TWN_GEN_N, .TWN_PMAP, .TWN_PMAP_N]

/-- Every instance of a register but one is as before, and so is every other register. -/
def OnlyReg (r : Reg) (i : Nat) (s t : State) : Prop := ∀ q j, (q ≠ r ∨ j ≠ i) → t.rd q j = s.rd q j

end Sys2Proof.Machine
end

