-- ==== Sys2Proof/Certificates/Slice0/Obligations.lean ====
section
/-! DEFINITION. Certificates/Slice0/Obligations.lean: the statements. `Answers i s Q` (Frame.lean) says that `exec i s` answers a next state, that
everything outside the command's reach `parts i` (Safety.lean) is as before, and that `Q` holds of the next state. -/

open Sys2Proof Sys2Proof.Machine


/-! ### The time base (chapter 02) -/

/-- Inputs and phase marks (R39, R40, R42–R44): an input that was valid and is lost shows so in TIM_STS and in TIM_EVT, one that becomes valid in
TIM_STS, and the row in use follows. An active edge of PPS_IN within 1 µs of a second, the on-time mark of IRIG_IN where IRIG_IN is the phase source,
and a completed PTM dialogue where PTM is, leave in TIM_OFFSET how far the time base was off, where it has a label and the labels at hand agree with
it; an edge of PPS_IN further off is counted and rejected, but the third of three that agree is taken; the other edge does nothing (R41). A completed
dialogue leaves the host's time and the time base's beside each other, and the third failed one in a row loses PTM; the second bad frame in a row
loses IRIG_IN. Completion is stated for ppsInLost, refInLost, refInValid, irigInLost, irigFrameReceive, ppsInEdge, irigOnTimeMark, ptmDialogueDone. -/
def Obligations.TimeInputsAndPhaseMarksAct : Prop :=
  (∀ s, s.flag .TIM_STS_PPS_OK = true → Answers .ppsInLost s fun t =>
    t.flag .TIM_STS_PPS_OK = false ∧ t.flag .TIM_EVT_PPS_LOST = true ∧ RowInUse t) ∧
  (∀ s, s.flag .TIM_STS_REF_OK = true → Answers .refInLost s fun t =>
    t.flag .TIM_STS_REF_OK = false ∧ t.flag .TIM_EVT_REF_LOST = true ∧ RowInUse t) ∧
  (∀ s, Answers .refInValid s fun t => t.flag .TIM_STS_REF_OK = true ∧ RowInUse t) ∧
  (∀ s, s.flag .TIM_STS_IRIG_OK = true → Answers .irigInLost s fun t =>
    t.flag .TIM_STS_IRIG_OK = false ∧ t.flag .TIM_EVT_IRIG_LOST = true ∧ t.tim.irigLabel = none ∧ RowInUse t) ∧
  (∀ s year sec, Answers (.irigFrameReceive true year sec) s fun t =>
    t.flag .TIM_STS_IRIG_OK = true ∧ t.tim.irigBad = 0 ∧ t.tim.irigLabel = s.irigLabelOf year sec ∧ RowInUse t) ∧
  (∀ s year sec, s.flag .TIM_STS_IRIG_OK = true → 1 ≤ s.tim.irigBad → Answers (.irigFrameReceive false year sec) s fun t =>
    t.flag .TIM_STS_IRIG_OK = false ∧ t.flag .TIM_EVT_IRIG_LOST = true ∧ RowInUse t) ∧
  (∀ s r t, r = s.ctlBit 8 → exec (.ppsInEdge r t) s = .next (s.at_ t)) ∧
  (∀ s r t, r = !s.ctlBit 8 → (pastSec t).natAbs ≤ 1000 → s.flag .TIM_STS_LABEL_VALID = true → s.ctlBit 3 = true →
    (∀ l, s.tim.irigLabel = some l ∨ s.tim.labelArmed = some l → l = nearSec t) → Answers (.ppsInEdge r t) s fun t' =>
      t'.flag .TIM_STS_PPS_OK = true ∧ t'.fget .TIM_OFFSET_OFFSET = satBits 32 (pastSec t) ∧ t'.tim.rejected = [] ∧ RowInUse t') ∧
  (∀ s r t, r = !s.ctlBit 8 → 1000 < (pastSec t).natAbs → s.tim.rejected.length < 2 ∨ agree ((pastSec t :: s.tim.rejected).take 3) = false →
    Answers (.ppsInEdge r t) s fun t' =>
      t'.tim.ppsRejects = s.tim.ppsRejects + 1 ∧ t'.tim.rejected = (pastSec t :: s.tim.rejected).take 3 ∧ OnlyFields [] s t') ∧
  (∀ s r t, r = !s.ctlBit 8 → 1000 < (pastSec t).natAbs → 2 ≤ s.tim.rejected.length → agree ((pastSec t :: s.tim.rejected).take 3) = true →
    Answers (.ppsInEdge r t) s fun t' =>
      t'.tim.ppsRejects = s.tim.ppsRejects + 1 ∧ t'.tim.rejected = [] ∧ t'.flag .TIM_STS_PPS_OK = true ∧ RowInUse t') ∧
  (∀ s t, s.fget .TIM_STS_PHASE_SRC = 2 → s.flag .TIM_STS_LABEL_VALID = true →
    (∀ l, s.tim.irigLabel = some l ∨ s.tim.labelArmed = some l → l = nearSec t) → Answers (.irigOnTimeMark t) s fun t' =>
      t'.fget .TIM_OFFSET_OFFSET = satBits 32 (pastSec t) ∧ t'.tim.irigLabel = none ∧ RowInUse t') ∧
  (∀ s hostSec hostNs loc, hostNs < 1000000000 → hostSec < 18446744073 → Answers (.ptmDialogueDone true hostSec hostNs loc) s fun t' =>
    t'.flag .TIM_STS_PTM_OK = true ∧ t'.fget .TIM_PTM_HOST_HOST = hostSec * 1000000000 + hostNs ∧ t'.tim.ptmLocal = loc ∧ t'.tim.ptmBad = 0 ∧
    RowInUse t') ∧
  (∀ s hostSec hostNs loc, hostNs < 1000000000 → hostSec < 18446744073 → s.timeRow.phaseSrc = 3 → s.flag .TIM_STS_PTM_OK = true →
    s.flag .TIM_STS_LABEL_VALID = true → (((loc : Nat) : Int) - (hostSec * 1000000000 + hostNs : Nat)).natAbs < 500000000 →
    (∀ l, s.tim.labelArmed = some l → l = hostSec) → Answers (.ptmDialogueDone true hostSec hostNs loc) s fun t' =>
      t'.fget .TIM_OFFSET_OFFSET = satBits 32 ((loc : Int) - (hostSec * 1000000000 + hostNs : Nat)) ∧ RowInUse t') ∧
  (∀ s hostSec hostNs loc, s.flag .TIM_STS_PTM_OK = true → 2 ≤ s.tim.ptmBad → Answers (.ptmDialogueDone false hostSec hostNs loc) s fun t' =>
    t'.flag .TIM_STS_PTM_OK = false ∧ t'.flag .TIM_EVT_PTM_LOST = true ∧ RowInUse t')

/-- Holdover, steps, the controls of the time base and its reads: each second of holdover raises the error bound by TIM_HOLD (R42), STEP_GO decides a
pending step (R46), which is made at once while FRAME_EN is 0 (R495), a write of FRAME_EN changes that bit alone (R51), and a write of TIM_LABEL arms
the label (R44); a narrow one changes nothing but the access error log (R465). The low half of TIM_NOW samples the count and holds the high half, a
full-width read of TIM_FRAME_NO holds TIM_FRAME_START, and one of TIM_PTM_HOST holds TIM_PTM_LOCAL of the same dialogue (R66). Completion is stated
for errEstGrowth, stepGo, frameEnWrite, timLabelWrite, timNowRead, timFrameNoRead, timPtmHostRead. -/
def Obligations.TimeBaseControlsAndReadsAct : Prop :=
  (∀ s, s.flag .TIM_STS_HOLDOVER = true → Answers .errEstGrowth s fun t =>
    t.tim.errPs = min 4294967295000 (s.tim.errPs + (if s.refIn then field s.tim.effHold 15 0 else field s.tim.effHold 31 16 * 1000)) ∧
    t.fget .TIM_ERR_EST_ERR_EST = min 0xFFFFFFFF (t.tim.errPs / 1000) ∧ RowInUse t) ∧
  (∀ s t, s.ready = true → s.flag .TIM_STS_STEP_PENDING = true → s.tim.stepAt = none → s.flag .TIM_CTL_FRAME_EN = true →
    Answers (.stepGo t) s fun t' =>
    t'.tim = { s.tim.runTo t with stepAt := some t }) ∧
  (∀ s t d, s.ready = true → s.flag .TIM_STS_STEP_PENDING = true → s.tim.stepAt = none → s.tim.stepOfs = some d → s.flag .TIM_CTL_FRAME_EN = false →
    Answers (.stepGo t) s fun t' =>
      t'.tim.now = ((t : Int) + d).toNat ∧ t'.tim.tickAt = tickTime s.frate (tickIndex s.frate t'.tim.now) ∧ t'.tim.stepOfs = none ∧
      t'.flag .TIM_STS_STEP_PENDING = false ∧ t'.flag .TIM_EVT_STEP_DONE = true) ∧
  (∀ s en, s.ready = true → Answers (.frameEnWrite en) s fun t =>
    t.flag .TIM_CTL_FRAME_EN = en ∧ OnlyFields [.TIM_CTL_FRAME_EN] s t) ∧
  (∀ s data t be, s.ready = true → Answers (.timLabelWrite .full data t be) s fun t' =>
    t'.fget .TIM_LABEL_LABEL = data % 2 ^ 64 ∧
    t'.tim = { s.tim.runTo t with labelArmed := if data % 2 ^ 64 = 0 then none else some (data % 2 ^ 64) }) ∧
  (∀ s data t be, s.ready = true → Answers (.timLabelWrite .high data t be) s fun t' =>
    t'.fget .TIM_LABEL_LABEL = data % 2 ^ 32 * 2 ^ 32 + s.fget .TIM_LABEL_LABEL % 2 ^ 32 ∧
    t'.tim.labelArmed = if t'.fget .TIM_LABEL_LABEL = 0 then none else some (t'.fget .TIM_LABEL_LABEL)) ∧
  (∀ s data t be, s.ready = true → Answers (.timLabelWrite .low data t be) s fun t' =>
    t'.fget .TIM_LABEL_LABEL = s.fget .TIM_LABEL_LABEL / 2 ^ 32 * 2 ^ 32 + data % 2 ^ 32 ∧ t'.tim = s.tim) ∧
  (∀ s data t be, s.ready = true → Answers (.timLabelWrite .narrow data t be) s fun t' =>
    t'.fget .TIM_LABEL_LABEL = s.fget .TIM_LABEL_LABEL ∧ t'.tim = s.tim) ∧
  (∀ s t, s.ready = true → exec (.timNowRead .full t) s = .next ((s.at_ t).answer (BitVec.ofNat 64 t))) ∧
  (∀ s t, s.ready = true → Answers (.timNowRead .low t) s fun t' =>
    t'.out = s.out ++ [.readData (BitVec.ofNat 64 (t % 2 ^ 32))] ∧ t'.tim = { s.tim.runTo t with nowHigh := t / 2 ^ 32 % 2 ^ 32 }) ∧
  (∀ s t, s.ready = true → Answers (.timNowRead .high t) s fun t' =>
    t'.out = s.out ++ [.readData (BitVec.ofNat 64 s.tim.nowHigh)] ∧ t'.tim.nowHigh = s.tim.nowHigh) ∧
  (∀ s w, s.ready = true → w = .full ∨ w = .low → Answers (.timFrameNoRead w) s fun t =>
    t.out = s.out ++ [.readData (BitVec.ofNat 64 s.tim.frameNo)] ∧ t.tim = { s.tim with heldStart := s.tim.tickAt }) ∧
  (∀ s, s.ready = true → Answers (.timPtmHostRead .full) s fun t =>
    t.out = s.out ++ [.readData (BitVec.ofNat 64 (s.fget .TIM_PTM_HOST_HOST))] ∧ t.tim = { s.tim with heldLocal := s.tim.ptmLocal }) ∧
  (∀ s, s.ready = true → Answers (.timPtmHostRead .low) s fun t =>
    t.out = s.out ++ [.readData (BitVec.ofNat 64 (s.fget .TIM_PTM_HOST_HOST % 2 ^ 32))] ∧ t.tim = { s.tim with heldLocal := s.tim.ptmLocal })

/-- FRAME_TICK (R47–R49, R51, R67): where no step is due the time base stands at the next tick instant, the frame that starts has that instant's
number at the frame rate in force from it, FRAMEs run as FRAME_EN says, set from the frame that starts a second on and cleared at once, and TIM_TRIMn
is in effect; where a step is due it moves the time base by its offset at the tick, the frame is marked STEPPED, and STEP_PENDING clears with
TIM_EVT.STEP_DONE. Completion is stated for frameTick. -/
def Obligations.FrameTickAdvancesOrStepsTheTimeBase : Prop :=
  (∀ s corr behind tTx h, s.stepDue s.nextTick = none → s.flag .TIM_CTL_FRAME_EN = true ∨ s.tim.stepOfs = none →
    Answers (.frameTick corr behind tTx h) s fun t =>
    t.tim.now = s.nextTick ∧ t.tim.tickAt = s.nextTick ∧ t.tim.frameNo = frameNumber (s.rateFrom s.nextTick) s.nextTick ∧
    t.tim.stepped = false ∧
    t.tim.framesOn = (s.flag .TIM_CTL_FRAME_EN && (s.tim.framesOn || decide (s.tim.tickAt / 1000000000 < s.nextTick / 1000000000))) ∧
    ∀ n < 64, Tbl.get 0 t.tim.effTrim n = s.fgetN .TIM_TRIM_TRIM n) ∧
  (∀ s corr behind tTx h d, s.stepDue s.nextTick = some d → Answers (.frameTick corr behind tTx h) s fun t =>
    t.tim.tickAt = ((s.nextTick : Int) + d).toNat ∧ t.tim.frameNo = s.nextNumber ∧ t.tim.stepped = true ∧ t.tim.stepOfs = none ∧
    t.flag .TIM_EVT_STEP_DONE = true ∧ t.flag .TIM_STS_STEP_PENDING = false)

/-! ### Links and ports (chapters 02 and 03) -/

/-- FRAME and delay measurement at hubs and modules (R54, R56–R58, R61, R79): a FRAME later than any applied sets the clock of a device whose link
delay is known, by a step where it is not synchronised or the FRAME says STEPPED and by a slew otherwise, once what it has slewed since its last one
is added; a bad one is counted; the port above answers DELAY_REQ with the crossings at the reference plane and keeps LAST_MEAN, and goes to ERROR
above 10 µs; the requester takes a mean within 5 ns of its last one and keeps another beside it, but takes the third of three such that lie within 5
ns of each other; it takes none of a round trip above 40 µs; an unanswered request is abandoned; and a device without an accepted FRAME for 16 frames
is no longer synchronised. Completion is stated for frameReceive, delayReqReceive, delayRespReceive, delayReqAbandon, syncLost. -/
def Obligations.DevicesFollowTheTimeBase : Prop :=
  (∀ s d up b f tRx tTx t1 down, FrameBody.ofBytes b = f → frameBad f = false → s.upOf d = some up → (∀ n, (s.dev d).lastFrame = some n →
    later32 f.frameNo n = true) →
    (s.delay d up).down = some down → Answers (.frameReceive d up b tRx tTx t1) s fun t =>
      (t.dev d).synced = true ∧ (t.dev d).lastFrame = some f.frameNo ∧ (t.dev d).frameMiss = 0 ∧
      (let off := frameStart f - (tRx - f.correction - down)
       let v := (s.dev d).slewTo tRx
       if f.stepped = true ∨ (s.dev d).synced = false then (t.dev d).clk = v.clk + off ∧ (t.dev d).slew = 0
       else (t.dev d).clk = v.clk ∧ (t.dev d).slew = off) ∧ OnlyDev d s t) ∧
  (∀ s d up b tRx tTx t1, frameBad (FrameBody.ofBytes b) = true → Answers (.frameReceive d up b tRx tTx t1) s fun t =>
    t.dev d = { s.dev d with badFrames := (s.dev d).badFrames + 1 } ∧ OnlyDev d s t ∧ t.out = s.out ∧ t.links = s.links) ∧
  (∀ s n b t2 t3, delayReqMean b ≤ 2560000 ∨ delayReqMean b = 2 ^ 32 - 1 → FreeToSend (.port (.root n)) 32 s →
    Answers (.delayReqReceive (.root n) b t2 t3) s fun t =>
      t.out = s.out ++ [.send (.port (.root n)) (s.link (.port (.root n))).rate (.delayResp (delayReqSeq b) ((t2 : Int) - s.trimOf (.port (.root n))).toNat
        ((t3 : Int) + s.trimOf (.port (.root n))).toNat)] ∧ t.fgetN .TIM_PDLY_MEAN n = delayReqMean b ∧
      OnlyFields [.TIM_PDLY_MEAN] s t) ∧
  (∀ s d i b t2 t3, delayReqMean b ≤ 2560000 ∨ delayReqMean b = 2 ^ 32 - 1 → FreeToSend (.port (.hub d i)) 32 s →
    Answers (.delayReqReceive (.hub d i) b t2 t3) s fun t =>
      t.out = s.out ++ [.send (.port (.hub d i)) (s.link (.port (.hub d i))).rate (.delayResp (delayReqSeq b) t2 t3)] ∧
      t.port (.hub d i) = { s.port (.hub d i) with lastMean := delayReqMean b } ∧ OnlyPort (.hub d i) s t ∧ OnlyFields [] s t) ∧
  (∀ s p b t2 t3, s.absentEnd (.port p) = false → delayReqMean b ≠ 2 ^ 32 - 1 → 2560000 < delayReqMean b → s.portState p = 4 ∨ s.portState p = 5 →
    Answers (.delayReqReceive p b t2 t3) s fun t => t.portState p = 9 ∧ t.fgetN .PRT_CHG_ERROR p.code = 1) ∧
  (∀ s d up b t1 t2 t3 t4, (t2 : Int) = delayRespT2 b → (t3 : Int) = delayRespT3 b → delayRespSeq b = (s.delay d up).reqSeq →
    (s.delay d up).reqT1 = some t1 → t4 - t1 ≤ 10240000 → 0 ≤ ((t4 - t1) - (t3 - t2)) / 2 →
    (∀ m, (s.delay d up).mean = some m → (((t4 - t1) - (t3 - t2)) / 2 - m).natAbs ≤ 1280) →
    Answers (.delayRespReceive d up b t4) s fun t =>
      t.delay d up = { s.delay d up with mean := some (((t4 - t1) - (t3 - t2)) / 2), rejects := [], reqT1 := none } ∧ OnlyDev d s t) ∧
  (∀ s d up b t1 t2 t3 t4 m x, (t2 : Int) = delayRespT2 b → (t3 : Int) = delayRespT3 b → delayRespSeq b = (s.delay d up).reqSeq →
    (s.delay d up).reqT1 = some t1 → x = ((t4 - t1) - (t3 - t2)) / 2 → (s.delay d up).mean = some m → 1280 < (x - m).natAbs →
    (s.delay d up).rejects.length < 2 → Answers (.delayRespReceive d up b t4) s fun t =>
      t.delay d up = { s.delay d up with rejects := x :: (s.delay d up).rejects, reqT1 := none } ∧ OnlyDev d s t) ∧
  (∀ s d up b t1 t2 t3 t4 x y z, (t2 : Int) = delayRespT2 b → (t3 : Int) = delayRespT3 b → delayRespSeq b = (s.delay d up).reqSeq →
    (s.delay d up).reqT1 = some t1 → t4 - t1 ≤ 10240000 → x = ((t4 - t1) - (t3 - t2)) / 2 → 0 ≤ x → (s.delay d up).rejects = [y, z] →
    (x - y).natAbs ≤ 1280 → (x - z).natAbs ≤ 1280 → (y - z).natAbs ≤ 1280 → Answers (.delayRespReceive d up b t4) s fun t =>
      t.delay d up = { s.delay d up with mean := some x, rejects := [], reqT1 := none } ∧ OnlyDev d s t) ∧
  (∀ s d up b t1 t4, delayRespSeq b = (s.delay d up).reqSeq → (s.delay d up).reqT1 = some t1 → 10240000 < t4 - t1 →
    Answers (.delayRespReceive d up b t4) s fun t =>
      (t.delay d up).mean = (s.delay d up).mean ∧ (t.delay d up).reqT1 = none ∧ OnlyDev d s t) ∧
  (∀ s d up t1, (s.delay d up).reqT1 = some t1 → Answers (.delayReqAbandon d up) s fun t =>
    t.delay d up = { s.delay d up with reqT1 := none, reqAgain := true } ∧ OnlyDev d s t) ∧
  (∀ s d, 16 ≤ (s.dev d).frameMiss → Answers (.syncLost d) s fun t => t.dev d = { s.dev d with synced := false } ∧ OnlyDev d s t)

/-- Receivers gain sync at Rate 1 on three IDLE sets in a row and lose it on four invalid code groups in 16 (R72), and so codeword lock at Rate 5 on
four good codewords and on bad sync headers or codewords (R75); an end that loses it treats its link as down, but for a port in RATE_SWITCH, whose
lock is judged by RATE_LOCK and RATE_LOCK_TIMEOUT. A valid CAPS at a root port in training is recorded and shown, and with SEEN it brings the link up;
CAPS is repeated while the peer's with SEEN has not come, and a LINKCTL command while it has no answer (R93, R94); one that would not end 100 ns
before the tick waits (R90). A receiver in step with the sender's running disparity reads from the code groups of any bytes those bytes (R71), and one
in step with its scrambler the blocks that were sent (R75). Completion is stated for syncGain, codewordLock, syncLoss, codewordLockLoss, capsReceive,
capsRepeat, linkctlCmdRepeat. -/
def Obligations.LinksGainLockAndComeUp : Prop :=
  (∀ s l g rd, (s.link l).rate = 0 → s.absentEnd l = false → syncGained g = some rd → Answers (.syncGain l g) s fun t =>
    t.link l = { s.link l with sync := true, rxRd := rd, rx := [] } ∧ OnlyLink l s t) ∧
  (∀ s l b h, (s.link l).rate ≠ 0 → s.absentEnd l = false → lockGained b = some h → Answers (.codewordLock l b) s fun t =>
    t.link l = { s.link l with cwLock := true, rxHist := h, rx := [] } ∧ OnlyLink l s t) ∧
  (∀ s p g t, (s.link (.port p)).rate = 0 → (s.link (.port p)).sync = true → syncMissed (s.link (.port p)).rxRd g = true →
    Answers (.syncLoss (.port p) g t) s fun t' =>
      (t'.link (.port p)).sync = false ∧ (s.portState p ≠ 8 → (t'.link (.port p)).up = false) ∧
      ((s.link (.port p)).ticket = false → OnlyLink (.port p) s t')) ∧
  (∀ s d up g t, (s.link (.dev d up)).rate = 0 → (s.link (.dev d up)).sync = true → syncMissed (s.link (.dev d up)).rxRd g = true →
    Answers (.syncLoss (.dev d up) g t) s fun t' =>
    (t'.link (.dev d up)).sync = false ∧ (t'.link (.dev d up)).up = false ∧ (t'.delay d up).mean = none ∧ OnlyLink (.dev d up) s t' ∧
      OnlyDev d s t') ∧
  (∀ s p b t, (s.link (.port p)).rate ≠ 0 → (s.link (.port p)).cwLock = true → lockMissed (s.link (.port p)).rxHist b = true →
    Answers (.codewordLockLoss (.port p) b t) s fun t' =>
      (t'.link (.port p)).cwLock = false ∧ (s.portState p ≠ 8 → (t'.link (.port p)).up = false) ∧
      ((s.link (.port p)).ticket = false → OnlyLink (.port p) s t')) ∧
  (∀ s d up b t, (s.link (.dev d up)).rate ≠ 0 → (s.link (.dev d up)).cwLock = true → lockMissed (s.link (.dev d up)).rxHist b = true →
    Answers (.codewordLockLoss (.dev d up) b t) s fun t' =>
    (t'.link (.dev d up)).cwLock = false ∧ (t'.link (.dev d up)).up = false ∧ (t'.delay d up).mean = none ∧ OnlyLink (.dev d up) s t' ∧
      OnlyDev d s t') ∧
  (∀ s n seq arg t t1 tTx, (s.link (.port (.root n))).rxOk = true → s.portState (.root n) = 2 → capsOk arg = true →
    Answers (.capsReceive (.port (.root n)) seq arg t t1 tTx) s fun t' =>
    (t'.link (.port (.root n))).peerCaps = some arg ∧ t'.fgetN .PRT_STS_PEER_RATE5 n = nfield arg 0 0 ∧
    t'.fgetN .PRT_STS_PEER_HUB n = nfield arg 1 1 ∧ t'.fgetN .PRT_STS_PEER_DUAL_UP n = nfield arg 2 2 ∧
    t'.fgetN .PRT_STS_PEER_RWAKE n = nfield arg 3 3 ∧ t'.portState (.root n) = 2 ∧
    (nfield arg 31 31 = 1 → (t'.link (.port (.root n))).up = true)) ∧
  (∀ s p t, s.portState p = 2 → (s.link (.port p)).seenRecv = false → FreeToSend (.port p) 16 (s.at_ t) →
    Answers (.capsRepeat (.port p) t) s fun t' =>
    t'.out = s.out ++ [.send (.port p) (s.link (.port p)).rate (linkctl 3 (s.link (.port p)).rxSeq
      (bit (s.link (.port p)).peerCaps.isSome * 2 ^ 31 + bit (s.link (.port p)).fresh * 2 ^ 30 + s.capsOf (.port p)) 0)]) ∧
  (∀ s l t c, (s.link l).waiting = [c] → c.typ ≠ 9 → Tbl.find (s.link l).echoRecv c.typ = none → FreeToSend l 16 (s.at_ t) →
    Answers (.linkctlCmdRepeat l t) s fun t' =>
      t'.out = s.out ++ [.send l (s.link l).rate (linkctl c.typ 0 0 0)] ∧ t'.link l = s.link l ∧ OnlyLink l s t') ∧
  (∀ s l t c, (s.link l).waiting = [c] → c.typ ≠ 9 → Tbl.find (s.link l).echoRecv c.typ = none → (s.at_ t).tickHold l 16 0 = true →
    Answers (.linkctlCmdRepeat l t) s fun t' =>
      t'.out = s.out ∧ t'.link l = { s.link l with held := (s.link l).held ++ [⟨0, linkctl c.typ 0 0 0, 0, 0⟩] } ∧ OnlyLink l s t') ∧
  (∀ rd (b : List Byte), groupSyms rd (lineGroups rd (b.map RxSym.data)) = (b.map RxSym.data,
    (lineGroups rd (b.map RxSym.data)).foldl afterGroup rd)) ∧
  (∀ h (b : List Nat), (throughScrambler (descrambleN 64) h (throughScrambler (scrambleN 64) h b).1).1 = b.map (· % 2 ^ 64))

/-- Link retry (R77, R83, R86–R88, R91, Table 3.6): of the sequenced packets that have come on a link that is up, one whose bytes check and whose LSEQ
is the expected one moves the expected LSEQ on, is acknowledged and is delivered; one whose bytes do not check (and that is not poisoned) is counted,
leaves the expected LSEQ, and a RETRY names it; one with a bad header is counted, and the hunt for the next SOP goes on, each at a root port. An ACK
that moves forward frees what it covers and zeroes the replay count; a RETRY and a timeout send the kept packets again from the LSEQ on, in order,
ahead of anything new, each FRAME with the CORRECTION of its new crossing; where the ninth replay from one LSEQ would be needed, an ENABLED port's
link counts as down. Completion is stated for packetReceive, linkctlAckReceive, linkctlRetryReceive, replayTimeout. -/
def Obligations.PacketsAreCheckedAndReplayed : Prop :=
  (∀ s u n r line begun t, u = (s.at_ t).takeLine (.port (.root n)) line → PacketCame (.port (.root n)) r u → headerOk r true = true →
    pidSeq r.pid = true → (s.link (.port (.root n))).up = true → r.errored = false →
    r.trailer = rawCrc r → r.lseq = (s.link (.port (.root n))).rxSeq → FreeToSend (.port (.root n)) 16 u →
    Answers (.packetReceive (.port (.root n)) line begun t) s fun t' =>
      (t'.link (.port (.root n))).rxSeq = (r.lseq + 1) % 4096 ∧ OnlyLink (.port (.root n)) s t' ∧
      t'.out = s.out ++ [.send (.port (.root n)) (s.link (.port (.root n))).rate (linkctl 1 r.lseq 0 0), .deliver (.port (.root n)) r.pkt]) ∧
  (∀ s u n r line begun t, u = (s.at_ t).takeLine (.port (.root n)) line → PacketCame (.port (.root n)) r u → headerOk r true = true →
    pidSeq r.pid = true → (s.link (.port (.root n))).up = true → (r.errored = true ∨ (r.trailer ≠ rawCrc r ∧ r.trailer ≠ ~~~rawCrc r)) →
    (s.link (.port (.root n))).retryVal = none → FreeToSend (.port (.root n)) 16 u →
    Answers (.packetReceive (.port (.root n)) line begun t) s fun t' =>
      (t'.link (.port (.root n))).rxSeq = (s.link (.port (.root n))).rxSeq ∧ OnlyLink (.port (.root n)) s t' ∧
      t'.out = s.out ++ [.send (.port (.root n)) (s.link (.port (.root n))).rate (linkctl 2 (s.link (.port (.root n))).rxSeq 0 0)] ∧
      t'.fgetN .PRT_LERR_CRC_ERR n = satAdd 65535 (s.fgetN .PRT_LERR_CRC_ERR n) 1) ∧
  (∀ s u n line begun t, u = (s.at_ t).takeLine (.port (.root n)) line → HeaderCame (.port (.root n)) u →
    headOk (u.front (.port (.root n))) true = false →
    Answers (.packetReceive (.port (.root n)) line begun t) s fun t' =>
    t'.link (.port (.root n)) = { u.link (.port (.root n)) with
      rx := huntSop (u.link (.port (.root n))).rate ((u.link (.port (.root n))).rx.drop 18) } ∧ OnlyLink (.port (.root n)) s t' ∧
    t'.out = s.out ∧ t'.devs = s.devs ∧
    t'.fgetN .PRT_LERR_HDR_ERR n = satAdd 65535 (s.fgetN .PRT_LERR_HDR_ERR n) 1) ∧
  (∀ s l seq, (s.link l).up = true → (Kept.after seq (s.link l).replay).length < (s.link l).replay.length →
    Answers (.linkctlAckReceive l seq) s fun t =>
      Kept.after seq (s.link l).replay <+: (t.link l).replay ∧ (t.link l).replayCnt = 0 ∧ OnlyLink l s t) ∧
  (∀ s l seq t tTx, (s.link l).up = true → s.replaysOut l seq = false → Kept.from seq (s.link l).replay ≠ [] → s.txForced l = false →
    s.absentEnd l = false →
    (s.at_ t).tickHold l (keptSpan (Kept.from seq (s.link l).replay)) 0 = false →
    Answers (.linkctlRetryReceive l seq t tTx) s fun t' =>
      s.out ++ s.outs l tTx 0 (Kept.from seq (s.link l).replay) <+: t'.out ∧ (t'.link l).replayFrom = seq ∧
      (t'.link l).replayCnt = (if (s.link l).replayFrom = seq ∧ 0 < (s.link l).replayCnt then (s.link l).replayCnt + 1 else 1) ∧
      OnlyLink l s t') ∧
  (∀ s l t tTx k rest, (s.link l).up = true → (s.link l).replay = k :: rest → s.replaysOut l k.lseq = false → s.txForced l = false →
    s.absentEnd l = false →
    (s.at_ t).tickHold l (keptSpan (s.link l).replay) 0 = false →
    Answers (.replayTimeout (some l) t tTx) s fun t' =>
      s.out ++ s.outs l tTx 0 (s.link l).replay <+: t'.out ∧ (t'.link l).replayFrom = k.lseq ∧ OnlyLink l s t') ∧
  (∀ s p seq t tTx, (s.link (.port p)).up = true → s.replaysOut (.port p) seq = true → s.portState p = 4 →
    Answers (.linkctlRetryReceive (.port p) seq t tTx) s fun t' =>
      (t'.portState p = 5 ∨ t'.portState p = 9) ∧ (t'.link (.port p)).up = false ∧ t'.fgetN .PRT_CHG_RETRAIN p.code = 1) ∧
  (∀ s p t tTx k rest, (s.link (.port p)).up = true → (s.link (.port p)).replay = k :: rest → s.replaysOut (.port p) k.lseq = true →
    s.portState p = 4 →
    Answers (.replayTimeout (some (.port p)) t tTx) s fun t' =>
      (t'.portState p = 5 ∨ t'.portState p = 9) ∧ (t'.link (.port p)).up = false ∧ t'.fgetN .PRT_CHG_RETRAIN p.code = 1)

/-- Rate changes (R93, R99, R108, Table 3.13): RATE_REQ is answered with its ARG and FRAME_NO, RATE_ACK of the pending change is recorded, RATE_REQ is
repeated until then, but not in the guard band before the switch frame; with lock the port is ENABLED with RATE_CHG at the rate to which its end has
moved, and without it the port retrains at the old rate, or is in ERROR, with RATE_REFUSED, and a device's end goes back to the other rate. Completion
is stated for rateReqReceive, rateAckReceive, rateReqRepeat, rateLock, rateLockTimeout. -/
def Obligations.RateChangesRunToTheirEnd : Prop :=
  (∀ s d up arg frameNo, FreeToSend (.dev d up) 16 s → Answers (.rateReqReceive d up arg frameNo) s fun t =>
    t.out = s.out ++ [.send (.dev d up) (s.link (.dev d up)).rate (linkctl 5 0 arg frameNo)] ∧
    (t.link (.dev d up)).ratePend = some (nfield arg 0 0, frameNo, nfield arg 1 1 == 1) ∧ OnlyLink (.dev d up) s t) ∧
  (∀ s p c arg, (s.port p).rateChg = some c → c.reqSent = true → nfield arg 0 0 = c.target → nfield arg 1 1 = 0 →
    Answers (.rateAckReceive p arg c.sFrame) s fun t => t.port p = { s.port p with rateChg := some { c with acked := true } } ∧ OnlyPort p s t ∧
      t.links = s.links) ∧
  (∀ s p c arg, (s.port p).rateNow = some c → c.reqSent = true → c.acked = false → nfield arg 0 0 = c.target → nfield arg 1 1 = 1 →
    Answers (.rateAckReceive p arg c.sFrame) s fun t => t.port p = { s.port p with rateNow := some { c with acked := true } } ∧ OnlyPort p s t ∧
      t.link (.port p) = (s.link (.port p)).toRate c.target ∧ OnlyLink (.port p) s t) ∧
  (∀ s p c, (s.port p).rateChg = some c → (s.port p).rateNow = none → c.reqSent = true → c.acked = false → s.inGuard (.port p) = false →
    FreeToSend (.port p) 16 s → Answers (.rateReqRepeat p) s fun t =>
      t.out = s.out ++ [.send (.port p) (s.link (.port p)).rate (linkctl 4 0 (c.target + 2 * bit c.now) c.sFrame)] ∧ t.port p = s.port p ∧
        OnlyPort p s t) ∧
  (∀ s p, (s.port p).rateNow = none → s.inGuard (.port p) = true → exec (.rateReqRepeat p) s = .next s) ∧
  (∀ s p t tTx c, (s.port p).rateChg = some c → s.portState p = 8 → (s.link (.port p)).rxOk = true → Answers (.rateLock (.port p) t tTx) s fun t' =>
    t'.portState p = 4 ∧ t'.fgetN .PRT_CHG_RATE_CHG p.code = 1 ∧ (t'.port p).rateChg = none ∧ (t'.link (.port p)).up = true ∧
    (t'.link (.port p)).rate = (s.link (.port p)).rate) ∧
  (∀ s p t c, (s.port p).rateChg = some c → s.portState p = 8 → Answers (.rateLockTimeout (.port p) t) s fun t' =>
    (t'.portState p = 5 ∨ t'.portState p = 9) ∧ t'.fgetN .PRT_CHG_RATE_REFUSED p.code = 1 ∧ t'.fgetN .PRT_STS_REFUSE_WHY p.code = 3 ∧
    (t'.port p).rateChg = none ∧ (t'.link (.port p)).up = false ∧ (t'.portState p = 5 → (t'.link (.port p)).rate = (s.port p).oldRate)) ∧
  (∀ s d up t r f b, (s.link (.dev d up)).ratePend = some (r, f, b) → Answers (.rateLockTimeout (.dev d up) t) s fun t' =>
    (t'.link (.dev d up)).rate = 1 - r ∧ (t'.link (.dev d up)).ratePend = none ∧ OnlyLink (.dev d up) s t')

/-- Connects, disconnects and losses of a port (Tables 3.10 and 3.11; R99, R101, R107): signal starts training, the debounce ends in RESETTING, and
the timeouts and the loss of the link go where the table says; a cage port with LOS sees no signal (R114). Completion is stated for signalDetect,
connectDebounceDone, trainingTimeout, retrainTimeout, resumeTimeout, resetEchoTimeout, linkLost. -/
def Obligations.PortsConnectAndFall : Prop :=
  (∀ s p t, s.portState p = 1 → field (s.port p).cfg 4 4 = 0 → Answers (.signalDetect p t) s fun t' =>
    t'.portState p = 2 ∧ (t'.link (.port p)).up = false ∧ (t'.link (.port p)).rate = 0 ∧ OnlyFields [.PRT_STS_STATE] s t') ∧
  (∀ s p t, field (s.port p).cfg 4 4 = 1 → s.flagN .PRT_STS_LOS p.code = true → exec (.signalDetect p t) s = .next (s.at_ t)) ∧
  (∀ s p t, s.portState p = 2 → (s.link (.port p)).up = true → (s.port p).rateNow = none → Answers (.connectDebounceDone p t) s fun t' =>
    t'.portState p = 3 ∧ (t'.port p).connecting = true ∧ t'.awaits (.port p) 6 = true) ∧
  (∀ s p, s.portState p = 2 → (s.link (.port p)).up = false → Answers (.trainingTimeout p) s fun t => t.portState p = 1) ∧
  (∀ s p, s.portState p = 5 → (s.link (.port p)).up = false → Answers (.retrainTimeout p) s fun t =>
    t.portState p = 1 ∧ t.fgetN .PRT_CHG_DISCONNECT p.code = 1) ∧
  (∀ s p, s.portState p = 7 → (s.link (.port p)).up = false → Answers (.resumeTimeout p) s fun t =>
    t.portState p = 1 ∧ t.fgetN .PRT_CHG_DISCONNECT p.code = 1) ∧
  (∀ s p t, s.portState p = 3 → (s.port p).prop = false → Answers (.resetEchoTimeout p t) s fun t' =>
    t'.portState p = 1 ∧ t'.fgetN .PRT_CHG_DISCONNECT p.code = 1) ∧
  (∀ s p t, s.portState p = 4 → Answers (.linkLost p t) s fun t' =>
    t'.portState p = (if 2 ≤ ((s.port p).retrains.filter fun x => decide (t ≤ x + 1000000000)).length then 9 else 5) ∧
    t'.fgetN .PRT_CHG_RETRAIN p.code = 1 ∧ (t'.link (.port p)).up = false)

/-- The commands of PRT_CTLn at an enabled, present root port (R102, R103, R107, Tables 3.11 and 3.12): ENABLE, CLEAR_ERROR, RETRAIN, RESUME, SUSPEND
and RESET have their transition from the state in which they are valid; a RESET in DISCONNECTED, and a SUSPEND while the tree has a committed periodic
entry, is refused. Completion is stated for portEnable, portClearError, portRetrain, portResume, portSuspend, portReset. -/
def Obligations.PortCommandsAct : Prop :=
  (∀ s n rwake t, s.ready = true → n < s.nPorts → s.portState (.root n) = 0 → Answers (.portEnable n true rwake t) s fun t' =>
    t'.portState (.root n) = 1 ∧ t'.fgetN .PRT_CTL_ENABLE n = 1 ∧ t'.fgetN .PRT_CTL_RWAKE_EN n = bit rwake ∧ t'.fgetN .PRT_STS_RETRAINS n = 0) ∧
  (∀ s n rwake t, s.ready = true → n < s.nPorts → Answers (.portEnable n false rwake t) s fun t' =>
    t'.portState (.root n) = 0 ∧ t'.fgetN .PRT_CTL_ENABLE n = 0 ∧ t'.fgetN .PRT_CTL_RWAKE_EN n = bit rwake) ∧
  (∀ s n t, s.ready = true → n < s.nPorts → s.fgetN .PRT_CTL_ENABLE n = 1 → s.portState (.root n) = 9 → Answers (.portClearError n t) s fun t' =>
    t'.portState (.root n) = 1) ∧
  (∀ s n t, s.ready = true → n < s.nPorts → s.fgetN .PRT_CTL_ENABLE n = 1 → s.portState (.root n) = 4 → Answers (.portRetrain n t) s fun t' =>
    (t'.portState (.root n) = 5 ∨ t'.portState (.root n) = 9) ∧ t'.fgetN .PRT_CHG_RETRAIN n = 1) ∧
  (∀ s n t, s.ready = true → n < s.nPorts → s.fgetN .PRT_CTL_ENABLE n = 1 → s.portState (.root n) = 6 → Answers (.portResume n t) s fun t' =>
    t'.portState (.root n) = 7 ∧ (t'.port (.root n)).forWake = false) ∧
  (∀ s n t, s.ready = true → n < s.nPorts → s.fgetN .PRT_CTL_ENABLE n = 1 → s.portState (.root n) = 4 → Tbl.get [] s.sched.active n = [] →
    (s.port (.root n)).susp = .none → Answers (.portSuspend n t) s fun t' =>
      t'.portState (.root n) = 4 ∧ (t'.port (.root n)).susp = (if s.handDone n then .sent else .accepted)) ∧
  (∀ s n t, s.ready = true → n < s.nPorts → s.fgetN .PRT_CTL_ENABLE n = 1 → s.portState (.root n) = 4 → Tbl.get [] s.sched.active n ≠ [] →
    Answers (.portSuspend n t) s fun t' => t'.portState (.root n) = 4 ∧ t'.fgetN .PRT_CHG_CMD_REFUSED n = 1 ∧ t'.port (.root n) = s.port (.root n)) ∧
  (∀ s n t, s.ready = true → n < s.nPorts → s.fgetN .PRT_CTL_ENABLE n = 1 → s.portState (.root n) = 4 → Answers (.portReset n t) s fun t' =>
    t'.portState (.root n) = 3 ∧ t'.awaits (.port (.root n)) 6 = true) ∧
  (∀ s n t, s.ready = true → n < s.nPorts → s.fgetN .PRT_CTL_ENABLE n = 1 → s.portState (.root n) = 1 → Answers (.portReset n t) s fun t' =>
    t'.portState (.root n) = 1 ∧ t'.fgetN .PRT_CHG_CMD_REFUSED n = 1)

/-- RESET, SUSPEND, RESUME and WAKE on a link (R99, R102–R106): a module acts and echoes; a hub acts, passes RESET and SUSPEND on to its ENABLED ports
and owes the echo until they have answered; an echo ends what the port awaits, and a SUSPEND without one retrains the link. A WAKE at a port in
SUSPENDED whose link has trained resumes it, at a hub that is not suspended itself as at a root port. Completion is stated for linkctlResetReceive,
resetEchoReceive, linkctlSuspendReceive, suspendEchoReceive, suspendEchoTimeout, linkctlResumeReceive, resumeEchoReceive, linkctlWakeReceive. -/
def Obligations.EchoesEndResetSuspendAndResume : Prop :=
  (∀ s d up t, s.isRepeat (.dev d up) 6 t = false → s.actsFrom d up = true → (s.dev d).kind = 1 → (s.dev d).owesEcho = none →
    FreeToSend (.dev d up) 16 (s.at_ t) → Answers (.linkctlResetReceive d up t) s fun t' =>
      t'.dev d = (s.dev d).busReset ∧ t'.out = s.out ++ [.send (.dev d up) (s.link (.dev d up)).rate (linkctl 6 0 0 0)] ∧ OnlyDev d s t') ∧
  (∀ s d up t, s.isRepeat (.dev d up) 6 t = false → s.actsFrom d up = true → (s.dev d).owesEcho = none →
    Answers (.linkctlResetReceive d up t) s fun t' => (t'.dev d).addr = 0 ∧ (t'.dev d).st = 0 ∧ (t'.dev d).ctl = none ∧ OnlyDev d s t') ∧
  (∀ s p t, s.portState p = 3 → s.awaits (.port p) 6 = true → (s.port p).prop = false → Answers (.resetEchoReceive p t) s fun t' =>
    t'.portState p = 4 ∧ t'.awaits (.port p) 6 = false ∧
    t'.fgetN (if (s.port p).connecting then .PRT_CHG_CONNECT else .PRT_CHG_RESET_DONE) p.code = 1) ∧
  (∀ s d up t, s.isRepeat (.dev d up) 7 t = false → s.actsFrom d up = true → (s.dev d).kind = 1 → (s.dev d).owesEcho = none →
    FreeToSend (.dev d up) 16 (s.at_ t) → Answers (.linkctlSuspendReceive d up t) s fun t' =>
      (t'.dev d).suspended = true ∧ (t'.link (.dev d up)).up = false ∧ t'.out = s.out ++
        [.send (.dev d up) (s.link (.dev d up)).rate (linkctl 7 0 0 0)] ∧ OnlyDev d s t') ∧
  (∀ s p t, s.portState p = 4 → (s.port p).susp = .sent → s.awaits (.port p) 7 = true → (s.port p).wakeHeld = false →
    (∀ n, p = .root n → n ∉ s.pwr.suspended) → Answers (.suspendEchoReceive p t) s fun t' =>
      t'.portState p = 6 ∧ (t'.link (.port p)).up = false ∧ t'.fgetN .PRT_CHG_SUSPEND_DONE p.code = 1 ∧
      t'.fgetN .PRT_STS_COLLIDED p.code = 0 ∧ t'.fgetN .PRT_STS_WAKE_SEEN p.code = 0) ∧
  (∀ s p t, s.portState p = 4 → (s.port p).susp = .sent → Answers (.suspendEchoTimeout p t) s fun t' =>
    (t'.portState p = 5 ∨ t'.portState p = 9) ∧ t'.fgetN .PRT_CHG_RETRAIN p.code = 1) ∧
  (∀ s d up t, s.isRepeat (.dev d up) 8 t = false → s.actsFrom d up = true → FreeToSend (.dev d up) 16 (s.at_ t) →
    Answers (.linkctlResumeReceive d up t) s fun t' =>
    (t'.dev d).suspended = false ∧ s.out ++ [.send (.dev d up) (s.link (.dev d up)).rate (linkctl 8 0 0 0)] <+: t'.out) ∧
  (∀ s p t, s.portState p = 7 → s.awaits (.port p) 8 = true → Answers (.resumeEchoReceive p t) s fun t' =>
    t'.portState p = 4 ∧ t'.fgetN .PRT_CHG_RESUME_DONE p.code = 1 ∧ t'.awaits (.port p) 8 = false) ∧
  (∀ s n t, s.portState (.root n) = 6 → (s.port (.root n)).wakeTraining = true → (s.port (.root n)).resetPending = false →
    Answers (.linkctlWakeReceive (.root n) t) s fun t' =>
      t'.portState (.root n) = 7 ∧ t'.fgetN .PRT_STS_WAKE_SEEN n = 1 ∧ t'.fgetN .PRT_CHG_WAKE n = 1) ∧
  (∀ s d i up t, s.portState (.hub d i) = 6 → (s.port (.hub d i)).wakeTraining = true → (s.port (.hub d i)).resetPending = false →
    s.upOf d = some up → (s.dev d).suspended = false → Answers (.linkctlWakeReceive (.hub d i) t) s fun t' =>
      t'.portState (.hub d i) = 7 ∧ t'.fgetN .PRT_STS_WAKE_SEEN (PortId.hub d i).code = 1 ∧ t'.fgetN .PRT_CHG_WAKE (PortId.hub d i).code = 1) ∧
  (∀ s d up i t, s.isRepeat (.dev d up) 6 t = false → s.actsFrom d up = true → (s.dev d).kind ≠ 1 → (s.dev d).owesEcho = none → 1 ≤ i →
    i ≤ (s.dev d).nports → s.portState (.hub d i) = 4 → Answers (.linkctlResetReceive d up t) s fun t' =>
      t'.portState (.hub d i) = 3 ∧ t'.awaits (.port (.hub d i)) 6 = true ∧ (t'.dev d).owesEcho = some (6, up)) ∧
  (∀ s d up i t, s.isRepeat (.dev d up) 7 t = false → s.actsFrom d up = true → (s.dev d).kind ≠ 1 → (s.dev d).owesEcho = none → 1 ≤ i →
    i ≤ (s.dev d).nports → s.portState (.hub d i) = 4 → Answers (.linkctlSuspendReceive d up t) s fun t' =>
      (t'.port (.hub d i)).susp = .sent ∧ t'.awaits (.port (.hub d i)) 7 = true ∧ (t'.dev d).owesEcho = some (7, up))

/-! ### Transceivers, hubs and modules (chapters 03 and 04) -/

/-- Transceivers (R111–R114): a good scan of the sideband chain takes over every cage's inputs and shifts TX_DISABLE out, a bad one takes over none; a
change of MOD_ABS, LOS or TX_FAULT that lasted is accepted, a removal disconnects; the chain's fault shows on every port; identification selects the
port's channel of its identity bus and reads page 0xA0, and the diagnostics are kept. Completion is stated for sidebandScan, modAbsChange,
losTxFaultAccept, mscFault, xcvrIdentify, identityBusReadDone, xcvrDiagRead. -/
def Obligations.TransceiversAreFollowed : Prop :=
  (∀ s bits, (∀ c < 64, nfield bits (4 * c + 3) (4 * c + 3) = 0) → s.side.fault = false → Answers (.sidebandScan bits) s fun t =>
    t.side.chainBad = 0 ∧ t.side.txDisable = s.txDisableWord ∧ t.out = s.out ++ [.msc (mscBits s.txDisableWord)] ∧
    ∀ c < 64, t.cage c = (s.cage c).scan (nfield bits (4 * c) (4 * c) == 1) (nfield bits (4 * c + 1) (4 * c + 1) == 1)
      (nfield bits (4 * c + 2) (4 * c + 2) == 1)) ∧
  (∀ s bits c, c < 64 → nfield bits (4 * c + 3) (4 * c + 3) = 1 → Answers (.sidebandScan bits) s fun t =>
    t.side = { s.side with chainBad := min 2 (s.side.chainBad + 1), chainGood := 0 }) ∧
  (∀ s n, n < s.nPorts → 1000 ≤ (s.cage n).modAbsRun → (s.cage n).modAbs = false → s.flagN .PRT_STS_XCVR_PRESENT n = false →
    Answers (.modAbsChange n) s fun t =>
      t.flagN .PRT_STS_XCVR_PRESENT n = true ∧ t.flagN .PRT_CHG_XCVR n = true ∧ (t.port (.root n)).identDone = false ∧ OnlyPort (.root n) s t) ∧
  (∀ s n, n < s.nPorts → 1000 ≤ (s.cage n).modAbsRun → (s.cage n).modAbs = true → s.flagN .PRT_STS_XCVR_PRESENT n = true →
    s.portState (.root n) ≠ 0 → field (s.port (.root n)).cfg 4 4 = 1 → Answers (.modAbsChange n) s fun t =>
      t.flagN .PRT_STS_XCVR_PRESENT n = false ∧ t.flagN .PRT_STS_TX_FAULT n = false ∧ t.flagN .PRT_CHG_XCVR n = true ∧
      t.portState (.root n) = 1 ∧ OnlyPort (.root n) s t) ∧
  (∀ s n, n < s.nPorts → 3 ≤ (s.cage n).losRun → Answers (.losTxFaultAccept n) s fun t => t.flagN .PRT_STS_LOS n = (s.cage n).los) ∧
  (∀ s n, n < s.nPorts → 3 ≤ (s.cage n).txFaultRun → (s.cage n).txFault = true → s.flagN .PRT_STS_TX_FAULT n = false →
    Answers (.losTxFaultAccept n) s fun t => t.flagN .PRT_STS_TX_FAULT n = true ∧ t.flagN .PRT_CHG_XCVR n = true) ∧
  (∀ s, 2 ≤ s.side.chainBad → s.side.fault = false → Answers .mscFault s fun t =>
    t.side = { s.side with fault := true } ∧ ∀ n < s.nPorts, t.flagN .PRT_STS_MSC_FAULT n = true ∧ t.flagN .PRT_CHG_XCVR n = true) ∧
  (∀ s, s.side.chainBad < 2 → 16 ≤ s.side.chainGood → s.side.fault = true → Answers .mscFault s fun t =>
    t.side = { s.side with fault := false } ∧ ∀ n < s.nPorts, t.flagN .PRT_STS_MSC_FAULT n = false) ∧
  (∀ s n, n < s.nPorts → s.flagN .PRT_STS_XCVR_PRESENT n = true → field (s.port (.root n)).cfg 4 4 = 1 → (s.port (.root n)).identDone = false →
    Answers (.xcvrIdentify n) s fun t => t.port (.root n) = { s.port (.root n) with reading := true } ∧ OnlyPort (.root n) s t ∧
      (s.idbReleased (n / 16) = false → t.out = s.out ++ [.idbWrite (n / 16) 0x70 [BitVec.ofNat 8 (16 + n % 16)], .idbRead (n / 16) 0x50 0 128])) ∧
  (∀ s n b, (s.port (.root n)).reading = true → (s.port (.root n)).xcvrRead = none → identOk b = true → nfield (leNat (slice 92 1 b)) 6 6 = 0 →
    Answers (.identityBusReadDone n 0 (.ok b)) s fun t =>
      t.fgetN .PRT_STS_XCVR_RATED n = bit (decide (55 ≤ leNat (slice 12 1 b))) ∧ t.fgetN .PRT_STS_CAL_OK n = bit (calOk (slice 96 16 b)) ∧
      t.flagN .PRT_CHG_XCVR n = true ∧ (t.port (.root n)).identDone = true ∧ (t.port (.root n)).reading = false ∧ OnlyPort (.root n) s t) ∧
  (∀ s n page, (s.port (.root n)).reading = false → (s.port (.root n)).xcvrRead = some page →
    Answers (.identityBusReadDone n page .failed) s fun t =>
      (t.port (.root n)).xcvrRead = none ∧ t.cmds = s.cmds.map fun c =>
        if c.op = 0x21 ∧ c.arg = n ∧ c.status = none then { c with status := some stNoResponse, result := 0 } else c) ∧
  (∀ s n data, n < s.nPorts → field (s.port (.root n)).cfg 4 4 = 1 → s.flagN .PRT_STS_XCVR_PRESENT n = true →
    Answers (.xcvrDiagRead n data) s fun t =>
    t.hlt = { s.hlt with diags := Tbl.put s.hlt.diags n (data.take 10) } ∧ t.ports = s.ports ∧
    t.out = s.out ++ (if s.idbReleased (n / 16) then [] else
      [.idbWrite (n / 16) 0x70 [BitVec.ofNat 8 (0x10 + n % 16)], .idbRead (n / 16) 0x51 96 10, .idbWrite (n / 16) 0x70 [0]]))

/-- CALL_IN at a device that may serve it (Table 4.4, R126, R132, R262): BULK data held is sent with the endpoint's toggle, and NAK where there is
none; a module's EVENT endpoint sends its oldest event with MORE where others wait; a CYCLIC one its oldest block, in a frame's first call, and in a
repeated one the block that was not acknowledged; a halted endpoint answers STALL. Completion is stated for callInReceive. -/
def Obligations.CallInsAreAnswered : Prop :=
  (∀ s d up p e b rest, Serves d p e s → ClearUp d up s → e.cls = 4 → e.dataIn = b :: rest → b.length ≤ 4096 → Answers (.callInReceive d p) s fun t =>
    SentUp d up [] (s.answerPkt d p (6 + e.toggle % 2) 0 b) s t ∧ t.devs = s.devs) ∧
  (∀ s d up p e, Serves d p e s → ClearUp d up s → e.cls = 4 → e.dataIn = [] → Answers (.callInReceive d p) s fun t =>
    SentUp d up [] (s.answerPkt d p 9 0 []) s t ∧ t.devs = s.devs) ∧
  (∀ s d up p e x rest, Serves d p e s → ClearUp d up s → e.cls = 3 → (s.dev d).kind = 1 → (s.dev d).synced = true → e.events = x :: rest →
    x.bytes.length ≤ 4088 → Answers (.callInReceive d p) s fun t =>
      SentUp d up [] (s.answerPkt d p (6 + e.toggle % 2) (if rest = [] then 1 else 9) (leBytes 8 x.stamp ++ x.bytes)) s t ∧ t.devs = s.devs) ∧
  (∀ s d up p e x rest f, Serves d p e s → ClearUp d up s → e.cls = 2 → (s.dev d).synced = true → (s.dev d).lastFrame = some f →
    e.sentFrame ≠ some f → e.blocks = x :: rest → x.bytes.length ≤ 4086 → Answers (.callInReceive d p) s fun t =>
      SentUp d up [] (s.answerPkt d p 6 1 (leBytes 8 x.stamp ++ leBytes 2 x.bseq ++ x.bytes)) s t ∧ OnlyDev d s t ∧
      (t.dev d).ep? p.epnum p.dir = some { e with sentFrame := some f, calls := 1, sent := [(p.tag, x)], blocks := rest }) ∧
  (∀ s d up p e x g rest f, Serves d p e s → ClearUp d up s → e.cls = 2 → (s.dev d).synced = true → (s.dev d).lastFrame = some f →
    e.sentFrame = some f → e.burst + 1 ≤ e.calls → e.sent = (g, x) :: rest → x.bytes.length ≤ 4086 → Answers (.callInReceive d p) s fun t =>
      SentUp d up [] (s.answerPkt d p 6 1 (leBytes 8 x.stamp ++ leBytes 2 x.bseq ++ x.bytes)) s t ∧ OnlyDev d s t ∧
      (t.dev d).ep? p.epnum p.dir = some { e with calls := e.calls + 1, sent := rest ++ [(p.tag, x)] }) ∧
  (∀ s d up p e, p.devaddr = (s.dev d).addr → p.epnum ≠ 0 → (s.dev d).st = 2 → (s.dev d).ep? p.epnum p.dir = some e → e.cls = p.pflags % 8 →
    e.halted = true → ClearUp d up s → Answers (.callInReceive d p) s fun t =>
      SentUp d up [] (s.answerPkt d p 11 0 []) s t ∧ t.devs = s.devs)

/-- CALL_OUT, COMMAND and PING at a device that may serve them (R131, R132, R134): OUT data of the expected toggle is stored and acknowledged, NOTYET
where no more fits after it, and NAK where it does not fit itself; a repeated one is only acknowledged; a packet to another address does nothing; a
COMMAND is executed at once or armed for its EXEC_AT and echoed, a repeated one only echoed; of the armed ones the first due executes at its time;
PING says whether there is room. Completion is stated for callOutReceive, commandReceive, execAtExecute, pingReceive, callInReceive, setupReceive. -/
def Obligations.CallOutsAndCommandsAct : Prop :=
  (∀ s d up p data e after, Serves d p e s → ClearUp d up s → e.cls = 4 → data.pid = 6 + e.toggle % 2 →
    Answers (.callOutReceive d p data true after) s fun t =>
      SentUp d up [] (s.answerPkt d p (if after then 8 else 10) 0 []) s t ∧ OnlyDev d s t ∧
      (t.dev d).ep? p.epnum p.dir =
        some { e with toggle := 1 - e.toggle, dataOut := e.dataOut ++ [data.payload], ready := after, notyet := !after }) ∧
  (∀ s d up p data e room after, Serves d p e s → ClearUp d up s → e.cls = 4 → data.pid ≠ 6 + e.toggle % 2 →
    Answers (.callOutReceive d p data room after) s fun t => SentUp d up [] (s.answerPkt d p 8 0 []) s t ∧ t.devs = s.devs) ∧
  (∀ s d up p data e after, Serves d p e s → ClearUp d up s → e.cls = 4 → data.pid = 6 + e.toggle % 2 →
    Answers (.callOutReceive d p data false after) s fun t =>
      SentUp d up [] (s.answerPkt d p 9 0 []) s t ∧ OnlyDev d s t ∧ (t.dev d).ep? p.epnum p.dir = some { e with ready := false }) ∧
  (∀ s d up p data e tHold tExec, Serves d p e s → ClearUp d up s → e.cls = 1 → complPair (data.payload.drop 8) = true →
    data.payload.length ≤ 4096 → e.lastToggle ≠ some (data.pid % 2) → (s.dev d).synced = true → leNat (data.payload.take 8) = 0 →
    Answers (.commandReceive d p data tHold tExec) s fun t =>
      (let x := leBytes 8 (roundNs tExec) ++ data.payload.drop 8
       SentUp d up [.executed d p.epnum (roundNs tExec) ((data.payload.drop 8).take ((data.payload.drop 8).length / 2))]
         (s.answerPkt d p data.pid 3 x) s t ∧ OnlyDev d s t ∧
       (t.dev d).ep? p.epnum p.dir = some { e with lastToggle := some (data.pid % 2), echo := some x, echoLate := false })) ∧
  (∀ s d up p data e tHold tExec, Serves d p e s → ClearUp d up s → e.cls = 1 → complPair (data.payload.drop 8) = true →
    data.payload.length ≤ 4096 → e.lastToggle ≠ some (data.pid % 2) → (s.dev d).synced = true → leNat (data.payload.take 8) ≠ 0 →
    tHold ≤ leNat (data.payload.take 8) → leNat (data.payload.take 8) ≤ tHold + s.execHorizon d →
    Answers (.commandReceive d p data tHold tExec) s fun t =>
      t.out = s.out ++ [.send (.dev d up) (s.link (.dev d up)).rate (.txn (s.link (.dev d up)).txSeq
        (s.answerPkt d p data.pid 3 (leBytes 8 (leNat (data.payload.take 8)) ++ data.payload.drop 8)))] ∧
      (((t.dev d).ep? p.epnum p.dir).map DevEp.armed) =
        some (e.armed ++ [⟨leNat (data.payload.take 8), (data.payload.drop 8).take ((data.payload.drop 8).length / 2)⟩])) ∧
  (∀ s d up p data e x tHold tExec, Serves d p e s → ClearUp d up s → e.cls = 1 → complPair (data.payload.drop 8) = true →
    e.lastToggle = some (data.pid % 2) → e.echo = some x → e.echoLate = false → x.length ≤ 4096 →
    Answers (.commandReceive d p data tHold tExec) s fun t => SentUp d up [] (s.answerPkt d p data.pid 3 x) s t ∧ t.devs = s.devs) ∧
  (∀ s d ep e c rest, (s.dev d).ep? ep 0 = some e → firstArmed e.armed = some (c, rest) → Answers (.execAtExecute d ep) s fun t =>
    t.out = s.out ++ [.executed d ep c.execAt c.payload] ∧ (t.dev d).ep? ep 0 = some { e with armed := rest } ∧ OnlyDev d s t) ∧
  (∀ s d up p e room, Serves d p e s → ClearUp d up s → Answers (.pingReceive d p room) s fun t =>
    SentUp d up [] (s.answerPkt d p (if room then 8 else 9) 0 []) s t ∧ OnlyDev d s t ∧
    (t.dev d).ep? p.epnum p.dir = some { e with ready := room, notyet := e.notyet && !room }) ∧
  (∀ s d p data room after tHold tExec, p.devaddr ≠ (s.dev d).addr →
    exec (.callInReceive d p) s = .next s ∧ exec (.callOutReceive d p data room after) s = .next s ∧
    exec (.commandReceive d p data tHold tExec) s = .next s ∧ exec (.pingReceive d p room) s = .next s ∧ exec (.setupReceive d p) s = .next s)

/-- SETUP and the standard requests (Table 4.8, Table 4.9, R137–R139): a supported SETUP starts a control transfer and is acknowledged, another is
answered STALL; each request, once its OUT data is there, is carried out with the data of its IN stage. Completion is stated for setupReceive,
getStatus, clearHalt, resetEndpoint, setAddress, getRecord, getConfiguration, setConfiguration, setRemoteWake, setLinkAsym. -/
def Obligations.StandardRequestsAreCarriedOut : Prop :=
  (∀ s d up p, p.devaddr = (s.dev d).addr → p.epnum = 0 → p.pflags % 8 = 0 → (s.dev d).supports p.payload = true → ClearUp d up s →
    Answers (.setupReceive d p) s fun t =>
      SentUp d up [] (s.answerPkt d p 8 0 []) s t ∧ OnlyDev d s t ∧ (t.dev d).pendingAddr = none ∧
      (t.dev d).ctl = some ⟨p.payload, if setupLen p.payload = 0 then 1 else 0, 0, 0, [], false, none⟩ ∧
        (Tbl.get DevEp.init (t.dev d).eps 0).toggle = 1) ∧
  (∀ s d up p, p.devaddr = (s.dev d).addr → p.epnum = 0 → p.pflags % 8 = 0 → (s.dev d).supports p.payload = false → ClearUp d up s →
    Answers (.setupReceive d p) s fun t =>
      SentUp d up [] (s.answerPkt d p 11 2 []) s t ∧ t.dev d = { s.dev d with ctl := none } ∧ OnlyDev d s t) ∧
  (∀ s d c, s.request d 0x00 = some c → Answers (.getStatus d) s fun t =>
    (t.dev d).ctl = some { c with ready := true, data := c.data ++ leBytes 4 (if setupIndex c.setup = 0 then (s.dev d).st
      else bit (((s.dev d).ep? (setupIndex c.setup % 64) (setupIndex c.setup / 128 % 2)).any DevEp.halted)) } ∧ OnlyDev d s t) ∧
  (∀ s d c e, s.request d 0x01 = some c → setupIndex c.setup % 64 ≠ 0 →
    (s.dev d).ep? (setupIndex c.setup % 64) (setupIndex c.setup / 128 % 2) = some e → Answers (.clearHalt d) s fun t =>
      (t.dev d).ep? (setupIndex c.setup % 64) (setupIndex c.setup / 128 % 2) = some { e.resync with halted := false } ∧
      (t.dev d).ctl = some { c with ready := true } ∧ OnlyDev d s t) ∧
  (∀ s d c e, s.request d 0x02 = some c → setupIndex c.setup % 64 ≠ 0 →
    (s.dev d).ep? (setupIndex c.setup % 64) (setupIndex c.setup / 128 % 2) = some e → Answers (.resetEndpoint d) s fun t =>
      (t.dev d).ep? (setupIndex c.setup % 64) (setupIndex c.setup / 128 % 2) = some { e.resync with
        halted := false, dataIn := [], dataOut := [], events := [], blocks := [], sent := [] } ∧
      (t.dev d).ctl = some { c with ready := true } ∧ OnlyDev d s t) ∧
  (∀ s d c, s.request d 0x05 = some c → Answers (.setAddress d) s fun t =>
    t.dev d = { s.dev d with pendingAddr := some (setupValue c.setup), ctl := some { c with ready := true } } ∧ OnlyDev d s t) ∧
  (∀ s d c, s.request d 0x06 = some c → Answers (.getRecord d) s fun t =>
    t.dev d = { s.dev d with ctl := some { c with ready := true, data := c.data ++ (s.dev d).record (setupValue c.setup) } } ∧
    OnlyDev d s t) ∧
  (∀ s d c, s.request d 0x08 = some c → Answers (.getConfiguration d) s fun t =>
    t.dev d = { s.dev d with ctl := some { c with ready := true, data := c.data ++ leBytes 4 (bit ((s.dev d).st == 2)) } } ∧ OnlyDev d s t) ∧
  (∀ s d c, s.request d 0x09 = some c → Answers (.setConfiguration d) s fun t =>
    (t.dev d).st = (if setupValue c.setup = 1 then 2 else if (s.dev d).addr = 0 then 0 else 1) ∧
    (∀ k e, k ≠ 0 → Tbl.find (s.dev d).eps k = some e → Tbl.find (t.dev d).eps k = some e.resync) ∧
    Tbl.find (t.dev d).eps 0 = Tbl.find (s.dev d).eps 0 ∧ (t.dev d).ctl = some { c with ready := true } ∧ OnlyDev d s t) ∧
  (∀ s d c, s.request d 0x0A = some c → Answers (.setRemoteWake d) s fun t =>
    t.dev d = { s.dev d with remoteWake := setupValue c.setup == 1, ctl := some { c with ready := true } } ∧ OnlyDev d s t) ∧
  (∀ s d c up, s.request d 0x0B = some c → s.upOf d = some up → Answers (.setLinkAsym d) s fun t =>
    t.delay d up = { s.delay d up with asym := signedOf 32 (leNat (c.data.take 4)) } ∧ (t.dev d).ctl = some { c with ready := true } ∧ OnlyDev d s t)

/-- The requests to a hub (Table 3.15, R110, R116, R117): GET_PORT_STATUS gives the words of Table 3.16 and clears the change word; the features act
on the port that the request names: POWER, RESET, SUSPEND, RATE5, REMOTE_WAKE, RETRAIN and CLEAR_ERROR set, and POWER, SUSPEND, RATE5 and REMOTE_WAKE
cleared; RATE5 set at a port that has a link and is not ENABLED is refused. Completion is stated for getPortStatus, setPortFeature, clearPortFeature.
-/
def Obligations.HubRequestsAreCarriedOut : Prop :=
  (∀ s d c, s.request d 0x40 = some c → Answers (.getPortStatus d) s fun t =>
    (let p := PortId.hub d (setupIndex c.setup)
     (t.dev d).ctl = some { c with ready := true, data := c.data ++ (leBytes 4 (s.rd .PRT_STS p.code).toNat ++ leBytes 4 (s.rd .PRT_CHG p.code).toNat ++
       leBytes 4 (s.port p).lastMean ++ leBytes 4 0) } ∧ t.rd .PRT_CHG p.code = 0 ∧ (∀ i, i ≠ p.code → t.rd .PRT_CHG i = s.rd .PRT_CHG i) ∧
     OnlyDev d s t)) ∧
  (∀ s d c i t, s.request d 0x41 = some c → setupIndex c.setup = i → setupValue c.setup = 0 → s.portState (.hub d i) = 0 →
    Answers (.setPortFeature d t) s fun t' =>
      t'.portState (.hub d i) = 1 ∧ (t'.dev d).ctl = some { c with ready := true } ∧ OnlyFields [.PRT_STS_STATE, .PRT_STS_RETRAINS] s t') ∧
  (∀ s d c i t, s.request d 0x41 = some c → setupIndex c.setup = i → setupValue c.setup = 1 → s.portState (.hub d i) = 4 →
    Answers (.setPortFeature d t) s fun t' =>
      t'.portState (.hub d i) = 3 ∧ t'.awaits (.port (.hub d i)) 6 = true ∧ (t'.dev d).ctl = some { c with ready := true } ∧ OnlyDev d s t') ∧
  (∀ s d c i t, s.request d 0x41 = some c → setupIndex c.setup = i → setupValue c.setup = 3 → s.portState (.hub d i) = 4 →
    (s.link (.port (.hub d i))).rate = 0 → (s.port (.hub d i)).rateChg = none → s.unrated (.hub d i) = false → s.bothRate5 (.hub d i) = true →
    Answers (.setPortFeature d t) s fun t' =>
      t'.port (.hub d i) = { s.port (.hub d i) with
        rate5Feature := true, cfgWant := none, rateChg := some ⟨1, leNat (c.data.take 4), false, false, false, false, false⟩ } ∧
      (t'.dev d).ctl = some { c with ready := true } ∧ OnlyPort (.hub d i) s t' ∧ OnlyFields [] s t') ∧
  (∀ s d c i t, s.request d 0x41 = some c → setupIndex c.setup = i → setupValue c.setup = 3 → s.portState (.hub d i) ≠ 4 →
    State.hasLink (s.portState (.hub d i)) = true → Answers (.setPortFeature d t) s fun t' =>
      t'.port (.hub d i) = s.port (.hub d i) ∧ t'.fgetN .PRT_CHG_CMD_REFUSED (PortId.hub d i).code = 1 ∧
      (t'.dev d).ctl = some { c with ready := true } ∧ OnlyPort (.hub d i) s t') ∧
  (∀ s d c i t, s.request d 0x42 = some c → setupIndex c.setup = i → setupValue c.setup = 3 → s.portState (.hub d i) = 4 →
    (s.link (.port (.hub d i))).rate = 1 → (s.port (.hub d i)).rateChg = none → Answers (.clearPortFeature d t) s fun t' =>
      t'.port (.hub d i) = { s.port (.hub d i) with
        rate5Feature := false, cfgWant := none, rateChg := some ⟨0, leNat (c.data.take 4), false, false, false, false, false⟩ } ∧
      (t'.dev d).ctl = some { c with ready := true } ∧ OnlyPort (.hub d i) s t' ∧ OnlyFields [] s t') ∧
  (∀ s d c i t, s.request d 0x41 = some c → setupIndex c.setup = i → setupValue c.setup = 4 → Answers (.setPortFeature d t) s fun t' =>
    t'.port (.hub d i) = { s.port (.hub d i) with remoteWake := true } ∧ OnlyPort (.hub d i) s t' ∧ OnlyFields [] s t') ∧
  (∀ s d c i t, s.request d 0x41 = some c → setupIndex c.setup = i → setupValue c.setup = 2 → s.portState (.hub d i) = 4 →
    (s.port (.hub d i)).susp = .none → Answers (.setPortFeature d t) s fun t' =>
      t'.portState (.hub d i) = 4 ∧ (t'.port (.hub d i)).susp = .sent ∧ t'.awaits (.port (.hub d i)) 7 = true ∧
      (t'.dev d).ctl = some { c with ready := true }) ∧
  (∀ s d c i t, s.request d 0x41 = some c → setupIndex c.setup = i → setupValue c.setup = 5 → s.portState (.hub d i) = 4 →
    Answers (.setPortFeature d t) s fun t' =>
      (t'.portState (.hub d i) = 5 ∨ t'.portState (.hub d i) = 9) ∧ t'.fgetN .PRT_CHG_RETRAIN (PortId.hub d i).code = 1 ∧
      (t'.dev d).ctl = some { c with ready := true }) ∧
  (∀ s d c i t, s.request d 0x41 = some c → setupIndex c.setup = i → setupValue c.setup = 6 → s.portState (.hub d i) = 9 →
    Answers (.setPortFeature d t) s fun t' =>
      t'.portState (.hub d i) = 1 ∧ (t'.dev d).ctl = some { c with ready := true } ∧ OnlyFields [.PRT_STS_STATE] s t') ∧
  (∀ s d c i t, s.request d 0x42 = some c → setupIndex c.setup = i → setupValue c.setup = 0 → Answers (.clearPortFeature d t) s fun t' =>
    t'.portState (.hub d i) = 0 ∧ (t'.dev d).ctl = some { c with ready := true }) ∧
  (∀ s d c i t, s.request d 0x42 = some c → setupIndex c.setup = i → setupValue c.setup = 2 → s.portState (.hub d i) = 6 →
    Answers (.clearPortFeature d t) s fun t' =>
      t'.portState (.hub d i) = 7 ∧ (t'.port (.hub d i)).forWake = false ∧ (t'.dev d).ctl = some { c with ready := true }) ∧
  (∀ s d c i t, s.request d 0x42 = some c → setupIndex c.setup = i → setupValue c.setup = 4 → Answers (.clearPortFeature d t) s fun t' =>
    t'.port (.hub d i) = { s.port (.hub d i) with remoteWake := false } ∧ OnlyPort (.hub d i) s t' ∧ OnlyFields [] s t')

/-- The ownership token at a dual-upstream hub, and the local tick (R61, R108, R382–R384): TOKEN_QUERY is answered with EPOCH and holder; a claim with
the next EPOCH is granted where the token is free, at once or for its frame, and denied to another where its holder is live; TOKEN_RELEASE records its
frame; a missed FRAME counts; at its tick a granted token changes hands and a switching link takes its rate. Completion is stated for tokenQuery,
tokenClaim, tokenRelease, holderFrameMissed, localTick. -/
def Obligations.HubsKeepTheToken : Prop :=
  (∀ s d up, (s.dev d).kind = 3 → FreeToSend (.dev d up) 16 s → Answers (.tokenQuery d up) s fun t =>
    t.out = s.out ++ [.send (.dev d up) (s.link (.dev d up)).rate (linkctl 0x11 0 ((s.dev d).token.epoch + holderCode (s.dev d).token.holder * 2 ^ 16 +
      bit ((s.dev d).token.holder == some up) * 2 ^ 19) 0)]) ∧
  (∀ s d up forced epoch, (s.dev d).kind = 3 → epoch = ((s.dev d).token.epoch + 1) % 65536 → (s.dev d).token.holder = none →
    FreeToSend (.dev d up) 16 s → Answers (.tokenClaim d up epoch forced 0) s fun t =>
      s.out ++ [.send (.dev d up) (s.link (.dev d up)).rate (linkctl 0x13 0 epoch 0)] <+: t.out ∧ (t.dev d).token.holder = some up ∧
        (t.dev d).token.epoch = epoch ∧ OnlyDev d s t) ∧
  (∀ s d up forced epoch f, (s.dev d).kind = 3 → epoch = ((s.dev d).token.epoch + 1) % 65536 → (s.dev d).token.holder = none → f ≠ 0 →
    FreeToSend (.dev d up) 16 s → Answers (.tokenClaim d up epoch forced f) s fun t =>
      t.out = s.out ++ [.send (.dev d up) (s.link (.dev d up)).rate (linkctl 0x13 0 epoch f)] ∧ OnlyDev d s t ∧
        t.dev d = { s.dev d with token := { (s.dev d).token with
        epoch := epoch, granted := some (up, f), pendingHolder := some (up, f) } }) ∧
  (∀ s d up h epoch, (s.dev d).kind = 3 → epoch = ((s.dev d).token.epoch + 1) % 65536 → (s.dev d).token.holder = some h → h ≠ up →
    (s.link (.dev d h)).up = true → (s.dev d).token.missed < 2 → FreeToSend (.dev d up) 16 s → Answers (.tokenClaim d up epoch false 0) s fun t =>
      t.out = s.out ++ [.send (.dev d up) (s.link (.dev d up)).rate (linkctl 0x14 0 ((s.dev d).token.epoch + 2 * 2 ^ 20) 0)] ∧ t.devs = s.devs) ∧
  (∀ s d up f, (s.dev d).kind = 3 → (s.dev d).token.holder = some up → f ≠ 0 → Answers (.tokenRelease d up (s.dev d).token.epoch f) s fun t =>
    t.dev d = { s.dev d with token := { (s.dev d).token with releaseAt := some f } } ∧ OnlyDev d s t) ∧
  (∀ s d h, (s.dev d).kind = 3 → (s.dev d).token.holder = some h → (s.dev d).token.gotFrame = false → Answers (.holderFrameMissed d) s fun t =>
    t.dev d = { s.dev d with token := { (s.dev d).token with missed := (s.dev d).token.missed + 1 } } ∧ OnlyDev d s t) ∧
  (∀ s d n t, Answers (.localTick d n t) s fun t' =>
    (t'.dev d).frameMiss = (s.dev d).frameMiss + 1 ∧ (t'.dev d).token.gotFrame = false ∧ OnlyDev d s t' ∧
    (∀ up, (s.dev d).token.pendingHolder = some (up, n) → (t'.dev d).token.holder = some up ∧ (t'.dev d).token.pendingHolder = none) ∧
    (∀ up < 2, ∀ r, (s.link (.dev d up)).ratePend = some (r, n, false) → (t'.link (.dev d up)).rate = r))

/-! ### Transactions and transfer descriptors (chapters 04, 05 and 07) -/

/-- Hands (R122, R123, R217–R219, R247): at the deadline every root port has a complete hand for the next frame, those composed before as they were;
where the slot of the next item of a port's hand has come and it ends before the guard band, its CALL_IN leaves on the port with the tag and is in
flight, and before its slot nothing starts; at the guard band what did not start has left the hand. Completion is stated for transactionStart,
handDeadline, guardBandStart. -/
def Obligations.HandsRunTheirTransactions : Prop :=
  (∀ s n tag t h x rest k, Quiet s → s.deal.lists = [] → s.handRun n = some h → h.items = x :: rest → (∀ y ∈ h.items, y.started = false) →
    s.portState (.root n) = 4 → (s.link (.port (.root n))).up = true → s.treeRuns n h.frame = true → (s.port (.root n)).susp = .none →
    x.kind = .callIn → x.entry = none → s.ctx? x.eph = some k → s.runs x.eph = true → s.busy x = false → s.roomNow x = true →
    h.nextAt + (h.lastA - x.a) * 10 ≤ (t - s.tim.tickAt) * 10 →
    State.fits ((t - s.tim.tickAt) * 10) x.s x.a (s.frameSpan s.tim.tickAt) = true → s.tagOk n tag x.eph (s.attemptOf k x != 1) x.avoid = true →
    (s.link (.port (.root n))).queue = [] → (s.link (.port (.root n))).replay = [] → FreeToSend (.port (.root n)) 0 (s.at_ t) →
    Answers (.transactionStart n tag t) s fun t' =>
      s.out ++ [.send (.port (.root n)) (s.link (.port (.root n))).rate (.txn (s.link (.port (.root n))).txSeq
        ⟨1, false, k.ctx.route, tag, State.callDir k.ctx .callIn, Eph.ep k.ctx.eph, Eph.addr k.ctx.eph, k.ctx.cls, []⟩)] <+: t'.out ∧
      (∃ y ∈ t'.txns, y.port = n ∧ y.tag = tag ∧ y.eph = x.eph ∧ y.kind = .callIn ∧ y.frame = h.frame) ∧ t'.entries = s.entries) ∧
  (∀ s n tag t h x rest, Quiet s → s.deal.lists = [] → s.handRun n = some h → h.items = x :: rest → (∀ y ∈ h.items, y.started = false) →
    x.entry = none → s.runs x.eph = true → (t - s.tim.tickAt) * 10 < h.nextAt + (h.lastA - x.a) * 10 →
    Answers (.transactionStart n tag t) s fun t' => t'.txns = s.txns ∧ t'.entries = s.entries) ∧
  (∀ s cuts, Answers (.handDeadline cuts) s fun t =>
    t.tim = s.tim.runTo (s.nextTick - 3000) ∧ ∀ n < s.nPorts,
      (∀ h, s.handNext n = some h → t.handNext n = some h) ∧
      (s.handNext n = none → ∃ h, t.handNext n = some h ∧ h.frame = s.nextNumber ∧ h.complete = true)) ∧
  (∀ s u, Answers (.guardBandStart u) s fun t =>
    t.tim = s.tim.runTo u ∧ t.twin.heldEvents = [] ∧ ∀ n < s.nPorts, ∀ h, s.handRun n = some h →
      ∃ h', t.handRun n = some h' ∧ h'.items = h.items.filter (·.started) ∧ h'.frame = h.frame)

/-- Answers (Table 4.5, R123, R128–R130): one whose tag nothing holds is counted and has no other effect, one after T_wait is counted and its
transaction is over, a poisoned one is noted; ACK of a BULK OUT transfer's last packet completes it OK with its timestamp and flips the toggle; STALL
completes it and halts the context. Completion is stated for answerReceive. -/
def Obligations.AnswersActOnTheirTransaction : Prop :=
  (∀ s n p poisoned t tEnd, (s.txns.find? fun x => x.port == n && x.tag == p.tag) = none → Answers (.answerReceive n p poisoned t tEnd) s fun t' =>
    t'.fget .SCH_XERR_UNSOLICITED = satAdd 65535 (s.fget .SCH_XERR_UNSOLICITED) 1 ∧ t'.txns = s.txns ∧ t'.entries = s.entries ∧ t'.ctxs = s.ctxs ∧
    t'.out = s.out ∧ OnlyFields [.SCH_XERR_UNSOLICITED] s t') ∧
  (∀ s n p poisoned t tEnd x, (s.txns.find? fun x => x.port == n && x.tag == p.tag) = some x → s.waited x (t * 10) = true →
    Answers (.answerReceive n p poisoned t tEnd) s fun t' =>
      t'.fget .SCH_XERR_UNSOLICITED = satAdd 65535 (s.fget .SCH_XERR_UNSOLICITED) 1 ∧ (∀ y ∈ t'.txns, ¬(y.port = n ∧ y.tag = p.tag))) ∧
  (∀ s n p t tEnd x k, (s.txns.find? fun x => x.port == n && x.tag == p.tag) = some x → s.waited x (t * 10) = false → s.ctx? x.eph = some k →
    Answers (.answerReceive n p true t tEnd) s fun t' =>
      t'.ctx? x.eph = some { k with poisonSeen := true } ∧ t'.txns = s.txns ∧ t'.entries = s.entries ∧ t'.out = s.out ∧ OnlyFields [] s t') ∧
  (∀ s n p t tEnd x k e, Quiet s → (s.txns.find? fun x => x.port == n && x.tag == p.tag) = some x → s.waited x (t * 10) = false → p.pid = 8 →
    x.kind = .callOut →
    s.ctx? x.eph = some k → k.bad = false → s.ctxOk x.eph k.ctx = true → k.ctx.cls = 4 → x.entry = some e.id → s.entry? e.id = some e →
    e.done = none → e.left 4 ≤ x.data.length → Answers (.answerReceive n p false t tEnd) s fun t' =>
      (t'.entry? e.id).bind Entry.done = some ⟨stOk, e.moved + x.data.length, e.late, some tEnd, s.tim.tickClass, e.more⟩ ∧
      (t'.ctx? x.eph).map (fun k => k.ctx.toggle) = some (1 - k.ctx.toggle) ∧ (∀ y ∈ t'.txns, ¬(y.port = n ∧ y.tag = p.tag))) ∧
  (∀ s n p t tEnd x k e, Quiet s → (s.txns.find? fun x => x.port == n && x.tag == p.tag) = some x → s.waited x (t * 10) = false → p.pid = 11 →
    p.pflags % 16 ≠ 4 →
    s.ctx? x.eph = some k → k.bad = false → s.ctxOk x.eph k.ctx = true → k.ctx.cls = 4 → k.ctx.state = 2 → Eph.ep x.eph ≠ 0 → x.kind = .callOut →
    x.entry = some e.id → s.entry? e.id = some e → e.done = none → Answers (.answerReceive n p false t tEnd) s fun t' =>
      (t'.entry? e.id).bind Entry.done = some (e.doneWith stStall) ∧ t'.ctxSt x.eph = some 3 ∧ (∀ y ∈ t'.txns, ¬(y.port = n ∧ y.tag = p.tag)))

/-- Missing answers (R128, R130, R137, R240): before T_wait nothing is missing; one of a BULK transfer that RETRY_LIM allows is counted in its context
and retried from the head of its list; the last allowed one ends the transfer NO_RESPONSE, or CRC_FAIL where an answer arrived poisoned, and halts the
context; a control transfer not complete after 50 ms ends NO_RESPONSE; a failed fetch of a context ends the descriptors that wait for it HOST_ERROR,
and a good one puts it into the cache (R155). Completion is stated for answerTimeout, controlTransferTimeout, contextFetchDone. -/
def Obligations.MissingAnswersEndOrRetry : Prop :=
  (∀ s n tag t x, (s.txns.find? fun x => x.port == n && x.tag == tag) = some x → s.waited x (t * 10) = false →
    Answers (.answerTimeout n tag t) s fun t' => t' = s.at_ t) ∧
  (∀ s n tag t x k e, Quiet s → (s.txns.find? fun x => x.port == n && x.tag == tag) = some x → s.waited x (t * 10) = true →
    s.ctx? x.eph = some k → k.bad = false → s.ctxOk x.eph k.ctx = true → k.ctx.cls = 4 → k.ctx.state = 2 → x.attempt < k.ctx.retryLim + 1 →
      x.entry = some e.id → s.entry? e.id = some e → e.eph = x.eph → e.done = none →
    Answers (.answerTimeout n tag t) s fun t' =>
      t'.deal.lists.head? = some ⟨2, Eph.port e.eph, k.ctx.owner, e.id⟩ ∧ (t'.entry? e.id).map Entry.st = some .ready ∧
      (t'.ctx? x.eph).map (fun k => k.ctx.errCnt) = some (min 7 x.attempt) ∧ (∀ y ∈ t'.txns, ¬(y.port = n ∧ y.tag = tag))) ∧
  (∀ s n tag t x k e, Quiet s → (s.txns.find? fun x => x.port == n && x.tag == tag) = some x → s.waited x (t * 10) = true →
    s.ctx? x.eph = some k → k.bad = false → s.ctxOk x.eph k.ctx = true → k.ctx.cls = 4 → k.ctx.state = 2 → Eph.ep x.eph ≠ 0 →
      k.ctx.retryLim + 1 ≤ x.attempt → x.entry = some e.id → s.entry? e.id = some e →
    e.done = none → x.kind ≠ .command → Answers (.answerTimeout n tag t) s fun t' =>
      (t'.entry? e.id).bind Entry.done = some (e.doneWith (if k.poisonSeen then stCrcFail else stNoResponse)) ∧ t'.ctxSt x.eph = some 3) ∧
  (∀ s eph e, Quiet s → (s.entries.find? fun e => e.eph == eph && e.kind == 1 && e.started && e.done.isNone) = some e →
    Answers (.controlTransferTimeout eph) s fun t => EndsWith e stNoResponse t) ∧
  (∀ s eph h, Quiet s → s.cmgr.fetching.contains eph = true → s.dirStatus = stOk → s.ctx? eph = none →
    s.engineFree (.context eph) = true → State.slotAt? h s.tableNow eph = .failed → Answers (.contextFetchDone eph h) s fun t =>
      (∀ e ∈ s.entries, e.needCtx = true ∨ e.isEntry = true → e.kind ≠ 4 → e.eph = eph → e.done = none → EndsWith e stHostError t) ∧
        t.cmgr.fetching.contains eph = false ∧
      t.fget .SCH_CTXCNT_FETCH_ERR = satAdd 65535 (s.fget .SCH_CTXCNT_FETCH_ERR) 1) ∧
  (∀ s eph h a img, s.cmgr.fetching.contains eph = true → s.dirStatus = stOk → s.ctx? eph = none → s.engineFree (.context eph) = true →
    s.cmgr.events = [] →
    s.ctxs.length < ctxSlots → State.slotAt? h s.tableNow eph = .at_ a → State.tableBytes h a 64 = some img → img.all (· == 0) = false →
    s.ctxOk eph (Ctx.ofBytes img) = true → Answers (.contextFetchDone eph h) s fun t =>
      (t.ctx? eph).map CtxSlot.ctx = some (Ctx.ofBytes img) ∧ t.cmgr.fetching.contains eph = false)

/-- Doorbells and manager rings (R169–R173): a doorbell within the room of a ring moves its TAIL, one beyond it puts the ring into ERROR, one on an
index that no ring of the slice has is ignored and counted; ENABLE of a manager ring whose geometry checks makes it ACTIVE, and its clearing makes it
UNUSED. Completion is stated for doorbell, mringEnable, mringDisable. -/
def Obligations.DoorbellsMoveTails : Prop :=
  (∀ s db, s.ready = true → (s.ring 0).st = 1 → db < (s.ring 0).size → db < 2 ^ 20 → db ≠ (s.ring 0).tail → (s.ring 0).tail < (s.ring 0).size →
    (db + (s.ring 0).size - (s.ring 0).tail) % (s.ring 0).size ≤ ((s.ring 0).head + 2 * (s.ring 0).size - 1 - (s.ring 0).tail) % (s.ring 0).size →
    Answers (.doorbell none 0 db) s fun t =>
      t.ring 0 = { s.ring 0 with tail := db, bells := (s.ring 0).bells ++
        [((db + (s.ring 0).size - (s.ring 0).tail) % (s.ring 0).size, s.deal.bellSeq + 1)] } ∧
      t.deal = { s.deal with bellSeq := s.deal.bellSeq + 1 } ∧ OnlyRing 0 s t ∧ t.out = s.out ∧ OnlyFields [] s t) ∧
  (∀ s db, s.ready = true → (s.ring 0).st = 1 → db < (s.ring 0).size → db < 2 ^ 20 →
    ((s.ring 0).head + 2 * (s.ring 0).size - 1 - (s.ring 0).tail) % (s.ring 0).size < (db + (s.ring 0).size - (s.ring 0).tail) % (s.ring 0).size →
    Answers (.doorbell none 0 db) s fun t => t.ring 0 = { s.ring 0 with st := 3, reason := 2 }) ∧
  (∀ s n j db r, s.ready = true → n < s.nSlices → s.sliceState n = 1 → j < 64 → s.ringAt n j = some r → (s.ring r).st = 1 → (s.ring r).type r ≤ 1 →
    db < (s.ring r).size → db < 2 ^ 20 → db ≠ (s.ring r).tail → (s.ring r).tail < (s.ring r).size →
    (db + (s.ring r).size - (s.ring r).tail) % (s.ring r).size ≤ ((s.ring r).head + 2 * (s.ring r).size - 1 - (s.ring r).tail) % (s.ring r).size →
    Answers (.doorbell (some n) j db) s fun t => (t.ring r).tail = db ∧ OnlyRing r s t ∧ t.out = s.out) ∧
  (∀ s n j db, s.ready = true → n < s.nSlices → s.sliceState n = 1 → j < 64 → s.ringAt n j = none → Answers (.doorbell (some n) j db) s fun t =>
    t.fgetN .SLC_STS_DB_IGNORED n = satAdd 65535 (s.fgetN .SLC_STS_DB_IGNORED n) 1 ∧ t.fgetN .SLT_EVT_DB_IGNORED n = 1 ∧ t.rings = s.rings ∧
    OnlyFields [.SLC_STS_DB_IGNORED, .SLT_EVT_DB_IGNORED] s t) ∧
  (∀ s n, s.ready = true → n < 4 → s.flagN .SCH_MRING_CTL_ENABLE n = false → s.rd .SCH_MRING_GEO_N n = ~~~ s.rd .SCH_MRING_GEO n →
    4 ≤ field (s.rd .SCH_MRING_GEO n) 9 5 → field (s.rd .SCH_MRING_GEO n) 9 5 ≤ 20 → Answers (.mringEnable n) s fun t =>
      (t.ring n).st = 1 ∧ (t.ring n).geo = s.rd .SCH_MRING_GEO n ∧ (t.ring n).geoN = ~~~ (s.rd .SCH_MRING_GEO n) ∧ (t.ring n).tail = 0 ∧
      t.fgetN .SCH_MRING_CTL_ENABLE n = 1 ∧ OnlyRing n s t) ∧
  (∀ s n, s.ready = true → n < 4 → Answers (.mringDisable n) s fun t =>
    (t.ring n).st = 0 ∧ (t.ring n).lost = (s.ring n).lost + (s.ring n).kept.length ∧ (t.ring n).kept = [] ∧ t.fgetN .SCH_MRING_CTL_ENABLE n = 0 ∧
    OnlyRing n s t ∧ OnlyFields [.SCH_MRING_CTL_ENABLE] s t)

/-- Transfer descriptors (R171, R177, R181–R185, R193): one at HEAD of a SUBMIT ring that is due is taken; received data goes to its buffer; a
completed descriptor is written back in two steps, its status confirmed by a flushing read before OWN is cleared; a completed command likewise.
Completion is stated for tdTake, hostTransportStart, tdWriteback, cmdWriteback. -/
def Obligations.DescriptorsAreTakenAndWrittenBack : Prop :=
  (∀ s r d rest bufs spillOk, s.takes r 0 = true → (s.ring r).cancelled.contains (s.ring r).head = false → (s.ring r).geoOk = true →
    s.takeOrder r = true → d.length = 32 → Td.own ⟨d⟩ = true → Td.chn ⟨d⟩ = false → Td.nb ⟨d⟩ = false → (s.ring r).slice ≠ none →
    (s.ring r).head < (s.ring r).size → (s.ring r).tail < (s.ring r).size → s.mustSpill (((s.ring r).slice).getD 0) = false →
    Answers (.tdTake r (.ok d :: rest) bufs spillOk) s fun t =>
      (t.ring r).head = ((s.ring r).head + 1) % (s.ring r).size ∧ t.deal.nextId = s.deal.nextId + 1 ∧
      ∃ e ∈ t.entries, e.id = s.deal.nextId ∧ e.ring = r ∧ e.tds = [((s.ring r).head, ⟨d⟩)]) ∧
  (∀ s r idx e i t0, s.entryAt r idx = some e → s.sliceState e.slice = 1 → (s.slice e.slice).releasing = false → s.engineFree (.tdData r idx) = true →
    (s.ctx? e.eph).isSome = true → e.kind = 0 → Eph.dir e.eph = 1 → e.hostOut = 0 → e.data ≠ [] → e.tds = [(i, t0)] →
    e.data.length ≤ t0.len → Answers (.hostTransportStart r idx) s fun t =>
      s.out ++ [.hostWrite (s.slice e.slice).pasid t0.buf e.data] <+: t.out ∧
      ∃ e' ∈ t.entries, e'.id = e.id ∧ e'.ring = r ∧ e'.hostOut = e.data.length) ∧
  (∀ s r idx e d i t0, (s.entries.find? fun o => o.ring == r && o.forCmd.isNone) = some e → e.tds = [(i, t0)] → i = idx → e.done = some d →
    e.step1 = false → e.spilled = false → s.sliceState e.slice = 1 → (s.slice e.slice).releasing = false → s.engineFree (.tdWriteback r idx) = true →
    State.transported e = true → Answers (.tdWriteback r idx) s fun t =>
      s.out ++ s.dataFlush e ++ [.hostWrite (s.ringPasid r) ((s.ring r).addr r idx + 4)
        (State.step1Bytes t0 (if e.kind = 0 then min t0.len d.len else d.len) d),
        .flush (s.ringPasid r) (lastWord ((s.ring r).addr r idx + 4) 28)] <+: t.out ∧
      .hostWrite (s.ringPasid r) ((s.ring r).addr r idx) (leBytes 4 (t0.dw 0 % 2 ^ 31)) ∈ t.out ∧ ∀ o ∈ t.entries, o.id ≠ e.id) ∧
  (∀ s r st c status, (s.cmds.find? fun c => c.ring == r) = some c → c.status = some status → (∀ n, c.slice = some n → s.sliceState n = 1 ∧
    (s.slice n).releasing = false) →
    s.hlt.restart = none → s.engineFree (.cmdWriteback r) = true → Answers (.cmdWriteback r st) s fun t =>
      s.out ++ confirmed (s.cmdPasid c) ((s.ring r).addr r c.idx + 4) (leBytes 4 (status * 2 ^ 24) ++ slice 8 16 c.bytes ++ leBytes 8 c.result) ++
        confirmed (s.cmdPasid c) ((s.ring r).addr r c.idx) (leBytes 4 (cmdDw0 c.bytes % 2 ^ 31)) <+: t.out ∧
      t.cmds.length < s.cmds.length)

/-! ### Commands on rings, endpoints and ports (chapter 05) -/

/-- COMMAND rings (R193, R195–R197): a reserved opcode completes BOUNDS, a complement that does not match INTEGRITY (shown of RING_QUERY), without
effect, and a failed read of a descriptor (shown there too) puts the ring into ERROR. RING_CREATE makes a ring of its issuer's ACTIVE with its
geometry, RING_STOP stops it, RING_START starts it again, RING_DESTROY frees a stopped one with nothing on it, RING_QUERY reports it, and TD_CANCEL
cancels what has not started. Completion is stated for reservedOpcode, ringQuery, ringCreate, ringStop, ringStart, ringDestroy, tdCancel. -/
def Obligations.CommandsAreCheckedAndRingsCommanded : Prop :=
  (∀ s r b, s.takes r 1 = true → (s.ring r).geoOk = true → b.length = 32 → cmdReserved (cmdOp b) = true → cmdOwn b = true →
    s.cmdWaits r (cmdOp b) b [] = false → cmdOpN b = 255 - cmdOp b → s.inSafe = false → Answers (.reservedOpcode r (.ok b)) s fun t =>
      Completes r b stBounds 0 s t ∧ CmdsKept r s t) ∧
  (∀ s r b, s.takes r 1 = true → (s.ring r).geoOk = true → b.length = 32 → cmdOp b = 0x05 → cmdOwn b = true →
    s.cmdWaits r 0x05 b [] = false → cmdOpN b ≠ 250 → Answers (.ringQuery r (.ok b)) s fun t =>
      Completes r b stIntegrity 0 s t ∧ CmdsKept r s t ∧ OnlyRing r s t ∧ t.out = s.out ∧ OnlyFields engineFields s t) ∧
  (∀ s r, s.takes r 1 = true → (s.ring r).geoOk = true → Answers (.ringQuery r .failed) s fun t =>
    (t.ring r).st = 3 ∧ (t.ring r).reason = 4 ∧ t.cmds = s.cmds) ∧
  (∀ s r b n, Accepted r 0x01 b s → n = nfield (cmdArg2 b) 9 0 → RingFor r n s → s.createStatus b = stOk → Answers (.ringCreate r (.ok b)) s fun t =>
    Completes r b stOk 0 s t ∧ CmdsKept r s t ∧ (∀ q, q ≠ r → q ≠ n → t.ring q = s.ring q) ∧ t.ring n = { Ring.init with
      st := 1, geo := BitVec.ofNat 64 (cmdArg0 b), geoN := ~~~ BitVec.ofNat 64 (cmdArg0 b), phase := true, slice := (s.ring n).slice,
      dbIdx := (s.ring n).dbIdx, evtRing := if field (BitVec.ofNat 64 (cmdArg0 b)) 11 10 = 2 then 0 else nfield (cmdArg2 b) 33 24,
      vector := nfield (cmdArg2 b) 36 34 }) ∧
  (∀ s r b n, Accepted r 0x02 b s → n = nfield (cmdArg0 b) 9 0 → RingFor r n s → (s.ring n).st = 1 → Answers (.ringStop r (.ok b)) s fun t =>
    Completes r b stOk (2 * 2 ^ 40 + (s.ring n).tail * 2 ^ 20 + (s.ring n).head) s t ∧ CmdsKept r s t ∧ t.ring n = { s.ring n with st := 2 } ∧
    (∀ q, q ≠ r → q ≠ n → t.ring q = s.ring q) ∧ OnlyFields engineFields s t) ∧
  (∀ s r b n, Accepted r 0x03 b s → n = nfield (cmdArg0 b) 9 0 → RingFor r n s → (s.ring n).st = 2 ∨ (s.ring n).st = 3 → (s.ring n).geoOk = true →
    (s.ring n).type n ≤ 1 → (s.ring (s.ring n).evtRing).st ≠ 0 → (s.ring (s.ring n).evtRing).slice = (s.ring n).slice →
    (s.ring (s.ring n).evtRing).type (s.ring n).evtRing = 2 → Answers (.ringStart r (.ok b)) s fun t =>
      Completes r b stOk (2 ^ 40 + (s.ring n).tail * 2 ^ 20 + (s.ring n).head) s t ∧ CmdsKept r s t ∧ t.ring n = { s.ring n with st := 1 }) ∧
  (∀ s r b imgs n, Accepted r 0x04 b s → n = nfield (cmdArg0 b) 9 0 → RingFor r n s → (s.ring n).st = 2 ∨ (s.ring n).st = 3 → s.ringNamed n = false →
    (s.ring n).head = (s.ring n).tail → (∀ e ∈ s.entries, e.ring ≠ n) → (∀ k ∈ s.cmds, k.ring ≠ n ∧ (k.op = 0x04 → k.status ≠ none)) →
    Answers (.ringDestroy r (.ok b) imgs) s fun t =>
      Completes r b stOk ((s.ring n).tail * 2 ^ 20 + (s.ring n).head) s t ∧
      t.ring n = { Ring.init with slice := (s.ring n).slice, dbIdx := (s.ring n).dbIdx } ∧ (∀ q, q ≠ r → q ≠ n → t.ring q = s.ring q)) ∧
  (∀ s r b n, Accepted r 0x05 b s → n = nfield (cmdArg0 b) 9 0 → RingFor r n s → Answers (.ringQuery r (.ok b)) s fun t =>
    Completes r b stOk ((s.ring n).st * 2 ^ 40 + (s.ring n).tail * 2 ^ 20 + (s.ring n).head) s t ∧ CmdsKept r s t ∧ OnlyRing r s t ∧
      OnlyFields engineFields s t) ∧
  (∀ s r b imgs n, Accepted r 0x18 b s → n = nfield (cmdArg0 b) 9 0 → RingFor r n s → (s.ring n).st ≠ 0 → (s.ring n).type n = 0 →
    (s.ring n).head = (s.ring n).tail → nfield (cmdArg0 b) 39 20 < (s.ring n).size → Answers (.tdCancel r (.ok b) imgs) s fun t =>
      (∃ k, Completes r b stOk k s t) ∧ CmdsKept r s t ∧
      ∀ e ∈ s.entries, e.ring = n → e.forCmd = none → e.started = false → e.done = none → e.st ≠ .ended →
        (∀ i t0, e.tds.head? = some (i, t0) → State.inCancel (s.ring n) (nfield (cmdArg0 b) 39 20) i = true) → e.tds ≠ [] → EndsWith e stCancelled t)

/-- The commands on an endpoint (R135, R151, R197, Table 4.17): EP_INSTALL puts a checked context into the cache, EP_STOP and EP_START move it to
STOPPED and back, EP_REMOVE completes what is pending CANCELLED and removes it, EP_RESET runs a CLEAR_HALT, EP_FLUSH writes it to its table and
EP_QUERY reports it. Completion is stated for epInstall, epRemove, epStop, epStart, epReset, epFlush, epQuery. -/
def Obligations.EndpointCommandsAct : Prop :=
  (∀ s r b img h eph x, Accepted r 0x10 b s → eph = nfield (cmdArg1 b) 24 0 → Eph.port eph < s.nPorts → Eph.addr eph ≠ 4095 → s.ctx? eph = some x →
    x.bad = false → x.ctx.state = 0 → s.installStatus eph (Ctx.ofBytes img) = stOk → s.shared (Eph.port eph) = false →
    Answers (.epInstall r (.ok b) (.ok img) h) s fun t =>
      Completes r b stOk 0 s t ∧ CmdsKept r s t ∧ (t.ctx? eph).map CtxSlot.ctx = some ((Ctx.ofBytes img).fresh.setShadow false) ∧
      ∀ e, e ≠ eph → t.ctx? e = s.ctx? e) ∧
  (∀ s r b h eph k, Quiet s → Accepted r 0x11 b s → EpFor r b eph k s → s.committed eph = false → k.ctx.state ≠ 0 → (∀ x ∈ s.txns, x.eph ≠ eph) →
    (field s.cmgr.dir 0 0 = 1 → (s.homeAddr h eph k).isSome = true) → Answers (.epRemove r (.ok b) h) s fun t =>
      Completes r b stOk 0 s t ∧ CmdsKept r s t ∧ t.ctx? eph = none ∧
      ∀ e ∈ s.entries, e.eph = eph → e.kind ≠ 4 → e.done = none → EndsWith e stCancelled t) ∧
  (∀ s r b h eph k, Accepted r 0x12 b s → EpFor r b eph k s → k.bad = false → k.ctx.state = 2 ∨ k.ctx.state = 3 →
    Answers (.epStop r (.ok b) h) s fun t =>
      Completes r b stOk 0 s t ∧ CmdsKept r s t ∧ t.ctxSt eph = some 4 ∧ (t.ctx? eph).map CtxSlot.leftState = some k.ctx.state) ∧
  (∀ s r b h eph k, Accepted r 0x13 b s → EpFor r b eph k s → k.ctx.state = 4 → Answers (.epStart r (.ok b) h) s fun t =>
    Completes r b stOk 0 s t ∧ CmdsKept r s t ∧ t.ctxSt eph = some (k.leftState % 16)) ∧
  (∀ s r b h eph k k0, Quiet s → (∀ e ∈ s.entries, e.id ≠ s.deal.nextId) → Accepted r 0x14 b s → EpFor r b eph k s →
    s.ctx? (eph / 128 * 128) = some k0 → k0.bad = false → k0.ctx.state = 2 → k0.ctx.cls = 0 → Answers (.epReset r (.ok b) h) s fun t =>
      InProgress r b s t ∧ CmdsKept r s t ∧ ∃ e ∈ t.entries, e.id = s.deal.nextId ∧ e.forCmd = some (r, (s.ring r).head) ∧ e.eph = eph / 128 * 128 ∧
        e.setup = setupBytes 0x01 false 0 (epAddr (Eph.ep eph) (Eph.dir eph)) 0 ∧ e.done = none) ∧
  (∀ s r b h eph k a, Accepted r 0x15 b s → EpFor r b eph k s → field s.cmgr.dir 0 0 = 1 → s.homeAddr h eph k = some a →
    Answers (.epFlush r (.ok b) h) s fun t =>
      Completes r b stOk 0 s t ∧ CmdsKept r s t ∧
      t.out = s.out ++ confirmed 0 a k.ctx.toBytes ∧ OnlyFields engineFields s t) ∧
  (∀ s r b h eph k, Accepted r 0x16 b s → EpFor r b eph k s → Answers (.epQuery r (.ok b) h) s fun t =>
    Completes r b stOk (k.ctx.w32 + k.ctx.wrPtr * 2 ^ 32) s t ∧ CmdsKept r s t ∧ t.out = s.out ∧ (t.ctx? eph).map CtxSlot.ctx = some k.ctx ∧
    OnlyFields engineFields s t)

/-- SUBTREE_GONE, ENUMERATE, XCVR_READ, PORT_RATE and APPLY_ADVICE (R30, R109, R146, R150, R197): contexts of the subtree move to GONE; the
enumeration starts with the identity record; the page read waits for the identity bus; a port that has the rate is done, another starts its change;
advice of the SHARE policy is carried out, and advice that is no longer there ends CANCELLED, or BOUNDS where it was never given. Completion is stated
for subtreeGone, enumerate, xcvrRead, portRate, applyAdvice. -/
def Obligations.PortCommandsOfTheRingAct : Prop :=
  (∀ s r b others, Quiet s → Accepted r 0x17 b s → nfield (cmdArg1 b) 5 0 < s.nPorts → Answers (.subtreeGone r (.ok b) others) s fun t =>
    (∃ k, Completes r b stOk (k + others) s t) ∧ CmdsKept r s t ∧ ∀ eph k, s.ctx? eph = some k →
      k.ctx.inSubtree (nfield (cmdArg1 b) 5 0) (nfield (cmdArg0 b) 34 0) (nfield (cmdArg0 b) 37 35) = true → k.ctx.state ≠ 0 → t.ctxSt eph = some 5) ∧
  (∀ s r b h eps eph k ka, Quiet s → (∀ e ∈ s.entries, e.id ≠ s.deal.nextId) → Accepted r 0x20 b s → nfield (cmdArg0 b) 5 0 < s.nPorts →
    nfield (cmdArg1 b) 11 0 ≠ 4095 → eph = Eph.mk (nfield (cmdArg0 b) 5 0) 0 0 0 → s.ctx? eph = some k → k.bad = false → k.ctx.state = 2 →
    k.ctx.cls = 0 → s.ctx? (Eph.mk (nfield (cmdArg0 b) 5 0) (nfield (cmdArg1 b) 11 0) 0 0) = some ka →
    Answers (.enumerate r (.ok b) h eps) s fun t =>
      InProgress r b s t ∧ CmdsKept r s t ∧ (t.ctx? eph).map (fun k => k.ctx.route) = some (nfield (cmdArg0 b) 40 6) ∧
      ∃ e ∈ t.entries, e.id = s.deal.nextId ∧ e.forCmd = some (r, (s.ring r).head) ∧ e.eph = eph ∧ e.setup = setupBytes 0x06 true 0 0 256 ∧
        e.done = none) ∧
  (∀ s r b n, Accepted r 0x21 b s → n = nfield (cmdArg0 b) 5 0 → n < s.nPorts → field (s.port (.root n)).cfg 4 4 = 1 →
    s.flagN .PRT_STS_XCVR_PRESENT n = true → Answers (.xcvrRead r (.ok b)) s fun t =>
      InProgress r b s t ∧ CmdsKept r s t ∧ t.port (.root n) = { s.port (.root n) with xcvrRead := some (nfield (cmdArg0 b) 8 8) } ∧
        OnlyPort (.root n) s t ∧
      t.out = s.out ++ (if s.idbReleased (n / 16) then [] else
        [.idbWrite (n / 16) 0x70 [BitVec.ofNat 8 (0x10 + n % 16)], .idbRead (n / 16) (0x50 + nfield (cmdArg0 b) 8 8) 0 256])) ∧
  (∀ s r b n, Accepted r 0x22 b s → n = nfield (cmdArg0 b) 5 0 → n < s.nPorts → (s.port (.root n)).rateChg = none → s.portState (.root n) = 4 →
    (s.link (.port (.root n))).rate = nfield (cmdArg0 b) 8 8 → Answers (.portRate r (.ok b)) s fun t =>
      Completes r b stOk s.frameNo s t ∧ CmdsKept r s t ∧ t.ports = s.ports ∧ OnlyFields engineFields s t) ∧
  (∀ s r b n, Accepted r 0x22 b s → n = nfield (cmdArg0 b) 5 0 → n < s.nPorts → (s.port (.root n)).rateChg = none → s.portState (.root n) = 4 →
    nfield (cmdArg0 b) 8 8 = 1 → (s.link (.port (.root n))).rate = 0 → s.unrated (.root n) = false → s.flagN .PRT_STS_PEER_RATE5 n = true →
    s.sched.batch = none → Answers (.portRate r (.ok b)) s fun t =>
      InProgress r b s t ∧ t.port (.root n) = { s.port (.root n) with rateChg := some ⟨1, (s.frameNo + 2) % 2 ^ 32, false, false, false, false, false⟩ } ∧
      OnlyPort (.root n) s t ∧ OnlyFields engineFields s t) ∧
  (∀ s r b t a, Accepted r 0x23 b s → (s.pol.advice.find? fun a => a.id == cmdArg0 b % 65536) = some a → a.policy = 1 → a.object + 1 = s.pol.share →
    Answers (.applyAdvice r (.ok b) t) s fun t' => Completes r b stOk 0 s t' ∧ CmdsKept r s t' ∧ t'.pol.share = a.object ∧
      OnlyFields engineFields s t') ∧
  (∀ s r b t, Accepted r 0x23 b s → (s.pol.advice.find? fun a => a.id == cmdArg0 b % 65536) = none → Answers (.applyAdvice r (.ok b) t) s fun t' =>
    Completes r b (if cmdArg0 b % 65536 < s.pol.nextAdvice then stCancelled else stBounds) 0 s t' ∧ CmdsKept r s t' ∧ t'.pol = s.pol ∧
      OnlyFields engineFields s t')

/-! ### The periodic schedule and the dealer (chapters 06 and 07) -/

/-- The schedule commands and admission (R210–R215, R221, R222): SCHED_BATCH and SCHED_CLEAR make a batch, which starts its admission when none is in
progress, no check waits after the last one and no port is about to slow down, and waits otherwise; SCHED_RESERVE waits for a frame boundary;
SCHED_QUERY writes the occupancy of each of the 1,024 phases and reports the cap. A change whose complement does not match refuses the whole batch,
with its event bit and RESULT; a batch that passes every check is staged for its commit frame. Completion is stated for schedBatch, schedClear,
schedReserve, schedQuery, batchAdmitted. -/
def Obligations.SchedulesAreChangedAndAdmitted : Prop :=
  (∀ s r b img, Accepted r 0x30 b s (batchListNames (.ok img)) → 1 ≤ nfield (cmdArg1 b) 44 32 → nfield (cmdArg1 b) 44 32 ≤ 4096 →
    s.hostStatus (s.ring r).slice (cmdArg0 b) (16 * nfield (cmdArg1 b) 44 32) = stOk → s.sched.batch = none → s.sched.queue = [] →
    s.sched.held = false → s.switching = false →
    Answers (.schedBatch r (.ok b) (.ok img)) s fun t =>
      InProgress r b s t ∧ CmdsKept r s t ∧ t.sched.queue = [] ∧ ∃ bt, t.sched.batch = some bt ∧ bt.kind = .list ∧
        bt.cmd = some (r, (s.ring r).head) ∧ bt.slice = (s.ring r).slice ∧ bt.frate = s.frate ∧ bt.admitted = false ∧
        bt.changes = (upto (nfield (cmdArg1 b) 44 32)).map fun i =>
          (BitVec.ofNat 64 (leNat (slice (16 * i) 8 img)), BitVec.ofNat 64 (leNat (slice (16 * i + 8) 8 img)))) ∧
  (∀ s r b img, Accepted r 0x30 b s (batchListNames (.ok img)) → 1 ≤ nfield (cmdArg1 b) 44 32 → nfield (cmdArg1 b) 44 32 ≤ 4096 →
    s.hostStatus (s.ring r).slice (cmdArg0 b) (16 * nfield (cmdArg1 b) 44 32) = stOk →
    s.sched.batch ≠ none ∨ s.sched.held = true ∨ s.switching = true →
    Answers (.schedBatch r (.ok b) (.ok img)) s fun t =>
      InProgress r b s t ∧ t.sched.batch = s.sched.batch ∧ t.sched.queue.length = s.sched.queue.length + 1) ∧
  (∀ s r b, Accepted r 0x33 b s → cmdArg0 b ≠ 0 → cmdArg0 b < 2 ^ s.nPorts → s.sched.batch = none → s.sched.queue = [] →
    s.sched.held = false → s.switching = false → Answers (.schedClear r (.ok b)) s fun t =>
      InProgress r b s t ∧ CmdsKept r s t ∧ ∃ bt, t.sched.batch = some bt ∧ bt.kind = .clear (cmdArg0 b) ∧ bt.cmd = some (r, (s.ring r).head) ∧
        bt.admitted = false) ∧
  (∀ s r b, Accepted r 0x33 b s → cmdArg0 b = 0 → Answers (.schedClear r (.ok b)) s fun t =>
    Completes r b stOk 0 s t ∧ CmdsKept r s t ∧ t.sched = s.sched) ∧
  (∀ s r b, Accepted r 0x31 b s → cmdArg2 b = 2 ^ 64 - 1 - cmdArg1 b → nfield (cmdArg0 b) 13 8 < s.nPorts → nfield (cmdArg0 b) 7 0 < s.nSlices →
    Answers (.schedReserve r (.ok b)) s fun t =>
      InProgress r b s t ∧ CmdsKept r s t ∧ t.sched = { s.sched with rechecks := s.sched.rechecks ++
        [.reserve r (s.ring r).head (nfield (cmdArg0 b) 13 8) (nfield (cmdArg0 b) 7 0) (cmdArg1 b)] }) ∧
  (∀ s r b n l, Accepted r 0x32 b s → (s.ring r).slice = none → nfield (cmdArg0 b) 16 16 = 1 → n = nfield (cmdArg0 b) 13 8 → n < s.nPorts →
    l = Tbl.get [] s.sched.active n → Answers (.schedQuery r (.ok b)) s fun t =>
      (∃ k, Completes r b stOk k s t ∧ k / 2 ^ 32 % 2 ^ 20 = s.capNs % 2 ^ 20) ∧ CmdsKept r s t ∧ t.sched = s.sched ∧
      t.out = s.out ++ confirmed 0 (cmdArg1 b) ((upto 1024).flatMap fun φ => leBytes 4 (s.wNs (s.byteTime n) l (φ % State.periodOf l)))) ∧
  (∀ s h b w wn rest r i c, s.sched.batch = some b → b.admitted = false → b.kind = .list → b.cmd = some (r, i) → b.changes = (w, wn) :: rest →
    wn ≠ ~~~ w → s.sched.queue = [] → c ∈ s.cmds → c.ring = r → c.idx = i → c.op = 0x30 → c.status = none → Answers (.batchAdmitted h) s fun t =>
      t.sched = { s.sched with batch := none, held := s.sched.pctPend || !s.sched.amaxPend.isEmpty || !s.sched.rechecks.isEmpty } ∧
      t.flag .SCH_ADM_EVT_BATCH_REFUSED = true ∧
      { c with status := some stIntegrity, result := 2 ^ 60 } ∈ t.cmds) ∧
  (∀ s h b s1 c, s.sched.batch = some b → b.admitted = false → b.changes ≠ [] → s.changesCheck h b 0 [] b.changes = (s1, none) →
    s1.capacityFail b (s1.stagedOf b.changes) = none → s1.frate = b.frate → s1.tim.frateAcc = none → s1.commitFrame b = some c →
    Answers (.batchAdmitted h) s fun t =>
      t.sched.batch = some { b with
        admitted := true, staged := s1.stagedOf b.changes,
        atomic := (s1.stagedOf b.changes).length == 1 || decide (b.changes.length ≤ 512), commitAt := c,
        toSwitch := (s1.stagedOf b.changes).map Prod.fst } ∧ t.sched.active = s1.sched.active ∧ t.cmds = s1.cmds)

/-- The dealer's dynamics (R134, R232, R235, R237, R253–R255): a passed time key leaves the delay lists; NOTYET's limit ends a transfer; spilled
entries return, or end HOST_ERROR where the read failed; the spill area is sampled as it is enabled; a write of the selected counter sets it.
Completion is stated for delayRelease, notyetTimeout, spillReturn, spillEnable, schDcntValWrite. -/
def Obligations.DealerDynamicsAct : Prop :=
  (∀ s u e k, Quiet s → e ∈ s.entries → e.delay = some (.time k) → k ≤ u → e.done = none → Answers (.delayRelease u) s fun t =>
    (∃ e' ∈ t.entries, e'.id = e.id ∧ e'.ring = e.ring ∧ e'.delay = none) ∧ t.tim = s.tim.runTo u) ∧
  (∀ s eph e k, Quiet s → (s.entries.find? fun e => e.eph == eph && e.nyFrom.isSome && e.done.isNone) = some e → s.ctx? eph = some k →
    k.ctx.nyLimit % 65536 ≠ 0 → k.ctx.nyLimit % 65536 ≤ (s.frameNo + 2 ^ 32 - e.nyFrom.getD 0) % 2 ^ 32 →
    Answers (.notyetTimeout eph) s fun t => EndsWith e stNotyet t) ∧
  (∀ s n, Quiet s → s.engineFree (.spill n) = true → Answers (.spillReturn n false) s fun t =>
    (∀ e ∈ s.entries, e.spilled = true → e.slice = n → e.done = none → EndsWith e stHostError t) ∧
    ∀ e ∈ t.entries, e.slice = n → e.spilled = false) ∧
  (∀ s n e, Quiet s → s.engineFree (.spill n) = true → s.oldestSpilled n = some e → (s.onChip fun o => o.slice == n) < s.deal.quota →
    (s.onChip fun _ => true) < 65536 →
    Answers (.spillReturn n true) s fun t => ∃ e' ∈ t.entries, e'.id = e.id ∧ e'.ring = e.ring ∧ e'.spilled = false) ∧
  (∀ s, s.ready = true → s.deal.spillOn = false → Answers (.spillEnable true) s fun t =>
    t.fget .SCH_SPILL_BASE_ENABLE = 1 ∧ t.fget .SCH_SPILL_STS_ERR = 0 ∧ OnlyFields [.SCH_SPILL_BASE_ENABLE, .SCH_SPILL_STS_ERR] s t ∧
    t.deal = { s.deal with spillOn := true, spillBase := s.rd .SCH_SPILL_BASE 0, spillBlocks := s.fget .SCH_SPILL_SIZE_BLOCKS }) ∧
  (∀ s, s.ready = true → Answers (.spillEnable false) s fun t =>
    t.fget .SCH_SPILL_BASE_ENABLE = 0 ∧ OnlyFields [.SCH_SPILL_BASE_ENABLE] s t ∧ t.deal = { s.deal with spillOn := false }) ∧
  (∀ s v, s.ready = true → Answers (.schDcntValWrite v) s fun t =>
    Tbl.get 0 t.deal.counters (s.fget .SCH_DCNT_SEL_INDEX) = v % 65536 ∧
    ∀ i, i ≠ s.fget .SCH_DCNT_SEL_INDEX → Tbl.get 0 t.deal.counters i = Tbl.get 0 s.deal.counters i)

/-! ### The sample path (chapter 08) -/

/-- Sample blocks and stream records (R262, R265, R273, R277, R285, R291, R293): a module keeps the newest BURST + 1 blocks; a set past its deadline
is emitted as a SET record; a record is written with its first 16 bytes last, and a flushing read confirms it; a span that is due is coded, one record
for each channel, raw where it is late. Completion is stated for sampleBlockForm, gatherDeadline, streamRecordWrite, coderBlockCode, coderLateRaw. -/
def Obligations.SampleRecordsAreProduced : Prop :=
  (∀ s d ep stamp body e, (s.dev d).ep? ep 1 = some e → e.cls = 2 → Answers (.sampleBlockForm d ep stamp body) s fun t =>
    (t.dev d).ep? ep 1 = some { e with
      bseq := (e.bseq + 1) % 65536,
      blocks := List.drop (e.blocks.length + 1 - (e.burst + 1)) (e.blocks ++ [⟨roundNs stamp, (e.bseq + 1) % 65536, body⟩]) } ∧ OnlyDev d s t) ∧
  (∀ s id g o, s.group id = some g → g.sets = [o] → s.setOver o = true → Answers (.gatherDeadline id) s fun t =>
    (t.group id).map Group.sets = some [] ∧ t.fgetN .GTH_CNT_SETS id = (s.fgetN .GTH_CNT_SETS id + 1) % 2 ^ 16 ∧
    ∃ x ∈ t.smp.queue, x.kind = 1 ∧ x.ring = g.ring ∧ x.time = toBits 64 o.t ∧ x.set = some (id, o.j)) ∧
  (∀ s ring x ents, (s.smp.queue.find? fun x => x.ring == ring) = some x → s.recReady x = true → (s.ring ring).head < (s.ring ring).size →
    16 ≤ (s.ring ring).entryBytes ring → ents = (x.length + (s.ring ring).entryBytes ring - 1) / (s.ring ring).entryBytes ring →
    Answers (.streamRecordWrite ring) s fun t =>
      t.smp.queue = s.smp.queue.erase x ∧ (t.ring ring).head = ((s.ring ring).head + ents) % (s.ring ring).size ∧ OnlyRing ring s t ∧
      ∃ l, t.out = s.out ++ l ++ [.hostWrite (s.ringPasid ring) ((s.ring ring).base + (s.ring ring).head * (s.ring ring).entryBytes ring)
        (leBytes 1 x.kind ++ leBytes 1 (x.qclass % 8 + bit (s.ring ring).phase * 128) ++ leBytes 2 ents ++ leBytes 4 x.length ++ leBytes 8 x.time),
        .flush (s.ringPasid ring) (lastWord ((s.ring ring).base + (s.ring ring).head * (s.ring ring).entryBytes ring) 16)]) ∧
  (∀ s k c p rest, s.coder k = some c → c.closed = p :: rest → later32 ((p.frame + c.delay) % 2 ^ 32) s.frameNo = false →
    Answers (.coderBlockCode k) s fun t =>
      (t.coder k).map CoderStream.closed = some rest ∧ t.smp.queue.length = s.smp.queue.length + c.ch ∧ s.smp.queue <+: t.smp.queue ∧
      (∀ x ∈ t.smp.queue.drop s.smp.queue.length, x.kind = 3 ∧ x.ring = c.ring ∧ x.span = some (k, p.cseq)) ∧
      t.fgetN .CDR_CNT_BLOCKS k = (s.fgetN .CDR_CNT_BLOCKS k + c.ch) % 2 ^ 32) ∧
  (∀ s k c p rest, s.coder k = some c → c.closed = p :: rest → later32 ((p.frame + c.delay + 2) % 2 ^ 32) s.frameNo = false →
    Answers (.coderLateRaw k) s fun t =>
      (t.coder k).map CoderStream.closed = some rest ∧ t.smp.queue.length = s.smp.queue.length + c.ch ∧ t.flag .CDR_EVT_RAW_LATE = true)

/-- The gather and coder commands (R270, R281, R283, R296): a descriptor that checks makes a group or a stream; one with nothing open or waiting is
ended; a query reports what is open and the last number. Completion is stated for gatherCreate, gatherDestroy, gatherQuery, coderAttach, coderDetach,
coderQuery. -/
def Obligations.GatherAndCoderCommandsAct : Prop :=
  (∀ s r b img h id n ring ms dl M, Accepted r 0x58 b s (gatherNames (.ok img)) → id = cmdArg1 b % 256 → n = leNat (slice 12 2 img) →
    ring = leNat (slice 14 2 img) →
    ring < 1024 → ring < s.nRings → ms = State.gatherMembers img → leNat (slice 11 1 img) = 0 → dl = leNat (slice 10 1 img) →
    (∀ m ∈ ms, m.1 < 2 ^ 25 ∧ Eph.port m.1 < s.nPorts) → s.group id = none →
    s.hostStatus (s.ring r).slice (cmdArg0 b) (16 + 8 * n) = stOk → ((s.ring r).slice = none ∨ (s.ring ring).slice = (s.ring r).slice) →
    s.streamRing ring = true → (∀ x ∈ s.smp.groups, x.2.ring ≠ ring) → (∀ x ∈ s.smp.streams, x.2.ring ≠ ring) →
    (∀ k, (s.ring ring).slice = some k → s.sliceFixed k = false) →
    1 ≤ leNat (slice 0 4 img) → leNat (slice 0 4 img) ≤ 1000000 → leNat (slice 4 4 img) < 1000000000 / leNat (slice 0 4 img) →
    leNat (slice 8 2 img) ≤ 1000 → 2 * leNat (slice 8 2 img) < 1000000000 / leNat (slice 0 4 img) → 1 ≤ dl → dl ≤ 64 → 1 ≤ n → n ≤ 256 →
    State.distinct (ms.map Prod.fst) = true →
    (∀ m x, ms[m]? = some x → ∃ k, s.ctx? x.1 = some k ∧ k.bad = false ∧ k.ctx.cls = 2 ∧ (s.ring ring).slice = some k.ctx.owner ∧ k.ctx.mode = 1 ∧
      k.ctx.group = id ∧ k.ctx.member = m ∧ (dl + 2) * (k.ctx.burst + 1) * k.ctx.mps ≤ k.ctx.size ∧ k.ctx.mps ≤ M) →
    2 * (32 + 8 * n + n * M) ≤ (s.ring ring).size * (s.ring ring).entryBytes ring → s.smp.groups.length < 256 →
    (s.smp.groups.map fun x => x.2.members.length).foldl (· + ·) 0 + n ≤ 8192 → Answers (.gatherCreate r (.ok b) (.ok img) h) s fun t =>
      Completes r b stOk 0 s t ∧ CmdsKept r s t ∧ t.group id = some ⟨leNat (slice 0 4 img), leNat (slice 4 4 img), leNat (slice 8 2 img), dl, ring,
        ms,
        [], none, [], []⟩ ∧ ∀ i, i ≠ id → t.group i = s.group i) ∧
  (∀ s r b id g j, Accepted r 0x59 b s → id = cmdArg1 b % 256 → s.group id = some g → g.sets = [] → g.upTo = some j →
    ((s.ring r).slice = none ∨ (s.ring g.ring).slice = (s.ring r).slice) → (∀ k, (s.ring g.ring).slice = some k → s.sliceFixed k = false) →
    (∀ x ∈ s.smp.groups, x.2.destroy = []) → (∀ x ∈ s.smp.queue, ∀ z, x.set = some z → z.1 ≠ id) → Answers (.gatherDestroy r (.ok b)) s fun t =>
      Completes r b stOk (toBits 32 j) s t ∧ t.group id = none) ∧
  (∀ s r b id g j, Accepted r 0x5A b s → id = cmdArg1 b % 256 → s.group id = some g → g.upTo = some j →
    ((s.ring r).slice = none ∨ (s.ring g.ring).slice = (s.ring r).slice) → Answers (.gatherQuery r (.ok b)) s fun t =>
      Completes r b stOk (g.sets.length % 4096 * 2 ^ 32 + toBits 32 j) s t ∧ CmdsKept r s t ∧ t.smp = s.smp ∧ OnlyFields engineFields s t) ∧
  (∀ s r b img h k ring x, Accepted r 0x5B b s (coderNames (.ok img)) → k = cmdArg1 b % 64 → s.hasCoder = true →
    s.hostStatus (s.ring r).slice (cmdArg0 b) 48 = stOk →
    ring = leNat (slice 4 2 img) → ring < 1024 → ring < s.nRings → leNat (slice 0 4 img) < 2 ^ 25 → Eph.port (leNat (slice 0 4 img)) < s.nPorts →
    leNat (slice 7 1 img) ≤ 12 → leNat (slice 21 3 img) = 0 →
    leNat (slice 40 8 img) = 0 → (∀ i < 4, leNat (slice (24 + 4 * i) 4 img) = 0) → s.coder k = none → s.ctx? (leNat (slice 0 4 img)) = some x →
    ((s.ring r).slice = none ∨ (s.ring r).slice = some x.ctx.owner) → x.bad = false → x.ctx.cls = 2 → x.ctx.mode = 2 → x.ctx.link % 64 = k →
    s.sliceFixed x.ctx.owner = false → s.streamRing ring = true → (s.ring ring).slice = some x.ctx.owner → (∀ y ∈ s.smp.groups, y.2.ring ≠ ring) →
    leNat (slice 6 1 img) / 64 ≠ 3 → 1 ≤ leNat (slice 20 1 img) → leNat (slice 20 1 img) ≤ 64 → leNat (slice 8 4 img) ≠ 0 →
    (s.smp.streams.map fun y => y.2.ch).foldl (· + ·) 0 + (leNat (slice 6 1 img) % 64 + 1) ≤ 128 →
    Answers (.coderAttach r (.ok b) (.ok img) h) s fun t =>
      Completes r b stOk 0 s t ∧ CmdsKept r s t ∧ t.coder k = some ⟨leNat (slice 0 4 img), ring, leNat (slice 6 1 img) / 64,
        leNat (slice 6 1 img) % 64 + 1, leNat (slice 7 1 img), leNat (slice 8 4 img), leNat (slice 12 4 img), leNat (slice 16 2 img),
        leNat (slice 18 2 img), leNat (slice 20 1 img), [], [], none, none, [], 0, none, [], []⟩ ∧ ∀ i, i ≠ k → t.coder i = s.coder i) ∧
  (∀ s r b k x n, Accepted r 0x5C b s → k = cmdArg1 b % 64 → s.hasCoder = true → s.coder k = some x → x.cur = none → x.closed = [] →
    x.lastCseq = some n → n < 2 ^ 32 → ((s.ring r).slice = none ∨ (s.ring x.ring).slice = (s.ring r).slice) →
    (∀ k, (s.ring x.ring).slice = some k → s.sliceFixed k = false) → (∀ y ∈ s.smp.groups, y.2.destroy = []) →
    (∀ y ∈ s.smp.streams, y.2.detach = []) → (∀ y ∈ s.smp.queue, ∀ z, y.span = some z → z.1 ≠ k) → Answers (.coderDetach r (.ok b)) s fun t =>
      Completes r b stOk n s t ∧ t.coder k = none) ∧
  (∀ s r b k x n, Accepted r 0x5D b s → k = cmdArg1 b % 64 → s.hasCoder = true → s.coder k = some x → x.lastCseq = some n →
    ((s.ring r).slice = none ∨ (s.ring x.ring).slice = (s.ring r).slice) → Answers (.coderQuery r (.ok b)) s fun t =>
      Completes r b stOk (x.closed.length * x.ch % 65536 * 2 ^ 32 + n % 2 ^ 32) s t ∧ CmdsKept r s t ∧ t.smp = s.smp ∧ OnlyFields engineFields s t)

/-! ### The mover (chapter 09) -/

/-- GO, STOP and the channel split (R298, R308, R309, R311, R316, R325): GO of a register run with checks that pass starts the channel, arms it where
it waits for its pace or for its slice, or leaves it DRY where its slice is being reset; GO with a check that fails leaves the state and shows the
status; a busy channel acts on STOP alone: an ARMED one is IDLE, a RUNNING one STOPPING, a HALTED one IDLE, with STOPPED where the STOP came in the
cycle of the failure. An accepted split waits until no engine work is in progress, and is then applied, MOV_STS.ENGINE with it; one written while
FRAME_EN is 1 is refused. Completion is stated for movGo, movStop, movSwchWrite, swchApply. -/
def Obligations.ChannelsStartAndStop : Prop :=
  (∀ s n v, s.ready = true → s.software n = true → (s.chanSt n = 0 ∨ s.chanSt n = 4) → v < 2 ^ 30 → ctlDesc v = false → s.goStatus n v = stOk →
    Answers (.movGo n v) s fun t =>
      t.chanSt n = (if (s.bound n).any (fun x => s.sliceState x == 4) then 5
        else if ctlPace v = 0 ∧ s.moverStopped = false ∧ (s.bound n).all (fun x => !s.sliceHeld x) then 2 else 1) ∧ t.fgetN .MOV_STS_CREDITS n = 0 ∧
      t.chan n = { Chan.init with
        ctl := v, slice := s.bound n, src := (s.rd .MOV_SRC n).toNat, dst := (s.rd .MOV_DST n).toNat,
        cnt := (s.rd .MOV_CNT n).toNat, crc := 0xFFFFFFFF#32, redo := if s.chanSt n = 4 then (s.chan n).redo else none } ∧
      ∀ m, m ≠ n → t.chan m = s.chan m) ∧
  (∀ s n v, s.ready = true → s.software n = true → (s.chanSt n = 0 ∨ s.chanSt n = 4) → v < 2 ^ 30 → s.goStatus n v ≠ stOk →
    Answers (.movGo n v) s fun t =>
      t.chanSt n = s.chanSt n ∧ t.fgetN .MOV_STS_STATUS n = s.goStatus n v % 256 ∧ t.mov = s.mov) ∧
  (∀ s n v, s.ready = true → s.software n = true → 1 ≤ s.chanSt n → s.chanSt n ≠ 4 → v < 2 ^ 30 → Answers (.movGo n v) s fun t =>
    t.flag .MOV_GEVT_BUSY_WRITE = true ∧ OnlyFields [.MOV_GEVT_BUSY_WRITE] s t ∧ t.mov = s.mov) ∧
  (∀ s n v same, s.ready = true → s.software n = true → s.chanSt n = 1 → Answers (.movStop n v same) s fun t =>
    t.chanSt n = 0 ∧ t.flagN .MOV_STS_STOPPED n = true ∧ t.flag .MOV_GEVT_BUSY_WRITE = true ∧ t.mov = s.mov ∧
    OnlyFields [.MOV_STS_STATE, .MOV_STS_STOPPED, .MOV_GEVT_BUSY_WRITE] s t) ∧
  (∀ s n v same, s.ready = true → s.software n = true → s.chanSt n = 2 → Answers (.movStop n v same) s fun t =>
    t.chanSt n = 3 ∧ t.mov = s.mov ∧ OnlyFields [.MOV_STS_STATE, .MOV_GEVT_BUSY_WRITE] s t) ∧
  (∀ s n v same, s.ready = true → s.software n = true → s.chanSt n = 4 → Answers (.movStop n v same) s fun t =>
    t.chanSt n = 0 ∧ t.mov = s.mov ∧ t.flagN .MOV_STS_STOPPED n = (same || s.flagN .MOV_STS_STOPPED n)) ∧
  (∀ s v, s.ready = true → s.flag .TIM_CTL_FRAME_EN = false → (∀ n < 64, s.chanSt n = 0) → Answers (.movSwchWrite v) s fun t =>
    t.mov = { s.mov with swch := some (nfield v 5 0) } ∧ t.fget .MOV_GCFG_ENG_RETRY = nfield v 10 8 ∧ OnlyFields [.MOV_GCFG_ENG_RETRY] s t) ∧
  (∀ s v, s.ready = true → s.flag .TIM_CTL_FRAME_EN = true → Answers (.movSwchWrite v) s fun t =>
    t.mov = s.mov ∧ t.flag .MOV_GEVT_CFG_REFUSED = true ∧ OnlyFields [.MOV_GCFG_ENG_RETRY, .MOV_GEVT_CFG_REFUSED] s t) ∧
  (∀ s, (∃ x ∈ s.mov.chans, x.2.work.isSome = true) → exec .swchApply s = .next s) ∧
  (∀ s v, s.mov.swch = some v → (∀ x ∈ s.mov.chans, x.2.work = none) → Answers .swchApply s fun t =>
    t.mov = { s.mov with swch := none } ∧ t.fget .MOV_GCFG_SWCH = v % 64 ∧ (∀ n < 64, t.flagN .MOV_STS_ENGINE n = !State.isSoft (min 32 v) n) ∧
    OnlyFields [.MOV_GCFG_SWCH, .MOV_STS_ENGINE] s t)

/-- What a channel moves (R304–R307, R312, R314, R317): FILL repeats SRC over the range, COPY brings the source's bytes, a request moves its staged
burst; every other byte of the buffer pool is as before. A descriptor with OWN = 0 ends the run. A request that no channel waits for is staged, up to
eight, and the ninth is dropped and counted. Completion is stated for moverDescDone, reqLineRequest. -/
def Obligations.ChannelsMoveData : Prop :=
  (∀ s n k desc src dst ecc fence, k = s.chan n → s.software n = true → (s.chanSt n = 2 ∨ s.chanSt n = 3) → k.retryAt = none →
    ctlDesc k.ctl = false → ctlPace k.ctl ≠ 3 → ctlOp k.ctl = 1 → ctlDstSp k.ctl = 1 →
    ctlDstFix k.ctl = false → k.mis = none → k.wrote = none → 0 < k.cnt → k.cnt % 8 = 0 → Memory.wf s.pool = true →
      Answers (.moverDescDone n desc src dst ecc fence) s fun t =>
      (∀ a, Memory.read t.pool a =
        if k.dst ≤ a ∧ a < k.dst + k.cnt then (leBytes 8 k.src).getD ((a - k.dst) % 8) 0 else Memory.read s.pool a) ∧
      t.chanSt n = 0 ∧ t.flagN .MOV_STS_DONE n = true ∧ t.fgetN .MOV_STS_STATUS n = stOk ∧ t.rd .MOV_CNT n = 0 ∧ t.out = s.out) ∧
  (∀ s n k desc src dst fence, k = s.chan n → s.software n = true → (s.chanSt n = 2 ∨ s.chanSt n = 3) → k.retryAt = none →
    ctlDesc k.ctl = false → ctlPace k.ctl ≠ 3 → ctlOp k.ctl = 0 → ctlSrcSp k.ctl = 1 →
    ctlSrcFix k.ctl = false → ctlDstSp k.ctl = 1 → ctlDstFix k.ctl = false → k.mis = none → k.wrote = none → 0 < k.cnt → k.cnt % 8 = 0 →
    (k.src + k.cnt ≤ k.dst ∨ k.dst + k.cnt ≤ k.src) → Memory.wf s.pool = true → Answers (.moverDescDone n desc src dst none fence) s fun t =>
      (∀ a, Memory.read t.pool a = Memory.read s.pool (if k.dst ≤ a ∧ a < k.dst + k.cnt then k.src + (a - k.dst) else a)) ∧
      t.chanSt n = 0 ∧ t.flagN .MOV_STS_DONE n = true ∧ t.fgetN .MOV_STS_STATUS n = stOk ∧ t.rd .MOV_CNT n = 0 ∧ t.out = s.out) ∧
  (∀ s n k desc src dst ecc fence a, k = s.chan n → a = (s.rd .MOV_DPTR n).toNat → s.software n = true → s.chanSt n = 2 → k.retryAt = none →
    k.slice = none →
    ctlDesc k.ctl = true → ctlPace k.ctl ≠ 3 → k.desc = none → k.redo = none → desc ≠ .failed → ctlDescSp k.ctl = 1 → a + 32 ≤ s.poolBytes →
      (Memory.read s.pool (a + 3)).toNat < 128 →
    Answers (.moverDescDone n desc src dst ecc fence) s fun t =>
      t.flagN .MOV_STS_EMPTY n = true ∧ t.chanSt n = 0 ∧ OnlyFields [.MOV_STS_EMPTY, .MOV_STS_STATE] s t ∧ t.pool = s.pool ∧ t.out = s.out) ∧
  (∀ s line data src dst, reqLine line = true → (line < 64 → line < s.nPorts) → s.lineChan line = none → (Tbl.get [] s.mov.lines line).length < 8 →
    Answers (.reqLineRequest line data src dst) s fun t =>
      Tbl.get [] t.mov.lines line = Tbl.get [] s.mov.lines line ++ [data] ∧ t.mov.chans = s.mov.chans ∧ t.mov.drops = s.mov.drops ∧
      t.pool = s.pool ∧ OnlyFields [] s t) ∧
  (∀ s line data src dst, reqLine line = true → (line < 64 → line < s.nPorts) → s.lineChan line = none → 8 ≤ (Tbl.get [] s.mov.lines line).length →
    Answers (.reqLineRequest line data src dst) s fun t =>
      Tbl.get 0 t.mov.drops line = min 65535 (Tbl.get 0 s.mov.drops line + 1) ∧ t.mov.lines = s.mov.lines ∧ t.pool = s.pool) ∧
  (∀ s line data src dst n k, reqLine line = true → (line < 64 → line < s.nPorts) → Tbl.get [] s.mov.lines line = [] → s.lineChan line = some n →
    k = s.chan n → k.moved < k.cnt → (ctlDesc k.ctl = true → k.desc ≠ none) → ctlOp k.ctl = 0 → ctlSrcSp k.ctl = 2 → ctlDstSp k.ctl = 1 →
    ctlDstFix k.ctl = false → 0 < data.length → data.length % 8 = 0 →
    data.length ≤ burstLen k.ctl k.src k.dst k.cnt k.moved → Memory.wf s.pool = true → Answers (.reqLineRequest line data src dst) s fun t =>
      (t.chan n).moved = k.moved + data.length ∧ Tbl.get [] t.mov.lines line = [] ∧
      ∀ a, Memory.read t.pool a =
        if k.dst + k.moved ≤ a ∧ a < k.dst + k.moved + data.length then data.getD (a - (k.dst + k.moved)) 0 else Memory.read s.pool a)

/-- Failed reads and dry mode (R321, R322, R326, R416): while attempts are left the channel waits 2^(a − 1) µs, and an error of the PCIe link is an
advisory one; the last one ends the descriptor HOST_ERROR and halts the channel, the bytes moved before it being there; an engine channel retries its
work in the same way, shows it in its registers, and the last failed read of a ring's entry puts the ring into ERROR; a DRY channel, software or
engine, ends SLICE_RESET at the boundary. Completion is stated for hostReadFail, moverRetry, moverDryBoundary. -/
def Obligations.ChannelsRetryAndFail : Prop :=
  (∀ s n a img src dst u, s.software n = true → (s.chanSt n = 2 ∨ s.chanSt n = 3) → (s.chan n).retryAt = none → (a = 1 ∨ a = (s.chan n).attempt + 1) →
    a ≤ ctlRetry (s.chan n).ctl → Answers (.hostReadFail (.channel n) a img src dst none u) s fun t =>
      t.chan n = { s.chan n with attempt := a, retryAt := some (u + 2 ^ (a - 1) * 1000) } ∧ (∀ m, m ≠ n → t.chan m = s.chan m) ∧
      t.tim = s.tim.runTo u ∧ t.aer = s.aer ∧ OnlyFields [] s t) ∧
  (∀ s n a img src dst e u, s.software n = true → (s.chanSt n = 2 ∨ s.chanSt n = 3) → (s.chan n).retryAt = none →
    (a = 1 ∨ a = (s.chan n).attempt + 1) →
    a ≤ ctlRetry (s.chan n).ctl → Answers (.hostReadFail (.channel n) a img src dst (some e) u) s fun t =>
      (t.chan n).retryAt = some (u + 2 ^ (a - 1) * 1000) ∧
      t.aer = { s.aer with uncorr := nset s.aer.uncorr e.bit e.bit 1, corr := nset s.aer.corr 13 13 1 }) ∧
  (∀ s n k a b img u, k = s.chan n → s.software n = true → (s.chanSt n = 2 ∨ s.chanSt n = 3) → k.retryAt = none → (a = 1 ∨ a = k.attempt + 1) →
    ctlRetry k.ctl < a → ctlDesc k.ctl = false → ctlPace k.ctl ≠ 3 → ctlOp k.ctl = 0 → ctlSrcSp k.ctl = 0 → ctlDstSp k.ctl = 1 →
      ctlDstFix k.ctl = false →
    k.mis = none → k.wrote = none → 0 < b.length → b.length % 8 = 0 → b.length = burstLen k.ctl k.src k.dst k.cnt 0 → b.length < k.cnt →
      Memory.wf s.pool = true →
    Answers (.hostReadFail (.channel n) a img (.ok b) .failed none u) s fun t =>
      t.chanSt n = 4 ∧ t.fgetN .MOV_STS_STATUS n = stHostError ∧ t.flagN .MOV_STS_ERR n = true ∧ t.flagN .MOV_STS_HALT n = true ∧
      t.fget .MOV_GERR_HOST_ERRORS = min 65535 (s.fget .MOV_GERR_HOST_ERRORS + 1) ∧ (t.chan n).moved = b.length ∧ t.out = s.out ∧
      (∀ x, Memory.read t.pool x = if k.dst ≤ x ∧ x < k.dst + b.length then b.getD (x - k.dst) 0 else Memory.read s.pool x)) ∧
  (∀ s n k a src dst u, k = s.chan n → s.software n = true → (s.chanSt n = 2 ∨ s.chanSt n = 3) → k.retryAt = none → (a = 1 ∨ a = k.attempt + 1) →
    ctlRetry k.ctl < a → ctlDesc k.ctl = true → k.desc = none → k.redo = none → ctlDescSp k.ctl = 0 →
    s.regionStatus k.slice 0 0 (s.rd .MOV_DPTR n).toNat 32 = stOk → Answers (.hostReadFail (.channel n) a .failed src dst none u) s fun t =>
      t.chanSt n = 4 ∧ t.fgetN .MOV_STS_STATUS n = stHostError ∧ t.flagN .MOV_STS_ERR n = true ∧ t.flagN .MOV_STS_HALT n = true ∧
      t.fget .MOV_GERR_HOST_ERRORS = min 65535 (s.fget .MOV_GERR_HOST_ERRORS + 1) ∧ t.pool = s.pool ∧ t.out = s.out ∧
      OnlyFields [.MOV_STS_STATE, .MOV_STS_STATUS, .MOV_STS_ERR, .MOV_STS_HALT, .MOV_GERR_HOST_ERRORS] s t) ∧
  (∀ s r n a img src dst u, n = s.engineOf (.ringEntry r) → (s.chan n).work = none ∨ (s.chan n).work = some (.ringEntry r) → s.chanSt n ≠ 5 →
    (s.chan n).retryAt = none → (a = 1 ∨ a = (s.chan n).attempt + 1) → a ≤ s.fget .MOV_GCFG_ENG_RETRY →
    Answers (.hostReadFail (.ringEntry r) a img src dst none u) s fun t =>
      t.chanSt n = 2 ∧ (t.chan n).work = some (.ringEntry r) ∧ (t.chan n).retryAt = some (u + 2 ^ (a - 1) * 1000) ∧
        (t.chan n).slice = (s.ring r).slice ∧
      t.rd .MOV_SRC n = BitVec.ofNat 64 ((s.ring r).addr r (s.ring r).head) ∧ (∀ m, m ≠ n → t.chan m = s.chan m) ∧ t.rings = s.rings ∧
        t.out = s.out) ∧
  (∀ s r n a img src dst u, n = s.engineOf (.ringEntry r) → (s.chan n).work = none ∨ (s.chan n).work = some (.ringEntry r) → s.chanSt n ≠ 5 →
    (s.chan n).retryAt = none → (a = 1 ∨ a = (s.chan n).attempt + 1) → s.fget .MOV_GCFG_ENG_RETRY < a → (s.ring r).st ≠ 0 →
    Answers (.hostReadFail (.ringEntry r) a img src dst none u) s fun t =>
      (t.ring r).st = 3 ∧ (t.ring r).reason = 4 ∧ t.fget .MOV_GERR_HOST_ERRORS = min 65535 (s.fget .MOV_GERR_HOST_ERRORS + 1) ∧
      t.chanSt n = 0 ∧ (t.chan n).work = none) ∧
  (∀ s r n u v, n = s.engineOf (.ringEntry r) → (s.chan n).work = some (.ringEntry r) → s.chanSt n = 2 → (s.chan n).retryAt = some v → v ≤ u →
    Answers (.moverRetry (.ringEntry r) u) s fun t =>
      t.chan n = { s.chan n with retryAt := none } ∧ t.fget .MOV_GERR_RETRIES = min 65535 (s.fget .MOV_GERR_RETRIES + 1) ∧ t.rings = s.rings) ∧
  (∀ s n u v, s.software n = true → (s.chan n).retryAt = some v → v ≤ u → (s.chanSt n = 2 ∨ s.chanSt n = 3) →
    Answers (.moverRetry (.channel n) u) s fun t =>
    t.chan n = { s.chan n with retryAt := none } ∧ (∀ m, m ≠ n → t.chan m = s.chan m) ∧ t.tim = s.tim.runTo u ∧
    t.fget .MOV_GERR_RETRIES = min 65535 (s.fget .MOV_GERR_RETRIES + 1) ∧ OnlyFields [.MOV_GERR_RETRIES] s t) ∧
  (∀ s n, s.software n = true → s.chanSt n = 5 → Answers (.moverDryBoundary n) s fun t =>
    t.chanSt n = 0 ∧ t.fgetN .MOV_STS_STATUS n = stSliceReset ∧ t.flagN .MOV_STS_ERR n = true ∧
    t.chan n = { s.chan n with desc := none, redo := none, moved := 0, wrote := none } ∧
      OnlyFields [.MOV_STS_STATE, .MOV_STS_STATUS, .MOV_STS_ERR] s t) ∧
  (∀ s n, s.software n = false → s.chanSt n = 5 → Answers (.moverDryBoundary n) s fun t =>
    t.chanSt n = 0 ∧ t.fgetN .MOV_STS_STATUS n = stSliceReset ∧ t.flagN .MOV_STS_ERR n = true ∧ t.chan n = Chan.init)

/-! ### Slices and mailboxes (chapter 10) -/

/-- SLICE_ENABLE and the shares (R330, R331, R334, R352): a binding that checks is sampled and the slice is ACTIVE with nothing in its mailboxes and
its page registers at their reset values, one that does not leaves the slice FREE; rings are allotted and reclaimed; a share is due at the next tick;
a query reports what the slice holds. Completion is stated for sliceEnable, sliceRingAllot, sliceRingReclaim, sliceShare, sliceQuery. -/
def Obligations.SlicesAreEnabledAndShared : Prop :=
  (∀ s r b n, Accepted r 0x40 b s → n = cmdArg0 b % 256 → n < s.nSlices → s.sliceState n = 0 → s.bindStatus n = stOk →
    Answers (.sliceEnable r (.ok b)) s fun t =>
      Completes r b stOk 0 s t ∧ CmdsKept r s t ∧ t.sliceState n = 1 ∧ t.rd .SLT_EVT n = 0 ∧ t.rd .MBT_EVT n = 0 ∧ t.rd .MBM_EVT n = 0 ∧
      t.rd .SLT_EVT_SHADOW n = 0 ∧ t.rd .MBT_EVT_SHADOW n = 0 ∧
      t.slice n = { Slice.init with
        pasid := s.fgetN .SLC_PASID_PASID n, hbase := s.rd .SLC_HBASE n, hbaseN := ~~~ s.rd .SLC_HBASE n, hlim := s.rd .SLC_HLIM n,
        hlimN := ~~~ s.rd .SLC_HLIM n, win := s.rd .SLC_WIN n, winN := ~~~ s.rd .SLC_WIN n, cntr := s.rd .SLC_CNTR n,
        cntrN := ~~~ s.rd .SLC_CNTR n, down := ⟨[], (s.slice n).down.staging⟩ } ∧ ∀ m, m ≠ n → t.slice m = s.slice m) ∧
  (∀ s r b n, Accepted r 0x40 b s → n = cmdArg0 b % 256 → n < s.nSlices → s.sliceState n = 0 → s.bindStatus n ≠ stOk →
    Answers (.sliceEnable r (.ok b)) s fun t =>
      Completes r b (s.bindStatus n) 0 s t ∧ CmdsKept r s t ∧ t.sliceState n = 0 ∧ t.slices = s.slices) ∧
  (∀ s r b g n j, Accepted r 0x42 b s → g = cmdArg0 b % 1024 → n = cmdArg1 b % 256 → j = nfield (cmdArg1 b) 13 8 → 4 ≤ g → g < s.nRings →
    n < s.nSlices →
    (s.ring g).slice = none → s.sliceState n ≠ 0 → s.ringAt n j = none → Answers (.sliceRingAllot r (.ok b)) s fun t =>
      Completes r b stOk 0 s t ∧ CmdsKept r s t ∧ t.ring g = { s.ring g with slice := some n, dbIdx := j } ∧
      (∀ q, q ≠ r → q ≠ g → t.ring q = s.ring q) ∧ OnlyFields engineFields s t) ∧
  (∀ s r b g n, Accepted r 0x43 b s → g = cmdArg0 b % 1024 → 4 ≤ g → g < s.nRings → (s.ring g).slice = some n → (s.ring g).st = 0 →
    Answers (.sliceRingReclaim r (.ok b)) s fun t =>
      Completes r b stOk ((s.ring g).dbIdx * 256 + n) s t ∧ CmdsKept r s t ∧ t.ring g = Ring.init ∧ (∀ q, q ≠ r → q ≠ g → t.ring q = s.ring q) ∧
      OnlyFields engineFields s t) ∧
  (∀ s r b p n key, Accepted r 0x44 b s → p = nfield (cmdArg0 b) 13 8 → n = cmdArg0 b % 256 → key = 256 * p + n → p < s.nPorts → n < s.nSlices →
    cmdArg1 b % 256 ≠ 0 → s.sliceState n ≠ 0 → Answers (.sliceShare r (.ok b)) s fun t =>
      Completes r b stOk ((Tbl.find s.deal.sharePend key).getD (Tbl.get 1 s.deal.share key)) s t ∧ CmdsKept r s t ∧
      Tbl.find t.deal.sharePend key = some (cmdArg1 b % 256 + 256 * nfield (cmdArg1 b) 12 8) ∧ t.deal.share = s.deal.share ∧
      (∀ k, k ≠ key → Tbl.find t.deal.sharePend k = Tbl.find s.deal.sharePend k) ∧ OnlyFields engineFields s t) ∧
  (∀ s r b others n, Accepted r 0x4A b s → n = cmdArg0 b % 256 → n < s.nSlices → Answers (.sliceQuery r (.ok b) others) s fun t =>
    Completes r b stOk (((s.ctxsOf n).length + others) % 2 ^ 25 * 2 ^ 32 + (s.rings.filter fun x => x.2.slice == some n).length % 128 * 2 ^ 24 +
      min 0x1FFFF (s.entries.filter fun e => e.slice == n && e.forCmd.isNone && e.st != .ended).length) s t ∧ CmdsKept r s t ∧ OnlyRing r s t ∧
    OnlyFields engineFields s t)

/-- Reset, freeze and thaw (R343–R347, R352): a reset fences the slice's channels, discards its entries, its rings and its messages, and stops its
contexts; it is done when no channel is DRY, and the slice is ACTIVE again; DISABLE of a slice that nothing names is such a reset and leaves it FREE,
and one that something names completes BOUNDS; a freeze waits for a boundary and for quiet, a thaw for a boundary. Completion is stated for
sliceReset, sliceDisable, sliceResetDone, sliceFreeze, sliceFrozen, sliceThaw. -/
def Obligations.SlicesAreResetAndFrozen : Prop :=
  (∀ s r b n, Accepted r 0x45 b s → n = cmdArg0 b % 256 → n < s.nSlices → 1 ≤ s.sliceState n → s.sliceState n ≤ 3 → s.sched.batch = none →
    s.sched.queue = [] →
    (∀ e ∈ s.entries, e.slice = n → e.forCmd = none) → Answers (.sliceReset r (.ok b)) s fun t =>
      InProgress r b s t ∧ t.sliceState n = 4 ∧ t.entries = s.entries.filter (fun e => e.slice != n) ∧
      t.slice n = { s.slice n with
        resetFor := some (s.ring r).head, disabling := false, freezeCmd := none, thawCmd := none, saving := none, parkAt := none,
        discarded := (s.entries.filter fun e => e.slice == n && e.forCmd.isNone && e.st != .ended).length,
        down := { (s.slice n).down with msgs := [] }, upw := { (s.slice n).upw with msgs := [] }, releasing := false, relWb := [], relCmd := [],
          relHost := [] } ∧
      (∀ q, q ≠ 1 → (s.ring q).slice = some n → t.ring q = { Ring.init with slice := some n, dbIdx := (s.ring q).dbIdx }) ∧
      (∀ m, s.software m = true → (s.chan m).slice = some n → 1 ≤ s.chanSt m → s.chanSt m ≤ 3 → t.chanSt m = 5) ∧
      ∀ eph k, s.ctx? eph = some k → k.ctx.owner = n → (k.ctx.state = 2 ∨ k.ctx.state = 3) → t.ctxSt eph = some 4) ∧
  (∀ s r b n, Accepted r 0x41 b s → n = cmdArg0 b % 256 → n < s.nSlices → (s.sliceState n = 1 ∨ s.sliceState n = 3) → s.sched.batch = none →
    s.sched.queue = [] → (∀ e ∈ s.entries, e.slice ≠ n) → s.ctxsOf n = [] → (∀ x ∈ s.rings, x.2.slice ≠ some n) →
    (∀ x ∈ s.smp.groups, s.ringOf n x.2.ring = false) → (∀ x ∈ s.smp.streams, s.ringOf n x.2.ring = false) →
    Answers (.sliceDisable r (.ok b) 0) s fun t =>
      InProgress r b s t ∧ t.sliceState n = 4 ∧ (t.slice n).resetFor = some (s.ring r).head ∧ (t.slice n).disabling = true) ∧
  (∀ s r b others n, Accepted r 0x41 b s → n = cmdArg0 b % 256 → n < s.nSlices → (s.sliceState n = 1 ∨ s.sliceState n = 3) → others ≠ 0 →
    Answers (.sliceDisable r (.ok b) others) s fun t => Completes r b stBounds 0 s t ∧ CmdsKept r s t ∧ t.slices = s.slices ∧
      OnlyFields engineFields s t) ∧
  (∀ s n i c, (s.slice n).resetFor = some i → s.sliceState n = 4 → s.dryOf n = false → (s.slice n).disabling = false → c ∈ s.cmds → c.ring = 0 →
    c.idx = i → c.status = none → c.op = 0x45 → Answers (.sliceResetDone n) s fun t =>
      t.sliceState n = 1 ∧ t.flagN .SLT_EVT_RESET n = true ∧ t.slice n = { s.slice n with resetFor := none, disabling := false, discarded := 0 } ∧
      { c with status := some stOk, result := (s.slice n).discarded % 2 ^ 64 } ∈ t.cmds) ∧
  (∀ s n i c, (s.slice n).resetFor = some i → s.sliceState n = 4 → s.dryOf n = false → (s.slice n).disabling = true → c ∈ s.cmds → c.ring = 0 →
    c.idx = i → c.status = none → c.op = 0x41 → Answers (.sliceResetDone n) s fun t =>
      t.sliceState n = 0 ∧ (t.slice n).resetFor = none ∧ { c with status := some stOk, result := 0 } ∈ t.cmds) ∧
  (∀ s r b n, Accepted r 0x46 b s → n = cmdArg0 b % 256 → n < s.nSlices → s.sliceState n = 1 → Answers (.sliceFreeze r (.ok b)) s fun t =>
    InProgress r b s t ∧ CmdsKept r s t ∧ t.slice n = { s.slice n with freezeCmd := some (s.ring r).head } ∧
    (∀ m, m ≠ n → t.slice m = s.slice m) ∧ OnlyFields engineFields s t) ∧
  (∀ s n h i c, (s.slice n).freezeCmd = some i → s.sliceState n = 2 → s.sliceQuiet n = true → c ∈ s.cmds → c.ring = 0 → c.idx = i → c.status = none →
    c.op = 0x46 → Answers (.sliceFrozen n h) s fun t =>
      t.sliceState n = 3 ∧ t.slice n = { s.slice n with freezeCmd := none } ∧ t.ctxs = s.ctxs ∧
        { c with status := some stOk, result := 0 } ∈ t.cmds) ∧
  (∀ s r b n, Accepted r 0x47 b s → n = cmdArg0 b % 256 → n < s.nSlices → s.sliceState n = 3 → Answers (.sliceThaw r (.ok b)) s fun t =>
    InProgress r b s t ∧ CmdsKept r s t ∧ t.slice n = { s.slice n with thawCmd := some (s.ring r).head } ∧
    (∀ m, m ≠ n → t.slice m = s.slice m) ∧ OnlyFields engineFields s t)

/-- SLICE_SAVE and SLICE_RESTORE (R348, R349): the image of a FROZEN slice is written where it fits; an image without contexts, checked, makes a
FROZEN slice of a FREE one with the image's reservations. Completion is stated for sliceSave, sliceRestore. -/
def Obligations.SlicesAreSavedAndRestored : Prop :=
  (∀ s r b others n, Accepted r 0x48 b s → n = cmdArg2 b % 256 → n < s.nSlices → nfield (cmdArg1 b) 32 32 = 0 → s.sliceState n = 3 →
    (s.image n others false s.frameNo).2 ≤ 262144 → (s.imageEntries n).length ≤ 4096 →
    (s.image n others false s.frameNo).1.length ≤ cmdArg1 b % 2 ^ 32 → Answers (.sliceSave r (.ok b) others) s fun t =>
      Completes r b stOk (s.image n others false s.frameNo).1.length s t ∧ CmdsKept r s t ∧ t.sliceState n = 3 ∧ t.slices = s.slices ∧
      s.out ++ confirmed 0 (cmdArg0 b) (s.image n others false s.frameNo).1 <+: t.out) ∧
  (∀ s r b img h n, s.sched.batch = none → s.sched.queue = [] → s.sched.held = false → s.switching = false → Accepted r 0x49 b s →
    n = cmdArg2 b % 256 → n < s.nSlices → nfield (cmdArg1 b) 32 32 = 0 →
    s.sliceState n = 0 → s.bindStatus n = stOk → leNat (slice 4 4 img) = img.length → State.imageOk img = true → img.length ≤ cmdArg1 b % 2 ^ 32 →
    s.imageFits img n = true → leNat (slice 8 4 img) = 0 → leNat (slice 14 2 img) = 0 → Answers (.sliceRestore r (.ok b) (.ok img) [] [] h) s fun t =>
      Completes r b stOk 0 s t ∧ t.sliceState n = 3 ∧ (t.slice n).pasid = s.fgetN .SLC_PASID_PASID n ∧ (t.slice n).win = s.rd .SLC_WIN n ∧
      ∀ p < s.nPorts, Tbl.get 0 t.sched.res (256 * p + n) = leNat (slice (0x100 + 8 * p) 4 img))

/-- Posts and pops (R339–R342): a message of an allowed length that fits joins the mailbox and the receiver's event bit is set; another is refused and
counted; a POP removes the oldest message and the sender's event bit is set. Completion is stated for mbmPost, mbtPost, mbmPop, mbtPop. -/
def Obligations.MailboxesKeepTheirOrder : Prop :=
  (∀ s n v len, s.ready = true → s.mbxWorks n = true → len = v % 128 → len % 8 = 0 → 8 ≤ len → len ≤ 64 → (s.slice n).down.bytes + len ≤ 256 →
    Answers (.mbmPost n v) s fun t =>
      t.slice n = { s.slice n with down := { (s.slice n).down with msgs := (s.slice n).down.msgs ++ [(s.slice n).down.staged len] } } ∧
      (∀ m, m ≠ n → t.slice m = s.slice m) ∧ t.flagN .MBT_EVT_IN n = true ∧
      OnlyFields [.MBT_EVT_IN, .ICU_ERR_VEC_CONFLICT, .ICU_ERR_MSIX_OFF] s t) ∧
  (∀ s n v len, s.ready = true → s.mbxWorks n = true → len = v % 128 → len % 8 = 0 → 8 ≤ len → len ≤ 64 → (s.slice n).upw.bytes + len ≤ 256 →
    Answers (.mbtPost n v) s fun t =>
      t.slice n = { s.slice n with upw := { (s.slice n).upw with msgs := (s.slice n).upw.msgs ++ [(s.slice n).upw.staged len] } } ∧
      (∀ m, m ≠ n → t.slice m = s.slice m) ∧ t.flagN .MBM_EVT_IN n = true ∧
      OnlyFields [.MBM_EVT_IN, .ICU_ERR_VEC_CONFLICT, .ICU_ERR_MSIX_OFF] s t) ∧
  (∀ s n v, s.ready = true → s.mbxWorks n = true → (v % 128 % 8 ≠ 0 ∨ v % 128 < 8 ∨ 64 < v % 128 ∨ 256 < (s.slice n).down.bytes + v % 128) →
    Answers (.mbmPost n v) s fun t =>
      t.slices = s.slices ∧ t.flagN .MBM_EVT_POST_REFUSED n = true ∧
      t.fgetN .SLC_ERR_MBX_REFUSED n = min 65535 (s.fgetN .SLC_ERR_MBX_REFUSED n + 1)) ∧
  (∀ s n v, s.ready = true → s.mbxWorks n = true → (v % 128 % 8 ≠ 0 ∨ v % 128 < 8 ∨ 64 < v % 128 ∨ 256 < (s.slice n).upw.bytes + v % 128) →
    Answers (.mbtPost n v) s fun t =>
      t.slices = s.slices ∧ t.flagN .MBT_EVT_POST_REFUSED n = true ∧
      t.fgetN .SLC_ERR_MBX_REFUSED n = min 65535 (s.fgetN .SLC_ERR_MBX_REFUSED n + 1)) ∧
  (∀ s n v m l, s.ready = true → s.mbxWorks n = true → v % 2 = 1 → (s.slice n).upw.msgs = m :: l → Answers (.mbmPop n v) s fun t =>
    t.slice n = { s.slice n with upw := { (s.slice n).upw with msgs := l } } ∧ (∀ k, k ≠ n → t.slice k = s.slice k) ∧
    t.flagN .MBT_EVT_SPACE n = true ∧ OnlyFields [.MBT_EVT_SPACE, .ICU_ERR_VEC_CONFLICT, .ICU_ERR_MSIX_OFF] s t) ∧
  (∀ s n v m l, s.ready = true → s.mbxWorks n = true → v % 2 = 1 → (s.slice n).down.msgs = m :: l → Answers (.mbtPop n v) s fun t =>
    t.slice n = { s.slice n with down := { (s.slice n).down with msgs := l } } ∧ (∀ k, k ≠ n → t.slice k = s.slice k) ∧
    t.flagN .MBM_EVT_SPACE n = true ∧ OnlyFields [.MBM_EVT_SPACE, .ICU_ERR_VEC_CONFLICT, .ICU_ERR_MSIX_OFF] s t)

/-! ### The interrupt controller (chapter 11) -/

/-- Lines and arrays (R356, R358, R375): a firmware-internal source that is level sensitive is pending while its line is active, one that is edge
sensitive from its edge on; a pending source that is enabled, or an enabled one that is set, sends the message of its vector where it is routed to
MSI-X; PEND and EN are set and cleared by the arrays for the sources that a write names, and by a tenant for its own two; ICU_SRCCFG configures one.
Completion is stated for sourceLineChange, icuPset, icuPclr, icuEset, icuEclr, sliPset, sliPclr, sliEset, sliEclr, icuSrccfgWrite. -/
def Obligations.SourcesPendAndAreEnabled : Prop :=
  (∀ s x u, 192 ≤ x → x < 256 → x < s.nSources → (s.source x).sense = 0 → (s.source x).act = false → Answers (.sourceLineChange x true u) s fun t =>
    t.source x = { s.source x with line := true, pend := true } ∧ OnlySources [x] s t ∧ t.tim = s.tim.runTo u) ∧
  (∀ s x u, 192 ≤ x → x < 256 → x < s.nSources → (s.source x).sense = 0 → Answers (.sourceLineChange x false u) s fun t =>
    t.source x = { s.source x with line := false } ∧ OnlySources [x] s t ∧ t.tim = s.tim.runTo u) ∧
  (∀ s x u, 192 ≤ x → x < 256 → x < s.nSources → (s.source x).sense = 2 → (s.source x).line = false → (s.source x).tmode ≠ 2 →
    Answers (.sourceLineChange x true u) s fun t =>
      t.source x = { s.source x with line := true, pend := true, hwAt := some (s.at_ u).tim.now } ∧ OnlySources [x] s t) ∧
  (∀ s k m fw u, (fw = true ∨ s.ready = true) → (∀ x ∈ s.named k m fw, (s.source x).en = false) → Answers (.icuPset k m fw u) s fun t =>
    (∀ x ∈ s.named k m fw, t.source x = { s.source x with pend := (s.source x).pend || x != 0x7FF, swAt := some (s.at_ u).tim.now }) ∧
    OnlySources (s.named k m fw) s t) ∧
  (∀ s k m fw u, (fw = true ∨ s.ready = true) → (∀ x ∈ s.named k m fw, (s.source x).en = false) → Answers (.icuPclr k m fw u) s fun t =>
    (∀ x ∈ s.named k m fw, t.source x = { s.source x with pend := ((s.source x).pend && (s.source x).hwAt == some (s.at_ u).tim.now) ||
      (x != 0x7FF && s.levelActive x && !(s.source x).act) }) ∧ OnlySources (s.named k m fw) s t) ∧
  (∀ s k m fw u, (fw = true ∨ s.ready = true) → (∀ x ∈ s.named k m fw, (s.source x).pend = false) → Answers (.icuEset k m fw u) s fun t =>
    (∀ x ∈ s.named k m fw, t.source x = { s.source x with en := true }) ∧ OnlySources (s.named k m fw) s t ∧ t.out = s.out) ∧
  (∀ s k m fw u x e, (fw = true ∨ s.ready = true) → s.named k m fw = [x] → s.sliceSource x = none → (s.source x).pend = true →
    (s.source x).en = false →
    (s.source x).tmode = 2 → (s.source x).sense ≤ 1 → e = (s.source x).vector → (e / 8 < s.nSlices → s.sliceState (e / 8) = 0) →
      s.icu.msixEn = true → s.icu.fmask = false →
    (s.vector e).mask = false → (s.vector e).cnt ≤ 1 → Answers (.icuEset k m fw u) s fun t =>
      t.source x = { s.source x with en := true } ∧ t.out = s.out ++ [.msix e (s.vector e).addr (s.vector e).data]) ∧
  (∀ s k m fw u x e, (fw = true ∨ s.ready = true) → s.named k m fw = [x] → x ≠ 0x7FF → s.sliceSource x = none → (s.source x).pend = false →
    (s.source x).en = true →
    (s.source x).tmode = 2 → (s.source x).sense ≤ 1 → e = (s.source x).vector → (e / 8 < s.nSlices → s.sliceState (e / 8) = 0) →
      s.icu.msixEn = true → s.icu.fmask = false →
    (s.vector e).mask = false → (s.vector e).cnt ≤ 1 → Answers (.icuPset k m fw u) s fun t =>
      (t.source x).pend = true ∧ t.out = s.out ++ [.msix e (s.vector e).addr (s.vector e).data]) ∧
  (∀ s k m fw u, (fw = true ∨ s.ready = true) → Answers (.icuEclr k m fw u) s fun t =>
    (∀ x ∈ s.named k m fw, t.source x = { s.source x with en := false }) ∧ OnlySources (s.named k m fw) s t ∧ t.out = s.out) ∧
  (∀ s n m u, s.ready = true → n < s.nSlices → s.sliceState n ≠ 0 → (∀ i < 2, (s.source (256 + 2 * n + i)).en = false) →
    Answers (.sliPset n m u) s fun t => (∀ i < 2, t.source (256 + 2 * n + i) =
      { s.source (256 + 2 * n + i) with
        pend := (s.source (256 + 2 * n + i)).pend || nfield m i i == 1,
        swAt := if nfield m i i = 1 then some (s.at_ u).tim.now else (s.source (256 + 2 * n + i)).swAt }) ∧
      OnlySources [256 + 2 * n, 256 + 2 * n + 1] s t) ∧
  (∀ s n m u, s.ready = true → n < s.nSlices → s.sliceState n ≠ 0 → (∀ i < 2, s.levelActive (256 + 2 * n + i) = false) →
    Answers (.sliPclr n m u) s fun t => (∀ i < 2, t.source (256 + 2 * n + i) =
      { s.source (256 + 2 * n + i) with
        pend := (s.source (256 + 2 * n + i)).pend && (nfield m i i != 1 || (s.source (256 + 2 * n + i)).hwAt == some (s.at_ u).tim.now) }) ∧
      OnlySources [256 + 2 * n, 256 + 2 * n + 1] s t) ∧
  (∀ s n m u, s.ready = true → n < s.nSlices → s.sliceState n ≠ 0 → Answers (.sliEset n m u) s fun t =>
    (∀ i < 2, (t.source (256 + 2 * n + i)).en = ((s.source (256 + 2 * n + i)).en || nfield m i i == 1)) ∧
    OnlySources [256 + 2 * n, 256 + 2 * n + 1] s t) ∧
  (∀ s n m u, s.ready = true → n < s.nSlices → s.sliceState n ≠ 0 → Answers (.sliEclr n m u) s fun t =>
    (∀ i < 2, t.source (256 + 2 * n + i) = { s.source (256 + 2 * n + i) with en := (s.source (256 + 2 * n + i)).en && nfield m i i != 1 }) ∧
    OnlySources [256 + 2 * n, 256 + 2 * n + 1] s t ∧ t.out = s.out) ∧
  (∀ s fw v x u, x = fw.getD (s.fget .ICU_SRCSEL_SOURCE) → (fw = none → s.ready = true) → x < s.nSources → (fw.isSome = true ↔ 192 ≤ x ∧ x < 256) →
    s.sliceSource x = none → nfield v 31 30 ≠ 3 → (nfield v 31 30 = 1 → 192 ≤ x ∧ x < 256) → nfield v 13 11 ≤ 4 → (s.source x).en = false →
    Answers (.icuSrccfgWrite fw v u) s fun t =>
      t.source x = { s.source x with
        tmode := nfield v 31 30, cores := nfield v 29 26, vector := nfield v 24 14, sense := nfield v 13 11, prio := v % 256,
        pend := (s.source x).pend || (x != 0x7FF && !(s.source x).act &&
          ((nfield v 13 11 == 0 && s.lineOf x) || (nfield v 13 11 == 1 && !s.lineOf x))) } ∧ OnlySources [x] s t ∧ t.out = s.out) ∧
  (∀ s v u, s.ready = true → s.fget .ICU_SRCSEL_SOURCE < s.nSources → (s.fget .ICU_SRCSEL_SOURCE < 192 ∨ 256 ≤ s.fget .ICU_SRCSEL_SOURCE) →
    nfield v 31 30 = 3 → Answers (.icuSrccfgWrite none v u) s fun t =>
      t.icu = s.icu ∧ t.fget .ICU_ERR_CFG_REFUSED = min 255 (s.fget .ICU_ERR_CFG_REFUSED + 1) ∧ OnlyFields [.ICU_ERR_CFG_REFUSED] s t)

/-- The supervisor cores (R361, R362, R364, R365, R421): a claim makes the source active and answers its number, and one without a source answers 7FFH
and is counted; ICU_DONE ends the handler; a core that returns reloads its registers; the fourth WAIT makes the controller IDLE or starts the entry.
Completion is stated for icuClaim, icuDone, coreReturn, coreWait. -/
def Obligations.CoresClaimAndReturn : Prop :=
  (∀ s n x u, n < 4 → s.claimed n = some x → Answers (.icuClaim n u) s fun t =>
    t.source x = { s.source x with act := true, pend := (s.source x).swAt == some (s.at_ u).tim.now, claimPrio := (s.source x).prio, onCore := n } ∧
      OnlySources [x] s t ∧
    t.fgetN .ICU_CORESTS_RP n = t.runningPrio n ∧ t.out = s.out ++ [.readData (BitVec.ofNat 64 x)] ∧ t.tim = s.tim.runTo u) ∧
  (∀ s n u, n < 4 → s.claimed n = none → Answers (.icuClaim n u) s fun t =>
    t.icu.sources = s.icu.sources ∧ t.fgetN .ICU_CMOD_SPUR n = min 255 (s.fgetN .ICU_CMOD_SPUR n + 1) ∧ t.out = s.out ++ [.readData 0x7FF]) ∧
  (∀ s n x u, n < 4 → x < s.nSources → (s.source x).act = true → (s.source x).onCore = n → s.levelActive x = false →
    Answers (.icuDone n x u) s fun t =>
    t.source x = { s.source x with act := false } ∧ OnlySources [x] s t ∧ t.fgetN .ICU_CORESTS_RP n = t.runningPrio n ∧ t.out = s.out) ∧
  (∀ s n x u, n < 4 → (s.source x).act = false → Answers (.icuDone n x u) s fun t =>
    t.icu = s.icu ∧ t.fgetN .ICU_CORESTS_BAD_DONE n = min 7 (s.fgetN .ICU_CORESTS_BAD_DONE n + 1) ∧ OnlyFields [.ICU_CORESTS_BAD_DONE] s t) ∧
  (∀ s n u, n < 4 → 0 < ((s.at_ u).coreNow n).depth → s.unoffered = [] → Answers (.coreReturn n u) s fun t =>
    t.core n = { (s.at_ u).coreNow n with st := .exiting, since := u, held := (t.core n).held } ∧
    (∀ m, m ≠ n → t.core m = { s.core m with held := (t.core m).held }) ∧ t.icu.sources = s.icu.sources ∧
    OnlyFields [] s t) ∧
  (∀ s n k mode u, n < 4 → k < 4 → k ≠ n → s.flagN .ICU_CORESTS_WAIT k = false → s.offersHeld = false → mode ≤ 4 →
    Answers (.coreWait n mode u) s fun t =>
    t.flagN .ICU_CORESTS_WAIT n = true ∧ t.fget .PWR_MODE_MODE = mode ∧ t.fget .PWR_STS_MODE = mode ∧ t.fget .PWR_STS_STATE = s.fget .PWR_STS_STATE ∧
    OnlyFields [.ICU_CORESTS_WAIT, .PWR_MODE_MODE, .PWR_STS_MODE] s t) ∧
  (∀ s n u, n < 4 → (∀ k < 4, k ≠ n → s.flagN .ICU_CORESTS_WAIT k = true) → s.offersHeld = false → Answers (.coreWait n 1 u) s fun t =>
    t.fget .PWR_STS_STATE = 1 ∧ t.pwr = s.pwr ∧ OnlyFields [.ICU_CORESTS_WAIT, .PWR_MODE_MODE, .PWR_STS_MODE, .PWR_STS_STATE] s t) ∧
  (∀ s n mode u, n < 4 → (∀ k < 4, k ≠ n → s.flagN .ICU_CORESTS_WAIT k = true) → s.offersHeld = false → 2 ≤ mode → mode ≤ 4 → s.pwr.requested = true →
    mode = s.fget .PWR_STS_TARGET → s.pwr.abortBy = none → Answers (.coreWait n mode u) s fun t =>
      EntryAt 1 t ∧ t.pwr = { s.pwr with requested := false } ∧
      OnlyFields [.ICU_CORESTS_WAIT, .PWR_MODE_MODE, .PWR_STS_MODE, .PWR_STS_ENTERING, .PWR_STS_APOINT] s t)

/-- MSI-X vectors (R370–R373): at the end of its moderation time a vector sends its message, holds it while masked, or while its slice is frozen; idle
hints are set, and one in the cycle of the first request ends the moderation at once; an unmask sends what was held; the function's own mask and
enable are taken over. Completion is stated for vectorModerationTimeout, sliIdleWrite, icuVstsWrite, msixUnmask. -/
def Obligations.VectorsModerateTheirMessages : Prop :=
  (∀ s e u, s.icu.msixEn = true → 0 < (s.vector e).reqs → (s.vector e).held = false → (s.vector e).first + (s.vector e).timeUs * 1000 ≤ u →
    (e / 8 < s.nSlices → s.sliceHeld (e / 8) = false) → (s.vector e).mask = false → s.icu.fmask = false →
    Answers (.vectorModerationTimeout e u) s fun t =>
      t.out = s.out ++ [.msix e (s.vector e).addr (s.vector e).data] ∧
      t.vector e = { s.vector e with
        reqs := 0, idle := (s.vector e).idle && (s.vector e).idleAt == some (s.at_ u).tim.now, held := false, pba := false } ∧
      ∀ k, k ≠ e → t.vector k = s.vector k) ∧
  (∀ s e u, s.icu.msixEn = true → 0 < (s.vector e).reqs → (s.vector e).held = false → (s.vector e).first + (s.vector e).timeUs * 1000 ≤ u →
    (e / 8 < s.nSlices → s.sliceHeld (e / 8) = false) → (s.vector e).mask = true → Answers (.vectorModerationTimeout e u) s fun t =>
      t.out = s.out ∧ t.vector e = { s.vector e with held := true, pba := true } ∧ ∀ k, k ≠ e → t.vector k = s.vector k) ∧
  (∀ s e u, s.icu.msixEn = true → 0 < (s.vector e).reqs → (s.vector e).held = false → (s.vector e).first + (s.vector e).timeUs * 1000 ≤ u →
    e / 8 < s.nSlices → s.sliceHeld (e / 8) = true → Answers (.vectorModerationTimeout e u) s fun t =>
      t.out = s.out ∧ t.vector e = { s.vector e with held := true } ∧ ∀ k, k ≠ e → t.vector k = s.vector k) ∧
  (∀ s n m u, s.ready = true → n < s.nSlices → s.sliceState n ≠ 0 →
    (∀ v < 8, (s.vector (8 * n + v)).reqs = 0 ∨ (s.vector (8 * n + v)).reqAt ≠ some (s.at_ u).tim.now) → Answers (.sliIdleWrite n m u) s fun t =>
    (∀ v < 8, t.vector (8 * n + v) = if nfield m v v = 1 then { s.vector (8 * n + v) with idle := true, idleAt := some (s.at_ u).tim.now }
      else s.vector (8 * n + v)) ∧
    (∀ e, (e < 8 * n ∨ 8 * n + 8 ≤ e) → t.vector e = s.vector e) ∧ t.out = s.out ∧ t.tim = s.tim.runTo u) ∧
  (∀ s e v u, s.ready = true → nfield v 31 31 = 1 → e = s.fget .ICU_VSEL_VECTOR →
    (s.vector e).reqs = 0 ∨ (s.vector e).reqAt ≠ some (s.at_ u).tim.now →
    Answers (.icuVstsWrite v u) s fun t =>
    t.vector e = { s.vector e with idle := true, idleAt := some (s.at_ u).tim.now } ∧ (∀ k, k ≠ e → t.vector k = s.vector k) ∧ t.out = s.out) ∧
  (∀ s e v u, s.ready = true → nfield v 31 31 = 1 → e = s.fget .ICU_VSEL_VECTOR → 0 < (s.vector e).reqs →
    (s.vector e).reqAt = some (s.at_ u).tim.now →
    (s.vector e).held = false → s.icu.msixEn = true → s.icu.fmask = false → (s.vector e).mask = false →
    (e / 8 < s.nSlices → s.sliceHeld (e / 8) = false) → Answers (.icuVstsWrite v u) s fun t =>
    t.out = s.out ++ [.msix e (s.vector e).addr (s.vector e).data] ∧ (t.vector e).reqs = 0 ∧ (t.vector e).idle = false) ∧
  (∀ s e en fm u, s.ready = true → (s.vector e).pba = false → Answers (.msixUnmask (some e) en fm u) s fun t =>
    t.vector e = { s.vector e with mask := false } ∧ (∀ k, k ≠ e → t.vector k = s.vector k) ∧ t.out = s.out ∧ t.tim = s.tim.runTo u) ∧
  (∀ s e en fm u, s.ready = true → (s.vector e).pba = true → (e / 8 < s.nSlices → s.sliceHeld (e / 8) = false) → s.icu.msixEn = true →
    s.icu.fmask = false → Answers (.msixUnmask (some e) en fm u) s fun t =>
      t.out = s.out ++ [.msix e (s.vector e).addr (s.vector e).data] ∧
      t.vector e = { s.vector e with
        mask := false, reqs := 0, idle := (s.vector e).idle && (s.vector e).idleAt == some (s.at_ u).tim.now, held := false, pba := false }) ∧
  (∀ s en fm u, (∀ x ∈ s.icu.vectors, x.2.pba = false) → Answers (.msixUnmask none en fm u) s fun t =>
    t.icu = { s.icu with msixEn := en, fmask := fm } ∧ t.out = s.out ∧ t.tim = s.tim.runTo u)

/-! ### Clearing reads (R467, R468) -/

/-- A full-width read of an event register returns it, copies it to its shadow and clears its RC fields; before the start is complete a read beyond
the GCTL, HLT and SEC blocks returns 0 and changes nothing (R439). Completion is stated for timEvtRead, prtChgRead, schAdmEvtRead, gthEvtRead,
cdrEvtRead, movStsRead, movGevtRead, mbmEvtRead, mbtEvtRead, sltEvtRead, twnEvtRead, pwrEvtRead, hltEvtRead, secEvtRead, gctlAccessErrRead. -/
def Obligations.EventReadsClearAndShadow : Prop :=
  (∀ s b, s.ready = true → Answers (.timEvtRead b) s (Cleared .TIM_EVT .TIM_EVT_SHADOW 0 b s)) ∧
  (∀ s n b, s.ready = true → n < s.nPorts → Answers (.prtChgRead n b) s (Cleared .PRT_CHG .PRT_CHG_SHADOW n b s)) ∧
  (∀ s b, s.ready = true → Answers (.schAdmEvtRead b) s (Cleared .SCH_ADM_EVT .SCH_ADM_EVT_SHADOW 0 b s)) ∧
  (∀ s b, s.ready = true → Answers (.gthEvtRead b) s (Cleared .GTH_EVT .GTH_EVT_SHADOW 0 b s)) ∧
  (∀ s b, s.ready = true → Answers (.cdrEvtRead b) s (Cleared .CDR_EVT .CDR_EVT_SHADOW 0 b s)) ∧
  (∀ s n b, s.ready = true → Answers (.movStsRead n b) s (Cleared .MOV_STS .MOV_STS_SHADOW n b s)) ∧
  (∀ s b, s.ready = true → Answers (.movGevtRead b) s (Cleared .MOV_GEVT .MOV_GEVT_SHADOW 0 b s)) ∧
  (∀ s n b, s.ready = true → n < s.nSlices → Answers (.mbmEvtRead n b) s (Cleared .MBM_EVT .MBM_EVT_SHADOW n b s)) ∧
  (∀ s n b, s.ready = true → n < s.nSlices → s.sliceState n ≠ 0 → Answers (.mbtEvtRead n b) s (Cleared .MBT_EVT .MBT_EVT_SHADOW n b s)) ∧
  (∀ s n b, s.ready = true → n < s.nSlices → s.sliceState n ≠ 0 → Answers (.sltEvtRead n b) s (Cleared .SLT_EVT .SLT_EVT_SHADOW n b s)) ∧
  (∀ s b, s.ready = true → Answers (.twnEvtRead b) s (Cleared .TWN_EVT .TWN_EVT_SHADOW 0 b s)) ∧
  (∀ s b, s.ready = true → Answers (.pwrEvtRead b) s (Cleared .PWR_EVT .PWR_EVT_SHADOW 0 b s)) ∧
  (∀ s b, Answers (.hltEvtRead b) s (Cleared .HLT_EVT .HLT_EVT_SHADOW 0 b s)) ∧
  (∀ s b, Answers (.secEvtRead b) s (Cleared .SEC_EVT .SEC_EVT_SHADOW 0 b s)) ∧
  (∀ s w, Answers (.gctlAccessErrRead w) s (Cleared .GCTL_ACCESS_ERR .GCTL_ACCESS_ERR_SHADOW 0 false s)) ∧
  (∀ s n b, s.ready = false → Answers (.prtChgRead n b) s fun t => t.out = s.out ++ [.readData 0] ∧ t.icu = s.icu ∧ OnlyFields [] s t)

/-! ### The twin pair (chapter 12) -/

/-- The twin link (R376–R380, R388, R392, R396): a message reads as it was made; enabling samples the configuration of the pair; one with a header
error has no effect, one with a CRC error is asked for again, and the one that is expected is acknowledged; a BEAT restarts the count of missed ones
and decides the pair state; ACK frees what it names, RETRY and the replay timeout replay what is not acknowledged, and the link falls after eight
replays from one LSEQ or an MCONF 100 µs late. Completion is stated for beatReceive, twinEnable, twinLinkUp, twinLinkDown, beatMissed, twinAckReceive,
twinRetryReceive, replayTimeout, mconfLate. -/
def Obligations.TwinLinkRuns : Prop :=
  (∀ kind lseq p, kind < 256 → lseq < 4096 → twinLenOk kind p.length = true → (twinLoose kind = true → lseq = 0) →
    twinRead (twinMsg kind lseq p) = .msg kind lseq p) ∧
  (∀ s m u, twinRead m = .header → Answers (.beatReceive m u) s fun t => t = s.at_ u) ∧
  (∀ s m u, s.twin.enabled = true → s.linkUp = true → twinRead m = .crc 0x10 → s.twin.retryVal ≠ some s.twin.rxSeq →
    Answers (.beatReceive m u) s fun t =>
      t.twin = { s.twin with retryVal := some s.twin.rxSeq, retryAt := u } ∧ t.out = s.out ++ [.twin 2 0 (leBytes 4 s.twin.rxSeq)] ∧
        OnlyFields [] s t) ∧
  (∀ s v, s.ready = true → s.hasTwin = true → s.flag .TWN_CFG_ENABLE = false → nfield v 16 16 = 1 →
    (s.rd .TWN_CFG_N 0).toNat = 2 ^ 32 - 1 - (65536 + v % 65536) → s.pairOk .TWN_GEN .TWN_GEN_N 0 32 = true →
    (∀ n < s.nPorts, s.pairOk .TWN_PMAP .TWN_PMAP_N n 32 = true) → Answers (.twinEnable v) s fun t =>
      t.flag .TWN_CFG_ENABLE = true ∧ t.fget .TWN_CFG_PAIR_ID = v % 65536 ∧ OnlyFields [.TWN_CFG_ENABLE, .TWN_CFG_PAIR_ID] s t ∧
      t.twin = { s.twin with
        enabled := true, pairId := v % 65536, gen := s.fget .TWN_GEN_GEN,
        pmap := (upto s.nPorts).filterMap fun n => if s.fgetN .TWN_PMAP_VALID n = 1 then some (n, s.fgetN .TWN_PMAP_PARTNER n) else none }) ∧
  (∀ s v, s.ready = true → s.hasTwin = true → s.flag .TWN_CFG_ENABLE = true → nfield v 16 16 = 0 → Answers (.twinEnable v) s fun t =>
    t.flag .TWN_CFG_ENABLE = false ∧ t.twin.enabled = false ∧ t.twin.replay = [] ∧ t.twin.queue = [] ∧ t.linkUp = false) ∧
  (∀ s, s.twin.enabled = true → s.twin.peerRx ≠ 0 → s.twin.peerHeard = true → Answers .twinLinkUp s fun t => t.linkUp = true ∧
    OnlyFields [.TWN_STS_LINK_UP] s t) ∧
  (∀ s, s.linkUp = true → Answers .twinLinkDown s fun t =>
    t.linkUp = false ∧ OnlyFields [.TWN_STS_LINK_UP] s t ∧ t.twin = { s.twin with
      txSeq := 0, rxSeq := 0, replay := [], queue := [], replayCnt := 0, replayFrom := 0, retryVal := none, heldEvents := [],
      pairNext := some (0, 0), peerRx := 0, peerTx := 0, peerHeard := false }) ∧
  (∀ s m lseq p u, s.twin.enabled = true → twinRead m = .msg 0x10 lseq p → (s.linkUp = true → lseq = s.twin.rxSeq) →
    Answers (.beatReceive m u) s fun t =>
    t.twin.rxSeq = (lseq + 1) % 4096 ∧ t.twin.missed = 0 ∧ t.twin.peerTx = leNat (slice 16 8 p) ∧ t.twin.peerRx = u ∧
    t.twin.peerOwned = leNat (slice 40 8 p) ∧ t.twin.peerWarm = leNat (slice 48 8 p) ∧ t.fget .TWN_STS_PEER_MAJOR = leNat (slice 8 1 p) ∧
    t.fget .TWN_STS_PEER_MINOR = leNat (slice 9 1 p) ∧ t.fget .TWN_STS_PEER_QCLASS = leNat (slice 10 1 p) % 8 ∧
    t.twin.pairNext = some (if s.linkUp = false then (0, 0) else if leNat (slice 12 4 p) ≠ s.twin.pairId then (1,
      1) else if leNat (slice 8 1 p) ≠ s.fwSlot.major then (1, 2)
      else if leNat (slice 4 4 p) ≠ s.twin.gen then (2, 0) else (3, 0)) ∧
    s.out ++ [.twin 1 0 (leBytes 4 (lseq % 4096))] <+: t.out ∧ t.tim = s.tim.runTo u) ∧
  (∀ s u, s.twin.enabled = true → Answers (.beatMissed u) s fun t =>
    t.twin.missed = s.twin.missed + 1 ∧ t.flag .TWN_EVT_BEAT_MISSED = true ∧
    t.fget .TWN_CNT_BEAT_MISSED = min 65535 (s.fget .TWN_CNT_BEAT_MISSED + 1) ∧ t.tim = s.tim.runTo u) ∧
  (∀ s m w p lseq l k r, s.twin.enabled = true → twinRead m = .msg 1 w p → lseq = leNat p % 4096 → s.twin.replay = l ++ k :: r →
    (∀ x ∈ l, x.lseq ≠ lseq) → k.lseq = lseq → s.twin.queue = [] → Answers (.twinAckReceive m) s fun t =>
    t.twin = { s.twin with replay := r, replayCnt := 0 } ∧ t.out = s.out) ∧
  (∀ s m w p lseq l k r, s.twin.enabled = true → twinRead m = .msg 2 w p → lseq = leNat p % 4096 → s.linkUp = true →
    (s.twin.replayCnt < 8 ∨ s.twin.replayFrom ≠ lseq) → s.twin.replay = l ++ k :: r → (∀ x ∈ l, x.lseq ≠ lseq) →
    k.lseq = lseq → Answers (.twinRetryReceive m) s fun t =>
      t.out = s.out ++ (k :: r).map (fun k => .twin k.msg.kind k.lseq k.msg.payload) ∧
      t.twin = { s.twin with replayFrom := lseq, replayCnt := if s.twin.replayFrom = lseq then s.twin.replayCnt + 1 else 1 } ∧ t.linkUp = true) ∧
  (∀ s m w p, s.twin.enabled = true → twinRead m = .msg 2 w p → s.linkUp = true → 8 ≤ s.twin.replayCnt → s.twin.replayFrom = leNat p % 4096 →
    Answers (.twinRetryReceive m) s fun t =>
    t.linkUp = false ∧ t.twin.pairNext = some (0, 0) ∧ t.out = s.out) ∧
  (∀ s u x k r, s.linkUp = true → s.twin.replay = k :: r → (s.twin.replayCnt < 8 ∨ s.twin.replayFrom ≠ k.lseq) →
    Answers (.replayTimeout none u x) s fun t =>
      t.out = s.out ++ (k :: r).map (fun k => .twin k.msg.kind k.lseq k.msg.payload) ∧
      t.twin = { s.twin with replayFrom := k.lseq, replayCnt := if s.twin.replayFrom = k.lseq then s.twin.replayCnt + 1 else 1 } ∧
        t.tim = s.tim.runTo u) ∧
  (∀ s u x, s.linkUp = true → x ∈ s.twin.mirrored → x.2 + 100000 ≤ u → Answers (.mconfLate u) s fun t =>
    t.linkUp = false ∧ t.twin.pairNext = some (0, 0) ∧ t.tim = s.tim.runTo u) ∧
  (∀ s u, (∀ x ∈ s.twin.mirrored, u < x.2 + 100000) → Answers (.mconfLate u) s fun t => t.twin = s.twin ∧ OnlyFields [] s t)

/-- Shadows, mirrors and hand-over (R386–R392, Table 12.8): the standby applies a SHADOW record to its shadow context, and END makes the tree WARM; it
stores an intent and confirms it; the owner takes the confirmation; a HANDOVER is sent once for a loss, and one for frame S claims the WARM trees it
names. Completion is stated for shadowReceive, mirrorReceive, mconfReceive, handoverSend, handoverReceive. -/
def Obligations.PartnersShadowAndMirror : Prop :=
  (∀ s m p h w0 b4 n eph k, TwinTakes 0x11 m p s → s.paired = true → p.length = 16 → w0 = leNat (slice 0 4 p) → b4 = leNat (slice 4 1 p) →
    leNat (slice 12 4 p) = 2 ^ 32 - 1 - w0 → s.fromPartner (Eph.port w0) = some n → n < 64 → s.shared n = true → s.owns n = false →
    eph = ephPort (w0 % 2 ^ 25) n → s.ctx? eph = some k → k.ctx.shadow = true → Answers (.shadowReceive m h) s fun t =>
      (∃ k', t.ctx? eph = some k' ∧ k'.ctx.state = b4 / 16 ∧ k'.ctx.toggle = nfield b4 3 3 ∧ k'.ctx.pingNeeded = (nfield b4 2 2 == 1)) ∧
      (∀ e, e ≠ eph → t.ctx? e = s.ctx? e) ∧ t.warm n = (s.warm n || nfield b4 0 0 == 1) ∧ t.fget .TWN_OWNED_OWNED = s.fget .TWN_OWNED_OWNED ∧
      t.twin.rxSeq = (s.twin.rxSeq + 1) % 4096) ∧
  (∀ s m p h, TwinTakes 0x11 m p s → s.paired = false → Answers (.shadowReceive m h) s fun t =>
    t.twin = { s.twin with rxSeq := (s.twin.rxSeq + 1) % 4096, retryVal := none } ∧ t.ctxs = s.ctxs ∧ OnlyFields [] s t ∧
    t.out = s.out ++ [.twin 1 0 (leBytes 4 s.twin.rxSeq)]) ∧
  (∀ s b p m n eph k, TwinTakes 0x12 b p s → s.paired = true → m = leNat (slice 8 4 p) → m = s.twin.mseqRx → leNat (slice 0 1 p) = 1 →
    s.fromPartner (Eph.port (leNat (slice 4 4 p))) = some n → eph = ephPort (leNat (slice 4 4 p) % 2 ^ 25) n → s.ctx? eph = some k →
      k.ctx.shadow = true →
    s.twin.queue = [] → s.twin.replay = [] → Answers (.mirrorReceive b) s fun t =>
      Tbl.find t.twin.intents eph = some ⟨leNat (slice 1 1 p) % 2, leNat (slice 16 8 p), slice 24 (leNat (slice 2 2 p)) p⟩ ∧
      t.twin.mseqRx = (m + 1) % 2 ^ 32 ∧ t.ctxs = s.ctxs ∧
      t.out = s.out ++ [.twin 1 0 (leBytes 4 s.twin.rxSeq), .twin 0x13 s.twin.txSeq (leBytes 4 m ++ leBytes 4 0)]) ∧
  (∀ s b p u m, Quiet s → TwinTakes 0x13 b p s → s.paired = true → m = leNat (p.take 4) → s.twin.heldEvents = [] →
    Answers (.mconfReceive b u) s fun t =>
    t.twin.confirmed = (m + 1) % 2 ^ 32 ∧ t.twin.mirrored = s.twin.mirrored.filter (fun x => later32 x.1 m) ∧ t.ctxs = s.ctxs ∧
      t.entries = s.entries ∧
    s.fget .TWN_DLY_MCONF_MAX ≤ t.fget .TWN_DLY_MCONF_MAX ∧ OnlyFields [.TWN_DLY_MCONF_MAX] s t) ∧
  (∀ s n q, Tbl.find s.twin.pmap n = some q → s.paired = true → s.shared n = true → s.owns n = true → (s.tree n).handed = false →
    2 ≤ (s.tree n).outTicks → s.twin.enabled = true → s.twin.queue = [] → s.twin.replay = [] → Answers (.handoverSend n) s fun t =>
      t.tree n = { s.tree n with handed := true, silent := true } ∧ OnlyTree n s t ∧
      t.out = s.out ++ [.twin 0x14 s.twin.txSeq (leBytes 8 (2 ^ q) ++ leBytes 8 0)]) ∧
  (∀ s n, ((s.tree n).handed = true ∨ (s.tree n).outTicks < 2) → Answers (.handoverSend n) s fun t => t.twin = s.twin ∧ t.out = s.out) ∧
  (∀ s b p u n w, TwinTakes 0x14 b p s → w = leNat (slice 8 4 p) → w ≠ 0 → n < s.nPorts → s.shared n = true → s.owns n = false → s.warm n = true →
    nfield (leNat (p.take 8)) n n = 1 → Answers (.handoverReceive b u) s fun t =>
      (t.tree n).claim = some (false, w) ∧ (t.tree n).takeAt = some w ∧ (t.tree n).byPolicy = false ∧
      (t.tree n).msg.map Linkctl.typ = some (if (s.tree n).known then 0x12 else 0x10))

/-- The token (R383–R385, R391, R393): messages are repeated, and lapse after 100 µs, but TOKEN_RELEASE is repeated until its frame; a grant of the
outstanding claim makes the tree owned from the first frame that it allows; a denial leaves it and is reported; TOKEN_LOST ends the ownership,
completes what is pending and leaves the tree COLD. Completion is stated for tokenMsgRepeat, tokenStateReceive, tokenGrantReceive, tokenDenyReceive,
tokenLostReceive. -/
def Obligations.TokensMakeTheOwner : Prop :=
  (∀ s n u m, (s.tree n).msg = some m → n < s.nPorts → u ≤ (s.tree n).msgAt + 100000 → FreeToSend (.port (.root n)) 16 (s.at_ u) →
    Answers (.tokenMsgRepeat n false u) s fun t =>
    t.twin = s.twin ∧ t.out = s.out ++ [.send (.port (.root n)) (s.link (.port (.root n))).rate (linkctl m.typ 0 m.arg m.frameNo)] ∧
      t.tim = s.tim.runTo u) ∧
  (∀ s n u m, (s.tree n).msg = some m → (s.tree n).msgAt + 100000 < u → (s.tree n).claim = none → Answers (.tokenMsgRepeat n false u) s fun t =>
    t.tree n = { s.tree n with msg := none } ∧ OnlyTree n s t ∧ t.out = s.out) ∧
  (∀ s n u m, (s.tree n).msg = some m → (s.tree n).msgAt + 100000 < u → (s.tree n).claim.isSome = true → (s.tree n).cmd = none →
    Answers (.tokenMsgRepeat n false u) s fun t =>
      t.tree n = { s.tree n with msg := none, claim := none, byPolicy := false, cmd := none, notBefore := 0 } ∧ OnlyTree n s t ∧ t.out = s.out) ∧
  (∀ s n u m, (s.tree n).rel = some m → n < s.nPorts → later32 m.frameNo s.frameNo = true → FreeToSend (.port (.root n)) 16 (s.at_ u) →
    Answers (.tokenMsgRepeat n true u) s fun t =>
    t.twin = s.twin ∧ t.out = s.out ++ [.send (.port (.root n)) (s.link (.port (.root n))).rate (linkctl m.typ 0 m.arg m.frameNo)] ∧
      t.tim = s.tim.runTo u) ∧
  (∀ s n u m, (s.tree n).rel = some m → later32 m.frameNo s.frameNo = false → Answers (.tokenMsgRepeat n true u) s fun t =>
    t.tree n = { s.tree n with rel := none } ∧ OnlyTree n s t ∧ t.out = s.out) ∧
  (∀ s n arg u, s.shared n = true → nfield arg 19 19 = 0 → s.owns n = false → (s.tree n).msg = none → Answers (.tokenStateReceive n arg u) s fun t =>
    t.tree n = { s.tree n with epoch := arg % 65536, holder := nfield arg 17 16, you := false, known := true } ∧ OnlyTree n s t ∧
    t.tim = s.tim.runTo u ∧ OnlyFields [] s t) ∧
  (∀ s n arg u, n < 64 → s.shared n = true → nfield arg 19 19 = 1 → s.owns n = false → (s.tree n).msg = none →
    Answers (.tokenStateReceive n arg u) s fun t =>
    t.owns n = true ∧ t.warm n = false ∧ (t.tree n).you = true ∧ (t.tree n).full = true ∧ (t.tree n).ownFrom.isSome = true ∧
    t.flag .TWN_EVT_TAKEOVER = true) ∧
  (∀ s n arg f u m first, n < 64 → s.owns n = false → (s.tree n).msg = some m → m.typ = 0x12 → m.arg % 65536 = arg % 65536 → (s.tree n).cmd = none →
    first = frameNumber s.frate (tickFrom s.frate (max (u + 1000) (s.tree n).notBefore)) → Answers (.tokenGrantReceive n arg f u) s fun t =>
      t.owns n = true ∧ t.warm n = false ∧ t.flag .TWN_EVT_TAKEOVER = true ∧ (∀ k < 64, k ≠ n → t.owns k = s.owns k) ∧
      t.tree n = { s.tree n with
        epoch := arg % 65536, you := true, known := true, msg := none, claim := none, byPolicy := false, cmd := none, notBefore := 0,
        ownFrom := some (if f ≠ 0 ∧ later32 f first then f else first), wasWarm := s.warm n, outTicks := 0, handed := false, silent := false,
        releaseAt := none, takeAt := none, full := true, rel := none, atS := f != 0 } ∧ OnlyTree n s t) ∧
  (∀ s n arg m, (s.tree n).msg = some m → m.typ = 0x12 → (s.tree n).cmd = none → Answers (.tokenDenyReceive n arg) s fun t =>
    t.tree n = { s.tree n with
      epoch := arg % 65536, known := true, msg := none, claim := none, byPolicy := false, cmd := none, notBefore := 0 } ∧ OnlyTree n s t ∧
    t.flag .TWN_EVT_DENIED = true ∧ t.fget .TWN_CNT_DENIED = min 255 (s.fget .TWN_CNT_DENIED + 1) ∧
      t.fget .TWN_OWNED_OWNED = s.fget .TWN_OWNED_OWNED) ∧
  (∀ s n arg, n < 64 → s.owns n = false → Answers (.tokenLostReceive n arg) s fun t =>
    t.tree n = { s.tree n with epoch := arg % 65536, known := true, you := false } ∧ OnlyTree n s t ∧ OnlyFields [] s t ∧ t.out = s.out) ∧
  (∀ s n arg, n < 64 → Quiet s → s.owns n = true → Answers (.tokenLostReceive n arg) s fun t =>
    t.owns n = false ∧ t.warm n = false ∧ (∀ k < 64, k ≠ n → t.owns k = s.owns k) ∧ t.flag .TWN_EVT_TOKEN_LOST = true ∧ t.flag .TWN_EVT_COLD = true ∧
    (t.tree n).you = false ∧ (t.tree n).ownFrom = none ∧ (∀ x ∈ t.txns, x.port ≠ n) ∧
    (∀ e ∈ s.entries, Eph.port e.eph = n → e.kind ≠ 4 → e.done = none → EndsWith e stDisconnected t) ∧
    ∀ eph k, s.ctx? eph = some k → Eph.port k.ctx.eph = n → ∃ k', t.ctx? eph = some k' ∧ k'.ctx.shadow = true)

/-- The twin commands (R33, R398): CLAIM and FORCE start a claim of every tree named, or queue behind one in progress, and wait; RELEASE names the
frame from which the trees are the partner's; QUERY reports the holder and the epoch. Completion is stated for twinClaim, twinForce, twinRelease,
twinQuery. -/
def Obligations.TwinCommandsAct : Prop :=
  (∀ s r b u, Accepted r 0x60 b s → s.hasTwin = true → s.maskShared (cmdArg0 b) = true → cmdArg0 b ≠ 0 → cmdArg0 b < 2 ^ 64 →
    Answers (.twinClaim r (.ok b) u) s fun t =>
      InProgress r b s t ∧ CmdsKept r s t ∧ ∀ n < 64, nfield (cmdArg0 b) n n = 1 →
        ((s.tree n).claim = none → (t.tree n).claim = some (false, 0) ∧ (t.tree n).cmd = some (r, (s.ring r).head) ∧
          (t.tree n).msg.map Linkctl.typ = some (if (s.tree n).known then 0x12 else 0x10)) ∧
        ((s.tree n).claim ≠ none → t.tree n = { s.tree n with queued := some (false, r, (s.ring r).head) })) ∧
  (∀ s r b u, Accepted r 0x61 b s → s.hasTwin = true → s.maskShared (cmdArg0 b) = true → cmdArg0 b ≠ 0 → cmdArg0 b < 2 ^ 64 →
    Answers (.twinForce r (.ok b) u) s fun t =>
      InProgress r b s t ∧ CmdsKept r s t ∧ ∀ n < 64, nfield (cmdArg0 b) n n = 1 →
        ((s.tree n).claim = none → (t.tree n).claim = some (true, 0) ∧ (t.tree n).cmd = some (r, (s.ring r).head) ∧
          (t.tree n).msg.map Linkctl.typ = some (if (s.tree n).known then 0x12 else 0x10)) ∧
        ((s.tree n).claim ≠ none → t.tree n = { s.tree n with queued := some (true, r, (s.ring r).head) })) ∧
  (∀ s r b u, Accepted r 0x60 b s → s.hasTwin = false → Answers (.twinClaim r (.ok b) u) s fun t => Completes r b stAbsent 0 s t ∧ t.twin = s.twin) ∧
  (∀ s r b u w, Accepted r 0x62 b s → s.hasTwin = true → s.maskShared (cmdArg0 b) = true → s.paired = true → w = cmdArg1 b % 2 ^ 32 → w ≠ 0 →
    later32 w ((s.frameNo + 3) % 2 ^ 32) = true →
    (∀ n < 64, nfield (cmdArg0 b) n n = 1 → s.owns n = true ∧ ∃ q, Tbl.find s.twin.pmap n = some q ∧ nfield s.twin.peerWarm q q = 1) →
    Answers (.twinRelease r (.ok b) u) s fun t =>
      Completes r b stOk w s t ∧ CmdsKept r s t ∧ ∀ n < 64, nfield (cmdArg0 b) n n = 1 → (t.tree n).releaseAt = some w ∧
        (t.tree n).rel = some ⟨0x15, 0, (s.tree n).epoch, w⟩) ∧
  (∀ s r b n, Accepted r 0x63 b s → s.hasTwin = true → n = cmdArg0 b % 64 → n < s.nPorts → s.shared n = true →
    Answers (.twinQuery r (.ok b)) s fun t =>
    Completes r b stOk (bit (s.tree n).you * 2 ^ 19 + (s.tree n).holder % 4 * 2 ^ 16 + (s.tree n).epoch % 65536) s t ∧ CmdsKept r s t ∧
      OnlyRing r s t ∧
    t.twin = s.twin ∧ OnlyFields engineFields s t)

/-! ### Power (chapter 14) -/

/-- Requests (R31, R34, R418–R420, Table 14.3): a matching pair is a request; one that can start sets target and mode and waits for the cores; one
that cannot waits, or aborts, or is invalid; from SLEEP it is a wake; a mismatch is no request. The POWER policy in AUTO requests SLEEP by itself.
Completion is stated for pwrRequest, policyPowerIdle. -/
def Obligations.PowerRequestsAreTaken : Prop :=
  (∀ s x y u, s.ready = true → y % 2 ^ 32 = 2 ^ 32 - 1 - x % 8 → s.inSafe = false → 2 ≤ x % 8 → x % 8 ≤ 4 → s.moving = false → s.pwrState ≠ 2 →
    Answers (.pwrRequest (some x) (some y) u) s fun t =>
      t.fget .PWR_STS_TARGET = x % 8 ∧ t.fget .PWR_MODE_MODE = x % 8 ∧ t.fget .PWR_STS_MODE = x % 8 ∧ t.pwrState = s.pwrState ∧
      t.pwr = { s.pwr with requested := true, byPolicy := false, abortBy := none } ∧ t.tim = s.tim.runTo u) ∧
  (∀ s x y u, s.ready = true → y % 2 ^ 32 ≠ 2 ^ 32 - 1 - x % 8 → Answers (.pwrRequest (some x) (some y) u) s fun t =>
    t.fget .PWR_REQ_TARGET = x % 8 ∧ t.pwr = s.pwr ∧ t.rd .PWR_STS 0 = s.rd .PWR_STS 0 ∧ t.out = s.out) ∧
  (∀ s x y u, s.ready = true → y % 2 ^ 32 = 2 ^ 32 - 1 - x % 8 → s.inSafe = false → (x % 8 = 1 ∨ 5 ≤ x % 8) →
    Answers (.pwrRequest (some x) (some y) u) s fun t =>
      t.flag .PWR_EVT_REQ_INVALID = true ∧ t.rd .PWR_STS 0 = s.rd .PWR_STS 0 ∧ t.pwr.requested = s.pwr.requested) ∧
  (∀ s x y u, s.ready = true → y % 2 ^ 32 = 2 ^ 32 - 1 - x % 8 → s.inSafe = false → 2 ≤ x % 8 → x % 8 ≤ 4 → s.moving = true →
    s.flag .PWR_STS_QVALID = false → Answers (.pwrRequest (some x) (some y) u) s fun t =>
      t.flag .PWR_STS_QVALID = true ∧ t.fget .PWR_STS_QTARGET = x % 8 ∧ t.pwr = { s.pwr with qByPolicy := false }) ∧
  (∀ s x y u, s.ready = true → y % 2 ^ 32 = 2 ^ 32 - 1 → x % 8 = 0 → s.inSafe = false → s.flag .PWR_STS_ENTERING = true →
    s.flag .PWR_STS_EXITING = false →
    s.pwr.abortBy = none → Answers (.pwrRequest (some x) (some y) u) s fun t =>
      t.flag .PWR_STS_QVALID = false ∧ t.pwr = { s.pwr with abortBy := some 0x10 }) ∧
  (∀ s x y u, s.ready = true → y % 2 ^ 32 = 2 ^ 32 - 1 → x % 8 = 0 → s.inSafe = false → Rests s → s.pwrState = 2 →
    Answers (.pwrRequest (some x) (some y) u) s fun t => Woken 0x13 4 0 s t ∧ t.pwr.rows = [2, 5, 6, 7, 8, 9] ∧ t.pwr.wakeAt = u) ∧
  (∀ s, s.powerIdle = true → s.policyMode 4 = 2 → s.pwrState = 0 → s.moving = false → s.inSafe = false → Answers .policyPowerIdle s fun t =>
    t.fget .PWR_STS_TARGET = 2 ∧ t.fget .PWR_MODE_MODE = 2 ∧ t.pwr = { s.pwr with requested := true, byPolicy := true, abortBy := none }) ∧
  (∀ s, s.powerIdle = false → Answers .policyPowerIdle s fun t => t.pwr = s.pwr ∧ t.pol = s.pol ∧ t.out = s.out ∧ OnlyFields [] s t)

/-- Entry (R421–R426): each participant that stops passes the entry to its abort point; an early refusal ends it in RUN and is counted; an abort or a
late refusal at a point restarts what was stopped; at the last one the state is entered, DEEP and OFF after a last scan that disables every
transmitter (R486). Completion is stated for consentDone, dealerStopped, portsStopped, moverTwinStopped, moverStopTimeout, pcieStopTimeout,
pcieStopped. -/
def Obligations.EntriesPassTheirAbortPoints : Prop :=
  (∀ s ok u, EntryAt 1 s → (s.at_ u).refusers ok = [] → Answers (.consentDone ok u) s fun t => EntryAt 2 t ∧ t.pwr = s.pwr ∧
    OnlyFields [.PWR_STS_APOINT] s t) ∧
  (∀ s ok u id l, EntryAt 1 s → (s.at_ u).refusers ok = id :: l → id ∉ l → s.flag .PWR_STS_QVALID = false → Answers (.consentDone ok u) s fun t =>
    t.flag .PWR_STS_ENTERING = false ∧ t.fget .PWR_STS_APOINT = 0 ∧ t.flag .PWR_EVT_REFUSED = true ∧ t.fget .PWR_STS_LAST_REFUSER = id % 256 ∧
    t.fgetN .PWR_RCNT_EARLY id = min 65535 (s.fgetN .PWR_RCNT_EARLY id + 1) ∧ t.fget .PWR_MODE_MODE = 0 ∧
    ∀ n < 4, t.flagN .ICU_CORESTS_WAIT n = false) ∧
  (∀ s h u, EntryAt 2 s → s.txns = [] → s.fget .PWR_STS_TARGET ≠ 4 → (s.fget .PWR_STS_TARGET = 3 → s.ctxs = []) →
    Answers (.dealerStopped h u) s fun t =>
    EntryAt 3 t ∧ t.pwr = { s.pwr with suspended := (upto s.nPorts).filter fun n => s.portState (.root n) == 4 } ∧
    (∀ n < s.nPorts, s.portState (.root n) = 4 → (t.port (.root n)).susp = .sent) ∧ OnlyFields [.PWR_STS_APOINT] s t) ∧
  (∀ s u, EntryAt 3 s → (∀ n < s.nPorts,
    s.portState (.root n) = 0 ∨ s.portState (.root n) = 1 ∨ s.portState (.root n) = 6 ∨ s.portState (.root n) = 9) →
    Answers (.portsStopped u) s fun t => EntryAt 4 t ∧ t.pwr = s.pwr ∧ OnlyFields [.PWR_STS_APOINT] s t) ∧
  (∀ s u id, s.flag .PWR_STS_ENTERING = true → s.fget .PWR_STS_APOINT = 3 → s.pwr.abortBy = some id →
    (∀ n < s.nPorts, s.portState (.root n) = 0 ∨ s.portState (.root n) = 1 ∨ s.portState (.root n) = 6 ∨ s.portState (.root n) = 9) →
    Answers (.portsStopped u) s fun t =>
      t.flag .PWR_STS_ENTERING = false ∧ t.flag .PWR_STS_EXITING = true ∧ t.pwr.rows = [8, 9] ∧ t.pwr.rollback = true ∧ t.pwr.abortBy = none ∧
      t.flag .PWR_EVT_ABORTED = true ∧ t.fget .PWR_STS_LAST_REFUSER = id % 256) ∧
  (∀ s u, EntryAt 4 s → (s.at_ u).twinRefuses = false → (s.at_ u).moverRefuses = false → s.linkUp = false → Answers (.moverTwinStopped u) s fun t =>
    EntryAt 5 t ∧ t.pwr = s.pwr ∧ OnlyFields [.PWR_STS_APOINT] s t) ∧
  (∀ s u, EntryAt 4 s → Answers (.moverStopTimeout u) s fun t =>
    t.flag .PWR_STS_ENTERING = false ∧ t.flag .PWR_STS_EXITING = true ∧ t.pwr.rows = [6, 7, 8, 9] ∧ t.pwr.rollback = true ∧
      t.flag .PWR_EVT_LATE = true ∧
    t.fget .PWR_STS_LAST_REFUSER = 2 ∧ t.fgetN .PWR_RCNT_LATE 2 = min 255 (s.fgetN .PWR_RCNT_LATE 2 + 1)) ∧
  (∀ s u, EntryAt 5 s → Answers (.pcieStopTimeout u) s fun t =>
    t.flag .PWR_STS_ENTERING = false ∧ t.flag .PWR_STS_EXITING = true ∧ t.pwr.rows = [5, 6, 7, 8, 9] ∧ t.pwr.rollback = true ∧
    t.flag .PWR_EVT_LATE = true ∧ t.fget .PWR_STS_LAST_REFUSER = 4 ∧ t.fgetN .PWR_RCNT_LATE 4 = min 255 (s.fgetN .PWR_RCNT_LATE 4 + 1)) ∧
  (∀ s u, EntryAt 5 s → s.fget .PWR_STS_TARGET = 2 → s.flag .PWR_STS_QVALID = false → s.pwr.wakeLater = none → Answers (.pcieStopped u) s fun t =>
    t.pwrState = 2 ∧ t.flag .PWR_STS_ENTERING = false ∧ t.flag .PWR_STS_EXITING = false ∧ t.rings = s.rings ∧ t.ctxs = s.ctxs ∧ t.out = s.out ∧
    t.pwr = { s.pwr with
      requested := false, abortBy := none, rows := [], rollback := false, entryAt := u, byPolicy := false,
        polOwed := s.pwr.polOwed || s.pwr.byPolicy }) ∧
  (∀ s u, Ordered s → EntryAt 5 s → s.fget .PWR_STS_TARGET = 3 → s.flag .PWR_STS_QVALID = false → s.pwr.wakeLater = none →
    Answers (.pcieStopped u) s fun t =>
    t.pwrState = 3 ∧ t.ready = false ∧ t.rings = [] ∧ t.ctxs = [] ∧ t.pool = [] ∧ t.devs = s.devs ∧ t.pwr.railsOff = true ∧
    t.pwr.ember.tim = some (s.tim.runTo u) ∧
    t.out = s.out ++ [.msc (mscBits 0xFFFFFFFFFFFFFFFF)] ++ (s.at_ u).ppsLow ++ [.pin "PWR_EN3" false, .pin "PWR_EN2" false, .pin "PWR_EN0" false]) ∧
  (∀ s u, EntryAt 5 s → s.fget .PWR_STS_TARGET = 4 → s.pwr.wakeLater = none → Answers (.pcieStopped u) s fun t =>
    t.pwrState = 4 ∧ t.ready = false ∧ t.rings = [] ∧ t.ctxs = [] ∧ t.pool = [] ∧ t.devs = s.devs ∧ t.pwr.railsOff = true ∧
    t.out = s.out ++ [.msc (mscBits 0xFFFFFFFFFFFFFFFF)] ++ (s.at_ u).ppsLow ++
      [.pin "PWR_EN3" false, .pin "PWR_EN2" false, .pin "PWR_EN1" false, .pin "PWR_EN0" false] ++
        if s.flag .HLT_STS_SERVICE then [.pin "SERVICE_N" true] else [])

/-- Wakes and the exit (R429–R432, R436): an enabled source wakes the controller from SLEEP or DEEP, WAKE_N also from OFF, and the cause is shown;
WAKE_SENSE in RUN is an event; the rows of the exit run one by one (in row 7 the armed channels that wait for nothing else run), and the last one is
RUN. Completion is stated for wakeNInput, wakeSenseTrip, pcieWake, twinSignalWake, pwrSenseWrite, restoreStep. -/
def Obligations.WakesAndExits : Prop :=
  (∀ s u, Rests s → (s.pwrState = 2 ∨ s.pwrState = 3) → s.flag .PWR_WAKE_EN_WAKE_N = true → Answers (.wakeNInput u) s fun t =>
    Woken 0x11 0 0 s t ∧ t.pwr.rows = State.exitRows s.pwrState ∧ t.pwr.wakeAt = u ∧
    t.out = s.out ++ [.pin (if s.pwrState = 2 then "CLKREQ_N" else "PE_WAKE_N") false]) ∧
  (∀ s u, Rests s → s.pwrState = 4 → Answers (.wakeNInput u) s fun t => Woken 0x11 0 0 s t ∧ t.pwr.rows = State.exitRows 4 ∧ t.out = s.out) ∧
  (∀ s u, s.pwrState ≠ 4 → s.flag .PWR_WAKE_EN_WAKE_N = false → Answers (.wakeNInput u) s fun t => t.pwr = s.pwr ∧ OnlyFields [] s t) ∧
  (∀ s v w u, s.flag .PWR_SENSE_EN = true → 2 * 1000000000 ≤ w * 32768 → s.flag .PWR_SENSE_OUT = false → s.flag .PWR_SENSE_DIR = false →
    1000 + 40 * min 250 (s.fget .PWR_SENSE_THR) < v → s.pwrState ≤ 1 → s.flag .PWR_STS_ENTERING = false → s.flag .PWR_STS_EXITING = false →
    Answers (.wakeSenseTrip v w u) s fun t =>
      t.flag .PWR_SENSE_OUT = true ∧ t.flag .PWR_EVT_SENSE = true ∧ OnlyFields [.PWR_SENSE_OUT, .PWR_EVT_SENSE] s t ∧ t.pwr = s.pwr) ∧
  (∀ s v w u, Rests s → s.flag .PWR_SENSE_EN = true → 2 * 1000000000 ≤ w * 32768 → s.flag .PWR_SENSE_OUT = false → s.flag .PWR_SENSE_DIR = false →
    1000 + 40 * min 250 (s.fget .PWR_SENSE_THR) < v → (s.pwrState = 2 ∨ s.pwrState = 3) → s.flag .PWR_WAKE_EN_SENSE = true →
    Answers (.wakeSenseTrip v w u) s fun t => t.flag .PWR_SENSE_OUT = true ∧ Woken 0x12 1 0 s t ∧ t.pwr.rows = State.exitRows s.pwrState) ∧
  (∀ s v w u, s.flag .PWR_SENSE_EN = true → 2 * 1000000000 ≤ w * 32768 → s.flag .PWR_SENSE_OUT = true → s.flag .PWR_SENSE_DIR = false →
    v + 80 * (s.fget .PWR_SENSE_HYST + 1) < 1000 + 40 * min 250 (s.fget .PWR_SENSE_THR) → Answers (.wakeSenseTrip v w u) s fun t =>
      t.flag .PWR_SENSE_OUT = false ∧ OnlyFields [.PWR_SENSE_OUT] s t ∧ t.pwr = s.pwr) ∧
  (∀ s v w u, w * 32768 < 2 * 1000000000 → Answers (.wakeSenseTrip v w u) s fun t => t.pwr = s.pwr ∧ OnlyFields [] s t) ∧
  (∀ s u, Rests s → s.pwrState = 2 → Answers (.pcieWake u) s fun t => Woken 0x13 4 0 s t ∧ t.pwr.rows = [2, 5, 6, 7, 8, 9] ∧ t.out = s.out) ∧
  (∀ s u, Rests s → s.pwrState = 3 → s.flag .PWR_WAKE_EN_PCIE = true → Answers (.pcieWake u) s fun t =>
    Woken 0x13 4 0 s t ∧ t.pwr.rows = [1, 2, 3, 4, 5, 6, 7, 8, 9] ∧ t.out = s.out) ∧
  (∀ s u, Rests s → (s.pwrState = 2 ∨ s.pwrState = 3) → s.hasTwin = true → s.flag .PWR_WAKE_EN_TWIN = true → Answers (.twinSignalWake u) s fun t =>
    Woken 0x14 3 0 s t ∧ t.pwr.rows = State.exitRows s.pwrState) ∧
  (∀ s v, s.ready = true → Answers (.pwrSenseWrite v) s fun t =>
    t.fget .PWR_SENSE_EN = nfield v 31 31 ∧ t.fget .PWR_SENSE_DIR = nfield v 30 30 ∧ t.fget .PWR_SENSE_HYST = nfield v 18 16 ∧
    t.fget .PWR_SENSE_THR = nfield v 7 0 ∧ t.flag .PWR_SENSE_OUT = false) ∧
  (∀ s bad dg gd st u row rest, s.pwr.rows = row :: rest → (row = 2 ∨ row = 3) → Answers (.restoreStep bad dg gd st u) s fun t =>
    t.pwr = { s.pwr with rows := rest } ∧ OnlyFields [] s t ∧ t.out = s.out ∧ t.tim = s.tim.runTo u) ∧
  (∀ s bad dg gd st u rest, s.pwr.rows = 7 :: rest → rest.contains 7 = false → s.flag .PWR_STS_EXITING = true → s.flag .PWR_STS_ENTERING = false →
    Answers (.restoreStep bad dg gd st u) s fun t =>
      t.pwr = { s.pwr with rows := rest } ∧ OnlyFields [.MOV_STS_STATE, .MOV_STS_CREDITS] s t ∧ t.out = s.out ∧ t.tim = s.tim.runTo u ∧
      ∀ n < 64, s.software n = true → s.chanSt n = 1 → (s.chan n).slice = none → ctlPace (s.chan n).ctl = 0 → t.chanSt n = 2) ∧
  (∀ s bad dg gd st u rest, s.pwr.rows = 5 :: rest → s.pwr.rollback = false → Answers (.restoreStep bad dg gd st u) s fun t =>
    t.pwr = { s.pwr with rows := rest } ∧ OnlyFields [] s t ∧ t.out = s.out ++ [.pin "CLKREQ_N" true, .pin "PE_WAKE_N" true]) ∧
  (∀ s bad dg gd st u, s.pwr.rows = [9] → s.pwr.rollback = false → s.flag .PWR_STS_QVALID = false → Answers (.restoreStep bad dg gd st u) s fun t =>
    t.pwrState = 0 ∧ t.flag .PWR_STS_EXITING = false ∧ t.fget .PWR_STS_APOINT = 0 ∧ t.fget .PWR_STS_TARGET = 0 ∧ t.flag .PWR_EVT_WOKEN = true ∧
    t.fget .PWR_LAT_LAT_NS = min 0xFFFFFFFF (u - s.pwr.wakeAt) ∧ t.fget .PWR_MODE_MODE = 0 ∧ t.pwr.rows = [] ∧
    ∀ n < 4, t.flagN .ICU_CORESTS_WAIT n = false)

/-! ### Starts and pins (chapters 15, 17) -/

/-- Starts (R434, R438–R443, R447, R453, Tables 14.6, 15.1, 15.2): a cold start that passes waits for READY; one that fails is counted, and one that
finds FAILS = 3 is SAFE; READY and the watchdog end a start; an FLR is a warm start, or a cold one where the image does not match; so is the exit from
DEEP; a FW_ACTIVATE with RESTART is followed by a cold start. Completion is stated for porRelease, startReady, startWatchdog, flr, restoreStep,
cmdWriteback. -/
def Obligations.StartsRunToReadyOrSafe : Prop :=
  (∀ s i o, Ordered s → StartPasses i o s → Answers (.porRelease [i]) s fun t =>
    ColdStarted i o s t ∧ s.out ++ [.pin "PWR_EN0" true, .pin "PWR_EN1" true, .pin "PWR_EN2" true, .pin "PWR_EN3" true] <+: t.out) ∧
  (∀ s i, i.otp = none → (i.region0 = true → s.fget .HLT_START_FAILS ≠ 3) → Answers (.porRelease [i]) s fun t =>
    t.fget .HLT_START_FAILS = (if i.region0 then s.fget .HLT_START_FAILS else 0) + 1 ∧ t.hlt.starting = false ∧ t.ready = false ∧
    t.fget .HLT_START_KIND = 0) ∧
  (∀ s i st, i.region0 = true → s.fget .HLT_START_FAILS = 3 → Answers (.porRelease (i :: st)) s fun t =>
    t.fget .HLT_START_KIND = 3 ∧ t.ready = false ∧ t.hlt.starting = false ∧ t.fget .HLT_STS_STATE = 3 ∧ t.flag .HLT_STS_SERVICE = true) ∧
  (∀ s u, s.hlt.starting = true → s.pwrState ≤ 1 → Answers (.startReady u) s fun t =>
    t.ready = true ∧ t.hlt.starting = false ∧ t.hlt.tripSensor = none ∧ t.fget .HLT_START_KIND = s.fget .HLT_START_KIND ∧
    t.fget .HLT_START_FAILS = (if s.fget .HLT_START_KIND = 0 then 0 else s.fget .HLT_START_FAILS) ∧ t.tim = s.tim.runTo u) ∧
  (∀ s u, s.hlt.starting = false → Answers (.startReady u) s fun t => t.hlt = s.hlt ∧ t.out = s.out ∧ OnlyFields [] s t) ∧
  (∀ s, s.hlt.starting = true → s.fget .HLT_START_KIND = 0 → Answers (.startWatchdog []) s fun t =>
    t.fget .HLT_START_FAILS = min 3 (s.fget .HLT_START_FAILS + 1) ∧ t.hlt.starting = false ∧
    t.hlt.trial = (if s.flag .HLT_START_TRIAL then none else s.hlt.trial) ∧ (s.flag .HLT_START_TRIAL = true → t.flag .SEC_EVT_TRIAL_FAIL = true) ∧
    OnlyFields [.HLT_START_FAILS, .SEC_EVT_TRIAL_FAIL] s t) ∧
  (∀ s silent u, Ordered s → s.pwrState ≤ 2 → (∀ n < s.nPorts, s.portState (.root n) ≠ 4) → s.flag .TWN_CFG_ENABLE = false →
    Answers (.flr silent 0 true [] u) s fun t =>
      t.fget .HLT_START_KIND = 2 ∧ t.hlt.starting = true ∧ t.ready = false ∧ t.pwrState = 0 ∧ t.ctxs = [] ∧ t.entries = [] ∧ t.cmds = [] ∧
        t.txns = [] ∧
      t.pool = [] ∧ t.devs = s.devs ∧ t.tim.now = u) ∧
  (∀ s silent bad u i o, Ordered s → s.pwrState ≤ 2 → (∀ n < s.nPorts, s.portState (.root n) ≠ 4) → StartPasses i o s →
    Answers (.flr silent bad false [i] u) s (ColdStarted i o s)) ∧
  (∀ s dg st u bad rest, s.pwr.rows = 1 :: rest → Answers (.restoreStep bad dg true st u) s fun t =>
    t.pwr = { s.pwr with rows := rest, railsOff := false } ∧ OnlyFields [] s t ∧
    t.out = s.out ++ [.pin "PWR_EN0" true, .pin "PWR_EN2" true, .pin "PWR_EN3" true]) ∧
  (∀ s dg gd u bad rest i o, Ordered s → s.pwr.rows = 4 :: rest → nfield bad 0 0 = 1 → StartPasses { i with region0 := false } o s →
    Answers (.restoreStep bad dg gd [i] u) s (ColdStarted { i with region0 := false } o s)) ∧
  (∀ s gd u bad rest i o, Ordered s → s.pwr.rows = 4 :: rest → nfield bad 0 0 = 0 → StartPasses i o s →
    Answers (.restoreStep bad false gd [i] u) s (ColdStarted i o s)) ∧
  (∀ s gd st u rest, s.pwr.rows = 4 :: rest → s.pwr.imageBad = false → Answers (.restoreStep 0 true gd st u) s fun t =>
    t.fget .HLT_START_KIND = 1 ∧ t.hlt.starting = true ∧ t.ready = s.ready ∧ t.devs = s.devs ∧ t.pwr.rows = rest ∧ t.pwr.ember = s.pwr.ember) ∧
  (∀ s c k x i o, Ordered s → s.engineFree (.cmdWriteback 0) = true → s.hlt.restart = some k → s.cmds = [c] → c.ring = 0 → c.idx = k →
    c.slice = none → c.status = some x → StartPasses i o s →
    Answers (.cmdWriteback 0 [i]) s (ColdStarted i o s))

/-- Pins and the PCIe link (R415, R416, R442, R480, R484, R491): PERST_N resets what is not the power controller's or ember's, but not in DEEP; its
release is a cold start; the loss of PWR_GOOD or of VAON acts by the power state; an error of a TLP is logged in AER, and one that asks for a
completion is answered Unsupported Request. Completion is stated for perstNAssert, perstNRelease, pwrGoodLow, vaonLoss, pcieTlpError. -/
def Obligations.PinsAndThePcieLinkAct : Prop :=
  (∀ s, Ordered s → s.pwrState ≤ 2 → s.flag .PWR_STS_ENTERING = false → s.flag .PWR_STS_EXITING = false → Answers .perstNAssert s fun t =>
    t.ready = false ∧ t.pwrState = 0 ∧ t.pwr.perst = true ∧ t.pwr.requested = false ∧ t.pwr.rows = [] ∧ t.pwr.ember = s.pwr.ember ∧ t.rings = [] ∧
    t.ctxs = [] ∧ t.entries = [] ∧ t.cmds = [] ∧ t.txns = [] ∧ t.pool = [] ∧ t.devs = s.devs ∧
    t.out = s.out ++ s.ppsLow ++ (if s.flag .HLT_STS_SERVICE then [.pin "SERVICE_N" true] else []) ∧
    t.rd .PWR_WAKE_EN 0 = s.rd .PWR_WAKE_EN 0 ∧ t.rd .PWR_EVT 0 = s.rd .PWR_EVT 0 ∧ t.rd .PWR_SENSE 0 = s.rd .PWR_SENSE 0 ∧
    t.rd .PWR_LAT 0 = s.rd .PWR_LAT 0) ∧
  (∀ s, 3 ≤ s.pwrState → s.flag .PWR_STS_EXITING = false → Answers .perstNAssert s fun t => t.pwr = s.pwr ∧ t.out = s.out ∧ t.tim = s.tim ∧
    OnlyFields [] s t) ∧
  (∀ s i o u, Ordered s → s.pwr.perst = true → StartPasses i o s → Answers (.perstNRelease [i] u) s fun t => ColdStarted i o s t ∧
    t.pwr.perst = false) ∧
  (∀ s st u, Rests s → s.pwr.perst = false → s.pwrState = 3 → s.flag .PWR_WAKE_EN_PCIE = true → Answers (.perstNRelease st u) s fun t =>
    Woken 0x13 4 0 s t ∧ t.pwr.rows = [1, 2, 3, 4, 5, 6, 7, 8, 9]) ∧
  (∀ s st, s.pwrState = 3 → s.flag .PWR_STS_EXITING = false → Answers (.pwrGoodLow st) s fun t =>
    t.pwr = { s.pwr with imageBad := true } ∧ t.out = s.out ∧ OnlyFields [] s t) ∧
  (∀ s st, s.pwrState = 4 → Answers (.pwrGoodLow st) s fun t => t.pwr = s.pwr ∧ t.out = s.out ∧ OnlyFields [] s t) ∧
  (∀ s i o, Ordered s → s.pwrState ≤ 2 → s.hlt.starting = false → StartPasses i o s → Answers (.pwrGoodLow [i]) s fun t =>
    ColdStarted i o s t ∧ s.out ++ [.pin "PWR_EN3" false, .pin "PWR_EN2" false, .pin "PWR_EN1" false, .pin "PWR_EN0" false] <+: t.out) ∧
  (∀ s, Answers .vaonLoss s fun t =>
    t.pwrState = 4 ∧ t.ready = false ∧ t.pwr.ember = Ember.init ∧ t.pwr.perst = false ∧ t.pwr.railsOff = true ∧ t.fget .HLT_START_FAILS = 0 ∧
    t.fget .HLT_START_STARTS = 0 ∧ t.rings = [] ∧ t.ctxs = [] ∧ t.entries = [] ∧ t.cmds = [] ∧ t.txns = [] ∧ t.pool = [] ∧ t.devs = s.devs) ∧
  (∀ s e a, e.uncorr = true → [4, 12, 13, 14, 16, 17, 18, 20].contains e.bit = true → s.aer.first = none → Answers (.pcieTlpError e a) s fun t =>
    t.aer = { s.aer with uncorr := nset s.aer.uncorr e.bit e.bit 1, first := some e.bit, header := e.header, prefix_ := e.prefix_ } ∧
    t.out = s.out ++ (if a && e.bit == 20 then [.unsupported] else [])) ∧
  (∀ s e a, e.uncorr = true → [4, 12, 13, 14, 16, 17, 18, 20].contains e.bit = true → s.aer.first.isSome = true →
    Answers (.pcieTlpError e a) s fun t =>
    t.aer = { s.aer with uncorr := nset s.aer.uncorr e.bit e.bit 1 } ∧ t.out = s.out ++ (if a && e.bit == 20 then [.unsupported] else [])) ∧
  (∀ s e a, e.uncorr = false → [0, 6, 7, 8, 12, 13, 14].contains e.bit = true → Answers (.pcieTlpError e a) s fun t =>
    t.aer = { s.aer with corr := nset s.aer.corr e.bit e.bit 1 } ∧ t.out = s.out)

/-! ### Health (chapter 15) -/

/-- Measurements (R444, R445, R448, R449, R481): each second life used grows by the second's highest reading and the oscillators are shown; each
millisecond the sensors are, and 140 °C is a trip to DEEP, held until the comparator reads low twice; a supply excursion is counted; HLT_STS follows
the findings. Completion is stated for monitorSample, thermalSample, tripComparatorSample, supplyExcursion. -/
def Obligations.HealthIsMeasured : Prop :=
  (∀ s osc rails u v, s.pwrState ≤ 2 → s.hlt.secMax = some v → Answers (.monitorSample osc rails [] u) s fun t =>
    t.hlt.life = s.hlt.life + lifeStep v ∧ Tbl.get 0 t.hlt.tempS (tempRange v) = Tbl.get 0 s.hlt.tempS (tempRange v) + 1 ∧ t.hlt.secMax = none ∧
    t.hlt.osc = (upto 16).zip osc ∧ Judged t ∧ t.tim = s.tim.runTo u ∧ t.ports = s.ports) ∧
  (∀ s temps u, s.pwrState ≤ 2 → (∀ x ∈ temps, x < 115) → Answers (.thermalSample temps u) s fun t =>
    (∀ i, i < 8 → i < temps.length → (Tbl.get (0, 0) t.hlt.sensors i).1 = temps.getD i 0) ∧ t.hlt.trips = s.hlt.trips ∧
      t.hlt.tripHeld = s.hlt.tripHeld ∧
    t.pwrState = s.pwrState ∧ Judged t) ∧
  (∀ s temps u, Ordered s → s.pwrState ≤ 2 → (∃ x ∈ temps.take 8, 140 ≤ x) → Answers (.thermalSample temps u) s fun t =>
    t.pwrState = 3 ∧ t.hlt.trips = (s.hlt.trips + 1) % 2 ^ 32 ∧ t.hlt.tripHeld = true ∧ t.ready = false ∧ t.pwr.railsOff = true ∧
    t.flag .PWR_STS_QVALID = false ∧ t.ctxs = [] ∧ t.entries = [] ∧ t.pool = [] ∧ t.devs = s.devs) ∧
  (∀ s, s.hlt.tripHeld = true → Answers (.tripComparatorSample true) s fun t =>
    t.hlt = { s.hlt with tripLow := s.hlt.tripLow + 1, tripHeld := s.hlt.tripLow == 0 }) ∧
  (∀ s, s.hlt.tripHeld = true → Answers (.tripComparatorSample false) s fun t => t.hlt = { s.hlt with tripLow := 0 }) ∧
  (∀ s rail mv, rail < 6 → railOut rail mv = true → Answers (.supplyExcursion rail mv) s fun t =>
    Tbl.get (0, 0) t.hlt.rails rail = (mv, min 65535 ((Tbl.get (0, 0) s.hlt.rails rail).2 + 1)) ∧
    (∀ k, k ≠ rail → Tbl.get (0, 0) t.hlt.rails k = Tbl.get (0, 0) s.hlt.rails k) ∧ t.flag .HLT_EVT_SUPPLY = true ∧ Judged t) ∧
  (∀ s rail mv, (6 ≤ rail ∨ railOut rail mv = false) → Answers (.supplyExcursion rail mv) s fun t => t.hlt = s.hlt ∧ t.out = s.out ∧
    OnlyFields [] s t)

/-- SRAM errors and retirement (R408, R415, R444, R446): a corrected word is counted for its bank or row, and rows are repaired at the sixteenth; an
uncorrectable one is reported and ends the transfer that it belongs to; the end of a copy is noted; HLT_POOL_SHRINK reduces the pool or completes
BOUNDS; PORT_EYE scans or captures. Completion is stated for sramCorrected, sramUncorrectable, retireCopyDone, hltPoolShrink, portEye. -/
def Obligations.MemoryErrorsAreCountedAndMended : Prop :=
  (∀ s b u, b < 50 → Answers (.sramCorrected (.bank b) u) s fun t =>
    (t.bankInfo b).corr = min 65535 ((s.bankInfo b).corr + 1) ∧
    (t.bankInfo b).hour = (s.bankInfo b).hour.filter (fun x => decide (u < x + 3600 * second)) ++ [u] ∧ (∀ k, k ≠ b → t.bankInfo k = s.bankInfo k) ∧
    t.aer = { s.aer with corr := nset s.aer.corr 14 14 1 } ∧ Judged t) ∧
  (∀ s a w u k n, k = 65536 * a + w % 65536 → n = Tbl.get 0 s.hlt.rowHits k + 1 → n < 16 → Answers (.sramCorrected (.row a w) u) s fun t =>
    Tbl.get 0 t.hlt.rowHits k = n ∧ t.hlt.rowsUsed = s.hlt.rowsUsed ∧ t.aer = { s.aer with corr := nset s.aer.corr 14 14 1 } ∧ Judged t) ∧
  (∀ s a w u k n, k = 65536 * a + w % 65536 → n = Tbl.get 0 s.hlt.rowHits k + 1 → 16 ≤ n → Answers (.sramCorrected (.row a w) u) s fun t =>
    (Tbl.get 0 s.hlt.rowsUsed a < Config.spareRows a → Tbl.get 0 t.hlt.rowHits k = 0 ∧ Tbl.get 0 t.hlt.rowsUsed a = Tbl.get 0 s.hlt.rowsUsed a + 1 ∧
      t.flag .HLT_EVT_REPAIR = true) ∧
    (Config.spareRows a ≤ Tbl.get 0 s.hlt.rowsUsed a → Tbl.get 0 t.hlt.rowHits k = n ∧ t.hlt.rowsUsed = s.hlt.rowsUsed)) ∧
  (∀ s b u, b < 50 → Answers (.sramUncorrectable b .free u) s fun t =>
    (t.bankInfo b).uncorr = min 65535 ((s.bankInfo b).uncorr + 1) ∧ t.flag .HLT_EVT_RETIRED = true ∧
    t.aer = { s.aer with uncorr := nset s.aer.uncorr 22 22 1 } ∧ t.entries = s.entries ∧ t.ctxs = s.ctxs ∧ t.txns = s.txns) ∧
  (∀ s b r i u e, b < 50 → s.entryAt r i = some e → e.done = none → Answers (.sramUncorrectable b (.td r i) u) s fun t =>
    EndsWith e stIntegrity t ∧ t.flag .HLT_EVT_RETIRED = true ∧ t.aer = { s.aer with uncorr := nset s.aer.uncorr 22 22 1 }) ∧
  (∀ s u x, s.hlt.retire = some x → Answers (.retireCopyDone u) s fun t =>
    t.hlt = { s.hlt with retire := some { x with copied := true, uncorr := x.uncorr || u } }) ∧
  (∀ s r b n l, Accepted r 0x71 b s → n = nfield (cmdArg0 b) 5 0 → (s.bankInfo n).uncorr ≠ 0 → 32 < s.hlt.logical → s.logicalOf n = some l →
    s.hlt.waiting = [] → s.hlt.retire = none → s.committing = false → Answers (.hltPoolShrink r (.ok b)) s fun t =>
      t.hlt.retire = some ⟨n, s.physOf (s.hlt.logical - 1), l, l == s.hlt.logical - 1, true, true, some (r, (s.ring r).head)⟩ ∧
      t.hlt.logical = s.hlt.logical ∧ InProgress r b s t ∧ CmdsKept r s t) ∧
  (∀ s r b, Accepted r 0x71 b s → ((s.bankInfo (nfield (cmdArg0 b) 5 0)).uncorr = 0 ∨ s.hlt.logical ≤ 32) →
    Answers (.hltPoolShrink r (.ok b)) s fun t =>
    Completes r b stBounds 0 s t ∧ CmdsKept r s t ∧ t.hlt = s.hlt) ∧
  (∀ s r b pts n, Accepted r 0x72 b s → n = nfield (cmdArg0 b) 5 0 → n < s.nPorts → nfield (cmdArg0 b) 8 8 = 0 → s.flag .TIM_CTL_FRAME_EN = false →
    (s.link (.port (.root n))).up = true → Answers (.portEye r (.ok b) pts) s fun t => Completes r b stOk 4096 s t ∧ CmdsKept r s t ∧
      OnlyFields engineFields s t) ∧
  (∀ s r b pts n, Accepted r 0x72 b s → n = nfield (cmdArg0 b) 5 0 → n < s.nPorts → nfield (cmdArg0 b) 8 8 = 1 → s.flag .TIM_CTL_FRAME_EN = false →
    s.portState (.root n) = 0 → Answers (.portEye r (.ok b) pts) s fun t => Completes r b stOk pts s t ∧ CmdsKept r s t ∧
      OnlyFields engineFields s t) ∧
  (∀ s r b pts n, Accepted r 0x72 b s → n = nfield (cmdArg0 b) 5 0 → n < s.nPorts → s.flag .TIM_CTL_FRAME_EN = true →
    Answers (.portEye r (.ok b) pts) s fun t => Completes r b stBounds 0 s t ∧ CmdsKept r s t ∧ OnlyFields engineFields s t)

/-- HLT_RECORD and the flash (R451): the command writes the 256-byte health record of Table 15.4 to BUF, and the flash takes the same record.
Completion is stated for hltRecord, healthRecordWrite. -/
def Obligations.HealthRecordsAreWritten : Prop :=
  (∀ s r b, Accepted r 0x70 b s → Answers (.hltRecord r (.ok b)) s fun t =>
    t.out = s.out ++ confirmed 0 (cmdArg2 b) s.recordBytes ∧ Completes r b stOk 0 s t ∧ CmdsKept r s t ∧ OnlyFields engineFields s t) ∧
  (∀ s, Answers .healthRecordWrite s fun t => t.hlt = { s.hlt with record := s.recordBytes }) ∧
  ∀ s : State, s.recordBytes.length = 256 ∧ leNat (slice 0 4 s.recordBytes) = 1 ∧ leNat (slice 4 1 s.recordBytes) = s.fget .HLT_STS_STATE ∧
    leNat (slice 5 3 s.recordBytes) = 0 ∧ leNat (slice 8 4 s.recordBytes) = s.hlt.life / 3600000000000 % 2 ^ 32 ∧
    (∀ i < 6, leNat (slice (12 + 4 * i) 4 s.recordBytes) = Tbl.get 0 s.hlt.tempS i / 3600 % 2 ^ 32) ∧
    leNat (slice 36 2 s.recordBytes) = (s.hlt.osc.map Prod.snd).foldl max 0 % 2 ^ 16 ∧ leNat (slice 38 1 s.recordBytes) = s.hlt.logical % 2 ^ 8 ∧
    leNat (slice 39 1 s.recordBytes) = s.fget .HLT_POOL_SPARES ∧ leNat (slice 40 8 s.recordBytes) = s.fget .HLT_RETIRED_BANKS ∧
    leNat (slice 48 8 s.recordBytes) = s.hlt.r1 % 2 ^ 64 ∧ leNat (slice 56 8 s.recordBytes) = s.fget .HLT_PORTRET_PORTS ∧
    leNat (slice 64 4 s.recordBytes) = s.hlt.trips % 2 ^ 32 ∧ leNat (slice 68 4 s.recordBytes) = s.hlt.cold % 2 ^ 32 ∧
    (∀ i < 180, s.recordBytes.getD (72 + i) 0 = 0) ∧ leNat (slice 252 4 s.recordBytes) = (crc32c (s.recordBytes.take 252)).toNat

/-! ### Firmware, zeroization, debug (chapter 15) -/

/-- Firmware update (R452, R453, R457): FW_STAGE begins the copy into the idle slot, and its end completes by what the checks found; FW_ACTIVATE makes
the staged slot TRIAL, FW_COMMIT the running TRIAL slot COMMITTED; FW_QUERY reports; while a slot is staged the others complete FW_BUSY. Completion is
stated for fwStage, fwStageDone, fwActivate, fwCommit, fwQuery. -/
def Obligations.FirmwareUpdatesAreStagedAndCommitted : Prop :=
  (∀ s r b, Accepted r 0x74 b s → s.hlt.staging = none → s.audit.held.length ≠ 256 → Answers (.fwStage r (.ok b)) s fun t =>
    t.hlt = { s.hlt with
      staging := some ((r, (s.ring r).head), s.idleSlot), staged := if s.hlt.staged = some s.idleSlot then none else s.hlt.staged } ∧
    InProgress r b s t ∧ CmdsKept r s t) ∧
  (∀ s r b, Accepted r 0x74 b s → s.hlt.staging.isSome = true → Answers (.fwStage r (.ok b)) s fun t =>
    Completes r b stFwBusy 0 s t ∧ CmdsKept r s t ∧ t.hlt = s.hlt ∧ t.flag .SEC_EVT_FW = true) ∧
  (∀ s len x r i slot c, s.hlt.staging = some ((r, i), slot) → s.cmd? r i = some c → c.op = 0x74 → 0 < len → len ≤ 1048064 →
    512 + len ≤ nfield (cmdArg1 c.bytes) 31 0 → x.valid = true → nfield (s.fget .SEC_STS_REVOKED) x.keySlot x.keySlot = 0 →
      s.fget .SEC_STS_FLOOR ≤ x.svn →
    Answers (.fwStageDone len (some x)) s fun t =>
      CmdEnds c stOk slot t ∧ t.hlt = { s.hlt with staging := none, slots := Tbl.put s.hlt.slots slot x, staged := some slot } ∧
      t.flag .SEC_EVT_FW = true) ∧
  (∀ s len x r i slot c, s.hlt.staging = some ((r, i), slot) → s.cmd? r i = some c → c.op = 0x74 → 0 < len → len ≤ 1048064 →
    512 + len ≤ nfield (cmdArg1 c.bytes) 31 0 → x.valid = false → Answers (.fwStageDone len (some x)) s fun t =>
      CmdEnds c stIntegrity slot t ∧ t.hlt = { s.hlt with staging := none, slots := Tbl.put s.hlt.slots slot FwSlot.init }) ∧
  (∀ s len r i slot c, s.hlt.staging = some ((r, i), slot) → s.cmd? r i = some c → c.op = 0x74 → Answers (.fwStageDone len none) s fun t =>
    CmdEnds c stHostError slot t ∧ t.hlt = { s.hlt with staging := none, slots := Tbl.put s.hlt.slots slot FwSlot.init }) ∧
  (∀ s r b slot, Accepted r 0x75 b s → s.hlt.staging = none → s.audit.held.length ≠ 256 → s.hlt.staged = some slot →
    Answers (.fwActivate r (.ok b)) s fun t =>
    t.hlt = { s.hlt with
      trial := some slot, restart := if nfield (cmdArg0 b) 0 0 = 1 then some (s.ring r).head else s.hlt.restart } ∧
    Completes r b stOk slot s t ∧ CmdsKept r s t ∧ t.flag .SEC_EVT_FW = true ∧ (s.inSafe = true → t.fget .HLT_START_FAILS = 0)) ∧
  (∀ s r b, Accepted r 0x75 b s → s.hlt.staging = none → s.audit.held.length ≠ 256 → s.hlt.staged = none → Answers (.fwActivate r (.ok b)) s fun t =>
    Completes r b stBounds 0 s t ∧ CmdsKept r s t ∧ t.hlt = s.hlt) ∧
  (∀ s r b n, Accepted r 0x76 b s → s.hlt.staging = none → s.audit.held.length ≠ 256 → s.flag .HLT_START_TRIAL = true →
    n = (if nfield (cmdArg0 b) 0 0 = 1 then max (s.fget .SEC_STS_FLOOR) (s.fget .SEC_STS_SVN) else s.fget .SEC_STS_FLOOR) →
    Answers (.fwCommit r (.ok b)) s fun t =>
      t.hlt = { s.hlt with committed := s.fget .HLT_START_SLOT, trial := none } ∧ t.flag .HLT_START_TRIAL = false ∧ t.fget .SEC_STS_FLOOR = n ∧
      Completes r b stOk n s t ∧ CmdsKept r s t) ∧
  (∀ s r b, Accepted r 0x76 b s → s.hlt.staging = none → s.audit.held.length ≠ 256 → s.flag .HLT_START_TRIAL = false →
    Answers (.fwCommit r (.ok b)) s fun t =>
    Completes r b stBounds 0 s t ∧ CmdsKept r s t ∧ t.hlt = s.hlt ∧ t.fget .SEC_STS_FLOOR = s.fget .SEC_STS_FLOOR) ∧
  (∀ s r b x, Accepted r 0x77 b s → s.hlt.staging = none → x = Tbl.get FwSlot.init s.hlt.slots (s.fget .HLT_START_SLOT) →
    Answers (.fwQuery r (.ok b)) s fun t =>
    Completes r b stOk (s.fget .SEC_STS_FLOOR * 2 ^ 56 + s.fget .SEC_STS_SVN * 2 ^ 48 + x.major % 256 * 2 ^ 40 + x.minor % 256 * 2 ^ 32 +
      4 * bit s.hlt.trial.isSome + 2 * bit (s.slotOk 1) + s.fget .HLT_START_SLOT) s t ∧ CmdsKept r s t ∧ t.hlt = s.hlt)

/-- ZEROIZE and debug (R454, R458): ZEROIZE with the wrong arguments completes INTEGRITY; else its completion is written, everything is cleared and a
cold start follows. A debug grant needs the key, the signature and what the rule allows, and the third refusal locks; a level below the one granted
ends the grant. Completion is stated for zeroize, debugResponse, secDbgAllowWrite. -/
def Obligations.ZeroizationAndDebug : Prop :=
  (∀ s r b st, Accepted r 0x7C b s → (cmdArg0 b ≠ 0x7A65 ∨ cmdArg1 b ≠ 2 ^ 64 - 1 - 0x7A65) → Answers (.zeroize r (.ok b) st) s fun t =>
    Completes r b stIntegrity 0 s t ∧ CmdsKept r s t ∧ t.hlt = s.hlt ∧ t.pwr = s.pwr ∧ OnlyFields engineFields s t) ∧
  (∀ s r b i o, Ordered s → Accepted r 0x7C b s → cmdArg0 b = 0x7A65 → cmdArg1 b = 2 ^ 64 - 1 - 0x7A65 → StartPasses i o s →
    Answers (.zeroize r (.ok b) [i]) s fun t =>
      t.hlt.starting = true ∧ t.ready = false ∧ t.fget .HLT_START_FAILS = 0 ∧ t.fget .HLT_START_STARTS = 1 ∧ t.pwr.ember = Ember.init ∧ t.rings = [] ∧
      t.ctxs = [] ∧ t.entries = [] ∧ t.cmds = [] ∧ t.txns = [] ∧ t.pool = [] ∧ t.devs = s.devs ∧
      ∃ l m a, a = (s.ring r).addr r (s.ring r).head ∧ t.out = s.out ++ l ++
        confirmed 0 (a + 4) (leBytes 4 (stOk * 2 ^ 24) ++ slice 8 16 b ++ leBytes 8 0) ++ confirmed 0 a (leBytes 4 (cmdDw0 b % 2 ^ 31)) ++ m) ∧
  (∀ s level, s.audit.held.length < 255 → s.flag .SEC_STS_DBG_LOCKED = false → s.debugAllowed level = true →
    Answers (.debugResponse level true true) s fun t =>
    t.fget .SEC_STS_DBG_LEVEL = level ∧ t.flag .SEC_EVT_DEBUG = true ∧ t.hlt = s.hlt) ∧
  (∀ s level key sig, s.audit.held.length < 255 → (key = false ∨ sig = false ∨ s.flag .SEC_STS_DBG_LOCKED = true ∨ s.debugAllowed level = false) →
    Answers (.debugResponse level key sig) s fun t =>
      t.hlt = { s.hlt with refused := min 3 (s.hlt.refused + 1) } ∧ t.fget .SEC_STS_DBG_LEVEL = s.fget .SEC_STS_DBG_LEVEL ∧
        t.flag .SEC_EVT_DEBUG = true ∧
      t.flag .SEC_STS_DBG_LOCKED = (s.flag .SEC_STS_DBG_LOCKED || decide (2 ≤ s.hlt.refused))) ∧
  (∀ s v, min 2 (v % 4) < s.fget .SEC_STS_DBG_LEVEL → Answers (.secDbgAllowWrite v) s fun t =>
    t.fget .SEC_DBG_ALLOW_LEVEL = v % 4 ∧ t.fget .SEC_STS_DBG_LEVEL = 0 ∧ t.flag .SEC_EVT_DEBUG = true) ∧
  (∀ s v, s.fget .SEC_STS_DBG_LEVEL ≤ min 2 (v % 4) → Answers (.secDbgAllowWrite v) s fun t =>
    t.fget .SEC_DBG_ALLOW_LEVEL = v % 4 ∧ t.out = s.out ∧ t.audit = s.audit ∧ OnlyFields [.SEC_DBG_ALLOW_LEVEL] s t)

/-! ### The register interface (chapter 16) -/

/-- Writes (R4, R439, R465, R466, R470, R473, Table 16.2): one full DW of a register without a further effect is stored in its RW bits; a narrow,
sparse or unmapped write changes nothing but the access error log, of which the first error is kept and the others counted; before READY only three
blocks act; an alias word writes its one bit. Completion is stated for registerWrite, aliasWrite. -/
def Obligations.RegisterWritesAct : Prop :=
  (∀ s ofs data u r i k m, ofs % 4 = 0 → regAt 0 ofs = some (r, i, k) → r ∈ plainRegs → s.accessOpen 0 ofs = true → s.absentOfs ofs = false →
    inAlias ofs = false → m = BitVec.ofNat 64 ((2 ^ 32 - 1) * 2 ^ (32 * k)) &&& BitVec.ofNat 64 r.info.rw →
      Answers (.registerWrite 0 ofs [(15, data)] u) s fun t =>
      t.rd r i = ((s.rd r i &&& ~~~m) ||| (BitVec.ofNat 64 (data % 2 ^ 32 * 2 ^ (32 * k)) &&& m)) &&& r.bits ∧ OnlyReg r i s t ∧
      t.tim = s.tim.runTo u ∧ t.out = s.out ∧ t.icu = s.icu) ∧
  (∀ s ofs be data u, ofs % 4 = 0 → s.accessOpen 0 ofs = true → s.exempt 0 ofs = false → 0 < be → be < 15 → s.flag .GCTL_ACCESS_ERR_VALID = false →
    Answers (.registerWrite 0 ofs [(be, data)] u) s fun t =>
      t.flag .GCTL_ACCESS_ERR_VALID = true ∧ t.fget .GCTL_ACCESS_ERR_KIND = (if sideBySide (enables [(be, data)]) then 1 else 2) ∧
      t.fget .GCTL_ACCESS_ERR_BAR = 0 ∧ t.fget .GCTL_ACCESS_ERR_FIRST_BE = be ∧ t.fget .GCTL_ACCESS_ERR_LAST_BE = 0 ∧
        t.fget .GCTL_ACCESS_ERR_COUNT = 1 ∧
      t.rd .GCTL_ACCESS_ADDR 0 = BitVec.ofNat 64 (ofs % 2 ^ 24) ∧
      (∀ q j, q ≠ .GCTL_ACCESS_ERR → q ≠ .GCTL_ACCESS_ADDR → t.rd q j = s.rd q j) ∧ t.out = s.out) ∧
  (∀ s ofs be data u, ofs % 4 = 0 → s.accessOpen 0 ofs = true → s.exempt 0 ofs = false → 0 < be → be < 15 → s.flag .GCTL_ACCESS_ERR_VALID = true →
    Answers (.registerWrite 0 ofs [(be, data)] u) s fun t =>
      t.flag .GCTL_ACCESS_ERR_MORE = true ∧ t.fget .GCTL_ACCESS_ERR_COUNT = min 65535 (s.fget .GCTL_ACCESS_ERR_COUNT + 1) ∧
      OnlyFields [.GCTL_ACCESS_ERR_MORE, .GCTL_ACCESS_ERR_COUNT] s t ∧ t.out = s.out) ∧
  (∀ s ofs data u, ofs % 4 = 0 → s.accessOpen 0 ofs = true → s.unmapped 0 ofs = true → s.flag .GCTL_ACCESS_ERR_VALID = false →
    Answers (.registerWrite 0 ofs [(15, data)] u) s fun t =>
      t.flag .GCTL_ACCESS_ERR_VALID = true ∧ t.fget .GCTL_ACCESS_ERR_KIND = 3 ∧ t.rd .GCTL_ACCESS_ADDR 0 = BitVec.ofNat 64 (ofs % 2 ^ 24) ∧
      (∀ q j, q ≠ .GCTL_ACCESS_ERR → q ≠ .GCTL_ACCESS_ADDR → t.rd q j = s.rd q j) ∧ t.out = s.out) ∧
  (∀ s bar ofs dws u, s.accessOpen bar (ofs / 4 * 4) = false → Answers (.registerWrite bar ofs dws u) s fun t =>
    OnlyFields [] s t ∧ t.out = s.out ∧ t.tim = s.tim.runTo u) ∧
  (∀ s ofs data u w b r i k n, ofs % 4 = 0 → inAlias ofs = true → aliased 0 ofs = (w, b) → regAt 0 w = some (r, i, k) → r ∈ plainRegs →
    s.accessOpen 0 ofs = true → s.absentOfs w = false → n = 32 * k + b → nfield r.info.rw n n = 1 → Answers (.aliasWrite 0 ofs 15 data u) s fun t =>
      t.rd r i = ((s.rd r i &&& ~~~ BitVec.ofNat 64 (2 ^ n)) ||| BitVec.ofNat 64 (data % 2 * 2 ^ n)) &&& r.bits ∧ OnlyReg r i s t ∧ t.out = s.out)

/-- The indirect pair (R472, R474, Table 16.6): a read returns the word named, sets BUSY, and WORD advances where INC says so; a write sets BUSY and
is applied when the access completes; a write while BUSY is dropped and logged; a narrow one is. Completion is stated for indDataRead, indDataWrite,
indAccessDone. -/
def Obligations.TheIndirectPairActs : Prop :=
  (∀ s, s.ready = true → s.flag .IND_ADDR_BUSY = false → s.indWord.isSome = true → Answers (.indDataRead false false) s fun t =>
    t.out = s.out ++ [.readData s.indValue] ∧ t.flag .IND_ADDR_BUSY = true ∧ t.ind = s.ind ∧
    t.fget .IND_ADDR_WORD = (if s.flag .IND_ADDR_INC then (s.fget .IND_ADDR_WORD + 1) % 2 ^ 22 else s.fget .IND_ADDR_WORD) ∧
    OnlyFields [.IND_ADDR_BUSY, .IND_ADDR_WORD] s t) ∧
  (∀ s data, s.ready = true → s.flag .IND_ADDR_BUSY = false → Answers (.indDataWrite 15 data) s fun t =>
    t.flag .IND_ADDR_BUSY = true ∧ t.ind = some (data % 2 ^ 32) ∧ OnlyFields [.IND_ADDR_BUSY] s t) ∧
  (∀ s data, s.ready = true → s.flag .IND_ADDR_BUSY = true → s.flag .GCTL_ACCESS_ERR_VALID = false → Answers (.indDataWrite 15 data) s fun t =>
    t.ind = s.ind ∧ t.flag .GCTL_ACCESS_ERR_VALID = true ∧ t.fget .GCTL_ACCESS_ERR_KIND = 4 ∧ t.rd .IND_ADDR 0 = s.rd .IND_ADDR 0) ∧
  (∀ s be data, s.ready = true → 0 < be → be < 15 → s.flag .GCTL_ACCESS_ERR_VALID = false → Answers (.indDataWrite be data) s fun t =>
    t.ind = s.ind ∧ t.flag .GCTL_ACCESS_ERR_VALID = true ∧ t.fget .GCTL_ACCESS_ERR_KIND = (if State.contiguous be then 1 else 2) ∧
    t.rd .IND_ADDR 0 = s.rd .IND_ADDR 0) ∧
  (∀ s d r n m, s.flag .IND_ADDR_BUSY = true → s.ind = some d → s.indWord = some (r, n) → n < s.nPorts →
    m = BitVec.ofNat 64 (2 ^ 32 - 1) &&& BitVec.ofNat 64 r.info.rw → Answers .indAccessDone s fun t =>
      t.flag .IND_ADDR_BUSY = false ∧ t.ind = none ∧ t.rd r n = ((s.rd r n &&& ~~~m) ||| (BitVec.ofNat 64 d &&& m)) &&& r.bits ∧
      t.fget .IND_ADDR_WORD = (if s.flag .IND_ADDR_INC then (s.fget .IND_ADDR_WORD + 1) % 2 ^ 22 else s.fget .IND_ADDR_WORD)) ∧
  (∀ s, s.flag .IND_ADDR_BUSY = true → s.ind = none → Answers .indAccessDone s fun t =>
    t.flag .IND_ADDR_BUSY = false ∧ t.ind = none ∧ OnlyFields [.IND_ADDR_BUSY] s t) ∧
  (∀ s, s.flag .IND_ADDR_BUSY = false → Answers .indAccessDone s fun t => t.ind = s.ind ∧ OnlyFields [] s t)

/-! ### The whole block -/

/-- A step runs the command at the front of the queue on the state with the queue's rest (log entry 68); on an empty queue the block idles (log entry
5). -/
def Obligations.StepRunsFrontCommand : Prop :=
  (∀ c rest s, s.pending = c :: rest → step s = exec c { s with pending := rest }) ∧ ∀ s, s.pending = [] → step s = .next s

/-- Every command of the table has its effect: from every state `exec` answers a next state, and what lies outside the command's reach (`parts`, which
lists for each command what its rules let it write), the queue included, is as before. -/
def Obligations.EveryCommandCompletesWithinItsReach : Prop := ∀ i s, ∃ t, exec i s = .next t ∧ OnlyParts (parts i) s t

/-- Every step keeps the form of the state: reserved fields read zero (R11), the buffer pool is in its canonical form (log entry 3), and the register
file lists each register once. -/
def Obligations.StepsKeepTheInvariant : Prop :=
  (∀ s t, State.Inv s → Steps s t → State.Inv t) ∧ ∀ s t, Ordered s → Steps s t → Ordered t

/-- Each variant right after reset has that form. -/
def Obligations.ResetMeetsTheInvariant : Prop := ∀ v, State.Inv (State.resetOf v) ∧ Ordered (State.resetOf v)

/-- GCTL_CAPS after reset (R475, Table 0.1): the value of each variant, and the fused resources that it reports. -/
def Obligations.CapsReportTheFusedResources : Prop :=
  (State.resetOf .ln6400).rd .GCTL_CAPS 0 = 0x0800040001004003 ∧ (State.resetOf .ln6432).rd .GCTL_CAPS 0 = 0x0200020000402001 ∧
  (State.resetOf .ln6416).rd .GCTL_CAPS 0 = 0x0200010000101000 ∧
  ∀ v, (((State.resetOf v).nPorts, (State.resetOf v).nSlices, (State.resetOf v).nRings, (State.resetOf v).nSources, (State.resetOf v).hasCoder,
    (State.resetOf v).hasTwin) = match v with
      | .ln6400 => (64, 256, 1024, 2048, true, true)
      | .ln6432 => (32, 64, 512, 512, true, false)
      | .ln6416 => (16, 16, 256, 512, false, false))
end

