-- ==== Sys2Proof/Laws/Table.lean ====
section
/-! SUPPORT. Laws/Table.lean: the laws of sparse tables: what is read after a value is put in, and that other numbers keep theirs. -/

namespace Sys2Proof

@[simp] theorem Tbl.find_put_same {α : Type} (t : Tbl α) (k : Nat) (v : α) : Tbl.find (Tbl.put t k v) k = some v := by
  induction t with
  | nil => simp [Tbl.put, Tbl.find]
  | cons c r ih =>
    obtain ⟨k', v'⟩ := c
    simp only [Tbl.put]
    split
    · simp [Tbl.find]
    · split
      · simp [Tbl.find]
      · simp [Tbl.find, *]

theorem Tbl.find_put_other {α : Type} (t : Tbl α) {k j : Nat} (v : α) (h : j ≠ k) : Tbl.find (Tbl.put t k v) j = Tbl.find t j := by
  induction t with
  | nil => simp [Tbl.put, Tbl.find, h.symm]
  | cons c r ih =>
    obtain ⟨k', v'⟩ := c
    simp only [Tbl.put]
    split
    · subst_vars
      simp [Tbl.find, h.symm]
    · split
      · simp [Tbl.find, h.symm]
      · simp [Tbl.find, ih]

@[simp] theorem Tbl.get_put_same {α : Type} (d : α) (t : Tbl α) (k : Nat) (v : α) : Tbl.get d (Tbl.put t k v) k = v := by
  simp [Tbl.get]

theorem Tbl.get_put_other {α : Type} (d : α) (t : Tbl α) {k j : Nat} (v : α) (h : j ≠ k) : Tbl.get d (Tbl.put t k v) j = Tbl.get d t j := by
  simp [Tbl.get, Tbl.find_put_other t v h]

@[simp] theorem Tbl.get_upd_same {α : Type} (d : α) (t : Tbl α) (k : Nat) (f : α → α) :
    Tbl.get d (Tbl.upd d t k f) k = f (Tbl.get d t k) := Tbl.get_put_same d t k _

theorem Tbl.get_upd_other {α : Type} (d : α) (t : Tbl α) {k j : Nat} (f : α → α) (h : j ≠ k) :
    Tbl.get d (Tbl.upd d t k f) j = Tbl.get d t j := Tbl.get_put_other d t _ h

theorem Tbl.mem_put {α : Type} {t : Tbl α} {k : Nat} {v : α} {x : Nat × α} (h : x ∈ Tbl.put t k v) : x = (k, v) ∨ x ∈ t := by
  induction t with
  | nil => simpa [Tbl.put] using h
  | cons c r ih =>
    obtain ⟨k', v'⟩ := c
    simp only [Tbl.put] at h
    split at h
    · rcases List.mem_cons.1 h with h | h
      · exact .inl h
      · exact .inr (List.mem_cons_of_mem _ h)
    · split at h
      · exact List.mem_cons.1 h
      · rcases List.mem_cons.1 h with h | h
        · exact .inr (h ▸ List.mem_cons_self)
        · exact (ih h).imp_right (List.mem_cons_of_mem _)

theorem Tbl.mem_of_find {α : Type} {t : Tbl α} {k : Nat} {v : α} (h : Tbl.find t k = some v) : (k, v) ∈ t := by
  induction t with
  | nil => cases h
  | cons c r ih =>
    obtain ⟨k', v'⟩ := c
    simp only [Tbl.find] at h
    split at h
    · cases h
      subst_vars
      exact List.mem_cons_self
    · exact List.mem_cons_of_mem _ (ih h)

end Sys2Proof
end

