-- ==== Sys2Proof/Laws/State.lean ====
section
/-! SUPPORT. Laws/State.lean: what each update of the state does to each of its fields, one lemma a field, and what is read back through the
accessors after it. -/

namespace Sys2Proof.Machine

variable (s : State)

/-! ### `State.wr` -/

@[simp] theorem State.wr_pending (r : Reg) (i : Nat) (v : DWord) : (s.wr r i v).pending = s.pending := rfl
@[simp] theorem State.wr_out (r : Reg) (i : Nat) (v : DWord) : (s.wr r i v).out = s.out := rfl
@[simp] theorem State.wr_free (r : Reg) (i : Nat) (v : DWord) : (s.wr r i v).free = s.free := rfl
@[simp] theorem State.wr_regs (r : Reg) (i : Nat) (v : DWord) : (s.wr r i v).regs = Tbl.put s.regs (regKey r i) (v &&& r.bits) := rfl
@[simp] theorem State.wr_tim (r : Reg) (i : Nat) (v : DWord) : (s.wr r i v).tim = s.tim := rfl
@[simp] theorem State.wr_pol (r : Reg) (i : Nat) (v : DWord) : (s.wr r i v).pol = s.pol := rfl
@[simp] theorem State.wr_ports (r : Reg) (i : Nat) (v : DWord) : (s.wr r i v).ports = s.ports := rfl
@[simp] theorem State.wr_links (r : Reg) (i : Nat) (v : DWord) : (s.wr r i v).links = s.links := rfl
@[simp] theorem State.wr_side (r : Reg) (i : Nat) (v : DWord) : (s.wr r i v).side = s.side := rfl
@[simp] theorem State.wr_devs (r : Reg) (i : Nat) (v : DWord) : (s.wr r i v).devs = s.devs := rfl
@[simp] theorem State.wr_ctxs (r : Reg) (i : Nat) (v : DWord) : (s.wr r i v).ctxs = s.ctxs := rfl
@[simp] theorem State.wr_cmgr (r : Reg) (i : Nat) (v : DWord) : (s.wr r i v).cmgr = s.cmgr := rfl
@[simp] theorem State.wr_txns (r : Reg) (i : Nat) (v : DWord) : (s.wr r i v).txns = s.txns := rfl
@[simp] theorem State.wr_rings (r : Reg) (i : Nat) (v : DWord) : (s.wr r i v).rings = s.rings := rfl
@[simp] theorem State.wr_entries (r : Reg) (i : Nat) (v : DWord) : (s.wr r i v).entries = s.entries := rfl
@[simp] theorem State.wr_cmds (r : Reg) (i : Nat) (v : DWord) : (s.wr r i v).cmds = s.cmds := rfl
@[simp] theorem State.wr_sched (r : Reg) (i : Nat) (v : DWord) : (s.wr r i v).sched = s.sched := rfl
@[simp] theorem State.wr_deal (r : Reg) (i : Nat) (v : DWord) : (s.wr r i v).deal = s.deal := rfl
@[simp] theorem State.wr_slices (r : Reg) (i : Nat) (v : DWord) : (s.wr r i v).slices = s.slices := rfl
@[simp] theorem State.wr_icu (r : Reg) (i : Nat) (v : DWord) : (s.wr r i v).icu = s.icu := rfl
@[simp] theorem State.wr_pool (r : Reg) (i : Nat) (v : DWord) : (s.wr r i v).pool = s.pool := rfl
@[simp] theorem State.wr_pwr (r : Reg) (i : Nat) (v : DWord) : (s.wr r i v).pwr = s.pwr := rfl
@[simp] theorem State.wr_twin (r : Reg) (i : Nat) (v : DWord) : (s.wr r i v).twin = s.twin := rfl
@[simp] theorem State.wr_smp (r : Reg) (i : Nat) (v : DWord) : (s.wr r i v).smp = s.smp := rfl
@[simp] theorem State.wr_audit (r : Reg) (i : Nat) (v : DWord) : (s.wr r i v).audit = s.audit := rfl
@[simp] theorem State.wr_mov (r : Reg) (i : Nat) (v : DWord) : (s.wr r i v).mov = s.mov := rfl
@[simp] theorem State.wr_hlt (r : Reg) (i : Nat) (v : DWord) : (s.wr r i v).hlt = s.hlt := rfl
@[simp] theorem State.wr_aer (r : Reg) (i : Nat) (v : DWord) : (s.wr r i v).aer = s.aer := rfl
@[simp] theorem State.wr_ind (r : Reg) (i : Nat) (v : DWord) : (s.wr r i v).ind = s.ind := rfl

/-! ### `State.emit` -/

@[simp] theorem State.emit_pending (o : Output) : (s.emit o).pending = s.pending := rfl
@[simp] theorem State.emit_out (o : Output) : (s.emit o).out = s.out ++ [o] := rfl
@[simp] theorem State.emit_free (o : Output) : (s.emit o).free = s.free := rfl
@[simp] theorem State.emit_regs (o : Output) : (s.emit o).regs = s.regs := rfl
@[simp] theorem State.emit_tim (o : Output) : (s.emit o).tim = s.tim := rfl
@[simp] theorem State.emit_pol (o : Output) : (s.emit o).pol = s.pol := rfl
@[simp] theorem State.emit_ports (o : Output) : (s.emit o).ports = s.ports := rfl
@[simp] theorem State.emit_links (o : Output) : (s.emit o).links = s.links := rfl
@[simp] theorem State.emit_side (o : Output) : (s.emit o).side = s.side := rfl
@[simp] theorem State.emit_devs (o : Output) : (s.emit o).devs = s.devs := rfl
@[simp] theorem State.emit_ctxs (o : Output) : (s.emit o).ctxs = s.ctxs := rfl
@[simp] theorem State.emit_cmgr (o : Output) : (s.emit o).cmgr = s.cmgr := rfl
@[simp] theorem State.emit_txns (o : Output) : (s.emit o).txns = s.txns := rfl
@[simp] theorem State.emit_rings (o : Output) : (s.emit o).rings = s.rings := rfl
@[simp] theorem State.emit_entries (o : Output) : (s.emit o).entries = s.entries := rfl
@[simp] theorem State.emit_cmds (o : Output) : (s.emit o).cmds = s.cmds := rfl
@[simp] theorem State.emit_sched (o : Output) : (s.emit o).sched = s.sched := rfl
@[simp] theorem State.emit_deal (o : Output) : (s.emit o).deal = s.deal := rfl
@[simp] theorem State.emit_slices (o : Output) : (s.emit o).slices = s.slices := rfl
@[simp] theorem State.emit_icu (o : Output) : (s.emit o).icu = s.icu := rfl
@[simp] theorem State.emit_pool (o : Output) : (s.emit o).pool = s.pool := rfl
@[simp] theorem State.emit_pwr (o : Output) : (s.emit o).pwr = s.pwr := rfl
@[simp] theorem State.emit_twin (o : Output) : (s.emit o).twin = s.twin := rfl
@[simp] theorem State.emit_smp (o : Output) : (s.emit o).smp = s.smp := rfl
@[simp] theorem State.emit_audit (o : Output) : (s.emit o).audit = s.audit := rfl
@[simp] theorem State.emit_mov (o : Output) : (s.emit o).mov = s.mov := rfl
@[simp] theorem State.emit_hlt (o : Output) : (s.emit o).hlt = s.hlt := rfl
@[simp] theorem State.emit_aer (o : Output) : (s.emit o).aer = s.aer := rfl
@[simp] theorem State.emit_ind (o : Output) : (s.emit o).ind = s.ind := rfl

/-! ### `State.emits` -/

@[simp] theorem State.emits_pending (l : List Output) : (s.emits l).pending = s.pending := rfl
@[simp] theorem State.emits_out (l : List Output) : (s.emits l).out = s.out ++ l := rfl
@[simp] theorem State.emits_free (l : List Output) : (s.emits l).free = s.free := rfl
@[simp] theorem State.emits_regs (l : List Output) : (s.emits l).regs = s.regs := rfl
@[simp] theorem State.emits_tim (l : List Output) : (s.emits l).tim = s.tim := rfl
@[simp] theorem State.emits_pol (l : List Output) : (s.emits l).pol = s.pol := rfl
@[simp] theorem State.emits_ports (l : List Output) : (s.emits l).ports = s.ports := rfl
@[simp] theorem State.emits_links (l : List Output) : (s.emits l).links = s.links := rfl
@[simp] theorem State.emits_side (l : List Output) : (s.emits l).side = s.side := rfl
@[simp] theorem State.emits_devs (l : List Output) : (s.emits l).devs = s.devs := rfl
@[simp] theorem State.emits_ctxs (l : List Output) : (s.emits l).ctxs = s.ctxs := rfl
@[simp] theorem State.emits_cmgr (l : List Output) : (s.emits l).cmgr = s.cmgr := rfl
@[simp] theorem State.emits_txns (l : List Output) : (s.emits l).txns = s.txns := rfl
@[simp] theorem State.emits_rings (l : List Output) : (s.emits l).rings = s.rings := rfl
@[simp] theorem State.emits_entries (l : List Output) : (s.emits l).entries = s.entries := rfl
@[simp] theorem State.emits_cmds (l : List Output) : (s.emits l).cmds = s.cmds := rfl
@[simp] theorem State.emits_sched (l : List Output) : (s.emits l).sched = s.sched := rfl
@[simp] theorem State.emits_deal (l : List Output) : (s.emits l).deal = s.deal := rfl
@[simp] theorem State.emits_slices (l : List Output) : (s.emits l).slices = s.slices := rfl
@[simp] theorem State.emits_icu (l : List Output) : (s.emits l).icu = s.icu := rfl
@[simp] theorem State.emits_pool (l : List Output) : (s.emits l).pool = s.pool := rfl
@[simp] theorem State.emits_pwr (l : List Output) : (s.emits l).pwr = s.pwr := rfl
@[simp] theorem State.emits_twin (l : List Output) : (s.emits l).twin = s.twin := rfl
@[simp] theorem State.emits_smp (l : List Output) : (s.emits l).smp = s.smp := rfl
@[simp] theorem State.emits_audit (l : List Output) : (s.emits l).audit = s.audit := rfl
@[simp] theorem State.emits_mov (l : List Output) : (s.emits l).mov = s.mov := rfl
@[simp] theorem State.emits_hlt (l : List Output) : (s.emits l).hlt = s.hlt := rfl
@[simp] theorem State.emits_aer (l : List Output) : (s.emits l).aer = s.aer := rfl
@[simp] theorem State.emits_ind (l : List Output) : (s.emits l).ind = s.ind := rfl

/-! ### `State.draw` -/

@[simp] theorem State.draw_pending : (s.draw).pending = s.pending := rfl
@[simp] theorem State.draw_out : (s.draw).out = s.out := rfl
@[simp] theorem State.draw_free : (s.draw).free = s.free + 1 := rfl
@[simp] theorem State.draw_regs : (s.draw).regs = s.regs := rfl
@[simp] theorem State.draw_tim : (s.draw).tim = s.tim := rfl
@[simp] theorem State.draw_pol : (s.draw).pol = s.pol := rfl
@[simp] theorem State.draw_ports : (s.draw).ports = s.ports := rfl
@[simp] theorem State.draw_links : (s.draw).links = s.links := rfl
@[simp] theorem State.draw_side : (s.draw).side = s.side := rfl
@[simp] theorem State.draw_devs : (s.draw).devs = s.devs := rfl
@[simp] theorem State.draw_ctxs : (s.draw).ctxs = s.ctxs := rfl
@[simp] theorem State.draw_cmgr : (s.draw).cmgr = s.cmgr := rfl
@[simp] theorem State.draw_txns : (s.draw).txns = s.txns := rfl
@[simp] theorem State.draw_rings : (s.draw).rings = s.rings := rfl
@[simp] theorem State.draw_entries : (s.draw).entries = s.entries := rfl
@[simp] theorem State.draw_cmds : (s.draw).cmds = s.cmds := rfl
@[simp] theorem State.draw_sched : (s.draw).sched = s.sched := rfl
@[simp] theorem State.draw_deal : (s.draw).deal = s.deal := rfl
@[simp] theorem State.draw_slices : (s.draw).slices = s.slices := rfl
@[simp] theorem State.draw_icu : (s.draw).icu = s.icu := rfl
@[simp] theorem State.draw_pool : (s.draw).pool = s.pool := rfl
@[simp] theorem State.draw_pwr : (s.draw).pwr = s.pwr := rfl
@[simp] theorem State.draw_twin : (s.draw).twin = s.twin := rfl
@[simp] theorem State.draw_smp : (s.draw).smp = s.smp := rfl
@[simp] theorem State.draw_audit : (s.draw).audit = s.audit := rfl
@[simp] theorem State.draw_mov : (s.draw).mov = s.mov := rfl
@[simp] theorem State.draw_hlt : (s.draw).hlt = s.hlt := rfl
@[simp] theorem State.draw_aer : (s.draw).aer = s.aer := rfl
@[simp] theorem State.draw_ind : (s.draw).ind = s.ind := rfl

/-! ### `State.onPort` -/

@[simp] theorem State.onPort_pending (p : PortId) (f : Port → Port) : (s.onPort p f).pending = s.pending := rfl
@[simp] theorem State.onPort_out (p : PortId) (f : Port → Port) : (s.onPort p f).out = s.out := rfl
@[simp] theorem State.onPort_free (p : PortId) (f : Port → Port) : (s.onPort p f).free = s.free := rfl
@[simp] theorem State.onPort_regs (p : PortId) (f : Port → Port) : (s.onPort p f).regs = s.regs := rfl
@[simp] theorem State.onPort_tim (p : PortId) (f : Port → Port) : (s.onPort p f).tim = s.tim := rfl
@[simp] theorem State.onPort_pol (p : PortId) (f : Port → Port) : (s.onPort p f).pol = s.pol := rfl
@[simp] theorem State.onPort_ports (p : PortId) (f : Port → Port) : (s.onPort p f).ports = Tbl.upd Port.init s.ports p.code f := rfl
@[simp] theorem State.onPort_links (p : PortId) (f : Port → Port) : (s.onPort p f).links = s.links := rfl
@[simp] theorem State.onPort_side (p : PortId) (f : Port → Port) : (s.onPort p f).side = s.side := rfl
@[simp] theorem State.onPort_devs (p : PortId) (f : Port → Port) : (s.onPort p f).devs = s.devs := rfl
@[simp] theorem State.onPort_ctxs (p : PortId) (f : Port → Port) : (s.onPort p f).ctxs = s.ctxs := rfl
@[simp] theorem State.onPort_cmgr (p : PortId) (f : Port → Port) : (s.onPort p f).cmgr = s.cmgr := rfl
@[simp] theorem State.onPort_txns (p : PortId) (f : Port → Port) : (s.onPort p f).txns = s.txns := rfl
@[simp] theorem State.onPort_rings (p : PortId) (f : Port → Port) : (s.onPort p f).rings = s.rings := rfl
@[simp] theorem State.onPort_entries (p : PortId) (f : Port → Port) : (s.onPort p f).entries = s.entries := rfl
@[simp] theorem State.onPort_cmds (p : PortId) (f : Port → Port) : (s.onPort p f).cmds = s.cmds := rfl
@[simp] theorem State.onPort_sched (p : PortId) (f : Port → Port) : (s.onPort p f).sched = s.sched := rfl
@[simp] theorem State.onPort_deal (p : PortId) (f : Port → Port) : (s.onPort p f).deal = s.deal := rfl
@[simp] theorem State.onPort_slices (p : PortId) (f : Port → Port) : (s.onPort p f).slices = s.slices := rfl
@[simp] theorem State.onPort_icu (p : PortId) (f : Port → Port) : (s.onPort p f).icu = s.icu := rfl
@[simp] theorem State.onPort_pool (p : PortId) (f : Port → Port) : (s.onPort p f).pool = s.pool := rfl
@[simp] theorem State.onPort_pwr (p : PortId) (f : Port → Port) : (s.onPort p f).pwr = s.pwr := rfl
@[simp] theorem State.onPort_twin (p : PortId) (f : Port → Port) : (s.onPort p f).twin = s.twin := rfl
@[simp] theorem State.onPort_smp (p : PortId) (f : Port → Port) : (s.onPort p f).smp = s.smp := rfl
@[simp] theorem State.onPort_audit (p : PortId) (f : Port → Port) : (s.onPort p f).audit = s.audit := rfl
@[simp] theorem State.onPort_mov (p : PortId) (f : Port → Port) : (s.onPort p f).mov = s.mov := rfl
@[simp] theorem State.onPort_hlt (p : PortId) (f : Port → Port) : (s.onPort p f).hlt = s.hlt := rfl
@[simp] theorem State.onPort_aer (p : PortId) (f : Port → Port) : (s.onPort p f).aer = s.aer := rfl
@[simp] theorem State.onPort_ind (p : PortId) (f : Port → Port) : (s.onPort p f).ind = s.ind := rfl

/-! ### `State.onLink` -/

@[simp] theorem State.onLink_pending (l : LinkEndId) (f : LinkEnd → LinkEnd) : (s.onLink l f).pending = s.pending := rfl
@[simp] theorem State.onLink_out (l : LinkEndId) (f : LinkEnd → LinkEnd) : (s.onLink l f).out = s.out := rfl
@[simp] theorem State.onLink_free (l : LinkEndId) (f : LinkEnd → LinkEnd) : (s.onLink l f).free = s.free := rfl
@[simp] theorem State.onLink_regs (l : LinkEndId) (f : LinkEnd → LinkEnd) : (s.onLink l f).regs = s.regs := rfl
@[simp] theorem State.onLink_tim (l : LinkEndId) (f : LinkEnd → LinkEnd) : (s.onLink l f).tim = s.tim := rfl
@[simp] theorem State.onLink_pol (l : LinkEndId) (f : LinkEnd → LinkEnd) : (s.onLink l f).pol = s.pol := rfl
@[simp] theorem State.onLink_ports (l : LinkEndId) (f : LinkEnd → LinkEnd) : (s.onLink l f).ports = s.ports := rfl
@[simp] theorem State.onLink_links (l : LinkEndId) (f : LinkEnd → LinkEnd) : (s.onLink l f).links = Tbl.upd LinkEnd.init s.links l.code f := rfl
@[simp] theorem State.onLink_side (l : LinkEndId) (f : LinkEnd → LinkEnd) : (s.onLink l f).side = s.side := rfl
@[simp] theorem State.onLink_devs (l : LinkEndId) (f : LinkEnd → LinkEnd) : (s.onLink l f).devs = s.devs := rfl
@[simp] theorem State.onLink_ctxs (l : LinkEndId) (f : LinkEnd → LinkEnd) : (s.onLink l f).ctxs = s.ctxs := rfl
@[simp] theorem State.onLink_cmgr (l : LinkEndId) (f : LinkEnd → LinkEnd) : (s.onLink l f).cmgr = s.cmgr := rfl
@[simp] theorem State.onLink_txns (l : LinkEndId) (f : LinkEnd → LinkEnd) : (s.onLink l f).txns = s.txns := rfl
@[simp] theorem State.onLink_rings (l : LinkEndId) (f : LinkEnd → LinkEnd) : (s.onLink l f).rings = s.rings := rfl
@[simp] theorem State.onLink_entries (l : LinkEndId) (f : LinkEnd → LinkEnd) : (s.onLink l f).entries = s.entries := rfl
@[simp] theorem State.onLink_cmds (l : LinkEndId) (f : LinkEnd → LinkEnd) : (s.onLink l f).cmds = s.cmds := rfl
@[simp] theorem State.onLink_sched (l : LinkEndId) (f : LinkEnd → LinkEnd) : (s.onLink l f).sched = s.sched := rfl
@[simp] theorem State.onLink_deal (l : LinkEndId) (f : LinkEnd → LinkEnd) : (s.onLink l f).deal = s.deal := rfl
@[simp] theorem State.onLink_slices (l : LinkEndId) (f : LinkEnd → LinkEnd) : (s.onLink l f).slices = s.slices := rfl
@[simp] theorem State.onLink_icu (l : LinkEndId) (f : LinkEnd → LinkEnd) : (s.onLink l f).icu = s.icu := rfl
@[simp] theorem State.onLink_pool (l : LinkEndId) (f : LinkEnd → LinkEnd) : (s.onLink l f).pool = s.pool := rfl
@[simp] theorem State.onLink_pwr (l : LinkEndId) (f : LinkEnd → LinkEnd) : (s.onLink l f).pwr = s.pwr := rfl
@[simp] theorem State.onLink_twin (l : LinkEndId) (f : LinkEnd → LinkEnd) : (s.onLink l f).twin = s.twin := rfl
@[simp] theorem State.onLink_smp (l : LinkEndId) (f : LinkEnd → LinkEnd) : (s.onLink l f).smp = s.smp := rfl
@[simp] theorem State.onLink_audit (l : LinkEndId) (f : LinkEnd → LinkEnd) : (s.onLink l f).audit = s.audit := rfl
@[simp] theorem State.onLink_mov (l : LinkEndId) (f : LinkEnd → LinkEnd) : (s.onLink l f).mov = s.mov := rfl
@[simp] theorem State.onLink_hlt (l : LinkEndId) (f : LinkEnd → LinkEnd) : (s.onLink l f).hlt = s.hlt := rfl
@[simp] theorem State.onLink_aer (l : LinkEndId) (f : LinkEnd → LinkEnd) : (s.onLink l f).aer = s.aer := rfl
@[simp] theorem State.onLink_ind (l : LinkEndId) (f : LinkEnd → LinkEnd) : (s.onLink l f).ind = s.ind := rfl

/-! ### `State.onDev` -/

@[simp] theorem State.onDev_pending (d : Nat) (f : Device → Device) : (s.onDev d f).pending = s.pending := rfl
@[simp] theorem State.onDev_out (d : Nat) (f : Device → Device) : (s.onDev d f).out = s.out := rfl
@[simp] theorem State.onDev_free (d : Nat) (f : Device → Device) : (s.onDev d f).free = s.free := rfl
@[simp] theorem State.onDev_regs (d : Nat) (f : Device → Device) : (s.onDev d f).regs = s.regs := rfl
@[simp] theorem State.onDev_tim (d : Nat) (f : Device → Device) : (s.onDev d f).tim = s.tim := rfl
@[simp] theorem State.onDev_pol (d : Nat) (f : Device → Device) : (s.onDev d f).pol = s.pol := rfl
@[simp] theorem State.onDev_ports (d : Nat) (f : Device → Device) : (s.onDev d f).ports = s.ports := rfl
@[simp] theorem State.onDev_links (d : Nat) (f : Device → Device) : (s.onDev d f).links = s.links := rfl
@[simp] theorem State.onDev_side (d : Nat) (f : Device → Device) : (s.onDev d f).side = s.side := rfl
@[simp] theorem State.onDev_devs (d : Nat) (f : Device → Device) : (s.onDev d f).devs = Tbl.upd Device.init s.devs d f := rfl
@[simp] theorem State.onDev_ctxs (d : Nat) (f : Device → Device) : (s.onDev d f).ctxs = s.ctxs := rfl
@[simp] theorem State.onDev_cmgr (d : Nat) (f : Device → Device) : (s.onDev d f).cmgr = s.cmgr := rfl
@[simp] theorem State.onDev_txns (d : Nat) (f : Device → Device) : (s.onDev d f).txns = s.txns := rfl
@[simp] theorem State.onDev_rings (d : Nat) (f : Device → Device) : (s.onDev d f).rings = s.rings := rfl
@[simp] theorem State.onDev_entries (d : Nat) (f : Device → Device) : (s.onDev d f).entries = s.entries := rfl
@[simp] theorem State.onDev_cmds (d : Nat) (f : Device → Device) : (s.onDev d f).cmds = s.cmds := rfl
@[simp] theorem State.onDev_sched (d : Nat) (f : Device → Device) : (s.onDev d f).sched = s.sched := rfl
@[simp] theorem State.onDev_deal (d : Nat) (f : Device → Device) : (s.onDev d f).deal = s.deal := rfl
@[simp] theorem State.onDev_slices (d : Nat) (f : Device → Device) : (s.onDev d f).slices = s.slices := rfl
@[simp] theorem State.onDev_icu (d : Nat) (f : Device → Device) : (s.onDev d f).icu = s.icu := rfl
@[simp] theorem State.onDev_pool (d : Nat) (f : Device → Device) : (s.onDev d f).pool = s.pool := rfl
@[simp] theorem State.onDev_pwr (d : Nat) (f : Device → Device) : (s.onDev d f).pwr = s.pwr := rfl
@[simp] theorem State.onDev_twin (d : Nat) (f : Device → Device) : (s.onDev d f).twin = s.twin := rfl
@[simp] theorem State.onDev_smp (d : Nat) (f : Device → Device) : (s.onDev d f).smp = s.smp := rfl
@[simp] theorem State.onDev_audit (d : Nat) (f : Device → Device) : (s.onDev d f).audit = s.audit := rfl
@[simp] theorem State.onDev_mov (d : Nat) (f : Device → Device) : (s.onDev d f).mov = s.mov := rfl
@[simp] theorem State.onDev_hlt (d : Nat) (f : Device → Device) : (s.onDev d f).hlt = s.hlt := rfl
@[simp] theorem State.onDev_aer (d : Nat) (f : Device → Device) : (s.onDev d f).aer = s.aer := rfl
@[simp] theorem State.onDev_ind (d : Nat) (f : Device → Device) : (s.onDev d f).ind = s.ind := rfl

/-! ### `State.onRing` -/

@[simp] theorem State.onRing_pending (r : Nat) (f : Ring → Ring) : (s.onRing r f).pending = s.pending := rfl
@[simp] theorem State.onRing_out (r : Nat) (f : Ring → Ring) : (s.onRing r f).out = s.out := rfl
@[simp] theorem State.onRing_free (r : Nat) (f : Ring → Ring) : (s.onRing r f).free = s.free := rfl
@[simp] theorem State.onRing_regs (r : Nat) (f : Ring → Ring) : (s.onRing r f).regs = s.regs := rfl
@[simp] theorem State.onRing_tim (r : Nat) (f : Ring → Ring) : (s.onRing r f).tim = s.tim := rfl
@[simp] theorem State.onRing_pol (r : Nat) (f : Ring → Ring) : (s.onRing r f).pol = s.pol := rfl
@[simp] theorem State.onRing_ports (r : Nat) (f : Ring → Ring) : (s.onRing r f).ports = s.ports := rfl
@[simp] theorem State.onRing_links (r : Nat) (f : Ring → Ring) : (s.onRing r f).links = s.links := rfl
@[simp] theorem State.onRing_side (r : Nat) (f : Ring → Ring) : (s.onRing r f).side = s.side := rfl
@[simp] theorem State.onRing_devs (r : Nat) (f : Ring → Ring) : (s.onRing r f).devs = s.devs := rfl
@[simp] theorem State.onRing_ctxs (r : Nat) (f : Ring → Ring) : (s.onRing r f).ctxs = s.ctxs := rfl
@[simp] theorem State.onRing_cmgr (r : Nat) (f : Ring → Ring) : (s.onRing r f).cmgr = s.cmgr := rfl
@[simp] theorem State.onRing_txns (r : Nat) (f : Ring → Ring) : (s.onRing r f).txns = s.txns := rfl
@[simp] theorem State.onRing_rings (r : Nat) (f : Ring → Ring) : (s.onRing r f).rings = Tbl.upd Ring.init s.rings r f := rfl
@[simp] theorem State.onRing_entries (r : Nat) (f : Ring → Ring) : (s.onRing r f).entries = s.entries := rfl
@[simp] theorem State.onRing_cmds (r : Nat) (f : Ring → Ring) : (s.onRing r f).cmds = s.cmds := rfl
@[simp] theorem State.onRing_sched (r : Nat) (f : Ring → Ring) : (s.onRing r f).sched = s.sched := rfl
@[simp] theorem State.onRing_deal (r : Nat) (f : Ring → Ring) : (s.onRing r f).deal = s.deal := rfl
@[simp] theorem State.onRing_slices (r : Nat) (f : Ring → Ring) : (s.onRing r f).slices = s.slices := rfl
@[simp] theorem State.onRing_icu (r : Nat) (f : Ring → Ring) : (s.onRing r f).icu = s.icu := rfl
@[simp] theorem State.onRing_pool (r : Nat) (f : Ring → Ring) : (s.onRing r f).pool = s.pool := rfl
@[simp] theorem State.onRing_pwr (r : Nat) (f : Ring → Ring) : (s.onRing r f).pwr = s.pwr := rfl
@[simp] theorem State.onRing_twin (r : Nat) (f : Ring → Ring) : (s.onRing r f).twin = s.twin := rfl
@[simp] theorem State.onRing_smp (r : Nat) (f : Ring → Ring) : (s.onRing r f).smp = s.smp := rfl
@[simp] theorem State.onRing_audit (r : Nat) (f : Ring → Ring) : (s.onRing r f).audit = s.audit := rfl
@[simp] theorem State.onRing_mov (r : Nat) (f : Ring → Ring) : (s.onRing r f).mov = s.mov := rfl
@[simp] theorem State.onRing_hlt (r : Nat) (f : Ring → Ring) : (s.onRing r f).hlt = s.hlt := rfl
@[simp] theorem State.onRing_aer (r : Nat) (f : Ring → Ring) : (s.onRing r f).aer = s.aer := rfl
@[simp] theorem State.onRing_ind (r : Nat) (f : Ring → Ring) : (s.onRing r f).ind = s.ind := rfl

/-! ### `State.onSlice` -/

@[simp] theorem State.onSlice_pending (n : Nat) (f : Slice → Slice) : (s.onSlice n f).pending = s.pending := rfl
@[simp] theorem State.onSlice_out (n : Nat) (f : Slice → Slice) : (s.onSlice n f).out = s.out := rfl
@[simp] theorem State.onSlice_free (n : Nat) (f : Slice → Slice) : (s.onSlice n f).free = s.free := rfl
@[simp] theorem State.onSlice_regs (n : Nat) (f : Slice → Slice) : (s.onSlice n f).regs = s.regs := rfl
@[simp] theorem State.onSlice_tim (n : Nat) (f : Slice → Slice) : (s.onSlice n f).tim = s.tim := rfl
@[simp] theorem State.onSlice_pol (n : Nat) (f : Slice → Slice) : (s.onSlice n f).pol = s.pol := rfl
@[simp] theorem State.onSlice_ports (n : Nat) (f : Slice → Slice) : (s.onSlice n f).ports = s.ports := rfl
@[simp] theorem State.onSlice_links (n : Nat) (f : Slice → Slice) : (s.onSlice n f).links = s.links := rfl
@[simp] theorem State.onSlice_side (n : Nat) (f : Slice → Slice) : (s.onSlice n f).side = s.side := rfl
@[simp] theorem State.onSlice_devs (n : Nat) (f : Slice → Slice) : (s.onSlice n f).devs = s.devs := rfl
@[simp] theorem State.onSlice_ctxs (n : Nat) (f : Slice → Slice) : (s.onSlice n f).ctxs = s.ctxs := rfl
@[simp] theorem State.onSlice_cmgr (n : Nat) (f : Slice → Slice) : (s.onSlice n f).cmgr = s.cmgr := rfl
@[simp] theorem State.onSlice_txns (n : Nat) (f : Slice → Slice) : (s.onSlice n f).txns = s.txns := rfl
@[simp] theorem State.onSlice_rings (n : Nat) (f : Slice → Slice) : (s.onSlice n f).rings = s.rings := rfl
@[simp] theorem State.onSlice_entries (n : Nat) (f : Slice → Slice) : (s.onSlice n f).entries = s.entries := rfl
@[simp] theorem State.onSlice_cmds (n : Nat) (f : Slice → Slice) : (s.onSlice n f).cmds = s.cmds := rfl
@[simp] theorem State.onSlice_sched (n : Nat) (f : Slice → Slice) : (s.onSlice n f).sched = s.sched := rfl
@[simp] theorem State.onSlice_deal (n : Nat) (f : Slice → Slice) : (s.onSlice n f).deal = s.deal := rfl
@[simp] theorem State.onSlice_slices (n : Nat) (f : Slice → Slice) : (s.onSlice n f).slices = Tbl.upd Slice.init s.slices n f := rfl
@[simp] theorem State.onSlice_icu (n : Nat) (f : Slice → Slice) : (s.onSlice n f).icu = s.icu := rfl
@[simp] theorem State.onSlice_pool (n : Nat) (f : Slice → Slice) : (s.onSlice n f).pool = s.pool := rfl
@[simp] theorem State.onSlice_pwr (n : Nat) (f : Slice → Slice) : (s.onSlice n f).pwr = s.pwr := rfl
@[simp] theorem State.onSlice_twin (n : Nat) (f : Slice → Slice) : (s.onSlice n f).twin = s.twin := rfl
@[simp] theorem State.onSlice_smp (n : Nat) (f : Slice → Slice) : (s.onSlice n f).smp = s.smp := rfl
@[simp] theorem State.onSlice_audit (n : Nat) (f : Slice → Slice) : (s.onSlice n f).audit = s.audit := rfl
@[simp] theorem State.onSlice_mov (n : Nat) (f : Slice → Slice) : (s.onSlice n f).mov = s.mov := rfl
@[simp] theorem State.onSlice_hlt (n : Nat) (f : Slice → Slice) : (s.onSlice n f).hlt = s.hlt := rfl
@[simp] theorem State.onSlice_aer (n : Nat) (f : Slice → Slice) : (s.onSlice n f).aer = s.aer := rfl
@[simp] theorem State.onSlice_ind (n : Nat) (f : Slice → Slice) : (s.onSlice n f).ind = s.ind := rfl

/-! ### `State.onVector` -/

@[simp] theorem State.onVector_pending (e : Nat) (f : Vector → Vector) : (s.onVector e f).pending = s.pending := rfl
@[simp] theorem State.onVector_out (e : Nat) (f : Vector → Vector) : (s.onVector e f).out = s.out := rfl
@[simp] theorem State.onVector_free (e : Nat) (f : Vector → Vector) : (s.onVector e f).free = s.free := rfl
@[simp] theorem State.onVector_regs (e : Nat) (f : Vector → Vector) : (s.onVector e f).regs = s.regs := rfl
@[simp] theorem State.onVector_tim (e : Nat) (f : Vector → Vector) : (s.onVector e f).tim = s.tim := rfl
@[simp] theorem State.onVector_pol (e : Nat) (f : Vector → Vector) : (s.onVector e f).pol = s.pol := rfl
@[simp] theorem State.onVector_ports (e : Nat) (f : Vector → Vector) : (s.onVector e f).ports = s.ports := rfl
@[simp] theorem State.onVector_links (e : Nat) (f : Vector → Vector) : (s.onVector e f).links = s.links := rfl
@[simp] theorem State.onVector_side (e : Nat) (f : Vector → Vector) : (s.onVector e f).side = s.side := rfl
@[simp] theorem State.onVector_devs (e : Nat) (f : Vector → Vector) : (s.onVector e f).devs = s.devs := rfl
@[simp] theorem State.onVector_ctxs (e : Nat) (f : Vector → Vector) : (s.onVector e f).ctxs = s.ctxs := rfl
@[simp] theorem State.onVector_cmgr (e : Nat) (f : Vector → Vector) : (s.onVector e f).cmgr = s.cmgr := rfl
@[simp] theorem State.onVector_txns (e : Nat) (f : Vector → Vector) : (s.onVector e f).txns = s.txns := rfl
@[simp] theorem State.onVector_rings (e : Nat) (f : Vector → Vector) : (s.onVector e f).rings = s.rings := rfl
@[simp] theorem State.onVector_entries (e : Nat) (f : Vector → Vector) : (s.onVector e f).entries = s.entries := rfl
@[simp] theorem State.onVector_cmds (e : Nat) (f : Vector → Vector) : (s.onVector e f).cmds = s.cmds := rfl
@[simp] theorem State.onVector_sched (e : Nat) (f : Vector → Vector) : (s.onVector e f).sched = s.sched := rfl
@[simp] theorem State.onVector_deal (e : Nat) (f : Vector → Vector) : (s.onVector e f).deal = s.deal := rfl
@[simp] theorem State.onVector_slices (e : Nat) (f : Vector → Vector) : (s.onVector e f).slices = s.slices := rfl
@[simp] theorem State.onVector_icu (e : Nat) (f : Vector → Vector) : (s.onVector e f).icu = { s.icu with vectors := Tbl.upd Vector.init s.icu.vectors e f } := rfl
@[simp] theorem State.onVector_pool (e : Nat) (f : Vector → Vector) : (s.onVector e f).pool = s.pool := rfl
@[simp] theorem State.onVector_pwr (e : Nat) (f : Vector → Vector) : (s.onVector e f).pwr = s.pwr := rfl
@[simp] theorem State.onVector_twin (e : Nat) (f : Vector → Vector) : (s.onVector e f).twin = s.twin := rfl
@[simp] theorem State.onVector_smp (e : Nat) (f : Vector → Vector) : (s.onVector e f).smp = s.smp := rfl
@[simp] theorem State.onVector_audit (e : Nat) (f : Vector → Vector) : (s.onVector e f).audit = s.audit := rfl
@[simp] theorem State.onVector_mov (e : Nat) (f : Vector → Vector) : (s.onVector e f).mov = s.mov := rfl
@[simp] theorem State.onVector_hlt (e : Nat) (f : Vector → Vector) : (s.onVector e f).hlt = s.hlt := rfl
@[simp] theorem State.onVector_aer (e : Nat) (f : Vector → Vector) : (s.onVector e f).aer = s.aer := rfl
@[simp] theorem State.onVector_ind (e : Nat) (f : Vector → Vector) : (s.onVector e f).ind = s.ind := rfl

/-! ### `State.onTim` -/

@[simp] theorem State.onTim_pending (f : TimeBase → TimeBase) : (s.onTim f).pending = s.pending := rfl
@[simp] theorem State.onTim_out (f : TimeBase → TimeBase) : (s.onTim f).out = s.out := rfl
@[simp] theorem State.onTim_free (f : TimeBase → TimeBase) : (s.onTim f).free = s.free := rfl
@[simp] theorem State.onTim_regs (f : TimeBase → TimeBase) : (s.onTim f).regs = s.regs := rfl
@[simp] theorem State.onTim_tim (f : TimeBase → TimeBase) : (s.onTim f).tim = f s.tim := rfl
@[simp] theorem State.onTim_pol (f : TimeBase → TimeBase) : (s.onTim f).pol = s.pol := rfl
@[simp] theorem State.onTim_ports (f : TimeBase → TimeBase) : (s.onTim f).ports = s.ports := rfl
@[simp] theorem State.onTim_links (f : TimeBase → TimeBase) : (s.onTim f).links = s.links := rfl
@[simp] theorem State.onTim_side (f : TimeBase → TimeBase) : (s.onTim f).side = s.side := rfl
@[simp] theorem State.onTim_devs (f : TimeBase → TimeBase) : (s.onTim f).devs = s.devs := rfl
@[simp] theorem State.onTim_ctxs (f : TimeBase → TimeBase) : (s.onTim f).ctxs = s.ctxs := rfl
@[simp] theorem State.onTim_cmgr (f : TimeBase → TimeBase) : (s.onTim f).cmgr = s.cmgr := rfl
@[simp] theorem State.onTim_txns (f : TimeBase → TimeBase) : (s.onTim f).txns = s.txns := rfl
@[simp] theorem State.onTim_rings (f : TimeBase → TimeBase) : (s.onTim f).rings = s.rings := rfl
@[simp] theorem State.onTim_entries (f : TimeBase → TimeBase) : (s.onTim f).entries = s.entries := rfl
@[simp] theorem State.onTim_cmds (f : TimeBase → TimeBase) : (s.onTim f).cmds = s.cmds := rfl
@[simp] theorem State.onTim_sched (f : TimeBase → TimeBase) : (s.onTim f).sched = s.sched := rfl
@[simp] theorem State.onTim_deal (f : TimeBase → TimeBase) : (s.onTim f).deal = s.deal := rfl
@[simp] theorem State.onTim_slices (f : TimeBase → TimeBase) : (s.onTim f).slices = s.slices := rfl
@[simp] theorem State.onTim_icu (f : TimeBase → TimeBase) : (s.onTim f).icu = s.icu := rfl
@[simp] theorem State.onTim_pool (f : TimeBase → TimeBase) : (s.onTim f).pool = s.pool := rfl
@[simp] theorem State.onTim_pwr (f : TimeBase → TimeBase) : (s.onTim f).pwr = s.pwr := rfl
@[simp] theorem State.onTim_twin (f : TimeBase → TimeBase) : (s.onTim f).twin = s.twin := rfl
@[simp] theorem State.onTim_smp (f : TimeBase → TimeBase) : (s.onTim f).smp = s.smp := rfl
@[simp] theorem State.onTim_audit (f : TimeBase → TimeBase) : (s.onTim f).audit = s.audit := rfl
@[simp] theorem State.onTim_mov (f : TimeBase → TimeBase) : (s.onTim f).mov = s.mov := rfl
@[simp] theorem State.onTim_hlt (f : TimeBase → TimeBase) : (s.onTim f).hlt = s.hlt := rfl
@[simp] theorem State.onTim_aer (f : TimeBase → TimeBase) : (s.onTim f).aer = s.aer := rfl
@[simp] theorem State.onTim_ind (f : TimeBase → TimeBase) : (s.onTim f).ind = s.ind := rfl

/-! ### `State.onPol` -/

@[simp] theorem State.onPol_pending (f : Policy → Policy) : (s.onPol f).pending = s.pending := rfl
@[simp] theorem State.onPol_out (f : Policy → Policy) : (s.onPol f).out = s.out := rfl
@[simp] theorem State.onPol_free (f : Policy → Policy) : (s.onPol f).free = s.free := rfl
@[simp] theorem State.onPol_regs (f : Policy → Policy) : (s.onPol f).regs = s.regs := rfl
@[simp] theorem State.onPol_tim (f : Policy → Policy) : (s.onPol f).tim = s.tim := rfl
@[simp] theorem State.onPol_pol (f : Policy → Policy) : (s.onPol f).pol = f s.pol := rfl
@[simp] theorem State.onPol_ports (f : Policy → Policy) : (s.onPol f).ports = s.ports := rfl
@[simp] theorem State.onPol_links (f : Policy → Policy) : (s.onPol f).links = s.links := rfl
@[simp] theorem State.onPol_side (f : Policy → Policy) : (s.onPol f).side = s.side := rfl
@[simp] theorem State.onPol_devs (f : Policy → Policy) : (s.onPol f).devs = s.devs := rfl
@[simp] theorem State.onPol_ctxs (f : Policy → Policy) : (s.onPol f).ctxs = s.ctxs := rfl
@[simp] theorem State.onPol_cmgr (f : Policy → Policy) : (s.onPol f).cmgr = s.cmgr := rfl
@[simp] theorem State.onPol_txns (f : Policy → Policy) : (s.onPol f).txns = s.txns := rfl
@[simp] theorem State.onPol_rings (f : Policy → Policy) : (s.onPol f).rings = s.rings := rfl
@[simp] theorem State.onPol_entries (f : Policy → Policy) : (s.onPol f).entries = s.entries := rfl
@[simp] theorem State.onPol_cmds (f : Policy → Policy) : (s.onPol f).cmds = s.cmds := rfl
@[simp] theorem State.onPol_sched (f : Policy → Policy) : (s.onPol f).sched = s.sched := rfl
@[simp] theorem State.onPol_deal (f : Policy → Policy) : (s.onPol f).deal = s.deal := rfl
@[simp] theorem State.onPol_slices (f : Policy → Policy) : (s.onPol f).slices = s.slices := rfl
@[simp] theorem State.onPol_icu (f : Policy → Policy) : (s.onPol f).icu = s.icu := rfl
@[simp] theorem State.onPol_pool (f : Policy → Policy) : (s.onPol f).pool = s.pool := rfl
@[simp] theorem State.onPol_pwr (f : Policy → Policy) : (s.onPol f).pwr = s.pwr := rfl
@[simp] theorem State.onPol_twin (f : Policy → Policy) : (s.onPol f).twin = s.twin := rfl
@[simp] theorem State.onPol_smp (f : Policy → Policy) : (s.onPol f).smp = s.smp := rfl
@[simp] theorem State.onPol_audit (f : Policy → Policy) : (s.onPol f).audit = s.audit := rfl
@[simp] theorem State.onPol_mov (f : Policy → Policy) : (s.onPol f).mov = s.mov := rfl
@[simp] theorem State.onPol_hlt (f : Policy → Policy) : (s.onPol f).hlt = s.hlt := rfl
@[simp] theorem State.onPol_aer (f : Policy → Policy) : (s.onPol f).aer = s.aer := rfl
@[simp] theorem State.onPol_ind (f : Policy → Policy) : (s.onPol f).ind = s.ind := rfl

/-! ### `State.onSched` -/

@[simp] theorem State.onSched_pending (f : Sched → Sched) : (s.onSched f).pending = s.pending := rfl
@[simp] theorem State.onSched_out (f : Sched → Sched) : (s.onSched f).out = s.out := rfl
@[simp] theorem State.onSched_free (f : Sched → Sched) : (s.onSched f).free = s.free := rfl
@[simp] theorem State.onSched_regs (f : Sched → Sched) : (s.onSched f).regs = s.regs := rfl
@[simp] theorem State.onSched_tim (f : Sched → Sched) : (s.onSched f).tim = s.tim := rfl
@[simp] theorem State.onSched_pol (f : Sched → Sched) : (s.onSched f).pol = s.pol := rfl
@[simp] theorem State.onSched_ports (f : Sched → Sched) : (s.onSched f).ports = s.ports := rfl
@[simp] theorem State.onSched_links (f : Sched → Sched) : (s.onSched f).links = s.links := rfl
@[simp] theorem State.onSched_side (f : Sched → Sched) : (s.onSched f).side = s.side := rfl
@[simp] theorem State.onSched_devs (f : Sched → Sched) : (s.onSched f).devs = s.devs := rfl
@[simp] theorem State.onSched_ctxs (f : Sched → Sched) : (s.onSched f).ctxs = s.ctxs := rfl
@[simp] theorem State.onSched_cmgr (f : Sched → Sched) : (s.onSched f).cmgr = s.cmgr := rfl
@[simp] theorem State.onSched_txns (f : Sched → Sched) : (s.onSched f).txns = s.txns := rfl
@[simp] theorem State.onSched_rings (f : Sched → Sched) : (s.onSched f).rings = s.rings := rfl
@[simp] theorem State.onSched_entries (f : Sched → Sched) : (s.onSched f).entries = s.entries := rfl
@[simp] theorem State.onSched_cmds (f : Sched → Sched) : (s.onSched f).cmds = s.cmds := rfl
@[simp] theorem State.onSched_sched (f : Sched → Sched) : (s.onSched f).sched = f s.sched := rfl
@[simp] theorem State.onSched_deal (f : Sched → Sched) : (s.onSched f).deal = s.deal := rfl
@[simp] theorem State.onSched_slices (f : Sched → Sched) : (s.onSched f).slices = s.slices := rfl
@[simp] theorem State.onSched_icu (f : Sched → Sched) : (s.onSched f).icu = s.icu := rfl
@[simp] theorem State.onSched_pool (f : Sched → Sched) : (s.onSched f).pool = s.pool := rfl
@[simp] theorem State.onSched_pwr (f : Sched → Sched) : (s.onSched f).pwr = s.pwr := rfl
@[simp] theorem State.onSched_twin (f : Sched → Sched) : (s.onSched f).twin = s.twin := rfl
@[simp] theorem State.onSched_smp (f : Sched → Sched) : (s.onSched f).smp = s.smp := rfl
@[simp] theorem State.onSched_audit (f : Sched → Sched) : (s.onSched f).audit = s.audit := rfl
@[simp] theorem State.onSched_mov (f : Sched → Sched) : (s.onSched f).mov = s.mov := rfl
@[simp] theorem State.onSched_hlt (f : Sched → Sched) : (s.onSched f).hlt = s.hlt := rfl
@[simp] theorem State.onSched_aer (f : Sched → Sched) : (s.onSched f).aer = s.aer := rfl
@[simp] theorem State.onSched_ind (f : Sched → Sched) : (s.onSched f).ind = s.ind := rfl

/-! ### `State.onDeal` -/

@[simp] theorem State.onDeal_pending (f : Dealer → Dealer) : (s.onDeal f).pending = s.pending := rfl
@[simp] theorem State.onDeal_out (f : Dealer → Dealer) : (s.onDeal f).out = s.out := rfl
@[simp] theorem State.onDeal_free (f : Dealer → Dealer) : (s.onDeal f).free = s.free := rfl
@[simp] theorem State.onDeal_regs (f : Dealer → Dealer) : (s.onDeal f).regs = s.regs := rfl
@[simp] theorem State.onDeal_tim (f : Dealer → Dealer) : (s.onDeal f).tim = s.tim := rfl
@[simp] theorem State.onDeal_pol (f : Dealer → Dealer) : (s.onDeal f).pol = s.pol := rfl
@[simp] theorem State.onDeal_ports (f : Dealer → Dealer) : (s.onDeal f).ports = s.ports := rfl
@[simp] theorem State.onDeal_links (f : Dealer → Dealer) : (s.onDeal f).links = s.links := rfl
@[simp] theorem State.onDeal_side (f : Dealer → Dealer) : (s.onDeal f).side = s.side := rfl
@[simp] theorem State.onDeal_devs (f : Dealer → Dealer) : (s.onDeal f).devs = s.devs := rfl
@[simp] theorem State.onDeal_ctxs (f : Dealer → Dealer) : (s.onDeal f).ctxs = s.ctxs := rfl
@[simp] theorem State.onDeal_cmgr (f : Dealer → Dealer) : (s.onDeal f).cmgr = s.cmgr := rfl
@[simp] theorem State.onDeal_txns (f : Dealer → Dealer) : (s.onDeal f).txns = s.txns := rfl
@[simp] theorem State.onDeal_rings (f : Dealer → Dealer) : (s.onDeal f).rings = s.rings := rfl
@[simp] theorem State.onDeal_entries (f : Dealer → Dealer) : (s.onDeal f).entries = s.entries := rfl
@[simp] theorem State.onDeal_cmds (f : Dealer → Dealer) : (s.onDeal f).cmds = s.cmds := rfl
@[simp] theorem State.onDeal_sched (f : Dealer → Dealer) : (s.onDeal f).sched = s.sched := rfl
@[simp] theorem State.onDeal_deal (f : Dealer → Dealer) : (s.onDeal f).deal = f s.deal := rfl
@[simp] theorem State.onDeal_slices (f : Dealer → Dealer) : (s.onDeal f).slices = s.slices := rfl
@[simp] theorem State.onDeal_icu (f : Dealer → Dealer) : (s.onDeal f).icu = s.icu := rfl
@[simp] theorem State.onDeal_pool (f : Dealer → Dealer) : (s.onDeal f).pool = s.pool := rfl
@[simp] theorem State.onDeal_pwr (f : Dealer → Dealer) : (s.onDeal f).pwr = s.pwr := rfl
@[simp] theorem State.onDeal_twin (f : Dealer → Dealer) : (s.onDeal f).twin = s.twin := rfl
@[simp] theorem State.onDeal_smp (f : Dealer → Dealer) : (s.onDeal f).smp = s.smp := rfl
@[simp] theorem State.onDeal_audit (f : Dealer → Dealer) : (s.onDeal f).audit = s.audit := rfl
@[simp] theorem State.onDeal_mov (f : Dealer → Dealer) : (s.onDeal f).mov = s.mov := rfl
@[simp] theorem State.onDeal_hlt (f : Dealer → Dealer) : (s.onDeal f).hlt = s.hlt := rfl
@[simp] theorem State.onDeal_aer (f : Dealer → Dealer) : (s.onDeal f).aer = s.aer := rfl
@[simp] theorem State.onDeal_ind (f : Dealer → Dealer) : (s.onDeal f).ind = s.ind := rfl

/-! ### `State.onHlt` -/

@[simp] theorem State.onHlt_pending (f : Health → Health) : (s.onHlt f).pending = s.pending := rfl
@[simp] theorem State.onHlt_out (f : Health → Health) : (s.onHlt f).out = s.out := rfl
@[simp] theorem State.onHlt_free (f : Health → Health) : (s.onHlt f).free = s.free := rfl
@[simp] theorem State.onHlt_regs (f : Health → Health) : (s.onHlt f).regs = s.regs := rfl
@[simp] theorem State.onHlt_tim (f : Health → Health) : (s.onHlt f).tim = s.tim := rfl
@[simp] theorem State.onHlt_pol (f : Health → Health) : (s.onHlt f).pol = s.pol := rfl
@[simp] theorem State.onHlt_ports (f : Health → Health) : (s.onHlt f).ports = s.ports := rfl
@[simp] theorem State.onHlt_links (f : Health → Health) : (s.onHlt f).links = s.links := rfl
@[simp] theorem State.onHlt_side (f : Health → Health) : (s.onHlt f).side = s.side := rfl
@[simp] theorem State.onHlt_devs (f : Health → Health) : (s.onHlt f).devs = s.devs := rfl
@[simp] theorem State.onHlt_ctxs (f : Health → Health) : (s.onHlt f).ctxs = s.ctxs := rfl
@[simp] theorem State.onHlt_cmgr (f : Health → Health) : (s.onHlt f).cmgr = s.cmgr := rfl
@[simp] theorem State.onHlt_txns (f : Health → Health) : (s.onHlt f).txns = s.txns := rfl
@[simp] theorem State.onHlt_rings (f : Health → Health) : (s.onHlt f).rings = s.rings := rfl
@[simp] theorem State.onHlt_entries (f : Health → Health) : (s.onHlt f).entries = s.entries := rfl
@[simp] theorem State.onHlt_cmds (f : Health → Health) : (s.onHlt f).cmds = s.cmds := rfl
@[simp] theorem State.onHlt_sched (f : Health → Health) : (s.onHlt f).sched = s.sched := rfl
@[simp] theorem State.onHlt_deal (f : Health → Health) : (s.onHlt f).deal = s.deal := rfl
@[simp] theorem State.onHlt_slices (f : Health → Health) : (s.onHlt f).slices = s.slices := rfl
@[simp] theorem State.onHlt_icu (f : Health → Health) : (s.onHlt f).icu = s.icu := rfl
@[simp] theorem State.onHlt_pool (f : Health → Health) : (s.onHlt f).pool = s.pool := rfl
@[simp] theorem State.onHlt_pwr (f : Health → Health) : (s.onHlt f).pwr = s.pwr := rfl
@[simp] theorem State.onHlt_twin (f : Health → Health) : (s.onHlt f).twin = s.twin := rfl
@[simp] theorem State.onHlt_smp (f : Health → Health) : (s.onHlt f).smp = s.smp := rfl
@[simp] theorem State.onHlt_audit (f : Health → Health) : (s.onHlt f).audit = s.audit := rfl
@[simp] theorem State.onHlt_mov (f : Health → Health) : (s.onHlt f).mov = s.mov := rfl
@[simp] theorem State.onHlt_hlt (f : Health → Health) : (s.onHlt f).hlt = f s.hlt := rfl
@[simp] theorem State.onHlt_aer (f : Health → Health) : (s.onHlt f).aer = s.aer := rfl
@[simp] theorem State.onHlt_ind (f : Health → Health) : (s.onHlt f).ind = s.ind := rfl

/-! ### `State.onIcu` -/

@[simp] theorem State.onIcu_pending (f : Icu → Icu) : (s.onIcu f).pending = s.pending := rfl
@[simp] theorem State.onIcu_out (f : Icu → Icu) : (s.onIcu f).out = s.out := rfl
@[simp] theorem State.onIcu_free (f : Icu → Icu) : (s.onIcu f).free = s.free := rfl
@[simp] theorem State.onIcu_regs (f : Icu → Icu) : (s.onIcu f).regs = s.regs := rfl
@[simp] theorem State.onIcu_tim (f : Icu → Icu) : (s.onIcu f).tim = s.tim := rfl
@[simp] theorem State.onIcu_pol (f : Icu → Icu) : (s.onIcu f).pol = s.pol := rfl
@[simp] theorem State.onIcu_ports (f : Icu → Icu) : (s.onIcu f).ports = s.ports := rfl
@[simp] theorem State.onIcu_links (f : Icu → Icu) : (s.onIcu f).links = s.links := rfl
@[simp] theorem State.onIcu_side (f : Icu → Icu) : (s.onIcu f).side = s.side := rfl
@[simp] theorem State.onIcu_devs (f : Icu → Icu) : (s.onIcu f).devs = s.devs := rfl
@[simp] theorem State.onIcu_ctxs (f : Icu → Icu) : (s.onIcu f).ctxs = s.ctxs := rfl
@[simp] theorem State.onIcu_cmgr (f : Icu → Icu) : (s.onIcu f).cmgr = s.cmgr := rfl
@[simp] theorem State.onIcu_txns (f : Icu → Icu) : (s.onIcu f).txns = s.txns := rfl
@[simp] theorem State.onIcu_rings (f : Icu → Icu) : (s.onIcu f).rings = s.rings := rfl
@[simp] theorem State.onIcu_entries (f : Icu → Icu) : (s.onIcu f).entries = s.entries := rfl
@[simp] theorem State.onIcu_cmds (f : Icu → Icu) : (s.onIcu f).cmds = s.cmds := rfl
@[simp] theorem State.onIcu_sched (f : Icu → Icu) : (s.onIcu f).sched = s.sched := rfl
@[simp] theorem State.onIcu_deal (f : Icu → Icu) : (s.onIcu f).deal = s.deal := rfl
@[simp] theorem State.onIcu_slices (f : Icu → Icu) : (s.onIcu f).slices = s.slices := rfl
@[simp] theorem State.onIcu_icu (f : Icu → Icu) : (s.onIcu f).icu = f s.icu := rfl
@[simp] theorem State.onIcu_pool (f : Icu → Icu) : (s.onIcu f).pool = s.pool := rfl
@[simp] theorem State.onIcu_pwr (f : Icu → Icu) : (s.onIcu f).pwr = s.pwr := rfl
@[simp] theorem State.onIcu_twin (f : Icu → Icu) : (s.onIcu f).twin = s.twin := rfl
@[simp] theorem State.onIcu_smp (f : Icu → Icu) : (s.onIcu f).smp = s.smp := rfl
@[simp] theorem State.onIcu_audit (f : Icu → Icu) : (s.onIcu f).audit = s.audit := rfl
@[simp] theorem State.onIcu_mov (f : Icu → Icu) : (s.onIcu f).mov = s.mov := rfl
@[simp] theorem State.onIcu_hlt (f : Icu → Icu) : (s.onIcu f).hlt = s.hlt := rfl
@[simp] theorem State.onIcu_aer (f : Icu → Icu) : (s.onIcu f).aer = s.aer := rfl
@[simp] theorem State.onIcu_ind (f : Icu → Icu) : (s.onIcu f).ind = s.ind := rfl

/-! ### `State.onCmgr` -/

@[simp] theorem State.onCmgr_pending (f : CtxMgr → CtxMgr) : (s.onCmgr f).pending = s.pending := rfl
@[simp] theorem State.onCmgr_out (f : CtxMgr → CtxMgr) : (s.onCmgr f).out = s.out := rfl
@[simp] theorem State.onCmgr_free (f : CtxMgr → CtxMgr) : (s.onCmgr f).free = s.free := rfl
@[simp] theorem State.onCmgr_regs (f : CtxMgr → CtxMgr) : (s.onCmgr f).regs = s.regs := rfl
@[simp] theorem State.onCmgr_tim (f : CtxMgr → CtxMgr) : (s.onCmgr f).tim = s.tim := rfl
@[simp] theorem State.onCmgr_pol (f : CtxMgr → CtxMgr) : (s.onCmgr f).pol = s.pol := rfl
@[simp] theorem State.onCmgr_ports (f : CtxMgr → CtxMgr) : (s.onCmgr f).ports = s.ports := rfl
@[simp] theorem State.onCmgr_links (f : CtxMgr → CtxMgr) : (s.onCmgr f).links = s.links := rfl
@[simp] theorem State.onCmgr_side (f : CtxMgr → CtxMgr) : (s.onCmgr f).side = s.side := rfl
@[simp] theorem State.onCmgr_devs (f : CtxMgr → CtxMgr) : (s.onCmgr f).devs = s.devs := rfl
@[simp] theorem State.onCmgr_ctxs (f : CtxMgr → CtxMgr) : (s.onCmgr f).ctxs = s.ctxs := rfl
@[simp] theorem State.onCmgr_cmgr (f : CtxMgr → CtxMgr) : (s.onCmgr f).cmgr = f s.cmgr := rfl
@[simp] theorem State.onCmgr_txns (f : CtxMgr → CtxMgr) : (s.onCmgr f).txns = s.txns := rfl
@[simp] theorem State.onCmgr_rings (f : CtxMgr → CtxMgr) : (s.onCmgr f).rings = s.rings := rfl
@[simp] theorem State.onCmgr_entries (f : CtxMgr → CtxMgr) : (s.onCmgr f).entries = s.entries := rfl
@[simp] theorem State.onCmgr_cmds (f : CtxMgr → CtxMgr) : (s.onCmgr f).cmds = s.cmds := rfl
@[simp] theorem State.onCmgr_sched (f : CtxMgr → CtxMgr) : (s.onCmgr f).sched = s.sched := rfl
@[simp] theorem State.onCmgr_deal (f : CtxMgr → CtxMgr) : (s.onCmgr f).deal = s.deal := rfl
@[simp] theorem State.onCmgr_slices (f : CtxMgr → CtxMgr) : (s.onCmgr f).slices = s.slices := rfl
@[simp] theorem State.onCmgr_icu (f : CtxMgr → CtxMgr) : (s.onCmgr f).icu = s.icu := rfl
@[simp] theorem State.onCmgr_pool (f : CtxMgr → CtxMgr) : (s.onCmgr f).pool = s.pool := rfl
@[simp] theorem State.onCmgr_pwr (f : CtxMgr → CtxMgr) : (s.onCmgr f).pwr = s.pwr := rfl
@[simp] theorem State.onCmgr_twin (f : CtxMgr → CtxMgr) : (s.onCmgr f).twin = s.twin := rfl
@[simp] theorem State.onCmgr_smp (f : CtxMgr → CtxMgr) : (s.onCmgr f).smp = s.smp := rfl
@[simp] theorem State.onCmgr_audit (f : CtxMgr → CtxMgr) : (s.onCmgr f).audit = s.audit := rfl
@[simp] theorem State.onCmgr_mov (f : CtxMgr → CtxMgr) : (s.onCmgr f).mov = s.mov := rfl
@[simp] theorem State.onCmgr_hlt (f : CtxMgr → CtxMgr) : (s.onCmgr f).hlt = s.hlt := rfl
@[simp] theorem State.onCmgr_aer (f : CtxMgr → CtxMgr) : (s.onCmgr f).aer = s.aer := rfl
@[simp] theorem State.onCmgr_ind (f : CtxMgr → CtxMgr) : (s.onCmgr f).ind = s.ind := rfl

/-! ### `State.onPwr` -/

@[simp] theorem State.onPwr_pending (f : Power → Power) : (s.onPwr f).pending = s.pending := rfl
@[simp] theorem State.onPwr_out (f : Power → Power) : (s.onPwr f).out = s.out := rfl
@[simp] theorem State.onPwr_free (f : Power → Power) : (s.onPwr f).free = s.free := rfl
@[simp] theorem State.onPwr_regs (f : Power → Power) : (s.onPwr f).regs = s.regs := rfl
@[simp] theorem State.onPwr_tim (f : Power → Power) : (s.onPwr f).tim = s.tim := rfl
@[simp] theorem State.onPwr_pol (f : Power → Power) : (s.onPwr f).pol = s.pol := rfl
@[simp] theorem State.onPwr_ports (f : Power → Power) : (s.onPwr f).ports = s.ports := rfl
@[simp] theorem State.onPwr_links (f : Power → Power) : (s.onPwr f).links = s.links := rfl
@[simp] theorem State.onPwr_side (f : Power → Power) : (s.onPwr f).side = s.side := rfl
@[simp] theorem State.onPwr_devs (f : Power → Power) : (s.onPwr f).devs = s.devs := rfl
@[simp] theorem State.onPwr_ctxs (f : Power → Power) : (s.onPwr f).ctxs = s.ctxs := rfl
@[simp] theorem State.onPwr_cmgr (f : Power → Power) : (s.onPwr f).cmgr = s.cmgr := rfl
@[simp] theorem State.onPwr_txns (f : Power → Power) : (s.onPwr f).txns = s.txns := rfl
@[simp] theorem State.onPwr_rings (f : Power → Power) : (s.onPwr f).rings = s.rings := rfl
@[simp] theorem State.onPwr_entries (f : Power → Power) : (s.onPwr f).entries = s.entries := rfl
@[simp] theorem State.onPwr_cmds (f : Power → Power) : (s.onPwr f).cmds = s.cmds := rfl
@[simp] theorem State.onPwr_sched (f : Power → Power) : (s.onPwr f).sched = s.sched := rfl
@[simp] theorem State.onPwr_deal (f : Power → Power) : (s.onPwr f).deal = s.deal := rfl
@[simp] theorem State.onPwr_slices (f : Power → Power) : (s.onPwr f).slices = s.slices := rfl
@[simp] theorem State.onPwr_icu (f : Power → Power) : (s.onPwr f).icu = s.icu := rfl
@[simp] theorem State.onPwr_pool (f : Power → Power) : (s.onPwr f).pool = s.pool := rfl
@[simp] theorem State.onPwr_pwr (f : Power → Power) : (s.onPwr f).pwr = f s.pwr := rfl
@[simp] theorem State.onPwr_twin (f : Power → Power) : (s.onPwr f).twin = s.twin := rfl
@[simp] theorem State.onPwr_smp (f : Power → Power) : (s.onPwr f).smp = s.smp := rfl
@[simp] theorem State.onPwr_audit (f : Power → Power) : (s.onPwr f).audit = s.audit := rfl
@[simp] theorem State.onPwr_mov (f : Power → Power) : (s.onPwr f).mov = s.mov := rfl
@[simp] theorem State.onPwr_hlt (f : Power → Power) : (s.onPwr f).hlt = s.hlt := rfl
@[simp] theorem State.onPwr_aer (f : Power → Power) : (s.onPwr f).aer = s.aer := rfl
@[simp] theorem State.onPwr_ind (f : Power → Power) : (s.onPwr f).ind = s.ind := rfl

/-! ### `State.onSmp` -/

@[simp] theorem State.onSmp_pending (f : Sample → Sample) : (s.onSmp f).pending = s.pending := rfl
@[simp] theorem State.onSmp_out (f : Sample → Sample) : (s.onSmp f).out = s.out := rfl
@[simp] theorem State.onSmp_free (f : Sample → Sample) : (s.onSmp f).free = s.free := rfl
@[simp] theorem State.onSmp_regs (f : Sample → Sample) : (s.onSmp f).regs = s.regs := rfl
@[simp] theorem State.onSmp_tim (f : Sample → Sample) : (s.onSmp f).tim = s.tim := rfl
@[simp] theorem State.onSmp_pol (f : Sample → Sample) : (s.onSmp f).pol = s.pol := rfl
@[simp] theorem State.onSmp_ports (f : Sample → Sample) : (s.onSmp f).ports = s.ports := rfl
@[simp] theorem State.onSmp_links (f : Sample → Sample) : (s.onSmp f).links = s.links := rfl
@[simp] theorem State.onSmp_side (f : Sample → Sample) : (s.onSmp f).side = s.side := rfl
@[simp] theorem State.onSmp_devs (f : Sample → Sample) : (s.onSmp f).devs = s.devs := rfl
@[simp] theorem State.onSmp_ctxs (f : Sample → Sample) : (s.onSmp f).ctxs = s.ctxs := rfl
@[simp] theorem State.onSmp_cmgr (f : Sample → Sample) : (s.onSmp f).cmgr = s.cmgr := rfl
@[simp] theorem State.onSmp_txns (f : Sample → Sample) : (s.onSmp f).txns = s.txns := rfl
@[simp] theorem State.onSmp_rings (f : Sample → Sample) : (s.onSmp f).rings = s.rings := rfl
@[simp] theorem State.onSmp_entries (f : Sample → Sample) : (s.onSmp f).entries = s.entries := rfl
@[simp] theorem State.onSmp_cmds (f : Sample → Sample) : (s.onSmp f).cmds = s.cmds := rfl
@[simp] theorem State.onSmp_sched (f : Sample → Sample) : (s.onSmp f).sched = s.sched := rfl
@[simp] theorem State.onSmp_deal (f : Sample → Sample) : (s.onSmp f).deal = s.deal := rfl
@[simp] theorem State.onSmp_slices (f : Sample → Sample) : (s.onSmp f).slices = s.slices := rfl
@[simp] theorem State.onSmp_icu (f : Sample → Sample) : (s.onSmp f).icu = s.icu := rfl
@[simp] theorem State.onSmp_pool (f : Sample → Sample) : (s.onSmp f).pool = s.pool := rfl
@[simp] theorem State.onSmp_pwr (f : Sample → Sample) : (s.onSmp f).pwr = s.pwr := rfl
@[simp] theorem State.onSmp_twin (f : Sample → Sample) : (s.onSmp f).twin = s.twin := rfl
@[simp] theorem State.onSmp_smp (f : Sample → Sample) : (s.onSmp f).smp = f s.smp := rfl
@[simp] theorem State.onSmp_audit (f : Sample → Sample) : (s.onSmp f).audit = s.audit := rfl
@[simp] theorem State.onSmp_mov (f : Sample → Sample) : (s.onSmp f).mov = s.mov := rfl
@[simp] theorem State.onSmp_hlt (f : Sample → Sample) : (s.onSmp f).hlt = s.hlt := rfl
@[simp] theorem State.onSmp_aer (f : Sample → Sample) : (s.onSmp f).aer = s.aer := rfl
@[simp] theorem State.onSmp_ind (f : Sample → Sample) : (s.onSmp f).ind = s.ind := rfl

/-! ### `State.onTwin` -/

@[simp] theorem State.onTwin_pending (f : Twin → Twin) : (s.onTwin f).pending = s.pending := rfl
@[simp] theorem State.onTwin_out (f : Twin → Twin) : (s.onTwin f).out = s.out := rfl
@[simp] theorem State.onTwin_free (f : Twin → Twin) : (s.onTwin f).free = s.free := rfl
@[simp] theorem State.onTwin_regs (f : Twin → Twin) : (s.onTwin f).regs = s.regs := rfl
@[simp] theorem State.onTwin_tim (f : Twin → Twin) : (s.onTwin f).tim = s.tim := rfl
@[simp] theorem State.onTwin_pol (f : Twin → Twin) : (s.onTwin f).pol = s.pol := rfl
@[simp] theorem State.onTwin_ports (f : Twin → Twin) : (s.onTwin f).ports = s.ports := rfl
@[simp] theorem State.onTwin_links (f : Twin → Twin) : (s.onTwin f).links = s.links := rfl
@[simp] theorem State.onTwin_side (f : Twin → Twin) : (s.onTwin f).side = s.side := rfl
@[simp] theorem State.onTwin_devs (f : Twin → Twin) : (s.onTwin f).devs = s.devs := rfl
@[simp] theorem State.onTwin_ctxs (f : Twin → Twin) : (s.onTwin f).ctxs = s.ctxs := rfl
@[simp] theorem State.onTwin_cmgr (f : Twin → Twin) : (s.onTwin f).cmgr = s.cmgr := rfl
@[simp] theorem State.onTwin_txns (f : Twin → Twin) : (s.onTwin f).txns = s.txns := rfl
@[simp] theorem State.onTwin_rings (f : Twin → Twin) : (s.onTwin f).rings = s.rings := rfl
@[simp] theorem State.onTwin_entries (f : Twin → Twin) : (s.onTwin f).entries = s.entries := rfl
@[simp] theorem State.onTwin_cmds (f : Twin → Twin) : (s.onTwin f).cmds = s.cmds := rfl
@[simp] theorem State.onTwin_sched (f : Twin → Twin) : (s.onTwin f).sched = s.sched := rfl
@[simp] theorem State.onTwin_deal (f : Twin → Twin) : (s.onTwin f).deal = s.deal := rfl
@[simp] theorem State.onTwin_slices (f : Twin → Twin) : (s.onTwin f).slices = s.slices := rfl
@[simp] theorem State.onTwin_icu (f : Twin → Twin) : (s.onTwin f).icu = s.icu := rfl
@[simp] theorem State.onTwin_pool (f : Twin → Twin) : (s.onTwin f).pool = s.pool := rfl
@[simp] theorem State.onTwin_pwr (f : Twin → Twin) : (s.onTwin f).pwr = s.pwr := rfl
@[simp] theorem State.onTwin_twin (f : Twin → Twin) : (s.onTwin f).twin = f s.twin := rfl
@[simp] theorem State.onTwin_smp (f : Twin → Twin) : (s.onTwin f).smp = s.smp := rfl
@[simp] theorem State.onTwin_audit (f : Twin → Twin) : (s.onTwin f).audit = s.audit := rfl
@[simp] theorem State.onTwin_mov (f : Twin → Twin) : (s.onTwin f).mov = s.mov := rfl
@[simp] theorem State.onTwin_hlt (f : Twin → Twin) : (s.onTwin f).hlt = s.hlt := rfl
@[simp] theorem State.onTwin_aer (f : Twin → Twin) : (s.onTwin f).aer = s.aer := rfl
@[simp] theorem State.onTwin_ind (f : Twin → Twin) : (s.onTwin f).ind = s.ind := rfl

/-! ### `State.onSide` -/

@[simp] theorem State.onSide_pending (f : Sideband → Sideband) : (s.onSide f).pending = s.pending := rfl
@[simp] theorem State.onSide_out (f : Sideband → Sideband) : (s.onSide f).out = s.out := rfl
@[simp] theorem State.onSide_free (f : Sideband → Sideband) : (s.onSide f).free = s.free := rfl
@[simp] theorem State.onSide_regs (f : Sideband → Sideband) : (s.onSide f).regs = s.regs := rfl
@[simp] theorem State.onSide_tim (f : Sideband → Sideband) : (s.onSide f).tim = s.tim := rfl
@[simp] theorem State.onSide_pol (f : Sideband → Sideband) : (s.onSide f).pol = s.pol := rfl
@[simp] theorem State.onSide_ports (f : Sideband → Sideband) : (s.onSide f).ports = s.ports := rfl
@[simp] theorem State.onSide_links (f : Sideband → Sideband) : (s.onSide f).links = s.links := rfl
@[simp] theorem State.onSide_side (f : Sideband → Sideband) : (s.onSide f).side = f s.side := rfl
@[simp] theorem State.onSide_devs (f : Sideband → Sideband) : (s.onSide f).devs = s.devs := rfl
@[simp] theorem State.onSide_ctxs (f : Sideband → Sideband) : (s.onSide f).ctxs = s.ctxs := rfl
@[simp] theorem State.onSide_cmgr (f : Sideband → Sideband) : (s.onSide f).cmgr = s.cmgr := rfl
@[simp] theorem State.onSide_txns (f : Sideband → Sideband) : (s.onSide f).txns = s.txns := rfl
@[simp] theorem State.onSide_rings (f : Sideband → Sideband) : (s.onSide f).rings = s.rings := rfl
@[simp] theorem State.onSide_entries (f : Sideband → Sideband) : (s.onSide f).entries = s.entries := rfl
@[simp] theorem State.onSide_cmds (f : Sideband → Sideband) : (s.onSide f).cmds = s.cmds := rfl
@[simp] theorem State.onSide_sched (f : Sideband → Sideband) : (s.onSide f).sched = s.sched := rfl
@[simp] theorem State.onSide_deal (f : Sideband → Sideband) : (s.onSide f).deal = s.deal := rfl
@[simp] theorem State.onSide_slices (f : Sideband → Sideband) : (s.onSide f).slices = s.slices := rfl
@[simp] theorem State.onSide_icu (f : Sideband → Sideband) : (s.onSide f).icu = s.icu := rfl
@[simp] theorem State.onSide_pool (f : Sideband → Sideband) : (s.onSide f).pool = s.pool := rfl
@[simp] theorem State.onSide_pwr (f : Sideband → Sideband) : (s.onSide f).pwr = s.pwr := rfl
@[simp] theorem State.onSide_twin (f : Sideband → Sideband) : (s.onSide f).twin = s.twin := rfl
@[simp] theorem State.onSide_smp (f : Sideband → Sideband) : (s.onSide f).smp = s.smp := rfl
@[simp] theorem State.onSide_audit (f : Sideband → Sideband) : (s.onSide f).audit = s.audit := rfl
@[simp] theorem State.onSide_mov (f : Sideband → Sideband) : (s.onSide f).mov = s.mov := rfl
@[simp] theorem State.onSide_hlt (f : Sideband → Sideband) : (s.onSide f).hlt = s.hlt := rfl
@[simp] theorem State.onSide_aer (f : Sideband → Sideband) : (s.onSide f).aer = s.aer := rfl
@[simp] theorem State.onSide_ind (f : Sideband → Sideband) : (s.onSide f).ind = s.ind := rfl

/-! ### `State.onAudit` -/

@[simp] theorem State.onAudit_pending (f : Audit → Audit) : (s.onAudit f).pending = s.pending := rfl
@[simp] theorem State.onAudit_out (f : Audit → Audit) : (s.onAudit f).out = s.out := rfl
@[simp] theorem State.onAudit_free (f : Audit → Audit) : (s.onAudit f).free = s.free := rfl
@[simp] theorem State.onAudit_regs (f : Audit → Audit) : (s.onAudit f).regs = s.regs := rfl
@[simp] theorem State.onAudit_tim (f : Audit → Audit) : (s.onAudit f).tim = s.tim := rfl
@[simp] theorem State.onAudit_pol (f : Audit → Audit) : (s.onAudit f).pol = s.pol := rfl
@[simp] theorem State.onAudit_ports (f : Audit → Audit) : (s.onAudit f).ports = s.ports := rfl
@[simp] theorem State.onAudit_links (f : Audit → Audit) : (s.onAudit f).links = s.links := rfl
@[simp] theorem State.onAudit_side (f : Audit → Audit) : (s.onAudit f).side = s.side := rfl
@[simp] theorem State.onAudit_devs (f : Audit → Audit) : (s.onAudit f).devs = s.devs := rfl
@[simp] theorem State.onAudit_ctxs (f : Audit → Audit) : (s.onAudit f).ctxs = s.ctxs := rfl
@[simp] theorem State.onAudit_cmgr (f : Audit → Audit) : (s.onAudit f).cmgr = s.cmgr := rfl
@[simp] theorem State.onAudit_txns (f : Audit → Audit) : (s.onAudit f).txns = s.txns := rfl
@[simp] theorem State.onAudit_rings (f : Audit → Audit) : (s.onAudit f).rings = s.rings := rfl
@[simp] theorem State.onAudit_entries (f : Audit → Audit) : (s.onAudit f).entries = s.entries := rfl
@[simp] theorem State.onAudit_cmds (f : Audit → Audit) : (s.onAudit f).cmds = s.cmds := rfl
@[simp] theorem State.onAudit_sched (f : Audit → Audit) : (s.onAudit f).sched = s.sched := rfl
@[simp] theorem State.onAudit_deal (f : Audit → Audit) : (s.onAudit f).deal = s.deal := rfl
@[simp] theorem State.onAudit_slices (f : Audit → Audit) : (s.onAudit f).slices = s.slices := rfl
@[simp] theorem State.onAudit_icu (f : Audit → Audit) : (s.onAudit f).icu = s.icu := rfl
@[simp] theorem State.onAudit_pool (f : Audit → Audit) : (s.onAudit f).pool = s.pool := rfl
@[simp] theorem State.onAudit_pwr (f : Audit → Audit) : (s.onAudit f).pwr = s.pwr := rfl
@[simp] theorem State.onAudit_twin (f : Audit → Audit) : (s.onAudit f).twin = s.twin := rfl
@[simp] theorem State.onAudit_smp (f : Audit → Audit) : (s.onAudit f).smp = s.smp := rfl
@[simp] theorem State.onAudit_audit (f : Audit → Audit) : (s.onAudit f).audit = f s.audit := rfl
@[simp] theorem State.onAudit_mov (f : Audit → Audit) : (s.onAudit f).mov = s.mov := rfl
@[simp] theorem State.onAudit_hlt (f : Audit → Audit) : (s.onAudit f).hlt = s.hlt := rfl
@[simp] theorem State.onAudit_aer (f : Audit → Audit) : (s.onAudit f).aer = s.aer := rfl
@[simp] theorem State.onAudit_ind (f : Audit → Audit) : (s.onAudit f).ind = s.ind := rfl

/-! ### `State.onMov` -/

@[simp] theorem State.onMov_pending (f : Mover → Mover) : (s.onMov f).pending = s.pending := rfl
@[simp] theorem State.onMov_out (f : Mover → Mover) : (s.onMov f).out = s.out := rfl
@[simp] theorem State.onMov_free (f : Mover → Mover) : (s.onMov f).free = s.free := rfl
@[simp] theorem State.onMov_regs (f : Mover → Mover) : (s.onMov f).regs = s.regs := rfl
@[simp] theorem State.onMov_tim (f : Mover → Mover) : (s.onMov f).tim = s.tim := rfl
@[simp] theorem State.onMov_pol (f : Mover → Mover) : (s.onMov f).pol = s.pol := rfl
@[simp] theorem State.onMov_ports (f : Mover → Mover) : (s.onMov f).ports = s.ports := rfl
@[simp] theorem State.onMov_links (f : Mover → Mover) : (s.onMov f).links = s.links := rfl
@[simp] theorem State.onMov_side (f : Mover → Mover) : (s.onMov f).side = s.side := rfl
@[simp] theorem State.onMov_devs (f : Mover → Mover) : (s.onMov f).devs = s.devs := rfl
@[simp] theorem State.onMov_ctxs (f : Mover → Mover) : (s.onMov f).ctxs = s.ctxs := rfl
@[simp] theorem State.onMov_cmgr (f : Mover → Mover) : (s.onMov f).cmgr = s.cmgr := rfl
@[simp] theorem State.onMov_txns (f : Mover → Mover) : (s.onMov f).txns = s.txns := rfl
@[simp] theorem State.onMov_rings (f : Mover → Mover) : (s.onMov f).rings = s.rings := rfl
@[simp] theorem State.onMov_entries (f : Mover → Mover) : (s.onMov f).entries = s.entries := rfl
@[simp] theorem State.onMov_cmds (f : Mover → Mover) : (s.onMov f).cmds = s.cmds := rfl
@[simp] theorem State.onMov_sched (f : Mover → Mover) : (s.onMov f).sched = s.sched := rfl
@[simp] theorem State.onMov_deal (f : Mover → Mover) : (s.onMov f).deal = s.deal := rfl
@[simp] theorem State.onMov_slices (f : Mover → Mover) : (s.onMov f).slices = s.slices := rfl
@[simp] theorem State.onMov_icu (f : Mover → Mover) : (s.onMov f).icu = s.icu := rfl
@[simp] theorem State.onMov_pool (f : Mover → Mover) : (s.onMov f).pool = s.pool := rfl
@[simp] theorem State.onMov_pwr (f : Mover → Mover) : (s.onMov f).pwr = s.pwr := rfl
@[simp] theorem State.onMov_twin (f : Mover → Mover) : (s.onMov f).twin = s.twin := rfl
@[simp] theorem State.onMov_smp (f : Mover → Mover) : (s.onMov f).smp = s.smp := rfl
@[simp] theorem State.onMov_audit (f : Mover → Mover) : (s.onMov f).audit = s.audit := rfl
@[simp] theorem State.onMov_mov (f : Mover → Mover) : (s.onMov f).mov = f s.mov := rfl
@[simp] theorem State.onMov_hlt (f : Mover → Mover) : (s.onMov f).hlt = s.hlt := rfl
@[simp] theorem State.onMov_aer (f : Mover → Mover) : (s.onMov f).aer = s.aer := rfl
@[simp] theorem State.onMov_ind (f : Mover → Mover) : (s.onMov f).ind = s.ind := rfl

/-! ### Reading back -/

theorem Reg.num_lt (r : Reg) : r.num < 256 := by cases r <;> decide

theorem Reg.num_inj {r r' : Reg} (h : r.num = r'.num) : r = r' := by
  have k : ∀ r : Reg, (Reg.all.find? fun q => q.num == r.num) = some r := fun r => by cases r <;> rfl
  exact Option.some.inj ((k r).symm.trans (h ▸ k r'))

theorem regKey_ne {r r' : Reg} {i j : Nat} (h : r' ≠ r ∨ j ≠ i) : regKey r' j ≠ regKey r i := by
  have a := r.num_lt
  have b := r'.num_lt
  intro e
  simp only [regKey] at e
  have h1 : r'.num = r.num := by omega
  have h2 : j = i := by omega
  rcases h with h | h
  · exact h (Reg.num_inj h1)
  · exact h h2

@[simp] theorem State.rd_wr_same (r : Reg) (i : Nat) (v : DWord) : (s.wr r i v).rd r i = v &&& r.bits := by
  simp [State.rd]

theorem State.rd_wr_other {r r' : Reg} {i j : Nat} (v : DWord) (h : r' ≠ r ∨ j ≠ i) : (s.wr r i v).rd r' j = s.rd r' j := by
  simp only [State.rd, State.wr]
  exact Tbl.get_put_other _ _ _ (regKey_ne h)

@[simp] theorem State.port_onPort_same (p : PortId) (f : Port → Port) : (s.onPort p f).port p = f (s.port p) := by
  simp [State.port]

@[simp] theorem State.link_onLink_same (l : LinkEndId) (f : LinkEnd → LinkEnd) : (s.onLink l f).link l = f (s.link l) := by
  simp [State.link]

@[simp] theorem State.dev_onDev_same (d : Nat) (f : Device → Device) : (s.onDev d f).dev d = f (s.dev d) := by
  simp [State.dev]

@[simp] theorem State.ring_onRing_same (r : Nat) (f : Ring → Ring) : (s.onRing r f).ring r = f (s.ring r) := by
  simp [State.ring]

@[simp] theorem State.slice_onSlice_same (n : Nat) (f : Slice → Slice) : (s.onSlice n f).slice n = f (s.slice n) := by
  simp [State.slice]

@[simp] theorem State.vector_onVector_same (e : Nat) (f : Vector → Vector) : (s.onVector e f).vector e = f (s.vector e) := by
  simp [State.vector]

theorem State.port_onPort_other {p q : PortId} (f : Port → Port) (h : q.code ≠ p.code) : (s.onPort p f).port q = s.port q :=
  Tbl.get_upd_other _ _ _ h

theorem State.link_onLink_other {l k : LinkEndId} (f : LinkEnd → LinkEnd) (h : k.code ≠ l.code) : (s.onLink l f).link k = s.link k :=
  Tbl.get_upd_other _ _ _ h

theorem State.dev_onDev_other {d e : Nat} (f : Device → Device) (h : e ≠ d) : (s.onDev d f).dev e = s.dev e :=
  Tbl.get_upd_other _ _ _ h

theorem State.ring_onRing_other {r q : Nat} (f : Ring → Ring) (h : q ≠ r) : (s.onRing r f).ring q = s.ring q :=
  Tbl.get_upd_other _ _ _ h

theorem State.slice_onSlice_other {n m : Nat} (f : Slice → Slice) (h : m ≠ n) : (s.onSlice n f).slice m = s.slice m :=
  Tbl.get_upd_other _ _ _ h

theorem State.vector_onVector_other {e k : Nat} (f : Vector → Vector) (h : k ≠ e) : (s.onVector e f).vector k = s.vector k :=
  Tbl.get_upd_other _ _ _ h

end Sys2Proof.Machine
end

