-- ==== Sys2Proof/Laws/Field.lean ====
section
/-! SUPPORT. Laws/Field.lean: the laws of the fields of a register: what a field reads after it, another field, or another register is set. -/

namespace Sys2Proof

theorem fieldMask_bit (hi lo i : Nat) (h : lo ≤ hi + 1) : (fieldMask hi lo).getLsbD i = (decide (i < 64) && decide (lo ≤ i ∧ i ≤ hi)) := by
  simp only [fieldMask, BitVec.getLsbD_ofNat, Nat.testBit_mul_two_pow, Nat.testBit_two_pow_sub_one]
  congr 1
  rw [← Bool.decide_and]
  apply decide_eq_decide.2
  omega

theorem field_bit (w : DWord) (hi lo i : Nat) : (field w hi lo).testBit i = (decide (i < hi + 1 - lo) && w.getLsbD (lo + i)) := by
  simp only [field, Nat.testBit_mod_two_pow, BitVec.testBit_toNat, BitVec.getLsbD_ushiftRight]

theorem setField_bit (w : DWord) (hi lo v i : Nat) (h : lo ≤ hi + 1) (hi64 : hi < 64) :
    (setField w hi lo v).getLsbD i = if lo ≤ i ∧ i ≤ hi then v.testBit (i - lo) else w.getLsbD i := by
  simp only [setField, BitVec.getLsbD_or, BitVec.getLsbD_and, BitVec.getLsbD_not, fieldMask_bit _ _ _ h, BitVec.getLsbD_ofNat,
    Nat.testBit_mul_two_pow, Nat.testBit_mod_two_pow]
  by_cases a : lo ≤ i <;> by_cases b : i ≤ hi <;> by_cases c : i < 64 <;> simp [a, b, c] <;>
    first | omega | exact BitVec.getLsbD_of_ge w i (by omega)

theorem field_set_same (w m : DWord) (hi lo v : Nat) (h : lo ≤ hi) (hi64 : hi < 64) (hm : fieldMask hi lo &&& ~~~ m = 0) :
    field (setField w hi lo v &&& m) hi lo = v % 2 ^ (hi + 1 - lo) := by
  apply Nat.eq_of_testBit_eq
  intro i
  rw [field_bit, Nat.testBit_mod_two_pow, BitVec.getLsbD_and, setField_bit _ _ _ _ _ (by omega) hi64]
  by_cases c : i < hi + 1 - lo
  · have hb : m.getLsbD (lo + i) = true := by
      have e := congrArg (fun x : DWord => x.getLsbD (lo + i)) hm
      simp only [BitVec.getLsbD_and, BitVec.getLsbD_not, fieldMask_bit _ _ _ (show lo ≤ hi + 1 by omega)] at e
      have a : lo + i < 64 := by omega
      have b : lo + i ≤ hi := by omega
      simpa [a, b] using e
    have a : lo ≤ lo + i ∧ lo + i ≤ hi := by omega
    simp [c, hb, a]
  · simp [c]

theorem field_set_other (w m : DWord) (hi lo v hj lj : Nat) (h : lo ≤ hi) (hi64 : hi < 64) (hd : hj < lo ∨ hi < lj) (hw : w &&& ~~~ m = 0) :
    field (setField w hi lo v &&& m) hj lj = field w hj lj := by
  apply Nat.eq_of_testBit_eq
  intro i
  rw [field_bit, field_bit, BitVec.getLsbD_and, setField_bit _ _ _ _ _ (by omega) hi64]
  by_cases c : i < hj + 1 - lj
  · have a : ¬ (lo ≤ lj + i ∧ lj + i ≤ hi) := by omega
    have e := congrArg (fun x : DWord => x.getLsbD (lj + i)) hw
    simp only [BitVec.getLsbD_and, BitVec.getLsbD_not] at e
    simp only [a, if_false]
    cases hx : w.getLsbD (lj + i)
    · simp
    · have := BitVec.lt_of_getLsbD hx
      have hm : m.getLsbD (lj + i) = true := by simpa [hx, this] using e
      simp [hm]
  · simp [c]

namespace Machine

theorem State.fgetN_fsetN_same (s : State) (f : Fld) (i v : Nat) (h : f.ok = true) :
    (s.fsetN f i v).fgetN f i = v % 2 ^ (f.hi + 1 - f.lo) := by
  simp only [Fld.ok, Bool.and_eq_true, decide_eq_true_eq] at h
  simp only [State.fgetN, State.fsetN, State.rd_wr_same]
  exact field_set_same _ _ _ _ _ h.1.1 h.1.2 h.2

theorem State.fgetN_fsetN_reg (s : State) (f g : Fld) (i j v : Nat) (h : g.reg ≠ f.reg ∨ j ≠ i) :
    (s.fsetN f i v).fgetN g j = s.fgetN g j := by
  simp only [State.fgetN, State.fsetN, State.rd_wr_other _ _ h]

theorem State.fgetN_fsetN_field (s : State) (f g : Fld) (i v : Nat) (h : f.ok = true) (hr : g.reg = f.reg) (hd : g.hi < f.lo ∨ f.hi < g.lo)
    (hw : s.rd f.reg i &&& ~~~ f.reg.bits = 0) : (s.fsetN f i v).fgetN g i = s.fgetN g i := by
  simp only [Fld.ok, Bool.and_eq_true, decide_eq_true_eq] at h
  simp only [State.fgetN, State.fsetN, hr, State.rd_wr_same]
  exact field_set_other _ _ _ _ _ _ _ h.1.1 h.1.2 hd hw

end Machine

end Sys2Proof
end

