-- ==== Sys2Proof/Laws/Access.lean ====
section
/-! SUPPORT. Laws/Access.lean: an update of one part of the state leaves what the accessors of the other parts read, and a field that is set leaves
every field that lies apart from it. -/

namespace Sys2Proof.Machine

variable (s : State)

@[simp] theorem State.port_wr (r : Reg) (i : Nat) (v : DWord) (q : PortId) : (s.wr r i v).port q = s.port q := rfl
@[simp] theorem State.link_wr (r : Reg) (i : Nat) (v : DWord) (k : LinkEndId) : (s.wr r i v).link k = s.link k := rfl
@[simp] theorem State.dev_wr (r : Reg) (i : Nat) (v : DWord) (e : Nat) : (s.wr r i v).dev e = s.dev e := rfl
@[simp] theorem State.ring_wr (r : Reg) (i : Nat) (v : DWord) (q : Nat) : (s.wr r i v).ring q = s.ring q := rfl
@[simp] theorem State.slice_wr (r : Reg) (i : Nat) (v : DWord) (m : Nat) : (s.wr r i v).slice m = s.slice m := rfl
@[simp] theorem State.vector_wr (r : Reg) (i : Nat) (v : DWord) (k : Nat) : (s.wr r i v).vector k = s.vector k := rfl
@[simp] theorem State.source_wr (r : Reg) (i : Nat) (v : DWord) (y : Nat) : (s.wr r i v).source y = s.source y := rfl
@[simp] theorem State.ctxOpt_wr (r : Reg) (i : Nat) (v : DWord) (h : Nat) : (s.wr r i v).ctx? h = s.ctx? h := rfl

@[simp] theorem State.rd_emit (o : Output) (q : Reg) (j : Nat) : (s.emit o).rd q j = s.rd q j := rfl
@[simp] theorem State.fgetN_emit (o : Output) (g : Fld) (j : Nat) : (s.emit o).fgetN g j = s.fgetN g j := rfl
@[simp] theorem State.fget_emit (o : Output) (g : Fld) : (s.emit o).fget g = s.fget g := rfl
@[simp] theorem State.flagN_emit (o : Output) (g : Fld) (j : Nat) : (s.emit o).flagN g j = s.flagN g j := rfl
@[simp] theorem State.flag_emit (o : Output) (g : Fld) : (s.emit o).flag g = s.flag g := rfl
@[simp] theorem State.ready_emit (o : Output) : (s.emit o).ready = s.ready := rfl
@[simp] theorem State.nPorts_emit (o : Output) : (s.emit o).nPorts = s.nPorts := rfl
@[simp] theorem State.nSlices_emit (o : Output) : (s.emit o).nSlices = s.nSlices := rfl
@[simp] theorem State.port_emit (o : Output) (q : PortId) : (s.emit o).port q = s.port q := rfl
@[simp] theorem State.link_emit (o : Output) (k : LinkEndId) : (s.emit o).link k = s.link k := rfl
@[simp] theorem State.dev_emit (o : Output) (e : Nat) : (s.emit o).dev e = s.dev e := rfl
@[simp] theorem State.ring_emit (o : Output) (q : Nat) : (s.emit o).ring q = s.ring q := rfl
@[simp] theorem State.slice_emit (o : Output) (m : Nat) : (s.emit o).slice m = s.slice m := rfl
@[simp] theorem State.vector_emit (o : Output) (k : Nat) : (s.emit o).vector k = s.vector k := rfl
@[simp] theorem State.source_emit (o : Output) (y : Nat) : (s.emit o).source y = s.source y := rfl
@[simp] theorem State.ctxOpt_emit (o : Output) (h : Nat) : (s.emit o).ctx? h = s.ctx? h := rfl
@[simp] theorem State.portState_emit (o : Output) (q : PortId) : (s.emit o).portState q = s.portState q := rfl
@[simp] theorem State.sliceState_emit (o : Output) (m : Nat) : (s.emit o).sliceState m = s.sliceState m := rfl

@[simp] theorem State.rd_emits (l : List Output) (q : Reg) (j : Nat) : (s.emits l).rd q j = s.rd q j := rfl
@[simp] theorem State.fgetN_emits (l : List Output) (g : Fld) (j : Nat) : (s.emits l).fgetN g j = s.fgetN g j := rfl
@[simp] theorem State.fget_emits (l : List Output) (g : Fld) : (s.emits l).fget g = s.fget g := rfl
@[simp] theorem State.flagN_emits (l : List Output) (g : Fld) (j : Nat) : (s.emits l).flagN g j = s.flagN g j := rfl
@[simp] theorem State.flag_emits (l : List Output) (g : Fld) : (s.emits l).flag g = s.flag g := rfl
@[simp] theorem State.ready_emits (l : List Output) : (s.emits l).ready = s.ready := rfl
@[simp] theorem State.nPorts_emits (l : List Output) : (s.emits l).nPorts = s.nPorts := rfl
@[simp] theorem State.nSlices_emits (l : List Output) : (s.emits l).nSlices = s.nSlices := rfl
@[simp] theorem State.port_emits (l : List Output) (q : PortId) : (s.emits l).port q = s.port q := rfl
@[simp] theorem State.link_emits (l : List Output) (k : LinkEndId) : (s.emits l).link k = s.link k := rfl
@[simp] theorem State.dev_emits (l : List Output) (e : Nat) : (s.emits l).dev e = s.dev e := rfl
@[simp] theorem State.ring_emits (l : List Output) (q : Nat) : (s.emits l).ring q = s.ring q := rfl
@[simp] theorem State.slice_emits (l : List Output) (m : Nat) : (s.emits l).slice m = s.slice m := rfl
@[simp] theorem State.vector_emits (l : List Output) (k : Nat) : (s.emits l).vector k = s.vector k := rfl
@[simp] theorem State.source_emits (l : List Output) (y : Nat) : (s.emits l).source y = s.source y := rfl
@[simp] theorem State.ctxOpt_emits (l : List Output) (h : Nat) : (s.emits l).ctx? h = s.ctx? h := rfl
@[simp] theorem State.portState_emits (l : List Output) (q : PortId) : (s.emits l).portState q = s.portState q := rfl
@[simp] theorem State.sliceState_emits (l : List Output) (m : Nat) : (s.emits l).sliceState m = s.sliceState m := rfl

@[simp] theorem State.rd_draw (q : Reg) (j : Nat) : (s.draw).rd q j = s.rd q j := rfl
@[simp] theorem State.fgetN_draw (g : Fld) (j : Nat) : (s.draw).fgetN g j = s.fgetN g j := rfl
@[simp] theorem State.fget_draw (g : Fld) : (s.draw).fget g = s.fget g := rfl
@[simp] theorem State.flagN_draw (g : Fld) (j : Nat) : (s.draw).flagN g j = s.flagN g j := rfl
@[simp] theorem State.flag_draw (g : Fld) : (s.draw).flag g = s.flag g := rfl
@[simp] theorem State.ready_draw : (s.draw).ready = s.ready := rfl
@[simp] theorem State.nPorts_draw : (s.draw).nPorts = s.nPorts := rfl
@[simp] theorem State.nSlices_draw : (s.draw).nSlices = s.nSlices := rfl
@[simp] theorem State.port_draw (q : PortId) : (s.draw).port q = s.port q := rfl
@[simp] theorem State.link_draw (k : LinkEndId) : (s.draw).link k = s.link k := rfl
@[simp] theorem State.dev_draw (e : Nat) : (s.draw).dev e = s.dev e := rfl
@[simp] theorem State.ring_draw (q : Nat) : (s.draw).ring q = s.ring q := rfl
@[simp] theorem State.slice_draw (m : Nat) : (s.draw).slice m = s.slice m := rfl
@[simp] theorem State.vector_draw (k : Nat) : (s.draw).vector k = s.vector k := rfl
@[simp] theorem State.source_draw (y : Nat) : (s.draw).source y = s.source y := rfl
@[simp] theorem State.ctxOpt_draw (h : Nat) : (s.draw).ctx? h = s.ctx? h := rfl
@[simp] theorem State.portState_draw (q : PortId) : (s.draw).portState q = s.portState q := rfl
@[simp] theorem State.sliceState_draw (m : Nat) : (s.draw).sliceState m = s.sliceState m := rfl

@[simp] theorem State.rd_onPort (p : PortId) (f : Port → Port) (q : Reg) (j : Nat) : (s.onPort p f).rd q j = s.rd q j := rfl
@[simp] theorem State.fgetN_onPort (p : PortId) (f : Port → Port) (g : Fld) (j : Nat) : (s.onPort p f).fgetN g j = s.fgetN g j := rfl
@[simp] theorem State.fget_onPort (p : PortId) (f : Port → Port) (g : Fld) : (s.onPort p f).fget g = s.fget g := rfl
@[simp] theorem State.flagN_onPort (p : PortId) (f : Port → Port) (g : Fld) (j : Nat) : (s.onPort p f).flagN g j = s.flagN g j := rfl
@[simp] theorem State.flag_onPort (p : PortId) (f : Port → Port) (g : Fld) : (s.onPort p f).flag g = s.flag g := rfl
@[simp] theorem State.ready_onPort (p : PortId) (f : Port → Port) : (s.onPort p f).ready = s.ready := rfl
@[simp] theorem State.nPorts_onPort (p : PortId) (f : Port → Port) : (s.onPort p f).nPorts = s.nPorts := rfl
@[simp] theorem State.nSlices_onPort (p : PortId) (f : Port → Port) : (s.onPort p f).nSlices = s.nSlices := rfl
@[simp] theorem State.link_onPort (p : PortId) (f : Port → Port) (k : LinkEndId) : (s.onPort p f).link k = s.link k := rfl
@[simp] theorem State.dev_onPort (p : PortId) (f : Port → Port) (e : Nat) : (s.onPort p f).dev e = s.dev e := rfl
@[simp] theorem State.ring_onPort (p : PortId) (f : Port → Port) (q : Nat) : (s.onPort p f).ring q = s.ring q := rfl
@[simp] theorem State.slice_onPort (p : PortId) (f : Port → Port) (m : Nat) : (s.onPort p f).slice m = s.slice m := rfl
@[simp] theorem State.vector_onPort (p : PortId) (f : Port → Port) (k : Nat) : (s.onPort p f).vector k = s.vector k := rfl
@[simp] theorem State.source_onPort (p : PortId) (f : Port → Port) (y : Nat) : (s.onPort p f).source y = s.source y := rfl
@[simp] theorem State.ctxOpt_onPort (p : PortId) (f : Port → Port) (h : Nat) : (s.onPort p f).ctx? h = s.ctx? h := rfl
@[simp] theorem State.portState_onPort (p : PortId) (f : Port → Port) (q : PortId) : (s.onPort p f).portState q = s.portState q := rfl
@[simp] theorem State.sliceState_onPort (p : PortId) (f : Port → Port) (m : Nat) : (s.onPort p f).sliceState m = s.sliceState m := rfl

@[simp] theorem State.rd_onLink (l : LinkEndId) (f : LinkEnd → LinkEnd) (q : Reg) (j : Nat) : (s.onLink l f).rd q j = s.rd q j := rfl
@[simp] theorem State.fgetN_onLink (l : LinkEndId) (f : LinkEnd → LinkEnd) (g : Fld) (j : Nat) : (s.onLink l f).fgetN g j = s.fgetN g j := rfl
@[simp] theorem State.fget_onLink (l : LinkEndId) (f : LinkEnd → LinkEnd) (g : Fld) : (s.onLink l f).fget g = s.fget g := rfl
@[simp] theorem State.flagN_onLink (l : LinkEndId) (f : LinkEnd → LinkEnd) (g : Fld) (j : Nat) : (s.onLink l f).flagN g j = s.flagN g j := rfl
@[simp] theorem State.flag_onLink (l : LinkEndId) (f : LinkEnd → LinkEnd) (g : Fld) : (s.onLink l f).flag g = s.flag g := rfl
@[simp] theorem State.ready_onLink (l : LinkEndId) (f : LinkEnd → LinkEnd) : (s.onLink l f).ready = s.ready := rfl
@[simp] theorem State.nPorts_onLink (l : LinkEndId) (f : LinkEnd → LinkEnd) : (s.onLink l f).nPorts = s.nPorts := rfl
@[simp] theorem State.nSlices_onLink (l : LinkEndId) (f : LinkEnd → LinkEnd) : (s.onLink l f).nSlices = s.nSlices := rfl
@[simp] theorem State.port_onLink (l : LinkEndId) (f : LinkEnd → LinkEnd) (q : PortId) : (s.onLink l f).port q = s.port q := rfl
@[simp] theorem State.dev_onLink (l : LinkEndId) (f : LinkEnd → LinkEnd) (e : Nat) : (s.onLink l f).dev e = s.dev e := rfl
@[simp] theorem State.ring_onLink (l : LinkEndId) (f : LinkEnd → LinkEnd) (q : Nat) : (s.onLink l f).ring q = s.ring q := rfl
@[simp] theorem State.slice_onLink (l : LinkEndId) (f : LinkEnd → LinkEnd) (m : Nat) : (s.onLink l f).slice m = s.slice m := rfl
@[simp] theorem State.vector_onLink (l : LinkEndId) (f : LinkEnd → LinkEnd) (k : Nat) : (s.onLink l f).vector k = s.vector k := rfl
@[simp] theorem State.source_onLink (l : LinkEndId) (f : LinkEnd → LinkEnd) (y : Nat) : (s.onLink l f).source y = s.source y := rfl
@[simp] theorem State.ctxOpt_onLink (l : LinkEndId) (f : LinkEnd → LinkEnd) (h : Nat) : (s.onLink l f).ctx? h = s.ctx? h := rfl
@[simp] theorem State.portState_onLink (l : LinkEndId) (f : LinkEnd → LinkEnd) (q : PortId) : (s.onLink l f).portState q = s.portState q := rfl
@[simp] theorem State.sliceState_onLink (l : LinkEndId) (f : LinkEnd → LinkEnd) (m : Nat) : (s.onLink l f).sliceState m = s.sliceState m := rfl

@[simp] theorem State.rd_onDev (d : Nat) (f : Device → Device) (q : Reg) (j : Nat) : (s.onDev d f).rd q j = s.rd q j := rfl
@[simp] theorem State.fgetN_onDev (d : Nat) (f : Device → Device) (g : Fld) (j : Nat) : (s.onDev d f).fgetN g j = s.fgetN g j := rfl
@[simp] theorem State.fget_onDev (d : Nat) (f : Device → Device) (g : Fld) : (s.onDev d f).fget g = s.fget g := rfl
@[simp] theorem State.flagN_onDev (d : Nat) (f : Device → Device) (g : Fld) (j : Nat) : (s.onDev d f).flagN g j = s.flagN g j := rfl
@[simp] theorem State.flag_onDev (d : Nat) (f : Device → Device) (g : Fld) : (s.onDev d f).flag g = s.flag g := rfl
@[simp] theorem State.ready_onDev (d : Nat) (f : Device → Device) : (s.onDev d f).ready = s.ready := rfl
@[simp] theorem State.nPorts_onDev (d : Nat) (f : Device → Device) : (s.onDev d f).nPorts = s.nPorts := rfl
@[simp] theorem State.nSlices_onDev (d : Nat) (f : Device → Device) : (s.onDev d f).nSlices = s.nSlices := rfl
@[simp] theorem State.port_onDev (d : Nat) (f : Device → Device) (q : PortId) : (s.onDev d f).port q = s.port q := rfl
@[simp] theorem State.link_onDev (d : Nat) (f : Device → Device) (k : LinkEndId) : (s.onDev d f).link k = s.link k := rfl
@[simp] theorem State.ring_onDev (d : Nat) (f : Device → Device) (q : Nat) : (s.onDev d f).ring q = s.ring q := rfl
@[simp] theorem State.slice_onDev (d : Nat) (f : Device → Device) (m : Nat) : (s.onDev d f).slice m = s.slice m := rfl
@[simp] theorem State.vector_onDev (d : Nat) (f : Device → Device) (k : Nat) : (s.onDev d f).vector k = s.vector k := rfl
@[simp] theorem State.source_onDev (d : Nat) (f : Device → Device) (y : Nat) : (s.onDev d f).source y = s.source y := rfl
@[simp] theorem State.ctxOpt_onDev (d : Nat) (f : Device → Device) (h : Nat) : (s.onDev d f).ctx? h = s.ctx? h := rfl
@[simp] theorem State.portState_onDev (d : Nat) (f : Device → Device) (q : PortId) : (s.onDev d f).portState q = s.portState q := rfl
@[simp] theorem State.sliceState_onDev (d : Nat) (f : Device → Device) (m : Nat) : (s.onDev d f).sliceState m = s.sliceState m := rfl

@[simp] theorem State.rd_onRing (r : Nat) (f : Ring → Ring) (q : Reg) (j : Nat) : (s.onRing r f).rd q j = s.rd q j := rfl
@[simp] theorem State.fgetN_onRing (r : Nat) (f : Ring → Ring) (g : Fld) (j : Nat) : (s.onRing r f).fgetN g j = s.fgetN g j := rfl
@[simp] theorem State.fget_onRing (r : Nat) (f : Ring → Ring) (g : Fld) : (s.onRing r f).fget g = s.fget g := rfl
@[simp] theorem State.flagN_onRing (r : Nat) (f : Ring → Ring) (g : Fld) (j : Nat) : (s.onRing r f).flagN g j = s.flagN g j := rfl
@[simp] theorem State.flag_onRing (r : Nat) (f : Ring → Ring) (g : Fld) : (s.onRing r f).flag g = s.flag g := rfl
@[simp] theorem State.ready_onRing (r : Nat) (f : Ring → Ring) : (s.onRing r f).ready = s.ready := rfl
@[simp] theorem State.nPorts_onRing (r : Nat) (f : Ring → Ring) : (s.onRing r f).nPorts = s.nPorts := rfl
@[simp] theorem State.nSlices_onRing (r : Nat) (f : Ring → Ring) : (s.onRing r f).nSlices = s.nSlices := rfl
@[simp] theorem State.port_onRing (r : Nat) (f : Ring → Ring) (q : PortId) : (s.onRing r f).port q = s.port q := rfl
@[simp] theorem State.link_onRing (r : Nat) (f : Ring → Ring) (k : LinkEndId) : (s.onRing r f).link k = s.link k := rfl
@[simp] theorem State.dev_onRing (r : Nat) (f : Ring → Ring) (e : Nat) : (s.onRing r f).dev e = s.dev e := rfl
@[simp] theorem State.slice_onRing (r : Nat) (f : Ring → Ring) (m : Nat) : (s.onRing r f).slice m = s.slice m := rfl
@[simp] theorem State.vector_onRing (r : Nat) (f : Ring → Ring) (k : Nat) : (s.onRing r f).vector k = s.vector k := rfl
@[simp] theorem State.source_onRing (r : Nat) (f : Ring → Ring) (y : Nat) : (s.onRing r f).source y = s.source y := rfl
@[simp] theorem State.ctxOpt_onRing (r : Nat) (f : Ring → Ring) (h : Nat) : (s.onRing r f).ctx? h = s.ctx? h := rfl
@[simp] theorem State.portState_onRing (r : Nat) (f : Ring → Ring) (q : PortId) : (s.onRing r f).portState q = s.portState q := rfl
@[simp] theorem State.sliceState_onRing (r : Nat) (f : Ring → Ring) (m : Nat) : (s.onRing r f).sliceState m = s.sliceState m := rfl

@[simp] theorem State.rd_onSlice (n : Nat) (f : Slice → Slice) (q : Reg) (j : Nat) : (s.onSlice n f).rd q j = s.rd q j := rfl
@[simp] theorem State.fgetN_onSlice (n : Nat) (f : Slice → Slice) (g : Fld) (j : Nat) : (s.onSlice n f).fgetN g j = s.fgetN g j := rfl
@[simp] theorem State.fget_onSlice (n : Nat) (f : Slice → Slice) (g : Fld) : (s.onSlice n f).fget g = s.fget g := rfl
@[simp] theorem State.flagN_onSlice (n : Nat) (f : Slice → Slice) (g : Fld) (j : Nat) : (s.onSlice n f).flagN g j = s.flagN g j := rfl
@[simp] theorem State.flag_onSlice (n : Nat) (f : Slice → Slice) (g : Fld) : (s.onSlice n f).flag g = s.flag g := rfl
@[simp] theorem State.ready_onSlice (n : Nat) (f : Slice → Slice) : (s.onSlice n f).ready = s.ready := rfl
@[simp] theorem State.nPorts_onSlice (n : Nat) (f : Slice → Slice) : (s.onSlice n f).nPorts = s.nPorts := rfl
@[simp] theorem State.nSlices_onSlice (n : Nat) (f : Slice → Slice) : (s.onSlice n f).nSlices = s.nSlices := rfl
@[simp] theorem State.port_onSlice (n : Nat) (f : Slice → Slice) (q : PortId) : (s.onSlice n f).port q = s.port q := rfl
@[simp] theorem State.link_onSlice (n : Nat) (f : Slice → Slice) (k : LinkEndId) : (s.onSlice n f).link k = s.link k := rfl
@[simp] theorem State.dev_onSlice (n : Nat) (f : Slice → Slice) (e : Nat) : (s.onSlice n f).dev e = s.dev e := rfl
@[simp] theorem State.ring_onSlice (n : Nat) (f : Slice → Slice) (q : Nat) : (s.onSlice n f).ring q = s.ring q := rfl
@[simp] theorem State.vector_onSlice (n : Nat) (f : Slice → Slice) (k : Nat) : (s.onSlice n f).vector k = s.vector k := rfl
@[simp] theorem State.source_onSlice (n : Nat) (f : Slice → Slice) (y : Nat) : (s.onSlice n f).source y = s.source y := rfl
@[simp] theorem State.ctxOpt_onSlice (n : Nat) (f : Slice → Slice) (h : Nat) : (s.onSlice n f).ctx? h = s.ctx? h := rfl
@[simp] theorem State.portState_onSlice (n : Nat) (f : Slice → Slice) (q : PortId) : (s.onSlice n f).portState q = s.portState q := rfl
@[simp] theorem State.sliceState_onSlice (n : Nat) (f : Slice → Slice) (m : Nat) : (s.onSlice n f).sliceState m = s.sliceState m := rfl

@[simp] theorem State.rd_onVector (e : Nat) (f : Vector → Vector) (q : Reg) (j : Nat) : (s.onVector e f).rd q j = s.rd q j := rfl
@[simp] theorem State.fgetN_onVector (e : Nat) (f : Vector → Vector) (g : Fld) (j : Nat) : (s.onVector e f).fgetN g j = s.fgetN g j := rfl
@[simp] theorem State.fget_onVector (e : Nat) (f : Vector → Vector) (g : Fld) : (s.onVector e f).fget g = s.fget g := rfl
@[simp] theorem State.flagN_onVector (e : Nat) (f : Vector → Vector) (g : Fld) (j : Nat) : (s.onVector e f).flagN g j = s.flagN g j := rfl
@[simp] theorem State.flag_onVector (e : Nat) (f : Vector → Vector) (g : Fld) : (s.onVector e f).flag g = s.flag g := rfl
@[simp] theorem State.ready_onVector (e : Nat) (f : Vector → Vector) : (s.onVector e f).ready = s.ready := rfl
@[simp] theorem State.nPorts_onVector (e : Nat) (f : Vector → Vector) : (s.onVector e f).nPorts = s.nPorts := rfl
@[simp] theorem State.nSlices_onVector (e : Nat) (f : Vector → Vector) : (s.onVector e f).nSlices = s.nSlices := rfl
@[simp] theorem State.port_onVector (e : Nat) (f : Vector → Vector) (q : PortId) : (s.onVector e f).port q = s.port q := rfl
@[simp] theorem State.link_onVector (e : Nat) (f : Vector → Vector) (k : LinkEndId) : (s.onVector e f).link k = s.link k := rfl
@[simp] theorem State.dev_onVector (e : Nat) (f : Vector → Vector) (e : Nat) : (s.onVector e f).dev e = s.dev e := rfl
@[simp] theorem State.ring_onVector (e : Nat) (f : Vector → Vector) (q : Nat) : (s.onVector e f).ring q = s.ring q := rfl
@[simp] theorem State.slice_onVector (e : Nat) (f : Vector → Vector) (m : Nat) : (s.onVector e f).slice m = s.slice m := rfl
@[simp] theorem State.ctxOpt_onVector (e : Nat) (f : Vector → Vector) (h : Nat) : (s.onVector e f).ctx? h = s.ctx? h := rfl
@[simp] theorem State.portState_onVector (e : Nat) (f : Vector → Vector) (q : PortId) : (s.onVector e f).portState q = s.portState q := rfl
@[simp] theorem State.sliceState_onVector (e : Nat) (f : Vector → Vector) (m : Nat) : (s.onVector e f).sliceState m = s.sliceState m := rfl

@[simp] theorem State.rd_onTim (f : TimeBase → TimeBase) (q : Reg) (j : Nat) : (s.onTim f).rd q j = s.rd q j := rfl
@[simp] theorem State.fgetN_onTim (f : TimeBase → TimeBase) (g : Fld) (j : Nat) : (s.onTim f).fgetN g j = s.fgetN g j := rfl
@[simp] theorem State.fget_onTim (f : TimeBase → TimeBase) (g : Fld) : (s.onTim f).fget g = s.fget g := rfl
@[simp] theorem State.flagN_onTim (f : TimeBase → TimeBase) (g : Fld) (j : Nat) : (s.onTim f).flagN g j = s.flagN g j := rfl
@[simp] theorem State.flag_onTim (f : TimeBase → TimeBase) (g : Fld) : (s.onTim f).flag g = s.flag g := rfl
@[simp] theorem State.ready_onTim (f : TimeBase → TimeBase) : (s.onTim f).ready = s.ready := rfl
@[simp] theorem State.nPorts_onTim (f : TimeBase → TimeBase) : (s.onTim f).nPorts = s.nPorts := rfl
@[simp] theorem State.nSlices_onTim (f : TimeBase → TimeBase) : (s.onTim f).nSlices = s.nSlices := rfl
@[simp] theorem State.port_onTim (f : TimeBase → TimeBase) (q : PortId) : (s.onTim f).port q = s.port q := rfl
@[simp] theorem State.link_onTim (f : TimeBase → TimeBase) (k : LinkEndId) : (s.onTim f).link k = s.link k := rfl
@[simp] theorem State.dev_onTim (f : TimeBase → TimeBase) (e : Nat) : (s.onTim f).dev e = s.dev e := rfl
@[simp] theorem State.ring_onTim (f : TimeBase → TimeBase) (q : Nat) : (s.onTim f).ring q = s.ring q := rfl
@[simp] theorem State.slice_onTim (f : TimeBase → TimeBase) (m : Nat) : (s.onTim f).slice m = s.slice m := rfl
@[simp] theorem State.vector_onTim (f : TimeBase → TimeBase) (k : Nat) : (s.onTim f).vector k = s.vector k := rfl
@[simp] theorem State.source_onTim (f : TimeBase → TimeBase) (y : Nat) : (s.onTim f).source y = s.source y := rfl
@[simp] theorem State.ctxOpt_onTim (f : TimeBase → TimeBase) (h : Nat) : (s.onTim f).ctx? h = s.ctx? h := rfl
@[simp] theorem State.portState_onTim (f : TimeBase → TimeBase) (q : PortId) : (s.onTim f).portState q = s.portState q := rfl
@[simp] theorem State.sliceState_onTim (f : TimeBase → TimeBase) (m : Nat) : (s.onTim f).sliceState m = s.sliceState m := rfl

@[simp] theorem State.rd_onPol (f : Policy → Policy) (q : Reg) (j : Nat) : (s.onPol f).rd q j = s.rd q j := rfl
@[simp] theorem State.fgetN_onPol (f : Policy → Policy) (g : Fld) (j : Nat) : (s.onPol f).fgetN g j = s.fgetN g j := rfl
@[simp] theorem State.fget_onPol (f : Policy → Policy) (g : Fld) : (s.onPol f).fget g = s.fget g := rfl
@[simp] theorem State.flagN_onPol (f : Policy → Policy) (g : Fld) (j : Nat) : (s.onPol f).flagN g j = s.flagN g j := rfl
@[simp] theorem State.flag_onPol (f : Policy → Policy) (g : Fld) : (s.onPol f).flag g = s.flag g := rfl
@[simp] theorem State.ready_onPol (f : Policy → Policy) : (s.onPol f).ready = s.ready := rfl
@[simp] theorem State.nPorts_onPol (f : Policy → Policy) : (s.onPol f).nPorts = s.nPorts := rfl
@[simp] theorem State.nSlices_onPol (f : Policy → Policy) : (s.onPol f).nSlices = s.nSlices := rfl
@[simp] theorem State.port_onPol (f : Policy → Policy) (q : PortId) : (s.onPol f).port q = s.port q := rfl
@[simp] theorem State.link_onPol (f : Policy → Policy) (k : LinkEndId) : (s.onPol f).link k = s.link k := rfl
@[simp] theorem State.dev_onPol (f : Policy → Policy) (e : Nat) : (s.onPol f).dev e = s.dev e := rfl
@[simp] theorem State.ring_onPol (f : Policy → Policy) (q : Nat) : (s.onPol f).ring q = s.ring q := rfl
@[simp] theorem State.slice_onPol (f : Policy → Policy) (m : Nat) : (s.onPol f).slice m = s.slice m := rfl
@[simp] theorem State.vector_onPol (f : Policy → Policy) (k : Nat) : (s.onPol f).vector k = s.vector k := rfl
@[simp] theorem State.source_onPol (f : Policy → Policy) (y : Nat) : (s.onPol f).source y = s.source y := rfl
@[simp] theorem State.ctxOpt_onPol (f : Policy → Policy) (h : Nat) : (s.onPol f).ctx? h = s.ctx? h := rfl
@[simp] theorem State.portState_onPol (f : Policy → Policy) (q : PortId) : (s.onPol f).portState q = s.portState q := rfl
@[simp] theorem State.sliceState_onPol (f : Policy → Policy) (m : Nat) : (s.onPol f).sliceState m = s.sliceState m := rfl

@[simp] theorem State.rd_onSched (f : Sched → Sched) (q : Reg) (j : Nat) : (s.onSched f).rd q j = s.rd q j := rfl
@[simp] theorem State.fgetN_onSched (f : Sched → Sched) (g : Fld) (j : Nat) : (s.onSched f).fgetN g j = s.fgetN g j := rfl
@[simp] theorem State.fget_onSched (f : Sched → Sched) (g : Fld) : (s.onSched f).fget g = s.fget g := rfl
@[simp] theorem State.flagN_onSched (f : Sched → Sched) (g : Fld) (j : Nat) : (s.onSched f).flagN g j = s.flagN g j := rfl
@[simp] theorem State.flag_onSched (f : Sched → Sched) (g : Fld) : (s.onSched f).flag g = s.flag g := rfl
@[simp] theorem State.ready_onSched (f : Sched → Sched) : (s.onSched f).ready = s.ready := rfl
@[simp] theorem State.nPorts_onSched (f : Sched → Sched) : (s.onSched f).nPorts = s.nPorts := rfl
@[simp] theorem State.nSlices_onSched (f : Sched → Sched) : (s.onSched f).nSlices = s.nSlices := rfl
@[simp] theorem State.port_onSched (f : Sched → Sched) (q : PortId) : (s.onSched f).port q = s.port q := rfl
@[simp] theorem State.link_onSched (f : Sched → Sched) (k : LinkEndId) : (s.onSched f).link k = s.link k := rfl
@[simp] theorem State.dev_onSched (f : Sched → Sched) (e : Nat) : (s.onSched f).dev e = s.dev e := rfl
@[simp] theorem State.ring_onSched (f : Sched → Sched) (q : Nat) : (s.onSched f).ring q = s.ring q := rfl
@[simp] theorem State.slice_onSched (f : Sched → Sched) (m : Nat) : (s.onSched f).slice m = s.slice m := rfl
@[simp] theorem State.vector_onSched (f : Sched → Sched) (k : Nat) : (s.onSched f).vector k = s.vector k := rfl
@[simp] theorem State.source_onSched (f : Sched → Sched) (y : Nat) : (s.onSched f).source y = s.source y := rfl
@[simp] theorem State.ctxOpt_onSched (f : Sched → Sched) (h : Nat) : (s.onSched f).ctx? h = s.ctx? h := rfl
@[simp] theorem State.portState_onSched (f : Sched → Sched) (q : PortId) : (s.onSched f).portState q = s.portState q := rfl
@[simp] theorem State.sliceState_onSched (f : Sched → Sched) (m : Nat) : (s.onSched f).sliceState m = s.sliceState m := rfl

@[simp] theorem State.rd_onDeal (f : Dealer → Dealer) (q : Reg) (j : Nat) : (s.onDeal f).rd q j = s.rd q j := rfl
@[simp] theorem State.fgetN_onDeal (f : Dealer → Dealer) (g : Fld) (j : Nat) : (s.onDeal f).fgetN g j = s.fgetN g j := rfl
@[simp] theorem State.fget_onDeal (f : Dealer → Dealer) (g : Fld) : (s.onDeal f).fget g = s.fget g := rfl
@[simp] theorem State.flagN_onDeal (f : Dealer → Dealer) (g : Fld) (j : Nat) : (s.onDeal f).flagN g j = s.flagN g j := rfl
@[simp] theorem State.flag_onDeal (f : Dealer → Dealer) (g : Fld) : (s.onDeal f).flag g = s.flag g := rfl
@[simp] theorem State.ready_onDeal (f : Dealer → Dealer) : (s.onDeal f).ready = s.ready := rfl
@[simp] theorem State.nPorts_onDeal (f : Dealer → Dealer) : (s.onDeal f).nPorts = s.nPorts := rfl
@[simp] theorem State.nSlices_onDeal (f : Dealer → Dealer) : (s.onDeal f).nSlices = s.nSlices := rfl
@[simp] theorem State.port_onDeal (f : Dealer → Dealer) (q : PortId) : (s.onDeal f).port q = s.port q := rfl
@[simp] theorem State.link_onDeal (f : Dealer → Dealer) (k : LinkEndId) : (s.onDeal f).link k = s.link k := rfl
@[simp] theorem State.dev_onDeal (f : Dealer → Dealer) (e : Nat) : (s.onDeal f).dev e = s.dev e := rfl
@[simp] theorem State.ring_onDeal (f : Dealer → Dealer) (q : Nat) : (s.onDeal f).ring q = s.ring q := rfl
@[simp] theorem State.slice_onDeal (f : Dealer → Dealer) (m : Nat) : (s.onDeal f).slice m = s.slice m := rfl
@[simp] theorem State.vector_onDeal (f : Dealer → Dealer) (k : Nat) : (s.onDeal f).vector k = s.vector k := rfl
@[simp] theorem State.source_onDeal (f : Dealer → Dealer) (y : Nat) : (s.onDeal f).source y = s.source y := rfl
@[simp] theorem State.ctxOpt_onDeal (f : Dealer → Dealer) (h : Nat) : (s.onDeal f).ctx? h = s.ctx? h := rfl
@[simp] theorem State.portState_onDeal (f : Dealer → Dealer) (q : PortId) : (s.onDeal f).portState q = s.portState q := rfl
@[simp] theorem State.sliceState_onDeal (f : Dealer → Dealer) (m : Nat) : (s.onDeal f).sliceState m = s.sliceState m := rfl

@[simp] theorem State.rd_onHlt (f : Health → Health) (q : Reg) (j : Nat) : (s.onHlt f).rd q j = s.rd q j := rfl
@[simp] theorem State.fgetN_onHlt (f : Health → Health) (g : Fld) (j : Nat) : (s.onHlt f).fgetN g j = s.fgetN g j := rfl
@[simp] theorem State.fget_onHlt (f : Health → Health) (g : Fld) : (s.onHlt f).fget g = s.fget g := rfl
@[simp] theorem State.flagN_onHlt (f : Health → Health) (g : Fld) (j : Nat) : (s.onHlt f).flagN g j = s.flagN g j := rfl
@[simp] theorem State.flag_onHlt (f : Health → Health) (g : Fld) : (s.onHlt f).flag g = s.flag g := rfl
@[simp] theorem State.ready_onHlt (f : Health → Health) : (s.onHlt f).ready = s.ready := rfl
@[simp] theorem State.nPorts_onHlt (f : Health → Health) : (s.onHlt f).nPorts = s.nPorts := rfl
@[simp] theorem State.nSlices_onHlt (f : Health → Health) : (s.onHlt f).nSlices = s.nSlices := rfl
@[simp] theorem State.port_onHlt (f : Health → Health) (q : PortId) : (s.onHlt f).port q = s.port q := rfl
@[simp] theorem State.link_onHlt (f : Health → Health) (k : LinkEndId) : (s.onHlt f).link k = s.link k := rfl
@[simp] theorem State.dev_onHlt (f : Health → Health) (e : Nat) : (s.onHlt f).dev e = s.dev e := rfl
@[simp] theorem State.ring_onHlt (f : Health → Health) (q : Nat) : (s.onHlt f).ring q = s.ring q := rfl
@[simp] theorem State.slice_onHlt (f : Health → Health) (m : Nat) : (s.onHlt f).slice m = s.slice m := rfl
@[simp] theorem State.vector_onHlt (f : Health → Health) (k : Nat) : (s.onHlt f).vector k = s.vector k := rfl
@[simp] theorem State.source_onHlt (f : Health → Health) (y : Nat) : (s.onHlt f).source y = s.source y := rfl
@[simp] theorem State.ctxOpt_onHlt (f : Health → Health) (h : Nat) : (s.onHlt f).ctx? h = s.ctx? h := rfl
@[simp] theorem State.portState_onHlt (f : Health → Health) (q : PortId) : (s.onHlt f).portState q = s.portState q := rfl
@[simp] theorem State.sliceState_onHlt (f : Health → Health) (m : Nat) : (s.onHlt f).sliceState m = s.sliceState m := rfl

@[simp] theorem State.rd_onIcu (f : Icu → Icu) (q : Reg) (j : Nat) : (s.onIcu f).rd q j = s.rd q j := rfl
@[simp] theorem State.fgetN_onIcu (f : Icu → Icu) (g : Fld) (j : Nat) : (s.onIcu f).fgetN g j = s.fgetN g j := rfl
@[simp] theorem State.fget_onIcu (f : Icu → Icu) (g : Fld) : (s.onIcu f).fget g = s.fget g := rfl
@[simp] theorem State.flagN_onIcu (f : Icu → Icu) (g : Fld) (j : Nat) : (s.onIcu f).flagN g j = s.flagN g j := rfl
@[simp] theorem State.flag_onIcu (f : Icu → Icu) (g : Fld) : (s.onIcu f).flag g = s.flag g := rfl
@[simp] theorem State.ready_onIcu (f : Icu → Icu) : (s.onIcu f).ready = s.ready := rfl
@[simp] theorem State.nPorts_onIcu (f : Icu → Icu) : (s.onIcu f).nPorts = s.nPorts := rfl
@[simp] theorem State.nSlices_onIcu (f : Icu → Icu) : (s.onIcu f).nSlices = s.nSlices := rfl
@[simp] theorem State.port_onIcu (f : Icu → Icu) (q : PortId) : (s.onIcu f).port q = s.port q := rfl
@[simp] theorem State.link_onIcu (f : Icu → Icu) (k : LinkEndId) : (s.onIcu f).link k = s.link k := rfl
@[simp] theorem State.dev_onIcu (f : Icu → Icu) (e : Nat) : (s.onIcu f).dev e = s.dev e := rfl
@[simp] theorem State.ring_onIcu (f : Icu → Icu) (q : Nat) : (s.onIcu f).ring q = s.ring q := rfl
@[simp] theorem State.slice_onIcu (f : Icu → Icu) (m : Nat) : (s.onIcu f).slice m = s.slice m := rfl
@[simp] theorem State.ctxOpt_onIcu (f : Icu → Icu) (h : Nat) : (s.onIcu f).ctx? h = s.ctx? h := rfl
@[simp] theorem State.portState_onIcu (f : Icu → Icu) (q : PortId) : (s.onIcu f).portState q = s.portState q := rfl
@[simp] theorem State.sliceState_onIcu (f : Icu → Icu) (m : Nat) : (s.onIcu f).sliceState m = s.sliceState m := rfl

@[simp] theorem State.rd_onCmgr (f : CtxMgr → CtxMgr) (q : Reg) (j : Nat) : (s.onCmgr f).rd q j = s.rd q j := rfl
@[simp] theorem State.fgetN_onCmgr (f : CtxMgr → CtxMgr) (g : Fld) (j : Nat) : (s.onCmgr f).fgetN g j = s.fgetN g j := rfl
@[simp] theorem State.fget_onCmgr (f : CtxMgr → CtxMgr) (g : Fld) : (s.onCmgr f).fget g = s.fget g := rfl
@[simp] theorem State.flagN_onCmgr (f : CtxMgr → CtxMgr) (g : Fld) (j : Nat) : (s.onCmgr f).flagN g j = s.flagN g j := rfl
@[simp] theorem State.flag_onCmgr (f : CtxMgr → CtxMgr) (g : Fld) : (s.onCmgr f).flag g = s.flag g := rfl
@[simp] theorem State.ready_onCmgr (f : CtxMgr → CtxMgr) : (s.onCmgr f).ready = s.ready := rfl
@[simp] theorem State.nPorts_onCmgr (f : CtxMgr → CtxMgr) : (s.onCmgr f).nPorts = s.nPorts := rfl
@[simp] theorem State.nSlices_onCmgr (f : CtxMgr → CtxMgr) : (s.onCmgr f).nSlices = s.nSlices := rfl
@[simp] theorem State.port_onCmgr (f : CtxMgr → CtxMgr) (q : PortId) : (s.onCmgr f).port q = s.port q := rfl
@[simp] theorem State.link_onCmgr (f : CtxMgr → CtxMgr) (k : LinkEndId) : (s.onCmgr f).link k = s.link k := rfl
@[simp] theorem State.dev_onCmgr (f : CtxMgr → CtxMgr) (e : Nat) : (s.onCmgr f).dev e = s.dev e := rfl
@[simp] theorem State.ring_onCmgr (f : CtxMgr → CtxMgr) (q : Nat) : (s.onCmgr f).ring q = s.ring q := rfl
@[simp] theorem State.slice_onCmgr (f : CtxMgr → CtxMgr) (m : Nat) : (s.onCmgr f).slice m = s.slice m := rfl
@[simp] theorem State.vector_onCmgr (f : CtxMgr → CtxMgr) (k : Nat) : (s.onCmgr f).vector k = s.vector k := rfl
@[simp] theorem State.source_onCmgr (f : CtxMgr → CtxMgr) (y : Nat) : (s.onCmgr f).source y = s.source y := rfl
@[simp] theorem State.ctxOpt_onCmgr (f : CtxMgr → CtxMgr) (h : Nat) : (s.onCmgr f).ctx? h = s.ctx? h := rfl
@[simp] theorem State.portState_onCmgr (f : CtxMgr → CtxMgr) (q : PortId) : (s.onCmgr f).portState q = s.portState q := rfl
@[simp] theorem State.sliceState_onCmgr (f : CtxMgr → CtxMgr) (m : Nat) : (s.onCmgr f).sliceState m = s.sliceState m := rfl

@[simp] theorem State.rd_onPwr (f : Power → Power) (q : Reg) (j : Nat) : (s.onPwr f).rd q j = s.rd q j := rfl
@[simp] theorem State.fgetN_onPwr (f : Power → Power) (g : Fld) (j : Nat) : (s.onPwr f).fgetN g j = s.fgetN g j := rfl
@[simp] theorem State.fget_onPwr (f : Power → Power) (g : Fld) : (s.onPwr f).fget g = s.fget g := rfl
@[simp] theorem State.flagN_onPwr (f : Power → Power) (g : Fld) (j : Nat) : (s.onPwr f).flagN g j = s.flagN g j := rfl
@[simp] theorem State.flag_onPwr (f : Power → Power) (g : Fld) : (s.onPwr f).flag g = s.flag g := rfl
@[simp] theorem State.ready_onPwr (f : Power → Power) : (s.onPwr f).ready = s.ready := rfl
@[simp] theorem State.nPorts_onPwr (f : Power → Power) : (s.onPwr f).nPorts = s.nPorts := rfl
@[simp] theorem State.nSlices_onPwr (f : Power → Power) : (s.onPwr f).nSlices = s.nSlices := rfl
@[simp] theorem State.port_onPwr (f : Power → Power) (q : PortId) : (s.onPwr f).port q = s.port q := rfl
@[simp] theorem State.link_onPwr (f : Power → Power) (k : LinkEndId) : (s.onPwr f).link k = s.link k := rfl
@[simp] theorem State.dev_onPwr (f : Power → Power) (e : Nat) : (s.onPwr f).dev e = s.dev e := rfl
@[simp] theorem State.ring_onPwr (f : Power → Power) (q : Nat) : (s.onPwr f).ring q = s.ring q := rfl
@[simp] theorem State.slice_onPwr (f : Power → Power) (m : Nat) : (s.onPwr f).slice m = s.slice m := rfl
@[simp] theorem State.vector_onPwr (f : Power → Power) (k : Nat) : (s.onPwr f).vector k = s.vector k := rfl
@[simp] theorem State.source_onPwr (f : Power → Power) (y : Nat) : (s.onPwr f).source y = s.source y := rfl
@[simp] theorem State.ctxOpt_onPwr (f : Power → Power) (h : Nat) : (s.onPwr f).ctx? h = s.ctx? h := rfl
@[simp] theorem State.portState_onPwr (f : Power → Power) (q : PortId) : (s.onPwr f).portState q = s.portState q := rfl
@[simp] theorem State.sliceState_onPwr (f : Power → Power) (m : Nat) : (s.onPwr f).sliceState m = s.sliceState m := rfl

@[simp] theorem State.rd_onSmp (f : Sample → Sample) (q : Reg) (j : Nat) : (s.onSmp f).rd q j = s.rd q j := rfl
@[simp] theorem State.fgetN_onSmp (f : Sample → Sample) (g : Fld) (j : Nat) : (s.onSmp f).fgetN g j = s.fgetN g j := rfl
@[simp] theorem State.fget_onSmp (f : Sample → Sample) (g : Fld) : (s.onSmp f).fget g = s.fget g := rfl
@[simp] theorem State.flagN_onSmp (f : Sample → Sample) (g : Fld) (j : Nat) : (s.onSmp f).flagN g j = s.flagN g j := rfl
@[simp] theorem State.flag_onSmp (f : Sample → Sample) (g : Fld) : (s.onSmp f).flag g = s.flag g := rfl
@[simp] theorem State.ready_onSmp (f : Sample → Sample) : (s.onSmp f).ready = s.ready := rfl
@[simp] theorem State.nPorts_onSmp (f : Sample → Sample) : (s.onSmp f).nPorts = s.nPorts := rfl
@[simp] theorem State.nSlices_onSmp (f : Sample → Sample) : (s.onSmp f).nSlices = s.nSlices := rfl
@[simp] theorem State.port_onSmp (f : Sample → Sample) (q : PortId) : (s.onSmp f).port q = s.port q := rfl
@[simp] theorem State.link_onSmp (f : Sample → Sample) (k : LinkEndId) : (s.onSmp f).link k = s.link k := rfl
@[simp] theorem State.dev_onSmp (f : Sample → Sample) (e : Nat) : (s.onSmp f).dev e = s.dev e := rfl
@[simp] theorem State.ring_onSmp (f : Sample → Sample) (q : Nat) : (s.onSmp f).ring q = s.ring q := rfl
@[simp] theorem State.slice_onSmp (f : Sample → Sample) (m : Nat) : (s.onSmp f).slice m = s.slice m := rfl
@[simp] theorem State.vector_onSmp (f : Sample → Sample) (k : Nat) : (s.onSmp f).vector k = s.vector k := rfl
@[simp] theorem State.source_onSmp (f : Sample → Sample) (y : Nat) : (s.onSmp f).source y = s.source y := rfl
@[simp] theorem State.ctxOpt_onSmp (f : Sample → Sample) (h : Nat) : (s.onSmp f).ctx? h = s.ctx? h := rfl
@[simp] theorem State.portState_onSmp (f : Sample → Sample) (q : PortId) : (s.onSmp f).portState q = s.portState q := rfl
@[simp] theorem State.sliceState_onSmp (f : Sample → Sample) (m : Nat) : (s.onSmp f).sliceState m = s.sliceState m := rfl

@[simp] theorem State.rd_onTwin (f : Twin → Twin) (q : Reg) (j : Nat) : (s.onTwin f).rd q j = s.rd q j := rfl
@[simp] theorem State.fgetN_onTwin (f : Twin → Twin) (g : Fld) (j : Nat) : (s.onTwin f).fgetN g j = s.fgetN g j := rfl
@[simp] theorem State.fget_onTwin (f : Twin → Twin) (g : Fld) : (s.onTwin f).fget g = s.fget g := rfl
@[simp] theorem State.flagN_onTwin (f : Twin → Twin) (g : Fld) (j : Nat) : (s.onTwin f).flagN g j = s.flagN g j := rfl
@[simp] theorem State.flag_onTwin (f : Twin → Twin) (g : Fld) : (s.onTwin f).flag g = s.flag g := rfl
@[simp] theorem State.ready_onTwin (f : Twin → Twin) : (s.onTwin f).ready = s.ready := rfl
@[simp] theorem State.nPorts_onTwin (f : Twin → Twin) : (s.onTwin f).nPorts = s.nPorts := rfl
@[simp] theorem State.nSlices_onTwin (f : Twin → Twin) : (s.onTwin f).nSlices = s.nSlices := rfl
@[simp] theorem State.port_onTwin (f : Twin → Twin) (q : PortId) : (s.onTwin f).port q = s.port q := rfl
@[simp] theorem State.link_onTwin (f : Twin → Twin) (k : LinkEndId) : (s.onTwin f).link k = s.link k := rfl
@[simp] theorem State.dev_onTwin (f : Twin → Twin) (e : Nat) : (s.onTwin f).dev e = s.dev e := rfl
@[simp] theorem State.ring_onTwin (f : Twin → Twin) (q : Nat) : (s.onTwin f).ring q = s.ring q := rfl
@[simp] theorem State.slice_onTwin (f : Twin → Twin) (m : Nat) : (s.onTwin f).slice m = s.slice m := rfl
@[simp] theorem State.vector_onTwin (f : Twin → Twin) (k : Nat) : (s.onTwin f).vector k = s.vector k := rfl
@[simp] theorem State.source_onTwin (f : Twin → Twin) (y : Nat) : (s.onTwin f).source y = s.source y := rfl
@[simp] theorem State.ctxOpt_onTwin (f : Twin → Twin) (h : Nat) : (s.onTwin f).ctx? h = s.ctx? h := rfl
@[simp] theorem State.portState_onTwin (f : Twin → Twin) (q : PortId) : (s.onTwin f).portState q = s.portState q := rfl
@[simp] theorem State.sliceState_onTwin (f : Twin → Twin) (m : Nat) : (s.onTwin f).sliceState m = s.sliceState m := rfl

@[simp] theorem State.rd_onSide (f : Sideband → Sideband) (q : Reg) (j : Nat) : (s.onSide f).rd q j = s.rd q j := rfl
@[simp] theorem State.fgetN_onSide (f : Sideband → Sideband) (g : Fld) (j : Nat) : (s.onSide f).fgetN g j = s.fgetN g j := rfl
@[simp] theorem State.fget_onSide (f : Sideband → Sideband) (g : Fld) : (s.onSide f).fget g = s.fget g := rfl
@[simp] theorem State.flagN_onSide (f : Sideband → Sideband) (g : Fld) (j : Nat) : (s.onSide f).flagN g j = s.flagN g j := rfl
@[simp] theorem State.flag_onSide (f : Sideband → Sideband) (g : Fld) : (s.onSide f).flag g = s.flag g := rfl
@[simp] theorem State.ready_onSide (f : Sideband → Sideband) : (s.onSide f).ready = s.ready := rfl
@[simp] theorem State.nPorts_onSide (f : Sideband → Sideband) : (s.onSide f).nPorts = s.nPorts := rfl
@[simp] theorem State.nSlices_onSide (f : Sideband → Sideband) : (s.onSide f).nSlices = s.nSlices := rfl
@[simp] theorem State.port_onSide (f : Sideband → Sideband) (q : PortId) : (s.onSide f).port q = s.port q := rfl
@[simp] theorem State.link_onSide (f : Sideband → Sideband) (k : LinkEndId) : (s.onSide f).link k = s.link k := rfl
@[simp] theorem State.dev_onSide (f : Sideband → Sideband) (e : Nat) : (s.onSide f).dev e = s.dev e := rfl
@[simp] theorem State.ring_onSide (f : Sideband → Sideband) (q : Nat) : (s.onSide f).ring q = s.ring q := rfl
@[simp] theorem State.slice_onSide (f : Sideband → Sideband) (m : Nat) : (s.onSide f).slice m = s.slice m := rfl
@[simp] theorem State.vector_onSide (f : Sideband → Sideband) (k : Nat) : (s.onSide f).vector k = s.vector k := rfl
@[simp] theorem State.source_onSide (f : Sideband → Sideband) (y : Nat) : (s.onSide f).source y = s.source y := rfl
@[simp] theorem State.ctxOpt_onSide (f : Sideband → Sideband) (h : Nat) : (s.onSide f).ctx? h = s.ctx? h := rfl
@[simp] theorem State.portState_onSide (f : Sideband → Sideband) (q : PortId) : (s.onSide f).portState q = s.portState q := rfl
@[simp] theorem State.sliceState_onSide (f : Sideband → Sideband) (m : Nat) : (s.onSide f).sliceState m = s.sliceState m := rfl

@[simp] theorem State.rd_onAudit (f : Audit → Audit) (q : Reg) (j : Nat) : (s.onAudit f).rd q j = s.rd q j := rfl
@[simp] theorem State.fgetN_onAudit (f : Audit → Audit) (g : Fld) (j : Nat) : (s.onAudit f).fgetN g j = s.fgetN g j := rfl
@[simp] theorem State.fget_onAudit (f : Audit → Audit) (g : Fld) : (s.onAudit f).fget g = s.fget g := rfl
@[simp] theorem State.flagN_onAudit (f : Audit → Audit) (g : Fld) (j : Nat) : (s.onAudit f).flagN g j = s.flagN g j := rfl
@[simp] theorem State.flag_onAudit (f : Audit → Audit) (g : Fld) : (s.onAudit f).flag g = s.flag g := rfl
@[simp] theorem State.ready_onAudit (f : Audit → Audit) : (s.onAudit f).ready = s.ready := rfl
@[simp] theorem State.nPorts_onAudit (f : Audit → Audit) : (s.onAudit f).nPorts = s.nPorts := rfl
@[simp] theorem State.nSlices_onAudit (f : Audit → Audit) : (s.onAudit f).nSlices = s.nSlices := rfl
@[simp] theorem State.port_onAudit (f : Audit → Audit) (q : PortId) : (s.onAudit f).port q = s.port q := rfl
@[simp] theorem State.link_onAudit (f : Audit → Audit) (k : LinkEndId) : (s.onAudit f).link k = s.link k := rfl
@[simp] theorem State.dev_onAudit (f : Audit → Audit) (e : Nat) : (s.onAudit f).dev e = s.dev e := rfl
@[simp] theorem State.ring_onAudit (f : Audit → Audit) (q : Nat) : (s.onAudit f).ring q = s.ring q := rfl
@[simp] theorem State.slice_onAudit (f : Audit → Audit) (m : Nat) : (s.onAudit f).slice m = s.slice m := rfl
@[simp] theorem State.vector_onAudit (f : Audit → Audit) (k : Nat) : (s.onAudit f).vector k = s.vector k := rfl
@[simp] theorem State.source_onAudit (f : Audit → Audit) (y : Nat) : (s.onAudit f).source y = s.source y := rfl
@[simp] theorem State.ctxOpt_onAudit (f : Audit → Audit) (h : Nat) : (s.onAudit f).ctx? h = s.ctx? h := rfl
@[simp] theorem State.portState_onAudit (f : Audit → Audit) (q : PortId) : (s.onAudit f).portState q = s.portState q := rfl
@[simp] theorem State.sliceState_onAudit (f : Audit → Audit) (m : Nat) : (s.onAudit f).sliceState m = s.sliceState m := rfl

@[simp] theorem State.rd_onMov (f : Mover → Mover) (q : Reg) (j : Nat) : (s.onMov f).rd q j = s.rd q j := rfl
@[simp] theorem State.fgetN_onMov (f : Mover → Mover) (g : Fld) (j : Nat) : (s.onMov f).fgetN g j = s.fgetN g j := rfl
@[simp] theorem State.fget_onMov (f : Mover → Mover) (g : Fld) : (s.onMov f).fget g = s.fget g := rfl
@[simp] theorem State.flagN_onMov (f : Mover → Mover) (g : Fld) (j : Nat) : (s.onMov f).flagN g j = s.flagN g j := rfl
@[simp] theorem State.flag_onMov (f : Mover → Mover) (g : Fld) : (s.onMov f).flag g = s.flag g := rfl
@[simp] theorem State.ready_onMov (f : Mover → Mover) : (s.onMov f).ready = s.ready := rfl
@[simp] theorem State.nPorts_onMov (f : Mover → Mover) : (s.onMov f).nPorts = s.nPorts := rfl
@[simp] theorem State.nSlices_onMov (f : Mover → Mover) : (s.onMov f).nSlices = s.nSlices := rfl
@[simp] theorem State.port_onMov (f : Mover → Mover) (q : PortId) : (s.onMov f).port q = s.port q := rfl
@[simp] theorem State.link_onMov (f : Mover → Mover) (k : LinkEndId) : (s.onMov f).link k = s.link k := rfl
@[simp] theorem State.dev_onMov (f : Mover → Mover) (e : Nat) : (s.onMov f).dev e = s.dev e := rfl
@[simp] theorem State.ring_onMov (f : Mover → Mover) (q : Nat) : (s.onMov f).ring q = s.ring q := rfl
@[simp] theorem State.slice_onMov (f : Mover → Mover) (m : Nat) : (s.onMov f).slice m = s.slice m := rfl
@[simp] theorem State.vector_onMov (f : Mover → Mover) (k : Nat) : (s.onMov f).vector k = s.vector k := rfl
@[simp] theorem State.source_onMov (f : Mover → Mover) (y : Nat) : (s.onMov f).source y = s.source y := rfl
@[simp] theorem State.ctxOpt_onMov (f : Mover → Mover) (h : Nat) : (s.onMov f).ctx? h = s.ctx? h := rfl
@[simp] theorem State.portState_onMov (f : Mover → Mover) (q : PortId) : (s.onMov f).portState q = s.portState q := rfl
@[simp] theorem State.sliceState_onMov (f : Mover → Mover) (m : Nat) : (s.onMov f).sliceState m = s.sliceState m := rfl

/-! ### `State.fsetN` -/

@[simp] theorem State.fsetN_pending (f : Fld) (i v : Nat) : (s.fsetN f i v).pending = s.pending := rfl
@[simp] theorem State.fsetN_out (f : Fld) (i v : Nat) : (s.fsetN f i v).out = s.out := rfl
@[simp] theorem State.fsetN_free (f : Fld) (i v : Nat) : (s.fsetN f i v).free = s.free := rfl
@[simp] theorem State.fsetN_tim (f : Fld) (i v : Nat) : (s.fsetN f i v).tim = s.tim := rfl
@[simp] theorem State.fsetN_pol (f : Fld) (i v : Nat) : (s.fsetN f i v).pol = s.pol := rfl
@[simp] theorem State.fsetN_ports (f : Fld) (i v : Nat) : (s.fsetN f i v).ports = s.ports := rfl
@[simp] theorem State.fsetN_links (f : Fld) (i v : Nat) : (s.fsetN f i v).links = s.links := rfl
@[simp] theorem State.fsetN_side (f : Fld) (i v : Nat) : (s.fsetN f i v).side = s.side := rfl
@[simp] theorem State.fsetN_devs (f : Fld) (i v : Nat) : (s.fsetN f i v).devs = s.devs := rfl
@[simp] theorem State.fsetN_ctxs (f : Fld) (i v : Nat) : (s.fsetN f i v).ctxs = s.ctxs := rfl
@[simp] theorem State.fsetN_cmgr (f : Fld) (i v : Nat) : (s.fsetN f i v).cmgr = s.cmgr := rfl
@[simp] theorem State.fsetN_txns (f : Fld) (i v : Nat) : (s.fsetN f i v).txns = s.txns := rfl
@[simp] theorem State.fsetN_rings (f : Fld) (i v : Nat) : (s.fsetN f i v).rings = s.rings := rfl
@[simp] theorem State.fsetN_entries (f : Fld) (i v : Nat) : (s.fsetN f i v).entries = s.entries := rfl
@[simp] theorem State.fsetN_cmds (f : Fld) (i v : Nat) : (s.fsetN f i v).cmds = s.cmds := rfl
@[simp] theorem State.fsetN_sched (f : Fld) (i v : Nat) : (s.fsetN f i v).sched = s.sched := rfl
@[simp] theorem State.fsetN_deal (f : Fld) (i v : Nat) : (s.fsetN f i v).deal = s.deal := rfl
@[simp] theorem State.fsetN_slices (f : Fld) (i v : Nat) : (s.fsetN f i v).slices = s.slices := rfl
@[simp] theorem State.fsetN_icu (f : Fld) (i v : Nat) : (s.fsetN f i v).icu = s.icu := rfl
@[simp] theorem State.fsetN_pool (f : Fld) (i v : Nat) : (s.fsetN f i v).pool = s.pool := rfl
@[simp] theorem State.fsetN_pwr (f : Fld) (i v : Nat) : (s.fsetN f i v).pwr = s.pwr := rfl
@[simp] theorem State.fsetN_twin (f : Fld) (i v : Nat) : (s.fsetN f i v).twin = s.twin := rfl
@[simp] theorem State.fsetN_smp (f : Fld) (i v : Nat) : (s.fsetN f i v).smp = s.smp := rfl
@[simp] theorem State.fsetN_audit (f : Fld) (i v : Nat) : (s.fsetN f i v).audit = s.audit := rfl
@[simp] theorem State.fsetN_mov (f : Fld) (i v : Nat) : (s.fsetN f i v).mov = s.mov := rfl
@[simp] theorem State.fsetN_hlt (f : Fld) (i v : Nat) : (s.fsetN f i v).hlt = s.hlt := rfl
@[simp] theorem State.fsetN_aer (f : Fld) (i v : Nat) : (s.fsetN f i v).aer = s.aer := rfl
@[simp] theorem State.fsetN_ind (f : Fld) (i v : Nat) : (s.fsetN f i v).ind = s.ind := rfl
@[simp] theorem State.port_fsetN (f : Fld) (i v : Nat) (q : PortId) : (s.fsetN f i v).port q = s.port q := rfl
@[simp] theorem State.link_fsetN (f : Fld) (i v : Nat) (k : LinkEndId) : (s.fsetN f i v).link k = s.link k := rfl
@[simp] theorem State.dev_fsetN (f : Fld) (i v : Nat) (e : Nat) : (s.fsetN f i v).dev e = s.dev e := rfl
@[simp] theorem State.ring_fsetN (f : Fld) (i v : Nat) (q : Nat) : (s.fsetN f i v).ring q = s.ring q := rfl
@[simp] theorem State.slice_fsetN (f : Fld) (i v : Nat) (m : Nat) : (s.fsetN f i v).slice m = s.slice m := rfl
@[simp] theorem State.vector_fsetN (f : Fld) (i v : Nat) (k : Nat) : (s.fsetN f i v).vector k = s.vector k := rfl
@[simp] theorem State.source_fsetN (f : Fld) (i v : Nat) (y : Nat) : (s.fsetN f i v).source y = s.source y := rfl
@[simp] theorem State.ctxOpt_fsetN (f : Fld) (i v : Nat) (h : Nat) : (s.fsetN f i v).ctx? h = s.ctx? h := rfl

/-! ### Fields -/

theorem field_mask_other (w m : DWord) (hi lo v hj lj : Nat) (h : lo ≤ hi) (hi64 : hi < 64) (hjl : lj ≤ hj) (hd : hj < lo ∨ hi < lj)
    (hm : fieldMask hj lj &&& ~~~ m = 0) (hm' : fieldMask hi lo &&& ~~~ m = 0) (hj64 : hj < 64) :
    field (setField w hi lo v &&& m) hj lj = field w hj lj := by
  apply Nat.eq_of_testBit_eq
  intro i
  rw [field_bit, field_bit, BitVec.getLsbD_and, setField_bit _ _ _ _ _ (by omega) hi64]
  by_cases c : i < hj + 1 - lj
  · have a : ¬ (lo ≤ lj + i ∧ lj + i ≤ hi) := by omega
    have e := congrArg (fun x : DWord => x.getLsbD (lj + i)) hm
    simp only [BitVec.getLsbD_and, BitVec.getLsbD_not, fieldMask_bit _ _ _ (show lj ≤ hj + 1 by omega)] at e
    have b : lj + i < 64 := by omega
    have d : lj + i ≤ hj := by omega
    have hb : m.getLsbD (lj + i) = true := by simpa [b, d] using e
    simp [a, hb]
  · simp [c]

theorem State.fgetN_apart (f g : Fld) (i j v : Nat) (h : f.apart g = true) : (s.fsetN f i v).fgetN g j = s.fgetN g j := by
  simp only [Fld.apart, Bool.or_eq_true, decide_eq_true_eq, Bool.and_eq_true] at h
  by_cases r : g.reg = f.reg
  · by_cases e : j = i
    · subst e
      obtain ⟨⟨h1, h2⟩, h3⟩ := h.resolve_left (fun x => x r)
      simp only [Fld.ok, Bool.and_eq_true, decide_eq_true_eq] at h1 h2
      simp only [State.fgetN, State.fsetN, r, State.rd_wr_same]
      exact field_mask_other _ _ _ _ _ _ _ h1.1.1 h1.1.2 h2.1.1 h3 (r ▸ h2.2) h1.2 h2.1.2
    · exact State.fgetN_fsetN_reg s f g i j v (.inr e)
  · exact State.fgetN_fsetN_reg s f g i j v (.inl r)

theorem State.fgetN_other (f g : Fld) (i j v : Nat) (h : j ≠ i) : (s.fsetN f i v).fgetN g j = s.fgetN g j :=
  State.fgetN_fsetN_reg s f g i j v (.inr h)

theorem State.rd_fsetN_other (f : Fld) (q : Reg) (i j v : Nat) (h : q ≠ f.reg ∨ j ≠ i) : (s.fsetN f i v).rd q j = s.rd q j :=
  State.rd_wr_other _ _ h

end Sys2Proof.Machine
end

