-- ==== Sys2Proof/Laws/Fields.lean ====
section
/-! SUPPORT. Laws/Fields.lean: the register that each field lies in. -/

namespace Sys2Proof.Machine

@[simp] theorem Fld.GCTL_ID_DEVICE_reg : Fld.GCTL_ID_DEVICE.reg = .GCTL_ID := Eq.trans rfl rfl
@[simp] theorem Fld.GCTL_ID_STEP_reg : Fld.GCTL_ID_STEP.reg = .GCTL_ID := Eq.trans rfl rfl
@[simp] theorem Fld.GCTL_CAPS_ICU_SRC_reg : Fld.GCTL_CAPS_ICU_SRC.reg = .GCTL_CAPS := Eq.trans rfl rfl
@[simp] theorem Fld.GCTL_CAPS_RINGS_reg : Fld.GCTL_CAPS_RINGS.reg = .GCTL_CAPS := Eq.trans rfl rfl
@[simp] theorem Fld.GCTL_CAPS_SLICES_reg : Fld.GCTL_CAPS_SLICES.reg = .GCTL_CAPS := Eq.trans rfl rfl
@[simp] theorem Fld.GCTL_CAPS_PORTS_reg : Fld.GCTL_CAPS_PORTS.reg = .GCTL_CAPS := Eq.trans rfl rfl
@[simp] theorem Fld.GCTL_CAPS_TWIN_reg : Fld.GCTL_CAPS_TWIN.reg = .GCTL_CAPS := Eq.trans rfl rfl
@[simp] theorem Fld.GCTL_CAPS_CODER_reg : Fld.GCTL_CAPS_CODER.reg = .GCTL_CAPS := Eq.trans rfl rfl
@[simp] theorem Fld.GCTL_ACCESS_ERR_VALID_reg : Fld.GCTL_ACCESS_ERR_VALID.reg = .GCTL_ACCESS_ERR := Eq.trans rfl rfl
@[simp] theorem Fld.GCTL_ACCESS_ERR_MORE_reg : Fld.GCTL_ACCESS_ERR_MORE.reg = .GCTL_ACCESS_ERR := Eq.trans rfl rfl
@[simp] theorem Fld.GCTL_ACCESS_ERR_KIND_reg : Fld.GCTL_ACCESS_ERR_KIND.reg = .GCTL_ACCESS_ERR := Eq.trans rfl rfl
@[simp] theorem Fld.GCTL_ACCESS_ERR_BAR_reg : Fld.GCTL_ACCESS_ERR_BAR.reg = .GCTL_ACCESS_ERR := Eq.trans rfl rfl
@[simp] theorem Fld.GCTL_ACCESS_ERR_LAST_BE_reg : Fld.GCTL_ACCESS_ERR_LAST_BE.reg = .GCTL_ACCESS_ERR := Eq.trans rfl rfl
@[simp] theorem Fld.GCTL_ACCESS_ERR_FIRST_BE_reg : Fld.GCTL_ACCESS_ERR_FIRST_BE.reg = .GCTL_ACCESS_ERR := Eq.trans rfl rfl
@[simp] theorem Fld.GCTL_ACCESS_ERR_COUNT_reg : Fld.GCTL_ACCESS_ERR_COUNT.reg = .GCTL_ACCESS_ERR := Eq.trans rfl rfl
@[simp] theorem Fld.GCTL_ACCESS_ADDR_DOMAIN_reg : Fld.GCTL_ACCESS_ADDR_DOMAIN.reg = .GCTL_ACCESS_ADDR := Eq.trans rfl rfl
@[simp] theorem Fld.GCTL_ACCESS_ADDR_OFFSET_reg : Fld.GCTL_ACCESS_ADDR_OFFSET.reg = .GCTL_ACCESS_ADDR := Eq.trans rfl rfl
@[simp] theorem Fld.GCTL_POLICY_POWER_reg : Fld.GCTL_POLICY_POWER.reg = .GCTL_POLICY := Eq.trans rfl rfl
@[simp] theorem Fld.GCTL_POLICY_TAKEOVER_reg : Fld.GCTL_POLICY_TAKEOVER.reg = .GCTL_POLICY := Eq.trans rfl rfl
@[simp] theorem Fld.GCTL_POLICY_RETIRE_reg : Fld.GCTL_POLICY_RETIRE.reg = .GCTL_POLICY := Eq.trans rfl rfl
@[simp] theorem Fld.GCTL_POLICY_THROTTLE_reg : Fld.GCTL_POLICY_THROTTLE.reg = .GCTL_POLICY := Eq.trans rfl rfl
@[simp] theorem Fld.GCTL_POLICY_RATE_reg : Fld.GCTL_POLICY_RATE.reg = .GCTL_POLICY := Eq.trans rfl rfl
@[simp] theorem Fld.GCTL_POLICY_STS_ACTION_COUNT_reg : Fld.GCTL_POLICY_STS_ACTION_COUNT.reg = .GCTL_POLICY_STS := Eq.trans rfl rfl
@[simp] theorem Fld.GCTL_POLICY_STS_POWER_ACTIVE_reg : Fld.GCTL_POLICY_STS_POWER_ACTIVE.reg = .GCTL_POLICY_STS := Eq.trans rfl rfl
@[simp] theorem Fld.GCTL_POLICY_STS_TAKEOVER_ACTIVE_reg : Fld.GCTL_POLICY_STS_TAKEOVER_ACTIVE.reg = .GCTL_POLICY_STS := Eq.trans rfl rfl
@[simp] theorem Fld.GCTL_POLICY_STS_RETIRE_ACTIVE_reg : Fld.GCTL_POLICY_STS_RETIRE_ACTIVE.reg = .GCTL_POLICY_STS := Eq.trans rfl rfl
@[simp] theorem Fld.GCTL_POLICY_STS_THROTTLE_ACTIVE_reg : Fld.GCTL_POLICY_STS_THROTTLE_ACTIVE.reg = .GCTL_POLICY_STS := Eq.trans rfl rfl
@[simp] theorem Fld.GCTL_POLICY_STS_RATE_ACTIVE_reg : Fld.GCTL_POLICY_STS_RATE_ACTIVE.reg = .GCTL_POLICY_STS := Eq.trans rfl rfl
@[simp] theorem Fld.TIM_CTL_STEP_GO_reg : Fld.TIM_CTL_STEP_GO.reg = .TIM_CTL := Eq.trans rfl rfl
@[simp] theorem Fld.TIM_CTL_AUTOSTEP_reg : Fld.TIM_CTL_AUTOSTEP.reg = .TIM_CTL := Eq.trans rfl rfl
@[simp] theorem Fld.TIM_CTL_PPS_OUT_EN_reg : Fld.TIM_CTL_PPS_OUT_EN.reg = .TIM_CTL := Eq.trans rfl rfl
@[simp] theorem Fld.TIM_CTL_PPS_EDGE_reg : Fld.TIM_CTL_PPS_EDGE.reg = .TIM_CTL := Eq.trans rfl rfl
@[simp] theorem Fld.TIM_CTL_PTM_EN_reg : Fld.TIM_CTL_PTM_EN.reg = .TIM_CTL := Eq.trans rfl rfl
@[simp] theorem Fld.TIM_CTL_IRIG_EN_reg : Fld.TIM_CTL_IRIG_EN.reg = .TIM_CTL := Eq.trans rfl rfl
@[simp] theorem Fld.TIM_CTL_PPS_EN_reg : Fld.TIM_CTL_PPS_EN.reg = .TIM_CTL := Eq.trans rfl rfl
@[simp] theorem Fld.TIM_CTL_REF_EN_reg : Fld.TIM_CTL_REF_EN.reg = .TIM_CTL := Eq.trans rfl rfl
@[simp] theorem Fld.TIM_CTL_FRAME_EN_reg : Fld.TIM_CTL_FRAME_EN.reg = .TIM_CTL := Eq.trans rfl rfl
@[simp] theorem Fld.TIM_FRATE_FRATE_reg : Fld.TIM_FRATE_FRATE.reg = .TIM_FRATE := Eq.trans rfl rfl
@[simp] theorem Fld.TIM_STS_PHASE_SRC_reg : Fld.TIM_STS_PHASE_SRC.reg = .TIM_STS := Eq.trans rfl rfl
@[simp] theorem Fld.TIM_STS_FREQ_SRC_reg : Fld.TIM_STS_FREQ_SRC.reg = .TIM_STS := Eq.trans rfl rfl
@[simp] theorem Fld.TIM_STS_FRATE_PEND_reg : Fld.TIM_STS_FRATE_PEND.reg = .TIM_STS := Eq.trans rfl rfl
@[simp] theorem Fld.TIM_STS_STEP_PENDING_reg : Fld.TIM_STS_STEP_PENDING.reg = .TIM_STS := Eq.trans rfl rfl
@[simp] theorem Fld.TIM_STS_LABEL_VALID_reg : Fld.TIM_STS_LABEL_VALID.reg = .TIM_STS := Eq.trans rfl rfl
@[simp] theorem Fld.TIM_STS_HOLDOVER_reg : Fld.TIM_STS_HOLDOVER.reg = .TIM_STS := Eq.trans rfl rfl
@[simp] theorem Fld.TIM_STS_PTM_OK_reg : Fld.TIM_STS_PTM_OK.reg = .TIM_STS := Eq.trans rfl rfl
@[simp] theorem Fld.TIM_STS_IRIG_OK_reg : Fld.TIM_STS_IRIG_OK.reg = .TIM_STS := Eq.trans rfl rfl
@[simp] theorem Fld.TIM_STS_PPS_OK_reg : Fld.TIM_STS_PPS_OK.reg = .TIM_STS := Eq.trans rfl rfl
@[simp] theorem Fld.TIM_STS_REF_OK_reg : Fld.TIM_STS_REF_OK.reg = .TIM_STS := Eq.trans rfl rfl
@[simp] theorem Fld.TIM_STS_QCLASS_reg : Fld.TIM_STS_QCLASS.reg = .TIM_STS := Eq.trans rfl rfl
@[simp] theorem Fld.TIM_EVT_FRATE_REFUSED_reg : Fld.TIM_EVT_FRATE_REFUSED.reg = .TIM_EVT := Eq.trans rfl rfl
@[simp] theorem Fld.TIM_EVT_FRATE_APPLIED_reg : Fld.TIM_EVT_FRATE_APPLIED.reg = .TIM_EVT := Eq.trans rfl rfl
@[simp] theorem Fld.TIM_EVT_LABEL_MISMATCH_reg : Fld.TIM_EVT_LABEL_MISMATCH.reg = .TIM_EVT := Eq.trans rfl rfl
@[simp] theorem Fld.TIM_EVT_STEP_DONE_reg : Fld.TIM_EVT_STEP_DONE.reg = .TIM_EVT := Eq.trans rfl rfl
@[simp] theorem Fld.TIM_EVT_STEP_PENDING_SET_reg : Fld.TIM_EVT_STEP_PENDING_SET.reg = .TIM_EVT := Eq.trans rfl rfl
@[simp] theorem Fld.TIM_EVT_PTM_LOST_reg : Fld.TIM_EVT_PTM_LOST.reg = .TIM_EVT := Eq.trans rfl rfl
@[simp] theorem Fld.TIM_EVT_IRIG_LOST_reg : Fld.TIM_EVT_IRIG_LOST.reg = .TIM_EVT := Eq.trans rfl rfl
@[simp] theorem Fld.TIM_EVT_PPS_LOST_reg : Fld.TIM_EVT_PPS_LOST.reg = .TIM_EVT := Eq.trans rfl rfl
@[simp] theorem Fld.TIM_EVT_REF_LOST_reg : Fld.TIM_EVT_REF_LOST.reg = .TIM_EVT := Eq.trans rfl rfl
@[simp] theorem Fld.TIM_EVT_QCLASS_CHANGED_reg : Fld.TIM_EVT_QCLASS_CHANGED.reg = .TIM_EVT := Eq.trans rfl rfl
@[simp] theorem Fld.TIM_NOW_NOW_reg : Fld.TIM_NOW_NOW.reg = .TIM_NOW := Eq.trans rfl rfl
@[simp] theorem Fld.TIM_FRAME_NO_FRAME_NO_reg : Fld.TIM_FRAME_NO_FRAME_NO.reg = .TIM_FRAME_NO := Eq.trans rfl rfl
@[simp] theorem Fld.TIM_FRAME_START_START_reg : Fld.TIM_FRAME_START_START.reg = .TIM_FRAME_START := Eq.trans rfl rfl
@[simp] theorem Fld.TIM_UTC_UTC_OFS_reg : Fld.TIM_UTC_UTC_OFS.reg = .TIM_UTC := Eq.trans rfl rfl
@[simp] theorem Fld.TIM_IRIG_OFS_IRIG_OFS_reg : Fld.TIM_IRIG_OFS_IRIG_OFS.reg = .TIM_IRIG_OFS := Eq.trans rfl rfl
@[simp] theorem Fld.TIM_LABEL_LABEL_reg : Fld.TIM_LABEL_LABEL.reg = .TIM_LABEL := Eq.trans rfl rfl
@[simp] theorem Fld.TIM_DISC_SLEW_PPM_reg : Fld.TIM_DISC_SLEW_PPM.reg = .TIM_DISC := Eq.trans rfl rfl
@[simp] theorem Fld.TIM_STEP_THR_STEP_THR_reg : Fld.TIM_STEP_THR_STEP_THR.reg = .TIM_STEP_THR := Eq.trans rfl rfl
@[simp] theorem Fld.TIM_OFFSET_OFFSET_reg : Fld.TIM_OFFSET_OFFSET.reg = .TIM_OFFSET := Eq.trans rfl rfl
@[simp] theorem Fld.TIM_ERR_EST_ERR_EST_reg : Fld.TIM_ERR_EST_ERR_EST.reg = .TIM_ERR_EST := Eq.trans rfl rfl
@[simp] theorem Fld.TIM_HOLD_GROWTH_NOREF_reg : Fld.TIM_HOLD_GROWTH_NOREF.reg = .TIM_HOLD := Eq.trans rfl rfl
@[simp] theorem Fld.TIM_HOLD_GROWTH_REF_reg : Fld.TIM_HOLD_GROWTH_REF.reg = .TIM_HOLD := Eq.trans rfl rfl
@[simp] theorem Fld.TIM_FRATE_ACT_FRATE_ACT_reg : Fld.TIM_FRATE_ACT_FRATE_ACT.reg = .TIM_FRATE_ACT := Eq.trans rfl rfl
@[simp] theorem Fld.TIM_PTM_HOST_HOST_reg : Fld.TIM_PTM_HOST_HOST.reg = .TIM_PTM_HOST := Eq.trans rfl rfl
@[simp] theorem Fld.TIM_PTM_LOCAL_LOCAL_reg : Fld.TIM_PTM_LOCAL_LOCAL.reg = .TIM_PTM_LOCAL := Eq.trans rfl rfl
@[simp] theorem Fld.SCH_CAP_PCT_reg : Fld.SCH_CAP_PCT.reg = .SCH_CAP := Eq.trans rfl rfl
@[simp] theorem Fld.SCH_CAP_NS_CAP_NS_reg : Fld.SCH_CAP_NS_CAP_NS.reg = .SCH_CAP_NS := Eq.trans rfl rfl
@[simp] theorem Fld.SCH_ADM_STS_ADMITTING_reg : Fld.SCH_ADM_STS_ADMITTING.reg = .SCH_ADM_STS := Eq.trans rfl rfl
@[simp] theorem Fld.SCH_ADM_STS_COMMITTING_reg : Fld.SCH_ADM_STS_COMMITTING.reg = .SCH_ADM_STS := Eq.trans rfl rfl
@[simp] theorem Fld.SCH_ADM_STS_NEXT_TREE_reg : Fld.SCH_ADM_STS_NEXT_TREE.reg = .SCH_ADM_STS := Eq.trans rfl rfl
@[simp] theorem Fld.SCH_ADM_STS_LATE_CNT_reg : Fld.SCH_ADM_STS_LATE_CNT.reg = .SCH_ADM_STS := Eq.trans rfl rfl
@[simp] theorem Fld.SCH_ADM_STS_ENTRIES_reg : Fld.SCH_ADM_STS_ENTRIES.reg = .SCH_ADM_STS := Eq.trans rfl rfl
@[simp] theorem Fld.SCH_ADM_EVT_INTEGRITY_reg : Fld.SCH_ADM_EVT_INTEGRITY.reg = .SCH_ADM_EVT := Eq.trans rfl rfl
@[simp] theorem Fld.SCH_ADM_EVT_COMMIT_DONE_reg : Fld.SCH_ADM_EVT_COMMIT_DONE.reg = .SCH_ADM_EVT := Eq.trans rfl rfl
@[simp] theorem Fld.SCH_ADM_EVT_RECHECK_REFUSED_reg : Fld.SCH_ADM_EVT_RECHECK_REFUSED.reg = .SCH_ADM_EVT := Eq.trans rfl rfl
@[simp] theorem Fld.SCH_ADM_EVT_BATCH_REFUSED_reg : Fld.SCH_ADM_EVT_BATCH_REFUSED.reg = .SCH_ADM_EVT := Eq.trans rfl rfl
@[simp] theorem Fld.SCH_ADM_EVT_AMAX_REFUSED_reg : Fld.SCH_ADM_EVT_AMAX_REFUSED.reg = .SCH_ADM_EVT := Eq.trans rfl rfl
@[simp] theorem Fld.SCH_ADM_EVT_CAP_REFUSED_reg : Fld.SCH_ADM_EVT_CAP_REFUSED.reg = .SCH_ADM_EVT := Eq.trans rfl rfl
@[simp] theorem Fld.SCH_LAST_SWITCH_FRAME_reg : Fld.SCH_LAST_SWITCH_FRAME.reg = .SCH_LAST_SWITCH := Eq.trans rfl rfl
@[simp] theorem Fld.SCH_BACKOFF_CAP_US_reg : Fld.SCH_BACKOFF_CAP_US.reg = .SCH_BACKOFF := Eq.trans rfl rfl
@[simp] theorem Fld.SCH_BACKOFF_BASE_NS_reg : Fld.SCH_BACKOFF_BASE_NS.reg = .SCH_BACKOFF := Eq.trans rfl rfl
@[simp] theorem Fld.SCH_PINGGAP_GAP_NS_reg : Fld.SCH_PINGGAP_GAP_NS.reg = .SCH_PINGGAP := Eq.trans rfl rfl
@[simp] theorem Fld.SCH_QUOTA_QUOTA_reg : Fld.SCH_QUOTA_QUOTA.reg = .SCH_QUOTA := Eq.trans rfl rfl
@[simp] theorem Fld.SCH_SPILL_BASE_BASE_reg : Fld.SCH_SPILL_BASE_BASE.reg = .SCH_SPILL_BASE := Eq.trans rfl rfl
@[simp] theorem Fld.SCH_SPILL_BASE_ENABLE_reg : Fld.SCH_SPILL_BASE_ENABLE.reg = .SCH_SPILL_BASE := Eq.trans rfl rfl
@[simp] theorem Fld.SCH_SPILL_SIZE_BLOCKS_reg : Fld.SCH_SPILL_SIZE_BLOCKS.reg = .SCH_SPILL_SIZE := Eq.trans rfl rfl
@[simp] theorem Fld.SCH_SPILL_STS_FULL_reg : Fld.SCH_SPILL_STS_FULL.reg = .SCH_SPILL_STS := Eq.trans rfl rfl
@[simp] theorem Fld.SCH_SPILL_STS_ERR_reg : Fld.SCH_SPILL_STS_ERR.reg = .SCH_SPILL_STS := Eq.trans rfl rfl
@[simp] theorem Fld.SCH_SPILL_STS_USED_reg : Fld.SCH_SPILL_STS_USED.reg = .SCH_SPILL_STS := Eq.trans rfl rfl
@[simp] theorem Fld.SCH_QSTS_ENTRIES_reg : Fld.SCH_QSTS_ENTRIES.reg = .SCH_QSTS := Eq.trans rfl rfl
@[simp] theorem Fld.SCH_DSTS_DELAYED_reg : Fld.SCH_DSTS_DELAYED.reg = .SCH_DSTS := Eq.trans rfl rfl
@[simp] theorem Fld.SCH_DYN_CNT_ROLLED_reg : Fld.SCH_DYN_CNT_ROLLED.reg = .SCH_DYN_CNT := Eq.trans rfl rfl
@[simp] theorem Fld.SCH_DYN_CNT_RETURNED_reg : Fld.SCH_DYN_CNT_RETURNED.reg = .SCH_DYN_CNT := Eq.trans rfl rfl
@[simp] theorem Fld.SCH_DYN_CNT_UNDERFLOW_reg : Fld.SCH_DYN_CNT_UNDERFLOW.reg = .SCH_DYN_CNT := Eq.trans rfl rfl
@[simp] theorem Fld.SCH_NAK_CNT_NAKS_reg : Fld.SCH_NAK_CNT_NAKS.reg = .SCH_NAK_CNT := Eq.trans rfl rfl
@[simp] theorem Fld.SCH_NAK_CNT_PING_NAKS_reg : Fld.SCH_NAK_CNT_PING_NAKS.reg = .SCH_NAK_CNT := Eq.trans rfl rfl
@[simp] theorem Fld.SCH_DCNT_SEL_INDEX_reg : Fld.SCH_DCNT_SEL_INDEX.reg = .SCH_DCNT_SEL := Eq.trans rfl rfl
@[simp] theorem Fld.SCH_DCNT_VAL_VALUE_reg : Fld.SCH_DCNT_VAL_VALUE.reg = .SCH_DCNT_VAL := Eq.trans rfl rfl
@[simp] theorem Fld.SCH_TRACE_CTL_EN_reg : Fld.SCH_TRACE_CTL_EN.reg = .SCH_TRACE_CTL := Eq.trans rfl rfl
@[simp] theorem Fld.SCH_TRACE_CTL_EPH_EN_reg : Fld.SCH_TRACE_CTL_EPH_EN.reg = .SCH_TRACE_CTL := Eq.trans rfl rfl
@[simp] theorem Fld.SCH_TRACE_CTL_SLICE_EN_reg : Fld.SCH_TRACE_CTL_SLICE_EN.reg = .SCH_TRACE_CTL := Eq.trans rfl rfl
@[simp] theorem Fld.SCH_TRACE_CTL_SLICE_reg : Fld.SCH_TRACE_CTL_SLICE.reg = .SCH_TRACE_CTL := Eq.trans rfl rfl
@[simp] theorem Fld.SCH_TRACE_CTL_KINDS_reg : Fld.SCH_TRACE_CTL_KINDS.reg = .SCH_TRACE_CTL := Eq.trans rfl rfl
@[simp] theorem Fld.SCH_TRACE_PORTS_PORTS_reg : Fld.SCH_TRACE_PORTS_PORTS.reg = .SCH_TRACE_PORTS := Eq.trans rfl rfl
@[simp] theorem Fld.SCH_TRACE_EPH_EPH_reg : Fld.SCH_TRACE_EPH_EPH.reg = .SCH_TRACE_EPH := Eq.trans rfl rfl
@[simp] theorem Fld.SCH_TRACE_MASK_MASK_reg : Fld.SCH_TRACE_MASK_MASK.reg = .SCH_TRACE_MASK := Eq.trans rfl rfl
@[simp] theorem Fld.SCH_AMAX_AMAX_reg : Fld.SCH_AMAX_AMAX.reg = .SCH_AMAX := Eq.trans rfl rfl
@[simp] theorem Fld.SCH_OCC_PHASE_reg : Fld.SCH_OCC_PHASE.reg = .SCH_OCC := Eq.trans rfl rfl
@[simp] theorem Fld.SCH_OCC_WMAX_reg : Fld.SCH_OCC_WMAX.reg = .SCH_OCC := Eq.trans rfl rfl
@[simp] theorem Fld.SCH_RESSUM_RES_SUM_reg : Fld.SCH_RESSUM_RES_SUM.reg = .SCH_RESSUM := Eq.trans rfl rfl
@[simp] theorem Fld.SCH_GW_GW3_reg : Fld.SCH_GW_GW3.reg = .SCH_GW := Eq.trans rfl rfl
@[simp] theorem Fld.SCH_GW_GW2_reg : Fld.SCH_GW_GW2.reg = .SCH_GW := Eq.trans rfl rfl
@[simp] theorem Fld.SCH_GW_GW1_reg : Fld.SCH_GW_GW1.reg = .SCH_GW := Eq.trans rfl rfl
@[simp] theorem Fld.SCH_GW_GW0_reg : Fld.SCH_GW_GW0.reg = .SCH_GW := Eq.trans rfl rfl
@[simp] theorem Fld.SCH_MRING_GEO_BASE_reg : Fld.SCH_MRING_GEO_BASE.reg = .SCH_MRING_GEO := Eq.trans rfl rfl
@[simp] theorem Fld.SCH_MRING_GEO_TYPE_reg : Fld.SCH_MRING_GEO_TYPE.reg = .SCH_MRING_GEO := Eq.trans rfl rfl
@[simp] theorem Fld.SCH_MRING_GEO_K_reg : Fld.SCH_MRING_GEO_K.reg = .SCH_MRING_GEO := Eq.trans rfl rfl
@[simp] theorem Fld.SCH_MRING_GEO_E_reg : Fld.SCH_MRING_GEO_E.reg = .SCH_MRING_GEO := Eq.trans rfl rfl
@[simp] theorem Fld.SCH_MRING_DB_TAIL_reg : Fld.SCH_MRING_DB_TAIL.reg = .SCH_MRING_DB := Eq.trans rfl rfl
@[simp] theorem Fld.SCH_MRING_STS_REASON_reg : Fld.SCH_MRING_STS_REASON.reg = .SCH_MRING_STS := Eq.trans rfl rfl
@[simp] theorem Fld.SCH_MRING_STS_STATE_reg : Fld.SCH_MRING_STS_STATE.reg = .SCH_MRING_STS := Eq.trans rfl rfl
@[simp] theorem Fld.SCH_MRING_STS_TAIL_reg : Fld.SCH_MRING_STS_TAIL.reg = .SCH_MRING_STS := Eq.trans rfl rfl
@[simp] theorem Fld.SCH_MRING_STS_HEAD_reg : Fld.SCH_MRING_STS_HEAD.reg = .SCH_MRING_STS := Eq.trans rfl rfl
@[simp] theorem Fld.SCH_MRING_CTL_ENABLE_reg : Fld.SCH_MRING_CTL_ENABLE.reg = .SCH_MRING_CTL := Eq.trans rfl rfl
@[simp] theorem Fld.SCH_CTXDIR_BASE_reg : Fld.SCH_CTXDIR_BASE.reg = .SCH_CTXDIR := Eq.trans rfl rfl
@[simp] theorem Fld.SCH_CTXDIR_VALID_reg : Fld.SCH_CTXDIR_VALID.reg = .SCH_CTXDIR := Eq.trans rfl rfl
@[simp] theorem Fld.SCH_CTXSTS_RESIDENT_reg : Fld.SCH_CTXSTS_RESIDENT.reg = .SCH_CTXSTS := Eq.trans rfl rfl
@[simp] theorem Fld.SCH_CTXCACHED_CACHED_reg : Fld.SCH_CTXCACHED_CACHED.reg = .SCH_CTXCACHED := Eq.trans rfl rfl
@[simp] theorem Fld.SCH_CTXCNT_MISSES_reg : Fld.SCH_CTXCNT_MISSES.reg = .SCH_CTXCNT := Eq.trans rfl rfl
@[simp] theorem Fld.SCH_CTXCNT_FETCH_ERR_reg : Fld.SCH_CTXCNT_FETCH_ERR.reg = .SCH_CTXCNT := Eq.trans rfl rfl
@[simp] theorem Fld.SCH_XERR_UNSOLICITED_reg : Fld.SCH_XERR_UNSOLICITED.reg = .SCH_XERR := Eq.trans rfl rfl
@[simp] theorem Fld.SCH_XERR_DUPLICATES_reg : Fld.SCH_XERR_DUPLICATES.reg = .SCH_XERR := Eq.trans rfl rfl
@[simp] theorem Fld.PRT_CFG_TXDIS_FORCE_reg : Fld.PRT_CFG_TXDIS_FORCE.reg = .PRT_CFG := Eq.trans rfl rfl
@[simp] theorem Fld.PRT_CFG_CAGE_reg : Fld.PRT_CFG_CAGE.reg = .PRT_CFG := Eq.trans rfl rfl
@[simp] theorem Fld.PRT_CFG_RATE5_EN_reg : Fld.PRT_CFG_RATE5_EN.reg = .PRT_CFG := Eq.trans rfl rfl
@[simp] theorem Fld.PRT_CTL_CLEAR_ERROR_reg : Fld.PRT_CTL_CLEAR_ERROR.reg = .PRT_CTL := Eq.trans rfl rfl
@[simp] theorem Fld.PRT_CTL_RETRAIN_reg : Fld.PRT_CTL_RETRAIN.reg = .PRT_CTL := Eq.trans rfl rfl
@[simp] theorem Fld.PRT_CTL_RESUME_reg : Fld.PRT_CTL_RESUME.reg = .PRT_CTL := Eq.trans rfl rfl
@[simp] theorem Fld.PRT_CTL_SUSPEND_reg : Fld.PRT_CTL_SUSPEND.reg = .PRT_CTL := Eq.trans rfl rfl
@[simp] theorem Fld.PRT_CTL_RESET_reg : Fld.PRT_CTL_RESET.reg = .PRT_CTL := Eq.trans rfl rfl
@[simp] theorem Fld.PRT_CTL_RWAKE_EN_reg : Fld.PRT_CTL_RWAKE_EN.reg = .PRT_CTL := Eq.trans rfl rfl
@[simp] theorem Fld.PRT_CTL_ENABLE_reg : Fld.PRT_CTL_ENABLE.reg = .PRT_CTL := Eq.trans rfl rfl
@[simp] theorem Fld.PRT_STS_MSC_FAULT_reg : Fld.PRT_STS_MSC_FAULT.reg = .PRT_STS := Eq.trans rfl rfl
@[simp] theorem Fld.PRT_STS_TX_FAULT_reg : Fld.PRT_STS_TX_FAULT.reg = .PRT_STS := Eq.trans rfl rfl
@[simp] theorem Fld.PRT_STS_LOS_reg : Fld.PRT_STS_LOS.reg = .PRT_STS := Eq.trans rfl rfl
@[simp] theorem Fld.PRT_STS_XCVR_PRESENT_reg : Fld.PRT_STS_XCVR_PRESENT.reg = .PRT_STS := Eq.trans rfl rfl
@[simp] theorem Fld.PRT_STS_XCVR_RATED_reg : Fld.PRT_STS_XCVR_RATED.reg = .PRT_STS := Eq.trans rfl rfl
@[simp] theorem Fld.PRT_STS_CAL_OK_reg : Fld.PRT_STS_CAL_OK.reg = .PRT_STS := Eq.trans rfl rfl
@[simp] theorem Fld.PRT_STS_REFUSE_WHY_reg : Fld.PRT_STS_REFUSE_WHY.reg = .PRT_STS := Eq.trans rfl rfl
@[simp] theorem Fld.PRT_STS_COLLIDED_reg : Fld.PRT_STS_COLLIDED.reg = .PRT_STS := Eq.trans rfl rfl
@[simp] theorem Fld.PRT_STS_WAKE_SEEN_reg : Fld.PRT_STS_WAKE_SEEN.reg = .PRT_STS := Eq.trans rfl rfl
@[simp] theorem Fld.PRT_STS_PEER_RWAKE_reg : Fld.PRT_STS_PEER_RWAKE.reg = .PRT_STS := Eq.trans rfl rfl
@[simp] theorem Fld.PRT_STS_PEER_DUAL_UP_reg : Fld.PRT_STS_PEER_DUAL_UP.reg = .PRT_STS := Eq.trans rfl rfl
@[simp] theorem Fld.PRT_STS_PEER_RATE5_reg : Fld.PRT_STS_PEER_RATE5.reg = .PRT_STS := Eq.trans rfl rfl
@[simp] theorem Fld.PRT_STS_PEER_HUB_reg : Fld.PRT_STS_PEER_HUB.reg = .PRT_STS := Eq.trans rfl rfl
@[simp] theorem Fld.PRT_STS_RETRAINS_reg : Fld.PRT_STS_RETRAINS.reg = .PRT_STS := Eq.trans rfl rfl
@[simp] theorem Fld.PRT_STS_RATE_reg : Fld.PRT_STS_RATE.reg = .PRT_STS := Eq.trans rfl rfl
@[simp] theorem Fld.PRT_STS_STATE_reg : Fld.PRT_STS_STATE.reg = .PRT_STS := Eq.trans rfl rfl
@[simp] theorem Fld.PRT_CHG_RETRAIN_reg : Fld.PRT_CHG_RETRAIN.reg = .PRT_CHG := Eq.trans rfl rfl
@[simp] theorem Fld.PRT_CHG_CMD_REFUSED_reg : Fld.PRT_CHG_CMD_REFUSED.reg = .PRT_CHG := Eq.trans rfl rfl
@[simp] theorem Fld.PRT_CHG_XCVR_reg : Fld.PRT_CHG_XCVR.reg = .PRT_CHG := Eq.trans rfl rfl
@[simp] theorem Fld.PRT_CHG_ERROR_reg : Fld.PRT_CHG_ERROR.reg = .PRT_CHG := Eq.trans rfl rfl
@[simp] theorem Fld.PRT_CHG_RATE_REFUSED_reg : Fld.PRT_CHG_RATE_REFUSED.reg = .PRT_CHG := Eq.trans rfl rfl
@[simp] theorem Fld.PRT_CHG_RATE_CHG_reg : Fld.PRT_CHG_RATE_CHG.reg = .PRT_CHG := Eq.trans rfl rfl
@[simp] theorem Fld.PRT_CHG_WAKE_reg : Fld.PRT_CHG_WAKE.reg = .PRT_CHG := Eq.trans rfl rfl
@[simp] theorem Fld.PRT_CHG_RESUME_DONE_reg : Fld.PRT_CHG_RESUME_DONE.reg = .PRT_CHG := Eq.trans rfl rfl
@[simp] theorem Fld.PRT_CHG_SUSPEND_DONE_reg : Fld.PRT_CHG_SUSPEND_DONE.reg = .PRT_CHG := Eq.trans rfl rfl
@[simp] theorem Fld.PRT_CHG_RESET_DONE_reg : Fld.PRT_CHG_RESET_DONE.reg = .PRT_CHG := Eq.trans rfl rfl
@[simp] theorem Fld.PRT_CHG_DISCONNECT_reg : Fld.PRT_CHG_DISCONNECT.reg = .PRT_CHG := Eq.trans rfl rfl
@[simp] theorem Fld.PRT_CHG_CONNECT_reg : Fld.PRT_CHG_CONNECT.reg = .PRT_CHG := Eq.trans rfl rfl
@[simp] theorem Fld.PRT_LERR_CRC_ERR_reg : Fld.PRT_LERR_CRC_ERR.reg = .PRT_LERR := Eq.trans rfl rfl
@[simp] theorem Fld.PRT_LERR_HDR_ERR_reg : Fld.PRT_LERR_HDR_ERR.reg = .PRT_LERR := Eq.trans rfl rfl
@[simp] theorem Fld.PRT_RETRY_REPLAYS_reg : Fld.PRT_RETRY_REPLAYS.reg = .PRT_RETRY := Eq.trans rfl rfl
@[simp] theorem Fld.PRT_RETRY_POISONED_reg : Fld.PRT_RETRY_POISONED.reg = .PRT_RETRY := Eq.trans rfl rfl
@[simp] theorem Fld.PRT_FEC_UNCORR_reg : Fld.PRT_FEC_UNCORR.reg = .PRT_FEC := Eq.trans rfl rfl
@[simp] theorem Fld.PRT_FEC_CORR_CW_reg : Fld.PRT_FEC_CORR_CW.reg = .PRT_FEC := Eq.trans rfl rfl
@[simp] theorem Fld.MOV_SRC_SRC_reg : Fld.MOV_SRC_SRC.reg = .MOV_SRC := Eq.trans rfl rfl
@[simp] theorem Fld.MOV_DST_DST_reg : Fld.MOV_DST_DST.reg = .MOV_DST := Eq.trans rfl rfl
@[simp] theorem Fld.MOV_CNT_CNT_reg : Fld.MOV_CNT_CNT.reg = .MOV_CNT := Eq.trans rfl rfl
@[simp] theorem Fld.MOV_CTL_GO_reg : Fld.MOV_CTL_GO.reg = .MOV_CTL := Eq.trans rfl rfl
@[simp] theorem Fld.MOV_CTL_STOP_reg : Fld.MOV_CTL_STOP.reg = .MOV_CTL := Eq.trans rfl rfl
@[simp] theorem Fld.MOV_CTL_DESC_SP_reg : Fld.MOV_CTL_DESC_SP.reg = .MOV_CTL := Eq.trans rfl rfl
@[simp] theorem Fld.MOV_CTL_PSEL_reg : Fld.MOV_CTL_PSEL.reg = .MOV_CTL := Eq.trans rfl rfl
@[simp] theorem Fld.MOV_CTL_PACE_reg : Fld.MOV_CTL_PACE.reg = .MOV_CTL := Eq.trans rfl rfl
@[simp] theorem Fld.MOV_CTL_RETRY_reg : Fld.MOV_CTL_RETRY.reg = .MOV_CTL := Eq.trans rfl rfl
@[simp] theorem Fld.MOV_CTL_BURST_reg : Fld.MOV_CTL_BURST.reg = .MOV_CTL := Eq.trans rfl rfl
@[simp] theorem Fld.MOV_CTL_DST_SP_reg : Fld.MOV_CTL_DST_SP.reg = .MOV_CTL := Eq.trans rfl rfl
@[simp] theorem Fld.MOV_CTL_SRC_SP_reg : Fld.MOV_CTL_SRC_SP.reg = .MOV_CTL := Eq.trans rfl rfl
@[simp] theorem Fld.MOV_CTL_DST_MODE_reg : Fld.MOV_CTL_DST_MODE.reg = .MOV_CTL := Eq.trans rfl rfl
@[simp] theorem Fld.MOV_CTL_SRC_MODE_reg : Fld.MOV_CTL_SRC_MODE.reg = .MOV_CTL := Eq.trans rfl rfl
@[simp] theorem Fld.MOV_CTL_OP_reg : Fld.MOV_CTL_OP.reg = .MOV_CTL := Eq.trans rfl rfl
@[simp] theorem Fld.MOV_CTL_CLASS_reg : Fld.MOV_CTL_CLASS.reg = .MOV_CTL := Eq.trans rfl rfl
@[simp] theorem Fld.MOV_CTL_DESC_reg : Fld.MOV_CTL_DESC.reg = .MOV_CTL := Eq.trans rfl rfl
@[simp] theorem Fld.MOV_STS_STATUS_reg : Fld.MOV_STS_STATUS.reg = .MOV_STS := Eq.trans rfl rfl
@[simp] theorem Fld.MOV_STS_STATE_reg : Fld.MOV_STS_STATE.reg = .MOV_STS := Eq.trans rfl rfl
@[simp] theorem Fld.MOV_STS_ENGINE_reg : Fld.MOV_STS_ENGINE.reg = .MOV_STS := Eq.trans rfl rfl
@[simp] theorem Fld.MOV_STS_CREDITS_reg : Fld.MOV_STS_CREDITS.reg = .MOV_STS := Eq.trans rfl rfl
@[simp] theorem Fld.MOV_STS_ERR_reg : Fld.MOV_STS_ERR.reg = .MOV_STS := Eq.trans rfl rfl
@[simp] theorem Fld.MOV_STS_EMPTY_reg : Fld.MOV_STS_EMPTY.reg = .MOV_STS := Eq.trans rfl rfl
@[simp] theorem Fld.MOV_STS_MISMATCH_reg : Fld.MOV_STS_MISMATCH.reg = .MOV_STS := Eq.trans rfl rfl
@[simp] theorem Fld.MOV_STS_STOPPED_reg : Fld.MOV_STS_STOPPED.reg = .MOV_STS := Eq.trans rfl rfl
@[simp] theorem Fld.MOV_STS_HALT_reg : Fld.MOV_STS_HALT.reg = .MOV_STS := Eq.trans rfl rfl
@[simp] theorem Fld.MOV_STS_DONE_reg : Fld.MOV_STS_DONE.reg = .MOV_STS := Eq.trans rfl rfl
@[simp] theorem Fld.MOV_DPTR_DPTR_reg : Fld.MOV_DPTR_DPTR.reg = .MOV_DPTR := Eq.trans rfl rfl
@[simp] theorem Fld.MOV_CRC_CRC_reg : Fld.MOV_CRC_CRC.reg = .MOV_CRC := Eq.trans rfl rfl
@[simp] theorem Fld.MOV_MISOFS_MISOFS_reg : Fld.MOV_MISOFS_MISOFS.reg = .MOV_MISOFS := Eq.trans rfl rfl
@[simp] theorem Fld.MOV_BIND_SLICE_EN_reg : Fld.MOV_BIND_SLICE_EN.reg = .MOV_BIND := Eq.trans rfl rfl
@[simp] theorem Fld.MOV_BIND_SLICE_reg : Fld.MOV_BIND_SLICE.reg = .MOV_BIND := Eq.trans rfl rfl
@[simp] theorem Fld.MOV_GCFG_ENG_RETRY_reg : Fld.MOV_GCFG_ENG_RETRY.reg = .MOV_GCFG := Eq.trans rfl rfl
@[simp] theorem Fld.MOV_GCFG_SWCH_reg : Fld.MOV_GCFG_SWCH.reg = .MOV_GCFG := Eq.trans rfl rfl
@[simp] theorem Fld.MOV_GERR_RETRIES_reg : Fld.MOV_GERR_RETRIES.reg = .MOV_GERR := Eq.trans rfl rfl
@[simp] theorem Fld.MOV_GERR_HOST_ERRORS_reg : Fld.MOV_GERR_HOST_ERRORS.reg = .MOV_GERR := Eq.trans rfl rfl
@[simp] theorem Fld.MOV_GEVT_CFG_REFUSED_reg : Fld.MOV_GEVT_CFG_REFUSED.reg = .MOV_GEVT := Eq.trans rfl rfl
@[simp] theorem Fld.MOV_GEVT_BUSY_WRITE_reg : Fld.MOV_GEVT_BUSY_WRITE.reg = .MOV_GEVT := Eq.trans rfl rfl
@[simp] theorem Fld.MOV_REQSEL_LINE_reg : Fld.MOV_REQSEL_LINE.reg = .MOV_REQSEL := Eq.trans rfl rfl
@[simp] theorem Fld.MOV_REQDROP_DROPPED_reg : Fld.MOV_REQDROP_DROPPED.reg = .MOV_REQDROP := Eq.trans rfl rfl
@[simp] theorem Fld.ICU_PSET_PEND_reg : Fld.ICU_PSET_PEND.reg = .ICU_PSET := Eq.trans rfl rfl
@[simp] theorem Fld.ICU_PCLR_PEND_reg : Fld.ICU_PCLR_PEND.reg = .ICU_PCLR := Eq.trans rfl rfl
@[simp] theorem Fld.ICU_ESET_EN_reg : Fld.ICU_ESET_EN.reg = .ICU_ESET := Eq.trans rfl rfl
@[simp] theorem Fld.ICU_ECLR_EN_reg : Fld.ICU_ECLR_EN.reg = .ICU_ECLR := Eq.trans rfl rfl
@[simp] theorem Fld.ICU_ACT_ACT_reg : Fld.ICU_ACT_ACT.reg = .ICU_ACT := Eq.trans rfl rfl
@[simp] theorem Fld.ICU_SRCSEL_SOURCE_reg : Fld.ICU_SRCSEL_SOURCE.reg = .ICU_SRCSEL := Eq.trans rfl rfl
@[simp] theorem Fld.ICU_SRCCFG_TMODE_reg : Fld.ICU_SRCCFG_TMODE.reg = .ICU_SRCCFG := Eq.trans rfl rfl
@[simp] theorem Fld.ICU_SRCCFG_CORES_reg : Fld.ICU_SRCCFG_CORES.reg = .ICU_SRCCFG := Eq.trans rfl rfl
@[simp] theorem Fld.ICU_SRCCFG_VECTOR_reg : Fld.ICU_SRCCFG_VECTOR.reg = .ICU_SRCCFG := Eq.trans rfl rfl
@[simp] theorem Fld.ICU_SRCCFG_SENSE_reg : Fld.ICU_SRCCFG_SENSE.reg = .ICU_SRCCFG := Eq.trans rfl rfl
@[simp] theorem Fld.ICU_SRCCFG_PRIO_reg : Fld.ICU_SRCCFG_PRIO.reg = .ICU_SRCCFG := Eq.trans rfl rfl
@[simp] theorem Fld.ICU_PRIGROUP_G_reg : Fld.ICU_PRIGROUP_G.reg = .ICU_PRIGROUP := Eq.trans rfl rfl
@[simp] theorem Fld.ICU_CORESTS_WAIT_reg : Fld.ICU_CORESTS_WAIT.reg = .ICU_CORESTS := Eq.trans rfl rfl
@[simp] theorem Fld.ICU_CORESTS_OFFER_reg : Fld.ICU_CORESTS_OFFER.reg = .ICU_CORESTS := Eq.trans rfl rfl
@[simp] theorem Fld.ICU_CORESTS_NUM_reg : Fld.ICU_CORESTS_NUM.reg = .ICU_CORESTS := Eq.trans rfl rfl
@[simp] theorem Fld.ICU_CORESTS_BAD_DONE_reg : Fld.ICU_CORESTS_BAD_DONE.reg = .ICU_CORESTS := Eq.trans rfl rfl
@[simp] theorem Fld.ICU_CORESTS_RP_reg : Fld.ICU_CORESTS_RP.reg = .ICU_CORESTS := Eq.trans rfl rfl
@[simp] theorem Fld.ICU_CMOD_TIME_US_reg : Fld.ICU_CMOD_TIME_US.reg = .ICU_CMOD := Eq.trans rfl rfl
@[simp] theorem Fld.ICU_CMOD_SPUR_reg : Fld.ICU_CMOD_SPUR.reg = .ICU_CMOD := Eq.trans rfl rfl
@[simp] theorem Fld.ICU_CMOD_CNT_reg : Fld.ICU_CMOD_CNT.reg = .ICU_CMOD := Eq.trans rfl rfl
@[simp] theorem Fld.ICU_MRVEC_EN_reg : Fld.ICU_MRVEC_EN.reg = .ICU_MRVEC := Eq.trans rfl rfl
@[simp] theorem Fld.ICU_MRVEC_VECTOR_reg : Fld.ICU_MRVEC_VECTOR.reg = .ICU_MRVEC := Eq.trans rfl rfl
@[simp] theorem Fld.ICU_ERR_VEC_CONFLICT_reg : Fld.ICU_ERR_VEC_CONFLICT.reg = .ICU_ERR := Eq.trans rfl rfl
@[simp] theorem Fld.ICU_ERR_CFG_REFUSED_reg : Fld.ICU_ERR_CFG_REFUSED.reg = .ICU_ERR := Eq.trans rfl rfl
@[simp] theorem Fld.ICU_ERR_MSIX_OFF_reg : Fld.ICU_ERR_MSIX_OFF.reg = .ICU_ERR := Eq.trans rfl rfl
@[simp] theorem Fld.ICU_VSEL_VECTOR_reg : Fld.ICU_VSEL_VECTOR.reg = .ICU_VSEL := Eq.trans rfl rfl
@[simp] theorem Fld.ICU_VMOD_TIME_US_reg : Fld.ICU_VMOD_TIME_US.reg = .ICU_VMOD := Eq.trans rfl rfl
@[simp] theorem Fld.ICU_VMOD_CNT_reg : Fld.ICU_VMOD_CNT.reg = .ICU_VMOD := Eq.trans rfl rfl
@[simp] theorem Fld.ICU_VSTS_IDLE_reg : Fld.ICU_VSTS_IDLE.reg = .ICU_VSTS := Eq.trans rfl rfl
@[simp] theorem Fld.ICU_VSTS_HELD_reg : Fld.ICU_VSTS_HELD.reg = .ICU_VSTS := Eq.trans rfl rfl
@[simp] theorem Fld.ICU_VSTS_REQS_reg : Fld.ICU_VSTS_REQS.reg = .ICU_VSTS := Eq.trans rfl rfl
@[simp] theorem Fld.SLC_PASID_PASID_reg : Fld.SLC_PASID_PASID.reg = .SLC_PASID := Eq.trans rfl rfl
@[simp] theorem Fld.SLC_WIN_BASE_reg : Fld.SLC_WIN_BASE.reg = .SLC_WIN := Eq.trans rfl rfl
@[simp] theorem Fld.SLC_WIN_SIZE_reg : Fld.SLC_WIN_SIZE.reg = .SLC_WIN := Eq.trans rfl rfl
@[simp] theorem Fld.SLC_HBASE_BASE_reg : Fld.SLC_HBASE_BASE.reg = .SLC_HBASE := Eq.trans rfl rfl
@[simp] theorem Fld.SLC_HLIM_LIMIT_reg : Fld.SLC_HLIM_LIMIT.reg = .SLC_HLIM := Eq.trans rfl rfl
@[simp] theorem Fld.SLC_CNTR_CBASE_reg : Fld.SLC_CNTR_CBASE.reg = .SLC_CNTR := Eq.trans rfl rfl
@[simp] theorem Fld.SLC_CNTR_CCOUNT_reg : Fld.SLC_CNTR_CCOUNT.reg = .SLC_CNTR := Eq.trans rfl rfl
@[simp] theorem Fld.SLC_STS_PARKED_reg : Fld.SLC_STS_PARKED.reg = .SLC_STS := Eq.trans rfl rfl
@[simp] theorem Fld.SLC_STS_RINGS_reg : Fld.SLC_STS_RINGS.reg = .SLC_STS := Eq.trans rfl rfl
@[simp] theorem Fld.SLC_STS_STATE_reg : Fld.SLC_STS_STATE.reg = .SLC_STS := Eq.trans rfl rfl
@[simp] theorem Fld.SLC_STS_DB_IGNORED_reg : Fld.SLC_STS_DB_IGNORED.reg = .SLC_STS := Eq.trans rfl rfl
@[simp] theorem Fld.SLC_ERR_TENANT_BOUNDS_reg : Fld.SLC_ERR_TENANT_BOUNDS.reg = .SLC_ERR := Eq.trans rfl rfl
@[simp] theorem Fld.SLC_ERR_MBX_REFUSED_reg : Fld.SLC_ERR_MBX_REFUSED.reg = .SLC_ERR := Eq.trans rfl rfl
@[simp] theorem Fld.PWR_REQ_TARGET_reg : Fld.PWR_REQ_TARGET.reg = .PWR_REQ := Eq.trans rfl rfl
@[simp] theorem Fld.PWR_STS_STATE_reg : Fld.PWR_STS_STATE.reg = .PWR_STS := Eq.trans rfl rfl
@[simp] theorem Fld.PWR_STS_TARGET_reg : Fld.PWR_STS_TARGET.reg = .PWR_STS := Eq.trans rfl rfl
@[simp] theorem Fld.PWR_STS_ENTERING_reg : Fld.PWR_STS_ENTERING.reg = .PWR_STS := Eq.trans rfl rfl
@[simp] theorem Fld.PWR_STS_EXITING_reg : Fld.PWR_STS_EXITING.reg = .PWR_STS := Eq.trans rfl rfl
@[simp] theorem Fld.PWR_STS_QVALID_reg : Fld.PWR_STS_QVALID.reg = .PWR_STS := Eq.trans rfl rfl
@[simp] theorem Fld.PWR_STS_QTARGET_reg : Fld.PWR_STS_QTARGET.reg = .PWR_STS := Eq.trans rfl rfl
@[simp] theorem Fld.PWR_STS_APOINT_reg : Fld.PWR_STS_APOINT.reg = .PWR_STS := Eq.trans rfl rfl
@[simp] theorem Fld.PWR_STS_MODE_reg : Fld.PWR_STS_MODE.reg = .PWR_STS := Eq.trans rfl rfl
@[simp] theorem Fld.PWR_STS_LAST_REFUSER_reg : Fld.PWR_STS_LAST_REFUSER.reg = .PWR_STS := Eq.trans rfl rfl
@[simp] theorem Fld.PWR_EVT_REQ_INVALID_reg : Fld.PWR_EVT_REQ_INVALID.reg = .PWR_EVT := Eq.trans rfl rfl
@[simp] theorem Fld.PWR_EVT_EMBER_FAIL_reg : Fld.PWR_EVT_EMBER_FAIL.reg = .PWR_EVT := Eq.trans rfl rfl
@[simp] theorem Fld.PWR_EVT_SENSE_reg : Fld.PWR_EVT_SENSE.reg = .PWR_EVT := Eq.trans rfl rfl
@[simp] theorem Fld.PWR_EVT_SUPERSEDED_reg : Fld.PWR_EVT_SUPERSEDED.reg = .PWR_EVT := Eq.trans rfl rfl
@[simp] theorem Fld.PWR_EVT_ABORTED_reg : Fld.PWR_EVT_ABORTED.reg = .PWR_EVT := Eq.trans rfl rfl
@[simp] theorem Fld.PWR_EVT_LATE_reg : Fld.PWR_EVT_LATE.reg = .PWR_EVT := Eq.trans rfl rfl
@[simp] theorem Fld.PWR_EVT_REFUSED_reg : Fld.PWR_EVT_REFUSED.reg = .PWR_EVT := Eq.trans rfl rfl
@[simp] theorem Fld.PWR_EVT_WOKEN_reg : Fld.PWR_EVT_WOKEN.reg = .PWR_EVT := Eq.trans rfl rfl
@[simp] theorem Fld.PWR_WAKE_EN_TWIN_reg : Fld.PWR_WAKE_EN_TWIN.reg = .PWR_WAKE_EN := Eq.trans rfl rfl
@[simp] theorem Fld.PWR_WAKE_EN_PCIE_reg : Fld.PWR_WAKE_EN_PCIE.reg = .PWR_WAKE_EN := Eq.trans rfl rfl
@[simp] theorem Fld.PWR_WAKE_EN_TREE_reg : Fld.PWR_WAKE_EN_TREE.reg = .PWR_WAKE_EN := Eq.trans rfl rfl
@[simp] theorem Fld.PWR_WAKE_EN_SENSE_reg : Fld.PWR_WAKE_EN_SENSE.reg = .PWR_WAKE_EN := Eq.trans rfl rfl
@[simp] theorem Fld.PWR_WAKE_EN_WAKE_N_reg : Fld.PWR_WAKE_EN_WAKE_N.reg = .PWR_WAKE_EN := Eq.trans rfl rfl
@[simp] theorem Fld.PWR_SENSE_EN_reg : Fld.PWR_SENSE_EN.reg = .PWR_SENSE := Eq.trans rfl rfl
@[simp] theorem Fld.PWR_SENSE_DIR_reg : Fld.PWR_SENSE_DIR.reg = .PWR_SENSE := Eq.trans rfl rfl
@[simp] theorem Fld.PWR_SENSE_OUT_reg : Fld.PWR_SENSE_OUT.reg = .PWR_SENSE := Eq.trans rfl rfl
@[simp] theorem Fld.PWR_SENSE_HYST_reg : Fld.PWR_SENSE_HYST.reg = .PWR_SENSE := Eq.trans rfl rfl
@[simp] theorem Fld.PWR_SENSE_THR_reg : Fld.PWR_SENSE_THR.reg = .PWR_SENSE := Eq.trans rfl rfl
@[simp] theorem Fld.PWR_WAKE_CAUSE_reg : Fld.PWR_WAKE_CAUSE.reg = .PWR_WAKE := Eq.trans rfl rfl
@[simp] theorem Fld.PWR_WAKE_FROM_reg : Fld.PWR_WAKE_FROM.reg = .PWR_WAKE := Eq.trans rfl rfl
@[simp] theorem Fld.PWR_WAKE_COLLIDED_reg : Fld.PWR_WAKE_COLLIDED.reg = .PWR_WAKE := Eq.trans rfl rfl
@[simp] theorem Fld.PWR_WAKE_SEEN_reg : Fld.PWR_WAKE_SEEN.reg = .PWR_WAKE := Eq.trans rfl rfl
@[simp] theorem Fld.PWR_WAKE_PORT_reg : Fld.PWR_WAKE_PORT.reg = .PWR_WAKE := Eq.trans rfl rfl
@[simp] theorem Fld.PWR_LAT_LAT_NS_reg : Fld.PWR_LAT_LAT_NS.reg = .PWR_LAT := Eq.trans rfl rfl
@[simp] theorem Fld.PWR_RSEL_ID_reg : Fld.PWR_RSEL_ID.reg = .PWR_RSEL := Eq.trans rfl rfl
@[simp] theorem Fld.PWR_RCNT_EARLY_reg : Fld.PWR_RCNT_EARLY.reg = .PWR_RCNT := Eq.trans rfl rfl
@[simp] theorem Fld.PWR_RCNT_LATE_reg : Fld.PWR_RCNT_LATE.reg = .PWR_RCNT := Eq.trans rfl rfl
@[simp] theorem Fld.PWR_RCNT_ABORTS_reg : Fld.PWR_RCNT_ABORTS.reg = .PWR_RCNT := Eq.trans rfl rfl
@[simp] theorem Fld.HLT_STS_STATE_reg : Fld.HLT_STS_STATE.reg = .HLT_STS := Eq.trans rfl rfl
@[simp] theorem Fld.HLT_STS_SERVICE_reg : Fld.HLT_STS_SERVICE.reg = .HLT_STS := Eq.trans rfl rfl
@[simp] theorem Fld.HLT_STS_REASONS_reg : Fld.HLT_STS_REASONS.reg = .HLT_STS := Eq.trans rfl rfl
@[simp] theorem Fld.HLT_EVT_PORT_RETIRED_reg : Fld.HLT_EVT_PORT_RETIRED.reg = .HLT_EVT := Eq.trans rfl rfl
@[simp] theorem Fld.HLT_EVT_REPAIR_reg : Fld.HLT_EVT_REPAIR.reg = .HLT_EVT := Eq.trans rfl rfl
@[simp] theorem Fld.HLT_EVT_SUPPLY_reg : Fld.HLT_EVT_SUPPLY.reg = .HLT_EVT := Eq.trans rfl rfl
@[simp] theorem Fld.HLT_EVT_THERMAL_reg : Fld.HLT_EVT_THERMAL.reg = .HLT_EVT := Eq.trans rfl rfl
@[simp] theorem Fld.HLT_EVT_MARGIN_reg : Fld.HLT_EVT_MARGIN.reg = .HLT_EVT := Eq.trans rfl rfl
@[simp] theorem Fld.HLT_EVT_POOL_REDUCED_reg : Fld.HLT_EVT_POOL_REDUCED.reg = .HLT_EVT := Eq.trans rfl rfl
@[simp] theorem Fld.HLT_EVT_RETIRED_reg : Fld.HLT_EVT_RETIRED.reg = .HLT_EVT := Eq.trans rfl rfl
@[simp] theorem Fld.HLT_EVT_STATE_CHG_reg : Fld.HLT_EVT_STATE_CHG.reg = .HLT_EVT := Eq.trans rfl rfl
@[simp] theorem Fld.HLT_START_READY_reg : Fld.HLT_START_READY.reg = .HLT_START := Eq.trans rfl rfl
@[simp] theorem Fld.HLT_START_KIND_reg : Fld.HLT_START_KIND.reg = .HLT_START := Eq.trans rfl rfl
@[simp] theorem Fld.HLT_START_SLOT_reg : Fld.HLT_START_SLOT.reg = .HLT_START := Eq.trans rfl rfl
@[simp] theorem Fld.HLT_START_TRIAL_reg : Fld.HLT_START_TRIAL.reg = .HLT_START := Eq.trans rfl rfl
@[simp] theorem Fld.HLT_START_FAILS_reg : Fld.HLT_START_FAILS.reg = .HLT_START := Eq.trans rfl rfl
@[simp] theorem Fld.HLT_START_STARTS_reg : Fld.HLT_START_STARTS.reg = .HLT_START := Eq.trans rfl rfl
@[simp] theorem Fld.HLT_POOL_ACTIVE_reg : Fld.HLT_POOL_ACTIVE.reg = .HLT_POOL := Eq.trans rfl rfl
@[simp] theorem Fld.HLT_POOL_SPARES_reg : Fld.HLT_POOL_SPARES.reg = .HLT_POOL := Eq.trans rfl rfl
@[simp] theorem Fld.HLT_RETIRED_BANKS_reg : Fld.HLT_RETIRED_BANKS.reg = .HLT_RETIRED := Eq.trans rfl rfl
@[simp] theorem Fld.HLT_PORTRET_PORTS_reg : Fld.HLT_PORTRET_PORTS.reg = .HLT_PORTRET := Eq.trans rfl rfl
@[simp] theorem Fld.HLT_SEL_KIND_reg : Fld.HLT_SEL_KIND.reg = .HLT_SEL := Eq.trans rfl rfl
@[simp] theorem Fld.HLT_SEL_INDEX_reg : Fld.HLT_SEL_INDEX.reg = .HLT_SEL := Eq.trans rfl rfl
@[simp] theorem Fld.HLT_OBJ_OBJ_reg : Fld.HLT_OBJ_OBJ.reg = .HLT_OBJ := Eq.trans rfl rfl
@[simp] theorem Fld.SEC_STS_FLOOR_reg : Fld.SEC_STS_FLOOR.reg = .SEC_STS := Eq.trans rfl rfl
@[simp] theorem Fld.SEC_STS_SVN_reg : Fld.SEC_STS_SVN.reg = .SEC_STS := Eq.trans rfl rfl
@[simp] theorem Fld.SEC_STS_REVOKED_reg : Fld.SEC_STS_REVOKED.reg = .SEC_STS := Eq.trans rfl rfl
@[simp] theorem Fld.SEC_STS_SECURE_LOCK_reg : Fld.SEC_STS_SECURE_LOCK.reg = .SEC_STS := Eq.trans rfl rfl
@[simp] theorem Fld.SEC_STS_DEBUG_DISABLE_reg : Fld.SEC_STS_DEBUG_DISABLE.reg = .SEC_STS := Eq.trans rfl rfl
@[simp] theorem Fld.SEC_STS_DBG_LOCKED_reg : Fld.SEC_STS_DBG_LOCKED.reg = .SEC_STS := Eq.trans rfl rfl
@[simp] theorem Fld.SEC_STS_DBG_LEVEL_reg : Fld.SEC_STS_DBG_LEVEL.reg = .SEC_STS := Eq.trans rfl rfl
@[simp] theorem Fld.SEC_EVT_AUDIT_FULL_reg : Fld.SEC_EVT_AUDIT_FULL.reg = .SEC_EVT := Eq.trans rfl rfl
@[simp] theorem Fld.SEC_EVT_DEBUG_reg : Fld.SEC_EVT_DEBUG.reg = .SEC_EVT := Eq.trans rfl rfl
@[simp] theorem Fld.SEC_EVT_FW_reg : Fld.SEC_EVT_FW.reg = .SEC_EVT := Eq.trans rfl rfl
@[simp] theorem Fld.SEC_EVT_TRIAL_FAIL_reg : Fld.SEC_EVT_TRIAL_FAIL.reg = .SEC_EVT := Eq.trans rfl rfl
@[simp] theorem Fld.SEC_DBG_ALLOW_LEVEL_reg : Fld.SEC_DBG_ALLOW_LEVEL.reg = .SEC_DBG_ALLOW := Eq.trans rfl rfl
@[simp] theorem Fld.SEC_AUDIT_LOST_reg : Fld.SEC_AUDIT_LOST.reg = .SEC_AUDIT := Eq.trans rfl rfl
@[simp] theorem Fld.SEC_AUDIT_HELD_reg : Fld.SEC_AUDIT_HELD.reg = .SEC_AUDIT := Eq.trans rfl rfl
@[simp] theorem Fld.TWN_CFG_ENABLE_reg : Fld.TWN_CFG_ENABLE.reg = .TWN_CFG := Eq.trans rfl rfl
@[simp] theorem Fld.TWN_CFG_PAIR_ID_reg : Fld.TWN_CFG_PAIR_ID.reg = .TWN_CFG := Eq.trans rfl rfl
@[simp] theorem Fld.TWN_GEN_GEN_reg : Fld.TWN_GEN_GEN.reg = .TWN_GEN := Eq.trans rfl rfl
@[simp] theorem Fld.TWN_STS_PAIR_reg : Fld.TWN_STS_PAIR.reg = .TWN_STS := Eq.trans rfl rfl
@[simp] theorem Fld.TWN_STS_LINK_UP_reg : Fld.TWN_STS_LINK_UP.reg = .TWN_STS := Eq.trans rfl rfl
@[simp] theorem Fld.TWN_STS_TIME_FLAG_reg : Fld.TWN_STS_TIME_FLAG.reg = .TWN_STS := Eq.trans rfl rfl
@[simp] theorem Fld.TWN_STS_MINOR_DIFF_reg : Fld.TWN_STS_MINOR_DIFF.reg = .TWN_STS := Eq.trans rfl rfl
@[simp] theorem Fld.TWN_STS_REFUSE_WHY_reg : Fld.TWN_STS_REFUSE_WHY.reg = .TWN_STS := Eq.trans rfl rfl
@[simp] theorem Fld.TWN_STS_PEER_MAJOR_reg : Fld.TWN_STS_PEER_MAJOR.reg = .TWN_STS := Eq.trans rfl rfl
@[simp] theorem Fld.TWN_STS_PEER_MINOR_reg : Fld.TWN_STS_PEER_MINOR.reg = .TWN_STS := Eq.trans rfl rfl
@[simp] theorem Fld.TWN_STS_PEER_QCLASS_reg : Fld.TWN_STS_PEER_QCLASS.reg = .TWN_STS := Eq.trans rfl rfl
@[simp] theorem Fld.TWN_EVT_BEAT_MISSED_reg : Fld.TWN_EVT_BEAT_MISSED.reg = .TWN_EVT := Eq.trans rfl rfl
@[simp] theorem Fld.TWN_EVT_COLD_reg : Fld.TWN_EVT_COLD.reg = .TWN_EVT := Eq.trans rfl rfl
@[simp] theorem Fld.TWN_EVT_DENIED_reg : Fld.TWN_EVT_DENIED.reg = .TWN_EVT := Eq.trans rfl rfl
@[simp] theorem Fld.TWN_EVT_TOKEN_LOST_reg : Fld.TWN_EVT_TOKEN_LOST.reg = .TWN_EVT := Eq.trans rfl rfl
@[simp] theorem Fld.TWN_EVT_TAKEOVER_reg : Fld.TWN_EVT_TAKEOVER.reg = .TWN_EVT := Eq.trans rfl rfl
@[simp] theorem Fld.TWN_EVT_TIME_DISAGREE_reg : Fld.TWN_EVT_TIME_DISAGREE.reg = .TWN_EVT := Eq.trans rfl rfl
@[simp] theorem Fld.TWN_EVT_CONFIG_MISMATCH_reg : Fld.TWN_EVT_CONFIG_MISMATCH.reg = .TWN_EVT := Eq.trans rfl rfl
@[simp] theorem Fld.TWN_EVT_PAIR_CHANGED_reg : Fld.TWN_EVT_PAIR_CHANGED.reg = .TWN_EVT := Eq.trans rfl rfl
@[simp] theorem Fld.TWN_OFFSET_OFFSET_reg : Fld.TWN_OFFSET_OFFSET.reg = .TWN_OFFSET := Eq.trans rfl rfl
@[simp] theorem Fld.TWN_DLY_MCONF_MAX_reg : Fld.TWN_DLY_MCONF_MAX.reg = .TWN_DLY := Eq.trans rfl rfl
@[simp] theorem Fld.TWN_DLY_DELAY_reg : Fld.TWN_DLY_DELAY.reg = .TWN_DLY := Eq.trans rfl rfl
@[simp] theorem Fld.TWN_CNT_BEAT_MISSED_reg : Fld.TWN_CNT_BEAT_MISSED.reg = .TWN_CNT := Eq.trans rfl rfl
@[simp] theorem Fld.TWN_CNT_DENIED_reg : Fld.TWN_CNT_DENIED.reg = .TWN_CNT := Eq.trans rfl rfl
@[simp] theorem Fld.TWN_CNT_SHADOW_MISS_reg : Fld.TWN_CNT_SHADOW_MISS.reg = .TWN_CNT := Eq.trans rfl rfl
@[simp] theorem Fld.TWN_OWNED_OWNED_reg : Fld.TWN_OWNED_OWNED.reg = .TWN_OWNED := Eq.trans rfl rfl
@[simp] theorem Fld.TWN_WARM_WARM_reg : Fld.TWN_WARM_WARM.reg = .TWN_WARM := Eq.trans rfl rfl
@[simp] theorem Fld.TWN_PMAP_VALID_reg : Fld.TWN_PMAP_VALID.reg = .TWN_PMAP := Eq.trans rfl rfl
@[simp] theorem Fld.TWN_PMAP_PARTNER_reg : Fld.TWN_PMAP_PARTNER.reg = .TWN_PMAP := Eq.trans rfl rfl
@[simp] theorem Fld.GTH_STS_OPEN_reg : Fld.GTH_STS_OPEN.reg = .GTH_STS := Eq.trans rfl rfl
@[simp] theorem Fld.GTH_STS_GROUPS_reg : Fld.GTH_STS_GROUPS.reg = .GTH_STS := Eq.trans rfl rfl
@[simp] theorem Fld.GTH_EVT_UNGROUPED_reg : Fld.GTH_EVT_UNGROUPED.reg = .GTH_EVT := Eq.trans rfl rfl
@[simp] theorem Fld.GTH_EVT_FORCED_reg : Fld.GTH_EVT_FORCED.reg = .GTH_EVT := Eq.trans rfl rfl
@[simp] theorem Fld.GTH_EVT_DUPLICATE_reg : Fld.GTH_EVT_DUPLICATE.reg = .GTH_EVT := Eq.trans rfl rfl
@[simp] theorem Fld.GTH_EVT_UNMATCHED_reg : Fld.GTH_EVT_UNMATCHED.reg = .GTH_EVT := Eq.trans rfl rfl
@[simp] theorem Fld.GTH_EVT_LATE_reg : Fld.GTH_EVT_LATE.reg = .GTH_EVT := Eq.trans rfl rfl
@[simp] theorem Fld.GTH_MEMB_MEMBERS_reg : Fld.GTH_MEMB_MEMBERS.reg = .GTH_MEMB := Eq.trans rfl rfl
@[simp] theorem Fld.GTH_CNT_SETS_reg : Fld.GTH_CNT_SETS.reg = .GTH_CNT := Eq.trans rfl rfl
@[simp] theorem Fld.GTH_CNT_INCOMPLETE_reg : Fld.GTH_CNT_INCOMPLETE.reg = .GTH_CNT := Eq.trans rfl rfl
@[simp] theorem Fld.GTH_DROP_LATE_reg : Fld.GTH_DROP_LATE.reg = .GTH_DROP := Eq.trans rfl rfl
@[simp] theorem Fld.GTH_DROP_UNMATCHED_reg : Fld.GTH_DROP_UNMATCHED.reg = .GTH_DROP := Eq.trans rfl rfl
@[simp] theorem Fld.GTH_DROP_DUPLICATE_reg : Fld.GTH_DROP_DUPLICATE.reg = .GTH_DROP := Eq.trans rfl rfl
@[simp] theorem Fld.GTH_DROP_SEPARATE_reg : Fld.GTH_DROP_SEPARATE.reg = .GTH_DROP := Eq.trans rfl rfl
@[simp] theorem Fld.CDR_STS_CHANNELS_reg : Fld.CDR_STS_CHANNELS.reg = .CDR_STS := Eq.trans rfl rfl
@[simp] theorem Fld.CDR_STS_STREAMS_reg : Fld.CDR_STS_STREAMS.reg = .CDR_STS := Eq.trans rfl rfl
@[simp] theorem Fld.CDR_BACKLOG_SAMPLES_reg : Fld.CDR_BACKLOG_SAMPLES.reg = .CDR_BACKLOG := Eq.trans rfl rfl
@[simp] theorem Fld.CDR_EVT_TRIG_LATE_reg : Fld.CDR_EVT_TRIG_LATE.reg = .CDR_EVT := Eq.trans rfl rfl
@[simp] theorem Fld.CDR_EVT_GAP_reg : Fld.CDR_EVT_GAP.reg = .CDR_EVT := Eq.trans rfl rfl
@[simp] theorem Fld.CDR_EVT_RAW_LATE_reg : Fld.CDR_EVT_RAW_LATE.reg = .CDR_EVT := Eq.trans rfl rfl
@[simp] theorem Fld.CDR_CNT_BLOCKS_reg : Fld.CDR_CNT_BLOCKS.reg = .CDR_CNT := Eq.trans rfl rfl
@[simp] theorem Fld.CDR_FLG_RAW_reg : Fld.CDR_FLG_RAW.reg = .CDR_FLG := Eq.trans rfl rfl
@[simp] theorem Fld.CDR_FLG_FORCED_LL_reg : Fld.CDR_FLG_FORCED_LL.reg = .CDR_FLG := Eq.trans rfl rfl
@[simp] theorem Fld.CDR_FLG_GAPS_reg : Fld.CDR_FLG_GAPS.reg = .CDR_FLG := Eq.trans rfl rfl
@[simp] theorem Fld.CDR_FLG_TRIG_LATE_reg : Fld.CDR_FLG_TRIG_LATE.reg = .CDR_FLG := Eq.trans rfl rfl
@[simp] theorem Fld.IND_ADDR_DOMAIN_reg : Fld.IND_ADDR_DOMAIN.reg = .IND_ADDR := Eq.trans rfl rfl
@[simp] theorem Fld.IND_ADDR_WORD_reg : Fld.IND_ADDR_WORD.reg = .IND_ADDR := Eq.trans rfl rfl
@[simp] theorem Fld.IND_ADDR_BUSY_reg : Fld.IND_ADDR_BUSY.reg = .IND_ADDR := Eq.trans rfl rfl
@[simp] theorem Fld.IND_ADDR_INC_reg : Fld.IND_ADDR_INC.reg = .IND_ADDR := Eq.trans rfl rfl
@[simp] theorem Fld.IND_DATA_DATA_reg : Fld.IND_DATA_DATA.reg = .IND_DATA := Eq.trans rfl rfl
@[simp] theorem Fld.MSIX_ADDR_ADDR_reg : Fld.MSIX_ADDR_ADDR.reg = .MSIX_ADDR := Eq.trans rfl rfl
@[simp] theorem Fld.MSIX_DATA_DATA_reg : Fld.MSIX_DATA_DATA.reg = .MSIX_DATA := Eq.trans rfl rfl
@[simp] theorem Fld.MSIX_CTL_MASK_reg : Fld.MSIX_CTL_MASK.reg = .MSIX_CTL := Eq.trans rfl rfl
@[simp] theorem Fld.MSIX_PBA_PBA_reg : Fld.MSIX_PBA_PBA.reg = .MSIX_PBA := Eq.trans rfl rfl
@[simp] theorem Fld.MBM_DATA_DATA_reg : Fld.MBM_DATA_DATA.reg = .MBM_DATA := Eq.trans rfl rfl
@[simp] theorem Fld.MBM_RECV_RECV_reg : Fld.MBM_RECV_RECV.reg = .MBM_RECV := Eq.trans rfl rfl
@[simp] theorem Fld.MBM_POST_LEN_reg : Fld.MBM_POST_LEN.reg = .MBM_POST := Eq.trans rfl rfl
@[simp] theorem Fld.MBM_POP_POP_reg : Fld.MBM_POP_POP.reg = .MBM_POP := Eq.trans rfl rfl
@[simp] theorem Fld.MBM_STS_OUT_FREE_reg : Fld.MBM_STS_OUT_FREE.reg = .MBM_STS := Eq.trans rfl rfl
@[simp] theorem Fld.MBM_STS_IN_COUNT_reg : Fld.MBM_STS_IN_COUNT.reg = .MBM_STS := Eq.trans rfl rfl
@[simp] theorem Fld.MBM_STS_IN_LEN_reg : Fld.MBM_STS_IN_LEN.reg = .MBM_STS := Eq.trans rfl rfl
@[simp] theorem Fld.MBM_EVT_POST_REFUSED_reg : Fld.MBM_EVT_POST_REFUSED.reg = .MBM_EVT := Eq.trans rfl rfl
@[simp] theorem Fld.MBM_EVT_SPACE_reg : Fld.MBM_EVT_SPACE.reg = .MBM_EVT := Eq.trans rfl rfl
@[simp] theorem Fld.MBM_EVT_IN_reg : Fld.MBM_EVT_IN.reg = .MBM_EVT := Eq.trans rfl rfl
@[simp] theorem Fld.MBM_EVT_RESET_reg : Fld.MBM_EVT_RESET.reg = .MBM_EVT := Eq.trans rfl rfl
@[simp] theorem Fld.RING_DB_TAIL_reg : Fld.RING_DB_TAIL.reg = .RING_DB := Eq.trans rfl rfl
@[simp] theorem Fld.MBT_DATA_DATA_reg : Fld.MBT_DATA_DATA.reg = .MBT_DATA := Eq.trans rfl rfl
@[simp] theorem Fld.MBT_RECV_RECV_reg : Fld.MBT_RECV_RECV.reg = .MBT_RECV := Eq.trans rfl rfl
@[simp] theorem Fld.MBT_POST_LEN_reg : Fld.MBT_POST_LEN.reg = .MBT_POST := Eq.trans rfl rfl
@[simp] theorem Fld.MBT_POP_POP_reg : Fld.MBT_POP_POP.reg = .MBT_POP := Eq.trans rfl rfl
@[simp] theorem Fld.MBT_STS_OUT_FREE_reg : Fld.MBT_STS_OUT_FREE.reg = .MBT_STS := Eq.trans rfl rfl
@[simp] theorem Fld.MBT_STS_IN_COUNT_reg : Fld.MBT_STS_IN_COUNT.reg = .MBT_STS := Eq.trans rfl rfl
@[simp] theorem Fld.MBT_STS_IN_LEN_reg : Fld.MBT_STS_IN_LEN.reg = .MBT_STS := Eq.trans rfl rfl
@[simp] theorem Fld.MBT_EVT_POST_REFUSED_reg : Fld.MBT_EVT_POST_REFUSED.reg = .MBT_EVT := Eq.trans rfl rfl
@[simp] theorem Fld.MBT_EVT_SPACE_reg : Fld.MBT_EVT_SPACE.reg = .MBT_EVT := Eq.trans rfl rfl
@[simp] theorem Fld.MBT_EVT_IN_reg : Fld.MBT_EVT_IN.reg = .MBT_EVT := Eq.trans rfl rfl
@[simp] theorem Fld.MBT_EVT_RESET_reg : Fld.MBT_EVT_RESET.reg = .MBT_EVT := Eq.trans rfl rfl
@[simp] theorem Fld.MBT_CTL_EN_reg : Fld.MBT_CTL_EN.reg = .MBT_CTL := Eq.trans rfl rfl
@[simp] theorem Fld.MBT_CTL_RING_reg : Fld.MBT_CTL_RING.reg = .MBT_CTL := Eq.trans rfl rfl
@[simp] theorem Fld.SLI_PSET_PEND_reg : Fld.SLI_PSET_PEND.reg = .SLI_PSET := Eq.trans rfl rfl
@[simp] theorem Fld.SLI_PCLR_PEND_reg : Fld.SLI_PCLR_PEND.reg = .SLI_PCLR := Eq.trans rfl rfl
@[simp] theorem Fld.SLI_ESET_EN_reg : Fld.SLI_ESET_EN.reg = .SLI_ESET := Eq.trans rfl rfl
@[simp] theorem Fld.SLI_ECLR_EN_reg : Fld.SLI_ECLR_EN.reg = .SLI_ECLR := Eq.trans rfl rfl
@[simp] theorem Fld.SLI_ROUTE_STS_VEC_reg : Fld.SLI_ROUTE_STS_VEC.reg = .SLI_ROUTE := Eq.trans rfl rfl
@[simp] theorem Fld.SLI_ROUTE_MBX_VEC_reg : Fld.SLI_ROUTE_MBX_VEC.reg = .SLI_ROUTE := Eq.trans rfl rfl
@[simp] theorem Fld.SLI_IDLE_IDLE_reg : Fld.SLI_IDLE_IDLE.reg = .SLI_IDLE := Eq.trans rfl rfl
@[simp] theorem Fld.SLI_MOD_TIME_US_reg : Fld.SLI_MOD_TIME_US.reg = .SLI_MOD := Eq.trans rfl rfl
@[simp] theorem Fld.SLI_MOD_CNT_reg : Fld.SLI_MOD_CNT.reg = .SLI_MOD := Eq.trans rfl rfl
@[simp] theorem Fld.SLI_VSTS_IDLE_reg : Fld.SLI_VSTS_IDLE.reg = .SLI_VSTS := Eq.trans rfl rfl
@[simp] theorem Fld.SLI_VSTS_HELD_reg : Fld.SLI_VSTS_HELD.reg = .SLI_VSTS := Eq.trans rfl rfl
@[simp] theorem Fld.SLI_VSTS_REQS_reg : Fld.SLI_VSTS_REQS.reg = .SLI_VSTS := Eq.trans rfl rfl
@[simp] theorem Fld.SLT_EVT_WINDOW_reg : Fld.SLT_EVT_WINDOW.reg = .SLT_EVT := Eq.trans rfl rfl
@[simp] theorem Fld.SLT_EVT_THAWED_reg : Fld.SLT_EVT_THAWED.reg = .SLT_EVT := Eq.trans rfl rfl
@[simp] theorem Fld.SLT_EVT_RESET_reg : Fld.SLT_EVT_RESET.reg = .SLT_EVT := Eq.trans rfl rfl
@[simp] theorem Fld.SLT_EVT_DB_IGNORED_reg : Fld.SLT_EVT_DB_IGNORED.reg = .SLT_EVT := Eq.trans rfl rfl
@[simp] theorem Fld.SLT_STS_PARKED_reg : Fld.SLT_STS_PARKED.reg = .SLT_STS := Eq.trans rfl rfl
@[simp] theorem Fld.SLT_STS_RINGS_reg : Fld.SLT_STS_RINGS.reg = .SLT_STS := Eq.trans rfl rfl
@[simp] theorem Fld.SLT_STS_STATE_reg : Fld.SLT_STS_STATE.reg = .SLT_STS := Eq.trans rfl rfl
@[simp] theorem Fld.SLT_STS_DB_IGNORED_reg : Fld.SLT_STS_DB_IGNORED.reg = .SLT_STS := Eq.trans rfl rfl
@[simp] theorem Fld.SLT_ID_PASID_reg : Fld.SLT_ID_PASID.reg = .SLT_ID := Eq.trans rfl rfl
@[simp] theorem Fld.SLT_ID_SLICE_reg : Fld.SLT_ID_SLICE.reg = .SLT_ID := Eq.trans rfl rfl
@[simp] theorem Fld.SLT_HBASE_VALUE_reg : Fld.SLT_HBASE_VALUE.reg = .SLT_HBASE := Eq.trans rfl rfl
@[simp] theorem Fld.SLT_HLIM_VALUE_reg : Fld.SLT_HLIM_VALUE.reg = .SLT_HLIM := Eq.trans rfl rfl
@[simp] theorem Fld.SLT_WIN_VALUE_reg : Fld.SLT_WIN_VALUE.reg = .SLT_WIN := Eq.trans rfl rfl
@[simp] theorem Fld.SLT_CNTR_VALUE_reg : Fld.SLT_CNTR_VALUE.reg = .SLT_CNTR := Eq.trans rfl rfl
@[simp] theorem Fld.SLT_RING_VALID_reg : Fld.SLT_RING_VALID.reg = .SLT_RING := Eq.trans rfl rfl
@[simp] theorem Fld.SLT_RING_RING_reg : Fld.SLT_RING_RING.reg = .SLT_RING := Eq.trans rfl rfl
@[simp] theorem Fld.TIM_PDLY_MEAN_reg : Fld.TIM_PDLY_MEAN.reg = .TIM_PDLY := Eq.trans rfl rfl
@[simp] theorem Fld.TIM_TRIM_TRIM_reg : Fld.TIM_TRIM_TRIM.reg = .TIM_TRIM := Eq.trans rfl rfl
@[simp] theorem Fld.ICU_CLAIM_NUM_reg : Fld.ICU_CLAIM_NUM.reg = .ICU_CLAIM := Eq.trans rfl rfl
@[simp] theorem Fld.ICU_DONE_NUM_reg : Fld.ICU_DONE_NUM.reg = .ICU_DONE := Eq.trans rfl rfl
@[simp] theorem Fld.PWR_MODE_MODE_reg : Fld.PWR_MODE_MODE.reg = .PWR_MODE := Eq.trans rfl rfl

end Sys2Proof.Machine
end

