-- ==== Sys2Proof/Laws/Memory.lean ====
section
/-! SUPPORT. Laws/Memory.lean: the laws of an addressed RAM: a read after a write gives the byte written, a write leaves every other address as
it was, and every operation keeps the canonical form. -/

namespace Sys2Proof.Machine

theorem Memory.read_erase_other (m : Memory) {a j : Nat} (h : j ≠ a) : Memory.read (Memory.erase m a) j = Memory.read m j := by
  induction m with
  | nil => rfl
  | cons c r ih =>
    obtain ⟨a', b⟩ := c
    simp only [Memory.erase]
    split
    · subst_vars
      simp [Memory.read, h.symm]
    · simp [Memory.read, ih]

theorem Memory.read_insert_same (m : Memory) (a : Nat) (b : Byte) : Memory.read (Memory.insert m a b) a = b := by
  induction m with
  | nil => simp [Memory.insert, Memory.read]
  | cons c r ih =>
    obtain ⟨a', b'⟩ := c
    simp only [Memory.insert]
    split
    · simp [Memory.read]
    · split
      · simp [Memory.read]
      · simp [Memory.read, *]

theorem Memory.read_insert_other (m : Memory) {a j : Nat} (b : Byte) (h : j ≠ a) :
    Memory.read (Memory.insert m a b) j = Memory.read m j := by
  induction m with
  | nil => simp [Memory.insert, Memory.read, h.symm]
  | cons c r ih =>
    obtain ⟨a', b'⟩ := c
    simp only [Memory.insert]
    split
    · subst_vars
      simp [Memory.read, h.symm]
    · split
      · simp [Memory.read, h.symm]
      · simp [Memory.read, ih]

/-- Below the bound from which the addresses rise, nothing is listed. -/
theorem Memory.read_below {lo : Nat} (m : Memory) {a : Nat} (h : a < lo) (w : Memory.wfFrom lo m = true) : Memory.read m a = 0 := by
  induction m generalizing lo with
  | nil => rfl
  | cons c r ih =>
    obtain ⟨a', b⟩ := c
    simp only [Memory.wfFrom, Bool.and_eq_true, decide_eq_true_eq] at w
    have hne : a' ≠ a := by omega
    simp only [Memory.read, if_neg hne]
    exact ih (by omega) w.2

theorem Memory.read_erase_same {lo : Nat} (m : Memory) (a : Nat) (w : Memory.wfFrom lo m = true) : Memory.read (Memory.erase m a) a = 0 := by
  induction m generalizing lo with
  | nil => rfl
  | cons c r ih =>
    obtain ⟨a', b⟩ := c
    simp only [Memory.wfFrom, Bool.and_eq_true, decide_eq_true_eq] at w
    simp only [Memory.erase]
    split
    · subst_vars
      exact Memory.read_below r (Nat.lt_succ_self _) w.2
    · simp only [Memory.read]
      split
      · contradiction
      · exact ih w.2

theorem Memory.read_write_same (m : Memory) (a : Nat) (b : Byte) (w : Memory.wf m = true) : Memory.read (Memory.write m a b) a = b := by
  unfold Memory.write
  split
  · subst_vars
    exact Memory.read_erase_same m a w
  · exact Memory.read_insert_same m a b

theorem Memory.read_write_other (m : Memory) {a j : Nat} (b : Byte) (h : j ≠ a) : Memory.read (Memory.write m a b) j = Memory.read m j := by
  unfold Memory.write
  split
  · exact Memory.read_erase_other m h
  · exact Memory.read_insert_other m b h

theorem Memory.read_writeAll_other (m : Memory) (a : Nat) (l : List Byte) {j : Nat} (h : j < a ∨ a + l.length ≤ j) :
    Memory.read (Memory.writeAll m a l) j = Memory.read m j := by
  induction l generalizing m a with
  | nil => rfl
  | cons b r ih =>
    simp only [List.length_cons] at h
    rw [Memory.writeAll, ih _ _ (by omega), Memory.read_write_other _ _ (by omega)]

theorem Memory.wfFrom_mono {lo lo' : Nat} (m : Memory) (h : lo ≤ lo') (w : Memory.wfFrom lo' m = true) : Memory.wfFrom lo m = true := by
  cases m with
  | nil => rfl
  | cons c r =>
    obtain ⟨a, b⟩ := c
    simp only [Memory.wfFrom, Bool.and_eq_true, decide_eq_true_eq] at w ⊢
    exact ⟨⟨Nat.le_trans h w.1.1, w.1.2⟩, w.2⟩

theorem Memory.wfFrom_erase {lo : Nat} (m : Memory) (a : Nat) (w : Memory.wfFrom lo m = true) : Memory.wfFrom lo (Memory.erase m a) = true := by
  induction m generalizing lo with
  | nil => rfl
  | cons c r ih =>
    obtain ⟨a', b⟩ := c
    simp only [Memory.wfFrom, Bool.and_eq_true, decide_eq_true_eq] at w
    simp only [Memory.erase]
    split
    · exact Memory.wfFrom_mono r (by omega) w.2
    · simp only [Memory.wfFrom, Bool.and_eq_true, decide_eq_true_eq]
      exact ⟨w.1, ih w.2⟩

theorem Memory.wfFrom_insert {lo : Nat} (m : Memory) (a : Nat) (b : Byte) (hb : b ≠ 0) (hl : lo ≤ a) (w : Memory.wfFrom lo m = true) :
    Memory.wfFrom lo (Memory.insert m a b) = true := by
  induction m generalizing lo with
  | nil =>
    simp only [Memory.insert, Memory.wfFrom, Bool.and_eq_true, decide_eq_true_eq]
    exact ⟨⟨hl, hb⟩, trivial⟩
  | cons c r ih =>
    obtain ⟨a', b'⟩ := c
    simp only [Memory.wfFrom, Bool.and_eq_true, decide_eq_true_eq] at w
    simp only [Memory.insert]
    split
    · subst_vars
      simp only [Memory.wfFrom, Bool.and_eq_true, decide_eq_true_eq]
      exact ⟨⟨hl, hb⟩, w.2⟩
    · split
      · simp only [Memory.wfFrom, Bool.and_eq_true, decide_eq_true_eq]
        exact ⟨⟨hl, hb⟩, ⟨by omega, w.1.2⟩, w.2⟩
      · simp only [Memory.wfFrom, Bool.and_eq_true, decide_eq_true_eq]
        exact ⟨w.1, ih (by omega) w.2⟩

theorem Memory.wf_write (m : Memory) (a : Nat) (b : Byte) (w : Memory.wf m = true) : Memory.wf (Memory.write m a b) = true := by
  unfold Memory.write Memory.wf
  split
  · exact Memory.wfFrom_erase m a w
  · exact Memory.wfFrom_insert m a b ‹_› (Nat.zero_le _) w

theorem Memory.wf_writeAll (m : Memory) (a : Nat) (l : List Byte) (w : Memory.wf m = true) : Memory.wf (Memory.writeAll m a l) = true := by
  induction l generalizing m a with
  | nil => exact w
  | cons b r ih => exact ih _ _ (Memory.wf_write m a b w)

theorem Memory.wf_writeRing (m : Memory) (base n o : Nat) (l : List Byte) (w : Memory.wf m = true) :
    Memory.wf (Memory.writeRing m base n o l) = true := by
  induction l generalizing m o with
  | nil => exact w
  | cons b r ih => exact ih _ _ (Memory.wf_write m _ b w)

theorem Memory.wfFrom_filter {lo : Nat} (m : Memory) (p : Host.Cell → Bool) (w : Memory.wfFrom lo m = true) :
    Memory.wfFrom lo (m.filter p) = true := by
  induction m generalizing lo with
  | nil => rfl
  | cons c r ih =>
    obtain ⟨a, b⟩ := c
    simp only [Memory.wfFrom, Bool.and_eq_true, decide_eq_true_eq] at w
    rw [List.filter_cons]
    split
    · simp only [Memory.wfFrom, Bool.and_eq_true, decide_eq_true_eq]
      exact ⟨w.1, ih w.2⟩
    · exact Memory.wfFrom_mono _ (by omega) (ih w.2)

theorem Memory.wf_filter (m : Memory) (p : Host.Cell → Bool) (w : Memory.wf m = true) : Memory.wf (List.filter p m) = true :=
  Memory.wfFrom_filter m p w

end Sys2Proof.Machine
end

