-- ==== Sys2Proof/Laws/Keeps.lean ====
section
/-! SUPPORT. Laws/Keeps.lean: what a change of the state leaves as it was. `Keeps P s t` says once, for each function of the machine, which parts of
the state it can write (`Laws/Keeps….lean`, one lemma a function), that it leaves the queue alone, and that it keeps the state's own form. -/

namespace Sys2Proof.Machine

/-- `t` has the queue of `s`, what it holds outside the parts `P` is as in `s`, and it keeps the form of `State.Inv`. -/
structure Keeps (P : Part → Bool) (s t : State) : Prop where
  queue : t.pending = s.pending
  pool : Memory.wf s.pool = true → Memory.wf t.pool = true
  regs : RegTab s.regs → RegTab t.regs
  same : ∀ p, P p = false → p.same s t

/-- The same of an outcome that answers a next state. -/
def KeepsO (P : Part → Bool) (s : State) (o : Host.Outcome State Fault Refusal) : Prop := ∀ t, o = .next t → Keeps P s t

/-- `P` takes in the parts of a list. -/
def Covers (P : Part → Bool) (l : List Part) : Prop := ∀ p ∈ l, P p = true

variable {P : Part → Bool} {s x : State}

@[simp] theorem covers_nil : Covers P [] ↔ True := by simp [Covers]

@[simp] theorem covers_cons {p : Part} {l : List Part} : Covers P (p :: l) ↔ P p = true ∧ Covers P l := by simp [Covers]

@[simp] theorem covers_append {l m : List Part} : Covers P (l ++ m) ↔ Covers P l ∧ Covers P m := by
  simp only [Covers, List.mem_append]
  exact ⟨fun h => ⟨fun p q => h p (.inl q), fun p q => h p (.inr q)⟩, fun h p q => q.elim (h.1 p) (h.2 p)⟩

@[simp] theorem covers_map_ite {α : Type} {a b : List α} {f : α → Part} {c : Prop} {_ : Decidable c} (ha : Covers P (a.map f))
    (hb : Covers P (b.map f)) : Covers P ((if c then a else b).map f) := by
  split <;> assumption

@[simp] theorem reg_ite {f g : Fld} {c : Prop} {_ : Decidable c} (hf : P (.reg f.reg) = true) (hg : P (.reg g.reg) = true) :
    P (.reg (if c then f else g).reg) = true := by
  split <;> assumption

theorem Covers.filter {α : Type} {l : List α} {f : α → Part} (g : α → Bool) (h : Covers P (l.map f)) : Covers P ((l.filter g).map f) := by
  intro p hp
  obtain ⟨a, ha, rfl⟩ := List.mem_map.1 hp
  exact h _ (List.mem_map.2 ⟨a, (List.mem_filter.1 ha).1, rfl⟩)

theorem covers_map {α : Type} {l : List α} {f : α → Part} : Covers P (l.map f) ↔ ∀ a ∈ l, P (f a) = true := by simp [Covers]

theorem Reg.mem_all (r : Reg) : r ∈ Reg.all := by cases r <;> decide

@[simp] theorem covers_regs : Covers P Part.regs ↔ ∀ r, P (.reg r) = true := by
  simp only [Part.regs, covers_map]
  exact ⟨fun h r => h r r.mem_all, fun h r _ => h r⟩

theorem Part.same_refl (s : State) (p : Part) : p.same s s := by cases p <;> first | rfl | exact fun _ => rfl

theorem Part.same_trans {s t u : State} (p : Part) (h : p.same s t) (g : p.same t u) : p.same s u := by
  cases p <;> first | exact Eq.trans g h | exact fun i => (g i).trans (h i)

theorem Keeps.refl (s : State) : Keeps P s s := ⟨rfl, fun h => h, fun h => h, fun p _ => Part.same_refl s p⟩

theorem Keeps.trans {a b c : State} (h : Keeps P a b) (g : Keeps P b c) : Keeps P a c :=
  ⟨g.queue.trans h.queue, fun w => g.pool (h.pool w), fun w => g.regs (h.regs w),
    fun p q => Part.same_trans p (h.same p q) (g.same p q)⟩

theorem Keeps.inv {t : State} (h : Keeps P s t) (i : s.Inv) : t.Inv := ⟨h.pool i.pool, h.regs i.regs⟩

theorem Keeps.step {y : State} (h : Keeps P s x) (hq : y.pending = x.pending) (hp : y.pool = x.pool) (hr : y.regs = x.regs)
    (hs : ∀ p, P p = false → p.same x y) : Keeps P s y :=
  ⟨hq.trans h.queue, fun w => hp ▸ h.pool w, fun w => hr ▸ h.regs w, fun p q => Part.same_trans p (h.same p q) (hs p q)⟩

@[simp] theorem keepsO_next (s t : State) : KeepsO P s (.next t) ↔ Keeps P s t := ⟨fun h => h t rfl, fun h u e => by cases e; exact h⟩

@[simp] theorem keepsO_fault (s : State) (f : Fault) : KeepsO P s (.fault f) := fun t e => by cases e

@[simp] theorem keepsO_refused (s : State) (f : Refusal) : KeepsO P s (.refused f) := fun t e => by cases e

@[simp] theorem keeps_ite {a b : State} {c : Prop} {_ : Decidable c} (ha : Keeps P s a) (hb : Keeps P s b) : Keeps P s (if c then a else b) := by
  split <;> assumption

@[simp] theorem keepsO_ite {a b : Host.Outcome State Fault Refusal} {c : Prop} {_ : Decidable c} (ha : KeepsO P s a) (hb : KeepsO P s b) :
    KeepsO P s (if c then a else b) := by
  split <;> assumption

@[simp] theorem keeps_foldl {α : Type} {f : State → α → State} (l : List α) (h : Keeps P s x)
    (hf : ∀ y a, Keeps P s y → Keeps P s (f y a)) : Keeps P s (l.foldl f x) := by
  induction l generalizing x with
  | nil => exact h
  | cons a r ih => exact ih (hf x a h)

theorem keeps_foldl_mem {α : Type} {f : State → α → State} (l : List α) (h : Keeps P s x)
    (hf : ∀ y, ∀ a ∈ l, Keeps P s y → Keeps P s (f y a)) : Keeps P s (l.foldl f x) := by
  induction l generalizing x with
  | nil => exact h
  | cons a r ih => exact ih (hf x a List.mem_cons_self h) fun y b m => hf y b (List.mem_cons_of_mem _ m)

theorem keeps_foldl_pair {α β : Type} {f : State × β → α → State × β} (l : List α) {w : State × β} (h : Keeps P s w.1)
    (hf : ∀ v a, Keeps P s v.1 → Keeps P s (f v a).1) : Keeps P s (l.foldl f w).1 := by
  induction l generalizing w with
  | nil => exact h
  | cons a r ih => exact ih (hf w a h)

/-- What a record update keeps: each part that it writes is in `P`, and neither the pool nor the register file is written. -/
@[simp] theorem keeps_mk (h : Keeps P s x)
    (vout : List Output) (vfree : Nat) (vtim : TimeBase) (vpol : Policy) (vports : Tbl Port) (vlinks : Tbl LinkEnd) (vside : Sideband)
    (vdevs : Tbl Device) (vctxs : Tbl CtxSlot) (vcmgr : CtxMgr) (vtxns : List Txn) (vrings : Tbl Ring) (ventries : List Entry)
    (vcmds : List CmdRec) (vsched : Sched) (vdeal : Dealer) (vslices : Tbl Slice) (vicu : Icu) (vpwr : Power) (vtwin : Twin) (vsmp : Sample)
    (vaudit : Audit) (vmov : Mover) (vhlt : Health) (vaer : Aer) (vind : Option Nat)
    (hout : vout = x.out ∨ P .out = true) (hfree : vfree = x.free ∨ P .free = true) (htim : vtim = x.tim ∨ P .tim = true)
    (hpol : vpol = x.pol ∨ P .pol = true) (hports : vports = x.ports ∨ P .ports = true) (hlinks : vlinks = x.links ∨ P .links = true)
    (hside : vside = x.side ∨ P .side = true) (hdevs : vdevs = x.devs ∨ P .devs = true) (hctxs : vctxs = x.ctxs ∨ P .ctxs = true)
    (hcmgr : vcmgr = x.cmgr ∨ P .cmgr = true) (htxns : vtxns = x.txns ∨ P .txns = true) (hrings : vrings = x.rings ∨ P .rings = true)
    (hentries : ventries = x.entries ∨ P .entries = true) (hcmds : vcmds = x.cmds ∨ P .cmds = true) (hsched : vsched = x.sched ∨ P .sched = true)
    (hdeal : vdeal = x.deal ∨ P .deal = true) (hslices : vslices = x.slices ∨ P .slices = true) (hicu : vicu = x.icu ∨ P .icu = true)
    (hpwr : vpwr = x.pwr ∨ P .pwr = true) (htwin : vtwin = x.twin ∨ P .twin = true) (hsmp : vsmp = x.smp ∨ P .smp = true)
    (haudit : vaudit = x.audit ∨ P .audit = true) (hmov : vmov = x.mov ∨ P .mov = true) (hhlt : vhlt = x.hlt ∨ P .hlt = true)
    (haer : vaer = x.aer ∨ P .aer = true) (hind : vind = x.ind ∨ P .ind = true) :
    Keeps P s (State.mk x.pending vout vfree x.regs vtim vpol vports vlinks vside vdevs vctxs vcmgr vtxns vrings ventries
      vcmds vsched vdeal vslices vicu x.pool vpwr vtwin vsmp vaudit vmov vhlt vaer vind) := by
  refine h.step rfl rfl rfl fun p q => ?_
  cases p <;> simp only [Part.same] <;> first | exact fun _ => rfl | simp_all

theorem Keeps.toPool (h : Keeps P s x) {m : Memory} (w : Memory.wf x.pool = true → Memory.wf m = true) (c : P .pool = true) :
    Keeps P s { x with pool := m } :=
  ⟨h.queue, fun v => w (h.pool v), h.regs, fun p q => Part.same_trans p (h.same p q) (by
    cases p <;> first | rfl | exact fun _ => rfl | exact absurd c (by simp [q]))⟩

theorem Keeps.writeAll (h : Keeps P s x) (c : P .pool = true) (a : Nat) (l : List Byte) :
    Keeps P s { x with pool := Memory.writeAll x.pool a l } := h.toPool (Memory.wf_writeAll _ a l) c

theorem Keeps.writeRing (h : Keeps P s x) (c : P .pool = true) (b n o : Nat) (l : List Byte) :
    Keeps P s { x with pool := Memory.writeRing x.pool b n o l } := h.toPool (Memory.wf_writeRing _ b n o l) c

theorem Keeps.filterPool (h : Keeps P s x) (c : P .pool = true) (p : Host.Cell → Bool) :
    Keeps P s { x with pool := x.pool.filter p } := h.toPool (Memory.wf_filter _ p) c

/-! ### The register file (R11) -/

theorem regBits_num (r : Reg) : regBits r.num = r.bits := by cases r <;> rfl

theorem regKey_mod (r : Reg) (i : Nat) : regKey r i % 256 = r.num := by
  have h : r.num < 256 := by cases r <;> decide
  simp only [regKey]
  omega

theorem regTab_put {t : Tbl DWord} {k : Nat} {v : DWord} (h : RegTab t) (hv : v &&& ~~~ regBits (k % 256) = 0) : RegTab (Tbl.put t k v) := by
  intro x hx
  rcases Tbl.mem_put hx with rfl | hx
  · exact hv
  · exact h x hx

theorem masked (v m : DWord) : (v &&& m) &&& ~~~ m = 0 := by
  ext i
  simp

theorem regTab_filter {t : Tbl DWord} (h : RegTab t) (f : Nat × DWord → Bool) : RegTab (t.filter f) :=
  fun x hx => h x (List.mem_filter.1 hx).1

theorem regTab_foldl {t : Tbl DWord} (l : Tbl DWord) (h : RegTab t) (hl : RegTab l) : RegTab (l.foldl (fun t x => Tbl.put t x.1 x.2) t) := by
  induction l generalizing t with
  | nil => exact h
  | cons x r ih => exact ih (regTab_put h (hl x List.mem_cons_self)) fun y hy => hl y (List.mem_cons_of_mem _ hy)

theorem regTab_restore {t : Tbl DWord} (l : Tbl DWord) (h : RegTab t) :
    RegTab (l.foldl (fun t x => Tbl.put t x.1 (x.2 &&& regBits (x.1 % 256))) t) := by
  induction l generalizing t with
  | nil => exact h
  | cons x r ih => exact ih (regTab_put h (masked _ _))

theorem regTab_reset (v : Variant) : RegTab (State.resetOf v).regs := by
  cases v <;> simp [RegTab, State.resetOf, resetRegs, regKey_mod, regBits_num] <;> decide

end Sys2Proof.Machine
end

