-- ==== Sys2Proof/Laws/KeepsOps.lean ====
section
/-! SUPPORT. Laws/KeepsOps.lean: for each function of Machine/Ops.lean, the parts of the state that it leaves as they are. -/

namespace Sys2Proof.Machine

variable {P : Part → Bool} {s₀ x : State}

@[simp] theorem State.wr_keeps (r : Reg) (i : Nat) (v : DWord) (h : Keeps P s₀ x) (cv : Covers P ([.reg r]) := by simp [*]) :
    Keeps P s₀ (State.wr x r i v) := by
  simp only [covers_cons, covers_nil, and_true] at cv
  unfold State.wr
  refine ⟨h.queue, h.pool, fun w => regTab_put (h.regs w) ?_, fun p q => Part.same_trans p (h.same p q) ?_⟩
  · rw [regKey_mod, regBits_num]
    exact masked _ _
  · cases p with
    | reg b =>
      intro j
      exact State.rd_wr_other x v (.inl fun e => by simp [e, cv] at q)
    | _ => rfl

@[simp] theorem State.fsetN_keeps (f : Fld) (i v : Nat) (h : Keeps P s₀ x) (cv : Covers P ([.reg f.reg]) := by simp [*]) :
    Keeps P s₀ (State.fsetN x f i v) := by
  simp only [covers_cons, covers_nil, and_true] at cv
  unfold State.fsetN
  simp (maxDischargeDepth := 60) [h, cv]

@[simp] theorem State.fset_keeps (f : Fld) (v : Nat) (h : Keeps P s₀ x) (cv : Covers P ([.reg f.reg]) := by simp [*]) :
    Keeps P s₀ (State.fset x f v) := by
  simp only [covers_cons, covers_nil, and_true] at cv
  unfold State.fset
  simp (maxDischargeDepth := 60) [h, cv]

@[simp] theorem State.countN_keeps (f : Fld) (i k : Nat) (h : Keeps P s₀ x) (cv : Covers P ([.reg f.reg]) := by simp [*]) :
    Keeps P s₀ (State.countN x f i k) := by
  simp only [covers_cons, covers_nil, and_true] at cv
  unfold State.countN
  simp (maxDischargeDepth := 60) [h, cv]

@[simp] theorem State.count_keeps (f : Fld) (h : Keeps P s₀ x) (cv : Covers P ([.reg f.reg]) := by simp [*]) :
    Keeps P s₀ (State.count x f) := by
  simp only [covers_cons, covers_nil, and_true] at cv
  unfold State.count
  simp (maxDischargeDepth := 60) [h, cv]

@[simp] theorem State.raiseN_keeps (f : Fld) (i : Nat) (h : Keeps P s₀ x) (cv : Covers P ([.reg f.reg]) := by simp [*]) :
    Keeps P s₀ (State.raiseN x f i) := by
  simp only [covers_cons, covers_nil, and_true] at cv
  unfold State.raiseN
  simp (maxDischargeDepth := 60) [h, cv]

@[simp] theorem State.raise_keeps (f : Fld) (h : Keeps P s₀ x) (cv : Covers P ([.reg f.reg]) := by simp [*]) :
    Keeps P s₀ (State.raise x f) := by
  simp only [covers_cons, covers_nil, and_true] at cv
  unfold State.raise
  simp (maxDischargeDepth := 60) [h, cv]

@[simp] theorem State.emit_keeps (o : Output) (h : Keeps P s₀ x) (cv : Covers P ([.out]) := by simp [*]) :
    Keeps P s₀ (State.emit x o) := by
  simp only [covers_cons, covers_nil, and_true] at cv
  unfold State.emit
  simp (maxDischargeDepth := 60) [h, cv]

@[simp] theorem State.emits_keeps (os : List Output) (h : Keeps P s₀ x) (cv : Covers P ([.out]) := by simp [*]) :
    Keeps P s₀ (State.emits x os) := by
  simp only [covers_cons, covers_nil, and_true] at cv
  unfold State.emits
  simp (maxDischargeDepth := 60) [h, cv]

@[simp] theorem State.draw_keeps (h : Keeps P s₀ x) (cv : Covers P ([.free]) := by simp [*]) :
    Keeps P s₀ (State.draw x) := by
  simp only [covers_cons, covers_nil, and_true] at cv
  unfold State.draw
  simp (maxDischargeDepth := 60) [h, cv]

@[simp] theorem State.answer_keeps (w : DWord) (h : Keeps P s₀ x) (cv : Covers P ([.out]) := by simp [*]) :
    Keeps P s₀ (State.answer x w) := by
  simp only [covers_cons, covers_nil, and_true] at cv
  unfold State.answer
  simp (maxDischargeDepth := 60) [h, cv]

@[simp] theorem State.clearingRead_keeps (r sh : Reg) (i : Nat) (both : Bool) (h : Keeps P s₀ x) (cv : Covers P ([.out, .reg r, .reg sh]) := by
    simp [*]) :
    Keeps P s₀ (State.clearingRead x r sh i both) := by
  simp only [covers_cons, covers_nil, and_true] at cv
  unfold State.clearingRead
  simp (maxDischargeDepth := 60) [h, cv]

@[simp] theorem State.whenReady_keeps (o : Host.Outcome State Fault Refusal) (h : Keeps P s₀ x) (ho : KeepsO P s₀ o) :
    KeepsO P s₀ (State.whenReady x o) := by
  unfold State.whenReady
  simp (maxDischargeDepth := 60) [h, ho]

@[simp] theorem State.readReady_keeps (o : Host.Outcome State Fault Refusal) (h : Keeps P s₀ x) (ho : KeepsO P s₀ o) (cv : Covers P ([.out]) :=
    by simp [*]) :
    KeepsO P s₀ (State.readReady x o) := by
  simp only [covers_cons, covers_nil, and_true] at cv
  unfold State.readReady
  simp (maxDischargeDepth := 60) [h, ho, cv]

@[simp] theorem State.onPort_keeps (p : PortId) (f : Port → Port) (h : Keeps P s₀ x) (cv : Covers P ([.ports]) := by simp [*]) :
    Keeps P s₀ (State.onPort x p f) := by
  simp only [covers_cons, covers_nil, and_true] at cv
  unfold State.onPort
  simp (maxDischargeDepth := 60) [h, cv]

@[simp] theorem State.onLink_keeps (l : LinkEndId) (f : LinkEnd → LinkEnd) (h : Keeps P s₀ x) (cv : Covers P ([.links]) := by simp [*]) :
    Keeps P s₀ (State.onLink x l f) := by
  simp only [covers_cons, covers_nil, and_true] at cv
  unfold State.onLink
  simp (maxDischargeDepth := 60) [h, cv]

@[simp] theorem State.onDev_keeps (d : Nat) (f : Device → Device) (h : Keeps P s₀ x) (cv : Covers P ([.devs]) := by simp [*]) :
    Keeps P s₀ (State.onDev x d f) := by
  simp only [covers_cons, covers_nil, and_true] at cv
  unfold State.onDev
  simp (maxDischargeDepth := 60) [h, cv]

@[simp] theorem State.onRing_keeps (r : Nat) (f : Ring → Ring) (h : Keeps P s₀ x) (cv : Covers P ([.rings]) := by simp [*]) :
    Keeps P s₀ (State.onRing x r f) := by
  simp only [covers_cons, covers_nil, and_true] at cv
  unfold State.onRing
  simp (maxDischargeDepth := 60) [h, cv]

@[simp] theorem State.onSlice_keeps (n : Nat) (f : Slice → Slice) (h : Keeps P s₀ x) (cv : Covers P ([.slices]) := by simp [*]) :
    Keeps P s₀ (State.onSlice x n f) := by
  simp only [covers_cons, covers_nil, and_true] at cv
  unfold State.onSlice
  simp (maxDischargeDepth := 60) [h, cv]

@[simp] theorem State.onVector_keeps (e : Nat) (f : Vector → Vector) (h : Keeps P s₀ x) (cv : Covers P ([.icu]) := by simp [*]) :
    Keeps P s₀ (State.onVector x e f) := by
  simp only [covers_cons, covers_nil, and_true] at cv
  unfold State.onVector
  simp (maxDischargeDepth := 60) [h, cv]

@[simp] theorem State.onCtx_keeps (eph : Nat) (f : CtxSlot → CtxSlot) (h : Keeps P s₀ x) (cv : Covers P ([.ctxs]) := by simp [*]) :
    Keeps P s₀ (State.onCtx x eph f) := by
  simp only [covers_cons, covers_nil, and_true] at cv
  unfold State.onCtx
  split <;> simp (maxDischargeDepth := 60) [h, cv]

@[simp] theorem State.onTim_keeps (f : TimeBase → TimeBase) (h : Keeps P s₀ x) (cv : Covers P ([.tim]) := by simp [*]) :
    Keeps P s₀ (State.onTim x f) := by
  simp only [covers_cons, covers_nil, and_true] at cv
  unfold State.onTim
  simp (maxDischargeDepth := 60) [h, cv]

@[simp] theorem State.onPol_keeps (f : Policy → Policy) (h : Keeps P s₀ x) (cv : Covers P ([.pol]) := by simp [*]) :
    Keeps P s₀ (State.onPol x f) := by
  simp only [covers_cons, covers_nil, and_true] at cv
  unfold State.onPol
  simp (maxDischargeDepth := 60) [h, cv]

@[simp] theorem State.onSched_keeps (f : Sched → Sched) (h : Keeps P s₀ x) (cv : Covers P ([.sched]) := by simp [*]) :
    Keeps P s₀ (State.onSched x f) := by
  simp only [covers_cons, covers_nil, and_true] at cv
  unfold State.onSched
  simp (maxDischargeDepth := 60) [h, cv]

@[simp] theorem State.onDeal_keeps (f : Dealer → Dealer) (h : Keeps P s₀ x) (cv : Covers P ([.deal]) := by simp [*]) :
    Keeps P s₀ (State.onDeal x f) := by
  simp only [covers_cons, covers_nil, and_true] at cv
  unfold State.onDeal
  simp (maxDischargeDepth := 60) [h, cv]

@[simp] theorem State.onHlt_keeps (f : Health → Health) (h : Keeps P s₀ x) (cv : Covers P ([.hlt]) := by simp [*]) :
    Keeps P s₀ (State.onHlt x f) := by
  simp only [covers_cons, covers_nil, and_true] at cv
  unfold State.onHlt
  simp (maxDischargeDepth := 60) [h, cv]

@[simp] theorem State.onIcu_keeps (f : Icu → Icu) (h : Keeps P s₀ x) (cv : Covers P ([.icu]) := by simp [*]) :
    Keeps P s₀ (State.onIcu x f) := by
  simp only [covers_cons, covers_nil, and_true] at cv
  unfold State.onIcu
  simp (maxDischargeDepth := 60) [h, cv]

@[simp] theorem State.onCmgr_keeps (f : CtxMgr → CtxMgr) (h : Keeps P s₀ x) (cv : Covers P ([.cmgr]) := by simp [*]) :
    Keeps P s₀ (State.onCmgr x f) := by
  simp only [covers_cons, covers_nil, and_true] at cv
  unfold State.onCmgr
  simp (maxDischargeDepth := 60) [h, cv]

@[simp] theorem State.at__keeps (t : Nat) (h : Keeps P s₀ x) (cv : Covers P ([.tim]) := by simp [*]) :
    Keeps P s₀ (State.at_ x t) := by
  simp only [covers_cons, covers_nil, and_true] at cv
  unfold State.at_
  simp (maxDischargeDepth := 60) [h, cv]

@[simp] theorem State.vecDue_keeps (e : Nat) (h : Keeps P s₀ x) (cv : Covers P ([.out, .icu]) := by simp [*]) :
    Keeps P s₀ (State.vecDue x e) := by
  simp only [covers_cons, covers_nil, and_true] at cv
  unfold State.vecDue
  simp (maxDischargeDepth := 60) [h, cv]

@[simp] theorem State.vecLapse_keeps (e : Nat) (h : Keeps P s₀ x) (cv : Covers P ([.out, .icu]) := by simp [*]) :
    Keeps P s₀ (State.vecLapse x e) := by
  simp only [covers_cons, covers_nil, and_true] at cv
  unfold State.vecLapse
  simp (maxDischargeDepth := 60) [h, cv]

@[simp] theorem State.idleHint_keeps (e : Nat) (h : Keeps P s₀ x) (cv : Covers P ([.out, .icu]) := by simp [*]) :
    Keeps P s₀ (State.idleHint x e) := by
  simp only [covers_cons, covers_nil, and_true] at cv
  unfold State.idleHint
  simp (maxDischargeDepth := 60) [h, cv]

@[simp] theorem State.vecRequest_keeps (e : Nat) (h : Keeps P s₀ x) (cv : Covers P ([.out, .icu, .reg .ICU_ERR]) := by simp [*]) :
    Keeps P s₀ (State.vecRequest x e) := by
  simp only [covers_cons, covers_nil, and_true] at cv
  unfold State.vecRequest
  simp (maxDischargeDepth := 60) [h, cv]

@[simp] theorem State.vecRequestMgr_keeps (e : Nat) (h : Keeps P s₀ x) (cv : Covers P ([.out, .icu, .reg .ICU_ERR]) := by simp [*]) :
    Keeps P s₀ (State.vecRequestMgr x e) := by
  simp only [covers_cons, covers_nil, and_true] at cv
  unfold State.vecRequestMgr
  simp (maxDischargeDepth := 60) [h, cv]

@[simp] theorem State.ringRequest_keeps (r : Nat) (h : Keeps P s₀ x) (cv : Covers P ([.out, .icu, .reg .ICU_ERR]) := by simp [*]) :
    Keeps P s₀ (State.ringRequest x r) := by
  simp only [covers_cons, covers_nil, and_true] at cv
  unfold State.ringRequest
  split <;> simp (maxDischargeDepth := 60) [h, cv]

@[simp] theorem State.onMov_keeps (f : Mover → Mover) (h : Keeps P s₀ x) (cv : Covers P ([.mov]) := by simp [*]) :
    Keeps P s₀ (State.onMov x f) := by
  simp only [covers_cons, covers_nil, and_true] at cv
  unfold State.onMov
  simp (maxDischargeDepth := 60) [h, cv]

@[simp] theorem State.onChan_keeps (n : Nat) (f : Chan → Chan) (h : Keeps P s₀ x) (cv : Covers P ([.mov]) := by simp [*]) :
    Keeps P s₀ (State.onChan x n f) := by
  simp only [covers_cons, covers_nil, and_true] at cv
  unfold State.onChan
  simp (maxDischargeDepth := 60) [h, cv]

@[simp] theorem State.chanTo_keeps (n st : Nat) (h : Keeps P s₀ x) (cv : Covers P ([.reg .MOV_STS]) := by simp [*]) :
    Keeps P s₀ (State.chanTo x n st) := by
  simp only [covers_cons, covers_nil, and_true] at cv
  unfold State.chanTo
  simp (maxDischargeDepth := 60) [h, cv]

@[simp] theorem State.giveCredit_keeps (n : Nat) (h : Keeps P s₀ x) (cv : Covers P ([.reg .MOV_STS]) := by simp [*]) :
    Keeps P s₀ (State.giveCredit x n) := by
  simp only [covers_cons, covers_nil, and_true] at cv
  unfold State.giveCredit
  simp +contextual (maxDischargeDepth := 60) [h, cv]

@[simp] theorem State.engineDone_keeps (n : Nat) (h : Keeps P s₀ x) (cv : Covers P ([.reg .MOV_STS]) := by simp [*]) :
    Keeps P s₀ (State.engineDone x n) := by
  simp only [covers_cons, covers_nil, and_true] at cv
  unfold State.engineDone
  simp (maxDischargeDepth := 60) [h, cv]

@[simp] theorem State.engineEnd_keeps (w : HostWork) (k : Nat) (h : Keeps P s₀ x) (cv : Covers P ([.mov, .reg .MOV_STS]) := by simp [*]) :
    Keeps P s₀ (State.engineEnd x w k) := by
  simp only [covers_cons, covers_nil, and_true] at cv
  unfold State.engineEnd
  simp +contextual (maxDischargeDepth := 60) [h, cv]

@[simp] theorem State.ringError_keeps (r reason : Nat) (h : Keeps P s₀ x) (cv : Covers P ([.rings]) := by simp [*]) :
    Keeps P s₀ (State.ringError x r reason) := by
  simp only [covers_cons, covers_nil, and_true] at cv
  unfold State.ringError
  simp (maxDischargeDepth := 60) [h, cv]

@[simp] theorem State.writeRecord_keeps (r : Nat) (b : List Byte) (h : Keeps P s₀ x) (cv : Covers P ([.out, .rings, .icu, .reg .MOV_STS, .reg
    .ICU_ERR]) := by simp [*]) :
    Keeps P s₀ (State.writeRecord x r b) := by
  simp only [covers_cons, covers_nil, and_true] at cv
  unfold State.writeRecord
  (repeat' split) <;> (try simp only [Prod.ext_iff] at *) <;> (try subst_vars) <;> simp +contextual (maxDischargeDepth := 60) [h, cv]

@[simp] theorem State.keepRecord_keeps (r : Nat) (b : List Byte) (h : Keeps P s₀ x) (cv : Covers P ([.rings]) := by simp [*]) :
    Keeps P s₀ (State.keepRecord x r b) := by
  simp only [covers_cons, covers_nil, and_true] at cv
  unfold State.keepRecord
  (repeat' split) <;> (try simp only [Prod.ext_iff] at *) <;> (try subst_vars) <;> simp +contextual (maxDischargeDepth := 60) [h, cv]

@[simp] theorem State.geoFail_keeps (r : Nat) (h : Keeps P s₀ x) (cv : Covers P ([.out, .rings, .icu, .reg .MOV_STS, .reg .ICU_ERR]) := by simp [*]) :
    Keeps P s₀ (State.geoFail x r) := by
  simp only [covers_cons, covers_nil, and_true] at cv
  unfold State.geoFail
  (repeat' split) <;> (try simp only [Prod.ext_iff] at *) <;> (try subst_vars) <;> simp +contextual (maxDischargeDepth := 60) [h, cv]

@[simp] theorem State.putRecord_keeps (r : Nat) (b : List Byte) (h : Keeps P s₀ x) (cv : Covers P ([.out, .rings, .icu, .reg .MOV_STS, .reg .ICU_ERR])
    := by simp [*]) :
    Keeps P s₀ (State.putRecord x r b) := by
  simp only [covers_cons, covers_nil, and_true] at cv
  unfold State.putRecord
  simp (maxDischargeDepth := 60) [h, cv]

@[simp] theorem State.eventRecord_keeps (r : Nat) (b : List Byte) (h : Keeps P s₀ x) (cv : Covers P ([.out, .rings, .icu, .reg .MOV_STS, .reg
    .ICU_ERR]) := by simp [*]) :
    Keeps P s₀ (State.eventRecord x r b) := by
  simp only [covers_cons, covers_nil, and_true] at cv
  unfold State.eventRecord
  simp (maxDischargeDepth := 60) [h, cv]

@[simp] theorem State.flushKept_keeps (r a2 : Nat) (h : Keeps P s₀ x) (cv : Covers P ([.out, .rings, .icu, .reg .MOV_STS, .reg .ICU_ERR]) := by simp
    [*]) :
    Keeps P s₀ (State.flushKept x r a2) := by
  simp only [covers_cons, covers_nil, and_true] at cv
  revert h
  fun_induction State.flushKept x r a2 <;> intro h <;> (try simp only [Prod.ext_iff] at *) <;> (try subst_vars) <;> simp_all +contextual
      (maxDischargeDepth := 60)

@[simp] theorem State.releaseKept_keeps (r t : Nat) (a4 : Nat) (h : Keeps P s₀ x) (cv : Covers P ([.out, .rings, .icu, .reg .MOV_STS, .reg .ICU_ERR])
    := by simp [*]) :
    Keeps P s₀ (State.releaseKept x r t a4) := by
  simp only [covers_cons, covers_nil, and_true] at cv
  induction a4 generalizing x with
  | zero => simpa [State.releaseKept] using h
  | succ k ih =>
    rw [State.releaseKept]
    split
    · split
      · exact h
      · split
        · simp (maxDischargeDepth := 60) [h, cv]
        · exact ih (by simp (maxDischargeDepth := 60) [h, cv])
    · exact h

@[simp] theorem State.ringRoom_keeps (r : Nat) (h : Keeps P s₀ x) (cv : Covers P ([.out, .rings, .icu, .reg .MOV_STS, .reg .ICU_ERR]) := by simp [*])
    :
    Keeps P s₀ (State.ringRoom x r) := by
  simp only [covers_cons, covers_nil, and_true] at cv
  unfold State.ringRoom
  simp (maxDischargeDepth := 60) [h, cv]

@[simp] theorem State.event_keeps (r typ status about info0 info1 : Nat) (h : Keeps P s₀ x) (cv : Covers P ([.out, .rings, .icu, .reg .MOV_STS, .reg
    .ICU_ERR]) := by simp [*]) :
    Keeps P s₀ (State.event x r typ status about info0 info1) := by
  simp only [covers_cons, covers_nil, and_true] at cv
  unfold State.event
  simp (maxDischargeDepth := 60) [h, cv]

@[simp] theorem State.event1_keeps (typ status about info0 info1 : Nat) (h : Keeps P s₀ x) (cv : Covers P ([.out, .rings, .icu, .reg .MOV_STS, .reg
    .ICU_ERR]) := by simp [*]) :
    Keeps P s₀ (State.event1 x typ status about info0 info1) := by
  simp only [covers_cons, covers_nil, and_true] at cv
  unfold State.event1
  simp (maxDischargeDepth := 60) [h, cv]

@[simp] theorem State.integrity_keeps (obj info ring slice eph : Nat) (h : Keeps P s₀ x) (cv : Covers P ([.out, .rings, .icu, .reg .MOV_STS, .reg
    .ICU_ERR]) := by simp [*]) :
    Keeps P s₀ (State.integrity x obj info ring slice eph) := by
  simp only [covers_cons, covers_nil, and_true] at cv
  unfold State.integrity
  simp (maxDischargeDepth := 60) [h, cv]

@[simp] theorem State.ringErrorEvent_keeps (r reason idx info1 : Nat) (h : Keeps P s₀ x) (cv : Covers P ([.out, .rings, .icu, .reg .MOV_STS, .reg
    .ICU_ERR]) := by simp [*]) :
    Keeps P s₀ (State.ringErrorEvent x r reason idx info1) := by
  simp only [covers_cons, covers_nil, and_true] at cv
  unfold State.ringErrorEvent
  simp (maxDischargeDepth := 60) [h, cv]

@[simp] theorem State.failRing_keeps (r reason idx info1 : Nat) (h : Keeps P s₀ x) (cv : Covers P ([.out, .rings, .icu, .reg .MOV_STS, .reg .ICU_ERR])
    := by simp [*]) :
    Keeps P s₀ (State.failRing x r reason idx info1) := by
  simp only [covers_cons, covers_nil, and_true] at cv
  unfold State.failRing
  simp (maxDischargeDepth := 60) [h, cv]

@[simp] theorem State.integrityReg_keeps (ofs : Nat) (h : Keeps P s₀ x) (cv : Covers P ([.out, .rings, .icu, .reg .MOV_STS, .reg .ICU_ERR]) := by simp
    [*]) :
    Keeps P s₀ (State.integrityReg x ofs) := by
  simp only [covers_cons, covers_nil, and_true] at cv
  unfold State.integrityReg
  simp (maxDischargeDepth := 60) [h, cv]

@[simp] theorem State.accessError_keeps (kind bar be domain ofs : Nat) (h : Keeps P s₀ x) (cv : Covers P ([.reg .GCTL_ACCESS_ERR, .reg
    .GCTL_ACCESS_ADDR]) := by simp [*]) :
    Keeps P s₀ (State.accessError x kind bar be domain ofs) := by
  simp only [covers_cons, covers_nil, and_true] at cv
  unfold State.accessError
  simp (maxDischargeDepth := 60) [h, cv]

@[simp] theorem State.narrowWrite_keeps (bar be ofs : Nat) (h : Keeps P s₀ x) (cv : Covers P ([.reg .GCTL_ACCESS_ERR, .reg .GCTL_ACCESS_ADDR]) :=
    by simp [*]) :
    Keeps P s₀ (State.narrowWrite x bar be ofs) := by
  simp only [covers_cons, covers_nil, and_true] at cv
  unfold State.narrowWrite
  simp (maxDischargeDepth := 60) [h, cv]

end Sys2Proof.Machine
end

