-- ==== Sys2Proof/Laws/KeepsIcuBase.lean ====
section
/-! SUPPORT. Laws/KeepsIcuBase.lean: for each function of Machine/IcuBase.lean, the parts of the state that it leaves as they are. -/

namespace Sys2Proof.Machine

variable {P : Part → Bool} {s₀ x : State}

@[simp] theorem State.onSource_keeps (x_ : Nat) (f : Source → Source) (h : Keeps P s₀ x) (cv : Covers P ([.icu]) := by simp [*]) :
    Keeps P s₀ (State.onSource x x_ f) := by
  simp only [covers_cons, covers_nil, and_true] at cv
  unfold State.onSource
  simp (maxDischargeDepth := 60) [h, cv]

@[simp] theorem State.onCore_keeps (n : Nat) (f : Core → Core) (h : Keeps P s₀ x) (cv : Covers P ([.icu]) := by simp [*]) :
    Keeps P s₀ (State.onCore x n f) := by
  simp only [covers_cons, covers_nil, and_true] at cv
  unfold State.onCore
  simp (maxDischargeDepth := 60) [h, cv]

@[simp] theorem State.sourceRequest_keeps (x_ : Nat) (h : Keeps P s₀ x) (cv : Covers P ([.out, .icu, .reg .ICU_ERR]) := by simp [*]) :
    Keeps P s₀ (State.sourceRequest x x_) := by
  simp only [covers_cons, covers_nil, and_true] at cv
  unfold State.sourceRequest
  split <;> simp (maxDischargeDepth := 60) [h, cv]

@[simp] theorem State.setPend_keeps (x_ : Nat) (h : Keeps P s₀ x) (cv : Covers P ([.out, .icu, .reg .ICU_ERR]) := by simp [*]) :
    Keeps P s₀ (State.setPend x x_) := by
  simp only [covers_cons, covers_nil, and_true] at cv
  unfold State.setPend
  simp (maxDischargeDepth := 60) [h, cv]

@[simp] theorem State.levelPend_keeps (x_ : Nat) (h : Keeps P s₀ x) (cv : Covers P ([.out, .icu, .reg .ICU_ERR]) := by simp [*]) :
    Keeps P s₀ (State.levelPend x x_) := by
  simp only [covers_cons, covers_nil, and_true] at cv
  unfold State.levelPend
  simp (maxDischargeDepth := 60) [h, cv]

@[simp] theorem State.lineReread_keeps (x_ : Nat) (h : Keeps P s₀ x) (cv : Covers P ([.out, .icu, .reg .ICU_ERR]) := by simp [*]) :
    Keeps P s₀ (State.lineReread x x_) := by
  simp only [covers_cons, covers_nil, and_true] at cv
  unfold State.lineReread
  simp (maxDischargeDepth := 60) [h, cv]

@[simp] theorem State.eventRead_keeps (r sh : Reg) (i : Nat) (both : Bool) (x_ : Nat) (h : Keeps P s₀ x) (cv : Covers P ([.out, .icu, .reg
    .ICU_ERR, .reg r, .reg sh]) := by simp [*]) :
    Keeps P s₀ (State.eventRead x r sh i both x_) := by
  simp only [covers_cons, covers_nil, and_true] at cv
  unfold State.eventRead
  simp (maxDischargeDepth := 60) [h, cv]

@[simp] theorem State.offer_keeps (x_ n : Nat) (h : Keeps P s₀ x) (cv : Covers P ([.icu, .reg .ICU_CORESTS, .reg .PWR_STS]) := by simp [*]) :
    Keeps P s₀ (State.offer x x_ n) := by
  simp only [covers_cons, covers_nil, and_true] at cv
  unfold State.offer
  simp (maxDischargeDepth := 60) [h, cv]

@[simp] theorem State.noteHeld_keeps (n : Nat) (h : Keeps P s₀ x) (cv : Covers P ([.icu]) := by simp [*]) :
    Keeps P s₀ (State.noteHeld x n) := by
  simp only [covers_cons, covers_nil, and_true] at cv
  unfold State.noteHeld
  simp (maxDischargeDepth := 60) [h, cv]

@[simp] theorem State.offerAll_keeps (a1 : Nat) (h : Keeps P s₀ x) (cv : Covers P ([.icu, .reg .ICU_CORESTS, .reg .PWR_STS]) := by simp [*]) :
    Keeps P s₀ (State.offerAll x a1) := by
  simp only [covers_cons, covers_nil, and_true] at cv
  revert h
  fun_induction State.offerAll x a1 <;> intro h <;> (try simp only [Prod.ext_iff] at *) <;> (try subst_vars) <;> simp_all +contextual
      (maxDischargeDepth := 60)

@[simp] theorem State.icuSettle_keeps (h : Keeps P s₀ x) (cv : Covers P ([.icu, .reg .ICU_CORESTS, .reg .PWR_STS]) := by simp [*]) :
    Keeps P s₀ (State.icuSettle x) := by
  simp only [covers_cons, covers_nil, and_true] at cv
  unfold State.icuSettle
  simp +contextual (maxDischargeDepth := 60) [h, cv]

end Sys2Proof.Machine
end

