-- ==== Sys2Proof/Laws/KeepsTimeBase.lean ====
section
/-! SUPPORT. Laws/KeepsTimeBase.lean: for each function of Machine/TimeBase.lean, the parts of the state that it leaves as they are. -/

namespace Sys2Proof.Machine

variable {P : Part → Bool} {s₀ x : State}

@[simp] theorem State.ppsFall_keeps (t : Nat) (h : Keeps P s₀ x) (cv : Covers P ([.out, .tim]) := by simp [*]) :
    Keeps P s₀ (State.ppsFall x t) := by
  simp only [covers_cons, covers_nil, and_true] at cv
  unfold State.ppsFall
  (repeat' split) <;> (try simp only [Prod.ext_iff] at *) <;> (try subst_vars) <;> simp +contextual (maxDischargeDepth := 60) [h, cv]

@[simp] theorem State.ppsOutHold_keeps (h : Keeps P s₀ x) (cv : Covers P ([.out, .tim]) := by simp [*]) :
    Keeps P s₀ (State.ppsOutHold x) := by
  simp only [covers_cons, covers_nil, and_true] at cv
  unfold State.ppsOutHold
  simp (maxDischargeDepth := 60) [h, cv]

@[simp] theorem State.ppsRise_keeps (t : Nat) (h : Keeps P s₀ x) (cv : Covers P ([.out, .tim]) := by simp [*]) :
    Keeps P s₀ (State.ppsRise x t) := by
  simp only [covers_cons, covers_nil, and_true] at cv
  unfold State.ppsRise
  (repeat' split) <;> (try simp only [Prod.ext_iff] at *) <;> (try subst_vars) <;> simp +contextual (maxDischargeDepth := 60) [h, cv]

@[simp] theorem State.ppsStep_keeps (d : Int) (h : Keeps P s₀ x) (cv : Covers P ([.out, .tim]) := by simp [*]) :
    Keeps P s₀ (State.ppsStep x d) := by
  simp only [covers_cons, covers_nil, and_true] at cv
  unfold State.ppsStep
  (repeat' split) <;> (try simp only [Prod.ext_iff] at *) <;> (try subst_vars) <;> simp +contextual (maxDischargeDepth := 60) [h, cv]

@[simp] theorem State.retune_keeps (h : Keeps P s₀ x) (cv : Covers P ([.out, .tim, .reg .TIM_STS, .reg .TIM_EVT]) := by simp [*]) :
    Keeps P s₀ (State.retune x) := by
  simp only [covers_cons, covers_nil, and_true] at cv
  unfold State.retune
  simp (maxDischargeDepth := 60) [h, cv]

@[simp] theorem State.loadEff_keeps (h : Keeps P s₀ x) (cv : Covers P ([.tim]) := by simp [*]) :
    Keeps P s₀ (State.loadEff x) := by
  simp only [covers_cons, covers_nil, and_true] at cv
  unfold State.loadEff
  simp (maxDischargeDepth := 60) [h, cv]

@[simp] theorem State.stepNow_keeps (d : Int) (h : Keeps P s₀ x) (cv : Covers P ([.out, .tim, .reg .TIM_STS, .reg .TIM_EVT]) := by simp [*]) :
    Keeps P s₀ (State.stepNow x d) := by
  simp only [covers_cons, covers_nil, and_true] at cv
  unfold State.stepNow
  simp (maxDischargeDepth := 60) [h, cv]

@[simp] theorem State.slewOff_keeps (off : Int) (h : Keeps P s₀ x) (cv : Covers P ([.tim]) := by simp [*]) :
    Keeps P s₀ (State.slewOff x off) := by
  simp only [covers_cons, covers_nil, and_true] at cv
  unfold State.slewOff
  (repeat' split) <;> (try simp only [Prod.ext_iff] at *) <;> (try subst_vars) <;> simp +contextual (maxDischargeDepth := 60) [h, cv]

@[simp] theorem State.stepPend_keeps (d sec : Int) (h : Keeps P s₀ x) (cv : Covers P ([.tim, .reg .TIM_STS, .reg .TIM_EVT]) := by simp [*]) :
    Keeps P s₀ (State.stepPend x d sec) := by
  simp only [covers_cons, covers_nil, and_true] at cv
  unfold State.stepPend
  (repeat' split) <;> (try simp only [Prod.ext_iff] at *) <;> (try subst_vars) <;> simp +contextual (maxDischargeDepth := 60) [h, cv]

@[simp] theorem State.stepFor_keeps (sub sec : Int) (mismatch : Bool) (h : Keeps P s₀ x) (cv : Covers P ([.tim, .reg .TIM_STS, .reg .TIM_EVT]) := by
    simp [*]) :
    Keeps P s₀ (State.stepFor x sub sec mismatch) := by
  simp only [covers_cons, covers_nil, and_true] at cv
  unfold State.stepFor
  simp (maxDischargeDepth := 60) [h, cv]

@[simp] theorem State.trackOld_keeps (sub sec : Int) (h : Keeps P s₀ x) (cv : Covers P ([.tim, .reg .TIM_STS, .reg .TIM_EVT]) := by simp [*]) :
    Keeps P s₀ (State.trackOld x sub sec) := by
  simp only [covers_cons, covers_nil, and_true] at cv
  unfold State.trackOld
  (repeat' split) <;> (try simp only [Prod.ext_iff] at *) <;> (try subst_vars) <;> simp +contextual (maxDischargeDepth := 60) [h, cv]

@[simp] theorem State.correct_keeps (sub sec : Int) (mismatch : Bool) (h : Keeps P s₀ x) (cv : Covers P ([.out, .tim, .reg .TIM_STS, .reg
    .TIM_EVT]) := by simp [*]) :
    Keeps P s₀ (State.correct x sub sec mismatch) := by
  simp only [covers_cons, covers_nil, and_true] at cv
  unfold State.correct
  simp (maxDischargeDepth := 60) [h, cv]

@[simp] theorem State.errShow_keeps (h : Keeps P s₀ x) (cv : Covers P ([.reg .TIM_ERR_EST]) := by simp [*]) :
    Keeps P s₀ (State.errShow x) := by
  simp only [covers_cons, covers_nil, and_true] at cv
  unfold State.errShow
  simp (maxDischargeDepth := 60) [h, cv]

@[simp] theorem State.lockCount_keeps (off : Int) (h : Keeps P s₀ x) (cv : Covers P ([.tim]) := by simp [*]) :
    Keeps P s₀ (State.lockCount x off) := by
  simp only [covers_cons, covers_nil, and_true] at cv
  unfold State.lockCount
  simp (maxDischargeDepth := 60) [h, cv]

@[simp] theorem State.phaseMark_keeps (sec : Nat) (sub : Int) (lab : Option Nat) (h : Keeps P s₀ x) (cv : Covers P ([.out, .tim, .reg .TIM_STS,
    .reg .TIM_EVT, .reg .TIM_OFFSET, .reg .TIM_ERR_EST]) := by simp [*]) :
    Keeps P s₀ (State.phaseMark x sec sub lab) := by
  simp only [covers_cons, covers_nil, and_true] at cv
  unfold State.phaseMark
  simp (maxDischargeDepth := 60) [h, cv]

@[simp] theorem execPpsInEdge_keeps (rising : Bool) (t : Nat) (h : Keeps P s₀ x) (cv : Covers P ([.out, .tim, .reg .TIM_STS, .reg .TIM_EVT, .reg
    .TIM_OFFSET, .reg .TIM_ERR_EST]) := by simp [*]) :
    KeepsO P s₀ (execPpsInEdge rising t x) := by
  simp only [covers_cons, covers_nil, and_true] at cv
  unfold execPpsInEdge
  simp (maxDischargeDepth := 60) [h, cv]

@[simp] theorem execPpsInLost_keeps (h : Keeps P s₀ x) (cv : Covers P ([.out, .tim, .reg .TIM_STS, .reg .TIM_EVT]) := by simp [*]) :
    KeepsO P s₀ (execPpsInLost x) := by
  simp only [covers_cons, covers_nil, and_true] at cv
  unfold execPpsInLost
  simp (maxDischargeDepth := 60) [h, cv]

@[simp] theorem execRefInLost_keeps (h : Keeps P s₀ x) (cv : Covers P ([.out, .tim, .reg .TIM_STS, .reg .TIM_EVT]) := by simp [*]) :
    KeepsO P s₀ (execRefInLost x) := by
  simp only [covers_cons, covers_nil, and_true] at cv
  unfold execRefInLost
  simp (maxDischargeDepth := 60) [h, cv]

@[simp] theorem execRefInValid_keeps (h : Keeps P s₀ x) (cv : Covers P ([.out, .tim, .reg .TIM_STS, .reg .TIM_EVT]) := by simp [*]) :
    KeepsO P s₀ (execRefInValid x) := by
  simp only [covers_cons, covers_nil, and_true] at cv
  unfold execRefInValid
  simp (maxDischargeDepth := 60) [h, cv]

@[simp] theorem State.irigLost_keeps (h : Keeps P s₀ x) (cv : Covers P ([.out, .tim, .reg .TIM_STS, .reg .TIM_EVT]) := by simp [*]) :
    Keeps P s₀ (State.irigLost x) := by
  simp only [covers_cons, covers_nil, and_true] at cv
  unfold State.irigLost
  simp (maxDischargeDepth := 60) [h, cv]

@[simp] theorem execIrigFrameReceive_keeps (good : Bool) (year : Option Nat) (secOfYear : Nat) (h : Keeps P s₀ x) (cv : Covers P ([.out, .tim,
    .reg .TIM_STS, .reg .TIM_EVT]) := by simp [*]) :
    KeepsO P s₀ (execIrigFrameReceive good year secOfYear x) := by
  simp only [covers_cons, covers_nil, and_true] at cv
  unfold execIrigFrameReceive
  simp (maxDischargeDepth := 60) [h, cv]

@[simp] theorem execIrigInLost_keeps (h : Keeps P s₀ x) (cv : Covers P ([.out, .tim, .reg .TIM_STS, .reg .TIM_EVT]) := by simp [*]) :
    KeepsO P s₀ (execIrigInLost x) := by
  simp only [covers_cons, covers_nil, and_true] at cv
  unfold execIrigInLost
  simp (maxDischargeDepth := 60) [h, cv]

@[simp] theorem execIrigOnTimeMark_keeps (t : Nat) (h : Keeps P s₀ x) (cv : Covers P ([.out, .tim, .reg .TIM_STS, .reg .TIM_EVT, .reg
    .TIM_OFFSET, .reg .TIM_ERR_EST]) := by simp [*]) :
    KeepsO P s₀ (execIrigOnTimeMark t x) := by
  simp only [covers_cons, covers_nil, and_true] at cv
  unfold execIrigOnTimeMark
  simp (maxDischargeDepth := 60) [h, cv]

@[simp] theorem execPtmDialogueDone_keeps (ok : Bool) (hostSec hostNs loc : Nat) (h : Keeps P s₀ x) (cv : Covers P ([.out, .tim, .reg .TIM_STS,
    .reg .TIM_EVT, .reg .TIM_OFFSET, .reg .TIM_ERR_EST, .reg .TIM_PTM_HOST]) := by simp [*]) :
    KeepsO P s₀ (execPtmDialogueDone ok hostSec hostNs loc x) := by
  simp only [covers_cons, covers_nil, and_true] at cv
  unfold execPtmDialogueDone
  simp (maxDischargeDepth := 60) [h, cv]

@[simp] theorem execErrEstGrowth_keeps (h : Keeps P s₀ x) (cv : Covers P ([.out, .tim, .reg .TIM_STS, .reg .TIM_EVT, .reg .TIM_ERR_EST]) := by
    simp [*]) :
    KeepsO P s₀ (execErrEstGrowth x) := by
  simp only [covers_cons, covers_nil, and_true] at cv
  unfold execErrEstGrowth
  simp (maxDischargeDepth := 60) [h, cv]

@[simp] theorem State.stepIfOff_keeps (h : Keeps P s₀ x) (cv : Covers P ([.out, .tim, .reg .TIM_STS, .reg .TIM_EVT]) := by simp [*]) :
    Keeps P s₀ (State.stepIfOff x) := by
  simp only [covers_cons, covers_nil, and_true] at cv
  unfold State.stepIfOff
  (repeat' split) <;> (try simp only [Prod.ext_iff] at *) <;> (try subst_vars) <;> simp +contextual (maxDischargeDepth := 60) [h, cv]

@[simp] theorem execStepGo_keeps (t : Nat) (h : Keeps P s₀ x) (cv : Covers P ([.out, .tim, .reg .TIM_STS, .reg .TIM_EVT]) := by simp [*]) :
    KeepsO P s₀ (execStepGo t x) := by
  simp only [covers_cons, covers_nil, and_true] at cv
  unfold execStepGo
  simp (maxDischargeDepth := 60) [h, cv]

@[simp] theorem execFrameEnWrite_keeps (en : Bool) (h : Keeps P s₀ x) (cv : Covers P ([.reg .TIM_CTL]) := by simp [*]) :
    KeepsO P s₀ (execFrameEnWrite en x) := by
  simp only [covers_cons, covers_nil, and_true] at cv
  unfold execFrameEnWrite
  simp (maxDischargeDepth := 60) [h, cv]

@[simp] theorem State.frateJudge_keeps (h : Keeps P s₀ x) (cv : Covers P ([.out, .tim, .rings, .icu, .reg .TIM_STS, .reg .TIM_EVT, .reg .MOV_STS, .reg
    .ICU_ERR]) := by simp [*]) :
    Keeps P s₀ (State.frateJudge x) := by
  simp only [covers_cons, covers_nil, and_true] at cv
  unfold State.frateJudge
  simp (maxDischargeDepth := 60) [h, cv]

@[simp] theorem State.frateWritten_keeps (h : Keeps P s₀ x) (cv : Covers P ([.tim, .reg .TIM_STS]) := by simp [*]) :
    Keeps P s₀ (State.frateWritten x) := by
  simp only [covers_cons, covers_nil, and_true] at cv
  unfold State.frateWritten
  simp (maxDischargeDepth := 60) [h, cv]

@[simp] theorem State.timTick_keeps (h : Keeps P s₀ x) (cv : Covers P ([.out, .tim, .rings, .icu, .reg .TIM_STS, .reg .TIM_EVT, .reg .TIM_FRATE_ACT,
    .reg .MOV_STS, .reg .ICU_ERR]) := by simp [*]) :
    Keeps P s₀ (State.timTick x) := by
  simp only [covers_cons, covers_nil, and_true] at cv
  unfold State.timTick
  simp only []; (repeat' split) <;> (try simp only [Prod.ext_iff] at *) <;> subst_vars <;> simp +contextual (maxDischargeDepth := 60) [h, cv]

@[simp] theorem execTimNowRead_keeps (w : ReadWidth) (t : Nat) (h : Keeps P s₀ x) (cv : Covers P ([.out, .tim]) := by simp [*]) :
    KeepsO P s₀ (execTimNowRead w t x) := by
  simp only [covers_cons, covers_nil, and_true] at cv
  unfold execTimNowRead
  split <;> simp (maxDischargeDepth := 60) [h, cv]

@[simp] theorem execTimFrameNoRead_keeps (w : ReadWidth) (h : Keeps P s₀ x) (cv : Covers P ([.out, .tim]) := by simp [*]) :
    KeepsO P s₀ (execTimFrameNoRead w x) := by
  simp only [covers_cons, covers_nil, and_true] at cv
  unfold execTimFrameNoRead
  split <;> simp (maxDischargeDepth := 60) [h, cv]

@[simp] theorem execTimPtmHostRead_keeps (w : ReadWidth) (h : Keeps P s₀ x) (cv : Covers P ([.out, .tim]) := by simp [*]) :
    KeepsO P s₀ (execTimPtmHostRead w x) := by
  simp only [covers_cons, covers_nil, and_true] at cv
  unfold execTimPtmHostRead
  split <;> simp (maxDischargeDepth := 60) [h, cv]

@[simp] theorem State.labelArm_keeps (t : Nat) (h : Keeps P s₀ x) (cv : Covers P ([.tim]) := by simp [*]) :
    Keeps P s₀ (State.labelArm x t) := by
  simp only [covers_cons, covers_nil, and_true] at cv
  unfold State.labelArm
  simp (maxDischargeDepth := 60) [h, cv]

@[simp] theorem execTimLabelWrite_keeps (w : ReadWidth) (data t be : Nat) (h : Keeps P s₀ x) (cv : Covers P ([.tim, .reg .GCTL_ACCESS_ERR, .reg
    .GCTL_ACCESS_ADDR, .reg .TIM_LABEL]) := by simp [*]) :
    KeepsO P s₀ (execTimLabelWrite w data t be x) := by
  simp only [covers_cons, covers_nil, and_true] at cv
  unfold execTimLabelWrite
  split <;> simp (maxDischargeDepth := 60) [h, cv]

@[simp] theorem execTimEvtRead_keeps (both : Bool) (h : Keeps P s₀ x) (cv : Covers P ([.out, .icu, .reg .TIM_EVT, .reg .TIM_EVT_SHADOW, .reg
    .ICU_ERR]) := by simp [*]) :
    KeepsO P s₀ (execTimEvtRead both x) := by
  simp only [covers_cons, covers_nil, and_true] at cv
  unfold execTimEvtRead
  simp (maxDischargeDepth := 60) [h, cv]

end Sys2Proof.Machine
end

