-- ==== Sys2Proof/Laws/KeepsSampleBase.lean ====
section
/-! SUPPORT. Laws/KeepsSampleBase.lean: for each function of Machine/SampleBase.lean, the parts of the state that it leaves as they are. -/

namespace Sys2Proof.Machine

variable {P : Part → Bool} {s₀ x : State}

@[simp] theorem State.onSmp_keeps (f : Sample → Sample) (h : Keeps P s₀ x) (cv : Covers P ([.smp]) := by simp [*]) :
    Keeps P s₀ (State.onSmp x f) := by
  simp only [covers_cons, covers_nil, and_true] at cv
  unfold State.onSmp
  simp (maxDischargeDepth := 60) [h, cv]

@[simp] theorem State.onGroup_keeps (g : Nat) (f : Group → Group) (h : Keeps P s₀ x) (cv : Covers P ([.smp]) := by simp [*]) :
    Keeps P s₀ (State.onGroup x g f) := by
  simp only [covers_cons, covers_nil, and_true] at cv
  unfold State.onGroup
  split <;> simp (maxDischargeDepth := 60) [h, cv]

@[simp] theorem State.onCoder_keeps (k : Nat) (f : CoderStream → CoderStream) (h : Keeps P s₀ x) (cv : Covers P ([.smp]) := by simp [*]) :
    Keeps P s₀ (State.onCoder x k f) := by
  simp only [covers_cons, covers_nil, and_true] at cv
  unfold State.onCoder
  split <;> simp (maxDischargeDepth := 60) [h, cv]

@[simp] theorem State.closeSpan_keeps (k : Nat) (gap detach : Bool) (h : Keeps P s₀ x) (cv : Covers P ([.smp, .reg .CDR_EVT, .reg .CDR_FLG]) :=
    by simp [*]) :
    Keeps P s₀ (State.closeSpan x k gap detach) := by
  simp only [covers_cons, covers_nil, and_true] at cv
  unfold State.closeSpan
  split <;> (try split) <;> simp +contextual (maxDischargeDepth := 60) [h, cv]

@[simp] theorem State.pushRec_keeps (r : SRec) (h : Keeps P s₀ x) (cv : Covers P ([.smp]) := by simp [*]) :
    Keeps P s₀ (State.pushRec x r) := by
  simp only [covers_cons, covers_nil, and_true] at cv
  unfold State.pushRec
  simp (maxDischargeDepth := 60) [h, cv]

@[simp] theorem State.pushBlock_keeps (b : Block) (ring grp flags idx : Nat) (set : Option (Nat × Int)) (h : Keeps P s₀ x) (cv : Covers P ([.smp]) :=
    by simp [*]) :
    Keeps P s₀ (State.pushBlock x b ring grp flags idx set) := by
  simp only [covers_cons, covers_nil, and_true] at cv
  unfold State.pushBlock
  simp (maxDischargeDepth := 60) [h, cv]

@[simp] theorem State.emitSet_keeps (id : Nat) (g : Group) (o : OpenSet) (forced : Bool) (h : Keeps P s₀ x) (cv : Covers P ([.smp, .reg .GTH_CNT,
    .reg .GTH_DROP]) := by simp [*]) :
    Keeps P s₀ (State.emitSet x id g o forced) := by
  simp only [covers_cons, covers_nil, and_true] at cv
  unfold State.emitSet
  simp +contextual (maxDischargeDepth := 60) [h, cv]

@[simp] theorem State.emitDue_keeps (id a2 : Nat) (h : Keeps P s₀ x) (cv : Covers P ([.smp, .reg .GTH_CNT, .reg .GTH_DROP]) := by simp [*]) :
    Keeps P s₀ (State.emitDue x id a2) := by
  simp only [covers_cons, covers_nil, and_true] at cv
  revert h
  fun_induction State.emitDue x id a2 <;> intro h <;> (try simp only [Prod.ext_iff] at *) <;> (try subst_vars) <;> simp_all +contextual
      (maxDischargeDepth := 60)

@[simp] theorem State.emitSets_keeps (id : Nat) (h : Keeps P s₀ x) (cv : Covers P ([.smp, .reg .GTH_CNT, .reg .GTH_DROP]) := by simp [*]) :
    Keeps P s₀ (State.emitSets x id) := by
  simp only [covers_cons, covers_nil, and_true] at cv
  unfold State.emitSets
  split <;> simp (maxDischargeDepth := 60) [h, cv]

@[simp] theorem State.memberLeft_keeps (eph : Nat) (h : Keeps P s₀ x) (cv : Covers P ([.smp, .reg .GTH_CNT, .reg .GTH_DROP]) := by simp [*]) :
    Keeps P s₀ (State.memberLeft x eph) := by
  simp only [covers_cons, covers_nil, and_true] at cv
  unfold State.memberLeft
  simp +contextual (maxDischargeDepth := 60) [h, cv]

@[simp] theorem State.emitAll_keeps (h : Keeps P s₀ x) (cv : Covers P ([.smp, .reg .GTH_CNT, .reg .GTH_DROP]) := by simp [*]) :
    Keeps P s₀ (State.emitAll x) := by
  simp only [covers_cons, covers_nil, and_true] at cv
  unfold State.emitAll
  simp +contextual (maxDischargeDepth := 60) [h, cv]

@[simp] theorem State.coderStop_keeps (eph : Nat) (h : Keeps P s₀ x) (cv : Covers P ([.smp, .reg .GTH_CNT, .reg .GTH_DROP, .reg .CDR_EVT, .reg
    .CDR_FLG]) := by simp [*]) :
    Keeps P s₀ (State.coderStop x eph) := by
  simp only [covers_cons, covers_nil, and_true] at cv
  unfold State.coderStop
  simp +contextual (maxDischargeDepth := 60) [h, cv]

end Sys2Proof.Machine
end

