-- ==== Sys2Proof/Laws/KeepsEntries.lean ====
section
/-! SUPPORT. Laws/KeepsEntries.lean: for each function of Machine/Entries.lean, the parts of the state that it leaves as they are. -/

namespace Sys2Proof.Machine

variable {P : Part → Bool} {s₀ x : State}

@[simp] theorem State.boundsBroken_keeps (n : Option Nat) (st : Nat) (h : Keeps P s₀ x) (cv : Covers P ([.out, .rings, .slices, .icu, .reg .MOV_STS,
    .reg .ICU_ERR]) := by simp [*]) :
    Keeps P s₀ (State.boundsBroken x n st) := by
  simp only [covers_cons, covers_nil, and_true] at cv
  unfold State.boundsBroken
  split <;> simp (maxDischargeDepth := 60) [h, cv]

@[simp] theorem State.ctxFail_keeps (eph : Nat) (h : Keeps P s₀ x) (cv : Covers P ([.out, .ctxs, .rings, .icu, .smp, .reg .MOV_STS, .reg .ICU_ERR,
    .reg .GTH_CNT, .reg .GTH_DROP, .reg .CDR_EVT, .reg .CDR_FLG]) := by simp [*]) :
    Keeps P s₀ (State.ctxFail x eph) := by
  simp only [covers_cons, covers_nil, and_true] at cv
  unfold State.ctxFail
  split <;> simp (maxDischargeDepth := 60) [h, cv]

@[simp] theorem State.ctxTouch_keeps (eph : Nat) (h : Keeps P s₀ x) (cv : Covers P ([.ctxs, .cmgr]) := by simp [*]) :
    Keeps P s₀ (State.ctxTouch x eph) := by
  simp only [covers_cons, covers_nil, and_true] at cv
  unfold State.ctxTouch
  simp (maxDischargeDepth := 60) [h, cv]

@[simp] theorem State.pocketPut_keeps (eph : Nat) (b : List Byte) (h : Keeps P s₀ x) (cv : Covers P ([.ctxs, .pool]) := by simp [*]) :
    Keeps P s₀ (State.pocketPut x eph b) := by
  simp only [covers_cons, covers_nil, and_true] at cv
  unfold State.pocketPut
  split
  · dsimp only
    exact State.onCtx_keeps _ _ (h.writeRing (by simp [cv]) _ _ _ _)
  · exact h

@[simp] theorem State.onPocket_keeps (eph : Nat) (f : CtxSlot → CtxSlot) (h : Keeps P s₀ x) (cv : Covers P ([.ctxs, .cmgr]) := by simp [*]) :
    Keeps P s₀ (State.onPocket x eph f) := by
  simp only [covers_cons, covers_nil, and_true] at cv
  unfold State.onPocket
  split <;> (try split) <;> simp +contextual (maxDischargeDepth := 60) [h, cv]

@[simp] theorem State.pocketFree_keeps (eph n : Nat) (h : Keeps P s₀ x) (cv : Covers P ([.ctxs, .cmgr]) := by simp [*]) :
    Keeps P s₀ (State.pocketFree x eph n) := by
  simp only [covers_cons, covers_nil, and_true] at cv
  unfold State.pocketFree
  simp (maxDischargeDepth := 60) [h, cv]

@[simp] theorem State.dirFail_keeps (st : Nat) (h : Keeps P s₀ x) (cv : Covers P ([.out, .rings, .icu, .reg .SCH_CTXCNT, .reg .MOV_STS, .reg
    .ICU_ERR]) := by simp [*]) :
    Keeps P s₀ (State.dirFail x st) := by
  simp only [covers_cons, covers_nil, and_true] at cv
  unfold State.dirFail
  (repeat' split) <;> (try simp only [Prod.ext_iff] at *) <;> (try subst_vars) <;> simp +contextual (maxDischargeDepth := 60) [h, cv]

@[simp] theorem State.fetchStart_keeps (eph : Nat) (h : Keeps P s₀ x) (cv : Covers P ([.cmgr, .reg .SCH_CTXCNT]) := by simp [*]) :
    Keeps P s₀ (State.fetchStart x eph) := by
  simp only [covers_cons, covers_nil, and_true] at cv
  unfold State.fetchStart
  (repeat' split) <;> (try simp only [Prod.ext_iff] at *) <;> (try subst_vars) <;> simp +contextual (maxDischargeDepth := 60) [h, cv]

@[simp] theorem State.endpointEvent_keeps (eph status : Nat) (h : Keeps P s₀ x) (cv : Covers P ([.out, .ctxs, .rings, .icu, .reg .MOV_STS, .reg
    .ICU_ERR]) := by simp [*]) :
    Keeps P s₀ (State.endpointEvent x eph status) := by
  simp only [covers_cons, covers_nil, and_true] at cv
  unfold State.endpointEvent
  split <;> simp (maxDischargeDepth := 60) [h, cv]

@[simp] theorem State.ctxMove_keeps (eph st : Nat) (h : Keeps P s₀ x) (cv : Covers P ([.ctxs, .smp, .reg .GTH_CNT, .reg .GTH_DROP, .reg .CDR_EVT, .reg
    .CDR_FLG]) := by simp [*]) :
    Keeps P s₀ (State.ctxMove x eph st) := by
  simp only [covers_cons, covers_nil, and_true] at cv
  unfold State.ctxMove
  simp (maxDischargeDepth := 60) [h, cv]

@[simp] theorem State.ctxChange_keeps (eph st status : Nat) (h : Keeps P s₀ x) (cv : Covers P ([.out, .ctxs, .rings, .icu, .smp, .reg .MOV_STS, .reg
    .ICU_ERR, .reg .GTH_CNT, .reg .GTH_DROP, .reg .CDR_EVT, .reg .CDR_FLG]) := by simp [*]) :
    Keeps P s₀ (State.ctxChange x eph st status) := by
  simp only [covers_cons, covers_nil, and_true] at cv
  unfold State.ctxChange
  split <;> simp (maxDischargeDepth := 60) [h, cv]

@[simp] theorem State.ctxHalt_keeps (eph status : Nat) (h : Keeps P s₀ x) (cv : Covers P ([.out, .ctxs, .rings, .icu, .smp, .reg .MOV_STS, .reg
    .ICU_ERR, .reg .GTH_CNT, .reg .GTH_DROP, .reg .CDR_EVT, .reg .CDR_FLG]) := by simp [*]) :
    Keeps P s₀ (State.ctxHalt x eph status) := by
  simp only [covers_cons, covers_nil, and_true] at cv
  unfold State.ctxHalt
  split <;> (try split) <;> simp +contextual (maxDischargeDepth := 60) [h, cv]

@[simp] theorem State.trace_keeps (kind frame : Nat) (port sl eph : Option Nat) (cls status ring idx a b c : Nat) (h : Keeps P s₀ x) (cv : Covers P
    ([.out, .rings, .deal, .icu, .reg .MOV_STS, .reg .ICU_ERR]) := by simp [*]) :
    Keeps P s₀ (State.trace x kind frame port sl eph cls status ring idx a b c) := by
  simp only [covers_cons, covers_nil, and_true] at cv
  unfold State.trace
  simp (maxDischargeDepth := 60) [h, cv]

@[simp] theorem State.onEntry_keeps (id : Nat) (f : Entry → Entry) (h : Keeps P s₀ x) (cv : Covers P ([.entries]) := by simp [*]) :
    Keeps P s₀ (State.onEntry x id f) := by
  simp only [covers_cons, covers_nil, and_true] at cv
  unfold State.onEntry
  simp (maxDischargeDepth := 60) [h, cv]

@[simp] theorem State.traceEntry_keeps (kind : Nat) (e : Entry) (status a b c : Nat) (h : Keeps P s₀ x) (cv : Covers P ([.out, .rings, .deal, .icu,
    .reg .MOV_STS, .reg .ICU_ERR]) := by simp [*]) :
    Keeps P s₀ (State.traceEntry x kind e status a b c) := by
  simp only [covers_cons, covers_nil, and_true] at cv
  unfold State.traceEntry
  simp (maxDischargeDepth := 60) [h, cv]

@[simp] theorem State.unlist_keeps (id : Nat) (h : Keeps P s₀ x) (cv : Covers P ([.deal]) := by simp [*]) :
    Keeps P s₀ (State.unlist x id) := by
  simp only [covers_cons, covers_nil, and_true] at cv
  unfold State.unlist
  simp (maxDischargeDepth := 60) [h, cv]

@[simp] theorem State.abandon_keeps (p : Txn → Bool) (h : Keeps P s₀ x) (cv : Covers P ([.txns]) := by simp [*]) :
    Keeps P s₀ (State.abandon x p) := by
  simp only [covers_cons, covers_nil, and_true] at cv
  unfold State.abandon
  simp (maxDischargeDepth := 60) [h, cv]

@[simp] theorem State.offHand_keeps (id : Nat) (h : Keeps P s₀ x) (cv : Covers P ([.deal]) := by simp [*]) :
    Keeps P s₀ (State.offHand x id) := by
  simp only [covers_cons, covers_nil, and_true] at cv
  unfold State.offHand
  (repeat' split) <;> (try simp only [Prod.ext_iff] at *) <;> (try subst_vars) <;> simp +contextual (maxDischargeDepth := 60) [h, cv]

@[simp] theorem State.leavePocket_keeps (e : Entry) (h : Keeps P s₀ x) (cv : Covers P ([.ctxs, .cmgr]) := by simp [*]) :
    Keeps P s₀ (State.leavePocket x e) := by
  simp only [covers_cons, covers_nil, and_true] at cv
  unfold State.leavePocket
  (repeat' split) <;> (try simp only [Prod.ext_iff] at *) <;> (try subst_vars) <;> simp +contextual (maxDischargeDepth := 60) [h, cv]

@[simp] theorem State.finish_keeps (id status : Nat) (h : Keeps P s₀ x) (cv : Covers P ([.ctxs, .cmgr, .txns, .entries, .deal]) := by simp [*]) :
    Keeps P s₀ (State.finish x id status) := by
  simp only [covers_cons, covers_nil, and_true] at cv
  unfold State.finish
  (repeat' split) <;> (try simp only [Prod.ext_iff] at *) <;> (try subst_vars) <;> simp +contextual (maxDischargeDepth := 60) [h, cv]

@[simp] theorem State.finishWhere_keeps (p : Entry → Bool) (status : Nat) (h : Keeps P s₀ x) (cv : Covers P ([.ctxs, .cmgr, .txns, .entries, .deal])
    := by simp [*]) :
    Keeps P s₀ (State.finishWhere x p status) := by
  simp only [covers_cons, covers_nil, and_true] at cv
  unfold State.finishWhere
  simp +contextual (maxDischargeDepth := 60) [h, cv]

@[simp] theorem State.load_keeps (id : Nat) (h : Keeps P s₀ x) (cv : Covers P ([.ctxs, .entries, .pool]) := by simp [*]) :
    Keeps P s₀ (State.load x id) := by
  simp only [covers_cons, covers_nil, and_true] at cv
  unfold State.load
  (repeat' split) <;> (try simp only [Prod.ext_iff] at *) <;> (try subst_vars) <;> simp +contextual (maxDischargeDepth := 60) [h, cv]

@[simp] theorem State.enlist_keeps (e : Entry) (head : Bool) (why : Nat) (h : Keeps P s₀ x) (cv : Covers P ([.out, .ctxs, .rings, .entries, .deal,
    .icu, .pool, .reg .MOV_STS, .reg .ICU_ERR]) := by simp [*]) :
    Keeps P s₀ (State.enlist x e head why) := by
  simp only [covers_cons, covers_nil, and_true] at cv
  unfold State.enlist
  split <;> simp (maxDischargeDepth := 60) [h, cv]

@[simp] theorem State.wantCtx_keeps (e : Entry) (h : Keeps P s₀ x) (cv : Covers P ([.out, .ctxs, .cmgr, .txns, .rings, .entries, .deal, .icu, .reg
    .SCH_CTXCNT, .reg .MOV_STS, .reg .ICU_ERR]) := by simp [*]) :
    Keeps P s₀ (State.wantCtx x e) := by
  simp only [covers_cons, covers_nil, and_true] at cv
  unfold State.wantCtx
  (repeat' split) <;> (try simp only [Prod.ext_iff] at *) <;> (try subst_vars) <;> simp +contextual (maxDischargeDepth := 60) [h, cv]

@[simp] theorem State.holdBack_keeps (e : Entry) (h : Keeps P s₀ x) (cv : Covers P ([.entries, .deal]) := by simp [*]) :
    Keeps P s₀ (State.holdBack x e) := by
  simp only [covers_cons, covers_nil, and_true] at cv
  unfold State.holdBack
  (repeat' split) <;> (try simp only [Prod.ext_iff] at *) <;> (try subst_vars) <;> simp +contextual (maxDischargeDepth := 60) [h, cv]

@[simp] theorem State.judge_keeps (why id : Nat) (h : Keeps P s₀ x) (cv : Covers P ([.out, .ctxs, .cmgr, .txns, .rings, .entries, .deal, .icu, .pool,
    .reg .SCH_CTXCNT, .reg .MOV_STS, .reg .ICU_ERR]) := by simp [*]) :
    Keeps P s₀ (State.judge x why id) := by
  simp only [covers_cons, covers_nil, and_true] at cv
  unfold State.judge
  (repeat' split) <;> (try simp only [Prod.ext_iff] at *) <;> subst_vars <;> simp +contextual (maxDischargeDepth := 60) [h, cv]

@[simp] theorem State.refreshWaiting_keeps (why : Entry → Nat) (h : Keeps P s₀ x) (cv : Covers P ([.out, .ctxs, .cmgr, .txns, .rings, .entries, .deal,
    .icu, .pool, .reg .SCH_CTXCNT, .reg .MOV_STS, .reg .ICU_ERR]) := by simp [*]) :
    Keeps P s₀ (State.refreshWaiting x why) := by
  simp only [covers_cons, covers_nil, and_true] at cv
  unfold State.refreshWaiting
  simp +contextual (maxDischargeDepth := 60) [h, cv]

@[simp] theorem State.eventTake1_keeps (eph : Nat) (h : Keeps P s₀ x) (cv : Covers P ([.ctxs, .cmgr, .txns, .entries, .deal]) := by simp [*]) :
    Keeps P s₀ (State.eventTake1 x eph) := by
  simp only [covers_cons, covers_nil, and_true] at cv
  unfold State.eventTake1
  split <;> (try split) <;> simp +contextual (maxDischargeDepth := 60) [h, cv]

@[simp] theorem State.refreshBy_keeps (why : Entry → Nat) (h : Keeps P s₀ x) (cv : Covers P ([.out, .ctxs, .cmgr, .txns, .rings, .entries, .deal,
    .icu, .pool, .reg .SCH_CTXCNT, .reg .MOV_STS, .reg .ICU_ERR]) := by simp [*]) :
    Keeps P s₀ (State.refreshBy x why) := by
  simp only [covers_cons, covers_nil, and_true] at cv
  unfold State.refreshBy
  simp +contextual (maxDischargeDepth := 60) [h, cv]

@[simp] theorem State.refresh_keeps (why : Nat) (h : Keeps P s₀ x) (cv : Covers P ([.out, .ctxs, .cmgr, .txns, .rings, .entries, .deal, .icu, .pool,
    .reg .SCH_CTXCNT, .reg .MOV_STS, .reg .ICU_ERR]) := by simp [*]) :
    Keeps P s₀ (State.refresh x why) := by
  simp only [covers_cons, covers_nil, and_true] at cv
  unfold State.refresh
  simp (maxDischargeDepth := 60) [h, cv]

@[simp] theorem State.pocketDrop_keeps (eph : Nat) (h : Keeps P s₀ x) (cv : Covers P ([.ctxs]) := by simp [*]) :
    Keeps P s₀ (State.pocketDrop x eph) := by
  simp only [covers_cons, covers_nil, and_true] at cv
  unfold State.pocketDrop
  (repeat' split) <;> (try simp only [Prod.ext_iff] at *) <;> (try subst_vars) <;> simp +contextual (maxDischargeDepth := 60) [h, cv]

@[simp] theorem State.ctxApply_keeps (eph : Nat) (v : CtxEvent) (quiet : Bool) (h : Keeps P s₀ x) (cv : Covers P ([.out, .ctxs, .rings, .icu, .smp,
    .reg .MOV_STS, .reg .ICU_ERR, .reg .GTH_CNT, .reg .GTH_DROP, .reg .CDR_EVT, .reg .CDR_FLG]) := by simp [*]) :
    Keeps P s₀ (State.ctxApply x eph v quiet) := by
  simp only [covers_cons, covers_nil, and_true] at cv
  unfold State.ctxApply
  (repeat' split) <;> (try simp only [Prod.ext_iff] at *) <;> (try subst_vars) <;> simp +contextual (maxDischargeDepth := 60) [h, cv]

@[simp] theorem State.ctxAll_keeps (v : CtxEvent) (quiet : optParam Bool false) (h : Keeps P s₀ x) (cv : Covers P ([.out, .ctxs, .cmgr, .rings, .icu,
    .smp, .reg .MOV_STS, .reg .ICU_ERR, .reg .GTH_CNT, .reg .GTH_DROP, .reg .CDR_EVT, .reg .CDR_FLG]) := by simp [*]) :
    Keeps P s₀ (State.ctxAll x v quiet) := by
  simp only [covers_cons, covers_nil, and_true] at cv
  unfold State.ctxAll
  simp +contextual (maxDischargeDepth := 60) [h, cv]

@[simp] theorem State.busReset_keeps (port route depth : Nat) (h : Keeps P s₀ x) (cv : Covers P ([.out, .ctxs, .cmgr, .txns, .rings, .entries, .deal,
    .icu, .pool, .smp, .reg .SCH_CTXCNT, .reg .MOV_STS, .reg .ICU_ERR, .reg .GTH_CNT, .reg .GTH_DROP, .reg .CDR_EVT, .reg .CDR_FLG]) := by simp [*]) :
    Keeps P s₀ (State.busReset x port route depth) := by
  simp only [covers_cons, covers_nil, and_true] at cv
  unfold State.busReset
  simp (maxDischargeDepth := 60) [h, cv]

@[simp] theorem State.subtreeGone_keeps (port route depth : Nat) (quiet : optParam Bool false) (h : Keeps P s₀ x) (cv : Covers P ([.out, .ctxs, .cmgr,
    .txns, .rings, .entries, .deal, .icu, .pool, .smp, .reg .SCH_CTXCNT, .reg .MOV_STS, .reg .ICU_ERR, .reg .GTH_CNT, .reg .GTH_DROP, .reg .CDR_EVT,
    .reg .CDR_FLG]) := by simp [*]) :
    Keeps P s₀ (State.subtreeGone x port route depth quiet) := by
  simp only [covers_cons, covers_nil, and_true] at cv
  unfold State.subtreeGone
  simp (maxDischargeDepth := 60) [h, cv]

end Sys2Proof.Machine
end

