-- ==== Sys2Proof/Laws/KeepsPowerBase.lean ====
section
/-! SUPPORT. Laws/KeepsPowerBase.lean: for each function of Machine/PowerBase.lean, the parts of the state that it leaves as they are. -/

namespace Sys2Proof.Machine

variable {P : Part → Bool} {s₀ x : State}

@[simp] theorem State.onPwr_keeps (f : Power → Power) (h : Keeps P s₀ x) (cv : Covers P ([.pwr]) := by simp [*]) :
    Keeps P s₀ (State.onPwr x f) := by
  simp only [covers_cons, covers_nil, and_true] at cv
  unfold State.onPwr
  simp (maxDischargeDepth := 60) [h, cv]

@[simp] theorem State.powerEvent_keeps (what id left target lat : Nat) (h : Keeps P s₀ x) (cv : Covers P ([.out, .rings, .icu, .pwr, .reg .MOV_STS,
    .reg .ICU_ERR]) := by simp [*]) :
    Keeps P s₀ (State.powerEvent x what id left target lat) := by
  simp only [covers_cons, covers_nil, and_true] at cv
  unfold State.powerEvent
  simp (maxDischargeDepth := 60) [h, cv]

@[simp] theorem State.powerFlush_keeps (h : Keeps P s₀ x) (cv : Covers P ([.out, .rings, .icu, .pwr, .reg .MOV_STS, .reg .ICU_ERR]) := by simp [*]) :
    Keeps P s₀ (State.powerFlush x) := by
  simp only [covers_cons, covers_nil, and_true] at cv
  unfold State.powerFlush
  simp +contextual (maxDischargeDepth := 60) [h, cv]

@[simp] theorem State.policyEvent_keeps (typ policy code object adv : Nat) (h : Keeps P s₀ x) (cv : Covers P ([.out, .rings, .icu, .reg .MOV_STS, .reg
    .ICU_ERR]) := by simp [*]) :
    Keeps P s₀ (State.policyEvent x typ policy code object adv) := by
  simp only [covers_cons, covers_nil, and_true] at cv
  unfold State.policyEvent
  simp (maxDischargeDepth := 60) [h, cv]

@[simp] theorem State.policyReport_keeps (policy code object : Nat) (h : Keeps P s₀ x) (cv : Covers P ([.out, .rings, .icu, .reg .MOV_STS, .reg
    .ICU_ERR]) := by simp [*]) :
    Keeps P s₀ (State.policyReport x policy code object) := by
  simp only [covers_cons, covers_nil, and_true] at cv
  unfold State.policyReport
  simp (maxDischargeDepth := 60) [h, cv]

@[simp] theorem State.policyAction_keeps (policy code object : Nat) (h : Keeps P s₀ x) (cv : Covers P ([.out, .rings, .icu, .reg .GCTL_POLICY_STS,
    .reg .MOV_STS, .reg .ICU_ERR]) := by simp [*]) :
    Keeps P s₀ (State.policyAction x policy code object) := by
  simp only [covers_cons, covers_nil, and_true] at cv
  unfold State.policyAction
  simp (maxDischargeDepth := 60) [h, cv]

@[simp] theorem State.policyRead_keeps (h : Keeps P s₀ x) (cv : Covers P ([.out, .pol, .rings, .icu, .reg .MOV_STS, .reg .ICU_ERR]) := by simp [*]) :
    Keeps P s₀ (State.policyRead x) := by
  simp only [covers_cons, covers_nil, and_true] at cv
  unfold State.policyRead
  simp (maxDischargeDepth := 60) [h, cv]

@[simp] theorem State.advise_keeps (policy code object : Nat) (h : Keeps P s₀ x) (cv : Covers P ([.out, .pol, .rings, .icu, .reg .MOV_STS, .reg
    .ICU_ERR]) := by simp [*]) :
    Keeps P s₀ (State.advise x policy code object) := by
  simp only [covers_cons, covers_nil, and_true] at cv
  unfold State.advise
  simp (maxDischargeDepth := 60) [h, cv]

@[simp] theorem State.overtake_keeps (policy object : Nat) (h : Keeps P s₀ x) (cv : Covers P ([.pol]) := by simp [*]) :
    Keeps P s₀ (State.overtake x policy object) := by
  simp only [covers_cons, covers_nil, and_true] at cv
  unfold State.overtake
  simp (maxDischargeDepth := 60) [h, cv]

@[simp] theorem State.rollback_keeps (k : Nat) (h : Keeps P s₀ x) (cv : Covers P ([.pwr, .reg .PWR_STS]) := by simp [*]) :
    Keeps P s₀ (State.rollback x k) := by
  simp only [covers_cons, covers_nil, and_true] at cv
  unfold State.rollback
  simp (maxDischargeDepth := 60) [h, cv]

@[simp] theorem State.lateRefusal_keeps (id : Nat) (h : Keeps P s₀ x) (cv : Covers P ([.out, .rings, .icu, .pwr, .reg .MOV_STS, .reg .ICU_ERR, .reg
    .PWR_STS, .reg .PWR_EVT, .reg .PWR_WAKE, .reg .PWR_RCNT]) := by simp [*]) :
    Keeps P s₀ (State.lateRefusal x id) := by
  simp only [covers_cons, covers_nil, and_true] at cv
  unfold State.lateRefusal
  split <;> (try split) <;> simp +contextual (maxDischargeDepth := 60) [h, cv]

@[simp] theorem State.startExit_keeps (id seen port : Nat) (h : Keeps P s₀ x) (cv : Covers P ([.out, .pwr, .reg .PWR_STS, .reg .PWR_WAKE]) := by
    simp [*]) :
    Keeps P s₀ (State.startExit x id seen port) := by
  simp only [covers_cons, covers_nil, and_true] at cv
  unfold State.startExit
  simp (maxDischargeDepth := 60) [h, cv]

@[simp] theorem State.wake_keeps (id seen port : Nat) (h : Keeps P s₀ x) (cv : Covers P ([.out, .pwr, .reg .PWR_STS, .reg .PWR_WAKE]) := by simp
    [*]) :
    Keeps P s₀ (State.wake x id seen port) := by
  simp only [covers_cons, covers_nil, and_true] at cv
  unfold State.wake
  simp (maxDischargeDepth := 60) [h, cv]

@[simp] theorem State.treeWake_keeps (n : Nat) (h : Keeps P s₀ x) (cv : Covers P ([.out, .pwr, .reg .PWR_STS, .reg .PWR_WAKE]) := by simp [*]) :
    Keeps P s₀ (State.treeWake x n) := by
  simp only [covers_cons, covers_nil, and_true] at cv
  unfold State.treeWake
  simp (maxDischargeDepth := 60) [h, cv]

end Sys2Proof.Machine
end

