-- ==== Sys2Proof/Laws/KeepsLink.lean ====
section
/-! SUPPORT. Laws/KeepsLink.lean: for each function of Machine/Link.lean, the parts of the state that it leaves as they are. -/

namespace Sys2Proof.Machine

variable {P : Part → Bool} {s₀ x : State}

@[simp] theorem State.putOn_keeps (l : LinkEndId) (p : BusPkt) (h : Keeps P s₀ x) (cv : Covers P ([.out]) := by simp [*]) :
    Keeps P s₀ (State.putOn x l p) := by
  simp only [covers_cons, covers_nil, and_true] at cv
  unfold State.putOn
  (repeat' split) <;> (try simp only [Prod.ext_iff] at *) <;> (try subst_vars) <;> simp +contextual (maxDischargeDepth := 60) [h, cv]

@[simp] theorem State.launch_keeps (l : LinkEndId) (x_ : Int) (a3 : Nat) (a4 : List Kept) (h : Keeps P s₀ x) (cv : Covers P ([.out, .links]) := by
    simp [*]) :
    Keeps P s₀ (State.launch x l x_ a3 a4) := by
  simp only [covers_cons, covers_nil, and_true] at cv
  revert h
  fun_induction State.launch x l x_ a3 a4 <;> intro h <;> (try simp only [Prod.ext_iff] at *) <;> (try subst_vars) <;> simp_all +contextual
      (maxDischargeDepth := 60)

@[simp] theorem State.sendOne_keeps (l : LinkEndId) (p : BusPkt) (x_ : Int) (h : Keeps P s₀ x) (cv : Covers P ([.out, .links]) := by simp [*]) :
    Keeps P s₀ (State.sendOne x l p x_) := by
  simp only [covers_cons, covers_nil, and_true] at cv
  unfold State.sendOne
  (repeat' split) <;> (try simp only [Prod.ext_iff] at *) <;> (try subst_vars) <;> simp +contextual (maxDischargeDepth := 60) [h, cv]

@[simp] theorem State.push_keeps (l : LinkEndId) (bytes : Nat) (base : Int) (p : Nat → BusPkt) (h : Keeps P s₀ x) (cv : Covers P ([.out, .links])
    := by simp [*]) :
    Keeps P s₀ (State.push x l bytes base p) := by
  simp only [covers_cons, covers_nil, and_true] at cv
  unfold State.push
  simp (maxDischargeDepth := 60) [h, cv]

@[simp] theorem State.departed_keeps (l : LinkEndId) (p : Pkt) (h : Keeps P s₀ x) (cv : Covers P ([.txns]) := by simp [*]) :
    Keeps P s₀ (State.departed x l p) := by
  simp only [covers_cons, covers_nil, and_true] at cv
  unfold State.departed
  (repeat' split) <;> (try simp only [Prod.ext_iff] at *) <;> (try subst_vars) <;> simp +contextual (maxDischargeDepth := 60) [h, cv]

@[simp] theorem State.pushPkt_keeps (l : LinkEndId) (p : Pkt) (h : Keeps P s₀ x) (cv : Covers P ([.out, .links, .txns]) := by simp [*]) :
    Keeps P s₀ (State.pushPkt x l p) := by
  simp only [covers_cons, covers_nil, and_true] at cv
  unfold State.pushPkt
  (repeat' split) <;> (try simp only [Prod.ext_iff] at *) <;> (try subst_vars) <;> simp +contextual (maxDischargeDepth := 60) [h, cv]

@[simp] theorem State.drainQueue_keeps (l : LinkEndId) (off : Nat) (a4 : Nat) (h : Keeps P s₀ x) (cv : Covers P ([.out, .links, .txns]) := by simp
    [*]) :
    Keeps P s₀ (State.drainQueue x l off a4) := by
  simp only [covers_cons, covers_nil, and_true] at cv
  revert h
  fun_induction State.drainQueue x l off a4 <;> intro h <;> (try simp only [Prod.ext_iff] at *) <;> (try subst_vars) <;> simp_all +contextual
      (maxDischargeDepth := 60)

@[simp] theorem State.drainFrom_keeps (l : LinkEndId) (off : Nat) (h : Keeps P s₀ x) (cv : Covers P ([.out, .links, .txns]) := by simp [*]) :
    Keeps P s₀ (State.drainFrom x l off) := by
  simp only [covers_cons, covers_nil, and_true] at cv
  unfold State.drainFrom
  simp (maxDischargeDepth := 60) [h, cv]

@[simp] theorem State.drain_keeps (l : LinkEndId) (h : Keeps P s₀ x) (cv : Covers P ([.out, .links, .txns]) := by simp [*]) :
    Keeps P s₀ (State.drain x l) := by
  simp only [covers_cons, covers_nil, and_true] at cv
  unfold State.drain
  simp (maxDischargeDepth := 60) [h, cv]

@[simp] theorem State.launchAll_keeps (l : LinkEndId) (x_ : Int) (off : Nat) (ks : List Kept) (h : Keeps P s₀ x) (cv : Covers P ([.out, .links,
    .txns]) := by simp [*]) :
    Keeps P s₀ (State.launchAll x l x_ off ks) := by
  simp only [covers_cons, covers_nil, and_true] at cv
  unfold State.launchAll
  simp (maxDischargeDepth := 60) [h, cv]

@[simp] theorem State.sendPkts_keeps (l : LinkEndId) (ps : List Pkt) (h : Keeps P s₀ x) (cv : Covers P ([.out, .links, .txns]) := by simp [*]) :
    Keeps P s₀ (State.sendPkts x l ps) := by
  simp only [covers_cons, covers_nil, and_true] at cv
  unfold State.sendPkts
  (repeat' split) <;> (try simp only [Prod.ext_iff] at *) <;> (try subst_vars) <;> simp +contextual (maxDischargeDepth := 60) [h, cv]

@[simp] theorem State.sendPkt_keeps (l : LinkEndId) (p : Pkt) (h : Keeps P s₀ x) (cv : Covers P ([.out, .links, .txns]) := by simp [*]) :
    Keeps P s₀ (State.sendPkt x l p) := by
  simp only [covers_cons, covers_nil, and_true] at cv
  unfold State.sendPkt
  simp (maxDischargeDepth := 60) [h, cv]

@[simp] theorem State.sendFrame_keeps (l : LinkEndId) (f : FrameBody) (base x_ : Int) (h : Keeps P s₀ x) (cv : Covers P ([.out, .links]) := by simp
    [*]) :
    Keeps P s₀ (State.sendFrame x l f base x_) := by
  simp only [covers_cons, covers_nil, and_true] at cv
  unfold State.sendFrame
  simp (maxDischargeDepth := 60) [h, cv]

@[simp] theorem State.release_keeps (l : LinkEndId) (x_ : Int) (off : Nat) (h : Keeps P s₀ x) (cv : Covers P ([.out, .links, .txns]) := by simp
    [*]) :
    Keeps P s₀ (State.release x l x_ off) := by
  simp only [covers_cons, covers_nil, and_true] at cv
  unfold State.release
  (repeat' split) <;> (try simp only [Prod.ext_iff] at *) <;> (try subst_vars) <;> simp +contextual (maxDischargeDepth := 60) [h, cv]

@[simp] theorem State.sendCtl_keeps (l : LinkEndId) (typ seq arg frameNo : Nat) (h : Keeps P s₀ x) (cv : Covers P ([.out, .links]) := by simp [*]) :
    Keeps P s₀ (State.sendCtl x l typ seq arg frameNo) := by
  simp only [covers_cons, covers_nil, and_true] at cv
  unfold State.sendCtl
  simp (maxDischargeDepth := 60) [h, cv]

@[simp] theorem State.ackKept_keeps (l : LinkEndId) (seq : Nat) (h : Keeps P s₀ x) (cv : Covers P ([.out, .links, .txns]) := by simp [*]) :
    Keeps P s₀ (State.ackKept x l seq) := by
  simp only [covers_cons, covers_nil, and_true] at cv
  unfold State.ackKept
  simp (maxDischargeDepth := 60) [h, cv]

@[simp] theorem State.dropReplay_keeps (l : LinkEndId) (h : Keeps P s₀ x) (cv : Covers P ([.links]) := by simp [*]) :
    Keeps P s₀ (State.dropReplay x l) := by
  simp only [covers_cons, covers_nil, and_true] at cv
  unfold State.dropReplay
  (repeat' split) <;> (try simp only [Prod.ext_iff] at *) <;> (try subst_vars) <;> simp +contextual (maxDischargeDepth := 60) [h, cv]

@[simp] theorem State.resend_keeps (l : LinkEndId) (seq : Nat) (tTx : Int) (h : Keeps P s₀ x) (cv : Covers P ([.out, .links, .txns]) := by simp
    [*]) :
    Keeps P s₀ (State.resend x l seq tTx) := by
  simp only [covers_cons, covers_nil, and_true] at cv
  unfold State.resend
  simp (maxDischargeDepth := 60) [h, cv]

@[simp] theorem State.resendAll_keeps (l : LinkEndId) (tTx : Int) (h : Keeps P s₀ x) (cv : Covers P ([.out, .links, .txns]) := by simp [*]) :
    Keeps P s₀ (State.resendAll x l tTx) := by
  simp only [covers_cons, covers_nil, and_true] at cv
  unfold State.resendAll
  simp (maxDischargeDepth := 60) [h, cv]

@[simp] theorem State.countReplay_keeps (l : LinkEndId) (h : Keeps P s₀ x) (cv : Covers P ([.reg .PRT_RETRY]) := by simp [*]) :
    Keeps P s₀ (State.countReplay x l) := by
  simp only [covers_cons, covers_nil, and_true] at cv
  unfold State.countReplay
  split <;> simp (maxDischargeDepth := 60) [h, cv]

@[simp] theorem State.replay_keeps (l : LinkEndId) (seq : Nat) (tTx : Int) (h : Keeps P s₀ x) (cv : Covers P ([.out, .links, .txns, .reg
    .PRT_RETRY]) := by simp [*]) :
    Keeps P s₀ (State.replay x l seq tTx) := by
  simp only [covers_cons, covers_nil, and_true] at cv
  unfold State.replay
  simp (maxDischargeDepth := 60) [h, cv]

@[simp] theorem State.onDelay_keeps (d up : Nat) (f : Delay → Delay) (h : Keeps P s₀ x) (cv : Covers P ([.devs]) := by simp [*]) :
    Keeps P s₀ (State.onDelay x d up f) := by
  simp only [covers_cons, covers_nil, and_true] at cv
  unfold State.onDelay
  simp (maxDischargeDepth := 60) [h, cv]

@[simp] theorem State.sendUp_keeps (d : Nat) (p : Pkt) (h : Keeps P s₀ x) (cv : Covers P ([.out, .links, .txns]) := by simp [*]) :
    Keeps P s₀ (State.sendUp x d p) := by
  simp only [covers_cons, covers_nil, and_true] at cv
  unfold State.sendUp
  split <;> simp (maxDischargeDepth := 60) [h, cv]

@[simp] theorem State.sendDelayReq_keeps (d up : Nat) (t1 : Int) (h : Keeps P s₀ x) (cv : Covers P ([.out, .links, .devs]) := by simp [*]) :
    Keeps P s₀ (State.sendDelayReq x d up t1) := by
  simp only [covers_cons, covers_nil, and_true] at cv
  unfold State.sendDelayReq
  simp (maxDischargeDepth := 60) [h, cv]

@[simp] theorem State.upFlush_keeps (d a2 : Nat) (h : Keeps P s₀ x) (cv : Covers P ([.out, .links, .devs, .txns]) := by simp [*]) :
    Keeps P s₀ (State.upFlush x d a2) := by
  simp only [covers_cons, covers_nil, and_true] at cv
  revert h
  fun_induction State.upFlush x d a2 <;> intro h <;> (try simp only [Prod.ext_iff] at *) <;> (try subst_vars) <;> simp_all +contextual
      (maxDischargeDepth := 60)

@[simp] theorem State.onUpq_keeps (d : Nat) (f : List (Nat × Option Pkt) → List (Nat × Option Pkt)) (h : Keeps P s₀ x) (cv : Covers P ([.out,
    .links, .devs, .txns]) := by simp [*]) :
    Keeps P s₀ (State.onUpq x d f) := by
  simp only [covers_cons, covers_nil, and_true] at cv
  unfold State.onUpq
  (repeat' split) <;> (try simp only [Prod.ext_iff] at *) <;> (try subst_vars) <;> simp +contextual (maxDischargeDepth := 60) [h, cv]

@[simp] theorem State.dropTicket_keeps (l : LinkEndId) (h : Keeps P s₀ x) (cv : Covers P ([.out, .links, .devs, .txns]) := by simp [*]) :
    Keeps P s₀ (State.dropTicket x l) := by
  simp only [covers_cons, covers_nil, and_true] at cv
  unfold State.dropTicket
  (repeat' split) <;> (try simp only [Prod.ext_iff] at *) <;> (try subst_vars) <;> simp +contextual (maxDischargeDepth := 60) [h, cv]

@[simp] theorem State.sendCaps_keeps (l : LinkEndId) (h : Keeps P s₀ x) (cv : Covers P ([.out, .links]) := by simp [*]) :
    Keeps P s₀ (State.sendCaps x l) := by
  simp only [covers_cons, covers_nil, and_true] at cv
  unfold State.sendCaps
  simp (maxDischargeDepth := 60) [h, cv]

@[simp] theorem State.endDown_keeps (l : LinkEndId) (h : Keeps P s₀ x) (cv : Covers P ([.out, .links, .devs, .txns]) := by simp [*]) :
    Keeps P s₀ (State.endDown x l) := by
  simp only [covers_cons, covers_nil, and_true] at cv
  unfold State.endDown
  (repeat' split) <;> (try simp only [Prod.ext_iff] at *) <;> (try subst_vars) <;> simp +contextual (maxDischargeDepth := 60) [h, cv]

@[simp] theorem State.trainAt_keeps (l : LinkEndId) (r : Nat) (h : Keeps P s₀ x) (cv : Covers P ([.out, .links, .devs, .txns]) := by simp [*]) :
    Keeps P s₀ (State.trainAt x l r) := by
  simp only [covers_cons, covers_nil, and_true] at cv
  unfold State.trainAt
  (repeat' split) <;> (try simp only [Prod.ext_iff] at *) <;> (try subst_vars) <;> simp +contextual (maxDischargeDepth := 60) [h, cv]

@[simp] theorem State.train_keeps (l : LinkEndId) (h : Keeps P s₀ x) (cv : Covers P ([.out, .links, .devs, .txns]) := by simp [*]) :
    Keeps P s₀ (State.train x l) := by
  simp only [covers_cons, covers_nil, and_true] at cv
  unfold State.train
  simp (maxDischargeDepth := 60) [h, cv]

@[simp] theorem State.endFresh_keeps (l : LinkEndId) (h : Keeps P s₀ x) (cv : Covers P ([.out, .links, .devs, .txns]) := by simp [*]) :
    Keeps P s₀ (State.endFresh x l) := by
  simp only [covers_cons, covers_nil, and_true] at cv
  unfold State.endFresh
  simp (maxDischargeDepth := 60) [h, cv]

@[simp] theorem State.endUp_keeps (l : LinkEndId) (peerSeq peerArg : Nat) (tTx : Int) (h : Keeps P s₀ x) (cv : Covers P ([.out, .links, .txns]) :=
    by simp [*]) :
    Keeps P s₀ (State.endUp x l peerSeq peerArg tTx) := by
  simp only [covers_cons, covers_nil, and_true] at cv
  unfold State.endUp
  simp (maxDischargeDepth := 60) [h, cv]

@[simp] theorem State.startCtl_keeps (l : LinkEndId) (typ t : Nat) (h : Keeps P s₀ x) (cv : Covers P ([.out, .links]) := by simp [*]) :
    Keeps P s₀ (State.startCtl x l typ t) := by
  simp only [covers_cons, covers_nil, and_true] at cv
  unfold State.startCtl
  split <;> (try split) <;> simp +contextual (maxDischargeDepth := 60) [h, cv]

@[simp] theorem State.stopCtl_keeps (l : LinkEndId) (typ : Nat) (h : Keeps P s₀ x) (cv : Covers P ([.links]) := by simp [*]) :
    Keeps P s₀ (State.stopCtl x l typ) := by
  simp only [covers_cons, covers_nil, and_true] at cv
  unfold State.stopCtl
  simp (maxDischargeDepth := 60) [h, cv]

@[simp] theorem State.echoTaken_keeps (l : LinkEndId) (typ t : Nat) (h : Keeps P s₀ x) (cv : Covers P ([.links]) := by simp [*]) :
    Keeps P s₀ (State.echoTaken x l typ t) := by
  simp only [covers_cons, covers_nil, and_true] at cv
  unfold State.echoTaken
  simp (maxDischargeDepth := 60) [h, cv]

@[simp] theorem State.echo_keeps (l : LinkEndId) (typ t : Nat) (again : Bool) (h : Keeps P s₀ x) (cv : Covers P ([.out, .links]) := by simp [*]) :
    Keeps P s₀ (State.echo x l typ t again) := by
  simp only [covers_cons, covers_nil, and_true] at cv
  unfold State.echo
  simp (maxDischargeDepth := 60) [h, cv]

end Sys2Proof.Machine
end

