-- ==== Sys2Proof/Laws/KeepsTwinBase.lean ====
section
/-! SUPPORT. Laws/KeepsTwinBase.lean: for each function of Machine/TwinBase.lean, the parts of the state that it leaves as they are. -/

namespace Sys2Proof.Machine

variable {P : Part → Bool} {s₀ x : State}

@[simp] theorem State.onTwin_keeps (f : Twin → Twin) (h : Keeps P s₀ x) (cv : Covers P ([.twin]) := by simp [*]) :
    Keeps P s₀ (State.onTwin x f) := by
  simp only [covers_cons, covers_nil, and_true] at cv
  unfold State.onTwin
  simp (maxDischargeDepth := 60) [h, cv]

@[simp] theorem State.onTree_keeps (n : Nat) (f : TwinTree → TwinTree) (h : Keeps P s₀ x) (cv : Covers P ([.twin]) := by simp [*]) :
    Keeps P s₀ (State.onTree x n f) := by
  simp only [covers_cons, covers_nil, and_true] at cv
  unfold State.onTree
  simp (maxDischargeDepth := 60) [h, cv]

@[simp] theorem State.twinDrain_keeps (a1 : Nat) (h : Keeps P s₀ x) (cv : Covers P ([.out, .twin]) := by simp [*]) :
    Keeps P s₀ (State.twinDrain x a1) := by
  simp only [covers_cons, covers_nil, and_true] at cv
  revert h
  fun_induction State.twinDrain x a1 <;> intro h <;> (try simp only [Prod.ext_iff] at *) <;> (try subst_vars) <;> simp_all +contextual
      (maxDischargeDepth := 60)

@[simp] theorem State.twinSend_keeps (kind : Nat) (payload : List Byte) (h : Keeps P s₀ x) (cv : Covers P ([.out, .twin]) := by simp [*]) :
    Keeps P s₀ (State.twinSend x kind payload) := by
  simp only [covers_cons, covers_nil, and_true] at cv
  unfold State.twinSend
  simp (maxDischargeDepth := 60) [h, cv]

@[simp] theorem State.twinEvent_keeps (what code port high : Nat) (h : Keeps P s₀ x) (cv : Covers P ([.out, .rings, .icu, .reg .MOV_STS, .reg
    .ICU_ERR]) := by simp [*]) :
    Keeps P s₀ (State.twinEvent x what code port high) := by
  simp only [covers_cons, covers_nil, and_true] at cv
  unfold State.twinEvent
  simp (maxDischargeDepth := 60) [h, cv]

@[simp] theorem State.mirrorSend_keeps (mkind eph toggle status time : Nat) (late : Bool) (data : List Byte) (h : Keeps P s₀ x) (cv : Covers P
    ([.out, .twin]) := by simp [*]) :
    Keeps P s₀ (State.mirrorSend x mkind eph toggle status time late data) := by
  simp only [covers_cons, covers_nil, and_true] at cv
  unfold State.mirrorSend
  simp (maxDischargeDepth := 60) [h, cv]

@[simp] theorem State.mirrorIntent_keeps (eph toggle execAt : Nat) (data : List Byte) (h : Keeps P s₀ x) (cv : Covers P ([.out, .twin]) := by
    simp [*]) :
    Keeps P s₀ (State.mirrorIntent x eph toggle execAt data) := by
  simp only [covers_cons, covers_nil, and_true] at cv
  unfold State.mirrorIntent
  simp (maxDischargeDepth := 60) [h, cv]

@[simp] theorem State.mirrorDone_keeps (eph toggle status stamp : Nat) (late : Bool) (h : Keeps P s₀ x) (cv : Covers P ([.out, .twin]) := by simp
    [*]) :
    Keeps P s₀ (State.mirrorDone x eph toggle status stamp late) := by
  simp only [covers_cons, covers_nil, and_true] at cv
  unfold State.mirrorDone
  simp (maxDischargeDepth := 60) [h, cv]

end Sys2Proof.Machine
end

