-- ==== Sys2Proof/Laws/KeepsPort.lean ====
section
/-! SUPPORT. Laws/KeepsPort.lean: for each function of Machine/Port.lean, the parts of the state that it leaves as they are. -/

namespace Sys2Proof.Machine

variable {P : Part → Bool} {s₀ x : State}

@[simp] theorem State.sharedShown_keeps (n : Nat) (was : Bool) (h : Keeps P s₀ x) (cv : Covers P ([.out, .ctxs, .cmgr, .rings, .icu, .smp, .reg
    .MOV_STS, .reg .ICU_ERR, .reg .GTH_CNT, .reg .GTH_DROP, .reg .CDR_EVT, .reg .CDR_FLG]) := by simp [*]) :
    Keeps P s₀ (State.sharedShown x n was) := by
  simp only [covers_cons, covers_nil, and_true] at cv
  unfold State.sharedShown
  simp (maxDischargeDepth := 60) [h, cv]

@[simp] theorem State.putState_keeps (p : PortId) (st : Nat) (h : Keeps P s₀ x) (cv : Covers P ([.reg .PRT_STS]) := by simp [*]) :
    Keeps P s₀ (State.putState x p st) := by
  simp only [covers_cons, covers_nil, and_true] at cv
  unfold State.putState
  simp (maxDischargeDepth := 60) [h, cv]

@[simp] theorem State.change_keeps (p : PortId) (bits : List Fld) (h : Keeps P s₀ x) (cv : Covers P ([.out, .devs, .rings, .icu, .reg .MOV_STS, .reg
    .ICU_ERR] ++ (bits.map fun f => Part.reg f.reg)) := by simp [*]) :
    Keeps P s₀ (State.change x p bits) := by
  simp only [covers_cons, covers_nil, covers_append, covers_regs, and_true] at cv
  unfold State.change
  have h1 : Keeps P s₀ (bits.foldl (fun s f => s.raiseN f p.code) x) :=
    keeps_foldl_mem _ h fun y f m hy => State.raiseN_keeps _ _ hy (by simp [covers_map.1 cv.2 f m])
  split
  · exact h
  · cases p <;> simp (maxDischargeDepth := 60) [h1, cv]

@[simp] theorem State.refuseCmd_keeps (p : PortId) (h : Keeps P s₀ x) (cv : Covers P ([.out, .devs, .rings, .icu, .reg .PRT_CHG, .reg .MOV_STS, .reg
    .ICU_ERR]) := by simp [*]) :
    Keeps P s₀ (State.refuseCmd x p) := by
  simp only [covers_cons, covers_nil, and_true] at cv
  unfold State.refuseCmd
  simp (maxDischargeDepth := 60) [h, cv]

@[simp] theorem State.showRate_keeps (p : PortId) (h : Keeps P s₀ x) (cv : Covers P ([.reg .PRT_STS]) := by simp [*]) :
    Keeps P s₀ (State.showRate x p) := by
  simp only [covers_cons, covers_nil, and_true] at cv
  unfold State.showRate
  simp (maxDischargeDepth := 60) [h, cv]

@[simp] theorem State.cmdsDone_keeps (p : CmdRec → Bool) (status result : Nat) (h : Keeps P s₀ x) (cv : Covers P ([.cmds]) := by simp [*]) :
    Keeps P s₀ (State.cmdsDone x p status result) := by
  simp only [covers_cons, covers_nil, and_true] at cv
  unfold State.cmdsDone
  simp (maxDischargeDepth := 60) [h, cv]

@[simp] theorem State.rateCmd_keeps (p : PortId) (status result : Nat) (h : Keeps P s₀ x) (cv : Covers P ([.cmds]) := by simp [*]) :
    Keeps P s₀ (State.rateCmd x p status result) := by
  simp only [covers_cons, covers_nil, and_true] at cv
  unfold State.rateCmd
  simp (maxDischargeDepth := 60) [h, cv]

@[simp] theorem State.rateDrop_keeps (p : PortId) (why : Nat) (h : Keeps P s₀ x) (cv : Covers P ([.ports, .cmds, .reg .PRT_STS]) := by simp [*]) :
    Keeps P s₀ (State.rateDrop x p why) := by
  simp only [covers_cons, covers_nil, and_true] at cv
  unfold State.rateDrop
  simp (maxDischargeDepth := 60) [h, cv]

@[simp] theorem State.rateRefuse_keeps (p : PortId) (why : Nat) (h : Keeps P s₀ x) (cv : Covers P ([.out, .ports, .devs, .rings, .cmds, .icu, .reg
    .PRT_STS, .reg .PRT_CHG, .reg .MOV_STS, .reg .ICU_ERR]) := by simp [*]) :
    Keeps P s₀ (State.rateRefuse x p why) := by
  simp only [covers_cons, covers_nil, and_true] at cv
  unfold State.rateRefuse
  simp (maxDischargeDepth := 60) [h, cv]

@[simp] theorem State.rateWithdraw_keeps (p : PortId) (h : Keeps P s₀ x) (cv : Covers P ([.out, .ports, .rings, .sched, .icu, .reg .MOV_STS, .reg
    .ICU_ERR]) := by simp [*]) :
    Keeps P s₀ (State.rateWithdraw x p) := by
  simp only [covers_cons, covers_nil, and_true] at cv
  unfold State.rateWithdraw
  split <;> (try split) <;> simp +contextual (maxDischargeDepth := 60) [h, cv]

@[simp] theorem State.hubSettle_keeps (d t : Nat) (h : Keeps P s₀ x) (cv : Covers P ([.out, .links, .devs, .txns]) := by simp [*]) :
    Keeps P s₀ (State.hubSettle x d t) := by
  simp only [covers_cons, covers_nil, and_true] at cv
  unfold State.hubSettle
  split <;> simp (maxDischargeDepth := 60) [h, cv]

@[simp] theorem State.leave_keeps (p : PortId) (st : Nat) (bits : List Fld) (h : Keeps P s₀ x) (cv : Covers P ([.out, .ports, .links, .devs, .ctxs,
    .cmgr, .txns, .rings, .entries, .cmds, .deal, .icu, .pool, .smp, .reg .SCH_CTXCNT, .reg .PRT_STS, .reg .MOV_STS, .reg .ICU_ERR, .reg .GTH_CNT,
    .reg .GTH_DROP, .reg .CDR_EVT, .reg .CDR_FLG] ++ (bits.map fun f => Part.reg f.reg)) := by simp [*]) :
    Keeps P s₀ (State.leave x p st bits) := by
  simp only [covers_cons, covers_nil, covers_append, covers_regs, and_true] at cv
  unfold State.leave
  split <;> simp (maxDischargeDepth := 60) [h, cv]

@[simp] theorem State.disconnect_keeps (p : PortId) (bits : List Fld) (h : Keeps P s₀ x) (cv : Covers P ([.out, .ports, .links, .devs, .ctxs, .cmgr,
    .txns, .rings, .entries, .cmds, .deal, .icu, .pool, .smp, .reg .SCH_CTXCNT, .reg .PRT_STS, .reg .MOV_STS, .reg .ICU_ERR, .reg .GTH_CNT, .reg
    .GTH_DROP, .reg .CDR_EVT, .reg .CDR_FLG] ++ (bits.map fun f => Part.reg f.reg)) := by simp [*]) :
    Keeps P s₀ (State.disconnect x p bits) := by
  simp only [covers_cons, covers_nil, covers_append, covers_regs, and_true] at cv
  unfold State.disconnect
  simp (maxDischargeDepth := 60) [h, cv]

@[simp] theorem State.enterResetting_keeps (p : PortId) (t : Nat) (connect : Bool) (h : Keeps P s₀ x) (cv : Covers P ([.out, .ports, .links, .ctxs,
    .cmgr, .txns, .rings, .entries, .deal, .icu, .pool, .smp, .reg .SCH_CTXCNT, .reg .PRT_STS, .reg .MOV_STS, .reg .ICU_ERR, .reg .GTH_CNT, .reg
    .GTH_DROP, .reg .CDR_EVT, .reg .CDR_FLG]) := by simp [*]) :
    Keeps P s₀ (State.enterResetting x p t connect) := by
  simp only [covers_cons, covers_nil, and_true] at cv
  unfold State.enterResetting
  split <;> simp (maxDischargeDepth := 60) [h, cv]

@[simp] theorem State.toRetrain_keeps (p : PortId) (rate t : Nat) (bits : List Fld) (h : Keeps P s₀ x) (cv : Covers P ([.out, .ports, .links, .devs,
    .ctxs, .cmgr, .txns, .rings, .entries, .cmds, .deal, .icu, .pool, .smp, .reg .SCH_CTXCNT, .reg .PRT_STS, .reg .PRT_CHG, .reg .MOV_STS, .reg
    .ICU_ERR, .reg .GTH_CNT, .reg .GTH_DROP, .reg .CDR_EVT, .reg .CDR_FLG] ++ (bits.map fun f => Part.reg f.reg)) := by simp [*]) :
    Keeps P s₀ (State.toRetrain x p rate t bits) := by
  simp only [covers_cons, covers_nil, covers_append, covers_regs, and_true] at cv
  unfold State.toRetrain
  have hf := Covers.filter (fun f => f != .PRT_CHG_RETRAIN) cv.2
  simp (maxDischargeDepth := 60) [h, cv, hf]

@[simp] theorem State.portLate_keeps (p : PortId) (h : Keeps P s₀ x) (cv : Covers P ([.out, .rings, .icu, .pwr, .reg .MOV_STS, .reg .ICU_ERR, .reg
    .PWR_STS, .reg .PWR_EVT, .reg .PWR_WAKE, .reg .PWR_RCNT]) := by simp [*]) :
    Keeps P s₀ (State.portLate x p) := by
  simp only [covers_cons, covers_nil, and_true] at cv
  unfold State.portLate
  split <;> simp (maxDischargeDepth := 60) [h, cv]

@[simp] theorem State.linkFell_keeps (p : PortId) (t : Nat) (h : Keeps P s₀ x) (cv : Covers P ([.out, .ports, .links, .devs, .ctxs, .cmgr, .txns,
    .rings, .entries, .cmds, .deal, .icu, .pool, .pwr, .smp, .reg .SCH_CTXCNT, .reg .PRT_STS, .reg .PRT_CHG, .reg .MOV_STS, .reg .ICU_ERR, .reg
    .PWR_STS, .reg .PWR_EVT, .reg .PWR_WAKE, .reg .PWR_RCNT, .reg .GTH_CNT, .reg .GTH_DROP, .reg .CDR_EVT, .reg .CDR_FLG]) := by simp [*]) :
    Keeps P s₀ (State.linkFell x p t) := by
  simp only [covers_cons, covers_nil, and_true] at cv
  unfold State.linkFell
  simp (maxDischargeDepth := 60) [h, cv]

@[simp] theorem State.sendRateReq_keeps (p : PortId) (now : Bool) (h : Keeps P s₀ x) (cv : Covers P ([.out, .ports, .links]) := by simp [*]) :
    Keeps P s₀ (State.sendRateReq x p now) := by
  simp only [covers_cons, covers_nil, and_true] at cv
  unfold State.sendRateReq
  split <;> simp (maxDischargeDepth := 60) [h, cv]

@[simp] theorem State.portUp_keeps (p : PortId) (t : Nat) (h : Keeps P s₀ x) (cv : Covers P ([.out, .ports, .links, .devs, .ctxs, .cmgr, .txns,
    .rings, .entries, .cmds, .deal, .icu, .pool, .smp, .reg .SCH_CTXCNT, .reg .PRT_STS, .reg .PRT_CHG, .reg .MOV_STS, .reg .ICU_ERR, .reg .GTH_CNT,
    .reg .GTH_DROP, .reg .CDR_EVT, .reg .CDR_FLG]) := by simp [*]) :
    Keeps P s₀ (State.portUp x p t) := by
  simp only [covers_cons, covers_nil, and_true] at cv
  unfold State.portUp
  split <;> (try split) <;> simp +contextual (maxDischargeDepth := 60) [h, cv]

@[simp] theorem State.portLinked_keeps (p : PortId) (t : Nat) (h : Keeps P s₀ x) (cv : Covers P ([.out, .ports, .links, .devs, .ctxs, .cmgr, .txns,
    .rings, .entries, .cmds, .deal, .icu, .pool, .smp, .reg .SCH_CTXCNT, .reg .PRT_STS, .reg .PRT_CHG, .reg .MOV_STS, .reg .ICU_ERR, .reg .GTH_CNT,
    .reg .GTH_DROP, .reg .CDR_EVT, .reg .CDR_FLG]) := by simp [*]) :
    Keeps P s₀ (State.portLinked x p t) := by
  simp only [covers_cons, covers_nil, and_true] at cv
  unfold State.portLinked
  simp (maxDischargeDepth := 60) [h, cv]

@[simp] theorem State.rateSwitch_keeps (p : PortId) (h : Keeps P s₀ x) (cv : Covers P ([.out, .ports, .links, .devs, .rings, .cmds, .icu, .reg
    .PRT_STS, .reg .PRT_CHG, .reg .MOV_STS, .reg .ICU_ERR]) := by simp [*]) :
    Keeps P s₀ (State.rateSwitch x p) := by
  simp only [covers_cons, covers_nil, and_true] at cv
  unfold State.rateSwitch
  split <;> simp (maxDischargeDepth := 60) [h, cv]

@[simp] theorem State.emptyOver_keeps (p : PortId) (frame : Nat) (h : Keeps P s₀ x) (cv : Covers P ([.ports]) := by simp [*]) :
    Keeps P s₀ (State.emptyOver x p frame) := by
  simp only [covers_cons, covers_nil, and_true] at cv
  unfold State.emptyOver
  (repeat' split) <;> (try simp only [Prod.ext_iff] at *) <;> (try subst_vars) <;> simp +contextual (maxDischargeDepth := 60) [h, cv]

@[simp] theorem State.startResume_keeps (p : PortId) (forWake : Bool) (h : Keeps P s₀ x) (cv : Covers P ([.ports, .reg .PRT_STS]) := by simp [*]) :
    Keeps P s₀ (State.startResume x p forWake) := by
  simp only [covers_cons, covers_nil, and_true] at cv
  unfold State.startResume
  simp (maxDischargeDepth := 60) [h, cv]

@[simp] theorem State.hostResume_keeps (p : PortId) (h : Keeps P s₀ x) (cv : Covers P ([.out, .ports, .links, .devs, .txns, .reg .PRT_STS]) := by
    simp [*]) :
    Keeps P s₀ (State.hostResume x p) := by
  simp only [covers_cons, covers_nil, and_true] at cv
  unfold State.hostResume
  simp (maxDischargeDepth := 60) [h, cv]

@[simp] theorem State.acceptWake_keeps (p : PortId) (bits : List Fld) (h : Keeps P s₀ x) (cv : Covers P ([.out, .devs, .rings, .icu, .pwr, .reg
    .PRT_STS, .reg .PRT_CHG, .reg .MOV_STS, .reg .ICU_ERR, .reg .PWR_STS, .reg .PWR_WAKE] ++ (bits.map fun f => Part.reg f.reg)) := by simp [*]) :
    Keeps P s₀ (State.acceptWake x p bits) := by
  simp only [covers_cons, covers_nil, covers_append, covers_regs, and_true] at cv
  unfold State.acceptWake
  split <;> simp (maxDischargeDepth := 60) [h, cv]

@[simp] theorem State.wakeResume_keeps (p : PortId) (t : Nat) (h : Keeps P s₀ x) (cv : Covers P ([.out, .ports, .links, .devs, .ctxs, .cmgr, .txns,
    .rings, .entries, .cmds, .deal, .icu, .pool, .pwr, .smp, .reg .SCH_CTXCNT, .reg .PRT_STS, .reg .PRT_CHG, .reg .MOV_STS, .reg .ICU_ERR, .reg
    .PWR_STS, .reg .PWR_WAKE, .reg .GTH_CNT, .reg .GTH_DROP, .reg .CDR_EVT, .reg .CDR_FLG]) := by simp [*]) :
    Keeps P s₀ (State.wakeResume x p t) := by
  simp only [covers_cons, covers_nil, and_true] at cv
  unfold State.wakeResume
  simp (maxDischargeDepth := 60) [h, cv]

@[simp] theorem State.portReset_keeps (p : PortId) (t : Nat) (h : Keeps P s₀ x) (cv : Covers P ([.out, .ports, .links, .devs, .ctxs, .cmgr, .txns,
    .rings, .entries, .cmds, .sched, .deal, .icu, .pool, .smp, .reg .SCH_CTXCNT, .reg .PRT_STS, .reg .PRT_CHG, .reg .MOV_STS, .reg .ICU_ERR, .reg
    .GTH_CNT, .reg .GTH_DROP, .reg .CDR_EVT, .reg .CDR_FLG]) := by simp [*]) :
    Keeps P s₀ (State.portReset x p t) := by
  simp only [covers_cons, covers_nil, and_true] at cv
  unfold State.portReset
  simp (maxDischargeDepth := 60) [h, cv]

@[simp] theorem State.suspendSend_keeps (n t : Nat) (h : Keeps P s₀ x) (cv : Covers P ([.out, .ports, .links]) := by simp [*]) :
    Keeps P s₀ (State.suspendSend x n t) := by
  simp only [covers_cons, covers_nil, and_true] at cv
  unfold State.suspendSend
  simp (maxDischargeDepth := 60) [h, cv]

@[simp] theorem State.suspendTry_keeps (n t : Nat) (h : Keeps P s₀ x) (cv : Covers P ([.out, .ports, .links]) := by simp [*]) :
    Keeps P s₀ (State.suspendTry x n t) := by
  simp only [covers_cons, covers_nil, and_true] at cv
  unfold State.suspendTry
  simp (maxDischargeDepth := 60) [h, cv]

@[simp] theorem State.portSuspend_keeps (p : PortId) (t : Nat) (h : Keeps P s₀ x) (cv : Covers P ([.out, .ports, .links, .devs, .rings, .sched, .icu,
    .reg .PRT_CHG, .reg .MOV_STS, .reg .ICU_ERR]) := by simp [*]) :
    Keeps P s₀ (State.portSuspend x p t) := by
  simp only [covers_cons, covers_nil, and_true] at cv
  unfold State.portSuspend
  split <;> simp (maxDischargeDepth := 60) [h, cv]

@[simp] theorem State.portResume_keeps (p : PortId) (h : Keeps P s₀ x) (cv : Covers P ([.out, .ports, .links, .devs, .txns, .rings, .sched, .icu, .reg
    .PRT_STS, .reg .PRT_CHG, .reg .MOV_STS, .reg .ICU_ERR]) := by simp [*]) :
    Keeps P s₀ (State.portResume x p) := by
  simp only [covers_cons, covers_nil, and_true] at cv
  unfold State.portResume
  simp (maxDischargeDepth := 60) [h, cv]

@[simp] theorem State.portRetrain_keeps (p : PortId) (t : Nat) (h : Keeps P s₀ x) (cv : Covers P ([.out, .ports, .links, .devs, .ctxs, .cmgr, .txns,
    .rings, .entries, .cmds, .sched, .deal, .icu, .pool, .pwr, .smp, .reg .SCH_CTXCNT, .reg .PRT_STS, .reg .PRT_CHG, .reg .MOV_STS, .reg .ICU_ERR,
    .reg .PWR_STS, .reg .PWR_EVT, .reg .PWR_WAKE, .reg .PWR_RCNT, .reg .GTH_CNT, .reg .GTH_DROP, .reg .CDR_EVT, .reg .CDR_FLG]) := by simp [*]) :
    Keeps P s₀ (State.portRetrain x p t) := by
  simp only [covers_cons, covers_nil, and_true] at cv
  unfold State.portRetrain
  simp (maxDischargeDepth := 60) [h, cv]

@[simp] theorem State.portClearError_keeps (p : PortId) (h : Keeps P s₀ x) (cv : Covers P ([.out, .devs, .rings, .icu, .reg .PRT_STS, .reg .PRT_CHG,
    .reg .MOV_STS, .reg .ICU_ERR]) := by simp [*]) :
    Keeps P s₀ (State.portClearError x p) := by
  simp only [covers_cons, covers_nil, and_true] at cv
  unfold State.portClearError
  simp (maxDischargeDepth := 60) [h, cv]

@[simp] theorem State.portEnable_keeps (p : PortId) (on : Bool) (h : Keeps P s₀ x) (cv : Covers P ([.out, .ports, .links, .devs, .ctxs, .cmgr, .txns,
    .rings, .entries, .cmds, .sched, .deal, .icu, .pool, .smp, .reg .SCH_CTXCNT, .reg .PRT_STS, .reg .PRT_CHG, .reg .MOV_STS, .reg .ICU_ERR, .reg
    .GTH_CNT, .reg .GTH_DROP, .reg .CDR_EVT, .reg .CDR_FLG]) := by simp [*]) :
    Keeps P s₀ (State.portEnable x p on) := by
  simp only [covers_cons, covers_nil, and_true] at cv
  unfold State.portEnable
  extract_lets was st bits
  have hb : Covers P (bits.map fun f => Part.reg f.reg) := by
    simp only [bits]
    split <;> simp [cv]
  simp (maxDischargeDepth := 60) [h, cv, hb]

@[simp] theorem State.portCtl_keeps (n data t : Nat) (h : Keeps P s₀ x) (cv : Covers P ([.out, .tim, .ports, .links, .devs, .ctxs, .cmgr, .txns,
    .rings, .entries, .cmds, .sched, .deal, .icu, .pool, .pwr, .smp, .reg .SCH_CTXCNT, .reg .PRT_CTL, .reg .PRT_STS, .reg .PRT_CHG, .reg .MOV_STS,
    .reg .ICU_ERR, .reg .PWR_STS, .reg .PWR_EVT, .reg .PWR_WAKE, .reg .PWR_RCNT, .reg .GTH_CNT, .reg .GTH_DROP, .reg .CDR_EVT, .reg .CDR_FLG]) := by
    simp [*]) :
    Keeps P s₀ (State.portCtl x n data t) := by
  simp only [covers_cons, covers_nil, and_true] at cv
  unfold State.portCtl
  simp (maxDischargeDepth := 60) [h, cv]

@[simp] theorem State.hubRate_keeps (p : PortId) (target frame : Nat) (h : Keeps P s₀ x) (cv : Covers P ([.out, .ports, .devs, .rings, .cmds, .icu,
    .reg .PRT_STS, .reg .PRT_CHG, .reg .MOV_STS, .reg .ICU_ERR]) := by simp [*]) :
    Keeps P s₀ (State.hubRate x p target frame) := by
  simp only [covers_cons, covers_nil, and_true] at cv
  unfold State.hubRate
  (repeat' split) <;> (try simp only [Prod.ext_iff] at *) <;> (try subst_vars) <;> simp +contextual (maxDischargeDepth := 60) [h, cv]

@[simp] theorem State.rate5Set_keeps (p : PortId) (on : Bool) (frame : Nat) (h : Keeps P s₀ x) (cv : Covers P ([.out, .ports, .devs, .rings, .cmds,
    .icu, .reg .PRT_STS, .reg .PRT_CHG, .reg .MOV_STS, .reg .ICU_ERR]) := by simp [*]) :
    Keeps P s₀ (State.rate5Set x p on frame) := by
  simp only [covers_cons, covers_nil, and_true] at cv
  unfold State.rate5Set
  (repeat' split) <;> (try simp only [Prod.ext_iff] at *) <;> (try subst_vars) <;> simp +contextual (maxDischargeDepth := 60) [h, cv]

@[simp] theorem State.enterSuspended_keeps (p : PortId) (t : Nat) (h : Keeps P s₀ x) (cv : Covers P ([.out, .ports, .links, .devs, .ctxs, .cmgr,
    .txns, .rings, .entries, .cmds, .deal, .icu, .pool, .pwr, .smp, .reg .SCH_CTXCNT, .reg .PRT_STS, .reg .PRT_CHG, .reg .MOV_STS, .reg .ICU_ERR, .reg
    .PWR_STS, .reg .PWR_WAKE, .reg .GTH_CNT, .reg .GTH_DROP, .reg .CDR_EVT, .reg .CDR_FLG]) := by simp [*]) :
    Keeps P s₀ (State.enterSuspended x p t) := by
  simp only [covers_cons, covers_nil, and_true] at cv
  unfold State.enterSuspended
  simp (maxDischargeDepth := 60) [h, cv]

@[simp] theorem execPortEnable_keeps (n : Nat) (en rwake : Bool) (t : Nat) (h : Keeps P s₀ x) (cv : Covers P ([.out, .tim, .ports, .links, .devs,
    .ctxs, .cmgr, .txns, .rings, .entries, .cmds, .sched, .deal, .icu, .pool, .pwr, .smp, .reg .SCH_CTXCNT, .reg .PRT_CTL, .reg .PRT_STS, .reg
    .PRT_CHG, .reg .MOV_STS, .reg .ICU_ERR, .reg .PWR_STS, .reg .PWR_EVT, .reg .PWR_WAKE, .reg .PWR_RCNT, .reg .GTH_CNT, .reg .GTH_DROP, .reg
    .CDR_EVT, .reg .CDR_FLG]) := by simp [*]) :
    KeepsO P s₀ (execPortEnable n en rwake t x) := by
  simp only [covers_cons, covers_nil, and_true] at cv
  unfold execPortEnable
  simp (maxDischargeDepth := 60) [h, cv]

@[simp] theorem execPortClearError_keeps (n t : Nat) (h : Keeps P s₀ x) (cv : Covers P ([.out, .tim, .ports, .links, .devs, .ctxs, .cmgr, .txns,
    .rings, .entries, .cmds, .sched, .deal, .icu, .pool, .pwr, .smp, .reg .SCH_CTXCNT, .reg .PRT_CTL, .reg .PRT_STS, .reg .PRT_CHG, .reg .MOV_STS,
    .reg .ICU_ERR, .reg .PWR_STS, .reg .PWR_EVT, .reg .PWR_WAKE, .reg .PWR_RCNT, .reg .GTH_CNT, .reg .GTH_DROP, .reg .CDR_EVT, .reg .CDR_FLG]) := by
    simp [*]) :
    KeepsO P s₀ (execPortClearError n t x) := by
  simp only [covers_cons, covers_nil, and_true] at cv
  unfold execPortClearError
  simp (maxDischargeDepth := 60) [h, cv]

@[simp] theorem execPortReset_keeps (n t : Nat) (h : Keeps P s₀ x) (cv : Covers P ([.out, .tim, .ports, .links, .devs, .ctxs, .cmgr, .txns, .rings,
    .entries, .cmds, .sched, .deal, .icu, .pool, .pwr, .smp, .reg .SCH_CTXCNT, .reg .PRT_CTL, .reg .PRT_STS, .reg .PRT_CHG, .reg .MOV_STS, .reg
    .ICU_ERR, .reg .PWR_STS, .reg .PWR_EVT, .reg .PWR_WAKE, .reg .PWR_RCNT, .reg .GTH_CNT, .reg .GTH_DROP, .reg .CDR_EVT, .reg .CDR_FLG]) := by simp
    [*]) :
    KeepsO P s₀ (execPortReset n t x) := by
  simp only [covers_cons, covers_nil, and_true] at cv
  unfold execPortReset
  simp (maxDischargeDepth := 60) [h, cv]

@[simp] theorem execPortResume_keeps (n t : Nat) (h : Keeps P s₀ x) (cv : Covers P ([.out, .tim, .ports, .links, .devs, .ctxs, .cmgr, .txns, .rings,
    .entries, .cmds, .sched, .deal, .icu, .pool, .pwr, .smp, .reg .SCH_CTXCNT, .reg .PRT_CTL, .reg .PRT_STS, .reg .PRT_CHG, .reg .MOV_STS, .reg
    .ICU_ERR, .reg .PWR_STS, .reg .PWR_EVT, .reg .PWR_WAKE, .reg .PWR_RCNT, .reg .GTH_CNT, .reg .GTH_DROP, .reg .CDR_EVT, .reg .CDR_FLG]) := by simp
    [*]) :
    KeepsO P s₀ (execPortResume n t x) := by
  simp only [covers_cons, covers_nil, and_true] at cv
  unfold execPortResume
  simp (maxDischargeDepth := 60) [h, cv]

@[simp] theorem execPortSuspend_keeps (n t : Nat) (h : Keeps P s₀ x) (cv : Covers P ([.out, .tim, .ports, .links, .devs, .ctxs, .cmgr, .txns, .rings,
    .entries, .cmds, .sched, .deal, .icu, .pool, .pwr, .smp, .reg .SCH_CTXCNT, .reg .PRT_CTL, .reg .PRT_STS, .reg .PRT_CHG, .reg .MOV_STS, .reg
    .ICU_ERR, .reg .PWR_STS, .reg .PWR_EVT, .reg .PWR_WAKE, .reg .PWR_RCNT, .reg .GTH_CNT, .reg .GTH_DROP, .reg .CDR_EVT, .reg .CDR_FLG]) := by simp
    [*]) :
    KeepsO P s₀ (execPortSuspend n t x) := by
  simp only [covers_cons, covers_nil, and_true] at cv
  unfold execPortSuspend
  simp (maxDischargeDepth := 60) [h, cv]

@[simp] theorem execPortRetrain_keeps (n t : Nat) (h : Keeps P s₀ x) (cv : Covers P ([.out, .tim, .ports, .links, .devs, .ctxs, .cmgr, .txns, .rings,
    .entries, .cmds, .sched, .deal, .icu, .pool, .pwr, .smp, .reg .SCH_CTXCNT, .reg .PRT_CTL, .reg .PRT_STS, .reg .PRT_CHG, .reg .MOV_STS, .reg
    .ICU_ERR, .reg .PWR_STS, .reg .PWR_EVT, .reg .PWR_WAKE, .reg .PWR_RCNT, .reg .GTH_CNT, .reg .GTH_DROP, .reg .CDR_EVT, .reg .CDR_FLG]) := by simp
    [*]) :
    KeepsO P s₀ (execPortRetrain n t x) := by
  simp only [covers_cons, covers_nil, and_true] at cv
  unfold execPortRetrain
  simp (maxDischargeDepth := 60) [h, cv]

@[simp] theorem execPrtChgRead_keeps (n : Nat) (both : Bool) (h : Keeps P s₀ x) (cv : Covers P ([.out, .icu, .reg .PRT_CHG, .reg .PRT_CHG_SHADOW,
    .reg .ICU_ERR]) := by simp [*]) :
    KeepsO P s₀ (execPrtChgRead n both x) := by
  simp only [covers_cons, covers_nil, and_true] at cv
  unfold execPrtChgRead
  simp (maxDischargeDepth := 60) [h, cv]

@[simp] theorem State.signalSeen_keeps (p : PortId) (h : Keeps P s₀ x) (cv : Covers P ([.out, .ports, .links, .devs, .txns, .reg .PRT_STS]) := by
    simp [*]) :
    Keeps P s₀ (State.signalSeen x p) := by
  simp only [covers_cons, covers_nil, and_true] at cv
  unfold State.signalSeen
  (repeat' split) <;> (try simp only [Prod.ext_iff] at *) <;> (try subst_vars) <;> simp +contextual (maxDischargeDepth := 60) [h, cv]

@[simp] theorem execSignalDetect_keeps (p : PortId) (t : Nat) (h : Keeps P s₀ x) (cv : Covers P ([.out, .tim, .ports, .links, .devs, .txns, .reg
    .PRT_STS]) := by simp [*]) :
    KeepsO P s₀ (execSignalDetect p t x) := by
  simp only [covers_cons, covers_nil, and_true] at cv
  unfold execSignalDetect
  simp (maxDischargeDepth := 60) [h, cv]

@[simp] theorem execConnectDebounceDone_keeps (p : PortId) (t : Nat) (h : Keeps P s₀ x) (cv : Covers P ([.out, .tim, .ports, .links, .ctxs, .cmgr,
    .txns, .rings, .entries, .deal, .icu, .pool, .smp, .reg .SCH_CTXCNT, .reg .PRT_STS, .reg .MOV_STS, .reg .ICU_ERR, .reg .GTH_CNT, .reg .GTH_DROP,
    .reg .CDR_EVT, .reg .CDR_FLG]) := by simp [*]) :
    KeepsO P s₀ (execConnectDebounceDone p t x) := by
  simp only [covers_cons, covers_nil, and_true] at cv
  unfold execConnectDebounceDone
  simp (maxDischargeDepth := 60) [h, cv]

@[simp] theorem execTrainingTimeout_keeps (p : PortId) (h : Keeps P s₀ x) (cv : Covers P ([.out, .ports, .links, .devs, .ctxs, .cmgr, .txns, .rings,
    .entries, .cmds, .deal, .icu, .pool, .smp, .reg .SCH_CTXCNT, .reg .PRT_STS, .reg .MOV_STS, .reg .ICU_ERR, .reg .GTH_CNT, .reg .GTH_DROP, .reg
    .CDR_EVT, .reg .CDR_FLG]) := by simp [*]) :
    KeepsO P s₀ (execTrainingTimeout p x) := by
  simp only [covers_cons, covers_nil, and_true] at cv
  unfold execTrainingTimeout
  simp (maxDischargeDepth := 60) [h, cv]

@[simp] theorem execResetEchoTimeout_keeps (p : PortId) (t : Nat) (h : Keeps P s₀ x) (cv : Covers P ([.out, .tim, .ports, .links, .devs, .ctxs, .cmgr,
    .txns, .rings, .entries, .cmds, .deal, .icu, .pool, .smp, .reg .SCH_CTXCNT, .reg .PRT_STS, .reg .PRT_CHG, .reg .MOV_STS, .reg .ICU_ERR, .reg
    .GTH_CNT, .reg .GTH_DROP, .reg .CDR_EVT, .reg .CDR_FLG]) := by simp [*]) :
    KeepsO P s₀ (execResetEchoTimeout p t x) := by
  simp only [covers_cons, covers_nil, and_true] at cv
  unfold execResetEchoTimeout
  (repeat' split) <;> (try simp only [Prod.ext_iff] at *) <;> (try subst_vars) <;> simp +contextual (maxDischargeDepth := 60) [h, cv]

@[simp] theorem execRetrainTimeout_keeps (p : PortId) (h : Keeps P s₀ x) (cv : Covers P ([.out, .ports, .links, .devs, .ctxs, .cmgr, .txns, .rings,
    .entries, .cmds, .deal, .icu, .pool, .smp, .reg .SCH_CTXCNT, .reg .PRT_STS, .reg .PRT_CHG, .reg .MOV_STS, .reg .ICU_ERR, .reg .GTH_CNT, .reg
    .GTH_DROP, .reg .CDR_EVT, .reg .CDR_FLG]) := by simp [*]) :
    KeepsO P s₀ (execRetrainTimeout p x) := by
  simp only [covers_cons, covers_nil, and_true] at cv
  unfold execRetrainTimeout
  simp (maxDischargeDepth := 60) [h, cv]

@[simp] theorem execResumeTimeout_keeps (p : PortId) (h : Keeps P s₀ x) (cv : Covers P ([.out, .ports, .links, .devs, .ctxs, .cmgr, .txns, .rings,
    .entries, .cmds, .deal, .icu, .pool, .smp, .reg .SCH_CTXCNT, .reg .PRT_STS, .reg .PRT_CHG, .reg .MOV_STS, .reg .ICU_ERR, .reg .GTH_CNT, .reg
    .GTH_DROP, .reg .CDR_EVT, .reg .CDR_FLG]) := by simp [*]) :
    KeepsO P s₀ (execResumeTimeout p x) := by
  simp only [covers_cons, covers_nil, and_true] at cv
  unfold execResumeTimeout
  simp (maxDischargeDepth := 60) [h, cv]

@[simp] theorem State.propOver_keeps (p : PortId) (t : Nat) (h : Keeps P s₀ x) (cv : Covers P ([.out, .ports, .links, .devs, .txns]) := by simp [*]) :
    Keeps P s₀ (State.propOver x p t) := by
  simp only [covers_cons, covers_nil, and_true] at cv
  unfold State.propOver
  split <;> (try split) <;> simp +contextual (maxDischargeDepth := 60) [h, cv]

@[simp] theorem execSuspendEchoTimeout_keeps (p : PortId) (t : Nat) (h : Keeps P s₀ x) (cv : Covers P ([.out, .tim, .ports, .links, .devs, .ctxs,
    .cmgr, .txns, .rings, .entries, .cmds, .deal, .icu, .pool, .pwr, .smp, .reg .SCH_CTXCNT, .reg .PRT_STS, .reg .PRT_CHG, .reg .MOV_STS, .reg
    .ICU_ERR, .reg .PWR_STS, .reg .PWR_EVT, .reg .PWR_WAKE, .reg .PWR_RCNT, .reg .GTH_CNT, .reg .GTH_DROP, .reg .CDR_EVT, .reg .CDR_FLG]) := by simp
    [*]) :
    KeepsO P s₀ (execSuspendEchoTimeout p t x) := by
  simp only [covers_cons, covers_nil, and_true] at cv
  unfold execSuspendEchoTimeout
  simp (maxDischargeDepth := 60) [h, cv]

@[simp] theorem State.endLost_keeps (l : LinkEndId) (t : Nat) (h : Keeps P s₀ x) (cv : Covers P ([.out, .ports, .links, .devs, .ctxs, .cmgr, .txns,
    .rings, .entries, .cmds, .deal, .icu, .pool, .pwr, .smp, .reg .SCH_CTXCNT, .reg .PRT_STS, .reg .PRT_CHG, .reg .MOV_STS, .reg .ICU_ERR, .reg
    .PWR_STS, .reg .PWR_EVT, .reg .PWR_WAKE, .reg .PWR_RCNT, .reg .GTH_CNT, .reg .GTH_DROP, .reg .CDR_EVT, .reg .CDR_FLG]) := by simp [*]) :
    Keeps P s₀ (State.endLost x l t) := by
  simp only [covers_cons, covers_nil, and_true] at cv
  unfold State.endLost
  split <;> (try split) <;> simp +contextual (maxDischargeDepth := 60) [h, cv]

@[simp] theorem execLinkLost_keeps (p : PortId) (t : Nat) (h : Keeps P s₀ x) (cv : Covers P ([.out, .tim, .ports, .links, .devs, .ctxs, .cmgr, .txns,
    .rings, .entries, .cmds, .deal, .icu, .pool, .pwr, .smp, .reg .SCH_CTXCNT, .reg .PRT_STS, .reg .PRT_CHG, .reg .MOV_STS, .reg .ICU_ERR, .reg
    .PWR_STS, .reg .PWR_EVT, .reg .PWR_WAKE, .reg .PWR_RCNT, .reg .GTH_CNT, .reg .GTH_DROP, .reg .CDR_EVT, .reg .CDR_FLG]) := by simp [*]) :
    KeepsO P s₀ (execLinkLost p t x) := by
  simp only [covers_cons, covers_nil, and_true] at cv
  unfold execLinkLost
  simp (maxDischargeDepth := 60) [h, cv]

@[simp] theorem execSyncGain_keeps (l : LinkEndId) (groups : List Nat) (h : Keeps P s₀ x) (cv : Covers P ([.links]) := by simp [*]) :
    KeepsO P s₀ (execSyncGain l groups x) := by
  simp only [covers_cons, covers_nil, and_true] at cv
  unfold execSyncGain
  (repeat' split) <;> (try simp only [Prod.ext_iff] at *) <;> (try subst_vars) <;> simp +contextual (maxDischargeDepth := 60) [h, cv]

@[simp] theorem execSyncLoss_keeps (l : LinkEndId) (groups : List Nat) (t : Nat) (h : Keeps P s₀ x) (cv : Covers P ([.out, .tim, .ports, .links,
    .devs, .ctxs, .cmgr, .txns, .rings, .entries, .cmds, .deal, .icu, .pool, .pwr, .smp, .reg .SCH_CTXCNT, .reg .PRT_STS, .reg .PRT_CHG, .reg
    .MOV_STS, .reg .ICU_ERR, .reg .PWR_STS, .reg .PWR_EVT, .reg .PWR_WAKE, .reg .PWR_RCNT, .reg .GTH_CNT, .reg .GTH_DROP, .reg .CDR_EVT, .reg
    .CDR_FLG]) := by simp [*]) :
    KeepsO P s₀ (execSyncLoss l groups t x) := by
  simp only [covers_cons, covers_nil, and_true] at cv
  unfold execSyncLoss
  simp (maxDischargeDepth := 60) [h, cv]

@[simp] theorem execCodewordLock_keeps (l : LinkEndId) (blocks : List (Nat × Nat)) (h : Keeps P s₀ x) (cv : Covers P ([.links]) := by simp [*]) :
    KeepsO P s₀ (execCodewordLock l blocks x) := by
  simp only [covers_cons, covers_nil, and_true] at cv
  unfold execCodewordLock
  (repeat' split) <;> (try simp only [Prod.ext_iff] at *) <;> (try subst_vars) <;> simp +contextual (maxDischargeDepth := 60) [h, cv]

@[simp] theorem execCodewordLockLoss_keeps (l : LinkEndId) (blocks : List (Nat × Nat)) (t : Nat) (h : Keeps P s₀ x) (cv : Covers P ([.out, .tim,
    .ports, .links, .devs, .ctxs, .cmgr, .txns, .rings, .entries, .cmds, .deal, .icu, .pool, .pwr, .smp, .reg .SCH_CTXCNT, .reg .PRT_STS, .reg
    .PRT_CHG, .reg .MOV_STS, .reg .ICU_ERR, .reg .PWR_STS, .reg .PWR_EVT, .reg .PWR_WAKE, .reg .PWR_RCNT, .reg .GTH_CNT, .reg .GTH_DROP, .reg
    .CDR_EVT, .reg .CDR_FLG]) := by simp [*]) :
    KeepsO P s₀ (execCodewordLockLoss l blocks t x) := by
  simp only [covers_cons, covers_nil, and_true] at cv
  unfold execCodewordLockLoss
  simp (maxDischargeDepth := 60) [h, cv]

@[simp] theorem State.rateMoved_keeps (p : PortId) (c : RateChange) (h : Keeps P s₀ x) (cv : Covers P ([.out, .pol, .ports, .rings, .icu, .hlt, .reg
    .GCTL_POLICY_STS, .reg .MOV_STS, .reg .ICU_ERR]) := by simp [*]) :
    Keeps P s₀ (State.rateMoved x p c) := by
  simp only [covers_cons, covers_nil, and_true] at cv
  unfold State.rateMoved
  split <;> simp (maxDischargeDepth := 60) [h, cv]

@[simp] theorem execRateLock_keeps (l : LinkEndId) (t : Nat) (tTx : Int) (h : Keeps P s₀ x) (cv : Covers P ([.out, .tim, .pol, .ports, .links, .devs,
    .ctxs, .cmgr, .txns, .rings, .entries, .cmds, .deal, .icu, .pool, .smp, .hlt, .reg .GCTL_POLICY_STS, .reg .SCH_CTXCNT, .reg .PRT_STS, .reg
    .PRT_CHG, .reg .MOV_STS, .reg .ICU_ERR, .reg .GTH_CNT, .reg .GTH_DROP, .reg .CDR_EVT, .reg .CDR_FLG]) := by simp [*]) :
    KeepsO P s₀ (execRateLock l t tTx x) := by
  simp only [covers_cons, covers_nil, and_true] at cv
  unfold execRateLock
  simp only []; (repeat' split) <;> (try simp only [Prod.ext_iff] at *) <;> subst_vars <;> simp +contextual (maxDischargeDepth := 60) [h, cv]

@[simp] theorem execRateLockTimeout_keeps (l : LinkEndId) (t : Nat) (h : Keeps P s₀ x) (cv : Covers P ([.out, .tim, .ports, .links, .devs, .ctxs,
    .cmgr, .txns, .rings, .entries, .cmds, .deal, .icu, .pool, .smp, .reg .SCH_CTXCNT, .reg .PRT_STS, .reg .PRT_CHG, .reg .MOV_STS, .reg .ICU_ERR,
    .reg .GTH_CNT, .reg .GTH_DROP, .reg .CDR_EVT, .reg .CDR_FLG]) := by simp [*]) :
    KeepsO P s₀ (execRateLockTimeout l t x) := by
  simp only [covers_cons, covers_nil, and_true] at cv
  unfold execRateLockTimeout
  simp only []; (repeat' split) <;> (try simp only [Prod.ext_iff] at *) <;> subst_vars <;> simp +contextual (maxDischargeDepth := 60) [h, cv]

end Sys2Proof.Machine
end

