-- ==== Sys2Proof/Laws/KeepsHand.lean ====
section
/-! SUPPORT. Laws/KeepsHand.lean: for each function of Machine/Hand.lean, the parts of the state that it leaves as they are. -/

namespace Sys2Proof.Machine

variable {P : Part → Bool} {s₀ x : State}

@[simp] theorem State.useCtx_keeps (eph : Nat) (h : Keeps P s₀ x) (cv : Covers P ([.out, .ctxs, .rings, .slices, .icu, .smp, .reg .MOV_STS, .reg
    .ICU_ERR, .reg .GTH_CNT, .reg .GTH_DROP, .reg .CDR_EVT, .reg .CDR_FLG]) := by simp [*]) :
    Keeps P s₀ (State.useCtx x eph) := by
  simp only [covers_cons, covers_nil, and_true] at cv
  unfold State.useCtx
  split <;> simp (maxDischargeDepth := 60) [h, cv]

@[simp] theorem State.useFor_keeps (eph : Nat) (h : Keeps P s₀ x) (cv : Covers P ([.out, .ctxs, .cmgr, .txns, .rings, .entries, .deal, .slices, .icu,
    .smp, .reg .MOV_STS, .reg .ICU_ERR, .reg .GTH_CNT, .reg .GTH_DROP, .reg .CDR_EVT, .reg .CDR_FLG]) := by simp [*]) :
    Keeps P s₀ (State.useFor x eph) := by
  simp only [covers_cons, covers_nil, and_true] at cv
  unfold State.useFor
  simp only []
  split
  · split <;> simp (maxDischargeDepth := 60) [h, cv]
  · simp (maxDischargeDepth := 60) [h, cv]

@[simp] theorem State.onDrr_keeps (n : Nat) (f : Drr → Drr) (h : Keeps P s₀ x) (cv : Covers P ([.deal]) := by simp [*]) :
    Keeps P s₀ (State.onDrr x n f) := by
  simp only [covers_cons, covers_nil, and_true] at cv
  unfold State.onDrr
  simp (maxDischargeDepth := 60) [h, cv]

@[simp] theorem State.composed_keeps (id : Nat) (h : Keeps P s₀ x) (cv : Covers P ([.entries, .deal]) := by simp [*]) :
    Keeps P s₀ (State.composed x id) := by
  simp only [covers_cons, covers_nil, and_true] at cv
  unfold State.composed
  simp (maxDischargeDepth := 60) [h, cv]

@[simp] theorem State.composedItem_keeps (h_ : Hand) (x_ : HandItem) (h : Keeps P s₀ x) (cv : Covers P ([.entries, .deal]) := by simp [*]) :
    Keeps P s₀ (State.composedItem x h_ x_) := by
  simp only [covers_cons, covers_nil, and_true] at cv
  unfold State.composedItem
  (repeat' split) <;> (try simp only [Prod.ext_iff] at *) <;> (try subst_vars) <;> simp +contextual (maxDischargeDepth := 60) [h, cv]

@[simp] theorem State.onRun_keeps (n : Nat) (f : Hand → Hand) (h : Keeps P s₀ x) (cv : Covers P ([.deal]) := by simp [*]) :
    Keeps P s₀ (State.onRun x n f) := by
  simp only [covers_cons, covers_nil, and_true] at cv
  unfold State.onRun
  split <;> simp (maxDischargeDepth := 60) [h, cv]

@[simp] theorem State.fill_keeps (n span from_ : Nat) (late : Bool) (room : Option Nat) (h_ : Hand) (a7 : Nat) (h : Keeps P s₀ x) (cv : Covers P
    ([.out, .ctxs, .cmgr, .txns, .rings, .entries, .deal, .slices, .icu, .smp, .reg .MOV_STS, .reg .ICU_ERR, .reg .GTH_CNT, .reg .GTH_DROP, .reg
    .CDR_EVT, .reg .CDR_FLG]) := by simp [*]) :
    Keeps P s₀ (State.fill x n span from_ late room h_ a7).1 := by
  simp only [covers_cons, covers_nil, and_true] at cv
  induction a7 generalizing x h_ with
  | zero => exact h
  | succ k ih =>
    unfold State.fill
    simp only []
    (repeat' split) <;> (try refine ih _ ?_) <;> simp (maxDischargeDepth := 60) [h, cv]

@[simp] theorem State.periodicOf_keeps (n frame idx : Nat) (e : SchedEnt) (h : Keeps P s₀ x) (cv : Covers P ([.out, .ctxs, .cmgr, .txns, .rings,
    .entries, .sched, .deal, .slices, .icu, .smp, .reg .SCH_ADM_EVT, .reg .MOV_STS, .reg .ICU_ERR, .reg .GTH_CNT, .reg .GTH_DROP, .reg .CDR_EVT, .reg
    .CDR_FLG]) := by simp [*]) :
    Keeps P s₀ (State.periodicOf x n frame idx e).1 := by
  simp only [covers_cons, covers_nil, and_true] at cv
  unfold State.periodicOf
  simp only []; (repeat' split) <;> (try simp only [Prod.ext_iff] at *) <;> subst_vars <;> simp +contextual (maxDischargeDepth := 60) [h, cv]

@[simp] theorem State.periodicAll_keeps (n frame a3 : Nat) (a4 : List SchedEnt) (h : Keeps P s₀ x) (cv : Covers P ([.out, .ctxs, .cmgr, .txns, .rings,
    .entries, .sched, .deal, .slices, .icu, .smp, .reg .SCH_ADM_EVT, .reg .MOV_STS, .reg .ICU_ERR, .reg .GTH_CNT, .reg .GTH_DROP, .reg .CDR_EVT, .reg
    .CDR_FLG]) := by simp [*]) :
    Keeps P s₀ (State.periodicAll x n frame a3 a4).1 := by
  simp only [covers_cons, covers_nil, and_true] at cv
  induction a4 generalizing x a3 with
  | nil => simpa [State.periodicAll] using h
  | cons e r ih =>
    rw [State.periodicAll]
    exact ih _ (State.periodicOf_keeps _ _ _ _ h)

@[simp] theorem State.owedPolls_keeps (n frame : Nat) (l : List HandItem) (h : Keeps P s₀ x) (cv : Covers P ([.out, .ctxs, .cmgr, .txns, .rings,
    .entries, .deal, .slices, .icu, .smp, .reg .MOV_STS, .reg .ICU_ERR, .reg .GTH_CNT, .reg .GTH_DROP, .reg .CDR_EVT, .reg .CDR_FLG]) := by simp [*])
    :
    Keeps P s₀ (State.owedPolls x n frame l).1 := by
  simp only [covers_cons, covers_nil, and_true] at cv
  unfold State.owedPolls
  (repeat' split) <;> (try simp only [Prod.ext_iff] at *) <;> (try subst_vars) <;> simp +contextual (maxDischargeDepth := 60) [h, cv]

@[simp] theorem State.toHead_keeps (id : Nat) (h : Keeps P s₀ x) (cv : Covers P ([.out, .ctxs, .rings, .entries, .deal, .icu, .pool, .reg .MOV_STS,
    .reg .ICU_ERR]) := by simp [*]) :
    Keeps P s₀ (State.toHead x id) := by
  simp only [covers_cons, covers_nil, and_true] at cv
  unfold State.toHead
  split <;> simp (maxDischargeDepth := 60) [h, cv]

@[simp] theorem State.missItem_keeps (n why : Nat) (h_ : Hand) (x_ : HandItem) (h : Keeps P s₀ x) (cv : Covers P ([.out, .ctxs, .rings, .entries,
    .deal, .icu, .pool, .reg .SCH_DYN_CNT, .reg .MOV_STS, .reg .ICU_ERR]) := by simp [*]) :
    Keeps P s₀ (State.missItem x n why h_ x_).1 := by
  simp only [covers_cons, covers_nil, and_true] at cv
  unfold State.missItem
  simp only []
  (repeat' split) <;> simp (maxDischargeDepth := 60) [h, cv]

@[simp] theorem State.missItems_keeps (n why : Nat) (h_ : Hand) (l : List HandItem) (h : Keeps P s₀ x) (cv : Covers P ([.out, .ctxs, .rings, .entries,
    .deal, .icu, .pool, .reg .SCH_DYN_CNT, .reg .MOV_STS, .reg .ICU_ERR]) := by simp [*]) :
    Keeps P s₀ (State.missItems x n why h_ l).1 := by
  simp only [covers_cons, covers_nil, and_true] at cv
  unfold State.missItems
  exact keeps_foldl_pair _ h fun v a hv => State.missItem_keeps _ _ _ _ hv

@[simp] theorem State.deadCommands_keeps (n frame : Nat) (h : Keeps P s₀ x) (cv : Covers P ([.ctxs, .cmgr, .txns, .entries, .deal]) := by simp [*]) :
    Keeps P s₀ (State.deadCommands x n frame) := by
  simp only [covers_cons, covers_nil, and_true] at cv
  unfold State.deadCommands
  simp (maxDischargeDepth := 60) [h, cv]

@[simp] theorem State.takeCommands_keeps (h_ : Hand) (h : Keeps P s₀ x) (cv : Covers P ([.out, .ctxs, .cmgr, .txns, .entries, .deal, .twin]) := by
    simp [*]) :
    Keeps P s₀ (State.takeCommands x h_).1 := by
  simp only [covers_cons, covers_nil, and_true] at cv
  unfold State.takeCommands
  refine keeps_foldl_pair _ h fun v a hv => ?_
  split
  · split
    · split <;> simp (maxDischargeDepth := 60) [hv, cv]
    · exact hv
  · exact hv

@[simp] theorem State.traceHand_keeps (n tick : Nat) (h_ : Hand) (h : Keeps P s₀ x) (cv : Covers P ([.out, .rings, .deal, .icu, .reg .MOV_STS, .reg
    .ICU_ERR]) := by simp [*]) :
    Keeps P s₀ (State.traceHand x n tick h_) := by
  simp only [covers_cons, covers_nil, and_true] at cv
  unfold State.traceHand
  simp (maxDischargeDepth := 60) [h, cv]

@[simp] theorem State.composeTree_keeps (n frame tick : Nat) (cut : Option Nat) (h : Keeps P s₀ x) (cv : Covers P ([.out, .ctxs, .cmgr, .txns, .rings,
    .entries, .sched, .deal, .slices, .icu, .pool, .twin, .smp, .reg .SCH_ADM_EVT, .reg .SCH_DYN_CNT, .reg .MOV_STS, .reg .ICU_ERR, .reg .GTH_CNT,
    .reg .GTH_DROP, .reg .CDR_EVT, .reg .CDR_FLG]) := by simp [*]) :
    Keeps P s₀ (State.composeTree x n frame tick cut) := by
  simp only [covers_cons, covers_nil, and_true] at cv
  unfold State.composeTree
  simp only []; (repeat' split) <;> (try simp only [Prod.ext_iff] at *) <;> subst_vars <;> simp +contextual (maxDischargeDepth := 60) [h, cv]

@[simp] theorem State.releaseAll_keeps (l : List (Nat × Nat × Nat)) (h : Keeps P s₀ x) (cv : Covers P ([.out, .ctxs, .cmgr, .txns, .rings, .entries,
    .deal, .icu, .pool, .reg .SCH_CTXCNT, .reg .MOV_STS, .reg .ICU_ERR]) := by simp [*]) :
    Keeps P s₀ (State.releaseAll x l) := by
  simp only [covers_cons, covers_nil, and_true] at cv
  unfold State.releaseAll
  (repeat' split) <;> (try simp only [Prod.ext_iff] at *) <;> (try subst_vars) <;> simp +contextual (maxDischargeDepth := 60) [h, cv]

@[simp] theorem State.releaseFrames_keeps (frame : Nat) (h : Keeps P s₀ x) (cv : Covers P ([.out, .ctxs, .cmgr, .txns, .rings, .entries, .deal, .icu,
    .pool, .reg .SCH_CTXCNT, .reg .MOV_STS, .reg .ICU_ERR]) := by simp [*]) :
    Keeps P s₀ (State.releaseFrames x frame) := by
  simp only [covers_cons, covers_nil, and_true] at cv
  unfold State.releaseFrames
  simp (maxDischargeDepth := 60) [h, cv]

@[simp] theorem State.composeAll_keeps (cuts : List (Nat × Nat)) (h : Keeps P s₀ x) (cv : Covers P ([.out, .ctxs, .cmgr, .txns, .rings, .entries,
    .sched, .deal, .slices, .icu, .pool, .twin, .smp, .reg .SCH_ADM_EVT, .reg .SCH_DYN_CNT, .reg .SCH_CTXCNT, .reg .MOV_STS, .reg .ICU_ERR, .reg
    .GTH_CNT, .reg .GTH_DROP, .reg .CDR_EVT, .reg .CDR_FLG]) := by simp [*]) :
    Keeps P s₀ (State.composeAll x cuts) := by
  simp only [covers_cons, covers_nil, and_true] at cv
  unfold State.composeAll
  simp +contextual (maxDischargeDepth := 60) [h, cv]

@[simp] theorem State.guardTree_keeps (n : Nat) (h : Keeps P s₀ x) (cv : Covers P ([.out, .ctxs, .rings, .entries, .deal, .icu, .pool, .reg
    .SCH_ADM_STS, .reg .SCH_DYN_CNT, .reg .MOV_STS, .reg .ICU_ERR]) := by simp [*]) :
    Keeps P s₀ (State.guardTree x n) := by
  simp only [covers_cons, covers_nil, and_true] at cv
  unfold State.guardTree
  split
  · exact h
  · dsimp only
    refine State.onDeal_keeps _ (State.missItems_keeps _ _ _ _ ?_)
    refine State.countN_keeps _ _ _ (keeps_foldl _ h fun y a hy => ?_)
    split <;> simp (maxDischargeDepth := 60) [hy, cv]

@[simp] theorem State.rolledEvent_keeps (n : Nat) (h : Keeps P s₀ x) (cv : Covers P ([.out, .rings, .icu, .reg .MOV_STS, .reg .ICU_ERR]) := by simp
    [*]) :
    Keeps P s₀ (State.rolledEvent x n) := by
  simp only [covers_cons, covers_nil, and_true] at cv
  unfold State.rolledEvent
  split <;> simp (maxDischargeDepth := 60) [h, cv]

end Sys2Proof.Machine
end

