-- ==== Sys2Proof/Laws/KeepsSample.lean ====
section
/-! SUPPORT. Laws/KeepsSample.lean: for each function of Machine/Sample.lean, the parts of the state that it leaves as they are. -/

namespace Sys2Proof.Machine

variable {P : Part → Bool} {s₀ x : State}

@[simp] theorem State.note_keeps (ring what id n : Nat) (h : Keeps P s₀ x) (cv : Covers P ([.smp]) := by simp [*]) :
    Keeps P s₀ (State.note x ring what id n) := by
  simp only [covers_cons, covers_nil, and_true] at cv
  unfold State.note
  simp (maxDischargeDepth := 60) [h, cv]

@[simp] theorem State.blockFree_keeps (b : Block) (h : Keeps P s₀ x) (cv : Covers P ([.ctxs, .cmgr]) := by simp [*]) :
    Keeps P s₀ (State.blockFree x b) := by
  simp only [covers_cons, covers_nil, and_true] at cv
  unfold State.blockFree
  split <;> simp (maxDischargeDepth := 60) [h, cv]

@[simp] theorem State.padBytes_keeps (a1 : Nat) (h : Keeps P s₀ x) (cv : Covers P ([.free]) := by simp [*]) :
    Keeps P s₀ (State.padBytes x a1).1 := by
  simp only [covers_cons, covers_nil, and_true] at cv
  revert h
  fun_induction State.padBytes x a1 <;> intro h <;> (try simp only [Prod.ext_iff] at *) <;> (try subst_vars) <;> simp_all +contextual
      (maxDischargeDepth := 60)

@[simp] theorem State.padBody_keeps (a1 : List (List Byte)) (h : Keeps P s₀ x) (cv : Covers P ([.free]) := by simp [*]) :
    Keeps P s₀ (State.padBody x a1).1 := by
  simp only [covers_cons, covers_nil, and_true] at cv
  induction a1 generalizing x with
  | nil => simpa [State.padBody] using h
  | cons b r ih =>
    rw [State.padBody]
    exact ih (State.padBytes_keeps _ h)

@[simp] theorem State.ringWrite_keeps (r ofs : Nat) (b : List Byte) (h : Keeps P s₀ x) (cv : Covers P ([.out]) := by simp [*]) :
    Keeps P s₀ (State.ringWrite x r ofs b) := by
  simp only [covers_cons, covers_nil, and_true] at cv
  unfold State.ringWrite
  simp (maxDischargeDepth := 60) [h, cv]

@[simp] theorem State.advanceBy_keeps (r a2 : Nat) (h : Keeps P s₀ x) (cv : Covers P ([.rings]) := by simp [*]) :
    Keeps P s₀ (State.advanceBy x r a2) := by
  simp only [covers_cons, covers_nil, and_true] at cv
  revert h
  fun_induction State.advanceBy x r a2 <;> intro h <;> (try simp only [Prod.ext_iff] at *) <;> (try subst_vars) <;> simp_all +contextual
      (maxDischargeDepth := 60)

@[simp] theorem State.writeRec_keeps (r : SRec) (h : Keeps P s₀ x) (cv : Covers P ([.out, .free, .ctxs, .cmgr, .rings, .smp, .reg .MOV_STS]) := by
    simp [*]) :
    Keeps P s₀ (State.writeRec x r) := by
  simp only [covers_cons, covers_nil, and_true] at cv
  unfold State.writeRec
  simp +contextual (maxDischargeDepth := 60) [h, cv]

@[simp] theorem State.pushUngrouped_keeps (c : Ctx) (b : Block) (h : Keeps P s₀ x) (cv : Covers P ([.smp, .reg .GTH_EVT]) := by simp [*]) :
    Keeps P s₀ (State.pushUngrouped x c b) := by
  simp only [covers_cons, covers_nil, and_true] at cv
  unfold State.pushUngrouped
  simp (maxDischargeDepth := 60) [h, cv]

@[simp] theorem State.dropBlock_keeps (b : Block) (id : Nat) (g : Group) (cnt evt : Fld) (h : Keeps P s₀ x) (cv : Covers P ([.ctxs, .cmgr, .smp, .reg
    cnt.reg, .reg evt.reg]) := by simp [*]) :
    Keeps P s₀ (State.dropBlock x b id g cnt evt) := by
  simp only [covers_cons, covers_nil, and_true] at cv
  unfold State.dropBlock
  simp (maxDischargeDepth := 60) [h, cv]

@[simp] theorem State.forceSet_keeps (h : Keeps P s₀ x) (cv : Covers P ([.smp, .reg .GTH_EVT, .reg .GTH_CNT, .reg .GTH_DROP]) := by simp [*]) :
    Keeps P s₀ (State.forceSet x) := by
  simp only [covers_cons, covers_nil, and_true] at cv
  unfold State.forceSet
  split <;> (try split) <;> simp +contextual (maxDischargeDepth := 60) [h, cv]

@[simp] theorem State.waitSlot_keeps (b : Block) (said : Bool) (h : Keeps P s₀ x) (cv : Covers P ([.smp, .reg .GTH_EVT, .reg .GTH_CNT, .reg
    .GTH_DROP]) := by simp [*]) :
    Keeps P s₀ (State.waitSlot x b said) := by
  simp only [covers_cons, covers_nil, and_true] at cv
  unfold State.waitSlot
  simp (maxDischargeDepth := 60) [h, cv]

@[simp] theorem State.gatherBlock_keeps (id m : Nat) (b : Block) (h : Keeps P s₀ x) (cv : Covers P ([.ctxs, .cmgr, .smp, .reg .GTH_EVT, .reg .GTH_CNT,
    .reg .GTH_DROP]) := by simp [*]) :
    Keeps P s₀ (State.gatherBlock x id m b) := by
  simp only [covers_cons, covers_nil, and_true] at cv
  unfold State.gatherBlock
  simp only []; (repeat' split) <;> (try simp only [Prod.ext_iff] at *) <;> subst_vars <;> simp +contextual (maxDischargeDepth := 60) [h, cv]

@[simp] theorem State.addSample_keeps (k frame qc : Nat) (x_ : Sampled) (h : Keeps P s₀ x) (cv : Covers P ([.smp, .reg .CDR_EVT, .reg .CDR_FLG])
    := by simp [*]) :
    Keeps P s₀ (State.addSample x k frame qc x_) := by
  simp only [covers_cons, covers_nil, and_true] at cv
  unfold State.addSample
  simp only []; (repeat' split) <;> (try simp only [Prod.ext_iff] at *) <;> subst_vars <;> simp +contextual (maxDischargeDepth := 60) [h, cv]

@[simp] theorem State.coderBlock_keeps (k : Nat) (b : Block) (h : Keeps P s₀ x) (cv : Covers P ([.ctxs, .cmgr, .smp, .reg .CDR_EVT, .reg .CDR_FLG]) :=
    by simp [*]) :
    Keeps P s₀ (State.coderBlock x k b) := by
  simp only [covers_cons, covers_nil, and_true] at cv
  unfold State.coderBlock
  split <;> simp +contextual (maxDischargeDepth := 60) [h, cv]

@[simp] theorem State.triggerLand_keeps (eph stamp : Nat) (h : Keeps P s₀ x) (cv : Covers P ([.smp, .reg .CDR_EVT, .reg .CDR_FLG]) := by simp [*]) :
    Keeps P s₀ (State.triggerLand x eph stamp) := by
  simp only [covers_cons, covers_nil, and_true] at cv
  unfold State.triggerLand
  simp +contextual (maxDischargeDepth := 60) [h, cv]

@[simp] theorem State.codeSpan_keeps (k : Nat) (late : Bool) (h : Keeps P s₀ x) (cv : Covers P ([.smp, .reg .CDR_EVT, .reg .CDR_CNT, .reg
    .CDR_FLG]) := by simp [*]) :
    Keeps P s₀ (State.codeSpan x k late) := by
  simp only [covers_cons, covers_nil, and_true] at cv
  unfold State.codeSpan
  split <;> (try split) <;> simp +contextual (maxDischargeDepth := 60) [h, cv]

@[simp] theorem State.routeBlock_keeps (c : Ctx) (b : Block) (h : Keeps P s₀ x) (cv : Covers P ([.ctxs, .cmgr, .smp, .reg .GTH_EVT, .reg .GTH_CNT,
    .reg .GTH_DROP, .reg .CDR_EVT, .reg .CDR_FLG]) := by simp [*]) :
    Keeps P s₀ (State.routeBlock x c b) := by
  simp only [covers_cons, covers_nil, and_true] at cv
  unfold State.routeBlock
  split <;> (try split) <;> simp +contextual (maxDischargeDepth := 60) [h, cv]

@[simp] theorem State.blockLand_keeps (b : Block) (h : Keeps P s₀ x) (cv : Covers P ([.out, .ctxs, .cmgr, .rings, .icu, .pool, .twin, .smp, .reg
    .MOV_STS, .reg .ICU_ERR, .reg .GTH_EVT, .reg .GTH_CNT, .reg .GTH_DROP, .reg .CDR_EVT, .reg .CDR_FLG]) := by simp [*]) :
    Keeps P s₀ (State.blockLand x b) := by
  simp only [covers_cons, covers_nil, and_true] at cv
  unfold State.blockLand
  split <;> simp (maxDischargeDepth := 60) [h, cv]

@[simp] theorem State.endCmds_keeps (l : List (Nat × Nat)) (status result : Nat) (h : Keeps P s₀ x) (cv : Covers P ([.cmds]) := by simp [*]) :
    Keeps P s₀ (State.endCmds x l status result) := by
  simp only [covers_cons, covers_nil, and_true] at cv
  unfold State.endCmds
  simp (maxDischargeDepth := 60) [h, cv]

@[simp] theorem State.sampleDone_keeps (h : Keeps P s₀ x) (cv : Covers P ([.free, .cmds, .smp]) := by simp [*]) :
    Keeps P s₀ (State.sampleDone x) := by
  simp only [covers_cons, covers_nil, and_true] at cv
  unfold State.sampleDone
  dsimp only
  refine keeps_foldl _ (keeps_foldl _ h fun y a hy => ?_) fun y a hy => ?_
  · split
    · exact hy
    · cases a.2.upTo <;> simp (maxDischargeDepth := 60) [hy, cv]
  · split
    · exact hy
    · cases a.2.lastCseq <;> simp (maxDischargeDepth := 60) [hy, cv]

@[simp] theorem State.slotsFreed_keeps (h : Keeps P s₀ x) (cv : Covers P ([.ctxs, .cmgr, .smp, .reg .GTH_EVT, .reg .GTH_CNT, .reg .GTH_DROP, .reg
    .CDR_EVT, .reg .CDR_FLG]) := by simp [*]) :
    Keeps P s₀ (State.slotsFreed x) := by
  simp only [covers_cons, covers_nil, and_true] at cv
  have h1 := State.onSmp_keeps (fun m => { m with waiting := [] }) h
  unfold State.slotsFreed
  refine State.onSmp_keeps _ (keeps_foldl_pair (w := (_, [])) _ h1 fun v a hv => ?_)
  (repeat' split) <;> simp (maxDischargeDepth := 60) [hv, cv]

@[simp] theorem State.streamEvents_keeps (frame : Nat) (h : Keeps P s₀ x) (cv : Covers P ([.out, .rings, .icu, .smp, .reg .MOV_STS, .reg .ICU_ERR]) :=
    by simp [*]) :
    Keeps P s₀ (State.streamEvents x frame) := by
  simp only [covers_cons, covers_nil, and_true] at cv
  unfold State.streamEvents
  simp +contextual (maxDischargeDepth := 60) [h, cv]

@[simp] theorem execGatherDeadline_keeps (g : Nat) (h : Keeps P s₀ x) (cv : Covers P ([.smp, .reg .GTH_CNT, .reg .GTH_DROP]) := by simp [*]) :
    KeepsO P s₀ (execGatherDeadline g x) := by
  simp only [covers_cons, covers_nil, and_true] at cv
  unfold execGatherDeadline
  simp (maxDischargeDepth := 60) [h, cv]

@[simp] theorem State.releaseStep_keeps (n : Nat) (h : Keeps P s₀ x) (cv : Covers P ([.out, .ctxs, .cmgr, .txns, .rings, .entries, .deal, .slices,
    .icu, .pool, .reg .SCH_CTXCNT, .reg .MOV_STS, .reg .ICU_ERR]) := by simp [*]) :
    Keeps P s₀ (State.releaseStep x n) := by
  simp only [covers_cons, covers_nil, and_true] at cv
  unfold State.releaseStep
  split <;> (try split) <;> simp +contextual (maxDischargeDepth := 60) [h, cv]

@[simp] theorem State.releaseOf_keeps (r : Nat) (h : Keeps P s₀ x) (cv : Covers P ([.out, .ctxs, .cmgr, .txns, .rings, .entries, .deal, .slices, .icu,
    .pool, .reg .SCH_CTXCNT, .reg .MOV_STS, .reg .ICU_ERR]) := by simp [*]) :
    Keeps P s₀ (State.releaseOf x r) := by
  simp only [covers_cons, covers_nil, and_true] at cv
  unfold State.releaseOf
  split <;> (try split) <;> simp +contextual (maxDischargeDepth := 60) [h, cv]

@[simp] theorem execStreamRecordWrite_keeps (ring : Nat) (h : Keeps P s₀ x) (cv : Covers P ([.out, .free, .ctxs, .cmgr, .txns, .rings, .entries,
    .cmds, .deal, .slices, .icu, .pool, .smp, .reg .SCH_CTXCNT, .reg .MOV_STS, .reg .ICU_ERR, .reg .GTH_EVT, .reg .GTH_CNT, .reg .GTH_DROP, .reg
    .CDR_EVT, .reg .CDR_FLG]) := by simp [*]) :
    KeepsO P s₀ (execStreamRecordWrite ring x) := by
  simp only [covers_cons, covers_nil, and_true] at cv
  unfold execStreamRecordWrite
  (repeat' split) <;> (try simp only [Prod.ext_iff] at *) <;> (try subst_vars) <;> simp +contextual (maxDischargeDepth := 60) [h, cv]

@[simp] theorem execCoderBlockCode_keeps (k : Nat) (h : Keeps P s₀ x) (cv : Covers P ([.smp, .reg .CDR_EVT, .reg .CDR_CNT, .reg .CDR_FLG]) := by
    simp [*]) :
    KeepsO P s₀ (execCoderBlockCode k x) := by
  simp only [covers_cons, covers_nil, and_true] at cv
  unfold execCoderBlockCode
  split <;> simp (maxDischargeDepth := 60) [h, cv]

@[simp] theorem execCoderLateRaw_keeps (k : Nat) (h : Keeps P s₀ x) (cv : Covers P ([.smp, .reg .CDR_EVT, .reg .CDR_CNT, .reg .CDR_FLG]) := by
    simp [*]) :
    KeepsO P s₀ (execCoderLateRaw k x) := by
  simp only [covers_cons, covers_nil, and_true] at cv
  unfold execCoderLateRaw
  split <;> simp (maxDischargeDepth := 60) [h, cv]

@[simp] theorem execGthEvtRead_keeps (both : Bool) (h : Keeps P s₀ x) (cv : Covers P ([.out, .icu, .reg .ICU_ERR, .reg .GTH_EVT, .reg
    .GTH_EVT_SHADOW]) := by simp [*]) :
    KeepsO P s₀ (execGthEvtRead both x) := by
  simp only [covers_cons, covers_nil, and_true] at cv
  unfold execGthEvtRead
  simp (maxDischargeDepth := 60) [h, cv]

@[simp] theorem execCdrEvtRead_keeps (both : Bool) (h : Keeps P s₀ x) (cv : Covers P ([.out, .icu, .reg .ICU_ERR, .reg .CDR_EVT, .reg
    .CDR_EVT_SHADOW]) := by simp [*]) :
    KeepsO P s₀ (execCdrEvtRead both x) := by
  simp only [covers_cons, covers_nil, and_true] at cv
  unfold execCdrEvtRead
  simp (maxDischargeDepth := 60) [h, cv]

end Sys2Proof.Machine
end

