-- ==== Sys2Proof/Laws/KeepsTxn.lean ====
section
/-! SUPPORT. Laws/KeepsTxn.lean: for each function of Machine/Txn.lean, the parts of the state that it leaves as they are. -/

namespace Sys2Proof.Machine

variable {P : Part → Bool} {s₀ x : State}

@[simp] theorem State.sendTxn_keeps (x_ : Txn) (c : Ctx) (execAt : Nat) (h : Keeps P s₀ x) (cv : Covers P ([.out, .links, .txns]) := by simp [*]) :
    Keeps P s₀ (State.sendTxn x x_ c execAt) := by
  simp only [covers_cons, covers_nil, and_true] at cv
  unfold State.sendTxn
  split <;> simp (maxDischargeDepth := 60) [h, cv]

@[simp] theorem State.startItem_keeps (n t o : Nat) (h_ : Hand) (x_ : HandItem) (k : CtxSlot) (tag : Nat) (h : Keeps P s₀ x) (cv : Covers P ([.out,
    .links, .ctxs, .cmgr, .txns, .rings, .entries, .deal, .icu, .reg .MOV_STS, .reg .ICU_ERR]) := by simp [*]) :
    Keeps P s₀ (State.startItem x n t o h_ x_ k tag) := by
  simp only [covers_cons, covers_nil, and_true] at cv
  unfold State.startItem
  split <;> simp (maxDischargeDepth := 60) [h, cv]

@[simp] theorem State.startNext_keeps (n tag t : Nat) (h : Keeps P s₀ x) (cv : Covers P ([.out, .links, .ctxs, .cmgr, .txns, .rings, .entries, .deal,
    .slices, .icu, .pool, .smp, .reg .SCH_ADM_STS, .reg .SCH_DYN_CNT, .reg .MOV_STS, .reg .ICU_ERR, .reg .GTH_CNT, .reg .GTH_DROP, .reg .CDR_EVT, .reg
    .CDR_FLG]) := by simp [*]) :
    Keeps P s₀ (State.startNext x n tag t) := by
  simp only [covers_cons, covers_nil, and_true] at cv
  unfold State.startNext
  split
  · exact h
  · rename_i h0 _
    split
    · exact h
    · have hf : Keeps P s₀ (if !x.composes n h0.frame || x.rateEmpty n h0.frame then (x, h0)
          else x.fill n (x.frameSpan x.tim.tickAt) ((t - x.tim.tickAt) * 10) true (some 4) h0 8).1 := by
        split <;> simp (maxDischargeDepth := 60) [h, cv]
      simp only []
      revert hf
      generalize (if !x.composes n h0.frame || x.rateEmpty n h0.frame then (x, h0)
        else x.fill n (x.frameSpan x.tim.tickAt) ((t - x.tim.tickAt) * 10) true (some 4) h0 8) = w
      intro hf
      split
      · simp (maxDischargeDepth := 60) [hf, cv]
      · (repeat' split) <;> simp (maxDischargeDepth := 60) [hf, cv]

@[simp] theorem State.ctxCalm_keeps (eph : Nat) (h : Keeps P s₀ x) (cv : Covers P ([.ctxs]) := by simp [*]) :
    Keeps P s₀ (State.ctxCalm x eph) := by
  simp only [covers_cons, covers_nil, and_true] at cv
  unfold State.ctxCalm
  simp (maxDischargeDepth := 60) [h, cv]

@[simp] theorem State.flip_keeps (eph : Nat) (h : Keeps P s₀ x) (cv : Covers P ([.ctxs]) := by simp [*]) :
    Keeps P s₀ (State.flip x eph) := by
  simp only [covers_cons, covers_nil, and_true] at cv
  unfold State.flip
  simp (maxDischargeDepth := 60) [h, cv]

@[simp] theorem State.eventOutcome_keeps (eph status : Nat) (h : Keeps P s₀ x) (cv : Covers P ([.ctxs, .cmgr, .txns, .entries, .deal]) := by simp [*])
    :
    Keeps P s₀ (State.eventOutcome x eph status) := by
  simp only [covers_cons, covers_nil, and_true] at cv
  unfold State.eventOutcome
  split <;> simp (maxDischargeDepth := 60) [h, cv]

@[simp] theorem State.intentDone_keeps (eph status stamp : Nat) (h : Keeps P s₀ x) (cv : Covers P ([.out, .rings, .icu, .twin, .reg .MOV_STS, .reg
    .ICU_ERR]) := by simp [*]) :
    Keeps P s₀ (State.intentDone x eph status stamp) := by
  simp only [covers_cons, covers_nil, and_true] at cv
  unfold State.intentDone
  simp (maxDischargeDepth := 60) [h, cv]

@[simp] theorem State.txnDone_keeps (x_ : Txn) (status stamp : Nat) (late : Bool) (h : Keeps P s₀ x) (cv : Covers P ([.out, .ctxs, .cmgr, .txns,
    .rings, .entries, .deal, .icu, .twin, .reg .MOV_STS, .reg .ICU_ERR]) := by simp [*]) :
    Keeps P s₀ (State.txnDone x x_ status stamp late) := by
  simp only [covers_cons, covers_nil, and_true] at cv
  unfold State.txnDone
  split <;> (try split) <;> simp +contextual (maxDischargeDepth := 60) [h, cv]

@[simp] theorem State.txnHalt_keeps (x_ : Txn) (status : Nat) (h : Keeps P s₀ x) (cv : Covers P ([.out, .ctxs, .cmgr, .txns, .rings, .entries, .deal,
    .icu, .twin, .smp, .reg .MOV_STS, .reg .ICU_ERR, .reg .GTH_CNT, .reg .GTH_DROP, .reg .CDR_EVT, .reg .CDR_FLG]) := by simp [*]) :
    Keeps P s₀ (State.txnHalt x x_ status) := by
  simp only [covers_cons, covers_nil, and_true] at cv
  unfold State.txnHalt
  simp (maxDischargeDepth := 60) [h, cv]

@[simp] theorem State.again_keeps (x_ : Txn) (head : Bool) (h : Keeps P s₀ x) (cv : Covers P ([.out, .ctxs, .cmgr, .txns, .rings, .entries, .deal,
    .icu, .pool, .reg .SCH_CTXCNT, .reg .MOV_STS, .reg .ICU_ERR]) := by simp [*]) :
    Keeps P s₀ (State.again x x_ head) := by
  simp only [covers_cons, covers_nil, and_true] at cv
  unfold State.again
  simp only []
  (repeat' split) <;> simp (maxDischargeDepth := 60) [h, cv]

@[simp] theorem State.delayEntry_keeps (x_ : Txn) (key why : Nat) (h : Keeps P s₀ x) (cv : Covers P ([.out, .ctxs, .cmgr, .txns, .rings, .entries,
    .deal, .icu, .pool, .reg .SCH_CTXCNT, .reg .MOV_STS, .reg .ICU_ERR]) := by simp [*]) :
    Keeps P s₀ (State.delayEntry x x_ key why) := by
  simp only [covers_cons, covers_nil, and_true] at cv
  unfold State.delayEntry
  split <;> (try split) <;> simp +contextual (maxDischargeDepth := 60) [h, cv]

@[simp] theorem State.nakBackoff_keeps (x_ : Txn) (t : Nat) (h : Keeps P s₀ x) (cv : Covers P ([.out, .ctxs, .cmgr, .txns, .rings, .entries, .deal,
    .icu, .pool, .reg .SCH_NAK_CNT, .reg .SCH_CTXCNT, .reg .MOV_STS, .reg .ICU_ERR]) := by simp [*]) :
    Keeps P s₀ (State.nakBackoff x x_ t) := by
  simp only [covers_cons, covers_nil, and_true] at cv
  unfold State.nakBackoff
  split <;> simp (maxDischargeDepth := 60) [h, cv]

@[simp] theorem State.stamped_keeps (x_ : Txn) (ts : Nat) (h : Keeps P s₀ x) (cv : Covers P ([.entries]) := by simp [*]) :
    Keeps P s₀ (State.stamped x x_ ts) := by
  simp only [covers_cons, covers_nil, and_true] at cv
  unfold State.stamped
  split <;> simp (maxDischargeDepth := 60) [h, cv]

@[simp] theorem State.ackIn_keeps (x_ : Txn) (c : Ctx) (h : Keeps P s₀ x) (cv : Covers P ([.out, .links, .txns]) := by simp [*]) :
    Keeps P s₀ (State.ackIn x x_ c) := by
  simp only [covers_cons, covers_nil, and_true] at cv
  unfold State.ackIn
  simp (maxDischargeDepth := 60) [h, cv]

@[simp] theorem State.actedOn_keeps (eph : Nat) (setup : List Byte) (quiet : Bool) (h : Keeps P s₀ x) (cv : Covers P ([.out, .ctxs, .cmgr, .txns,
    .rings, .entries, .deal, .icu, .pool, .smp, .reg .SCH_CTXCNT, .reg .MOV_STS, .reg .ICU_ERR, .reg .GTH_CNT, .reg .GTH_DROP, .reg .CDR_EVT, .reg
    .CDR_FLG]) := by simp [*]) :
    Keeps P s₀ (State.actedOn x eph setup quiet) := by
  simp only [covers_cons, covers_nil, and_true] at cv
  unfold State.actedOn
  simp only []; (repeat' split) <;> (try simp only [Prod.ext_iff] at *) <;> subst_vars <;> simp +contextual (maxDischargeDepth := 60) [h, cv]

@[simp] theorem State.controlOk_keeps (x_ : Txn) (e : Entry) (h : Keeps P s₀ x) (cv : Covers P ([.out, .ctxs, .cmgr, .txns, .rings, .entries, .deal,
    .icu, .pool, .twin, .smp, .reg .SCH_CTXCNT, .reg .MOV_STS, .reg .ICU_ERR, .reg .GTH_CNT, .reg .GTH_DROP, .reg .CDR_EVT, .reg .CDR_FLG]) := by simp
    [*]) :
    Keeps P s₀ (State.controlOk x x_ e) := by
  simp only [covers_cons, covers_nil, and_true] at cv
  unfold State.controlOk
  simp (maxDischargeDepth := 60) [h, cv]

@[simp] theorem State.toStage_keeps (x_ : Txn) (id st : Nat) (h : Keeps P s₀ x) (cv : Covers P ([.out, .ctxs, .cmgr, .txns, .rings, .entries, .deal,
    .icu, .pool, .reg .SCH_CTXCNT, .reg .MOV_STS, .reg .ICU_ERR]) := by simp [*]) :
    Keeps P s₀ (State.toStage x x_ id st) := by
  simp only [covers_cons, covers_nil, and_true] at cv
  unfold State.toStage
  simp (maxDischargeDepth := 60) [h, cv]

@[simp] theorem State.acceptIn_keeps (x_ : Txn) (k : CtxSlot) (p : Pkt) (tEnd : Nat) (h : Keeps P s₀ x) (cv : Covers P ([.out, .links, .ctxs, .cmgr,
    .txns, .rings, .entries, .deal, .icu, .pool, .twin, .smp, .reg .SCH_CTXCNT, .reg .MOV_STS, .reg .ICU_ERR, .reg .GTH_EVT, .reg .GTH_CNT, .reg
    .GTH_DROP, .reg .CDR_EVT, .reg .CDR_FLG]) := by simp [*]) :
    Keeps P s₀ (State.acceptIn x x_ k p tEnd) := by
  simp only [covers_cons, covers_nil, and_true] at cv
  have h0 : Keeps P s₀ ((x.ackIn x_ k.ctx).ctxCalm x_.eph) := by simp (maxDischargeDepth := 60) [h, cv]
  unfold State.acceptIn
  dsimp only
  generalize (x.ackIn x_ k.ctx).ctxCalm x_.eph = y at h0 ⊢
  have h1 : Keeps P s₀ ((y.flip x_.eph).stamped x_ tEnd) := by simp (maxDischargeDepth := 60) [h0, cv]
  generalize (y.flip x_.eph).stamped x_ tEnd = z at h1 ⊢
  repeat' split
  all_goals simp (maxDischargeDepth := 60) [h, h0, h1, cv]

@[simp] theorem State.holdEvent_keeps (x_ : Txn) (p : Pkt) (h : Keeps P s₀ x) (cv : Covers P ([.out, .twin]) := by simp [*]) :
    Keeps P s₀ (State.holdEvent x x_ p) := by
  simp only [covers_cons, covers_nil, and_true] at cv
  unfold State.holdEvent
  simp (maxDischargeDepth := 60) [h, cv]

@[simp] theorem State.answerIn_keeps (x_ : Txn) (k : CtxSlot) (p : Pkt) (t tEnd : Nat) (h : Keeps P s₀ x) (cv : Covers P ([.out, .links, .ctxs, .cmgr,
    .txns, .rings, .entries, .deal, .icu, .pool, .twin, .smp, .reg .SCH_NAK_CNT, .reg .SCH_CTXCNT, .reg .SCH_XERR, .reg .MOV_STS, .reg .ICU_ERR, .reg
    .GTH_EVT, .reg .GTH_CNT, .reg .GTH_DROP, .reg .CDR_EVT, .reg .CDR_FLG]) := by simp [*]) :
    Keeps P s₀ (State.answerIn x x_ k p t tEnd) := by
  simp only [covers_cons, covers_nil, and_true] at cv
  unfold State.answerIn
  (repeat' split) <;> (try simp only [Prod.ext_iff] at *) <;> (try subst_vars) <;> simp +contextual (maxDischargeDepth := 60) [h, cv]

@[simp] theorem State.acceptOut_keeps (x_ : Txn) (k : CtxSlot) (t tEnd : Nat) (notyet : Bool) (h : Keeps P s₀ x) (cv : Covers P ([.out, .ctxs, .cmgr,
    .txns, .rings, .entries, .deal, .icu, .pool, .twin, .smp, .reg .SCH_CTXCNT, .reg .MOV_STS, .reg .ICU_ERR, .reg .GTH_CNT, .reg .GTH_DROP, .reg
    .CDR_EVT, .reg .CDR_FLG]) := by simp [*]) :
    Keeps P s₀ (State.acceptOut x x_ k t tEnd notyet) := by
  simp only [covers_cons, covers_nil, and_true] at cv
  unfold State.acceptOut
  split <;> simp (maxDischargeDepth := 60) [h, cv]

@[simp] theorem State.answerOut_keeps (x_ : Txn) (k : CtxSlot) (p : Pkt) (t tEnd : Nat) (h : Keeps P s₀ x) (cv : Covers P ([.out, .ctxs, .cmgr, .txns,
    .rings, .entries, .deal, .icu, .pool, .twin, .smp, .reg .SCH_NAK_CNT, .reg .SCH_CTXCNT, .reg .MOV_STS, .reg .ICU_ERR, .reg .GTH_CNT, .reg
    .GTH_DROP, .reg .CDR_EVT, .reg .CDR_FLG]) := by simp [*]) :
    Keeps P s₀ (State.answerOut x x_ k p t tEnd) := by
  simp only [covers_cons, covers_nil, and_true] at cv
  unfold State.answerOut
  simp (maxDischargeDepth := 60) [h, cv]

@[simp] theorem State.answerCommand_keeps (x_ : Txn) (k : CtxSlot) (p : Pkt) (h : Keeps P s₀ x) (cv : Covers P ([.out, .links, .ctxs, .cmgr, .txns,
    .rings, .entries, .deal, .icu, .twin, .smp, .reg .MOV_STS, .reg .ICU_ERR, .reg .GTH_CNT, .reg .GTH_DROP, .reg .CDR_EVT, .reg .CDR_FLG]) := by simp
    [*]) :
    Keeps P s₀ (State.answerCommand x x_ k p) := by
  simp only [covers_cons, covers_nil, and_true] at cv
  unfold State.answerCommand
  simp only []
  (repeat' split) <;> simp (maxDischargeDepth := 60) [h, cv]

@[simp] theorem State.answerSetup_keeps (x_ : Txn) (k : CtxSlot) (p : Pkt) (t tEnd : Nat) (h : Keeps P s₀ x) (cv : Covers P ([.out, .ctxs, .cmgr,
    .txns, .rings, .entries, .deal, .icu, .pool, .twin, .smp, .reg .SCH_NAK_CNT, .reg .SCH_CTXCNT, .reg .MOV_STS, .reg .ICU_ERR, .reg .GTH_CNT, .reg
    .GTH_DROP, .reg .CDR_EVT, .reg .CDR_FLG]) := by simp [*]) :
    Keeps P s₀ (State.answerSetup x x_ k p t tEnd) := by
  simp only [covers_cons, covers_nil, and_true] at cv
  unfold State.answerSetup
  split <;> (try split) <;> simp +contextual (maxDischargeDepth := 60) [h, cv]

@[simp] theorem State.answerPing_keeps (x_ : Txn) (p : Pkt) (t : Nat) (h : Keeps P s₀ x) (cv : Covers P ([.out, .ctxs, .cmgr, .txns, .rings, .entries,
    .deal, .icu, .pool, .twin, .smp, .reg .SCH_NAK_CNT, .reg .SCH_CTXCNT, .reg .MOV_STS, .reg .ICU_ERR, .reg .GTH_CNT, .reg .GTH_DROP, .reg .CDR_EVT,
    .reg .CDR_FLG]) := by simp [*]) :
    Keeps P s₀ (State.answerPing x x_ p t) := by
  simp only [covers_cons, covers_nil, and_true] at cv
  unfold State.answerPing
  split <;> simp (maxDischargeDepth := 60) [h, cv]

@[simp] theorem State.afterOutcome_keeps (eph : Nat) (h : Keeps P s₀ x) (cv : Covers P ([.out, .ctxs, .cmgr, .txns, .rings, .entries, .deal, .icu,
    .pool, .reg .SCH_CTXCNT, .reg .MOV_STS, .reg .ICU_ERR]) := by simp [*]) :
    Keeps P s₀ (State.afterOutcome x eph) := by
  simp only [covers_cons, covers_nil, and_true] at cv
  unfold State.afterOutcome
  simp (maxDischargeDepth := 60) [h, cv]

@[simp] theorem State.takeAnswer_keeps (x_ : Txn) (p : Pkt) (t tEnd : Nat) (h : Keeps P s₀ x) (cv : Covers P ([.out, .links, .ctxs, .cmgr, .txns,
    .rings, .entries, .deal, .slices, .icu, .pool, .twin, .smp, .reg .SCH_NAK_CNT, .reg .SCH_CTXCNT, .reg .SCH_XERR, .reg .MOV_STS, .reg .ICU_ERR,
    .reg .GTH_EVT, .reg .GTH_CNT, .reg .GTH_DROP, .reg .CDR_EVT, .reg .CDR_FLG]) := by simp [*]) :
    Keeps P s₀ (State.takeAnswer x x_ p t tEnd) := by
  simp only [covers_cons, covers_nil, and_true] at cv
  unfold State.takeAnswer
  simp only []; (repeat' split) <;> (try simp only [Prod.ext_iff] at *) <;> subst_vars <;> simp +contextual (maxDischargeDepth := 60) [h, cv]

@[simp] theorem State.traceAnswer_keeps (x_ : Txn) (t pid : Nat) (h : Keeps P s₀ x) (cv : Covers P ([.out, .rings, .deal, .icu, .reg .MOV_STS, .reg
    .ICU_ERR]) := by simp [*]) :
    Keeps P s₀ (State.traceAnswer x x_ t pid) := by
  simp only [covers_cons, covers_nil, and_true] at cv
  unfold State.traceAnswer
  simp (maxDischargeDepth := 60) [h, cv]

@[simp] theorem State.noAnswer_keeps (x_ : Txn) (h : Keeps P s₀ x) (cv : Covers P ([.out, .ctxs, .cmgr, .txns, .rings, .entries, .deal, .slices, .icu,
    .pool, .twin, .smp, .reg .SCH_CTXCNT, .reg .MOV_STS, .reg .ICU_ERR, .reg .GTH_CNT, .reg .GTH_DROP, .reg .CDR_EVT, .reg .CDR_FLG]) := by simp [*])
    :
    Keeps P s₀ (State.noAnswer x x_) := by
  simp only [covers_cons, covers_nil, and_true] at cv
  unfold State.noAnswer
  simp only []; (repeat' split) <;> (try simp only [Prod.ext_iff] at *) <;> subst_vars <;> simp +contextual (maxDischargeDepth := 60) [h, cv]

end Sys2Proof.Machine
end

