-- ==== Sys2Proof/Laws/KeepsCmdBase.lean ====
section
/-! SUPPORT. Laws/KeepsCmdBase.lean: for each function of Machine/CmdBase.lean, the parts of the state that it leaves as they are. -/

namespace Sys2Proof.Machine

variable {P : Part → Bool} {s₀ x : State}

@[simp] theorem State.onAudit_keeps (f : Audit → Audit) (h : Keeps P s₀ x) (cv : Covers P ([.audit]) := by simp [*]) :
    Keeps P s₀ (State.onAudit x f) := by
  simp only [covers_cons, covers_nil, and_true] at cv
  unfold State.onAudit
  simp (maxDischargeDepth := 60) [h, cv]

@[simp] theorem State.auditWrite_keeps (b : List Byte) (h : Keeps P s₀ x) (cv : Covers P ([.out, .rings, .icu, .audit, .reg .MOV_STS, .reg .ICU_ERR])
    := by simp [*]) :
    Keeps P s₀ (State.auditWrite x b) := by
  simp only [covers_cons, covers_nil, and_true] at cv
  unfold State.auditWrite
  simp (maxDischargeDepth := 60) [h, cv]

@[simp] theorem State.auditRecord_keeps (kind role sl status info : Nat) (detail : List Byte) (h : Keeps P s₀ x) (cv : Covers P ([.out, .rings, .icu,
    .audit, .reg .MOV_STS, .reg .ICU_ERR, .reg .SEC_EVT, .reg .SEC_AUDIT]) := by simp [*]) :
    Keeps P s₀ (State.auditRecord x kind role sl status info detail) := by
  simp only [covers_cons, covers_nil, and_true] at cv
  unfold State.auditRecord
  simp (maxDischargeDepth := 60) [h, cv]

@[simp] theorem State.auditDrain_keeps (a1 : Nat) (h : Keeps P s₀ x) (cv : Covers P ([.out, .rings, .icu, .audit, .reg .MOV_STS, .reg .ICU_ERR]) := by
    simp [*]) :
    Keeps P s₀ (State.auditDrain x a1) := by
  simp only [covers_cons, covers_nil, and_true] at cv
  revert h
  fun_induction State.auditDrain x a1 <;> intro h <;> (try simp only [Prod.ext_iff] at *) <;> (try subst_vars) <;> simp_all +contextual
      (maxDischargeDepth := 60)

@[simp] theorem State.auditFlush_keeps (h : Keeps P s₀ x) (cv : Covers P ([.out, .rings, .icu, .audit, .reg .MOV_STS, .reg .ICU_ERR, .reg .SEC_AUDIT])
    := by simp [*]) :
    Keeps P s₀ (State.auditFlush x) := by
  simp only [covers_cons, covers_nil, and_true] at cv
  unfold State.auditFlush
  simp (maxDischargeDepth := 60) [h, cv]

@[simp] theorem State.aerCorr_keeps (b : Nat) (h : Keeps P s₀ x) (cv : Covers P ([.aer]) := by simp [*]) :
    Keeps P s₀ (State.aerCorr x b) := by
  simp only [covers_cons, covers_nil, and_true] at cv
  unfold State.aerCorr
  simp (maxDischargeDepth := 60) [h, cv]

@[simp] theorem State.aerUncorr_keeps (b : Nat) (header prefix_ : List Byte) (quiet : Bool) (h : Keeps P s₀ x) (cv : Covers P ([.aer]) := by simp
    [*]) :
    Keeps P s₀ (State.aerUncorr x b header prefix_ quiet) := by
  simp only [covers_cons, covers_nil, and_true] at cv
  unfold State.aerUncorr
  simp (maxDischargeDepth := 60) [h, cv]

@[simp] theorem State.onCmd_keeps (r i : Nat) (f : CmdRec → CmdRec) (h : Keeps P s₀ x) (cv : Covers P ([.cmds]) := by simp [*]) :
    Keeps P s₀ (State.onCmd x r i f) := by
  simp only [covers_cons, covers_nil, and_true] at cv
  unfold State.onCmd
  simp (maxDischargeDepth := 60) [h, cv]

@[simp] theorem State.cmdDone_keeps (r i status result : Nat) (h : Keeps P s₀ x) (cv : Covers P ([.cmds]) := by simp [*]) :
    Keeps P s₀ (State.cmdDone x r i status result) := by
  simp only [covers_cons, covers_nil, and_true] at cv
  unfold State.cmdDone
  simp (maxDischargeDepth := 60) [h, cv]

@[simp] theorem State.tenantNote_keeps (c : CmdRec) (h : Keeps P s₀ x) (cv : Covers P ([.out, .rings, .icu, .audit, .reg .MOV_STS, .reg .ICU_ERR, .reg
    .SLC_ERR, .reg .SEC_EVT, .reg .SEC_AUDIT]) := by simp [*]) :
    Keeps P s₀ (State.tenantNote x c) := by
  simp only [covers_cons, covers_nil, and_true] at cv
  unfold State.tenantNote
  split <;> simp (maxDischargeDepth := 60) [h, cv]

@[simp] theorem State.cmdForeign_keeps (c : CmdRec) (h : Keeps P s₀ x) (cv : Covers P ([.out, .rings, .cmds, .icu, .audit, .reg .MOV_STS, .reg
    .ICU_ERR, .reg .SLC_ERR, .reg .SEC_EVT, .reg .SEC_AUDIT]) := by simp [*]) :
    Keeps P s₀ (State.cmdForeign x c) := by
  simp only [covers_cons, covers_nil, and_true] at cv
  unfold State.cmdForeign
  simp (maxDischargeDepth := 60) [h, cv]

@[simp] theorem State.passHead_keeps (r n : Nat) (h : Keeps P s₀ x) (cv : Covers P ([.rings, .mov, .reg .MOV_STS]) := by simp [*]) :
    Keeps P s₀ (State.passHead x r n) := by
  simp only [covers_cons, covers_nil, and_true] at cv
  unfold State.passHead
  simp (maxDischargeDepth := 60) [h, cv]

@[simp] theorem State.cmdChecked_keeps (c : CmdRec) (body : CmdRec → State → State) (h : Keeps P s₀ x) (hb : ∀ y b1, Keeps P s₀ y → Keeps P s₀ (body
    b1 y)) (cv : Covers P ([.out, .rings, .cmds, .icu, .audit, .reg .MOV_STS, .reg .ICU_ERR, .reg .SLC_ERR, .reg .SEC_EVT, .reg .SEC_AUDIT]) := by
    simp [*]) :
    Keeps P s₀ (State.cmdChecked x c body) := by
  simp only [covers_cons, covers_nil, and_true] at cv
  unfold State.cmdChecked
  simp only []; (repeat' split) <;> (try simp only [Prod.ext_iff] at *) <;> subst_vars <;> simp +contextual (maxDischargeDepth := 60) [h, hb, cv]

@[simp] theorem State.withCmd_keeps (r : Nat) (d : HostRead) (ops : Nat → Bool) (body : CmdRec → State → State) (names : optParam (List (Nat × Nat))
    []) (h : Keeps P s₀ x) (hb : ∀ y b1, Keeps P s₀ y → Keeps P s₀ (body b1 y)) (cv : Covers P ([.out, .rings, .cmds, .icu, .audit, .mov, .reg
    .MOV_STS, .reg .ICU_ERR, .reg .SLC_ERR, .reg .SEC_EVT, .reg .SEC_AUDIT]) := by simp [*]) :
    Keeps P s₀ (State.withCmd x r d ops body names) := by
  simp only [covers_cons, covers_nil, and_true] at cv
  unfold State.withCmd
  split <;> (try split) <;> simp +contextual (maxDischargeDepth := 60) [h, hb, cv]

@[simp] theorem execReservedOpcode_keeps (r : Nat) (d : HostRead) (h : Keeps P s₀ x) (cv : Covers P ([.out, .rings, .cmds, .icu, .audit, .mov, .reg
    .MOV_STS, .reg .ICU_ERR, .reg .SLC_ERR, .reg .SEC_EVT, .reg .SEC_AUDIT]) := by simp [*]) :
    KeepsO P s₀ (execReservedOpcode r d x) := by
  simp only [covers_cons, covers_nil, and_true] at cv
  unfold execReservedOpcode
  simp (maxDischargeDepth := 60) [h, cv]

@[simp] theorem State.destroyed_keeps (n : Nat) (h : Keeps P s₀ x) (cv : Covers P ([.rings, .cmds]) := by simp [*]) :
    Keeps P s₀ (State.destroyed x n) := by
  simp only [covers_cons, covers_nil, and_true] at cv
  unfold State.destroyed
  split <;> simp (maxDischargeDepth := 60) [h, cv]

@[simp] theorem State.cmdWrite_keeps (c : CmdRec) (st result : Nat) (h : Keeps P s₀ x) (cv : Covers P ([.out, .rings, .cmds, .icu, .mov, .reg
    .MOV_STS, .reg .ICU_ERR]) := by simp [*]) :
    Keeps P s₀ (State.cmdWrite x c st result) := by
  simp only [covers_cons, covers_nil, and_true] at cv
  unfold State.cmdWrite
  simp (maxDischargeDepth := 60) [h, cv]

@[simp] theorem State.cmdWriteback_keeps (r : Nat) (h : Keeps P s₀ x) (cv : Covers P ([.out, .rings, .cmds, .icu, .mov, .reg .MOV_STS, .reg .ICU_ERR])
    := by simp [*]) :
    Keeps P s₀ (State.cmdWriteback x r) := by
  simp only [covers_cons, covers_nil, and_true] at cv
  unfold State.cmdWriteback
  split <;> (try split) <;> simp +contextual (maxDischargeDepth := 60) [h, cv]

end Sys2Proof.Machine
end

