-- ==== Sys2Proof/Laws/KeepsContext.lean ====
section
/-! SUPPORT. Laws/KeepsContext.lean: for each function of Machine/Context.lean, the parts of the state that it leaves as they are. -/

namespace Sys2Proof.Machine

variable {P : Part → Bool} {s₀ x : State}

@[simp] theorem State.ctxOut_keeps (a : Nat) (k : CtxSlot) (h : Keeps P s₀ x) (cv : Covers P ([.out]) := by simp [*]) :
    Keeps P s₀ (State.ctxOut x a k) := by
  simp only [covers_cons, covers_nil, and_true] at cv
  unfold State.ctxOut
  simp (maxDischargeDepth := 60) [h, cv]

@[simp] theorem State.ctxDrop_keeps (eph : Nat) (h : Keeps P s₀ x) (cv : Covers P ([.ctxs, .cmgr]) := by simp [*]) :
    Keeps P s₀ (State.ctxDrop x eph) := by
  simp only [covers_cons, covers_nil, and_true] at cv
  unfold State.ctxDrop
  split <;> simp (maxDischargeDepth := 60) [h, cv]

@[simp] theorem State.ctxForget_keeps (eph : Nat) (h : Keeps P s₀ x) (cv : Covers P ([.cmgr]) := by simp [*]) :
    Keeps P s₀ (State.ctxForget x eph) := by
  simp only [covers_cons, covers_nil, and_true] at cv
  unfold State.ctxForget
  (repeat' split) <;> (try simp only [Prod.ext_iff] at *) <;> (try subst_vars) <;> simp +contextual (maxDischargeDepth := 60) [h, cv]

@[simp] theorem State.ctxRoom_keeps (h_ : CtxHost) (h : Keeps P s₀ x) (cv : Covers P ([.out, .ctxs, .cmgr]) := by simp [*]) :
    Keeps P s₀ (State.ctxRoom x h_).1 := by
  simp only [covers_cons, covers_nil, and_true] at cv
  unfold State.ctxRoom
  (repeat' split) <;> (try simp only [Prod.ext_iff] at *) <;> subst_vars <;> simp +contextual (maxDischargeDepth := 60) [h, cv]

@[simp] theorem State.ctxIn_keeps (eph : Nat) (c : Ctx) (h : Keeps P s₀ x) (cv : Covers P ([.ctxs, .cmgr]) := by simp [*]) :
    Keeps P s₀ (State.ctxIn x eph c) := by
  simp only [covers_cons, covers_nil, and_true] at cv
  unfold State.ctxIn
  simp (maxDischargeDepth := 60) [h, cv]

@[simp] theorem State.ctxCatchUp_keeps (eph : Nat) (h : Keeps P s₀ x) (cv : Covers P ([.out, .ctxs, .rings, .icu, .smp, .reg .MOV_STS, .reg .ICU_ERR,
    .reg .GTH_CNT, .reg .GTH_DROP, .reg .CDR_EVT, .reg .CDR_FLG]) := by simp [*]) :
    Keeps P s₀ (State.ctxCatchUp x eph) := by
  simp only [covers_cons, covers_nil, and_true] at cv
  unfold State.ctxCatchUp
  (repeat' split) <;> (try simp only [Prod.ext_iff] at *) <;> (try subst_vars) <;> simp +contextual (maxDischargeDepth := 60) [h, cv]

@[simp] theorem State.ctxImage_keeps (h_ : CtxHost) (eph : Nat) (b : List Byte) (h : Keeps P s₀ x) (cv : Covers P ([.out, .ctxs, .cmgr, .rings,
    .slices, .icu, .smp, .reg .SCH_CTXCNT, .reg .MOV_STS, .reg .ICU_ERR, .reg .GTH_CNT, .reg .GTH_DROP, .reg .CDR_EVT, .reg .CDR_FLG]) := by simp [*])
    :
    Keeps P s₀ (State.ctxImage x h_ eph b).1 := by
  simp only [covers_cons, covers_nil, and_true] at cv
  have hr : Keeps P s₀ (x.ctxRoom h_).1 := by simp [h, cv]
  unfold State.ctxImage
  split
  · exact h
  · split <;> rename_i e <;> rw [e] at hr
    · dsimp only
      (repeat' split) <;> simp (maxDischargeDepth := 60) [hr, cv]
    · simp (maxDischargeDepth := 60) [hr, cv]

@[simp] theorem State.ctxLand_keeps (h_ : CtxHost) (eph : Nat) (h : Keeps P s₀ x) (cv : Covers P ([.out, .ctxs, .cmgr, .rings, .slices, .icu, .smp,
    .reg .SCH_CTXCNT, .reg .MOV_STS, .reg .ICU_ERR, .reg .GTH_CNT, .reg .GTH_DROP, .reg .CDR_EVT, .reg .CDR_FLG]) := by simp [*]) :
    Keeps P s₀ (State.ctxLand x h_ eph).1 := by
  simp only [covers_cons, covers_nil, and_true] at cv
  unfold State.ctxLand
  (repeat' split) <;> (try simp only [Prod.ext_iff] at *) <;> (try subst_vars) <;> simp +contextual (maxDischargeDepth := 60) [h, cv]

@[simp] theorem State.ctxGet_keeps (h_ : CtxHost) (eph : Nat) (h : Keeps P s₀ x) (cv : Covers P ([.out, .ctxs, .cmgr, .rings, .slices, .icu, .smp,
    .reg .SCH_CTXCNT, .reg .MOV_STS, .reg .ICU_ERR, .reg .GTH_CNT, .reg .GTH_DROP, .reg .CDR_EVT, .reg .CDR_FLG]) := by simp [*]) :
    Keeps P s₀ (State.ctxGet x h_ eph).1 := by
  simp only [covers_cons, covers_nil, and_true] at cv
  unfold State.ctxGet
  split <;> (try split) <;> simp +contextual (maxDischargeDepth := 60) [h, cv]

@[simp] theorem State.ctxFlush_keeps (h_ : CtxHost) (eph : Nat) (h : Keeps P s₀ x) (cv : Covers P ([.out]) := by simp [*]) :
    Keeps P s₀ (State.ctxFlush x h_ eph).1 := by
  simp only [covers_cons, covers_nil, and_true] at cv
  unfold State.ctxFlush
  split <;> (try split) <;> (try split) <;> simp +contextual (maxDischargeDepth := 60) [h, cv]

@[simp] theorem State.ctxPin_keeps (eph : Nat) (on : Bool) (h : Keeps P s₀ x) (cv : Covers P ([.ctxs]) := by simp [*]) :
    Keeps P s₀ (State.ctxPin x eph on) := by
  simp only [covers_cons, covers_nil, and_true] at cv
  unfold State.ctxPin
  simp (maxDischargeDepth := 60) [h, cv]

end Sys2Proof.Machine
end

