-- ==== Sys2Proof/Laws/KeepsTds.lean ====
section
/-! SUPPORT. Laws/KeepsTds.lean: for each function of Machine/Tds.lean, the parts of the state that it leaves as they are. -/

namespace Sys2Proof.Machine

variable {P : Part → Bool} {s₀ x : State}

@[simp] theorem State.refuseEntry_keeps (e : Entry) (st : Nat) (h : Keeps P s₀ x) (cv : Covers P ([.out, .ctxs, .cmgr, .txns, .rings, .entries, .deal,
    .slices, .icu, .reg .MOV_STS, .reg .ICU_ERR]) := by simp [*]) :
    Keeps P s₀ (State.refuseEntry x e st) := by
  simp only [covers_cons, covers_nil, and_true] at cv
  unfold State.refuseEntry
  simp (maxDischargeDepth := 60) [h, cv]

@[simp] theorem State.admitEntry_keeps (id : Nat) (h : Keeps P s₀ x) (cv : Covers P ([.out, .ctxs, .cmgr, .txns, .rings, .entries, .deal, .slices,
    .icu, .reg .MOV_STS, .reg .ICU_ERR]) := by simp [*]) :
    Keeps P s₀ (State.admitEntry x id) := by
  simp only [covers_cons, covers_nil, and_true] at cv
  unfold State.admitEntry
  split <;> (try split) <;> simp +contextual (maxDischargeDepth := 60) [h, cv]

@[simp] theorem State.spillEvent_keeps (what n count status : Nat) (h : Keeps P s₀ x) (cv : Covers P ([.out, .rings, .icu, .reg .MOV_STS, .reg
    .ICU_ERR]) := by simp [*]) :
    Keeps P s₀ (State.spillEvent x what n count status) := by
  simp only [covers_cons, covers_nil, and_true] at cv
  unfold State.spillEvent
  simp (maxDischargeDepth := 60) [h, cv]

@[simp] theorem State.spillFailed_keeps (n : Nat) (h : Keeps P s₀ x) (cv : Covers P ([.out, .rings, .icu, .reg .SCH_SPILL_STS, .reg .MOV_STS, .reg
    .ICU_ERR]) := by simp [*]) :
    Keeps P s₀ (State.spillFailed x n) := by
  simp only [covers_cons, covers_nil, and_true] at cv
  unfold State.spillFailed
  simp (maxDischargeDepth := 60) [h, cv]

@[simp] theorem State.spillEntry_keeps (id n : Nat) (h : Keeps P s₀ x) (cv : Covers P ([.out, .free, .rings, .entries, .deal, .icu, .reg .MOV_STS,
    .reg .ICU_ERR]) := by simp [*]) :
    Keeps P s₀ (State.spillEntry x id n) := by
  simp only [covers_cons, covers_nil, and_true] at cv
  unfold State.spillEntry
  simp only []; (repeat' split) <;> (try simp only [Prod.ext_iff] at *) <;> subst_vars <;> simp +contextual (maxDischargeDepth := 60) [h, cv]

@[simp] theorem State.addEntry_keeps (e : Entry) (h : Keeps P s₀ x) (cv : Covers P ([.rings, .entries, .deal, .mov, .reg .MOV_STS]) := by simp [*]) :
    Keeps P s₀ (State.addEntry x e) := by
  simp only [covers_cons, covers_nil, and_true] at cv
  unfold State.addEntry
  simp (maxDischargeDepth := 60) [h, cv]

@[simp] theorem State.takeCancelled_keeps (e : Entry) (h : Keeps P s₀ x) (cv : Covers P ([.out, .ctxs, .cmgr, .txns, .rings, .entries, .deal, .icu,
    .mov, .reg .MOV_STS, .reg .ICU_ERR]) := by simp [*]) :
    Keeps P s₀ (State.takeCancelled x e) := by
  simp only [covers_cons, covers_nil, and_true] at cv
  unfold State.takeCancelled
  simp (maxDischargeDepth := 60) [h, cv]

@[simp] theorem State.takeEntry_keeps (e : Entry) (spillOk : Bool) (h : Keeps P s₀ x) (cv : Covers P ([.out, .free, .ctxs, .cmgr, .txns, .rings,
    .entries, .deal, .slices, .icu, .pool, .smp, .mov, .reg .SCH_SPILL_STS, .reg .SCH_CTXCNT, .reg .MOV_STS, .reg .ICU_ERR, .reg .GTH_CNT, .reg
    .GTH_DROP, .reg .CDR_EVT, .reg .CDR_FLG]) := by simp [*]) :
    Keeps P s₀ (State.takeEntry x e spillOk) := by
  simp only [covers_cons, covers_nil, and_true] at cv
  unfold State.takeEntry
  (repeat' split) <;> (try simp only [Prod.ext_iff] at *) <;> (try subst_vars) <;> simp +contextual (maxDischargeDepth := 60) [h, cv]

@[simp] theorem State.tdTake_keeps (r : Nat) (tds bufs : List HostRead) (spillOk : Bool) (h : Keeps P s₀ x) (cv : Covers P ([.out, .free, .ctxs,
    .cmgr, .txns, .rings, .entries, .deal, .slices, .icu, .pool, .smp, .mov, .reg .SCH_SPILL_STS, .reg .SCH_CTXCNT, .reg .MOV_STS, .reg .ICU_ERR, .reg
    .GTH_CNT, .reg .GTH_DROP, .reg .CDR_EVT, .reg .CDR_FLG]) := by simp [*]) :
    Keeps P s₀ (State.tdTake x r tds bufs spillOk) := by
  simp only [covers_cons, covers_nil, and_true] at cv
  unfold State.tdTake
  simp only []; (repeat' split) <;> (try simp only [Prod.ext_iff] at *) <;> subst_vars <;> simp +contextual (maxDischargeDepth := 60) [h, cv]

@[simp] theorem execTdTake_keeps (r : Nat) (tds bufs : List HostRead) (spillOk : Bool) (h : Keeps P s₀ x) (cv : Covers P ([.out, .free, .ctxs, .cmgr,
    .txns, .rings, .entries, .deal, .slices, .icu, .pool, .smp, .mov, .reg .SCH_SPILL_STS, .reg .SCH_CTXCNT, .reg .MOV_STS, .reg .ICU_ERR, .reg
    .GTH_CNT, .reg .GTH_DROP, .reg .CDR_EVT, .reg .CDR_FLG]) := by simp [*]) :
    KeepsO P s₀ (execTdTake r tds bufs spillOk x) := by
  simp only [covers_cons, covers_nil, and_true] at cv
  unfold execTdTake
  simp (maxDischargeDepth := 60) [h, cv]

@[simp] theorem State.transportLost_keeps (e : Entry) (st : Nat) (h : Keeps P s₀ x) (cv : Covers P ([.ctxs, .cmgr, .entries]) := by simp [*]) :
    Keeps P s₀ (State.transportLost x e st) := by
  simp only [covers_cons, covers_nil, and_true] at cv
  unfold State.transportLost
  simp (maxDischargeDepth := 60) [h, cv]

@[simp] theorem State.admitFetched_keeps (e : Entry) (h : Keeps P s₀ x) (cv : Covers P ([.out, .free, .ctxs, .cmgr, .txns, .rings, .entries, .deal,
    .slices, .icu, .reg .MOV_STS, .reg .ICU_ERR]) := by simp [*]) :
    Keeps P s₀ (State.admitFetched x e) := by
  simp only [covers_cons, covers_nil, and_true] at cv
  unfold State.admitFetched
  (repeat' split) <;> (try simp only [Prod.ext_iff] at *) <;> (try subst_vars) <;> simp +contextual (maxDischargeDepth := 60) [h, cv]

@[simp] theorem State.admitWaiting_keeps (h : Keeps P s₀ x) (cv : Covers P ([.out, .free, .ctxs, .cmgr, .txns, .rings, .entries, .deal, .slices, .icu,
    .reg .MOV_STS, .reg .ICU_ERR]) := by simp [*]) :
    Keeps P s₀ (State.admitWaiting x) := by
  simp only [covers_cons, covers_nil, and_true] at cv
  unfold State.admitWaiting
  simp +contextual (maxDischargeDepth := 60) [h, cv]

@[simp] theorem State.fetchDone_keeps (eph : Nat) (h_ : CtxHost) (h : Keeps P s₀ x) (cv : Covers P ([.out, .free, .ctxs, .cmgr, .txns, .rings,
    .entries, .deal, .slices, .icu, .pool, .smp, .reg .SCH_CTXCNT, .reg .MOV_STS, .reg .ICU_ERR, .reg .GTH_CNT, .reg .GTH_DROP, .reg .CDR_EVT, .reg
    .CDR_FLG]) := by simp [*]) :
    Keeps P s₀ (State.fetchDone x eph h_) := by
  simp only [covers_cons, covers_nil, and_true] at cv
  unfold State.fetchDone
  simp only []; (repeat' split) <;> (try simp only [Prod.ext_iff] at *) <;> subst_vars <;> simp +contextual (maxDischargeDepth := 60) [h, cv]

@[simp] theorem execContextFetchDone_keeps (eph : Nat) (h_ : CtxHost) (h : Keeps P s₀ x) (cv : Covers P ([.out, .free, .ctxs, .cmgr, .txns, .rings,
    .entries, .deal, .slices, .icu, .pool, .smp, .mov, .reg .SCH_CTXCNT, .reg .MOV_STS, .reg .ICU_ERR, .reg .GTH_CNT, .reg .GTH_DROP, .reg .CDR_EVT,
    .reg .CDR_FLG]) := by simp [*]) :
    KeepsO P s₀ (execContextFetchDone eph h_ x) := by
  simp only [covers_cons, covers_nil, and_true] at cv
  unfold execContextFetchDone
  simp (maxDischargeDepth := 60) [h, cv]

@[simp] theorem State.transport_keeps (e : Entry) (h : Keeps P s₀ x) (cv : Covers P ([.out, .ctxs, .cmgr, .txns, .rings, .entries, .deal, .icu, .pool,
    .mov, .reg .SCH_CTXCNT, .reg .MOV_STS, .reg .ICU_ERR]) := by simp [*]) :
    Keeps P s₀ (State.transport x e) := by
  simp only [covers_cons, covers_nil, and_true] at cv
  unfold State.transport
  simp (maxDischargeDepth := 60) [h, cv]

@[simp] theorem execHostTransportStart_keeps (r idx : Nat) (h : Keeps P s₀ x) (cv : Covers P ([.out, .ctxs, .cmgr, .txns, .rings, .entries, .deal,
    .slices, .icu, .pool, .mov, .reg .SCH_CTXCNT, .reg .MOV_STS, .reg .ICU_ERR]) := by simp [*]) :
    KeepsO P s₀ (execHostTransportStart r idx x) := by
  simp only [covers_cons, covers_nil, and_true] at cv
  unfold execHostTransportStart
  split <;> simp (maxDischargeDepth := 60) [h, cv]

@[simp] theorem State.doneCount_keeps (e : Entry) (status : Nat) (h : Keeps P s₀ x) (cv : Covers P ([.out, .rings, .deal, .icu, .reg .SCH_DYN_CNT,
    .reg .MOV_STS, .reg .ICU_ERR]) := by simp [*]) :
    Keeps P s₀ (State.doneCount x e status) := by
  simp only [covers_cons, covers_nil, and_true] at cv
  unfold State.doneCount
  split <;> simp (maxDischargeDepth := 60) [h, cv]

@[simp] theorem State.endEntry_keeps (e : Entry) (status : Nat) (h : Keeps P s₀ x) (cv : Covers P ([.out, .ctxs, .cmgr, .txns, .rings, .entries,
    .deal, .icu, .pool, .reg .SCH_DYN_CNT, .reg .SCH_CTXCNT, .reg .MOV_STS, .reg .ICU_ERR]) := by simp [*]) :
    Keeps P s₀ (State.endEntry x e status) := by
  simp only [covers_cons, covers_nil, and_true] at cv
  unfold State.endEntry
  simp (maxDischargeDepth := 60) [h, cv]

@[simp] theorem State.step2_keeps (e : Entry) (d : Done) (h : Keeps P s₀ x) (cv : Covers P ([.out, .rings, .entries, .icu, .reg .MOV_STS, .reg
    .ICU_ERR]) := by simp [*]) :
    Keeps P s₀ (State.step2 x e d) := by
  simp only [covers_cons, covers_nil, and_true] at cv
  unfold State.step2
  simp +contextual (maxDischargeDepth := 60) [h, cv]

@[simp] theorem State.clearOwn_keeps (r a2 : Nat) (h : Keeps P s₀ x) (cv : Covers P ([.out, .rings, .entries, .icu, .reg .MOV_STS, .reg .ICU_ERR]) :=
    by simp [*]) :
    Keeps P s₀ (State.clearOwn x r a2) := by
  simp only [covers_cons, covers_nil, and_true] at cv
  revert h
  fun_induction State.clearOwn x r a2 <;> intro h <;> (try simp only [Prod.ext_iff] at *) <;> (try subst_vars) <;> simp_all +contextual
      (maxDischargeDepth := 60)

@[simp] theorem State.tdWriteback_keeps (e : Entry) (d : Done) (h : Keeps P s₀ x) (cv : Covers P ([.out, .ctxs, .cmgr, .txns, .rings, .entries, .cmds,
    .deal, .icu, .pool, .mov, .reg .SCH_DYN_CNT, .reg .SCH_CTXCNT, .reg .MOV_STS, .reg .ICU_ERR]) := by simp [*]) :
    Keeps P s₀ (State.tdWriteback x e d) := by
  simp only [covers_cons, covers_nil, and_true] at cv
  unfold State.tdWriteback
  simp (maxDischargeDepth := 60) [h, cv]

@[simp] theorem execTdWriteback_keeps (r idx : Nat) (h : Keeps P s₀ x) (cv : Covers P ([.out, .ctxs, .cmgr, .txns, .rings, .entries, .cmds, .deal,
    .slices, .icu, .pool, .mov, .reg .SCH_DYN_CNT, .reg .SCH_CTXCNT, .reg .MOV_STS, .reg .ICU_ERR]) := by simp [*]) :
    KeepsO P s₀ (execTdWriteback r idx x) := by
  simp only [covers_cons, covers_nil, and_true] at cv
  unfold execTdWriteback
  split <;> (try split) <;> simp +contextual (maxDischargeDepth := 60) [h, cv]

end Sys2Proof.Machine
end

