-- ==== Sys2Proof/Laws/KeepsInternal.lean ====
section
/-! SUPPORT. Laws/KeepsInternal.lean: for each function of Machine/Internal.lean, the parts of the state that it leaves as they are. -/

namespace Sys2Proof.Machine

variable {P : Part → Bool} {s₀ x : State}

@[simp] theorem State.ctxInstall_keeps (eph : Nat) (x_ : Ctx) (h : Keeps P s₀ x) (cv : Covers P ([.ctxs, .cmgr]) := by simp [*]) :
    Keeps P s₀ (State.ctxInstall x eph x_) := by
  simp only [covers_cons, covers_nil, and_true] at cv
  unfold State.ctxInstall
  (repeat' split) <;> (try simp only [Prod.ext_iff] at *) <;> (try subst_vars) <;> simp +contextual (maxDischargeDepth := 60) [h, cv]

@[simp] theorem State.startControl_keeps (eph : Nat) (setup data : List Byte) (cmd : Nat × Nat) (h : Keeps P s₀ x) (cv : Covers P ([.out, .ctxs,
    .cmgr, .txns, .rings, .entries, .deal, .icu, .pool, .reg .SCH_CTXCNT, .reg .MOV_STS, .reg .ICU_ERR]) := by simp [*]) :
    Keeps P s₀ (State.startControl x eph setup data cmd) := by
  simp only [covers_cons, covers_nil, and_true] at cv
  unfold State.startControl
  simp (maxDischargeDepth := 60) [h, cv]

@[simp] theorem State.startClear_keeps (eph : Nat) (h : Keeps P s₀ x) (cv : Covers P ([.out, .ctxs, .cmgr, .txns, .rings, .entries, .deal, .icu,
    .pool, .reg .SCH_CTXCNT, .reg .MOV_STS, .reg .ICU_ERR]) := by simp [*]) :
    Keeps P s₀ (State.startClear x eph) := by
  simp only [covers_cons, covers_nil, and_true] at cv
  unfold State.startClear
  simp (maxDischargeDepth := 60) [h, cv]

@[simp] theorem State.enumStage_keeps (c : CmdRec) (stage : Nat) (h : Keeps P s₀ x) (cv : Covers P ([.out, .ctxs, .cmgr, .txns, .rings, .entries,
    .cmds, .deal, .icu, .pool, .reg .SCH_CTXCNT, .reg .MOV_STS, .reg .ICU_ERR]) := by simp [*]) :
    Keeps P s₀ (State.enumStage x c stage) := by
  simp only [covers_cons, covers_nil, and_true] at cv
  unfold State.enumStage
  simp (maxDischargeDepth := 60) [h, cv]

@[simp] theorem State.enumContext_keeps (c : CmdRec) (h : Keeps P s₀ x) (cv : Covers P ([.out, .ctxs, .cmgr]) := by simp [*]) :
    Keeps P s₀ (State.enumContext x c).1 := by
  simp only [covers_cons, covers_nil, and_true] at cv
  have hr : ∀ e, Keeps P s₀ (if (x.ctx? e).isSome then (x, true) else x.ctxRoom c.host).1 := fun e => by split <;> simp [h, cv]
  unfold State.enumContext
  simp only []
  split
  · exact h
  · split <;> rename_i e <;> have hr := e ▸ hr _ <;> simp (maxDischargeDepth := 60) [hr, cv]
  · exact h

@[simp] theorem State.enumDone_keeps (c : CmdRec) (data : List Byte) (h : Keeps P s₀ x) (cv : Covers P ([.out, .free, .ctxs, .cmgr, .txns, .rings,
    .entries, .cmds, .deal, .icu, .pool, .reg .SCH_CTXCNT, .reg .MOV_STS, .reg .ICU_ERR]) := by simp [*]) :
    Keeps P s₀ (State.enumDone x c data) := by
  simp only [covers_cons, covers_nil, and_true] at cv
  unfold State.enumDone
  simp only []
  (repeat' split) <;> (try simp (maxDischargeDepth := 60) [h, cv])
  all_goals
    rename_i s1 e
    have hr : Keeps P s₀ s1 := by
      rw [show s1 = _ from (congrArg Prod.fst e).symm]
      simp (maxDischargeDepth := 60) [h, cv]
    simp (maxDischargeDepth := 60) [hr, cv]

@[simp] theorem State.internalEnd_keeps (e : Entry) (d : Done) (h : Keeps P s₀ x) (cv : Covers P ([.out, .free, .ctxs, .cmgr, .txns, .rings, .entries,
    .cmds, .deal, .icu, .pool, .twin, .smp, .reg .SCH_DYN_CNT, .reg .SCH_CTXCNT, .reg .MOV_STS, .reg .ICU_ERR, .reg .GTH_CNT, .reg .GTH_DROP, .reg
    .CDR_EVT, .reg .CDR_FLG]) := by simp [*]) :
    Keeps P s₀ (State.internalEnd x e d) := by
  simp only [covers_cons, covers_nil, and_true] at cv
  unfold State.internalEnd
  simp only []; (repeat' split) <;> (try simp only [Prod.ext_iff] at *) <;> subst_vars <;> simp +contextual (maxDischargeDepth := 60) [h, cv]

@[simp] theorem State.removeEnd_keeps (c : CmdRec) (h : Keeps P s₀ x) (cv : Covers P ([.out, .ctxs, .cmgr, .txns, .rings, .entries, .cmds, .deal,
    .icu, .pool, .smp, .reg .SCH_CTXCNT, .reg .MOV_STS, .reg .ICU_ERR, .reg .GTH_CNT, .reg .GTH_DROP, .reg .CDR_EVT, .reg .CDR_FLG]) := by simp [*]) :
    Keeps P s₀ (State.removeEnd x c) := by
  simp only [covers_cons, covers_nil, and_true] at cv
  unfold State.removeEnd
  simp only []; (repeat' split) <;> (try simp only [Prod.ext_iff] at *) <;> subst_vars <;> simp +contextual (maxDischargeDepth := 60) [h, cv]

@[simp] theorem State.settle_keeps (a1 : Nat) (h : Keeps P s₀ x) (cv : Covers P ([.out, .free, .ctxs, .cmgr, .txns, .rings, .entries, .cmds, .deal,
    .icu, .pool, .twin, .smp, .reg .SCH_DYN_CNT, .reg .SCH_CTXCNT, .reg .MOV_STS, .reg .ICU_ERR, .reg .GTH_CNT, .reg .GTH_DROP, .reg .CDR_EVT, .reg
    .CDR_FLG]) := by simp [*]) :
    Keeps P s₀ (State.settle x a1) := by
  simp only [covers_cons, covers_nil, and_true] at cv
  revert h
  fun_induction State.settle x a1 <;> intro h <;> (try simp only [Prod.ext_iff] at *) <;> (try subst_vars) <;> simp_all +contextual
      (maxDischargeDepth := 60)

@[simp] theorem State.settled_keeps (h : Keeps P s₀ x) (cv : Covers P ([.out, .free, .ctxs, .cmgr, .txns, .rings, .entries, .cmds, .deal, .icu, .pool,
    .twin, .smp, .reg .SCH_DYN_CNT, .reg .SCH_CTXCNT, .reg .MOV_STS, .reg .ICU_ERR, .reg .GTH_CNT, .reg .GTH_DROP, .reg .CDR_EVT, .reg .CDR_FLG]) :=
    by simp [*]) :
    Keeps P s₀ (State.settled x) := by
  simp only [covers_cons, covers_nil, and_true] at cv
  unfold State.settled
  simp (maxDischargeDepth := 60) [h, cv]

@[simp] theorem execTransactionStart_keeps (n tag t : Nat) (h : Keeps P s₀ x) (cv : Covers P ([.out, .free, .tim, .ports, .links, .ctxs, .cmgr, .txns,
    .rings, .entries, .cmds, .deal, .slices, .icu, .pool, .twin, .smp, .reg .SCH_ADM_STS, .reg .SCH_DYN_CNT, .reg .SCH_CTXCNT, .reg .MOV_STS, .reg
    .ICU_ERR, .reg .GTH_CNT, .reg .GTH_DROP, .reg .CDR_EVT, .reg .CDR_FLG]) := by simp [*]) :
    KeepsO P s₀ (execTransactionStart n tag t x) := by
  simp only [covers_cons, covers_nil, and_true] at cv
  unfold execTransactionStart
  simp (maxDischargeDepth := 60) [h, cv]

@[simp] theorem execAnswerReceive_keeps (n : Nat) (p : Pkt) (poisoned : Bool) (t tEnd : Nat) (h : Keeps P s₀ x) (cv : Covers P ([.out, .free, .tim,
    .ports, .links, .ctxs, .cmgr, .txns, .rings, .entries, .cmds, .deal, .slices, .icu, .pool, .twin, .smp, .reg .SCH_DYN_CNT, .reg .SCH_NAK_CNT, .reg
    .SCH_CTXCNT, .reg .SCH_XERR, .reg .MOV_STS, .reg .ICU_ERR, .reg .GTH_EVT, .reg .GTH_CNT, .reg .GTH_DROP, .reg .CDR_EVT, .reg .CDR_FLG]) := by simp
    [*]) :
    KeepsO P s₀ (execAnswerReceive n p poisoned t tEnd x) := by
  simp only [covers_cons, covers_nil, and_true] at cv
  unfold execAnswerReceive
  simp only []; (repeat' split) <;> (try simp only [Prod.ext_iff] at *) <;> subst_vars <;> simp +contextual (maxDischargeDepth := 60) [h, cv]

@[simp] theorem execAnswerTimeout_keeps (n tag t : Nat) (h : Keeps P s₀ x) (cv : Covers P ([.out, .free, .tim, .ports, .links, .ctxs, .cmgr, .txns,
    .rings, .entries, .cmds, .deal, .slices, .icu, .pool, .twin, .smp, .reg .SCH_DYN_CNT, .reg .SCH_CTXCNT, .reg .MOV_STS, .reg .ICU_ERR, .reg
    .GTH_CNT, .reg .GTH_DROP, .reg .CDR_EVT, .reg .CDR_FLG]) := by simp [*]) :
    KeepsO P s₀ (execAnswerTimeout n tag t x) := by
  simp only [covers_cons, covers_nil, and_true] at cv
  unfold execAnswerTimeout
  simp only []; (repeat' split) <;> (try simp only [Prod.ext_iff] at *) <;> subst_vars <;> simp +contextual (maxDischargeDepth := 60) [h, cv]

@[simp] theorem execControlTransferTimeout_keeps (eph : Nat) (h : Keeps P s₀ x) (cv : Covers P ([.out, .free, .ctxs, .cmgr, .txns, .rings, .entries,
    .cmds, .deal, .icu, .pool, .twin, .smp, .reg .SCH_DYN_CNT, .reg .SCH_CTXCNT, .reg .MOV_STS, .reg .ICU_ERR, .reg .GTH_CNT, .reg .GTH_DROP, .reg
    .CDR_EVT, .reg .CDR_FLG]) := by simp [*]) :
    KeepsO P s₀ (execControlTransferTimeout eph x) := by
  simp only [covers_cons, covers_nil, and_true] at cv
  unfold execControlTransferTimeout
  split <;> simp (maxDischargeDepth := 60) [h, cv]

end Sys2Proof.Machine
end

