-- ==== Sys2Proof/Laws/KeepsRings.lean ====
section
/-! SUPPORT. Laws/KeepsRings.lean: for each function of Machine/Rings.lean, the parts of the state that it leaves as they are. -/

namespace Sys2Proof.Machine

variable {P : Part → Bool} {s₀ x : State}

@[simp] theorem State.dbIgnored_keeps (n : Nat) (h : Keeps P s₀ x) (cv : Covers P ([.reg .SLC_STS, .reg .SLT_EVT]) := by simp [*]) :
    Keeps P s₀ (State.dbIgnored x n) := by
  simp only [covers_cons, covers_nil, and_true] at cv
  unfold State.dbIgnored
  simp (maxDischargeDepth := 60) [h, cv]

@[simp] theorem State.roomBack_keeps (r : Nat) (h : Keeps P s₀ x) (cv : Covers P ([.out, .rings, .icu, .audit, .reg .MOV_STS, .reg .ICU_ERR, .reg
    .SEC_AUDIT]) := by simp [*]) :
    Keeps P s₀ (State.roomBack x r) := by
  simp only [covers_cons, covers_nil, and_true] at cv
  unfold State.roomBack
  split <;> simp (maxDischargeDepth := 60) [h, cv]

@[simp] theorem State.ringBell_keeps (r db : Nat) (h : Keeps P s₀ x) (cv : Covers P ([.out, .rings, .deal, .icu, .audit, .reg .MOV_STS, .reg .ICU_ERR,
    .reg .SEC_AUDIT]) := by simp [*]) :
    Keeps P s₀ (State.ringBell x r db) := by
  simp only [covers_cons, covers_nil, and_true] at cv
  unfold State.ringBell
  simp (maxDischargeDepth := 60) [h, cv]

@[simp] theorem execDoorbell_keeps (slice : Option Nat) (j db : Nat) (h : Keeps P s₀ x) (cv : Covers P ([.out, .rings, .deal, .icu, .audit, .reg
    .MOV_STS, .reg .ICU_ERR, .reg .SLC_STS, .reg .SEC_AUDIT, .reg .SLT_EVT]) := by simp [*]) :
    KeepsO P s₀ (execDoorbell slice j db x) := by
  simp only [covers_cons, covers_nil, and_true] at cv
  unfold execDoorbell
  (repeat' split) <;> (try simp only [Prod.ext_iff] at *) <;> subst_vars <;> simp +contextual (maxDischargeDepth := 60) [h, cv]

@[simp] theorem execMringEnable_keeps (n : Nat) (h : Keeps P s₀ x) (cv : Covers P ([.out, .rings, .icu, .audit, .reg .SCH_MRING_CTL, .reg .MOV_STS,
    .reg .ICU_ERR, .reg .SEC_AUDIT]) := by simp [*]) :
    KeepsO P s₀ (execMringEnable n x) := by
  simp only [covers_cons, covers_nil, and_true] at cv
  unfold execMringEnable
  split <;> simp (maxDischargeDepth := 60) [h, cv]

@[simp] theorem execMringDisable_keeps (n : Nat) (h : Keeps P s₀ x) (cv : Covers P ([.rings, .reg .SCH_MRING_CTL]) := by simp [*]) :
    KeepsO P s₀ (execMringDisable n x) := by
  simp only [covers_cons, covers_nil, and_true] at cv
  unfold execMringDisable
  split <;> simp (maxDischargeDepth := 60) [h, cv]

@[simp] theorem State.onAllotted_keeps (c : CmdRec) (n : Nat) (fixed : Bool) (body : State → State) (h : Keeps P s₀ x) (hb : ∀ y, Keeps P s₀ y → Keeps
    P s₀ (body y)) (cv : Covers P ([.out, .rings, .cmds, .icu, .audit, .reg .MOV_STS, .reg .ICU_ERR, .reg .SLC_ERR, .reg .SEC_EVT, .reg .SEC_AUDIT])
    := by simp [*]) :
    Keeps P s₀ (State.onAllotted x c n fixed body) := by
  simp only [covers_cons, covers_nil, and_true] at cv
  unfold State.onAllotted
  simp (maxDischargeDepth := 60) [h, hb, cv]

@[simp] theorem State.ringCreate_keeps (c : CmdRec) (h : Keeps P s₀ x) (cv : Covers P ([.out, .rings, .cmds, .slices, .icu, .audit, .reg .MOV_STS,
    .reg .ICU_ERR, .reg .SLC_ERR, .reg .SEC_EVT, .reg .SEC_AUDIT]) := by simp [*]) :
    Keeps P s₀ (State.ringCreate c x) := by
  simp only [covers_cons, covers_nil, and_true] at cv
  unfold State.ringCreate
  simp (maxDischargeDepth := 60) [h, cv]

@[simp] theorem State.ringStart_keeps (c : CmdRec) (h : Keeps P s₀ x) (cv : Covers P ([.out, .rings, .cmds, .icu, .audit, .reg .MOV_STS, .reg
    .ICU_ERR, .reg .SEC_AUDIT]) := by simp [*]) :
    Keeps P s₀ (State.ringStart c x) := by
  simp only [covers_cons, covers_nil, and_true] at cv
  unfold State.ringStart
  simp (maxDischargeDepth := 60) [h, cv]

@[simp] theorem State.cancelCmd_keeps (n : Nat) (b : List Byte) (h : Keeps P s₀ x) (cv : Covers P ([.rings, .cmds, .mov, .reg .MOV_STS]) := by simp
    [*]) :
    Keeps P s₀ (State.cancelCmd x n b) := by
  simp only [covers_cons, covers_nil, and_true] at cv
  unfold State.cancelCmd
  simp (maxDischargeDepth := 60) [h, cv]

@[simp] theorem State.cancelTd_keeps (n : Nat) (b : List Byte) (h : Keeps P s₀ x) (cv : Covers P ([.out, .ctxs, .cmgr, .txns, .rings, .entries, .deal,
    .icu, .mov, .reg .MOV_STS, .reg .ICU_ERR]) := by simp [*]) :
    Keeps P s₀ (State.cancelTd x n b) := by
  simp only [covers_cons, covers_nil, and_true] at cv
  unfold State.cancelTd
  simp (maxDischargeDepth := 60) [h, cv]

@[simp] theorem State.cancelHanded_keeps (n : Nat) (a2 : List HostRead) (h : Keeps P s₀ x) (cv : Covers P ([.out, .ctxs, .cmgr, .txns, .rings,
    .entries, .cmds, .deal, .icu, .mov, .reg .MOV_STS, .reg .ICU_ERR]) := by simp [*]) :
    Keeps P s₀ (State.cancelHanded x n a2) := by
  simp only [covers_cons, covers_nil, and_true] at cv
  revert h
  fun_induction State.cancelHanded x n a2 <;> intro h <;> (try simp only [Prod.ext_iff] at *) <;> (try subst_vars) <;> simp_all +contextual
      (maxDischargeDepth := 60)

@[simp] theorem State.ringDestroy_keeps (imgs : List HostRead) (c : CmdRec) (h : Keeps P s₀ x) (cv : Covers P ([.out, .ctxs, .cmgr, .txns, .rings,
    .entries, .cmds, .deal, .icu, .mov, .reg .MOV_STS, .reg .ICU_ERR]) := by simp [*]) :
    Keeps P s₀ (State.ringDestroy imgs c x) := by
  simp only [covers_cons, covers_nil, and_true] at cv
  unfold State.ringDestroy
  simp (maxDischargeDepth := 60) [h, cv]

@[simp] theorem State.tdCancel_keeps (imgs : List HostRead) (c : CmdRec) (h : Keeps P s₀ x) (cv : Covers P ([.out, .ctxs, .cmgr, .txns, .rings,
    .entries, .cmds, .deal, .icu, .pool, .reg .SCH_CTXCNT, .reg .MOV_STS, .reg .ICU_ERR]) := by simp [*]) :
    Keeps P s₀ (State.tdCancel imgs c x) := by
  simp only [covers_cons, covers_nil, and_true] at cv
  unfold State.tdCancel
  simp only []; (repeat' split) <;> (try simp only [Prod.ext_iff] at *) <;> subst_vars <;> simp +contextual (maxDischargeDepth := 60) [h, cv]

@[simp] theorem execRingCreate_keeps (r : Nat) (d : HostRead) (h : Keeps P s₀ x) (cv : Covers P ([.out, .rings, .cmds, .slices, .icu, .audit, .mov,
    .reg .MOV_STS, .reg .ICU_ERR, .reg .SLC_ERR, .reg .SEC_EVT, .reg .SEC_AUDIT]) := by simp [*]) :
    KeepsO P s₀ (execRingCreate r d x) := by
  simp only [covers_cons, covers_nil, and_true] at cv
  unfold execRingCreate
  simp +contextual (maxDischargeDepth := 60) [h, cv]

@[simp] theorem execRingStop_keeps (r : Nat) (d : HostRead) (h : Keeps P s₀ x) (cv : Covers P ([.out, .rings, .cmds, .icu, .audit, .mov, .reg
    .MOV_STS, .reg .ICU_ERR, .reg .SLC_ERR, .reg .SEC_EVT, .reg .SEC_AUDIT]) := by simp [*]) :
    KeepsO P s₀ (execRingStop r d x) := by
  simp only [covers_cons, covers_nil, and_true] at cv
  unfold execRingStop
  simp +contextual (maxDischargeDepth := 60) [h, cv]

@[simp] theorem execRingStart_keeps (r : Nat) (d : HostRead) (h : Keeps P s₀ x) (cv : Covers P ([.out, .rings, .cmds, .icu, .audit, .mov, .reg
    .MOV_STS, .reg .ICU_ERR, .reg .SLC_ERR, .reg .SEC_EVT, .reg .SEC_AUDIT]) := by simp [*]) :
    KeepsO P s₀ (execRingStart r d x) := by
  simp only [covers_cons, covers_nil, and_true] at cv
  unfold execRingStart
  simp +contextual (maxDischargeDepth := 60) [h, cv]

@[simp] theorem execRingDestroy_keeps (r : Nat) (d : HostRead) (imgs : List HostRead) (h : Keeps P s₀ x) (cv : Covers P ([.out, .ctxs, .cmgr, .txns,
    .rings, .entries, .cmds, .deal, .icu, .audit, .mov, .reg .MOV_STS, .reg .ICU_ERR, .reg .SLC_ERR, .reg .SEC_EVT, .reg .SEC_AUDIT]) := by simp [*])
    :
    KeepsO P s₀ (execRingDestroy r d imgs x) := by
  simp only [covers_cons, covers_nil, and_true] at cv
  unfold execRingDestroy
  simp +contextual (maxDischargeDepth := 60) [h, cv]

@[simp] theorem execRingQuery_keeps (r : Nat) (d : HostRead) (h : Keeps P s₀ x) (cv : Covers P ([.out, .rings, .cmds, .icu, .audit, .mov, .reg
    .MOV_STS, .reg .ICU_ERR, .reg .SLC_ERR, .reg .SEC_EVT, .reg .SEC_AUDIT]) := by simp [*]) :
    KeepsO P s₀ (execRingQuery r d x) := by
  simp only [covers_cons, covers_nil, and_true] at cv
  unfold execRingQuery
  simp +contextual (maxDischargeDepth := 60) [h, cv]

@[simp] theorem execTdCancel_keeps (r : Nat) (d : HostRead) (imgs : List HostRead) (h : Keeps P s₀ x) (cv : Covers P ([.out, .ctxs, .cmgr, .txns,
    .rings, .entries, .cmds, .deal, .icu, .pool, .audit, .mov, .reg .SCH_CTXCNT, .reg .MOV_STS, .reg .ICU_ERR, .reg .SLC_ERR, .reg .SEC_EVT, .reg
    .SEC_AUDIT]) := by simp [*]) :
    KeepsO P s₀ (execTdCancel r d imgs x) := by
  simp only [covers_cons, covers_nil, and_true] at cv
  unfold execTdCancel
  simp +contextual (maxDischargeDepth := 60) [h, cv]

end Sys2Proof.Machine
end

