-- ==== Sys2Proof/Laws/KeepsXcvr.lean ====
section
/-! SUPPORT. Laws/KeepsXcvr.lean: for each function of Machine/Xcvr.lean, the parts of the state that it leaves as they are. -/

namespace Sys2Proof.Machine

variable {P : Part → Bool} {s₀ x : State}

@[simp] theorem State.onSide_keeps (f : Sideband → Sideband) (h : Keeps P s₀ x) (cv : Covers P ([.side]) := by simp [*]) :
    Keeps P s₀ (State.onSide x f) := by
  simp only [covers_cons, covers_nil, and_true] at cv
  unfold State.onSide
  simp (maxDischargeDepth := 60) [h, cv]

@[simp] theorem State.idbSelect_keeps (n : Nat) (h : Keeps P s₀ x) (cv : Covers P ([.out]) := by simp [*]) :
    Keeps P s₀ (State.idbSelect x n) := by
  simp only [covers_cons, covers_nil, and_true] at cv
  unfold State.idbSelect
  (repeat' split) <;> (try simp only [Prod.ext_iff] at *) <;> (try subst_vars) <;> simp +contextual (maxDischargeDepth := 60) [h, cv]

@[simp] theorem State.idbDeselect_keeps (n : Nat) (h : Keeps P s₀ x) (cv : Covers P ([.out]) := by simp [*]) :
    Keeps P s₀ (State.idbDeselect x n) := by
  simp only [covers_cons, covers_nil, and_true] at cv
  unfold State.idbDeselect
  (repeat' split) <;> (try simp only [Prod.ext_iff] at *) <;> (try subst_vars) <;> simp +contextual (maxDischargeDepth := 60) [h, cv]

@[simp] theorem State.idbRead_keeps (n page first bytes : Nat) (h : Keeps P s₀ x) (cv : Covers P ([.out]) := by simp [*]) :
    Keeps P s₀ (State.idbRead x n page first bytes) := by
  simp only [covers_cons, covers_nil, and_true] at cv
  unfold State.idbRead
  (repeat' split) <;> (try simp only [Prod.ext_iff] at *) <;> (try subst_vars) <;> simp +contextual (maxDischargeDepth := 60) [h, cv]

@[simp] theorem State.scanned_keeps (bits : Nat) (h : Keeps P s₀ x) (cv : Covers P ([.side]) := by simp [*]) :
    Keeps P s₀ (State.scanned x bits) := by
  simp only [covers_cons, covers_nil, and_true] at cv
  unfold State.scanned
  simp only []
  (repeat' split) <;> simp (maxDischargeDepth := 60) [h, cv]

@[simp] theorem execSidebandScan_keeps (bits : Nat) (h : Keeps P s₀ x) (cv : Covers P ([.out, .side]) := by simp [*]) :
    KeepsO P s₀ (execSidebandScan bits x) := by
  simp only [covers_cons, covers_nil, and_true] at cv
  unfold execSidebandScan
  (repeat' split) <;> (try simp only [Prod.ext_iff] at *) <;> (try subst_vars) <;> simp +contextual (maxDischargeDepth := 60) [h, cv]

@[simp] theorem State.xcvrGone_keeps (n : Nat) (h : Keeps P s₀ x) (cv : Covers P ([.out, .ports, .links, .devs, .ctxs, .cmgr, .txns, .rings, .entries,
    .cmds, .deal, .icu, .pool, .smp, .reg .SCH_CTXCNT, .reg .PRT_STS, .reg .PRT_CHG, .reg .MOV_STS, .reg .ICU_ERR, .reg .GTH_CNT, .reg .GTH_DROP, .reg
    .CDR_EVT, .reg .CDR_FLG]) := by simp [*]) :
    Keeps P s₀ (State.xcvrGone x n) := by
  simp only [covers_cons, covers_nil, and_true] at cv
  unfold State.xcvrGone
  simp (maxDischargeDepth := 60) [h, cv]

@[simp] theorem execModAbsChange_keeps (n : Nat) (h : Keeps P s₀ x) (cv : Covers P ([.out, .ports, .links, .devs, .ctxs, .cmgr, .txns, .rings,
    .entries, .cmds, .deal, .icu, .pool, .smp, .reg .SCH_CTXCNT, .reg .PRT_STS, .reg .PRT_CHG, .reg .MOV_STS, .reg .ICU_ERR, .reg .GTH_CNT, .reg
    .GTH_DROP, .reg .CDR_EVT, .reg .CDR_FLG]) := by simp [*]) :
    KeepsO P s₀ (execModAbsChange n x) := by
  simp only [covers_cons, covers_nil, and_true] at cv
  unfold execModAbsChange
  simp (maxDischargeDepth := 60) [h, cv]

@[simp] theorem State.losAccept_keeps (n : Nat) (los : Bool) (h : Keeps P s₀ x) (cv : Covers P ([.out, .ports, .links, .devs, .txns, .reg
    .PRT_STS]) := by simp [*]) :
    Keeps P s₀ (State.losAccept x n los) := by
  simp only [covers_cons, covers_nil, and_true] at cv
  unfold State.losAccept
  (repeat' split) <;> (try simp only [Prod.ext_iff] at *) <;> (try subst_vars) <;> simp +contextual (maxDischargeDepth := 60) [h, cv]

@[simp] theorem execLosTxFaultAccept_keeps (n : Nat) (h : Keeps P s₀ x) (cv : Covers P ([.out, .ports, .links, .devs, .ctxs, .cmgr, .txns, .rings,
    .entries, .cmds, .deal, .icu, .pool, .smp, .reg .SCH_CTXCNT, .reg .PRT_STS, .reg .PRT_CHG, .reg .MOV_STS, .reg .ICU_ERR, .reg .GTH_CNT, .reg
    .GTH_DROP, .reg .CDR_EVT, .reg .CDR_FLG]) := by simp [*]) :
    KeepsO P s₀ (execLosTxFaultAccept n x) := by
  simp only [covers_cons, covers_nil, and_true] at cv
  unfold execLosTxFaultAccept
  simp (maxDischargeDepth := 60) [h, cv]

@[simp] theorem execMscFault_keeps (h : Keeps P s₀ x) (cv : Covers P ([.out, .side, .devs, .rings, .icu, .reg .PRT_STS, .reg .PRT_CHG, .reg .MOV_STS,
    .reg .ICU_ERR]) := by simp [*]) :
    KeepsO P s₀ (execMscFault x) := by
  simp only [covers_cons, covers_nil, and_true] at cv
  unfold execMscFault
  simp +contextual (maxDischargeDepth := 60) [h, cv]

@[simp] theorem execXcvrIdentify_keeps (n : Nat) (h : Keeps P s₀ x) (cv : Covers P ([.out, .ports]) := by simp [*]) :
    KeepsO P s₀ (execXcvrIdentify n x) := by
  simp only [covers_cons, covers_nil, and_true] at cv
  unfold execXcvrIdentify
  simp (maxDischargeDepth := 60) [h, cv]

@[simp] theorem State.identify_keeps (n : Nat) (b : List Byte) (h : Keeps P s₀ x) (cv : Covers P ([.out, .ports, .devs, .rings, .icu, .reg .PRT_STS,
    .reg .PRT_CHG, .reg .MOV_STS, .reg .ICU_ERR]) := by simp [*]) :
    Keeps P s₀ (State.identify x n b) := by
  simp only [covers_cons, covers_nil, and_true] at cv
  unfold State.identify
  simp (maxDischargeDepth := 60) [h, cv]

@[simp] theorem State.diagTake_keeps (n : Nat) (b : List Byte) (h : Keeps P s₀ x) (cv : Covers P ([.hlt]) := by simp [*]) :
    Keeps P s₀ (State.diagTake x n b) := by
  simp only [covers_cons, covers_nil, and_true] at cv
  unfold State.diagTake
  simp (maxDischargeDepth := 60) [h, cv]

@[simp] theorem State.identify2_keeps (n : Nat) (data : HostRead) (h : Keeps P s₀ x) (cv : Covers P ([.out, .ports, .devs, .rings, .icu, .hlt, .reg
    .PRT_STS, .reg .PRT_CHG, .reg .MOV_STS, .reg .ICU_ERR]) := by simp [*]) :
    Keeps P s₀ (State.identify2 x n data) := by
  simp only [covers_cons, covers_nil, and_true] at cv
  unfold State.identify2
  (repeat' split) <;> (try simp only [Prod.ext_iff] at *) <;> (try subst_vars) <;> simp +contextual (maxDischargeDepth := 60) [h, cv]

@[simp] theorem execIdentityBusReadDone_keeps (n page : Nat) (data : HostRead) (h : Keeps P s₀ x) (cv : Covers P ([.out, .ports, .devs, .rings, .cmds,
    .icu, .hlt, .reg .PRT_STS, .reg .PRT_CHG, .reg .MOV_STS, .reg .ICU_ERR]) := by simp [*]) :
    KeepsO P s₀ (execIdentityBusReadDone n page data x) := by
  simp only [covers_cons, covers_nil, and_true] at cv
  unfold execIdentityBusReadDone
  split <;> simp +contextual (maxDischargeDepth := 60) [h, cv]

@[simp] theorem execXcvrDiagRead_keeps (n : Nat) (data : List Byte) (h : Keeps P s₀ x) (cv : Covers P ([.out, .ports, .hlt]) := by simp [*]) :
    KeepsO P s₀ (execXcvrDiagRead n data x) := by
  simp only [covers_cons, covers_nil, and_true] at cv
  unfold execXcvrDiagRead
  simp (maxDischargeDepth := 60) [h, cv]

end Sys2Proof.Machine
end

