-- ==== Sys2Proof/Laws/KeepsEndpoints.lean ====
section
/-! SUPPORT. Laws/KeepsEndpoints.lean: for each function of Machine/Endpoints.lean, the parts of the state that it leaves as they are. -/

namespace Sys2Proof.Machine

variable {P : Part → Bool} {s₀ x : State}

@[simp] theorem State.onEndpoint_keeps (h_ : CtxHost) (c : CmdRec) (fixed : Bool) (body : Nat → CtxSlot → State → State) (h : Keeps P s₀ x) (hb : ∀ y
    b1 b2, Keeps P s₀ y → Keeps P s₀ (body b1 b2 y)) (cv : Covers P ([.out, .ctxs, .cmgr, .rings, .cmds, .slices, .icu, .smp, .audit, .reg
    .SCH_CTXCNT, .reg .MOV_STS, .reg .ICU_ERR, .reg .SLC_ERR, .reg .SEC_EVT, .reg .SEC_AUDIT, .reg .GTH_CNT, .reg .GTH_DROP, .reg .CDR_EVT, .reg
    .CDR_FLG]) := by simp [*]) :
    Keeps P s₀ (State.onEndpoint x h_ c fixed body) := by
  simp only [covers_cons, covers_nil, and_true] at cv
  unfold State.onEndpoint
  simp only []; (repeat' split) <;> (try simp only [Prod.ext_iff] at *) <;> subst_vars <;> simp +contextual (maxDischargeDepth := 60) [h, hb, cv]

@[simp] theorem State.installImage_keeps (h_ : CtxHost) (eph : Nat) (x_ : Ctx) (h : Keeps P s₀ x) (cv : Covers P ([.out, .ctxs, .cmgr, .rings,
    .slices, .icu, .reg .MOV_STS, .reg .ICU_ERR]) := by simp [*]) :
    Keeps P s₀ (State.installImage x h_ eph x_).1 := by
  simp only [covers_cons, covers_nil, and_true] at cv
  unfold State.installImage
  simp only []
  (repeat' split) <;> simp (maxDischargeDepth := 60) [h, cv]

@[simp] theorem State.installable_keeps (h_ : CtxHost) (eph : Nat) (h : Keeps P s₀ x) (cv : Covers P ([.out, .ctxs, .cmgr, .rings, .slices, .icu,
    .smp, .reg .SCH_CTXCNT, .reg .MOV_STS, .reg .ICU_ERR, .reg .GTH_CNT, .reg .GTH_DROP, .reg .CDR_EVT, .reg .CDR_FLG]) := by simp [*]) :
    Keeps P s₀ (State.installable x h_ eph).1 := by
  simp only [covers_cons, covers_nil, and_true] at cv
  unfold State.installable
  simp only []
  split <;> simp (maxDischargeDepth := 60) [h, cv]

@[simp] theorem State.installNew_keeps (h_ : CtxHost) (eph : Nat) (x_ : Ctx) (h : Keeps P s₀ x) (cv : Covers P ([.out, .ctxs, .cmgr, .rings, .slices,
    .icu, .smp, .reg .SCH_CTXCNT, .reg .MOV_STS, .reg .ICU_ERR, .reg .GTH_CNT, .reg .GTH_DROP, .reg .CDR_EVT, .reg .CDR_FLG]) := by simp [*]) :
    Keeps P s₀ (State.installNew x h_ eph x_).1 := by
  simp only [covers_cons, covers_nil, and_true] at cv
  have hi : Keeps P s₀ (x.installable h_ eph).1 := by simp [h, cv]
  unfold State.installNew
  simp only []; (repeat' split) <;> (try simp only [Prod.ext_iff] at *) <;> subst_vars <;> simp +contextual (maxDischargeDepth := 60) [h, cv]

@[simp] theorem execEpInstall_keeps (r : Nat) (d img : HostRead) (h_ : CtxHost) (h : Keeps P s₀ x) (cv : Covers P ([.out, .ctxs, .cmgr, .rings, .cmds,
    .slices, .icu, .smp, .audit, .mov, .reg .SCH_CTXCNT, .reg .MOV_STS, .reg .ICU_ERR, .reg .SLC_ERR, .reg .SEC_EVT, .reg .SEC_AUDIT, .reg .GTH_CNT,
    .reg .GTH_DROP, .reg .CDR_EVT, .reg .CDR_FLG]) := by simp [*]) :
    KeepsO P s₀ (execEpInstall r d img h_ x) := by
  simp only [covers_cons, covers_nil, and_true] at cv
  unfold execEpInstall
  (repeat' split) <;> (try simp only [Prod.ext_iff] at *) <;> (try subst_vars) <;> simp +contextual (maxDischargeDepth := 60) [h, cv]

@[simp] theorem execEpRemove_keeps (r : Nat) (d : HostRead) (h_ : CtxHost) (h : Keeps P s₀ x) (cv : Covers P ([.out, .free, .ctxs, .cmgr, .txns,
    .rings, .entries, .cmds, .deal, .slices, .icu, .pool, .twin, .smp, .audit, .mov, .reg .SCH_DYN_CNT, .reg .SCH_CTXCNT, .reg .MOV_STS, .reg
    .ICU_ERR, .reg .SLC_ERR, .reg .SEC_EVT, .reg .SEC_AUDIT, .reg .GTH_CNT, .reg .GTH_DROP, .reg .CDR_EVT, .reg .CDR_FLG]) := by simp [*]) :
    KeepsO P s₀ (execEpRemove r d h_ x) := by
  simp only [covers_cons, covers_nil, and_true] at cv
  unfold execEpRemove
  simp +contextual (maxDischargeDepth := 60) [h, cv]

@[simp] theorem execEpStop_keeps (r : Nat) (d : HostRead) (h_ : CtxHost) (h : Keeps P s₀ x) (cv : Covers P ([.out, .ctxs, .cmgr, .txns, .rings,
    .entries, .cmds, .deal, .slices, .icu, .pool, .smp, .audit, .mov, .reg .SCH_CTXCNT, .reg .MOV_STS, .reg .ICU_ERR, .reg .SLC_ERR, .reg .SEC_EVT,
    .reg .SEC_AUDIT, .reg .GTH_CNT, .reg .GTH_DROP, .reg .CDR_EVT, .reg .CDR_FLG]) := by simp [*]) :
    KeepsO P s₀ (execEpStop r d h_ x) := by
  simp only [covers_cons, covers_nil, and_true] at cv
  unfold execEpStop
  simp +contextual (maxDischargeDepth := 60) [h, cv]

@[simp] theorem execEpStart_keeps (r : Nat) (d : HostRead) (h_ : CtxHost) (h : Keeps P s₀ x) (cv : Covers P ([.out, .ctxs, .cmgr, .txns, .rings,
    .entries, .cmds, .deal, .slices, .icu, .pool, .smp, .audit, .mov, .reg .SCH_CTXCNT, .reg .MOV_STS, .reg .ICU_ERR, .reg .SLC_ERR, .reg .SEC_EVT,
    .reg .SEC_AUDIT, .reg .GTH_CNT, .reg .GTH_DROP, .reg .CDR_EVT, .reg .CDR_FLG]) := by simp [*]) :
    KeepsO P s₀ (execEpStart r d h_ x) := by
  simp only [covers_cons, covers_nil, and_true] at cv
  unfold execEpStart
  simp +contextual (maxDischargeDepth := 60) [h, cv]

@[simp] theorem execEpReset_keeps (r : Nat) (d : HostRead) (h_ : CtxHost) (h : Keeps P s₀ x) (cv : Covers P ([.out, .free, .ctxs, .cmgr, .txns,
    .rings, .entries, .cmds, .deal, .slices, .icu, .pool, .twin, .smp, .audit, .mov, .reg .SCH_DYN_CNT, .reg .SCH_CTXCNT, .reg .MOV_STS, .reg
    .ICU_ERR, .reg .SLC_ERR, .reg .SEC_EVT, .reg .SEC_AUDIT, .reg .GTH_CNT, .reg .GTH_DROP, .reg .CDR_EVT, .reg .CDR_FLG]) := by simp [*]) :
    KeepsO P s₀ (execEpReset r d h_ x) := by
  simp only [covers_cons, covers_nil, and_true] at cv
  unfold execEpReset
  simp +contextual (maxDischargeDepth := 60) [h, cv]

@[simp] theorem execEpFlush_keeps (r : Nat) (d : HostRead) (h_ : CtxHost) (h : Keeps P s₀ x) (cv : Covers P ([.out, .ctxs, .cmgr, .rings, .cmds,
    .slices, .icu, .smp, .audit, .mov, .reg .SCH_CTXCNT, .reg .MOV_STS, .reg .ICU_ERR, .reg .SLC_ERR, .reg .SEC_EVT, .reg .SEC_AUDIT, .reg .GTH_CNT,
    .reg .GTH_DROP, .reg .CDR_EVT, .reg .CDR_FLG]) := by simp [*]) :
    KeepsO P s₀ (execEpFlush r d h_ x) := by
  simp only [covers_cons, covers_nil, and_true] at cv
  unfold execEpFlush
  simp +contextual (maxDischargeDepth := 60) [h, cv]

@[simp] theorem execEpQuery_keeps (r : Nat) (d : HostRead) (h_ : CtxHost) (h : Keeps P s₀ x) (cv : Covers P ([.out, .ctxs, .cmgr, .rings, .cmds,
    .slices, .icu, .smp, .audit, .mov, .reg .SCH_CTXCNT, .reg .MOV_STS, .reg .ICU_ERR, .reg .SLC_ERR, .reg .SEC_EVT, .reg .SEC_AUDIT, .reg .GTH_CNT,
    .reg .GTH_DROP, .reg .CDR_EVT, .reg .CDR_FLG]) := by simp [*]) :
    KeepsO P s₀ (execEpQuery r d h_ x) := by
  simp only [covers_cons, covers_nil, and_true] at cv
  unfold execEpQuery
  simp +contextual (maxDischargeDepth := 60) [h, cv]

@[simp] theorem execSubtreeGone_keeps (r : Nat) (d : HostRead) (others : Nat) (h : Keeps P s₀ x) (cv : Covers P ([.out, .free, .ctxs, .cmgr, .txns,
    .rings, .entries, .cmds, .deal, .icu, .pool, .twin, .smp, .audit, .mov, .reg .SCH_DYN_CNT, .reg .SCH_CTXCNT, .reg .MOV_STS, .reg .ICU_ERR, .reg
    .SLC_ERR, .reg .SEC_EVT, .reg .SEC_AUDIT, .reg .GTH_CNT, .reg .GTH_DROP, .reg .CDR_EVT, .reg .CDR_FLG]) := by simp [*]) :
    KeepsO P s₀ (execSubtreeGone r d others x) := by
  simp only [covers_cons, covers_nil, and_true] at cv
  unfold execSubtreeGone
  simp +contextual (maxDischargeDepth := 60) [h, cv]

@[simp] theorem execEnumerate_keeps (r : Nat) (d : HostRead) (h_ : CtxHost) (eps : List EnumEp) (h : Keeps P s₀ x) (cv : Covers P ([.out, .free,
    .ctxs, .cmgr, .txns, .rings, .entries, .cmds, .deal, .slices, .icu, .pool, .twin, .smp, .audit, .mov, .reg .SCH_DYN_CNT, .reg .SCH_CTXCNT, .reg
    .MOV_STS, .reg .ICU_ERR, .reg .SLC_ERR, .reg .SEC_EVT, .reg .SEC_AUDIT, .reg .GTH_CNT, .reg .GTH_DROP, .reg .CDR_EVT, .reg .CDR_FLG]) := by simp
    [*]) :
    KeepsO P s₀ (execEnumerate r d h_ eps x) := by
  simp only [covers_cons, covers_nil, and_true] at cv
  unfold execEnumerate
  simp +contextual (maxDischargeDepth := 60) [h, cv]

@[simp] theorem execXcvrRead_keeps (r : Nat) (d : HostRead) (h : Keeps P s₀ x) (cv : Covers P ([.out, .ports, .rings, .cmds, .icu, .audit, .mov, .reg
    .MOV_STS, .reg .ICU_ERR, .reg .SLC_ERR, .reg .SEC_EVT, .reg .SEC_AUDIT]) := by simp [*]) :
    KeepsO P s₀ (execXcvrRead r d x) := by
  simp only [covers_cons, covers_nil, and_true] at cv
  unfold execXcvrRead
  simp +contextual (maxDischargeDepth := 60) [h, cv]

end Sys2Proof.Machine
end

