-- ==== Sys2Proof/Laws/KeepsAdmission.lean ====
section
/-! SUPPORT. Laws/KeepsAdmission.lean: for each function of Machine/Admission.lean, the parts of the state that it leaves as they are. -/

namespace Sys2Proof.Machine

variable {P : Part → Bool} {s₀ x : State}

@[simp] theorem State.admRefuse_keeps (f : AdmFail) (ring recheck : Nat) (bit_ : Fld) (h : Keeps P s₀ x) (cv : Covers P ([.out, .rings, .icu, .reg
    .MOV_STS, .reg .ICU_ERR, .reg bit_.reg]) := by simp [*]) :
    Keeps P s₀ (State.admRefuse x f ring recheck bit_) := by
  simp only [covers_cons, covers_nil, and_true] at cv
  unfold State.admRefuse
  simp (maxDischargeDepth := 60) [h, cv]

@[simp] theorem State.startBatch_keeps (h : Keeps P s₀ x) (cv : Covers P ([.sched]) := by simp [*]) :
    Keeps P s₀ (State.startBatch x) := by
  simp only [covers_cons, covers_nil, and_true] at cv
  unfold State.startBatch
  split <;> simp (maxDischargeDepth := 60) [h, cv]

@[simp] theorem State.queueBatch_keeps (kind : BatchKind) (cmd : Option (Nat × Nat)) (slice : Option Nat) (changes : List (DWord × DWord)) (when_
    : Option Nat) (h : Keeps P s₀ x) (cv : Covers P ([.sched]) := by simp [*]) :
    Keeps P s₀ (State.queueBatch x kind cmd slice changes when_) := by
  simp only [covers_cons, covers_nil, and_true] at cv
  unfold State.queueBatch
  simp (maxDischargeDepth := 60) [h, cv]

@[simp] theorem State.changeCheck_keeps (h_ : CtxHost) (b : Batch) (seen : List Nat) (w : DWord) (h : Keeps P s₀ x) (cv : Covers P ([.out, .ctxs,
    .cmgr, .rings, .slices, .icu, .smp, .audit, .reg .SCH_CTXCNT, .reg .MOV_STS, .reg .ICU_ERR, .reg .SLC_ERR, .reg .SEC_EVT, .reg .SEC_AUDIT, .reg
    .GTH_CNT, .reg .GTH_DROP, .reg .CDR_EVT, .reg .CDR_FLG]) := by simp [*]) :
    Keeps P s₀ (State.changeCheck x h_ b seen w).1 := by
  simp only [covers_cons, covers_nil, and_true] at cv
  unfold State.changeCheck
  simp only []; (repeat' split) <;> (try simp only [Prod.ext_iff] at *) <;> subst_vars <;> simp +contextual (maxDischargeDepth := 60) [h, cv]

@[simp] theorem State.changesCheck_keeps (h_ : CtxHost) (b : Batch) (a3 : Nat) (a4 : List Nat) (a5 : List (DWord × DWord)) (h : Keeps P s₀ x) (cv :
    Covers P ([.out, .ctxs, .cmgr, .rings, .slices, .icu, .smp, .audit, .reg .SCH_CTXCNT, .reg .MOV_STS, .reg .ICU_ERR, .reg .SLC_ERR, .reg .SEC_EVT,
    .reg .SEC_AUDIT, .reg .GTH_CNT, .reg .GTH_DROP, .reg .CDR_EVT, .reg .CDR_FLG]) := by simp [*]) :
    Keeps P s₀ (State.changesCheck x h_ b a3 a4 a5).1 := by
  simp only [covers_cons, covers_nil, and_true] at cv
  induction a5 generalizing x a3 a4 with
  | nil => simpa [State.changesCheck] using h
  | cons w r ih =>
    obtain ⟨w, wn⟩ := w
    rw [State.changesCheck]
    split
    · exact h
    · dsimp only
      split
      · exact State.changeCheck_keeps _ _ _ _ h
      · exact ih _ _ (State.changeCheck_keeps _ _ _ _ h)

@[simp] theorem State.batchDone_keeps (r i status result : Nat) (h : Keeps P s₀ x) (cv : Covers P ([.out, .ctxs, .cmgr, .txns, .rings, .entries,
    .cmds, .deal, .icu, .pool, .reg .SCH_CTXCNT, .reg .MOV_STS, .reg .ICU_ERR]) := by simp [*]) :
    Keeps P s₀ (State.batchDone x r i status result) := by
  simp only [covers_cons, covers_nil, and_true] at cv
  unfold State.batchDone
  (repeat' split) <;> (try simp only [Prod.ext_iff] at *) <;> (try subst_vars) <;> simp +contextual (maxDischargeDepth := 60) [h, cv]

@[simp] theorem State.endBatch_keeps (b : Batch) (status result : Nat) (h : Keeps P s₀ x) (cv : Covers P ([.out, .ctxs, .cmgr, .txns, .rings,
    .entries, .cmds, .sched, .deal, .icu, .pool, .reg .SCH_CTXCNT, .reg .MOV_STS, .reg .ICU_ERR]) := by simp [*]) :
    Keeps P s₀ (State.endBatch x b status result) := by
  simp only [covers_cons, covers_nil, and_true] at cv
  unfold State.endBatch
  split <;> simp (maxDischargeDepth := 60) [h, cv]

@[simp] theorem State.refuseBatch_keeps (b : Batch) (f : AdmFail) (h : Keeps P s₀ x) (cv : Covers P ([.out, .ctxs, .cmgr, .txns, .rings, .entries,
    .cmds, .sched, .deal, .icu, .pool, .reg .SCH_ADM_EVT, .reg .SCH_CTXCNT, .reg .MOV_STS, .reg .ICU_ERR]) := by simp [*]) :
    Keeps P s₀ (State.refuseBatch x b f) := by
  simp only [covers_cons, covers_nil, and_true] at cv
  unfold State.refuseBatch
  simp (maxDischargeDepth := 60) [h, cv]

@[simp] theorem State.admitBatch_keeps (h_ : CtxHost) (b : Batch) (h : Keeps P s₀ x) (cv : Covers P ([.out, .ctxs, .cmgr, .txns, .rings, .entries,
    .cmds, .sched, .deal, .slices, .icu, .pool, .smp, .audit, .reg .SCH_ADM_EVT, .reg .SCH_CTXCNT, .reg .MOV_STS, .reg .ICU_ERR, .reg .SLC_ERR, .reg
    .SEC_EVT, .reg .SEC_AUDIT, .reg .GTH_CNT, .reg .GTH_DROP, .reg .CDR_EVT, .reg .CDR_FLG]) := by simp [*]) :
    Keeps P s₀ (State.admitBatch x h_ b) := by
  simp only [covers_cons, covers_nil, and_true] at cv
  unfold State.admitBatch
  simp only []; (repeat' split) <;> (try simp only [Prod.ext_iff] at *) <;> subst_vars <;> simp +contextual (maxDischargeDepth := 60) [h, cv]

@[simp] theorem State.writePhases_keeps (b : Batch) (n : Nat) (h : Keeps P s₀ x) (cv : Covers P ([.ctxs]) := by simp [*]) :
    Keeps P s₀ (State.writePhases x b n) := by
  simp only [covers_cons, covers_nil, and_true] at cv
  unfold State.writePhases
  simp +contextual (maxDischargeDepth := 60) [h, cv]

@[simp] theorem State.switchTree_keeps (b : Batch) (n : Nat) (h : Keeps P s₀ x) (cv : Covers P ([.out, .ctxs, .rings, .sched, .icu, .smp, .reg
    .MOV_STS, .reg .ICU_ERR, .reg .GTH_CNT, .reg .GTH_DROP]) := by simp [*]) :
    Keeps P s₀ (State.switchTree x b n) := by
  simp only [covers_cons, covers_nil, and_true] at cv
  unfold State.switchTree
  dsimp only
  refine State.event1_keeps _ _ _ _ _ (State.emitAll_keeps (State.onSched_keeps _ (keeps_foldl _ h fun y a hy => ?_)))
  split <;> simp (maxDischargeDepth := 60) [hy, cv]

@[simp] theorem State.switchTrees_keeps (frame a2 : Nat) (h : Keeps P s₀ x) (cv : Covers P ([.out, .ctxs, .cmgr, .txns, .rings, .entries, .cmds,
    .sched, .deal, .icu, .pool, .smp, .reg .SCH_ADM_EVT, .reg .SCH_LAST_SWITCH, .reg .SCH_CTXCNT, .reg .MOV_STS, .reg .ICU_ERR, .reg .GTH_CNT, .reg
    .GTH_DROP]) := by simp [*]) :
    Keeps P s₀ (State.switchTrees x frame a2) := by
  simp only [covers_cons, covers_nil, and_true] at cv
  induction a2 generalizing x with
  | zero => simpa [State.switchTrees] using h
  | succ k ih =>
    rw [State.switchTrees]
    split
    · split
      · split
        · exact h
        · dsimp only
          split
          · simp (maxDischargeDepth := 60) [h, cv]
          · exact ih (by simp (maxDischargeDepth := 60) [h, cv])
      · exact h
    · exact h

@[simp] theorem State.schedTick_keeps (frame : Nat) (h : Keeps P s₀ x) (cv : Covers P ([.out, .ctxs, .cmgr, .txns, .rings, .entries, .cmds, .sched,
    .deal, .icu, .pool, .smp, .reg .SCH_ADM_EVT, .reg .SCH_LAST_SWITCH, .reg .SCH_CTXCNT, .reg .MOV_STS, .reg .ICU_ERR, .reg .GTH_CNT, .reg
    .GTH_DROP]) := by simp [*]) :
    Keeps P s₀ (State.schedTick x frame) := by
  simp only [covers_cons, covers_nil, and_true] at cv
  unfold State.schedTick
  split <;> simp +contextual (maxDischargeDepth := 60) [h, cv]

@[simp] theorem State.rateAccept_keeps (n target : Nat) (byPolicy : Bool) (h : Keeps P s₀ x) (cv : Covers P ([.out, .ports, .devs, .rings, .cmds,
    .icu, .reg .SCH_ADM_EVT, .reg .PRT_STS, .reg .PRT_CHG, .reg .MOV_STS, .reg .ICU_ERR]) := by simp [*]) :
    Keeps P s₀ (State.rateAccept x n target byPolicy) := by
  simp only [covers_cons, covers_nil, and_true] at cv
  unfold State.rateAccept
  split <;> (try split) <;> simp +contextual (maxDischargeDepth := 60) [h, cv]

@[simp] theorem State.rateRequest_keeps (n target : Nat) (byPolicy : Bool) (h : Keeps P s₀ x) (cv : Covers P ([.out, .ports, .devs, .rings, .cmds,
    .sched, .icu, .reg .SCH_ADM_EVT, .reg .PRT_STS, .reg .PRT_CHG, .reg .MOV_STS, .reg .ICU_ERR]) := by simp [*]) :
    Keeps P s₀ (State.rateRequest x n target byPolicy) := by
  simp only [covers_cons, covers_nil, and_true] at cv
  unfold State.rateRequest
  simp (maxDischargeDepth := 60) [h, cv]

@[simp] theorem State.rateAdvise_keeps (n : Nat) (h : Keeps P s₀ x) (cv : Covers P ([.out, .pol, .rings, .icu, .reg .MOV_STS, .reg .ICU_ERR]) := by
    simp [*]) :
    Keeps P s₀ (State.rateAdvise x n) := by
  simp only [covers_cons, covers_nil, and_true] at cv
  unfold State.rateAdvise
  simp (maxDischargeDepth := 60) [h, cv]

@[simp] theorem State.ratePolicy_keeps (n : Nat) (h : Keeps P s₀ x) (cv : Covers P ([.out, .pol, .ports, .devs, .rings, .cmds, .sched, .icu, .reg
    .SCH_ADM_EVT, .reg .PRT_STS, .reg .PRT_CHG, .reg .MOV_STS, .reg .ICU_ERR]) := by simp [*]) :
    Keeps P s₀ (State.ratePolicy x n) := by
  simp only [covers_cons, covers_nil, and_true] at cv
  unfold State.ratePolicy
  simp only []; (repeat' split) <;> (try simp only [Prod.ext_iff] at *) <;> subst_vars <;> simp +contextual (maxDischargeDepth := 60) [h, cv]

@[simp] theorem State.portRate_keeps (c : CmdRec) (h : Keeps P s₀ x) (cv : Covers P ([.out, .pol, .ports, .devs, .rings, .cmds, .sched, .icu, .reg
    .SCH_ADM_EVT, .reg .PRT_STS, .reg .PRT_CHG, .reg .MOV_STS, .reg .ICU_ERR]) := by simp [*]) :
    Keeps P s₀ (State.portRate x c) := by
  simp only [covers_cons, covers_nil, and_true] at cv
  unfold State.portRate
  simp only []; (repeat' split) <;> (try simp only [Prod.ext_iff] at *) <;> subst_vars <;> simp +contextual (maxDischargeDepth := 60) [h, cv]

@[simp] theorem State.portRateTick_keeps (h : Keeps P s₀ x) (cv : Covers P ([.out, .pol, .ports, .devs, .rings, .cmds, .sched, .icu, .reg
    .SCH_ADM_EVT, .reg .PRT_STS, .reg .PRT_CHG, .reg .MOV_STS, .reg .ICU_ERR]) := by simp [*]) :
    Keeps P s₀ (State.portRateTick x) := by
  simp only [covers_cons, covers_nil, and_true] at cv
  unfold State.portRateTick
  simp +contextual (maxDischargeDepth := 60) [h, cv]

@[simp] theorem State.recheckCap_keeps (h : Keeps P s₀ x) (cv : Covers P ([.out, .rings, .sched, .icu, .reg .SCH_ADM_EVT, .reg .MOV_STS, .reg
    .ICU_ERR]) := by simp [*]) :
    Keeps P s₀ (State.recheckCap x) := by
  simp only [covers_cons, covers_nil, and_true] at cv
  unfold State.recheckCap
  simp only []; (repeat' split) <;> (try simp only [Prod.ext_iff] at *) <;> subst_vars <;> simp +contextual (maxDischargeDepth := 60) [h, cv]

@[simp] theorem State.recheckAmax_keeps (t : Nat) (h : Keeps P s₀ x) (cv : Covers P ([.out, .rings, .sched, .icu, .reg .SCH_ADM_EVT, .reg .MOV_STS,
    .reg .ICU_ERR]) := by simp [*]) :
    Keeps P s₀ (State.recheckAmax x t) := by
  simp only [covers_cons, covers_nil, and_true] at cv
  unfold State.recheckAmax
  simp only []; (repeat' split) <;> (try simp only [Prod.ext_iff] at *) <;> subst_vars <;> simp +contextual (maxDischargeDepth := 60) [h, cv]

@[simp] theorem State.rateTurn_keeps (n : Nat) (c : RateChange) (h : Keeps P s₀ x) (cv : Covers P ([.out, .pol, .ports, .devs, .rings, .cmds, .sched,
    .icu, .reg .SCH_ADM_EVT, .reg .PRT_STS, .reg .PRT_CHG, .reg .MOV_STS, .reg .ICU_ERR]) := by simp [*]) :
    Keeps P s₀ (State.rateTurn x n c) := by
  simp only [covers_cons, covers_nil, and_true] at cv
  unfold State.rateTurn
  simp only []
  split
  · simp [h, cv]
  · split <;> simp (maxDischargeDepth := 60) [h, cv]

@[simp] theorem State.recheckOne_keeps (x_ : Recheck) (h : Keeps P s₀ x) (cv : Covers P ([.out, .pol, .ports, .devs, .rings, .cmds, .sched, .icu, .reg
    .SCH_ADM_EVT, .reg .PRT_STS, .reg .PRT_CHG, .reg .MOV_STS, .reg .ICU_ERR]) := by simp [*]) :
    Keeps P s₀ (State.recheckOne x x_) := by
  simp only [covers_cons, covers_nil, and_true] at cv
  unfold State.recheckOne
  simp only []; (repeat' split) <;> (try simp only [Prod.ext_iff] at *) <;> subst_vars <;> simp +contextual (maxDischargeDepth := 60) [h, cv]

@[simp] theorem State.recheckTick_keeps (h : Keeps P s₀ x) (cv : Covers P ([.out, .pol, .ports, .devs, .rings, .cmds, .sched, .icu, .reg .SCH_ADM_EVT,
    .reg .PRT_STS, .reg .PRT_CHG, .reg .MOV_STS, .reg .ICU_ERR]) := by simp [*]) :
    Keeps P s₀ (State.recheckTick x) := by
  simp only [covers_cons, covers_nil, and_true] at cv
  unfold State.recheckTick
  simp +contextual (maxDischargeDepth := 60) [h, cv]

@[simp] theorem State.enumInstall_keeps (c : CmdRec) (l : List (List Byte × EnumEp)) (h : Keeps P s₀ x) (cv : Covers P ([.out, .ctxs, .cmgr, .rings,
    .slices, .icu, .smp, .reg .SCH_CTXCNT, .reg .MOV_STS, .reg .ICU_ERR, .reg .GTH_CNT, .reg .GTH_DROP, .reg .CDR_EVT, .reg .CDR_FLG]) := by simp [*])
    :
    Keeps P s₀ (State.enumInstall x c l).1 := by
  simp only [covers_cons, covers_nil, and_true] at cv
  exact keeps_foldl_pair (w := (x, stOk)) _ h fun v a hv => by split <;> simp [hv, cv]

@[simp] theorem State.enumAdmit_keeps (c : CmdRec) (h : Keeps P s₀ x) (cv : Covers P ([.out, .ctxs, .cmgr, .txns, .rings, .entries, .cmds, .sched,
    .deal, .slices, .icu, .pool, .smp, .reg .SCH_CTXCNT, .reg .MOV_STS, .reg .ICU_ERR, .reg .GTH_CNT, .reg .GTH_DROP, .reg .CDR_EVT, .reg .CDR_FLG])
    := by simp [*]) :
    Keeps P s₀ (State.enumAdmit x c) := by
  simp only [covers_cons, covers_nil, and_true] at cv
  have hi : Keeps P s₀ (x.enumInstall c ((enumEntries c).zip c.eps)).1 := by simp [h, cv]
  unfold State.enumAdmit
  simp only []
  revert hi
  generalize x.enumInstall c ((enumEntries c).zip c.eps) = w
  intro hi
  (repeat' split) <;> simp (maxDischargeDepth := 60) [hi, cv]

@[simp] theorem State.enumTick_keeps (h : Keeps P s₀ x) (cv : Covers P ([.out, .ctxs, .cmgr, .txns, .rings, .entries, .cmds, .sched, .deal, .slices,
    .icu, .pool, .smp, .reg .SCH_CTXCNT, .reg .MOV_STS, .reg .ICU_ERR, .reg .GTH_CNT, .reg .GTH_DROP, .reg .CDR_EVT, .reg .CDR_FLG]) := by simp [*]) :
    Keeps P s₀ (State.enumTick x) := by
  simp only [covers_cons, covers_nil, and_true] at cv
  unfold State.enumTick
  (repeat' split) <;> (try simp only [Prod.ext_iff] at *) <;> (try subst_vars) <;> simp +contextual (maxDischargeDepth := 60) [h, cv]

@[simp] theorem execSchedBatch_keeps (r : Nat) (d list : HostRead) (h : Keeps P s₀ x) (cv : Covers P ([.out, .rings, .cmds, .sched, .slices, .icu,
    .audit, .mov, .reg .MOV_STS, .reg .ICU_ERR, .reg .SLC_ERR, .reg .SEC_EVT, .reg .SEC_AUDIT]) := by simp [*]) :
    KeepsO P s₀ (execSchedBatch r d list x) := by
  simp only [covers_cons, covers_nil, and_true] at cv
  unfold execSchedBatch
  split <;> simp +contextual (maxDischargeDepth := 60) [h, cv]

@[simp] theorem execBatchAdmitted_keeps (h_ : CtxHost) (h : Keeps P s₀ x) (cv : Covers P ([.out, .ctxs, .cmgr, .txns, .rings, .entries, .cmds, .sched,
    .deal, .slices, .icu, .pool, .smp, .audit, .reg .SCH_ADM_EVT, .reg .SCH_CTXCNT, .reg .MOV_STS, .reg .ICU_ERR, .reg .SLC_ERR, .reg .SEC_EVT, .reg
    .SEC_AUDIT, .reg .GTH_CNT, .reg .GTH_DROP, .reg .CDR_EVT, .reg .CDR_FLG]) := by simp [*]) :
    KeepsO P s₀ (execBatchAdmitted h_ x) := by
  simp only [covers_cons, covers_nil, and_true] at cv
  unfold execBatchAdmitted
  split <;> simp (maxDischargeDepth := 60) [h, cv]

@[simp] theorem execSchedReserve_keeps (r : Nat) (d : HostRead) (h : Keeps P s₀ x) (cv : Covers P ([.out, .rings, .cmds, .sched, .icu, .audit, .mov,
    .reg .MOV_STS, .reg .ICU_ERR, .reg .SLC_ERR, .reg .SEC_EVT, .reg .SEC_AUDIT]) := by simp [*]) :
    KeepsO P s₀ (execSchedReserve r d x) := by
  simp only [covers_cons, covers_nil, and_true] at cv
  unfold execSchedReserve
  simp +contextual (maxDischargeDepth := 60) [h, cv]

@[simp] theorem execSchedQuery_keeps (r : Nat) (d : HostRead) (h : Keeps P s₀ x) (cv : Covers P ([.out, .rings, .cmds, .slices, .icu, .audit, .mov,
    .reg .MOV_STS, .reg .ICU_ERR, .reg .SLC_ERR, .reg .SEC_EVT, .reg .SEC_AUDIT]) := by simp [*]) :
    KeepsO P s₀ (execSchedQuery r d x) := by
  simp only [covers_cons, covers_nil, and_true] at cv
  unfold execSchedQuery
  simp +contextual (maxDischargeDepth := 60) [h, cv]

@[simp] theorem execSchedClear_keeps (r : Nat) (d : HostRead) (h : Keeps P s₀ x) (cv : Covers P ([.out, .rings, .cmds, .sched, .icu, .audit, .mov,
    .reg .MOV_STS, .reg .ICU_ERR, .reg .SLC_ERR, .reg .SEC_EVT, .reg .SEC_AUDIT]) := by simp [*]) :
    KeepsO P s₀ (execSchedClear r d x) := by
  simp only [covers_cons, covers_nil, and_true] at cv
  unfold execSchedClear
  simp +contextual (maxDischargeDepth := 60) [h, cv]

@[simp] theorem execPortRate_keeps (r : Nat) (d : HostRead) (h : Keeps P s₀ x) (cv : Covers P ([.out, .pol, .ports, .devs, .rings, .cmds, .sched,
    .icu, .audit, .mov, .reg .SCH_ADM_EVT, .reg .PRT_STS, .reg .PRT_CHG, .reg .MOV_STS, .reg .ICU_ERR, .reg .SLC_ERR, .reg .SEC_EVT, .reg .SEC_AUDIT])
    := by simp [*]) :
    KeepsO P s₀ (execPortRate r d x) := by
  simp only [covers_cons, covers_nil, and_true] at cv
  unfold execPortRate
  simp +contextual (maxDischargeDepth := 60) [h, cv]

end Sys2Proof.Machine
end

