-- ==== Sys2Proof/Laws/KeepsDealer.lean ====
section
/-! SUPPORT. Laws/KeepsDealer.lean: for each function of Machine/Dealer.lean, the parts of the state that it leaves as they are. -/

namespace Sys2Proof.Machine

variable {P : Part → Bool} {s₀ x : State}

@[simp] theorem State.releaseDue_keeps (t : Nat) (h : Keeps P s₀ x) (cv : Covers P ([.out, .ctxs, .cmgr, .txns, .rings, .entries, .deal, .icu, .pool,
    .reg .SCH_CTXCNT, .reg .MOV_STS, .reg .ICU_ERR]) := by simp [*]) :
    Keeps P s₀ (State.releaseDue x t) := by
  simp only [covers_cons, covers_nil, and_true] at cv
  unfold State.releaseDue
  simp +contextual (maxDischargeDepth := 60) [h, cv]

@[simp] theorem State.spillBack_keeps (n a2 : Nat) (h : Keeps P s₀ x) (cv : Covers P ([.out, .ctxs, .cmgr, .txns, .rings, .entries, .deal, .icu,
    .pool, .reg .SCH_CTXCNT, .reg .MOV_STS, .reg .ICU_ERR]) := by simp [*]) :
    Keeps P s₀ (State.spillBack x n a2) := by
  simp only [covers_cons, covers_nil, and_true] at cv
  induction a2 generalizing x with
  | zero => simpa [State.spillBack] using h
  | succ k ih =>
    rw [State.spillBack]
    split
    · exact h
    · split
      · exact h
      · dsimp only
        exact ih (by simp (maxDischargeDepth := 60) [h, cv])

@[simp] theorem State.spillLost_keeps (n : Nat) (h : Keeps P s₀ x) (cv : Covers P ([.out, .ctxs, .cmgr, .txns, .rings, .entries, .deal, .icu, .pool,
    .reg .SCH_CTXCNT, .reg .MOV_STS, .reg .ICU_ERR]) := by simp [*]) :
    Keeps P s₀ (State.spillLost x n) := by
  simp only [covers_cons, covers_nil, and_true] at cv
  unfold State.spillLost
  simp +contextual (maxDischargeDepth := 60) [h, cv]

@[simp] theorem State.spillEnable_keeps (en : Bool) (h : Keeps P s₀ x) (cv : Covers P ([.deal, .reg .SCH_SPILL_BASE, .reg .SCH_SPILL_STS]) := by
    simp [*]) :
    Keeps P s₀ (State.spillEnable x en) := by
  simp only [covers_cons, covers_nil, and_true] at cv
  unfold State.spillEnable
  simp (maxDischargeDepth := 60) [h, cv]

@[simp] theorem State.counterWrite_keeps (v : Nat) (h : Keeps P s₀ x) (cv : Covers P ([.out, .ctxs, .cmgr, .txns, .rings, .entries, .deal, .icu,
    .pool, .reg .SCH_CTXCNT, .reg .MOV_STS, .reg .ICU_ERR]) := by simp [*]) :
    Keeps P s₀ (State.counterWrite x v) := by
  simp only [covers_cons, covers_nil, and_true] at cv
  unfold State.counterWrite
  simp (maxDischargeDepth := 60) [h, cv]

@[simp] theorem execDelayRelease_keeps (t : Nat) (h : Keeps P s₀ x) (cv : Covers P ([.out, .free, .tim, .ctxs, .cmgr, .txns, .rings, .entries, .cmds,
    .deal, .icu, .pool, .twin, .smp, .reg .SCH_DYN_CNT, .reg .SCH_CTXCNT, .reg .MOV_STS, .reg .ICU_ERR, .reg .GTH_CNT, .reg .GTH_DROP, .reg .CDR_EVT,
    .reg .CDR_FLG]) := by simp [*]) :
    KeepsO P s₀ (execDelayRelease t x) := by
  simp only [covers_cons, covers_nil, and_true] at cv
  unfold execDelayRelease
  simp (maxDischargeDepth := 60) [h, cv]

@[simp] theorem execNotyetTimeout_keeps (eph : Nat) (h : Keeps P s₀ x) (cv : Covers P ([.out, .free, .ctxs, .cmgr, .txns, .rings, .entries, .cmds,
    .deal, .icu, .pool, .twin, .smp, .reg .SCH_DYN_CNT, .reg .SCH_CTXCNT, .reg .MOV_STS, .reg .ICU_ERR, .reg .GTH_CNT, .reg .GTH_DROP, .reg .CDR_EVT,
    .reg .CDR_FLG]) := by simp [*]) :
    KeepsO P s₀ (execNotyetTimeout eph x) := by
  simp only [covers_cons, covers_nil, and_true] at cv
  unfold execNotyetTimeout
  split <;> simp (maxDischargeDepth := 60) [h, cv]

@[simp] theorem execSpillReturn_keeps (n : Nat) (ok : Bool) (h : Keeps P s₀ x) (cv : Covers P ([.out, .free, .ctxs, .cmgr, .txns, .rings, .entries,
    .cmds, .deal, .slices, .icu, .pool, .twin, .smp, .mov, .reg .SCH_DYN_CNT, .reg .SCH_CTXCNT, .reg .MOV_STS, .reg .ICU_ERR, .reg .GTH_CNT, .reg
    .GTH_DROP, .reg .CDR_EVT, .reg .CDR_FLG]) := by simp [*]) :
    KeepsO P s₀ (execSpillReturn n ok x) := by
  simp only [covers_cons, covers_nil, and_true] at cv
  unfold execSpillReturn
  simp (maxDischargeDepth := 60) [h, cv]

@[simp] theorem execSpillEnable_keeps (en : Bool) (h : Keeps P s₀ x) (cv : Covers P ([.out, .free, .ctxs, .cmgr, .txns, .rings, .entries, .deal,
    .slices, .icu, .pool, .reg .SCH_SPILL_BASE, .reg .SCH_SPILL_STS, .reg .SCH_CTXCNT, .reg .MOV_STS, .reg .ICU_ERR]) := by simp [*]) :
    KeepsO P s₀ (execSpillEnable en x) := by
  simp only [covers_cons, covers_nil, and_true] at cv
  unfold execSpillEnable
  simp (maxDischargeDepth := 60) [h, cv]

@[simp] theorem execSchDcntValWrite_keeps (v : Nat) (h : Keeps P s₀ x) (cv : Covers P ([.out, .ctxs, .cmgr, .txns, .rings, .entries, .deal, .icu,
    .pool, .reg .SCH_CTXCNT, .reg .MOV_STS, .reg .ICU_ERR]) := by simp [*]) :
    KeepsO P s₀ (execSchDcntValWrite v x) := by
  simp only [covers_cons, covers_nil, and_true] at cv
  unfold execSchDcntValWrite
  simp (maxDischargeDepth := 60) [h, cv]

@[simp] theorem execSchAdmEvtRead_keeps (both : Bool) (h : Keeps P s₀ x) (cv : Covers P ([.out, .icu, .reg .SCH_ADM_EVT, .reg
    .SCH_ADM_EVT_SHADOW, .reg .ICU_ERR]) := by simp [*]) :
    KeepsO P s₀ (execSchAdmEvtRead both x) := by
  simp only [covers_cons, covers_nil, and_true] at cv
  unfold execSchAdmEvtRead
  simp (maxDischargeDepth := 60) [h, cv]

end Sys2Proof.Machine
end

