-- ==== Sys2Proof/Laws/KeepsDevBase.lean ====
section
/-! SUPPORT. Laws/KeepsDevBase.lean: for each function of Machine/DevBase.lean, the parts of the state that it leaves as they are. -/

namespace Sys2Proof.Machine

variable {P : Part → Bool} {s₀ x : State}

@[simp] theorem State.onEp_keeps (d ep dir : Nat) (f : DevEp → DevEp) (h : Keeps P s₀ x) (cv : Covers P ([.devs]) := by simp [*]) :
    Keeps P s₀ (State.onEp x d ep dir f) := by
  simp only [covers_cons, covers_nil, and_true] at cv
  unfold State.onEp
  simp (maxDischargeDepth := 60) [h, cv]

@[simp] theorem State.onCtl_keeps (d : Nat) (f : DevCtl → DevCtl) (h : Keeps P s₀ x) (cv : Covers P ([.devs]) := by simp [*]) :
    Keeps P s₀ (State.onCtl x d f) := by
  simp only [covers_cons, covers_nil, and_true] at cv
  unfold State.onCtl
  simp (maxDischargeDepth := 60) [h, cv]

@[simp] theorem State.answerUp_keeps (d : Nat) (call : Pkt) (pid pflags : Nat) (payload : List Byte) (h : Keeps P s₀ x) (cv : Covers P ([.out,
    .links, .txns]) := by simp [*]) :
    Keeps P s₀ (State.answerUp x d call pid pflags payload) := by
  simp only [covers_cons, covers_nil, and_true] at cv
  unfold State.answerUp
  simp (maxDischargeDepth := 60) [h, cv]

@[simp] theorem State.stallUp_keeps (d : Nat) (call : Pkt) (why : Nat) (h : Keeps P s₀ x) (cv : Covers P ([.out, .links, .txns]) := by simp [*]) :
    Keeps P s₀ (State.stallUp x d call why) := by
  simp only [covers_cons, covers_nil, and_true] at cv
  unfold State.stallUp
  simp (maxDischargeDepth := 60) [h, cv]

@[simp] theorem State.ctlDone_keeps (d : Nat) (h : Keeps P s₀ x) (cv : Covers P ([.devs]) := by simp [*]) :
    Keeps P s₀ (State.ctlDone x d) := by
  simp only [covers_cons, covers_nil, and_true] at cv
  unfold State.ctlDone
  simp (maxDischargeDepth := 60) [h, cv]

@[simp] theorem State.devAck_keeps (d : Nat) (p : Pkt) (h : Keeps P s₀ x) (cv : Covers P ([.devs]) := by simp [*]) :
    Keeps P s₀ (State.devAck x d p) := by
  simp only [covers_cons, covers_nil, and_true] at cv
  unfold State.devAck
  split <;> (try split) <;> (try split) <;> simp +contextual (maxDischargeDepth := 60) [h, cv]

end Sys2Proof.Machine
end

