-- ==== Sys2Proof/Laws/KeepsLinkRx.lean ====
section
/-! SUPPORT. Laws/KeepsLinkRx.lean: for each function of Machine/LinkRx.lean, the parts of the state that it leaves as they are. -/

namespace Sys2Proof.Machine

variable {P : Part → Bool} {s₀ x : State}

@[simp] theorem State.countHeader_keeps (l : LinkEndId) (h : Keeps P s₀ x) (cv : Covers P ([.links, .reg .PRT_LERR]) := by simp [*]) :
    Keeps P s₀ (State.countHeader x l) := by
  simp only [covers_cons, covers_nil, and_true] at cv
  unfold State.countHeader
  split <;> simp (maxDischargeDepth := 60) [h, cv]

@[simp] theorem State.countCrc_keeps (l : LinkEndId) (h : Keeps P s₀ x) (cv : Covers P ([.links, .reg .PRT_LERR]) := by simp [*]) :
    Keeps P s₀ (State.countCrc x l) := by
  simp only [covers_cons, covers_nil, and_true] at cv
  unfold State.countCrc
  split <;> simp (maxDischargeDepth := 60) [h, cv]

@[simp] theorem State.countPoisoned_keeps (l : LinkEndId) (h : Keeps P s₀ x) (cv : Covers P ([.links, .reg .PRT_RETRY]) := by simp [*]) :
    Keeps P s₀ (State.countPoisoned x l) := by
  simp only [covers_cons, covers_nil, and_true] at cv
  unfold State.countPoisoned
  split <;> simp (maxDischargeDepth := 60) [h, cv]

@[simp] theorem State.countFec_keeps (l : LinkEndId) (c : List (Option Nat)) (h : Keeps P s₀ x) (cv : Covers P ([.reg .PRT_FEC]) := by simp [*]) :
    Keeps P s₀ (State.countFec x l c) := by
  simp only [covers_cons, covers_nil, and_true] at cv
  unfold State.countFec
  split <;> simp (maxDischargeDepth := 60) [h, cv]

@[simp] theorem State.rxOn_keeps (l : LinkEndId) (x_ : List RxSym) (h : Keeps P s₀ x) (cv : Covers P ([.links]) := by simp [*]) :
    Keeps P s₀ (State.rxOn x l x_) := by
  simp only [covers_cons, covers_nil, and_true] at cv
  unfold State.rxOn
  (repeat' split) <;> (try simp only [Prod.ext_iff] at *) <;> (try subst_vars) <;> simp +contextual (maxDischargeDepth := 60) [h, cv]

@[simp] theorem State.takeLine_keeps (l : LinkEndId) (line : RxLine) (h : Keeps P s₀ x) (cv : Covers P ([.links, .reg .PRT_FEC]) := by simp [*]) :
    Keeps P s₀ (State.takeLine x l line) := by
  simp only [covers_cons, covers_nil, and_true] at cv
  unfold State.takeLine
  (repeat' split) <;> (try simp only [Prod.ext_iff] at *) <;> (try subst_vars) <;> simp +contextual (maxDischargeDepth := 60) [h, cv]

@[simp] theorem State.rxOver_keeps (l : LinkEndId) (n : Nat) (h : Keeps P s₀ x) (cv : Covers P ([.links]) := by simp [*]) :
    Keeps P s₀ (State.rxOver x l n) := by
  simp only [covers_cons, covers_nil, and_true] at cv
  unfold State.rxOver
  (repeat' split) <;> (try simp only [Prod.ext_iff] at *) <;> (try subst_vars) <;> simp +contextual (maxDischargeDepth := 60) [h, cv]

@[simp] theorem State.sendRetry_keeps (l : LinkEndId) (t : Nat) (h : Keeps P s₀ x) (cv : Covers P ([.out, .links]) := by simp [*]) :
    Keeps P s₀ (State.sendRetry x l t) := by
  simp only [covers_cons, covers_nil, and_true] at cv
  unfold State.sendRetry
  simp (maxDischargeDepth := 60) [h, cv]

@[simp] theorem State.sendAck_keeps (l : LinkEndId) (h : Keeps P s₀ x) (cv : Covers P ([.out, .links]) := by simp [*]) :
    Keeps P s₀ (State.sendAck x l) := by
  simp only [covers_cons, covers_nil, and_true] at cv
  unfold State.sendAck
  simp (maxDischargeDepth := 60) [h, cv]

@[simp] theorem State.hubDiscard_keeps (l : LinkEndId) (h : Keeps P s₀ x) (cv : Covers P ([.links]) := by simp [*]) :
    Keeps P s₀ (State.hubDiscard x l) := by
  simp only [covers_cons, covers_nil, and_true] at cv
  unfold State.hubDiscard
  simp (maxDischargeDepth := 60) [h, cv]

@[simp] theorem State.deliver_keeps (l : LinkEndId) (p : Pkt) (h : Keeps P s₀ x) (cv : Covers P ([.out]) := by simp [*]) :
    Keeps P s₀ (State.deliver x l p) := by
  simp only [covers_cons, covers_nil, and_true] at cv
  unfold State.deliver
  (repeat' split) <;> (try simp only [Prod.ext_iff] at *) <;> (try subst_vars) <;> simp +contextual (maxDischargeDepth := 60) [h, cv]

@[simp] theorem State.acceptDown_keeps (d up : Nat) (p : Pkt) (h : Keeps P s₀ x) (cv : Covers P ([.out, .links, .devs, .txns]) := by simp [*]) :
    Keeps P s₀ (State.acceptDown x d up p) := by
  simp only [covers_cons, covers_nil, and_true] at cv
  unfold State.acceptDown
  simp only []; (repeat' split) <;> (try simp only [Prod.ext_iff] at *) <;> subst_vars <;> simp +contextual (maxDischargeDepth := 60) [h, cv]

@[simp] theorem State.openTicket_keeps (l : LinkEndId) (r : RawPkt) (h : Keeps P s₀ x) (cv : Covers P ([.links, .devs]) := by simp [*]) :
    Keeps P s₀ (State.openTicket x l r) := by
  simp only [covers_cons, covers_nil, and_true] at cv
  unfold State.openTicket
  (repeat' split) <;> (try simp only [Prod.ext_iff] at *) <;> (try subst_vars) <;> simp +contextual (maxDischargeDepth := 60) [h, cv]

@[simp] theorem State.upDone_keeps (d q : Nat) (k : Pkt) (h : Keeps P s₀ x) (cv : Covers P ([.out, .links, .devs, .txns]) := by simp [*]) :
    Keeps P s₀ (State.upDone x d q k) := by
  simp only [covers_cons, covers_nil, and_true] at cv
  unfold State.upDone
  (repeat' split) <;> (try simp only [Prod.ext_iff] at *) <;> (try subst_vars) <;> simp +contextual (maxDischargeDepth := 60) [h, cv]

@[simp] theorem State.acceptUp_keeps (d p : Nat) (k : Pkt) (h : Keeps P s₀ x) (cv : Covers P ([.out, .links, .devs, .txns]) := by simp [*]) :
    Keeps P s₀ (State.acceptUp x d p k) := by
  simp only [covers_cons, covers_nil, and_true] at cv
  unfold State.acceptUp
  simp (maxDischargeDepth := 60) [h, cv]

@[simp] theorem State.accept_keeps (l : LinkEndId) (p : Pkt) (h : Keeps P s₀ x) (cv : Covers P ([.out, .links, .devs, .txns]) := by simp [*]) :
    Keeps P s₀ (State.accept x l p) := by
  simp only [covers_cons, covers_nil, and_true] at cv
  unfold State.accept
  split <;> simp (maxDischargeDepth := 60) [h, cv]

@[simp] theorem State.poisonCopy_keeps (l : LinkEndId) (r w : RawPkt) (up : Bool) (begun : Nat) (h : Keeps P s₀ x) (cv : Covers P ([.out]) := by
    simp [*]) :
    Keeps P s₀ (State.poisonCopy x l r w up begun) := by
  simp only [covers_cons, covers_nil, and_true] at cv
  unfold State.poisonCopy
  split <;> simp (maxDischargeDepth := 60) [h, cv]

@[simp] theorem State.checkSeq_keeps (l : LinkEndId) (r : RawPkt) (t : Nat) (h : Keeps P s₀ x) (cv : Covers P ([.out, .links, .devs, .txns]) := by
    simp [*]) :
    Keeps P s₀ (State.checkSeq x l r t) := by
  simp only [covers_cons, covers_nil, and_true] at cv
  unfold State.checkSeq
  simp (maxDischargeDepth := 60) [h, cv]

@[simp] theorem State.checkPacket_keeps (l : LinkEndId) (r w : RawPkt) (up : Bool) (begun t : Nat) (h : Keeps P s₀ x) (cv : Covers P ([.out,
    .links, .devs, .txns, .reg .PRT_LERR, .reg .PRT_RETRY]) := by simp [*]) :
    Keeps P s₀ (State.checkPacket x l r w up begun t) := by
  simp only [covers_cons, covers_nil, and_true] at cv
  unfold State.checkPacket
  (repeat' split) <;> (try simp only [Prod.ext_iff] at *) <;> (try subst_vars) <;> simp +contextual (maxDischargeDepth := 60) [h, cv]

@[simp] theorem State.takePacket_keeps (l : LinkEndId) (begun t : Nat) (h : Keeps P s₀ x) (cv : Covers P ([.out, .links, .devs, .txns, .reg
    .PRT_LERR, .reg .PRT_RETRY]) := by simp [*]) :
    Keeps P s₀ (State.takePacket x l begun t) := by
  simp only [covers_cons, covers_nil, and_true] at cv
  unfold State.takePacket
  (repeat' split) <;> (try simp only [Prod.ext_iff] at *) <;> (try subst_vars) <;> simp +contextual (maxDischargeDepth := 60) [h, cv]

@[simp] theorem execPacketReceive_keeps (l : LinkEndId) (line : RxLine) (begun t : Nat) (h : Keeps P s₀ x) (cv : Covers P ([.out, .tim, .links,
    .devs, .txns, .reg .PRT_LERR, .reg .PRT_RETRY, .reg .PRT_FEC]) := by simp [*]) :
    KeepsO P s₀ (execPacketReceive l line begun t x) := by
  simp only [covers_cons, covers_nil, and_true] at cv
  unfold execPacketReceive
  simp (maxDischargeDepth := 60) [h, cv]

@[simp] theorem execLinkctlAckReceive_keeps (l : LinkEndId) (seq : Nat) (h : Keeps P s₀ x) (cv : Covers P ([.out, .links, .txns]) := by simp [*]) :
    KeepsO P s₀ (execLinkctlAckReceive l seq x) := by
  simp only [covers_cons, covers_nil, and_true] at cv
  unfold execLinkctlAckReceive
  simp (maxDischargeDepth := 60) [h, cv]

@[simp] theorem State.replayOrDown_keeps (l : LinkEndId) (seq t : Nat) (tTx : Int) (h : Keeps P s₀ x) (cv : Covers P ([.out, .ports, .links, .devs,
    .ctxs, .cmgr, .txns, .rings, .entries, .cmds, .deal, .icu, .pool, .pwr, .smp, .reg .SCH_CTXCNT, .reg .PRT_STS, .reg .PRT_CHG, .reg .PRT_RETRY,
    .reg .MOV_STS, .reg .ICU_ERR, .reg .PWR_STS, .reg .PWR_EVT, .reg .PWR_WAKE, .reg .PWR_RCNT, .reg .GTH_CNT, .reg .GTH_DROP, .reg .CDR_EVT, .reg
    .CDR_FLG]) := by simp [*]) :
    Keeps P s₀ (State.replayOrDown x l seq t tTx) := by
  simp only [covers_cons, covers_nil, and_true] at cv
  unfold State.replayOrDown
  simp (maxDischargeDepth := 60) [h, cv]

@[simp] theorem execLinkctlRetryReceive_keeps (l : LinkEndId) (seq t : Nat) (tTx : Int) (h : Keeps P s₀ x) (cv : Covers P ([.out, .tim, .ports,
    .links, .devs, .ctxs, .cmgr, .txns, .rings, .entries, .cmds, .deal, .icu, .pool, .pwr, .smp, .reg .SCH_CTXCNT, .reg .PRT_STS, .reg .PRT_CHG, .reg
    .PRT_RETRY, .reg .MOV_STS, .reg .ICU_ERR, .reg .PWR_STS, .reg .PWR_EVT, .reg .PWR_WAKE, .reg .PWR_RCNT, .reg .GTH_CNT, .reg .GTH_DROP, .reg
    .CDR_EVT, .reg .CDR_FLG]) := by simp [*]) :
    KeepsO P s₀ (execLinkctlRetryReceive l seq t tTx x) := by
  simp only [covers_cons, covers_nil, and_true] at cv
  unfold execLinkctlRetryReceive
  simp (maxDischargeDepth := 60) [h, cv]

@[simp] theorem State.replayTimeout_keeps (l : LinkEndId) (t : Nat) (tTx : Int) (h : Keeps P s₀ x) (cv : Covers P ([.out, .ports, .links, .devs,
    .ctxs, .cmgr, .txns, .rings, .entries, .cmds, .deal, .icu, .pool, .pwr, .smp, .reg .SCH_CTXCNT, .reg .PRT_STS, .reg .PRT_CHG, .reg .PRT_RETRY,
    .reg .MOV_STS, .reg .ICU_ERR, .reg .PWR_STS, .reg .PWR_EVT, .reg .PWR_WAKE, .reg .PWR_RCNT, .reg .GTH_CNT, .reg .GTH_DROP, .reg .CDR_EVT, .reg
    .CDR_FLG]) := by simp [*]) :
    Keeps P s₀ (State.replayTimeout x l t tTx) := by
  simp only [covers_cons, covers_nil, and_true] at cv
  unfold State.replayTimeout
  split <;> (try split) <;> simp +contextual (maxDischargeDepth := 60) [h, cv]

@[simp] theorem State.showPeer_keeps (p : PortId) (arg : Nat) (h : Keeps P s₀ x) (cv : Covers P ([.out, .ctxs, .cmgr, .rings, .icu, .smp, .reg
    .PRT_STS, .reg .MOV_STS, .reg .ICU_ERR, .reg .GTH_CNT, .reg .GTH_DROP, .reg .CDR_EVT, .reg .CDR_FLG]) := by simp [*]) :
    Keeps P s₀ (State.showPeer x p arg) := by
  simp only [covers_cons, covers_nil, and_true] at cv
  unfold State.showPeer
  split <;> (try split) <;> simp +contextual (maxDischargeDepth := 60) [h, cv]

@[simp] theorem State.takeCaps_keeps (l : LinkEndId) (seq arg : Nat) (tTx : Int) (h : Keeps P s₀ x) (cv : Covers P ([.out, .links, .txns]) := by
    simp [*]) :
    Keeps P s₀ (State.takeCaps x l seq arg tTx) := by
  simp only [covers_cons, covers_nil, and_true] at cv
  unfold State.takeCaps
  simp (maxDischargeDepth := 60) [h, cv]

@[simp] theorem State.portCaps_keeps (p : PortId) (seq arg t : Nat) (tTx : Int) (h : Keeps P s₀ x) (cv : Covers P ([.out, .ports, .links, .devs,
    .ctxs, .cmgr, .txns, .rings, .entries, .cmds, .deal, .icu, .pool, .smp, .reg .SCH_CTXCNT, .reg .PRT_STS, .reg .PRT_CHG, .reg .MOV_STS, .reg
    .ICU_ERR, .reg .GTH_CNT, .reg .GTH_DROP, .reg .CDR_EVT, .reg .CDR_FLG]) := by simp [*]) :
    Keeps P s₀ (State.portCaps x p seq arg t tTx) := by
  simp only [covers_cons, covers_nil, and_true] at cv
  unfold State.portCaps
  simp (maxDischargeDepth := 60) [h, cv]

@[simp] theorem State.devCaps_keeps (d up seq arg t : Nat) (t1 tTx : Int) (h : Keeps P s₀ x) (cv : Covers P ([.out, .ports, .links, .devs, .ctxs,
    .cmgr, .txns, .rings, .entries, .cmds, .deal, .icu, .pool, .pwr, .smp, .reg .SCH_CTXCNT, .reg .PRT_STS, .reg .PRT_CHG, .reg .MOV_STS, .reg
    .ICU_ERR, .reg .PWR_STS, .reg .PWR_EVT, .reg .PWR_WAKE, .reg .PWR_RCNT, .reg .GTH_CNT, .reg .GTH_DROP, .reg .CDR_EVT, .reg .CDR_FLG]) := by simp
    [*]) :
    Keeps P s₀ (State.devCaps x d up seq arg t t1 tTx) := by
  simp only [covers_cons, covers_nil, and_true] at cv
  unfold State.devCaps
  simp (maxDischargeDepth := 60) [h, cv]

@[simp] theorem execCapsReceive_keeps (l : LinkEndId) (seq arg t : Nat) (t1 tTx : Int) (h : Keeps P s₀ x) (cv : Covers P ([.out, .tim, .ports, .links,
    .devs, .ctxs, .cmgr, .txns, .rings, .entries, .cmds, .deal, .icu, .pool, .pwr, .smp, .reg .SCH_CTXCNT, .reg .PRT_STS, .reg .PRT_CHG, .reg
    .MOV_STS, .reg .ICU_ERR, .reg .PWR_STS, .reg .PWR_EVT, .reg .PWR_WAKE, .reg .PWR_RCNT, .reg .GTH_CNT, .reg .GTH_DROP, .reg .CDR_EVT, .reg
    .CDR_FLG]) := by simp [*]) :
    KeepsO P s₀ (execCapsReceive l seq arg t t1 tTx x) := by
  simp only [covers_cons, covers_nil, and_true] at cv
  unfold execCapsReceive
  (repeat' split) <;> (try simp only [Prod.ext_iff] at *) <;> (try subst_vars) <;> simp +contextual (maxDischargeDepth := 60) [h, cv]

@[simp] theorem execCapsRepeat_keeps (l : LinkEndId) (t : Nat) (h : Keeps P s₀ x) (cv : Covers P ([.out, .tim, .links]) := by simp [*]) :
    KeepsO P s₀ (execCapsRepeat l t x) := by
  simp only [covers_cons, covers_nil, and_true] at cv
  unfold execCapsRepeat
  simp only []; (repeat' split) <;> (try simp only [Prod.ext_iff] at *) <;> subst_vars <;> simp +contextual (maxDischargeDepth := 60) [h, cv]

@[simp] theorem execRateReqReceive_keeps (d up arg frameNo : Nat) (h : Keeps P s₀ x) (cv : Covers P ([.out, .links]) := by simp [*]) :
    KeepsO P s₀ (execRateReqReceive d up arg frameNo x) := by
  simp only [covers_cons, covers_nil, and_true] at cv
  unfold execRateReqReceive
  simp (maxDischargeDepth := 60) [h, cv]

@[simp] theorem execRateAckReceive_keeps (p : PortId) (arg frameNo : Nat) (h : Keeps P s₀ x) (cv : Covers P ([.ports, .links]) := by simp [*]) :
    KeepsO P s₀ (execRateAckReceive p arg frameNo x) := by
  simp only [covers_cons, covers_nil, and_true] at cv
  unfold execRateAckReceive
  (repeat' split) <;> (try simp only [Prod.ext_iff] at *) <;> (try subst_vars) <;> simp +contextual (maxDischargeDepth := 60) [h, cv]

@[simp] theorem execRateReqRepeat_keeps (p : PortId) (h : Keeps P s₀ x) (cv : Covers P ([.out, .ports, .links]) := by simp [*]) :
    KeepsO P s₀ (execRateReqRepeat p x) := by
  simp only [covers_cons, covers_nil, and_true] at cv
  unfold execRateReqRepeat
  split <;> simp (maxDischargeDepth := 60) [h, cv]

@[simp] theorem State.passSuspend_keeps (t : Nat) (p : PortId) (h : Keeps P s₀ x) (cv : Covers P ([.out, .ports, .links]) := by simp [*]) :
    Keeps P s₀ (State.passSuspend t x p) := by
  simp only [covers_cons, covers_nil, and_true] at cv
  unfold State.passSuspend
  (repeat' split) <;> (try simp only [Prod.ext_iff] at *) <;> (try subst_vars) <;> simp +contextual (maxDischargeDepth := 60) [h, cv]

@[simp] theorem State.passReset_keeps (t : Nat) (p : PortId) (h : Keeps P s₀ x) (cv : Covers P ([.out, .ports, .links, .devs, .ctxs, .cmgr, .txns,
    .rings, .entries, .cmds, .sched, .deal, .icu, .pool, .smp, .reg .SCH_CTXCNT, .reg .PRT_STS, .reg .PRT_CHG, .reg .MOV_STS, .reg .ICU_ERR, .reg
    .GTH_CNT, .reg .GTH_DROP, .reg .CDR_EVT, .reg .CDR_FLG]) := by simp [*]) :
    Keeps P s₀ (State.passReset t x p) := by
  simp only [covers_cons, covers_nil, and_true] at cv
  unfold State.passReset
  (repeat' split) <;> (try simp only [Prod.ext_iff] at *) <;> (try subst_vars) <;> simp +contextual (maxDischargeDepth := 60) [h, cv]

@[simp] theorem State.hubPass_keeps (d up typ t : Nat) (h : Keeps P s₀ x) (cv : Covers P ([.out, .ports, .links, .devs, .ctxs, .cmgr, .txns, .rings,
    .entries, .cmds, .sched, .deal, .icu, .pool, .smp, .reg .SCH_CTXCNT, .reg .PRT_STS, .reg .PRT_CHG, .reg .MOV_STS, .reg .ICU_ERR, .reg .GTH_CNT,
    .reg .GTH_DROP, .reg .CDR_EVT, .reg .CDR_FLG]) := by simp [*]) :
    Keeps P s₀ (State.hubPass x d up typ t) := by
  simp only [covers_cons, covers_nil, and_true] at cv
  unfold State.hubPass
  (repeat' split) <;> (try simp only [Prod.ext_iff] at *) <;> (try subst_vars) <;> simp +contextual (maxDischargeDepth := 60) [h, cv]

@[simp] theorem State.echoOnly_keeps (d up typ t : Nat) (h : Keeps P s₀ x) (cv : Covers P ([.out, .links]) := by simp [*]) :
    Keeps P s₀ (State.echoOnly x d up typ t) := by
  simp only [covers_cons, covers_nil, and_true] at cv
  unfold State.echoOnly
  simp (maxDischargeDepth := 60) [h, cv]

@[simp] theorem execLinkctlResetReceive_keeps (d up t : Nat) (h : Keeps P s₀ x) (cv : Covers P ([.out, .tim, .ports, .links, .devs, .ctxs, .cmgr,
    .txns, .rings, .entries, .cmds, .sched, .deal, .icu, .pool, .smp, .reg .SCH_CTXCNT, .reg .PRT_STS, .reg .PRT_CHG, .reg .MOV_STS, .reg .ICU_ERR,
    .reg .GTH_CNT, .reg .GTH_DROP, .reg .CDR_EVT, .reg .CDR_FLG]) := by simp [*]) :
    KeepsO P s₀ (execLinkctlResetReceive d up t x) := by
  simp only [covers_cons, covers_nil, and_true] at cv
  unfold execLinkctlResetReceive
  simp (maxDischargeDepth := 60) [h, cv]

@[simp] theorem execResetEchoReceive_keeps (p : PortId) (t : Nat) (h : Keeps P s₀ x) (cv : Covers P ([.out, .tim, .ports, .links, .devs, .ctxs, .cmgr,
    .txns, .rings, .entries, .cmds, .deal, .icu, .pool, .smp, .reg .SCH_CTXCNT, .reg .PRT_STS, .reg .PRT_CHG, .reg .MOV_STS, .reg .ICU_ERR, .reg
    .GTH_CNT, .reg .GTH_DROP, .reg .CDR_EVT, .reg .CDR_FLG]) := by simp [*]) :
    KeepsO P s₀ (execResetEchoReceive p t x) := by
  simp only [covers_cons, covers_nil, and_true] at cv
  unfold execResetEchoReceive
  simp (maxDischargeDepth := 60) [h, cv]

@[simp] theorem execLinkctlSuspendReceive_keeps (d up t : Nat) (h : Keeps P s₀ x) (cv : Covers P ([.out, .tim, .ports, .links, .devs, .ctxs, .cmgr,
    .txns, .rings, .entries, .cmds, .sched, .deal, .icu, .pool, .smp, .reg .SCH_CTXCNT, .reg .PRT_STS, .reg .PRT_CHG, .reg .MOV_STS, .reg .ICU_ERR,
    .reg .GTH_CNT, .reg .GTH_DROP, .reg .CDR_EVT, .reg .CDR_FLG]) := by simp [*]) :
    KeepsO P s₀ (execLinkctlSuspendReceive d up t x) := by
  simp only [covers_cons, covers_nil, and_true] at cv
  unfold execLinkctlSuspendReceive
  simp (maxDischargeDepth := 60) [h, cv]

@[simp] theorem execSuspendEchoReceive_keeps (p : PortId) (t : Nat) (h : Keeps P s₀ x) (cv : Covers P ([.out, .tim, .ports, .links, .devs, .ctxs,
    .cmgr, .txns, .rings, .entries, .cmds, .deal, .icu, .pool, .pwr, .smp, .reg .SCH_CTXCNT, .reg .PRT_STS, .reg .PRT_CHG, .reg .MOV_STS, .reg
    .ICU_ERR, .reg .PWR_STS, .reg .PWR_WAKE, .reg .GTH_CNT, .reg .GTH_DROP, .reg .CDR_EVT, .reg .CDR_FLG]) := by simp [*]) :
    KeepsO P s₀ (execSuspendEchoReceive p t x) := by
  simp only [covers_cons, covers_nil, and_true] at cv
  unfold execSuspendEchoReceive
  split <;> simp (maxDischargeDepth := 60) [h, cv]

@[simp] theorem execLinkctlResumeReceive_keeps (d up t : Nat) (h : Keeps P s₀ x) (cv : Covers P ([.out, .tim, .ports, .links, .devs, .ctxs, .cmgr,
    .txns, .rings, .entries, .cmds, .deal, .icu, .pool, .pwr, .smp, .reg .SCH_CTXCNT, .reg .PRT_STS, .reg .PRT_CHG, .reg .MOV_STS, .reg .ICU_ERR, .reg
    .PWR_STS, .reg .PWR_WAKE, .reg .GTH_CNT, .reg .GTH_DROP, .reg .CDR_EVT, .reg .CDR_FLG]) := by simp [*]) :
    KeepsO P s₀ (execLinkctlResumeReceive d up t x) := by
  simp only [covers_cons, covers_nil, and_true] at cv
  unfold execLinkctlResumeReceive
  simp +contextual (maxDischargeDepth := 60) [h, cv]

@[simp] theorem execResumeEchoReceive_keeps (p : PortId) (t : Nat) (h : Keeps P s₀ x) (cv : Covers P ([.out, .tim, .ports, .links, .devs, .rings,
    .icu, .reg .PRT_STS, .reg .PRT_CHG, .reg .MOV_STS, .reg .ICU_ERR]) := by simp [*]) :
    KeepsO P s₀ (execResumeEchoReceive p t x) := by
  simp only [covers_cons, covers_nil, and_true] at cv
  unfold execResumeEchoReceive
  simp (maxDischargeDepth := 60) [h, cv]

@[simp] theorem execLinkctlWakeReceive_keeps (p : PortId) (t : Nat) (h : Keeps P s₀ x) (cv : Covers P ([.out, .tim, .ports, .links, .devs, .ctxs,
    .cmgr, .txns, .rings, .entries, .cmds, .deal, .icu, .pool, .pwr, .smp, .reg .SCH_CTXCNT, .reg .PRT_STS, .reg .PRT_CHG, .reg .MOV_STS, .reg
    .ICU_ERR, .reg .PWR_STS, .reg .PWR_WAKE, .reg .GTH_CNT, .reg .GTH_DROP, .reg .CDR_EVT, .reg .CDR_FLG]) := by simp [*]) :
    KeepsO P s₀ (execLinkctlWakeReceive p t x) := by
  simp only [covers_cons, covers_nil, and_true] at cv
  unfold execLinkctlWakeReceive
  simp only []; (repeat' split) <;> (try simp only [Prod.ext_iff] at *) <;> subst_vars <;> simp +contextual (maxDischargeDepth := 60) [h, cv]

@[simp] theorem execLinkctlCmdRepeat_keeps (l : LinkEndId) (t : Nat) (h : Keeps P s₀ x) (cv : Covers P ([.out, .tim, .links]) := by simp [*]) :
    KeepsO P s₀ (execLinkctlCmdRepeat l t x) := by
  simp only [covers_cons, covers_nil, and_true] at cv
  unfold execLinkctlCmdRepeat
  simp +contextual (maxDischargeDepth := 60) [h, cv]

end Sys2Proof.Machine
end

