-- ==== Sys2Proof/Laws/KeepsSync.lean ====
section
/-! SUPPORT. Laws/KeepsSync.lean: for each function of Machine/Sync.lean, the parts of the state that it leaves as they are. -/

namespace Sys2Proof.Machine

variable {P : Part → Bool} {s₀ x : State}

@[simp] theorem State.setClock_keeps (d : Nat) (f : FrameBody) (tRx off : Int) (h : Keeps P s₀ x) (cv : Covers P ([.devs]) := by simp [*]) :
    Keeps P s₀ (State.setClock x d f tRx off) := by
  simp only [covers_cons, covers_nil, and_true] at cv
  unfold State.setClock
  simp (maxDischargeDepth := 60) [h, cv]

@[simp] theorem State.forwardFrame_keeps (d : Nat) (f : FrameBody) (down tRx : Int) (tTx : List Int) (h : Keeps P s₀ x) (cv : Covers P ([.out,
    .links]) := by simp [*]) :
    Keeps P s₀ (State.forwardFrame x d f down tRx tTx) := by
  simp only [covers_cons, covers_nil, and_true] at cv
  unfold State.forwardFrame
  simp +contextual (maxDischargeDepth := 60) [h, cv]

@[simp] theorem State.frameCame_keeps (d up : Nat) (tRx : Int) (h : Keeps P s₀ x) (cv : Covers P ([.out, .links, .txns]) := by simp [*]) :
    Keeps P s₀ (State.frameCame x d up tRx) := by
  simp only [covers_cons, covers_nil, and_true] at cv
  unfold State.frameCame
  (repeat' split) <;> (try simp only [Prod.ext_iff] at *) <;> (try subst_vars) <;> simp +contextual (maxDischargeDepth := 60) [h, cv]

@[simp] theorem execFrameReceive_keeps (d up : Nat) (payload : List Byte) (tRx : Int) (tTx : List Int) (t1 : Int) (h : Keeps P s₀ x) (cv : Covers P
    ([.out, .links, .devs, .txns]) := by simp [*]) :
    KeepsO P s₀ (execFrameReceive d up payload tRx tTx t1 x) := by
  simp only [covers_cons, covers_nil, and_true] at cv
  unfold execFrameReceive
  split <;> (try split) <;> (try split) <;> simp +contextual (maxDischargeDepth := 60) [h, cv]

@[simp] theorem execDelayReqReceive_keeps (p : PortId) (payload : List Byte) (t2 t3 : Nat) (h : Keeps P s₀ x) (cv : Covers P ([.out, .ports, .links,
    .devs, .ctxs, .cmgr, .txns, .rings, .entries, .cmds, .deal, .icu, .pool, .smp, .reg .SCH_CTXCNT, .reg .PRT_STS, .reg .PRT_CHG, .reg .MOV_STS, .reg
    .ICU_ERR, .reg .GTH_CNT, .reg .GTH_DROP, .reg .CDR_EVT, .reg .CDR_FLG, .reg .TIM_PDLY]) := by simp [*]) :
    KeepsO P s₀ (execDelayReqReceive p payload t2 t3 x) := by
  simp only [covers_cons, covers_nil, and_true] at cv
  unfold execDelayReqReceive
  split
  · simpa using h
  · cases p <;> dsimp only <;> split <;> rw [keepsO_next] <;> simp (maxDischargeDepth := 60) [h, cv]

@[simp] theorem execDelayRespReceive_keeps (d up : Nat) (payload : List Byte) (t4 : Int) (h : Keeps P s₀ x) (cv : Covers P ([.devs]) := by simp
    [*]) :
    KeepsO P s₀ (execDelayRespReceive d up payload t4 x) := by
  simp only [covers_cons, covers_nil, and_true] at cv
  unfold execDelayRespReceive
  simp only []; (repeat' split) <;> (try simp only [Prod.ext_iff] at *) <;> subst_vars <;> simp +contextual (maxDischargeDepth := 60) [h, cv]

@[simp] theorem execDelayReqAbandon_keeps (d up : Nat) (h : Keeps P s₀ x) (cv : Covers P ([.devs]) := by simp [*]) :
    KeepsO P s₀ (execDelayReqAbandon d up x) := by
  simp only [covers_cons, covers_nil, and_true] at cv
  unfold execDelayReqAbandon
  simp (maxDischargeDepth := 60) [h, cv]

@[simp] theorem execSyncLost_keeps (d : Nat) (h : Keeps P s₀ x) (cv : Covers P ([.devs]) := by simp [*]) :
    KeepsO P s₀ (execSyncLost d x) := by
  simp only [covers_cons, covers_nil, and_true] at cv
  unfold execSyncLost
  simp (maxDischargeDepth := 60) [h, cv]

end Sys2Proof.Machine
end

