-- ==== Sys2Proof/Laws/KeepsDevice.lean ====
section
/-! SUPPORT. Laws/KeepsDevice.lean: for each function of Machine/Device.lean, the parts of the state that it leaves as they are. -/

namespace Sys2Proof.Machine

variable {P : Part → Bool} {s₀ x : State}

@[simp] theorem State.ctlIn_keeps (d : Nat) (p : Pkt) (h : Keeps P s₀ x) (cv : Covers P ([.out, .links, .devs, .txns]) := by simp [*]) :
    Keeps P s₀ (State.ctlIn x d p) := by
  simp only [covers_cons, covers_nil, and_true] at cv
  unfold State.ctlIn
  split <;> simp (maxDischargeDepth := 60) [h, cv]

@[simp] theorem State.ctlOut_keeps (d : Nat) (p data : Pkt) (room after : Bool) (h : Keeps P s₀ x) (cv : Covers P ([.out, .links, .devs, .txns]) :=
    by simp [*]) :
    Keeps P s₀ (State.ctlOut x d p data room after) := by
  simp only [covers_cons, covers_nil, and_true] at cv
  unfold State.ctlOut
  split <;> simp (maxDischargeDepth := 60) [h, cv]

@[simp] theorem State.cyclicIn_keeps (d : Nat) (p : Pkt) (e : DevEp) (h : Keeps P s₀ x) (cv : Covers P ([.out, .links, .devs, .txns]) := by simp
    [*]) :
    Keeps P s₀ (State.cyclicIn x d p e) := by
  simp only [covers_cons, covers_nil, and_true] at cv
  unfold State.cyclicIn
  simp only []; (repeat' split) <;> (try simp only [Prod.ext_iff] at *) <;> subst_vars <;> simp +contextual (maxDischargeDepth := 60) [h, cv]

@[simp] theorem State.eventIn_keeps (d : Nat) (p : Pkt) (e : DevEp) (h : Keeps P s₀ x) (cv : Covers P ([.out, .links, .txns]) := by simp [*]) :
    Keeps P s₀ (State.eventIn x d p e) := by
  simp only [covers_cons, covers_nil, and_true] at cv
  unfold State.eventIn
  split <;> (try split) <;> simp +contextual (maxDischargeDepth := 60) [h, cv]

@[simp] theorem execCallInReceive_keeps (d : Nat) (p : Pkt) (h : Keeps P s₀ x) (cv : Covers P ([.out, .links, .devs, .txns]) := by simp [*]) :
    KeepsO P s₀ (execCallInReceive d p x) := by
  simp only [covers_cons, covers_nil, and_true] at cv
  unfold execCallInReceive
  (repeat' split) <;> (try simp only [Prod.ext_iff] at *) <;> subst_vars <;> simp +contextual (maxDischargeDepth := 60) [h, cv]

@[simp] theorem execCallOutReceive_keeps (d : Nat) (p data : Pkt) (room after : Bool) (h : Keeps P s₀ x) (cv : Covers P ([.out, .links, .devs,
    .txns]) := by simp [*]) :
    KeepsO P s₀ (execCallOutReceive d p data room after x) := by
  simp only [covers_cons, covers_nil, and_true] at cv
  unfold execCallOutReceive
  split <;> (try split) <;> (try split) <;> simp +contextual (maxDischargeDepth := 60) [h, cv]

@[simp] theorem execPingReceive_keeps (d : Nat) (p : Pkt) (room : Bool) (h : Keeps P s₀ x) (cv : Covers P ([.out, .links, .devs, .txns]) := by simp
    [*]) :
    KeepsO P s₀ (execPingReceive d p room x) := by
  simp only [covers_cons, covers_nil, and_true] at cv
  unfold execPingReceive
  split <;> (try split) <;> (try split) <;> simp +contextual (maxDischargeDepth := 60) [h, cv]

@[simp] theorem execCommandReceive_keeps (d : Nat) (p data : Pkt) (tHold tExec : Nat) (h : Keeps P s₀ x) (cv : Covers P ([.out, .links, .devs,
    .txns]) := by simp [*]) :
    KeepsO P s₀ (execCommandReceive d p data tHold tExec x) := by
  simp only [covers_cons, covers_nil, and_true] at cv
  unfold execCommandReceive
  (repeat' split) <;> (try simp only [Prod.ext_iff] at *) <;> subst_vars <;> simp +contextual (maxDischargeDepth := 60) [h, cv]

@[simp] theorem execExecAtExecute_keeps (d ep : Nat) (h : Keeps P s₀ x) (cv : Covers P ([.out, .devs]) := by simp [*]) :
    KeepsO P s₀ (execExecAtExecute d ep x) := by
  simp only [covers_cons, covers_nil, and_true] at cv
  unfold execExecAtExecute
  split <;> (try split) <;> simp +contextual (maxDischargeDepth := 60) [h, cv]

@[simp] theorem execSampleBlockForm_keeps (d ep stamp : Nat) (body : List Byte) (h : Keeps P s₀ x) (cv : Covers P ([.devs]) := by simp [*]) :
    KeepsO P s₀ (execSampleBlockForm d ep stamp body x) := by
  simp only [covers_cons, covers_nil, and_true] at cv
  unfold execSampleBlockForm
  split <;> simp (maxDischargeDepth := 60) [h, cv]

@[simp] theorem execSetupReceive_keeps (d : Nat) (p : Pkt) (h : Keeps P s₀ x) (cv : Covers P ([.out, .links, .devs, .txns]) := by simp [*]) :
    KeepsO P s₀ (execSetupReceive d p x) := by
  simp only [covers_cons, covers_nil, and_true] at cv
  unfold execSetupReceive
  simp (maxDischargeDepth := 60) [h, cv]

@[simp] theorem State.carried_keeps (d : Nat) (b : List Byte) (h : Keeps P s₀ x) (cv : Covers P ([.devs]) := by simp [*]) :
    Keeps P s₀ (State.carried x d b) := by
  simp only [covers_cons, covers_nil, and_true] at cv
  unfold State.carried
  simp (maxDischargeDepth := 60) [h, cv]

@[simp] theorem execGetStatus_keeps (d : Nat) (h : Keeps P s₀ x) (cv : Covers P ([.devs]) := by simp [*]) :
    KeepsO P s₀ (execGetStatus d x) := by
  simp only [covers_cons, covers_nil, and_true] at cv
  unfold execGetStatus
  split <;> simp (maxDischargeDepth := 60) [h, cv]

@[simp] theorem execClearHalt_keeps (d : Nat) (h : Keeps P s₀ x) (cv : Covers P ([.devs]) := by simp [*]) :
    KeepsO P s₀ (execClearHalt d x) := by
  simp only [covers_cons, covers_nil, and_true] at cv
  unfold execClearHalt
  split <;> simp (maxDischargeDepth := 60) [h, cv]

@[simp] theorem execResetEndpoint_keeps (d : Nat) (h : Keeps P s₀ x) (cv : Covers P ([.devs]) := by simp [*]) :
    KeepsO P s₀ (execResetEndpoint d x) := by
  simp only [covers_cons, covers_nil, and_true] at cv
  unfold execResetEndpoint
  split <;> simp (maxDischargeDepth := 60) [h, cv]

@[simp] theorem execSetAddress_keeps (d : Nat) (h : Keeps P s₀ x) (cv : Covers P ([.devs]) := by simp [*]) :
    KeepsO P s₀ (execSetAddress d x) := by
  simp only [covers_cons, covers_nil, and_true] at cv
  unfold execSetAddress
  split <;> simp (maxDischargeDepth := 60) [h, cv]

@[simp] theorem execGetRecord_keeps (d : Nat) (h : Keeps P s₀ x) (cv : Covers P ([.devs]) := by simp [*]) :
    KeepsO P s₀ (execGetRecord d x) := by
  simp only [covers_cons, covers_nil, and_true] at cv
  unfold execGetRecord
  split <;> simp (maxDischargeDepth := 60) [h, cv]

@[simp] theorem execGetConfiguration_keeps (d : Nat) (h : Keeps P s₀ x) (cv : Covers P ([.devs]) := by simp [*]) :
    KeepsO P s₀ (execGetConfiguration d x) := by
  simp only [covers_cons, covers_nil, and_true] at cv
  unfold execGetConfiguration
  split <;> simp (maxDischargeDepth := 60) [h, cv]

@[simp] theorem execSetConfiguration_keeps (d : Nat) (h : Keeps P s₀ x) (cv : Covers P ([.devs]) := by simp [*]) :
    KeepsO P s₀ (execSetConfiguration d x) := by
  simp only [covers_cons, covers_nil, and_true] at cv
  unfold execSetConfiguration
  split <;> simp (maxDischargeDepth := 60) [h, cv]

@[simp] theorem execSetRemoteWake_keeps (d : Nat) (h : Keeps P s₀ x) (cv : Covers P ([.devs]) := by simp [*]) :
    KeepsO P s₀ (execSetRemoteWake d x) := by
  simp only [covers_cons, covers_nil, and_true] at cv
  unfold execSetRemoteWake
  split <;> simp (maxDischargeDepth := 60) [h, cv]

@[simp] theorem execSetLinkAsym_keeps (d : Nat) (h : Keeps P s₀ x) (cv : Covers P ([.devs]) := by simp [*]) :
    KeepsO P s₀ (execSetLinkAsym d x) := by
  simp only [covers_cons, covers_nil, and_true] at cv
  unfold execSetLinkAsym
  split <;> simp (maxDischargeDepth := 60) [h, cv]

@[simp] theorem execGetPortStatus_keeps (d : Nat) (h : Keeps P s₀ x) (cv : Covers P ([.devs, .reg .PRT_CHG]) := by simp [*]) :
    KeepsO P s₀ (execGetPortStatus d x) := by
  simp only [covers_cons, covers_nil, and_true] at cv
  unfold execGetPortStatus
  split <;> simp (maxDischargeDepth := 60) [h, cv]

@[simp] theorem execSetPortFeature_keeps (d t : Nat) (h : Keeps P s₀ x) (cv : Covers P ([.out, .tim, .ports, .links, .devs, .ctxs, .cmgr, .txns,
    .rings, .entries, .cmds, .sched, .deal, .icu, .pool, .pwr, .smp, .reg .SCH_CTXCNT, .reg .PRT_STS, .reg .PRT_CHG, .reg .MOV_STS, .reg .ICU_ERR,
    .reg .PWR_STS, .reg .PWR_EVT, .reg .PWR_WAKE, .reg .PWR_RCNT, .reg .GTH_CNT, .reg .GTH_DROP, .reg .CDR_EVT, .reg .CDR_FLG]) := by simp [*]) :
    KeepsO P s₀ (execSetPortFeature d t x) := by
  simp only [covers_cons, covers_nil, and_true] at cv
  unfold execSetPortFeature
  simp only []; (repeat' split) <;> (try simp only [Prod.ext_iff] at *) <;> subst_vars <;> simp +contextual (maxDischargeDepth := 60) [h, cv]

@[simp] theorem execClearPortFeature_keeps (d t : Nat) (h : Keeps P s₀ x) (cv : Covers P ([.out, .tim, .ports, .links, .devs, .ctxs, .cmgr, .txns,
    .rings, .entries, .cmds, .sched, .deal, .icu, .pool, .smp, .reg .SCH_CTXCNT, .reg .PRT_STS, .reg .PRT_CHG, .reg .MOV_STS, .reg .ICU_ERR, .reg
    .GTH_CNT, .reg .GTH_DROP, .reg .CDR_EVT, .reg .CDR_FLG]) := by simp [*]) :
    KeepsO P s₀ (execClearPortFeature d t x) := by
  simp only [covers_cons, covers_nil, and_true] at cv
  unfold execClearPortFeature
  simp only []; (repeat' split) <;> (try simp only [Prod.ext_iff] at *) <;> subst_vars <;> simp +contextual (maxDischargeDepth := 60) [h, cv]

end Sys2Proof.Machine
end

