-- ==== Sys2Proof/Laws/KeepsMover.lean ====
section
/-! SUPPORT. Laws/KeepsMover.lean: for each function of Machine/Mover.lean, the parts of the state that it leaves as they are. -/

namespace Sys2Proof.Machine

variable {P : Part → Bool} {s₀ x : State}

@[simp] theorem State.chanStatus_keeps (n st : Nat) (h : Keeps P s₀ x) (cv : Covers P ([.reg .MOV_STS]) := by simp [*]) :
    Keeps P s₀ (State.chanStatus x n st) := by
  simp only [covers_cons, covers_nil, and_true] at cv
  unfold State.chanStatus
  simp (maxDischargeDepth := 60) [h, cv]

@[simp] theorem State.burst_keeps (n c src dst o len : Nat) (hs hd : List Byte) (h : Keeps P s₀ x) (cv : Covers P ([.out, .pool, .mov]) := by
    simp [*]) :
    Keeps P s₀ (State.burst x n c src dst o len hs hd) := by
  simp only [covers_cons, covers_nil, and_true] at cv
  unfold State.burst
  dsimp only
  split
  · split
    · simp (maxDischargeDepth := 60) [h, cv]
    · exact Keeps.writeAll (by simp (maxDischargeDepth := 60) [h, cv]) (by simp [cv]) _ _
  · split
    · simp (maxDischargeDepth := 60) [h, cv]
    · simp (maxDischargeDepth := 60) [h, cv]

@[simp] theorem State.bursts_keeps (n c src dst cnt : Nat) (ecc : Option Nat) (a7 a8 : Nat) (a9 a10 : List Byte) (h : Keeps P s₀ x) (cv : Covers
    P ([.out, .pool, .mov]) := by simp [*]) :
    Keeps P s₀ (State.bursts x n c src dst cnt ecc a7 a8 a9 a10) := by
  simp only [covers_cons, covers_nil, and_true] at cv
  revert h
  fun_induction State.bursts x n c src dst cnt ecc a7 a8 a9 a10 <;> intro h <;> (try simp only [Prod.ext_iff] at *) <;> (try subst_vars) <;>
      simp_all +contextual (maxDischargeDepth := 60)

@[simp] theorem State.paceNext_keeps (n : Nat) (h : Keeps P s₀ x) (cv : Covers P ([.reg .MOV_STS]) := by simp [*]) :
    Keeps P s₀ (State.paceNext x n) := by
  simp only [covers_cons, covers_nil, and_true] at cv
  unfold State.paceNext
  simp (maxDischargeDepth := 60) [h, cv]

@[simp] theorem State.descBack_keeps (n : Nat) (img : List Byte) (link drop : Bool) (status actual mis result : Nat) (h : Keeps P s₀ x) (cv : Covers P
    ([.out, .pool]) := by simp [*]) :
    Keeps P s₀ (State.descBack x n img link drop status actual mis result) := by
  simp only [covers_cons, covers_nil, and_true] at cv
  unfold State.descBack
  dsimp only
  have put : ∀ (y : State) (a : Nat) (b : List Byte), Keeps P s₀ y →
      Keeps P s₀ (if ctlDescSp (y.chan n).ctl = 1 then { y with pool := Memory.writeAll y.pool a b }
        else if drop then y else y.emit (.hostWrite (y.chanPasid n) a b)) := by
    intro y a b hy
    split
    · exact hy.writeAll (by simp [cv]) _ _
    · split <;> simp (maxDischargeDepth := 60) [hy, cv]
  exact put _ _ _ (keeps_ite h (put _ _ _ h))

@[simp] theorem State.chanNext_keeps (n status : Nat) (stop ioc : Bool) (h : Keeps P s₀ x) (cv : Covers P ([.mov, .reg .MOV_STS]) := by simp [*]) :
    Keeps P s₀ (State.chanNext x n status stop ioc) := by
  simp only [covers_cons, covers_nil, and_true] at cv
  unfold State.chanNext
  simp (maxDischargeDepth := 60) [h, cv]

@[simp] theorem State.chanShow_keeps (n done : Nat) (h : Keeps P s₀ x) (cv : Covers P ([.reg .MOV_SRC, .reg .MOV_DST, .reg .MOV_CNT]) := by simp
    [*]) :
    Keeps P s₀ (State.chanShow x n done) := by
  simp only [covers_cons, covers_nil, and_true] at cv
  unfold State.chanShow
  (repeat' split) <;> (try simp only [Prod.ext_iff] at *) <;> (try subst_vars) <;> simp +contextual (maxDischargeDepth := 60) [h, cv]

@[simp] theorem State.descEnd_keeps (n status : Nat) (img : Option (List Byte)) (returns drop : Bool) (h : Keeps P s₀ x) (cv : Covers P ([.out, .pool,
    .mov, .reg .MOV_SRC, .reg .MOV_DST, .reg .MOV_CNT, .reg .MOV_STS, .reg .MOV_DPTR, .reg .MOV_CRC, .reg .MOV_MISOFS]) := by simp [*]) :
    Keeps P s₀ (State.descEnd x n status img returns drop) := by
  simp only [covers_cons, covers_nil, and_true] at cv
  unfold State.descEnd
  simp only []; (repeat' split) <;> (try simp only [Prod.ext_iff] at *) <;> subst_vars <;> simp +contextual (maxDischargeDepth := 60) [h, cv]

@[simp] theorem State.descStart_keeps (n src dst cnt : Nat) (img : Option (List Byte)) (h : Keeps P s₀ x) (cv : Covers P ([.mov, .reg .MOV_SRC,
    .reg .MOV_DST, .reg .MOV_CNT]) := by simp [*]) :
    Keeps P s₀ (State.descStart x n src dst cnt img) := by
  simp only [covers_cons, covers_nil, and_true] at cv
  unfold State.descStart
  simp (maxDischargeDepth := 60) [h, cv]

@[simp] theorem State.descRefused_keeps (n status : Nat) (b : List Byte) (h : Keeps P s₀ x) (cv : Covers P ([.out, .rings, .slices, .icu, .pool,
    .mov, .reg .MOV_STS, .reg .ICU_ERR]) := by simp [*]) :
    Keeps P s₀ (State.descRefused x n status b) := by
  simp only [covers_cons, covers_nil, and_true] at cv
  unfold State.descRefused
  simp (maxDischargeDepth := 60) [h, cv]

@[simp] theorem State.descRead_keeps (n : Nat) (b : List Byte) (h : Keeps P s₀ x) (cv : Covers P ([.out, .rings, .slices, .icu, .pool, .mov, .reg
    .MOV_SRC, .reg .MOV_DST, .reg .MOV_CNT, .reg .MOV_STS, .reg .MOV_DPTR, .reg .ICU_ERR]) := by simp [*]) :
    Keeps P s₀ (State.descRead x n b).1 := by
  simp only [covers_cons, covers_nil, and_true] at cv
  unfold State.descRead
  simp only []; (repeat' split) <;> (try simp only [Prod.ext_iff] at *) <;> subst_vars <;> simp +contextual (maxDischargeDepth := 60) [h, cv]

@[simp] theorem State.chanTake_keeps (n : Nat) (desc : HostRead) (h : Keeps P s₀ x) (cv : Covers P ([.out, .rings, .slices, .icu, .pool, .mov, .reg
    .MOV_SRC, .reg .MOV_DST, .reg .MOV_CNT, .reg .MOV_STS, .reg .MOV_DPTR, .reg .ICU_ERR]) := by simp [*]) :
    Keeps P s₀ (State.chanTake x n desc).1 := by
  simp only [covers_cons, covers_nil, and_true] at cv
  unfold State.chanTake
  simp only []; (repeat' split) <;> (try simp only [Prod.ext_iff] at *) <;> subst_vars <;> simp +contextual (maxDischargeDepth := 60) [h, cv]

@[simp] theorem State.moveAll_keeps (n : Nat) (src dst : HostRead) (ecc : Option Nat) (drop : Bool) (h : Keeps P s₀ x) (cv : Covers P ([.out, .pool,
    .mov, .reg .MOV_SRC, .reg .MOV_DST, .reg .MOV_CNT, .reg .MOV_STS, .reg .MOV_DPTR, .reg .MOV_CRC, .reg .MOV_MISOFS]) := by simp [*]) :
    Keeps P s₀ (State.moveAll x n src dst ecc drop) := by
  simp only [covers_cons, covers_nil, and_true] at cv
  unfold State.moveAll
  simp only []; (repeat' split) <;> (try simp only [Prod.ext_iff] at *) <;> subst_vars <;> simp +contextual (maxDischargeDepth := 60) [h, cv]

@[simp] theorem State.reqBurst_keeps (n : Nat) (data : List Byte) (src dst : HostRead) (h : Keeps P s₀ x) (cv : Covers P ([.out, .pool, .mov, .reg
    .MOV_SRC, .reg .MOV_DST, .reg .MOV_CNT, .reg .MOV_STS, .reg .MOV_DPTR, .reg .MOV_CRC, .reg .MOV_MISOFS]) := by simp [*]) :
    Keeps P s₀ (State.reqBurst x n data src dst) := by
  simp only [covers_cons, covers_nil, and_true] at cv
  unfold State.reqBurst
  simp only []; (repeat' split) <;> (try simp only [Prod.ext_iff] at *) <;> subst_vars <;> simp +contextual (maxDischargeDepth := 60) [h, cv]

@[simp] theorem State.serveLine_keeps (line : Nat) (src dst : HostRead) (a5 : Nat) (h : Keeps P s₀ x) (cv : Covers P ([.out, .pool, .mov, .reg
    .MOV_SRC, .reg .MOV_DST, .reg .MOV_CNT, .reg .MOV_STS, .reg .MOV_DPTR, .reg .MOV_CRC, .reg .MOV_MISOFS]) := by simp [*]) :
    Keeps P s₀ (State.serveLine x line src dst a5) := by
  simp only [covers_cons, covers_nil, and_true] at cv
  induction a5 generalizing x with
  | zero => simpa [State.serveLine] using h
  | succ k ih =>
    rw [State.serveLine]
    split
    · dsimp only
      (repeat' split) <;> first | exact ih (by simp (maxDischargeDepth := 60) [h, cv]) | simp (maxDischargeDepth := 60) [h, cv]
    · exact h

@[simp] theorem State.descDone_keeps (n : Nat) (desc src dst : HostRead) (ecc : Option Nat) (fence : Bool) (h : Keeps P s₀ x) (cv : Covers P ([.out,
    .rings, .slices, .icu, .pool, .mov, .reg .MOV_SRC, .reg .MOV_DST, .reg .MOV_CNT, .reg .MOV_STS, .reg .MOV_DPTR, .reg .MOV_CRC, .reg .MOV_MISOFS,
    .reg .ICU_ERR]) := by simp [*]) :
    Keeps P s₀ (State.descDone x n desc src dst ecc fence) := by
  simp only [covers_cons, covers_nil, and_true] at cv
  unfold State.descDone
  simp (maxDischargeDepth := 60) [h, cv]

@[simp] theorem execMoverDescDone_keeps (n : Nat) (desc src dst : HostRead) (ecc : Option Nat) (fence : Bool) (h : Keeps P s₀ x) (cv : Covers P
    ([.out, .rings, .slices, .icu, .pool, .mov, .reg .MOV_SRC, .reg .MOV_DST, .reg .MOV_CNT, .reg .MOV_STS, .reg .MOV_DPTR, .reg .MOV_CRC, .reg
    .MOV_MISOFS, .reg .ICU_ERR]) := by simp [*]) :
    KeepsO P s₀ (execMoverDescDone n desc src dst ecc fence x) := by
  simp only [covers_cons, covers_nil, and_true] at cv
  unfold execMoverDescDone
  simp (maxDischargeDepth := 60) [h, cv]

@[simp] theorem State.ctlStore_keeps (n v : Nat) (h : Keeps P s₀ x) (cv : Covers P ([.reg .MOV_CTL]) := by simp [*]) :
    Keeps P s₀ (State.ctlStore x n v) := by
  simp only [covers_cons, covers_nil, and_true] at cv
  unfold State.ctlStore
  simp (maxDischargeDepth := 60) [h, cv]

@[simp] theorem State.movGo_keeps (n v : Nat) (h : Keeps P s₀ x) (cv : Covers P ([.out, .rings, .slices, .icu, .mov, .reg .MOV_SRC, .reg
    .MOV_DST, .reg .MOV_CNT, .reg .MOV_CTL, .reg .MOV_STS, .reg .ICU_ERR]) := by simp [*]) :
    Keeps P s₀ (State.movGo x n v) := by
  simp only [covers_cons, covers_nil, and_true] at cv
  unfold State.movGo
  simp (maxDischargeDepth := 60) [h, cv]

@[simp] theorem State.movStop_keeps (n : Nat) (same : Bool) (h : Keeps P s₀ x) (cv : Covers P ([.reg .MOV_STS]) := by simp [*]) :
    Keeps P s₀ (State.movStop x n same) := by
  simp only [covers_cons, covers_nil, and_true] at cv
  unfold State.movStop
  split <;> simp (maxDischargeDepth := 60) [h, cv]

@[simp] theorem State.ctlWrite_keeps (n v : Nat) (same : Bool) (h : Keeps P s₀ x) (cv : Covers P ([.out, .rings, .slices, .icu, .mov, .reg .MOV_SRC,
    .reg .MOV_DST, .reg .MOV_CNT, .reg .MOV_CTL, .reg .MOV_STS, .reg .MOV_GEVT, .reg .ICU_ERR]) := by simp [*]) :
    Keeps P s₀ (State.ctlWrite x n v same) := by
  simp only [covers_cons, covers_nil, and_true] at cv
  unfold State.ctlWrite
  simp (maxDischargeDepth := 60) [h, cv]

@[simp] theorem execMovGo_keeps (n v : Nat) (h : Keeps P s₀ x) (cv : Covers P ([.out, .rings, .slices, .icu, .mov, .reg .MOV_SRC, .reg .MOV_DST,
    .reg .MOV_CNT, .reg .MOV_CTL, .reg .MOV_STS, .reg .MOV_GEVT, .reg .ICU_ERR]) := by simp [*]) :
    KeepsO P s₀ (execMovGo n v x) := by
  simp only [covers_cons, covers_nil, and_true] at cv
  unfold execMovGo
  simp (maxDischargeDepth := 60) [h, cv]

@[simp] theorem execMovStop_keeps (n v : Nat) (same : Bool) (h : Keeps P s₀ x) (cv : Covers P ([.out, .rings, .slices, .icu, .mov, .reg .MOV_SRC, .reg
    .MOV_DST, .reg .MOV_CNT, .reg .MOV_CTL, .reg .MOV_STS, .reg .MOV_GEVT, .reg .ICU_ERR]) := by simp [*]) :
    KeepsO P s₀ (execMovStop n v same x) := by
  simp only [covers_cons, covers_nil, and_true] at cv
  unfold execMovStop
  simp (maxDischargeDepth := 60) [h, cv]

@[simp] theorem State.lineRequest_keeps (line : Nat) (data : List Byte) (src dst : HostRead) (h : Keeps P s₀ x) (cv : Covers P ([.out, .pool, .mov,
    .reg .MOV_SRC, .reg .MOV_DST, .reg .MOV_CNT, .reg .MOV_STS, .reg .MOV_DPTR, .reg .MOV_CRC, .reg .MOV_MISOFS]) := by simp [*]) :
    Keeps P s₀ (State.lineRequest x line data src dst) := by
  simp only [covers_cons, covers_nil, and_true] at cv
  unfold State.lineRequest
  simp (maxDischargeDepth := 60) [h, cv]

@[simp] theorem State.stopReq_keeps (h : Keeps P s₀ x) (cv : Covers P ([.reg .MOV_STS]) := by simp [*]) :
    Keeps P s₀ (State.stopReq x) := by
  simp only [covers_cons, covers_nil, and_true] at cv
  unfold State.stopReq
  simp +contextual (maxDischargeDepth := 60) [h, cv]

@[simp] theorem State.tickChannels_keeps (h : Keeps P s₀ x) (cv : Covers P ([.reg .MOV_STS]) := by simp [*]) :
    Keeps P s₀ (State.tickChannels x) := by
  simp only [covers_cons, covers_nil, and_true] at cv
  unfold State.tickChannels
  simp +contextual (maxDischargeDepth := 60) [h, cv]

@[simp] theorem State.thawChannels_keeps (x_ : Nat) (h : Keeps P s₀ x) (cv : Covers P ([.reg .MOV_STS]) := by simp [*]) :
    Keeps P s₀ (State.thawChannels x x_) := by
  simp only [covers_cons, covers_nil, and_true] at cv
  unfold State.thawChannels
  simp +contextual (maxDischargeDepth := 60) [h, cv]

@[simp] theorem State.moverResume_keeps (h : Keeps P s₀ x) (cv : Covers P ([.reg .MOV_STS]) := by simp [*]) :
    Keeps P s₀ (State.moverResume x) := by
  simp only [covers_cons, covers_nil, and_true] at cv
  unfold State.moverResume
  simp +contextual (maxDischargeDepth := 60) [h, cv]

@[simp] theorem execReqLineRequest_keeps (line : Nat) (data : List Byte) (src dst : HostRead) (h : Keeps P s₀ x) (cv : Covers P ([.out, .pool, .mov,
    .reg .MOV_SRC, .reg .MOV_DST, .reg .MOV_CNT, .reg .MOV_STS, .reg .MOV_DPTR, .reg .MOV_CRC, .reg .MOV_MISOFS]) := by simp [*]) :
    KeepsO P s₀ (execReqLineRequest line data src dst x) := by
  simp only [covers_cons, covers_nil, and_true] at cv
  unfold execReqLineRequest
  simp (maxDischargeDepth := 60) [h, cv]

@[simp] theorem State.gcfgWrite_keeps (v : Nat) (h : Keeps P s₀ x) (cv : Covers P ([.mov, .reg .MOV_GCFG, .reg .MOV_GEVT]) := by simp [*]) :
    Keeps P s₀ (State.gcfgWrite x v) := by
  simp only [covers_cons, covers_nil, and_true] at cv
  unfold State.gcfgWrite
  simp (maxDischargeDepth := 60) [h, cv]

@[simp] theorem State.engineShown_keeps (v : Nat) (h : Keeps P s₀ x) (cv : Covers P ([.reg .MOV_STS]) := by simp [*]) :
    Keeps P s₀ (State.engineShown x v) := by
  simp only [covers_cons, covers_nil, and_true] at cv
  unfold State.engineShown
  simp +contextual (maxDischargeDepth := 60) [h, cv]

@[simp] theorem State.swchApply_keeps (h : Keeps P s₀ x) (cv : Covers P ([.mov, .reg .MOV_STS, .reg .MOV_GCFG]) := by simp [*]) :
    Keeps P s₀ (State.swchApply x) := by
  simp only [covers_cons, covers_nil, and_true] at cv
  unfold State.swchApply
  split <;> simp +contextual (maxDischargeDepth := 60) [h, cv]

@[simp] theorem execMovSwchWrite_keeps (v : Nat) (h : Keeps P s₀ x) (cv : Covers P ([.mov, .reg .MOV_GCFG, .reg .MOV_GEVT]) := by simp [*]) :
    KeepsO P s₀ (execMovSwchWrite v x) := by
  simp only [covers_cons, covers_nil, and_true] at cv
  unfold execMovSwchWrite
  simp (maxDischargeDepth := 60) [h, cv]

@[simp] theorem execSwchApply_keeps (h : Keeps P s₀ x) (cv : Covers P ([.mov, .reg .MOV_STS, .reg .MOV_GCFG]) := by simp [*]) :
    KeepsO P s₀ (execSwchApply x) := by
  simp only [covers_cons, covers_nil, and_true] at cv
  unfold execSwchApply
  simp (maxDischargeDepth := 60) [h, cv]

@[simp] theorem State.movedBefore_keeps (n : Nat) (src dst : HostRead) (h : Keeps P s₀ x) (cv : Covers P ([.out, .pool, .mov]) := by simp [*]) :
    Keeps P s₀ (State.movedBefore x n src dst) := by
  simp only [covers_cons, covers_nil, and_true] at cv
  unfold State.movedBefore
  simp (maxDischargeDepth := 60) [h, cv]

@[simp] theorem State.chanHostError_keeps (n : Nat) (flush : Bool) (desc src dst : HostRead) (h : Keeps P s₀ x) (cv : Covers P ([.out, .free, .rings,
    .slices, .icu, .pool, .mov, .reg .MOV_SRC, .reg .MOV_DST, .reg .MOV_CNT, .reg .MOV_STS, .reg .MOV_DPTR, .reg .MOV_CRC, .reg .MOV_MISOFS, .reg
    .MOV_GERR, .reg .ICU_ERR]) := by simp [*]) :
    Keeps P s₀ (State.chanHostError x n flush desc src dst) := by
  simp only [covers_cons, covers_nil, and_true] at cv
  unfold State.chanHostError
  simp only []; (repeat' split) <;> (try simp only [Prod.ext_iff] at *) <;> subst_vars <;> simp +contextual (maxDischargeDepth := 60) [h, cv]

@[simp] theorem State.flushAgain_keeps (n : Nat) (desc src dst : HostRead) (h : Keeps P s₀ x) (cv : Covers P ([.out, .rings, .slices, .icu, .pool,
    .mov, .reg .MOV_SRC, .reg .MOV_DST, .reg .MOV_CNT, .reg .MOV_STS, .reg .MOV_DPTR, .reg .ICU_ERR]) := by simp [*]) :
    Keeps P s₀ (State.flushAgain x n desc src dst) := by
  simp only [covers_cons, covers_nil, and_true] at cv
  unfold State.flushAgain
  simp (maxDischargeDepth := 60) [h, cv]

@[simp] theorem State.workFailed_keeps (w : HostWork) (h : Keeps P s₀ x) (cv : Covers P ([.out, .free, .ctxs, .cmgr, .txns, .rings, .entries, .cmds,
    .deal, .slices, .icu, .pool, .smp, .mov, .reg .SCH_DYN_CNT, .reg .SCH_CTXCNT, .reg .MOV_STS, .reg .ICU_ERR, .reg .GTH_CNT, .reg .GTH_DROP, .reg
    .CDR_EVT, .reg .CDR_FLG]) := by simp [*]) :
    Keeps P s₀ (State.workFailed x w) := by
  simp only [covers_cons, covers_nil, and_true] at cv
  unfold State.workFailed
  split <;> (try split) <;> (try split) <;> simp +contextual (maxDischargeDepth := 60) [h, cv]

@[simp] theorem State.engineShow_keeps (n : Nat) (w : HostWork) (h : Keeps P s₀ x) (cv : Covers P ([.free, .reg .MOV_SRC, .reg .MOV_DST, .reg
    .MOV_CNT, .reg .MOV_CTL, .reg .MOV_BIND, .reg .MOV_BIND_N]) := by simp [*]) :
    Keeps P s₀ (State.engineShow x n w) := by
  simp only [covers_cons, covers_nil, and_true] at cv
  unfold State.engineShow
  simp (maxDischargeDepth := 60) [h, cv]

@[simp] theorem State.chanReadFail_keeps (n a : Nat) (flush : Bool) (desc src dst : HostRead) (t : Nat) (h : Keeps P s₀ x) (cv : Covers P ([.out,
    .free, .rings, .slices, .icu, .pool, .mov, .reg .MOV_SRC, .reg .MOV_DST, .reg .MOV_CNT, .reg .MOV_STS, .reg .MOV_DPTR, .reg .MOV_CRC, .reg
    .MOV_MISOFS, .reg .MOV_GERR, .reg .ICU_ERR]) := by simp [*]) :
    Keeps P s₀ (State.chanReadFail x n a flush desc src dst t) := by
  simp only [covers_cons, covers_nil, and_true] at cv
  unfold State.chanReadFail
  simp (maxDischargeDepth := 60) [h, cv]

@[simp] theorem State.engineReadFail_keeps (w : HostWork) (a t : Nat) (h : Keeps P s₀ x) (cv : Covers P ([.out, .free, .ctxs, .cmgr, .txns, .rings,
    .entries, .cmds, .deal, .slices, .icu, .pool, .smp, .mov, .reg .SCH_DYN_CNT, .reg .SCH_CTXCNT, .reg .MOV_SRC, .reg .MOV_DST, .reg .MOV_CNT, .reg
    .MOV_CTL, .reg .MOV_STS, .reg .MOV_BIND, .reg .MOV_BIND_N, .reg .MOV_GERR, .reg .ICU_ERR, .reg .GTH_CNT, .reg .GTH_DROP, .reg .CDR_EVT, .reg
    .CDR_FLG]) := by simp [*]) :
    Keeps P s₀ (State.engineReadFail x w a t) := by
  simp only [covers_cons, covers_nil, and_true] at cv
  unfold State.engineReadFail
  simp (maxDischargeDepth := 60) [h, cv]

@[simp] theorem State.readFail_keeps (w : HostWork) (a : Nat) (desc src dst : HostRead) (t : Nat) (h : Keeps P s₀ x) (cv : Covers P ([.out, .free,
    .ctxs, .cmgr, .txns, .rings, .entries, .cmds, .deal, .slices, .icu, .pool, .smp, .mov, .reg .SCH_DYN_CNT, .reg .SCH_CTXCNT, .reg .MOV_SRC, .reg
    .MOV_DST, .reg .MOV_CNT, .reg .MOV_CTL, .reg .MOV_STS, .reg .MOV_DPTR, .reg .MOV_CRC, .reg .MOV_MISOFS, .reg .MOV_BIND, .reg .MOV_BIND_N, .reg
    .MOV_GERR, .reg .ICU_ERR, .reg .GTH_CNT, .reg .GTH_DROP, .reg .CDR_EVT, .reg .CDR_FLG]) := by simp [*]) :
    Keeps P s₀ (State.readFail x w a desc src dst t) := by
  simp only [covers_cons, covers_nil, and_true] at cv
  unfold State.readFail
  split <;> simp (maxDischargeDepth := 60) [h, cv]

@[simp] theorem State.moverRetry_keeps (w : HostWork) (t : Nat) (h : Keeps P s₀ x) (cv : Covers P ([.mov, .reg .MOV_STS, .reg .MOV_GERR]) := by simp
    [*]) :
    Keeps P s₀ (State.moverRetry x w t) := by
  simp only [covers_cons, covers_nil, and_true] at cv
  unfold State.moverRetry
  split <;> (try split) <;> simp +contextual (maxDischargeDepth := 60) [h, cv]

@[simp] theorem State.fenceChannels_keeps (x_ : Nat) (h : Keeps P s₀ x) (cv : Covers P ([.mov, .reg .MOV_STS]) := by simp [*]) :
    Keeps P s₀ (State.fenceChannels x x_) := by
  simp only [covers_cons, covers_nil, and_true] at cv
  unfold State.fenceChannels
  simp +contextual (maxDischargeDepth := 60) [h, cv]

@[simp] theorem State.dryBoundary_keeps (n : Nat) (h : Keeps P s₀ x) (cv : Covers P ([.mov, .reg .MOV_STS]) := by simp [*]) :
    Keeps P s₀ (State.dryBoundary x n) := by
  simp only [covers_cons, covers_nil, and_true] at cv
  unfold State.dryBoundary
  simp (maxDischargeDepth := 60) [h, cv]

@[simp] theorem State.readError_keeps (w : HostWork) (attempt : Nat) (tlp : Option TlpError) (h : Keeps P s₀ x) (cv : Covers P ([.aer]) := by
    simp [*]) :
    Keeps P s₀ (State.readError x w attempt tlp) := by
  simp only [covers_cons, covers_nil, and_true] at cv
  unfold State.readError
  split <;> (try split) <;> simp +contextual (maxDischargeDepth := 60) [h, cv]

@[simp] theorem execHostReadFail_keeps (w : HostWork) (attempt : Nat) (desc src dst : HostRead) (tlp : Option TlpError) (t : Nat) (h : Keeps P s₀ x)
    (cv : Covers P ([.out, .free, .tim, .ctxs, .cmgr, .txns, .rings, .entries, .cmds, .deal, .slices, .icu, .pool, .smp, .mov, .aer, .reg
    .SCH_DYN_CNT, .reg .SCH_CTXCNT, .reg .MOV_SRC, .reg .MOV_DST, .reg .MOV_CNT, .reg .MOV_CTL, .reg .MOV_STS, .reg .MOV_DPTR, .reg .MOV_CRC, .reg
    .MOV_MISOFS, .reg .MOV_BIND, .reg .MOV_BIND_N, .reg .MOV_GERR, .reg .ICU_ERR, .reg .GTH_CNT, .reg .GTH_DROP, .reg .CDR_EVT, .reg .CDR_FLG]) := by
    simp [*]) :
    KeepsO P s₀ (execHostReadFail w attempt desc src dst tlp t x) := by
  simp only [covers_cons, covers_nil, and_true] at cv
  unfold execHostReadFail
  simp (maxDischargeDepth := 60) [h, cv]

@[simp] theorem execMoverRetry_keeps (w : HostWork) (t : Nat) (h : Keeps P s₀ x) (cv : Covers P ([.tim, .mov, .reg .MOV_STS, .reg .MOV_GERR]) := by
    simp [*]) :
    KeepsO P s₀ (execMoverRetry w t x) := by
  simp only [covers_cons, covers_nil, and_true] at cv
  unfold execMoverRetry
  simp (maxDischargeDepth := 60) [h, cv]

@[simp] theorem execMoverDryBoundary_keeps (n : Nat) (h : Keeps P s₀ x) (cv : Covers P ([.mov, .reg .MOV_STS]) := by simp [*]) :
    KeepsO P s₀ (execMoverDryBoundary n x) := by
  simp only [covers_cons, covers_nil, and_true] at cv
  unfold execMoverDryBoundary
  simp (maxDischargeDepth := 60) [h, cv]

@[simp] theorem execMovStsRead_keeps (n : Nat) (both : Bool) (h : Keeps P s₀ x) (cv : Covers P ([.out, .icu, .reg .MOV_STS, .reg .MOV_STS_SHADOW,
    .reg .ICU_ERR]) := by simp [*]) :
    KeepsO P s₀ (execMovStsRead n both x) := by
  simp only [covers_cons, covers_nil, and_true] at cv
  unfold execMovStsRead
  simp (maxDischargeDepth := 60) [h, cv]

@[simp] theorem execMovGevtRead_keeps (both : Bool) (h : Keeps P s₀ x) (cv : Covers P ([.out, .icu, .reg .MOV_GEVT, .reg .MOV_GEVT_SHADOW, .reg
    .ICU_ERR]) := by simp [*]) :
    KeepsO P s₀ (execMovGevtRead both x) := by
  simp only [covers_cons, covers_nil, and_true] at cv
  unfold execMovGevtRead
  simp (maxDischargeDepth := 60) [h, cv]

end Sys2Proof.Machine
end

