-- ==== Sys2Proof/Laws/KeepsTwin.lean ====
section
/-! SUPPORT. Laws/KeepsTwin.lean: for each function of Machine/Twin.lean, the parts of the state that it leaves as they are. -/

namespace Sys2Proof.Machine

variable {P : Part → Bool} {s₀ x : State}

@[simp] theorem State.twinAck_keeps (h : Keeps P s₀ x) (cv : Covers P ([.out]) := by simp [*]) :
    Keeps P s₀ (State.twinAck x) := by
  simp only [covers_cons, covers_nil, and_true] at cv
  unfold State.twinAck
  simp (maxDischargeDepth := 60) [h, cv]

@[simp] theorem State.twinRetry_keeps (h : Keeps P s₀ x) (cv : Covers P ([.out, .twin]) := by simp [*]) :
    Keeps P s₀ (State.twinRetry x) := by
  simp only [covers_cons, covers_nil, and_true] at cv
  unfold State.twinRetry
  simp (maxDischargeDepth := 60) [h, cv]

@[simp] theorem State.twinAccept_keeps (lseq : Nat) (h : Keeps P s₀ x) (cv : Covers P ([.out, .twin]) := by simp [*]) :
    Keeps P s₀ (State.twinAccept x lseq) := by
  simp only [covers_cons, covers_nil, and_true] at cv
  unfold State.twinAccept
  simp (maxDischargeDepth := 60) [h, cv]

@[simp] theorem State.twinSeq_keeps (lseq : Nat) (beat : Bool) (body : State → State) (h : Keeps P s₀ x) (hb : ∀ y, Keeps P s₀ y → Keeps P s₀ (body
    y)) (cv : Covers P ([.out, .twin]) := by simp [*]) :
    Keeps P s₀ (State.twinSeq x lseq beat body) := by
  simp only [covers_cons, covers_nil, and_true] at cv
  unfold State.twinSeq
  (repeat' split) <;> (try simp only [Prod.ext_iff] at *) <;> (try subst_vars) <;> simp +contextual (maxDischargeDepth := 60) [h, hb, cv]

@[simp] theorem State.twinTake_keeps (kind : Nat) (m : List Byte) (body : List Byte → State → State) (h : Keeps P s₀ x) (hb : ∀ y b1, Keeps P s₀ y
    → Keeps P s₀ (body b1 y)) (cv : Covers P ([.out, .twin]) := by simp [*]) :
    Keeps P s₀ (State.twinTake x kind m body) := by
  simp only [covers_cons, covers_nil, and_true] at cv
  unfold State.twinTake
  (repeat' split) <;> (try simp only [Prod.ext_iff] at *) <;> (try subst_vars) <;> simp +contextual (maxDischargeDepth := 60) [h, hb, cv]

@[simp] theorem State.twinLoosely_keeps (kind : Nat) (m : List Byte) (body : Nat → State → State) (h : Keeps P s₀ x) (hb : ∀ y b1, Keeps P s₀ y →
    Keeps P s₀ (body b1 y)) (cv : Covers P ([]) := by simp [*]) :
    Keeps P s₀ (State.twinLoosely x kind m body) := by
  simp only [covers_cons, covers_nil, and_true] at cv
  unfold State.twinLoosely
  (repeat' split) <;> (try simp only [Prod.ext_iff] at *) <;> (try subst_vars) <;> simp +contextual (maxDischargeDepth := 60) [h, hb, cv]

@[simp] theorem State.twinDown_keeps (h : Keeps P s₀ x) (cv : Covers P ([.twin, .reg .TWN_STS]) := by simp [*]) :
    Keeps P s₀ (State.twinDown x) := by
  simp only [covers_cons, covers_nil, and_true] at cv
  unfold State.twinDown
  simp (maxDischargeDepth := 60) [h, cv]

@[simp] theorem State.tokenSend_keeps (n typ arg frame t : Nat) (h : Keeps P s₀ x) (cv : Covers P ([.out, .links, .twin]) := by simp [*]) :
    Keeps P s₀ (State.tokenSend x n typ arg frame t) := by
  simp only [covers_cons, covers_nil, and_true] at cv
  unfold State.tokenSend
  simp (maxDischargeDepth := 60) [h, cv]

@[simp] theorem State.tokenRelease_keeps (n frame : Nat) (h : Keeps P s₀ x) (cv : Covers P ([.out, .links, .twin]) := by simp [*]) :
    Keeps P s₀ (State.tokenRelease x n frame) := by
  simp only [covers_cons, covers_nil, and_true] at cv
  unfold State.tokenRelease
  simp (maxDischargeDepth := 60) [h, cv]

@[simp] theorem State.tokenQuery_keeps (n t : Nat) (h : Keeps P s₀ x) (cv : Covers P ([.out, .links, .twin]) := by simp [*]) :
    Keeps P s₀ (State.tokenQuery x n t) := by
  simp only [covers_cons, covers_nil, and_true] at cv
  unfold State.tokenQuery
  simp (maxDischargeDepth := 60) [h, cv]

@[simp] theorem State.tokenClaim_keeps (n : Nat) (forced : Bool) (frame t : Nat) (h : Keeps P s₀ x) (cv : Covers P ([.out, .links, .twin]) := by
    simp [*]) :
    Keeps P s₀ (State.tokenClaim x n forced frame t) := by
  simp only [covers_cons, covers_nil, and_true] at cv
  unfold State.tokenClaim
  simp (maxDischargeDepth := 60) [h, cv]

@[simp] theorem State.claimTree_keeps (n : Nat) (forced : Bool) (frame : Nat) (byPolicy : Bool) (cmd : Option (Nat × Nat)) (notBefore t : Nat) (h :
    Keeps P s₀ x) (cv : Covers P ([.out, .links, .twin]) := by simp [*]) :
    Keeps P s₀ (State.claimTree x n forced frame byPolicy cmd notBefore t) := by
  simp only [covers_cons, covers_nil, and_true] at cv
  unfold State.claimTree
  simp (maxDischargeDepth := 60) [h, cv]

@[simp] theorem State.claimOver_keeps (n : Nat) (granted : Bool) (h : Keeps P s₀ x) (cv : Covers P ([.cmds, .twin]) := by simp [*]) :
    Keeps P s₀ (State.claimOver x n granted) := by
  simp only [covers_cons, covers_nil, and_true] at cv
  unfold State.claimOver
  simp only []; (repeat' split) <;> (try simp only [Prod.ext_iff] at *) <;> subst_vars <;> simp +contextual (maxDischargeDepth := 60) [h, cv]

@[simp] theorem State.takeTree_keeps (n frame t : Nat) (h : Keeps P s₀ x) (cv : Covers P ([.out, .rings, .icu, .twin, .reg .MOV_STS, .reg .ICU_ERR,
    .reg .TWN_EVT, .reg .TWN_OWNED, .reg .TWN_WARM]) := by simp [*]) :
    Keeps P s₀ (State.takeTree x n frame t) := by
  simp only [covers_cons, covers_nil, and_true] at cv
  unfold State.takeTree
  simp (maxDischargeDepth := 60) [h, cv]

@[simp] theorem State.coldTree_keeps (n : Nat) (h : Keeps P s₀ x) (cv : Covers P ([.out, .rings, .icu, .twin, .reg .MOV_STS, .reg .ICU_ERR, .reg
    .TWN_EVT, .reg .TWN_WARM]) := by simp [*]) :
    Keeps P s₀ (State.coldTree x n) := by
  simp only [covers_cons, covers_nil, and_true] at cv
  unfold State.coldTree
  simp (maxDischargeDepth := 60) [h, cv]

@[simp] theorem State.loseTree_keeps (n : Nat) (h : Keeps P s₀ x) (cv : Covers P ([.out, .free, .ctxs, .cmgr, .txns, .rings, .entries, .cmds, .deal,
    .icu, .pool, .twin, .smp, .reg .SCH_DYN_CNT, .reg .SCH_CTXCNT, .reg .MOV_STS, .reg .ICU_ERR, .reg .TWN_EVT, .reg .TWN_OWNED, .reg .TWN_WARM, .reg
    .GTH_CNT, .reg .GTH_DROP, .reg .CDR_EVT, .reg .CDR_FLG]) := by simp [*]) :
    Keeps P s₀ (State.loseTree x n) := by
  simp only [covers_cons, covers_nil, and_true] at cv
  unfold State.loseTree
  simp (maxDischargeDepth := 60) [h, cv]

@[simp] theorem State.takeoverTrigger_keeps (n notBefore t : Nat) (h : Keeps P s₀ x) (cv : Covers P ([.out, .pol, .links, .rings, .icu, .twin, .reg
    .MOV_STS, .reg .ICU_ERR]) := by simp [*]) :
    Keeps P s₀ (State.takeoverTrigger x n notBefore t) := by
  simp only [covers_cons, covers_nil, and_true] at cv
  unfold State.takeoverTrigger
  simp only []; (repeat' split) <;> (try simp only [Prod.ext_iff] at *) <;> subst_vars <;> simp +contextual (maxDischargeDepth := 60) [h, cv]

@[simp] theorem State.pairTick_keeps (h : Keeps P s₀ x) (cv : Covers P ([.out, .rings, .icu, .twin, .reg .MOV_STS, .reg .ICU_ERR, .reg .TWN_STS, .reg
    .TWN_EVT, .reg .TWN_WARM]) := by simp [*]) :
    Keeps P s₀ (State.pairTick x) := by
  simp only [covers_cons, covers_nil, and_true] at cv
  unfold State.pairTick
  split <;> simp +contextual (maxDischargeDepth := 60) [h, cv]

@[simp] theorem State.beatSend_keeps (tTx : Nat) (h : Keeps P s₀ x) (cv : Covers P ([.out, .twin]) := by simp [*]) :
    Keeps P s₀ (State.beatSend x tTx) := by
  simp only [covers_cons, covers_nil, and_true] at cv
  unfold State.beatSend
  simp (maxDischargeDepth := 60) [h, cv]

@[simp] theorem State.beatTimes_keeps (t1 t2 t3 t4 : Nat) (h : Keeps P s₀ x) (cv : Covers P ([.reg .TWN_OFFSET, .reg .TWN_DLY]) := by simp [*]) :
    Keeps P s₀ (State.beatTimes x t1 t2 t3 t4) := by
  simp only [covers_cons, covers_nil, and_true] at cv
  unfold State.beatTimes
  simp (maxDischargeDepth := 60) [h, cv]

@[simp] theorem State.beatFlag_keeps (peerQ : Nat) (peerFlag : Bool) (h : Keeps P s₀ x) (cv : Covers P ([.out, .rings, .icu, .twin, .reg .MOV_STS,
    .reg .ICU_ERR, .reg .TWN_STS, .reg .TWN_EVT]) := by simp [*]) :
    Keeps P s₀ (State.beatFlag x peerQ peerFlag) := by
  simp only [covers_cons, covers_nil, and_true] at cv
  unfold State.beatFlag
  extract_lets o s1 mine sets s2
  have h1 : Keeps P s₀ s1 := State.onTwin_keeps _ h
  have h2 : Keeps P s₀ s2 := keeps_ite (State.fset_keeps _ _ h1) (keeps_ite (State.fset_keeps _ _ h1) h1)
  exact keeps_ite (State.twinEvent_keeps _ _ _ _ (State.raise_keeps _ h2)) h2

@[simp] theorem State.beatPair_keeps (pairId major minor gen : Nat) (h : Keeps P s₀ x) (cv : Covers P ([.out, .rings, .icu, .twin, .reg .MOV_STS, .reg
    .ICU_ERR, .reg .TWN_STS]) := by simp [*]) :
    Keeps P s₀ (State.beatPair x pairId major minor gen) := by
  simp only [covers_cons, covers_nil, and_true] at cv
  unfold State.beatPair
  simp (maxDischargeDepth := 60) [h, cv]

@[simp] theorem State.beatTaken_keeps (p : List Byte) (t : Nat) (h : Keeps P s₀ x) (cv : Covers P ([.out, .links, .rings, .icu, .twin, .reg .MOV_STS,
    .reg .ICU_ERR, .reg .TWN_STS, .reg .TWN_EVT, .reg .TWN_OFFSET, .reg .TWN_DLY]) := by simp [*]) :
    Keeps P s₀ (State.beatTaken x p t) := by
  simp only [covers_cons, covers_nil, and_true] at cv
  unfold State.beatTaken
  simp +contextual (maxDischargeDepth := 60) [h, cv]

@[simp] theorem State.shadowRecord_keeps (h_ : CtxHost) (b : List Byte) (h : Keeps P s₀ x) (cv : Covers P ([.out, .ctxs, .cmgr, .rings, .slices, .icu,
    .twin, .smp, .reg .SCH_CTXCNT, .reg .MOV_STS, .reg .ICU_ERR, .reg .TWN_CNT, .reg .TWN_WARM, .reg .GTH_CNT, .reg .GTH_DROP, .reg .CDR_EVT, .reg
    .CDR_FLG]) := by simp [*]) :
    Keeps P s₀ (State.shadowRecord x h_ b) := by
  simp only [covers_cons, covers_nil, and_true] at cv
  unfold State.shadowRecord
  simp only []; (repeat' split) <;> (try simp only [Prod.ext_iff] at *) <;> subst_vars <;> simp +contextual (maxDischargeDepth := 60) [h, cv]

@[simp] theorem State.shadowRecords_keeps (h_ : CtxHost) (a2 : Nat) (a3 : List Byte) (h : Keeps P s₀ x) (cv : Covers P ([.out, .ctxs, .cmgr, .rings,
    .slices, .icu, .twin, .smp, .reg .SCH_CTXCNT, .reg .MOV_STS, .reg .ICU_ERR, .reg .TWN_CNT, .reg .TWN_WARM, .reg .GTH_CNT, .reg .GTH_DROP, .reg
    .CDR_EVT, .reg .CDR_FLG]) := by simp [*]) :
    Keeps P s₀ (State.shadowRecords x h_ a2 a3) := by
  simp only [covers_cons, covers_nil, and_true] at cv
  revert h
  fun_induction State.shadowRecords x h_ a2 a3 <;> intro h <;> (try simp only [Prod.ext_iff] at *) <;> (try subst_vars) <;> simp_all +contextual
      (maxDischargeDepth := 60)

@[simp] theorem State.shadowMsgs_keeps (a1 : Nat) (a2 : List (List Byte)) (h : Keeps P s₀ x) (cv : Covers P ([.out, .twin]) := by simp [*]) :
    Keeps P s₀ (State.shadowMsgs x a1 a2) := by
  simp only [covers_cons, covers_nil, and_true] at cv
  revert h
  fun_induction State.shadowMsgs x a1 a2 <;> intro h <;> (try simp only [Prod.ext_iff] at *) <;> (try subst_vars) <;> simp_all +contextual
      (maxDischargeDepth := 60)

@[simp] theorem State.shadowTree_keeps (h_ : CtxHost) (n : Nat) (h : Keeps P s₀ x) (cv : Covers P ([.out, .ctxs, .twin]) := by simp [*]) :
    Keeps P s₀ (State.shadowTree x h_ n) := by
  simp only [covers_cons, covers_nil, and_true] at cv
  unfold State.shadowTree
  simp +contextual (maxDischargeDepth := 60) [h, cv]

@[simp] theorem State.shadowTick_keeps (h_ : CtxHost) (h : Keeps P s₀ x) (cv : Covers P ([.out, .ctxs, .twin]) := by simp [*]) :
    Keeps P s₀ (State.shadowTick x h_) := by
  simp only [covers_cons, covers_nil, and_true] at cv
  unfold State.shadowTick
  simp +contextual (maxDischargeDepth := 60) [h, cv]

@[simp] theorem State.mirrorApply_keeps (p : List Byte) (h : Keeps P s₀ x) (cv : Covers P ([.out, .ctxs, .cmgr, .txns, .rings, .entries, .deal, .icu,
    .pool, .twin, .reg .SCH_CTXCNT, .reg .MOV_STS, .reg .ICU_ERR]) := by simp [*]) :
    Keeps P s₀ (State.mirrorApply x p) := by
  simp only [covers_cons, covers_nil, and_true] at cv
  unfold State.mirrorApply
  simp only []; (repeat' split) <;> (try simp only [Prod.ext_iff] at *) <;> subst_vars <;> simp +contextual (maxDischargeDepth := 60) [h, cv]

@[simp] theorem State.heldAccept_keeps (eph n : Nat) (p : Pkt) (h : Keeps P s₀ x) (cv : Covers P ([.out, .links, .ctxs, .cmgr, .txns, .rings,
    .entries, .deal, .icu, .pool, .twin, .smp, .reg .SCH_CTXCNT, .reg .MOV_STS, .reg .ICU_ERR, .reg .GTH_EVT, .reg .GTH_CNT, .reg .GTH_DROP, .reg
    .CDR_EVT, .reg .CDR_FLG]) := by simp [*]) :
    Keeps P s₀ (State.heldAccept x eph n p) := by
  simp only [covers_cons, covers_nil, and_true] at cv
  unfold State.heldAccept
  simp only []; (repeat' split) <;> (try simp only [Prod.ext_iff] at *) <;> subst_vars <;> simp +contextual (maxDischargeDepth := 60) [h, cv]

@[simp] theorem State.mconfTaken_keeps (m t : Nat) (h : Keeps P s₀ x) (cv : Covers P ([.out, .links, .ctxs, .cmgr, .txns, .rings, .entries, .deal,
    .icu, .pool, .twin, .smp, .reg .SCH_CTXCNT, .reg .MOV_STS, .reg .ICU_ERR, .reg .TWN_DLY, .reg .GTH_EVT, .reg .GTH_CNT, .reg .GTH_DROP, .reg
    .CDR_EVT, .reg .CDR_FLG]) := by simp [*]) :
    Keeps P s₀ (State.mconfTaken x m t) := by
  simp only [covers_cons, covers_nil, and_true] at cv
  unfold State.mconfTaken
  simp +contextual (maxDischargeDepth := 60) [h, cv]

@[simp] theorem State.heldDrop_keeps (h : Keeps P s₀ x) (cv : Covers P ([.twin]) := by simp [*]) :
    Keeps P s₀ (State.heldDrop x) := by
  simp only [covers_cons, covers_nil, and_true] at cv
  unfold State.heldDrop
  simp (maxDischargeDepth := 60) [h, cv]

@[simp] theorem State.outTick_keeps (t : Nat) (h : Keeps P s₀ x) (cv : Covers P ([.out, .links, .twin]) := by simp [*]) :
    Keeps P s₀ (State.outTick x t) := by
  simp only [covers_cons, covers_nil, and_true] at cv
  unfold State.outTick
  simp +contextual (maxDischargeDepth := 60) [h, cv]

@[simp] theorem State.ownStart_keeps (h_ : CtxHost) (n : Nat) (h : Keeps P s₀ x) (cv : Covers P ([.out, .ctxs, .cmgr, .txns, .rings, .entries, .deal,
    .slices, .icu, .pool, .twin, .smp, .reg .SCH_CTXCNT, .reg .MOV_STS, .reg .ICU_ERR, .reg .GTH_CNT, .reg .GTH_DROP, .reg .CDR_EVT, .reg .CDR_FLG])
    := by simp [*]) :
    Keeps P s₀ (State.ownStart x h_ n) := by
  simp only [covers_cons, covers_nil, and_true] at cv
  unfold State.ownStart
  simp +contextual (maxDischargeDepth := 60) [h, cv]

@[simp] theorem State.twinCfgWrite_keeps (v : Nat) (h : Keeps P s₀ x) (cv : Covers P ([.out, .ctxs, .cmgr, .rings, .icu, .twin, .smp, .reg .MOV_STS,
    .reg .ICU_ERR, .reg .TWN_CFG, .reg .TWN_STS, .reg .GTH_CNT, .reg .GTH_DROP, .reg .CDR_EVT, .reg .CDR_FLG]) := by simp [*]) :
    Keeps P s₀ (State.twinCfgWrite x v) := by
  simp only [covers_cons, covers_nil, and_true] at cv
  unfold State.twinCfgWrite
  simp only []; (repeat' split) <;> (try simp only [Prod.ext_iff] at *) <;> subst_vars <;> simp +contextual (maxDischargeDepth := 60) [h, cv]

@[simp] theorem execTwinEnable_keeps (v : Nat) (h : Keeps P s₀ x) (cv : Covers P ([.out, .ctxs, .cmgr, .rings, .icu, .twin, .smp, .reg .MOV_STS, .reg
    .ICU_ERR, .reg .TWN_CFG, .reg .TWN_STS, .reg .GTH_CNT, .reg .GTH_DROP, .reg .CDR_EVT, .reg .CDR_FLG]) := by simp [*]) :
    KeepsO P s₀ (execTwinEnable v x) := by
  simp only [covers_cons, covers_nil, and_true] at cv
  unfold execTwinEnable
  simp (maxDischargeDepth := 60) [h, cv]

@[simp] theorem execTwinLinkUp_keeps (h : Keeps P s₀ x) (cv : Covers P ([.reg .TWN_STS]) := by simp [*]) :
    KeepsO P s₀ (execTwinLinkUp x) := by
  simp only [covers_cons, covers_nil, and_true] at cv
  unfold execTwinLinkUp
  simp (maxDischargeDepth := 60) [h, cv]

@[simp] theorem execTwinLinkDown_keeps (h : Keeps P s₀ x) (cv : Covers P ([.twin, .reg .TWN_STS]) := by simp [*]) :
    KeepsO P s₀ (execTwinLinkDown x) := by
  simp only [covers_cons, covers_nil, and_true] at cv
  unfold execTwinLinkDown
  simp (maxDischargeDepth := 60) [h, cv]

@[simp] theorem State.twinFreed_keeps (lseq : Nat) (h : Keeps P s₀ x) (cv : Covers P ([.out, .twin]) := by simp [*]) :
    Keeps P s₀ (State.twinFreed x lseq) := by
  simp only [covers_cons, covers_nil, and_true] at cv
  unfold State.twinFreed
  (repeat' split) <;> (try simp only [Prod.ext_iff] at *) <;> (try subst_vars) <;> simp +contextual (maxDischargeDepth := 60) [h, cv]

@[simp] theorem State.twinReplay_keeps (lseq : Nat) (h : Keeps P s₀ x) (cv : Covers P ([.out, .twin, .reg .TWN_STS]) := by simp [*]) :
    Keeps P s₀ (State.twinReplay x lseq) := by
  simp only [covers_cons, covers_nil, and_true] at cv
  unfold State.twinReplay
  (repeat' split) <;> (try simp only [Prod.ext_iff] at *) <;> (try subst_vars) <;> simp +contextual (maxDischargeDepth := 60) [h, cv]

@[simp] theorem execTwinAckReceive_keeps (m : List Byte) (h : Keeps P s₀ x) (cv : Covers P ([.out, .twin]) := by simp [*]) :
    KeepsO P s₀ (execTwinAckReceive m x) := by
  simp only [covers_cons, covers_nil, and_true] at cv
  unfold execTwinAckReceive
  (repeat' split) <;> (try simp only [Prod.ext_iff] at *) <;> (try subst_vars) <;> simp +contextual (maxDischargeDepth := 60) [h, cv]

@[simp] theorem execTwinRetryReceive_keeps (m : List Byte) (h : Keeps P s₀ x) (cv : Covers P ([.out, .twin, .reg .TWN_STS]) := by simp [*]) :
    KeepsO P s₀ (execTwinRetryReceive m x) := by
  simp only [covers_cons, covers_nil, and_true] at cv
  unfold execTwinRetryReceive
  (repeat' split) <;> (try simp only [Prod.ext_iff] at *) <;> (try subst_vars) <;> simp +contextual (maxDischargeDepth := 60) [h, cv]

@[simp] theorem execReplayTimeout_keeps (l : Option LinkEndId) (t : Nat) (tTx : Int) (h : Keeps P s₀ x) (cv : Covers P ([.out, .tim, .ports, .links,
    .devs, .ctxs, .cmgr, .txns, .rings, .entries, .cmds, .deal, .icu, .pool, .pwr, .twin, .smp, .reg .SCH_CTXCNT, .reg .PRT_STS, .reg .PRT_CHG, .reg
    .PRT_RETRY, .reg .MOV_STS, .reg .ICU_ERR, .reg .PWR_STS, .reg .PWR_EVT, .reg .PWR_WAKE, .reg .PWR_RCNT, .reg .TWN_STS, .reg .GTH_CNT, .reg
    .GTH_DROP, .reg .CDR_EVT, .reg .CDR_FLG]) := by simp [*]) :
    KeepsO P s₀ (execReplayTimeout l t tTx x) := by
  simp only [covers_cons, covers_nil, and_true] at cv
  unfold execReplayTimeout
  simp only []; (repeat' split) <;> (try simp only [Prod.ext_iff] at *) <;> subst_vars <;> simp +contextual (maxDischargeDepth := 60) [h, cv]

@[simp] theorem execBeatReceive_keeps (m : List Byte) (t : Nat) (h : Keeps P s₀ x) (cv : Covers P ([.out, .tim, .links, .rings, .icu, .twin, .reg
    .MOV_STS, .reg .ICU_ERR, .reg .TWN_STS, .reg .TWN_EVT, .reg .TWN_OFFSET, .reg .TWN_DLY]) := by simp [*]) :
    KeepsO P s₀ (execBeatReceive m t x) := by
  simp only [covers_cons, covers_nil, and_true] at cv
  unfold execBeatReceive
  simp +contextual (maxDischargeDepth := 60) [h, cv]

@[simp] theorem execBeatMissed_keeps (t : Nat) (h : Keeps P s₀ x) (cv : Covers P ([.out, .tim, .pol, .links, .rings, .icu, .twin, .reg .MOV_STS, .reg
    .ICU_ERR, .reg .TWN_EVT, .reg .TWN_CNT]) := by simp [*]) :
    KeepsO P s₀ (execBeatMissed t x) := by
  simp only [covers_cons, covers_nil, and_true] at cv
  unfold execBeatMissed
  simp +contextual (maxDischargeDepth := 60) [h, cv]

@[simp] theorem execShadowReceive_keeps (m : List Byte) (h_ : CtxHost) (h : Keeps P s₀ x) (cv : Covers P ([.out, .ctxs, .cmgr, .rings, .slices, .icu,
    .twin, .smp, .reg .SCH_CTXCNT, .reg .MOV_STS, .reg .ICU_ERR, .reg .TWN_CNT, .reg .TWN_WARM, .reg .GTH_CNT, .reg .GTH_DROP, .reg .CDR_EVT, .reg
    .CDR_FLG]) := by simp [*]) :
    KeepsO P s₀ (execShadowReceive m h_ x) := by
  simp only [covers_cons, covers_nil, and_true] at cv
  unfold execShadowReceive
  simp +contextual (maxDischargeDepth := 60) [h, cv]

@[simp] theorem execMirrorReceive_keeps (m : List Byte) (h : Keeps P s₀ x) (cv : Covers P ([.out, .ctxs, .cmgr, .txns, .rings, .entries, .deal, .icu,
    .pool, .twin, .reg .SCH_CTXCNT, .reg .MOV_STS, .reg .ICU_ERR]) := by simp [*]) :
    KeepsO P s₀ (execMirrorReceive m x) := by
  simp only [covers_cons, covers_nil, and_true] at cv
  unfold execMirrorReceive
  simp +contextual (maxDischargeDepth := 60) [h, cv]

@[simp] theorem execMconfReceive_keeps (m : List Byte) (t : Nat) (h : Keeps P s₀ x) (cv : Covers P ([.out, .free, .tim, .links, .ctxs, .cmgr, .txns,
    .rings, .entries, .cmds, .deal, .icu, .pool, .twin, .smp, .reg .SCH_DYN_CNT, .reg .SCH_CTXCNT, .reg .MOV_STS, .reg .ICU_ERR, .reg .TWN_DLY, .reg
    .GTH_EVT, .reg .GTH_CNT, .reg .GTH_DROP, .reg .CDR_EVT, .reg .CDR_FLG]) := by simp [*]) :
    KeepsO P s₀ (execMconfReceive m t x) := by
  simp only [covers_cons, covers_nil, and_true] at cv
  unfold execMconfReceive
  simp +contextual (maxDischargeDepth := 60) [h, cv]

@[simp] theorem execMconfLate_keeps (t : Nat) (h : Keeps P s₀ x) (cv : Covers P ([.tim, .twin, .reg .TWN_STS]) := by simp [*]) :
    KeepsO P s₀ (execMconfLate t x) := by
  simp only [covers_cons, covers_nil, and_true] at cv
  unfold execMconfLate
  simp (maxDischargeDepth := 60) [h, cv]

@[simp] theorem execHandoverSend_keeps (n : Nat) (h : Keeps P s₀ x) (cv : Covers P ([.out, .twin]) := by simp [*]) :
    KeepsO P s₀ (execHandoverSend n x) := by
  simp only [covers_cons, covers_nil, and_true] at cv
  unfold execHandoverSend
  split <;> simp (maxDischargeDepth := 60) [h, cv]

@[simp] theorem execHandoverReceive_keeps (m : List Byte) (t : Nat) (h : Keeps P s₀ x) (cv : Covers P ([.out, .tim, .pol, .links, .rings, .icu, .pwr,
    .twin, .reg .MOV_STS, .reg .ICU_ERR, .reg .PWR_STS, .reg .PWR_EVT, .reg .PWR_WAKE, .reg .PWR_RCNT]) := by simp [*]) :
    KeepsO P s₀ (execHandoverReceive m t x) := by
  simp only [covers_cons, covers_nil, and_true] at cv
  unfold execHandoverReceive
  simp +contextual (maxDischargeDepth := 60) [h, cv]

@[simp] theorem execTokenMsgRepeat_keeps (n : Nat) (release : Bool) (t : Nat) (h : Keeps P s₀ x) (cv : Covers P ([.out, .tim, .links, .txns, .cmds,
    .twin]) := by simp [*]) :
    KeepsO P s₀ (execTokenMsgRepeat n release t x) := by
  simp only [covers_cons, covers_nil, and_true] at cv
  unfold execTokenMsgRepeat
  simp only []; (repeat' split) <;> (try simp only [Prod.ext_iff] at *) <;> subst_vars <;> simp +contextual (maxDischargeDepth := 60) [h, cv]

@[simp] theorem execTokenStateReceive_keeps (n arg t : Nat) (h : Keeps P s₀ x) (cv : Covers P ([.out, .free, .tim, .links, .ctxs, .cmgr, .txns,
    .rings, .entries, .cmds, .deal, .icu, .pool, .twin, .smp, .reg .SCH_DYN_CNT, .reg .SCH_CTXCNT, .reg .MOV_STS, .reg .ICU_ERR, .reg .TWN_EVT, .reg
    .TWN_OWNED, .reg .TWN_WARM, .reg .GTH_CNT, .reg .GTH_DROP, .reg .CDR_EVT, .reg .CDR_FLG]) := by simp [*]) :
    KeepsO P s₀ (execTokenStateReceive n arg t x) := by
  simp only [covers_cons, covers_nil, and_true] at cv
  unfold execTokenStateReceive
  simp only []; (repeat' split) <;> (try simp only [Prod.ext_iff] at *) <;> subst_vars <;> simp +contextual (maxDischargeDepth := 60) [h, cv]

@[simp] theorem execTokenGrantReceive_keeps (n arg frameNo t : Nat) (h : Keeps P s₀ x) (cv : Covers P ([.out, .tim, .rings, .cmds, .icu, .twin, .reg
    .GCTL_POLICY_STS, .reg .MOV_STS, .reg .ICU_ERR, .reg .TWN_EVT, .reg .TWN_OWNED, .reg .TWN_WARM]) := by simp [*]) :
    KeepsO P s₀ (execTokenGrantReceive n arg frameNo t x) := by
  simp only [covers_cons, covers_nil, and_true] at cv
  unfold execTokenGrantReceive
  simp only []; (repeat' split) <;> (try simp only [Prod.ext_iff] at *) <;> subst_vars <;> simp +contextual (maxDischargeDepth := 60) [h, cv]

@[simp] theorem execTokenDenyReceive_keeps (n arg : Nat) (h : Keeps P s₀ x) (cv : Covers P ([.out, .rings, .cmds, .icu, .twin, .reg .MOV_STS, .reg
    .ICU_ERR, .reg .TWN_EVT, .reg .TWN_CNT]) := by simp [*]) :
    KeepsO P s₀ (execTokenDenyReceive n arg x) := by
  simp only [covers_cons, covers_nil, and_true] at cv
  unfold execTokenDenyReceive
  split <;> simp (maxDischargeDepth := 60) [h, cv]

@[simp] theorem execTokenLostReceive_keeps (n arg : Nat) (h : Keeps P s₀ x) (cv : Covers P ([.out, .free, .ctxs, .cmgr, .txns, .rings, .entries,
    .cmds, .deal, .icu, .pool, .twin, .smp, .reg .SCH_DYN_CNT, .reg .SCH_CTXCNT, .reg .MOV_STS, .reg .ICU_ERR, .reg .TWN_EVT, .reg .TWN_OWNED, .reg
    .TWN_WARM, .reg .GTH_CNT, .reg .GTH_DROP, .reg .CDR_EVT, .reg .CDR_FLG]) := by simp [*]) :
    KeepsO P s₀ (execTokenLostReceive n arg x) := by
  simp only [covers_cons, covers_nil, and_true] at cv
  unfold execTokenLostReceive
  simp (maxDischargeDepth := 60) [h, cv]

@[simp] theorem State.claimFor_keeps (forced : Bool) (cmd : Nat × Nat) (t n : Nat) (h : Keeps P s₀ x) (cv : Covers P ([.out, .pol, .links, .twin])
    := by simp [*]) :
    Keeps P s₀ (State.claimFor x forced cmd t n) := by
  simp only [covers_cons, covers_nil, and_true] at cv
  unfold State.claimFor
  (repeat' split) <;> (try simp only [Prod.ext_iff] at *) <;> (try subst_vars) <;> simp +contextual (maxDischargeDepth := 60) [h, cv]

@[simp] theorem State.claimsTick_keeps (h : Keeps P s₀ x) (cv : Covers P ([.out, .links, .twin]) := by simp [*]) :
    Keeps P s₀ (State.claimsTick x) := by
  simp only [covers_cons, covers_nil, and_true] at cv
  unfold State.claimsTick
  refine keeps_foldl _ h fun y n hy => ?_
  split <;> simp (maxDischargeDepth := 60) [hy, cv]

@[simp] theorem State.claimCmd_keeps (forced : Bool) (t : Nat) (c : CmdRec) (h : Keeps P s₀ x) (cv : Covers P ([.out, .pol, .links, .cmds, .twin])
    := by simp [*]) :
    Keeps P s₀ (State.claimCmd x forced t c) := by
  simp only [covers_cons, covers_nil, and_true] at cv
  unfold State.claimCmd
  simp +contextual (maxDischargeDepth := 60) [h, cv]

@[simp] theorem State.releaseCmd_keeps (c : CmdRec) (h : Keeps P s₀ x) (cv : Covers P ([.out, .links, .cmds, .twin]) := by simp [*]) :
    Keeps P s₀ (State.releaseCmd x c) := by
  simp only [covers_cons, covers_nil, and_true] at cv
  unfold State.releaseCmd
  simp +contextual (maxDischargeDepth := 60) [h, cv]

@[simp] theorem execTwinClaim_keeps (r : Nat) (d : HostRead) (t : Nat) (h : Keeps P s₀ x) (cv : Covers P ([.out, .tim, .pol, .links, .rings, .cmds,
    .icu, .twin, .audit, .mov, .reg .MOV_STS, .reg .ICU_ERR, .reg .SLC_ERR, .reg .SEC_EVT, .reg .SEC_AUDIT]) := by simp [*]) :
    KeepsO P s₀ (execTwinClaim r d t x) := by
  simp only [covers_cons, covers_nil, and_true] at cv
  unfold execTwinClaim
  simp +contextual (maxDischargeDepth := 60) [h, cv]

@[simp] theorem execTwinForce_keeps (r : Nat) (d : HostRead) (t : Nat) (h : Keeps P s₀ x) (cv : Covers P ([.out, .tim, .pol, .links, .rings, .cmds,
    .icu, .twin, .audit, .mov, .reg .MOV_STS, .reg .ICU_ERR, .reg .SLC_ERR, .reg .SEC_EVT, .reg .SEC_AUDIT]) := by simp [*]) :
    KeepsO P s₀ (execTwinForce r d t x) := by
  simp only [covers_cons, covers_nil, and_true] at cv
  unfold execTwinForce
  simp +contextual (maxDischargeDepth := 60) [h, cv]

@[simp] theorem execTwinRelease_keeps (r : Nat) (d : HostRead) (t : Nat) (h : Keeps P s₀ x) (cv : Covers P ([.out, .tim, .links, .rings, .cmds, .icu,
    .twin, .audit, .mov, .reg .MOV_STS, .reg .ICU_ERR, .reg .SLC_ERR, .reg .SEC_EVT, .reg .SEC_AUDIT]) := by simp [*]) :
    KeepsO P s₀ (execTwinRelease r d t x) := by
  simp only [covers_cons, covers_nil, and_true] at cv
  unfold execTwinRelease
  simp +contextual (maxDischargeDepth := 60) [h, cv]

@[simp] theorem execTwinQuery_keeps (r : Nat) (d : HostRead) (h : Keeps P s₀ x) (cv : Covers P ([.out, .rings, .cmds, .icu, .audit, .mov, .reg
    .MOV_STS, .reg .ICU_ERR, .reg .SLC_ERR, .reg .SEC_EVT, .reg .SEC_AUDIT]) := by simp [*]) :
    KeepsO P s₀ (execTwinQuery r d x) := by
  simp only [covers_cons, covers_nil, and_true] at cv
  unfold execTwinQuery
  simp +contextual (maxDischargeDepth := 60) [h, cv]

@[simp] theorem execTwnEvtRead_keeps (both : Bool) (h : Keeps P s₀ x) (cv : Covers P ([.out, .icu, .reg .ICU_ERR, .reg .TWN_EVT, .reg
    .TWN_EVT_SHADOW]) := by simp [*]) :
    KeepsO P s₀ (execTwnEvtRead both x) := by
  simp only [covers_cons, covers_nil, and_true] at cv
  unfold execTwnEvtRead
  simp (maxDischargeDepth := 60) [h, cv]

end Sys2Proof.Machine
end

