-- ==== Sys2Proof/Laws/KeepsMailbox.lean ====
section
/-! SUPPORT. Laws/KeepsMailbox.lean: for each function of Machine/Mailbox.lean, the parts of the state that it leaves as they are. -/

namespace Sys2Proof.Machine

variable {P : Part → Bool} {s₀ x : State}

@[simp] theorem State.mbxEvent_keeps (n : Nat) (tenant : Bool) (what len : Nat) (h : Keeps P s₀ x) (cv : Covers P ([.out, .rings, .icu, .reg .MOV_STS,
    .reg .ICU_ERR]) := by simp [*]) :
    Keeps P s₀ (State.mbxEvent x n tenant what len) := by
  simp only [covers_cons, covers_nil, and_true] at cv
  unfold State.mbxEvent
  simp (maxDischargeDepth := 60) [h, cv]

@[simp] theorem State.mbxPost_keeps (n : Nat) (tenant : Bool) (v : Nat) (h : Keeps P s₀ x) (cv : Covers P ([.out, .rings, .slices, .icu, .reg
    .MOV_STS, .reg .ICU_ERR, .reg .SLC_ERR, .reg .MBM_EVT, .reg .MBT_EVT]) := by simp [*]) :
    Keeps P s₀ (State.mbxPost x n tenant v) := by
  simp only [covers_cons, covers_nil, and_true] at cv
  unfold State.mbxPost
  simp (maxDischargeDepth := 60) [h, cv]

@[simp] theorem State.mbxPop_keeps (n : Nat) (tenant : Bool) (v : Nat) (h : Keeps P s₀ x) (cv : Covers P ([.out, .rings, .slices, .icu, .reg .MOV_STS,
    .reg .ICU_ERR, .reg .MBM_EVT, .reg .MBT_EVT]) := by simp [*]) :
    Keeps P s₀ (State.mbxPop x n tenant v) := by
  simp only [covers_cons, covers_nil, and_true] at cv
  unfold State.mbxPop
  simp only []; (repeat' split) <;> (try simp only [Prod.ext_iff] at *) <;> subst_vars <;> simp +contextual (maxDischargeDepth := 60) [h, cv]

@[simp] theorem State.mbxReset_keeps (n : Nat) (h : Keeps P s₀ x) (cv : Covers P ([.out, .rings, .slices, .icu, .reg .MOV_STS, .reg .ICU_ERR, .reg
    .MBM_EVT, .reg .MBT_EVT]) := by simp [*]) :
    Keeps P s₀ (State.mbxReset x n) := by
  simp only [covers_cons, covers_nil, and_true] at cv
  unfold State.mbxReset
  simp (maxDischargeDepth := 60) [h, cv]

@[simp] theorem execMbmPost_keeps (n v : Nat) (h : Keeps P s₀ x) (cv : Covers P ([.out, .rings, .slices, .icu, .reg .MOV_STS, .reg .ICU_ERR, .reg
    .SLC_ERR, .reg .MBM_EVT, .reg .MBT_EVT]) := by simp [*]) :
    KeepsO P s₀ (execMbmPost n v x) := by
  simp only [covers_cons, covers_nil, and_true] at cv
  unfold execMbmPost
  simp (maxDischargeDepth := 60) [h, cv]

@[simp] theorem execMbtPost_keeps (n v : Nat) (h : Keeps P s₀ x) (cv : Covers P ([.out, .rings, .slices, .icu, .reg .MOV_STS, .reg .ICU_ERR, .reg
    .SLC_ERR, .reg .MBM_EVT, .reg .MBT_EVT]) := by simp [*]) :
    KeepsO P s₀ (execMbtPost n v x) := by
  simp only [covers_cons, covers_nil, and_true] at cv
  unfold execMbtPost
  simp (maxDischargeDepth := 60) [h, cv]

@[simp] theorem execMbmPop_keeps (n v : Nat) (h : Keeps P s₀ x) (cv : Covers P ([.out, .rings, .slices, .icu, .reg .MOV_STS, .reg .ICU_ERR, .reg
    .MBM_EVT, .reg .MBT_EVT]) := by simp [*]) :
    KeepsO P s₀ (execMbmPop n v x) := by
  simp only [covers_cons, covers_nil, and_true] at cv
  unfold execMbmPop
  simp (maxDischargeDepth := 60) [h, cv]

@[simp] theorem execMbtPop_keeps (n v : Nat) (h : Keeps P s₀ x) (cv : Covers P ([.out, .rings, .slices, .icu, .reg .MOV_STS, .reg .ICU_ERR, .reg
    .MBM_EVT, .reg .MBT_EVT]) := by simp [*]) :
    KeepsO P s₀ (execMbtPop n v x) := by
  simp only [covers_cons, covers_nil, and_true] at cv
  unfold execMbtPop
  simp (maxDischargeDepth := 60) [h, cv]

@[simp] theorem execMbmEvtRead_keeps (n : Nat) (both : Bool) (h : Keeps P s₀ x) (cv : Covers P ([.out, .icu, .reg .ICU_ERR, .reg .MBM_EVT, .reg
    .MBM_EVT_SHADOW]) := by simp [*]) :
    KeepsO P s₀ (execMbmEvtRead n both x) := by
  simp only [covers_cons, covers_nil, and_true] at cv
  unfold execMbmEvtRead
  simp (maxDischargeDepth := 60) [h, cv]

@[simp] theorem execMbtEvtRead_keeps (n : Nat) (both : Bool) (h : Keeps P s₀ x) (cv : Covers P ([.out, .icu, .reg .ICU_ERR, .reg .MBT_EVT, .reg
    .MBT_EVT_SHADOW]) := by simp [*]) :
    KeepsO P s₀ (execMbtEvtRead n both x) := by
  simp only [covers_cons, covers_nil, and_true] at cv
  unfold execMbtEvtRead
  simp (maxDischargeDepth := 60) [h, cv]

@[simp] theorem execSltEvtRead_keeps (n : Nat) (both : Bool) (h : Keeps P s₀ x) (cv : Covers P ([.out, .icu, .reg .ICU_ERR, .reg .SLT_EVT, .reg
    .SLT_EVT_SHADOW]) := by simp [*]) :
    KeepsO P s₀ (execSltEvtRead n both x) := by
  simp only [covers_cons, covers_nil, and_true] at cv
  unfold execSltEvtRead
  simp (maxDischargeDepth := 60) [h, cv]

end Sys2Proof.Machine
end

