-- ==== Sys2Proof/Laws/KeepsSlices.lean ====
section
/-! SUPPORT. Laws/KeepsSlices.lean: for each function of Machine/Slices.lean, the parts of the state that it leaves as they are. -/

namespace Sys2Proof.Machine

variable {P : Part → Bool} {s₀ x : State}

@[simp] theorem State.toSlice_keeps (n st : Nat) (h : Keeps P s₀ x) (cv : Covers P ([.reg .SLC_STS]) := by simp [*]) :
    Keeps P s₀ (State.toSlice x n st) := by
  simp only [covers_cons, covers_nil, and_true] at cv
  unfold State.toSlice
  simp (maxDischargeDepth := 60) [h, cv]

@[simp] theorem State.sliceEvent_keeps (n what status hi : Nat) (h : Keeps P s₀ x) (cv : Covers P ([.out, .rings, .icu, .reg .MOV_STS, .reg .ICU_ERR])
    := by simp [*]) :
    Keeps P s₀ (State.sliceEvent x n what status hi) := by
  simp only [covers_cons, covers_nil, and_true] at cv
  unfold State.sliceEvent
  simp (maxDischargeDepth := 60) [h, cv]

@[simp] theorem State.sliceAudit_keeps (n what : Nat) (h : Keeps P s₀ x) (cv : Covers P ([.out, .rings, .icu, .audit, .reg .MOV_STS, .reg .ICU_ERR,
    .reg .SEC_EVT, .reg .SEC_AUDIT]) := by simp [*]) :
    Keeps P s₀ (State.sliceAudit x n what) := by
  simp only [covers_cons, covers_nil, and_true] at cv
  unfold State.sliceAudit
  simp (maxDischargeDepth := 60) [h, cv]

@[simp] theorem State.sharesCleared_keeps (n : Nat) (h : Keeps P s₀ x) (cv : Covers P ([.sched, .deal]) := by simp [*]) :
    Keeps P s₀ (State.sharesCleared x n) := by
  simp only [covers_cons, covers_nil, and_true] at cv
  unfold State.sharesCleared
  simp (maxDischargeDepth := 60) [h, cv]

@[simp] theorem State.bindSlice_keeps (n : Nat) (h : Keeps P s₀ x) (cv : Covers P ([.sched, .deal, .slices, .icu, .reg .SLC_STS, .reg .MBM_EVT, .reg
    .MBT_EVT, .reg .MBT_EVT_SHADOW, .reg .MBT_CTL, .reg .SLI_ROUTE, .reg .SLT_EVT, .reg .SLT_EVT_SHADOW]) := by simp [*]) :
    Keeps P s₀ (State.bindSlice x n) := by
  simp only [covers_cons, covers_nil, and_true] at cv
  unfold State.bindSlice
  simp +contextual (maxDischargeDepth := 60) [h, cv]

@[simp] theorem State.resetWork_keeps (n self : Nat) (h : Keeps P s₀ x) (cv : Covers P ([.out, .cmgr, .rings, .entries, .cmds, .deal, .icu, .twin,
    .reg .MOV_STS, .reg .ICU_ERR]) := by simp [*]) :
    Keeps P s₀ (State.resetWork x n self) := by
  simp only [covers_cons, covers_nil, and_true] at cv
  unfold State.resetWork
  extract_lets gone spill full ids keep hands s1 s2 s3 s4 s5
  have h1 : Keeps P s₀ s1 := by
    refine keeps_foldl _ h fun y a hy => ?_
    split <;> simp (maxDischargeDepth := 60) [hy, cv]
  have h2 : Keeps P s₀ s2 := State.onDeal_keeps _ (by simp (maxDischargeDepth := 60) [h1, cv])
  have h3 : Keeps P s₀ s3 := keeps_ite (State.spillEvent_keeps _ _ _ _ h2) h2
  have h4 : Keeps P s₀ s4 := keeps_ite (State.spillEvent_keeps _ _ _ _ h3) h3
  exact State.cmdsDone_keeps _ _ _ (h4.step rfl rfl rfl fun p q => by cases p <;> first | rfl | exact fun _ => rfl | exact absurd q (by simp [cv]))

@[simp] theorem State.resetWire_keeps (n : Nat) (h : Keeps P s₀ x) (cv : Covers P ([.txns, .twin]) := by simp [*]) :
    Keeps P s₀ (State.resetWire x n) := by
  simp only [covers_cons, covers_nil, and_true] at cv
  unfold State.resetWire
  simp (maxDischargeDepth := 60) [h, cv]

@[simp] theorem State.resetBatches_keeps (n : Nat) (h : Keeps P s₀ x) (cv : Covers P ([.cmds, .sched]) := by simp [*]) :
    Keeps P s₀ (State.resetBatches x n) := by
  simp only [covers_cons, covers_nil, and_true] at cv
  unfold State.resetBatches
  refine State.startBatch_keeps (State.onSched_keeps _ (keeps_foldl _ h fun y a hy => ?_))
  split <;> simp (maxDischargeDepth := 60) [hy, cv]

@[simp] theorem State.resetContexts_keeps (n : Nat) (h : Keeps P s₀ x) (cv : Covers P ([.out, .ctxs, .cmgr, .rings, .sched, .icu, .smp, .reg .MOV_STS,
    .reg .ICU_ERR, .reg .GTH_CNT, .reg .GTH_DROP, .reg .CDR_EVT, .reg .CDR_FLG]) := by simp [*]) :
    Keeps P s₀ (State.resetContexts x n) := by
  simp only [covers_cons, covers_nil, and_true] at cv
  unfold State.resetContexts
  simp (maxDischargeDepth := 60) [h, cv]

@[simp] theorem State.resetRings_keeps (n : Nat) (h : Keeps P s₀ x) (cv : Covers P ([.out, .rings, .cmds, .deal, .slices, .icu, .smp, .reg .MOV_STS,
    .reg .ICU_ERR, .reg .MBM_EVT, .reg .MBT_EVT]) := by simp [*]) :
    Keeps P s₀ (State.resetRings x n) := by
  simp only [covers_cons, covers_nil, and_true] at cv
  unfold State.resetRings
  simp (maxDischargeDepth := 60) [h, cv]

@[simp] theorem State.resetStart_keeps (n : Nat) (c : CmdRec) (disabling : Bool) (h : Keeps P s₀ x) (cv : Covers P ([.out, .ctxs, .cmgr, .txns,
    .rings, .entries, .cmds, .sched, .deal, .slices, .icu, .twin, .smp, .mov, .reg .MOV_STS, .reg .ICU_ERR, .reg .SLC_STS, .reg .GTH_CNT, .reg
    .GTH_DROP, .reg .CDR_EVT, .reg .CDR_FLG, .reg .MBM_EVT, .reg .MBT_EVT]) := by simp [*]) :
    Keeps P s₀ (State.resetStart x n c disabling) := by
  simp only [covers_cons, covers_nil, and_true] at cv
  unfold State.resetStart
  simp +contextual (maxDischargeDepth := 60) [h, cv]

@[simp] theorem State.resetDone_keeps (n : Nat) (h : Keeps P s₀ x) (cv : Covers P ([.out, .rings, .cmds, .sched, .deal, .slices, .icu, .audit, .reg
    .MOV_STS, .reg .ICU_ERR, .reg .SLC_STS, .reg .SEC_EVT, .reg .SEC_AUDIT, .reg .SLT_EVT]) := by simp [*]) :
    Keeps P s₀ (State.resetDone x n) := by
  simp only [covers_cons, covers_nil, and_true] at cv
  unfold State.resetDone
  split <;> simp (maxDischargeDepth := 60) [h, cv]

@[simp] theorem State.unhand_keeps (n : Nat) (h : Keeps P s₀ x) (cv : Covers P ([.out, .ctxs, .rings, .entries, .deal, .icu, .pool, .reg .MOV_STS,
    .reg .ICU_ERR]) := by simp [*]) :
    Keeps P s₀ (State.unhand x n) := by
  simp only [covers_cons, covers_nil, and_true] at cv
  unfold State.unhand
  refine keeps_foldl _ h fun y a hy => ?_
  refine keeps_foldl _ (State.onDeal_keeps _ hy) fun z b hz => ?_
  dsimp only
  split <;> simp (maxDischargeDepth := 60) [hz, cv]

@[simp] theorem State.freezeTick_keeps (n : Nat) (h : Keeps P s₀ x) (cv : Covers P ([.out, .ctxs, .rings, .entries, .deal, .slices, .icu, .pool, .mov,
    .reg .MOV_STS, .reg .ICU_ERR, .reg .SLC_STS]) := by simp [*]) :
    Keeps P s₀ (State.freezeTick x n) := by
  simp only [covers_cons, covers_nil, and_true] at cv
  unfold State.freezeTick
  simp +contextual (maxDischargeDepth := 60) [h, cv]

@[simp] theorem State.frozen_keeps (h_ : CtxHost) (n : Nat) (h : Keeps P s₀ x) (cv : Covers P ([.out, .rings, .cmds, .slices, .icu, .reg .MOV_STS,
    .reg .ICU_ERR, .reg .SLC_STS]) := by simp [*]) :
    Keeps P s₀ (State.frozen x h_ n) := by
  simp only [covers_cons, covers_nil, and_true] at cv
  unfold State.frozen
  split <;> simp +contextual (maxDischargeDepth := 60) [h, cv]

@[simp] theorem State.thawTick_keeps (n : Nat) (h : Keeps P s₀ x) (cv : Covers P ([.out, .ctxs, .cmgr, .txns, .rings, .entries, .cmds, .deal, .slices,
    .icu, .pool, .reg .SCH_CTXCNT, .reg .MOV_STS, .reg .ICU_ERR, .reg .SLC_STS, .reg .SLT_EVT]) := by simp [*]) :
    Keeps P s₀ (State.thawTick x n) := by
  simp only [covers_cons, covers_nil, and_true] at cv
  unfold State.thawTick
  split <;> simp +contextual (maxDischargeDepth := 60) [h, cv]

@[simp] theorem State.reloadTick_keeps (n : Nat) (h : Keeps P s₀ x) (cv : Covers P ([.slices]) := by simp [*]) :
    Keeps P s₀ (State.reloadTick x n) := by
  simp only [covers_cons, covers_nil, and_true] at cv
  unfold State.reloadTick
  simp (maxDischargeDepth := 60) [h, cv]

@[simp] theorem State.windowTick_keeps (h_ : CtxHost) (n : Nat) (h : Keeps P s₀ x) (cv : Covers P ([.out, .rings, .slices, .icu, .reg .MOV_STS, .reg
    .ICU_ERR, .reg .SLT_EVT]) := by simp [*]) :
    Keeps P s₀ (State.windowTick x h_ n) := by
  simp only [covers_cons, covers_nil, and_true] at cv
  unfold State.windowTick
  simp (maxDischargeDepth := 60) [h, cv]

@[simp] theorem State.poolCut_keeps (h_ : CtxHost) (units : Nat) (h : Keeps P s₀ x) (cv : Covers P ([.out, .ctxs, .cmgr, .rings, .slices, .icu, .smp,
    .reg .SCH_CTXCNT, .reg .MOV_STS, .reg .ICU_ERR, .reg .GTH_CNT, .reg .GTH_DROP, .reg .CDR_EVT, .reg .CDR_FLG, .reg .SLT_EVT]) := by simp [*]) :
    Keeps P s₀ (State.poolCut x h_ units) := by
  simp only [covers_cons, covers_nil, and_true] at cv
  unfold State.poolCut
  simp +contextual (maxDischargeDepth := 60) [h, cv]

@[simp] theorem State.onSliceCmd_keeps (c : CmdRec) (body : Nat → State → State) (h : Keeps P s₀ x) (hb : ∀ y b1, Keeps P s₀ y → Keeps P s₀ (body
    b1 y)) (cv : Covers P ([.cmds]) := by simp [*]) :
    Keeps P s₀ (State.onSliceCmd x c body) := by
  simp only [covers_cons, covers_nil, and_true] at cv
  unfold State.onSliceCmd
  simp (maxDischargeDepth := 60) [h, hb, cv]

@[simp] theorem State.inState_keeps (c : CmdRec) (states : List Nat) (body : Nat → State → State) (h : Keeps P s₀ x) (hb : ∀ y b1, Keeps P s₀ y →
    Keeps P s₀ (body b1 y)) (cv : Covers P ([.cmds]) := by simp [*]) :
    Keeps P s₀ (State.inState x c states body) := by
  simp only [covers_cons, covers_nil, and_true] at cv
  unfold State.inState
  simp +contextual (maxDischargeDepth := 60) [h, hb, cv]

@[simp] theorem execSliceEnable_keeps (r : Nat) (d : HostRead) (h : Keeps P s₀ x) (cv : Covers P ([.out, .rings, .cmds, .sched, .deal, .slices, .icu,
    .audit, .mov, .reg .MOV_STS, .reg .ICU_ERR, .reg .SLC_STS, .reg .SLC_ERR, .reg .SEC_EVT, .reg .SEC_AUDIT, .reg .MBM_EVT, .reg .MBT_EVT, .reg
    .MBT_EVT_SHADOW, .reg .MBT_CTL, .reg .SLI_ROUTE, .reg .SLT_EVT, .reg .SLT_EVT_SHADOW]) := by simp [*]) :
    KeepsO P s₀ (execSliceEnable r d x) := by
  simp only [covers_cons, covers_nil, and_true] at cv
  unfold execSliceEnable
  simp +contextual (maxDischargeDepth := 60) [h, cv]

@[simp] theorem execSliceDisable_keeps (r : Nat) (d : HostRead) (others : Nat) (h : Keeps P s₀ x) (cv : Covers P ([.out, .ctxs, .cmgr, .txns, .rings,
    .entries, .cmds, .sched, .deal, .slices, .icu, .twin, .smp, .audit, .mov, .reg .MOV_STS, .reg .ICU_ERR, .reg .SLC_STS, .reg .SLC_ERR, .reg
    .SEC_EVT, .reg .SEC_AUDIT, .reg .GTH_CNT, .reg .GTH_DROP, .reg .CDR_EVT, .reg .CDR_FLG, .reg .MBM_EVT, .reg .MBT_EVT]) := by simp [*]) :
    KeepsO P s₀ (execSliceDisable r d others x) := by
  simp only [covers_cons, covers_nil, and_true] at cv
  unfold execSliceDisable
  simp +contextual (maxDischargeDepth := 60) [h, cv]

@[simp] theorem execSliceRingAllot_keeps (r : Nat) (d : HostRead) (h : Keeps P s₀ x) (cv : Covers P ([.out, .rings, .cmds, .icu, .audit, .mov, .reg
    .MOV_STS, .reg .ICU_ERR, .reg .SLC_ERR, .reg .SEC_EVT, .reg .SEC_AUDIT]) := by simp [*]) :
    KeepsO P s₀ (execSliceRingAllot r d x) := by
  simp only [covers_cons, covers_nil, and_true] at cv
  unfold execSliceRingAllot
  simp +contextual (maxDischargeDepth := 60) [h, cv]

@[simp] theorem execSliceRingReclaim_keeps (r : Nat) (d : HostRead) (h : Keeps P s₀ x) (cv : Covers P ([.out, .rings, .cmds, .icu, .audit, .mov, .reg
    .MOV_STS, .reg .ICU_ERR, .reg .SLC_ERR, .reg .SEC_EVT, .reg .SEC_AUDIT]) := by simp [*]) :
    KeepsO P s₀ (execSliceRingReclaim r d x) := by
  simp only [covers_cons, covers_nil, and_true] at cv
  unfold execSliceRingReclaim
  rw [keepsO_next]
  refine State.withCmd_keeps _ _ _ _ _ h fun y c hy => ?_
  dsimp only
  (repeat' split) <;> simp (maxDischargeDepth := 60) [hy, cv]

@[simp] theorem execSliceShare_keeps (r : Nat) (d : HostRead) (h : Keeps P s₀ x) (cv : Covers P ([.out, .rings, .cmds, .deal, .icu, .audit, .mov, .reg
    .MOV_STS, .reg .ICU_ERR, .reg .SLC_ERR, .reg .SEC_EVT, .reg .SEC_AUDIT]) := by simp [*]) :
    KeepsO P s₀ (execSliceShare r d x) := by
  simp only [covers_cons, covers_nil, and_true] at cv
  unfold execSliceShare
  simp +contextual (maxDischargeDepth := 60) [h, cv]

@[simp] theorem execSliceReset_keeps (r : Nat) (d : HostRead) (h : Keeps P s₀ x) (cv : Covers P ([.out, .ctxs, .cmgr, .txns, .rings, .entries, .cmds,
    .sched, .deal, .slices, .icu, .twin, .smp, .audit, .mov, .reg .MOV_STS, .reg .ICU_ERR, .reg .SLC_STS, .reg .SLC_ERR, .reg .SEC_EVT, .reg
    .SEC_AUDIT, .reg .GTH_CNT, .reg .GTH_DROP, .reg .CDR_EVT, .reg .CDR_FLG, .reg .MBM_EVT, .reg .MBT_EVT]) := by simp [*]) :
    KeepsO P s₀ (execSliceReset r d x) := by
  simp only [covers_cons, covers_nil, and_true] at cv
  unfold execSliceReset
  simp +contextual (maxDischargeDepth := 60) [h, cv]

@[simp] theorem execSliceResetDone_keeps (n : Nat) (h : Keeps P s₀ x) (cv : Covers P ([.out, .rings, .cmds, .sched, .deal, .slices, .icu, .audit, .reg
    .MOV_STS, .reg .ICU_ERR, .reg .SLC_STS, .reg .SEC_EVT, .reg .SEC_AUDIT, .reg .SLT_EVT]) := by simp [*]) :
    KeepsO P s₀ (execSliceResetDone n x) := by
  simp only [covers_cons, covers_nil, and_true] at cv
  unfold execSliceResetDone
  simp (maxDischargeDepth := 60) [h, cv]

@[simp] theorem execSliceFreeze_keeps (r : Nat) (d : HostRead) (h : Keeps P s₀ x) (cv : Covers P ([.out, .rings, .cmds, .slices, .icu, .audit, .mov,
    .reg .MOV_STS, .reg .ICU_ERR, .reg .SLC_ERR, .reg .SEC_EVT, .reg .SEC_AUDIT]) := by simp [*]) :
    KeepsO P s₀ (execSliceFreeze r d x) := by
  simp only [covers_cons, covers_nil, and_true] at cv
  unfold execSliceFreeze
  simp +contextual (maxDischargeDepth := 60) [h, cv]

@[simp] theorem execSliceFrozen_keeps (n : Nat) (h_ : CtxHost) (h : Keeps P s₀ x) (cv : Covers P ([.out, .rings, .cmds, .slices, .icu, .reg .MOV_STS,
    .reg .ICU_ERR, .reg .SLC_STS]) := by simp [*]) :
    KeepsO P s₀ (execSliceFrozen n h_ x) := by
  simp only [covers_cons, covers_nil, and_true] at cv
  unfold execSliceFrozen
  simp (maxDischargeDepth := 60) [h, cv]

@[simp] theorem execSliceThaw_keeps (r : Nat) (d : HostRead) (h : Keeps P s₀ x) (cv : Covers P ([.out, .rings, .cmds, .slices, .icu, .audit, .mov,
    .reg .MOV_STS, .reg .ICU_ERR, .reg .SLC_ERR, .reg .SEC_EVT, .reg .SEC_AUDIT]) := by simp [*]) :
    KeepsO P s₀ (execSliceThaw r d x) := by
  simp only [covers_cons, covers_nil, and_true] at cv
  unfold execSliceThaw
  simp +contextual (maxDischargeDepth := 60) [h, cv]

@[simp] theorem execSliceQuery_keeps (r : Nat) (d : HostRead) (others : Nat) (h : Keeps P s₀ x) (cv : Covers P ([.out, .rings, .cmds, .icu, .audit,
    .mov, .reg .MOV_STS, .reg .ICU_ERR, .reg .SLC_ERR, .reg .SEC_EVT, .reg .SEC_AUDIT]) := by simp [*]) :
    KeepsO P s₀ (execSliceQuery r d others x) := by
  simp only [covers_cons, covers_nil, and_true] at cv
  unfold execSliceQuery
  simp +contextual (maxDischargeDepth := 60) [h, cv]

end Sys2Proof.Machine
end

