-- ==== Sys2Proof/Laws/KeepsImages.lean ====
section
/-! SUPPORT. Laws/KeepsImages.lean: for each function of Machine/Images.lean, the parts of the state that it leaves as they are. -/

namespace Sys2Proof.Machine

variable {P : Part → Bool} {s₀ x : State}

@[simp] theorem State.saveImage_keeps (n : Nat) (others : List (List Byte)) (migrate : Bool) (frame idx : Nat) (b : List Byte) (h : Keeps P s₀ x) (cv
    : Covers P ([.out, .rings, .cmds, .icu, .reg .MOV_STS, .reg .ICU_ERR]) := by simp [*]) :
    Keeps P s₀ (State.saveImage x n others migrate frame idx b) := by
  simp only [covers_cons, covers_nil, and_true] at cv
  unfold State.saveImage
  simp (maxDischargeDepth := 60) [h, cv]

@[simp] theorem State.sliceSave_keeps (c : CmdRec) (others : List (List Byte)) (h : Keeps P s₀ x) (cv : Covers P ([.out, .rings, .cmds, .slices, .icu,
    .reg .MOV_STS, .reg .ICU_ERR]) := by simp [*]) :
    Keeps P s₀ (State.sliceSave x c others) := by
  simp only [covers_cons, covers_nil, and_true] at cv
  unfold State.sliceSave
  simp (maxDischargeDepth := 60) [h, cv]

@[simp] theorem State.saveTick_keeps (frame n : Nat) (h : Keeps P s₀ x) (cv : Covers P ([.out, .rings, .cmds, .slices, .icu, .reg .MOV_STS, .reg
    .ICU_ERR, .reg .SLC_STS]) := by simp [*]) :
    Keeps P s₀ (State.saveTick x frame n) := by
  simp only [covers_cons, covers_nil, and_true] at cv
  unfold State.saveTick
  simp only []; (repeat' split) <;> (try simp only [Prod.ext_iff] at *) <;> subst_vars <;> simp +contextual (maxDischargeDepth := 60) [h, cv]

@[simp] theorem State.contextFits_keeps (h_ : CtxHost) (b : List Byte) (n : Nat) (migrate : Bool) (c : Ctx) (h : Keeps P s₀ x) (cv : Covers P ([.out,
    .ctxs, .cmgr, .rings, .slices, .icu, .smp, .reg .SCH_CTXCNT, .reg .MOV_STS, .reg .ICU_ERR, .reg .GTH_CNT, .reg .GTH_DROP, .reg .CDR_EVT, .reg
    .CDR_FLG]) := by simp [*]) :
    Keeps P s₀ (State.contextFits x h_ b n migrate c).1 := by
  simp only [covers_cons, covers_nil, and_true] at cv
  unfold State.contextFits
  simp only []; (repeat' split) <;> (try simp only [Prod.ext_iff] at *) <;> subst_vars <;> simp +contextual (maxDischargeDepth := 60) [h, cv]

@[simp] theorem State.contextsFit_keeps (h_ : CtxHost) (b : List Byte) (n : Nat) (migrate : Bool) (a5 : List Ctx) (h : Keeps P s₀ x) (cv : Covers P
    ([.out, .ctxs, .cmgr, .rings, .slices, .icu, .smp, .reg .SCH_CTXCNT, .reg .MOV_STS, .reg .ICU_ERR, .reg .GTH_CNT, .reg .GTH_DROP, .reg .CDR_EVT,
    .reg .CDR_FLG]) := by simp [*]) :
    Keeps P s₀ (State.contextsFit x h_ b n migrate a5).1 := by
  simp only [covers_cons, covers_nil, and_true] at cv
  induction a5 generalizing x with
  | nil => simpa [State.contextsFit] using h
  | cons c r ih =>
    rw [State.contextsFit]
    dsimp only
    split
    · exact State.contextFits_keeps _ _ _ _ _ h
    · exact ih (State.contextFits_keeps _ _ _ _ _ h)

@[simp] theorem State.restoreCtx_keeps (h_ : CtxHost) (c : Ctx) (bytes : List Byte) (lens : List Nat) (h : Keeps P s₀ x) (cv : Covers P ([.out,
    .ctxs, .cmgr, .pool]) := by simp [*]) :
    Keeps P s₀ (State.restoreCtx x h_ c bytes lens) := by
  simp only [covers_cons, covers_nil, and_true] at cv
  unfold State.restoreCtx
  dsimp only
  exact Keeps.writeRing (by simp (maxDischargeDepth := 60) [h, cv]) (by simp [cv]) _ _ _ _

@[simp] theorem State.restoreRings_keeps (b : List Byte) (n : Nat) (h : Keeps P s₀ x) (cv : Covers P ([.rings, .deal]) := by simp [*]) :
    Keeps P s₀ (State.restoreRings x b n) := by
  simp only [covers_cons, covers_nil, and_true] at cv
  unfold State.restoreRings
  refine keeps_foldl _ h fun y a hy => ?_
  dsimp only
  split <;> simp (maxDischargeDepth := 60) [hy, cv]

@[simp] theorem State.restoreTaken_keeps (eph : Nat) (w : List Byte) (h : Keeps P s₀ x) (cv : Covers P ([.ctxs]) := by simp [*]) :
    Keeps P s₀ (State.restoreTaken x eph w).1 := by
  simp only [covers_cons, covers_nil, and_true] at cv
  unfold State.restoreTaken
  simp only []; (repeat' split) <;> (try simp only [Prod.ext_iff] at *) <;> subst_vars <;> simp +contextual (maxDischargeDepth := 60) [h, cv]

@[simp] theorem State.restoreEntry_keeps (n : Nat) (w : List Byte) (imgs bufs : List HostRead) (rest : List Byte) (h : Keeps P s₀ x) (cv : Covers
    P ([.entries, .deal]) := by simp [*]) :
    Keeps P s₀ (State.restoreEntry x n w imgs bufs rest) := by
  simp only [covers_cons, covers_nil, and_true] at cv
  unfold State.restoreEntry
  simp only []; (repeat' split) <;> (try simp only [Prod.ext_iff] at *) <;> subst_vars <;> simp +contextual (maxDischargeDepth := 60) [h, cv]

@[simp] theorem State.restoreEntries_keeps (b : List Byte) (n : Nat) (migrate : Bool) (tds : List (List HostRead × List HostRead)) (data : List (Nat ×
    List Byte)) (h : Keeps P s₀ x) (cv : Covers P ([.ctxs, .entries, .deal]) := by simp [*]) :
    Keeps P s₀ (State.restoreEntries x b n migrate tds data) := by
  simp only [covers_cons, covers_nil, and_true] at cv
  unfold State.restoreEntries
  extract_lets cnt ofs s1
  have h1 : Keeps P s₀ s1 := keeps_foldl _ h fun y i hy => by
    extract_lets +onlyGivenNames z eph w later notDone got rest
    have ht : Keeps P s₀ (if y.classOf eph == 3 then y.restoreTaken eph w else (y, rest)).1 := by split <;> simp [hy, cv]
    clear_value rest
    split
    rename_i e
    rw [e] at ht
    simp [ht, cv]
  clear_value s1
  simp [h1, cv]

@[simp] theorem State.restoreShares_keeps (b : List Byte) (n : Nat) (h : Keeps P s₀ x) (cv : Covers P ([.sched, .deal, .slices]) := by simp [*]) :
    Keeps P s₀ (State.restoreShares x b n) := by
  simp only [covers_cons, covers_nil, and_true] at cv
  unfold State.restoreShares
  simp +contextual (maxDischargeDepth := 60) [h, cv]

@[simp] theorem State.sliceRestore_keeps (c : CmdRec) (img : HostRead) (tds : List (List HostRead × List HostRead)) (cuts : List (Nat × List Nat)) (h_
    : CtxHost) (h : Keeps P s₀ x) (cv : Covers P ([.out, .links, .ctxs, .cmgr, .rings, .entries, .cmds, .sched, .deal, .slices, .icu, .pool, .twin,
    .smp, .audit, .reg .SCH_ADM_EVT, .reg .SCH_CTXCNT, .reg .MOV_STS, .reg .ICU_ERR, .reg .SLC_STS, .reg .SLC_ERR, .reg .SEC_EVT, .reg .SEC_AUDIT,
    .reg .GTH_CNT, .reg .GTH_DROP, .reg .CDR_EVT, .reg .CDR_FLG, .reg .MBM_EVT, .reg .MBT_EVT, .reg .MBT_EVT_SHADOW, .reg .MBT_CTL, .reg .SLI_ROUTE,
    .reg .SLT_EVT, .reg .SLT_EVT_SHADOW]) := by simp [*]) :
    Keeps P s₀ (State.sliceRestore x c img tds cuts h_) := by
  simp only [covers_cons, covers_nil, and_true] at cv
  unfold State.sliceRestore
  extract_lets +onlyGivenNames n migrate fail
  have hf : ∀ (y : State) (st : Nat), Keeps P s₀ y → Keeps P s₀ (fail y st) := fun y st hy => State.cmdDone_keeps _ _ _ _ hy
  split
  · exact hf _ _ h
  split
  · exact hf _ _ h
  split
  · exact hf _ _ (by simp (maxDischargeDepth := 60) [h, cv])
  split
  · exact hf _ _ h
  split
  · exact hf _ _ h
  extract_lets +onlyGivenNames b
  split
  · exact hf _ _ h
  split
  · exact hf _ _ h
  extract_lets +onlyGivenNames g src s1
  have h1 : Keeps P s₀ (s1.contextsFit h_ b n migrate src).1 := State.contextsFit_keeps _ _ _ _ _ (State.bindSlice_keeps _ h)
  clear_value s1
  revert h1
  generalize s1.contextsFit h_ b n migrate src = p
  obtain ⟨s2, ctxs, st⟩ := p
  intro h1
  dsimp -zeta -zetaHave only at h1 ⊢
  split
  · exact hf _ _ h
  extract_lets +onlyGivenNames data bytesOf s3 changes bat
  have h3 : Keeps P s₀ (s3.changesCheck h_ bat 0 [] changes).1 := State.changesCheck_keeps _ _ _ _ _
    (State.restoreShares_keeps _ _ (keeps_foldl _ h1 fun y a hy => State.restoreCtx_keeps _ _ _ _ hy))
  clear_value s3
  revert h3
  generalize s3.changesCheck h_ bat 0 [] changes = q
  obtain ⟨s3, f1⟩ := q
  intro h3
  dsimp -zeta -zetaHave only at h3 ⊢
  extract_lets +onlyGivenNames staged f2 f3 refuse
  have hr : ∀ f, Keeps P s₀ (refuse f) := fun f => State.cmdDone_keeps _ _ _ _ (State.admRefuse_keeps _ _ _ _ h)
  split
  · exact hr _
  · exact hr _
  extract_lets +onlyGivenNames s4 s50 s5 hubs s6
  have h4 : Keeps P s₀ s4 := State.restoreEntries_keeps _ _ _ _ _ (State.restoreRings_keeps _ _ h3)
  have h5 : Keeps P s₀ s5 := by
    refine keeps_ite h4 ?_
    exact State.onSched_keeps _ (keeps_foldl _ h4 fun y a hy => State.ctxPin_keeps _ _ hy)
  have h6 : Keeps P s₀ s6 := keeps_foldl _ h5 fun y a hy => State.claimTree_keeps _ _ _ _ _ _ _ hy
  exact State.cmdDone_keeps _ _ _ _ (State.sliceAudit_keeps _ _ (State.sliceEvent_keeps _ _ _ _ (State.toSlice_keeps _ _ h6)))

@[simp] theorem execSliceSave_keeps (r : Nat) (d : HostRead) (others : List (List Byte)) (h : Keeps P s₀ x) (cv : Covers P ([.out, .rings, .cmds,
    .slices, .icu, .audit, .mov, .reg .MOV_STS, .reg .ICU_ERR, .reg .SLC_ERR, .reg .SEC_EVT, .reg .SEC_AUDIT]) := by simp [*]) :
    KeepsO P s₀ (execSliceSave r d others x) := by
  simp only [covers_cons, covers_nil, and_true] at cv
  unfold execSliceSave
  simp +contextual (maxDischargeDepth := 60) [h, cv]

@[simp] theorem execSliceRestore_keeps (r : Nat) (d img : HostRead) (tds : List (List HostRead × List HostRead)) (cuts : List (Nat × List Nat)) (h_ :
    CtxHost) (h : Keeps P s₀ x) (cv : Covers P ([.out, .links, .ctxs, .cmgr, .rings, .entries, .cmds, .sched, .deal, .slices, .icu, .pool, .twin,
    .smp, .audit, .mov, .reg .SCH_ADM_EVT, .reg .SCH_CTXCNT, .reg .MOV_STS, .reg .ICU_ERR, .reg .SLC_STS, .reg .SLC_ERR, .reg .SEC_EVT, .reg
    .SEC_AUDIT, .reg .GTH_CNT, .reg .GTH_DROP, .reg .CDR_EVT, .reg .CDR_FLG, .reg .MBM_EVT, .reg .MBT_EVT, .reg .MBT_EVT_SHADOW, .reg .MBT_CTL, .reg
    .SLI_ROUTE, .reg .SLT_EVT, .reg .SLT_EVT_SHADOW]) := by simp [*]) :
    KeepsO P s₀ (execSliceRestore r d img tds cuts h_ x) := by
  simp only [covers_cons, covers_nil, and_true] at cv
  unfold execSliceRestore
  simp +contextual (maxDischargeDepth := 60) [h, cv]

end Sys2Proof.Machine
end

