-- ==== Sys2Proof/Laws/KeepsGather.lean ====
section
/-! SUPPORT. Laws/KeepsGather.lean: for each function of Machine/Gather.lean, the parts of the state that it leaves as they are. -/

namespace Sys2Proof.Machine

variable {P : Part → Bool} {s₀ x : State}

@[simp] theorem State.onSampleRing_keeps (c : CmdRec) (ring : Option Nat) (fixed : Bool) (body : State → State) (h : Keeps P s₀ x) (hb : ∀ y,
    Keeps P s₀ y → Keeps P s₀ (body y)) (cv : Covers P ([.cmds]) := by simp [*]) :
    Keeps P s₀ (State.onSampleRing x c ring fixed body) := by
  simp only [covers_cons, covers_nil, and_true] at cv
  unfold State.onSampleRing
  split <;> simp (maxDischargeDepth := 60) [h, hb, cv]

@[simp] theorem State.memberStatus_keeps (h_ : CtxHost) (ring g m deadline eph : Nat) (h : Keeps P s₀ x) (cv : Covers P ([.out, .ctxs, .cmgr, .rings,
    .slices, .icu, .smp, .reg .SCH_CTXCNT, .reg .MOV_STS, .reg .ICU_ERR, .reg .GTH_CNT, .reg .GTH_DROP, .reg .CDR_EVT, .reg .CDR_FLG]) := by simp [*])
    :
    Keeps P s₀ (State.memberStatus x h_ ring g m deadline eph).1 := by
  simp only [covers_cons, covers_nil, and_true] at cv
  unfold State.memberStatus
  simp only []; (repeat' split) <;> (try simp only [Prod.ext_iff] at *) <;> subst_vars <;> simp +contextual (maxDischargeDepth := 60) [h, cv]

@[simp] theorem State.memberStatuses_keeps (h_ : CtxHost) (ring g deadline a5 : Nat) (a6 : List (Nat × Int)) (h : Keeps P s₀ x) (cv : Covers P ([.out,
    .ctxs, .cmgr, .rings, .slices, .icu, .smp, .reg .SCH_CTXCNT, .reg .MOV_STS, .reg .ICU_ERR, .reg .GTH_CNT, .reg .GTH_DROP, .reg .CDR_EVT, .reg
    .CDR_FLG]) := by simp [*]) :
    Keeps P s₀ (State.memberStatuses x h_ ring g deadline a5 a6).1 := by
  simp only [covers_cons, covers_nil, and_true] at cv
  induction a6 generalizing x a5 with
  | nil => simpa [State.memberStatuses] using h
  | cons e r ih =>
    rw [State.memberStatuses]
    exact ih _ (State.memberStatus_keeps _ _ _ _ _ _ h)

@[simp] theorem State.gatherCreate_keeps (h_ : CtxHost) (img : HostRead) (c : CmdRec) (h : Keeps P s₀ x) (cv : Covers P ([.out, .ctxs, .cmgr, .rings,
    .cmds, .slices, .icu, .smp, .audit, .reg .SCH_CTXCNT, .reg .MOV_STS, .reg .ICU_ERR, .reg .SLC_ERR, .reg .SEC_EVT, .reg .SEC_AUDIT, .reg .GTH_CNT,
    .reg .GTH_DROP, .reg .CDR_EVT, .reg .CDR_FLG]) := by simp [*]) :
    Keeps P s₀ (State.gatherCreate x h_ img c) := by
  simp only [covers_cons, covers_nil, and_true] at cv
  unfold State.gatherCreate
  split <;> simp (maxDischargeDepth := 60) [h, cv]

@[simp] theorem State.gatherDestroy_keeps (c : CmdRec) (h : Keeps P s₀ x) (cv : Covers P ([.free, .ctxs, .cmgr, .cmds, .smp, .reg .GTH_EVT, .reg
    .GTH_CNT, .reg .GTH_DROP, .reg .CDR_EVT, .reg .CDR_FLG]) := by simp [*]) :
    Keeps P s₀ (State.gatherDestroy x c) := by
  simp only [covers_cons, covers_nil, and_true] at cv
  unfold State.gatherDestroy
  dsimp only
  refine State.onSampleRing_keeps _ _ _ _ h fun y hy => ?_
  refine State.slotsFreed_keeps (State.sampleDone_keeps (State.onGroup_keeps _ _ (keeps_foldl _ hy fun z a hz => ?_)))
  split <;> simp (maxDischargeDepth := 60) [hz, cv]

@[simp] theorem State.gatherQuery_keeps (c : CmdRec) (h : Keeps P s₀ x) (cv : Covers P ([.free, .cmds]) := by simp [*]) :
    Keeps P s₀ (State.gatherQuery x c) := by
  simp only [covers_cons, covers_nil, and_true] at cv
  unfold State.gatherQuery
  dsimp only
  refine State.onSampleRing_keeps _ _ _ _ h fun y hy => ?_
  split
  · rename_i k _
    cases k.upTo <;> simp (maxDischargeDepth := 60) [hy, cv]
  · exact hy

@[simp] theorem State.triggerOk_keeps (h_ : CtxHost) (owner : Nat) (a3 : List Nat) (h : Keeps P s₀ x) (cv : Covers P ([.out, .ctxs, .cmgr, .rings,
    .slices, .icu, .smp, .reg .SCH_CTXCNT, .reg .MOV_STS, .reg .ICU_ERR, .reg .GTH_CNT, .reg .GTH_DROP, .reg .CDR_EVT, .reg .CDR_FLG]) := by simp [*])
    :
    Keeps P s₀ (State.triggerOk x h_ owner a3).1 := by
  simp only [covers_cons, covers_nil, and_true] at cv
  induction a3 generalizing x with
  | nil => simpa [State.triggerOk] using h
  | cons e r ih =>
    rw [State.triggerOk]
    exact ih (State.ctxGet_keeps _ _ h)

@[simp] theorem State.coderAttach_keeps (h_ : CtxHost) (img : HostRead) (c : CmdRec) (h : Keeps P s₀ x) (cv : Covers P ([.out, .ctxs, .cmgr, .rings,
    .cmds, .slices, .icu, .smp, .audit, .reg .SCH_CTXCNT, .reg .MOV_STS, .reg .ICU_ERR, .reg .SLC_ERR, .reg .SEC_EVT, .reg .SEC_AUDIT, .reg .GTH_CNT,
    .reg .GTH_DROP, .reg .CDR_EVT, .reg .CDR_FLG]) := by simp [*]) :
    Keeps P s₀ (State.coderAttach x h_ img c) := by
  simp only [covers_cons, covers_nil, and_true] at cv
  have hg (e : Nat) : Keeps P s₀ (x.ctxGet h_ e).1 := by simp [h, cv]
  have ht (e o : Nat) (l : List Nat) : Keeps P s₀ ((x.ctxGet h_ e).1.triggerOk h_ o l).1 := by simp [h, cv]
  unfold State.coderAttach
  dsimp only
  repeat' first | apply keeps_ite | split
  all_goals simp (maxDischargeDepth := 60) [h, hg, ht, cv]

@[simp] theorem State.coderDetach_keeps (c : CmdRec) (h : Keeps P s₀ x) (cv : Covers P ([.free, .cmds, .smp, .reg .CDR_EVT, .reg .CDR_FLG]) := by
    simp [*]) :
    Keeps P s₀ (State.coderDetach x c) := by
  simp only [covers_cons, covers_nil, and_true] at cv
  unfold State.coderDetach
  simp +contextual (maxDischargeDepth := 60) [h, cv]

@[simp] theorem State.coderQuery_keeps (c : CmdRec) (h : Keeps P s₀ x) (cv : Covers P ([.free, .cmds]) := by simp [*]) :
    Keeps P s₀ (State.coderQuery x c) := by
  simp only [covers_cons, covers_nil, and_true] at cv
  unfold State.coderQuery
  dsimp only
  split
  · simp (maxDischargeDepth := 60) [h, cv]
  · refine State.onSampleRing_keeps _ _ _ _ h fun y hy => ?_
    split
    · rename_i k _
      cases k.lastCseq <;> simp (maxDischargeDepth := 60) [hy, cv]
    · exact hy

@[simp] theorem execGatherCreate_keeps (r : Nat) (d img : HostRead) (h_ : CtxHost) (h : Keeps P s₀ x) (cv : Covers P ([.out, .ctxs, .cmgr, .rings,
    .cmds, .slices, .icu, .smp, .audit, .mov, .reg .SCH_CTXCNT, .reg .MOV_STS, .reg .ICU_ERR, .reg .SLC_ERR, .reg .SEC_EVT, .reg .SEC_AUDIT, .reg
    .GTH_CNT, .reg .GTH_DROP, .reg .CDR_EVT, .reg .CDR_FLG]) := by simp [*]) :
    KeepsO P s₀ (execGatherCreate r d img h_ x) := by
  simp only [covers_cons, covers_nil, and_true] at cv
  unfold execGatherCreate
  simp +contextual (maxDischargeDepth := 60) [h, cv]

@[simp] theorem execGatherDestroy_keeps (r : Nat) (d : HostRead) (h : Keeps P s₀ x) (cv : Covers P ([.out, .free, .ctxs, .cmgr, .rings, .cmds, .icu,
    .smp, .audit, .mov, .reg .MOV_STS, .reg .ICU_ERR, .reg .SLC_ERR, .reg .SEC_EVT, .reg .SEC_AUDIT, .reg .GTH_EVT, .reg .GTH_CNT, .reg .GTH_DROP,
    .reg .CDR_EVT, .reg .CDR_FLG]) := by simp [*]) :
    KeepsO P s₀ (execGatherDestroy r d x) := by
  simp only [covers_cons, covers_nil, and_true] at cv
  unfold execGatherDestroy
  simp +contextual (maxDischargeDepth := 60) [h, cv]

@[simp] theorem execGatherQuery_keeps (r : Nat) (d : HostRead) (h : Keeps P s₀ x) (cv : Covers P ([.out, .free, .rings, .cmds, .icu, .audit, .mov,
    .reg .MOV_STS, .reg .ICU_ERR, .reg .SLC_ERR, .reg .SEC_EVT, .reg .SEC_AUDIT]) := by simp [*]) :
    KeepsO P s₀ (execGatherQuery r d x) := by
  simp only [covers_cons, covers_nil, and_true] at cv
  unfold execGatherQuery
  simp +contextual (maxDischargeDepth := 60) [h, cv]

@[simp] theorem execCoderAttach_keeps (r : Nat) (d img : HostRead) (h_ : CtxHost) (h : Keeps P s₀ x) (cv : Covers P ([.out, .ctxs, .cmgr, .rings,
    .cmds, .slices, .icu, .smp, .audit, .mov, .reg .SCH_CTXCNT, .reg .MOV_STS, .reg .ICU_ERR, .reg .SLC_ERR, .reg .SEC_EVT, .reg .SEC_AUDIT, .reg
    .GTH_CNT, .reg .GTH_DROP, .reg .CDR_EVT, .reg .CDR_FLG]) := by simp [*]) :
    KeepsO P s₀ (execCoderAttach r d img h_ x) := by
  simp only [covers_cons, covers_nil, and_true] at cv
  unfold execCoderAttach
  simp +contextual (maxDischargeDepth := 60) [h, cv]

@[simp] theorem execCoderDetach_keeps (r : Nat) (d : HostRead) (h : Keeps P s₀ x) (cv : Covers P ([.out, .free, .rings, .cmds, .icu, .smp, .audit,
    .mov, .reg .MOV_STS, .reg .ICU_ERR, .reg .SLC_ERR, .reg .SEC_EVT, .reg .SEC_AUDIT, .reg .CDR_EVT, .reg .CDR_FLG]) := by simp [*]) :
    KeepsO P s₀ (execCoderDetach r d x) := by
  simp only [covers_cons, covers_nil, and_true] at cv
  unfold execCoderDetach
  simp +contextual (maxDischargeDepth := 60) [h, cv]

@[simp] theorem execCoderQuery_keeps (r : Nat) (d : HostRead) (h : Keeps P s₀ x) (cv : Covers P ([.out, .free, .rings, .cmds, .icu, .audit, .mov, .reg
    .MOV_STS, .reg .ICU_ERR, .reg .SLC_ERR, .reg .SEC_EVT, .reg .SEC_AUDIT]) := by simp [*]) :
    KeepsO P s₀ (execCoderQuery r d x) := by
  simp only [covers_cons, covers_nil, and_true] at cv
  unfold execCoderQuery
  simp +contextual (maxDischargeDepth := 60) [h, cv]

end Sys2Proof.Machine
end

