-- ==== Sys2Proof/Laws/KeepsStart.lean ====
section
/-! SUPPORT. Laws/KeepsStart.lean: for each function of Machine/Start.lean, the parts of the state that it leaves as they are. -/

namespace Sys2Proof.Machine

variable {P : Part → Bool} {s₀ x : State}

@[simp] theorem State.recordWrite_keeps (h : Keeps P s₀ x) (cv : Covers P ([.hlt]) := by simp [*]) :
    Keeps P s₀ (State.recordWrite x) := by
  simp only [covers_cons, covers_nil, and_true] at cv
  unfold State.recordWrite
  simp (maxDischargeDepth := 60) [h, cv]

@[simp] theorem State.healthEvent_keeps (what object : Nat) (value : Option Nat) (h : Keeps P s₀ x) (cv : Covers P ([.out, .free, .rings, .icu, .reg
    .MOV_STS, .reg .ICU_ERR]) := by simp [*]) :
    Keeps P s₀ (State.healthEvent x what object value) := by
  simp only [covers_cons, covers_nil, and_true] at cv
  unfold State.healthEvent
  simp (maxDischargeDepth := 60) [h, cv]

@[simp] theorem State.healthEval_keeps (h : Keeps P s₀ x) (cv : Covers P ([.out, .free, .rings, .icu, .audit, .hlt, .reg .MOV_STS, .reg .ICU_ERR, .reg
    .HLT_STS, .reg .HLT_EVT, .reg .SEC_EVT, .reg .SEC_AUDIT]) := by simp [*]) :
    Keeps P s₀ (State.healthEval x) := by
  simp only [covers_cons, covers_nil, and_true] at cv
  unfold State.healthEval
  simp (maxDischargeDepth := 60) [h, cv]

@[simp] theorem State.startBase_keeps (keep : List Reg) (h : Keeps P s₀ x) (cv : Covers P ([.out, .free, .tim, .pol, .ports, .links, .side,
    .devs, .ctxs, .cmgr, .txns, .rings, .entries, .cmds, .sched, .deal, .slices, .icu, .pool, .pwr, .twin, .smp, .audit, .mov, .hlt, .aer, .ind]
        ++ Part.regs) := by simp [*]) :
    Keeps P s₀ (State.startBase x keep) := by
  simp only [covers_cons, covers_nil, covers_append, covers_regs, and_true] at cv
  unfold State.startBase
  refine ⟨h.queue, fun _ => rfl, fun w => regTab_foldl _ (regTab_filter (h.regs w) _) (regTab_reset _), fun p q => ?_⟩
  cases p <;> simp_all

@[simp] theorem State.serviceUp_keeps (was : Bool) (h : Keeps P s₀ x) (cv : Covers P ([.out]) := by simp [*]) :
    Keeps P s₀ (State.serviceUp x was) := by
  simp only [covers_cons, covers_nil, and_true] at cv
  unfold State.serviceUp
  simp (maxDischargeDepth := 60) [h, cv]

@[simp] theorem State.coldBase_keeps (region0 : Bool) (h : Keeps P s₀ x) (cv : Covers P ([.out, .free, .tim, .pol, .ports, .links, .side, .devs,
    .ctxs, .cmgr, .txns, .rings, .entries, .cmds, .sched, .deal, .slices, .icu, .pool, .pwr, .twin, .smp, .audit, .mov, .hlt, .aer, .ind] ++
        Part.regs) := by simp [*]) :
    Keeps P s₀ (State.coldBase x region0) := by
  simp only [covers_cons, covers_nil, covers_append, covers_regs, and_true] at cv
  unfold State.coldBase
  extract_lets fails starts off s1 s2 s3 r hours s4 em pw s5
  have h1 : Keeps P s₀ s1 := State.startBase_keeps _ h
  have h4 : Keeps P s₀ s4 :=
    State.onHlt_keeps _ (State.fset_keeps _ _ (State.fset_keeps _ _ (State.fset_keeps _ _ (State.fset_keeps _ _ (State.fset_keeps _ _ h1)))))
  have h5 : Keeps P s₀ s5 := h4.step rfl rfl rfl fun p q => by cases p <;> first | rfl | exact fun _ => rfl | exact absurd q (by simp [cv])
  exact State.serviceUp_keeps _ h5

@[simp] theorem State.otpLoad_keeps (o : Otp) (h : Keeps P s₀ x) (cv : Covers P ([.hlt, .reg .SEC_STS]) := by simp [*]) :
    Keeps P s₀ (State.otpLoad x o) := by
  simp only [covers_cons, covers_nil, and_true] at cv
  unfold State.otpLoad
  simp (maxDischargeDepth := 60) [h, cv]

@[simp] theorem State.bistRows_keeps (l : List Nat) (h : Keeps P s₀ x) (cv : Covers P ([.hlt, .reg .HLT_EVT]) := by simp [*]) :
    Keeps P s₀ (State.bistRows x l) := by
  simp only [covers_cons, covers_nil, and_true] at cv
  unfold State.bistRows
  simp +contextual (maxDischargeDepth := 60) [h, cv]

@[simp] theorem State.loopback_keeps (mask : Nat) (h : Keeps P s₀ x) (cv : Covers P ([.out, .free, .rings, .icu, .reg .MOV_STS, .reg .ICU_ERR, .reg
    .HLT_EVT, .reg .HLT_PORTRET]) := by simp [*]) :
    Keeps P s₀ (State.loopback x mask) := by
  simp only [covers_cons, covers_nil, and_true] at cv
  unfold State.loopback
  simp +contextual (maxDischargeDepth := 60) [h, cv]

@[simp] theorem State.coldSteps_keeps (i : StartIn) (h : Keeps P s₀ x) (cv : Covers P ([.out, .free, .rings, .icu, .hlt, .reg .MOV_STS, .reg .ICU_ERR,
    .reg .HLT_EVT, .reg .HLT_START, .reg .HLT_PORTRET, .reg .SEC_STS]) := by simp [*]) :
    Keeps P s₀ (State.coldSteps x i).1 := by
  simp only [covers_cons, covers_nil, and_true] at cv
  unfold State.coldSteps
  simp only []; (repeat' split) <;> (try simp only [Prod.ext_iff] at *) <;> subst_vars <;> simp +contextual (maxDischargeDepth := 60) [h, cv]

@[simp] theorem State.coldFailed_keeps (trial : Bool) (h : Keeps P s₀ x) (cv : Covers P ([.hlt, .reg .HLT_START]) := by simp [*]) :
    Keeps P s₀ (State.coldFailed x trial) := by
  simp only [covers_cons, covers_nil, and_true] at cv
  unfold State.coldFailed
  simp (maxDischargeDepth := 60) [h, cv]

@[simp] theorem State.enterSafe_keeps (h : Keeps P s₀ x) (cv : Covers P ([.out, .free, .rings, .icu, .audit, .hlt, .reg .MOV_STS, .reg .ICU_ERR, .reg
    .HLT_STS, .reg .HLT_EVT, .reg .HLT_START, .reg .SEC_EVT, .reg .SEC_AUDIT]) := by simp [*]) :
    Keeps P s₀ (State.enterSafe x) := by
  simp only [covers_cons, covers_nil, and_true] at cv
  unfold State.enterSafe
  simp (maxDischargeDepth := 60) [h, cv]

@[simp] theorem State.coldStarts_keeps (lost : Bool) (a2 : List StartIn) (h : Keeps P s₀ x) (cv : Covers P ([.out, .free, .tim, .pol, .ports,
    .links, .side, .devs, .ctxs, .cmgr, .txns, .rings, .entries, .cmds, .sched, .deal, .slices, .icu, .pool, .pwr, .twin, .smp, .audit, .mov,
        .hlt, .aer, .ind] ++ Part.regs) := by simp [*]) :
    Keeps P s₀ (State.coldStarts x lost a2) := by
  simp only [covers_cons, covers_nil, covers_append, covers_regs, and_true] at cv
  induction a2 generalizing x lost with
  | nil => rw [State.coldStarts]; split <;> simp (maxDischargeDepth := 60) [h, cv]
  | cons i r ih =>
    rw [State.coldStarts]
    dsimp only
    have h2 : Keeps P s₀ (if lost then (x.coldBase i.region0).raise .SEC_EVT_TRIAL_FAIL else x.coldBase i.region0) :=
      keeps_ite (State.raise_keeps _ (State.coldBase_keeps _ h)) (State.coldBase_keeps _ h)
    revert h2
    generalize (if lost then (x.coldBase i.region0).raise .SEC_EVT_TRIAL_FAIL else x.coldBase i.region0) = s2
    intro h2
    split
    · exact State.enterSafe_keeps h2
    · split
      · exact State.coldSteps_keeps _ h2
      · exact ih _ (State.coldFailed_keeps _ (State.coldSteps_keeps _ h2))

@[simp] theorem State.emberSave_keeps (h : Keeps P s₀ x) (cv : Covers P ([.pwr]) := by simp [*]) :
    Keeps P s₀ (State.emberSave x) := by
  simp only [covers_cons, covers_nil, and_true] at cv
  unfold State.emberSave
  simp (maxDischargeDepth := 60) [h, cv]

@[simp] theorem State.timResume_keeps (b : TimeBase) (sts : DWord) (deep : Bool) (t : Nat) (h : Keeps P s₀ x) (cv : Covers P ([.out, .tim, .reg
    .TIM_STS, .reg .TIM_EVT, .reg .TIM_ERR_EST]) := by simp [*]) :
    Keeps P s₀ (State.timResume x b sts deep t) := by
  simp only [covers_cons, covers_nil, and_true] at cv
  unfold State.timResume
  simp (maxDischargeDepth := 60) [h, cv]

@[simp] theorem State.portRestore_keeps (n : Nat) (h : Keeps P s₀ x) (cv : Covers P ([.out, .ports, .links, .devs, .rings, .icu, .reg .PRT_STS, .reg
    .PRT_CHG, .reg .MOV_STS, .reg .ICU_ERR]) := by simp [*]) :
    Keeps P s₀ (State.portRestore x n) := by
  simp only [covers_cons, covers_nil, and_true] at cv
  unfold State.portRestore
  simp (maxDischargeDepth := 60) [h, cv]

@[simp] theorem State.srcRestore_keeps (l : Tbl Source) (h : Keeps P s₀ x) (cv : Covers P ([.out, .icu, .reg .ICU_ERR]) := by simp [*]) :
    Keeps P s₀ (State.srcRestore x l) := by
  simp only [covers_cons, covers_nil, and_true] at cv
  unfold State.srcRestore
  simp +contextual (maxDischargeDepth := 60) [h, cv]

@[simp] theorem State.regionRestore_keeps (k : Nat) (deep : Bool) (t : Nat) (h : Keeps P s₀ x) (cv : Covers P ([.out, .tim, .ports, .links,
    .devs, .rings, .sched, .icu] ++ Part.regs) := by simp [*]) :
    Keeps P s₀ (State.regionRestore x k deep t) := by
  simp only [covers_cons, covers_nil, covers_append, covers_regs, and_true] at cv
  unfold State.regionRestore
  extract_lets e nums s1
  have h1 : Keeps P s₀ s1 := ⟨h.queue, h.pool, fun w => regTab_restore _ (h.regs w), fun p q => Part.same_trans p (h.same p q) (by
    cases p <;> first | rfl | exact fun _ => rfl | exact absurd q (by simp [cv]))⟩
  clear_value s1
  split
  · split
    · exact State.timResume_keeps _ _ _ _ h1
    · exact h1
  · exact keeps_foldl _ h1 fun y a hy => State.portRestore_keeps _ hy
  · exact State.onSched_keeps _ h1
  · exact State.engineShown_keeps _ (State.srcRestore_keeps _ h1)
  · exact h1

@[simp] theorem State.emberRestore_keeps (bad : Nat) (deep : Bool) (t : Nat) (h : Keeps P s₀ x) (cv : Covers P ([.out, .tim, .ports, .links,
    .devs, .rings, .sched, .icu, .pwr] ++ Part.regs) := by simp [*]) :
    Keeps P s₀ (State.emberRestore x bad deep t) := by
  simp only [covers_cons, covers_nil, covers_append, covers_regs, and_true] at cv
  unfold State.emberRestore
  simp (maxDischargeDepth := 60) [h, cv]

@[simp] theorem State.warmBase_keeps (h : Keeps P s₀ x) (cv : Covers P ([.out, .free, .tim, .pol, .ports, .links, .side, .devs, .ctxs, .cmgr,
    .txns, .rings, .entries, .cmds, .sched, .deal, .slices, .icu, .pool, .pwr, .twin, .smp, .audit, .mov, .hlt, .aer, .ind] ++ Part.regs) := by
        simp [*]) :
    Keeps P s₀ (State.warmBase x) := by
  simp only [covers_cons, covers_nil, covers_append, covers_regs, and_true] at cv
  unfold State.warmBase
  simp (maxDischargeDepth := 60) [h, cv]

@[simp] theorem State.railsLow_keeps (l : List Nat) (h : Keeps P s₀ x) (cv : Covers P ([.out, .pwr]) := by simp [*]) :
    Keeps P s₀ (State.railsLow x l) := by
  simp only [covers_cons, covers_nil, and_true] at cv
  unfold State.railsLow
  simp (maxDischargeDepth := 60) [h, cv]

@[simp] theorem State.entryOver_keeps (st : Nat) (h : Keeps P s₀ x) (cv : Covers P ([.pwr, .reg .PWR_STS]) := by simp [*]) :
    Keeps P s₀ (State.entryOver x st) := by
  simp only [covers_cons, covers_nil, and_true] at cv
  unfold State.entryOver
  simp (maxDischargeDepth := 60) [h, cv]

@[simp] theorem State.deepEnter_keeps (h : Keeps P s₀ x) (cv : Covers P ([.out, .free, .tim, .pol, .ports, .links, .side, .devs, .ctxs, .cmgr,
    .txns, .rings, .entries, .cmds, .sched, .deal, .slices, .icu, .pool, .pwr, .twin, .smp, .audit, .mov, .hlt, .aer, .ind] ++ Part.regs) := by
        simp [*]) :
    Keeps P s₀ (State.deepEnter x) := by
  simp only [covers_cons, covers_nil, covers_append, covers_regs, and_true] at cv
  unfold State.deepEnter
  simp (maxDischargeDepth := 60) [h, cv]

@[simp] theorem State.offEnter_keeps (h : Keeps P s₀ x) (cv : Covers P ([.out, .free, .tim, .pol, .ports, .links, .side, .devs, .ctxs, .cmgr,
    .txns, .rings, .entries, .cmds, .sched, .deal, .slices, .icu, .pool, .pwr, .twin, .smp, .audit, .mov, .hlt, .aer, .ind] ++ Part.regs) := by
        simp [*]) :
    Keeps P s₀ (State.offEnter x) := by
  simp only [covers_cons, covers_nil, covers_append, covers_regs, and_true] at cv
  unfold State.offEnter
  simp (maxDischargeDepth := 60) [h, cv]

@[simp] theorem State.sleepEnter_keeps (h : Keeps P s₀ x) (cv : Covers P ([.pwr, .reg .GCTL_POLICY_STS, .reg .PWR_STS]) := by simp [*]) :
    Keeps P s₀ (State.sleepEnter x) := by
  simp only [covers_cons, covers_nil, and_true] at cv
  unfold State.sleepEnter
  simp (maxDischargeDepth := 60) [h, cv]

@[simp] theorem State.thermalTrip_keeps (sensor : Nat) (t : Int) (h : Keeps P s₀ x) (cv : Covers P ([.out, .free, .tim, .pol, .ports, .links,
    .side, .devs, .ctxs, .cmgr, .txns, .rings, .entries, .cmds, .sched, .deal, .slices, .icu, .pool, .pwr, .twin, .smp, .audit, .mov, .hlt, .aer,
        .ind] ++ Part.regs) := by simp [*]) :
    Keeps P s₀ (State.thermalTrip x sensor t) := by
  simp only [covers_cons, covers_nil, covers_append, covers_regs, and_true] at cv
  unfold State.thermalTrip
  simp (maxDischargeDepth := 60) [h, cv]

@[simp] theorem State.warmStart_keeps (kind bad t : Nat) (h : Keeps P s₀ x) (cv : Covers P ([.out, .tim, .ports, .links, .devs, .rings, .sched,
    .icu, .pwr] ++ Part.regs) := by simp [*]) :
    Keeps P s₀ (State.warmStart x kind bad t) := by
  simp only [covers_cons, covers_nil, covers_append, covers_regs, and_true] at cv
  unfold State.warmStart
  simp (maxDischargeDepth := 60) [h, cv]

@[simp] theorem State.twinRestart_keeps (h : Keeps P s₀ x) (cv : Covers P ([.out, .ctxs, .cmgr, .rings, .icu, .twin, .smp, .reg .MOV_STS, .reg
    .ICU_ERR, .reg .TWN_CFG, .reg .TWN_STS, .reg .GTH_CNT, .reg .GTH_DROP, .reg .CDR_EVT, .reg .CDR_FLG]) := by simp [*]) :
    Keeps P s₀ (State.twinRestart x) := by
  simp only [covers_cons, covers_nil, and_true] at cv
  unfold State.twinRestart
  simp (maxDischargeDepth := 60) [h, cv]

@[simp] theorem State.portsResume_keeps (h : Keeps P s₀ x) (cv : Covers P ([.out, .ports, .links, .devs, .txns, .pwr, .reg .PRT_STS]) := by simp
    [*]) :
    Keeps P s₀ (State.portsResume x) := by
  simp only [covers_cons, covers_nil, and_true] at cv
  unfold State.portsResume
  simp +contextual (maxDischargeDepth := 60) [h, cv]

end Sys2Proof.Machine
end

