-- ==== Sys2Proof/Laws/KeepsHealth.lean ====
section
/-! SUPPORT. Laws/KeepsHealth.lean: for each function of Machine/Health.lean, the parts of the state that it leaves as they are. -/

namespace Sys2Proof.Machine

variable {P : Part → Bool} {s₀ x : State}

@[simp] theorem State.onBank_keeps (b : Nat) (f : BankInfo → BankInfo) (h : Keeps P s₀ x) (cv : Covers P ([.hlt]) := by simp [*]) :
    Keeps P s₀ (State.onBank x b f) := by
  simp only [covers_cons, covers_nil, and_true] at cv
  unfold State.onBank
  simp (maxDischargeDepth := 60) [h, cv]

@[simp] theorem State.retireCmd_keeps (cmd : Option (Nat × Nat)) (status result : Nat) (h : Keeps P s₀ x) (cv : Covers P ([.cmds]) := by simp [*]) :
    Keeps P s₀ (State.retireCmd x cmd status result) := by
  simp only [covers_cons, covers_nil, and_true] at cv
  unfold State.retireCmd
  split <;> simp (maxDischargeDepth := 60) [h, cv]

@[simp] theorem State.startRetire_keeps (b : Nat) (cmd : Option (Nat × Nat)) (h : Keeps P s₀ x) (cv : Covers P ([.out, .rings, .cmds, .icu, .hlt, .reg
    .MOV_STS, .reg .ICU_ERR]) := by simp [*]) :
    Keeps P s₀ (State.startRetire x b cmd) := by
  simp only [covers_cons, covers_nil, and_true] at cv
  unfold State.startRetire
  split <;> simp (maxDischargeDepth := 60) [h, cv]

@[simp] theorem State.startShrink_keeps (b : Nat) (cmd : Option (Nat × Nat)) (h : Keeps P s₀ x) (cv : Covers P ([.out, .rings, .cmds, .icu, .hlt, .reg
    .MOV_STS, .reg .ICU_ERR]) := by simp [*]) :
    Keeps P s₀ (State.startShrink x b cmd) := by
  simp only [covers_cons, covers_nil, and_true] at cv
  unfold State.startShrink
  split <;> simp (maxDischargeDepth := 60) [h, cv]

@[simp] theorem State.retireBegin_keeps (w : RetireWait) (h : Keeps P s₀ x) (cv : Covers P ([.out, .rings, .cmds, .icu, .hlt, .reg .MOV_STS, .reg
    .ICU_ERR]) := by simp [*]) :
    Keeps P s₀ (State.retireBegin x w) := by
  simp only [covers_cons, covers_nil, and_true] at cv
  unfold State.retireBegin
  (repeat' split) <;> (try simp only [Prod.ext_iff] at *) <;> (try subst_vars) <;> simp +contextual (maxDischargeDepth := 60) [h, cv]

@[simp] theorem State.retirePolicyTurn_keeps (w : RetireWait) (h : Keeps P s₀ x) (cv : Covers P ([.out, .pol, .rings, .cmds, .icu, .hlt, .reg
    .MOV_STS, .reg .ICU_ERR]) := by simp [*]) :
    Keeps P s₀ (State.retirePolicyTurn x w) := by
  simp only [covers_cons, covers_nil, and_true] at cv
  have hp : Keeps P s₀ x.policyRead := by simp [h, cv]
  unfold State.retirePolicyTurn
  simp only []
  generalize x.policyRead = y at hp ⊢
  (repeat' split) <;> simp (maxDischargeDepth := 60) [h, hp, cv]

@[simp] theorem State.retireNext_keeps (h : Keeps P s₀ x) (cv : Covers P ([.out, .pol, .rings, .cmds, .icu, .hlt, .reg .MOV_STS, .reg .ICU_ERR]) := by
    simp [*]) :
    Keeps P s₀ (State.retireNext x) := by
  simp only [covers_cons, covers_nil, and_true] at cv
  unfold State.retireNext
  split <;> simp (maxDischargeDepth := 60) [h, cv]

@[simp] theorem State.retireWait_keeps (b : Nat) (shrink : Bool) (cmd : Option (Nat × Nat)) (h : Keeps P s₀ x) (cv : Covers P ([.out, .pol, .rings,
    .cmds, .icu, .hlt, .reg .MOV_STS, .reg .ICU_ERR]) := by simp [*]) :
    Keeps P s₀ (State.retireWait x b shrink cmd) := by
  simp only [covers_cons, covers_nil, and_true] at cv
  unfold State.retireWait
  simp (maxDischargeDepth := 60) [h, cv]

@[simp] theorem State.retirePolicy_keeps (b : Nat) (h : Keeps P s₀ x) (cv : Covers P ([.out, .pol, .rings, .cmds, .icu, .hlt, .reg .MOV_STS, .reg
    .ICU_ERR]) := by simp [*]) :
    Keeps P s₀ (State.retirePolicy x b) := by
  simp only [covers_cons, covers_nil, and_true] at cv
  unfold State.retirePolicy
  simp only []; (repeat' split) <;> (try simp only [Prod.ext_iff] at *) <;> subst_vars <;> simp +contextual (maxDischargeDepth := 60) [h, cv]

@[simp] theorem State.sparesShow_keeps (h : Keeps P s₀ x) (cv : Covers P ([.reg .HLT_POOL]) := by simp [*]) :
    Keeps P s₀ (State.sparesShow x) := by
  simp only [covers_cons, covers_nil, and_true] at cv
  unfold State.sparesShow
  simp (maxDischargeDepth := 60) [h, cv]

@[simp] theorem State.retireTick_keeps (h_ : CtxHost) (h : Keeps P s₀ x) (cv : Covers P ([.out, .free, .pol, .ctxs, .cmgr, .rings, .cmds, .slices,
    .icu, .pool, .smp, .audit, .hlt, .reg .GCTL_POLICY_STS, .reg .SCH_CTXCNT, .reg .MOV_STS, .reg .ICU_ERR, .reg .HLT_STS, .reg .HLT_EVT, .reg
    .HLT_POOL, .reg .HLT_RETIRED, .reg .SEC_EVT, .reg .SEC_AUDIT, .reg .GTH_CNT, .reg .GTH_DROP, .reg .CDR_EVT, .reg .CDR_FLG, .reg .SLT_EVT]) := by
    simp [*]) :
    Keeps P s₀ (State.retireTick x h_) := by
  simp only [covers_cons, covers_nil, and_true] at cv
  unfold State.retireTick
  split
  · split
    · dsimp only
      split
      · refine State.retireNext_keeps (State.retireCmd_keeps _ _ _ (State.healthEval_keeps (State.recordWrite_keeps (State.overtake_keeps _ _
          (keeps_ite (State.policyAction_keeps _ _ _ ?_) ?_)))))
        all_goals
          refine State.healthEvent_keeps _ _ _ (State.raise_keeps _ (State.poolCut_keeps _ _ (State.fset_keeps _ _ (Keeps.filterPool ?_ (by simp
              [cv]) _))))
          simp (maxDischargeDepth := 60) [h, cv]
      · simp (maxDischargeDepth := 60) [h, cv]
    · exact h
  · simp (maxDischargeDepth := 60) [h, cv]

@[simp] theorem State.bankCorrected_keeps (b t : Nat) (h : Keeps P s₀ x) (cv : Covers P ([.out, .pol, .rings, .cmds, .icu, .hlt, .reg .MOV_STS, .reg
    .ICU_ERR]) := by simp [*]) :
    Keeps P s₀ (State.bankCorrected x b t) := by
  simp only [covers_cons, covers_nil, and_true] at cv
  unfold State.bankCorrected
  simp (maxDischargeDepth := 60) [h, cv]

@[simp] theorem State.rowCorrected_keeps (a r : Nat) (h : Keeps P s₀ x) (cv : Covers P ([.out, .free, .rings, .icu, .hlt, .reg .MOV_STS, .reg
    .ICU_ERR, .reg .HLT_EVT]) := by simp [*]) :
    Keeps P s₀ (State.rowCorrected x a r) := by
  simp only [covers_cons, covers_nil, and_true] at cv
  unfold State.rowCorrected
  simp (maxDischargeDepth := 60) [h, cv]

@[simp] theorem State.blockLost_keeps (eph bseq : Nat) (h : Keeps P s₀ x) (cv : Covers P ([.ctxs, .cmgr, .smp, .reg .CDR_EVT, .reg .CDR_FLG]) := by
    simp [*]) :
    Keeps P s₀ (State.blockLost x eph bseq) := by
  simp only [covers_cons, covers_nil, and_true] at cv
  unfold State.blockLost
  simp +contextual (maxDischargeDepth := 60) [h, cv]

@[simp] theorem State.dataLost_keeps (ring idx : Nat) (h : Keeps P s₀ x) (cv : Covers P ([.out, .ctxs, .cmgr, .txns, .rings, .entries, .deal, .icu,
    .pool, .reg .SCH_CTXCNT, .reg .MOV_STS, .reg .ICU_ERR]) := by simp [*]) :
    Keeps P s₀ (State.dataLost x ring idx) := by
  simp only [covers_cons, covers_nil, and_true] at cv
  unfold State.dataLost
  split <;> (try split) <;> simp +contextual (maxDischargeDepth := 60) [h, cv]

@[simp] theorem State.eccHit_keeps (x_ : EccHit) (h : Keeps P s₀ x) (cv : Covers P ([.out, .ctxs, .cmgr, .txns, .rings, .entries, .deal, .icu, .pool,
    .smp, .reg .SCH_CTXCNT, .reg .MOV_STS, .reg .ICU_ERR, .reg .CDR_EVT, .reg .CDR_FLG]) := by simp [*]) :
    Keeps P s₀ (State.eccHit x x_) := by
  simp only [covers_cons, covers_nil, and_true] at cv
  unfold State.eccHit
  split <;> (try split) <;> simp +contextual (maxDischargeDepth := 60) [h, cv]

@[simp] theorem State.bankUncorrectable_keeps (b : Nat) (x_ : EccHit) (h : Keeps P s₀ x) (cv : Covers P ([.out, .free, .pol, .ctxs, .cmgr, .txns,
    .rings, .entries, .cmds, .deal, .icu, .pool, .smp, .hlt, .reg .SCH_CTXCNT, .reg .MOV_STS, .reg .ICU_ERR, .reg .HLT_EVT, .reg .CDR_EVT, .reg
    .CDR_FLG]) := by simp [*]) :
    Keeps P s₀ (State.bankUncorrectable x b x_) := by
  simp only [covers_cons, covers_nil, and_true] at cv
  unfold State.bankUncorrectable
  simp (maxDischargeDepth := 60) [h, cv]

@[simp] theorem State.eyeSample_keeps (x_ : EyeIn) (h : Keeps P s₀ x) (cv : Covers P ([.out, .free, .pol, .ports, .devs, .rings, .cmds, .sched, .icu,
    .hlt, .reg .SCH_ADM_EVT, .reg .PRT_STS, .reg .PRT_CHG, .reg .MOV_STS, .reg .ICU_ERR, .reg .HLT_EVT]) := by simp [*]) :
    Keeps P s₀ (State.eyeSample x x_) := by
  simp only [covers_cons, covers_nil, and_true] at cv
  unfold State.eyeSample
  simp only []; (repeat' split) <;> (try simp only [Prod.ext_iff] at *) <;> subst_vars <;> simp +contextual (maxDischargeDepth := 60) [h, cv]

@[simp] theorem State.lifeSample_keeps (h : Keeps P s₀ x) (cv : Covers P ([.out, .free, .rings, .icu, .hlt, .reg .MOV_STS, .reg .ICU_ERR]) := by simp
    [*]) :
    Keeps P s₀ (State.lifeSample x) := by
  simp only [covers_cons, covers_nil, and_true] at cv
  unfold State.lifeSample
  simp (maxDischargeDepth := 60) [h, cv]

@[simp] theorem State.monitorSample_keeps (osc rails : List Nat) (eyes : List EyeIn) (h : Keeps P s₀ x) (cv : Covers P ([.out, .free, .pol, .ports,
    .devs, .rings, .cmds, .sched, .icu, .audit, .hlt, .reg .SCH_ADM_EVT, .reg .PRT_STS, .reg .PRT_CHG, .reg .MOV_STS, .reg .ICU_ERR, .reg .HLT_STS,
    .reg .HLT_EVT, .reg .SEC_EVT, .reg .SEC_AUDIT]) := by simp [*]) :
    Keeps P s₀ (State.monitorSample x osc rails eyes) := by
  simp only [covers_cons, covers_nil, and_true] at cv
  unfold State.monitorSample
  simp +contextual (maxDischargeDepth := 60) [h, cv]

@[simp] theorem State.thermalSample_keeps (temps : List Int) (h : Keeps P s₀ x) (cv : Covers P ([.out, .free, .tim, .pol, .ports, .links, .side,
    .devs, .ctxs, .cmgr, .txns, .rings, .entries, .cmds, .sched, .deal, .slices, .icu, .pool, .pwr, .twin, .smp, .audit, .mov, .hlt, .aer, .ind]
        ++ Part.regs) := by simp [*]) :
    Keeps P s₀ (State.thermalSample x temps) := by
  simp only [covers_cons, covers_nil, covers_append, covers_regs, and_true] at cv
  unfold State.thermalSample
  simp only []; (repeat' split) <;> (try simp only [Prod.ext_iff] at *) <;> subst_vars <;> simp +contextual (maxDischargeDepth := 60) [h, cv]

@[simp] theorem execMonitorSample_keeps (osc rails : List Nat) (eyes : List EyeIn) (t : Nat) (h : Keeps P s₀ x) (cv : Covers P ([.out, .free, .tim,
    .pol, .ports, .devs, .rings, .cmds, .sched, .icu, .audit, .hlt, .reg .SCH_ADM_EVT, .reg .PRT_STS, .reg .PRT_CHG, .reg .MOV_STS, .reg .ICU_ERR,
    .reg .HLT_STS, .reg .HLT_EVT, .reg .SEC_EVT, .reg .SEC_AUDIT]) := by simp [*]) :
    KeepsO P s₀ (execMonitorSample osc rails eyes t x) := by
  simp only [covers_cons, covers_nil, and_true] at cv
  unfold execMonitorSample
  simp (maxDischargeDepth := 60) [h, cv]

@[simp] theorem execThermalSample_keeps (temps : List Int) (t : Nat) (h : Keeps P s₀ x) (cv : Covers P ([.out, .free, .tim, .pol, .ports, .links,
    .side, .devs, .ctxs, .cmgr, .txns, .rings, .entries, .cmds, .sched, .deal, .slices, .icu, .pool, .pwr, .twin, .smp, .audit, .mov, .hlt, .aer,
        .ind] ++ Part.regs) := by simp [*]) :
    KeepsO P s₀ (execThermalSample temps t x) := by
  simp only [covers_cons, covers_nil, covers_append, covers_regs, and_true] at cv
  unfold execThermalSample
  simp (maxDischargeDepth := 60) [h, cv]

@[simp] theorem execTripComparatorSample_keeps (below : Bool) (h : Keeps P s₀ x) (cv : Covers P ([.hlt]) := by simp [*]) :
    KeepsO P s₀ (execTripComparatorSample below x) := by
  simp only [covers_cons, covers_nil, and_true] at cv
  unfold execTripComparatorSample
  simp (maxDischargeDepth := 60) [h, cv]

@[simp] theorem execSramCorrected_keeps (p : SramPlace) (t : Nat) (h : Keeps P s₀ x) (cv : Covers P ([.out, .free, .tim, .pol, .rings, .cmds, .icu,
    .audit, .hlt, .aer, .reg .MOV_STS, .reg .ICU_ERR, .reg .HLT_STS, .reg .HLT_EVT, .reg .SEC_EVT, .reg .SEC_AUDIT]) := by simp [*]) :
    KeepsO P s₀ (execSramCorrected p t x) := by
  simp only [covers_cons, covers_nil, and_true] at cv
  unfold execSramCorrected
  split <;> simp (maxDischargeDepth := 60) [h, cv]

@[simp] theorem execSramUncorrectable_keeps (b : Nat) (x_ : EccHit) (t : Nat) (h : Keeps P s₀ x) (cv : Covers P ([.out, .free, .tim, .pol, .ctxs,
    .cmgr, .txns, .rings, .entries, .cmds, .deal, .icu, .pool, .smp, .audit, .hlt, .aer, .reg .SCH_CTXCNT, .reg .MOV_STS, .reg .ICU_ERR, .reg
    .HLT_STS, .reg .HLT_EVT, .reg .SEC_EVT, .reg .SEC_AUDIT, .reg .CDR_EVT, .reg .CDR_FLG]) := by simp [*]) :
    KeepsO P s₀ (execSramUncorrectable b x_ t x) := by
  simp only [covers_cons, covers_nil, and_true] at cv
  unfold execSramUncorrectable
  simp (maxDischargeDepth := 60) [h, cv]

@[simp] theorem execSupplyExcursion_keeps (rail mv : Nat) (h : Keeps P s₀ x) (cv : Covers P ([.out, .free, .rings, .icu, .audit, .hlt, .reg .MOV_STS,
    .reg .ICU_ERR, .reg .HLT_STS, .reg .HLT_EVT, .reg .SEC_EVT, .reg .SEC_AUDIT]) := by simp [*]) :
    KeepsO P s₀ (execSupplyExcursion rail mv x) := by
  simp only [covers_cons, covers_nil, and_true] at cv
  unfold execSupplyExcursion
  simp (maxDischargeDepth := 60) [h, cv]

@[simp] theorem execRetireCopyDone_keeps (uncorr : Bool) (h : Keeps P s₀ x) (cv : Covers P ([.hlt]) := by simp [*]) :
    KeepsO P s₀ (execRetireCopyDone uncorr x) := by
  simp only [covers_cons, covers_nil, and_true] at cv
  unfold execRetireCopyDone
  simp (maxDischargeDepth := 60) [h, cv]

@[simp] theorem execHealthRecordWrite_keeps (h : Keeps P s₀ x) (cv : Covers P ([.hlt]) := by simp [*]) :
    KeepsO P s₀ (execHealthRecordWrite x) := by
  simp only [covers_cons, covers_nil, and_true] at cv
  unfold execHealthRecordWrite
  simp (maxDischargeDepth := 60) [h, cv]

@[simp] theorem execHltEvtRead_keeps (both : Bool) (h : Keeps P s₀ x) (cv : Covers P ([.out, .icu, .reg .ICU_ERR, .reg .HLT_EVT, .reg
    .HLT_EVT_SHADOW]) := by simp [*]) :
    KeepsO P s₀ (execHltEvtRead both x) := by
  simp only [covers_cons, covers_nil, and_true] at cv
  unfold execHltEvtRead
  simp (maxDischargeDepth := 60) [h, cv]

@[simp] theorem execSecEvtRead_keeps (both : Bool) (h : Keeps P s₀ x) (cv : Covers P ([.out, .icu, .reg .ICU_ERR, .reg .SEC_EVT, .reg
    .SEC_EVT_SHADOW]) := by simp [*]) :
    KeepsO P s₀ (execSecEvtRead both x) := by
  simp only [covers_cons, covers_nil, and_true] at cv
  unfold execSecEvtRead
  simp (maxDischargeDepth := 60) [h, cv]

@[simp] theorem execPorRelease_keeps (st : List StartIn) (h : Keeps P s₀ x) (cv : Covers P ([.out, .free, .tim, .pol, .ports, .links, .side,
    .devs, .ctxs, .cmgr, .txns, .rings, .entries, .cmds, .sched, .deal, .slices, .icu, .pool, .pwr, .twin, .smp, .audit, .mov, .hlt, .aer, .ind]
        ++ Part.regs) := by simp [*]) :
    KeepsO P s₀ (execPorRelease st x) := by
  simp only [covers_cons, covers_nil, covers_append, covers_regs, and_true] at cv
  unfold execPorRelease
  simp (maxDischargeDepth := 60) [h, cv]

@[simp] theorem execStartReady_keeps (t : Nat) (h : Keeps P s₀ x) (cv : Covers P ([.out, .free, .tim, .rings, .icu, .audit, .hlt, .reg .MOV_STS, .reg
    .ICU_ERR, .reg .HLT_STS, .reg .HLT_EVT, .reg .HLT_START, .reg .SEC_EVT, .reg .SEC_AUDIT]) := by simp [*]) :
    KeepsO P s₀ (execStartReady t x) := by
  simp only [covers_cons, covers_nil, and_true] at cv
  unfold execStartReady
  split <;> (try split) <;> simp +contextual (maxDischargeDepth := 60) [h, cv]

@[simp] theorem execStartWatchdog_keeps (st : List StartIn) (h : Keeps P s₀ x) (cv : Covers P ([.out, .free, .tim, .pol, .ports, .links, .side,
    .devs, .ctxs, .cmgr, .txns, .rings, .entries, .cmds, .sched, .deal, .slices, .icu, .pool, .pwr, .twin, .smp, .audit, .mov, .hlt, .aer, .ind]
        ++ Part.regs) := by simp [*]) :
    KeepsO P s₀ (execStartWatchdog st x) := by
  simp only [covers_cons, covers_nil, covers_append, covers_regs, and_true] at cv
  unfold execStartWatchdog
  simp (maxDischargeDepth := 60) [h, cv]

@[simp] theorem State.flrSuspend_keeps (silent t : Nat) (h : Keeps P s₀ x) (cv : Covers P ([.out, .ports, .links, .devs, .ctxs, .cmgr, .txns, .rings,
    .entries, .cmds, .deal, .icu, .pool, .pwr, .smp, .reg .SCH_CTXCNT, .reg .PRT_STS, .reg .PRT_CHG, .reg .MOV_STS, .reg .ICU_ERR, .reg .PWR_STS, .reg
    .PWR_WAKE, .reg .GTH_CNT, .reg .GTH_DROP, .reg .CDR_EVT, .reg .CDR_FLG]) := by simp [*]) :
    Keeps P s₀ (State.flrSuspend x silent t) := by
  simp only [covers_cons, covers_nil, and_true] at cv
  unfold State.flrSuspend
  simp +contextual (maxDischargeDepth := 60) [h, cv]

@[simp] theorem execFlr_keeps (silent bad : Nat) (digestOk : Bool) (st : List StartIn) (t : Nat) (h : Keeps P s₀ x) (cv : Covers P ([.out, .free,
    .tim, .pol, .ports, .links, .side, .devs, .ctxs, .cmgr, .txns, .rings, .entries, .cmds, .sched, .deal, .slices, .icu, .pool, .pwr, .twin,
        .smp, .audit, .mov, .hlt, .aer, .ind] ++ Part.regs) := by simp [*]) :
    KeepsO P s₀ (execFlr silent bad digestOk st t x) := by
  simp only [covers_cons, covers_nil, covers_append, covers_regs, and_true] at cv
  unfold execFlr
  simp (maxDischargeDepth := 60) [h, cv]

@[simp] theorem execHltRecord_keeps (r : Nat) (d : HostRead) (h : Keeps P s₀ x) (cv : Covers P ([.out, .rings, .cmds, .icu, .audit, .mov, .reg
    .MOV_STS, .reg .ICU_ERR, .reg .SLC_ERR, .reg .SEC_EVT, .reg .SEC_AUDIT]) := by simp [*]) :
    KeepsO P s₀ (execHltRecord r d x) := by
  simp only [covers_cons, covers_nil, and_true] at cv
  unfold execHltRecord
  simp +contextual (maxDischargeDepth := 60) [h, cv]

@[simp] theorem execHltPoolShrink_keeps (r : Nat) (d : HostRead) (h : Keeps P s₀ x) (cv : Covers P ([.out, .pol, .rings, .cmds, .icu, .audit, .mov,
    .hlt, .reg .MOV_STS, .reg .ICU_ERR, .reg .SLC_ERR, .reg .SEC_EVT, .reg .SEC_AUDIT]) := by simp [*]) :
    KeepsO P s₀ (execHltPoolShrink r d x) := by
  simp only [covers_cons, covers_nil, and_true] at cv
  unfold execHltPoolShrink
  simp +contextual (maxDischargeDepth := 60) [h, cv]

@[simp] theorem execPortEye_keeps (r : Nat) (d : HostRead) (points : Nat) (h : Keeps P s₀ x) (cv : Covers P ([.out, .rings, .cmds, .icu, .audit, .mov,
    .reg .MOV_STS, .reg .ICU_ERR, .reg .SLC_ERR, .reg .SEC_EVT, .reg .SEC_AUDIT]) := by simp [*]) :
    KeepsO P s₀ (execPortEye r d points x) := by
  simp only [covers_cons, covers_nil, and_true] at cv
  unfold execPortEye
  simp +contextual (maxDischargeDepth := 60) [h, cv]

@[simp] theorem State.fwCmd_keeps (c : CmdRec) (body : State → State) (h : Keeps P s₀ x) (hb : ∀ y, Keeps P s₀ y → Keeps P s₀ (body y)) (cv :
    Covers P ([.cmds, .reg .SEC_EVT]) := by simp [*]) :
    Keeps P s₀ (State.fwCmd x c body) := by
  simp only [covers_cons, covers_nil, and_true] at cv
  unfold State.fwCmd
  simp (maxDischargeDepth := 60) [h, hb, cv]

@[simp] theorem State.fwDone_keeps (c : CmdRec) (status result : Nat) (h : Keeps P s₀ x) (cv : Covers P ([.cmds, .reg .SEC_EVT]) := by simp [*]) :
    Keeps P s₀ (State.fwDone x c status result) := by
  simp only [covers_cons, covers_nil, and_true] at cv
  unfold State.fwDone
  simp (maxDischargeDepth := 60) [h, cv]

@[simp] theorem execFwStage_keeps (r : Nat) (d : HostRead) (h : Keeps P s₀ x) (cv : Covers P ([.out, .rings, .cmds, .icu, .audit, .mov, .hlt, .reg
    .MOV_STS, .reg .ICU_ERR, .reg .SLC_ERR, .reg .SEC_EVT, .reg .SEC_AUDIT]) := by simp [*]) :
    KeepsO P s₀ (execFwStage r d x) := by
  simp only [covers_cons, covers_nil, and_true] at cv
  unfold execFwStage
  simp +contextual (maxDischargeDepth := 60) [h, cv]

@[simp] theorem execFwStageDone_keeps (length : Nat) (img : Option FwSlot) (h : Keeps P s₀ x) (cv : Covers P ([.out, .rings, .cmds, .icu, .audit,
    .hlt, .reg .MOV_STS, .reg .ICU_ERR, .reg .SEC_EVT, .reg .SEC_AUDIT]) := by simp [*]) :
    KeepsO P s₀ (execFwStageDone length img x) := by
  simp only [covers_cons, covers_nil, and_true] at cv
  unfold execFwStageDone
  split <;> (try split) <;> simp +contextual (maxDischargeDepth := 60) [h, cv]

@[simp] theorem execFwActivate_keeps (r : Nat) (d : HostRead) (h : Keeps P s₀ x) (cv : Covers P ([.out, .rings, .cmds, .icu, .audit, .mov, .hlt, .reg
    .MOV_STS, .reg .ICU_ERR, .reg .SLC_ERR, .reg .HLT_START, .reg .SEC_EVT, .reg .SEC_AUDIT]) := by simp [*]) :
    KeepsO P s₀ (execFwActivate r d x) := by
  simp only [covers_cons, covers_nil, and_true] at cv
  unfold execFwActivate
  rw [keepsO_next]
  refine State.withCmd_keeps _ _ _ _ _ h fun c y hy => State.fwCmd_keeps _ _ hy fun z hz => ?_
  split <;> simp (maxDischargeDepth := 60) [hz, cv]

@[simp] theorem execFwCommit_keeps (r : Nat) (d : HostRead) (h : Keeps P s₀ x) (cv : Covers P ([.out, .rings, .cmds, .icu, .audit, .mov, .hlt, .reg
    .MOV_STS, .reg .ICU_ERR, .reg .SLC_ERR, .reg .HLT_START, .reg .SEC_STS, .reg .SEC_EVT, .reg .SEC_AUDIT]) := by simp [*]) :
    KeepsO P s₀ (execFwCommit r d x) := by
  simp only [covers_cons, covers_nil, and_true] at cv
  unfold execFwCommit
  simp +contextual (maxDischargeDepth := 60) [h, cv]

@[simp] theorem execFwQuery_keeps (r : Nat) (d : HostRead) (h : Keeps P s₀ x) (cv : Covers P ([.out, .rings, .cmds, .icu, .audit, .mov, .reg .MOV_STS,
    .reg .ICU_ERR, .reg .SLC_ERR, .reg .SEC_EVT, .reg .SEC_AUDIT]) := by simp [*]) :
    KeepsO P s₀ (execFwQuery r d x) := by
  simp only [covers_cons, covers_nil, and_true] at cv
  unfold execFwQuery
  simp +contextual (maxDischargeDepth := 60) [h, cv]

@[simp] theorem execCmdWriteback_keeps (r : Nat) (st : List StartIn) (h : Keeps P s₀ x) (cv : Covers P ([.out, .free, .tim, .pol, .ports, .links,
    .side, .devs, .ctxs, .cmgr, .txns, .rings, .entries, .cmds, .sched, .deal, .slices, .icu, .pool, .pwr, .twin, .smp, .audit, .mov, .hlt, .aer,
        .ind] ++ Part.regs) := by simp [*]) :
    KeepsO P s₀ (execCmdWriteback r st x) := by
  simp only [covers_cons, covers_nil, covers_append, covers_regs, and_true] at cv
  unfold execCmdWriteback
  split <;> simp (maxDischargeDepth := 60) [h, cv]

@[simp] theorem execZeroize_keeps (r : Nat) (d : HostRead) (st : List StartIn) (h : Keeps P s₀ x) (cv : Covers P ([.out, .free, .tim, .pol,
    .ports, .links, .side, .devs, .ctxs, .cmgr, .txns, .rings, .entries, .cmds, .sched, .deal, .slices, .icu, .pool, .pwr, .twin, .smp, .audit,
        .mov, .hlt, .aer, .ind] ++ Part.regs) := by simp [*]) :
    KeepsO P s₀ (execZeroize r d st x) := by
  simp only [covers_cons, covers_nil, covers_append, covers_regs, and_true] at cv
  unfold execZeroize
  simp +contextual (maxDischargeDepth := 60) [h, cv]

@[simp] theorem State.debugAudit_keeps (level what : Nat) (h : Keeps P s₀ x) (cv : Covers P ([.out, .free, .rings, .icu, .audit, .reg .MOV_STS, .reg
    .ICU_ERR, .reg .SEC_EVT, .reg .SEC_AUDIT]) := by simp [*]) :
    Keeps P s₀ (State.debugAudit x level what) := by
  simp only [covers_cons, covers_nil, and_true] at cv
  unfold State.debugAudit
  simp (maxDischargeDepth := 60) [h, cv]

@[simp] theorem execDebugResponse_keeps (level : Nat) (key sig : Bool) (h : Keeps P s₀ x) (cv : Covers P ([.out, .free, .rings, .icu, .audit, .hlt,
    .reg .MOV_STS, .reg .ICU_ERR, .reg .SEC_STS, .reg .SEC_EVT, .reg .SEC_AUDIT]) := by simp [*]) :
    KeepsO P s₀ (execDebugResponse level key sig x) := by
  simp only [covers_cons, covers_nil, and_true] at cv
  unfold execDebugResponse
  simp (maxDischargeDepth := 60) [h, cv]

@[simp] theorem execSecDbgAllowWrite_keeps (v : Nat) (h : Keeps P s₀ x) (cv : Covers P ([.out, .free, .rings, .icu, .audit, .reg .MOV_STS, .reg
    .ICU_ERR, .reg .SEC_STS, .reg .SEC_EVT, .reg .SEC_DBG_ALLOW, .reg .SEC_AUDIT]) := by simp [*]) :
    KeepsO P s₀ (execSecDbgAllowWrite v x) := by
  simp only [covers_cons, covers_nil, and_true] at cv
  unfold execSecDbgAllowWrite
  simp (maxDischargeDepth := 60) [h, cv]

end Sys2Proof.Machine
end

