-- ==== Sys2Proof/Laws/KeepsIcu.lean ====
section
/-! SUPPORT. Laws/KeepsIcu.lean: for each function of Machine/Icu.lean, the parts of the state that it leaves as they are. -/

namespace Sys2Proof.Machine

variable {P : Part → Bool} {s₀ x : State}

@[simp] theorem State.lineChange_keeps (x_ : Nat) (level : Bool) (h : Keeps P s₀ x) (cv : Covers P ([.out, .icu, .reg .ICU_ERR]) := by simp [*]) :
    Keeps P s₀ (State.lineChange x x_ level) := by
  simp only [covers_cons, covers_nil, and_true] at cv
  unfold State.lineChange
  simp (maxDischargeDepth := 60) [h, cv]

@[simp] theorem State.pset_keeps (x_ : Nat) (h : Keeps P s₀ x) (cv : Covers P ([.out, .icu, .reg .ICU_ERR]) := by simp [*]) :
    Keeps P s₀ (State.pset x x_) := by
  simp only [covers_cons, covers_nil, and_true] at cv
  unfold State.pset
  simp (maxDischargeDepth := 60) [h, cv]

@[simp] theorem State.pclr_keeps (x_ : Nat) (h : Keeps P s₀ x) (cv : Covers P ([.out, .icu, .reg .ICU_ERR]) := by simp [*]) :
    Keeps P s₀ (State.pclr x x_) := by
  simp only [covers_cons, covers_nil, and_true] at cv
  unfold State.pclr
  simp (maxDischargeDepth := 60) [h, cv]

@[simp] theorem State.eset_keeps (x_ : Nat) (h : Keeps P s₀ x) (cv : Covers P ([.out, .icu, .reg .ICU_ERR]) := by simp [*]) :
    Keeps P s₀ (State.eset x x_) := by
  simp only [covers_cons, covers_nil, and_true] at cv
  unfold State.eset
  simp (maxDischargeDepth := 60) [h, cv]

@[simp] theorem State.eclr_keeps (x_ : Nat) (h : Keeps P s₀ x) (cv : Covers P ([.icu]) := by simp [*]) :
    Keeps P s₀ (State.eclr x x_) := by
  simp only [covers_cons, covers_nil, and_true] at cv
  unfold State.eclr
  simp (maxDischargeDepth := 60) [h, cv]

@[simp] theorem State.srcArray_keeps (k mask : Nat) (fw : Bool) (f : State → Nat → State) (h : Keeps P s₀ x) (hb : ∀ y b1, Keeps P s₀ y → Keeps P
    s₀ (f y b1)) (cv : Covers P ([.icu, .reg .ICU_CORESTS, .reg .PWR_STS]) := by simp [*]) :
    Keeps P s₀ (State.srcArray x k mask fw f) := by
  simp only [covers_cons, covers_nil, and_true] at cv
  unfold State.srcArray
  simp +contextual (maxDischargeDepth := 60) [h, hb, cv]

@[simp] theorem State.sliArray_keeps (n mask : Nat) (f : State → Nat → State) (h : Keeps P s₀ x) (hb : ∀ y b1, Keeps P s₀ y → Keeps P s₀ (f y
    b1)) (cv : Covers P ([.icu, .reg .ICU_CORESTS, .reg .PWR_STS]) := by simp [*]) :
    Keeps P s₀ (State.sliArray x n mask f) := by
  simp only [covers_cons, covers_nil, and_true] at cv
  unfold State.sliArray
  simp +contextual (maxDischargeDepth := 60) [h, hb, cv]

@[simp] theorem State.srccfg_keeps (fw : Option Nat) (v : Nat) (h : Keeps P s₀ x) (cv : Covers P ([.out, .icu, .reg .ICU_CORESTS, .reg .ICU_ERR,
    .reg .PWR_STS]) := by simp [*]) :
    Keeps P s₀ (State.srccfg x fw v) := by
  simp only [covers_cons, covers_nil, and_true] at cv
  unfold State.srccfg
  simp (maxDischargeDepth := 60) [h, cv]

@[simp] theorem State.claim_keeps (n : Nat) (h : Keeps P s₀ x) (cv : Covers P ([.out, .icu, .reg .ICU_CORESTS, .reg .ICU_CMOD, .reg .PWR_STS]) :=
    by simp [*]) :
    Keeps P s₀ (State.claim x n) := by
  simp only [covers_cons, covers_nil, and_true] at cv
  unfold State.claim
  split <;> simp (maxDischargeDepth := 60) [h, cv]

@[simp] theorem State.handlerDone_keeps (n x_ : Nat) (h : Keeps P s₀ x) (cv : Covers P ([.out, .icu, .reg .ICU_CORESTS, .reg .ICU_ERR, .reg
    .PWR_STS]) := by simp [*]) :
    Keeps P s₀ (State.handlerDone x n x_) := by
  simp only [covers_cons, covers_nil, and_true] at cv
  unfold State.handlerDone
  simp (maxDischargeDepth := 60) [h, cv]

@[simp] theorem State.unheld_keeps (e : Nat) (h : Keeps P s₀ x) (cv : Covers P ([.out, .icu]) := by simp [*]) :
    Keeps P s₀ (State.unheld x e) := by
  simp only [covers_cons, covers_nil, and_true] at cv
  unfold State.unheld
  simp (maxDischargeDepth := 60) [h, cv]

@[simp] theorem execSourceLineChange_keeps (x_ : Nat) (level : Bool) (t : Nat) (h : Keeps P s₀ x) (cv : Covers P ([.out, .tim, .icu, .reg
    .ICU_CORESTS, .reg .ICU_ERR, .reg .PWR_STS]) := by simp [*]) :
    KeepsO P s₀ (execSourceLineChange x_ level t x) := by
  simp only [covers_cons, covers_nil, and_true] at cv
  unfold execSourceLineChange
  simp (maxDischargeDepth := 60) [h, cv]

@[simp] theorem execIcuPset_keeps (k mask : Nat) (fw : Bool) (t : Nat) (h : Keeps P s₀ x) (cv : Covers P ([.out, .tim, .icu, .reg .ICU_CORESTS,
    .reg .ICU_ERR, .reg .PWR_STS]) := by simp [*]) :
    KeepsO P s₀ (execIcuPset k mask fw t x) := by
  simp only [covers_cons, covers_nil, and_true] at cv
  unfold execIcuPset
  split <;> simp +contextual (maxDischargeDepth := 60) [h, cv]

@[simp] theorem execIcuPclr_keeps (k mask : Nat) (fw : Bool) (t : Nat) (h : Keeps P s₀ x) (cv : Covers P ([.out, .tim, .icu, .reg .ICU_CORESTS,
    .reg .ICU_ERR, .reg .PWR_STS]) := by simp [*]) :
    KeepsO P s₀ (execIcuPclr k mask fw t x) := by
  simp only [covers_cons, covers_nil, and_true] at cv
  unfold execIcuPclr
  split <;> simp +contextual (maxDischargeDepth := 60) [h, cv]

@[simp] theorem execIcuEset_keeps (k mask : Nat) (fw : Bool) (t : Nat) (h : Keeps P s₀ x) (cv : Covers P ([.out, .tim, .icu, .reg .ICU_CORESTS,
    .reg .ICU_ERR, .reg .PWR_STS]) := by simp [*]) :
    KeepsO P s₀ (execIcuEset k mask fw t x) := by
  simp only [covers_cons, covers_nil, and_true] at cv
  unfold execIcuEset
  split <;> simp +contextual (maxDischargeDepth := 60) [h, cv]

@[simp] theorem execIcuEclr_keeps (k mask : Nat) (fw : Bool) (t : Nat) (h : Keeps P s₀ x) (cv : Covers P ([.tim, .icu, .reg .ICU_CORESTS, .reg
    .PWR_STS]) := by simp [*]) :
    KeepsO P s₀ (execIcuEclr k mask fw t x) := by
  simp only [covers_cons, covers_nil, and_true] at cv
  unfold execIcuEclr
  split <;> simp +contextual (maxDischargeDepth := 60) [h, cv]

@[simp] theorem execSliPset_keeps (n mask t : Nat) (h : Keeps P s₀ x) (cv : Covers P ([.out, .tim, .icu, .reg .ICU_CORESTS, .reg .ICU_ERR, .reg
    .PWR_STS]) := by simp [*]) :
    KeepsO P s₀ (execSliPset n mask t x) := by
  simp only [covers_cons, covers_nil, and_true] at cv
  unfold execSliPset
  simp +contextual (maxDischargeDepth := 60) [h, cv]

@[simp] theorem execSliPclr_keeps (n mask t : Nat) (h : Keeps P s₀ x) (cv : Covers P ([.out, .tim, .icu, .reg .ICU_CORESTS, .reg .ICU_ERR, .reg
    .PWR_STS]) := by simp [*]) :
    KeepsO P s₀ (execSliPclr n mask t x) := by
  simp only [covers_cons, covers_nil, and_true] at cv
  unfold execSliPclr
  simp +contextual (maxDischargeDepth := 60) [h, cv]

@[simp] theorem execSliEset_keeps (n mask t : Nat) (h : Keeps P s₀ x) (cv : Covers P ([.out, .tim, .icu, .reg .ICU_CORESTS, .reg .ICU_ERR, .reg
    .PWR_STS]) := by simp [*]) :
    KeepsO P s₀ (execSliEset n mask t x) := by
  simp only [covers_cons, covers_nil, and_true] at cv
  unfold execSliEset
  simp +contextual (maxDischargeDepth := 60) [h, cv]

@[simp] theorem execSliEclr_keeps (n mask t : Nat) (h : Keeps P s₀ x) (cv : Covers P ([.tim, .icu, .reg .ICU_CORESTS, .reg .PWR_STS]) := by simp
    [*]) :
    KeepsO P s₀ (execSliEclr n mask t x) := by
  simp only [covers_cons, covers_nil, and_true] at cv
  unfold execSliEclr
  simp +contextual (maxDischargeDepth := 60) [h, cv]

@[simp] theorem execIcuSrccfgWrite_keeps (fw : Option Nat) (v t : Nat) (h : Keeps P s₀ x) (cv : Covers P ([.out, .tim, .icu, .reg .ICU_CORESTS,
    .reg .ICU_ERR, .reg .PWR_STS]) := by simp [*]) :
    KeepsO P s₀ (execIcuSrccfgWrite fw v t x) := by
  simp only [covers_cons, covers_nil, and_true] at cv
  unfold execIcuSrccfgWrite
  split <;> simp (maxDischargeDepth := 60) [h, cv]

@[simp] theorem execIcuClaim_keeps (n t : Nat) (h : Keeps P s₀ x) (cv : Covers P ([.out, .tim, .icu, .reg .ICU_CORESTS, .reg .ICU_CMOD, .reg
    .PWR_STS]) := by simp [*]) :
    KeepsO P s₀ (execIcuClaim n t x) := by
  simp only [covers_cons, covers_nil, and_true] at cv
  unfold execIcuClaim
  simp (maxDischargeDepth := 60) [h, cv]

@[simp] theorem execIcuDone_keeps (n x_ t : Nat) (h : Keeps P s₀ x) (cv : Covers P ([.out, .tim, .icu, .reg .ICU_CORESTS, .reg .ICU_ERR, .reg
    .PWR_STS]) := by simp [*]) :
    KeepsO P s₀ (execIcuDone n x_ t x) := by
  simp only [covers_cons, covers_nil, and_true] at cv
  unfold execIcuDone
  simp (maxDischargeDepth := 60) [h, cv]

@[simp] theorem execCoreReturn_keeps (n t : Nat) (h : Keeps P s₀ x) (cv : Covers P ([.tim, .icu, .reg .ICU_CORESTS, .reg .PWR_STS]) := by simp [*]) :
    KeepsO P s₀ (execCoreReturn n t x) := by
  simp only [covers_cons, covers_nil, and_true] at cv
  unfold execCoreReturn
  simp (maxDischargeDepth := 60) [h, cv]

@[simp] theorem execVectorModerationTimeout_keeps (e t : Nat) (h : Keeps P s₀ x) (cv : Covers P ([.out, .tim, .icu]) := by simp [*]) :
    KeepsO P s₀ (execVectorModerationTimeout e t x) := by
  simp only [covers_cons, covers_nil, and_true] at cv
  unfold execVectorModerationTimeout
  simp (maxDischargeDepth := 60) [h, cv]

@[simp] theorem execSliIdleWrite_keeps (n mask t : Nat) (h : Keeps P s₀ x) (cv : Covers P ([.out, .tim, .icu]) := by simp [*]) :
    KeepsO P s₀ (execSliIdleWrite n mask t x) := by
  simp only [covers_cons, covers_nil, and_true] at cv
  unfold execSliIdleWrite
  simp +contextual (maxDischargeDepth := 60) [h, cv]

@[simp] theorem execIcuVstsWrite_keeps (v t : Nat) (h : Keeps P s₀ x) (cv : Covers P ([.out, .tim, .icu]) := by simp [*]) :
    KeepsO P s₀ (execIcuVstsWrite v t x) := by
  simp only [covers_cons, covers_nil, and_true] at cv
  unfold execIcuVstsWrite
  simp (maxDischargeDepth := 60) [h, cv]

@[simp] theorem execMsixUnmask_keeps (e : Option Nat) (en fm : Bool) (t : Nat) (h : Keeps P s₀ x) (cv : Covers P ([.out, .tim, .icu]) := by simp [*])
    :
    KeepsO P s₀ (execMsixUnmask e en fm t x) := by
  simp only [covers_cons, covers_nil, and_true] at cv
  unfold execMsixUnmask
  split <;> (try split) <;> simp +contextual (maxDischargeDepth := 60) [h, cv]

end Sys2Proof.Machine
end

