-- ==== Sys2Proof/Laws/KeepsPower.lean ====
section
/-! SUPPORT. Laws/KeepsPower.lean: for each function of Machine/Power.lean, the parts of the state that it leaves as they are. -/

namespace Sys2Proof.Machine

variable {P : Part → Bool} {s₀ x : State}

@[simp] theorem State.startEntry_keeps (target : Nat) (byPolicy : Bool) (h : Keeps P s₀ x) (cv : Covers P ([.pwr, .reg .PWR_STS, .reg .PWR_MODE])
    := by simp [*]) :
    Keeps P s₀ (State.startEntry x target byPolicy) := by
  simp only [covers_cons, covers_nil, and_true] at cv
  unfold State.startEntry
  simp (maxDischargeDepth := 60) [h, cv]

@[simp] theorem State.queueRequest_keeps (target : Nat) (byPolicy : Bool) (h : Keeps P s₀ x) (cv : Covers P ([.out, .rings, .icu, .pwr, .reg .MOV_STS,
    .reg .ICU_ERR, .reg .PWR_STS, .reg .PWR_EVT]) := by simp [*]) :
    Keeps P s₀ (State.queueRequest x target byPolicy) := by
  simp only [covers_cons, covers_nil, and_true] at cv
  unfold State.queueRequest
  simp (maxDischargeDepth := 60) [h, cv]

@[simp] theorem State.takeRequest_keeps (target : Nat) (byPolicy : Bool) (h : Keeps P s₀ x) (cv : Covers P ([.out, .rings, .icu, .pwr, .reg .MOV_STS,
    .reg .ICU_ERR, .reg .PWR_STS, .reg .PWR_EVT, .reg .PWR_WAKE, .reg .PWR_MODE]) := by simp [*]) :
    Keeps P s₀ (State.takeRequest x target byPolicy) := by
  simp only [covers_cons, covers_nil, and_true] at cv
  unfold State.takeRequest
  simp (maxDischargeDepth := 60) [h, cv]

@[simp] theorem State.takeQueued_keeps (h : Keeps P s₀ x) (cv : Covers P ([.pwr, .reg .PWR_STS, .reg .PWR_MODE]) := by simp [*]) :
    Keeps P s₀ (State.takeQueued x) := by
  simp only [covers_cons, covers_nil, and_true] at cv
  unfold State.takeQueued
  simp (maxDischargeDepth := 60) [h, cv]

@[simp] theorem State.coresRun_keeps (h : Keeps P s₀ x) (cv : Covers P ([.icu, .reg .ICU_CORESTS, .reg .PWR_STS, .reg .PWR_MODE]) := by simp [*]) :
    Keeps P s₀ (State.coresRun x) := by
  simp only [covers_cons, covers_nil, and_true] at cv
  unfold State.coresRun
  simp +contextual (maxDischargeDepth := 60) [h, cv]

@[simp] theorem State.abortPoint_keeps (k : Nat) (go : State → State) (h : Keeps P s₀ x) (hb : ∀ y, Keeps P s₀ y → Keeps P s₀ (go y)) (cv : Covers P
    ([.out, .rings, .icu, .pwr, .reg .MOV_STS, .reg .ICU_CORESTS, .reg .ICU_ERR, .reg .PWR_STS, .reg .PWR_EVT, .reg .PWR_RCNT, .reg .PWR_MODE]) := by
    simp [*]) :
    Keeps P s₀ (State.abortPoint x k go) := by
  simp only [covers_cons, covers_nil, and_true] at cv
  unfold State.abortPoint
  split <;> simp (maxDischargeDepth := 60) [h, hb, cv]

@[simp] theorem State.refuseEarly_keeps (ids : List Nat) (h : Keeps P s₀ x) (cv : Covers P ([.out, .rings, .icu, .pwr, .reg .MOV_STS, .reg
    .ICU_CORESTS, .reg .ICU_ERR, .reg .PWR_STS, .reg .PWR_EVT, .reg .PWR_RCNT, .reg .PWR_MODE]) := by simp [*]) :
    Keeps P s₀ (State.refuseEarly x ids) := by
  simp only [covers_cons, covers_nil, and_true] at cv
  unfold State.refuseEarly
  simp +contextual (maxDischargeDepth := 60) [h, cv]

@[simp] theorem State.portsStop_keeps (h : Keeps P s₀ x) (cv : Covers P ([.out, .ports, .links, .devs, .ctxs, .cmgr, .txns, .rings, .entries, .cmds,
    .deal, .icu, .pool, .pwr, .smp, .reg .SCH_CTXCNT, .reg .PRT_STS, .reg .MOV_STS, .reg .ICU_ERR, .reg .GTH_CNT, .reg .GTH_DROP, .reg .CDR_EVT, .reg
    .CDR_FLG]) := by simp [*]) :
    Keeps P s₀ (State.portsStop x) := by
  simp only [covers_cons, covers_nil, and_true] at cv
  unfold State.portsStop
  simp +contextual (maxDischargeDepth := 60) [h, cv]

@[simp] theorem State.afterEntry_keeps (h : Keeps P s₀ x) (cv : Covers P ([.out, .pwr, .reg .PWR_STS, .reg .PWR_WAKE]) := by simp [*]) :
    Keeps P s₀ (State.afterEntry x) := by
  simp only [covers_cons, covers_nil, and_true] at cv
  unfold State.afterEntry
  split <;> (try split) <;> (try split) <;> simp +contextual (maxDischargeDepth := 60) [h, cv]

@[simp] theorem State.lastScan_keeps (h : Keeps P s₀ x) (cv : Covers P ([.out]) := by simp [*]) :
    Keeps P s₀ (State.lastScan x) := by
  simp only [covers_cons, covers_nil, and_true] at cv
  unfold State.lastScan
  (repeat' split) <;> (try simp only [Prod.ext_iff] at *) <;> (try subst_vars) <;> simp +contextual (maxDischargeDepth := 60) [h, cv]

@[simp] theorem State.enterTarget_keeps (h : Keeps P s₀ x) (cv : Covers P ([.out, .free, .tim, .pol, .ports, .links, .side, .devs, .ctxs, .cmgr,
    .txns, .rings, .entries, .cmds, .sched, .deal, .slices, .icu, .pool, .pwr, .twin, .smp, .audit, .mov, .hlt, .aer, .ind] ++ Part.regs) := by
        simp [*]) :
    Keeps P s₀ (State.enterTarget x) := by
  simp only [covers_cons, covers_nil, covers_append, covers_regs, and_true] at cv
  unfold State.enterTarget
  split <;> simp (maxDischargeDepth := 60) [h, cv]

@[simp] theorem State.reachRun_keeps (h : Keeps P s₀ x) (cv : Covers P ([.out, .rings, .icu, .pwr, .reg .MOV_STS, .reg .ICU_CORESTS, .reg .ICU_ERR,
    .reg .PWR_STS, .reg .PWR_EVT, .reg .PWR_LAT, .reg .PWR_MODE]) := by simp [*]) :
    Keeps P s₀ (State.reachRun x) := by
  simp only [covers_cons, covers_nil, and_true] at cv
  unfold State.reachRun
  simp (maxDischargeDepth := 60) [h, cv]

@[simp] theorem State.restoreRow_keeps (row bad : Nat) (digestOk good : Bool) (st : List StartIn) (t : Nat) (h : Keeps P s₀ x) (cv : Covers P
    ([.out, .free, .tim, .pol, .ports, .links, .side, .devs, .ctxs, .cmgr, .txns, .rings, .entries, .cmds, .sched, .deal, .slices, .icu, .pool,
        .pwr, .twin, .smp, .audit, .mov, .hlt, .aer, .ind] ++ Part.regs) := by simp [*]) :
    Keeps P s₀ (State.restoreRow x row bad digestOk good st t) := by
  simp only [covers_cons, covers_nil, covers_append, covers_regs, and_true] at cv
  unfold State.restoreRow
  split <;> simp (maxDischargeDepth := 60) [h, cv]

@[simp] theorem execPwrRequest_keeps (v vn : Option Nat) (t : Nat) (h : Keeps P s₀ x) (cv : Covers P ([.out, .tim, .rings, .icu, .pwr, .reg .MOV_STS,
    .reg .ICU_ERR, .reg .PWR_REQ, .reg .PWR_REQ_N, .reg .PWR_STS, .reg .PWR_EVT, .reg .PWR_WAKE, .reg .PWR_MODE]) := by simp [*]) :
    KeepsO P s₀ (execPwrRequest v vn t x) := by
  simp only [covers_cons, covers_nil, and_true] at cv
  unfold execPwrRequest
  split <;> (try split) <;> simp +contextual (maxDischargeDepth := 60) [h, cv]

@[simp] theorem execCoreWait_keeps (n mode t : Nat) (h : Keeps P s₀ x) (cv : Covers P ([.out, .tim, .rings, .icu, .pwr, .reg .MOV_STS, .reg
    .ICU_CORESTS, .reg .ICU_ERR, .reg .PWR_STS, .reg .PWR_EVT, .reg .PWR_RCNT, .reg .PWR_MODE]) := by simp [*]) :
    KeepsO P s₀ (execCoreWait n mode t x) := by
  simp only [covers_cons, covers_nil, and_true] at cv
  unfold execCoreWait
  simp (maxDischargeDepth := 60) [h, cv]

@[simp] theorem execConsentDone_keeps (pcieOk : Bool) (t : Nat) (h : Keeps P s₀ x) (cv : Covers P ([.out, .tim, .rings, .icu, .pwr, .reg .MOV_STS,
    .reg .ICU_CORESTS, .reg .ICU_ERR, .reg .PWR_STS, .reg .PWR_EVT, .reg .PWR_RCNT, .reg .PWR_MODE]) := by simp [*]) :
    KeepsO P s₀ (execConsentDone pcieOk t x) := by
  simp only [covers_cons, covers_nil, and_true] at cv
  unfold execConsentDone
  simp (maxDischargeDepth := 60) [h, cv]

@[simp] theorem execDealerStopped_keeps (h_ : CtxHost) (t : Nat) (h : Keeps P s₀ x) (cv : Covers P ([.out, .tim, .ports, .links, .devs, .ctxs, .cmgr,
    .txns, .rings, .entries, .cmds, .deal, .icu, .pool, .pwr, .smp, .reg .SCH_CTXCNT, .reg .PRT_STS, .reg .MOV_STS, .reg .ICU_CORESTS, .reg .ICU_ERR,
    .reg .PWR_STS, .reg .PWR_EVT, .reg .PWR_WAKE, .reg .PWR_RCNT, .reg .GTH_CNT, .reg .GTH_DROP, .reg .CDR_EVT, .reg .CDR_FLG, .reg .PWR_MODE]) := by
    simp [*]) :
    KeepsO P s₀ (execDealerStopped h_ t x) := by
  simp only [covers_cons, covers_nil, and_true] at cv
  unfold execDealerStopped
  split
  · dsimp only
    rw [keepsO_next]
    have hf : Keeps P s₀ (if (x.at_ t).fget .PWR_STS_TARGET = 3 then
        ((x.at_ t).ctxs.map Prod.fst).foldl (fun (a : State × Bool) e => let (s1, st) := a.1.ctxFlush h_ e; (s1, a.2 && st == stOk)) (x.at_ t, true)
      else (x.at_ t, true)).1 := by
      split
      · exact keeps_foldl_pair _ (State.at__keeps _ h) fun v a hv => State.ctxFlush_keeps _ _ hv
      · exact State.at__keeps _ h
    exact keeps_ite (State.abortPoint_keeps _ _ hf fun y hy => State.portsStop_keeps hy) (State.lateRefusal_keeps _ hf)
  · simp (maxDischargeDepth := 60) [h, cv]

@[simp] theorem execPortsStopped_keeps (t : Nat) (h : Keeps P s₀ x) (cv : Covers P ([.out, .tim, .rings, .icu, .pwr, .reg .MOV_STS, .reg .ICU_CORESTS,
    .reg .ICU_ERR, .reg .PWR_STS, .reg .PWR_EVT, .reg .PWR_RCNT, .reg .PWR_MODE]) := by simp [*]) :
    KeepsO P s₀ (execPortsStopped t x) := by
  simp only [covers_cons, covers_nil, and_true] at cv
  unfold execPortsStopped
  simp (maxDischargeDepth := 60) [h, cv]

@[simp] theorem execMoverTwinStopped_keeps (t : Nat) (h : Keeps P s₀ x) (cv : Covers P ([.out, .tim, .rings, .icu, .pwr, .twin, .reg .MOV_STS, .reg
    .ICU_CORESTS, .reg .ICU_ERR, .reg .PWR_STS, .reg .PWR_EVT, .reg .PWR_WAKE, .reg .PWR_RCNT, .reg .TWN_STS, .reg .PWR_MODE]) := by simp [*]) :
    KeepsO P s₀ (execMoverTwinStopped t x) := by
  simp only [covers_cons, covers_nil, and_true] at cv
  unfold execMoverTwinStopped
  simp +contextual (maxDischargeDepth := 60) [h, cv]

@[simp] theorem execMoverStopTimeout_keeps (t : Nat) (h : Keeps P s₀ x) (cv : Covers P ([.out, .tim, .rings, .icu, .pwr, .reg .MOV_STS, .reg .ICU_ERR,
    .reg .PWR_STS, .reg .PWR_EVT, .reg .PWR_WAKE, .reg .PWR_RCNT]) := by simp [*]) :
    KeepsO P s₀ (execMoverStopTimeout t x) := by
  simp only [covers_cons, covers_nil, and_true] at cv
  unfold execMoverStopTimeout
  simp (maxDischargeDepth := 60) [h, cv]

@[simp] theorem execPcieStopped_keeps (t : Nat) (h : Keeps P s₀ x) (cv : Covers P ([.out, .free, .tim, .pol, .ports, .links, .side, .devs, .ctxs,
    .cmgr, .txns, .rings, .entries, .cmds, .sched, .deal, .slices, .icu, .pool, .pwr, .twin, .smp, .audit, .mov, .hlt, .aer, .ind] ++ Part.regs)
        := by simp [*]) :
    KeepsO P s₀ (execPcieStopped t x) := by
  simp only [covers_cons, covers_nil, covers_append, covers_regs, and_true] at cv
  unfold execPcieStopped
  simp +contextual (maxDischargeDepth := 60) [h, cv]

@[simp] theorem execPcieStopTimeout_keeps (t : Nat) (h : Keeps P s₀ x) (cv : Covers P ([.out, .tim, .rings, .icu, .pwr, .reg .MOV_STS, .reg .ICU_ERR,
    .reg .PWR_STS, .reg .PWR_EVT, .reg .PWR_WAKE, .reg .PWR_RCNT]) := by simp [*]) :
    KeepsO P s₀ (execPcieStopTimeout t x) := by
  simp only [covers_cons, covers_nil, and_true] at cv
  unfold execPcieStopTimeout
  simp (maxDischargeDepth := 60) [h, cv]

@[simp] theorem execWakeNInput_keeps (t : Nat) (h : Keeps P s₀ x) (cv : Covers P ([.out, .tim, .pwr, .reg .PWR_STS, .reg .PWR_WAKE]) := by simp [*]) :
    KeepsO P s₀ (execWakeNInput t x) := by
  simp only [covers_cons, covers_nil, and_true] at cv
  unfold execWakeNInput
  simp (maxDischargeDepth := 60) [h, cv]

@[simp] theorem execWakeSenseTrip_keeps (v lasted t : Nat) (h : Keeps P s₀ x) (cv : Covers P ([.out, .tim, .pwr, .reg .PWR_STS, .reg .PWR_EVT,
    .reg .PWR_SENSE, .reg .PWR_WAKE]) := by simp [*]) :
    KeepsO P s₀ (execWakeSenseTrip v lasted t x) := by
  simp only [covers_cons, covers_nil, and_true] at cv
  unfold execWakeSenseTrip
  simp (maxDischargeDepth := 60) [h, cv]

@[simp] theorem execPcieWake_keeps (t : Nat) (h : Keeps P s₀ x) (cv : Covers P ([.out, .tim, .pwr, .reg .PWR_STS, .reg .PWR_WAKE]) := by simp [*]) :
    KeepsO P s₀ (execPcieWake t x) := by
  simp only [covers_cons, covers_nil, and_true] at cv
  unfold execPcieWake
  simp (maxDischargeDepth := 60) [h, cv]

@[simp] theorem execTwinSignalWake_keeps (t : Nat) (h : Keeps P s₀ x) (cv : Covers P ([.out, .tim, .pwr, .reg .PWR_STS, .reg .PWR_WAKE]) := by
    simp [*]) :
    KeepsO P s₀ (execTwinSignalWake t x) := by
  simp only [covers_cons, covers_nil, and_true] at cv
  unfold execTwinSignalWake
  simp (maxDischargeDepth := 60) [h, cv]

@[simp] theorem execRestoreStep_keeps (bad : Nat) (digestOk good : Bool) (st : List StartIn) (t : Nat) (h : Keeps P s₀ x) (cv : Covers P ([.out,
    .free, .tim, .pol, .ports, .links, .side, .devs, .ctxs, .cmgr, .txns, .rings, .entries, .cmds, .sched, .deal, .slices, .icu, .pool, .pwr,
        .twin, .smp, .audit, .mov, .hlt, .aer, .ind] ++ Part.regs) := by simp [*]) :
    KeepsO P s₀ (execRestoreStep bad digestOk good st t x) := by
  simp only [covers_cons, covers_nil, covers_append, covers_regs, and_true] at cv
  unfold execRestoreStep
  split <;> simp (maxDischargeDepth := 60) [h, cv]

@[simp] theorem execPwrSenseWrite_keeps (v : Nat) (h : Keeps P s₀ x) (cv : Covers P ([.reg .PWR_SENSE]) := by simp [*]) :
    KeepsO P s₀ (execPwrSenseWrite v x) := by
  simp only [covers_cons, covers_nil, and_true] at cv
  unfold execPwrSenseWrite
  simp (maxDischargeDepth := 60) [h, cv]

@[simp] theorem execPwrEvtRead_keeps (both : Bool) (h : Keeps P s₀ x) (cv : Covers P ([.out, .icu, .reg .ICU_ERR, .reg .PWR_EVT, .reg
    .PWR_EVT_SHADOW]) := by simp [*]) :
    KeepsO P s₀ (execPwrEvtRead both x) := by
  simp only [covers_cons, covers_nil, and_true] at cv
  unfold execPwrEvtRead
  simp (maxDischargeDepth := 60) [h, cv]

@[simp] theorem execPerstNAssert_keeps (h : Keeps P s₀ x) (cv : Covers P ([.out, .free, .tim, .pol, .ports, .links, .side, .devs, .ctxs, .cmgr,
    .txns, .rings, .entries, .cmds, .sched, .deal, .slices, .icu, .pool, .pwr, .twin, .smp, .audit, .mov, .hlt, .aer, .ind] ++ Part.regs) := by
        simp [*]) :
    KeepsO P s₀ (execPerstNAssert x) := by
  simp only [covers_cons, covers_nil, covers_append, covers_regs, and_true] at cv
  unfold execPerstNAssert
  simp (maxDischargeDepth := 60) [h, cv]

@[simp] theorem execPerstNRelease_keeps (st : List StartIn) (t : Nat) (h : Keeps P s₀ x) (cv : Covers P ([.out, .free, .tim, .pol, .ports,
    .links, .side, .devs, .ctxs, .cmgr, .txns, .rings, .entries, .cmds, .sched, .deal, .slices, .icu, .pool, .pwr, .twin, .smp, .audit, .mov,
        .hlt, .aer, .ind] ++ Part.regs) := by simp [*]) :
    KeepsO P s₀ (execPerstNRelease st t x) := by
  simp only [covers_cons, covers_nil, covers_append, covers_regs, and_true] at cv
  unfold execPerstNRelease
  simp (maxDischargeDepth := 60) [h, cv]

@[simp] theorem execPwrGoodLow_keeps (st : List StartIn) (h : Keeps P s₀ x) (cv : Covers P ([.out, .free, .tim, .pol, .ports, .links, .side,
    .devs, .ctxs, .cmgr, .txns, .rings, .entries, .cmds, .sched, .deal, .slices, .icu, .pool, .pwr, .twin, .smp, .audit, .mov, .hlt, .aer, .ind]
        ++ Part.regs) := by simp [*]) :
    KeepsO P s₀ (execPwrGoodLow st x) := by
  simp only [covers_cons, covers_nil, covers_append, covers_regs, and_true] at cv
  unfold execPwrGoodLow
  simp (maxDischargeDepth := 60) [h, cv]

@[simp] theorem execVaonLoss_keeps (h : Keeps P s₀ x) (cv : Covers P ([.out, .free, .tim, .pol, .ports, .links, .side, .devs, .ctxs, .cmgr,
    .txns, .rings, .entries, .cmds, .sched, .deal, .slices, .icu, .pool, .pwr, .twin, .smp, .audit, .mov, .hlt, .aer, .ind] ++ Part.regs) := by
        simp [*]) :
    KeepsO P s₀ (execVaonLoss x) := by
  simp only [covers_cons, covers_nil, covers_append, covers_regs, and_true] at cv
  unfold execVaonLoss
  simp (maxDischargeDepth := 60) [h, cv]

end Sys2Proof.Machine
end

