-- ==== Sys2Proof/Laws/KeepsTick.lean ====
section
/-! SUPPORT. Laws/KeepsTick.lean: for each function of Machine/Tick.lean, the parts of the state that it leaves as they are. -/

namespace Sys2Proof.Machine

variable {P : Part → Bool} {s₀ x : State}

@[simp] theorem State.traceShare_keeps (t : Nat) (sl : Option Nat) (a : Nat) (d d' : Int) (h : Keeps P s₀ x) (cv : Covers P ([.out, .rings, .deal,
    .icu, .reg .MOV_STS, .reg .ICU_ERR]) := by simp [*]) :
    Keeps P s₀ (State.traceShare x t sl a d d') := by
  simp only [covers_cons, covers_nil, and_true] at cv
  unfold State.traceShare
  simp (maxDischargeDepth := 60) [h, cv]

@[simp] theorem State.shareApply_keeps (x_ : Nat × Nat) (h : Keeps P s₀ x) (cv : Covers P ([.out, .rings, .deal, .icu, .reg .MOV_STS, .reg .ICU_ERR])
    := by simp [*]) :
    Keeps P s₀ (State.shareApply x x_) := by
  simp only [covers_cons, covers_nil, and_true] at cv
  unfold State.shareApply
  simp (maxDischargeDepth := 60) [h, cv]

@[simp] theorem State.groupApply_keeps (t g : Nat) (h : Keeps P s₀ x) (cv : Covers P ([.out, .rings, .deal, .icu, .reg .MOV_STS, .reg .ICU_ERR]) := by
    simp [*]) :
    Keeps P s₀ (State.groupApply x t g) := by
  simp only [covers_cons, covers_nil, and_true] at cv
  unfold State.groupApply
  simp (maxDischargeDepth := 60) [h, cv]

@[simp] theorem State.shareTick_keeps (h : Keeps P s₀ x) (cv : Covers P ([.out, .rings, .deal, .icu, .reg .MOV_STS, .reg .ICU_ERR]) := by simp [*]) :
    Keeps P s₀ (State.shareTick x) := by
  simp only [covers_cons, covers_nil, and_true] at cv
  unfold State.shareTick
  simp +contextual (maxDischargeDepth := 60) [h, cv]

@[simp] theorem State.handTake_keeps (n : Nat) (first : Bool) (h : Keeps P s₀ x) (cv : Covers P ([.out, .ctxs, .rings, .entries, .deal, .icu, .pool,
    .reg .MOV_STS, .reg .ICU_ERR]) := by simp [*]) :
    Keeps P s₀ (State.handTake x n first) := by
  simp only [covers_cons, covers_nil, and_true] at cv
  unfold State.handTake
  dsimp only
  split
  · simp (maxDischargeDepth := 60) [h, cv]
  · exact State.onDeal_keeps _ (keeps_foldl _ (State.onDeal_keeps _ h) fun y a hy => State.toHead_keeps _ hy)

@[simp] theorem State.treeTick_keeps (h_ : CtxHost) (n : Nat) (h : Keeps P s₀ x) (cv : Covers P ([.out, .ctxs, .cmgr, .txns, .rings, .entries, .deal,
    .slices, .icu, .pool, .twin, .smp, .reg .SCH_CTXCNT, .reg .MOV_STS, .reg .ICU_ERR, .reg .GTH_CNT, .reg .GTH_DROP, .reg .CDR_EVT, .reg .CDR_FLG])
    := by simp [*]) :
    Keeps P s₀ (State.treeTick h_ x n) := by
  simp only [covers_cons, covers_nil, and_true] at cv
  unfold State.treeTick
  simp (maxDischargeDepth := 60) [h, cv]

@[simp] theorem State.cfgTick_keeps (n : Nat) (h : Keeps P s₀ x) (cv : Covers P ([.out, .ports, .devs, .rings, .cmds, .sched, .icu, .reg .SCH_ADM_EVT,
    .reg .PRT_STS, .reg .PRT_CHG, .reg .MOV_STS, .reg .ICU_ERR]) := by simp [*]) :
    Keeps P s₀ (State.cfgTick x n) := by
  simp only [covers_cons, covers_nil, and_true] at cv
  unfold State.cfgTick
  simp (maxDischargeDepth := 60) [h, cv]

@[simp] theorem State.rateTick_keeps (n : Nat) (h : Keeps P s₀ x) (cv : Covers P ([.out, .ports, .links, .devs, .rings, .cmds, .sched, .icu, .reg
    .SCH_ADM_EVT, .reg .PRT_STS, .reg .PRT_CHG, .reg .MOV_STS, .reg .ICU_ERR]) := by simp [*]) :
    Keeps P s₀ (State.rateTick x n) := by
  simp only [covers_cons, covers_nil, and_true] at cv
  unfold State.rateTick
  have he : Keeps P s₀ (x.emptyOver (.root n) x.frameNo) := by simp [h, cv]
  simp only []
  generalize x.emptyOver (.root n) x.frameNo = y at he ⊢
  (repeat' split) <;> simp (maxDischargeDepth := 60) [he, cv]

@[simp] theorem State.trimTick_keeps (h : Keeps P s₀ x) (cv : Covers P ([.tim]) := by simp [*]) :
    Keeps P s₀ (State.trimTick x) := by
  simp only [covers_cons, covers_nil, and_true] at cv
  unfold State.trimTick
  simp (maxDischargeDepth := 60) [h, cv]

@[simp] theorem State.frameSend_keeps (owned : List Nat) (corr : List Int) (n : Nat) (h : Keeps P s₀ x) (cv : Covers P ([.out, .links, .txns]) :=
    by simp [*]) :
    Keeps P s₀ (State.frameSend x owned corr n) := by
  simp only [covers_cons, covers_nil, and_true] at cv
  unfold State.frameSend
  simp (maxDischargeDepth := 60) [h, cv]

@[simp] theorem State.dirTick_keeps (h : Keeps P s₀ x) (cv : Covers P ([.out, .cmgr, .rings, .icu, .reg .MOV_STS, .reg .ICU_ERR]) := by simp [*]) :
    Keeps P s₀ (State.dirTick x) := by
  simp only [covers_cons, covers_nil, and_true] at cv
  unfold State.dirTick
  simp (maxDischargeDepth := 60) [h, cv]

@[simp] theorem State.policyTick_keeps (h : Keeps P s₀ x) (cv : Covers P ([.out, .pol, .rings, .icu, .audit, .reg .MOV_STS, .reg .ICU_ERR, .reg
    .SEC_EVT, .reg .SEC_AUDIT]) := by simp [*]) :
    Keeps P s₀ (State.policyTick x) := by
  simp only [covers_cons, covers_nil, and_true] at cv
  unfold State.policyTick
  simp (maxDischargeDepth := 60) [h, cv]

@[simp] theorem State.shareSet_keeps (v : Nat) (h : Keeps P s₀ x) (cv : Covers P ([.pol]) := by simp [*]) :
    Keeps P s₀ (State.shareSet x v) := by
  simp only [covers_cons, covers_nil, and_true] at cv
  unfold State.shareSet
  simp (maxDischargeDepth := 60) [h, cv]

@[simp] theorem State.throttleLower_keeps (h : Keeps P s₀ x) (cv : Covers P ([.out, .pol, .rings, .icu, .reg .GCTL_POLICY_STS, .reg .MOV_STS, .reg
    .ICU_ERR]) := by simp [*]) :
    Keeps P s₀ (State.throttleLower x) := by
  simp only [covers_cons, covers_nil, and_true] at cv
  unfold State.throttleLower
  simp only []; (repeat' split) <;> (try simp only [Prod.ext_iff] at *) <;> subst_vars <;> simp +contextual (maxDischargeDepth := 60) [h, cv]

@[simp] theorem State.throttleTick_keeps (behind : Nat) (h : Keeps P s₀ x) (cv : Covers P ([.out, .pol, .rings, .icu, .reg .GCTL_POLICY_STS, .reg
    .MOV_STS, .reg .ICU_ERR]) := by simp [*]) :
    Keeps P s₀ (State.throttleTick x behind) := by
  simp only [covers_cons, covers_nil, and_true] at cv
  unfold State.throttleTick
  simp (maxDischargeDepth := 60) [h, cv]

@[simp] theorem State.sliceTick_keeps (h_ : CtxHost) (n : Nat) (h : Keeps P s₀ x) (cv : Covers P ([.out, .ctxs, .cmgr, .txns, .rings, .entries, .cmds,
    .deal, .slices, .icu, .pool, .mov, .reg .SCH_CTXCNT, .reg .MOV_STS, .reg .ICU_ERR, .reg .SLC_STS, .reg .SLT_EVT]) := by simp [*]) :
    Keeps P s₀ (State.sliceTick h_ x n) := by
  simp only [covers_cons, covers_nil, and_true] at cv
  unfold State.sliceTick
  simp (maxDischargeDepth := 60) [h, cv]

@[simp] theorem State.frameEnd_keeps (h_ : CtxHost) (h : Keeps P s₀ x) (cv : Covers P ([.out, .ctxs, .cmgr, .txns, .rings, .entries, .sched, .deal,
    .slices, .icu, .pool, .twin, .smp, .reg .SCH_ADM_STS, .reg .SCH_ADM_EVT, .reg .SCH_DYN_CNT, .reg .SCH_CTXCNT, .reg .MOV_STS, .reg .ICU_ERR, .reg
    .GTH_CNT, .reg .GTH_DROP, .reg .CDR_EVT, .reg .CDR_FLG]) := by simp [*]) :
    Keeps P s₀ (State.frameEnd x h_) := by
  simp only [covers_cons, covers_nil, and_true] at cv
  unfold State.frameEnd
  simp +contextual (maxDischargeDepth := 60) [h, cv]

@[simp] theorem State.boundary_keeps (h_ : CtxHost) (h : Keeps P s₀ x) (cv : Covers P ([.out, .free, .tim, .pol, .ports, .links, .devs, .ctxs, .cmgr,
    .txns, .rings, .entries, .cmds, .sched, .deal, .slices, .icu, .pool, .twin, .smp, .audit, .mov, .hlt, .reg .GCTL_POLICY_STS, .reg .SCH_ADM_EVT,
    .reg .SCH_LAST_SWITCH, .reg .SCH_CTXCNT, .reg .PRT_STS, .reg .PRT_CHG, .reg .MOV_STS, .reg .ICU_ERR, .reg .SLC_STS, .reg .HLT_STS, .reg .HLT_EVT,
    .reg .HLT_POOL, .reg .HLT_RETIRED, .reg .SEC_EVT, .reg .SEC_AUDIT, .reg .GTH_CNT, .reg .GTH_DROP, .reg .CDR_EVT, .reg .CDR_FLG, .reg .SLT_EVT]) :=
    by simp [*]) :
    Keeps P s₀ (State.boundary x h_) := by
  simp only [covers_cons, covers_nil, and_true] at cv
  unfold State.boundary
  simp +contextual (maxDischargeDepth := 60) [h, cv]

@[simp] theorem State.frameStart_keeps (h_ : CtxHost) (corr : List Int) (tTx : Nat) (started : Bool) (h : Keeps P s₀ x) (cv : Covers P ([.out, .ports,
    .links, .devs, .ctxs, .cmgr, .txns, .rings, .entries, .cmds, .sched, .deal, .slices, .icu, .pool, .twin, .smp, .reg .SCH_ADM_EVT, .reg
    .SCH_CTXCNT, .reg .PRT_STS, .reg .PRT_CHG, .reg .MOV_STS, .reg .ICU_ERR, .reg .TWN_STS, .reg .TWN_EVT, .reg .TWN_WARM, .reg .GTH_CNT, .reg
    .GTH_DROP, .reg .CDR_EVT, .reg .CDR_FLG]) := by simp [*]) :
    Keeps P s₀ (State.frameStart x h_ corr tTx started) := by
  simp only [covers_cons, covers_nil, and_true] at cv
  unfold State.frameStart
  simp +contextual (maxDischargeDepth := 60) [h, cv]

@[simp] theorem State.frameTick_keeps (corr : List Int) (behind tTx : Nat) (h_ : CtxHost) (h : Keeps P s₀ x) (cv : Covers P ([.out, .free, .tim, .pol,
    .ports, .links, .devs, .ctxs, .cmgr, .txns, .rings, .entries, .cmds, .sched, .deal, .slices, .icu, .pool, .twin, .smp, .audit, .mov, .hlt, .reg
    .GCTL_POLICY_STS, .reg .TIM_STS, .reg .TIM_EVT, .reg .TIM_FRATE_ACT, .reg .SCH_ADM_STS, .reg .SCH_ADM_EVT, .reg .SCH_LAST_SWITCH, .reg
    .SCH_DYN_CNT, .reg .SCH_CTXCNT, .reg .PRT_STS, .reg .PRT_CHG, .reg .MOV_STS, .reg .ICU_ERR, .reg .SLC_STS, .reg .HLT_STS, .reg .HLT_EVT, .reg
    .HLT_POOL, .reg .HLT_RETIRED, .reg .SEC_EVT, .reg .SEC_AUDIT, .reg .TWN_STS, .reg .TWN_EVT, .reg .TWN_WARM, .reg .GTH_CNT, .reg .GTH_DROP, .reg
    .CDR_EVT, .reg .CDR_FLG, .reg .SLT_EVT]) := by simp [*]) :
    Keeps P s₀ (State.frameTick x corr behind tTx h_) := by
  simp only [covers_cons, covers_nil, and_true] at cv
  unfold State.frameTick
  simp (maxDischargeDepth := 60) [h, cv]

@[simp] theorem State.guardRate_keeps (p : PortId) (h : Keeps P s₀ x) (cv : Covers P ([.out, .ports, .devs, .rings, .cmds, .icu, .reg .PRT_STS, .reg
    .PRT_CHG, .reg .MOV_STS, .reg .ICU_ERR]) := by simp [*]) :
    Keeps P s₀ (State.guardRate x p) := by
  simp only [covers_cons, covers_nil, and_true] at cv
  unfold State.guardRate
  (repeat' split) <;> (try simp only [Prod.ext_iff] at *) <;> (try subst_vars) <;> simp +contextual (maxDischargeDepth := 60) [h, cv]

@[simp] theorem State.guardPort_keeps (t n : Nat) (h : Keeps P s₀ x) (cv : Covers P ([.out, .ports, .links, .devs, .ctxs, .rings, .entries, .cmds,
    .deal, .icu, .pool, .reg .SCH_ADM_STS, .reg .SCH_DYN_CNT, .reg .PRT_STS, .reg .PRT_CHG, .reg .MOV_STS, .reg .ICU_ERR]) := by simp [*]) :
    Keeps P s₀ (State.guardPort t x n) := by
  simp only [covers_cons, covers_nil, and_true] at cv
  unfold State.guardPort
  (repeat' split) <;> (try simp only [Prod.ext_iff] at *) <;> (try subst_vars) <;> simp +contextual (maxDischargeDepth := 60) [h, cv]

@[simp] theorem State.guardHubs_keeps (h : Keeps P s₀ x) (cv : Covers P ([.out, .ports, .devs, .rings, .cmds, .icu, .reg .PRT_STS, .reg .PRT_CHG, .reg
    .MOV_STS, .reg .ICU_ERR]) := by simp [*]) :
    Keeps P s₀ (State.guardHubs x) := by
  simp only [covers_cons, covers_nil, and_true] at cv
  unfold State.guardHubs
  (repeat' split) <;> (try simp only [Prod.ext_iff] at *) <;> (try subst_vars) <;> simp +contextual (maxDischargeDepth := 60) [h, cv]

@[simp] theorem execFrameTick_keeps (corr : List Int) (behind tTx : Nat) (h_ : CtxHost) (h : Keeps P s₀ x) (cv : Covers P ([.out, .free, .tim, .pol,
    .ports, .links, .devs, .ctxs, .cmgr, .txns, .rings, .entries, .cmds, .sched, .deal, .slices, .icu, .pool, .twin, .smp, .audit, .mov, .hlt, .reg
    .GCTL_POLICY_STS, .reg .TIM_STS, .reg .TIM_EVT, .reg .TIM_FRATE_ACT, .reg .SCH_ADM_STS, .reg .SCH_ADM_EVT, .reg .SCH_LAST_SWITCH, .reg
    .SCH_DYN_CNT, .reg .SCH_CTXCNT, .reg .PRT_STS, .reg .PRT_CHG, .reg .MOV_STS, .reg .ICU_ERR, .reg .SLC_STS, .reg .HLT_STS, .reg .HLT_EVT, .reg
    .HLT_POOL, .reg .HLT_RETIRED, .reg .SEC_EVT, .reg .SEC_AUDIT, .reg .TWN_STS, .reg .TWN_EVT, .reg .TWN_WARM, .reg .GTH_CNT, .reg .GTH_DROP, .reg
    .CDR_EVT, .reg .CDR_FLG, .reg .SLT_EVT]) := by simp [*]) :
    KeepsO P s₀ (execFrameTick corr behind tTx h_ x) := by
  simp only [covers_cons, covers_nil, and_true] at cv
  unfold execFrameTick
  simp (maxDischargeDepth := 60) [h, cv]

@[simp] theorem execHandDeadline_keeps (cuts : List (Nat × Nat)) (h : Keeps P s₀ x) (cv : Covers P ([.out, .free, .tim, .ctxs, .cmgr, .txns, .rings,
    .entries, .cmds, .sched, .deal, .slices, .icu, .pool, .twin, .smp, .reg .SCH_ADM_EVT, .reg .SCH_DYN_CNT, .reg .SCH_CTXCNT, .reg .MOV_STS, .reg
    .ICU_ERR, .reg .GTH_CNT, .reg .GTH_DROP, .reg .CDR_EVT, .reg .CDR_FLG]) := by simp [*]) :
    KeepsO P s₀ (execHandDeadline cuts x) := by
  simp only [covers_cons, covers_nil, and_true] at cv
  unfold execHandDeadline
  simp (maxDischargeDepth := 60) [h, cv]

@[simp] theorem execGuardBandStart_keeps (t : Nat) (h : Keeps P s₀ x) (cv : Covers P ([.out, .tim, .ports, .links, .devs, .ctxs, .rings, .entries,
    .cmds, .deal, .icu, .pool, .twin, .reg .SCH_ADM_STS, .reg .SCH_DYN_CNT, .reg .PRT_STS, .reg .PRT_CHG, .reg .MOV_STS, .reg .ICU_ERR]) := by simp
    [*]) :
    KeepsO P s₀ (execGuardBandStart t x) := by
  simp only [covers_cons, covers_nil, and_true] at cv
  unfold execGuardBandStart
  simp +contextual (maxDischargeDepth := 60) [h, cv]

@[simp] theorem State.applyAdvice_keeps (c : CmdRec) (a : Advice) (t : Nat) (h : Keeps P s₀ x) (cv : Covers P ([.out, .pol, .ports, .links, .devs,
    .rings, .cmds, .sched, .icu, .pwr, .twin, .hlt, .reg .SCH_ADM_EVT, .reg .PRT_STS, .reg .PRT_CHG, .reg .MOV_STS, .reg .ICU_ERR, .reg .PWR_STS, .reg
    .PWR_EVT, .reg .PWR_WAKE, .reg .PWR_MODE]) := by simp [*]) :
    Keeps P s₀ (State.applyAdvice x c a t) := by
  simp only [covers_cons, covers_nil, and_true] at cv
  unfold State.applyAdvice
  simp (maxDischargeDepth := 60) [h, cv]

@[simp] theorem execApplyAdvice_keeps (r : Nat) (d : HostRead) (t : Nat) (h : Keeps P s₀ x) (cv : Covers P ([.out, .tim, .pol, .ports, .links, .devs,
    .rings, .cmds, .sched, .icu, .pwr, .twin, .audit, .mov, .hlt, .reg .SCH_ADM_EVT, .reg .PRT_STS, .reg .PRT_CHG, .reg .MOV_STS, .reg .ICU_ERR, .reg
    .SLC_ERR, .reg .PWR_STS, .reg .PWR_EVT, .reg .PWR_WAKE, .reg .SEC_EVT, .reg .SEC_AUDIT, .reg .PWR_MODE]) := by simp [*]) :
    KeepsO P s₀ (execApplyAdvice r d t x) := by
  simp only [covers_cons, covers_nil, and_true] at cv
  unfold execApplyAdvice
  rw [keepsO_next]
  refine State.withCmd_keeps _ _ _ _ _ (State.at__keeps _ h) fun c y hy => ?_
  dsimp only
  split <;> simp (maxDischargeDepth := 60) [hy, cv]

@[simp] theorem execPolicyPowerIdle_keeps (h : Keeps P s₀ x) (cv : Covers P ([.out, .pol, .rings, .icu, .pwr, .reg .MOV_STS, .reg .ICU_ERR, .reg
    .PWR_STS, .reg .PWR_EVT, .reg .PWR_WAKE, .reg .PWR_MODE]) := by simp [*]) :
    KeepsO P s₀ (execPolicyPowerIdle x) := by
  simp only [covers_cons, covers_nil, and_true] at cv
  unfold execPolicyPowerIdle
  simp only []; (repeat' split) <;> (try simp only [Prod.ext_iff] at *) <;> subst_vars <;> simp +contextual (maxDischargeDepth := 60) [h, cv]

end Sys2Proof.Machine
end

