-- ==== Sys2Proof/Laws/KeepsRegs.lean ====
section
/-! SUPPORT. Laws/KeepsRegs.lean: for each function of Machine/Regs.lean, the parts of the state that it leaves as they are. -/

namespace Sys2Proof.Machine

variable {P : Part → Bool} {s₀ x : State}

@[simp] theorem State.store_keeps (r : Reg) (i mask data : Nat) (h : Keeps P s₀ x) (cv : Covers P ([.reg r]) := by simp [*]) :
    Keeps P s₀ (State.store x r i mask data) := by
  simp only [covers_cons, covers_nil, and_true] at cv
  unfold State.store
  simp (maxDischargeDepth := 60) [h, cv]

@[simp] theorem State.after_keeps (o : Host.Outcome State Fault Refusal) (h : Keeps P s₀ x) (ho : KeepsO P s₀ o) :
    Keeps P s₀ (State.after x o) := by
  unfold State.after
  split
  · exact ho _ rfl
  · exact h

@[simp] theorem State.chanStore_keeps (r : Reg) (n mask data : Nat) (h : Keeps P s₀ x) (cv : Covers P ([.reg .MOV_GEVT, .reg r]) := by simp [*]) :
    Keeps P s₀ (State.chanStore x r n mask data) := by
  simp only [covers_cons, covers_nil, and_true] at cv
  unfold State.chanStore
  simp (maxDischargeDepth := 60) [h, cv]

@[simp] theorem State.modWrite_keeps (e mask data : Nat) (h : Keeps P s₀ x) (cv : Covers P ([.icu]) := by simp [*]) :
    Keeps P s₀ (State.modWrite x e mask data) := by
  simp only [covers_cons, covers_nil, and_true] at cv
  unfold State.modWrite
  simp (maxDischargeDepth := 60) [h, cv]

@[simp] theorem State.idleSet_keeps (e data : Nat) (h : Keeps P s₀ x) (cv : Covers P ([.out, .icu]) := by simp [*]) :
    Keeps P s₀ (State.idleSet x e data) := by
  simp only [covers_cons, covers_nil, and_true] at cv
  unfold State.idleSet
  simp (maxDischargeDepth := 60) [h, cv]

@[simp] theorem State.stage_keeps (tenant : Bool) (i data : Nat) (h : Keeps P s₀ x) (cv : Covers P ([.slices]) := by simp [*]) :
    Keeps P s₀ (State.stage x tenant i data) := by
  simp only [covers_cons, covers_nil, and_true] at cv
  unfold State.stage
  simp (maxDischargeDepth := 60) [h, cv]

@[simp] theorem State.indWrite_keeps (data : Nat) (h : Keeps P s₀ x) (cv : Covers P ([.ind, .reg .IND_ADDR]) := by simp [*]) :
    Keeps P s₀ (State.indWrite x data) := by
  simp only [covers_cons, covers_nil, and_true] at cv
  unfold State.indWrite
  simp (maxDischargeDepth := 60) [h, cv]

@[simp] theorem State.indBusy_keeps (be : Nat) (h : Keeps P s₀ x) (cv : Covers P ([.reg .GCTL_ACCESS_ERR, .reg .GCTL_ACCESS_ADDR]) := by simp [*]) :
    Keeps P s₀ (State.indBusy x be) := by
  simp only [covers_cons, covers_nil, and_true] at cv
  unfold State.indBusy
  simp (maxDischargeDepth := 60) [h, cv]

@[simp] theorem State.regWrite_keeps (r : Reg) (i mask data t : Nat) (h : Keeps P s₀ x) (cv : Covers P ([.out, .free, .tim, .pol, .ports, .links,
    .devs, .ctxs, .cmgr, .txns, .rings, .entries, .cmds, .sched, .deal, .slices, .icu, .pool, .pwr, .twin, .smp, .audit, .mov, .ind, .reg
    .GCTL_ACCESS_ERR, .reg .GCTL_ACCESS_ADDR, .reg .TIM_STS, .reg .TIM_EVT, .reg .SCH_SPILL_BASE, .reg .SCH_SPILL_STS, .reg .SCH_DYN_CNT, .reg
    .SCH_MRING_CTL, .reg .SCH_CTXCNT, .reg .PRT_CTL, .reg .PRT_STS, .reg .PRT_CHG, .reg .MOV_SRC, .reg .MOV_DST, .reg .MOV_CNT, .reg .MOV_CTL, .reg
    .MOV_STS, .reg .MOV_GCFG, .reg .MOV_GEVT, .reg .ICU_CORESTS, .reg .ICU_ERR, .reg .SLC_STS, .reg .SLC_ERR, .reg .PWR_REQ, .reg .PWR_REQ_N, .reg
    .PWR_STS, .reg .PWR_EVT, .reg .PWR_WAKE, .reg .PWR_RCNT, .reg .SEC_STS, .reg .SEC_EVT, .reg .SEC_DBG_ALLOW, .reg .SEC_AUDIT, .reg .TWN_CFG, .reg
    .TWN_STS, .reg .GTH_CNT, .reg .GTH_DROP, .reg .CDR_EVT, .reg .CDR_FLG, .reg .IND_ADDR, .reg .MBM_EVT, .reg .MBT_EVT, .reg .SLT_EVT, .reg
    .PWR_MODE, .reg r]) := by simp [*]) :
    Keeps P s₀ (State.regWrite x r i mask data t) := by
  simp only [covers_cons, covers_nil, and_true] at cv
  unfold State.regWrite
  split <;> simp +contextual (maxDischargeDepth := 60) [h, cv]

@[simp] theorem State.aliasBit_keeps (bar o data t : Nat) (h : Keeps P s₀ x) (cv : Covers P ([.out, .free, .tim, .pol, .ports, .links, .devs,
    .ctxs, .cmgr, .txns, .rings, .entries, .cmds, .sched, .deal, .slices, .icu, .pool, .pwr, .twin, .smp, .audit, .mov, .ind] ++ Part.regs) := by
        simp [*]) :
    Keeps P s₀ (State.aliasBit x bar o data t) := by
  simp only [covers_cons, covers_nil, covers_append, covers_regs, and_true] at cv
  unfold State.aliasBit
  split <;> (try split) <;> simp +contextual (maxDischargeDepth := 60) [h, cv]

@[simp] theorem State.dwWrite_keeps (bar o data t : Nat) (h : Keeps P s₀ x) (cv : Covers P ([.out, .free, .tim, .pol, .ports, .links, .devs, .ctxs,
    .cmgr, .txns, .rings, .entries, .cmds, .sched, .deal, .slices, .icu, .pool, .pwr, .twin, .smp, .audit, .mov, .ind] ++ Part.regs) := by simp
        [*]) :
    Keeps P s₀ (State.dwWrite x bar o data t) := by
  simp only [covers_cons, covers_nil, covers_append, covers_regs, and_true] at cv
  unfold State.dwWrite
  split <;> (try split) <;> (try split) <;> simp +contextual (maxDischargeDepth := 60) [h, cv]

@[simp] theorem State.pairWrite_keeps (bar o lo hi t : Nat) (h : Keeps P s₀ x) (cv : Covers P ([.out, .free, .tim, .pol, .ports, .links, .devs,
    .ctxs, .cmgr, .txns, .rings, .entries, .cmds, .sched, .deal, .slices, .icu, .pool, .pwr, .twin, .smp, .audit, .mov, .ind] ++ Part.regs) := by
        simp [*]) :
    Keeps P s₀ (State.pairWrite x bar o lo hi t) := by
  simp only [covers_cons, covers_nil, covers_append, covers_regs, and_true] at cv
  unfold State.pairWrite
  split <;> (try split) <;> simp +contextual (maxDischargeDepth := 60) [h, cv]

@[simp] theorem State.dwsWrite_keeps (bar o : Nat) (l : List Nat) (t a5 : Nat) (h : Keeps P s₀ x) (cv : Covers P ([.out, .free, .tim, .pol, .ports,
    .links, .devs, .ctxs, .cmgr, .txns, .rings, .entries, .cmds, .sched, .deal, .slices, .icu, .pool, .pwr, .twin, .smp, .audit, .mov, .ind] ++
        Part.regs) := by simp [*]) :
    Keeps P s₀ (State.dwsWrite x bar o l t a5) := by
  simp only [covers_cons, covers_nil, covers_append, covers_regs, and_true] at cv
  revert h
  fun_induction State.dwsWrite x bar o l t a5 <;> intro h <;> (try simp only [Prod.ext_iff] at *) <;> (try subst_vars) <;> simp_all +contextual
      (maxDischargeDepth := 60)

@[simp] theorem State.reqWrite_keeps (bar o : Nat) (dws : List (Nat × Nat)) (t : Nat) (h : Keeps P s₀ x) (cv : Covers P ([.out, .free, .tim, .pol,
    .ports, .links, .devs, .ctxs, .cmgr, .txns, .rings, .entries, .cmds, .sched, .deal, .slices, .icu, .pool, .pwr, .twin, .smp, .audit, .mov,
        .ind] ++ Part.regs) := by simp [*]) :
    Keeps P s₀ (State.reqWrite x bar o dws t) := by
  simp only [covers_cons, covers_nil, covers_append, covers_regs, and_true] at cv
  unfold State.reqWrite
  simp only []; (repeat' split) <;> (try simp only [Prod.ext_iff] at *) <;> subst_vars <;> simp +contextual (maxDischargeDepth := 60) [h, cv]

@[simp] theorem State.indAdvance_keeps (h : Keeps P s₀ x) (cv : Covers P ([.reg .IND_ADDR]) := by simp [*]) :
    Keeps P s₀ (State.indAdvance x) := by
  simp only [covers_cons, covers_nil, and_true] at cv
  unfold State.indAdvance
  simp (maxDischargeDepth := 60) [h, cv]

@[simp] theorem State.indUnmapped_keeps (h : Keeps P s₀ x) (cv : Covers P ([.reg .GCTL_ACCESS_ERR, .reg .GCTL_ACCESS_ADDR]) := by simp [*]) :
    Keeps P s₀ (State.indUnmapped x) := by
  simp only [covers_cons, covers_nil, and_true] at cv
  unfold State.indUnmapped
  simp (maxDischargeDepth := 60) [h, cv]

@[simp] theorem execRegisterWrite_keeps (bar ofs : Nat) (dws : List (Nat × Nat)) (t : Nat) (h : Keeps P s₀ x) (cv : Covers P ([.out, .free, .tim,
    .pol, .ports, .links, .devs, .ctxs, .cmgr, .txns, .rings, .entries, .cmds, .sched, .deal, .slices, .icu, .pool, .pwr, .twin, .smp, .audit,
        .mov, .ind] ++ Part.regs) := by simp [*]) :
    KeepsO P s₀ (execRegisterWrite bar ofs dws t x) := by
  simp only [covers_cons, covers_nil, covers_append, covers_regs, and_true] at cv
  unfold execRegisterWrite
  simp (maxDischargeDepth := 60) [h, cv]

@[simp] theorem execAliasWrite_keeps (bar ofs be data t : Nat) (h : Keeps P s₀ x) (cv : Covers P ([.out, .free, .tim, .pol, .ports, .links, .devs,
    .ctxs, .cmgr, .txns, .rings, .entries, .cmds, .sched, .deal, .slices, .icu, .pool, .pwr, .twin, .smp, .audit, .mov, .ind] ++ Part.regs) := by
        simp [*]) :
    KeepsO P s₀ (execAliasWrite bar ofs be data t x) := by
  simp only [covers_cons, covers_nil, covers_append, covers_regs, and_true] at cv
  unfold execAliasWrite
  simp (maxDischargeDepth := 60) [h, cv]

@[simp] theorem execIndDataRead_keeps (narrow wide : Bool) (h : Keeps P s₀ x) (cv : Covers P ([.out, .reg .GCTL_ACCESS_ERR, .reg
    .GCTL_ACCESS_ADDR, .reg .IND_ADDR]) := by simp [*]) :
    KeepsO P s₀ (execIndDataRead narrow wide x) := by
  simp only [covers_cons, covers_nil, and_true] at cv
  unfold execIndDataRead
  simp (maxDischargeDepth := 60) [h, cv]

@[simp] theorem execIndDataWrite_keeps (be data : Nat) (h : Keeps P s₀ x) (cv : Covers P ([.ind, .reg .GCTL_ACCESS_ERR, .reg .GCTL_ACCESS_ADDR,
    .reg .IND_ADDR]) := by simp [*]) :
    KeepsO P s₀ (execIndDataWrite be data x) := by
  simp only [covers_cons, covers_nil, and_true] at cv
  unfold execIndDataWrite
  simp (maxDischargeDepth := 60) [h, cv]

@[simp] theorem execIndAccessDone_keeps (h : Keeps P s₀ x) (cv : Covers P ([.ind] ++ Part.regs) := by simp [*]) :
    KeepsO P s₀ (execIndAccessDone x) := by
  simp only [covers_cons, covers_nil, covers_append, covers_regs, and_true] at cv
  unfold execIndAccessDone
  simp only []; (repeat' split) <;> (try simp only [Prod.ext_iff] at *) <;> subst_vars <;> simp +contextual (maxDischargeDepth := 60) [h, cv]

@[simp] theorem execGctlAccessErrRead_keeps (wide : Bool) (h : Keeps P s₀ x) (cv : Covers P ([.out, .icu, .reg .GCTL_ACCESS_ERR, .reg
    .GCTL_ACCESS_ERR_SHADOW, .reg .ICU_ERR]) := by simp [*]) :
    KeepsO P s₀ (execGctlAccessErrRead wide x) := by
  simp only [covers_cons, covers_nil, and_true] at cv
  unfold execGctlAccessErrRead
  simp (maxDischargeDepth := 60) [h, cv]

@[simp] theorem execPcieTlpError_keeps (e : TlpError) (answered : Bool) (h : Keeps P s₀ x) (cv : Covers P ([.out, .aer]) := by simp [*]) :
    KeepsO P s₀ (execPcieTlpError e answered x) := by
  simp only [covers_cons, covers_nil, and_true] at cv
  unfold execPcieTlpError
  simp (maxDischargeDepth := 60) [h, cv]

end Sys2Proof.Machine
end

