-- ==== Sys2Proof/Laws/KeepsToken.lean ====
section
/-! SUPPORT. Laws/KeepsToken.lean: for each function of Machine/Token.lean, the parts of the state that it leaves as they are. -/

namespace Sys2Proof.Machine

variable {P : Part → Bool} {s₀ x : State}

@[simp] theorem State.sendTokenState_keeps (d up : Nat) (h : Keeps P s₀ x) (cv : Covers P ([.out, .links]) := by simp [*]) :
    Keeps P s₀ (State.sendTokenState x d up) := by
  simp only [covers_cons, covers_nil, and_true] at cv
  unfold State.sendTokenState
  simp (maxDischargeDepth := 60) [h, cv]

@[simp] theorem State.onToken_keeps (d : Nat) (f : HubToken → HubToken) (h : Keeps P s₀ x) (cv : Covers P ([.devs]) := by simp [*]) :
    Keeps P s₀ (State.onToken x d f) := by
  simp only [covers_cons, covers_nil, and_true] at cv
  unfold State.onToken
  simp (maxDischargeDepth := 60) [h, cv]

@[simp] theorem State.changeHolder_keeps (d up : Nat) (h : Keeps P s₀ x) (cv : Covers P ([.out, .links, .devs]) := by simp [*]) :
    Keeps P s₀ (State.changeHolder x d up) := by
  simp only [covers_cons, covers_nil, and_true] at cv
  unfold State.changeHolder
  simp only []; (repeat' split) <;> (try simp only [Prod.ext_iff] at *) <;> subst_vars <;> simp +contextual (maxDischargeDepth := 60) [h, cv]

@[simp] theorem execTokenQuery_keeps (d up : Nat) (h : Keeps P s₀ x) (cv : Covers P ([.out, .links]) := by simp [*]) :
    KeepsO P s₀ (execTokenQuery d up x) := by
  simp only [covers_cons, covers_nil, and_true] at cv
  unfold execTokenQuery
  simp (maxDischargeDepth := 60) [h, cv]

@[simp] theorem execTokenClaim_keeps (d up epoch : Nat) (forced : Bool) (frameNo : Nat) (h : Keeps P s₀ x) (cv : Covers P ([.out, .links, .devs])
    := by simp [*]) :
    KeepsO P s₀ (execTokenClaim d up epoch forced frameNo x) := by
  simp only [covers_cons, covers_nil, and_true] at cv
  unfold execTokenClaim
  simp (maxDischargeDepth := 60) [h, cv]

@[simp] theorem execTokenRelease_keeps (d up epoch frameNo : Nat) (h : Keeps P s₀ x) (cv : Covers P ([.devs]) := by simp [*]) :
    KeepsO P s₀ (execTokenRelease d up epoch frameNo x) := by
  simp only [covers_cons, covers_nil, and_true] at cv
  unfold execTokenRelease
  simp (maxDischargeDepth := 60) [h, cv]

@[simp] theorem execHolderFrameMissed_keeps (d : Nat) (h : Keeps P s₀ x) (cv : Covers P ([.devs]) := by simp [*]) :
    KeepsO P s₀ (execHolderFrameMissed d x) := by
  simp only [covers_cons, covers_nil, and_true] at cv
  unfold execHolderFrameMissed
  simp (maxDischargeDepth := 60) [h, cv]

@[simp] theorem State.hubRateWaits_keeps (p : PortId) (h : Keeps P s₀ x) (cv : Covers P ([.out, .ports, .devs, .rings, .cmds, .icu, .reg .PRT_STS,
    .reg .PRT_CHG, .reg .MOV_STS, .reg .ICU_ERR]) := by simp [*]) :
    Keeps P s₀ (State.hubRateWaits x p) := by
  simp only [covers_cons, covers_nil, and_true] at cv
  unfold State.hubRateWaits
  split <;> (try split) <;> simp +contextual (maxDischargeDepth := 60) [h, cv]

@[simp] theorem State.hubRateTick_keeps (n : Nat) (p : PortId) (h : Keeps P s₀ x) (cv : Covers P ([.out, .ports, .links, .devs, .rings, .cmds, .icu,
    .reg .PRT_STS, .reg .PRT_CHG, .reg .MOV_STS, .reg .ICU_ERR]) := by simp [*]) :
    Keeps P s₀ (State.hubRateTick n x p) := by
  simp only [covers_cons, covers_nil, and_true] at cv
  unfold State.hubRateTick
  have he : Keeps P s₀ (x.emptyOver p n) := by simp [h, cv]
  simp only []
  generalize x.emptyOver p n = y at he ⊢
  (repeat' split) <;> simp (maxDischargeDepth := 60) [he, cv]

@[simp] theorem State.devRateTick_keeps (n : Nat) (l : LinkEndId) (h : Keeps P s₀ x) (cv : Covers P ([.out, .links]) := by simp [*]) :
    Keeps P s₀ (State.devRateTick x n l) := by
  simp only [covers_cons, covers_nil, and_true] at cv
  unfold State.devRateTick
  (repeat' split) <;> (try simp only [Prod.ext_iff] at *) <;> (try subst_vars) <;> simp +contextual (maxDischargeDepth := 60) [h, cv]

@[simp] theorem execLocalTick_keeps (d n t : Nat) (h : Keeps P s₀ x) (cv : Covers P ([.out, .tim, .ports, .links, .devs, .rings, .cmds, .icu, .reg
    .PRT_STS, .reg .PRT_CHG, .reg .MOV_STS, .reg .ICU_ERR]) := by simp [*]) :
    KeepsO P s₀ (execLocalTick d n t x) := by
  simp only [covers_cons, covers_nil, and_true] at cv
  unfold execLocalTick
  simp only []; (repeat' split) <;> (try simp only [Prod.ext_iff] at *) <;> subst_vars <;> simp +contextual (maxDischargeDepth := 60) [h, cv]

end Sys2Proof.Machine
end

