-- ==== Sys2Proof/Tests/Slice0.lean ====
section
/-! SUPPORT. Tests/Slice0.lean: the smoke test of WellFormed; a few steps whose results the spec's worked examples give; and for each
obligation with hypotheses a theorem that shows states and operands that meet them, clause by clause. -/

open Sys2Proof Sys2Proof.Machine

namespace Sys2Proof.Tests

set_option Elab.async false

/-- The controller after READY. -/
def rdy : State := { State.reset.fset .HLT_START_READY 1 with hlt := { Health.init with starting := false } }

/-- A port in a state. -/
def portIn (s : State) (p : PortId) (st : Nat) : State := s.putState p st

/-- A root port that is connected, its link up and its CAPS exchanged. -/
def linkUp (s : State) (n : Nat) : State :=
  (s.putState (.root n) 4).onLink (.port (.root n)) fun k => { k with up := true, sync := true, seenSent := true, seenRecv := true, fresh := false }

/-- An ACTIVE ring of 32 entries. -/
def ringOn (s : State) (r : Nat) : State :=
  s.onRing r fun g => { g with st := 1, geo := 0x400A0#64, geoN := ~~~ 0x400A0#64 }

/-- A module at address 5 that is configured and has one endpoint; its upstream link is up. -/
def moduleWith (ep dir : Nat) (e : DevEp) : State :=
  (rdy.onDev 1 fun v => { v with st := 2, addr := 5, synced := true, lastFrame := some 9, eps := [(ep + 128 * dir, e)] }).onLink (.dev 1 0) fun k =>
    { k with up := true }

/-- A call to that module. -/
def callTo (cls ep dir : Nat) : Pkt := ⟨1, false, 0, 3, dir, ep, 5, cls, []⟩

/-- A control transfer at its status stage. -/
def ctlOf (req value index : Nat) (data : List Byte) : DevCtl := ⟨setupBytes req false value index data.length, 1, data.length, 0, data, false, none⟩

/-- A device, 1 a module and 2 a hub of four ports, that runs a control transfer. -/
def devCtl (kind : Nat) (c : DevCtl) : State :=
  rdy.onDev 1 fun v => { v with kind := kind, nports := 4, st := 2, addr := 5, eps := [(3, { DevEp.init with halted := true })], ctl := some c }

/-- A dual-upstream hub with a token. -/
def tokenHub (f : HubToken → HubToken) : State := rdy.onDev 1 fun v => { v with kind := 3, nports := 4, token := f HubToken.init }

/-- A command descriptor (Table 5.21). -/
def cmd (op a0 a1 a2 : Nat) : List Byte :=
  leBytes 4 (2 ^ 31 + op * 2 ^ 16 + (255 - op) * 2 ^ 8) ++ leBytes 4 0 ++ leBytes 8 a0 ++ leBytes 8 a1 ++ leBytes 8 a2

/-- Slice 1 is ACTIVE, with all of host memory below 2^40 and all of the buffer pool. -/
def sliceOn (s : State) : State :=
  (s.fsetN .SLC_STS_STATE 1 1).onSlice 1 fun x =>
    { x with pasid := 7, hlim := 0xFFFFFFF000#64, hlimN := ~~~ 0xFFFFFFF000#64, win := 256, winN := ~~~ 256#64 }

/-- Ring 0 is ACTIVE and one command is handed over on it; slice 1 has the event ring 8 and the SUBMIT ring 9, and a descriptor is handed over. -/
def rings : State :=
  (((ringOn (sliceOn rdy) 0).onRing 0 fun g => { g with tail := 1 }).onRing 8 fun g =>
    { g with st := 1, geo := 0x808A0#64, geoN := ~~~ 0x808A0#64, slice := some 1, dbIdx := 1 }).onRing 9 fun g =>
    { g with st := 1, geo := 0x400A0#64, geoN := ~~~ 0x400A0#64, slice := some 1, evtRing := 8, tail := 1 }

/-- A context of slice 1 on ring 9, of a class and a state. -/
def ctxOf (eph cls mps st : Nat) : Ctx :=
  { Ctx.zero with key0 := cls * 2 ^ 29 + mps * 2 ^ 25 + eph, key0n := 2 ^ 32 - 1 - (cls * 2 ^ 29 + mps * 2 ^ 25 + eph), key1 := 2 ^ 40,
                  key1n := 2 ^ 64 - 1 - 2 ^ 40, key2 := 4 * 2 ^ 10 + 9, key2n := 2 ^ 32 - 1 - (4 * 2 ^ 10 + 9), w32 := st * 2 ^ 28 + 3 * 2 ^ 21 }

/-- A context in the cache. -/
def withCtx (s : State) (c : Ctx) : State := { s with ctxs := Tbl.put s.ctxs c.eph (CtxSlot.of c 0) }

/-- The context table in host memory: the directory at 0 names the page at 4096 for a handle, whose slot holds some bytes. -/
def hostTable (eph : Nat) (img : List Byte) : CtxHost :=
  ⟨[(State.dirEntryAddr 0 eph, .ok (leBytes 8 4097)), (4096 + eph % 64 * 64, .ok img)]⟩

/-- BULK OUT, BULK IN, EVENT and CYCLIC endpoints, and endpoint 0, of the device at address 5 on port 2. -/
def epOut : Nat := Eph.mk 2 5 0 3
def epIn : Nat := Eph.mk 2 5 1 3
def epZero : Nat := Eph.mk 2 5 0 0

/-- A transfer descriptor for slice 1: endpoint, length, buffer. -/
def tdOf (eph len buf : Nat) : List Byte := leBytes 4 (2 ^ 31 + eph) ++ leBytes 4 len ++ leBytes 8 buf ++ List.replicate 16 0

/-- An entry of slice 1 from ring 9. -/
def entryOf (eph kind len : Nat) : Entry where
  id := 4
  slice := 1
  ring := 9
  tds := [(0, ⟨tdOf eph len 4096⟩)]
  bell := 1
  needCtx := false
  hostFail := false
  isEntry := true
  forCmd := none
  eph := eph
  kind := kind
  flow := 0
  len := len
  st := .running
  waitMet := true
  counted := false
  delay := none
  nakRun := 0
  nyFrom := none
  spilled := false
  started := true
  data := []
  moved := 0
  stage := 0
  setup := []
  ts := none
  qc := 0
  more := false
  late := false
  done := none
  hostOut := 0
  step1 := false

/-- A transaction of that entry in flight on port 2 with tag 3. -/
def txnOf (eph : Nat) (kind : TxnKind) (data : List Byte) (attempt : Nat) : Txn := ⟨2, 3, eph, kind, 0, data, some 4, attempt, 0, false, none⟩

/-- An answer of the device with that tag. -/
def answerOf (pid pflags : Nat) (b : List Byte) : Pkt := ⟨pid, true, 0, 3, 0, 3, 5, pflags, b⟩

/-- Port 2 with its link up, a BULK OUT context, an entry of one packet and its transaction in flight. -/
def bulkOut (attempt : Nat) : State :=
  { withCtx (linkUp rings 2) (ctxOf epOut 4 3 2) with entries := [{ entryOf epOut 0 2 with data := [1, 2] }], txns := [txnOf epOut .callOut [1, 2] attempt] }

/-- The same, its packets gone at time 0. -/
def bulkGone (attempt : Nat) : State := { bulkOut attempt with txns := [{ txnOf epOut .callOut [1, 2] attempt with depart := some 0 }] }

/-- Ring 12, a STREAM ring of slice 1 with 64-byte entries. -/
def streamRing (s : State) : State :=
  s.onRing 12 fun g => { g with st := 1, geo := 0x80CA6#64, geoN := ~~~ 0x80CA6#64, slice := some 1, evtRing := 8 }

/-- CYCLIC contexts whose samples go to gather group 5, and to coder stream 6. -/
def ctxGather : Ctx := { ctxOf epIn 2 3 2 with link := 2 ^ 30 + 5 * 256 }
def ctxCoder : Ctx := { ctxOf epIn 2 3 2 with link := 2 ^ 31 + 6 }

/-- A gather group of one member on ring 12, and a coder stream on it. -/
def groupOf (sets : List OpenSet) : Group := ⟨4800, 0, 10, 1, 12, [(epIn, 0)], sets, some 7, [], []⟩
def streamOf (closed : List Span) : CoderStream := ⟨epIn, 12, 0, 1, 0, 1000, 0, 0, 0, 1, [], [], none, none, closed, 4, some 7, [], []⟩

/-- A software channel in a state with a control word, over 16 bytes from `src` to `dst`. -/
def chanOn (st : Nat) (k : Chan) : State := { rdy.fsetN .MOV_STS_STATE 50 st with mov := { Mover.init with chans := [(50, k)] } }
def chanOf (ctl src dst : Nat) : Chan := { Chan.init with ctl := ctl, src := src, dst := dst, cnt := 16 }

/-- The SLC registers of slice 2 as for the binding of PASID 9 with all of host memory below 2^40. -/
def bindRegs (s : State) : State :=
  (((((s.wr .SLC_PASID 2 9).wr .SLC_PASID_N 2 (0xFFFFFFFF - 9)).wr .SLC_HLIM 2 0xFFFFFFF000).wr .SLC_HLIM_N 2 (~~~ 0xFFFFFFF000)).wr .SLC_WIN 2 256).wr
    .SLC_WIN_N 2 (0xFFFFFFFF - 256)

/-- A command in progress on ring 0 at place 3. -/
def running (op : Nat) : CmdRec := ⟨0, 3, none, op, cmd op 1 0 0, none, 0, 0, 0, ⟨[]⟩, [], []⟩

/-- A source with a configuration. -/
def withSource (s : State) (x : Nat) (c : Source) : State := { s with icu := { s.icu with sources := [(x, c)] } }

/-- The twin link is up and the pair PAIRED; port 2 is shared, and is the partner's port 6. -/
def twinOn (s : State) : State :=
  { ((s.fset .TWN_STS_LINK_UP 1).fset .TWN_STS_PAIR 3).fsetN .PRT_STS_PEER_DUAL_UP 2 1 with
    twin := { Twin.init with enabled := true, pmap := [(2, 6)] } }

/-- The same with a change of the tree of port 2, and of the rest of the twin state. -/
def twinTree (s : State) (f : TwinTree → TwinTree) : State := { twinOn s with twin := { (twinOn s).twin with trees := [(2, f TwinTree.init)] } }

/-- A context that shadows the partner's. -/
def shadowOf (eph : Nat) : Ctx := (ctxOf eph 4 3 2).setShadow true

/-- An entry to power state `target` that stands at abort point `k`. -/
def entering (s : State) (k target : Nat) : State := ((s.fset .PWR_STS_ENTERING 1).fset .PWR_STS_APOINT k).fset .PWR_STS_TARGET target

/-- A power state in which nothing moves. -/
def resting (st : Nat) : State := rdy.fset .PWR_STS_STATE st

/-- What a cold start finds where all is well. -/
def otpIn : Otp := ⟨0, 0, false, false, [], []⟩
def slotIn : FwSlot := ⟨true, 1, 0, 0, 0, []⟩
def startIn : StartIn := ⟨true, some otpIn, slotIn, slotIn, true, [], 0⟩

/-- A firmware copy in progress for the command at place 3 of ring 0. -/
def staging : State := { rings with hlt := { rdy.hlt with staging := some ((0, 3), 1) }, cmds := [⟨0, 3, none, 0x74, cmd 0x74 4096 1024 0, none, 0, 0, 0, ⟨[]⟩, [], []⟩] }

/-- Blocks of four codewords with the sync headers in place, and of one with none. -/
def lockBlocks : List (Nat × Nat) := (List.replicate 4 ((2, 0) :: List.replicate 29 (1, 0))).flatten
def badBlocks : List (Nat × Nat) := List.replicate 30 (3, 0)

/-- A FRAME, a packet and what ENUMERATE sets for an endpoint, with every field in range. -/
def frame0 : FrameBody := ⟨0, 0, 0, false, false, 0, false, 0, 0, 0⟩
def pkt0 : Pkt := ⟨0, false, 0, 0, 0, 0, 0, 0, []⟩
def ep0 : EnumEp := ⟨0, 0, 0, 0, 0, 0, 0, 0, 0, false, 0⟩

/-- The check refuses ports, link ends, packet fields, FRAME fields and lengths out of range. -/
theorem test_ill_formed_operands :
    (∀ p ∈ [PortId.root 64, .hub 1 0, .hub 1 32], p.wf = false) ∧
    (∀ l ∈ [LinkEndId.port (.root 64), .port (.hub 1 0), .dev 1 2], l.wf = false) ∧
    (∀ p ∈ [{ pkt0 with pid := 16 }, { pkt0 with route := 2 ^ 35 }, { pkt0 with tag := 16 }, { pkt0 with dir := 2 }, { pkt0 with epnum := 64 },
      { pkt0 with devaddr := 4096 }, { pkt0 with pflags := 256 }], p.wf = false) ∧
    ({ pkt0 with payload := List.replicate 65536 0 } : Pkt).wf = false ∧
    (∀ x ∈ [RxLine.groups [1024], .blocks [(1, 0)], .blocks (List.replicate 30 (4, 0)), .blocks (List.replicate 30 (1, 2 ^ 64))], x.wf = false) ∧
    (∀ e ∈ [{ ep0 with owner := 256 }, { ep0 with base := 8192 }, { ep0 with retry := 8 }, { ep0 with rtt := 2 ^ 20 }, { ep0 with link := 2 ^ 32 }],
      e.wf = false) ∧
    (∀ f ∈ [{ frame0 with frameNo := 2 ^ 32 }, { frame0 with sec := 2 ^ 48 }, { frame0 with ns := 2 ^ 32 }, { frame0 with qclass := 8 },
      { frame0 with frate := 2 ^ 32 }, { frame0 with utcOfs := 65536 }], f.wf = false) ∧
    (HostRead.ok (zeros 31)).len 32 = false := by
  decide +kernel

/-- It takes operands at the ends of their ranges. -/
theorem test_well_formed_operands :
    (PortId.root 63).wf = true ∧ (PortId.hub 1 31).wf = true ∧ (LinkEndId.dev 1 1).wf = true ∧ frame0.wf = true ∧ pkt0.wf = true ∧ ep0.wf = true ∧ (RxLine.groups [1023]).wf = true ∧
    ({ pkt0 with pid := 15, route := 2 ^ 35 - 1, tag := 15, dir := 1, epnum := 63, devaddr := 4095, pflags := 255 } : Pkt).wf = true ∧
    (HostRead.ok (zeros 32)).len 32 = true ∧ HostRead.failed.len 32 = true := by decide +kernel

/-- One ill-formed operand in each command, which the check refuses: part 1, in the order of the table. -/
theorem test_ill_formed_a :
    (∀ i ∈ ([
    .timLabelWrite .full 18446744073709551616 0 0, .timLabelWrite .full 0 0 256, .frameReceive 0 2 (zeros 32) 0 [] 0,
     .frameReceive 0 0 (zeros 31) 0 [] 0, .delayReqReceive (.root 64) (zeros 16) 0 0, .delayReqReceive (.root 0) (zeros 15) 0 0,
     .delayRespReceive 0 2 (zeros 32) 0, .delayRespReceive 0 0 (zeros 31) 0, .delayReqAbandon 0 2, .syncGain (.dev 1 2) [],
     .syncGain (.dev 1 0) [1024], .syncLoss (.dev 1 2) [] 0, .syncLoss (.dev 1 0) [1024] 0, .codewordLock (.dev 1 2) [],
     .codewordLock (.dev 1 0) [(1, 0)], .codewordLockLoss (.dev 1 2) [] 0, .codewordLockLoss (.dev 1 0) [(1, 0)] 0,
     .packetReceive (.dev 1 2) (.groups []) 0 0, .packetReceive (.dev 1 0) (.groups [1024]) 0 0, .linkctlAckReceive (.dev 1 2) 0,
     .linkctlAckReceive (.dev 1 0) 4096, .linkctlRetryReceive (.dev 1 2) 0 0 0, .linkctlRetryReceive (.dev 1 0) 4096 0 0,
     .replayTimeout (some (.dev 1 2)) 0 0, .capsReceive (.dev 1 2) 0 0 0 0 0, .capsReceive (.dev 1 0) 65536 0 0 0 0,
     .capsReceive (.dev 1 0) 0 4294967296 0 0 0, .capsRepeat (.dev 1 2) 0, .rateReqReceive 0 2 0 0, .rateReqReceive 0 0 4294967296 0,
     .rateReqReceive 0 0 0 4294967296, .rateAckReceive (.root 64) 0 0, .rateAckReceive (.root 0) 4294967296 0,
     .rateAckReceive (.root 0) 0 4294967296, .rateReqRepeat (.root 64), .linkctlResetReceive 0 2 0, .resetEchoReceive (.root 64) 0,
     .linkctlSuspendReceive 0 2 0, .suspendEchoReceive (.root 64) 0, .linkctlResumeReceive 0 2 0, .resumeEchoReceive (.root 64) 0,
     .linkctlWakeReceive (.root 64) 0, .linkctlCmdRepeat (.dev 1 2) 0, .signalDetect (.root 64) 0, .connectDebounceDone (.root 64) 0,
     .trainingTimeout (.root 64), .resetEchoTimeout (.root 64) 0, .retrainTimeout (.root 64)] : List Instr), i.wf = false) := by decide +kernel

/-- One ill-formed operand in each command, which the check refuses: part 2, in the order of the table. -/
theorem test_ill_formed_b :
    (∀ i ∈ ([
    .resumeTimeout (.root 64), .suspendEchoTimeout (.root 64) 0, .linkLost (.root 64) 0, .rateLock (.dev 1 2) 0 0, .rateLockTimeout (.dev 1 2) 0,
     .portEnable 64 false false 0, .portClearError 64 0, .portRetrain 64 0, .portResume 64 0, .portSuspend 64 0, .portReset 64 0,
     .prtChgRead 64 false, .xcvrIdentify 64, .xcvrDiagRead 64 [], .modAbsChange 64, .losTxFaultAccept 64, .transactionStart 64 0 0,
     .transactionStart 0 16 0, .answerReceive 64 pkt0 false 0 0, .answerReceive 0 ({ pkt0 with tag := 16 }) false 0 0, .answerTimeout 64 0 0,
     .answerTimeout 0 16 0, .callInReceive 0 ({ pkt0 with tag := 16 }), .callOutReceive 0 ({ pkt0 with tag := 16 }) pkt0 false false,
     .callOutReceive 0 pkt0 ({ pkt0 with tag := 16 }) false false, .commandReceive 0 ({ pkt0 with tag := 16 }) pkt0 0 0,
     .commandReceive 0 pkt0 ({ pkt0 with tag := 16 }) 0 0, .execAtExecute 0 64, .pingReceive 0 ({ pkt0 with tag := 16 }) false,
     .setupReceive 0 ({ pkt0 with tag := 16 }), .controlTransferTimeout 33554432, .contextFetchDone 33554432 ⟨[]⟩, .doorbell (some 256) 0 0,
     .doorbell none 64 0, .doorbell none 0 18446744073709551616, .mringEnable 4, .mringDisable 4, .tdTake 1024 [] [] false, .tdWriteback 1024 0,
     .tdWriteback 0 1048576, .cmdWriteback 1024 [], .hostTransportStart 1024 0, .hostTransportStart 0 1048576, .reservedOpcode 1024 .failed,
     .reservedOpcode 0 (.ok (zeros 31)), .ringCreate 1024 .failed, .ringCreate 0 (.ok (zeros 31)), .ringStop 1024 .failed] : List Instr), i.wf = false) := by decide +kernel

/-- One ill-formed operand in each command, which the check refuses: part 3, in the order of the table. -/
theorem test_ill_formed_c :
    (∀ i ∈ ([
    .ringStop 0 (.ok (zeros 31)), .ringStart 1024 .failed, .ringStart 0 (.ok (zeros 31)), .ringDestroy 1024 .failed [],
     .ringDestroy 0 (.ok (zeros 31)) [], .ringQuery 1024 .failed, .ringQuery 0 (.ok (zeros 31)), .epInstall 1024 .failed .failed ⟨[]⟩,
     .epInstall 0 (.ok (zeros 31)) .failed ⟨[]⟩, .epRemove 1024 .failed ⟨[]⟩, .epRemove 0 (.ok (zeros 31)) ⟨[]⟩, .epStop 1024 .failed ⟨[]⟩,
     .epStop 0 (.ok (zeros 31)) ⟨[]⟩, .epStart 1024 .failed ⟨[]⟩, .epStart 0 (.ok (zeros 31)) ⟨[]⟩, .epReset 1024 .failed ⟨[]⟩,
     .epReset 0 (.ok (zeros 31)) ⟨[]⟩, .epFlush 1024 .failed ⟨[]⟩, .epFlush 0 (.ok (zeros 31)) ⟨[]⟩, .epQuery 1024 .failed ⟨[]⟩,
     .epQuery 0 (.ok (zeros 31)) ⟨[]⟩, .subtreeGone 1024 .failed 0, .subtreeGone 0 (.ok (zeros 31)) 0, .tdCancel 1024 .failed [],
     .tdCancel 0 (.ok (zeros 31)) [], .enumerate 1024 .failed ⟨[]⟩ [], .enumerate 0 (.ok (zeros 31)) ⟨[]⟩ [],
     .enumerate 0 .failed ⟨[]⟩ [{ ep0 with owner := 256 }], .xcvrRead 1024 .failed, .xcvrRead 0 (.ok (zeros 31)), .portRate 1024 .failed,
     .portRate 0 (.ok (zeros 31)), .applyAdvice 1024 .failed 0, .applyAdvice 0 (.ok (zeros 31)) 0, .schedBatch 1024 .failed .failed,
     .schedBatch 0 (.ok (zeros 31)) .failed, .schedReserve 1024 .failed, .schedReserve 0 (.ok (zeros 31)), .schedQuery 1024 .failed,
     .schedQuery 0 (.ok (zeros 31)), .schedClear 1024 .failed, .schedClear 0 (.ok (zeros 31)), .notyetTimeout 33554432, .spillReturn 256 false,
     .schDcntValWrite 4294967296, .sampleBlockForm 0 64 0 [], .gatherDeadline 256, .streamRecordWrite 1024] : List Instr), i.wf = false) := by decide +kernel

/-- One ill-formed operand in each command, which the check refuses: part 4, in the order of the table. -/
theorem test_ill_formed_d :
    (∀ i ∈ ([
    .coderBlockCode 64, .coderLateRaw 64, .gatherCreate 1024 .failed .failed ⟨[]⟩, .gatherCreate 0 (.ok (zeros 31)) .failed ⟨[]⟩,
     .gatherDestroy 1024 .failed, .gatherDestroy 0 (.ok (zeros 31)), .gatherQuery 1024 .failed, .gatherQuery 0 (.ok (zeros 31)),
     .coderAttach 1024 .failed .failed ⟨[]⟩, .coderAttach 0 (.ok (zeros 31)) .failed ⟨[]⟩, .coderDetach 1024 .failed,
     .coderDetach 0 (.ok (zeros 31)), .coderQuery 1024 .failed, .coderQuery 0 (.ok (zeros 31)), .movGo 64 0, .movGo 0 4294967296, .movStop 64 0 false,
     .movStop 0 4294967296 false, .movSwchWrite 4294967296, .moverDescDone 64 .failed .failed .failed none false, .reqLineRequest 128 [] .failed .failed,
     .moverDryBoundary 64, .movStsRead 64 false, .sliceEnable 1024 .failed, .sliceEnable 0 (.ok (zeros 31)), .sliceDisable 1024 .failed 0,
     .sliceDisable 0 (.ok (zeros 31)) 0, .sliceRingAllot 1024 .failed, .sliceRingAllot 0 (.ok (zeros 31)), .sliceRingReclaim 1024 .failed,
     .sliceRingReclaim 0 (.ok (zeros 31)), .sliceShare 1024 .failed, .sliceShare 0 (.ok (zeros 31)), .sliceReset 1024 .failed,
     .sliceReset 0 (.ok (zeros 31)), .sliceResetDone 256, .sliceFreeze 1024 .failed, .sliceFreeze 0 (.ok (zeros 31)), .sliceFrozen 256 ⟨[]⟩,
     .sliceThaw 1024 .failed, .sliceThaw 0 (.ok (zeros 31)), .sliceSave 1024 .failed [], .sliceSave 0 (.ok (zeros 31)) [],
     .sliceRestore 1024 .failed .failed [] [] ⟨[]⟩, .sliceRestore 0 (.ok (zeros 31)) .failed [] [] ⟨[]⟩, .sliceQuery 1024 .failed 0,
     .sliceQuery 0 (.ok (zeros 31)) 0, .mbmPost 256 0] : List Instr), i.wf = false) := by decide +kernel

/-- One ill-formed operand in each command, which the check refuses: part 5, in the order of the table. -/
theorem test_ill_formed_e :
    (∀ i ∈ ([
    .mbmPost 0 4294967296, .mbtPost 256 0, .mbtPost 0 4294967296, .mbmPop 256 0, .mbmPop 0 4294967296, .mbtPop 256 0, .mbtPop 0 4294967296,
     .mbmEvtRead 256 false, .mbtEvtRead 256 false, .sltEvtRead 256 false, .sourceLineChange 2048 false 0, .icuPset 64 0 false 0,
     .icuPset 0 4294967296 false 0, .icuPclr 64 0 false 0, .icuPclr 0 4294967296 false 0, .icuEset 64 0 false 0, .icuEset 0 4294967296 false 0,
     .icuEclr 64 0 false 0, .icuEclr 0 4294967296 false 0, .sliPset 256 0 0, .sliPset 0 4294967296 0, .sliPclr 256 0 0, .sliPclr 0 4294967296 0,
     .sliEset 256 0 0, .sliEset 0 4294967296 0, .sliEclr 256 0 0, .sliEclr 0 4294967296 0, .icuSrccfgWrite (some 2048) 0 0,
     .icuSrccfgWrite none 4294967296 0, .icuClaim 4 0, .icuDone 4 0 0, .icuDone 0 2048 0, .coreReturn 4 0, .coreWait 4 0 0, .coreWait 0 8 0,
     .vectorModerationTimeout 2048 0, .sliIdleWrite 256 0 0, .sliIdleWrite 0 4294967296 0, .icuVstsWrite 4294967296 0, .msixUnmask (some 2048) false false 0,
     .twinEnable 4294967296, .beatReceive (zeros 4109) 0, .shadowReceive (zeros 4109) ⟨[]⟩, .mirrorReceive (zeros 4109),
     .mconfReceive (zeros 4109) 0, .handoverSend 64, .handoverReceive (zeros 4109) 0, .tokenQuery 0 2] : List Instr), i.wf = false) := by decide +kernel

/-- One ill-formed operand in each command, which the check refuses: part 6, in the order of the table. -/
theorem test_ill_formed_f :
    (∀ i ∈ ([
    .tokenClaim 0 2 0 false 0, .tokenClaim 0 0 65536 false 0, .tokenClaim 0 0 0 false 4294967296, .tokenRelease 0 2 0 0, .tokenRelease 0 0 65536 0,
     .tokenRelease 0 0 0 4294967296, .tokenMsgRepeat 64 false 0, .tokenStateReceive 64 0 0, .tokenStateReceive 0 4294967296 0, .tokenGrantReceive 64 0 0 0,
     .tokenGrantReceive 0 4294967296 0 0, .tokenGrantReceive 0 0 4294967296 0, .tokenDenyReceive 64 0, .tokenDenyReceive 0 4294967296,
     .tokenLostReceive 64 0, .tokenLostReceive 0 4294967296, .twinClaim 1024 .failed 0, .twinClaim 0 (.ok (zeros 31)) 0, .twinForce 1024 .failed 0,
     .twinForce 0 (.ok (zeros 31)) 0, .twinRelease 1024 .failed 0, .twinRelease 0 (.ok (zeros 31)) 0, .twinQuery 1024 .failed,
     .twinQuery 0 (.ok (zeros 31)), .pwrRequest (some 4294967296) none 0, .pwrRequest none (some 4294967296) 0, .pwrSenseWrite 4294967296,
     .sramUncorrectable 64 .free 0, .supplyExcursion 256 0, .hltRecord 1024 .failed, .hltRecord 0 (.ok (zeros 31)), .hltPoolShrink 1024 .failed,
     .hltPoolShrink 0 (.ok (zeros 31)), .portEye 1024 .failed 0, .portEye 0 (.ok (zeros 31)) 0, .fwStage 1024 .failed, .fwStage 0 (.ok (zeros 31)),
     .fwActivate 1024 .failed, .fwActivate 0 (.ok (zeros 31)), .fwCommit 1024 .failed, .fwCommit 0 (.ok (zeros 31)), .fwQuery 1024 .failed,
     .fwQuery 0 (.ok (zeros 31)), .zeroize 1024 .failed [], .zeroize 0 (.ok (zeros 31)) [], .secDbgAllowWrite 4294967296, .registerWrite 1 0 [] 0,
     .registerWrite 0 2 [] 0] : List Instr), i.wf = false) := by decide +kernel

/-- One ill-formed operand in each command, which the check refuses: part 7, in the order of the table. -/
theorem test_ill_formed_g :
    (∀ i ∈ ([
    .registerWrite 0 0 [(16, 0)] 0, .registerWrite 0 0 [(0, 4294967296)] 0, .aliasWrite 1 0 0 0 0, .aliasWrite 0 2 0 0 0, .aliasWrite 0 0 16 0 0,
     .aliasWrite 0 0 0 4294967296 0, .indDataWrite 16 0, .indDataWrite 0 4294967296, .twinAckReceive (zeros 4109), .twinRetryReceive (zeros 4109),
     .identityBusReadDone 64 0 .failed] : List Instr), i.wf = false) := by decide +kernel

/-- The check takes well-formed commands: part 1. -/
theorem test_well_formed_a :
    (∀ i ∈ ([
    .frameTick [] 0 0 ⟨[]⟩, .handDeadline [], .guardBandStart 0, .ppsInEdge false 0, .ppsInLost, .refInLost, .refInValid,
     .irigFrameReceive false none 0, .irigInLost, .ptmDialogueDone false 0 0 0, .errEstGrowth, .stepGo 0, .frameEnWrite false, .timNowRead .full 0,
     .timFrameNoRead .full, .timPtmHostRead .full, .timLabelWrite .full 0 0 0, .timEvtRead false, .frameReceive 0 0 (zeros 32) 0 [] 0,
     .delayReqReceive (.root 0) (zeros 16) 0 0, .delayRespReceive 0 0 (zeros 32) 0, .delayReqAbandon 0 0, .syncLost 0, .syncGain (.dev 1 0) [],
     .syncLoss (.dev 1 0) [] 0, .codewordLock (.dev 1 0) [], .codewordLockLoss (.dev 1 0) [] 0, .packetReceive (.dev 1 0) (.groups []) 0 0,
     .linkctlAckReceive (.dev 1 0) 0, .linkctlRetryReceive (.dev 1 0) 0 0 0, .replayTimeout none 0 0, .capsReceive (.dev 1 0) 0 0 0 0 0,
     .capsRepeat (.dev 1 0) 0, .rateReqReceive 0 0 0 0, .rateAckReceive (.root 0) 0 0, .rateReqRepeat (.root 0), .linkctlResetReceive 0 0 0,
     .resetEchoReceive (.root 0) 0, .linkctlSuspendReceive 0 0 0, .suspendEchoReceive (.root 0) 0, .linkctlResumeReceive 0 0 0,
     .resumeEchoReceive (.root 0) 0, .linkctlWakeReceive (.root 0) 0, .linkctlCmdRepeat (.dev 1 0) 0, .signalDetect (.root 0) 0,
     .connectDebounceDone (.root 0) 0, .trainingTimeout (.root 0), .resetEchoTimeout (.root 0) 0, .retrainTimeout (.root 0),
     .resumeTimeout (.root 0), .suspendEchoTimeout (.root 0) 0, .linkLost (.root 0) 0, .rateLock (.dev 1 0) 0 0, .rateLockTimeout (.dev 1 0) 0,
     .portEnable 0 false false 0, .portClearError 0 0, .portRetrain 0 0, .portResume 0 0, .portSuspend 0 0, .portReset 0 0, .prtChgRead 0 false,
     .xcvrIdentify 0, .xcvrDiagRead 0 [], .sidebandScan 0, .modAbsChange 0, .losTxFaultAccept 0, .mscFault, .getPortStatus 0, .setPortFeature 0 0,
     .clearPortFeature 0 0] : List Instr), i.wf = true) := by decide +kernel

/-- The check takes well-formed commands: part 2. -/
theorem test_well_formed_b :
    (∀ i ∈ ([
    .transactionStart 0 0 0, .answerReceive 0 pkt0 false 0 0, .answerTimeout 0 0 0, .callInReceive 0 pkt0, .callOutReceive 0 pkt0 pkt0 false false,
     .commandReceive 0 pkt0 pkt0 0 0, .execAtExecute 0 0, .pingReceive 0 pkt0 false, .setupReceive 0 pkt0, .controlTransferTimeout 0, .getStatus 0,
     .clearHalt 0, .resetEndpoint 0, .setAddress 0, .getRecord 0, .getConfiguration 0, .setConfiguration 0, .setRemoteWake 0, .setLinkAsym 0,
     .contextFetchDone 0 ⟨[]⟩, .doorbell none 0 0, .mringEnable 0, .mringDisable 0, .tdTake 0 [] [] false, .tdWriteback 0 0, .cmdWriteback 0 [],
     .hostTransportStart 0 0, .reservedOpcode 0 .failed, .ringCreate 0 .failed, .ringStop 0 .failed, .ringStart 0 .failed, .ringDestroy 0 .failed [],
     .ringQuery 0 .failed, .epInstall 0 .failed .failed ⟨[]⟩, .epRemove 0 .failed ⟨[]⟩, .epStop 0 .failed ⟨[]⟩, .epStart 0 .failed ⟨[]⟩,
     .epReset 0 .failed ⟨[]⟩, .epFlush 0 .failed ⟨[]⟩, .epQuery 0 .failed ⟨[]⟩, .subtreeGone 0 .failed 0, .tdCancel 0 .failed [],
     .enumerate 0 .failed ⟨[]⟩ [], .xcvrRead 0 .failed, .portRate 0 .failed, .applyAdvice 0 .failed 0, .schedBatch 0 .failed .failed,
     .batchAdmitted ⟨[]⟩, .schedReserve 0 .failed, .schedQuery 0 .failed, .schedClear 0 .failed, .delayRelease 0, .notyetTimeout 0,
     .spillReturn 0 false, .spillEnable false, .schDcntValWrite 0, .schAdmEvtRead false, .sampleBlockForm 0 0 0 [], .gatherDeadline 0,
     .streamRecordWrite 0, .coderBlockCode 0, .coderLateRaw 0, .gatherCreate 0 .failed .failed ⟨[]⟩, .gatherDestroy 0 .failed,
     .gatherQuery 0 .failed, .coderAttach 0 .failed .failed ⟨[]⟩, .coderDetach 0 .failed, .coderQuery 0 .failed, .gthEvtRead false, .cdrEvtRead false] : List Instr), i.wf = true) := by decide +kernel

/-- The check takes well-formed commands: part 3. -/
theorem test_well_formed_c :
    (∀ i ∈ ([
    .movGo 0 0, .movStop 0 0 true, .movSwchWrite 0, .swchApply, .moverDescDone 0 .failed .failed .failed none true, .reqLineRequest 0 [] .failed .failed,
     .hostReadFail (.record 0) 0 .failed .failed .failed none 0, .moverRetry (.record 0) 0, .moverDryBoundary 0, .movStsRead 0 false, .movGevtRead false,
     .sliceEnable 0 .failed, .sliceDisable 0 .failed 0, .sliceRingAllot 0 .failed, .sliceRingReclaim 0 .failed, .sliceShare 0 .failed,
     .sliceReset 0 .failed, .sliceResetDone 0, .sliceFreeze 0 .failed, .sliceFrozen 0 ⟨[]⟩, .sliceThaw 0 .failed, .sliceSave 0 .failed [],
     .sliceRestore 0 .failed .failed [] [] ⟨[]⟩, .sliceQuery 0 .failed 0, .mbmPost 0 0, .mbtPost 0 0, .mbmPop 0 0, .mbtPop 0 0, .mbmEvtRead 0 false,
     .mbtEvtRead 0 false, .sltEvtRead 0 false, .sourceLineChange 0 false 0, .icuPset 0 0 false 0, .icuPclr 0 0 false 0, .icuEset 0 0 false 0,
     .icuEclr 0 0 false 0, .sliPset 0 0 0, .sliPclr 0 0 0, .sliEset 0 0 0, .sliEclr 0 0 0, .icuSrccfgWrite none 0 0, .icuClaim 0 0, .icuDone 0 0 0,
     .coreReturn 0 0, .coreWait 0 0 0, .vectorModerationTimeout 0 0, .sliIdleWrite 0 0 0, .icuVstsWrite 0 0, .msixUnmask none false false 0, .twinEnable 0,
     .twinLinkUp, .beatReceive [] 0, .beatMissed 0, .shadowReceive [] ⟨[]⟩, .mirrorReceive [], .mconfReceive [] 0, .mconfLate 0, .handoverSend 0,
     .handoverReceive [] 0, .tokenQuery 0 0, .tokenClaim 0 0 0 false 0, .tokenRelease 0 0 0 0, .tokenMsgRepeat 0 true 0, .tokenStateReceive 0 0 0,
     .tokenGrantReceive 0 0 0 0, .tokenDenyReceive 0 0, .tokenLostReceive 0 0, .twinClaim 0 .failed 0, .twinForce 0 .failed 0,
     .twinRelease 0 .failed 0] : List Instr), i.wf = true) := by decide +kernel

/-- The check takes well-formed commands: part 4. -/
theorem test_well_formed_d :
    (∀ i ∈ ([
    .twinQuery 0 .failed, .twnEvtRead false, .pwrRequest none none 0, .consentDone false 0, .dealerStopped ⟨[]⟩ 0, .portsStopped 0,
     .moverTwinStopped 0, .pcieStopped 0, .wakeNInput 0, .wakeSenseTrip 0 0 0, .pcieWake 0, .twinSignalWake 0, .restoreStep 0 false false [] 0,
     .pwrSenseWrite 0, .pwrEvtRead false, .porRelease [], .startReady 0, .startWatchdog [], .flr 0 0 false [] 0, .monitorSample [] [] [] 0,
     .thermalSample [] 0, .tripComparatorSample false, .sramCorrected (.bank 0) 0, .sramUncorrectable 0 .free 0, .supplyExcursion 0 0,
     .retireCopyDone false, .healthRecordWrite, .policyPowerIdle, .hltRecord 0 .failed, .hltPoolShrink 0 .failed, .portEye 0 .failed 0,
     .fwStage 0 .failed, .fwActivate 0 .failed, .fwCommit 0 .failed, .fwQuery 0 .failed, .zeroize 0 .failed [], .debugResponse 0 false false,
     .secDbgAllowWrite 0, .hltEvtRead false, .secEvtRead false, .registerWrite 0 0 [] 0, .aliasWrite 0 0 0 0 0, .indDataRead false false,
     .indDataWrite 0 0, .indAccessDone, .gctlAccessErrRead false, .perstNAssert, .perstNRelease [] 0, .pwrGoodLow [], .vaonLoss,
     .pcieTlpError ⟨false, 0, [], []⟩ false, .irigOnTimeMark 0, .twinLinkDown, .twinAckReceive [], .twinRetryReceive [], .localTick 0 0 0,
     .holderFrameMissed 0, .pcieStopTimeout 0, .moverStopTimeout 0, .fwStageDone 0 none, .identityBusReadDone 0 0 .failed] : List Instr), i.wf = true) := by decide +kernel

/-- The state with one command waiting. -/
def waits (c : Instr) (s : State) : State := { s with pending := [c] }

/-- The step on that state. -/
def runs (c : Instr) (s : State) : State := (waits c s).after (step (waits c s))

/-- The check value of the packet CRC (R82): for the string "123456789" it is 0xE306_9283. -/
theorem test_crc_check_value :
    crc32c [0x31#8, 0x32#8, 0x33#8, 0x34#8, 0x35#8, 0x36#8, 0x37#8, 0x38#8, 0x39#8] = 0xE3069283#32 := by decide +kernel

/-- Byte values on the line at Rate 1: D0.0, D21.5 and D16.2 for both running disparities, /K28.5/ and /K27.7/ (the standard tables, log entry 82). -/
theorem test_code_groups :
    dataGroup false 0x00#8 = 0b1001110100 ∧ dataGroup true 0x00#8 = 0b0110001011 ∧ dataGroup false 0xB5#8 = 0b1010101010 ∧
      dataGroup false 0x50#8 = 0b0110110101 ∧ dataGroup true 0x50#8 = 0b1001000101 ∧ ctlGroup false 0xBC#8 = 0b0011111010 ∧
      ctlGroup false 0xFB#8 = 0b1101101000 := by decide +kernel

/-- α^10 = α^3 + 1, and α^1023 = 1 (R73). -/
theorem test_field : gfAlpha 10 = 9 ∧ gfMul (gfAlpha 1022) 2 = 1 ∧ gfMul 0x155 (gfInv 0x155) = 1 := by decide +kernel

/-- The roots of g(x) are α^0 to α^11; the parity of the last symbol alone is g(x) itself; a codeword, shortened to four message symbols, has no
syndrome, and with six wrong symbols a locator of six errors (R73). -/
theorem test_codeword :
    ((upto 12).all fun i => gfEval rsGen (gfAlpha i) == 0) = true ∧ (rsParity [0, 0, 1]).reverse = rsGen.take 12 ∧
      (rsSyndromes (rsEncode [5, 7, 1023, 1])).all (· == 0) = true ∧
      (rsLocator (rsSyndromes (((((((rsEncode [5, 7, 1023, 1]).set 0 9).set 3 2).set 6 0).set 9 1).set 12 77).set 15 1000))).len = 6 := by
  decide +kernel

/-- A fine timestamp (Table 2.1): 5 s, 6 ns and 128/256 ns, whose whole nanoseconds are 7 (R38). -/
theorem test_fine_timestamp :
    fineBytes ((5 * 1000000000 + 6) * 256 + 128) = [5#8, 0#8, 0#8, 0#8, 0#8, 0#8, 6#8, 0#8, 0#8, 0#8, 128#8, 0#8] ∧
      roundNs ((5 * 1000000000 + 6) * 256 + 128) = 5000000007 := by decide +kernel

/-- A FRAME's payload (Table 2.6): FRAME_NO, SEC, NS, FLAGS, FRATE, CORRECTION and UTC_OFS in their places. -/
theorem test_frame_payload :
    let b := FrameBody.toBytes ⟨0x01020304, 5, 6, true, true, 2, false, 14400, -1, 37⟩
    b.length = 32 ∧ slice 0 4 b = [4#8, 3#8, 2#8, 1#8] ∧ leNat (slice 14 1 b) = 26 ∧ slice 20 4 b = List.replicate 4 255#8 ∧
      leNat (slice 24 2 b) = 37 ∧ FrameBody.ofBytes b = ⟨0x01020304, 5, 6, true, true, 2, false, 14400, -1, 37⟩ := by decide +kernel

/-- The page slot of a context (R156): handle 0x12345 lies in slot 5 of the page that directory entry 0x48D names. -/
theorem test_directory_entry : State.dirEntryAddr 0x1000 0x12345 = 0x1000 + 8 * 0x48D := by decide +kernel

/-- The feeder's span of the sample path's example: x[i] = 1,000 + 3i, but x[100] = 1,305. -/
def feederSpan : List Int := (upto 256).map fun i => if i = 100 then 1305 else 1000 + 3 * i

/-- The block of the sample path's example of a coded span (file 08): 54 bytes, order 2. -/
theorem test_coded_block :
    codeBlock 0 0 (fun _ => false) (fun _ => false) feederSpan =
      ([0x10#8, 0x00#8, 0xFF#8, 0x00#8, 0x36#8, 0x00#8, 0x00#8, 0x00#8, 0x03#8, 0xE8#8, 0x03#8, 0xEB#8, 0x07#8, 0xFF#8, 0xFF#8, 0xFF#8,
        0xE0#8, 0xFF#8, 0xFF#8, 0xFF#8, 0xFF#8, 0x07#8, 0xFF#8, 0xFF#8, 0xFF#8, 0xF8#8, 0x3C#8, 0x00#8, 0x80#8, 0x00#8, 0x08#8, 0x01#8] ++
       [0xFF#8, 0xFF#8, 0xFF#8, 0x83#8, 0xFF#8, 0xFF#8, 0xFF#8, 0xFC#8, 0x1F#8, 0xFF#8, 0xFF#8, 0xFF#8, 0xE0#8, 0xFF#8, 0xFF#8, 0xFF#8,
        0xFF#8, 0x07#8, 0xFF#8, 0xFF#8, 0xFF#8, 0xF8#8], false) := by decide +kernel

/-- Step 1 of the register interface's example (file 16): a one-byte write of TIM_CTL is dropped and logged, and source 134 becomes active. -/
theorem test_narrow_write_is_logged :
    let t := runs (.registerWrite 0 0x1000 [(1, 1)] 0) rdy
    t.rd .GCTL_ACCESS_ERR 0 = 0x88010001#64 ∧ t.rd .GCTL_ACCESS_ADDR 0 = 0x1000#64 ∧ t.rd .TIM_CTL 0 = rdy.rd .TIM_CTL 0 ∧
      t.levelActive 134 = true := by decide +kernel

/-- Step 3 of that example: a 64-bit read clears GCTL_ACCESS_ERR and leaves what it returned in the shadow. -/
theorem test_access_err_read_clears :
    let t := runs (.gctlAccessErrRead true) (runs (.registerWrite 0 0x1000 [(1, 1)] 0) rdy)
    t.rd .GCTL_ACCESS_ERR 0 = 0 ∧ t.rd .GCTL_ACCESS_ERR_SHADOW 0 = 0x88010001#64 := by decide +kernel

/-- Step 4 of that example: writing 1 to the alias word 0xA_0024 sets TIM_CTL.PPS_OUT_EN and leaves FRAME_EN. -/
theorem test_alias_word_sets_one_bit :
    let t := runs (.aliasWrite 0 0xA0024 15 1 0) rdy
    t.fget .TIM_CTL_PPS_OUT_EN = 1 ∧ t.fget .TIM_CTL_FRAME_EN = rdy.fget .TIM_CTL_FRAME_EN := by decide +kernel

/-- The example of R358: with G = 3, priority 0x2A is group 5 with sub-priority 2, and 0x2C is group 5. -/
theorem test_priority_groups :
    let s := rdy.fset .ICU_PRIGROUP_G 3
    s.prioGroup 0x2A = 5 ∧ s.prioGroup 0x2C = 5 := by decide +kernel

/-- An empty queue leaves the state as it is; of two commands only the first is taken (log entry 5). -/
theorem test_queue_order :
    (rdy.after (step rdy)).pending = [] ∧
      (let s := { rdy with pending := [.ppsInLost, .refInValid] }
       (s.after (step s)).pending = [Instr.refInValid]) := by decide +kernel

/-- The blocks of the four lanes carry the messages in the order sent: what a receiver takes from them begins with the message that left (R376, R377). -/
theorem test_twin_lanes :
    let s : State := { rdy with out := [.twin 0x13 5 (zeros 8), .twin 0x13 6 (zeros 8), .twin 1 0 (zeros 4)] }
    (twinReceived ((upto 4).map s.twinBlocks)).take 20 = twinMsg 0x13 5 (zeros 8) := by decide +kernel

/-- What `Accepted` asks, as a check. -/
def acceptedCheck (r op : Nat) (b : List Byte) (s : State) (names : List (Nat × Nat)) : Bool :=
  s.takes r 1 && (s.ring r).geoOk && b.length == 32 && cmdOp b == op && cmdOwn b && !s.cmdWaits r op b names && cmdOpN b == 255 - op &&
  (!s.inSafe || cmdSafe op) && !cmdReserved op && (!cmdManagerOnly op || (s.ring r).slice.isNone) && nfield (cmdDw0 b) 29 24 == 0 &&
  nfield (cmdDw0 b) 7 0 == 0 && leNat (slice 4 4 b) == 0 && onlyFields (cmdArg0 b) (cmdFields op).1 && onlyFields (cmdArg1 b) (cmdFields op).2.1 &&
  onlyFields (cmdArg2 b) (cmdFields op).2.2 && (cmdAddress op b).all fun x => x.1 % x.2 == 0

theorem accepted_of {r op : Nat} {b : List Byte} {s : State} {names : List (Nat × Nat)} (h : acceptedCheck r op b s names = true) :
    Accepted r op b s names := by
  simp only [acceptedCheck, Bool.and_eq_true, Bool.or_eq_true, Bool.not_eq_true', beq_iff_eq, Option.isNone_iff_eq_none] at h
  obtain ⟨⟨⟨⟨⟨⟨⟨⟨⟨⟨⟨⟨⟨⟨⟨⟨h1, h2⟩, h3⟩, h4⟩, h5⟩, h6⟩, h7⟩, h8⟩, h9⟩, h10⟩, h11⟩, h12⟩, h13⟩, h14⟩, h15⟩, h16⟩, h17⟩ := h
  refine ⟨h1, h2, h3, h4, h5, h6, h7, fun h => ?_, h9, fun h => ?_, h11, h12, h13, h14, h15, h16, fun a n h => ?_⟩
  · simpa [h] using h8
  · simpa [h] using h10
  · simpa [h] using h17

theorem forall_some {α : Type} {o : Option α} {p : α → Prop} (h : ∀ x ∈ o.toList, p x) : ∀ x, o = some x → p x :=
  fun x hx => h x (by simp [hx])

theorem ringFor_of {r n : Nat} {s : State}
    (h : 4 ≤ n ∧ n < s.nRings ∧ n ≠ r ∧ ((s.ring r).slice = none ∨ (s.ring n).slice = (s.ring r).slice) ∧
      ∀ k ∈ (s.ring n).slice.toList, s.sliceFixed k = false) : RingFor r n s :=
  ⟨h.1, h.2.1, h.2.2.1, h.2.2.2.1, forall_some h.2.2.2.2⟩

theorem leNat_leBytes (n : Nat) : ∀ v, v < 256 ^ n → leNat (leBytes n v) = v := by
  induction n with
  | zero => intro v h; simp [leBytes, leNat] at *; omega
  | succ n ih =>
    intro v h
    rw [leBytes, leNat, ih _ (Nat.div_lt_of_lt_mul (by rw [Nat.pow_succ] at h; omega))]
    simp only [BitVec.toNat_ofNat]
    omega

/-- An image whose CRC field holds the CRC over the rest checks where its plain fields do (Table 10.9). -/
theorem imageOk_of {img h b : List Byte} (e : img = h ++ leBytes 4 (crc32c (h ++ zeros 4 ++ b)).toNat ++ b) (hl : h.length = 252)
    (hc : (leNat (slice 0 4 img) == 1 && leNat (slice 4 4 img) == img.length && decide (0x1000 ≤ img.length)) = true)
    (hp : ([(32, 4), (40, 4), (48, 8), (64, 8), (80, 4)].all fun x =>
      leNat (slice (x.1 + x.2) x.2 img) == 2 ^ (8 * x.2) - 1 - leNat (slice x.1 x.2 img)) = true) : State.imageOk img = true := by
  have h1 : slice 252 4 img = leBytes 4 (crc32c (h ++ zeros 4 ++ b)).toNat := by
    rw [e, slice, List.append_assoc, ← hl, List.drop_left]
    exact List.take_left' (by simp [leBytes])
  have h2 : img.take 252 ++ zeros 4 ++ img.drop 256 = h ++ zeros 4 ++ b := by
    have a : img.take 252 = h := by rw [e, List.append_assoc, ← hl, List.take_left]
    have d : img.drop 256 = b := by rw [e]; exact List.drop_left' (by simp [leBytes, hl])
    rw [a, d]
  have h3 := leNat_leBytes 4 _ (Nat.lt_of_lt_of_eq (crc32c (h ++ zeros 4 ++ b)).isLt (by decide))
  simp only [Bool.and_eq_true, List.all_cons, List.all_nil, beq_iff_eq, decide_eq_true_eq] at hc hp
  unfold State.imageOk
  simp only [Bool.and_eq_true, beq_iff_eq, decide_eq_true_eq, h1, h2]
  exact ⟨⟨⟨⟨⟨⟨hc, h3⟩, hp.1⟩, hp.2.1⟩, hp.2.2.1⟩, hp.2.2.2.1⟩, hp.2.2.2.2.1⟩

/-- States and operands that meet the hypotheses of each clause of `Obligations.TimeInputsAndPhaseMarksAct`. -/
theorem witness_TimeInputsAndPhaseMarksAct :
    (let s := rdy.fset .TIM_STS_PPS_OK 1; s.flag .TIM_STS_PPS_OK = true) ∧
    (let s := rdy.fset .TIM_STS_REF_OK 1; s.flag .TIM_STS_REF_OK = true) ∧
    (let s := rdy.fset .TIM_STS_IRIG_OK 1; s.flag .TIM_STS_IRIG_OK = true) ∧
    (let s := (rdy.fset .TIM_STS_IRIG_OK 1).onTim fun b => { b with irigBad := 1 }; s.flag .TIM_STS_IRIG_OK = true ∧ 1 ≤ s.tim.irigBad) ∧
    (let s := rdy; let r := false; r = s.ctlBit 8) ∧
    (let s := (rdy.fset .TIM_STS_LABEL_VALID 1).onTim fun b => { b with effCtl := 8 }; let r := true; let t := 5000001000; (∀ l, s.tim.irigLabel = some l ∨ s.tim.labelArmed = some l → l = nearSec t) ∧ r = !s.ctlBit 8 ∧ (pastSec t).natAbs ≤ 1000 ∧ s.flag .TIM_STS_LABEL_VALID = true ∧ s.ctlBit 3 = true) ∧
    (let s := rdy; let r := true; let t := 5000001001; r = !s.ctlBit 8 ∧ 1000 < (pastSec t).natAbs ∧ (s.tim.rejected.length < 2 ∨ agree ((pastSec t :: s.tim.rejected).take 3) = false)) ∧
    (let s := rdy.onTim fun b => { b with rejected := [1500, 900] }; let r := true; let t := 5000001001; r = !s.ctlBit 8 ∧ 1000 < (pastSec t).natAbs ∧ 2 ≤ s.tim.rejected.length ∧ agree ((pastSec t :: s.tim.rejected).take 3) = true) ∧
    (let s := (rdy.fset .TIM_STS_LABEL_VALID 1).fset .TIM_STS_PHASE_SRC 2; let t := 5000000300; (∀ l, s.tim.irigLabel = some l ∨ s.tim.labelArmed = some l → l = nearSec t) ∧ s.fget .TIM_STS_PHASE_SRC = 2 ∧ s.flag .TIM_STS_LABEL_VALID = true) ∧
    (let hostSec := 100; let hostNs := 999999999; hostNs < 1000000000 ∧ hostSec < 18446744073) ∧
    (let s := ((rdy.fset .TIM_STS_LABEL_VALID 1).fset .TIM_STS_PTM_OK 1).onTim fun b => { b with effCtl := 32 }; let hostSec := 5; let hostNs := 7; let loc := 5000000300; (∀ l, s.tim.labelArmed = some l → l = hostSec) ∧ hostNs < 1000000000 ∧ hostSec < 18446744073 ∧ s.timeRow.phaseSrc = 3 ∧ s.flag .TIM_STS_PTM_OK = true ∧ s.flag .TIM_STS_LABEL_VALID = true ∧ (((loc : Nat) : Int) - (hostSec * 1000000000 + hostNs : Nat)).natAbs < 500000000) ∧
    (let s := (rdy.fset .TIM_STS_PTM_OK 1).onTim fun b => { b with ptmBad := 2 }; s.flag .TIM_STS_PTM_OK = true ∧ 2 ≤ s.tim.ptmBad) := by
  repeat' first | decide +kernel | (rintro l (h | h) <;> exact (Option.some_ne_none l h.symm).elim) | exact forall_some (by decide +kernel) | constructor

/-- States and operands that meet the hypotheses of each clause of `Obligations.TimeBaseControlsAndReadsAct`. -/
theorem witness_TimeBaseControlsAndReadsAct :
    (let s := rdy.fset .TIM_STS_HOLDOVER 1; s.flag .TIM_STS_HOLDOVER = true) ∧
    (let s := (rdy.fset .TIM_STS_STEP_PENDING 1).fset .TIM_CTL_FRAME_EN 1; s.ready = true ∧ s.flag .TIM_STS_STEP_PENDING = true ∧ s.tim.stepAt = none ∧ s.flag .TIM_CTL_FRAME_EN = true) ∧
    (let s := (rdy.fset .TIM_STS_STEP_PENDING 1).onTim fun b => { b with stepOfs := some 5000 }; let d := (5000 : Int); s.ready = true ∧ s.flag .TIM_STS_STEP_PENDING = true ∧ s.tim.stepAt = none ∧ s.tim.stepOfs = some d ∧ s.flag .TIM_CTL_FRAME_EN = false) ∧
    (let s := rdy; s.ready = true) ∧
    (let s := rdy; let w := ReadWidth.low; s.ready = true ∧ (w = .full ∨ w = .low)) :=
  by decide +kernel

/-- States and operands that meet the hypotheses of each clause of `Obligations.FrameTickAdvancesOrStepsTheTimeBase`. -/
theorem witness_FrameTickAdvancesOrStepsTheTimeBase :
    (let s := rdy; s.stepDue s.nextTick = none ∧ (s.flag .TIM_CTL_FRAME_EN = true ∨ s.tim.stepOfs = none)) ∧
    (let s := (rdy.fset .TIM_CTL_FRAME_EN 1).onTim fun b => { b with stepOfs := some 5000, stepAt := some 0, tickAt := 1000000000 }; let d := (5000 : Int); s.stepDue s.nextTick = some d) :=
  by decide +kernel

/-- States and operands that meet the hypotheses of each clause of `Obligations.DevicesFollowTheTimeBase`. -/
theorem witness_DevicesFollowTheTimeBase :
    (let s := rdy.onDev 1 fun v => { v with delays := [(0, { Delay.init with mean := some 100 })] }; let d := 1; let up := 0; let f := (⟨9, 5, 6, false, false, 2, false, 14400, 3, 37⟩ : FrameBody); let b := f.toBytes; let down := (100 : Int); (∀ n, (s.dev d).lastFrame = some n → later32 f.frameNo n = true) ∧ FrameBody.ofBytes b = f ∧ frameBad f = false ∧ s.upOf d = some up ∧ (s.delay d up).down = some down) ∧
    (let b := (⟨9, 5, 6, false, false, 7, true, 14400, 3, 37⟩ : FrameBody).toBytes.set 14 0xE7; frameBad (FrameBody.ofBytes b) = true) ∧
    (let s := rdy; let n := 3; let b := delayReqBytes 5 2560000; FreeToSend (.port (.root n)) 32 s ∧ (delayReqMean b ≤ 2560000 ∨ delayReqMean b = 2 ^ 32 - 1)) ∧
    (let s := linkUp rdy 2; let d := 1; let i := 4; let b := delayReqBytes 5 2560000; FreeToSend (.port (.hub d i)) 32 s ∧ (delayReqMean b ≤ 2560000 ∨ delayReqMean b = 2 ^ 32 - 1)) ∧
    (let s := portIn rdy (.root 3) 4; let p := PortId.root 3; let b := delayReqBytes 5 2560001; s.absentEnd (.port p) = false ∧ delayReqMean b ≠ 2 ^ 32 - 1 ∧ 2560000 < delayReqMean b ∧ (s.portState p = 4 ∨ s.portState p = 5)) ∧
    (let s := rdy.onDev 1 fun v => { v with delays := [(0, { Delay.init with reqT1 := some 100 })] }; let d := 1; let up := 0; let t1 := (100 : Int); let t2 := 0; let t3 := 10; let b := delayRespBytes 0 t2 t3; let t4 := (200 : Int); (∀ m, (s.delay d up).mean = some m → (((t4 - t1) - (t3 - t2)) / 2 - m).natAbs ≤ 1280) ∧ (t2 : Int) = delayRespT2 b ∧ (t3 : Int) = delayRespT3 b ∧ delayRespSeq b = (s.delay d up).reqSeq ∧ (s.delay d up).reqT1 = some t1 ∧ t4 - t1 ≤ 10240000 ∧ 0 ≤ ((t4 - t1) - (t3 - t2)) / 2) ∧
    (let s := rdy.onDev 1 fun v => { v with delays := [(0, { Delay.init with reqT1 := some 100, mean := some 1000, rejects := [2300] })] }; let d := 1; let up := 0; let t1 := (100 : Int); let t2 := 0; let t3 := 10; let b := delayRespBytes 0 t2 t3; let t4 := (4672 : Int); let m := (1000 : Int); let x := (2281 : Int); (t2 : Int) = delayRespT2 b ∧ (t3 : Int) = delayRespT3 b ∧ delayRespSeq b = (s.delay d up).reqSeq ∧ (s.delay d up).reqT1 = some t1 ∧ x = ((t4 - t1) - (t3 - t2)) / 2 ∧ (s.delay d up).mean = some m ∧ 1280 < (x - m).natAbs ∧ (s.delay d up).rejects.length < 2) ∧
    (let s := rdy.onDev 1 fun v => { v with delays := [(0, { Delay.init with reqT1 := some 100, mean := some 1000, rejects := [2300, 3500] })] }; let d := 1; let up := 0; let t1 := (100 : Int); let t2 := 0; let t3 := 10; let b := delayRespBytes 0 t2 t3; let t4 := (4672 : Int); let x := (2281 : Int); let y := (2300 : Int); let z := (3500 : Int); (t2 : Int) = delayRespT2 b ∧ (t3 : Int) = delayRespT3 b ∧ delayRespSeq b = (s.delay d up).reqSeq ∧ (s.delay d up).reqT1 = some t1 ∧ t4 - t1 ≤ 10240000 ∧ x = ((t4 - t1) - (t3 - t2)) / 2 ∧ 0 ≤ x ∧ (s.delay d up).rejects = [y, z] ∧ (x - y).natAbs ≤ 1280 ∧ (x - z).natAbs ≤ 1280 ∧ (y - z).natAbs ≤ 1280) ∧
    (let s := rdy.onDev 1 fun v => { v with delays := [(0, { Delay.init with reqT1 := some 100 })] }; let d := 1; let up := 0; let t1 := (100 : Int); let b := delayRespBytes 0 0 10; let t4 := (10240101 : Int); delayRespSeq b = (s.delay d up).reqSeq ∧ (s.delay d up).reqT1 = some t1 ∧ 10240000 < t4 - t1) ∧
    (let s := rdy.onDev 1 fun v => { v with delays := [(0, { Delay.init with reqT1 := some 100 })] }; let d := 1; let up := 0; let t1 := (100 : Int); (s.delay d up).reqT1 = some t1) ∧
    (let s := rdy.onDev 1 fun v => { v with frameMiss := 16 }; let d := 1; 16 ≤ (s.dev d).frameMiss) := by
  unfold FreeToSend; decide +kernel

/-- States and operands that meet the hypotheses of each clause of `Obligations.LinksGainLockAndComeUp`. -/
theorem witness_LinksGainLockAndComeUp :
    (let s := rdy; let l := LinkEndId.port (.root 2); let g := lineGroups false (idle1 ++ idle1 ++ idle1); let rd := false; (s.link l).rate = 0 ∧ s.absentEnd l = false ∧ syncGained g = some rd) ∧
    (let s := rdy.onLink (.dev 1 0) (fun k => { k with rate := 1 }); let l := LinkEndId.dev 1 0; let b := lockBlocks; let h := 0; (s.link l).rate ≠ 0 ∧ s.absentEnd l = false ∧ lockGained b = some h) ∧
    (let s := linkUp rdy 2; let p := PortId.root 2; let g := [0, 0, 0, 0]; (s.link (.port p)).rate = 0 ∧ (s.link (.port p)).sync = true ∧ syncMissed (s.link (.port p)).rxRd g = true) ∧
    (let s := rdy.onLink (.dev 1 0) (fun k => { k with sync := true, up := true }); let d := 1; let up := 0; let g := [0, 0, 0, 0]; (s.link (.dev d up)).rate = 0 ∧ (s.link (.dev d up)).sync = true ∧ syncMissed (s.link (.dev d up)).rxRd g = true) ∧
    (let s := (linkUp rdy 2).onLink (.port (.root 2)) (fun k => { k with rate := 1, cwLock := true }); let p := PortId.root 2; let b := badBlocks; (s.link (.port p)).rate ≠ 0 ∧ (s.link (.port p)).cwLock = true ∧ lockMissed (s.link (.port p)).rxHist b = true) ∧
    (let s := rdy.onLink (.dev 1 0) (fun k => { k with rate := 1, cwLock := true, up := true }); let d := 1; let up := 0; let b := badBlocks; (s.link (.dev d up)).rate ≠ 0 ∧ (s.link (.dev d up)).cwLock = true ∧ lockMissed (s.link (.dev d up)).rxHist b = true) ∧
    (let s := (portIn rdy (.root 2) 2).onLink (.port (.root 2)) (fun k => { k with sync := true }); let n := 2; let arg := 256; (s.link (.port (.root n))).rxOk = true ∧ s.portState (.root n) = 2 ∧ capsOk arg = true) ∧
    (let s := portIn rdy (.root 2) 2; let p := PortId.root 2; let t := 5; FreeToSend (.port p) 16 (s.at_ t) ∧ s.portState p = 2 ∧ (s.link (.port p)).seenRecv = false) ∧
    (let s := rdy.onLink (.port (.root 2)) (fun k => { k with waiting := [⟨6, 0, 0, 0⟩] }); let l := LinkEndId.port (.root 2); let t := 5; let c := (⟨6, 0, 0, 0⟩ : Linkctl); FreeToSend l 16 (s.at_ t) ∧ (s.link l).waiting = [c] ∧ c.typ ≠ 9 ∧ Tbl.find (s.link l).echoRecv c.typ = none) ∧
    (let s := rdy.onLink (.port (.root 2)) (fun k => { k with waiting := [⟨6, 0, 0, 0⟩] }); let l := LinkEndId.port (.root 2); let t := 69300; let c := (⟨6, 0, 0, 0⟩ : Linkctl); (s.link l).waiting = [c] ∧ c.typ ≠ 9 ∧ Tbl.find (s.link l).echoRecv c.typ = none ∧ (s.at_ t).tickHold l 16 0 = true) := by
  unfold FreeToSend; decide +kernel

/-- States and operands that meet the hypotheses of each clause of `Obligations.PacketsAreCheckedAndReplayed`. -/
theorem witness_PacketsAreCheckedAndReplayed :
    (let s := (linkUp rdy 2).onLink (.port (.root 2)) (fun k => { k with rx := framed 0 ((⟨8, true, 0, 1, 0, 1, 1, 0, []⟩ : Pkt).raw 0).bytes }); let n := 2; let r := (⟨8, true, 0, 1, 0, 1, 1, 0, []⟩ : Pkt).raw 0; let line := RxLine.groups []; let t := 5; let u := (s.at_ t).takeLine (.port (.root n)) line; PacketCame (.port (.root n)) r u ∧ FreeToSend (.port (.root n)) 16 u ∧ u = (s.at_ t).takeLine (.port (.root n)) line ∧ headerOk r true = true ∧ pidSeq r.pid = true ∧ (s.link (.port (.root n))).up = true ∧ r.errored = false ∧ r.trailer = rawCrc r ∧ r.lseq = (s.link (.port (.root n))).rxSeq) ∧
    (let s := (linkUp rdy 2).onLink (.port (.root 2)) (fun k => { k with rx := (framed 0 ((⟨8, true, 0, 1, 0, 1, 1, 0, []⟩ : Pkt).raw 0).bytes).set 18 (RxSym.byte 0 0 true) }); let n := 2; let r := s.front (.port (.root 2)); let line := RxLine.groups []; let t := 5; let u := (s.at_ t).takeLine (.port (.root n)) line; PacketCame (.port (.root n)) r u ∧ FreeToSend (.port (.root n)) 16 u ∧ u = (s.at_ t).takeLine (.port (.root n)) line ∧ headerOk r true = true ∧ pidSeq r.pid = true ∧ (s.link (.port (.root n))).up = true ∧ (r.errored = true ∨ (r.trailer ≠ rawCrc r ∧ r.trailer ≠ ~~~rawCrc r)) ∧ (s.link (.port (.root n))).retryVal = none) ∧
    (let s := (linkUp rdy 2).onLink (.port (.root 2)) (fun k => { k with rx := framed 0 (List.replicate 20 7) }); let n := 2; let line := RxLine.groups []; let t := 5; let u := (s.at_ t).takeLine (.port (.root n)) line; HeaderCame (.port (.root n)) u ∧ u = (s.at_ t).takeLine (.port (.root n)) line ∧ headOk (u.front (.port (.root n))) true = false) ∧
    (let s := (linkUp rdy 2).onLink (.port (.root 2)) (fun k => { k with replay := [⟨3, .quiet, 20, 0⟩, ⟨4, .quiet, 20, 0⟩] }); let l := LinkEndId.port (.root 2); let seq := 3; (s.link l).up = true ∧ (Kept.after seq (s.link l).replay).length < (s.link l).replay.length) ∧
    (let s := (linkUp rdy 2).onLink (.port (.root 2)) (fun k => { k with replay := [⟨3, .quiet, 20, 0⟩, ⟨4, .quiet, 20, 0⟩] }); let l := LinkEndId.port (.root 2); let seq := 4; let t := 5; (s.link l).up = true ∧ s.replaysOut l seq = false ∧ Kept.from seq (s.link l).replay ≠ [] ∧ s.txForced l = false ∧ s.absentEnd l = false ∧ (s.at_ t).tickHold l (keptSpan (Kept.from seq (s.link l).replay)) 0 = false) ∧
    (let s := (linkUp rdy 2).onLink (.port (.root 2)) (fun k => { k with replay := [⟨3, .frame 3 ⟨9, 5, 6, false, false, 2, false, 14400, 3, 37⟩, 52, 7⟩, ⟨4, .quiet, 20, 0⟩] }); let l := LinkEndId.port (.root 2); let t := 5; let k := (⟨3, .frame 3 ⟨9, 5, 6, false, false, 2, false, 14400, 3, 37⟩, 52, 7⟩ : Kept); let rest := [(⟨4, .quiet, 20, 0⟩ : Kept)]; (s.link l).up = true ∧ (s.link l).replay = k :: rest ∧ s.replaysOut l k.lseq = false ∧ s.txForced l = false ∧ s.absentEnd l = false ∧ (s.at_ t).tickHold l (keptSpan (s.link l).replay) 0 = false) ∧
    (let s := (linkUp rdy 2).onLink (.port (.root 2)) (fun k => { k with replayCnt := 8, replayFrom := 3 }); let p := PortId.root 2; let seq := 3; (s.link (.port p)).up = true ∧ s.replaysOut (.port p) seq = true ∧ s.portState p = 4) ∧
    (let s := (linkUp rdy 2).onLink (.port (.root 2)) (fun k => { k with replay := [⟨3, .quiet, 20, 0⟩, ⟨4, .quiet, 20, 0⟩], replayCnt := 8, replayFrom := 3 }); let p := PortId.root 2; let k := (⟨3, .quiet, 20, 0⟩ : Kept); let rest := [(⟨4, .quiet, 20, 0⟩ : Kept)]; (s.link (.port p)).up = true ∧ (s.link (.port p)).replay = k :: rest ∧ s.replaysOut (.port p) k.lseq = true ∧ s.portState p = 4) := by
  unfold PacketCame FreeToSend HeaderCame; decide +kernel

/-- States and operands that meet the hypotheses of each clause of `Obligations.RateChangesRunToTheirEnd`. -/
theorem witness_RateChangesRunToTheirEnd :
    (let s := rdy; let d := 1; let up := 0; FreeToSend (.dev d up) 16 s) ∧
    (let s := (linkUp rdy 2).onPort (.root 2) (fun q => { q with rateChg := some ⟨1, 9, false, true, false, false, false⟩ }); let p := PortId.root 2; let c := (⟨1, 9, false, true, false, false, false⟩ : RateChange); let arg := 1; (s.port p).rateChg = some c ∧ c.reqSent = true ∧ nfield arg 0 0 = c.target ∧ nfield arg 1 1 = 0) ∧
    (let s := (linkUp rdy 2).onPort (.root 2) (fun q => { q with rateNow := some ⟨1, 0, true, true, false, false, false⟩ }); let p := PortId.root 2; let c := (⟨1, 0, true, true, false, false, false⟩ : RateChange); let arg := 3; (s.port p).rateNow = some c ∧ c.reqSent = true ∧ c.acked = false ∧ nfield arg 0 0 = c.target ∧ nfield arg 1 1 = 1) ∧
    (let s := (linkUp rdy 2).onPort (.root 2) (fun q => { q with rateChg := some ⟨1, 9, false, true, false, false, false⟩ }); let p := PortId.root 2; let c := (⟨1, 9, false, true, false, false, false⟩ : RateChange); FreeToSend (.port p) 16 s ∧ (s.port p).rateChg = some c ∧ (s.port p).rateNow = none ∧ c.reqSent = true ∧ c.acked = false ∧ s.inGuard (.port p) = false) ∧
    (let s := (linkUp rdy 2).onTim (fun b => { b with now := 68000 }); let p := PortId.root 2; (s.port p).rateNow = none ∧ s.inGuard (.port p) = true) ∧
    (let s := ((linkUp rdy 2).putState (.root 2) 8).onPort (.root 2) (fun q => { q with rateChg := some ⟨1, 9, false, true, false, false, false⟩ }); let p := PortId.root 2; let c := (⟨1, 9, false, true, false, false, false⟩ : RateChange); (s.port p).rateChg = some c ∧ s.portState p = 8 ∧ (s.link (.port p)).rxOk = true) ∧
    (let s := ((linkUp rdy 2).putState (.root 2) 8).onPort (.root 2) (fun q => { q with rateChg := some ⟨0, 9, false, true, false, false, false⟩, oldRate := 1 }); let p := PortId.root 2; let c := (⟨0, 9, false, true, false, false, false⟩ : RateChange); (s.port p).rateChg = some c ∧ s.portState p = 8) ∧
    (let s := rdy.onLink (.dev 1 0) (fun k => { k with ratePend := some (1, 9, false) }); let d := 1; let up := 0; let r := 1; let f := 9; let b := false; (s.link (.dev d up)).ratePend = some (r, f, b)) := by
  unfold FreeToSend; decide +kernel

/-- States and operands that meet the hypotheses of each clause of `Obligations.PortsConnectAndFall`. -/
theorem witness_PortsConnectAndFall :
    (let s := portIn rdy (.root 2) 1; let p := PortId.root 2; s.portState p = 1 ∧ field (s.port p).cfg 4 4 = 0) ∧
    (let s := ((portIn rdy (.root 2) 1).onPort (.root 2) (fun q => { q with cfg := 16 })).fsetN .PRT_STS_LOS 2 1; let p := PortId.root 2; field (s.port p).cfg 4 4 = 1 ∧ s.flagN .PRT_STS_LOS p.code = true) ∧
    (let s := (linkUp rdy 2).putState (.root 2) 2; let p := PortId.root 2; s.portState p = 2 ∧ (s.link (.port p)).up = true ∧ (s.port p).rateNow = none) ∧
    (let s := portIn rdy (.root 2) 2; let p := PortId.root 2; s.portState p = 2 ∧ (s.link (.port p)).up = false) ∧
    (let s := portIn rdy (.hub 1 2) 5; let p := PortId.hub 1 2; s.portState p = 5 ∧ (s.link (.port p)).up = false) ∧
    (let s := portIn rdy (.root 2) 7; let p := PortId.root 2; s.portState p = 7 ∧ (s.link (.port p)).up = false) ∧
    (let s := portIn rdy (.root 2) 3; let p := PortId.root 2; s.portState p = 3 ∧ (s.port p).prop = false) ∧
    (let s := (linkUp rdy 2).onPort (.root 2) (fun q => { q with retrains := [4, 3] }); let p := PortId.root 2; s.portState p = 4) :=
  by decide +kernel

/-- States and operands that meet the hypotheses of each clause of `Obligations.PortCommandsAct`. -/
theorem witness_PortCommandsAct :
    (let s := rdy; let n := 63; s.ready = true ∧ n < s.nPorts ∧ s.portState (.root n) = 0) ∧
    (let s := linkUp rdy 2; let n := 2; s.ready = true ∧ n < s.nPorts) ∧
    (let s := (portIn rdy (.root 2) 9).fsetN .PRT_CTL_ENABLE 2 1; let n := 2; s.ready = true ∧ n < s.nPorts ∧ s.fgetN .PRT_CTL_ENABLE n = 1 ∧ s.portState (.root n) = 9) ∧
    (let s := (linkUp rdy 2).fsetN .PRT_CTL_ENABLE 2 1; let n := 2; s.ready = true ∧ n < s.nPorts ∧ s.fgetN .PRT_CTL_ENABLE n = 1 ∧ s.portState (.root n) = 4) ∧
    (let s := (portIn rdy (.root 2) 6).fsetN .PRT_CTL_ENABLE 2 1; let n := 2; s.ready = true ∧ n < s.nPorts ∧ s.fgetN .PRT_CTL_ENABLE n = 1 ∧ s.portState (.root n) = 6) ∧
    (let s := (linkUp rdy 2).fsetN .PRT_CTL_ENABLE 2 1; let n := 2; s.ready = true ∧ n < s.nPorts ∧ s.fgetN .PRT_CTL_ENABLE n = 1 ∧ s.portState (.root n) = 4 ∧ Tbl.get [] s.sched.active n = [] ∧ (s.port (.root n)).susp = .none) ∧
    (let s := { (linkUp rdy 2).fsetN .PRT_CTL_ENABLE 2 1 with sched := { Sched.init with active := [(2, [⟨0, 0, false⟩])] } }; let n := 2; s.ready = true ∧ n < s.nPorts ∧ s.fgetN .PRT_CTL_ENABLE n = 1 ∧ s.portState (.root n) = 4 ∧ Tbl.get [] s.sched.active n ≠ []) ∧
    (let s := (portIn rdy (.root 2) 1).fsetN .PRT_CTL_ENABLE 2 1; let n := 2; s.ready = true ∧ n < s.nPorts ∧ s.fgetN .PRT_CTL_ENABLE n = 1 ∧ s.portState (.root n) = 1) :=
  by decide +kernel

/-- States and operands that meet the hypotheses of each clause of `Obligations.EchoesEndResetSuspendAndResume`. -/
theorem witness_EchoesEndResetSuspendAndResume :
    (let s := moduleWith 3 1 DevEp.init; let d := 1; let up := 0; let t := 5; FreeToSend (.dev d up) 16 (s.at_ t) ∧ s.isRepeat (.dev d up) 6 t = false ∧ s.actsFrom d up = true ∧ (s.dev d).kind = 1 ∧ (s.dev d).owesEcho = none) ∧
    (let s := devCtl 2 (ctlOf 0x40 0 1 []); let d := 1; let up := 0; let t := 5; s.isRepeat (.dev d up) 6 t = false ∧ s.actsFrom d up = true ∧ (s.dev d).owesEcho = none) ∧
    (let s := ((linkUp rdy 2).putState (.root 2) 3).onLink (.port (.root 2)) (fun k => { k with waiting := [⟨6, 0, 0, 0⟩] }); let p := PortId.root 2; s.portState p = 3 ∧ s.awaits (.port p) 6 = true ∧ (s.port p).prop = false) ∧
    (let s := moduleWith 3 1 DevEp.init; let d := 1; let up := 0; let t := 5; FreeToSend (.dev d up) 16 (s.at_ t) ∧ s.isRepeat (.dev d up) 7 t = false ∧ s.actsFrom d up = true ∧ (s.dev d).kind = 1 ∧ (s.dev d).owesEcho = none) ∧
    (let s := ((linkUp rdy 2).onLink (.port (.root 2)) (fun k => { k with waiting := [⟨7, 0, 0, 0⟩] })).onPort (.root 2) (fun q => { q with susp := .sent }); let p := PortId.root 2; (∀ n, p = .root n → n ∉ s.pwr.suspended) ∧ s.portState p = 4 ∧ (s.port p).susp = .sent ∧ s.awaits (.port p) 7 = true ∧ (s.port p).wakeHeld = false) ∧
    (let s := (linkUp rdy 2).onPort (.root 2) (fun q => { q with susp := .sent }); let p := PortId.root 2; s.portState p = 4 ∧ (s.port p).susp = .sent) ∧
    (let s := (moduleWith 3 1 DevEp.init).onDev 1 (fun v => { v with suspended := true }); let d := 1; let up := 0; let t := 5; FreeToSend (.dev d up) 16 (s.at_ t) ∧ s.isRepeat (.dev d up) 8 t = false ∧ s.actsFrom d up = true) ∧
    (let s := ((linkUp rdy 2).putState (.root 2) 7).onLink (.port (.root 2)) (fun k => { k with waiting := [⟨8, 0, 0, 0⟩] }); let p := PortId.root 2; s.portState p = 7 ∧ s.awaits (.port p) 8 = true) ∧
    (let s := (portIn rdy (.root 2) 6).onPort (.root 2) (fun q => { q with wakeTraining := true }); let n := 2; s.portState (.root n) = 6 ∧ (s.port (.root n)).wakeTraining = true ∧ (s.port (.root n)).resetPending = false) ∧
    (let s := (portIn (devCtl 2 (ctlOf 0x40 0 1 [])) (.hub 1 4) 6).onPort (.hub 1 4) (fun q => { q with wakeTraining := true }); let d := 1; let i := 4; let up := 0; s.portState (.hub d i) = 6 ∧ (s.port (.hub d i)).wakeTraining = true ∧ (s.port (.hub d i)).resetPending = false ∧ s.upOf d = some up ∧ (s.dev d).suspended = false) ∧
    (let s := (portIn (devCtl 2 (ctlOf 0x40 0 1 [])) (.hub 1 4) 4).onDev 1 (fun v => { v with nports := 4 }); let d := 1; let i := 4; let up := 0; let t := 5; s.isRepeat (.dev d up) 6 t = false ∧ s.actsFrom d up = true ∧ (s.dev d).kind ≠ 1 ∧ (s.dev d).owesEcho = none ∧ 1 ≤ i ∧ i ≤ (s.dev d).nports ∧ s.portState (.hub d i) = 4) ∧
    (let s := (portIn (devCtl 2 (ctlOf 0x40 0 1 [])) (.hub 1 1) 4).onDev 1 (fun v => { v with nports := 4 }); let d := 1; let i := 1; let up := 0; let t := 5; s.isRepeat (.dev d up) 7 t = false ∧ s.actsFrom d up = true ∧ (s.dev d).kind ≠ 1 ∧ (s.dev d).owesEcho = none ∧ 1 ≤ i ∧ i ≤ (s.dev d).nports ∧ s.portState (.hub d i) = 4) := by
  repeat' first | decide +kernel | (unfold FreeToSend; decide +kernel) | (intro n _ h; exact (List.not_mem_nil h).elim) | constructor

/-- States and operands that meet the hypotheses of each clause of `Obligations.TransceiversAreFollowed`. -/
theorem witness_TransceiversAreFollowed :
    (let s := rdy; let bits := 0x1234; (∀ c < 64, nfield bits (4 * c + 3) (4 * c + 3) = 0) ∧ s.side.fault = false) ∧
    (let bits := 0x800; let c := 2; c < 64 ∧ nfield bits (4 * c + 3) (4 * c + 3) = 1) ∧
    (let s := { rdy with side := { Sideband.init with cages := [(2, { Cage.init with modAbs := false, modAbsRun := 1000 })] } }; let n := 2; n < s.nPorts ∧ 1000 ≤ (s.cage n).modAbsRun ∧ (s.cage n).modAbs = false ∧ s.flagN .PRT_STS_XCVR_PRESENT n = false) ∧
    (let s := { ((linkUp rdy 2).fsetN .PRT_STS_XCVR_PRESENT 2 1).onPort (.root 2) (fun q => { q with cfg := 16 }) with side := { Sideband.init with cages := [(2, { Cage.init with modAbsRun := 1000 })] } }; let n := 2; n < s.nPorts ∧ 1000 ≤ (s.cage n).modAbsRun ∧ (s.cage n).modAbs = true ∧ s.flagN .PRT_STS_XCVR_PRESENT n = true ∧ s.portState (.root n) ≠ 0 ∧ field (s.port (.root n)).cfg 4 4 = 1) ∧
    (let s := { rdy with side := { Sideband.init with cages := [(2, { Cage.init with los := true, losRun := 3 })] } }; let n := 2; n < s.nPorts ∧ 3 ≤ (s.cage n).losRun) ∧
    (let s := { rdy with side := { Sideband.init with cages := [(2, { Cage.init with txFault := true, txFaultRun := 3 })] } }; let n := 2; n < s.nPorts ∧ 3 ≤ (s.cage n).txFaultRun ∧ (s.cage n).txFault = true ∧ s.flagN .PRT_STS_TX_FAULT n = false) ∧
    (let s := { rdy with side := { Sideband.init with chainBad := 2 } }; 2 ≤ s.side.chainBad ∧ s.side.fault = false) ∧
    (let s := { rdy with side := { Sideband.init with chainGood := 16, fault := true } }; s.side.chainBad < 2 ∧ 16 ≤ s.side.chainGood ∧ s.side.fault = true) ∧
    (let s := (rdy.fsetN .PRT_STS_XCVR_PRESENT 2 1).onPort (.root 2) (fun q => { q with cfg := 16 }); let n := 2; n < s.nPorts ∧ s.flagN .PRT_STS_XCVR_PRESENT n = true ∧ field (s.port (.root n)).cfg 4 4 = 1 ∧ (s.port (.root n)).identDone = false) ∧
    (let s := rdy.onPort (.root 2) (fun q => { q with reading := true }); let n := 2; let b := ((3 : Byte) :: List.replicate 62 0) ++ 3 :: List.replicate 64 0; (s.port (.root n)).reading = true ∧ (s.port (.root n)).xcvrRead = none ∧ identOk b = true ∧ nfield (leNat (slice 92 1 b)) 6 6 = 0) ∧
    (let s := rdy.onPort (.root 2) (fun q => { q with xcvrRead := some 1 }); let n := 2; let page := 1; (s.port (.root n)).reading = false ∧ (s.port (.root n)).xcvrRead = some page) ∧
    (let s := (rdy.fsetN .PRT_STS_XCVR_PRESENT 2 1).onPort (.root 2) (fun q => { q with cfg := 16 }); let n := 2; n < s.nPorts ∧ field (s.port (.root n)).cfg 4 4 = 1 ∧ s.flagN .PRT_STS_XCVR_PRESENT n = true) :=
  by decide +kernel

/-- States and operands that meet the hypotheses of each clause of `Obligations.CallInsAreAnswered`. -/
theorem witness_CallInsAreAnswered :
    (let e := { DevEp.init with cls := 4, toggle := 1, dataIn := [[1, 2]] }; let s := moduleWith 3 1 e; let d := 1; let up := 0; let p := callTo 4 3 1; let b := ([1, 2] : List Byte); let rest := ([] : List (List Byte)); Serves d p e s ∧ ClearUp d up s ∧ e.cls = 4 ∧ e.dataIn = b :: rest ∧ b.length ≤ 4096) ∧
    (let e := { DevEp.init with cls := 4 }; let s := moduleWith 3 1 e; let d := 1; let up := 0; let p := callTo 4 3 1; Serves d p e s ∧ ClearUp d up s ∧ e.cls = 4 ∧ e.dataIn = []) ∧
    (let x := (⟨7, [1, 2]⟩ : ModEvent); let e := { DevEp.init with cls := 3, events := [x, x] }; let s := moduleWith 3 1 e; let d := 1; let up := 0; let p := callTo 3 3 1; let rest := [x]; Serves d p e s ∧ ClearUp d up s ∧ e.cls = 3 ∧ (s.dev d).kind = 1 ∧ (s.dev d).synced = true ∧ e.events = x :: rest ∧ x.bytes.length ≤ 4088) ∧
    (let x := (⟨7, 5, [1, 2]⟩ : ModBlock); let e := { DevEp.init with cls := 2, blocks := [x] }; let s := moduleWith 3 1 e; let d := 1; let up := 0; let p := callTo 2 3 1; let rest := ([] : List ModBlock); let f := 9; Serves d p e s ∧ ClearUp d up s ∧ e.cls = 2 ∧ (s.dev d).synced = true ∧ (s.dev d).lastFrame = some f ∧ e.sentFrame ≠ some f ∧ e.blocks = x :: rest ∧ x.bytes.length ≤ 4086) ∧
    (let x := (⟨7, 5, [1, 2]⟩ : ModBlock); let e := { DevEp.init with cls := 2, sentFrame := some 9, calls := 1, sent := [(2, x)] }; let s := moduleWith 3 1 e; let d := 1; let up := 0; let p := callTo 2 3 1; let g := 2; let rest := ([] : List (Nat × ModBlock)); let f := 9; Serves d p e s ∧ ClearUp d up s ∧ e.cls = 2 ∧ (s.dev d).synced = true ∧ (s.dev d).lastFrame = some f ∧ e.sentFrame = some f ∧ e.burst + 1 ≤ e.calls ∧ e.sent = (g, x) :: rest ∧ x.bytes.length ≤ 4086) ∧
    (let e := { DevEp.init with cls := 4, halted := true }; let s := moduleWith 3 1 e; let d := 1; let up := 0; let p := callTo 4 3 1; ClearUp d up s ∧ p.devaddr = (s.dev d).addr ∧ p.epnum ≠ 0 ∧ (s.dev d).st = 2 ∧ (s.dev d).ep? p.epnum p.dir = some e ∧ e.cls = p.pflags % 8 ∧ e.halted = true) := by
  repeat' first | decide +kernel | (unfold Serves; decide +kernel) | (unfold ClearUp; decide +kernel) | constructor

/-- States and operands that meet the hypotheses of each clause of `Obligations.CallOutsAndCommandsAct`. -/
theorem witness_CallOutsAndCommandsAct :
    (let e := { DevEp.init with cls := 4, toggle := 1 }; let s := moduleWith 3 0 e; let d := 1; let up := 0; let p := callTo 4 3 0; let data := (⟨7, false, 0, 3, 0, 3, 5, 0, [1, 2]⟩ : Pkt); Serves d p e s ∧ ClearUp d up s ∧ e.cls = 4 ∧ data.pid = 6 + e.toggle % 2) ∧
    (let e := { DevEp.init with cls := 4, toggle := 1 }; let s := moduleWith 3 0 e; let d := 1; let up := 0; let p := callTo 4 3 0; let data := (⟨6, false, 0, 3, 0, 3, 5, 0, [1, 2]⟩ : Pkt); Serves d p e s ∧ ClearUp d up s ∧ e.cls = 4 ∧ data.pid ≠ 6 + e.toggle % 2) ∧
    (let e := { DevEp.init with cls := 1 }; let s := moduleWith 3 0 e; let d := 1; let up := 0; let p := callTo 1 3 0; let data := (⟨6, false, 0, 3, 0, 3, 5, 3, List.replicate 8 0 ++ [1, 254]⟩ : Pkt); Serves d p e s ∧ ClearUp d up s ∧ e.cls = 1 ∧ complPair (data.payload.drop 8) = true ∧ data.payload.length ≤ 4096 ∧ e.lastToggle ≠ some (data.pid % 2) ∧ (s.dev d).synced = true ∧ leNat (data.payload.take 8) = 0) ∧
    (let e := { DevEp.init with cls := 1, armed := [⟨999, []⟩] }; let s := (moduleWith 3 0 e).onDev 1 (fun v => { v with records := [(0, List.replicate 45 0 ++ [1, 0, 0])] }); let d := 1; let up := 0; let p := callTo 1 3 0; let data := (⟨6, false, 0, 3, 0, 3, 5, 3, [110, 0, 0, 0, 0, 0, 0, 0, 1, 254]⟩ : Pkt); let tHold := 100; Serves d p e s ∧ ClearUp d up s ∧ e.cls = 1 ∧ complPair (data.payload.drop 8) = true ∧ data.payload.length ≤ 4096 ∧ e.lastToggle ≠ some (data.pid % 2) ∧ (s.dev d).synced = true ∧ leNat (data.payload.take 8) ≠ 0 ∧ tHold ≤ leNat (data.payload.take 8) ∧ leNat (data.payload.take 8) ≤ tHold + s.execHorizon d) ∧
    (let e := { DevEp.init with cls := 1, lastToggle := some 0, echo := some [9, 9] }; let s := moduleWith 3 0 e; let d := 1; let up := 0; let p := callTo 1 3 0; let data := (⟨6, false, 0, 3, 0, 3, 5, 3, List.replicate 8 0 ++ [1, 254]⟩ : Pkt); let x := ([9, 9] : List Byte); Serves d p e s ∧ ClearUp d up s ∧ e.cls = 1 ∧ complPair (data.payload.drop 8) = true ∧ e.lastToggle = some (data.pid % 2) ∧ e.echo = some x ∧ e.echoLate = false ∧ x.length ≤ 4096) ∧
    (let c := (⟨110, [1, 254]⟩ : ModCmd); let e := { DevEp.init with cls := 1, armed := [⟨111, []⟩, c] }; let s := moduleWith 3 0 e; let d := 1; let ep := 3; let rest := [(⟨111, []⟩ : ModCmd)]; (s.dev d).ep? ep 0 = some e ∧ firstArmed e.armed = some (c, rest)) ∧
    (let e := { DevEp.init with cls := 4 }; let s := moduleWith 3 0 e; let d := 1; let up := 0; let p := callTo 4 3 0; Serves d p e s ∧ ClearUp d up s) ∧
    (let s := moduleWith 3 0 DevEp.init; let d := 1; let p := ({ callTo 4 3 0 with devaddr := 6 } : Pkt); p.devaddr ≠ (s.dev d).addr) := by
  repeat' first | decide +kernel | (unfold Serves; decide +kernel) | (unfold ClearUp; decide +kernel) | constructor

/-- States and operands that meet the hypotheses of each clause of `Obligations.StandardRequestsAreCarriedOut`. -/
theorem witness_StandardRequestsAreCarriedOut :
    (let s := moduleWith 3 0 DevEp.init; let d := 1; let up := 0; let p := ({ callTo 0 0 0 with payload := setupBytes 9 false 1 0 0 } : Pkt); ClearUp d up s ∧ p.devaddr = (s.dev d).addr ∧ p.epnum = 0 ∧ p.pflags % 8 = 0 ∧ (s.dev d).supports p.payload = true) ∧
    (let s := moduleWith 3 0 DevEp.init; let d := 1; let up := 0; let p := ({ callTo 0 0 0 with payload := setupBytes 0x40 false 1 0 0 } : Pkt); ClearUp d up s ∧ p.devaddr = (s.dev d).addr ∧ p.epnum = 0 ∧ p.pflags % 8 = 0 ∧ (s.dev d).supports p.payload = false) ∧
    (let c := ctlOf 0x00 0 3 []; let s := devCtl 1 c; let d := 1; s.request d 0x00 = some c) ∧
    (let c := ctlOf 0x01 0 3 []; let s := devCtl 1 c; let d := 1; let e := { DevEp.init with halted := true }; s.request d 0x01 = some c ∧ setupIndex c.setup % 64 ≠ 0 ∧ (s.dev d).ep? (setupIndex c.setup % 64) (setupIndex c.setup / 128 % 2) = some e) ∧
    (let c := ctlOf 0x02 0 3 []; let s := devCtl 1 c; let d := 1; let e := { DevEp.init with halted := true }; s.request d 0x02 = some c ∧ setupIndex c.setup % 64 ≠ 0 ∧ (s.dev d).ep? (setupIndex c.setup % 64) (setupIndex c.setup / 128 % 2) = some e) ∧
    (let c := ctlOf 0x05 9 0 []; let s := devCtl 1 c; let d := 1; s.request d 0x05 = some c) ∧
    (let c := ctlOf 0x06 0 0 []; let s := devCtl 1 c; let d := 1; s.request d 0x06 = some c) ∧
    (let c := ctlOf 0x08 0 0 []; let s := devCtl 1 c; let d := 1; s.request d 0x08 = some c) ∧
    (let c := ctlOf 0x09 0 0 []; let s := devCtl 1 c; let d := 1; s.request d 0x09 = some c) ∧
    (let c := ctlOf 0x0A 1 0 []; let s := devCtl 1 c; let d := 1; s.request d 0x0A = some c) ∧
    (let c := ctlOf 0x0B 0 0 [255, 255, 255, 255]; let s := devCtl 1 c; let d := 1; let up := 0; s.request d 0x0B = some c ∧ s.upOf d = some up) := by
  repeat' first | decide +kernel | (unfold ClearUp; decide +kernel) | constructor

/-- States and operands that meet the hypotheses of each clause of `Obligations.HubRequestsAreCarriedOut`. -/
theorem witness_HubRequestsAreCarriedOut :
    (let c := ctlOf 0x40 0 4 []; let s := devCtl 2 c; let d := 1; s.request d 0x40 = some c) ∧
    (let c := ctlOf 0x41 0 4 []; let s := devCtl 2 c; let d := 1; let i := 4; s.request d 0x41 = some c ∧ setupIndex c.setup = i ∧ setupValue c.setup = 0 ∧ s.portState (.hub d i) = 0) ∧
    (let c := ctlOf 0x41 1 4 []; let s := portIn (devCtl 2 c) (.hub 1 4) 4; let d := 1; let i := 4; s.request d 0x41 = some c ∧ setupIndex c.setup = i ∧ setupValue c.setup = 1 ∧ s.portState (.hub d i) = 4) ∧
    (let c := ctlOf 0x41 3 4 [9, 0, 0, 0]; let s := ((portIn (devCtl 2 c) (.hub 1 4) 4).fsetN .PRT_STS_PEER_RATE5 (PortId.hub 1 4).code 1).onDev 1 (fun v => { v with records := [(0, List.replicate 32 0 ++ [8])] }); let d := 1; let i := 4; s.request d 0x41 = some c ∧ setupIndex c.setup = i ∧ setupValue c.setup = 3 ∧ s.portState (.hub d i) = 4 ∧ (s.link (.port (.hub d i))).rate = 0 ∧ (s.port (.hub d i)).rateChg = none ∧ s.unrated (.hub d i) = false ∧ s.bothRate5 (.hub d i) = true) ∧
    (let c := ctlOf 0x41 3 4 [9, 0, 0, 0]; let s := portIn (devCtl 2 c) (.hub 1 4) 5; let d := 1; let i := 4; s.request d 0x41 = some c ∧ setupIndex c.setup = i ∧ setupValue c.setup = 3 ∧ s.portState (.hub d i) ≠ 4 ∧ State.hasLink (s.portState (.hub d i)) = true) ∧
    (let c := ctlOf 0x42 3 4 [9, 0, 0, 0]; let s := (portIn (devCtl 2 c) (.hub 1 4) 4).onLink (.port (.hub 1 4)) (fun k => { k with rate := 1 }); let d := 1; let i := 4; s.request d 0x42 = some c ∧ setupIndex c.setup = i ∧ setupValue c.setup = 3 ∧ s.portState (.hub d i) = 4 ∧ (s.link (.port (.hub d i))).rate = 1 ∧ (s.port (.hub d i)).rateChg = none) ∧
    (let c := ctlOf 0x41 4 4 []; let s := devCtl 2 c; let d := 1; let i := 4; s.request d 0x41 = some c ∧ setupIndex c.setup = i ∧ setupValue c.setup = 4) ∧
    (let c := ctlOf 0x41 2 4 []; let s := portIn (devCtl 2 c) (.hub 1 4) 4; let d := 1; let i := 4; s.request d 0x41 = some c ∧ setupIndex c.setup = i ∧ setupValue c.setup = 2 ∧ s.portState (.hub d i) = 4 ∧ (s.port (.hub d i)).susp = .none) ∧
    (let c := ctlOf 0x41 5 4 []; let s := portIn (devCtl 2 c) (.hub 1 4) 4; let d := 1; let i := 4; s.request d 0x41 = some c ∧ setupIndex c.setup = i ∧ setupValue c.setup = 5 ∧ s.portState (.hub d i) = 4) ∧
    (let c := ctlOf 0x41 6 1 []; let s := portIn (devCtl 2 c) (.hub 1 1) 9; let d := 1; let i := 1; s.request d 0x41 = some c ∧ setupIndex c.setup = i ∧ setupValue c.setup = 6 ∧ s.portState (.hub d i) = 9) ∧
    (let c := ctlOf 0x42 0 1 []; let s := portIn (devCtl 2 c) (.hub 1 1) 4; let d := 1; let i := 1; s.request d 0x42 = some c ∧ setupIndex c.setup = i ∧ setupValue c.setup = 0) ∧
    (let c := ctlOf 0x42 2 1 []; let s := portIn (devCtl 2 c) (.hub 1 1) 6; let d := 1; let i := 1; s.request d 0x42 = some c ∧ setupIndex c.setup = i ∧ setupValue c.setup = 2 ∧ s.portState (.hub d i) = 6) ∧
    (let c := ctlOf 0x42 4 1 []; let s := devCtl 2 c; let d := 1; let i := 1; s.request d 0x42 = some c ∧ setupIndex c.setup = i ∧ setupValue c.setup = 4) :=
  by decide +kernel

/-- States and operands that meet the hypotheses of each clause of `Obligations.HubsKeepTheToken`. -/
theorem witness_HubsKeepTheToken :
    (let s := tokenHub fun k => k; let d := 1; let up := 1; FreeToSend (.dev d up) 16 s ∧ (s.dev d).kind = 3) ∧
    (let s := tokenHub fun k => { k with epoch := 65535 }; let d := 1; let up := 1; let epoch := 0; FreeToSend (.dev d up) 16 s ∧ (s.dev d).kind = 3 ∧ epoch = ((s.dev d).token.epoch + 1) % 65536 ∧ (s.dev d).token.holder = none) ∧
    (let s := tokenHub fun k => k; let d := 1; let up := 1; let epoch := 1; let f := 9; FreeToSend (.dev d up) 16 s ∧ (s.dev d).kind = 3 ∧ epoch = ((s.dev d).token.epoch + 1) % 65536 ∧ (s.dev d).token.holder = none ∧ f ≠ 0) ∧
    (let s := (tokenHub fun k => { k with holder := some 0 }).onLink (.dev 1 0) (fun k => { k with up := true }); let d := 1; let up := 1; let h := 0; let epoch := 1; FreeToSend (.dev d up) 16 s ∧ (s.dev d).kind = 3 ∧ epoch = ((s.dev d).token.epoch + 1) % 65536 ∧ (s.dev d).token.holder = some h ∧ h ≠ up ∧ (s.link (.dev d h)).up = true ∧ (s.dev d).token.missed < 2) ∧
    (let s := tokenHub fun k => { k with holder := some 1, epoch := 7 }; let d := 1; let up := 1; let f := 9; (s.dev d).kind = 3 ∧ (s.dev d).token.holder = some up ∧ f ≠ 0) ∧
    (let s := tokenHub fun k => { k with holder := some 1 }; let d := 1; let h := 1; (s.dev d).kind = 3 ∧ (s.dev d).token.holder = some h ∧ (s.dev d).token.gotFrame = false) := by
  unfold FreeToSend; decide +kernel

/-- States and operands that meet the hypotheses of each clause of `Obligations.HandsRunTheirTransactions`. -/
theorem witness_HandsRunTheirTransactions :
    (let x := (⟨3, epIn, .callIn, none, 100, 500, 0, 1, false, false, false, 0, 0, none⟩ : HandItem); let h := { Hand.empty 0 with items := [x], complete := true }; let s := { withCtx (linkUp rings 2) (ctxOf epIn 3 3 2) with deal := { Dealer.init with run := [(2, h)] } }; let n := 2; let tag := 3; let t := 10000; let rest := ([] : List HandItem); let k := CtxSlot.of (ctxOf epIn 3 3 2) 0; Quiet s ∧ FreeToSend (.port (.root n)) 0 (s.at_ t) ∧ s.deal.lists = [] ∧ s.handRun n = some h ∧ h.items = x :: rest ∧ (∀ y ∈ h.items, y.started = false) ∧ s.portState (.root n) = 4 ∧ (s.link (.port (.root n))).up = true ∧ s.treeRuns n h.frame = true ∧ (s.port (.root n)).susp = .none ∧ x.kind = .callIn ∧ x.entry = none ∧ s.ctx? x.eph = some k ∧ s.runs x.eph = true ∧ s.busy x = false ∧ s.roomNow x = true ∧ h.nextAt + (h.lastA - x.a) * 10 ≤ (t - s.tim.tickAt) * 10 ∧ State.fits ((t - s.tim.tickAt) * 10) x.s x.a (s.frameSpan s.tim.tickAt) = true ∧ s.tagOk n tag x.eph (s.attemptOf k x != 1) x.avoid = true ∧ (s.link (.port (.root n))).queue = [] ∧ (s.link (.port (.root n))).replay = []) ∧
    (let x := (⟨3, epIn, .callIn, none, 100, 500, 0, 1, false, false, false, 0, 0, none⟩ : HandItem); let h := { Hand.empty 0 with items := [x], complete := true, nextAt := 50000 }; let s := { withCtx (linkUp rings 2) (ctxOf epIn 3 3 2) with deal := { Dealer.init with run := [(2, h)] } }; let n := 2; let t := 500; let rest := ([] : List HandItem); Quiet s ∧ s.deal.lists = [] ∧ s.handRun n = some h ∧ h.items = x :: rest ∧ (∀ y ∈ h.items, y.started = false) ∧ x.entry = none ∧ s.runs x.eph = true ∧ (t - s.tim.tickAt) * 10 < h.nextAt + (h.lastA - x.a) * 10) := by
  unfold Quiet FreeToSend; decide +kernel

/-- States and operands that meet the hypotheses of each clause of `Obligations.AnswersActOnTheirTransaction`. -/
theorem witness_AnswersActOnTheirTransaction :
    (let s := rdy; let n := 2; let p := answerOf 8 0 []; (s.txns.find? fun x => x.port == n && x.tag == p.tag) = none) ∧
    (let s := bulkGone 1; let n := 2; let p := answerOf 8 0 []; let t := 100000; let x := { txnOf epOut .callOut [1, 2] 1 with depart := some 0 }; (s.txns.find? fun x => x.port == n && x.tag == p.tag) = some x ∧ s.waited x (t * 10) = true) ∧
    (let s := bulkOut 1; let n := 2; let p := answerOf 8 0 []; let t := 5; let x := txnOf epOut .callOut [1, 2] 1; let k := CtxSlot.of (ctxOf epOut 4 3 2) 0; (s.txns.find? fun x => x.port == n && x.tag == p.tag) = some x ∧ s.waited x (t * 10) = false ∧ s.ctx? x.eph = some k) ∧
    (let s := bulkOut 1; let n := 2; let p := answerOf 8 0 []; let t := 5; let x := txnOf epOut .callOut [1, 2] 1; let k := CtxSlot.of (ctxOf epOut 4 3 2) 0; let e := { entryOf epOut 0 2 with data := [1, 2] }; Quiet s ∧ (s.txns.find? fun x => x.port == n && x.tag == p.tag) = some x ∧ s.waited x (t * 10) = false ∧ p.pid = 8 ∧ x.kind = .callOut ∧ s.ctx? x.eph = some k ∧ k.bad = false ∧ s.ctxOk x.eph k.ctx = true ∧ k.ctx.cls = 4 ∧ x.entry = some e.id ∧ s.entry? e.id = some e ∧ e.done = none ∧ e.left 4 ≤ x.data.length) ∧
    (let s := bulkOut 1; let n := 2; let p := answerOf 11 2 []; let t := 5; let x := txnOf epOut .callOut [1, 2] 1; let k := CtxSlot.of (ctxOf epOut 4 3 2) 0; let e := { entryOf epOut 0 2 with data := [1, 2] }; Quiet s ∧ (s.txns.find? fun x => x.port == n && x.tag == p.tag) = some x ∧ s.waited x (t * 10) = false ∧ p.pid = 11 ∧ p.pflags % 16 ≠ 4 ∧ s.ctx? x.eph = some k ∧ k.bad = false ∧ s.ctxOk x.eph k.ctx = true ∧ k.ctx.cls = 4 ∧ k.ctx.state = 2 ∧ Eph.ep x.eph ≠ 0 ∧ x.kind = .callOut ∧ x.entry = some e.id ∧ s.entry? e.id = some e ∧ e.done = none) := by
  unfold Quiet; decide +kernel

/-- States and operands that meet the hypotheses of each clause of `Obligations.MissingAnswersEndOrRetry`. -/
theorem witness_MissingAnswersEndOrRetry :
    (let s := bulkGone 1; let n := 2; let tag := 3; let t := 5; let x := { txnOf epOut .callOut [1, 2] 1 with depart := some 0 }; (s.txns.find? fun x => x.port == n && x.tag == tag) = some x ∧ s.waited x (t * 10) = false) ∧
    (let s := bulkGone 1; let n := 2; let tag := 3; let t := 100000; let x := { txnOf epOut .callOut [1, 2] 1 with depart := some 0 }; let k := CtxSlot.of (ctxOf epOut 4 3 2) 0; let e := { entryOf epOut 0 2 with data := [1, 2] }; Quiet s ∧ (s.txns.find? fun x => x.port == n && x.tag == tag) = some x ∧ s.waited x (t * 10) = true ∧ s.ctx? x.eph = some k ∧ k.bad = false ∧ s.ctxOk x.eph k.ctx = true ∧ k.ctx.cls = 4 ∧ k.ctx.state = 2 ∧ x.attempt < k.ctx.retryLim + 1 ∧ x.entry = some e.id ∧ s.entry? e.id = some e ∧ e.eph = x.eph ∧ e.done = none) ∧
    (let s := bulkGone 4; let n := 2; let tag := 3; let t := 100000; let x := { txnOf epOut .callOut [1, 2] 4 with depart := some 0 }; let k := CtxSlot.of (ctxOf epOut 4 3 2) 0; let e := { entryOf epOut 0 2 with data := [1, 2] }; Quiet s ∧ (s.txns.find? fun x => x.port == n && x.tag == tag) = some x ∧ s.waited x (t * 10) = true ∧ s.ctx? x.eph = some k ∧ k.bad = false ∧ s.ctxOk x.eph k.ctx = true ∧ k.ctx.cls = 4 ∧ k.ctx.state = 2 ∧ Eph.ep x.eph ≠ 0 ∧ k.ctx.retryLim + 1 ≤ x.attempt ∧ x.entry = some e.id ∧ s.entry? e.id = some e ∧ e.done = none ∧ x.kind ≠ .command) ∧
    (let e := entryOf epZero 1 0; let s := { withCtx rings (ctxOf epZero 0 3 2) with entries := [e] }; let eph := epZero; Quiet s ∧ (s.entries.find? fun e => e.eph == eph && e.kind == 1 && e.started && e.done.isNone) = some e) ∧
    (let e := { entryOf epOut 0 2 with needCtx := true, isEntry := false }; let s := { rings with entries := [e], cmgr := { CtxMgr.init with dir := 1, dirN := ~~~ 1#64, fetching := [epOut] } }; let eph := epOut; let h := (⟨[]⟩ : CtxHost); Quiet s ∧ s.cmgr.fetching.contains eph = true ∧ s.dirStatus = stOk ∧ s.ctx? eph = none ∧ s.engineFree (.context eph) = true ∧ State.slotAt? h s.tableNow eph = .failed) ∧
    (let img := (ctxOf epOut 4 3 2).toBytes; let s := { rings with cmgr := { CtxMgr.init with dir := 1, dirN := ~~~ 1#64, fetching := [epOut] } }; let eph := epOut; let h := hostTable epOut img; let a := 4096 + epOut % 64 * 64; s.cmgr.fetching.contains eph = true ∧ s.dirStatus = stOk ∧ s.ctx? eph = none ∧ s.engineFree (.context eph) = true ∧ s.cmgr.events = [] ∧ s.ctxs.length < ctxSlots ∧ State.slotAt? h s.tableNow eph = .at_ a ∧ State.tableBytes h a 64 = some img ∧ img.all (· == 0) = false ∧ s.ctxOk eph (Ctx.ofBytes img) = true) := by
  repeat' first | decide +kernel | (unfold Quiet; decide +kernel) | constructor

/-- States and operands that meet the hypotheses of each clause of `Obligations.DoorbellsMoveTails`. -/
theorem witness_DoorbellsMoveTails :
    (let s := ringOn rdy 0; let db := 31; s.ready = true ∧ (s.ring 0).st = 1 ∧ db < (s.ring 0).size ∧ db < 2 ^ 20 ∧ db ≠ (s.ring 0).tail ∧ (s.ring 0).tail < (s.ring 0).size ∧ (db + (s.ring 0).size - (s.ring 0).tail) % (s.ring 0).size ≤ ((s.ring 0).head + 2 * (s.ring 0).size - 1 - (s.ring 0).tail) % (s.ring 0).size) ∧
    (let s := (ringOn rdy 0).onRing 0 (fun g => { g with tail := 3, head := 2 }); let db := 2; s.ready = true ∧ (s.ring 0).st = 1 ∧ db < (s.ring 0).size ∧ db < 2 ^ 20 ∧ ((s.ring 0).head + 2 * (s.ring 0).size - 1 - (s.ring 0).tail) % (s.ring 0).size < (db + (s.ring 0).size - (s.ring 0).tail) % (s.ring 0).size) ∧
    (let s := rings.onRing 9 (fun g => { g with tail := 0 }); let n := 1; let j := 0; let db := 31; let r := 9; s.ready = true ∧ n < s.nSlices ∧ s.sliceState n = 1 ∧ j < 64 ∧ s.ringAt n j = some r ∧ (s.ring r).st = 1 ∧ (s.ring r).type r ≤ 1 ∧ db < (s.ring r).size ∧ db < 2 ^ 20 ∧ db ≠ (s.ring r).tail ∧ (s.ring r).tail < (s.ring r).size ∧ (db + (s.ring r).size - (s.ring r).tail) % (s.ring r).size ≤ ((s.ring r).head + 2 * (s.ring r).size - 1 - (s.ring r).tail) % (s.ring r).size) ∧
    (let s := rings; let n := 1; let j := 63; s.ready = true ∧ n < s.nSlices ∧ s.sliceState n = 1 ∧ j < 64 ∧ s.ringAt n j = none) ∧
    (let s := (rdy.wr .SCH_MRING_GEO 3 0x400A0).wr .SCH_MRING_GEO_N 3 (~~~ 0x400A0); let n := 3; s.ready = true ∧ n < 4 ∧ s.flagN .SCH_MRING_CTL_ENABLE n = false ∧ s.rd .SCH_MRING_GEO_N n = ~~~ s.rd .SCH_MRING_GEO n ∧ 4 ≤ field (s.rd .SCH_MRING_GEO n) 9 5 ∧ field (s.rd .SCH_MRING_GEO n) 9 5 ≤ 20) ∧
    (let s := ringOn rdy 0; let n := 0; s.ready = true ∧ n < 4) :=
  by decide +kernel

/-- States and operands that meet the hypotheses of each clause of `Obligations.DescriptorsAreTakenAndWrittenBack`. -/
theorem witness_DescriptorsAreTakenAndWrittenBack :
    (let s := withCtx rings (ctxOf epOut 4 3 2); let r := 9; let d := tdOf epOut 2 4096; s.takes r 0 = true ∧ (s.ring r).cancelled.contains (s.ring r).head = false ∧ (s.ring r).geoOk = true ∧ s.takeOrder r = true ∧ d.length = 32 ∧ Td.own ⟨d⟩ = true ∧ Td.chn ⟨d⟩ = false ∧ Td.nb ⟨d⟩ = false ∧ (s.ring r).slice ≠ none ∧ (s.ring r).head < (s.ring r).size ∧ (s.ring r).tail < (s.ring r).size ∧ s.mustSpill (((s.ring r).slice).getD 0) = false) ∧
    (let e := { entryOf epIn 0 2 with data := [1, 2] }; let s := { withCtx rings (ctxOf epIn 4 3 2) with entries := [e] }; let r := 9; let idx := 0; let i := 0; let t0 := (⟨tdOf epIn 2 4096⟩ : Td); s.entryAt r idx = some e ∧ s.sliceState e.slice = 1 ∧ (s.slice e.slice).releasing = false ∧ s.engineFree (.tdData r idx) = true ∧ (s.ctx? e.eph).isSome = true ∧ e.kind = 0 ∧ Eph.dir e.eph = 1 ∧ e.hostOut = 0 ∧ e.data ≠ [] ∧ e.tds = [(i, t0)] ∧ e.data.length ≤ t0.len) ∧
    (let d := (⟨0, 2, false, none, 0, false⟩ : Done); let e := { entryOf epIn 0 2 with data := [1, 2], hostOut := 2, done := some d }; let s := { withCtx rings (ctxOf epIn 4 3 2) with entries := [e] }; let r := 9; let idx := 0; let i := 0; let t0 := (⟨tdOf epIn 2 4096⟩ : Td); (s.entries.find? fun o => o.ring == r && o.forCmd.isNone) = some e ∧ e.tds = [(i, t0)] ∧ i = idx ∧ e.done = some d ∧ e.step1 = false ∧ e.spilled = false ∧ s.sliceState e.slice = 1 ∧ (s.slice e.slice).releasing = false ∧ s.engineFree (.tdWriteback r idx) = true ∧ State.transported e = true) ∧
    (let c := (⟨0, 0, none, 5, cmd 5 9 0 0, some 1, 7, 0, 0, ⟨[]⟩, [], []⟩ : CmdRec); let s := { rings with cmds := [c] }; let r := 0; let status := 1; (∀ n, c.slice = some n → s.sliceState n = 1 ∧ (s.slice n).releasing = false) ∧ (s.cmds.find? fun c => c.ring == r) = some c ∧ c.status = some status ∧ s.hlt.restart = none ∧ s.engineFree (.cmdWriteback r) = true) :=
  by decide +kernel

/-- States and operands that meet the hypotheses of each clause of `Obligations.CommandsAreCheckedAndRingsCommanded`. -/
theorem witness_CommandsAreCheckedAndRingsCommanded :
    (let s := rings; let r := 0; let b := cmd 0xFF 0 0 0; s.takes r 1 = true ∧ (s.ring r).geoOk = true ∧ b.length = 32 ∧ cmdReserved (cmdOp b) = true ∧ cmdOwn b = true ∧ s.cmdWaits r (cmdOp b) b [] = false ∧ cmdOpN b = 255 - cmdOp b ∧ s.inSafe = false) ∧
    (let s := rings; let r := 0; let b := leBytes 4 (2 ^ 31 + 5 * 2 ^ 16 + 251 * 2 ^ 8) ++ List.replicate 28 0; s.takes r 1 = true ∧ (s.ring r).geoOk = true ∧ b.length = 32 ∧ cmdOp b = 0x05 ∧ cmdOwn b = true ∧ s.cmdWaits r 0x05 b [] = false ∧ cmdOpN b ≠ 250) ∧
    (let s := rings; let r := 0; s.takes r 1 = true ∧ (s.ring r).geoOk = true) ∧
    (let s := rings.onRing 10 (fun g => { g with slice := some 1 }); let r := 0; let b := cmd 1 0x40008A0 (2 ^ 64 - 1 - 0x40008A0) 0x1000A; let n := 10; Accepted r 0x01 b s ∧ RingFor r n s ∧ n = nfield (cmdArg2 b) 9 0 ∧ s.createStatus b = stOk) ∧
    (let s := rings; let r := 0; let b := cmd 2 9 0 0; let n := 9; Accepted r 0x02 b s ∧ RingFor r n s ∧ n = nfield (cmdArg0 b) 9 0 ∧ (s.ring n).st = 1) ∧
    (let s := rings.onRing 9 (fun g => { g with st := 2 }); let r := 0; let b := cmd 3 9 0 0; let n := 9; Accepted r 0x03 b s ∧ RingFor r n s ∧ n = nfield (cmdArg0 b) 9 0 ∧ ((s.ring n).st = 2 ∨ (s.ring n).st = 3) ∧ (s.ring n).geoOk = true ∧ (s.ring n).type n ≤ 1 ∧ (s.ring (s.ring n).evtRing).st ≠ 0 ∧ (s.ring (s.ring n).evtRing).slice = (s.ring n).slice ∧ (s.ring (s.ring n).evtRing).type (s.ring n).evtRing = 2) ∧
    (let s := rings.onRing 9 (fun g => { g with st := 2, head := 1 }); let r := 0; let b := cmd 4 9 0 0; let n := 9; Accepted r 0x04 b s ∧ RingFor r n s ∧ n = nfield (cmdArg0 b) 9 0 ∧ ((s.ring n).st = 2 ∨ (s.ring n).st = 3) ∧ s.ringNamed n = false ∧ (s.ring n).head = (s.ring n).tail ∧ (∀ e ∈ s.entries, e.ring ≠ n) ∧ (∀ k ∈ s.cmds, k.ring ≠ n ∧ (k.op = 0x04 → k.status ≠ none))) ∧
    (let s := rings; let r := 0; let b := cmd 5 9 0 0; let n := 9; Accepted r 0x05 b s ∧ RingFor r n s ∧ n = nfield (cmdArg0 b) 9 0) ∧
    (let s := rings.onRing 9 (fun g => { g with head := 1 }); let r := 0; let b := cmd 0x18 (9 + 31 * 2 ^ 20) 0 0; let n := 9; Accepted r 0x18 b s ∧ RingFor r n s ∧ n = nfield (cmdArg0 b) 9 0 ∧ (s.ring n).st ≠ 0 ∧ (s.ring n).type n = 0 ∧ (s.ring n).head = (s.ring n).tail ∧ nfield (cmdArg0 b) 39 20 < (s.ring n).size) := by
  repeat' first | decide +kernel | exact accepted_of (by decide +kernel) | exact ringFor_of (by decide +kernel) | constructor

/-- States and operands that meet the hypotheses of each clause of `Obligations.EndpointCommandsAct`. -/
theorem witness_EndpointCommandsAct :
    (let s := withCtx rings (ctxOf epOut 4 3 0); let r := 0; let b := cmd 0x10 4096 epOut 0; let img := (ctxOf epOut 4 3 2).toBytes; let eph := epOut; let x := CtxSlot.of (ctxOf epOut 4 3 0) 0; Accepted r 0x10 b s ∧ eph = nfield (cmdArg1 b) 24 0 ∧ Eph.port eph < s.nPorts ∧ Eph.addr eph ≠ 4095 ∧ s.ctx? eph = some x ∧ x.bad = false ∧ x.ctx.state = 0 ∧ s.installStatus eph (Ctx.ofBytes img) = stOk ∧ s.shared (Eph.port eph) = false) ∧
    (let s := withCtx rings (ctxOf epOut 4 3 2); let r := 0; let b := cmd 0x11 0 epOut 0; let h := (hostTable epOut [] : CtxHost); let eph := epOut; let k := CtxSlot.of (ctxOf epOut 4 3 2) 0; Quiet s ∧ Accepted r 0x11 b s ∧ EpFor r b eph k s ∧ s.committed eph = false ∧ k.ctx.state ≠ 0 ∧ (∀ x ∈ s.txns, x.eph ≠ eph) ∧ (field s.cmgr.dir 0 0 = 1 → (s.homeAddr h eph k).isSome = true)) ∧
    (let s := withCtx rings (ctxOf epOut 4 3 3); let r := 0; let b := cmd 0x12 0 epOut 0; let eph := epOut; let k := CtxSlot.of (ctxOf epOut 4 3 3) 0; Accepted r 0x12 b s ∧ EpFor r b eph k s ∧ k.bad = false ∧ (k.ctx.state = 2 ∨ k.ctx.state = 3)) ∧
    (let s := withCtx rings (ctxOf epOut 4 3 4); let r := 0; let b := cmd 0x13 0 epOut 0; let eph := epOut; let k := CtxSlot.of (ctxOf epOut 4 3 4) 0; Accepted r 0x13 b s ∧ EpFor r b eph k s ∧ k.ctx.state = 4) ∧
    (let s := withCtx (withCtx rings (ctxOf epOut 4 3 3)) (ctxOf epZero 0 3 2); let r := 0; let b := cmd 0x14 0 epOut 0; let eph := epOut; let k := CtxSlot.of (ctxOf epOut 4 3 3) 0; let k0 := CtxSlot.of (ctxOf epZero 0 3 2) 0; Quiet s ∧ Accepted r 0x14 b s ∧ EpFor r b eph k s ∧ (∀ e ∈ s.entries, e.id ≠ s.deal.nextId) ∧ s.ctx? (eph / 128 * 128) = some k0 ∧ k0.bad = false ∧ k0.ctx.state = 2 ∧ k0.ctx.cls = 0) ∧
    (let s := { withCtx rings (ctxOf epOut 4 3 2) with cmgr := { CtxMgr.init with dir := 1, dirN := ~~~ 1#64 } }; let r := 0; let b := cmd 0x15 0 epOut 0; let h := (hostTable epOut [] : CtxHost); let eph := epOut; let k := CtxSlot.of (ctxOf epOut 4 3 2) 0; let a := 4096 + epOut % 64 * 64; Accepted r 0x15 b s ∧ EpFor r b eph k s ∧ field s.cmgr.dir 0 0 = 1 ∧ s.homeAddr h eph k = some a) ∧
    (let s := withCtx rings (ctxOf epOut 4 3 2); let r := 0; let b := cmd 0x16 0 epOut 0; let eph := epOut; let k := CtxSlot.of (ctxOf epOut 4 3 2) 0; Accepted r 0x16 b s ∧ EpFor r b eph k s) := by
  repeat' first | decide +kernel | exact accepted_of (by decide +kernel) | (unfold Quiet; decide +kernel) | (unfold EpFor; decide +kernel) | constructor

/-- States and operands that meet the hypotheses of each clause of `Obligations.PortCommandsOfTheRingAct`. -/
theorem witness_PortCommandsOfTheRingAct :
    (let s := withCtx rings (ctxOf epOut 4 3 2); let r := 0; let b := cmd 0x17 0 2 0; Quiet s ∧ Accepted r 0x17 b s ∧ nfield (cmdArg1 b) 5 0 < s.nPorts) ∧
    (let s := withCtx (withCtx rings (ctxOf epZero 0 3 2)) (ctxOf (Eph.mk 2 0 0 0) 0 3 2); let r := 0; let b := cmd 0x20 2 5 4096; let eph := Eph.mk 2 0 0 0; let k := CtxSlot.of (ctxOf (Eph.mk 2 0 0 0) 0 3 2) 0; let ka := CtxSlot.of (ctxOf epZero 0 3 2) 0; Quiet s ∧ Accepted r 0x20 b s ∧ (∀ e ∈ s.entries, e.id ≠ s.deal.nextId) ∧ nfield (cmdArg0 b) 5 0 < s.nPorts ∧ nfield (cmdArg1 b) 11 0 ≠ 4095 ∧ eph = Eph.mk (nfield (cmdArg0 b) 5 0) 0 0 0 ∧ s.ctx? eph = some k ∧ k.bad = false ∧ k.ctx.state = 2 ∧ k.ctx.cls = 0 ∧ s.ctx? (Eph.mk (nfield (cmdArg0 b) 5 0) (nfield (cmdArg1 b) 11 0) 0 0) = some ka) ∧
    (let s := (rings.fsetN .PRT_STS_XCVR_PRESENT 2 1).onPort (.root 2) (fun q => { q with cfg := 16 }); let r := 0; let b := cmd 0x21 2 0 4096; let n := 2; Accepted r 0x21 b s ∧ n = nfield (cmdArg0 b) 5 0 ∧ n < s.nPorts ∧ field (s.port (.root n)).cfg 4 4 = 1 ∧ s.flagN .PRT_STS_XCVR_PRESENT n = true) ∧
    (let s := linkUp rings 2; let r := 0; let b := cmd 0x22 2 0 0; let n := 2; Accepted r 0x22 b s ∧ n = nfield (cmdArg0 b) 5 0 ∧ n < s.nPorts ∧ (s.port (.root n)).rateChg = none ∧ s.portState (.root n) = 4 ∧ (s.link (.port (.root n))).rate = nfield (cmdArg0 b) 8 8) ∧
    (let s := (linkUp rings 2).fsetN .PRT_STS_PEER_RATE5 2 1; let r := 0; let b := cmd 0x22 0x102 0 0; let n := 2; Accepted r 0x22 b s ∧ n = nfield (cmdArg0 b) 5 0 ∧ n < s.nPorts ∧ (s.port (.root n)).rateChg = none ∧ s.portState (.root n) = 4 ∧ nfield (cmdArg0 b) 8 8 = 1 ∧ (s.link (.port (.root n))).rate = 0 ∧ s.unrated (.root n) = false ∧ s.flagN .PRT_STS_PEER_RATE5 n = true ∧ s.sched.batch = none) ∧
    (let a := (⟨1, 1, 4, 7⟩ : Advice); let s := rings.onPol (fun p => { p with advice := [a], nextAdvice := 2 }); let r := 0; let b := cmd 0x23 1 0 0; Accepted r 0x23 b s ∧ (s.pol.advice.find? fun a => a.id == cmdArg0 b % 65536) = some a ∧ a.policy = 1 ∧ a.object + 1 = s.pol.share) ∧
    (let s := rings; let r := 0; let b := cmd 0x23 1 0 0; Accepted r 0x23 b s ∧ (s.pol.advice.find? fun a => a.id == cmdArg0 b % 65536) = none) := by
  repeat' first | decide +kernel | (unfold Quiet; decide +kernel) | exact accepted_of (by decide +kernel) | constructor

/-- States and operands that meet the hypotheses of each clause of `Obligations.SchedulesAreChangedAndAdmitted`. -/
theorem witness_SchedulesAreChangedAndAdmitted :
    (let s := rings; let r := 0; let b := cmd 0x30 4096 (4096 * 2 ^ 32) 0; let img := List.replicate 16 (0 : Byte); Accepted r 0x30 b s (batchListNames (.ok img)) ∧ 1 ≤ nfield (cmdArg1 b) 44 32 ∧ nfield (cmdArg1 b) 44 32 ≤ 4096 ∧ s.hostStatus (s.ring r).slice (cmdArg0 b) (16 * nfield (cmdArg1 b) 44 32) = stOk ∧ s.sched.batch = none ∧ s.sched.queue = [] ∧ s.sched.held = false ∧ s.switching = false) ∧
    (let s := { rings with sched := { Sched.init with batch := some ⟨.list, none, none, [], none, 14400, [], false, [], false, 0, []⟩ } }; let r := 0; let b := cmd 0x30 4096 (1 * 2 ^ 32) 0; let img := List.replicate 16 (0 : Byte); Accepted r 0x30 b s (batchListNames (.ok img)) ∧ 1 ≤ nfield (cmdArg1 b) 44 32 ∧ nfield (cmdArg1 b) 44 32 ≤ 4096 ∧ s.hostStatus (s.ring r).slice (cmdArg0 b) (16 * nfield (cmdArg1 b) 44 32) = stOk ∧ (s.sched.batch ≠ none ∨ s.sched.held = true ∨ s.switching = true)) ∧
    (let s := rings; let r := 0; let b := cmd 0x33 4 0 0; Accepted r 0x33 b s ∧ cmdArg0 b ≠ 0 ∧ cmdArg0 b < 2 ^ s.nPorts ∧ s.sched.batch = none ∧ s.sched.queue = [] ∧ s.sched.held = false ∧ s.switching = false) ∧
    (let s := rings; let r := 0; let b := cmd 0x33 0 0 0; Accepted r 0x33 b s ∧ cmdArg0 b = 0) ∧
    (let s := rings; let r := 0; let b := cmd 0x31 (63 * 256 + 255) 5 (2 ^ 64 - 1 - 5); Accepted r 0x31 b s ∧ cmdArg2 b = 2 ^ 64 - 1 - cmdArg1 b ∧ nfield (cmdArg0 b) 13 8 < s.nPorts ∧ nfield (cmdArg0 b) 7 0 < s.nSlices) ∧
    (let s := rings; let r := 0; let b := cmd 0x32 (2 ^ 16 + 2 * 256) 4096 0; let n := 2; let l := ([] : List SchedEnt); Accepted r 0x32 b s ∧ (s.ring r).slice = none ∧ nfield (cmdArg0 b) 16 16 = 1 ∧ n = nfield (cmdArg0 b) 13 8 ∧ n < s.nPorts ∧ l = Tbl.get [] s.sched.active n) ∧
    (let b := (⟨.list, some (0, 3), none, [(1, 1)], none, 14400, [], false, [], false, 0, []⟩ : Batch); let c := (⟨0, 3, none, 0x30, cmd 0x30 4096 (2 ^ 32) 0, none, 0, 0, 0, ⟨[]⟩, [], []⟩ : CmdRec); let s := { rings with sched := { Sched.init with batch := some b }, cmds := [c] }; let w := (1 : DWord); let wn := (1 : DWord); let rest := ([] : List (DWord × DWord)); let r := 0; let i := 3; s.sched.batch = some b ∧ b.admitted = false ∧ b.kind = .list ∧ b.cmd = some (r, i) ∧ b.changes = (w, wn) :: rest ∧ wn ≠ ~~~ w ∧ s.sched.queue = [] ∧ c ∈ s.cmds ∧ c.ring = r ∧ c.idx = i ∧ c.op = 0x30 ∧ c.status = none) ∧
    (let w := BitVec.ofNat 64 epIn; let b := (⟨.list, none, none, [(w, ~~~ w)], none, 14400, [], false, [], false, 0, []⟩ : Batch); let s := { withCtx rings (ctxOf epIn 2 3 2) with sched := { Sched.init with batch := some b, res := [(256 * 2 + 1, 500000)] } }; let h := (⟨[]⟩ : CtxHost); let s1 := (State.changesCheck s h b 0 [] b.changes).1; let c := 2; s.sched.batch = some b ∧ b.admitted = false ∧ b.changes ≠ [] ∧ s.changesCheck h b 0 [] b.changes = (s1, none) ∧ s1.capacityFail b (s1.stagedOf b.changes) = none ∧ s1.frate = b.frate ∧ s1.tim.frateAcc = none ∧ s1.commitFrame b = some c) := by
  repeat' first | decide +kernel | exact accepted_of (by decide +kernel) | constructor

/-- States and operands that meet the hypotheses of each clause of `Obligations.DealerDynamicsAct`. -/
theorem witness_DealerDynamicsAct :
    (let e := { entryOf epOut 0 2 with st := .waiting, delay := some (.time 100) }; let s := { withCtx rings (ctxOf epOut 4 3 2) with entries := [e] }; let u := 100; let k := 100; Quiet s ∧ e ∈ s.entries ∧ e.delay = some (.time k) ∧ k ≤ u ∧ e.done = none) ∧
    (let e := { entryOf epOut 0 2 with nyFrom := some 0 }; let s := { withCtx rings { ctxOf epOut 4 3 2 with nyLimit := 5 } with entries := [e], tim := { TimeBase.init with frameNo := 5 } }; let eph := epOut; let k := CtxSlot.of { ctxOf epOut 4 3 2 with nyLimit := 5 } 0; Quiet s ∧ (s.entries.find? fun e => e.eph == eph && e.nyFrom.isSome && e.done.isNone) = some e ∧ s.ctx? eph = some k ∧ k.ctx.nyLimit % 65536 ≠ 0 ∧ k.ctx.nyLimit % 65536 ≤ (s.frameNo + 2 ^ 32 - e.nyFrom.getD 0) % 2 ^ 32) ∧
    (let e := { entryOf epOut 0 2 with spilled := true }; let s := { withCtx rings (ctxOf epOut 4 3 2) with entries := [e] }; let n := 1; Quiet s ∧ s.engineFree (.spill n) = true) ∧
    (let e := { entryOf epOut 0 2 with spilled := true }; let s := { withCtx rings (ctxOf epOut 4 3 2) with entries := [e] }; let n := 1; Quiet s ∧ s.engineFree (.spill n) = true ∧ s.oldestSpilled n = some e ∧ (s.onChip fun o => o.slice == n) < s.deal.quota ∧ (s.onChip fun _ => true) < 65536) ∧
    (let s := rdy; s.ready = true ∧ s.deal.spillOn = false) ∧
    (let s := rdy; s.ready = true) := by
  unfold Quiet; decide +kernel

/-- States and operands that meet the hypotheses of each clause of `Obligations.SampleRecordsAreProduced`. -/
theorem witness_SampleRecordsAreProduced :
    (let e := { DevEp.init with cls := 2, burst := 1, blocks := [⟨1, 0, [1]⟩, ⟨2, 1, [2]⟩], bseq := 2 }; let s := moduleWith 3 1 e; let d := 1; let ep := 3; (s.dev d).ep? ep 1 = some e ∧ e.cls = 2) ∧
    (let o := (⟨0, 0, 0, 0, []⟩ : OpenSet); let g := groupOf [o]; let s := { streamRing rings with smp := { Sample.init with groups := [(5, g)] } }; let id := 5; s.group id = some g ∧ g.sets = [o] ∧ s.setOver o = true) ∧
    (let x := (⟨1, 12, 5, 2, List.replicate 8 0, [[1, 2]], [], none, none, none, 0⟩ : SRec); let s := { streamRing rings with smp := { Sample.init with queue := [x] } }; let ring := 12; let ents := (x.length + (s.ring ring).entryBytes ring - 1) / (s.ring ring).entryBytes ring; (s.smp.queue.find? fun x => x.ring == ring) = some x ∧ s.recReady x = true ∧ (s.ring ring).head < (s.ring ring).size ∧ 16 ≤ (s.ring ring).entryBytes ring ∧ ents = (x.length + (s.ring ring).entryBytes ring - 1) / (s.ring ring).entryBytes ring) ∧
    (let p := (⟨3, [⟨0, [5]⟩], false, false, 0, 2⟩ : Span); let c := streamOf [p]; let s := { streamRing rings with smp := { Sample.init with streams := [(6, c)] }, tim := { TimeBase.init with frameNo := 1 } }; let k := 6; let rest := ([] : List Span); s.coder k = some c ∧ c.closed = p :: rest ∧ later32 ((p.frame + c.delay) % 2 ^ 32) s.frameNo = false) ∧
    (let p := (⟨3, [⟨0, [5]⟩], false, false, 0, 2⟩ : Span); let c := streamOf [p]; let s := { streamRing rings with smp := { Sample.init with streams := [(6, c)] }, tim := { TimeBase.init with frameNo := 3 } }; let k := 6; let rest := ([] : List Span); s.coder k = some c ∧ c.closed = p :: rest ∧ later32 ((p.frame + c.delay + 2) % 2 ^ 32) s.frameNo = false) :=
  by decide +kernel

/-- States and operands that meet the hypotheses of each clause of `Obligations.GatherAndCoderCommandsAct`. -/
theorem witness_GatherAndCoderCommandsAct :
    (let img := leBytes 4 4800 ++ leBytes 4 0 ++ leBytes 2 10 ++ [1, 0] ++ leBytes 2 1 ++ leBytes 2 12 ++ leBytes 4 epIn ++ leBytes 4 0; let s := withCtx (streamRing rings) ctxGather; let r := 0; let b := cmd 0x58 4096 5 0; let id := 5; let n := 1; let ring := 12; let ms := [(epIn, (0 : Int))]; let dl := 1; let M := 64; Accepted r 0x58 b s (gatherNames (.ok img)) ∧ (∀ k, (s.ring ring).slice = some k → s.sliceFixed k = false) ∧ (∀ m x, ms[m]? = some x → ∃ k, s.ctx? x.1 = some k ∧ k.bad = false ∧ k.ctx.cls = 2 ∧ (s.ring ring).slice = some k.ctx.owner ∧ k.ctx.mode = 1 ∧ k.ctx.group = id ∧ k.ctx.member = m ∧ (dl + 2) * (k.ctx.burst + 1) * k.ctx.mps ≤ k.ctx.size ∧ k.ctx.mps ≤ M) ∧ id = cmdArg1 b % 256 ∧ n = leNat (slice 12 2 img) ∧ ring = leNat (slice 14 2 img) ∧ ring < 1024 ∧ ring < s.nRings ∧ ms = State.gatherMembers img ∧ leNat (slice 11 1 img) = 0 ∧ dl = leNat (slice 10 1 img) ∧ (∀ m ∈ ms, m.1 < 2 ^ 25 ∧ Eph.port m.1 < s.nPorts) ∧ s.group id = none ∧ s.hostStatus (s.ring r).slice (cmdArg0 b) (16 + 8 * n) = stOk ∧ ((s.ring r).slice = none ∨ (s.ring ring).slice = (s.ring r).slice) ∧ s.streamRing ring = true ∧ (∀ x ∈ s.smp.groups, x.2.ring ≠ ring) ∧ (∀ x ∈ s.smp.streams, x.2.ring ≠ ring) ∧ 1 ≤ leNat (slice 0 4 img) ∧ leNat (slice 0 4 img) ≤ 1000000 ∧ leNat (slice 4 4 img) < 1000000000 / leNat (slice 0 4 img) ∧ leNat (slice 8 2 img) ≤ 1000 ∧ 2 * leNat (slice 8 2 img) < 1000000000 / leNat (slice 0 4 img) ∧ 1 ≤ dl ∧ dl ≤ 64 ∧ 1 ≤ n ∧ n ≤ 256 ∧ State.distinct (ms.map Prod.fst) = true ∧ 2 * (32 + 8 * n + n * M) ≤ (s.ring ring).size * (s.ring ring).entryBytes ring ∧ s.smp.groups.length < 256 ∧ (s.smp.groups.map fun x => x.2.members.length).foldl (· + ·) 0 + n ≤ 8192) ∧
    (let g := groupOf []; let s := { streamRing rings with smp := { Sample.init with groups := [(5, g)] } }; let r := 0; let b := cmd 0x59 0 5 0; let id := 5; let j := 7; Accepted r 0x59 b s ∧ (∀ k, (s.ring g.ring).slice = some k → s.sliceFixed k = false) ∧ id = cmdArg1 b % 256 ∧ s.group id = some g ∧ g.sets = [] ∧ g.upTo = some j ∧ ((s.ring r).slice = none ∨ (s.ring g.ring).slice = (s.ring r).slice) ∧ (∀ x ∈ s.smp.groups, x.2.destroy = []) ∧ (∀ x ∈ s.smp.queue, ∀ z, x.set = some z → z.1 ≠ id)) ∧
    (let o := (⟨8, 0, 0, 9, []⟩ : OpenSet); let g := groupOf [o]; let s := { streamRing rings with smp := { Sample.init with groups := [(5, g)] } }; let r := 0; let b := cmd 0x5A 0 5 0; let id := 5; let j := 7; Accepted r 0x5A b s ∧ id = cmdArg1 b % 256 ∧ s.group id = some g ∧ g.upTo = some j ∧ ((s.ring r).slice = none ∨ (s.ring g.ring).slice = (s.ring r).slice)) ∧
    (let img := leBytes 4 epIn ++ leBytes 2 12 ++ [0, 12] ++ leBytes 4 1000 ++ leBytes 8 0 ++ [64, 0, 0, 0] ++ List.replicate 24 0; let s := withCtx (streamRing rings) ctxCoder; let r := 0; let b := cmd 0x5B 4096 6 0; let k := 6; let ring := 12; let x := CtxSlot.of ctxCoder 0; Accepted r 0x5B b s (coderNames (.ok img)) ∧ k = cmdArg1 b % 64 ∧ s.hasCoder = true ∧ s.hostStatus (s.ring r).slice (cmdArg0 b) 48 = stOk ∧ ring = leNat (slice 4 2 img) ∧ ring < 1024 ∧ ring < s.nRings ∧ leNat (slice 0 4 img) < 2 ^ 25 ∧ Eph.port (leNat (slice 0 4 img)) < s.nPorts ∧ leNat (slice 7 1 img) ≤ 12 ∧ leNat (slice 21 3 img) = 0 ∧ leNat (slice 40 8 img) = 0 ∧ (∀ i < 4, leNat (slice (24 + 4 * i) 4 img) = 0) ∧ s.coder k = none ∧ s.ctx? (leNat (slice 0 4 img)) = some x ∧ ((s.ring r).slice = none ∨ (s.ring r).slice = some x.ctx.owner) ∧ x.bad = false ∧ x.ctx.cls = 2 ∧ x.ctx.mode = 2 ∧ x.ctx.link % 64 = k ∧ s.sliceFixed x.ctx.owner = false ∧ s.streamRing ring = true ∧ (s.ring ring).slice = some x.ctx.owner ∧ (∀ y ∈ s.smp.groups, y.2.ring ≠ ring) ∧ leNat (slice 6 1 img) / 64 ≠ 3 ∧ 1 ≤ leNat (slice 20 1 img) ∧ leNat (slice 20 1 img) ≤ 64 ∧ leNat (slice 8 4 img) ≠ 0 ∧ (s.smp.streams.map fun y => y.2.ch).foldl (· + ·) 0 + (leNat (slice 6 1 img) % 64 + 1) ≤ 128) ∧
    (let x := streamOf []; let s := { streamRing rings with smp := { Sample.init with streams := [(6, x)] } }; let r := 0; let b := cmd 0x5C 0 6 0; let k := 6; let n := 7; Accepted r 0x5C b s ∧ (∀ k, (s.ring x.ring).slice = some k → s.sliceFixed k = false) ∧ k = cmdArg1 b % 64 ∧ s.hasCoder = true ∧ s.coder k = some x ∧ x.cur = none ∧ x.closed = [] ∧ x.lastCseq = some n ∧ n < 2 ^ 32 ∧ ((s.ring r).slice = none ∨ (s.ring x.ring).slice = (s.ring r).slice) ∧ (∀ y ∈ s.smp.groups, y.2.destroy = []) ∧ (∀ y ∈ s.smp.streams, y.2.detach = []) ∧ (∀ y ∈ s.smp.queue, ∀ z, y.span = some z → z.1 ≠ k)) ∧
    (let x := streamOf []; let s := { streamRing rings with smp := { Sample.init with streams := [(6, x)] } }; let r := 0; let b := cmd 0x5D 0 6 0; let k := 6; let n := 7; Accepted r 0x5D b s ∧ k = cmdArg1 b % 64 ∧ s.hasCoder = true ∧ s.coder k = some x ∧ x.lastCseq = some n ∧ ((s.ring r).slice = none ∨ (s.ring x.ring).slice = (s.ring r).slice)) := by
  repeat' first | decide +kernel | exact accepted_of (by decide +kernel) | exact forall_some (by decide +kernel) | (rintro (_ | m) x h <;> cases h; exact ⟨CtxSlot.of ctxGather 0, by decide +kernel⟩) | constructor

/-- States and operands that meet the hypotheses of each clause of `Obligations.ChannelsStartAndStop`. -/
theorem witness_ChannelsStartAndStop :
    (let s := rdy.wr .MOV_CNT 50 64; let n := 50; let v := 0x104; s.ready = true ∧ s.software n = true ∧ (s.chanSt n = 0 ∨ s.chanSt n = 4) ∧ v < 2 ^ 30 ∧ ctlDesc v = false ∧ s.goStatus n v = stOk) ∧
    (let s := rdy.wr .MOV_CNT 50 63; let n := 50; let v := 0x104; s.ready = true ∧ s.software n = true ∧ (s.chanSt n = 0 ∨ s.chanSt n = 4) ∧ v < 2 ^ 30 ∧ s.goStatus n v ≠ stOk) ∧
    (let s := chanOn 3 (chanOf 0x104 0 64); let n := 50; let v := 0x104; s.ready = true ∧ s.software n = true ∧ 1 ≤ s.chanSt n ∧ s.chanSt n ≠ 4 ∧ v < 2 ^ 30) ∧
    (let s := chanOn 1 (chanOf 0x104 0 64); let n := 50; s.ready = true ∧ s.software n = true ∧ s.chanSt n = 1) ∧
    (let s := chanOn 2 (chanOf 0x104 0 64); let n := 50; s.ready = true ∧ s.software n = true ∧ s.chanSt n = 2) ∧
    (let s := chanOn 4 (chanOf 0x104 0 64); let n := 50; s.ready = true ∧ s.software n = true ∧ s.chanSt n = 4) ∧
    (let s := rdy; s.ready = true ∧ s.flag .TIM_CTL_FRAME_EN = false ∧ (∀ n < 64, s.chanSt n = 0)) ∧
    (let s := rdy.fset .TIM_CTL_FRAME_EN 1; s.ready = true ∧ s.flag .TIM_CTL_FRAME_EN = true) ∧
    (let s := { rdy with mov := { Mover.init with swch := some 40, chans := [(2, { Chan.init with work := some (.ringEntry 9) })] } }; (∃ x ∈ s.mov.chans, x.2.work.isSome = true)) ∧
    (let s := { rdy with mov := { Mover.init with swch := some 40 } }; let v := 40; s.mov.swch = some v ∧ (∀ x ∈ s.mov.chans, x.2.work = none)) :=
  by decide +kernel

/-- States and operands that meet the hypotheses of each clause of `Obligations.ChannelsMoveData`. -/
theorem witness_ChannelsMoveData :
    (let k := chanOf 0x104 0x0102030405060708 64; let s := chanOn 2 k; let n := 50; k = s.chan n ∧ s.software n = true ∧ (s.chanSt n = 2 ∨ s.chanSt n = 3) ∧ k.retryAt = none ∧ ctlDesc k.ctl = false ∧ ctlPace k.ctl ≠ 3 ∧ ctlOp k.ctl = 1 ∧ ctlDstSp k.ctl = 1 ∧ ctlDstFix k.ctl = false ∧ k.mis = none ∧ k.wrote = none ∧ 0 < k.cnt ∧ k.cnt % 8 = 0 ∧ Memory.wf s.pool = true) ∧
    (let k := chanOf 0x140 0 64; let s := { chanOn 3 k with pool := [(0, 5), (15, 6), (16, 7)] }; let n := 50; k = s.chan n ∧ s.software n = true ∧ (s.chanSt n = 2 ∨ s.chanSt n = 3) ∧ k.retryAt = none ∧ ctlDesc k.ctl = false ∧ ctlPace k.ctl ≠ 3 ∧ ctlOp k.ctl = 0 ∧ ctlSrcSp k.ctl = 1 ∧ ctlSrcFix k.ctl = false ∧ ctlDstSp k.ctl = 1 ∧ ctlDstFix k.ctl = false ∧ k.mis = none ∧ k.wrote = none ∧ 0 < k.cnt ∧ k.cnt % 8 = 0 ∧ (k.src + k.cnt ≤ k.dst ∨ k.dst + k.cnt ≤ k.src) ∧ Memory.wf s.pool = true) ∧
    (let k := chanOf (0x105 + 2 ^ 26) 0 0; let s := chanOn 2 k; let n := 50; let desc := HostRead.ok []; let a := 0; k = s.chan n ∧ a = (s.rd .MOV_DPTR n).toNat ∧ s.software n = true ∧ s.chanSt n = 2 ∧ k.retryAt = none ∧ k.slice = none ∧ ctlDesc k.ctl = true ∧ ctlPace k.ctl ≠ 3 ∧ k.desc = none ∧ k.redo = none ∧ desc ≠ .failed ∧ ctlDescSp k.ctl = 1 ∧ a + 32 ≤ s.poolBytes ∧ (Memory.read s.pool (a + 3)).toNat < 128) ∧
    (let s := rdy; let line := 68; reqLine line = true ∧ (line < 64 → line < s.nPorts) ∧ s.lineChan line = none ∧ (Tbl.get [] s.mov.lines line).length < 8) ∧
    (let s := { rdy with mov := { Mover.init with lines := [(5, List.replicate 8 [1])] } }; let line := 5; reqLine line = true ∧ (line < 64 → line < s.nPorts) ∧ s.lineChan line = none ∧ 8 ≤ (Tbl.get [] s.mov.lines line).length) ∧
    (let k := chanOf (0x190 + 3 * 2 ^ 16 + 5 * 2 ^ 18) (5 * 4096) 64; let s := chanOn 2 k; let line := 5; let data := ([1, 2, 3, 4, 5, 6, 7, 8] : List Byte); let n := 50; reqLine line = true ∧ (line < 64 → line < s.nPorts) ∧ Tbl.get [] s.mov.lines line = [] ∧ s.lineChan line = some n ∧ k = s.chan n ∧ k.moved < k.cnt ∧ (ctlDesc k.ctl = true → k.desc ≠ none) ∧ ctlOp k.ctl = 0 ∧ ctlSrcSp k.ctl = 2 ∧ ctlDstSp k.ctl = 1 ∧ ctlDstFix k.ctl = false ∧ 0 < data.length ∧ data.length % 8 = 0 ∧ data.length ≤ burstLen k.ctl k.src k.dst k.cnt k.moved ∧ Memory.wf s.pool = true) := by
  repeat' first | decide +kernel | constructor

/-- States and operands that meet the hypotheses of each clause of `Obligations.ChannelsRetryAndFail`. -/
theorem witness_ChannelsRetryAndFail :
    (let s := chanOn 2 (chanOf 0x6104 0 64); let n := 50; let a := 1; s.software n = true ∧ (s.chanSt n = 2 ∨ s.chanSt n = 3) ∧ (s.chan n).retryAt = none ∧ (a = 1 ∨ a = (s.chan n).attempt + 1) ∧ a ≤ ctlRetry (s.chan n).ctl) ∧
    (let s := chanOn 2 { chanOf 0x6104 0 64 with attempt := 2 }; let n := 50; let a := 3; s.software n = true ∧ (s.chanSt n = 2 ∨ s.chanSt n = 3) ∧ (s.chan n).retryAt = none ∧ (a = 1 ∨ a = (s.chan n).attempt + 1) ∧ a ≤ ctlRetry (s.chan n).ctl) ∧
    (let k := { chanOf 0x6100 4096 64 with attempt := 3, cnt := 256 }; let s := chanOn 2 k; let n := 50; let a := 4; let b := (List.replicate 64 7 : List Byte); k = s.chan n ∧ s.software n = true ∧ (s.chanSt n = 2 ∨ s.chanSt n = 3) ∧ k.retryAt = none ∧ (a = 1 ∨ a = k.attempt + 1) ∧ ctlRetry k.ctl < a ∧ ctlDesc k.ctl = false ∧ ctlPace k.ctl ≠ 3 ∧ ctlOp k.ctl = 0 ∧ ctlSrcSp k.ctl = 0 ∧ ctlDstSp k.ctl = 1 ∧ ctlDstFix k.ctl = false ∧ k.mis = none ∧ k.wrote = none ∧ 0 < b.length ∧ b.length % 8 = 0 ∧ b.length = burstLen k.ctl k.src k.dst k.cnt 0 ∧ b.length < k.cnt ∧ Memory.wf s.pool = true) ∧
    (let k := { chanOf 0x6101 4096 64 with attempt := 3 }; let s := chanOn 2 k; let n := 50; let a := 4; k = s.chan n ∧ s.software n = true ∧ (s.chanSt n = 2 ∨ s.chanSt n = 3) ∧ k.retryAt = none ∧ (a = 1 ∨ a = k.attempt + 1) ∧ ctlRetry k.ctl < a ∧ ctlDesc k.ctl = true ∧ k.desc = none ∧ k.redo = none ∧ ctlDescSp k.ctl = 0 ∧ s.regionStatus k.slice 0 0 (s.rd .MOV_DPTR n).toNat 32 = stOk) ∧
    (let s := rings; let r := 9; let n := 9; let a := 1; n = s.engineOf (.ringEntry r) ∧ ((s.chan n).work = none ∨ (s.chan n).work = some (.ringEntry r)) ∧ s.chanSt n ≠ 5 ∧ (s.chan n).retryAt = none ∧ (a = 1 ∨ a = (s.chan n).attempt + 1) ∧ a ≤ s.fget .MOV_GCFG_ENG_RETRY) ∧
    (let s := rings.onChan 9 (fun k => { k with work := some (.ringEntry 9), attempt := 3 }); let r := 9; let n := 9; let a := 4; n = s.engineOf (.ringEntry r) ∧ ((s.chan n).work = none ∨ (s.chan n).work = some (.ringEntry r)) ∧ s.chanSt n ≠ 5 ∧ (s.chan n).retryAt = none ∧ (a = 1 ∨ a = (s.chan n).attempt + 1) ∧ s.fget .MOV_GCFG_ENG_RETRY < a ∧ (s.ring r).st ≠ 0) ∧
    (let s := ((rings.onChan 9 fun k => { k with work := some (.ringEntry 9), retryAt := some 9 }).fsetN .MOV_STS_STATE 9 2); let r := 9; let n := 9; let u := 9; let v := 9; n = s.engineOf (.ringEntry r) ∧ (s.chan n).work = some (.ringEntry r) ∧ s.chanSt n = 2 ∧ (s.chan n).retryAt = some v ∧ v ≤ u) ∧
    (let s := chanOn 2 { chanOf 0x6104 0 64 with retryAt := some 9 }; let n := 50; let u := 9; let v := 9; s.software n = true ∧ (s.chan n).retryAt = some v ∧ v ≤ u ∧ (s.chanSt n = 2 ∨ s.chanSt n = 3)) ∧
    (let s := chanOn 5 (chanOf 0x6104 0 64); let n := 50; s.software n = true ∧ s.chanSt n = 5) ∧
    (let s := rdy.fsetN .MOV_STS_STATE 9 5; let n := 9; s.software n = false ∧ s.chanSt n = 5) := by
  repeat' first | decide +kernel | constructor

/-- States and operands that meet the hypotheses of each clause of `Obligations.SlicesAreEnabledAndShared`. -/
theorem witness_SlicesAreEnabledAndShared :
    (let s := bindRegs ((ringOn rdy 0).onRing 0 fun g => { g with tail := 1 }); let r := 0; let b := cmd 0x40 2 0 0; let n := 2; Accepted r 0x40 b s ∧ n = cmdArg0 b % 256 ∧ n < s.nSlices ∧ s.sliceState n = 0 ∧ s.bindStatus n = stOk) ∧
    (let s := rings; let r := 0; let b := cmd 0x40 2 0 0; let n := 2; Accepted r 0x40 b s ∧ n = cmdArg0 b % 256 ∧ n < s.nSlices ∧ s.sliceState n = 0 ∧ s.bindStatus n ≠ stOk) ∧
    (let s := rings; let r := 0; let b := cmd 0x42 1023 (1 + 63 * 256) 0; let g := 1023; let n := 1; let j := 63; Accepted r 0x42 b s ∧ g = cmdArg0 b % 1024 ∧ n = cmdArg1 b % 256 ∧ j = nfield (cmdArg1 b) 13 8 ∧ 4 ≤ g ∧ g < s.nRings ∧ n < s.nSlices ∧ (s.ring g).slice = none ∧ s.sliceState n ≠ 0 ∧ s.ringAt n j = none) ∧
    (let s := rings.onRing 10 (fun g => { g with slice := some 1, dbIdx := 4 }); let r := 0; let b := cmd 0x43 10 0 0; let g := 10; let n := 1; Accepted r 0x43 b s ∧ g = cmdArg0 b % 1024 ∧ 4 ≤ g ∧ g < s.nRings ∧ (s.ring g).slice = some n ∧ (s.ring g).st = 0) ∧
    (let s := rings; let r := 0; let b := cmd 0x44 (63 * 256 + 1) (255 + 3 * 256) 0; let p := 63; let n := 1; let key := 256 * 63 + 1; Accepted r 0x44 b s ∧ p = nfield (cmdArg0 b) 13 8 ∧ n = cmdArg0 b % 256 ∧ key = 256 * p + n ∧ p < s.nPorts ∧ n < s.nSlices ∧ cmdArg1 b % 256 ≠ 0 ∧ s.sliceState n ≠ 0) ∧
    (let s := rings; let r := 0; let b := cmd 0x4A 255 0 0; let n := 255; Accepted r 0x4A b s ∧ n = cmdArg0 b % 256 ∧ n < s.nSlices) := by
  repeat' first | decide +kernel | exact accepted_of (by decide +kernel) | constructor

/-- States and operands that meet the hypotheses of each clause of `Obligations.SlicesAreResetAndFrozen`. -/
theorem witness_SlicesAreResetAndFrozen :
    (let s := { rings with entries := [entryOf epOut 0 2] }; let r := 0; let b := cmd 0x45 1 0 0; let n := 1; Accepted r 0x45 b s ∧ n = cmdArg0 b % 256 ∧ n < s.nSlices ∧ 1 ≤ s.sliceState n ∧ s.sliceState n ≤ 3 ∧ s.sched.batch = none ∧ s.sched.queue = [] ∧ (∀ e ∈ s.entries, e.slice = n → e.forCmd = none)) ∧
    (let s := rings.fsetN .SLC_STS_STATE 2 1; let r := 0; let b := cmd 0x41 2 0 0; let n := 2; Accepted r 0x41 b s ∧ n = cmdArg0 b % 256 ∧ n < s.nSlices ∧ (s.sliceState n = 1 ∨ s.sliceState n = 3) ∧ s.sched.batch = none ∧ s.sched.queue = [] ∧ (∀ e ∈ s.entries, e.slice ≠ n) ∧ s.ctxsOf n = [] ∧ (∀ x ∈ s.rings, x.2.slice ≠ some n) ∧ (∀ x ∈ s.smp.groups, s.ringOf n x.2.ring = false) ∧ (∀ x ∈ s.smp.streams, s.ringOf n x.2.ring = false)) ∧
    (let s := rings; let r := 0; let b := cmd 0x41 1 0 0; let n := 1; let others := 1; Accepted r 0x41 b s ∧ n = cmdArg0 b % 256 ∧ n < s.nSlices ∧ (s.sliceState n = 1 ∨ s.sliceState n = 3) ∧ others ≠ 0) ∧
    (let s := { (rings.fsetN .SLC_STS_STATE 1 4).onSlice 1 (fun x => { x with resetFor := some 3 }) with cmds := [running 0x45] }; let n := 1; let i := 3; let c := running 0x45; (s.slice n).resetFor = some i ∧ s.sliceState n = 4 ∧ s.dryOf n = false ∧ (s.slice n).disabling = false ∧ c ∈ s.cmds ∧ c.ring = 0 ∧ c.idx = i ∧ c.status = none ∧ c.op = 0x45) ∧
    (let s := { (rings.fsetN .SLC_STS_STATE 1 4).onSlice 1 (fun x => { x with resetFor := some 3, disabling := true }) with cmds := [running 0x41] }; let n := 1; let i := 3; let c := running 0x41; (s.slice n).resetFor = some i ∧ s.sliceState n = 4 ∧ s.dryOf n = false ∧ (s.slice n).disabling = true ∧ c ∈ s.cmds ∧ c.ring = 0 ∧ c.idx = i ∧ c.status = none ∧ c.op = 0x41) ∧
    (let s := rings; let r := 0; let b := cmd 0x46 1 0 0; let n := 1; Accepted r 0x46 b s ∧ n = cmdArg0 b % 256 ∧ n < s.nSlices ∧ s.sliceState n = 1) ∧
    (let s := { (rings.fsetN .SLC_STS_STATE 1 2).onSlice 1 (fun x => { x with freezeCmd := some 3 }) with cmds := [running 0x46] }; let n := 1; let i := 3; let c := running 0x46; (s.slice n).freezeCmd = some i ∧ s.sliceState n = 2 ∧ s.sliceQuiet n = true ∧ c ∈ s.cmds ∧ c.ring = 0 ∧ c.idx = i ∧ c.status = none ∧ c.op = 0x46) ∧
    (let s := rings.fsetN .SLC_STS_STATE 1 3; let r := 0; let b := cmd 0x47 1 0 0; let n := 1; Accepted r 0x47 b s ∧ n = cmdArg0 b % 256 ∧ n < s.nSlices ∧ s.sliceState n = 3) := by
  repeat' first | decide +kernel | exact accepted_of (by decide +kernel) | constructor

/-- States and operands that meet the hypotheses of each clause of `Obligations.SlicesAreSavedAndRestored`. -/
theorem witness_SlicesAreSavedAndRestored :
    (let s := rings.fsetN .SLC_STS_STATE 1 3; let r := 0; let b := cmd 0x48 4096 (2 ^ 32 - 1) 1; let others := ([] : List (List Byte)); let n := 1; Accepted r 0x48 b s ∧ n = cmdArg2 b % 256 ∧ n < s.nSlices ∧ nfield (cmdArg1 b) 32 32 = 0 ∧ s.sliceState n = 3 ∧ (s.image n others false s.frameNo).2 ≤ 262144 ∧ (s.imageEntries n).length ≤ 4096 ∧ (s.image n others false s.frameNo).1.length ≤ cmdArg1 b % 2 ^ 32) ∧
    (let img := ((sliceOn rdy).image 1 [] false 0).1; let s := bindRegs ((ringOn rdy 0).onRing 0 fun g => { g with tail := 1 }); let r := 0; let b := cmd 0x49 4096 (2 ^ 32 - 1) 2; let n := 2; Accepted r 0x49 b s ∧ State.imageOk img = true ∧ s.sched.batch = none ∧ s.sched.queue = [] ∧ s.sched.held = false ∧ s.switching = false ∧ n = cmdArg2 b % 256 ∧ n < s.nSlices ∧ nfield (cmdArg1 b) 32 32 = 0 ∧ s.sliceState n = 0 ∧ s.bindStatus n = stOk ∧ leNat (slice 4 4 img) = img.length ∧ img.length ≤ cmdArg1 b % 2 ^ 32 ∧ s.imageFits img n = true ∧ leNat (slice 8 4 img) = 0 ∧ leNat (slice 14 2 img) = 0) :=
  ⟨⟨accepted_of (by decide +kernel), by decide +kernel⟩, accepted_of (by decide +kernel),
   imageOk_of (by unfold State.image; rfl) (by decide +kernel) (by decide +kernel) (by decide +kernel), by decide +kernel⟩

/-- States and operands that meet the hypotheses of each clause of `Obligations.MailboxesKeepTheirOrder`. -/
theorem witness_MailboxesKeepTheirOrder :
    (let s := rings; let n := 1; let v := 64; let len := 64; s.ready = true ∧ s.mbxWorks n = true ∧ len = v % 128 ∧ len % 8 = 0 ∧ 8 ≤ len ∧ len ≤ 64 ∧ (s.slice n).down.bytes + len ≤ 256) ∧
    (let s := rings.onSlice 1 (fun x => { x with upw := ⟨[List.replicate 64 1, List.replicate 64 2, List.replicate 64 3, List.replicate 56 4], []⟩ }); let n := 1; let v := 8; let len := 8; s.ready = true ∧ s.mbxWorks n = true ∧ len = v % 128 ∧ len % 8 = 0 ∧ 8 ≤ len ∧ len ≤ 64 ∧ (s.slice n).upw.bytes + len ≤ 256) ∧
    (let s := rings; let n := 1; let v := 72; s.ready = true ∧ s.mbxWorks n = true ∧ (v % 128 % 8 ≠ 0 ∨ v % 128 < 8 ∨ 64 < v % 128 ∨ 256 < (s.slice n).down.bytes + v % 128)) ∧
    (let s := rings; let n := 1; let v := 0; s.ready = true ∧ s.mbxWorks n = true ∧ (v % 128 % 8 ≠ 0 ∨ v % 128 < 8 ∨ 64 < v % 128 ∨ 256 < (s.slice n).upw.bytes + v % 128)) ∧
    (let s := rings.onSlice 1 (fun x => { x with upw := ⟨[[1], [2]], []⟩ }); let n := 1; let v := 1; let m := ([1] : List Byte); let l := [([2] : List Byte)]; s.ready = true ∧ s.mbxWorks n = true ∧ v % 2 = 1 ∧ (s.slice n).upw.msgs = m :: l) ∧
    (let s := rings.onSlice 1 (fun x => { x with down := ⟨[[1]], []⟩ }); let n := 1; let v := 1; let m := ([1] : List Byte); let l := ([] : List (List Byte)); s.ready = true ∧ s.mbxWorks n = true ∧ v % 2 = 1 ∧ (s.slice n).down.msgs = m :: l) :=
  by decide +kernel

/-- States and operands that meet the hypotheses of each clause of `Obligations.SourcesPendAndAreEnabled`. -/
theorem witness_SourcesPendAndAreEnabled :
    (let s := withSource rdy 192 Source.init; let x := 192; 192 ≤ x ∧ x < 256 ∧ x < s.nSources ∧ (s.source x).sense = 0 ∧ (s.source x).act = false) ∧
    (let s := withSource rdy 255 { Source.init with line := true }; let x := 255; 192 ≤ x ∧ x < 256 ∧ x < s.nSources ∧ (s.source x).sense = 0) ∧
    (let s := withSource rdy 200 { Source.init with sense := 2 }; let x := 200; 192 ≤ x ∧ x < 256 ∧ x < s.nSources ∧ (s.source x).sense = 2 ∧ (s.source x).line = false ∧ (s.source x).tmode ≠ 2) ∧
    (let s := rdy; let k := 0; let m := 0xFFFFFFFF; let fw := false; (fw = true ∨ s.ready = true) ∧ (∀ x ∈ s.named k m fw, (s.source x).en = false)) ∧
    (let s := rdy; let k := 6; let m := 1; let fw := true; (fw = true ∨ s.ready = true) ∧ (∀ x ∈ s.named k m fw, (s.source x).en = false)) ∧
    (let s := rdy; let k := 63; let m := 2147483648; let fw := false; (fw = true ∨ s.ready = true) ∧ (∀ x ∈ s.named k m fw, (s.source x).pend = false)) ∧
    (let s := { rdy with icu := { Icu.init with msixEn := true, sources := [(3, { Source.init with pend := true, tmode := 2, vector := 2047 })], vectors := [(2047, { Vector.init with mask := false })] } }; let k := 0; let m := 8; let fw := true; let x := 3; let e := 2047; (fw = true ∨ s.ready = true) ∧ s.named k m fw = [x] ∧ s.sliceSource x = none ∧ (s.source x).pend = true ∧ (s.source x).en = false ∧ (s.source x).tmode = 2 ∧ (s.source x).sense ≤ 1 ∧ e = (s.source x).vector ∧ (e / 8 < s.nSlices → s.sliceState (e / 8) = 0) ∧ s.icu.msixEn = true ∧ s.icu.fmask = false ∧ (s.vector e).mask = false ∧ (s.vector e).cnt ≤ 1) ∧
    (let s := { rdy with icu := { Icu.init with msixEn := true, sources := [(3, { Source.init with en := true, tmode := 2, vector := 2047 })], vectors := [(2047, { Vector.init with mask := false })] } }; let k := 0; let m := 8; let fw := true; let x := 3; let e := 2047; (fw = true ∨ s.ready = true) ∧ s.named k m fw = [x] ∧ x ≠ 0x7FF ∧ s.sliceSource x = none ∧ (s.source x).pend = false ∧ (s.source x).en = true ∧ (s.source x).tmode = 2 ∧ (s.source x).sense ≤ 1 ∧ e = (s.source x).vector ∧ (e / 8 < s.nSlices → s.sliceState (e / 8) = 0) ∧ s.icu.msixEn = true ∧ s.icu.fmask = false ∧ (s.vector e).mask = false ∧ (s.vector e).cnt ≤ 1) ∧
    (let s := rdy; let fw := false; (fw = true ∨ s.ready = true)) ∧
    (let s := rings; let n := 1; s.ready = true ∧ n < s.nSlices ∧ s.sliceState n ≠ 0 ∧ (∀ i < 2, (s.source (256 + 2 * n + i)).en = false)) ∧
    (let s := rings; let n := 1; s.ready = true ∧ n < s.nSlices ∧ s.sliceState n ≠ 0 ∧ (∀ i < 2, s.levelActive (256 + 2 * n + i) = false)) ∧
    (let s := rings; let n := 1; s.ready = true ∧ n < s.nSlices ∧ s.sliceState n ≠ 0) ∧
    (let s := rdy; let fw := some 200; let v := 2 ^ 30 + 0x1234; let x := 200; x = fw.getD (s.fget .ICU_SRCSEL_SOURCE) ∧ (fw = none → s.ready = true) ∧ x < s.nSources ∧ (fw.isSome = true ↔ 192 ≤ x ∧ x < 256) ∧ s.sliceSource x = none ∧ nfield v 31 30 ≠ 3 ∧ (nfield v 31 30 = 1 → 192 ≤ x ∧ x < 256) ∧ nfield v 13 11 ≤ 4 ∧ (s.source x).en = false) ∧
    (let s := rdy; let v := 3 * 2 ^ 30; s.ready = true ∧ s.fget .ICU_SRCSEL_SOURCE < s.nSources ∧ (s.fget .ICU_SRCSEL_SOURCE < 192 ∨ 256 ≤ s.fget .ICU_SRCSEL_SOURCE) ∧ nfield v 31 30 = 3) := by
  repeat' first | decide +kernel | constructor

/-- States and operands that meet the hypotheses of each clause of `Obligations.CoresClaimAndReturn`. -/
theorem witness_CoresClaimAndReturn :
    (let s := withSource rdy 3 { Source.init with pend := true, en := true, cores := 15, tmode := 1 }; let n := 3; let x := 3; n < 4 ∧ s.claimed n = some x) ∧
    (let s := rdy; let n := 0; n < 4 ∧ s.claimed n = none) ∧
    (let s := withSource rdy 200 { Source.init with act := true, onCore := 3, sense := 2 }; let n := 3; let x := 200; n < 4 ∧ x < s.nSources ∧ (s.source x).act = true ∧ (s.source x).onCore = n ∧ s.levelActive x = false) ∧
    (let s := rdy; let n := 3; let x := 200; n < 4 ∧ (s.source x).act = false) ∧
    (let s := { rdy with icu := { Icu.init with cores := [(3, ⟨.handling, 1, 0, none⟩)] } }; let n := 3; let u := 5; n < 4 ∧ 0 < ((s.at_ u).coreNow n).depth ∧ s.unoffered = []) ∧
    (let s := rdy; let n := 3; let k := 0; let mode := 4; n < 4 ∧ k < 4 ∧ k ≠ n ∧ s.flagN .ICU_CORESTS_WAIT k = false ∧ s.offersHeld = false ∧ mode ≤ 4) ∧
    (let s := ((rdy.fsetN .ICU_CORESTS_WAIT 0 1).fsetN .ICU_CORESTS_WAIT 1 1).fsetN .ICU_CORESTS_WAIT 2 1; let n := 3; n < 4 ∧ (∀ k < 4, k ≠ n → s.flagN .ICU_CORESTS_WAIT k = true) ∧ s.offersHeld = false) ∧
    (let s := { (((rdy.fsetN .ICU_CORESTS_WAIT 0 1).fsetN .ICU_CORESTS_WAIT 1 1).fsetN .ICU_CORESTS_WAIT 2 1).fset .PWR_STS_TARGET 3 with pwr := { Power.init with requested := true } }; let n := 3; let mode := 3; n < 4 ∧ (∀ k < 4, k ≠ n → s.flagN .ICU_CORESTS_WAIT k = true) ∧ s.offersHeld = false ∧ 2 ≤ mode ∧ mode ≤ 4 ∧ s.pwr.requested = true ∧ mode = s.fget .PWR_STS_TARGET ∧ s.pwr.abortBy = none) :=
  by decide +kernel

/-- States and operands that meet the hypotheses of each clause of `Obligations.VectorsModerateTheirMessages`. -/
theorem witness_VectorsModerateTheirMessages :
    (let s := { rdy with icu := { Icu.init with msixEn := true, vectors := [(9, { Vector.init with reqs := 1, timeUs := 3, mask := false })] } }; let e := 9; let u := 3000; (e / 8 < s.nSlices → s.sliceHeld (e / 8) = false) ∧ s.icu.msixEn = true ∧ 0 < (s.vector e).reqs ∧ (s.vector e).held = false ∧ (s.vector e).first + (s.vector e).timeUs * 1000 ≤ u ∧ (s.vector e).mask = false ∧ s.icu.fmask = false) ∧
    (let s := { rdy with icu := { Icu.init with msixEn := true, vectors := [(2047, { Vector.init with reqs := 1, timeUs := 3 })] } }; let e := 2047; let u := 3000; (e / 8 < s.nSlices → s.sliceHeld (e / 8) = false) ∧ s.icu.msixEn = true ∧ 0 < (s.vector e).reqs ∧ (s.vector e).held = false ∧ (s.vector e).first + (s.vector e).timeUs * 1000 ≤ u ∧ (s.vector e).mask = true) ∧
    (let s := { rings.fsetN .SLC_STS_STATE 1 3 with icu := { Icu.init with msixEn := true, vectors := [(9, { Vector.init with reqs := 1, timeUs := 3, mask := false })] } }; let e := 9; let u := 3000; s.icu.msixEn = true ∧ 0 < (s.vector e).reqs ∧ (s.vector e).held = false ∧ (s.vector e).first + (s.vector e).timeUs * 1000 ≤ u ∧ e / 8 < s.nSlices ∧ s.sliceHeld (e / 8) = true) ∧
    (let s := rings; let n := 1; let u := 5; s.ready = true ∧ n < s.nSlices ∧ s.sliceState n ≠ 0 ∧ (∀ v < 8, (s.vector (8 * n + v)).reqs = 0 ∨ (s.vector (8 * n + v)).reqAt ≠ some (s.at_ u).tim.now)) ∧
    (let s := rdy.fset .ICU_VSEL_VECTOR 2047; let e := 2047; let v := 2147483648; let u := 5; s.ready = true ∧ nfield v 31 31 = 1 ∧ e = s.fget .ICU_VSEL_VECTOR ∧ ((s.vector e).reqs = 0 ∨ (s.vector e).reqAt ≠ some (s.at_ u).tim.now)) ∧
    (let s := { rdy.fset .ICU_VSEL_VECTOR 2047 with icu := { Icu.init with msixEn := true, vectors := [(2047, { Vector.init with reqs := 1, reqAt := some 5, mask := false })] } }; let e := 2047; let v := 2147483648; let u := 5; (e / 8 < s.nSlices → s.sliceHeld (e / 8) = false) ∧ s.ready = true ∧ nfield v 31 31 = 1 ∧ e = s.fget .ICU_VSEL_VECTOR ∧ 0 < (s.vector e).reqs ∧ (s.vector e).reqAt = some (s.at_ u).tim.now ∧ (s.vector e).held = false ∧ s.icu.msixEn = true ∧ s.icu.fmask = false ∧ (s.vector e).mask = false) ∧
    (let s := rdy; let e := 9; s.ready = true ∧ (s.vector e).pba = false) ∧
    (let s := { rdy with icu := { Icu.init with msixEn := true, vectors := [(9, { Vector.init with pba := true })] } }; let e := 9; (e / 8 < s.nSlices → s.sliceHeld (e / 8) = false) ∧ s.ready = true ∧ (s.vector e).pba = true ∧ s.icu.msixEn = true ∧ s.icu.fmask = false) ∧
    (let s := rdy; (∀ x ∈ s.icu.vectors, x.2.pba = false)) :=
  by decide +kernel

/-- States and operands that meet the hypotheses of each clause of `Obligations.EventReadsClearAndShadow`. -/
theorem witness_EventReadsClearAndShadow :
    (let s := rdy.fset .TIM_EVT_PPS_LOST 1; s.ready = true) ∧
    (let s := rdy.fsetN .PRT_CHG_ERROR 63 1; let n := 63; s.ready = true ∧ n < s.nPorts) ∧
    (let s := rdy; s.ready = true) ∧
    (let s := rdy.fsetN .MOV_STS_STATE 50 2; s.ready = true) ∧
    (let s := rdy.fsetN .MBM_EVT_IN 255 1; let n := 255; s.ready = true ∧ n < s.nSlices) ∧
    (let s := rings; let n := 1; s.ready = true ∧ n < s.nSlices ∧ s.sliceState n ≠ 0) ∧
    (let s := State.reset.fsetN .PRT_CHG_ERROR 2 1; s.ready = false) :=
  by decide +kernel

/-- States and operands that meet the hypotheses of each clause of `Obligations.TwinLinkRuns`. -/
theorem witness_TwinLinkRuns :
    (let kind := 0x11; let lseq := 4095; let p := List.replicate 16 (7 : Byte); kind < 256 ∧ lseq < 4096 ∧ twinLenOk kind p.length = true ∧ (twinLoose kind = true → lseq = 0)) ∧
    (let m := ([0x10, 0x10, 0, 0] : List Byte); twinRead m = .header) ∧
    (let s := twinOn rdy; let m := ((twinMsg 0x10 0 (List.replicate 64 0)).take 72 ++ [0, 0, 0, 0] : List Byte); s.twin.enabled = true ∧ s.linkUp = true ∧ twinRead m = .crc 0x10 ∧ s.twin.retryVal ≠ some s.twin.rxSeq) ∧
    (let s := rdy.wr .TWN_CFG_N 0 (0xFFFFFFFF - 65541); let v := 65541; s.ready = true ∧ s.hasTwin = true ∧ s.flag .TWN_CFG_ENABLE = false ∧ nfield v 16 16 = 1 ∧ (s.rd .TWN_CFG_N 0).toNat = 2 ^ 32 - 1 - (65536 + v % 65536) ∧ s.pairOk .TWN_GEN .TWN_GEN_N 0 32 = true ∧ (∀ n < s.nPorts, s.pairOk .TWN_PMAP .TWN_PMAP_N n 32 = true)) ∧
    (let s := (twinOn rdy).fset .TWN_CFG_ENABLE 1; let v := 0; s.ready = true ∧ s.hasTwin = true ∧ s.flag .TWN_CFG_ENABLE = true ∧ nfield v 16 16 = 0) ∧
    (let s := { rdy with twin := { Twin.init with enabled := true, peerRx := 9, peerHeard := true } }; s.twin.enabled = true ∧ s.twin.peerRx ≠ 0 ∧ s.twin.peerHeard = true) ∧
    (let s := twinOn rdy; s.linkUp = true) ∧
    (let s := twinOn rdy; let lseq := 0; let p := List.replicate 64 (0 : Byte); let m := twinMsg 0x10 0 p; s.twin.enabled = true ∧ twinRead m = .msg 0x10 lseq p ∧ (s.linkUp = true → lseq = s.twin.rxSeq)) ∧
    (let s := twinOn rdy; s.twin.enabled = true) ∧
    (let s := { twinOn rdy with twin := { (twinOn rdy).twin with replay := [⟨3, ⟨1, []⟩⟩, ⟨4, ⟨1, []⟩⟩, ⟨5, ⟨1, []⟩⟩] } }; let p := leBytes 4 4; let w := 0; let m := twinMsg 1 0 p; let lseq := 4; let l := [(⟨3, ⟨1, []⟩⟩ : TwinKept)]; let k := (⟨4, ⟨1, []⟩⟩ : TwinKept); let r := [(⟨5, ⟨1, []⟩⟩ : TwinKept)]; s.twin.enabled = true ∧ twinRead m = .msg 1 w p ∧ lseq = leNat p % 4096 ∧ s.twin.replay = l ++ k :: r ∧ (∀ x ∈ l, x.lseq ≠ lseq) ∧ k.lseq = lseq ∧ s.twin.queue = []) ∧
    (let s := { twinOn rdy with twin := { (twinOn rdy).twin with replay := [⟨3, ⟨1, []⟩⟩, ⟨4, ⟨1, []⟩⟩, ⟨5, ⟨1, []⟩⟩], replayCnt := 7, replayFrom := 4 } }; let p := leBytes 4 4; let w := 0; let m := twinMsg 2 0 p; let lseq := 4; let l := [(⟨3, ⟨1, []⟩⟩ : TwinKept)]; let k := (⟨4, ⟨1, []⟩⟩ : TwinKept); let r := [(⟨5, ⟨1, []⟩⟩ : TwinKept)]; s.twin.enabled = true ∧ twinRead m = .msg 2 w p ∧ lseq = leNat p % 4096 ∧ s.linkUp = true ∧ (s.twin.replayCnt < 8 ∨ s.twin.replayFrom ≠ lseq) ∧ s.twin.replay = l ++ k :: r ∧ (∀ x ∈ l, x.lseq ≠ lseq) ∧ k.lseq = lseq) ∧
    (let s := { twinOn rdy with twin := { (twinOn rdy).twin with replayCnt := 8, replayFrom := 4 } }; let p := leBytes 4 4; let w := 0; let m := twinMsg 2 0 p; s.twin.enabled = true ∧ twinRead m = .msg 2 w p ∧ s.linkUp = true ∧ 8 ≤ s.twin.replayCnt ∧ s.twin.replayFrom = leNat p % 4096) ∧
    (let s := { twinOn rdy with twin := { (twinOn rdy).twin with replay := [⟨3, ⟨1, []⟩⟩, ⟨4, ⟨1, []⟩⟩] } }; let k := (⟨3, ⟨1, []⟩⟩ : TwinKept); let r := [(⟨4, ⟨1, []⟩⟩ : TwinKept)]; s.linkUp = true ∧ s.twin.replay = k :: r ∧ (s.twin.replayCnt < 8 ∨ s.twin.replayFrom ≠ k.lseq)) ∧
    (let s := { twinOn rdy with twin := { (twinOn rdy).twin with mirrored := [(3, 100)] } }; let u := 100100; let x := (3, 100); s.linkUp = true ∧ x ∈ s.twin.mirrored ∧ x.2 + 100000 ≤ u) ∧
    (let s := { twinOn rdy with twin := { (twinOn rdy).twin with mirrored := [(3, 100)] } }; let u := 100099; (∀ x ∈ s.twin.mirrored, u < x.2 + 100000)) := by
  repeat' first | decide +kernel | constructor

/-- States and operands that meet the hypotheses of each clause of `Obligations.PartnersShadowAndMirror`. -/
theorem witness_PartnersShadowAndMirror :
    (let s := withCtx (twinOn rdy) (shadowOf epOut); let w0 := Eph.mk 6 5 0 3; let p := leBytes 4 (Eph.mk 6 5 0 3) ++ [0x30, 0, 0, 0, 0, 0, 0, 0] ++ leBytes 4 (2 ^ 32 - 1 - Eph.mk 6 5 0 3); let m := twinMsg 0x11 0 p; let b4 := 0x30; let n := 2; let eph := epOut; let k := CtxSlot.of (shadowOf epOut) 0; TwinTakes 0x11 m p s ∧ s.paired = true ∧ p.length = 16 ∧ w0 = leNat (slice 0 4 p) ∧ b4 = leNat (slice 4 1 p) ∧ leNat (slice 12 4 p) = 2 ^ 32 - 1 - w0 ∧ s.fromPartner (Eph.port w0) = some n ∧ n < 64 ∧ s.shared n = true ∧ s.owns n = false ∧ eph = ephPort (w0 % 2 ^ 25) n ∧ s.ctx? eph = some k ∧ k.ctx.shadow = true) ∧
    (let s := (twinOn rdy).fset .TWN_STS_PAIR 1; let p := List.replicate 16 (0 : Byte); let m := twinMsg 0x11 0 p; TwinTakes 0x11 m p s ∧ s.paired = false) ∧
    (let s := withCtx (twinOn rdy) (shadowOf epOut); let p := [1, 1, 0, 0] ++ leBytes 4 (Eph.mk 6 5 0 3) ++ leBytes 4 0 ++ List.replicate 20 7; let b := twinMsg 0x12 0 p; let m := 0; let n := 2; let eph := epOut; let k := CtxSlot.of (shadowOf epOut) 0; TwinTakes 0x12 b p s ∧ s.paired = true ∧ m = leNat (slice 8 4 p) ∧ m = s.twin.mseqRx ∧ leNat (slice 0 1 p) = 1 ∧ s.fromPartner (Eph.port (leNat (slice 4 4 p))) = some n ∧ eph = ephPort (leNat (slice 4 4 p) % 2 ^ 25) n ∧ s.ctx? eph = some k ∧ k.ctx.shadow = true ∧ s.twin.queue = [] ∧ s.twin.replay = []) ∧
    (let s := { twinOn rdy with twin := { (twinOn rdy).twin with mirrored := [(3, 100), (4, 200)] } }; let p := leBytes 8 3; let b := twinMsg 0x13 0 p; let m := 3; Quiet s ∧ TwinTakes 0x13 b p s ∧ s.paired = true ∧ m = leNat (p.take 4) ∧ s.twin.heldEvents = []) ∧
    (let s := (twinTree rdy fun x => { x with outTicks := 2 }).wr .TWN_OWNED 0 4; let n := 2; let q := 6; Tbl.find s.twin.pmap n = some q ∧ s.paired = true ∧ s.shared n = true ∧ s.owns n = true ∧ (s.tree n).handed = false ∧ 2 ≤ (s.tree n).outTicks ∧ s.twin.enabled = true ∧ s.twin.queue = [] ∧ s.twin.replay = []) ∧
    (let s := twinTree rdy fun x => { x with outTicks := 1 }; let n := 2; ((s.tree n).handed = true ∨ (s.tree n).outTicks < 2)) ∧
    (let s := (twinOn rdy).wr .TWN_WARM 0 4; let p := leBytes 8 4 ++ leBytes 8 9; let b := twinMsg 0x14 0 p; let n := 2; let w := 9; TwinTakes 0x14 b p s ∧ w = leNat (slice 8 4 p) ∧ w ≠ 0 ∧ n < s.nPorts ∧ s.shared n = true ∧ s.owns n = false ∧ s.warm n = true ∧ nfield (leNat (p.take 8)) n n = 1) := by
  repeat' first | decide +kernel | (unfold TwinTakes; decide +kernel) | (unfold Quiet; decide +kernel) | constructor

/-- States and operands that meet the hypotheses of each clause of `Obligations.TokensMakeTheOwner`. -/
theorem witness_TokensMakeTheOwner :
    (let s := twinTree rdy fun x => { x with msg := some ⟨0x12, 0, 7, 0⟩, msgAt := 100 }; let n := 2; let u := 100100; let m := (⟨0x12, 0, 7, 0⟩ : Linkctl); FreeToSend (.port (.root n)) 16 (s.at_ u) ∧ (s.tree n).msg = some m ∧ n < s.nPorts ∧ u ≤ (s.tree n).msgAt + 100000) ∧
    (let s := twinTree rdy fun x => { x with msg := some ⟨0x10, 0, 7, 0⟩, msgAt := 100 }; let n := 2; let u := 100101; let m := (⟨0x10, 0, 7, 0⟩ : Linkctl); (s.tree n).msg = some m ∧ (s.tree n).msgAt + 100000 < u ∧ (s.tree n).claim = none) ∧
    (let s := twinTree rdy fun x => { x with msg := some ⟨0x12, 0, 7, 0⟩, msgAt := 100, claim := some (false, 9) }; let n := 2; let u := 100101; let m := (⟨0x12, 0, 7, 0⟩ : Linkctl); (s.tree n).msg = some m ∧ (s.tree n).msgAt + 100000 < u ∧ (s.tree n).claim.isSome = true ∧ (s.tree n).cmd = none) ∧
    (let s := twinTree rdy fun x => { x with rel := some ⟨0x13, 0, 7, 9⟩ }; let n := 2; let u := 5; let m := (⟨0x13, 0, 7, 9⟩ : Linkctl); FreeToSend (.port (.root n)) 16 (s.at_ u) ∧ (s.tree n).rel = some m ∧ n < s.nPorts ∧ later32 m.frameNo s.frameNo = true) ∧
    (let s := twinTree rdy fun x => { x with rel := some ⟨0x13, 0, 7, 0⟩ }; let n := 2; let m := (⟨0x13, 0, 7, 0⟩ : Linkctl); (s.tree n).rel = some m ∧ later32 m.frameNo s.frameNo = false) ∧
    (let s := twinOn rdy; let n := 2; let arg := 7; s.shared n = true ∧ nfield arg 19 19 = 0 ∧ s.owns n = false ∧ (s.tree n).msg = none) ∧
    (let s := twinOn rdy; let n := 2; let arg := 7 + 2 ^ 19; n < 64 ∧ s.shared n = true ∧ nfield arg 19 19 = 1 ∧ s.owns n = false ∧ (s.tree n).msg = none) ∧
    (let s := twinTree rdy fun x => { x with msg := some ⟨0x12, 0, 7, 0⟩ }; let n := 2; let arg := 7; let u := 5; let m := (⟨0x12, 0, 7, 0⟩ : Linkctl); let first := frameNumber s.frate (tickFrom s.frate (max (u + 1000) (s.tree n).notBefore)); n < 64 ∧ s.owns n = false ∧ (s.tree n).msg = some m ∧ m.typ = 0x12 ∧ m.arg % 65536 = arg % 65536 ∧ (s.tree n).cmd = none ∧ first = frameNumber s.frate (tickFrom s.frate (max (u + 1000) (s.tree n).notBefore))) ∧
    (let s := twinTree rdy fun x => { x with msg := some ⟨0x12, 0, 7, 0⟩ }; let n := 2; let m := (⟨0x12, 0, 7, 0⟩ : Linkctl); (s.tree n).msg = some m ∧ m.typ = 0x12 ∧ (s.tree n).cmd = none) ∧
    (let s := twinOn rdy; let n := 2; n < 64 ∧ s.owns n = false) ∧
    (let s := (twinOn rdy).wr .TWN_OWNED 0 4; let n := 2; Quiet s ∧ n < 64 ∧ s.owns n = true) := by
  unfold FreeToSend Quiet; decide +kernel

/-- States and operands that meet the hypotheses of each clause of `Obligations.TwinCommandsAct`. -/
theorem witness_TwinCommandsAct :
    (let s := twinOn rings; let r := 0; let b := cmd 0x60 4 0 0; Accepted r 0x60 b s ∧ s.hasTwin = true ∧ s.maskShared (cmdArg0 b) = true ∧ cmdArg0 b ≠ 0 ∧ cmdArg0 b < 2 ^ 64) ∧
    (let s := twinOn rings; let r := 0; let b := cmd 0x61 4 0 0; Accepted r 0x61 b s ∧ s.hasTwin = true ∧ s.maskShared (cmdArg0 b) = true ∧ cmdArg0 b ≠ 0 ∧ cmdArg0 b < 2 ^ 64) ∧
    (let s := rings.wr .GCTL_CAPS 0 0x0200020000402001; let r := 0; let b := cmd 0x60 4 0 0; Accepted r 0x60 b s ∧ s.hasTwin = false) ∧
    (let s := { (twinOn rings).wr .TWN_OWNED 0 4 with twin := { (twinOn rings).twin with peerWarm := 64 } }; let r := 0; let b := cmd 0x62 4 4 0; let w := 4; Accepted r 0x62 b s ∧ s.hasTwin = true ∧ s.maskShared (cmdArg0 b) = true ∧ s.paired = true ∧ w = cmdArg1 b % 2 ^ 32 ∧ w ≠ 0 ∧ later32 w ((s.frameNo + 3) % 2 ^ 32) = true ∧ (∀ n < 64, nfield (cmdArg0 b) n n = 1 → s.owns n = true ∧ ∃ q, Tbl.find s.twin.pmap n = some q ∧ nfield s.twin.peerWarm q q = 1)) ∧
    (let s := twinOn rings; let r := 0; let b := cmd 0x63 2 0 0; let n := 2; Accepted r 0x63 b s ∧ s.hasTwin = true ∧ n = cmdArg0 b % 64 ∧ n < s.nPorts ∧ s.shared n = true) := by
  repeat' first | decide +kernel | exact accepted_of (by decide +kernel) | constructor

/-- States and operands that meet the hypotheses of each clause of `Obligations.PowerRequestsAreTaken`. -/
theorem witness_PowerRequestsAreTaken :
    (let s := rdy; let x := 4; let y := 2 ^ 32 - 1 - 4; s.ready = true ∧ y % 2 ^ 32 = 2 ^ 32 - 1 - x % 8 ∧ s.inSafe = false ∧ 2 ≤ x % 8 ∧ x % 8 ≤ 4 ∧ s.moving = false ∧ s.pwrState ≠ 2) ∧
    (let s := rdy; let x := 2; let y := 2; s.ready = true ∧ y % 2 ^ 32 ≠ 2 ^ 32 - 1 - x % 8) ∧
    (let s := rdy; let x := 5; let y := 2 ^ 32 - 1 - 5; s.ready = true ∧ y % 2 ^ 32 = 2 ^ 32 - 1 - x % 8 ∧ s.inSafe = false ∧ (x % 8 = 1 ∨ 5 ≤ x % 8)) ∧
    (let s := entering rdy 1 2; let x := 2; let y := 2 ^ 32 - 1 - 2; s.ready = true ∧ y % 2 ^ 32 = 2 ^ 32 - 1 - x % 8 ∧ s.inSafe = false ∧ 2 ≤ x % 8 ∧ x % 8 ≤ 4 ∧ s.moving = true ∧ s.flag .PWR_STS_QVALID = false) ∧
    (let s := entering rdy 1 2; let x := 0; let y := 2 ^ 32 - 1; s.ready = true ∧ y % 2 ^ 32 = 2 ^ 32 - 1 ∧ x % 8 = 0 ∧ s.inSafe = false ∧ s.flag .PWR_STS_ENTERING = true ∧ s.flag .PWR_STS_EXITING = false ∧ s.pwr.abortBy = none) ∧
    (let s := resting 2; let x := 0; let y := 2 ^ 32 - 1; Rests s ∧ s.ready = true ∧ y % 2 ^ 32 = 2 ^ 32 - 1 ∧ x % 8 = 0 ∧ s.inSafe = false ∧ s.pwrState = 2) ∧
    (let s := rdy.onPol fun p => { p with inForce := 0x200 }; s.powerIdle = true ∧ s.policyMode 4 = 2 ∧ s.pwrState = 0 ∧ s.moving = false ∧ s.inSafe = false) ∧
    (let s := { rings with entries := [entryOf epOut 0 2] }; s.powerIdle = false) := by
  unfold Rests; decide +kernel

/-- States and operands that meet the hypotheses of each clause of `Obligations.EntriesPassTheirAbortPoints`. -/
theorem witness_EntriesPassTheirAbortPoints :
    (let s := entering rdy 1 2; let ok := true; let u := 5; EntryAt 1 s ∧ (s.at_ u).refusers ok = []) ∧
    (let s := entering rdy 1 2; let ok := false; let u := 5; let id := 4; let l := ([] : List Nat); EntryAt 1 s ∧ (s.at_ u).refusers ok = id :: l ∧ id ∉ l ∧ s.flag .PWR_STS_QVALID = false) ∧
    (let s := entering rdy 2 3; EntryAt 2 s ∧ s.txns = [] ∧ s.fget .PWR_STS_TARGET ≠ 4 ∧ (s.fget .PWR_STS_TARGET = 3 → s.ctxs = [])) ∧
    (let s := entering (portIn rdy (.root 2) 6) 3 2; EntryAt 3 s ∧ (∀ n < s.nPorts, s.portState (.root n) = 0 ∨ s.portState (.root n) = 1 ∨ s.portState (.root n) = 6 ∨ s.portState (.root n) = 9)) ∧
    (let s := { entering rdy 3 2 with pwr := { Power.init with abortBy := some 9 } }; let id := 9; s.flag .PWR_STS_ENTERING = true ∧ s.fget .PWR_STS_APOINT = 3 ∧ s.pwr.abortBy = some id ∧ (∀ n < s.nPorts, s.portState (.root n) = 0 ∨ s.portState (.root n) = 1 ∨ s.portState (.root n) = 6 ∨ s.portState (.root n) = 9)) ∧
    (let s := entering rdy 4 2; let u := 5; EntryAt 4 s ∧ (s.at_ u).twinRefuses = false ∧ (s.at_ u).moverRefuses = false ∧ s.linkUp = false) ∧
    (let s := entering rdy 4 2; EntryAt 4 s) ∧
    (let s := entering rdy 5 2; EntryAt 5 s) ∧
    (let s := entering rdy 5 2; EntryAt 5 s ∧ s.fget .PWR_STS_TARGET = 2 ∧ s.flag .PWR_STS_QVALID = false ∧ s.pwr.wakeLater = none) ∧
    (let s := entering rdy 5 3; Ordered s ∧ EntryAt 5 s ∧ s.fget .PWR_STS_TARGET = 3 ∧ s.flag .PWR_STS_QVALID = false ∧ s.pwr.wakeLater = none) ∧
    (let s := entering rdy 5 4; EntryAt 5 s ∧ s.fget .PWR_STS_TARGET = 4 ∧ s.pwr.wakeLater = none) := by
  repeat' first | decide +kernel | (unfold EntryAt; decide +kernel) | (unfold Ordered; decide +kernel) | constructor

/-- States and operands that meet the hypotheses of each clause of `Obligations.WakesAndExits`. -/
theorem witness_WakesAndExits :
    (let s := (resting 3).fset .PWR_WAKE_EN_WAKE_N 1; Rests s ∧ (s.pwrState = 2 ∨ s.pwrState = 3) ∧ s.flag .PWR_WAKE_EN_WAKE_N = true) ∧
    (let s := resting 4; Rests s ∧ s.pwrState = 4) ∧
    (let s := (resting 2).fset .PWR_WAKE_EN_WAKE_N 0; s.pwrState ≠ 4 ∧ s.flag .PWR_WAKE_EN_WAKE_N = false) ∧
    (let s := (((rdy.fset .PWR_SENSE_EN 1).fset .PWR_SENSE_THR 10).fset .PWR_SENSE_DIR 0); let v := 1401; let w := 61036; s.flag .PWR_SENSE_EN = true ∧ 2 * 1000000000 ≤ w * 32768 ∧ s.flag .PWR_SENSE_OUT = false ∧ s.flag .PWR_SENSE_DIR = false ∧ 1000 + 40 * min 250 (s.fget .PWR_SENSE_THR) < v ∧ s.pwrState ≤ 1 ∧ s.flag .PWR_STS_ENTERING = false ∧ s.flag .PWR_STS_EXITING = false) ∧
    (let s := ((resting 2).fset .PWR_SENSE_EN 1).fset .PWR_WAKE_EN_SENSE 1; let v := 12000; let w := 61036; Rests s ∧ s.flag .PWR_SENSE_EN = true ∧ 2 * 1000000000 ≤ w * 32768 ∧ s.flag .PWR_SENSE_OUT = false ∧ s.flag .PWR_SENSE_DIR = false ∧ 1000 + 40 * min 250 (s.fget .PWR_SENSE_THR) < v ∧ (s.pwrState = 2 ∨ s.pwrState = 3) ∧ s.flag .PWR_WAKE_EN_SENSE = true) ∧
    (let s := ((rdy.fset .PWR_SENSE_EN 1).fset .PWR_SENSE_THR 100).fset .PWR_SENSE_OUT 1; let v := 10; let w := 61036; s.flag .PWR_SENSE_EN = true ∧ 2 * 1000000000 ≤ w * 32768 ∧ s.flag .PWR_SENSE_OUT = true ∧ s.flag .PWR_SENSE_DIR = false ∧ v + 80 * (s.fget .PWR_SENSE_HYST + 1) < 1000 + 40 * min 250 (s.fget .PWR_SENSE_THR)) ∧
    (let w := 61035; w * 32768 < 2 * 1000000000) ∧
    (let s := resting 2; Rests s ∧ s.pwrState = 2) ∧
    (let s := (resting 3).fset .PWR_WAKE_EN_PCIE 1; Rests s ∧ s.pwrState = 3 ∧ s.flag .PWR_WAKE_EN_PCIE = true) ∧
    (let s := (resting 3).fset .PWR_WAKE_EN_TWIN 1; Rests s ∧ (s.pwrState = 2 ∨ s.pwrState = 3) ∧ s.hasTwin = true ∧ s.flag .PWR_WAKE_EN_TWIN = true) ∧
    (let s := rdy; s.ready = true) ∧
    (let s := { (resting 2).fset .PWR_STS_EXITING 1 with pwr := { Power.init with rows := [2, 8, 9] } }; let row := 2; let rest := [8, 9]; s.pwr.rows = row :: rest ∧ (row = 2 ∨ row = 3)) ∧
    (let s := { (resting 2).fset .PWR_STS_EXITING 1 with pwr := { Power.init with rows := [7, 8, 9] } }; let rest := [8, 9]; s.pwr.rows = 7 :: rest ∧ rest.contains 7 = false ∧ s.flag .PWR_STS_EXITING = true ∧ s.flag .PWR_STS_ENTERING = false) ∧
    (let s := { (resting 2).fset .PWR_STS_EXITING 1 with pwr := { Power.init with rows := [5, 6] } }; let rest := [6]; s.pwr.rows = 5 :: rest ∧ s.pwr.rollback = false) ∧
    (let s := { (resting 2).fset .PWR_STS_EXITING 1 with pwr := { Power.init with rows := [9] } }; s.pwr.rows = [9] ∧ s.pwr.rollback = false ∧ s.flag .PWR_STS_QVALID = false) := by
  repeat' first | decide +kernel | (unfold Rests; decide +kernel) | constructor

/-- States and operands that meet the hypotheses of each clause of `Obligations.StartsRunToReadyOrSafe`. -/
theorem witness_StartsRunToReadyOrSafe :
    (let s := State.reset; let i := startIn; let o := otpIn; Ordered s ∧ StartPasses i o s) ∧
    (let s := State.reset; let i := ({ startIn with otp := none } : StartIn); i.otp = none ∧ (i.region0 = true → s.fget .HLT_START_FAILS ≠ 3)) ∧
    (let s := State.reset.fset .HLT_START_FAILS 3; let i := startIn; i.region0 = true ∧ s.fget .HLT_START_FAILS = 3) ∧
    (let s := State.reset; s.hlt.starting = true ∧ s.pwrState ≤ 1) ∧
    (let s := rdy; s.hlt.starting = false) ∧
    (let s := State.reset; s.hlt.starting = true ∧ s.fget .HLT_START_KIND = 0) ∧
    (let s := rings; Ordered s ∧ s.pwrState ≤ 2 ∧ (∀ n < s.nPorts, s.portState (.root n) ≠ 4) ∧ s.flag .TWN_CFG_ENABLE = false) ∧
    (let s := rings; let i := startIn; let o := otpIn; Ordered s ∧ StartPasses i o s ∧ s.pwrState ≤ 2 ∧ (∀ n < s.nPorts, s.portState (.root n) ≠ 4)) ∧
    (let s := { (resting 3).fset .PWR_STS_EXITING 1 with pwr := { Power.init with rows := [1, 2, 3] } }; let rest := [2, 3]; s.pwr.rows = 1 :: rest) ∧
    (let s := { (resting 3).fset .PWR_STS_EXITING 1 with pwr := { Power.init with rows := [4, 5] } }; let bad := 1; let rest := [5]; let i := startIn; let o := otpIn; Ordered s ∧ StartPasses { i with region0 := false } o s ∧ s.pwr.rows = 4 :: rest ∧ nfield bad 0 0 = 1) ∧
    (let s := { (resting 3).fset .PWR_STS_EXITING 1 with pwr := { Power.init with rows := [4, 5] } }; let bad := 2; let rest := [5]; let i := startIn; let o := otpIn; Ordered s ∧ StartPasses i o s ∧ s.pwr.rows = 4 :: rest ∧ nfield bad 0 0 = 0) ∧
    (let s := { (resting 3).fset .PWR_STS_EXITING 1 with pwr := { Power.init with rows := [4, 5] } }; let rest := [5]; s.pwr.rows = 4 :: rest ∧ s.pwr.imageBad = false) ∧
    (let c := { running 0x75 with status := some 1 }; let s := { rings with cmds := [c], hlt := { rdy.hlt with restart := some 3 } }; let k := 3; let x := 1; let i := startIn; let o := otpIn; Ordered s ∧ StartPasses i o s ∧ s.engineFree (.cmdWriteback 0) = true ∧ s.hlt.restart = some k ∧ s.cmds = [c] ∧ c.ring = 0 ∧ c.idx = k ∧ c.slice = none ∧ c.status = some x) := by
  repeat' first | decide +kernel | (unfold Ordered; decide +kernel) | (unfold StartPasses; decide +kernel) | constructor

/-- States and operands that meet the hypotheses of each clause of `Obligations.PinsAndThePcieLinkAct`. -/
theorem witness_PinsAndThePcieLinkAct :
    (let s := rings; Ordered s ∧ s.pwrState ≤ 2 ∧ s.flag .PWR_STS_ENTERING = false ∧ s.flag .PWR_STS_EXITING = false) ∧
    (let s := resting 3; 3 ≤ s.pwrState ∧ s.flag .PWR_STS_EXITING = false) ∧
    (let s := { rdy with pwr := { Power.init with perst := true } }; let i := startIn; let o := otpIn; Ordered s ∧ StartPasses i o s ∧ s.pwr.perst = true) ∧
    (let s := (resting 3).fset .PWR_WAKE_EN_PCIE 1; Rests s ∧ s.pwr.perst = false ∧ s.pwrState = 3 ∧ s.flag .PWR_WAKE_EN_PCIE = true) ∧
    (let s := resting 3; s.pwrState = 3 ∧ s.flag .PWR_STS_EXITING = false) ∧
    (let s := resting 4; s.pwrState = 4) ∧
    (let s := rings; let i := startIn; let o := otpIn; Ordered s ∧ StartPasses i o s ∧ s.pwrState ≤ 2 ∧ s.hlt.starting = false) ∧
    (let s := rdy; let e := (⟨true, 14, [1], [2]⟩ : TlpError); e.uncorr = true ∧ [4, 12, 13, 14, 16, 17, 18, 20].contains e.bit = true ∧ s.aer.first = none) ∧
    (let s := { rdy with aer := { Aer.init with first := some 4 } }; let e := (⟨true, 20, [1], [2]⟩ : TlpError); e.uncorr = true ∧ [4, 12, 13, 14, 16, 17, 18, 20].contains e.bit = true ∧ s.aer.first.isSome = true) ∧
    (let e := (⟨false, 12, [], []⟩ : TlpError); e.uncorr = false ∧ [0, 6, 7, 8, 12, 13, 14].contains e.bit = true) := by
  unfold Ordered StartPasses Rests; decide +kernel

/-- States and operands that meet the hypotheses of each clause of `Obligations.HealthIsMeasured`. -/
theorem witness_HealthIsMeasured :
    (let s := { rdy with hlt := { rdy.hlt with secMax := some 70 } }; let v := (70 : Int); s.pwrState ≤ 2 ∧ s.hlt.secMax = some v) ∧
    (let s := rdy; let temps := ([50, 114] : List Int); s.pwrState ≤ 2 ∧ (∀ x ∈ temps, x < 115)) ∧
    (let s := rdy; let temps := ([50, 140] : List Int); Ordered s ∧ s.pwrState ≤ 2 ∧ (∃ x ∈ temps.take 8, 140 ≤ x)) ∧
    (let s := { rdy with hlt := { rdy.hlt with tripHeld := true, tripLow := 1 } }; s.hlt.tripHeld = true) ∧
    (let rail := 5; let mv := 5000; rail < 6 ∧ railOut rail mv = true) ∧
    (let rail := 6; let mv := 5000; (6 ≤ rail ∨ railOut rail mv = false)) := by
  unfold Ordered; decide +kernel

/-- States and operands that meet the hypotheses of each clause of `Obligations.MemoryErrorsAreCountedAndMended`. -/
theorem witness_MemoryErrorsAreCountedAndMended :
    (let b := 49; b < 50) ∧
    (let s := { rdy with hlt := { rdy.hlt with rowHits := [(65536 * 2 + 7, 14)] } }; let a := 2; let w := 7; let k := 65536 * 2 + 7; let n := 15; k = 65536 * a + w % 65536 ∧ n = Tbl.get 0 s.hlt.rowHits k + 1 ∧ n < 16) ∧
    (let s := { rdy with hlt := { rdy.hlt with rowHits := [(65536 * 2 + 7, 15)] } }; let a := 2; let w := 7; let k := 65536 * 2 + 7; let n := 16; k = 65536 * a + w % 65536 ∧ n = Tbl.get 0 s.hlt.rowHits k + 1 ∧ 16 ≤ n) ∧
    (let e := entryOf epOut 0 2; let s := { withCtx rings (ctxOf epOut 4 3 2) with entries := [e] }; let b := (3 : Nat); let r := (9 : Nat); let i := (0 : Nat); b < 50 ∧ s.entryAt r i = some e ∧ e.done = none) ∧
    (let x := (⟨3, 48, 3, false, false, false, none⟩ : Retire); let s := { rdy with hlt := { rdy.hlt with retire := some x } }; s.hlt.retire = some x) ∧
    (let s := { rings with hlt := { rdy.hlt with banks := [(3, ⟨[], 0, 1⟩)] } }; let r := 0; let b := cmd 0x71 3 0 0; let n := 3; let l := 3; Accepted r 0x71 b s ∧ n = nfield (cmdArg0 b) 5 0 ∧ (s.bankInfo n).uncorr ≠ 0 ∧ 32 < s.hlt.logical ∧ s.logicalOf n = some l ∧ s.hlt.waiting = [] ∧ s.hlt.retire = none ∧ s.committing = false) ∧
    (let s := rings; let r := 0; let b := cmd 0x71 3 0 0; Accepted r 0x71 b s ∧ ((s.bankInfo (nfield (cmdArg0 b) 5 0)).uncorr = 0 ∨ s.hlt.logical ≤ 32)) ∧
    (let s := linkUp rings 2; let r := 0; let b := cmd 0x72 2 0 0; let n := 2; Accepted r 0x72 b s ∧ n = nfield (cmdArg0 b) 5 0 ∧ n < s.nPorts ∧ nfield (cmdArg0 b) 8 8 = 0 ∧ s.flag .TIM_CTL_FRAME_EN = false ∧ (s.link (.port (.root n))).up = true) ∧
    (let s := rings; let r := 0; let b := cmd 0x72 0x102 0 0; let n := 2; Accepted r 0x72 b s ∧ n = nfield (cmdArg0 b) 5 0 ∧ n < s.nPorts ∧ nfield (cmdArg0 b) 8 8 = 1 ∧ s.flag .TIM_CTL_FRAME_EN = false ∧ s.portState (.root n) = 0) ∧
    (let s := rings.fset .TIM_CTL_FRAME_EN 1; let r := 0; let b := cmd 0x72 2 0 0; let n := 2; Accepted r 0x72 b s ∧ n = nfield (cmdArg0 b) 5 0 ∧ n < s.nPorts ∧ s.flag .TIM_CTL_FRAME_EN = true) := by
  repeat' first | decide +kernel | exact accepted_of (by decide +kernel) | constructor

/-- States and operands that meet the hypotheses of each clause of `Obligations.HealthRecordsAreWritten`. -/
theorem witness_HealthRecordsAreWritten :
    (let s := rings; let r := 0; let b := cmd 0x70 0 0 4096; Accepted r 0x70 b s) := by
  repeat' first | decide +kernel | exact accepted_of (by decide +kernel) | constructor

/-- States and operands that meet the hypotheses of each clause of `Obligations.FirmwareUpdatesAreStagedAndCommitted`. -/
theorem witness_FirmwareUpdatesAreStagedAndCommitted :
    (let s := rings; let r := 0; let b := cmd 0x74 4096 1024 0; Accepted r 0x74 b s ∧ s.hlt.staging = none ∧ s.audit.held.length ≠ 256) ∧
    (let s := staging; let r := 0; let b := cmd 0x74 4096 1024 0; Accepted r 0x74 b s ∧ s.hlt.staging.isSome = true) ∧
    (let s := staging; let len := 512; let x := slotIn; let r := 0; let i := 3; let slot := 1; let c := (⟨0, 3, none, 0x74, cmd 0x74 4096 1024 0, none, 0, 0, 0, ⟨[]⟩, [], []⟩ : CmdRec); s.hlt.staging = some ((r, i), slot) ∧ s.cmd? r i = some c ∧ c.op = 0x74 ∧ 0 < len ∧ len ≤ 1048064 ∧ 512 + len ≤ nfield (cmdArg1 c.bytes) 31 0 ∧ x.valid = true ∧ nfield (s.fget .SEC_STS_REVOKED) x.keySlot x.keySlot = 0 ∧ s.fget .SEC_STS_FLOOR ≤ x.svn) ∧
    (let s := staging; let len := 512; let x := { slotIn with valid := false }; let r := 0; let i := 3; let slot := 1; let c := (⟨0, 3, none, 0x74, cmd 0x74 4096 1024 0, none, 0, 0, 0, ⟨[]⟩, [], []⟩ : CmdRec); s.hlt.staging = some ((r, i), slot) ∧ s.cmd? r i = some c ∧ c.op = 0x74 ∧ 0 < len ∧ len ≤ 1048064 ∧ 512 + len ≤ nfield (cmdArg1 c.bytes) 31 0 ∧ x.valid = false) ∧
    (let s := staging; let r := 0; let i := 3; let slot := 1; let c := (⟨0, 3, none, 0x74, cmd 0x74 4096 1024 0, none, 0, 0, 0, ⟨[]⟩, [], []⟩ : CmdRec); s.hlt.staging = some ((r, i), slot) ∧ s.cmd? r i = some c ∧ c.op = 0x74) ∧
    (let s := { rings with hlt := { rdy.hlt with staged := some 1 } }; let r := 0; let b := cmd 0x75 1 0 0; let slot := 1; Accepted r 0x75 b s ∧ s.hlt.staging = none ∧ s.audit.held.length ≠ 256 ∧ s.hlt.staged = some slot) ∧
    (let s := rings; let r := 0; let b := cmd 0x75 1 0 0; Accepted r 0x75 b s ∧ s.hlt.staging = none ∧ s.audit.held.length ≠ 256 ∧ s.hlt.staged = none) ∧
    (let s := (rings.fset .HLT_START_TRIAL 1).fset .SEC_STS_SVN 5; let r := 0; let b := cmd 0x76 1 0 0; let n := 5; Accepted r 0x76 b s ∧ s.hlt.staging = none ∧ s.audit.held.length ≠ 256 ∧ s.flag .HLT_START_TRIAL = true ∧ n = (if nfield (cmdArg0 b) 0 0 = 1 then max (s.fget .SEC_STS_FLOOR) (s.fget .SEC_STS_SVN) else s.fget .SEC_STS_FLOOR)) ∧
    (let s := rings; let r := 0; let b := cmd 0x76 1 0 0; Accepted r 0x76 b s ∧ s.hlt.staging = none ∧ s.audit.held.length ≠ 256 ∧ s.flag .HLT_START_TRIAL = false) ∧
    (let s := rings; let r := 0; let b := cmd 0x77 0 0 0; let x := FwSlot.init; Accepted r 0x77 b s ∧ s.hlt.staging = none ∧ x = Tbl.get FwSlot.init s.hlt.slots (s.fget .HLT_START_SLOT)) := by
  repeat' first | decide +kernel | exact accepted_of (by decide +kernel) | constructor

/-- States and operands that meet the hypotheses of each clause of `Obligations.ZeroizationAndDebug`. -/
theorem witness_ZeroizationAndDebug :
    (let s := rings; let r := 0; let b := cmd 0x7C 0x7A65 0 0; Accepted r 0x7C b s ∧ (cmdArg0 b ≠ 0x7A65 ∨ cmdArg1 b ≠ 2 ^ 64 - 1 - 0x7A65)) ∧
    (let s := rings; let r := 0; let b := cmd 0x7C 0x7A65 (2 ^ 64 - 1 - 0x7A65) 0; let i := startIn; let o := otpIn; Ordered s ∧ Accepted r 0x7C b s ∧ StartPasses i o s ∧ cmdArg0 b = 0x7A65 ∧ cmdArg1 b = 2 ^ 64 - 1 - 0x7A65) ∧
    (let s := (rdy.wr .SEC_DBG_ALLOW 0 1).wr .SEC_DBG_ALLOW_N 0 0xFFFFFFFE; let level := 1; s.audit.held.length < 255 ∧ s.flag .SEC_STS_DBG_LOCKED = false ∧ s.debugAllowed level = true) ∧
    (let s := { rdy with hlt := { rdy.hlt with refused := 2 } }; let level := 1; let key := true; let sig := false; s.audit.held.length < 255 ∧ (key = false ∨ sig = false ∨ s.flag .SEC_STS_DBG_LOCKED = true ∨ s.debugAllowed level = false)) ∧
    (let s := rdy.fset .SEC_STS_DBG_LEVEL 2; let v := 1; min 2 (v % 4) < s.fget .SEC_STS_DBG_LEVEL) ∧
    (let s := rdy.fset .SEC_STS_DBG_LEVEL 1; let v := 3; s.fget .SEC_STS_DBG_LEVEL ≤ min 2 (v % 4)) := by
  repeat' first | decide +kernel | exact accepted_of (by decide +kernel) | (unfold Ordered; decide +kernel) | (unfold StartPasses; decide +kernel) | constructor

/-- States and operands that meet the hypotheses of each clause of `Obligations.RegisterWritesAct`. -/
theorem witness_RegisterWritesAct :
    (let s := rdy; let ofs := 0x1040; let r := Reg.TIM_DISC; let i := 0; let k := 0; let m := (0xFF : DWord); ofs % 4 = 0 ∧ regAt 0 ofs = some (r, i, k) ∧ r ∈ plainRegs ∧ s.accessOpen 0 ofs = true ∧ s.absentOfs ofs = false ∧ inAlias ofs = false ∧ m = BitVec.ofNat 64 ((2 ^ 32 - 1) * 2 ^ (32 * k)) &&& BitVec.ofNat 64 r.info.rw) ∧
    (let s := rdy; let ofs := 0x1040; let be := 14; ofs % 4 = 0 ∧ s.accessOpen 0 ofs = true ∧ s.exempt 0 ofs = false ∧ 0 < be ∧ be < 15 ∧ s.flag .GCTL_ACCESS_ERR_VALID = false) ∧
    (let s := rdy.fset .GCTL_ACCESS_ERR_VALID 1; let ofs := 0x1040; let be := 1; ofs % 4 = 0 ∧ s.accessOpen 0 ofs = true ∧ s.exempt 0 ofs = false ∧ 0 < be ∧ be < 15 ∧ s.flag .GCTL_ACCESS_ERR_VALID = true) ∧
    (let s := rdy; let ofs := 0x7FFFC; ofs % 4 = 0 ∧ s.accessOpen 0 ofs = true ∧ s.unmapped 0 ofs = true ∧ s.flag .GCTL_ACCESS_ERR_VALID = false) ∧
    (let s := State.reset; let bar := 0; let ofs := 0x1040; s.accessOpen bar (ofs / 4 * 4) = false) ∧
    (let s := rdy; let ofs := 0xA080C; let w := 0x1040; let b := 3; let r := Reg.TIM_DISC; let i := 0; let k := 0; let n := 3; ofs % 4 = 0 ∧ inAlias ofs = true ∧ aliased 0 ofs = (w, b) ∧ regAt 0 w = some (r, i, k) ∧ r ∈ plainRegs ∧ s.accessOpen 0 ofs = true ∧ s.absentOfs w = false ∧ n = 32 * k + b ∧ nfield r.info.rw n n = 1) :=
  by decide +kernel

/-- States and operands that meet the hypotheses of each clause of `Obligations.TheIndirectPairActs`. -/
theorem witness_TheIndirectPairActs :
    (let s := (rdy.fset .IND_ADDR_DOMAIN 1).fset .IND_ADDR_INC 1; s.ready = true ∧ s.flag .IND_ADDR_BUSY = false ∧ s.indWord.isSome = true) ∧
    (let s := rdy; s.ready = true ∧ s.flag .IND_ADDR_BUSY = false) ∧
    (let s := rdy.fset .IND_ADDR_BUSY 1; s.ready = true ∧ s.flag .IND_ADDR_BUSY = true ∧ s.flag .GCTL_ACCESS_ERR_VALID = false) ∧
    (let s := rdy; let be := 14; s.ready = true ∧ 0 < be ∧ be < 15 ∧ s.flag .GCTL_ACCESS_ERR_VALID = false) ∧
    (let s := { ((rdy.fset .IND_ADDR_DOMAIN 1).fset .IND_ADDR_BUSY 1) with ind := some 7 }; let d := 7; let r := (s.indWord.getD (.TIM_DISC, 0)).1; let n := (s.indWord.getD (.TIM_DISC, 0)).2; let m := BitVec.ofNat 64 (2 ^ 32 - 1) &&& BitVec.ofNat 64 r.info.rw; s.flag .IND_ADDR_BUSY = true ∧ s.ind = some d ∧ s.indWord = some (r, n) ∧ n < s.nPorts ∧ m = BitVec.ofNat 64 (2 ^ 32 - 1) &&& BitVec.ofNat 64 r.info.rw) ∧
    (let s := rdy.fset .IND_ADDR_BUSY 1; s.flag .IND_ADDR_BUSY = true ∧ s.ind = none) ∧
    (let s := rdy; s.flag .IND_ADDR_BUSY = false) :=
  by decide +kernel

/-- States and operands that meet the hypotheses of each clause of `Obligations.StepRunsFrontCommand`. -/
theorem witness_StepRunsFrontCommand :
    (let s := { rdy with pending := [.ppsInLost, .refInValid] }; let c := Instr.ppsInLost; let rest := [Instr.refInValid]; s.pending = c :: rest) ∧
    (let s := rdy; s.pending = []) :=
  by decide +kernel

/-- States and operands that meet the hypotheses of each clause of `Obligations.StepsKeepTheInvariant`. -/
theorem witness_StepsKeepTheInvariant :
    (let s := { rdy with pending := [.ppsInLost] }; let t := State.after s (step s); State.Inv s ∧ Steps s t) ∧
    (let s := { rdy with pending := [.ppsInLost] }; let t := State.after s (step s); Ordered s ∧ Steps s t) := by
  repeat' first | decide +kernel | exact ⟨by decide +kernel, by unfold RegTab; decide +kernel⟩ | exact rfl | (unfold Ordered; decide +kernel) | constructor

end Sys2Proof.Tests
end

