-- ==== Sys2Proof/Proofs/Ordered.lean ====
section
/-! The register file stays in order: for each function of the machine, that it leaves the order of the register file as it is (`Ordered`,
Frame.lean), and from that the invariant of O58 and O59. Registers are written by `Tbl.put` alone, which adds at most one number to those listed:
it neither orders a table nor takes it out of order (`Tbl.rising_put`), so the laws are equivalences, and `simp` follows a meaning from the state it
answers back to the state it began with. Only the starts filter the register file (`State.startBase`), which can put a state in order that was not:
their laws, and those of the functions that start, say one direction. A law takes a choice apart (`ordered_ite_iff`, `split`) and follows the calls
of each branch by their laws. -/

namespace Sys2Proof

/-- The numbers of a table rise strictly: each is listed once. -/
def Tbl.Rising {α : Type} (t : Tbl α) : Prop := t.Pairwise fun a b => a.1 < b.1

theorem Tbl.rising_nil {α : Type} : Tbl.Rising ([] : Tbl α) := List.Pairwise.nil

theorem Tbl.rising_cons {α : Type} {e : Nat × α} {t : Tbl α} : Tbl.Rising (e :: t) ↔ (∀ x ∈ t, e.1 < x.1) ∧ Tbl.Rising t :=
  List.pairwise_cons

/-- The numbers of a table with one put in: the one put in, and those that were listed. -/
theorem Tbl.exists_mem_put {α : Type} (t : Tbl α) (k : Nat) (v : α) (n : Nat) :
    (∃ x ∈ Tbl.put t k v, x.1 = n) ↔ n = k ∨ ∃ x ∈ t, x.1 = n := by
  induction t with
  | nil => simp [Tbl.put, eq_comm]
  | cons e r ih =>
    simp only [Tbl.put]
    split
    · subst_vars; simp [eq_comm]
    · split
      · simp [eq_comm]
      · simp only [List.mem_cons, exists_eq_or_imp, ih]
        tauto

theorem Tbl.forall_lt_put {α : Type} (t : Tbl α) (k : Nat) (v : α) (n : Nat) :
    (∀ x ∈ Tbl.put t k v, n < x.1) ↔ n < k ∧ ∀ x ∈ t, n < x.1 := by
  have h := Tbl.exists_mem_put t k v
  constructor
  · intro a
    refine ⟨?_, fun x hx => ?_⟩
    · obtain ⟨y, hy, e⟩ := (h k).2 (.inl rfl)
      exact e ▸ a y hy
    · obtain ⟨y, hy, e⟩ := (h x.1).2 (.inr ⟨x, hx, rfl⟩)
      exact e ▸ a y hy
  · rintro ⟨hk, a⟩ x hx
    rcases (h x.1).1 ⟨x, hx, rfl⟩ with e | ⟨y, hy, e⟩
    · exact e ▸ hk
    · exact e ▸ a y hy

/-- A value put in neither orders a table nor takes it out of order. -/
@[simp] theorem Tbl.rising_put {α : Type} (t : Tbl α) (k : Nat) (v : α) : Tbl.Rising (Tbl.put t k v) ↔ Tbl.Rising t := by
  induction t with
  | nil => simp [Tbl.put, Tbl.rising_cons, Tbl.rising_nil]
  | cons e r ih =>
    simp only [Tbl.put]
    split
    case isTrue h => simp [Tbl.rising_cons, h]
    case isFalse h =>
      split
      case isTrue hk =>
        simp only [Tbl.rising_cons, List.mem_cons, forall_eq_or_imp, and_iff_right_iff_imp]
        exact fun a => ⟨hk, fun x hx => hk.trans (a.1 x hx)⟩
      case isFalse hk =>
        rw [Tbl.rising_cons, Tbl.rising_cons, ih, Tbl.forall_lt_put]
        simp only [and_congr_left_iff, and_iff_right_iff_imp]
        intros; omega

/-- Values put in one after the other, each made of an entry of a list. -/
@[simp] theorem Tbl.rising_foldl_put {α β : Type} (l : List β) (k : β → Nat) (v : β → α) (t : Tbl α) :
    Tbl.Rising (l.foldl (fun t x => Tbl.put t (k x) (v x)) t) ↔ Tbl.Rising t := by
  induction l generalizing t with
  | nil => rfl
  | cons x r ih => exact (ih _).trans (Tbl.rising_put _ _ _)

theorem Tbl.Rising.filter {α : Type} {t : Tbl α} (h : Tbl.Rising t) (p : Nat × α → Bool) : Tbl.Rising (t.filter p) :=
  List.Pairwise.filter p h

end Sys2Proof

namespace Sys2Proof.Machine

/-- An outcome is a next state whose register file is in order. -/
def OrderedNext (o : Host.Outcome State Fault Refusal) : Prop := ∃ t, o = .next t ∧ Ordered t

variable {x : State}

@[simp] theorem rising_regs : Tbl.Rising x.regs ↔ Ordered x := Iff.rfl

/-- Whether a state is in order is a matter of its register file alone. -/
@[simp] theorem ordered_mk (vpending : List Instr) (vregs : Tbl DWord) (vout : List Output) (vfree : Nat) (vtim : TimeBase) (vpol : Policy)
    (vports : Tbl Port) (vlinks : Tbl LinkEnd) (vside : Sideband) (vdevs : Tbl Device) (vctxs : Tbl CtxSlot) (vcmgr : CtxMgr) (vtxns : List Txn)
    (vrings : Tbl Ring) (ventries : List Entry) (vcmds : List CmdRec) (vsched : Sched) (vdeal : Dealer) (vslices : Tbl Slice) (vicu : Icu)
    (vpool : List Host.Cell) (vpwr : Power) (vtwin : Twin) (vsmp : Sample) (vaudit : Audit) (vmov : Mover) (vhlt : Health) (vaer : Aer)
    (vind : Option Nat) :
    Ordered (State.mk vpending vout vfree vregs vtim vpol vports vlinks vside vdevs vctxs vcmgr vtxns vrings ventries
      vcmds vsched vdeal vslices vicu vpool vpwr vtwin vsmp vaudit vmov vhlt vaer vind) ↔ Tbl.Rising vregs := Iff.rfl

@[simp] theorem orderedNext_next : OrderedNext (.next x) ↔ Ordered x := by simp [OrderedNext]

@[simp] theorem ordered_ite (c : Prop) [Decidable c] (a b : State) : Ordered (if c then a else b) ↔ if c then Ordered a else Ordered b := by
  split <;> rfl

@[simp] theorem orderedNext_ite (c : Prop) [Decidable c] (a b : Host.Outcome State Fault Refusal) :
    OrderedNext (if c then a else b) ↔ if c then OrderedNext a else OrderedNext b := by
  split <;> rfl

@[simp] theorem ordered_foldl {α : Type} {f : State → α → State} (l : List α) (hf : ∀ y a, Ordered (f y a) ↔ Ordered y) :
    Ordered (l.foldl f x) ↔ Ordered x := by
  induction l generalizing x with
  | nil => rfl
  | cons a r ih => exact ih.trans (hf x a)

theorem ordered_foldl_fst {α β : Type} {f : State × β → α → State × β} (l : List α) {w : State × β}
    (hf : ∀ v a, Ordered (f v a).1 ↔ Ordered v.1) : Ordered (l.foldl f w).1 ↔ Ordered w.1 := by
  induction l generalizing w with
  | nil => rfl
  | cons a r ih => exact ih.trans (hf w a)

@[simp] theorem ordered_foldr {α : Type} {f : α → State → State} (l : List α) (hf : ∀ a y, Ordered (f a y) ↔ Ordered y) :
    Ordered (l.foldr f x) ↔ Ordered x := by
  induction l with
  | nil => rfl
  | cons a r ih => exact (hf a _).trans ih

/-- Both branches of a choice are in order just where `p` holds, and so is the choice. -/
theorem ordered_ite_iff {c : Prop} [Decidable c] {a b : State} {p : Prop} (ha : Ordered a ↔ p) (hb : Ordered b ↔ p) :
    Ordered (if c then a else b) ↔ p := by
  split <;> assumption

theorem orderedNext_ite_iff {c : Prop} [Decidable c] {a b : Host.Outcome State Fault Refusal} {p : Prop} (ha : OrderedNext a ↔ p)
    (hb : OrderedNext b ↔ p) : OrderedNext (if c then a else b) ↔ p := by
  split <;> assumption

theorem Ordered.congr {y : State} (h : Ordered x) (e : y.regs = x.regs) : Ordered y := by
  unfold Ordered
  rw [e]
  exact h

theorem ordered_of_ite {c : Prop} [Decidable c] {a b : State} (ha : Ordered a) (hb : Ordered b) : Ordered (if c then a else b) := by
  split <;> assumption

/-! ### Machine/Ops.lean -/

@[simp] theorem State.wr_ordered (r i v) : Ordered (State.wr x r i v) ↔ Ordered x := by
  unfold State.wr
  simp

@[simp] theorem State.fsetN_ordered (f i v) : Ordered (State.fsetN x f i v) ↔ Ordered x :=
  wr_ordered ..

@[simp] theorem State.fset_ordered (f v) : Ordered (State.fset x f v) ↔ Ordered x :=
  fsetN_ordered ..

@[simp] theorem State.countN_ordered (f i k) : Ordered (State.countN x f i k) ↔ Ordered x :=
  fsetN_ordered ..

@[simp] theorem State.count_ordered (f) : Ordered (State.count x f) ↔ Ordered x :=
  countN_ordered ..

@[simp] theorem State.raiseN_ordered (f i) : Ordered (State.raiseN x f i) ↔ Ordered x :=
  fsetN_ordered ..

@[simp] theorem State.raise_ordered (f) : Ordered (State.raise x f) ↔ Ordered x :=
  raiseN_ordered ..

@[simp] theorem State.emit_ordered (o) : Ordered (State.emit x o) ↔ Ordered x :=
  Iff.rfl

@[simp] theorem State.emits_ordered (os) : Ordered (State.emits x os) ↔ Ordered x :=
  Iff.rfl

@[simp] theorem State.draw_ordered : Ordered (State.draw x) ↔ Ordered x :=
  Iff.rfl

@[simp] theorem State.answer_ordered (w) : Ordered (State.answer x w) ↔ Ordered x :=
  emit_ordered ..

@[simp] theorem State.clearingRead_ordered (r sh i both) : Ordered (State.clearingRead x r sh i both) ↔ Ordered x := by
  unfold State.clearingRead
  simp

@[simp] theorem State.whenReady_ordered (o) (ho : OrderedNext o ↔ Ordered x) : OrderedNext (State.whenReady x o) ↔ Ordered x := by
  unfold State.whenReady
  repeat' first | with_reducible apply orderedNext_ite_iff | simp [ho]

@[simp] theorem State.readReady_ordered (o) (ho : OrderedNext o ↔ Ordered x) : OrderedNext (State.readReady x o) ↔ Ordered x := by
  unfold State.readReady
  repeat' first | with_reducible apply orderedNext_ite_iff | simp [ho]

@[simp] theorem State.onPort_ordered (p f) : Ordered (State.onPort x p f) ↔ Ordered x :=
  Iff.rfl

@[simp] theorem State.onLink_ordered (l f) : Ordered (State.onLink x l f) ↔ Ordered x :=
  Iff.rfl

@[simp] theorem State.onDev_ordered (d f) : Ordered (State.onDev x d f) ↔ Ordered x :=
  Iff.rfl

@[simp] theorem State.onRing_ordered (r f) : Ordered (State.onRing x r f) ↔ Ordered x :=
  Iff.rfl

@[simp] theorem State.onSlice_ordered (n f) : Ordered (State.onSlice x n f) ↔ Ordered x :=
  Iff.rfl

@[simp] theorem State.onVector_ordered (e f) : Ordered (State.onVector x e f) ↔ Ordered x :=
  Iff.rfl

@[simp] theorem State.onCtx_ordered (eph f) : Ordered (State.onCtx x eph f) ↔ Ordered x := by
  unfold State.onCtx
  split <;> simp

@[simp] theorem State.onTim_ordered (f) : Ordered (State.onTim x f) ↔ Ordered x :=
  Iff.rfl

@[simp] theorem State.onPol_ordered (f) : Ordered (State.onPol x f) ↔ Ordered x :=
  Iff.rfl

@[simp] theorem State.onSched_ordered (f) : Ordered (State.onSched x f) ↔ Ordered x :=
  Iff.rfl

@[simp] theorem State.onDeal_ordered (f) : Ordered (State.onDeal x f) ↔ Ordered x :=
  Iff.rfl

@[simp] theorem State.onHlt_ordered (f) : Ordered (State.onHlt x f) ↔ Ordered x :=
  Iff.rfl

@[simp] theorem State.onIcu_ordered (f) : Ordered (State.onIcu x f) ↔ Ordered x :=
  Iff.rfl

@[simp] theorem State.onCmgr_ordered (f) : Ordered (State.onCmgr x f) ↔ Ordered x :=
  Iff.rfl

@[simp] theorem State.at_ordered (t) : Ordered (State.at_ x t) ↔ Ordered x :=
  onTim_ordered ..

@[simp] theorem State.vecDue_ordered (e) : Ordered (State.vecDue x e) ↔ Ordered x := by
  unfold State.vecDue
  simp only [ordered_ite, onVector_ordered, emit_ordered, ite_self]

@[simp] theorem State.vecLapse_ordered (e) : Ordered (State.vecLapse x e) ↔ Ordered x := by
  unfold State.vecLapse
  simp

@[simp] theorem State.idleHint_ordered (e) : Ordered (State.idleHint x e) ↔ Ordered x := by
  unfold State.idleHint
  simp

@[simp] theorem State.vecRequest_ordered (e) : Ordered (State.vecRequest x e) ↔ Ordered x := by
  unfold State.vecRequest
  simp only [ordered_ite, vecDue_ordered, onVector_ordered, ite_self, count_ordered]

@[simp] theorem State.vecRequestMgr_ordered (e) : Ordered (State.vecRequestMgr x e) ↔ Ordered x := by
  unfold State.vecRequestMgr
  simp

@[simp] theorem State.ringRequest_ordered (r) : Ordered (State.ringRequest x r) ↔ Ordered x := by
  unfold State.ringRequest
  (repeat' first | with_reducible apply ordered_ite_iff | split) <;> simp

@[simp] theorem State.onMov_ordered (f) : Ordered (State.onMov x f) ↔ Ordered x :=
  Iff.rfl

@[simp] theorem State.onChan_ordered (n f) : Ordered (State.onChan x n f) ↔ Ordered x :=
  onMov_ordered ..

@[simp] theorem State.chanTo_ordered (n st) : Ordered (State.chanTo x n st) ↔ Ordered x :=
  fsetN_ordered ..

@[simp] theorem State.giveCredit_ordered (n) : Ordered (State.giveCredit x n) ↔ Ordered x := by
  unfold State.giveCredit
  simp

@[simp] theorem State.engineDone_ordered (n) : Ordered (State.engineDone x n) ↔ Ordered x := by
  unfold State.engineDone
  simp

@[simp] theorem State.engineEnd_ordered (w k) : Ordered (State.engineEnd x w k) ↔ Ordered x := by
  unfold State.engineEnd
  simp

@[simp] theorem State.ringError_ordered (r reason) : Ordered (State.ringError x r reason) ↔ Ordered x :=
  onRing_ordered ..

@[simp] theorem State.writeRecord_ordered (r b) : Ordered (State.writeRecord x r b) ↔ Ordered x :=
  (ringRequest_ordered ..).trans ((engineDone_ordered ..).trans ((onRing_ordered ..).trans (emits_ordered ..)))

@[simp] theorem State.keepRecord_ordered (r b) : Ordered (State.keepRecord x r b) ↔ Ordered x :=
  onRing_ordered ..

@[simp] theorem State.geoFail_ordered (r) : Ordered (State.geoFail x r) ↔ Ordered x := by
  unfold State.geoFail
  simp

@[simp] theorem State.putRecord_ordered (r b) : Ordered (State.putRecord x r b) ↔ Ordered x := by
  unfold State.putRecord
  simp

@[simp] theorem State.eventRecord_ordered (r b) : Ordered (State.eventRecord x r b) ↔ Ordered x := by
  unfold State.eventRecord
  simp

@[simp] theorem State.flushKept_ordered (r n) : Ordered (State.flushKept x r n) ↔ Ordered x := by
  fun_induction State.flushKept x r n <;> simp_all

@[simp] theorem State.releaseKept_ordered (r t n) : Ordered (State.releaseKept x r t n) ↔ Ordered x := by
  fun_induction State.releaseKept x r t n <;> simp_all

@[simp] theorem State.ringRoom_ordered (r) : Ordered (State.ringRoom x r) ↔ Ordered x := by
  unfold State.ringRoom
  simp only [ordered_ite, putRecord_ordered, onRing_ordered, flushKept_ordered, ite_self]

@[simp] theorem State.event_ordered (r typ status about info0 info1) : Ordered (State.event x r typ status about info0 info1) ↔ Ordered x :=
  eventRecord_ordered ..

@[simp] theorem State.event1_ordered (typ status about info0 info1) : Ordered (State.event1 x typ status about info0 info1) ↔ Ordered x :=
  event_ordered ..

@[simp] theorem State.integrity_ordered (obj info ring slice eph) : Ordered (State.integrity x obj info ring slice eph) ↔ Ordered x :=
  event1_ordered ..

@[simp] theorem State.ringErrorEvent_ordered (r reason idx info1) : Ordered (State.ringErrorEvent x r reason idx info1) ↔ Ordered x := by
  unfold State.ringErrorEvent
  simp

@[simp] theorem State.failRing_ordered (r reason idx info1) : Ordered (State.failRing x r reason idx info1) ↔ Ordered x := by
  unfold State.failRing
  simp

@[simp] theorem State.integrityReg_ordered (ofs) : Ordered (State.integrityReg x ofs) ↔ Ordered x :=
  integrity_ordered ..

@[simp] theorem State.accessError_ordered (kind bar be domain ofs) : Ordered (State.accessError x kind bar be domain ofs) ↔ Ordered x := by
  unfold State.accessError
  simp

@[simp] theorem State.narrowWrite_ordered (bar be ofs) : Ordered (State.narrowWrite x bar be ofs) ↔ Ordered x := by
  unfold State.narrowWrite
  simp

/-! ### Machine/IcuBase.lean -/

@[simp] theorem State.onSource_ordered (x_ f) : Ordered (State.onSource x x_ f) ↔ Ordered x :=
  onIcu_ordered ..

@[simp] theorem State.onCore_ordered (n f) : Ordered (State.onCore x n f) ↔ Ordered x :=
  onIcu_ordered ..

@[simp] theorem State.sourceRequest_ordered (x_) : Ordered (State.sourceRequest x x_) ↔ Ordered x := by
  unfold State.sourceRequest
  repeat' first
    | with_reducible apply ordered_ite_iff
    | simp only [vecRequest_ordered, vecRequestMgr_ordered, ordered_ite, onSource_ordered, ite_self]
    | split

@[simp] theorem State.setPend_ordered (x_) : Ordered (State.setPend x x_) ↔ Ordered x := by
  unfold State.setPend
  simp only [ordered_ite, sourceRequest_ordered, onSource_ordered, ite_self]

@[simp] theorem State.levelPend_ordered (x_) : Ordered (State.levelPend x x_) ↔ Ordered x := by
  unfold State.levelPend
  simp

@[simp] theorem State.lineReread_ordered (x_) : Ordered (State.lineReread x x_) ↔ Ordered x := by
  unfold State.lineReread
  simp

@[simp] theorem State.eventRead_ordered (r sh i both x_) : Ordered (State.eventRead x r sh i both x_) ↔ Ordered x :=
  (lineReread_ordered ..).trans (clearingRead_ordered ..)

@[simp] theorem State.offer_ordered (x_ n) : Ordered (State.offer x x_ n) ↔ Ordered x := by
  unfold State.offer
  simp

@[simp] theorem State.noteHeld_ordered (n) : Ordered (State.noteHeld x n) ↔ Ordered x := by
  unfold State.noteHeld
  simp only [ordered_ite, onCore_ordered, ite_self]

@[simp] theorem State.offerAll_ordered (n) : Ordered (State.offerAll x n) ↔ Ordered x := by
  fun_induction State.offerAll x n <;> simp_all

@[simp] theorem State.icuSettle_ordered : Ordered (State.icuSettle x) ↔ Ordered x := by
  unfold State.icuSettle
  simp

/-! ### Machine/TimeBase.lean -/

@[simp] theorem State.ppsFall_ordered (t) : Ordered (State.ppsFall x t) ↔ Ordered x := by
  unfold State.ppsFall
  repeat' first | with_reducible apply ordered_ite_iff | simp | split

@[simp] theorem State.ppsOutHold_ordered : Ordered (State.ppsOutHold x) ↔ Ordered x := by
  unfold State.ppsOutHold
  simp

@[simp] theorem State.ppsRise_ordered (t) : Ordered (State.ppsRise x t) ↔ Ordered x := by
  unfold State.ppsRise
  simp

@[simp] theorem State.ppsStep_ordered (d) : Ordered (State.ppsStep x d) ↔ Ordered x := by
  unfold State.ppsStep
  simp only [ordered_ite, ppsRise_ordered, onTim_ordered, ppsFall_ordered, ite_self]

@[simp] theorem State.retune_ordered : Ordered (State.retune x) ↔ Ordered x := by
  unfold State.retune
  repeat' first
    | with_reducible apply ordered_ite_iff
    | simp only [ppsOutHold_ordered, ordered_ite, fset_ordered, onTim_ordered, ite_self, raise_ordered]

@[simp] theorem State.loadEff_ordered : Ordered (State.loadEff x) ↔ Ordered x :=
  onTim_ordered ..

@[simp] theorem State.stepNow_ordered (d) : Ordered (State.stepNow x d) ↔ Ordered x :=
  (ppsStep_ordered ..).trans ((raise_ordered ..).trans ((fset_ordered ..).trans (onTim_ordered ..)))

@[simp] theorem State.slewOff_ordered (off) : Ordered (State.slewOff x off) ↔ Ordered x :=
  onTim_ordered ..

@[simp] theorem State.stepPend_ordered (d sec) : Ordered (State.stepPend x d sec) ↔ Ordered x := by
  unfold State.stepPend
  simp only [ordered_ite, onTim_ordered, raise_ordered, fset_ordered, ite_self]

@[simp] theorem State.stepFor_ordered (sub sec mismatch) : Ordered (State.stepFor x sub sec mismatch) ↔ Ordered x := by
  unfold State.stepFor
  simp only [ordered_ite, stepPend_ordered, slewOff_ordered, ite_self]

@[simp] theorem State.trackOld_ordered (sub sec) : Ordered (State.trackOld x sub sec) ↔ Ordered x := by
  unfold State.trackOld
  simp only [ordered_ite, slewOff_ordered, stepFor_ordered, ite_self]

@[simp] theorem State.correct_ordered (sub sec mismatch) : Ordered (State.correct x sub sec mismatch) ↔ Ordered x := by
  unfold State.correct
  simp only [ordered_ite, fset_ordered, onTim_ordered, slewOff_ordered, stepNow_ordered, ite_self, trackOld_ordered, stepFor_ordered]

@[simp] theorem State.errShow_ordered : Ordered (State.errShow x) ↔ Ordered x :=
  fset_ordered ..

@[simp] theorem State.lockCount_ordered (off) : Ordered (State.lockCount x off) ↔ Ordered x :=
  onTim_ordered ..

@[simp] theorem State.phaseMark_ordered (sec sub lab) : Ordered (State.phaseMark x sec sub lab) ↔ Ordered x := by
  unfold State.phaseMark
  repeat' first
    | with_reducible apply ordered_ite_iff
    | simp only [retune_ordered, errShow_ordered, lockCount_ordered, correct_ordered, onTim_ordered, fset_ordered, ordered_ite, raise_ordered,
        loadEff_ordered, ite_self]

@[simp] theorem execPpsInEdge_ordered (rising t) : OrderedNext (execPpsInEdge rising t x) ↔ Ordered x := by
  unfold execPpsInEdge
  repeat' first
    | with_reducible apply orderedNext_ite_iff
    | simp only [orderedNext_next, State.at_ordered, State.onTim_ordered, ordered_ite, ite_self, State.phaseMark_ordered, State.retune_ordered,
        State.fset_ordered]

@[simp] theorem execPpsInLost_ordered : OrderedNext (execPpsInLost x) ↔ Ordered x := by
  unfold execPpsInLost
  simp

@[simp] theorem execRefInLost_ordered : OrderedNext (execRefInLost x) ↔ Ordered x := by
  unfold execRefInLost
  simp

@[simp] theorem execRefInValid_ordered : OrderedNext (execRefInValid x) ↔ Ordered x :=
  orderedNext_next.trans (State.retune_ordered.trans (State.fset_ordered ..))

@[simp] theorem State.irigLost_ordered : Ordered (State.irigLost x) ↔ Ordered x := by
  unfold State.irigLost
  simp

@[simp] theorem execIrigFrameReceive_ordered (good year secOfYear) : OrderedNext (execIrigFrameReceive good year secOfYear x) ↔ Ordered x := by
  unfold execIrigFrameReceive
  simp

@[simp] theorem execIrigInLost_ordered : OrderedNext (execIrigInLost x) ↔ Ordered x :=
  orderedNext_next.trans State.irigLost_ordered

@[simp] theorem execIrigOnTimeMark_ordered (t) : OrderedNext (execIrigOnTimeMark t x) ↔ Ordered x := by
  unfold execIrigOnTimeMark
  simp

@[simp] theorem execPtmDialogueDone_ordered (ok hostSec hostNs loc) : OrderedNext (execPtmDialogueDone ok hostSec hostNs loc x) ↔ Ordered x := by
  unfold execPtmDialogueDone
  simp only [orderedNext_ite, orderedNext_next, State.phaseMark_ordered, State.retune_ordered, State.fset_ordered, State.onTim_ordered,
    State.at_ordered, ite_self, State.raise_ordered]

@[simp] theorem execErrEstGrowth_ordered : OrderedNext (execErrEstGrowth x) ↔ Ordered x := by
  unfold execErrEstGrowth
  simp

@[simp] theorem State.stepIfOff_ordered : Ordered (State.stepIfOff x) ↔ Ordered x := by
  unfold State.stepIfOff
  repeat' first | with_reducible apply ordered_ite_iff | simp | split

@[simp] theorem execStepGo_ordered (t) : OrderedNext (execStepGo t x) ↔ Ordered x := by
  unfold execStepGo
  simp

@[simp] theorem execFrameEnWrite_ordered (en) : OrderedNext (execFrameEnWrite en x) ↔ Ordered x := by
  unfold execFrameEnWrite
  simp

@[simp] theorem State.frateJudge_ordered : Ordered (State.frateJudge x) ↔ Ordered x := by
  unfold State.frateJudge
  simp

@[simp] theorem State.frateWritten_ordered : Ordered (State.frateWritten x) ↔ Ordered x :=
  (fset_ordered ..).trans (onTim_ordered ..)

@[simp] theorem State.timTick_ordered : Ordered (State.timTick x) ↔ Ordered x := by
  unfold State.timTick
  dsimp only
  repeat' first | with_reducible apply ordered_ite_iff | simp | split

@[simp] theorem execTimNowRead_ordered (w t) : OrderedNext (execTimNowRead w t x) ↔ Ordered x := by
  unfold execTimNowRead
  repeat' first | with_reducible apply orderedNext_ite_iff | simp | split

@[simp] theorem execTimFrameNoRead_ordered (w) : OrderedNext (execTimFrameNoRead w x) ↔ Ordered x := by
  unfold execTimFrameNoRead
  repeat' first | with_reducible apply orderedNext_ite_iff | simp | split

@[simp] theorem execTimPtmHostRead_ordered (w) : OrderedNext (execTimPtmHostRead w x) ↔ Ordered x := by
  unfold execTimPtmHostRead
  repeat' first | with_reducible apply orderedNext_ite_iff | simp | split

@[simp] theorem State.labelArm_ordered (t) : Ordered (State.labelArm x t) ↔ Ordered x :=
  (onTim_ordered ..).trans (at_ordered ..)

@[simp] theorem execTimLabelWrite_ordered (w data t be) : OrderedNext (execTimLabelWrite w data t be x) ↔ Ordered x := by
  unfold execTimLabelWrite
  split <;> simp

@[simp] theorem execTimEvtRead_ordered (both) : OrderedNext (execTimEvtRead both x) ↔ Ordered x := by
  unfold execTimEvtRead
  simp

/-! ### Machine/SampleBase.lean -/

@[simp] theorem State.onSmp_ordered (f) : Ordered (State.onSmp x f) ↔ Ordered x :=
  Iff.rfl

@[simp] theorem State.onGroup_ordered (g f) : Ordered (State.onGroup x g f) ↔ Ordered x := by
  unfold State.onGroup
  split <;> simp

@[simp] theorem State.onCoder_ordered (k f) : Ordered (State.onCoder x k f) ↔ Ordered x := by
  unfold State.onCoder
  split <;> simp

@[simp] theorem State.closeSpan_ordered (k gap detach) : Ordered (State.closeSpan x k gap detach) ↔ Ordered x := by
  unfold State.closeSpan
  (repeat' first | with_reducible apply ordered_ite_iff | split) <;> simp

@[simp] theorem State.pushRec_ordered (r) : Ordered (State.pushRec x r) ↔ Ordered x :=
  onSmp_ordered ..

@[simp] theorem State.pushBlock_ordered (b ring grp flags idx set) : Ordered (State.pushBlock x b ring grp flags idx set) ↔ Ordered x :=
  (onSmp_ordered ..).trans (pushRec_ordered ..)

@[simp] theorem State.emitSet_ordered (id g o forced) : Ordered (State.emitSet x id g o forced) ↔ Ordered x := by
  unfold State.emitSet
  repeat' first
    | with_reducible apply ordered_ite_iff
    | simp only [onGroup_ordered, ordered_ite, countN_ordered, fsetN_ordered, pushBlock_ordered, implies_true, ordered_foldl, pushRec_ordered,
        ite_self]

@[simp] theorem State.emitDue_ordered (id n) : Ordered (State.emitDue x id n) ↔ Ordered x := by
  fun_induction State.emitDue x id n <;> simp_all

@[simp] theorem State.emitSets_ordered (id) : Ordered (State.emitSets x id) ↔ Ordered x := by
  unfold State.emitSets
  split <;> simp

@[simp] theorem State.memberLeft_ordered (eph) : Ordered (State.memberLeft x eph) ↔ Ordered x := by
  unfold State.memberLeft
  simp

@[simp] theorem State.emitAll_ordered : Ordered (State.emitAll x) ↔ Ordered x := by
  unfold State.emitAll
  simp

@[simp] theorem State.coderStop_ordered (eph) : Ordered (State.coderStop x eph) ↔ Ordered x := by
  unfold State.coderStop
  simp

/-! ### Machine/Entries.lean -/

@[simp] theorem State.boundsBroken_ordered (n st) : Ordered (State.boundsBroken x n st) ↔ Ordered x := by
  unfold State.boundsBroken
  (repeat' first | with_reducible apply ordered_ite_iff | split) <;> simp

@[simp] theorem State.ctxFail_ordered (eph) : Ordered (State.ctxFail x eph) ↔ Ordered x := by
  unfold State.ctxFail
  repeat' first | with_reducible apply ordered_ite_iff | simp | split

@[simp] theorem State.ctxTouch_ordered (eph) : Ordered (State.ctxTouch x eph) ↔ Ordered x :=
  (onCmgr_ordered ..).trans (onCtx_ordered ..)

@[simp] theorem State.pocketPut_ordered (eph b) : Ordered (State.pocketPut x eph b) ↔ Ordered x := by
  unfold State.pocketPut
  split <;> simp

@[simp] theorem State.onPocket_ordered (eph f) : Ordered (State.onPocket x eph f) ↔ Ordered x := by
  unfold State.onPocket
  repeat' first | with_reducible apply ordered_ite_iff | simp | split

@[simp] theorem State.pocketFree_ordered (eph n) : Ordered (State.pocketFree x eph n) ↔ Ordered x :=
  onPocket_ordered ..

@[simp] theorem State.dirFail_ordered (st) : Ordered (State.dirFail x st) ↔ Ordered x := by
  unfold State.dirFail
  simp

@[simp] theorem State.fetchStart_ordered (eph) : Ordered (State.fetchStart x eph) ↔ Ordered x := by
  unfold State.fetchStart
  simp only [ordered_ite, onCmgr_ordered, count_ordered, ite_self]

@[simp] theorem State.endpointEvent_ordered (eph status) : Ordered (State.endpointEvent x eph status) ↔ Ordered x := by
  unfold State.endpointEvent
  (repeat' first | with_reducible apply ordered_ite_iff | split) <;> simp only [onCtx_ordered, event_ordered]

@[simp] theorem State.ctxMove_ordered (eph st) : Ordered (State.ctxMove x eph st) ↔ Ordered x := by
  unfold State.ctxMove
  simp

@[simp] theorem State.ctxChange_ordered (eph st status) : Ordered (State.ctxChange x eph st status) ↔ Ordered x := by
  unfold State.ctxChange
  repeat' first | with_reducible apply ordered_ite_iff | simp | split

@[simp] theorem State.ctxHalt_ordered (eph status) : Ordered (State.ctxHalt x eph status) ↔ Ordered x := by
  unfold State.ctxHalt
  repeat' first | with_reducible apply ordered_ite_iff | simp | split

@[simp] theorem State.trace_ordered (kind frame port sl eph cls status ring idx a b c) :
    Ordered (State.trace x kind frame port sl eph cls status ring idx a b c) ↔ Ordered x := by
  unfold State.trace
  simp only [ordered_ite, putRecord_ordered, onDeal_ordered, ite_self]

@[simp] theorem State.onEntry_ordered (id f) : Ordered (State.onEntry x id f) ↔ Ordered x :=
  Iff.rfl

@[simp] theorem State.traceEntry_ordered (kind e status a b c) : Ordered (State.traceEntry x kind e status a b c) ↔ Ordered x :=
  trace_ordered ..

@[simp] theorem State.unlist_ordered (id) : Ordered (State.unlist x id) ↔ Ordered x :=
  onDeal_ordered ..

@[simp] theorem State.abandon_ordered (p) : Ordered (State.abandon x p) ↔ Ordered x :=
  Iff.rfl

@[simp] theorem State.offHand_ordered (id) : Ordered (State.offHand x id) ↔ Ordered x :=
  onDeal_ordered ..

@[simp] theorem State.leavePocket_ordered (e) : Ordered (State.leavePocket x e) ↔ Ordered x := by
  unfold State.leavePocket
  simp

@[simp] theorem State.finish_ordered (id status) : Ordered (State.finish x id status) ↔ Ordered x := by
  unfold State.finish
  repeat' first
    | with_reducible apply ordered_ite_iff
    | simp only [abandon_ordered, offHand_ordered, unlist_ordered, onEntry_ordered, leavePocket_ordered]
    | split

@[simp] theorem State.finishWhere_ordered (p status) : Ordered (State.finishWhere x p status) ↔ Ordered x := by
  unfold State.finishWhere
  simp

@[simp] theorem State.load_ordered (id) : Ordered (State.load x id) ↔ Ordered x := by
  unfold State.load
  repeat' first | with_reducible apply ordered_ite_iff | simp only [onEntry_ordered, pocketPut_ordered] | split

@[simp] theorem State.enlist_ordered (e head why) : Ordered (State.enlist x e head why) ↔ Ordered x := by
  unfold State.enlist
  repeat' first | with_reducible apply ordered_ite_iff | simp | split

@[simp] theorem State.wantCtx_ordered (e) : Ordered (State.wantCtx x e) ↔ Ordered x := by
  unfold State.wantCtx
  simp only [ordered_ite, fetchStart_ordered, finish_ordered, dirFail_ordered, count_ordered, ite_self]

@[simp] theorem State.holdBack_ordered (e) : Ordered (State.holdBack x e) ↔ Ordered x := by
  unfold State.holdBack
  simp

@[simp] theorem State.judge_ordered (why id) : Ordered (State.judge x why id) ↔ Ordered x := by
  unfold State.judge
  (repeat' first | with_reducible apply ordered_ite_iff | split) <;> simp

@[simp] theorem State.refreshWaiting_ordered (why) : Ordered (State.refreshWaiting x why) ↔ Ordered x := by
  unfold State.refreshWaiting
  simp

@[simp] theorem State.eventTake1_ordered (eph) : Ordered (State.eventTake1 x eph) ↔ Ordered x := by
  unfold State.eventTake1
  (repeat' first | with_reducible apply ordered_ite_iff | split) <;> simp

@[simp] theorem State.refreshBy_ordered (why) : Ordered (State.refreshBy x why) ↔ Ordered x := by
  unfold State.refreshBy
  simp

@[simp] theorem State.refresh_ordered (why) : Ordered (State.refresh x why) ↔ Ordered x :=
  refreshBy_ordered ..

@[simp] theorem State.pocketDrop_ordered (eph) : Ordered (State.pocketDrop x eph) ↔ Ordered x :=
  onCtx_ordered ..

@[simp] theorem State.ctxApply_ordered (eph v quiet) : Ordered (State.ctxApply x eph v quiet) ↔ Ordered x := by
  unfold State.ctxApply
  split <;> simp

@[simp] theorem State.ctxAll_ordered (v quiet) : Ordered (State.ctxAll x v quiet) ↔ Ordered x := by
  unfold State.ctxAll
  simp

@[simp] theorem State.busReset_ordered (port route depth) : Ordered (State.busReset x port route depth) ↔ Ordered x :=
  (refresh_ordered ..).trans ((ctxAll_ordered ..).trans ((finishWhere_ordered ..).trans (abandon_ordered ..)))

@[simp] theorem State.subtreeGone_ordered (port route depth quiet) : Ordered (State.subtreeGone x port route depth quiet) ↔ Ordered x :=
  (refresh_ordered ..).trans ((ctxAll_ordered ..).trans ((finishWhere_ordered ..).trans (abandon_ordered ..)))

/-! ### Machine/PowerBase.lean -/

@[simp] theorem State.onPwr_ordered (f) : Ordered (State.onPwr x f) ↔ Ordered x :=
  Iff.rfl

@[simp] theorem State.powerEvent_ordered (what id left target lat) : Ordered (State.powerEvent x what id left target lat) ↔ Ordered x := by
  unfold State.powerEvent
  simp

@[simp] theorem State.powerFlush_ordered : Ordered (State.powerFlush x) ↔ Ordered x := by
  unfold State.powerFlush
  simp

@[simp] theorem State.policyEvent_ordered (typ policy code object adv) : Ordered (State.policyEvent x typ policy code object adv) ↔ Ordered x :=
  event1_ordered ..

@[simp] theorem State.policyReport_ordered (policy code object) : Ordered (State.policyReport x policy code object) ↔ Ordered x :=
  policyEvent_ordered ..

@[simp] theorem State.policyAction_ordered (policy code object) : Ordered (State.policyAction x policy code object) ↔ Ordered x :=
  (fset_ordered ..).trans (policyReport_ordered ..)

@[simp] theorem State.policyRead_ordered : Ordered (State.policyRead x) ↔ Ordered x := by
  unfold State.policyRead
  simp

@[simp] theorem State.advise_ordered (policy code object) : Ordered (State.advise x policy code object) ↔ Ordered x :=
  (onPol_ordered ..).trans (policyEvent_ordered ..)

@[simp] theorem State.overtake_ordered (policy object) : Ordered (State.overtake x policy object) ↔ Ordered x :=
  onPol_ordered ..

@[simp] theorem State.rollback_ordered (k) : Ordered (State.rollback x k) ↔ Ordered x := by
  unfold State.rollback
  simp

@[simp] theorem State.lateRefusal_ordered (id) : Ordered (State.lateRefusal x id) ↔ Ordered x := by
  unfold State.lateRefusal
  repeat' first | with_reducible apply ordered_ite_iff | simp | split

@[simp] theorem State.startExit_ordered (id seen port) : Ordered (State.startExit x id seen port) ↔ Ordered x := by
  unfold State.startExit
  simp

@[simp] theorem State.wake_ordered (id seen port) : Ordered (State.wake x id seen port) ↔ Ordered x := by
  unfold State.wake
  repeat' first | with_reducible apply ordered_ite_iff | simp

@[simp] theorem State.treeWake_ordered (n) : Ordered (State.treeWake x n) ↔ Ordered x := by
  unfold State.treeWake
  simp

/-! ### Machine/Link.lean -/

@[simp] theorem State.putOn_ordered (l p) : Ordered (State.putOn x l p) ↔ Ordered x := by
  unfold State.putOn
  simp

@[simp] theorem State.launch_ordered (l t off ks) : Ordered (State.launch x l t off ks) ↔ Ordered x := by
  fun_induction State.launch x l t off ks <;> simp_all

@[simp] theorem State.sendOne_ordered (l p x_) : Ordered (State.sendOne x l p x_) ↔ Ordered x :=
  launch_ordered ..

@[simp] theorem State.push_ordered (l bytes base p) : Ordered (State.push x l bytes base p) ↔ Ordered x :=
  (onLink_ordered ..).trans (putOn_ordered ..)

@[simp] theorem State.departed_ordered (l p) : Ordered (State.departed x l p) ↔ Ordered x := by
  unfold State.departed
  split <;> simp

@[simp] theorem State.pushPkt_ordered (l p) : Ordered (State.pushPkt x l p) ↔ Ordered x :=
  (departed_ordered ..).trans ((push_ordered ..).trans (onLink_ordered ..))

@[simp] theorem State.drainQueue_ordered (l off n) : Ordered (State.drainQueue x l off n) ↔ Ordered x := by
  fun_induction State.drainQueue x l off n <;> simp_all

@[simp] theorem State.drainFrom_ordered (l off) : Ordered (State.drainFrom x l off) ↔ Ordered x :=
  drainQueue_ordered ..

@[simp] theorem State.drain_ordered (l) : Ordered (State.drain x l) ↔ Ordered x :=
  drainFrom_ordered ..

@[simp] theorem State.launchAll_ordered (l x_ off ks) : Ordered (State.launchAll x l x_ off ks) ↔ Ordered x :=
  (drainFrom_ordered ..).trans (launch_ordered ..)

@[simp] theorem State.sendPkts_ordered (l ps) : Ordered (State.sendPkts x l ps) ↔ Ordered x :=
  (drain_ordered ..).trans (onLink_ordered ..)

@[simp] theorem State.sendPkt_ordered (l p) : Ordered (State.sendPkt x l p) ↔ Ordered x :=
  sendPkts_ordered ..

@[simp] theorem State.sendFrame_ordered (l f base x_) : Ordered (State.sendFrame x l f base x_) ↔ Ordered x := by
  unfold State.sendFrame
  simp

@[simp] theorem State.release_ordered (l x_ off) : Ordered (State.release x l x_ off) ↔ Ordered x :=
  (launchAll_ordered ..).trans (onLink_ordered ..)

@[simp] theorem State.sendCtl_ordered (l typ seq arg frameNo) : Ordered (State.sendCtl x l typ seq arg frameNo) ↔ Ordered x :=
  sendOne_ordered ..

@[simp] theorem State.ackKept_ordered (l seq) : Ordered (State.ackKept x l seq) ↔ Ordered x := by
  unfold State.ackKept
  simp

@[simp] theorem State.dropReplay_ordered (l) : Ordered (State.dropReplay x l) ↔ Ordered x :=
  onLink_ordered ..

@[simp] theorem State.resend_ordered (l seq tTx) : Ordered (State.resend x l seq tTx) ↔ Ordered x :=
  (launchAll_ordered ..).trans (dropReplay_ordered ..)

@[simp] theorem State.resendAll_ordered (l tTx) : Ordered (State.resendAll x l tTx) ↔ Ordered x :=
  (launchAll_ordered ..).trans (dropReplay_ordered ..)

@[simp] theorem State.countReplay_ordered (l) : Ordered (State.countReplay x l) ↔ Ordered x := by
  unfold State.countReplay
  split <;> simp

@[simp] theorem State.replay_ordered (l seq tTx) : Ordered (State.replay x l seq tTx) ↔ Ordered x := by
  unfold State.replay
  simp

@[simp] theorem State.onDelay_ordered (d up f) : Ordered (State.onDelay x d up f) ↔ Ordered x :=
  onDev_ordered ..

@[simp] theorem State.sendUp_ordered (d p) : Ordered (State.sendUp x d p) ↔ Ordered x := by
  unfold State.sendUp
  split <;> simp

@[simp] theorem State.sendDelayReq_ordered (d up t1) : Ordered (State.sendDelayReq x d up t1) ↔ Ordered x := by
  unfold State.sendDelayReq
  simp

@[simp] theorem State.upFlush_ordered (d n) : Ordered (State.upFlush x d n) ↔ Ordered x := by
  fun_induction State.upFlush x d n <;> simp_all

@[simp] theorem State.onUpq_ordered (d f) : Ordered (State.onUpq x d f) ↔ Ordered x :=
  (upFlush_ordered ..).trans (onDev_ordered ..)

@[simp] theorem State.dropTicket_ordered (l) : Ordered (State.dropTicket x l) ↔ Ordered x := by
  unfold State.dropTicket
  repeat' first | with_reducible apply ordered_ite_iff | simp | split

@[simp] theorem State.sendCaps_ordered (l) : Ordered (State.sendCaps x l) ↔ Ordered x :=
  (onLink_ordered ..).trans (sendCtl_ordered ..)

@[simp] theorem State.endDown_ordered (l) : Ordered (State.endDown x l) ↔ Ordered x := by
  unfold State.endDown
  repeat' first | with_reducible apply ordered_ite_iff | simp | split

@[simp] theorem State.trainAt_ordered (l r) : Ordered (State.trainAt x l r) ↔ Ordered x :=
  (sendCaps_ordered ..).trans ((onLink_ordered ..).trans (endDown_ordered ..))

@[simp] theorem State.train_ordered (l) : Ordered (State.train x l) ↔ Ordered x :=
  trainAt_ordered ..

@[simp] theorem State.endFresh_ordered (l) : Ordered (State.endFresh x l) ↔ Ordered x :=
  (onLink_ordered ..).trans (dropTicket_ordered ..)

@[simp] theorem State.endUp_ordered (l peerSeq peerArg tTx) : Ordered (State.endUp x l peerSeq peerArg tTx) ↔ Ordered x := by
  unfold State.endUp
  simp

@[simp] theorem State.startCtl_ordered (l typ t) : Ordered (State.startCtl x l typ t) ↔ Ordered x := by
  unfold State.startCtl
  repeat' first | with_reducible apply ordered_ite_iff | simp | split

@[simp] theorem State.stopCtl_ordered (l typ) : Ordered (State.stopCtl x l typ) ↔ Ordered x :=
  onLink_ordered ..

@[simp] theorem State.echoTaken_ordered (l typ t) : Ordered (State.echoTaken x l typ t) ↔ Ordered x :=
  (onLink_ordered ..).trans (stopCtl_ordered ..)

@[simp] theorem State.echo_ordered (l typ t again) : Ordered (State.echo x l typ t again) ↔ Ordered x := by
  unfold State.echo
  simp

/-! ### Machine/TwinBase.lean -/

@[simp] theorem State.onTwin_ordered (f) : Ordered (State.onTwin x f) ↔ Ordered x :=
  Iff.rfl

@[simp] theorem State.onTree_ordered (n f) : Ordered (State.onTree x n f) ↔ Ordered x :=
  onTwin_ordered ..

@[simp] theorem State.twinDrain_ordered (n) : Ordered (State.twinDrain x n) ↔ Ordered x := by
  fun_induction State.twinDrain x n <;> simp_all

@[simp] theorem State.twinSend_ordered (kind payload) : Ordered (State.twinSend x kind payload) ↔ Ordered x := by
  unfold State.twinSend
  simp

@[simp] theorem State.twinEvent_ordered (what code port high) : Ordered (State.twinEvent x what code port high) ↔ Ordered x :=
  event1_ordered ..

@[simp] theorem State.mirrorSend_ordered (mkind eph toggle status time late data) :
    Ordered (State.mirrorSend x mkind eph toggle status time late data) ↔ Ordered x :=
  (onTwin_ordered ..).trans (twinSend_ordered ..)

@[simp] theorem State.mirrorIntent_ordered (eph toggle execAt data) : Ordered (State.mirrorIntent x eph toggle execAt data) ↔ Ordered x := by
  unfold State.mirrorIntent
  simp

@[simp] theorem State.mirrorDone_ordered (eph toggle status stamp late) : Ordered (State.mirrorDone x eph toggle status stamp late) ↔ Ordered x := by
  unfold State.mirrorDone
  simp

/-! ### Machine/Port.lean -/

@[simp] theorem State.sharedShown_ordered (n was) : Ordered (State.sharedShown x n was) ↔ Ordered x := by
  unfold State.sharedShown
  simp only [ordered_ite, ctxAll_ordered, ite_self]

@[simp] theorem State.putState_ordered (p st) : Ordered (State.putState x p st) ↔ Ordered x :=
  fsetN_ordered ..

@[simp] theorem State.change_ordered (p bits) : Ordered (State.change x p bits) ↔ Ordered x := by
  unfold State.change
  (repeat' first | with_reducible apply ordered_ite_iff | split) <;> simp

@[simp] theorem State.refuseCmd_ordered (p) : Ordered (State.refuseCmd x p) ↔ Ordered x :=
  change_ordered ..

@[simp] theorem State.showRate_ordered (p) : Ordered (State.showRate x p) ↔ Ordered x :=
  fsetN_ordered ..

@[simp] theorem State.cmdsDone_ordered (p status result) : Ordered (State.cmdsDone x p status result) ↔ Ordered x :=
  Iff.rfl

@[simp] theorem State.rateCmd_ordered (p status result) : Ordered (State.rateCmd x p status result) ↔ Ordered x :=
  cmdsDone_ordered ..

@[simp] theorem State.rateDrop_ordered (p why) : Ordered (State.rateDrop x p why) ↔ Ordered x :=
  (rateCmd_ordered ..).trans ((onPort_ordered ..).trans (fsetN_ordered ..))

@[simp] theorem State.rateRefuse_ordered (p why) : Ordered (State.rateRefuse x p why) ↔ Ordered x :=
  (change_ordered ..).trans (rateDrop_ordered ..)

@[simp] theorem State.rateWithdraw_ordered (p) : Ordered (State.rateWithdraw x p) ↔ Ordered x := by
  unfold State.rateWithdraw
  (repeat' first | with_reducible apply ordered_ite_iff | split) <;> simp

@[simp] theorem State.hubSettle_ordered (d t) : Ordered (State.hubSettle x d t) ↔ Ordered x := by
  unfold State.hubSettle
  (repeat' first | with_reducible apply ordered_ite_iff | split) <;> simp

@[simp] theorem State.leave_ordered (p st bits) : Ordered (State.leave x p st bits) ↔ Ordered x := by
  unfold State.leave
  (repeat' first | with_reducible apply ordered_ite_iff | split) <;> simp

@[simp] theorem State.disconnect_ordered (p bits) : Ordered (State.disconnect x p bits) ↔ Ordered x := by
  unfold State.disconnect
  simp

@[simp] theorem State.enterResetting_ordered (p t connect) : Ordered (State.enterResetting x p t connect) ↔ Ordered x := by
  unfold State.enterResetting
  (repeat' first | with_reducible apply ordered_ite_iff | split) <;> simp

@[simp] theorem State.toRetrain_ordered (p rate t bits) : Ordered (State.toRetrain x p rate t bits) ↔ Ordered x := by
  unfold State.toRetrain
  simp

@[simp] theorem State.portLate_ordered (p) : Ordered (State.portLate x p) ↔ Ordered x := by
  unfold State.portLate
  split <;> simp

@[simp] theorem State.linkFell_ordered (p t) : Ordered (State.linkFell x p t) ↔ Ordered x :=
  (portLate_ordered ..).trans (toRetrain_ordered ..)

@[simp] theorem State.sendRateReq_ordered (p now) : Ordered (State.sendRateReq x p now) ↔ Ordered x := by
  unfold State.sendRateReq
  split <;> simp

@[simp] theorem State.portUp_ordered (p t) : Ordered (State.portUp x p t) ↔ Ordered x := by
  unfold State.portUp
  repeat' first | with_reducible apply ordered_ite_iff | simp | split

@[simp] theorem State.portLinked_ordered (p t) : Ordered (State.portLinked x p t) ↔ Ordered x := by
  unfold State.portLinked
  simp

@[simp] theorem State.rateSwitch_ordered (p) : Ordered (State.rateSwitch x p) ↔ Ordered x := by
  unfold State.rateSwitch
  (repeat' first | with_reducible apply ordered_ite_iff | split) <;> simp

@[simp] theorem State.emptyOver_ordered (p frame) : Ordered (State.emptyOver x p frame) ↔ Ordered x := by
  unfold State.emptyOver
  simp

@[simp] theorem State.startResume_ordered (p forWake) : Ordered (State.startResume x p forWake) ↔ Ordered x :=
  (onPort_ordered ..).trans (putState_ordered ..)

@[simp] theorem State.hostResume_ordered (p) : Ordered (State.hostResume x p) ↔ Ordered x :=
  (train_ordered ..).trans (startResume_ordered ..)

@[simp] theorem State.acceptWake_ordered (p bits) : Ordered (State.acceptWake x p bits) ↔ Ordered x := by
  unfold State.acceptWake
  split <;> simp

@[simp] theorem State.wakeResume_ordered (p t) : Ordered (State.wakeResume x p t) ↔ Ordered x := by
  unfold State.wakeResume
  simp

@[simp] theorem State.portReset_ordered (p t) : Ordered (State.portReset x p t) ↔ Ordered x := by
  unfold State.portReset
  repeat' first
    | with_reducible apply ordered_ite_iff
    | simp only [enterResetting_ordered, ordered_ite, rateWithdraw_ordered, ite_self, hostResume_ordered, onPort_ordered, rateRefuse_ordered,
        stopCtl_ordered, toRetrain_ordered, rateDrop_ordered, refuseCmd_ordered]

@[simp] theorem State.suspendSend_ordered (n t) : Ordered (State.suspendSend x n t) ↔ Ordered x := by
  unfold State.suspendSend
  simp

@[simp] theorem State.suspendTry_ordered (n t) : Ordered (State.suspendTry x n t) ↔ Ordered x := by
  unfold State.suspendTry
  simp

@[simp] theorem State.portSuspend_ordered (p t) : Ordered (State.portSuspend x p t) ↔ Ordered x := by
  unfold State.portSuspend
  repeat' first | with_reducible apply ordered_ite_iff | simp | split

@[simp] theorem State.portResume_ordered (p) : Ordered (State.portResume x p) ↔ Ordered x := by
  unfold State.portResume
  simp

@[simp] theorem State.portRetrain_ordered (p t) : Ordered (State.portRetrain x p t) ↔ Ordered x := by
  unfold State.portRetrain
  simp

@[simp] theorem State.portClearError_ordered (p) : Ordered (State.portClearError x p) ↔ Ordered x := by
  unfold State.portClearError
  simp

@[simp] theorem State.portEnable_ordered (p on) : Ordered (State.portEnable x p on) ↔ Ordered x := by
  unfold State.portEnable
  repeat' first
    | with_reducible apply ordered_ite_iff
    | simp only [putState_ordered, fsetN_ordered, ordered_ite, leave_ordered, rateWithdraw_ordered, ite_self]

@[simp] theorem State.portCtl_ordered (n data t) : Ordered (State.portCtl x n data t) ↔ Ordered x := by
  unfold State.portCtl
  simp

@[simp] theorem State.hubRate_ordered (p target frame) : Ordered (State.hubRate x p target frame) ↔ Ordered x := by
  unfold State.hubRate
  repeat' first | with_reducible apply ordered_ite_iff | simp

@[simp] theorem State.rate5Set_ordered (p on frame) : Ordered (State.rate5Set x p on frame) ↔ Ordered x := by
  unfold State.rate5Set
  simp

@[simp] theorem State.enterSuspended_ordered (p t) : Ordered (State.enterSuspended x p t) ↔ Ordered x := by
  unfold State.enterSuspended
  simp

@[simp] theorem execPortEnable_ordered (n en rwake t) : OrderedNext (execPortEnable n en rwake t x) ↔ Ordered x := by
  unfold execPortEnable
  simp

@[simp] theorem execPortClearError_ordered (n t) : OrderedNext (execPortClearError n t x) ↔ Ordered x := by
  unfold execPortClearError
  simp

@[simp] theorem execPortReset_ordered (n t) : OrderedNext (execPortReset n t x) ↔ Ordered x := by
  unfold execPortReset
  simp

@[simp] theorem execPortResume_ordered (n t) : OrderedNext (execPortResume n t x) ↔ Ordered x := by
  unfold execPortResume
  simp

@[simp] theorem execPortSuspend_ordered (n t) : OrderedNext (execPortSuspend n t x) ↔ Ordered x := by
  unfold execPortSuspend
  simp

@[simp] theorem execPortRetrain_ordered (n t) : OrderedNext (execPortRetrain n t x) ↔ Ordered x := by
  unfold execPortRetrain
  simp

@[simp] theorem execPrtChgRead_ordered (n both) : OrderedNext (execPrtChgRead n both x) ↔ Ordered x := by
  unfold execPrtChgRead
  simp

@[simp] theorem State.signalSeen_ordered (p) : Ordered (State.signalSeen x p) ↔ Ordered x := by
  unfold State.signalSeen
  simp only [ordered_ite, train_ordered, putState_ordered, onPort_ordered, ite_self]

@[simp] theorem execSignalDetect_ordered (p t) : OrderedNext (execSignalDetect p t x) ↔ Ordered x := by
  unfold execSignalDetect
  simp

@[simp] theorem execConnectDebounceDone_ordered (p t) : OrderedNext (execConnectDebounceDone p t x) ↔ Ordered x := by
  unfold execConnectDebounceDone
  simp

@[simp] theorem execTrainingTimeout_ordered (p) : OrderedNext (execTrainingTimeout p x) ↔ Ordered x := by
  unfold execTrainingTimeout
  simp

@[simp] theorem execResetEchoTimeout_ordered (p t) : OrderedNext (execResetEchoTimeout p t x) ↔ Ordered x := by
  unfold execResetEchoTimeout
  simp

@[simp] theorem execRetrainTimeout_ordered (p) : OrderedNext (execRetrainTimeout p x) ↔ Ordered x := by
  unfold execRetrainTimeout
  simp

@[simp] theorem execResumeTimeout_ordered (p) : OrderedNext (execResumeTimeout p x) ↔ Ordered x := by
  unfold execResumeTimeout
  simp

@[simp] theorem State.propOver_ordered (p t) : Ordered (State.propOver x p t) ↔ Ordered x := by
  unfold State.propOver
  repeat' first | with_reducible apply ordered_ite_iff | simp | split

@[simp] theorem execSuspendEchoTimeout_ordered (p t) : OrderedNext (execSuspendEchoTimeout p t x) ↔ Ordered x := by
  unfold execSuspendEchoTimeout
  repeat' first | with_reducible apply orderedNext_ite_iff | simp

@[simp] theorem State.endLost_ordered (l t) : Ordered (State.endLost x l t) ↔ Ordered x := by
  unfold State.endLost
  (repeat' split) <;> simp

@[simp] theorem execLinkLost_ordered (p t) : OrderedNext (execLinkLost p t x) ↔ Ordered x :=
  orderedNext_next.trans ((State.endLost_ordered ..).trans (State.at_ordered ..))

@[simp] theorem execSyncGain_ordered (l groups) : OrderedNext (execSyncGain l groups x) ↔ Ordered x := by
  unfold execSyncGain
  split <;> simp

@[simp] theorem execSyncLoss_ordered (l groups t) : OrderedNext (execSyncLoss l groups t x) ↔ Ordered x := by
  unfold execSyncLoss
  simp

@[simp] theorem execCodewordLock_ordered (l blocks) : OrderedNext (execCodewordLock l blocks x) ↔ Ordered x := by
  unfold execCodewordLock
  split <;> simp

@[simp] theorem execCodewordLockLoss_ordered (l blocks t) : OrderedNext (execCodewordLockLoss l blocks t x) ↔ Ordered x := by
  unfold execCodewordLockLoss
  simp

@[simp] theorem State.rateMoved_ordered (p c) : Ordered (State.rateMoved x p c) ↔ Ordered x := by
  unfold State.rateMoved
  repeat' first | with_reducible apply ordered_ite_iff | simp | split

@[simp] theorem execRateLock_ordered (l t tTx) : OrderedNext (execRateLock l t tTx x) ↔ Ordered x := by
  unfold execRateLock
  dsimp only
  repeat' first | with_reducible apply orderedNext_ite_iff | simp | split

@[simp] theorem execRateLockTimeout_ordered (l t) : OrderedNext (execRateLockTimeout l t x) ↔ Ordered x := by
  unfold execRateLockTimeout
  (repeat' first | with_reducible apply orderedNext_ite_iff | split) <;> simp

/-! ### Machine/Hand.lean -/

@[simp] theorem State.useCtx_ordered (eph) : Ordered (State.useCtx x eph) ↔ Ordered x := by
  unfold State.useCtx
  repeat' first | with_reducible apply ordered_ite_iff | simp | split

@[simp] theorem State.useFor_ordered (eph) : Ordered (State.useFor x eph) ↔ Ordered x := by
  unfold State.useFor
  dsimp only
  repeat' first | with_reducible apply ordered_ite_iff | simp | split

@[simp] theorem State.onDrr_ordered (n f) : Ordered (State.onDrr x n f) ↔ Ordered x :=
  onDeal_ordered ..

@[simp] theorem State.composed_ordered (id) : Ordered (State.composed x id) ↔ Ordered x :=
  (unlist_ordered ..).trans (onEntry_ordered ..)

@[simp] theorem State.composedItem_ordered (h_ x_) : Ordered (State.composedItem x h_ x_) ↔ Ordered x := by
  unfold State.composedItem
  (repeat' first | with_reducible apply ordered_ite_iff | split) <;> simp

@[simp] theorem State.onRun_ordered (n f) : Ordered (State.onRun x n f) ↔ Ordered x := by
  unfold State.onRun
  split <;> simp

@[simp] theorem State.fill_ordered (n span from_ late room hand k) : Ordered (State.fill x n span from_ late room hand k).1 ↔ Ordered x := by
  induction k generalizing x hand with
  | zero => rfl
  | succ k ih =>
    unfold State.fill
    dsimp only
    (repeat' split) <;> simp [ih]

@[simp] theorem State.periodicOf_ordered (n frame idx e) : Ordered (State.periodicOf x n frame idx e).1 ↔ Ordered x := by
  unfold State.periodicOf
  dsimp only
  (repeat' split) <;> simp

@[simp] theorem State.periodicAll_ordered (n frame i l) : Ordered (State.periodicAll x n frame i l).1 ↔ Ordered x := by
  induction l generalizing x i with
  | nil => rfl
  | cons e r ih =>
    simp [State.periodicAll, ih]

@[simp] theorem State.owedPolls_ordered (n frame l) : Ordered (State.owedPolls x n frame l).1 ↔ Ordered x := by
  unfold State.owedPolls
  simp

@[simp] theorem State.toHead_ordered (id) : Ordered (State.toHead x id) ↔ Ordered x := by
  unfold State.toHead
  (repeat' first | with_reducible apply ordered_ite_iff | split) <;> simp

@[simp] theorem State.missItem_ordered (n why h_ x_) : Ordered (State.missItem x n why h_ x_).1 ↔ Ordered x := by
  unfold State.missItem
  dsimp only
  repeat' first
    | with_reducible apply ordered_ite_iff
    | simp only [toHead_ordered, count_ordered, trace_ordered, ordered_ite, ite_self, onDeal_ordered]
    | split

@[simp] theorem State.missItems_ordered (n why h_ l) : Ordered (State.missItems x n why h_ l).1 ↔ Ordered x := by
  unfold State.missItems
  exact ordered_foldl_fst l fun v a => by simp

@[simp] theorem State.deadCommands_ordered (n frame) : Ordered (State.deadCommands x n frame) ↔ Ordered x :=
  finishWhere_ordered ..

@[simp] theorem State.takeCommands_ordered (h_) : Ordered (State.takeCommands x h_).1 ↔ Ordered x := by
  unfold State.takeCommands
  exact ordered_foldl_fst _ fun v a => by (repeat' split) <;> simp

@[simp] theorem State.traceHand_ordered (n tick h_) : Ordered (State.traceHand x n tick h_) ↔ Ordered x :=
  trace_ordered ..

@[simp] theorem State.composeTree_ordered (n frame tick cut) : Ordered (State.composeTree x n frame tick cut) ↔ Ordered x := by
  unfold State.composeTree
  dsimp only
  repeat' first
    | with_reducible apply ordered_ite_iff
    | simp only [deadCommands_ordered, onDeal_ordered, traceHand_ordered, missItems_ordered, takeCommands_ordered, owedPolls_ordered,
        periodicAll_ordered, fill_ordered]
    | split

@[simp] theorem State.releaseAll_ordered (l) : Ordered (State.releaseAll x l) ↔ Ordered x := by
  unfold State.releaseAll
  simp

@[simp] theorem State.releaseFrames_ordered (frame) : Ordered (State.releaseFrames x frame) ↔ Ordered x := by
  unfold State.releaseFrames
  simp only [ordered_ite, refresh_ordered, releaseAll_ordered, ite_self]

@[simp] theorem State.composeAll_ordered (cuts) : Ordered (State.composeAll x cuts) ↔ Ordered x := by
  unfold State.composeAll
  simp

@[simp] theorem State.guardTree_ordered (n) : Ordered (State.guardTree x n) ↔ Ordered x := by
  unfold State.guardTree
  split
  · rfl
  · dsimp only
    rw [State.onDeal_ordered, State.missItems_ordered, State.countN_ordered]
    refine ordered_foldl _ fun y a => ?_
    split <;> simp

@[simp] theorem State.rolledEvent_ordered (n) : Ordered (State.rolledEvent x n) ↔ Ordered x := by
  unfold State.rolledEvent
  (repeat' first | with_reducible apply ordered_ite_iff | split) <;> simp

/-! ### Machine/Sample.lean -/

@[simp] theorem State.note_ordered (ring what id n) : Ordered (State.note x ring what id n) ↔ Ordered x :=
  onSmp_ordered ..

@[simp] theorem State.blockFree_ordered (b) : Ordered (State.blockFree x b) ↔ Ordered x := by
  unfold State.blockFree
  (repeat' first | with_reducible apply ordered_ite_iff | split) <;> simp

@[simp] theorem State.padBytes_ordered (n) : Ordered (State.padBytes x n).1 ↔ Ordered x := by
  fun_induction State.padBytes x n <;> simp_all

@[simp] theorem State.padBody_ordered (l) : Ordered (State.padBody x l).1 ↔ Ordered x := by
  induction l generalizing x with
  | nil => rfl
  | cons b r ih =>
    simp [State.padBody, ih]

@[simp] theorem State.ringWrite_ordered (r ofs b) : Ordered (State.ringWrite x r ofs b) ↔ Ordered x := by
  unfold State.ringWrite
  simp

@[simp] theorem State.advanceBy_ordered (r n) : Ordered (State.advanceBy x r n) ↔ Ordered x := by
  fun_induction State.advanceBy x r n <;> simp_all

@[simp] theorem State.writeRec_ordered (r) : Ordered (State.writeRec x r) ↔ Ordered x := by
  unfold State.writeRec
  simp only [note_ordered, blockFree_ordered, implies_true, ordered_foldl, engineDone_ordered, advanceBy_ordered, emit_ordered, ringWrite_ordered,
    padBody_ordered]

@[simp] theorem State.pushUngrouped_ordered (c b) : Ordered (State.pushUngrouped x c b) ↔ Ordered x :=
  (raise_ordered ..).trans (pushBlock_ordered ..)

@[simp] theorem State.dropBlock_ordered (b id g cnt evt) : Ordered (State.dropBlock x b id g cnt evt) ↔ Ordered x :=
  (note_ordered ..).trans ((raise_ordered ..).trans ((countN_ordered ..).trans (blockFree_ordered ..)))

@[simp] theorem State.forceSet_ordered : Ordered (State.forceSet x) ↔ Ordered x := by
  unfold State.forceSet
  split <;> simp

@[simp] theorem State.waitSlot_ordered (b said) : Ordered (State.waitSlot x b said) ↔ Ordered x := by
  unfold State.waitSlot
  simp

@[simp] theorem State.gatherBlock_ordered (id m b) : Ordered (State.gatherBlock x id m b) ↔ Ordered x := by
  unfold State.gatherBlock
  dsimp only
  repeat' first | with_reducible apply ordered_ite_iff | simp only [emitSets_ordered, dropBlock_ordered, onGroup_ordered, waitSlot_ordered] | split

@[simp] theorem State.addSample_ordered (k frame qc x_) : Ordered (State.addSample x k frame qc x_) ↔ Ordered x := by
  unfold State.addSample
  dsimp only
  repeat' first | with_reducible apply ordered_ite_iff | simp | split

@[simp] theorem State.coderBlock_ordered (k b) : Ordered (State.coderBlock x k b) ↔ Ordered x := by
  unfold State.coderBlock
  split <;> simp

@[simp] theorem State.triggerLand_ordered (eph stamp) : Ordered (State.triggerLand x eph stamp) ↔ Ordered x := by
  unfold State.triggerLand
  simp

@[simp] theorem State.codeSpan_ordered (k late) : Ordered (State.codeSpan x k late) ↔ Ordered x := by
  unfold State.codeSpan
  repeat' first
    | with_reducible apply ordered_ite_iff
    | simp only [note_ordered, raise_ordered, onCoder_ordered, fsetN_ordered, countN_ordered, pushRec_ordered, implies_true, ordered_foldl]
    | split

@[simp] theorem State.routeBlock_ordered (c b) : Ordered (State.routeBlock x c b) ↔ Ordered x := by
  unfold State.routeBlock
  (repeat' first | with_reducible apply ordered_ite_iff | split) <;> simp

@[simp] theorem State.blockLand_ordered (b) : Ordered (State.blockLand x b) ↔ Ordered x := by
  unfold State.blockLand
  (repeat' first | with_reducible apply ordered_ite_iff | split) <;> simp only [routeBlock_ordered, onTwin_ordered, onCtx_ordered,
    pocketPut_ordered, onSmp_ordered, endpointEvent_ordered]

@[simp] theorem State.endCmds_ordered (l status result) : Ordered (State.endCmds x l status result) ↔ Ordered x :=
  Iff.rfl

@[simp] theorem State.sampleDone_ordered : Ordered (State.sampleDone x) ↔ Ordered x := by
  unfold State.sampleDone
  dsimp only
  refine (ordered_foldl _ fun y a => ?_).trans (ordered_foldl _ fun y a => ?_) <;>
    (repeat' split) <;> simp

@[simp] theorem State.slotsFreed_ordered : Ordered (State.slotsFreed x) ↔ Ordered x := by
  unfold State.slotsFreed
  rw [State.onSmp_ordered]
  refine (ordered_foldl_fst (w := (_, [])) _ fun v a => ?_).trans (State.onSmp_ordered _)
  (repeat' split) <;> simp

@[simp] theorem State.streamEvents_ordered (frame) : Ordered (State.streamEvents x frame) ↔ Ordered x := by
  unfold State.streamEvents
  simp only [List.foldl_append, onSmp_ordered, event_ordered, implies_true, ordered_foldl]

@[simp] theorem execGatherDeadline_ordered (g) : OrderedNext (execGatherDeadline g x) ↔ Ordered x :=
  orderedNext_next.trans (State.emitSets_ordered ..)

@[simp] theorem State.releaseStep_ordered (n) : Ordered (State.releaseStep x n) ↔ Ordered x := by
  unfold State.releaseStep
  (repeat' first | with_reducible apply ordered_ite_iff | split) <;> simp

@[simp] theorem State.releaseOf_ordered (r) : Ordered (State.releaseOf x r) ↔ Ordered x := by
  unfold State.releaseOf
  split <;> simp

@[simp] theorem execStreamRecordWrite_ordered (ring) : OrderedNext (execStreamRecordWrite ring x) ↔ Ordered x := by
  unfold execStreamRecordWrite
  (repeat' first | with_reducible apply orderedNext_ite_iff | split) <;> simp only [orderedNext_next, State.geoFail_ordered,
    State.releaseOf_ordered, State.slotsFreed_ordered, State.sampleDone_ordered, ordered_ite, State.onSmp_ordered, State.writeRec_ordered,
    State.onCoder_ordered, ite_self]

@[simp] theorem execCoderBlockCode_ordered (k) : OrderedNext (execCoderBlockCode k x) ↔ Ordered x := by
  unfold execCoderBlockCode
  (repeat' first | with_reducible apply orderedNext_ite_iff | split) <;> simp

@[simp] theorem execCoderLateRaw_ordered (k) : OrderedNext (execCoderLateRaw k x) ↔ Ordered x := by
  unfold execCoderLateRaw
  (repeat' first | with_reducible apply orderedNext_ite_iff | split) <;> simp

@[simp] theorem execGthEvtRead_ordered (both) : OrderedNext (execGthEvtRead both x) ↔ Ordered x := by
  unfold execGthEvtRead
  simp

@[simp] theorem execCdrEvtRead_ordered (both) : OrderedNext (execCdrEvtRead both x) ↔ Ordered x := by
  unfold execCdrEvtRead
  simp

/-! ### Machine/Txn.lean -/

@[simp] theorem State.sendTxn_ordered (x_ c execAt) : Ordered (State.sendTxn x x_ c execAt) ↔ Ordered x := by
  unfold State.sendTxn
  repeat' first | with_reducible apply ordered_ite_iff | simp | split

@[simp] theorem State.startItem_ordered (n t o h_ x_ k tag) : Ordered (State.startItem x n t o h_ x_ k tag) ↔ Ordered x := by
  unfold State.startItem
  repeat' first | with_reducible apply ordered_ite_iff | simp | split

@[simp] theorem State.startNext_ordered (n tag t) : Ordered (State.startNext x n tag t) ↔ Ordered x := by
  unfold State.startNext
  split
  · rfl
  · rename_i h0 _
    refine ordered_ite_iff Iff.rfl ?_
    dsimp only
    have hw : Ordered (if !x.composes n h0.frame || x.rateEmpty n h0.frame then (x, h0)
        else x.fill n (x.frameSpan x.tim.tickAt) ((t - x.tim.tickAt) * 10) true (some 4) h0 8).1 ↔ Ordered x := by
      split <;> simp
    generalize (if !x.composes n h0.frame || x.rateEmpty n h0.frame then (x, h0)
        else x.fill n (x.frameSpan x.tim.tickAt) ((t - x.tim.tickAt) * 10) true (some 4) h0 8) = w at hw ⊢
    obtain ⟨s1, h1⟩ := w
    rw [← hw]
    dsimp only
    (repeat' split) <;> simp

@[simp] theorem State.ctxCalm_ordered (eph) : Ordered (State.ctxCalm x eph) ↔ Ordered x :=
  onCtx_ordered ..

@[simp] theorem State.flip_ordered (eph) : Ordered (State.flip x eph) ↔ Ordered x :=
  onCtx_ordered ..

@[simp] theorem State.eventOutcome_ordered (eph status) : Ordered (State.eventOutcome x eph status) ↔ Ordered x := by
  unfold State.eventOutcome
  split <;> simp

@[simp] theorem State.intentDone_ordered (eph status stamp) : Ordered (State.intentDone x eph status stamp) ↔ Ordered x := by
  unfold State.intentDone
  simp

@[simp] theorem State.txnDone_ordered (x_ status stamp late) : Ordered (State.txnDone x x_ status stamp late) ↔ Ordered x := by
  unfold State.txnDone
  repeat' first | with_reducible apply ordered_ite_iff | simp | split

@[simp] theorem State.txnHalt_ordered (x_ status) : Ordered (State.txnHalt x x_ status) ↔ Ordered x :=
  (ctxHalt_ordered ..).trans (txnDone_ordered ..)

@[simp] theorem State.again_ordered (x_ head) : Ordered (State.again x x_ head) ↔ Ordered x := by
  unfold State.again
  dsimp only
  (repeat' first | with_reducible apply ordered_ite_iff | split) <;> simp

@[simp] theorem State.delayEntry_ordered (x_ key why) : Ordered (State.delayEntry x x_ key why) ↔ Ordered x := by
  unfold State.delayEntry
  (repeat' first | with_reducible apply ordered_ite_iff | split) <;> simp

@[simp] theorem State.nakBackoff_ordered (x_ t) : Ordered (State.nakBackoff x x_ t) ↔ Ordered x := by
  unfold State.nakBackoff
  repeat' first | with_reducible apply ordered_ite_iff | simp only [delayEntry_ordered, onEntry_ordered, count_ordered] | split

@[simp] theorem State.stamped_ordered (x_ ts) : Ordered (State.stamped x x_ ts) ↔ Ordered x := by
  unfold State.stamped
  split <;> simp

@[simp] theorem State.ackIn_ordered (x_ c) : Ordered (State.ackIn x x_ c) ↔ Ordered x :=
  sendPkt_ordered ..

@[simp] theorem State.actedOn_ordered (eph setup quiet) : Ordered (State.actedOn x eph setup quiet) ↔ Ordered x := by
  unfold State.actedOn
  repeat' first | with_reducible apply ordered_ite_iff | simp | split

@[simp] theorem State.controlOk_ordered (x_ e) : Ordered (State.controlOk x x_ e) ↔ Ordered x := by
  unfold State.controlOk
  simp only [ordered_ite, txnDone_ordered, actedOn_ordered, ite_self]

@[simp] theorem State.toStage_ordered (x_ id st) : Ordered (State.toStage x x_ id st) ↔ Ordered x :=
  (again_ordered ..).trans ((onCtx_ordered ..).trans (onEntry_ordered ..))

@[simp] theorem State.acceptIn_ordered (x_ k p tEnd) : Ordered (State.acceptIn x x_ k p tEnd) ↔ Ordered x := by
  unfold State.acceptIn
  (repeat' first | with_reducible apply ordered_ite_iff | split) <;> simp

@[simp] theorem State.holdEvent_ordered (x_ p) : Ordered (State.holdEvent x x_ p) ↔ Ordered x :=
  (onTwin_ordered ..).trans (mirrorSend_ordered ..)

@[simp] theorem State.answerIn_ordered (x_ k p t tEnd) : Ordered (State.answerIn x x_ k p t tEnd) ↔ Ordered x := by
  unfold State.answerIn
  repeat' first | with_reducible apply ordered_ite_iff | simp | split

@[simp] theorem State.acceptOut_ordered (x_ k t tEnd notyet) : Ordered (State.acceptOut x x_ k t tEnd notyet) ↔ Ordered x := by
  unfold State.acceptOut
  repeat' first | with_reducible apply ordered_ite_iff | simp | split

@[simp] theorem State.answerOut_ordered (x_ k p t tEnd) : Ordered (State.answerOut x x_ k p t tEnd) ↔ Ordered x := by
  unfold State.answerOut
  simp

@[simp] theorem State.answerCommand_ordered (x_ k p) : Ordered (State.answerCommand x x_ k p) ↔ Ordered x := by
  unfold State.answerCommand
  dsimp only
  repeat' first | with_reducible apply ordered_ite_iff | simp | split

@[simp] theorem State.answerSetup_ordered (x_ k p t tEnd) : Ordered (State.answerSetup x x_ k p t tEnd) ↔ Ordered x := by
  unfold State.answerSetup
  repeat' first | with_reducible apply ordered_ite_iff | simp | split

@[simp] theorem State.answerPing_ordered (x_ p t) : Ordered (State.answerPing x x_ p t) ↔ Ordered x := by
  unfold State.answerPing
  repeat' first | with_reducible apply ordered_ite_iff | simp | split

@[simp] theorem State.afterOutcome_ordered (eph) : Ordered (State.afterOutcome x eph) ↔ Ordered x := by
  unfold State.afterOutcome
  simp

@[simp] theorem State.takeAnswer_ordered (x_ p t tEnd) : Ordered (State.takeAnswer x x_ p t tEnd) ↔ Ordered x := by
  unfold State.takeAnswer
  dsimp only
  repeat' first | with_reducible apply ordered_ite_iff | simp | split

@[simp] theorem State.traceAnswer_ordered (x_ t pid) : Ordered (State.traceAnswer x x_ t pid) ↔ Ordered x :=
  trace_ordered ..

@[simp] theorem State.noAnswer_ordered (x_) : Ordered (State.noAnswer x x_) ↔ Ordered x := by
  unfold State.noAnswer
  dsimp only
  repeat' first
    | with_reducible apply ordered_ite_iff
    | simp only [useCtx_ordered, txnDone_ordered, onRun_ordered, ctxHalt_ordered, ordered_ite, onCtx_ordered, ite_self, toHead_ordered, again_ordered]
    | split

/-! ### Machine/CmdBase.lean -/

@[simp] theorem State.onAudit_ordered (f) : Ordered (State.onAudit x f) ↔ Ordered x :=
  Iff.rfl

@[simp] theorem State.auditWrite_ordered (b) : Ordered (State.auditWrite x b) ↔ Ordered x :=
  (putRecord_ordered ..).trans (onAudit_ordered ..)

@[simp] theorem State.auditRecord_ordered (kind role sl status info detail) :
    Ordered (State.auditRecord x kind role sl status info detail) ↔ Ordered x := by
  unfold State.auditRecord
  simp only [ordered_ite, auditWrite_ordered, onAudit_ordered, raise_ordered, ite_self, count_ordered]

@[simp] theorem State.auditDrain_ordered (n) : Ordered (State.auditDrain x n) ↔ Ordered x := by
  fun_induction State.auditDrain x n <;> simp_all

@[simp] theorem State.auditFlush_ordered : Ordered (State.auditFlush x) ↔ Ordered x := by
  unfold State.auditFlush
  repeat' first
    | with_reducible apply ordered_ite_iff
    | simp only [auditDrain_ordered, ordered_ite, auditWrite_ordered, onAudit_ordered, fset_ordered, ite_self]

@[simp] theorem State.aerCorr_ordered (b) : Ordered (State.aerCorr x b) ↔ Ordered x :=
  Iff.rfl

@[simp] theorem State.aerUncorr_ordered (b header prefix_ quiet) : Ordered (State.aerUncorr x b header prefix_ quiet) ↔ Ordered x :=
  Iff.rfl

@[simp] theorem State.onCmd_ordered (r i f) : Ordered (State.onCmd x r i f) ↔ Ordered x :=
  Iff.rfl

@[simp] theorem State.cmdDone_ordered (r i status result) : Ordered (State.cmdDone x r i status result) ↔ Ordered x :=
  onCmd_ordered ..

@[simp] theorem State.tenantNote_ordered (c) : Ordered (State.tenantNote x c) ↔ Ordered x := by
  unfold State.tenantNote
  split <;> simp

@[simp] theorem State.cmdForeign_ordered (c) : Ordered (State.cmdForeign x c) ↔ Ordered x :=
  (tenantNote_ordered ..).trans (cmdDone_ordered ..)

@[simp] theorem State.passHead_ordered (r n) : Ordered (State.passHead x r n) ↔ Ordered x :=
  (engineEnd_ordered ..).trans (onRing_ordered ..)

@[simp] theorem State.cmdChecked_ordered (c body) (hb : ∀ y b1, Ordered (body b1 y) ↔ Ordered y) :
    Ordered (State.cmdChecked x c body) ↔ Ordered x := by
  unfold State.cmdChecked
  dsimp only
  repeat' first | apply ordered_ite_iff | split
  all_goals simp [hb]

/-- The same of a body that can put a state in order, as a start does. -/
theorem Ordered.cmdChecked (c body) (h : Ordered x) (hb : ∀ y b1, Ordered y → Ordered (body b1 y)) : Ordered (State.cmdChecked x c body) := by
  unfold State.cmdChecked
  dsimp only
  repeat' first | apply ordered_of_ite | split
  all_goals simp [h, hb]

@[simp] theorem State.withCmd_ordered (r d ops body names) (hb : ∀ y b1, Ordered (body b1 y) ↔ Ordered y) :
    Ordered (State.withCmd x r d ops body names) ↔ Ordered x := by
  unfold State.withCmd
  (repeat' first | with_reducible apply ordered_ite_iff | split) <;> simp [hb]

/-- The same of a body that can put a state in order, as a start does. -/
theorem Ordered.withCmd (r d ops body names) (h : Ordered x) (hb : ∀ y b1, Ordered y → Ordered (body b1 y)) :
    Ordered (State.withCmd x r d ops body names) := by
  unfold State.withCmd
  dsimp only
  (repeat' split) <;> first | (exact Ordered.cmdChecked _ _ (by simp [h]) hb) | simp [h]

@[simp] theorem execReservedOpcode_ordered (r d) : OrderedNext (execReservedOpcode r d x) ↔ Ordered x := by
  unfold execReservedOpcode
  simp

@[simp] theorem State.destroyed_ordered (n) : Ordered (State.destroyed x n) ↔ Ordered x := by
  unfold State.destroyed
  (repeat' first | with_reducible apply ordered_ite_iff | split) <;> simp

@[simp] theorem State.cmdWrite_ordered (c st result) : Ordered (State.cmdWrite x c st result) ↔ Ordered x := by
  unfold State.cmdWrite
  simp only [ordered_ite, destroyed_ordered, event_ordered, ordered_mk, rising_regs, engineEnd_ordered, emits_ordered, ite_self]

@[simp] theorem State.cmdWriteback_ordered (r) : Ordered (State.cmdWriteback x r) ↔ Ordered x := by
  unfold State.cmdWriteback
  (repeat' first | with_reducible apply ordered_ite_iff | split) <;> simp

/-! ### Machine/Context.lean -/

@[simp] theorem State.ctxOut_ordered (a k) : Ordered (State.ctxOut x a k) ↔ Ordered x :=
  emits_ordered ..

@[simp] theorem State.ctxDrop_ordered (eph) : Ordered (State.ctxDrop x eph) ↔ Ordered x := by
  unfold State.ctxDrop
  split <;> simp

@[simp] theorem State.ctxForget_ordered (eph) : Ordered (State.ctxForget x eph) ↔ Ordered x :=
  onCmgr_ordered ..

@[simp] theorem State.ctxRoom_ordered (h_) : Ordered (State.ctxRoom x h_).1 ↔ Ordered x := by
  unfold State.ctxRoom
  (repeat' split) <;> simp

@[simp] theorem State.ctxIn_ordered (eph c) : Ordered (State.ctxIn x eph c) ↔ Ordered x :=
  onCmgr_ordered ..

@[simp] theorem State.ctxCatchUp_ordered (eph) : Ordered (State.ctxCatchUp x eph) ↔ Ordered x := by
  unfold State.ctxCatchUp
  simp

@[simp] theorem State.ctxImage_ordered (h_ eph b) : Ordered (State.ctxImage x h_ eph b).1 ↔ Ordered x := by
  unfold State.ctxImage
  have hr : Ordered (x.ctxRoom h_).1 ↔ Ordered x := by simp
  generalize x.ctxRoom h_ = w at hr ⊢
  obtain ⟨s1, room⟩ := w
  dsimp only at hr
  cases room <;> dsimp only <;> (repeat' split) <;> simp [hr]

@[simp] theorem State.ctxLand_ordered (h_ eph) : Ordered (State.ctxLand x h_ eph).1 ↔ Ordered x := by
  unfold State.ctxLand
  (repeat' split) <;> simp

@[simp] theorem State.ctxGet_ordered (h_ eph) : Ordered (State.ctxGet x h_ eph).1 ↔ Ordered x := by
  unfold State.ctxGet
  (repeat' split) <;> simp

@[simp] theorem State.ctxFlush_ordered (h_ eph) : Ordered (State.ctxFlush x h_ eph).1 ↔ Ordered x := by
  unfold State.ctxFlush
  (repeat' split) <;> simp

@[simp] theorem State.ctxPin_ordered (eph on) : Ordered (State.ctxPin x eph on) ↔ Ordered x :=
  onCtx_ordered ..

/-! ### Machine/Tds.lean -/

@[simp] theorem State.refuseEntry_ordered (e st) : Ordered (State.refuseEntry x e st) ↔ Ordered x := by
  unfold State.refuseEntry
  simp

@[simp] theorem State.admitEntry_ordered (id) : Ordered (State.admitEntry x id) ↔ Ordered x := by
  unfold State.admitEntry
  (repeat' first | with_reducible apply ordered_ite_iff | split) <;> simp

@[simp] theorem State.spillEvent_ordered (what n count status) : Ordered (State.spillEvent x what n count status) ↔ Ordered x :=
  event1_ordered ..

@[simp] theorem State.spillFailed_ordered (n) : Ordered (State.spillFailed x n) ↔ Ordered x :=
  (spillEvent_ordered ..).trans (raise_ordered ..)

@[simp] theorem State.spillEntry_ordered (id n) : Ordered (State.spillEntry x id n) ↔ Ordered x := by
  unfold State.spillEntry
  dsimp only
  repeat' first | with_reducible apply ordered_ite_iff | simp | split

@[simp] theorem State.addEntry_ordered (e) : Ordered (State.addEntry x e) ↔ Ordered x :=
  (onDeal_ordered ..).trans (passHead_ordered ..)

@[simp] theorem State.takeCancelled_ordered (e) : Ordered (State.takeCancelled x e) ↔ Ordered x :=
  (traceEntry_ordered ..).trans ((finish_ordered ..).trans ((onRing_ordered ..).trans (addEntry_ordered ..)))

@[simp] theorem State.takeEntry_ordered (e spillOk) : Ordered (State.takeEntry x e spillOk) ↔ Ordered x := by
  unfold State.takeEntry
  repeat' first
    | with_reducible apply ordered_ite_iff
    | simp only [ctxTouch_ordered, useCtx_ordered, onRing_ordered, ordered_ite, ite_self, spillFailed_ordered, refresh_ordered, finish_ordered,
        addEntry_ordered, spillEntry_ordered, admitEntry_ordered, onEntry_ordered, fetchStart_ordered, dirFail_ordered, count_ordered,
        traceEntry_ordered]
    | split

@[simp] theorem State.tdTake_ordered (r tds bufs spillOk) : Ordered (State.tdTake x r tds bufs spillOk) ↔ Ordered x := by
  unfold State.tdTake
  dsimp only
  (repeat' first | with_reducible apply ordered_ite_iff | split) <;> simp

@[simp] theorem execTdTake_ordered (r tds bufs spillOk) : OrderedNext (execTdTake r tds bufs spillOk x) ↔ Ordered x :=
  orderedNext_next.trans (State.tdTake_ordered ..)

@[simp] theorem State.transportLost_ordered (e st) : Ordered (State.transportLost x e st) ↔ Ordered x :=
  (pocketFree_ordered ..).trans (onEntry_ordered ..)

@[simp] theorem State.admitFetched_ordered (e) : Ordered (State.admitFetched x e) ↔ Ordered x := by
  unfold State.admitFetched
  simp only [ordered_ite, admitEntry_ordered, spillEntry_ordered, ite_self]

@[simp] theorem State.admitWaiting_ordered : Ordered (State.admitWaiting x) ↔ Ordered x := by
  unfold State.admitWaiting
  repeat' first | with_reducible apply ordered_ite_iff | simp only [ordered_ite, admitFetched_ordered, ite_self, implies_true, ordered_foldl]

@[simp] theorem State.fetchDone_ordered (eph h_) : Ordered (State.fetchDone x eph h_) ↔ Ordered x := by
  unfold State.fetchDone
  dsimp only
  (repeat' first | with_reducible apply ordered_ite_iff | split) <;> simp

@[simp] theorem execContextFetchDone_ordered (eph h_) : OrderedNext (execContextFetchDone eph h_ x) ↔ Ordered x := by
  unfold execContextFetchDone
  repeat' first
    | with_reducible apply orderedNext_ite_iff
    | simp only [orderedNext_next, ordered_ite, State.engineDone_ordered, State.fetchDone_ordered, State.engineEnd_ordered, ite_self]

@[simp] theorem State.transport_ordered (e) : Ordered (State.transport x e) ↔ Ordered x := by
  unfold State.transport
  simp only [ordered_ite, fetchStart_ordered, transportLost_ordered, ite_self, refresh_ordered, pocketFree_ordered, onEntry_ordered,
    engineEnd_ordered, emits_ordered]

@[simp] theorem execHostTransportStart_ordered (r idx) : OrderedNext (execHostTransportStart r idx x) ↔ Ordered x := by
  unfold execHostTransportStart
  (repeat' first | with_reducible apply orderedNext_ite_iff | split) <;> simp

@[simp] theorem State.doneCount_ordered (e status) : Ordered (State.doneCount x e status) ↔ Ordered x := by
  unfold State.doneCount
  repeat' first | with_reducible apply ordered_ite_iff | simp only [count_ordered, onDeal_ordered, traceEntry_ordered] | split

@[simp] theorem State.endEntry_ordered (e status) : Ordered (State.endEntry x e status) ↔ Ordered x :=
  (refreshBy_ordered ..).trans ((doneCount_ordered ..).trans (onEntry_ordered ..))

@[simp] theorem State.step2_ordered (e d) : Ordered (State.step2 x e d) ↔ Ordered x := by
  unfold State.step2
  repeat' first
    | with_reducible apply ordered_ite_iff
    | simp only [ordered_mk, rising_regs, ordered_ite, event_ordered, ite_self, implies_true, ordered_foldl, engineDone_ordered, emit_ordered,
        emits_ordered]

@[simp] theorem State.clearOwn_ordered (r n) : Ordered (State.clearOwn x r n) ↔ Ordered x := by
  fun_induction State.clearOwn x r n <;> simp_all

@[simp] theorem State.tdWriteback_ordered (e d) : Ordered (State.tdWriteback x e d) ↔ Ordered x := by
  unfold State.tdWriteback
  simp only [refresh_ordered, destroyed_ordered, clearOwn_ordered, endEntry_ordered, engineEnd_ordered, emit_ordered, emits_ordered]

@[simp] theorem execTdWriteback_ordered (r idx) : OrderedNext (execTdWriteback r idx x) ↔ Ordered x := by
  unfold execTdWriteback
  (repeat' split) <;> simp

/-! ### Machine/Internal.lean -/

@[simp] theorem State.ctxInstall_ordered (eph x_) : Ordered (State.ctxInstall x eph x_) ↔ Ordered x :=
  (onCtx_ordered ..).trans ((ctxIn_ordered ..).trans (ctxForget_ordered ..))

@[simp] theorem State.startControl_ordered (eph setup data cmd) : Ordered (State.startControl x eph setup data cmd) ↔ Ordered x :=
  (refresh_ordered ..).trans (onDeal_ordered ..)

@[simp] theorem State.startClear_ordered (eph) : Ordered (State.startClear x eph) ↔ Ordered x :=
  startControl_ordered ..

@[simp] theorem State.enumStage_ordered (c stage) : Ordered (State.enumStage x c stage) ↔ Ordered x := by
  unfold State.enumStage
  simp

@[simp] theorem State.enumContext_ordered (c) : Ordered (State.enumContext x c).1 ↔ Ordered x := by
  unfold State.enumContext
  have hr : ∀ e, Ordered (if (x.ctx? e).isSome then (x, true) else x.ctxRoom c.host).1 ↔ Ordered x := fun e => by split <;> simp
  dsimp only
  split
  · rfl
  · split <;> rename_i e <;> have hr := e ▸ hr _ <;> simp [hr]
  · rfl

@[simp] theorem State.enumDone_ordered (c data) : Ordered (State.enumDone x c data) ↔ Ordered x := by
  have hc (y : State) (d : CmdRec) (b : Bool) (s1 : State) (e : y.enumContext d = (s1, b)) : Ordered s1 ↔ Ordered y := by
    rw [← State.enumContext_ordered (x := y) d, e]
  unfold State.enumDone
  dsimp only
  (repeat' split) <;> first | (simp; done) | (rename_i e; simp [hc _ _ _ _ e])

@[simp] theorem State.internalEnd_ordered (e d) : Ordered (State.internalEnd x e d) ↔ Ordered x := by
  unfold State.internalEnd
  dsimp only
  repeat' first | with_reducible apply ordered_ite_iff | simp | split

@[simp] theorem State.removeEnd_ordered (c) : Ordered (State.removeEnd x c) ↔ Ordered x := by
  unfold State.removeEnd
  dsimp only
  repeat' first | with_reducible apply ordered_ite_iff | simp | split

@[simp] theorem State.settle_ordered (n) : Ordered (State.settle x n) ↔ Ordered x := by
  fun_induction State.settle x n <;> simp_all

@[simp] theorem State.settled_ordered : Ordered (State.settled x) ↔ Ordered x :=
  settle_ordered ..

@[simp] theorem execTransactionStart_ordered (n tag t) : OrderedNext (execTransactionStart n tag t x) ↔ Ordered x :=
  orderedNext_next.trans ((State.suspendTry_ordered ..).trans (State.settled_ordered.trans ((State.startNext_ordered ..).trans (State.at_ordered
    ..))))

@[simp] theorem execAnswerReceive_ordered (n p poisoned t tEnd) : OrderedNext (execAnswerReceive n p poisoned t tEnd x) ↔ Ordered x := by
  unfold execAnswerReceive
  dsimp only
  repeat' first
    | with_reducible apply orderedNext_ite_iff
    | simp only [orderedNext_next, State.count_ordered, State.at_ordered, State.suspendTry_ordered, State.settled_ordered,
        State.afterOutcome_ordered, State.noAnswer_ordered, State.traceAnswer_ordered, ordered_mk, rising_regs, State.onCtx_ordered,
        State.takeAnswer_ordered]
    | split

@[simp] theorem execAnswerTimeout_ordered (n tag t) : OrderedNext (execAnswerTimeout n tag t x) ↔ Ordered x := by
  unfold execAnswerTimeout
  dsimp only
  repeat' first
    | with_reducible apply orderedNext_ite_iff
    | simp only [orderedNext_next, State.at_ordered, State.suspendTry_ordered, State.settled_ordered, State.afterOutcome_ordered,
        State.noAnswer_ordered, State.traceAnswer_ordered, ordered_mk, rising_regs]
    | split

@[simp] theorem execControlTransferTimeout_ordered (eph) : OrderedNext (execControlTransferTimeout eph x) ↔ Ordered x := by
  unfold execControlTransferTimeout
  split <;> simp

/-! ### Machine/Rings.lean -/

@[simp] theorem State.dbIgnored_ordered (n) : Ordered (State.dbIgnored x n) ↔ Ordered x :=
  (raiseN_ordered ..).trans (countN_ordered ..)

@[simp] theorem State.roomBack_ordered (r) : Ordered (State.roomBack x r) ↔ Ordered x := by
  unfold State.roomBack
  repeat' first | with_reducible apply ordered_ite_iff | simp | split

@[simp] theorem State.ringBell_ordered (r db) : Ordered (State.ringBell x r db) ↔ Ordered x := by
  unfold State.ringBell
  simp only [ordered_ite, ringErrorEvent_ordered, failRing_ordered, onRing_ordered, onDeal_ordered, roomBack_ordered, ite_self]

@[simp] theorem execDoorbell_ordered (slice j db) : OrderedNext (execDoorbell slice j db x) ↔ Ordered x := by
  unfold execDoorbell
  repeat' first
    | with_reducible apply orderedNext_ite_iff
    | simp only [id_eq, orderedNext_next, ordered_ite, State.ringBell_ordered, ite_self, State.dbIgnored_ordered, State.whenReady_ordered]
    | split

@[simp] theorem execMringEnable_ordered (n) : OrderedNext (execMringEnable n x) ↔ Ordered x := by
  unfold execMringEnable
  split <;> simp

@[simp] theorem execMringDisable_ordered (n) : OrderedNext (execMringDisable n x) ↔ Ordered x := by
  unfold execMringDisable
  split <;> simp

@[simp] theorem State.onAllotted_ordered (c n fixed body) (hb : ∀ y, Ordered (body y) ↔ Ordered y) :
    Ordered (State.onAllotted x c n fixed body) ↔ Ordered x := by
  unfold State.onAllotted
  repeat' first | with_reducible apply ordered_ite_iff | simp [hb]

@[simp] theorem State.ringCreate_ordered (c) : Ordered (State.ringCreate c x) ↔ Ordered x := by
  unfold State.ringCreate
  simp

@[simp] theorem State.ringStart_ordered (c) : Ordered (State.ringStart c x) ↔ Ordered x := by
  unfold State.ringStart
  simp

@[simp] theorem State.cancelCmd_ordered (n b) : Ordered (State.cancelCmd x n b) ↔ Ordered x :=
  passHead_ordered ..

@[simp] theorem State.cancelTd_ordered (n b) : Ordered (State.cancelTd x n b) ↔ Ordered x :=
  takeCancelled_ordered ..

@[simp] theorem State.cancelHanded_ordered (n l) : Ordered (State.cancelHanded x n l) ↔ Ordered x := by
  fun_induction State.cancelHanded x n l <;> simp_all

@[simp] theorem State.ringDestroy_ordered (imgs c) : Ordered (State.ringDestroy imgs c x) ↔ Ordered x := by
  unfold State.ringDestroy
  simp

@[simp] theorem State.tdCancel_ordered (imgs c) : Ordered (State.tdCancel imgs c x) ↔ Ordered x := by
  unfold State.tdCancel
  dsimp only
  repeat' first
    | with_reducible apply ordered_ite_iff
    | simp only [cmdDone_ordered, failRing_ordered, refresh_ordered, traceEntry_ordered, finish_ordered, implies_true, ordered_foldl, onRing_ordered]
    | split

@[simp] theorem execRingCreate_ordered (r d) : OrderedNext (execRingCreate r d x) ↔ Ordered x := by
  unfold execRingCreate
  simp

@[simp] theorem execRingStop_ordered (r d) : OrderedNext (execRingStop r d x) ↔ Ordered x := by
  unfold execRingStop
  simp

@[simp] theorem execRingStart_ordered (r d) : OrderedNext (execRingStart r d x) ↔ Ordered x := by
  unfold execRingStart
  simp

@[simp] theorem execRingDestroy_ordered (r d imgs) : OrderedNext (execRingDestroy r d imgs x) ↔ Ordered x := by
  unfold execRingDestroy
  simp

@[simp] theorem execRingQuery_ordered (r d) : OrderedNext (execRingQuery r d x) ↔ Ordered x := by
  unfold execRingQuery
  simp

@[simp] theorem execTdCancel_ordered (r d imgs) : OrderedNext (execTdCancel r d imgs x) ↔ Ordered x := by
  unfold execTdCancel
  simp

/-! ### Machine/Xcvr.lean -/

@[simp] theorem State.onSide_ordered (f) : Ordered (State.onSide x f) ↔ Ordered x :=
  Iff.rfl

@[simp] theorem State.idbSelect_ordered (n) : Ordered (State.idbSelect x n) ↔ Ordered x := by
  unfold State.idbSelect
  simp

@[simp] theorem State.idbDeselect_ordered (n) : Ordered (State.idbDeselect x n) ↔ Ordered x := by
  unfold State.idbDeselect
  simp

@[simp] theorem State.idbRead_ordered (n page first bytes) : Ordered (State.idbRead x n page first bytes) ↔ Ordered x := by
  unfold State.idbRead
  simp

@[simp] theorem State.scanned_ordered (bits) : Ordered (State.scanned x bits) ↔ Ordered x := by
  unfold State.scanned
  dsimp only
  repeat' first | with_reducible apply ordered_ite_iff | simp

@[simp] theorem execSidebandScan_ordered (bits) : OrderedNext (execSidebandScan bits x) ↔ Ordered x :=
  orderedNext_next.trans ((State.emit_ordered ..).trans (State.scanned_ordered ..))

@[simp] theorem State.xcvrGone_ordered (n) : Ordered (State.xcvrGone x n) ↔ Ordered x := by
  unfold State.xcvrGone
  simp

@[simp] theorem execModAbsChange_ordered (n) : OrderedNext (execModAbsChange n x) ↔ Ordered x := by
  unfold execModAbsChange
  simp

@[simp] theorem State.losAccept_ordered (n los) : Ordered (State.losAccept x n los) ↔ Ordered x := by
  unfold State.losAccept
  simp only [ordered_ite, signalSeen_ordered, fsetN_ordered, ite_self]

@[simp] theorem execLosTxFaultAccept_ordered (n) : OrderedNext (execLosTxFaultAccept n x) ↔ Ordered x := by
  unfold execLosTxFaultAccept
  repeat' first | with_reducible apply orderedNext_ite_iff | simp

@[simp] theorem execMscFault_ordered : OrderedNext (execMscFault x) ↔ Ordered x := by
  unfold execMscFault
  simp

@[simp] theorem execXcvrIdentify_ordered (n) : OrderedNext (execXcvrIdentify n x) ↔ Ordered x := by
  unfold execXcvrIdentify
  simp only [orderedNext_ite, orderedNext_next, State.idbRead_ordered, State.idbSelect_ordered, State.onPort_ordered, ite_self]

@[simp] theorem State.identify_ordered (n b) : Ordered (State.identify x n b) ↔ Ordered x := by
  unfold State.identify
  simp

@[simp] theorem State.diagTake_ordered (n b) : Ordered (State.diagTake x n b) ↔ Ordered x :=
  onHlt_ordered ..

@[simp] theorem State.identify2_ordered (n data) : Ordered (State.identify2 x n data) ↔ Ordered x := by
  unfold State.identify2
  repeat' first | with_reducible apply ordered_ite_iff | simp | split

@[simp] theorem execIdentityBusReadDone_ordered (n page data) : OrderedNext (execIdentityBusReadDone n page data x) ↔ Ordered x := by
  unfold execIdentityBusReadDone
  repeat' first
    | with_reducible apply orderedNext_ite_iff
    | simp only [orderedNext_next, State.cmdsDone_ordered, State.emits_ordered, implies_true, ordered_foldl, State.idbDeselect_ordered,
        State.onPort_ordered, ordered_ite, State.identify_ordered, State.identify2_ordered, ite_self]
    | split

@[simp] theorem execXcvrDiagRead_ordered (n data) : OrderedNext (execXcvrDiagRead n data x) ↔ Ordered x := by
  unfold execXcvrDiagRead
  simp only [orderedNext_ite, orderedNext_next, State.diagTake_ordered, State.idbDeselect_ordered, State.idbRead_ordered, State.idbSelect_ordered,
    ite_self]

/-! ### Machine/Endpoints.lean -/

@[simp] theorem State.onEndpoint_ordered (h_ c fixed body) (hb : ∀ y b1 b2, Ordered (body b1 b2 y) ↔ Ordered y) :
    Ordered (State.onEndpoint x h_ c fixed body) ↔ Ordered x := by
  unfold State.onEndpoint
  dsimp only
  have hs : Ordered (x.ctxGet h_ (nfield (cmdArg1 c.bytes) 24 0)).1 ↔ Ordered x := by simp
  generalize x.ctxGet h_ (nfield (cmdArg1 c.bytes) 24 0) = w at hs ⊢
  obtain ⟨s1, st⟩ := w
  dsimp only at hs ⊢
  repeat' first | apply ordered_ite_iff | split
  all_goals simp [hb, hs]

@[simp] theorem State.installImage_ordered (h_ eph x_) : Ordered (State.installImage x h_ eph x_).1 ↔ Ordered x := by
  unfold State.installImage
  dsimp only
  repeat' first
    | with_reducible apply ordered_ite_iff
    | simp only [↓reduceIte, ctxInstall_ordered, ctxRoom_ordered, boundsBroken_ordered, integrity_ordered]
    | split

@[simp] theorem State.installable_ordered (h_ eph) : Ordered (State.installable x h_ eph).1 ↔ Ordered x := by
  unfold State.installable
  dsimp only
  repeat' first | with_reducible apply ordered_ite_iff | simp | split

@[simp] theorem State.installNew_ordered (h_ eph x_) : Ordered (State.installNew x h_ eph x_).1 ↔ Ordered x := by
  unfold State.installNew
  dsimp only
  (repeat' split) <;> simp

@[simp] theorem execEpInstall_ordered (r d img h_) : OrderedNext (execEpInstall r d img h_ x) ↔ Ordered x := by
  unfold execEpInstall
  repeat' first | with_reducible apply orderedNext_ite_iff | simp | split

@[simp] theorem execEpRemove_ordered (r d h_) : OrderedNext (execEpRemove r d h_ x) ↔ Ordered x := by
  unfold execEpRemove
  simp

@[simp] theorem execEpStop_ordered (r d h_) : OrderedNext (execEpStop r d h_ x) ↔ Ordered x := by
  unfold execEpStop
  simp

@[simp] theorem execEpStart_ordered (r d h_) : OrderedNext (execEpStart r d h_ x) ↔ Ordered x := by
  unfold execEpStart
  simp

@[simp] theorem execEpReset_ordered (r d h_) : OrderedNext (execEpReset r d h_ x) ↔ Ordered x := by
  unfold execEpReset
  repeat' first
    | with_reducible apply orderedNext_ite_iff
    | simp only [orderedNext_next, ordered_ite, State.settled_ordered, State.startControl_ordered, State.ctxGet_ordered, State.cmdDone_ordered,
        ite_self, implies_true, State.onEndpoint_ordered, State.withCmd_ordered]

@[simp] theorem execEpFlush_ordered (r d h_) : OrderedNext (execEpFlush r d h_ x) ↔ Ordered x := by
  unfold execEpFlush
  simp

@[simp] theorem execEpQuery_ordered (r d h_) : OrderedNext (execEpQuery r d h_ x) ↔ Ordered x := by
  unfold execEpQuery
  simp

@[simp] theorem execSubtreeGone_ordered (r d others) : OrderedNext (execSubtreeGone r d others x) ↔ Ordered x := by
  unfold execSubtreeGone
  simp

@[simp] theorem execEnumerate_ordered (r d h_ eps) : OrderedNext (execEnumerate r d h_ eps x) ↔ Ordered x := by
  unfold execEnumerate
  simp

@[simp] theorem execXcvrRead_ordered (r d) : OrderedNext (execXcvrRead r d x) ↔ Ordered x := by
  unfold execXcvrRead
  simp

/-! ### Machine/Admission.lean -/

@[simp] theorem State.admRefuse_ordered (f ring recheck bit_) : Ordered (State.admRefuse x f ring recheck bit_) ↔ Ordered x :=
  (raise_ordered ..).trans (event1_ordered ..)

@[simp] theorem State.startBatch_ordered : Ordered (State.startBatch x) ↔ Ordered x := by
  unfold State.startBatch
  split <;> simp

@[simp] theorem State.queueBatch_ordered (kind cmd slice changes when_) : Ordered (State.queueBatch x kind cmd slice changes when_) ↔ Ordered x :=
  startBatch_ordered.trans (onSched_ordered ..)

@[simp] theorem State.changeCheck_ordered (h_ b seen w) : Ordered (State.changeCheck x h_ b seen w).1 ↔ Ordered x := by
  unfold State.changeCheck
  dsimp only
  repeat' first | with_reducible apply ordered_ite_iff | simp only [ctxGet_ordered, tenantNote_ordered] | split

@[simp] theorem State.changesCheck_ordered (h_ b i seen l) : Ordered (State.changesCheck x h_ b i seen l).1 ↔ Ordered x := by
  induction l generalizing x i seen with
  | nil => rfl
  | cons w r ih =>
    unfold State.changesCheck
    have hs : Ordered (x.changeCheck h_ b seen w.1).1 ↔ Ordered x := by simp
    generalize x.changeCheck h_ b seen w.1 = v at hs ⊢
    obtain ⟨s1, st, why⟩ := v
    dsimp only at hs ⊢
    (repeat' split) <;> simp [ih, hs]

@[simp] theorem State.batchDone_ordered (r i status result) : Ordered (State.batchDone x r i status result) ↔ Ordered x := by
  unfold State.batchDone
  (repeat' first | with_reducible apply ordered_ite_iff | split) <;> simp

@[simp] theorem State.endBatch_ordered (b status result) : Ordered (State.endBatch x b status result) ↔ Ordered x := by
  unfold State.endBatch
  repeat' first | with_reducible apply ordered_ite_iff | simp | split

@[simp] theorem State.refuseBatch_ordered (b f) : Ordered (State.refuseBatch x b f) ↔ Ordered x :=
  (endBatch_ordered ..).trans (admRefuse_ordered ..)

@[simp] theorem State.admitBatch_ordered (h_ b) : Ordered (State.admitBatch x h_ b) ↔ Ordered x := by
  unfold State.admitBatch
  dsimp only
  (repeat' first | with_reducible apply ordered_ite_iff | split) <;> simp

@[simp] theorem State.writePhases_ordered (b n) : Ordered (State.writePhases x b n) ↔ Ordered x := by
  unfold State.writePhases
  simp

@[simp] theorem State.switchTree_ordered (b n) : Ordered (State.switchTree x b n) ↔ Ordered x := by
  unfold State.switchTree
  dsimp only
  rw [State.event1_ordered, State.emitAll_ordered, State.onSched_ordered]
  refine ordered_foldl _ fun y a => ?_
  repeat' first | with_reducible apply ordered_ite_iff | simp only [onSmp_ordered, ctxPin_ordered] | split

@[simp] theorem State.switchTrees_ordered (frame n) : Ordered (State.switchTrees x frame n) ↔ Ordered x := by
  induction n generalizing x with
  | zero => rfl
  | succ k ih =>
    unfold State.switchTrees
    dsimp only
    (repeat' split) <;> simp [ih]

@[simp] theorem State.schedTick_ordered (frame) : Ordered (State.schedTick x frame) ↔ Ordered x := by
  unfold State.schedTick
  (repeat' first | with_reducible apply ordered_ite_iff | split) <;> simp

@[simp] theorem State.rateAccept_ordered (n target byPolicy) : Ordered (State.rateAccept x n target byPolicy) ↔ Ordered x := by
  unfold State.rateAccept
  repeat' first | with_reducible apply ordered_ite_iff | simp | split

@[simp] theorem State.rateRequest_ordered (n target byPolicy) : Ordered (State.rateRequest x n target byPolicy) ↔ Ordered x := by
  unfold State.rateRequest
  simp

@[simp] theorem State.rateAdvise_ordered (n) : Ordered (State.rateAdvise x n) ↔ Ordered x := by
  unfold State.rateAdvise
  simp

@[simp] theorem State.ratePolicy_ordered (n) : Ordered (State.ratePolicy x n) ↔ Ordered x := by
  unfold State.ratePolicy
  dsimp only
  repeat' first | with_reducible apply ordered_ite_iff | simp | split

@[simp] theorem State.portRate_ordered (c) : Ordered (State.portRate x c) ↔ Ordered x := by
  unfold State.portRate
  dsimp only
  repeat' first | with_reducible apply ordered_ite_iff | simp | split

@[simp] theorem State.portRateTick_ordered : Ordered (State.portRateTick x) ↔ Ordered x := by
  unfold State.portRateTick
  simp

@[simp] theorem State.recheckCap_ordered : Ordered (State.recheckCap x) ↔ Ordered x := by
  unfold State.recheckCap
  dsimp only
  (repeat' first | with_reducible apply ordered_ite_iff | split) <;> simp

@[simp] theorem State.recheckAmax_ordered (t) : Ordered (State.recheckAmax x t) ↔ Ordered x := by
  unfold State.recheckAmax
  dsimp only
  repeat' first | with_reducible apply ordered_ite_iff | simp | split

@[simp] theorem State.rateTurn_ordered (n c) : Ordered (State.rateTurn x n c) ↔ Ordered x := by
  unfold State.rateTurn
  dsimp only
  repeat' first | with_reducible apply ordered_ite_iff | simp | split

@[simp] theorem State.recheckOne_ordered (x_) : Ordered (State.recheckOne x x_) ↔ Ordered x := by
  unfold State.recheckOne
  dsimp only
  (repeat' first | with_reducible apply ordered_ite_iff | split) <;> simp

@[simp] theorem State.recheckTick_ordered : Ordered (State.recheckTick x) ↔ Ordered x := by
  unfold State.recheckTick
  simp

@[simp] theorem State.enumInstall_ordered (c l) : Ordered (State.enumInstall x c l).1 ↔ Ordered x := by
  unfold State.enumInstall
  exact ordered_foldl_fst _ fun v a => by split <;> simp

@[simp] theorem State.enumAdmit_ordered (c) : Ordered (State.enumAdmit x c) ↔ Ordered x := by
  unfold State.enumAdmit
  dsimp only
  repeat' first
    | with_reducible apply ordered_ite_iff
    | simp only [cmdDone_ordered, enumInstall_ordered, enumStage_ordered, queueBatch_ordered, onCmd_ordered]
    | split

@[simp] theorem State.enumTick_ordered : Ordered (State.enumTick x) ↔ Ordered x := by
  unfold State.enumTick
  simp

@[simp] theorem execSchedBatch_ordered (r d list) : OrderedNext (execSchedBatch r d list x) ↔ Ordered x := by
  unfold execSchedBatch
  repeat' first
    | with_reducible apply orderedNext_ite_iff
    | simp only [orderedNext_next, ordered_ite, State.cmdDone_ordered, State.boundsBroken_ordered, ite_self, implies_true, State.withCmd_ordered,
        State.queueBatch_ordered]
    | split

@[simp] theorem execBatchAdmitted_ordered (h_) : OrderedNext (execBatchAdmitted h_ x) ↔ Ordered x := by
  unfold execBatchAdmitted
  split <;> simp

@[simp] theorem execSchedReserve_ordered (r d) : OrderedNext (execSchedReserve r d x) ↔ Ordered x := by
  unfold execSchedReserve
  simp

@[simp] theorem execSchedQuery_ordered (r d) : OrderedNext (execSchedQuery r d x) ↔ Ordered x := by
  unfold execSchedQuery
  repeat' first
    | with_reducible apply orderedNext_ite_iff
    | simp only [orderedNext_next, ordered_ite, State.cmdForeign_ordered, State.cmdDone_ordered, ite_self, State.emits_ordered,
        State.boundsBroken_ordered, implies_true, State.withCmd_ordered]

@[simp] theorem execSchedClear_ordered (r d) : OrderedNext (execSchedClear r d x) ↔ Ordered x := by
  unfold execSchedClear
  simp

@[simp] theorem execPortRate_ordered (r d) : OrderedNext (execPortRate r d x) ↔ Ordered x := by
  unfold execPortRate
  simp

/-! ### Machine/Dealer.lean -/

@[simp] theorem State.releaseDue_ordered (t) : Ordered (State.releaseDue x t) ↔ Ordered x :=
  releaseAll_ordered ..

@[simp] theorem State.spillBack_ordered (n k) : Ordered (State.spillBack x n k) ↔ Ordered x := by
  induction k generalizing x with
  | zero => rfl
  | succ k ih =>
    unfold State.spillBack
    dsimp only
    (repeat' split) <;> simp [ih]

@[simp] theorem State.spillLost_ordered (n) : Ordered (State.spillLost x n) ↔ Ordered x := by
  unfold State.spillLost
  repeat' first
    | with_reducible apply ordered_ite_iff
    | simp only [refresh_ordered, ordered_ite, spillEvent_ordered, finish_ordered, onEntry_ordered, implies_true, ordered_foldl, ite_self]

@[simp] theorem State.spillEnable_ordered (en) : Ordered (State.spillEnable x en) ↔ Ordered x := by
  unfold State.spillEnable
  simp

@[simp] theorem State.counterWrite_ordered (v) : Ordered (State.counterWrite x v) ↔ Ordered x :=
  (refresh_ordered ..).trans (onDeal_ordered ..)

@[simp] theorem execDelayRelease_ordered (t) : OrderedNext (execDelayRelease t x) ↔ Ordered x :=
  orderedNext_next.trans (State.settled_ordered.trans ((State.refresh_ordered ..).trans ((State.releaseDue_ordered ..).trans (State.at_ordered ..))))

@[simp] theorem execNotyetTimeout_ordered (eph) : OrderedNext (execNotyetTimeout eph x) ↔ Ordered x := by
  unfold execNotyetTimeout
  (repeat' first | with_reducible apply orderedNext_ite_iff | split) <;> simp

@[simp] theorem execSpillReturn_ordered (n ok) : OrderedNext (execSpillReturn n ok x) ↔ Ordered x := by
  unfold execSpillReturn
  simp

@[simp] theorem execSpillEnable_ordered (en) : OrderedNext (execSpillEnable en x) ↔ Ordered x := by
  unfold execSpillEnable
  simp

@[simp] theorem execSchDcntValWrite_ordered (v) : OrderedNext (execSchDcntValWrite v x) ↔ Ordered x := by
  unfold execSchDcntValWrite
  simp

@[simp] theorem execSchAdmEvtRead_ordered (both) : OrderedNext (execSchAdmEvtRead both x) ↔ Ordered x := by
  unfold execSchAdmEvtRead
  simp

/-! ### Machine/DevBase.lean -/

@[simp] theorem State.onEp_ordered (d ep dir f) : Ordered (State.onEp x d ep dir f) ↔ Ordered x :=
  onDev_ordered ..

@[simp] theorem State.onCtl_ordered (d f) : Ordered (State.onCtl x d f) ↔ Ordered x :=
  onDev_ordered ..

@[simp] theorem State.answerUp_ordered (d call pid pflags payload) : Ordered (State.answerUp x d call pid pflags payload) ↔ Ordered x :=
  sendUp_ordered ..

@[simp] theorem State.stallUp_ordered (d call why) : Ordered (State.stallUp x d call why) ↔ Ordered x :=
  answerUp_ordered ..

@[simp] theorem State.ctlDone_ordered (d) : Ordered (State.ctlDone x d) ↔ Ordered x :=
  onDev_ordered ..

@[simp] theorem State.devAck_ordered (d p) : Ordered (State.devAck x d p) ↔ Ordered x := by
  unfold State.devAck
  (repeat' first | with_reducible apply ordered_ite_iff | split) <;> simp only [onEp_ordered, onCtl_ordered, ctlDone_ordered]

/-! ### Machine/LinkRx.lean -/

@[simp] theorem State.countHeader_ordered (l) : Ordered (State.countHeader x l) ↔ Ordered x := by
  unfold State.countHeader
  split <;> simp

@[simp] theorem State.countCrc_ordered (l) : Ordered (State.countCrc x l) ↔ Ordered x := by
  unfold State.countCrc
  split <;> simp

@[simp] theorem State.countPoisoned_ordered (l) : Ordered (State.countPoisoned x l) ↔ Ordered x := by
  unfold State.countPoisoned
  split <;> simp

@[simp] theorem State.countFec_ordered (l c) : Ordered (State.countFec x l c) ↔ Ordered x := by
  unfold State.countFec
  split <;> simp

@[simp] theorem State.rxOn_ordered (l x_) : Ordered (State.rxOn x l x_) ↔ Ordered x :=
  onLink_ordered ..

@[simp] theorem State.takeLine_ordered (l line) : Ordered (State.takeLine x l line) ↔ Ordered x := by
  unfold State.takeLine
  (repeat' first | with_reducible apply ordered_ite_iff | split) <;> simp

@[simp] theorem State.rxOver_ordered (l n) : Ordered (State.rxOver x l n) ↔ Ordered x :=
  onLink_ordered ..

@[simp] theorem State.sendRetry_ordered (l t) : Ordered (State.sendRetry x l t) ↔ Ordered x := by
  unfold State.sendRetry
  simp

@[simp] theorem State.sendAck_ordered (l) : Ordered (State.sendAck x l) ↔ Ordered x :=
  sendCtl_ordered ..

@[simp] theorem State.hubDiscard_ordered (l) : Ordered (State.hubDiscard x l) ↔ Ordered x :=
  onLink_ordered ..

@[simp] theorem State.deliver_ordered (l p) : Ordered (State.deliver x l p) ↔ Ordered x :=
  emit_ordered ..

@[simp] theorem State.acceptDown_ordered (d up p) : Ordered (State.acceptDown x d up p) ↔ Ordered x := by
  unfold State.acceptDown
  dsimp only
  repeat' first | with_reducible apply ordered_ite_iff | simp | split

@[simp] theorem State.openTicket_ordered (l r) : Ordered (State.openTicket x l r) ↔ Ordered x := by
  unfold State.openTicket
  repeat' first | with_reducible apply ordered_ite_iff | simp | split

@[simp] theorem State.upDone_ordered (d q k) : Ordered (State.upDone x d q k) ↔ Ordered x :=
  (onUpq_ordered ..).trans (onLink_ordered ..)

@[simp] theorem State.acceptUp_ordered (d p k) : Ordered (State.acceptUp x d p k) ↔ Ordered x := by
  unfold State.acceptUp
  simp

@[simp] theorem State.accept_ordered (l p) : Ordered (State.accept x l p) ↔ Ordered x := by
  unfold State.accept
  split <;> simp

@[simp] theorem State.poisonCopy_ordered (l r w up begun) : Ordered (State.poisonCopy x l r w up begun) ↔ Ordered x := by
  unfold State.poisonCopy
  (repeat' first | with_reducible apply ordered_ite_iff | split) <;> simp

@[simp] theorem State.checkSeq_ordered (l r t) : Ordered (State.checkSeq x l r t) ↔ Ordered x := by
  unfold State.checkSeq
  simp

@[simp] theorem State.checkPacket_ordered (l r w up begun t) : Ordered (State.checkPacket x l r w up begun t) ↔ Ordered x := by
  unfold State.checkPacket
  simp only [ordered_ite, countHeader_ordered, dropTicket_ordered, poisonCopy_ordered, countPoisoned_ordered, sendRetry_ordered, countCrc_ordered,
    ite_self, checkSeq_ordered]

@[simp] theorem State.takePacket_ordered (l begun t) : Ordered (State.takePacket x l begun t) ↔ Ordered x := by
  unfold State.takePacket
  simp only [ordered_ite, rxOver_ordered, countHeader_ordered, openTicket_ordered, checkPacket_ordered, ite_self]

@[simp] theorem execPacketReceive_ordered (l line begun t) : OrderedNext (execPacketReceive l line begun t x) ↔ Ordered x :=
  orderedNext_next.trans ((State.takePacket_ordered ..).trans ((State.takeLine_ordered ..).trans (State.at_ordered ..)))

@[simp] theorem execLinkctlAckReceive_ordered (l seq) : OrderedNext (execLinkctlAckReceive l seq x) ↔ Ordered x := by
  unfold execLinkctlAckReceive
  simp

@[simp] theorem State.replayOrDown_ordered (l seq t tTx) : Ordered (State.replayOrDown x l seq t tTx) ↔ Ordered x := by
  unfold State.replayOrDown
  simp

@[simp] theorem execLinkctlRetryReceive_ordered (l seq t tTx) : OrderedNext (execLinkctlRetryReceive l seq t tTx x) ↔ Ordered x := by
  unfold execLinkctlRetryReceive
  simp

@[simp] theorem State.replayTimeout_ordered (l t tTx) : Ordered (State.replayTimeout x l t tTx) ↔ Ordered x := by
  unfold State.replayTimeout
  repeat' first | with_reducible apply ordered_ite_iff | simp | split

@[simp] theorem State.showPeer_ordered (p arg) : Ordered (State.showPeer x p arg) ↔ Ordered x := by
  unfold State.showPeer
  split <;> simp

@[simp] theorem State.takeCaps_ordered (l seq arg tTx) : Ordered (State.takeCaps x l seq arg tTx) ↔ Ordered x := by
  unfold State.takeCaps
  repeat' first | with_reducible apply ordered_ite_iff | simp only [endUp_ordered, ordered_ite, sendCaps_ordered, onLink_ordered, ite_self]

@[simp] theorem State.portCaps_ordered (p seq arg t tTx) : Ordered (State.portCaps x p seq arg t tTx) ↔ Ordered x := by
  unfold State.portCaps
  simp only [ordered_ite, leave_ordered, ite_self, showPeer_ordered, portLinked_ordered, takeCaps_ordered, sendCaps_ordered]

@[simp] theorem State.devCaps_ordered (d up seq arg t t1 tTx) : Ordered (State.devCaps x d up seq arg t t1 tTx) ↔ Ordered x := by
  unfold State.devCaps
  repeat' first
    | with_reducible apply ordered_ite_iff
    | simp only [startCtl_ordered, sendDelayReq_ordered, takeCaps_ordered, onDev_ordered, ordered_ite, endLost_ordered, ite_self]

@[simp] theorem execCapsReceive_ordered (l seq arg t t1 tTx) : OrderedNext (execCapsReceive l seq arg t t1 tTx x) ↔ Ordered x := by
  unfold execCapsReceive
  repeat' first | with_reducible apply orderedNext_ite_iff | simp | split

@[simp] theorem execCapsRepeat_ordered (l t) : OrderedNext (execCapsRepeat l t x) ↔ Ordered x := by
  unfold execCapsRepeat
  dsimp only
  (repeat' first | with_reducible apply orderedNext_ite_iff | split) <;> simp

@[simp] theorem execRateReqReceive_ordered (d up arg frameNo) : OrderedNext (execRateReqReceive d up arg frameNo x) ↔ Ordered x :=
  orderedNext_next.trans ((State.onLink_ordered ..).trans (State.sendCtl_ordered ..))

@[simp] theorem execRateAckReceive_ordered (p arg frameNo) : OrderedNext (execRateAckReceive p arg frameNo x) ↔ Ordered x := by
  unfold execRateAckReceive
  (repeat' first | with_reducible apply orderedNext_ite_iff | split) <;> simp

@[simp] theorem execRateReqRepeat_ordered (p) : OrderedNext (execRateReqRepeat p x) ↔ Ordered x := by
  unfold execRateReqRepeat
  repeat' first | with_reducible apply orderedNext_ite_iff | simp only [orderedNext_next, ordered_ite, State.sendRateReq_ordered, ite_self]

@[simp] theorem State.passSuspend_ordered (t p) : Ordered (State.passSuspend t x p) ↔ Ordered x := by
  unfold State.passSuspend
  simp

@[simp] theorem State.passReset_ordered (t p) : Ordered (State.passReset t x p) ↔ Ordered x := by
  unfold State.passReset
  simp

@[simp] theorem State.hubPass_ordered (d up typ t) : Ordered (State.hubPass x d up typ t) ↔ Ordered x := by
  unfold State.hubPass
  repeat' first | with_reducible apply ordered_ite_iff | simp | split

@[simp] theorem State.echoOnly_ordered (d up typ t) : Ordered (State.echoOnly x d up typ t) ↔ Ordered x :=
  echo_ordered ..

@[simp] theorem execLinkctlResetReceive_ordered (d up t) : OrderedNext (execLinkctlResetReceive d up t x) ↔ Ordered x := by
  unfold execLinkctlResetReceive
  simp

@[simp] theorem execResetEchoReceive_ordered (p t) : OrderedNext (execResetEchoReceive p t x) ↔ Ordered x := by
  unfold execResetEchoReceive
  simp

@[simp] theorem execLinkctlSuspendReceive_ordered (d up t) : OrderedNext (execLinkctlSuspendReceive d up t x) ↔ Ordered x := by
  unfold execLinkctlSuspendReceive
  simp

@[simp] theorem execSuspendEchoReceive_ordered (p t) : OrderedNext (execSuspendEchoReceive p t x) ↔ Ordered x := by
  unfold execSuspendEchoReceive
  (repeat' first | with_reducible apply orderedNext_ite_iff | split) <;> simp

@[simp] theorem execLinkctlResumeReceive_ordered (d up t) : OrderedNext (execLinkctlResumeReceive d up t x) ↔ Ordered x := by
  unfold execLinkctlResumeReceive
  repeat' first | with_reducible apply orderedNext_ite_iff | simp

@[simp] theorem execResumeEchoReceive_ordered (p t) : OrderedNext (execResumeEchoReceive p t x) ↔ Ordered x := by
  unfold execResumeEchoReceive
  simp

@[simp] theorem execLinkctlWakeReceive_ordered (p t) : OrderedNext (execLinkctlWakeReceive p t x) ↔ Ordered x := by
  unfold execLinkctlWakeReceive
  dsimp only
  (repeat' first | with_reducible apply orderedNext_ite_iff | split) <;> simp

@[simp] theorem execLinkctlCmdRepeat_ordered (l t) : OrderedNext (execLinkctlCmdRepeat l t x) ↔ Ordered x := by
  unfold execLinkctlCmdRepeat
  repeat' first
    | with_reducible apply orderedNext_ite_iff
    | simp only [orderedNext_next, ordered_ite, State.stopCtl_ordered, State.sendCtl_ordered, ite_self, implies_true, ordered_foldl, State.at_ordered]

/-! ### Machine/Sync.lean -/

@[simp] theorem State.setClock_ordered (d f tRx off) : Ordered (State.setClock x d f tRx off) ↔ Ordered x :=
  onDev_ordered ..

@[simp] theorem State.forwardFrame_ordered (d f down tRx tTx) : Ordered (State.forwardFrame x d f down tRx tTx) ↔ Ordered x := by
  unfold State.forwardFrame
  simp

@[simp] theorem State.frameCame_ordered (d up tRx) : Ordered (State.frameCame x d up tRx) ↔ Ordered x := by
  unfold State.frameCame
  simp

@[simp] theorem execFrameReceive_ordered (d up payload tRx tTx t1) : OrderedNext (execFrameReceive d up payload tRx tTx t1 x) ↔ Ordered x := by
  unfold execFrameReceive
  repeat' first | with_reducible apply orderedNext_ite_iff | simp | split

@[simp] theorem execDelayReqReceive_ordered (p payload t2 t3) : OrderedNext (execDelayReqReceive p payload t2 t3 x) ↔ Ordered x := by
  unfold execDelayReqReceive
  dsimp only
  cases p <;> repeat' first | apply orderedNext_ite_iff | simp

@[simp] theorem execDelayRespReceive_ordered (d up payload t4) : OrderedNext (execDelayRespReceive d up payload t4 x) ↔ Ordered x := by
  unfold execDelayRespReceive
  dsimp only
  (repeat' first | with_reducible apply orderedNext_ite_iff | split) <;> simp

@[simp] theorem execDelayReqAbandon_ordered (d up) : OrderedNext (execDelayReqAbandon d up x) ↔ Ordered x := by
  unfold execDelayReqAbandon
  simp

@[simp] theorem execSyncLost_ordered (d) : OrderedNext (execSyncLost d x) ↔ Ordered x := by
  unfold execSyncLost
  simp

/-! ### Machine/Device.lean -/

@[simp] theorem State.ctlIn_ordered (d p) : Ordered (State.ctlIn x d p) ↔ Ordered x := by
  unfold State.ctlIn
  (repeat' first | with_reducible apply ordered_ite_iff | split) <;> simp

@[simp] theorem State.ctlOut_ordered (d p data room after) : Ordered (State.ctlOut x d p data room after) ↔ Ordered x := by
  unfold State.ctlOut
  (repeat' first | with_reducible apply ordered_ite_iff | split) <;> simp only [answerUp_ordered, onEp_ordered, onCtl_ordered, ctlDone_ordered,
    stallUp_ordered]

@[simp] theorem State.cyclicIn_ordered (d p e) : Ordered (State.cyclicIn x d p e) ↔ Ordered x := by
  unfold State.cyclicIn
  dsimp only
  repeat' first | with_reducible apply ordered_ite_iff | simp only [answerUp_ordered, onEp_ordered] | split

@[simp] theorem State.eventIn_ordered (d p e) : Ordered (State.eventIn x d p e) ↔ Ordered x := by
  unfold State.eventIn
  repeat' first | with_reducible apply ordered_ite_iff | simp | split

@[simp] theorem execCallInReceive_ordered (d p) : OrderedNext (execCallInReceive d p x) ↔ Ordered x := by
  unfold execCallInReceive
  repeat' first | with_reducible apply orderedNext_ite_iff | simp | split

@[simp] theorem execCallOutReceive_ordered (d p data room after) : OrderedNext (execCallOutReceive d p data room after x) ↔ Ordered x := by
  unfold execCallOutReceive
  repeat' first
    | with_reducible apply orderedNext_ite_iff
    | simp only [orderedNext_next, ordered_ite, State.ctlOut_ordered, State.stallUp_ordered, ite_self, State.answerUp_ordered, State.onEp_ordered]
    | split

@[simp] theorem execPingReceive_ordered (d p room) : OrderedNext (execPingReceive d p room x) ↔ Ordered x := by
  unfold execPingReceive
  repeat' first
    | with_reducible apply orderedNext_ite_iff
    | simp only [orderedNext_next, ordered_ite, State.answerUp_ordered, State.stallUp_ordered, ite_self, State.onEp_ordered]
    | split

@[simp] theorem execCommandReceive_ordered (d p data tHold tExec) : OrderedNext (execCommandReceive d p data tHold tExec x) ↔ Ordered x := by
  unfold execCommandReceive
  (repeat' first | with_reducible apply orderedNext_ite_iff | split) <;> simp only [orderedNext_next, State.stallUp_ordered, State.answerUp_ordered,
    ordered_ite, State.emit_ordered, State.onEp_ordered, ite_self]

@[simp] theorem execExecAtExecute_ordered (d ep) : OrderedNext (execExecAtExecute d ep x) ↔ Ordered x := by
  unfold execExecAtExecute
  (repeat' split) <;> simp

@[simp] theorem execSampleBlockForm_ordered (d ep stamp body) : OrderedNext (execSampleBlockForm d ep stamp body x) ↔ Ordered x := by
  unfold execSampleBlockForm
  (repeat' first | with_reducible apply orderedNext_ite_iff | split) <;> simp only [orderedNext_next, State.onEp_ordered]

@[simp] theorem execSetupReceive_ordered (d p) : OrderedNext (execSetupReceive d p x) ↔ Ordered x := by
  unfold execSetupReceive
  simp

@[simp] theorem State.carried_ordered (d b) : Ordered (State.carried x d b) ↔ Ordered x :=
  onCtl_ordered ..

@[simp] theorem execGetStatus_ordered (d) : OrderedNext (execGetStatus d x) ↔ Ordered x := by
  unfold execGetStatus
  split <;> simp

@[simp] theorem execClearHalt_ordered (d) : OrderedNext (execClearHalt d x) ↔ Ordered x := by
  unfold execClearHalt
  split <;> simp

@[simp] theorem execResetEndpoint_ordered (d) : OrderedNext (execResetEndpoint d x) ↔ Ordered x := by
  unfold execResetEndpoint
  split <;> simp

@[simp] theorem execSetAddress_ordered (d) : OrderedNext (execSetAddress d x) ↔ Ordered x := by
  unfold execSetAddress
  split <;> simp

@[simp] theorem execGetRecord_ordered (d) : OrderedNext (execGetRecord d x) ↔ Ordered x := by
  unfold execGetRecord
  split <;> simp

@[simp] theorem execGetConfiguration_ordered (d) : OrderedNext (execGetConfiguration d x) ↔ Ordered x := by
  unfold execGetConfiguration
  split <;> simp

@[simp] theorem execSetConfiguration_ordered (d) : OrderedNext (execSetConfiguration d x) ↔ Ordered x := by
  unfold execSetConfiguration
  split <;> simp

@[simp] theorem execSetRemoteWake_ordered (d) : OrderedNext (execSetRemoteWake d x) ↔ Ordered x := by
  unfold execSetRemoteWake
  split <;> simp

@[simp] theorem execSetLinkAsym_ordered (d) : OrderedNext (execSetLinkAsym d x) ↔ Ordered x := by
  unfold execSetLinkAsym
  split <;> simp

@[simp] theorem execGetPortStatus_ordered (d) : OrderedNext (execGetPortStatus d x) ↔ Ordered x := by
  unfold execGetPortStatus
  (repeat' first | with_reducible apply orderedNext_ite_iff | split) <;> simp only [orderedNext_next, State.carried_ordered, ordered_ite,
    State.onDev_ordered, State.wr_ordered, ite_self]

@[simp] theorem execSetPortFeature_ordered (d t) : OrderedNext (execSetPortFeature d t x) ↔ Ordered x := by
  unfold execSetPortFeature
  dsimp only
  repeat' first | with_reducible apply orderedNext_ite_iff | simp | split

@[simp] theorem execClearPortFeature_ordered (d t) : OrderedNext (execClearPortFeature d t x) ↔ Ordered x := by
  unfold execClearPortFeature
  dsimp only
  repeat' first | with_reducible apply orderedNext_ite_iff | simp | split

/-! ### Machine/Mover.lean -/

@[simp] theorem State.chanStatus_ordered (n st) : Ordered (State.chanStatus x n st) ↔ Ordered x :=
  fsetN_ordered ..

@[simp] theorem State.burst_ordered (n c src dst o len hs hd) : Ordered (State.burst x n c src dst o len hs hd) ↔ Ordered x := by
  unfold State.burst
  dsimp only
  repeat' first | with_reducible apply ordered_ite_iff | simp only [emit_ordered, onChan_ordered, ordered_mk, rising_regs] | split

@[simp] theorem State.bursts_ordered (n c src dst cnt ecc f o hs hd) : Ordered (State.bursts x n c src dst cnt ecc f o hs hd) ↔ Ordered x := by
  fun_induction State.bursts x n c src dst cnt ecc f o hs hd <;> simp_all

@[simp] theorem State.paceNext_ordered (n) : Ordered (State.paceNext x n) ↔ Ordered x := by
  unfold State.paceNext
  simp

@[simp] theorem State.descBack_ordered (n img link drop status actual mis result) :
    Ordered (State.descBack x n img link drop status actual mis result) ↔ Ordered x := by
  unfold State.descBack
  repeat' first | with_reducible apply ordered_ite_iff | simp only [ordered_mk, rising_regs, ordered_ite, emit_ordered, ite_self]

@[simp] theorem State.chanNext_ordered (n status stop ioc) : Ordered (State.chanNext x n status stop ioc) ↔ Ordered x := by
  unfold State.chanNext
  repeat' first | with_reducible apply ordered_ite_iff | simp

@[simp] theorem State.chanShow_ordered (n done) : Ordered (State.chanShow x n done) ↔ Ordered x := by
  unfold State.chanShow
  simp

@[simp] theorem State.descEnd_ordered (n status img returns drop) : Ordered (State.descEnd x n status img returns drop) ↔ Ordered x := by
  unfold State.descEnd
  dsimp only
  repeat' first
    | with_reducible apply ordered_ite_iff
    | simp only [chanNext_ordered, ordered_ite, wr_ordered, descBack_ordered, chanShow_ordered, raiseN_ordered, ite_self, emit_ordered]
    | split

@[simp] theorem State.descStart_ordered (n src dst cnt img) : Ordered (State.descStart x n src dst cnt img) ↔ Ordered x := by
  unfold State.descStart
  simp

@[simp] theorem State.descRefused_ordered (n status b) : Ordered (State.descRefused x n status b) ↔ Ordered x :=
  (chanNext_ordered ..).trans ((boundsBroken_ordered ..).trans (descBack_ordered ..))

@[simp] theorem State.descRead_ordered (n b) : Ordered (State.descRead x n b).1 ↔ Ordered x := by
  unfold State.descRead
  dsimp only
  (repeat' first | with_reducible apply ordered_ite_iff | split) <;> simp

@[simp] theorem State.chanTake_ordered (n desc) : Ordered (State.chanTake x n desc).1 ↔ Ordered x := by
  unfold State.chanTake
  dsimp only
  (repeat' split) <;> simp

@[simp] theorem State.moveAll_ordered (n src dst ecc drop) : Ordered (State.moveAll x n src dst ecc drop) ↔ Ordered x := by
  unfold State.moveAll
  dsimp only
  repeat' first | with_reducible apply ordered_ite_iff | simp only [descEnd_ordered, bursts_ordered] | split

@[simp] theorem State.reqBurst_ordered (n data src dst) : Ordered (State.reqBurst x n data src dst) ↔ Ordered x := by
  unfold State.reqBurst
  dsimp only
  repeat' first | with_reducible apply ordered_ite_iff | simp only [descEnd_ordered, chanShow_ordered, burst_ordered] | split

@[simp] theorem State.serveLine_ordered (line src dst n) : Ordered (State.serveLine x line src dst n) ↔ Ordered x := by
  induction n generalizing x with
  | zero => rfl
  | succ k ih =>
    unfold State.serveLine
    dsimp only
    (repeat' split) <;> simp [ih]

@[simp] theorem State.descDone_ordered (n desc src dst ecc fence) : Ordered (State.descDone x n desc src dst ecc fence) ↔ Ordered x := by
  unfold State.descDone
  repeat' first
    | with_reducible apply ordered_ite_iff
    | simp only [chanTo_ordered, ordered_ite, descEnd_ordered, chanTake_ordered, ite_self, serveLine_ordered, moveAll_ordered]

@[simp] theorem execMoverDescDone_ordered (n desc src dst ecc fence) : OrderedNext (execMoverDescDone n desc src dst ecc fence x) ↔ Ordered x :=
  orderedNext_next.trans (State.descDone_ordered ..)

@[simp] theorem State.ctlStore_ordered (n v) : Ordered (State.ctlStore x n v) ↔ Ordered x :=
  wr_ordered ..

@[simp] theorem State.movGo_ordered (n v) : Ordered (State.movGo x n v) ↔ Ordered x := by
  unfold State.movGo
  repeat' first | with_reducible apply ordered_ite_iff | simp

@[simp] theorem State.movStop_ordered (n same) : Ordered (State.movStop x n same) ↔ Ordered x := by
  unfold State.movStop
  split <;> simp

@[simp] theorem State.ctlWrite_ordered (n v same) : Ordered (State.ctlWrite x n v same) ↔ Ordered x := by
  unfold State.ctlWrite
  simp

@[simp] theorem execMovGo_ordered (n v) : OrderedNext (execMovGo n v x) ↔ Ordered x := by
  unfold execMovGo
  simp

@[simp] theorem execMovStop_ordered (n v same) : OrderedNext (execMovStop n v same x) ↔ Ordered x := by
  unfold execMovStop
  simp

@[simp] theorem State.lineRequest_ordered (line data src dst) : Ordered (State.lineRequest x line data src dst) ↔ Ordered x := by
  unfold State.lineRequest
  repeat' first | with_reducible apply ordered_ite_iff | simp

@[simp] theorem State.stopReq_ordered : Ordered (State.stopReq x) ↔ Ordered x := by
  unfold State.stopReq
  simp

@[simp] theorem State.tickChannels_ordered : Ordered (State.tickChannels x) ↔ Ordered x := by
  unfold State.tickChannels
  repeat' first | with_reducible apply ordered_ite_iff | simp

@[simp] theorem State.thawChannels_ordered (x_) : Ordered (State.thawChannels x x_) ↔ Ordered x := by
  unfold State.thawChannels
  simp

@[simp] theorem State.moverResume_ordered : Ordered (State.moverResume x) ↔ Ordered x := by
  unfold State.moverResume
  simp

@[simp] theorem execReqLineRequest_ordered (line data src dst) : OrderedNext (execReqLineRequest line data src dst x) ↔ Ordered x :=
  orderedNext_next.trans (State.lineRequest_ordered ..)

@[simp] theorem State.gcfgWrite_ordered (v) : Ordered (State.gcfgWrite x v) ↔ Ordered x := by
  unfold State.gcfgWrite
  simp only [ordered_ite, raise_ordered, fset_ordered, onMov_ordered, ite_self]

@[simp] theorem State.engineShown_ordered (v) : Ordered (State.engineShown x v) ↔ Ordered x := by
  unfold State.engineShown
  simp

@[simp] theorem State.swchApply_ordered : Ordered (State.swchApply x) ↔ Ordered x := by
  unfold State.swchApply
  repeat' first | with_reducible apply ordered_ite_iff | simp | split

@[simp] theorem execMovSwchWrite_ordered (v) : OrderedNext (execMovSwchWrite v x) ↔ Ordered x := by
  unfold execMovSwchWrite
  simp

@[simp] theorem execSwchApply_ordered : OrderedNext (execSwchApply x) ↔ Ordered x :=
  orderedNext_next.trans State.swchApply_ordered

@[simp] theorem State.movedBefore_ordered (n src dst) : Ordered (State.movedBefore x n src dst) ↔ Ordered x := by
  unfold State.movedBefore
  simp

@[simp] theorem State.chanHostError_ordered (n flush desc src dst) : Ordered (State.chanHostError x n flush desc src dst) ↔ Ordered x := by
  unfold State.chanHostError
  simp

@[simp] theorem State.flushAgain_ordered (n desc src dst) : Ordered (State.flushAgain x n desc src dst) ↔ Ordered x := by
  unfold State.flushAgain
  simp

@[simp] theorem State.workFailed_ordered (w) : Ordered (State.workFailed x w) ↔ Ordered x := by
  unfold State.workFailed
  (repeat' first | with_reducible apply ordered_ite_iff | split) <;> simp

@[simp] theorem State.engineShow_ordered (n w) : Ordered (State.engineShow x n w) ↔ Ordered x := by
  unfold State.engineShow
  simp

@[simp] theorem State.chanReadFail_ordered (n a flush desc src dst t) : Ordered (State.chanReadFail x n a flush desc src dst t) ↔ Ordered x := by
  unfold State.chanReadFail
  repeat' first | with_reducible apply ordered_ite_iff | simp

@[simp] theorem State.engineReadFail_ordered (w a t) : Ordered (State.engineReadFail x w a t) ↔ Ordered x := by
  unfold State.engineReadFail
  simp only [ordered_ite, chanTo_ordered, onChan_ordered, engineShow_ordered, workFailed_ordered, count_ordered, raiseN_ordered, chanStatus_ordered,
    ite_self]

@[simp] theorem State.readFail_ordered (w a desc src dst t) : Ordered (State.readFail x w a desc src dst t) ↔ Ordered x := by
  unfold State.readFail
  split <;> simp

@[simp] theorem State.moverRetry_ordered (w t) : Ordered (State.moverRetry x w t) ↔ Ordered x := by
  unfold State.moverRetry
  repeat' first | with_reducible apply ordered_ite_iff | simp | split

@[simp] theorem State.fenceChannels_ordered (x_) : Ordered (State.fenceChannels x x_) ↔ Ordered x := by
  unfold State.fenceChannels
  simp

@[simp] theorem State.dryBoundary_ordered (n) : Ordered (State.dryBoundary x n) ↔ Ordered x := by
  unfold State.dryBoundary
  simp

@[simp] theorem State.readError_ordered (w attempt tlp) : Ordered (State.readError x w attempt tlp) ↔ Ordered x := by
  unfold State.readError
  repeat' first | with_reducible apply ordered_ite_iff | simp | split

@[simp] theorem execHostReadFail_ordered (w attempt desc src dst tlp t) :
    OrderedNext (execHostReadFail w attempt desc src dst tlp t x) ↔ Ordered x :=
  orderedNext_next.trans ((State.readFail_ordered ..).trans ((State.readError_ordered ..).trans (State.at_ordered ..)))

@[simp] theorem execMoverRetry_ordered (w t) : OrderedNext (execMoverRetry w t x) ↔ Ordered x :=
  orderedNext_next.trans ((State.moverRetry_ordered ..).trans (State.at_ordered ..))

@[simp] theorem execMoverDryBoundary_ordered (n) : OrderedNext (execMoverDryBoundary n x) ↔ Ordered x :=
  orderedNext_next.trans (State.dryBoundary_ordered ..)

@[simp] theorem execMovStsRead_ordered (n both) : OrderedNext (execMovStsRead n both x) ↔ Ordered x := by
  unfold execMovStsRead
  simp

@[simp] theorem execMovGevtRead_ordered (both) : OrderedNext (execMovGevtRead both x) ↔ Ordered x := by
  unfold execMovGevtRead
  simp

/-! ### Machine/Twin.lean -/

@[simp] theorem State.twinAck_ordered : Ordered (State.twinAck x) ↔ Ordered x :=
  emit_ordered ..

@[simp] theorem State.twinRetry_ordered : Ordered (State.twinRetry x) ↔ Ordered x := by
  unfold State.twinRetry
  simp

@[simp] theorem State.twinAccept_ordered (lseq) : Ordered (State.twinAccept x lseq) ↔ Ordered x :=
  twinAck_ordered.trans (onTwin_ordered ..)

@[simp] theorem State.twinSeq_ordered (lseq beat body) (hb : ∀ y, Ordered (body y) ↔ Ordered y) :
    Ordered (State.twinSeq x lseq beat body) ↔ Ordered x := by
  unfold State.twinSeq
  repeat' first | with_reducible apply ordered_ite_iff | simp [hb]

@[simp] theorem State.twinTake_ordered (kind m body) (hb : ∀ y b1, Ordered (body b1 y) ↔ Ordered y) :
    Ordered (State.twinTake x kind m body) ↔ Ordered x := by
  unfold State.twinTake
  (repeat' first | with_reducible apply ordered_ite_iff | split) <;> simp [hb]

@[simp] theorem State.twinLoosely_ordered (kind m body) (hb : ∀ y b1, Ordered (body b1 y) ↔ Ordered y) :
    Ordered (State.twinLoosely x kind m body) ↔ Ordered x := by
  unfold State.twinLoosely
  (repeat' first | with_reducible apply ordered_ite_iff | split) <;> simp [hb]

@[simp] theorem State.twinDown_ordered : Ordered (State.twinDown x) ↔ Ordered x := by
  unfold State.twinDown
  simp

@[simp] theorem State.tokenSend_ordered (n typ arg frame t) : Ordered (State.tokenSend x n typ arg frame t) ↔ Ordered x :=
  (onTree_ordered ..).trans (sendCtl_ordered ..)

@[simp] theorem State.tokenRelease_ordered (n frame) : Ordered (State.tokenRelease x n frame) ↔ Ordered x :=
  (onTree_ordered ..).trans (sendCtl_ordered ..)

@[simp] theorem State.tokenQuery_ordered (n t) : Ordered (State.tokenQuery x n t) ↔ Ordered x :=
  tokenSend_ordered ..

@[simp] theorem State.tokenClaim_ordered (n forced frame t) : Ordered (State.tokenClaim x n forced frame t) ↔ Ordered x :=
  tokenSend_ordered ..

@[simp] theorem State.claimTree_ordered (n forced frame byPolicy cmd notBefore t) :
    Ordered (State.claimTree x n forced frame byPolicy cmd notBefore t) ↔ Ordered x := by
  unfold State.claimTree
  simp

@[simp] theorem State.claimOver_ordered (n granted) : Ordered (State.claimOver x n granted) ↔ Ordered x := by
  unfold State.claimOver
  dsimp only
  repeat' first | with_reducible apply ordered_ite_iff | simp only [onTree_ordered, cmdDone_ordered, onCmd_ordered] | split

@[simp] theorem State.takeTree_ordered (n frame t) : Ordered (State.takeTree x n frame t) ↔ Ordered x := by
  unfold State.takeTree
  simp

@[simp] theorem State.coldTree_ordered (n) : Ordered (State.coldTree x n) ↔ Ordered x :=
  (onTwin_ordered ..).trans ((twinEvent_ordered ..).trans ((raise_ordered ..).trans (fset_ordered ..)))

@[simp] theorem State.loseTree_ordered (n) : Ordered (State.loseTree x n) ↔ Ordered x := by
  unfold State.loseTree
  simp

@[simp] theorem State.takeoverTrigger_ordered (n notBefore t) : Ordered (State.takeoverTrigger x n notBefore t) ↔ Ordered x := by
  unfold State.takeoverTrigger
  dsimp only
  repeat' first | with_reducible apply ordered_ite_iff | simp only [policyRead_ordered, advise_ordered, claimTree_ordered] | split

@[simp] theorem State.pairTick_ordered : Ordered (State.pairTick x) ↔ Ordered x := by
  unfold State.pairTick
  split <;> simp

@[simp] theorem State.beatSend_ordered (tTx) : Ordered (State.beatSend x tTx) ↔ Ordered x := by
  unfold State.beatSend
  repeat' first | with_reducible apply ordered_ite_iff | simp only [twinSend_ordered, ordered_ite, onTwin_ordered, ite_self]

@[simp] theorem State.beatTimes_ordered (t1 t2 t3 t4) : Ordered (State.beatTimes x t1 t2 t3 t4) ↔ Ordered x := by
  unfold State.beatTimes
  simp

@[simp] theorem State.beatFlag_ordered (peerQ peerFlag) : Ordered (State.beatFlag x peerQ peerFlag) ↔ Ordered x := by
  unfold State.beatFlag
  dsimp only
  repeat' first
    | with_reducible apply ordered_ite_iff
    | simp only [twinEvent_ordered, raise_ordered, ordered_ite, fset_ordered, onTwin_ordered, ite_self]

@[simp] theorem State.beatPair_ordered (pairId major minor gen) : Ordered (State.beatPair x pairId major minor gen) ↔ Ordered x := by
  unfold State.beatPair
  simp only [ordered_ite, twinEvent_ordered, onTwin_ordered, fset_ordered, ite_self]

@[simp] theorem State.beatTaken_ordered (p t) : Ordered (State.beatTaken x p t) ↔ Ordered x := by
  unfold State.beatTaken
  simp

@[simp] theorem State.shadowRecord_ordered (h_ b) : Ordered (State.shadowRecord x h_ b) ↔ Ordered x := by
  unfold State.shadowRecord
  dsimp only
  repeat' first
    | with_reducible apply ordered_ite_iff
    | simp only [onTwin_ordered, count_ordered, fset_ordered, ordered_ite, onCtx_ordered, ctxChange_ordered, ctxGet_ordered, ite_self]
    | split

@[simp] theorem State.shadowRecords_ordered (h_ n b) : Ordered (State.shadowRecords x h_ n b) ↔ Ordered x := by
  fun_induction State.shadowRecords x h_ n b <;> simp_all

@[simp] theorem State.shadowMsgs_ordered (n l) : Ordered (State.shadowMsgs x n l) ↔ Ordered x := by
  fun_induction State.shadowMsgs x n l <;> simp_all

@[simp] theorem State.shadowTree_ordered (h_ n) : Ordered (State.shadowTree x h_ n) ↔ Ordered x := by
  unfold State.shadowTree
  simp only [onTree_ordered, onTwin_ordered, onCtx_ordered, implies_true, ordered_foldl, shadowMsgs_ordered]

@[simp] theorem State.shadowTick_ordered (h_) : Ordered (State.shadowTick x h_) ↔ Ordered x := by
  unfold State.shadowTick
  simp

@[simp] theorem State.mirrorApply_ordered (p) : Ordered (State.mirrorApply x p) ↔ Ordered x := by
  unfold State.mirrorApply
  dsimp only
  (repeat' first | with_reducible apply ordered_ite_iff | split) <;> simp

@[simp] theorem State.heldAccept_ordered (eph n p) : Ordered (State.heldAccept x eph n p) ↔ Ordered x := by
  unfold State.heldAccept
  dsimp only
  (repeat' first | with_reducible apply ordered_ite_iff | split) <;> simp

@[simp] theorem State.mconfTaken_ordered (m t) : Ordered (State.mconfTaken x m t) ↔ Ordered x := by
  unfold State.mconfTaken
  simp

@[simp] theorem State.heldDrop_ordered : Ordered (State.heldDrop x) ↔ Ordered x :=
  onTwin_ordered ..

@[simp] theorem State.outTick_ordered (t) : Ordered (State.outTick x t) ↔ Ordered x := by
  unfold State.outTick
  simp

@[simp] theorem State.ownStart_ordered (h_ n) : Ordered (State.ownStart x h_ n) ↔ Ordered x := by
  unfold State.ownStart
  simp

@[simp] theorem State.twinCfgWrite_ordered (v) : Ordered (State.twinCfgWrite x v) ↔ Ordered x := by
  unfold State.twinCfgWrite
  dsimp only
  (repeat' first | with_reducible apply ordered_ite_iff | split) <;> simp

@[simp] theorem execTwinEnable_ordered (v) : OrderedNext (execTwinEnable v x) ↔ Ordered x := by
  unfold execTwinEnable
  simp

@[simp] theorem execTwinLinkUp_ordered : OrderedNext (execTwinLinkUp x) ↔ Ordered x := by
  unfold execTwinLinkUp
  simp

@[simp] theorem execTwinLinkDown_ordered : OrderedNext (execTwinLinkDown x) ↔ Ordered x :=
  orderedNext_next.trans State.twinDown_ordered

@[simp] theorem State.twinFreed_ordered (lseq) : Ordered (State.twinFreed x lseq) ↔ Ordered x := by
  unfold State.twinFreed
  simp only [ordered_ite, twinDrain_ordered, onTwin_ordered, ite_self]

@[simp] theorem State.twinReplay_ordered (lseq) : Ordered (State.twinReplay x lseq) ↔ Ordered x := by
  unfold State.twinReplay
  simp

@[simp] theorem execTwinAckReceive_ordered (m) : OrderedNext (execTwinAckReceive m x) ↔ Ordered x := by
  unfold execTwinAckReceive
  simp

@[simp] theorem execTwinRetryReceive_ordered (m) : OrderedNext (execTwinRetryReceive m x) ↔ Ordered x := by
  unfold execTwinRetryReceive
  simp

@[simp] theorem execReplayTimeout_ordered (l t tTx) : OrderedNext (execReplayTimeout l t tTx x) ↔ Ordered x := by
  unfold execReplayTimeout
  dsimp only
  (repeat' split) <;> simp

@[simp] theorem execBeatReceive_ordered (m t) : OrderedNext (execBeatReceive m t x) ↔ Ordered x := by
  unfold execBeatReceive
  simp

@[simp] theorem execBeatMissed_ordered (t) : OrderedNext (execBeatMissed t x) ↔ Ordered x := by
  unfold execBeatMissed
  simp

@[simp] theorem execShadowReceive_ordered (m h_) : OrderedNext (execShadowReceive m h_ x) ↔ Ordered x := by
  unfold execShadowReceive
  simp

@[simp] theorem execMirrorReceive_ordered (m) : OrderedNext (execMirrorReceive m x) ↔ Ordered x := by
  unfold execMirrorReceive
  repeat' first
    | with_reducible apply orderedNext_ite_iff
    | simp only [orderedNext_next, ordered_ite, State.twinSend_ordered, State.onTwin_ordered, State.mirrorApply_ordered, ite_self, implies_true,
        State.twinTake_ordered]

@[simp] theorem execMconfReceive_ordered (m t) : OrderedNext (execMconfReceive m t x) ↔ Ordered x := by
  unfold execMconfReceive
  simp

@[simp] theorem execMconfLate_ordered (t) : OrderedNext (execMconfLate t x) ↔ Ordered x := by
  unfold execMconfLate
  simp

@[simp] theorem execHandoverSend_ordered (n) : OrderedNext (execHandoverSend n x) ↔ Ordered x := by
  unfold execHandoverSend
  (repeat' first | with_reducible apply orderedNext_ite_iff | split) <;> simp

@[simp] theorem execHandoverReceive_ordered (m t) : OrderedNext (execHandoverReceive m t x) ↔ Ordered x := by
  unfold execHandoverReceive
  repeat' first
    | with_reducible apply orderedNext_ite_iff
    | simp only [orderedNext_next, ordered_ite, State.takeoverTrigger_ordered, State.onTree_ordered, State.claimTree_ordered, ite_self,
        implies_true, ordered_foldl, State.lateRefusal_ordered, State.twinTake_ordered, State.at_ordered]

@[simp] theorem execTokenMsgRepeat_ordered (n release t) : OrderedNext (execTokenMsgRepeat n release t x) ↔ Ordered x := by
  unfold execTokenMsgRepeat
  dsimp only
  repeat' first | with_reducible apply orderedNext_ite_iff | simp | split

@[simp] theorem execTokenStateReceive_ordered (n arg t) : OrderedNext (execTokenStateReceive n arg t x) ↔ Ordered x := by
  unfold execTokenStateReceive
  dsimp only
  repeat' first
    | with_reducible apply orderedNext_ite_iff
    | simp only [orderedNext_next, State.at_ordered, ordered_ite, State.claimOver_ordered, State.takeTree_ordered, State.onTree_ordered,
        State.loseTree_ordered, ite_self, State.tokenClaim_ordered]
    | split

@[simp] theorem execTokenGrantReceive_ordered (n arg frameNo t) : OrderedNext (execTokenGrantReceive n arg frameNo t x) ↔ Ordered x := by
  unfold execTokenGrantReceive
  dsimp only
  repeat' first | with_reducible apply orderedNext_ite_iff | simp | split

@[simp] theorem execTokenDenyReceive_ordered (n arg) : OrderedNext (execTokenDenyReceive n arg x) ↔ Ordered x := by
  unfold execTokenDenyReceive
  (repeat' first | with_reducible apply orderedNext_ite_iff | split) <;> simp

@[simp] theorem execTokenLostReceive_ordered (n arg) : OrderedNext (execTokenLostReceive n arg x) ↔ Ordered x := by
  unfold execTokenLostReceive
  simp

@[simp] theorem State.claimFor_ordered (forced cmd t n) : Ordered (State.claimFor x forced cmd t n) ↔ Ordered x := by
  unfold State.claimFor
  simp

@[simp] theorem State.claimsTick_ordered : Ordered (State.claimsTick x) ↔ Ordered x := by
  unfold State.claimsTick
  refine ordered_foldl _ fun y n => ?_
  split <;> simp

@[simp] theorem State.claimCmd_ordered (forced t c) : Ordered (State.claimCmd x forced t c) ↔ Ordered x := by
  unfold State.claimCmd
  simp

@[simp] theorem State.releaseCmd_ordered (c) : Ordered (State.releaseCmd x c) ↔ Ordered x := by
  unfold State.releaseCmd
  repeat' first
    | with_reducible apply ordered_ite_iff
    | simp only [cmdDone_ordered, ordered_ite, tokenRelease_ordered, implies_true, ordered_foldl, twinSend_ordered, ite_self]

@[simp] theorem execTwinClaim_ordered (r d t) : OrderedNext (execTwinClaim r d t x) ↔ Ordered x := by
  unfold execTwinClaim
  simp

@[simp] theorem execTwinForce_ordered (r d t) : OrderedNext (execTwinForce r d t x) ↔ Ordered x := by
  unfold execTwinForce
  simp

@[simp] theorem execTwinRelease_ordered (r d t) : OrderedNext (execTwinRelease r d t x) ↔ Ordered x := by
  unfold execTwinRelease
  simp

@[simp] theorem execTwinQuery_ordered (r d) : OrderedNext (execTwinQuery r d x) ↔ Ordered x := by
  unfold execTwinQuery
  repeat' first
    | with_reducible apply orderedNext_ite_iff
    | simp only [orderedNext_next, ordered_ite, State.cmdDone_ordered, ite_self, implies_true, State.withCmd_ordered]

@[simp] theorem execTwnEvtRead_ordered (both) : OrderedNext (execTwnEvtRead both x) ↔ Ordered x := by
  unfold execTwnEvtRead
  simp

/-! ### Machine/Mailbox.lean -/

@[simp] theorem State.mbxEvent_ordered (n tenant what len) : Ordered (State.mbxEvent x n tenant what len) ↔ Ordered x := by
  unfold State.mbxEvent
  simp

@[simp] theorem State.mbxPost_ordered (n tenant v) : Ordered (State.mbxPost x n tenant v) ↔ Ordered x := by
  unfold State.mbxPost
  simp only [ordered_ite, mbxEvent_ordered, raiseN_ordered, countN_ordered, onSlice_ordered, ite_self]

@[simp] theorem State.mbxPop_ordered (n tenant v) : Ordered (State.mbxPop x n tenant v) ↔ Ordered x := by
  unfold State.mbxPop
  dsimp only
  repeat' first | with_reducible apply ordered_ite_iff | simp | split

@[simp] theorem State.mbxReset_ordered (n) : Ordered (State.mbxReset x n) ↔ Ordered x := by
  unfold State.mbxReset
  simp

@[simp] theorem execMbmPost_ordered (n v) : OrderedNext (execMbmPost n v x) ↔ Ordered x := by
  unfold execMbmPost
  simp

@[simp] theorem execMbtPost_ordered (n v) : OrderedNext (execMbtPost n v x) ↔ Ordered x := by
  unfold execMbtPost
  simp

@[simp] theorem execMbmPop_ordered (n v) : OrderedNext (execMbmPop n v x) ↔ Ordered x := by
  unfold execMbmPop
  simp

@[simp] theorem execMbtPop_ordered (n v) : OrderedNext (execMbtPop n v x) ↔ Ordered x := by
  unfold execMbtPop
  simp

@[simp] theorem execMbmEvtRead_ordered (n both) : OrderedNext (execMbmEvtRead n both x) ↔ Ordered x := by
  unfold execMbmEvtRead
  simp

@[simp] theorem execMbtEvtRead_ordered (n both) : OrderedNext (execMbtEvtRead n both x) ↔ Ordered x := by
  unfold execMbtEvtRead
  simp

@[simp] theorem execSltEvtRead_ordered (n both) : OrderedNext (execSltEvtRead n both x) ↔ Ordered x := by
  unfold execSltEvtRead
  simp

/-! ### Machine/Slices.lean -/

@[simp] theorem State.toSlice_ordered (n st) : Ordered (State.toSlice x n st) ↔ Ordered x :=
  fsetN_ordered ..

@[simp] theorem State.sliceEvent_ordered (n what status hi) : Ordered (State.sliceEvent x n what status hi) ↔ Ordered x :=
  event1_ordered ..

@[simp] theorem State.sliceAudit_ordered (n what) : Ordered (State.sliceAudit x n what) ↔ Ordered x :=
  auditRecord_ordered ..

@[simp] theorem State.sharesCleared_ordered (n) : Ordered (State.sharesCleared x n) ↔ Ordered x :=
  (onDeal_ordered ..).trans (onSched_ordered ..)

@[simp] theorem State.bindSlice_ordered (n) : Ordered (State.bindSlice x n) ↔ Ordered x := by
  unfold State.bindSlice
  simp

@[simp] theorem State.resetWork_ordered (n self) : Ordered (State.resetWork x n self) ↔ Ordered x := by
  unfold State.resetWork
  extract_lets gone spill full ids keep hands s1 s2 s3 s4 s5
  have h1 : Ordered s1 ↔ Ordered x := ordered_foldl _ fun y a => by (repeat' split) <;> simp only [onTwin_ordered, cmdDone_ordered]
  repeat' first
    | with_reducible apply ordered_ite_iff
    | simp only [cmdsDone_ordered, onCmgr_ordered, ordered_mk, rising_regs, ordered_ite, spillEvent_ordered, onDeal_ordered, h1, ite_self, s5, s4,
        s3, s2]

@[simp] theorem State.resetWire_ordered (n) : Ordered (State.resetWire x n) ↔ Ordered x :=
  onTwin_ordered ..

@[simp] theorem State.resetBatches_ordered (n) : Ordered (State.resetBatches x n) ↔ Ordered x := by
  unfold State.resetBatches
  dsimp only
  rw [State.startBatch_ordered, State.onSched_ordered]
  refine ordered_foldl _ fun y a => ?_
  split <;> simp

@[simp] theorem State.resetContexts_ordered (n) : Ordered (State.resetContexts x n) ↔ Ordered x :=
  (queueBatch_ordered ..).trans (ctxAll_ordered ..)

@[simp] theorem State.resetRings_ordered (n) : Ordered (State.resetRings x n) ↔ Ordered x :=
  (mbxReset_ordered ..).trans ((onSmp_ordered ..).trans ((endCmds_ordered ..).trans (onDeal_ordered ..)))

@[simp] theorem State.resetStart_ordered (n c disabling) : Ordered (State.resetStart x n c disabling) ↔ Ordered x := by
  unfold State.resetStart
  simp

@[simp] theorem State.resetDone_ordered (n) : Ordered (State.resetDone x n) ↔ Ordered x := by
  unfold State.resetDone
  (repeat' first | with_reducible apply ordered_ite_iff | split) <;> simp

@[simp] theorem State.unhand_ordered (n) : Ordered (State.unhand x n) ↔ Ordered x := by
  unfold State.unhand
  refine ordered_foldl _ fun y a => (ordered_foldl _ fun z b => ?_).trans (State.onDeal_ordered _)
  dsimp only
  split <;> simp

@[simp] theorem State.freezeTick_ordered (n) : Ordered (State.freezeTick x n) ↔ Ordered x := by
  unfold State.freezeTick
  repeat' first | with_reducible apply ordered_ite_iff | simp

@[simp] theorem State.frozen_ordered (h_ n) : Ordered (State.frozen x h_ n) ↔ Ordered x := by
  unfold State.frozen
  (repeat' first | with_reducible apply ordered_ite_iff | split) <;> simp

@[simp] theorem State.thawTick_ordered (n) : Ordered (State.thawTick x n) ↔ Ordered x := by
  unfold State.thawTick
  repeat' first
    | with_reducible apply ordered_ite_iff
    | simp only [releaseStep_ordered, refresh_ordered, cmdDone_ordered, sliceEvent_ordered, raiseN_ordered, ordered_ite, vecDue_ordered, ite_self,
        implies_true, ordered_foldl, thawChannels_ordered, onSlice_ordered, fsetN_ordered, toSlice_ordered]
    | split

@[simp] theorem State.reloadTick_ordered (n) : Ordered (State.reloadTick x n) ↔ Ordered x := by
  unfold State.reloadTick
  simp

@[simp] theorem State.windowTick_ordered (h_ n) : Ordered (State.windowTick x h_ n) ↔ Ordered x := by
  unfold State.windowTick
  simp

@[simp] theorem State.poolCut_ordered (h_ units) : Ordered (State.poolCut x h_ units) ↔ Ordered x := by
  unfold State.poolCut
  repeat' first
    | with_reducible apply ordered_ite_iff
    | simp only [sliceEvent_ordered, raiseN_ordered, implies_true, ordered_foldl, onCtx_ordered, ctxAll_ordered, onSlice_ordered, ordered_ite,
        ctxLand_ordered, ite_self]

@[simp] theorem State.onSliceCmd_ordered (c body) (hb : ∀ y b1, Ordered (body b1 y) ↔ Ordered y) :
    Ordered (State.onSliceCmd x c body) ↔ Ordered x := by
  unfold State.onSliceCmd
  simp [hb]

@[simp] theorem State.inState_ordered (c states body) (hb : ∀ y b1, Ordered (body b1 y) ↔ Ordered y) :
    Ordered (State.inState x c states body) ↔ Ordered x := by
  unfold State.inState
  repeat' first | with_reducible apply ordered_ite_iff | simp only [ordered_ite, hb, cmdDone_ordered, ite_self, implies_true, onSliceCmd_ordered]

@[simp] theorem execSliceEnable_ordered (r d) : OrderedNext (execSliceEnable r d x) ↔ Ordered x := by
  unfold execSliceEnable
  repeat' first
    | with_reducible apply orderedNext_ite_iff
    | simp only [orderedNext_next, ordered_ite, State.cmdDone_ordered, State.integrity_ordered, State.sliceAudit_ordered, State.sliceEvent_ordered,
        State.toSlice_ordered, State.bindSlice_ordered, ite_self, implies_true, State.inState_ordered, State.withCmd_ordered]

@[simp] theorem execSliceDisable_ordered (r d others) : OrderedNext (execSliceDisable r d others x) ↔ Ordered x := by
  unfold execSliceDisable
  simp

@[simp] theorem execSliceRingAllot_ordered (r d) : OrderedNext (execSliceRingAllot r d x) ↔ Ordered x := by
  unfold execSliceRingAllot
  simp

@[simp] theorem execSliceRingReclaim_ordered (r d) : OrderedNext (execSliceRingReclaim r d x) ↔ Ordered x := by
  unfold execSliceRingReclaim
  rw [orderedNext_next]
  refine State.withCmd_ordered _ _ _ _ _ fun y c => ?_
  dsimp only
  (repeat' split) <;> simp

@[simp] theorem execSliceShare_ordered (r d) : OrderedNext (execSliceShare r d x) ↔ Ordered x := by
  unfold execSliceShare
  simp

@[simp] theorem execSliceReset_ordered (r d) : OrderedNext (execSliceReset r d x) ↔ Ordered x := by
  unfold execSliceReset
  simp

@[simp] theorem execSliceResetDone_ordered (n) : OrderedNext (execSliceResetDone n x) ↔ Ordered x :=
  orderedNext_next.trans (State.resetDone_ordered ..)

@[simp] theorem execSliceFreeze_ordered (r d) : OrderedNext (execSliceFreeze r d x) ↔ Ordered x := by
  unfold execSliceFreeze
  simp

@[simp] theorem execSliceFrozen_ordered (n h_) : OrderedNext (execSliceFrozen n h_ x) ↔ Ordered x :=
  orderedNext_next.trans (State.frozen_ordered ..)

@[simp] theorem execSliceThaw_ordered (r d) : OrderedNext (execSliceThaw r d x) ↔ Ordered x := by
  unfold execSliceThaw
  simp

@[simp] theorem execSliceQuery_ordered (r d others) : OrderedNext (execSliceQuery r d others x) ↔ Ordered x := by
  unfold execSliceQuery
  simp

/-! ### Machine/Images.lean -/

@[simp] theorem State.saveImage_ordered (n others migrate frame idx b) : Ordered (State.saveImage x n others migrate frame idx b) ↔ Ordered x := by
  unfold State.saveImage
  simp only [ordered_ite, cmdDone_ordered, sliceEvent_ordered, emits_ordered, ite_self]

@[simp] theorem State.sliceSave_ordered (c others) : Ordered (State.sliceSave x c others) ↔ Ordered x := by
  unfold State.sliceSave
  simp only [ordered_ite, cmdDone_ordered, onSlice_ordered, onCmd_ordered, ite_self, saveImage_ordered]

@[simp] theorem State.saveTick_ordered (frame n) : Ordered (State.saveTick x frame n) ↔ Ordered x := by
  unfold State.saveTick
  dsimp only
  (repeat' first | with_reducible apply ordered_ite_iff | split) <;> simp

@[simp] theorem State.contextFits_ordered (h_ b n migrate c) : Ordered (State.contextFits x h_ b n migrate c).1 ↔ Ordered x := by
  unfold State.contextFits
  dsimp only
  repeat' first | with_reducible apply ordered_ite_iff | simp only [ctxGet_ordered] | split

@[simp] theorem State.contextsFit_ordered (h_ b n migrate l) : Ordered (State.contextsFit x h_ b n migrate l).1 ↔ Ordered x := by
  induction l generalizing x with
  | nil => rfl
  | cons c r ih =>
    unfold State.contextsFit
    have hs : Ordered (x.contextFits h_ b n migrate c).1 ↔ Ordered x := by simp
    generalize x.contextFits h_ b n migrate c = v at hs ⊢
    obtain ⟨s1, c', st⟩ := v
    dsimp only at hs ⊢
    split <;> simp [ih, hs]

@[simp] theorem State.restoreCtx_ordered (h_ c bytes lens) : Ordered (State.restoreCtx x h_ c bytes lens) ↔ Ordered x := by
  unfold State.restoreCtx
  simp

@[simp] theorem State.restoreRings_ordered (b n) : Ordered (State.restoreRings x b n) ↔ Ordered x := by
  unfold State.restoreRings
  refine ordered_foldl _ fun y a => ?_
  split <;> simp

@[simp] theorem State.restoreTaken_ordered (eph w) : Ordered (State.restoreTaken x eph w).1 ↔ Ordered x := by
  unfold State.restoreTaken
  dsimp only
  (repeat' split) <;> simp

@[simp] theorem State.restoreEntry_ordered (n w imgs bufs rest) : Ordered (State.restoreEntry x n w imgs bufs rest) ↔ Ordered x := by
  unfold State.restoreEntry
  dsimp only
  repeat' first | with_reducible apply ordered_ite_iff | simp only [onDeal_ordered, ordered_mk, rising_regs] | split

@[simp] theorem State.restoreEntries_ordered (b n migrate tds data) : Ordered (State.restoreEntries x b n migrate tds data) ↔ Ordered x := by
  unfold State.restoreEntries
  extract_lets cnt ofs s1
  have h1 : Ordered s1 ↔ Ordered x := ordered_foldl _ fun y i => by
    extract_lets +onlyGivenNames z eph w later notDone got rest
    have ht : Ordered (if y.classOf eph == 3 then y.restoreTaken eph w else (y, rest)).1 ↔ Ordered y := by split <;> simp
    clear_value rest
    generalize (if y.classOf eph == 3 then y.restoreTaken eph w else (y, rest)) = v at ht ⊢
    simp [ht]
  simp [h1]

@[simp] theorem State.restoreShares_ordered (b n) : Ordered (State.restoreShares x b n) ↔ Ordered x := by
  unfold State.restoreShares
  simp

@[simp] theorem State.sliceRestore_ordered (c img tds cuts h_) : Ordered (State.sliceRestore x c img tds cuts h_) ↔ Ordered x := by
  unfold State.sliceRestore
  extract_lets +onlyGivenNames n migrate fail
  have hf (y : State) (st : Nat) : Ordered (fail y st) ↔ Ordered y := State.cmdDone_ordered _ _ _ _
  refine ordered_ite_iff (hf _ _) (ordered_ite_iff (hf _ _) (ordered_ite_iff ((hf _ _).trans (State.integrity_ordered _ _ _ _ _))
    (ordered_ite_iff (hf _ _) ?_)))
  split
  · exact hf _ _
  extract_lets +onlyGivenNames b
  refine ordered_ite_iff (hf _ _) (ordered_ite_iff (hf _ _) ?_)
  extract_lets +onlyGivenNames g src s1
  have h1 : Ordered (s1.contextsFit h_ b n migrate src).1 ↔ Ordered x := by simp [s1]
  generalize s1.contextsFit h_ b n migrate src = p at h1 ⊢
  obtain ⟨s2, ctxs, st⟩ := p
  dsimp -zeta -zetaHave only at h1 ⊢
  refine ordered_ite_iff (hf _ _) ?_
  extract_lets +onlyGivenNames data bytesOf s3 changes bat
  have h3 : Ordered (s3.changesCheck h_ bat 0 [] changes).1 ↔ Ordered x := by simp [s3, h1]
  generalize s3.changesCheck h_ bat 0 [] changes = q at h3 ⊢
  obtain ⟨s3, f1⟩ := q
  dsimp -zeta -zetaHave only at h3 ⊢
  extract_lets +onlyGivenNames staged f2 f3 refuse
  have hr (f : AdmFail) : Ordered (refuse f) ↔ Ordered x := by simp [refuse]
  split
  · exact hr _
  · exact hr _
  extract_lets +onlyGivenNames s4 s50 s5 hubs s6
  have h5 : Ordered s5 ↔ Ordered x := by simp [s5, s50, s4, h3]
  simp [s6, h5]

@[simp] theorem execSliceSave_ordered (r d others) : OrderedNext (execSliceSave r d others x) ↔ Ordered x := by
  unfold execSliceSave
  simp

@[simp] theorem execSliceRestore_ordered (r d img tds cuts h_) : OrderedNext (execSliceRestore r d img tds cuts h_ x) ↔ Ordered x := by
  unfold execSliceRestore
  repeat' first
    | with_reducible apply orderedNext_ite_iff
    | simp only [orderedNext_next, ordered_ite, State.sliceRestore_ordered, implies_true, State.withCmd_ordered, ite_self]

/-! ### Machine/Gather.lean -/

@[simp] theorem State.onSampleRing_ordered (c ring fixed body) (hb : ∀ y, Ordered (body y) ↔ Ordered y) :
    Ordered (State.onSampleRing x c ring fixed body) ↔ Ordered x := by
  unfold State.onSampleRing
  (repeat' first | with_reducible apply ordered_ite_iff | split) <;> simp [hb]

@[simp] theorem State.memberStatus_ordered (h_ ring g m deadline eph) : Ordered (State.memberStatus x h_ ring g m deadline eph).1 ↔ Ordered x := by
  unfold State.memberStatus
  dsimp only
  repeat' first | with_reducible apply ordered_ite_iff | simp only [ctxGet_ordered] | split

@[simp] theorem State.memberStatuses_ordered (h_ ring g deadline m l) : Ordered (State.memberStatuses x h_ ring g deadline m l).1 ↔ Ordered x := by
  induction l generalizing x m with
  | nil => rfl
  | cons m r ih =>
    simp [State.memberStatuses, ih]

@[simp] theorem State.gatherCreate_ordered (h_ img c) : Ordered (State.gatherCreate x h_ img c) ↔ Ordered x := by
  unfold State.gatherCreate
  (repeat' first | with_reducible apply ordered_ite_iff | split) <;> simp

@[simp] theorem State.gatherDestroy_ordered (c) : Ordered (State.gatherDestroy x c) ↔ Ordered x := by
  unfold State.gatherDestroy
  refine State.onSampleRing_ordered _ _ _ _ fun y => ?_
  dsimp only
  rw [State.slotsFreed_ordered, State.sampleDone_ordered, State.onGroup_ordered]
  refine ordered_foldl _ fun z a => ?_
  split <;> simp

@[simp] theorem State.gatherQuery_ordered (c) : Ordered (State.gatherQuery x c) ↔ Ordered x := by
  unfold State.gatherQuery
  refine State.onSampleRing_ordered _ _ _ _ fun y => ?_
  split
  · rename_i g _
    cases g.upTo <;> simp
  · rfl

@[simp] theorem State.triggerOk_ordered (h_ owner l) : Ordered (State.triggerOk x h_ owner l).1 ↔ Ordered x := by
  induction l generalizing x with
  | nil => rfl
  | cons e r ih =>
    simp [State.triggerOk, ih]

@[simp] theorem State.coderAttach_ordered (h_ img c) : Ordered (State.coderAttach x h_ img c) ↔ Ordered x := by
  unfold State.coderAttach
  dsimp only
  repeat' first | apply ordered_ite_iff | split
  all_goals simp

@[simp] theorem State.coderDetach_ordered (c) : Ordered (State.coderDetach x c) ↔ Ordered x := by
  unfold State.coderDetach
  simp

@[simp] theorem State.coderQuery_ordered (c) : Ordered (State.coderQuery x c) ↔ Ordered x := by
  unfold State.coderQuery
  dsimp only
  split
  · simp
  · refine State.onSampleRing_ordered _ _ _ _ fun y => ?_
    (repeat' split) <;> simp

@[simp] theorem execGatherCreate_ordered (r d img h_) : OrderedNext (execGatherCreate r d img h_ x) ↔ Ordered x := by
  unfold execGatherCreate
  simp

@[simp] theorem execGatherDestroy_ordered (r d) : OrderedNext (execGatherDestroy r d x) ↔ Ordered x := by
  unfold execGatherDestroy
  simp

@[simp] theorem execGatherQuery_ordered (r d) : OrderedNext (execGatherQuery r d x) ↔ Ordered x := by
  unfold execGatherQuery
  simp

@[simp] theorem execCoderAttach_ordered (r d img h_) : OrderedNext (execCoderAttach r d img h_ x) ↔ Ordered x := by
  unfold execCoderAttach
  simp

@[simp] theorem execCoderDetach_ordered (r d) : OrderedNext (execCoderDetach r d x) ↔ Ordered x := by
  unfold execCoderDetach
  simp

@[simp] theorem execCoderQuery_ordered (r d) : OrderedNext (execCoderQuery r d x) ↔ Ordered x := by
  unfold execCoderQuery
  simp

/-! ### Machine/Start.lean -/

@[simp] theorem State.recordWrite_ordered : Ordered (State.recordWrite x) ↔ Ordered x :=
  onHlt_ordered ..

@[simp] theorem State.healthEvent_ordered (what object value) : Ordered (State.healthEvent x what object value) ↔ Ordered x :=
  (event1_ordered ..).trans draw_ordered

@[simp] theorem State.healthEval_ordered : Ordered (State.healthEval x) ↔ Ordered x := by
  unfold State.healthEval
  repeat' first | with_reducible apply ordered_ite_iff | simp

@[simp] theorem State.startBase_ordered (keep) (h : Ordered x) : Ordered (State.startBase x keep) := by
  unfold State.startBase
  exact (Tbl.rising_foldl_put _ _ _ _).2 (Tbl.Rising.filter h _)

@[simp] theorem State.serviceUp_ordered (was) : Ordered (State.serviceUp x was) ↔ Ordered x := by
  unfold State.serviceUp
  simp

@[simp] theorem State.coldBase_ordered (region0) (h : Ordered x) : Ordered (State.coldBase x region0) := by
  unfold State.coldBase
  extract_lets fails starts off s1 s2 s3 r hours s4 em pw s5
  have h4 : Ordered s4 := by simp [s4, s3, s2, s1, h]
  exact (State.serviceUp_ordered _).2 (h4.congr rfl)

@[simp] theorem State.otpLoad_ordered (o) : Ordered (State.otpLoad x o) ↔ Ordered x := by
  unfold State.otpLoad
  simp

@[simp] theorem State.bistRows_ordered (l) : Ordered (State.bistRows x l) ↔ Ordered x := by
  unfold State.bistRows
  simp

@[simp] theorem State.loopback_ordered (mask) : Ordered (State.loopback x mask) ↔ Ordered x := by
  unfold State.loopback
  simp

@[simp] theorem State.coldSteps_ordered (i) : Ordered (State.coldSteps x i).1 ↔ Ordered x := by
  unfold State.coldSteps
  dsimp only
  (repeat' split) <;> simp

@[simp] theorem State.coldFailed_ordered (trial) : Ordered (State.coldFailed x trial) ↔ Ordered x :=
  (onHlt_ordered ..).trans (countN_ordered ..)

@[simp] theorem State.enterSafe_ordered : Ordered (State.enterSafe x) ↔ Ordered x := by
  unfold State.enterSafe
  simp

@[simp] theorem State.coldStarts_ordered (lost l) (h : Ordered x) : Ordered (State.coldStarts x lost l) := by
  induction l generalizing x lost with
  | nil => unfold State.coldStarts; split <;> simp [h]
  | cons i r ih =>
    unfold State.coldStarts
    have h2 : Ordered (if lost then (x.coldBase i.region0).raise .SEC_EVT_TRIAL_FAIL else x.coldBase i.region0) := by simp [h]
    dsimp only
    generalize (if lost then (x.coldBase i.region0).raise .SEC_EVT_TRIAL_FAIL else x.coldBase i.region0) = s2 at h2 ⊢
    split
    · simp [h2]
    · split
      · simp [h2]
      · exact ih _ (by simp [h2])

@[simp] theorem State.emberSave_ordered : Ordered (State.emberSave x) ↔ Ordered x :=
  onPwr_ordered ..

@[simp] theorem State.timResume_ordered (b sts deep t) : Ordered (State.timResume x b sts deep t) ↔ Ordered x :=
  retune_ordered.trans (errShow_ordered.trans ((fset_ordered ..).trans (onTim_ordered ..)))

@[simp] theorem State.portRestore_ordered (n) : Ordered (State.portRestore x n) ↔ Ordered x := by
  unfold State.portRestore
  simp

@[simp] theorem State.srcRestore_ordered (l) : Ordered (State.srcRestore x l) ↔ Ordered x := by
  unfold State.srcRestore
  simp

@[simp] theorem State.regionRestore_ordered (k deep t) : Ordered (State.regionRestore x k deep t) ↔ Ordered x := by
  unfold State.regionRestore
  dsimp only
  repeat' first
    | with_reducible apply ordered_ite_iff
    | simp only [timResume_ordered, ordered_mk, Tbl.rising_foldl_put, rising_regs, portRestore_ordered, implies_true, ordered_foldl,
        onSched_ordered, engineShown_ordered, srcRestore_ordered]
    | split

@[simp] theorem State.emberRestore_ordered (bad deep t) : Ordered (State.emberRestore x bad deep t) ↔ Ordered x := by
  unfold State.emberRestore
  simp

@[simp] theorem State.warmBase_ordered (h : Ordered x) : Ordered (State.warmBase x) := by
  unfold State.warmBase
  simp [h]

@[simp] theorem State.railsLow_ordered (l) : Ordered (State.railsLow x l) ↔ Ordered x :=
  (onPwr_ordered ..).trans (emits_ordered ..)

@[simp] theorem State.entryOver_ordered (st) : Ordered (State.entryOver x st) ↔ Ordered x := by
  unfold State.entryOver
  simp

@[simp] theorem State.deepEnter_ordered (h : Ordered x) : Ordered (State.deepEnter x) := by
  unfold State.deepEnter
  simp [h]

@[simp] theorem State.offEnter_ordered (h : Ordered x) : Ordered (State.offEnter x) := by
  unfold State.offEnter
  simp [h]

@[simp] theorem State.sleepEnter_ordered : Ordered (State.sleepEnter x) ↔ Ordered x := by
  unfold State.sleepEnter
  simp

@[simp] theorem State.thermalTrip_ordered (sensor t) (h : Ordered x) : Ordered (State.thermalTrip x sensor t) := by
  unfold State.thermalTrip
  simp [h]

@[simp] theorem State.warmStart_ordered (kind bad t) : Ordered (State.warmStart x kind bad t) ↔ Ordered x :=
  (fset_ordered ..).trans (emberRestore_ordered ..)

@[simp] theorem State.twinRestart_ordered : Ordered (State.twinRestart x) ↔ Ordered x := by
  unfold State.twinRestart
  simp

@[simp] theorem State.portsResume_ordered : Ordered (State.portsResume x) ↔ Ordered x := by
  unfold State.portsResume
  simp

/-! ### Machine/Health.lean -/

@[simp] theorem State.onBank_ordered (b f) : Ordered (State.onBank x b f) ↔ Ordered x :=
  onHlt_ordered ..

@[simp] theorem State.retireCmd_ordered (cmd status result) : Ordered (State.retireCmd x cmd status result) ↔ Ordered x := by
  unfold State.retireCmd
  split <;> simp

@[simp] theorem State.startRetire_ordered (b cmd) : Ordered (State.startRetire x b cmd) ↔ Ordered x := by
  unfold State.startRetire
  split <;> simp

@[simp] theorem State.startShrink_ordered (b cmd) : Ordered (State.startShrink x b cmd) ↔ Ordered x := by
  unfold State.startShrink
  (repeat' first | with_reducible apply ordered_ite_iff | split) <;> simp

@[simp] theorem State.retireBegin_ordered (w) : Ordered (State.retireBegin x w) ↔ Ordered x := by
  unfold State.retireBegin
  simp

@[simp] theorem State.retirePolicyTurn_ordered (w) : Ordered (State.retirePolicyTurn x w) ↔ Ordered x := by
  unfold State.retirePolicyTurn
  dsimp only
  repeat' first | with_reducible apply ordered_ite_iff | simp | split

@[simp] theorem State.retireNext_ordered : Ordered (State.retireNext x) ↔ Ordered x := by
  unfold State.retireNext
  (repeat' first | with_reducible apply ordered_ite_iff | split) <;> simp

@[simp] theorem State.retireWait_ordered (b shrink cmd) : Ordered (State.retireWait x b shrink cmd) ↔ Ordered x :=
  retireNext_ordered.trans (onHlt_ordered ..)

@[simp] theorem State.retirePolicy_ordered (b) : Ordered (State.retirePolicy x b) ↔ Ordered x := by
  unfold State.retirePolicy
  dsimp only
  repeat' first
    | with_reducible apply ordered_ite_iff
    | simp only [policyRead_ordered, retireWait_ordered, policyReport_ordered, advise_ordered]
    | split

@[simp] theorem State.sparesShow_ordered : Ordered (State.sparesShow x) ↔ Ordered x :=
  fset_ordered ..

@[simp] theorem State.retireTick_ordered (h_) : Ordered (State.retireTick x h_) ↔ Ordered x := by
  unfold State.retireTick
  (repeat' first | with_reducible apply ordered_ite_iff | split) <;> simp

@[simp] theorem State.bankCorrected_ordered (b t) : Ordered (State.bankCorrected x b t) ↔ Ordered x := by
  unfold State.bankCorrected
  simp

@[simp] theorem State.rowCorrected_ordered (a r) : Ordered (State.rowCorrected x a r) ↔ Ordered x := by
  unfold State.rowCorrected
  simp

@[simp] theorem State.blockLost_ordered (eph bseq) : Ordered (State.blockLost x eph bseq) ↔ Ordered x := by
  unfold State.blockLost
  dsimp only
  refine (ordered_foldl _ fun y a => ?_).trans ((ordered_foldl _ fun y a => ?_).trans ((ordered_foldl _ fun y a => ?_).trans ?_))
  · split <;> simp only [closeSpan_ordered]
  · simp only [onGroup_ordered]
  · exact ordered_foldl _ fun z b => ordered_foldl _ fun u c => State.blockFree_ordered _
  · simp only [onSmp_ordered, blockFree_ordered, implies_true, ordered_foldl]

@[simp] theorem State.dataLost_ordered (ring idx) : Ordered (State.dataLost x ring idx) ↔ Ordered x := by
  unfold State.dataLost
  repeat' first | with_reducible apply ordered_ite_iff | simp | split

@[simp] theorem State.eccHit_ordered (x_) : Ordered (State.eccHit x x_) ↔ Ordered x := by
  unfold State.eccHit
  (repeat' split) <;> simp

@[simp] theorem State.bankUncorrectable_ordered (b x_) : Ordered (State.bankUncorrectable x b x_) ↔ Ordered x := by
  unfold State.bankUncorrectable
  simp

@[simp] theorem State.eyeSample_ordered (x_) : Ordered (State.eyeSample x x_) ↔ Ordered x := by
  unfold State.eyeSample
  simp only [List.foldl_append, ordered_ite, onHlt_ordered, ratePolicy_ordered, healthEvent_ordered, raise_ordered, implies_true, ordered_foldl,
    ite_self]

@[simp] theorem State.lifeSample_ordered : Ordered (State.lifeSample x) ↔ Ordered x := by
  unfold State.lifeSample
  simp

@[simp] theorem State.monitorSample_ordered (osc rails eyes) : Ordered (State.monitorSample x osc rails eyes) ↔ Ordered x := by
  unfold State.monitorSample
  simp

@[simp] theorem State.thermalSample_ordered (temps) (h : Ordered x) : Ordered (State.thermalSample x temps) := by
  unfold State.thermalSample
  dsimp only
  split <;> simp [h]

@[simp] theorem execMonitorSample_ordered (osc rails eyes t) : OrderedNext (execMonitorSample osc rails eyes t x) ↔ Ordered x := by
  unfold execMonitorSample
  simp

@[simp] theorem execThermalSample_ordered (temps t) (h : Ordered x) : OrderedNext (execThermalSample temps t x) := by
  unfold execThermalSample
  simp [h]

@[simp] theorem execTripComparatorSample_ordered (below) : OrderedNext (execTripComparatorSample below x) ↔ Ordered x := by
  unfold execTripComparatorSample
  simp

@[simp] theorem execSramCorrected_ordered (p t) : OrderedNext (execSramCorrected p t x) ↔ Ordered x := by
  unfold execSramCorrected
  split <;> simp

@[simp] theorem execSramUncorrectable_ordered (b x_ t) : OrderedNext (execSramUncorrectable b x_ t x) ↔ Ordered x := by
  unfold execSramUncorrectable
  simp

@[simp] theorem execSupplyExcursion_ordered (rail mv) : OrderedNext (execSupplyExcursion rail mv x) ↔ Ordered x := by
  unfold execSupplyExcursion
  simp

@[simp] theorem execRetireCopyDone_ordered (uncorr) : OrderedNext (execRetireCopyDone uncorr x) ↔ Ordered x :=
  orderedNext_next.trans (State.onHlt_ordered ..)

@[simp] theorem execHealthRecordWrite_ordered : OrderedNext (execHealthRecordWrite x) ↔ Ordered x :=
  orderedNext_next.trans State.recordWrite_ordered

@[simp] theorem execHltEvtRead_ordered (both) : OrderedNext (execHltEvtRead both x) ↔ Ordered x :=
  orderedNext_next.trans (State.eventRead_ordered ..)

@[simp] theorem execSecEvtRead_ordered (both) : OrderedNext (execSecEvtRead both x) ↔ Ordered x :=
  orderedNext_next.trans (State.eventRead_ordered ..)

@[simp] theorem execPorRelease_ordered (st) (h : Ordered x) : OrderedNext (execPorRelease st x) := by
  unfold execPorRelease
  simp only [orderedNext_next, State.emits_ordered, h, State.coldStarts_ordered]

@[simp] theorem execStartReady_ordered (t) : OrderedNext (execStartReady t x) ↔ Ordered x := by
  unfold execStartReady
  repeat' first
    | with_reducible apply orderedNext_ite_iff
    | simp only [orderedNext_next, State.healthEvent_ordered, State.raise_ordered, State.auditRecord_ordered, State.healthEval_ordered, ordered_ite,
        State.fset_ordered, State.onHlt_ordered, State.at_ordered, ite_self]
    | split

@[simp] theorem execStartWatchdog_ordered (st) (h : Ordered x) : OrderedNext (execStartWatchdog st x) := by
  unfold execStartWatchdog
  split <;> simp [h]

@[simp] theorem State.flrSuspend_ordered (silent t) : Ordered (State.flrSuspend x silent t) ↔ Ordered x := by
  unfold State.flrSuspend
  simp

@[simp] theorem execFlr_ordered (silent bad digestOk st t) (h : Ordered x) : OrderedNext (execFlr silent bad digestOk st t x) := by
  unfold execFlr
  simp [h]

@[simp] theorem execHltRecord_ordered (r d) : OrderedNext (execHltRecord r d x) ↔ Ordered x := by
  unfold execHltRecord
  simp

@[simp] theorem execHltPoolShrink_ordered (r d) : OrderedNext (execHltPoolShrink r d x) ↔ Ordered x := by
  unfold execHltPoolShrink
  repeat' first
    | with_reducible apply orderedNext_ite_iff
    | simp only [orderedNext_next, ordered_ite, State.cmdDone_ordered, State.retireWait_ordered, State.overtake_ordered, State.onHlt_ordered,
        State.policyReport_ordered, ite_self, implies_true, State.withCmd_ordered]

@[simp] theorem execPortEye_ordered (r d points) : OrderedNext (execPortEye r d points x) ↔ Ordered x := by
  unfold execPortEye
  repeat' first
    | with_reducible apply orderedNext_ite_iff
    | simp only [orderedNext_next, ordered_ite, State.cmdDone_ordered, ite_self, implies_true, State.withCmd_ordered]

@[simp] theorem State.fwCmd_ordered (c body) (hb : ∀ y, Ordered (body y) ↔ Ordered y) : Ordered (State.fwCmd x c body) ↔ Ordered x := by
  unfold State.fwCmd
  repeat' first | with_reducible apply ordered_ite_iff | simp [hb]

@[simp] theorem State.fwDone_ordered (c status result) : Ordered (State.fwDone x c status result) ↔ Ordered x :=
  (raise_ordered ..).trans (cmdDone_ordered ..)

@[simp] theorem execFwStage_ordered (r d) : OrderedNext (execFwStage r d x) ↔ Ordered x := by
  unfold execFwStage
  simp

@[simp] theorem execFwStageDone_ordered (length img) : OrderedNext (execFwStageDone length img x) ↔ Ordered x := by
  unfold execFwStageDone
  repeat' first
    | with_reducible apply orderedNext_ite_iff
    | simp only [orderedNext_next, State.auditRecord_ordered, State.fwDone_ordered, State.onHlt_ordered]
    | split

@[simp] theorem execFwActivate_ordered (r d) : OrderedNext (execFwActivate r d x) ↔ Ordered x := by
  unfold execFwActivate
  rw [orderedNext_next]
  refine State.withCmd_ordered _ _ _ _ _ fun y c => State.fwCmd_ordered _ _ fun z => ?_
  repeat' first | with_reducible apply orderedNext_ite_iff | simp | split

@[simp] theorem execFwCommit_ordered (r d) : OrderedNext (execFwCommit r d x) ↔ Ordered x := by
  unfold execFwCommit
  simp

@[simp] theorem execFwQuery_ordered (r d) : OrderedNext (execFwQuery r d x) ↔ Ordered x := by
  unfold execFwQuery
  simp

@[simp] theorem execCmdWriteback_ordered (r st) (h : Ordered x) : OrderedNext (execCmdWriteback r st x) := by
  unfold execCmdWriteback
  dsimp only
  (repeat' first | with_reducible apply orderedNext_ite_iff | split) <;> simp [h]

@[simp] theorem execZeroize_ordered (r d st) (h : Ordered x) : OrderedNext (execZeroize r d st x) := by
  unfold execZeroize
  rw [orderedNext_next]
  refine Ordered.withCmd _ _ _ _ _ h fun y c hy => ?_
  dsimp only
  split <;> simp [hy]

@[simp] theorem State.debugAudit_ordered (level what) : Ordered (State.debugAudit x level what) ↔ Ordered x :=
  (auditRecord_ordered ..).trans draw_ordered

@[simp] theorem execDebugResponse_ordered (level key sig) : OrderedNext (execDebugResponse level key sig x) ↔ Ordered x := by
  unfold execDebugResponse
  repeat' first
    | with_reducible apply orderedNext_ite_iff
    | simp only [orderedNext_next, State.debugAudit_ordered, State.raise_ordered, State.fset_ordered, ordered_ite, State.onHlt_ordered, ite_self]

@[simp] theorem execSecDbgAllowWrite_ordered (v) : OrderedNext (execSecDbgAllowWrite v x) ↔ Ordered x := by
  unfold execSecDbgAllowWrite
  repeat' first
    | with_reducible apply orderedNext_ite_iff
    | simp only [orderedNext_next, ordered_ite, State.debugAudit_ordered, State.raise_ordered, State.fset_ordered, ite_self]

/-! ### Machine/Icu.lean -/

@[simp] theorem State.lineChange_ordered (x_ level) : Ordered (State.lineChange x x_ level) ↔ Ordered x := by
  unfold State.lineChange
  repeat' first | with_reducible apply ordered_ite_iff | simp

@[simp] theorem State.pset_ordered (x_) : Ordered (State.pset x x_) ↔ Ordered x :=
  (setPend_ordered ..).trans (onSource_ordered ..)

@[simp] theorem State.pclr_ordered (x_) : Ordered (State.pclr x x_) ↔ Ordered x :=
  (levelPend_ordered ..).trans (onSource_ordered ..)

@[simp] theorem State.eset_ordered (x_) : Ordered (State.eset x x_) ↔ Ordered x := by
  unfold State.eset
  simp

@[simp] theorem State.eclr_ordered (x_) : Ordered (State.eclr x x_) ↔ Ordered x :=
  onSource_ordered ..

@[simp] theorem State.srcArray_ordered (k mask fw f) (hb : ∀ y b1, Ordered (f y b1) ↔ Ordered y) :
    Ordered (State.srcArray x k mask fw f) ↔ Ordered x := by
  unfold State.srcArray
  simp [hb]

@[simp] theorem State.sliArray_ordered (n mask f) (hb : ∀ y b1, Ordered (f y b1) ↔ Ordered y) : Ordered (State.sliArray x n mask f) ↔ Ordered x := by
  unfold State.sliArray
  repeat' first | with_reducible apply ordered_ite_iff | simp [hb]

@[simp] theorem State.srccfg_ordered (fw v) : Ordered (State.srccfg x fw v) ↔ Ordered x := by
  unfold State.srccfg
  simp only [ordered_ite, count_ordered, icuSettle_ordered, levelPend_ordered, onSource_ordered, ite_self]

@[simp] theorem State.claim_ordered (n) : Ordered (State.claim x n) ↔ Ordered x := by
  unfold State.claim
  repeat' first | with_reducible apply ordered_ite_iff | simp | split

@[simp] theorem State.handlerDone_ordered (n x_) : Ordered (State.handlerDone x n x_) ↔ Ordered x := by
  unfold State.handlerDone
  simp

@[simp] theorem State.unheld_ordered (e) : Ordered (State.unheld x e) ↔ Ordered x := by
  unfold State.unheld
  simp

@[simp] theorem execSourceLineChange_ordered (x_ level t) : OrderedNext (execSourceLineChange x_ level t x) ↔ Ordered x :=
  orderedNext_next.trans (State.icuSettle_ordered.trans ((State.lineChange_ordered ..).trans (State.at_ordered ..)))

@[simp] theorem execIcuPset_ordered (k mask fw t) : OrderedNext (execIcuPset k mask fw t x) ↔ Ordered x := by
  unfold execIcuPset
  split <;> simp

@[simp] theorem execIcuPclr_ordered (k mask fw t) : OrderedNext (execIcuPclr k mask fw t x) ↔ Ordered x := by
  unfold execIcuPclr
  split <;> simp

@[simp] theorem execIcuEset_ordered (k mask fw t) : OrderedNext (execIcuEset k mask fw t x) ↔ Ordered x := by
  unfold execIcuEset
  split <;> simp

@[simp] theorem execIcuEclr_ordered (k mask fw t) : OrderedNext (execIcuEclr k mask fw t x) ↔ Ordered x := by
  unfold execIcuEclr
  split <;> simp

@[simp] theorem execSliPset_ordered (n mask t) : OrderedNext (execSliPset n mask t x) ↔ Ordered x := by
  unfold execSliPset
  simp

@[simp] theorem execSliPclr_ordered (n mask t) : OrderedNext (execSliPclr n mask t x) ↔ Ordered x := by
  unfold execSliPclr
  simp

@[simp] theorem execSliEset_ordered (n mask t) : OrderedNext (execSliEset n mask t x) ↔ Ordered x := by
  unfold execSliEset
  simp

@[simp] theorem execSliEclr_ordered (n mask t) : OrderedNext (execSliEclr n mask t x) ↔ Ordered x := by
  unfold execSliEclr
  simp

@[simp] theorem execIcuSrccfgWrite_ordered (fw v t) : OrderedNext (execIcuSrccfgWrite fw v t x) ↔ Ordered x := by
  unfold execIcuSrccfgWrite
  split <;> simp

@[simp] theorem execIcuClaim_ordered (n t) : OrderedNext (execIcuClaim n t x) ↔ Ordered x := by
  unfold execIcuClaim
  simp

@[simp] theorem execIcuDone_ordered (n x_ t) : OrderedNext (execIcuDone n x_ t x) ↔ Ordered x := by
  unfold execIcuDone
  simp

@[simp] theorem execCoreReturn_ordered (n t) : OrderedNext (execCoreReturn n t x) ↔ Ordered x := by
  unfold execCoreReturn
  simp

@[simp] theorem execVectorModerationTimeout_ordered (e t) : OrderedNext (execVectorModerationTimeout e t x) ↔ Ordered x := by
  unfold execVectorModerationTimeout
  simp

@[simp] theorem execSliIdleWrite_ordered (n mask t) : OrderedNext (execSliIdleWrite n mask t x) ↔ Ordered x := by
  unfold execSliIdleWrite
  simp

@[simp] theorem execIcuVstsWrite_ordered (v t) : OrderedNext (execIcuVstsWrite v t x) ↔ Ordered x := by
  unfold execIcuVstsWrite
  simp

@[simp] theorem execMsixUnmask_ordered (e en fm t) : OrderedNext (execMsixUnmask e en fm t x) ↔ Ordered x := by
  unfold execMsixUnmask
  repeat' first | with_reducible apply orderedNext_ite_iff | simp | split

/-! ### Machine/Power.lean -/

@[simp] theorem State.startEntry_ordered (target byPolicy) : Ordered (State.startEntry x target byPolicy) ↔ Ordered x := by
  unfold State.startEntry
  simp

@[simp] theorem State.queueRequest_ordered (target byPolicy) : Ordered (State.queueRequest x target byPolicy) ↔ Ordered x := by
  unfold State.queueRequest
  repeat' first | with_reducible apply ordered_ite_iff | simp

@[simp] theorem State.takeRequest_ordered (target byPolicy) : Ordered (State.takeRequest x target byPolicy) ↔ Ordered x := by
  unfold State.takeRequest
  simp

@[simp] theorem State.takeQueued_ordered : Ordered (State.takeQueued x) ↔ Ordered x := by
  unfold State.takeQueued
  simp

@[simp] theorem State.coresRun_ordered : Ordered (State.coresRun x) ↔ Ordered x := by
  unfold State.coresRun
  simp

@[simp] theorem State.abortPoint_ordered (k go) (hb : ∀ y, Ordered (go y) ↔ Ordered y) : Ordered (State.abortPoint x k go) ↔ Ordered x := by
  unfold State.abortPoint
  repeat' first | with_reducible apply ordered_ite_iff | simp [hb] | split

/-- The same of an entry that can put a state in order, as one to DEEP or OFF does. -/
theorem Ordered.abortPoint (k go) (h : Ordered x) (hb : ∀ y, Ordered y → Ordered (go y)) : Ordered (State.abortPoint x k go) := by
  unfold State.abortPoint
  dsimp only
  split
  · simp [h]
  · exact hb _ (by simp [h])

@[simp] theorem State.refuseEarly_ordered (ids) : Ordered (State.refuseEarly x ids) ↔ Ordered x := by
  unfold State.refuseEarly
  repeat' first
    | with_reducible apply ordered_ite_iff
    | simp only [takeQueued_ordered, coresRun_ordered, onPwr_ordered, fset_ordered, ordered_ite, policyReport_ordered, powerEvent_ordered,
        raise_ordered, countN_ordered, implies_true, ordered_foldl, ite_self]

@[simp] theorem State.portsStop_ordered : Ordered (State.portsStop x) ↔ Ordered x := by
  unfold State.portsStop
  simp

@[simp] theorem State.afterEntry_ordered : Ordered (State.afterEntry x) ↔ Ordered x := by
  unfold State.afterEntry
  repeat' first | with_reducible apply ordered_ite_iff | simp | split

@[simp] theorem State.lastScan_ordered : Ordered (State.lastScan x) ↔ Ordered x :=
  emit_ordered ..

@[simp] theorem State.enterTarget_ordered (h : Ordered x) : Ordered (State.enterTarget x) := by
  unfold State.enterTarget
  split <;> simp [h]

@[simp] theorem State.reachRun_ordered : Ordered (State.reachRun x) ↔ Ordered x := by
  unfold State.reachRun
  simp

@[simp] theorem State.restoreRow_ordered (row bad digestOk good st t) (h : Ordered x) : Ordered (State.restoreRow x row bad digestOk good st t) := by
  unfold State.restoreRow
  split <;> (try dsimp only) <;> (repeat' split) <;> simp only [onPwr_ordered, emits_ordered, h, countN_ordered, railsLow_ordered,
    coldStarts_ordered, powerEvent_ordered, raise_ordered, warmStart_ordered, onHlt_ordered, fset_ordered, twinRestart_ordered, moverResume_ordered,
    portsResume_ordered, reachRun_ordered]

@[simp] theorem execPwrRequest_ordered (v vn t) : OrderedNext (execPwrRequest v vn t x) ↔ Ordered x := by
  unfold execPwrRequest
  (repeat' first | with_reducible apply orderedNext_ite_iff | split) <;> simp only [orderedNext_next, ordered_ite, State.takeRequest_ordered,
    State.wr_ordered, State.at_ordered, ite_self, State.whenReady_ordered]

@[simp] theorem execCoreWait_ordered (n mode t) : OrderedNext (execCoreWait n mode t x) ↔ Ordered x := by
  unfold execCoreWait
  simp

@[simp] theorem execConsentDone_ordered (pcieOk t) : OrderedNext (execConsentDone pcieOk t x) ↔ Ordered x := by
  unfold execConsentDone
  repeat' first | with_reducible apply orderedNext_ite_iff | simp

@[simp] theorem execDealerStopped_ordered (h_ t) : OrderedNext (execDealerStopped h_ t x) ↔ Ordered x := by
  unfold execDealerStopped
  split
  · dsimp only
    have hf : Ordered (if (x.at_ t).fget .PWR_STS_TARGET = 3 then
        ((x.at_ t).ctxs.map Prod.fst).foldl (fun (a : State × Bool) e => ((a.1.ctxFlush h_ e).1, a.2 && (a.1.ctxFlush h_ e).2 == stOk))
          (x.at_ t, true) else (x.at_ t, true)).1 ↔ Ordered x := by
      split
      · exact (ordered_foldl_fst _ fun v a => by simp).trans (State.at_ordered _)
      · exact State.at_ordered _
    simp [hf]
  · simp

@[simp] theorem execPortsStopped_ordered (t) : OrderedNext (execPortsStopped t x) ↔ Ordered x := by
  unfold execPortsStopped
  simp only [orderedNext_ite, orderedNext_next, id_eq, implies_true, State.abortPoint_ordered, State.at_ordered, ite_self]

@[simp] theorem execMoverTwinStopped_ordered (t) : OrderedNext (execMoverTwinStopped t x) ↔ Ordered x := by
  unfold execMoverTwinStopped
  repeat' first | with_reducible apply orderedNext_ite_iff | simp

@[simp] theorem execMoverStopTimeout_ordered (t) : OrderedNext (execMoverStopTimeout t x) ↔ Ordered x := by
  unfold execMoverStopTimeout
  simp

@[simp] theorem execPcieStopped_ordered (t) (h : Ordered x) : OrderedNext (execPcieStopped t x) := by
  unfold execPcieStopped
  rw [orderedNext_next]
  split
  · exact Ordered.abortPoint _ _ (by simp [h]) fun y hy => State.enterTarget_ordered hy
  · exact h

@[simp] theorem execPcieStopTimeout_ordered (t) : OrderedNext (execPcieStopTimeout t x) ↔ Ordered x := by
  unfold execPcieStopTimeout
  simp

@[simp] theorem execWakeNInput_ordered (t) : OrderedNext (execWakeNInput t x) ↔ Ordered x := by
  unfold execWakeNInput
  simp

@[simp] theorem execWakeSenseTrip_ordered (v lasted t) : OrderedNext (execWakeSenseTrip v lasted t x) ↔ Ordered x := by
  unfold execWakeSenseTrip
  repeat' first
    | with_reducible apply orderedNext_ite_iff
    | simp only [orderedNext_next, ordered_ite, State.fset_ordered, State.at_ordered, ite_self, State.raise_ordered, State.wake_ordered]

@[simp] theorem execPcieWake_ordered (t) : OrderedNext (execPcieWake t x) ↔ Ordered x := by
  unfold execPcieWake
  simp

@[simp] theorem execTwinSignalWake_ordered (t) : OrderedNext (execTwinSignalWake t x) ↔ Ordered x := by
  unfold execTwinSignalWake
  simp

@[simp] theorem execRestoreStep_ordered (bad digestOk good st t) (h : Ordered x) : OrderedNext (execRestoreStep bad digestOk good st t x) := by
  unfold execRestoreStep
  split <;> simp [h]

@[simp] theorem execPwrSenseWrite_ordered (v) : OrderedNext (execPwrSenseWrite v x) ↔ Ordered x := by
  unfold execPwrSenseWrite
  simp

@[simp] theorem execPwrEvtRead_ordered (both) : OrderedNext (execPwrEvtRead both x) ↔ Ordered x := by
  unfold execPwrEvtRead
  simp

@[simp] theorem execPerstNAssert_ordered (h : Ordered x) : OrderedNext (execPerstNAssert x) := by
  unfold execPerstNAssert
  (repeat' first | with_reducible apply orderedNext_ite_iff | split) <;> simp [h]

@[simp] theorem execPerstNRelease_ordered (st t) (h : Ordered x) : OrderedNext (execPerstNRelease st t x) := by
  unfold execPerstNRelease
  (repeat' split) <;> simp [h]

@[simp] theorem execPwrGoodLow_ordered (st) (h : Ordered x) : OrderedNext (execPwrGoodLow st x) := by
  unfold execPwrGoodLow
  repeat' first | with_reducible apply orderedNext_ite_iff | simp [h]

@[simp] theorem execVaonLoss_ordered (h : Ordered x) : OrderedNext (execVaonLoss x) := by
  unfold execVaonLoss
  simp [h]

/-! ### Machine/Tick.lean -/

@[simp] theorem State.traceShare_ordered (t sl a d d') : Ordered (State.traceShare x t sl a d d') ↔ Ordered x :=
  trace_ordered ..

@[simp] theorem State.shareApply_ordered (x_) : Ordered (State.shareApply x x_) ↔ Ordered x := by
  unfold State.shareApply
  simp

@[simp] theorem State.groupApply_ordered (t g) : Ordered (State.groupApply x t g) ↔ Ordered x := by
  unfold State.groupApply
  simp

@[simp] theorem State.shareTick_ordered : Ordered (State.shareTick x) ↔ Ordered x := by
  unfold State.shareTick
  simp

@[simp] theorem State.handTake_ordered (n first) : Ordered (State.handTake x n first) ↔ Ordered x := by
  unfold State.handTake
  simp

@[simp] theorem State.treeTick_ordered (h_ n) : Ordered (State.treeTick h_ x n) ↔ Ordered x := by
  unfold State.treeTick
  simp

@[simp] theorem State.cfgTick_ordered (n) : Ordered (State.cfgTick x n) ↔ Ordered x := by
  unfold State.cfgTick
  simp only [ordered_ite, onPort_ordered, rateWithdraw_ordered, rateRequest_ordered, ite_self, integrityReg_ordered]

@[simp] theorem State.rateTick_ordered (n) : Ordered (State.rateTick x n) ↔ Ordered x := by
  unfold State.rateTick
  dsimp only
  (repeat' first | with_reducible apply ordered_ite_iff | split) <;> simp

@[simp] theorem State.trimTick_ordered : Ordered (State.trimTick x) ↔ Ordered x :=
  onTim_ordered ..

@[simp] theorem State.frameSend_ordered (owned corr n) : Ordered (State.frameSend x owned corr n) ↔ Ordered x := by
  unfold State.frameSend
  simp only [ordered_ite, release_ordered, sendFrame_ordered, ite_self]

@[simp] theorem State.dirTick_ordered : Ordered (State.dirTick x) ↔ Ordered x := by
  unfold State.dirTick
  simp

@[simp] theorem State.policyTick_ordered : Ordered (State.policyTick x) ↔ Ordered x := by
  unfold State.policyTick
  simp only [ordered_ite, auditRecord_ordered, onPol_ordered, ite_self]

@[simp] theorem State.shareSet_ordered (v) : Ordered (State.shareSet x v) ↔ Ordered x :=
  onPol_ordered ..

@[simp] theorem State.throttleLower_ordered : Ordered (State.throttleLower x) ↔ Ordered x := by
  unfold State.throttleLower
  dsimp only
  repeat' first | with_reducible apply ordered_ite_iff | simp | split

@[simp] theorem State.throttleTick_ordered (behind) : Ordered (State.throttleTick x behind) ↔ Ordered x := by
  unfold State.throttleTick
  simp

@[simp] theorem State.sliceTick_ordered (h_ n) : Ordered (State.sliceTick h_ x n) ↔ Ordered x := by
  unfold State.sliceTick
  simp

@[simp] theorem State.frameEnd_ordered (h_) : Ordered (State.frameEnd x h_) ↔ Ordered x := by
  unfold State.frameEnd
  simp

@[simp] theorem State.boundary_ordered (h_) : Ordered (State.boundary x h_) ↔ Ordered x := by
  unfold State.boundary
  simp

@[simp] theorem State.frameStart_ordered (h_ corr tTx started) : Ordered (State.frameStart x h_ corr tTx started) ↔ Ordered x := by
  unfold State.frameStart
  simp

@[simp] theorem State.frameTick_ordered (corr behind tTx h_) : Ordered (State.frameTick x corr behind tTx h_) ↔ Ordered x := by
  unfold State.frameTick
  simp

@[simp] theorem State.guardRate_ordered (p) : Ordered (State.guardRate x p) ↔ Ordered x := by
  unfold State.guardRate
  simp

@[simp] theorem State.guardPort_ordered (t n) : Ordered (State.guardPort t x n) ↔ Ordered x :=
  (guardRate_ordered ..).trans ((suspendSend_ordered ..).trans (guardTree_ordered ..))

@[simp] theorem State.guardHubs_ordered : Ordered (State.guardHubs x) ↔ Ordered x := by
  unfold State.guardHubs
  simp

@[simp] theorem execFrameTick_ordered (corr behind tTx h_) : OrderedNext (execFrameTick corr behind tTx h_ x) ↔ Ordered x :=
  orderedNext_next.trans (State.frameTick_ordered ..)

@[simp] theorem execHandDeadline_ordered (cuts) : OrderedNext (execHandDeadline cuts x) ↔ Ordered x :=
  orderedNext_next.trans (State.settled_ordered.trans ((State.composeAll_ordered ..).trans (State.at_ordered ..)))

@[simp] theorem execGuardBandStart_ordered (t) : OrderedNext (execGuardBandStart t x) ↔ Ordered x := by
  unfold execGuardBandStart
  simp

@[simp] theorem State.applyAdvice_ordered (c a t) : Ordered (State.applyAdvice x c a t) ↔ Ordered x := by
  unfold State.applyAdvice
  simp only [ordered_ite, cmdDone_ordered, rateRequest_ordered, onCmd_ordered, ite_self, shareSet_ordered, retireWait_ordered, claimTree_ordered,
    takeRequest_ordered]

@[simp] theorem execApplyAdvice_ordered (r d t) : OrderedNext (execApplyAdvice r d t x) ↔ Ordered x := by
  unfold execApplyAdvice
  rw [orderedNext_next]
  refine (State.withCmd_ordered _ _ _ _ _ fun y c => ?_).trans (State.at_ordered _)
  dsimp only
  split <;> simp

@[simp] theorem execPolicyPowerIdle_ordered : OrderedNext (execPolicyPowerIdle x) ↔ Ordered x := by
  unfold execPolicyPowerIdle
  dsimp only
  repeat' first | with_reducible apply orderedNext_ite_iff | simp | split

/-! ### Machine/Regs.lean -/

@[simp] theorem State.store_ordered (r i mask data) : Ordered (State.store x r i mask data) ↔ Ordered x :=
  wr_ordered ..

@[simp] theorem State.after_ordered (o) (ho : OrderedNext o ↔ Ordered x) : Ordered (State.after x o) ↔ Ordered x := by
  unfold State.after
  (repeat' split) <;> simp_all

@[simp] theorem State.chanStore_ordered (r n mask data) : Ordered (State.chanStore x r n mask data) ↔ Ordered x := by
  unfold State.chanStore
  simp

@[simp] theorem State.modWrite_ordered (e mask data) : Ordered (State.modWrite x e mask data) ↔ Ordered x :=
  onVector_ordered ..

@[simp] theorem State.idleSet_ordered (e data) : Ordered (State.idleSet x e data) ↔ Ordered x := by
  unfold State.idleSet
  simp

@[simp] theorem State.stage_ordered (tenant i data) : Ordered (State.stage x tenant i data) ↔ Ordered x := by
  unfold State.stage
  simp

@[simp] theorem State.indWrite_ordered (data) : Ordered (State.indWrite x data) ↔ Ordered x :=
  fset_ordered ..

@[simp] theorem State.indBusy_ordered (be) : Ordered (State.indBusy x be) ↔ Ordered x :=
  accessError_ordered ..

@[simp] theorem State.regWrite_ordered (r i mask data t) : Ordered (State.regWrite x r i mask data t) ↔ Ordered x := by
  unfold State.regWrite
  repeat' first
    | with_reducible apply ordered_ite_iff
    | simp only [execStepGo_ordered, store_ordered, after_ordered, frateWritten_ordered, labelArm_ordered, onSched_ordered, onCmgr_ordered,
        onPol_ordered, onPort_ordered, spillEnable_ordered, settled_ordered, counterWrite_ordered, execMringEnable_ordered,
        execMringDisable_ordered, execDoorbell_ordered, portCtl_ordered, chanStore_ordered, ctlWrite_ordered, gcfgWrite_ordered, onMov_ordered,
        pset_ordered, implies_true, srcArray_ordered, pclr_ordered, eset_ordered, eclr_ordered, srccfg_ordered, modWrite_ordered, idleSet_ordered,
        sliArray_ordered, execSliIdleWrite_ordered, onSlice_ordered, execPwrRequest_ordered, execSecDbgAllowWrite_ordered, twinCfgWrite_ordered,
        onVector_ordered, unheld_ordered, stage_ordered, mbxPost_ordered, mbxPop_ordered, indBusy_ordered, indWrite_ordered]
    | split

@[simp] theorem State.aliasBit_ordered (bar o data t) : Ordered (State.aliasBit x bar o data t) ↔ Ordered x := by
  unfold State.aliasBit
  repeat' first | with_reducible apply ordered_ite_iff | simp | split

@[simp] theorem State.dwWrite_ordered (bar o data t) : Ordered (State.dwWrite x bar o data t) ↔ Ordered x := by
  unfold State.dwWrite
  repeat' first | with_reducible apply ordered_ite_iff | simp | split

@[simp] theorem State.pairWrite_ordered (bar o lo hi t) : Ordered (State.pairWrite x bar o lo hi t) ↔ Ordered x := by
  unfold State.pairWrite
  (repeat' first | with_reducible apply ordered_ite_iff | split) <;> simp

@[simp] theorem State.dwsWrite_ordered (bar o l t n) : Ordered (State.dwsWrite x bar o l t n) ↔ Ordered x := by
  fun_induction State.dwsWrite x bar o l t n <;> simp_all

@[simp] theorem State.reqWrite_ordered (bar o dws t) : Ordered (State.reqWrite x bar o dws t) ↔ Ordered x := by
  unfold State.reqWrite
  dsimp only
  repeat' first | with_reducible apply ordered_ite_iff | simp | split

@[simp] theorem State.indAdvance_ordered : Ordered (State.indAdvance x) ↔ Ordered x := by
  unfold State.indAdvance
  simp

@[simp] theorem State.indUnmapped_ordered : Ordered (State.indUnmapped x) ↔ Ordered x := by
  unfold State.indUnmapped
  simp

@[simp] theorem execRegisterWrite_ordered (bar ofs dws t) : OrderedNext (execRegisterWrite bar ofs dws t x) ↔ Ordered x :=
  orderedNext_next.trans ((State.reqWrite_ordered ..).trans (State.at_ordered ..))

@[simp] theorem execAliasWrite_ordered (bar ofs be data t) : OrderedNext (execAliasWrite bar ofs be data t x) ↔ Ordered x := by
  unfold execAliasWrite
  simp

@[simp] theorem execIndDataRead_ordered (narrow wide) : OrderedNext (execIndDataRead narrow wide x) ↔ Ordered x := by
  unfold execIndDataRead
  simp

@[simp] theorem execIndDataWrite_ordered (be data) : OrderedNext (execIndDataWrite be data x) ↔ Ordered x := by
  unfold execIndDataWrite
  simp

@[simp] theorem execIndAccessDone_ordered : OrderedNext (execIndAccessDone x) ↔ Ordered x := by
  unfold execIndAccessDone
  dsimp only
  repeat' first
    | with_reducible apply orderedNext_ite_iff
    | simp only [orderedNext_next, ordered_ite, ordered_mk, rising_regs, State.indAdvance_ordered, State.store_ordered, State.fset_ordered,
        ite_self, State.indUnmapped_ordered]
    | split

@[simp] theorem execGctlAccessErrRead_ordered (wide) : OrderedNext (execGctlAccessErrRead wide x) ↔ Ordered x := by
  unfold execGctlAccessErrRead
  simp

@[simp] theorem execPcieTlpError_ordered (e answered) : OrderedNext (execPcieTlpError e answered x) ↔ Ordered x := by
  unfold execPcieTlpError
  repeat' first
    | with_reducible apply orderedNext_ite_iff
    | simp only [orderedNext_next, ordered_ite, State.emit_ordered, ite_self, State.aerUncorr_ordered, State.aerCorr_ordered]

/-! ### Machine/Token.lean -/

@[simp] theorem State.sendTokenState_ordered (d up) : Ordered (State.sendTokenState x d up) ↔ Ordered x :=
  sendCtl_ordered ..

@[simp] theorem State.onToken_ordered (d f) : Ordered (State.onToken x d f) ↔ Ordered x :=
  onDev_ordered ..

@[simp] theorem State.changeHolder_ordered (d up) : Ordered (State.changeHolder x d up) ↔ Ordered x := by
  unfold State.changeHolder
  dsimp only
  repeat' first | with_reducible apply ordered_ite_iff | simp | split

@[simp] theorem execTokenQuery_ordered (d up) : OrderedNext (execTokenQuery d up x) ↔ Ordered x := by
  unfold execTokenQuery
  simp

@[simp] theorem execTokenClaim_ordered (d up epoch forced frameNo) : OrderedNext (execTokenClaim d up epoch forced frameNo x) ↔ Ordered x := by
  unfold execTokenClaim
  repeat' first
    | with_reducible apply orderedNext_ite_iff
    | simp only [orderedNext_next, State.sendCtl_ordered, ordered_ite, State.changeHolder_ordered, State.onToken_ordered, ite_self]

@[simp] theorem execTokenRelease_ordered (d up epoch frameNo) : OrderedNext (execTokenRelease d up epoch frameNo x) ↔ Ordered x := by
  unfold execTokenRelease
  simp

@[simp] theorem execHolderFrameMissed_ordered (d) : OrderedNext (execHolderFrameMissed d x) ↔ Ordered x := by
  unfold execHolderFrameMissed
  simp

@[simp] theorem State.hubRateWaits_ordered (p) : Ordered (State.hubRateWaits x p) ↔ Ordered x := by
  unfold State.hubRateWaits
  split <;> simp

@[simp] theorem State.hubRateTick_ordered (n p) : Ordered (State.hubRateTick n x p) ↔ Ordered x := by
  unfold State.hubRateTick
  dsimp only
  (repeat' first | with_reducible apply ordered_ite_iff | split) <;> simp

@[simp] theorem State.devRateTick_ordered (n l) : Ordered (State.devRateTick x n l) ↔ Ordered x := by
  unfold State.devRateTick
  (repeat' first | with_reducible apply ordered_ite_iff | split) <;> simp

@[simp] theorem execLocalTick_ordered (d n t) : OrderedNext (execLocalTick d n t x) ↔ Ordered x := by
  unfold execLocalTick
  dsimp only
  repeat' first
    | with_reducible apply orderedNext_ite_iff
    | simp only [orderedNext_next, State.hubRateTick_ordered, implies_true, ordered_foldl, State.devRateTick_ordered, ordered_ite,
        State.changeHolder_ordered, State.onDev_ordered, State.at_ordered, ite_self]
    | split

/-! ### The step -/

theorem exec_ordered (h : Ordered x) : ∀ c, OrderedNext (exec c x)
  | .frameTick .. => (execFrameTick_ordered ..).2 h
  | .handDeadline .. => (execHandDeadline_ordered ..).2 h
  | .guardBandStart .. => (execGuardBandStart_ordered ..).2 h
  | .ppsInEdge .. => (execPpsInEdge_ordered ..).2 h
  | .ppsInLost => execPpsInLost_ordered.2 h
  | .refInLost => execRefInLost_ordered.2 h
  | .refInValid => execRefInValid_ordered.2 h
  | .irigFrameReceive .. => (execIrigFrameReceive_ordered ..).2 h
  | .irigInLost => execIrigInLost_ordered.2 h
  | .ptmDialogueDone .. => (execPtmDialogueDone_ordered ..).2 h
  | .errEstGrowth => execErrEstGrowth_ordered.2 h
  | .stepGo .. => (execStepGo_ordered ..).2 h
  | .frameEnWrite .. => (execFrameEnWrite_ordered ..).2 h
  | .timNowRead .. => (execTimNowRead_ordered ..).2 h
  | .timFrameNoRead .. => (execTimFrameNoRead_ordered ..).2 h
  | .timPtmHostRead .. => (execTimPtmHostRead_ordered ..).2 h
  | .timLabelWrite .. => (execTimLabelWrite_ordered ..).2 h
  | .timEvtRead .. => (execTimEvtRead_ordered ..).2 h
  | .frameReceive .. => (execFrameReceive_ordered ..).2 h
  | .delayReqReceive .. => (execDelayReqReceive_ordered ..).2 h
  | .delayRespReceive .. => (execDelayRespReceive_ordered ..).2 h
  | .delayReqAbandon .. => (execDelayReqAbandon_ordered ..).2 h
  | .syncLost .. => (execSyncLost_ordered ..).2 h
  | .syncGain .. => (execSyncGain_ordered ..).2 h
  | .syncLoss .. => (execSyncLoss_ordered ..).2 h
  | .codewordLock .. => (execCodewordLock_ordered ..).2 h
  | .codewordLockLoss .. => (execCodewordLockLoss_ordered ..).2 h
  | .packetReceive .. => (execPacketReceive_ordered ..).2 h
  | .linkctlAckReceive .. => (execLinkctlAckReceive_ordered ..).2 h
  | .linkctlRetryReceive .. => (execLinkctlRetryReceive_ordered ..).2 h
  | .replayTimeout .. => (execReplayTimeout_ordered ..).2 h
  | .capsReceive .. => (execCapsReceive_ordered ..).2 h
  | .capsRepeat .. => (execCapsRepeat_ordered ..).2 h
  | .rateReqReceive .. => (execRateReqReceive_ordered ..).2 h
  | .rateAckReceive .. => (execRateAckReceive_ordered ..).2 h
  | .rateReqRepeat .. => (execRateReqRepeat_ordered ..).2 h
  | .linkctlResetReceive .. => (execLinkctlResetReceive_ordered ..).2 h
  | .resetEchoReceive .. => (execResetEchoReceive_ordered ..).2 h
  | .linkctlSuspendReceive .. => (execLinkctlSuspendReceive_ordered ..).2 h
  | .suspendEchoReceive .. => (execSuspendEchoReceive_ordered ..).2 h
  | .linkctlResumeReceive .. => (execLinkctlResumeReceive_ordered ..).2 h
  | .resumeEchoReceive .. => (execResumeEchoReceive_ordered ..).2 h
  | .linkctlWakeReceive .. => (execLinkctlWakeReceive_ordered ..).2 h
  | .linkctlCmdRepeat .. => (execLinkctlCmdRepeat_ordered ..).2 h
  | .signalDetect .. => (execSignalDetect_ordered ..).2 h
  | .connectDebounceDone .. => (execConnectDebounceDone_ordered ..).2 h
  | .trainingTimeout .. => (execTrainingTimeout_ordered ..).2 h
  | .resetEchoTimeout .. => (execResetEchoTimeout_ordered ..).2 h
  | .retrainTimeout .. => (execRetrainTimeout_ordered ..).2 h
  | .resumeTimeout .. => (execResumeTimeout_ordered ..).2 h
  | .suspendEchoTimeout .. => (execSuspendEchoTimeout_ordered ..).2 h
  | .linkLost .. => (execLinkLost_ordered ..).2 h
  | .rateLock .. => (execRateLock_ordered ..).2 h
  | .rateLockTimeout .. => (execRateLockTimeout_ordered ..).2 h
  | .portEnable .. => (execPortEnable_ordered ..).2 h
  | .portClearError .. => (execPortClearError_ordered ..).2 h
  | .portRetrain .. => (execPortRetrain_ordered ..).2 h
  | .portResume .. => (execPortResume_ordered ..).2 h
  | .portSuspend .. => (execPortSuspend_ordered ..).2 h
  | .portReset .. => (execPortReset_ordered ..).2 h
  | .prtChgRead .. => (execPrtChgRead_ordered ..).2 h
  | .xcvrIdentify .. => (execXcvrIdentify_ordered ..).2 h
  | .xcvrDiagRead .. => (execXcvrDiagRead_ordered ..).2 h
  | .sidebandScan .. => (execSidebandScan_ordered ..).2 h
  | .modAbsChange .. => (execModAbsChange_ordered ..).2 h
  | .losTxFaultAccept .. => (execLosTxFaultAccept_ordered ..).2 h
  | .mscFault => execMscFault_ordered.2 h
  | .getPortStatus .. => (execGetPortStatus_ordered ..).2 h
  | .setPortFeature .. => (execSetPortFeature_ordered ..).2 h
  | .clearPortFeature .. => (execClearPortFeature_ordered ..).2 h
  | .transactionStart .. => (execTransactionStart_ordered ..).2 h
  | .answerReceive .. => (execAnswerReceive_ordered ..).2 h
  | .answerTimeout .. => (execAnswerTimeout_ordered ..).2 h
  | .callInReceive .. => (execCallInReceive_ordered ..).2 h
  | .callOutReceive .. => (execCallOutReceive_ordered ..).2 h
  | .commandReceive .. => (execCommandReceive_ordered ..).2 h
  | .execAtExecute .. => (execExecAtExecute_ordered ..).2 h
  | .pingReceive .. => (execPingReceive_ordered ..).2 h
  | .setupReceive .. => (execSetupReceive_ordered ..).2 h
  | .controlTransferTimeout .. => (execControlTransferTimeout_ordered ..).2 h
  | .getStatus .. => (execGetStatus_ordered ..).2 h
  | .clearHalt .. => (execClearHalt_ordered ..).2 h
  | .resetEndpoint .. => (execResetEndpoint_ordered ..).2 h
  | .setAddress .. => (execSetAddress_ordered ..).2 h
  | .getRecord .. => (execGetRecord_ordered ..).2 h
  | .getConfiguration .. => (execGetConfiguration_ordered ..).2 h
  | .setConfiguration .. => (execSetConfiguration_ordered ..).2 h
  | .setRemoteWake .. => (execSetRemoteWake_ordered ..).2 h
  | .setLinkAsym .. => (execSetLinkAsym_ordered ..).2 h
  | .contextFetchDone .. => (execContextFetchDone_ordered ..).2 h
  | .doorbell .. => (execDoorbell_ordered ..).2 h
  | .mringEnable .. => (execMringEnable_ordered ..).2 h
  | .mringDisable .. => (execMringDisable_ordered ..).2 h
  | .tdTake .. => (execTdTake_ordered ..).2 h
  | .tdWriteback .. => (execTdWriteback_ordered ..).2 h
  | .cmdWriteback .. => execCmdWriteback_ordered _ _ h
  | .hostTransportStart .. => (execHostTransportStart_ordered ..).2 h
  | .reservedOpcode .. => (execReservedOpcode_ordered ..).2 h
  | .ringCreate .. => (execRingCreate_ordered ..).2 h
  | .ringStop .. => (execRingStop_ordered ..).2 h
  | .ringStart .. => (execRingStart_ordered ..).2 h
  | .ringDestroy .. => (execRingDestroy_ordered ..).2 h
  | .ringQuery .. => (execRingQuery_ordered ..).2 h
  | .epInstall .. => (execEpInstall_ordered ..).2 h
  | .epRemove .. => (execEpRemove_ordered ..).2 h
  | .epStop .. => (execEpStop_ordered ..).2 h
  | .epStart .. => (execEpStart_ordered ..).2 h
  | .epReset .. => (execEpReset_ordered ..).2 h
  | .epFlush .. => (execEpFlush_ordered ..).2 h
  | .epQuery .. => (execEpQuery_ordered ..).2 h
  | .subtreeGone .. => (execSubtreeGone_ordered ..).2 h
  | .tdCancel .. => (execTdCancel_ordered ..).2 h
  | .enumerate .. => (execEnumerate_ordered ..).2 h
  | .xcvrRead .. => (execXcvrRead_ordered ..).2 h
  | .portRate .. => (execPortRate_ordered ..).2 h
  | .applyAdvice .. => (execApplyAdvice_ordered ..).2 h
  | .schedBatch .. => (execSchedBatch_ordered ..).2 h
  | .batchAdmitted .. => (execBatchAdmitted_ordered ..).2 h
  | .schedReserve .. => (execSchedReserve_ordered ..).2 h
  | .schedQuery .. => (execSchedQuery_ordered ..).2 h
  | .schedClear .. => (execSchedClear_ordered ..).2 h
  | .delayRelease .. => (execDelayRelease_ordered ..).2 h
  | .notyetTimeout .. => (execNotyetTimeout_ordered ..).2 h
  | .spillReturn .. => (execSpillReturn_ordered ..).2 h
  | .spillEnable .. => (execSpillEnable_ordered ..).2 h
  | .schDcntValWrite .. => (execSchDcntValWrite_ordered ..).2 h
  | .schAdmEvtRead .. => (execSchAdmEvtRead_ordered ..).2 h
  | .sampleBlockForm .. => (execSampleBlockForm_ordered ..).2 h
  | .gatherDeadline .. => (execGatherDeadline_ordered ..).2 h
  | .streamRecordWrite .. => (execStreamRecordWrite_ordered ..).2 h
  | .coderBlockCode .. => (execCoderBlockCode_ordered ..).2 h
  | .coderLateRaw .. => (execCoderLateRaw_ordered ..).2 h
  | .gatherCreate .. => (execGatherCreate_ordered ..).2 h
  | .gatherDestroy .. => (execGatherDestroy_ordered ..).2 h
  | .gatherQuery .. => (execGatherQuery_ordered ..).2 h
  | .coderAttach .. => (execCoderAttach_ordered ..).2 h
  | .coderDetach .. => (execCoderDetach_ordered ..).2 h
  | .coderQuery .. => (execCoderQuery_ordered ..).2 h
  | .gthEvtRead .. => (execGthEvtRead_ordered ..).2 h
  | .cdrEvtRead .. => (execCdrEvtRead_ordered ..).2 h
  | .movGo .. => (execMovGo_ordered ..).2 h
  | .movStop .. => (execMovStop_ordered ..).2 h
  | .movSwchWrite .. => (execMovSwchWrite_ordered ..).2 h
  | .swchApply => execSwchApply_ordered.2 h
  | .moverDescDone .. => (execMoverDescDone_ordered ..).2 h
  | .reqLineRequest .. => (execReqLineRequest_ordered ..).2 h
  | .hostReadFail .. => (execHostReadFail_ordered ..).2 h
  | .moverRetry .. => (execMoverRetry_ordered ..).2 h
  | .moverDryBoundary .. => (execMoverDryBoundary_ordered ..).2 h
  | .movStsRead .. => (execMovStsRead_ordered ..).2 h
  | .movGevtRead .. => (execMovGevtRead_ordered ..).2 h
  | .sliceEnable .. => (execSliceEnable_ordered ..).2 h
  | .sliceDisable .. => (execSliceDisable_ordered ..).2 h
  | .sliceRingAllot .. => (execSliceRingAllot_ordered ..).2 h
  | .sliceRingReclaim .. => (execSliceRingReclaim_ordered ..).2 h
  | .sliceShare .. => (execSliceShare_ordered ..).2 h
  | .sliceReset .. => (execSliceReset_ordered ..).2 h
  | .sliceResetDone .. => (execSliceResetDone_ordered ..).2 h
  | .sliceFreeze .. => (execSliceFreeze_ordered ..).2 h
  | .sliceFrozen .. => (execSliceFrozen_ordered ..).2 h
  | .sliceThaw .. => (execSliceThaw_ordered ..).2 h
  | .sliceSave .. => (execSliceSave_ordered ..).2 h
  | .sliceRestore .. => (execSliceRestore_ordered ..).2 h
  | .sliceQuery .. => (execSliceQuery_ordered ..).2 h
  | .mbmPost .. => (execMbmPost_ordered ..).2 h
  | .mbtPost .. => (execMbtPost_ordered ..).2 h
  | .mbmPop .. => (execMbmPop_ordered ..).2 h
  | .mbtPop .. => (execMbtPop_ordered ..).2 h
  | .mbmEvtRead .. => (execMbmEvtRead_ordered ..).2 h
  | .mbtEvtRead .. => (execMbtEvtRead_ordered ..).2 h
  | .sltEvtRead .. => (execSltEvtRead_ordered ..).2 h
  | .sourceLineChange .. => (execSourceLineChange_ordered ..).2 h
  | .icuPset .. => (execIcuPset_ordered ..).2 h
  | .icuPclr .. => (execIcuPclr_ordered ..).2 h
  | .icuEset .. => (execIcuEset_ordered ..).2 h
  | .icuEclr .. => (execIcuEclr_ordered ..).2 h
  | .sliPset .. => (execSliPset_ordered ..).2 h
  | .sliPclr .. => (execSliPclr_ordered ..).2 h
  | .sliEset .. => (execSliEset_ordered ..).2 h
  | .sliEclr .. => (execSliEclr_ordered ..).2 h
  | .icuSrccfgWrite .. => (execIcuSrccfgWrite_ordered ..).2 h
  | .icuClaim .. => (execIcuClaim_ordered ..).2 h
  | .icuDone .. => (execIcuDone_ordered ..).2 h
  | .coreReturn .. => (execCoreReturn_ordered ..).2 h
  | .coreWait .. => (execCoreWait_ordered ..).2 h
  | .vectorModerationTimeout .. => (execVectorModerationTimeout_ordered ..).2 h
  | .sliIdleWrite .. => (execSliIdleWrite_ordered ..).2 h
  | .icuVstsWrite .. => (execIcuVstsWrite_ordered ..).2 h
  | .msixUnmask .. => (execMsixUnmask_ordered ..).2 h
  | .twinEnable .. => (execTwinEnable_ordered ..).2 h
  | .twinLinkUp => execTwinLinkUp_ordered.2 h
  | .beatReceive .. => (execBeatReceive_ordered ..).2 h
  | .beatMissed .. => (execBeatMissed_ordered ..).2 h
  | .shadowReceive .. => (execShadowReceive_ordered ..).2 h
  | .mirrorReceive .. => (execMirrorReceive_ordered ..).2 h
  | .mconfReceive .. => (execMconfReceive_ordered ..).2 h
  | .mconfLate .. => (execMconfLate_ordered ..).2 h
  | .handoverSend .. => (execHandoverSend_ordered ..).2 h
  | .handoverReceive .. => (execHandoverReceive_ordered ..).2 h
  | .tokenQuery .. => (execTokenQuery_ordered ..).2 h
  | .tokenClaim .. => (execTokenClaim_ordered ..).2 h
  | .tokenRelease .. => (execTokenRelease_ordered ..).2 h
  | .tokenMsgRepeat .. => (execTokenMsgRepeat_ordered ..).2 h
  | .tokenStateReceive .. => (execTokenStateReceive_ordered ..).2 h
  | .tokenGrantReceive .. => (execTokenGrantReceive_ordered ..).2 h
  | .tokenDenyReceive .. => (execTokenDenyReceive_ordered ..).2 h
  | .tokenLostReceive .. => (execTokenLostReceive_ordered ..).2 h
  | .twinClaim .. => (execTwinClaim_ordered ..).2 h
  | .twinForce .. => (execTwinForce_ordered ..).2 h
  | .twinRelease .. => (execTwinRelease_ordered ..).2 h
  | .twinQuery .. => (execTwinQuery_ordered ..).2 h
  | .twnEvtRead .. => (execTwnEvtRead_ordered ..).2 h
  | .pwrRequest .. => (execPwrRequest_ordered ..).2 h
  | .consentDone .. => (execConsentDone_ordered ..).2 h
  | .dealerStopped .. => (execDealerStopped_ordered ..).2 h
  | .portsStopped .. => (execPortsStopped_ordered ..).2 h
  | .moverTwinStopped .. => (execMoverTwinStopped_ordered ..).2 h
  | .pcieStopped .. => execPcieStopped_ordered _ h
  | .wakeNInput .. => (execWakeNInput_ordered ..).2 h
  | .wakeSenseTrip .. => (execWakeSenseTrip_ordered ..).2 h
  | .pcieWake .. => (execPcieWake_ordered ..).2 h
  | .twinSignalWake .. => (execTwinSignalWake_ordered ..).2 h
  | .restoreStep .. => execRestoreStep_ordered _ _ _ _ _ h
  | .pwrSenseWrite .. => (execPwrSenseWrite_ordered ..).2 h
  | .pwrEvtRead .. => (execPwrEvtRead_ordered ..).2 h
  | .porRelease .. => execPorRelease_ordered _ h
  | .startReady .. => (execStartReady_ordered ..).2 h
  | .startWatchdog .. => execStartWatchdog_ordered _ h
  | .flr .. => execFlr_ordered _ _ _ _ _ h
  | .monitorSample .. => (execMonitorSample_ordered ..).2 h
  | .thermalSample .. => execThermalSample_ordered _ _ h
  | .tripComparatorSample .. => (execTripComparatorSample_ordered ..).2 h
  | .sramCorrected .. => (execSramCorrected_ordered ..).2 h
  | .sramUncorrectable .. => (execSramUncorrectable_ordered ..).2 h
  | .supplyExcursion .. => (execSupplyExcursion_ordered ..).2 h
  | .retireCopyDone .. => (execRetireCopyDone_ordered ..).2 h
  | .healthRecordWrite => execHealthRecordWrite_ordered.2 h
  | .policyPowerIdle => execPolicyPowerIdle_ordered.2 h
  | .hltRecord .. => (execHltRecord_ordered ..).2 h
  | .hltPoolShrink .. => (execHltPoolShrink_ordered ..).2 h
  | .portEye .. => (execPortEye_ordered ..).2 h
  | .fwStage .. => (execFwStage_ordered ..).2 h
  | .fwActivate .. => (execFwActivate_ordered ..).2 h
  | .fwCommit .. => (execFwCommit_ordered ..).2 h
  | .fwQuery .. => (execFwQuery_ordered ..).2 h
  | .zeroize .. => execZeroize_ordered _ _ _ h
  | .debugResponse .. => (execDebugResponse_ordered ..).2 h
  | .secDbgAllowWrite .. => (execSecDbgAllowWrite_ordered ..).2 h
  | .hltEvtRead .. => (execHltEvtRead_ordered ..).2 h
  | .secEvtRead .. => (execSecEvtRead_ordered ..).2 h
  | .registerWrite .. => (execRegisterWrite_ordered ..).2 h
  | .aliasWrite .. => (execAliasWrite_ordered ..).2 h
  | .indDataRead .. => (execIndDataRead_ordered ..).2 h
  | .indDataWrite .. => (execIndDataWrite_ordered ..).2 h
  | .indAccessDone => execIndAccessDone_ordered.2 h
  | .gctlAccessErrRead .. => (execGctlAccessErrRead_ordered ..).2 h
  | .perstNAssert => execPerstNAssert_ordered h
  | .perstNRelease .. => execPerstNRelease_ordered _ _ h
  | .pwrGoodLow .. => execPwrGoodLow_ordered _ h
  | .vaonLoss => execVaonLoss_ordered h
  | .pcieTlpError .. => (execPcieTlpError_ordered ..).2 h
  | .irigOnTimeMark .. => (execIrigOnTimeMark_ordered ..).2 h
  | .twinLinkDown => execTwinLinkDown_ordered.2 h
  | .twinAckReceive .. => (execTwinAckReceive_ordered ..).2 h
  | .twinRetryReceive .. => (execTwinRetryReceive_ordered ..).2 h
  | .localTick .. => (execLocalTick_ordered ..).2 h
  | .holderFrameMissed .. => (execHolderFrameMissed_ordered ..).2 h
  | .pcieStopTimeout .. => (execPcieStopTimeout_ordered ..).2 h
  | .moverStopTimeout .. => (execMoverStopTimeout_ordered ..).2 h
  | .fwStageDone .. => (execFwStageDone_ordered ..).2 h
  | .identityBusReadDone .. => (execIdentityBusReadDone_ordered ..).2 h

theorem step_ordered {s t : State} (h : Ordered s) (e : Steps s t) : Ordered t := by
  unfold Steps step at e
  split at e
  case h_1 =>
    cases e
    exact h
  case h_2 c rest _ =>
    obtain ⟨u, hu, ho⟩ := exec_ordered (x := { s with pending := rest }) h c
    rw [hu] at e
    cases e
    exact ho

/-- The reach of each command lies in any parts that take in every list. -/
theorem exec_keeps {P : Part → Bool} (hr : Keeps P x x) (cv : ∀ {l}, Covers P l) : ∀ c, KeepsO P x (exec c x)
  | .frameTick .. => execFrameTick_keeps _ _ _ _ hr cv
  | .handDeadline .. => execHandDeadline_keeps _ hr cv
  | .guardBandStart .. => execGuardBandStart_keeps _ hr cv
  | .ppsInEdge .. => execPpsInEdge_keeps _ _ hr cv
  | .ppsInLost => execPpsInLost_keeps hr cv
  | .refInLost => execRefInLost_keeps hr cv
  | .refInValid => execRefInValid_keeps hr cv
  | .irigFrameReceive .. => execIrigFrameReceive_keeps _ _ _ hr cv
  | .irigInLost => execIrigInLost_keeps hr cv
  | .ptmDialogueDone .. => execPtmDialogueDone_keeps _ _ _ _ hr cv
  | .errEstGrowth => execErrEstGrowth_keeps hr cv
  | .stepGo .. => execStepGo_keeps _ hr cv
  | .frameEnWrite .. => execFrameEnWrite_keeps _ hr cv
  | .timNowRead .. => execTimNowRead_keeps _ _ hr cv
  | .timFrameNoRead .. => execTimFrameNoRead_keeps _ hr cv
  | .timPtmHostRead .. => execTimPtmHostRead_keeps _ hr cv
  | .timLabelWrite .. => execTimLabelWrite_keeps _ _ _ _ hr cv
  | .timEvtRead .. => execTimEvtRead_keeps _ hr cv
  | .frameReceive .. => execFrameReceive_keeps _ _ _ _ _ _ hr cv
  | .delayReqReceive .. => execDelayReqReceive_keeps _ _ _ _ hr cv
  | .delayRespReceive .. => execDelayRespReceive_keeps _ _ _ _ hr cv
  | .delayReqAbandon .. => execDelayReqAbandon_keeps _ _ hr cv
  | .syncLost .. => execSyncLost_keeps _ hr cv
  | .syncGain .. => execSyncGain_keeps _ _ hr cv
  | .syncLoss .. => execSyncLoss_keeps _ _ _ hr cv
  | .codewordLock .. => execCodewordLock_keeps _ _ hr cv
  | .codewordLockLoss .. => execCodewordLockLoss_keeps _ _ _ hr cv
  | .packetReceive .. => execPacketReceive_keeps _ _ _ _ hr cv
  | .linkctlAckReceive .. => execLinkctlAckReceive_keeps _ _ hr cv
  | .linkctlRetryReceive .. => execLinkctlRetryReceive_keeps _ _ _ _ hr cv
  | .replayTimeout .. => execReplayTimeout_keeps _ _ _ hr cv
  | .capsReceive .. => execCapsReceive_keeps _ _ _ _ _ _ hr cv
  | .capsRepeat .. => execCapsRepeat_keeps _ _ hr cv
  | .rateReqReceive .. => execRateReqReceive_keeps _ _ _ _ hr cv
  | .rateAckReceive .. => execRateAckReceive_keeps _ _ _ hr cv
  | .rateReqRepeat .. => execRateReqRepeat_keeps _ hr cv
  | .linkctlResetReceive .. => execLinkctlResetReceive_keeps _ _ _ hr cv
  | .resetEchoReceive .. => execResetEchoReceive_keeps _ _ hr cv
  | .linkctlSuspendReceive .. => execLinkctlSuspendReceive_keeps _ _ _ hr cv
  | .suspendEchoReceive .. => execSuspendEchoReceive_keeps _ _ hr cv
  | .linkctlResumeReceive .. => execLinkctlResumeReceive_keeps _ _ _ hr cv
  | .resumeEchoReceive .. => execResumeEchoReceive_keeps _ _ hr cv
  | .linkctlWakeReceive .. => execLinkctlWakeReceive_keeps _ _ hr cv
  | .linkctlCmdRepeat .. => execLinkctlCmdRepeat_keeps _ _ hr cv
  | .signalDetect .. => execSignalDetect_keeps _ _ hr cv
  | .connectDebounceDone .. => execConnectDebounceDone_keeps _ _ hr cv
  | .trainingTimeout .. => execTrainingTimeout_keeps _ hr cv
  | .resetEchoTimeout .. => execResetEchoTimeout_keeps _ _ hr cv
  | .retrainTimeout .. => execRetrainTimeout_keeps _ hr cv
  | .resumeTimeout .. => execResumeTimeout_keeps _ hr cv
  | .suspendEchoTimeout .. => execSuspendEchoTimeout_keeps _ _ hr cv
  | .linkLost .. => execLinkLost_keeps _ _ hr cv
  | .rateLock .. => execRateLock_keeps _ _ _ hr cv
  | .rateLockTimeout .. => execRateLockTimeout_keeps _ _ hr cv
  | .portEnable .. => execPortEnable_keeps _ _ _ _ hr cv
  | .portClearError .. => execPortClearError_keeps _ _ hr cv
  | .portRetrain .. => execPortRetrain_keeps _ _ hr cv
  | .portResume .. => execPortResume_keeps _ _ hr cv
  | .portSuspend .. => execPortSuspend_keeps _ _ hr cv
  | .portReset .. => execPortReset_keeps _ _ hr cv
  | .prtChgRead .. => execPrtChgRead_keeps _ _ hr cv
  | .xcvrIdentify .. => execXcvrIdentify_keeps _ hr cv
  | .xcvrDiagRead .. => execXcvrDiagRead_keeps _ _ hr cv
  | .sidebandScan .. => execSidebandScan_keeps _ hr cv
  | .modAbsChange .. => execModAbsChange_keeps _ hr cv
  | .losTxFaultAccept .. => execLosTxFaultAccept_keeps _ hr cv
  | .mscFault => execMscFault_keeps hr cv
  | .getPortStatus .. => execGetPortStatus_keeps _ hr cv
  | .setPortFeature .. => execSetPortFeature_keeps _ _ hr cv
  | .clearPortFeature .. => execClearPortFeature_keeps _ _ hr cv
  | .transactionStart .. => execTransactionStart_keeps _ _ _ hr cv
  | .answerReceive .. => execAnswerReceive_keeps _ _ _ _ _ hr cv
  | .answerTimeout .. => execAnswerTimeout_keeps _ _ _ hr cv
  | .callInReceive .. => execCallInReceive_keeps _ _ hr cv
  | .callOutReceive .. => execCallOutReceive_keeps _ _ _ _ _ hr cv
  | .commandReceive .. => execCommandReceive_keeps _ _ _ _ _ hr cv
  | .execAtExecute .. => execExecAtExecute_keeps _ _ hr cv
  | .pingReceive .. => execPingReceive_keeps _ _ _ hr cv
  | .setupReceive .. => execSetupReceive_keeps _ _ hr cv
  | .controlTransferTimeout .. => execControlTransferTimeout_keeps _ hr cv
  | .getStatus .. => execGetStatus_keeps _ hr cv
  | .clearHalt .. => execClearHalt_keeps _ hr cv
  | .resetEndpoint .. => execResetEndpoint_keeps _ hr cv
  | .setAddress .. => execSetAddress_keeps _ hr cv
  | .getRecord .. => execGetRecord_keeps _ hr cv
  | .getConfiguration .. => execGetConfiguration_keeps _ hr cv
  | .setConfiguration .. => execSetConfiguration_keeps _ hr cv
  | .setRemoteWake .. => execSetRemoteWake_keeps _ hr cv
  | .setLinkAsym .. => execSetLinkAsym_keeps _ hr cv
  | .contextFetchDone .. => execContextFetchDone_keeps _ _ hr cv
  | .doorbell .. => execDoorbell_keeps _ _ _ hr cv
  | .mringEnable .. => execMringEnable_keeps _ hr cv
  | .mringDisable .. => execMringDisable_keeps _ hr cv
  | .tdTake .. => execTdTake_keeps _ _ _ _ hr cv
  | .tdWriteback .. => execTdWriteback_keeps _ _ hr cv
  | .cmdWriteback .. => execCmdWriteback_keeps _ _ hr cv
  | .hostTransportStart .. => execHostTransportStart_keeps _ _ hr cv
  | .reservedOpcode .. => execReservedOpcode_keeps _ _ hr cv
  | .ringCreate .. => execRingCreate_keeps _ _ hr cv
  | .ringStop .. => execRingStop_keeps _ _ hr cv
  | .ringStart .. => execRingStart_keeps _ _ hr cv
  | .ringDestroy .. => execRingDestroy_keeps _ _ _ hr cv
  | .ringQuery .. => execRingQuery_keeps _ _ hr cv
  | .epInstall .. => execEpInstall_keeps _ _ _ _ hr cv
  | .epRemove .. => execEpRemove_keeps _ _ _ hr cv
  | .epStop .. => execEpStop_keeps _ _ _ hr cv
  | .epStart .. => execEpStart_keeps _ _ _ hr cv
  | .epReset .. => execEpReset_keeps _ _ _ hr cv
  | .epFlush .. => execEpFlush_keeps _ _ _ hr cv
  | .epQuery .. => execEpQuery_keeps _ _ _ hr cv
  | .subtreeGone .. => execSubtreeGone_keeps _ _ _ hr cv
  | .tdCancel .. => execTdCancel_keeps _ _ _ hr cv
  | .enumerate .. => execEnumerate_keeps _ _ _ _ hr cv
  | .xcvrRead .. => execXcvrRead_keeps _ _ hr cv
  | .portRate .. => execPortRate_keeps _ _ hr cv
  | .applyAdvice .. => execApplyAdvice_keeps _ _ _ hr cv
  | .schedBatch .. => execSchedBatch_keeps _ _ _ hr cv
  | .batchAdmitted .. => execBatchAdmitted_keeps _ hr cv
  | .schedReserve .. => execSchedReserve_keeps _ _ hr cv
  | .schedQuery .. => execSchedQuery_keeps _ _ hr cv
  | .schedClear .. => execSchedClear_keeps _ _ hr cv
  | .delayRelease .. => execDelayRelease_keeps _ hr cv
  | .notyetTimeout .. => execNotyetTimeout_keeps _ hr cv
  | .spillReturn .. => execSpillReturn_keeps _ _ hr cv
  | .spillEnable .. => execSpillEnable_keeps _ hr cv
  | .schDcntValWrite .. => execSchDcntValWrite_keeps _ hr cv
  | .schAdmEvtRead .. => execSchAdmEvtRead_keeps _ hr cv
  | .sampleBlockForm .. => execSampleBlockForm_keeps _ _ _ _ hr cv
  | .gatherDeadline .. => execGatherDeadline_keeps _ hr cv
  | .streamRecordWrite .. => execStreamRecordWrite_keeps _ hr cv
  | .coderBlockCode .. => execCoderBlockCode_keeps _ hr cv
  | .coderLateRaw .. => execCoderLateRaw_keeps _ hr cv
  | .gatherCreate .. => execGatherCreate_keeps _ _ _ _ hr cv
  | .gatherDestroy .. => execGatherDestroy_keeps _ _ hr cv
  | .gatherQuery .. => execGatherQuery_keeps _ _ hr cv
  | .coderAttach .. => execCoderAttach_keeps _ _ _ _ hr cv
  | .coderDetach .. => execCoderDetach_keeps _ _ hr cv
  | .coderQuery .. => execCoderQuery_keeps _ _ hr cv
  | .gthEvtRead .. => execGthEvtRead_keeps _ hr cv
  | .cdrEvtRead .. => execCdrEvtRead_keeps _ hr cv
  | .movGo .. => execMovGo_keeps _ _ hr cv
  | .movStop .. => execMovStop_keeps _ _ _ hr cv
  | .movSwchWrite .. => execMovSwchWrite_keeps _ hr cv
  | .swchApply => execSwchApply_keeps hr cv
  | .moverDescDone .. => execMoverDescDone_keeps _ _ _ _ _ _ hr cv
  | .reqLineRequest .. => execReqLineRequest_keeps _ _ _ _ hr cv
  | .hostReadFail .. => execHostReadFail_keeps _ _ _ _ _ _ _ hr cv
  | .moverRetry .. => execMoverRetry_keeps _ _ hr cv
  | .moverDryBoundary .. => execMoverDryBoundary_keeps _ hr cv
  | .movStsRead .. => execMovStsRead_keeps _ _ hr cv
  | .movGevtRead .. => execMovGevtRead_keeps _ hr cv
  | .sliceEnable .. => execSliceEnable_keeps _ _ hr cv
  | .sliceDisable .. => execSliceDisable_keeps _ _ _ hr cv
  | .sliceRingAllot .. => execSliceRingAllot_keeps _ _ hr cv
  | .sliceRingReclaim .. => execSliceRingReclaim_keeps _ _ hr cv
  | .sliceShare .. => execSliceShare_keeps _ _ hr cv
  | .sliceReset .. => execSliceReset_keeps _ _ hr cv
  | .sliceResetDone .. => execSliceResetDone_keeps _ hr cv
  | .sliceFreeze .. => execSliceFreeze_keeps _ _ hr cv
  | .sliceFrozen .. => execSliceFrozen_keeps _ _ hr cv
  | .sliceThaw .. => execSliceThaw_keeps _ _ hr cv
  | .sliceSave .. => execSliceSave_keeps _ _ _ hr cv
  | .sliceRestore .. => execSliceRestore_keeps _ _ _ _ _ _ hr cv
  | .sliceQuery .. => execSliceQuery_keeps _ _ _ hr cv
  | .mbmPost .. => execMbmPost_keeps _ _ hr cv
  | .mbtPost .. => execMbtPost_keeps _ _ hr cv
  | .mbmPop .. => execMbmPop_keeps _ _ hr cv
  | .mbtPop .. => execMbtPop_keeps _ _ hr cv
  | .mbmEvtRead .. => execMbmEvtRead_keeps _ _ hr cv
  | .mbtEvtRead .. => execMbtEvtRead_keeps _ _ hr cv
  | .sltEvtRead .. => execSltEvtRead_keeps _ _ hr cv
  | .sourceLineChange .. => execSourceLineChange_keeps _ _ _ hr cv
  | .icuPset .. => execIcuPset_keeps _ _ _ _ hr cv
  | .icuPclr .. => execIcuPclr_keeps _ _ _ _ hr cv
  | .icuEset .. => execIcuEset_keeps _ _ _ _ hr cv
  | .icuEclr .. => execIcuEclr_keeps _ _ _ _ hr cv
  | .sliPset .. => execSliPset_keeps _ _ _ hr cv
  | .sliPclr .. => execSliPclr_keeps _ _ _ hr cv
  | .sliEset .. => execSliEset_keeps _ _ _ hr cv
  | .sliEclr .. => execSliEclr_keeps _ _ _ hr cv
  | .icuSrccfgWrite .. => execIcuSrccfgWrite_keeps _ _ _ hr cv
  | .icuClaim .. => execIcuClaim_keeps _ _ hr cv
  | .icuDone .. => execIcuDone_keeps _ _ _ hr cv
  | .coreReturn .. => execCoreReturn_keeps _ _ hr cv
  | .coreWait .. => execCoreWait_keeps _ _ _ hr cv
  | .vectorModerationTimeout .. => execVectorModerationTimeout_keeps _ _ hr cv
  | .sliIdleWrite .. => execSliIdleWrite_keeps _ _ _ hr cv
  | .icuVstsWrite .. => execIcuVstsWrite_keeps _ _ hr cv
  | .msixUnmask .. => execMsixUnmask_keeps _ _ _ _ hr cv
  | .twinEnable .. => execTwinEnable_keeps _ hr cv
  | .twinLinkUp => execTwinLinkUp_keeps hr cv
  | .beatReceive .. => execBeatReceive_keeps _ _ hr cv
  | .beatMissed .. => execBeatMissed_keeps _ hr cv
  | .shadowReceive .. => execShadowReceive_keeps _ _ hr cv
  | .mirrorReceive .. => execMirrorReceive_keeps _ hr cv
  | .mconfReceive .. => execMconfReceive_keeps _ _ hr cv
  | .mconfLate .. => execMconfLate_keeps _ hr cv
  | .handoverSend .. => execHandoverSend_keeps _ hr cv
  | .handoverReceive .. => execHandoverReceive_keeps _ _ hr cv
  | .tokenQuery .. => execTokenQuery_keeps _ _ hr cv
  | .tokenClaim .. => execTokenClaim_keeps _ _ _ _ _ hr cv
  | .tokenRelease .. => execTokenRelease_keeps _ _ _ _ hr cv
  | .tokenMsgRepeat .. => execTokenMsgRepeat_keeps _ _ _ hr cv
  | .tokenStateReceive .. => execTokenStateReceive_keeps _ _ _ hr cv
  | .tokenGrantReceive .. => execTokenGrantReceive_keeps _ _ _ _ hr cv
  | .tokenDenyReceive .. => execTokenDenyReceive_keeps _ _ hr cv
  | .tokenLostReceive .. => execTokenLostReceive_keeps _ _ hr cv
  | .twinClaim .. => execTwinClaim_keeps _ _ _ hr cv
  | .twinForce .. => execTwinForce_keeps _ _ _ hr cv
  | .twinRelease .. => execTwinRelease_keeps _ _ _ hr cv
  | .twinQuery .. => execTwinQuery_keeps _ _ hr cv
  | .twnEvtRead .. => execTwnEvtRead_keeps _ hr cv
  | .pwrRequest .. => execPwrRequest_keeps _ _ _ hr cv
  | .consentDone .. => execConsentDone_keeps _ _ hr cv
  | .dealerStopped .. => execDealerStopped_keeps _ _ hr cv
  | .portsStopped .. => execPortsStopped_keeps _ hr cv
  | .moverTwinStopped .. => execMoverTwinStopped_keeps _ hr cv
  | .pcieStopped .. => execPcieStopped_keeps _ hr cv
  | .wakeNInput .. => execWakeNInput_keeps _ hr cv
  | .wakeSenseTrip .. => execWakeSenseTrip_keeps _ _ _ hr cv
  | .pcieWake .. => execPcieWake_keeps _ hr cv
  | .twinSignalWake .. => execTwinSignalWake_keeps _ hr cv
  | .restoreStep .. => execRestoreStep_keeps _ _ _ _ _ hr cv
  | .pwrSenseWrite .. => execPwrSenseWrite_keeps _ hr cv
  | .pwrEvtRead .. => execPwrEvtRead_keeps _ hr cv
  | .porRelease .. => execPorRelease_keeps _ hr cv
  | .startReady .. => execStartReady_keeps _ hr cv
  | .startWatchdog .. => execStartWatchdog_keeps _ hr cv
  | .flr .. => execFlr_keeps _ _ _ _ _ hr cv
  | .monitorSample .. => execMonitorSample_keeps _ _ _ _ hr cv
  | .thermalSample .. => execThermalSample_keeps _ _ hr cv
  | .tripComparatorSample .. => execTripComparatorSample_keeps _ hr cv
  | .sramCorrected .. => execSramCorrected_keeps _ _ hr cv
  | .sramUncorrectable .. => execSramUncorrectable_keeps _ _ _ hr cv
  | .supplyExcursion .. => execSupplyExcursion_keeps _ _ hr cv
  | .retireCopyDone .. => execRetireCopyDone_keeps _ hr cv
  | .healthRecordWrite => execHealthRecordWrite_keeps hr cv
  | .policyPowerIdle => execPolicyPowerIdle_keeps hr cv
  | .hltRecord .. => execHltRecord_keeps _ _ hr cv
  | .hltPoolShrink .. => execHltPoolShrink_keeps _ _ hr cv
  | .portEye .. => execPortEye_keeps _ _ _ hr cv
  | .fwStage .. => execFwStage_keeps _ _ hr cv
  | .fwActivate .. => execFwActivate_keeps _ _ hr cv
  | .fwCommit .. => execFwCommit_keeps _ _ hr cv
  | .fwQuery .. => execFwQuery_keeps _ _ hr cv
  | .zeroize .. => execZeroize_keeps _ _ _ hr cv
  | .debugResponse .. => execDebugResponse_keeps _ _ _ hr cv
  | .secDbgAllowWrite .. => execSecDbgAllowWrite_keeps _ hr cv
  | .hltEvtRead .. => execHltEvtRead_keeps _ hr cv
  | .secEvtRead .. => execSecEvtRead_keeps _ hr cv
  | .registerWrite .. => execRegisterWrite_keeps _ _ _ _ hr cv
  | .aliasWrite .. => execAliasWrite_keeps _ _ _ _ _ hr cv
  | .indDataRead .. => execIndDataRead_keeps _ _ hr cv
  | .indDataWrite .. => execIndDataWrite_keeps _ _ hr cv
  | .indAccessDone => execIndAccessDone_keeps hr cv
  | .gctlAccessErrRead .. => execGctlAccessErrRead_keeps _ hr cv
  | .perstNAssert => execPerstNAssert_keeps hr cv
  | .perstNRelease .. => execPerstNRelease_keeps _ _ hr cv
  | .pwrGoodLow .. => execPwrGoodLow_keeps _ hr cv
  | .vaonLoss => execVaonLoss_keeps hr cv
  | .pcieTlpError .. => execPcieTlpError_keeps _ _ hr cv
  | .irigOnTimeMark .. => execIrigOnTimeMark_keeps _ hr cv
  | .twinLinkDown => execTwinLinkDown_keeps hr cv
  | .twinAckReceive .. => execTwinAckReceive_keeps _ hr cv
  | .twinRetryReceive .. => execTwinRetryReceive_keeps _ hr cv
  | .localTick .. => execLocalTick_keeps _ _ _ hr cv
  | .holderFrameMissed .. => execHolderFrameMissed_keeps _ hr cv
  | .pcieStopTimeout .. => execPcieStopTimeout_keeps _ hr cv
  | .moverStopTimeout .. => execMoverStopTimeout_keeps _ hr cv
  | .fwStageDone .. => execFwStageDone_keeps _ _ hr cv
  | .identityBusReadDone .. => execIdentityBusReadDone_keeps _ _ _ hr cv

theorem step_inv {s t : State} (h : s.Inv) (e : Steps s t) : t.Inv := by
  unfold Steps step at e
  split at e
  case h_1 =>
    cases e
    exact h
  case h_2 c rest _ =>
    have h' : State.Inv { s with pending := rest } := ⟨h.pool, h.regs⟩
    exact (exec_keeps (P := fun _ => true) (Keeps.refl _) (fun _ _ => rfl) c t e).inv h'

theorem resetOf_inv (v : Variant) : (State.resetOf v).Inv := ⟨rfl, regTab_reset v⟩

theorem resetOf_ordered (v : Variant) : Ordered (State.resetOf v) := by
  cases v <;> (unfold Ordered; decide)

/-- Settles O58: the queue's front is a command of the table, and each of them keeps both halves of the form. -/
theorem stepsKeepTheInvariant : Obligations.StepsKeepTheInvariant :=
  ⟨fun _ _ => step_inv, fun _ _ => step_ordered⟩

/-- Settles O59: the pool is empty, and three registers are listed. -/
theorem resetMeetsTheInvariant : Obligations.ResetMeetsTheInvariant :=
  fun v => ⟨resetOf_inv v, resetOf_ordered v⟩

end Sys2Proof.Machine
end

