-- ==== Sys2Proof/Proofs/RegisterWrites.lean ====
section
/-! Register writes (chapter 16): which of its cases a write request takes by its width and by what its offset names, what a plain register and the
access error log hold after it, and from that O54. -/

namespace Sys2Proof.Machine

/-! ### Answers -/

/-- A command whose function has a law of what it keeps answers, with its reach as `parts` gives it. -/
theorem answers_of_keeps {i : Instr} {s t : State} {Q : State → Prop} (e : exec i s = .next t) (k : ∀ P, Covers P (parts i) → Keeps P s t)
    (q : Q t) : Answers i s Q := by
  have h := k (fun p => decide (p ∈ parts i)) fun p hp => decide_eq_true hp
  exact ⟨t, e, ⟨h.queue, fun p hp => h.same p (decide_eq_false hp)⟩, q⟩

theorem answers_registerWrite {bar ofs u : Nat} {dws : List (Nat × Nat)} {s : State} {Q : State → Prop}
    (q : Q ((s.at_ u).reqWrite bar (ofs / 4 * 4) dws u)) : Answers (.registerWrite bar ofs dws u) s Q :=
  answers_of_keeps (t := (s.at_ u).reqWrite bar (ofs / 4 * 4) dws u) rfl
    (fun _ cv => execRegisterWrite_keeps bar ofs dws u (Keeps.refl s) cv _ rfl) q

theorem answers_aliasWrite {ofs be data u : Nat} {s : State} {Q : State → Prop} (ha : inAlias ofs = true)
    (q : Q ((s.at_ u).reqWrite 0 (ofs / 4 * 4) [(be, data)] u)) : Answers (.aliasWrite 0 ofs be data u) s Q := by
  have e : execAliasWrite 0 ofs be data u s = .next ((s.at_ u).reqWrite 0 (ofs / 4 * 4) [(be, data)] u) := by simp [execAliasWrite, ha]
  exact answers_of_keeps e (fun _ cv => execAliasWrite_keeps 0 ofs be data u (Keeps.refl s) cv _ e) q

/-! ### What an instant leaves as it is -/

@[simp] theorem State.rd_at_ (s : State) (u : Nat) (q : Reg) (j : Nat) : (s.at_ u).rd q j = s.rd q j := rfl
@[simp] theorem State.fgetN_at_ (s : State) (u : Nat) (g : Fld) (j : Nat) : (s.at_ u).fgetN g j = s.fgetN g j := rfl
@[simp] theorem State.flag_at_ (s : State) (u : Nat) (g : Fld) : (s.at_ u).flag g = s.flag g := rfl
@[simp] theorem State.fget_at_ (s : State) (u : Nat) (g : Fld) : (s.at_ u).fget g = s.fget g := rfl
@[simp] theorem State.accessOpen_at_ (s : State) (u bar o : Nat) : (s.at_ u).accessOpen bar o = s.accessOpen bar o := rfl
@[simp] theorem State.absentOfs_at_ (s : State) (u o : Nat) : (s.at_ u).absentOfs o = s.absentOfs o := rfl
@[simp] theorem State.exempt_at_ (s : State) (u bar o : Nat) : (s.at_ u).exempt bar o = s.exempt bar o := rfl
@[simp] theorem State.unmapped_at_ (s : State) (u bar o : Nat) : (s.at_ u).unmapped bar o = s.unmapped bar o := rfl
@[simp] theorem State.out_at_ (s : State) (u : Nat) : (s.at_ u).out = s.out := rfl
@[simp] theorem State.icu_at_ (s : State) (u : Nat) : (s.at_ u).icu = s.icu := rfl
@[simp] theorem State.tim_at_ (s : State) (u : Nat) : (s.at_ u).tim = s.tim.runTo u := rfl

/-! ### Which register an offset names -/

theorem regAt_sound {space o i k : Nat} {r : Reg} (h : regAt space o = some (r, i, k)) : r.info.bar = space ∧ r.info.hit o = some (i, k) := by
  obtain ⟨q, -, hq⟩ := List.exists_of_findSome?_eq_some h
  split at hq
  case isTrue hb =>
    obtain ⟨x, hx, e⟩ := Option.map_eq_some_iff.1 hq
    cases e
    exact ⟨hb, hx⟩
  case isFalse => cases hq

/-- No copy of a register lies further on than its count of strides. -/
theorem RegInfo.hit_lt {x : RegInfo} {o : Nat} {y : Nat × Nat} (h : x.hit o = some y) :
    o < x.base + x.count * x.stride + x.sub * x.stride2 + x.width := by
  unfold RegInfo.hit at h
  extract_lets d a r j k at h
  split at h
  case isFalse => cases h
  case isTrue c =>
    obtain ⟨hb, hj, hk, hc⟩ := c
    have ha : a ≤ a * x.sub := Nat.le_mul_of_pos_right a (by omega)
    have h1 : a * x.stride ≤ x.count * x.stride := Nat.mul_le_mul_right _ (by omega)
    have h2 : j * x.stride2 ≤ x.sub * x.stride2 := Nat.mul_le_mul_right _ (by omega)
    have h3 : x.width / 8 ≤ x.width := Nat.div_le_self _ _
    omega

/-- What the tables give of the plain registers: no bit of one acts when it is written. -/
theorem plain_info : ∀ r ∈ plainRegs, r.info.act = 0 ∧ r ≠ .GCTL_POLICY ∧ r ≠ .SCH_MRING_DB ∧ r ≠ .RING_DB := by decide

theorem not_doorbell_of_plain {o i k : Nat} {r : Reg} (h : regAt 0 o = some (r, i, k)) (hr : r ∈ plainRegs) :
    State.isDoorbell 0 o = false := by
  obtain ⟨-, -, hm, hd⟩ := plain_info r hr
  simp [State.isDoorbell, barSpace, h, hm, hd]

theorem not_doorbell_of_unmapped {o : Nat} (h : regAt 0 o = none) : State.isDoorbell 0 o = false := by
  simp [State.isDoorbell, barSpace, h]

/-- The doorbells of BAR0 lie below the bit alias, those of the rings in BAR2. -/
theorem not_doorbell_of_alias {o : Nat} (h : inAlias o = true) : State.isDoorbell 0 o = false := by
  simp only [inAlias, decide_eq_true_eq] at h
  unfold State.isDoorbell
  split
  case h_1 r i k e =>
    obtain ⟨hb, hh⟩ := regAt_sound e
    have hlt := RegInfo.hit_lt hh
    have hm : r ≠ .SCH_MRING_DB := by
      rintro rfl
      have hend : Reg.info .SCH_MRING_DB = ⟨0, 0x3e10, 0x40, 1, 0, 4, 64, 0, 0, 0xffffffffffffffff, 0, 0xffffffffffffffff⟩ := rfl
      simp only [hend] at hlt
      omega
    have hd : r ≠ .RING_DB := by
      rintro rfl
      cases hb
    simp [hm, hd]
  case h_2 => rfl

theorem not_absent_of_alias {s : State} {o : Nat} (h : inAlias o = true) : s.absentOfs o = false := by
  simp only [inAlias, decide_eq_true_eq] at h
  have hin (a b : Nat) (hb : b ≤ 0x80000) : (decide (a ≤ o) && decide (o < b)) = false := by
    simp only [Bool.and_eq_false_iff, decide_eq_false_iff_not]
    omega
  simp [State.absentOfs, hin]

/-! ### A request by its width (R466, Table 16.2) -/

theorem reqWrite_closed {s : State} {bar o t : Nat} {dws : List (Nat × Nat)} (h : s.accessOpen bar o = false) : s.reqWrite bar o dws t = s := by
  simp [State.reqWrite, h]

/-- One full DW is applied, and logged where nothing is mapped. -/
theorem reqWrite_dw {s : State} {bar o data t : Nat} (ho : s.accessOpen bar o = true) (hd : State.isDoorbell bar o = false) :
    s.reqWrite bar o [(15, data)] t =
      if s.unmapped bar o then (s.dwWrite bar o data t).accessError 3 0 15 0 o else s.dwWrite bar o data t := by
  simp [State.reqWrite, ho, hd, upto, errorBe]

/-- A DW with some byte enables clear and some set is dropped and logged. -/
theorem reqWrite_narrow {s : State} {bar o be data t : Nat} (ho : s.accessOpen bar o = true) (hx : s.exempt bar o = false) (h0 : 0 < be)
    (h15 : be < 15) : s.reqWrite bar o [(be, data)] t =
      s.accessError (if sideBySide (enables [(be, data)]) then 1 else 2) (bit (bar != 0)) be 0 o := by
  have hm : be % 16 = be := Nat.mod_eq_of_lt (by omega)
  have hz : be ≠ 0 := by omega
  have hf : be ≠ 15 := by omega
  simp [State.reqWrite, ho, hx, upto, errorBe, hm, hz, hf]

/-! ### A plain register is stored (R465) -/

theorem regWrite_plain {s : State} {r : Reg} (hr : r ∈ plainRegs) (i mask data t : Nat) : s.regWrite r i mask data t = s.store r i mask data := by
  simp only [plainRegs, List.mem_cons, List.not_mem_nil, or_false] at hr
  rcases hr with h | h | h | h | h | h | h | h | h | h | h | h | h | h | h | h | h | h | h | h | h | h | h | h | h | h | h | h | h <;> exact h ▸ rfl

theorem storedBits_plain {s : State} {r : Reg} (hr : r ∈ plainRegs) : s.storedBits r = BitVec.ofNat 64 r.info.rw := by
  obtain ⟨-, hp, -⟩ := plain_info r hr
  simp [State.storedBits, hp]

/-- A plain register after a store under a mask: the mask's RW bits take the data. -/
theorem rd_store_plain {s : State} {r : Reg} (hr : r ∈ plainRegs) (i mask data : Nat) :
    (s.store r i mask data).rd r i = ((s.rd r i &&& ~~~(BitVec.ofNat 64 mask &&& BitVec.ofNat 64 r.info.rw)) |||
      (BitVec.ofNat 64 data &&& (BitVec.ofNat 64 mask &&& BitVec.ofNat 64 r.info.rw))) &&& r.bits := by
  simp [State.store, storedBits_plain hr]

theorem store_onlyReg (s : State) (r : Reg) (i mask data : Nat) : OnlyReg r i s (s.store r i mask data) :=
  fun _ _ h => State.rd_wr_other _ _ h

theorem dwWrite_plain {s : State} {o data t i k : Nat} {r : Reg} (h : regAt 0 o = some (r, i, k)) (hr : r ∈ plainRegs)
    (ha : s.absentOfs o = false) (hi : inAlias o = false) :
    s.dwWrite 0 o data t = s.store r i ((2 ^ 32 - 1) * 2 ^ (32 * k)) (data % 2 ^ 32 * 2 ^ (32 * k)) := by
  simp [State.dwWrite, State.pageShut, barSpace, ha, hi, h, regWrite_plain hr]

theorem dwWrite_unmapped {s : State} {o data t : Nat} (h : regAt 0 o = none) (hi : inAlias o = false) : s.dwWrite 0 o data t = s := by
  simp [State.dwWrite, barSpace, h, hi]

theorem dwWrite_alias {s : State} {o data t : Nat} (hi : inAlias o = true) : s.dwWrite 0 o data t = s.aliasBit 0 o data t := by
  have ha := not_absent_of_alias (s := s) hi
  unfold State.dwWrite
  rw [if_neg (by simp [State.pageShut, ha]), if_pos (by simp [hi])]

/-- An alias word writes its one bit, where software can write that (R470). -/
theorem aliasBit_plain {s : State} {bar o data t w b i k : Nat} {r : Reg} (hw : aliased bar o = (w, b))
    (h : regAt (barSpace bar) w = some (r, i, k)) (hr : r ∈ plainRegs) (ha : s.absentOfs w = false)
    (hn : nfield r.info.rw (32 * k + b) (32 * k + b) = 1) :
    s.aliasBit bar o data t = s.store r i (2 ^ (32 * k + b)) (data % 2 * 2 ^ (32 * k + b)) := by
  obtain ⟨hact, -⟩ := plain_info r hr
  have hz : nfield 0 (32 * k + b) (32 * k + b) = 0 := by simp [nfield]
  simp [State.aliasBit, hw, h, ha, hact, hn, hz, regWrite_plain hr]

/-! ### The access error log (R473) -/

theorem State.fget_fset_same (s : State) (f : Fld) (v : Nat) (ok : f.ok = true) : (s.fset f v).fget f = v % 2 ^ (f.hi + 1 - f.lo) :=
  s.fgetN_fsetN_same f 0 v ok

theorem State.fget_fset_apart (s : State) (f g : Fld) (v : Nat) (ha : f.apart g = true) : (s.fset f v).fget g = s.fget g :=
  s.fgetN_apart f g 0 0 v ha

theorem State.fget_wr_other (s : State) (r : Reg) (g : Fld) (v : DWord) (h : g.reg ≠ r) : (s.wr r 0 v).fget g = s.fget g := by
  simp only [State.fget, State.fgetN, State.rd_wr_other s v (.inl h)]

theorem State.rd_fset_other (s : State) (f : Fld) (v j : Nat) {q : Reg} (h : q ≠ f.reg) : (s.fset f v).rd q j = s.rd q j :=
  s.rd_fsetN_other f q 0 j v (.inl h)

/-- An offset and a domain fill GCTL_ACCESS_ADDR, which has no reserved bit. -/
theorem accessAddr_bits {n : Nat} (h : n < 2 ^ 32) : BitVec.ofNat 64 n &&& Reg.bits .GCTL_ACCESS_ADDR = BitVec.ofNat 64 n := by
  apply BitVec.eq_of_toNat_eq
  have hb : (Reg.bits .GCTL_ACCESS_ADDR).toNat = 2 ^ 32 - 1 := by decide
  rw [BitVec.toNat_and, hb, Nat.and_two_pow_sub_one_eq_mod, BitVec.toNat_ofNat]
  omega

/-- The log with a first error in it. -/
theorem accessError_eq_of_first {s : State} {kind bar be o : Nat} (h : s.flag .GCTL_ACCESS_ERR_VALID = false) (he : be < 16) :
    s.accessError kind bar be 0 o = ((((((s.fset .GCTL_ACCESS_ERR_VALID 1).fset .GCTL_ACCESS_ERR_KIND kind).fset .GCTL_ACCESS_ERR_BAR bar).fset
      .GCTL_ACCESS_ERR_FIRST_BE be).fset .GCTL_ACCESS_ERR_LAST_BE 0).fset .GCTL_ACCESS_ERR_COUNT 1).wr .GCTL_ACCESS_ADDR 0
        (BitVec.ofNat 64 (o % 2 ^ 24)) := by
  have hl : be / 16 = 0 := by omega
  simp [State.accessError, h, hl, State.raise, State.raiseN, State.fset]

/-- The first error is recorded: its kind, BAR, byte enables and offset; it alone is counted. -/
theorem accessError_first {s : State} {kind bar be o : Nat} (h : s.flag .GCTL_ACCESS_ERR_VALID = false) (hk : kind < 8) (hb : bar < 2)
    (he : be < 16) {t : State} (ht : t = s.accessError kind bar be 0 o) :
    t.flag .GCTL_ACCESS_ERR_VALID = true ∧ t.fget .GCTL_ACCESS_ERR_KIND = kind ∧ t.fget .GCTL_ACCESS_ERR_BAR = bar ∧
    t.fget .GCTL_ACCESS_ERR_FIRST_BE = be ∧ t.fget .GCTL_ACCESS_ERR_LAST_BE = 0 ∧ t.fget .GCTL_ACCESS_ERR_COUNT = 1 ∧
    t.rd .GCTL_ACCESS_ADDR 0 = BitVec.ofNat 64 (o % 2 ^ 24) ∧
    (∀ q j, q ≠ .GCTL_ACCESS_ERR → q ≠ .GCTL_ACCESS_ADDR → t.rd q j = s.rd q j) ∧ t.out = s.out := by
  rw [accessError_eq_of_first h he] at ht
  subst ht
  refine ⟨?_, ?_, ?_, ?_, ?_, ?_, ?_, fun q j h1 h2 => ?_, by simp [State.fset]⟩
  · change (State.fget _ .GCTL_ACCESS_ERR_VALID != 0) = true
    simp (disch := decide) only [State.fget_wr_other, State.fget_fset_apart, State.fget_fset_same]
    rfl
  · simp (disch := decide) only [State.fget_wr_other, State.fget_fset_apart, State.fget_fset_same]
    exact Nat.mod_eq_of_lt hk
  · simp (disch := decide) only [State.fget_wr_other, State.fget_fset_apart, State.fget_fset_same]
    exact Nat.mod_eq_of_lt hb
  · simp (disch := decide) only [State.fget_wr_other, State.fget_fset_apart, State.fget_fset_same]
    exact Nat.mod_eq_of_lt he
  · simp (disch := decide) only [State.fget_wr_other, State.fget_fset_apart, State.fget_fset_same]
    rfl
  · simp (disch := decide) only [State.fget_wr_other, State.fget_fset_same]
    rfl
  · rw [State.rd_wr_same, accessAddr_bits (by omega)]
  · rw [State.rd_wr_other _ _ (.inl h2)]
    simp [State.rd_fset_other, h1]

/-- A further error is counted, and the first one stays. -/
theorem accessError_further {s : State} {kind bar be o : Nat} (h : s.flag .GCTL_ACCESS_ERR_VALID = true) {t : State}
    (ht : t = s.accessError kind bar be 0 o) :
    t.flag .GCTL_ACCESS_ERR_MORE = true ∧ t.fget .GCTL_ACCESS_ERR_COUNT = min 65535 (s.fget .GCTL_ACCESS_ERR_COUNT + 1) ∧
    OnlyFields [.GCTL_ACCESS_ERR_MORE, .GCTL_ACCESS_ERR_COUNT] s t ∧ t.out = s.out := by
  have e : t = (s.raise .GCTL_ACCESS_ERR_MORE).count .GCTL_ACCESS_ERR_COUNT := by simp [ht, State.accessError, h]
  have hc : (s.raise .GCTL_ACCESS_ERR_MORE).fgetN .GCTL_ACCESS_ERR_COUNT 0 = s.fget .GCTL_ACCESS_ERR_COUNT :=
    s.fgetN_apart _ _ _ _ _ (by decide)
  have hm : ((s.raise .GCTL_ACCESS_ERR_MORE).count .GCTL_ACCESS_ERR_COUNT).fgetN .GCTL_ACCESS_ERR_MORE 0 = 1 :=
    (State.fgetN_apart _ _ _ _ _ _ (by decide)).trans (State.fgetN_fsetN_same _ _ _ _ (by decide))
  subst e
  refine ⟨by simp [State.flag, hm], ?_, fun g i hg => ?_, rfl⟩
  · refine (State.fgetN_fsetN_same _ _ _ _ (by decide)).trans ?_
    rw [hc]
    simp [satAdd, Fld.GCTL_ACCESS_ERR_COUNT, Nat.add_comm]
  · exact (State.fgetN_apart _ _ _ _ _ _ (hg _ (by simp))).trans (s.fgetN_apart _ _ _ _ _ (hg _ (by simp)))

/-! ### The clauses -/

theorem div_four_mul {o : Nat} (h : o % 4 = 0) : o / 4 * 4 = o := by omega

theorem unmapped_parts {s : State} {o : Nat} (h : s.unmapped 0 o = true) : inAlias o = false ∧ regAt 0 o = none := by
  simp only [State.unmapped, Bool.and_eq_true, Bool.not_eq_true', Option.isNone_iff_eq_none] at h
  obtain ⟨⟨⟨-, hi⟩, -⟩, hnone⟩ := h
  exact ⟨hi, hnone⟩

theorem not_unmapped_of_reg {s : State} {o : Nat} {x : Reg × Nat × Nat} (h : regAt 0 o = some x) : s.unmapped 0 o = false := by
  simp [State.unmapped, h]

theorem not_unmapped_of_alias {s : State} {o : Nat} (h : inAlias o = true) : s.unmapped 0 o = false := by
  simp [State.unmapped, h]

/-- The mask of one bit that software can write is that bit. -/
theorem bit_and_rw {n w : Nat} (h : nfield w n n = 1) : BitVec.ofNat 64 (2 ^ n) &&& BitVec.ofNat 64 w = BitVec.ofNat 64 (2 ^ n) := by
  have hw : w.testBit n = true := by
    rw [Nat.testBit_eq_decide_div_mod_eq, decide_eq_true_eq]
    simpa [nfield] using h
  rw [← BitVec.ofNat_and, Nat.two_pow_and, hw]
  simp

theorem data_and_bit (d n : Nat) : BitVec.ofNat 64 (d % 2 * 2 ^ n) &&& BitVec.ofNat 64 (2 ^ n) = BitVec.ofNat 64 (d % 2 * 2 ^ n) := by
  rcases Nat.mod_two_eq_zero_or_one d with h | h <;> simp [h]

/-- A plain register at an offset of BAR0 takes the RW bits of one full DW. -/
theorem answers_plain_write {s : State} {ofs data u i k : Nat} {r : Reg} {m : DWord} (h4 : ofs % 4 = 0) (hreg : regAt 0 ofs = some (r, i, k))
    (hr : r ∈ plainRegs) (ho : s.accessOpen 0 ofs = true) (ha : s.absentOfs ofs = false) (hi : inAlias ofs = false)
    (hm : m = BitVec.ofNat 64 ((2 ^ 32 - 1) * 2 ^ (32 * k)) &&& BitVec.ofNat 64 r.info.rw) :
    Answers (.registerWrite 0 ofs [(15, data)] u) s fun t =>
      t.rd r i = ((s.rd r i &&& ~~~m) ||| (BitVec.ofNat 64 (data % 2 ^ 32 * 2 ^ (32 * k)) &&& m)) &&& r.bits ∧ OnlyReg r i s t ∧
      t.tim = s.tim.runTo u ∧ t.out = s.out ∧ t.icu = s.icu := by
  apply answers_registerWrite
  rw [div_four_mul h4, reqWrite_dw (by simpa using ho) (not_doorbell_of_plain hreg hr), not_unmapped_of_reg hreg,
    if_neg Bool.false_ne_true, dwWrite_plain hreg hr (by simpa using ha) hi, rd_store_plain hr, hm]
  exact ⟨rfl, store_onlyReg (s.at_ u) r i _ _, rfl, rfl, rfl⟩

/-- A narrow or sparse write is the first error. -/
theorem answers_narrow_first {s : State} {ofs be data u : Nat} (h4 : ofs % 4 = 0) (ho : s.accessOpen 0 ofs = true)
    (hx : s.exempt 0 ofs = false) (h0 : 0 < be) (h15 : be < 15) (hv : s.flag .GCTL_ACCESS_ERR_VALID = false) :
    Answers (.registerWrite 0 ofs [(be, data)] u) s fun t =>
      t.flag .GCTL_ACCESS_ERR_VALID = true ∧ t.fget .GCTL_ACCESS_ERR_KIND = (if sideBySide (enables [(be, data)]) then 1 else 2) ∧
      t.fget .GCTL_ACCESS_ERR_BAR = 0 ∧ t.fget .GCTL_ACCESS_ERR_FIRST_BE = be ∧ t.fget .GCTL_ACCESS_ERR_LAST_BE = 0 ∧
        t.fget .GCTL_ACCESS_ERR_COUNT = 1 ∧
      t.rd .GCTL_ACCESS_ADDR 0 = BitVec.ofNat 64 (ofs % 2 ^ 24) ∧
      (∀ q j, q ≠ .GCTL_ACCESS_ERR → q ≠ .GCTL_ACCESS_ADDR → t.rd q j = s.rd q j) ∧ t.out = s.out := by
  apply answers_registerWrite
  rw [div_four_mul h4, reqWrite_narrow (by simpa using ho) (by simpa using hx) h0 h15]
  exact accessError_first (s := s.at_ u) (by simpa using hv) (by split <;> omega) (by decide) (by omega) rfl

/-- A narrow or sparse write is a further error. -/
theorem answers_narrow_further {s : State} {ofs be data u : Nat} (h4 : ofs % 4 = 0) (ho : s.accessOpen 0 ofs = true)
    (hx : s.exempt 0 ofs = false) (h0 : 0 < be) (h15 : be < 15) (hv : s.flag .GCTL_ACCESS_ERR_VALID = true) :
    Answers (.registerWrite 0 ofs [(be, data)] u) s fun t =>
      t.flag .GCTL_ACCESS_ERR_MORE = true ∧ t.fget .GCTL_ACCESS_ERR_COUNT = min 65535 (s.fget .GCTL_ACCESS_ERR_COUNT + 1) ∧
      OnlyFields [.GCTL_ACCESS_ERR_MORE, .GCTL_ACCESS_ERR_COUNT] s t ∧ t.out = s.out := by
  apply answers_registerWrite
  rw [div_four_mul h4, reqWrite_narrow (by simpa using ho) (by simpa using hx) h0 h15]
  exact accessError_further (s := s.at_ u) (by simpa using hv) rfl

/-- A full DW at a reserved offset is logged as UNMAPPED, and writes nothing. -/
theorem answers_unmapped {s : State} {ofs data u : Nat} (h4 : ofs % 4 = 0) (ho : s.accessOpen 0 ofs = true) (hu : s.unmapped 0 ofs = true)
    (hv : s.flag .GCTL_ACCESS_ERR_VALID = false) :
    Answers (.registerWrite 0 ofs [(15, data)] u) s fun t =>
      t.flag .GCTL_ACCESS_ERR_VALID = true ∧ t.fget .GCTL_ACCESS_ERR_KIND = 3 ∧ t.rd .GCTL_ACCESS_ADDR 0 = BitVec.ofNat 64 (ofs % 2 ^ 24) ∧
      (∀ q j, q ≠ .GCTL_ACCESS_ERR → q ≠ .GCTL_ACCESS_ADDR → t.rd q j = s.rd q j) ∧ t.out = s.out := by
  obtain ⟨hi, hnone⟩ := unmapped_parts hu
  apply answers_registerWrite
  rw [div_four_mul h4, reqWrite_dw (by simpa using ho) (not_doorbell_of_unmapped hnone), State.unmapped_at_, if_pos hu,
    dwWrite_unmapped hnone hi]
  obtain ⟨valid, kind, -, -, -, -, addr, rest, out⟩ :=
    accessError_first (s := s.at_ u) (kind := 3) (bar := 0) (be := 15) (o := ofs) (by simpa using hv) (by decide) (by decide) (by decide) rfl
  exact ⟨valid, kind, addr, rest, out⟩

/-- Before the start is complete a write beyond the open blocks does nothing (R439). -/
theorem answers_closed {s : State} {bar ofs u : Nat} {dws : List (Nat × Nat)} (ho : s.accessOpen bar (ofs / 4 * 4) = false) :
    Answers (.registerWrite bar ofs dws u) s fun t => OnlyFields [] s t ∧ t.out = s.out ∧ t.tim = s.tim.runTo u := by
  apply answers_registerWrite
  rw [reqWrite_closed (by simpa using ho)]
  exact ⟨fun _ _ _ => rfl, rfl, rfl⟩

/-- An alias word writes its one bit of a plain register. -/
theorem answers_alias_write {s : State} {ofs data u w b i k n : Nat} {r : Reg} (h4 : ofs % 4 = 0) (hi : inAlias ofs = true)
    (hw : aliased 0 ofs = (w, b)) (hreg : regAt 0 w = some (r, i, k)) (hr : r ∈ plainRegs) (ho : s.accessOpen 0 ofs = true)
    (ha : s.absentOfs w = false) (hn : n = 32 * k + b) (hrw : nfield r.info.rw n n = 1) :
    Answers (.aliasWrite 0 ofs 15 data u) s fun t =>
      t.rd r i = ((s.rd r i &&& ~~~ BitVec.ofNat 64 (2 ^ n)) ||| BitVec.ofNat 64 (data % 2 * 2 ^ n)) &&& r.bits ∧ OnlyReg r i s t ∧
        t.out = s.out := by
  subst hn
  apply answers_aliasWrite hi
  rw [div_four_mul h4, reqWrite_dw (by simpa using ho) (not_doorbell_of_alias hi), not_unmapped_of_alias hi, if_neg Bool.false_ne_true,
    dwWrite_alias hi, aliasBit_plain hw hreg hr (by simpa using ha) hrw, rd_store_plain hr, bit_and_rw hrw, data_and_bit]
  exact ⟨rfl, store_onlyReg (s.at_ u) r i _ _, rfl⟩

/-- Settles O54: each clause is the law of one form of the write, by the request's width and by what its offset names. -/
theorem registerWritesAct : Obligations.RegisterWritesAct := by
  unfold Obligations.RegisterWritesAct
  exact ⟨fun _ _ _ _ _ _ _ _ h4 hreg hr ho ha hi hm => answers_plain_write h4 hreg hr ho ha hi hm,
    fun _ _ _ _ _ h4 ho hx h0 h15 hv => answers_narrow_first h4 ho hx h0 h15 hv,
    fun _ _ _ _ _ h4 ho hx h0 h15 hv => answers_narrow_further h4 ho hx h0 h15 hv,
    fun _ _ _ _ h4 ho hu hv => answers_unmapped h4 ho hu hv,
    fun _ _ _ _ _ ho => answers_closed ho,
    fun _ _ _ _ _ _ _ _ _ _ h4 hi hw hreg hr ho ha hn hrw => answers_alias_write h4 hi hw hreg hr ho ha hn hrw⟩

end Sys2Proof.Machine
end

section
/-! Commands of a COMMAND ring: what an accepted descriptor leads to (`withCmd_of_accepted`), what its meaning finds (`State.taken`), and how a command
stays in progress or completes (`Running`). With them, what an engine channel that completes a descriptor leaves alone. -/

namespace Sys2Proof.Machine

/-! ### What stays, by part -/

/-- The parts of a list, as the test that `Keeps` asks for. -/
def within (l : List Part) : Part → Bool := fun p => decide (p ∈ l)

theorem covers_within {l m : List Part} (h : m ⊆ l) : Covers (within l) m := fun _ hp => decide_eq_true (h hp)

/-- A part that a law of what is kept does not name is as before. -/
theorem Keeps.part {l : List Part} {s t : State} (h : Keeps (within l) s t) (p : Part) (n : within l p = false) : p.same s t := h.same p n

/-- What is kept beside more parts is kept beside fewer. -/
theorem Keeps.mono {l m : List Part} {s t : State} (h : Keeps (within l) s t) (i : l ⊆ m) : Keeps (within m) s t :=
  ⟨h.queue, h.pool, h.regs, fun p n => h.same p (decide_eq_false fun hp => of_decide_eq_false n (i hp))⟩

theorem Keeps.rd {l : List Part} {s t : State} (h : Keeps (within l) s t) {r : Reg} (n : within l (.reg r) = false) (i : Nat) :
    t.rd r i = s.rd r i := h.part (.reg r) n i

theorem Keeps.fgetN {l : List Part} {s t : State} (h : Keeps (within l) s t) {g : Fld} (n : within l (.reg g.reg) = false) (i : Nat) :
    t.fgetN g i = s.fgetN g i := by
  simp only [State.fgetN, h.rd n]

/-! ### Fields left alone -/

theorem OnlyFields.refl (l : List Fld) (s : State) : OnlyFields l s s := fun _ _ _ => rfl

theorem OnlyFields.trans {l : List Fld} {s t u : State} (h : OnlyFields l s t) (k : OnlyFields l t u) : OnlyFields l s u :=
  fun g i a => (k g i a).trans (h g i a)

/-- A state with the same register file has the same fields. -/
theorem OnlyFields.of_regs {l : List Fld} {s t u : State} (h : OnlyFields l s t) (e : u.regs = t.regs) : OnlyFields l s u :=
  fun g i a => (show u.fgetN g i = t.fgetN g i by simp only [State.fgetN, State.rd, e]).trans (h g i a)

theorem OnlyFields.fsetN {l : List Fld} {s t : State} (h : OnlyFields l s t) {f : Fld} (m : f ∈ l) (i v : Nat) :
    OnlyFields l s (t.fsetN f i v) := fun g j a => (t.fgetN_apart f g i j v (a f m)).trans (h g j a)

theorem OnlyFields.foldl {α : Type} {l : List Fld} {s : State} {f : State → α → State}
    (hf : ∀ t a, OnlyFields l s t → OnlyFields l s (f t a)) (as : List α) {t : State} (h : OnlyFields l s t) : OnlyFields l s (as.foldl f t) := by
  induction as generalizing t with
  | nil => exact h
  | cons a as ih => exact ih (hf t a h)

/-! ### The engine channel of a piece of work (R300, R316) -/

theorem giveCredit_onlyFields {s t : State} (n : Nat) (h : OnlyFields engineFields s t) : OnlyFields engineFields s (t.giveCredit n) := by
  refine OnlyFields.foldl (fun u m hu => ?_) _ h
  dsimp only
  split
  · split
    · exact hu.fsetN (f := .MOV_STS_STATE) (by simp [engineFields]) m 2
    · exact hu.fsetN (f := .MOV_STS_CREDITS) (by simp [engineFields]) m _
  · exact hu

theorem engineDone_onlyFields {s t : State} (n : Nat) (h : OnlyFields engineFields s t) : OnlyFields engineFields s (t.engineDone n) := by
  refine giveCredit_onlyFields n ?_
  split
  · exact h
  · exact h.fsetN (f := .MOV_STS_STATUS) (by simp [engineFields]) n 0

theorem engineEnd_onlyFields {s t : State} (w : HostWork) (k : Nat) (h : OnlyFields engineFields s t) :
    OnlyFields engineFields s (t.engineEnd w k) := by
  refine OnlyFields.foldl (fun u _ hu => engineDone_onlyFields _ hu) _ ?_
  split
  · exact (h.of_regs rfl).fsetN (f := .MOV_STS_STATE) (by simp [engineFields]) _ 0
  · exact h

/-! ### A command that is taken (R193–R196) -/

/-- The command that the descriptor `b` at HEAD of ring `r` makes. -/
def State.cmdOf (s : State) (r : Nat) (b : List Byte) : CmdRec :=
  { ring := r, idx := (s.ring r).head, slice := (s.ring r).slice, op := cmdOp b, bytes := b, status := none, result := 0, stage := 0, arg := 0 }

/-- The state in which its meaning begins: HEAD has passed the descriptor, and the command is in progress. -/
def State.taken (s : State) (r : Nat) (b : List Byte) : State := { s.passHead r 1 with cmds := s.cmds ++ [s.cmdOf r b] }

theorem taken_keeps (s : State) (r : Nat) (b : List Byte) : Keeps (within [.rings, .mov, .reg .MOV_STS, .cmds]) s (s.taken r b) := by
  have h : Keeps (within [.rings, .mov, .reg .MOV_STS, .cmds]) s (s.passHead r 1) :=
    State.passHead_keeps r 1 (Keeps.refl s) (covers_within (by decide))
  have hc : within [.rings, .mov, .reg .MOV_STS, .cmds] .cmds = true := rfl
  unfold State.taken
  simp [h, hc]

/-! What a command finds: only its ring, the commands and its engine channel differ from before it was taken. -/

section
variable (s : State) (r : Nat) (b : List Byte)

@[simp] theorem State.taken_out : (s.taken r b).out = s.out := (taken_keeps s r b).part .out rfl
@[simp] theorem State.taken_tim : (s.taken r b).tim = s.tim := (taken_keeps s r b).part .tim rfl
@[simp] theorem State.taken_pol : (s.taken r b).pol = s.pol := (taken_keeps s r b).part .pol rfl
@[simp] theorem State.taken_ports : (s.taken r b).ports = s.ports := (taken_keeps s r b).part .ports rfl
@[simp] theorem State.taken_links : (s.taken r b).links = s.links := (taken_keeps s r b).part .links rfl
@[simp] theorem State.taken_ctxs : (s.taken r b).ctxs = s.ctxs := (taken_keeps s r b).part .ctxs rfl
@[simp] theorem State.taken_entries : (s.taken r b).entries = s.entries := (taken_keeps s r b).part .entries rfl
@[simp] theorem State.taken_sched : (s.taken r b).sched = s.sched := (taken_keeps s r b).part .sched rfl
@[simp] theorem State.taken_deal : (s.taken r b).deal = s.deal := (taken_keeps s r b).part .deal rfl
@[simp] theorem State.taken_twin : (s.taken r b).twin = s.twin := (taken_keeps s r b).part .twin rfl

theorem State.fgetN_taken {g : Fld} (h : within [.rings, .mov, .reg .MOV_STS, .cmds] (.reg g.reg) = false) (i : Nat) :
    (s.taken r b).fgetN g i = s.fgetN g i := (taken_keeps s r b).fgetN h i

@[simp] theorem State.nPorts_taken : (s.taken r b).nPorts = s.nPorts := s.fgetN_taken r b rfl 0
@[simp] theorem State.inSafe_taken : (s.taken r b).inSafe = s.inSafe := congrArg (· == 3) (s.fgetN_taken r b (g := .HLT_START_KIND) rfl 0)
@[simp] theorem State.hasTwin_taken : (s.taken r b).hasTwin = s.hasTwin :=
  congrArg (· != 0) (s.fgetN_taken r b (g := .GCTL_CAPS_TWIN) rfl 0)
@[simp] theorem State.paired_taken : (s.taken r b).paired = s.paired := congrArg (· == 3) (s.fgetN_taken r b (g := .TWN_STS_PAIR) rfl 0)
@[simp] theorem State.owns_taken (n : Nat) : (s.taken r b).owns n = s.owns n :=
  congrArg (fun v => nfield v n n == 1) (s.fgetN_taken r b (g := .TWN_OWNED_OWNED) rfl 0)
@[simp] theorem State.portState_taken (p : PortId) : (s.taken r b).portState p = s.portState p := s.fgetN_taken r b rfl _
@[simp] theorem State.shared_taken (n : Nat) : (s.taken r b).shared n = s.shared n := by
  simp only [State.shared, State.flagN, State.taken_twin, s.fgetN_taken r b (g := .PRT_STS_PEER_DUAL_UP) rfl]
@[simp] theorem State.maskShared_taken (m : Nat) : (s.taken r b).maskShared m = s.maskShared m := by simp [State.maskShared]
@[simp] theorem State.port_taken (p : PortId) : (s.taken r b).port p = s.port p := by simp [State.port]
@[simp] theorem State.link_taken (l : LinkEndId) : (s.taken r b).link l = s.link l := by simp [State.link]
@[simp] theorem State.tree_taken (n : Nat) : (s.taken r b).tree n = s.tree n := by simp [State.tree]
@[simp] theorem State.ctxOpt_taken (eph : Nat) : (s.taken r b).ctx? eph = s.ctx? eph := by simp [State.ctx?]
@[simp] theorem State.frameNo_taken : (s.taken r b).frameNo = s.frameNo := by simp [State.frameNo]

end

theorem taken_onlyFields (s : State) (r : Nat) (b : List Byte) : OnlyFields engineFields s (s.taken r b) :=
  (engineEnd_onlyFields _ _ ((OnlyFields.refl _ s).of_regs (u := s.onRing r _) rfl)).of_regs rfl

/-- An accepted descriptor passes every check, and its meaning is carried out. -/
theorem withCmd_of_accepted {s : State} {r op : Nat} {b : List Byte} {names : List (Nat × Nat)} (h : Accepted r op b s names)
    (body : CmdRec → State → State) : s.withCmd r (.ok b) (· == op) body names = body (s.cmdOf r b) (s.taken r b) := by
  obtain ⟨ht, hg, hl, hop, hown, hw, hn, hsafe, hres, hman, hd0, hd1, hd2, h0, h1, h2, ha⟩ := h
  subst hop
  have hc : (s.taken r b).cmdChecked (s.cmdOf r b) body = body (s.cmdOf r b) (s.taken r b) := by
    have hq : (s.inSafe && !cmdSafe (cmdOp b)) = false := by
      cases hi : s.inSafe
      · rfl
      · simp [hsafe hi]
    have hr : (cmdReserved (cmdOp b) || cmdManagerOnly (cmdOp b) && (s.ring r).slice.isSome) = false := by
      cases hm : cmdManagerOnly (cmdOp b)
      · simp [hres]
      · simp [hres, hman hm]
    unfold State.cmdChecked
    simp only [State.cmdOf, hn, State.inSafe_taken, hq, hr, hd0, hd1, hd2, h0, h1, h2]
    cases hadr : cmdAddress (cmdOp b) b with
    | none => simp
    | some x => simp [ha x.1 x.2 hadr]
  unfold State.withCmd
  simp [ht, hg, hl, hown, hw]
  exact hc

theorem accepted_at_ {s : State} {r op u : Nat} {b : List Byte} {names : List (Nat × Nat)} (h : Accepted r op b s names) :
    Accepted r op b (s.at_ u) names := h

theorem Accepted.op {s : State} {r op : Nat} {b : List Byte} {names : List (Nat × Nat)} (h : Accepted r op b s names) : cmdOp b = op := by
  obtain ⟨-, -, -, hop, -⟩ := h
  exact hop

/-- A COMMAND ring is neither ring 1 nor ring 2, whose records other blocks write. -/
theorem Accepted.ring_ne {s : State} {r op : Nat} {b : List Byte} {names : List (Nat × Nat)} (h : Accepted r op b s names) :
    r ≠ 1 ∧ r ≠ 2 := by
  obtain ⟨ht, -⟩ := h
  constructor <;> rintro rfl <;> simp [State.takes, Ring.type] at ht

theorem passHead_rings (s : State) (r n : Nat) :
    (s.passHead r n).rings = (s.onRing r fun g => { g with head := (g.head + n) % g.size, bells := State.passHead.use n g.bells }).rings :=
  (State.engineEnd_keeps (P := within [.mov, .reg .MOV_STS]) _ _ (Keeps.refl _) (covers_within (by decide))).part .rings rfl

theorem ring_passHead_same (s : State) (r n : Nat) :
    (s.passHead r n).ring r = { s.ring r with
      head := ((s.ring r).head + n) % (s.ring r).size, bells := State.passHead.use n (s.ring r).bells } := by
  simp only [State.ring, passHead_rings]
  exact State.ring_onRing_same s r _

theorem ring_passHead_other (s : State) {r q : Nat} (n : Nat) (h : q ≠ r) : (s.passHead r n).ring q = s.ring q := by
  simp only [State.ring, passHead_rings]
  exact s.ring_onRing_other _ h

theorem taken_onlyRing (s : State) (r : Nat) (b : List Byte) : OnlyRing r s (s.taken r b) := fun _ h => ring_passHead_other s 1 h

/-- A command of a ring that is accepted answers with what its meaning makes of it. -/
theorem answers_of_accepted {i : Instr} {s x : State} {r op : Nat} {b : List Byte} {names : List (Nat × Nat)} {body : CmdRec → State → State}
    {Q : State → Prop} (e : exec i s = .next (x.withCmd r (.ok b) (· == op) body names)) (h : Accepted r op b x names)
    (k : ∀ P, Covers P (parts i) → KeepsO P s (exec i s)) (q : Q (body (x.cmdOf r b) (x.taken r b))) : Answers i s Q := by
  rw [withCmd_of_accepted h] at e
  exact answers_of_keeps e (fun P cv => k P cv _ e) q

/-- An accepted command, with what its meaning makes of the state in which it begins. -/
theorem answers_of_meaning {i : Instr} {s x y : State} {r op : Nat} {b : List Byte} {names : List (Nat × Nat)} {body : CmdRec → State → State}
    {Q : State → Prop} (e : exec i s = .next (x.withCmd r (.ok b) (· == op) body names)) (h : Accepted r op b x names)
    (k : ∀ P, Covers P (parts i) → KeepsO P s (exec i s)) (m : body (x.cmdOf r b) (x.taken r b) = y) (q : Q y) : Answers i s Q :=
  answers_of_accepted e h k (m ▸ q)

/-! ### A command in progress -/

/-- The command of the descriptor at HEAD of ring `r` in `s` is in progress in `x`, and every other command is as it was. -/
def Running (r : Nat) (b : List Byte) (s x : State) : Prop := InProgress r b s x ∧ CmdsKept r s x

theorem running_taken (s : State) (r : Nat) (b : List Byte) : Running r b s (s.taken r b) := by
  refine ⟨⟨?_, s.cmdOf r b, List.mem_append_right _ List.mem_cons_self, rfl, rfl, rfl, rfl, rfl⟩, fun k hk _ => List.mem_append_left _ hk⟩
  exact congrArg Ring.head (ring_passHead_same s r 1)

/-- What writes neither the commands nor HEAD of the ring leaves the command in progress. -/
theorem Running.of_same {s x y : State} {r : Nat} {b : List Byte} (h : Running r b s x) (hc : y.cmds = x.cmds)
    (hr : (y.ring r).head = (x.ring r).head) : Running r b s y := by
  obtain ⟨⟨head, c, hm, hp⟩, hk⟩ := h
  exact ⟨⟨hr.trans head, c, hc ▸ hm, hp⟩, fun k hs hn => hc ▸ hk k hs hn⟩

/-- What writes neither the rings nor the commands leaves the command in progress. -/
theorem Running.of_keeps {s x y : State} {r : Nat} {b : List Byte} {l : List Part} (h : Running r b s x) (hk : Keeps (within l) x y)
    (hc : within l .cmds = false) (hr : within l .rings = false) : Running r b s y :=
  h.of_same (hk.part .cmds hc) (by rw [State.ring, hk.part .rings hr]; rfl)

/-- A command of another place is not the one that changes. -/
theorem CmdsKept.onCmd {s x : State} {r : Nat} (h : CmdsKept r s x) (f : CmdRec → CmdRec) :
    CmdsKept r s (x.onCmd r (s.ring r).head f) := by
  intro k hk hn
  refine List.mem_map.2 ⟨k, h k hk hn, if_neg ?_⟩
  rintro ⟨h1, h2, -⟩
  exact hn.elim (· h1) (· h2)

/-- A change of the command that leaves it in progress, with its place, opcode and descriptor. -/
theorem Running.onCmd {s x : State} {r : Nat} {b : List Byte} (h : Running r b s x) {f : CmdRec → CmdRec}
    (hf : ∀ c, c.ring = r → c.idx = (s.ring r).head → c.op = cmdOp b → c.bytes = b → c.status = none →
      (f c).ring = r ∧ (f c).idx = (s.ring r).head ∧ (f c).op = cmdOp b ∧ (f c).bytes = b ∧ (f c).status = none) :
    Running r b s (x.onCmd r (s.ring r).head f) := by
  obtain ⟨⟨head, c, hm, h1, h2, h3, h4, h5⟩, hk⟩ := h
  refine ⟨⟨head, f c, List.mem_map.2 ⟨c, hm, if_pos ⟨h1, h2, by simp [h5]⟩⟩, hf c h1 h2 h3 h4 h5⟩, hk.onCmd f⟩

/-- The command completes with a status and a RESULT; APPLY_ADVICE has none. -/
theorem Running.cmdDone {s x : State} {r st res : Nat} {b : List Byte} (h : Running r b s x) (hr : cmdOp b ≠ 0x23 ∨ res = 0) :
    Completes r b st res s (x.cmdDone r (s.ring r).head st res) ∧ CmdsKept r s (x.cmdDone r (s.ring r).head st res) := by
  obtain ⟨⟨head, c, hm, h1, h2, h3, h4, h5⟩, hk⟩ := h
  refine ⟨⟨head, _, List.mem_map.2 ⟨c, hm, if_pos ⟨h1, h2, by simp [h5]⟩⟩, h1, h2, h3, h4, rfl, ?_⟩, hk.onCmd _⟩
  rcases hr with hr | rfl <;> simp [*]

end Sys2Proof.Machine
end

section
/-! The twin commands (R33, R398): what each makes of the trees that it names, and from that O43. -/

namespace Sys2Proof.Machine

/-! ### Trees of the twin pair -/

@[simp] theorem State.tree_onTree_same (s : State) (n : Nat) (f : TwinTree → TwinTree) : (s.onTree n f).tree n = f (s.tree n) :=
  Tbl.get_upd_same _ _ _ _

theorem State.tree_onTree_other (s : State) {n m : Nat} (f : TwinTree → TwinTree) (h : m ≠ n) : (s.onTree n f).tree m = s.tree m :=
  Tbl.get_upd_other _ _ _ h

@[simp] theorem State.tree_sendCtl (s : State) (l : LinkEndId) (typ seq arg frame n : Nat) :
    (s.sendCtl l typ seq arg frame).tree n = s.tree n := by
  have h : (s.sendCtl l typ seq arg frame).twin = s.twin :=
    (State.sendCtl_keeps (P := within [.out, .links]) l typ seq arg frame (Keeps.refl s) (covers_within (by decide))).part .twin rfl
  simp only [State.tree, h]

@[simp] theorem State.tree_overtake (s : State) (policy object n : Nat) : (s.overtake policy object).tree n = s.tree n := rfl

/-- A message of the twin link leaves the trees as they are. -/
theorem State.trees_twinDrain (s : State) (k : Nat) : (s.twinDrain k).twin.trees = s.twin.trees := by
  fun_induction State.twinDrain s k with
  | case1 => rfl
  | case2 => rfl
  | case3 s k m rest hq hroom ih => exact ih
  | case4 => rfl

@[simp] theorem State.tree_twinSend (s : State) (kind : Nat) (payload : List Byte) (n : Nat) :
    (s.twinSend kind payload).tree n = s.tree n := by
  unfold State.twinSend
  split
  · simp only [State.tree, State.trees_twinDrain]
    rfl
  · rfl

/-- A change of one tree after another, each by what the tree itself holds. -/
theorem State.tree_foldl {f : State → Nat → State} {g : TwinTree → TwinTree} (same : ∀ s n, (f s n).tree n = g (s.tree n))
    (other : ∀ s n m, m ≠ n → (f s n).tree m = s.tree m) (l : List Nat) (hl : l.Nodup) (s : State) (n : Nat) :
    (l.foldl f s).tree n = if n ∈ l then g (s.tree n) else s.tree n := by
  induction l generalizing s with
  | nil => rfl
  | cons m l ih =>
    obtain ⟨hm, hl⟩ := List.nodup_cons.1 hl
    rw [List.foldl_cons, ih hl]
    by_cases e : n = m
    · subst e
      simp [hm, same]
    · simp [e, other _ _ _ e]

/-- The trees that the mask of a twin command names, in order. -/
def maskTrees (m : Nat) : List Nat := (upto 64).filter fun n => nfield m n n == 1

theorem mem_maskTrees {m n : Nat} : n ∈ maskTrees m ↔ n < 64 ∧ nfield m n n = 1 := by simp [maskTrees, upto]

theorem maskTrees_nodup (m : Nat) : (maskTrees m).Nodup := List.Nodup.filter _ List.nodup_range

/-! ### TWIN_CLAIM and TWIN_FORCE -/

/-- What a claim makes of its tree: it starts, or waits for the one in progress (R33). -/
def TwinTree.claimed (forced : Bool) (cmd : Nat × Nat) (t : Nat) (k : TwinTree) : TwinTree :=
  if k.claim.isSome then { k with queued := some (forced, cmd) }
  else { k with
    byPolicy := false, cmd := some cmd, notBefore := 0, claim := some (forced, 0), msgAt := t,
    msg := some (if k.known then ⟨0x12, 0, (k.epoch + 1) % 65536 + bit forced * 2 ^ 18, 0⟩ else ⟨0x10, 0, 0, 0⟩) }

theorem State.tree_claimFor_same (s : State) (forced : Bool) (cmd : Nat × Nat) (t n : Nat) :
    (s.claimFor forced cmd t n).tree n = (s.tree n).claimed forced cmd t := by
  unfold TwinTree.claimed
  cases hc : (s.tree n).claim.isSome
  case true => simp [State.claimFor, hc]
  case false =>
    cases hk : (s.tree n).known <;>
      simp [State.claimFor, hc, hk, State.claimTree, State.tokenClaim, State.tokenQuery, State.tokenSend]

theorem State.tree_claimFor_other (s : State) (forced : Bool) (cmd : Nat × Nat) (t n m : Nat) (h : m ≠ n) :
    (s.claimFor forced cmd t n).tree m = s.tree m := by
  cases hc : (s.tree n).claim.isSome
  case true => simp [State.claimFor, hc, State.tree_onTree_other _ _ h]
  case false =>
    cases hk : (s.tree n).known <;>
      simp [State.claimFor, hc, hk, State.claimTree, State.tokenClaim, State.tokenQuery, State.tokenSend, State.tree_onTree_other _ _ h]

theorem TwinTree.claimed_start {k : TwinTree} {forced : Bool} {cmd : Nat × Nat} {t : Nat} (h : k.claim = none) :
    (k.claimed forced cmd t).claim = some (forced, 0) ∧ (k.claimed forced cmd t).cmd = some cmd ∧
      (k.claimed forced cmd t).msg.map Linkctl.typ = some (if k.known then 0x12 else 0x10) := by
  simp only [TwinTree.claimed, h]
  cases k.known <;> simp

theorem TwinTree.claimed_wait {k : TwinTree} {forced : Bool} {cmd : Nat × Nat} {t : Nat} (h : k.claim ≠ none) :
    k.claimed forced cmd t = { k with queued := some (forced, cmd) } := by
  simp [TwinTree.claimed, Option.isSome_iff_ne_none.2 h]

/-- What the meaning of TWIN_CLAIM or TWIN_FORCE on a mask of shared trees leaves of `s`: the command waits, and each tree named is claimed. -/
def ClaimsWait (r : Nat) (b : List Byte) (forced : Bool) (s y : State) : Prop :=
  InProgress r b s y ∧ CmdsKept r s y ∧ ∀ n < 64, nfield (cmdArg0 b) n n = 1 →
    ((s.tree n).claim = none → (y.tree n).claim = some (forced, 0) ∧ (y.tree n).cmd = some (r, (s.ring r).head) ∧
      (y.tree n).msg.map Linkctl.typ = some (if (s.tree n).known then 0x12 else 0x10)) ∧
    ((s.tree n).claim ≠ none → y.tree n = { s.tree n with queued := some (forced, r, (s.ring r).head) })

theorem claimCmd_waits {s : State} {b : List Byte} (r t : Nat) (forced : Bool) (ht : s.hasTwin = true)
    (hm : s.maskShared (cmdArg0 b) = true) (h0 : cmdArg0 b ≠ 0) :
    ClaimsWait r b forced s ((s.taken r b).claimCmd forced t (s.cmdOf r b)) := by
  let x := (s.taken r b).onCmd r (s.ring r).head fun c => { c with stage := cmdArg0 b }
  have e : (s.taken r b).claimCmd forced t (s.cmdOf r b) =
      (maskTrees (cmdArg0 b)).foldl (State.claimFor · forced (r, (s.ring r).head) t ·) x := by
    simp [State.claimCmd, State.cmdOf, ht, hm, h0, maskTrees, x]
  have hk : Keeps (within [.out, .pol, .links, .twin]) x ((s.taken r b).claimCmd forced t (s.cmdOf r b)) :=
    e ▸ keeps_foldl _ (Keeps.refl x) fun z n hz => State.claimFor_keeps forced _ t n hz (covers_within (by decide))
  have hx : Running r b s x := (running_taken s r b).onCmd fun c h1 h2 h3 h4 h5 => ⟨h1, h2, h3, h4, h5⟩
  obtain ⟨hp, hc⟩ := hx.of_keeps hk rfl rfl
  refine ⟨hp, hc, fun n hn hb => ?_⟩
  have hn : ((s.taken r b).claimCmd forced t (s.cmdOf r b)).tree n = (s.tree n).claimed forced (r, (s.ring r).head) t := by
    rw [e, State.tree_foldl (fun s n => s.tree_claimFor_same forced _ t n) (fun s n m h => s.tree_claimFor_other forced _ t n m h) _
      (maskTrees_nodup _), if_pos (mem_maskTrees.2 ⟨hn, hb⟩)]
    exact congrArg _ (s.tree_taken r b n)
  rw [hn]
  exact ⟨TwinTree.claimed_start, TwinTree.claimed_wait⟩

theorem answers_twinClaim {s : State} {r u : Nat} {b : List Byte} (h : Accepted r 0x60 b s) (ht : s.hasTwin = true)
    (hm : s.maskShared (cmdArg0 b) = true) (h0 : cmdArg0 b ≠ 0) : Answers (.twinClaim r (.ok b) u) s (ClaimsWait r b false s) :=
  answers_of_accepted rfl (accepted_at_ (u := u) h) (fun _ cv => execTwinClaim_keeps r _ u (Keeps.refl s) cv)
    (claimCmd_waits (s := s.at_ u) r u false ht hm h0)

theorem answers_twinForce {s : State} {r u : Nat} {b : List Byte} (h : Accepted r 0x61 b s) (ht : s.hasTwin = true)
    (hm : s.maskShared (cmdArg0 b) = true) (h0 : cmdArg0 b ≠ 0) : Answers (.twinForce r (.ok b) u) s (ClaimsWait r b true s) :=
  answers_of_accepted rfl (accepted_at_ (u := u) h) (fun _ cv => execTwinForce_keeps r _ u (Keeps.refl s) cv)
    (claimCmd_waits (s := s.at_ u) r u true ht hm h0)

/-- Without the twin link a twin command completes ABSENT, and changes nothing of the pair (R4). -/
theorem answers_twinClaim_absent {s : State} {r u : Nat} {b : List Byte} (h : Accepted r 0x60 b s) (ht : s.hasTwin = false) :
    Answers (.twinClaim r (.ok b) u) s fun t => Completes r b stAbsent 0 s t ∧ t.twin = s.twin := by
  refine answers_of_accepted rfl (accepted_at_ (u := u) h) (fun _ cv => execTwinClaim_keeps r _ u (Keeps.refl s) cv) ?_
  have ha : (s.at_ u).hasTwin = false := ht
  simp only [State.claimCmd, State.hasTwin_taken, ha]
  obtain ⟨hc, -⟩ := (running_taken (s.at_ u) r b).cmdDone (st := stAbsent) (.inr rfl)
  exact ⟨hc, (taken_keeps (s.at_ u) r b).part .twin rfl⟩

/-! ### TWIN_RELEASE and TWIN_QUERY -/

/-- What a release makes of its tree: TOKEN_RELEASE is repeated until S, from which the tree is the partner's. -/
def TwinTree.released (frame : Nat) (k : TwinTree) : TwinTree := { k with rel := some ⟨0x15, 0, k.epoch, frame⟩, releaseAt := some frame }

theorem State.tree_tokenRelease_same (s : State) (n frame : Nat) : (s.tokenRelease n frame).tree n = (s.tree n).released frame := by
  simp [State.tokenRelease, TwinTree.released]

theorem State.tree_tokenRelease_other (s : State) (n frame m : Nat) (h : m ≠ n) : (s.tokenRelease n frame).tree m = s.tree m := by
  simp [State.tokenRelease, State.tree_onTree_other _ _ h]

/-- The trees of a mask with their releases sent. -/
def State.releasedTrees (s : State) (m frame : Nat) : State := (maskTrees m).foldl (State.tokenRelease · · frame) s

theorem State.releasedTrees_keeps (s : State) (m frame : Nat) : Keeps (within [.out, .links, .twin]) s (s.releasedTrees m frame) :=
  keeps_foldl _ (Keeps.refl s) fun _ n hz => State.tokenRelease_keeps n frame hz (covers_within (by decide))

theorem State.tree_releasedTrees (s : State) (frame : Nat) {m n : Nat} (hn : n < 64) (hb : nfield m n n = 1) :
    (s.releasedTrees m frame).tree n = (s.tree n).released frame := by
  rw [State.releasedTrees, State.tree_foldl (fun s n => s.tree_tokenRelease_same n frame)
    (fun s n m h => s.tree_tokenRelease_other n frame m h) _ (maskTrees_nodup m), if_pos (mem_maskTrees.2 ⟨hn, hb⟩)]

/-- What TWIN_RELEASE leaves of `s`: it completes with the frame `w`, from which each tree named is the partner's. -/
def ReleasesTrees (r w : Nat) (b : List Byte) (s y : State) : Prop :=
  Completes r b stOk w s y ∧ CmdsKept r s y ∧ ∀ n < 64, nfield (cmdArg0 b) n n = 1 → (y.tree n).releaseAt = some w ∧
    (y.tree n).rel = some ⟨0x15, 0, (s.tree n).epoch, w⟩

/-- The releases are sent, the partner is told, and the command completes with the frame. -/
theorem released_acts {s : State} {r m w : Nat} {b : List Byte} (hop : cmdOp b ≠ 0x23) (p : List Byte) {z y : State} (hm : m = cmdArg0 b)
    (hz : z = if (maskTrees m).isEmpty then (s.taken r b).releasedTrees m w else ((s.taken r b).releasedTrees m w).twinSend 0x14 p)
    (hy : y = z.cmdDone r (s.ring r).head stOk w) : ReleasesTrees r w b s y := by
  subst hm
  have hk : Keeps (within [.out, .links, .twin]) (s.taken r b) z := by
    rw [hz]
    split
    · exact State.releasedTrees_keeps _ _ w
    · exact State.twinSend_keeps _ p (State.releasedTrees_keeps _ _ w) (covers_within (by decide))
  obtain ⟨hc, hkept⟩ := ((running_taken s r b).of_keeps hk rfl rfl).cmdDone (st := stOk) (res := w) (.inl hop)
  subst hy
  refine ⟨hc, hkept, fun n hn hb => ?_⟩
  have ht : z.tree n = (s.tree n).released w := by
    rw [hz, ← s.tree_taken r b n]
    split
    · exact State.tree_releasedTrees _ w hn hb
    · exact (State.tree_twinSend _ _ p n).trans (State.tree_releasedTrees _ w hn hb)
  have ht : (z.cmdDone r (s.ring r).head stOk w).tree n = (s.tree n).released w := ht
  simp [ht, TwinTree.released]

/-- TWIN_RELEASE of owned trees that are WARM at the partner, for a frame that lies far enough ahead, passes its checks. -/
theorem releaseCmd_acts {s : State} {r w : Nat} {b : List Byte} (hop : cmdOp b ≠ 0x23) (ht : s.hasTwin = true)
    (hm : s.maskShared (cmdArg0 b) = true) (hp : s.paired = true) (hw : w = cmdArg1 b % 2 ^ 32) (h0 : w ≠ 0)
    (hl : later32 w ((s.frameNo + 3) % 2 ^ 32) = true)
    (hok : ∀ n < 64, nfield (cmdArg0 b) n n = 1 → s.owns n = true ∧ ∃ q, Tbl.find s.twin.pmap n = some q ∧ nfield s.twin.peerWarm q q = 1) :
    ReleasesTrees r w b s ((s.taken r b).releaseCmd (s.cmdOf r b)) := by
  subst hw
  unfold State.releaseCmd
  rw [if_neg (by simp [ht]), if_neg]
  · exact released_acts hop _ rfl rfl rfl
  · simp only [State.cmdOf, State.maskShared_taken, State.paired_taken, State.frameNo_taken, hm, hp, hl, h0, Bool.or_eq_true,
      Bool.not_eq_true', Bool.not_true, Bool.false_or, beq_iff_eq, or_false, Bool.false_eq_true, List.all_eq_false, not_exists, not_and]
    intro n hn
    obtain ⟨hn, hb⟩ := mem_maskTrees.1 hn
    obtain ⟨ho, q, hq, hq1⟩ := hok n hn hb
    simp [ho, hq, hq1]

theorem answers_twinRelease {s : State} {r u w : Nat} {b : List Byte} (h : Accepted r 0x62 b s) (ht : s.hasTwin = true)
    (hm : s.maskShared (cmdArg0 b) = true) (hp : s.paired = true) (hw : w = cmdArg1 b % 2 ^ 32) (h0 : w ≠ 0)
    (hl : later32 w ((s.frameNo + 3) % 2 ^ 32) = true)
    (hok : ∀ n < 64, nfield (cmdArg0 b) n n = 1 → s.owns n = true ∧ ∃ q, Tbl.find s.twin.pmap n = some q ∧ nfield s.twin.peerWarm q q = 1) :
    Answers (.twinRelease r (.ok b) u) s (ReleasesTrees r w b s) :=
  answers_of_accepted rfl (accepted_at_ (u := u) h) (fun _ cv => execTwinRelease_keeps r _ u (Keeps.refl s) cv)
    (releaseCmd_acts (s := s.at_ u) (by simp [h.op]) ht hm hp hw h0 hl hok)

/-- TWIN_QUERY of a shared tree reports what the controller holds of its token. -/
theorem answers_twinQuery {s : State} {r n : Nat} {b : List Byte} (h : Accepted r 0x63 b s) (ht : s.hasTwin = true)
    (hn : n = cmdArg0 b % 64) (hp : n < s.nPorts) (hs : s.shared n = true) :
    Answers (.twinQuery r (.ok b)) s fun t =>
      Completes r b stOk (bit (s.tree n).you * 2 ^ 19 + (s.tree n).holder % 4 * 2 ^ 16 + (s.tree n).epoch % 65536) s t ∧ CmdsKept r s t ∧
        OnlyRing r s t ∧ t.twin = s.twin ∧ OnlyFields engineFields s t := by
  refine answers_of_accepted rfl h (fun _ cv => execTwinQuery_keeps r _ (Keeps.refl s) cv) ?_
  subst hn
  simp only [State.cmdOf, State.hasTwin_taken, State.nPorts_taken, State.shared_taken, State.tree_taken, ht, hs, Nat.not_le.2 hp]
  obtain ⟨hc, hk⟩ := (running_taken s r b).cmdDone (st := stOk) (.inl (by simp [h.op]))
  exact ⟨hc, hk, taken_onlyRing s r b, by simp [State.cmdDone, State.onCmd], taken_onlyFields s r b⟩

/-- Settles O43: each clause is the law of one twin command. -/
theorem twinCommandsAct : Obligations.TwinCommandsAct := by
  unfold Obligations.TwinCommandsAct
  exact ⟨fun _ _ _ _ h ht hm h0 _ => answers_twinClaim h ht hm h0, fun _ _ _ _ h ht hm h0 _ => answers_twinForce h ht hm h0,
    fun _ _ _ _ h ht => answers_twinClaim_absent h ht, fun _ _ _ _ _ h ht hm hp hw h0 hl hok => answers_twinRelease h ht hm hp hw h0 hl hok,
    fun _ _ _ _ h ht hn hp hs => answers_twinQuery h ht hn hp hs⟩

end Sys2Proof.Machine
end

section
/-! Power requests (R31, R418-R420): when the written pair is a request, what becomes of it, and from that O44. -/

namespace Sys2Proof.Machine

/-! ### A request written (R418) -/

/-- Both registers of the request pair written. -/
def State.asked (s : State) (x y : Nat) : State := (s.wr .PWR_REQ 0 (BitVec.ofNat 64 (x % 8))).wr .PWR_REQ_N 0 (BitVec.ofNat 64 (y % 2 ^ 32))

section
variable (s : State) (x y : Nat)

theorem State.asked_keeps : Keeps (within [.reg .PWR_REQ, .reg .PWR_REQ_N]) s (s.asked x y) :=
  State.wr_keeps _ _ _ (State.wr_keeps _ _ _ (Keeps.refl s) (covers_within (by decide))) (covers_within (by decide))

theorem State.fgetN_asked {g : Fld} (h : within [.reg .PWR_REQ, .reg .PWR_REQ_N] (.reg g.reg) = false) (i : Nat) :
    (s.asked x y).fgetN g i = s.fgetN g i := (s.asked_keeps x y).fgetN h i

@[simp] theorem State.asked_pwr : (s.asked x y).pwr = s.pwr := rfl
@[simp] theorem State.asked_tim : (s.asked x y).tim = s.tim := rfl
@[simp] theorem State.asked_out : (s.asked x y).out = s.out := rfl
@[simp] theorem State.asked_hlt : (s.asked x y).hlt = s.hlt := rfl
@[simp] theorem State.pwrState_asked : (s.asked x y).pwrState = s.pwrState := s.fgetN_asked x y rfl 0
@[simp] theorem State.inSafe_asked : (s.asked x y).inSafe = s.inSafe := congrArg (· == 3) (s.fgetN_asked x y (g := .HLT_START_KIND) rfl 0)
@[simp] theorem State.qvalid_asked : (s.asked x y).flag .PWR_STS_QVALID = s.flag .PWR_STS_QVALID :=
  congrArg (· != 0) (s.fgetN_asked x y (g := .PWR_STS_QVALID) rfl 0)
@[simp] theorem State.entering_asked : (s.asked x y).flag .PWR_STS_ENTERING = s.flag .PWR_STS_ENTERING :=
  congrArg (· != 0) (s.fgetN_asked x y (g := .PWR_STS_ENTERING) rfl 0)
@[simp] theorem State.exiting_asked : (s.asked x y).flag .PWR_STS_EXITING = s.flag .PWR_STS_EXITING :=
  congrArg (· != 0) (s.fgetN_asked x y (g := .PWR_STS_EXITING) rfl 0)
@[simp] theorem State.moving_asked : (s.asked x y).moving = s.moving := by simp [State.moving]

theorem State.rd_asked_sts : (s.asked x y).rd .PWR_STS 0 = s.rd .PWR_STS 0 := (s.asked_keeps x y).rd rfl 0

theorem State.rd_asked_req : ((s.asked x y).rd .PWR_REQ 0).toNat = x % 8 := by
  have h : (s.asked x y).rd .PWR_REQ 0 = BitVec.ofNat 64 (x % 8) &&& BitVec.ofNat 64 (2 ^ 3 - 1) :=
    (State.rd_wr_other _ _ (.inl (by decide))).trans (State.rd_wr_same _ _ _ _)
  rw [h, BitVec.toNat_and, BitVec.toNat_ofNat, BitVec.toNat_ofNat, Nat.mod_eq_of_lt (by decide : 2 ^ 3 - 1 < 2 ^ 64),
    Nat.and_two_pow_sub_one_eq_mod]
  omega

theorem State.rd_asked_reqN : ((s.asked x y).rd .PWR_REQ_N 0).toNat = y % 2 ^ 32 := by
  have h : (s.asked x y).rd .PWR_REQ_N 0 = BitVec.ofNat 64 (y % 2 ^ 32) &&& BitVec.ofNat 64 (2 ^ 32 - 1) := State.rd_wr_same _ _ _ _
  rw [h, BitVec.toNat_and, BitVec.toNat_ofNat, BitVec.toNat_ofNat, Nat.mod_eq_of_lt (by decide : 2 ^ 32 - 1 < 2 ^ 64),
    Nat.and_two_pow_sub_one_eq_mod]
  omega

/-- The target stands in PWR_REQ. -/
theorem State.target_asked : (s.asked x y).fget .PWR_REQ_TARGET = x % 8 := by
  have h : (s.asked x y).fget .PWR_REQ_TARGET = ((s.asked x y).rd .PWR_REQ 0).toNat % 2 ^ 3 := by
    simp [State.fget, State.fgetN, field, Fld.PWR_REQ_TARGET]
  rw [h, State.rd_asked_req]
  omega

/-- The pair is a request where PWR_REQ_N holds the complement of the target. -/
theorem State.pairOk_asked : (s.asked x y).pairOk .PWR_REQ .PWR_REQ_N 0 32 = decide (y % 2 ^ 32 = 2 ^ 32 - 1 - x % 8) := by
  have h : x % 8 % 2 ^ 32 = x % 8 := by omega
  simp only [State.pairOk, State.rd_asked_req, State.rd_asked_reqN, h]
  rfl

end

/-- With both registers written, the pair that they leave decides. -/
theorem execPwrRequest_pair (s : State) (x y u : Nat) : execPwrRequest (some x) (some y) u s = s.whenReady (.next
    (if ((s.at_ u).asked x y).pairOk .PWR_REQ .PWR_REQ_N 0 32 then
      ((s.at_ u).asked x y).takeRequest (((s.at_ u).asked x y).fget .PWR_REQ_TARGET) false
    else (s.at_ u).asked x y)) := rfl

theorem answers_request {s : State} {x y u : Nat} {Q : State → Prop} (hr : s.ready = true) (hy : y % 2 ^ 32 = 2 ^ 32 - 1 - x % 8)
    (q : Q (((s.at_ u).asked x y).takeRequest (x % 8) false)) : Answers (.pwrRequest (some x) (some y) u) s Q := by
  have e : execPwrRequest (some x) (some y) u s = .next (((s.at_ u).asked x y).takeRequest (x % 8) false) := by
    rw [execPwrRequest_pair, State.whenReady, if_pos hr, State.pairOk_asked, State.target_asked, if_pos (decide_eq_true hy)]
  exact answers_of_keeps e (fun _ cv => execPwrRequest_keeps _ _ u (Keeps.refl s) cv _ e) q

theorem answers_noRequest {s : State} {x y u : Nat} {Q : State → Prop} (hr : s.ready = true) (hy : y % 2 ^ 32 ≠ 2 ^ 32 - 1 - x % 8)
    (q : Q ((s.at_ u).asked x y)) : Answers (.pwrRequest (some x) (some y) u) s Q := by
  have e : execPwrRequest (some x) (some y) u s = .next ((s.at_ u).asked x y) := by
    rw [execPwrRequest_pair, State.whenReady, if_pos hr, State.pairOk_asked, if_neg (by simp only [hy, decide_false]; decide)]
  exact answers_of_keeps e (fun _ cv => execPwrRequest_keeps _ _ u (Keeps.refl s) cv _ e) q

/-! ### What becomes of a request (R418–R420) -/

section
variable {s : State} {target : Nat} {byPolicy : Bool}

theorem takeRequest_start (hs : s.inSafe = false) (h2 : 2 ≤ target) (h4 : target ≤ 4) (hm : s.moving = false) (hp : s.pwrState ≠ 2) :
    s.takeRequest target byPolicy = s.startEntry target byPolicy := by
  have h : ¬ (target = 1 ∨ 5 ≤ target) := by omega
  have h0 : target ≠ 0 := by omega
  simp [State.takeRequest, hs, h, hm, hp, h0]

theorem takeRequest_invalid (hs : s.inSafe = false) (h : target = 1 ∨ 5 ≤ target) :
    s.takeRequest target byPolicy = (s.raise .PWR_EVT_REQ_INVALID).powerEvent 7 0 s.pwrState target 0 := by
  simp [State.takeRequest, hs, h]

theorem takeRequest_queue (hs : s.inSafe = false) (h2 : 2 ≤ target) (h4 : target ≤ 4) (hm : s.moving = true) :
    s.takeRequest target byPolicy = s.queueRequest target byPolicy := by
  have h : ¬ (target = 1 ∨ 5 ≤ target) := by omega
  have h0 : target ≠ 0 := by omega
  simp [State.takeRequest, hs, h, hm, h0]

theorem takeRequest_abort (hs : s.inSafe = false) (hm : s.moving = true) (hx : s.flag .PWR_STS_EXITING = false) (ha : s.pwr.abortBy = none) :
    s.takeRequest 0 byPolicy = (s.fset .PWR_STS_QVALID 0).onPwr fun p => { p with abortBy := some 0x10 } := by
  simp [State.takeRequest, hs, hm, hx, ha]

theorem takeRequest_wake (hs : s.inSafe = false) (hm : s.moving = false) (hp : s.pwrState = 2) :
    s.takeRequest 0 byPolicy = s.wake 0x13 4 0 := by
  simp [State.takeRequest, hs, hm, hp]

end

/-! ### What the outcome leaves -/

/-- A field reads the register file alone. -/
theorem State.fget_of_regs {s t : State} (h : t.regs = s.regs) (g : Fld) : t.fget g = s.fget g := by
  simp only [State.fget, State.fgetN, State.rd, h]

/-- `State.fget_onPwr` as a rewriting step of its own: the kernel is not left to find it by evaluating both register files. -/
theorem State.fget_onPwr_eq (s : State) (f : Power → Power) (g : Fld) : (s.onPwr f).fget g = s.fget g := State.fget_of_regs (s.onPwr_regs f) g

theorem State.flag_eq_fget (s : State) (g : Fld) : s.flag g = (s.fget g != 0) := rfl

/-- The entry that a request starts: its target and mode stand in the registers, and the cores are waited for. -/
theorem startEntry_acts (s : State) {target : Nat} (byPolicy : Bool) (h : target < 8) {t : State} (ht : t = s.startEntry target byPolicy) :
    t.fget .PWR_STS_TARGET = target ∧ t.fget .PWR_MODE_MODE = target ∧ t.fget .PWR_STS_MODE = target ∧ t.pwrState = s.pwrState ∧
      t.pwr = { s.pwr with requested := true, byPolicy := byPolicy, abortBy := none } ∧ t.tim = s.tim := by
  subst ht
  simp (disch := decide) only [State.startEntry, State.pwrState, State.fget_onPwr_eq, State.fget_fset_apart, State.fget_fset_same]
  exact ⟨Nat.mod_eq_of_lt h, Nat.mod_eq_of_lt h, Nat.mod_eq_of_lt h, trivial, rfl, rfl⟩

theorem powerEvent_keeps_sts (s : State) (what id left target lat : Nat) :
    Keeps (within [.out, .rings, .icu, .pwr, .reg .MOV_STS, .reg .ICU_ERR]) s (s.powerEvent what id left target lat) :=
  State.powerEvent_keeps _ _ _ _ _ (Keeps.refl s) (covers_within (by decide))

/-- A POWER event leaves whether a request waits for the cores. -/
theorem powerEvent_requested (s : State) (what id left target lat : Nat) :
    (s.powerEvent what id left target lat).pwr.requested = s.pwr.requested := by
  unfold State.powerEvent
  split
  · have h := State.eventRecord_keeps (P := within [.out, .rings, .icu, .reg .MOV_STS, .reg .ICU_ERR]) 1
      (eventBytes evPower 0 0 (what * 2 ^ 28 + id * 2 ^ 16 + s.fget .PWR_STS_APOINT * 256 + left * 8 + target) (lat * 2 ^ 32 + s.frameNo))
      (Keeps.refl s) (covers_within (by decide))
    exact congrArg Power.requested (h.part .pwr rfl)
  · rfl

/-- A request that waits, with none waiting before it (R419). -/
theorem queueRequest_first {s : State} (target : Nat) (h : s.flag .PWR_STS_QVALID = false) :
    s.queueRequest target false = ((s.fset .PWR_STS_QVALID 1).fset .PWR_STS_QTARGET target).onPwr fun p => { p with qByPolicy := false } := by
  simp [State.queueRequest, h]

/-- A wake that is taken in a state of rest starts the exit (R431). -/
theorem wake_rests {s : State} {id seen port : Nat} (h : Rests s) (hp : 2 ≤ s.pwrState) : s.wake id seen port = s.startExit id seen port := by
  obtain ⟨-, he, hx, ht⟩ := h
  simp [State.wake, he, hx, ht, hp]

/-- The wake by a request, in SLEEP. -/
theorem startExit_request {s : State} (hp : s.pwrState = 2) {t : State} (ht : t = s.startExit 0x13 4 0) :
    Woken 0x13 4 0 s t ∧ t.pwr.rows = [2, 5, 6, 7, 8, 9] ∧ t.pwr.wakeAt = s.tim.now := by
  subst ht
  refine ⟨?_, by simp [State.startExit, State.exitRows, hp], rfl⟩
  unfold Woken State.startExit
  simp (disch := decide) only [State.flag_eq_fget, State.fget_onPwr_eq, State.fget_fset_apart, State.fget_fset_same, hp]
  decide

/-! ### The POWER policy (R31) -/

/-- What the policy's decision point writes: an INTEGRITY event, and whether one was reported. -/
theorem policyRead_keeps_power (s : State) : Keeps (within [.out, .pol, .rings, .icu, .reg .MOV_STS, .reg .ICU_ERR]) s s.policyRead :=
  State.policyRead_keeps (Keeps.refl s) (covers_within (by decide))

/-- The policies in force are those of the last boundary. -/
theorem policyRead_inForce (s : State) : s.policyRead.pol.inForce = s.pol.inForce := by
  unfold State.policyRead
  split
  · rfl
  · split
    · rfl
    · have h : (s.integrityReg 0x0100).pol = s.pol :=
        (State.integrityReg_keeps (P := within [.out, .rings, .icu, .reg .MOV_STS, .reg .ICU_ERR]) 0x0100 (Keeps.refl s)
          (covers_within (by decide))).part .pol rfl
      exact (congrArg Policy.inForce h : (s.integrityReg 0x0100).pol.inForce = s.pol.inForce)

theorem policyRead_policyMode (s : State) : s.policyRead.policyMode 4 = s.policyMode 4 := by
  simp [State.policyMode, policyRead_inForce]

/-- The trigger of the policy in AUTO: SLEEP is requested as by the manager. -/
theorem answers_policyPowerIdle {s : State} (hi : s.powerIdle = true) (ha : s.policyMode 4 = 2) (hp : s.pwrState = 0)
    (hm : s.moving = false) (hs : s.inSafe = false) : Answers .policyPowerIdle s fun t =>
      t.fget .PWR_STS_TARGET = 2 ∧ t.fget .PWR_MODE_MODE = 2 ∧
        t.pwr = { s.pwr with requested := true, byPolicy := true, abortBy := none } := by
  have k := policyRead_keeps_power s
  have hpwr : s.policyRead.pwr = s.pwr := k.part .pwr rfl
  have hp' : s.policyRead.pwrState = 0 := (k.fgetN (g := .PWR_STS_STATE) rfl 0).trans hp
  have hm' : s.policyRead.moving = false := by
    have he := k.fgetN (g := .PWR_STS_ENTERING) rfl 0
    have hx := k.fgetN (g := .PWR_STS_EXITING) rfl 0
    simpa only [State.moving, State.flag, he, hx, hpwr] using hm
  have hs' : s.policyRead.inSafe = false := by
    have h := k.fgetN (g := .HLT_START_KIND) rfl 0
    simpa only [State.inSafe, State.fget, h] using hs
  have e : exec .policyPowerIdle s = .next (s.policyRead.startEntry 2 true) := by
    rw [← takeRequest_start hs' (by decide) (by decide) hm' (by simp [hp'])]
    change execPolicyPowerIdle s = _
    simp [execPolicyPowerIdle, hi, policyRead_policyMode, ha, hp', hm']
  obtain ⟨htarget, hmode, -, -, hpw, -⟩ := startEntry_acts s.policyRead true (by decide : 2 < 8) rfl
  exact answers_of_keeps e (fun P cv => execPolicyPowerIdle_keeps (Keeps.refl s) cv _ e) ⟨htarget, hmode, hpw.trans (by rw [hpwr])⟩

/-- While there is work the policy has no trigger. -/
theorem answers_policyPowerBusy {s : State} (hi : s.powerIdle = false) :
    Answers .policyPowerIdle s fun t => t.pwr = s.pwr ∧ t.pol = s.pol ∧ t.out = s.out ∧ OnlyFields [] s t := by
  have e : exec .policyPowerIdle s = .next s := by
    change execPolicyPowerIdle s = _
    simp [execPolicyPowerIdle, hi]
  exact answers_of_keeps e (fun P _ => Keeps.refl s) ⟨rfl, rfl, rfl, OnlyFields.refl [] s⟩

/-! ### The clauses on a request -/

theorem answers_request_invalid {s : State} {x y u : Nat} (hr : s.ready = true) (hy : y % 2 ^ 32 = 2 ^ 32 - 1 - x % 8)
    (hs : s.inSafe = false) (hx : x % 8 = 1 ∨ 5 ≤ x % 8) : Answers (.pwrRequest (some x) (some y) u) s fun t =>
      t.flag .PWR_EVT_REQ_INVALID = true ∧ t.rd .PWR_STS 0 = s.rd .PWR_STS 0 ∧ t.pwr.requested = s.pwr.requested := by
  apply answers_request hr hy
  rw [takeRequest_invalid (((s.at_ u).inSafe_asked x y).trans hs) hx]
  generalize ((s.at_ u).asked x y).pwrState = left
  have k := powerEvent_keeps_sts (((s.at_ u).asked x y).raise .PWR_EVT_REQ_INVALID) 7 0 left (x % 8) 0
  refine ⟨?_, ?_, ?_⟩
  · have h : (((s.at_ u).asked x y).raise .PWR_EVT_REQ_INVALID).fgetN .PWR_EVT_REQ_INVALID 0 = 1 :=
      State.fgetN_fsetN_same _ _ _ _ (by decide)
    simp only [State.flag, k.fgetN (g := .PWR_EVT_REQ_INVALID) rfl, h]
    decide
  · calc _ = (((s.at_ u).asked x y).raise .PWR_EVT_REQ_INVALID).rd .PWR_STS 0 := k.rd rfl 0
      _ = ((s.at_ u).asked x y).rd .PWR_STS 0 := State.rd_fsetN_other _ _ _ _ _ _ (.inl (by decide))
      _ = s.rd .PWR_STS 0 := State.rd_asked_sts _ x y
  · exact powerEvent_requested _ 7 0 left (x % 8) 0

theorem answers_request_queued {s : State} {x y u : Nat} (hr : s.ready = true) (hy : y % 2 ^ 32 = 2 ^ 32 - 1 - x % 8)
    (hs : s.inSafe = false) (h2 : 2 ≤ x % 8) (h4 : x % 8 ≤ 4) (hm : s.moving = true) (hq : s.flag .PWR_STS_QVALID = false) :
    Answers (.pwrRequest (some x) (some y) u) s fun t =>
      t.flag .PWR_STS_QVALID = true ∧ t.fget .PWR_STS_QTARGET = x % 8 ∧ t.pwr = { s.pwr with qByPolicy := false } := by
  apply answers_request hr hy
  rw [takeRequest_queue (((s.at_ u).inSafe_asked x y).trans hs) h2 h4 (((s.at_ u).moving_asked x y).trans hm),
    queueRequest_first _ (((s.at_ u).qvalid_asked x y).trans hq)]
  simp (disch := decide) only [State.flag_eq_fget, State.fget_onPwr_eq, State.fget_fset_apart, State.fget_fset_same]
  exact ⟨rfl, Nat.mod_eq_of_lt (show x % 8 < 8 by omega), rfl⟩

theorem moving_of_entering {s : State} (h : s.flag .PWR_STS_ENTERING = true) : s.moving = true := by simp [State.moving, h]

theorem answers_request_abort {s : State} {x y u : Nat} (hr : s.ready = true) (hy : y % 2 ^ 32 = 2 ^ 32 - 1) (hx : x % 8 = 0)
    (hs : s.inSafe = false) (he : s.flag .PWR_STS_ENTERING = true) (hex : s.flag .PWR_STS_EXITING = false) (ha : s.pwr.abortBy = none) :
    Answers (.pwrRequest (some x) (some y) u) s fun t =>
      t.flag .PWR_STS_QVALID = false ∧ t.pwr = { s.pwr with abortBy := some 0x10 } := by
  apply answers_request hr (by omega)
  rw [hx, takeRequest_abort (((s.at_ u).inSafe_asked x y).trans hs) (((s.at_ u).moving_asked x y).trans (moving_of_entering he))
    (((s.at_ u).exiting_asked x y).trans hex) ha]
  simp (disch := decide) only [State.flag_eq_fget, State.fget_onPwr_eq, State.fget_fset_same]
  exact ⟨rfl, rfl⟩

theorem answers_request_wake {s : State} {x y u : Nat} (hr : s.ready = true) (hy : y % 2 ^ 32 = 2 ^ 32 - 1) (hx : x % 8 = 0)
    (hs : s.inSafe = false) (hrest : Rests s) (hp : s.pwrState = 2) : Answers (.pwrRequest (some x) (some y) u) s fun t =>
      Woken 0x13 4 0 s t ∧ t.pwr.rows = [2, 5, 6, 7, 8, 9] ∧ t.pwr.wakeAt = u := by
  have hp' : ((s.at_ u).asked x y).pwrState = 2 := ((s.at_ u).pwrState_asked x y).trans hp
  obtain ⟨hreq, he, hex, htrip⟩ := hrest
  have hrest' : Rests ((s.at_ u).asked x y) := ⟨hreq, ((s.at_ u).entering_asked x y).trans he, ((s.at_ u).exiting_asked x y).trans hex, htrip⟩
  have hm' : ((s.at_ u).asked x y).moving = false :=
    ((s.at_ u).moving_asked x y).trans (by simp [State.moving, he, hex, show (s.at_ u).pwr.requested = false from hreq])
  apply answers_request hr (by omega)
  rw [hx, takeRequest_wake (((s.at_ u).inSafe_asked x y).trans hs) hm' hp', wake_rests hrest' (by omega)]
  obtain ⟨hw, hrows, hat⟩ := startExit_request hp' rfl
  refine ⟨?_, hrows, hat⟩
  unfold Woken at hw ⊢
  rwa [show s.pwrState = ((s.at_ u).asked x y).pwrState from hp.trans hp'.symm]

theorem answers_request_start {s : State} {x y u : Nat} (hr : s.ready = true) (hy : y % 2 ^ 32 = 2 ^ 32 - 1 - x % 8)
    (hs : s.inSafe = false) (h2 : 2 ≤ x % 8) (h4 : x % 8 ≤ 4) (hm : s.moving = false) (hp : s.pwrState ≠ 2) :
    Answers (.pwrRequest (some x) (some y) u) s fun t =>
      t.fget .PWR_STS_TARGET = x % 8 ∧ t.fget .PWR_MODE_MODE = x % 8 ∧ t.fget .PWR_STS_MODE = x % 8 ∧ t.pwrState = s.pwrState ∧
      t.pwr = { s.pwr with requested := true, byPolicy := false, abortBy := none } ∧ t.tim = s.tim.runTo u := by
  have hp' : ((s.at_ u).asked x y).pwrState = s.pwrState := State.pwrState_asked _ x y
  apply answers_request hr hy
  rw [takeRequest_start (((s.at_ u).inSafe_asked x y).trans hs) h2 h4 (((s.at_ u).moving_asked x y).trans hm) (hp' ▸ hp), ← hp']
  exact startEntry_acts ((s.at_ u).asked x y) false (by omega) rfl

/-- Settles O44: each clause is the law of one outcome of a request, or of the policy's trigger. -/
theorem powerRequestsAreTaken : Obligations.PowerRequestsAreTaken := by
  unfold Obligations.PowerRequestsAreTaken
  exact ⟨fun _ _ _ _ hr hy hs h2 h4 hm hp => answers_request_start hr hy hs h2 h4 hm hp,
    fun _ x y u hr hy => answers_noRequest hr hy ⟨State.target_asked _ x y, rfl, State.rd_asked_sts _ x y, rfl⟩,
    fun _ _ _ _ hr hy hs hx => answers_request_invalid hr hy hs hx,
    fun _ _ _ _ hr hy hs h2 h4 hm hq => answers_request_queued hr hy hs h2 h4 hm hq,
    fun _ _ _ _ hr hy hx hs he hex ha => answers_request_abort hr hy hx hs he hex ha,
    fun _ _ _ _ hr hy hx hs hrest hp => answers_request_wake hr hy hx hs hrest hp,
    fun _ hi ha hp hm hs => answers_policyPowerIdle hi ha hp hm hs,
    fun _ hi => answers_policyPowerBusy hi⟩

end Sys2Proof.Machine
end

section
/-! Readiness judged again and entries completed (R225-R227): what neither touches, and that the controller's own control transfer stays open. -/

namespace Sys2Proof.Machine

/-! ### Records on rings 1 and 2 leave the other rings alone -/

theorem State.ring_of_rings {s t : State} (h : t.rings = s.rings) (q : Nat) : t.ring q = s.ring q := by simp only [State.ring, h]

theorem State.ring_ite {c : Prop} [Decidable c] {s x y : State} {q : Nat} (hx : x.ring q = s.ring q) (hy : y.ring q = s.ring q) :
    (if c then x else y).ring q = s.ring q := by
  split <;> assumption

theorem ring_writeRecord_other (s : State) {r q : Nat} (b : List Byte) (h : q ≠ r) : (s.writeRecord r b).ring q = s.ring q := by
  have hr (x : State) : (x.ringRequest r).rings = x.rings :=
    (State.ringRequest_keeps (P := within [.out, .icu, .reg .ICU_ERR]) r (Keeps.refl x) (covers_within (by decide))).part .rings rfl
  have he (x : State) (n : Nat) : (x.engineDone n).rings = x.rings :=
    (State.engineDone_keeps (P := within [.reg .MOV_STS]) n (Keeps.refl x) (covers_within (by decide))).part .rings rfl
  unfold State.writeRecord
  rw [State.ring_of_rings (hr _), State.ring_of_rings (he _ _), State.ring_onRing_other _ _ h, State.ring_emits]

theorem ring_keepRecord_other (s : State) {r q : Nat} (b : List Byte) (h : q ≠ r) : (s.keepRecord r b).ring q = s.ring q :=
  s.ring_onRing_other _ h

theorem ring_ringError_other (s : State) {r q : Nat} (reason : Nat) (h : q ≠ r) : (s.ringError r reason).ring q = s.ring q :=
  s.ring_onRing_other _ h

theorem ring_geoFail_other (s : State) {r q : Nat} (h1 : q ≠ 1) (h : q ≠ r) : (s.geoFail r).ring q = s.ring q := by
  unfold State.geoFail
  dsimp only
  split
  · split
    · rw [ring_writeRecord_other _ _ h1, ring_ringError_other _ _ h]
    · rw [ring_keepRecord_other _ _ h1, ring_keepRecord_other _ _ h1, ring_ringError_other _ _ h1, ring_ringError_other _ _ h]
  · rw [ring_keepRecord_other _ _ h1, ring_ringError_other _ _ h]

theorem ring_putRecord_other (s : State) {r q : Nat} (b : List Byte) (h1 : q ≠ 1) (h : q ≠ r) : (s.putRecord r b).ring q = s.ring q := by
  unfold State.putRecord
  split
  · exact ring_writeRecord_other s b h
  · exact ring_geoFail_other s h1 h

theorem ring_eventRecord_other (s : State) {r q : Nat} (b : List Byte) (h1 : q ≠ 1) (h : q ≠ r) : (s.eventRecord r b).ring q = s.ring q := by
  unfold State.eventRecord
  split
  · split
    · exact ring_writeRecord_other s b h
    · rw [ring_keepRecord_other _ _ h, ring_geoFail_other _ h1 h]
  · exact ring_keepRecord_other s b h

theorem ring_integrityReg_other (s : State) {q : Nat} (ofs : Nat) (h : q ≠ 1) : (s.integrityReg ofs).ring q = s.ring q :=
  ring_eventRecord_other s _ h h

theorem ring_trace_other (s : State) {q : Nat} (kind frame : Nat) (port sl eph : Option Nat) (cls status ring idx a b c : Nat) (h1 : q ≠ 1)
    (h2 : q ≠ 2) : (s.trace kind frame port sl eph cls status ring idx a b c).ring q = s.ring q := by
  unfold State.trace
  exact State.ring_ite (State.ring_ite (ring_putRecord_other (s.onDeal _) _ h1 h2) rfl) rfl

theorem ctxOpt_onCtx (s : State) (eph e : Nat) (f : CtxSlot → CtxSlot) :
    (s.onCtx eph f).ctx? e = if e = eph then (s.ctx? e).map f else s.ctx? e := by
  unfold State.onCtx
  split
  case h_1 k hk =>
    by_cases h : e = eph
    · subst h
      simp [State.ctx?, hk]
    · simp [State.ctx?, Tbl.find_put_other _ _ h, h]
  case h_2 hk =>
    by_cases h : e = eph
    · subst h
      simp [State.ctx?, hk]
    · simp [h]

/-! ### What judging readiness and completing entries leave -/

/-- What stands of a context: all but the pointers of its pocket, and whether it failed its check. -/
def CtxSlot.face (k : CtxSlot) : Ctx × Bool := ({ k.ctx with wrPtr := 0, rdPtr := 0 }, k.bad)

theorem CtxSlot.state_of_face {k l : CtxSlot} (h : k.face = l.face) : k.ctx.state = l.ctx.state := congrArg (fun f => f.1.state) h

theorem CtxSlot.route_of_face {k l : CtxSlot} (h : k.face = l.face) : k.ctx.route = l.ctx.route := congrArg (fun f => f.1.route) h

theorem CtxSlot.eph_of_face {k l : CtxSlot} (h : k.face = l.face) : k.ctx.eph = l.ctx.eph := congrArg (fun f => f.1.eph) h

/-- What stands of an entry: what it is, and for the entry that is `kept`, whether it has completed. -/
def Entry.face (kept : Option Nat) (e : Entry) : Nat × Option (Nat × Nat) × Nat × List Byte × Nat × Bool :=
  (e.id, e.forCmd, e.eph, e.setup, e.kind, decide (kept = some e.id) && e.done.isSome)

/-- Every ring but 1 and 2 is as before, contexts have changed in their pockets alone, and entries are the same, of which the `kept` one has
not completed. -/
structure Steady (kept : Option Nat) (s t : State) : Prop where
  ring : ∀ q, q ≠ 1 → q ≠ 2 → t.ring q = s.ring q
  ctx : ∀ eph, (t.ctx? eph).map CtxSlot.face = (s.ctx? eph).map CtxSlot.face
  entries : t.entries.map (Entry.face kept) = s.entries.map (Entry.face kept)

section
variable {kept : Option Nat}

theorem Steady.refl (s : State) : Steady kept s s := ⟨fun _ _ _ => rfl, fun _ => rfl, rfl⟩

theorem Steady.trans {s t u : State} (h : Steady kept s t) (k : Steady kept t u) : Steady kept s u :=
  ⟨fun q h1 h2 => (k.ring q h1 h2).trans (h.ring q h1 h2), fun eph => (k.ctx eph).trans (h.ctx eph), k.entries.trans h.entries⟩

theorem Steady.of_eq {s t : State} (hr : t.rings = s.rings) (hc : t.ctxs = s.ctxs) (he : t.entries = s.entries) : Steady kept s t :=
  ⟨fun q _ _ => State.ring_of_rings hr q, fun eph => by simp only [State.ctx?, hc], by rw [he]⟩

theorem Steady.of_ring {s t : State} (hr : ∀ q, q ≠ 1 → q ≠ 2 → t.ring q = s.ring q) (hc : t.ctxs = s.ctxs) (he : t.entries = s.entries) :
    Steady kept s t :=
  ⟨hr, fun eph => by simp only [State.ctx?, hc], by rw [he]⟩

theorem Steady.find {s t : State} (h : Steady kept s t) {eph : Nat} {k : CtxSlot} (hk : s.ctx? eph = some k) :
    ∃ k', t.ctx? eph = some k' ∧ k'.face = k.face := by
  have hc := h.ctx eph
  rwa [hk, Option.map_some, Option.map_eq_some_iff] at hc

theorem Steady.ctxSt {s t : State} (h : Steady kept s t) (eph : Nat) : t.ctxSt eph = s.ctxSt eph := by
  have hs (x : State) : x.ctxSt eph = ((x.ctx? eph).map CtxSlot.face).map fun f => f.1.state := by
    simp only [State.ctxSt, Option.map_map]
    rfl
  rw [hs, hs, h.ctx]

/-- Whose transfers the entries are. -/
theorem Steady.forCmds {s t : State} (h : Steady kept s t) : t.entries.map Entry.forCmd = s.entries.map Entry.forCmd := by
  have hf (x : State) : x.entries.map Entry.forCmd = (x.entries.map (Entry.face kept)).map fun f => f.2.1 := by
    simp only [List.map_map]
    rfl
  rw [hf, hf, h.entries]

theorem Steady.foldl {α : Type} {f : State → α → State} {p : State → Prop} (hp : ∀ s t, p s → Steady kept s t → p t)
    (hf : ∀ s a, p s → Steady kept s (f s a)) (l : List α) {s : State} (h : p s) : Steady kept s (l.foldl f s) := by
  induction l generalizing s with
  | nil => exact Steady.refl s
  | cons a l ih => exact (hf s a h).trans (ih (hp _ _ h (hf s a h)))

theorem onCtx_steady (s : State) (eph : Nat) {f : CtxSlot → CtxSlot} (hf : ∀ k, (f k).face = k.face) : Steady kept s (s.onCtx eph f) := by
  have k : Keeps (within [.ctxs]) s (s.onCtx eph f) := State.onCtx_keeps eph f (Keeps.refl s) (covers_within (by decide))
  refine ⟨fun q _ _ => State.ring_of_rings (k.part .rings rfl) q, fun e => ?_, congrArg (List.map _) (k.part .entries rfl)⟩
  rw [ctxOpt_onCtx]
  split
  · cases s.ctx? e <;> simp [hf]
  · rfl

theorem onPocket_steady (s : State) (eph : Nat) {f : CtxSlot → CtxSlot} (hf : ∀ k, (f k).face = k.face) : Steady kept s (s.onPocket eph f) := by
  unfold State.onPocket
  split
  · exact onCtx_steady s eph hf
  · split
    · exact Steady.of_eq rfl rfl rfl
    · exact Steady.refl s

theorem onEntry_steady (s : State) (id : Nat) {f : Entry → Entry} (hf : ∀ e, e.id = id → (f e).face kept = e.face kept) :
    Steady kept s (s.onEntry id f) := by
  refine ⟨fun _ _ _ => rfl, fun _ => rfl, ?_⟩
  simp only [State.onEntry, List.map_map]
  refine List.map_congr_left fun e _ => ?_
  by_cases h : e.id = id <;> simp [h, hf]

theorem leavePocket_steady (s : State) (e : Entry) : Steady kept s (s.leavePocket e) := by
  have h : Steady kept s (if e.held = 0 then s else s.pocketFree e.eph e.held) := by
    split
    · exact Steady.refl s
    · exact onPocket_steady s _ fun _ => rfl
  exact h.trans (onCtx_steady _ _ fun k => by split <;> rfl)

/-- An entry other than the kept one completes. -/
theorem finish_steady (s : State) {id : Nat} (status : Nat) (h : kept ≠ some id) : Steady kept s (s.finish id status) := by
  have rest {x : State} (hx : Steady kept s x) : Steady kept s ((((x.onEntry id fun e => if e.done.isSome then e else
      { e with st := .done, delay := none, done := some (e.doneWith status) }).unlist id).offHand id).abandon fun t => t.entry == some id) := by
    refine (hx.trans (onEntry_steady x id fun e he => ?_)).trans (Steady.of_eq rfl rfl rfl)
    subst he
    split <;> simp [Entry.face, h]
  unfold State.finish
  split
  · split
    · exact rest (leavePocket_steady s _)
    · exact rest (Steady.refl s)
  · exact rest (Steady.refl s)

/-- With no entry kept, entries complete one after the other. -/
theorem finishWhere_steady (s : State) (p : Entry → Bool) (status : Nat) : Steady none s (s.finishWhere p status) :=
  Steady.foldl (p := fun _ => True) (fun _ _ _ _ => trivial) (fun x e _ => finish_steady x status (by simp)) _ trivial

theorem traceEntry_steady (s : State) (kind : Nat) (e : Entry) (status a b c : Nat) : Steady kept s (s.traceEntry kind e status a b c) := by
  have k : Keeps (within [.out, .rings, .deal, .icu, .reg .MOV_STS, .reg .ICU_ERR]) s (s.traceEntry kind e status a b c) :=
    State.traceEntry_keeps _ _ _ _ _ _ (Keeps.refl s) (covers_within (by decide))
  exact Steady.of_ring (fun q h1 h2 => ring_trace_other s _ _ _ _ _ _ _ _ _ _ _ _ h1 h2) (k.part .ctxs rfl) (k.part .entries rfl)

theorem Steady.ite {c : Prop} [Decidable c] {s x y : State} (hx : Steady kept s x) (hy : Steady kept s y) : Steady kept s (if c then x else y) := by
  split <;> assumption

theorem onDeal_steady (s : State) (f : Dealer → Dealer) : Steady kept s (s.onDeal f) := Steady.of_eq rfl rfl rfl

theorem abandon_steady (s : State) (p : Txn → Bool) : Steady kept s (s.abandon p) := Steady.of_eq rfl rfl rfl

theorem pocketPut_steady (s : State) (eph : Nat) (b : List Byte) : Steady kept s (s.pocketPut eph b) := by
  unfold State.pocketPut
  split
  case h_1 k hk =>
    have hp : Steady kept s { s with pool := Memory.writeRing s.pool k.ctx.base k.ctx.size k.ctx.wrPtr b } := Steady.of_eq rfl rfl rfl
    refine hp.trans (onCtx_steady _ eph ?_)
    exact fun _ => rfl
  case h_2 => exact Steady.refl s

theorem load_steady (s : State) (id : Nat) : Steady kept s (s.load id) := by
  unfold State.load
  split
  · exact Steady.refl s
  · split
    · exact Steady.refl s
    · refine Steady.ite (Steady.refl s) ((pocketPut_steady s _ _).trans (onEntry_steady _ id ?_))
      exact fun _ _ => rfl

theorem enlist_steady (s : State) (e : Entry) (head : Bool) (why : Nat) : Steady kept s (s.enlist e head why) := by
  have h : Steady kept s ((s.load e.id).onEntry e.id fun e => { e with st := .ready, waitMet := true }) := by
    refine (load_steady s e.id).trans (onEntry_steady _ e.id ?_)
    exact fun _ _ => rfl
  unfold State.enlist
  generalize (s.load e.id).onEntry e.id (fun e => { e with st := .ready, waitMet := true }) = x at h
  split
  · exact (h.trans (onDeal_steady x _)).trans (traceEntry_steady _ 5 e 0 0 why 0)
  · exact h

theorem holdBack_steady (s : State) (e : Entry) : Steady kept s (s.holdBack e) := by
  have ho : Steady kept s (s.offHand e.id) := Steady.of_eq rfl rfl rfl
  unfold State.holdBack
  refine Steady.ite (ho.trans (onEntry_steady _ e.id ?_)) ho
  exact fun _ _ => rfl

/-- A miss that makes no fetch is counted or reported. -/
theorem dirFail_steady (s : State) (st : Nat) : Steady kept s (s.dirFail st) := by
  unfold State.dirFail
  split
  · exact Steady.of_eq rfl rfl rfl
  · split
    · have k : Keeps (within [.out, .rings, .icu, .reg .MOV_STS, .reg .ICU_ERR]) s (s.integrityReg 0x3F00) :=
        State.integrityReg_keeps _ (Keeps.refl s) (covers_within (by decide))
      exact Steady.of_ring (fun q h1 _ => ring_integrityReg_other s _ h1) (k.part .ctxs rfl) (k.part .entries rfl)
    · exact Steady.refl s

theorem wantCtx_steady (s : State) (e : Entry) (h : kept ≠ some e.id) : Steady kept s (s.wantCtx e) := by
  have hf : Steady kept s (s.fetchStart e.eph) := by
    unfold State.fetchStart
    split <;> exact Steady.of_eq rfl rfl rfl
  unfold State.wantCtx
  split
  · exact Steady.refl s
  · split
    · exact hf
    · have hc : Steady kept s (s.count .SCH_CTXCNT_MISSES) := Steady.of_eq rfl rfl rfl
      exact (hc.trans (dirFail_steady _ _)).trans (finish_steady _ _ h)

/-! ### The kept entry stays open -/

/-- The kept entry is a control transfer of a RUNNING context that passed its check: readiness never completes it. -/
def Guarded (kept : Option Nat) (s : State) : Prop :=
  ∀ e ∈ s.entries, kept = some e.id → e.kind = 1 ∧ ∃ k, s.ctx? e.eph = some k ∧ k.bad = false ∧ k.ctx.state = 2

theorem guarded_none (s : State) : Guarded none s := fun _ _ h => by cases h

theorem Guarded.of_steady {s t : State} (h : Guarded kept s) (k : Steady kept s t) : Guarded kept t := by
  intro e he hk
  obtain ⟨e0, he0, hface⟩ := List.mem_map.1 (k.entries ▸ List.mem_map_of_mem he : e.face kept ∈ s.entries.map (Entry.face kept))
  simp only [Entry.face, Prod.mk.injEq] at hface
  obtain ⟨hid, -, heph, -, hkind, -⟩ := hface
  obtain ⟨h1, k0, hk0, hbad, hst⟩ := h e0 he0 (by rw [hk, hid])
  have hc := k.ctx e.eph
  rw [← heph, hk0, Option.map_some, Option.map_eq_some_iff] at hc
  obtain ⟨k1, hk1, hf⟩ := hc
  have hb : k1.bad = k0.bad := congrArg Prod.snd hf
  exact ⟨hkind ▸ h1, k1, heph ▸ hk1, hb.trans hbad, (CtxSlot.state_of_face hf).trans hst⟩

/-- Judging an entry completes none that is guarded. -/
theorem judge_steady {s : State} (why id : Nat) (h : Guarded kept s) : Steady kept s (s.judge why id) := by
  unfold State.judge
  split
  case h_1 => exact Steady.refl s
  case h_2 e he =>
    have hid : e.id = id := by simpa using List.find?_some he
    have hg := h e (List.mem_of_find?_eq_some he)
    subst hid
    refine Steady.ite (Steady.refl s) ?_
    split
    case isTrue h4 =>
      have hne : kept ≠ some e.id := fun hk => by simp [(hg hk).1] at h4
      refine Steady.ite (Steady.trans (onEntry_steady s e.id ?_) (finish_steady _ stOk hne)) (Steady.refl s)
      exact fun _ _ => rfl
    case isFalse =>
      split
      case h_1 hc =>
        refine wantCtx_steady s e fun hk => ?_
        obtain ⟨-, k, hk, -⟩ := hg hk
        simp [hc] at hk
      case h_2 k hc =>
        have hrun (hk : kept = some e.id) : k.ctx.state = 2 := by
          obtain ⟨-, k', hk', -, hst⟩ := hg hk
          rw [hc, Option.some.injEq] at hk'
          rw [hk', hst]
        have hout (st : Nat) (hne : k.ctx.state ≠ 2) : Steady kept s (if s.earlierOpen e = true then s.holdBack e else s.finish e.id st) :=
          Steady.ite (holdBack_steady s e) (finish_steady s st fun hk => hne (hrun hk))
        refine Steady.ite (holdBack_steady s e) ?_
        split
        case h_1 h0 => exact hout stBounds (by simp [h0])
        case h_2 h1 => exact hout stBusReset (by simp [h1])
        case h_3 =>
          refine Steady.ite ?_ (Steady.refl s)
          split
          case isTrue hin =>
            refine finish_steady s stOk fun hk => ?_
            simp [State.emptyIn, (hg hk).1] at hin
          case isFalse => exact enlist_steady s e false why
        case h_4 h5 => exact hout stDisconnected (by simp [h5])
        case h_5 => exact holdBack_steady s e

theorem refreshWaiting_steady {s : State} (why : Entry → Nat) (h : Guarded kept s) : Steady kept s (s.refreshWaiting why) :=
  Steady.foldl (fun _ _ h k => h.of_steady k) (fun _ e h => judge_steady (why e) e.id h) s.entries h

/-- An EVENT transfer takes an event; no control transfer does. -/
theorem eventTake1_steady {s : State} (eph : Nat) (h : Guarded kept s) : Steady kept s (s.eventTake1 eph) := by
  unfold State.eventTake1
  split
  · split
    case h_1 ev rest e _ he =>
      have hne : kept ≠ some e.id := fun hk => by
        have h0 := List.find?_some he
        simp [(h e (List.mem_of_find?_eq_some he) hk).1] at h0
      refine Steady.ite (((onCtx_steady s eph ?_).trans (onEntry_steady _ e.id ?_)).trans (finish_steady _ _ hne)) (Steady.refl s)
      · exact fun _ => rfl
      · exact fun _ _ => rfl
    case h_2 => exact Steady.refl s
  · exact Steady.refl s

theorem refresh_steady {s : State} (why : Nat) (h : Guarded kept s) : Steady kept s (s.refresh why) := by
  have h1 := refreshWaiting_steady (fun _ => why) h
  exact h1.trans (Steady.foldl (fun _ _ h k => h.of_steady k) (fun _ eph h => eventTake1_steady eph h) _ (h.of_steady h1))

end

/-! ### What waits for the controller's own transfers -/

/-- No EP_REMOVE waits for a transaction in flight. -/
def NoRemoval (s : State) : Prop := ∀ c ∈ s.cmds, c.op = 0x11 → c.stage = 1 → c.status ≠ none

/-- A change that makes no command an EP_REMOVE in progress. -/
theorem NoRemoval.onCmd {s : State} (h : NoRemoval s) (r i : Nat) {f : CmdRec → CmdRec}
    (hf : ∀ c, (f c).op = 0x11 → (f c).stage = 1 → (f c).status ≠ none) : NoRemoval (s.onCmd r i f) := by
  intro c hc hop hst
  obtain ⟨c0, hc0, rfl⟩ := List.mem_map.1 hc
  by_cases hit : c0.ring = r ∧ c0.idx = i ∧ c0.status.isNone
  · rw [if_pos hit] at hop hst ⊢
    exact hf c0 hop hst
  · rw [if_neg hit] at hop hst ⊢
    exact h c0 hc0 hop hst

theorem NoRemoval.cmdDone {s : State} (h : NoRemoval s) (r i st res : Nat) : NoRemoval (s.cmdDone r i st res) := h.onCmd r i fun _ _ _ => by simp

theorem NoRemoval.taken {s : State} (h : NoRemoval s) (r : Nat) {b : List Byte} (hop : cmdOp b ≠ 0x11) : NoRemoval (s.taken r b) := by
  intro c hc h1 h2
  rcases List.mem_append.1 hc with hc | hc
  · exact h c hc h1 h2
  · obtain rfl := List.mem_singleton.1 hc
    exact absurd h1 hop

/-- With no transfer of its own completed and no EP_REMOVE waiting, the controller's commands stay as they are. -/
theorem settled_of_quiet {s : State} (he : ∀ e ∈ s.entries, e.forCmd.isSome → e.done = none)
    (hc : NoRemoval s) : s.settled = s := by
  have h1 : s.entries.find? (fun e => e.forCmd.isSome && e.done.isSome) = none := by
    rw [List.find?_eq_none]
    intro e hm h
    rw [Bool.and_eq_true] at h
    simp [he e hm h.1] at h
  have h2 : (s.cmds.filter fun c => c.op == 0x11 && c.stage == 1 && c.status.isNone) = [] := by
    rw [List.filter_eq_nil_iff]
    intro c hm h
    simp only [Bool.and_eq_true, beq_iff_eq, Option.isNone_iff_eq_none] at h
    obtain ⟨⟨hop, hst⟩, hn⟩ := h
    exact hc c hm hop hst hn
  simp only [State.settled, State.settle, h1, h2, List.foldl_nil]

theorem forCmd_none_of_map {s t : State} (h : t.entries.map Entry.forCmd = s.entries.map Entry.forCmd) (hs : ∀ e ∈ s.entries, e.forCmd = none) :
    ∀ e ∈ t.entries, e.forCmd = none := by
  intro e he
  obtain ⟨e0, he0, hf⟩ := List.mem_map.1 (h ▸ List.mem_map_of_mem he : e.forCmd ∈ s.entries.map Entry.forCmd)
  exact hf ▸ hs e0 he0

/-- The completion of a command lets nothing else go on. -/
theorem settled_cmdDone {s : State} (he : ∀ e ∈ s.entries, e.forCmd = none) (hc : NoRemoval s) (r i st res : Nat) :
    (s.cmdDone r i st res).settled = s.cmdDone r i st res :=
  settled_of_quiet (fun e hm hf => by rw [he e hm] at hf; cases hf) (hc.cmdDone r i st res)

end Sys2Proof.Machine
end

section
/-! SUBTREE_GONE (R150, R197): the transfers of the subtree end, its contexts are GONE, and nothing else goes on. -/

namespace Sys2Proof.Machine

/-! ### Fields of a context -/

/-- What lies below a field is left alone. -/
theorem nset_mod (w hi lo v : Nat) : nset w hi lo v % 2 ^ lo = w % 2 ^ lo := by
  have hle : nfield w hi lo * 2 ^ lo ≤ w := (Nat.mul_le_mul_right _ (Nat.mod_le _ _)).trans (Nat.div_mul_le_self w _)
  obtain ⟨d, hd⟩ := Nat.exists_eq_add_of_le hle
  have hn : nset w hi lo v = d + v % 2 ^ (hi + 1 - lo) * 2 ^ lo := congrArg (· + _) (Nat.sub_eq_of_eq_add' hd)
  rw [hn, hd, Nat.add_mul_mod_self_right, Nat.mul_add_mod_self_right]

/-- A field that is set holds the value, cut to its width. -/
theorem nfield_nset (w hi lo v : Nat) : nfield (nset w hi lo v) hi lo = v % 2 ^ (hi + 1 - lo) := by
  have hp : 0 < 2 ^ lo := Nat.two_pow_pos lo
  have hw : w - nfield w hi lo * 2 ^ lo = w % 2 ^ lo + 2 ^ lo * (2 ^ (hi + 1 - lo) * (w / 2 ^ lo / 2 ^ (hi + 1 - lo))) := by
    have h1 := Nat.mod_add_div w (2 ^ lo)
    have h2 := Nat.mod_add_div (w / 2 ^ lo) (2 ^ (hi + 1 - lo))
    rw [nfield]
    refine Nat.sub_eq_of_eq_add ?_
    calc w = w % 2 ^ lo + 2 ^ lo * (w / 2 ^ lo % 2 ^ (hi + 1 - lo) + 2 ^ (hi + 1 - lo) * (w / 2 ^ lo / 2 ^ (hi + 1 - lo))) := by rw [h2, h1]
      _ = _ := by ring
  have hv : nset w hi lo v = w % 2 ^ lo + 2 ^ lo * (v % 2 ^ (hi + 1 - lo) + 2 ^ (hi + 1 - lo) * (w / 2 ^ lo / 2 ^ (hi + 1 - lo))) := by
    rw [nset, hw]
    ring
  rw [nfield, hv, Nat.add_mul_div_left _ _ hp, Nat.div_eq_of_lt (Nat.mod_lt _ hp), Nat.zero_add, Nat.add_mul_mod_self_left, Nat.mod_mod]

theorem Ctx.setState_state (c : Ctx) {v : Nat} (h : v < 16) : (c.setState v).state = v := by
  simp only [Ctx.state, Ctx.setState, nfield_nset]
  exact Nat.mod_eq_of_lt h

theorem Ctx.inSubtree_w32 (c : Ctx) (w p r d : Nat) : ({ c with w32 := w } : Ctx).inSubtree p r d = c.inSubtree p r d := rfl

/-! ### A subtree that is gone (R150, R197) -/

/-- A context of the subtree, not DISABLED. -/
def Ctx.Leaves (c : Ctx) (p r d : Nat) : Prop := c.inSubtree p r d = true ∧ c.state ≠ 0

theorem Ctx.Leaves.gone {c : Ctx} {p r d : Nat} (h : c.Leaves p r d) : (CtxEvent.gone p r d).apply c = c.setState 5 := by
  obtain ⟨hin, hst⟩ := h
  simp [CtxEvent.apply, hin, hst]

theorem Ctx.Leaves.setState {c : Ctx} {p r d : Nat} (h : c.Leaves p r d) : (c.setState 5).Leaves p r d := by
  obtain ⟨hin, -⟩ := h
  exact ⟨(c.inSubtree_w32 _ p r d).trans hin, by simp [c.setState_state]⟩

/-- What the move to GONE makes of a slot of the cache. -/
def CtxSlot.gone (p r d : Nat) (k : CtxSlot) : CtxSlot :=
  let c := (CtxEvent.gone p r d).apply k.ctx
  { k with ctx := c, dirty := k.dirty || c != k.ctx, leftState := if c.state = 4 ∧ k.ctx.state ≠ 4 then k.ctx.state else k.leftState }

/-- The quiet change of one context to GONE: beside the contexts it writes what a coder and a gather group of its keep. -/
theorem ctxApply_gone_keeps (s : State) (e p r d : Nat) : Keeps (within [.smp, .reg .GTH_CNT, .reg .GTH_DROP, .reg .CDR_EVT, .reg .CDR_FLG])
    (s.onCtx e (CtxSlot.gone p r d)) (s.ctxApply e (.gone p r d) true) := by
  cases hk : s.ctx? e with
  | none =>
    have h : s.onCtx e (CtxSlot.gone p r d) = s := by
      unfold State.ctx? at hk
      simp only [State.onCtx, hk]
    simp only [h, State.ctxApply, hk]
    exact Keeps.refl s
  | some k =>
    have hf : (fun k : CtxSlot => { k with
        ctx := (CtxEvent.gone p r d).apply k.ctx, dirty := k.dirty || (CtxEvent.gone p r d).apply k.ctx != k.ctx,
        dups := if CtxEvent.gone p r d = .clear e then 0 else k.dups,
        leftState := if ((CtxEvent.gone p r d).apply k.ctx).state = 4 ∧ k.ctx.state ≠ 4 then k.ctx.state else k.leftState }) =
        CtxSlot.gone p r d := by
      funext k
      simp [CtxSlot.gone]
    simp only [State.ctxApply, hk, CtxEvent.resets, hf, Bool.false_eq_true, if_false, if_true]
    generalize s.onCtx e (CtxSlot.gone p r d) = x
    split
    · exact Keeps.refl x
    · split
      · exact Keeps.refl x
      · exact State.coderStop_keeps e (Keeps.refl x) (covers_within (by decide))

/-- A context of the subtree stays one, and is GONE once its own turn has come. -/
theorem ctxApply_gone_leaves {s : State} {eph p r d : Nat} {k : CtxSlot} (e : Nat) (hk : s.ctx? eph = some k) (h : k.ctx.Leaves p r d) :
    ∃ k', (s.ctxApply e (.gone p r d) true).ctx? eph = some k' ∧ k'.ctx.Leaves p r d ∧ (e = eph ∨ k.ctx.state = 5 → k'.ctx.state = 5) := by
  have hc : (s.ctxApply e (.gone p r d) true).ctx? eph = (s.onCtx e (CtxSlot.gone p r d)).ctx? eph :=
    congrArg (Tbl.find · eph) ((ctxApply_gone_keeps s e p r d).part .ctxs rfl)
  rw [hc, ctxOpt_onCtx, hk]
  split
  case isTrue he =>
    have hg : (k.gone p r d).ctx = k.ctx.setState 5 := h.gone
    exact ⟨_, rfl, hg ▸ h.setState, fun _ => hg ▸ k.ctx.setState_state (by decide)⟩
  case isFalse he => exact ⟨k, rfl, h, fun h5 => h5.resolve_left (Ne.symm he)⟩

theorem ctxApply_gone_foldl (p r d : Nat) (l : Tbl CtxSlot) {s : State} {eph : Nat} {k : CtxSlot} (hk : s.ctx? eph = some k)
    (h : k.ctx.Leaves p r d) : ∃ k', (l.foldl (fun s x => s.ctxApply x.1 (.gone p r d) true) s).ctx? eph = some k' ∧
      ((∃ v, (eph, v) ∈ l) ∨ k.ctx.state = 5 → k'.ctx.state = 5) := by
  induction l generalizing s k with
  | nil => exact ⟨k, hk, fun h5 => h5.resolve_left (by simp)⟩
  | cons x l ih =>
    obtain ⟨k1, hk1, h1, h5⟩ := ctxApply_gone_leaves x.1 hk h
    obtain ⟨k2, hk2, hall⟩ := ih hk1 h1
    refine ⟨k2, hk2, ?_⟩
    rintro (⟨v, hv⟩ | h0)
    · rcases List.mem_cons.1 hv with rfl | hv
      · exact hall (.inr (h5 (.inl rfl)))
      · exact hall (.inl ⟨v, hv⟩)
    · exact hall (.inr (h5 (.inr h0)))

/-- The quiet move of a subtree to GONE reaches every cached context of it. -/
theorem ctxAll_gone {s : State} {eph p r d : Nat} {k : CtxSlot} (hk : s.ctx? eph = some k) (h : k.ctx.Leaves p r d) :
    (s.ctxAll (.gone p r d) true).ctxSt eph = some 5 := by
  obtain ⟨k', hk', h5⟩ := ctxApply_gone_foldl p r d s.ctxs hk h
  exact (congrArg (Option.map fun k => k.ctx.state) hk').trans (congrArg some (h5 (.inl ⟨k, Tbl.mem_of_find hk⟩)))

theorem ctxAll_gone_keeps (s : State) (p r d : Nat) : Keeps (within [.ctxs, .cmgr, .smp, .reg .GTH_CNT, .reg .GTH_DROP, .reg .CDR_EVT,
    .reg .CDR_FLG]) s (s.ctxAll (.gone p r d) true) := by
  have hf (l : Tbl CtxSlot) (x : State) : Keeps (within [.ctxs, .cmgr, .smp, .reg .GTH_CNT, .reg .GTH_DROP, .reg .CDR_EVT, .reg .CDR_FLG]) x
      (l.foldl (fun s y => s.ctxApply y.1 (.gone p r d) true) x) := by
    induction l generalizing x with
    | nil => exact Keeps.refl x
    | cons y l ih =>
      have h1 := (ctxApply_gone_keeps x y.1 p r d).mono (m := [.ctxs, .cmgr, .smp, .reg .GTH_CNT, .reg .GTH_DROP, .reg .CDR_EVT, .reg .CDR_FLG])
        (by decide)
      exact (Keeps.trans (State.onCtx_keeps y.1 _ (Keeps.refl x) (covers_within (by decide))) h1).trans (ih _)
  exact State.onCmgr_keeps _ (hf s.ctxs s) (covers_within (by decide))

/-- The transfers of a subtree end before its contexts change, and readiness is judged after. -/
theorem subtreeGone_eq (s : State) (p r d : Nat) : ∃ x, Steady none s x ∧ s.subtreeGone p r d true = (x.ctxAll (.gone p r d) true).refresh 0 :=
  ⟨_, (abandon_steady s _).trans (finishWhere_steady _ _ stDisconnected), rfl⟩

/-- A context of the subtree that was not DISABLED is GONE. -/
theorem subtreeGone_ctxSt {s : State} {eph p r d : Nat} {k : CtxSlot} (hk : s.ctx? eph = some k) (h : k.ctx.Leaves p r d) :
    (s.subtreeGone p r d true).ctxSt eph = some 5 := by
  obtain ⟨x, hx, e⟩ := subtreeGone_eq s p r d
  obtain ⟨k', hk', hface⟩ := hx.find hk
  obtain ⟨hin, hst⟩ := h
  have hin' : k'.ctx.inSubtree p r d = true := by
    simpa only [Ctx.inSubtree, CtxSlot.eph_of_face hface, CtxSlot.route_of_face hface] using hin
  rw [e, (refresh_steady 0 (guarded_none _)).ctxSt]
  exact ctxAll_gone hk' ⟨hin', CtxSlot.state_of_face hface ▸ hst⟩

/-- SUBTREE_GONE leaves the rings of commands, and whose transfers the entries are. -/
theorem subtreeGone_rest (s : State) (p r d : Nat) : (∀ q, q ≠ 1 → q ≠ 2 → (s.subtreeGone p r d true).ring q = s.ring q) ∧
    (s.subtreeGone p r d true).entries.map Entry.forCmd = s.entries.map Entry.forCmd := by
  obtain ⟨x, hx, e⟩ := subtreeGone_eq s p r d
  have hg := ctxAll_gone_keeps x p r d
  have hr : Steady none (x.ctxAll (.gone p r d) true) ((x.ctxAll (.gone p r d) true).refresh 0) := refresh_steady 0 (guarded_none _)
  rw [e]
  refine ⟨fun q h1 h2 => ?_, ?_⟩
  · exact (hr.ring q h1 h2).trans ((State.ring_of_rings (hg.part .rings rfl) q).trans (hx.ring q h1 h2))
  · exact hr.forCmds.trans ((congrArg (List.map Entry.forCmd) (hg.part .entries rfl)).trans hx.forCmds)

theorem answers_subtreeGone {s : State} {r others : Nat} {b : List Byte} (hq : Quiet s) (h : Accepted r 0x17 b s)
    (hp : nfield (cmdArg1 b) 5 0 < s.nPorts) : Answers (.subtreeGone r (.ok b) others) s fun t =>
      (∃ k, Completes r b stOk (k + others) s t) ∧ CmdsKept r s t ∧ ∀ eph k, s.ctx? eph = some k →
        k.ctx.inSubtree (nfield (cmdArg1 b) 5 0) (nfield (cmdArg0 b) 34 0) (nfield (cmdArg0 b) 37 35) = true → k.ctx.state ≠ 0 →
          t.ctxSt eph = some 5 := by
  refine answers_of_accepted rfl h (fun _ cv => execSubtreeGone_keeps r _ others (Keeps.refl s) cv) ?_
  obtain ⟨hents, hcmds⟩ := hq
  rw [if_neg (by rw [State.nPorts_taken]; exact Nat.not_le.2 hp)]
  simp only [State.cmdOf, State.taken_ctxs]
  generalize (s.ctxs.filter _).length = moved
  generalize nfield (cmdArg1 b) 5 0 = p, nfield (cmdArg0 b) 34 0 = route, nfield (cmdArg0 b) 37 35 = d
  have hgone (eph : Nat) (k : CtxSlot) : (s.taken r b).ctx? eph = some k → k.ctx.Leaves p route d →
      ((s.taken r b).subtreeGone p route d true).ctxSt eph = some 5 := subtreeGone_ctxSt
  obtain ⟨hring, hforCmd⟩ := subtreeGone_rest (s.taken r b) p route d
  have hk : Keeps (within [.out, .ctxs, .cmgr, .txns, .rings, .entries, .deal, .icu, .pool, .smp, .reg .SCH_CTXCNT, .reg .MOV_STS, .reg .ICU_ERR,
      .reg .GTH_CNT, .reg .GTH_DROP, .reg .CDR_EVT, .reg .CDR_FLG]) (s.taken r b) ((s.taken r b).subtreeGone p route d true) :=
    State.subtreeGone_keeps p route d true (Keeps.refl _) (covers_within (by decide))
  generalize (s.taken r b).subtreeGone p route d true = y at *
  have hyc : y.cmds = (s.taken r b).cmds := hk.part .cmds rfl
  obtain ⟨h1, h2⟩ := h.ring_ne
  have hrun : Running r b s y := (running_taken s r b).of_same hyc (by rw [hring r h1 h2])
  obtain ⟨hdone, hkept⟩ := hrun.cmdDone (st := stOk) (res := moved + others) (.inl (by simp [h.op]))
  have hremove : NoRemoval y := fun c hc => NoRemoval.taken (s := s) hcmds r (by simp [h.op]) c (hyc ▸ hc)
  have hown : ∀ e ∈ y.entries, e.forCmd = none := forCmd_none_of_map hforCmd (by rwa [State.taken_entries])
  rw [settled_cmdDone hown hremove]
  refine ⟨⟨moved, hdone⟩, hkept, fun eph k hk hin hst => ?_⟩
  exact hgone eph k ((State.ctxOpt_taken s r b eph).trans hk) ⟨hin, hst⟩

end Sys2Proof.Machine
end

section
/-! XCVR_READ, PORT_RATE and APPLY_ADVICE (R30, R109, R112, R197). -/

namespace Sys2Proof.Machine

theorem State.fgetN_eq_of_regs {s t : State} (h : t.regs = s.regs) (g : Fld) (i : Nat) : t.fgetN g i = s.fgetN g i := by
  simp only [State.fgetN, State.rd, h]

theorem State.idbSelect_regs (s : State) (n : Nat) : (s.idbSelect n).regs = s.regs := by
  unfold State.idbSelect
  split <;> rfl

/-! ### XCVR_READ (R112) -/

/-- The read of a page starts: the cage's channel is selected, and the bus reads. -/
theorem pageRead_out (s : State) (n page : Nat) : ((s.idbSelect n).idbRead n page 0 256).out =
    s.out ++ (if s.idbReleased (n / 16) then [] else
      [.idbWrite (n / 16) 0x70 [BitVec.ofNat 8 (0x10 + n % 16)], .idbRead (n / 16) (0x50 + page) 0 256]) := by
  have hports : (s.idbSelect n).nPorts = s.nPorts := State.fgetN_eq_of_regs (s.idbSelect_regs n) _ _
  have h : (s.idbSelect n).idbReleased (n / 16) = s.idbReleased (n / 16) := by simp only [State.idbReleased, hports]
  cases hr : s.idbReleased (n / 16)
  case true =>
    have hsel : s.idbSelect n = s := by simp [State.idbSelect, hr]
    simp [hsel, State.idbRead, hr]
  case false =>
    have hsel : s.idbSelect n = s.emit (.idbWrite (n / 16) 0x70 [BitVec.ofNat 8 (0x10 + n % 16)]) := by simp [State.idbSelect, hr]
    rw [hsel] at h ⊢
    simp [State.idbRead, h, hr]

theorem answers_xcvrRead {s : State} {r n : Nat} {b : List Byte} (h : Accepted r 0x21 b s) (hn : n = nfield (cmdArg0 b) 5 0)
    (hp : n < s.nPorts) (hc : field (s.port (.root n)).cfg 4 4 = 1) (hx : s.flagN .PRT_STS_XCVR_PRESENT n = true) :
    Answers (.xcvrRead r (.ok b)) s fun t =>
      InProgress r b s t ∧ CmdsKept r s t ∧ t.port (.root n) = { s.port (.root n) with xcvrRead := some (nfield (cmdArg0 b) 8 8) } ∧
        OnlyPort (.root n) s t ∧
      t.out = s.out ++ (if s.idbReleased (n / 16) then [] else
        [.idbWrite (n / 16) 0x70 [BitVec.ofNat 8 (0x10 + n % 16)], .idbRead (n / 16) (0x50 + nfield (cmdArg0 b) 8 8) 0 256]) := by
  refine answers_of_accepted rfl h (fun _ cv => execXcvrRead_keeps r _ (Keeps.refl s) cv) ?_
  have hx : (s.taken r b).flagN .PRT_STS_XCVR_PRESENT n = true := by
    simpa only [State.flagN, s.fgetN_taken r b (g := .PRT_STS_XCVR_PRESENT) rfl] using hx
  have hrel : (s.taken r b).idbReleased (n / 16) = s.idbReleased (n / 16) := by simp [State.idbReleased]
  simp only [State.cmdOf, State.nPorts_taken, State.port_taken, ← hn, hc, hx, Nat.not_le.2 hp, Nat.one_ne_zero, Bool.true_eq_false, if_false]
  generalize hpage : nfield (cmdArg0 b) 8 8 = page
  let x := (s.taken r b).onPort (.root n) fun q => { q with xcvrRead := some page }
  let y := (x.idbSelect n).idbRead n page 0 256
  have hk : Keeps (within [.out]) x y :=
    State.idbRead_keeps n page 0 256 (State.idbSelect_keeps n (Keeps.refl x) (covers_within (by decide))) (covers_within (by decide))
  have hy : Running r b s y := ((running_taken s r b).of_same (y := x) rfl rfl).of_keeps hk rfl rfl
  obtain ⟨hprog, hkept⟩ := hy.onCmd (f := fun c => { c with stage := 1, arg := n }) fun c h1 h2 h3 h4 h5 => ⟨h1, h2, h3, h4, h5⟩
  have hports (q : PortId) : y.port q = x.port q := by
    have e : y.ports = x.ports := hk.part .ports rfl
    simp only [State.port, e]
  refine ⟨hprog, hkept, ?_, fun q hq => ?_, ?_⟩
  · exact (hports _).trans (((s.taken r b).port_onPort_same _ _).trans (by rw [State.port_taken]))
  · exact (hports q).trans (((s.taken r b).port_onPort_other _ hq).trans (State.port_taken s r b q))
  · rw [← hrel, ← s.taken_out r b]
    exact pageRead_out x n page

/-! ### PORT_RATE (R108, R109, R197) -/

/-- A port without a change in progress: PORT_RATE completes where the rate is in use, and asks for the change otherwise. -/
theorem portRate_idle {s : State} {c : CmdRec} {n : Nat} (hn : n = nfield (cmdArg0 c.bytes) 5 0) (hc : (s.port (.root n)).rateChg = none) :
    s.portRate c =
      if s.portState (.root n) = 4 ∧ (s.link (.port (.root n))).rate = nfield (cmdArg0 c.bytes) 8 8 then
        (s.overtake 0 n).cmdDone c.ring c.idx stOk s.frameNo
      else ((s.overtake 0 n).onCmd c.ring c.idx fun x => { x with stage := 1, arg := (PortId.root n).code }).rateRequest n
        (nfield (cmdArg0 c.bytes) 8 8) false := by
  subst hn
  simp only [State.portRate, hc]
  rfl

theorem answers_portRate_same {s : State} {r n : Nat} {b : List Byte} (h : Accepted r 0x22 b s) (hn : n = nfield (cmdArg0 b) 5 0)
    (hp : n < s.nPorts) (hc : (s.port (.root n)).rateChg = none) (hst : s.portState (.root n) = 4)
    (hr : (s.link (.port (.root n))).rate = nfield (cmdArg0 b) 8 8) : Answers (.portRate r (.ok b)) s fun t =>
      Completes r b stOk s.frameNo s t ∧ CmdsKept r s t ∧ t.ports = s.ports ∧ OnlyFields engineFields s t := by
  refine answers_of_accepted rfl h (fun _ cv => execPortRate_keeps r _ (Keeps.refl s) cv) ?_
  rw [if_neg (by rw [State.nPorts_taken]; exact hn ▸ Nat.not_le.2 hp), portRate_idle hn (by rwa [State.port_taken]),
    if_pos ⟨by rwa [State.portState_taken], by rwa [State.link_taken]⟩, State.frameNo_taken]
  have hx : Running r b s ((s.taken r b).overtake 0 n) := (running_taken s r b).of_same rfl rfl
  obtain ⟨hdone, hkept⟩ := hx.cmdDone (st := stOk) (res := s.frameNo) (.inl (by simp [h.op]))
  exact ⟨hdone, hkept, s.taken_ports r b, (taken_onlyFields s r b).of_regs rfl⟩

/-- A root port reports RATE5 itself, so the peer's CAPS decide. -/
theorem bothRate5_root {s : State} {n : Nat} (h : s.flagN .PRT_STS_PEER_RATE5 n = true) : s.bothRate5 (.root n) = true := by
  have hcaps : s.capsOf (.port (.root n)) % 2 = 1 := by
    unfold State.capsOf
    dsimp only
    omega
  simp [State.bothRate5, hcaps, PortId.code, h]

/-- A change to Rate 5 on a port that both ends report it for, and whose transceiver is rated, is accepted. -/
theorem rateRequest_rate5 {s : State} {n : Nat} (hb : s.sched.batch = none) (hst : s.portState (.root n) = 4)
    (hu : s.unrated (.root n) = false) (h5 : s.flagN .PRT_STS_PEER_RATE5 n = true) :
    s.rateRequest n 1 false = s.onPort (.root n) fun x => { x with
      rateChg := some ⟨1, (s.frameNo + 2) % 2 ^ 32, false, false, false, false, false⟩ } := by
  have hl : s.linked (.root n) = true := by simp [State.linked, hst, State.hasLink]
  simp [State.rateRequest, hb, State.rateAccept, hl, hu, bothRate5_root h5]

theorem answers_portRate_change {s : State} {r n : Nat} {b : List Byte} (h : Accepted r 0x22 b s) (hn : n = nfield (cmdArg0 b) 5 0)
    (hp : n < s.nPorts) (hc : (s.port (.root n)).rateChg = none) (hst : s.portState (.root n) = 4) (hto : nfield (cmdArg0 b) 8 8 = 1)
    (hr : (s.link (.port (.root n))).rate = 0) (hu : s.unrated (.root n) = false) (h5 : s.flagN .PRT_STS_PEER_RATE5 n = true)
    (hb : s.sched.batch = none) : Answers (.portRate r (.ok b)) s fun t =>
      InProgress r b s t ∧
      t.port (.root n) = { s.port (.root n) with rateChg := some ⟨1, (s.frameNo + 2) % 2 ^ 32, false, false, false, false, false⟩ } ∧
      OnlyPort (.root n) s t ∧ OnlyFields engineFields s t := by
  refine answers_of_accepted rfl h (fun _ cv => execPortRate_keeps r _ (Keeps.refl s) cv) ?_
  obtain ⟨x, hx⟩ : ∃ x, x = ((s.taken r b).overtake 0 n).onCmd r (s.ring r).head fun c =>
    { c with stage := 1, arg := (PortId.root n).code } := ⟨_, rfl⟩
  have hk : Keeps (within [.rings, .mov, .reg .MOV_STS, .cmds, .pol]) s x :=
    hx ▸ State.onCmd_keeps _ _ _ (State.overtake_keeps 0 n ((taken_keeps s r b).mono (by decide)) (covers_within (by decide)))
      (covers_within (by decide))
  have hports : x.ports = s.ports := hk.part .ports rfl
  have hsched : x.sched = s.sched := hk.part .sched rfl
  have htim : x.tim = s.tim := hk.part .tim rfl
  have hf : x.frameNo = s.frameNo := congrArg TimeBase.frameNo htim
  have e : x.rateRequest n 1 false = x.onPort (.root n) fun q => { q with
      rateChg := some ⟨1, (s.frameNo + 2) % 2 ^ 32, false, false, false, false, false⟩ } := by
    rw [← hf]
    refine rateRequest_rate5 (by rw [hsched, hb]) ((hk.fgetN (g := .PRT_STS_STATE) rfl _).trans hst) ?_ ?_
    · simpa only [State.unrated, State.port, State.flagN, hports, hk.fgetN (g := .PRT_STS_XCVR_RATED) rfl] using hu
    · simpa only [State.flagN, hk.fgetN (g := .PRT_STS_PEER_RATE5) rfl] using h5
  rw [if_neg (by rw [State.nPorts_taken]; exact hn ▸ Nat.not_le.2 hp), portRate_idle hn (by rwa [State.port_taken]),
    if_neg (by rw [State.link_taken, hr]; simp [State.cmdOf, hto])]
  have hto' : nfield (cmdArg0 (s.cmdOf r b).bytes) 8 8 = 1 := hto
  rw [hto', show (s.cmdOf r b).ring = r from rfl, show (s.cmdOf r b).idx = (s.ring r).head from rfl, ← hx, e]
  have hrun : Running r b s x := hx ▸ ((running_taken s r b).of_same (y := (s.taken r b).overtake 0 n) rfl rfl).onCmd
    fun c h1 h2 h3 h4 h5 => ⟨h1, h2, h3, h4, h5⟩
  obtain ⟨hprog, -⟩ := hrun.of_same (y := x.onPort (.root n) _) rfl rfl
  have hport (q : PortId) : x.port q = s.port q := by simp only [State.port, hports]
  have hfields : OnlyFields engineFields s x := hx ▸ (taken_onlyFields s r b).of_regs rfl
  exact ⟨hprog, (x.port_onPort_same _ _).trans (by rw [hport]), fun q hq => (x.port_onPort_other _ hq).trans (hport q),
    hfields.of_regs rfl⟩

/-! ### APPLY_ADVICE (R30, R197) -/

/-- Advice of the SHARE policy that no later state has overtaken is carried out. -/
theorem applyAdvice_share {s : State} {a : Advice} (c : CmdRec) (t : Nat) (hp : a.policy = 1) (ho : a.object + 1 = s.pol.share) :
    s.applyAdvice c a t = (s.shareSet a.object).cmdDone c.ring c.idx stOk 0 := by
  simp [State.applyAdvice, hp, ho]

theorem answers_applyAdvice_share {s : State} {r t : Nat} {b : List Byte} {a : Advice} (h : Accepted r 0x23 b s)
    (ha : (s.pol.advice.find? fun a => a.id == cmdArg0 b % 65536) = some a) (hp : a.policy = 1) (ho : a.object + 1 = s.pol.share) :
    Answers (.applyAdvice r (.ok b) t) s fun t' => Completes r b stOk 0 s t' ∧ CmdsKept r s t' ∧ t'.pol.share = a.object ∧
      OnlyFields engineFields s t' := by
  refine answers_of_accepted rfl (accepted_at_ (u := t) h) (fun _ cv => execApplyAdvice_keeps r _ t (Keeps.refl s) cv) ?_
  have ha' : (((s.at_ t).taken r b).pol.advice.find? fun a => a.id == cmdArg0 b % 65536) = some a := by rwa [State.taken_pol]
  have ho' : a.object + 1 = ((s.at_ t).taken r b).pol.share := by rwa [State.taken_pol]
  simp only [State.cmdOf, ha']
  obtain ⟨x, hx⟩ : ∃ x, x = ((s.at_ t).taken r b).onPol fun p => { p with
    advice := p.advice.filter fun o => o.id != cmdArg0 b % 65536 } := ⟨_, rfl⟩
  have hrun : Running r b (s.at_ t) x := hx ▸ (running_taken (s.at_ t) r b).of_same rfl rfl
  have hfields : OnlyFields engineFields (s.at_ t) x := hx ▸ (taken_onlyFields (s.at_ t) r b).of_regs rfl
  have hshare : a.object + 1 = x.pol.share := hx ▸ ho'
  rw [← hx, applyAdvice_share _ t hp hshare]
  obtain ⟨hdone, hkept⟩ := (hrun.of_same (y := x.shareSet a.object) rfl rfl).cmdDone (st := stOk) (.inr rfl)
  exact ⟨hdone, hkept, rfl, hfields.of_regs rfl⟩

theorem answers_applyAdvice_gone {s : State} {r t : Nat} {b : List Byte} (h : Accepted r 0x23 b s)
    (ha : (s.pol.advice.find? fun a => a.id == cmdArg0 b % 65536) = none) : Answers (.applyAdvice r (.ok b) t) s fun t' =>
      Completes r b (if cmdArg0 b % 65536 < s.pol.nextAdvice then stCancelled else stBounds) 0 s t' ∧ CmdsKept r s t' ∧ t'.pol = s.pol ∧
        OnlyFields engineFields s t' := by
  refine answers_of_accepted rfl (accepted_at_ (u := t) h) (fun _ cv => execApplyAdvice_keeps r _ t (Keeps.refl s) cv) ?_
  have ha' : (((s.at_ t).taken r b).pol.advice.find? fun a => a.id == cmdArg0 b % 65536) = none := by rwa [State.taken_pol]
  have hn' : ((s.at_ t).taken r b).pol.nextAdvice = s.pol.nextAdvice := by rw [State.taken_pol]; rfl
  simp only [State.cmdOf, ha', hn']
  obtain ⟨hdone, hkept⟩ := (running_taken (s.at_ t) r b).cmdDone
    (st := if cmdArg0 b % 65536 < s.pol.nextAdvice then stCancelled else stBounds) (.inr rfl)
  exact ⟨hdone, hkept, State.taken_pol (s.at_ t) r b, (taken_onlyFields (s.at_ t) r b).of_regs rfl⟩

end Sys2Proof.Machine
end

section
/-! ENUMERATE (R146, Table 4.14): the controller's own control transfer stays open, and from that O24. -/

namespace Sys2Proof.Machine

/-! ### A control transfer of the controller's own starts -/

/-- The entry of a control transfer for a command. -/
def State.controlEntry (s : State) (eph : Nat) (setup data : List Byte) (cmd : Nat × Nat) : Entry :=
  { id := s.deal.nextId, slice := (match s.ctx? eph with | some k => k.ctx.owner | none => 0), ring := State.noRing, tds := [],
    bell := s.deal.bellSeq, needCtx := false, hostFail := false, isEntry := true, forCmd := some cmd, eph := eph, kind := 1, flow := 0,
    len := 8 + setupLen setup, st := .waiting, waitMet := false, counted := false, delay := none, nakRun := 0, nyFrom := none, spilled := false,
    started := false, data := data, moved := 0, stage := 0, setup := setup, ts := none, qc := 0, more := false, late := false, done := none,
    hostOut := 0, step1 := false }

/-- The state in which readiness is judged for it. -/
def State.withControl (s : State) (eph : Nat) (setup data : List Byte) (cmd : Nat × Nat) : State :=
  { s with entries := s.entries ++ [s.controlEntry eph setup data cmd] }.onDeal fun d => { d with nextId := d.nextId + 1 }

theorem startControl_eq (s : State) (eph : Nat) (setup data : List Byte) (cmd : Nat × Nat) :
    s.startControl eph setup data cmd = (s.withControl eph setup data cmd).refresh 0 := rfl

section
variable {s : State} {eph : Nat} {setup data : List Byte} {cmd : Nat × Nat} {k : CtxSlot}

/-- On a RUNNING context that passed its check, with its number not in use, the transfer is open after readiness was judged. -/
theorem startControl_steady (hid : ∀ e ∈ s.entries, e.id ≠ s.deal.nextId) (hk : s.ctx? eph = some k) (hb : k.bad = false)
    (hst : k.ctx.state = 2) : Steady (some s.deal.nextId) (s.withControl eph setup data cmd) (s.startControl eph setup data cmd) := by
  rw [startControl_eq]
  refine refresh_steady 0 fun e he hn => ?_
  rcases List.mem_append.1 he with he | he
  · exact absurd (Option.some.inj hn).symm (hid e he)
  · obtain rfl := List.mem_singleton.1 he
    exact ⟨rfl, k, hk, hb, hst⟩

theorem startControl_entry (h : Steady (some s.deal.nextId) (s.withControl eph setup data cmd) (s.startControl eph setup data cmd)) :
    ∃ e ∈ (s.startControl eph setup data cmd).entries, e.id = s.deal.nextId ∧ e.forCmd = some cmd ∧ e.eph = eph ∧ e.setup = setup ∧
      e.done = none := by
  have hm : (s.controlEntry eph setup data cmd).face (some s.deal.nextId) ∈
      (s.startControl eph setup data cmd).entries.map (Entry.face (some s.deal.nextId)) :=
    h.entries ▸ List.mem_map_of_mem (List.mem_append_right _ List.mem_cons_self)
  obtain ⟨e, he, hface⟩ := List.mem_map.1 hm
  simp only [Entry.face, State.controlEntry, Prod.mk.injEq] at hface
  obtain ⟨hid, hcmd, heph, hsetup, -, hdone⟩ := hface
  exact ⟨e, he, hid, hcmd, heph, hsetup, by simpa [hid] using hdone⟩

/-- Where no entry was the controller's, its own is the new one, which is open. -/
theorem startControl_open (h : Steady (some s.deal.nextId) (s.withControl eph setup data cmd) (s.startControl eph setup data cmd))
    (hq : ∀ e ∈ s.entries, e.forCmd = none) : ∀ e ∈ (s.startControl eph setup data cmd).entries, e.forCmd.isSome → e.done = none := by
  intro e he hf
  obtain ⟨e0, he0, hface⟩ := List.mem_map.1 (h.entries ▸ List.mem_map_of_mem he :
    e.face (some s.deal.nextId) ∈ (s.withControl eph setup data cmd).entries.map (Entry.face (some s.deal.nextId)))
  simp only [Entry.face, Prod.mk.injEq] at hface
  obtain ⟨hid, hcmd, -, -, -, hdone⟩ := hface
  rcases List.mem_append.1 he0 with he0 | he0
  · rw [← hcmd, hq e0 he0] at hf
    cases hf
  · obtain rfl := List.mem_singleton.1 he0
    have h0 : s.deal.nextId = e.id := hid
    simpa [State.controlEntry, h0] using hdone

/-- The command that started the transfer stays in progress. -/
theorem startControl_running {s₀ : State} {r : Nat} {b : List Byte}
    (h : Steady (some s.deal.nextId) (s.withControl eph setup data cmd) (s.startControl eph setup data cmd)) (hrun : Running r b s₀ s) (h1 : r ≠ 1)
    (h2 : r ≠ 2) : Running r b s₀ (s.startControl eph setup data cmd) := by
  have hk : Keeps (within [.out, .ctxs, .cmgr, .txns, .rings, .entries, .deal, .icu, .pool, .reg .SCH_CTXCNT, .reg .MOV_STS, .reg .ICU_ERR]) s
      (s.startControl eph setup data cmd) := State.startControl_keeps eph setup data cmd (Keeps.refl s) (covers_within (by decide))
  exact hrun.of_same (hk.part .cmds rfl) (congrArg Ring.head (h.ring r h1 h2))

/-- Nothing else goes on. -/
theorem startControl_settled (h : Steady (some s.deal.nextId) (s.withControl eph setup data cmd) (s.startControl eph setup data cmd))
    (hq : ∀ e ∈ s.entries, e.forCmd = none) (hc : NoRemoval s) :
    (s.startControl eph setup data cmd).settled = s.startControl eph setup data cmd := by
  have hk : Keeps (within [.out, .ctxs, .cmgr, .txns, .rings, .entries, .deal, .icu, .pool, .reg .SCH_CTXCNT, .reg .MOV_STS, .reg .ICU_ERR]) s
      (s.startControl eph setup data cmd) := State.startControl_keeps eph setup data cmd (Keeps.refl s) (covers_within (by decide))
  have hcmds : (s.startControl eph setup data cmd).cmds = s.cmds := hk.part .cmds rfl
  exact settled_of_quiet (startControl_open h hq) fun c hm => hc c (hcmds ▸ hm)

end

/-! ### ENUMERATE starts with the identity record (R146, Table 4.14) -/

theorem ctxGet_cached {s : State} {eph : Nat} (h : CtxHost) (hc : (s.ctx? eph).isSome) : s.ctxGet h eph = (s.ctxTouch eph, stOk) := if_pos hc

theorem ctxTouch_steady {kept : Option Nat} (s : State) (eph : Nat) : Steady kept s (s.ctxTouch eph) := by
  have hl : Steady kept s (s.onCtx eph fun k => { k with lru := s.cmgr.clock }) := by
    refine onCtx_steady s eph ?_
    exact fun _ => rfl
  exact hl.trans (Steady.of_eq rfl rfl rfl)

theorem Ctx.state_of_key1 (c : Ctx) (key keyn : Nat) : ({ c with key1 := key, key1n := keyn } : Ctx).state = c.state := rfl

/-- The default context takes the route of the device. -/
def CtxSlot.withRoute (route : Nat) (k : CtxSlot) : CtxSlot :=
  let key := nset (nset k.ctx.key1 34 0 route) 37 35 (routeTier route)
  { k with ctx := { k.ctx with key1 := key, key1n := 2 ^ 64 - 1 - key }, dirty := true }

theorem CtxSlot.withRoute_route {route : Nat} (k : CtxSlot) (h : route < 2 ^ 35) : (k.withRoute route).ctx.route = route := by
  have hlow (w : Nat) : nfield w 34 0 = w % 2 ^ 35 := by rw [nfield, Nat.pow_zero, Nat.div_one]
  have hset := nfield_nset k.ctx.key1 34 0 route
  rw [hlow] at hset
  simp only [CtxSlot.withRoute, Ctx.route, hlow, nset_mod, hset]
  exact Nat.mod_eq_of_lt h

/-- The first stage reads the identity record over the default context. -/
theorem enumStage_identity {s : State} {c : CmdRec} {eph : Nat} (he : eph = Eph.mk (nfield (cmdArg0 c.bytes) 5 0) 0 0 0) (hc : (s.ctx? eph).isSome) :
    s.enumStage c 0 =
      (s.onCmd c.ring c.idx fun c => { c with stage := 0 }).startControl eph (setupBytes 0x06 true 0 0 256) [] (c.ring, c.idx) := by
  subst he
  refine if_neg ?_
  rw [Option.isNone_iff_eq_none, ← Option.not_isSome_iff_eq_none]
  exact not_not_intro hc

/-- The default context is ready for the first stage: both contexts are used, and the default one has the route. -/
def State.enumReady (s : State) (eph ephA route : Nat) : State := ((s.ctxTouch eph).ctxTouch ephA).onCtx eph (CtxSlot.withRoute route)

theorem enumReady_keeps (s : State) (eph ephA route : Nat) : Keeps (within [.ctxs, .cmgr]) s (s.enumReady eph ephA route) := by
  have h1 : Keeps (within [.ctxs, .cmgr]) s (s.ctxTouch eph) := State.ctxTouch_keeps eph (Keeps.refl s) (covers_within (by decide))
  have h2 := State.ctxTouch_keeps ephA h1 (covers_within (by decide))
  exact State.onCtx_keeps eph _ h2 (covers_within (by decide))

/-- The default context keeps its state and passes its check as before. -/
theorem enumReady_ctx {s : State} {eph route : Nat} {k : CtxSlot} (ephA : Nat) (hk : s.ctx? eph = some k) (hr : route < 2 ^ 35) :
    ∃ k', (s.enumReady eph ephA route).ctx? eph = some k' ∧ k'.ctx.route = route ∧ k'.bad = k.bad ∧ k'.ctx.state = k.ctx.state := by
  have ht : Steady none s ((s.ctxTouch eph).ctxTouch ephA) := (ctxTouch_steady s eph).trans (ctxTouch_steady _ ephA)
  obtain ⟨k1, hk1, hface⟩ := ht.find hk
  refine ⟨k1.withRoute route, ?_, k1.withRoute_route hr, congrArg Prod.snd hface,
    (k1.ctx.state_of_key1 _ _).trans (CtxSlot.state_of_face hface)⟩
  rw [State.enumReady, ctxOpt_onCtx, if_pos rfl, hk1]
  rfl

/-- A command whose default context is ready opens the transfer of its first stage. -/
theorem enumStage_opens {s x : State} {r eph : Nat} {b : List Byte} {c : CmdRec} {k : CtxSlot} (hrun : Running r b s x) (hrem : NoRemoval x)
    (hq : ∀ e ∈ x.entries, e.forCmd = none) (hid : ∀ e ∈ x.entries, e.id ≠ x.deal.nextId) (hring : r ≠ 1 ∧ r ≠ 2) (hop : cmdOp b ≠ 0x11)
    (hc : c.ring = r ∧ c.idx = (s.ring r).head ∧ c.op = cmdOp b ∧ c.bytes = b ∧ c.status = none)
    (he : eph = Eph.mk (nfield (cmdArg0 b) 5 0) 0 0 0) (hk : x.ctx? eph = some k) (hb : k.bad = false) (hst : k.ctx.state = 2) :
    ∃ t, ((x.onCmd r (s.ring r).head fun _ => c).enumStage c 0).settled = t ∧ Running r b s t ∧
      (t.ctx? eph).map CtxSlot.face = some k.face ∧ ∃ e ∈ t.entries, e.id = x.deal.nextId ∧ e.forCmd = some (r, (s.ring r).head) ∧ e.eph = eph ∧
        e.setup = setupBytes 0x06 true 0 0 256 ∧ e.done = none := by
  obtain ⟨hcr, hci, hcop, hcb, hcs⟩ := hc
  obtain ⟨y, hy⟩ : ∃ y, y = x.onCmd r (s.ring r).head fun _ => c := ⟨_, rfl⟩
  obtain ⟨w, hw⟩ : ∃ w, w = y.onCmd r (s.ring r).head fun c => { c with stage := 0 } := ⟨_, rfl⟩
  have hruny : Running r b s y := by
    rw [hy]
    exact hrun.onCmd (f := fun _ => c) fun _ _ _ _ _ _ => ⟨hcr, hci, hcop, hcb, hcs⟩
  have hrunw : Running r b s w := by
    rw [hw]
    exact hruny.onCmd (f := fun c => { c with stage := 0 }) fun c h1 h2 h3 h4 h5 => ⟨h1, h2, h3, h4, h5⟩
  have hremw : NoRemoval w := by
    rw [hw, hy]
    exact (hrem.onCmd r _ (f := fun _ => c) fun _ h => absurd (hcop.symm.trans h) hop).onCmd r _ (f := fun c => { c with stage := 0 })
      fun _ _ h => absurd h (by decide : (0 : Nat) ≠ 1)
  have hents : w.entries = x.entries := by rw [hw, hy]; rfl
  have hdeal : w.deal = x.deal := by rw [hw, hy]; rfl
  have hctx : w.ctx? eph = some k := by rw [hw, hy]; exact hk
  have hyk : (y.ctx? eph).isSome := by
    rw [show y.ctx? eph = some k by rw [hy]; exact hk]
    rfl
  have hstart : y.enumStage c 0 = w.startControl eph (setupBytes 0x06 true 0 0 256) [] (r, (s.ring r).head) := by
    rw [enumStage_identity (hcb.symm ▸ he) hyk, hcr, hci, hw]
  rw [← hents, ← hdeal] at hid
  rw [← hents] at hq
  have hsteady := startControl_steady (setup := setupBytes 0x06 true 0 0 256) (data := []) (cmd := (r, (s.ring r).head)) hid hctx hb hst
  have hwith (d : List Byte) : (w.withControl eph d [] (r, (s.ring r).head)).ctx? eph = some k := hctx
  refine ⟨_, rfl, ?_⟩
  rw [← hy, hstart, startControl_settled hsteady hq hremw, ← hdeal]
  refine ⟨startControl_running hsteady hrunw hring.1 hring.2, ?_, startControl_entry hsteady⟩
  rw [hsteady.ctx, hwith, Option.map_some]

theorem answers_enumerate {s : State} {r eph : Nat} {b : List Byte} {h : CtxHost} {eps : List EnumEp} {k ka : CtxSlot} (hq : Quiet s)
    (hid : ∀ e ∈ s.entries, e.id ≠ s.deal.nextId) (ha : Accepted r 0x20 b s) (hp : nfield (cmdArg0 b) 5 0 < s.nPorts)
    (hadr : nfield (cmdArg1 b) 11 0 ≠ 4095) (he : eph = Eph.mk (nfield (cmdArg0 b) 5 0) 0 0 0) (hk : s.ctx? eph = some k) (hb : k.bad = false)
    (hst : k.ctx.state = 2) (hka : s.ctx? (Eph.mk (nfield (cmdArg0 b) 5 0) (nfield (cmdArg1 b) 11 0) 0 0) = some ka) :
    Answers (.enumerate r (.ok b) h eps) s fun t =>
      InProgress r b s t ∧ CmdsKept r s t ∧ (t.ctx? eph).map (fun k => k.ctx.route) = some (nfield (cmdArg0 b) 40 6) ∧
      ∃ e ∈ t.entries, e.id = s.deal.nextId ∧ e.forCmd = some (r, (s.ring r).head) ∧ e.eph = eph ∧ e.setup = setupBytes 0x06 true 0 0 256 ∧
        e.done = none := by
  obtain ⟨hents, hcmds⟩ := hq
  obtain ⟨ephA, hA⟩ : ∃ ephA, ephA = Eph.mk (nfield (cmdArg0 b) 5 0) (nfield (cmdArg1 b) 11 0) 0 0 := ⟨_, rfl⟩
  obtain ⟨route, hroute⟩ : ∃ route, route = nfield (cmdArg0 b) 40 6 := ⟨_, rfl⟩
  rw [← hA] at hka
  have hx : ((s.taken r b).ctx? eph).isSome := by rw [State.ctxOpt_taken, hk]; rfl
  have hxA : (((s.taken r b).ctxTouch eph).ctx? ephA).isSome := by
    obtain ⟨k', hk', -⟩ := (ctxTouch_steady (kept := none) (s.taken r b) eph).find ((State.ctxOpt_taken s r b ephA).trans hka)
    rw [hk']
    rfl
  let c1 := { s.cmdOf r b with host := h, eps := eps }
  refine answers_of_meaning (y := (((((s.taken r b).enumReady eph ephA route).onCmd r (s.ring r).head fun _ => c1).enumStage c1 0).settled)) rfl ha
    (fun _ cv => execEnumerate_keeps r _ h eps (Keeps.refl s) cv) ?_ ?_
  case refine_1 =>
    simp only [State.cmdOf, ← he, ← hA, ← hroute, State.nPorts_taken, Nat.not_le.2 hp, hadr, ctxGet_cached h hx, ctxGet_cached h hxA, if_false,
      ne_eq, not_true_eq_false]
    rfl
  obtain ⟨k', hk', hroute', hb', hst'⟩ := enumReady_ctx (s := s.taken r b) (k := k) ephA ((State.ctxOpt_taken s r b eph).trans hk)
    (hroute ▸ Nat.mod_lt _ (Nat.two_pow_pos 35) : route < 2 ^ 35)
  have hr := enumReady_keeps (s.taken r b) eph ephA route
  generalize (s.taken r b).enumReady eph ephA route = x at *
  have hxe : x.entries = s.entries := (hr.part .entries rfl).trans (State.taken_entries s r b)
  have hxd : x.deal = s.deal := (hr.part .deal rfl).trans (State.taken_deal s r b)
  have hrun : Running r b s x := (running_taken s r b).of_keeps hr rfl rfl
  have hremove : NoRemoval x := fun c hc => NoRemoval.taken (s := s) hcmds r (by simp [ha.op]) c (hr.part .cmds rfl ▸ hc)
  obtain ⟨t, ht, ⟨hprog, hkept⟩, hface, hent⟩ := enumStage_opens (c := c1) hrun hremove (by rwa [hxe]) (by rwa [hxe, hxd]) ha.ring_ne
    (by simp [ha.op]) ⟨rfl, rfl, rfl, rfl, rfl⟩ he hk' (hb'.trans hb) (hst'.trans hst)
  rw [ht, ← hxd]
  refine ⟨hprog, hkept, ?_, hent⟩
  obtain ⟨kt, hkt, hf⟩ := Option.map_eq_some_iff.1 hface
  rw [hkt, Option.map_some, CtxSlot.route_of_face hf, hroute', hroute]

/-- Settles O24: each port command of the ring, from what its meaning makes of the state in which the command is taken. -/
theorem portCommandsOfTheRingAct : Obligations.PortCommandsOfTheRingAct := by
  unfold Obligations.PortCommandsOfTheRingAct
  exact ⟨fun _ _ _ _ hq h hp => answers_subtreeGone hq h hp,
    fun _ _ _ _ _ _ _ _ hq hid h hp ha he hk hb hst _ hka => answers_enumerate hq hid h hp ha he hk hb hst hka,
    fun _ _ _ _ h hn hp hc hx => answers_xcvrRead h hn hp hc hx,
    fun _ _ _ _ h hn hp hc hst hr => answers_portRate_same h hn hp hc hst hr,
    fun _ _ _ _ h hn hp hc hst hto hr hu h5 hb => answers_portRate_change h hn hp hc hst hto hr hu h5 hb,
    fun _ _ _ _ _ h ha hp ho => answers_applyAdvice_share h ha hp ho,
    fun _ _ _ _ h ha => answers_applyAdvice_gone h ha⟩

end Sys2Proof.Machine
end

section
/-! The time base (chapter 02): what PPS_OUT, the row in use, corrections and phase marks write, and what they leave. -/

namespace Sys2Proof.Machine

/-! ### Fields and answers -/

/-- A command whose outcome has a law of what it keeps answers, with its reach as `parts` gives it. -/
theorem answers_of_exec {i : Instr} {s t : State} {Q : State → Prop} (e : exec i s = .next t)
    (k : ∀ P, Covers P (parts i) → KeepsO P s (exec i s)) (q : Q t) : Answers i s Q :=
  answers_of_keeps e (fun P cv => k P cv t e) q

/-- What is kept of the whole register file keeps every field. -/
theorem OnlyFields.of_keeps {l : List Part} {fs : List Fld} {s t u : State} (h : OnlyFields fs s t) (k : Keeps (within l) t u)
    (n : ∀ r, within l (.reg r) = false) : OnlyFields fs s u := fun g i a => (k.fgetN (n g.reg) i).trans (h g i a)

theorem OnlyFields.mono {l m : List Fld} {s t : State} (h : OnlyFields l s t) (i : l ⊆ m) : OnlyFields m s t :=
  fun g j a => h g j fun f hf => a f (i hf)

theorem OnlyFields.fset {l : List Fld} {s t : State} (h : OnlyFields l s t) {f : Fld} (m : f ∈ l) (v : Nat) : OnlyFields l s (t.fset f v) :=
  h.fsetN m 0 v

theorem OnlyFields.raise {l : List Fld} {s t : State} (h : OnlyFields l s t) {f : Fld} (m : f ∈ l) : OnlyFields l s (t.raise f) := h.fsetN m 0 1

theorem OnlyFields.fget {l : List Fld} {s t : State} (h : OnlyFields l s t) {g : Fld} (a : l.all (·.apart g) = true) : t.fget g = s.fget g :=
  h g 0 (List.all_eq_true.1 a)

theorem OnlyFields.flag {l : List Fld} {s t : State} (h : OnlyFields l s t) {g : Fld} (a : l.all (·.apart g) = true) : t.flag g = s.flag g :=
  congrArg (· != 0) (h.fget a)

theorem OnlyFields.ite {l : List Fld} {s t u : State} {c : Prop} [Decidable c] (ht : OnlyFields l s t) (hu : OnlyFields l s u) :
    OnlyFields l s (if c then t else u) := by
  split <;> assumption

theorem State.flag_fset_apart (s : State) (f g : Fld) (v : Nat) (a : f.apart g = true) : (s.fset f v).flag g = s.flag g :=
  congrArg (· != 0) (s.fget_fset_apart f g v a)

theorem State.flag_raise_apart (s : State) (f g : Fld) (a : f.apart g = true) : (s.raise f).flag g = s.flag g := s.flag_fset_apart f g 1 a

/-- A flag of one bit reads what was set. -/
theorem State.flag_fset_same (s : State) (f : Fld) (v : Nat) (ok : f.ok = true) (w : f.hi = f.lo) : (s.fset f v).flag f = (v % 2 != 0) := by
  rw [State.flag_eq_fget, s.fget_fset_same f v ok, w, Nat.add_sub_cancel_left, pow_one]

theorem State.flag_raise_same (s : State) (f : Fld) (ok : f.ok = true) (w : f.hi = f.lo) : (s.raise f).flag f = true := s.flag_fset_same f 1 ok w

/-! ### PPS_OUT (R52) -/

/-- The time base but for the pulse of PPS_OUT. -/
def TimeBase.offPps (b : TimeBase) : TimeBase := { b with ppsHighUntil := none }

theorem ppsFall_offPps (s : State) (t : Nat) : (s.ppsFall t).tim.offPps = s.tim.offPps := by
  unfold State.ppsFall
  split
  · split <;> rfl
  · rfl

theorem ppsRise_offPps (s : State) (t : Nat) : (s.ppsRise t).tim.offPps = s.tim.offPps := by
  unfold State.ppsRise
  split <;> rfl

theorem ppsOutHold_offPps (s : State) : s.ppsOutHold.tim.offPps = s.tim.offPps := by
  have h := ppsFall_offPps s s.tim.now
  unfold State.ppsOutHold
  dsimp only
  split <;> exact h

theorem ppsStep_offPps (s : State) (d : Int) : (s.ppsStep d).tim.offPps = s.tim.offPps := by
  have h := ppsFall_offPps s ((s.tim.now : Int) - d).toNat
  unfold State.ppsStep
  dsimp only
  split
  · exact (ppsRise_offPps _ _).trans h
  · exact h

/-- What PPS_OUT does leaves the registers. -/
theorem OnlyFields.of_pps {l : List Fld} {s t u : State} (h : OnlyFields l s t) (k : Keeps (within [.out, .tim]) t u) : OnlyFields l s u :=
  h.of_keeps k fun r => by simp [within]

theorem ppsOutHold_onlyFields (s : State) : OnlyFields [] s s.ppsOutHold :=
  (OnlyFields.refl [] s).of_pps (State.ppsOutHold_keeps (Keeps.refl s) (covers_within (by decide)))

theorem ppsStep_onlyFields (s : State) (d : Int) : OnlyFields [] s (s.ppsStep d) :=
  (OnlyFields.refl [] s).of_pps (State.ppsStep_keeps d (Keeps.refl s) (covers_within (by decide)))

/-! ### The row in use (R39, R40, R42) -/

/-- The inputs of Table 2.2 read alike, and a time input was ever valid in both or in neither. -/
theorem timeRow_congr {s t : State} (hc : t.tim.effCtl = s.tim.effCtl) (he : t.tim.everValid = s.tim.everValid)
    (hr : t.flag .TIM_STS_REF_OK = s.flag .TIM_STS_REF_OK) (hp : t.flag .TIM_STS_PPS_OK = s.flag .TIM_STS_PPS_OK)
    (hi : t.flag .TIM_STS_IRIG_OK = s.flag .TIM_STS_IRIG_OK) (hm : t.flag .TIM_STS_PTM_OK = s.flag .TIM_STS_PTM_OK) :
    t.timeRow = s.timeRow := by
  unfold State.timeRow State.refIn State.ctlBit
  rw [hc, he, hr, hp, hi, hm]

theorem timeRow_phaseSrc_lt (r : TimeRow) : r.phaseSrc < 4 := by cases r <;> decide

/-- PPS_IN is the phase source of a row with PPS_IN enabled and valid. -/
theorem phaseSrc_of_pps {s : State} (hc : s.ctlBit 3 = true) (hp : s.flag .TIM_STS_PPS_OK = true) : s.timeRow.phaseSrc = 1 := by
  unfold State.timeRow
  rw [hc, hp]
  cases s.refIn <;> rfl

/-- The row in use changed: it is not locked yet. -/
def State.rowChanged (s : State) : State :=
  if s.fget .TIM_STS_PHASE_SRC = s.timeRow.phaseSrc then s
  else s.onTim fun b => { b with locked := false, marksIn := 0, marksOut := 0, everValid := b.everValid || s.timeRow.phaseSrc != 0 }

/-- A lock while the time base has a label. -/
def State.lockNoted (s : State) : State :=
  if s.tim.locked && s.flag .TIM_STS_LABEL_VALID then s.onTim fun b => { b with everLocked := true } else s

/-- TIM_STS shows a phase source, the frequency source and holdover. -/
def State.rowShown (s : State) (p : Nat) : State :=
  ((s.fset .TIM_STS_PHASE_SRC p).fset .TIM_STS_FREQ_SRC s.freqSrc).fset .TIM_STS_HOLDOVER (bit (s.timeRow == .held))

/-- TIM_STS shows the class. -/
def State.classShown (s : State) : State :=
  if s.timeClass = s.qclass then s else (s.fset .TIM_STS_QCLASS s.timeClass).raise .TIM_EVT_QCLASS_CHANGED

theorem retune_eq (s : State) : s.retune = (s.rowChanged.lockNoted.rowShown s.timeRow.phaseSrc).classShown.ppsOutHold := rfl

/-- The time base but for what judging the row in use writes. -/
def TimeBase.unjudged (b : TimeBase) : TimeBase :=
  { b with locked := false, everLocked := false, marksIn := 0, marksOut := 0, everValid := false, ppsHighUntil := none }

theorem rowChanged_unjudged (s : State) : s.rowChanged.tim.unjudged = s.tim.unjudged := by
  unfold State.rowChanged
  split <;> rfl

theorem lockNoted_unjudged (s : State) : s.lockNoted.tim.unjudged = s.tim.unjudged := by
  unfold State.lockNoted
  split <;> rfl

theorem classShown_tim (s : State) : s.classShown.tim = s.tim := by
  unfold State.classShown
  split <;> rfl

theorem retune_unjudged (s : State) : s.retune.tim.unjudged = s.tim.unjudged := by
  rw [retune_eq]
  calc _ = (s.rowChanged.lockNoted.rowShown s.timeRow.phaseSrc).classShown.tim.unjudged :=
          (congrArg TimeBase.unjudged (ppsOutHold_offPps _) :)
    _ = s.rowChanged.lockNoted.tim.unjudged := congrArg TimeBase.unjudged (classShown_tim _)
    _ = s.tim.unjudged := (lockNoted_unjudged _).trans (rowChanged_unjudged s)

/-- The fields that judging the row in use writes. -/
def retuneFields : List Fld := [.TIM_STS_PHASE_SRC, .TIM_STS_FREQ_SRC, .TIM_STS_HOLDOVER, .TIM_STS_QCLASS, .TIM_EVT_QCLASS_CHANGED]

theorem rowChanged_regs (s : State) : s.rowChanged.regs = s.regs := by
  unfold State.rowChanged
  split <;> rfl

theorem lockNoted_regs (s : State) : s.lockNoted.regs = s.regs := by
  unfold State.lockNoted
  split <;> rfl

theorem rowShown_onlyFields (s : State) (p : Nat) :
    OnlyFields [.TIM_STS_PHASE_SRC, .TIM_STS_FREQ_SRC, .TIM_STS_HOLDOVER] s (s.rowShown p) :=
  (((OnlyFields.refl _ s).fset (by simp) _).fset (by simp) _).fset (by simp) _

theorem classShown_onlyFields (s : State) : OnlyFields [.TIM_STS_QCLASS, .TIM_EVT_QCLASS_CHANGED] s s.classShown :=
  OnlyFields.ite (OnlyFields.refl _ s) (((OnlyFields.refl _ s).fset (by simp) _).raise (by simp))

theorem retune_onlyFields (s : State) : OnlyFields retuneFields s s.retune := by
  have h1 : OnlyFields retuneFields s s.rowChanged.lockNoted :=
    (OnlyFields.refl _ s).of_regs ((lockNoted_regs _).trans (rowChanged_regs s))
  have h2 := h1.trans ((rowShown_onlyFields s.rowChanged.lockNoted s.timeRow.phaseSrc).mono (by simp [retuneFields]))
  have h3 := h2.trans ((classShown_onlyFields _).mono (by simp [retuneFields]))
  exact h3.trans ((ppsOutHold_onlyFields _).mono (by simp))

/-- A row with a phase source does not ask whether an input was ever valid. -/
theorem timeRow_everValid (s : State) {f : TimeBase → TimeBase} (hc : (f s.tim).effCtl = s.tim.effCtl)
    (he : (f s.tim).everValid = (s.tim.everValid || s.timeRow.phaseSrc != 0)) : (s.onTim f).timeRow = s.timeRow := by
  have hrow : (s.onTim f).timeRow = { s with tim := { s.tim with everValid := s.tim.everValid || s.timeRow.phaseSrc != 0 } }.timeRow :=
    timeRow_congr hc he rfl rfl rfl rfl
  rw [hrow]
  generalize hr : s.timeRow = r
  unfold State.timeRow at hr ⊢
  change (if s.ctlBit 3 && s.flag .TIM_STS_PPS_OK then (if s.refIn then TimeRow.refPps else .pps)
    else if s.ctlBit 4 && s.flag .TIM_STS_IRIG_OK then .irig
    else if s.ctlBit 5 && s.flag .TIM_STS_PTM_OK then .ptm
    else if s.tim.everValid || r.phaseSrc != 0 then .held
    else .never) = r
  subst hr
  split
  · rfl
  · split
    · rfl
    · split
      · rfl
      · split <;> simp_all [TimeRow.phaseSrc]

theorem rowChanged_timeRow (s : State) : s.rowChanged.timeRow = s.timeRow := by
  unfold State.rowChanged
  split
  · rfl
  · exact timeRow_everValid s rfl rfl

theorem lockNoted_timeRow (s : State) : s.lockNoted.timeRow = s.timeRow := by
  unfold State.lockNoted
  split
  · exact timeRow_congr rfl rfl rfl rfl rfl rfl
  · rfl

/-- What writes none of the inputs of Table 2.2 leaves the row in use. -/
theorem timeRow_of_onlyFields {l : List Fld} {s t : State} (h : OnlyFields l s t) (hc : t.tim.effCtl = s.tim.effCtl)
    (he : t.tim.everValid = s.tim.everValid)
    (a : [Fld.TIM_STS_REF_OK, .TIM_STS_PPS_OK, .TIM_STS_IRIG_OK, .TIM_STS_PTM_OK].all (fun g => l.all (·.apart g)) = true) :
    t.timeRow = s.timeRow := by
  simp only [List.all_cons, List.all_nil, Bool.and_eq_true, Bool.and_true] at a
  obtain ⟨hr, hp, hi, hm⟩ := a
  exact timeRow_congr hc he (h.flag hr) (h.flag hp) (h.flag hi) (h.flag hm)

/-- What shows the class of a row shows nothing else. -/
theorem classShown_ppsOutHold_onlyFields (s : State) : OnlyFields [.TIM_STS_QCLASS, .TIM_EVT_QCLASS_CHANGED] s s.classShown.ppsOutHold :=
  (classShown_onlyFields s).trans ((ppsOutHold_onlyFields _).mono (by simp))

theorem retune_timeRow (s : State) : s.retune.timeRow = s.timeRow := by
  have hx : s.rowChanged.lockNoted.timeRow = s.timeRow := (lockNoted_timeRow _).trans (rowChanged_timeRow s)
  rw [retune_eq, ← hx]
  generalize s.rowChanged.lockNoted = x
  have htim : (x.rowShown x.timeRow.phaseSrc).classShown.ppsOutHold.tim.offPps = x.tim.offPps :=
    (ppsOutHold_offPps _).trans (congrArg TimeBase.offPps (classShown_tim _))
  have hfields : OnlyFields retuneFields x (x.rowShown x.timeRow.phaseSrc).classShown.ppsOutHold :=
    ((rowShown_onlyFields x _).mono (by simp [retuneFields])).trans
      ((classShown_ppsOutHold_onlyFields _).mono (by simp [retuneFields]))
  exact timeRow_of_onlyFields hfields (congrArg TimeBase.effCtl htim :) (congrArg TimeBase.everValid htim :) (by decide)

/-- TIM_STS names the row that the inputs give. -/
theorem retune_shows (s : State) : s.retune.fget .TIM_STS_PHASE_SRC = s.timeRow.phaseSrc ∧
    s.retune.fget .TIM_STS_HOLDOVER = bit (s.timeRow == .held) := by
  have hx : s.rowChanged.lockNoted.timeRow = s.timeRow := (lockNoted_timeRow _).trans (rowChanged_timeRow s)
  rw [retune_eq, ← hx]
  generalize s.rowChanged.lockNoted = x
  have h := classShown_ppsOutHold_onlyFields (x.rowShown x.timeRow.phaseSrc)
  refine ⟨?_, ?_⟩
  · rw [h.fget (by decide)]
    simp (disch := decide) only [State.rowShown, State.fget_fset_apart, State.fget_fset_same]
    exact Nat.mod_eq_of_lt (timeRow_phaseSrc_lt _)
  · rw [h.fget (by decide)]
    simp (disch := decide) only [State.rowShown, State.fget_fset_same]
    cases x.timeRow == .held <;> rfl

theorem rowInUse_retune (s : State) : RowInUse s.retune := by
  rw [RowInUse, retune_timeRow]
  exact retune_shows s

/-! What judging the row in use leaves, by field. -/

theorem State.fget_retune (s : State) {g : Fld} (a : retuneFields.all (·.apart g) = true) : s.retune.fget g = s.fget g :=
  (retune_onlyFields s).fget a

theorem State.flag_retune (s : State) {g : Fld} (a : retuneFields.all (·.apart g) = true) : s.retune.flag g = s.flag g :=
  (retune_onlyFields s).flag a

end Sys2Proof.Machine
end

section
/-! Phase marks (R40, R43-R46): what a correction and a mark write, what they leave, and from that O1. -/

namespace Sys2Proof.Machine

/-! ### What stays of the inputs -/

/-- What a time base holds of its inputs alone: the marks rejected and counted, and the labels and times that they brought. -/
def TimeBase.inputs (b : TimeBase) : TimeBase :=
  { TimeBase.init with
    rejected := b.rejected, ppsRejects := b.ppsRejects, irigBad := b.irigBad, ptmBad := b.ptmBad, irigLabel := b.irigLabel, ptmLocal := b.ptmLocal }

/-- Fields outside a list are as before, and so is what the time base holds of its inputs. -/
structure InputsKept (l : List Fld) (s t : State) : Prop where
  fields : OnlyFields l s t
  inputs : t.tim.inputs = s.tim.inputs

section
variable {l m : List Fld} {s t u : State}

theorem InputsKept.refl (l : List Fld) (s : State) : InputsKept l s s := ⟨OnlyFields.refl l s, rfl⟩

theorem InputsKept.trans (h : InputsKept l s t) (k : InputsKept m t u) (i : m ⊆ l) : InputsKept l s u :=
  ⟨h.fields.trans (k.fields.mono i), k.inputs.trans h.inputs⟩

theorem InputsKept.onTim (h : InputsKept l s t) {f : TimeBase → TimeBase} (e : (f t.tim).inputs = t.tim.inputs) : InputsKept l s (t.onTim f) :=
  ⟨h.fields.of_regs rfl, e.trans h.inputs⟩

theorem InputsKept.fset (h : InputsKept l s t) {f : Fld} (v : Nat) (i : f ∈ l) : InputsKept l s (t.fset f v) :=
  ⟨h.fields.fset i v, h.inputs⟩

theorem InputsKept.raise (h : InputsKept l s t) {f : Fld} (i : f ∈ l) : InputsKept l s (t.raise f) := h.fset 1 i

theorem InputsKept.ite {c : Prop} [Decidable c] (ht : InputsKept l s t) (hu : InputsKept l s u) : InputsKept l s (if c then t else u) := by
  split <;> assumption

end

theorem retune_inputsKept (s : State) : InputsKept retuneFields s s.retune :=
  ⟨retune_onlyFields s, (congrArg TimeBase.inputs (retune_unjudged s) :)⟩

theorem ppsStep_inputsKept (s : State) (d : Int) : InputsKept [] s (s.ppsStep d) :=
  ⟨ppsStep_onlyFields s d, (congrArg TimeBase.inputs (ppsStep_offPps s d) :)⟩

/-! ### What a correction leaves (R45, R46) -/

/-- The fields that a correction writes: those of the pending step. -/
def stepFields : List Fld := [.TIM_STS_STEP_PENDING, .TIM_EVT_STEP_DONE, .TIM_EVT_STEP_PENDING_SET]

section
variable (s : State)

theorem slewOff_inputsKept (off : Int) : InputsKept stepFields s (s.slewOff off) := (InputsKept.refl _ s).onTim rfl

theorem stepNow_inputsKept (d : Int) : InputsKept stepFields s (s.stepNow d) :=
  ((((InputsKept.refl _ s).onTim rfl).fset 0 (by simp [stepFields])).raise (by simp [stepFields])).trans (ppsStep_inputsKept _ d) (by simp)

theorem stepPend_inputsKept (d sec : Int) : InputsKept stepFields s (s.stepPend d sec) := by
  have h {f : TimeBase → TimeBase} (e : (f s.tim).inputs = s.tim.inputs) : InputsKept stepFields s (s.onTim f) := (InputsKept.refl _ s).onTim e
  exact InputsKept.ite (h rfl) (((h rfl).fset 1 (by simp [stepFields])).raise (by simp [stepFields]))

theorem stepFor_inputsKept (sub sec : Int) (mismatch : Bool) : InputsKept stepFields s (s.stepFor sub sec mismatch) :=
  InputsKept.ite ((slewOff_inputsKept s sub).trans (stepPend_inputsKept _ _ _) (List.Subset.refl _)) (stepPend_inputsKept s _ _)

theorem trackOld_inputsKept (sub sec : Int) : InputsKept stepFields s (s.trackOld sub sec) :=
  InputsKept.ite (slewOff_inputsKept s _) (stepFor_inputsKept s _ _ _)

theorem correct_inputsKept (sub sec : Int) (mismatch : Bool) : InputsKept stepFields s (s.correct sub sec mismatch) := by
  have h := slewOff_inputsKept s 0
  have hnone : InputsKept stepFields s ((((s.slewOff 0).onTim fun b => { b with stepOfs := none, stepAt := none, stepSec := 0 }).fset
      .TIM_STS_STEP_PENDING 0)) := (h.onTim rfl).fset 0 (by simp [stepFields])
  exact .ite (.ite hnone (h.trans (stepNow_inputsKept _ _) (List.Subset.refl _)))
    (.ite (trackOld_inputsKept s _ _) (.ite (stepFor_inputsKept s _ _ _) (slewOff_inputsKept s _)))

end

/-! ### What a phase mark leaves (R40, R44) -/

/-- What follows the offset of a mark: the correction, the lock, the error bound, and the row in use judged again. -/
def State.offsetActs (s : State) (sub sec : Int) (mismatch : Bool) (off : Int) : State :=
  ((s.correct sub sec mismatch).lockCount off).errShow.retune

/-- The fields that it writes. -/
def offsetFields : List Fld := .TIM_ERR_EST_ERR_EST :: stepFields ++ retuneFields

theorem lockCount_inputsKept (s : State) (off : Int) : InputsKept [] s (s.lockCount off) := by
  refine (InputsKept.refl _ s).onTim ?_
  split <;> rfl

theorem offsetActs_inputsKept (s : State) (sub sec : Int) (mismatch : Bool) (off : Int) :
    InputsKept offsetFields s (s.offsetActs sub sec mismatch off) := by
  have h1 : InputsKept offsetFields s (s.correct sub sec mismatch) :=
    (InputsKept.refl _ s).trans (correct_inputsKept s sub sec mismatch) (by simp [offsetFields, stepFields])
  have h2 := h1.trans (lockCount_inputsKept _ off) (by simp)
  have h3 : InputsKept offsetFields s (((s.correct sub sec mismatch).lockCount off).errShow) := h2.fset _ (by simp [offsetFields])
  exact h3.trans (retune_inputsKept _) (by simp [offsetFields, retuneFields])

/-- The fields that a phase mark writes. -/
def markFields : List Fld := [.TIM_STS_LABEL_VALID, .TIM_EVT_LABEL_MISMATCH, .TIM_OFFSET_OFFSET] ++ offsetFields

theorem phaseMark_inputsKept (s : State) (sec : Nat) (sub : Int) (lab : Option Nat) : InputsKept markFields s (s.phaseMark sec sub lab) := by
  unfold State.phaseMark
  extract_lets s1 first valid labels d off mism s2 s3 s4
  have h1 : InputsKept markFields s s1 := (InputsKept.refl _ s).onTim rfl
  have h2 : InputsKept markFields s s2 := .ite (h1.onTim rfl) ((h1.fset 1 (by simp [markFields])).onTim rfl)
  have h3 : InputsKept markFields s s3 := .ite (h2.raise (by simp [markFields])) h2
  have h4 : InputsKept markFields s s4 := (h3.fset _ (by simp [markFields])).onTim rfl
  exact h4.trans (offsetActs_inputsKept s4 sub d mism off) (List.subset_append_right _ _)

theorem rowInUse_phaseMark (s : State) (sec : Nat) (sub : Int) (lab : Option Nat) : RowInUse (s.phaseMark sec sub lab) := rowInUse_retune _

theorem satBits_lt (i : Int) : satBits 32 i < 2 ^ 32 := by
  unfold satBits toBits
  omega

/-- A mark of a time base with a label, where the labels at hand agree with it, leaves in TIM_OFFSET how far the time base was off. -/
theorem phaseMark_offset {s : State} {sec : Nat} {lab : Option Nat} (sub : Int) (hv : s.flag .TIM_STS_LABEL_VALID = true)
    (hl : ∀ l, lab = some l ∨ s.tim.labelArmed = some l → l = sec) :
    (s.phaseMark sec sub lab).fget .TIM_OFFSET_OFFSET = satBits 32 sub := by
  unfold State.phaseMark
  extract_lets s1 first valid labels d off mism s2 s3 s4
  have hvalid : valid = true := hv
  have hnone : labels.find? (· != sec) = none := by
    rw [List.find?_eq_none]
    intro l hm
    have hl' := hl l (show lab = some l ∨ s1.tim.labelArmed = some l by simpa [labels] using hm)
    simp [hl']
  have hd : d = 0 := by simp only [d, hvalid, if_true, hnone]
  have hoff : off = sub := by simp only [off, hd, Int.zero_mul, Int.add_zero]
  have h4 : s4.fget .TIM_OFFSET_OFFSET = satBits 32 sub := by
    have h : s4.fget .TIM_OFFSET_OFFSET = satBits 32 off % 2 ^ 32 := s3.fget_fset_same .TIM_OFFSET_OFFSET _ (by decide)
    rw [h, hoff, Nat.mod_eq_of_lt (satBits_lt sub)]
  exact ((offsetActs_inputsKept s4 sub d mism off).fields.fget (by decide)).trans h4

theorem State.fget_phaseMark (s : State) (sec : Nat) (sub : Int) (lab : Option Nat) {g : Fld} (a : markFields.all (·.apart g) = true) :
    (s.phaseMark sec sub lab).fget g = s.fget g := (phaseMark_inputsKept s sec sub lab).fields.fget a

theorem State.flag_phaseMark (s : State) (sec : Nat) (sub : Int) (lab : Option Nat) {g : Fld} (a : markFields.all (·.apart g) = true) :
    (s.phaseMark sec sub lab).flag g = s.flag g := (phaseMark_inputsKept s sec sub lab).fields.flag a

/-! ### Inputs lost and valid (R42, R43) -/

/-- An input whose status flag clears with its event: both show, and the row in use follows. -/
theorem inputLost_shows (s : State) {f e : Fld} (fok : f.ok = true) (eok : e.ok = true) (fw : f.hi = f.lo) (ew : e.hi = e.lo)
    (a : e.apart f = true) (fr : retuneFields.all (·.apart f) = true) (er : retuneFields.all (·.apart e) = true)
    {x : State} (hx : x.regs = ((s.fset f 0).raise e).regs) :
    x.retune.flag f = false ∧ x.retune.flag e = true ∧ RowInUse x.retune := by
  have hflag (g : Fld) : x.flag g = ((s.fset f 0).raise e).flag g := congrArg (· != 0) (State.fget_of_regs hx g)
  refine ⟨?_, ?_, rowInUse_retune x⟩
  · rw [x.flag_retune fr, hflag, State.flag_raise_apart _ _ _ a, s.flag_fset_same f 0 fok fw]
    rfl
  · rw [x.flag_retune er, hflag, State.flag_raise_same _ _ eok ew]

theorem answers_ppsInLost {s : State} (h : s.flag .TIM_STS_PPS_OK = true) : Answers .ppsInLost s fun t =>
    t.flag .TIM_STS_PPS_OK = false ∧ t.flag .TIM_EVT_PPS_LOST = true ∧ RowInUse t :=
  answers_of_exec (if_pos h) (fun _ cv => execPpsInLost_keeps (Keeps.refl s) cv)
    (inputLost_shows s (by decide) (by decide) rfl rfl (by decide) (by decide) (by decide) rfl)

theorem answers_refInLost {s : State} (h : s.flag .TIM_STS_REF_OK = true) : Answers .refInLost s fun t =>
    t.flag .TIM_STS_REF_OK = false ∧ t.flag .TIM_EVT_REF_LOST = true ∧ RowInUse t :=
  answers_of_exec (if_pos h) (fun _ cv => execRefInLost_keeps (Keeps.refl s) cv)
    (inputLost_shows s (by decide) (by decide) rfl rfl (by decide) (by decide) (by decide) rfl)

theorem answers_refInValid (s : State) : Answers .refInValid s fun t => t.flag .TIM_STS_REF_OK = true ∧ RowInUse t := by
  refine answers_of_exec rfl (fun _ cv => execRefInValid_keeps (Keeps.refl s) cv) ⟨?_, rowInUse_retune _⟩
  rw [State.flag_retune _ (by decide), s.flag_fset_same _ _ (by decide) rfl]
  rfl

/-! ### IRIG_IN (R43, R44) -/

/-- What the loss of IRIG_IN shows. -/
theorem irigLost_shows {s : State} (h : s.flag .TIM_STS_IRIG_OK = true) : s.irigLost.flag .TIM_STS_IRIG_OK = false ∧
    s.irigLost.flag .TIM_EVT_IRIG_LOST = true ∧ s.irigLost.tim.irigLabel = none ∧ RowInUse s.irigLost := by
  rw [State.irigLost, if_pos h]
  obtain ⟨hf, he, hrow⟩ := inputLost_shows s (f := .TIM_STS_IRIG_OK) (e := .TIM_EVT_IRIG_LOST) (by decide) (by decide) rfl rfl (by decide)
    (by decide) (by decide) (x := ((s.fset .TIM_STS_IRIG_OK 0).raise .TIM_EVT_IRIG_LOST).onTim fun b => { b with irigLabel := none }) rfl
  exact ⟨hf, he, (congrArg TimeBase.irigLabel (retune_unjudged _) :), hrow⟩

theorem answers_irigInLost {s : State} (h : s.flag .TIM_STS_IRIG_OK = true) : Answers .irigInLost s fun t =>
    t.flag .TIM_STS_IRIG_OK = false ∧ t.flag .TIM_EVT_IRIG_LOST = true ∧ t.tim.irigLabel = none ∧ RowInUse t :=
  answers_of_exec rfl (fun _ cv => execIrigInLost_keeps (Keeps.refl s) cv) (irigLost_shows h)

theorem answers_irigFrame_good (s : State) (year : Option Nat) (sec : Nat) : Answers (.irigFrameReceive true year sec) s fun t =>
    t.flag .TIM_STS_IRIG_OK = true ∧ t.tim.irigBad = 0 ∧ t.tim.irigLabel = s.irigLabelOf year sec ∧ RowInUse t := by
  refine answers_of_exec rfl (fun _ cv => execIrigFrameReceive_keeps true year sec (Keeps.refl s) cv)
    ⟨?_, (congrArg TimeBase.irigBad (retune_unjudged _) :), (congrArg TimeBase.irigLabel (retune_unjudged _) :), rowInUse_retune _⟩
  rw [State.flag_retune _ (by decide), State.flag_fset_same _ _ _ (by decide) rfl]
  rfl

theorem answers_irigFrame_bad {s : State} (year : Option Nat) (sec : Nat) (h : s.flag .TIM_STS_IRIG_OK = true) (hb : 1 ≤ s.tim.irigBad) :
    Answers (.irigFrameReceive false year sec) s fun t =>
      t.flag .TIM_STS_IRIG_OK = false ∧ t.flag .TIM_EVT_IRIG_LOST = true ∧ RowInUse t := by
  have e : exec (.irigFrameReceive false year sec) s = .next (s.onTim fun b => { b with irigBad := b.irigBad + 1 }).irigLost :=
    if_pos (Nat.succ_le_succ hb)
  obtain ⟨hf, he, -, hrow⟩ := irigLost_shows (s := s.onTim fun b => { b with irigBad := b.irigBad + 1 }) h
  exact answers_of_exec e (fun _ cv => execIrigFrameReceive_keeps false year sec (Keeps.refl s) cv) ⟨hf, he, hrow⟩

/-- The label of IRIG_IN goes with the mark that it names. -/
def State.labelTaken (s : State) : State := s.onTim fun b => { b with irigLabel := none }

theorem answers_irigOnTimeMark {s : State} {t : Nat} (hp : s.fget .TIM_STS_PHASE_SRC = 2) (hv : s.flag .TIM_STS_LABEL_VALID = true)
    (hl : ∀ l, s.tim.irigLabel = some l ∨ s.tim.labelArmed = some l → l = nearSec t) : Answers (.irigOnTimeMark t) s fun t' =>
      t'.fget .TIM_OFFSET_OFFSET = satBits 32 (pastSec t) ∧ t'.tim.irigLabel = none ∧ RowInUse t' := by
  have e : exec (.irigOnTimeMark t) s = .next ((s.at_ t).labelTaken.phaseMark (nearSec t) (pastSec t) s.tim.irigLabel) := if_pos hp
  exact answers_of_exec e (fun _ cv => execIrigOnTimeMark_keeps t (Keeps.refl s) cv)
    ⟨phaseMark_offset (s := (s.at_ t).labelTaken) _ hv hl,
      (congrArg TimeBase.irigLabel (phaseMark_inputsKept (s.at_ t).labelTaken _ _ _).inputs :), rowInUse_phaseMark _ _ _ _⟩

/-! ### PPS_IN (R41, R43) -/

/-- PPS_IN is valid from an accepted edge on. -/
def State.ppsValid (s : State) : State := ((s.onTim fun b => { b with rejected := [] }).fset .TIM_STS_PPS_OK 1).retune

/-- The label that an accepted edge brings: of IRIG_IN, where that is enabled and valid. -/
def State.ppsLabel (s : State) : Option Nat := if s.ctlBit 4 && s.flag .TIM_STS_IRIG_OK then s.tim.irigLabel else none

/-- The phase mark of an accepted edge, where PPS_IN is the phase source. -/
def State.ppsMark (s : State) (t : Nat) : State :=
  if s.fget .TIM_STS_PHASE_SRC = 1 then s.labelTaken.phaseMark (nearSec t) (pastSec t) s.ppsLabel else s

/-- An edge at `t` counted, where it lies more than 1 us from a second. -/
def State.ppsCounted (s : State) (t : Nat) : State :=
  if decide (1000 < (pastSec t).natAbs) then (s.at_ t).onTim fun b => { b with ppsRejects := b.ppsRejects + 1 } else s.at_ t

/-- The cases of an edge of PPS_IN: the inactive one, one rejected, and one accepted. -/
theorem execPpsInEdge_eq (r : Bool) (t : Nat) (s : State) : execPpsInEdge r t s =
    if r == s.ctlBit 8 then .next (s.at_ t)
    else if decide (1000 < (pastSec t).natAbs) && !(((pastSec t :: s.tim.rejected).take 3).length == 3 &&
      agree ((pastSec t :: s.tim.rejected).take 3)) then
      .next ((s.ppsCounted t).onTim fun b => { b with rejected := (pastSec t :: s.tim.rejected).take 3 })
    else .next ((s.ppsCounted t).ppsValid.ppsMark t) := by
  unfold State.ppsMark
  rw [apply_ite Host.Outcome.next]
  rfl

theorem ppsValid_flag (s : State) : s.ppsValid.flag .TIM_STS_PPS_OK = true := by
  rw [State.ppsValid, State.flag_retune _ (by decide), State.flag_fset_same _ _ _ (by decide) rfl]
  rfl

/-- What an accepted edge leaves, whether PPS_IN is the phase source or not. -/
theorem ppsMark_ppsValid (s : State) (t : Nat) : (s.ppsValid.ppsMark t).tim.ppsRejects = s.tim.ppsRejects ∧
    (s.ppsValid.ppsMark t).tim.rejected = [] ∧ (s.ppsValid.ppsMark t).flag .TIM_STS_PPS_OK = true ∧ RowInUse (s.ppsValid.ppsMark t) := by
  have hrejects : s.ppsValid.tim.ppsRejects = s.tim.ppsRejects := (congrArg TimeBase.ppsRejects (retune_unjudged _) :)
  have hrejected : s.ppsValid.tim.rejected = [] := (congrArg TimeBase.rejected (retune_unjudged _) :)
  unfold State.ppsMark
  split
  · have h := (phaseMark_inputsKept s.ppsValid.labelTaken (nearSec t) (pastSec t) s.ppsValid.ppsLabel).inputs
    exact ⟨(congrArg TimeBase.ppsRejects h :).trans hrejects, (congrArg TimeBase.rejected h :).trans hrejected,
      (State.flag_phaseMark _ _ _ _ (by decide)).trans (ppsValid_flag s), rowInUse_phaseMark _ _ _ _⟩
  · exact ⟨hrejects, hrejected, ppsValid_flag s, rowInUse_retune _⟩

theorem exec_ppsInEdge_inactive {s : State} {r : Bool} (t : Nat) (h : r = s.ctlBit 8) : exec (.ppsInEdge r t) s = .next (s.at_ t) := by
  change execPpsInEdge r t s = _
  rw [execPpsInEdge_eq, if_pos (by simp [h])]

/-- Three rejected edges that agree: two before this one. -/
theorem third_agrees_iff (x : Int) (l : List Int) : (((x :: l).take 3).length == 3 && agree ((x :: l).take 3)) = true ↔
    2 ≤ l.length ∧ agree ((x :: l).take 3) = true := by
  have hlen : min 3 (l.length + 1) = 3 ↔ 2 ≤ l.length := by omega
  simp only [Bool.and_eq_true, beq_iff_eq, List.length_take, List.length_cons, hlen]

theorem exec_ppsInEdge_rejected {s : State} {r : Bool} {t : Nat} (h : r = !s.ctlBit 8) (hf : 1000 < (pastSec t).natAbs)
    (hr : s.tim.rejected.length < 2 ∨ agree ((pastSec t :: s.tim.rejected).take 3) = false) : exec (.ppsInEdge r t) s =
      .next ((s.ppsCounted t).onTim fun b => { b with rejected := (pastSec t :: s.tim.rejected).take 3 }) := by
  have hn : (((pastSec t :: s.tim.rejected).take 3).length == 3 && agree ((pastSec t :: s.tim.rejected).take 3)) = false := by
    rw [Bool.eq_false_iff, Ne, third_agrees_iff]
    rintro ⟨hlen, ha⟩
    rcases hr with hr | hr
    · omega
    · rw [hr] at ha
      cases ha
  change execPpsInEdge r t s = _
  rw [execPpsInEdge_eq, if_neg (by simp [h]), hn, if_pos (by simp [hf])]

theorem exec_ppsInEdge_accepted {s : State} {r : Bool} {t : Nat} (h : r = !s.ctlBit 8) (hf : (pastSec t).natAbs ≤ 1000 ∨
    2 ≤ s.tim.rejected.length ∧ agree ((pastSec t :: s.tim.rejected).take 3) = true) :
    exec (.ppsInEdge r t) s = .next ((s.ppsCounted t).ppsValid.ppsMark t) := by
  change execPpsInEdge r t s = _
  rw [execPpsInEdge_eq, if_neg (by simp [h])]
  rcases hf with hf | hf
  · rw [if_neg (by simp [Nat.not_lt.2 hf])]
  · rw [(third_agrees_iff _ _).2 hf, if_neg (by simp)]

theorem ppsCounted_far (s : State) {t : Nat} (h : 1000 < (pastSec t).natAbs) :
    s.ppsCounted t = (s.at_ t).onTim fun b => { b with ppsRejects := b.ppsRejects + 1 } := if_pos (decide_eq_true h)

theorem ppsCounted_near (s : State) {t : Nat} (h : (pastSec t).natAbs ≤ 1000) : s.ppsCounted t = s.at_ t :=
  if_neg (by simp [Nat.not_lt.2 h])

theorem answers_ppsInEdge_rejected {s : State} {r : Bool} {t : Nat} (h : r = !s.ctlBit 8) (hf : 1000 < (pastSec t).natAbs)
    (hr : s.tim.rejected.length < 2 ∨ agree ((pastSec t :: s.tim.rejected).take 3) = false) : Answers (.ppsInEdge r t) s fun t' =>
      t'.tim.ppsRejects = s.tim.ppsRejects + 1 ∧ t'.tim.rejected = (pastSec t :: s.tim.rejected).take 3 ∧ OnlyFields [] s t' := by
  refine answers_of_exec (exec_ppsInEdge_rejected h hf hr) (fun _ cv => execPpsInEdge_keeps r t (Keeps.refl s) cv) ?_
  rw [ppsCounted_far s hf]
  exact ⟨rfl, rfl, (OnlyFields.refl [] s).of_regs rfl⟩

theorem answers_ppsInEdge_third {s : State} {r : Bool} {t : Nat} (h : r = !s.ctlBit 8) (hf : 1000 < (pastSec t).natAbs)
    (hl : 2 ≤ s.tim.rejected.length) (ha : agree ((pastSec t :: s.tim.rejected).take 3) = true) : Answers (.ppsInEdge r t) s fun t' =>
      t'.tim.ppsRejects = s.tim.ppsRejects + 1 ∧ t'.tim.rejected = [] ∧ t'.flag .TIM_STS_PPS_OK = true ∧ RowInUse t' := by
  refine answers_of_exec (exec_ppsInEdge_accepted h (.inr ⟨hl, ha⟩)) (fun _ cv => execPpsInEdge_keeps r t (Keeps.refl s) cv) ?_
  rw [ppsCounted_far s hf]
  exact ppsMark_ppsValid _ t

theorem answers_ppsInEdge_near {s : State} {r : Bool} {t : Nat} (h : r = !s.ctlBit 8) (hn : (pastSec t).natAbs ≤ 1000)
    (hv : s.flag .TIM_STS_LABEL_VALID = true) (hc : s.ctlBit 3 = true)
    (hl : ∀ l, s.tim.irigLabel = some l ∨ s.tim.labelArmed = some l → l = nearSec t) : Answers (.ppsInEdge r t) s fun t' =>
      t'.flag .TIM_STS_PPS_OK = true ∧ t'.fget .TIM_OFFSET_OFFSET = satBits 32 (pastSec t) ∧ t'.tim.rejected = [] ∧ RowInUse t' := by
  refine answers_of_exec (exec_ppsInEdge_accepted h (.inl hn)) (fun _ cv => execPpsInEdge_keeps r t (Keeps.refl s) cv) ?_
  rw [ppsCounted_near s hn]
  obtain ⟨-, hrej, hok, hrow⟩ := ppsMark_ppsValid (s.at_ t) t
  refine ⟨hok, ?_, hrej, hrow⟩
  have htim : (s.at_ t).ppsValid.tim.unjudged = ({ s.tim.runTo t with rejected := [] } : TimeBase).unjudged := retune_unjudged _
  have hsrc : (s.at_ t).ppsValid.fget .TIM_STS_PHASE_SRC = 1 := by
    obtain ⟨hp, -⟩ := retune_shows (((s.at_ t).onTim fun b => { b with rejected := [] }).fset .TIM_STS_PPS_OK 1)
    exact hp.trans (phaseSrc_of_pps hc (State.flag_fset_same _ _ _ (by decide) rfl))
  have hvalid : (s.at_ t).ppsValid.flag .TIM_STS_LABEL_VALID = true := by
    rw [State.ppsValid, State.flag_retune _ (by decide), State.flag_fset_apart _ _ _ _ (by decide)]
    exact hv
  rw [State.ppsMark, if_pos hsrc]
  refine phaseMark_offset _ hvalid fun l hlab => hl l ?_
  have hirig : (s.at_ t).ppsValid.tim.irigLabel = s.tim.irigLabel := (congrArg TimeBase.irigLabel htim :)
  have harmed : (s.at_ t).ppsValid.tim.labelArmed = s.tim.labelArmed := (congrArg TimeBase.labelArmed htim :)
  refine hlab.imp (fun hlab => ?_) fun ha => harmed ▸ ha
  unfold State.ppsLabel at hlab
  split at hlab
  · exact hirig ▸ hlab
  · cases hlab

/-! ### PTM (R43) -/

/-- A completed dialogue: PTM is valid, with the host's time and the time base's beside each other. -/
def State.ptmValid (s : State) (host loc : Nat) : State :=
  ((((s.at_ loc).onTim fun b => { b with ptmBad := 0, ptmLocal := loc }).fset .TIM_PTM_HOST_HOST host).fset .TIM_STS_PTM_OK 1).retune

/-- The seconds by which a label disagrees with an offset, and what is left of it. -/
def wholeSec (off : Int) : Int := (off + (second / 2 : Nat)) / (second : Nat)

theorem wholeSec_near {off : Int} (h : off.natAbs < 500000000) : wholeSec off = 0 := by
  simp only [wholeSec, second]
  omega

theorem exec_ptmDialogueDone_ok {hostSec hostNs : Nat} (s : State) (loc : Nat) (hn : hostNs < 1000000000) (hs : hostSec < 18446744073)
    {x : State} {off : Int} (hx : x = s.ptmValid (hostSec * 1000000000 + hostNs) loc)
    (ho : off = (loc : Int) - (hostSec * 1000000000 + hostNs : Nat)) :
    exec (.ptmDialogueDone true hostSec hostNs loc) s = .next (if x.fget .TIM_STS_PHASE_SRC = 3 then
      x.phaseMark ((hostSec : Int) + wholeSec off).toNat (off - wholeSec off * second) (some hostSec) else x) := by
  subst hx ho
  change execPtmDialogueDone true hostSec hostNs loc s = _
  have hcond : (true && decide (hostNs < second) && decide (hostSec < 18446744073)) = true := by simp [second, hn, hs]
  rw [execPtmDialogueDone, if_pos hcond, apply_ite Host.Outcome.next]
  rfl

theorem ptmValid_kept (s : State) (host loc : Nat) {x : State} (hx : x = s.ptmValid host loc) (hh : host < 2 ^ 64) :
    x.flag .TIM_STS_PTM_OK = true ∧ x.fget .TIM_PTM_HOST_HOST = host ∧ x.tim.ptmLocal = loc ∧ x.tim.ptmBad = 0 ∧ RowInUse x := by
  subst hx
  refine ⟨?_, ?_, (congrArg TimeBase.ptmLocal (retune_unjudged _) :), (congrArg TimeBase.ptmBad (retune_unjudged _) :), rowInUse_retune _⟩
  · rw [State.ptmValid, State.flag_retune _ (by decide), State.flag_fset_same _ _ _ (by decide) rfl]
    rfl
  · rw [State.ptmValid, State.fget_retune _ (by decide), State.fget_fset_apart _ _ _ _ (by decide), State.fget_fset_same _ _ _ (by decide)]
    exact Nat.mod_eq_of_lt hh

theorem answers_ptmDialogue_ok {hostSec hostNs : Nat} (s : State) (loc : Nat) (hn : hostNs < 1000000000) (hs : hostSec < 18446744073) :
    Answers (.ptmDialogueDone true hostSec hostNs loc) s fun t' =>
      t'.flag .TIM_STS_PTM_OK = true ∧ t'.fget .TIM_PTM_HOST_HOST = hostSec * 1000000000 + hostNs ∧ t'.tim.ptmLocal = loc ∧ t'.tim.ptmBad = 0 ∧
      RowInUse t' := by
  refine answers_of_exec (exec_ptmDialogueDone_ok s loc hn hs rfl rfl)
    (fun _ cv => execPtmDialogueDone_keeps true hostSec hostNs loc (Keeps.refl s) cv) ?_
  obtain ⟨hok, hhost, hloc, hbad, hrow⟩ := ptmValid_kept s _ loc rfl (show hostSec * 1000000000 + hostNs < 2 ^ 64 by omega)
  generalize s.ptmValid (hostSec * 1000000000 + hostNs) loc = x at *
  split
  · have h := (phaseMark_inputsKept x ((hostSec : Int) + wholeSec ((loc : Int) - (hostSec * 1000000000 + hostNs : Nat))).toNat
      ((loc : Int) - (hostSec * 1000000000 + hostNs : Nat) - wholeSec ((loc : Int) - (hostSec * 1000000000 + hostNs : Nat)) * second)
      (some hostSec)).inputs
    exact ⟨(x.flag_phaseMark _ _ _ (by decide)).trans hok, (x.fget_phaseMark _ _ _ (by decide)).trans hhost,
      (congrArg TimeBase.ptmLocal h :).trans hloc, (congrArg TimeBase.ptmBad h :).trans hbad, rowInUse_phaseMark _ _ _ _⟩
  · exact ⟨hok, hhost, hloc, hbad, hrow⟩

theorem ptmValid_phaseSrc {s : State} (host loc : Nat) (h : s.flag .TIM_STS_PTM_OK = true) :
    (s.ptmValid host loc).fget .TIM_STS_PHASE_SRC = s.timeRow.phaseSrc := by
  obtain ⟨hp, -⟩ := retune_shows
    ((((s.at_ loc).onTim fun b => { b with ptmBad := 0, ptmLocal := loc }).fset .TIM_PTM_HOST_HOST host).fset .TIM_STS_PTM_OK 1)
  refine hp.trans (congrArg TimeRow.phaseSrc (timeRow_congr rfl rfl ?_ ?_ ?_ ?_))
  case refine_4 =>
    rw [State.flag_fset_same _ _ _ (by decide) rfl, h]
    rfl
  all_goals
    rw [State.flag_fset_apart _ _ _ _ (by decide), State.flag_fset_apart _ _ _ _ (by decide)]
    rfl

theorem answers_ptmDialogue_mark {s : State} {hostSec hostNs loc : Nat} (hn : hostNs < 1000000000) (hs : hostSec < 18446744073)
    (hrow : s.timeRow.phaseSrc = 3) (hok : s.flag .TIM_STS_PTM_OK = true) (hv : s.flag .TIM_STS_LABEL_VALID = true)
    (hnear : ((loc : Int) - (hostSec * 1000000000 + hostNs : Nat)).natAbs < 500000000) (hl : ∀ l, s.tim.labelArmed = some l → l = hostSec) :
    Answers (.ptmDialogueDone true hostSec hostNs loc) s fun t' =>
      t'.fget .TIM_OFFSET_OFFSET = satBits 32 ((loc : Int) - (hostSec * 1000000000 + hostNs : Nat)) ∧ RowInUse t' := by
  refine answers_of_exec (exec_ptmDialogueDone_ok s loc hn hs rfl rfl)
    (fun _ cv => execPtmDialogueDone_keeps true hostSec hostNs loc (Keeps.refl s) cv) ?_
  have hvalid : (s.ptmValid (hostSec * 1000000000 + hostNs) loc).flag .TIM_STS_LABEL_VALID = true := by
    rw [State.ptmValid, State.flag_retune _ (by decide), State.flag_fset_apart _ _ _ _ (by decide), State.flag_fset_apart _ _ _ _ (by decide)]
    exact hv
  have harmed : (s.ptmValid (hostSec * 1000000000 + hostNs) loc).tim.labelArmed = s.tim.labelArmed :=
    (congrArg TimeBase.labelArmed (retune_unjudged _) :)
  rw [if_pos ((ptmValid_phaseSrc _ loc hok).trans hrow), wholeSec_near hnear, Int.add_zero, Int.toNat_natCast, Int.zero_mul, Int.sub_zero]
  refine ⟨phaseMark_offset _ hvalid fun l hlab => ?_, rowInUse_phaseMark _ _ _ _⟩
  rcases hlab with hlab | hlab
  · exact (Option.some.inj hlab).symm
  · exact hl l (harmed ▸ hlab)

/-- A dialogue has failed. -/
def State.ptmMissed (s : State) : State := s.onTim fun b => { b with ptmBad := b.ptmBad + 1 }

theorem answers_ptmDialogue_failed {s : State} (hostSec hostNs loc : Nat) (h : s.flag .TIM_STS_PTM_OK = true) (hb : 2 ≤ s.tim.ptmBad) :
    Answers (.ptmDialogueDone false hostSec hostNs loc) s fun t' =>
      t'.flag .TIM_STS_PTM_OK = false ∧ t'.flag .TIM_EVT_PTM_LOST = true ∧ RowInUse t' := by
  have hcond : (decide (3 ≤ s.ptmMissed.tim.ptmBad) && s.ptmMissed.flag .TIM_STS_PTM_OK) = true :=
    Bool.and_eq_true_iff.2 ⟨decide_eq_true (Nat.succ_le_succ hb), h⟩
  have e : exec (.ptmDialogueDone false hostSec hostNs loc) s =
      .next (((s.ptmMissed.fset .TIM_STS_PTM_OK 0).raise .TIM_EVT_PTM_LOST).retune) := if_pos hcond
  exact answers_of_exec e (fun _ cv => execPtmDialogueDone_keeps false hostSec hostNs loc (Keeps.refl s) cv)
    (inputLost_shows s.ptmMissed (by decide) (by decide) rfl rfl (by decide) (by decide) (by decide) rfl)

/-- Settles O1: each clause is the law of one outcome of a time input, a phase mark or a PTM dialogue. -/
theorem timeInputsAndPhaseMarksAct : Obligations.TimeInputsAndPhaseMarksAct := by
  unfold Obligations.TimeInputsAndPhaseMarksAct
  exact ⟨fun _ h => answers_ppsInLost h, fun _ h => answers_refInLost h, fun s => answers_refInValid s, fun _ h => answers_irigInLost h,
    fun s year sec => answers_irigFrame_good s year sec, fun _ year sec h hb => answers_irigFrame_bad year sec h hb,
    fun _ _ t h => exec_ppsInEdge_inactive t h, fun _ _ _ h hn hv hc hl => answers_ppsInEdge_near h hn hv hc hl,
    fun _ _ _ h hf hr => answers_ppsInEdge_rejected h hf hr, fun _ _ _ h hf hl ha => answers_ppsInEdge_third h hf hl ha,
    fun _ _ hp hv hl => answers_irigOnTimeMark hp hv hl, fun s _ _ loc hn hs => answers_ptmDialogue_ok s loc hn hs,
    fun _ _ _ _ hn hs hrow hok hv hnear hl => answers_ptmDialogue_mark hn hs hrow hok hv hnear hl,
    fun _ hostSec hostNs loc h hb => answers_ptmDialogue_failed hostSec hostNs loc h hb⟩

end Sys2Proof.Machine
end

section
/-! Holdover, steps, and the accesses of the time base's registers (R42, R44, R46, R51, R66, R495), and from that O2. -/

namespace Sys2Proof.Machine

/-! ### Holdover (R42) -/

/-- The error bound as it shows, behind the row in use judged again. -/
theorem errShow_retune (s : State) : s.errShow.retune.tim.errPs = s.tim.errPs ∧
    s.errShow.retune.fget .TIM_ERR_EST_ERR_EST = min 0xFFFFFFFF (s.errShow.retune.tim.errPs / 1000) ∧ RowInUse s.errShow.retune := by
  have herr : s.errShow.retune.tim.errPs = s.tim.errPs := (congrArg TimeBase.errPs (retune_unjudged _) :)
  refine ⟨herr, ?_, rowInUse_retune _⟩
  rw [herr, State.fget_retune _ (by decide), State.errShow, State.fget_fset_same _ _ _ (by decide)]
  exact Nat.mod_eq_of_lt (Nat.lt_succ_of_le (Nat.min_le_left _ _))

theorem answers_errEstGrowth {s : State} (h : s.flag .TIM_STS_HOLDOVER = true) : Answers .errEstGrowth s fun t =>
    t.tim.errPs = min 4294967295000 (s.tim.errPs + (if s.refIn then field s.tim.effHold 15 0 else field s.tim.effHold 31 16 * 1000)) ∧
    t.fget .TIM_ERR_EST_ERR_EST = min 0xFFFFFFFF (t.tim.errPs / 1000) ∧ RowInUse t :=
  answers_of_exec (if_pos h) (fun _ cv => execErrEstGrowth_keeps (Keeps.refl s) cv) (errShow_retune _)

/-! ### Steps (R46, R495) -/

theorem stepIfOff_enabled {s : State} (h : s.flag .TIM_CTL_FRAME_EN = true) : s.stepIfOff = s := by simp [State.stepIfOff, h]

theorem stepIfOff_noStep {s : State} (h : s.tim.stepOfs = none) : s.stepIfOff = s := by simp [State.stepIfOff, h]

theorem stepIfOff_disabled {s : State} {d : Int} (h : s.flag .TIM_CTL_FRAME_EN = false) (ha : s.tim.stepAt.isSome = true)
    (hd : s.tim.stepOfs = some d) : s.stepIfOff = s.stepNow d := by simp [State.stepIfOff, h, ha, hd]

/-- What a step made at once makes of the time base. -/
theorem stepNow_offPps (s : State) (d : Int) {n : Nat} (hn : n = ((s.tim.now : Int) + d).toNat) :
    (s.stepNow d).tim.offPps = ({ s.tim with
      now := n, tickAt := tickTime s.frate (tickIndex s.frate n), frameNo := frameNumber s.frate n, stepOfs := none, stepAt := none, stepSec := 0,
      stepped := false } : TimeBase).offPps := by
  subst hn
  exact ppsStep_offPps _ d

theorem stepNow_flags (s : State) (d : Int) :
    (s.stepNow d).flag .TIM_STS_STEP_PENDING = false ∧ (s.stepNow d).flag .TIM_EVT_STEP_DONE = true := by
  unfold State.stepNow
  refine ⟨?_, ?_⟩
  · rw [(ppsStep_onlyFields _ d).flag rfl, State.flag_raise_apart _ _ _ (by decide), State.flag_fset_same _ _ _ (by decide) rfl]
    rfl
  · rw [(ppsStep_onlyFields _ d).flag rfl, State.flag_raise_same _ _ (by decide) rfl]

/-- STEP_GO decides a pending step. -/
theorem exec_stepGo {s : State} (t : Nat) (hr : s.ready = true) (hp : s.flag .TIM_STS_STEP_PENDING = true) (hn : s.tim.stepAt = none) :
    exec (.stepGo t) s = .next ((s.at_ t).onTim fun b => { b with stepAt := some t }).stepIfOff := by
  have hcond : ((s.at_ t).flag .TIM_STS_STEP_PENDING && (s.at_ t).tim.stepAt.isNone) = true := by
    simp [hp, show (s.tim.runTo t).stepAt = none from hn]
  exact (if_pos hr).trans (if_pos hcond)

theorem answers_stepGo_enabled {s : State} {t : Nat} (hr : s.ready = true) (hp : s.flag .TIM_STS_STEP_PENDING = true)
    (hn : s.tim.stepAt = none) (he : s.flag .TIM_CTL_FRAME_EN = true) :
    Answers (.stepGo t) s fun t' => t'.tim = { s.tim.runTo t with stepAt := some t } := by
  refine answers_of_exec (exec_stepGo t hr hp hn) (fun _ cv => execStepGo_keeps t (Keeps.refl s) cv) ?_
  rw [stepIfOff_enabled (s := (s.at_ t).onTim fun b => { b with stepAt := some t }) he]
  rfl

theorem answers_stepGo_disabled {s : State} {t : Nat} {d : Int} (hr : s.ready = true) (hp : s.flag .TIM_STS_STEP_PENDING = true)
    (hn : s.tim.stepAt = none) (hd : s.tim.stepOfs = some d) (he : s.flag .TIM_CTL_FRAME_EN = false) : Answers (.stepGo t) s fun t' =>
      t'.tim.now = ((t : Int) + d).toNat ∧ t'.tim.tickAt = tickTime s.frate (tickIndex s.frate t'.tim.now) ∧ t'.tim.stepOfs = none ∧
      t'.flag .TIM_STS_STEP_PENDING = false ∧ t'.flag .TIM_EVT_STEP_DONE = true := by
  refine answers_of_exec (exec_stepGo t hr hp hn) (fun _ cv => execStepGo_keeps t (Keeps.refl s) cv) ?_
  rw [stepIfOff_disabled (s := (s.at_ t).onTim fun b => { b with stepAt := some t }) he rfl hd]
  have h := stepNow_offPps ((s.at_ t).onTim fun b => { b with stepAt := some t }) d rfl
  have hnow : (((s.at_ t).onTim fun b => { b with stepAt := some t }).stepNow d).tim.now = ((t : Int) + d).toNat := congrArg TimeBase.now h
  refine ⟨hnow, ?_, congrArg TimeBase.stepOfs h, stepNow_flags _ d⟩
  rw [hnow]
  exact congrArg TimeBase.tickAt h

/-! ### FRAME_EN and TIM_LABEL (R44, R51, R465) -/

theorem answers_frameEnWrite {s : State} {en : Bool} (hr : s.ready = true) : Answers (.frameEnWrite en) s fun t =>
    t.flag .TIM_CTL_FRAME_EN = en ∧ OnlyFields [.TIM_CTL_FRAME_EN] s t := by
  refine answers_of_exec (if_pos hr) (fun _ cv => execFrameEnWrite_keeps en (Keeps.refl s) cv)
    ⟨?_, (OnlyFields.refl _ s).fset (by simp) _⟩
  rw [State.flag_fset_same _ _ _ (by decide) rfl]
  cases en <;> rfl

/-- A 64-bit field by its halves. -/
theorem field_halves (w : DWord) : field w 63 0 = field w 63 32 * 2 ^ 32 + field w 31 0 ∧ field w 63 32 = field w 63 0 / 2 ^ 32 ∧
    field w 31 0 = field w 63 0 % 2 ^ 32 := by
  simp only [field, BitVec.toNat_ushiftRight, Nat.shiftRight_eq_div_pow]
  omega

theorem fget_label (s : State) : s.fget .TIM_LABEL_LABEL = field (s.rd .TIM_LABEL 0) 63 0 := rfl

/-- The upper half of TIM_LABEL written. -/
theorem fget_label_high (s : State) (data : Nat) : (s.wr .TIM_LABEL 0 (setField (s.rd .TIM_LABEL 0) 63 32 data)).fget .TIM_LABEL_LABEL =
    data % 2 ^ 32 * 2 ^ 32 + s.fget .TIM_LABEL_LABEL % 2 ^ 32 := by
  obtain ⟨h, -, -⟩ := field_halves (setField (s.rd .TIM_LABEL 0) 63 32 data &&& Reg.bits .TIM_LABEL)
  obtain ⟨-, -, hlow⟩ := field_halves (s.rd .TIM_LABEL 0)
  rw [fget_label, State.rd_wr_same, h, field_set_same _ _ _ _ _ (by decide) (by decide) (by decide),
    field_mask_other _ _ _ _ _ _ _ (by decide) (by decide) (by decide) (by decide) (by decide) (by decide) (by decide), hlow]
  rfl

/-- The lower half of TIM_LABEL written. -/
theorem fget_label_low (s : State) (data : Nat) : (s.wr .TIM_LABEL 0 (setField (s.rd .TIM_LABEL 0) 31 0 data)).fget .TIM_LABEL_LABEL =
    s.fget .TIM_LABEL_LABEL / 2 ^ 32 * 2 ^ 32 + data % 2 ^ 32 := by
  obtain ⟨h, -, -⟩ := field_halves (setField (s.rd .TIM_LABEL 0) 31 0 data &&& Reg.bits .TIM_LABEL)
  obtain ⟨-, hhigh, -⟩ := field_halves (s.rd .TIM_LABEL 0)
  rw [fget_label, State.rd_wr_same, h, field_set_same _ _ _ _ _ (by decide) (by decide) (by decide),
    field_mask_other _ _ _ _ _ _ _ (by decide) (by decide) (by decide) (by decide) (by decide) (by decide) (by decide), hhigh]
  rfl

theorem answers_timLabelWrite_full {s : State} {data t be : Nat} (hr : s.ready = true) : Answers (.timLabelWrite .full data t be) s fun t' =>
    t'.fget .TIM_LABEL_LABEL = data % 2 ^ 64 ∧
    t'.tim = { s.tim.runTo t with labelArmed := if data % 2 ^ 64 = 0 then none else some (data % 2 ^ 64) } := by
  have h : (s.fset .TIM_LABEL_LABEL data).fget .TIM_LABEL_LABEL = data % 2 ^ 64 := s.fget_fset_same _ _ (by decide)
  refine answers_of_exec (if_pos hr) (fun _ cv => execTimLabelWrite_keeps .full data t be (Keeps.refl s) cv) ⟨h, ?_⟩
  rw [← h]
  rfl

theorem answers_timLabelWrite_high {s : State} {data t be : Nat} (hr : s.ready = true) : Answers (.timLabelWrite .high data t be) s fun t' =>
    t'.fget .TIM_LABEL_LABEL = data % 2 ^ 32 * 2 ^ 32 + s.fget .TIM_LABEL_LABEL % 2 ^ 32 ∧
    t'.tim.labelArmed = if t'.fget .TIM_LABEL_LABEL = 0 then none else some (t'.fget .TIM_LABEL_LABEL) :=
  answers_of_exec (if_pos hr) (fun _ cv => execTimLabelWrite_keeps .high data t be (Keeps.refl s) cv) ⟨fget_label_high s data, rfl⟩

theorem answers_timLabelWrite_low {s : State} {data t be : Nat} (hr : s.ready = true) : Answers (.timLabelWrite .low data t be) s fun t' =>
    t'.fget .TIM_LABEL_LABEL = s.fget .TIM_LABEL_LABEL / 2 ^ 32 * 2 ^ 32 + data % 2 ^ 32 ∧ t'.tim = s.tim :=
  answers_of_exec (if_pos hr) (fun _ cv => execTimLabelWrite_keeps .low data t be (Keeps.refl s) cv) ⟨fget_label_low s data, rfl⟩

theorem answers_timLabelWrite_narrow {s : State} {data t be : Nat} (hr : s.ready = true) : Answers (.timLabelWrite .narrow data t be) s fun t' =>
    t'.fget .TIM_LABEL_LABEL = s.fget .TIM_LABEL_LABEL ∧ t'.tim = s.tim := by
  have k : Keeps (within [.reg .GCTL_ACCESS_ERR, .reg .GCTL_ACCESS_ADDR]) s (s.narrowWrite 0 be 0x1038) :=
    State.narrowWrite_keeps 0 be 0x1038 (Keeps.refl s) (covers_within (by decide))
  exact answers_of_exec (if_pos hr) (fun _ cv => execTimLabelWrite_keeps .narrow data t be (Keeps.refl s) cv)
    ⟨k.fgetN (g := .TIM_LABEL_LABEL) rfl 0, k.part .tim rfl⟩

/-! ### Reads (R66) -/

theorem exec_timNowRead_full {s : State} (t : Nat) (hr : s.ready = true) :
    exec (.timNowRead .full t) s = .next ((s.at_ t).answer (BitVec.ofNat 64 t)) := if_pos hr

theorem answers_timNowRead_low {s : State} {t : Nat} (hr : s.ready = true) : Answers (.timNowRead .low t) s fun t' =>
    t'.out = s.out ++ [.readData (BitVec.ofNat 64 (t % 2 ^ 32))] ∧ t'.tim = { s.tim.runTo t with nowHigh := t / 2 ^ 32 % 2 ^ 32 } :=
  answers_of_exec (if_pos hr) (fun _ cv => execTimNowRead_keeps .low t (Keeps.refl s) cv) ⟨rfl, rfl⟩

theorem answers_timNowRead_high {s : State} {t : Nat} (hr : s.ready = true) : Answers (.timNowRead .high t) s fun t' =>
    t'.out = s.out ++ [.readData (BitVec.ofNat 64 s.tim.nowHigh)] ∧ t'.tim.nowHigh = s.tim.nowHigh :=
  answers_of_exec (if_pos hr) (fun _ cv => execTimNowRead_keeps .high t (Keeps.refl s) cv) ⟨rfl, rfl⟩

theorem answers_timFrameNoRead {s : State} {w : ReadWidth} (hr : s.ready = true) (hw : w = .full ∨ w = .low) :
    Answers (.timFrameNoRead w) s fun t =>
      t.out = s.out ++ [.readData (BitVec.ofNat 64 s.tim.frameNo)] ∧ t.tim = { s.tim with heldStart := s.tim.tickAt } := by
  rcases hw with rfl | rfl
  · exact answers_of_exec (if_pos hr) (fun _ cv => execTimFrameNoRead_keeps .full (Keeps.refl s) cv) ⟨rfl, rfl⟩
  · exact answers_of_exec (if_pos hr) (fun _ cv => execTimFrameNoRead_keeps .low (Keeps.refl s) cv) ⟨rfl, rfl⟩

theorem answers_timPtmHostRead_full {s : State} (hr : s.ready = true) : Answers (.timPtmHostRead .full) s fun t =>
    t.out = s.out ++ [.readData (BitVec.ofNat 64 (s.fget .TIM_PTM_HOST_HOST))] ∧ t.tim = { s.tim with heldLocal := s.tim.ptmLocal } :=
  answers_of_exec (if_pos hr) (fun _ cv => execTimPtmHostRead_keeps .full (Keeps.refl s) cv) ⟨rfl, rfl⟩

theorem answers_timPtmHostRead_low {s : State} (hr : s.ready = true) : Answers (.timPtmHostRead .low) s fun t =>
    t.out = s.out ++ [.readData (BitVec.ofNat 64 (s.fget .TIM_PTM_HOST_HOST % 2 ^ 32))] ∧ t.tim = { s.tim with heldLocal := s.tim.ptmLocal } :=
  answers_of_exec (if_pos hr) (fun _ cv => execTimPtmHostRead_keeps .low (Keeps.refl s) cv) ⟨rfl, rfl⟩

/-- Settles O2: each clause is the law of one control of the time base, or of one width of an access. -/
theorem timeBaseControlsAndReadsAct : Obligations.TimeBaseControlsAndReadsAct := by
  unfold Obligations.TimeBaseControlsAndReadsAct
  exact ⟨fun _ h => answers_errEstGrowth h, fun _ _ hr hp hn he => answers_stepGo_enabled hr hp hn he,
    fun _ _ _ hr hp hn hd he => answers_stepGo_disabled hr hp hn hd he, fun _ _ hr => answers_frameEnWrite hr,
    fun _ _ _ _ hr => answers_timLabelWrite_full hr, fun _ _ _ _ hr => answers_timLabelWrite_high hr,
    fun _ _ _ _ hr => answers_timLabelWrite_low hr, fun _ _ _ _ hr => answers_timLabelWrite_narrow hr,
    fun _ t hr => exec_timNowRead_full t hr, fun _ _ hr => answers_timNowRead_low hr, fun _ _ hr => answers_timNowRead_high hr,
    fun _ _ hr hw => answers_timFrameNoRead hr hw, fun _ hr => answers_timPtmHostRead_full hr, fun _ hr => answers_timPtmHostRead_low hr⟩

end Sys2Proof.Machine
end

section
/-! The frame tick (R47–R51, R67): what each part of it leaves of the time base, and from that O3. -/

namespace Sys2Proof.Machine

/-! ### What a tick settles of the time base -/

/-- The instants, the frame's number, whether it is the one after a step, whether FRAMEs run, and the pending step. -/
def TimeBase.atTick (b : TimeBase) : Nat × Nat × Nat × Bool × Bool × Option Int :=
  (b.now, b.tickAt, b.frameNo, b.stepped, b.framesOn, b.stepOfs)

/-- What ends a frame or starts one leaves the time base and its controls alone. -/
structure TimeKept (s t : State) : Prop where
  tim : t.tim = s.tim
  ctl : t.flag .TIM_CTL_FRAME_EN = s.flag .TIM_CTL_FRAME_EN
  rate : t.frate = s.frate

namespace TimeKept

variable {s t : State} (h : TimeKept s t)
include h

theorem nextTick : t.nextTick = s.nextTick := by simp only [State.nextTick, h.tim, h.rate]

theorem stepDue (n : Nat) : t.stepDue n = s.stepDue n := by simp only [State.stepDue, h.tim, h.ctl, h.rate]

theorem rateFrom (n : Nat) : t.rateFrom n = s.rateFrom n := by simp only [State.rateFrom, h.stepDue, h.tim, h.rate]

theorem nextNumber : t.nextNumber = s.nextNumber := by simp only [State.nextNumber, h.nextTick, h.stepDue, h.rateFrom, h.rate]

end TimeKept

/-- The parts that the end of a frame writes. -/
def endParts : List Part := [.out, .ctxs, .cmgr, .txns, .rings, .entries, .sched, .deal, .slices, .icu, .pool, .twin, .smp, .reg .SCH_ADM_STS,
  .reg .SCH_ADM_EVT, .reg .SCH_DYN_CNT, .reg .SCH_CTXCNT, .reg .MOV_STS, .reg .ICU_ERR, .reg .GTH_CNT, .reg .GTH_DROP, .reg .CDR_EVT, .reg .CDR_FLG]

theorem frameEnd_kept (s : State) (h : CtxHost) : Keeps (within endParts) s (s.frameEnd h) :=
  State.frameEnd_keeps h (Keeps.refl s) (covers_within (List.Subset.refl _))

theorem frameEnd_timeKept (s : State) (h : CtxHost) : TimeKept s (s.frameEnd h) where
  tim := (frameEnd_kept s h).part .tim rfl
  ctl := congrArg (· != 0) ((frameEnd_kept s h).fgetN (g := .TIM_CTL_FRAME_EN) rfl 0)
  rate := (frameEnd_kept s h).fgetN (g := .TIM_FRATE_ACT_FRATE_ACT) rfl 0

/-! ### The judging tick (R50) -/

theorem frateJudge_atTick (s : State) : s.frateJudge.tim.atTick = s.tim.atTick := by
  have hint (x : State) (v : Nat) : ((x.integrityReg 0x1004).fset .TIM_STS_FRATE_PEND v).tim.atTick = x.tim.atTick :=
    congrArg TimeBase.atTick (Keeps.part (l := [.out, .rings, .icu, .reg .MOV_STS, .reg .ICU_ERR])
      (State.integrityReg_keeps _ (Keeps.refl x) (covers_within (List.Subset.refl _))) .tim rfl)
  unfold State.frateJudge
  split
  · dsimp only
    split
    · exact hint _ _
    · split <;> rfl
  · rfl

/-- The fields that the judging tick writes. -/
def judgeFields : List Fld := [.TIM_EVT_FRATE_REFUSED, .TIM_STS_FRATE_PEND]

theorem frateJudge_fget (s : State) {g : Fld} (a : judgeFields.all (·.apart g) = true)
    (n : within [.out, .rings, .icu, .reg .MOV_STS, .reg .ICU_ERR] (.reg g.reg) = false) : s.frateJudge.fget g = s.fget g := by
  have hint (x : State) : (x.integrityReg 0x1004).fget g = x.fget g :=
    (State.integrityReg_keeps _ (Keeps.refl x) (covers_within (List.Subset.refl _))).fgetN n 0
  simp only [judgeFields, List.all_cons, List.all_nil, Bool.and_eq_true, and_true] at a
  obtain ⟨he, hs⟩ := a
  have hraise (x : State) : (x.raise .TIM_EVT_FRATE_REFUSED).fget g = x.fget g := x.fget_fset_apart _ g 1 he
  unfold State.frateJudge
  split
  · dsimp only
    split
    · exact (State.fget_fset_apart _ _ g _ hs).trans ((hint _).trans (hraise _))
    · split
      · exact (State.fget_fset_apart _ _ g _ hs).trans (hraise _)
      · exact State.fget_fset_apart _ _ g _ hs
  · rfl

/-! ### The time base's part of a tick (R47–R52) -/

/-- The time base at the tick instant, or moved by the step that is due there. -/
def State.tickMoved (s : State) : State :=
  match s.stepDue s.nextTick with
  | some d =>
    ((((s.at_ s.nextTick).ppsFall s.nextTick).onTim fun b => { b with
      now := ((s.nextTick : Int) + d).toNat, tickAt := ((s.nextTick : Int) + d).toNat, frameNo := s.nextNumber, stepOfs := none, stepAt := none,
      stepSec := 0, stepped := true }).fset .TIM_STS_STEP_PENDING 0).raise .TIM_EVT_STEP_DONE
  | none =>
    match (if s.nextTick % second = 0 then s.tim.frateAcc else none) with
    | some f =>
      ((((((s.at_ s.nextTick).ppsFall s.nextTick).onTim fun b => { b with tickAt := s.nextTick, frameNo := s.nextNumber, stepped := false }).onTim
        fun b => { b with frateAcc := none }).fset .TIM_FRATE_ACT_FRATE_ACT f).raise .TIM_EVT_FRATE_APPLIED).fset .TIM_STS_FRATE_PEND
          (bit s.tim.frateReq)
    | none => ((s.at_ s.nextTick).ppsFall s.nextTick).onTim fun b => { b with tickAt := s.nextTick, frameNo := s.nextNumber, stepped := false }

/-- FRAMEs run, or not, from this frame on (R51). -/
def State.framesSet (s : State) (sec : Bool) : State :=
  s.onTim fun b => { b with framesOn := s.flag .TIM_CTL_FRAME_EN && (b.framesOn || sec) }

/-- The registers that take effect at a second, and the edge of PPS_OUT there. -/
def State.secondTick (s : State) (sec : Bool) (t : Nat) : State := if sec then s.loadEff.retune.ppsRise t else s

/-- PPS_OUT follows a step that was due; one that no tick waits for is made (R495). -/
def State.stepTick (s : State) (step : Option Int) : State :=
  match step with
  | some d => s.ppsStep d
  | none => s.stepIfOff

/-- The class that the FRAMEs of this frame carry, and the judging tick. -/
def State.judgeTick (s : State) : State :=
  if (s.onTim fun b => { b with tickClass := s.qclass }).nextTick % second = 0 then (s.onTim fun b => { b with tickClass := s.qclass }).frateJudge
  else s.onTim fun b => { b with tickClass := s.qclass }

theorem timTick_eq (s : State) : s.timTick = (((s.tickMoved.framesSet (s.holdsSecond s.nextTick)).secondTick (s.holdsSecond s.nextTick)
    (s.nextTick / second * second)).stepTick (s.stepDue s.nextTick)).judgeTick := rfl

section
variable (s : State)

theorem ppsFall_regs (t : Nat) : (s.ppsFall t).regs = s.regs := by
  unfold State.ppsFall
  split
  · split <;> rfl
  · rfl

theorem secondTick_atTick (sec : Bool) (t : Nat) : (s.secondTick sec t).tim.atTick = s.tim.atTick := by
  unfold State.secondTick
  split
  · exact (congrArg TimeBase.atTick (ppsRise_offPps _ t) :).trans (congrArg TimeBase.atTick (retune_unjudged s.loadEff) :)
  · rfl

theorem secondTick_onlyFields (sec : Bool) (t : Nat) : OnlyFields retuneFields s (s.secondTick sec t) := by
  have hrise (x : State) : OnlyFields [] x (x.ppsRise t) :=
    (OnlyFields.refl [] x).of_pps (State.ppsRise_keeps t (Keeps.refl x) (covers_within (by decide)))
  unfold State.secondTick
  split
  · exact (((OnlyFields.refl _ s).of_regs rfl).trans (retune_onlyFields s.loadEff)).trans ((hrise _).mono (by simp))
  · exact OnlyFields.refl _ s

theorem judgeTick_atTick : s.judgeTick.tim.atTick = s.tim.atTick := by
  unfold State.judgeTick
  split
  · exact frateJudge_atTick _
  · rfl

theorem judgeTick_fget {g : Fld} (a : judgeFields.all (·.apart g) = true)
    (n : within [.out, .rings, .icu, .reg .MOV_STS, .reg .ICU_ERR] (.reg g.reg) = false) : s.judgeTick.fget g = s.fget g := by
  unfold State.judgeTick
  split
  · exact frateJudge_fget _ a n
  · rfl

end

/-- With FRAME_EN set, or without a pending step, no step is made that a tick does not wait for. -/
theorem stepTick_none {s : State} (h : s.flag .TIM_CTL_FRAME_EN = true ∨ s.tim.stepOfs = none) : s.stepTick none = s := by
  rcases h with h | h
  · exact stepIfOff_enabled h
  · exact stepIfOff_noStep h

/-! Where no step is due. -/

theorem tickMoved_noStep {s : State} (h : s.stepDue s.nextTick = none) :
    s.tickMoved.tim.atTick = (s.nextTick, s.nextTick, s.nextNumber, false, s.tim.framesOn, s.tim.stepOfs) ∧
      s.tickMoved.flag .TIM_CTL_FRAME_EN = s.flag .TIM_CTL_FRAME_EN := by
  have htim := congrArg TimeBase.atTick (ppsFall_offPps (s.at_ s.nextTick) s.nextTick)
  have hen : ((s.at_ s.nextTick).ppsFall s.nextTick).flag .TIM_CTL_FRAME_EN = s.flag .TIM_CTL_FRAME_EN :=
    congrArg (· != 0) (State.fget_of_regs (ppsFall_regs (s.at_ s.nextTick) s.nextTick) _)
  simp only [TimeBase.atTick, Prod.mk.injEq] at htim
  obtain ⟨hnow, -, -, -, hon, hofs⟩ := htim
  unfold State.tickMoved
  rw [h]
  dsimp only
  split
  · refine ⟨?_, ?_⟩
    · simp only [TimeBase.atTick, Prod.mk.injEq]
      exact ⟨hnow, rfl, rfl, rfl, hon, hofs⟩
    · rw [State.flag_fset_apart _ _ _ _ (by decide), State.flag_raise_apart _ _ _ (by decide), State.flag_fset_apart _ _ _ _ (by decide)]
      exact hen
  · refine ⟨?_, hen⟩
    simp only [TimeBase.atTick, Prod.mk.injEq]
    exact ⟨hnow, rfl, rfl, rfl, hon, hofs⟩

/-- What follows the move leaves the instants, the frame and the step as they are, and every field that it does not write. -/
theorem tickTail_keeps {s : State} (sec : Bool) (t : Nat) (step : Option Int)
    (hs : step = none → s.flag .TIM_CTL_FRAME_EN = true ∨ s.tim.stepOfs = none) :
    ((s.secondTick sec t).stepTick step).judgeTick.tim.atTick = s.tim.atTick ∧
    ∀ g : Fld, (retuneFields ++ judgeFields).all (·.apart g) = true → within [.out, .rings, .icu, .reg .MOV_STS, .reg .ICU_ERR] (.reg g.reg) = false →
      ((s.secondTick sec t).stepTick step).judgeTick.flag g = s.flag g := by
  have htim := secondTick_atTick s sec t
  have hofs : (s.secondTick sec t).tim.stepOfs = s.tim.stepOfs := by
    simp only [TimeBase.atTick, Prod.mk.injEq] at htim
    obtain ⟨-, -, -, -, -, hofs⟩ := htim
    exact hofs
  have hfields := secondTick_onlyFields s sec t
  have hstep : ((s.secondTick sec t).stepTick step).tim.atTick = s.tim.atTick ∧
      OnlyFields [] (s.secondTick sec t) ((s.secondTick sec t).stepTick step) := by
    cases step with
    | some d => exact ⟨(congrArg TimeBase.atTick (ppsStep_offPps _ d) :).trans htim, ppsStep_onlyFields _ d⟩
    | none =>
      have hx : (s.secondTick sec t).flag .TIM_CTL_FRAME_EN = true ∨ (s.secondTick sec t).tim.stepOfs = none :=
        (hs rfl).imp (fun h => (hfields.flag (by decide)).trans h) fun h => hofs.trans h
      rw [stepTick_none hx]
      exact ⟨htim, OnlyFields.refl [] _⟩
  refine ⟨(judgeTick_atTick _).trans hstep.1, fun g a n => ?_⟩
  rw [List.all_append, Bool.and_eq_true] at a
  exact (congrArg (· != 0) (judgeTick_fget _ a.2 n)).trans ((hstep.2.flag rfl).trans (hfields.flag a.1))

theorem timTick_noStep {s : State} (h : s.stepDue s.nextTick = none) (hs : s.flag .TIM_CTL_FRAME_EN = true ∨ s.tim.stepOfs = none) :
    s.timTick.tim.atTick = (s.nextTick, s.nextTick, s.nextNumber, false,
      s.flag .TIM_CTL_FRAME_EN && (s.tim.framesOn || s.holdsSecond s.nextTick), s.tim.stepOfs) := by
  obtain ⟨hmoved, hen⟩ := tickMoved_noStep h
  simp only [TimeBase.atTick, Prod.mk.injEq] at hmoved
  obtain ⟨hnow, htick, hno, hstep, hon, hofs⟩ := hmoved
  rw [timTick_eq, h]
  refine (tickTail_keeps (s := s.tickMoved.framesSet (s.holdsSecond s.nextTick)) _ _ none fun _ => ?_).1.trans ?_
  · exact hs.imp (fun h => hen.trans h) fun h => hofs.trans h
  · simp only [State.framesSet, State.onTim_tim, TimeBase.atTick, hnow, htick, hno, hstep, hon, hofs, hen]

/-! Where one is. -/

theorem tickMoved_step {s : State} {d : Int} (h : s.stepDue s.nextTick = some d) :
    (s.tickMoved.tim.tickAt = ((s.nextTick : Int) + d).toNat ∧ s.tickMoved.tim.frameNo = s.nextNumber ∧ s.tickMoved.tim.stepped = true ∧
      s.tickMoved.tim.stepOfs = none) ∧
    s.tickMoved.flag .TIM_EVT_STEP_DONE = true ∧ s.tickMoved.flag .TIM_STS_STEP_PENDING = false := by
  unfold State.tickMoved
  rw [h]
  refine ⟨⟨rfl, rfl, rfl, rfl⟩, State.flag_raise_same _ _ (by decide) rfl, ?_⟩
  rw [State.flag_raise_apart _ _ _ (by decide), State.flag_fset_same _ _ _ (by decide) rfl]
  rfl

theorem timTick_step {s : State} {d : Int} (h : s.stepDue s.nextTick = some d) :
    (s.timTick.tim.tickAt = ((s.nextTick : Int) + d).toNat ∧ s.timTick.tim.frameNo = s.nextNumber ∧ s.timTick.tim.stepped = true ∧
      s.timTick.tim.stepOfs = none) ∧
    s.timTick.flag .TIM_EVT_STEP_DONE = true ∧ s.timTick.flag .TIM_STS_STEP_PENDING = false := by
  obtain ⟨⟨htick, hno, hstep, hofs⟩, hdone, hpend⟩ := tickMoved_step h
  obtain ⟨htim, hflag⟩ := tickTail_keeps (s := s.tickMoved.framesSet (s.holdsSecond s.nextTick)) (s.holdsSecond s.nextTick)
    (s.nextTick / second * second) (some d) fun h => by cases h
  simp only [TimeBase.atTick, Prod.mk.injEq] at htim
  obtain ⟨-, htick', hno', hstep', -, hofs'⟩ := htim
  rw [timTick_eq, h]
  exact ⟨⟨htick'.trans htick, hno'.trans hno, hstep'.trans hstep, hofs'.trans hofs⟩, (hflag _ (by decide) rfl).trans hdone,
    (hflag _ (by decide) rfl).trans hpend⟩

/-! ### What starts a frame (R67) -/

/-- The value that a table made from a list gives. -/
theorem get_filterMap (f : Nat → Nat) (l : List Nat) (n : Nat) :
    Tbl.get 0 (l.filterMap fun n => if f n = 0 then none else some (n, f n)) n = if n ∈ l then f n else 0 := by
  induction l with
  | nil => rfl
  | cons a l ih =>
    by_cases ha : f a = 0
    · rw [List.filterMap_cons_none (by simp [ha]), ih]
      by_cases hn : n = a
      · simp [hn, ha]
      · simp [hn]
    · rw [List.filterMap_cons_some (b := (a, f a)) (by simp [ha])]
      by_cases hn : a = n
      · simp [Tbl.get, Tbl.find, hn]
      · simp only [Tbl.get, Tbl.find, if_neg hn] at ih ⊢
        simp [ih, Ne.symm hn]

theorem trimTick_trim (s : State) {n : Nat} (h : n < 64) : Tbl.get 0 s.trimTick.tim.effTrim n = s.fgetN .TIM_TRIM_TRIM n :=
  (get_filterMap (s.fgetN .TIM_TRIM_TRIM) (upto 64) n).trans (if_pos (List.mem_range.2 h))

/-- What follows TIM_TRIMn at a frame boundary writes nothing of the time base. -/
theorem boundary_behind_trim {P : Part → Bool} {s₀ s : State} (h_ : CtxHost) (h : Keeps P s₀ s.policyTick.trimTick)
    (cv : Covers P [.out, .free, .pol, .ports, .links, .devs, .ctxs, .cmgr, .txns, .rings, .entries, .cmds, .sched, .deal, .slices, .icu, .pool,
      .twin, .smp, .audit, .mov, .hlt, .reg .GCTL_POLICY_STS, .reg .SCH_ADM_EVT, .reg .SCH_LAST_SWITCH, .reg .SCH_CTXCNT, .reg .PRT_STS,
      .reg .PRT_CHG, .reg .MOV_STS, .reg .ICU_ERR, .reg .SLC_STS, .reg .HLT_STS, .reg .HLT_EVT, .reg .HLT_POOL, .reg .HLT_RETIRED, .reg .SEC_EVT,
      .reg .SEC_AUDIT, .reg .GTH_CNT, .reg .GTH_DROP, .reg .CDR_EVT, .reg .CDR_FLG, .reg .SLT_EVT]) : Keeps P s₀ (s.boundary h_) := by
  simp only [covers_cons, covers_nil, and_true] at cv
  unfold State.boundary
  generalize s.policyTick.trimTick = y at h ⊢
  simp +contextual (maxDischargeDepth := 60) [h, cv]

/-- The parts that a tick writes behind TIM_TRIMn. -/
def startParts : List Part := [.out, .free, .pol, .ports, .links, .devs, .ctxs, .cmgr, .txns, .rings, .entries, .cmds, .sched, .deal, .slices, .icu,
  .pool, .twin, .smp, .audit, .mov, .hlt, .reg .GCTL_POLICY_STS, .reg .SCH_ADM_EVT, .reg .SCH_LAST_SWITCH, .reg .SCH_CTXCNT, .reg .SCH_DYN_CNT,
  .reg .PRT_STS, .reg .PRT_CHG, .reg .MOV_STS, .reg .ICU_ERR, .reg .SLC_STS, .reg .HLT_STS, .reg .HLT_EVT, .reg .HLT_POOL, .reg .HLT_RETIRED,
  .reg .SEC_EVT, .reg .SEC_AUDIT, .reg .TWN_STS, .reg .TWN_EVT, .reg .TWN_WARM, .reg .GTH_CNT, .reg .GTH_DROP, .reg .CDR_EVT, .reg .CDR_FLG,
  .reg .SLT_EVT]

theorem frameTick_behind_trim (s : State) (corr : List Int) (behind tTx : Nat) (h : CtxHost) :
    Keeps (within startParts) (s.frameEnd h).timTick.policyTick.trimTick (s.frameTick corr behind tTx h) :=
  State.settled_keeps (State.throttleTick_keeps behind (State.frameStart_keeps h corr tTx _
    (boundary_behind_trim h (Keeps.refl _) (covers_within (by decide))) (covers_within (by decide))) (covers_within (by decide)))
    (covers_within (by decide))

theorem policyTick_kept (s : State) : Keeps (within startParts) s s.policyTick := State.policyTick_keeps (Keeps.refl s) (covers_within (by decide))

/-- A tick leaves the time base as its own part does, but for TIM_TRIMn, which is in effect. -/
theorem frameTick_tim (s : State) (corr : List Int) (behind tTx : Nat) (h : CtxHost) :
    (s.frameTick corr behind tTx h).tim.atTick = (s.frameEnd h).timTick.tim.atTick ∧
      ∀ n < 64, Tbl.get 0 (s.frameTick corr behind tTx h).tim.effTrim n = s.fgetN .TIM_TRIM_TRIM n := by
  have htim : (s.frameTick corr behind tTx h).tim = (s.frameEnd h).timTick.policyTick.trimTick.tim :=
    (frameTick_behind_trim s corr behind tTx h).part .tim rfl
  have hpol : (s.frameEnd h).timTick.policyTick.tim = (s.frameEnd h).timTick.tim := (policyTick_kept _).part .tim rfl
  have htick : Keeps (within [.out, .tim, .rings, .icu, .reg .TIM_STS, .reg .TIM_EVT, .reg .TIM_FRATE_ACT, .reg .MOV_STS, .reg .ICU_ERR])
      (s.frameEnd h) (s.frameEnd h).timTick := State.timTick_keeps (Keeps.refl _) (covers_within (List.Subset.refl _))
  refine ⟨?_, fun n hn => ?_⟩
  · rw [htim]
    exact (congrArg TimeBase.atTick hpol :)
  · rw [htim, trimTick_trim _ hn, (policyTick_kept _).fgetN (g := .TIM_TRIM_TRIM) rfl n, htick.fgetN (g := .TIM_TRIM_TRIM) rfl n,
      (frameEnd_kept s h).fgetN (g := .TIM_TRIM_TRIM) rfl n]

theorem frameTick_flag (s : State) (corr : List Int) (behind tTx : Nat) (h : CtxHost) {g : Fld} (n : within startParts (.reg g.reg) = false) :
    (s.frameTick corr behind tTx h).flag g = (s.frameEnd h).timTick.flag g :=
  congrArg (· != 0) (((frameTick_behind_trim s corr behind tTx h).fgetN n 0).trans ((policyTick_kept _).fgetN n 0))

/-! ### FRAME_TICK -/

theorem answers_frameTick_noStep {s : State} {corr : List Int} {behind tTx : Nat} {h : CtxHost} (hd : s.stepDue s.nextTick = none)
    (hs : s.flag .TIM_CTL_FRAME_EN = true ∨ s.tim.stepOfs = none) : Answers (.frameTick corr behind tTx h) s fun t =>
    t.tim.now = s.nextTick ∧ t.tim.tickAt = s.nextTick ∧ t.tim.frameNo = frameNumber (s.rateFrom s.nextTick) s.nextTick ∧
    t.tim.stepped = false ∧
    t.tim.framesOn = (s.flag .TIM_CTL_FRAME_EN && (s.tim.framesOn || decide (s.tim.tickAt / 1000000000 < s.nextTick / 1000000000))) ∧
    ∀ n < 64, Tbl.get 0 t.tim.effTrim n = s.fgetN .TIM_TRIM_TRIM n := by
  obtain ⟨htim, htrim⟩ := frameTick_tim s corr behind tTx h
  have hk := frameEnd_timeKept s h
  have hnum : s.nextNumber = frameNumber (s.rateFrom s.nextTick) s.nextTick := by simp only [State.nextNumber, hd]
  have ht := timTick_noStep (s := s.frameEnd h) (by rw [hk.nextTick, hk.stepDue, hd]) (by rw [hk.ctl, hk.tim]; exact hs)
  rw [htim.symm, hk.nextTick, hk.nextNumber, hk.ctl, hk.tim, hnum, State.holdsSecond, hk.tim] at ht
  simp only [TimeBase.atTick, Prod.mk.injEq] at ht
  obtain ⟨hnow, htick, hno, hstep, hon, -⟩ := ht
  exact answers_of_exec rfl (fun P cv => execFrameTick_keeps corr behind tTx h (Keeps.refl s) cv) ⟨hnow, htick, hno, hstep, hon, htrim⟩

theorem answers_frameTick_step {s : State} {corr : List Int} {behind tTx : Nat} {h : CtxHost} {d : Int} (hd : s.stepDue s.nextTick = some d) :
    Answers (.frameTick corr behind tTx h) s fun t =>
    t.tim.tickAt = ((s.nextTick : Int) + d).toNat ∧ t.tim.frameNo = s.nextNumber ∧ t.tim.stepped = true ∧ t.tim.stepOfs = none ∧
    t.flag .TIM_EVT_STEP_DONE = true ∧ t.flag .TIM_STS_STEP_PENDING = false := by
  obtain ⟨htim, -⟩ := frameTick_tim s corr behind tTx h
  have hk := frameEnd_timeKept s h
  obtain ⟨⟨htick, hno, hstep, hofs⟩, hdone, hpend⟩ := timTick_step (s := s.frameEnd h) (d := d) (by rw [hk.nextTick, hk.stepDue, hd])
  rw [hk.nextTick] at htick
  rw [hk.nextNumber] at hno
  simp only [TimeBase.atTick, Prod.mk.injEq] at htim
  obtain ⟨-, htick', hno', hstep', -, hofs'⟩ := htim
  exact answers_of_exec rfl (fun P cv => execFrameTick_keeps corr behind tTx h (Keeps.refl s) cv)
    ⟨htick'.trans htick, hno'.trans hno, hstep'.trans hstep, hofs'.trans hofs, (frameTick_flag s corr behind tTx h rfl).trans hdone,
      (frameTick_flag s corr behind tTx h rfl).trans hpend⟩

/-- Settles O3: the time base's own part of the tick decides both clauses; what ends the frame before it and what starts the next behind it leave
the time base alone, but for TIM_TRIMn. -/
theorem frameTickAdvancesOrStepsTheTimeBase : Obligations.FrameTickAdvancesOrStepsTheTimeBase := by
  unfold Obligations.FrameTickAdvancesOrStepsTheTimeBase
  exact ⟨fun _ _ _ _ _ hd hs => answers_frameTick_noStep hd hs, fun _ _ _ _ _ _ hd => answers_frameTick_step hd⟩

end Sys2Proof.Machine
end

section
/-! What leaves on a link at once (R90), and hubs and modules that follow the time base (R54–R61). -/

namespace Sys2Proof.Machine

/-! ### A packet that leaves at once (R90) -/

theorem length_leBytes (n : Nat) : ∀ v, (leBytes n v).length = n := by
  induction n with
  | zero => intro v; rfl
  | succ n ih => intro v; simp [leBytes, ih]

theorem len_linkctl (typ seq arg frameNo : Nat) : (linkctl typ seq arg frameNo).len = 16 := by
  simp [linkctl, BusPkt.len, BusPkt.pkt, plainPkt, Linkctl.toBytes, length_leBytes]

theorem len_delayResp (seq t2 t3 : Nat) : (BusPkt.delayResp seq t2 t3).len = 32 := by
  simp [BusPkt.len, BusPkt.pkt, plainPkt, delayRespBytes, fineBytes, length_leBytes]

/-- An end that is free to send puts the packet on its line, with the departure crossing at the reference plane. -/
theorem sendOne_of_free {l : LinkEndId} {s : State} {p : BusPkt} (x : Int) (f : FreeToSend l p.len s) :
    s.sendOne l p x = s.emit (.send l (s.link l).rate (Kept.sent ⟨0, p, 0, 0⟩ (s.atPlane l x))) := by
  obtain ⟨hheld, htx, habs, htick⟩ := f
  have hspan : Kept.span ⟨0, p, 0, 0⟩ [] = p.len := by
    unfold Kept.span
    cases p <;> rfl
  have hw : s.waitsFrame l 0 ⟨0, p, 0, 0⟩ [] = false := by simp [State.waitsFrame, hheld, hspan, htick]
  simp [State.sendOne, State.launch, hw, State.putOn, htx, habs]

theorem sendCtl_of_free {l : LinkEndId} {s : State} (typ seq arg frameNo : Nat) (f : FreeToSend l 16 s) :
    s.sendCtl l typ seq arg frameNo = s.emit (.send l (s.link l).rate (linkctl typ seq arg frameNo)) := by
  rw [← len_linkctl typ seq arg frameNo] at f
  exact sendOne_of_free 0 f

/-- A packet that leaves or waits changes nothing of the devices. -/
theorem sendCtl_devs (s : State) (l : LinkEndId) (typ seq arg frameNo : Nat) : (s.sendCtl l typ seq arg frameNo).devs = s.devs :=
  Keeps.part (l := [.out, .links]) (State.sendCtl_keeps l typ seq arg frameNo (Keeps.refl s) (covers_within (List.Subset.refl _))) .devs rfl

theorem dev_of_devs {s t : State} (h : t.devs = s.devs) (d : Nat) : t.dev d = s.dev d := by simp only [State.dev, h]

/-! ### One device (R61) -/

theorem OnlyDev.refl (d : Nat) (s : State) : OnlyDev d s s := fun _ _ => rfl

theorem OnlyDev.trans {d : Nat} {s t u : State} (h : OnlyDev d s t) (k : OnlyDev d t u) : OnlyDev d s u := fun e n => (k e n).trans (h e n)

theorem OnlyDev.of_devs {d : Nat} {s t : State} (h : t.devs = s.devs) : OnlyDev d s t := fun e _ => dev_of_devs h e

theorem onDev_onlyDev (s : State) (d : Nat) (f : Device → Device) : OnlyDev d s (s.onDev d f) := fun _ n => s.dev_onDev_other f n

theorem onDelay_onlyDev (s : State) (d up : Nat) (f : Delay → Delay) : OnlyDev d s (s.onDelay d up f) := onDev_onlyDev s d _

theorem delay_onDelay_same (s : State) (d up : Nat) (f : Delay → Delay) : (s.onDelay d up f).delay d up = f (s.delay d up) := by
  simp [State.delay, State.onDelay]

/-! ### A FRAME at a device (R54–R57) -/

/-- The clock as a FRAME sets it (R56). -/
theorem dev_setClock (s : State) (d : Nat) (f : FrameBody) (tRx off : Int) :
    (((s.setClock d f tRx off).dev d).synced = true ∧ ((s.setClock d f tRx off).dev d).lastFrame = some f.frameNo ∧
      ((s.setClock d f tRx off).dev d).frameMiss = 0) ∧
    if f.stepped = true ∨ (s.dev d).synced = false then
      ((s.setClock d f tRx off).dev d).clk = ((s.dev d).slewTo tRx).clk + off ∧ ((s.setClock d f tRx off).dev d).slew = 0
    else ((s.setClock d f tRx off).dev d).clk = ((s.dev d).slewTo tRx).clk ∧ ((s.setClock d f tRx off).dev d).slew = off := by
  have hsy : ((s.dev d).slewTo tRx).synced = (s.dev d).synced := rfl
  refine ⟨by simp [State.setClock], ?_⟩
  by_cases h : f.stepped = true ∨ (s.dev d).synced = false
  · simp [State.setClock, hsy, h]
  · simp [State.setClock, hsy, h]

/-- What of a device a FRAME sets, apart from the measurement of its links. -/
def Device.clockOf (v : Device) : Bool × Option Nat × Nat × Int × Int := (v.synced, v.lastFrame, v.frameMiss, v.clk, v.slew)

theorem sendDelayReq_devs (s : State) (d up : Nat) (t1 : Int) :
    OnlyDev d s (s.sendDelayReq d up t1) ∧ ((s.sendDelayReq d up t1).dev d).clockOf = (s.dev d).clockOf := by
  have hsent (p : BusPkt) : (s.sendOne (.dev d up) p t1).devs = s.devs :=
    Keeps.part (l := [.out, .links]) (State.sendOne_keeps (.dev d up) p t1 (Keeps.refl s) (covers_within (List.Subset.refl _))) .devs rfl
  unfold State.sendDelayReq
  dsimp only
  split
  · exact ⟨onDelay_onlyDev _ _ _ _, by simp [State.onDelay, Device.clockOf]⟩
  · refine ⟨(OnlyDev.of_devs (hsent _)).trans (onDelay_onlyDev _ _ _ _), ?_⟩
    simp [State.onDelay, Device.clockOf, dev_of_devs (hsent _)]

theorem frameCame_devs (s : State) (d up : Nat) (tRx : Int) : (s.frameCame d up tRx).devs = s.devs :=
  Keeps.part (l := [.out, .links, .txns]) (State.frameCame_keeps d up tRx (Keeps.refl s) (covers_within (List.Subset.refl _))) .devs rfl

theorem forwardFrame_devs (s : State) (d : Nat) (f : FrameBody) (down tRx : Int) (tTx : List Int) :
    (s.forwardFrame d f down tRx tTx).devs = s.devs :=
  Keeps.part (l := [.out, .links]) (State.forwardFrame_keeps d f down tRx tTx (Keeps.refl s) (covers_within (List.Subset.refl _))) .devs rfl

/-- The clock stands as a FRAME set it, whatever else has left and been measured since. -/
theorem setClock_stays {s c t : State} {d : Nat} {f : FrameBody} {tRx off : Int} (hc : c.devs = (s.setClock d f tRx off).devs)
    (ho : OnlyDev d c t) (ht : (t.dev d).clockOf = (c.dev d).clockOf) :
    (t.dev d).synced = true ∧ (t.dev d).lastFrame = some f.frameNo ∧ (t.dev d).frameMiss = 0 ∧
      (if f.stepped = true ∨ (s.dev d).synced = false then (t.dev d).clk = ((s.dev d).slewTo tRx).clk + off ∧ (t.dev d).slew = 0
       else (t.dev d).clk = ((s.dev d).slewTo tRx).clk ∧ (t.dev d).slew = off) ∧ OnlyDev d s t := by
  obtain ⟨⟨hsync, hlast, hmiss⟩, hclk⟩ := dev_setClock s d f tRx off
  rw [dev_of_devs hc] at ht
  simp only [Device.clockOf, Prod.mk.injEq] at ht
  obtain ⟨h1, h2, h3, h4, h5⟩ := ht
  rw [h1, h2, h3, h4, h5]
  exact ⟨hsync, hlast, hmiss, hclk, ((onDev_onlyDev s d _).trans (OnlyDev.of_devs hc)).trans ho⟩

/-- What leaves behind a FRAME that set the clock: a hub's copies, and what waited for it. -/
def State.passFrame (s : State) (d up : Nat) (f : FrameBody) (down tRx : Int) (tTx : List Int) : State :=
  (if (s.dev d).kind = 1 then s else s.forwardFrame d f down tRx tTx).frameCame d up tRx

theorem passFrame_devs (s : State) (d up : Nat) (f : FrameBody) (down tRx : Int) (tTx : List Int) :
    (s.passFrame d up f down tRx tTx).devs = s.devs := by
  unfold State.passFrame
  rw [frameCame_devs]
  split
  · rfl
  · exact forwardFrame_devs ..

theorem kind_setClock (s : State) (d : Nat) (f : FrameBody) (tRx off : Int) : ((s.setClock d f tRx off).dev d).kind = (s.dev d).kind := by
  simp only [State.setClock, State.dev_onDev_same]
  split <;> rfl

/-- What holds of the value that an option may have fails for none. -/
theorem any_not_eq_false {α : Type} {o : Option α} {p : α → Bool} (h : ∀ a, o = some a → p a = true) : (o.any fun a => !p a) = false := by
  cases o with
  | none => rfl
  | some a => simp [h a rfl]

/-- A FRAME later than any applied, at a device whose link delay is known: the clock is set by how far it was off, and a measurement may follow. -/
theorem exec_frameReceive {s : State} {d up : Nat} {b : List Byte} (tRx t1 : Int) (tTx : List Int) {down off : Int} {f : FrameBody}
    (hf : FrameBody.ofBytes b = f) (hb : frameBad f = false) (hu : s.upOf d = some up)
    (hl : ∀ n, (s.dev d).lastFrame = some n → later32 f.frameNo n = true) (hd : (s.delay d up).down = some down)
    (hoff : frameStart f - (tRx - f.correction - down) = off) :
    exec (.frameReceive d up b tRx tTx t1) s = .next (
      if f.frameNo % 256 == 0 || (s.delay d up).reqAgain then ((s.setClock d f tRx off).passFrame d up f down tRx tTx).sendDelayReq d up t1
      else (s.setClock d f tRx off).passFrame d up f down tRx tTx) := by
  have hnew : (s.upOf d != some up || (s.dev d).lastFrame.any fun n => !later32 f.frameNo n) = false := by
    rw [hu, any_not_eq_false hl]
    simp
  change execFrameReceive d up b tRx tTx t1 s = _
  unfold execFrameReceive
  dsimp only
  rw [hf, hb, if_neg Bool.false_ne_true, hnew, if_neg Bool.false_ne_true, hd]
  dsimp only
  rw [hoff, State.passFrame, kind_setClock]

theorem answers_frameReceive {s : State} {d up : Nat} {b : List Byte} {f : FrameBody} {tRx t1 down : Int} {tTx : List Int}
    (hf : FrameBody.ofBytes b = f) (hb : frameBad f = false) (hu : s.upOf d = some up)
    (hl : ∀ n, (s.dev d).lastFrame = some n → later32 f.frameNo n = true) (hd : (s.delay d up).down = some down) :
    Answers (.frameReceive d up b tRx tTx t1) s fun t =>
      (t.dev d).synced = true ∧ (t.dev d).lastFrame = some f.frameNo ∧ (t.dev d).frameMiss = 0 ∧
      (let off := frameStart f - (tRx - f.correction - down)
       let v := (s.dev d).slewTo tRx
       if f.stepped = true ∨ (s.dev d).synced = false then (t.dev d).clk = v.clk + off ∧ (t.dev d).slew = 0
       else (t.dev d).clk = v.clk ∧ (t.dev d).slew = off) ∧ OnlyDev d s t := by
  generalize hoff : frameStart f - (tRx - f.correction - down) = off
  refine answers_of_exec (exec_frameReceive tRx t1 tTx hf hb hu hl hd hoff)
    (fun P cv => execFrameReceive_keeps d up b tRx tTx t1 (Keeps.refl s) cv) ?_
  have hc := passFrame_devs (s.setClock d f tRx off) d up f down tRx tTx
  split
  · exact setClock_stays hc (sendDelayReq_devs _ d up t1).1 (sendDelayReq_devs _ d up t1).2
  · exact setClock_stays hc (OnlyDev.refl d _) rfl

theorem answers_frameReceive_bad {s : State} {d up : Nat} {b : List Byte} {tRx t1 : Int} {tTx : List Int}
    (hb : frameBad (FrameBody.ofBytes b) = true) : Answers (.frameReceive d up b tRx tTx t1) s fun t =>
      t.dev d = { s.dev d with badFrames := (s.dev d).badFrames + 1 } ∧ OnlyDev d s t ∧ t.out = s.out ∧ t.links = s.links := by
  have e : exec (.frameReceive d up b tRx tTx t1) s = .next (s.onDev d fun v => { v with badFrames := v.badFrames + 1 }) := by
    change execFrameReceive d up b tRx tTx t1 s = _
    simp only [execFrameReceive, if_pos hb]
  exact answers_of_exec e (fun P cv => execFrameReceive_keeps d up b tRx tTx t1 (Keeps.refl s) cv)
    ⟨State.dev_onDev_same .., onDev_onlyDev _ _ _, rfl, rfl⟩

/-! ### DELAY_REQ at the port above (R57, R79) -/

theorem leNat_lt (b : List Byte) : leNat b < 256 ^ b.length := by
  induction b with
  | nil => simp [leNat]
  | cons x b ih =>
    have hx := x.isLt
    simp only [leNat, List.length_cons, pow_succ]
    omega

theorem delayReqMean_lt (b : List Byte) : delayReqMean b < 2 ^ 32 :=
  calc leNat (Sys2Proof.slice 4 4 b) < 256 ^ (Sys2Proof.slice 4 4 b).length := leNat_lt _
    _ ≤ 256 ^ 4 := Nat.pow_le_pow_right (by decide) (by simp [Sys2Proof.slice])
    _ = 2 ^ 32 := by norm_num

/-- LAST_MEAN as the end of a port shows it. -/
def State.keepMean (s : State) (p : PortId) (m : Nat) : State :=
  match p with
  | .root n => s.fsetN .TIM_PDLY_MEAN n m
  | .hub _ _ => s.onPort p fun x => { x with lastMean := m }

/-- The answer to a DELAY_REQ. -/
def State.answerDelay (s : State) (p : PortId) (b : List Byte) (t2 t3 : Nat) : State :=
  s.sendOne (.port p) (.delayResp (delayReqSeq b) ((t2 : Int) - s.trimOf (.port p)).toNat t3) t3

theorem portState_keepMean (s : State) (p : PortId) (m : Nat) : (s.keepMean p m).portState p = s.portState p := by
  cases p with
  | root n => exact s.fgetN_apart .TIM_PDLY_MEAN .PRT_STS_STATE n _ m (by decide)
  | hub d i => rfl

theorem answerDelay_keeps (s : State) (p : PortId) (b : List Byte) (t2 t3 : Nat) : Keeps (within [.out, .links]) s (s.answerDelay p b t2 t3) :=
  State.sendOne_keeps (.port p) _ t3 (Keeps.refl s) (covers_within (List.Subset.refl _))

theorem exec_delayReqReceive {s : State} {p : PortId} {b : List Byte} {t2 t3 : Nat} (ha : s.absentEnd (.port p) = false) :
    exec (.delayReqReceive p b t2 t3) s = .next (
      if delayReqMean b ≠ 2 ^ 32 - 1 ∧ 2560000 < delayReqMean b ∧ (s.portState p = 4 ∨ s.portState p = 5) then
        ((s.answerDelay p b t2 t3).keepMean p (delayReqMean b)).leave p 9 [.PRT_CHG_ERROR]
      else (s.answerDelay p b t2 t3).keepMean p (delayReqMean b)) := by
  have hm := Nat.mod_eq_of_lt (delayReqMean_lt b)
  have hst : ((s.answerDelay p b t2 t3).keepMean p (delayReqMean b)).portState p = s.portState p :=
    (portState_keepMean ..).trans ((answerDelay_keeps s p b t2 t3).fgetN (g := .PRT_STS_STATE) rfl _)
  change execDelayReqReceive p b t2 t3 s = _
  rw [← hst]
  unfold execDelayReqReceive
  rw [if_neg (by simp [ha])]
  rw [apply_ite Host.Outcome.next]
  cases p <;> simp only [hm] <;> rfl

theorem exec_delayReqReceive_near {s : State} {p : PortId} {b : List Byte} {t2 t3 : Nat} (hm : delayReqMean b ≤ 2560000 ∨ delayReqMean b = 2 ^ 32 - 1)
    (f : FreeToSend (.port p) 32 s) : exec (.delayReqReceive p b t2 t3) s =
      .next ((s.emit (.send (.port p) (s.link (.port p)).rate (.delayResp (delayReqSeq b) ((t2 : Int) - s.trimOf (.port p)).toNat
        (s.atPlane (.port p) t3).toNat))).keepMean p (delayReqMean b)) := by
  have hs : s.answerDelay p b t2 t3 = s.emit (.send (.port p) (s.link (.port p)).rate (.delayResp (delayReqSeq b)
      ((t2 : Int) - s.trimOf (.port p)).toNat (s.atPlane (.port p) t3).toNat)) := by
    rw [← len_delayResp (delayReqSeq b) ((t2 : Int) - s.trimOf (.port p)).toNat t3] at f
    exact sendOne_of_free t3 f
  rw [exec_delayReqReceive f.2.2.1, if_neg (by omega), hs]

theorem answers_delayReq_root {s : State} {n : Nat} {b : List Byte} {t2 t3 : Nat} (hm : delayReqMean b ≤ 2560000 ∨ delayReqMean b = 2 ^ 32 - 1)
    (f : FreeToSend (.port (.root n)) 32 s) : Answers (.delayReqReceive (.root n) b t2 t3) s fun t =>
      t.out = s.out ++ [.send (.port (.root n)) (s.link (.port (.root n))).rate (.delayResp (delayReqSeq b)
        ((t2 : Int) - s.trimOf (.port (.root n))).toNat ((t3 : Int) + s.trimOf (.port (.root n))).toNat)] ∧
      t.fgetN .TIM_PDLY_MEAN n = delayReqMean b ∧ OnlyFields [.TIM_PDLY_MEAN] s t := by
  refine answers_of_exec (exec_delayReqReceive_near hm f) (fun P cv => execDelayReqReceive_keeps (.root n) b t2 t3 (Keeps.refl s) cv) ⟨rfl, ?_, ?_⟩
  · exact (State.fgetN_fsetN_same _ .TIM_PDLY_MEAN n _ (by decide)).trans (Nat.mod_eq_of_lt (delayReqMean_lt b))
  · exact ((OnlyFields.refl _ s).of_regs rfl).fsetN (List.mem_singleton.2 rfl) n _

theorem answers_delayReq_hub {s : State} {d i : Nat} {b : List Byte} {t2 t3 : Nat} (hm : delayReqMean b ≤ 2560000 ∨ delayReqMean b = 2 ^ 32 - 1)
    (f : FreeToSend (.port (.hub d i)) 32 s) : Answers (.delayReqReceive (.hub d i) b t2 t3) s fun t =>
      t.out = s.out ++ [.send (.port (.hub d i)) (s.link (.port (.hub d i))).rate (.delayResp (delayReqSeq b) t2 t3)] ∧
      t.port (.hub d i) = { s.port (.hub d i) with lastMean := delayReqMean b } ∧ OnlyPort (.hub d i) s t ∧ OnlyFields [] s t := by
  have h2 : ((t2 : Int) - s.trimOf (.port (.hub d i))).toNat = t2 := by simp [State.trimOf]
  have h3 : (s.atPlane (.port (.hub d i)) t3).toNat = t3 := by simp [State.atPlane, State.trimOf]
  have e := exec_delayReqReceive_near (t2 := t2) (t3 := t3) hm f
  rw [h2, h3] at e
  exact answers_of_exec e (fun P cv => execDelayReqReceive_keeps (.hub d i) b t2 t3 (Keeps.refl s) cv)
    ⟨rfl, State.port_onPort_same .., fun q hq => State.port_onPort_other _ _ hq, (OnlyFields.refl _ s).of_regs rfl⟩

/-- The parts that a change of a port's state writes behind it. -/
def portTail : List Part := [.out, .links, .devs, .rings, .icu, .cmds, .ctxs, .cmgr, .txns, .entries, .deal, .pool, .smp, .reg .SCH_CTXCNT,
  .reg .MOV_STS, .reg .ICU_ERR, .reg .GTH_CNT, .reg .GTH_DROP, .reg .CDR_EVT, .reg .CDR_FLG]

/-- A port that has left for ERROR, before its change bit: its end holds nothing of the link, and no command is under way there. -/
def State.failed (s : State) (p : PortId) : State :=
  (((s.putState p 9).endFresh (.port p)).showRate p).onPort p fun x => { x with
    resetPending := false, prop := false, connecting := false, susp := .none, wakeHeld := false, suspByProp := false,
    wakeTraining := false, rateChg := none, rateNow := none, cfgWant := none, emptyTo := none }

theorem portState_failed (s : State) (p : PortId) : (s.failed p).portState p = 9 := by
  have hf : Keeps (within portTail) (s.putState p 9) ((s.putState p 9).endFresh (.port p)) :=
    State.endFresh_keeps _ (Keeps.refl _) (covers_within (by decide))
  have h9 : (s.putState p 9).portState p = 9 := State.fgetN_fsetN_same s .PRT_STS_STATE p.code 9 (by decide)
  calc (s.failed p).portState p = ((s.putState p 9).endFresh (.port p)).fgetN .PRT_STS_STATE p.code :=
        State.fgetN_apart _ .PRT_STS_RATE .PRT_STS_STATE p.code p.code _ (by decide)
    _ = 9 := (hf.fgetN rfl _).trans h9

/-- A port that leaves for ERROR shows it in PRT_STSn and in PRT_CHGn. -/
theorem leave_error (s : State) (p : PortId) :
    (s.leave p 9 [.PRT_CHG_ERROR]).portState p = 9 ∧ (s.leave p 9 [.PRT_CHG_ERROR]).fgetN .PRT_CHG_ERROR p.code = 1 := by
  have hr : ((s.failed p).raiseN .PRT_CHG_ERROR p.code).portState p = 9 :=
    ((s.failed p).fgetN_apart .PRT_CHG_ERROR .PRT_STS_STATE p.code p.code 1 (by decide)).trans (portState_failed s p)
  have hr1 : ((s.failed p).raiseN .PRT_CHG_ERROR p.code).fgetN .PRT_CHG_ERROR p.code = 1 :=
    (s.failed p).fgetN_fsetN_same .PRT_CHG_ERROR p.code 1 (by decide)
  have hk : Keeps (within portTail) ((s.failed p).raiseN .PRT_CHG_ERROR p.code) (s.leave p 9 [.PRT_CHG_ERROR]) := by
    have hc : Keeps (within portTail) ((s.failed p).raiseN .PRT_CHG_ERROR p.code)
        (((s.failed p).change p [.PRT_CHG_ERROR]).rateCmd p stNoResponse 0) := by
      refine State.rateCmd_keeps p _ 0 ?_ (covers_within (by decide))
      cases p with
      | root n => exact State.event1_keeps _ _ _ _ _ (Keeps.refl _) (covers_within (by decide))
      | hub d i => exact State.onDev_keeps d _ (Keeps.refl _) (covers_within (by decide))
    cases p with
    | root n =>
      unfold State.leave
      dsimp only
      split
      · exact State.subtreeGone_keeps n 0 0 false hc (covers_within (by decide))
      · exact hc
    | hub d i =>
      unfold State.leave
      dsimp only
      split
      · exact State.hubSettle_keeps d _ hc (covers_within (by decide))
      · exact hc
  exact ⟨(hk.fgetN rfl _).trans hr, (hk.fgetN rfl _).trans hr1⟩

theorem answers_delayReq_far {s : State} {p : PortId} {b : List Byte} {t2 t3 : Nat} (ha : s.absentEnd (.port p) = false)
    (hm : delayReqMean b ≠ 2 ^ 32 - 1) (hf : 2560000 < delayReqMean b) (hp : s.portState p = 4 ∨ s.portState p = 5) :
    Answers (.delayReqReceive p b t2 t3) s fun t => t.portState p = 9 ∧ t.fgetN .PRT_CHG_ERROR p.code = 1 := by
  have e := exec_delayReqReceive (b := b) (t2 := t2) (t3 := t3) ha
  rw [if_pos ⟨hm, hf, hp⟩] at e
  exact answers_of_exec e (fun P cv => execDelayReqReceive_keeps p b t2 t3 (Keeps.refl s) cv) (leave_error _ p)

/-! ### DELAY_RESP at the requester (R58) -/

theorem near5_iff (a b : Int) : near5 a b = true ↔ (a - b).natAbs ≤ 1280 := by simp [near5]

/-- The mean that the four crossings give. -/
def respMean (b : List Byte) (t1 t4 : Int) : Int := ((t4 - t1) - ((delayRespT3 b : Int) - delayRespT2 b)) / 2

/-- A result that fits the last one, or two rejected ones that fit each other. -/
def Delay.fits (m : Delay) (x : Int) : Bool :=
  m.mean.all (near5 x) || (((x :: m.rejects).take 3).length == 3 &&
    ((x :: m.rejects).take 3).all fun a => ((x :: m.rejects).take 3).all fun b => near5 a b)

theorem exec_delayRespReceive {s : State} {d up : Nat} {b : List Byte} {t1 t4 : Int} (hs : delayRespSeq b = (s.delay d up).reqSeq)
    (h1 : (s.delay d up).reqT1 = some t1) : exec (.delayRespReceive d up b t4) s = .next (
      if t4 - t1 ≤ 10240000 ∧ 0 ≤ respMean b t1 t4 ∧ (s.delay d up).fits (respMean b t1 t4) = true then
        s.onDelay d up fun m => { m with mean := some (respMean b t1 t4), rejects := [], reqT1 := none }
      else s.onDelay d up fun m => { m with rejects := (respMean b t1 t4 :: (s.delay d up).rejects).take 3, reqT1 := none }) := by
  change execDelayRespReceive d up b t4 s = _
  simp only [execDelayRespReceive, h1, hs, ne_eq, not_true_eq_false, if_false, Delay.fits, Bool.or_eq_true, respMean]
  split <;> rfl

/-- A result that is taken. -/
theorem answers_delayResp_taken {s : State} {d up : Nat} {b : List Byte} {t1 t4 x : Int} (hs : delayRespSeq b = (s.delay d up).reqSeq)
    (h1 : (s.delay d up).reqT1 = some t1) (hr : t4 - t1 ≤ 10240000) (hx : respMean b t1 t4 = x) (h0 : 0 ≤ x)
    (hf : (s.delay d up).fits x = true) : Answers (.delayRespReceive d up b t4) s fun t =>
      t.delay d up = { s.delay d up with mean := some x, rejects := [], reqT1 := none } ∧ OnlyDev d s t := by
  have e := exec_delayRespReceive (t4 := t4) hs h1
  rw [hx, if_pos ⟨hr, h0, hf⟩] at e
  exact answers_of_exec e (fun P cv => execDelayRespReceive_keeps d up b t4 (Keeps.refl s) cv) ⟨delay_onDelay_same .., onDelay_onlyDev _ _ _ _⟩

/-- One that is kept beside the last. -/
theorem answers_delayResp_kept {s : State} {d up : Nat} {b : List Byte} {t1 t4 x : Int} (hs : delayRespSeq b = (s.delay d up).reqSeq)
    (h1 : (s.delay d up).reqT1 = some t1) (hx : respMean b t1 t4 = x)
    (hf : ¬ (t4 - t1 ≤ 10240000 ∧ 0 ≤ x ∧ (s.delay d up).fits x = true)) : Answers (.delayRespReceive d up b t4) s fun t =>
      t.delay d up = { s.delay d up with rejects := (x :: (s.delay d up).rejects).take 3, reqT1 := none } ∧ OnlyDev d s t := by
  have e := exec_delayRespReceive (t4 := t4) hs h1
  rw [hx, if_neg hf] at e
  exact answers_of_exec e (fun P cv => execDelayRespReceive_keeps d up b t4 (Keeps.refl s) cv) ⟨delay_onDelay_same .., onDelay_onlyDev _ _ _ _⟩

theorem fits_of_near {m : Delay} {x : Int} (h : ∀ y, m.mean = some y → (x - y).natAbs ≤ 1280) : m.fits x = true := by
  have hn : m.mean.all (near5 x) = true := by
    cases hm : m.mean with
    | none => rfl
    | some y => exact (near5_iff x y).2 (h y hm)
  simp [Delay.fits, hn]

theorem not_fits_of_far {m : Delay} {x y : Int} (hm : m.mean = some y) (hy : 1280 < (x - y).natAbs) (hr : m.rejects.length < 2) :
    m.fits x = false := by
  have hn : near5 x y = false := by simpa [near5] using hy
  have hlen : ((x :: m.rejects).take 3).length ≠ 3 := by
    rw [List.length_take, List.length_cons]
    omega
  rw [Delay.fits, hm, beq_false_of_ne hlen, Bool.false_and, Bool.or_false]
  exact hn

theorem fits_of_three {m : Delay} {x y z : Int} (hr : m.rejects = [y, z]) (hxy : (x - y).natAbs ≤ 1280) (hxz : (x - z).natAbs ≤ 1280)
    (hyz : (y - z).natAbs ≤ 1280) : m.fits x = true := by
  have hyx : (y - x).natAbs ≤ 1280 := by omega
  have hzx : (z - x).natAbs ≤ 1280 := by omega
  have hzy : (z - y).natAbs ≤ 1280 := by omega
  simp [Delay.fits, hr, near5, hxy, hxz, hyz, hyx, hzx, hzy]

/-! ### Requests without an answer, and sync lost (R58, R61) -/

theorem answers_delayReqAbandon {s : State} {d up : Nat} {t1 : Int} (h : (s.delay d up).reqT1 = some t1) :
    Answers (.delayReqAbandon d up) s fun t => t.delay d up = { s.delay d up with reqT1 := none, reqAgain := true } ∧ OnlyDev d s t := by
  have e : exec (.delayReqAbandon d up) s = .next (s.onDelay d up fun m => { m with reqT1 := none, reqAgain := true }) := if_pos (by simp [h])
  exact answers_of_exec e (fun P cv => execDelayReqAbandon_keeps d up (Keeps.refl s) cv) ⟨delay_onDelay_same .., onDelay_onlyDev _ _ _ _⟩

theorem answers_syncLost {s : State} {d : Nat} (h : 16 ≤ (s.dev d).frameMiss) :
    Answers (.syncLost d) s fun t => t.dev d = { s.dev d with synced := false } ∧ OnlyDev d s t := by
  have e : exec (.syncLost d) s = .next (s.onDev d fun v => { v with synced := false }) := congrArg Host.Outcome.next (if_pos h)
  exact answers_of_exec e (fun P cv => execSyncLost_keeps d (Keeps.refl s) cv) ⟨State.dev_onDev_same .., onDev_onlyDev _ _ _⟩

/-- Settles O4: a FRAME by what sets the clock and what the sends behind it leave of the devices, a DELAY_REQ by the answer that leaves at once, and
a DELAY_RESP by whether its mean fits. -/
theorem devicesFollowTheTimeBase : Obligations.DevicesFollowTheTimeBase := by
  unfold Obligations.DevicesFollowTheTimeBase
  refine ⟨fun _ _ _ _ _ _ _ _ _ hf hb hu hl hd => answers_frameReceive hf hb hu hl hd, fun _ _ _ _ _ _ _ hb => answers_frameReceive_bad hb,
    fun _ _ _ _ _ hm f => answers_delayReq_root hm f, fun _ _ _ _ _ _ hm f => answers_delayReq_hub hm f,
    fun _ _ _ _ _ ha hm hf hp => answers_delayReq_far ha hm hf hp, ?near, ?far, ?third, ?slow,
    fun _ _ _ _ h => answers_delayReqAbandon h, fun _ _ h => answers_syncLost h⟩
  case near =>
    intro s d up b t1 t2 t3 t4 e2 e3 hs h1 hr h0 hm
    rw [e2, e3] at h0 hm ⊢
    exact answers_delayResp_taken hs h1 hr rfl h0 (fits_of_near hm)
  case far =>
    intro s d up b t1 t2 t3 t4 m x e2 e3 hs h1 hx hm hf hl
    rw [e2, e3] at hx
    have ht : (x :: (s.delay d up).rejects).take 3 = x :: (s.delay d up).rejects := List.take_of_length_le (by simp; omega)
    simpa only [ht] using answers_delayResp_kept hs h1 hx.symm (by simp [not_fits_of_far hm hf hl])
  case third =>
    intro s d up b t1 t2 t3 t4 x y z e2 e3 hs h1 hr hx h0 hrej hxy hxz hyz
    rw [e2, e3] at hx
    exact answers_delayResp_taken hs h1 hr hx.symm h0 (fits_of_three hrej hxy hxz hyz)
  case slow =>
    intro s d up b t1 t4 hs h1 hr
    obtain ⟨t, e, ho, hd, hdev⟩ := answers_delayResp_kept (t4 := t4) hs h1 rfl (fun h => absurd h.1 (by omega))
    exact ⟨t, e, ho, by rw [hd], by rw [hd], hdev⟩

end Sys2Proof.Machine
end

section
/-! The ownership token of a dual-upstream hub (R381–R384), and the local tick of hubs and modules (R61, R108). -/

namespace Sys2Proof.Machine

/-! ### Sending: what it appends, and what it leaves of the link ends -/

/-- Every link end is as before but for what waits there for the next FRAME. -/
def SameButHeld (s t : State) : Prop := ∀ k, ∃ h, t.link k = { s.link k with held := h }

theorem SameButHeld.refl (s : State) : SameButHeld s s := fun k => ⟨(s.link k).held, rfl⟩

theorem SameButHeld.trans {s t u : State} (h : SameButHeld s t) (k : SameButHeld t u) : SameButHeld s u := fun l => by
  obtain ⟨a, ha⟩ := h l
  obtain ⟨b, hb⟩ := k l
  exact ⟨b, by rw [hb, ha]⟩

theorem link_congr {s : State} {l k : LinkEndId} (h : k.code = l.code) : s.link k = s.link l := by simp only [State.link, h]

/-- A link end that is changed alone. -/
theorem link_onLink (s : State) (l k : LinkEndId) (f : LinkEnd → LinkEnd) :
    (s.onLink l f).link k = if k.code = l.code then f (s.link k) else s.link k := by
  split
  · next h => rw [link_congr h, State.link_onLink_same, link_congr h]
  · next h => exact s.link_onLink_other f h

theorem onLink_held (s : State) (l : LinkEndId) (g : LinkEnd → List Kept) : SameButHeld s (s.onLink l fun e => { e with held := g e }) := fun k => by
  rw [link_onLink]
  split
  · exact ⟨_, rfl⟩
  · exact ⟨(s.link k).held, rfl⟩

theorem putOn_links (s : State) (l : LinkEndId) (p : BusPkt) : (s.putOn l p).links = s.links :=
  Keeps.part (l := [.out]) (State.putOn_keeps l p (Keeps.refl s) (covers_within (List.Subset.refl _))) .links rfl

theorem SameButHeld.of_links {s t : State} (h : t.links = s.links) : SameButHeld s t := fun k => ⟨(s.link k).held, by simp only [State.link, h]⟩

theorem launch_held (l : LinkEndId) (x : Int) (ks : List Kept) : ∀ (s : State) (off : Nat), SameButHeld s (s.launch l x off ks) := by
  induction ks with
  | nil => exact fun s _ => SameButHeld.refl s
  | cons k r ih =>
    intro s off
    unfold State.launch
    split
    · exact (onLink_held s l fun e => e.held ++ [k]).trans (ih _ _)
    · exact (SameButHeld.of_links (putOn_links s l _)).trans (ih _ _)

theorem launch_out (l : LinkEndId) (x : Int) (ks : List Kept) : ∀ (s : State) (off : Nat), s.out <+: (s.launch l x off ks).out := by
  induction ks with
  | nil => exact fun s _ => List.prefix_refl s.out
  | cons k r ih =>
    intro s off
    unfold State.launch
    split
    · exact ih (s.onLink l fun e => { e with held := e.held ++ [k] }) off
    · refine List.IsPrefix.trans ?_ (ih _ _)
      unfold State.putOn
      split
      · exact List.prefix_refl s.out
      · exact List.prefix_append s.out _

theorem sendCtl_held (s : State) (l : LinkEndId) (typ seq arg frameNo : Nat) : SameButHeld s (s.sendCtl l typ seq arg frameNo) :=
  launch_held l 0 _ s 0

/-- Something leaves or waits to leave, and nothing else changes of the devices and the link ends. -/
structure OnlySends (s t : State) : Prop where
  devs : t.devs = s.devs
  held : SameButHeld s t
  out : s.out <+: t.out

theorem OnlySends.refl (s : State) : OnlySends s s := ⟨rfl, .refl s, List.prefix_refl _⟩

theorem OnlySends.sendCtl {s t : State} (h : OnlySends s t) (l : LinkEndId) (typ seq arg frameNo : Nat) :
    OnlySends s (t.sendCtl l typ seq arg frameNo) :=
  ⟨(sendCtl_devs t l typ seq arg frameNo).trans h.devs, h.held.trans (sendCtl_held t l typ seq arg frameNo), h.out.trans (launch_out l 0 _ t 0)⟩

/-! ### The token (R382–R384) -/

theorem onToken_onlyDev (s : State) (d : Nat) (f : HubToken → HubToken) : OnlyDev d s (s.onToken d f) := onDev_onlyDev s d _

theorem dev_onToken (s : State) (d : Nat) (f : HubToken → HubToken) : (s.onToken d f).dev d = { s.dev d with token := f (s.dev d).token } :=
  State.dev_onDev_same ..

/-- The token of a device whose holder has become `up`. -/
def HubToken.heldBy (k : HubToken) (up : Nat) : HubToken :=
  { k with holder := some up, pendingHolder := none, releaseAt := none, missed := 0, gotFrame := false }

/-- TOKEN_LOST to the former holder, and TOKEN_STATE on both upstream ports, where the holder is another. -/
def State.tellHolder (s : State) (d up : Nat) (old : Option Nat) : State :=
  if old = some up then s
  else ((match old with
    | some o => s.sendCtl (.dev d o) 0x16 0 (s.dev d).token.epoch 0
    | none => s).sendTokenState d 0).sendTokenState d 1

theorem changeHolder_eq (s : State) (d up : Nat) :
    s.changeHolder d up = (s.onToken d fun k => k.heldBy up).tellHolder d up (s.dev d).token.holder := rfl

/-- What is said of the holder only leaves on the links. -/
theorem tellHolder_sends (s : State) (d up : Nat) (old : Option Nat) : OnlySends s (s.tellHolder d up old) := by
  unfold State.tellHolder
  split
  · exact .refl s
  · refine OnlySends.sendCtl (.sendCtl ?_ ..) ..
    cases old with
    | none => exact .refl s
    | some o => exact .sendCtl (.refl s) ..

/-- The holder changes: only the token of the hub, and what leaves. -/
theorem changeHolder_acts (s : State) (d up : Nat) :
    (s.changeHolder d up).dev d = { s.dev d with token := (s.dev d).token.heldBy up } ∧ OnlyDev d s (s.changeHolder d up) ∧
      SameButHeld s (s.changeHolder d up) ∧ s.out <+: (s.changeHolder d up).out := by
  have hsends := tellHolder_sends (s.onToken d fun k => k.heldBy up) d up (s.dev d).token.holder
  rw [changeHolder_eq]
  exact ⟨(dev_of_devs hsends.devs d).trans (dev_onToken ..), (onToken_onlyDev _ _ _).trans (OnlyDev.of_devs hsends.devs), hsends.held, hsends.out⟩

/-- A device's end is as free to send after a change of its token. -/
theorem FreeToSend.onToken {s : State} {l : LinkEndId} {n : Nat} (f : FreeToSend l n s) (d : Nat) (g : HubToken → HubToken) :
    FreeToSend l n (s.onToken d g) := by
  obtain ⟨hheld, htx, habs, htick⟩ := f
  refine ⟨hheld, by cases l <;> exact htx, habs, ?_⟩
  have hsync (e : Nat) : ((s.onToken d g).dev e).synced = (s.dev e).synced := by
    by_cases h : e = d
    · subst h
      rw [dev_onToken]
    · rw [onToken_onlyDev s d g e h]
  have hk : (s.onToken d g).knowsTick l = s.knowsTick l := by
    unfold State.knowsTick
    split <;> simp only [hsync]
  rw [← htick]
  unfold State.tickHold
  rw [hk]
  rfl

/-! ### Commands of the token -/

theorem answers_tokenQuery {s : State} {d up : Nat} (hk : (s.dev d).kind = 3) (f : FreeToSend (.dev d up) 16 s) :
    Answers (.tokenQuery d up) s fun t => t.out = s.out ++ [.send (.dev d up) (s.link (.dev d up)).rate
      (linkctl 0x11 0 ((s.dev d).token.epoch + holderCode (s.dev d).token.holder * 2 ^ 16 +
        bit ((s.dev d).token.holder == some up) * 2 ^ 19) 0)] := by
  have e : exec (.tokenQuery d up) s = .next (s.sendTokenState d up) := if_pos hk
  exact answers_of_exec e (fun P cv => execTokenQuery_keeps d up (Keeps.refl s) cv) (congrArg State.out (sendCtl_of_free _ _ _ _ f))

/-- A claim with the next EPOCH is none that was granted before. -/
theorem next_epoch_ne (n : Nat) : (n + 1) % 65536 ≠ n := by omega

/-- TOKEN_GRANT has left on an upstream port, and EPOCH is the claim's. -/
def State.grantSent (s : State) (d up epoch f : Nat) : State :=
  (s.onToken d fun k => { k with epoch := epoch, granted := some (up, f) }).emit
    (.send (.dev d up) (s.link (.dev d up)).rate (linkctl 0x13 0 epoch f))

theorem dev_grantSent (s : State) (d up epoch f : Nat) :
    (s.grantSent d up epoch f).dev d = { s.dev d with token := { (s.dev d).token with epoch := epoch, granted := some (up, f) } } :=
  dev_onToken s d fun k => { k with epoch := epoch, granted := some (up, f) }

theorem grantSent_onlyDev (s : State) (d up epoch f : Nat) : OnlyDev d s (s.grantSent d up epoch f) :=
  onToken_onlyDev s d fun k => { k with epoch := epoch, granted := some (up, f) }

/-- A claim of a free token with the next EPOCH is granted. -/
theorem exec_tokenClaim_free {s : State} {d up epoch f : Nat} (forced : Bool) (hk : (s.dev d).kind = 3)
    (he : epoch = ((s.dev d).token.epoch + 1) % 65536) (hh : (s.dev d).token.holder = none) (hf : FreeToSend (.dev d up) 16 s) :
    exec (.tokenClaim d up epoch forced f) s = .next (
      if f = 0 then (s.grantSent d up epoch f).changeHolder d up
      else (s.grantSent d up epoch f).onToken d fun k => { k with pendingHolder := some (up, f) }) := by
  subst he
  change execTokenClaim d up _ forced f s = _
  simp only [execTokenClaim, hk, ne_eq, not_true_eq_false, if_false, next_epoch_ne, false_and, hh, if_true]
  rw [sendCtl_of_free 0x13 0 _ f (hf.onToken d _)]
  rfl

theorem answers_tokenClaim_now {s : State} {d up epoch : Nat} (forced : Bool) (hk : (s.dev d).kind = 3)
    (he : epoch = ((s.dev d).token.epoch + 1) % 65536) (hh : (s.dev d).token.holder = none) (hf : FreeToSend (.dev d up) 16 s) :
    Answers (.tokenClaim d up epoch forced 0) s fun t =>
      s.out ++ [.send (.dev d up) (s.link (.dev d up)).rate (linkctl 0x13 0 epoch 0)] <+: t.out ∧ (t.dev d).token.holder = some up ∧
        (t.dev d).token.epoch = epoch ∧ OnlyDev d s t := by
  have e := exec_tokenClaim_free (f := 0) forced hk he hh hf
  rw [if_pos rfl] at e
  obtain ⟨hdev, hother, -, hout⟩ := changeHolder_acts (s.grantSent d up epoch 0) d up
  refine answers_of_exec e (fun P cv => execTokenClaim_keeps d up epoch forced 0 (Keeps.refl s) cv)
    ⟨hout, by rw [hdev]; rfl, ?_, (grantSent_onlyDev s d up epoch 0).trans hother⟩
  rw [hdev, dev_grantSent]
  rfl

theorem answers_tokenClaim_later {s : State} {d up epoch f : Nat} (forced : Bool) (hk : (s.dev d).kind = 3)
    (he : epoch = ((s.dev d).token.epoch + 1) % 65536) (hh : (s.dev d).token.holder = none) (h0 : f ≠ 0) (hf : FreeToSend (.dev d up) 16 s) :
    Answers (.tokenClaim d up epoch forced f) s fun t =>
      t.out = s.out ++ [.send (.dev d up) (s.link (.dev d up)).rate (linkctl 0x13 0 epoch f)] ∧ OnlyDev d s t ∧
        t.dev d = { s.dev d with token := { (s.dev d).token with
        epoch := epoch, granted := some (up, f), pendingHolder := some (up, f) } } := by
  have e := exec_tokenClaim_free (f := f) forced hk he hh hf
  rw [if_neg h0] at e
  refine answers_of_exec e (fun P cv => execTokenClaim_keeps d up epoch forced f (Keeps.refl s) cv)
    ⟨rfl, (grantSent_onlyDev s d up epoch f).trans (onToken_onlyDev _ d _), ?_⟩
  rw [dev_onToken, dev_grantSent]

/-- A claim of another is denied while the holder is live. -/
theorem answers_tokenClaim_denied {s : State} {d up h epoch : Nat} (hk : (s.dev d).kind = 3)
    (he : epoch = ((s.dev d).token.epoch + 1) % 65536) (hh : (s.dev d).token.holder = some h) (hn : h ≠ up)
    (hl : (s.link (.dev d h)).up = true) (hm : (s.dev d).token.missed < 2) (hf : FreeToSend (.dev d up) 16 s) :
    Answers (.tokenClaim d up epoch false 0) s fun t =>
      t.out = s.out ++ [.send (.dev d up) (s.link (.dev d up)).rate (linkctl 0x14 0 ((s.dev d).token.epoch + 2 * 2 ^ 20) 0)] ∧ t.devs = s.devs := by
  subst he
  have hlive : s.holderSilent d h = false := by simp [State.holderSilent, hl, Nat.not_le.2 hm]
  have e : exec (.tokenClaim d up (((s.dev d).token.epoch + 1) % 65536) false 0) s =
      .next (s.sendCtl (.dev d up) 0x14 0 ((s.dev d).token.epoch + 2 * 2 ^ 20) 0) := by
    change execTokenClaim d up _ false 0 s = _
    simp [execTokenClaim, hk, next_epoch_ne, hh, hn, hlive]
  exact answers_of_exec e (fun P cv => execTokenClaim_keeps d up _ false 0 (Keeps.refl s) cv)
    ⟨congrArg State.out (sendCtl_of_free _ _ _ _ hf), sendCtl_devs ..⟩

theorem answers_tokenRelease {s : State} {d up f : Nat} (hk : (s.dev d).kind = 3) (hh : (s.dev d).token.holder = some up) (h0 : f ≠ 0) :
    Answers (.tokenRelease d up (s.dev d).token.epoch f) s fun t =>
      t.dev d = { s.dev d with token := { (s.dev d).token with releaseAt := some f } } ∧ OnlyDev d s t := by
  have e : exec (.tokenRelease d up (s.dev d).token.epoch f) s = .next (s.onToken d fun k => { k with releaseAt := some f }) :=
    if_pos ⟨hk, hh, rfl, h0⟩
  exact answers_of_exec e (fun P cv => execTokenRelease_keeps d up _ f (Keeps.refl s) cv) ⟨dev_onToken .., onToken_onlyDev _ _ _⟩

theorem answers_holderFrameMissed {s : State} {d h : Nat} (hk : (s.dev d).kind = 3) (hh : (s.dev d).token.holder = some h)
    (hg : (s.dev d).token.gotFrame = false) : Answers (.holderFrameMissed d) s fun t =>
      t.dev d = { s.dev d with token := { (s.dev d).token with missed := (s.dev d).token.missed + 1 } } ∧ OnlyDev d s t := by
  have e : exec (.holderFrameMissed d) s = .next (s.onToken d fun k => { k with missed := k.missed + 1 }) := if_pos ⟨hk, by simp [hh], by simp [hg]⟩
  exact answers_of_exec e (fun P cv => execHolderFrameMissed_keeps d (Keeps.refl s) cv) ⟨dev_onToken .., onToken_onlyDev _ _ _⟩

/-! ### The local tick: the ends of the upstream links (R108) -/

theorem sendCaps_links (s : State) (l k : LinkEndId) :
    ((s.sendCaps l).link k).rate = (s.link k).rate ∧ ((s.sendCaps l).link k).ratePend = (s.link k).ratePend := by
  obtain ⟨h, hk⟩ := sendCtl_held s l 3 (s.link l).rxSeq
    (bit (s.link l).peerCaps.isSome * 2 ^ 31 + bit (s.link l).fresh * 2 ^ 30 + s.capsOf l) 0 k
  unfold State.sendCaps
  rw [link_onLink]
  split <;> simp only [hk, and_self]

theorem devRateTick_devs (s : State) (n : Nat) (l : LinkEndId) : (s.devRateTick n l).devs = s.devs :=
  Keeps.part (l := [.out, .links]) (State.devRateTick_keeps n l (Keeps.refl s) (covers_within (List.Subset.refl _))) .devs rfl

theorem toRate_rate (e : LinkEnd) (r : Nat) : (e.toRate r).rate = r := by
  unfold LinkEnd.toRate
  split
  · assumption
  · rfl

/-- The end whose switch frame has come takes its rate. -/
theorem devRateTick_rate {s : State} {n r : Nat} {l : LinkEndId} (h : (s.link l).ratePend = some (r, n, false)) :
    ((s.devRateTick n l).link l).rate = r := by
  simp only [State.devRateTick, h, Bool.not_false, beq_self_eq_true, Bool.and_self, if_true]
  rw [(sendCaps_links _ l l).1, State.link_onLink_same]
  exact toRate_rate ..

/-- The others keep theirs, and what they wait for. -/
theorem devRateTick_other (s : State) (n : Nat) {l k : LinkEndId} (h : k.code ≠ l.code) :
    ((s.devRateTick n l).link k).rate = (s.link k).rate ∧ ((s.devRateTick n l).link k).ratePend = (s.link k).ratePend := by
  unfold State.devRateTick
  split
  · split
    · rw [(sendCaps_links _ l k).1, (sendCaps_links _ l k).2, State.link_onLink_other _ _ h]
      exact ⟨rfl, rfl⟩
    · exact ⟨rfl, rfl⟩
  · exact ⟨rfl, rfl⟩

/-! ### The local tick: the ports below a hub (R108, R110) -/

/-- What a rate change at a port of hub `d` can touch of devices and upstream links: only when the hub's bitmap first changed. -/
structure BelowHub (d : Nat) (s t : State) : Prop where
  devs : OnlyDev d s t
  dev : ∃ c, t.dev d = { s.dev d with chgAt := c }
  ups : ∀ e up, t.link (.dev e up) = s.link (.dev e up)

theorem BelowHub.refl (d : Nat) (s : State) : BelowHub d s s := ⟨OnlyDev.refl d s, ⟨_, rfl⟩, fun _ _ => rfl⟩

theorem BelowHub.trans {d : Nat} {s t u : State} (h : BelowHub d s t) (k : BelowHub d t u) : BelowHub d s u := by
  obtain ⟨a, ha⟩ := h.dev
  obtain ⟨b, hb⟩ := k.dev
  exact ⟨h.devs.trans k.devs, ⟨b, by rw [hb, ha]⟩, fun e up => (k.ups e up).trans (h.ups e up)⟩

/-- What touches no device and no link. -/
theorem BelowHub.of_parts {d : Nat} {s t : State} (hd : t.devs = s.devs) (hl : t.links = s.links) : BelowHub d s t :=
  ⟨OnlyDev.of_devs hd, ⟨_, dev_of_devs hd d⟩, fun _ _ => by simp only [State.link, hl]⟩

theorem BelowHub.of_keeps {l : List Part} {d : Nat} {s t : State} (k : Keeps (within l) s t) (hd : within l .devs = false)
    (hl : within l .links = false) : BelowHub d s t := .of_parts (k.part .devs hd) (k.part .links hl)

theorem BelowHub.foldl {α : Type} {d : Nat} {f : State → α → State} {as : List α} (hf : ∀ s, ∀ a ∈ as, BelowHub d s (f s a)) (s : State) :
    BelowHub d s (as.foldl f s) := by
  induction as generalizing s with
  | nil => exact .refl d s
  | cons a as ih => exact (hf s a List.mem_cons_self).trans (ih (fun t b hb => hf t b (List.mem_cons_of_mem a hb)) _)

/-- The end of a port is none of a device's upstream ends. -/
theorem code_dev_ne_port (e up : Nat) (p : PortId) : (LinkEndId.dev e up).code ≠ (LinkEndId.port p).code := by
  simp only [LinkEndId.code]
  omega

theorem BelowHub.onLink {s : State} (d : Nat) (p : PortId) (f : LinkEnd → LinkEnd) : BelowHub d s (s.onLink (.port p) f) :=
  ⟨.of_devs rfl, ⟨_, rfl⟩, fun e up => s.link_onLink_other f (code_dev_ne_port e up p)⟩

theorem launch_belowHub (d : Nat) (p : PortId) (x : Int) (ks : List Kept) :
    ∀ (s : State) (off : Nat), BelowHub d s (s.launch (.port p) x off ks) := by
  induction ks with
  | nil => exact fun s _ => .refl d s
  | cons k r ih =>
    intro s off
    unfold State.launch
    split
    · exact (BelowHub.onLink d p _).trans (ih _ _)
    · refine BelowHub.trans ?_ (ih _ _)
      exact .of_keeps (l := [.out]) (State.putOn_keeps _ _ (Keeps.refl s) (covers_within (List.Subset.refl _))) rfl rfl

theorem sendCaps_belowHub (d : Nat) (p : PortId) (s : State) : BelowHub d s (s.sendCaps (.port p)) :=
  (launch_belowHub d p 0 _ s 0).trans (BelowHub.onLink d p _)

theorem sendRateReq_belowHub (d : Nat) (p : PortId) (now : Bool) (s : State) : BelowHub d s (s.sendRateReq p now) := by
  unfold State.sendRateReq
  split
  · exact (launch_belowHub d p 0 _ s 0).trans (.of_parts rfl rfl)
  · exact .refl d s

/-- A change bit of a hub port: the hub notes when its bitmap first changed (R121). -/
theorem change_belowHub (d i : Nat) (f : Fld) (s : State) : BelowHub d s (s.change (.hub d i) [f]) := by
  have hraise : BelowHub d s (s.raiseN f (PortId.hub d i).code) := .of_parts rfl rfl
  exact hraise.trans ⟨onDev_onlyDev _ d _, ⟨_, State.dev_onDev_same _ d _⟩, fun _ _ => rfl⟩

theorem rateRefuse_belowHub (d i why : Nat) (s : State) : BelowHub d s (s.rateRefuse (.hub d i) why) := by
  have hdrop : BelowHub d s (s.rateDrop (.hub d i) why) := .of_keeps (l := [.ports, .cmds, .reg .PRT_STS])
    (State.rateDrop_keeps (.hub d i) why (Keeps.refl s) (covers_within (List.Subset.refl _))) rfl rfl
  exact hdrop.trans (change_belowHub d i _ _)

theorem rateSwitch_belowHub (d i : Nat) (s : State) : BelowHub d s (s.rateSwitch (.hub d i)) := by
  unfold State.rateSwitch
  split
  · split
    · refine BelowHub.trans ?_ (sendCaps_belowHub d (.hub d i) _)
      exact BelowHub.trans (t := (s.putState (.hub d i) 8).onPort (.hub d i) _) (.of_parts rfl rfl) (BelowHub.onLink d (.hub d i) _)
    · exact rateRefuse_belowHub d i 3 s
  · exact .refl d s

theorem hubRate_belowHub (d i target frame : Nat) (s : State) : BelowHub d s (s.hubRate (.hub d i) target frame) := by
  have hport (x : State) (f : Port → Port) : BelowHub d x (x.onPort (.hub d i) f) := .of_parts rfl rfl
  unfold State.hubRate
  split
  · exact hport s _
  · dsimp only
    generalize hs1 : (if (s.port (.hub d i)).rateChg.isSome then (s.onPort (.hub d i) fun x => { x with cfgWant := none }).rateRefuse (.hub d i) 3
      else s.onPort (.hub d i) fun x => { x with cfgWant := none }) = s1
    have h1 : BelowHub d s s1 := by
      rw [← hs1]
      split
      · exact (hport s _).trans (rateRefuse_belowHub d i 3 _)
      · exact hport s _
    refine h1.trans ?_
    split
    · exact .refl d s1
    · split
      · exact rateRefuse_belowHub d i 1 s1
      · split
        · exact rateRefuse_belowHub d i 3 s1
        · exact hport s1 _

theorem hubRateTick_belowHub (d i n : Nat) (s : State) : BelowHub d s (State.hubRateTick n s (.hub d i)) := by
  have hover : BelowHub d s (s.emptyOver (.hub d i) n) :=
    .of_keeps (l := [.ports]) (State.emptyOver_keeps _ n (Keeps.refl s) (covers_within (List.Subset.refl _))) rfl rfl
  have hwait : BelowHub d s ((s.emptyOver (.hub d i) n).hubRateWaits (.hub d i)) := by
    refine hover.trans ?_
    unfold State.hubRateWaits
    split
    · exact hubRate_belowHub d i _ _ _
    · exact .refl d _
  refine hwait.trans ?_
  unfold State.hubRateTick
  generalize (s.emptyOver (.hub d i) n).hubRateWaits (.hub d i) = x
  dsimp only
  split
  · split
    · exact .refl d x
    · split
      · split
        · exact sendRateReq_belowHub d _ false x
        · exact .refl d x
      · split
        · exact rateSwitch_belowHub d i x
        · exact .refl d x
  · exact .refl d x

/-! ### The local tick as a whole (R61, R108) -/

/-- The counters of the tick. -/
def State.ticked (s : State) (d t : Nat) : State :=
  (s.at_ t).onDev d fun v => { v with frameMiss := v.frameMiss + 1, token := { v.token with gotFrame := false } }

/-- A token granted for the frame changes hands. -/
def State.tokenTick (s : State) (d n : Nat) : State :=
  match (s.dev d).token.pendingHolder with
  | some (up, f) => if f = n then s.changeHolder d up else s
  | none => s

/-- Both upstream ends take the rates whose frame has come. -/
def State.upsTick (s : State) (d n : Nat) : State := (s.devRateTick n (.dev d 0)).devRateTick n (.dev d 1)

theorem exec_localTick (s : State) (d n t : Nat) : exec (.localTick d n t) s =
    .next ((((s.ticked d t).tokenTick d n).upsTick d n).hubPorts d |>.foldl (State.hubRateTick n) (((s.ticked d t).tokenTick d n).upsTick d n)) := rfl

theorem dev_ticked (s : State) (d t : Nat) :
    (s.ticked d t).dev d = { s.dev d with frameMiss := (s.dev d).frameMiss + 1, token := { (s.dev d).token with gotFrame := false } } :=
  State.dev_onDev_same ..

theorem tokenTick_acts (s : State) (d n : Nat) :
    OnlyDev d s (s.tokenTick d n) ∧ SameButHeld s (s.tokenTick d n) ∧
    (((s.tokenTick d n).dev d).frameMiss = (s.dev d).frameMiss ∧
      ((s.dev d).token.gotFrame = false → ((s.tokenTick d n).dev d).token.gotFrame = false)) ∧
    ∀ up, (s.dev d).token.pendingHolder = some (up, n) →
      ((s.tokenTick d n).dev d).token.holder = some up ∧ ((s.tokenTick d n).dev d).token.pendingHolder = none := by
  have hstay (h : ∀ up, (s.dev d).token.pendingHolder ≠ some (up, n)) : OnlyDev d s s ∧ SameButHeld s s ∧
      ((s.dev d).frameMiss = (s.dev d).frameMiss ∧ ((s.dev d).token.gotFrame = false → (s.dev d).token.gotFrame = false)) ∧
      ∀ up, (s.dev d).token.pendingHolder = some (up, n) → (s.dev d).token.holder = some up ∧ (s.dev d).token.pendingHolder = none :=
    ⟨.refl d s, .refl s, ⟨rfl, id⟩, fun up hup => absurd hup (h up)⟩
  unfold State.tokenTick
  split
  · next up f hp =>
    split
    · next hf =>
      obtain ⟨hdev, hother, hheld, -⟩ := changeHolder_acts s d up
      rw [hdev]
      refine ⟨hother, hheld, ⟨rfl, fun _ => rfl⟩, fun up' hup => ⟨?_, rfl⟩⟩
      rw [hp] at hup
      simp only [Option.some.injEq, Prod.mk.injEq] at hup
      rw [← hup.1]
      rfl
    · next hf =>
      refine hstay fun up' hup => hf ?_
      rw [hp] at hup
      simp only [Option.some.injEq, Prod.mk.injEq] at hup
      exact hup.2
  · next hp => exact hstay fun up hup => by simp [hp] at hup

theorem upsTick_devs (s : State) (d n : Nat) : (s.upsTick d n).devs = s.devs := (devRateTick_devs ..).trans (devRateTick_devs ..)

theorem upsTick_rate {s : State} {d n up r : Nat} (hu : up < 2) (h : (s.link (.dev d up)).ratePend = some (r, n, false)) :
    ((s.upsTick d n).link (.dev d up)).rate = r := by
  have h01 : (LinkEndId.dev d 0).code ≠ (LinkEndId.dev d 1).code := by simp [LinkEndId.code]
  have hup : up = 0 ∨ up = 1 := by omega
  rcases hup with rfl | rfl
  · exact (devRateTick_other _ n h01).1.trans (devRateTick_rate h)
  · exact devRateTick_rate ((devRateTick_other s n h01.symm).2.trans h)

theorem answers_localTick (s : State) (d n t : Nat) : Answers (.localTick d n t) s fun t' =>
    (t'.dev d).frameMiss = (s.dev d).frameMiss + 1 ∧ (t'.dev d).token.gotFrame = false ∧ OnlyDev d s t' ∧
    (∀ up, (s.dev d).token.pendingHolder = some (up, n) → (t'.dev d).token.holder = some up ∧ (t'.dev d).token.pendingHolder = none) ∧
    (∀ up < 2, ∀ r, (s.link (.dev d up)).ratePend = some (r, n, false) → (t'.link (.dev d up)).rate = r) := by
  obtain ⟨honly, hheld, ⟨hmiss, hgot⟩, hhold⟩ := tokenTick_acts (s.ticked d t) d n
  have hups := upsTick_devs ((s.ticked d t).tokenTick d n) d n
  have hports : BelowHub d (((s.ticked d t).tokenTick d n).upsTick d n)
      ((((s.ticked d t).tokenTick d n).upsTick d n).hubPorts d |>.foldl (State.hubRateTick n) (((s.ticked d t).tokenTick d n).upsTick d n)) := by
    refine BelowHub.foldl (fun x p hp => ?_) _
    obtain ⟨i, -, rfl⟩ := List.mem_map.1 hp
    exact hubRateTick_belowHub d (i + 1) n x
  obtain ⟨c, hc⟩ := hports.dev
  rw [dev_of_devs hups] at hc
  refine answers_of_exec (exec_localTick s d n t) (fun P cv => execLocalTick_keeps d n t (Keeps.refl s) cv) ⟨?_, ?_, ?_, ?_, ?_⟩
  · rw [hc]
    exact hmiss.trans (by rw [dev_ticked])
  · rw [hc]
    exact hgot (by rw [dev_ticked])
  · exact ((onDev_onlyDev (s.at_ t) d _).trans honly).trans ((OnlyDev.of_devs hups).trans hports.devs)
  · intro up hup
    rw [hc]
    exact hhold up (by rw [dev_ticked]; exact hup)
  · intro up hu r hr
    rw [hports.ups]
    refine upsTick_rate hu ?_
    obtain ⟨h, hl⟩ := hheld (.dev d up)
    rw [hl]
    exact hr

/-- Settles O16: the token by the commands that decide on a claim, and the local tick step by step: its counters, the holder, the ends above, and
the ports below. -/
theorem hubsKeepTheToken : Obligations.HubsKeepTheToken := by
  unfold Obligations.HubsKeepTheToken
  exact ⟨fun _ _ _ hk f => answers_tokenQuery hk f, fun _ _ _ forced _ hk he hh hf => answers_tokenClaim_now forced hk he hh hf,
    fun _ _ _ forced _ _ hk he hh h0 hf => answers_tokenClaim_later forced hk he hh h0 hf,
    fun _ _ _ _ _ hk he hh hn hl hm hf => answers_tokenClaim_denied hk he hh hn hl hm hf,
    fun _ _ _ _ hk hh h0 => answers_tokenRelease hk hh h0, fun _ _ _ hk hh hg => answers_holderFrameMissed hk hh hg,
    fun s d n t => answers_localTick s d n t⟩

end Sys2Proof.Machine
end

section
/-! Where a hub waits for a port (R102, R103): a port that falls away while its hub owes an echo for it lets the hub echo, and one that a hub resets by
propagation is DISABLED. O5 and O8 speak of every port, and fail at such a one. -/

namespace Sys2Proof.Machine

/-- Hub 0 with one port in a state, and the echo of a command that it has passed on to that port still owed upstream. -/
def State.hubWaits (st typ : Nat) (p : Port) (e : LinkEnd) : State :=
  { State.reset.putState (.hub 0 1) st with
    ports := [(PortId.code (.hub 0 1), { p with prop := true })]
    links := [(LinkEndId.code (.port (.hub 0 1)), e)]
    devs := [(0, { Device.init with kind := 2, nports := 1, owesEcho := some (typ, 0) })] }

/-! ### A lost receiver (O5) -/

/-- SUSPEND was passed on to the ENABLED port, whose link has fallen twice within the last second. -/
def State.suspendPassed : State :=
  State.hubWaits 4 7 { Port.init with susp := .sent, retrains := [600000000, 300000000] } { LinkEnd.init with up := true, sync := true }

/-- A receiver that misses sync loses it, and its end treats the link as down (R72). -/
theorem exec_syncLoss {s : State} {l : LinkEndId} {g : List Nat} (t : Nat) (h0 : (s.link l).rate = 0) (hs : (s.link l).sync = true)
    (hm : syncMissed (s.link l).rxRd g = true) :
    exec (.syncLoss l g t) s = .next (((s.at_ t).onLink l fun e => { e with sync := false }).endLost l t) := if_pos ⟨h0, hs, hm⟩

/-- The third fall in a second takes the port to ERROR, its hub waits for it no longer, and the SUSPEND is echoed on the hub's own upstream link. -/
theorem suspendPassed_echoes : (((State.suspendPassed.at_ 900000000).onLink (.port (.hub 0 1)) fun e => { e with sync := false }).endLost
    (.port (.hub 0 1)) 900000000 |>.link (.dev 0 0)).echoSent = [(7, 900000000)] := by decide

/-- Refutes O5: a port that loses sync for the third time within a second leaves for ERROR, and where its hub waited for it alone to echo a SUSPEND,
the hub echoes, which changes the hub's own upstream end beside the port's. -/
theorem not_linksGainLockAndComeUp : ¬ Obligations.LinksGainLockAndComeUp := by
  unfold Obligations.LinksGainLockAndComeUp
  rintro ⟨-, -, hloss, -⟩
  have h0 : (State.suspendPassed.link (.port (.hub 0 1))).rate = 0 := by decide
  have hsync : (State.suspendPassed.link (.port (.hub 0 1))).sync = true := by decide
  have hmiss : syncMissed (State.suspendPassed.link (.port (.hub 0 1))).rxRd [0, 0, 0, 0] = true := by decide
  obtain ⟨t, ht, -, -, -, honly⟩ := hloss _ _ _ 900000000 h0 hsync hmiss
  rw [exec_syncLoss 900000000 h0 hsync hmiss] at ht
  cases ht
  have hsame := congrArg LinkEnd.echoSent (honly (by decide) (.dev 0 0) (by decide))
  rw [suspendPassed_echoes] at hsame
  exact absurd hsame (by decide)

/-! ### A port that does not come back (O8) -/

/-- RESET was passed on to the port while it retrained, and waits there for the link. -/
def State.resetPassed : State := State.hubWaits 5 6 { Port.init with resetPending := true } LinkEnd.init

theorem exec_retrainTimeout {s : State} {p : PortId} (h5 : s.portState p = 5) (hd : (s.link (.port p)).up = false) :
    exec (.retrainTimeout p) s = .next (s.disconnect p [.PRT_CHG_DISCONNECT]) := if_pos ⟨h5, by simp [hd]⟩

theorem resetPassed_disabled : (State.resetPassed.disconnect (.hub 0 1) [.PRT_CHG_DISCONNECT]).portState (.hub 0 1) = 0 := by decide

/-- Refutes O8: a port in RETRAINING to which its hub has passed RESET on is DISABLED at the timeout (R102), not DISCONNECTED. -/
theorem not_portsConnectAndFall : ¬ Obligations.PortsConnectAndFall := by
  unfold Obligations.PortsConnectAndFall
  rintro ⟨-, -, -, -, hretrain, -⟩
  have h5 : State.resetPassed.portState (.hub 0 1) = 5 := by decide
  have hd : (State.resetPassed.link (.port (.hub 0 1))).up = false := by decide
  obtain ⟨t, ht, -, hst, -⟩ := hretrain _ _ h5 hd
  rw [exec_retrainTimeout h5 hd] at ht
  cases ht
  rw [resetPassed_disabled] at hst
  exact absurd hst (by decide)

end Sys2Proof.Machine
end

section
/-! What an end does when it sends (R77, R84, R87, R90), by what it leaves: the other ends, and of its own end what is not of sending. -/

namespace Sys2Proof.Machine

/-! ### One link end -/

theorem OnlyLink.refl (l : LinkEndId) (s : State) : OnlyLink l s s := fun _ _ => rfl

theorem OnlyLink.trans {l : LinkEndId} {s t u : State} (h : OnlyLink l s t) (k : OnlyLink l t u) : OnlyLink l s u :=
  fun e n => (k e n).trans (h e n)

theorem OnlyLink.of_links {l : LinkEndId} {s t : State} (h : t.links = s.links) : OnlyLink l s t := fun k _ => by simp only [State.link, h]

theorem onLink_onlyLink (s : State) (l : LinkEndId) (f : LinkEnd → LinkEnd) : OnlyLink l s (s.onLink l f) := fun _ n => s.link_onLink_other f n

theorem OnlyPort.refl (p : PortId) (s : State) : OnlyPort p s s := fun _ _ => rfl

theorem OnlyPort.trans {p : PortId} {s t u : State} (h : OnlyPort p s t) (k : OnlyPort p t u) : OnlyPort p s u :=
  fun q n => (k q n).trans (h q n)

theorem OnlyPort.of_ports {p : PortId} {s t : State} (h : t.ports = s.ports) : OnlyPort p s t := fun q _ => by simp only [State.port, h]

theorem onPort_onlyPort (s : State) (p : PortId) (f : Port → Port) : OnlyPort p s (s.onPort p f) := fun _ n => s.port_onPort_other f n

theorem link_of_links {s t : State} (h : t.links = s.links) (l : LinkEndId) : t.link l = s.link l := by simp only [State.link, h]

theorem port_of_ports {s t : State} (h : t.ports = s.ports) (p : PortId) : t.port p = s.port p := by simp only [State.port, h]

/-- The port and the end that were changed, whatever else was. -/
theorem port_changed {s t : State} {p : PortId} {f : Port → Port} (h : t.ports = (s.onPort p f).ports) : t.port p = f (s.port p) :=
  (port_of_ports h p).trans (s.port_onPort_same p f)

theorem link_changed {s t : State} {l : LinkEndId} {f : LinkEnd → LinkEnd} (h : t.links = (s.onLink l f).links) : t.link l = f (s.link l) :=
  (link_of_links h l).trans (s.link_onLink_same l f)

theorem OnlyPort.of_changed {s t : State} {p : PortId} {f : Port → Port} (h : t.ports = (s.onPort p f).ports) : OnlyPort p s t :=
  (onPort_onlyPort s p f).trans (.of_ports h)

/-- A port's end is its own among the ends of ports. -/
theorem code_port_ne {p q : PortId} (h : q.code ≠ p.code) : (LinkEndId.port q).code ≠ (LinkEndId.port p).code := by
  simp only [LinkEndId.code]
  omega

/-! ### Sending -/

/-- Of an end only what sending writes has changed: what waits, the next LSEQ, and the replay buffer, which has grown. -/
def LinkEnd.Sent (a b : LinkEnd) : Prop := ∃ h q n r, b = { a with held := h, queue := q, txSeq := n, replay := a.replay ++ r }

theorem LinkEnd.Sent.refl (a : LinkEnd) : a.Sent a := ⟨a.held, a.queue, a.txSeq, [], by simp⟩

theorem LinkEnd.Sent.trans {a b c : LinkEnd} (h : a.Sent b) (k : b.Sent c) : a.Sent c := by
  obtain ⟨h1, q1, n1, r1, rfl⟩ := h
  obtain ⟨h2, q2, n2, r2, rfl⟩ := k
  exact ⟨h2, q2, n2, r1 ++ r2, by simp⟩

/-- An end sends: more has left, and no other end has changed. -/
structure Sends (l : LinkEndId) (s t : State) : Prop where
  own : (s.link l).Sent (t.link l)
  others : OnlyLink l s t
  out : s.out <+: t.out

theorem Sends.refl (l : LinkEndId) (s : State) : Sends l s s := ⟨.refl _, .refl l s, List.prefix_refl _⟩

theorem Sends.trans {l : LinkEndId} {s t u : State} (h : Sends l s t) (k : Sends l t u) : Sends l s u :=
  ⟨h.own.trans k.own, h.others.trans k.others, h.out.trans k.out⟩

theorem Sends.onLink (l : LinkEndId) (s : State) {f : LinkEnd → LinkEnd} (hf : (s.link l).Sent (f (s.link l))) : Sends l s (s.onLink l f) :=
  ⟨by rwa [State.link_onLink_same], onLink_onlyLink s l f, List.prefix_refl _⟩

/-- What writes no link end. -/
theorem Sends.of_links (l : LinkEndId) {s t : State} (h : t.links = s.links) (o : s.out <+: t.out) : Sends l s t :=
  ⟨by rw [link_of_links h]; exact .refl _, .of_links h, o⟩

theorem Sends.foldl {α : Type} {l : LinkEndId} {f : State → α → State} (as : List α) (hf : ∀ s a, Sends l s (f s a)) (s : State) :
    Sends l s (as.foldl f s) := by
  induction as generalizing s with
  | nil => exact .refl l s
  | cons a as ih => exact (hf s a).trans (ih _)

theorem putOn_out (s : State) (l : LinkEndId) (p : BusPkt) : s.out <+: (s.putOn l p).out := by
  unfold State.putOn
  split
  · exact List.prefix_refl _
  · exact List.prefix_append _ _

theorem putOn_sends (s : State) (l : LinkEndId) (p : BusPkt) : Sends l s (s.putOn l p) := .of_links l (putOn_links s l p) (putOn_out s l p)

theorem launch_sends (l : LinkEndId) (x : Int) (ks : List Kept) : ∀ (s : State) (off : Nat), Sends l s (s.launch l x off ks) := by
  induction ks with
  | nil => exact fun s _ => .refl l s
  | cons k r ih =>
    intro s off
    unfold State.launch
    split
    · refine (Sends.onLink l s ⟨(s.link l).held ++ [k], (s.link l).queue, (s.link l).txSeq, [], ?_⟩).trans (ih _ _)
      simp
    · exact (putOn_sends s l _).trans (ih _ _)

theorem sendCtl_sends (s : State) (l : LinkEndId) (typ seq arg frameNo : Nat) : Sends l s (s.sendCtl l typ seq arg frameNo) :=
  launch_sends l 0 _ s 0

theorem push_sends (s : State) (l : LinkEndId) (bytes : Nat) (base : Int) (p : Nat → BusPkt) : Sends l s (s.push l bytes base p) :=
  (putOn_sends s l _).trans (.onLink l _ ⟨_, _, _, _, rfl⟩)

theorem departed_sends (s : State) (l : LinkEndId) (p : Pkt) : Sends l s (s.departed l p) := by
  unfold State.departed
  split
  · exact .of_links _ rfl (List.prefix_refl _)
  · exact .refl _ s

theorem pushPkt_sends (s : State) (l : LinkEndId) (p : Pkt) : Sends l s (s.pushPkt l p) := by
  refine Sends.trans ?_ ((push_sends _ l _ 0 _).trans (departed_sends _ l p))
  exact .onLink l s ⟨(s.link l).held, (s.link l).queue.drop 1, (s.link l).txSeq, [], by simp⟩

theorem drainQueue_sends (l : LinkEndId) (n : Nat) : ∀ (s : State) (off : Nat), Sends l s (s.drainQueue l off n) := by
  induction n with
  | zero => exact fun s _ => .refl l s
  | succ n ih =>
    intro s off
    unfold State.drainQueue
    dsimp only
    split
    · exact (Sends.foldl _ (fun s p => pushPkt_sends s l p) s).trans (ih _ _)
    · exact .refl l s

theorem drainFrom_sends (s : State) (l : LinkEndId) (off : Nat) : Sends l s (s.drainFrom l off) := drainQueue_sends l _ s off

theorem launchAll_sends (s : State) (l : LinkEndId) (x : Int) (off : Nat) (ks : List Kept) : Sends l s (s.launchAll l x off ks) :=
  (launch_sends l x ks s off).trans (drainFrom_sends _ l _)

theorem sendPkt_sends (s : State) (l : LinkEndId) (p : Pkt) : Sends l s (s.sendPkt l p) :=
  (Sends.onLink l s ⟨(s.link l).held, (s.link l).queue ++ [p], (s.link l).txSeq, [], by simp⟩).trans (drainFrom_sends _ l 0)

theorem resend_sends (s : State) (l : LinkEndId) (seq : Nat) (tTx : Int) : Sends l s (s.resend l seq tTx) :=
  (Sends.onLink l s ⟨(s.link l).held.filter fun k => !k.seq, (s.link l).queue, (s.link l).txSeq, [], by simp⟩).trans (launchAll_sends _ l tTx 0 _)

theorem resendAll_sends (s : State) (l : LinkEndId) (tTx : Int) : Sends l s (s.resendAll l tTx) :=
  (Sends.onLink l s ⟨(s.link l).held.filter fun k => !k.seq, (s.link l).queue, (s.link l).txSeq, [], by simp⟩).trans (launchAll_sends _ l tTx 0 _)

/-! What sending leaves of its own end, by field. -/

section
variable {a b : LinkEnd} (h : a.Sent b)
include h

theorem LinkEnd.Sent.up : b.up = a.up := by
  obtain ⟨_, _, _, _, rfl⟩ := h
  rfl

theorem LinkEnd.Sent.rate : b.rate = a.rate := by
  obtain ⟨_, _, _, _, rfl⟩ := h
  rfl

theorem LinkEnd.Sent.waiting : b.waiting = a.waiting := by
  obtain ⟨_, _, _, _, rfl⟩ := h
  rfl

theorem LinkEnd.Sent.rxSeq : b.rxSeq = a.rxSeq := by
  obtain ⟨_, _, _, _, rfl⟩ := h
  rfl

theorem LinkEnd.Sent.replayed : b.replayFrom = a.replayFrom ∧ b.replayCnt = a.replayCnt ∧ a.replay <+: b.replay := by
  obtain ⟨_, _, _, _, rfl⟩ := h
  exact ⟨rfl, rfl, List.prefix_append _ _⟩

end

/-! ### Free to send (R90) -/

/-- An end is as free to send where what it waits for, its rate, and what its device knows of the time have not changed. -/
theorem FreeToSend.onLink {s : State} {l : LinkEndId} {n : Nat} (f : FreeToSend l n s) {g : LinkEnd → LinkEnd}
    (hh : (g (s.link l)).held = (s.link l).held) (hr : (g (s.link l)).rate = (s.link l).rate) : FreeToSend l n (s.onLink l g) := by
  obtain ⟨hheld, htx, habs, htick⟩ := f
  refine ⟨by rw [State.link_onLink_same, hh, hheld], by cases l <;> exact htx, habs, ?_⟩
  have hb : (s.onLink l g).byteTenths l = s.byteTenths l := by simp only [State.byteTenths, State.link_onLink_same, hr]
  rw [← htick]
  unfold State.tickHold
  rw [hb]
  rfl

theorem FreeToSend.onDev {s : State} {l : LinkEndId} {n : Nat} (f : FreeToSend l n s) (d : Nat) {g : Device → Device}
    (hs : (g (s.dev d)).synced = (s.dev d).synced) : FreeToSend l n (s.onDev d g) := by
  obtain ⟨hheld, htx, habs, htick⟩ := f
  refine ⟨hheld, by cases l <;> exact htx, habs, ?_⟩
  have hsync (e : Nat) : ((s.onDev d g).dev e).synced = (s.dev e).synced := by
    by_cases h : e = d
    · rw [h, State.dev_onDev_same, hs]
    · rw [State.dev_onDev_other _ _ h]
  have hk : (s.onDev d g).knowsTick l = s.knowsTick l := by
    unfold State.knowsTick
    split <;> simp only [hsync]
  rw [← htick]
  unfold State.tickHold
  rw [hk]
  rfl

end Sys2Proof.Machine
end

section
/-! A port acts (Tables 3.10 to 3.12): what its transitions leave of the other ports, of their ends and of the hub that it stands on, and what they set
at the port itself. -/

namespace Sys2Proof.Machine

/-! ### What a port's action leaves alone -/

/-- PRT_STS and PRT_CHG of the other ports are as before. -/
def OnlyShown (p : PortId) (s t : State) : Prop := ∀ g i, g.reg = .PRT_STS ∨ g.reg = .PRT_CHG → i ≠ p.code → t.fgetN g i = s.fgetN g i

/-- A device but for what its ports' changes write in it: when its bitmap first changed, and the order upstream. -/
def Device.calm (v : Device) : Device := { v with chgAt := none, upq := [] }

/-- And but for the echo that it owes, and for what goes with its upstream link. -/
def Device.face (v : Device) : Device := { v.calm with owesEcho := none, suspended := false, delays := [], synced := false }

/-- Port `p` acts: the other ports and their ends are as before, and of devices only the hub that it stands on has changed, and that not in what `φ`
shows of it. -/
structure PortActs (φ : Device → Device) (p : PortId) (s t : State) : Prop where
  shown : OnlyShown p s t
  ports : OnlyPort p s t
  links : ∀ q : PortId, q.code ≠ p.code → t.link (.port q) = s.link (.port q)
  hub : ∀ d i, p = .hub d i → OnlyDev d s t ∧ φ (t.dev d) = φ (s.dev d) ∧ s.out <+: t.out

theorem PortActs.refl (φ : Device → Device) (p : PortId) (s : State) : PortActs φ p s s :=
  ⟨fun _ _ _ _ => rfl, .refl p s, fun _ _ => rfl, fun d _ _ => ⟨.refl d s, rfl, List.prefix_refl _⟩⟩

theorem PortActs.trans {φ : Device → Device} {p : PortId} {s t u : State} (h : PortActs φ p s t) (k : PortActs φ p t u) : PortActs φ p s u := by
  refine ⟨fun g i hg hi => (k.shown g i hg hi).trans (h.shown g i hg hi), h.ports.trans k.ports, fun q hq => (k.links q hq).trans (h.links q hq), ?_⟩
  intro d i hp
  obtain ⟨hd, hf, ho⟩ := h.hub d i hp
  obtain ⟨kd, kf, ko⟩ := k.hub d i hp
  exact ⟨hd.trans kd, kf.trans hf, ho.trans ko⟩

theorem PortActs.face {p : PortId} {s t : State} (h : PortActs Device.calm p s t) : PortActs Device.face p s t := by
  refine ⟨h.shown, h.ports, h.links, fun d i hp => ?_⟩
  obtain ⟨hd, hf, ho⟩ := h.hub d i hp
  exact ⟨hd, congrArg (fun v : Device => { v with owesEcho := none, suspended := false, delays := [], synced := false }) hf, ho⟩

theorem OnlyShown.of_keeps {l : List Part} {s t : State} (p : PortId) (k : Keeps (within l) s t) (hs : within l (.reg .PRT_STS) = false)
    (hc : within l (.reg .PRT_CHG) = false) : OnlyShown p s t := by
  rintro g i (hg | hg) -
  · exact k.fgetN (by rwa [hg]) i
  · exact k.fgetN (by rwa [hg]) i

/-- What writes neither ports nor ends nor devices, nor what ports show. -/
theorem PortActs.of_keeps {φ : Device → Device} {l : List Part} {s t : State} (p : PortId) (k : Keeps (within l) s t)
    (n : ∀ q ∈ [Part.reg .PRT_STS, .reg .PRT_CHG, .ports, .links, .devs, .out], within l q = false) : PortActs φ p s t := by
  have hd : t.devs = s.devs := k.part .devs (n _ (by decide))
  exact ⟨.of_keeps p k (n _ (by decide)) (n _ (by decide)), .of_ports (k.part .ports (n _ (by decide))),
    fun q _ => link_of_links (k.part .links (n _ (by decide))) _,
    fun d _ _ => ⟨.of_devs hd, by rw [dev_of_devs hd], by rw [show t.out = s.out from k.part .out (n _ (by decide))]⟩⟩

/-- What a root port leads to beyond the ports. -/
theorem PortActs.of_root {φ : Device → Device} {l : List Part} {s t : State} (n : Nat) (k : Keeps (within l) s t)
    (h : ∀ q ∈ [Part.reg .PRT_STS, .reg .PRT_CHG, .ports, .links], within l q = false) : PortActs φ (.root n) s t :=
  ⟨.of_keeps _ k (h _ (by decide)) (h _ (by decide)), .of_ports (k.part .ports (h _ (by decide))),
    fun _ _ => link_of_links (k.part .links (h _ (by decide))) _, fun _ _ hp => by simp at hp⟩

section
variable {φ : Device → Device} (p : PortId) (s : State)

theorem fsetN_acts (f : Fld) (v : Nat) : PortActs φ p s (s.fsetN f p.code v) :=
  ⟨fun g _ _ hi => s.fgetN_other f g _ _ v hi, .refl p s, fun _ _ => rfl, fun d _ _ => ⟨.refl d s, rfl, List.prefix_refl _⟩⟩

theorem onPort_acts (f : Port → Port) : PortActs φ p s (s.onPort p f) :=
  ⟨fun _ _ _ _ => rfl, onPort_onlyPort s p f, fun _ _ => rfl, fun d _ _ => ⟨.refl d s, rfl, List.prefix_refl _⟩⟩

theorem onLink_acts (f : LinkEnd → LinkEnd) : PortActs φ p s (s.onLink (.port p) f) :=
  ⟨fun _ _ _ _ => rfl, .refl p s, fun _ hq => s.link_onLink_other f (code_port_ne hq), fun d _ _ => ⟨.refl d s, rfl, List.prefix_refl _⟩⟩

variable {p s} in
theorem Sends.acts {t : State} (h : Sends (.port p) s t) (k : Keeps (within [.out, .links, .txns]) s t) : PortActs φ p s t :=
  ⟨.of_keeps p k rfl rfl, .of_ports (k.part .ports rfl), fun q hq => h.others _ (code_port_ne hq),
    fun d _ _ => ⟨.of_devs (k.part .devs rfl), by rw [dev_of_devs (k.part .devs rfl)], h.out⟩⟩

theorem sendCtl_acts (typ seq arg frameNo : Nat) : PortActs φ p s (s.sendCtl (.port p) typ seq arg frameNo) :=
  (sendCtl_sends s _ typ seq arg frameNo).acts (State.sendCtl_keeps _ typ seq arg frameNo (Keeps.refl s) (covers_within (by decide)))

theorem rateCmd_acts (status result : Nat) : PortActs φ p s (s.rateCmd p status result) :=
  .of_keeps (l := [.cmds]) p (State.rateCmd_keeps p status result (Keeps.refl s) (covers_within (List.Subset.refl _))) (by decide)

theorem stopCtl_acts (typ : Nat) : PortActs φ p s (s.stopCtl (.port p) typ) := onLink_acts p s _

theorem startCtl_acts (typ t : Nat) : PortActs φ p s (s.startCtl (.port p) typ t) := by
  have h := onLink_acts (φ := φ) p s fun e => { e with
    waiting := e.waiting.filter (fun c => c.typ != typ) ++ [⟨typ, 0, 0, 0⟩], wakeAt := if typ = 9 then some t else e.wakeAt }
  unfold State.startCtl
  dsimp only
  split
  · split
    · exact h
    · exact h.trans (sendCtl_acts ..)
  · exact h.trans (sendCtl_acts ..)

end

/-! ### The bits of PRT_CHG -/

/-- Fields of a port raised, one after the other. -/
def State.raises (s : State) (p : PortId) (bits : List Fld) : State := bits.foldl (fun s f => s.raiseN f p.code) s

theorem raises_acts {φ : Device → Device} (p : PortId) (bits : List Fld) : ∀ s : State, PortActs φ p s (s.raises p bits) := by
  induction bits with
  | nil => exact fun s => .refl φ p s
  | cons f bits ih => exact fun s => (fsetN_acts p s f 1).trans (ih _)

theorem raises_other (p : PortId) {g : Fld} (i : Nat) {bits : List Fld} (h : ∀ f ∈ bits, f.apart g = true) :
    ∀ s : State, (s.raises p bits).fgetN g i = s.fgetN g i := by
  induction bits with
  | nil => exact fun _ => rfl
  | cons f bits ih =>
    exact fun s => (ih (fun b hb => h b (List.mem_cons_of_mem f hb)) _).trans (s.fgetN_apart f g _ i 1 (h f List.mem_cons_self))

theorem fgetN_raiseN (s : State) (f : Fld) (i : Nat) (hf : f.ok = true ∧ f.lo = f.hi) : (s.raiseN f i).fgetN f i = 1 :=
  (s.fgetN_fsetN_same f i 1 hf.1).trans (by rw [hf.2]; simp)

/-- A bit that is up stays up. -/
theorem raises_stays (p : PortId) {g : Fld} (hg : g.ok = true ∧ g.lo = g.hi) {bits : List Fld} (h : ∀ f ∈ bits, f = g ∨ f.apart g = true) :
    ∀ s : State, s.fgetN g p.code = 1 → (s.raises p bits).fgetN g p.code = 1 := by
  induction bits with
  | nil => exact fun _ h => h
  | cons f bits ih =>
    intro s hs
    refine ih (fun b hb => h b (List.mem_cons_of_mem f hb)) _ ?_
    rcases h f List.mem_cons_self with rfl | ha
    · exact fgetN_raiseN s f p.code hg
    · exact (s.fgetN_apart f g _ _ 1 ha).trans hs

theorem raises_mem (p : PortId) {g : Fld} (hg : g.ok = true ∧ g.lo = g.hi) {bits : List Fld} (hm : g ∈ bits)
    (h : ∀ f ∈ bits, f = g ∨ f.apart g = true) : ∀ s : State, (s.raises p bits).fgetN g p.code = 1 := by
  induction bits with
  | nil => simp at hm
  | cons f bits ih =>
    intro s
    have hr : ∀ b ∈ bits, b = g ∨ b.apart g = true := fun b hb => h b (List.mem_cons_of_mem f hb)
    rcases List.mem_cons.1 hm with rfl | hm
    · refine raises_stays p hg hr _ ?_
      exact fgetN_raiseN s g p.code hg
    · exact ih hm hr _

/-- What a change leads to beyond its bits. -/
def changeTail : List Part := [.out, .devs, .rings, .icu, .reg .MOV_STS, .reg .ICU_ERR]

theorem change_tail (p : PortId) (bits : List Fld) (s : State) : Keeps (within changeTail) (s.raises p bits) (s.change p bits) := by
  unfold State.change
  split
  · next h =>
    rw [List.isEmpty_iff.1 h]
    exact Keeps.refl s
  · cases p with
    | root n => exact State.event1_keeps _ _ _ _ _ (Keeps.refl _) (covers_within (by decide))
    | hub d i => exact State.onDev_keeps d _ (Keeps.refl _) (covers_within (by decide))

theorem change_acts (p : PortId) (bits : List Fld) (s : State) : PortActs Device.calm p s (s.change p bits) := by
  refine (raises_acts p bits s).trans ?_
  cases p with
  | root n => exact .of_root n (change_tail (.root n) bits s) (by decide)
  | hub d i =>
    refine ⟨.of_keeps _ (change_tail (.hub d i) bits s) rfl rfl, .of_ports ((change_tail (.hub d i) bits s).part .ports rfl),
      fun _ _ => link_of_links ((change_tail (.hub d i) bits s).part .links rfl) _, ?_⟩
    intro d' i' hp
    cases hp
    unfold State.change
    split
    · next h =>
      rw [List.isEmpty_iff.1 h]
      exact ⟨.refl d s, rfl, List.prefix_refl _⟩
    · exact ⟨onDev_onlyDev _ d _, by rw [State.dev_onDev_same]; rfl, List.prefix_refl _⟩

section
variable (p : PortId) (bits : List Fld) (s : State)

theorem change_ports : (s.change p bits).ports = s.ports := ((change_tail p bits s).part .ports rfl).trans
  (by unfold State.raises; exact bits.foldlRecOn (motive := fun t : State => t.ports = s.ports) _ rfl fun _ h _ _ => h)

theorem change_links : (s.change p bits).links = s.links := ((change_tail p bits s).part .links rfl).trans
  (by unfold State.raises; exact bits.foldlRecOn (motive := fun t : State => t.links = s.links) _ rfl fun _ h _ _ => h)

variable {p bits} in
theorem change_mem {g : Fld} (i : Nat) (hi : i = p.code) (hg : g.ok = true ∧ g.lo = g.hi ∧ g.reg = .PRT_CHG) (hm : g ∈ bits)
    (h : ∀ f ∈ bits, f = g ∨ f.apart g = true) : (s.change p bits).fgetN g i = 1 := by
  subst hi
  exact ((change_tail p bits s).fgetN (by rw [hg.2.2]; rfl) _).trans (raises_mem p ⟨hg.1, hg.2.1⟩ hm h s)

variable {bits} in
theorem change_other {g : Fld} (i : Nat) (hg : g.reg = .PRT_STS ∨ g.reg = .PRT_CHG ∨ g.reg = .PRT_CTL) (h : ∀ f ∈ bits, f.apart g = true) :
    (s.change p bits).fgetN g i = s.fgetN g i := by
  refine ((change_tail p bits s).fgetN ?_ i).trans (raises_other p i h s)
  rcases hg with hg | hg | hg <;> rw [hg] <;> rfl

end

end Sys2Proof.Machine
end

section
/-! The transitions of a port (Tables 3.10 to 3.12), one after the other: what each leaves alone (`PortActs`), and what it sets at the port. -/

namespace Sys2Proof.Machine

/-! ### What a hub does upstream -/

/-- Hub `d` acts on its upstream links: no port and no port's end has changed, and the hub itself not in what `φ` shows of it. -/
structure HubUp (φ : Device → Device) (d : Nat) (s t : State) : Prop where
  keeps : Keeps (within [.out, .links, .devs, .txns]) s t
  links : ∀ p, t.link (.port p) = s.link (.port p)
  devs : OnlyDev d s t
  dev : φ (t.dev d) = φ (s.dev d)
  out : s.out <+: t.out

theorem HubUp.refl (φ : Device → Device) (d : Nat) (s : State) : HubUp φ d s s := ⟨Keeps.refl s, fun _ => rfl, .refl d s, rfl, List.prefix_refl _⟩

theorem HubUp.trans {φ : Device → Device} {d : Nat} {s t u : State} (h : HubUp φ d s t) (k : HubUp φ d t u) : HubUp φ d s u :=
  ⟨h.keeps.trans k.keeps, fun p => (k.links p).trans (h.links p), h.devs.trans k.devs, k.dev.trans h.dev, h.out.trans k.out⟩

theorem HubUp.acts {φ : Device → Device} {d : Nat} {s t : State} (h : HubUp φ d s t) (i : Nat) : PortActs φ (.hub d i) s t := by
  refine ⟨.of_keeps _ h.keeps rfl rfl, .of_ports (h.keeps.part .ports rfl), fun q _ => h.links q, fun d' i' hp => ?_⟩
  cases hp
  exact ⟨h.devs, h.dev, h.out⟩

theorem HubUp.onDev (φ : Device → Device) (d : Nat) (s : State) {f : Device → Device} (hf : φ (f (s.dev d)) = φ (s.dev d)) :
    HubUp φ d s (s.onDev d f) :=
  ⟨State.onDev_keeps d _ (Keeps.refl s) (covers_within (by decide)), fun _ => rfl, onDev_onlyDev s d f, by rw [State.dev_onDev_same, hf],
    List.prefix_refl _⟩

theorem HubUp.of_sends {φ : Device → Device} {s t : State} (d up : Nat) (h : Sends (.dev d up) s t) (k : Keeps (within [.out, .links, .txns]) s t) :
    HubUp φ d s t :=
  ⟨k.mono (by decide), fun p => h.others _ (code_dev_ne_port d up p).symm, .of_devs (k.part .devs rfl), by rw [dev_of_devs (k.part .devs rfl)], h.out⟩

theorem HubUp.onLink (φ : Device → Device) (d up : Nat) (s : State) (f : LinkEnd → LinkEnd) : HubUp φ d s (s.onLink (.dev d up) f) :=
  ⟨State.onLink_keeps _ _ (Keeps.refl s) (covers_within (by decide)), fun p => s.link_onLink_other f (code_dev_ne_port d up p).symm, .of_devs rfl, rfl,
    List.prefix_refl _⟩

theorem sendUp_hubUp (φ : Device → Device) (d : Nat) (p : Pkt) (s : State) : HubUp φ d s (s.sendUp d p) := by
  unfold State.sendUp
  split
  · next up _ => exact .of_sends d up (sendPkt_sends s _ p) (State.sendPkt_keeps _ p (Keeps.refl s) (covers_within (by decide)))
  · exact .onLink φ d 0 s _

theorem upFlush_hubUp (d n : Nat) : ∀ s : State, HubUp Device.calm d s (s.upFlush d n) := by
  induction n with
  | zero => exact fun s => .refl _ d s
  | succ n ih =>
    intro s
    unfold State.upFlush
    split
    · next p r _ => exact ((HubUp.onDev Device.calm d s rfl).trans (sendUp_hubUp _ d p _)).trans (ih _)
    · exact .refl _ d s

theorem onUpq_hubUp (d : Nat) (f : List (Nat × Option Pkt) → List (Nat × Option Pkt)) (s : State) : HubUp Device.calm d s (s.onUpq d f) :=
  (HubUp.onDev Device.calm d s rfl).trans (upFlush_hubUp d _ _)

/-- The end of a device goes down: what the device held of the link's delay and of the time goes with it. -/
theorem endDown_hubUp (d up : Nat) (s : State) : HubUp Device.face d s (s.endDown (.dev d up)) :=
  (((HubUp.onLink Device.face d up s _).trans (.onLink _ d up _ _)).trans (.onDev _ d _ rfl)).trans (.onDev _ d _ rfl)

theorem echo_hubUp (φ : Device → Device) (d up typ t : Nat) (again : Bool) (s : State) : HubUp φ d s (s.echo (.dev d up) typ t again) := by
  have h : HubUp φ d s (s.sendCtl (.dev d up) typ 0 0 0) :=
    .of_sends d up (sendCtl_sends s _ typ 0 0 0) (State.sendCtl_keeps _ typ 0 0 0 (Keeps.refl s) (covers_within (by decide)))
  unfold State.echo
  split
  · exact h
  · exact h.trans (.onLink φ d up _ _)

theorem hubSettle_hubUp (d t : Nat) (s : State) : HubUp Device.face d s (s.hubSettle d t) := by
  unfold State.hubSettle
  split
  · next typ up _ =>
    split
    · exact .refl _ d s
    · have h := (HubUp.onDev Device.face d s (f := fun v => { v with owesEcho := none, suspended := typ == 7 }) rfl).trans
        (echo_hubUp _ d up typ t false _)
      dsimp only
      split
      · exact h.trans (endDown_hubUp d up _)
      · exact h
  · exact .refl _ d s

/-! ### The end of a port goes down, and trains (R69, R94) -/

section
variable (p : PortId) (s : State)

theorem dropTicket_acts : PortActs Device.calm p s (s.dropTicket (.port p)) := by
  cases p with
  | root n => exact .refl _ _ s
  | hub d i =>
    unfold State.dropTicket
    dsimp only
    split
    · exact ((onUpq_hubUp d _ s).acts i).trans (onLink_acts _ _ _)
    · exact .refl _ _ s

theorem dropTicket_link : ∃ b, (s.dropTicket (.port p)).link (.port p) = { s.link (.port p) with ticket := b } := by
  cases p with
  | root n => exact ⟨_, rfl⟩
  | hub d i =>
    unfold State.dropTicket
    dsimp only
    split
    · exact ⟨false, by rw [State.link_onLink_same, (onUpq_hubUp d _ s).links]⟩
    · exact ⟨_, rfl⟩

theorem endDown_acts : PortActs Device.calm p s (s.endDown (.port p)) := (dropTicket_acts p s).trans (onLink_acts ..)

theorem endDown_link : ∃ b, (s.endDown (.port p)).link (.port p) = { s.link (.port p) with
    ticket := b, up := false, seenSent := false, seenRecv := false, peerCaps := none, waiting := [], ratePend := none, rx := [], held := [] } := by
  obtain ⟨b, hb⟩ := dropTicket_link p s
  refine ⟨b, ?_⟩
  unfold State.endDown
  dsimp only
  rw [State.link_onLink_same, hb]

theorem endDown_up : ((s.endDown (.port p)).link (.port p)).up = false := by
  obtain ⟨b, hb⟩ := endDown_link p s
  rw [hb]

theorem endFresh_acts : PortActs Device.calm p s (s.endFresh (.port p)) := (dropTicket_acts p s).trans (onLink_acts ..)

theorem endFresh_up : ((s.endFresh (.port p)).link (.port p)).up = false := by
  unfold State.endFresh
  rw [State.link_onLink_same]
  rfl

theorem sendCaps_acts {φ : Device → Device} : PortActs φ p s (s.sendCaps (.port p)) := (sendCtl_acts ..).trans (onLink_acts ..)

theorem sendCaps_up : ((s.sendCaps (.port p)).link (.port p)).up = (s.link (.port p)).up := by
  unfold State.sendCaps
  dsimp only
  rw [State.link_onLink_same]
  exact (sendCtl_sends s (.port p) 3 _ _ 0).own.up

theorem toRate_up (e : LinkEnd) (r : Nat) : (e.toRate r).up = e.up := by
  unfold LinkEnd.toRate
  split <;> rfl

theorem trainAt_acts (r : Nat) : PortActs Device.calm p s (s.trainAt (.port p) r) :=
  ((endDown_acts p s).trans (onLink_acts ..)).trans (sendCaps_acts ..)

theorem trainAt_up (r : Nat) : ((s.trainAt (.port p) r).link (.port p)).up = false := by
  unfold State.trainAt
  rw [sendCaps_up, State.link_onLink_same]
  exact (toRate_up _ r).trans (endDown_up p s)

theorem trainAt_rate (r : Nat) : ((s.trainAt (.port p) r).link (.port p)).rate = r := by
  unfold State.trainAt
  rw [(sendCaps_links _ _ _).1, State.link_onLink_same]
  exact toRate_rate ..

/-! ### Leaving for DISABLED, DISCONNECTED or ERROR -/

theorem portState_putState (st : Nat) (h : st < 16) : (s.putState p st).portState p = st :=
  (s.fgetN_fsetN_same .PRT_STS_STATE p.code st (by decide)).trans (Nat.mod_eq_of_lt h)

/-- A port that has left for a state, before its change bits: its end holds nothing of the link, and no command is under way there. -/
def State.left (s : State) (p : PortId) (st : Nat) : State :=
  (((s.putState p st).endFresh (.port p)).showRate p).onPort p fun x => { x with
    resetPending := false, prop := false, connecting := false, susp := .none, wakeHeld := false, suspByProp := false,
    wakeTraining := false, rateChg := none, rateNow := none, cfgWant := none, emptyTo := none }

theorem left_acts (st : Nat) : PortActs Device.calm p s (s.left p st) :=
  (((fsetN_acts p s _ st).trans (endFresh_acts ..)).trans (fsetN_acts ..)).trans (onPort_acts ..)

theorem left_other {g : Fld} (st i : Nat) (hg : Fld.apart .PRT_STS_STATE g = true ∧ Fld.apart .PRT_STS_RATE g = true) :
    (s.left p st).fgetN g i = s.fgetN g i :=
  calc (s.left p st).fgetN g i = ((s.putState p st).endFresh (.port p)).fgetN g i := State.fgetN_apart _ _ g _ i _ hg.2
    _ = (s.putState p st).fgetN g i :=
      (State.endFresh_keeps (.port p) (Keeps.refl _) (covers_within (l := [.out, .links, .devs, .txns]) (by decide))).fgetN rfl i
    _ = s.fgetN g i := s.fgetN_apart _ g _ i _ hg.1

theorem left_up (st : Nat) : ((s.left p st).link (.port p)).up = false := endFresh_up p _

/-- What a port that has left leads to: commands that waited for its rate complete, the contexts of a root port's tree move to GONE, and a hub waits for it
no longer. -/
theorem leave_tail (st : Nat) (bits : List Fld) : Keeps (within portTail) ((s.left p st).change p bits) (s.leave p st bits) := by
  have hc : Keeps (within portTail) ((s.left p st).change p bits) (((s.left p st).change p bits).rateCmd p stNoResponse 0) :=
    State.rateCmd_keeps p _ 0 (Keeps.refl _) (covers_within (by decide))
  unfold State.leave
  dsimp only
  cases p with
  | root n =>
    dsimp only
    split
    · exact State.subtreeGone_keeps n 0 0 false hc (covers_within (by decide))
    · exact hc
  | hub d i =>
    dsimp only
    split
    · exact State.hubSettle_keeps d _ hc (covers_within (by decide))
    · exact hc

/-- What an event of its whole tree leads to at a root port. -/
def treeParts : List Part := [.out, .ctxs, .cmgr, .txns, .rings, .entries, .deal, .icu, .pool, .smp, .reg .SCH_CTXCNT, .reg .MOV_STS, .reg .ICU_ERR,
  .reg .GTH_CNT, .reg .GTH_DROP, .reg .CDR_EVT, .reg .CDR_FLG]

theorem leave_tail_acts (st : Nat) (bits : List Fld) : PortActs Device.face p ((s.left p st).change p bits) (s.leave p st bits) ∧
    (s.leave p st bits).link (.port p) = (s.left p st).link (.port p) := by
  have hl := link_of_links (change_links p bits (s.left p st)) (.port p)
  have hr := rateCmd_acts (φ := Device.face) p ((s.left p st).change p bits) stNoResponse 0
  unfold State.leave
  dsimp only
  cases p with
  | root n =>
    dsimp only
    split
    · have hg (x : State) : Keeps (within treeParts) x (x.subtreeGone n 0 0) :=
        State.subtreeGone_keeps n 0 0 false (Keeps.refl x) (covers_within (List.Subset.refl _))
      exact ⟨hr.trans (.of_root n (hg _) (by decide)), (link_of_links ((hg _).part .links rfl) _).trans hl⟩
    · exact ⟨hr, hl⟩
  | hub d i =>
    dsimp only
    split
    · exact ⟨hr.trans ((hubSettle_hubUp d _ _).acts i), ((hubSettle_hubUp d _ _).links _).trans hl⟩
    · exact ⟨hr, hl⟩

theorem leave_acts (st : Nat) (bits : List Fld) : PortActs Device.face p s (s.leave p st bits) :=
  ((left_acts p s st).trans (change_acts p bits _)).face.trans (leave_tail_acts p s st bits).1

theorem leave_up (st : Nat) (bits : List Fld) : ((s.leave p st bits).link (.port p)).up = false := by
  rw [(leave_tail_acts p s st bits).2]
  exact left_up p s st

theorem leave_port (st : Nat) (bits : List Fld) : (s.leave p st bits).port p = { s.port p with
    resetPending := false, prop := false, connecting := false, susp := .none, wakeHeld := false, suspByProp := false,
    wakeTraining := false, rateChg := none, rateNow := none, cfgWant := none, emptyTo := none } := by
  have hf : Keeps (within [.out, .links, .devs, .txns]) (s.putState p st) ((s.putState p st).endFresh (.port p)) :=
    State.endFresh_keeps _ (Keeps.refl _) (covers_within (List.Subset.refl _))
  calc (s.leave p st bits).port p = ((s.left p st).change p bits).port p := port_of_ports ((leave_tail p s st bits).part .ports rfl) p
    _ = (s.left p st).port p := port_of_ports (change_ports p bits _) p
    _ = _ := State.port_onPort_same ..
    _ = _ := by rw [show (((s.putState p st).endFresh (.port p)).showRate p).port p = s.port p from port_of_ports (hf.part .ports rfl) p]

section
variable {p} {bits : List Fld}

theorem leave_mem {g : Fld} (st i : Nat) (hi : i = p.code) (hg : g.ok = true ∧ g.lo = g.hi ∧ g.reg = .PRT_CHG) (hm : g ∈ bits)
    (h : ∀ f ∈ bits, f = g ∨ f.apart g = true) : (s.leave p st bits).fgetN g i = 1 :=
  ((leave_tail p s st bits).fgetN (by rw [hg.2.2]; rfl) i).trans (change_mem _ i hi hg hm h)

theorem leave_other {g : Fld} (st i : Nat) (hr : g.reg = .PRT_STS ∨ g.reg = .PRT_CHG ∨ g.reg = .PRT_CTL)
    (hg : Fld.apart .PRT_STS_STATE g = true ∧ Fld.apart .PRT_STS_RATE g = true) (h : ∀ f ∈ bits, f.apart g = true) :
    (s.leave p st bits).fgetN g i = s.fgetN g i := by
  refine ((leave_tail p s st bits).fgetN ?_ i).trans ((change_other p _ i hr h).trans (left_other p s st i hg))
  rcases hr with hr | hr | hr <;> rw [hr] <;> rfl

theorem leave_state (st : Nat) (hs : st < 16) (h : ∀ f ∈ bits, f.apart .PRT_STS_STATE = true) : (s.leave p st bits).portState p = st := by
  have hf : Keeps (within [.out, .links, .devs, .txns]) (s.putState p st) ((s.putState p st).endFresh (.port p)) :=
    State.endFresh_keeps _ (Keeps.refl _) (covers_within (List.Subset.refl _))
  calc (s.leave p st bits).portState p = ((s.left p st).change p bits).portState p := (leave_tail p s st bits).fgetN rfl _
    _ = (s.left p st).portState p := change_other p _ _ (.inl rfl) h
    _ = ((s.putState p st).endFresh (.port p)).portState p := State.fgetN_apart _ .PRT_STS_RATE .PRT_STS_STATE _ _ _ (by decide)
    _ = (s.putState p st).portState p := hf.fgetN rfl _
    _ = st := portState_putState p s st hs

end

/-! ### RETRAINING (Table 3.11) -/

/-- The counters of an event that enters RETRAINING. -/
def State.retrainNoted (s : State) (p : PortId) (t : Nat) : State :=
  (s.countN .PRT_STS_RETRAINS p.code 1).onPort p fun x => { x with
    retrains := t :: (s.port p).retrains.filter fun x => decide (t ≤ x + second), susp := .none, rateNow := none,
    rate5Before := (s.link (.port p)).rate == 1 }

/-- The bits with which the third event within a second enters ERROR. -/
def errorBits (bits : List Fld) : List Fld := .PRT_CHG_RETRAIN :: .PRT_CHG_ERROR :: bits.filter fun f => f != .PRT_CHG_RETRAIN

theorem errorBits_all {q : Fld → Prop} {bits : List Fld} (hr : q .PRT_CHG_RETRAIN) (he : q .PRT_CHG_ERROR) (h : ∀ f ∈ bits, q f) :
    ∀ f ∈ errorBits bits, q f := by
  intro f hf
  simp only [errorBits, List.mem_cons, List.mem_filter] at hf
  rcases hf with rfl | rfl | ⟨hf, -⟩
  · exact hr
  · exact he
  · exact h f hf

theorem toRetrain_eq (rate t : Nat) (bits : List Fld) : s.toRetrain p rate t bits =
    if 2 ≤ ((s.port p).retrains.filter fun x => decide (t ≤ x + second)).length then (s.retrainNoted p t).leave p 9 (errorBits bits)
    else ((((s.retrainNoted p t).putState p 5).trainAt (.port p) rate).showRate p).change p bits := rfl

/-- A port in training again, before its change bits. -/
def State.retrained (s : State) (p : PortId) (rate t : Nat) : State :=
  (((s.retrainNoted p t).putState p 5).trainAt (.port p) rate).showRate p

theorem retrainNoted_acts (t : Nat) : PortActs Device.calm p s (s.retrainNoted p t) := (fsetN_acts p s _ _).trans (onPort_acts ..)

theorem toRetrain_acts (rate t : Nat) (bits : List Fld) : PortActs Device.face p s (s.toRetrain p rate t bits) := by
  rw [toRetrain_eq]
  split
  · exact (retrainNoted_acts p s t).face.trans (leave_acts ..)
  · exact ((((retrainNoted_acts p s t).trans (fsetN_acts ..)).trans (trainAt_acts ..)).trans (fsetN_acts ..)).trans (change_acts ..) |>.face

theorem toRetrain_up (rate t : Nat) (bits : List Fld) : ((s.toRetrain p rate t bits).link (.port p)).up = false := by
  rw [toRetrain_eq]
  split
  · exact leave_up ..
  · rw [link_of_links (change_links ..)]
    exact trainAt_up p _ rate

/-- What training again leaves of the port and of its registers. -/
theorem retrained_keeps (rate t : Nat) : Keeps (within [.out, .links, .devs, .txns]) ((s.retrainNoted p t).putState p 5)
    (((s.retrainNoted p t).putState p 5).trainAt (.port p) rate) := State.trainAt_keeps _ rate (Keeps.refl _) (covers_within (List.Subset.refl _))

theorem toRetrain_port (rate t : Nat) (bits : List Fld) : ((s.toRetrain p rate t bits).port p).rateChg = none ∨
    (s.toRetrain p rate t bits).port p = (s.retrainNoted p t).port p := by
  rw [toRetrain_eq]
  split
  · exact .inl (by rw [leave_port])
  · exact .inr ((port_of_ports (change_ports ..) p).trans (port_of_ports ((retrained_keeps p s rate t).part .ports rfl) p))

theorem toRetrain_rateChg (rate t : Nat) (bits : List Fld) (h : (s.port p).rateChg = none) :
    ((s.toRetrain p rate t bits).port p).rateChg = none := by
  rcases toRetrain_port p s rate t bits with e | e
  · exact e
  · rw [e, State.retrainNoted, State.port_onPort_same]
    exact h

section
variable {p} {bits : List Fld}

theorem toRetrain_state (rate t : Nat) (h : ∀ f ∈ bits, f.apart .PRT_STS_STATE = true) : (s.toRetrain p rate t bits).portState p =
    if 2 ≤ ((s.port p).retrains.filter fun x => decide (t ≤ x + second)).length then 9 else 5 := by
  rw [toRetrain_eq]
  split
  · exact leave_state _ 9 (by decide) (errorBits_all rfl rfl h)
  · calc _ = (s.retrained p rate t).portState p := change_other p _ _ (.inl rfl) h
      _ = (((s.retrainNoted p t).putState p 5).trainAt (.port p) rate).portState p := State.fgetN_apart _ .PRT_STS_RATE .PRT_STS_STATE _ _ _ (by decide)
      _ = ((s.retrainNoted p t).putState p 5).portState p := (retrained_keeps p s rate t).fgetN rfl _
      _ = 5 := portState_putState p _ 5 (by decide)

theorem toRetrain_5_or_9 (rate t : Nat) (h : ∀ f ∈ bits, f.apart .PRT_STS_STATE = true) :
    (s.toRetrain p rate t bits).portState p = 5 ∨ (s.toRetrain p rate t bits).portState p = 9 := by
  rw [toRetrain_state s rate t h]
  split
  · exact .inr rfl
  · exact .inl rfl

/-- A port that trains again does so at the rate asked for. -/
theorem toRetrain_rate (rate t : Nat) (h : ∀ f ∈ bits, f.apart .PRT_STS_STATE = true) (h5 : (s.toRetrain p rate t bits).portState p = 5) :
    ((s.toRetrain p rate t bits).link (.port p)).rate = rate := by
  rw [toRetrain_state s rate t h] at h5
  rw [toRetrain_eq]
  split at h5
  · simp at h5
  · next hn =>
    rw [if_neg hn, link_of_links (change_links ..)]
    exact trainAt_rate p _ rate

theorem toRetrain_mem {g : Fld} (rate t i : Nat) (hi : i = p.code) (hg : g.ok = true ∧ g.lo = g.hi ∧ g.reg = .PRT_CHG) (hm : g ∈ bits)
    (h : ∀ f ∈ bits, f = g ∨ f.apart g = true) (he : g = .PRT_CHG_RETRAIN ∨ Fld.apart .PRT_CHG_RETRAIN g = true)
    (h9 : Fld.apart .PRT_CHG_ERROR g = true) : (s.toRetrain p rate t bits).fgetN g i = 1 := by
  rw [toRetrain_eq]
  split
  · refine leave_mem _ 9 i hi hg ?_ (errorBits_all (he.imp Eq.symm id) (.inr h9) h)
    by_cases hr : g = .PRT_CHG_RETRAIN
    · simp [errorBits, hr]
    · simp [errorBits, hr, hm]
  · exact change_mem _ i hi hg hm h

theorem toRetrain_other {g : Fld} (rate t i : Nat) (hr : g.reg = .PRT_STS) (hg : Fld.apart .PRT_STS_STATE g = true ∧
    Fld.apart .PRT_STS_RATE g = true ∧ Fld.apart .PRT_STS_RETRAINS g = true) (h : ∀ f ∈ bits, f.apart g = true)
    (he : Fld.apart .PRT_CHG_RETRAIN g = true ∧ Fld.apart .PRT_CHG_ERROR g = true) :
    (s.toRetrain p rate t bits).fgetN g i = s.fgetN g i := by
  have hn : (s.retrainNoted p t).fgetN g i = s.fgetN g i := s.fgetN_apart _ g _ i _ hg.2.2
  rw [toRetrain_eq, ← hn]
  split
  · exact leave_other _ 9 i (.inl hr) ⟨hg.1, hg.2.1⟩ (errorBits_all he.1 he.2 h)
  · calc _ = (s.retrained p rate t).fgetN g i := change_other p _ _ (.inl hr) h
      _ = (((s.retrainNoted p t).putState p 5).trainAt (.port p) rate).fgetN g i := State.fgetN_apart _ _ g _ _ _ hg.2.1
      _ = ((s.retrainNoted p t).putState p 5).fgetN g i := (retrained_keeps p s rate t).fgetN (by rw [hr]; rfl) _
      _ = _ := State.fgetN_apart _ _ g _ _ _ hg.1

end

end

/-! ### A link that fell -/

/-- What a power entry in progress loses of a port that fell. -/
def lateParts : List Part := [.out, .rings, .icu, .pwr, .reg .MOV_STS, .reg .ICU_ERR, .reg .PWR_STS, .reg .PWR_EVT, .reg .PWR_WAKE, .reg .PWR_RCNT]

section
variable (p : PortId) (t : Nat) (s : State)

theorem linkFell_tail : Keeps (within lateParts) (s.toRetrain p 0 t [.PRT_CHG_RETRAIN]) (s.linkFell p t) :=
  State.portLate_keeps p (Keeps.refl _) (covers_within (List.Subset.refl _))

theorem linkFell_acts : PortActs Device.face p s (s.linkFell p t) := by
  refine (toRetrain_acts p s 0 t [.PRT_CHG_RETRAIN]).trans ?_
  cases p with
  | root n => exact .of_root n (linkFell_tail (.root n) t s) (by decide)
  | hub d i => exact .refl _ _ _

theorem linkFell_state : (s.linkFell p t).portState p =
    if 2 ≤ ((s.port p).retrains.filter fun x => decide (t ≤ x + second)).length then 9 else 5 :=
  ((linkFell_tail p t s).fgetN rfl _).trans (toRetrain_state s 0 t (by decide))

theorem linkFell_5_or_9 : (s.linkFell p t).portState p = 5 ∨ (s.linkFell p t).portState p = 9 := by
  rw [linkFell_state]
  split
  · exact .inr rfl
  · exact .inl rfl

theorem linkFell_up : ((s.linkFell p t).link (.port p)).up = false := by
  rw [link_of_links ((linkFell_tail p t s).part .links rfl)]
  exact toRetrain_up ..

variable {p} in
theorem linkFell_bit (i : Nat) (hi : i = p.code) : (s.linkFell p t).fgetN .PRT_CHG_RETRAIN i = 1 :=
  ((linkFell_tail p t s).fgetN rfl _).trans (toRetrain_mem s 0 t i hi (by decide) (by decide) (by decide) (by decide) (by decide))

end

/-! ### Commands that are repeated until they are echoed (R93) -/

theorem awaits_of_mem {s : State} {l : LinkEndId} {typ : Nat} {e : LinkEnd} (h : (s.link l).waiting = e.waiting)
    (hm : e.waiting.any (fun c => c.typ == typ) = true) : s.awaits l typ = true := by
  rw [State.awaits, h, hm]

/-- A command that has started is awaited. -/
theorem startCtl_awaits (s : State) (l : LinkEndId) (typ t : Nat) : (s.startCtl l typ t).awaits l typ = true := by
  have hw (f : LinkEnd → LinkEnd) (hf : (f (s.link l)).waiting.any (fun c => c.typ == typ) = true) : (s.onLink l f).awaits l typ = true := by
    rw [State.awaits, State.link_onLink_same, hf]
  have hs (x : State) (h : x.awaits l typ = true) : (x.sendCtl l typ 0 0 0).awaits l typ = true := by
    rw [State.awaits, (sendCtl_sends x l typ 0 0 0).own.waiting]
    exact h
  unfold State.startCtl
  dsimp only
  split
  · split
    · exact hw _ (by simp)
    · exact hs _ (hw _ (by simp))
  · exact hs _ (hw _ (by simp))

/-- One whose echo was taken is not. -/
theorem echoTaken_awaits (s : State) (l : LinkEndId) (typ t : Nat) : (s.echoTaken l typ t).awaits l typ = false := by
  rw [State.awaits, State.echoTaken, State.link_onLink_same, State.stopCtl, State.link_onLink_same]
  simp

theorem awaits_of_links {s t : State} (h : t.links = s.links) (l : LinkEndId) (typ : Nat) : t.awaits l typ = s.awaits l typ := by
  rw [State.awaits, link_of_links h]
  rfl

theorem echoTaken_acts {φ : Device → Device} (p : PortId) (s : State) (typ t : Nat) : PortActs φ p s (s.echoTaken (.port p) typ t) :=
  (stopCtl_acts p s typ).trans (onLink_acts ..)

/-! ### RESETTING (R101, R102) -/

/-- A port that has sent RESET. -/
def State.resetSent (s : State) (p : PortId) (t : Nat) (connect : Bool) : State :=
  (((s.putState p 3).onPort p fun x => { x with resetPending := false, connecting := connect, susp := .none }).stopCtl
    (.port p) 7).startCtl (.port p) 6 t

section
variable (p : PortId) (t : Nat) (connect : Bool) (s : State)

/-- Behind it, the bus reset of a root port's tree. -/
theorem enterResetting_tail : Keeps (within treeParts) (s.resetSent p t connect) (s.enterResetting p t connect) := by
  unfold State.enterResetting
  cases p with
  | root n =>
    dsimp only
    split
    · exact State.busReset_keeps n 0 0 (Keeps.refl _) (covers_within (List.Subset.refl _))
    · exact Keeps.refl _
  | hub d i => exact Keeps.refl _

theorem enterResetting_acts {φ : Device → Device} : PortActs φ p s (s.enterResetting p t connect) := by
  have h : PortActs φ p s (s.resetSent p t connect) :=
    (((fsetN_acts p s _ 3).trans (onPort_acts ..)).trans (stopCtl_acts ..)).trans (startCtl_acts ..)
  refine h.trans ?_
  cases p with
  | root n => exact .of_root n (enterResetting_tail (.root n) t connect s) (by decide)
  | hub d i => exact .refl ..

theorem enterResetting_state : (s.enterResetting p t connect).portState p = 3 := by
  have hk : Keeps (within [.out, .ports, .links]) (s.putState p 3) (s.resetSent p t connect) :=
    State.startCtl_keeps _ 6 t (State.stopCtl_keeps _ 7 (State.onPort_keeps p _ (Keeps.refl _) (covers_within (by decide)))
      (covers_within (by decide))) (covers_within (by decide))
  exact ((enterResetting_tail p t connect s).fgetN rfl _).trans ((hk.fgetN rfl _).trans (portState_putState p s 3 (by decide)))

theorem enterResetting_awaits : (s.enterResetting p t connect).awaits (.port p) 6 = true :=
  (awaits_of_links ((enterResetting_tail p t connect s).part .links rfl) _ _).trans (startCtl_awaits ..)

end

/-! ### RESUMING (R104–R106) -/

section
variable (p : PortId) (s : State)

theorem startResume_state (w : Bool) : (s.startResume p w).portState p = 7 := portState_putState p s 7 (by decide)

theorem startResume_acts {φ : Device → Device} (w : Bool) : PortActs φ p s (s.startResume p w) := (fsetN_acts p s _ 7).trans (onPort_acts ..)

theorem train_keeps : Keeps (within [.out, .links, .devs, .txns]) s (s.train (.port p)) :=
  State.train_keeps _ (Keeps.refl s) (covers_within (List.Subset.refl _))

theorem hostResume_acts : PortActs Device.calm p s (s.hostResume p) := (startResume_acts p s false).trans (trainAt_acts ..)

theorem hostResume_state : (s.hostResume p).portState p = 7 := ((train_keeps p _).fgetN rfl _).trans (startResume_state p s false)

theorem hostResume_forWake : ((s.hostResume p).port p).forWake = false := by
  rw [show (s.hostResume p).port p = (s.startResume p false).port p from port_of_ports ((train_keeps p _).part .ports rfl) p, State.startResume,
    State.port_onPort_same]

theorem acceptWake_tail (bits : List Fld) : Keeps (within [.out, .pwr, .reg .PWR_STS, .reg .PWR_WAKE])
    ((s.raiseN .PRT_STS_WAKE_SEEN p.code).change p (.PRT_CHG_WAKE :: bits)) (s.acceptWake p bits) := by
  cases p with
  | root n => exact State.treeWake_keeps n (Keeps.refl _) (covers_within (List.Subset.refl _))
  | hub d i => exact Keeps.refl _

theorem acceptWake_acts (bits : List Fld) : PortActs Device.calm p s (s.acceptWake p bits) := by
  refine ((fsetN_acts p s .PRT_STS_WAKE_SEEN 1).trans (change_acts p (.PRT_CHG_WAKE :: bits) _)).trans ?_
  cases p with
  | root n => exact .of_root n (acceptWake_tail (.root n) s bits) (by decide)
  | hub d i => exact .refl ..

/-- A wake from SUSPENDED, accepted. -/
def State.woken (s : State) (p : PortId) : State := (s.startResume p true).acceptWake p []

theorem woken_acts : PortActs Device.calm p s (s.woken p) := (startResume_acts p s true).trans (acceptWake_acts ..)

theorem woken_change {g : Fld} (i : Nat) (hg : g.reg = .PRT_STS ∨ g.reg = .PRT_CHG) : (s.woken p).fgetN g i =
    (((s.startResume p true).raiseN .PRT_STS_WAKE_SEEN p.code).change p [.PRT_CHG_WAKE]).fgetN g i := by
  refine (acceptWake_tail p _ []).fgetN ?_ i
  rcases hg with hg | hg <;> rw [hg] <;> rfl

theorem woken_state : (s.woken p).portState p = 7 :=
  calc (s.woken p).portState p = _ := woken_change p s _ (.inl rfl)
    _ = ((s.startResume p true).raiseN .PRT_STS_WAKE_SEEN p.code).portState p := change_other p _ _ (.inl rfl) (by decide)
    _ = (s.startResume p true).portState p := State.fgetN_apart _ .PRT_STS_WAKE_SEEN .PRT_STS_STATE _ _ _ (by decide)
    _ = 7 := startResume_state p s true

variable {p} in
theorem woken_seen (i : Nat) (hi : i = p.code) : (s.woken p).fgetN .PRT_STS_WAKE_SEEN i = 1 := by
  subst hi
  exact (woken_change p s _ (.inl rfl)).trans ((change_other p _ _ (.inl rfl) (by decide)).trans (fgetN_raiseN _ _ _ (by decide)))

variable {p} in
theorem woken_bit (i : Nat) (hi : i = p.code) : (s.woken p).fgetN .PRT_CHG_WAKE i = 1 :=
  (woken_change p s _ (.inr rfl)).trans (change_mem _ i hi (by decide) (by decide) (by decide))

/-- What a port that resumes for a wake does next: it trains, moves on to Rate 5, or sends RESUME or the RESET that was asked for. -/
theorem wakeResume_cases (t : Nat) : s.wakeResume p t = (s.woken p).train (.port p) ∨
    s.wakeResume p t = ((s.woken p).onPort p fun x => { x with rateNow := some ⟨1, 0, true, false, false, false, false⟩ }).sendRateReq p true ∨
    (s.wakeResume p t = (s.woken p).enterResetting p t false ∧ ((s.woken p).port p).resetPending = true) ∨
    s.wakeResume p t = (s.woken p).startCtl (.port p) 8 t := by
  have h7 := woken_state p s
  unfold State.wakeResume
  rw [show (s.startResume p true).acceptWake p [] = s.woken p from rfl]
  dsimp only
  split
  · unfold State.portLinked
    split
    · exact .inr (.inl rfl)
    · unfold State.portUp
      simp only [h7]
      split
      · next hr => exact .inr (.inr (.inl ⟨rfl, hr⟩))
      · exact .inr (.inr (.inr rfl))
  · exact .inl rfl

theorem sendRateReq_acts {φ : Device → Device} (now : Bool) : PortActs φ p s (s.sendRateReq p now) := by
  unfold State.sendRateReq
  split
  · exact (sendCtl_acts ..).trans (onPort_acts ..)
  · exact .refl ..

theorem wakeResume_acts (t : Nat) : PortActs Device.calm p s (s.wakeResume p t) := by
  refine (woken_acts p s).trans ?_
  rcases wakeResume_cases p s t with h | h | ⟨h, -⟩ | h <;> rw [h]
  · exact trainAt_acts p _ 0
  · exact (onPort_acts ..).trans (sendRateReq_acts ..)
  · exact enterResetting_acts ..
  · exact startCtl_acts ..

/-- Where no RESET waits, nothing of PRT_STS and PRT_CHG changes behind the wake. -/
theorem wakeResume_tail (t : Nat) (h : (s.port p).resetPending = false) :
    Keeps (within [.out, .ports, .links, .devs, .txns]) (s.woken p) (s.wakeResume p t) := by
  have hp : (s.woken p).port p = (s.startResume p true).port p :=
    (port_of_ports ((acceptWake_tail p _ []).part .ports rfl) p).trans (port_of_ports (change_ports ..) p)
  have hr : ((s.woken p).port p).resetPending = false := by
    rw [hp, State.startResume, State.port_onPort_same]
    exact h
  rcases wakeResume_cases p s t with h | h | ⟨-, h⟩ | h
  · exact h ▸ (train_keeps p _).mono (by decide)
  · exact h ▸ State.sendRateReq_keeps p true (State.onPort_keeps p _ (Keeps.refl _) (covers_within (by decide))) (covers_within (by decide))
  · simp [hr] at h
  · exact h ▸ State.startCtl_keeps _ 8 t (Keeps.refl _) (covers_within (by decide))

end

end Sys2Proof.Machine
end

section
/-! Rate changes (R93, R99, R108, Table 3.13), and from that O7. -/

namespace Sys2Proof.Machine

/-! ### A rate change dropped, refused or withdrawn -/

section
variable (p : PortId) (why : Nat) (s : State)

theorem rateDrop_acts {φ : Device → Device} : PortActs φ p s (s.rateDrop p why) :=
  ((fsetN_acts p s _ _).trans (onPort_acts ..)).trans (rateCmd_acts ..)

theorem rateDrop_port : (s.rateDrop p why).port p = { s.port p with rateChg := none } :=
  port_changed (f := fun x => { x with rateChg := none }) rfl

theorem rateDrop_links : (s.rateDrop p why).links = s.links := rfl

theorem rateDrop_other {g : Fld} (i : Nat) (hg : Fld.apart .PRT_STS_REFUSE_WHY g = true) : (s.rateDrop p why).fgetN g i = s.fgetN g i :=
  s.fgetN_apart _ g _ i _ hg

theorem rateDrop_why (h : why < 4) : (s.rateDrop p why).fgetN .PRT_STS_REFUSE_WHY p.code = why :=
  (s.fgetN_fsetN_same .PRT_STS_REFUSE_WHY p.code why (by decide)).trans (Nat.mod_eq_of_lt h)

theorem rateRefuse_acts : PortActs Device.calm p s (s.rateRefuse p why) := (rateDrop_acts ..).trans (change_acts ..)

theorem rateRefuse_state : (s.rateRefuse p why).portState p = s.portState p :=
  (change_other p _ _ (.inl rfl) (by decide)).trans (rateDrop_other p why s _ (by decide))

end

section
variable (p : PortId) (s : State)

/-- What a change of the RATE policy leads to that gives way to a manager's command. -/
theorem rateWithdraw_kept : Keeps (within [.out, .ports, .rings, .sched, .icu, .reg .MOV_STS, .reg .ICU_ERR]) s (s.rateWithdraw p) :=
  State.rateWithdraw_keeps p (Keeps.refl s) (covers_within (List.Subset.refl _))

theorem rateWithdraw_state : (s.rateWithdraw p).portState p = s.portState p := (rateWithdraw_kept p s).fgetN rfl _

theorem rateWithdraw_hub (d i : Nat) : s.rateWithdraw (.hub d i) = s := rfl

/-- Of the port only the change under way has gone, and the entries of the schedule are as before. -/
theorem rateWithdraw_port : (∃ c, (s.rateWithdraw p).port p = { s.port p with rateChg := c }) ∧ OnlyPort p s (s.rateWithdraw p) ∧
    (s.rateWithdraw p).sched.active = s.sched.active := by
  have hstay : (∃ c, s.port p = { s.port p with rateChg := c }) ∧ OnlyPort p s s ∧ s.sched.active = s.sched.active :=
    ⟨⟨_, rfl⟩, .refl p s, rfl⟩
  unfold State.rateWithdraw
  split
  · next n c _ =>
    split
    · have hk : Keeps (within [.out, .rings, .icu, .reg .MOV_STS, .reg .ICU_ERR]) s (s.policyReport 0 0xA8 n) :=
        State.policyReport_keeps _ _ _ (Keeps.refl s) (covers_within (List.Subset.refl _))
      have ha : (s.policyReport 0 0xA8 n).sched.active = s.sched.active := by rw [show (s.policyReport 0 0xA8 n).sched = s.sched from hk.part .sched rfl]
      refine ⟨⟨none, ?_⟩, (OnlyPort.of_ports (hk.part .ports rfl)).trans
        (.of_changed (f := fun x => { x with rateChg := none }) rfl), show _ = _ from ?_⟩
      · exact (port_changed (s := s.policyReport 0 0xA8 n) (f := fun x => { x with rateChg := none }) rfl).trans
          (by rw [port_of_ports (hk.part .ports rfl)])
      · exact ha
    · exact hstay
  · exact hstay

theorem rateWithdraw_acts {φ : Device → Device} : PortActs φ p s (s.rateWithdraw p) := by
  cases p with
  | root n => exact ⟨.of_keeps _ (rateWithdraw_kept (.root n) s) rfl rfl, (rateWithdraw_port (.root n) s).2.1,
      fun _ _ => link_of_links ((rateWithdraw_kept (.root n) s).part .links rfl) _, fun _ _ hp => by simp at hp⟩
  | hub d i => exact .refl ..

end

/-! ### RATE_REQ and RATE_ACK -/

theorem answers_rateReqReceive {s : State} {d up : Nat} (arg frameNo : Nat) (f : FreeToSend (.dev d up) 16 s) :
    Answers (.rateReqReceive d up arg frameNo) s fun t =>
      t.out = s.out ++ [.send (.dev d up) (s.link (.dev d up)).rate (linkctl 5 0 arg frameNo)] ∧
      (t.link (.dev d up)).ratePend = some (nfield arg 0 0, frameNo, nfield arg 1 1 == 1) ∧ OnlyLink (.dev d up) s t := by
  refine answers_of_exec rfl (fun P cv => execRateReqReceive_keeps d up arg frameNo (Keeps.refl s) cv) ⟨?_, ?_, ?_⟩
  · exact congrArg State.out (sendCtl_of_free 5 0 arg frameNo f)
  · rw [State.link_onLink_same]
  · exact (sendCtl_sends s _ 5 0 arg frameNo).others.trans (onLink_onlyLink _ _ _)

theorem answers_rateAckReceive {s : State} {p : PortId} {c : RateChange} {arg : Nat} (hc : (s.port p).rateChg = some c) (hr : c.reqSent = true)
    (ht : nfield arg 0 0 = c.target) (hn : nfield arg 1 1 = 0) : Answers (.rateAckReceive p arg c.sFrame) s fun t =>
      t.port p = { s.port p with rateChg := some { c with acked := true } } ∧ OnlyPort p s t ∧ t.links = s.links := by
  have e : exec (.rateAckReceive p arg c.sFrame) s = .next (s.onPort p fun x => { x with rateChg := some { c with acked := true } }) := by
    change execRateAckReceive p arg c.sFrame s = _
    simp only [execRateAckReceive, hn, hc, hr, ht]
    simp
  exact answers_of_exec e (fun P cv => execRateAckReceive_keeps p arg c.sFrame (Keeps.refl s) cv)
    ⟨State.port_onPort_same .., onPort_onlyPort s p _, rfl⟩

theorem answers_rateAckReceive_now {s : State} {p : PortId} {c : RateChange} {arg : Nat} (hc : (s.port p).rateNow = some c) (hr : c.reqSent = true)
    (ha : c.acked = false) (ht : nfield arg 0 0 = c.target) (hn : nfield arg 1 1 = 1) : Answers (.rateAckReceive p arg c.sFrame) s fun t =>
      t.port p = { s.port p with rateNow := some { c with acked := true } } ∧ OnlyPort p s t ∧
      t.link (.port p) = (s.link (.port p)).toRate c.target ∧ OnlyLink (.port p) s t := by
  have e : exec (.rateAckReceive p arg c.sFrame) s =
      .next ((s.onPort p fun x => { x with rateNow := some { c with acked := true } }).onLink (.port p) fun e => e.toRate c.target) := by
    change execRateAckReceive p arg c.sFrame s = _
    simp only [execRateAckReceive, hn, hc, hr, ht, ha]
    simp
  exact answers_of_exec e (fun P cv => execRateAckReceive_keeps p arg c.sFrame (Keeps.refl s) cv)
    ⟨port_changed (f := fun x => { x with rateNow := some { c with acked := true } }) rfl,
      .of_changed (f := fun x => { x with rateNow := some { c with acked := true } }) rfl, State.link_onLink_same .., onLink_onlyLink _ _ _⟩

theorem exec_rateReqRepeat {s : State} {p : PortId} (h : (s.port p).rateNow = none) : exec (.rateReqRepeat p) s =
    .next (if (s.port p).rateChg.any RateChange.unacked && !s.inGuard (.port p) then s.sendRateReq p false else s) := by
  change execRateReqRepeat p s = _
  simp [execRateReqRepeat, h]

theorem answers_rateReqRepeat {s : State} {p : PortId} {c : RateChange} (hc : (s.port p).rateChg = some c) (hn : (s.port p).rateNow = none)
    (hr : c.reqSent = true) (ha : c.acked = false) (hg : s.inGuard (.port p) = false) (f : FreeToSend (.port p) 16 s) :
    Answers (.rateReqRepeat p) s fun t =>
      t.out = s.out ++ [.send (.port p) (s.link (.port p)).rate (linkctl 4 0 (c.target + 2 * bit c.now) c.sFrame)] ∧ t.port p = s.port p ∧
        OnlyPort p s t := by
  have hsame : some { c with reqSent := true } = (s.port p).rateChg := by rw [hc, ← hr]
  have e := exec_rateReqRepeat hn
  have hu : (s.port p).rateChg.any RateChange.unacked = true := by simp [hc, RateChange.unacked, hr, ha]
  rw [hu, hg, Bool.not_false, Bool.and_self, if_pos rfl] at e
  simp only [State.sendRateReq, Bool.false_eq_true, if_false, hc, sendCtl_of_free _ _ _ _ f] at e
  refine answers_of_exec e (fun P cv => execRateReqRepeat_keeps p (Keeps.refl s) cv) ⟨rfl, ?_, onPort_onlyPort _ p _⟩
  rw [State.port_onPort_same]
  exact congrArg (fun o => { s.port p with rateChg := o }) hsame

theorem rateReqRepeat_guard {s : State} {p : PortId} (hn : (s.port p).rateNow = none) (hg : s.inGuard (.port p) = true) :
    exec (.rateReqRepeat p) s = .next s := by
  rw [exec_rateReqRepeat hn, hg]
  simp

/-! ### RATE_LOCK and RATE_LOCK_TIMEOUT -/

/-- A port whose switch has lock, before its change bit. -/
def State.rateLocked (s : State) (p : PortId) : State :=
  (((s.putState p 4).onPort p fun x => { x with rateChg := none }).onLink (.port p) fun e => { e with up := true }).showRate p

/-- With its change bit, once what was kept is sent again. -/
def State.rateChanged (s : State) (p : PortId) (c : RateChange) (tTx : Int) : State :=
  (((s.rateLocked p).change p [.PRT_CHG_RATE_CHG]).resendAll (.port p) tTx).rateCmd p stOk c.sFrame

theorem exec_rateLock {s : State} {p : PortId} {c : RateChange} (t : Nat) (tTx : Int) (hc : (s.port p).rateChg = some c)
    (h8 : s.portState p = 8) (hr : (s.link (.port p)).rxOk = true) :
    exec (.rateLock (.port p) t tTx) s = .next (((s.at_ t).rateChanged p c tTx).rateMoved p c) := by
  change execRateLock (.port p) t tTx s = _
  unfold execRateLock
  dsimp only
  rw [if_neg (by rw [show ((s.at_ t).link (.port p)).rxOk = true from hr]; simp), if_pos (show (s.at_ t).portState p = 8 from h8),
    show ((s.at_ t).port p).rateChg = some c from hc]
  rfl

/-- The RATE policy's own note of a move leaves what the port shows, its end, and its change. -/
theorem rateMoved_port (s : State) (p : PortId) (c : RateChange) : ∃ b, (s.rateMoved p c).port p = { s.port p with byRate := b } := by
  unfold State.rateMoved
  split
  · next n =>
    split
    · have hk : Keeps (within [.out, .rings, .icu, .reg .GCTL_POLICY_STS, .reg .MOV_STS, .reg .ICU_ERR]) s (s.policyAction 0 0x80 n) :=
        State.policyAction_keeps _ _ _ (Keeps.refl s) (covers_within (List.Subset.refl _))
      exact ⟨true, (State.port_onPort_same ..).trans (congrArg (fun x : Port => { x with byRate := true }) (port_of_ports (hk.part .ports rfl) _))⟩
    · split
      · exact ⟨false, State.port_onPort_same ..⟩
      · exact ⟨_, rfl⟩
  · exact ⟨_, rfl⟩

theorem rateMoved_kept (s : State) (p : PortId) (c : RateChange) :
    Keeps (within [.out, .pol, .ports, .rings, .icu, .hlt, .reg .GCTL_POLICY_STS, .reg .MOV_STS, .reg .ICU_ERR]) s (s.rateMoved p c) :=
  State.rateMoved_keeps p c (Keeps.refl s) (covers_within (List.Subset.refl _))

/-- What follows the change bit leaves what the port shows. -/
theorem rateChanged_kept (s : State) (p : PortId) (c : RateChange) (tTx : Int) :
    Keeps (within [.out, .links, .txns, .cmds]) ((s.rateLocked p).change p [.PRT_CHG_RATE_CHG]) (s.rateChanged p c tTx) :=
  State.rateCmd_keeps p _ _ (State.resendAll_keeps _ tTx (Keeps.refl _) (covers_within (by decide))) (covers_within (by decide))

theorem portState_rateLocked (s : State) (p : PortId) : (s.rateLocked p).portState p = 4 :=
  (State.fgetN_apart _ .PRT_STS_RATE .PRT_STS_STATE p.code _ _ (by decide)).trans (portState_putState p s 4 (by decide))

theorem link_rateChanged (s : State) (p : PortId) (c : RateChange) (tTx : Int) :
    ((s.rateChanged p c tTx).link (.port p)).up = true ∧ ((s.rateChanged p c tTx).link (.port p)).rate = (s.link (.port p)).rate := by
  have hs := (resendAll_sends ((s.rateLocked p).change p [.PRT_CHG_RATE_CHG]) (.port p) tTx).own
  rw [link_of_links (change_links ..)] at hs
  have hl : (s.rateLocked p).link (.port p) = { s.link (.port p) with up := true } := link_changed (f := fun e => { e with up := true }) rfl
  exact ⟨hs.up.trans (by rw [hl]), hs.rate.trans (by rw [hl])⟩

theorem answers_rateLock {s : State} {p : PortId} {c : RateChange} {t : Nat} {tTx : Int} (hc : (s.port p).rateChg = some c)
    (h8 : s.portState p = 8) (hr : (s.link (.port p)).rxOk = true) : Answers (.rateLock (.port p) t tTx) s fun t' =>
      t'.portState p = 4 ∧ t'.fgetN .PRT_CHG_RATE_CHG p.code = 1 ∧ (t'.port p).rateChg = none ∧ (t'.link (.port p)).up = true ∧
      (t'.link (.port p)).rate = (s.link (.port p)).rate := by
  have hm := rateMoved_kept ((s.at_ t).rateChanged p c tTx) p c
  have hk := rateChanged_kept (s.at_ t) p c tTx
  obtain ⟨b, hb⟩ := rateMoved_port ((s.at_ t).rateChanged p c tTx) p c
  have hp : ((s.at_ t).rateLocked p).port p = { s.port p with rateChg := none } := port_changed (f := fun x => { x with rateChg := none }) rfl
  have hl := link_of_links (hm.part .links rfl) (.port p)
  refine answers_of_exec (exec_rateLock t tTx hc h8 hr) (fun P cv => execRateLock_keeps (.port p) t tTx (Keeps.refl s) cv) ⟨?_, ?_, ?_, ?_, ?_⟩
  · exact (hm.fgetN rfl _).trans ((hk.fgetN rfl _).trans ((change_other p _ _ (.inl rfl) (by decide)).trans (portState_rateLocked _ p)))
  · exact (hm.fgetN rfl _).trans ((hk.fgetN rfl _).trans (change_mem _ _ rfl (by decide) (by decide) (by decide)))
  · rw [hb, port_of_ports (hk.part .ports rfl), port_of_ports (change_ports ..), hp]
  · rw [hl]
    exact (link_rateChanged ..).1
  · rw [hl]
    exact (link_rateChanged ..).2

theorem exec_rateLockTimeout {s : State} {p : PortId} (t : Nat) (h8 : s.portState p = 8) : exec (.rateLockTimeout (.port p) t) s =
    .next (((s.at_ t).rateDrop p 3).toRetrain p (s.port p).oldRate t [.PRT_CHG_RATE_REFUSED]) := if_pos h8

theorem answers_rateLockTimeout_port {s : State} {p : PortId} {t : Nat} (h8 : s.portState p = 8) :
    Answers (.rateLockTimeout (.port p) t) s fun t' =>
      (t'.portState p = 5 ∨ t'.portState p = 9) ∧ t'.fgetN .PRT_CHG_RATE_REFUSED p.code = 1 ∧ t'.fgetN .PRT_STS_REFUSE_WHY p.code = 3 ∧
      (t'.port p).rateChg = none ∧ (t'.link (.port p)).up = false ∧ (t'.portState p = 5 → (t'.link (.port p)).rate = (s.port p).oldRate) := by
  refine answers_of_exec (exec_rateLockTimeout t h8) (fun P cv => execRateLockTimeout_keeps (.port p) t (Keeps.refl s) cv) ⟨?_, ?_, ?_, ?_, ?_, ?_⟩
  · exact toRetrain_5_or_9 _ _ t (by decide)
  · exact toRetrain_mem _ _ t _ rfl (by decide) (by decide) (by decide) (by decide) (by decide)
  · exact (toRetrain_other _ _ t _ rfl (by decide) (by decide) (by decide)).trans (rateDrop_why p 3 _ (by decide))
  · exact toRetrain_rateChg p _ _ t _ (by rw [rateDrop_port])
  · exact toRetrain_up ..
  · exact toRetrain_rate _ _ t (by decide)

theorem answers_rateLockTimeout_dev {s : State} {d up t r f : Nat} {b : Bool} (h : (s.link (.dev d up)).ratePend = some (r, f, b)) :
    Answers (.rateLockTimeout (.dev d up) t) s fun t' =>
      (t'.link (.dev d up)).rate = 1 - r ∧ (t'.link (.dev d up)).ratePend = none ∧ OnlyLink (.dev d up) s t' := by
  refine answers_of_exec rfl (fun P cv => execRateLockTimeout_keeps (.dev d up) t (Keeps.refl s) cv) ?_
  have hl : (s.at_ t).link (.dev d up) = s.link (.dev d up) := rfl
  refine ⟨?_, ?_, onLink_onlyLink _ _ _⟩ <;> rw [State.link_onLink_same, hl, h]
  exact toRate_rate _ _

/-- Settles O7: the messages of a rate change, its repeats outside the guard band, and its end, with lock and without it. -/
theorem rateChangesRunToTheirEnd : Obligations.RateChangesRunToTheirEnd := by
  unfold Obligations.RateChangesRunToTheirEnd
  exact ⟨fun _ _ _ arg frameNo f => answers_rateReqReceive arg frameNo f, fun _ _ _ _ hc hr ht hn => answers_rateAckReceive hc hr ht hn,
    fun _ _ _ _ hc hr ha ht hn => answers_rateAckReceive_now hc hr ha ht hn,
    fun _ _ _ hc hn hr ha hg f => answers_rateReqRepeat hc hn hr ha hg f, fun _ _ hn hg => rateReqRepeat_guard hn hg,
    fun _ _ _ _ _ hc h8 hr => answers_rateLock hc h8 hr, fun _ _ _ _ _ h8 => answers_rateLockTimeout_port h8,
    fun _ _ _ _ _ _ _ h => answers_rateLockTimeout_dev h⟩

end Sys2Proof.Machine
end

section
/-! The commands of a port (R102, R103, R107, Tables 3.11 and 3.12), and from them O9. -/

namespace Sys2Proof.Machine

/-! ### What a command does at a port -/

section
variable (p : PortId) (s : State)

theorem refuseCmd_bit (i : Nat) (hi : i = p.code) : (s.refuseCmd p).fgetN .PRT_CHG_CMD_REFUSED i = 1 :=
  change_mem s i hi (by decide) (by decide) (by decide)

theorem refuseCmd_state : (s.refuseCmd p).portState p = s.portState p := change_other p s _ (.inl rfl) (by decide)

theorem refuseCmd_port (q : PortId) : (s.refuseCmd p).port q = s.port q := port_of_ports (change_ports ..) q

variable {p s}

/-- RESET at an ENABLED port. -/
theorem portReset_enabled (t : Nat) (h : s.portState p = 4) : s.portReset p t = (s.rateWithdraw p).enterResetting p t false := by
  simp [State.portReset, h]

/-- RESET at a port without a device. -/
theorem portReset_disconnected (t : Nat) (h : s.portState p = 1) : s.portReset p t = s.refuseCmd p := by
  simp [State.portReset, h]

theorem portRetrain_enabled (t : Nat) (h : s.portState p = 4) : s.portRetrain p t = (s.rateWithdraw p).linkFell p t := if_pos h

theorem portResume_suspended (h : s.portState p = 6) : s.portResume p = (s.rateWithdraw p).hostResume p := if_pos h

theorem portClearError_error (h : s.portState p = 9) : s.portClearError p = s.putState p 1 := if_pos h

end

/-! ### Commands of PRT_CTLn -/

theorem field_lt (w : DWord) (hi lo : Nat) : field w hi lo < 2 ^ (hi + 1 - lo) := Nat.mod_lt _ (Nat.two_pow_pos _)

/-- A write of PRT_CTLn, before what it makes of the port: ENABLE and RWAKE_EN take their values. -/
def State.ctlSet (s : State) (n en rw t : Nat) : State := ((s.at_ t).fsetN .PRT_CTL_RWAKE_EN n rw).fsetN .PRT_CTL_ENABLE n en

/-- The parts that such a write writes. -/
theorem ctlSet_kept (s : State) (n en rw t : Nat) : Keeps (within [.tim, .reg .PRT_CTL]) s (s.ctlSet n en rw t) :=
  State.fsetN_keeps _ n en (State.fsetN_keeps _ n rw (State.at__keeps t (Keeps.refl s) (covers_within (by decide))) (covers_within (by decide)))
    (covers_within (by decide))

theorem ctlSet_enable (s : State) (n en rw t : Nat) (h : en < 2) : (s.ctlSet n en rw t).fgetN .PRT_CTL_ENABLE n = en :=
  (State.fgetN_fsetN_same _ .PRT_CTL_ENABLE n en (by decide)).trans (Nat.mod_eq_of_lt h)

theorem ctlSet_rwake (s : State) (n en rw t : Nat) (h : rw < 2) : (s.ctlSet n en rw t).fgetN .PRT_CTL_RWAKE_EN n = rw :=
  (State.fgetN_apart _ .PRT_CTL_ENABLE .PRT_CTL_RWAKE_EN n n en (by decide)).trans
    ((State.fgetN_fsetN_same _ .PRT_CTL_RWAKE_EN n rw (by decide)).trans (Nat.mod_eq_of_lt h))

/-- The state that a command bit of PRT_CTLn finds at an enabled port: ENABLE and RWAKE_EN were written as they were. -/
def State.commanded (s : State) (n t : Nat) : State := s.ctlSet n 1 (s.fgetN .PRT_CTL_RWAKE_EN n) t

theorem commanded_kept (s : State) (n t : Nat) : Keeps (within [.tim, .reg .PRT_CTL]) s (s.commanded n t) := ctlSet_kept ..

section
variable {s : State} {n t : Nat}

theorem commanded_state (p : PortId) : (s.commanded n t).portState p = s.portState p := (commanded_kept s n t).fgetN rfl _

theorem commanded_port (p : PortId) : (s.commanded n t).port p = s.port p := port_of_ports ((commanded_kept s n t).part .ports rfl) p

end

/-- A write of PRT_CTLn that leaves an enabled port enabled and RWAKE_EN as it was: the command bit in it acts, in the order of R107. -/
theorem portCtl_commanded {s : State} {n : Nat} (t : Nat) (hn : n < s.nPorts) {data : Nat} (h0 : s.portState (.root n) ≠ 0)
    (hd : nfield data 0 0 = 1) (hw : nfield data 1 1 = s.fgetN .PRT_CTL_RWAKE_EN n) : s.portCtl n data t =
    if nfield data 7 7 = 1 then (s.commanded n t).portClearError (.root n)
    else if nfield data 3 3 = 1 then (s.commanded n t).portReset (.root n) t
    else if nfield data 5 5 = 1 then (s.commanded n t).portResume (.root n)
    else if nfield data 4 4 = 1 then (s.commanded n t).portSuspend (.root n) t
    else if nfield data 6 6 = 1 then (s.commanded n t).portRetrain (.root n) t
    else s.commanded n t := by
  have hs : ((s.commanded n t).portState (.root n) != 0) = true := by simp [commanded_state, h0]
  have hstay : (s.commanded n t).portEnable (.root n) true = s.commanded n t := by simp only [State.portEnable, hs, if_true]
  rw [State.portCtl, if_pos hn, hd, hw]
  dsimp only
  rw [show ((s.at_ t).fsetN .PRT_CTL_RWAKE_EN n (s.fgetN .PRT_CTL_RWAKE_EN n)).fsetN .PRT_CTL_ENABLE n 1 = s.commanded n t from rfl,
    show ((1 : Nat) == 1) = true from rfl, hstay]

section
variable {s : State} {n : Nat} (t : Nat) (hr : s.ready = true) (hn : n < s.nPorts)
include hr hn

/-- A write of PRT_CTLn at a present port, with no command in it. -/
theorem exec_portEnable (en rw : Bool) :
    exec (.portEnable n en rw t) s = .next ((s.ctlSet n (bit en) (bit rw) t).portEnable (.root n) en) := by
  change s.whenReady _ = _
  rw [State.whenReady, if_pos hr, State.portCtl, if_pos hn]
  cases en <;> cases rw <;> rfl

variable (he : s.fgetN .PRT_CTL_ENABLE n = 1) (h0 : s.portState (.root n) ≠ 0)
include he h0

/-- A command bit beside the values that ENABLE and RWAKE_EN have. -/
theorem whenReady_portCtl {b : Nat} (hb : b ∈ [8, 16, 32, 64, 128]) : s.whenReady (.next (s.portCtl n (b + s.ctlKept n) t)) = .next (
    if b = 128 then (s.commanded n t).portClearError (.root n)
    else if b = 8 then (s.commanded n t).portReset (.root n) t
    else if b = 32 then (s.commanded n t).portResume (.root n)
    else if b = 16 then (s.commanded n t).portSuspend (.root n) t
    else (s.commanded n t).portRetrain (.root n) t) := by
  have hw : s.fgetN .PRT_CTL_RWAKE_EN n = 0 ∨ s.fgetN .PRT_CTL_RWAKE_EN n = 1 := by
    have hlt : s.fgetN .PRT_CTL_RWAKE_EN n < 2 := field_lt (s.rd Fld.PRT_CTL_RWAKE_EN.reg n) 1 1
    omega
  have hkept : s.ctlKept n = 1 + 2 * s.fgetN .PRT_CTL_RWAKE_EN n := by rw [State.ctlKept, he]
  simp only [List.mem_cons, List.not_mem_nil, or_false] at hb
  rw [State.whenReady, if_pos hr, hkept, portCtl_commanded t hn h0]
  all_goals rcases hw with hw | hw <;> rw [hw] <;> rcases hb with rfl | rfl | rfl | rfl | rfl <;> rfl

theorem exec_portClearError : exec (.portClearError n t) s = .next ((s.commanded n t).portClearError (.root n)) :=
  whenReady_portCtl t hr hn he h0 (b := 128) (by decide)

theorem exec_portReset : exec (.portReset n t) s = .next ((s.commanded n t).portReset (.root n) t) :=
  whenReady_portCtl t hr hn he h0 (b := 8) (by decide)

theorem exec_portResume : exec (.portResume n t) s = .next ((s.commanded n t).portResume (.root n)) :=
  whenReady_portCtl t hr hn he h0 (b := 32) (by decide)

theorem exec_portSuspend : exec (.portSuspend n t) s = .next ((s.commanded n t).portSuspend (.root n) t) :=
  whenReady_portCtl t hr hn he h0 (b := 16) (by decide)

theorem exec_portRetrain : exec (.portRetrain n t) s = .next ((s.commanded n t).portRetrain (.root n) t) :=
  whenReady_portCtl t hr hn he h0 (b := 64) (by decide)

end

/-! ### ENABLE -/

theorem bit_lt (b : Bool) : bit b < 2 := by cases b <;> decide

theorem answers_portEnable_on {s : State} {n t : Nat} {rwake : Bool} (hr : s.ready = true) (hn : n < s.nPorts) (h0 : s.portState (.root n) = 0) :
    Answers (.portEnable n true rwake t) s fun t' =>
      t'.portState (.root n) = 1 ∧ t'.fgetN .PRT_CTL_ENABLE n = 1 ∧ t'.fgetN .PRT_CTL_RWAKE_EN n = bit rwake ∧ t'.fgetN .PRT_STS_RETRAINS n = 0 := by
  have e := exec_portEnable t hr hn true rwake
  rw [State.portEnable, show (s.ctlSet n (bit true) (bit rwake) t).portState (.root n) = 0 from ((ctlSet_kept s n _ _ t).fgetN rfl _).trans h0] at e
  simp only [bne_self_eq_false, if_true, Bool.false_eq_true, if_false] at e
  have hk (x : State) : Keeps (within [.reg .PRT_STS]) x ((x.fsetN .PRT_STS_RETRAINS n 0).putState (.root n) 1) :=
    State.putState_keeps _ 1 (State.fsetN_keeps _ n 0 (Keeps.refl x) (covers_within (by decide))) (covers_within (by decide))
  refine answers_of_exec e (fun P cv => execPortEnable_keeps n true rwake t (Keeps.refl s) cv) ⟨?_, ?_, ?_, ?_⟩
  · exact portState_putState _ _ 1 (by decide)
  · exact ((hk _).fgetN rfl n).trans (ctlSet_enable s n 1 _ t (by decide))
  · exact ((hk _).fgetN rfl n).trans (ctlSet_rwake s n _ _ t (bit_lt rwake))
  · exact (State.fgetN_apart _ .PRT_STS_STATE .PRT_STS_RETRAINS n n 1 (by decide)).trans (State.fgetN_fsetN_same _ .PRT_STS_RETRAINS n 0 (by decide))

/-- A port that is disabled: its state, and what it leaves of PRT_CTL. -/
theorem portEnable_off (p : PortId) (s : State) : (s.portEnable p false).portState p = 0 ∧
    ∀ g i, g.reg = .PRT_CTL → (s.portEnable p false).fgetN g i = s.fgetN g i := by
  have hbits (st : Nat) : ∀ f ∈ (if st = 4 ∨ st = 5 ∨ st = 6 ∨ st = 7 ∨ st = 8 then [Fld.PRT_CHG_DISCONNECT] else []), f.reg = .PRT_CHG := by
    intro f hf
    split at hf <;> simp_all [Fld.PRT_CHG_DISCONNECT]
  have hapart {g f : Fld} (hf : f.reg = .PRT_CHG) (hg : g.reg ≠ .PRT_CHG) : f.apart g = true := by simp [Fld.apart, hf, hg]
  unfold State.portEnable
  dsimp only
  rw [if_neg Bool.false_ne_true]
  have hfault (x : State) {g : Fld} (i : Nat) (hg : Fld.apart .PRT_STS_TX_FAULT g = true) : (x.fsetN .PRT_STS_TX_FAULT p.code 0).fgetN g i = x.fgetN g i :=
    x.fgetN_apart _ g _ i 0 hg
  have hctl {f g : Fld} (hf : f.reg = .PRT_STS) (hg : g.reg = .PRT_CTL) : f.apart g = true := by simp [Fld.apart, hf, hg]
  by_cases hw : s.portState p = 0
  · rw [show (s.portState p != 0) = false by simp [hw], if_neg Bool.false_ne_true]
    exact ⟨(hfault s _ (by decide)).trans hw, fun g i hg => hfault s i (hctl rfl hg)⟩
  · rw [show (s.portState p != 0) = true by simp [hw], if_pos rfl]
    refine ⟨(hfault _ _ (by decide)).trans (leave_state _ 0 (by decide) fun f hf => hapart (hbits _ f hf) (by decide)), fun g i hg => ?_⟩
    refine (hfault _ i (hctl rfl hg)).trans ((leave_other _ 0 i (.inr (.inr hg)) ⟨hctl rfl hg, hctl rfl hg⟩ fun f hf =>
      hapart (hbits _ f hf) (by rw [hg]; decide)).trans ?_)
    exact (rateWithdraw_kept p s).fgetN (by rw [hg]; rfl) i

theorem answers_portEnable_off {s : State} {n t : Nat} {rwake : Bool} (hr : s.ready = true) (hn : n < s.nPorts) :
    Answers (.portEnable n false rwake t) s fun t' =>
      t'.portState (.root n) = 0 ∧ t'.fgetN .PRT_CTL_ENABLE n = 0 ∧ t'.fgetN .PRT_CTL_RWAKE_EN n = bit rwake := by
  obtain ⟨hst, hctl⟩ := portEnable_off (.root n) (s.ctlSet n (bit false) (bit rwake) t)
  refine answers_of_exec (exec_portEnable t hr hn false rwake) (fun P cv => execPortEnable_keeps n false rwake t (Keeps.refl s) cv) ⟨hst, ?_, ?_⟩
  · exact (hctl _ n rfl).trans (ctlSet_enable s n 0 _ t (by decide))
  · exact (hctl _ n rfl).trans (ctlSet_rwake s n _ _ t (bit_lt rwake))

/-! ### The command bits -/

section
variable {s : State} {n t : Nat} (hr : s.ready = true) (hn : n < s.nPorts) (he : s.fgetN .PRT_CTL_ENABLE n = 1)
include hr hn he

theorem answers_portClearError (h9 : s.portState (.root n) = 9) : Answers (.portClearError n t) s fun t' => t'.portState (.root n) = 1 := by
  have e := exec_portClearError t hr hn he (by omega)
  rw [portClearError_error ((commanded_state _).trans h9)] at e
  exact answers_of_exec e (fun P cv => execPortClearError_keeps n t (Keeps.refl s) cv) (portState_putState _ _ 1 (by decide))

theorem answers_portRetrain (h4 : s.portState (.root n) = 4) : Answers (.portRetrain n t) s fun t' =>
    (t'.portState (.root n) = 5 ∨ t'.portState (.root n) = 9) ∧ t'.fgetN .PRT_CHG_RETRAIN n = 1 := by
  have e := exec_portRetrain t hr hn he (by omega)
  rw [portRetrain_enabled t ((commanded_state _).trans h4)] at e
  exact answers_of_exec e (fun P cv => execPortRetrain_keeps n t (Keeps.refl s) cv) ⟨linkFell_5_or_9 .., linkFell_bit _ _ n rfl⟩

theorem answers_portResume (h6 : s.portState (.root n) = 6) : Answers (.portResume n t) s fun t' =>
    t'.portState (.root n) = 7 ∧ (t'.port (.root n)).forWake = false := by
  have e := exec_portResume t hr hn he (by omega)
  rw [portResume_suspended ((commanded_state _).trans h6)] at e
  exact answers_of_exec e (fun P cv => execPortResume_keeps n t (Keeps.refl s) cv) ⟨hostResume_state .., hostResume_forWake ..⟩

theorem answers_portReset (h4 : s.portState (.root n) = 4) : Answers (.portReset n t) s fun t' =>
    t'.portState (.root n) = 3 ∧ t'.awaits (.port (.root n)) 6 = true := by
  have e := exec_portReset t hr hn he (by omega)
  rw [portReset_enabled t ((commanded_state _).trans h4)] at e
  exact answers_of_exec e (fun P cv => execPortReset_keeps n t (Keeps.refl s) cv) ⟨enterResetting_state .., enterResetting_awaits ..⟩

theorem answers_portReset_refused (h1 : s.portState (.root n) = 1) : Answers (.portReset n t) s fun t' =>
    t'.portState (.root n) = 1 ∧ t'.fgetN .PRT_CHG_CMD_REFUSED n = 1 := by
  have e := exec_portReset t hr hn he (by omega)
  rw [portReset_disconnected t ((commanded_state _).trans h1)] at e
  exact answers_of_exec e (fun P cv => execPortReset_keeps n t (Keeps.refl s) cv)
    ⟨(refuseCmd_state ..).trans ((commanded_state _).trans h1), refuseCmd_bit _ _ n rfl⟩

theorem answers_portSuspend_refused (h4 : s.portState (.root n) = 4) (ha : Tbl.get [] s.sched.active n ≠ []) :
    Answers (.portSuspend n t) s fun t' =>
      t'.portState (.root n) = 4 ∧ t'.fgetN .PRT_CHG_CMD_REFUSED n = 1 ∧ t'.port (.root n) = s.port (.root n) := by
  have e := exec_portSuspend t hr hn he (by omega)
  have hs : (s.commanded n t).sched = s.sched := (commanded_kept s n t).part .sched rfl
  have h4' : (s.commanded n t).portState (.root n) = 4 := (commanded_state _).trans h4
  have hc : ((s.commanded n t).portState (.root n) != 4 || !(Tbl.get [] (s.commanded n t).sched.active n).isEmpty) = true := by
    simp [hs, List.isEmpty_eq_false_iff.2 ha]
  rw [State.portSuspend] at e
  dsimp only at e
  rw [if_pos hc] at e
  exact answers_of_exec e (fun P cv => execPortSuspend_keeps n t (Keeps.refl s) cv)
    ⟨(refuseCmd_state ..).trans h4', refuseCmd_bit _ _ n rfl, (refuseCmd_port ..).trans (commanded_port _)⟩

end

/-- An accepted SUSPEND of a root port, before it is sent. -/
def State.suspendAccepted (s : State) (n : Nat) : State :=
  (s.rateWithdraw (.root n)).onPort (.root n) fun x => { x with susp := .accepted, wakeHeld := false }

theorem suspendAccepted_kept (s : State) (n : Nat) :
    Keeps (within [.out, .ports, .rings, .sched, .icu, .reg .MOV_STS, .reg .ICU_ERR]) s (s.suspendAccepted n) :=
  State.onPort_keeps _ _ (rateWithdraw_kept (.root n) s) (covers_within (by decide))

/-- It is sent once the hand has finished. -/
theorem suspendTry_port {s : State} {n : Nat} (t : Nat) (hs : (s.port (.root n)).susp = .accepted) (h4 : s.portState (.root n) = 4) :
    (s.suspendTry n t).portState (.root n) = 4 ∧ ((s.suspendTry n t).port (.root n)).susp = (if s.handDone n then .sent else .accepted) := by
  have hk : Keeps (within [.out, .ports, .links]) s (s.suspendTry n t) :=
    State.suspendTry_keeps n t (Keeps.refl s) (covers_within (List.Subset.refl _))
  refine ⟨(hk.fgetN rfl _).trans h4, ?_⟩
  unfold State.suspendTry
  split
  · rw [State.suspendSend, if_pos ⟨hs, h4⟩, State.port_onPort_same]
  · exact hs

theorem handDone_congr {s t : State} (ht : t.txns = s.txns) (hd : t.deal = s.deal) (n : Nat) : t.handDone n = s.handDone n := by
  simp only [State.handDone, ht, hd]

theorem answers_portSuspend {s : State} {n t : Nat} (hr : s.ready = true) (hn : n < s.nPorts) (he : s.fgetN .PRT_CTL_ENABLE n = 1)
    (h4 : s.portState (.root n) = 4) (ha : Tbl.get [] s.sched.active n = []) (hs : (s.port (.root n)).susp = .none) :
    Answers (.portSuspend n t) s fun t' =>
      t'.portState (.root n) = 4 ∧ (t'.port (.root n)).susp = (if s.handDone n then .sent else .accepted) := by
  have e := exec_portSuspend t hr hn he (by omega)
  have h4' : (s.commanded n t).portState (.root n) = 4 := (commanded_state _).trans h4
  have ha' : (s.commanded n t).sched = s.sched := (commanded_kept s n t).part .sched rfl
  have hc : ¬ ((s.commanded n t).portState (.root n) != 4 || !(Tbl.get [] (s.commanded n t).sched.active n).isEmpty) = true := by simp [h4', ha', ha]
  have hs' : ¬ (((s.commanded n t).port (.root n)).susp != .none) = true := by simp [commanded_port, hs]
  rw [State.portSuspend] at e
  dsimp only at e
  rw [if_neg hc, if_neg hs'] at e
  have hk := suspendAccepted_kept (s.commanded n t) n
  have hd : ((s.commanded n t).suspendAccepted n).handDone n = s.handDone n :=
    handDone_congr ((hk.part .txns rfl).trans ((commanded_kept s n t).part .txns rfl))
      ((hk.part .deal rfl).trans ((commanded_kept s n t).part .deal rfl)) n
  refine answers_of_exec e (fun P cv => execPortSuspend_keeps n t (Keeps.refl s) cv) ?_
  rw [← hd]
  exact suspendTry_port t (congrArg Port.susp (State.port_onPort_same ..)) ((hk.fgetN rfl _).trans h4')

/-- Settles O9: each command of PRT_CTLn acts as its function does on the port that it finds, whose ENABLE and RWAKE_EN it writes as they were. -/
theorem portCommandsAct : Obligations.PortCommandsAct := by
  unfold Obligations.PortCommandsAct
  exact ⟨fun _ _ _ _ hr hn h0 => answers_portEnable_on hr hn h0, fun _ _ _ _ hr hn => answers_portEnable_off hr hn,
    fun _ _ _ hr hn he h9 => answers_portClearError hr hn he h9, fun _ _ _ hr hn he h4 => answers_portRetrain hr hn he h4,
    fun _ _ _ hr hn he h6 => answers_portResume hr hn he h6, fun _ _ _ hr hn he h4 ha hs => answers_portSuspend hr hn he h4 ha hs,
    fun _ _ _ hr hn he h4 ha => answers_portSuspend_refused hr hn he h4 ha, fun _ _ _ hr hn he h4 => answers_portReset hr hn he h4,
    fun _ _ _ hr hn he h1 => answers_portReset_refused hr hn he h1⟩

end Sys2Proof.Machine
end

section
/-! Transceivers: the sideband chain, what is accepted of it, identification and diagnostics (R111–R114), and from them O11. -/

namespace Sys2Proof.Machine

/-! ### A fold that reaches each of its elements -/

/-- What the step at `a` brings about, and every other step keeps, holds behind a fold over a list with `a` in it. -/
theorem foldl_reaches {σ α : Type} {f : σ → α → σ} {q : σ → Prop} {a : α} (ha : ∀ s, q (f s a)) (hk : ∀ s b, q s → q (f s b))
    {l : List α}
    (hm : a ∈ l) (s : σ) : q (l.foldl f s) := by
  induction l generalizing s with
  | nil => simp at hm
  | cons b l ih =>
    rcases List.mem_cons.1 hm with rfl | hm
    · exact l.foldlRecOn (motive := q) _ (ha s) fun x hx c _ => hk x c hx
    · exact ih hm _

theorem flagN_eq_true {s : State} {f : Fld} {i : Nat} (h : s.fgetN f i = 1) : s.flagN f i = true := by simp [State.flagN, h]

theorem flagN_eq_false {s : State} {f : Fld} {i : Nat} (h : s.fgetN f i = 0) : s.flagN f i = false := by simp [State.flagN, h]

theorem flagN_bit {s : State} {f : Fld} {i : Nat} {b : Bool} (h : s.fgetN f i = bit b) : s.flagN f i = b := by
  cases b
  · exact flagN_eq_false h
  · exact flagN_eq_true h

theorem flagN_congr {s t : State} {f : Fld} {i : Nat} (h : t.fgetN f i = s.fgetN f i) : t.flagN f i = s.flagN f i := by
  simp only [State.flagN, h]

/-! ### The sideband chain (R113) -/

theorem get_map_upto {β : Type} (d : β) (f : Nat → β) {n c : Nat} (h : c < n) : Tbl.get d ((upto n).map fun c => (c, f c)) c = f c := by
  have hfind (l : List Nat) (hm : c ∈ l) : Tbl.find (l.map fun c => (c, f c)) c = some (f c) := by
    induction l with
    | nil => simp at hm
    | cons a l ih =>
      by_cases ha : a = c
      · simp [Tbl.find, ha]
      · simp only [List.map_cons, Tbl.find, if_neg ha]
        exact ih ((List.mem_cons.1 hm).resolve_left (Ne.symm ha))
  rw [Tbl.get, hfind (upto n) (List.mem_range.2 h)]
  rfl

/-- A scan without a CHAIN bit. -/
theorem scanned_good {s : State} {bits : Nat} (hb : ∀ c < 64, nfield bits (4 * c + 3) (4 * c + 3) = 0) (hf : s.side.fault = false) :
    s.scanned bits = s.onSide fun x => { x with
      chainBad := 0, chainGood := min 16 (x.chainGood + 1), txDisable := s.txDisableWord
      cages := (upto 64).map fun c => (c, (s.cage c).scan (nfield bits (4 * c) (4 * c) == 1) (nfield bits (4 * c + 1) (4 * c + 1) == 1)
        (nfield bits (4 * c + 2) (4 * c + 2) == 1)) } := by
  have hc : ((upto 64).any fun c => nfield bits (4 * c + 3) (4 * c + 3) == 1) = false := by
    simp only [List.any_eq_false, beq_iff_eq]
    intro c hm
    rw [hb c (List.mem_range.1 hm)]
    decide
  unfold State.scanned
  rw [hc, if_neg Bool.false_ne_true]
  dsimp only
  rw [if_neg (by simp [State.onSide, hf])]
  rfl

theorem scanned_bad {s : State} {bits c : Nat} (hc : c < 64) (hb : nfield bits (4 * c + 3) (4 * c + 3) = 1) :
    s.scanned bits = s.onSide fun x => { x with chainBad := min 2 (x.chainBad + 1), chainGood := 0 } := by
  have h : ((upto 64).any fun c => nfield bits (4 * c + 3) (4 * c + 3) == 1) = true :=
    List.any_eq_true.2 ⟨c, List.mem_range.2 hc, by simp [hb]⟩
  rw [State.scanned, if_pos h]

theorem answers_sidebandScan_good {s : State} {bits : Nat} (hb : ∀ c < 64, nfield bits (4 * c + 3) (4 * c + 3) = 0) (hf : s.side.fault = false) :
    Answers (.sidebandScan bits) s fun t =>
    t.side.chainBad = 0 ∧ t.side.txDisable = s.txDisableWord ∧ t.out = s.out ++ [.msc (mscBits s.txDisableWord)] ∧
    ∀ c < 64, t.cage c = (s.cage c).scan (nfield bits (4 * c) (4 * c) == 1) (nfield bits (4 * c + 1) (4 * c + 1) == 1)
      (nfield bits (4 * c + 2) (4 * c + 2) == 1) := by
  have e : exec (.sidebandScan bits) s = .next ((s.scanned bits).emit (.msc (mscBits (s.scanned bits).side.txDisable))) := rfl
  rw [scanned_good hb hf] at e
  exact answers_of_exec e (fun P cv => execSidebandScan_keeps bits (Keeps.refl s) cv) ⟨rfl, rfl, rfl, fun c hc => get_map_upto Cage.init _ hc⟩

theorem answers_sidebandScan_bad {s : State} {bits c : Nat} (hc : c < 64) (hb : nfield bits (4 * c + 3) (4 * c + 3) = 1) :
    Answers (.sidebandScan bits) s fun t => t.side = { s.side with chainBad := min 2 (s.side.chainBad + 1), chainGood := 0 } := by
  have e : exec (.sidebandScan bits) s = .next ((s.scanned bits).emit (.msc (mscBits (s.scanned bits).side.txDisable))) := rfl
  rw [scanned_bad hc hb] at e
  exact answers_of_exec e (fun P cv => execSidebandScan_keeps bits (Keeps.refl s) cv) rfl

/-! ### The chain's fault (R114) -/

/-- The fault shows on a port. -/
def State.showFault (s : State) (n : Nat) : State := (s.fsetN .PRT_STS_MSC_FAULT n 1).change (.root n) [.PRT_CHG_XCVR]

theorem showFault_same (s : State) (n : Nat) :
    (s.showFault n).fgetN .PRT_STS_MSC_FAULT n = 1 ∧ (s.showFault n).fgetN .PRT_CHG_XCVR n = 1 :=
  ⟨(change_other (.root n) _ n (.inl rfl) (by decide)).trans (s.fgetN_fsetN_same .PRT_STS_MSC_FAULT n 1 (by decide)),
    change_mem _ n rfl (by decide) (by decide) (by decide)⟩

theorem showFault_other (s : State) {n m : Nat} (h : n ≠ m) {g : Fld} (hg : g.reg = .PRT_STS ∨ g.reg = .PRT_CHG) :
    (s.showFault m).fgetN g n = s.fgetN g n :=
  ((change_acts (.root m) _ _).shown g n hg h).trans (s.fgetN_other _ g m n 1 h)

theorem showFault_kept (s : State) (n : Nat) :
    Keeps (within [.out, .devs, .rings, .icu, .reg .PRT_STS, .reg .PRT_CHG, .reg .MOV_STS, .reg .ICU_ERR]) s (s.showFault n) :=
  State.change_keeps (.root n) [.PRT_CHG_XCVR] (State.fsetN_keeps _ n 1 (Keeps.refl s) (covers_within (by decide))) (covers_within (by decide))

theorem answers_mscFault {s : State} (hb : 2 ≤ s.side.chainBad) (hf : s.side.fault = false) : Answers .mscFault s fun t =>
    t.side = { s.side with fault := true } ∧ ∀ n < s.nPorts, t.flagN .PRT_STS_MSC_FAULT n = true ∧ t.flagN .PRT_CHG_XCVR n = true := by
  have e : exec .mscFault s = .next ((upto s.nPorts).foldl State.showFault (s.onSide fun x => { x with fault := true })) := by
    change execMscFault s = _
    rw [execMscFault, if_pos ⟨hb, by simp [hf]⟩]
    rfl
  refine answers_of_exec e (fun P cv => execMscFault_keeps (Keeps.refl s) cv) ⟨?_, fun n hn => ?_⟩
  · refine (upto s.nPorts).foldlRecOn (motive := fun t : State => t.side = { s.side with fault := true }) _ rfl fun t ht m _ => ?_
    exact ((showFault_kept t m).part .side rfl).trans ht
  · have h := foldl_reaches (f := State.showFault) (q := fun t : State => t.fgetN .PRT_STS_MSC_FAULT n = 1 ∧ t.fgetN .PRT_CHG_XCVR n = 1) (a := n)
      (fun t => showFault_same t n) (fun t m ht => ?_) (List.mem_range.2 hn) (s.onSide fun x => { x with fault := true })
    · exact ⟨flagN_eq_true h.1, flagN_eq_true h.2⟩
    · by_cases hm : n = m
      · exact hm ▸ showFault_same t n
      · exact ⟨(showFault_other t hm (.inl rfl)).trans ht.1, (showFault_other t hm (.inr rfl)).trans ht.2⟩

/-- It shows there no more. -/
def State.hideFault (s : State) (n : Nat) : State := s.fsetN .PRT_STS_MSC_FAULT n 0

theorem hideFault_same (s : State) (n : Nat) : (s.hideFault n).fgetN .PRT_STS_MSC_FAULT n = 0 :=
  s.fgetN_fsetN_same .PRT_STS_MSC_FAULT n 0 (by decide)

theorem hideFault_side (s : State) (n : Nat) : (s.hideFault n).side = s.side := rfl

theorem answers_mscFault_over {s : State} (hb : s.side.chainBad < 2) (hg : 16 ≤ s.side.chainGood) (hf : s.side.fault = true) :
    Answers .mscFault s fun t =>
    t.side = { s.side with fault := false } ∧ ∀ n < s.nPorts, t.flagN .PRT_STS_MSC_FAULT n = false := by
  have e : exec .mscFault s = .next ((upto s.nPorts).foldl State.hideFault (s.onSide fun x => { x with fault := false })) := by
    change execMscFault s = _
    rw [execMscFault, if_neg (by omega), if_pos ⟨hg, hf⟩]
    rfl
  refine answers_of_exec e (fun P cv => execMscFault_keeps (Keeps.refl s) cv) ⟨?_, fun n hn => flagN_eq_false ?_⟩
  · refine (upto s.nPorts).foldlRecOn (motive := fun t : State => t.side = { s.side with fault := false }) _ rfl fun t ht m _ => ?_
    exact (hideFault_side t m).trans ht
  · refine foldl_reaches (f := State.hideFault) (q := fun t => t.fgetN .PRT_STS_MSC_FAULT n = 0) (fun t => hideFault_same t n) (fun t m ht => ?_)
      (List.mem_range.2 hn) _
    by_cases hm : n = m
    · exact hm ▸ hideFault_same t n
    · exact (t.fgetN_other _ _ m n 0 hm).trans ht

/-! ### A transceiver goes, or faults (R114) -/

section
variable (s : State) (n : Nat)

theorem xcvrGone_cases : s.xcvrGone n = s.change (.root n) [.PRT_CHG_XCVR] ∨
    ∃ bits, (bits = [.PRT_CHG_XCVR] ∨ bits = [.PRT_CHG_DISCONNECT, .PRT_CHG_XCVR]) ∧ s.xcvrGone n = s.leave (.root n) 1 bits := by
  unfold State.xcvrGone
  dsimp only
  split
  · exact .inl rfl
  · refine .inr ⟨_, ?_, rfl⟩
    split
    · exact .inr rfl
    · exact .inl rfl

theorem xcvrGone_bit : (s.xcvrGone n).fgetN .PRT_CHG_XCVR n = 1 := by
  rcases xcvrGone_cases s n with h | ⟨bits, rfl | rfl, h⟩ <;> rw [h]
  · exact change_mem _ n rfl (by decide) (by decide) (by decide)
  · exact leave_mem _ 1 n rfl (by decide) (by decide) (by decide)
  · exact leave_mem _ 1 n rfl (by decide) (by decide) (by decide)

theorem xcvrGone_other {g : Fld} (hr : g.reg = .PRT_STS) (hg : Fld.apart .PRT_STS_STATE g = true ∧ Fld.apart .PRT_STS_RATE g = true) :
    (s.xcvrGone n).fgetN g n = s.fgetN g n := by
  have ha (f : Fld) (hf : f.reg = .PRT_CHG) : f.apart g = true := by simp [Fld.apart, hr, hf]
  rcases xcvrGone_cases s n with h | ⟨bits, rfl | rfl, h⟩ <;> rw [h]
  · exact change_other _ _ n (.inl hr) (by simp [ha])
  · exact leave_other _ 1 n (.inl hr) hg (by simp [ha])
  · exact leave_other _ 1 n (.inl hr) hg (by simp [ha])

/-- A port with a cage that is not DISABLED is DISCONNECTED. -/
theorem xcvrGone_state (h0 : s.portState (.root n) ≠ 0) (hc : field (s.port (.root n)).cfg 4 4 = 1) :
    (s.xcvrGone n).portState (.root n) = 1 ∧ OnlyPort (.root n) s (s.xcvrGone n) := by
  have e : s.xcvrGone n = s.leave (.root n) 1 (if State.hasLink (s.portState (.root n)) ∨ (s.link (.port (.root n))).up then
      [.PRT_CHG_DISCONNECT, .PRT_CHG_XCVR] else [.PRT_CHG_XCVR]) := by
    unfold State.xcvrGone
    dsimp only
    rw [if_neg (by omega)]
    rfl
  rw [e]
  refine ⟨leave_state _ 1 (by decide) ?_, (leave_acts ..).ports⟩
  split <;> decide

end

/-! ### MOD_ABS, LOS and TX_FAULT (R114) -/

/-- The register and port of an accepted change of MOD_ABS, before what follows from it. -/
def State.presence (s : State) (n : Nat) (present : Bool) : State :=
  (s.fsetN .PRT_STS_XCVR_PRESENT n (bit present)).onPort (.root n) fun x => { x with identDone := false, reading := false }

theorem presence_flag (s : State) (n : Nat) (b : Bool) : (s.presence n b).fgetN .PRT_STS_XCVR_PRESENT n = bit b :=
  (s.fgetN_fsetN_same .PRT_STS_XCVR_PRESENT n _ (by decide)).trans (Nat.mod_eq_of_lt (bit_lt b))

theorem answers_modAbsChange_present {s : State} {n : Nat} (hn : n < s.nPorts) (hr : 1000 ≤ (s.cage n).modAbsRun) (hm : (s.cage n).modAbs = false)
    (hx : s.flagN .PRT_STS_XCVR_PRESENT n = false) : Answers (.modAbsChange n) s fun t =>
      t.flagN .PRT_STS_XCVR_PRESENT n = true ∧ t.flagN .PRT_CHG_XCVR n = true ∧ (t.port (.root n)).identDone = false ∧ OnlyPort (.root n) s t := by
  have e : exec (.modAbsChange n) s = .next ((s.presence n true).change (.root n) [.PRT_CHG_XCVR]) := by
    change execModAbsChange n s = _
    rw [execModAbsChange, if_pos ⟨hn, hr, hx.trans hm.symm⟩, hm]
    rfl
  have hp : ((s.presence n true).port (.root n)).identDone = false := by rw [State.presence, State.port_onPort_same]
  refine answers_of_exec e (fun P cv => execModAbsChange_keeps n (Keeps.refl s) cv) ⟨flagN_eq_true ?_, flagN_eq_true ?_, ?_, ?_⟩
  · exact (change_other _ _ n (.inl rfl) (by decide)).trans (presence_flag s n true)
  · exact change_mem _ n rfl (by decide) (by decide) (by decide)
  · rw [port_of_ports (change_ports ..)]
    exact hp
  · exact ((fsetN_acts (φ := Device.calm) (.root n) s _ _).trans (onPort_acts ..)).ports.trans (change_acts ..).ports

/-- A removal: what was known of the transceiver goes. -/
def State.removed (s : State) (n : Nat) : State :=
  (((s.presence n false).fsetN .PRT_STS_TX_FAULT n 0).fsetN .PRT_STS_XCVR_RATED n 0).fsetN .PRT_STS_CAL_OK n 0

theorem removed_other (s : State) (n : Nat) {g : Fld} (i : Nat) (h : Fld.apart .PRT_STS_TX_FAULT g = true ∧ Fld.apart .PRT_STS_XCVR_RATED g = true ∧
    Fld.apart .PRT_STS_CAL_OK g = true) : (s.removed n).fgetN g i = (s.presence n false).fgetN g i :=
  (State.fgetN_apart _ _ g n i _ h.2.2).trans ((State.fgetN_apart _ _ g n i _ h.2.1).trans (State.fgetN_apart _ _ g n i _ h.1))

theorem answers_modAbsChange_removed {s : State} {n : Nat} (hn : n < s.nPorts) (hr : 1000 ≤ (s.cage n).modAbsRun) (hm : (s.cage n).modAbs = true)
    (hx : s.flagN .PRT_STS_XCVR_PRESENT n = true) (h0 : s.portState (.root n) ≠ 0) (hc : field (s.port (.root n)).cfg 4 4 = 1) :
    Answers (.modAbsChange n) s fun t =>
      t.flagN .PRT_STS_XCVR_PRESENT n = false ∧ t.flagN .PRT_STS_TX_FAULT n = false ∧ t.flagN .PRT_CHG_XCVR n = true ∧
      t.portState (.root n) = 1 ∧ OnlyPort (.root n) s t := by
  have e : exec (.modAbsChange n) s = .next ((s.removed n).xcvrGone n) := by
    change execModAbsChange n s = _
    rw [execModAbsChange, if_pos ⟨hn, hr, hx.trans hm.symm⟩, hm]
    rfl
  have hst : (s.removed n).portState (.root n) = s.portState (.root n) :=
    (removed_other s n n (by decide)).trans (s.fgetN_apart .PRT_STS_XCVR_PRESENT .PRT_STS_STATE n n _ (by decide))
  have hport : (s.removed n).port (.root n) = { s.port (.root n) with identDone := false, reading := false } :=
    port_changed (f := fun x => { x with identDone := false, reading := false }) rfl
  have hf : (s.removed n).fgetN .PRT_STS_TX_FAULT n = 0 :=
    (State.fgetN_apart _ .PRT_STS_CAL_OK .PRT_STS_TX_FAULT n n 0 (by decide)).trans
      ((State.fgetN_apart _ .PRT_STS_XCVR_RATED .PRT_STS_TX_FAULT n n 0 (by decide)).trans (State.fgetN_fsetN_same _ .PRT_STS_TX_FAULT n 0 (by decide)))
  obtain ⟨h1, honly⟩ := xcvrGone_state (s.removed n) n (by rw [hst]; exact h0) (by rw [hport]; exact hc)
  refine answers_of_exec e (fun P cv => execModAbsChange_keeps n (Keeps.refl s) cv) ⟨flagN_eq_false ?_, flagN_eq_false ?_, flagN_eq_true ?_, h1, ?_⟩
  · exact (xcvrGone_other _ n rfl (by decide)).trans ((removed_other s n n (by decide)).trans (presence_flag s n false))
  · exact (xcvrGone_other _ n rfl (by decide)).trans hf
  · exact xcvrGone_bit ..
  · exact (OnlyPort.of_changed (f := fun x => { x with identDone := false, reading := false }) rfl).trans honly

/-- Signal at a port leaves every field of PRT_STS but STATE. -/
theorem signalSeen_other (s : State) (p : PortId) {g : Fld} (i : Nat) (hr : g.reg = .PRT_STS) (hg : Fld.apart .PRT_STS_STATE g = true) :
    (s.signalSeen p).fgetN g i = s.fgetN g i := by
  have ht (x : State) : (x.train (.port p)).fgetN g i = x.fgetN g i := (train_keeps p x).fgetN (by rw [hr]; rfl) i
  unfold State.signalSeen
  dsimp only
  split_ifs
  · exact (ht _).trans (s.fgetN_apart _ g _ i _ hg)
  · exact ht _
  · rfl

theorem losAccept_los (s : State) (n : Nat) (los : Bool) : (s.losAccept n los).fgetN .PRT_STS_LOS n = bit los := by
  have h := (s.fgetN_fsetN_same .PRT_STS_LOS n (bit los) (by decide)).trans (Nat.mod_eq_of_lt (bit_lt los))
  unfold State.losAccept
  dsimp only
  split
  · exact (signalSeen_other _ _ n rfl (by decide)).trans h
  · exact h

theorem losAccept_fault (s : State) (n : Nat) (los : Bool) : (s.losAccept n los).fgetN .PRT_STS_TX_FAULT n = s.fgetN .PRT_STS_TX_FAULT n := by
  have h := s.fgetN_apart .PRT_STS_LOS .PRT_STS_TX_FAULT n n (bit los) (by decide)
  unfold State.losAccept
  dsimp only
  split
  · exact (signalSeen_other _ _ n rfl (by decide)).trans h
  · exact h

theorem answers_losAccept {s : State} {n : Nat} (hn : n < s.nPorts) (hr : 3 ≤ (s.cage n).losRun) :
    Answers (.losTxFaultAccept n) s fun t => t.flagN .PRT_STS_LOS n = (s.cage n).los := by
  have e : exec (.losTxFaultAccept n) s = .next (
      if 3 ≤ (s.cage n).txFaultRun ∧ (s.cage n).txFault ∧ (s.losAccept n (s.cage n).los).flagN .PRT_STS_TX_FAULT n = false then
        ((s.losAccept n (s.cage n).los).fsetN .PRT_STS_TX_FAULT n 1).xcvrGone n
      else s.losAccept n (s.cage n).los) := by
    change execLosTxFaultAccept n s = _
    rw [execLosTxFaultAccept, if_pos hn, if_pos hr, apply_ite Host.Outcome.next]
  refine answers_of_exec e (fun P cv => execLosTxFaultAccept_keeps n (Keeps.refl s) cv) (flagN_bit ?_)
  split
  · exact (xcvrGone_other _ n rfl (by decide)).trans ((State.fgetN_apart _ .PRT_STS_TX_FAULT .PRT_STS_LOS n n 1 (by decide)).trans (losAccept_los ..))
  · exact losAccept_los ..

theorem answers_txFaultAccept {s : State} {n : Nat} (hn : n < s.nPorts) (hr : 3 ≤ (s.cage n).txFaultRun) (ht : (s.cage n).txFault = true)
    (hf : s.flagN .PRT_STS_TX_FAULT n = false) :
    Answers (.losTxFaultAccept n) s fun t => t.flagN .PRT_STS_TX_FAULT n = true ∧ t.flagN .PRT_CHG_XCVR n = true := by
  have e : exec (.losTxFaultAccept n) s =
      .next (((if 3 ≤ (s.cage n).losRun then s.losAccept n (s.cage n).los else s).fsetN .PRT_STS_TX_FAULT n 1).xcvrGone n) := by
    change execLosTxFaultAccept n s = _
    rw [execLosTxFaultAccept, if_pos hn]
    dsimp only
    refine if_pos ⟨hr, ht, ?_⟩
    split
    · exact (flagN_congr (losAccept_fault ..)).trans hf
    · exact hf
  refine answers_of_exec e (fun P cv => execLosTxFaultAccept_keeps n (Keeps.refl s) cv) ⟨flagN_eq_true ?_, flagN_eq_true (xcvrGone_bit ..)⟩
  exact (xcvrGone_other _ n rfl (by decide)).trans (State.fgetN_fsetN_same _ .PRT_STS_TX_FAULT n 1 (by decide))

/-! ### Identification and diagnostics (R111, R112) -/

theorem idbReleased_idbSelect (s : State) (n k : Nat) : (s.idbSelect n).idbReleased k = s.idbReleased k := by
  rw [State.idbReleased, show (s.idbSelect n).nPorts = s.nPorts from State.fgetN_eq_of_regs (s.idbSelect_regs n) _ _]
  rfl

/-- On a bus that the part has, the channel is selected and the bytes are read; a bus without a port stays released. -/
theorem idbSelect_idbRead (s : State) (n page first bytes : Nat) : (s.idbSelect n).idbRead n page first bytes =
    if s.idbReleased (n / 16) then s else s.emits
      [.idbWrite (n / 16) 0x70 [BitVec.ofNat 8 (0x10 + n % 16)], .idbRead (n / 16) (0x50 + page) first bytes] := by
  unfold State.idbRead
  rw [idbReleased_idbSelect]
  split
  · next h => rw [State.idbSelect, if_pos h]
  · next h =>
    rw [State.idbSelect, if_neg h]
    simp [State.emit, State.emits]

theorem answers_xcvrIdentify {s : State} {n : Nat} (hn : n < s.nPorts) (hx : s.flagN .PRT_STS_XCVR_PRESENT n = true)
    (hc : field (s.port (.root n)).cfg 4 4 = 1) (hi : (s.port (.root n)).identDone = false) :
    Answers (.xcvrIdentify n) s fun t => t.port (.root n) = { s.port (.root n) with reading := true } ∧ OnlyPort (.root n) s t ∧
      (s.idbReleased (n / 16) = false → t.out = s.out ++ [.idbWrite (n / 16) 0x70 [BitVec.ofNat 8 (16 + n % 16)], .idbRead (n / 16) 0x50 0 128]) := by
  have e : exec (.xcvrIdentify n) s = .next (((s.onPort (.root n) fun x => { x with reading := true }).idbSelect n).idbRead n 0 0 128) := by
    change execXcvrIdentify n s = _
    rw [execXcvrIdentify, if_pos (by simp [hn, hx, hc, hi])]
  rw [idbSelect_idbRead] at e
  refine answers_of_exec e (fun P cv => execXcvrIdentify_keeps n (Keeps.refl s) cv) ?_
  split
  · next h => exact ⟨State.port_onPort_same .., onPort_onlyPort _ _ _, fun hr => absurd (show s.idbReleased (n / 16) = true from h) (by simp [hr])⟩
  · exact ⟨port_changed (f := fun x => { x with reading := true }) rfl, .of_changed (f := fun x => { x with reading := true }) rfl, fun _ => rfl⟩

/-- What page 0xA0 says of a transceiver. -/
def State.identified (s : State) (n : Nat) (b : List Byte) : State :=
  ((s.fsetN .PRT_STS_XCVR_RATED n (bit (decide (55 ≤ leNat (Sys2Proof.slice 12 1 b))))).fsetN .PRT_STS_CAL_OK n
    (bit (calOk (Sys2Proof.slice 96 16 b)))).onPort (.root n) fun x => { x with
      identDone := true, reading := false, cal := Sys2Proof.slice 96 16 b }

theorem identify_eq {s : State} {n : Nat} {b : List Byte} (hok : identOk b = true) (hm : nfield (leNat (slice 92 1 b)) 6 6 = 0) :
    s.identify n b = ((s.identified n b).idbDeselect n).change (.root n) [.PRT_CHG_XCVR] := by
  unfold State.identify
  simp only [hok, hm, Bool.true_and, Nat.reduceBEq, Bool.false_eq_true, if_false, Bool.not_false]
  rfl

theorem identify_kept {s : State} {n : Nat} {b : List Byte} (hok : identOk b = true) (hm : nfield (leNat (slice 92 1 b)) 6 6 = 0) :
    Keeps (within (.reg .PRT_CHG :: changeTail)) (s.identified n b) (s.identify n b) := by
  rw [identify_eq hok hm]
  exact State.change_keeps _ [.PRT_CHG_XCVR] (State.idbDeselect_keeps n (Keeps.refl _) (covers_within (by decide))) (covers_within (by decide))

theorem identified_port (s : State) (n : Nat) (b : List Byte) : (s.identified n b).port (.root n) =
    { s.port (.root n) with identDone := true, reading := false, cal := Sys2Proof.slice 96 16 b } := by
  rw [State.identified, State.port_onPort_same]
  rfl

theorem identified_fields (s : State) (n : Nat) (b : List Byte) :
    (s.identified n b).fgetN .PRT_STS_XCVR_RATED n = bit (decide (55 ≤ leNat (Sys2Proof.slice 12 1 b))) ∧
    (s.identified n b).fgetN .PRT_STS_CAL_OK n = bit (calOk (Sys2Proof.slice 96 16 b)) := by
  have h (x y : Bool) : ((s.fsetN .PRT_STS_XCVR_RATED n (bit x)).fsetN .PRT_STS_CAL_OK n (bit y)).fgetN .PRT_STS_XCVR_RATED n = bit x ∧
      ((s.fsetN .PRT_STS_XCVR_RATED n (bit x)).fsetN .PRT_STS_CAL_OK n (bit y)).fgetN .PRT_STS_CAL_OK n = bit y :=
    ⟨(State.fgetN_apart _ .PRT_STS_CAL_OK .PRT_STS_XCVR_RATED n n _ (by decide)).trans
      ((s.fgetN_fsetN_same .PRT_STS_XCVR_RATED n _ (by decide)).trans (Nat.mod_eq_of_lt (bit_lt _))),
    (State.fgetN_fsetN_same _ .PRT_STS_CAL_OK n _ (by decide)).trans (Nat.mod_eq_of_lt (bit_lt _))⟩
  have hr : (s.identified n b).regs = ((s.fsetN .PRT_STS_XCVR_RATED n (bit (decide (55 ≤ leNat (Sys2Proof.slice 12 1 b))))).fsetN
      .PRT_STS_CAL_OK n (bit (calOk (Sys2Proof.slice 96 16 b)))).regs := rfl
  exact (h _ _).imp (State.fgetN_eq_of_regs hr _ n).trans (State.fgetN_eq_of_regs hr _ n).trans

theorem identified_onlyPort (s : State) (n : Nat) (b : List Byte) : OnlyPort (.root n) s (s.identified n b) :=
  (OnlyPort.of_ports rfl).trans (onPort_onlyPort _ _ _)

/-- The page ends the identification, and no command waited for it. -/
theorem exec_identify {s : State} {n : Nat} {b : List Byte} (hr : (s.port (.root n)).reading = true)
    (hx : ((s.identify n b).port (.root n)).xcvrRead = none) :
    exec (.identityBusReadDone n 0 (.ok b)) s = .next (s.identify n b) := by
  change execIdentityBusReadDone n 0 (.ok b) s = _
  unfold execIdentityBusReadDone
  simp only [hr, beq_self_eq_true, Bool.and_self, if_true, hx, reduceCtorEq, if_false]

theorem answers_identify {s : State} {n : Nat} {b : List Byte} (hr : (s.port (.root n)).reading = true) (hx : (s.port (.root n)).xcvrRead = none)
    (hok : identOk b = true) (hm : nfield (leNat (slice 92 1 b)) 6 6 = 0) : Answers (.identityBusReadDone n 0 (.ok b)) s fun t =>
      t.fgetN .PRT_STS_XCVR_RATED n = bit (decide (55 ≤ leNat (slice 12 1 b))) ∧ t.fgetN .PRT_STS_CAL_OK n = bit (calOk (slice 96 16 b)) ∧
      t.flagN .PRT_CHG_XCVR n = true ∧ (t.port (.root n)).identDone = true ∧ (t.port (.root n)).reading = false ∧ OnlyPort (.root n) s t := by
  have hk := identify_kept hok hm (s := s) (n := n)
  have hp := (port_of_ports (hk.part .ports rfl) (.root n)).trans (identified_port s n b)
  have e := exec_identify hr ((congrArg Port.xcvrRead hp).trans hx)
  obtain ⟨hrated, hcal⟩ := identified_fields s n b
  refine answers_of_exec e (fun P cv => execIdentityBusReadDone_keeps n 0 (.ok b) (Keeps.refl s) cv)
    ⟨(hk.fgetN rfl n).trans hrated, (hk.fgetN rfl n).trans hcal, flagN_eq_true ?_, congrArg Port.identDone hp, congrArg Port.reading hp,
      (identified_onlyPort s n b).trans (.of_ports (hk.part .ports rfl))⟩
  rw [identify_eq hok hm]
  exact change_mem _ n rfl (by decide) (by decide) (by decide)

theorem answers_pageRead_failed {s : State} {n page : Nat} (hr : (s.port (.root n)).reading = false) (hx : (s.port (.root n)).xcvrRead = some page) :
    Answers (.identityBusReadDone n page .failed) s fun t =>
      (t.port (.root n)).xcvrRead = none ∧ t.cmds = s.cmds.map fun c =>
        if c.op = 0x21 ∧ c.arg = n ∧ c.status = none then { c with status := some stNoResponse, result := 0 } else c := by
  have e : exec (.identityBusReadDone n page .failed) s = .next (((s.onPort (.root n) fun x => { x with xcvrRead := none }).idbDeselect n).cmdsDone
      (fun c => c.op == 0x21 && c.arg == n && c.status.isNone) stNoResponse 0) := by
    change execIdentityBusReadDone n page .failed s = _
    unfold execIdentityBusReadDone
    simp only [hr, Bool.false_and, Bool.false_eq_true, if_false, hx, if_true]
  have hd : Keeps (within [.out]) (s.onPort (.root n) fun x => { x with xcvrRead := none })
      ((s.onPort (.root n) fun x => { x with xcvrRead := none }).idbDeselect n) := State.idbDeselect_keeps n (Keeps.refl _) (covers_within (by decide))
  refine answers_of_exec e (fun P cv => execIdentityBusReadDone_keeps n page .failed (Keeps.refl s) cv) ⟨?_, ?_⟩
  · have hp : ((s.onPort (.root n) fun x => { x with xcvrRead := none }).idbDeselect n).port (.root n) = { s.port (.root n) with xcvrRead := none } :=
      (port_of_ports (hd.part .ports rfl) _).trans (s.port_onPort_same ..)
    exact congrArg Port.xcvrRead hp
  · rw [State.cmdsDone, show ((s.onPort (.root n) fun x => { x with xcvrRead := none }).idbDeselect n).cmds = s.cmds from hd.part .cmds rfl]
    refine List.map_congr_left fun c _ => ?_
    have hiff : ((c.op == 0x21 && c.arg == n && c.status.isNone) && c.status.isNone) = true ↔ c.op = 0x21 ∧ c.arg = n ∧ c.status = none := by
      simp [and_assoc]
    simp only [hiff, ite_self]

theorem answers_xcvrDiagRead {s : State} {n : Nat} {data : List Byte} (hn : n < s.nPorts) (hc : field (s.port (.root n)).cfg 4 4 = 1)
    (hx : s.flagN .PRT_STS_XCVR_PRESENT n = true) : Answers (.xcvrDiagRead n data) s fun t =>
    t.hlt = { s.hlt with diags := Tbl.put s.hlt.diags n (data.take 10) } ∧ t.ports = s.ports ∧
    t.out = s.out ++ (if s.idbReleased (n / 16) then [] else
      [.idbWrite (n / 16) 0x70 [BitVec.ofNat 8 (0x10 + n % 16)], .idbRead (n / 16) 0x51 96 10, .idbWrite (n / 16) 0x70 [0]]) := by
  have e : exec (.xcvrDiagRead n data) s = .next ((((s.idbSelect n).idbRead n 1 96 10).idbDeselect n).diagTake n (data.take 10)) := by
    change execXcvrDiagRead n data s = _
    rw [execXcvrDiagRead, if_pos (by simp [hn, hx, hc])]
  rw [idbSelect_idbRead] at e
  refine answers_of_exec e (fun P cv => execXcvrDiagRead_keeps n data (Keeps.refl s) cv) ?_
  cases hr : s.idbReleased (n / 16)
  · have hd : (s.emits [.idbWrite (n / 16) 0x70 [BitVec.ofNat 8 (0x10 + n % 16)], .idbRead (n / 16) 0x51 96 10]).idbDeselect n = _ :=
      if_neg (show ¬ s.idbReleased (n / 16) = true by simp [hr])
    rw [if_neg Bool.false_ne_true, hd]
    simp [State.diagTake, State.onHlt, State.emit, State.emits]
  · rw [if_pos rfl, show s.idbDeselect n = s from if_pos hr]
    simp [State.diagTake, State.onHlt]

/-- Settles O11: the scan, what is accepted of it, the chain's fault on every port, identification, and the diagnostics. -/
theorem transceiversAreFollowed : Obligations.TransceiversAreFollowed := by
  unfold Obligations.TransceiversAreFollowed
  exact ⟨fun _ _ hb hf => answers_sidebandScan_good hb hf, fun _ _ _ hc hb => answers_sidebandScan_bad hc hb,
    fun _ _ hn hr hm hx => answers_modAbsChange_present hn hr hm hx, fun _ _ hn hr hm hx h0 hc => answers_modAbsChange_removed hn hr hm hx h0 hc,
    fun _ _ hn hr => answers_losAccept hn hr, fun _ _ hn hr ht hf => answers_txFaultAccept hn hr ht hf,
    fun _ hb hf => answers_mscFault hb hf, fun _ hb hg hf => answers_mscFault_over hb hg hf,
    fun _ _ hn hx hc hi => answers_xcvrIdentify hn hx hc hi, fun _ _ _ hr hx hok hm => answers_identify hr hx hok hm,
    fun _ _ _ hr hx => answers_pageRead_failed hr hx, fun _ _ _ hn hc hx => answers_xcvrDiagRead hn hc hx⟩

end Sys2Proof.Machine
end

section
/-! The requests to a hub: the status of a port and its features (Table 3.15, R110, R116, R117), and from them O15. -/

namespace Sys2Proof.Machine

/-! ### A request carried out -/

theorem ctl_of_request {s : State} {d req : Nat} {c : DevCtl} (h : s.request d req = some c) : (s.dev d).ctl = some c := by
  unfold State.request at h
  split at h
  · next x hx =>
    split at h
    · exact hx.trans h
    · simp at h
  · simp at h

section
variable {s t : State} {d i : Nat} {c : DevCtl}

theorem carried_ctl (b : List Byte) (h : (t.dev d).ctl = some c) :
    ((t.carried d b).dev d).ctl = some { c with ready := true, data := c.data ++ b } := by
  rw [State.carried, State.onCtl, State.dev_onDev_same, h]

/-- What a port of the hub did leaves the request for the hub to answer, and the other devices. -/
theorem PortActs.carried (h : PortActs Device.face (.hub d i) s t) (hc : (s.dev d).ctl = some c) :
    ((t.carried d []).dev d).ctl = some { c with ready := true } ∧ OnlyDev d s (t.carried d []) := by
  obtain ⟨honly, hface, -⟩ := h.hub d i rfl
  have hctl : (t.dev d).ctl = some c := (congrArg Device.ctl hface).trans hc
  exact ⟨by rw [carried_ctl [] hctl, List.append_nil], honly.trans (onDev_onlyDev _ _ _)⟩

end

/-! ### GET_PORT_STATUS (R117) -/

/-- The change word of a port read: cleared, and with the last of them the note of when the bitmap first changed. -/
def State.chgRead (s : State) (d : Nat) (p : PortId) : State :=
  if (s.wr .PRT_CHG p.code 0).hubBitmap d = 0 then (s.wr .PRT_CHG p.code 0).onDev d fun v => { v with chgAt := none } else s.wr .PRT_CHG p.code 0

theorem chgRead_dev (s : State) (d : Nat) (p : PortId) :
    ((s.chgRead d p).dev d).ctl = (s.dev d).ctl ∧ OnlyDev d s (s.chgRead d p) ∧ (s.chgRead d p).regs = (s.wr .PRT_CHG p.code 0).regs := by
  unfold State.chgRead
  split
  · exact ⟨by rw [State.dev_onDev_same]; rfl, onDev_onlyDev _ d _, rfl⟩
  · exact ⟨rfl, .of_devs rfl, rfl⟩

theorem answers_getPortStatus {s : State} {d : Nat} {c : DevCtl} (hq : s.request d 0x40 = some c) : Answers (.getPortStatus d) s fun t =>
    (let p := PortId.hub d (setupIndex c.setup)
     (t.dev d).ctl = some { c with ready := true, data := c.data ++ (leBytes 4 (s.rd .PRT_STS p.code).toNat ++ leBytes 4 (s.rd .PRT_CHG p.code).toNat ++
       leBytes 4 (s.port p).lastMean ++ leBytes 4 0) } ∧ t.rd .PRT_CHG p.code = 0 ∧ (∀ i, i ≠ p.code → t.rd .PRT_CHG i = s.rd .PRT_CHG i) ∧
     OnlyDev d s t) := by
  generalize hp : PortId.hub d (setupIndex c.setup) = p
  have e : exec (.getPortStatus d) s = .next ((s.chgRead d p).carried d (leBytes 4 (s.rd .PRT_STS p.code).toNat ++
      leBytes 4 (s.rd .PRT_CHG p.code).toNat ++ leBytes 4 (s.port p).lastMean ++ leBytes 4 0)) := by
    change execGetPortStatus d s = _
    simp only [execGetPortStatus, hq, hp, State.chgRead]
  obtain ⟨hctl, hdev, hregs⟩ := chgRead_dev s d p
  have hrd (i : Nat) : (s.chgRead d p).rd .PRT_CHG i = (s.wr .PRT_CHG p.code 0).rd .PRT_CHG i := by simp only [State.rd, hregs]
  refine answers_of_exec e (fun P cv => execGetPortStatus_keeps d (Keeps.refl s) cv) ⟨?_, ?_, fun i hi => ?_, hdev.trans (onDev_onlyDev _ _ _)⟩
  · exact carried_ctl _ (hctl.trans (ctl_of_request hq))
  · exact (hrd _).trans ((s.rd_wr_same ..).trans (by simp))
  · exact (hrd i).trans (s.rd_wr_other 0 (.inr hi))

/-! ### The features of a port (R116) -/

/-- SET_PORT_FEATURE on a port. -/
def State.featureSet (s : State) (p : PortId) (feature frame t : Nat) : State :=
  match feature with
  | 0 => s.portEnable p true
  | 1 => s.portReset p t
  | 2 => s.portSuspend p t
  | 3 => s.rate5Set p true frame
  | 4 => s.onPort p fun x => { x with remoteWake := true }
  | 5 => s.portRetrain p t
  | _ => s.portClearError p

/-- CLEAR_PORT_FEATURE on a port. -/
def State.featureClear (s : State) (p : PortId) (feature frame : Nat) : State :=
  match feature with
  | 0 => s.portEnable p false
  | 2 => s.portResume p
  | 3 => s.rate5Set p false frame
  | _ => s.onPort p fun x => { x with remoteWake := false }

section
variable {s : State} {d i v t : Nat} {c : DevCtl}

theorem exec_setPortFeature (hq : s.request d 0x41 = some c) (hi : setupIndex c.setup = i) (hv : setupValue c.setup = v) :
    exec (.setPortFeature d t) s = .next (((s.at_ t).featureSet (.hub d i) v (leNat (c.data.take 4)) t).carried d []) := by
  have hq' : (s.at_ t).request d 0x41 = some c := hq
  change execSetPortFeature d t s = _
  simp only [execSetPortFeature, hq', hi, hv]
  rfl

theorem exec_clearPortFeature (hq : s.request d 0x42 = some c) (hi : setupIndex c.setup = i) (hv : setupValue c.setup = v) :
    exec (.clearPortFeature d t) s = .next (((s.at_ t).featureClear (.hub d i) v (leNat (c.data.take 4))).carried d []) := by
  have hq' : (s.at_ t).request d 0x42 = some c := hq
  change execClearPortFeature d t s = _
  simp only [execClearPortFeature, hq', hi, hv]
  rfl

/-- A feature set whose effect on the port is known. -/
theorem answers_set {u : State} {Q : State → Prop} (hq : s.request d 0x41 = some c) (hi : setupIndex c.setup = i) (hv : setupValue c.setup = v)
    (hu : (s.at_ t).featureSet (.hub d i) v (leNat (c.data.take 4)) t = u) (q : Q (u.carried d [])) : Answers (.setPortFeature d t) s Q := by
  have e := exec_setPortFeature (t := t) hq hi hv
  rw [hu] at e
  exact answers_of_exec e (fun P cv => execSetPortFeature_keeps d t (Keeps.refl s) cv) q

theorem answers_clear {u : State} {Q : State → Prop} (hq : s.request d 0x42 = some c) (hi : setupIndex c.setup = i) (hv : setupValue c.setup = v)
    (hu : (s.at_ t).featureClear (.hub d i) v (leNat (c.data.take 4)) = u) (q : Q (u.carried d [])) : Answers (.clearPortFeature d t) s Q := by
  have e := exec_clearPortFeature (t := t) hq hi hv
  rw [hu] at e
  exact answers_of_exec e (fun P cv => execClearPortFeature_keeps d t (Keeps.refl s) cv) q

end

/-- A hub port sends SUSPEND at once (R103). -/
def State.suspendOut (s : State) (p : PortId) (t : Nat) : State :=
  ((s.onPort p fun x => { x with susp := .accepted, wakeHeld := false }).startCtl (.port p) 7 t).onPort p fun x => { x with susp := .sent }

theorem portSuspend_hub {s : State} {d i : Nat} (t : Nat) (h4 : s.portState (.hub d i) = 4) (hs : (s.port (.hub d i)).susp = .none) :
    s.portSuspend (.hub d i) t = s.suspendOut (.hub d i) t := by
  unfold State.portSuspend
  simp only [h4, bne_self_eq_false, Bool.or_self, Bool.false_eq_true, if_false, hs]
  rfl

section
variable (p : PortId) (t : Nat) (s : State)

theorem suspendOut_acts {φ : Device → Device} : PortActs φ p s (s.suspendOut p t) :=
  ((onPort_acts p s _).trans (startCtl_acts ..)).trans (onPort_acts ..)

theorem suspendOut_state : (s.suspendOut p t).portState p = s.portState p := by
  have hk : Keeps (within [.out, .ports, .links]) s (s.suspendOut p t) :=
    State.onPort_keeps p _ (State.startCtl_keeps _ 7 t (State.onPort_keeps p _ (Keeps.refl s) (covers_within (by decide))) (covers_within (by decide)))
      (covers_within (by decide))
  exact hk.fgetN rfl _

theorem suspendOut_susp : ((s.suspendOut p t).port p).susp = .sent := by rw [State.suspendOut, State.port_onPort_same]

theorem suspendOut_awaits : (s.suspendOut p t).awaits (.port p) 7 = true := startCtl_awaits _ (.port p) 7 t

end

/-! ### ENABLE, RESET, SUSPEND, RETRAIN, CLEAR_ERROR and REMOTE_WAKE set -/

section
variable {s : State} {d i t : Nat} {c : DevCtl} (hq : s.request d 0x41 = some c) (hi : setupIndex c.setup = i)
include hq hi

theorem answers_set_power (hv : setupValue c.setup = 0) (h0 : s.portState (.hub d i) = 0) : Answers (.setPortFeature d t) s fun t' =>
    t'.portState (.hub d i) = 1 ∧ (t'.dev d).ctl = some { c with ready := true } ∧ OnlyFields [.PRT_STS_STATE, .PRT_STS_RETRAINS] s t' := by
  have hu : (s.at_ t).portEnable (.hub d i) true = ((s.at_ t).fsetN .PRT_STS_RETRAINS (PortId.hub d i).code 0).putState (.hub d i) 1 := by
    simp [State.portEnable, show (s.at_ t).portState (.hub d i) = 0 from h0]
  have hacts : PortActs Device.face (.hub d i) (s.at_ t) _ := (fsetN_acts (.hub d i) (s.at_ t) .PRT_STS_RETRAINS 0).trans (fsetN_acts _ _ .PRT_STS_STATE 1)
  refine answers_set hq hi hv hu ⟨portState_putState _ _ 1 (by decide), (hacts.carried (ctl_of_request hq)).1, ?_⟩
  exact ((((OnlyFields.refl _ s).of_regs (u := s.at_ t) rfl).fsetN (by simp) _ 0).fsetN (by simp) _ 1).of_regs rfl

theorem answers_set_reset (hv : setupValue c.setup = 1) (h4 : s.portState (.hub d i) = 4) : Answers (.setPortFeature d t) s fun t' =>
    t'.portState (.hub d i) = 3 ∧ t'.awaits (.port (.hub d i)) 6 = true ∧ (t'.dev d).ctl = some { c with ready := true } ∧ OnlyDev d s t' := by
  obtain ⟨hctl, hdev⟩ := (enterResetting_acts (.hub d i) t false (s.at_ t)).carried (ctl_of_request hq)
  exact answers_set hq hi hv (portReset_enabled t h4)
    ⟨enterResetting_state (.hub d i) t false (s.at_ t), enterResetting_awaits (.hub d i) t false (s.at_ t), hctl, hdev⟩

theorem answers_set_retrain (hv : setupValue c.setup = 5) (h4 : s.portState (.hub d i) = 4) : Answers (.setPortFeature d t) s fun t' =>
    (t'.portState (.hub d i) = 5 ∨ t'.portState (.hub d i) = 9) ∧ t'.fgetN .PRT_CHG_RETRAIN (PortId.hub d i).code = 1 ∧
      (t'.dev d).ctl = some { c with ready := true } :=
  answers_set hq hi hv (portRetrain_enabled t h4) ⟨linkFell_5_or_9 (.hub d i) t (s.at_ t), linkFell_bit t (s.at_ t) _ rfl,
    ((linkFell_acts (.hub d i) t (s.at_ t)).carried (ctl_of_request hq)).1⟩

theorem answers_set_clearError (hv : setupValue c.setup = 6) (h9 : s.portState (.hub d i) = 9) : Answers (.setPortFeature d t) s fun t' =>
    t'.portState (.hub d i) = 1 ∧ (t'.dev d).ctl = some { c with ready := true } ∧ OnlyFields [.PRT_STS_STATE] s t' := by
  refine answers_set hq hi hv (portClearError_error h9) ⟨portState_putState _ (s.at_ t) 1 (by decide),
    ((fsetN_acts (.hub d i) (s.at_ t) .PRT_STS_STATE 1).carried (ctl_of_request hq)).1, ?_⟩
  exact (((OnlyFields.refl _ s).of_regs (u := s.at_ t) rfl).fsetN (by simp) _ 1).of_regs rfl

theorem answers_set_remoteWake (hv : setupValue c.setup = 4) : Answers (.setPortFeature d t) s fun t' =>
    t'.port (.hub d i) = { s.port (.hub d i) with remoteWake := true } ∧ OnlyPort (.hub d i) s t' ∧ OnlyFields [] s t' :=
  answers_set hq hi hv rfl ⟨port_changed (f := fun x => { x with remoteWake := true }) rfl,
    .of_changed (f := fun x => { x with remoteWake := true }) rfl,
    (OnlyFields.refl _ s).of_regs rfl⟩

theorem answers_set_suspend (hv : setupValue c.setup = 2) (h4 : s.portState (.hub d i) = 4) (hs : (s.port (.hub d i)).susp = .none) :
    Answers (.setPortFeature d t) s fun t' =>
      t'.portState (.hub d i) = 4 ∧ (t'.port (.hub d i)).susp = .sent ∧ t'.awaits (.port (.hub d i)) 7 = true ∧
      (t'.dev d).ctl = some { c with ready := true } :=
  answers_set hq hi hv (portSuspend_hub t h4 hs) ⟨(suspendOut_state (.hub d i) t (s.at_ t)).trans h4, suspendOut_susp (.hub d i) t (s.at_ t),
    suspendOut_awaits (.hub d i) t (s.at_ t), ((suspendOut_acts (.hub d i) t (s.at_ t)).carried (ctl_of_request hq)).1⟩

end

/-! ### POWER, SUSPEND and REMOTE_WAKE cleared -/

theorem portEnable_off_acts (d i : Nat) (s : State) : PortActs Device.face (.hub d i) s (s.portEnable (.hub d i) false) := by
  unfold State.portEnable
  dsimp only
  rw [if_neg Bool.false_ne_true]
  refine PortActs.trans ?_ (fsetN_acts ..)
  split
  · exact leave_acts ..
  · exact .refl ..

section
variable {s : State} {d i t : Nat} {c : DevCtl} (hq : s.request d 0x42 = some c) (hi : setupIndex c.setup = i)
include hq hi

theorem answers_clear_power (hv : setupValue c.setup = 0) : Answers (.clearPortFeature d t) s fun t' =>
    t'.portState (.hub d i) = 0 ∧ (t'.dev d).ctl = some { c with ready := true } :=
  answers_clear hq hi hv rfl ⟨(portEnable_off (.hub d i) (s.at_ t)).1, ((portEnable_off_acts d i (s.at_ t)).carried (ctl_of_request hq)).1⟩

theorem answers_clear_suspend (hv : setupValue c.setup = 2) (h6 : s.portState (.hub d i) = 6) : Answers (.clearPortFeature d t) s fun t' =>
    t'.portState (.hub d i) = 7 ∧ (t'.port (.hub d i)).forWake = false ∧ (t'.dev d).ctl = some { c with ready := true } :=
  answers_clear hq hi hv (portResume_suspended h6) ⟨hostResume_state (.hub d i) (s.at_ t), hostResume_forWake (.hub d i) (s.at_ t),
    ((hostResume_acts (.hub d i) (s.at_ t)).face.carried (ctl_of_request hq)).1⟩

theorem answers_clear_remoteWake (hv : setupValue c.setup = 4) : Answers (.clearPortFeature d t) s fun t' =>
    t'.port (.hub d i) = { s.port (.hub d i) with remoteWake := false } ∧ OnlyPort (.hub d i) s t' ∧ OnlyFields [] s t' :=
  answers_clear hq hi hv rfl ⟨port_changed (f := fun x => { x with remoteWake := false }) rfl,
    .of_changed (f := fun x => { x with remoteWake := false }) rfl,
    (OnlyFields.refl _ s).of_regs rfl⟩

end

/-! ### RATE5 (R69, R110) -/

/-- A port that takes the feature with its rate change, to run in a frame. -/
def State.rateAsked (s : State) (p : PortId) (on : Bool) (frame : Nat) : State :=
  ((s.onPort p fun x => { x with rate5Feature := on }).onPort p fun x => { x with cfgWant := none }).onPort p fun x => { x with
    rateChg := some ⟨bit on, frame, false, false, false, false, false⟩ }

theorem rateAsked_port (s : State) (p : PortId) (on : Bool) (frame : Nat) : (s.rateAsked p on frame).port p = { s.port p with
    rate5Feature := on, cfgWant := none, rateChg := some ⟨bit on, frame, false, false, false, false, false⟩ } := by
  simp only [State.rateAsked, State.port_onPort_same]

theorem rateAsked_onlyPort (s : State) (p : PortId) (on : Bool) (frame : Nat) : OnlyPort p s (s.rateAsked p on frame) :=
  ((onPort_onlyPort s p _).trans (onPort_onlyPort _ p _)).trans (onPort_onlyPort _ p _)

theorem unrated_congr {s t : State} {p : PortId} (hc : (t.port p).cfg = (s.port p).cfg) (hr : t.regs = s.regs) : t.unrated p = s.unrated p := by
  simp only [State.unrated, State.flagN, State.fgetN, State.rd, hc, hr]

theorem bothRate5_congr {s t : State} {d i : Nat} (hw : (t.port (.hub d i)).remoteWake = (s.port (.hub d i)).remoteWake) (hr : t.regs = s.regs)
    (hd : t.devs = s.devs) : t.bothRate5 (.hub d i) = s.bothRate5 (.hub d i) := by
  simp only [State.bothRate5, State.capsOf, State.flagN, State.fgetN, State.rd, State.dev, hw, hr, hd]

/-- An ENABLED port at the other rate, with no change under way, where nothing stands in the way of the rate asked for. -/
theorem rate5Set_asked {s : State} {d i : Nat} {on : Bool} (frame : Nat) (h4 : s.portState (.hub d i) = 4)
    (hr : (s.link (.port (.hub d i))).rate ≠ bit on) (hc : (s.port (.hub d i)).rateChg = none)
    (h5 : on = true → s.unrated (.hub d i) = false ∧ s.bothRate5 (.hub d i) = true) :
    s.rate5Set (.hub d i) on frame = s.rateAsked (.hub d i) on frame := by
  generalize hx : ((s.onPort (.hub d i) fun x => { x with rate5Feature := on }).onPort (.hub d i) fun x => { x with cfgWant := none }) = x
  have hp : x.port (.hub d i) = { s.port (.hub d i) with rate5Feature := on, cfgWant := none } := by rw [← hx]; simp only [State.port_onPort_same]
  have hu : x.unrated (.hub d i) = s.unrated (.hub d i) := unrated_congr (by rw [hp]) (by rw [← hx]; rfl)
  have hb : x.bothRate5 (.hub d i) = s.bothRate5 (.hub d i) := bothRate5_congr (by rw [hp]) (by rw [← hx]; rfl) (by rw [← hx]; rfl)
  have hst : ¬ (x.portState (.hub d i) ≠ 4 ∨ (x.link (.port (.hub d i))).rate = bit on) := by
    rw [← hx]
    exact not_or.2 ⟨not_not.2 h4, hr⟩
  have hc' : ((s.onPort (.hub d i) fun x => { x with rate5Feature := on }).port (.hub d i)).rateChg = none := by
    rw [State.port_onPort_same]
    exact hc
  have hno : ¬ (bit on = 1 ∧ x.unrated (.hub d i) = true) ∧ ¬ (bit on = 1 ∧ ¬ x.bothRate5 (.hub d i) = true) := by
    rw [hu, hb]
    cases on
    · simp [bit]
    · simp [h5 rfl]
  unfold State.rate5Set
  rw [if_neg (by simp [h4]), State.hubRate]
  simp only [hc', Option.any_none, Option.isSome_none, Bool.false_eq_true, if_false, hx, if_neg hst, if_neg hno.1, if_neg hno.2]
  rw [State.rateAsked, hx]

theorem rate5Set_refused {s : State} {p : PortId} {on : Bool} (frame : Nat) (h4 : s.portState p ≠ 4) (hl : State.hasLink (s.portState p) = true) :
    s.rate5Set p on frame = s.refuseCmd p := if_pos (by simp [State.linked, hl, h4])

theorem rateAsked_acts {φ : Device → Device} (s : State) (p : PortId) (on : Bool) (frame : Nat) : PortActs φ p s (s.rateAsked p on frame) :=
  ((onPort_acts p s _).trans (onPort_acts ..)).trans (onPort_acts ..)

section
variable {s : State} {d i t : Nat} {c : DevCtl} (hi : setupIndex c.setup = i) (hv : setupValue c.setup = 3)
include hi hv

theorem answers_set_rate5 (hq : s.request d 0x41 = some c) (h4 : s.portState (.hub d i) = 4) (hr : (s.link (.port (.hub d i))).rate = 0)
    (hc : (s.port (.hub d i)).rateChg = none) (hu : s.unrated (.hub d i) = false) (hb : s.bothRate5 (.hub d i) = true) :
    Answers (.setPortFeature d t) s fun t' =>
      t'.port (.hub d i) = { s.port (.hub d i) with
        rate5Feature := true, cfgWant := none, rateChg := some ⟨1, leNat (c.data.take 4), false, false, false, false, false⟩ } ∧
      (t'.dev d).ctl = some { c with ready := true } ∧ OnlyPort (.hub d i) s t' ∧ OnlyFields [] s t' :=
  answers_set hq hi hv (rate5Set_asked _ h4 (by rw [show ((s.at_ t).link (.port (.hub d i))).rate = 0 from hr]; decide) hc fun _ => ⟨hu, hb⟩)
    ⟨rateAsked_port (s.at_ t) (.hub d i) true _, ((rateAsked_acts (s.at_ t) (.hub d i) true _).carried (ctl_of_request hq)).1,
      rateAsked_onlyPort (s.at_ t) (.hub d i) true _, (OnlyFields.refl _ s).of_regs rfl⟩

theorem answers_clear_rate5 (hq : s.request d 0x42 = some c) (h4 : s.portState (.hub d i) = 4) (hr : (s.link (.port (.hub d i))).rate = 1)
    (hc : (s.port (.hub d i)).rateChg = none) : Answers (.clearPortFeature d t) s fun t' =>
      t'.port (.hub d i) = { s.port (.hub d i) with
        rate5Feature := false, cfgWant := none, rateChg := some ⟨0, leNat (c.data.take 4), false, false, false, false, false⟩ } ∧
      (t'.dev d).ctl = some { c with ready := true } ∧ OnlyPort (.hub d i) s t' ∧ OnlyFields [] s t' :=
  answers_clear hq hi hv (rate5Set_asked _ h4 (by rw [show ((s.at_ t).link (.port (.hub d i))).rate = 1 from hr]; decide) hc nofun)
    ⟨rateAsked_port (s.at_ t) (.hub d i) false _, ((rateAsked_acts (s.at_ t) (.hub d i) false _).carried (ctl_of_request hq)).1,
      rateAsked_onlyPort (s.at_ t) (.hub d i) false _, (OnlyFields.refl _ s).of_regs rfl⟩

theorem answers_set_rate5_refused (hq : s.request d 0x41 = some c) (h4 : s.portState (.hub d i) ≠ 4)
    (hl : State.hasLink (s.portState (.hub d i)) = true) : Answers (.setPortFeature d t) s fun t' =>
      t'.port (.hub d i) = s.port (.hub d i) ∧ t'.fgetN .PRT_CHG_CMD_REFUSED (PortId.hub d i).code = 1 ∧
      (t'.dev d).ctl = some { c with ready := true } ∧ OnlyPort (.hub d i) s t' :=
  answers_set hq hi hv (rate5Set_refused _ h4 hl) ⟨refuseCmd_port (.hub d i) (s.at_ t) _, refuseCmd_bit _ (s.at_ t) _ rfl,
    ((change_acts (.hub d i) _ (s.at_ t)).face.carried (ctl_of_request hq)).1, .of_ports (change_ports (.hub d i) _ (s.at_ t))⟩

end

/-- Settles O15: the status of a port with its change word, and each feature as the port's own function carries it out, which leaves the request for the
hub to answer. -/
theorem hubRequestsAreCarriedOut : Obligations.HubRequestsAreCarriedOut := by
  unfold Obligations.HubRequestsAreCarriedOut
  exact ⟨fun _ _ _ hq => answers_getPortStatus hq, fun _ _ _ _ _ hq hi hv h0 => answers_set_power hq hi hv h0,
    fun _ _ _ _ _ hq hi hv h4 => answers_set_reset hq hi hv h4, fun _ _ _ _ _ hq hi hv h4 hr hc hu hb => answers_set_rate5 hi hv hq h4 hr hc hu hb,
    fun _ _ _ _ _ hq hi hv h4 hl => answers_set_rate5_refused hi hv hq h4 hl, fun _ _ _ _ _ hq hi hv h4 hr hc => answers_clear_rate5 hi hv hq h4 hr hc,
    fun _ _ _ _ _ hq hi hv => answers_set_remoteWake hq hi hv, fun _ _ _ _ _ hq hi hv h4 hs => answers_set_suspend hq hi hv h4 hs,
    fun _ _ _ _ _ hq hi hv h4 => answers_set_retrain hq hi hv h4, fun _ _ _ _ _ hq hi hv h9 => answers_set_clearError hq hi hv h9,
    fun _ _ _ _ _ hq hi hv => answers_clear_power hq hi hv, fun _ _ _ _ _ hq hi hv h6 => answers_clear_suspend hq hi hv h6,
    fun _ _ _ _ _ hq hi hv => answers_clear_remoteWake hq hi hv⟩

end Sys2Proof.Machine
end

section
/-! RESET, SUSPEND, RESUME and WAKE on a link and their echoes (R99, R102–R106), and from them O10. -/

namespace Sys2Proof.Machine

/-! ### RESET passed on (R102) -/

theorem portReset_acts (p : PortId) (t : Nat) (s : State) : PortActs Device.face p s (s.portReset p t) := by
  have hw : PortActs Device.face p s (if decide (4 ≤ s.portState p ∧ s.portState p ≤ 8) then s.rateWithdraw p else s) := by
    split
    · exact rateWithdraw_acts p s
    · exact .refl ..
  unfold State.portReset
  dsimp only
  refine hw.trans ?_
  generalize (if decide (4 ≤ s.portState p ∧ s.portState p ≤ 8) then s.rateWithdraw p else s) = x
  have hr : PortActs Device.face p x (if (x.port p).rateChg.isSome then x.rateRefuse p 3 else x) := by
    split
    · exact (rateRefuse_acts p 3 x).face
    · exact .refl ..
  have hp := hr.trans (onPort_acts p _ fun y => { y with resetPending := true })
  generalize ((if (x.port p).rateChg.isSome then x.rateRefuse p 3 else x).onPort p fun y => { y with resetPending := true }) = y at hp ⊢
  split_ifs
  · exact enterResetting_acts ..
  · exact hp.trans (hostResume_acts ..).face
  · exact (hp.trans (stopCtl_acts ..)).trans (enterResetting_acts ..)
  · exact hp
  · exact ((rateDrop_acts p 3 x).trans (onPort_acts ..)).trans (toRetrain_acts ..)
  · exact (change_acts ..).face

theorem passReset_acts (p : PortId) (t : Nat) (s : State) : PortActs Device.face p s (State.passReset t s p) := by
  unfold State.passReset
  dsimp only
  split_ifs
  · exact onPort_acts ..
  · exact (portReset_acts ..).trans (onPort_acts ..)
  · exact .refl ..
  · exact leave_acts ..

theorem passSuspend_acts (p : PortId) (t : Nat) (s : State) : PortActs Device.face p s (State.passSuspend t s p) := by
  unfold State.passSuspend
  split
  · exact (onPort_acts ..).trans (startCtl_acts ..)
  · exact .refl ..

/-- What a hub that passes something on does at a port. -/
theorem pass_acts (typ t : Nat) (p : PortId) (s : State) :
    PortActs Device.face p s ((if typ = 6 then State.passReset t else State.passSuspend t) s p) := by
  split
  · exact passReset_acts ..
  · exact passSuspend_acts ..

/-! ### A hub's ports, one after the other -/

/-- A hub has changed, but not in what it shows. -/
def HubSame (d : Nat) (s t : State) : Prop := OnlyDev d s t ∧ (t.dev d).face = (s.dev d).face

theorem HubSame.refl (d : Nat) (s : State) : HubSame d s s := ⟨.refl d s, rfl⟩

theorem HubSame.trans {d : Nat} {s t u : State} (h : HubSame d s t) (k : HubSame d t u) : HubSame d s u := ⟨h.1.trans k.1, k.2.trans h.2⟩

theorem PortActs.hubSame {d i : Nat} {s t : State} (h : PortActs Device.face (.hub d i) s t) : HubSame d s t :=
  ⟨(h.hub d i rfl).1, (h.hub d i rfl).2.1⟩

theorem HubUp.hubSame {d : Nat} {s t : State} (h : HubUp Device.face d s t) : HubSame d s t := ⟨h.devs, h.dev⟩

theorem mem_hubPorts {s : State} {d : Nat} {p : PortId} : p ∈ s.hubPorts d ↔ ∃ i, 1 ≤ i ∧ i ≤ (s.dev d).nports ∧ p = .hub d i := by
  simp only [State.hubPorts, List.mem_map, upto, List.mem_range]
  constructor
  · rintro ⟨k, hk, rfl⟩
    exact ⟨k + 1, by omega, by omega, rfl⟩
  · rintro ⟨i, h1, hn, rfl⟩
    exact ⟨i - 1, by omega, by rw [Nat.sub_add_cancel h1]⟩

/-- The ports of the hub with the command passed on to them, the echo not owed yet. -/
def State.passedOn (s : State) (d typ t : Nat) : State := (s.hubPorts d).foldl (if typ = 6 then State.passReset t else State.passSuspend t) s

theorem hubPass_eq (s : State) (d up typ t : Nat) :
    s.hubPass d up typ t = ((s.passedOn d typ t).onDev d fun v => { v with owesEcho := some (typ, up) }).hubSettle d t := rfl

theorem foldl_hubSame {d : Nat} {f : State → PortId → State} (hf : ∀ s i, HubSame d s (f s (.hub d i))) {l : List PortId}
    (hl : ∀ p ∈ l, ∃ i, p = .hub d i) (s : State) : HubSame d s (l.foldl f s) := by
  refine l.foldlRecOn (motive := HubSame d s) f (.refl d s) fun x hx p hp => ?_
  obtain ⟨i, rfl⟩ := hl p hp
  exact hx.trans (hf x i)

theorem passedOn_hubSame (s : State) (d typ t : Nat) : HubSame d s (s.passedOn d typ t) := by
  refine foldl_hubSame (fun x i => (pass_acts typ t (.hub d i) x).hubSame) (fun p hp => ?_) s
  obtain ⟨i, -, -, rfl⟩ := mem_hubPorts.1 hp
  exact ⟨i, rfl⟩

theorem hubPass_hubSame (s : State) (d up typ t : Nat) : HubSame d s (s.hubPass d up typ t) := by
  rw [hubPass_eq]
  have h : HubSame d (s.passedOn d typ t) ((s.passedOn d typ t).onDev d fun v => { v with owesEcho := some (typ, up) }) :=
    (HubUp.onDev Device.face d _ rfl).hubSame
  exact ((passedOn_hubSame s d typ t).trans h).trans (hubSettle_hubUp d t _).hubSame

/-- What the step at `a` makes of `J`, where every other step keeps `J` and every step keeps what was made, holds behind a fold that comes to `a`. -/
theorem foldl_reaches_from {σ α : Type} {f : σ → α → σ} {J q : σ → Prop} {a : α} {l : List α} (ha : ∀ s, J s → q (f s a))
    (hj : ∀ s, ∀ b ∈ l, b ≠ a → J s → J (f s b)) (hk : ∀ s, ∀ b ∈ l, q s → q (f s b)) (hm : a ∈ l) {s : σ} (h : J s) :
    q (l.foldl f s) := by
  induction l generalizing s with
  | nil => simp at hm
  | cons b l ih =>
    by_cases hb : b = a
    · exact l.foldlRecOn (motive := q) _ (hb ▸ ha s h) fun x hx c hc => hk x c (List.mem_cons_of_mem b hc) hx
    · exact ih (fun x c hc => hj x c (List.mem_cons_of_mem b hc)) (fun x c hc => hk x c (List.mem_cons_of_mem b hc))
        ((List.mem_cons.1 hm).resolve_left (Ne.symm hb)) (hj s b List.mem_cons_self hb h)

/-- What a port of the hub shows, and what it awaits, stay where another port acts. -/
theorem PortActs.other {d i j : Nat} {s t : State} (h : PortActs Device.face (.hub d j) s t) (hij : i ≠ j) :
    t.portState (.hub d i) = s.portState (.hub d i) ∧ t.port (.hub d i) = s.port (.hub d i) ∧
    ∀ typ, t.awaits (.port (.hub d i)) typ = s.awaits (.port (.hub d i)) typ := by
  have hc : (PortId.hub d i).code ≠ (PortId.hub d j).code := by simp [PortId.code, hij]
  refine ⟨h.shown .PRT_STS_STATE _ (.inl rfl) hc, h.ports _ hc, fun typ => ?_⟩
  rw [State.awaits, h.links _ hc]
  rfl

/-- RESET has been passed on to a port. -/
def State.resetOut (s : State) (p : PortId) : Prop := s.portState p = 3 ∧ s.awaits (.port p) 6 = true ∧ (s.port p).prop = true

/-- SUSPEND has. -/
def State.suspendPassedOn (s : State) (p : PortId) : Prop :=
  s.portState p = 4 ∧ (s.port p).susp = .sent ∧ s.awaits (.port p) 7 = true ∧ (s.port p).prop = true

theorem passReset_enabled {s : State} {p : PortId} (t : Nat) (h : s.portState p = 4) : (State.passReset t s p).resetOut p := by
  have e : State.passReset t s p = ((s.rateWithdraw p).enterResetting p t false).onPort p fun x => { x with prop := true } := by
    rw [← portReset_enabled t h]
    simp [State.passReset, h, State.hasLink]
  rw [e]
  exact ⟨enterResetting_state p t false (s.rateWithdraw p), enterResetting_awaits p t false (s.rateWithdraw p), by rw [State.port_onPort_same]⟩

theorem passReset_again {s : State} {p : PortId} (t : Nat) (h : s.resetOut p) : (State.passReset t s p).resetOut p := by
  obtain ⟨hst, haw, -⟩ := h
  have e : State.passReset t s p = s.onPort p fun x => { x with prop := true } := by simp [State.passReset, hst]
  rw [e]
  exact ⟨hst, haw, by rw [State.port_onPort_same]⟩

theorem passSuspend_enabled {s : State} {p : PortId} (t : Nat) (h : s.portState p = 4) : (State.passSuspend t s p).suspendPassedOn p := by
  have e : State.passSuspend t s p = (s.onPort p fun x => { x with prop := true, susp := .sent }).startCtl (.port p) 7 t := if_pos h
  have hk := State.startCtl_keeps (P := within [.out, .links]) (.port p) 7 t (Keeps.refl (s.onPort p fun x => { x with prop := true, susp := .sent }))
    (covers_within (List.Subset.refl _))
  have hp : (State.passSuspend t s p).port p = { s.port p with prop := true, susp := .sent } := by
    rw [e, port_of_ports (hk.part .ports rfl), State.port_onPort_same]
  refine ⟨?_, by rw [hp], ?_, by rw [hp]⟩
  · rw [e]
    exact (hk.fgetN (g := .PRT_STS_STATE) rfl _).trans h
  · rw [e]
    exact startCtl_awaits ..

/-- A hub that has passed a command on to a port with an ENABLED link, and waits for it. -/
theorem passedOn_reaches {s : State} {d i typ t : Nat} {q : State → PortId → Prop} (h1 : 1 ≤ i) (hn : i ≤ (s.dev d).nports)
    (h4 : s.portState (.hub d i) = 4)
    (ha : ∀ x, x.portState (.hub d i) = 4 → q ((if typ = 6 then State.passReset t else State.passSuspend t) x (.hub d i)) (.hub d i))
    (hagain : ∀ x, q x (.hub d i) → q ((if typ = 6 then State.passReset t else State.passSuspend t) x (.hub d i)) (.hub d i))
    (hq : ∀ x y, y.portState (.hub d i) = x.portState (.hub d i) → y.port (.hub d i) = x.port (.hub d i) →
      (∀ k, y.awaits (.port (.hub d i)) k = x.awaits (.port (.hub d i)) k) → q x (.hub d i) → q y (.hub d i)) :
    q (s.passedOn d typ t) (.hub d i) := by
  refine foldl_reaches_from (f := if typ = 6 then State.passReset t else State.passSuspend t) (q := fun x => q x (.hub d i))
    (J := fun x : State => x.portState (.hub d i) = 4) ha (fun x p hp hne hx => ?_) (fun x p hp hx => ?_)
    (mem_hubPorts.2 ⟨i, h1, hn, rfl⟩) h4
  · obtain ⟨j, -, -, rfl⟩ := mem_hubPorts.1 hp
    exact ((pass_acts typ t (.hub d j) x).other fun e => hne (e ▸ rfl)).1.trans hx
  · obtain ⟨j, -, -, rfl⟩ := mem_hubPorts.1 hp
    by_cases hij : i = j
    · exact hij ▸ hagain x hx
    · obtain ⟨hst, hport, haw⟩ := (pass_acts typ t (.hub d j) x).other hij
      exact hq x _ hst hport haw hx

/-- It owes the echo until the port has answered. -/
theorem hubPass_waits {s : State} {d up i typ t : Nat} (h1 : 1 ≤ i) (hn : i ≤ (s.dev d).nports)
    (hp : ((s.passedOn d typ t).port (.hub d i)).prop = true) :
    s.hubPass d up typ t = (s.passedOn d typ t).onDev d fun v => { v with owesEcho := some (typ, up) } := by
  have hnp : ((s.passedOn d typ t).dev d).nports = (s.dev d).nports := (congrArg Device.nports (passedOn_hubSame s d typ t).2 :)
  rw [hubPass_eq]
  generalize hx : ((s.passedOn d typ t).onDev d fun v => { v with owesEcho := some (typ, up) }) = x
  have hdev : x.dev d = { (s.passedOn d typ t).dev d with owesEcho := some (typ, up) } := by rw [← hx, State.dev_onDev_same]
  have hany : ((x.hubPorts d).any fun p => (x.port p).prop) = true := by
    refine List.any_eq_true.2 ⟨.hub d i, mem_hubPorts.2 ⟨i, h1, by rw [hdev]; exact hnp ▸ hn, rfl⟩, ?_⟩
    rw [← hx]
    exact hp
  unfold State.hubSettle
  rw [hdev]
  simp only [hany, if_true]

/-! ### Echoes at a downstream end -/

theorem echo_of_free {s : State} {l : LinkEndId} (typ t : Nat) (again : Bool) (f : FreeToSend l 16 s) :
    (s.echo l typ t again).out = s.out ++ [.send l (s.link l).rate (linkctl typ 0 0 0)] := by
  unfold State.echo
  rw [sendCtl_of_free typ 0 0 0 f]
  split <;> rfl

theorem echo_devs (s : State) (l : LinkEndId) (typ t : Nat) (again : Bool) : (s.echo l typ t again).devs = s.devs :=
  (State.echo_keeps (P := within [.out, .links]) l typ t again (Keeps.refl s) (covers_within (List.Subset.refl _))).part .devs rfl

/-- The end of a device goes down: it sends nothing, and whether the device is suspended stays. -/
theorem endDown_dev (s : State) (d up : Nat) : (s.endDown (.dev d up)).out = s.out ∧
    ((s.endDown (.dev d up)).dev d).suspended = (s.dev d).suspended ∧ ((s.endDown (.dev d up)).link (.dev d up)).up = false := by
  refine ⟨rfl, ?_, ?_⟩
  · unfold State.endDown
    dsimp only
    rw [State.dev_onDev_same, State.onDelay, State.dev_onDev_same]
    rfl
  · have h := link_changed (t := s.endDown (.dev d up)) (s := s.onLink (.dev d up) fun e => { e with
      up := false, seenSent := false, seenRecv := false, peerCaps := none, waiting := [], ratePend := none, rx := [], held := [] })
      (l := .dev d up) (f := fun e => e.toRate 0) rfl
    rw [h, toRate_up, State.link_onLink_same]

/-! ### RESET at a downstream end (R102) -/

section
variable {s : State} {d up t : Nat} (hr : s.isRepeat (.dev d up) 6 t = false) (ha : s.actsFrom d up = true) (ho : (s.dev d).owesEcho = none)
include hr ha ho

/-- Neither a repeat nor one that is under way. -/
theorem exec_resetReceive : exec (.linkctlResetReceive d up t) s = .next (
    if (s.dev d).kind = 1 then ((s.at_ t).onDev d Device.busReset).echo (.dev d up) 6 t false
    else ((s.at_ t).onDev d Device.busReset).hubPass d up 6 t) := by
  have hk : (((s.at_ t).onDev d Device.busReset).dev d).kind = (s.dev d).kind := by rw [State.dev_onDev_same]; rfl
  change execLinkctlResetReceive d up t s = _
  unfold execLinkctlResetReceive
  dsimp only
  rw [if_neg (by rw [show (s.at_ t).isRepeat (.dev d up) 6 t = false from hr]; simp),
    if_neg (by rw [show (s.at_ t).actsFrom d up = true from ha]; simp),
    if_neg (by rw [show ((s.at_ t).dev d).owesEcho = none from ho]; simp), hk, apply_ite Host.Outcome.next]

theorem answers_resetReceive_module (hk : (s.dev d).kind = 1) (f : FreeToSend (.dev d up) 16 (s.at_ t)) :
    Answers (.linkctlResetReceive d up t) s fun t' =>
      t'.dev d = (s.dev d).busReset ∧ t'.out = s.out ++ [.send (.dev d up) (s.link (.dev d up)).rate (linkctl 6 0 0 0)] ∧ OnlyDev d s t' := by
  have e := exec_resetReceive hr ha ho
  rw [if_pos hk] at e
  have hd := echo_devs ((s.at_ t).onDev d Device.busReset) (.dev d up) 6 t false
  exact answers_of_exec e (fun P cv => execLinkctlResetReceive_keeps d up t (Keeps.refl s) cv) ⟨(dev_of_devs hd d).trans (State.dev_onDev_same _ d _),
    echo_of_free 6 t false (f.onDev d (g := Device.busReset) rfl), (onDev_onlyDev _ d _).trans (.of_devs hd)⟩

theorem answers_resetReceive : Answers (.linkctlResetReceive d up t) s fun t' =>
    (t'.dev d).addr = 0 ∧ (t'.dev d).st = 0 ∧ (t'.dev d).ctl = none ∧ OnlyDev d s t' := by
  have hreset : ((s.at_ t).onDev d Device.busReset).dev d = (s.dev d).busReset := State.dev_onDev_same ..
  have h (x : State) (hx : HubSame d ((s.at_ t).onDev d Device.busReset) x) :
      (x.dev d).addr = 0 ∧ (x.dev d).st = 0 ∧ (x.dev d).ctl = none ∧ OnlyDev d s x := by
    obtain ⟨honly, hface⟩ := hx
    rw [hreset] at hface
    exact ⟨(congrArg Device.addr hface :), (congrArg Device.st hface :), (congrArg Device.ctl hface :), (onDev_onlyDev (s.at_ t) d _).trans honly⟩
  refine answers_of_exec (exec_resetReceive hr ha ho) (fun P cv => execLinkctlResetReceive_keeps d up t (Keeps.refl s) cv) (h _ ?_)
  split
  · exact (echo_hubUp Device.face d up 6 t false _).hubSame
  · exact hubPass_hubSame _ d up 6 t

/-- A hub passes RESET on to a port with an ENABLED link, and owes the echo until the port has answered. -/
theorem answers_resetReceive_hub {i : Nat} (hk : (s.dev d).kind ≠ 1) (h1 : 1 ≤ i) (hn : i ≤ (s.dev d).nports) (h4 : s.portState (.hub d i) = 4) :
    Answers (.linkctlResetReceive d up t) s fun t' =>
      t'.portState (.hub d i) = 3 ∧ t'.awaits (.port (.hub d i)) 6 = true ∧ (t'.dev d).owesEcho = some (6, up) := by
  have hn' : i ≤ (((s.at_ t).onDev d Device.busReset).dev d).nports := by
    rw [State.dev_onDev_same]
    exact hn
  obtain ⟨hst, haw, hp⟩ : (((s.at_ t).onDev d Device.busReset).passedOn d 6 t).resetOut (.hub d i) := by
    refine passedOn_reaches (q := State.resetOut) h1 hn' h4 (fun x hx => passReset_enabled t hx) (fun x hx => passReset_again t hx) ?_
    rintro x y hst hport haw ⟨h3, h6, hprop⟩
    exact ⟨hst.trans h3, (haw 6).trans h6, by rw [hport, hprop]⟩
  have e := exec_resetReceive hr ha ho
  rw [if_neg hk, hubPass_waits h1 hn' hp] at e
  exact answers_of_exec e (fun P cv => execLinkctlResetReceive_keeps d up t (Keeps.refl s) cv) ⟨hst, haw, by rw [State.dev_onDev_same]⟩

end

/-! ### SUSPEND at a downstream end (R103) -/

/-- A WAKE of an end is over. -/
def State.wakeOver (s : State) (l : LinkEndId) : State := s.onLink l fun e => { e with wakeAt := none }

/-- A module in suspend, its echo not sent yet. -/
def State.moduleSuspends (s : State) (d up : Nat) : State := (s.onDev d fun v => { v with suspended := true }).wakeOver (.dev d up)

section
variable {s : State} {d up t : Nat} (hr : s.isRepeat (.dev d up) 7 t = false) (ha : s.actsFrom d up = true) (ho : (s.dev d).owesEcho = none)
include hr ha ho

theorem exec_suspendReceive : exec (.linkctlSuspendReceive d up t) s = .next (
    if (s.dev d).kind = 1 then (((s.at_ t).moduleSuspends d up).echo (.dev d up) 7 t false).endDown (.dev d up)
    else ((s.at_ t).wakeOver (.dev d up)).hubPass d up 7 t) := by
  change execLinkctlSuspendReceive d up t s = _
  unfold execLinkctlSuspendReceive
  dsimp only
  rw [if_neg (by rw [show (s.at_ t).isRepeat (.dev d up) 7 t = false from hr]; simp),
    if_neg (by rw [show (s.at_ t).actsFrom d up = true from ha]; simp),
    if_neg (by rw [show ((s.at_ t).dev d).owesEcho = none from ho]; simp), apply_ite Host.Outcome.next]
  rfl

theorem answers_suspendReceive_module (hk : (s.dev d).kind = 1) (f : FreeToSend (.dev d up) 16 (s.at_ t)) :
    Answers (.linkctlSuspendReceive d up t) s fun t' =>
      (t'.dev d).suspended = true ∧ (t'.link (.dev d up)).up = false ∧ t'.out = s.out ++
        [.send (.dev d up) (s.link (.dev d up)).rate (linkctl 7 0 0 0)] ∧ OnlyDev d s t' := by
  have hf : FreeToSend (.dev d up) 16 ((s.at_ t).moduleSuspends d up) := (f.onDev d (g := fun v => { v with suspended := true }) rfl).onLink rfl rfl
  have hrate : (((s.at_ t).moduleSuspends d up).link (.dev d up)).rate = (s.link (.dev d up)).rate := by
    rw [State.moduleSuspends, State.wakeOver, State.link_onLink_same]
    rfl
  have hd := echo_devs ((s.at_ t).moduleSuspends d up) (.dev d up) 7 t false
  have hs : (((s.at_ t).moduleSuspends d up).dev d).suspended = true := by
    rw [show ((s.at_ t).moduleSuspends d up).dev d = ((s.at_ t).onDev d fun v => { v with suspended := true }).dev d from rfl, State.dev_onDev_same]
  obtain ⟨hout, hsusp, hup⟩ := endDown_dev (((s.at_ t).moduleSuspends d up).echo (.dev d up) 7 t false) d up
  have e := exec_suspendReceive hr ha ho
  rw [if_pos hk] at e
  refine answers_of_exec e (fun P cv => execLinkctlSuspendReceive_keeps d up t (Keeps.refl s) cv) ⟨?_, hup, ?_, ?_⟩
  · rw [hsusp, dev_of_devs hd]
    exact hs
  · rw [hout, echo_of_free 7 t false hf, hrate]
    rfl
  · exact ((onDev_onlyDev (s.at_ t) d fun v => { v with suspended := true }).trans (.of_devs hd)).trans (endDown_hubUp d up _).devs

/-- A hub passes SUSPEND on to a port with an ENABLED link, and owes the echo until the port has answered. -/
theorem answers_suspendReceive_hub {i : Nat} (hk : (s.dev d).kind ≠ 1) (h1 : 1 ≤ i) (hn : i ≤ (s.dev d).nports) (h4 : s.portState (.hub d i) = 4) :
    Answers (.linkctlSuspendReceive d up t) s fun t' =>
      (t'.port (.hub d i)).susp = .sent ∧ t'.awaits (.port (.hub d i)) 7 = true ∧ (t'.dev d).owesEcho = some (7, up) := by
  obtain ⟨-, hs, haw, hp⟩ : (((s.at_ t).wakeOver (.dev d up)).passedOn d 7 t).suspendPassedOn (.hub d i) := by
    refine passedOn_reaches (q := State.suspendPassedOn) h1 hn h4 (fun x hx => passSuspend_enabled t hx) (fun x hx => passSuspend_enabled t hx.1) ?_
    rintro x y hst hport haw ⟨h4, hsent, h7, hprop⟩
    exact ⟨hst.trans h4, by rw [hport, hsent], (haw 7).trans h7, by rw [hport, hprop]⟩
  have e := exec_suspendReceive hr ha ho
  rw [if_neg hk, hubPass_waits (s := (s.at_ t).wakeOver (.dev d up)) h1 hn hp] at e
  exact answers_of_exec e (fun P cv => execLinkctlSuspendReceive_keeps d up t (Keeps.refl s) cv) ⟨hs, haw, by rw [State.dev_onDev_same]⟩

end

/-! ### RESUME at a downstream end (R104, R105) -/

/-- What a hub that resumes does at a port that it suspended, or that woke it. -/
def State.resumeBelow (t : Nat) (s : State) (p : PortId) : State :=
  if (s.port p).wakeHeld then (s.onPort p fun x => { x with wakeHeld := false }).wakeResume p t
  else if (s.port p).suspByProp then s.hostResume p else s

theorem resumeBelow_acts (t : Nat) (p : PortId) (s : State) : PortActs Device.calm p s (State.resumeBelow t s p) := by
  unfold State.resumeBelow
  split_ifs
  · exact (onPort_acts ..).trans (wakeResume_acts ..)
  · exact hostResume_acts ..
  · exact .refl ..

/-- A device that resumes, its echo not sent yet. -/
def State.devResumes (s : State) (d up : Nat) : State :=
  ((s.stopCtl (.dev d up) 9).wakeOver (.dev d up)).onDev d fun v => { v with suspended := false }

theorem exec_resumeReceive {s : State} {d up t : Nat} (hr : s.isRepeat (.dev d up) 8 t = false) (ha : s.actsFrom d up = true) :
    exec (.linkctlResumeReceive d up t) s = .next (
      ((((s.at_ t).devResumes d up).echo (.dev d up) 8 t false).hubPorts d |>.filter fun p =>
        (((s.at_ t).devResumes d up).echo (.dev d up) 8 t false).portState p == 6).foldl (State.resumeBelow t)
        (((s.at_ t).devResumes d up).echo (.dev d up) 8 t false)) := by
  change execLinkctlResumeReceive d up t s = _
  unfold execLinkctlResumeReceive
  dsimp only
  rw [if_neg (by rw [show (s.at_ t).isRepeat (.dev d up) 8 t = false from hr]; simp),
    if_neg (by rw [show (s.at_ t).actsFrom d up = true from ha]; simp)]
  rfl

theorem answers_resumeReceive {s : State} {d up t : Nat} (hr : s.isRepeat (.dev d up) 8 t = false) (ha : s.actsFrom d up = true)
    (f : FreeToSend (.dev d up) 16 (s.at_ t)) : Answers (.linkctlResumeReceive d up t) s fun t' =>
    (t'.dev d).suspended = false ∧ s.out ++ [.send (.dev d up) (s.link (.dev d up)).rate (linkctl 8 0 0 0)] <+: t'.out := by
  have hf : FreeToSend (.dev d up) 16 ((s.at_ t).devResumes d up) :=
    ((f.onLink (g := fun e => { e with waiting := e.waiting.filter fun c => c.typ != 9 }) rfl rfl).onLink (g := fun e => { e with wakeAt := none })
      rfl rfl).onDev d rfl
  have hrate : (((s.at_ t).devResumes d up).link (.dev d up)).rate = (s.link (.dev d up)).rate := by
    rw [show ((s.at_ t).devResumes d up).link (.dev d up) = (((s.at_ t).stopCtl (.dev d up) 9).wakeOver (.dev d up)).link (.dev d up) from rfl,
      State.wakeOver, State.link_onLink_same, State.stopCtl, State.link_onLink_same]
    rfl
  have hs : (((s.at_ t).devResumes d up).dev d).suspended = false := congrArg Device.suspended (State.dev_onDev_same _ d _)
  have hout := echo_of_free 8 t false hf
  have hdev := dev_of_devs (echo_devs ((s.at_ t).devResumes d up) (.dev d up) 8 t false) d
  have e := exec_resumeReceive hr ha
  rw [hrate] at hout
  generalize ((s.at_ t).devResumes d up).echo (.dev d up) 8 t false = x at *
  obtain ⟨hcalm, hpre⟩ : (((x.hubPorts d).filter fun p => x.portState p == 6).foldl (State.resumeBelow t) x |>.dev d).calm = (x.dev d).calm ∧
      x.out <+: (((x.hubPorts d).filter fun p => x.portState p == 6).foldl (State.resumeBelow t) x).out := by
    refine List.foldlRecOn (motive := fun y : State => (y.dev d).calm = (x.dev d).calm ∧ x.out <+: y.out) _ _ ⟨rfl, List.prefix_refl _⟩
      fun y hy p hp => ?_
    obtain ⟨i, -, -, rfl⟩ := mem_hubPorts.1 (List.mem_filter.1 hp).1
    obtain ⟨-, hc, ho⟩ := (resumeBelow_acts t (.hub d i) y).hub d i rfl
    exact ⟨hc.trans hy.1, hy.2.trans ho⟩
  refine answers_of_exec e (fun P cv => execLinkctlResumeReceive_keeps d up t (Keeps.refl s) cv) ⟨?_, ?_⟩
  · exact (congrArg Device.suspended hcalm :).trans ((congrArg Device.suspended hdev).trans hs)
  · exact (show s.out ++ _ = x.out from hout.symm) ▸ hpre

/-! ### Echoes at a port -/

theorem echoTaken_port (s : State) (p q : PortId) (typ t : Nat) : (s.echoTaken (.port p) typ t).port q = s.port q := rfl

theorem echoTaken_fgetN (s : State) (l : LinkEndId) (typ t : Nat) (g : Fld) (i : Nat) : (s.echoTaken l typ t).fgetN g i = s.fgetN g i := rfl

theorem propOut_of_prop {s : State} {p : PortId} (typ : Nat) (h : (s.port p).prop = false) : s.propOut p typ = false := by
  unfold State.propOut
  split <;> simp [h]

/-- A port ENABLED again, before its change bit. -/
def State.enabled (s : State) (p : PortId) (f : Port → Port) : State := (s.putState p 4).onPort p f

theorem enabled_change (s : State) (p : PortId) (f : Port → Port) {b : Fld} (hb : b.ok = true ∧ b.lo = b.hi ∧ b.reg = .PRT_CHG) :
    ((s.enabled p f).change p [b]).portState p = 4 ∧ ((s.enabled p f).change p [b]).fgetN b p.code = 1 ∧
    ((s.enabled p f).change p [b]).links = s.links := by
  refine ⟨?_, ?_, change_links p [b] (s.enabled p f)⟩
  · exact (change_other p _ _ (.inl rfl) (by simp [Fld.apart, hb.2.2, Fld.PRT_STS_STATE])).trans (portState_putState p s 4 (by decide))
  · exact change_mem _ _ rfl hb List.mem_cons_self (by simp)

theorem answers_resetEcho {s : State} {p : PortId} {t : Nat} (h3 : s.portState p = 3) (ha : s.awaits (.port p) 6 = true)
    (hp : (s.port p).prop = false) : Answers (.resetEchoReceive p t) s fun t' =>
    t'.portState p = 4 ∧ t'.awaits (.port p) 6 = false ∧
    t'.fgetN (if (s.port p).connecting then .PRT_CHG_CONNECT else .PRT_CHG_RESET_DONE) p.code = 1 := by
  generalize hb : (if (s.port p).connecting then Fld.PRT_CHG_CONNECT else .PRT_CHG_RESET_DONE) = b
  have e : exec (.resetEchoReceive p t) s =
      .next ((((s.at_ t).echoTaken (.port p) 6 t).enabled p fun x => { x with connecting := false }).change p [b]) := by
    change execResetEchoReceive p t s = _
    unfold execResetEchoReceive
    dsimp only
    rw [if_pos ⟨h3, ha⟩, if_neg (by rw [propOut_of_prop (s := (s.at_ t).echoTaken (.port p) 6 t) 6 hp]; simp), ← hb]
    rfl
  have hbits : b.ok = true ∧ b.lo = b.hi ∧ b.reg = .PRT_CHG := by
    rw [← hb]
    split <;> decide
  obtain ⟨hst, hbit, hl⟩ := enabled_change ((s.at_ t).echoTaken (.port p) 6 t) p (fun x => { x with connecting := false }) hbits
  exact answers_of_exec e (fun P cv => execResetEchoReceive_keeps p t (Keeps.refl s) cv)
    ⟨hst, (awaits_of_links hl _ _).trans (echoTaken_awaits ..), hbit⟩

theorem answers_resumeEcho {s : State} {p : PortId} {t : Nat} (h7 : s.portState p = 7) (ha : s.awaits (.port p) 8 = true) :
    Answers (.resumeEchoReceive p t) s fun t' =>
      t'.portState p = 4 ∧ t'.fgetN .PRT_CHG_RESUME_DONE p.code = 1 ∧ t'.awaits (.port p) 8 = false := by
  have e : exec (.resumeEchoReceive p t) s =
      .next ((((s.at_ t).echoTaken (.port p) 8 t).enabled p fun x => { x with forWake := false, suspByProp := false }).change p [.PRT_CHG_RESUME_DONE]) :=
    if_pos ⟨h7, ha⟩
  obtain ⟨hst, hbit, hl⟩ := enabled_change ((s.at_ t).echoTaken (.port p) 8 t) p (fun x => { x with forWake := false, suspByProp := false })
    (b := .PRT_CHG_RESUME_DONE) (by decide)
  exact answers_of_exec e (fun P cv => execResumeEchoReceive_keeps p t (Keeps.refl s) cv)
    ⟨hst, hbit, (awaits_of_links hl _ _).trans (echoTaken_awaits ..)⟩

/-! ### The SUSPEND echo (R103, R106) -/

/-- A port in SUSPENDED, before its change bit. -/
def State.suspendedNow (s : State) (p : PortId) : State :=
  ((((s.putState p 6).endDown (.port p)).fsetN .PRT_STS_COLLIDED p.code 0).fsetN .PRT_STS_WAKE_SEEN p.code 0).onPort p fun x => { x with
    susp := .none, wakeHeld := false, suspByProp := x.prop, prop := false, rate5Before := (s.link (.port p)).rate == 1 }

theorem enterSuspended_eq {s : State} {p : PortId} (t : Nat) (h : (s.port p).wakeHeld = false) :
    s.enterSuspended p t = (s.suspendedNow p).change p [.PRT_CHG_SUSPEND_DONE] := by
  unfold State.enterSuspended
  simp only [h, Bool.false_eq_true, if_false]
  rfl

theorem suspendedNow_fields (s : State) (p : PortId) : (s.suspendedNow p).portState p = 6 ∧ (s.suspendedNow p).fgetN .PRT_STS_COLLIDED p.code = 0 ∧
    (s.suspendedNow p).fgetN .PRT_STS_WAKE_SEEN p.code = 0 := by
  have hk : Keeps (within [.out, .links, .devs, .txns]) (s.putState p 6) ((s.putState p 6).endDown (.port p)) :=
    State.endDown_keeps _ (Keeps.refl _) (covers_within (List.Subset.refl _))
  refine ⟨?_, ?_, ?_⟩
  · calc (s.suspendedNow p).portState p
        = (((s.putState p 6).endDown (.port p)).fsetN .PRT_STS_COLLIDED p.code 0).portState p :=
          State.fgetN_apart _ .PRT_STS_WAKE_SEEN .PRT_STS_STATE p.code p.code 0 (by decide)
      _ = ((s.putState p 6).endDown (.port p)).portState p := State.fgetN_apart _ .PRT_STS_COLLIDED .PRT_STS_STATE p.code p.code 0 (by decide)
      _ = (s.putState p 6).portState p := hk.fgetN rfl _
      _ = 6 := portState_putState p s 6 (by decide)
  · exact (State.fgetN_apart _ .PRT_STS_WAKE_SEEN .PRT_STS_COLLIDED p.code p.code 0 (by decide)).trans
      (State.fgetN_fsetN_same _ .PRT_STS_COLLIDED p.code 0 (by decide))
  · exact State.fgetN_fsetN_same _ .PRT_STS_WAKE_SEEN p.code 0 (by decide)

/-- What a port shows that has entered SUSPENDED. -/
theorem enterSuspended_shows {s : State} {p : PortId} (t : Nat) (h : (s.port p).wakeHeld = false) :
    (s.enterSuspended p t).portState p = 6 ∧ ((s.enterSuspended p t).link (.port p)).up = false ∧
    (s.enterSuspended p t).fgetN .PRT_CHG_SUSPEND_DONE p.code = 1 ∧ (s.enterSuspended p t).fgetN .PRT_STS_COLLIDED p.code = 0 ∧
    (s.enterSuspended p t).fgetN .PRT_STS_WAKE_SEEN p.code = 0 := by
  obtain ⟨hst, hcol, hseen⟩ := suspendedNow_fields s p
  rw [enterSuspended_eq t h]
  refine ⟨(change_other p _ _ (.inl rfl) (by decide)).trans hst, ?_, change_mem _ _ rfl (by decide) (by decide) (by decide),
    (change_other p _ _ (.inl rfl) (by decide)).trans hcol, (change_other p _ _ (.inl rfl) (by decide)).trans hseen⟩
  rw [link_of_links (change_links ..)]
  exact endDown_up p _

theorem enterSuspended_pwr {s : State} {p : PortId} (t : Nat) (h : (s.port p).wakeHeld = false) : (s.enterSuspended p t).pwr = s.pwr := by
  have hd : Keeps (within [.out, .links, .devs, .txns]) (s.putState p 6) ((s.putState p 6).endDown (.port p)) :=
    State.endDown_keeps _ (Keeps.refl _) (covers_within (List.Subset.refl _))
  have hc : Keeps (within (.reg .PRT_CHG :: changeTail)) (s.suspendedNow p) ((s.suspendedNow p).change p [.PRT_CHG_SUSPEND_DONE]) :=
    State.change_keeps p _ (Keeps.refl _) (covers_within (by decide))
  rw [enterSuspended_eq t h]
  exact (hc.part .pwr rfl).trans (hd.part .pwr rfl)

theorem answers_suspendEcho {s : State} {p : PortId} {t : Nat} (h4 : s.portState p = 4) (hs : (s.port p).susp = .sent)
    (ha : s.awaits (.port p) 7 = true) (hw : (s.port p).wakeHeld = false) (hn : ∀ n, p = .root n → n ∉ s.pwr.suspended) :
    Answers (.suspendEchoReceive p t) s fun t' =>
      t'.portState p = 6 ∧ (t'.link (.port p)).up = false ∧ t'.fgetN .PRT_CHG_SUSPEND_DONE p.code = 1 ∧
      t'.fgetN .PRT_STS_COLLIDED p.code = 0 ∧ t'.fgetN .PRT_STS_WAKE_SEEN p.code = 0 := by
  have hin := enterSuspended_shows (s := (s.at_ t).echoTaken (.port p) 7 t) (p := p) t hw
  have hcond : (s.at_ t).portState p = 4 ∧ ((s.at_ t).port p).susp = .sent ∧ (s.at_ t).awaits (.port p) 7 = true := ⟨h4, hs, ha⟩
  cases p with
  | root n =>
    have hpwr := enterSuspended_pwr (s := (s.at_ t).echoTaken (.port (.root n)) 7 t) (p := .root n) t hw
    have e : exec (.suspendEchoReceive (.root n) t) s = .next (((s.at_ t).echoTaken (.port (.root n)) 7 t).enterSuspended (.root n) t) := by
      change execSuspendEchoReceive (.root n) t s = _
      unfold execSuspendEchoReceive
      dsimp only
      rw [if_pos hcond, if_neg (by rw [hpwr, show ((s.at_ t).echoTaken (.port (.root n)) 7 t).pwr = s.pwr from rfl]; simp [hn n rfl])]
    exact answers_of_exec e (fun P cv => execSuspendEchoReceive_keeps (.root n) t (Keeps.refl s) cv) hin
  | hub d i =>
    have e : exec (.suspendEchoReceive (.hub d i) t) s = .next (if (s.port (.hub d i)).prop then
        (((s.at_ t).echoTaken (.port (.hub d i)) 7 t).enterSuspended (.hub d i) t).hubSettle d t
        else ((s.at_ t).echoTaken (.port (.hub d i)) 7 t).enterSuspended (.hub d i) t) := by
      change execSuspendEchoReceive (.hub d i) t s = _
      unfold execSuspendEchoReceive
      dsimp only
      rw [if_pos hcond]
      rfl
    refine answers_of_exec e (fun P cv => execSuspendEchoReceive_keeps (.hub d i) t (Keeps.refl s) cv) ?_
    split
    · have hu := hubSettle_hubUp d t (((s.at_ t).echoTaken (.port (.hub d i)) 7 t).enterSuspended (.hub d i) t)
      obtain ⟨hst, hup, hdone, hcol, hseen⟩ := hin
      exact ⟨(hu.keeps.fgetN rfl _).trans hst, by rw [hu.links, hup], (hu.keeps.fgetN rfl _).trans hdone, (hu.keeps.fgetN rfl _).trans hcol,
        (hu.keeps.fgetN rfl _).trans hseen⟩
    · exact hin

/-- A hub that waits for the port no longer: what the port shows stays. -/
theorem propOver_kept (s : State) (p : PortId) (t : Nat) : Keeps (within [.out, .ports, .links, .devs, .txns]) s (s.propOver p t) :=
  State.propOver_keeps p t (Keeps.refl s) (covers_within (List.Subset.refl _))

theorem answers_suspendEchoTimeout {s : State} {p : PortId} {t : Nat} (h4 : s.portState p = 4) (hs : (s.port p).susp = .sent) :
    Answers (.suspendEchoTimeout p t) s fun t' =>
      (t'.portState p = 5 ∨ t'.portState p = 9) ∧ t'.fgetN .PRT_CHG_RETRAIN p.code = 1 := by
  generalize hx : (((s.at_ t).stopCtl (.port p) 7).onPort p fun x => { x with prop := false }) = x
  have e : exec (.suspendEchoTimeout p t) s = .next (if (s.port p).prop then (x.linkFell p t).propOver p t else x.linkFell p t) := by
    rw [← hx]
    exact if_pos ⟨h4, hs⟩
  refine answers_of_exec e (fun P cv => execSuspendEchoTimeout_keeps p t (Keeps.refl s) cv) ?_
  split
  · have hk := propOver_kept (x.linkFell p t) p t
    rw [show ((x.linkFell p t).propOver p t).portState p = (x.linkFell p t).portState p from hk.fgetN rfl _, hk.fgetN rfl _]
    exact ⟨linkFell_5_or_9 .., linkFell_bit _ _ _ rfl⟩
  · exact ⟨linkFell_5_or_9 .., linkFell_bit _ _ _ rfl⟩

/-! ### WAKE at a port (R105, R106) -/

theorem wakeResume_shows {s : State} {p : PortId} (t : Nat) (h : (s.port p).resetPending = false) :
    (s.wakeResume p t).portState p = 7 ∧ (s.wakeResume p t).fgetN .PRT_STS_WAKE_SEEN p.code = 1 ∧
    (s.wakeResume p t).fgetN .PRT_CHG_WAKE p.code = 1 := by
  have hk := wakeResume_tail p s t h
  exact ⟨(hk.fgetN rfl _).trans (woken_state p s), (hk.fgetN rfl _).trans (woken_seen s _ rfl), (hk.fgetN rfl _).trans (woken_bit s _ rfl)⟩

theorem answers_wake_root {s : State} {n t : Nat} (h6 : s.portState (.root n) = 6) (hw : (s.port (.root n)).wakeTraining = true)
    (hr : (s.port (.root n)).resetPending = false) : Answers (.linkctlWakeReceive (.root n) t) s fun t' =>
      t'.portState (.root n) = 7 ∧ t'.fgetN .PRT_STS_WAKE_SEEN n = 1 ∧ t'.fgetN .PRT_CHG_WAKE n = 1 := by
  have e : exec (.linkctlWakeReceive (.root n) t) s = .next ((s.at_ t).wakeResume (.root n) t) := if_pos ⟨h6, hw⟩
  exact answers_of_exec e (fun P cv => execLinkctlWakeReceive_keeps (.root n) t (Keeps.refl s) cv) (wakeResume_shows t hr)

theorem answers_wake_hub {s : State} {d i up t : Nat} (h6 : s.portState (.hub d i) = 6) (hw : (s.port (.hub d i)).wakeTraining = true)
    (hr : (s.port (.hub d i)).resetPending = false) (hu : s.upOf d = some up) (hs : (s.dev d).suspended = false) :
    Answers (.linkctlWakeReceive (.hub d i) t) s fun t' =>
      t'.portState (.hub d i) = 7 ∧ t'.fgetN .PRT_STS_WAKE_SEEN (PortId.hub d i).code = 1 ∧ t'.fgetN .PRT_CHG_WAKE (PortId.hub d i).code = 1 := by
  have e : exec (.linkctlWakeReceive (.hub d i) t) s = .next ((s.at_ t).wakeResume (.hub d i) t) := by
    change execLinkctlWakeReceive (.hub d i) t s = _
    have hu' : (s.at_ t).upOf d = some up := hu
    have hs' : ((s.at_ t).dev d).suspended = false := hs
    have hc : (s.at_ t).portState (.hub d i) = 6 ∧ ((s.at_ t).port (.hub d i)).wakeTraining = true := ⟨h6, hw⟩
    simp only [execLinkctlWakeReceive, if_pos hc, hu', hs', Bool.not_false, if_true]
  exact answers_of_exec e (fun P cv => execLinkctlWakeReceive_keeps (.hub d i) t (Keeps.refl s) cv) (wakeResume_shows t hr)

/-- Settles O10: what a device does before it echoes, what a hub passes on and waits for, and what each echo ends at the port that awaits it. -/
theorem echoesEndResetSuspendAndResume : Obligations.EchoesEndResetSuspendAndResume := by
  unfold Obligations.EchoesEndResetSuspendAndResume
  exact ⟨fun _ _ _ _ hr ha hk ho f => answers_resetReceive_module hr ha ho hk f, fun _ _ _ _ hr ha ho => answers_resetReceive hr ha ho,
    fun _ _ _ h3 ha hp => answers_resetEcho h3 ha hp, fun _ _ _ _ hr ha hk ho f => answers_suspendReceive_module hr ha ho hk f,
    fun _ _ _ h4 hs ha hw hn => answers_suspendEcho h4 hs ha hw hn, fun _ _ _ h4 hs => answers_suspendEchoTimeout h4 hs,
    fun _ _ _ _ hr ha f => answers_resumeReceive hr ha f, fun _ _ _ h7 ha => answers_resumeEcho h7 ha,
    fun _ _ _ h6 hw hr => answers_wake_root h6 hw hr, fun _ _ _ _ _ h6 hw hr hu hs => answers_wake_hub h6 hw hr hu hs,
    fun _ _ _ _ _ hr ha hk ho h1 hn h4 => answers_resetReceive_hub hr ha ho hk h1 hn h4,
    fun _ _ _ _ _ hr ha hk ho h1 hn h4 => answers_suspendReceive_hub hr ha ho hk h1 hn h4⟩

end Sys2Proof.Machine
end

section
/-! Link retry: packets are checked, acknowledged and replayed (R77, R83, R86–R88, R91, Table 3.6), and from that O6. -/

namespace Sys2Proof.Machine

/-! ### What sending on a line depends on -/

/-- The line of an end is as before: its rate, its transmitter, the time base, and who knows the tick. -/
structure SameLine (l : LinkEndId) (s t : State) : Prop where
  rate : (t.link l).rate = (s.link l).rate
  ports : t.ports = s.ports
  devs : t.devs = s.devs
  tim : t.tim = s.tim
  frate : t.frate = s.frate
  nPorts : t.nPorts = s.nPorts

theorem SameLine.of_keeps {q : List Part} {l : LinkEndId} {s t : State} (k : Keeps (within q) s t) (hr : (t.link l).rate = (s.link l).rate)
    (n : ∀ x ∈ [Part.ports, .devs, .tim, .reg .TIM_FRATE_ACT, .reg .GCTL_CAPS], within q x = false) : SameLine l s t :=
  ⟨hr, k.part .ports (n _ (by decide)), k.part .devs (n _ (by decide)), k.part .tim (n _ (by decide)),
    k.fgetN (g := .TIM_FRATE_ACT_FRATE_ACT) (n _ (by decide)) 0, k.fgetN (g := .GCTL_CAPS_PORTS) (n _ (by decide)) 0⟩

section
variable {l : LinkEndId} {s t : State} (h : SameLine l s t)
include h

theorem SameLine.byteTenths : t.byteTenths l = s.byteTenths l := by rw [State.byteTenths, State.byteTenths, h.rate]

theorem SameLine.tickHold (len off : Nat) : t.tickHold l len off = s.tickHold l len off := by
  have hk : t.knowsTick l = s.knowsTick l := by simp only [State.knowsTick, State.dev, h.devs]
  have hn : t.nextTick = s.nextTick := by simp only [State.nextTick, h.tim, h.frate]
  simp only [State.tickHold, hk, hn, h.tim, h.byteTenths]

theorem SameLine.txForced : t.txForced l = s.txForced l := by simp only [State.txForced, State.port, h.ports]

theorem SameLine.absentEnd : t.absentEnd l = s.absentEnd l := by simp only [State.absentEnd, h.nPorts]

theorem SameLine.atPlane (x : Int) : t.atPlane l x = s.atPlane l x := by simp only [State.atPlane, State.trimOf, h.tim]

theorem SameLine.freeToSend {n : Nat} (hh : (t.link l).held = (s.link l).held) (f : FreeToSend l n s) : FreeToSend l n t := by
  obtain ⟨hheld, htx, habs, htick⟩ := f
  exact ⟨hh.trans hheld, h.txForced.trans htx, h.absentEnd.trans habs, (h.tickHold n 0).trans htick⟩

end

/-- Counting a field of another register leaves the line. -/
theorem SameLine.countN (l : LinkEndId) (s : State) (f : Fld) (i k : Nat) (h : f.reg ≠ .TIM_FRATE_ACT ∧ f.reg ≠ .GCTL_CAPS) :
    SameLine l s (s.countN f i k) :=
  ⟨rfl, rfl, rfl, rfl, s.fgetN_fsetN_reg f .TIM_FRATE_ACT_FRATE_ACT i 0 _ (.inl h.1.symm), s.fgetN_fsetN_reg f .GCTL_CAPS_PORTS i 0 _ (.inl h.2.symm)⟩

/-! ### Kept packets leave back to back (R77, R91) -/

theorem keptSpan_cons (k : Kept) (r : List Kept) : keptSpan (k :: r) = k.pkt.len + 24 + keptSpan r := by
  simp only [keptSpan, ← List.sum_eq_foldl, List.map_cons, List.sum_cons]

theorem span_le (k : Kept) (r : List Kept) : k.span r ≤ keptSpan (k :: r) := by
  rw [keptSpan_cons]
  unfold Kept.span
  split
  · next q r' =>
    rw [keptSpan_cons]
    split <;> omega
  · omega

/-- What ends earlier is not held where the later is not. -/
theorem tickHold_mono {s : State} {l : LinkEndId} {m n a b : Nat} (hle : a + m ≤ b + n) (h : s.tickHold l n b = false) : s.tickHold l m a = false := by
  have hmul : (a + m + 22) * s.byteTenths l ≤ (b + n + 22) * s.byteTenths l := Nat.mul_le_mul_right _ (by omega)
  simp only [State.tickHold, Bool.and_eq_false_iff, decide_eq_false_iff_not, not_lt] at h ⊢
  rcases h with h | h
  · exact .inl h
  · exact .inr (by omega)

theorem outs_congr {l : LinkEndId} {s t : State} (x : Int) (hr : (t.link l).rate = (s.link l).rate) (hp : ∀ y, t.atPlane l y = s.atPlane l y)
    (ks : List Kept) : ∀ off, t.outs l x off ks = s.outs l x off ks := by
  have hb : t.byteTenths l = s.byteTenths l := by rw [State.byteTenths, State.byteTenths, hr]
  induction ks with
  | nil => exact fun _ => rfl
  | cons k r ih =>
    intro off
    simp only [State.outs, hr, hp, hb, ih]

/-- Where nothing sequenced waits and the last of them ends in time before the tick, kept packets leave at once, in order. -/
theorem launch_out_all {l : LinkEndId} (x : Int) (ks : List Kept) : ∀ (s : State) (off : Nat), (s.link l).held.any Kept.seq = false →
    s.txForced l = false → s.absentEnd l = false → s.tickHold l (keptSpan ks) off = false →
    (s.launch l x off ks).out = s.out ++ s.outs l x off ks := by
  induction ks with
  | nil => intro s off _ _ _ _; simp [State.launch, State.outs]
  | cons k r ih =>
    intro s off hh hf ha ht
    have hw : s.waitsFrame l off k r = false := by
      have hspan := tickHold_mono (m := k.span r) (a := off) (Nat.add_le_add_left (span_le k r) off) ht
      simp [State.waitsFrame, hh, hspan]
    have hput (p : BusPkt) : s.putOn l p = s.emit (.send l (s.link l).rate p) := by simp [State.putOn, hf, ha]
    have hrest (o : Output) : ((s.emit o).launch l x (off + k.pkt.len + 24) r).out = s.out ++ [o] ++ s.outs l x (off + k.pkt.len + 24) r := by
      rw [ih (s.emit o) _ hh hf ha (tickHold_mono (by rw [keptSpan_cons]; omega) ht), outs_congr (s := s) (t := s.emit o) x rfl (fun _ => rfl)]
      rfl
    rw [State.launch, if_neg (by simp [hw]), hput, hrest, State.outs, List.append_assoc, List.singleton_append]

/-! ### ACK, RETRY and the replay timeout (R86, R88) -/

theorem answers_ackReceive {s : State} {l : LinkEndId} {seq : Nat} (hu : (s.link l).up = true)
    (h : (Kept.after seq (s.link l).replay).length < (s.link l).replay.length) : Answers (.linkctlAckReceive l seq) s fun t =>
      Kept.after seq (s.link l).replay <+: (t.link l).replay ∧ (t.link l).replayCnt = 0 ∧ OnlyLink l s t := by
  have e : exec (.linkctlAckReceive l seq) s = .next ((s.onLink l fun e => { e with
      replay := Kept.after seq (s.link l).replay, replayCnt := 0 }).drain l) := by
    change execLinkctlAckReceive l seq s = _
    rw [execLinkctlAckReceive, if_pos hu, State.ackKept, if_pos h]
  have hs : Sends l _ ((s.onLink l fun e => { e with replay := Kept.after seq (s.link l).replay, replayCnt := 0 }).drain l) := drainFrom_sends _ l 0
  obtain ⟨-, hcnt, hpre⟩ := hs.own.replayed
  rw [State.link_onLink_same] at hcnt hpre
  exact answers_of_exec e (fun P cv => execLinkctlAckReceive_keeps l seq (Keeps.refl s) cv) ⟨hpre, hcnt, (onLink_onlyLink s l _).trans hs.others⟩

/-- A replay that is counted, before what is kept is sent again. -/
def State.replayNoted (s : State) (l : LinkEndId) (seq : Nat) : State :=
  (s.onLink l fun e => { e with
    replayCnt := if e.replayFrom = seq ∧ 0 < e.replayCnt then e.replayCnt + 1 else 1, replayFrom := seq }).countReplay l

theorem countReplay_links (s : State) (l : LinkEndId) : (s.countReplay l).links = s.links ∧ (s.countReplay l).out = s.out ∧
    SameLine l s (s.countReplay l) := by
  unfold State.countReplay
  split
  · exact ⟨rfl, rfl, .countN _ s .PRT_RETRY_REPLAYS _ 1 (by decide)⟩
  · exact ⟨rfl, rfl, ⟨rfl, rfl, rfl, rfl, rfl, rfl⟩⟩

theorem replayNoted_line (s : State) (l : LinkEndId) (seq : Nat) : SameLine l s (s.replayNoted l seq) ∧ (s.replayNoted l seq).out = s.out ∧
    OnlyLink l s (s.replayNoted l seq) ∧ (s.replayNoted l seq).link l = { s.link l with
      replayCnt := if (s.link l).replayFrom = seq ∧ 0 < (s.link l).replayCnt then (s.link l).replayCnt + 1 else 1, replayFrom := seq } := by
  obtain ⟨hlinks, hout, hline⟩ := countReplay_links (s.onLink l fun e => { e with
    replayCnt := if e.replayFrom = seq ∧ 0 < e.replayCnt then e.replayCnt + 1 else 1, replayFrom := seq }) l
  have hl : (s.replayNoted l seq).link l = _ := (link_of_links hlinks l).trans (s.link_onLink_same l _)
  exact ⟨⟨by rw [hl], hline.ports, hline.devs, hline.tim, hline.frate, hline.nPorts⟩, hout, (onLink_onlyLink s l _).trans (.of_links hlinks), hl⟩

/-- What a replay sends where nothing holds it up. -/
theorem resend_out {s : State} {l : LinkEndId} {seq : Nat} (tTx : Int) (hf : s.txForced l = false) (ha : s.absentEnd l = false)
    (ht : s.tickHold l (keptSpan (Kept.from seq (s.link l).replay)) 0 = false) :
    s.out ++ s.outs l tTx 0 (Kept.from seq (s.link l).replay) <+: (s.resend l seq tTx).out := by
  have hl : (s.dropReplay l).link l = { s.link l with held := (s.link l).held.filter fun k => !k.seq } := s.link_onLink_same l _
  have hline : SameLine l s (s.dropReplay l) := ⟨by rw [hl], rfl, rfl, rfl, rfl, rfl⟩
  have hheld : ((s.dropReplay l).link l).held.any Kept.seq = false := by
    rw [hl]
    simp
  have hout := launch_out_all tTx (Kept.from seq (s.link l).replay) (s.dropReplay l) 0 hheld (hline.txForced.trans hf) (hline.absentEnd.trans ha)
    ((hline.tickHold _ _).trans ht)
  rw [outs_congr tTx hline.rate hline.atPlane] at hout
  unfold State.resend State.launchAll
  rw [show s.out = (s.dropReplay l).out from rfl, ← hout]
  exact (drainFrom_sends _ l _).out

/-- A replay from an LSEQ, as it shows at the end and on its line. -/
theorem replay_shows {s : State} {l : LinkEndId} {seq : Nat} (tTx : Int) (hk : Kept.from seq (s.link l).replay ≠ []) (hf : s.txForced l = false)
    (ha : s.absentEnd l = false) (ht : s.tickHold l (keptSpan (Kept.from seq (s.link l).replay)) 0 = false) :
    s.out ++ s.outs l tTx 0 (Kept.from seq (s.link l).replay) <+: (s.replay l seq tTx).out ∧ ((s.replay l seq tTx).link l).replayFrom = seq ∧
    ((s.replay l seq tTx).link l).replayCnt =
      (if (s.link l).replayFrom = seq ∧ 0 < (s.link l).replayCnt then (s.link l).replayCnt + 1 else 1) ∧ OnlyLink l s (s.replay l seq tTx) := by
  obtain ⟨hline, hout, honly, hl⟩ := replayNoted_line s l seq
  have e : s.replay l seq tTx = (s.replayNoted l seq).resend l seq tTx := if_neg (by simpa [List.isEmpty_iff] using hk)
  have hr : ((s.replayNoted l seq).link l).replay = (s.link l).replay := by rw [hl]
  have hs := resend_sends (s.replayNoted l seq) l seq tTx
  obtain ⟨hfrom, hcnt, -⟩ := hs.own.replayed
  have ho := resend_out (s := s.replayNoted l seq) (l := l) (seq := seq) tTx (hline.txForced.trans hf) (hline.absentEnd.trans ha)
    (by rw [hr, hline.tickHold]; exact ht)
  rw [hr, hout, outs_congr tTx hline.rate hline.atPlane] at ho
  rw [e]
  exact ⟨ho, hfrom.trans (by rw [hl]), hcnt.trans (by rw [hl]), honly.trans hs.others⟩

theorem answers_retryReceive {s : State} {l : LinkEndId} {seq t : Nat} {tTx : Int} (hu : (s.link l).up = true) (hn : s.replaysOut l seq = false)
    (hk : Kept.from seq (s.link l).replay ≠ []) (hf : s.txForced l = false) (ha : s.absentEnd l = false)
    (ht : (s.at_ t).tickHold l (keptSpan (Kept.from seq (s.link l).replay)) 0 = false) : Answers (.linkctlRetryReceive l seq t tTx) s fun t' =>
      s.out ++ s.outs l tTx 0 (Kept.from seq (s.link l).replay) <+: t'.out ∧ (t'.link l).replayFrom = seq ∧
      (t'.link l).replayCnt = (if (s.link l).replayFrom = seq ∧ 0 < (s.link l).replayCnt then (s.link l).replayCnt + 1 else 1) ∧ OnlyLink l s t' := by
  have e : exec (.linkctlRetryReceive l seq t tTx) s = .next ((s.at_ t).replay l seq tTx) := by
    change execLinkctlRetryReceive l seq t tTx s = _
    unfold execLinkctlRetryReceive State.replayOrDown
    dsimp only
    rw [if_pos (show ((s.at_ t).link l).up = true from hu), if_neg (by rw [show (s.at_ t).replaysOut l seq = false from hn]; simp)]
  obtain ⟨hout, hfrom, hcnt, honly⟩ := replay_shows (s := s.at_ t) (l := l) tTx hk hf ha ht
  rw [outs_congr (s := s) (t := s.at_ t) tTx rfl (fun _ => rfl)] at hout
  exact answers_of_exec e (fun P cv => execLinkctlRetryReceive_keeps l seq t tTx (Keeps.refl s) cv) ⟨hout, hfrom, hcnt, honly⟩

theorem exec_replayTimeout {s : State} {l : LinkEndId} {t : Nat} {tTx : Int} {k : Kept} {rest : List Kept} (hu : (s.link l).up = true)
    (hr : (s.link l).replay = k :: rest) : exec (.replayTimeout (some l) t tTx) s = .next ((s.at_ t).replayOrDown l k.lseq t tTx) := by
  have e : exec (.replayTimeout (some l) t tTx) s = .next ((s.at_ t).replayTimeout l t tTx) := by
    change execReplayTimeout (some l) t tTx s = _
    rfl
  have hr' : ((s.at_ t).link l).replay = k :: rest := hr
  rw [e, State.replayTimeout, hr']
  exact congrArg Host.Outcome.next (if_pos hu)

theorem answers_replayTimeout {s : State} {l : LinkEndId} {t : Nat} {tTx : Int} {k : Kept} {rest : List Kept} (hu : (s.link l).up = true)
    (hr : (s.link l).replay = k :: rest) (hn : s.replaysOut l k.lseq = false) (hf : s.txForced l = false) (ha : s.absentEnd l = false)
    (ht : (s.at_ t).tickHold l (keptSpan (s.link l).replay) 0 = false) : Answers (.replayTimeout (some l) t tTx) s fun t' =>
      s.out ++ s.outs l tTx 0 (s.link l).replay <+: t'.out ∧ (t'.link l).replayFrom = k.lseq ∧ OnlyLink l s t' := by
  have hfrom : Kept.from k.lseq (s.link l).replay = (s.link l).replay := by
    rw [hr]
    exact if_pos rfl
  have e := exec_replayTimeout (t := t) (tTx := tTx) hu hr
  rw [State.replayOrDown, if_neg (by rw [show (s.at_ t).replaysOut l k.lseq = false from hn]; simp)] at e
  obtain ⟨hout, hseq, -, honly⟩ := replay_shows (s := s.at_ t) (l := l) (seq := k.lseq) tTx
    (show Kept.from k.lseq (s.link l).replay ≠ [] by rw [hfrom, hr]; simp) hf ha
    (show (s.at_ t).tickHold l (keptSpan (Kept.from k.lseq (s.link l).replay)) 0 = false by rw [hfrom]; exact ht)
  rw [outs_congr (s := s) (t := s.at_ t) tTx rfl (fun _ => rfl), show ((s.at_ t).link l) = s.link l from rfl, hfrom] at hout
  exact answers_of_exec e (fun P cv => execReplayTimeout_keeps (some l) t tTx (Keeps.refl s) cv) ⟨hout, hseq, honly⟩

/-! ### The ninth replay (R88) -/

/-- Where a ninth replay would be needed, an ENABLED port's link falls. -/
theorem replayOrDown_falls {s : State} {p : PortId} {seq : Nat} (t : Nat) (tTx : Int) (hn : s.replaysOut (.port p) seq = true)
    (h4 : s.portState p = 4) : s.replayOrDown (.port p) seq t tTx = s.linkFell p t := by
  rw [State.replayOrDown, if_pos hn]
  simp only [State.endLost, h4]

theorem linkFell_shows (s : State) (p : PortId) (t : Nat) : ((s.linkFell p t).portState p = 5 ∨ (s.linkFell p t).portState p = 9) ∧
    ((s.linkFell p t).link (.port p)).up = false ∧ (s.linkFell p t).fgetN .PRT_CHG_RETRAIN p.code = 1 :=
  ⟨linkFell_5_or_9 .., linkFell_up .., linkFell_bit _ _ _ rfl⟩

theorem answers_retryReceive_ninth {s : State} {p : PortId} {seq t : Nat} {tTx : Int} (hu : (s.link (.port p)).up = true)
    (hn : s.replaysOut (.port p) seq = true) (h4 : s.portState p = 4) : Answers (.linkctlRetryReceive (.port p) seq t tTx) s fun t' =>
      (t'.portState p = 5 ∨ t'.portState p = 9) ∧ (t'.link (.port p)).up = false ∧ t'.fgetN .PRT_CHG_RETRAIN p.code = 1 := by
  have e : exec (.linkctlRetryReceive (.port p) seq t tTx) s = .next ((s.at_ t).replayOrDown (.port p) seq t tTx) :=
    congrArg Host.Outcome.next (if_pos hu)
  rw [replayOrDown_falls (s := s.at_ t) t tTx hn h4] at e
  exact answers_of_exec e (fun P cv => execLinkctlRetryReceive_keeps (.port p) seq t tTx (Keeps.refl s) cv) (linkFell_shows ..)

theorem answers_replayTimeout_ninth {s : State} {p : PortId} {t : Nat} {tTx : Int} {k : Kept} {rest : List Kept} (hu : (s.link (.port p)).up = true)
    (hr : (s.link (.port p)).replay = k :: rest) (hn : s.replaysOut (.port p) k.lseq = true) (h4 : s.portState p = 4) :
    Answers (.replayTimeout (some (.port p)) t tTx) s fun t' =>
      (t'.portState p = 5 ∨ t'.portState p = 9) ∧ (t'.link (.port p)).up = false ∧ t'.fgetN .PRT_CHG_RETRAIN p.code = 1 := by
  have e := exec_replayTimeout (t := t) (tTx := tTx) hu hr
  rw [replayOrDown_falls (s := s.at_ t) t tTx hn h4] at e
  exact answers_of_exec e (fun P cv => execReplayTimeout_keeps (some (.port p)) t tTx (Keeps.refl s) cv) (linkFell_shows ..)

end Sys2Proof.Machine
end

section
/-! What a root port does with the packet at the front of its byte stream (R77, R83, R86, Table 3.6), and from that and the replays O6. -/

namespace Sys2Proof.Machine

/-! ### What the line brought -/

/-- Of all ends only one has changed, and there not what the checks and the link's retries look at beside the byte stream. -/
structure TookLine (l : LinkEndId) (s u : State) : Prop where
  up : (u.link l).up = (s.link l).up
  rate : (u.link l).rate = (s.link l).rate
  rxSeq : (u.link l).rxSeq = (s.link l).rxSeq
  retryVal : (u.link l).retryVal = (s.link l).retryVal
  others : OnlyLink l s u

theorem TookLine.trans {l : LinkEndId} {s t u : State} (h : TookLine l s t) (k : TookLine l t u) : TookLine l s u :=
  ⟨k.up.trans h.up, k.rate.trans h.rate, k.rxSeq.trans h.rxSeq, k.retryVal.trans h.retryVal, h.others.trans k.others⟩

theorem TookLine.of_links {l : LinkEndId} {s t : State} (h : t.links = s.links) : TookLine l s t := by
  have e := link_of_links h l
  exact ⟨by rw [e], by rw [e], by rw [e], by rw [e], .of_links h⟩

theorem TookLine.onLink (l : LinkEndId) (s : State) (f : LinkEnd → LinkEnd) (hu : ∀ e, (f e).up = e.up) (hr : ∀ e, (f e).rate = e.rate)
    (hq : ∀ e, (f e).rxSeq = e.rxSeq) (hv : ∀ e, (f e).retryVal = e.retryVal) : TookLine l s (s.onLink l f) := by
  have e := s.link_onLink_same l f
  exact ⟨by rw [e, hu], by rw [e, hr], by rw [e, hq], by rw [e, hv], onLink_onlyLink s l f⟩

theorem rxOn_tookLine (s : State) (l : LinkEndId) (x : List RxSym) : TookLine l s (s.rxOn l x) :=
  .onLink l s _ (fun _ => rfl) (fun _ => rfl) (fun _ => rfl) (fun _ => rfl)

theorem rxOver_tookLine (s : State) (l : LinkEndId) (n : Nat) : TookLine l s (s.rxOver l n) :=
  .onLink l s _ (fun _ => rfl) (fun _ => rfl) (fun _ => rfl) (fun _ => rfl)

theorem countFec_tookLine (s : State) (l : LinkEndId) (c : List (Option Nat)) : TookLine l s (s.countFec l c) := by
  unfold State.countFec
  split <;> exact .of_links rfl

theorem takeLine_tookLine (s : State) (l : LinkEndId) (line : RxLine) : TookLine l s (s.takeLine l line) := by
  unfold State.takeLine
  dsimp only
  split
  · exact .of_links rfl
  · split
    · split
      · refine .trans ?_ (rxOn_tookLine _ l _)
        exact .onLink l s _ (fun _ => rfl) (fun _ => rfl) (fun _ => rfl) fun _ => rfl
      · exact .of_links rfl
    · split
      · exact .of_links rfl
      · refine .trans (.trans ?_ (countFec_tookLine _ l _)) (rxOn_tookLine _ l _)
        exact .onLink l s _ (fun _ => rfl) (fun _ => rfl) (fun _ => rfl) fun _ => rfl

theorem takeLine_within (s : State) (l : LinkEndId) (line : RxLine) : Keeps (within [.links, .reg .PRT_FEC]) s (s.takeLine l line) :=
  State.takeLine_keeps l line (Keeps.refl s) (covers_within (List.Subset.refl _))

/-! ### Counters -/

theorem fgetN_countN (s : State) (f : Fld) (i k : Nat) (h : f.ok = true) :
    (s.countN f i k).fgetN f i = satAdd (2 ^ (f.hi + 1 - f.lo) - 1) (s.fgetN f i) k := by
  have hpos : 0 < 2 ^ (f.hi + 1 - f.lo) := Nat.two_pow_pos _
  rw [State.countN, State.fgetN_fsetN_same _ _ _ _ h]
  exact Nat.mod_eq_of_lt (by unfold satAdd; omega)

section
variable {u : State} {n : Nat}

/-! ### A header that fails its checks -/

theorem takePacket_badHead (begun t : Nat) (hc : HeaderCame (.port (.root n)) u) (hb : headOk (u.front (.port (.root n))) true = false) :
    u.takePacket (.port (.root n)) begun t = (u.countN .PRT_LERR_HDR_ERR n 1).rxOver (.port (.root n)) 18 := by
  obtain ⟨hsop, hlen⟩ := hc
  unfold State.frontHead at hlen
  have hhead : headOk ⟨(((u.link (.port (.root n))).rx.drop 2).take 16).map RxSym.value, [], 0, false⟩ true = false := hb
  unfold State.takePacket
  dsimp only
  rw [if_neg (by rw [hsop, hlen]; simp), if_pos (by rw [hhead]; simp)]
  rfl

/-! ### A whole packet -/

theorem not_ne_self (c : Word) : c ≠ ~~~c := by
  bv_omega

/-- The packet as its bytes stood on the line. -/
def State.frontLine (s : State) (l : LinkEndId) : RawPkt :=
  ⟨(s.frontHead l).map RxSym.onLine, (((s.link l).rx.drop 18).take (s.front l).len).map RxSym.onLine,
    BitVec.ofNat 32 (leNat ((((s.link l).rx.drop (18 + (s.front l).len)).take 4).map RxSym.onLine)), (s.front l).errored⟩

theorem takePacket_whole {r : RawPkt} (begun t : Nat) (hc : PacketCame (.port (.root n)) r u) (hh : headOk r true = true) :
    u.takePacket (.port (.root n)) begun t =
      (u.checkPacket (.port (.root n)) r (u.frontLine (.port (.root n))) true begun t).rxOver (.port (.root n)) (22 + r.len) := by
  obtain ⟨⟨hsop, hlen⟩, hbytes, rfl, hall⟩ := hc
  unfold State.frontHead at hlen hbytes
  have hhead : headOk ⟨(((u.link (.port (.root n))).rx.drop 2).take 16).map RxSym.value, [], 0, false⟩ true = true := hh
  have htrail : (((u.link (.port (.root n))).rx.drop (18 + (u.front (.port (.root n))).len)).take 4).length = 4 := by
    rw [List.length_take, List.length_drop]
    omega
  unfold State.takePacket
  dsimp only
  rw [if_neg (by rw [hsop, hlen]; simp), if_neg (by rw [hbytes, hhead]; simp)]
  exact if_neg (bne_iff_ne.not.mpr (not_not.mpr htrail))

/-- An end after the packet that it expected. -/
def LinkEnd.tookNext (e : LinkEnd) : LinkEnd := { e with rxSeq := (e.rxSeq + 1) % 4096, retryVal := none }

section
variable {r w : RawPkt} (begun t : Nat) (hh : headerOk r true = true) (hs : pidSeq r.pid = true) (hu : (u.link (.port (.root n))).up = true)
include hh hs hu

/-- A sequenced packet with a good header at a root port whose link is up: what the trailer decides. -/
theorem checkPacket_root : u.checkPacket (.port (.root n)) r w true begun t =
    if !r.errored && r.trailer == ~~~rawCrc r then u.countPoisoned (.port (.root n))
    else if r.errored || r.trailer != rawCrc r then (u.countN .PRT_LERR_CRC_ERR n 1).sendRetry (.port (.root n)) t
    else u.checkSeq (.port (.root n)) r t := by
  have hctl : linkctlOk r = true := by
    simp only [headerOk, Bool.and_eq_true] at hh
    exact hh.2
  unfold State.checkPacket
  rw [if_neg (by simp [hctl]), if_neg (by simp [hu]), hs]
  rfl

/-- The bytes check, and the LSEQ is the expected one. -/
theorem checkPacket_good (he : r.errored = false) (hc : r.trailer = rawCrc r) (hq : r.lseq = (u.link (.port (.root n))).rxSeq) :
    u.checkPacket (.port (.root n)) r w true begun t =
      ((u.onLink (.port (.root n)) LinkEnd.tookNext).sendAck (.port (.root n))).deliver (.port (.root n)) r.pkt := by
  have hd : (r.lseq + 4096 - (u.link (.port (.root n))).rxSeq) % 4096 = 0 := by rw [← hq]; omega
  rw [checkPacket_root begun t hh hs hu, if_neg (by simp [he, hc, not_ne_self (rawCrc r)]), if_neg (by simp [he, hc]), State.checkSeq, hs]
  dsimp only
  rw [if_neg (by simp), if_pos hd]
  rfl

/-- The bytes do not check, and it is not poisoned. -/
theorem checkPacket_bad (hc : r.errored = true ∨ (r.trailer ≠ rawCrc r ∧ r.trailer ≠ ~~~rawCrc r)) :
    u.checkPacket (.port (.root n)) r w true begun t = (u.countN .PRT_LERR_CRC_ERR n 1).sendRetry (.port (.root n)) t := by
  have hbad : r.errored = true ∨ r.trailer ≠ rawCrc r := hc.imp_right And.left
  have hpoison : ¬ (r.errored = false ∧ r.trailer = ~~~rawCrc r) := by
    rintro ⟨he, ht⟩
    rcases hc with hc | ⟨-, hc⟩
    · exact absurd (he.symm.trans hc) (by decide)
    · exact hc ht
  rw [checkPacket_root begun t hh hs hu, if_neg (by simpa using hpoison), if_pos (by simpa using hbad)]

end

end

/-! ### PACKET_RECEIVE at a root port -/

section
variable {s : State} {n begun t : Nat} {line : RxLine} {r : RawPkt}

theorem exec_packetReceive (l : LinkEndId) : exec (.packetReceive l line begun t) s = .next (((s.at_ t).takeLine l line).takePacket l begun t) := rfl

theorem linkctl_ack (x : Nat) : linkctl 1 ((x + 1) % 4096 + 4095) 0 0 = linkctl 1 x 0 0 := by
  have h : ((x + 1) % 4096 + 4095) % 4096 = x % 4096 := by omega
  rw [linkctl, linkctl, h]

/-- An end that has sent a RETRY. -/
def LinkEnd.askedAgain (t : Nat) (e : LinkEnd) : LinkEnd := { e with retryVal := some e.rxSeq, retryAt := t }

/-- A RETRY of an LSEQ that has not been named leaves at once. -/
theorem sendRetry_of_free {l : LinkEndId} (t : Nat) (hn : (s.link l).retryVal = none) (f : FreeToSend l 16 s) : s.sendRetry l t =
    (s.emit (.send l (s.link l).rate (linkctl 2 (s.link l).rxSeq 0 0))).onLink l (LinkEnd.askedAgain t) := by
  rw [State.sendRetry, if_neg (by simp [hn]), sendCtl_of_free _ _ _ _ f]
  rfl

theorem headOk_of {b : Bool} (h : headerOk r b = true) : headOk r b = true := by
  simp only [headerOk, Bool.and_eq_true] at h
  exact h.1.1

/-- A sequenced packet is no LINKCTL. -/
theorem pid_ne_linkctl (h : pidSeq r.pid = true) : r.pkt.pid ≠ 14 := by
  have h := of_decide_eq_true h
  have e : r.pkt.pid = r.pid := rfl
  omega

theorem answers_packetReceive_good (hc : PacketCame (.port (.root n)) r ((s.at_ t).takeLine (.port (.root n)) line)) (hh : headerOk r true = true)
    (hs : pidSeq r.pid = true) (hu : (s.link (.port (.root n))).up = true) (he : r.errored = false) (ht : r.trailer = rawCrc r)
    (hq : r.lseq = (s.link (.port (.root n))).rxSeq) (f : FreeToSend (.port (.root n)) 16 ((s.at_ t).takeLine (.port (.root n)) line)) :
    Answers (.packetReceive (.port (.root n)) line begun t) s fun t' =>
      (t'.link (.port (.root n))).rxSeq = (r.lseq + 1) % 4096 ∧ OnlyLink (.port (.root n)) s t' ∧
      t'.out = s.out ++ [.send (.port (.root n)) (s.link (.port (.root n))).rate (linkctl 1 r.lseq 0 0), .deliver (.port (.root n)) r.pkt] := by
  have hout : ((s.at_ t).takeLine (.port (.root n)) line).out = s.out := (takeLine_within (s.at_ t) _ line).part .out rfl
  have hline : TookLine (.port (.root n)) s ((s.at_ t).takeLine (.port (.root n)) line) :=
    .trans (t := s.at_ t) (.of_links rfl) (takeLine_tookLine (s.at_ t) _ line)
  have e := exec_packetReceive (s := s) (begun := begun) (t := t) (line := line) (.port (.root n))
  generalize (s.at_ t).takeLine (.port (.root n)) line = u at *
  have hnext : (u.onLink (.port (.root n)) LinkEnd.tookNext).link (.port (.root n)) = (u.link (.port (.root n))).tookNext := u.link_onLink_same _ _
  have hseq : ((u.link (.port (.root n))).tookNext).rxSeq = (r.lseq + 1) % 4096 := by rw [LinkEnd.tookNext, hline.rxSeq, hq]
  have hrate : ((u.link (.port (.root n))).tookNext).rate = (s.link (.port (.root n))).rate := hline.rate
  rw [takePacket_whole begun t hc (headOk_of hh), checkPacket_good begun t hh hs (hline.up.trans hu) he ht (hq.trans hline.rxSeq.symm),
    State.sendAck, sendCtl_of_free _ _ _ _ (f.onLink (g := LinkEnd.tookNext) rfl rfl), hnext, hrate, hseq, linkctl_ack, State.deliver,
    if_neg (pid_ne_linkctl hs)] at e
  have hover := rxOver_tookLine (((u.onLink (.port (.root n)) LinkEnd.tookNext).emit
    (.send (.port (.root n)) (s.link (.port (.root n))).rate (linkctl 1 r.lseq 0 0))).emit (.deliver (.port (.root n)) r.pkt))
    (.port (.root n)) (22 + r.len)
  refine answers_of_exec e (fun P cv => execPacketReceive_keeps _ line begun t (Keeps.refl s) cv) ⟨?_, ?_, ?_⟩
  · exact hover.rxSeq.trans ((congrArg LinkEnd.rxSeq hnext).trans hseq)
  · exact (hline.others.trans (onLink_onlyLink u _ LinkEnd.tookNext)).trans hover.others
  · rw [← hout]
    exact List.append_assoc ..

theorem answers_packetReceive_bad (hc : PacketCame (.port (.root n)) r ((s.at_ t).takeLine (.port (.root n)) line)) (hh : headerOk r true = true)
    (hs : pidSeq r.pid = true) (hu : (s.link (.port (.root n))).up = true)
    (ht : r.errored = true ∨ (r.trailer ≠ rawCrc r ∧ r.trailer ≠ ~~~rawCrc r)) (hn : (s.link (.port (.root n))).retryVal = none)
    (f : FreeToSend (.port (.root n)) 16 ((s.at_ t).takeLine (.port (.root n)) line)) :
    Answers (.packetReceive (.port (.root n)) line begun t) s fun t' =>
      (t'.link (.port (.root n))).rxSeq = (s.link (.port (.root n))).rxSeq ∧ OnlyLink (.port (.root n)) s t' ∧
      t'.out = s.out ++ [.send (.port (.root n)) (s.link (.port (.root n))).rate (linkctl 2 (s.link (.port (.root n))).rxSeq 0 0)] ∧
      t'.fgetN .PRT_LERR_CRC_ERR n = satAdd 65535 (s.fgetN .PRT_LERR_CRC_ERR n) 1 := by
  have hkeeps := takeLine_within (s.at_ t) (.port (.root n)) line
  have hout : ((s.at_ t).takeLine (.port (.root n)) line).out = s.out := hkeeps.part .out rfl
  have hcnt : _ = s.fgetN .PRT_LERR_CRC_ERR n := hkeeps.fgetN rfl n
  have hline : TookLine (.port (.root n)) s ((s.at_ t).takeLine (.port (.root n)) line) :=
    .trans (t := s.at_ t) (.of_links rfl) (takeLine_tookLine (s.at_ t) _ line)
  have e := exec_packetReceive (s := s) (begun := begun) (t := t) (line := line) (.port (.root n))
  generalize (s.at_ t).takeLine (.port (.root n)) line = u at *
  have hcounted : TookLine (.port (.root n)) s (u.countN .PRT_LERR_CRC_ERR n 1) := hline.trans (.of_links rfl)
  have hfree := (SameLine.countN (.port (.root n)) u .PRT_LERR_CRC_ERR n 1 (by decide)).freeToSend rfl f
  rw [takePacket_whole begun t hc (headOk_of hh), checkPacket_bad begun t hh hs (hline.up.trans hu) ht,
    sendRetry_of_free t (hcounted.retryVal.trans hn) hfree, hcounted.rate, hcounted.rxSeq] at e
  refine answers_of_exec e (fun P cv => execPacketReceive_keeps _ line begun t (Keeps.refl s) cv) ⟨?_, ?_, ?_, ?_⟩
  · exact (rxOver_tookLine _ _ _).rxSeq.trans ((congrArg LinkEnd.rxSeq (State.link_onLink_same _ (.port (.root n)) _)).trans hcounted.rxSeq)
  · exact hcounted.others.trans (.trans (onLink_onlyLink (State.emit (u.countN _ _ _) _) _ _) (rxOver_tookLine _ _ _).others)
  · rw [← hout]
    rfl
  · exact (fgetN_countN u .PRT_LERR_CRC_ERR n 1 rfl).trans (congrArg (satAdd 65535 · 1) hcnt)

theorem answers_packetReceive_badHead (hc : HeaderCame (.port (.root n)) ((s.at_ t).takeLine (.port (.root n)) line))
    (hb : headOk (((s.at_ t).takeLine (.port (.root n)) line).front (.port (.root n))) true = false) :
    Answers (.packetReceive (.port (.root n)) line begun t) s fun t' =>
      t'.link (.port (.root n)) = { ((s.at_ t).takeLine (.port (.root n)) line).link (.port (.root n)) with
        rx := huntSop (((s.at_ t).takeLine (.port (.root n)) line).link (.port (.root n))).rate
          ((((s.at_ t).takeLine (.port (.root n)) line).link (.port (.root n))).rx.drop 18) } ∧ OnlyLink (.port (.root n)) s t' ∧
      t'.out = s.out ∧ t'.devs = s.devs ∧ t'.fgetN .PRT_LERR_HDR_ERR n = satAdd 65535 (s.fgetN .PRT_LERR_HDR_ERR n) 1 := by
  have hkeeps := takeLine_within (s.at_ t) (.port (.root n)) line
  have hline : TookLine (.port (.root n)) s ((s.at_ t).takeLine (.port (.root n)) line) :=
    .trans (t := s.at_ t) (.of_links rfl) (takeLine_tookLine (s.at_ t) _ line)
  have hcnt := hkeeps.fgetN (g := .PRT_LERR_HDR_ERR) rfl n
  have e := exec_packetReceive (s := s) (begun := begun) (t := t) (line := line) (.port (.root n))
  rw [takePacket_badHead begun t hc hb] at e
  exact answers_of_exec e (fun P cv => execPacketReceive_keeps _ line begun t (Keeps.refl s) cv)
    ⟨State.link_onLink_same .., hline.others.trans (onLink_onlyLink (State.countN _ _ _ _) _ _),
    hkeeps.part .out rfl, hkeeps.part .devs rfl, (fgetN_countN _ .PRT_LERR_HDR_ERR n 1 rfl).trans (congrArg (satAdd 65535 · 1) hcnt)⟩

end

/-- Settles O6: at a root port the checks of Table 3.6 decide what a packet at the front of the stream does, and a replay puts what is kept on the
line in order wherever nothing holds it up. -/
theorem packetsAreCheckedAndReplayed : Obligations.PacketsAreCheckedAndReplayed := by
  refine ⟨?_, ?_, ?_, fun s l seq hu h => answers_ackReceive hu h, fun s l seq t tTx hu hn hk hf ha ht => answers_retryReceive hu hn hk hf ha ht,
    fun s l t tTx k rest hu hr hn hf ha ht => answers_replayTimeout hu hr hn hf ha ht,
    fun s p seq t tTx hu hn h4 => answers_retryReceive_ninth hu hn h4, fun s p t tTx k rest hu hr hn h4 => answers_replayTimeout_ninth hu hr hn h4⟩
  · rintro s _ n r line begun t rfl hc hh hs hu he ht hq f
    exact answers_packetReceive_good hc hh hs hu he ht hq f
  · rintro s _ n r line begun t rfl hc hh hs hu ht hn f
    exact answers_packetReceive_bad hc hh hs hu ht hn f
  · rintro s _ n line begun t rfl hc hb
    exact answers_packetReceive_badHead hc hb

end Sys2Proof.Machine
end

section
/-! Devices that answer (R87, R90, R97): an answer leaves at once where the upstream link is clear, and what it leaves of the device. -/

namespace Sys2Proof.Machine

/-! ### A packet that leaves at once on a device's upstream link (R84, R87, R90) -/

theorem pushPkt_out {s : State} {d up : Nat} (p : Pkt) :
    (s.pushPkt (.dev d up) p).out = s.out ++ [.send (.dev d up) (s.link (.dev d up)).rate (.txn (s.link (.dev d up)).txSeq p)] := by
  simp [State.pushPkt, State.push, State.departed, State.putOn, State.txForced, State.absentEnd]

theorem pushPkt_txSeq {s : State} {d up : Nat} (p : Pkt) :
    ((s.pushPkt (.dev d up) p).link (.dev d up)).txSeq = ((s.link (.dev d up)).txSeq + 1) % 4096 := by
  simp [State.pushPkt, State.push, State.departed]

/-- An end with nothing kept and nothing waiting, on which a packet that is no CALL_OUT may go, sends it at once. -/
theorem sendPkt_at_once {s : State} {d up : Nat} {p : Pkt} (hup : (s.link (.dev d up)).up = true) (hq : (s.link (.dev d up)).queue = [])
    (hr : (s.link (.dev d up)).replay = []) (f : FreeToSend (.dev d up) p.payload.length s) (hlen : p.payload.length ≤ 4096) (hp : p.pid ≠ 2) :
    s.sendPkt (.dev d up) p = (s.onLink (.dev d up) fun e => { e with queue := e.queue ++ [p] }).pushPkt (.dev d up) p := by
  obtain ⟨-, -, -, htick⟩ := f.onLink (g := fun e => { e with queue := e.queue ++ [p] }) rfl rfl
  obtain ⟨hheld, -⟩ := f
  have hroom : p.payload.length ≤ 8172 := by omega
  simp [State.sendPkt, State.sendPkts, State.drain, State.drainFrom, State.drainQueue, State.unitOf, hq, hup, hr, hp, htick, hheld, hroom,
    LinkEnd.fits, LinkEnd.used, replayRoom, frameReserve]

/-- The upstream link is as clear where its device keeps its kind, the token and its hold of the time. -/
theorem ClearUp.onDev {s : State} {d up : Nat} (c : ClearUp d up s) {g : Device → Device} (hk : (g (s.dev d)).kind = (s.dev d).kind)
    (ht : (g (s.dev d)).token = (s.dev d).token) (hs : (g (s.dev d)).synced = (s.dev d).synced) : ClearUp d up (s.onDev d g) := by
  obtain ⟨hup, hl, hq, hr, f⟩ := c
  refine ⟨?_, hl, hq, hr, f.onDev d hs⟩
  rw [← hup]
  simp only [State.upOf, State.dev_onDev_same, hk, ht]

theorem ClearUp.onEp {s : State} {d up : Nat} (c : ClearUp d up s) (ep dir : Nat) (f : DevEp → DevEp) : ClearUp d up (s.onEp d ep dir f) :=
  c.onDev rfl rfl rfl

theorem ClearUp.emit {s : State} {d up : Nat} (c : ClearUp d up s) (o : Output) : ClearUp d up (s.emit o) := by
  obtain ⟨hup, hl, hq, hr, hheld, htx, habs, htick⟩ := c
  exact ⟨hup, hl, hq, hr, hheld, htx, habs, htick⟩

/-- An answer is the call's fields with the device's route. -/
theorem answerUp_eq {s : State} {d up : Nat} (c : ClearUp d up s) (call : Pkt) (pid fl : Nat) (b : List Byte) :
    s.answerUp d call pid fl b = s.sendPkt (.dev d up) (s.answerPkt d call pid fl b) := by
  obtain ⟨hup, -⟩ := c
  simp only [State.answerUp, State.sendUp, hup, State.answerPkt]

/-- A device answers no more than it is asked: the devices stay as they are. -/
theorem answerUp_devs (s : State) (d : Nat) (call : Pkt) (pid fl : Nat) (b : List Byte) : (s.answerUp d call pid fl b).devs = s.devs :=
  (State.answerUp_keeps d call pid fl b (Keeps.refl s) (covers_within (l := [.out, .links, .txns]) (by decide))).part .devs rfl

theorem dev_answerUp (s : State) (d e : Nat) (call : Pkt) (pid fl : Nat) (b : List Byte) : (s.answerUp d call pid fl b).dev e = s.dev e :=
  dev_of_devs (answerUp_devs s d call pid fl b) e

/-- An answer from a state `u` whose links are those of `s`, with `o` behind the outputs of `s`. -/
theorem answerUp_sentUp {s u : State} {d up : Nat} {o : List Output} (c : ClearUp d up u) (hl : u.links = s.links) (ho : u.out = s.out ++ o)
    (hr : (u.dev d).route = (s.dev d).route) (call : Pkt) {pid : Nat} (fl : Nat) {b : List Byte} (hp : pid ≠ 2) (hb : b.length ≤ 4096) :
    SentUp d up o (s.answerPkt d call pid fl b) s (u.answerUp d call pid fl b) := by
  have hlink := link_of_links hl
  have hpkt : u.answerPkt d call pid fl b = s.answerPkt d call pid fl b := by simp only [State.answerPkt, hr]
  rw [answerUp_eq c, hpkt]
  refine ⟨?_, ?_, (OnlyLink.of_links hl).trans (sendPkt_sends u _ _).others⟩
  all_goals
    obtain ⟨-, hup, hq, hrep, hheld, htx, habs, htick⟩ := c
    have f : FreeToSend (.dev d up) (s.answerPkt d call pid fl b).payload.length u :=
      ⟨hheld, htx, habs, tickHold_mono (by simpa [State.answerPkt] using hb) htick⟩
    rw [sendPkt_at_once hup hq hrep f hb hp]
  · rw [pushPkt_out, State.link_onLink_same, State.onLink_out, ho, hlink]
  · rw [pushPkt_txSeq, State.link_onLink_same, hlink]

/-- An answer of a device that nothing else happens to. -/
theorem answerUp_sent {s : State} {d up : Nat} (c : ClearUp d up s) (call : Pkt) {pid : Nat} (fl : Nat) {b : List Byte} (hp : pid ≠ 2)
    (hb : b.length ≤ 4096) :
    SentUp d up [] (s.answerPkt d call pid fl b) s (s.answerUp d call pid fl b) ∧ (s.answerUp d call pid fl b).devs = s.devs :=
  ⟨answerUp_sentUp (s := s) c rfl (List.append_nil _).symm rfl call fl hp hb, answerUp_devs ..⟩

/-! ### Endpoints of a device (R96, R133, R139) -/

theorem ep?_onEp_same {s : State} {d ep dir : Nat} {e : DevEp} (f : DevEp → DevEp) (h : (s.dev d).ep? ep dir = some e) :
    ((s.onEp d ep dir f).dev d).ep? ep dir = some (f e) := by
  unfold State.onEp
  rw [State.dev_onDev_same, h]
  by_cases h0 : ep = 0 <;> simp [Device.ep?, h0, epKey]

theorem onEp_onlyDev (s : State) (d ep dir : Nat) (f : DevEp → DevEp) : OnlyDev d s (s.onEp d ep dir f) := onDev_onlyDev s d _

/-- An answer behind a change of one endpoint of the device. -/
theorem onEp_answerUp_sent {s : State} {d up ep dir : Nat} {e : DevEp} (c : ClearUp d up s) (f : DevEp → DevEp)
    (he : (s.dev d).ep? ep dir = some e) (call : Pkt) {pid : Nat} (fl : Nat) {b : List Byte} (hp : pid ≠ 2) (hb : b.length ≤ 4096) :
    SentUp d up [] (s.answerPkt d call pid fl b) s ((s.onEp d ep dir f).answerUp d call pid fl b) ∧
      OnlyDev d s ((s.onEp d ep dir f).answerUp d call pid fl b) ∧
      (((s.onEp d ep dir f).answerUp d call pid fl b).dev d).ep? ep dir = some (f e) := by
  have hroute : ((s.onEp d ep dir f).dev d).route = (s.dev d).route := by rw [State.onEp, State.dev_onDev_same]
  exact ⟨answerUp_sentUp (s := s) (c.onEp ep dir f) rfl (List.append_nil _).symm hroute call fl hp hb,
    (onEp_onlyDev s d ep dir f).trans (.of_devs (answerUp_devs ..)), by rw [dev_answerUp, ep?_onEp_same f he]⟩

/-- A call that the device may serve is addressed to it, and its endpoint gives no STALL before its class is considered. -/
theorem Serves.epStall {s : State} {d : Nat} {p : Pkt} {e : DevEp} (h : Serves d p e s) : s.addressed d p = true ∧ s.epStall d p = none := by
  obtain ⟨haddr, -, hst, hep, hcls, hhalt⟩ := h
  exact ⟨by simp [State.addressed, haddr], by simp [State.epStall, hst, hep, hcls, hhalt]⟩

/-! ### CALL_IN (Table 4.4, R126, R132, R262) -/

section
variable {s : State} {d : Nat} {p : Pkt} {e : DevEp} (h : Serves d p e s)
include h

theorem exec_callIn_cyclic (hc : e.cls = 2) : exec (.callInReceive d p) s = .next (s.cyclicIn d p e) := by
  obtain ⟨ha, hs⟩ := h.epStall
  obtain ⟨-, h0, -, hep, -⟩ := h
  change execCallInReceive d p s = _
  simp [execCallInReceive, ha, hs, h0, hep, hc]

theorem exec_callIn_event (hc : e.cls = 3) : exec (.callInReceive d p) s = .next (s.eventIn d p e) := by
  obtain ⟨ha, hs⟩ := h.epStall
  obtain ⟨-, h0, -, hep, -⟩ := h
  change execCallInReceive d p s = _
  simp [execCallInReceive, ha, hs, h0, hep, hc]

theorem exec_callIn_bulk (hc : e.cls = 4) {b : List Byte} {rest : List (List Byte)} (hd : e.dataIn = b :: rest) :
    exec (.callInReceive d p) s = .next (s.answerUp d p (6 + e.toggle % 2) 0 b) := by
  obtain ⟨ha, hs⟩ := h.epStall
  obtain ⟨-, h0, -, hep, -⟩ := h
  change execCallInReceive d p s = _
  simp [execCallInReceive, ha, hs, h0, hep, hc, hd, State.dataPid]

theorem exec_callIn_bulk_empty (hc : e.cls = 4) (hd : e.dataIn = []) : exec (.callInReceive d p) s = .next (s.answerUp d p 9 0 []) := by
  obtain ⟨ha, hs⟩ := h.epStall
  obtain ⟨-, h0, -, hep, -⟩ := h
  change execCallInReceive d p s = _
  simp [execCallInReceive, ha, hs, h0, hep, hc, hd]

end

/-- The oldest event of a module that is synchronised, with MORE where others wait. -/
theorem eventIn_oldest {s : State} {d : Nat} (p : Pkt) {e : DevEp} {x : ModEvent} {rest : List ModEvent} (hk : (s.dev d).kind = 1)
    (hs : (s.dev d).synced = true) (he : e.events = x :: rest) :
    s.eventIn d p e = s.answerUp d p (6 + e.toggle % 2) (if rest = [] then 1 else 9) (leBytes 8 x.stamp ++ x.bytes) := by
  have hf : 1 + 8 * bit (!rest.isEmpty) = if rest = [] then 1 else 9 := by cases rest <;> rfl
  simp [State.eventIn, hs, hk, he, hf, State.dataPid]

/-- A frame's first CALL_IN gets the oldest block kept. -/
theorem cyclicIn_first {s : State} {d : Nat} (p : Pkt) {e : DevEp} {x : ModBlock} {rest : List ModBlock} {f : Nat} (hs : (s.dev d).synced = true)
    (hf : (s.dev d).lastFrame = some f) (hn : e.sentFrame ≠ some f) (hb : e.blocks = x :: rest) :
    s.cyclicIn d p e = (s.onEp d p.epnum p.dir fun e => { e with sentFrame := some f, calls := 1, blocks := rest, sent := [(p.tag, x)] }).answerUp d p 6 1
      (leBytes 8 x.stamp ++ leBytes 2 x.bseq ++ x.bytes) := by
  simp [State.cyclicIn, hs, hf, hn, hb]

/-- One beyond the frame's BURST + 1 gets the block that was not acknowledged. -/
theorem cyclicIn_repeated {s : State} {d : Nat} (p : Pkt) {e : DevEp} {x : ModBlock} {g : Nat} {rest : List (Nat × ModBlock)} {f : Nat}
    (hs : (s.dev d).synced = true) (hf : (s.dev d).lastFrame = some f) (hsent : e.sentFrame = some f) (hc : e.burst + 1 ≤ e.calls)
    (hg : e.sent = (g, x) :: rest) :
    s.cyclicIn d p e = (s.onEp d p.epnum p.dir fun o => { o with
      sentFrame := some f, calls := e.calls + 1, blocks := e.blocks, sent := rest ++ [(p.tag, x)] }).answerUp d p 6 1
        (leBytes 8 x.stamp ++ leBytes 2 x.bseq ++ x.bytes) := by
  have hlt : ¬ e.calls + 1 ≤ e.burst + 1 := by omega
  simp [State.cyclicIn, hs, hf, hsent, hg, hlt]

/-- The bytes of a block behind its stamp and BSEQ fit a packet. -/
theorem length_blockBytes {x : ModBlock} (h : x.bytes.length ≤ 4086) : (leBytes 8 x.stamp ++ leBytes 2 x.bseq ++ x.bytes).length ≤ 4096 := by
  simp only [List.length_append, length_leBytes]
  omega

theorem exec_callIn_halted {s : State} {d : Nat} {p : Pkt} {e : DevEp} (ha : p.devaddr = (s.dev d).addr) (h0 : p.epnum ≠ 0) (hst : (s.dev d).st = 2)
    (hep : (s.dev d).ep? p.epnum p.dir = some e) (hc : e.cls = p.pflags % 8) (hh : e.halted = true) :
    exec (.callInReceive d p) s = .next (s.answerUp d p 11 0 []) := by
  change execCallInReceive d p s = _
  simp [execCallInReceive, State.addressed, State.epStall, State.stallUp, ha, h0, hst, hep, hc, hh]

/-- A DATA packet is no CALL_OUT. -/
theorem dataPid_ne (n : Nat) : 6 + n % 2 ≠ 2 := by omega

/-- Settles O12, a clause for each class of endpoint and what it holds: the answer leaves at once, and only a CYCLIC endpoint takes note of it. -/
theorem callInsAreAnswered : Obligations.CallInsAreAnswered := by
  unfold Obligations.CallInsAreAnswered
  refine ⟨?_, ?_, ?_, ?_, ?_, ?_⟩
  · intro s d up p e b rest h c hc hd hb
    exact answers_of_exec (exec_callIn_bulk h hc hd) (fun _ cv => execCallInReceive_keeps d p (Keeps.refl s) cv)
      (answerUp_sent c p 0 (dataPid_ne _) hb)
  · intro s d up p e h c hc hd
    exact answers_of_exec (exec_callIn_bulk_empty h hc hd) (fun _ cv => execCallInReceive_keeps d p (Keeps.refl s) cv)
      (answerUp_sent c p 0 (by decide) (Nat.zero_le _))
  · intro s d up p e x rest h c hc hk hs he hb
    have hlen : (leBytes 8 x.stamp ++ x.bytes).length ≤ 4096 := by
      simp only [List.length_append, length_leBytes]
      omega
    exact answers_of_exec ((exec_callIn_event h hc).trans (congrArg _ (eventIn_oldest p hk hs he)))
      (fun _ cv => execCallInReceive_keeps d p (Keeps.refl s) cv) (answerUp_sent c p _ (dataPid_ne _) hlen)
  · intro s d up p e x rest f h c hc hs hf hn hb hlen
    obtain ⟨-, -, -, hep, -⟩ := id h
    exact answers_of_exec ((exec_callIn_cyclic h hc).trans (congrArg _ (cyclicIn_first p hs hf hn hb)))
      (fun _ cv => execCallInReceive_keeps d p (Keeps.refl s) cv) (onEp_answerUp_sent c _ hep p (pid := 6) 1 (by decide) (length_blockBytes hlen))
  · intro s d up p e x g rest f h c hc hs hf hsent hcalls hg hlen
    obtain ⟨-, -, -, hep, -⟩ := id h
    obtain ⟨hsend, honly, he⟩ := onEp_answerUp_sent c (fun o => { o with
      sentFrame := some f, calls := e.calls + 1, blocks := e.blocks, sent := rest ++ [(p.tag, x)] }) hep p (pid := 6) 1 (by decide)
      (length_blockBytes hlen)
    refine answers_of_exec ((exec_callIn_cyclic h hc).trans (congrArg _ (cyclicIn_repeated p hs hf hsent hcalls hg)))
      (fun _ cv => execCallInReceive_keeps d p (Keeps.refl s) cv) ⟨hsend, honly, ?_⟩
    rw [he, ← hsent]
  · intro s d up p e ha h0 hst hep hc hh c
    exact answers_of_exec (exec_callIn_halted ha h0 hst hep hc hh) (fun _ cv => execCallInReceive_keeps d p (Keeps.refl s) cv)
      (answerUp_sent c p 0 (by decide) (Nat.zero_le _))

end Sys2Proof.Machine
end

section
/-! SETUP and the standard requests (Table 4.8, Table 4.9, R137–R139): what carrying one out leaves of the device. -/

namespace Sys2Proof.Machine

/-! ### SETUP (R137, R138) -/

/-- The device with the control transfer that a SETUP starts (Table 4.7). -/
def State.setupTaken (s : State) (d : Nat) (b : List Byte) : State :=
  (s.onDev d fun v => { v with pendingAddr := none, ctl := some ⟨b, if setupLen b = 0 then 1 else 0, 0, 0, [], false, none⟩ }).onEp d 0 0 fun e =>
    { e with toggle := 1 }

theorem ClearUp.setupTaken {s : State} {d up : Nat} (c : ClearUp d up s) (b : List Byte) : ClearUp d up (s.setupTaken d b) :=
  (c.onDev (by rfl) (by rfl) (by rfl)).onEp 0 0 _

theorem setupTaken_onlyDev (s : State) (d : Nat) (b : List Byte) : OnlyDev d s (s.setupTaken d b) :=
  (onDev_onlyDev s d _).trans (onEp_onlyDev _ d 0 0 _)

theorem exec_setupReceive_supported {s : State} {d : Nat} {p : Pkt} (ha : p.devaddr = (s.dev d).addr) (h0 : p.epnum = 0) (hc : p.pflags % 8 = 0)
    (hs : (s.dev d).supports p.payload = true) : exec (.setupReceive d p) s = .next ((s.setupTaken d p.payload).answerUp d p 8 0 []) := by
  change execSetupReceive d p s = _
  simp [execSetupReceive, State.setupTaken, State.addressed, ha, h0, hc, hs]

theorem exec_setupReceive_unsupported {s : State} {d : Nat} {p : Pkt} (ha : p.devaddr = (s.dev d).addr) (h0 : p.epnum = 0) (hc : p.pflags % 8 = 0)
    (hs : (s.dev d).supports p.payload = false) :
    exec (.setupReceive d p) s = .next ((s.onDev d fun v => { v with ctl := none }).answerUp d p 11 2 []) := by
  change execSetupReceive d p s = _
  simp [execSetupReceive, State.addressed, State.stallUp, ha, h0, hc, hs]

theorem answers_setupReceive_supported {s : State} {d up : Nat} {p : Pkt} (ha : p.devaddr = (s.dev d).addr) (h0 : p.epnum = 0)
    (hc : p.pflags % 8 = 0) (hs : (s.dev d).supports p.payload = true) (c : ClearUp d up s) : Answers (.setupReceive d p) s fun t =>
      SentUp d up [] (s.answerPkt d p 8 0 []) s t ∧ OnlyDev d s t ∧ (t.dev d).pendingAddr = none ∧
      (t.dev d).ctl = some ⟨p.payload, if setupLen p.payload = 0 then 1 else 0, 0, 0, [], false, none⟩ ∧
        (Tbl.get DevEp.init (t.dev d).eps 0).toggle = 1 := by
  have hroute : ((s.setupTaken d p.payload).dev d).route = (s.dev d).route := by simp [State.setupTaken, State.onEp]
  refine answers_of_exec (exec_setupReceive_supported ha h0 hc hs) (fun _ cv => execSetupReceive_keeps d p (Keeps.refl s) cv)
    ⟨answerUp_sentUp (s := s) (c.setupTaken p.payload) rfl (List.append_nil _).symm hroute p 0 (by decide) (Nat.zero_le _),
      (setupTaken_onlyDev s d _).trans (.of_devs (answerUp_devs ..)), ?_⟩
  simp [dev_answerUp, State.setupTaken, State.onEp, epKey]

theorem answers_setupReceive_unsupported {s : State} {d up : Nat} {p : Pkt} (ha : p.devaddr = (s.dev d).addr) (h0 : p.epnum = 0)
    (hc : p.pflags % 8 = 0) (hs : (s.dev d).supports p.payload = false) (c : ClearUp d up s) : Answers (.setupReceive d p) s fun t =>
      SentUp d up [] (s.answerPkt d p 11 2 []) s t ∧ t.dev d = { s.dev d with ctl := none } ∧ OnlyDev d s t := by
  refine answers_of_exec (exec_setupReceive_unsupported ha h0 hc hs) (fun _ cv => execSetupReceive_keeps d p (Keeps.refl s) cv)
    ⟨answerUp_sentUp (s := s) (c.onDev (by rfl) (by rfl) (by rfl)) rfl (List.append_nil _).symm ?_ p (pid := 11) 2 (by decide) (Nat.zero_le _), ?_, ?_⟩
  · rw [State.dev_onDev_same]
  · rw [dev_answerUp, State.dev_onDev_same]
  · exact (onDev_onlyDev s d _).trans (.of_devs (answerUp_devs ..))

/-! ### A request is carried out (R137) -/

/-- Behind a change of the device that leaves the control transfer alone, the request is carried out there. -/
theorem dev_carried {s : State} {d : Nat} {c : DevCtl} (b : List Byte) (h : (s.dev d).ctl = some c) :
    (s.carried d b).dev d = { s.dev d with ctl := some { c with ready := true, data := c.data ++ b } } := by
  simp [State.carried, State.onCtl, h]

theorem dev_carried_nil {s : State} {d : Nat} {c : DevCtl} (h : (s.dev d).ctl = some c) :
    (s.carried d []).dev d = { s.dev d with ctl := some { c with ready := true } } := by
  rw [dev_carried [] h, List.append_nil]

theorem carried_onlyDev (s : State) (d : Nat) (b : List Byte) : OnlyDev d s (s.carried d b) := onDev_onlyDev s d _

theorem onDev_carried_onlyDev (s : State) (d : Nat) (f : Device → Device) : OnlyDev d s ((s.onDev d f).carried d []) :=
  (onDev_onlyDev s d f).trans (carried_onlyDev _ d [])

/-- A change of the device, and a request without IN data carried out. -/
theorem dev_onDev_carried {s : State} {d : Nat} {c : DevCtl} {f : Device → Device} (h : (s.dev d).ctl = some c)
    (hf : (f (s.dev d)).ctl = (s.dev d).ctl) : ((s.onDev d f).carried d []).dev d = { f (s.dev d) with ctl := some { c with ready := true } } := by
  have hc : ((s.onDev d f).dev d).ctl = some c := by rw [State.dev_onDev_same, hf, h]
  rw [dev_carried_nil hc, State.dev_onDev_same]

/-- The endpoint that a request names, changed, and the request carried out. -/
theorem onEp_carried {s : State} {d ep dir : Nat} {c : DevCtl} {e : DevEp} (f : DevEp → DevEp) (h : (s.dev d).ctl = some c)
    (he : (s.dev d).ep? ep dir = some e) :
    (((s.onEp d ep dir f).carried d []).dev d).ep? ep dir = some (f e) ∧
      (((s.onEp d ep dir f).carried d []).dev d).ctl = some { c with ready := true } ∧ OnlyDev d s ((s.onEp d ep dir f).carried d []) := by
  have hep := ep?_onEp_same f he
  unfold State.onEp at hep ⊢
  rw [State.dev_onDev_same] at hep
  rw [dev_onDev_carried h rfl]
  exact ⟨hep, rfl, onDev_carried_onlyDev s d _⟩

/-! ### The requests (Table 4.9) -/

section
variable {s : State} {d : Nat} {c : DevCtl}

theorem exec_getStatus (h : s.request d 0x00 = some c) :
    exec (.getStatus d) s = .next (s.carried d (leBytes 4 (if setupIndex c.setup = 0 then (s.dev d).st
      else bit (((s.dev d).ep? (setupIndex c.setup % 64) (setupIndex c.setup / 128 % 2)).any DevEp.halted)))) := by
  change execGetStatus d s = _
  simp [execGetStatus, h]

theorem exec_clearHalt (h : s.request d 0x01 = some c) (h0 : setupIndex c.setup % 64 ≠ 0) :
    exec (.clearHalt d) s = .next ((s.onEp d (setupIndex c.setup % 64) (setupIndex c.setup / 128 % 2) fun e =>
      { e.resync with halted := false }).carried d []) := by
  change execClearHalt d s = _
  simp [execClearHalt, h, h0]

theorem exec_resetEndpoint (h : s.request d 0x02 = some c) (h0 : setupIndex c.setup % 64 ≠ 0) :
    exec (.resetEndpoint d) s = .next ((s.onEp d (setupIndex c.setup % 64) (setupIndex c.setup / 128 % 2) fun e =>
      { e.resync with halted := false, dataIn := [], dataOut := [], events := [], blocks := [], sent := [] }).carried d []) := by
  change execResetEndpoint d s = _
  simp [execResetEndpoint, h, h0]

theorem exec_setAddress (h : s.request d 0x05 = some c) :
    exec (.setAddress d) s = .next ((s.onDev d fun v => { v with pendingAddr := some (setupValue c.setup) }).carried d []) := by
  change execSetAddress d s = _
  simp [execSetAddress, h]

theorem exec_getRecord (h : s.request d 0x06 = some c) :
    exec (.getRecord d) s = .next (s.carried d ((s.dev d).record (setupValue c.setup))) := by
  change execGetRecord d s = _
  simp [execGetRecord, h]

theorem exec_getConfiguration (h : s.request d 0x08 = some c) :
    exec (.getConfiguration d) s = .next (s.carried d (leBytes 4 (bit ((s.dev d).st == 2)))) := by
  change execGetConfiguration d s = _
  simp [execGetConfiguration, h]

/-- A device as SET_CONFIGURATION of a value leaves it. -/
def Device.configured (v : Device) (value : Nat) : Device :=
  { v with
    st := if value = 1 then 2 else if v.addr = 0 then 0 else 1
    eps := Tbl.mapv v.eps fun k e => if k = 0 then e else e.resync }

theorem exec_setConfiguration (h : s.request d 0x09 = some c) :
    exec (.setConfiguration d) s = .next ((s.onDev d fun v => v.configured (setupValue c.setup)).carried d []) := by
  change execSetConfiguration d s = _
  simp [execSetConfiguration, h, Device.configured]

theorem exec_setRemoteWake (h : s.request d 0x0A = some c) :
    exec (.setRemoteWake d) s = .next ((s.onDev d fun v => { v with remoteWake := setupValue c.setup == 1 }).carried d []) := by
  change execSetRemoteWake d s = _
  simp [execSetRemoteWake, h]

theorem exec_setLinkAsym {up : Nat} (h : s.request d 0x0B = some c) (hup : s.upOf d = some up) :
    exec (.setLinkAsym d) s = .next ((s.onDelay d up fun m => { m with asym := signedOf 32 (leNat (c.data.take 4)) }).carried d []) := by
  change execSetLinkAsym d s = _
  simp [execSetLinkAsym, h, hup]

end

theorem find_mapv {α : Type} (t : Tbl α) (f : Nat → α → α) (k : Nat) : Tbl.find (Tbl.mapv t f) k = (Tbl.find t k).map (f k) := by
  induction t with
  | nil => rfl
  | cons x t ih =>
    unfold Tbl.mapv at ih ⊢
    by_cases hk : x.1 = k <;> simp_all [Tbl.find]

/-- SET_CONFIGURATION puts every toggle but endpoint 0's at DATA0 (Table 4.7). -/
theorem eps_configured (v : Device) (value k : Nat) :
    Tbl.find (v.configured value).eps k = (Tbl.find v.eps k).map fun e => if k = 0 then e else e.resync :=
  find_mapv v.eps (fun k e => if k = 0 then e else e.resync) k

theorem answers_setConfiguration {s : State} {d : Nat} {c : DevCtl} (h : s.request d 0x09 = some c) : Answers (.setConfiguration d) s fun t =>
    (t.dev d).st = (if setupValue c.setup = 1 then 2 else if (s.dev d).addr = 0 then 0 else 1) ∧
    (∀ k e, k ≠ 0 → Tbl.find (s.dev d).eps k = some e → Tbl.find (t.dev d).eps k = some e.resync) ∧
    Tbl.find (t.dev d).eps 0 = Tbl.find (s.dev d).eps 0 ∧ (t.dev d).ctl = some { c with ready := true } ∧ OnlyDev d s t := by
  refine answers_of_exec (exec_setConfiguration h) (fun _ cv => execSetConfiguration_keeps d (Keeps.refl s) cv) ?_
  rw [dev_onDev_carried (ctl_of_request h) rfl]
  refine ⟨rfl, fun k e hk he => ?_, ?_, rfl, onDev_carried_onlyDev s d _⟩
  · simp only [eps_configured, he, Option.map_some, if_neg hk]
  · simp only [eps_configured, if_pos, Option.map_id']

theorem answers_setLinkAsym {s : State} {d up : Nat} {c : DevCtl} (h : s.request d 0x0B = some c) (hup : s.upOf d = some up) :
    Answers (.setLinkAsym d) s fun t =>
    t.delay d up = { s.delay d up with asym := signedOf 32 (leNat (c.data.take 4)) } ∧ (t.dev d).ctl = some { c with ready := true } ∧
      OnlyDev d s t := by
  refine answers_of_exec (exec_setLinkAsym h hup) (fun _ cv => execSetLinkAsym_keeps d (Keeps.refl s) cv) ?_
  have hdev := dev_onDev_carried (f := fun v => { v with
    delays := Tbl.upd Delay.init v.delays up fun m => { m with asym := signedOf 32 (leNat (c.data.take 4)) } }) (ctl_of_request h) rfl
  refine ⟨?_, ?_, onDev_carried_onlyDev s d _⟩
  · simp [State.delay, State.onDelay, hdev]
  · simp [State.onDelay, hdev]

/-- Settles O14, a clause for each request: what it does to the device, and then the control transfer is carried out. -/
theorem standardRequestsAreCarriedOut : Obligations.StandardRequestsAreCarriedOut := by
  unfold Obligations.StandardRequestsAreCarriedOut
  refine ⟨?_, ?_, ?_, ?_, ?_, ?_, ?_, ?_, ?_, ?_, ?_⟩
  · exact fun s d up p ha h0 hc hs c => answers_setupReceive_supported ha h0 hc hs c
  · exact fun s d up p ha h0 hc hs c => answers_setupReceive_unsupported ha h0 hc hs c
  · intro s d c h
    exact answers_of_exec (exec_getStatus h) (fun _ cv => execGetStatus_keeps d (Keeps.refl s) cv)
      ⟨congrArg Device.ctl (dev_carried _ (ctl_of_request h)), carried_onlyDev s d _⟩
  · intro s d c e h h0 he
    exact answers_of_exec (exec_clearHalt h h0) (fun _ cv => execClearHalt_keeps d (Keeps.refl s) cv) (onEp_carried _ (ctl_of_request h) he)
  · intro s d c e h h0 he
    exact answers_of_exec (exec_resetEndpoint h h0) (fun _ cv => execResetEndpoint_keeps d (Keeps.refl s) cv)
      (onEp_carried _ (ctl_of_request h) he)
  · intro s d c h
    exact answers_of_exec (exec_setAddress h) (fun _ cv => execSetAddress_keeps d (Keeps.refl s) cv)
      ⟨dev_onDev_carried (ctl_of_request h) rfl, onDev_carried_onlyDev s d _⟩
  · intro s d c h
    exact answers_of_exec (exec_getRecord h) (fun _ cv => execGetRecord_keeps d (Keeps.refl s) cv)
      ⟨dev_carried _ (ctl_of_request h), carried_onlyDev s d _⟩
  · intro s d c h
    exact answers_of_exec (exec_getConfiguration h) (fun _ cv => execGetConfiguration_keeps d (Keeps.refl s) cv)
      ⟨dev_carried _ (ctl_of_request h), carried_onlyDev s d _⟩
  · exact fun s d c h => answers_setConfiguration h
  · intro s d c h
    exact answers_of_exec (exec_setRemoteWake h) (fun _ cv => execSetRemoteWake_keeps d (Keeps.refl s) cv)
      ⟨dev_onDev_carried (ctl_of_request h) rfl, onDev_carried_onlyDev s d _⟩
  · exact fun s d c up h hup => answers_setLinkAsym h hup

end Sys2Proof.Machine
end

section
/-! What is in flight and what has completed (R123, R130, R223): judging readiness, retrying and completing entries start no transaction, and a
completion, once made, stands. -/

namespace Sys2Proof.Machine

/-! ### Entries by number -/

theorem entryOpt_onEntry (s : State) (id i : Nat) {f : Entry → Entry} (hf : ∀ e, (f e).id = e.id) :
    (s.onEntry id f).entry? i = (s.entry? i).map fun e => if e.id = id then f e else e := by
  have hid (e : Entry) : (if e.id = id then f e else e).id = e.id := by split <;> simp [hf]
  unfold State.entry? State.onEntry
  rw [List.find?_map]
  congr 1
  exact congrArg (fun p => s.entries.find? p) (funext fun e => congrArg (· == i) (hid e))

theorem id_of_entryOpt {s : State} {id : Nat} {e : Entry} (h : s.entry? id = some e) : e.id = id := by simpa using List.find?_some h

theorem entryOpt_of_entries {s t : State} (h : t.entries = s.entries) (id : Nat) : t.entry? id = s.entry? id := by simp only [State.entry?, h]

/-! ### Going onward -/

/-- No transaction is new, the entries stand for the same commands, and those that have completed stay as they completed. -/
structure Onward (s t : State) : Prop where
  txns : t.txns ⊆ s.txns
  forCmds : t.entries.map Entry.forCmd = s.entries.map Entry.forCmd
  done : ∀ id d, (s.entry? id).bind Entry.done = some d → (t.entry? id).bind Entry.done = some d

theorem Onward.refl (s : State) : Onward s s := ⟨List.Subset.refl _, rfl, fun _ _ h => h⟩

theorem Onward.trans {s t u : State} (h : Onward s t) (k : Onward t u) : Onward s u :=
  ⟨List.Subset.trans k.txns h.txns, k.forCmds.trans h.forCmds, fun id d hd => k.done id d (h.done id d hd)⟩

theorem Onward.of_eq {s t : State} (ht : t.txns = s.txns) (he : t.entries = s.entries) : Onward s t :=
  ⟨fun _ h => ht ▸ h, by rw [he], fun id d h => by rwa [entryOpt_of_entries he]⟩

theorem Onward.of_keeps {l : List Part} {s t : State} (k : Keeps (within l) s t) (ht : within l .txns = false) (he : within l .entries = false) :
    Onward s t := .of_eq (k.part .txns ht) (k.part .entries he)

theorem Onward.ite {c : Prop} [Decidable c] {s x y : State} (hx : Onward s x) (hy : Onward s y) : Onward s (if c then x else y) := by
  split <;> assumption

theorem Onward.foldl {α : Type} {f : State → α → State} (hf : ∀ s a, Onward s (f s a)) (l : List α) (s : State) : Onward s (l.foldl f s) := by
  induction l generalizing s with
  | nil => exact .refl s
  | cons a l ih => exact (hf s a).trans (ih _)

/-- An entry that has completed keeps its completion. -/
theorem onEntry_onward (s : State) (id : Nat) {f : Entry → Entry} (hid : ∀ e, (f e).id = e.id) (hc : ∀ e, (f e).forCmd = e.forCmd)
    (hd : ∀ e d, e.done = some d → (f e).done = some d) : Onward s (s.onEntry id f) := by
  refine ⟨List.Subset.refl _, ?_, fun i d h => ?_⟩
  · simp only [State.onEntry, List.map_map]
    refine List.map_congr_left fun e _ => ?_
    by_cases h : e.id = id <;> simp [h, hc]
  · obtain ⟨e, he, hed⟩ := Option.bind_eq_some_iff.1 h
    rw [entryOpt_onEntry s id i hid, he]
    simp only [Option.map_some, Option.bind_some]
    split
    · exact hd e d hed
    · exact hed

/-- A change of an entry beside its completion. -/
theorem onEntry_open (s : State) (id : Nat) {f : Entry → Entry} (hf : ∀ e, ((f e).id, (f e).forCmd, (f e).done) = (e.id, e.forCmd, e.done)) :
    Onward s (s.onEntry id f) := by
  simp only [Prod.mk.injEq] at hf
  exact onEntry_onward s id (fun e => (hf e).1) (fun e => (hf e).2.1) fun e d h => (hf e).2.2.trans h

theorem onDeal_onward (s : State) (f : Dealer → Dealer) : Onward s (s.onDeal f) := .of_eq rfl rfl

theorem leavePocket_onward (s : State) (e : Entry) : Onward s (s.leavePocket e) :=
  .of_keeps (l := [.ctxs, .cmgr]) (State.leavePocket_keeps e (Keeps.refl s) (covers_within (by decide))) rfl rfl

/-- The entry of a number completes, unless it has; what it put into the pocket leaves it before. -/
def State.finishing (s : State) (id : Nat) : State :=
  match s.entry? id with
  | some e => if e.done.isNone then s.leavePocket e else s
  | none => s

theorem finishing_onward (s : State) (id : Nat) : Onward s (s.finishing id) := by
  unfold State.finishing
  split
  · exact .ite (leavePocket_onward s _) (.refl s)
  · exact .refl s

/-- An entry as it completes with a status. -/
def Entry.finished (status : Nat) (e : Entry) : Entry :=
  if e.done.isSome then e else { e with st := .done, delay := none, done := some (e.doneWith status) }

theorem finished_id (status : Nat) (e : Entry) : (e.finished status).id = e.id := by
  unfold Entry.finished
  split <;> rfl

theorem finish_eq (s : State) (id status : Nat) : s.finish id status =
    ((((s.finishing id).onEntry id (Entry.finished status)).unlist id).offHand id).abandon fun t => t.entry == some id := rfl

theorem finish_onward (s : State) (id status : Nat) : Onward s (s.finish id status) := by
  have hentry : Onward s ((s.finishing id).onEntry id (Entry.finished status)) := by
    refine (finishing_onward s id).trans (onEntry_onward _ id (finished_id status) (fun e => ?_) fun e d h => ?_)
    · unfold Entry.finished
      split <;> rfl
    · simp [Entry.finished, h]
  rw [finish_eq]
  exact hentry.trans ⟨List.filter_subset_self _, rfl, fun _ _ h => h⟩

/-- An entry that has not completed does so with a status. -/
theorem finish_done {s : State} {id : Nat} {e : Entry} (status : Nat) (he : s.entry? id = some e) (hd : e.done = none) :
    ((s.finish id status).entry? id).bind Entry.done = some (e.doneWith status) := by
  have hentry : (s.finishing id).entry? id = some e := by
    unfold State.finishing
    rw [he]
    refine (entryOpt_of_entries ?_ id).trans he
    simp only [hd, Option.isNone_none, if_true]
    exact (State.leavePocket_keeps e (Keeps.refl s) (covers_within (l := [.ctxs, .cmgr]) (by decide))).part .entries rfl
  have hfin : ((s.finishing id).onEntry id (Entry.finished status)).entry? id = some (e.finished status) := by
    rw [entryOpt_onEntry _ id id (finished_id status), hentry, Option.map_some, if_pos (id_of_entryOpt he)]
  rw [finish_eq, entryOpt_of_entries (t := State.abandon _ _) (s := (s.finishing id).onEntry id (Entry.finished status)) rfl, hfin]
  simp [Entry.finished, hd]

/-! ### Readiness (Table 7.1) -/

theorem load_onward (s : State) (id : Nat) : Onward s (s.load id) := by
  unfold State.load
  split
  · exact .refl s
  · split
    · exact .refl s
    · refine .ite (.refl s) (Onward.trans ?_ (onEntry_open _ id fun _ => by rfl))
      exact .of_keeps (l := [.ctxs, .pool]) (State.pocketPut_keeps _ _ (Keeps.refl s) (covers_within (by decide))) rfl rfl

theorem traceEntry_onward (s : State) (kind : Nat) (e : Entry) (status a b c : Nat) : Onward s (s.traceEntry kind e status a b c) :=
  .of_keeps (l := [.out, .rings, .deal, .icu, .reg .MOV_STS, .reg .ICU_ERR])
    (State.traceEntry_keeps _ _ _ _ _ _ (Keeps.refl s) (covers_within (by decide))) rfl rfl

theorem enlist_onward (s : State) (e : Entry) (head : Bool) (why : Nat) : Onward s (s.enlist e head why) := by
  have h : Onward s ((s.load e.id).onEntry e.id fun e => { e with st := .ready, waitMet := true }) :=
    (load_onward s e.id).trans (onEntry_open _ e.id fun _ => by rfl)
  unfold State.enlist
  generalize (s.load e.id).onEntry e.id (fun e => { e with st := .ready, waitMet := true }) = x at h
  split
  · exact (h.trans (onDeal_onward x _)).trans (traceEntry_onward _ 5 e 0 0 why 0)
  · exact h

theorem holdBack_onward (s : State) (e : Entry) : Onward s (s.holdBack e) := by
  have ho : Onward s (s.offHand e.id) := .of_eq rfl rfl
  unfold State.holdBack
  exact .ite (ho.trans (onEntry_open _ e.id fun _ => by rfl)) ho

theorem wantCtx_onward (s : State) (e : Entry) : Onward s (s.wantCtx e) := by
  have hmiss : Onward s ((s.count .SCH_CTXCNT_MISSES).dirFail s.dirStatus) := by
    have hcount : Keeps (within [.out, .rings, .icu, .reg .SCH_CTXCNT, .reg .MOV_STS, .reg .ICU_ERR]) s (s.count .SCH_CTXCNT_MISSES) :=
      State.count_keeps _ (Keeps.refl s) (covers_within (by decide))
    exact .of_keeps (State.dirFail_keeps _ hcount (covers_within (by decide))) rfl rfl
  unfold State.wantCtx
  refine .ite (.refl s) (.ite ?_ (hmiss.trans (finish_onward _ _ _)))
  unfold State.fetchStart
  exact .ite (.refl s) (.of_eq rfl rfl)

theorem judge_onward (s : State) (why id : Nat) : Onward s (s.judge why id) := by
  unfold State.judge
  split
  case h_1 => exact .refl s
  case h_2 e _ =>
    have hout (st : Nat) : Onward s (if s.earlierOpen e = true then s.holdBack e else s.finish id st) :=
      .ite (holdBack_onward s e) (finish_onward s id st)
    refine .ite (.refl s) (.ite (.ite ?_ (.refl s)) ?_)
    · exact Onward.trans (onEntry_open s id fun _ => by rfl) (finish_onward _ id stOk)
    · split
      · exact wantCtx_onward s e
      · refine .ite (holdBack_onward s e) ?_
        split
        · exact hout stBounds
        · exact hout stBusReset
        · exact .ite (.ite (finish_onward s id stOk) (enlist_onward s e false why)) (.refl s)
        · exact hout stDisconnected
        · exact holdBack_onward s e

theorem eventTake1_onward (s : State) (eph : Nat) : Onward s (s.eventTake1 eph) := by
  unfold State.eventTake1
  split
  · split
    case h_1 k _ _ _ ev rest e _ _ =>
      refine .ite (Onward.trans ?_ (finish_onward _ _ _)) (.refl s)
      refine Onward.trans ?_ (onEntry_open _ e.id fun _ => by rfl)
      exact .of_keeps (l := [.ctxs]) (State.onCtx_keeps eph _ (Keeps.refl s) (covers_within (by decide))) rfl rfl
    case h_2 => exact .refl s
  · exact .refl s

theorem refreshBy_onward (s : State) (why : Entry → Nat) : Onward s (s.refreshBy why) :=
  (Onward.foldl (fun s e => judge_onward s (why e) e.id) s.entries s).trans (.foldl eventTake1_onward _ _)

theorem refresh_onward (s : State) (why : Nat) : Onward s (s.refresh why) := refreshBy_onward s _

/-! ### A transaction's outcome (R128, R240) -/

theorem onCtx_onward (s : State) (eph : Nat) (f : CtxSlot → CtxSlot) : Onward s (s.onCtx eph f) :=
  .of_keeps (l := [.ctxs]) (State.onCtx_keeps eph f (Keeps.refl s) (covers_within (by decide))) rfl rfl

theorem ctxHalt_onward (s : State) (eph status : Nat) : Onward s (s.ctxHalt eph status) :=
  .of_keeps (l := [.out, .ctxs, .rings, .icu, .smp, .reg .MOV_STS, .reg .ICU_ERR, .reg .GTH_CNT, .reg .GTH_DROP, .reg .CDR_EVT, .reg .CDR_FLG])
    (State.ctxHalt_keeps eph status (Keeps.refl s) (covers_within (by decide))) rfl rfl

theorem useCtx_onward (s : State) (eph : Nat) : Onward s (s.useCtx eph) :=
  .of_keeps (l := [.out, .ctxs, .rings, .slices, .icu, .smp, .reg .MOV_STS, .reg .ICU_ERR, .reg .GTH_CNT, .reg .GTH_DROP, .reg .CDR_EVT, .reg .CDR_FLG])
    (State.useCtx_keeps eph (Keeps.refl s) (covers_within (by decide))) rfl rfl

theorem txnDone_onward (s : State) (x : Txn) (status stamp : Nat) (late : Bool) : Onward s (s.txnDone x status stamp late) := by
  have hmirror (s : State) : Onward s (s.mirrorDone x.eph x.toggle status stamp late) :=
    .of_keeps (l := [.out, .twin]) (State.mirrorDone_keeps _ _ _ _ _ (Keeps.refl s) (covers_within (by decide))) rfl rfl
  have hintent (s : State) : Onward s (s.intentDone x.eph status stamp) :=
    .of_keeps (l := [.out, .rings, .icu, .twin, .reg .MOV_STS, .reg .ICU_ERR])
      (State.intentDone_keeps _ _ _ (Keeps.refl s) (covers_within (by decide))) rfl rfl
  have hevent (s : State) : Onward s (s.eventOutcome x.eph status) := by
    unfold State.eventOutcome
    split
    · exact finish_onward s _ status
    · exact .refl s
  unfold State.txnDone
  have h1 : Onward s ((s.ctxCalm x.eph).onCtx x.eph fun k => { k with poisonSeen := false }) := (onCtx_onward s _ _).trans (onCtx_onward _ _ _)
  generalize (s.ctxCalm x.eph).onCtx x.eph (fun k => { k with poisonSeen := false }) = y at h1 ⊢
  have h2 : Onward s (if x.kind = .command then y.mirrorDone x.eph x.toggle status stamp late else y) := .ite (h1.trans (hmirror y)) h1
  dsimp only
  generalize (if x.kind = .command then y.mirrorDone x.eph x.toggle status stamp late else y) = z at h2 ⊢
  refine h2.trans ?_
  cases x.entry with
  | some id => exact finish_onward z id status
  | none => exact .ite (hintent z) (.ite (hevent z) (.refl z))

theorem toHead_onward (s : State) (id : Nat) : Onward s (s.toHead id) := by
  unfold State.toHead
  split
  · exact .ite ((onDeal_onward s _).trans (enlist_onward _ _ _ _)) (.refl s)
  · exact .refl s

theorem again_onward (s : State) (x : Txn) (head : Bool) : Onward s (s.again x head) := by
  unfold State.again
  split
  case h_1 e _ =>
    refine (load_onward s e.id).trans ?_
    generalize s.load e.id = y
    refine .ite (.refl y) (.ite ((finish_onward y _ _).trans (refresh_onward _ 0)) ?_)
    split
    · have hoff : Onward y (y.unlist e.id) := onDeal_onward y _
      have hwait : Onward y ((y.unlist e.id).onEntry e.id fun e => { e with st := .waiting }) := hoff.trans (onEntry_open _ e.id fun _ => by rfl)
      exact .ite (hwait.trans (judge_onward _ 0 e.id)) (.ite (.refl y) (hoff.trans (enlist_onward _ e head 0)))
    · exact .refl y
  case h_2 => exact .refl s

theorem onRun_onward (s : State) (n : Nat) (f : Hand → Hand) : Onward s (s.onRun n f) :=
  .of_keeps (l := [.deal]) (State.onRun_keeps n f (Keeps.refl s) (covers_within (by decide))) rfl rfl

theorem noAnswer_onward (s : State) (x : Txn) : Onward s (s.noAnswer x) := by
  unfold State.noAnswer
  refine (useCtx_onward s x.eph).trans ?_
  generalize s.useCtx x.eph = y
  dsimp only
  split
  · exact .refl y
  · have herr := onCtx_onward y x.eph fun k => { k with ctx := k.ctx.setErrCnt (min 7 x.attempt) }
    refine .ite (txnDone_onward y x _ _ _) (.ite (.ite (onRun_onward y _ _) (.refl y)) (.ite ?_ (.ite herr (.ite ?_ ?_))))
    · have hend (st : Nat) := herr.trans (txnDone_onward _ x st 0 false)
      exact .ite ((Onward.ite (hend _) ((hend _).trans (onCtx_onward _ _ _))).trans (ctxHalt_onward _ _ _))
        (.ite (hend _) ((hend _).trans (onCtx_onward _ _ _)))
    · refine .ite (herr.trans (onRun_onward _ _ _)) (herr.trans ?_)
      split
      · exact toHead_onward _ _
      · exact .refl _
    · exact herr.trans (again_onward _ x true)

theorem afterOutcome_onward (s : State) (eph : Nat) : Onward s (s.afterOutcome eph) := .ite (.refl s) (refresh_onward s 0)

end Sys2Proof.Machine
end

section
/-! Answers act on their transaction (Table 4.5, R123, R128–R130). -/

namespace Sys2Proof.Machine

/-! ### What waits for the controller's own transfers starts no transaction -/

theorem cmdDone_onward (s : State) (r i status result : Nat) : Onward s (s.cmdDone r i status result) :=
  .of_keeps (l := [.cmds]) (State.cmdDone_keeps r i status result (Keeps.refl s) (covers_within (by decide))) rfl rfl

theorem finishWhere_onward (s : State) (p : Entry → Bool) (status : Nat) : Onward s (s.finishWhere p status) :=
  Onward.foldl (fun s (e : Entry) => finish_onward s e.id status) _ s

theorem endEntry_onward (s : State) (e : Entry) (status : Nat) : Onward s (s.endEntry e status) := by
  have h : Onward s (s.onEntry e.id fun e => { e with st := .ended, step1 := true }) := onEntry_open s e.id fun _ => by rfl
  refine (h.trans ?_).trans (refreshBy_onward _ _)
  exact .of_keeps (l := [.out, .rings, .deal, .icu, .reg .SCH_DYN_CNT, .reg .MOV_STS, .reg .ICU_ERR])
    (State.doneCount_keeps e status (Keeps.refl _) (covers_within (by decide))) rfl rfl

theorem startControl_txns (s : State) (eph : Nat) (setup data : List Byte) (cmd : Nat × Nat) : (s.startControl eph setup data cmd).txns ⊆ s.txns :=
  (refresh_onward (s.withControl eph setup data cmd) 0).txns

theorem enumStage_txns (s : State) (c : CmdRec) (stage : Nat) : (s.enumStage c stage).txns ⊆ s.txns := by
  unfold State.enumStage
  extract_lets p eph
  split
  · exact (cmdDone_onward s _ _ _ _).txns
  · exact startControl_txns (s.onCmd c.ring c.idx fun c => { c with stage := stage }) _ _ _ _

theorem enumContext_txns (s : State) (c : CmdRec) : (s.enumContext c).1.txns = s.txns :=
  (State.enumContext_keeps c (Keeps.refl s) (covers_within (l := [.out, .ctxs, .cmgr]) (by decide))).part .txns rfl

/-- An invalid record ends ENUMERATE. -/
theorem enumFail_txns (s : State) (about info r i st res : Nat) :
    (((s.event1 evDeviceFail 0 0 about info).draw).cmdDone r i st res).txns = s.txns :=
  (State.cmdDone_keeps r i st res (State.draw_keeps (State.event1_keeps _ _ _ _ _ (Keeps.refl s)
    (covers_within (l := [.out, .free, .rings, .cmds, .icu, .reg .MOV_STS, .reg .ICU_ERR]) (by decide))) (covers_within (by decide)))
      (covers_within (by decide))).part .txns rfl

theorem enumDone_txns (s : State) (c : CmdRec) (data : List Byte) : (s.enumDone c data).txns ⊆ s.txns := by
  unfold State.enumDone
  extract_lets p a buf next record
  have hnext (s : State) (c : CmdRec) : (next s c).txns ⊆ s.txns := enumStage_txns s c _
  have hrecord (n : Nat) : (record n).txns ⊆ s.txns := by
    dsimp only [record]
    split
    · split
      · generalize hy : ((s.emits _).onCmd c.ring c.idx _).onCmgr _ = y
        have hctx {c1 : CmdRec} {s2 : State} {ok : Bool} (h : y.enumContext c1 = (s2, ok)) : s2.txns = s.txns := by
          rw [show s.txns = y.txns by rw [← hy]; rfl, ← enumContext_txns y c1, h]
        split
        · next h => exact hctx h ▸ hnext _ _
        · next h => exact hctx h ▸ (cmdDone_onward _ _ _ _ _).txns
      · exact hnext ((s.emits _).onCmd c.ring c.idx _) _
    · exact fun _ h => enumFail_txns s _ n _ _ _ _ ▸ h
  split
  · exact hrecord 0
  · exact hnext s c
  · split
    · exact hnext ((s.emits _).onCmd c.ring c.idx _) _
    · exact hnext s c
  · exact List.Subset.refl _
  · exact (cmdDone_onward s _ _ _ _).txns
  · exact hrecord _

theorem internalEnd_txns (s : State) (e : Entry) (d : Done) : (s.internalEnd e d).txns ⊆ s.txns := by
  have hend := (endEntry_onward s e d.status).txns
  unfold State.internalEnd
  split
  · exact List.Subset.refl _
  · next r i _ =>
    refine List.Subset.trans ?_ hend
    generalize s.endEntry e d.status = y
    dsimp only
    split
    · refine List.Subset.trans (refresh_onward _ 0).txns ?_
      split
      · exact List.Subset.refl _
      · exact (ctxHalt_onward _ _ _).txns
    · split
      · exact List.Subset.refl _
      · split
        · exact (cmdDone_onward { y with entries := y.entries.filter fun o => o.id != e.id } _ _ _ _).txns
        · split
          · exact enumDone_txns { y with entries := y.entries.filter fun o => o.id != e.id } _ _
          · exact (cmdDone_onward { y with entries := y.entries.filter fun o => o.id != e.id } _ _ _ _).txns

theorem removeEnd_txns (s : State) (c : CmdRec) : (s.removeEnd c).txns ⊆ s.txns := by
  unfold State.removeEnd
  extract_lets eph s1 s2 drop
  have h2 : s2.txns ⊆ s.txns := by
    have hstop : s2.txns = s1.txns := (State.coderStop_keeps eph (Keeps.refl s1)
      (covers_within (l := [.smp, .reg .GTH_CNT, .reg .GTH_DROP, .reg .CDR_EVT, .reg .CDR_FLG]) (by decide))).part .txns rfl
    exact hstop ▸ (finishWhere_onward s _ _).txns
  clear_value s2
  split
  · exact List.Subset.refl _
  · refine List.Subset.trans ?_ h2
    split
    · exact (cmdDone_onward s2 _ _ _ _).txns
    · have hdrop (s : State) : (drop s).txns = s.txns := by
        exact (State.memberLeft_keeps eph (Keeps.refl _) (covers_within (l := [.smp, .reg .GTH_CNT, .reg .GTH_DROP]) (by decide))).part .txns rfl
      split
      · refine List.Subset.trans (refresh_onward _ 0).txns ?_
        exact hdrop s2 ▸ (cmdDone_onward (drop s2) _ _ _ _).txns
      · split
        · exact (cmdDone_onward s2 _ _ _ _).txns
        · exact hdrop (s2.ctxOut _ _) ▸ (cmdDone_onward _ _ _ _ _).txns

theorem removeEnds_txns (l : List CmdRec) : ∀ s : State, (l.foldl State.removeEnd s).txns ⊆ s.txns := by
  induction l with
  | nil => exact fun s => List.Subset.refl _
  | cons c l ih => exact fun s => List.Subset.trans (ih _) (removeEnd_txns s c)

theorem settle_txns (n : Nat) : ∀ s : State, (s.settle n).txns ⊆ s.txns := by
  induction n with
  | zero => exact fun s => List.Subset.refl _
  | succ n ih =>
    intro s
    unfold State.settle
    split
    · split
      · exact List.Subset.trans (ih _) (internalEnd_txns s _ _)
      · exact List.Subset.refl _
    · exact removeEnds_txns _ s

/-! ### What an answer does (Table 4.5) -/

/-- The transactions of a tag on a port are in flight no more. -/
def State.landed (s : State) (n tag : Nat) : State := { s with txns := s.txns.filter fun y => !(y.port == n && y.tag == tag) }

theorem landed_txns {s t : State} {n tag : Nat} (h : t.txns ⊆ (s.landed n tag).txns) : ∀ y ∈ t.txns, ¬(y.port = n ∧ y.tag = tag) := by
  rintro y hy ⟨hport, htag⟩
  obtain ⟨-, hkept⟩ := List.mem_filter.1 (h hy)
  simp [hport, htag] at hkept

theorem landed_onward (s : State) (n tag : Nat) : Onward s (s.landed n tag) := ⟨List.filter_subset_self _, rfl, fun _ _ h => h⟩

section
variable {s : State} {n t tEnd : Nat} {p : Pkt} {poisoned : Bool} {x : Txn}

theorem exec_answer_unsolicited (h : (s.txns.find? fun x => x.port == n && x.tag == p.tag) = none) :
    exec (.answerReceive n p poisoned t tEnd) s = .next ((s.at_ tEnd).count .SCH_XERR_UNSOLICITED) := by
  have h' : ((s.at_ tEnd).txns.find? fun x => x.port == n && x.tag == p.tag) = none := h
  change execAnswerReceive n p poisoned t tEnd s = _
  simp only [execAnswerReceive, h']

theorem exec_answer_late (h : (s.txns.find? fun x => x.port == n && x.tag == p.tag) = some x) (hw : s.waited x (t * 10) = true) :
    exec (.answerReceive n p poisoned t tEnd) s = .next (((((((s.at_ tEnd).landed n p.tag).traceAnswer x t (16 + p.pid)).noAnswer x).count
      .SCH_XERR_UNSOLICITED).afterOutcome x.eph).settled.suspendTry n tEnd) := by
  have h' : ((s.at_ tEnd).txns.find? fun x => x.port == n && x.tag == p.tag) = some x := h
  have hw' : (s.at_ tEnd).waited x (t * 10) = true := hw
  change execAnswerReceive n p poisoned t tEnd s = _
  simp only [execAnswerReceive, h', hw', if_true, State.landed]

theorem exec_answer_poisoned (h : (s.txns.find? fun x => x.port == n && x.tag == p.tag) = some x) (hw : s.waited x (t * 10) = false) :
    exec (.answerReceive n p true t tEnd) s = .next ((s.at_ tEnd).onCtx x.eph fun k => { k with poisonSeen := true }) := by
  have h' : ((s.at_ tEnd).txns.find? fun x => x.port == n && x.tag == p.tag) = some x := h
  have hw' : (s.at_ tEnd).waited x (t * 10) = false := hw
  change execAnswerReceive n p true t tEnd s = _
  simp only [execAnswerReceive, h', hw', if_true, Bool.false_eq_true, if_false]

theorem exec_answer (h : (s.txns.find? fun x => x.port == n && x.tag == p.tag) = some x) (hw : s.waited x (t * 10) = false) :
    exec (.answerReceive n p false t tEnd) s = .next (((((((s.at_ tEnd).landed n p.tag).traceAnswer x t p.pid).takeAnswer x p t tEnd).afterOutcome
      x.eph).settled).suspendTry n tEnd) := by
  have h' : ((s.at_ tEnd).txns.find? fun x => x.port == n && x.tag == p.tag) = some x := h
  have hw' : (s.at_ tEnd).waited x (t * 10) = false := hw
  change execAnswerReceive n p false t tEnd s = _
  simp only [execAnswerReceive, h', hw', Bool.false_eq_true, if_false, State.landed]

theorem answers_unsolicited (h : (s.txns.find? fun x => x.port == n && x.tag == p.tag) = none) :
    Answers (.answerReceive n p poisoned t tEnd) s fun t' =>
    t'.fget .SCH_XERR_UNSOLICITED = satAdd 65535 (s.fget .SCH_XERR_UNSOLICITED) 1 ∧ t'.txns = s.txns ∧ t'.entries = s.entries ∧ t'.ctxs = s.ctxs ∧
    t'.out = s.out ∧ OnlyFields [.SCH_XERR_UNSOLICITED] s t' :=
  answers_of_exec (exec_answer_unsolicited h) (fun _ cv => execAnswerReceive_keeps n p poisoned t tEnd (Keeps.refl s) cv)
    ⟨fgetN_countN (s.at_ tEnd) .SCH_XERR_UNSOLICITED 0 1 rfl, rfl, rfl, rfl, rfl, (OnlyFields.refl _ s).fsetN (by simp) 0 _⟩

theorem answers_poisoned {k : CtxSlot} (h : (s.txns.find? fun x => x.port == n && x.tag == p.tag) = some x) (hw : s.waited x (t * 10) = false)
    (hk : s.ctx? x.eph = some k) : Answers (.answerReceive n p true t tEnd) s fun t' =>
      t'.ctx? x.eph = some { k with poisonSeen := true } ∧ t'.txns = s.txns ∧ t'.entries = s.entries ∧ t'.out = s.out ∧ OnlyFields [] s t' := by
  have hkeeps : Keeps (within [.tim, .ctxs]) s ((s.at_ tEnd).onCtx x.eph fun k => { k with poisonSeen := true }) :=
    State.onCtx_keeps _ _ (State.at__keeps tEnd (Keeps.refl s) (covers_within (by decide))) (covers_within (by decide))
  refine answers_of_exec (exec_answer_poisoned h hw) (fun _ cv => execAnswerReceive_keeps n p true t tEnd (Keeps.refl s) cv)
    ⟨?_, hkeeps.part .txns rfl, hkeeps.part .entries rfl, hkeeps.part .out rfl, (OnlyFields.refl _ s).of_keeps hkeeps fun _ => rfl⟩
  have hk' : (s.at_ tEnd).ctx? x.eph = some k := hk
  rw [ctxOpt_onCtx, if_pos rfl, hk', Option.map_some]

/-- What an answer is traced and acted on as leaves the count of unsolicited ones alone. -/
def outcomeParts : List Part := [.out, .free, .ctxs, .cmgr, .txns, .rings, .entries, .cmds, .deal, .slices, .icu, .pool, .twin, .smp, .ports, .links,
  .reg .SCH_DYN_CNT, .reg .SCH_CTXCNT, .reg .MOV_STS, .reg .ICU_ERR, .reg .GTH_CNT, .reg .GTH_DROP, .reg .CDR_EVT, .reg .CDR_FLG]

theorem noAnswer_outcome (s : State) (x : Txn) (t pid : Nat) : Keeps (within outcomeParts) s ((s.traceAnswer x t pid).noAnswer x) :=
  State.noAnswer_keeps x (State.traceAnswer_keeps x t pid (Keeps.refl s) (covers_within (by decide))) (covers_within (by decide))

/-- What follows a transaction's outcome. -/
theorem after_outcome (s : State) (eph n t : Nat) : Keeps (within outcomeParts) s ((s.afterOutcome eph).settled.suspendTry n t) :=
  State.suspendTry_keeps n t (State.settled_keeps (State.afterOutcome_keeps eph (Keeps.refl s) (covers_within (by decide)))
    (covers_within (by decide))) (covers_within (by decide))

theorem after_txns (s : State) (eph n t : Nat) : ((s.afterOutcome eph).settled.suspendTry n t).txns ⊆ s.txns := by
  have htry (s : State) : (s.suspendTry n t).txns = s.txns :=
    (State.suspendTry_keeps n t (Keeps.refl s) (covers_within (l := [.out, .ports, .links]) (by decide))).part .txns rfl
  rw [htry]
  exact List.Subset.trans (settle_txns _ _) (afterOutcome_onward s eph).txns

theorem traceAnswer_onward (s : State) (x : Txn) (t pid : Nat) : Onward s (s.traceAnswer x t pid) :=
  .of_keeps (l := [.out, .rings, .deal, .icu, .reg .MOV_STS, .reg .ICU_ERR])
    (State.traceAnswer_keeps x t pid (Keeps.refl s) (covers_within (by decide))) rfl rfl

/-- A late answer is counted, and what follows from it starts nothing. -/
theorem answers_late (h : (s.txns.find? fun x => x.port == n && x.tag == p.tag) = some x) (hw : s.waited x (t * 10) = true) :
    Answers (.answerReceive n p poisoned t tEnd) s fun t' =>
      t'.fget .SCH_XERR_UNSOLICITED = satAdd 65535 (s.fget .SCH_XERR_UNSOLICITED) 1 ∧ (∀ y ∈ t'.txns, ¬(y.port = n ∧ y.tag = p.tag)) := by
  let u := (s.at_ tEnd).landed n p.tag
  let v := (u.traceAnswer x t (16 + p.pid)).noAnswer x
  have hout : v.fget .SCH_XERR_UNSOLICITED = s.fget .SCH_XERR_UNSOLICITED := (noAnswer_outcome u x t _).fgetN rfl 0
  have hgone : v.txns ⊆ u.txns := ((traceAnswer_onward u x t _).trans (noAnswer_onward _ x)).txns
  refine answers_of_exec (exec_answer_late h hw) (fun _ cv => execAnswerReceive_keeps n p poisoned t tEnd (Keeps.refl s) cv)
    ⟨?_, landed_txns (List.Subset.trans (after_txns _ x.eph n tEnd) hgone)⟩
  calc _ = (v.count .SCH_XERR_UNSOLICITED).fget .SCH_XERR_UNSOLICITED := (after_outcome _ x.eph n tEnd).fgetN rfl 0
    _ = satAdd 65535 (v.fget .SCH_XERR_UNSOLICITED) 1 := fgetN_countN v .SCH_XERR_UNSOLICITED 0 1 rfl
    _ = _ := by rw [hout]

end

end Sys2Proof.Machine
end

section
/-! ACK and STALL of a BULK OUT transfer (Table 4.5, R129): the answer completes it, and what follows leaves the completion and the context. -/

namespace Sys2Proof.Machine

/-! ### A trace record leaves the owners of the rings -/

theorem slice_onRing (s : State) (r q : Nat) {f : Ring → Ring} (hf : ∀ g, (f g).slice = g.slice) : ((s.onRing r f).ring q).slice = (s.ring q).slice := by
  by_cases h : q = r
  · rw [h, State.ring_onRing_same, hf]
  · rw [State.ring_onRing_other _ _ h]

theorem slice_keepRecord (s : State) (r q : Nat) (b : List Byte) : ((s.keepRecord r b).ring q).slice = (s.ring q).slice :=
  slice_onRing s r q fun g => by split <;> rfl

theorem slice_ringError (s : State) (r q reason : Nat) : ((s.ringError r reason).ring q).slice = (s.ring q).slice := by
  refine slice_onRing s r q ?_
  exact fun _ => rfl

theorem slice_writeRecord (s : State) (r q : Nat) (b : List Byte) : ((s.writeRecord r b).ring q).slice = (s.ring q).slice := by
  have hr (x : State) : (x.ringRequest r).rings = x.rings :=
    (State.ringRequest_keeps (P := within [.out, .icu, .reg .ICU_ERR]) r (Keeps.refl x) (covers_within (by decide))).part .rings rfl
  have he (x : State) (n : Nat) : (x.engineDone n).rings = x.rings :=
    (State.engineDone_keeps (P := within [.reg .MOV_STS]) n (Keeps.refl x) (covers_within (by decide))).part .rings rfl
  unfold State.writeRecord
  rw [State.ring_of_rings (hr _), State.ring_of_rings (he _ _), slice_onRing, State.ring_emits]
  exact fun g => by unfold Ring.advance; rfl

theorem slice_geoFail (s : State) (r q : Nat) : ((s.geoFail r).ring q).slice = (s.ring q).slice := by
  unfold State.geoFail
  dsimp only
  split
  · split
    · rw [slice_writeRecord, slice_ringError]
    · rw [slice_keepRecord, slice_keepRecord, slice_ringError, slice_ringError]
  · rw [slice_keepRecord, slice_ringError]

theorem slice_trace (s : State) (q kind frame : Nat) (port sl eph : Option Nat) (cls status ring idx a b c : Nat) :
    ((s.trace kind frame port sl eph cls status ring idx a b c).ring q).slice = (s.ring q).slice := by
  have hput (s : State) (r : Nat) (b : List Byte) : ((s.putRecord r b).ring q).slice = (s.ring q).slice := by
    unfold State.putRecord
    split
    · exact slice_writeRecord s r q b
    · exact slice_geoFail s r q
  have hite {c : Prop} [Decidable c] {x y : State} (hx : (x.ring q).slice = (s.ring q).slice) (hy : (y.ring q).slice = (s.ring q).slice) :
      ((if c then x else y).ring q).slice = (s.ring q).slice := by split <;> assumption
  unfold State.trace
  exact hite (hite (hput (s.onDeal _) 2 _) rfl) rfl

theorem traceAnswer_keeps (s : State) (x : Txn) (t pid : Nat) : Keeps (within [.out, .rings, .deal, .icu, .reg .MOV_STS, .reg .ICU_ERR]) s
    (s.traceAnswer x t pid) := State.traceAnswer_keeps x t pid (Keeps.refl s) (covers_within (by decide))

/-- A context passes its check after the trace as before. -/
theorem ctxOk_traceAnswer (s : State) (x : Txn) (t pid eph : Nat) (c : Ctx) : (s.traceAnswer x t pid).ctxOk eph c = s.ctxOk eph c := by
  have hk := traceAnswer_keeps s x t pid
  have hring (q : Nat) : ((s.traceAnswer x t pid).ring q).slice = (s.ring q).slice := by
    unfold State.traceAnswer
    exact slice_trace s q _ _ _ _ _ _ _ _ _ _ _ _
  have hn : (s.traceAnswer x t pid).nSlices = s.nSlices := hk.fgetN (g := .GCTL_CAPS_SLICES) rfl 0
  have hs (n : Nat) : (s.traceAnswer x t pid).slice n = s.slice n := congrArg (fun l => Tbl.get Slice.init l n) (hk.part .slices rfl)
  simp only [State.ctxOk, hring, hn, hs]

/-! ### The context of an answer (R152) -/

/-- A context that passes its check is used as it is; of its window, where that is itself unequal, a report is made (R332). -/
theorem useCtx_sound {s : State} {eph : Nat} {k : CtxSlot} (hk : s.ctx? eph = some k) (hb : k.bad = false) (hok : s.ctxOk eph k.ctx = true) :
    Keeps (within [.out, .rings, .slices, .icu, .reg .MOV_STS, .reg .ICU_ERR]) s (s.useCtx eph) := by
  unfold State.useCtx
  simp only [hk, hb, hok, if_true, Bool.false_eq_true, if_false]
  split
  · exact State.boundsBroken_keeps _ _ (Keeps.refl s) (covers_within (by decide))
  · exact Keeps.refl s

/-- The state in which an answer acts: it is traced, and its context is checked. -/
def State.heard (s : State) (x : Txn) (t pid : Nat) : State := (s.traceAnswer x t pid).useCtx x.eph

def heardParts : List Part := [.out, .rings, .deal, .slices, .icu, .reg .MOV_STS, .reg .ICU_ERR]

theorem heard_keeps {s : State} {x : Txn} {k : CtxSlot} (t pid : Nat) (hk : s.ctx? x.eph = some k) (hb : k.bad = false)
    (hok : s.ctxOk x.eph k.ctx = true) : Keeps (within heardParts) s (s.heard x t pid) := by
  have htrace := traceAnswer_keeps s x t pid
  have hk' : (s.traceAnswer x t pid).ctx? x.eph = some k := (congrArg (Tbl.find · x.eph) (htrace.part .ctxs rfl)).trans hk
  have huse := useCtx_sound hk' hb ((ctxOk_traceAnswer s x t pid _ _).trans hok)
  exact (htrace.mono (by decide)).trans (huse.mono (by decide))

/-! ### The answers -/

section
variable {s : State} {x : Txn} {k : CtxSlot} {p : Pkt} {t tEnd : Nat}

theorem takeAnswer_ack (hk : (s.heard x t p.pid).ctx? x.eph = some k) (hb : k.bad = false) (hp : p.pid = 8) (hx : x.kind = .callOut) :
    (s.traceAnswer x t p.pid).takeAnswer x p t tEnd = (s.heard x t p.pid).acceptOut x k t tEnd false := by
  unfold State.heard at hk ⊢
  simp only [State.takeAnswer, hk, hb, hx]
  simp [State.answerOut, hp, pidAck, pidStall]

theorem takeAnswer_stall (hk : (s.heard x t p.pid).ctx? x.eph = some k) (hb : k.bad = false) (hp : p.pid = 11) (hf : p.pflags % 16 ≠ 4) :
    (s.traceAnswer x t p.pid).takeAnswer x p t tEnd = (s.heard x t p.pid).txnHalt x stStall := by
  unfold State.heard at hk ⊢
  simp only [State.takeAnswer, hk, hb]
  simp [hp, hf, pidStall]

end

/-- OUT data was accepted: the toggle has flipped, and the bytes have left the pocket. -/
def State.outTaken (s : State) (x : Txn) (tEnd id : Nat) : State :=
  ((((s.ctxCalm x.eph).flip x.eph).stamped x tEnd).pocketFree x.eph x.data.length).onEntry id fun e => { e with moved := e.moved + x.data.length }

theorem acceptOut_last {s : State} {x : Txn} {k : CtxSlot} {e : Entry} {t tEnd : Nat} (hx : x.entry = some e.id) (he : s.entry? e.id = some e)
    (hc : k.ctx.cls = 4) (hl : e.left 4 ≤ x.data.length) :
    s.acceptOut x k t tEnd false = (s.outTaken x tEnd e.id).txnDone x stOk 0 false := by
  simp [State.acceptOut, hx, he, hc, hl, State.outTaken]

/-- The entry that sent the bytes, as it stands then (R64, R65, R182). -/
def Entry.acked (e : Entry) (n tEnd qc : Nat) : Entry := { e with ts := some tEnd, qc := qc, nakRun := 0, moved := e.moved + n }

/-- The context's toggle and pocket are written first. -/
theorem flip_keeps (s : State) (eph : Nat) : Keeps (within [.ctxs]) s ((s.ctxCalm eph).flip eph) :=
  State.onCtx_keeps _ _ (State.onCtx_keeps _ _ (Keeps.refl s) (covers_within (by decide))) (covers_within (by decide))

theorem outTaken_entry {s : State} {x : Txn} {e : Entry} {tEnd : Nat} (hx : x.entry = some e.id) (he : s.entry? e.id = some e) :
    (s.outTaken x tEnd e.id).entry? e.id = some (e.acked x.data.length tEnd s.tim.tickClass) := by
  have hflip := flip_keeps s x.eph
  have hfree (y : State) : (y.pocketFree x.eph x.data.length).entries = y.entries :=
    (State.pocketFree_keeps _ _ (Keeps.refl y) (covers_within (l := [.ctxs, .cmgr]) (by decide))).part .entries rfl
  have hentry : ((s.ctxCalm x.eph).flip x.eph).entry? e.id = some e := (entryOpt_of_entries (hflip.part .entries rfl) _).trans he
  have htim : ((s.ctxCalm x.eph).flip x.eph).tim = s.tim := hflip.part .tim rfl
  unfold State.outTaken State.stamped
  rw [hx, entryOpt_onEntry _ _ _ (by exact fun _ => rfl), entryOpt_of_entries (hfree _), entryOpt_onEntry _ _ _ (by exact fun _ => rfl), hentry]
  simp [htim, Entry.acked]

theorem outTaken_onward (s : State) (x : Txn) (tEnd id : Nat) : Onward s (s.outTaken x tEnd id) := by
  have hstamp (y : State) : Onward y (y.stamped x tEnd) := by
    unfold State.stamped
    split
    · exact onEntry_open y _ fun _ => by rfl
    · exact .refl y
  have hfree (y : State) : Onward y (y.pocketFree x.eph x.data.length) :=
    .of_keeps (l := [.ctxs, .cmgr]) (State.pocketFree_keeps _ _ (Keeps.refl y) (covers_within (by decide))) rfl rfl
  have hflip : Onward s ((s.ctxCalm x.eph).flip x.eph) := .of_keeps (flip_keeps s x.eph) rfl rfl
  exact ((hflip.trans (hstamp _)).trans (hfree _)).trans (onEntry_open _ id fun _ => by rfl)

/-! ### State and toggle of a context (Table 4.7, Table 4.17) -/

/-- State and toggle. -/
def CtxSlot.mark (k : CtxSlot) : Nat × Nat := (k.ctx.state, k.ctx.toggle)

/-- Of a cached context its state and toggle. -/
def State.mark (s : State) (eph : Nat) : Option (Nat × Nat) := (s.ctx? eph).map CtxSlot.mark

theorem Steady.mark {kept : Option Nat} {s t : State} (h : Steady kept s t) (eph : Nat) : t.mark eph = s.mark eph := by
  have hs (x : State) : x.mark eph = ((x.ctx? eph).map CtxSlot.face).map fun f => (f.1.state, f.1.toggle) := by
    simp only [State.mark, Option.map_map]
    rfl
  rw [hs, hs, h.ctx]

theorem mark_onCtx (s : State) (e eph : Nat) {f : CtxSlot → CtxSlot} (hf : ∀ k, (f k).mark = k.mark) : (s.onCtx e f).mark eph = s.mark eph := by
  unfold State.mark
  rw [ctxOpt_onCtx]
  split
  · simp only [Option.map_map, Function.comp_def, hf]
  · rfl

theorem mark_of_ctxs {s t : State} (h : t.ctxs = s.ctxs) (eph : Nat) : t.mark eph = s.mark eph := by simp only [State.mark, State.ctx?, h]

theorem toggle_lt (c : Ctx) : c.toggle < 2 := Nat.mod_lt _ (by decide)

/-- The error count lies below the toggle and the state. -/
theorem setErrCnt_mark (c : Ctx) (v : Nat) : (c.setErrCnt v).state = c.state ∧ (c.setErrCnt v).toggle = c.toggle := by
  simp only [Ctx.state, Ctx.toggle, Ctx.setErrCnt, nset, nfield]
  omega

theorem setToggle_mark (c : Ctx) {v : Nat} (h : v < 2) : (c.setToggle v).state = c.state ∧ (c.setToggle v).toggle = v := by
  simp only [Ctx.state, Ctx.toggle, Ctx.setToggle, nset, nfield]
  omega

theorem ctxCalm_mark (s : State) (e eph : Nat) : (s.ctxCalm e).mark eph = s.mark eph :=
  mark_onCtx s e eph fun k => Prod.ext (setErrCnt_mark k.ctx 0).1 (setErrCnt_mark k.ctx 0).2

theorem flip_mark {s : State} {eph st tog : Nat} (h : s.mark eph = some (st, tog)) : (s.flip eph).mark eph = some (st, 1 - tog) := by
  obtain ⟨k, hk, hm⟩ := Option.map_eq_some_iff.1 h
  obtain ⟨rfl, rfl⟩ := Prod.ext_iff.1 hm
  obtain ⟨hst, htog⟩ := setToggle_mark k.ctx (v := 1 - k.ctx.toggle) (by omega)
  unfold State.mark State.flip
  rw [ctxOpt_onCtx, if_pos rfl, hk]
  exact congrArg some (Prod.ext hst htog)

theorem outTaken_mark {s : State} {x : Txn} {st tog : Nat} (tEnd id : Nat) (h : s.mark x.eph = some (st, tog)) :
    (s.outTaken x tEnd id).mark x.eph = some (st, 1 - tog) := by
  have hstamp (y : State) : Steady none y (y.stamped x tEnd) := by
    unfold State.stamped
    split
    · exact onEntry_steady y _ (by exact fun _ _ => rfl)
    · exact .refl y
  have hfree (y : State) : Steady none y (y.pocketFree x.eph x.data.length) := onPocket_steady y _ (by exact fun _ => rfl)
  have hrest : Steady none ((s.ctxCalm x.eph).flip x.eph) (s.outTaken x tEnd id) :=
    ((hstamp _).trans (hfree _)).trans (onEntry_steady _ id (by exact fun _ _ => rfl))
  rw [hrest.mark]
  exact flip_mark ((ctxCalm_mark s _ _).trans h)

/-! ### The end of the transfer -/

section
variable {s : State} {x : Txn} {id : Nat} (hx : x.entry = some id) (hk : x.kind ≠ .command)
include hx hk

/-- The transfer of a transaction other than a COMMAND completes as its entry does. -/
theorem txnDone_eq (status stamp : Nat) (late : Bool) : s.txnDone x status stamp late =
    ((s.ctxCalm x.eph).onCtx x.eph fun k => { k with poisonSeen := false }).finish id status := by
  simp [State.txnDone, hx, hk]

theorem txnDone_mark (status stamp : Nat) (late : Bool) (eph : Nat) : (s.txnDone x status stamp late).mark eph = s.mark eph := by
  rw [txnDone_eq hx hk, (finish_steady (kept := none) _ status (by simp)).mark, mark_onCtx _ _ _ (by exact fun _ => rfl), ctxCalm_mark]

theorem txnDone_done {e : Entry} (status stamp : Nat) (late : Bool) (he : s.entry? id = some e) (hd : e.done = none) :
    ((s.txnDone x status stamp late).entry? id).bind Entry.done = some (e.doneWith status) := by
  have hcalm : Keeps (within [.ctxs]) s ((s.ctxCalm x.eph).onCtx x.eph fun k => { k with poisonSeen := false }) :=
    State.onCtx_keeps _ _ (State.onCtx_keeps _ _ (Keeps.refl s) (covers_within (by decide))) (covers_within (by decide))
  rw [txnDone_eq hx hk]
  exact finish_done status ((entryOpt_of_entries (hcalm.part .entries rfl) id).trans he) hd

end

theorem ctxSt_eq_mark (s : State) (eph : Nat) : s.ctxSt eph = (s.mark eph).map Prod.fst := by
  simp only [State.ctxSt, State.mark, Option.map_map]
  rfl

/-- Its event leaves the context's state. -/
theorem endpointEvent_mark (s : State) (e status eph : Nat) : (s.endpointEvent e status).mark eph = s.mark eph := by
  have hevent (r st info0 info1 : Nat) : (s.event r evEndpoint status st info0 info1).ctxs = s.ctxs :=
    (State.event_keeps _ _ _ _ _ _ (Keeps.refl s) (covers_within (l := [.out, .rings, .icu, .reg .MOV_STS, .reg .ICU_ERR]) (by decide))).part .ctxs rfl
  unfold State.endpointEvent
  split
  · exact (mark_onCtx _ _ _ fun _ => by rfl).trans (mark_of_ctxs (hevent _ _ _ _) eph)
  · rfl

/-- A RUNNING context of an endpoint other than 0 halts (R129). -/
theorem ctxHalt_ctxSt {s : State} {eph : Nat} (status : Nat) (h0 : Eph.ep eph ≠ 0) (h : s.ctxSt eph = some 2) :
    (s.ctxHalt eph status).ctxSt eph = some 3 := by
  obtain ⟨k, hk, h2⟩ := Option.map_eq_some_iff.1 h
  have hmove : (s.ctxMove eph 3).ctxSt eph = some 3 := by
    have hstop (y : State) : (y.coderStop eph).ctxs = y.ctxs := (State.coderStop_keeps eph (Keeps.refl y)
      (covers_within (l := [.smp, .reg .GTH_CNT, .reg .GTH_DROP, .reg .CDR_EVT, .reg .CDR_FLG]) (by decide))).part .ctxs rfl
    have hctx (y : State) : (y.coderStop eph).ctxSt eph = y.ctxSt eph := by simp only [State.ctxSt, State.ctx?, hstop]
    have hset : (s.ctxMove eph 3).ctxSt eph = (s.onCtx eph fun k => { k with
        ctx := k.ctx.setState 3, leftState := if 3 = 4 then k.ctx.state else k.leftState, dirty := true }).ctxSt eph := hctx _
    rw [hset, State.ctxSt, ctxOpt_onCtx, if_pos rfl, hk]
    exact congrArg some (k.ctx.setState_state (by decide))
  unfold State.ctxHalt State.ctxChange
  rw [if_neg h0, hk]
  simp only [h2, if_true, Nat.reduceEqDiff, if_false]
  rw [ctxSt_eq_mark, endpointEvent_mark, ← ctxSt_eq_mark, hmove]

/-! ### What follows in a quiet state -/

/-- With no transfer of the controller's own and no EP_REMOVE waiting, what follows an outcome keeps completions, and contexts but for their
pockets. -/
theorem after_quiet {s y : State} (hq : Quiet s) (h : Onward s y) (hc : y.cmds = s.cmds) (eph n t : Nat) :
    Onward y ((y.afterOutcome eph).settled.suspendTry n t) ∧ Steady none y ((y.afterOutcome eph).settled.suspendTry n t) := by
  obtain ⟨hforCmd, hremove⟩ := hq
  have hafter := afterOutcome_onward y eph
  have hcmds : (y.afterOutcome eph).cmds = y.cmds := (State.afterOutcome_keeps eph (Keeps.refl y)
    (covers_within (l := [.out, .ctxs, .cmgr, .txns, .rings, .entries, .deal, .icu, .pool, .reg .SCH_CTXCNT, .reg .MOV_STS, .reg .ICU_ERR])
      (by decide))).part .cmds rfl
  have hnone := forCmd_none_of_map (hafter.forCmds.trans h.forCmds) hforCmd
  have hsettled : (y.afterOutcome eph).settled = y.afterOutcome eph :=
    settled_of_quiet (fun e he hf => by rw [hnone e he] at hf; cases hf) fun c hm => hremove c (hc ▸ hcmds ▸ hm)
  have htry : Keeps (within [.out, .ports, .links]) (y.afterOutcome eph) ((y.afterOutcome eph).suspendTry n t) :=
    State.suspendTry_keeps n t (Keeps.refl _) (covers_within (by decide))
  have hsteady : Steady none y (y.afterOutcome eph) := Steady.ite (.refl y) (refresh_steady 0 (guarded_none y))
  rw [hsettled]
  exact ⟨hafter.trans (.of_keeps htry rfl rfl), hsteady.trans (.of_eq (htry.part .rings rfl) (htry.part .ctxs rfl) (htry.part .entries rfl))⟩

/-! ### ACK and STALL -/

section
variable {s : State} {n t tEnd : Nat} {p : Pkt} {x : Txn}

/-- An answer that acts in a quiet state: what its action leaves stays, but for what follows of it for readiness. -/
theorem answers_outcome {y : State} {Q : State → Prop} (hq : Quiet s) (hx : (s.txns.find? fun x => x.port == n && x.tag == p.tag) = some x)
    (hw : s.waited x (t * 10) = false) (hact : (((s.at_ tEnd).landed n p.tag).traceAnswer x t p.pid).takeAnswer x p t tEnd = y)
    (hon : Onward ((s.at_ tEnd).landed n p.tag) y)
    (q : ∀ t', Onward y t' → Steady none y t' → (∀ z ∈ t'.txns, ¬(z.port = n ∧ z.tag = p.tag)) → Q t') :
    Answers (.answerReceive n p false t tEnd) s Q := by
  have hcmds : y.cmds = s.cmds := by
    rw [← hact]
    exact (State.takeAnswer_keeps x p t tEnd (traceAnswer_keeps _ x t p.pid |>.mono (by decide)) (covers_within (l := [.out, .links, .ctxs, .cmgr, .txns,
      .rings, .entries, .deal, .slices, .icu, .pool, .twin, .smp, .reg .SCH_NAK_CNT, .reg .SCH_CTXCNT, .reg .SCH_XERR, .reg .MOV_STS, .reg .ICU_ERR,
      .reg .GTH_EVT, .reg .GTH_CNT, .reg .GTH_DROP, .reg .CDR_EVT, .reg .CDR_FLG]) (by decide))).part .cmds rfl
  obtain ⟨hafter, hsteady⟩ := after_quiet (s := (s.at_ tEnd).landed n p.tag) hq hon hcmds x.eph n tEnd
  refine answers_of_exec (exec_answer hx hw) (fun _ cv => execAnswerReceive_keeps n p false t tEnd (Keeps.refl s) cv) ?_
  rw [hact]
  exact q _ hafter hsteady (landed_txns (hon.trans hafter).txns)

variable {k : CtxSlot} {e : Entry}

/-- What an answer finds: a context that passes its check, and the entry. -/
theorem heard_finds (hk : s.ctx? x.eph = some k) (hb : k.bad = false) (hok : s.ctxOk x.eph k.ctx = true) (he : s.entry? e.id = some e) :
    (((s.at_ tEnd).landed n p.tag).heard x t p.pid).ctx? x.eph = some k ∧
    (((s.at_ tEnd).landed n p.tag).heard x t p.pid).entry? e.id = some e ∧
    (((s.at_ tEnd).landed n p.tag).heard x t p.pid).tim.tickClass = s.tim.tickClass ∧
    Onward ((s.at_ tEnd).landed n p.tag) (((s.at_ tEnd).landed n p.tag).heard x t p.pid) := by
  have hheard := heard_keeps (s := (s.at_ tEnd).landed n p.tag) t p.pid hk hb hok
  have htim : (((s.at_ tEnd).landed n p.tag).heard x t p.pid).tim = ((s.at_ tEnd).landed n p.tag).tim := hheard.part .tim rfl
  exact ⟨(congrArg (Tbl.find · x.eph) (hheard.part .ctxs rfl)).trans hk, (entryOpt_of_entries (hheard.part .entries rfl) _).trans he,
    (congrArg TimeBase.tickClass htim).trans rfl, .of_keeps hheard rfl rfl⟩

/-- ACK of the last packet. -/
theorem answers_ack (hq : Quiet s) (hx : (s.txns.find? fun x => x.port == n && x.tag == p.tag) = some x) (hw : s.waited x (t * 10) = false)
    (hp : p.pid = 8) (hout : x.kind = .callOut) (hk : s.ctx? x.eph = some k) (hb : k.bad = false) (hok : s.ctxOk x.eph k.ctx = true)
    (hc : k.ctx.cls = 4) (hentry : x.entry = some e.id) (he : s.entry? e.id = some e) (hd : e.done = none) (hl : e.left 4 ≤ x.data.length) :
    Answers (.answerReceive n p false t tEnd) s fun t' =>
      (t'.entry? e.id).bind Entry.done = some ⟨stOk, e.moved + x.data.length, e.late, some tEnd, s.tim.tickClass, e.more⟩ ∧
      (t'.ctx? x.eph).map (fun k => k.ctx.toggle) = some (1 - k.ctx.toggle) ∧ (∀ y ∈ t'.txns, ¬(y.port = n ∧ y.tag = p.tag)) := by
  obtain ⟨hctx, hent, htick, hon⟩ := heard_finds (n := n) (p := p) (t := t) (tEnd := tEnd) hk hb hok he
  have hne : x.kind ≠ .command := by rw [hout]; decide
  have hact := (takeAnswer_ack (tEnd := tEnd) hctx hb hp hout).trans (acceptOut_last hentry hent hc hl)
  refine answers_outcome hq hx hw hact (hon.trans ((outTaken_onward _ x tEnd e.id).trans (txnDone_onward _ x _ _ _))) fun t' hafter hsteady hgone =>
    ⟨?_, ?_, hgone⟩
  · rw [hafter.done _ _ (txnDone_done hentry hne stOk 0 false (outTaken_entry hentry hent) hd), htick]
    rfl
  · have hmark : t'.mark x.eph = some (k.ctx.state, 1 - k.ctx.toggle) := by
      rw [hsteady.mark, txnDone_mark hentry hne]
      exact outTaken_mark tEnd e.id (by rw [State.mark, hctx]; rfl)
    have htog := congrArg (Option.map Prod.snd) hmark
    rwa [State.mark, Option.map_map] at htog

/-- STALL. -/
theorem answers_stall (hq : Quiet s) (hx : (s.txns.find? fun x => x.port == n && x.tag == p.tag) = some x) (hw : s.waited x (t * 10) = false)
    (hp : p.pid = 11) (hf : p.pflags % 16 ≠ 4) (hk : s.ctx? x.eph = some k) (hb : k.bad = false) (hok : s.ctxOk x.eph k.ctx = true)
    (h2 : k.ctx.state = 2) (h0 : Eph.ep x.eph ≠ 0) (hout : x.kind = .callOut) (hentry : x.entry = some e.id) (he : s.entry? e.id = some e)
    (hd : e.done = none) : Answers (.answerReceive n p false t tEnd) s fun t' =>
      (t'.entry? e.id).bind Entry.done = some (e.doneWith stStall) ∧ t'.ctxSt x.eph = some 3 ∧ (∀ y ∈ t'.txns, ¬(y.port = n ∧ y.tag = p.tag)) := by
  obtain ⟨hctx, hent, -, hon⟩ := heard_finds (n := n) (p := p) (t := t) (tEnd := tEnd) hk hb hok he
  have hne : x.kind ≠ .command := by rw [hout]; decide
  refine answers_outcome hq hx hw (takeAnswer_stall hctx hb hp hf) (hon.trans ((txnDone_onward _ x _ _ _).trans (ctxHalt_onward _ _ _)))
    fun t' hafter hsteady hgone => ⟨?_, ?_, hgone⟩
  · exact hafter.done _ _ ((ctxHalt_onward _ _ _).done _ _ (txnDone_done hentry hne stStall 0 false hent hd))
  · rw [hsteady.ctxSt]
    refine ctxHalt_ctxSt _ h0 ?_
    rw [ctxSt_eq_mark, txnDone_mark hentry hne, State.mark, hctx]
    exact congrArg some h2

end

/-- Settles O18, a clause for each kind of answer: one that finds no transaction, one that is late or poisoned, and ACK and STALL of a BULK OUT
transfer. -/
theorem answersActOnTheirTransaction : Obligations.AnswersActOnTheirTransaction := by
  unfold Obligations.AnswersActOnTheirTransaction
  refine ⟨?_, ?_, ?_, ?_, ?_⟩
  · exact fun s n p poisoned t tEnd h => answers_unsolicited h
  · exact fun s n p poisoned t tEnd x h hw => answers_late h hw
  · exact fun s n p t tEnd x k h hw hk => answers_poisoned h hw hk
  · intro s n p t tEnd x k e hq hx hw hp hout hk hb hok hc hentry he hd hl
    exact answers_ack hq hx hw hp hout hk hb hok hc hentry he hd hl
  · intro s n p t tEnd x k e hq hx hw hp hf hk hb hok _ h2 h0 hout hentry he hd
    exact answers_stall hq hx hw hp hf hk hb hok h2 h0 hout hentry he hd

end Sys2Proof.Machine
end

section
/-! Where the statements of transactions and endpoints fail: each by a state whose parts the rules allow one by one, and that the model evaluates. -/

namespace Sys2Proof.Machine

/-! ### Parts of the states -/

/-- An entry that has passed its checks and waits for nothing, of an endpoint and a kind. -/
def Entry.unlisted (id eph kind : Nat) : Entry where
  id := id
  slice := 1
  ring := 9
  tds := []
  bell := 0
  needCtx := false
  hostFail := false
  isEntry := true
  forCmd := none
  eph := eph
  kind := kind
  flow := 0
  len := 1
  st := .waiting
  waitMet := false
  counted := false
  delay := none
  nakRun := 0
  nyFrom := none
  spilled := false
  started := false
  data := []
  moved := 0
  stage := 0
  setup := []
  ts := none
  qc := 0
  more := false
  late := false
  done := none
  hostOut := 0
  step1 := false

/-- A RUNNING BULK context of slice 1 on ring 9, with its complements. -/
def Ctx.bulkOf (eph : Nat) : Ctx :=
  { Ctx.zero with
    key0 := 4 * 2 ^ 29 + 3 * 2 ^ 25 + eph, key0n := 2 ^ 32 - 1 - (4 * 2 ^ 29 + 3 * 2 ^ 25 + eph)
    key1 := 2 ^ 40, key1n := 2 ^ 64 - 1 - 2 ^ 40
    key2 := 4 * 2 ^ 10 + 9, key2n := 2 ^ 32 - 1 - (4 * 2 ^ 10 + 9)
    w32 := 2 * 2 ^ 28 }

/-- The descriptor of EP_REMOVE of an endpoint (Table 5.21). -/
def removeOf (eph : Nat) : List Byte :=
  leBytes 4 (2 ^ 31 + 0x11 * 2 ^ 16 + 0xEE * 2 ^ 8) ++ leBytes 4 0 ++ leBytes 8 0 ++ leBytes 8 eph ++ leBytes 8 0

/-- EP_REMOVE of an endpoint, taken at place 0 of ring 0 and in progress. -/
def removing (eph stage : Nat) : CmdRec := ⟨0, 0, none, 0x11, removeOf eph, none, 0, stage, 0, ⟨[]⟩, [], []⟩

/-- Two BULK OUT endpoints of the device at address 5 on port 2. -/
def epThree : Nat := Eph.mk 2 5 0 3
def epFour : Nat := Eph.mk 2 5 0 4

/-! ### DATA with the PID of a CALL_OUT (O13) -/

/-- The COMMAND endpoint of a module that has executed its last command, whose DATA had an even PID. -/
def DevEp.echoKept : DevEp := { DevEp.init with cls := 1, lastToggle := some 0, echo := some [] }

/-- Module 0 is CONFIGURED with that endpoint, and its upstream link is up. -/
def State.echoKept : State :=
  { State.reset with
    links := [(LinkEndId.code (.dev 0 0), { LinkEnd.init with up := true })]
    devs := [(0, { Device.init with st := 2, eps := [(1, DevEp.echoKept)] })] }

/-- A packet to that endpoint with the PID of a CALL_OUT. -/
def callOutPkt : Pkt := ⟨2, false, 0, 0, 0, 1, 0, 1, []⟩

theorem echoKept_serves : Serves 0 callOutPkt DevEp.echoKept State.echoKept := by
  unfold Serves
  decide

theorem echoKept_clearUp : ClearUp 0 0 State.echoKept := by
  unfold ClearUp FreeToSend
  decide

theorem exec_echoKept : exec (.commandReceive 0 callOutPkt callOutPkt 0 0) State.echoKept = .next (State.echoKept.answerUp 0 callOutPkt 2 3 []) := rfl

/-- A CALL_OUT leaves with the DATA behind it (R122), and the echo has none. -/
theorem echoKept_waits : (State.echoKept.answerUp 0 callOutPkt 2 3 []).out = [] := by decide

/-- Refutes O13: the echo of a COMMAND takes the PID of its DATA, of which the statement says nothing; with the PID of a CALL_OUT it waits for the DATA
that goes with one. -/
theorem not_callOutsAndCommandsAct : ¬ Obligations.CallOutsAndCommandsAct := by
  unfold Obligations.CallOutsAndCommandsAct
  rintro ⟨-, -, -, -, -, hrepeated, -⟩
  obtain ⟨t, ht, -, ⟨hout, -⟩, -⟩ := hrepeated _ 0 0 _ callOutPkt _ [] 0 0 echoKept_serves echoKept_clearUp (by decide) (by decide) (by decide)
    (by decide) (by decide) (by decide)
  rw [exec_echoKept] at ht
  cases ht
  rw [echoKept_waits] at hout
  exact absurd (congrArg List.length hout) (by decide)

/-! ### A hand that loses an item at the deadline (O17) -/

/-- The item of entry 7 in a hand. -/
def HandItem.ofSeven : HandItem := ⟨4, epThree, .callOut, some 7, 100, 500, 0, 1, false, false, false, 0, 0, none⟩

/-- A complete hand with that item. -/
def Hand.ofSeven : Hand := { Hand.empty 0 with items := [HandItem.ofSeven], complete := true }

/-- Every root port has that hand for the next frame, and EP_REMOVE of the endpoint of entry 7 waits. -/
def State.handHeld : State :=
  { State.reset with
    entries := [{ Entry.unlisted 7 epThree 0 with st := .running }]
    cmds := [removing epThree 1]
    deal := { Dealer.init with next := (upto State.reset.nPorts).map fun n => (n, Hand.ofSeven) } }

theorem exec_handHeld : exec (.handDeadline []) State.handHeld =
    .next (((State.handHeld.at_ (State.handHeld.nextTick - 3000)).composeAll []).settled) := rfl

/-- EP_REMOVE ends entry 7, which leaves its hand. -/
theorem handHeld_empties :
    ((((State.handHeld.at_ (State.handHeld.nextTick - 3000)).composeAll []).settled).handNext 0).map Hand.items = some [] := by decide

/-- Refutes O17: at the deadline an EP_REMOVE that waits completes what is pending on its endpoint, and that takes it off a hand that was composed before. -/
theorem not_handsRunTheirTransactions : ¬ Obligations.HandsRunTheirTransactions := by
  unfold Obligations.HandsRunTheirTransactions
  rintro ⟨-, -, hdeadline, -⟩
  have hhand : State.handHeld.handNext 0 = some Hand.ofSeven := by decide
  obtain ⟨t, ht, -, -, hports⟩ := hdeadline State.handHeld []
  obtain ⟨hkept, -⟩ := hports 0 (by decide)
  rw [exec_handHeld] at ht
  cases ht
  have hitems := handHeld_empties
  rw [hkept _ hhand] at hitems
  exact absurd hitems (by decide)

/-! ### A context that comes back to its pocket (O19) -/

/-- The context of `epThree` is being fetched; when it was evicted, eight bytes of its pocket had been read (R158). -/
def State.fetchesBack : State :=
  { (State.reset.onRing 9 fun g => { g with slice := some 1 }).onSlice 1 fun x => { x with win := 256, winN := ~~~ 256#64 } with
    cmgr := { CtxMgr.init with
      dir := 1, dirN := ~~~ 1#64, fetching := [epThree], away := [(epThree, CtxSlot.of { Ctx.bulkOf epThree with rdPtr := 8 } 0)] } }

/-- Its slot in host memory: the directory at 0 names the page at 4096. -/
def slotAddr : Nat := 4096 + epThree % 64 * 64

/-- The bytes of the slot, whose read offset is 0. -/
def slotImage : List Byte := (Ctx.bulkOf epThree).toBytes

def slotHost : CtxHost := ⟨[(State.dirEntryAddr 0 epThree, .ok (leBytes 8 4097)), (slotAddr, .ok slotImage)]⟩

/-- The context lands with the read offset of its pocket. -/
theorem fetchesBack_rdPtr :
    ((((State.fetchesBack.engineEnd (.context epThree) 0).fetchDone epThree slotHost).engineDone
      (State.fetchesBack.engineOf (.context epThree))).ctx? epThree).map (fun k => k.ctx.rdPtr) = some 8 := by decide

theorem exec_fetchesBack : exec (.contextFetchDone epThree slotHost) State.fetchesBack =
    .next (((State.fetchesBack.engineEnd (.context epThree) 0).fetchDone epThree slotHost).engineDone
      (State.fetchesBack.engineOf (.context epThree))) := by
  have hfree : State.fetchesBack.engineFree (.context epThree) = true := by decide
  have hlands : (((State.fetchesBack.engineEnd (.context epThree) 0).fetchDone epThree slotHost).ctx? epThree).isSome = true := by decide
  have hnew : (State.fetchesBack.ctx? epThree).isNone = true := by decide
  change execContextFetchDone epThree slotHost State.fetchesBack = _
  simp only [execContextFetchDone, hfree, hlands, hnew, Bool.not_true, Bool.and_self, Bool.false_eq_true, if_false, if_true]

/-- Refutes O19: a context that was evicted with its pocket in use comes back with the pocket's read offset, not with that of its slot in host memory. -/
theorem not_missingAnswersEndOrRetry : ¬ Obligations.MissingAnswersEndOrRetry := by
  unfold Obligations.MissingAnswersEndOrRetry
  rintro ⟨-, -, -, -, -, hfetched⟩
  obtain ⟨t, ht, -, hctx, -⟩ := hfetched State.fetchesBack epThree slotHost slotAddr slotImage (by decide) (by decide) (by decide) (by decide)
    (by decide) (by decide) (by decide) (by decide) (by decide) (by decide)
  rw [exec_fetchesBack] at ht
  cases ht
  have hread := congrArg (Option.map Ctx.rdPtr) hctx
  rw [Option.map_map] at hread
  exact absurd (fetchesBack_rdPtr.symm.trans hread) (by decide)

/-! ### Two EP_REMOVEs at one place (O23) -/

/-- Ring 0 hands over an EP_REMOVE of `epThree`, whose context is RUNNING; at the same place of the ring an EP_REMOVE of another endpoint, which has no
context, was taken before and has not completed. -/
def State.removesTwice : State :=
  { (State.reset.fset .HLT_START_READY 1).onRing 0 fun g => { g with st := 1, geo := 0x400A0#64, geoN := ~~~ 0x400A0#64, tail := 1 } with
    ctxs := [(epThree, CtxSlot.of (Ctx.bulkOf epThree) 0)]
    cmds := [removing epFour 0] }

theorem removesTwice_accepted : Accepted 0 0x11 (removeOf epThree) State.removesTwice := by
  refine ⟨by decide, by decide, by decide, by decide, by decide, by decide, by decide, fun h => absurd h (by decide), by decide,
    fun _ => by decide, by decide, by decide, by decide, by decide, by decide, by decide, fun a n h => ?_⟩
  exact absurd h (by simp [cmdAddress])

theorem removesTwice_quiet : Quiet State.removesTwice := by
  refine ⟨?_, ?_⟩ <;> decide

/-- Both commands stand at one place, so that BOUNDS of the first is the status of both. -/
theorem removesTwice_bounds : ∃ t, exec (.epRemove 0 (.ok (removeOf epThree)) ⟨[]⟩) State.removesTwice = .next t ∧
    t.cmds.map CmdRec.status = [some stBounds, some stBounds] := ⟨_, rfl, by decide⟩

/-- Refutes O23: where an EP_REMOVE of an endpoint without a context, taken before at the same place of the ring, has not completed, both complete
BOUNDS with it. -/
theorem not_endpointCommandsAct : ¬ Obligations.EndpointCommandsAct := by
  unfold Obligations.EndpointCommandsAct
  rintro ⟨-, hremove, -⟩
  obtain ⟨t, ht, -, ⟨-, c, hc, -, -, -, -, hst, -⟩, -⟩ := hremove State.removesTwice 0 (removeOf epThree) ⟨[]⟩ epThree
    (CtxSlot.of (Ctx.bulkOf epThree) 0) removesTwice_quiet removesTwice_accepted (by unfold EpFor; decide) (by decide) (by decide) (by decide) (by decide)
  obtain ⟨u, hu, hbounds⟩ := removesTwice_bounds
  rw [hu] at ht
  cases ht
  have hmem : c.status ∈ t.cmds.map CmdRec.status := List.mem_map_of_mem hc
  rw [hbounds, hst] at hmem
  exact absurd hmem (by decide)

/-! ### Spilling that is enabled over a waiting entry (O26) -/

/-- READY, with a BULK entry that waits for nothing and is on no list yet. -/
def State.unlistedReady : State :=
  { State.reset.fset .HLT_START_READY 1 with
    ctxs := [(epThree, CtxSlot.of (Ctx.bulkOf epThree) 0)], entries := [Entry.unlisted 7 epThree 0] }

theorem exec_unlistedReady :
    exec (.spillEnable true) State.unlistedReady = .next ((State.unlistedReady.spillEnable true).admitWaiting.refresh 5) := by
  have hready : State.unlistedReady.ready = true := by decide
  change execSpillEnable true State.unlistedReady = _
  simp only [execSpillEnable, State.whenReady, hready, if_true]

/-- The entry joins the BULK list. -/
theorem unlistedReady_listed :
    ((State.unlistedReady.spillEnable true).admitWaiting.refresh 5).deal.lists = [⟨2, 2, 1, 7⟩] := by decide

/-- Refutes O26: SPILL_ENABLE judges the entries that wait, and one that is ready joins its list, so that more of the dealer changes than the spill
area. -/
theorem not_dealerDynamicsAct : ¬ Obligations.DealerDynamicsAct := by
  unfold Obligations.DealerDynamicsAct
  rintro ⟨-, -, -, -, henable, -⟩
  obtain ⟨t, ht, -, -, -, -, hdeal⟩ := henable State.unlistedReady (by decide) (by decide)
  rw [exec_unlistedReady] at ht
  cases ht
  have hlists := congrArg Dealer.lists hdeal
  rw [unlistedReady_listed] at hlists
  exact absurd hlists (by decide)

end Sys2Proof.Machine
end
